-- ==== Sys2Proof/Word.lean ====
section
/-!
DEFINITION. The word types of the device: registers and instruction words are 32 bits (R6), memory is bytes,
activations are 16 bits (R89), and a position value has 48 bits (R279).
-/

namespace Sys2Proof

/-- A byte of memory or of a message. -/
abbrev Byte := BitVec 8

/-- A register, an instruction word or a sequencer register (R6, R186). -/
abbrev Word := BitVec 32

/-- A 16-bit tensor element, int16 or bf16 (Table 3.1). -/
abbrev Half := BitVec 16

end Sys2Proof
end

