-- ==== Sys2Proof/Syntax.lean ====
section
/-!
DEFINITION. The commands of the block: one constructor per row of the table of operations and events, with the
operands that the command needs. What comes from outside the device (frame bytes, sensor readings, the outcome of a
verify step, the levels of pins) is an operand; what the device holds is not. Indices count from zero (R31).
-/

namespace Sys2Proof

/-- Cluster c, 0 to 15 (R31). -/
abbrev Cluster := Fin 16
/-- Core k of its cluster, 0 to 7 (R31). -/
abbrev Core := Fin 8
/-- A physical engine of a core: ME0 to ME15, and 16 for the spare engine MES (R23, R32). -/
abbrev Eng := Fin 17
/-- Row group RG0 to RG3 of an engine (R47). -/
abbrev RowGroup := Fin 4
/-- A function and the owner it stands for: 0 = physical function, 1 to 128 = tenant (R294). -/
abbrev Func := Fin 129
/-- Sequencer thread TH0 to TH7 of a cluster (R186). -/
abbrev Thread := Fin 8
/-- Stream context (R167). -/
abbrev Ctx := Fin 128
/-- Station ID (R153). -/
abbrev StationId := Fin 4096
/-- Master identity of Table 11.5 (R302). -/
abbrev Master := Fin 256

/-- A flit as the receiver takes it in (Table 12.1), its CRC checked and its TYPE given by the command's row. -/
structure Flit where
  /-- Link channel -/
  lchan   : BitVec 8
  /-- Flit sequence number -/
  fseq    : BitVec 12
  /-- Source device ID -/
  src     : BitVec 3
  /-- Destination device ID -/
  dst     : BitVec 3
  /-- Highest FSEQ received in order by the sender -/
  ackseq  : BitVec 12
  /-- The LEN payload bytes used -/
  payload : List Byte
deriving DecidableEq, Repr

/-- The four stamps of one delay exchange, in ns (R339). -/
structure Stamps where
  t1 : Nat
  t2 : Nat
  t3 : Nat
  t4 : Nat
deriving DecidableEq, Repr

/-- What takes an Edeneg port down (R348). -/
inductive LinkDownCause where
  | lanesLost | replays | domainOff | enCleared
deriving DecidableEq, Repr

/-- What makes a die reset (R377, R385, R453). `pfWrite` carries the KEY and DIE bits of the write of GCTL_RESET. -/
inductive DieResetCause where
  | rstN
  | pfWrite (key : BitVec 16) (die : Bool)
deriving DecidableEq, Repr

/-- The switched power domains of Table 15.1 (R386). -/
inductive Domain where
  | core (cl : Cluster) (co : Core)
  | shared (cl : Cluster)
  | host | link | gate | loader | dac | obs
deriving DecidableEq, Repr

/-- The rails that the on-die monitors watch (R453). -/
inductive Rail where
  | vddCore | vddAna | vddPgm | vddIo | vddWio | serdes
deriving DecidableEq, Repr

/-- A regulator's answer to one telemetry read: STATUS_WORD and output power in mW (R389). -/
structure RegAnswer where
  status : BitVec 16
  mw     : Nat
deriving DecidableEq, Repr

/-- A firmware image in the SPI NOR that the ROM can read (R380): its header's versions, and whether its signature verifies
under the fused firmware root. -/
structure Image where
  version    : Nat
  secver     : Nat
  calver     : Nat
  authentic  : Bool
deriving DecidableEq, Repr

/-- What a start finds outside the die: the real-time clock in seconds if it answers (R370), the two image slots
(R380), the 72 sensor readings of step 6 in 1/8 degree C (R372), and the slots of the regulators in the boot
configuration (R389). -/
structure PowerOnInputs where
  rtc     : Option Nat
  imageA  : Option Image
  imageB  : Option Image
  sensors : List Int
  slots   : List (BitVec 32)
deriving DecidableEq, Repr

/-- What an ERASE names: a model, or engines of a core (Table 9.3). -/
inductive EraseTarget where
  | model (id : Word)
  | engines (cl : Cluster) (co : Core) (mask : BitVec 17)
deriving DecidableEq, Repr

/-- Who waits for a device-issued read of host memory (R295, R296). -/
inductive HostReader where
  | ingest (eng : Fin 8)
  | loader (b : Fin 2)
  | ring (fn : Func)
  | bitstream (fn : Func)
deriving DecidableEq, Repr

/-- The paths that keep a coalescing table: the Sett log and the event queue of each function (R444). -/
inductive EventPath where
  | log
  | queue (fn : Func)
deriving DecidableEq, Repr

/-- The value words of a position trigger (R288). -/
inductive TrgWord where
  | vall | valh | period
deriving DecidableEq, Repr

/-- An access by the debug port (R426). -/
inductive DebugAccess where
  | readReg  (off : BitVec 26)
  | writeReg (off : BitVec 26) (v : Word)
  | readMem  (off : BitVec 27) (len : Nat)
  | writeMem (off : BitVec 27) (data : List Byte)
  | settWrite (off : BitVec 18) (data : List Byte)
deriving DecidableEq, Repr

/-- A read of BAR0: the function whose aperture it is in, and the offset (R25). -/
structure RegRead where
  fn  : Func
  off : BitVec 26
deriving DecidableEq, Repr

/-- A transition of an input of a position port, and whether the level rises (R278). -/
structure PortEdge where
  port : Fin 4
  rise : Bool
deriving DecidableEq, Repr

/-- A transition of a sync input, and whether the level rises (R276). -/
structure SyncInEdge where
  input : Fin 2
  rise  : Bool
deriving DecidableEq, Repr

/-- The commands of the block, one constructor per row of the table of operations. The first operand `now` of each is
the device time in ns (R20) at which the command comes about. -/
inductive Instr where
  /-- REGISTER_WRITE, R7: A host write to a register field that has no row of its own stores or ignores the value as its access type states. -/
  | registerWrite (now : Nat) (fn : Func) (off : BitVec 26) (v : Word) (be : BitVec 4) (poisoned : Bool)
  /-- PAIRED_VALUE_READ, R292: A read of the low register of a 48-bit or 64-bit pair returns the low bits and latches the high register. -/
  | pairedValueRead (now : Nat) (r : RegRead)
  /-- BAR2_READ, R26: A host read over BAR2 of on-die SRAM completes with data, poison or an abort. -/
  | bar2Read (now : Nat) (fn : Func) (off : BitVec 27) (len : Nat)
  /-- BAR2_WRITE, R26: A host write over BAR2 writes SRAM, using a read-modify-write for partial ECC words. -/
  | bar2Write (now : Nat) (fn : Func) (off : BitVec 27) (data : List Byte) (poisoned : Bool)
  /-- ACCERR_CLEAR, R30: Writing 1 to GCTL_ACCERR.VALID clears the capture and re-arms it. -/
  | accerrClear (now : Nat)
  /-- CM_REQUEST_PROMOTE, R35: A core-memory request that has waited 32 cycles at its bank is promoted above all requests that are not promoted. -/
  | cmRequestPromote (now : Nat) (cl : Cluster) (co : Core) (off : BitVec 19) (req : Fin 24) (since : Nat)
  /-- PROG_TOKEN_GRANT, R43: A waiting request for a programming token is granted from the die-wide pool. -/
  | progTokenGrant (now : Nat)
  /-- VECTOR_LOAD, R55: The input buffer loads an input vector, forms its codes and runs zero detection. -/
  | vectorLoad (now : Nat) (cl : Cluster) (co : Core) (e : Fin 16)
  /-- ENGINE_PHASE, R54: One nibble phase is driven, sampled and converted, and its corrected contribution is added to the accumulators. -/
  | enginePhase (now : Nat) (cl : Cluster) (co : Core) (e : Fin 16)
  /-- READOUT_COPY, R68: The accumulator bank is copied into the readout latch and cleared, once the latch is free. -/
  | readoutCopy (now : Nat) (cl : Cluster) (co : Core) (e : Fin 16)
  /-- CHAIN_ADD, R69: The chain adder sums the members' readout latches into the head's latch once the chain is ready and the adder is free. -/
  | chainAdd (now : Nat) (cl : Cluster) (co : Core)
  /-- OUTPUT_STAGE, R72: The output stage of a lone engine or chain head handles a result vector as its OUT field selects. -/
  | outputStage (now : Nat) (cl : Cluster) (co : Core) (e : Fin 16)
  /-- VXE_RESCALE, R464: An OUT = 1 vector is moved to the VXE and given the floating-point rescale when the VXE takes it. -/
  | vxeRescale (now : Nat) (cl : Cluster) (co : Core)
  /-- PARTIAL_SUM_ADD, R73: Partial-sum vectors from cluster memory are added to the result once their tiles are full. -/
  | partialSumAdd (now : Nat) (cl : Cluster) (co : Core) (e : Fin 16)
  /-- ENGINE_CLR_CNT, R87: Writing ME_CTL.CLR_CNT clears the engine counters. -/
  | engineClrCnt (now : Nat) (cl : Cluster) (co : Core) (e : Eng)
  /-- OCU_VECTOR_SERVICE, R128: The OCU serves a vector request and adds the clip residuals and weak-cell terms to the accumulators. -/
  | ocuVectorService (now : Nat) (cl : Cluster)
  /-- OCU_ESCALATION_SERVICE, R62: The OCU serves an escalation and adds the exact phase sums of the masked columns. -/
  | ocuEscalationService (now : Nat) (cl : Cluster)
  /-- OCU_CLR_CNT, R131: Writing OCU_CTL.CLR_CNT clears the OCU counters and HIWAT. -/
  | ocuClrCnt (now : Nat) (cl : Cluster)
  /-- TRACKER_UPDATE, R107: At each 1 ms interval a row group's drift tracker updates gamma and delta from its samples, or defers. -/
  | trackerUpdate (now : Nat) (cl : Cluster) (co : Core) (e : Eng) (rg : RowGroup)
  /-- KEEPALIVE_BURST, R109: A keep-alive burst runs at a vector boundary to supply missing gain samples, and the deferred update is made. -/
  | keepaliveBurst (now : Nat) (cl : Cluster) (co : Core) (e : Eng) (rg : RowGroup)
  /-- TRACKER_FIRST_UPDATE, R110: A provisional tracker makes its first update as soon as 64 gain samples have accumulated. -/
  | trackerFirstUpdate (now : Nat) (cl : Cluster) (co : Core) (e : Eng) (rg : RowGroup)
  /-- DAC_SERVE_CLUSTER, R117: The stimulus DAC takes the next queued cluster calibration request. -/
  | dacServeCluster (now : Nat)
  /-- CONVERTER_CALIBRATION, R112: A full sine-histogram calibration attempt of an engine completes and is accepted or discarded. -/
  | converterCalibration (now : Nat) (cl : Cluster) (co : Core) (e : Eng) (codesHit amplitudeOk offsetOk : Bool)
  /-- TWO_POINT_CHECK, R114: A two-point check of an engine completes and its trims are refined, or full calibration is scheduled. -/
  | twoPointCheck (now : Nat) (cl : Cluster) (co : Core) (e : Eng) (within : Bool)
  /-- TRIM_REFRESH_DUE, R120: The trim refresh interval of the band expires and a refresh pass is requested. -/
  | trimRefreshDue (now : Nat) (cl : Cluster)
  /-- TOUCHUP_DUE, R121: A row group's touch-up account reaches 1 and its touch-up falls due. -/
  | touchupDue (now : Nat) (cl : Cluster) (co : Core) (e : Eng) (rg : RowGroup)
  /-- TOUCHUP_STEP, R122: A touch-up verify or pulse step runs on a row at a vector boundary. -/
  | touchupStep (now : Nat) (cl : Cluster) (co : Core) (e : Eng) (rg : RowGroup) (low high : List (Fin 276))
  /-- OWL_WINDOW_CLOSE, R133: An Owl slot closes a window of 256 eligible tiles and judges its statistics. -/
  | owlWindowClose (now : Nat) (cl : Cluster) (slot : Fin 32)
  /-- RELEARN, R137: Writing OWL_SnCTL.RELEARN returns the slot to warm-up. -/
  | relearn (now : Nat) (fn : Func) (cl : Cluster) (slot : Fin 32)
  /-- SDAC_SPAN_ROUTE_CHANGE, R147: A write of SDAC_CTL.SPAN or ROUTE starts or extends a safe-value passage. -/
  | sdacSpanRouteChange (now : Nat) (byHost : Bool) (span : BitVec 2) (route : BitVec 5)
  /-- PASSAGE_END, R147: The safe-value hold ends and the generator resumes at the new span and route. -/
  | passageEnd (now : Nat)
  /-- SDAC_FTW_WRITE, R145: A write of SDAC_FTW is clamped and takes effect at the next sample without phase reset. -/
  | sdacFtwWrite (now : Nat) (byHost : Bool) (v : Word)
  /-- SESSION_REQUEST, R149: Writing 1 to SDAC_CTL.SESSION requests a board-test session. -/
  | sessionRequest (now : Nat)
  /-- SESSION_GRANT, R149: The session is granted once no cluster calibration is running or queued. -/
  | sessionGrant (now : Nat)
  /-- SESSION_END, R149: Writing 0 to SESSION ends the session and the DAC passes to the safe value. -/
  | sessionEnd (now : Nat)
  /-- SESSION_TIMEOUT, R149: The device ends a session 100 ms after it was granted. -/
  | sessionTimeout (now : Nat)
  /-- LOOPCAL, R150: Writing SDAC_CTL.LOOPCAL within a session starts external loopback calibration. -/
  | loopcal (now : Nat)
  /-- LOOPCAL_DONE, R150: Loopback calibration ends with CAL_NOLOAD, CAL_BADLOAD or new trims written to Sett. -/
  | loopcalDone (now : Nat) (ohms : Nat)
  /-- TILE_START, R201: A stepper picks a ready station on a unit set, consumes a grant and takes its input tile. -/
  | tileStart (now : Nat) (cl : Cluster) (co : Core) (u : Fin 20)
  /-- TILE_COMPLETE, R201: A station's tile completes, output slots are marked Full and input slots released at the tile boundary. -/
  | tileComplete (now : Nat) (cl : Cluster) (co : Core) (d : Fin 64)
  /-- STATION_PARK, R16: A level-1 park takes effect at the station's next tile boundary. -/
  | stationPark (now : Nat) (st : StationId)
  /-- STATION_UNPARK, R154: An unparked station resumes with the oldest full slot of its input route. -/
  | stationUnpark (now : Nat) (st : StationId)
  /-- MIGRATION_REQUEST, R180: A level-1 migration of a station is requested, to take effect at an epoch boundary. -/
  | migrationRequest (now : Nat) (st : StationId) (cl : Cluster) (co : Core) (d : Fin 64) (image : List Word) (bases : List (BitVec 16))
  /-- TMV_TRANSFER, R164: A tile mover starts carrying a queued tile in bursts, or has it refused. -/
  | tmvTransfer (now : Nat) (cl : Cluster) (co : Core)
  /-- TMV_TRANSFER_DONE, R164: A transfer's last burst is written, the target slot is marked Full and the source Empty. -/
  | tmvTransferDone (now : Nat) (cl : Cluster) (co : Core)
  /-- TMV_RETRY, R164: A refused tile is queued again once the target domain is on and its slot is Empty. -/
  | tmvRetry (now : Nat) (cl : Cluster) (co : Core)
  /-- OPEN_CONTEXT, R167: The OPEN_CONTEXT command opens and binds a stream context for its owner. -/
  | openContext (now : Nat) (fn : Func) (entry : List Word)
  /-- CLOSE_CONTEXT, R167: The CLOSE_CONTEXT command discards queued descriptors and makes the context Closing. -/
  | closeContext (now : Nat) (fn : Func) (entry : List Word)
  /-- CONTEXT_CLOSED, R167: A Closing context becomes Closed when its job in progress finishes. -/
  | contextClosed (now : Nat) (ctx : Ctx)
  /-- POST, R311: A write to a stream control's POST checks the frame descriptor and queues or refuses it. -/
  | post (now : Nat) (fn : Func) (ctx : Ctx)
  /-- INGEST_JOB_START, R170: A free ingest engine takes a job by weighted round-robin and latches DTIME and the source value. -/
  | ingestJobStart (now : Nat) (eng : Fin 8) (frame : List Byte) (bad : List Nat)
  /-- INGEST_JOB_DONE, R169: An ingest job finishes writing its tiles and its engine becomes free. -/
  | ingestJobDone (now : Nat) (eng : Fin 8)
  /-- ECC_SCRUB_WRITE, R175: The controller rewrites a corrected word with correct check bits at the next free bank cycle. -/
  | eccScrubWrite (now : Nat) (word : BitVec 24)
  /-- ECC_CAPTURE_CLEAR, R183: Writing 1 to CMC_ECCSTAT or KMC_ECCSTAT VALID clears and re-arms the capture. -/
  | eccCaptureClear (now : Nat) (cl : Cluster) (core : Option Core)
  /-- DRAIN_WINDOW_CLOSE, R181: The drain window closes, the consumer turns to the new ring and the old placement is freed. -/
  | drainWindowClose (now : Nat) (st : StationId)
  /-- DECISION_WORD, R182: The VXE delivers a decision station's decision word to the rule matcher. -/
  | decisionWord (now : Nat) (cl : Cluster) (co : Core)
  /-- NOP, R194: The NOP instruction does nothing. -/
  | nop (now : Nat) (cl : Cluster) (th : Thread) (w : Word)
  /-- MOVI, R194: MOVI loads a sign-extended 13-bit immediate. -/
  | movi (now : Nat) (cl : Cluster) (th : Thread) (w : Word)
  /-- MOVHI, R194: MOVHI loads a 16-bit immediate into the upper half of a register. -/
  | movhi (now : Nat) (cl : Cluster) (th : Thread) (w : Word)
  /-- ADD, R194: ADD adds two registers modulo 2^32. -/
  | add (now : Nat) (cl : Cluster) (th : Thread) (w : Word)
  /-- SUB, R194: SUB subtracts two registers modulo 2^32. -/
  | sub (now : Nat) (cl : Cluster) (th : Thread) (w : Word)
  /-- AND, R194: AND forms the bitwise AND of two registers. -/
  | and (now : Nat) (cl : Cluster) (th : Thread) (w : Word)
  /-- OR, R194: OR forms the bitwise OR of two registers. -/
  | or (now : Nat) (cl : Cluster) (th : Thread) (w : Word)
  /-- XOR, R194: XOR forms the bitwise XOR of two registers. -/
  | xor (now : Nat) (cl : Cluster) (th : Thread) (w : Word)
  /-- ADDI, R194: ADDI adds a signed immediate to a register. -/
  | addi (now : Nat) (cl : Cluster) (th : Thread) (w : Word)
  /-- SHLI, R194: SHLI shifts a register left logically. -/
  | shli (now : Nat) (cl : Cluster) (th : Thread) (w : Word)
  /-- SHRI, R194: SHRI shifts a register right logically. -/
  | shri (now : Nat) (cl : Cluster) (th : Thread) (w : Word)
  /-- CMP, R194: CMP sets a predicate from a comparison of two registers. -/
  | cmp (now : Nat) (cl : Cluster) (th : Thread) (w : Word)
  /-- PLOG, R194: PLOG combines two predicates into a third. -/
  | plog (now : Nat) (cl : Cluster) (th : Thread) (w : Word)
  /-- BR, R194: BR branches relative to the program counter. -/
  | br (now : Nat) (cl : Cluster) (th : Thread) (w : Word)
  /-- LOOP, R194: LOOP decrements a register and branches while it is not zero. -/
  | loop (now : Nat) (cl : Cluster) (th : Thread) (w : Word)
  /-- JR, R194: JR jumps to the word index held in a register. -/
  | jr (now : Nat) (cl : Cluster) (th : Thread) (w : Word)
  /-- LDW, R195: LDW loads a 32-bit word from sequencer address space. -/
  | ldw (now : Nat) (cl : Cluster) (th : Thread) (w : Word)
  /-- STW, R195: STW stores a 32-bit word to sequencer address space. -/
  | stw (now : Nat) (cl : Cluster) (th : Thread) (w : Word)
  /-- COPY, R207: COPY starts a block copy on the CSQ copy channel. -/
  | copy (now : Nat) (cl : Cluster) (th : Thread) (w : Word)
  /-- COPY_DONE, R207: A block copy finishes or stops at a failing burst, and the thread continues. -/
  | copyDone (now : Nat) (cl : Cluster) (th : Thread)
  /-- FIRE, R199: FIRE sends a grant count toward a station's stepper. -/
  | fire (now : Nat) (cl : Cluster) (th : Thread) (w : Word)
  /-- GRANTS_LAND, R199: Fired grants arrive at the stepper and are added to the station's grant count. -/
  | grantsLand (now : Nat) (st : StationId)
  /-- WAIT, R200: WAIT suspends the thread on a tile or route condition of a station. -/
  | wait (now : Nat) (cl : Cluster) (th : Thread) (w w2 : Word)
  /-- WAIT_RESUME, R200: The waited condition holds and the thread resumes with p7 = 1. -/
  | waitResume (now : Nat) (cl : Cluster) (th : Thread)
  /-- WAIT_TIMEOUT, R200: The WAIT time-out expires and the thread resumes with p7 = 0. -/
  | waitTimeout (now : Nat) (cl : Cluster) (th : Thread)
  /-- BAR, R202: BAR makes the thread's member cores arrive at a barrier group. -/
  | bar (now : Nat) (cl : Cluster) (th : Thread) (w : Word)
  /-- BARRIER_RELEASE, R203: All member cores have arrived and the waiting threads are released with p7 = 1. -/
  | barrierRelease (now : Nat) (g : Fin 64)
  /-- BARRIER_TIMEOUT, R203: A barrier instance times out and its waiting threads are released with p7 = 0. -/
  | barrierTimeout (now : Nat) (g : Fin 64)
  /-- BCAST, R204: BCAST supplies or waits for one broadcast word over a group. -/
  | bcast (now : Nat) (cl : Cluster) (th : Thread) (w : Word)
  /-- BCAST_DELIVER, R204: The broadcast value arrives in the waiting member threads with p7 = 1. -/
  | bcastDeliver (now : Nat) (g : Fin 64)
  /-- EPW, R208: EPW waits for a context's epoch boundary. -/
  | epw (now : Nat) (cl : Cluster) (th : Thread) (w : Word)
  /-- EPA, R209: EPA arms grants to be added to a station at a future epoch boundary. -/
  | epa (now : Nat) (cl : Cluster) (th : Thread) (w w2 : Word)
  /-- SNAP, R205: SNAP stops new tile starts on member cores and begins a consistent snapshot. -/
  | snap (now : Nat) (cl : Cluster) (th : Thread) (w : Word)
  /-- SNAPSHOT_DONE, R205: The snapshot barrier completes, the regions are copied, tile starts resume and the thread continues. -/
  | snapshotDone (now : Nat) (cl : Cluster) (th : Thread)
  /-- DRST, R206: DRST starts a warm or cold domain reset of owned cores. -/
  | drst (now : Nat) (cl : Cluster) (th : Thread) (w : Word)
  /-- DOMAIN_RESET_DONE, R206: Every named core is back in service and the thread resumes with p7 = 1. -/
  | domainResetDone (now : Nat) (cl : Cluster) (th : Thread)
  /-- DWR, R194: DWR writes a parameter word of a station descriptor. -/
  | dwr (now : Nat) (cl : Cluster) (th : Thread) (w : Word)
  /-- CNT, R194: CNT adds a register to a program counter. -/
  | cnt (now : Nat) (cl : Cluster) (th : Thread) (w : Word)
  /-- RDT, R194: RDT reads device time or a position counter and latches its high part. -/
  | rdt (now : Nat) (cl : Cluster) (th : Thread) (w : Word)
  /-- MPOST, R210: MPOST posts words to an assigned mailbox channel. -/
  | mpost (now : Nat) (cl : Cluster) (th : Thread) (w : Word)
  /-- TMARK, R194: TMARK writes a trace mark. -/
  | tmark (now : Nat) (cl : Cluster) (th : Thread) (w : Word)
  /-- HALT, R194: HALT halts the thread. -/
  | halt (now : Nat) (cl : Cluster) (th : Thread) (w : Word)
  /-- THREAD_STOP, R190: Writing CSQ_THt_CTL.STOP stops the thread between instructions. -/
  | threadStop (now : Nat) (fn : Func) (cl : Cluster) (th : Thread)
  /-- THREAD_RESTART, R190: Writing CSQ_THt_CTL.RESTART restarts the thread at its region start with state cleared. -/
  | threadRestart (now : Nat) (fn : Func) (cl : Cluster) (th : Thread)
  /-- THREAD_EXC_CLEAR, R197: Writing 1 to CSQ_THt_EXC.VALID clears and re-arms the exception capture. -/
  | threadExcClear (now : Nat) (cl : Cluster) (th : Thread)
  /-- STEPPER_EXC_CLEAR, R211: Writing 1 to STP_EXC.VALID clears and re-arms the descriptor exception capture. -/
  | stepperExcClear (now : Nat) (cl : Cluster) (co : Core)
  /-- LOAD_BITSTREAM, R236: The management processor checks a bit-stream and, if it passes, writes the partition to the die. -/
  | loadBitstream (now : Nat) (fn : Func) (entry : List Word) (bytes : List Byte)
  /-- UNLOAD, R240: The UNLOAD command stops threads, parks stations, closes contexts and frees the partition. -/
  | unload (now : Nat) (fn : Func) (entry : List Word)
  /-- SET_QUOTA, R316: The SET_QUOTA command sets a tenant's quotas and starts a reclaim if usage is cut. -/
  | setQuota (now : Nat) (fn : Func) (entry : List Word)
  /-- RECLAIM_DEADLINE, R316: A station's reclaim deadline boundary passes and the station is parked at its tile boundary. -/
  | reclaimDeadline (now : Nat) (st : StationId)
  /-- CLAIM_RELEASE, R316: Once all its stations are parked, a chosen claim is released and its memory zeroed. -/
  | claimRelease (now : Nat) (t : Fin 128)
  /-- IMPORT_KEY, R248: The IMPORT_KEY command queues the import of a model key envelope. -/
  | importKey (now : Nat) (fn : Func) (tag : BitVec 16) (addr : BitVec 64)
  /-- LOAD, R251: The LOAD command queues the programming of one weight shard. -/
  | load (now : Nat) (fn : Func) (tag : BitVec 16) (addr : BitVec 64) (len : Nat) (force : Bool)
  /-- SWAP, R263: The SWAP command queues a second weight copy of a station and its switch. -/
  | swap (now : Nat) (fn : Func) (tag : BitVec 16) (st : StationId) (model : Word) (layer : BitVec 16) (shards : List (BitVec 64)) (opws : List Word) (table : List Byte) (tableOff : BitVec 19)
  /-- SWEEP_LOAD, R265: The SWEEP_LOAD command queues a sweep layer load onto a sweep station. -/
  | sweepLoad (now : Nat) (fn : Func) (tag : BitVec 16) (st : StationId) (model : Word) (layer : BitVec 16) (shards : List (BitVec 64)) (opws : List Word) (table : List Byte) (tableOff : BitVec 19) (tiles : Fin 129)
  /-- ERASE, R249: The ERASE command queues the erasure of a model's or engines' row groups. -/
  | erase (now : Nat) (fn : Func) (tag : BitVec 16) (what : EraseTarget)
  /-- LOADER_JOB_START, R250: A free Beaver instance takes the head job of the next owner in round-robin order. -/
  | loaderJobStart (now : Nat) (b : Fin 2) (data : List Byte)
  /-- ERASE_STEP, R252: One erase step of a row group runs at a vector boundary holding a token. -/
  | eraseStep (now : Nat) (b : Fin 2) (cl : Cluster) (co : Core) (e : Eng) (rg : RowGroup) (clean : Bool)
  /-- PROGRAM_ITERATION, R253: One program pulse and verify of a row runs at a vector boundary holding a token. -/
  | programIteration (now : Nat) (b : Fin 2) (cl : Cluster) (co : Core) (e : Eng) (accepted : List (Fin 276))
  /-- SWEEP_TILES_DONE, R265: A sweep station has taken TILES tiles, parks itself and sends SWEEP_DONE. -/
  | sweepTilesDone (now : Nat) (st : StationId)
  /-- READBACK_START, R258: A background read-back of the oldest-checked shard starts. -/
  | readbackStart (now : Nat) (b : Fin 2)
  /-- READBACK_DONE, R259: A read-back ends and its digest is judged against both record copies. -/
  | readbackDone (now : Nat) (b : Fin 2) (snaps : List (Nat × Nat)) (drifted : List Nat) (kmReadable settReadable : Bool)
  /-- READBACK_OVERDUE, R258: A shard not checked within two intervals increments OVERDUE. -/
  | readbackOverdue (now : Nat) (n : Fin 1024)
  /-- WLD_ERR_CLEAR, R272: Writing 1 to WLD_ERR.VALID clears and re-arms the failed-job capture. -/
  | wldErrClear (now : Nat)
  /-- QUAD_TRANSITION, R277: A filtered quadrature transition counts ±1 on the port counters. -/
  | quadTransition (now : Nat) (p : Fin 4) (a b : Bool)
  /-- Z_EDGE, R277: A rising Z edge copies the position counter into the Z latch. -/
  | zEdge (now : Nat) (p : Fin 4)
  /-- LINE_EDGE, R278: An active edge in line mode counts one camera line. -/
  | lineEdge (now : Nat) (e : PortEdge)
  /-- CYCLE_EDGE, R278: An active edge in cycle mode counts one mains cycle or is rejected. -/
  | cycleEdge (now : Nat) (e : PortEdge)
  /-- CYCLE_LOSS, R278: 26 ms pass without an accepted cycle edge and LOSS is set. -/
  | cycleLoss (now : Nat) (p : Fin 4)
  /-- SYNC_EDGE, R285: An accepted sync edge fires a pending boundary in its window or is counted as outside. -/
  | syncEdge (now : Nat) (e : SyncInEdge)
  /-- EPOCH_BOUNDARY, R284: A context's source reaches its pending boundary and the epoch advances. -/
  | epochBoundary (now : Nat) (ctx : Ctx)
  /-- SYNC_WINDOW_END, R285: The source reaches B + W with no edge; the boundary fires at B and MISSED increments. -/
  | syncWindowEnd (now : Nat) (ctx : Ctx)
  /-- POS_PORT_CONFIG, R280: A PF write of POS_PnCFG configures a port, clearing its counters when EN goes from 0 to 1. -/
  | posPortConfig (now : Nat) (p : Fin 4) (v : Word)
  /-- TRIGGER_ARM, R288: A write of POS_TRGm_CFG with EN = 1 arms a position trigger. -/
  | triggerArm (now : Nat) (fn : Func) (m : Fin 64) (v : Word)
  /-- TRIGGER_DISARM, R288: A write of POS_TRGm_CFG with EN = 0 disarms the trigger. -/
  | triggerDisarm (now : Nat) (fn : Func) (m : Fin 64) (v : Word)
  /-- TRIGGER_FREE, R290: Writing POS_TRGm_CFG.FREE disarms the trigger and frees it. -/
  | triggerFree (now : Nat) (fn : Func) (m : Fin 64)
  /-- TRIGGER_FIRE, R289: A trigger's condition is met and it adds grants or clears HOLD. -/
  | triggerFire (now : Nat) (m : Fin 64)
  /-- HOLD_WRITE, R289: A write of POS_CTXn_CFG.HOLD stops or allows job starts of an Open context. -/
  | holdWrite (now : Nat) (fn : Func) (ctx : Ctx) (hold : Bool)
  /-- VF_FLR, R318: A function-level reset of a VF removes the tenant's work and unloads its partition. -/
  | vfFlr (now : Nat) (t : Fin 128)
  /-- VF_FLR_DONE, R318: The VF reset completes and its requests are served again. -/
  | vfFlrDone (now : Nat) (t : Fin 128)
  /-- PF_FLR, R320: A function-level reset of the PF resets every enabled VF and unloads the PF partition. -/
  | pfFlr (now : Nat)
  /-- PCIE_CONVENTIONAL_RESET, R377: PERST# resets the PCIe link, configuration space and every function. -/
  | pcieConventionalReset (now : Nat)
  /-- VF_ENABLE_CHANGE, R294: A write of VF Enable or NumVFs adds VFs or resets those that disappear. -/
  | vfEnableChange (now : Nat) (enable : Bool) (num : Nat)
  /-- COMMAND_DOORBELL, R304: The host advances CMD_PROD and the device reads the new command entries. -/
  | commandDoorbell (now : Nat) (fn : Func) (prod : BitVec 6) (entries : List (List Word))
  /-- COMMAND_ACCEPT, R305: A command held in a committed checkpoint is accepted and CMD_CONS moves past it. -/
  | commandAccept (now : Nat) (fn : Func)
  /-- CPL_HEAD_ADVANCE, R306: The host advances CPL_HEAD, freeing room for waiting completions. -/
  | cplHeadAdvance (now : Nat) (fn : Func) (head : BitVec 6)
  /-- CMD_RING_ENABLE, R304: Setting CMD_CFG.EN puts the rings in use and zeroes all ring indices. -/
  | cmdRingEnable (now : Nat) (fn : Func) (size : BitVec 3)
  /-- HOST_READ_TIMEOUT, R296: A completion timeout on a device-issued read is handled as a poisoned completion. -/
  | hostReadTimeout (now : Nat) (reader : HostReader)
  /-- SERVICE_ACK, R321: Writing SVC_CTL.ACK empties the service mailbox and delivers the next queued message. -/
  | serviceAck (now : Nat) (fn : Func)
  /-- MAILBOX_BIND, R324: A PF write of MBX_BINDn or MBX_TMOn binds a channel, or is discarded. -/
  | mailboxBind (now : Nat) (ch : Fin 64) (tmo : Bool) (v : Word)
  /-- MAILBOX_LOCK, R323: Setting MBX_LOCK.LOCK locks the binding table until die reset. -/
  | mailboxLock (now : Nat)
  /-- MAILBOX_POST, R325: A sender's POST latches the message, starts the timeout and wakes the receiver, or is refused. -/
  | mailboxPost (now : Nat) (m : Master) (ch : Fin 64) (nm1 : Fin 16)
  /-- MAILBOX_ACK, R326: The receiver's ACK empties the channel and raises the empty interrupt. -/
  | mailboxAck (now : Nat) (m : Master) (ch : Fin 64)
  /-- MAILBOX_TIMEOUT, R327: A channel's timeout expires while FULL; TMO is set and the sender is told. -/
  | mailboxTimeout (now : Nat) (ch : Fin 64)
  /-- CLRTMO, R327: A sender's CLRTMO write clears TMO. -/
  | clrtmo (now : Nat) (m : Master) (ch : Fin 64)
  /-- FLUSH, R328: A PF FLUSH empties the channel unread and sets DISCARD. -/
  | flush (now : Nat) (m : Master) (ch : Fin 64)
  /-- INDIRECT_READ, R300: A tenant read of TENV_IDATA returns the permitted PF BAR0 register at TENV_IADDR. -/
  | indirectRead (now : Nat) (t : Fin 128)
  /-- INDIRECT_WRITE, R300: A tenant write of TENV_IDATA writes the permitted PF BAR0 register at TENV_IADDR. -/
  | indirectWrite (now : Nat) (t : Fin 128) (v : Word)
  /-- LINK_LOCK, R335: Setting LNK_CFG.LOCK locks DEVID and LNK_ROUTE until die reset. -/
  | linkLock (now : Nat)
  /-- LINK_PORT_ENABLE, R338: Writing LNK_PpCFG.EN = 1 starts lane training of a port. -/
  | linkPortEnable (now : Nat) (p : Fin 4)
  /-- LINK_TRAINING_DONE, R338: Lane training ends; failed lanes are dropped, or training restarts with fewer than 4 lanes. -/
  | linkTrainingDone (now : Nat) (p : Fin 4) (lanes : BitVec 8)
  /-- LINK_UP, R338: The 64 delay exchanges end and the port is up with a valid offset. -/
  | linkUp (now : Nat) (p : Fin 4)
  /-- LINK_RETRY, R338: A down port with EN = 1 retries bring-up every 100 ms. -/
  | linkRetry (now : Nat) (p : Fin 4)
  /-- FLIT_CRC_ERROR, R334: A flit failing its CRC or out of sequence is discarded and a NAK returned. -/
  | flitCrcError (now : Nat) (p : Fin 4) (crcFailed : Bool)
  /-- REPLAY_TIMEOUT, R334: No acknowledgement for 2 µs makes the sender replay from the oldest unacknowledged flit. -/
  | replayTimeout (now : Nat) (p : Fin 4)
  /-- IDLE, R341: An IDLE frame is received carrying ACKSEQ. -/
  | idle (now : Nat) (p : Fin 4) (f : Flit)
  /-- TILE_HEAD, R343: A TILE_HEAD frame opens a tile and marks the link-receive slot Filling. -/
  | tileHead (now : Nat) (p : Fin 4) (f : Flit)
  /-- TILE_DATA, R343: A TILE_DATA frame's int8 codes are decoded into the slot, which is marked Full after the last element. -/
  | tileData (now : Nat) (p : Fin 4) (f : Flit)
  /-- TILE_ABORT, R349: A TILE_ABORT frame tears the open tile of its channel. -/
  | tileAbort (now : Nat) (p : Fin 4) (f : Flit)
  /-- CREDIT, R343: A CREDIT frame returns slot credits for a link channel. -/
  | credit (now : Nat) (p : Fin 4) (f : Flit)
  /-- BARRIER_FRAME, R345: A BARRIER frame delivers one dissemination round of a multi-device barrier. -/
  | barrierFrame (now : Nat) (p : Fin 4) (f : Flit)
  /-- BCAST_FRAME, R345: A BCAST frame carries a broadcast value along the binomial tree. -/
  | bcastFrame (now : Nat) (p : Fin 4) (f : Flit)
  /-- MBX_POST_FRAME, R347: An MBX_POST frame is delivered into the peer's matching channel or dropped. -/
  | mbxPostFrame (now : Nat) (p : Fin 4) (f : Flit)
  /-- MBX_ACK_FRAME, R347: An MBX_ACK frame empties the local forwarded channel. -/
  | mbxAckFrame (now : Nat) (p : Fin 4) (f : Flit)
  /-- TIME_FRAME, R339: A TIME frame or its reply records delay-exchange stamps and updates the offset. -/
  | timeFrame (now : Nat) (p : Fin 4) (f : Flit)
  /-- NAK, R334: A NAK frame makes the sender replay from the expected flit. -/
  | nak (now : Nat) (p : Fin 4) (f : Flit)
  /-- ID_FRAME, R336: An ID frame exchanges device IDs, digests and domain tables. -/
  | idFrame (now : Nat) (p : Fin 4) (f : Flit)
  /-- LINK_SEND_TILE, R343: A link-send station starts sending a tile while it holds a credit and the port is up. -/
  | linkSendTile (now : Nat) (p : Fin 4)
  /-- TIME_EXCHANGE, R339: Every 1 ms in service a port runs 4 delay exchanges. -/
  | timeExchange (now : Nat) (p : Fin 4) (stamps : List Stamps)
  /-- LINK_DOWN, R348: A port goes down, tearing open tiles, zeroing credits and ending multi-device instances. -/
  | linkDown (now : Nat) (p : Fin 4) (cause : LinkDownCause)
  /-- WATCH_INPUT_CHANGE, R354: A filtered watch-input channel changes and the pair's ARMED state is re-evaluated. -/
  | watchInputChange (now : Nat) (n : Fin 4) (a b : Bool)
  /-- DISCREPANCY_FAULT, R355: A channel disagreement lasting T latches the discrepancy fault and raises a class A event. -/
  | discrepancyFault (now : Nat) (n : Fin 4)
  /-- CLR_READY, R356: Both channels have been safe for 10 ms and CLRREADY is set. -/
  | clrReady (now : Nat) (n : Fin 4)
  /-- WATCH_INPUT_CLEAR, R356: A PF write of WIO_WINnCTL.CLR clears a latched discrepancy fault when permitted. -/
  | watchInputClear (now : Nat) (n : Fin 4)
  /-- HOLD_EXPIRE, R364: A rule's hold timer expires and its request ends. -/
  | holdExpire (now : Nat) (r : Fin 32)
  /-- OUTPUT_SHORT, R359: The current limiter holds for 1 µs; SHORT latches and the driver turns off. -/
  | outputShort (now : Nat) (n : Fin 8)
  /-- OUTPUT_MISMATCH, R359: The readback disagrees with the commanded state for 2 µs and MISMATCH latches. -/
  | outputMismatch (now : Nat) (n : Fin 8) (pin : Bool)
  /-- WATCH_OUTPUT_CLEAR, R361: A PF write of WIO_WOUTnCTL.CLR clears a latched output fault when permitted. -/
  | watchOutputClear (now : Nat) (n : Fin 8) (pin : Bool)
  /-- FORCE, R358: A write of WIO_WOUTnCFG.FORCE asserts or stops forcing a watch output. -/
  | force (now : Nat) (n : Fin 8) (v : Bool)
  /-- POWER_ON, R370: Supplies rise and RST_N is released; the ROM chooses and runs a cold or warm start. -/
  | powerOn (now : Nat) (found : PowerOnInputs)
  /-- CLUSTER_FULL_SERVICE, R375: A cluster whose calibration and read-back have ended enters full service. -/
  | clusterFullService (now : Nat) (cl : Cluster)
  /-- DIE_RESET, R377: RST_N or a keyed GCTL_RESET write resets the die, followed by a warm start. -/
  | dieReset (now : Nat) (cause : DieResetCause)
  /-- BEAR, R378: Writing GCTL_PWRST.BEAR starts entry to Bear state, or is refused. -/
  | bear (now : Nat)
  /-- BEAR_ENTRY_DONE, R378: The domains are off and Bear state is reached. -/
  | bearEntryDone (now : Nat)
  /-- WAKE, R379: Writing GCTL_PWRST.WAKE starts the wake from Bear state. -/
  | wake (now : Nat)
  /-- WAKE_DONE, R379: Wake ends and partitions may be loaded. -/
  | wakeDone (now : Nat)
  /-- PREPARE, R382: Writing GCTL_PWRST.PREPARE writes and commits the clean shutdown record. -/
  | prepare (now : Nat) (rtc : Nat) (committed : Bool)
  /-- CHECKPOINT_COMMIT, R381: MGR-A commits a new checkpoint of level-1 state by writing its header. -/
  | checkpointCommit (now : Nat)
  /-- HEARTBEAT_LOSS, R383: No heartbeat from MGR-A for 50 µs and MGR-B declares it failed. -/
  | heartbeatLoss (now : Nat)
  /-- MGR_WATCHDOG, R383: MGR-A's 1 ms watchdog expires and MGR-B declares it failed. -/
  | mgrWatchdog (now : Nat)
  /-- MGR_MEMORY_ERROR, R383: An uncorrectable error in MGR-A's memory makes MGR-B declare it failed. -/
  | mgrMemoryError (now : Nat)
  /-- SWITCH, R383: Writing GCTL_MGR.SWITCH while STANDBY = 1 forces a takeover. -/
  | switch (now : Nat)
  /-- MGR_STANDBY_READY, R383: The failed processor restarts from ROM and becomes standby. -/
  | mgrStandbyReady (now : Nat)
  /-- DOMAIN_SWITCH_ON, R387: The power manager switches a domain on within the inrush limit. -/
  | domainSwitchOn (now : Nat) (d : Domain)
  /-- DOMAIN_SWITCH_OFF, R386: A domain is switched off once its on-condition has lapsed for its delay. -/
  | domainSwitchOff (now : Nat) (d : Domain)
  /-- BUDGET_REFILL, R394: Every 100 µs the power manager refills each awake cluster's token account. -/
  | budgetRefill (now : Nat) (base : Nat)
  /-- CAP_WRITE, R395: A write of PWR_CAP.CAP sets the cap and the programming pool from the next refill. -/
  | capWrite (now : Nat) (v : BitVec 8)
  /-- PMBUS_TELEMETRY, R389: Telemetry of every valid regulator slot is read once per 1 ms. -/
  | pmbusTelemetry (now : Nat) (answers : List (Option RegAnswer))
  /-- SMBALERT, R389: SMBALERT# falls and STATUS_WORD is read at once. -/
  | smbalert (now : Nat) (answers : List (Option RegAnswer))
  /-- REGULATOR_RETRY, R391: A LOST slot is retried every 100 ms. -/
  | regulatorRetry (now : Nat) (n : Fin 6) (answer : Option RegAnswer)
  /-- REGULATOR_CLR, R391: Writing PWR_REGn_STAT.CLR clears FAULT and sends CLEAR_FAULTS. -/
  | regulatorClr (now : Nat) (n : Fin 6)
  /-- AVS_ADJUST, R390: Every 10 ms the VDD_CORE setpoint is adjusted from the path monitors. -/
  | avsAdjust (now : Nat) (mv : Nat)
  /-- AVS_MONITOR_WARNING, R390: A critical-path monitor warning raises VDD_CORE at once. -/
  | avsMonitorWarning (now : Nat) (mv : Nat)
  /-- SENSOR_READ, R397: Every 100 µs each temperature sensor is read. -/
  | sensorRead (now : Nat) (temps : List Int)
  /-- SENSOR_CHECK, R398: Once per 1 ms each sensor is cross-checked against its neighbours. -/
  | sensorCheck (now : Nat)
  /-- BAND_CHANGE, R400: A cluster's band moves by one as its median crosses a threshold, starting a calibration pass. -/
  | bandChange (now : Nat) (cl : Cluster)
  /-- THROTTLE_STEP, R402: Once per 1 ms a cluster's THR rises or falls by 1. -/
  | throttleStep (now : Nat) (cl : Cluster)
  /-- RAIL_UNDERVOLTAGE, R453: A rail below its minimum for 10 µs causes the reaction its monitor assigns. -/
  | railUndervoltage (now : Nat) (rail : Rail)
  /-- SETT_WINDOW_WRITE, R417: A PF write through the Sett window goes to the page buffer and gather list, or is discarded. -/
  | settWindowWrite (now : Nat) (off : BitVec 18) (data : List Byte)
  /-- SETT_COMMIT, R413: Writing NVS_CTL.COMMIT queues the PF gather list for commit. -/
  | settCommit (now : Nat)
  /-- SETT_DISCARD, R417: Writing NVS_CTL.DISCARD empties the PF gather list and page buffer. -/
  | settDiscard (now : Nat)
  /-- SETT_COMMIT_DONE, R412: A Sett commit finishes programming its primary and duplicate copies. -/
  | settCommitDone (now : Nat)
  /-- COUNTER_GROUP_UPDATE, R415: A counter group is written into the next two slots of the counter ring. -/
  | counterGroupUpdate (now : Nat) (group : Byte) (counters : List Byte)
  /-- MARGIN_SCAN, R416: A background margin scan refreshes weak pages and retires failing ones. -/
  | marginScan (now : Nat) (weak dead : List (Fin 4096))
  /-- LC_CHANGE_REQUEST, R420: A keyed NVS_LCREQ write starts a change of a limited-change setting. -/
  | lcChangeRequest (now : Nat) (key : BitVec 16) (n : BitVec 3)
  /-- LC_BURN_DONE, R420: The fuse burn of a limited-change setting ends and RESULT is set. -/
  | lcBurnDone (now : Nat) (burned : Bool)
  /-- FWARB_ADVANCE, R421: A write of NVS_FWARB with ADVANCE = 1 starts advancing the firmware anti-rollback counter. -/
  | fwarbAdvance (now : Nat) (target : BitVec 7)
  /-- FWARB_BURN_DONE, R421: The anti-rollback counter bits are burned up to TARGET. -/
  | fwarbBurnDone (now : Nat) (burned : Nat)
  /-- KEYSTORE_REQUEST, R424: Writing NVS_KSCMD.GO registers or empties a signing-key slot. -/
  | keystoreRequest (now : Nat)
  /-- WATCH_ARM, R438: The WATCH_ARM command arms a tensor watch point on a station. -/
  | watchArm (now : Nat) (fn : Func) (entry : List Word)
  /-- WATCH_DISARM, R440: The WATCH_DISARM command disarms a tensor watch point. -/
  | watchDisarm (now : Nat) (fn : Func) (entry : List Word)
  /-- WATCH_WINDOW_CLOSE, R438: A watch point's window of TILES tiles closes and latches its result. -/
  | watchWindowClose (now : Nat) (n : Fin 64)
  /-- WATCH_STAT_READ, R439: A read of OBS_TWn_STAT latches the point's other result words. -/
  | watchStatRead (now : Nat) (n : Fin 64)
  /-- TRACE_CONSENT, R433: The TRACE_CONSENT command gives or withdraws a tenant's trace consent. -/
  | traceConsent (now : Nat) (fn : Func) (entry : List Word)
  /-- DIGEST_REGION, R441: The DIGEST_REGION command starts a SHA-256 digest of a memory region. -/
  | digestRegion (now : Nat) (fn : Func) (entry : List Word)
  /-- DIGEST_REGION_DONE, R441: The region digest is written to host memory and the completion follows. -/
  | digestRegionDone (now : Nat)
  /-- TENC_LATCH, R431: Writing TENC_LATCH.GO copies the tenant counter page in one cycle. -/
  | tencLatch (now : Nat) (pf : Bool) (t : Fin 128)
  /-- TRACE_ENABLE, R435: Writing OBS_TRCFG.EN enables or stops the trace drain, resetting BSEQ and PROD. -/
  | traceEnable (now : Nat) (en : Bool)
  /-- TRACE_DRAIN_BLOCK, R435: A cluster ring with 252 records or a 100 µs old record is drained as one block. -/
  | traceDrainBlock (now : Nat) (cl : Cluster)
  /-- EVQ_POP, R445: Writing EVQ_POP removes the head event record and admits pending records. -/
  | evqPop (now : Nat) (fn : Func)
  /-- EVENT_COALESCED_FLUSH, R444: When a path has room, coalesced class B entries leave oldest first as SUPPRESSED records. -/
  | eventCoalescedFlush (now : Nat) (path : EventPath)
  /-- PAYLOAD_FETCH_DONE, R251: Beaver finishes fetching, decrypting and digesting a shard or key envelope and the job fails with AUTH, DIGEST or LEVEL_RANGE, writes the model key, or goes on to erase. -/
  | payloadFetchDone (now : Nat) (b : Fin 2) (data : List Byte)
  /-- SWEEP_BUDGET_READY, R266: The sweep wear bucket of a row group gains a cycle and a SWEEP_LOAD waiting in state 5 may proceed. -/
  | sweepBudgetReady (now : Nat) (cl : Cluster) (co : Core) (e : Eng) (rg : RowGroup)
  /-- KEYSTORE_REQUEST_DONE, R424: A key-store request ends after up to 2 ms, BUSY clears and RESULT is set. -/
  | keystoreRequestDone (now : Nat)
  /-- TRIGGER_VALUE_WRITE, R290: A write of POS_TRGm_VALL, VALH or PERIOD claims a free trigger, is discarded while EN = 1 or for another owner, and counts DENIED for a tenant. -/
  | triggerValueWrite (now : Nat) (fn : Func) (m : Fin 64) (which : TrgWord) (v : Word)
  /-- POS_SYNC_CONFIG, R280: A PF write of POS_SYNCCFG configures SYNC0 and SYNC1, and a field of a sync input used by an Open context is discarded. -/
  | posSyncConfig (now : Nat) (v : Word)
  /-- WATCH_INPUT_CONFIG, R357: A write of WIO_WINnCFG sets filter, antivalence and discrepancy time, and is discarded while a rule inhibits on the pair or its fault is latched. -/
  | watchInputConfig (now : Nat) (n : Fin 4) (v : Word)
  /-- DIEDOM_OFF_REQUEST, R386: A write of PWR_DIEDOM.LINK_OFF or OBS_OFF keeps DIE.LINK or DIE.OBS off, or lets it be on again. -/
  | diedomOffRequest (now : Nat) (link : Bool) (off : Bool)
  /-- AVS_ENABLE_WRITE, R390: A write of PWR_AVS.EN starts or stops adaptive voltage, and EN = 0 ramps VDD_CORE to 0.75 V. -/
  | avsEnableWrite (now : Nat) (en : Bool)
  /-- PERST_RELEASE, R388: Release of PERST# ends the PCIe conventional reset, switches DIE.HOST on and starts link training. -/
  | perstRelease (now : Nat)
  /-- RAIL_RETURN, R453: VDD_WIO returns above its minimum, so the watch inputs and outputs resume and the position ports count again. -/
  | railReturn (now : Nat)
  /-- FLIT_RESERVED_TYPE, R341: A received flit of a reserved frame type is discarded and counted in LNK_PpCRCERR. -/
  | flitReservedType (now : Nat) (p : Fin 4) (ty : Byte) (f : Flit)
  /-- DEBUG_PORT_ACCESS, R426: An access by the debug port, master identity 0x21, reads or writes PF BAR0, BAR2 or Sett as the debug access level allows. -/
  | debugPortAccess (now : Nat) (access : DebugAccess)
deriving DecidableEq, Repr

end Sys2Proof
end

