-- ==== Sys2Proof/Decode.lean ====
section
/-!
DEFINITION. The table of commands gives its rows no bits: a command of this block is a register access, an operation of a
bus or protocol, or an occurrence, and none has an encoding as a word. No word spells a command.
-/

namespace Sys2Proof

/-- The command that a word of the table's bits spells: none of the rows gives bits. -/
def decodeTableWord (_nbits _w : Nat) : Option Instr := none

end Sys2Proof
end

