-- ==== Sys2Proof/Config.lean ====
section
/-!
DEFINITION. What the manual leaves open: the free values, none of which has a body, so that no proof can rest on a number,
and the facts that each part holds of its own. A free value that is new each time is applied to the counter
`State.fresh`; see the assumption log.
-/

namespace Sys2Proof.Config

/-- A byte that the manual leaves undefined: the remaining header bytes of a torn tile (R165). -/
opaque freeByte : Nat → Nat → Byte

/-- The bits of an element that a kernel computes by a function that the manual does not give (R152): a number that is new with
each tile, the input elements it is a function of, the output vector, and the element. -/
opaque kernel : Nat → List Nat → Nat → Nat → Nat

/-- A count that the manual leaves open: the saturations of a kernel it does not give, how many bytes of a burst had been
written when its master was reset (R165), what a measurement of the part yields. -/
opaque freeNat : Nat → Nat

/-- A condition that the manual leaves open, such as whether an element of a kernel's output depends on a poison element of its input. -/
opaque freeBool : Nat → Bool

/-- The factory baseline of a row group (R110): gain with 14 fraction bits, offset with 4 fraction bits, and the changes of
both per degree C from the baseline temperature, for the row group numbered 4 times the physical engine plus r. The last
component says whether the record is readable. -/
opaque baseline : Nat → (Int × Int × Int × Int × Int) × Bool

/-- The device identity key (R423): the private scalar and the public point. -/
opaque identityScalar : Nat
opaque identityX : List Byte
opaque identityY : List Byte

/-- How many of the 16,384 samples of a range give a code, in the sine histogram of a calibration (R112): calibration number,
physical engine, converter, range, code. -/
opaque histCount : Nat → Nat → Nat → Nat → Int → Nat

/-- The trims of a converter that no histogram gives: those of the factory (number 0), and those that a two-point check refines
(R114). Number, physical engine, converter, range; offset in LSB_g and gain as quotients. -/
opaque convTrim : Nat → Nat → Nat → Nat → (Int × Nat) × (Int × Nat)

/-- Which of the eight measurements of a loopback calibration is in hand so many ns after its start (R150). -/
opaque loopStage : Nat → Fin 8

/-- What the operator area of Sett, by offset in the window, holds before it is written. -/
opaque settByte : Nat → Byte

/-- The two cluster sensors nearest to a die-level sensor, fixed at manufacture (R398); sensor numbers modulo 64. -/
opaque nearSensors : Nat → Nat × Nat

/-- The fuse-backed grade of the part (GCTL_ID.GRADE). -/
opaque grade : Nat

end Sys2Proof.Config
end

