-- ==== Sys2Proof/Machine/Fields.lean ====
section
/-!
DEFINITION. The register map: every register of the manual's register tables as data, with its place, and every
field of it with its bits, access type (Table 0.4, R7), reset value (R10) and whether a command of its own carries
out its writes. Each register's docstring names the rule it belongs to. The tables follow Tables 1.5 to 1.7 (R21 to R23) for blocks.
-/

namespace Sys2Proof.Machine

/-- Access types of Table 0.4 (R7). -/
inductive Acc where
  | rw | ro | w1c | w1s | rwl | fuse | wo
deriving DecidableEq, Repr

/-- The power domain that a register block belongs to (Tables 1.2 and 1.6); `fn` marks the always-on registers of a
function's own window (Table 11.3, R297). -/
inductive Block where
  | aon | dac | loader | link | obs | gate | shared | core | fn
deriving DecidableEq, Repr

/-- The registers of the manual, by the manual's names without their replication letters. -/
inductive Reg where
  /-- GCTL_ID, R3. -/
  | GCTL_ID
  /-- GCTL_TOPO, R13. -/
  | GCTL_TOPO
  /-- GCTL_ACCERR, R30. -/
  | GCTL_ACCERR
  /-- GCTL_ACCADDR, R30. -/
  | GCTL_ACCADDR
  /-- GCTL_START, R370. -/
  | GCTL_START
  /-- GCTL_RESET, R377. -/
  | GCTL_RESET
  /-- GCTL_PWRST, R378. -/
  | GCTL_PWRST
  /-- GCTL_MGR, R383. -/
  | GCTL_MGR
  /-- GCTL_CKPT, R381. -/
  | GCTL_CKPT
  /-- GCTL_EVDROP, R444. -/
  | GCTL_EVDROP
  /-- MBX_LOCK, R323. -/
  | MBX_LOCK
  /-- MBX_BIND, R324. -/
  | MBX_BIND
  /-- MBX_TMO, R324. -/
  | MBX_TMO
  /-- MBX_CH_DATA, R325. -/
  | MBX_CH_DATA
  /-- MBX_CH_STAT, R325. -/
  | MBX_CH_STAT
  /-- MBX_CH_CTL, R328. -/
  | MBX_CH_CTL
  /-- PWR_CAP, R392. -/
  | PWR_CAP
  /-- PWR_STAT, R394. -/
  | PWR_STAT
  /-- PWR_CLK, R407. -/
  | PWR_CLK
  /-- PWR_AVS, R390. -/
  | PWR_AVS
  /-- PWR_DIEDOM, R386. -/
  | PWR_DIEDOM
  /-- PWR_REG, R389. -/
  | PWR_REG
  /-- PWR_REG_STAT, R391. -/
  | PWR_REG_STAT
  /-- PWR_REG_POUT, R389. -/
  | PWR_REG_POUT
  /-- THM_STAT, R405. -/
  | THM_STAT
  /-- THM_SENS, R398. -/
  | THM_SENS
  /-- POS_CFG, R280. -/
  | POS_CFG
  /-- POS_STAT, R278. -/
  | POS_STAT
  /-- POS_CNTL, R292. -/
  | POS_CNTL
  /-- POS_CNTH, R292. -/
  | POS_CNTH
  /-- POS_TRVL, R292. -/
  | POS_TRVL
  /-- POS_TRVH, R292. -/
  | POS_TRVH
  /-- POS_ZLATL, R292. -/
  | POS_ZLATL
  /-- POS_ZLATH, R292. -/
  | POS_ZLATH
  /-- POS_ERRCNT, R277. -/
  | POS_ERRCNT
  /-- POS_SYNCCFG, R280. -/
  | POS_SYNCCFG
  /-- POS_SYNC_CNT, R285. -/
  | POS_SYNC_CNT
  /-- POS_CTX_CFG, R283. -/
  | POS_CTX_CFG
  /-- POS_CTX_LEN, R283. -/
  | POS_CTX_LEN
  /-- POS_CTX_EPOCH, R283. -/
  | POS_CTX_EPOCH
  /-- POS_CTX_NEXTL, R292. -/
  | POS_CTX_NEXTL
  /-- POS_CTX_NEXTH, R292. -/
  | POS_CTX_NEXTH
  /-- POS_CTX_STAT, R285. -/
  | POS_CTX_STAT
  /-- POS_TRG_CFG, R288. -/
  | POS_TRG_CFG
  /-- POS_TRG_VALL, R292. -/
  | POS_TRG_VALL
  /-- POS_TRG_VALH, R292. -/
  | POS_TRG_VALH
  /-- POS_TRG_PERIOD, R288. -/
  | POS_TRG_PERIOD
  /-- POS_TRG_STAT, R290. -/
  | POS_TRG_STAT
  /-- WIO_STAT, R355. -/
  | WIO_STAT
  /-- WIO_ENMAP, R352. -/
  | WIO_ENMAP
  /-- WIO_WINCFG, R357. -/
  | WIO_WINCFG
  /-- WIO_WINSTAT, R354. -/
  | WIO_WINSTAT
  /-- WIO_WINCTL, R356. -/
  | WIO_WINCTL
  /-- WIO_WINCNT, R355. -/
  | WIO_WINCNT
  /-- WIO_WOUTCFG, R358. -/
  | WIO_WOUTCFG
  /-- WIO_WOUTSTAT, R359. -/
  | WIO_WOUTSTAT
  /-- WIO_WOUTCTL, R361. -/
  | WIO_WOUTCTL
  /-- WIO_WOUTFLTCNT, R359. -/
  | WIO_WOUTFLTCNT
  /-- WIO_RULE, R363. -/
  | WIO_RULE
  /-- NVS_STAT, R417. -/
  | NVS_STAT
  /-- NVS_CTL, R417. -/
  | NVS_CTL
  /-- NVS_LOG, R414. -/
  | NVS_LOG
  /-- NVS_LCSTAT, R420. -/
  | NVS_LCSTAT
  /-- NVS_LCREQ, R420. -/
  | NVS_LCREQ
  /-- NVS_LCVAL, R420. -/
  | NVS_LCVAL
  /-- NVS_LC_STAT, R419. -/
  | NVS_LC_STAT
  /-- NVS_LC_VAL, R419. -/
  | NVS_LC_VAL
  /-- NVS_FWARB, R421. -/
  | NVS_FWARB
  /-- NVS_IDPUB, R423. -/
  | NVS_IDPUB
  /-- NVS_KS, R424. -/
  | NVS_KS
  /-- NVS_MK, R246. -/
  | NVS_MK
  /-- NVS_KSBUF, R424. -/
  | NVS_KSBUF
  /-- NVS_KSCMD, R424. -/
  | NVS_KSCMD
  /-- SDAC_STAT, R147. -/
  | SDAC_STAT
  /-- SDAC_CTL, R149. -/
  | SDAC_CTL
  /-- SDAC_FTW, R143. -/
  | SDAC_FTW
  /-- SDAC_LEVEL, R144. -/
  | SDAC_LEVEL
  /-- SDAC_LOAD, R150. -/
  | SDAC_LOAD
  /-- WLD_STAT, R250. -/
  | WLD_STAT
  /-- WLD_CHKCFG, R258. -/
  | WLD_CHKCFG
  /-- WLD_CHKSTAT, R258. -/
  | WLD_CHKSTAT
  /-- WLD_SWEEPCFG, R266. -/
  | WLD_SWEEPCFG
  /-- WLD_ERR, R272. -/
  | WLD_ERR
  /-- WLD_LOADCNT, R273. -/
  | WLD_LOADCNT
  /-- WLD_CHKCNT, R273. -/
  | WLD_CHKCNT
  /-- WLD_REPAIR, R273. -/
  | WLD_REPAIR
  /-- WLD_MISMATCH, R273. -/
  | WLD_MISMATCH
  /-- WLD_REMAPCNT, R273. -/
  | WLD_REMAPCNT
  /-- WLD_RETIRE, R273. -/
  | WLD_RETIRE
  /-- WLD_RES_STAT, R256. -/
  | WLD_RES_STAT
  /-- WLD_RES_MODEL, R256. -/
  | WLD_RES_MODEL
  /-- WLD_RES_CHK, R256. -/
  | WLD_RES_CHK
  /-- LNK_CFG, R335. -/
  | LNK_CFG
  /-- LNK_ROUTE, R337. -/
  | LNK_ROUTE
  /-- LNK_DOMAIN, R336. -/
  | LNK_DOMAIN
  /-- LNK_PCFG, R335. -/
  | LNK_PCFG
  /-- LNK_PSTAT, R338. -/
  | LNK_PSTAT
  /-- LNK_PDLY, R339. -/
  | LNK_PDLY
  /-- LNK_PSATCNT, R350. -/
  | LNK_PSATCNT
  /-- LNK_PREPLAY, R350. -/
  | LNK_PREPLAY
  /-- LNK_PCRCERR, R350. -/
  | LNK_PCRCERR
  /-- LNK_PNOCHAN, R350. -/
  | LNK_PNOCHAN
  /-- LNK_PDOWNCNT, R350. -/
  | LNK_PDOWNCNT
  /-- LNK_OFSL, R351. -/
  | LNK_OFSL
  /-- LNK_OFSH, R351. -/
  | LNK_OFSH
  /-- LNK_OFSVAL, R351. -/
  | LNK_OFSVAL
  /-- TEN_QUOTA0, R313. -/
  | TEN_QUOTA0
  /-- TEN_QUOTA1, R331. -/
  | TEN_QUOTA1
  /-- TEN_CMKIB, R331. -/
  | TEN_CMKIB
  /-- TEN_KMKIB, R331. -/
  | TEN_KMKIB
  /-- TEN_LDRMS, R331. -/
  | TEN_LDRMS
  /-- TEN_USE0, R331. -/
  | TEN_USE0
  /-- TEN_CMUSE, R331. -/
  | TEN_CMUSE
  /-- TEN_KMUSE, R331. -/
  | TEN_KMUSE
  /-- TEN_STAT, R299. -/
  | TEN_STAT
  /-- TEN_LDRBKT, R314. -/
  | TEN_LDRBKT
  /-- OBS_TRCFG, R435. -/
  | OBS_TRCFG
  /-- OBS_TRBASEL, R446. -/
  | OBS_TRBASEL
  /-- OBS_TRBASEH, R446. -/
  | OBS_TRBASEH
  /-- OBS_TRSIZE, R446. -/
  | OBS_TRSIZE
  /-- OBS_TRPROD, R446. -/
  | OBS_TRPROD
  /-- OBS_TRCONS, R446. -/
  | OBS_TRCONS
  /-- OBS_TRMODE, R446. -/
  | OBS_TRMODE
  /-- OBS_TRLOSS, R446. -/
  | OBS_TRLOSS
  /-- OBS_TW_CFG, R446. -/
  | OBS_TW_CFG
  /-- OBS_TW_STAT, R446. -/
  | OBS_TW_STAT
  /-- OBS_TW_FSEQ, R446. -/
  | OBS_TW_FSEQ
  /-- OBS_TW_LSEQ, R446. -/
  | OBS_TW_LSEQ
  /-- OBS_TW_R, R446. -/
  | OBS_TW_R
  /-- OBS_TW_FLAGT, R446. -/
  | OBS_TW_FLAGT
  /-- SGT_ENGSTAT, R169. -/
  | SGT_ENGSTAT
  /-- SGT_CTX_STAT, R167. -/
  | SGT_CTX_STAT
  /-- SGT_CTX_SEQ, R160. -/
  | SGT_CTX_SEQ
  /-- SGT_CTX_DROPCNT, R168. -/
  | SGT_CTX_DROPCNT
  /-- CSQ_STAT, R186. -/
  | CSQ_STAT
  /-- CSQ_TH_STAT, R190. -/
  | CSQ_TH_STAT
  /-- CSQ_TH_EXC, R197. -/
  | CSQ_TH_EXC
  /-- CSQ_TH_PRED, R193. -/
  | CSQ_TH_PRED
  /-- CSQ_TH_CTL, R190. -/
  | CSQ_TH_CTL
  /-- CSQ_TH_REGION, R188. -/
  | CSQ_TH_REGION
  /-- CSQ_TH_RECCNT, R197. -/
  | CSQ_TH_RECCNT
  /-- CSQ_TH_GREG, R186. -/
  | CSQ_TH_GREG
  /-- CSQ_TH_CNT, R186. -/
  | CSQ_TH_CNT
  /-- CSQ_GRP_STAT, R202. -/
  | CSQ_GRP_STAT
  /-- OCU_STAT, R42. -/
  | OCU_STAT
  /-- OCU_VREQ, R131. -/
  | OCU_VREQ
  /-- OCU_EREQ, R131. -/
  | OCU_EREQ
  /-- OCU_LIMSTALL, R131. -/
  | OCU_LIMSTALL
  /-- OCU_BUSY, R131. -/
  | OCU_BUSY
  /-- OCU_CTL, R131. -/
  | OCU_CTL
  /-- OWL_SCFG, R132. -/
  | OWL_SCFG
  /-- OWL_SSTAT, R134. -/
  | OWL_SSTAT
  /-- OWL_SALMCNT, R135. -/
  | OWL_SALMCNT
  /-- OWL_SCTL, R137. -/
  | OWL_SCTL
  /-- OWL_SMEAN, R133. -/
  | OWL_SMEAN
  /-- OWL_SVAR, R133. -/
  | OWL_SVAR
  /-- OWL_SMIN, R133. -/
  | OWL_SMIN
  /-- OWL_SMAX, R133. -/
  | OWL_SMAX
  /-- CPT_STAT, R400. -/
  | CPT_STAT
  /-- CPT_DOM, R386. -/
  | CPT_DOM
  /-- CPT_PWR, R394. -/
  | CPT_PWR
  /-- KMC_ARBW0, R39. -/
  | KMC_ARBW0
  /-- KMC_ARBW1, R39. -/
  | KMC_ARBW1
  /-- KMC_ECCSTAT, R183. -/
  | KMC_ECCSTAT
  /-- KMC_ECCADDR, R183. -/
  | KMC_ECCADDR
  /-- KMC_ECCCNT, R429. -/
  | KMC_ECCCNT
  /-- KMC_STN_STAT, R154. -/
  | KMC_STN_STAT
  /-- KMC_STN_SATCNT, R185. -/
  | KMC_STN_SATCNT
  /-- KMC_STN_POISCNT, R185. -/
  | KMC_STN_POISCNT
  /-- KMC_STN_TORNCNT, R185. -/
  | KMC_STN_TORNCNT
  /-- KMC_STN_LATECNT, R185. -/
  | KMC_STN_LATECNT
  /-- KMC_STN_UNMATCH, R185. -/
  | KMC_STN_UNMATCH
  /-- KMC_SLOT, R161. -/
  | KMC_SLOT
  /-- STP_STAT, R201. -/
  | STP_STAT
  /-- STP_EXC, R211. -/
  | STP_EXC
  /-- STP_GRANT, R199. -/
  | STP_GRANT
  /-- ME_STAT, R86. -/
  | ME_STAT
  /-- ME_OPW, R85. -/
  | ME_OPW
  /-- ME_CTL, R87. -/
  | ME_CTL
  /-- ME_PHCNT, R87. -/
  | ME_PHCNT
  /-- ME_SKIPCNT, R87. -/
  | ME_SKIPCNT
  /-- ME_SATCNT, R87. -/
  | ME_SATCNT
  /-- ME_SPLITCNT, R87. -/
  | ME_SPLITCNT
  /-- ME_ESCCNT, R87. -/
  | ME_ESCCNT
  /-- ME_ESCMISS, R87. -/
  | ME_ESCMISS
  /-- ME_ACCSAT, R87. -/
  | ME_ACCSAT
  /-- ME_REMAP, R78. -/
  | ME_REMAP
  /-- ME_RGSTAT, R88. -/
  | ME_RGSTAT
  /-- ME_DTGAIN, R107. -/
  | ME_DTGAIN
  /-- ME_DTOFS, R107. -/
  | ME_DTOFS
  /-- ME_CALSTAT, R113. -/
  | ME_CALSTAT
  /-- ME_KACNT, R109. -/
  | ME_KACNT
  /-- DPE_STAT, R156. -/
  | DPE_STAT
  /-- DPE_BUSY, R156. -/
  | DPE_BUSY
  /-- VXE_STAT, R156. -/
  | VXE_STAT
  /-- VXE_BUSY, R156. -/
  | VXE_BUSY
  /-- PRE_STAT, R156. -/
  | PRE_STAT
  /-- PRE_BUSY, R156. -/
  | PRE_BUSY
  /-- TMV_STAT, R164. -/
  | TMV_STAT
  /-- TMV_ERR, R164. -/
  | TMV_ERR
  /-- CMC_ECCSTAT, R183. -/
  | CMC_ECCSTAT
  /-- CMC_ECCADDR, R183. -/
  | CMC_ECCADDR
  /-- CMC_ECCCNT, R429. -/
  | CMC_ECCCNT
  /-- CMC_SLOT, R161. -/
  | CMC_SLOT
  /-- CCTL_EMAP, R32. -/
  | CCTL_EMAP
  /-- CCTL_BUSYL, R429. -/
  | CCTL_BUSYL
  /-- CCTL_BUSYH, R429. -/
  | CCTL_BUSYH
  /-- TENV_ID, R299. -/
  | TENV_ID
  /-- TENV_STAT, R299. -/
  | TENV_STAT
  /-- CMD_BASEL, R331. -/
  | CMD_BASEL
  /-- CMD_BASEH, R331. -/
  | CMD_BASEH
  /-- CMD_CFG, R304. -/
  | CMD_CFG
  /-- CMD_PROD, R304. -/
  | CMD_PROD
  /-- CMD_CONS, R305. -/
  | CMD_CONS
  /-- CPL_BASEL, R331. -/
  | CPL_BASEL
  /-- CPL_BASEH, R331. -/
  | CPL_BASEH
  /-- CPL_HEAD, R306. -/
  | CPL_HEAD
  /-- CPL_TAIL, R309. -/
  | CPL_TAIL
  /-- SVC_DATA, R321. -/
  | SVC_DATA
  /-- SVC_STAT, R321. -/
  | SVC_STAT
  /-- SVC_CTL, R321. -/
  | SVC_CTL
  /-- MSIX_TABLE, R301. -/
  | MSIX_TABLE
  /-- MSIX_PBA, R301. -/
  | MSIX_PBA
  /-- SCTL, R311. -/
  | SCTL
  /-- TENV_IADDR, R300. -/
  | TENV_IADDR
  /-- TENV_IDATA, R300. -/
  | TENV_IDATA
  /-- EVQ_STAT, R445. -/
  | EVQ_STAT
  /-- EVQ_POP, R445. -/
  | EVQ_POP
  /-- EVQ_HEAD, R445. -/
  | EVQ_HEAD
deriving DecidableEq, Repr

/-- Where a register lies: its offset in PF BAR0 (for a `fn` block: in the function's window), and for each
replication its stride and count, outermost first. -/
structure RegInfo where
  base  : Nat
  dims  : List (Nat × Nat)
  block : Block
deriving DecidableEq, Repr

/-- The place of every register (R21 to R23, R86, and the register tables). -/
def Reg.info : Reg → RegInfo
  | .GCTL_ID => RegInfo.mk 0x0 [] Block.aon
  | .GCTL_TOPO => RegInfo.mk 0x4 [] Block.aon
  | .GCTL_ACCERR => RegInfo.mk 0x10 [] Block.aon
  | .GCTL_ACCADDR => RegInfo.mk 0x14 [] Block.aon
  | .GCTL_START => RegInfo.mk 0x100 [] Block.aon
  | .GCTL_RESET => RegInfo.mk 0x104 [] Block.aon
  | .GCTL_PWRST => RegInfo.mk 0x108 [] Block.aon
  | .GCTL_MGR => RegInfo.mk 0x10C [] Block.aon
  | .GCTL_CKPT => RegInfo.mk 0x110 [] Block.aon
  | .GCTL_EVDROP => RegInfo.mk 0x1100 [] Block.aon
  | .MBX_LOCK => RegInfo.mk 0x100000 [] Block.aon
  | .MBX_BIND => RegInfo.mk 0x100100 [(0x4, 64)] Block.aon
  | .MBX_TMO => RegInfo.mk 0x100200 [(0x4, 64)] Block.aon
  | .MBX_CH_DATA => RegInfo.mk 0x101000 [(0x80, 64), (0x4, 16)] Block.aon
  | .MBX_CH_STAT => RegInfo.mk 0x101040 [(0x80, 64)] Block.aon
  | .MBX_CH_CTL => RegInfo.mk 0x101044 [(0x80, 64)] Block.aon
  | .PWR_CAP => RegInfo.mk 0x200000 [] Block.aon
  | .PWR_STAT => RegInfo.mk 0x200004 [] Block.aon
  | .PWR_CLK => RegInfo.mk 0x200008 [] Block.aon
  | .PWR_AVS => RegInfo.mk 0x20000C [] Block.aon
  | .PWR_DIEDOM => RegInfo.mk 0x200010 [] Block.aon
  | .PWR_REG => RegInfo.mk 0x200100 [(0x10, 6)] Block.aon
  | .PWR_REG_STAT => RegInfo.mk 0x200104 [(0x10, 6)] Block.aon
  | .PWR_REG_POUT => RegInfo.mk 0x200108 [(0x10, 6)] Block.aon
  | .THM_STAT => RegInfo.mk 0x300000 [] Block.aon
  | .THM_SENS => RegInfo.mk 0x300100 [(0x4, 72)] Block.aon
  | .POS_CFG => RegInfo.mk 0x400000 [(0x40, 4)] Block.aon
  | .POS_STAT => RegInfo.mk 0x400004 [(0x40, 4)] Block.aon
  | .POS_CNTL => RegInfo.mk 0x400008 [(0x40, 4)] Block.aon
  | .POS_CNTH => RegInfo.mk 0x40000C [(0x40, 4)] Block.aon
  | .POS_TRVL => RegInfo.mk 0x400010 [(0x40, 4)] Block.aon
  | .POS_TRVH => RegInfo.mk 0x400014 [(0x40, 4)] Block.aon
  | .POS_ZLATL => RegInfo.mk 0x400018 [(0x40, 4)] Block.aon
  | .POS_ZLATH => RegInfo.mk 0x40001C [(0x40, 4)] Block.aon
  | .POS_ERRCNT => RegInfo.mk 0x400020 [(0x40, 4)] Block.aon
  | .POS_SYNCCFG => RegInfo.mk 0x400100 [] Block.aon
  | .POS_SYNC_CNT => RegInfo.mk 0x400104 [(0x4, 2)] Block.aon
  | .POS_CTX_CFG => RegInfo.mk 0x401000 [(0x20, 128)] Block.aon
  | .POS_CTX_LEN => RegInfo.mk 0x401004 [(0x20, 128)] Block.aon
  | .POS_CTX_EPOCH => RegInfo.mk 0x401008 [(0x20, 128)] Block.aon
  | .POS_CTX_NEXTL => RegInfo.mk 0x40100C [(0x20, 128)] Block.aon
  | .POS_CTX_NEXTH => RegInfo.mk 0x401010 [(0x20, 128)] Block.aon
  | .POS_CTX_STAT => RegInfo.mk 0x401014 [(0x20, 128)] Block.aon
  | .POS_TRG_CFG => RegInfo.mk 0x402000 [(0x20, 64)] Block.aon
  | .POS_TRG_VALL => RegInfo.mk 0x402004 [(0x20, 64)] Block.aon
  | .POS_TRG_VALH => RegInfo.mk 0x402008 [(0x20, 64)] Block.aon
  | .POS_TRG_PERIOD => RegInfo.mk 0x40200C [(0x20, 64)] Block.aon
  | .POS_TRG_STAT => RegInfo.mk 0x402010 [(0x20, 64)] Block.aon
  | .WIO_STAT => RegInfo.mk 0x500000 [] Block.aon
  | .WIO_ENMAP => RegInfo.mk 0x500004 [] Block.aon
  | .WIO_WINCFG => RegInfo.mk 0x500100 [(0x20, 4)] Block.aon
  | .WIO_WINSTAT => RegInfo.mk 0x500104 [(0x20, 4)] Block.aon
  | .WIO_WINCTL => RegInfo.mk 0x500108 [(0x20, 4)] Block.aon
  | .WIO_WINCNT => RegInfo.mk 0x50010C [(0x20, 4)] Block.aon
  | .WIO_WOUTCFG => RegInfo.mk 0x500200 [(0x20, 8)] Block.aon
  | .WIO_WOUTSTAT => RegInfo.mk 0x500204 [(0x20, 8)] Block.aon
  | .WIO_WOUTCTL => RegInfo.mk 0x500208 [(0x20, 8)] Block.aon
  | .WIO_WOUTFLTCNT => RegInfo.mk 0x50020C [(0x20, 8)] Block.aon
  | .WIO_RULE => RegInfo.mk 0x500400 [(0x10, 32)] Block.aon
  | .NVS_STAT => RegInfo.mk 0x600000 [] Block.aon
  | .NVS_CTL => RegInfo.mk 0x600004 [] Block.aon
  | .NVS_LOG => RegInfo.mk 0x600008 [] Block.aon
  | .NVS_LCSTAT => RegInfo.mk 0x600010 [] Block.aon
  | .NVS_LCREQ => RegInfo.mk 0x600014 [] Block.aon
  | .NVS_LCVAL => RegInfo.mk 0x600018 [] Block.aon
  | .NVS_LC_STAT => RegInfo.mk 0x600100 [(0x8, 6)] Block.aon
  | .NVS_LC_VAL => RegInfo.mk 0x600104 [(0x8, 6)] Block.aon
  | .NVS_FWARB => RegInfo.mk 0x600140 [] Block.aon
  | .NVS_IDPUB => RegInfo.mk 0x600400 [(0x4, 24)] Block.aon
  | .NVS_KS => RegInfo.mk 0x600800 [(0x4, 64)] Block.aon
  | .NVS_MK => RegInfo.mk 0x600900 [(0x4, 32)] Block.aon
  | .NVS_KSBUF => RegInfo.mk 0x601000 [(0x4, 37)] Block.aon
  | .NVS_KSCMD => RegInfo.mk 0x601100 [] Block.aon
  | .SDAC_STAT => RegInfo.mk 0x700000 [] Block.dac
  | .SDAC_CTL => RegInfo.mk 0x700004 [] Block.dac
  | .SDAC_FTW => RegInfo.mk 0x700008 [] Block.dac
  | .SDAC_LEVEL => RegInfo.mk 0x70000C [] Block.dac
  | .SDAC_LOAD => RegInfo.mk 0x700010 [] Block.dac
  | .WLD_STAT => RegInfo.mk 0x800000 [] Block.loader
  | .WLD_CHKCFG => RegInfo.mk 0x800010 [] Block.loader
  | .WLD_CHKSTAT => RegInfo.mk 0x800014 [] Block.loader
  | .WLD_SWEEPCFG => RegInfo.mk 0x800018 [] Block.loader
  | .WLD_ERR => RegInfo.mk 0x800020 [] Block.loader
  | .WLD_LOADCNT => RegInfo.mk 0x800030 [] Block.loader
  | .WLD_CHKCNT => RegInfo.mk 0x800034 [] Block.loader
  | .WLD_REPAIR => RegInfo.mk 0x800038 [] Block.loader
  | .WLD_MISMATCH => RegInfo.mk 0x80003C [] Block.loader
  | .WLD_REMAPCNT => RegInfo.mk 0x800040 [] Block.loader
  | .WLD_RETIRE => RegInfo.mk 0x800044 [] Block.loader
  | .WLD_RES_STAT => RegInfo.mk 0x801000 [(0x10, 1024)] Block.loader
  | .WLD_RES_MODEL => RegInfo.mk 0x801004 [(0x10, 1024)] Block.loader
  | .WLD_RES_CHK => RegInfo.mk 0x801008 [(0x10, 1024)] Block.loader
  | .LNK_CFG => RegInfo.mk 0x900000 [] Block.link
  | .LNK_ROUTE => RegInfo.mk 0x900004 [] Block.link
  | .LNK_DOMAIN => RegInfo.mk 0x900008 [] Block.link
  | .LNK_PCFG => RegInfo.mk 0x900100 [(0x100, 4)] Block.link
  | .LNK_PSTAT => RegInfo.mk 0x900104 [(0x100, 4)] Block.link
  | .LNK_PDLY => RegInfo.mk 0x900108 [(0x100, 4)] Block.link
  | .LNK_PSATCNT => RegInfo.mk 0x900110 [(0x100, 4)] Block.link
  | .LNK_PREPLAY => RegInfo.mk 0x900114 [(0x100, 4)] Block.link
  | .LNK_PCRCERR => RegInfo.mk 0x900118 [(0x100, 4)] Block.link
  | .LNK_PNOCHAN => RegInfo.mk 0x90011C [(0x100, 4)] Block.link
  | .LNK_PDOWNCNT => RegInfo.mk 0x900120 [(0x100, 4)] Block.link
  | .LNK_OFSL => RegInfo.mk 0x900800 [(0x8, 8)] Block.link
  | .LNK_OFSH => RegInfo.mk 0x900804 [(0x8, 8)] Block.link
  | .LNK_OFSVAL => RegInfo.mk 0x900840 [] Block.link
  | .TEN_QUOTA0 => RegInfo.mk 0xA10000 [(0x40, 128)] Block.aon
  | .TEN_QUOTA1 => RegInfo.mk 0xA10004 [(0x40, 128)] Block.aon
  | .TEN_CMKIB => RegInfo.mk 0xA10008 [(0x40, 128)] Block.aon
  | .TEN_KMKIB => RegInfo.mk 0xA1000C [(0x40, 128)] Block.aon
  | .TEN_LDRMS => RegInfo.mk 0xA10010 [(0x40, 128)] Block.aon
  | .TEN_USE0 => RegInfo.mk 0xA10014 [(0x40, 128)] Block.aon
  | .TEN_CMUSE => RegInfo.mk 0xA10018 [(0x40, 128)] Block.aon
  | .TEN_KMUSE => RegInfo.mk 0xA1001C [(0x40, 128)] Block.aon
  | .TEN_STAT => RegInfo.mk 0xA10020 [(0x40, 128)] Block.aon
  | .TEN_LDRBKT => RegInfo.mk 0xA10024 [(0x40, 128)] Block.aon
  | .OBS_TRCFG => RegInfo.mk 0xB00000 [] Block.obs
  | .OBS_TRBASEL => RegInfo.mk 0xB00008 [] Block.obs
  | .OBS_TRBASEH => RegInfo.mk 0xB0000C [] Block.obs
  | .OBS_TRSIZE => RegInfo.mk 0xB00010 [] Block.obs
  | .OBS_TRPROD => RegInfo.mk 0xB00014 [] Block.obs
  | .OBS_TRCONS => RegInfo.mk 0xB00018 [] Block.obs
  | .OBS_TRMODE => RegInfo.mk 0xB00040 [(0x4, 16)] Block.obs
  | .OBS_TRLOSS => RegInfo.mk 0xB00080 [(0x4, 16)] Block.obs
  | .OBS_TW_CFG => RegInfo.mk 0xB02000 [(0x40, 64)] Block.obs
  | .OBS_TW_STAT => RegInfo.mk 0xB02004 [(0x40, 64)] Block.obs
  | .OBS_TW_FSEQ => RegInfo.mk 0xB02008 [(0x40, 64)] Block.obs
  | .OBS_TW_LSEQ => RegInfo.mk 0xB0200C [(0x40, 64)] Block.obs
  | .OBS_TW_R => RegInfo.mk 0xB02010 [(0x40, 64), (0x4, 8)] Block.obs
  | .OBS_TW_FLAGT => RegInfo.mk 0xB02030 [(0x40, 64)] Block.obs
  | .SGT_ENGSTAT => RegInfo.mk 0xC00000 [] Block.gate
  | .SGT_CTX_STAT => RegInfo.mk 0xC01000 [(0x10, 128)] Block.gate
  | .SGT_CTX_SEQ => RegInfo.mk 0xC01004 [(0x10, 128)] Block.gate
  | .SGT_CTX_DROPCNT => RegInfo.mk 0xC01008 [(0x10, 128)] Block.gate
  | .CSQ_STAT => RegInfo.mk 0x1000000 [(0x100000, 16)] Block.shared
  | .CSQ_TH_STAT => RegInfo.mk 0x1000100 [(0x100000, 16), (0x100, 8)] Block.shared
  | .CSQ_TH_EXC => RegInfo.mk 0x1000104 [(0x100000, 16), (0x100, 8)] Block.shared
  | .CSQ_TH_PRED => RegInfo.mk 0x1000108 [(0x100000, 16), (0x100, 8)] Block.shared
  | .CSQ_TH_CTL => RegInfo.mk 0x100010C [(0x100000, 16), (0x100, 8)] Block.shared
  | .CSQ_TH_REGION => RegInfo.mk 0x1000110 [(0x100000, 16), (0x100, 8)] Block.shared
  | .CSQ_TH_RECCNT => RegInfo.mk 0x1000114 [(0x100000, 16), (0x100, 8)] Block.shared
  | .CSQ_TH_GREG => RegInfo.mk 0x1000140 [(0x100000, 16), (0x100, 8), (0x4, 16)] Block.shared
  | .CSQ_TH_CNT => RegInfo.mk 0x1000180 [(0x100000, 16), (0x100, 8), (0x4, 16)] Block.shared
  | .CSQ_GRP_STAT => RegInfo.mk 0x1001000 [(0x100000, 16), (0x4, 64)] Block.shared
  | .OCU_STAT => RegInfo.mk 0x1010000 [(0x100000, 16)] Block.shared
  | .OCU_VREQ => RegInfo.mk 0x1010010 [(0x100000, 16)] Block.shared
  | .OCU_EREQ => RegInfo.mk 0x1010014 [(0x100000, 16)] Block.shared
  | .OCU_LIMSTALL => RegInfo.mk 0x1010018 [(0x100000, 16)] Block.shared
  | .OCU_BUSY => RegInfo.mk 0x101001C [(0x100000, 16)] Block.shared
  | .OCU_CTL => RegInfo.mk 0x1010020 [(0x100000, 16)] Block.shared
  | .OWL_SCFG => RegInfo.mk 0x1020100 [(0x100000, 16), (0x20, 32)] Block.shared
  | .OWL_SSTAT => RegInfo.mk 0x1020104 [(0x100000, 16), (0x20, 32)] Block.shared
  | .OWL_SALMCNT => RegInfo.mk 0x1020108 [(0x100000, 16), (0x20, 32)] Block.shared
  | .OWL_SCTL => RegInfo.mk 0x102010C [(0x100000, 16), (0x20, 32)] Block.shared
  | .OWL_SMEAN => RegInfo.mk 0x1020110 [(0x100000, 16), (0x20, 32)] Block.shared
  | .OWL_SVAR => RegInfo.mk 0x1020114 [(0x100000, 16), (0x20, 32)] Block.shared
  | .OWL_SMIN => RegInfo.mk 0x1020118 [(0x100000, 16), (0x20, 32)] Block.shared
  | .OWL_SMAX => RegInfo.mk 0x102011C [(0x100000, 16), (0x20, 32)] Block.shared
  | .CPT_STAT => RegInfo.mk 0x1030000 [(0x100000, 16)] Block.aon
  | .CPT_DOM => RegInfo.mk 0x1030004 [(0x100000, 16)] Block.aon
  | .CPT_PWR => RegInfo.mk 0x1030008 [(0x100000, 16)] Block.aon
  | .KMC_ARBW0 => RegInfo.mk 0x1040000 [(0x100000, 16)] Block.shared
  | .KMC_ARBW1 => RegInfo.mk 0x1040004 [(0x100000, 16)] Block.shared
  | .KMC_ECCSTAT => RegInfo.mk 0x1040010 [(0x100000, 16)] Block.shared
  | .KMC_ECCADDR => RegInfo.mk 0x1040014 [(0x100000, 16)] Block.shared
  | .KMC_ECCCNT => RegInfo.mk 0x1040018 [(0x100000, 16)] Block.shared
  | .KMC_STN_STAT => RegInfo.mk 0x1041000 [(0x100000, 16), (0x20, 512)] Block.shared
  | .KMC_STN_SATCNT => RegInfo.mk 0x1041004 [(0x100000, 16), (0x20, 512)] Block.shared
  | .KMC_STN_POISCNT => RegInfo.mk 0x1041008 [(0x100000, 16), (0x20, 512)] Block.shared
  | .KMC_STN_TORNCNT => RegInfo.mk 0x104100C [(0x100000, 16), (0x20, 512)] Block.shared
  | .KMC_STN_LATECNT => RegInfo.mk 0x1041010 [(0x100000, 16), (0x20, 512)] Block.shared
  | .KMC_STN_UNMATCH => RegInfo.mk 0x1041014 [(0x100000, 16), (0x20, 512)] Block.shared
  | .KMC_SLOT => RegInfo.mk 0x1048000 [(0x100000, 16), (0x4, 1024)] Block.shared
  | .STP_STAT => RegInfo.mk 0x1080000 [(0x100000, 16), (0x10000, 8)] Block.core
  | .STP_EXC => RegInfo.mk 0x1080004 [(0x100000, 16), (0x10000, 8)] Block.core
  | .STP_GRANT => RegInfo.mk 0x1080100 [(0x100000, 16), (0x10000, 8), (0x4, 64)] Block.core
  | .ME_STAT => RegInfo.mk 0x1081000 [(0x100000, 16), (0x10000, 8), (0x400, 17)] Block.core
  | .ME_OPW => RegInfo.mk 0x1081004 [(0x100000, 16), (0x10000, 8), (0x400, 17)] Block.core
  | .ME_CTL => RegInfo.mk 0x1081008 [(0x100000, 16), (0x10000, 8), (0x400, 17)] Block.core
  | .ME_PHCNT => RegInfo.mk 0x1081010 [(0x100000, 16), (0x10000, 8), (0x400, 17)] Block.core
  | .ME_SKIPCNT => RegInfo.mk 0x1081014 [(0x100000, 16), (0x10000, 8), (0x400, 17)] Block.core
  | .ME_SATCNT => RegInfo.mk 0x1081018 [(0x100000, 16), (0x10000, 8), (0x400, 17)] Block.core
  | .ME_SPLITCNT => RegInfo.mk 0x108101C [(0x100000, 16), (0x10000, 8), (0x400, 17)] Block.core
  | .ME_ESCCNT => RegInfo.mk 0x1081020 [(0x100000, 16), (0x10000, 8), (0x400, 17)] Block.core
  | .ME_ESCMISS => RegInfo.mk 0x1081024 [(0x100000, 16), (0x10000, 8), (0x400, 17)] Block.core
  | .ME_ACCSAT => RegInfo.mk 0x1081028 [(0x100000, 16), (0x10000, 8), (0x400, 17)] Block.core
  | .ME_REMAP => RegInfo.mk 0x1081100 [(0x100000, 16), (0x10000, 8), (0x400, 17), (0x4, 16)] Block.core
  | .ME_RGSTAT => RegInfo.mk 0x1081140 [(0x100000, 16), (0x10000, 8), (0x400, 17), (0x4, 4)] Block.core
  | .ME_DTGAIN => RegInfo.mk 0x1081180 [(0x100000, 16), (0x10000, 8), (0x400, 17), (0x8, 4)] Block.core
  | .ME_DTOFS => RegInfo.mk 0x1081184 [(0x100000, 16), (0x10000, 8), (0x400, 17), (0x8, 4)] Block.core
  | .ME_CALSTAT => RegInfo.mk 0x10811A0 [(0x100000, 16), (0x10000, 8), (0x400, 17)] Block.core
  | .ME_KACNT => RegInfo.mk 0x10811A8 [(0x100000, 16), (0x10000, 8), (0x400, 17)] Block.core
  | .DPE_STAT => RegInfo.mk 0x1086000 [(0x100000, 16), (0x10000, 8)] Block.core
  | .DPE_BUSY => RegInfo.mk 0x1086004 [(0x100000, 16), (0x10000, 8)] Block.core
  | .VXE_STAT => RegInfo.mk 0x1087000 [(0x100000, 16), (0x10000, 8)] Block.core
  | .VXE_BUSY => RegInfo.mk 0x1087004 [(0x100000, 16), (0x10000, 8)] Block.core
  | .PRE_STAT => RegInfo.mk 0x1088000 [(0x100000, 16), (0x10000, 8)] Block.core
  | .PRE_BUSY => RegInfo.mk 0x1088004 [(0x100000, 16), (0x10000, 8)] Block.core
  | .TMV_STAT => RegInfo.mk 0x1089000 [(0x100000, 16), (0x10000, 8)] Block.core
  | .TMV_ERR => RegInfo.mk 0x1089004 [(0x100000, 16), (0x10000, 8)] Block.core
  | .CMC_ECCSTAT => RegInfo.mk 0x108A000 [(0x100000, 16), (0x10000, 8)] Block.core
  | .CMC_ECCADDR => RegInfo.mk 0x108A004 [(0x100000, 16), (0x10000, 8)] Block.core
  | .CMC_ECCCNT => RegInfo.mk 0x108A008 [(0x100000, 16), (0x10000, 8)] Block.core
  | .CMC_SLOT => RegInfo.mk 0x108A100 [(0x100000, 16), (0x10000, 8), (0x4, 128)] Block.core
  | .CCTL_EMAP => RegInfo.mk 0x108B000 [(0x100000, 16), (0x10000, 8)] Block.core
  | .CCTL_BUSYL => RegInfo.mk 0x108B004 [(0x100000, 16), (0x10000, 8)] Block.core
  | .CCTL_BUSYH => RegInfo.mk 0x108B008 [(0x100000, 16), (0x10000, 8)] Block.core
  | .TENV_ID => RegInfo.mk 0x0 [] Block.fn
  | .TENV_STAT => RegInfo.mk 0x4 [] Block.fn
  | .CMD_BASEL => RegInfo.mk 0x1000 [] Block.fn
  | .CMD_BASEH => RegInfo.mk 0x1004 [] Block.fn
  | .CMD_CFG => RegInfo.mk 0x1008 [] Block.fn
  | .CMD_PROD => RegInfo.mk 0x100C [] Block.fn
  | .CMD_CONS => RegInfo.mk 0x1010 [] Block.fn
  | .CPL_BASEL => RegInfo.mk 0x1014 [] Block.fn
  | .CPL_BASEH => RegInfo.mk 0x1018 [] Block.fn
  | .CPL_HEAD => RegInfo.mk 0x101C [] Block.fn
  | .CPL_TAIL => RegInfo.mk 0x1020 [] Block.fn
  | .SVC_DATA => RegInfo.mk 0x2000 [(0x4, 16)] Block.fn
  | .SVC_STAT => RegInfo.mk 0x2040 [] Block.fn
  | .SVC_CTL => RegInfo.mk 0x2044 [] Block.fn
  | .MSIX_TABLE => RegInfo.mk 0x3000 [(0x4, 256)] Block.fn
  | .MSIX_PBA => RegInfo.mk 0x3800 [(0x4, 2)] Block.fn
  | .SCTL => RegInfo.mk 0x20000 [(0x100, 128), (0x4, 9)] Block.fn
  | .TENV_IADDR => RegInfo.mk 0x30000 [] Block.fn
  | .TENV_IDATA => RegInfo.mk 0x30004 [] Block.fn
  | .EVQ_STAT => RegInfo.mk 0x1F000 [] Block.fn
  | .EVQ_POP => RegInfo.mk 0x1F004 [] Block.fn
  | .EVQ_HEAD => RegInfo.mk 0x1F040 [(0x4, 16)] Block.fn

/-- Every field of every register. -/
inductive Fld where
  | GCTL_ID_DEVICE | GCTL_ID_REV_MAJOR | GCTL_ID_REV_MINOR | GCTL_ID_GRADE
  | GCTL_TOPO_SPARES | GCTL_TOPO_ENGINES | GCTL_TOPO_CORES | GCTL_TOPO_CLUSTERS
  | GCTL_ACCERR_VALID | GCTL_ACCERR_OVERRUN | GCTL_ACCERR_KIND | GCTL_ACCERR_WRITE | GCTL_ACCERR_MASTER
  | GCTL_ACCADDR_BAR | GCTL_ACCADDR_OFFSET
  | GCTL_START_KIND | GCTL_START_STEP | GCTL_START_CAUSE | GCTL_START_BOOTS | GCTL_START_SLOT | GCTL_START_FULL
  | GCTL_RESET_KEY | GCTL_RESET_LAST | GCTL_RESET_DIE
  | GCTL_PWRST_STATE | GCTL_PWRST_RESULT | GCTL_PWRST_CLEAN | GCTL_PWRST_PREPARE | GCTL_PWRST_WAKE | GCTL_PWRST_BEAR
  | GCTL_MGR_ACTIVE | GCTL_MGR_STANDBY | GCTL_MGR_CAUSE | GCTL_MGR_TAKEOVERS | GCTL_MGR_SWITCH
  | GCTL_CKPT_CN
  | GCTL_EVDROP_LOGC | GCTL_EVDROP_TRC
  | MBX_LOCK_LOCK
  | MBX_BIND_VALID | MBX_BIND_SENDER | MBX_BIND_RECEIVER
  | MBX_TMO_TMO
  | MBX_CH_DATA_WORD
  | MBX_CH_STAT_FULL | MBX_CH_STAT_TMO | MBX_CH_STAT_DISCARD | MBX_CH_STAT_NWORDS | MBX_CH_STAT_POSTS
  | MBX_CH_CTL_POST | MBX_CH_CTL_ACK | MBX_CH_CTL_CLRTMO | MBX_CH_CTL_FLUSH | MBX_CH_CTL_NM1
  | PWR_CAP_CEIL | PWR_CAP_CAP
  | PWR_STAT_DIEMW | PWR_STAT_OVERCAP | PWR_STAT_POOL
  | PWR_CLK_IOSLEW | PWR_CLK_SPREAD
  | PWR_AVS_EN | PWR_AVS_HELD | PWR_AVS_VSET
  | PWR_DIEDOM_LINK_OFF | PWR_DIEDOM_OBS_OFF | PWR_DIEDOM_ON
  | PWR_REG_VALID | PWR_REG_PEC | PWR_REG_RAIL | PWR_REG_SPEED | PWR_REG_ADDR
  | PWR_REG_STAT_LOST | PWR_REG_STAT_FAULT | PWR_REG_STAT_CLR | PWR_REG_STAT_STATUS
  | PWR_REG_POUT_MW
  | THM_STAT_SHUT | THM_STAT_SHUTSENS | THM_STAT_DIEMED
  | THM_SENS_VALID | THM_SENS_TEMP
  | POS_CFG_EN | POS_CFG_MODE | POS_CFG_INV | POS_CFG_ZEN | POS_CFG_FILT
  | POS_STAT_LOSS | POS_STAT_PERIOD
  | POS_CNTL_VALUE
  | POS_CNTH_VALUE
  | POS_TRVL_VALUE
  | POS_TRVH_VALUE
  | POS_ZLATL_VALUE
  | POS_ZLATH_VALUE
  | POS_ERRCNT_ILLEGAL | POS_ERRCNT_REJECT
  | POS_SYNCCFG_EN1 | POS_SYNCCFG_FALL1 | POS_SYNCCFG_FILT1 | POS_SYNCCFG_EN0 | POS_SYNCCFG_FALL0 | POS_SYNCCFG_FILT0
  | POS_SYNC_CNT_COUNT
  | POS_CTX_CFG_BOUND | POS_CTX_CFG_HOLD | POS_CTX_CFG_PENDING | POS_CTX_CFG_SRC | POS_CTX_CFG_SYNC
  | POS_CTX_LEN_VALUE
  | POS_CTX_EPOCH_VALUE
  | POS_CTX_NEXTL_VALUE
  | POS_CTX_NEXTH_VALUE
  | POS_CTX_STAT_OUTWIN | POS_CTX_STAT_MISSED
  | POS_TRG_CFG_EN | POS_TRG_CFG_FREE | POS_TRG_CFG_DIR | POS_TRG_CFG_ACTION | POS_TRG_CFG_SRC | POS_TRG_CFG_TARGET | POS_TRG_CFG_GRANTS
  | POS_TRG_VALL_VALUE
  | POS_TRG_VALH_VALUE
  | POS_TRG_PERIOD_PERIOD
  | POS_TRG_STAT_OWNER | POS_TRG_STAT_FIRES
  | WIO_STAT_WINFLT | WIO_STAT_WOUTFLT
  | WIO_ENMAP_WIN | WIO_ENMAP_WOUT
  | WIO_WINCFG_DISC | WIO_WINCFG_ANTIV | WIO_WINCFG_FILT
  | WIO_WINSTAT_ARMED | WIO_WINSTAT_FAULT | WIO_WINSTAT_CLRREADY | WIO_WINSTAT_A | WIO_WINSTAT_B | WIO_WINSTAT_TIMER
  | WIO_WINCTL_CLR
  | WIO_WINCNT_COUNT
  | WIO_WOUTCFG_FORCE | WIO_WOUTCFG_SLEW
  | WIO_WOUTSTAT_ASSERTED | WIO_WOUTSTAT_PIN | WIO_WOUTSTAT_FAULT | WIO_WOUTSTAT_EXTLOW | WIO_WOUTSTAT_PAIRED | WIO_WOUTSTAT_HELD
  | WIO_WOUTCTL_CLR
  | WIO_WOUTFLTCNT_COUNT
  | WIO_RULE_VALID | WIO_RULE_REQ | WIO_RULE_MUTED | WIO_RULE_OWNER | WIO_RULE_OUTMASK | WIO_RULE_STATION
  | NVS_STAT_BUSY | NVS_STAT_OVERFLOW | NVS_STAT_SPARES | NVS_STAT_PFPAGES | NVS_STAT_SCAN | NVS_STAT_DENIED
  | NVS_CTL_COMMIT | NVS_CTL_DISCARD | NVS_CTL_BPLOCK | NVS_CTL_PROT
  | NVS_LOG_ALOST | NVS_LOG_DROPPED
  | NVS_LCSTAT_BUSY | NVS_LCSTAT_RESULT | NVS_LCSTAT_SETTING
  | NVS_LCREQ_KEY | NVS_LCREQ_SETTING
  | NVS_LCVAL_VALUE
  | NVS_LC_STAT_USED | NVS_LC_STAT_FROZEN
  | NVS_LC_VAL_VALUE
  | NVS_FWARB_ADVANCE | NVS_FWARB_BUSY | NVS_FWARB_TARGET | NVS_FWARB_COUNT
  | NVS_IDPUB_BYTES
  | NVS_KS_FULL | NVS_KS_USAGE | NVS_KS_FROZEN | NVS_KS_OWNER
  | NVS_MK_FULL | NVS_MK_USAGE | NVS_MK_FROZEN | NVS_MK_OWNER
  | NVS_KSBUF_WORD
  | NVS_KSCMD_GO | NVS_KSCMD_BUSY | NVS_KSCMD_RESULT
  | SDAC_STAT_PASSAGE | SDAC_STAT_OWNER | SDAC_STAT_LOOPBUSY | SDAC_STAT_RESULT | SDAC_STAT_QUEUE
  | SDAC_CTL_SESSION | SDAC_CTL_LOOPCAL | SDAC_CTL_MODE | SDAC_CTL_SPAN | SDAC_CTL_ROUTE
  | SDAC_FTW_FTW
  | SDAC_LEVEL_AMP | SDAC_LEVEL_DC
  | SDAC_LOAD_OHMS
  | WLD_STAT_STATE1 | WLD_STAT_STATE0 | WLD_STAT_TOKHELD | WLD_STAT_QDEPTH
  | WLD_CHKCFG_INTERVAL
  | WLD_CHKSTAT_OVERDUE | WLD_CHKSTAT_RESIDENT
  | WLD_SWEEPCFG_LIFE | WLD_SWEEPCFG_DAILY
  | WLD_ERR_VALID | WLD_ERR_OVERRUN | WLD_ERR_CODE | WLD_ERR_OWNER | WLD_ERR_STATION
  | WLD_LOADCNT_COUNT
  | WLD_CHKCNT_COUNT
  | WLD_REPAIR_COUNT
  | WLD_MISMATCH_COUNT
  | WLD_REMAPCNT_COUNT
  | WLD_RETIRE_COUNT
  | WLD_RES_STAT_STATE | WLD_RES_STAT_OWNER | WLD_RES_STAT_CLUSTER | WLD_RES_STAT_STATION
  | WLD_RES_MODEL_MODEL
  | WLD_RES_CHK_SHARD | WLD_RES_CHK_AGE
  | LNK_CFG_LOCK | LNK_CFG_DEVID
  | LNK_ROUTE_DEV7 | LNK_ROUTE_DEV6 | LNK_ROUTE_DEV5 | LNK_ROUTE_DEV4 | LNK_ROUTE_DEV3 | LNK_ROUTE_DEV2 | LNK_ROUTE_DEV1 | LNK_ROUTE_DEV0
  | LNK_DOMAIN_KNOWN
  | LNK_PCFG_EN
  | LNK_PSTAT_STATE | LNK_PSTAT_PEER | LNK_PSTAT_REASON | LNK_PSTAT_LANES
  | LNK_PDLY_DELAY
  | LNK_PSATCNT_COUNT
  | LNK_PREPLAY_COUNT
  | LNK_PCRCERR_COUNT
  | LNK_PNOCHAN_COUNT
  | LNK_PDOWNCNT_COUNT
  | LNK_OFSL_VALUE
  | LNK_OFSH_VALUE
  | LNK_OFSVAL_VALID
  | TEN_QUOTA0_CORES | TEN_QUOTA0_CONTEXTS | TEN_QUOTA0_LINKSHARE | TEN_QUOTA0_WOUTMAP
  | TEN_QUOTA1_GRACE
  | TEN_CMKIB_VALUE
  | TEN_KMKIB_VALUE
  | TEN_LDRMS_VALUE
  | TEN_USE0_CORES | TEN_USE0_CONTEXTS
  | TEN_CMUSE_VALUE
  | TEN_KMUSE_VALUE
  | TEN_STAT_STATE | TEN_STAT_CUT | TEN_STAT_DENIED
  | TEN_LDRBKT_VALUE
  | OBS_TRCFG_EN | OBS_TRCFG_ALIGN | OBS_TRCFG_REFDEV | OBS_TRCFG_WMARK
  | OBS_TRBASEL_VALUE
  | OBS_TRBASEH_VALUE
  | OBS_TRSIZE_BLOCKS
  | OBS_TRPROD_INDEX
  | OBS_TRCONS_INDEX
  | OBS_TRMODE_TH7 | OBS_TRMODE_TH6 | OBS_TRMODE_TH5 | OBS_TRMODE_TH4 | OBS_TRMODE_TH3 | OBS_TRMODE_TH2 | OBS_TRMODE_TH1 | OBS_TRMODE_TH0
  | OBS_TRLOSS_COUNT
  | OBS_TW_CFG_ARMED | OBS_TW_CFG_MODE | OBS_TW_CFG_OWNER | OBS_TW_CFG_STATION
  | OBS_TW_STAT_INCOMPLETE | OBS_TW_STAT_MIXED | OBS_TW_STAT_CLOSED | OBS_TW_STAT_MISSED
  | OBS_TW_FSEQ_VALUE
  | OBS_TW_LSEQ_VALUE
  | OBS_TW_R_VALUE
  | OBS_TW_FLAGT_SAT | OBS_TW_FLAGT_PROV
  | SGT_ENGSTAT_ENG7 | SGT_ENGSTAT_ENG6 | SGT_ENGSTAT_ENG5 | SGT_ENGSTAT_ENG4 | SGT_ENGSTAT_ENG3 | SGT_ENGSTAT_ENG2 | SGT_ENGSTAT_ENG1 | SGT_ENGSTAT_ENG0
  | SGT_CTX_STAT_STATE | SGT_CTX_STAT_OWNER | SGT_CTX_STAT_WEIGHT | SGT_CTX_STAT_DROP | SGT_CTX_STAT_QUEUED | SGT_CTX_STAT_STATION
  | SGT_CTX_SEQ_NEXTSEQ
  | SGT_CTX_DROPCNT_COUNT
  | CSQ_STAT_STATE | CSQ_STAT_EXCMASK | CSQ_STAT_USED
  | CSQ_TH_STAT_STATE | CSQ_TH_STAT_WAITKIND | CSQ_TH_STAT_OWNER | CSQ_TH_STAT_PC
  | CSQ_TH_EXC_VALID | CSQ_TH_EXC_OVERRUN | CSQ_TH_EXC_CODE | CSQ_TH_EXC_PC
  | CSQ_TH_PRED_P
  | CSQ_TH_CTL_STOP | CSQ_TH_CTL_RESTART
  | CSQ_TH_REGION_STRICT | CSQ_TH_REGION_LAST | CSQ_TH_REGION_BASE
  | CSQ_TH_RECCNT_COUNT
  | CSQ_TH_GREG_VALUE
  | CSQ_TH_CNT_VALUE
  | CSQ_GRP_STAT_DEFINED | CSQ_GRP_STAT_SCOPE | CSQ_GRP_STAT_TIMEDOUT | CSQ_GRP_STAT_ARRIVED | CSQ_GRP_STAT_INSTANCE
  | OCU_STAT_OWNER | OCU_STAT_HIWAT | OCU_STAT_QDEPTH
  | OCU_VREQ_COUNT
  | OCU_EREQ_COUNT
  | OCU_LIMSTALL_COUNT
  | OCU_BUSY_COUNT
  | OCU_CTL_CLR_CNT
  | OWL_SCFG_EN | OWL_SCFG_STATION
  | OWL_SSTAT_STATE | OWL_SSTAT_EMPTY | OWL_SSTAT_ALARM | OWL_SSTAT_HARD | OWL_SSTAT_SATN | OWL_SSTAT_WARM
  | OWL_SALMCNT_COUNT
  | OWL_SCTL_RELEARN
  | OWL_SMEAN_VALUE
  | OWL_SVAR_VALUE
  | OWL_SMIN_VALUE
  | OWL_SMAX_VALUE
  | CPT_STAT_BAND | CPT_STAT_THR | CPT_STAT_LOWSENS | CPT_STAT_MEDIAN
  | CPT_DOM_SHARED | CPT_DOM_CORE
  | CPT_PWR_BUDGET | CPT_PWR_MW
  | KMC_ARBW0_W_CORE7 | KMC_ARBW0_W_CORE6 | KMC_ARBW0_W_CORE5 | KMC_ARBW0_W_CORE4 | KMC_ARBW0_W_CORE3 | KMC_ARBW0_W_CORE2 | KMC_ARBW0_W_CORE1 | KMC_ARBW0_W_CORE0
  | KMC_ARBW1_W_CSQ | KMC_ARBW1_W_OCU
  | KMC_ECCSTAT_VALID | KMC_ECCSTAT_OVERRUN | KMC_ECCSTAT_KIND | KMC_ECCSTAT_SYNDROME | KMC_ECCSTAT_MASTER
  | KMC_ECCADDR_OFFSET
  | KMC_ECCCNT_UNCORR | KMC_ECCCNT_CORR
  | KMC_STN_STAT_VALID | KMC_STN_STAT_STATE | KMC_STN_STAT_GEN | KMC_STN_STAT_INFLIGHT | KMC_STN_STAT_STATION
  | KMC_STN_SATCNT_COUNT
  | KMC_STN_POISCNT_COUNT
  | KMC_STN_TORNCNT_COUNT
  | KMC_STN_LATECNT_COUNT
  | KMC_STN_UNMATCH_COUNT
  | KMC_SLOT_STATE | KMC_SLOT_TORN | KMC_SLOT_STATION | KMC_SLOT_BASE
  | STP_STAT_STATE | STP_STAT_DIDX | STP_STAT_STATION
  | STP_EXC_VALID | STP_EXC_OVERRUN | STP_EXC_REASON | STP_EXC_DIDX | STP_EXC_STATION
  | STP_GRANT_STATE | STP_GRANT_GRANTS
  | ME_STAT_STATE | ME_STAT_BRINGUP | ME_STAT_RG | ME_STAT_SUBPASS | ME_STAT_STATION
  | ME_OPW_ADDIN | ME_OPW_OUT | ME_OPW_CHAIN_POS | ME_OPW_CHAIN_LEN | ME_OPW_RGMASK | ME_OPW_REPEAT | ME_OPW_WMODE | ME_OPW_INMODE | ME_OPW_SATPOL | ME_OPW_GAIN
  | ME_CTL_CLR_CNT
  | ME_PHCNT_COUNT
  | ME_SKIPCNT_COUNT
  | ME_SATCNT_COUNT
  | ME_SPLITCNT_COUNT
  | ME_ESCCNT_COUNT
  | ME_ESCMISS_COUNT
  | ME_ACCSAT_COUNT
  | ME_REMAP_VALID | ME_REMAP_FAULTY | ME_REMAP_COLUMN
  | ME_RGSTAT_CYC10 | ME_RGSTAT_MEANIT | ME_RGSTAT_WARN
  | ME_DTGAIN_PROV | ME_DTGAIN_ACTIVE | ME_DTGAIN_REJECTS | ME_DTGAIN_GAIN
  | ME_DTOFS_SAMPLES | ME_DTOFS_OFFSET
  | ME_CALSTAT_STATE | ME_CALSTAT_BAND | ME_CALSTAT_RETRIES | ME_CALSTAT_TEMP_FAIL | ME_CALSTAT_SHAPE_FAIL | ME_CALSTAT_QCHECK_FAIL | ME_CALSTAT_EARLY_TU | ME_CALSTAT_TRIM_AGE
  | ME_KACNT_COUNT
  | DPE_STAT_STATE | DPE_STAT_STATION
  | DPE_BUSY_COUNT
  | VXE_STAT_STATE | VXE_STAT_STATION
  | VXE_BUSY_COUNT
  | PRE_STAT_STATE | PRE_STAT_STATION
  | PRE_BUSY_COUNT
  | TMV_STAT_STATE | TMV_STAT_QDEPTH
  | TMV_ERR_COUNT
  | CMC_ECCSTAT_VALID | CMC_ECCSTAT_OVERRUN | CMC_ECCSTAT_KIND | CMC_ECCSTAT_SYNDROME | CMC_ECCSTAT_MASTER
  | CMC_ECCADDR_OFFSET
  | CMC_ECCCNT_UNCORR | CMC_ECCCNT_CORR
  | CMC_SLOT_STATE | CMC_SLOT_TORN | CMC_SLOT_STATION | CMC_SLOT_BASE
  | CCTL_EMAP_SPARE_USED | CCTL_EMAP_MES_RETIRED | CCTL_EMAP_CAPACITY | CCTL_EMAP_SPARE_FOR | CCTL_EMAP_RETIRED
  | CCTL_BUSYL_VALUE
  | CCTL_BUSYH_VALUE
  | TENV_ID_IDENTITY | TENV_ID_TENANT
  | TENV_STAT_STATE | TENV_STAT_CUT | TENV_STAT_DENIED
  | CMD_BASEL_ADDR
  | CMD_BASEH_ADDR
  | CMD_CFG_EN | CMD_CFG_SIZE
  | CMD_PROD_INDEX
  | CMD_CONS_INDEX
  | CPL_BASEL_ADDR
  | CPL_BASEH_ADDR
  | CPL_HEAD_INDEX
  | CPL_TAIL_INDEX
  | SVC_DATA_WORD
  | SVC_STAT_FULL | SVC_STAT_QUEUED | SVC_STAT_LOST
  | SVC_CTL_ACK
  | MSIX_TABLE_WORD
  | MSIX_PBA_BITS
  | SCTL_WORD
  | TENV_IADDR_OFFSET
  | TENV_IDATA_DATA
  | EVQ_STAT_COUNT | EVQ_STAT_ACOUNT | EVQ_STAT_AMISS | EVQ_STAT_BSUPP
  | EVQ_POP_POP
  | EVQ_HEAD_WORD
deriving DecidableEq, Repr

/-- One field: its register, its highest and lowest bit, its access type, its value after a die reset (R10; 0 where
the table says fuse, key or store, which the views of the field compute), and `own`: a write of it is a command of its own
in the table of commands, so that the general register write leaves it alone. -/
structure FldInfo where
  reg : Reg
  hi  : Nat
  lo  : Nat
  acc : Acc
  rst : Nat
  own : Bool
deriving DecidableEq, Repr

/-- The field tables of the manual. -/
def Fld.info : Fld → FldInfo
  | .GCTL_ID_DEVICE => FldInfo.mk Reg.GCTL_ID 31 16 Acc.ro 0x2048 false
  | .GCTL_ID_REV_MAJOR => FldInfo.mk Reg.GCTL_ID 15 12 Acc.ro 0x1 false
  | .GCTL_ID_REV_MINOR => FldInfo.mk Reg.GCTL_ID 11 8 Acc.ro 0x0 false
  | .GCTL_ID_GRADE => FldInfo.mk Reg.GCTL_ID 7 4 Acc.fuse 0x0 false
  | .GCTL_TOPO_SPARES => FldInfo.mk Reg.GCTL_TOPO 27 24 Acc.ro 0x1 false
  | .GCTL_TOPO_ENGINES => FldInfo.mk Reg.GCTL_TOPO 23 16 Acc.ro 0x10 false
  | .GCTL_TOPO_CORES => FldInfo.mk Reg.GCTL_TOPO 15 8 Acc.ro 0x8 false
  | .GCTL_TOPO_CLUSTERS => FldInfo.mk Reg.GCTL_TOPO 7 0 Acc.ro 0x10 false
  | .GCTL_ACCERR_VALID => FldInfo.mk Reg.GCTL_ACCERR 31 31 Acc.w1c 0x0 true
  | .GCTL_ACCERR_OVERRUN => FldInfo.mk Reg.GCTL_ACCERR 30 30 Acc.w1c 0x0 false
  | .GCTL_ACCERR_KIND => FldInfo.mk Reg.GCTL_ACCERR 29 28 Acc.ro 0x0 false
  | .GCTL_ACCERR_WRITE => FldInfo.mk Reg.GCTL_ACCERR 27 27 Acc.ro 0x0 false
  | .GCTL_ACCERR_MASTER => FldInfo.mk Reg.GCTL_ACCERR 15 8 Acc.ro 0x0 false
  | .GCTL_ACCADDR_BAR => FldInfo.mk Reg.GCTL_ACCADDR 31 31 Acc.ro 0x0 false
  | .GCTL_ACCADDR_OFFSET => FldInfo.mk Reg.GCTL_ACCADDR 26 0 Acc.ro 0x0 false
  | .GCTL_START_KIND => FldInfo.mk Reg.GCTL_START 31 30 Acc.ro 0x0 false
  | .GCTL_START_STEP => FldInfo.mk Reg.GCTL_START 29 26 Acc.ro 0x1 false
  | .GCTL_START_CAUSE => FldInfo.mk Reg.GCTL_START 25 23 Acc.ro 0x0 false
  | .GCTL_START_BOOTS => FldInfo.mk Reg.GCTL_START 22 19 Acc.ro 0x0 false
  | .GCTL_START_SLOT => FldInfo.mk Reg.GCTL_START 18 18 Acc.ro 0x0 false
  | .GCTL_START_FULL => FldInfo.mk Reg.GCTL_START 15 0 Acc.ro 0x0 false
  | .GCTL_RESET_KEY => FldInfo.mk Reg.GCTL_RESET 31 16 Acc.wo 0x0 true
  | .GCTL_RESET_LAST => FldInfo.mk Reg.GCTL_RESET 11 8 Acc.ro 0x0 false
  | .GCTL_RESET_DIE => FldInfo.mk Reg.GCTL_RESET 0 0 Acc.wo 0x0 true
  | .GCTL_PWRST_STATE => FldInfo.mk Reg.GCTL_PWRST 31 30 Acc.ro 0x0 false
  | .GCTL_PWRST_RESULT => FldInfo.mk Reg.GCTL_PWRST 29 28 Acc.ro 0x0 false
  | .GCTL_PWRST_CLEAN => FldInfo.mk Reg.GCTL_PWRST 27 27 Acc.ro 0x0 false
  | .GCTL_PWRST_PREPARE => FldInfo.mk Reg.GCTL_PWRST 2 2 Acc.wo 0x0 true
  | .GCTL_PWRST_WAKE => FldInfo.mk Reg.GCTL_PWRST 1 1 Acc.wo 0x0 true
  | .GCTL_PWRST_BEAR => FldInfo.mk Reg.GCTL_PWRST 0 0 Acc.wo 0x0 true
  | .GCTL_MGR_ACTIVE => FldInfo.mk Reg.GCTL_MGR 31 31 Acc.ro 0x0 false
  | .GCTL_MGR_STANDBY => FldInfo.mk Reg.GCTL_MGR 30 30 Acc.ro 0x0 false
  | .GCTL_MGR_CAUSE => FldInfo.mk Reg.GCTL_MGR 29 27 Acc.ro 0x0 false
  | .GCTL_MGR_TAKEOVERS => FldInfo.mk Reg.GCTL_MGR 15 8 Acc.ro 0x0 false
  | .GCTL_MGR_SWITCH => FldInfo.mk Reg.GCTL_MGR 0 0 Acc.wo 0x0 true
  | .GCTL_CKPT_CN => FldInfo.mk Reg.GCTL_CKPT 31 0 Acc.ro 0x0 false
  | .GCTL_EVDROP_LOGC => FldInfo.mk Reg.GCTL_EVDROP 31 16 Acc.ro 0x0 false
  | .GCTL_EVDROP_TRC => FldInfo.mk Reg.GCTL_EVDROP 15 0 Acc.ro 0x0 false
  | .MBX_LOCK_LOCK => FldInfo.mk Reg.MBX_LOCK 0 0 Acc.w1s 0x0 true
  | .MBX_BIND_VALID => FldInfo.mk Reg.MBX_BIND 31 31 Acc.rwl 0x0 true
  | .MBX_BIND_SENDER => FldInfo.mk Reg.MBX_BIND 15 8 Acc.rwl 0x0 true
  | .MBX_BIND_RECEIVER => FldInfo.mk Reg.MBX_BIND 7 0 Acc.rwl 0x0 true
  | .MBX_TMO_TMO => FldInfo.mk Reg.MBX_TMO 19 0 Acc.rwl 0x3E8 true
  | .MBX_CH_DATA_WORD => FldInfo.mk Reg.MBX_CH_DATA 31 0 Acc.rw 0x0 false
  | .MBX_CH_STAT_FULL => FldInfo.mk Reg.MBX_CH_STAT 31 31 Acc.ro 0x0 false
  | .MBX_CH_STAT_TMO => FldInfo.mk Reg.MBX_CH_STAT 30 30 Acc.ro 0x0 false
  | .MBX_CH_STAT_DISCARD => FldInfo.mk Reg.MBX_CH_STAT 29 29 Acc.ro 0x0 false
  | .MBX_CH_STAT_NWORDS => FldInfo.mk Reg.MBX_CH_STAT 20 16 Acc.ro 0x0 false
  | .MBX_CH_STAT_POSTS => FldInfo.mk Reg.MBX_CH_STAT 15 0 Acc.ro 0x0 false
  | .MBX_CH_CTL_POST => FldInfo.mk Reg.MBX_CH_CTL 31 31 Acc.wo 0x0 true
  | .MBX_CH_CTL_ACK => FldInfo.mk Reg.MBX_CH_CTL 30 30 Acc.wo 0x0 true
  | .MBX_CH_CTL_CLRTMO => FldInfo.mk Reg.MBX_CH_CTL 29 29 Acc.wo 0x0 true
  | .MBX_CH_CTL_FLUSH => FldInfo.mk Reg.MBX_CH_CTL 28 28 Acc.wo 0x0 true
  | .MBX_CH_CTL_NM1 => FldInfo.mk Reg.MBX_CH_CTL 3 0 Acc.wo 0x0 true
  | .PWR_CAP_CEIL => FldInfo.mk Reg.PWR_CAP 31 24 Acc.fuse 0x0 false
  | .PWR_CAP_CAP => FldInfo.mk Reg.PWR_CAP 7 0 Acc.rw 0xF0 true
  | .PWR_STAT_DIEMW => FldInfo.mk Reg.PWR_STAT 31 16 Acc.ro 0x0 false
  | .PWR_STAT_OVERCAP => FldInfo.mk Reg.PWR_STAT 15 12 Acc.ro 0x0 false
  | .PWR_STAT_POOL => FldInfo.mk Reg.PWR_STAT 8 0 Acc.ro 0x100 false
  | .PWR_CLK_IOSLEW => FldInfo.mk Reg.PWR_CLK 5 4 Acc.rw 0x0 false
  | .PWR_CLK_SPREAD => FldInfo.mk Reg.PWR_CLK 2 0 Acc.rw 0x0 false
  | .PWR_AVS_EN => FldInfo.mk Reg.PWR_AVS 31 31 Acc.rw 0x1 true
  | .PWR_AVS_HELD => FldInfo.mk Reg.PWR_AVS 30 30 Acc.ro 0x0 false
  | .PWR_AVS_VSET => FldInfo.mk Reg.PWR_AVS 11 0 Acc.ro 0x2EE false
  | .PWR_DIEDOM_LINK_OFF => FldInfo.mk Reg.PWR_DIEDOM 31 31 Acc.rw 0x0 true
  | .PWR_DIEDOM_OBS_OFF => FldInfo.mk Reg.PWR_DIEDOM 30 30 Acc.rw 0x0 true
  | .PWR_DIEDOM_ON => FldInfo.mk Reg.PWR_DIEDOM 5 0 Acc.ro 0x0 false
  | .PWR_REG_VALID => FldInfo.mk Reg.PWR_REG 31 31 Acc.ro 0x0 false
  | .PWR_REG_PEC => FldInfo.mk Reg.PWR_REG 30 30 Acc.ro 0x0 false
  | .PWR_REG_RAIL => FldInfo.mk Reg.PWR_REG 29 27 Acc.ro 0x0 false
  | .PWR_REG_SPEED => FldInfo.mk Reg.PWR_REG 26 25 Acc.ro 0x0 false
  | .PWR_REG_ADDR => FldInfo.mk Reg.PWR_REG 6 0 Acc.ro 0x0 false
  | .PWR_REG_STAT_LOST => FldInfo.mk Reg.PWR_REG_STAT 31 31 Acc.ro 0x0 false
  | .PWR_REG_STAT_FAULT => FldInfo.mk Reg.PWR_REG_STAT 30 30 Acc.ro 0x0 false
  | .PWR_REG_STAT_CLR => FldInfo.mk Reg.PWR_REG_STAT 29 29 Acc.wo 0x0 true
  | .PWR_REG_STAT_STATUS => FldInfo.mk Reg.PWR_REG_STAT 15 0 Acc.ro 0x0 false
  | .PWR_REG_POUT_MW => FldInfo.mk Reg.PWR_REG_POUT 31 0 Acc.ro 0x0 false
  | .THM_STAT_SHUT => FldInfo.mk Reg.THM_STAT 31 31 Acc.ro 0x0 false
  | .THM_STAT_SHUTSENS => FldInfo.mk Reg.THM_STAT 30 24 Acc.ro 0x0 false
  | .THM_STAT_DIEMED => FldInfo.mk Reg.THM_STAT 15 0 Acc.ro 0x0 false
  | .THM_SENS_VALID => FldInfo.mk Reg.THM_SENS 31 31 Acc.ro 0x0 false
  | .THM_SENS_TEMP => FldInfo.mk Reg.THM_SENS 15 0 Acc.ro 0x0 false
  | .POS_CFG_EN => FldInfo.mk Reg.POS_CFG 31 31 Acc.rw 0x0 true
  | .POS_CFG_MODE => FldInfo.mk Reg.POS_CFG 30 29 Acc.rw 0x0 true
  | .POS_CFG_INV => FldInfo.mk Reg.POS_CFG 28 28 Acc.rw 0x0 true
  | .POS_CFG_ZEN => FldInfo.mk Reg.POS_CFG 27 27 Acc.rw 0x0 true
  | .POS_CFG_FILT => FldInfo.mk Reg.POS_CFG 7 0 Acc.rw 0x0 true
  | .POS_STAT_LOSS => FldInfo.mk Reg.POS_STAT 31 31 Acc.ro 0x0 false
  | .POS_STAT_PERIOD => FldInfo.mk Reg.POS_STAT 15 0 Acc.ro 0x0 false
  | .POS_CNTL_VALUE => FldInfo.mk Reg.POS_CNTL 31 0 Acc.ro 0x0 false
  | .POS_CNTH_VALUE => FldInfo.mk Reg.POS_CNTH 31 0 Acc.ro 0x0 false
  | .POS_TRVL_VALUE => FldInfo.mk Reg.POS_TRVL 31 0 Acc.ro 0x0 false
  | .POS_TRVH_VALUE => FldInfo.mk Reg.POS_TRVH 31 0 Acc.ro 0x0 false
  | .POS_ZLATL_VALUE => FldInfo.mk Reg.POS_ZLATL 31 0 Acc.ro 0x0 false
  | .POS_ZLATH_VALUE => FldInfo.mk Reg.POS_ZLATH 31 0 Acc.ro 0x0 false
  | .POS_ERRCNT_ILLEGAL => FldInfo.mk Reg.POS_ERRCNT 31 16 Acc.ro 0x0 false
  | .POS_ERRCNT_REJECT => FldInfo.mk Reg.POS_ERRCNT 15 0 Acc.ro 0x0 false
  | .POS_SYNCCFG_EN1 => FldInfo.mk Reg.POS_SYNCCFG 31 31 Acc.rw 0x0 true
  | .POS_SYNCCFG_FALL1 => FldInfo.mk Reg.POS_SYNCCFG 30 30 Acc.rw 0x0 true
  | .POS_SYNCCFG_FILT1 => FldInfo.mk Reg.POS_SYNCCFG 23 16 Acc.rw 0x0 true
  | .POS_SYNCCFG_EN0 => FldInfo.mk Reg.POS_SYNCCFG 15 15 Acc.rw 0x0 true
  | .POS_SYNCCFG_FALL0 => FldInfo.mk Reg.POS_SYNCCFG 14 14 Acc.rw 0x0 true
  | .POS_SYNCCFG_FILT0 => FldInfo.mk Reg.POS_SYNCCFG 7 0 Acc.rw 0x0 true
  | .POS_SYNC_CNT_COUNT => FldInfo.mk Reg.POS_SYNC_CNT 31 0 Acc.ro 0x0 false
  | .POS_CTX_CFG_BOUND => FldInfo.mk Reg.POS_CTX_CFG 31 31 Acc.ro 0x0 false
  | .POS_CTX_CFG_HOLD => FldInfo.mk Reg.POS_CTX_CFG 30 30 Acc.rw 0x0 true
  | .POS_CTX_CFG_PENDING => FldInfo.mk Reg.POS_CTX_CFG 29 29 Acc.ro 0x0 false
  | .POS_CTX_CFG_SRC => FldInfo.mk Reg.POS_CTX_CFG 28 25 Acc.ro 0x0 false
  | .POS_CTX_CFG_SYNC => FldInfo.mk Reg.POS_CTX_CFG 24 23 Acc.ro 0x0 false
  | .POS_CTX_LEN_VALUE => FldInfo.mk Reg.POS_CTX_LEN 31 0 Acc.ro 0x0 false
  | .POS_CTX_EPOCH_VALUE => FldInfo.mk Reg.POS_CTX_EPOCH 31 0 Acc.ro 0x0 false
  | .POS_CTX_NEXTL_VALUE => FldInfo.mk Reg.POS_CTX_NEXTL 31 0 Acc.ro 0x0 false
  | .POS_CTX_NEXTH_VALUE => FldInfo.mk Reg.POS_CTX_NEXTH 31 0 Acc.ro 0x0 false
  | .POS_CTX_STAT_OUTWIN => FldInfo.mk Reg.POS_CTX_STAT 31 16 Acc.ro 0x0 false
  | .POS_CTX_STAT_MISSED => FldInfo.mk Reg.POS_CTX_STAT 15 0 Acc.ro 0x0 false
  | .POS_TRG_CFG_EN => FldInfo.mk Reg.POS_TRG_CFG 31 31 Acc.rw 0x0 true
  | .POS_TRG_CFG_FREE => FldInfo.mk Reg.POS_TRG_CFG 30 30 Acc.wo 0x0 true
  | .POS_TRG_CFG_DIR => FldInfo.mk Reg.POS_TRG_CFG 29 29 Acc.rw 0x0 true
  | .POS_TRG_CFG_ACTION => FldInfo.mk Reg.POS_TRG_CFG 28 28 Acc.rw 0x0 true
  | .POS_TRG_CFG_SRC => FldInfo.mk Reg.POS_TRG_CFG 27 24 Acc.rw 0x0 true
  | .POS_TRG_CFG_TARGET => FldInfo.mk Reg.POS_TRG_CFG 23 12 Acc.rw 0x0 true
  | .POS_TRG_CFG_GRANTS => FldInfo.mk Reg.POS_TRG_CFG 7 0 Acc.rw 0x0 true
  | .POS_TRG_VALL_VALUE => FldInfo.mk Reg.POS_TRG_VALL 31 0 Acc.rw 0x0 true
  | .POS_TRG_VALH_VALUE => FldInfo.mk Reg.POS_TRG_VALH 15 0 Acc.rw 0x0 true
  | .POS_TRG_PERIOD_PERIOD => FldInfo.mk Reg.POS_TRG_PERIOD 31 0 Acc.rw 0x0 true
  | .POS_TRG_STAT_OWNER => FldInfo.mk Reg.POS_TRG_STAT 31 24 Acc.ro 0xFF false
  | .POS_TRG_STAT_FIRES => FldInfo.mk Reg.POS_TRG_STAT 15 0 Acc.ro 0x0 false
  | .WIO_STAT_WINFLT => FldInfo.mk Reg.WIO_STAT 11 8 Acc.ro 0x0 false
  | .WIO_STAT_WOUTFLT => FldInfo.mk Reg.WIO_STAT 7 0 Acc.ro 0x0 false
  | .WIO_ENMAP_WIN => FldInfo.mk Reg.WIO_ENMAP 11 8 Acc.fuse 0x0 false
  | .WIO_ENMAP_WOUT => FldInfo.mk Reg.WIO_ENMAP 7 0 Acc.fuse 0x0 false
  | .WIO_WINCFG_DISC => FldInfo.mk Reg.WIO_WINCFG 24 16 Acc.rw 0x64 true
  | .WIO_WINCFG_ANTIV => FldInfo.mk Reg.WIO_WINCFG 8 8 Acc.rw 0x0 true
  | .WIO_WINCFG_FILT => FldInfo.mk Reg.WIO_WINCFG 7 0 Acc.rw 0x0 true
  | .WIO_WINSTAT_ARMED => FldInfo.mk Reg.WIO_WINSTAT 31 31 Acc.ro 0x0 false
  | .WIO_WINSTAT_FAULT => FldInfo.mk Reg.WIO_WINSTAT 30 30 Acc.ro 0x0 false
  | .WIO_WINSTAT_CLRREADY => FldInfo.mk Reg.WIO_WINSTAT 29 29 Acc.ro 0x0 false
  | .WIO_WINSTAT_A => FldInfo.mk Reg.WIO_WINSTAT 28 28 Acc.ro 0x0 false
  | .WIO_WINSTAT_B => FldInfo.mk Reg.WIO_WINSTAT 27 27 Acc.ro 0x0 false
  | .WIO_WINSTAT_TIMER => FldInfo.mk Reg.WIO_WINSTAT 18 0 Acc.ro 0x0 false
  | .WIO_WINCTL_CLR => FldInfo.mk Reg.WIO_WINCTL 0 0 Acc.wo 0x0 true
  | .WIO_WINCNT_COUNT => FldInfo.mk Reg.WIO_WINCNT 31 0 Acc.ro 0x0 false
  | .WIO_WOUTCFG_FORCE => FldInfo.mk Reg.WIO_WOUTCFG 31 31 Acc.rw 0x0 true
  | .WIO_WOUTCFG_SLEW => FldInfo.mk Reg.WIO_WOUTCFG 1 0 Acc.rw 0x0 false
  | .WIO_WOUTSTAT_ASSERTED => FldInfo.mk Reg.WIO_WOUTSTAT 31 31 Acc.ro 0x0 false
  | .WIO_WOUTSTAT_PIN => FldInfo.mk Reg.WIO_WOUTSTAT 30 30 Acc.ro 0x1 false
  | .WIO_WOUTSTAT_FAULT => FldInfo.mk Reg.WIO_WOUTSTAT 29 28 Acc.ro 0x0 false
  | .WIO_WOUTSTAT_EXTLOW => FldInfo.mk Reg.WIO_WOUTSTAT 27 27 Acc.ro 0x0 false
  | .WIO_WOUTSTAT_PAIRED => FldInfo.mk Reg.WIO_WOUTSTAT 26 26 Acc.ro 0x0 false
  | .WIO_WOUTSTAT_HELD => FldInfo.mk Reg.WIO_WOUTSTAT 25 25 Acc.ro 0x0 false
  | .WIO_WOUTCTL_CLR => FldInfo.mk Reg.WIO_WOUTCTL 0 0 Acc.wo 0x0 true
  | .WIO_WOUTFLTCNT_COUNT => FldInfo.mk Reg.WIO_WOUTFLTCNT 31 0 Acc.ro 0x0 false
  | .WIO_RULE_VALID => FldInfo.mk Reg.WIO_RULE 31 31 Acc.ro 0x0 false
  | .WIO_RULE_REQ => FldInfo.mk Reg.WIO_RULE 30 30 Acc.ro 0x0 false
  | .WIO_RULE_MUTED => FldInfo.mk Reg.WIO_RULE 29 29 Acc.ro 0x0 false
  | .WIO_RULE_OWNER => FldInfo.mk Reg.WIO_RULE 27 20 Acc.ro 0x0 false
  | .WIO_RULE_OUTMASK => FldInfo.mk Reg.WIO_RULE 19 12 Acc.ro 0x0 false
  | .WIO_RULE_STATION => FldInfo.mk Reg.WIO_RULE 11 0 Acc.ro 0x0 false
  | .NVS_STAT_BUSY => FldInfo.mk Reg.NVS_STAT 31 31 Acc.ro 0x0 false
  | .NVS_STAT_OVERFLOW => FldInfo.mk Reg.NVS_STAT 30 30 Acc.w1c 0x0 false
  | .NVS_STAT_SPARES => FldInfo.mk Reg.NVS_STAT 29 24 Acc.ro 0x20 false
  | .NVS_STAT_PFPAGES => FldInfo.mk Reg.NVS_STAT 23 17 Acc.ro 0x0 false
  | .NVS_STAT_SCAN => FldInfo.mk Reg.NVS_STAT 16 16 Acc.ro 0x0 false
  | .NVS_STAT_DENIED => FldInfo.mk Reg.NVS_STAT 15 0 Acc.ro 0x0 false
  | .NVS_CTL_COMMIT => FldInfo.mk Reg.NVS_CTL 31 31 Acc.wo 0x0 true
  | .NVS_CTL_DISCARD => FldInfo.mk Reg.NVS_CTL 30 30 Acc.wo 0x0 true
  | .NVS_CTL_BPLOCK => FldInfo.mk Reg.NVS_CTL 29 29 Acc.w1s 0x0 false
  | .NVS_CTL_PROT => FldInfo.mk Reg.NVS_CTL 1 0 Acc.rwl 0x0 false
  | .NVS_LOG_ALOST => FldInfo.mk Reg.NVS_LOG 31 16 Acc.ro 0x0 false
  | .NVS_LOG_DROPPED => FldInfo.mk Reg.NVS_LOG 15 0 Acc.ro 0x0 false
  | .NVS_LCSTAT_BUSY => FldInfo.mk Reg.NVS_LCSTAT 31 31 Acc.ro 0x0 false
  | .NVS_LCSTAT_RESULT => FldInfo.mk Reg.NVS_LCSTAT 30 28 Acc.ro 0x0 false
  | .NVS_LCSTAT_SETTING => FldInfo.mk Reg.NVS_LCSTAT 2 0 Acc.ro 0x0 false
  | .NVS_LCREQ_KEY => FldInfo.mk Reg.NVS_LCREQ 31 16 Acc.wo 0x0 true
  | .NVS_LCREQ_SETTING => FldInfo.mk Reg.NVS_LCREQ 2 0 Acc.wo 0x0 true
  | .NVS_LCVAL_VALUE => FldInfo.mk Reg.NVS_LCVAL 31 0 Acc.rw 0x0 false
  | .NVS_LC_STAT_USED => FldInfo.mk Reg.NVS_LC_STAT 31 28 Acc.ro 0x0 false
  | .NVS_LC_STAT_FROZEN => FldInfo.mk Reg.NVS_LC_STAT 27 27 Acc.ro 0x0 false
  | .NVS_LC_VAL_VALUE => FldInfo.mk Reg.NVS_LC_VAL 31 0 Acc.fuse 0x0 false
  | .NVS_FWARB_ADVANCE => FldInfo.mk Reg.NVS_FWARB 31 31 Acc.wo 0x0 true
  | .NVS_FWARB_BUSY => FldInfo.mk Reg.NVS_FWARB 30 30 Acc.ro 0x0 false
  | .NVS_FWARB_TARGET => FldInfo.mk Reg.NVS_FWARB 22 16 Acc.wo 0x0 true
  | .NVS_FWARB_COUNT => FldInfo.mk Reg.NVS_FWARB 6 0 Acc.fuse 0x0 false
  | .NVS_IDPUB_BYTES => FldInfo.mk Reg.NVS_IDPUB 31 0 Acc.ro 0x0 false
  | .NVS_KS_FULL => FldInfo.mk Reg.NVS_KS 31 31 Acc.ro 0x0 false
  | .NVS_KS_USAGE => FldInfo.mk Reg.NVS_KS 30 28 Acc.ro 0x0 false
  | .NVS_KS_FROZEN => FldInfo.mk Reg.NVS_KS 27 27 Acc.ro 0x0 false
  | .NVS_KS_OWNER => FldInfo.mk Reg.NVS_KS 7 0 Acc.ro 0x0 false
  | .NVS_MK_FULL => FldInfo.mk Reg.NVS_MK 31 31 Acc.ro 0x0 false
  | .NVS_MK_USAGE => FldInfo.mk Reg.NVS_MK 30 28 Acc.ro 0x0 false
  | .NVS_MK_FROZEN => FldInfo.mk Reg.NVS_MK 27 27 Acc.ro 0x0 false
  | .NVS_MK_OWNER => FldInfo.mk Reg.NVS_MK 7 0 Acc.ro 0x0 false
  | .NVS_KSBUF_WORD => FldInfo.mk Reg.NVS_KSBUF 31 0 Acc.rw 0x0 false
  | .NVS_KSCMD_GO => FldInfo.mk Reg.NVS_KSCMD 31 31 Acc.wo 0x0 true
  | .NVS_KSCMD_BUSY => FldInfo.mk Reg.NVS_KSCMD 30 30 Acc.ro 0x0 false
  | .NVS_KSCMD_RESULT => FldInfo.mk Reg.NVS_KSCMD 29 27 Acc.ro 0x0 false
  | .SDAC_STAT_PASSAGE => FldInfo.mk Reg.SDAC_STAT 31 31 Acc.ro 0x0 false
  | .SDAC_STAT_OWNER => FldInfo.mk Reg.SDAC_STAT 30 30 Acc.ro 0x0 false
  | .SDAC_STAT_LOOPBUSY => FldInfo.mk Reg.SDAC_STAT 29 29 Acc.ro 0x0 false
  | .SDAC_STAT_RESULT => FldInfo.mk Reg.SDAC_STAT 28 27 Acc.ro 0x0 false
  | .SDAC_STAT_QUEUE => FldInfo.mk Reg.SDAC_STAT 4 0 Acc.ro 0x0 false
  | .SDAC_CTL_SESSION => FldInfo.mk Reg.SDAC_CTL 31 31 Acc.rw 0x0 true
  | .SDAC_CTL_LOOPCAL => FldInfo.mk Reg.SDAC_CTL 30 30 Acc.wo 0x0 true
  | .SDAC_CTL_MODE => FldInfo.mk Reg.SDAC_CTL 9 8 Acc.rw 0x0 false
  | .SDAC_CTL_SPAN => FldInfo.mk Reg.SDAC_CTL 7 6 Acc.rw 0x0 true
  | .SDAC_CTL_ROUTE => FldInfo.mk Reg.SDAC_CTL 4 0 Acc.rw 0x1F true
  | .SDAC_FTW_FTW => FldInfo.mk Reg.SDAC_FTW 31 0 Acc.rw 0x0 true
  | .SDAC_LEVEL_AMP => FldInfo.mk Reg.SDAC_LEVEL 28 16 Acc.rw 0x0 false
  | .SDAC_LEVEL_DC => FldInfo.mk Reg.SDAC_LEVEL 13 0 Acc.rw 0x0 false
  | .SDAC_LOAD_OHMS => FldInfo.mk Reg.SDAC_LOAD 15 0 Acc.ro 0x0 false
  | .WLD_STAT_STATE1 => FldInfo.mk Reg.WLD_STAT 31 29 Acc.ro 0x1 false
  | .WLD_STAT_STATE0 => FldInfo.mk Reg.WLD_STAT 28 26 Acc.ro 0x1 false
  | .WLD_STAT_TOKHELD => FldInfo.mk Reg.WLD_STAT 24 16 Acc.ro 0x0 false
  | .WLD_STAT_QDEPTH => FldInfo.mk Reg.WLD_STAT 10 0 Acc.ro 0x0 false
  | .WLD_CHKCFG_INTERVAL => FldInfo.mk Reg.WLD_CHKCFG 16 0 Acc.rw 0x258 false
  | .WLD_CHKSTAT_OVERDUE => FldInfo.mk Reg.WLD_CHKSTAT 31 16 Acc.ro 0x0 false
  | .WLD_CHKSTAT_RESIDENT => FldInfo.mk Reg.WLD_CHKSTAT 10 0 Acc.ro 0x0 false
  | .WLD_SWEEPCFG_LIFE => FldInfo.mk Reg.WLD_SWEEPCFG 29 16 Acc.rw 0x1388 false
  | .WLD_SWEEPCFG_DAILY => FldInfo.mk Reg.WLD_SWEEPCFG 7 0 Acc.rw 0x4 false
  | .WLD_ERR_VALID => FldInfo.mk Reg.WLD_ERR 31 31 Acc.w1c 0x0 true
  | .WLD_ERR_OVERRUN => FldInfo.mk Reg.WLD_ERR 30 30 Acc.w1c 0x0 false
  | .WLD_ERR_CODE => FldInfo.mk Reg.WLD_ERR 29 24 Acc.ro 0x0 false
  | .WLD_ERR_OWNER => FldInfo.mk Reg.WLD_ERR 23 16 Acc.ro 0x0 false
  | .WLD_ERR_STATION => FldInfo.mk Reg.WLD_ERR 11 0 Acc.ro 0x0 false
  | .WLD_LOADCNT_COUNT => FldInfo.mk Reg.WLD_LOADCNT 31 0 Acc.ro 0x0 false
  | .WLD_CHKCNT_COUNT => FldInfo.mk Reg.WLD_CHKCNT 31 0 Acc.ro 0x0 false
  | .WLD_REPAIR_COUNT => FldInfo.mk Reg.WLD_REPAIR 31 0 Acc.ro 0x0 false
  | .WLD_MISMATCH_COUNT => FldInfo.mk Reg.WLD_MISMATCH 31 0 Acc.ro 0x0 false
  | .WLD_REMAPCNT_COUNT => FldInfo.mk Reg.WLD_REMAPCNT 31 0 Acc.ro 0x0 false
  | .WLD_RETIRE_COUNT => FldInfo.mk Reg.WLD_RETIRE 31 0 Acc.ro 0x0 false
  | .WLD_RES_STAT_STATE => FldInfo.mk Reg.WLD_RES_STAT 31 30 Acc.ro 0x0 false
  | .WLD_RES_STAT_OWNER => FldInfo.mk Reg.WLD_RES_STAT 27 20 Acc.ro 0x0 false
  | .WLD_RES_STAT_CLUSTER => FldInfo.mk Reg.WLD_RES_STAT 19 16 Acc.ro 0x0 false
  | .WLD_RES_STAT_STATION => FldInfo.mk Reg.WLD_RES_STAT 11 0 Acc.ro 0x0 false
  | .WLD_RES_MODEL_MODEL => FldInfo.mk Reg.WLD_RES_MODEL 31 0 Acc.ro 0x0 false
  | .WLD_RES_CHK_SHARD => FldInfo.mk Reg.WLD_RES_CHK 31 16 Acc.ro 0x0 false
  | .WLD_RES_CHK_AGE => FldInfo.mk Reg.WLD_RES_CHK 15 0 Acc.ro 0x0 false
  | .LNK_CFG_LOCK => FldInfo.mk Reg.LNK_CFG 31 31 Acc.w1s 0x0 true
  | .LNK_CFG_DEVID => FldInfo.mk Reg.LNK_CFG 2 0 Acc.rwl 0x0 false
  | .LNK_ROUTE_DEV7 => FldInfo.mk Reg.LNK_ROUTE 31 28 Acc.rwl 0x0 false
  | .LNK_ROUTE_DEV6 => FldInfo.mk Reg.LNK_ROUTE 27 24 Acc.rwl 0x0 false
  | .LNK_ROUTE_DEV5 => FldInfo.mk Reg.LNK_ROUTE 23 20 Acc.rwl 0x0 false
  | .LNK_ROUTE_DEV4 => FldInfo.mk Reg.LNK_ROUTE 19 16 Acc.rwl 0x0 false
  | .LNK_ROUTE_DEV3 => FldInfo.mk Reg.LNK_ROUTE 15 12 Acc.rwl 0x0 false
  | .LNK_ROUTE_DEV2 => FldInfo.mk Reg.LNK_ROUTE 11 8 Acc.rwl 0x0 false
  | .LNK_ROUTE_DEV1 => FldInfo.mk Reg.LNK_ROUTE 7 4 Acc.rwl 0x0 false
  | .LNK_ROUTE_DEV0 => FldInfo.mk Reg.LNK_ROUTE 3 0 Acc.rwl 0x0 false
  | .LNK_DOMAIN_KNOWN => FldInfo.mk Reg.LNK_DOMAIN 7 0 Acc.ro 0x0 false
  | .LNK_PCFG_EN => FldInfo.mk Reg.LNK_PCFG 31 31 Acc.rw 0x0 true
  | .LNK_PSTAT_STATE => FldInfo.mk Reg.LNK_PSTAT 31 29 Acc.ro 0x0 false
  | .LNK_PSTAT_PEER => FldInfo.mk Reg.LNK_PSTAT 28 26 Acc.ro 0x0 false
  | .LNK_PSTAT_REASON => FldInfo.mk Reg.LNK_PSTAT 25 24 Acc.ro 0x0 false
  | .LNK_PSTAT_LANES => FldInfo.mk Reg.LNK_PSTAT 15 8 Acc.ro 0x0 false
  | .LNK_PDLY_DELAY => FldInfo.mk Reg.LNK_PDLY 15 0 Acc.ro 0x0 false
  | .LNK_PSATCNT_COUNT => FldInfo.mk Reg.LNK_PSATCNT 31 0 Acc.ro 0x0 false
  | .LNK_PREPLAY_COUNT => FldInfo.mk Reg.LNK_PREPLAY 31 0 Acc.ro 0x0 false
  | .LNK_PCRCERR_COUNT => FldInfo.mk Reg.LNK_PCRCERR 31 0 Acc.ro 0x0 false
  | .LNK_PNOCHAN_COUNT => FldInfo.mk Reg.LNK_PNOCHAN 31 0 Acc.ro 0x0 false
  | .LNK_PDOWNCNT_COUNT => FldInfo.mk Reg.LNK_PDOWNCNT 31 0 Acc.ro 0x0 false
  | .LNK_OFSL_VALUE => FldInfo.mk Reg.LNK_OFSL 31 0 Acc.ro 0x0 false
  | .LNK_OFSH_VALUE => FldInfo.mk Reg.LNK_OFSH 31 0 Acc.ro 0x0 false
  | .LNK_OFSVAL_VALID => FldInfo.mk Reg.LNK_OFSVAL 7 0 Acc.ro 0x0 false
  | .TEN_QUOTA0_CORES => FldInfo.mk Reg.TEN_QUOTA0 31 24 Acc.ro 0x0 false
  | .TEN_QUOTA0_CONTEXTS => FldInfo.mk Reg.TEN_QUOTA0 23 16 Acc.ro 0x0 false
  | .TEN_QUOTA0_LINKSHARE => FldInfo.mk Reg.TEN_QUOTA0 15 8 Acc.ro 0x0 false
  | .TEN_QUOTA0_WOUTMAP => FldInfo.mk Reg.TEN_QUOTA0 7 0 Acc.ro 0x0 false
  | .TEN_QUOTA1_GRACE => FldInfo.mk Reg.TEN_QUOTA1 7 0 Acc.ro 0x0 false
  | .TEN_CMKIB_VALUE => FldInfo.mk Reg.TEN_CMKIB 31 0 Acc.ro 0x0 false
  | .TEN_KMKIB_VALUE => FldInfo.mk Reg.TEN_KMKIB 31 0 Acc.ro 0x0 false
  | .TEN_LDRMS_VALUE => FldInfo.mk Reg.TEN_LDRMS 31 0 Acc.ro 0x0 false
  | .TEN_USE0_CORES => FldInfo.mk Reg.TEN_USE0 15 8 Acc.ro 0x0 false
  | .TEN_USE0_CONTEXTS => FldInfo.mk Reg.TEN_USE0 7 0 Acc.ro 0x0 false
  | .TEN_CMUSE_VALUE => FldInfo.mk Reg.TEN_CMUSE 31 0 Acc.ro 0x0 false
  | .TEN_KMUSE_VALUE => FldInfo.mk Reg.TEN_KMUSE 31 0 Acc.ro 0x0 false
  | .TEN_STAT_STATE => FldInfo.mk Reg.TEN_STAT 31 30 Acc.ro 0x0 false
  | .TEN_STAT_CUT => FldInfo.mk Reg.TEN_STAT 29 29 Acc.ro 0x0 false
  | .TEN_STAT_DENIED => FldInfo.mk Reg.TEN_STAT 15 0 Acc.ro 0x0 false
  | .TEN_LDRBKT_VALUE => FldInfo.mk Reg.TEN_LDRBKT 31 0 Acc.ro 0x0 false
  | .OBS_TRCFG_EN => FldInfo.mk Reg.OBS_TRCFG 31 31 Acc.rw 0x0 true
  | .OBS_TRCFG_ALIGN => FldInfo.mk Reg.OBS_TRCFG 30 30 Acc.rw 0x0 false
  | .OBS_TRCFG_REFDEV => FldInfo.mk Reg.OBS_TRCFG 29 27 Acc.rw 0x0 false
  | .OBS_TRCFG_WMARK => FldInfo.mk Reg.OBS_TRCFG 3 0 Acc.rw 0xC false
  | .OBS_TRBASEL_VALUE => FldInfo.mk Reg.OBS_TRBASEL 31 12 Acc.rw 0x0 false
  | .OBS_TRBASEH_VALUE => FldInfo.mk Reg.OBS_TRBASEH 31 0 Acc.rw 0x0 false
  | .OBS_TRSIZE_BLOCKS => FldInfo.mk Reg.OBS_TRSIZE 20 0 Acc.rw 0x0 false
  | .OBS_TRPROD_INDEX => FldInfo.mk Reg.OBS_TRPROD 19 0 Acc.ro 0x0 false
  | .OBS_TRCONS_INDEX => FldInfo.mk Reg.OBS_TRCONS 19 0 Acc.rw 0x0 false
  | .OBS_TRMODE_TH7 => FldInfo.mk Reg.OBS_TRMODE 15 14 Acc.rw 0x0 false
  | .OBS_TRMODE_TH6 => FldInfo.mk Reg.OBS_TRMODE 13 12 Acc.rw 0x0 false
  | .OBS_TRMODE_TH5 => FldInfo.mk Reg.OBS_TRMODE 11 10 Acc.rw 0x0 false
  | .OBS_TRMODE_TH4 => FldInfo.mk Reg.OBS_TRMODE 9 8 Acc.rw 0x0 false
  | .OBS_TRMODE_TH3 => FldInfo.mk Reg.OBS_TRMODE 7 6 Acc.rw 0x0 false
  | .OBS_TRMODE_TH2 => FldInfo.mk Reg.OBS_TRMODE 5 4 Acc.rw 0x0 false
  | .OBS_TRMODE_TH1 => FldInfo.mk Reg.OBS_TRMODE 3 2 Acc.rw 0x0 false
  | .OBS_TRMODE_TH0 => FldInfo.mk Reg.OBS_TRMODE 1 0 Acc.rw 0x0 false
  | .OBS_TRLOSS_COUNT => FldInfo.mk Reg.OBS_TRLOSS 31 0 Acc.ro 0x0 false
  | .OBS_TW_CFG_ARMED => FldInfo.mk Reg.OBS_TW_CFG 31 31 Acc.ro 0x0 false
  | .OBS_TW_CFG_MODE => FldInfo.mk Reg.OBS_TW_CFG 30 30 Acc.ro 0x0 false
  | .OBS_TW_CFG_OWNER => FldInfo.mk Reg.OBS_TW_CFG 29 22 Acc.ro 0x0 false
  | .OBS_TW_CFG_STATION => FldInfo.mk Reg.OBS_TW_CFG 11 0 Acc.ro 0x0 false
  | .OBS_TW_STAT_INCOMPLETE => FldInfo.mk Reg.OBS_TW_STAT 31 31 Acc.ro 0x0 false
  | .OBS_TW_STAT_MIXED => FldInfo.mk Reg.OBS_TW_STAT 30 30 Acc.ro 0x0 false
  | .OBS_TW_STAT_CLOSED => FldInfo.mk Reg.OBS_TW_STAT 29 16 Acc.ro 0x0 false
  | .OBS_TW_STAT_MISSED => FldInfo.mk Reg.OBS_TW_STAT 15 0 Acc.ro 0x0 false
  | .OBS_TW_FSEQ_VALUE => FldInfo.mk Reg.OBS_TW_FSEQ 31 0 Acc.ro 0x0 false
  | .OBS_TW_LSEQ_VALUE => FldInfo.mk Reg.OBS_TW_LSEQ 31 0 Acc.ro 0x0 false
  | .OBS_TW_R_VALUE => FldInfo.mk Reg.OBS_TW_R 31 0 Acc.ro 0x0 false
  | .OBS_TW_FLAGT_SAT => FldInfo.mk Reg.OBS_TW_FLAGT 31 16 Acc.ro 0x0 false
  | .OBS_TW_FLAGT_PROV => FldInfo.mk Reg.OBS_TW_FLAGT 15 0 Acc.ro 0x0 false
  | .SGT_ENGSTAT_ENG7 => FldInfo.mk Reg.SGT_ENGSTAT 31 28 Acc.ro 0x0 false
  | .SGT_ENGSTAT_ENG6 => FldInfo.mk Reg.SGT_ENGSTAT 27 24 Acc.ro 0x0 false
  | .SGT_ENGSTAT_ENG5 => FldInfo.mk Reg.SGT_ENGSTAT 23 20 Acc.ro 0x0 false
  | .SGT_ENGSTAT_ENG4 => FldInfo.mk Reg.SGT_ENGSTAT 19 16 Acc.ro 0x0 false
  | .SGT_ENGSTAT_ENG3 => FldInfo.mk Reg.SGT_ENGSTAT 15 12 Acc.ro 0x0 false
  | .SGT_ENGSTAT_ENG2 => FldInfo.mk Reg.SGT_ENGSTAT 11 8 Acc.ro 0x0 false
  | .SGT_ENGSTAT_ENG1 => FldInfo.mk Reg.SGT_ENGSTAT 7 4 Acc.ro 0x0 false
  | .SGT_ENGSTAT_ENG0 => FldInfo.mk Reg.SGT_ENGSTAT 3 0 Acc.ro 0x0 false
  | .SGT_CTX_STAT_STATE => FldInfo.mk Reg.SGT_CTX_STAT 31 30 Acc.ro 0x0 false
  | .SGT_CTX_STAT_OWNER => FldInfo.mk Reg.SGT_CTX_STAT 29 22 Acc.ro 0x0 false
  | .SGT_CTX_STAT_WEIGHT => FldInfo.mk Reg.SGT_CTX_STAT 21 18 Acc.ro 0x0 false
  | .SGT_CTX_STAT_DROP => FldInfo.mk Reg.SGT_CTX_STAT 17 17 Acc.ro 0x0 false
  | .SGT_CTX_STAT_QUEUED => FldInfo.mk Reg.SGT_CTX_STAT 16 12 Acc.ro 0x0 false
  | .SGT_CTX_STAT_STATION => FldInfo.mk Reg.SGT_CTX_STAT 11 0 Acc.ro 0x0 false
  | .SGT_CTX_SEQ_NEXTSEQ => FldInfo.mk Reg.SGT_CTX_SEQ 31 0 Acc.ro 0x0 false
  | .SGT_CTX_DROPCNT_COUNT => FldInfo.mk Reg.SGT_CTX_DROPCNT 31 0 Acc.ro 0x0 false
  | .CSQ_STAT_STATE => FldInfo.mk Reg.CSQ_STAT 31 29 Acc.ro 0x0 false
  | .CSQ_STAT_EXCMASK => FldInfo.mk Reg.CSQ_STAT 15 8 Acc.ro 0x0 false
  | .CSQ_STAT_USED => FldInfo.mk Reg.CSQ_STAT 7 0 Acc.ro 0x0 false
  | .CSQ_TH_STAT_STATE => FldInfo.mk Reg.CSQ_TH_STAT 31 29 Acc.ro 0x0 false
  | .CSQ_TH_STAT_WAITKIND => FldInfo.mk Reg.CSQ_TH_STAT 28 26 Acc.ro 0x0 false
  | .CSQ_TH_STAT_OWNER => FldInfo.mk Reg.CSQ_TH_STAT 23 16 Acc.ro 0x0 false
  | .CSQ_TH_STAT_PC => FldInfo.mk Reg.CSQ_TH_STAT 13 0 Acc.ro 0x0 false
  | .CSQ_TH_EXC_VALID => FldInfo.mk Reg.CSQ_TH_EXC 31 31 Acc.w1c 0x0 true
  | .CSQ_TH_EXC_OVERRUN => FldInfo.mk Reg.CSQ_TH_EXC 30 30 Acc.w1c 0x0 false
  | .CSQ_TH_EXC_CODE => FldInfo.mk Reg.CSQ_TH_EXC 29 24 Acc.ro 0x0 false
  | .CSQ_TH_EXC_PC => FldInfo.mk Reg.CSQ_TH_EXC 13 0 Acc.ro 0x0 false
  | .CSQ_TH_PRED_P => FldInfo.mk Reg.CSQ_TH_PRED 7 0 Acc.ro 0x0 false
  | .CSQ_TH_CTL_STOP => FldInfo.mk Reg.CSQ_TH_CTL 1 1 Acc.wo 0x0 true
  | .CSQ_TH_CTL_RESTART => FldInfo.mk Reg.CSQ_TH_CTL 0 0 Acc.wo 0x0 true
  | .CSQ_TH_REGION_STRICT => FldInfo.mk Reg.CSQ_TH_REGION 31 31 Acc.ro 0x0 false
  | .CSQ_TH_REGION_LAST => FldInfo.mk Reg.CSQ_TH_REGION 29 16 Acc.ro 0x0 false
  | .CSQ_TH_REGION_BASE => FldInfo.mk Reg.CSQ_TH_REGION 13 0 Acc.ro 0x0 false
  | .CSQ_TH_RECCNT_COUNT => FldInfo.mk Reg.CSQ_TH_RECCNT 31 0 Acc.ro 0x0 false
  | .CSQ_TH_GREG_VALUE => FldInfo.mk Reg.CSQ_TH_GREG 31 0 Acc.ro 0x0 false
  | .CSQ_TH_CNT_VALUE => FldInfo.mk Reg.CSQ_TH_CNT 31 0 Acc.ro 0x0 false
  | .CSQ_GRP_STAT_DEFINED => FldInfo.mk Reg.CSQ_GRP_STAT 31 31 Acc.ro 0x0 false
  | .CSQ_GRP_STAT_SCOPE => FldInfo.mk Reg.CSQ_GRP_STAT 30 29 Acc.ro 0x0 false
  | .CSQ_GRP_STAT_TIMEDOUT => FldInfo.mk Reg.CSQ_GRP_STAT 28 28 Acc.ro 0x0 false
  | .CSQ_GRP_STAT_ARRIVED => FldInfo.mk Reg.CSQ_GRP_STAT 27 24 Acc.ro 0x0 false
  | .CSQ_GRP_STAT_INSTANCE => FldInfo.mk Reg.CSQ_GRP_STAT 15 0 Acc.ro 0x0 false
  | .OCU_STAT_OWNER => FldInfo.mk Reg.OCU_STAT 31 24 Acc.ro 0xFF false
  | .OCU_STAT_HIWAT => FldInfo.mk Reg.OCU_STAT 13 8 Acc.ro 0x0 false
  | .OCU_STAT_QDEPTH => FldInfo.mk Reg.OCU_STAT 5 0 Acc.ro 0x0 false
  | .OCU_VREQ_COUNT => FldInfo.mk Reg.OCU_VREQ 31 0 Acc.ro 0x0 false
  | .OCU_EREQ_COUNT => FldInfo.mk Reg.OCU_EREQ 31 0 Acc.ro 0x0 false
  | .OCU_LIMSTALL_COUNT => FldInfo.mk Reg.OCU_LIMSTALL 31 0 Acc.ro 0x0 false
  | .OCU_BUSY_COUNT => FldInfo.mk Reg.OCU_BUSY 31 0 Acc.ro 0x0 false
  | .OCU_CTL_CLR_CNT => FldInfo.mk Reg.OCU_CTL 0 0 Acc.wo 0x0 true
  | .OWL_SCFG_EN => FldInfo.mk Reg.OWL_SCFG 31 31 Acc.ro 0x0 false
  | .OWL_SCFG_STATION => FldInfo.mk Reg.OWL_SCFG 11 0 Acc.ro 0x0 false
  | .OWL_SSTAT_STATE => FldInfo.mk Reg.OWL_SSTAT 31 30 Acc.ro 0x0 false
  | .OWL_SSTAT_EMPTY => FldInfo.mk Reg.OWL_SSTAT 25 25 Acc.ro 0x0 false
  | .OWL_SSTAT_ALARM => FldInfo.mk Reg.OWL_SSTAT 24 20 Acc.ro 0x0 false
  | .OWL_SSTAT_HARD => FldInfo.mk Reg.OWL_SSTAT 19 19 Acc.ro 0x0 false
  | .OWL_SSTAT_SATN => FldInfo.mk Reg.OWL_SSTAT 13 5 Acc.ro 0x0 false
  | .OWL_SSTAT_WARM => FldInfo.mk Reg.OWL_SSTAT 4 0 Acc.ro 0x0 false
  | .OWL_SALMCNT_COUNT => FldInfo.mk Reg.OWL_SALMCNT 31 0 Acc.ro 0x0 false
  | .OWL_SCTL_RELEARN => FldInfo.mk Reg.OWL_SCTL 0 0 Acc.wo 0x0 true
  | .OWL_SMEAN_VALUE => FldInfo.mk Reg.OWL_SMEAN 31 0 Acc.ro 0x0 false
  | .OWL_SVAR_VALUE => FldInfo.mk Reg.OWL_SVAR 31 0 Acc.ro 0x0 false
  | .OWL_SMIN_VALUE => FldInfo.mk Reg.OWL_SMIN 31 0 Acc.ro 0x0 false
  | .OWL_SMAX_VALUE => FldInfo.mk Reg.OWL_SMAX 31 0 Acc.ro 0x0 false
  | .CPT_STAT_BAND => FldInfo.mk Reg.CPT_STAT 31 29 Acc.ro 0x0 false
  | .CPT_STAT_THR => FldInfo.mk Reg.CPT_STAT 28 25 Acc.ro 0x0 false
  | .CPT_STAT_LOWSENS => FldInfo.mk Reg.CPT_STAT 24 24 Acc.ro 0x0 false
  | .CPT_STAT_MEDIAN => FldInfo.mk Reg.CPT_STAT 15 0 Acc.ro 0x0 false
  | .CPT_DOM_SHARED => FldInfo.mk Reg.CPT_DOM 8 8 Acc.ro 0x0 false
  | .CPT_DOM_CORE => FldInfo.mk Reg.CPT_DOM 7 0 Acc.ro 0x0 false
  | .CPT_PWR_BUDGET => FldInfo.mk Reg.CPT_PWR 31 16 Acc.ro 0x0 false
  | .CPT_PWR_MW => FldInfo.mk Reg.CPT_PWR 15 0 Acc.ro 0x0 false
  | .KMC_ARBW0_W_CORE7 => FldInfo.mk Reg.KMC_ARBW0 31 28 Acc.ro 0x4 false
  | .KMC_ARBW0_W_CORE6 => FldInfo.mk Reg.KMC_ARBW0 27 24 Acc.ro 0x4 false
  | .KMC_ARBW0_W_CORE5 => FldInfo.mk Reg.KMC_ARBW0 23 20 Acc.ro 0x4 false
  | .KMC_ARBW0_W_CORE4 => FldInfo.mk Reg.KMC_ARBW0 19 16 Acc.ro 0x4 false
  | .KMC_ARBW0_W_CORE3 => FldInfo.mk Reg.KMC_ARBW0 15 12 Acc.ro 0x4 false
  | .KMC_ARBW0_W_CORE2 => FldInfo.mk Reg.KMC_ARBW0 11 8 Acc.ro 0x4 false
  | .KMC_ARBW0_W_CORE1 => FldInfo.mk Reg.KMC_ARBW0 7 4 Acc.ro 0x4 false
  | .KMC_ARBW0_W_CORE0 => FldInfo.mk Reg.KMC_ARBW0 3 0 Acc.ro 0x4 false
  | .KMC_ARBW1_W_CSQ => FldInfo.mk Reg.KMC_ARBW1 7 4 Acc.ro 0x2 false
  | .KMC_ARBW1_W_OCU => FldInfo.mk Reg.KMC_ARBW1 3 0 Acc.ro 0x4 false
  | .KMC_ECCSTAT_VALID => FldInfo.mk Reg.KMC_ECCSTAT 31 31 Acc.w1c 0x0 true
  | .KMC_ECCSTAT_OVERRUN => FldInfo.mk Reg.KMC_ECCSTAT 30 30 Acc.w1c 0x0 false
  | .KMC_ECCSTAT_KIND => FldInfo.mk Reg.KMC_ECCSTAT 29 28 Acc.ro 0x0 false
  | .KMC_ECCSTAT_SYNDROME => FldInfo.mk Reg.KMC_ECCSTAT 27 20 Acc.ro 0x0 false
  | .KMC_ECCSTAT_MASTER => FldInfo.mk Reg.KMC_ECCSTAT 15 8 Acc.ro 0x0 false
  | .KMC_ECCADDR_OFFSET => FldInfo.mk Reg.KMC_ECCADDR 21 0 Acc.ro 0x0 false
  | .KMC_ECCCNT_UNCORR => FldInfo.mk Reg.KMC_ECCCNT 31 16 Acc.ro 0x0 false
  | .KMC_ECCCNT_CORR => FldInfo.mk Reg.KMC_ECCCNT 15 0 Acc.ro 0x0 false
  | .KMC_STN_STAT_VALID => FldInfo.mk Reg.KMC_STN_STAT 31 31 Acc.ro 0x0 false
  | .KMC_STN_STAT_STATE => FldInfo.mk Reg.KMC_STN_STAT 30 28 Acc.ro 0x0 false
  | .KMC_STN_STAT_GEN => FldInfo.mk Reg.KMC_STN_STAT 27 20 Acc.ro 0x0 false
  | .KMC_STN_STAT_INFLIGHT => FldInfo.mk Reg.KMC_STN_STAT 19 12 Acc.ro 0x0 false
  | .KMC_STN_STAT_STATION => FldInfo.mk Reg.KMC_STN_STAT 11 0 Acc.ro 0x0 false
  | .KMC_STN_SATCNT_COUNT => FldInfo.mk Reg.KMC_STN_SATCNT 31 0 Acc.ro 0x0 false
  | .KMC_STN_POISCNT_COUNT => FldInfo.mk Reg.KMC_STN_POISCNT 31 0 Acc.ro 0x0 false
  | .KMC_STN_TORNCNT_COUNT => FldInfo.mk Reg.KMC_STN_TORNCNT 31 0 Acc.ro 0x0 false
  | .KMC_STN_LATECNT_COUNT => FldInfo.mk Reg.KMC_STN_LATECNT 31 0 Acc.ro 0x0 false
  | .KMC_STN_UNMATCH_COUNT => FldInfo.mk Reg.KMC_STN_UNMATCH 31 0 Acc.ro 0x0 false
  | .KMC_SLOT_STATE => FldInfo.mk Reg.KMC_SLOT 31 29 Acc.ro 0x4 false
  | .KMC_SLOT_TORN => FldInfo.mk Reg.KMC_SLOT 28 28 Acc.ro 0x0 false
  | .KMC_SLOT_STATION => FldInfo.mk Reg.KMC_SLOT 27 16 Acc.ro 0x0 false
  | .KMC_SLOT_BASE => FldInfo.mk Reg.KMC_SLOT 15 0 Acc.ro 0x0 false
  | .STP_STAT_STATE => FldInfo.mk Reg.STP_STAT 31 29 Acc.ro 0x1 false
  | .STP_STAT_DIDX => FldInfo.mk Reg.STP_STAT 27 22 Acc.ro 0x0 false
  | .STP_STAT_STATION => FldInfo.mk Reg.STP_STAT 11 0 Acc.ro 0x0 false
  | .STP_EXC_VALID => FldInfo.mk Reg.STP_EXC 31 31 Acc.w1c 0x0 true
  | .STP_EXC_OVERRUN => FldInfo.mk Reg.STP_EXC 30 30 Acc.w1c 0x0 false
  | .STP_EXC_REASON => FldInfo.mk Reg.STP_EXC 27 24 Acc.ro 0x0 false
  | .STP_EXC_DIDX => FldInfo.mk Reg.STP_EXC 23 18 Acc.ro 0x0 false
  | .STP_EXC_STATION => FldInfo.mk Reg.STP_EXC 11 0 Acc.ro 0x0 false
  | .STP_GRANT_STATE => FldInfo.mk Reg.STP_GRANT 31 29 Acc.ro 0x0 false
  | .STP_GRANT_GRANTS => FldInfo.mk Reg.STP_GRANT 15 0 Acc.ro 0x0 false
  | .ME_STAT_STATE => FldInfo.mk Reg.ME_STAT 31 29 Acc.ro 0x1 false
  | .ME_STAT_BRINGUP => FldInfo.mk Reg.ME_STAT 28 28 Acc.ro 0x0 false
  | .ME_STAT_RG => FldInfo.mk Reg.ME_STAT 27 26 Acc.ro 0x0 false
  | .ME_STAT_SUBPASS => FldInfo.mk Reg.ME_STAT 25 25 Acc.ro 0x0 false
  | .ME_STAT_STATION => FldInfo.mk Reg.ME_STAT 23 12 Acc.ro 0x0 false
  | .ME_OPW_ADDIN => FldInfo.mk Reg.ME_OPW 26 26 Acc.ro 0x0 false
  | .ME_OPW_OUT => FldInfo.mk Reg.ME_OPW 25 24 Acc.ro 0x0 false
  | .ME_OPW_CHAIN_POS => FldInfo.mk Reg.ME_OPW 23 20 Acc.ro 0x0 false
  | .ME_OPW_CHAIN_LEN => FldInfo.mk Reg.ME_OPW 19 15 Acc.ro 0x1 false
  | .ME_OPW_RGMASK => FldInfo.mk Reg.ME_OPW 13 10 Acc.ro 0x0 false
  | .ME_OPW_REPEAT => FldInfo.mk Reg.ME_OPW 9 8 Acc.ro 0x0 false
  | .ME_OPW_WMODE => FldInfo.mk Reg.ME_OPW 7 6 Acc.ro 0x0 false
  | .ME_OPW_INMODE => FldInfo.mk Reg.ME_OPW 5 4 Acc.ro 0x0 false
  | .ME_OPW_SATPOL => FldInfo.mk Reg.ME_OPW 3 2 Acc.ro 0x0 false
  | .ME_OPW_GAIN => FldInfo.mk Reg.ME_OPW 1 0 Acc.ro 0x0 false
  | .ME_CTL_CLR_CNT => FldInfo.mk Reg.ME_CTL 0 0 Acc.wo 0x0 true
  | .ME_PHCNT_COUNT => FldInfo.mk Reg.ME_PHCNT 31 0 Acc.ro 0x0 false
  | .ME_SKIPCNT_COUNT => FldInfo.mk Reg.ME_SKIPCNT 31 0 Acc.ro 0x0 false
  | .ME_SATCNT_COUNT => FldInfo.mk Reg.ME_SATCNT 31 0 Acc.ro 0x0 false
  | .ME_SPLITCNT_COUNT => FldInfo.mk Reg.ME_SPLITCNT 31 0 Acc.ro 0x0 false
  | .ME_ESCCNT_COUNT => FldInfo.mk Reg.ME_ESCCNT 31 0 Acc.ro 0x0 false
  | .ME_ESCMISS_COUNT => FldInfo.mk Reg.ME_ESCMISS 31 0 Acc.ro 0x0 false
  | .ME_ACCSAT_COUNT => FldInfo.mk Reg.ME_ACCSAT 31 0 Acc.ro 0x0 false
  | .ME_REMAP_VALID => FldInfo.mk Reg.ME_REMAP 31 31 Acc.ro 0x0 false
  | .ME_REMAP_FAULTY => FldInfo.mk Reg.ME_REMAP 30 30 Acc.ro 0x0 false
  | .ME_REMAP_COLUMN => FldInfo.mk Reg.ME_REMAP 7 0 Acc.ro 0x0 false
  | .ME_RGSTAT_CYC10 => FldInfo.mk Reg.ME_RGSTAT 31 12 Acc.ro 0x0 false
  | .ME_RGSTAT_MEANIT => FldInfo.mk Reg.ME_RGSTAT 11 4 Acc.ro 0x0 false
  | .ME_RGSTAT_WARN => FldInfo.mk Reg.ME_RGSTAT 3 3 Acc.ro 0x0 false
  | .ME_DTGAIN_PROV => FldInfo.mk Reg.ME_DTGAIN 31 31 Acc.ro 0x1 false
  | .ME_DTGAIN_ACTIVE => FldInfo.mk Reg.ME_DTGAIN 30 30 Acc.ro 0x0 false
  | .ME_DTGAIN_REJECTS => FldInfo.mk Reg.ME_DTGAIN 23 16 Acc.ro 0x0 false
  | .ME_DTGAIN_GAIN => FldInfo.mk Reg.ME_DTGAIN 15 0 Acc.ro 0x4000 false
  | .ME_DTOFS_SAMPLES => FldInfo.mk Reg.ME_DTOFS 31 16 Acc.ro 0x0 false
  | .ME_DTOFS_OFFSET => FldInfo.mk Reg.ME_DTOFS 15 0 Acc.ro 0x0 false
  | .ME_CALSTAT_STATE => FldInfo.mk Reg.ME_CALSTAT 31 29 Acc.ro 0x0 false
  | .ME_CALSTAT_BAND => FldInfo.mk Reg.ME_CALSTAT 28 26 Acc.ro 0x0 false
  | .ME_CALSTAT_RETRIES => FldInfo.mk Reg.ME_CALSTAT 25 24 Acc.ro 0x0 false
  | .ME_CALSTAT_TEMP_FAIL => FldInfo.mk Reg.ME_CALSTAT 23 23 Acc.ro 0x0 false
  | .ME_CALSTAT_SHAPE_FAIL => FldInfo.mk Reg.ME_CALSTAT 22 22 Acc.ro 0x0 false
  | .ME_CALSTAT_QCHECK_FAIL => FldInfo.mk Reg.ME_CALSTAT 21 21 Acc.ro 0x0 false
  | .ME_CALSTAT_EARLY_TU => FldInfo.mk Reg.ME_CALSTAT 19 16 Acc.ro 0x0 false
  | .ME_CALSTAT_TRIM_AGE => FldInfo.mk Reg.ME_CALSTAT 15 0 Acc.ro 0x0 false
  | .ME_KACNT_COUNT => FldInfo.mk Reg.ME_KACNT 31 0 Acc.ro 0x0 false
  | .DPE_STAT_STATE => FldInfo.mk Reg.DPE_STAT 31 29 Acc.ro 0x1 false
  | .DPE_STAT_STATION => FldInfo.mk Reg.DPE_STAT 23 12 Acc.ro 0x0 false
  | .DPE_BUSY_COUNT => FldInfo.mk Reg.DPE_BUSY 31 0 Acc.ro 0x0 false
  | .VXE_STAT_STATE => FldInfo.mk Reg.VXE_STAT 31 29 Acc.ro 0x1 false
  | .VXE_STAT_STATION => FldInfo.mk Reg.VXE_STAT 23 12 Acc.ro 0x0 false
  | .VXE_BUSY_COUNT => FldInfo.mk Reg.VXE_BUSY 31 0 Acc.ro 0x0 false
  | .PRE_STAT_STATE => FldInfo.mk Reg.PRE_STAT 31 29 Acc.ro 0x1 false
  | .PRE_STAT_STATION => FldInfo.mk Reg.PRE_STAT 23 12 Acc.ro 0x0 false
  | .PRE_BUSY_COUNT => FldInfo.mk Reg.PRE_BUSY 31 0 Acc.ro 0x0 false
  | .TMV_STAT_STATE => FldInfo.mk Reg.TMV_STAT 31 29 Acc.ro 0x1 false
  | .TMV_STAT_QDEPTH => FldInfo.mk Reg.TMV_STAT 20 16 Acc.ro 0x0 false
  | .TMV_ERR_COUNT => FldInfo.mk Reg.TMV_ERR 31 0 Acc.ro 0x0 false
  | .CMC_ECCSTAT_VALID => FldInfo.mk Reg.CMC_ECCSTAT 31 31 Acc.w1c 0x0 true
  | .CMC_ECCSTAT_OVERRUN => FldInfo.mk Reg.CMC_ECCSTAT 30 30 Acc.w1c 0x0 false
  | .CMC_ECCSTAT_KIND => FldInfo.mk Reg.CMC_ECCSTAT 29 28 Acc.ro 0x0 false
  | .CMC_ECCSTAT_SYNDROME => FldInfo.mk Reg.CMC_ECCSTAT 27 20 Acc.ro 0x0 false
  | .CMC_ECCSTAT_MASTER => FldInfo.mk Reg.CMC_ECCSTAT 15 8 Acc.ro 0x0 false
  | .CMC_ECCADDR_OFFSET => FldInfo.mk Reg.CMC_ECCADDR 21 0 Acc.ro 0x0 false
  | .CMC_ECCCNT_UNCORR => FldInfo.mk Reg.CMC_ECCCNT 31 16 Acc.ro 0x0 false
  | .CMC_ECCCNT_CORR => FldInfo.mk Reg.CMC_ECCCNT 15 0 Acc.ro 0x0 false
  | .CMC_SLOT_STATE => FldInfo.mk Reg.CMC_SLOT 31 29 Acc.ro 0x4 false
  | .CMC_SLOT_TORN => FldInfo.mk Reg.CMC_SLOT 28 28 Acc.ro 0x0 false
  | .CMC_SLOT_STATION => FldInfo.mk Reg.CMC_SLOT 27 16 Acc.ro 0x0 false
  | .CMC_SLOT_BASE => FldInfo.mk Reg.CMC_SLOT 15 0 Acc.ro 0x0 false
  | .CCTL_EMAP_SPARE_USED => FldInfo.mk Reg.CCTL_EMAP 31 31 Acc.ro 0x0 false
  | .CCTL_EMAP_MES_RETIRED => FldInfo.mk Reg.CCTL_EMAP 30 30 Acc.ro 0x0 false
  | .CCTL_EMAP_CAPACITY => FldInfo.mk Reg.CCTL_EMAP 24 20 Acc.ro 0x10 false
  | .CCTL_EMAP_SPARE_FOR => FldInfo.mk Reg.CCTL_EMAP 19 16 Acc.ro 0x0 false
  | .CCTL_EMAP_RETIRED => FldInfo.mk Reg.CCTL_EMAP 15 0 Acc.ro 0x0 false
  | .CCTL_BUSYL_VALUE => FldInfo.mk Reg.CCTL_BUSYL 31 0 Acc.ro 0x0 false
  | .CCTL_BUSYH_VALUE => FldInfo.mk Reg.CCTL_BUSYH 31 0 Acc.ro 0x0 false
  | .TENV_ID_IDENTITY => FldInfo.mk Reg.TENV_ID 15 8 Acc.ro 0x0 false
  | .TENV_ID_TENANT => FldInfo.mk Reg.TENV_ID 7 0 Acc.ro 0x0 false
  | .TENV_STAT_STATE => FldInfo.mk Reg.TENV_STAT 31 30 Acc.ro 0x0 false
  | .TENV_STAT_CUT => FldInfo.mk Reg.TENV_STAT 29 29 Acc.ro 0x0 false
  | .TENV_STAT_DENIED => FldInfo.mk Reg.TENV_STAT 15 0 Acc.ro 0x0 false
  | .CMD_BASEL_ADDR => FldInfo.mk Reg.CMD_BASEL 31 6 Acc.rw 0x0 false
  | .CMD_BASEH_ADDR => FldInfo.mk Reg.CMD_BASEH 31 0 Acc.rw 0x0 false
  | .CMD_CFG_EN => FldInfo.mk Reg.CMD_CFG 31 31 Acc.rw 0x0 true
  | .CMD_CFG_SIZE => FldInfo.mk Reg.CMD_CFG 2 0 Acc.rw 0x4 false
  | .CMD_PROD_INDEX => FldInfo.mk Reg.CMD_PROD 5 0 Acc.rw 0x0 true
  | .CMD_CONS_INDEX => FldInfo.mk Reg.CMD_CONS 5 0 Acc.ro 0x0 false
  | .CPL_BASEL_ADDR => FldInfo.mk Reg.CPL_BASEL 31 6 Acc.rw 0x0 false
  | .CPL_BASEH_ADDR => FldInfo.mk Reg.CPL_BASEH 31 0 Acc.rw 0x0 false
  | .CPL_HEAD_INDEX => FldInfo.mk Reg.CPL_HEAD 5 0 Acc.rw 0x0 true
  | .CPL_TAIL_INDEX => FldInfo.mk Reg.CPL_TAIL 5 0 Acc.ro 0x0 false
  | .SVC_DATA_WORD => FldInfo.mk Reg.SVC_DATA 31 0 Acc.ro 0x0 false
  | .SVC_STAT_FULL => FldInfo.mk Reg.SVC_STAT 31 31 Acc.ro 0x0 false
  | .SVC_STAT_QUEUED => FldInfo.mk Reg.SVC_STAT 21 16 Acc.ro 0x0 false
  | .SVC_STAT_LOST => FldInfo.mk Reg.SVC_STAT 15 0 Acc.ro 0x0 false
  | .SVC_CTL_ACK => FldInfo.mk Reg.SVC_CTL 0 0 Acc.wo 0x0 true
  | .MSIX_TABLE_WORD => FldInfo.mk Reg.MSIX_TABLE 31 0 Acc.rw 0x0 false
  | .MSIX_PBA_BITS => FldInfo.mk Reg.MSIX_PBA 31 0 Acc.ro 0x0 false
  | .SCTL_WORD => FldInfo.mk Reg.SCTL 31 0 Acc.rw 0x0 false
  | .TENV_IADDR_OFFSET => FldInfo.mk Reg.TENV_IADDR 25 2 Acc.rw 0x0 false
  | .TENV_IDATA_DATA => FldInfo.mk Reg.TENV_IDATA 31 0 Acc.rw 0x0 true
  | .EVQ_STAT_COUNT => FldInfo.mk Reg.EVQ_STAT 31 25 Acc.ro 0x0 false
  | .EVQ_STAT_ACOUNT => FldInfo.mk Reg.EVQ_STAT 24 20 Acc.ro 0x0 false
  | .EVQ_STAT_AMISS => FldInfo.mk Reg.EVQ_STAT 19 16 Acc.ro 0x0 false
  | .EVQ_STAT_BSUPP => FldInfo.mk Reg.EVQ_STAT 15 0 Acc.ro 0x0 false
  | .EVQ_POP_POP => FldInfo.mk Reg.EVQ_POP 0 0 Acc.wo 0x0 true
  | .EVQ_HEAD_WORD => FldInfo.mk Reg.EVQ_HEAD 31 0 Acc.ro 0x0 false

/-- The fields of a register, highest bits first. -/
def Reg.fields : Reg → List Fld
  | .GCTL_ID => [Fld.GCTL_ID_DEVICE, Fld.GCTL_ID_REV_MAJOR, Fld.GCTL_ID_REV_MINOR, Fld.GCTL_ID_GRADE]
  | .GCTL_TOPO => [Fld.GCTL_TOPO_SPARES, Fld.GCTL_TOPO_ENGINES, Fld.GCTL_TOPO_CORES, Fld.GCTL_TOPO_CLUSTERS]
  | .GCTL_ACCERR => [Fld.GCTL_ACCERR_VALID, Fld.GCTL_ACCERR_OVERRUN, Fld.GCTL_ACCERR_KIND, Fld.GCTL_ACCERR_WRITE, Fld.GCTL_ACCERR_MASTER]
  | .GCTL_ACCADDR => [Fld.GCTL_ACCADDR_BAR, Fld.GCTL_ACCADDR_OFFSET]
  | .GCTL_START => [Fld.GCTL_START_KIND, Fld.GCTL_START_STEP, Fld.GCTL_START_CAUSE, Fld.GCTL_START_BOOTS, Fld.GCTL_START_SLOT, Fld.GCTL_START_FULL]
  | .GCTL_RESET => [Fld.GCTL_RESET_KEY, Fld.GCTL_RESET_LAST, Fld.GCTL_RESET_DIE]
  | .GCTL_PWRST => [Fld.GCTL_PWRST_STATE, Fld.GCTL_PWRST_RESULT, Fld.GCTL_PWRST_CLEAN, Fld.GCTL_PWRST_PREPARE, Fld.GCTL_PWRST_WAKE, Fld.GCTL_PWRST_BEAR]
  | .GCTL_MGR => [Fld.GCTL_MGR_ACTIVE, Fld.GCTL_MGR_STANDBY, Fld.GCTL_MGR_CAUSE, Fld.GCTL_MGR_TAKEOVERS, Fld.GCTL_MGR_SWITCH]
  | .GCTL_CKPT => [Fld.GCTL_CKPT_CN]
  | .GCTL_EVDROP => [Fld.GCTL_EVDROP_LOGC, Fld.GCTL_EVDROP_TRC]
  | .MBX_LOCK => [Fld.MBX_LOCK_LOCK]
  | .MBX_BIND => [Fld.MBX_BIND_VALID, Fld.MBX_BIND_SENDER, Fld.MBX_BIND_RECEIVER]
  | .MBX_TMO => [Fld.MBX_TMO_TMO]
  | .MBX_CH_DATA => [Fld.MBX_CH_DATA_WORD]
  | .MBX_CH_STAT => [Fld.MBX_CH_STAT_FULL, Fld.MBX_CH_STAT_TMO, Fld.MBX_CH_STAT_DISCARD, Fld.MBX_CH_STAT_NWORDS, Fld.MBX_CH_STAT_POSTS]
  | .MBX_CH_CTL => [Fld.MBX_CH_CTL_POST, Fld.MBX_CH_CTL_ACK, Fld.MBX_CH_CTL_CLRTMO, Fld.MBX_CH_CTL_FLUSH, Fld.MBX_CH_CTL_NM1]
  | .PWR_CAP => [Fld.PWR_CAP_CEIL, Fld.PWR_CAP_CAP]
  | .PWR_STAT => [Fld.PWR_STAT_DIEMW, Fld.PWR_STAT_OVERCAP, Fld.PWR_STAT_POOL]
  | .PWR_CLK => [Fld.PWR_CLK_IOSLEW, Fld.PWR_CLK_SPREAD]
  | .PWR_AVS => [Fld.PWR_AVS_EN, Fld.PWR_AVS_HELD, Fld.PWR_AVS_VSET]
  | .PWR_DIEDOM => [Fld.PWR_DIEDOM_LINK_OFF, Fld.PWR_DIEDOM_OBS_OFF, Fld.PWR_DIEDOM_ON]
  | .PWR_REG => [Fld.PWR_REG_VALID, Fld.PWR_REG_PEC, Fld.PWR_REG_RAIL, Fld.PWR_REG_SPEED, Fld.PWR_REG_ADDR]
  | .PWR_REG_STAT => [Fld.PWR_REG_STAT_LOST, Fld.PWR_REG_STAT_FAULT, Fld.PWR_REG_STAT_CLR, Fld.PWR_REG_STAT_STATUS]
  | .PWR_REG_POUT => [Fld.PWR_REG_POUT_MW]
  | .THM_STAT => [Fld.THM_STAT_SHUT, Fld.THM_STAT_SHUTSENS, Fld.THM_STAT_DIEMED]
  | .THM_SENS => [Fld.THM_SENS_VALID, Fld.THM_SENS_TEMP]
  | .POS_CFG => [Fld.POS_CFG_EN, Fld.POS_CFG_MODE, Fld.POS_CFG_INV, Fld.POS_CFG_ZEN, Fld.POS_CFG_FILT]
  | .POS_STAT => [Fld.POS_STAT_LOSS, Fld.POS_STAT_PERIOD]
  | .POS_CNTL => [Fld.POS_CNTL_VALUE]
  | .POS_CNTH => [Fld.POS_CNTH_VALUE]
  | .POS_TRVL => [Fld.POS_TRVL_VALUE]
  | .POS_TRVH => [Fld.POS_TRVH_VALUE]
  | .POS_ZLATL => [Fld.POS_ZLATL_VALUE]
  | .POS_ZLATH => [Fld.POS_ZLATH_VALUE]
  | .POS_ERRCNT => [Fld.POS_ERRCNT_ILLEGAL, Fld.POS_ERRCNT_REJECT]
  | .POS_SYNCCFG => [Fld.POS_SYNCCFG_EN1, Fld.POS_SYNCCFG_FALL1, Fld.POS_SYNCCFG_FILT1, Fld.POS_SYNCCFG_EN0, Fld.POS_SYNCCFG_FALL0, Fld.POS_SYNCCFG_FILT0]
  | .POS_SYNC_CNT => [Fld.POS_SYNC_CNT_COUNT]
  | .POS_CTX_CFG => [Fld.POS_CTX_CFG_BOUND, Fld.POS_CTX_CFG_HOLD, Fld.POS_CTX_CFG_PENDING, Fld.POS_CTX_CFG_SRC, Fld.POS_CTX_CFG_SYNC]
  | .POS_CTX_LEN => [Fld.POS_CTX_LEN_VALUE]
  | .POS_CTX_EPOCH => [Fld.POS_CTX_EPOCH_VALUE]
  | .POS_CTX_NEXTL => [Fld.POS_CTX_NEXTL_VALUE]
  | .POS_CTX_NEXTH => [Fld.POS_CTX_NEXTH_VALUE]
  | .POS_CTX_STAT => [Fld.POS_CTX_STAT_OUTWIN, Fld.POS_CTX_STAT_MISSED]
  | .POS_TRG_CFG => [Fld.POS_TRG_CFG_EN, Fld.POS_TRG_CFG_FREE, Fld.POS_TRG_CFG_DIR, Fld.POS_TRG_CFG_ACTION, Fld.POS_TRG_CFG_SRC, Fld.POS_TRG_CFG_TARGET, Fld.POS_TRG_CFG_GRANTS]
  | .POS_TRG_VALL => [Fld.POS_TRG_VALL_VALUE]
  | .POS_TRG_VALH => [Fld.POS_TRG_VALH_VALUE]
  | .POS_TRG_PERIOD => [Fld.POS_TRG_PERIOD_PERIOD]
  | .POS_TRG_STAT => [Fld.POS_TRG_STAT_OWNER, Fld.POS_TRG_STAT_FIRES]
  | .WIO_STAT => [Fld.WIO_STAT_WINFLT, Fld.WIO_STAT_WOUTFLT]
  | .WIO_ENMAP => [Fld.WIO_ENMAP_WIN, Fld.WIO_ENMAP_WOUT]
  | .WIO_WINCFG => [Fld.WIO_WINCFG_DISC, Fld.WIO_WINCFG_ANTIV, Fld.WIO_WINCFG_FILT]
  | .WIO_WINSTAT => [Fld.WIO_WINSTAT_ARMED, Fld.WIO_WINSTAT_FAULT, Fld.WIO_WINSTAT_CLRREADY, Fld.WIO_WINSTAT_A, Fld.WIO_WINSTAT_B, Fld.WIO_WINSTAT_TIMER]
  | .WIO_WINCTL => [Fld.WIO_WINCTL_CLR]
  | .WIO_WINCNT => [Fld.WIO_WINCNT_COUNT]
  | .WIO_WOUTCFG => [Fld.WIO_WOUTCFG_FORCE, Fld.WIO_WOUTCFG_SLEW]
  | .WIO_WOUTSTAT => [Fld.WIO_WOUTSTAT_ASSERTED, Fld.WIO_WOUTSTAT_PIN, Fld.WIO_WOUTSTAT_FAULT, Fld.WIO_WOUTSTAT_EXTLOW, Fld.WIO_WOUTSTAT_PAIRED, Fld.WIO_WOUTSTAT_HELD]
  | .WIO_WOUTCTL => [Fld.WIO_WOUTCTL_CLR]
  | .WIO_WOUTFLTCNT => [Fld.WIO_WOUTFLTCNT_COUNT]
  | .WIO_RULE => [Fld.WIO_RULE_VALID, Fld.WIO_RULE_REQ, Fld.WIO_RULE_MUTED, Fld.WIO_RULE_OWNER, Fld.WIO_RULE_OUTMASK, Fld.WIO_RULE_STATION]
  | .NVS_STAT => [Fld.NVS_STAT_BUSY, Fld.NVS_STAT_OVERFLOW, Fld.NVS_STAT_SPARES, Fld.NVS_STAT_PFPAGES, Fld.NVS_STAT_SCAN, Fld.NVS_STAT_DENIED]
  | .NVS_CTL => [Fld.NVS_CTL_COMMIT, Fld.NVS_CTL_DISCARD, Fld.NVS_CTL_BPLOCK, Fld.NVS_CTL_PROT]
  | .NVS_LOG => [Fld.NVS_LOG_ALOST, Fld.NVS_LOG_DROPPED]
  | .NVS_LCSTAT => [Fld.NVS_LCSTAT_BUSY, Fld.NVS_LCSTAT_RESULT, Fld.NVS_LCSTAT_SETTING]
  | .NVS_LCREQ => [Fld.NVS_LCREQ_KEY, Fld.NVS_LCREQ_SETTING]
  | .NVS_LCVAL => [Fld.NVS_LCVAL_VALUE]
  | .NVS_LC_STAT => [Fld.NVS_LC_STAT_USED, Fld.NVS_LC_STAT_FROZEN]
  | .NVS_LC_VAL => [Fld.NVS_LC_VAL_VALUE]
  | .NVS_FWARB => [Fld.NVS_FWARB_ADVANCE, Fld.NVS_FWARB_BUSY, Fld.NVS_FWARB_TARGET, Fld.NVS_FWARB_COUNT]
  | .NVS_IDPUB => [Fld.NVS_IDPUB_BYTES]
  | .NVS_KS => [Fld.NVS_KS_FULL, Fld.NVS_KS_USAGE, Fld.NVS_KS_FROZEN, Fld.NVS_KS_OWNER]
  | .NVS_MK => [Fld.NVS_MK_FULL, Fld.NVS_MK_USAGE, Fld.NVS_MK_FROZEN, Fld.NVS_MK_OWNER]
  | .NVS_KSBUF => [Fld.NVS_KSBUF_WORD]
  | .NVS_KSCMD => [Fld.NVS_KSCMD_GO, Fld.NVS_KSCMD_BUSY, Fld.NVS_KSCMD_RESULT]
  | .SDAC_STAT => [Fld.SDAC_STAT_PASSAGE, Fld.SDAC_STAT_OWNER, Fld.SDAC_STAT_LOOPBUSY, Fld.SDAC_STAT_RESULT, Fld.SDAC_STAT_QUEUE]
  | .SDAC_CTL => [Fld.SDAC_CTL_SESSION, Fld.SDAC_CTL_LOOPCAL, Fld.SDAC_CTL_MODE, Fld.SDAC_CTL_SPAN, Fld.SDAC_CTL_ROUTE]
  | .SDAC_FTW => [Fld.SDAC_FTW_FTW]
  | .SDAC_LEVEL => [Fld.SDAC_LEVEL_AMP, Fld.SDAC_LEVEL_DC]
  | .SDAC_LOAD => [Fld.SDAC_LOAD_OHMS]
  | .WLD_STAT => [Fld.WLD_STAT_STATE1, Fld.WLD_STAT_STATE0, Fld.WLD_STAT_TOKHELD, Fld.WLD_STAT_QDEPTH]
  | .WLD_CHKCFG => [Fld.WLD_CHKCFG_INTERVAL]
  | .WLD_CHKSTAT => [Fld.WLD_CHKSTAT_OVERDUE, Fld.WLD_CHKSTAT_RESIDENT]
  | .WLD_SWEEPCFG => [Fld.WLD_SWEEPCFG_LIFE, Fld.WLD_SWEEPCFG_DAILY]
  | .WLD_ERR => [Fld.WLD_ERR_VALID, Fld.WLD_ERR_OVERRUN, Fld.WLD_ERR_CODE, Fld.WLD_ERR_OWNER, Fld.WLD_ERR_STATION]
  | .WLD_LOADCNT => [Fld.WLD_LOADCNT_COUNT]
  | .WLD_CHKCNT => [Fld.WLD_CHKCNT_COUNT]
  | .WLD_REPAIR => [Fld.WLD_REPAIR_COUNT]
  | .WLD_MISMATCH => [Fld.WLD_MISMATCH_COUNT]
  | .WLD_REMAPCNT => [Fld.WLD_REMAPCNT_COUNT]
  | .WLD_RETIRE => [Fld.WLD_RETIRE_COUNT]
  | .WLD_RES_STAT => [Fld.WLD_RES_STAT_STATE, Fld.WLD_RES_STAT_OWNER, Fld.WLD_RES_STAT_CLUSTER, Fld.WLD_RES_STAT_STATION]
  | .WLD_RES_MODEL => [Fld.WLD_RES_MODEL_MODEL]
  | .WLD_RES_CHK => [Fld.WLD_RES_CHK_SHARD, Fld.WLD_RES_CHK_AGE]
  | .LNK_CFG => [Fld.LNK_CFG_LOCK, Fld.LNK_CFG_DEVID]
  | .LNK_ROUTE => [Fld.LNK_ROUTE_DEV7, Fld.LNK_ROUTE_DEV6, Fld.LNK_ROUTE_DEV5, Fld.LNK_ROUTE_DEV4, Fld.LNK_ROUTE_DEV3, Fld.LNK_ROUTE_DEV2, Fld.LNK_ROUTE_DEV1, Fld.LNK_ROUTE_DEV0]
  | .LNK_DOMAIN => [Fld.LNK_DOMAIN_KNOWN]
  | .LNK_PCFG => [Fld.LNK_PCFG_EN]
  | .LNK_PSTAT => [Fld.LNK_PSTAT_STATE, Fld.LNK_PSTAT_PEER, Fld.LNK_PSTAT_REASON, Fld.LNK_PSTAT_LANES]
  | .LNK_PDLY => [Fld.LNK_PDLY_DELAY]
  | .LNK_PSATCNT => [Fld.LNK_PSATCNT_COUNT]
  | .LNK_PREPLAY => [Fld.LNK_PREPLAY_COUNT]
  | .LNK_PCRCERR => [Fld.LNK_PCRCERR_COUNT]
  | .LNK_PNOCHAN => [Fld.LNK_PNOCHAN_COUNT]
  | .LNK_PDOWNCNT => [Fld.LNK_PDOWNCNT_COUNT]
  | .LNK_OFSL => [Fld.LNK_OFSL_VALUE]
  | .LNK_OFSH => [Fld.LNK_OFSH_VALUE]
  | .LNK_OFSVAL => [Fld.LNK_OFSVAL_VALID]
  | .TEN_QUOTA0 => [Fld.TEN_QUOTA0_CORES, Fld.TEN_QUOTA0_CONTEXTS, Fld.TEN_QUOTA0_LINKSHARE, Fld.TEN_QUOTA0_WOUTMAP]
  | .TEN_QUOTA1 => [Fld.TEN_QUOTA1_GRACE]
  | .TEN_CMKIB => [Fld.TEN_CMKIB_VALUE]
  | .TEN_KMKIB => [Fld.TEN_KMKIB_VALUE]
  | .TEN_LDRMS => [Fld.TEN_LDRMS_VALUE]
  | .TEN_USE0 => [Fld.TEN_USE0_CORES, Fld.TEN_USE0_CONTEXTS]
  | .TEN_CMUSE => [Fld.TEN_CMUSE_VALUE]
  | .TEN_KMUSE => [Fld.TEN_KMUSE_VALUE]
  | .TEN_STAT => [Fld.TEN_STAT_STATE, Fld.TEN_STAT_CUT, Fld.TEN_STAT_DENIED]
  | .TEN_LDRBKT => [Fld.TEN_LDRBKT_VALUE]
  | .OBS_TRCFG => [Fld.OBS_TRCFG_EN, Fld.OBS_TRCFG_ALIGN, Fld.OBS_TRCFG_REFDEV, Fld.OBS_TRCFG_WMARK]
  | .OBS_TRBASEL => [Fld.OBS_TRBASEL_VALUE]
  | .OBS_TRBASEH => [Fld.OBS_TRBASEH_VALUE]
  | .OBS_TRSIZE => [Fld.OBS_TRSIZE_BLOCKS]
  | .OBS_TRPROD => [Fld.OBS_TRPROD_INDEX]
  | .OBS_TRCONS => [Fld.OBS_TRCONS_INDEX]
  | .OBS_TRMODE => [Fld.OBS_TRMODE_TH7, Fld.OBS_TRMODE_TH6, Fld.OBS_TRMODE_TH5, Fld.OBS_TRMODE_TH4, Fld.OBS_TRMODE_TH3, Fld.OBS_TRMODE_TH2, Fld.OBS_TRMODE_TH1, Fld.OBS_TRMODE_TH0]
  | .OBS_TRLOSS => [Fld.OBS_TRLOSS_COUNT]
  | .OBS_TW_CFG => [Fld.OBS_TW_CFG_ARMED, Fld.OBS_TW_CFG_MODE, Fld.OBS_TW_CFG_OWNER, Fld.OBS_TW_CFG_STATION]
  | .OBS_TW_STAT => [Fld.OBS_TW_STAT_INCOMPLETE, Fld.OBS_TW_STAT_MIXED, Fld.OBS_TW_STAT_CLOSED, Fld.OBS_TW_STAT_MISSED]
  | .OBS_TW_FSEQ => [Fld.OBS_TW_FSEQ_VALUE]
  | .OBS_TW_LSEQ => [Fld.OBS_TW_LSEQ_VALUE]
  | .OBS_TW_R => [Fld.OBS_TW_R_VALUE]
  | .OBS_TW_FLAGT => [Fld.OBS_TW_FLAGT_SAT, Fld.OBS_TW_FLAGT_PROV]
  | .SGT_ENGSTAT => [Fld.SGT_ENGSTAT_ENG7, Fld.SGT_ENGSTAT_ENG6, Fld.SGT_ENGSTAT_ENG5, Fld.SGT_ENGSTAT_ENG4, Fld.SGT_ENGSTAT_ENG3, Fld.SGT_ENGSTAT_ENG2, Fld.SGT_ENGSTAT_ENG1, Fld.SGT_ENGSTAT_ENG0]
  | .SGT_CTX_STAT => [Fld.SGT_CTX_STAT_STATE, Fld.SGT_CTX_STAT_OWNER, Fld.SGT_CTX_STAT_WEIGHT, Fld.SGT_CTX_STAT_DROP, Fld.SGT_CTX_STAT_QUEUED, Fld.SGT_CTX_STAT_STATION]
  | .SGT_CTX_SEQ => [Fld.SGT_CTX_SEQ_NEXTSEQ]
  | .SGT_CTX_DROPCNT => [Fld.SGT_CTX_DROPCNT_COUNT]
  | .CSQ_STAT => [Fld.CSQ_STAT_STATE, Fld.CSQ_STAT_EXCMASK, Fld.CSQ_STAT_USED]
  | .CSQ_TH_STAT => [Fld.CSQ_TH_STAT_STATE, Fld.CSQ_TH_STAT_WAITKIND, Fld.CSQ_TH_STAT_OWNER, Fld.CSQ_TH_STAT_PC]
  | .CSQ_TH_EXC => [Fld.CSQ_TH_EXC_VALID, Fld.CSQ_TH_EXC_OVERRUN, Fld.CSQ_TH_EXC_CODE, Fld.CSQ_TH_EXC_PC]
  | .CSQ_TH_PRED => [Fld.CSQ_TH_PRED_P]
  | .CSQ_TH_CTL => [Fld.CSQ_TH_CTL_STOP, Fld.CSQ_TH_CTL_RESTART]
  | .CSQ_TH_REGION => [Fld.CSQ_TH_REGION_STRICT, Fld.CSQ_TH_REGION_LAST, Fld.CSQ_TH_REGION_BASE]
  | .CSQ_TH_RECCNT => [Fld.CSQ_TH_RECCNT_COUNT]
  | .CSQ_TH_GREG => [Fld.CSQ_TH_GREG_VALUE]
  | .CSQ_TH_CNT => [Fld.CSQ_TH_CNT_VALUE]
  | .CSQ_GRP_STAT => [Fld.CSQ_GRP_STAT_DEFINED, Fld.CSQ_GRP_STAT_SCOPE, Fld.CSQ_GRP_STAT_TIMEDOUT, Fld.CSQ_GRP_STAT_ARRIVED, Fld.CSQ_GRP_STAT_INSTANCE]
  | .OCU_STAT => [Fld.OCU_STAT_OWNER, Fld.OCU_STAT_HIWAT, Fld.OCU_STAT_QDEPTH]
  | .OCU_VREQ => [Fld.OCU_VREQ_COUNT]
  | .OCU_EREQ => [Fld.OCU_EREQ_COUNT]
  | .OCU_LIMSTALL => [Fld.OCU_LIMSTALL_COUNT]
  | .OCU_BUSY => [Fld.OCU_BUSY_COUNT]
  | .OCU_CTL => [Fld.OCU_CTL_CLR_CNT]
  | .OWL_SCFG => [Fld.OWL_SCFG_EN, Fld.OWL_SCFG_STATION]
  | .OWL_SSTAT => [Fld.OWL_SSTAT_STATE, Fld.OWL_SSTAT_EMPTY, Fld.OWL_SSTAT_ALARM, Fld.OWL_SSTAT_HARD, Fld.OWL_SSTAT_SATN, Fld.OWL_SSTAT_WARM]
  | .OWL_SALMCNT => [Fld.OWL_SALMCNT_COUNT]
  | .OWL_SCTL => [Fld.OWL_SCTL_RELEARN]
  | .OWL_SMEAN => [Fld.OWL_SMEAN_VALUE]
  | .OWL_SVAR => [Fld.OWL_SVAR_VALUE]
  | .OWL_SMIN => [Fld.OWL_SMIN_VALUE]
  | .OWL_SMAX => [Fld.OWL_SMAX_VALUE]
  | .CPT_STAT => [Fld.CPT_STAT_BAND, Fld.CPT_STAT_THR, Fld.CPT_STAT_LOWSENS, Fld.CPT_STAT_MEDIAN]
  | .CPT_DOM => [Fld.CPT_DOM_SHARED, Fld.CPT_DOM_CORE]
  | .CPT_PWR => [Fld.CPT_PWR_BUDGET, Fld.CPT_PWR_MW]
  | .KMC_ARBW0 => [Fld.KMC_ARBW0_W_CORE7, Fld.KMC_ARBW0_W_CORE6, Fld.KMC_ARBW0_W_CORE5, Fld.KMC_ARBW0_W_CORE4, Fld.KMC_ARBW0_W_CORE3, Fld.KMC_ARBW0_W_CORE2, Fld.KMC_ARBW0_W_CORE1, Fld.KMC_ARBW0_W_CORE0]
  | .KMC_ARBW1 => [Fld.KMC_ARBW1_W_CSQ, Fld.KMC_ARBW1_W_OCU]
  | .KMC_ECCSTAT => [Fld.KMC_ECCSTAT_VALID, Fld.KMC_ECCSTAT_OVERRUN, Fld.KMC_ECCSTAT_KIND, Fld.KMC_ECCSTAT_SYNDROME, Fld.KMC_ECCSTAT_MASTER]
  | .KMC_ECCADDR => [Fld.KMC_ECCADDR_OFFSET]
  | .KMC_ECCCNT => [Fld.KMC_ECCCNT_UNCORR, Fld.KMC_ECCCNT_CORR]
  | .KMC_STN_STAT => [Fld.KMC_STN_STAT_VALID, Fld.KMC_STN_STAT_STATE, Fld.KMC_STN_STAT_GEN, Fld.KMC_STN_STAT_INFLIGHT, Fld.KMC_STN_STAT_STATION]
  | .KMC_STN_SATCNT => [Fld.KMC_STN_SATCNT_COUNT]
  | .KMC_STN_POISCNT => [Fld.KMC_STN_POISCNT_COUNT]
  | .KMC_STN_TORNCNT => [Fld.KMC_STN_TORNCNT_COUNT]
  | .KMC_STN_LATECNT => [Fld.KMC_STN_LATECNT_COUNT]
  | .KMC_STN_UNMATCH => [Fld.KMC_STN_UNMATCH_COUNT]
  | .KMC_SLOT => [Fld.KMC_SLOT_STATE, Fld.KMC_SLOT_TORN, Fld.KMC_SLOT_STATION, Fld.KMC_SLOT_BASE]
  | .STP_STAT => [Fld.STP_STAT_STATE, Fld.STP_STAT_DIDX, Fld.STP_STAT_STATION]
  | .STP_EXC => [Fld.STP_EXC_VALID, Fld.STP_EXC_OVERRUN, Fld.STP_EXC_REASON, Fld.STP_EXC_DIDX, Fld.STP_EXC_STATION]
  | .STP_GRANT => [Fld.STP_GRANT_STATE, Fld.STP_GRANT_GRANTS]
  | .ME_STAT => [Fld.ME_STAT_STATE, Fld.ME_STAT_BRINGUP, Fld.ME_STAT_RG, Fld.ME_STAT_SUBPASS, Fld.ME_STAT_STATION]
  | .ME_OPW => [Fld.ME_OPW_ADDIN, Fld.ME_OPW_OUT, Fld.ME_OPW_CHAIN_POS, Fld.ME_OPW_CHAIN_LEN, Fld.ME_OPW_RGMASK, Fld.ME_OPW_REPEAT, Fld.ME_OPW_WMODE, Fld.ME_OPW_INMODE, Fld.ME_OPW_SATPOL, Fld.ME_OPW_GAIN]
  | .ME_CTL => [Fld.ME_CTL_CLR_CNT]
  | .ME_PHCNT => [Fld.ME_PHCNT_COUNT]
  | .ME_SKIPCNT => [Fld.ME_SKIPCNT_COUNT]
  | .ME_SATCNT => [Fld.ME_SATCNT_COUNT]
  | .ME_SPLITCNT => [Fld.ME_SPLITCNT_COUNT]
  | .ME_ESCCNT => [Fld.ME_ESCCNT_COUNT]
  | .ME_ESCMISS => [Fld.ME_ESCMISS_COUNT]
  | .ME_ACCSAT => [Fld.ME_ACCSAT_COUNT]
  | .ME_REMAP => [Fld.ME_REMAP_VALID, Fld.ME_REMAP_FAULTY, Fld.ME_REMAP_COLUMN]
  | .ME_RGSTAT => [Fld.ME_RGSTAT_CYC10, Fld.ME_RGSTAT_MEANIT, Fld.ME_RGSTAT_WARN]
  | .ME_DTGAIN => [Fld.ME_DTGAIN_PROV, Fld.ME_DTGAIN_ACTIVE, Fld.ME_DTGAIN_REJECTS, Fld.ME_DTGAIN_GAIN]
  | .ME_DTOFS => [Fld.ME_DTOFS_SAMPLES, Fld.ME_DTOFS_OFFSET]
  | .ME_CALSTAT => [Fld.ME_CALSTAT_STATE, Fld.ME_CALSTAT_BAND, Fld.ME_CALSTAT_RETRIES, Fld.ME_CALSTAT_TEMP_FAIL, Fld.ME_CALSTAT_SHAPE_FAIL, Fld.ME_CALSTAT_QCHECK_FAIL, Fld.ME_CALSTAT_EARLY_TU, Fld.ME_CALSTAT_TRIM_AGE]
  | .ME_KACNT => [Fld.ME_KACNT_COUNT]
  | .DPE_STAT => [Fld.DPE_STAT_STATE, Fld.DPE_STAT_STATION]
  | .DPE_BUSY => [Fld.DPE_BUSY_COUNT]
  | .VXE_STAT => [Fld.VXE_STAT_STATE, Fld.VXE_STAT_STATION]
  | .VXE_BUSY => [Fld.VXE_BUSY_COUNT]
  | .PRE_STAT => [Fld.PRE_STAT_STATE, Fld.PRE_STAT_STATION]
  | .PRE_BUSY => [Fld.PRE_BUSY_COUNT]
  | .TMV_STAT => [Fld.TMV_STAT_STATE, Fld.TMV_STAT_QDEPTH]
  | .TMV_ERR => [Fld.TMV_ERR_COUNT]
  | .CMC_ECCSTAT => [Fld.CMC_ECCSTAT_VALID, Fld.CMC_ECCSTAT_OVERRUN, Fld.CMC_ECCSTAT_KIND, Fld.CMC_ECCSTAT_SYNDROME, Fld.CMC_ECCSTAT_MASTER]
  | .CMC_ECCADDR => [Fld.CMC_ECCADDR_OFFSET]
  | .CMC_ECCCNT => [Fld.CMC_ECCCNT_UNCORR, Fld.CMC_ECCCNT_CORR]
  | .CMC_SLOT => [Fld.CMC_SLOT_STATE, Fld.CMC_SLOT_TORN, Fld.CMC_SLOT_STATION, Fld.CMC_SLOT_BASE]
  | .CCTL_EMAP => [Fld.CCTL_EMAP_SPARE_USED, Fld.CCTL_EMAP_MES_RETIRED, Fld.CCTL_EMAP_CAPACITY, Fld.CCTL_EMAP_SPARE_FOR, Fld.CCTL_EMAP_RETIRED]
  | .CCTL_BUSYL => [Fld.CCTL_BUSYL_VALUE]
  | .CCTL_BUSYH => [Fld.CCTL_BUSYH_VALUE]
  | .TENV_ID => [Fld.TENV_ID_IDENTITY, Fld.TENV_ID_TENANT]
  | .TENV_STAT => [Fld.TENV_STAT_STATE, Fld.TENV_STAT_CUT, Fld.TENV_STAT_DENIED]
  | .CMD_BASEL => [Fld.CMD_BASEL_ADDR]
  | .CMD_BASEH => [Fld.CMD_BASEH_ADDR]
  | .CMD_CFG => [Fld.CMD_CFG_EN, Fld.CMD_CFG_SIZE]
  | .CMD_PROD => [Fld.CMD_PROD_INDEX]
  | .CMD_CONS => [Fld.CMD_CONS_INDEX]
  | .CPL_BASEL => [Fld.CPL_BASEL_ADDR]
  | .CPL_BASEH => [Fld.CPL_BASEH_ADDR]
  | .CPL_HEAD => [Fld.CPL_HEAD_INDEX]
  | .CPL_TAIL => [Fld.CPL_TAIL_INDEX]
  | .SVC_DATA => [Fld.SVC_DATA_WORD]
  | .SVC_STAT => [Fld.SVC_STAT_FULL, Fld.SVC_STAT_QUEUED, Fld.SVC_STAT_LOST]
  | .SVC_CTL => [Fld.SVC_CTL_ACK]
  | .MSIX_TABLE => [Fld.MSIX_TABLE_WORD]
  | .MSIX_PBA => [Fld.MSIX_PBA_BITS]
  | .SCTL => [Fld.SCTL_WORD]
  | .TENV_IADDR => [Fld.TENV_IADDR_OFFSET]
  | .TENV_IDATA => [Fld.TENV_IDATA_DATA]
  | .EVQ_STAT => [Fld.EVQ_STAT_COUNT, Fld.EVQ_STAT_ACOUNT, Fld.EVQ_STAT_AMISS, Fld.EVQ_STAT_BSUPP]
  | .EVQ_POP => [Fld.EVQ_POP_POP]
  | .EVQ_HEAD => [Fld.EVQ_HEAD_WORD]

/-- The registers of PF BAR0 (Table 1.5), in the order of the manual's map. -/
def pfRegs : List Reg :=
  [Reg.GCTL_ID, Reg.GCTL_TOPO, Reg.GCTL_ACCERR, Reg.GCTL_ACCADDR, Reg.GCTL_START, Reg.GCTL_RESET, Reg.GCTL_PWRST, Reg.GCTL_MGR, Reg.GCTL_CKPT, Reg.GCTL_EVDROP, Reg.MBX_LOCK, Reg.MBX_BIND, Reg.MBX_TMO, Reg.MBX_CH_DATA, Reg.MBX_CH_STAT, Reg.MBX_CH_CTL, Reg.PWR_CAP, Reg.PWR_STAT, Reg.PWR_CLK, Reg.PWR_AVS] ++
  [Reg.PWR_DIEDOM, Reg.PWR_REG, Reg.PWR_REG_STAT, Reg.PWR_REG_POUT, Reg.THM_STAT, Reg.THM_SENS, Reg.POS_CFG, Reg.POS_STAT, Reg.POS_CNTL, Reg.POS_CNTH, Reg.POS_TRVL, Reg.POS_TRVH, Reg.POS_ZLATL, Reg.POS_ZLATH, Reg.POS_ERRCNT, Reg.POS_SYNCCFG, Reg.POS_SYNC_CNT, Reg.POS_CTX_CFG, Reg.POS_CTX_LEN, Reg.POS_CTX_EPOCH] ++
  [Reg.POS_CTX_NEXTL, Reg.POS_CTX_NEXTH, Reg.POS_CTX_STAT, Reg.POS_TRG_CFG, Reg.POS_TRG_VALL, Reg.POS_TRG_VALH, Reg.POS_TRG_PERIOD, Reg.POS_TRG_STAT, Reg.WIO_STAT, Reg.WIO_ENMAP, Reg.WIO_WINCFG, Reg.WIO_WINSTAT, Reg.WIO_WINCTL, Reg.WIO_WINCNT, Reg.WIO_WOUTCFG, Reg.WIO_WOUTSTAT, Reg.WIO_WOUTCTL, Reg.WIO_WOUTFLTCNT, Reg.WIO_RULE, Reg.NVS_STAT] ++
  [Reg.NVS_CTL, Reg.NVS_LOG, Reg.NVS_LCSTAT, Reg.NVS_LCREQ, Reg.NVS_LCVAL, Reg.NVS_LC_STAT, Reg.NVS_LC_VAL, Reg.NVS_FWARB, Reg.NVS_IDPUB, Reg.NVS_KS, Reg.NVS_MK, Reg.NVS_KSBUF, Reg.NVS_KSCMD, Reg.SDAC_STAT, Reg.SDAC_CTL, Reg.SDAC_FTW, Reg.SDAC_LEVEL, Reg.SDAC_LOAD, Reg.WLD_STAT, Reg.WLD_CHKCFG] ++
  [Reg.WLD_CHKSTAT, Reg.WLD_SWEEPCFG, Reg.WLD_ERR, Reg.WLD_LOADCNT, Reg.WLD_CHKCNT, Reg.WLD_REPAIR, Reg.WLD_MISMATCH, Reg.WLD_REMAPCNT, Reg.WLD_RETIRE, Reg.WLD_RES_STAT, Reg.WLD_RES_MODEL, Reg.WLD_RES_CHK, Reg.LNK_CFG, Reg.LNK_ROUTE, Reg.LNK_DOMAIN, Reg.LNK_PCFG, Reg.LNK_PSTAT, Reg.LNK_PDLY, Reg.LNK_PSATCNT, Reg.LNK_PREPLAY] ++
  [Reg.LNK_PCRCERR, Reg.LNK_PNOCHAN, Reg.LNK_PDOWNCNT, Reg.LNK_OFSL, Reg.LNK_OFSH, Reg.LNK_OFSVAL, Reg.TEN_QUOTA0, Reg.TEN_QUOTA1, Reg.TEN_CMKIB, Reg.TEN_KMKIB, Reg.TEN_LDRMS, Reg.TEN_USE0, Reg.TEN_CMUSE, Reg.TEN_KMUSE, Reg.TEN_STAT, Reg.TEN_LDRBKT, Reg.OBS_TRCFG, Reg.OBS_TRBASEL, Reg.OBS_TRBASEH, Reg.OBS_TRSIZE] ++
  [Reg.OBS_TRPROD, Reg.OBS_TRCONS, Reg.OBS_TRMODE, Reg.OBS_TRLOSS, Reg.OBS_TW_CFG, Reg.OBS_TW_STAT, Reg.OBS_TW_FSEQ, Reg.OBS_TW_LSEQ, Reg.OBS_TW_R, Reg.OBS_TW_FLAGT, Reg.SGT_ENGSTAT, Reg.SGT_CTX_STAT, Reg.SGT_CTX_SEQ, Reg.SGT_CTX_DROPCNT, Reg.CSQ_STAT, Reg.CSQ_TH_STAT, Reg.CSQ_TH_EXC, Reg.CSQ_TH_PRED, Reg.CSQ_TH_CTL, Reg.CSQ_TH_REGION] ++
  [Reg.CSQ_TH_RECCNT, Reg.CSQ_TH_GREG, Reg.CSQ_TH_CNT, Reg.CSQ_GRP_STAT, Reg.OCU_STAT, Reg.OCU_VREQ, Reg.OCU_EREQ, Reg.OCU_LIMSTALL, Reg.OCU_BUSY, Reg.OCU_CTL, Reg.OWL_SCFG, Reg.OWL_SSTAT, Reg.OWL_SALMCNT, Reg.OWL_SCTL, Reg.OWL_SMEAN, Reg.OWL_SVAR, Reg.OWL_SMIN, Reg.OWL_SMAX, Reg.CPT_STAT, Reg.CPT_DOM] ++
  [Reg.CPT_PWR, Reg.KMC_ARBW0, Reg.KMC_ARBW1, Reg.KMC_ECCSTAT, Reg.KMC_ECCADDR, Reg.KMC_ECCCNT, Reg.KMC_STN_STAT, Reg.KMC_STN_SATCNT, Reg.KMC_STN_POISCNT, Reg.KMC_STN_TORNCNT, Reg.KMC_STN_LATECNT, Reg.KMC_STN_UNMATCH, Reg.KMC_SLOT, Reg.STP_STAT, Reg.STP_EXC, Reg.STP_GRANT, Reg.ME_STAT, Reg.ME_OPW, Reg.ME_CTL, Reg.ME_PHCNT] ++
  [Reg.ME_SKIPCNT, Reg.ME_SATCNT, Reg.ME_SPLITCNT, Reg.ME_ESCCNT, Reg.ME_ESCMISS, Reg.ME_ACCSAT, Reg.ME_REMAP, Reg.ME_RGSTAT, Reg.ME_DTGAIN, Reg.ME_DTOFS, Reg.ME_CALSTAT, Reg.ME_KACNT, Reg.DPE_STAT, Reg.DPE_BUSY, Reg.VXE_STAT, Reg.VXE_BUSY, Reg.PRE_STAT, Reg.PRE_BUSY, Reg.TMV_STAT, Reg.TMV_ERR] ++
  [Reg.CMC_ECCSTAT, Reg.CMC_ECCADDR, Reg.CMC_ECCCNT, Reg.CMC_SLOT, Reg.CCTL_EMAP, Reg.CCTL_BUSYL, Reg.CCTL_BUSYH]

/-- The registers of a function's window (Table 11.3), each function holding its own copy. -/
def fnRegs : List Reg :=
  [Reg.TENV_ID, Reg.TENV_STAT, Reg.CMD_BASEL, Reg.CMD_BASEH, Reg.CMD_CFG, Reg.CMD_PROD, Reg.CMD_CONS, Reg.CPL_BASEL, Reg.CPL_BASEH, Reg.CPL_HEAD, Reg.CPL_TAIL, Reg.SVC_DATA, Reg.SVC_STAT, Reg.SVC_CTL, Reg.MSIX_TABLE, Reg.MSIX_PBA, Reg.SCTL, Reg.TENV_IADDR, Reg.TENV_IDATA, Reg.EVQ_STAT] ++
  [Reg.EVQ_POP, Reg.EVQ_HEAD]

/-- Fields that keep their value across a die reset: CCTL_EMAP (R32, Table 14.2), the remap table and the row-group wear
(R88), the thermal-shutdown latch (R406), the takeovers since power-on (GCTL_MGR) and the count of failed starts (R376). -/
def Fld.keptByDieReset (f : Fld) : Bool :=
  match f with
  | .GCTL_START_BOOTS
  | .GCTL_MGR_TAKEOVERS
  | .THM_STAT_SHUT
  | .THM_STAT_SHUTSENS
  | .ME_REMAP_VALID
  | .ME_REMAP_FAULTY
  | .ME_REMAP_COLUMN
  | .ME_RGSTAT_CYC10
  | .ME_RGSTAT_MEANIT
  | .ME_RGSTAT_WARN
  | .CCTL_EMAP_SPARE_USED
  | .CCTL_EMAP_MES_RETIRED
  | .CCTL_EMAP_CAPACITY
  | .CCTL_EMAP_SPARE_FOR
  | .CCTL_EMAP_RETIRED => true
  | _ => false

/-- The field's number, the low part of its key in the register store. -/
def Fld.code (f : Fld) : Nat := f.ctorIdx

/-- The field's width in bits. -/
def Fld.width (f : Fld) : Nat := f.info.hi - f.info.lo + 1

end Sys2Proof.Machine
end

