-- ==== Sys2Proof/Machine/SMap.lean ====
section
/-!
DEFINITION. Sparse maps from numbers to data, as lists of pairs with rising keys in which no entry holds the default
value, so that equal maps are equal lists. What an unlisted key reads as is the default that each operation is given.
-/

namespace Sys2Proof.Machine

/-- A sparse map. -/
abbrev SMap (α : Type) := List (Nat × α)

/-- The value at a key. -/
def smapGet {α : Type} (d : α) : SMap α → Nat → α
  | [], _ => d
  | (k, v) :: m, i => if k = i then v else smapGet d m i

/-- The map without a key. -/
def smapErase {α : Type} (m : SMap α) (i : Nat) : SMap α := m.filter (fun e => !(e.1 == i))

/-- Adds an entry whose key is not listed, before the first greater key. -/
def smapInsert {α : Type} : SMap α → Nat → α → SMap α
  | [], i, v => [(i, v)]
  | (k, w) :: m, i, v => if i < k then (i, v) :: (k, w) :: m else (k, w) :: smapInsert m i v

/-- Writes a key; writing the default removes the entry. -/
def smapSet {α : Type} [DecidableEq α] (d : α) (m : SMap α) (i : Nat) (v : α) : SMap α :=
  if v = d then smapErase m i else smapInsert (smapErase m i) i v

/-- The canonical form: keys strictly rise and no entry holds the default. -/
def smapWf {α : Type} [DecidableEq α] (d : α) : SMap α → Bool
  | [] => true
  | (_, v) :: [] => !(v == d)
  | (k, v) :: (k', v') :: m => !(v == d) && decide (k < k') && smapWf d ((k', v') :: m)

end Sys2Proof.Machine
end

