-- ==== Sys2Proof/Machine/State.lean ====
section
/-!
DEFINITION. The state of the block: every register, memory, queue, counter and mode that the manual gives it, as plain
data; the reasons a step can stop; and the state after reset.

Each datum has one home. Register fields that only software and the counters of one rule touch lie in the store `regs`;
everything else lies in records, and the register fields that report it are views (`State.readFld` of Machine/Views.lean).
-/

namespace Sys2Proof.Machine

/-- Why a step stops with a fault: there is no reason, and no meaning raises one. Operands that no request, frame or reading can
have stop nothing either (log entry 4). Safe. -/
inductive Fault where
deriving DecidableEq, Repr

/-- Why a step is refused. -/
inductive Refusal where
  /-- A command without a meaning in this model: raised by an arm of `exec` alone. Safe. -/
  | notModelled (mnemonic : String)
deriving DecidableEq, Repr

/-- What the device sends outward, in the order of the list `out`, newest first. -/
inductive Output where
  /-- An MSI-X message of a function's vector (R301). -/
  | msix (fn vec : Nat)
  /-- A posted write to host memory under a function's routing ID (R295). -/
  | hostWrite (fn addr : Nat) (data : List Byte)
  /-- A request to read host memory under a function's routing ID (R295). -/
  | hostRead (fn addr len : Nat)
  /-- The completion of a host read of a register. -/
  | readWord (v : Nat)
  /-- The completion of a host read of memory, with the Poisoned TLP bit (R175). -/
  | readBytes (data : List Byte) (poisoned : Bool)
  /-- Completer Abort (R28, R298). -/
  | completerAbort
  /-- Unsupported Request (R296). -/
  | unsupported
  /-- AER Uncorrectable Internal Error of a function, its severity, and the offset and length of the BAR2 write whose header it
  reports (R296). -/
  | aer (fn : Nat) (fatal : Bool) (off len : Nat)
  /-- A frame sent on an Edeneg port (R341). -/
  | frame (port type lchan dst : Nat) (payload : List Byte)
  /-- A PMBus transaction with a regulator slot (R389). -/
  | pmbus (slot command value : Nat)
  /-- A message of a management processor to the debug port or to firmware of the box. -/
  | note (code value : Nat)
deriving DecidableEq, Repr

/-- A tile slot: entry n of the slot table of a cluster's or a core's memory controller (R161). -/
structure SlotRef where
  /-- Whether the slot lies in a cluster memory. -/
  km   : Bool
  /-- The cluster, or the global core index. -/
  unit : Nat
  /-- The entry of the slot table. -/
  n    : Nat
deriving DecidableEq, Repr

/-- A core-memory request that has been promoted (R35). -/
structure CmReq where
  core  : Nat
  bank  : Nat
  req   : Nat
  since : Nat
deriving DecidableEq, Repr

/-- A request for a programming token (R43): when it came, and the physical engine it is for. -/
structure TokenReq where
  since  : Nat
  engine : Nat
deriving DecidableEq, Repr

/-- One phase execution that an engine has yet to run for a vector: its row group, its sub-pass, its nibble (of weight
16^nib) and which repetition it is (R50 to R53, R76). -/
structure Phase where
  rg  : Nat
  neg : Bool
  nib : Nat
  rep : Nat
deriving DecidableEq, Repr

/-- A vector in an engine's input buffer: its tile's descriptor, its number, its 256 input codes by row after clipping,
the phases to run, and what has been found of it (R49, R55, R65, R95, R111). -/
structure Vec where
  d        : Nat
  v        : Nat
  codes    : List Int
  todo     : List Phase
  started  : Bool
  provMask : Nat
  poison   : Bool
  sat      : Bool
  prov     : Bool
  /-- Requests to the OCU whose terms have not been added (R62, R128). -/
  ocu      : Nat
  /-- Terms that the OCU has served while the vector waits in the second buffer. -/
  pre      : List (Nat × Int)
  /-- It was loaded in the reduced bring-up service, in which it runs to its end (R81, log entry 41). -/
  bring    : Bool
deriving DecidableEq, Repr

/-- A readout latch that holds a result vector (R68), and how far it has come: summed over its chain (R69), partial sums
added (R73), offered to the VXE (R464). -/
structure Latch where
  d       : Nat
  v       : Nat
  vals    : List Int
  poison  : Bool
  sat     : Bool
  prov    : Bool
  since   : Nat
  summed  : Bool
  padded  : Bool
  offered : Bool
deriving DecidableEq, Repr

/-- A matrix engine (R49 to R80). -/
structure Engine where
  /-- The engine operation word it runs (R85). -/
  opw     : Word
  station : Nat
  rg      : Nat
  neg     : Bool
  /-- The descriptor of the tile it works for, if any. -/
  tile    : Option Nat
  /-- The number of the next vector to load. -/
  nextV   : Nat
  cur     : Option Vec
  nxt     : Option Vec
  /-- The accumulator bank by logical column (R67). -/
  acc     : SMap Int
  /-- The codes summed over the repetitions run so far, by column, in product units (R76). -/
  codeSum : SMap Int
  /-- The conversions per column, over twin pairs and repetitions, that contributed a code. -/
  codeN   : SMap Nat
  latch   : Option Latch
  /-- A vector has run ahead of a waiting operation (R80). -/
  ran     : Bool
deriving DecidableEq, Repr

/-- An idle engine: an empty operation word with CHAIN_LEN 1, its reset value. -/
def Engine.idle : Engine :=
  { opw := 0x8000#32, station := 0, rg := 0, neg := false, tile := none, nextV := 0, cur := none, nxt := none,
    acc := [], codeSum := [], codeN := [], latch := none, ran := false }

/-- The reference samples of an interval, as the sums that R107 forms of them; codes in product units. -/
structure Samples where
  nOff  : Nat
  sumF0 : Int
  nGain : Nat
  sEC   : Int
  sE    : Int
  sCC   : Int
  sC    : Int
deriving DecidableEq, Repr

/-- No samples. -/
def Samples.none : Samples := { nOff := 0, sumF0 := 0, nGain := 0, sEC := 0, sE := 0, sCC := 0, sC := 0 }

/-- A row group's drift tracker (R107 to R110), its touch-up account (R121, R122) and its sweep bucket (R266). Its gain,
offset and flags are the register fields ME_DTGAINr and ME_DTOFSr. -/
structure Tracker where
  cur       : Samples
  /-- When the current interval, or the provisional start, began. -/
  since     : Nat
  /-- The samples of the intervals that have closed and are not judged: the first waits for its keep-alive burst, the others closed
  since (R109). -/
  deferred  : List Samples
  rejectRun : Nat
  /-- The gain at the last programming or touch-up, for the 2 % rule. -/
  gainRef   : Nat
  /-- A trim changed, so that the next update replaces the state (R115). -/
  retrim    : Bool
  /-- What the touch-up account held when it was last set, in units of which 630 days of ns make 1, and the cluster's times
  in the five bands at that moment. -/
  account   : Nat
  snap      : List Nat
  /-- How often the touch-up intervals have been halved. -/
  halvings  : Nat
  due       : Bool
  /-- The row of a touch-up in progress and the steps done on it. -/
  row       : Nat
  steps     : Nat
  /-- The sweep bucket, of which one erase cycle takes 86,400,000,000,000 units, when it was last brought up to date, and the
  sweep erases so far (R266). -/
  sweep     : Nat
  sweepAt   : Nat
  swept     : Nat
deriving DecidableEq, Repr

/-- A tracker as it stands before its row group is first used. -/
def Tracker.fresh : Tracker :=
  { cur := Samples.none, since := 0, deferred := [], rejectRun := 0, gainRef := 16384, retrim := false, account := 0,
    snap := [0, 0, 0, 0, 0], halvings := 0, due := false, row := 0, steps := 0, sweep := 0,
    sweepAt := 0, swept := 0 }

/-- The trims of an engine's converters: the calibration whose histogram gave them, 0 for the factory trims; the readings of the last
two-point check that refined them, 0 for none; and when they were last set (R112, R114). The trims of each converter and range are
`Trim.line`. -/
structure Trim where
  hist    : Nat
  refined : Nat
  at_     : Nat
deriving DecidableEq, Repr

/-- Factory trims. -/
def Trim.factory : Trim := { hist := 0, refined := 0, at_ := 0 }

/-- A calibration pass of a cluster (R112 to R118). -/
structure CalPass where
  /-- Full calibration, else a two-point check. -/
  full    : Bool
  /-- The engines to be done together (a start, a wake, a core's power-up); none for a pass of one engine per core. -/
  engines : List Nat
  band    : Nat
  /-- The engine position it has reached. -/
  pos     : Nat
  /-- For each engine of this position, the median temperature at the start of its attempt. -/
  temps   : List (Nat × Int)
  /-- When the DAC began to go through the gain ranges for this position. -/
  began   : Nat
  /-- When the request arrived (R117). -/
  since   : Nat
  /-- The physical engines of this position still to be done, and whether by full calibration. -/
  left    : List Nat
  doing   : Bool
  /-- Engines of this position that full calibration follows for. -/
  redo    : List Nat
deriving DecidableEq, Repr

/-- No pass. -/
def CalPass.idle : CalPass :=
  { full := false, engines := [], band := 0, pos := 17, temps := [], began := 0, since := 0, left := [], doing := false,
    redo := [] }

/-- A request to the OCU: the core and physical engine it is for, the vector, whether it is an escalation, the shadow rows
it takes, the terms it adds by column (R62, R128) and the time of its arrival (R42). -/
structure OcuReq where
  core  : Nat
  eng   : Nat
  d     : Nat
  v     : Nat
  esc   : Bool
  rows  : Nat
  terms : List (Nat × Int)
  at_   : Nat
deriving DecidableEq, Repr

/-- The outlier correction unit of a cluster: its queue, the requests that steppers hold under the limit of R42, and its
counters of cycles. -/
structure Ocu where
  queue : List OcuReq
  held  : List OcuReq
  busy  : Nat
  stall : Nat
deriving DecidableEq, Repr

/-- An idle OCU. -/
def Ocu.idle : Ocu := { queue := [], held := [], busy := 0, stall := 0 }

/-- An Owl slot (R132 to R137): its settings from the bit-stream, the window in progress, and the envelope learned. Element
values are exact, in units of 2^-149; fp32 settings are their bits. -/
structure Owl where
  margin : Nat
  harden : Nat
  floor  : List Nat
  hlo    : List Nat
  hhi    : List Nat
  tiles  : Nat
  count  : Nat
  sum    : Int
  sumSq  : Int
  min    : Int
  max    : Int
  satn   : Nat
  /-- For each of the five statistics, the lowest and highest value seen in warm-up. -/
  lo     : List (Option Int)
  hi     : List (Option Int)
deriving DecidableEq, Repr

/-- An unbound slot. -/
def Owl.idle : Owl :=
  { margin := 0, harden := 0, floor := [], hlo := [], hhi := [], tiles := 0, count := 0, sum := 0, sumSq := 0,
    min := 0, max := 0, satn := 0, lo := [none, none, none, none, none], hi := [none, none, none, none, none] }

/-- The stimulus DAC beside its registers: the queue of cluster requests as arrival time and cluster (R117), the cluster it serves,
the phase accumulator, when its passage ends, when its session was granted, and its span trims. -/
structure Dac where
  queue     : List (Nat × Nat)
  serving   : Option Nat
  phase     : Nat
  passUntil : Nat
  /-- The route connected before the passage, and when the new one is connected (Table 5.3). -/
  was       : Nat
  switchAt  : Nat
  granted   : Nat
  /-- When the loopback calibration in progress began. -/
  loop      : Nat
  /-- The trims of the four spans. -/
  spanTrim  : List Nat
  /-- The span trims held in Q0 of Sett (R150, R151). -/
  settTrim  : List Nat
deriving DecidableEq, Repr

/-- A DAC at reset: nothing connected. -/
def Dac.reset : Dac :=
  { queue := [], serving := none, phase := 0, passUntil := 0, was := 0x1F, switchAt := 0, granted := 0, loop := 0,
    spanTrim := [0, 0, 0, 0], settTrim := [0, 0, 0, 0] }

/-- A ring of tile slots (R162, R163): its first slot, its length and slot size, its producer and consumer with their
ports, the next slots each takes, and for a staging ring the ring that the tile mover carries its tiles to (R222). -/
structure Ring where
  len      : Nat
  size     : Nat
  prod     : Nat
  prodPort : Nat
  cons     : Nat
  consPort : Nat
  wr       : Nat
  rd       : Nat
  kind     : Nat
  target   : Option SlotRef
  /-- fp32 scale s and r = 1/s of a link route, its port, peer and link channel (R101, R222). -/
  scale    : Word
  recip    : Word
  lport    : Nat
  peer     : Nat
  lchan    : Nat
  /-- For a partial-sum ring: the places whose next tile belongs to an input tile that gave no output (R73). -/
  owed     : List Nat
deriving DecidableEq, Repr

/-- No ring. -/
def Ring.free : Ring :=
  { len := 0, size := 0, prod := 0, prodPort := 0, cons := 0, consPort := 0, wr := 0, rd := 0, kind := 0,
    target := none, scale := 0, recip := 0, lport := 0, peer := 0, lchan := 0, owed := [] }

/-- A requested placement change (R180): to another core and descriptor with a new image, to a new weight copy, or to the
spare engine. -/
structure Migration where
  core   : Nat
  d      : Nat
  image  : List Word
  model  : Nat
  layer  : Nat
  weight : Bool
  /-- For each route of the new image, in order, the slot base of its ring (level 1's choice). -/
  bases  : List Nat
deriving DecidableEq, Repr

/-- A drain in progress (R181): where the old placement stands, the first tile of the new one, the boundary's epoch, and
the old output rings beside the new. -/
structure Drain where
  core     : Nat
  d        : Nat
  seq      : Nat
  epoch    : Nat
  rings    : List (SlotRef × SlotRef)
deriving DecidableEq, Repr

/-- Why a station stays parked: a level-1 park, weights not programmed (R237), a stalled swap (R264), a sweep station without
a layer (R265), a reclaimed claim (R316), a lost engine (R269), a suspect shard (R259), a descriptor exception (R211), a
cluster without sensor (R401). -/
inductive Hold where
  | level1 | weights | swap | sweep | reclaim | lost | suspect | descriptor | sensor
deriving DecidableEq, Repr

/-- A station (R152 to R155). -/
structure Station where
  kind     : Nat
  /-- The state of Table 6.2. -/
  state    : Nat
  gen      : Nat
  owner    : Nat
  /-- The core and the descriptor that hold it, for the kinds that have a descriptor. -/
  core     : Nat
  d        : Nat
  /-- The cluster and entry of its KMC_STNn registers. -/
  entry    : Option (Nat × Nat)
  grants   : Nat
  /-- The cluster, thread and program counter of the last FIRE to it (R211). -/
  firer    : Option (Nat × Nat × Nat)
  /-- The tiles of its window, oldest first (R466). -/
  window   : List SlotRef
  /-- The stream context of the last tile it took. -/
  ctx      : Option Nat
  /-- The sequence number of that tile. -/
  taken    : Nat
  inFmt    : Nat
  inExp    : Int
  outFmt   : Nat
  outExp   : Int
  ncol     : Nat
  name     : List Byte
  model    : Nat
  layer    : Nat
  sens     : Bool
  /-- Why it is parked, or is to be parked at its next tile boundary. -/
  holds    : List Hold
  /-- One more than the time of the last level-1 park (R17); 0 for none. -/
  parkAt   : Nat
  mig      : List Migration
  drain    : Option Drain
  /-- A swap or sweep job of it is queued or running (R264). -/
  swapping : Bool
  /-- It still runs on an engine that has been retired, until it moves to the spare engine (R268). -/
  onOld    : Bool
  /-- Sweep tiles of the layer loaded, until SWEEP_DONE is sent; and those still to take (R265). -/
  layerTiles : Nat
  tiles    : Nat
  /-- For a correction station: its matrix station, the clip thresholds and the shadow rows (R224); for a matrix station its
  correction station. -/
  mate     : Option Nat
  clip     : List Nat
  shadow   : List (Nat × Nat)
  /-- The first slots of the input and output rings of a station without descriptor. -/
  ins      : List SlotRef
  outs     : List SlotRef
  /-- Of the bit-stream's INGEST record (R225): its bytes. -/
  ingest   : List Byte
  /-- Its rank among all placements, for R316 step 3. -/
  order    : Nat
  /-- Its deadline under a cut (R316): the context that its boundaries count, and how many of them are still to come. -/
  deadline : Option (Nat × Nat)
deriving DecidableEq, Repr

/-- A free station ID. -/
def Station.unloaded : Station :=
  { kind := 0, state := 0, gen := 0, owner := 0, core := 0, d := 0, entry := none, grants := 0, firer := none,
    window := [], ctx := none, taken := 0, inFmt := 0, inExp := 0, outFmt := 0, outExp := 0, ncol := 256, name := [], model := 0,
    layer := 0, sens := false, holds := [], parkAt := 0, mig := [], drain := none, swapping := false, onOld := false, layerTiles := 0, tiles := 0, mate := none,
    clip := [], shadow := [], ins := [], outs := [], ingest := [], order := 0, deadline := none }

/-- A tile in progress on a unit set of a core (R201): the descriptor and station, the unit, the input slots it uses in
window or port order, the partial-sum slots, the output slots, the vectors to write and those written, and the flags
gathered (R159). -/
structure Tile where
  d      : Nat
  st     : Nat
  unit   : Nat
  ins    : List SlotRef
  parts  : List SlotRef
  outs   : List SlotRef
  nvec   : Nat
  done   : List Nat
  flags  : Nat
  start  : Nat
  word   : Option Nat
  /-- Written for the old placement of a draining station. -/
  old    : Bool
  /-- The vectors written as poison (R96). -/
  pois   : List Nat
  /-- The newest tile of its window, from which the header is copied, and the input slots that it releases. -/
  src    : SlotRef
  gone   : List SlotRef
  /-- The decision word has reached the rule matcher (R182). -/
  sent   : Bool
  /-- It runs on a weight copy that has been replaced (R137, R263). -/
  oldCopy : Bool
  /-- Of a tile on the VXE: the vectors worked between OUT = 1 vectors, and whether its next vector has its turn (R464). -/
  worked : Nat
  turn   : Bool
deriving DecidableEq, Repr

/-- A transfer of a tile mover (R164): the source slot, the ring it goes to, the owner, and the target slot once it moves. -/
structure Xfer where
  src   : SlotRef
  dst   : SlotRef
  owner : Nat
  slot  : Option SlotRef
  start : Nat
deriving DecidableEq, Repr

/-- A tile mover: its queue, the transfer it carries and the refused tiles that it is to offer again. -/
structure Tmv where
  queue   : List Xfer
  /-- Transfers that are to be queued once the queue of 16 has room. -/
  wait    : List Xfer
  cur     : Option Xfer
  refused : List Xfer
deriving DecidableEq, Repr

/-- An idle tile mover. -/
def Tmv.idle : Tmv := { queue := [], wait := [], cur := none, refused := [] }

/-- A frame descriptor (R168, Table 11.10). -/
structure FrameDesc where
  addr   : Nat
  width  : Nat
  height : Nat
  stride : Nat
  format : Nat
  stamp  : Option Nat
deriving DecidableEq, Repr

/-- A stream context (R167) with its epoch machinery (R283 to R286). Values of a port source are taken modulo 2^48. -/
structure Context where
  /-- 0 Closed, 1 Open, 2 Closing. -/
  state   : Nat
  owner   : Nat
  weight  : Nat
  drop    : Bool
  queue   : List FrameDesc
  station : Nat
  seq     : Nat
  running : Bool
  src     : Nat
  sync    : Nat
  hold    : Bool
  len     : Nat
  epoch   : Nat
  /-- The pending boundary B. -/
  bound   : Nat
  /-- The source has reached B. -/
  held    : Bool
  /-- The sample in which a port source reached B + W, while the boundary of that window has not fired (R285). -/
  ended   : Option Nat
  /-- The last boundary, where it fired at B + W: the sample that reached B + W, B, and MISSED before it. -/
  slip    : Option (Nat × Nat × Nat)
  /-- The epoch numbers and boundary values of the last 16 boundaries, newest first. -/
  hist    : List (Nat × Nat)
  /-- Its rank among all placements and opens, for R316 step 3. -/
  order   : Nat
  /-- How many boundaries are still to come until a cut closes it (R316). -/
  deadline : Option Nat
deriving DecidableEq, Repr

/-- A Closed context. -/
def Context.closed : Context :=
  { state := 0, owner := 0, weight := 0, drop := false, queue := [], station := 0, seq := 0, running := false, src := 0,
    sync := 0, hold := false, len := 0, epoch := 0, bound := 0, held := false, ended := none, slip := none, hist := [], order := 0, deadline := none }

/-- A tile that an ingest job has made (R170 to R172): its position, extended for device time, and its payload. -/
structure IngestTile where
  pos    : Nat
  nvec   : Nat
  nelem  : Nat
  poison : Bool
  sats   : Nat
  data   : List Byte
deriving DecidableEq, Repr

/-- An ingest engine (R169, R170): the context of its job, the latched device time and the extended position, the tiles yet to
be written, and whether host reads are outstanding. -/
structure Ingest where
  ctx   : Nat
  dtime : Nat
  tiles : List IngestTile
  wait  : Bool
deriving DecidableEq, Repr

/-- A position port's counters (R279), the levels last sampled, and the time of the last accepted edge. -/
structure Port where
  pos   : BitVec 48
  trv   : BitVec 48
  zlat  : BitVec 48
  a     : Bool
  b     : Bool
  /-- When the filters last accepted a transition of A, of B, and a rising edge of Z (R276, R277). -/
  aAt   : Option Nat
  bAt   : Option Nat
  zAt   : Option Nat
  edge  : Option Nat
  /-- When it was enabled. -/
  since : Nat
deriving DecidableEq, Repr

/-- A port at reset. -/
def Port.reset : Port :=
  { pos := 0, trv := 0, zlat := 0, a := false, b := false, aAt := none, bAt := none, zAt := none, edge := none, since := 0 }

/-- An armed epoch action (R209): the context and epoch, the station and the grants. -/
structure Armed where
  ctx     : Nat
  epoch   : Nat
  station : Nat
  grants  : Nat
deriving DecidableEq, Repr

/-- What a thread waits for (R200 to R208). -/
inductive ThreadWait where
  | idle
  /-- WAIT: condition, port, station, K, and the end of its time-out, if it has one. -/
  | cond (c port st k : Nat) (till : Option Nat)
  /-- BAR or BCAST on a group; the register that a broadcast fills. -/
  | group (g : Nat) (reg : Option Nat)
  /-- EPW: the context and the epoch. -/
  | epoch (ctx e : Nat)
  /-- SNAP of a set. -/
  | snap (set : Nat)
  /-- DRST: cold or warm, and the cores that are not back in service. -/
  | reset (cold : Bool) (cores : List Nat)
  /-- COPY: destination, source, length, and the bytes that have been moved when it ends. -/
  | copy (dst src len : Nat)
deriving DecidableEq, Repr

/-- What a sequencer thread holds beside its registers (R186). -/
structure ThreadState where
  wait  : ThreadWait
  armed : List Armed
  /-- The latched high half that RDT reads: device time and position (Table 7.3). -/
  timeHi : Nat
  posHi  : Nat
  /-- The word index of the prefetch buffer's line (R189). -/
  line  : Nat
  /-- A STOP that waits for the instruction in progress (R190), and a halt that does (R199). -/
  stop  : Bool
  halt  : Bool
  /-- The instances this thread has met of each group (R203). -/
  met   : SMap Nat
  /-- The stations this thread has fired, for F = 1 (R202). -/
  fired : List Nat
deriving DecidableEq, Repr

/-- A thread at its start. -/
def ThreadState.idle : ThreadState :=
  { wait := .idle, armed := [], timeHi := 0, posHi := 0, line := 0, stop := false, halt := false, met := [], fired := [] }

/-- A FIRE on its way to a stepper (R199). -/
structure Flight where
  at_     : Nat
  station : Nat
  grants  : Nat
  cl      : Nat
  th      : Nat
  pc      : Nat
  /-- Who had fired the station last before it, and whether the thread had not fired the station yet. -/
  was     : Option (Nat × Nat × Nat)
  first   : Bool
deriving DecidableEq, Repr

/-- A domain reset under way (R206): the thread that asked for it, cold or warm, and the cores. -/
structure DomReset where
  th    : Nat
  cold  : Bool
  cores : List Nat
deriving DecidableEq, Repr

/-- The open instance of a barrier group: when it began, the member cores that have arrived (as a mask over the 128 cores),
the cores that arrive once their stepper is idle (F = 1) with the thread they wait for, the waiting threads, the
dissemination rounds received from other devices, and the broadcast value with the thread that gave it. -/
structure BarInst where
  first   : Nat
  last    : Nat
  arrived : Nat
  slow    : List (Nat × Nat)
  threads : List Nat
  rounds  : List Nat
  value   : Option Word
deriving DecidableEq, Repr

/-- A barrier group (R202, R228). -/
structure Group where
  defined  : Bool
  owner    : Nat
  scope    : Nat
  devmask  : Nat
  timeout  : Nat
  /-- The member-core masks of clusters 0 to 15. -/
  masks    : List Nat
  inst     : Option BarInst
  /-- Instances ended, and whether the last one timed out. -/
  count    : Nat
  timedOut : Bool
  /-- The first instance of a multi-device group has been checked (R346), or has failed it. -/
  checked  : Bool
  disabled : Bool
  /-- The rounds, and the broadcast value, that other devices have sent ahead for the next instance here (R345). -/
  early    : List Nat
  earlyVal : Option Word
deriving DecidableEq, Repr

/-- An undefined group. -/
def Group.free : Group :=
  { defined := false, owner := 0, scope := 0, devmask := 0, timeout := 0, masks := [], inst := none, count := 0,
    timedOut := false, checked := false, disabled := false, early := [], earlyVal := none }

/-- A snapshot set (R205): owner, group and regions as source, destination and length. -/
structure SnapSet where
  owner   : Nat
  group   : Nat
  regions : List (Nat × Nat × Nat)
deriving DecidableEq, Repr

/-- A snapshot in progress: the set, the thread, and whether its barrier is complete. -/
structure Snapshot where
  set : Nat
  th  : Nat
deriving DecidableEq, Repr

/-- A loaded partition (R214 to R232): what a bit-stream has taken. -/
structure Partition where
  /-- The claimed cores. -/
  cores  : List Nat
  /-- CM extents as core, offset, length; KM extents as cluster, offset, length. -/
  cm     : List (Nat × Nat × Nat)
  km     : List (Nat × Nat × Nat)
  stations : List Nat
  /-- Descriptor images as core, index and the 64 words, for R198. -/
  images : List (Nat × Nat × List Word)
  /-- Programs as cluster, thread, base and the words, for R188. -/
  progs  : List (Nat × Nat × Nat × List Word)
  /-- The mailbox channels assigned to a thread, as channel and thread. -/
  chans  : List (Nat × Nat)
  sets   : List Nat
  groups : List Nat
  rules  : List Nat
  owls   : List Nat
  slots  : List SlotRef
deriving DecidableEq, Repr

/-- No partition. -/
def Partition.empty : Partition :=
  { cores := [], cm := [], km := [], stations := [], images := [], progs := [], chans := [], sets := [], groups := [],
    rules := [], owls := [], slots := [] }

/-- What a loader job does (Table 9.3, R262, R268). -/
inductive JobKind where
  | importKey | load | swap | sweep | erase
  /-- The erase of rows of an earlier owner (R262). -/
  | wipe
  /-- The programming of a spare engine that takes over (R268), and of a spare pair for a column outside a job (R254). -/
  | spare | remap
deriving DecidableEq, Repr

/-- A loader job (R249, R250). -/
structure Job where
  kind   : JobKind
  owner  : Nat
  /-- The tag to answer with, none for a job of the management processor. -/
  tag    : Option Nat
  addr   : Nat
  len    : Nat
  force  : Bool
  station : Nat
  model  : Nat
  layer  : Nat
  shards : List Nat
  opws   : List Word
  table  : List Byte
  tableOff : Nat
  tiles  : Nat
  /-- Row groups to erase or program, as 4 times the physical engine plus the row group. -/
  rgs    : List Nat
  /-- The station that the header of a LOAD passed over names (R250). -/
  seen   : Option Nat
  /-- What an ERASE names. -/
  what   : Option EraseTarget
  /-- The physical engine and column of a remap. -/
  column : Option (Nat × Nat)
deriving DecidableEq, Repr

/-- A spare pair being programmed for a column (R254): the physical engine, the column, the pair's place among the spares, the rows
with their target levels, those still to do, and the iterations spent on the first of them. -/
structure SpareWork where
  pe     : Nat
  column : Nat
  entry  : Nat
  all    : List (Nat × Nat × Int)
  todo   : List (Nat × Nat × Int)
  iter   : Nat
deriving DecidableEq, Repr

/-- A shard header as read (Table 9.1), with its digest. -/
structure ShardHead where
  bytes   : List Byte
  digest  : List Byte
  model   : Nat
  shard   : Nat
  layer   : Nat
  station : Nat
  k0      : Nat
  krows   : Nat
  ncols   : Nat
  srcfmt  : Nat
  qmode   : Nat
  keyslot : Nat
  paylen  : Nat
  nonce   : List Byte
deriving DecidableEq, Repr

/-- A Beaver instance at work (R250 to R254): its job, WLD_STAT's state, when the job began, the header of the shard in hand,
the level codes by inner row and column, the row groups still to erase and to program with the rows they hold, the row
and iteration in progress with the pairs accepted, the shard record, and the elements clamped. -/
structure Beaver where
  job     : Job
  state   : Nat
  start   : Nat
  head    : Option ShardHead
  levels  : List Int
  erase   : List Nat
  eraseN  : Nat
  rows    : List (Nat × Nat)
  iter    : Nat
  okPairs : List Nat
  iters   : SMap Nat
  record  : Option Nat
  clamped : Nat
  /-- The copy for a swap: the logical engines taken, by chain position; none when the swap stalls its station. -/
  engines : List Nat
  /-- The shards of a swap or sweep still to load. -/
  left    : List Nat
  /-- The spare pair that it programs before the row goes on (R254). -/
  spare   : Option SpareWork
  /-- The read-back in progress: the record. -/
  check   : Option Nat
deriving DecidableEq, Repr

/-- A shard record (R256). -/
structure Shard where
  /-- 0 free, 1 PROGRAMMING, 2 RESIDENT, 3 SUSPECT. -/
  state   : Nat
  owner   : Nat
  cluster : Nat
  head    : List Byte
  digest  : List Byte
  /-- The digest of the copy in Sett, once committed. -/
  sett    : Option (List Byte)
  model   : Nat
  shard   : Nat
  layer   : Nat
  station : Nat
  k0      : Nat
  krows   : Nat
  ncols   : Nat
  /-- The row groups covered, as 4 times the physical engine plus the row group, in inner-row order. -/
  rgs     : List Nat
  /-- The WMODE under which it was programmed. -/
  wmode   : Nat
  /-- When the last read-back passed, the time in Bear state since, which does not count (R378), whether the shard is overdue,
  and whether the start still owes it a read-back (R261). -/
  checked : Nat
  idle    : Nat
  overdue : Bool
  owed    : Bool
deriving DecidableEq, Repr

/-- A free record. -/
def Shard.free : Shard :=
  { state := 0, owner := 0, cluster := 0, head := [], digest := [], sett := none, model := 0, shard := 0, layer := 0,
    station := 0, k0 := 0, krows := 0, ncols := 0, rgs := [], wmode := 0, checked := 0, idle := 0, overdue := false, owed := false }

/-- A model-key slot (R246) or a signing-key slot (R424): its bytes, owner and usage; no bytes when
empty. -/
structure Key where
  bytes  : List Byte
  owner  : Nat
  usage  : Nat
deriving DecidableEq, Repr

/-- An empty slot. -/
def Key.empty : Key := { bytes := [], owner := 0, usage := 0 }

/-- A completion entry (Table 11.8). -/
structure Completion where
  cls  : Nat
  tag  : Nat
  sect : Nat
  code : Nat
  value : Nat
  info : Nat
deriving DecidableEq, Repr

/-- A tenant's quota, in the order of the QUOTAS record (R231). -/
structure Quota where
  cores : Nat
  contexts : Nat
  link : Nat
  cm : Nat
  km : Nat
  loader : Nat
  wout : Nat
  grace : Nat
deriving DecidableEq, Repr

/-- A load whose completion no committed checkpoint holds yet (R239): its function and tag, and the quotas that its QUOTAS records
replaced. -/
structure Loading where
  fn     : Nat
  tag    : Nat
  quotas : List (Nat × Quota)
deriving DecidableEq, Repr

/-- What the device holds for a function beside its registers (R304 to R322). -/
structure Function where
  /-- A virtual function that is enabled; the physical function always is. -/
  enabled  : Bool
  /-- When its function-level reset began, while one is in progress. -/
  flr      : Option Nat
  /-- The command entries read and not yet accepted, oldest first. -/
  entries  : List (List Word)
  /-- How many of these are held in the committed checkpoint (R305, R381). -/
  held     : Nat
  /-- The accepted commands not yet carried out, oldest first. -/
  accepted : List (List Word)
  /-- The completions that wait for room in the ring (R306). -/
  waiting  : List Completion
  /-- The PHASE of the next completion is the complement of this. -/
  wrapped  : Bool
  /-- The queued service messages and the next sequence number. -/
  messages : List (List Word)
  seq      : Nat
  /-- Trace consent (R433). -/
  consent  : Bool
  /-- The claims chosen by a reclaim in progress: cores, and CM and KM extents; and what it has released. -/
  cut      : Option (List Nat × List (Nat × Nat × Nat) × List (Nat × Nat × Nat))
  released : Nat
  parked   : Nat
  closed   : Nat
deriving DecidableEq, Repr

/-- A function at reset. -/
def Function.reset : Function :=
  { enabled := false, flr := none, entries := [], held := 0, accepted := [], waiting := [], wrapped := false, messages := [],
    seq := 0, consent := false, cut := none, released := 0, parked := 0, closed := 0 }

/-- An event record (Table 17.8). -/
structure EventRec where
  time    : Nat
  code    : Nat
  cls     : Nat
  supp    : Bool
  owner   : Nat
  cluster : Nat
  unit    : Nat
  station : Nat
  seq     : Nat
  count   : Nat
  first   : Nat
  detail  : List Byte
deriving DecidableEq, Repr

/-- A path of events: its records, its coalescing table oldest first, and its bucket (R444). Path 0 is the Sett log, path
1 + f the queue of function f. -/
structure EvPath where
  recs  : List EventRec
  table : List EventRec
deriving DecidableEq, Repr

/-- An empty path. -/
def EvPath.empty : EvPath := { recs := [], table := [] }

/-- The events in their paths (R414, R442, R444): the Sett log and the queues, the pending class A records with the queue they
wait for, the log's sequence number and its bucket in ns of refill, 62,500,000 a record, and the drop counters. -/
structure Events where
  paths   : SMap EvPath
  pending : List (Nat × EventRec)
  seq     : Nat
  bucket  : Nat
  bucketAt : Nat
  logDrop : Nat
  trcDrop : Nat
  amiss   : SMap Nat
  bsupp   : SMap Nat
  alost   : Nat
  /-- Class B and C records dropped from the log (NVS_LOG.DROPPED). -/
  dropped : Nat
  /-- The commit of the Sett controller that is in progress (R413): true for one of the physical function. -/
  commit : Option Bool
  /-- Pages wait in the management processor's gather list (R413). -/
  gather : Bool
  /-- A class A record is among them (R413). -/
  urgent : Bool
deriving DecidableEq, Repr

/-- A trace record (Table 17.4). -/
structure TraceRec where
  time : Nat
  kind : Nat
  src  : Nat
  pc   : Nat
  data : Nat
deriving DecidableEq, Repr

/-- A cluster's trace ring (R432, R436): its records, those lost since the last LOSS record, those lost since the previous
block, and when the oldest record was written. -/
structure TraceRing where
  recs  : List TraceRec
  lost  : Nat
  blockLost : Nat
  /-- All records lost since reset (OBS_TRLOSSc), holding. -/
  all : Nat
  oldest : Nat
deriving DecidableEq, Repr

/-- An empty ring. -/
def TraceRing.empty : TraceRing := { recs := [], lost := 0, blockLost := 0, all := 0, oldest := 0 }

/-- A watch point (R438): the tiles per window, and of the window in progress the tiles taken, the sequence numbers, the
statistics or the bytes digested, and the flags. -/
structure TensorPoint where
  size    : Nat
  n       : Nat
  fseq    : Nat
  lseq    : Nat
  gen     : Option Nat
  mixed   : Bool
  incomplete : Bool
  bytes   : List Byte
  count   : Nat
  min     : Int
  max     : Int
  sum     : Int
  sumSq   : Int
  poison  : Nat
  sat     : Nat
  prov    : Nat
  /-- Its rank among the points armed (R446). -/
  rank    : Nat
deriving DecidableEq, Repr

/-- An unarmed point. -/
def TensorPoint.idle : TensorPoint :=
  { size := 0, n := 0, fseq := 0, lseq := 0, gen := none, mixed := false, incomplete := false, bytes := [], count := 0,
    min := 0, max := 0, sum := 0, sumSq := 0, poison := 0, sat := 0, prov := 0, rank := 0 }

/-- A region digest in progress (R441): the issuer and its tag, the region and where the result goes. -/
structure RegionDigest where
  fn   : Nat
  tag  : Nat
  off  : Nat
  len  : Nat
  addr : Nat
deriving DecidableEq, Repr

/-- A tenant counter page's copy (R431): the device time of the copy and its words by offset; and the totals that the page
counts since the first load. -/
structure TenCopy where
  time  : Nat
  words : SMap Nat
deriving DecidableEq, Repr

/-- A flit in a replay buffer (R334). -/
structure SentFlit where
  fseq    : Nat
  type    : Nat
  lchan   : Nat
  dst     : Nat
  payload : List Byte
deriving DecidableEq, Repr

/-- The tile that a link channel is receiving (R343): the slot, the ring, the header, the scale, and the codes so far. -/
structure RxTile where
  slot   : SlotRef
  ring   : SlotRef
  head   : List Byte
  scale  : Nat
  codes  : List Byte
deriving DecidableEq, Repr

/-- The tile that a link-send station is sending: its slot, ring and link channel. -/
structure TxTile where
  st    : Nat
  slot  : SlotRef
  ring  : SlotRef
  lchan : Nat
  /-- Its flits that are not yet acknowledged. -/
  left  : Nat
deriving DecidableEq, Repr

/-- An Edeneg port beside its registers (R332 to R349): sequence numbers, the replay buffer and how often its oldest flit
was replayed in succession, credits per link channel, tiles open in both directions, when it last came down, the offset
samples, deficit counters of the owners, and the stations whose outage has been reported; credits given to the peer, when
the sender last heard an acknowledgement, the station served last of each owner, and the last two offset measurements. -/
structure Link where
  tx      : Nat
  rx      : Nat
  buf     : List SentFlit
  /-- Frames that wait for room in the replay buffer. -/
  held    : List SentFlit
  tries   : Nat
  credits : SMap Nat
  open_   : SMap (Option RxTile)
  sending : List TxTile
  lostAt  : Nat
  samples : List (Int × Int)
  deficit : SMap Int
  outage  : List Nat
  lastSt  : SMap Nat
  given   : SMap Nat
  ackAt   : Nat
  measAt  : Nat
  drift   : Int
  span    : Nat
deriving DecidableEq, Repr

/-- A port at reset. -/
def Link.idle : Link :=
  { tx := 0, rx := 0, buf := [], held := [], tries := 0, credits := [], open_ := [], sending := [], lostAt := 0, samples := [],
    deficit := [], outage := [], lastSt := [], given := [], ackAt := 0, measAt := 0, drift := 0, span := 0 }

/-- An entry of the domain table (R336): the digest of a device's identity key and the port it is reached by. -/
structure DomainEntry where
  digest : List Byte
  port   : Nat
deriving DecidableEq, Repr

/-- A change slot of a limited-change setting (R419): its value, and whether its commit bit is burned. -/
structure LcSlot where
  value : Nat
  ok    : Bool
deriving DecidableEq, Repr

/-- The shutdown record of Q0 (R370, R382): the real-time clock, the median temperature, the calibration version, the trims,
the bands, the touch-up accounts by row group and the spot pointer. -/
structure ShutRecord where
  clean    : Bool
  rtc      : Nat
  temp     : Int
  calver   : Nat
  trims    : SMap Trim
  bands    : List Nat
  accounts : List (Nat × Tracker)
  spot     : Nat
deriving DecidableEq, Repr

/-- A page of Sett that is being gathered (R417): the bytes written, by offset in the page. -/
structure SettPage where
  page  : Nat
  bytes : SMap (Option Byte)
deriving DecidableEq, Repr

/-- A counter group as a slot of the ring carries it (R415). -/
structure CounterSlot where
  group : Nat
  seq   : Nat
  data  : List Byte
deriving DecidableEq, Repr

/-- An empty slot. -/
def CounterSlot.empty : CounterSlot := { group := 0, seq := 0, data := [] }

/-- A temperature sensor (R397, R398, R405): its last 10 readings, newest first, and how many checks in succession it has
failed or passed. -/
structure Sensor where
  last : List Int
  bad  : Nat
  good : Nat
deriving DecidableEq, Repr

/-- A sensor that has not been read. -/
def Sensor.idle : Sensor := { last := [], bad := 0, good := 0 }

/-- The VDD_CORE setpoint on its way (R390): whence, whither and since when, in mV. -/
structure Avs where
  whence  : Nat
  whither : Nat
  since   : Nat
deriving DecidableEq, Repr

/-- A watch-input pair beside its registers: since when its filtered channels disagree (R355), since when both have been
safe, and when its fault was last cleared (R356). -/
structure Win where
  differ  : Option Nat
  safe    : Option Nat
  cleared : Option Nat
deriving DecidableEq, Repr

/-- A pair at reset: both channels read low. -/
def Win.reset : Win := { differ := none, safe := some 0, cleared := none }

/-- A watch output beside its registers: when its commanded state last changed (R359), when a detector last fired (R361), and when a
MISMATCH was last cleared, with the readback and EXTLOW as they then were (R368). -/
structure OutMark where
  since   : Nat
  fired   : Option Nat
  cleared : Option (Nat × Bool × Bool)
deriving DecidableEq, Repr

/-- An output that nothing has happened to. -/
def OutMark.idle : OutMark := { since := 0, fired := none, cleared := none }

/-- A watch rule (R230, R363 to R366). A freed rule keeps its request until its hold timer ends. -/
structure WRule where
  valid   : Bool
  station : Nat
  owner   : Nat
  outmask : Nat
  paired  : Bool
  exclProv : Bool
  mask    : Nat
  allBits : Bool
  /-- The pair that mutes it, 0xFF for none. -/
  inhibit : Nat
  /-- HOLD in microseconds. -/
  hold    : Nat
  /-- The outcome of the last decision word, for HOLD = 0. -/
  last    : Bool
  /-- When the hold timer ends, while it runs. -/
  till    : Option Nat
deriving DecidableEq, Repr

/-- A free rule. -/
def WRule.free : WRule :=
  { valid := false, station := 0, owner := 0, outmask := 0, paired := false, exclProv := false, mask := 0, allBits := false,
    inhibit := 0xFF, hold := 0, last := false, till := none }

/-- What a mailbox channel keeps beside its registers: when its message was posted and whether that message's time-out has expired
(R327), and for the events of one cycle (R329) when it last expired, was acknowledged and was flushed, and TMO before the post. -/
structure Channel where
  posted    : Nat
  expired   : Bool
  tmo       : Bool
  expiredAt : Option Nat
  ackedAt   : Option Nat
  flushedAt : Option Nat
deriving DecidableEq, Repr

/-- A channel that nothing has used. -/
def Channel.idle : Channel := { posted := 0, expired := false, tmo := false, expiredAt := none, ackedAt := none, flushedAt := none }

/-- The state of the block. -/
structure State where
  /-- The commands that are waiting, first in, first out. -/
  pending : List Instr
  /-- The ns that have passed; the device time counter is `State.clock` (R20). -/
  time : Nat
  /-- When the device time counter began, at the last power-on (R20, log entry 7). -/
  base : Nat
  /-- When the core PLL went off, while it is off (R20). -/
  pllOff : Option Nat
  /-- The model's own field: how many free values have been taken. -/
  fresh : Nat
  /-- What the device has sent outward, newest first. -/
  out : List Output
  /-- The stored register fields, keyed by field and replication. -/
  regs : SMap Nat
  /-- The latched high words of paired registers (R292), keyed by register offset; 0 is no latch, else 1 + the bits. -/
  latches : SMap Nat
  /-- The bytes of all core and cluster memories by PF BAR2 offset (R24). -/
  sram : List Host.Cell
  /-- For each 64-bit word of SRAM its syndrome (R174): 0 none, 0x7F the poison mark. -/
  ecc : SMap Nat
  /-- The promoted core-memory requests that wait at their banks (R35). -/
  cmWait : List CmReq
  /-- The requester last granted of levels 3 and 4 of a core-memory bank, plus 1 (R34, Table 1.10), keyed by 16 times the core plus 2 times the bank, plus 1 for level 4. -/
  cmLast : SMap Nat
  /-- The size of the pool of programming tokens (R43). -/
  tokenPool : Nat
  /-- The physical engines that hold a programming token (R43). -/
  tokenHeld : List Nat
  /-- The requests for a token, in order of arrival (R43). -/
  tokenWait : List TokenReq
  /-- The pairs of every engine's array (R45, R47), keyed by physical engine, row and pair: 16 G+ plus G- plus 1; 0 is a pair at its erased levels. -/
  cells : SMap Nat
  /-- The engines, keyed by physical engine 17 times the core plus its place (R31, R32). -/
  engines : SMap Engine
  /-- When the counters of each physical engine were last cleared, plus 1 (R87). -/
  clrAt : SMap Nat
  /-- The trackers, keyed by 4 times the physical engine plus the row group. -/
  trackers : SMap Tracker
  /-- The converter trims by physical engine, held in the always-on power block (R116). -/
  trims : SMap Trim
  /-- The calibration passes of each cluster, the one in progress or next first. -/
  passes : SMap (List CalPass)
  /-- The ns of device time that each cluster had spent in each band at its last band change, keyed by 5 times the cluster plus the band (R121). -/
  bandTime : SMap Nat
  /-- The device time of each cluster's last band change. -/
  bandAt : SMap Nat
  /-- For each core, when its chain adder accepts the next sum (R70). -/
  adderFree : SMap Nat
  /-- The OCU of each cluster. -/
  ocus : SMap Ocu
  /-- The Owl slots, keyed by 32 times the cluster plus the slot. -/
  owls : SMap Owl
  /-- The stimulus DAC. -/
  dac : Dac
  /-- The rings, keyed by their first slot. -/
  rings : SMap Ring
  /-- The stations by ID (R153). -/
  stations : SMap Station
  /-- The tiles in progress on each core. -/
  tiles : SMap (List Tile)
  /-- The tile mover of each core. -/
  tmvs : SMap Tmv
  /-- The stream contexts. -/
  ctxs : SMap Context
  /-- The ingest engines that run a job. -/
  ingests : SMap (Option Ingest)
  /-- The jobs each context has been offered in the current round (R169). -/
  offers : SMap Nat
  /-- The SRAM words that wait to be rewritten with correct check bits (R175). -/
  scrubs : List Nat
  /-- Cycles with work: keyed 4 times the core plus 0 for any unit set, 1 DPE, 2 VXE, 3 PRE (R185, R429). -/
  busy : SMap Nat
  /-- The position ports. -/
  ports : SMap Port
  /-- One more than the time of the last transition that the filter of a sync input accepted, 0 before any (R276). -/
  syncAt : SMap Nat
  /-- One more than the time at which a trigger last fired, 0 before (R288). -/
  trgAt : SMap Nat
  /-- What the sequencer threads hold beside their registers, keyed by 8 times the cluster plus the thread. -/
  threads : SMap ThreadState
  /-- The grants under way to steppers (R199), in order of issue. -/
  flights : List Flight
  /-- The barrier groups. -/
  groups : SMap Group
  /-- The snapshot sets. -/
  sets : SMap (Option SnapSet)
  /-- The snapshots in progress. -/
  snaps : List Snapshot
  /-- Placement changes that fell due during a snapshot: station and epoch (R205). -/
  snapHeld : List (Nat × Nat)
  /-- The domain resets under way. -/
  resets : List DomReset
  /-- What is left of each cluster's power-cap tokens in the present interval (R393, R394). -/
  accounts : SMap Nat
  /-- When the accounts were last refilled, and the budgets of that refill before throttling (R394, R404). -/
  refillAt : Option Nat
  grants : SMap Nat
  /-- The clusters whose band has moved, and whose THR has been judged, since the medians were last formed (R400, R402). -/
  bandMoved : List Nat
  thrJudged : List Nat
  /-- The loaded partition of each owner. -/
  parts : SMap (Option Partition)
  /-- How many placements and opens have been made, the ranks of R316 step 3. -/
  placed : Nat
  /-- The loader queue of each owner, oldest first (R250). -/
  jobs : SMap (List Job)
  /-- The two Beaver instances at work. -/
  beavers : SMap (Option Beaver)
  /-- The owner whose jobs a free instance looks at next (R250). -/
  turn : Nat
  /-- The shard records (R256). -/
  shards : SMap Shard
  /-- The row groups of spare engines that are still to be programmed from the engines they replace (R268). -/
  spareLeft : List Nat
  /-- The model-key slots (R246). -/
  modelKeys : SMap Key
  /-- The shadow copies (R126), keyed by correction station, shadow row and pair. -/
  shadows : SMap Int
  /-- The weak-cell masks (R126), keyed like the shadow copies. -/
  weak : SMap Bool
  /-- The loader-time bucket of each owner, of which 3,600,000 make 1 ns (R314). -/
  buckets : SMap Int
  /-- When each bucket was last brought up to date. -/
  bucketAt : SMap Nat
  /-- What the device holds for each function beside its registers; 0 is the physical function. -/
  fns : SMap Function
  /-- The virtual functions enabled (R294). -/
  numVfs : Nat
  /-- The AER header log of each function: the BAR2 offset and length of the write that was reported first (R293, R296). -/
  aerLog : SMap (Option (Nat × Nat))
  /-- The accepted load, unload and quota commands of all functions, in order (R238). -/
  accepted : List (Nat × List Word)
  /-- The loads carried out since the last committed checkpoint, in order (R239). -/
  loading : List Loading
  /-- The pending MSI-X vectors, keyed by 2 times the function plus the word (R301). -/
  pba : SMap Nat
  /-- The mailbox channels beside their registers. -/
  channels : SMap Channel
  /-- The events in their paths. -/
  events : Events
  /-- The trace ring of each cluster. -/
  traces : SMap TraceRing
  /-- The sequence number of the next drain block. -/
  traceSeq : Nat
  /-- The cluster whose ring was drained last, 15 before the first (R435). -/
  traceLast : Nat
  /-- The tensor watch points. -/
  points : SMap TensorPoint
  /-- The latched result words of the watch points, 1 + the word. -/
  twLatch : SMap Nat
  /-- The region digests in progress. -/
  digests : List RegionDigest
  /-- The latched tenant counter pages: the tenant's own copy at t, the physical function's at 128 + t. -/
  tencs : SMap (Option TenCopy)
  /-- The tenant totals of Table 17.2, keyed by 8 times the owner plus the word. -/
  totals : SMap Nat
  /-- The Edeneg ports beside their registers. -/
  links : SMap Link
  /-- The domain table by device ID (R336). -/
  domain : SMap (Option DomainEntry)
  /-- OFS_d by device ID, in ns (R339, R351). -/
  offsets : SMap Int
  /-- The mailbox channels whose wake waits for DIE.HOST or DIE.LINK (R325). -/
  wakes : List Nat
  /-- The image in slot A of the SPI NOR (R380). -/
  norA : Option Image
  /-- The image in slot B of the SPI NOR (R380). -/
  norB : Option Image
  /-- The firmware image that runs (R380). -/
  image : Option Image
  /-- PERST# is asserted (R377, R388). -/
  perst : Bool
  /-- A WAKE written while Bear state is being entered (R379). -/
  wakeAsked : Bool
  /-- The shutdown record in Q0 of Sett (R370). -/
  shutRec : Option ShutRecord
  /-- The calibration version of the calibration record in Q0 of Sett (R370). -/
  calRec : Option Nat
  /-- The cap in force since the last refill, in 250 mW (R395). -/
  capNow : Nat
  /-- A fault on VDD_PGM holds the programming-token pool at 0 (R391, R453). -/
  pgmFault : Bool
  /-- Transactions in succession that each regulator slot has failed to answer (R391). -/
  regFails : SMap Nat
  /-- When each LOST slot was last tried (R391). -/
  regTried : SMap Nat
  /-- The VDD_CORE setpoint on its way (R390). -/
  avs : Avs
  /-- The temperature sensors. -/
  sensors : SMap Sensor
  /-- Each cluster's median one check ago (R402). -/
  medPrev : SMap Int
  /-- The clusters kept off for want of a valid sensor (R374, R401). -/
  deadCls : List Nat
  /-- When domains were last switched on (R387). -/
  onAt : Nat
  /-- The cluster whose domains were switched on then, 16 for the die's (R387). -/
  onCl : Nat
  /-- The bytes of Sett that have been written, by offset (R415, R417). -/
  settMem : SMap (Option Byte)
  /-- The page buffer (R417). -/
  settBuf : Option SettPage
  /-- The gather list of the physical function (R413, R417). -/
  settList : List SettPage
  /-- The commits of the physical function that wait or are in progress, oldest first (R413). -/
  settQueue : List (List SettPage)
  /-- Commits done (R415). -/
  settCommits : Nat
  /-- Pages refreshed (R415, R416). -/
  settRefreshes : Nat
  /-- The counter groups that the device holds, by group (R415). -/
  counters : SMap CounterSlot
  /-- The next slot of the counter ring. -/
  ringNext : Nat
  /-- The sequence number of the last counter group written. -/
  ringSeq : Nat
  /-- The spent change slots of the limited-change settings, lowest first (R419). -/
  lc : SMap (List LcSlot)
  /-- The setting and value being burned (R420). -/
  lcBusy : Option (Nat × Nat)
  /-- The count that the firmware anti-rollback counter is being burned to (R421). -/
  fwTarget : Option Nat
  /-- The signing-key slots (R424). -/
  signKeys : SMap Key
  /-- The spot pointer in Sett (R261). -/
  spot : Nat
  /-- The read-backs of a warm start at the spot pointer have not all ended (R261). -/
  spotDue : Bool
  /-- When Bear state was reached (R378). -/
  bearAt : Nat
  /-- The watch-input pairs beside their registers. -/
  wins : SMap Win
  /-- The watch rules. -/
  wrules : SMap WRule
  /-- Rules freed at unload whose hold timers still run, with their places (R366). -/
  heldRules : List (Nat × WRule)
  /-- The watch outputs beside their registers. -/
  outMarks : SMap OutMark
  /-- VDD_WIO is below its minimum (R453). -/
  wioDown : Bool
deriving DecidableEq, Repr

/-- The state after reset: every register at its reset value, the memories and every queue empty, and each domain off
until it is switched on. What the manual gives no reset value is named in the assumption log. -/
def State.reset : State :=
  {
    pending := []
    time := 0
    base := 0
    pllOff := some 0
    fresh := 0
    out := []
    regs := []
    latches := []
    sram := []
    ecc := []
    cmWait := []
    cmLast := []
    tokenPool := 256
    tokenHeld := []
    tokenWait := []
    cells := []
    engines := []
    clrAt := []
    trackers := []
    trims := []
    passes := []
    bandTime := []
    bandAt := []
    adderFree := []
    ocus := []
    owls := []
    dac := Dac.reset
    rings := []
    stations := []
    tiles := []
    tmvs := []
    ctxs := []
    ingests := []
    offers := []
    scrubs := []
    busy := []
    ports := []
    syncAt := []
    trgAt := []
    threads := []
    flights := []
    groups := []
    sets := []
    snaps := []
    snapHeld := []
    resets := []
    accounts := []
    refillAt := none
    grants := []
    bandMoved := []
    thrJudged := []
    parts := []
    placed := 0
    jobs := []
    beavers := []
    turn := 0
    shards := []
    spareLeft := []
    modelKeys := []
    shadows := []
    weak := []
    buckets := []
    bucketAt := []
    fns := []
    numVfs := 0
    aerLog := []
    accepted := []
    loading := []
    pba := []
    channels := []
    events := { paths := [], pending := [], seq := 0, bucket := 4000000000, bucketAt := 0, logDrop := 0, trcDrop := 0, amiss := [], bsupp := [], alost := 0, dropped := 0, commit := none, gather := false, urgent := false }
    traces := []
    traceSeq := 0
    traceLast := 15
    points := []
    twLatch := []
    digests := []
    tencs := []
    totals := []
    links := []
    domain := []
    offsets := []
    wakes := []
    norA := none
    norB := none
    image := none
    perst := false
    wakeAsked := false
    shutRec := none
    calRec := none
    capNow := 240
    pgmFault := false
    regFails := []
    regTried := []
    avs := { whence := 750, whither := 750, since := 0 }
    sensors := []
    medPrev := []
    deadCls := []
    onAt := 0
    onCl := 16
    settMem := []
    settBuf := none
    settList := []
    settQueue := []
    settCommits := 0
    settRefreshes := 0
    counters := []
    ringNext := 0
    ringSeq := 0
    lc := []
    lcBusy := none
    fwTarget := none
    signKeys := []
    spot := 0
    spotDue := false
    bearAt := 0
    wins := []
    wrules := []
    heldRules := []
    outMarks := []
    wioDown := false }

end Sys2Proof.Machine
end

