-- ==== Sys2Proof/Machine/Ops.lean ====
section
/-!
DEFINITION. The named operations over the state: register fields, device time, power domains, memory with its error
correction, interrupts, events, slots and rings. Each operation writes the parts of the state that its name says and no
other.
-/

namespace Sys2Proof.Machine
open Sys2Proof

/-! ### Register fields -/

/-- The key of replication i of a field, and the field's number and the replication of a key. -/
def fkey (f : Fld) (i : Nat) : Nat := i * 1024 + f.code
def keyCode (k : Nat) : Nat := k % 1024
def keyRep (k : Nat) : Nat := k / 1024

/-- The stored value of a field; a field never written holds its reset value (R10). -/
def State.getF (s : State) (f : Fld) (i : Nat) : Nat := smapGet f.info.rst s.regs (fkey f i)

/-- Stores a field, cut to its width. -/
def State.setF (s : State) (f : Fld) (i v : Nat) : State :=
  { s with regs := smapSet f.info.rst s.regs (fkey f i) (v % 2 ^ f.width) }

/-- Stores a one-bit field. -/
def State.setB (s : State) (f : Fld) (i : Nat) (v : Bool) : State := s.setF f i v.toNat

/-- Whether a one-bit field is set. -/
def State.bit (s : State) (f : Fld) (i : Nat) : Bool := s.getF f i == 1

/-- Adds to a counter that holds at its maximum. -/
def State.addHold (s : State) (f : Fld) (i n : Nat) : State := s.setF f i (min (s.getF f i + n) (2 ^ f.width - 1))

/-- Adds to a counter that wraps to 0. -/
def State.addWrap (s : State) (f : Fld) (i n : Nat) : State := s.setF f i (s.getF f i + n)

/-- Captures an event in a VALID/OVERRUN pair: the first event after VALID is cleared writes the given fields, a later one
sets OVERRUN (R30, R183, R197). -/
def State.capture (s : State) (valid overrun : Fld) (i : Nat) (fields : List (Fld × Nat)) : State :=
  if s.bit valid i then s.setF overrun i 1
  else fields.foldl (fun t fv => t.setF fv.1 i fv.2) (s.setF valid i 1)

/-- Sets or clears a bit of a number. -/
def withBit (n b : Nat) (v : Bool) : Nat := if v then n ||| 2 ^ b else if n.testBit b then n - 2 ^ b else n

/-! ### Free values -/

/-- Takes the next free value's number. -/
def State.burn (s : State) : State := { s with fresh := s.fresh + 1 }

/-! ### Outward effects -/

/-- Sends something outward. -/
def State.emit (s : State) (o : Output) : State := { s with out := o :: s.out }

/-- Raises an MSI-X vector (R301): the message leaves, or while the entry's vector control masks it, its pending bit is set. -/
def State.msix (s : State) (fn vec : Nat) : State :=
  if (s.getF .MSIX_TABLE_WORD (fn * 256 + 4 * vec + 3)).testBit 0 then
    { s with pba := smapSet 0 s.pba (fn * 2 + vec / 32) (withBit (smapGet 0 s.pba (fn * 2 + vec / 32)) (vec % 32) true) }
  else s.emit (.msix fn vec)

/-! ### Small accessors -/

/-- The global core index (R31). -/
def coreIx (cl : Cluster) (co : Core) : Nat := 8 * cl.val + co.val
/-- The physical engine's number in the model: 17 a core, the spare last. -/
def engIx (core e : Nat) : Nat := 17 * core + e
/-- A row group's number: 4 an engine. -/
def rgIx (pe r : Nat) : Nat := 4 * pe + r

def State.engine (s : State) (pe : Nat) : Engine := smapGet Engine.idle s.engines pe
def State.setEngine (s : State) (pe : Nat) (e : Engine) : State :=
  { s with engines := smapSet Engine.idle s.engines pe e }
def State.tracker (s : State) (rg : Nat) : Tracker := smapGet Tracker.fresh s.trackers rg
def State.setTracker (s : State) (rg : Nat) (t : Tracker) : State :=
  { s with trackers := smapSet Tracker.fresh s.trackers rg t }
def State.station (s : State) (id : Nat) : Station := smapGet Station.unloaded s.stations id
def State.setStation (s : State) (id : Nat) (x : Station) : State :=
  { s with stations := smapSet Station.unloaded s.stations id x }
def State.coreTiles (s : State) (core : Nat) : List Tile := smapGet [] s.tiles core
def State.setCoreTiles (s : State) (core : Nat) (ts : List Tile) : State := { s with tiles := smapSet [] s.tiles core ts }
def State.tmv (s : State) (core : Nat) : Tmv := smapGet Tmv.idle s.tmvs core
def State.setTmv (s : State) (core : Nat) (x : Tmv) : State := { s with tmvs := smapSet Tmv.idle s.tmvs core x }
def State.ctx (s : State) (c : Nat) : Context := smapGet Context.closed s.ctxs c
def State.setCtx (s : State) (c : Nat) (x : Context) : State := { s with ctxs := smapSet Context.closed s.ctxs c x }
def State.thread (s : State) (i : Nat) : ThreadState := smapGet ThreadState.idle s.threads i
def State.setThread (s : State) (i : Nat) (x : ThreadState) : State :=
  { s with threads := smapSet ThreadState.idle s.threads i x }
def State.group (s : State) (g : Nat) : Group := smapGet Group.free s.groups g
def State.setGroup (s : State) (g : Nat) (x : Group) : State := { s with groups := smapSet Group.free s.groups g x }
def State.part (s : State) (owner : Nat) : Option Partition := smapGet none s.parts owner
def State.setPart (s : State) (owner : Nat) (p : Option Partition) : State :=
  { s with parts := smapSet none s.parts owner p }
def State.fnst (s : State) (f : Nat) : Function := smapGet Function.reset s.fns f
def State.setFn (s : State) (f : Nat) (x : Function) : State := { s with fns := smapSet Function.reset s.fns f x }
def State.ocu (s : State) (c : Nat) : Ocu := smapGet Ocu.idle s.ocus c
def State.setOcu (s : State) (c : Nat) (x : Ocu) : State := { s with ocus := smapSet Ocu.idle s.ocus c x }
def State.owl (s : State) (i : Nat) : Owl := smapGet Owl.idle s.owls i
def State.setOwl (s : State) (i : Nat) (x : Owl) : State := { s with owls := smapSet Owl.idle s.owls i x }
def State.port (s : State) (p : Nat) : Port := smapGet Port.reset s.ports p
def State.setPort (s : State) (p : Nat) (x : Port) : State := { s with ports := smapSet Port.reset s.ports p x }
def State.shard (s : State) (n : Nat) : Shard := smapGet Shard.free s.shards n
def State.setShard (s : State) (n : Nat) (x : Shard) : State := { s with shards := smapSet Shard.free s.shards n x }
def State.beaver (s : State) (b : Nat) : Option Beaver := smapGet none s.beavers b
def State.setBeaver (s : State) (b : Nat) (x : Option Beaver) : State :=
  { s with beavers := smapSet none s.beavers b x }
def State.jobQ (s : State) (o : Nat) : List Job := smapGet [] s.jobs o
def State.setJobQ (s : State) (o : Nat) (q : List Job) : State := { s with jobs := smapSet [] s.jobs o q }
/-- A job without parameters. -/
def Job.blank (kind : JobKind) (owner : Nat) (tag : Option Nat) : Job :=
  { kind := kind, owner := owner, tag := tag, addr := 0, len := 0, force := false, station := 0, model := 0, layer := 0, shards := [], opws := [], table := [], tableOff := 0, tiles := 0, rgs := [], seen := none, what := none, column := none }
/-- Puts a job of the device's own at the head of the physical function's queue. -/
def State.queueOwn (s : State) (j : Job) : State := s.setJobQ 0 (j :: s.jobQ 0)
/-- A shard record as it is rebuilt from Sett: one that was not committed does not exist (R256, R271). -/
def Shard.rebuilt (x : Shard) : Shard :=
  match x.sett with
  | some d => if x.state = 1 then Shard.free else { x with digest := d, overdue := false }
  | none => Shard.free
def State.trace (s : State) (c : Nat) : TraceRing := smapGet TraceRing.empty s.traces c
def State.setTrace (s : State) (c : Nat) (x : TraceRing) : State :=
  { s with traces := smapSet TraceRing.empty s.traces c x }
def State.point (s : State) (n : Nat) : TensorPoint := smapGet TensorPoint.idle s.points n
def State.setPoint (s : State) (n : Nat) (x : TensorPoint) : State :=
  { s with points := smapSet TensorPoint.idle s.points n x }
def State.passQ (s : State) (c : Nat) : List CalPass := smapGet [] s.passes c
def State.setPassQ (s : State) (c : Nat) (q : List CalPass) : State := { s with passes := smapSet [] s.passes c q }
def State.pass (s : State) (c : Nat) : CalPass := (s.passQ c).headD CalPass.idle
def State.setPass (s : State) (c : Nat) (x : CalPass) : State := s.setPassQ c (x :: (s.passQ c).drop 1)

/-! ### Device time -/

/-- Adds cycles to a busy counter: 4 times the core plus the unit (R185, R429). -/
def addBusy (m : SMap Nat) (k n : Nat) : SMap Nat := smapSet 0 m k (smapGet 0 m k + n)

/-- The cycles that one core's tiles in progress add to its busy counters. -/
def busyOf (dt : Nat) (m : SMap Nat) (e : Nat × List Tile) : SMap Nat :=
  if e.2.isEmpty then m
  else
    [(16, 1), (17, 2), (18, 3)].foldl
      (fun m u => if e.2.any (fun t => t.unit == u.1) then addBusy m (4 * e.1 + u.2) dt else m)
      (addBusy m (4 * e.1) dt)

/-- The bank of a core memory that an offset in it selects: bits [7:5] (R33). -/
def cmBank (off : Nat) : Nat := off / 32 % 8

/-- The bank of a cluster memory that an offset in it selects: bits [9:6] (R36). -/
def kmBank (off : Nat) : Nat := off / 64 % 16

/-- The priority level of a requester of a core-memory bank (Table 1.10): 0 to 16 the engines' input ports, 17 the accumulator
spill, 18 the tile mover, 19 the host and management-processor port, 20 to 22 the DPE, VXE and PRE, 23 observability. -/
def cmLevel (req : Nat) : Nat := if req < 17 then 1 else if req < 18 then 2 else if req < 20 then 3 else if req < 23 then 4 else 5

/-- Where the requester last granted of a request's level is kept, for the levels that take turns. -/
def CmReq.turnKey (r : CmReq) : Nat := 16 * r.core + 2 * r.bank + (if cmLevel r.req = 4 then 1 else 0)

/-- A request's place among those of its level: at levels 3 and 4 its distance after the requester last granted (Table 1.10), at
the other levels its number. DESIGN CHOICE at level 1, where the table gives no order: the lower engine first (log entry 84). -/
def CmReq.turn (last : SMap Nat) (r : CmReq) : Nat :=
  let n := smapGet 0 last r.turnKey
  if cmLevel r.req = 3 then (r.req + (if n = 0 then 0 else 39 - n)) % 2
  else if cmLevel r.req = 4 then (r.req + (if n = 0 then 1 else 45 - n)) % 3
  else r.req

/-- The order of promoted requests at a bank: the one that has waited longest, then by Table 1.10 (R35). -/
def CmReq.before (last : SMap Nat) (a b : CmReq) : Bool :=
  a.since < b.since || (a.since == b.since && (cmLevel a.req < cmLevel b.req ||
    (cmLevel a.req == cmLevel b.req && a.turn last < b.turn last)))

/-- Whether two requests are at one bank. -/
def CmReq.sameBank (a b : CmReq) : Bool := a.core == b.core && a.bank == b.bank

/-- The promoted request of a bank that is granted next. -/
def nextCm (last : SMap Nat) (q : List CmReq) : Option CmReq :=
  q.foldl (fun m r => match m with | some x => if r.before last x then some r else some x | none => some r) none

/-- The grants of one bank over n cycles, one a cycle: what still waits there, and who was granted last of each level. -/
def grantCm : Nat → List CmReq → SMap Nat → List CmReq × SMap Nat
  | 0, q, last => (q, last)
  | n + 1, q, last =>
    match nextCm last q with
    | some r =>
      grantCm n (q.erase r) (if cmLevel r.req = 3 || cmLevel r.req = 4 then smapSet 0 last r.turnKey (r.req + 1) else last)
    | none => (q, last)

/-- The grants of all banks over n cycles: those of the bank of each request in turn, once for each bank. -/
def grantBanks (n : Nat) (q : List CmReq) (last : SMap Nat) : List CmReq × SMap Nat :=
  ((q.map (fun r => (r.core, r.bank))).dedup).foldl
    (fun (acc : List CmReq × SMap Nat) b =>
      let mine (r : CmReq) : Bool := r.core == b.1 && r.bank == b.2
      let g := grantCm (min n (acc.1.filter mine).length) (acc.1.filter mine) acc.2
      (acc.1.filter (fun r => !(mine r)) ++ g.1, g.2))
    (q, last)

/-- Brings the device to the time of an occurrence: the time counter runs on (R20) and what runs by itself does so: the
cycle counters, which hold at their maximum where R131 says so, the DAC's phase accumulator (R143; DESIGN CHOICE: it runs in every
MODE, log entry 55) and the grants of promoted requests, one per bank and cycle (R35). -/
def State.advance (s : State) (now : Nat) : State :=
  let t := max s.time now
  let dt := t - s.time
  { s with
    time := t
    busy := s.tiles.foldl (busyOf dt) s.busy
    ocus := s.ocus.map (fun e => if e.2.held.isEmpty then e else (e.1, { e.2 with stall := min (e.2.stall + dt) 4294967295 }))
    dac := { s.dac with phase := (s.dac.phase + 2 * s.getF .SDAC_FTW_FTW 0 * dt) % 4294967296 }
    cmWait := (grantBanks dt s.cmWait s.cmLast).1
    cmLast := (grantBanks dt s.cmWait s.cmLast).2 }

/-- The device time counter (R20): 64 bits, 1 a time-clock cycle; while the core PLL is off 40 an XREF cycle, so that it stands at
the last multiple of 40 ns since the PLL went off and is right again when the PLL locks. It counts from the last power-on. -/
def State.clock (s : State) : Nat :=
  ((match s.pllOff with
    | some t => t + (s.time - t) / 40 * 40
    | none => s.time) - s.base) % 18446744073709551616

/-- The core PLL goes off, or locks again (R20). -/
def State.setPll (s : State) (on : Bool) : State := { s with pllOff := if on then none else some (s.pllOff.getD s.time) }

/-! ### Power domains -/

def State.coreOn (s : State) (core : Nat) : Bool := (s.getF .CPT_DOM_CORE (core / 8)).testBit (core % 8)
def State.sharedOn (s : State) (c : Nat) : Bool := s.bit .CPT_DOM_SHARED c
/-- The bits of PWR_DIEDOM.ON: 0 HOST, 1 LINK, 2 GATE, 3 LOADER, 4 DAC, 5 OBS. -/
def State.dieOn (s : State) (b : Nat) : Bool := (s.getF .PWR_DIEDOM_ON 0).testBit b

/-- Whether the domain of a register block is on (R27). -/
def State.blockOn (s : State) (b : Block) (inst per : Nat) : Bool :=
  match b with
  | .aon => true
  | .fn => true
  | .gate => s.dieOn 2
  | .loader => s.dieOn 3
  | .link => s.dieOn 1
  | .dac => s.dieOn 4
  | .obs => s.dieOn 5
  | .shared => s.sharedOn (inst / per)
  | .core => s.coreOn (inst / per)

/-! ### Limited-change settings (R419) -/

/-- The manufacture value of a setting (Table 16.3). -/
def lcDefault (n : Nat) : Nat := match n with | 0 => 128 | 2 => 0xFFF | 3 => 0xFF | 4 => 60 | _ => 0

/-- The change slots of a setting that are spent. -/
def State.lcSlots (s : State) (n : Nat) : List LcSlot := smapGet [] s.lc n

/-- The value in force: that of the highest slot that committed, or the manufacture value. -/
def State.setting (s : State) (n : Nat) : Nat :=
  match ((s.lcSlots n).filter (fun x => x.ok)).getLast? with
  | some x => x.value
  | none => lcDefault n

/-! ### Memory -/

/-- The BAR2 offset of a cluster memory and of a core memory (Table 1.8). -/
def kmBase (c : Nat) : Nat := c * 0x400000
def cmBase (core : Nat) : Nat := 0x4000000 + core * 0x80000

/-- The memory that a BAR2 offset lies in: a cluster's, or a core's, with the offset in it. -/
inductive Mem where
  | km (c off : Nat)
  | cm (core off : Nat)
deriving DecidableEq, Repr

/-- The memory of a BAR2 offset below 128 MiB. -/
def memOf (a : Nat) : Mem :=
  if a < 0x4000000 then .km (a / 0x400000) (a % 0x400000)
  else .cm ((a - 0x4000000) / 0x80000) ((a - 0x4000000) % 0x80000)

/-- Program memory (R188) or a descriptor area (R198), which no host or sequencer write reaches. -/
def guarded (a : Nat) : Bool :=
  match memOf a with
  | .km _ off => 0x3F0000 ≤ off
  | .cm _ off => 0x7C000 ≤ off

/-- Whether the memory at an offset is powered. -/
def State.memOn (s : State) (a : Nat) : Bool :=
  match memOf a with
  | .km c _ => s.sharedOn c
  | .cm core _ => s.coreOn core

/-- What an address of SRAM that is not listed reads as: every domain is filled with zeros when it comes on (R29). -/
def memDefault : Byte := 0#8

/-- One byte of SRAM. -/
def State.byte (s : State) (a : Nat) : Byte := smapGet memDefault s.sram a

/-- Bytes of SRAM. -/
def State.bytes (s : State) (a n : Nat) : List Byte := (List.range n).map (fun i => s.byte (a + i))

/-- Writes one byte of a memory image. -/
def setByte (m : SMap Byte) (a : Nat) (b : Byte) : SMap Byte := smapSet memDefault m a b

/-- Writes bytes into a memory image in ascending order. -/
def setBytes : SMap Byte → Nat → List Byte → SMap Byte
  | m, _, [] => m
  | m, a, b :: bs => setBytes (setByte m a b) (a + 1) bs

/-- The check bits of one word. -/
def State.syndrome (s : State) (w : Nat) : Nat := smapGet 0 s.ecc w

/-- A syndrome is of a single-bit error: a column of the code has weight 1, 3 or 5, and the poison mark's syndrome 7 (R174). -/
def correctable (syn : Nat) : Bool :=
  [1, 3, 5].contains ((List.range 8).filter (fun i => syn.testBit i)).length

/-- A word is poison: the mark or an uncorrectable error (R174). -/
def poisonous (syn : Nat) : Bool := syn != 0 && !(correctable syn)

/-- Whole bytes written by the device itself with correct check bits: loader, management processor, zero-fill. -/
def State.store (s : State) (a : Nat) (bs : List Byte) : State :=
  { s with
    sram := setBytes s.sram a bs
    ecc := s.ecc.filter (fun e => !(a / 8 ≤ e.1 && e.1 ≤ (a + bs.length - 1) / 8 && 0 < bs.length)) }

/-- Zeros with valid check bits over a range (R29, R316). -/
def State.zeroFill (s : State) (a n : Nat) : State :=
  { s with
    sram := s.sram.filter (fun e => !(a ≤ e.1 && e.1 < a + n))
    ecc := s.ecc.filter (fun e => !(a / 8 ≤ e.1 && e.1 < (a + n) / 8)) }

/-- A little-endian number of bytes. -/
def leNat : List Byte → Nat
  | [] => 0
  | b :: bs => b.toNat + 256 * leNat bs

/-- Bytes of a vector or record padded with zeros to its stride. -/
def padTo (n : Nat) (bs : List Byte) : List Byte := bs ++ List.replicate (n - bs.length) 0

/-- n little-endian bytes of a number. -/
def leBytes : Nat → Nat → List Byte
  | 0, _ => []
  | n + 1, v => BitVec.ofNat 8 (v % 256) :: leBytes n (v / 256)

/-- The 32-bit word at an address. -/
def State.word (s : State) (a : Nat) : Nat := leNat (s.bytes a 4)

/-! ### Ownership of memory -/

/-- Whether an extent of the partition covers the 4 KiB page of an offset (R195, R219). -/
def Partition.covers (p : Partition) (a : Nat) : Bool :=
  match memOf a with
  | .km c off => p.km.any (fun x => x.1 == c && x.2.1 ≤ off && off < x.2.1 + x.2.2)
  | .cm core off => p.cm.any (fun x => x.1 == core && x.2.1 ≤ off && off < x.2.1 + x.2.2)

/-- The owner whose allocation holds an offset (R298, R430). -/
def State.memOwner (s : State) (a : Nat) : Option Nat :=
  (s.parts.find? (fun e => match e.2 with | some p => p.covers a | none => false)).map (·.1)

/-- Whether an owner's allocation holds the offset (R195). -/
def State.owns (s : State) (owner a : Nat) : Bool :=
  match s.part owner with
  | some p => p.covers a && !(guarded a)
  | none => false

/-- The owner that a master identity stands for (Table 11.5, R430). -/
def masterOwner (m : Nat) : Nat := if 0x80 ≤ m then m - 0x7F else 0

/-- The master identity of a function (Table 11.5). -/
def fnMaster (f : Nat) : Nat := if f = 0 then 0x20 else 0x7F + f

/-! ### Totals of the tenant counter page (Table 17.2) -/

/-- Adds to a total of an owner: 0 SAT, 1 POIS, 2 TORN, 3 LATE, 4 OWL, 5 ECCC, 6 ECCU, 7 REC; holds at its maximum. -/
def State.total (s : State) (owner which n : Nat) : State :=
  let v := min (smapGet 0 s.totals (8 * owner + which) + n) 4294967295
  { s with totals := smapSet 0 s.totals (8 * owner + which) v }

end Sys2Proof.Machine
end

