-- ==== Sys2Proof/Machine/Crypto.lean ====
section
/-!
DEFINITION. The cryptographic functions that the manual names: SHA-256 (R245, R438, R441), SHA-384, HKDF-SHA-384, ECDSA and
ECDH over P-384 (R217, R248, R424), AES-256-GCM (R245, R248) and CRC-32 (R411). The manual names these functions and does
not define them; the definitions are those of the public standards (FIPS 180-4, FIPS 197, FIPS 186-5, SP 800-38D, RFC 5869,
IEEE 802.3). PRESUMED, safe or unsafe as the assumption log says.
-/

namespace Sys2Proof.Machine
open Sys2Proof

/-- A big-endian number of bytes. -/
def beNat (bs : List Byte) : Nat := bs.foldl (fun a b => 256 * a + b.toNat) 0

/-- n big-endian bytes of a number. -/
def beBytes (n v : Nat) : List Byte := (leBytes n v).reverse

/-- Cuts a list into groups of k; the fuel bounds their number. -/
def pieces {α : Type} (k : Nat) : Nat → List α → List (List α)
  | 0, _ => []
  | n + 1, xs => if xs.isEmpty then [] else xs.take k :: pieces k n (xs.drop k)

/-! ### CRC-32 (IEEE 802.3) -/

/-- One bit of the reflected division. -/
def crcBit (c : Nat) : Nat := if c.testBit 0 then (c / 2) ^^^ 0xEDB88320 else c / 2

/-- CRC-32 of bytes. -/
def crc32 (bs : List Byte) : Nat :=
  (bs.foldl (fun c b => (List.range 8).foldl (fun c _ => crcBit c) (c ^^^ b.toNat)) 0xFFFFFFFF) ^^^ 0xFFFFFFFF

/-! ### SHA-2 (FIPS 180-4) -/

/-- The first 80 primes. -/
def primes80 : List Nat :=
  ((List.range 410).filter (fun p => 2 ≤ p && (List.range p).all (fun d => d < 2 || p % d != 0))).take 80

/-- The greatest number whose k-th power is at most x, found from the highest bit down. -/
def rootDown (k x : Nat) : Nat → Nat → Nat
  | 0, r => r
  | b + 1, r => rootDown k x b (if (r + 2 ^ b) ^ k ≤ x then r + 2 ^ b else r)

/-- The first 64 bits of the fraction of the cube roots of the first 80 primes: the round constants. -/
def sha512K : List (BitVec 64) := primes80.map (fun p => BitVec.ofNat 64 (rootDown 3 (p * 2 ^ 192) 68 0))

/-- The first 64 bits of the fraction of the square root of a prime. -/
def sqrtFrac (p : Nat) : Nat := rootDown 2 (p * 2 ^ 128) 70 0 % 2 ^ 64

/-- The round constants of SHA-256. -/
def sha256K : List (BitVec 32) := (sha512K.take 64).map (fun k => BitVec.ofNat 32 (k.toNat / 2 ^ 32))

/-- The initial hash value of SHA-256. -/
def sha256Init : List (BitVec 32) := (primes80.take 8).map (fun p => BitVec.ofNat 32 (sqrtFrac p / 2 ^ 32))

/-- The initial hash value of SHA-384. -/
def sha384Init : List (BitVec 64) := ((primes80.drop 8).take 8).map (fun p => BitVec.ofNat 64 (sqrtFrac p))

/-- The amounts of the six functions: two rotations and a rotation or shift each. -/
structure ShaShape where
  bigA : Nat × Nat × Nat
  bigE : Nat × Nat × Nat
  small0 : Nat × Nat × Nat
  small1 : Nat × Nat × Nat
  rounds : Nat

def sha256Shape : ShaShape :=
  { bigA := (2, 13, 22), bigE := (6, 11, 25), small0 := (7, 18, 3), small1 := (17, 19, 10), rounds := 64 }
def sha512Shape : ShaShape :=
  { bigA := (28, 34, 39), bigE := (14, 18, 41), small0 := (1, 8, 7), small1 := (19, 61, 6), rounds := 80 }

/-- Three rotations. -/
def rot3 {w : Nat} (p : Nat × Nat × Nat) (x : BitVec w) : BitVec w :=
  x.rotateRight p.1 ^^^ x.rotateRight p.2.1 ^^^ x.rotateRight p.2.2

/-- Two rotations and a shift. -/
def rotShift {w : Nat} (p : Nat × Nat × Nat) (x : BitVec w) : BitVec w :=
  x.rotateRight p.1 ^^^ x.rotateRight p.2.1 ^^^ (x >>> p.2.2)

/-- The message schedule, newest word first: n words more. -/
def shaSchedule {w : Nat} (h : ShaShape) : Nat → List (BitVec w) → List (BitVec w)
  | 0, ws => ws
  | n + 1, ws =>
    shaSchedule h n
      ((rotShift h.small1 (ws.getD 1 0) + ws.getD 6 0 + rotShift h.small0 (ws.getD 14 0) + ws.getD 15 0) :: ws)

/-- One round on the eight working variables. -/
def shaRound {w : Nat} (h : ShaShape) (v : List (BitVec w)) (kw : BitVec w × BitVec w) : List (BitVec w) :=
  match v with
  | [a, b, c, d, e, f, g, hh] =>
    let t1 := hh + rot3 h.bigE e + ((e &&& f) ^^^ (~~~e &&& g)) + kw.1 + kw.2
    let t2 := rot3 h.bigA a + ((a &&& b) ^^^ (a &&& c) ^^^ (b &&& c))
    [t1 + t2, a, b, c, d + t1, e, f, g]
  | _ => v

/-- One block. -/
def shaBlock {w : Nat} (h : ShaShape) (ks : List (BitVec w)) (v : List (BitVec w)) (block : List Byte) : List (BitVec w) :=
  let ws := (pieces (w / 8) 16 block).map (fun g => BitVec.ofNat w (beNat g))
  let sched := (shaSchedule h (h.rounds - 16) ws.reverse).reverse
  List.zipWith (· + ·) v ((ks.zip sched).foldl (shaRound h) v)

/-- The padded message: a bit 1, zeros, and the length in bits as the last eighth of a block. -/
def shaPad (block : Nat) (m : List Byte) : List Byte :=
  let l := block / 8
  m ++ [0x80#8] ++ List.replicate ((2 * block - 1 - l - m.length % block) % block) 0#8 ++ beBytes l (8 * m.length)

/-- A digest with its words. -/
def shaRun {w : Nat} (h : ShaShape) (ks init : List (BitVec w)) (m : List Byte) : List (BitVec w) :=
  (pieces (2 * w) (m.length / (2 * w) + 2) (shaPad (2 * w) m)).foldl (shaBlock h ks) init

/-- SHA-256: 32 bytes. -/
def sha256 (m : List Byte) : List Byte :=
  ((shaRun sha256Shape sha256K sha256Init m).map (fun x => beBytes 4 x.toNat)).flatten

/-- SHA-384: 48 bytes. -/
def sha384 (m : List Byte) : List Byte :=
  (((shaRun sha512Shape sha512K sha384Init m).take 6).map (fun x => beBytes 8 x.toNat)).flatten

/-! ### HKDF (RFC 5869) -/

/-- HMAC-SHA-384. -/
def hmac384 (key m : List Byte) : List Byte :=
  let k0 := if 128 < key.length then sha384 key else key
  let k := k0 ++ List.replicate (128 - k0.length) 0#8
  sha384 (k.map (· ^^^ 0x5C#8) ++ sha384 (k.map (· ^^^ 0x36#8) ++ m))

/-- HKDF-SHA-384 for up to 48 bytes. -/
def hkdf384 (salt ikm info : List Byte) (n : Nat) : List Byte := (hmac384 (hmac384 salt ikm) (info ++ [1#8])).take n

/-! ### P-384 (FIPS 186-5, SP 800-186) -/

def p384P : Nat := 2 ^ 384 - 2 ^ 128 - 2 ^ 96 + 2 ^ 32 - 1
def p384B : Nat := 0xb3312fa7e23ee7e4988e056be3f82d19181d9c6efe8141120314088f5013875ac656398d8a2ed19d2a85c8edd3ec2aef
def p384N : Nat := 0xffffffffffffffffffffffffffffffffffffffffffffffffc7634d81f4372ddf581a0db248b0a77aecec196accc52973
def p384G : Nat × Nat :=
  (0xaa87ca22be8b05378eb1c71ef320ad746e1d3b628ba79b9859f741e082542a385502f25dbf55296c3a545e3872760ab7,
   0x3617de4a96262c6f5d9e98bf9292dc29f8f41dbd289a147ce9da3113b5f0b8c00a60b1ce1d7e819d7a431d7c90ea0e5f)

/-- A power modulo m, by the bits of the exponent from the top. -/
def powMod (b e m : Nat) : Nat → Nat
  | 0 => 1 % m
  | n + 1 =>
    let r := powMod b (e / 2) m n
    if e % 2 = 1 then r * r % m * b % m else r * r % m

/-- The inverse modulo a prime. -/
def invMod (x m : Nat) : Nat := powMod x (m - 2) m 384

/-- Subtraction modulo the prime of the field. -/
def subP (a b : Nat) : Nat := (a + p384P - b % p384P) % p384P

/-- A point of the curve; none is the point at infinity. -/
abbrev Point := Option (Nat × Nat)

/-- The third point of a line of slope l through two points. -/
def chord (l : Nat) (a b : Nat × Nat) : Point :=
  let x := subP (subP (l * l) a.1) b.1
  some (x, subP (l * subP a.1 x) a.2)

/-- The sum of two points. -/
def addPoint (a b : Point) : Point :=
  match a, b with
  | none, _ => b
  | _, none => a
  | some p, some q =>
    if p.1 = q.1 then
      if (p.2 + q.2) % p384P = 0 then none
      else chord (subP (3 * p.1 * p.1) 3 * invMod (2 * p.2 % p384P) p384P % p384P) p q
    else chord (subP q.2 p.2 * invMod (subP q.1 p.1) p384P % p384P) p q

/-- A multiple of a point; the fuel is the number of bits. -/
def mulPoint (k : Nat) (p : Point) : Nat → Point
  | 0 => none
  | n + 1 =>
    let h := mulPoint (k / 2) p n
    let d := addPoint h h
    if k % 2 = 1 then addPoint d p else d

/-- Whether coordinates lie on the curve; the point at infinity has none. -/
def onCurve (x y : Nat) : Bool :=
  x < p384P && y < p384P && y * y % p384P == (subP (x * x * x) (3 * x) + p384B) % p384P

/-- ECDSA verification over P-384 with SHA-384. -/
def ecdsaVerify (m : List Byte) (x y r s : Nat) : Bool :=
  onCurve x y && 0 < r && r < p384N && 0 < s && s < p384N &&
  (let w := invMod s p384N
   let z := beNat (sha384 m)
   match addPoint (mulPoint (z * w % p384N) (some p384G) 384) (mulPoint (r * w % p384N) (some (x, y)) 384) with
   | some q => q.1 % p384N == r
   | none => false)

/-- The X coordinate of a Diffie-Hellman product, 48 bytes. -/
def ecdhX (k x y : Nat) : List Byte :=
  match mulPoint k (some (x, y)) 384 with
  | some q => beBytes 48 q.1
  | none => beBytes 48 0

/-! ### AES-256 (FIPS 197) -/

/-- Multiplication by x in GF(2^8). -/
def xtime (a : Byte) : Byte := (a <<< 1) ^^^ (if a.getLsbD 7 then 0x1B#8 else 0#8)

/-- Multiplication in GF(2^8). -/
def gmul (a b : Byte) : Byte :=
  ((List.range 8).foldl (fun (acc : Byte × Byte) i =>
    (if b.getLsbD i then acc.1 ^^^ acc.2 else acc.1, xtime acc.2)) (0#8, a)).1

/-- The inverse in GF(2^8), 0 for 0: the 254th power. -/
def ginv (a : Byte) : Byte :=
  let sq (x : Byte) : Byte := gmul x x
  let a2 := sq a
  let a4 := sq a2
  let a8 := sq a4
  let a16 := sq a8
  let a32 := sq a16
  let a64 := sq a32
  gmul (gmul (gmul a2 a4) (gmul a8 a16)) (gmul (gmul a32 a64) (sq a64))

/-- The substitution box. -/
def sbox : List Byte :=
  (List.range 256).map (fun i =>
    let b := ginv (BitVec.ofNat 8 i)
    b ^^^ b.rotateLeft 1 ^^^ b.rotateLeft 2 ^^^ b.rotateLeft 3 ^^^ b.rotateLeft 4 ^^^ 0x63#8)

def subByte (b : Byte) : Byte := sbox.getD b.toNat 0

/-- Exclusive or of two blocks. -/
def xorBytes (a b : List Byte) : List Byte := List.zipWith (· ^^^ ·) a b

/-- The expanded key as words of four bytes, newest first; i counts the words made. -/
def expandKey : Nat → Nat → Byte → List (List Byte) → List (List Byte)
  | 0, _, _, ws => ws
  | n + 1, i, rc, ws =>
    let t := ws.headD []
    let t1 :=
      if i % 8 = 0 then xorBytes ((t.drop 1 ++ t.take 1).map subByte) [rc, 0, 0, 0]
      else if i % 8 = 4 then t.map subByte else t
    expandKey n (i + 1) (if i % 8 = 0 then xtime rc else rc) (xorBytes (ws.getD 7 []) t1 :: ws)

/-- The 15 round keys of a 32-byte key. -/
def roundKeys (key : List Byte) : List (List Byte) :=
  (pieces 4 15 ((expandKey 52 8 1#8 (pieces 4 8 key).reverse).reverse)).map List.flatten

/-- Rows shifted, on a block by columns. -/
def shiftRows (b : List Byte) : List Byte := (List.range 16).map (fun i => b.getD ((i + 4 * (i % 4)) % 16) 0)

/-- One column mixed. -/
def mixColumn (c : List Byte) : List Byte :=
  (List.range 4).map (fun i =>
    xtime (c.getD i 0) ^^^ (xtime (c.getD ((i + 1) % 4) 0) ^^^ c.getD ((i + 1) % 4) 0) ^^^ c.getD ((i + 2) % 4) 0 ^^^
      c.getD ((i + 3) % 4) 0)

/-- The cipher under expanded round keys. -/
def aesBlock (ks : List (List Byte)) (b : List Byte) : List Byte :=
  let mid := ((ks.drop 1).take 13).foldl
    (fun b k => xorBytes (((pieces 4 4 (shiftRows (b.map subByte))).map mixColumn).flatten) k) (xorBytes b (ks.headD []))
  xorBytes (shiftRows (mid.map subByte)) (ks.getD 14 [])

/-! ### GCM (SP 800-38D) -/

/-- Multiplication in GF(2^128) with the first bit as the coefficient of 1. -/
def gcmMul (x y : BitVec 128) : BitVec 128 :=
  ((List.range 128).foldl (fun (acc : BitVec 128 × BitVec 128) i =>
    (if x.getMsbD i then acc.1 ^^^ acc.2 else acc.1,
     (acc.2 >>> 1) ^^^ (if acc.2.getLsbD 0 then 0xE1000000000000000000000000000000#128 else 0#128))) (0#128, y)).1

/-- Zeros up to a whole block. -/
def pad16 (bs : List Byte) : List Byte := bs ++ List.replicate ((16 - bs.length % 16) % 16) 0#8

/-- The universal hash over whole blocks. -/
def ghash (h : BitVec 128) (bs : List Byte) : BitVec 128 :=
  (pieces 16 (bs.length / 16 + 1) bs).foldl (fun y b => gcmMul (y ^^^ BitVec.ofNat 128 (beNat b)) h) 0#128

/-- Counter mode from the counter block after J0. -/
def gctr (ks : List (List Byte)) (iv data : List Byte) : List Byte :=
  ((pieces 16 (data.length / 16 + 1) data).zipIdx.map
    (fun p => xorBytes p.1 (aesBlock ks (iv ++ beBytes 4 (p.2 + 2))))).flatten

/-- AES-256-GCM decryption with a 12-byte IV and a 16-byte tag; none when the tag fails. -/
def gcmDecrypt (key iv aad cipher tag : List Byte) : Option (List Byte) :=
  let ks := roundKeys key
  let h := BitVec.ofNat 128 (beNat (aesBlock ks (List.replicate 16 0#8)))
  let y := ghash h (pad16 aad ++ pad16 cipher ++ beBytes 8 (8 * aad.length) ++ beBytes 8 (8 * cipher.length))
  let t := xorBytes (beBytes 16 y.toNat) (aesBlock ks (iv ++ beBytes 4 1))
  if t = tag then some (gctr ks iv cipher) else none

/-! ### The identity of the device (Table 9.2, R423) -/

/-- The first 16 bytes of SHA-384 of the identity public key. -/
def deviceDigest : List Byte := (sha384 (Config.identityX ++ Config.identityY)).take 16

end Sys2Proof.Machine
end

