-- ==== Sys2Proof/Machine/Events.lean ====
section
/-!
DEFINITION. Events and their paths (R414, R442 to R445), trace records (R434, R436), service messages (R321) and command
completions (R309). Raising an event writes `events`, `traces`, `out` and `pba` alone.
-/

namespace Sys2Proof.Machine
open Sys2Proof

/-! ### The paths of an event -/

/-- The codes of Table 17.7 with a class: 0 A, 1 B, 2 C. -/
def eventClass (code : Nat) : Nat := if code < 0x200 then 0 else if code < 0x300 then 1 else if code = 0xFFFF then 1 else 2

def Events.path (e : Events) (i : Nat) : EvPath := smapGet EvPath.empty e.paths i
def Events.setPath (e : Events) (i : Nat) (p : EvPath) : Events := { e with paths := smapSet EvPath.empty e.paths i p }

/-- Joins the coalescing table of a path (R444): the entry of its code, owner and cluster, a new one of the 32, or the entry
of code 0xFFFF. -/
def EvPath.join (p : EvPath) (r : EventRec) : EvPath :=
  let key (x : EventRec) : Bool := x.code == r.code && x.owner == r.owner && x.cluster == r.cluster
  let bump (x : EventRec) : EventRec := { x with count := x.count + r.count, time := r.time }
  if p.table.any key then { p with table := p.table.map (fun x => if key x then bump x else x) }
  else if (p.table.filter (fun x => x.code != 0xFFFF)).length < 32 then
    { p with table := p.table ++ [{ r with supp := true }] }
  else if p.table.any (fun x => x.code == 0xFFFF) then
    { p with table := p.table.map (fun x => if x.code == 0xFFFF then bump x else x) }
  else { p with table := p.table ++ [{ r with code := 0xFFFF, cls := 1, supp := true, owner := 0xFF, cluster := 0xFF }] }

/-- How many records of a list are not of class A. -/
def notA (rs : List EventRec) : Nat := (rs.filter (fun r => r.cls != 0)).length

/-- Drops the oldest record of a class. -/
def dropOldest (cls : Nat) : List EventRec → List EventRec
  | [] => []
  | r :: rs => if r.cls = cls then rs else r :: dropOldest cls rs

/-- Whether a record enters a path ahead of one raised in the same cycle: class A first, then ascending code (R444). -/
def EventRec.ahead (r x : EventRec) : Bool :=
  x.time == r.time && !x.supp && (r.cls == 0 && x.cls != 0 || ((r.cls == 0) == (x.cls == 0) && r.code < x.code))

/-- The records of a path with one more: behind all but those of the same cycle that it goes ahead of. -/
def enter (rs : List EventRec) (r : EventRec) : List EventRec :=
  let k := rs.length - (rs.reverse.takeWhile r.ahead).length
  rs.take k ++ r :: rs.drop k

/-- Firmware pages join the gather list, or begin a commit when none is in progress (R413). -/
def Events.gathered (e : Events) (urgent : Bool) : Events :=
  if e.commit.isNone then { e with commit := some false } else { e with gather := true, urgent := e.urgent || urgent }

/-- Writes a record into the log ring of 512 (R414): half of the slots take only class A; a full ring loses its oldest
record of class C, then of class B, then for a class A record of class A. -/
def Events.ring (e : Events) (r : EventRec) : Events :=
  let p := e.path 0
  let room := if r.cls = 0 then p.recs.length < 512 else p.recs.length < 512 && notA p.recs < 256
  let put (rs : List EventRec) (e : Events) : Events := (e.setPath 0 { p with recs := enter rs r }).gathered (r.cls == 0)
  if room then put p.recs e
  else if p.recs.any (fun x => x.cls == 2) then put (dropOldest 2 p.recs) e
  else if p.recs.any (fun x => x.cls == 1) then put (dropOldest 1 p.recs) e
  else if r.cls = 0 then put (dropOldest 0 p.recs) { e with alost := min (e.alost + 1) 65535 }
  else { e with dropped := min (e.dropped + 1) 65535 }

/-- Offers a record to the Sett log: class A bypasses the bucket of 64 that refills at 16 records a second (R444). -/
def Events.log (e : Events) (now : Nat) (r : EventRec) : Events :=
  let e := { e with bucket := min 4000000000 (e.bucket + (now - e.bucketAt)), bucketAt := max now e.bucketAt }
  if r.cls = 0 then e.ring r
  else if 62500000 ≤ e.bucket then { e with bucket := e.bucket - 62500000 }.ring r
  else if r.cls = 1 then e.setPath 0 ((e.path 0).join r)
  else { e with logDrop := min (e.logDrop + 1) 65535 }

/-- Whether a queue of 64 has room for a class: 16 slots take only class A (R444). -/
def queueRoom (rs : List EventRec) (cls : Nat) : Bool :=
  if cls = 0 then rs.length < 64 else rs.length < 64 && notA rs + ((rs.length - notA rs) - 16) < 48

/-- Whether entering a queue raises vector 4: it becomes non-empty or the record is of class A (R444). -/
def queueWakes (rs : List EventRec) (cls : Nat) : Bool := rs.isEmpty || cls == 0

/-- Offers a class A or B record to a function's queue; the flag tells that vector 4 is raised. -/
def Events.queue (e : Events) (f : Nat) (r : EventRec) : Events × Bool :=
  let p := e.path (1 + f)
  if queueRoom p.recs r.cls then (e.setPath (1 + f) { p with recs := enter p.recs r }, queueWakes p.recs r.cls)
  else if r.cls = 0 then
    if e.pending.length < 256 then ({ e with pending := e.pending ++ [(f, r)] }, false)
    else
      let v := min (smapGet 0 e.amiss f + 1) 15
      ({ e with amiss := smapSet 0 e.amiss f v }, false)
  else
    let v := min (smapGet 0 e.bsupp f + 1) 65535
    ({ e.setPath (1 + f) (p.join r) with bsupp := smapSet 0 e.bsupp f v }, false)

/-! ### Trace -/

/-- Writes a record into a cluster's trace ring of 4,096, or counts it lost (R436). -/
def TraceRing.put (t : TraceRing) (r : TraceRec) : TraceRing :=
  if 4096 ≤ t.recs.length + (if 0 < t.lost then 1 else 0) then
    { t with lost := t.lost + 1, blockLost := t.blockLost + 1, all := min (t.all + 1) 4294967295 }
  else
    let loss : List TraceRec := if 0 < t.lost then [{ r with kind := 9, data := t.lost }] else []
    { t with recs := t.recs ++ loss ++ [r], lost := 0, oldest := if t.recs.isEmpty then r.time else t.oldest }

/-- Whether a ring has no room for a record. -/
def TraceRing.full (t : TraceRing) : Bool := 4096 ≤ t.recs.length + (if 0 < t.lost then 1 else 0)

/-! ### Raising an event -/

/-- An event of the device at this moment; 0xFF and 0xFFFF stand for none. -/
def State.event (s : State) (code owner cluster unit station : Nat) (detail : List Byte) : EventRec :=
  { time := s.clock, code := code, cls := eventClass code, supp := false, owner := owner, cluster := cluster, unit := unit,
    station := station, seq := s.events.seq + 1, count := 1, first := s.clock, detail := detail }

/-- Offers a record to the queues of owners; the owners whose vector 4 is raised. -/
def Events.queues (e : Events) (r : EventRec) (owners : List Nat) : Events × List Nat :=
  owners.foldl
    (fun acc f =>
      let q := acc.1.queue f r
      (q.1, if q.2 then acc.2 ++ [f] else acc.2)) (e, [])

/-- Offers an event to the Sett log, to the queues of the physical function and of the owners it names unless it is of class
C, and while trace is enabled to the trace drain of its cluster (R442). -/
def State.raiseTo (s : State) (owners : List Nat) (code owner cluster unit station : Nat) (detail : List Byte) : State :=
  let r := s.event code owner cluster unit station detail
  let e0 := { s.events with seq := r.seq }.log s.time r
  let named := if r.cls = 2 then [] else 0 :: owners.filter (fun f => 1 ≤ f && f ≤ 128)
  let q := e0.queues r named
  let c := if cluster < 16 then cluster else 0
  let traced := s.bit .OBS_TRCFG_EN 0
  let e1 := if traced && r.cls = 2 && (s.trace c).full then { q.1 with trcDrop := min (q.1.trcDrop + 1) 65535 } else q.1
  let s1 := { s with events := e1 }
  let s2 := if traced then
      s1.setTrace c ((s1.trace c).put { time := s.clock, kind := 10, src := c, pc := 0, data := code }) else s1
  q.2.foldl (fun t f => t.msix f 4) s2

/-- An event that names one owner, 0xFF for none. -/
def State.raise (s : State) (code owner cluster unit station : Nat) (detail : List Byte) : State :=
  s.raiseTo [owner] code owner cluster unit station detail

/-! ### Service messages -/

/-- Puts a message into the mailbox itself (R321). -/
def State.svcFill (s : State) (f : Nat) (ws : List Word) : State :=
  let s := (List.range 16).foldl (fun t i => t.setF .SVC_DATA_WORD (f * 16 + i) (ws.getD i 0).toNat) s
  (s.setF .SVC_STAT_FULL f 1).msix f 1

/-- Sends a service message to a function: into the mailbox, behind it in the queue of 32, or lost (R321, R322). While the
function is in reset none is written (R318). -/
def State.service (s : State) (f code : Nat) (ws : List Word) : State :=
  let x := s.fnst f
  if x.flr.isSome then s else
  let msg := BitVec.ofNat 32 (code + 65536 * (x.seq % 65536)) :: ws
  let s := s.setFn f { x with seq := (x.seq + 1) % 65536 }
  if !(s.bit .SVC_STAT_FULL f) then s.svcFill f msg
  else if x.messages.length < 32 then s.setFn f { s.fnst f with messages := x.messages ++ [msg] }
  else s.addHold .SVC_STAT_LOST f 1

/-! ### Completions -/

/-- The number of entries of a function's rings. -/
def State.ringSize (s : State) (f : Nat) : Nat := 2 ^ s.getF .CMD_CFG_SIZE f

/-- Whether the completion ring has room. -/
def State.cplRoom (s : State) (f : Nat) : Bool :=
  (s.getF .CPL_TAIL_INDEX f + 1) % s.ringSize f != s.getF .CPL_HEAD_INDEX f

/-- The 16 bytes of a completion entry (Table 11.8). -/
def Completion.entry (c : Completion) (phase : Bool) : List Byte :=
  leBytes 4 (c.cls * 16777216 + phase.toNat * 65536 + c.tag % 65536) ++
  leBytes 4 (c.sect % 256 * 65536 + c.code % 65536) ++ leBytes 4 c.value ++ leBytes 4 c.info

/-- Writes a completion entry into the ring with the function's routing ID and raises vector 0 (R309). -/
def State.cplWrite (s : State) (f : Nat) (c : Completion) : State :=
  let tail := s.getF .CPL_TAIL_INDEX f
  let base := s.getF .CPL_BASEL_ADDR f * 64 + s.getF .CPL_BASEH_ADDR f * 4294967296
  let x := s.fnst f
  let last := tail + 1 == s.ringSize f
  let s := s.emit (.hostWrite f (base + 16 * tail) (c.entry (!x.wrapped)))
  let s := s.setFn f { x with wrapped := if last then !x.wrapped else x.wrapped }
  (s.setF .CPL_TAIL_INDEX f ((tail + 1) % s.ringSize f)).msix f 0

/-- Completes a command: into the ring, or while the ring is full into the internal queue (R306). While the function is in
reset or its rings are not in use nothing is written (R318). -/
def State.complete (s : State) (f : Nat) (c : Completion) : State :=
  let x := s.fnst f
  if x.flr.isSome || !(s.bit .CMD_CFG_EN f) then s
  else if x.waiting.isEmpty && s.cplRoom f then s.cplWrite f c
  else s.setFn f { x with waiting := x.waiting ++ [c] }

/-- A class 0 completion (Table 11.9). -/
def result (cls tag code value info : Nat) : Completion :=
  { cls := cls, tag := tag, sect := 0, code := code, value := value, info := info }

/-- A denied access of a tenant (R298 to R300, R311): TENV_STAT.DENIED counts and holds. -/
def State.denied (s : State) (f : Nat) : State := if f = 0 then s else s.addHold .TENV_STAT_DENIED f 1

/-- What an access over a function's own BARs does (R296, R318): while the virtual function is disabled or in reset it completes as
Unsupported Request; while PERST# is asserted none arrives. -/
def State.hosted (s : State) (fn : Nat) (f : State → State) : State :=
  if s.perst then s
  else if fn = 0 then f s
  else if (s.fnst fn).enabled && (s.fnst fn).flr.isNone then f s
  else s.emit .unsupported

end Sys2Proof.Machine
end

