-- ==== Sys2Proof/Machine/Memory.lean ====
section
/-!
DEFINITION. Accesses to SRAM under its error correction (R174 to R178), access-error capture (R30), tile slots and rings
(R161 to R163), and the accounts of stations.
-/

namespace Sys2Proof.Machine
open Sys2Proof

/-! ### Error correction -/

/-- Captures an ECC event at the memory controller of a word (R183). -/
def State.eccCapture (s : State) (master w syn kind : Nat) : State :=
  match memOf (8 * w) with
  | .km c off =>
    let t := s.capture .KMC_ECCSTAT_VALID .KMC_ECCSTAT_OVERRUN c
      [(.KMC_ECCSTAT_KIND, kind), (.KMC_ECCSTAT_SYNDROME, syn), (.KMC_ECCSTAT_MASTER, master)]
    if s.bit .KMC_ECCSTAT_VALID c then t else t.setF .KMC_ECCADDR_OFFSET c off
  | .cm i off =>
    let t := s.capture .CMC_ECCSTAT_VALID .CMC_ECCSTAT_OVERRUN i
      [(.CMC_ECCSTAT_KIND, kind), (.CMC_ECCSTAT_SYNDROME, syn), (.CMC_ECCSTAT_MASTER, master)]
    if s.bit .CMC_ECCSTAT_VALID i then t else t.setF .CMC_ECCADDR_OFFSET i off

/-- Captures and counts an ECC event at the memory controller of a word, and raises its event (R175, R176, R183, R429, R430).
`kind` is that of CMC_ECCSTAT; kinds 0 and 2 are corrected errors. -/
def State.eccEvent (s : State) (master w syn kind : Nat) : State :=
  let good := kind == 0 || kind == 2
  let owner := (s.memOwner (8 * w)).getD (masterOwner master)
  let code := if good then 0x301 else 0x208
  let t := (s.eccCapture master w syn kind).total owner (if good then 5 else 6) 1
  match memOf (8 * w) with
  | .km c off =>
    (t.addHold (if good then .KMC_ECCCNT_CORR else .KMC_ECCCNT_UNCORR) c 1).raise code owner c 0xFF 0xFFFF (leBytes 4 off)
  | .cm i off =>
    (t.addHold (if good then .CMC_ECCCNT_CORR else .CMC_ECCCNT_UNCORR) i 1).raise code owner (i / 8) (i % 8) 0xFFFF
      (leBytes 4 off)

/-- The 64-bit words that a range touches. -/
def wordsOf (a n : Nat) : List Nat := if n = 0 then [] else List.range' (a / 8) ((a + n - 1) / 8 + 1 - a / 8)

/-- Whether a read of the range returns poison (R92, R175). -/
def State.readsPoison (s : State) (a n : Nat) : Bool := (wordsOf a n).any (fun w => poisonous (s.syndrome w))

/-- What a read of a word does beside returning its bytes (R175): a correctable word is logged and is to be rewritten; an
uncorrectable word is logged; a marked word is returned as poison and left. -/
def State.readWordEcc (master : Nat) (s : State) (w : Nat) : State :=
  let syn := s.syndrome w
  if syn = 0 then s
  else if correctable syn then
    let s := s.eccEvent master w syn 0
    if s.scrubs.contains w then s else { s with scrubs := s.scrubs ++ [w] }
  else if syn = 0x7F then s.eccCapture master w syn 1
  else s.eccEvent master w syn 1

/-- The effects of a read of a range by a master. -/
def State.readEcc (s : State) (master a n : Nat) : State := (wordsOf a n).foldl (State.readWordEcc master) s

/-- Sets the check bits of a word. -/
def State.mark (s : State) (w syn : Nat) : State := { s with ecc := smapSet 0 s.ecc w syn }

/-- A write of the bytes `bs` at `a`, which lie in word `w` alone (R176): a whole word, or a merge into a word without
uncorrectable error, is written with new check bits; otherwise the word takes the poison mark and the writer an error. -/
def State.writeWord (s : State) (master w a : Nat) (bs : List Byte) : State × Bool :=
  let syn := s.syndrome w
  if bs.length = 8 || syn = 0 then ({ s with sram := setBytes s.sram a bs }.mark w 0, false)
  else if correctable syn then
    (({ s with sram := setBytes s.sram a bs }.mark w 0).eccEvent master w syn 2, false)
  else ((s.mark w 0x7F).eccEvent master w syn 3, true)

/-- The bytes of a write that lie in word w. -/
def bytesIn (a : Nat) (bs : List Byte) (w : Nat) : Nat × List Byte :=
  let lo := max a (8 * w)
  let hi := min (a + bs.length) (8 * w + 8)
  (lo, (bs.drop (lo - a)).take (hi - lo))

/-- A write by a master, word by word; words that `skip` names are not written. The flag tells of an error completion. -/
def State.writeMem (s : State) (master : Nat) (skip : Nat → Bool) (a : Nat) (bs : List Byte) : State × Bool :=
  (wordsOf a bs.length).foldl
    (fun r w =>
      if skip (8 * w) then r
      else
        let p := bytesIn a bs w
        let q := r.1.writeWord master w p.1 p.2
        (q.1, r.2 || q.2))
    (s, false)

/-! ### Access errors -/

/-- Captures an access error (R30): kind, direction, master, BAR and offset. -/
def State.accErr (s : State) (kind : Nat) (write : Bool) (master : Nat) (bar2 : Bool) (off : Nat) : State :=
  if s.bit .GCTL_ACCERR_VALID 0 then s.setF .GCTL_ACCERR_OVERRUN 0 1
  else
    ((((((s.setF .GCTL_ACCERR_VALID 0 1).setF .GCTL_ACCERR_KIND 0 kind).setB .GCTL_ACCERR_WRITE 0 write).setF
      .GCTL_ACCERR_MASTER 0 master).setB .GCTL_ACCADDR_BAR 0 bar2).setF .GCTL_ACCADDR_OFFSET 0 off)

/-- The PF BAR0 offset of a register of given indices. -/
def Reg.at_ (r : Reg) (ix : List Nat) : Nat := r.info.base + ((r.info.dims.zip ix).map (fun p => p.1.1 * p.2)).sum

/-- A write of a control register by a master: with the register's domain off it is discarded and captured (R27), else it
has the effect `t`. `unit` is the cluster or core of the register. -/
def State.onReg (s : State) (master : Nat) (r : Reg) (ix : List Nat) (unit : Nat) (t : State) : State :=
  if s.blockOn r.info.block unit 1 then t else s.accErr 0 true master false (r.at_ ix)

/-! ### Tile slots -/

/-- A slot's number in the keys of `rings`. -/
def SlotRef.key (r : SlotRef) : Nat := (if r.km then 4194304 else 0) + r.unit * 1024 + r.n

/-- The replication index of a slot's register. -/
def SlotRef.inst (r : SlotRef) : Nat := if r.km then r.unit * 1024 + r.n else r.unit * 128 + r.n

/-- The state of a slot: 0 Empty, 1 Filling, 2 Full, 3 Reading, 4 not assigned (R161). -/
def State.slot (s : State) (r : SlotRef) : Nat :=
  if r.km then s.getF .KMC_SLOT_STATE r.inst else s.getF .CMC_SLOT_STATE r.inst

/-- Changes the state of a slot. -/
def State.setSlot (s : State) (r : SlotRef) (v : Nat) : State :=
  if r.km then s.setF .KMC_SLOT_STATE r.inst v else s.setF .CMC_SLOT_STATE r.inst v

/-- Whether a slot is marked torn and not yet taken. -/
def State.torn (s : State) (r : SlotRef) : Bool :=
  if r.km then s.bit .KMC_SLOT_TORN r.inst else s.bit .CMC_SLOT_TORN r.inst

def State.setTorn (s : State) (r : SlotRef) (v : Bool) : State :=
  if r.km then s.setB .KMC_SLOT_TORN r.inst v else s.setB .CMC_SLOT_TORN r.inst v

/-- The BAR2 offset of the memory that holds a slot. -/
def SlotRef.base (r : SlotRef) : Nat := if r.km then kmBase r.unit else cmBase r.unit

/-- The BAR2 offset of a slot's first byte. -/
def State.slotAddr (s : State) (r : SlotRef) : Nat :=
  r.base + 64 * (if r.km then s.getF .KMC_SLOT_BASE r.inst else s.getF .CMC_SLOT_BASE r.inst)

/-- Whether the memory of a slot is powered. -/
def State.slotOn (s : State) (r : SlotRef) : Bool := if r.km then s.sharedOn r.unit else s.coreOn r.unit

/-- The cluster in which a slot lies. -/
def SlotRef.cluster (r : SlotRef) : Nat := if r.km then r.unit else r.unit / 8

/-! ### Rings -/

/-- The first slot of the ring with a key. -/
def SlotRef.ofKey (k : Nat) : SlotRef := { km := 4194304 ≤ k, unit := k % 4194304 / 1024, n := k % 1024 }

def State.ring (s : State) (r : SlotRef) : Ring := smapGet Ring.free s.rings r.key
def State.setRing (s : State) (r : SlotRef) (x : Ring) : State := { s with rings := smapSet Ring.free s.rings r.key x }

/-- Slot i of the ring that begins at r. -/
def SlotRef.nth (r : SlotRef) (i : Nat) : SlotRef := { r with n := r.n + i }

/-- The slot that the producer takes next, and the one the consumer takes next (R163). -/
def State.nextWr (s : State) (r : SlotRef) : SlotRef := r.nth (s.ring r).wr
def State.nextRd (s : State) (r : SlotRef) : SlotRef := r.nth (s.ring r).rd

/-- Moves the producer's and the consumer's place on. -/
def State.stepWr (s : State) (r : SlotRef) : State :=
  let x := s.ring r
  s.setRing r { x with wr := (x.wr + 1) % max x.len 1 }
def State.stepRd (s : State) (r : SlotRef) : State :=
  let x := s.ring r
  s.setRing r { x with rd := (x.rd + 1) % max x.len 1 }

/-- How many slots of a ring are in a state. -/
def State.countSlots (s : State) (r : SlotRef) (v : Nat) : Nat :=
  ((List.range (s.ring r).len).filter (fun i => s.slot (r.nth i) == v)).length

/-! ### Tile headers (Table 6.4) -/

/-- A field of a tile's header. -/
def State.hdr (s : State) (r : SlotRef) (off n : Nat) : Nat := leNat (s.bytes (s.slotAddr r + off) n)

def State.hdrSeq (s : State) (r : SlotRef) : Nat := s.hdr r 0x10 4
def State.hdrTime (s : State) (r : SlotRef) : Nat := s.hdr r 0 8
def State.hdrCtx (s : State) (r : SlotRef) : Nat := s.hdr r 0x1A 1 % 128
def State.hdrNvec (s : State) (r : SlotRef) : Nat := s.hdr r 0x1C 1
def State.hdrFmt (s : State) (r : SlotRef) : Nat := s.hdr r 0x1D 1 % 4
def State.hdrFlags (s : State) (r : SlotRef) : Nat := s.hdr r 0x1F 1
def State.hdrNelem (s : State) (r : SlotRef) : Nat := s.hdr r 0x20 2
def State.hdrStride (s : State) (r : SlotRef) : Nat := s.hdr r 0x22 2

/-- VSTRIDE of a format and element count (R157). -/
def vstride (fmt nelem : Nat) : Nat := if fmt = 2 then 1024 else (2 * nelem + 31) / 32 * 32

/-- A tile's header (Table 6.4). -/
structure Header where
  dtime    : Nat
  pos      : Nat
  seq      : Nat
  epoch    : Nat
  station  : Nat
  kind     : Nat
  ctx      : Nat
  gen      : Nat
  nvec     : Nat
  fmt      : Nat
  exp      : Int
  flags    : Nat
  nelem    : Nat
  decision : Nat
deriving DecidableEq, Repr

/-- The 64 bytes of a header. -/
def Header.bytes (h : Header) : List Byte :=
  leBytes 8 h.dtime ++ leBytes 6 h.pos ++ leBytes 2 0 ++ leBytes 4 h.seq ++ leBytes 4 h.epoch ++
  leBytes 2 (h.kind * 4096 + h.station) ++ leBytes 1 h.ctx ++ leBytes 1 h.gen ++ leBytes 1 h.nvec ++
  leBytes 1 h.fmt ++ leBytes 1 (h.exp % 256).toNat ++ leBytes 1 h.flags ++ leBytes 2 h.nelem ++
  leBytes 2 (vstride h.fmt h.nelem) ++ leBytes 2 h.decision ++ leBytes 26 0

/-- a precedes b modulo 2^32 (R160). -/
def precedes (a b : Nat) : Bool :=
  let d := (b + 4294967296 - a % 4294967296) % 4294967296
  1 ≤ d && d ≤ 2147483648

/-! ### Station counters (Table 6.6) -/

/-- Adds to a counter of a station's entry and to its owner's total: 0 SATCNT, 1 POISCNT, 2 TORNCNT, 3 LATECNT, 4 UNMATCH. -/
def State.count (s : State) (st which n : Nat) : State :=
  let x := s.station st
  let s := match x.entry with
    | some (c, e) =>
      s.addHold (match which with
        | 0 => .KMC_STN_SATCNT_COUNT
        | 1 => .KMC_STN_POISCNT_COUNT
        | 2 => .KMC_STN_TORNCNT_COUNT
        | 3 => .KMC_STN_LATECNT_COUNT
        | _ => .KMC_STN_UNMATCH_COUNT) (c * 512 + e) n
    | none => s
  if which < 4 then s.total x.owner which n else s

/-! ### The states of a station (R16, R154) -/

/-- Whether a tile of a station is in progress. -/
def State.inProgress (s : State) (st : Nat) : Bool := s.tiles.any (fun e => e.2.any (fun t => t.st == st))

/-- The state of a loaded station at a tile boundary: Parked while something holds it, Draining while an old placement finishes,
else Ready (Table 6.2). -/
def Station.rest (x : Station) : Nat := if !x.holds.isEmpty then 3 else if x.drain.isSome then 4 else 1

/-- Whether a station is between two tile boundaries: its current placement has a tile in progress, or it has no descriptor and is
Active. -/
def State.atWork (s : State) (st : Nat) : Bool :=
  (s.station st).state == 2 || (s.coreTiles (s.station st).core).any (fun t => t.st == st && !t.old)

/-- A station that leaves its rest for a tile is Active, but for one that is Draining; one that comes to rest is what it then is. -/
def State.enterTile (s : State) (st : Nat) : State :=
  let x := s.station st
  if x.state = 1 then s.setStation st { x with state := 2 } else s
def State.leaveTile (s : State) (st : Nat) : State :=
  let x := s.station st
  if x.state = 0 then s else s.setStation st { x with state := x.rest }

end Sys2Proof.Machine
end

