-- ==== Sys2Proof/Machine/Flags.lean ====
section
/-!
DEFINITION. Conditions and roundings: the comparisons of Table 7.4, rounding and saturation of the number formats (R91 to
R103), and exact values. An exact real value is an integer in units of 2^-149, in which every finite fp32 and every int16
with an exponent from -64 to +63 lies; squares are in units of 2^-298.
-/

namespace Sys2Proof.Machine
open Sys2Proof

/-! ### Rounding -/

/-- n divided by d, rounded to the nearest integer with ties away from zero. -/
def roundAway (n : Int) (d : Nat) : Int :=
  let q : Int := ((2 * n.natAbs + d) / (2 * d) : Nat)
  if n < 0 then -q else q

/-- m divided by 2^k, rounded to the nearest integer with ties to even. -/
def rneShift (m k : Nat) : Nat :=
  if k = 0 then m
  else
    let q := m / 2 ^ k
    let r := m % 2 ^ k
    if 2 ^ (k - 1) < r || (r == 2 ^ (k - 1) && q % 2 == 1) then q + 1 else q

/-- The bits of m × 2^k in a binary format with eb exponent bits and fb fraction bits, rounded to nearest even; above the
finite range an infinity. -/
def encodeFloat (eb fb : Nat) (neg : Bool) (m : Nat) (k : Int) : Nat :=
  let sign := if neg then 2 ^ (eb + fb) else 0
  if m = 0 then sign
  else
    let low : Int := 2 - 2 ^ (eb - 1) - fb
    let q := max ((m.log2 : Int) + k - fb) low
    let mant := if q ≤ k then m * 2 ^ (k - q).toNat else rneShift m (q - k).toNat
    let bits := (q - low).toNat * 2 ^ fb + mant
    sign + min bits ((2 ^ eb - 1) * 2 ^ fb)

/-! ### fp32 and fp64 -/

def fp32Exp (b : Nat) : Nat := b / 8388608 % 256
def fp32Frac (b : Nat) : Nat := b % 8388608
def fp32Neg (b : Nat) : Bool := b.testBit 31
def fp32IsNaN (b : Nat) : Bool := fp32Exp b == 255 && fp32Frac b != 0
def fp32IsInf (b : Nat) : Bool := fp32Exp b == 255 && fp32Frac b == 0
/-- A positive normal finite value (R101). -/
def fp32PosNormal (b : Nat) : Bool := !(fp32Neg b) && 1 ≤ fp32Exp b && fp32Exp b ≤ 254

/-- The magnitude of a finite fp32 in units of 2^-149; an infinity stands for 2^128. -/
def fp32Mag (b : Nat) : Nat :=
  if fp32Exp b = 0 then fp32Frac b else (fp32Frac b + 8388608) * 2 ^ (fp32Exp b - 1)

/-- The exact value of an fp32. -/
def fp32Val (b : Nat) : Int := if fp32Neg b then -(fp32Mag b : Int) else fp32Mag b

/-- fp32 bits of n × 2^k, to nearest even. -/
def toFp32 (n : Int) (k : Int) : Nat := encodeFloat 8 23 (n < 0) n.natAbs k

/-- fp64 bits of n × 2^k, to nearest even. -/
def toFp64 (n : Int) (k : Int) : Nat := encodeFloat 11 52 (n < 0) n.natAbs k

/-- fp32 product of finite values and sum of two values that are no NaN and no two infinities of opposite sign, each rounded to
nearest even; an infinity that a product gives stays one in the sum. -/
def fp32Mul (a b : Nat) : Nat :=
  encodeFloat 8 23 (fp32Neg a != fp32Neg b) (fp32Mag a * fp32Mag b) (-298)
def fp32Add (a b : Nat) : Nat :=
  let v := fp32Val a + fp32Val b
  if fp32IsInf a then a
  else if fp32IsInf b then b
  else if v = 0 then (if fp32Neg a && fp32Neg b then 2147483648 else 0) else toFp32 v (-149)

/-- fp32 bits of the quotient of exact values n ÷ d in units of 2^k, to nearest even: 300 quotient bits and a sticky bit. -/
def fp32Div (n : Int) (d : Nat) (k : Int) : Nat :=
  let m := n.natAbs * 2 ^ 300
  let q := 2 * (m / max d 1) + (if m % max d 1 = 0 then 0 else 1)
  encodeFloat 8 23 (n < 0) q (k - 301)

/-- rne32(1/s) for a positive normal s (R101). -/
def fp32Recip (s : Nat) : Nat := fp32Div 1 (fp32Mag s) 149

/-- IEEE 754 a ≥ b and a < b on exact values with infinities; neither holds of a NaN. -/
def fp32Ord (b : Nat) : Int := if fp32Neg b then -(fp32Mag b : Int) else fp32Mag b

/-! ### Activations (Table 3.1) -/

/-- Whether a 16-bit element is poison in its format: 0 int16, else bf16 (R92). -/
def elemPoison (fmt x : Nat) : Bool :=
  if fmt = 0 then x == 0x8000 else x / 128 % 256 == 255 && x % 128 != 0

/-- The value of a bf16 element: subnormals read as zero, infinities as the largest finite magnitude (R91). -/
def bf16Val (x : Nat) : Int :=
  let e := x / 128 % 256
  let m : Nat := if e = 0 then 0 else if e = 255 then 255 * 2 ^ (16 + 253) else (128 + x % 128) * 2 ^ (16 + e - 1)
  if x.testBit 15 then -(m : Int) else m

/-- A 16-bit two's complement value. -/
def int16Val (x : Nat) : Int := (BitVec.ofNat 16 x).toInt

/-- The exact value of an element of a format and exponent. -/
def elemVal (fmt : Nat) (exp : Int) (x : Nat) : Int :=
  if fmt = 0 then int16Val x * 2 ^ (exp + 149).toNat else bf16Val x

/-- Saturates to ±32,767; the flag tells of a saturation (R98). -/
def sat16 (v : Int) : Int × Bool :=
  if 32767 < v then (32767, true) else if v < -32767 then (-32767, true) else (v, false)

/-- Saturates to the 32-bit range (R67). -/
def sat32 (v : Int) : Int × Bool :=
  if 2147483647 < v then (2147483647, true) else if v < -2147483648 then (-2147483648, true) else (v, false)

/-- The 16 bits of a value. -/
def half (v : Int) : Nat := (v % 65536).toNat

/-- The int16 of an exact value at an exponent: to nearest, ties away from zero, saturated (R94). -/
def toInt16 (exp : Int) (v : Int) : Int × Bool := sat16 (roundAway v (2 ^ (exp + 149).toNat))

/-- The bf16 of n × 2^k: to nearest even; a subnormal or zero result is +0, and beyond the finite range the largest finite
magnitude, which saturates (R91). DESIGN CHOICE: whether a result 'would be subnormal' is judged on the rounded bits, so that what
rounds up to the least normal number is written as it (log entry 83). -/
def toBf16 (n : Int) (k : Int) : Nat × Bool :=
  let b := encodeFloat 8 7 (n < 0) n.natAbs k
  if b % 32768 < 128 then (0, false)
  else if 0x7F80 ≤ b % 32768 then ((if n < 0 then 0xFF7F else 0x7F7F), true)
  else (b, false)

/-- An element written in a format: 0 int16 at an exponent, else bf16. -/
def toElem (fmt : Nat) (exp : Int) (v : Int) : Nat × Bool :=
  if fmt = 0 then (half (toInt16 exp v).1, (toInt16 exp v).2) else toBf16 v (-149)

/-- What the device makes of an open element of its own (R91, R92): in bf16 no infinity, no subnormal, no negative zero, and 0x7FC0 for
every NaN. -/
def cleanElem (fmt x : Nat) : Nat :=
  if fmt = 0 then x
  else if x / 128 % 256 = 0 then 0
  else if x / 128 % 256 = 255 then (if x % 128 = 0 then x / 32768 * 32768 + 0x7F7F else 0x7FC0)
  else x

/-- The poison element of a format. -/
def poisonElem (fmt : Nat) : Nat := if fmt = 0 then 0x8000 else 0x7FC0

/-- The input code of an int16 activation q (Table 3.2). -/
def inputCode (inmode : Nat) (q : Int) : Int :=
  match inmode with
  | 0 => if 0 ≤ q then q / 128 else 0
  | 1 => q / 256
  | 2 => if 0 ≤ q then q else 0
  | _ => q

/-- R98: an accumulator rescaled by a table entry; the flag tells of a saturation. -/
def rescale (a mult : Int) (shift : Nat) (offset : Int) : Int × Bool :=
  let p := a * mult
  sat16 ((if shift = 0 then p else roundAway p (2 ^ shift)) + offset)

/-- R100: an accumulator rescaled in fp32, as bits. -/
def rescaleFp (a : Int) (f b : Nat) : Nat := fp32Add (fp32Mul (toFp32 a 0) f) b

/-- R102: an element sent as an int8 code; t = x × r exactly, ties away from zero. -/
def linkCode (x : Int) (r : Nat) : Int × Bool :=
  let t := roundAway (x * fp32Val r) (2 ^ 298)
  if 127 < t then (127, true) else if t < -127 then (-127, true) else (t, false)

/-! ### Comparisons (Table 7.4) -/

/-- The CMP conditions; none for the reserved code. -/
def condHolds (c : Nat) (a b : Word) : Option Bool :=
  match c with
  | 0 => some (a == b)
  | 1 => some (a != b)
  | 2 => some (a.slt b)
  | 3 => some (!(a.slt b))
  | 4 => some (a.ult b)
  | 5 => some (!(a.ult b))
  | 6 => some (precedes a.toNat b.toNat)
  | _ => none

/-- The functions of PLOG. -/
def plog (f : Nat) (a b : Bool) : Bool :=
  match f with
  | 0 => a && b
  | 1 => a || b
  | 2 => a && !b
  | _ => a != b

end Sys2Proof.Machine
end

