-- ==== Sys2Proof/Machine/Operands.lean ====
section
/-!
DEFINITION. The operand forms: the fields of engine operation words (R85), station descriptors and route words (Tables 7.6
and 7.7), sequencer instruction words (Tables 7.1 and 7.2), command entries (Table 11.6), and the sequencer's address map
(R195).
-/

namespace Sys2Proof.Machine
open Sys2Proof

/-- Bits [hi:lo] of a number. -/
def bits (x hi lo : Nat) : Nat := x / 2 ^ lo % 2 ^ (hi + 1 - lo)

/-! ### Engine operation word -/

structure Opw where
  addin : Bool
  out : Nat
  pos : Nat
  len : Nat
  rgmask : Nat
  repeat_ : Nat
  wmode : Nat
  inmode : Nat
  satpol : Nat
  gain : Nat
deriving DecidableEq, Repr

/-- The fields of an engine operation word. -/
def opwOf (w : Nat) : Opw :=
  { addin := w.testBit 26, out := bits w 25 24, pos := bits w 23 20, len := bits w 19 15, rgmask := bits w 13 10,
    repeat_ := bits w 9 8, wmode := bits w 7 6, inmode := bits w 5 4, satpol := bits w 3 2, gain := bits w 1 0 }

/-- A reserved encoding in an engine word (Table of ME_OPW). -/
def Opw.reserved (o : Opw) : Bool := o.out == 3 || o.repeat_ == 3 || o.wmode == 3 || o.satpol == 3 || 16 < o.len

/-- The row groups of a mask, ascending. -/
def rowGroups (m : Nat) : List Nat := (List.range 4).filter (fun r => m.testBit r)

/-- The logical columns of a weight mode (R74, R75). -/
def Opw.columns (o : Opw) : Nat := if o.wmode = 0 then 256 else 128

/-- The nibbles of an input mode (Table 2.2). -/
def Opw.nibbles (o : Opw) : Nat := if o.inmode < 2 then 2 else 4

/-- Whether an input mode has a negative sub-pass. -/
def Opw.signed (o : Opw) : Bool := o.inmode % 2 == 1

/-- The repeat factor: at least 2 in reduced bring-up service (R76, R81). -/
def Opw.repeats (o : Opw) (bringup : Bool) : Nat := let r := 2 ^ o.repeat_; if bringup then max r 2 else r

/-- The averaging divisor A of R66. -/
def Opw.avg (o : Opw) (bringup : Bool) : Nat := o.repeats bringup * (if o.wmode = 2 then 2 else 1)

/-- LSB_g in product units (Table 2.4), four times as large in bring-up service (R81). -/
def lsb (gain : Nat) (bringup : Bool) : Nat := (512 / 2 ^ gain) * (if bringup then 4 else 1)

/-! ### Station descriptors -/

/-- The BAR2 offset of descriptor d of a core. -/
def descAddr (core d : Nat) : Nat := cmBase core + 0x7C000 + 256 * d

/-- Word w of a descriptor. -/
def State.descWord (s : State) (core d w : Nat) : Nat := s.word (descAddr core d + 4 * w)

/-- The fields of a descriptor that the stepper reads at a tile start. -/
structure Desc where
  valid   : Bool
  kind    : Nat
  gen     : Nat
  station : Nat
  owner   : Nat
  window  : Nat
  nin     : Nat
  npart   : Nat
  nout    : Nat
  engmask : Nat
  opws    : List Nat
  rsbase  : Nat
  corr    : Option Nat
  drain   : Nat
  ins     : List Nat
  outs    : List Nat
deriving DecidableEq, Repr

/-- A descriptor of 64 words. -/
def descOf (w : Nat → Nat) : Desc :=
  { valid := (w 0).testBit 31, kind := bits (w 0) 27 24, gen := bits (w 0) 23 16, station := bits (w 0) 11 0,
    owner := bits (w 1) 31 24, window := bits (w 1) 23 20, nin := bits (w 1) 19 16, npart := bits (w 1) 15 12,
    nout := bits (w 1) 11 8, engmask := bits (w 2) 15 0, opws := (List.range 16).map (fun e => w (3 + e)),
    rsbase := bits (w 19) 18 0, corr := if (w 20).testBit 12 then some (bits (w 20) 11 0) else none,
    drain := if bits (w 21) 3 0 = 0 then 16 else bits (w 21) 3 0,
    ins := (List.range 16).map (fun i => w (32 + i)), outs := (List.range 8).map (fun i => w (48 + i)) }

def State.desc (s : State) (core d : Nat) : Desc := descOf (s.descWord core d)

/-- The engines of a mask, ascending. -/
def engList (m : Nat) : List Nat := (List.range 16).filter (fun e => m.testBit e)

/-- The chain members of a descriptor in ascending CHAIN_POS (R243). -/
def Desc.members (x : Desc) : List Nat :=
  let es := engList x.engmask
  (List.range 16).flatMap (fun p => es.filter (fun e => (opwOf (x.opws.getD e 0)).pos == p))

/-- The head or lone engine of a matrix station. -/
def Desc.head (x : Desc) : Nat := x.members.getD 0 0

/-- Valid bit and length of a route word (Table 7.7). -/
def routeOk (w : Nat) : Bool := w.testBit 31 && 2 ≤ bits w 23 17 && bits w 23 17 ≤ 64

/-- The first slot of the ring that a route word of a core's descriptor names. -/
def routeRing (core w : Nat) : SlotRef :=
  if w.testBit 30 then { km := true, unit := bits w 27 24, n := bits w 16 7 }
  else { km := false, unit := core, n := bits w 16 7 }

/-- An invalid route word (R211). -/
def Desc.badRoute (x : Desc) : Bool :=
  let counted := x.nin + x.npart
  (x.ins.zipIdx.any (fun p => if p.2 < counted then !(routeOk p.1) else p.1.testBit 31)) ||
  (x.outs.zipIdx.any (fun p => if p.2 < x.nout then !(routeOk p.1) else p.1.testBit 31)) || 16 < counted || 8 < x.nout

/-- Whether the engines of a matrix descriptor break R71: unequal modes, or positions that are not one chain. -/
def Desc.badChain (x : Desc) : Bool :=
  let ops := (engList x.engmask).map (fun e => opwOf (x.opws.getD e 0))
  match ops with
  | [] => true
  | o :: _ =>
    ops.any (fun p => p.inmode != o.inmode || p.wmode != o.wmode || p.repeat_ != o.repeat_ || p.out != o.out ||
      p.len != ops.length) || x.members.length != ops.length ||
    (List.range ops.length).any (fun i => (ops.filter (fun p => p.pos == i)).length != 1)

/-- ADDIN breaks the last item of R73. -/
def Desc.badAddin (x : Desc) : Bool :=
  (engList x.engmask).any (fun e =>
    let o := opwOf (x.opws.getD e 0)
    if o.pos = 0 then o.addin != decide (0 < x.npart) else o.addin)

/-- Why a descriptor raises the exception of R211: REASON of STP_EXC, the lowest that applies. -/
def Desc.reason (x : Desc) : Option Nat :=
  let ops := (engList x.engmask).map (fun e => opwOf (x.opws.getD e 0))
  let matrix := x.kind == 0
  if matrix && ops.any Opw.reserved then some 0
  else if matrix && ops.any (fun o => o.rgmask == 0) then some 1
  else if matrix && ops.any (fun o => o.len != 0 && o.len ≤ o.pos) then some 2
  else if matrix && ops.any (fun o => o.len == 0) then some 3
  else if matrix && x.badChain then some 4
  else if 10 ≤ x.kind then some 5
  else if x.badRoute then some 6
  else if matrix && x.badAddin then some 7
  else if x.window = 0 || 8 < x.window then some 8
  else none

/-- The rings of a descriptor: inputs, partial-sum inputs, outputs. -/
def Desc.inRings (x : Desc) (core : Nat) : List SlotRef := (x.ins.take x.nin).map (routeRing core)
def Desc.partRings (x : Desc) (core : Nat) : List SlotRef := ((x.ins.drop x.nin).take x.npart).map (routeRing core)
def Desc.outRings (x : Desc) (core : Nat) : List SlotRef := (x.outs.take x.nout).map (routeRing core)

/-- Inner rows of a station: 64 a row group (R243). -/
def Desc.inner (x : Desc) : Nat :=
  (x.members.map (fun e => 64 * (rowGroups (opwOf (x.opws.getD e 0)).rgmask).length)).sum

/-- The first inner row of a member (R243). -/
def Desc.rowBase (x : Desc) (e : Nat) : Nat :=
  ((x.members.takeWhile (fun m => m != e)).map (fun m => 64 * (rowGroups (opwOf (x.opws.getD m 0)).rgmask).length)).sum

/-! ### Logical and physical engines (R32) -/

/-- The engine of a core that a logical index stands for: MES where CCTL_EMAP says so. -/
def State.mapOf (s : State) (core e : Nat) : Nat :=
  if s.bit .CCTL_EMAP_SPARE_USED core && s.getF .CCTL_EMAP_SPARE_FOR core == e then engIx core 16 else engIx core e

/-- The engine that works for a logical index: that of CCTL_EMAP, but the engine itself while a tile is in progress on it, since a
station stays on a retired engine until its epoch boundary (R268). -/
def State.physOf (s : State) (core e : Nat) : Nat :=
  if (s.engine (engIx core e)).tile.isSome then engIx core e else s.mapOf core e

/-! ### Sequencer instructions (Tables 7.1 to 7.3) -/

structure Fields where
  op : Nat
  g : Bool
  n : Bool
  p : Nat
  /-- Bits [20:17], [16:13], [12:9]. -/
  rd : Nat
  ra : Nat
  rb : Nat
  /-- imm13 and off21, off17 as signed numbers; imm16. -/
  imm13 : Int
  imm16 : Nat
  off21 : Int
  off17 : Int
  low : Nat
deriving DecidableEq, Repr

/-- The fields of an instruction word. -/
def fieldsOf (w : Word) : Fields :=
  { op := (w.extractLsb' 26 6).toNat, g := w.getLsbD 25, n := w.getLsbD 24, p := (w.extractLsb' 21 3).toNat,
    rd := (w.extractLsb' 17 4).toNat, ra := (w.extractLsb' 13 4).toNat, rb := (w.extractLsb' 9 4).toNat,
    imm13 := (w.extractLsb' 0 13).toInt, imm16 := (w.extractLsb' 0 16).toNat, off21 := (w.extractLsb' 0 21).toInt,
    off17 := (w.extractLsb' 0 17).toInt, low := (w.extractLsb' 0 21).toNat }

/-- The opcodes of Table 7.3. -/
def opcodes : List Nat :=
  [0x00, 0x01, 0x02, 0x03, 0x04, 0x05, 0x06, 0x07, 0x08, 0x09, 0x0A, 0x0B, 0x0C, 0x10, 0x11, 0x12] ++
  [0x14, 0x15, 0x16, 0x18, 0x19, 0x1A, 0x1B, 0x1C, 0x1D, 0x1E, 0x1F, 0x20, 0x21, 0x22, 0x24, 0x25, 0x3F]

/-- The operand bits of each opcode that its format leaves 0, as a mask over [20:0] (Table 7.2 and the fields of Table 7.3).
A word that sets one is reserved (R191). -/
def reservedMask (op : Nat) : Nat :=
  match op with
  | 0x00 => 0x1FFFFF
  | 0x01 => 0x01E000
  | 0x02 => 0x010000
  | 0x03 => 0x0001FF | 0x04 => 0x0001FF | 0x05 => 0x0001FF | 0x06 => 0x0001FF | 0x07 => 0x0001FF
  | 0x0B => 0x0003F8
  | 0x0C => 0x000FFC
  | 0x12 => 0x1E1FFF
  | 0x16 => 0x0001FF
  | 0x18 => 0x00F000
  | 0x19 => 0x007000
  | 0x1A => 0x03FFC0
  | 0x1B => 0x00FFC0
  | 0x1C => 0x01FF80
  | 0x1D => 0x001F80
  | 0x1E => 0x1FFFC0
  | 0x1F => 0x1FFE00
  | 0x20 => 0x003000
  | 0x21 => 0x01FFF0
  | 0x22 => 0x01FFF8
  | 0x24 => 0x001FC0
  | 0x25 => 0x1F0000
  | 0x3F => 0x1FFFFF
  | _ => 0

/-- A sequencer address (R195): the BAR2 offset it stands for in cluster cl, unless it leaves the map. -/
def seqAddr (cl a : Nat) : Option Nat :=
  if a < 0x400000 then some (kmBase cl + a)
  else if 0x1000000 ≤ a && a < 0x1400000 then some (cmBase (8 * cl) + (a - 0x1000000))
  else if 0x4000000 ≤ a && a < 0x8000000 then some (a - 0x4000000)
  else none

/-- Mesh hops between two clusters (R40). -/
def hops (a b : Nat) : Nat :=
  (max (a % 4) (b % 4) - min (a % 4) (b % 4)) + (max (a / 4) (b / 4) - min (a / 4) (b / 4))

/-! ### Command entries (Table 11.6) -/

/-- Word i of an entry. -/
def entryWord (e : List Word) (i : Nat) : Nat := (e.getD i 0).toNat

/-- OPCODE and TAG. -/
def entryOp (e : List Word) : Nat := entryWord e 0 % 256
def entryTag (e : List Word) : Nat := entryWord e 0 / 65536

/-- Whether the reserved parts that every command has are zero, together with the words past the parameters. -/
def entryClean (e : List Word) (used : Nat) : Bool :=
  bits (entryWord e 0) 15 8 == 0 && entryWord e 1 == 0 &&
  (List.range 16).all (fun i => i < used || entryWord e i == 0)

end Sys2Proof.Machine
end

