-- ==== Sys2Proof/Machine/Frames.lean ====
section
/-!
DEFINITION. Sending on an Edeneg port: numbering, the replay buffer, and the payloads of barrier and mailbox frames (R333,
R334, Table 12.2, R345, R347).
-/

namespace Sys2Proof.Machine
open Sys2Proof

def State.link (s : State) (p : Nat) : Link := smapGet Link.idle s.links p
def State.setLink (s : State) (p : Nat) (x : Link) : State := { s with links := smapSet Link.idle s.links p x }

/-- Whether a port is up. -/
def State.linkUp (s : State) (p : Nat) : Bool := s.getF .LNK_PSTAT_STATE p == 4

/-- The device's own ID. -/
def State.devId (s : State) : Nat := s.getF .LNK_CFG_DEVID 0

/-- The port toward a device (LNK_ROUTE). -/
def State.routeTo (s : State) (d : Nat) : Option Nat :=
  let r := s.getF (match d with
    | 0 => .LNK_ROUTE_DEV0 | 1 => .LNK_ROUTE_DEV1 | 2 => .LNK_ROUTE_DEV2 | 3 => .LNK_ROUTE_DEV3
    | 4 => .LNK_ROUTE_DEV4 | 5 => .LNK_ROUTE_DEV5 | 6 => .LNK_ROUTE_DEV6 | _ => .LNK_ROUTE_DEV7) 0
  if r.testBit 3 then some (r % 4) else none

/-- A frame leaves: it takes the next FSEQ and stays in the replay buffer until it is acknowledged (R334). -/
def State.sendFlit (s : State) (p type lchan dst : Nat) (payload : List Byte) : State :=
  let x := s.link p
  let f : SentFlit := { fseq := x.tx, type := type, lchan := lchan, dst := dst, payload := payload }
  let y := { x with tx := (x.tx + 1) % 4096, buf := x.buf ++ [f], ackAt := if x.buf.isEmpty then s.time else x.ackAt }
  (s.setLink p y).emit (.frame p type lchan dst payload)

/-- Whether a frame type is a tile's; all others take precedence over it (R341). -/
def tileFrame (type : Nat) : Bool := 1 ≤ type && type ≤ 3

/-- A frame joins those that wait: a tile's behind all, another before the tiles' frames (R341). -/
def Link.hold (x : Link) (f : SentFlit) : Link :=
  let first (g : SentFlit) : Bool := tileFrame f.type || !(tileFrame g.type)
  { x with held := x.held.takeWhile first ++ f :: x.held.dropWhile first }

/-- Sends a frame; with the replay buffer of 64 full it waits for room there (R334). -/
def State.sendFrame (s : State) (p type lchan dst : Nat) (payload : List Byte) : State :=
  let x := s.link p
  if x.buf.length < 64 && x.held.isEmpty then s.sendFlit p type lchan dst payload
  else s.setLink p (x.hold { fseq := 0, type := type, lchan := lchan, dst := dst, payload := payload })

/-- The frames that wait leave in their order while the replay buffer has room, at most `fuel` of them. -/
def State.sendHeld (s : State) (p : Nat) : Nat → State
  | 0 => s
  | n + 1 =>
    let x := s.link p
    match x.held with
    | f :: fs =>
      if x.buf.length < 64 then ((s.setLink p { x with held := fs }).sendFlit p f.type f.lchan f.dst f.payload).sendHeld p n else s
    | [] => s

/-- Sends a frame along LNK_ROUTE to a device, if a route is valid and its port is up. -/
def State.sendTo (s : State) (dev type lchan : Nat) (payload : List Byte) : State :=
  match s.routeTo dev with
  | some p => if s.linkUp p then s.sendFrame p type lchan dev payload else s
  | none => s

/-- The member devices of a mask, by rank (R345). -/
def ranks (mask : Nat) : List Nat := (List.range 8).filter (fun d => mask.testBit d)

/-- The least k with n at most 2^k. -/
def clog2 (n : Nat) : Nat := if n ≤ 1 then 0 else (n - 1).log2 + 1

/-- The payload of a BARRIER frame: GROUP, instance, round, SCOPE, DEVMASK, TIMEOUT, packed in that order. -/
def barrierPayload (g inst round : Nat) (x : Group) : List Byte :=
  leBytes 1 g ++ leBytes 2 inst ++ leBytes 1 round ++ leBytes 1 x.scope ++ leBytes 1 x.devmask ++ leBytes 4 x.timeout

/-- Sends round k of a group's open instance to the device of rank i + 2^k (R345). -/
def State.sendRound (s : State) (g k : Nat) : State :=
  let x := s.group g
  let ds := ranks x.devmask
  let i := ds.idxOf s.devId
  s.sendTo (ds.getD ((i + 2 ^ k) % max ds.length 1) 0) 5 0 (barrierPayload g (x.count % 65536) k x)

/-- Whether a master is a sequencer's, a host's, the debug port's, a peer's or a tenant's identity (R324). -/
def isHost (m : Nat) : Bool := m == 0x20 || 0x80 ≤ m

/-- The function that a host identity stands for. -/
def hostFn (m : Nat) : Nat := if m = 0x20 then 0 else m - 0x7F

end Sys2Proof.Machine
end

