-- ==== Sys2Proof/WellFormed.lean ====
section
/-!
DEFINITION. Which operands spell a command of their row. A host request keeps the limits of PCIe (R25, R26, R293), a
command entry has 16 words and its row's OPCODE (Tables 11.6 and 11.7), an instruction word has its row's OP or a reserved
one (R191, Table 7.3), and what the outside delivers has the size that the rule of the row gives it. No meaning rests on it: a
command that is not well formed is carried out as far as its operands can be read (log entry 4).
-/

namespace Sys2Proof

/-- The opcodes of Table 7.3. -/
def seqOpcodes : List Nat :=
  [0x00, 0x01, 0x02, 0x03, 0x04, 0x05, 0x06, 0x07, 0x08, 0x09, 0x0A, 0x0B, 0x0C, 0x10, 0x11, 0x12] ++
  [0x14, 0x15, 0x16, 0x18, 0x19, 0x1A, 0x1B, 0x1C, 0x1D, 0x1E, 0x1F, 0x20, 0x21, 0x22, 0x24, 0x25, 0x3F]

/-- An instruction word of a row: its OP, or an opcode that no row has (R191). -/
def seqWord (op : Nat) (w : Word) : Bool :=
  let o := (w.extractLsb' 26 6).toNat
  o == op || !(seqOpcodes.contains o)

/-- A command entry of 16 words with a row's OPCODE (Tables 11.6 and 11.7). -/
def entryOk (op : Nat) (e : List Word) : Bool :=
  e.length == 16 && (((e.headD 0).extractLsb' 0 8).toNat == op)

/-- A range of BAR2 (R24, R26). -/
def bar2Range (off len most : Nat) : Bool := len ≤ most && off + len ≤ 134217728

/-- A flit's payload fits (Table 12.1). -/
def Flit.ok (f : Flit) : Bool := f.payload.length ≤ 240

namespace Instr

/-- The commands whose operands are well formed. -/
def wf : Instr → Bool
  | .registerWrite _ fn off _ _ _ => off.toNat % 4 == 0 && (fn.val == 0 || off.toNat < 262144)
  | .pairedValueRead _ r => r.off.toNat % 4 == 0
  | .bar2Read _ _ off len => bar2Range off.toNat len 4096
  | .bar2Write _ _ off data _ => bar2Range off.toNat data.length 512
  | .migrationRequest _ _ _ _ _ image _ => image.length == 64
  | .openContext _ _ e => entryOk 0x04 e
  | .closeContext _ _ e => entryOk 0x05 e
  | .loadBitstream _ _ e _ => entryOk 0x01 e
  | .unload _ _ e => entryOk 0x02 e
  | .setQuota _ _ e => entryOk 0x03 e
  | .watchArm _ _ e => entryOk 0x30 e
  | .watchDisarm _ _ e => entryOk 0x31 e
  | .traceConsent _ _ e => entryOk 0x32 e
  | .digestRegion _ _ e => entryOk 0x33 e
  | .nop _ _ _ w => seqWord 0x00 w
  | .movi _ _ _ w => seqWord 0x01 w
  | .movhi _ _ _ w => seqWord 0x02 w
  | .add _ _ _ w => seqWord 0x03 w
  | .sub _ _ _ w => seqWord 0x04 w
  | .and _ _ _ w => seqWord 0x05 w
  | .or _ _ _ w => seqWord 0x06 w
  | .xor _ _ _ w => seqWord 0x07 w
  | .addi _ _ _ w => seqWord 0x08 w
  | .shli _ _ _ w => seqWord 0x09 w
  | .shri _ _ _ w => seqWord 0x0A w
  | .cmp _ _ _ w => seqWord 0x0B w
  | .plog _ _ _ w => seqWord 0x0C w
  | .br _ _ _ w => seqWord 0x10 w
  | .loop _ _ _ w => seqWord 0x11 w
  | .jr _ _ _ w => seqWord 0x12 w
  | .ldw _ _ _ w => seqWord 0x14 w
  | .stw _ _ _ w => seqWord 0x15 w
  | .copy _ _ _ w => seqWord 0x16 w
  | .fire _ _ _ w => seqWord 0x18 w
  | .wait _ _ _ w _ => seqWord 0x19 w
  | .bar _ _ _ w => seqWord 0x1A w
  | .bcast _ _ _ w => seqWord 0x1B w
  | .epw _ _ _ w => seqWord 0x1C w
  | .epa _ _ _ w _ => seqWord 0x1D w
  | .snap _ _ _ w => seqWord 0x1E w
  | .drst _ _ _ w => seqWord 0x1F w
  | .dwr _ _ _ w => seqWord 0x20 w
  | .cnt _ _ _ w => seqWord 0x21 w
  | .rdt _ _ _ w => seqWord 0x22 w
  | .mpost _ _ _ w => seqWord 0x24 w
  | .tmark _ _ _ w => seqWord 0x25 w
  | .halt _ _ _ w => seqWord 0x3F w
  | .swap _ _ _ _ _ _ _ opws table _ => opws.length == 16 && table.length % 8 == 0 && table.length ≤ 2048
  | .sweepLoad _ _ _ _ _ _ _ opws table _ tiles =>
    opws.length == 16 && table.length % 8 == 0 && table.length ≤ 2048 && 1 ≤ tiles.val
  | .commandDoorbell _ _ _ es => es.all (fun e => e.length == 16)
  | .idle _ _ f | .tileHead _ _ f | .tileData _ _ f | .tileAbort _ _ f | .credit _ _ f | .barrierFrame _ _ f
  | .bcastFrame _ _ f | .mbxPostFrame _ _ f | .mbxAckFrame _ _ f | .timeFrame _ _ f | .nak _ _ f | .idFrame _ _ f =>
    f.ok
  | .flitReservedType _ _ ty f => f.ok && 0x0C ≤ ty.toNat
  | .powerOn _ found => found.sensors.length == 72 && found.slots.length == 6
  | .pmbusTelemetry _ answers | .smbalert _ answers => answers.length == 6
  | .sensorRead _ temps => temps.length == 72
  | .settWindowWrite _ off data => 1 ≤ data.length && data.length ≤ 512 && off.toNat + data.length ≤ 262144
  | .counterGroupUpdate _ _ counters => counters.length == 20
  | .debugPortAccess _ a =>
    match a with
    | .readReg off | .writeReg off _ => off.toNat % 4 == 0
    | .readMem off len => bar2Range off.toNat len 4096
    | .writeMem off data => bar2Range off.toNat data.length 512
    | .settWrite off data => 1 ≤ data.length && data.length ≤ 512 && off.toNat + data.length ≤ 262144
  | _ => true

end Instr
end Sys2Proof
end

