-- ==== Sys2Proof/Machine/CsqOps.lean ====
section
/-!
DEFINITION. What sequencer instructions share: a thread's registers, the issue of an instruction with its guard and checks
(R189, R191, R192), the three kinds of exceptions (R197), waiting and resuming, the barrier groups (R202, R203), and the
parking of stations (R16, R17, R154).
A thread is numbered 8 times its cluster plus its index.
-/

namespace Sys2Proof.Machine
open Sys2Proof

/-- The number of a thread. -/
def thIx (cl : Cluster) (th : Thread) : Nat := 8 * cl.val + th.val

/-! ### A thread's registers (R186) -/

def State.greg (s : State) (i n : Nat) : Word := BitVec.ofNat 32 (s.getF .CSQ_TH_GREG_VALUE (i * 16 + n))
def State.setGreg (s : State) (i n : Nat) (v : Word) : State := s.setF .CSQ_TH_GREG_VALUE (i * 16 + n) v.toNat
def State.pred (s : State) (i p : Nat) : Bool := (s.getF .CSQ_TH_PRED_P i).testBit p
def State.setPred (s : State) (i p : Nat) (v : Bool) : State :=
  s.setF .CSQ_TH_PRED_P i (withBit (s.getF .CSQ_TH_PRED_P i) p v)
def State.pc (s : State) (i : Nat) : Nat := s.getF .CSQ_TH_STAT_PC i
def State.setPc (s : State) (i v : Nat) : State := s.setF .CSQ_TH_STAT_PC i v
def State.thState (s : State) (i : Nat) : Nat := s.getF .CSQ_TH_STAT_STATE i
def State.thOwner (s : State) (i : Nat) : Nat := s.getF .CSQ_TH_STAT_OWNER i

/-- Whether a word index lies in the thread's region (R189). -/
def State.inRegion (s : State) (i pc : Nat) : Bool :=
  s.getF .CSQ_TH_REGION_BASE i ≤ pc && pc ≤ s.getF .CSQ_TH_REGION_LAST i

/-! ### Trace of a thread (R432, R433) -/

/-- The mode in force for a thread: that of OBS_TRMODEc while the physical function owns it or its tenant consents. -/
def State.traceMode (s : State) (i : Nat) : Nat :=
  let f : Fld := match i % 8 with
    | 0 => .OBS_TRMODE_TH0 | 1 => .OBS_TRMODE_TH1 | 2 => .OBS_TRMODE_TH2 | 3 => .OBS_TRMODE_TH3
    | 4 => .OBS_TRMODE_TH4 | 5 => .OBS_TRMODE_TH5 | 6 => .OBS_TRMODE_TH6 | _ => .OBS_TRMODE_TH7
  if s.thOwner i == 0 || (s.fnst (s.thOwner i)).consent then s.getF f (i / 8) else 0

/-- Writes a trace record of a thread when its mode is at least `least` (Table 17.3). -/
def State.traceTh (s : State) (i least kind pc data : Nat) : State :=
  if least ≤ s.traceMode i then
    s.setTrace (i / 8) ((s.trace (i / 8)).put
      { time := s.clock, kind := kind, src := i / 8 + 16 * (i % 8), pc := pc, data := data })
  else s

/-! ### Memory as a sequencer sees it (R195, R196) -/

/-- The number of the memory that a BAR2 offset lies in. -/
def memId (a : Nat) : Nat := if a < 0x4000000 then a / 0x400000 else 16 + (a - 0x4000000) / 0x80000

/-- The BAR2 offset of a range of the address map that lies in one memory and outside program memory and descriptor areas. -/
def seqSpan (cl a len : Nat) : Option Nat :=
  match seqAddr cl a, seqAddr cl (a + len - 1) with
  | some x, some y => if memId x == memId y && !(guarded x) && !(guarded y) then some x else none
  | _, _ => none

/-- Whether an owner's allocation holds every page of a range (R195). -/
def State.ownsAll (s : State) (owner x len : Nat) : Bool :=
  (List.range ((x + len - 1) / 4096 + 1 - x / 4096)).all (fun k => s.owns owner ((x / 4096 + k) * 4096))

/-- Moves one 64-bit word; a poison word keeps its mark (R196). -/
def State.moveWord (master : Nat) (s : State) (d w : Nat) : State :=
  let s := s.readWordEcc master w
  let bs := s.bytes (8 * w) 8
  if poisonous (s.syndrome w) then { s with sram := setBytes s.sram (8 * d) bs }.mark d 0x7F
  else (s.writeWord master d (8 * d) bs).1

/-- Moves bytes in ascending order, word by word. -/
def State.moveBytes (s : State) (master dst src n : Nat) : State :=
  (List.range (n / 8)).foldl (fun t k => t.moveWord master (dst / 8 + k) (src / 8 + k)) s

/-! ### Exceptions (R197) -/

/-- Captures an exception of a thread. -/
def State.seqCapture (s : State) (i code pc : Nat) : State :=
  s.capture .CSQ_TH_EXC_VALID .CSQ_TH_EXC_OVERRUN i [(.CSQ_TH_EXC_CODE, code), (.CSQ_TH_EXC_PC, pc)]

/-- A halt and a stop between instructions that were waiting take effect (R190, R199). -/
def State.seqStopDue (s : State) (i : Nat) : State :=
  let s := if (s.thread i).halt then (s.setThread i { s.thread i with halt := false }).setF .CSQ_TH_STAT_STATE i 4 else s
  if (s.thread i).stop then
    let s := s.setThread i { s.thread i with stop := false, armed := [] }
    (s.setF .CSQ_TH_STAT_STATE i 5).traceTh i 1 8 (s.pc i) 0
  else s

/-- What a halting exception reports: the capture, the trace, and a class B event to the owner and the physical function. -/
def State.seqReport (s : State) (i code pc : Nat) : State :=
  ((s.seqCapture i code pc).traceTh i 1 6 pc code).raise 0x202 (s.thOwner i) (i / 8) 0xFF 0xFFFF [BitVec.ofNat 8 code]

/-- A halting exception: state 4, unless a stop was waiting for the instruction. -/
def State.seqHaltAt (s : State) (i code pc : Nat) : State :=
  let s := (s.setF .CSQ_TH_STAT_STATE i 4).setF .CSQ_TH_STAT_WAITKIND i 0
  ((s.setThread i { s.thread i with wait := .idle }).seqReport i code pc).seqStopDue i

/-- A halting exception of the instruction at the program counter. -/
def State.seqHalt (s : State) (i code : Nat) : State := s.seqHaltAt i code (s.pc i)

/-- A recoverable exception: RECCNT, the capture and a class C event; with STRICT it halts instead. `p7` tells whether p7 is
cleared. -/
def State.seqRecoverAt (s : State) (i code pc : Nat) (p7 : Bool) : State :=
  if s.bit .CSQ_TH_REGION_STRICT i then s.seqHaltAt i code pc
  else
    let s := if p7 then s.setPred i 7 false else s
    let s := (s.addHold .CSQ_TH_RECCNT_COUNT i 1).seqCapture i code pc
    (((s.total (s.thOwner i) 7 1).traceTh i 1 6 pc code).raise 0x302 (s.thOwner i) (i / 8) 0xFF 0xFFFF
      [BitVec.ofNat 8 code])

/-- A recoverable exception of the instruction at the program counter. The thread goes on to `next` unless it halts. -/
def State.seqRecover (s : State) (i code next : Nat) : State :=
  if s.bit .CSQ_TH_REGION_STRICT i then s.seqHalt i code else (s.seqRecoverAt i code (s.pc i) true).setPc i next

/-! ### Issue (R187 to R192) -/

/-- Issues an instruction of `n` words: the cluster's shared domain is on and the program counter lies in the region; the
guard holds; no reserved opcode or field is set; the second word lies in the region; then `body` runs. A thread that is
not running issues nothing. -/
def State.issue (s : State) (i : Nat) (w : Word) (n : Nat) (body : State → State) : State :=
  let f := fieldsOf w
  let pc := s.pc i
  if s.thState i != 2 || !(s.sharedOn (i / 8)) then s
  else if !(s.inRegion i pc) then s.seqHalt i 0x02
  else
    let s := s.traceTh i 3 0 pc w.toNat
    if f.g && !(s.pred i f.p != f.n) then s.setPc i (pc + n)
    else if !(opcodes.contains f.op) || f.low &&& reservedMask f.op != 0 then s.seqHalt i 0x01
    else if !(s.inRegion i (pc + n - 1)) then s.seqHalt i 0x02
    else body s

/-- An instruction of one word that changes registers only and goes on with the next word. -/
def State.simple (s : State) (i : Nat) (w : Word) (body : State → State) : State :=
  s.issue i w 1 (fun t => (body t).setPc i (t.pc i + 1))

/-- A taken branch (R189): outside the region it takes PC_RANGE and has no effect; outside the prefetch buffer's line the
buffer is refilled. `body` does what the instruction does beside. -/
def State.branch (s : State) (i target : Nat) (ok : Bool) (body : State → State) : State :=
  if !(ok && s.inRegion i target) then s.seqHalt i 0x02
  else
    let pc := s.pc i
    let s := (body s).setPc i target
    let x := s.thread i
    (s.setThread i { x with line := target / 16 }).traceTh i 2 1 pc target

/-! ### Waiting and resuming -/

/-- The thread waits: state 3 and its WAITKIND (1 WAIT, 2 BAR, 3 BCAST, 4 EPW, 5 SNAP or DRST, 6 COPY). -/
def State.block (s : State) (i kind : Nat) (wt : ThreadWait) : State :=
  let s := s.setThread i { s.thread i with wait := wt }
  ((s.setF .CSQ_TH_STAT_STATE i 3).setF .CSQ_TH_STAT_WAITKIND i kind).traceTh i 2 2 (s.pc i) kind

/-- The thread resumes with a value of p7. -/
def State.resume (s : State) (i : Nat) (p7 : Bool) : State :=
  let s := s.setThread i { s.thread i with wait := .idle }
  let s := ((s.setF .CSQ_TH_STAT_STATE i 2).setF .CSQ_TH_STAT_WAITKIND i 0).setPred i 7 p7
  (s.traceTh i 2 3 (s.pc i) p7.toNat).seqStopDue i

/-! ### Stations as a sequencer sees them -/

/-- Kinds that have a descriptor: all but correction, gate-ingest and links. -/
def hasDesc (kind : Nat) : Bool := kind < 4 || kind == 5 || kind == 6

/-- The input and output rings of a station. -/
def State.inRings (s : State) (st : Nat) : List SlotRef :=
  let x := s.station st
  if hasDesc x.kind then (s.desc x.core x.d).inRings x.core else x.ins
def State.outRings (s : State) (st : Nat) : List SlotRef :=
  let x := s.station st
  if hasDesc x.kind then (s.desc x.core x.d).outRings x.core else x.outs

/-- The cluster that a station's grants go to. -/
def Station.cluster (x : Station) : Nat := x.core / 8

/-- The checks that FIRE, EPA and WAIT make of a station (Table 7.5): UNLOADED, OWNERSHIP, and where asked STATION_KIND. -/
def State.stationCheck (s : State) (i st : Nat) (kind : Bool) : Option Nat :=
  let x := s.station st
  if x.state = 0 then some 0x04
  else if x.owner != s.thOwner i then some 0x03
  else if kind && !(hasDesc x.kind) then some 0x05
  else none

/-- Whether the condition of a WAIT holds (Table 7.8). -/
def State.condHolds (s : State) (c port st k : Nat) : Bool :=
  match c with
  | 0 => match (s.inRings st)[port]? with
    | some r => k ≤ s.countSlots r 2
    | none => false
  | 1 => match (s.outRings st)[port]? with
    | some r => k ≤ s.countSlots r 0
    | none => false
  | 2 => (s.station st).grants == 0 && !(s.inProgress st)
  | _ => (s.station st).drain.isNone

/-! ### Barrier groups (R202 to R204, R345) -/

/-- The member cores of a group on this device, as global indices. -/
def Group.cores (x : Group) : List Nat :=
  (List.range 128).filter (fun c => (x.masks.getD (c / 8) 0).testBit (c % 8))

/-- The member cores that a thread of a cluster covers. -/
def Group.coresOf (x : Group) (cl : Nat) : List Nat := x.cores.filter (fun c => c / 8 == cl)

/-- Whether tile starts of a core are stopped by a snapshot (R205). -/
def State.frozen (s : State) (core : Nat) : Bool :=
  s.snaps.any (fun n => match smapGet none s.sets n.set with
    | some d => ((s.group d.group).coresOf (n.th / 8)).contains core
    | none => false)

/-- Whether a core has no tile in progress, is in no domain reset, and has no grants of the stations a thread has fired (F = 1). -/
def State.coreIdle (s : State) (core th : Nat) : Bool :=
  (s.coreTiles core).isEmpty && s.getF .STP_STAT_STATE core != 3 &&
  (th == 128 || (s.thread th).fired.all (fun st => (s.station st).core != core || (s.station st).grants == 0))

/-- The cores of an instance that have arrived: those at once, and of the slow ones those that are idle. -/
def State.arrivedMask (s : State) (b : BarInst) : Nat :=
  b.slow.foldl (fun m p => if s.coreIdle p.1 p.2 then withBit m p.1 true else m) b.arrived

/-- The cores of a group's open instance that are idle now arrive, and have arrived from then on. -/
def State.latch (s : State) (g : Nat) : State :=
  let x := s.group g
  match x.inst with
  | some b =>
    if b.slow.any (fun p => s.coreIdle p.1 p.2) then
      s.setGroup g { x with inst := some { b with last := s.time, arrived := s.arrivedMask b, slow := b.slow.filter (fun p => !(s.coreIdle p.1 p.2)) } }
    else s
  | none => s
def State.latchAll (s : State) : State := s.groups.foldl (fun t e => t.latch e.1) s

/-- Adds grants to a station; the count saturates at 65,535 (R199, R209, R289). -/
def State.grant (s : State) (st n : Nat) : State :=
  let s := s.latchAll
  let x := s.station st
  if x.state = 0 then s else s.setStation st { x with grants := min (x.grants + n) 65535 }

/-- Whether every member core on this device has arrived. -/
def State.allHere (s : State) (x : Group) (b : BarInst) : Bool :=
  x.cores.all (fun c => (s.arrivedMask b).testBit c)

/-- Whether every round of a multi-device instance has been received (R345). -/
def Group.roundsIn (x : Group) (b : BarInst) : Bool :=
  x.scope != 2 || (List.range (clog2 (ranks x.devmask).length)).all (fun k => b.rounds.contains k)

/-- Sends the rounds that have become due: round 0 once all cores here have arrived, round k once round k - 1 is in. -/
def State.sendRounds (s : State) (g : Nat) : State :=
  let s := s.latch g
  let x := s.group g
  match x.inst with
  | none => s
  | some b =>
    if x.scope = 2 && s.allHere x b then
      (List.range (clog2 (ranks x.devmask).length)).foldl
        (fun t k =>
          if (k == 0 || b.rounds.contains (k - 1)) && !(b.rounds.contains (100 + k)) then
            let t := t.sendRound g k
            let y := t.group g
            match y.inst with
            | some c => t.setGroup g { y with inst := some { c with rounds := c.rounds ++ [100 + k] } }
            | none => t
          else t) s
    else s

/-- A thread arrives at a group for its member cores. `slow` cores arrive once they are idle. -/
def State.arrive (s : State) (i g : Nat) (slow : Bool) (guardTh : Nat) : State :=
  let x := s.group g
  let b := x.inst.getD { first := s.time, last := s.time, arrived := 0, slow := [], threads := [], rounds := x.early, value := x.earlyVal }
  let cs := x.coresOf (i / 8)
  let b := if slow then { b with slow := b.slow ++ cs.map (fun c => (c, guardTh)) }
    else { b with arrived := cs.foldl (fun m c => withBit m c true) b.arrived }
  let early := if x.inst.isNone then [] else x.early
  let ev := if x.inst.isNone then none else x.earlyVal
  let s := s.setGroup g { x with inst := some { b with last := s.time, threads := b.threads ++ [i] }, early := early, earlyVal := ev }
  let t := s.thread i
  let s := s.setThread i { t with met := smapSet 0 t.met g (smapGet 0 t.met g + 1) }
  s.sendRounds g

/-- What GROUP refuses (Table 7.5): an undefined or disabled group, another scope, or no member core of the thread. -/
def State.groupBad (s : State) (i g scope : Nat) : Bool :=
  let x := s.group g
  !(x.defined) || x.disabled || (scope < 4 && x.scope != scope) || x.owner != s.thOwner i || (x.coresOf (i / 8)).isEmpty

/-- Tile starts of cores that a snapshot stopped resume: what level 1 has asked of their stations takes effect (R205). -/
def State.thaw (s : State) : State :=
  { s with stations := s.stations.map (fun e =>
      if !(s.frozen e.2.core) && !(s.atWork e.1) && e.2.state != 0 then (e.1, { e.2 with state := e.2.rest }) else e) }

/-- Ends the open instance of a group and resumes its waiting threads with a value of p7. -/
def State.endInstance (s : State) (g : Nat) (p7 timedOut : Bool) : State :=
  let x := s.group g
  match x.inst with
  | none => s
  | some b =>
    let s := s.setGroup g { x with inst := none, count := x.count + 1, timedOut := timedOut }
    let s := if s.snaps.any (fun n => b.threads.contains n.th) then
        { s with snaps := s.snaps.filter (fun n => !(b.threads.contains n.th)) }.thaw
      else s
    b.threads.foldl (fun t i => if t.thState i == 3 then t.resume i p7 else t) s

/-- Takes a thread out of the instances and snapshots it waits in; they end for the other members as at time-out (R190). -/
def State.abandonWaits (s : State) (i : Nat) : State :=
  let gs := (List.range 64).filter (fun g => match (s.group g).inst with | some b => b.threads.contains i | none => false)
  gs.foldl (fun t g => t.endInstance g false true) s

/-- A COPY is cut amid its transfer: a free number of its bursts have been written (R165, R207). -/
def State.cutCopy (s : State) (i : Nat) : State :=
  match (s.thread i).wait with
  | .copy dst src len => s.burn.moveBytes (0x10 + i / 8) dst src (Config.freeNat s.fresh % (len / 64 + 1) * 64)
  | _ => s

/-- The COPYs of a cluster's threads that reach a memory whose domain goes off are cut and take MEMERR (R196). -/
def State.cutCopies (s : State) (hit : Nat → Bool) : State :=
  s.threads.foldl
    (fun t e => match e.2.wait with
      | .copy dst src _ => if hit dst || hit src then (t.cutCopy e.1).seqHaltAt e.1 0x07 (t.pc e.1 - 1) else t
      | _ => t) s

/-! ### Starting and stopping (R190) -/

/-- A thread starts at the first word of its region, with registers, predicates and counters at 0. Its instance counts of
the barrier groups go on. -/
def State.threadStart (s : State) (i : Nat) : State :=
  let s := (List.range 16).foldl
    (fun t n => (t.setGreg i n 0).setF .CSQ_TH_CNT_VALUE (i * 16 + n) 0) s
  let base := s.getF .CSQ_TH_REGION_BASE i
  let s := ((s.setF .CSQ_TH_PRED_P i 0).setF .CSQ_TH_RECCNT_COUNT i 0).setPc i base
  let s := (s.setF .CSQ_TH_STAT_STATE i 2).setF .CSQ_TH_STAT_WAITKIND i 0
  let s := s.setThread i { ThreadState.idle with line := base / 16, met := (s.thread i).met }
  s.traceTh i 1 7 base 0

/-- A thread stops at once: a wait is abandoned with p7 unchanged, its armed actions are discarded, and the instances it
waits in end for the other members as at time-out. A COPY is cut. -/
def State.threadStopNow (s : State) (i : Nat) : State :=
  let s := ((s.cutCopy i).setF .CSQ_TH_STAT_STATE i 5).setF .CSQ_TH_STAT_WAITKIND i 0
  let s := s.setThread i { s.thread i with wait := .idle, stop := false, halt := false, armed := [] }
  (s.abandonWaits i).traceTh i 1 8 (s.pc i) 0

/-- Whether the thread is in a COPY, SNAP or DRST, which completes before it stops. -/
def State.midway (s : State) (i : Nat) : Bool :=
  match (s.thread i).wait with
  | .copy _ _ _ => true
  | .snap _ => true
  | .reset _ _ => true
  | _ => false

/-- A halt from outside the instruction in hand, of grants that land past the limit under STRICT: between instructions, so that a COPY,
SNAP or DRST completes first and any other wait is abandoned (R199). -/
def State.seqOver (s : State) (i code pc : Nat) : State :=
  if s.midway i then (s.setThread i { s.thread i with halt := true }).seqReport i code pc
  else if s.thState i = 2 || s.thState i = 3 then (s.seqHaltAt i code pc).abandonWaits i
  else s.seqCapture i code pc

/-- A write of STOP. -/
def State.threadStop (s : State) (i : Nat) : State :=
  let st := s.thState i
  if st = 2 || (st = 3 && !(s.midway i)) then s.threadStopNow i
  else if st = 3 then s.setThread i { s.thread i with stop := true }
  else s.setThread i { s.thread i with armed := [] }

/-! ### Parking (R16, R17, R154, R205, R212) -/

/-- A FIRE of the same cycle as a level-1 park is taken back: it takes STATION_PARKED (R17, R212). -/
def State.revokeFires (s : State) (st : Nat) : State :=
  let mine (f : Flight) : Bool := f.station == st && f.at_ == s.time + 8 + 4 * hops f.cl (s.station st).cluster
  (s.flights.filter mine).foldl
    (fun t f =>
      let i := 8 * f.cl + f.th
      let v := t.thread i
      let t := (t.setStation st { t.station st with firer := f.was }).setThread i
        { v with fired := if f.first then v.fired.erase st else v.fired }
      if t.thState i != 2 then t
      else if t.bit .CSQ_TH_REGION_STRICT i then (t.seqHaltAt i 0x10 f.pc).setPc i f.pc
      else t.seqRecoverAt i 0x10 f.pc true)
    { s with flights := s.flights.filter (fun f => !(mine f)) }

/-- Parks a station: at once when it stands at a tile boundary, else at its next one (R16); during a snapshot when tile starts resume
(R205). But for a stepper's own parks, the action is one of level 1. -/
def State.park (s : State) (st : Nat) (h : Hold) : State :=
  let own := h == .descriptor || h == .sweep
  let s := if own || (s.station st).state = 0 then s else s.revokeFires st
  let x := s.station st
  if x.state = 0 then s
  else
    let y := { x with holds := if x.holds.contains h then x.holds else x.holds ++ [h], parkAt := if own then x.parkAt else s.time + 1 }
    s.setStation st (if s.atWork st || (s.frozen x.core && !own) then y else { y with state := y.rest })

/-- Takes a reason away; the station resumes when none is left (R154). -/
def State.unpark (s : State) (st : Nat) (h : Hold) : State :=
  let x := s.station st
  if x.state = 0 then s
  else
    let y := { x with holds := x.holds.filter (fun g => g != h) }
    s.setStation st (if x.state = 3 then { y with state := y.rest } else y)

/-! ### Broadcast along the links (R345) -/

/-- Sends a broadcast value to the ranks that follow this device's in the binomial tree from round m on. -/
def State.sendBcast (s : State) (g m : Nat) (v : Word) : State :=
  let x := s.group g
  let ds := ranks x.devmask
  let i := ds.idxOf s.devId
  if x.scope = 2 then
    (List.range' m (clog2 ds.length - m)).foldl
      (fun t k => t.sendTo (ds.getD ((i + 2 ^ k) % max ds.length 1) 0) 6 0
        (leBytes 1 g ++ leBytes 2 (x.count % 65536) ++ leBytes 4 v.toNat)) s
  else s

end Sys2Proof.Machine
end

