-- ==== Sys2Proof/Machine/EngineOps.lean ====
section
/-!
DEFINITION. What a matrix engine computes: cell levels and the remap table, the elements of an input vector and their
input codes (R93 to R95, R243, R463), zero detection (R55), the conversion of a phase with its saturation policies (R57 to
R63), drift correction and accumulation (R66, R67, R108), and the requests to the OCU (R127, R128, R62).
-/

namespace Sys2Proof.Machine
open Sys2Proof

/-! ### The array (R45 to R47, R105) -/

/-- The key of a pair in `cells`: pairs 0 to 255 are weights, 256 to 271 spares, 272 to 275 references. -/
def cellKey (pe row pair : Nat) : Nat := (pe * 256 + row) * 276 + pair

/-- The level of a reference pair as made (R105). -/
def refLevel (pair : Nat) : Int := match pair with | 273 => 8 | 274 => 15 | 275 => -15 | _ => 0

/-- The weight of a pair: its G+ level minus its G- level (R45). -/
def State.level (s : State) (pe row pair : Nat) : Int :=
  let v := smapGet 0 s.cells (cellKey pe row pair)
  if v = 0 then refLevel pair else (((v - 1) / 16 : Nat) : Int) - (((v - 1) % 16 : Nat) : Int)

/-- Programs a pair to a weight (R46). -/
def State.setLevel (s : State) (pe row pair : Nat) (w : Int) : State :=
  let v := 1 + (if 0 ≤ w then 16 * w.toNat else (-w).toNat)
  { s with cells := smapSet 0 s.cells (cellKey pe row pair) v }

/-- Erases a row group: both cells of every pair at level 0 (R46). -/
def State.eraseRg (s : State) (pe r : Nat) : State :=
  let lo := cellKey pe (64 * r) 0
  let hi := cellKey pe (64 * r + 64) 0
  let s := { s with cells := s.cells.filter (fun e => !(lo ≤ e.1 && e.1 < hi)) }
  (List.range 64).foldl (fun t k => [273, 274, 275].foldl (fun u f => u.setLevel pe (64 * r + k) f 0) t) s

/-- The pair whose converter stands in for a weight column: a valid spare, or the column itself (R78). -/
def State.pairOf (s : State) (pe column : Nat) : Nat :=
  match (List.range 16).find? (fun i => s.bit .ME_REMAP_VALID (pe * 16 + i) && !(s.bit .ME_REMAP_FAULTY (pe * 16 + i)) &&
      s.getF .ME_REMAP_COLUMN (pe * 16 + i) == column) with
  | some i => 256 + i
  | none => column

/-! ### Elements of an input vector -/

/-- The elements of vector v of a tile, each with whether it is poison (R92). -/
def State.tileVec (s : State) (r : SlotRef) (fmt nelem v : Nat) : List (Nat × Bool) :=
  let a := s.slotAddr r + 64 + v * vstride fmt nelem
  (List.range nelem).map (fun k =>
    let x := leNat (s.bytes (a + 2 * k) 2)
    (x, elemPoison fmt x || s.readsPoison (a + 2 * k) 2))

/-- What one tile of a window contributes to input vector v (R463): its elements, zeros where it holds no such vector, and
poison throughout where it is torn (R166). -/
def State.windowPart (s : State) (fmt v : Nat) (newest r : SlotRef) : List (Nat × Bool) :=
  if (s.hdrFlags r).testBit 2 then List.replicate (s.hdrNelem newest) (0, true)
  else if v < s.hdrNvec r then s.tileVec r fmt (s.hdrNelem r) v
  else List.replicate (s.hdrNelem r) (0, false)

/-- Input vector v of a window, oldest tile first (R463). -/
def State.windowVec (s : State) (fmt v : Nat) (ins : List SlotRef) : List (Nat × Bool) :=
  match ins.getLast? with
  | some n => ins.flatMap (s.windowPart fmt v n)
  | none => []

/-- The inner index that a row of an engine holds, if any (R243): row groups of RGMASK in ascending order. -/
def Desc.innerOf (x : Desc) (e row : Nat) : Option Nat :=
  let rgs := rowGroups (opwOf (x.opws.getD e 0)).rgmask
  if rgs.contains (row / 64) then some (x.rowBase e + 64 * rgs.idxOf (row / 64) + row % 64) else none

/-- The int16 value of an element; the flag tells of a saturation (R94). -/
def elemQ (fmt : Nat) (exp : Int) (x : Nat) : Int × Bool :=
  if fmt = 0 then (int16Val x, false) else toInt16 exp (bf16Val x)

/-- One row of the input buffer: its code and whether poison came in and a conversion saturated (R93 to R95). -/
structure RowIn where
  code   : Int
  poison : Bool
  sat    : Bool
deriving DecidableEq, Repr

/-- A row of an engine from the elements of the input vector. -/
def rowIn (d : Desc) (e fmt : Nat) (exp : Int) (elems : List (Nat × Bool)) (row : Nat) : RowIn :=
  match d.innerOf e row with
  | none => { code := 0, poison := false, sat := false }
  | some k =>
    match elems[k]? with
    | none => { code := 0, poison := false, sat := false }
    | some (x, p) =>
      if p then { code := 0, poison := true, sat := false }
      else
        let q := elemQ fmt exp x
        { code := inputCode (opwOf (d.opws.getD e 0)).inmode q.1, poison := false, sat := q.2 }

/-! ### Shadow rows (R126) -/

/-- The key of a shadow copy: correction station, shadow row, pair. -/
def shadowKey (cst k pair : Nat) : Nat := (cst * 64 + k) * 256 + pair

def State.shadowLevel (s : State) (cst k pair : Nat) : Int := smapGet 0 s.shadows (shadowKey cst k pair)
def State.weakBit (s : State) (cst k pair : Nat) : Bool := smapGet false s.weak (shadowKey cst k pair)

/-- The level that a shadow row applies to logical column j, and the part of it that lies in weak cells. -/
def State.shadowCol (s : State) (cst k wmode j : Nat) : Int :=
  if wmode = 0 then s.shadowLevel cst k j
  else if wmode = 1 then 16 * s.shadowLevel cst k (2 * j) + s.shadowLevel cst k (2 * j + 1)
  else s.shadowLevel cst k (2 * j)
def State.weakCol (s : State) (cst k wmode j : Nat) : Int :=
  let w (p : Nat) : Int := if s.weakBit cst k p then s.shadowLevel cst k p else 0
  if wmode = 0 then w j else if wmode = 1 then 16 * w (2 * j) + w (2 * j + 1) else w (2 * j)

/-- Whether a shadow row has a weak cell. -/
def State.hasWeak (s : State) (cst k : Nat) : Bool := (List.range 256).any (fun p => s.weakBit cst k p)

/-- The shadow rows of an engine: the index of the copy and the row. -/
def Station.shadowRows (c : Station) (e : Nat) : List (Nat × Nat) :=
  c.shadow.zipIdx.filterMap (fun p => if p.1.1 == e then some (p.2, p.1.2) else none)

/-- Whether the shadow holds all 64 rows of a row group of an engine (R63). -/
def Station.covers (c : Station) (e r : Nat) : Bool :=
  (List.range 64).all (fun k => c.shadow.contains (e, 64 * r + k))

/-- The shadow copy of a row. -/
def Station.copyOf (c : Station) (e row : Nat) : Nat := c.shadow.idxOf (e, row)

/-- The clipped code of a row, and its residual (R127). -/
def clip (c : Station) (e row : Nat) (code : Int) : Int × Int :=
  let lim := c.clip.getD e 65535
  if lim != 65535 && c.shadow.contains (e, row) && lim < code.natAbs then
    let sg : Int := if code < 0 then -1 else 1
    (sg * lim, sg * ((code.natAbs : Int) - lim))
  else (code, 0)

/-! ### Zero detection (R55) -/

/-- The nibble of weight 16^n that a code drives in a sub-pass (R50, R51). -/
def nibble (code : Int) (neg : Bool) (n : Nat) : Nat :=
  if neg == decide (code < 0) then code.natAbs / 16 ^ n % 16 else 0

/-- The phases of a vector in their order, and how many executions zero detection removes (R53, R55, R76, R87). -/
def schedule (o : Opw) (bringup : Bool) (codes : List Int) : List Phase × Nat :=
  let reps := o.repeats bringup
  let nibs := (List.range o.nibbles).reverse
  let subs := if o.signed then [false, true] else [false]
  (rowGroups o.rgmask).foldl
    (fun acc r =>
      let cs := (codes.drop (64 * r)).take 64
      subs.foldl
        (fun acc neg =>
          nibs.foldl
            (fun acc n =>
              if cs.any (fun c => nibble c neg n != 0) then
                (acc.1 ++ (List.range reps).map (fun k => { rg := r, neg := neg, nib := n, rep := k }), acc.2)
              else (acc.1, acc.2 + reps))
            acc)
        acc)
    ([], 0)

/-! ### Conversion (R57 to R63, R81) -/

/-- A 6-bit conversion, of 4 bits in bring-up service: the code, at its limit where the converter saturates. -/
def convert (p : Int) (lsb : Nat) (bringup : Bool) : Int × Bool :=
  let hi : Int := if bringup then 7 else 31
  if (2 * hi + 1) * lsb ≤ 2 * p then (hi, true)
  else if 2 * p ≤ -(2 * hi + 3) * lsb then (-(hi + 1), true)
  else (roundAway p lsb, false)

/-- What a pair's conversion yields under the saturation policy: its value in product units, whether it contributes a code,
the clamps, and whether it splits, escalates or misses an escalation. -/
structure Conv where
  val    : Int
  n      : Nat
  clamps : Nat
  split  : Bool
  esc    : Bool
  miss   : Bool
deriving DecidableEq, Repr

/-- The conversion of a pair from the sums of its two halves of 32 rows. -/
def convPair (lo hi : Int) (lsb : Nat) (bringup : Bool) (satpol : Nat) (covered : Bool) : Conv :=
  let c := convert (lo + hi) lsb bringup
  if !c.2 then { val := c.1 * lsb, n := 1, clamps := 0, split := false, esc := false, miss := false }
  else if satpol = 1 then
    let a := convert lo lsb bringup
    let b := convert hi lsb bringup
    { val := (a.1 + b.1) * lsb, n := 1, clamps := a.2.toNat + b.2.toNat, split := true, esc := false, miss := false }
  else if satpol = 2 && covered then { val := 0, n := 0, clamps := 0, split := false, esc := true, miss := false }
  else { val := c.1 * lsb, n := 1, clamps := 1, split := false, esc := false, miss := satpol == 2 }

/-- The sum over rows of nibble times weight, for 32 rows from `from_` on. -/
def State.halfSum (s : State) (pe pair : Nat) (nibs : List Nat) (from_ : Nat) : Int :=
  (nibs.zipIdx.map (fun p => if p.1 = 0 then 0 else (p.1 : Int) * s.level pe (from_ + p.2) pair)).sum

/-! ### Correction and accumulation (R66, R67, R108) -/

/-- γ × (code sum ÷ A − δ × n ÷ A), rounded to nearest with ties away from zero: γ in 1/16,384, δ in 1/16. -/
def corrected (gain : Nat) (offset : Int) (sum : Int) (n a : Nat) : Int :=
  roundAway ((gain : Int) * (16 * sum - offset * n)) (262144 * a)

/-- The unit of correction of a weight pair and its logical column: pairs of a twin are summed before correction. -/
def unitOf (wmode pair : Nat) : Nat := if wmode = 2 then pair / 2 else pair
def columnOf (wmode unit : Nat) : Nat := if wmode = 1 then unit / 2 else unit
/-- H of R66. -/
def sliceWeight (wmode unit : Nat) : Int := if wmode = 1 && unit % 2 == 0 then 16 else 1

/-- An addition to an accumulator bank; the count is of saturating additions. -/
def addAcc (m : SMap Int × Nat) (j : Nat) (v : Int) : SMap Int × Nat :=
  let r := sat32 (smapGet 0 m.1 j + v)
  (smapSet 0 m.1 j r.1, m.2 + r.2.toNat)

/-- Whether an engine's counters were cleared in this very cycle: an event that falls in it is not counted (R87). -/
def State.cleared (s : State) (pe : Nat) : Bool := smapGet 0 s.clrAt pe == s.time + 1

/-- Counts events of an engine in a counter of Table 2.8 that holds at its maximum, or in one that wraps. -/
def State.meHold (s : State) (f : Fld) (pe n : Nat) : State := s.addHold f pe (if s.cleared pe then 0 else n)
def State.meWrap (s : State) (f : Fld) (pe n : Nat) : State := s.addWrap f pe (if s.cleared pe then 0 else n)

/-- The saturating additions of an engine's current vector: each counts and marks the vector, unless poison taints its results
(R67, R92). -/
def State.accSat (s : State) (pe n : Nat) : State :=
  let e := s.engine pe
  let k := if e.cur.any Vec.poison then 0 else n
  (s.setEngine pe { e with cur := e.cur.map (fun v => { v with sat := v.sat || k != 0 }) }).meHold .ME_ACCSAT_COUNT pe k

/-- Adds terms by column to the current vector of an engine. -/
def State.addTerms (s : State) (pe : Nat) (ts : List (Nat × Int)) : State :=
  let e := s.engine pe
  let r := ts.foldl (fun m t => addAcc m t.1 t.2) (e.acc, 0)
  (s.setEngine pe { e with acc := r.1 }).accSat pe r.2

/-! ### Requests to the OCU (R42) -/

/-- The queue with a request that arrives: behind the others, but for those of its own cycle from a higher core. -/
def queueOcu : List OcuReq → OcuReq → List OcuReq
  | [], r => [r]
  | q :: qs, r => if r.at_ = q.at_ && r.core < q.core then r :: q :: qs else q :: queueOcu qs r

/-- A request arrives: it is queued, or while its core has four outstanding its stepper holds it. -/
def State.ocuPush (s : State) (c : Nat) (r : OcuReq) : State :=
  let o := s.ocu c
  if (o.queue.filter (fun q => q.core == r.core)).length < 4 then
    let q := queueOcu o.queue { r with at_ := s.time }
    (s.setOcu c { o with queue := q }).setF .OCU_STAT_HIWAT c (max (s.getF .OCU_STAT_HIWAT c) q.length)
  else s.setOcu c { o with held := o.held ++ [r] }

/-- Whether the stepper of a core holds a request of a station, which then stalls (R42). -/
def State.ocuStalls (s : State) (c core station : Nat) : Bool :=
  (s.ocu c).held.any (fun r => r.core == core && (s.engine r.eng).station == station)

/-- The oldest held request of a core that has room again joins the queue. -/
def State.ocuRefill (s : State) (c core : Nat) : State :=
  let o := s.ocu c
  match o.held.find? (fun q => q.core == core) with
  | some r =>
    if (o.queue.filter (fun q => q.core == core)).length < 4 then
      (s.setOcu c { o with held := o.held.erase r }).ocuPush c r
    else s
  | none => s

/-! ### Tiles of an engine -/

/-- The tile in progress of a descriptor of a core. -/
def State.tileOf (s : State) (core d : Nat) : Option Tile := (s.coreTiles core).find? (fun t => t.d == d)

/-- Replaces the tile in progress of the same descriptor. -/
def State.putTile (s : State) (core : Nat) (t : Tile) : State :=
  s.setCoreTiles core ((s.coreTiles core).map (fun u => if u.d == t.d then t else u))

/-- The vectors that wait for the VXE of a core: when their latch filled, and the logical engine. -/
def State.offered (s : State) (core : Nat) : List (Nat × Nat × Nat) :=
  (List.range 16).filterMap (fun e =>
    match (s.engine (s.physOf core e)).latch with
    | some l => if l.offered then some (l.since, e, 0) else none
    | none => none)

/-- Whether a cluster runs in the reduced bring-up service (R81): it is not yet in full service. -/
def State.bringup (s : State) (cl : Nat) : Bool := !((s.getF .GCTL_START_FULL 0).testBit cl)

/-- Whether an engine stands between two vectors (R80). DESIGN CHOICE: the boundary comes with the copy into the readout latch, so
that no step starts while a finished vector waits for a full latch (log entry 85). -/
def Engine.boundary (e : Engine) : Bool := match e.cur with | some v => !v.started | none => true

/-- The logical columns of an engine's word. -/
def Engine.columns (e : Engine) : Nat := (opwOf e.opw.toNat).columns

/-! ### Row groups, and the steps of Beaver on an engine (R43, R80, R119) -/

/-- The row groups of a matrix station in the order of its inner rows (R243). -/
def State.innerRgs (s : State) (core : Nat) (d : Desc) : List Nat :=
  d.members.flatMap (fun e => (rowGroups (opwOf (d.opws.getD e 0)).rgmask).map (fun r => rgIx (s.mapOf core e) r))

/-- The loaded matrix stations that use one of some row groups. -/
def State.stationsUsing (s : State) (rgs : List Nat) : List Nat :=
  (s.stations.filter (fun e => e.2.state != 0 && e.2.kind == 0 &&
    (s.innerRgs e.2.core (s.desc e.2.core e.2.d)).any rgs.contains)).map (·.1)

/-- The engine of the step that an instance has to do: of the row group to erase, of the spare pair, or of the row. -/
def Beaver.engine (b : Beaver) : Option Nat :=
  if b.state != 3 then none
  else match b.erase, b.spare with
    | g :: _, _ => some (g / 4)
    | [], some w => some w.pe
    | [], none => b.rows.head?.map (fun p => p.1 / 4)

/-- The engines on which an instance has steps to do: those of the shard that it reads back, or that of its next step. -/
def State.stepsOf (s : State) (b : Beaver) : List Nat :=
  match b.check with
  | some n => ((s.shard n).rgs.map (fun g => g / 4)).dedup
  | none => b.engine.toList

/-- Whether the stations on a row group are at a tile boundary and, under a stalled swap, parked (R251 step 4, R264). -/
def State.rgIdle (s : State) (x : Beaver) (g : Nat) : Bool :=
  (s.stationsUsing [g]).all (fun st => !(s.inProgress st) &&
    (x.job.kind != .swap || (s.station st).holds.contains .swap))

/-- Whether an instance's next step may begin: an erase waits for the stations on its row group, and in band T4 neither an erase
step nor a new row is started (R251, R271). -/
def State.stepMay (s : State) (x : Beaver) (pe : Nat) : Bool :=
  let hot := s.getF .CPT_STAT_BAND (pe / 136) == 4
  x.check.isSome || (match x.erase with
    | g :: _ => !hot && s.rgIdle x g
    | [] => x.spare.isSome || x.iter != 0 || !hot)

/-! ### Charge (R393, R403) -/

/-- Whether a cluster has no tiles to pause between (R403): in start-up steps 1 to 9, in a board-test session, in a wake from Bear state
and in a cold domain reset until its check has ended. -/
def State.sparing (s : State) (c : Nat) : Bool :=
  (1 ≤ s.getF .GCTL_START_STEP 0 && s.getF .GCTL_START_STEP 0 ≤ 9) || s.bit .SDAC_STAT_OWNER 0 ||
    s.getF .GCTL_PWRST_STATE 0 == 3 || s.resets.any (fun r => r.cold && r.cores.any (fun k => k / 8 == c))

/-- A keep-alive burst, a calibration sweep or a step of an engine is to begin in a cluster. In the times of R403 it does so only when its
charge, an estimate that is a free value, is in the account, from which it is drawn. At other times the charge only delays (log
entry 105). -/
def State.draw (s : State) (c : Nat) : State × Bool :=
  if s.sparing c then
    let e := Config.freeNat s.fresh
    let a := smapGet 0 s.accounts c
    if e ≤ a then ({ s.burn with accounts := smapSet 0 s.accounts c (a - e) }, true) else (s.burn, false)
  else (s, true)

/-! ### Operations that wait for an engine, by rank of R119: 1 Beaver, 2 and 3 calibration, 4 touch-up, 5 keep-alive -/

def State.waitsBeaver (s : State) (pe : Nat) : Bool :=
  s.beavers.any (fun p => match p.2 with | some b => (s.stepsOf b).contains pe && s.stepMay b pe | none => false) && s.tokenHeld.contains pe
def State.waitsCal (s : State) (pe : Nat) : Bool :=
  match s.dac.serving with
  | some c => (s.pass c).left.contains pe
  | none => false
def State.waitsTouch (s : State) (pe : Nat) : Bool :=
  (List.range 4).any (fun r => (s.tracker (rgIx pe r)).due) && s.tokenHeld.contains pe
def State.waitsBurst (s : State) (pe : Nat) : Bool :=
  (List.range 4).any (fun r => (s.tracker (rgIx pe r)).deferred != [])
def State.opWaits (s : State) (pe : Nat) : Bool :=
  s.waitsBeaver pe || s.waitsCal pe || s.waitsTouch pe || s.waitsBurst pe

/-- Asks for a programming token for an engine (R43). -/
def State.askToken (s : State) (pe : Nat) : State :=
  if s.tokenHeld.contains pe || s.tokenWait.any (fun t => t.engine == pe) then s
  else { s with tokenWait := s.tokenWait ++ [{ since := s.time, engine := pe }] }

/-- Returns the token of an engine; one is asked for again if a step or a touch-up of the engine is still to do. -/
def State.freeToken (s : State) (pe : Nat) : State :=
  let more := s.beavers.any (fun p => match p.2 with | some b => (s.stepsOf b).contains pe | none => false) ||
    (List.range 4).any (fun r => (s.tracker (rgIx pe r)).due)
  let s := { s with tokenHeld := s.tokenHeld.erase pe }
  if more then s.askToken pe else { s with tokenWait := s.tokenWait.filter (fun t => t.engine != pe) }

/-- An instance has work, and asks for the tokens of its engines. -/
def State.beaverBegin (s : State) (b : Nat) (x : Beaver) : State :=
  (s.stepsOf x).foldl State.askToken (s.setBeaver b (some x))

/-- An instance has nothing more to do, and returns its tokens. -/
def State.beaverStop (s : State) (b : Nat) : State :=
  match s.beaver b with
  | some x => (s.stepsOf x).foldl State.freeToken (s.setBeaver b none)
  | none => s

/-- An operation other than a vector has run at a boundary: the next vector may again run ahead (R80). -/
def State.opDone (s : State) (pe : Nat) : State := s.setEngine pe { s.engine pe with ran := false }

end Sys2Proof.Machine
end

