-- ==== Sys2Proof/Machine/Wear.lean ====
section
/-!
DEFINITION. What wear does to the arrays: the remap of a column (R78, R254), the retirement of an engine (R79, R268), the loss
of a logical engine (R269), weak cells (R129), and the levels and digest of a shard as its cells hold them (R245, R257).
-/

namespace Sys2Proof.Machine
open Sys2Proof

/-! ### Bands and temperatures -/

/-- The cluster and core of a physical engine, and its place. -/
def clOf (pe : Nat) : Nat := pe / 136
def coreOf (pe : Nat) : Nat := pe / 17
def placeOf (pe : Nat) : Nat := pe % 17

/-- UNIT of an event that concerns an engine (R462). -/
def engUnit (pe : Nat) : Nat := if placeOf pe = 16 then 0x80 + coreOf pe % 8 else 16 * (coreOf pe % 8) + placeOf pe

def State.band (s : State) (c : Nat) : Nat := s.getF .CPT_STAT_BAND c
/-- The cluster median in 1/8 °C (R399). -/
def State.median (s : State) (c : Nat) : Int := int16Val (s.getF .CPT_STAT_MEDIAN c)

/-! ### Drift trackers -/

/-- A tracker starts from its factory baseline at the cluster's temperature, provisional (R110). -/
def State.trackerStart (s : State) (pe r : Nat) : State :=
  let g := rgIx pe r
  let b := Config.baseline g
  let dt := s.median (clOf pe) - b.1.2.2.2.2
  let gain : Int := if b.2 then b.1.1 + roundAway (b.1.2.2.1 * dt) 8 else 16384
  let ofs : Int := if b.2 then b.1.2.1 + roundAway (b.1.2.2.2.1 * dt) 8 else 0
  let s := (s.setF .ME_DTGAIN_PROV g 1).setF .ME_DTGAIN_GAIN g (half gain)
  let s := s.setF .ME_DTOFS_OFFSET g (half ofs)
  s.setTracker g { s.tracker g with cur := Samples.none, since := s.time, deferred := [], rejectRun := 0, retrim := false }

/-- The times that a cluster has spent in each band up to now. -/
def State.bandTimes (s : State) (c : Nat) : List Nat :=
  (List.range 5).map (fun b => smapGet 0 s.bandTime (5 * c + b) +
    (if s.band c = b then s.time - smapGet 0 s.bandAt c else 0))

/-- A row group has been programmed: its tracker restarts with no rejections counted and its touch-up account is 0 (R110, R121,
R139). -/
def State.rgProgrammed (s : State) (g : Nat) : State :=
  let s := (s.trackerStart (g / 4) (g % 4)).setF .ME_DTGAIN_REJECTS g 0
  let x := s.tracker g
  let s := s.setTracker g { x with account := 0, snap := s.bandTimes (clOf (g / 4)), halvings := 0, due := false, row := 0, steps := 0, gainRef := s.getF .ME_DTGAIN_GAIN g }
  s.setF .ME_CALSTAT_EARLY_TU (g / 4) (withBit (s.getF .ME_CALSTAT_EARLY_TU (g / 4)) (g % 4) false)

/-- Schedules an early touch-up of a row group (R121). -/
def State.earlyTouchup (s : State) (pe r : Nat) : State :=
  s.setF .ME_CALSTAT_EARLY_TU pe (withBit (s.getF .ME_CALSTAT_EARLY_TU pe) r true)

/-- A loader job, a touch-up or a band change makes the shutdown record unclean (R382). -/
def State.unclean (s : State) : State :=
  { s.setF .GCTL_PWRST_CLEAN 0 0 with shutRec := s.shutRec.map (fun r => { r with clean := false }) }

/-! ### Row groups, shards and stations -/

/-- Whether a row group holds weights of a shard. -/
def State.holdsWeights (s : State) (g : Nat) : Bool := s.shards.any (fun e => e.2.state != 0 && e.2.rgs.contains g)

/-- Whether the drift tracker of a row group is active: the row group holds weights of some station (R109, R139). -/
def State.rgActive (s : State) (g : Nat) : Bool :=
  s.shards.any (fun e => e.2.state != 0 && e.2.rgs.contains g && (s.station e.2.station).state != 0)

/-- The trackers of row groups that have become active since `old` start from their baselines, where their core is on (R110). -/
def State.activate (s old : State) : State :=
  ((s.shards.flatMap (fun e => e.2.rgs)).dedup.filter (fun g => s.rgActive g && !(old.rgActive g) && s.coreOn (g / 68))).foldl
    (fun t g => t.trackerStart (g / 4) (g % 4)) s

/-- The logical engine that a physical engine serves (R32). -/
def State.logicalOf (s : State) (pe : Nat) : Option Nat :=
  if placeOf pe = 16 then
    if s.bit .CCTL_EMAP_SPARE_USED (coreOf pe) then some (s.getF .CCTL_EMAP_SPARE_FOR (coreOf pe)) else none
  else some (placeOf pe)

/-- Whether a logical engine of a core has no working physical engine (R269). -/
def State.engineLost (s : State) (core e : Nat) : Bool :=
  (s.getF .CCTL_EMAP_RETIRED core).testBit e &&
    !(s.bit .CCTL_EMAP_SPARE_USED core && s.getF .CCTL_EMAP_SPARE_FOR core == e)

/-- The WMODE of a matrix station. -/
def Desc.wmode (d : Desc) : Nat := (opwOf (d.opws.getD d.head 0)).wmode

/-! ### The levels of a shard (R245, R257) -/

/-- The level of a column pair of a row as it is taken to be: a weak cell takes its shadow copy's level, a remapped column
that of its spare pair. -/
def State.heldLevel (s : State) (st pe row pair : Nat) : Int :=
  let y := s.station st
  let c := s.station (y.mate.getD 0)
  let e := (s.logicalOf pe).getD 16
  let k := c.copyOf e row
  match y.mate with
  | some cst =>
    if y.kind = 0 && y.core = coreOf pe && c.shadow.contains (e, row) && s.weakBit cst k pair then s.shadowLevel cst k pair
    else s.level pe row (s.pairOf pe pair)
  | none => s.level pe row (s.pairOf pe pair)

/-- The level code of inner row k, counted from K0, and column n of a shard. -/
def State.heldCode (s : State) (x : Shard) (k n : Nat) : Int :=
  let g := x.rgs.getD (k / 64) 0
  let w := s.heldLevel x.station (g / 4) (64 * (g % 4) + k % 64)
  if x.wmode = 0 then w n else if x.wmode = 1 then 16 * w (2 * n) + w (2 * n + 1) else w (2 * n)

/-- The digest of level codes (R245). -/
def codeDigest (codes : List Int) : List Byte := sha256 (codes.flatMap (fun c => leBytes 2 (half c)))

/-- The digest of a shard as its cells hold it. -/
def State.heldDigest (s : State) (x : Shard) : List Byte :=
  codeDigest ((List.range x.krows).flatMap (fun k => (List.range x.ncols).map (fun n => s.heldCode x k n)))

/-- A shard matches neither copy of its digest (Table 9.4). -/
def State.suspectShard (s : State) (n : Nat) : State :=
  let x := s.shard n
  let s := s.setShard n { x with state := 3, owed := false }
  let s := (s.stationsUsing x.rgs).foldl (fun t st => t.park st .suspect) s
  let s := s.addHold .WLD_MISMATCH_COUNT 0 1
  let ws : List Word := [BitVec.ofNat 32 n, BitVec.ofNat 32 x.station, BitVec.ofNat 32 x.model]
  let s := s.service x.owner 3 ws
  let s := if x.owner = 0 then s else s.service 0 3 ws
  s.raise 0x104 x.owner x.cluster 0xFF x.station []

/-! ### Remap (R78, R254) -/

/-- The next free spare pair of an engine that no instance is programming, in ascending order. -/
def State.freeSpare (s : State) (pe : Nat) : Option Nat :=
  let taken (i : Nat) : Bool := s.beavers.any (fun b => match b.2.bind (fun x => x.spare) with
    | some w => w.pe == pe && w.entry == i
    | none => false)
  (List.range 16).find? (fun i => !(s.bit .ME_REMAP_VALID (pe * 16 + i)) && !(s.bit .ME_REMAP_FAULTY (pe * 16 + i)) && !(taken i))

/-- The programming of the next free spare pair for a column: `own` are the rows of the row group in hand with their targets from
the buffer; in every other row group that holds weights it takes the column's levels as read back (R254). -/
def State.spareWork (s : State) (pe column : Nat) (own : List (Nat × Nat × Int)) : Option SpareWork :=
  (s.freeSpare pe).map (fun i =>
    let pair := s.pairOf pe column
    let rs := (List.range 4).filter (fun r => s.holdsWeights (rgIx pe r) && own.all (fun p => p.1 != rgIx pe r))
    let all := own ++ rs.flatMap (fun r => (List.range 64).map (fun k => (rgIx pe r, k, s.level pe (64 * r + k) pair)))
    { pe := pe, column := column, entry := i, all := all, todo := all, iter := 0 })

/-- A spare pair has been programmed and stands in for its column; a spare pair that stood in before is faulty (R78, R254). -/
def State.spareTake (s : State) (w : SpareWork) : State :=
  let k := w.pe * 16 + w.entry
  let old := s.pairOf w.pe w.column
  let s := if old < 256 then s
    else (s.setF .ME_REMAP_FAULTY (w.pe * 16 + (old - 256)) 1).setF .ME_REMAP_VALID (w.pe * 16 + (old - 256)) 0
  ((s.setF .ME_REMAP_VALID k 1).setF .ME_REMAP_COLUMN k w.column).addHold .WLD_REMAPCNT_COUNT 0 1

/-- A spare pair that failed is FAULTY, and the column goes to the next free one; none when there is none (R254). -/
def State.spareFails (s : State) (w : SpareWork) : State × Option SpareWork :=
  let t := s.setF .ME_REMAP_FAULTY (w.pe * 16 + w.entry) 1
  (t, (t.freeSpare w.pe).map (fun i => { w with entry := i, todo := w.all, iter := 0 }))

/-! ### Retirement (R268, R269) -/

/-- The stations of a core whose ENGMASK names a logical engine. -/
def State.stationsOn (s : State) (core e : Nat) : List Nat :=
  (s.stations.filter (fun x => x.2.state != 0 && x.2.kind == 0 && x.2.core == core &&
    (s.desc core x.2.d).engmask.testBit e)).map (·.1)

/-- Tells each owner of some stations that a logical engine is lost. -/
def State.tellLost (s : State) (core e : Nat) (sts : List Nat) : State :=
  ((sts.map (fun st => (s.station st).owner)).dedup).foldl
    (fun t o =>
      let n := (sts.filter (fun st => (s.station st).owner == o)).length
      t.service o 5 [BitVec.ofNat 32 (core / 8), BitVec.ofNat 32 (core % 8), BitVec.ofNat 32 e, BitVec.ofNat 32 n]) s

/-- A logical engine becomes unavailable (R269). -/
def State.loseEngine (s : State) (core e : Nat) : State :=
  let sts := s.stationsOn core e
  let s := s.setF .CCTL_EMAP_CAPACITY core (s.getF .CCTL_EMAP_CAPACITY core - 1)
  let s := sts.foldl (fun t st => t.park st .lost) s
  s.tellLost core e sts

/-- A station moves to its core's spare engine as a placement change at its next epoch boundary (R268). -/
def State.moveToSpare (s : State) (st : Nat) : State :=
  let y := s.station st
  if y.mig.any (fun m => m.weight) then s
  else
    let image := (List.range 64).map (fun k => BitVec.ofNat 32 (s.descWord y.core y.d k))
    let m : Migration := { core := y.core, d := y.d, image := image, model := y.model, layer := y.layer, weight := true, bases := [] }
    s.setStation st { y with mig := y.mig ++ [m] }

/-- An instance's work when a spare engine takes over: the row groups of its record that lay on the retired engine are erased and
programmed on the spare, from its buffer, and what else it had to do on the retired engine falls away. -/
def Beaver.toSpare (x : Beaver) (pe mes : Nat) (rgs : List Nat) : Beaver :=
  let mine (g : Nat) : Bool := g / 4 == pe
  let again := if x.state = 3 then rgs.filter (fun g => g / 4 == mes) else []
  let row := match x.rows.head? with | some p => mine p.1 | none => false
  { x with
    erase := x.erase.filter (fun g => !(mine g)) ++ again
    eraseN := match x.erase.head? with | some g => if mine g then 0 else x.eraseN | none => 0
    rows := x.rows.filter (fun p => !(mine p.1)) ++ again.flatMap (fun g => (List.range 64).map (fun r => (g, r)))
    iter := if row then 0 else x.iter
    okPairs := if row then [] else x.okPairs
    iters := x.iters.filter (fun p => !(mine p.1))
    spare := match x.spare with | some w => if w.pe = pe then none else some w | none => none }

/-- The spare engine takes over from a working engine (R268): each shard's levels are read back and checked against its digest, the
row groups pass to the spare, and those that no instance programs from its buffer are left to a job of their own; a station whose row
groups it is to program stays on the retired engine until then, any other moves at its next epoch boundary. -/
def State.useSpare (s : State) (core e : Nat) : State :=
  let pe := engIx core e
  let mes := engIx core 16
  let rs := (List.range 4).filter (fun r => s.holdsWeights (rgIx pe r))
  let bad := (s.shards.filter (fun x => x.2.state == 2 && x.2.rgs.any (fun g => g / 4 == pe) &&
    s.heldDigest x.2 != x.2.digest)).map (·.1)
  let s := [0, 1].foldl
    (fun t b => match (t.beaver b).bind (fun x => x.check) with
      | some n => if (t.shard n).rgs.any (fun g => g / 4 == pe) then t.beaverStop b else t
      | none => t) s
  let sh : SMap Shard := s.shards.map (fun x => (x.1, { x.2 with rgs := x.2.rgs.map (fun g => if g / 4 = pe then rgIx mes (g % 4) else g) }))
  let s := { s with shards := sh }
  let s := s.setF .CCTL_EMAP_RETIRED core (withBit (s.getF .CCTL_EMAP_RETIRED core) e true)
  let s := (s.setF .CCTL_EMAP_SPARE_USED core 1).setF .CCTL_EMAP_SPARE_FOR core e
  let rgsOf (x : Beaver) : List Nat := match x.record with | some n => (s.shard n).rgs | none => []
  let bs : SMap (Option Beaver) := s.beavers.map (fun b => (b.1, b.2.map (fun x => x.toSpare pe mes (rgsOf x))))
  let s := { s with beavers := bs }
  let buffered (g : Nat) : Bool := s.beavers.any (fun b => match b.2 with | some x => x.rows.any (fun p => p.1 == g) | none => false)
  let left := (rs.map (rgIx mes)).filter (fun g => !(buffered g))
  let s := { s with spareLeft := s.spareLeft ++ left }
  let s := if left.isEmpty then s else s.queueOwn { Job.blank .spare 0 none with rgs := left }
  let s := (s.stationsOn core e).foldl
    (fun (t : State) st =>
      let y := t.station st
      if (t.innerRgs y.core (t.desc y.core y.d)).any left.contains then t.setStation st { y with onOld := true } else t.moveToSpare st) s
  bad.foldl State.suspectShard (s.addHold .WLD_RETIRE_COUNT 0 1)

/-- An engine fails: the spare takes its logical index, or the index is lost. -/
def State.retire (s : State) (pe : Nat) : State :=
  let core := coreOf pe
  let e := placeOf pe
  let used := s.bit .CCTL_EMAP_SPARE_USED core
  if e = 16 then
    let s' := (s.setF .CCTL_EMAP_MES_RETIRED core 1).setF .CCTL_EMAP_SPARE_USED core 0
    if used then s'.loseEngine core (s.getF .CCTL_EMAP_SPARE_FOR core) else s'
  else if used || s.bit .CCTL_EMAP_MES_RETIRED core then
    (s.setF .CCTL_EMAP_RETIRED core (withBit (s.getF .CCTL_EMAP_RETIRED core) e true)).loseEngine core e
  else s.useSpare core e

/-- The column that an engine's pair serves: its own unless a spare pair has taken it, or the one that its remap entry names. -/
def State.columnAt (s : State) (pe pair : Nat) : Option Nat :=
  if pair < 256 then (if s.pairOf pe pair = pair then some pair else none)
  else if pair < 272 && s.bit .ME_REMAP_VALID (pe * 16 + (pair - 256)) then some (s.getF .ME_REMAP_COLUMN (pe * 16 + (pair - 256)))
  else none

/-! ### Weak cells (R129) -/

/-- The matrix station that uses a row group and whose owner has the whole cluster, with its correction station (R125). -/
def State.corrected_ (s : State) (g row : Nat) : Option (Nat × Nat) :=
  let pe := g / 4
  ((s.stationsUsing [g]).filterMap (fun st =>
    let y := s.station st
    let p := (s.part y.owner).getD Partition.empty
    match y.mate with
    | some c =>
      let x := s.station c
      if (List.range 8).all (fun k => p.cores.contains (8 * clOf pe + k)) &&
          (x.shadow.length < 64 || x.shadow.contains ((s.logicalOf pe).getD 16, row)) then some (st, c) else none
    | none => none)).head?

/-- A weak cell is programmed to weight 0 and its row shadowed, the cell marked in the mask. -/
def State.shadowCell (s : State) (c pe row pair : Nat) : State :=
  let e := (s.logicalOf pe).getD 16
  let x := s.station c
  let known := x.shadow.contains (e, row)
  let k := if known then x.copyOf e row else x.shadow.length
  let s := if known then s
    else
      let t := s.setStation c { x with shadow := x.shadow ++ [(e, row)] }
      (List.range 256).foldl
        (fun u p => { u with shadows := smapSet 0 u.shadows (shadowKey c k p) (s.level pe row (s.pairOf pe p)), weak := smapSet false u.weak (shadowKey c k p) false }) t
  let s := { s with weak := smapSet false s.weak (shadowKey c k pair) true }
  s.setLevel pe row (s.pairOf pe pair) 0

/-- A weak cell of a pair of a row: a correction where R125 permits, else a job that remaps its column; a reference pair, or a column
for which no spare pair is free, retires the engine (R129, R254). -/
def State.weakCell (s : State) (pe row pair : Nat) : State :=
  match s.columnAt pe pair with
  | none => if 272 ≤ pair then s.retire pe else s
  | some column =>
    match s.corrected_ (rgIx pe (row / 64)) row with
    | some (_, c) => s.shadowCell c pe row column
    | none =>
      if (s.freeSpare pe).isNone then s.retire pe
      else if (s.jobQ 0).any (fun j => j.column == some (pe, column)) ||
          s.beavers.any (fun b => match b.2 with | some x => x.job.column == some (pe, column) | none => false) then s
      else s.queueOwn { Job.blank .remap 0 none with column := some (pe, column) }

end Sys2Proof.Machine
end

