-- ==== Sys2Proof/Machine/Accuracy.lean ====
section
/-!
DEFINITION. The machinery that keeps the engines accurate: drift trackers (R107 to R111), converter calibration (R112 to
R120), touch-up (R121, R122) and programming tokens (R43).
-/

namespace Sys2Proof.Machine
open Sys2Proof

/-! ### Bands -/

/-- f and the trim refresh interval in ns of a band (Table 4.5). -/
def filterOf (b : Nat) : Nat := match b with | 0 => 4 | 1 => 4 | 2 => 3 | _ => 2
def refreshOf (b : Nat) : Nat :=
  match b with | 0 => 120000000000 | 1 => 60000000000 | 2 => 20000000000 | 3 => 5000000000 | _ => 1000000000

/-! ### Drift trackers -/

/-- What R107 forms of the samples of an interval: the offset as a quotient, and numerator and denominator of the gain. -/
structure Measured where
  p   : Int
  q   : Nat
  num : Int
  den : Nat
deriving DecidableEq, Repr

/-- delta_m and gamma_m as exact quotients. -/
def Samples.measure (x : Samples) : Measured :=
  let p := x.sumF0
  let q : Int := x.nOff
  { p := p, q := x.nOff, num := (x.sEC * q - p * x.sE) * q,
    den := (x.sCC * q * q - 2 * p * q * x.sC + 3 * x.nGain * p * p).toNat }

/-- The tests of an update (R107). -/
def Measured.ok (m : Measured) : Bool :=
  m.den != 0 && m.q != 0 && decide (8 * (m.den : Int) ≤ 10 * m.num) && decide (10 * m.num ≤ 12 * (m.den : Int)) &&
    decide (m.p.natAbs ≤ 1024 * m.q)

/-- The filtered gain in 1/16,384, held to 0.75 to 1.25, and offset in 1/16; K is 1/k. -/
def Measured.gain (m : Measured) (g : Int) (K : Nat) : Int :=
  max 12288 (min 20480 (roundAway (g * K * m.den + 16384 * m.num - g * m.den) (K * m.den)))
def Measured.offset (m : Measured) (o : Int) (K : Nat) : Int := roundAway (o * K * m.q + 16 * m.p - o * m.q) (K * m.q)

/-- A rejected update: counted, and every third in a row schedules an early touch-up and raises an event. -/
def State.trackerReject (s : State) (pe r : Nat) : State :=
  let g := rgIx pe r
  let x := s.tracker g
  let s := s.addHold .ME_DTGAIN_REJECTS g 1
  if x.rejectRun + 1 < 3 then s.setTracker g { x with rejectRun := x.rejectRun + 1 }
  else ((s.setTracker g { x with rejectRun := 0 }).earlyTouchup pe r).raise 0x205 0xFF (clOf pe) (engUnit pe) 0xFFFF
    [BitVec.ofNat 8 r]

/-- An accepted update: the filtered values, no longer provisional; a gain that has moved by more than 2 % since the last
touch-up or programming schedules an early touch-up (R121). -/
def State.trackerAccept (s : State) (pe r : Nat) (m : Measured) : State :=
  let g := rgIx pe r
  let x := s.tracker g
  let K := if x.retrim then 1 else 2 ^ filterOf (s.band (clOf pe))
  let gain := m.gain (s.getF .ME_DTGAIN_GAIN g) K
  let ofs := m.offset (int16Val (s.getF .ME_DTOFS_OFFSET g)) K
  let s := ((s.setF .ME_DTGAIN_PROV g 0).setF .ME_DTGAIN_GAIN g gain.toNat).setF .ME_DTOFS_OFFSET g (half ofs)
  let s := s.setTracker g { x with rejectRun := 0, retrim := false }
  if x.gainRef < 50 * (gain - x.gainRef).natAbs then s.earlyTouchup pe r else s

/-- An update of a tracker from the samples of an interval (R107). -/
def State.trackerApply (s : State) (pe r : Nat) (x : Samples) : State :=
  let s := s.setF .ME_DTOFS_SAMPLES (rgIx pe r) (min x.nGain 65535)
  let m := x.measure
  if m.ok then s.trackerAccept pe r m else s.trackerReject pe r

/-- The intervals that have closed are judged in turn, up to the first with fewer than 64 gain samples, which waits for its
burst (R109). -/
def State.trackerJudge (s : State) (pe r : Nat) : List Samples → State
  | [] => s
  | x :: xs =>
    if x.nGain < 64 then s.setTracker (rgIx pe r) { s.tracker (rgIx pe r) with deferred := x :: xs }
    else State.trackerJudge (s.trackerApply pe r x) pe r xs

/-- TRACKER_UPDATE (R107, R109): at the end of a 1 ms interval the update is made, or deferred with fewer than 64 gain
samples; while one is deferred the interval is judged after it, on its own samples. -/
def execTrackerUpdate (now : Nat) (cl : Cluster) (co : Core) (e : Eng) (rg : RowGroup) (s : State) :
    Host.Outcome State Fault Refusal :=
  let s := s.advance now
  let pe := engIx (coreIx cl co) e.val
  let g := rgIx pe rg.val
  let x := s.tracker g
  if s.coreOn (coreIx cl co) && s.rgActive g && x.since + 1000000 ≤ s.time then
    let y := { x with cur := Samples.none, since := x.since + 1000000 }
    if x.deferred = [] then .next ((s.setTracker g y).trackerJudge pe rg.val [x.cur])
    else .next (s.setTracker g { y with deferred := x.deferred ++ [x.cur] })
  else .next s

/-- TRACKER_FIRST_UPDATE (R110): a provisional tracker has 64 gain samples. DESIGN CHOICE: the next 1 ms interval begins with this
update (log entry 88). -/
def execTrackerFirstUpdate (now : Nat) (cl : Cluster) (co : Core) (e : Eng) (rg : RowGroup) (s : State) :
    Host.Outcome State Fault Refusal :=
  let s := s.advance now
  let pe := engIx (coreIx cl co) e.val
  let g := rgIx pe rg.val
  let x := s.tracker g
  if s.coreOn (coreIx cl co) && s.rgActive g && s.bit .ME_DTGAIN_PROV g && x.deferred = [] &&
      64 ≤ x.cur.nGain then
    .next ((s.setTracker g { x with cur := Samples.none, since := s.time }).trackerApply pe rg.val x.cur)
  else .next s

/-- n burst phases, every row at nibble 15 (R109), added to samples. -/
def State.burst (s : State) (pe r n : Nat) (x : Samples) : Samples :=
  let unit : Nat := if s.bringup (clOf pe) then 2048 else 512
  let code (f : Nat) : Int := roundAway (s.halfSum pe f (List.replicate 64 15) (64 * r)) unit * unit
  let cs := [273, 274, 275].map (fun f => (refLevel f * 960, code f))
  { nOff := x.nOff + n, sumF0 := x.sumF0 + n * code 272, nGain := x.nGain + n,
    sEC := x.sEC + n * (cs.map (fun p => p.1 * p.2)).sum, sE := x.sE + n * (cs.map (·.1)).sum,
    sCC := x.sCC + n * (cs.map (fun p => p.2 * p.2)).sum, sC := x.sC + n * (cs.map (·.2)).sum }

/-- A deferred update of a row group is made with a burst's samples, and the intervals that closed meanwhile are judged (R109). -/
def State.burstDone (s : State) (pe r : Nat) (d : Samples) (ds : List Samples) : State :=
  let n := 64 - d.nGain
  let y := s.burst pe r n d
  let s := (s.setTracker (rgIx pe r) { s.tracker (rgIx pe r) with deferred := [] }).opDone pe
  let s := (s.addWrap .ME_PHCNT_COUNT pe n).addWrap .ME_KACNT_COUNT pe n
  (s.trackerApply pe r y).trackerJudge pe r ds

/-- KEEPALIVE_BURST (R109, R119, R403): at a vector boundary with no operation of higher rank waiting, the burst supplies the
missing gain samples; a burst without its charge waits. -/
def execKeepaliveBurst (now : Nat) (cl : Cluster) (co : Core) (e : Eng) (rg : RowGroup) (s : State) :
    Host.Outcome State Fault Refusal :=
  let s := s.advance now
  let pe := engIx (coreIx cl co) e.val
  let g := rgIx pe rg.val
  let x := s.tracker g
  match x.deferred with
  | d :: ds =>
    if s.coreOn (coreIx cl co) && (s.engine pe).boundary && !(s.waitsBeaver pe || s.waitsCal pe || s.waitsTouch pe) then
      let p := s.draw cl.val
      .next (if p.2 then p.1.burstDone pe rg.val d ds else p.1)
    else .next s
  | [] => .next s

/-! ### Converter calibration -/

/-- Cosine and sine of i steps of a turn in units of 2^-62, from those of one step. -/
def turn (c k : Int) : Nat → Int × Int
  | 0 => (2 ^ 62, 0)
  | i + 1 =>
    let p := turn c k i
    (roundAway (p.1 * c - p.2 * k) (2 ^ 62), roundAway (p.2 * c + p.1 * k) (2 ^ 62))

/-- T_k = -cos(pi C_k / 16,384) in units of 2^-62 of the sine amplitude (R112). -/
def transition (n : Nat) : Int := -(turn 4611685933648131909 884279713584815 (min n 16384)).1

/-- The cumulative count below code k in a calibration's histogram. -/
def countBelow (cal pe conv range : Nat) (k : Int) : Nat :=
  ((List.range 64).map (fun i => if (i : Int) - 32 < k then Config.histCount cal pe conv range (i - 32) else 0)).sum

/-- The trims of one converter at one range: the offset in LSB_g and the gain, as quotients. -/
structure ConvTrim where
  ofsNum  : Int
  ofsDen  : Nat
  gainNum : Int
  gainDen : Nat
deriving DecidableEq, Repr

/-- The least-squares line through transition levels k = -31 to +31, T = a + b k, as offset a / b in LSB_g and gain as b over its
nominal value, with the converter range 32 LSB_g at 100 / 104 of the amplitude (R112). -/
def leastSquares (ts : List (Int × Int)) : ConvTrim :=
  let n : Int := ts.length
  let sk := (ts.map (·.1)).sum
  let st := (ts.map (·.2)).sum
  let skk := (ts.map (fun p => p.1 * p.1)).sum
  let skt := (ts.map (fun p => p.1 * p.2)).sum
  let b := n * skt - sk * st
  let a := st * skk - sk * skt
  { ofsNum := if b < 0 then -a else a, ofsDen := b.natAbs, gainNum := b * 3328, gainDen := ((n * skk - sk * sk) * 100 * 2 ^ 62).natAbs }

/-- The trims of converter `conv` of an engine at a gain range: of the last calibration, or as refined since; the reference
converters, 272 to 275, have trims at x1 only (R112, R114). -/
def Trim.line (t : Trim) (pe conv range : Nat) : Option ConvTrim :=
  if 272 ≤ conv && range != 0 then none
  else if t.hist = 0 || t.refined != 0 then
    let x := Config.convTrim t.refined pe conv range
    some { ofsNum := x.1.1, ofsDen := x.1.2, gainNum := x.2.1, gainDen := x.2.2 }
  else
    some (leastSquares ((List.range 63).map (fun (i : Nat) => ((i : Int) - 31, transition (countBelow t.hist pe conv range ((i : Int) - 31))))))

def State.trimOf (s : State) (pe : Nat) : Trim := smapGet Trim.factory s.trims pe

/-- Puts a request into the DAC's queue: by arrival, then by cluster (R117). -/
def queueDac (q : List (Nat × Nat)) (r : Nat × Nat) : List (Nat × Nat) :=
  let ahead (x : Nat × Nat) : Bool := x.1 < r.1 || (x.1 == r.1 && x.2 < r.2)
  q.takeWhile ahead ++ r :: q.dropWhile ahead

/-- A calibration request of a cluster (R117): its pass waits behind the cluster's others, full calibration before two-point checks
(R119), and the cluster joins the DAC's queue unless it stands there or is being served. Waiting requests of one kind for engines
together are one request. -/
def State.queueCal (s : State) (c : Nat) (r : CalPass) : State :=
  let p := { r with since := s.time }
  let q := s.passQ c
  let busy := s.dac.serving == some c
  let first := if busy then q.take 1 else []
  let waiting := if busy then q.drop 1 else q
  let joined := !p.engines.isEmpty && waiting.any (fun x => !x.engines.isEmpty && x.full == p.full)
  let merge (x : CalPass) : CalPass :=
    if !x.engines.isEmpty && x.full == p.full then
      { x with engines := x.engines ++ p.engines.filter (fun e => !(x.engines.contains e)), band := p.band } else x
  let q := if joined then first ++ waiting.map merge
    else if p.full then first ++ waiting.filter (fun x => x.full) ++ p :: waiting.filter (fun x => !x.full)
    else q ++ [p]
  let s := s.setPassQ c q
  let pend := (if p.engines.isEmpty then (List.range 136).map (fun k => 136 * c + k) else p.engines).filter (fun pe => s.coreOn (coreOf pe))
  let s := pend.foldl
    (fun t pe => if t.getF .ME_CALSTAT_STATE pe == 4 then t else t.setF .ME_CALSTAT_STATE pe 3) s
  if busy || s.dac.queue.any (fun x => x.2 == c) then s else { s with dac := { s.dac with queue := queueDac s.dac.queue (p.since, c) } }

/-- The engines of a pass's position whose cores are on. -/
def State.passEngines (s : State) (c : Nat) (p : CalPass) : List Nat :=
  let es := if p.engines.isEmpty then (List.range 8).map (fun k => engIx (8 * c + k) p.pos) else p.engines
  es.filter (fun pe => s.coreOn (coreOf pe))

/-- The DAC begins to go through the gain ranges for engines of a cluster, with the sine for full calibration and DC levels for the
two-point check (R112, R114, R146). -/
def State.sweepBegin (s : State) (c : Nat) (p : CalPass) : State :=
  let temps := p.left.map (fun pe => (pe, s.median c))
  (s.setPass c { p with began := s.time, temps := temps }).setF .SDAC_CTL_MODE 0 (if p.doing then 1 else 2)

/-- Begins a position of the pass in progress: in a two-point pass an engine flagged as failed gets full calibration (R113). -/
def State.passBegin (s : State) (c : Nat) : State :=
  let p := s.pass c
  let es := s.passEngines c p
  let bad := if p.full then [] else es.filter (fun pe => s.getF .ME_CALSTAT_RETRIES pe == 3)
  let left := es.filter (fun pe => !(bad.contains pe))
  let s := es.foldl (fun t pe => (t.setF .ME_CALSTAT_STATE pe 4).setF .ME_CALSTAT_RETRIES pe 0) s
  s.sweepBegin c { p with left := left, doing := p.full, redo := bad }

/-- Moves a pass on while nothing is left of its position: full calibration of the engines that need it, the next position,
or the end of the pass, after which the cluster's next pass waits for the DAC from its own arrival. -/
def State.passStep (s : State) (c : Nat) : Nat → State
  | 0 => s
  | n + 1 =>
    let p := s.pass c
    if !p.left.isEmpty || s.dac.serving != some c then s
    else if !p.redo.isEmpty then s.sweepBegin c { p with left := p.redo, redo := [], doing := true }
    else if p.engines.isEmpty && p.pos < 16 then
      State.passStep ((s.setPass c { p with pos := p.pos + 1 }).passBegin c) c n
    else
      let s := s.setPassQ c ((s.passQ c).drop 1)
      let q := match s.passQ c with
        | x :: _ => queueDac s.dac.queue (x.since, c)
        | [] => s.dac.queue
      { s.setF .SDAC_CTL_SPAN 0 0 with dac := { s.dac with serving := none, queue := q } }

/-- The route to which the output stage is connected: during a passage the old one until 400 ns after the last change, then the new
(Table 5.3). -/
def State.connected (s : State) : Nat := if s.time < s.dac.switchAt then s.dac.was else s.getF .SDAC_CTL_ROUTE 0

/-- The DAC passes through the safe value to a span and a route (R147). -/
def State.dacPassage (s : State) (span route : Nat) : State :=
  let old := s.connected
  let s := (s.setF .SDAC_CTL_SPAN 0 span).setF .SDAC_CTL_ROUTE 0 route
  { s.setF .SDAC_STAT_PASSAGE 0 1 with dac := { s.dac with passUntil := max s.dac.passUntil (s.time + 1004), was := old, switchAt := s.time + 400 } }

/-- The settings of Table 5.2 for a gain range: span, sine amplitude and the magnitude of the DC levels. -/
def calSetting (g : Nat) : Nat × Nat × Nat := (3 - g, 4260, 3072)

/-- The DAC serves a cluster, at the settings of the first gain range (R117, R146). -/
def State.dacServe (s : State) (c : Nat) (rest : List (Nat × Nat)) : State :=
  let s := { s with dac := { s.dac with queue := rest, serving := some c } }
  let x := calSetting 0
  let s := ((s.setF .SDAC_FTW_FTW 0 13436000).setF .SDAC_LEVEL_AMP 0 x.2.1).setF .SDAC_LEVEL_DC 0 x.2.2
  ((s.dacPassage x.1 c).passBegin c).passStep c 18

/-- DAC_SERVE_CLUSTER (R117, R146, R403): the DAC turns to the first cluster queued, once the charge is there. -/
def execDacServeCluster (now : Nat) (s : State) : Host.Outcome State Fault Refusal :=
  let s := s.advance now
  match s.dac.queue with
  | (_, c) :: rest =>
    if s.dieOn 4 && s.dac.serving.isNone && !(s.bit .SDAC_STAT_OWNER 0) && !(s.bit .SDAC_STAT_PASSAGE 0) then
      let p := s.draw c
      .next (if p.2 then p.1.dacServe c rest else p.1)
    else .next s
  | [] => .next s

/-- The trims of an engine change, and the next tracker update of each of its active row groups replaces its state (R115). -/
def State.newTrim (s : State) (pe : Nat) (full : Bool) : State :=
  let n := s.fresh + 1
  let x : Trim := if full then { hist := n, refined := 0, at_ := s.time } else { s.trimOf pe with refined := n, at_ := s.time }
  let s := { s.burn with trims := smapSet Trim.factory s.trims pe x }
  (List.range 4).foldl (fun t r => if s.rgActive (rgIx pe r) then t.setTracker (rgIx pe r) { t.tracker (rgIx pe r) with retrim := true } else t) s

/-- An engine's part of the position is done. -/
def State.calDone (s : State) (c pe : Nat) : State :=
  let p := s.pass c
  ((s.setPass c { p with left := p.left.filter (fun x => x != pe) }).opDone pe).passStep c 18

/-- The median temperature at the start of an engine's attempt. -/
def CalPass.startTemp (p : CalPass) (pe : Nat) : Int :=
  match p.temps.find? (fun x => x.1 == pe) with | some x => x.2 | none => 0

/-- Whether the temperature has moved by more than 2 °C since the engine's attempt began (R113). -/
def State.tempMoved (s : State) (c pe : Nat) : Bool := 16 < (s.median c - (s.pass c).startTemp pe).natAbs

/-- A discarded attempt (R113): it is made again, for which the DAC goes through the ranges anew; the third flags the engine and
raises an event. -/
def State.calDiscard (s : State) (c pe : Nat) (temp : Bool) : State :=
  let s := (s.setB .ME_CALSTAT_TEMP_FAIL pe temp).setB .ME_CALSTAT_SHAPE_FAIL pe (!temp)
  let n := s.getF .ME_CALSTAT_RETRIES pe + 1
  let p := s.pass c
  let temps := (pe, s.median c) :: p.temps.filter (fun x => x.1 != pe)
  let s := (s.setF .ME_CALSTAT_RETRIES pe n).setPass c { p with temps := temps, began := s.time }
  if n < 3 then s.opDone pe
  else ((s.setF .ME_CALSTAT_STATE pe 5).raise 0x204 0xFF c (engUnit pe) 0xFFFF []).calDone c pe

/-- Whether a calibration of an engine can end now: the DAC serves its cluster, the engine is in the position in hand, its
core is on, it stands between vectors and no Beaver step waits (R80, R119). -/
def State.calRuns (s : State) (c pe : Nat) (full : Bool) : Bool :=
  s.dac.serving == some c && !(s.bit .SDAC_STAT_PASSAGE 0) && (s.pass c).left.contains pe && (s.pass c).doing == full &&
    s.coreOn (coreOf pe) && (s.engine pe).boundary && !(s.waitsBeaver pe)

/-- An accepted attempt: the state it leaves in ME_CALSTAT, with no failure shown. -/
def State.calPassed (s : State) (c pe state : Nat) : State :=
  let s := ((s.setF .ME_CALSTAT_STATE pe state).setF .ME_CALSTAT_BAND pe (s.band c)).setF .ME_CALSTAT_RETRIES pe 0
  (s.setF .ME_CALSTAT_TEMP_FAIL pe 0).setF .ME_CALSTAT_SHAPE_FAIL pe 0

/-- CONVERTER_CALIBRATION (R112, R113): an attempt ends; the operands say how it passes the shape tests. -/
def execConverterCalibration (now : Nat) (cl : Cluster) (co : Core) (e : Eng) (codesHit amplitudeOk offsetOk : Bool)
    (s : State) : Host.Outcome State Fault Refusal :=
  let s := s.advance now
  let c := cl.val
  let pe := engIx (coreIx cl co) e.val
  if s.calRuns c pe true then
    if s.tempMoved c pe then .next (s.calDiscard c pe true)
    else if !(codesHit && amplitudeOk && offsetOk) then .next (s.calDiscard c pe false)
    else .next (((s.calPassed c pe 1).newTrim pe true).calDone c pe)
  else .next s

/-- TWO_POINT_CHECK (R114): within the limits the trims are refined; otherwise full calibration follows. -/
def execTwoPointCheck (now : Nat) (cl : Cluster) (co : Core) (e : Eng) (within : Bool) (s : State) :
    Host.Outcome State Fault Refusal :=
  let s := s.advance now
  let c := cl.val
  let pe := engIx (coreIx cl co) e.val
  if s.calRuns c pe false then
    if s.tempMoved c pe then .next (s.calDiscard c pe true)
    else if within then
      .next ((((s.calPassed c pe 2).setF .ME_CALSTAT_QCHECK_FAIL pe 0).newTrim pe false).calDone c pe)
    else
      let s := s.setF .ME_CALSTAT_QCHECK_FAIL pe 1
      .next ((s.setPass c { s.pass c with redo := (s.pass c).redo ++ [pe] }).calDone c pe)
  else .next s

/-- The pass of a band change (R118, R120): full calibration, one engine per core; in progress, it begins again. -/
def State.bandPass (s : State) (c : Nat) : State :=
  let p : CalPass := { CalPass.idle with full := true, band := s.band c, pos := 0, since := s.time }
  let running := s.dac.serving == some c && (s.pass c).full && (s.pass c).engines.isEmpty
  if running then (s.setPass c p).passBegin c |>.passStep c 18
  else if (s.passQ c).any (fun x => x.full && x.engines.isEmpty) then
    s.setPassQ c ((s.passQ c).map (fun x => if x.full && x.engines.isEmpty then p else x))
  else s.queueCal c p

/-- TRIM_REFRESH_DUE (R120): the interval of the band has passed since some engine's last trim update. -/
def execTrimRefreshDue (now : Nat) (cl : Cluster) (s : State) : Host.Outcome State Fault Refusal :=
  let s := s.advance now
  let c := cl.val
  let old := (List.range 136).any (fun k =>
    let pe := 136 * c + k
    s.coreOn (coreOf pe) && (s.trimOf pe).at_ + refreshOf (s.band c) ≤ s.time)
  if old && (s.passQ c).isEmpty then .next (s.queueCal c { CalPass.idle with band := s.band c, pos := 0 }) else .next s

/-! ### Touch-up -/

/-- What 1 ns in a band adds to a touch-up account after `h` halvings of its interval, of which an hour is the least. -/
def touchRate (h b : Nat) : Nat :=
  min ((match b with | 0 => 7 | 1 => 21 | 2 => 90 | 3 => 315 | _ => 630) * 2 ^ h) 15120

/-- How often the touch-up intervals of a row group are halved: once for each early touch-up since it was programmed, and once from
the end of its rated cycles (R121, R267). -/
def State.halvingsOf (s : State) (g : Nat) : Nat :=
  (s.tracker g).halvings + (if 100000 ≤ s.getF .ME_RGSTAT_CYC10 g then 1 else 0)

/-- The touch-up account of a row group, of which 630 days of ns make 1 (R121). -/
def State.touchAccount (s : State) (pe r : Nat) : Nat :=
  let x := s.tracker (rgIx pe r)
  x.account + ((s.bandTimes (clOf pe)).zipIdx.map (fun p => touchRate (s.halvingsOf (rgIx pe r)) p.2 * (p.1 - x.snap.getD p.2 0))).sum

/-- Whether a read-back of a row group is in progress (R260). -/
def State.readingBack (s : State) (g : Nat) : Bool :=
  s.beavers.any (fun e => match e.2 with
    | some b => (match b.check with | some n => (s.shard n).rgs.contains g | none => false)
    | none => false)

/-- TOUCHUP_DUE (R121): the account has reached 1, or an early touch-up is pending. -/
def execTouchupDue (now : Nat) (cl : Cluster) (co : Core) (e : Eng) (rg : RowGroup) (s : State) :
    Host.Outcome State Fault Refusal :=
  let s := s.advance now
  let pe := engIx (coreIx cl co) e.val
  let g := rgIx pe rg.val
  let x := s.tracker g
  let early := (s.getF .ME_CALSTAT_EARLY_TU pe).testBit rg.val
  if s.holdsWeights g && !x.due && (early || 54432000000000000 ≤ s.touchAccount pe rg.val) then
    .next ((s.unclean.setTracker g { x with due := true, row := 0, steps := 0 }).askToken pe)
  else .next s

/-- A touch-up of a row group has ended (R121, R122): the account starts again, an early one halves the intervals. -/
def State.touchupEnd (s : State) (pe r : Nat) : State :=
  let g := rgIx pe r
  let early := (s.getF .ME_CALSTAT_EARLY_TU pe).testBit r
  let x := s.tracker g
  let y := { x with due := false, row := 0, steps := 0, account := 0, snap := s.bandTimes (clOf pe), halvings := if early then x.halvings + 1 else x.halvings, gainRef := s.getF .ME_DTGAIN_GAIN g }
  let s := (s.setTracker g y).setF .ME_CALSTAT_EARLY_TU pe (withBit (s.getF .ME_CALSTAT_EARLY_TU pe) r false)
  s.addHold .ME_RGSTAT_CYC10 g 1

/-- One verify or pulse step on the row in hand: steps 0, 2, 4 and 6 verify, 1, 3 and 5 pulse. A cell that cannot be restored,
because it lies too high or is still too low after 3 pulses, is reported to Beaver; the low ones get their pulses all the same. -/
def State.touchupRow (s : State) (pe r : Nat) (low high : List Nat) : State :=
  let g := rgIx pe r
  let x := s.tracker g
  if x.steps % 2 = 1 then s.setTracker g { x with steps := x.steps + 1 }
  else
    let last := low.isEmpty || x.steps == 6
    let s := s.setTracker g (if last then { x with steps := 0, row := x.row + 1 } else { x with steps := x.steps + 1 })
    let s := if last && x.row == 63 then s.touchupEnd pe r else s
    (high ++ (if x.steps = 6 then low else [])).foldl (fun t p => t.weakCell pe (64 * r + x.row) p) s

/-- TOUCHUP_STEP (R122, R119, R260): a step at a vector boundary, holding a token; a verify step finds the cells `low` more
than 0.3 level below their targets and the cells `high` as far above. -/
def execTouchupStep (now : Nat) (cl : Cluster) (co : Core) (e : Eng) (rg : RowGroup) (low high : List (Fin 276))
    (s : State) : Host.Outcome State Fault Refusal :=
  let s := s.advance now
  let pe := engIx (coreIx cl co) e.val
  let g := rgIx pe rg.val
  if (s.tracker g).due && s.tokenHeld.contains pe && s.coreOn (coreIx cl co) && (s.engine pe).boundary &&
      !(s.waitsBeaver pe) && !(s.waitsCal pe) && !(s.readingBack g) then
    .next (((s.touchupRow pe rg.val (low.map Fin.val) (high.map Fin.val)).freeToken pe).opDone pe)
  else .next s

/-! ### Programming tokens (R43, R44) -/

/-- The global index of the logical engine that a physical engine serves, as a place in ascending order; a spare engine that serves
none yet comes after its core's others. -/
def State.globalEng (s : State) (pe : Nat) : Nat := 17 * coreOf pe + (s.logicalOf pe).getD 16

/-- The request that is granted first: the earliest, then the lowest global engine index. -/
def State.firstToken (s : State) : Option TokenReq :=
  s.tokenWait.foldl
    (fun m x => match m with
      | none => some x
      | some y => if x.since < y.since || (x.since == y.since && s.globalEng x.engine < s.globalEng y.engine) then some x else some y) none

/-- PROG_TOKEN_GRANT: while fewer tokens are held than the pool has, the first request gets one. -/
def execProgTokenGrant (now : Nat) (s : State) : Host.Outcome State Fault Refusal :=
  let s := s.advance now
  match s.firstToken with
  | some r =>
    if s.tokenHeld.length < s.tokenPool then
      let p := s.draw (clOf r.engine)
      .next (if p.2 then { p.1 with tokenWait := s.tokenWait.erase r, tokenHeld := s.tokenHeld ++ [r.engine] } else p.1)
    else .next s
  | none => .next s

end Sys2Proof.Machine
end

