-- ==== Sys2Proof/Machine/Mailbox.lean ====
section
/-!
DEFINITION. The mailbox channels (R323 to R330) and their forwarding over a port (R347).
-/

namespace Sys2Proof.Machine
open Sys2Proof

/-! ### A channel -/

/-- Whether a channel is bound. -/
def State.mbxBound (s : State) (ch : Nat) : Bool := s.bit .MBX_BIND_VALID ch
def State.mbxSender (s : State) (ch : Nat) : Nat := s.getF .MBX_BIND_SENDER ch
def State.mbxReceiver (s : State) (ch : Nat) : Nat := s.getF .MBX_BIND_RECEIVER ch
def State.mbxFull (s : State) (ch : Nat) : Bool := s.bit .MBX_CH_STAT_FULL ch

/-- The identities that a binding may name (R324). -/
def mbxSenderOk (m : Nat) : Bool :=
  (0x10 ≤ m && m ≤ 0x1F) || m == 0x20 || m == 0x21 || (0x30 ≤ m && m ≤ 0x33) || (0x80 ≤ m && m ≤ 0xFF)
def mbxReceiverOk (m : Nat) : Bool :=
  m == 0x20 || m == 0x21 || (0x30 ≤ m && m ≤ 0x33) || (0x80 ≤ m && m ≤ 0xFF)

/-- The words of a channel. -/
def State.mbxWords (s : State) (ch n : Nat) : List Nat := (List.range n).map (fun i => s.getF .MBX_CH_DATA_WORD (ch * 16 + i))

/-- Stores words in a channel's DATA registers from DATA0 on. -/
def State.mbxStore (s : State) (ch : Nat) (ws : List Nat) : State :=
  ws.zipIdx.foldl (fun t p => t.setF .MBX_CH_DATA_WORD (ch * 16 + p.2) p.1) s

/-- The payload of MBX_POST (Table 12.2): the channel, N and the words. -/
def mbxPostPayload (ch : Nat) (ws : List Nat) : List Byte :=
  leBytes 1 ch ++ leBytes 1 ws.length ++ ws.flatMap (leBytes 4)

/-- Sends a frame to the device at the far end of a port while the port is up. -/
def State.sendPeer (s : State) (p type : Nat) (payload : List Byte) : State :=
  if s.linkUp p then s.sendFrame p type 0 (s.getF .LNK_PSTAT_PEER p) payload else s

/-- The wake event of an accepted post (R325, R347): vector 2 for a host, MBX_POST for a peer, a note for the debug port.
While the receiver's domain is off the wake waits for it. -/
def State.mbxWake (s : State) (ch : Nat) : State :=
  let r := s.mbxReceiver ch
  if isHost r then (if s.dieOn 0 then s.msix (hostFn r) 2 else { s with wakes := s.wakes ++ [ch] })
  else if 0x30 ≤ r && r ≤ 0x33 then
    (if s.dieOn 1 then s.sendPeer (r - 0x30) 7 (mbxPostPayload ch (s.mbxWords ch (s.getF .MBX_CH_STAT_NWORDS ch)))
     else { s with wakes := s.wakes ++ [ch] })
  else s.emit (.note 2 ch)

/-- Delivers the wakes that waited for a domain (R325): a host's as DIE.HOST comes on; those of a peer whose port is enabled as the
port comes up, the others not at all (R327 applies to them). -/
def State.deliverWakes (s : State) (ready gone : Nat → Bool) : State :=
  let t := { s with wakes := s.wakes.filter (fun ch => !(ready ch) && !(gone ch)) }
  (s.wakes.filter (fun ch => ready ch && s.mbxFull ch)).foldl State.mbxWake t

/-- What a channel keeps beside its registers. -/
def State.chan (s : State) (ch : Nat) : Channel := smapGet Channel.idle s.channels ch
def State.setChan (s : State) (ch : Nat) (x : Channel) : State := { s with channels := smapSet Channel.idle s.channels ch x }

/-- Whether a channel takes a post: it is empty and not flushed in this cycle (R325, R329). -/
def State.mbxTakes (s : State) (ch : Nat) : Bool := !(s.mbxFull ch) && (s.chan ch).flushedAt != some s.time

/-- An accepted post (R325): the words are latched, FULL is set, the time-out starts and the receiver is woken. A new post
clears DISCARD and TMO (R327). -/
def State.mbxAccept (s : State) (ch : Nat) (ws : List Nat) : State :=
  let s := s.setChan ch { s.chan ch with posted := s.time, expired := false, tmo := s.bit .MBX_CH_STAT_TMO ch }
  let s := s.mbxStore ch ws
  let s := ((((s.setF .MBX_CH_STAT_FULL ch 1).setF .MBX_CH_STAT_TMO ch 0).setF .MBX_CH_STAT_DISCARD ch 0).setF
    .MBX_CH_STAT_NWORDS ch ws.length).addWrap .MBX_CH_STAT_POSTS ch 1
  s.mbxWake ch

/-- The empty interrupt of a channel (R326): vector 3 for a host sender. -/
def State.mbxTell (s : State) (ch : Nat) : State :=
  if isHost (s.mbxSender ch) then s.msix (hostFn (s.mbxSender ch)) 3
  else if s.mbxSender ch = 0x21 then s.emit (.note 3 ch)
  else s

/-- Clears a channel (R326, R328): FULL clears and the data read as 0; with DISCARD where the message is unread. -/
def State.mbxClear (s : State) (ch : Nat) (discard : Bool) : State :=
  let s := s.mbxStore ch (List.replicate 16 0)
  let s := (s.setF .MBX_CH_STAT_FULL ch 0).setB .MBX_CH_STAT_DISCARD ch (discard || s.bit .MBX_CH_STAT_DISCARD ch)
  { s with wakes := s.wakes.filter (fun c => c != ch) }

/-- Empties a channel, with the empty interrupt. -/
def State.mbxEmpty (s : State) (ch : Nat) (discard : Bool) : State := (s.mbxClear ch discard).mbxTell ch

/-- Tells the peer that posted into a channel that it has been emptied (R347). -/
def State.mbxAckPeer (s : State) (ch : Nat) (discard : Bool) : State :=
  let m := s.mbxSender ch
  if 0x30 ≤ m && m ≤ 0x33 then s.sendPeer (m - 0x30) 8 (leBytes 1 ch ++ leBytes 1 discard.toNat) else s

/-- The reset of a function as a receiver and as a sender (R330). -/
def State.mbxReset (s : State) (m : Nat) : State :=
  (List.range 64).foldl
    (fun t ch =>
      if !(t.mbxBound ch) then t
      else if t.mbxReceiver ch = m && t.mbxFull ch then (t.mbxAckPeer ch true).mbxEmpty ch true
      else if t.mbxSender ch = m then t.setF .MBX_CH_STAT_TMO ch 0
      else t) s

/-- What a master writes of a channel: a host's write comes over the BARs of its function. -/
def State.mbxBy (s : State) (m : Nat) (f : State → State) : State := if isHost m then s.hosted (hostFn m) f else f s

/-- A tenant's access to a channel that does not name it (R299). -/
def State.mbxForeign (s : State) (m ch : Nat) : State :=
  if 0x80 ≤ m && !(s.mbxBound ch && (s.mbxSender ch == m || s.mbxReceiver ch == m)) then s.denied (hostFn m) else s

/-! ### The commands -/

/-- MAILBOX_BIND (R323, R324): a write of MBX_BINDn or MBX_TMOn, discarded once the table is locked. A pair or a time-out
that a binding may not have leaves VALID at 0. -/
def execMailboxBind (now : Nat) (ch : Fin 64) (tmo : Bool) (v : Word) (s : State) : Host.Outcome State Fault Refusal :=
  let s := s.advance now
  if s.bit .MBX_LOCK_LOCK 0 then .next s
  else if tmo then
    let t := bits v.toNat 19 0
    if 1 ≤ t && t ≤ 1000000 then .next (s.setF .MBX_TMO_TMO ch.val t) else .next (s.setF .MBX_BIND_VALID ch.val 0)
  else
    let snd := bits v.toNat 15 8
    let rcv := bits v.toNat 7 0
    if mbxSenderOk snd && mbxReceiverOk rcv && snd != rcv then
      .next (((s.setF .MBX_BIND_VALID ch.val (bits v.toNat 31 31)).setF .MBX_BIND_SENDER ch.val snd).setF
        .MBX_BIND_RECEIVER ch.val rcv)
    else .next (s.setF .MBX_BIND_VALID ch.val 0)

/-- MAILBOX_LOCK (R323). -/
def execMailboxLock (now : Nat) (s : State) : Host.Outcome State Fault Refusal :=
  .next ((s.advance now).setF .MBX_LOCK_LOCK 0 1)

/-- MAILBOX_POST (R325, R328, R329): accepted from the bound sender into an empty channel, else without effect. -/
def execMailboxPost (now : Nat) (m : Master) (ch : Fin 64) (nm1 : Fin 16) (s : State) :
    Host.Outcome State Fault Refusal :=
  .next ((s.advance now).mbxBy m.val (fun t =>
    if t.mbxBound ch.val && t.mbxSender ch.val == m.val && t.mbxTakes ch.val then
      t.mbxAccept ch.val (t.mbxWords ch.val (nm1.val + 1))
    else t.mbxForeign m.val ch.val))

/-- An ACK of the bound receiver empties a full channel. In the cycle in which its time-out expires the ACK takes effect and TMO is
not set: the empty interrupt is the vector 3 that has been raised (R329). -/
def State.mbxAck (s : State) (ch : Nat) : State :=
  let x := s.chan ch
  let again := x.expiredAt == some s.time
  let t := (s.mbxAckPeer ch false).setChan ch { x with ackedAt := some s.time }
  if again then (t.setF .MBX_CH_STAT_TMO ch 0).mbxClear ch false else t.mbxEmpty ch false

/-- MAILBOX_ACK (R326, R328, R329, R347): the bound receiver empties the channel. -/
def execMailboxAck (now : Nat) (m : Master) (ch : Fin 64) (s : State) : Host.Outcome State Fault Refusal :=
  .next ((s.advance now).mbxBy m.val (fun t =>
    if t.mbxBound ch.val && t.mbxReceiver ch.val == m.val && t.mbxFull ch.val then t.mbxAck ch.val
    else t.mbxForeign m.val ch.val))

/-- MAILBOX_TIMEOUT (R327): the time-out of an unread message expires, once for each post. -/
def execMailboxTimeout (now : Nat) (ch : Fin 64) (s : State) : Host.Outcome State Fault Refusal :=
  let s := s.advance now
  let x := s.chan ch.val
  if s.mbxFull ch.val && !x.expired && x.posted + 1000 * s.getF .MBX_TMO_TMO ch.val ≤ s.time then
    let s := s.setChan ch.val { x with expired := true, expiredAt := some s.time }
    .next ((s.setF .MBX_CH_STAT_TMO ch.val 1).mbxTell ch.val)
  else .next s

/-- CLRTMO (R327, R328). -/
def execClrtmo (now : Nat) (m : Master) (ch : Fin 64) (s : State) : Host.Outcome State Fault Refusal :=
  .next ((s.advance now).mbxBy m.val (fun t =>
    if t.mbxBound ch.val && t.mbxSender ch.val == m.val then t.setF .MBX_CH_STAT_TMO ch.val 0
    else t.mbxForeign m.val ch.val))

/-- A FLUSH empties a channel unread. In the cycle of an ACK the channel has been emptied already and DISCARD is set; a message
posted in the same cycle counts as refused (R329). DESIGN CHOICE: the wake that such a post has raised is not taken back (log 8). -/
def State.mbxFlush (s : State) (ch : Nat) : State :=
  let x := s.chan ch
  let t := s.setChan ch { x with flushedAt := some s.time }
  if s.mbxFull ch then
    if x.posted = s.time then
      ((t.addWrap .MBX_CH_STAT_POSTS ch 65535).setB .MBX_CH_STAT_TMO ch x.tmo).mbxEmpty ch true
    else t.mbxEmpty ch true
  else if x.ackedAt = some s.time then t.setF .MBX_CH_STAT_DISCARD ch 1
  else t

/-- FLUSH (R328, R329): the physical function alone empties a channel unread. -/
def execFlush (now : Nat) (m : Master) (ch : Fin 64) (s : State) : Host.Outcome State Fault Refusal :=
  .next ((s.advance now).mbxBy m.val (fun t => if m.val = 0x20 then t.mbxFlush ch.val else t.mbxForeign m.val ch.val))

end Sys2Proof.Machine
end

