-- ==== Sys2Proof/Machine/Csq.lean ====
section
/-!
DEFINITION. The sequencer instructions of Table 7.3, but for DRST (Machine/Domains.lean), and what happens to a waiting
thread. `w` is the word that the prefetch buffer delivers at the program counter, `w2` the second word of WAIT and EPA.
-/

namespace Sys2Proof.Machine
open Sys2Proof

/-- An instruction of a row: its word spells the row's opcode or a reserved one, which is ILLEGAL. A word of another row runs nothing
of this one. -/
def seqRow (now op : Nat) (w : Word) (s : State) (body : State → State) : Host.Outcome State Fault Refusal :=
  let s := s.advance now
  .next (if seqWord op w then body s else s)

/-! ### Registers and predicates -/

/-- NOP. -/
def execNop (now : Nat) (cl : Cluster) (th : Thread) (w : Word) (s : State) : Host.Outcome State Fault Refusal :=
  seqRow now 0x00 w s (fun s => s.simple (thIx cl th) w (fun t => t))

/-- MOVI: rd = sign-extended imm13. -/
def execMovi (now : Nat) (cl : Cluster) (th : Thread) (w : Word) (s : State) : Host.Outcome State Fault Refusal :=
  let i := thIx cl th
  let f := fieldsOf w
  seqRow now 0x01 w s (fun s => s.simple i w (fun t => t.setGreg i f.rd (BitVec.ofInt 32 f.imm13)))

/-- MOVHI: imm16 into the upper half of rd. -/
def execMovhi (now : Nat) (cl : Cluster) (th : Thread) (w : Word) (s : State) : Host.Outcome State Fault Refusal :=
  let i := thIx cl th
  let f := fieldsOf w
  seqRow now 0x02 w s (fun s => s.simple i w (fun t =>
    t.setGreg i f.rd ((BitVec.ofNat 32 f.imm16 <<< 16) ||| (t.greg i f.rd &&& 0xFFFF#32))))

/-- An operation rd = ra op rb of format R. -/
def State.alu (s : State) (i : Nat) (w : Word) (op : Word → Word → Word) : State :=
  let f := fieldsOf w
  s.simple i w (fun t => t.setGreg i f.rd (op (t.greg i f.ra) (t.greg i f.rb)))

/-- ADD. -/
def execAdd (now : Nat) (cl : Cluster) (th : Thread) (w : Word) (s : State) : Host.Outcome State Fault Refusal :=
  seqRow now 0x03 w s (fun s => s.alu (thIx cl th) w (fun a b => a + b))

/-- SUB. -/
def execSub (now : Nat) (cl : Cluster) (th : Thread) (w : Word) (s : State) : Host.Outcome State Fault Refusal :=
  seqRow now 0x04 w s (fun s => s.alu (thIx cl th) w (fun a b => a - b))

/-- AND. -/
def execAnd (now : Nat) (cl : Cluster) (th : Thread) (w : Word) (s : State) : Host.Outcome State Fault Refusal :=
  seqRow now 0x05 w s (fun s => s.alu (thIx cl th) w (fun a b => a &&& b))

/-- OR. -/
def execOr (now : Nat) (cl : Cluster) (th : Thread) (w : Word) (s : State) : Host.Outcome State Fault Refusal :=
  seqRow now 0x06 w s (fun s => s.alu (thIx cl th) w (fun a b => a ||| b))

/-- XOR. -/
def execXor (now : Nat) (cl : Cluster) (th : Thread) (w : Word) (s : State) : Host.Outcome State Fault Refusal :=
  seqRow now 0x07 w s (fun s => s.alu (thIx cl th) w (fun a b => a ^^^ b))

/-- ADDI: rd = ra + imm13. -/
def execAddi (now : Nat) (cl : Cluster) (th : Thread) (w : Word) (s : State) : Host.Outcome State Fault Refusal :=
  let i := thIx cl th
  let f := fieldsOf w
  seqRow now 0x08 w s (fun s => s.simple i w (fun t =>
    t.setGreg i f.rd (t.greg i f.ra + BitVec.ofInt 32 f.imm13)))

/-- A logical shift of ra by imm13, which is ILLEGAL above 31. -/
def State.shift (s : State) (i : Nat) (w : Word) (op : Word → Nat → Word) : State :=
  let f := fieldsOf w
  s.issue i w 1 (fun t =>
    if 0 ≤ f.imm13 ∧ f.imm13 ≤ 31 then (t.setGreg i f.rd (op (t.greg i f.ra) f.imm13.toNat)).setPc i (t.pc i + 1)
    else t.seqHalt i 0x01)

/-- SHLI. -/
def execShli (now : Nat) (cl : Cluster) (th : Thread) (w : Word) (s : State) : Host.Outcome State Fault Refusal :=
  seqRow now 0x09 w s (fun s => s.shift (thIx cl th) w (fun a n => a <<< n))

/-- SHRI. -/
def execShri (now : Nat) (cl : Cluster) (th : Thread) (w : Word) (s : State) : Host.Outcome State Fault Refusal :=
  seqRow now 0x0A w s (fun s => s.shift (thIx cl th) w (fun a n => a >>> n))

/-- CMP: p_pd = (ra cond rb); the reserved condition is ILLEGAL. -/
def execCmp (now : Nat) (cl : Cluster) (th : Thread) (w : Word) (s : State) : Host.Outcome State Fault Refusal :=
  let i := thIx cl th
  let x := (fieldsOf w).low
  seqRow now 0x0B w s (fun s => s.issue i w 1 (fun t =>
    match Sys2Proof.Machine.condHolds (bits x 2 0) (t.greg i (bits x 17 14)) (t.greg i (bits x 13 10)) with
    | some v => (t.setPred i (bits x 20 18) v).setPc i (t.pc i + 1)
    | none => t.seqHalt i 0x01))

/-- PLOG: p_pd = func of p_pa and p_pb. -/
def execPlog (now : Nat) (cl : Cluster) (th : Thread) (w : Word) (s : State) : Host.Outcome State Fault Refusal :=
  let i := thIx cl th
  let x := (fieldsOf w).low
  seqRow now 0x0C w s (fun s => s.simple i w (fun t =>
    t.setPred i (bits x 20 18) (Sys2Proof.Machine.plog (bits x 1 0) (t.pred i (bits x 17 15)) (t.pred i (bits x 14 12)))))

/-- CNT: CNTc = CNTc + ra. -/
def execCnt (now : Nat) (cl : Cluster) (th : Thread) (w : Word) (s : State) : Host.Outcome State Fault Refusal :=
  let i := thIx cl th
  let f := fieldsOf w
  seqRow now 0x21 w s (fun s => s.simple i w (fun t =>
    t.addWrap .CSQ_TH_CNT_VALUE (i * 16 + bits f.low 3 0) (t.greg i f.rd).toNat))

/-- RDT: device time or a position counter, latching its high part; selector 7 is ILLEGAL. -/
def execRdt (now : Nat) (cl : Cluster) (th : Thread) (w : Word) (s : State) : Host.Outcome State Fault Refusal :=
  let i := thIx cl th
  let f := fieldsOf w
  let sel := bits f.low 2 0
  seqRow now 0x22 w s (fun s => s.issue i w 1 (fun t =>
    let x := t.thread i
    if sel = 0 then
      ((t.setGreg i f.rd (BitVec.ofNat 32 t.clock)).setThread i { x with timeHi := t.clock / 4294967296 % 4294967296 }).setPc
        i (t.pc i + 1)
    else if sel = 1 then (t.setGreg i f.rd (BitVec.ofNat 32 x.timeHi)).setPc i (t.pc i + 1)
    else if sel = 6 then
      (t.setGreg i f.rd (BitVec.signExtend 32 (BitVec.ofNat 16 x.posHi))).setPc i (t.pc i + 1)
    else if sel = 7 then t.seqHalt i 0x01
    else
      let p := (t.port (sel - 2)).pos
      ((t.setGreg i f.rd (p.extractLsb' 0 32)).setThread i { x with posHi := (p.extractLsb' 32 16).toNat }).setPc
        i (t.pc i + 1)))

/-- TMARK: a trace mark. -/
def execTmark (now : Nat) (cl : Cluster) (th : Thread) (w : Word) (s : State) : Host.Outcome State Fault Refusal :=
  let i := thIx cl th
  seqRow now 0x25 w s (fun s => s.simple i w (fun t => t.traceTh i 1 5 (t.pc i) (fieldsOf w).imm16))

/-- HALT: the thread halts at this word. -/
def execHalt (now : Nat) (cl : Cluster) (th : Thread) (w : Word) (s : State) : Host.Outcome State Fault Refusal :=
  let i := thIx cl th
  seqRow now 0x3F w s (fun s => s.issue i w 1 (fun t => t.setF .CSQ_TH_STAT_STATE i 1))

/-! ### Branches -/

/-- A word index relative to the program counter, and whether it is not negative. -/
def target (pc : Nat) (off : Int) : Nat × Bool := (((pc : Int) + off).toNat, decide (0 ≤ (pc : Int) + off))

/-- BR. -/
def execBr (now : Nat) (cl : Cluster) (th : Thread) (w : Word) (s : State) : Host.Outcome State Fault Refusal :=
  let i := thIx cl th
  seqRow now 0x10 w s (fun s => s.issue i w 1 (fun t =>
    let d := target (t.pc i) (fieldsOf w).off21
    t.branch i d.1 d.2 (fun t => t)))

/-- LOOP: ra = ra - 1; branch while ra is not 0. -/
def execLoop (now : Nat) (cl : Cluster) (th : Thread) (w : Word) (s : State) : Host.Outcome State Fault Refusal :=
  let i := thIx cl th
  let f := fieldsOf w
  seqRow now 0x11 w s (fun s => s.issue i w 1 (fun t =>
    let v := t.greg i f.rd - 1
    let d := target (t.pc i) f.off17
    if v = 0 then (t.setGreg i f.rd v).setPc i (t.pc i + 1)
    else t.branch i d.1 d.2 (fun t => t.setGreg i f.rd v)))

/-- JR: PC = ra[13:0]. -/
def execJr (now : Nat) (cl : Cluster) (th : Thread) (w : Word) (s : State) : Host.Outcome State Fault Refusal :=
  let i := thIx cl th
  seqRow now 0x12 w s (fun s => s.issue i w 1 (fun t =>
    t.branch i ((t.greg i (fieldsOf w).ra).toNat % 16384) true (fun t => t)))

/-! ### Memory -/

/-- The address of LDW and STW: ra + 4 × imm13. -/
def State.ldAddr (s : State) (i : Nat) (f : Fields) : Nat :=
  (s.greg i f.ra + BitVec.ofInt 32 (4 * f.imm13)).toNat

/-- The checks of an LDW or STW (R195): the BAR2 offset, or the code of the exception. -/
def State.ldCheck (s : State) (i a : Nat) : Nat ⊕ Nat :=
  match seqSpan (i / 8) a 4 with
  | none => .inr 0x06
  | some x =>
    if a % 4 != 0 then .inr 0x06
    else if !(s.ownsAll (s.thOwner i) x 4) then .inr 0x03
    else if !(s.memOn x) then .inr 0x07
    else .inl x

/-- LDW. -/
def execLdw (now : Nat) (cl : Cluster) (th : Thread) (w : Word) (s : State) : Host.Outcome State Fault Refusal :=
  let i := thIx cl th
  let f := fieldsOf w
  seqRow now 0x14 w s (fun s => s.issue i w 1 (fun t =>
    match t.ldCheck i (t.ldAddr i f) with
    | .inr code => t.seqHalt i code
    | .inl x =>
      let t := t.readEcc (0x10 + cl.val) x 4
      if t.readsPoison x 4 then t.seqHalt i 0x07
      else (t.setGreg i f.rd (BitVec.ofNat 32 (t.word x))).setPc i (t.pc i + 1)))

/-- STW. -/
def execStw (now : Nat) (cl : Cluster) (th : Thread) (w : Word) (s : State) : Host.Outcome State Fault Refusal :=
  let i := thIx cl th
  let f := fieldsOf w
  seqRow now 0x15 w s (fun s => s.issue i w 1 (fun t =>
    match t.ldCheck i (t.ldAddr i f) with
    | .inr code => t.seqHalt i code
    | .inl x =>
      let r := t.writeMem (0x10 + cl.val) (fun _ => false) x (leBytes 4 (t.greg i f.rd).toNat)
      if r.2 then r.1.seqHalt i 0x07 else r.1.setPc i (t.pc i + 1)))

/-- The checks of a COPY (R195, R196): the BAR2 offsets of destination and source, or the code of the exception. -/
def State.copyCheck (s : State) (i dst src len : Nat) : (Nat × Nat) ⊕ Nat :=
  if dst % 32 != 0 || src % 32 != 0 || len % 32 != 0 || len < 32 || 4194304 < len then .inr 0x06
  else
    match seqSpan (i / 8) dst len, seqSpan (i / 8) src len with
    | some d, some x =>
      if !(s.ownsAll (s.thOwner i) d len && s.ownsAll (s.thOwner i) x len) then .inr 0x03
      else if !(s.memOn d && s.memOn x) then .inr 0x07
      else .inl (d, x)
    | _, _ => .inr 0x06

/-- COPY: starts the block copy, and the thread waits for its end. -/
def execCopy (now : Nat) (cl : Cluster) (th : Thread) (w : Word) (s : State) : Host.Outcome State Fault Refusal :=
  let i := thIx cl th
  let f := fieldsOf w
  seqRow now 0x16 w s (fun s => s.issue i w 1 (fun t =>
    let len := (t.greg i f.rb).toNat
    match t.copyCheck i (t.greg i f.rd).toNat (t.greg i f.ra).toNat len with
    | .inr code => t.seqHalt i code
    | .inl p => (t.block i 6 (.copy p.1 p.2 len)).setPc i (t.pc i + 1)))

/-- COPY_DONE: the copy channel has moved the bytes, and the thread continues (R207). With a memory off the next burst fails; what had been
moved when the memory went off was moved then (R196). -/
def execCopyDone (now : Nat) (cl : Cluster) (th : Thread) (s : State) : Host.Outcome State Fault Refusal :=
  let i := thIx cl th
  let s := s.advance now
  match (s.thread i).wait with
  | .copy dst src len =>
    if !(s.sharedOn cl.val) then .next s
    else if s.memOn dst && s.memOn src then
      let t := s.moveBytes (0x10 + cl.val) dst src len
      let t := t.setThread i { t.thread i with wait := .idle }
      .next ((((t.setF .CSQ_TH_STAT_STATE i 2).setF .CSQ_TH_STAT_WAITKIND i 0).traceTh i 2 3 (t.pc i)
        (t.pred i 7).toNat).seqStopDue i)
    else
      .next (s.seqHaltAt i 0x07 (s.pc i - 1))
  | _ => .next s

/-- DWR: descriptor word 24 + w of the station = ra. -/
def execDwr (now : Nat) (cl : Cluster) (th : Thread) (w : Word) (s : State) : Host.Outcome State Fault Refusal :=
  let i := thIx cl th
  let f := fieldsOf w
  let st := bits f.low 11 0
  seqRow now 0x20 w s (fun s => s.issue i w 1 (fun t =>
    match t.stationCheck i st false with
    | some code => t.seqHalt i code
    | none =>
      let x := t.station st
      let a := descAddr x.core x.d + 4 * (24 + bits f.low 16 14)
      let r := if hasDesc x.kind && t.coreOn x.core then
          (t.writeMem (0x10 + cl.val) (fun _ => false) a (leBytes 4 (t.greg i f.rd).toNat)).1 else t
      r.setPc i (t.pc i + 1)))

/-! ### Stations -/

/-- FIRE: sends a count of grants toward a station's stepper (R199). -/
def execFire (now : Nat) (cl : Cluster) (th : Thread) (w : Word) (s : State) : Host.Outcome State Fault Refusal :=
  let i := thIx cl th
  let x := (fieldsOf w).low
  let st := bits x 11 0
  seqRow now 0x18 w s (fun s => s.issue i w 1 (fun t =>
    let n := if x.testBit 20 then (t.greg i (bits x 19 16)).toNat else 1
    let y := t.station st
    match t.stationCheck i st true with
    | some code => t.seqHalt i code
    | none =>
      if y.state = 3 || (!y.holds.isEmpty && y.parkAt = t.time + 1) then t.seqRecover i 0x10 (t.pc i + 1)
      else
        let fl : Flight := { at_ := t.time + 8 + 4 * hops cl.val y.cluster, station := st, grants := n, cl := cl.val, th := th.val, pc := t.pc i, was := y.firer, first := !((t.thread i).fired.contains st) }
        let t1 := { t with flights := t.flights ++ [fl] }
        let t2 := t1.setStation st { y with firer := some (cl.val, th.val, t.pc i) }
        let v := t2.thread i
        let t3 := t2.setThread i { v with fired := if v.fired.contains st then v.fired else v.fired ++ [st] }
        (t3.traceTh i 2 4 (t.pc i) (st + 65536 * (n % 65536))).setPc i (t.pc i + 1)))

/-- One fire lands (R199): past 65,535 the count is 65,535 and the thread takes GRANT_OVERFLOW. -/
def State.land (s : State) (f : Flight) : State :=
  let x := s.station f.station
  let s1 := s.grant f.station f.grants
  let i := 8 * f.cl + f.th
  if x.state = 0 || x.grants + f.grants ≤ 65535 then s1
  else if s1.bit .CSQ_TH_REGION_STRICT i then s1.seqOver i 0x11 f.pc
  else s1.seqRecoverAt i 0x11 f.pc false

/-- GRANTS_LAND: the fires that have arrived at a station's stepper are added. -/
def execGrantsLand (now : Nat) (st : StationId) (s : State) : Host.Outcome State Fault Refusal :=
  let s := s.advance now
  let due := s.flights.filter (fun f => f.station == st.val && f.at_ ≤ s.time)
  let s1 := { s with flights := s.flights.filter (fun f => !(f.station == st.val && f.at_ ≤ s.time)) }
  .next (due.foldl State.land s1)

/-- What WAIT refuses as ILLEGAL (R200). -/
def waitBad (c port k : Nat) : Bool :=
  4 ≤ c || (if c < 2 then k < 1 || 64 < k else port != 0 || k != 0)

/-- WAIT (R200). -/
def execWait (now : Nat) (cl : Cluster) (th : Thread) (w w2 : Word) (s : State) : Host.Outcome State Fault Refusal :=
  let i := thIx cl th
  let x := (fieldsOf w).low
  let c := bits x 20 18
  let port := bits x 17 15
  let st := bits x 11 0
  let k := bits w2.toNat 15 0
  let tmo := bits w2.toNat 31 16
  seqRow now 0x19 w s (fun s => s.issue i w 2 (fun t =>
    if waitBad c port k then t.seqHalt i 0x01
    else
      match t.stationCheck i st (decide (2 ≤ c)) with
      | some code => t.seqHalt i code
      | none =>
        let rings := if c = 0 then t.inRings st else t.outRings st
        if c < 2 && rings.length ≤ port then t.seqHalt i 0x05
        else if t.condHolds c port st k then (t.setPred i 7 true).setPc i (t.pc i + 2)
        else
          let till := if tmo = 0 then none else some (t.time + 1000 * tmo)
          (t.block i 1 (.cond c port st k till)).setPc i (t.pc i + 2)))

/-- WAIT_RESUME: the condition holds. -/
def execWaitResume (now : Nat) (cl : Cluster) (th : Thread) (s : State) : Host.Outcome State Fault Refusal :=
  let i := thIx cl th
  let s := s.advance now
  match (s.thread i).wait with
  | .cond c port st k _ => if s.condHolds c port st k then .next (s.resume i true) else .next s
  | _ => .next s

/-- WAIT_TIMEOUT: the time-out expires first. -/
def execWaitTimeout (now : Nat) (cl : Cluster) (th : Thread) (s : State) : Host.Outcome State Fault Refusal :=
  let i := thIx cl th
  let s := s.advance now
  match (s.thread i).wait with
  | .cond c port st k (some till) =>
    if till ≤ s.time && !(s.condHolds c port st k) then .next (s.resume i false) else .next s
  | _ => .next s

/-! ### Barriers and broadcasts -/

/-- Whether the thread comes too late for the instance it would arrive at (R203). -/
def State.missed (s : State) (i g : Nat) : Bool := smapGet 0 (s.thread i).met g < (s.group g).count

/-- Counts a missed instance and goes on with p7 = 0. -/
def State.skipInstance (s : State) (i g : Nat) : State :=
  let x := s.thread i
  let s := s.setThread i { x with met := smapSet 0 x.met g (smapGet 0 x.met g + 1) }
  (s.setPred i 7 false).setPc i (s.pc i + 1)

/-- BAR (R202). -/
def execBar (now : Nat) (cl : Cluster) (th : Thread) (w : Word) (s : State) : Host.Outcome State Fault Refusal :=
  let i := thIx cl th
  let x := (fieldsOf w).low
  let g := bits x 5 0
  seqRow now 0x1A w s (fun s => s.issue i w 1 (fun t =>
    if t.groupBad i g (bits x 20 19) then t.seqHalt i 0x08
    else if t.missed i g then t.skipInstance i g
    else ((t.block i 2 (.group g none)).arrive i g (x.testBit 18) i).setPc i (t.pc i + 1)))

/-- Whether a thread of an open instance waits for a broadcast, or takes a snapshot. -/
def State.bcastIn (s : State) (b : BarInst) : Bool := b.threads.any (fun i => s.getF .CSQ_TH_STAT_WAITKIND i == 3)
def State.snapIn (s : State) (b : BarInst) : Bool := s.snaps.any (fun n => b.threads.contains n.th)

/-- BARRIER_RELEASE (R202, R203): all member cores on all member devices have arrived. -/
def execBarrierRelease (now : Nat) (g : Fin 64) (s : State) : Host.Outcome State Fault Refusal :=
  let s := (s.advance now).sendRounds g.val
  let x := s.group g.val
  match x.inst with
  | some b =>
    if s.allHere x b && x.roundsIn b && !(s.bcastIn b) && !(s.snapIn b) then .next (s.endInstance g.val true false)
    else .next s
  | none => .next s

/-- BARRIER_TIMEOUT (R203): the time-out, counted from the first arrival, expires. -/
def execBarrierTimeout (now : Nat) (g : Fin 64) (s : State) : Host.Outcome State Fault Refusal :=
  let s := s.advance now
  let x := s.group g.val
  match x.inst with
  | some b => if b.first + 1000 * x.timeout ≤ s.time then .next (s.endInstance g.val false true) else .next s
  | none => .next s

/-- BCAST (R204): the root supplies g(reg), every other member thread waits for it. -/
def execBcast (now : Nat) (cl : Cluster) (th : Thread) (w : Word) (s : State) : Host.Outcome State Fault Refusal :=
  let i := thIx cl th
  let f := fieldsOf w
  let g := bits f.low 5 0
  let root := f.low.testBit 16
  seqRow now 0x1B w s (fun s => s.issue i w 1 (fun t =>
    let x := t.group g
    let v := t.greg i f.rd
    let rooted := match x.inst with | some b => b.value.isSome | none => x.earlyVal.isSome
    if t.groupBad i g 4 then t.seqHalt i 0x08
    else if t.missed i g then t.skipInstance i g
    else if root && rooted then t.seqHalt i 0x08
    else
      let t1 := (t.block i 3 (.group g (if root then none else some f.rd))).arrive i g false i
      let y := t1.group g
      let t2 := if root then
          (match y.inst with
            | some b => (t1.setGroup g { y with inst := some { b with value := some v } }).sendBcast g 0 v
            | none => t1)
        else t1
      t2.setPc i (t.pc i + 1)))

/-- Puts the broadcast value into the register that a thread waits with. -/
def State.deliver (v : Word) (s : State) (i : Nat) : State :=
  match (s.thread i).wait with
  | .group _ (some r) => s.setGreg i r v
  | _ => s

/-- BCAST_DELIVER (R204): the value is there and the last core has arrived. -/
def execBcastDeliver (now : Nat) (g : Fin 64) (s : State) : Host.Outcome State Fault Refusal :=
  let s := (s.advance now).sendRounds g.val
  let x := s.group g.val
  match x.inst with
  | some b =>
    (match b.value with
      | some v =>
        if s.allHere x b && x.roundsIn b && s.bcastIn b then
          .next ((b.threads.foldl (State.deliver v) s).endInstance g.val true false)
        else .next s
      | none => .next s)
  | none => .next s

/-! ### Epochs -/

/-- Whether an epoch has come: E = e or e precedes E (R208). -/
def reached (e E : Nat) : Bool := e == E || precedes e E

/-- EPW (R208). -/
def execEpw (now : Nat) (cl : Cluster) (th : Thread) (w : Word) (s : State) : Host.Outcome State Fault Refusal :=
  let i := thIx cl th
  let f := fieldsOf w
  let c := bits f.low 6 0
  seqRow now 0x1C w s (fun s => s.issue i w 1 (fun t =>
    let x := t.ctx c
    let e := (t.greg i f.rd).toNat
    if x.state != 0 && x.owner != t.thOwner i then t.seqHalt i 0x03
    else if x.state != 1 then (t.setPred i 7 false).setPc i (t.pc i + 1)
    else if reached e x.epoch then (t.setPred i 7 true).setPc i (t.pc i + 1)
    else (t.block i 4 (.epoch c e)).setPc i (t.pc i + 1)))

/-- EPA (R209). -/
def execEpa (now : Nat) (cl : Cluster) (th : Thread) (w w2 : Word) (s : State) : Host.Outcome State Fault Refusal :=
  let i := thIx cl th
  let f := fieldsOf w
  let c := bits f.low 6 0
  let st := bits w2.toNat 11 0
  seqRow now 0x1D w s (fun s => s.issue i w 2 (fun t =>
    let x := t.ctx c
    let e := (t.greg i f.rd).toNat
    let n := (t.greg i f.ra).toNat
    if w2.toNat / 4096 != 0 then t.seqHalt i 0x01
    else
      match t.stationCheck i st true with
      | some code => t.seqHalt i code
      | none =>
        if x.state != 0 && x.owner != t.thOwner i then t.seqHalt i 0x03
        else if x.state != 1 then t.seqRecover i 0x13 (t.pc i + 2)
        else if reached e x.epoch then ((t.grant st n).setPred i 7 false).setPc i (t.pc i + 2)
        else if 16 ≤ (t.thread i).armed.length then t.seqRecover i 0x12 (t.pc i + 2)
        else
          let y := t.thread i
          let a : Armed := { ctx := c, epoch := e, station := st, grants := n }
          ((t.setThread i { y with armed := y.armed ++ [a] }).setPred i 7 true).setPc i (t.pc i + 2)))

/-! ### Snapshots -/

/-- SNAP (R205): the member cores start no more tiles, and the thread arrives at the set's group once they are idle. -/
def execSnap (now : Nat) (cl : Cluster) (th : Thread) (w : Word) (s : State) : Host.Outcome State Fault Refusal :=
  let i := thIx cl th
  let n := bits (fieldsOf w).low 5 0
  seqRow now 0x1E w s (fun s => s.issue i w 1 (fun t =>
    match smapGet none t.sets n with
    | none => t.seqHalt i 0x08
    | some d =>
      if d.owner != t.thOwner i || t.groupBad i d.group 4 then t.seqHalt i 0x08
      else if t.missed i d.group then t.skipInstance i d.group
      else
        let t1 := { t with snaps := t.snaps ++ [Snapshot.mk n i] }
        ((t1.block i 5 (.snap n)).arrive i d.group true 128).setPc i (t.pc i + 1)))

/-- The sequencer address of a snapshot region holds BAR2 offsets; each region is copied if both its ends are powered. -/
def State.snapCopy (s : State) (i : Nat) (d : SnapSet) : State :=
  d.regions.foldl
    (fun t r => if t.memOn r.1 && t.memOn r.2.1 then t.moveBytes (0x10 + i / 8) r.2.1 r.1 r.2.2 else t) s

/-- SNAPSHOT_DONE (R205): the barrier is complete; the regions of the instance's sets are copied, tile starts resume and
the threads continue with p7 = 1. -/
def execSnapshotDone (now : Nat) (cl : Cluster) (th : Thread) (s : State) : Host.Outcome State Fault Refusal :=
  let i := thIx cl th
  let s := s.advance now
  match (s.thread i).wait with
  | .snap n =>
    (match smapGet none s.sets n with
      | some d =>
        let s := s.sendRounds d.group
        let x := s.group d.group
        (match x.inst with
          | some b =>
            if b.threads.contains i && s.allHere x b && x.roundsIn b then
              let ns := ((s.snaps.filter (fun y => b.threads.contains y.th)).map (·.set)).dedup
              let t := ns.foldl (fun t m => match smapGet none t.sets m with | some e => t.snapCopy i e | none => t) s
              .next (t.endInstance d.group true false)
            else .next s
          | none => .next s)
      | none => .next s)
  | _ => .next s

/-! ### Mailbox posts -/

/-- MPOST (R210): n words from g(ra) on, to a channel that the thread's bit-stream assigns to it. -/
def execMpost (now : Nat) (cl : Cluster) (th : Thread) (w : Word) (s : State) : Host.Outcome State Fault Refusal :=
  let i := thIx cl th
  let f := fieldsOf w
  let n := f.ra + 1
  let ch := bits f.low 5 0
  seqRow now 0x24 w s (fun s => s.issue i w 1 (fun t =>
    let mine := match t.part (t.thOwner i) with | some p => p.chans.contains (ch, i) | none => false
    if !mine then t.seqHalt i 0x03
    else if !(t.mbxTakes ch) || !(t.mbxBound ch && t.mbxSender ch == 0x10 + cl.val) then
      (t.setPred i 7 false).setPc i (t.pc i + 1)
    else
      let ws := (List.range n).map (fun k => (t.greg i ((f.rd + k) % 16)).toNat)
      ((t.mbxAccept ch ws).setPred i 7 true).setPc i (t.pc i + 1)))

/-! ### Control writes (R190, R197, R211) -/

/-- Whether a function may reach a thread's registers (R213). -/
def State.mayThread (s : State) (fn i : Nat) : Bool :=
  fn == 0 || (s.thState i != 0 && s.thOwner i == fn)

/-- A write of 1 to CSQ_THt_CTL.STOP. -/
def State.stopWrite (s : State) (fn cl th : Nat) : State :=
  let i := 8 * cl + th
  if !(s.mayThread fn i) then s.denied fn
  else if s.thState i = 0 then s.onReg (fnMaster fn) .CSQ_TH_CTL [cl, th] cl s
  else s.onReg (fnMaster fn) .CSQ_TH_CTL [cl, th] cl (s.threadStop i)

/-- THREAD_STOP. -/
def execThreadStop (now : Nat) (fn : Func) (cl : Cluster) (th : Thread) (s : State) :
    Host.Outcome State Fault Refusal :=
  .next ((s.advance now).hosted fn.val (fun t => t.stopWrite fn.val cl.val th.val))

/-- A write of 1 to CSQ_THt_CTL.RESTART. -/
def State.restartWrite (s : State) (fn cl th : Nat) : State :=
  let i := 8 * cl + th
  if !(s.mayThread fn i) then s.denied fn
  else if s.thState i = 0 then s.onReg (fnMaster fn) .CSQ_TH_CTL [cl, th] cl s
  else
    s.onReg (fnMaster fn) .CSQ_TH_CTL [cl, th] cl
      ((if s.thState i = 2 || s.thState i = 3 then s.threadStopNow i else s).threadStart i)

/-- THREAD_RESTART. -/
def execThreadRestart (now : Nat) (fn : Func) (cl : Cluster) (th : Thread) (s : State) :
    Host.Outcome State Fault Refusal :=
  .next ((s.advance now).hosted fn.val (fun t => t.restartWrite fn.val cl.val th.val))

/-- THREAD_EXC_CLEAR. -/
def execThreadExcClear (now : Nat) (cl : Cluster) (th : Thread) (s : State) : Host.Outcome State Fault Refusal :=
  let s := s.advance now
  .next (s.onReg 0x20 .CSQ_TH_EXC [cl.val, th.val] cl.val (s.setF .CSQ_TH_EXC_VALID (thIx cl th) 0))

/-- STEPPER_EXC_CLEAR. -/
def execStepperExcClear (now : Nat) (cl : Cluster) (co : Core) (s : State) : Host.Outcome State Fault Refusal :=
  let s := s.advance now
  .next (s.onReg 0x20 .STP_EXC [cl.val, co.val] (coreIx cl co) (s.setF .STP_EXC_VALID (coreIx cl co) 0))

end Sys2Proof.Machine
end

