-- ==== Sys2Proof/Machine/Owl.lean ====
section
/-!
DEFINITION. The Owl monitors (R132 to R138): the statistics of a window of 256 eligible tiles, the envelope learned in
warm-up, and alarms. A slot is numbered 32 times its cluster plus its index.
-/

namespace Sys2Proof.Machine
open Sys2Proof

/-! ### A window -/

/-- A window begins. -/
def Owl.fresh (o : Owl) : Owl := { o with tiles := 0, count := 0, sum := 0, sumSq := 0, min := 0, max := 0, satn := 0 }

/-- An element that is not poison joins the window, by its exact value. -/
def Owl.element (o : Owl) (v : Int) : Owl :=
  { o with
    count := o.count + 1
    sum := o.sum + v
    sumSq := o.sumSq + v * v
    min := if o.count = 0 then v else Min.min o.min v
    max := if o.count = 0 then v else Max.max o.max v }

/-- A tile joins the window: the values of its elements that are not poison, and its saturated flag. -/
def Owl.tile (o : Owl) (vs : List Int) (sat : Bool) : Owl :=
  { vs.foldl Owl.element o with tiles := o.tiles + 1, satn := o.satn + sat.toNat }

/-- The mean, population variance, minimum and maximum of a window as fp32 bits; none for an empty window. -/
def Owl.stats (o : Owl) : Option (List Nat) :=
  if o.count = 0 then none
  else some [fp32Div o.sum o.count (-149), fp32Div (o.sumSq * o.count - o.sum * o.sum) (o.count * o.count) (-298),
    toFp32 o.min (-149), toFp32 o.max (-149)]

/-- The values of the five statistics in units of 2^-149; none where an empty window has none. -/
def Owl.values (o : Owl) : List (Option Int) :=
  (match o.stats with
    | some bs => bs.map (fun b => some (fp32Val b))
    | none => [none, none, none, none]) ++ [some ((o.satn : Int) * 2 ^ 149)]

/-- Whether a value lies outside the hard limits of statistic i (R229). -/
def Owl.hardOut (o : Owl) (i : Nat) (v : Option Int) : Bool :=
  match v with
  | some v => o.harden.testBit i && (decide (v < fp32Val (o.hlo.getD i 0)) || decide (fp32Val (o.hhi.getD i 0) < v))
  | none => false

/-- Whether a value lies outside the envelope of statistic i (R134). -/
def Owl.envOut (o : Owl) (i : Nat) (v : Option Int) : Bool :=
  match v, o.lo.getD i none, o.hi.getD i none with
  | some v, some lo, some hi =>
    let w16 := Max.max ((o.margin : Int) * (hi - lo)) (16 * fp32Val (o.floor.getD i 0))
    decide (16 * v < 16 * lo - w16) || decide (16 * hi + w16 < 16 * v)
  | _, _, _ => false

/-- The envelope after a warm-up window. -/
def Owl.learn (o : Owl) (vs : List (Option Int)) : Owl :=
  let low := (o.lo.zip vs).map (fun (p : Option Int × Option Int) => match p with
    | (some a, some v) => some (Min.min a v)
    | (none, v) => v
    | (a, none) => a)
  let high := (o.hi.zip vs).map (fun (p : Option Int × Option Int) => match p with
    | (some a, some v) => some (Max.max a v)
    | (none, v) => v
    | (a, none) => a)
  { o with lo := low, hi := high }

/-! ### A slot -/

/-- A slot returns to warm-up and discards its partial window (R137). -/
def State.owlRelearn (s : State) (i : Nat) : State :=
  if s.bit .OWL_SCFG_EN i then
    let none5 : List (Option Int) := [none, none, none, none, none]
    let o := { (s.owl i).fresh with lo := none5, hi := none5 }
    ((s.setOwl i o).setF .OWL_SSTAT_STATE i 1).setF .OWL_SSTAT_WARM i 0
  else s

/-- The slots bound to a station. -/
def State.owlsOf (s : State) (st : Nat) : List Nat :=
  (List.range 512).filter (fun i => s.bit .OWL_SCFG_EN i && s.getF .OWL_SCFG_STATION i == st)

/-- The mask of the statistics for which a test holds. -/
def alarmMask (bs : List Bool) : Nat := bs.zipIdx.foldl (fun m p => if p.1 then m + 2 ^ p.2 else m) 0

/-- Writes the statistics of a closed window (R133, R136). -/
def State.owlReport (s : State) (i : Nat) (o : Owl) (alarm : Nat) (hard : Bool) : State :=
  let bs := o.stats.getD [0x7FC00000, 0x7FC00000, 0x7FC00000, 0x7FC00000]
  let s := ((s.setF .OWL_SMEAN_VALUE i (bs.getD 0 0)).setF .OWL_SVAR_VALUE i (bs.getD 1 0)).setF .OWL_SMIN_VALUE i
    (bs.getD 2 0)
  let s := (s.setF .OWL_SMAX_VALUE i (bs.getD 3 0)).setB .OWL_SSTAT_EMPTY i o.stats.isNone
  ((s.setF .OWL_SSTAT_ALARM i alarm).setB .OWL_SSTAT_HARD i hard).setF .OWL_SSTAT_SATN i o.satn

/-- Raises an Owl alarm (R135). -/
def State.owlAlarm (s : State) (i : Nat) : State :=
  let st := s.getF .OWL_SCFG_STATION i
  let owner := (s.station st).owner
  ((s.addHold .OWL_SALMCNT_COUNT i 1).total owner 4 1).raise 0x201 owner (i / 32) 0xFF st [BitVec.ofNat 8 (i % 32)]

/-- A window closes (R133 to R136): its statistics are written and judged, and in warm-up they widen the envelope. -/
def State.owlClose (s : State) (i : Nat) : State :=
  let o := s.owl i
  let vs := o.values
  let armed := s.getF .OWL_SSTAT_STATE i == 2
  let hards := vs.zipIdx.map (fun (p : Option Int × Nat) => o.hardOut p.2 p.1)
  let outs := vs.zipIdx.map (fun (p : Option Int × Nat) => o.hardOut p.2 p.1 || (armed && o.envOut p.2 p.1))
  let s := s.owlReport i o (alarmMask outs) (hards.any id)
  let warm := s.getF .OWL_SSTAT_WARM i + 1
  let s := if armed then s.setOwl i o.fresh
    else ((s.setOwl i (o.learn vs).fresh).setF .OWL_SSTAT_WARM i warm).setF .OWL_SSTAT_STATE i (if warm = 16 then 2 else 1)
  if outs.any id || o.stats.isNone then s.owlAlarm i else s

/-- A slot takes a tile: a window of 256 tiles that is still open closes first. -/
def State.owlTake (s : State) (i : Nat) (vs : List Int) (sat : Bool) : State :=
  let s := if 256 ≤ (s.owl i).tiles then s.owlClose i else s
  s.setOwl i ((s.owl i).tile vs sat)

/-! ### The commands -/

/-- OWL_WINDOW_CLOSE (R133 to R136). -/
def execOwlWindowClose (now : Nat) (cl : Cluster) (slot : Fin 32) (s : State) : Host.Outcome State Fault Refusal :=
  let s := s.advance now
  let i := 32 * cl.val + slot.val
  if s.sharedOn cl.val && s.bit .OWL_SCFG_EN i && 256 ≤ (s.owl i).tiles then .next (s.owlClose i) else .next s

/-- Whether an Owl slot belongs to a station of a tenant (R138). -/
def State.ownsOwl (s : State) (fn i : Nat) : Bool :=
  s.bit .OWL_SCFG_EN i && (s.station (s.getF .OWL_SCFG_STATION i)).owner == fn

/-- A write of 1 to OWL_SnCTL.RELEARN: a tenant reaches the slots of its own stations (R137, R138). -/
def State.relearn (s : State) (fn cl slot : Nat) : State :=
  let i := 32 * cl + slot
  if fn != 0 && !(s.ownsOwl fn i) then s.denied fn
  else s.onReg (fnMaster fn) .OWL_SCTL [cl, slot] cl (s.owlRelearn i)

/-- RELEARN (R137, R138). -/
def execRelearn (now : Nat) (fn : Func) (cl : Cluster) (slot : Fin 32) (s : State) : Host.Outcome State Fault Refusal :=
  .next ((s.advance now).hosted fn.val (fun t => t.relearn fn.val cl.val slot.val))

end Sys2Proof.Machine
end

