-- ==== Sys2Proof/Machine/TileOps.lean ====
section
/-!
DEFINITION. What producers and consumers of tiles share: filling, tearing and emptying slots (R163 to R166), partial-sum
tiles that belong to input tiles without output (R73), tensor watch points (R438), and the tests of decision stations
(R182, R465).
-/

namespace Sys2Proof.Machine
open Sys2Proof

/-! ### Slots and rings -/

/-- The slot that a key of `rings` stands for. -/
def slotOfKey (k : Nat) : SlotRef := { km := 4194304 ≤ k, unit := k % 4194304 / 1024, n := k % 1024 }

/-- The first slot of the ring that a slot belongs to. -/
def State.ringOf (s : State) (r : SlotRef) : Option SlotRef :=
  (s.rings.find? (fun e =>
    let h := slotOfKey e.1
    h.km == r.km && h.unit == r.unit && h.n ≤ r.n && r.n < h.n + e.2.len)).map (fun e => slotOfKey e.1)

/-- The last read of a slot is done: it is Empty, or free where its ring has been given up meanwhile (R163, R181). -/
def State.emptySlot (s : State) (r : SlotRef) : State := s.setSlot r (if (s.ringOf r).isSome then 0 else 4)

/-- A torn tile is taken (R165, R166): counted, reported, and its mark goes. -/
def State.tornTaken (s : State) (st : Nat) (r : SlotRef) : State :=
  let x := s.station st
  ((s.setTorn r false).count st 2 1).raise 0x303 x.owner (x.core / 8) (x.core % 8) st []

/-- A slot is marked Full after its header has been written, or Empty where its tile belongs to an input tile that gave no
output (R73, R163). -/
def State.fillSlot (s : State) (r : SlotRef) : State :=
  match s.ringOf r with
  | some h =>
    let x := s.ring h
    if x.owed.contains (r.n - h.n) then
      let s := s.setRing h { x with owed := x.owed.erase (r.n - h.n) }
      (if s.torn r then s.tornTaken x.cons r else s).setSlot r 0
    else s.setSlot r 2
  | none => s.setSlot r 2

/-- A master is reset amid its transfer into a slot (R165): the slot is marked torn and Full, and its other header bytes are
free values. -/
def State.tear (s : State) (r : SlotRef) : State :=
  let bs := (List.range 64).map (fun i =>
    let b := Config.freeByte s.fresh i
    if i = 0x1F then b ||| 4#8 else b)
  ((s.burn.store (s.slotAddr r) bs).setTorn r true).fillSlot r

/-- The next tile of a partial-sum ring belongs to an input tile that gives no output: it is taken and released. -/
def State.skipPart (s : State) (h : SlotRef) : State :=
  let x := s.ring h
  let r := s.nextRd h
  let s := s.stepRd h
  if s.slot r = 2 then (if s.torn r then s.tornTaken x.cons r else s).setSlot r 0
  else
    let y := s.ring h
    s.setRing h { y with owed := y.owed ++ [r.n - h.n] }

/-- The queue of a tile mover holds 16 transfers at most; further ones wait for room in it (R164). -/
def Tmv.queued (m : Tmv) (all : List Xfer) : Tmv := { m with queue := all.take 16, wait := all.drop 16 }

/-- The transfers of a tile mover that have not started, in their order. -/
def Tmv.all (m : Tmv) : List Xfer := m.queue ++ m.wait

/-- Queues the transfer of a tile that has been written into a staging ring (R164). -/
def State.tmvQueue (s : State) (r : SlotRef) : State :=
  match s.ringOf r with
  | some h =>
    (match (s.ring h).target with
      | some g =>
        let x := s.tmv r.unit
        s.setTmv r.unit (x.queued (x.all ++ [{ src := r, dst := g, owner := (s.station (s.ring h).prod).owner, slot := none, start := 0 }]))
      | none => s)
  | none => s

/-- The flags that a tile passes on (R159); a torn tile of a window counts as poison. -/
def State.passFlags (s : State) (r : SlotRef) : Nat :=
  let f := s.hdrFlags r
  if f.testBit 2 then 2 else f &&& 0xB

/-- An access of a shared engine outside its owner's allocation is captured at the memory controller (R303); the kind of the
capture is a free value. -/
def State.foreignCapture (s : State) (owner a : Nat) : State :=
  (s.eccCapture (fnMaster owner) (a / 8) 0 (Config.freeNat s.fresh % 4)).burn

/-! ### Tensor watch points (R438) -/

/-- The elements of vector v of a written tile: exact value, or none where it is poison, and its bytes. -/
def State.outElems (s : State) (r : SlotRef) (exp : Int) : List (Option Int) :=
  let fmt := s.hdrFmt r
  let flags := s.hdrFlags r
  let n := s.hdrNelem r
  (List.range (s.hdrNvec r)).flatMap (fun v =>
    let a := s.slotAddr r + 64 + v * vstride fmt n
    (List.range n).map (fun k =>
      if fmt = 2 then
        let x := (BitVec.ofNat 32 (leNat (s.bytes (a + 4 * k) 4))).toInt
        if (flags.testBit 1 && x == -2147483648) || s.readsPoison (a + 4 * k) 4 then none else some (x * 2 ^ 149)
      else
        let x := leNat (s.bytes (a + 2 * k) 2)
        if elemPoison fmt x || s.readsPoison (a + 2 * k) 2 then none else some (elemVal fmt exp x)))

/-- The payload bytes of a written tile without padding. -/
def State.outBytes (s : State) (r : SlotRef) : List Byte :=
  let fmt := s.hdrFmt r
  let n := s.hdrNelem r
  (List.range (s.hdrNvec r)).flatMap (fun v =>
    s.bytes (s.slotAddr r + 64 + v * vstride fmt n) (if fmt = 2 then 4 * n else 2 * n))

/-- A point takes a tile. -/
def TensorPoint.take (p : TensorPoint) (digest : Bool) (seq gen flags : Nat) (els : List (Option Int)) (bs : List Byte) :
    TensorPoint :=
  let vs := els.filterMap id
  let q := { p with
    n := p.n + 1
    fseq := if p.n = 0 then seq else p.fseq
    lseq := seq
    gen := some gen
    mixed := p.mixed || (match p.gen with | some g => g != gen | none => false)
    sat := p.sat + (flags.testBit 3).toNat
    prov := p.prov + (flags.testBit 0).toNat }
  if digest then { q with bytes := p.bytes ++ bs }
  else
    vs.foldl
      (fun (x : TensorPoint) v => { x with count := x.count + 1, min := if x.count = 0 then v else Min.min x.min v, max := if x.count = 0 then v else Max.max x.max v, sum := x.sum + v, sumSq := x.sumSq + v * v })
      { q with poison := p.poison + (els.length - vs.length) }

/-- The armed points of a station, while DIE.OBS is on. -/
def State.pointsOf (s : State) (st : Nat) : List Nat :=
  if s.dieOn 5 then
    (List.range 64).filter (fun n => s.bit .OBS_TW_CFG_ARMED n && s.getF .OBS_TW_CFG_STATION n == st)
  else []

/-- Sets the eight result words of a point from words, R0 first. -/
def State.setResult (s : State) (n : Nat) (ws : List Nat) : State :=
  ws.zipIdx.foldl (fun t p => t.setF .OBS_TW_R_VALUE (8 * n + p.2) (p.1 % 4294967296)) s

/-- The result words of a window (R446): the digest, or the statistics in fp32 and fp64, the low word of a pair first. The minimum
and maximum of a window without elements are free values. -/
def TensorPoint.words (p : TensorPoint) (digest : Bool) (fresh : Nat) : List Nat :=
  if digest then (pieces 4 8 (sha256 p.bytes)).map beNat
  else
    let ends := if p.count = 0 then [Config.freeNat fresh, Config.freeNat (fresh + 1)] else [toFp32 p.min (-149), toFp32 p.max (-149)]
    let sum := toFp64 p.sum (-149)
    let sq := toFp64 p.sumSq (-298)
    [p.count] ++ ends ++ [p.poison, sum % 4294967296, sum / 4294967296, sq % 4294967296, sq / 4294967296]

/-- A window of a point closes and latches its result; the next starts (R438). -/
def State.closePoint (s : State) (n : Nat) : State :=
  let p := s.point n
  let digest := s.bit .OBS_TW_CFG_MODE n
  let s := s.setResult n (p.words digest s.fresh)
  let s := ((s.setF .OBS_TW_FSEQ_VALUE n p.fseq).setF .OBS_TW_LSEQ_VALUE n p.lseq).setF .OBS_TW_FLAGT_SAT n p.sat
  let s := ((s.setF .OBS_TW_FLAGT_PROV n p.prov).setB .OBS_TW_STAT_MIXED n p.mixed).setB .OBS_TW_STAT_INCOMPLETE n p.incomplete
  let s := s.addWrap .OBS_TW_STAT_CLOSED n 1
  { s.setPoint n { TensorPoint.idle with size := p.size, rank := p.rank } with fresh := s.fresh + 2 }

/-- The points of a station take a tile that has been written into a slot; a full window closes first. -/
def State.pointsTake (s : State) (st : Nat) (exp : Int) (r : SlotRef) : State :=
  (s.pointsOf st).foldl
    (fun t n =>
      let t := if (t.point n).size ≤ (t.point n).n then t.closePoint n else t
      t.setPoint n ((t.point n).take (t.bit .OBS_TW_CFG_MODE n) (t.hdrSeq r) (t.hdr r 0x1B 1) (t.hdrFlags r)
        (t.outElems r exp) (t.outBytes r))) s

/-! ### Decision stations (R182, R465) -/

/-- A decision test: enabled, threshold, all vectors, less than, element. -/
structure DTest where
  en     : Bool
  thresh : Nat
  all    : Bool
  less   : Bool
  elem   : Nat
deriving DecidableEq, Repr

/-- Test b of a table at a BAR2 offset (Table 6.8). -/
def State.dtest (s : State) (a b : Nat) : DTest :=
  let lo := leNat (s.bytes (a + 8 * b) 4)
  { en := lo.testBit 31, thresh := leNat (s.bytes (a + 8 * b + 4) 4), all := lo.testBit 17, less := lo.testBit 16, elem := lo % 256 }

/-- Whether a test holds for a vector: none for a vector of a torn tile, all poison (R166). -/
def DTest.holds (t : DTest) (fmt : Nat) (exp : Int) (vec : Option (List (Nat × Bool))) : Bool :=
  match vec with
  | none => true
  | some els =>
    match els[t.elem]? with
    | none => true
    | some (x, poison) =>
      poison || fp32IsNaN t.thresh ||
        (if t.less then decide (elemVal fmt exp x < fp32Ord t.thresh) else decide (fp32Ord t.thresh ≤ elemVal fmt exp x))

/-- The vectors of a window's tiles. -/
def State.windowVecs (s : State) (fmt : Nat) (ins : List SlotRef) : List (Option (List (Nat × Bool))) :=
  ins.flatMap (fun r =>
    if (s.hdrFlags r).testBit 2 then [none]
    else (List.range (s.hdrNvec r)).map (fun v => some (s.tileVec r fmt (s.hdrNelem r) v)))

/-- The decision word of a window under the test table at a BAR2 offset. A test whose table word reads as poison gives a free bit
(log entry 91). -/
def State.decide_ (s : State) (table fmt : Nat) (exp : Int) (ins : List SlotRef) : Nat :=
  let vecs := s.windowVecs fmt ins
  (List.range 16).foldl
    (fun w b =>
      let t := s.dtest table b
      let h := if t.all then vecs.all (t.holds fmt exp) else vecs.any (t.holds fmt exp)
      if (if s.readsPoison (table + 8 * b) 8 then Config.freeBool (s.fresh + b) else t.en && h) then w + 2 ^ b else w) 0

end Sys2Proof.Machine
end

