-- ==== Sys2Proof/Machine/Watch.lean ====
section
/-!
DEFINITION. Watch inputs, watch outputs and watch rules (R352 to R368).
-/

namespace Sys2Proof.Machine
open Sys2Proof

def State.win (s : State) (n : Nat) : Win := smapGet Win.reset s.wins n
def State.setWin (s : State) (n : Nat) (x : Win) : State := { s with wins := smapSet Win.reset s.wins n x }
def State.outMark (s : State) (n : Nat) : OutMark := smapGet OutMark.idle s.outMarks n
def State.setOutMark (s : State) (n : Nat) (x : OutMark) : State := { s with outMarks := smapSet OutMark.idle s.outMarks n x }
def State.wrule (s : State) (r : Nat) : WRule := smapGet WRule.free s.wrules r
def State.setWRule (s : State) (r : Nat) (x : WRule) : State := { s with wrules := smapSet WRule.free s.wrules r x }

/-- The 1 us tick of a time (R355). -/
def tickOf (t : Nat) : Nat := t / 1000

/-! ### Inputs (R352 to R355) -/

/-- Whether input pair n is enabled. -/
def State.winOn (s : State) (n : Nat) : Bool := (s.setting 2).testBit (8 + n)

/-- Whether channels A and B are active (R353). -/
def State.winA (s : State) (n : Nat) : Bool := s.bit .WIO_WINSTAT_A n
def State.winB (s : State) (n : Nat) : Bool := s.bit .WIO_WINSTAT_B n != s.bit .WIO_WINCFG_ANTIV n

/-- Whether a pair reads ARMED (R352, R354); while VDD_WIO is low no pair does (R453). -/
def State.armed (s : State) (n : Nat) : Bool :=
  s.winOn n && s.winA n && s.winB n && !(s.bit .WIO_WINSTAT_FAULT n) && !s.wioDown

/-- The discrepancy time in ns. -/
def State.discTime (s : State) (n : Nat) : Nat := 1000000 * s.getF .WIO_WINCFG_DISC n

/-- TIMER: the current disagreement in ms. -/
def State.winTimer (s : State) (n : Nat) : Nat :=
  match (s.win n).differ with
  | some t => min ((s.time - t) / 1000000) 500
  | none => 0

/-! ### Rules and outputs (R358, R363 to R366) -/

/-- Whether a rule is muted (R365). -/
def State.muted (s : State) (x : WRule) : Bool := x.inhibit < 4 && s.armed x.inhibit

/-- Whether a rule requests its outputs. -/
def State.requesting (s : State) (x : WRule) : Bool := (x.last || x.till.isSome) && !(s.muted x)

/-- Whether an output is requested by a rule, or by a freed one whose hold timer runs (R366). -/
def State.requested (s : State) (n : Nat) : Bool := (s.wrules ++ s.heldRules).any (fun e => e.2.outmask.testBit n && s.requesting e.2)

/-- Whether an output's driver is commanded low (R352, R358). -/
def State.asserted (s : State) (n : Nat) : Bool :=
  (s.setting 2).testBit n && s.getF .WIO_WOUTSTAT_FAULT n != 1 && !s.wioDown &&
    (s.bit .WIO_WOUTCFG_FORCE n || s.bit .WIO_WOUTSTAT_HELD n || s.requested n)

/-- Whether an output is a member of a pair (R362): a loaded rule with PAIRED names both members. -/
def State.pairedOut (s : State) (n : Nat) : Bool :=
  s.wrules.any (fun e => e.2.valid && e.2.paired && e.2.outmask.testBit (n / 2 * 2) && e.2.outmask.testBit (n / 2 * 2 + 1))

/-- The other member of a pair. -/
def partner (n : Nat) : Nat := if n % 2 = 0 then n + 1 else n - 1

/-- The owners of the rules that name an output. -/
def State.outOwners (s : State) (n : Nat) : List Nat :=
  ((s.wrules.filter (fun e => e.2.valid && e.2.outmask.testBit n)).map (fun e => e.2.owner)).dedup

/-- The tests of Table 13.1 restart for each output whose commanded state has changed from `t`; the line is taken to follow the driver
until a detector reports otherwise. -/
def State.outFollow (s t : State) : State :=
  (List.range 8).foldl
    (fun u n =>
      if t.asserted n != s.asserted n then
        (u.setB .WIO_WOUTSTAT_PIN n (!(s.asserted n))).setOutMark n { u.outMark n with since := s.time }
      else u) s

/-- A clear of MISMATCH in the tick of a request is judged against the state commanded after it: where the readback is high the fault
stays (R368). `t` is the state before the request. -/
def State.clearJudged (s t : State) : State :=
  (List.range 8).foldl
    (fun u n =>
      match (u.outMark n).cleared with
      | some c =>
        if s.asserted n && !(t.asserted n) && tickOf c.1 == tickOf s.time && c.2.1 then
          let v := ((u.setF .WIO_WOUTSTAT_FAULT n 2).setB .WIO_WOUTSTAT_EXTLOW n c.2.2).setB .WIO_WOUTSTAT_PIN n c.2.1
          let v := v.setOutMark n { v.outMark n with cleared := none }
          if s.pairedOut n then v.setF .WIO_WOUTSTAT_HELD (partner n) 1 else v
        else u
      | none => u) s

/-- What a change of the commanded states from those of `t` entails. -/
def State.wioSettle (s t : State) : State :=
  let u := s.outFollow t
  (u.clearJudged t).outFollow u

/-- A rule judges a decision word (R363, R364). -/
def WRule.judge (x : WRule) (now word : Nat) (prov : Bool) : WRule :=
  let hit := if x.allBits then word &&& x.mask == x.mask else word &&& x.mask != 0
  let hit := hit && !(prov && x.exclProv)
  if x.hold = 0 then { x with last := hit }
  else if hit then { x with till := some (now + 1000 * x.hold) } else x

/-- Every rule of a station judges its decision word. -/
def State.ruleWord (s : State) (st word : Nat) (prov : Bool) : State :=
  let t := s.wrules.foldl
    (fun u e => if e.2.valid && e.2.station == st then u.setWRule e.1 (e.2.judge s.time word prov) else u) s
  t.wioSettle s

/-- A rule is freed at unload (R240, R366): its place is free at once, and its request lasts while its hold timer runs. -/
def State.ruleFree (s : State) (r : Nat) : State :=
  let x := s.wrule r
  let left := if x.till.isSome then [(r, { x with valid := false, last := false })] else []
  ({ s with heldRules := s.heldRules ++ left }.setWRule r WRule.free).wioSettle s

/-- A rule of an owner without the outputs that are not given. -/
def WRule.cut (x : WRule) (owner outs : Nat) : WRule := if x.owner = owner then { x with outmask := x.outmask &&& outs } else x

/-- Outputs leave an owner's map: its rules stop requesting them at once (R366). -/
def State.ruleCut (s : State) (owner outs : Nat) : State :=
  let t := s.wrules.foldl (fun (u : State) (e : Nat × WRule) => u.setWRule e.1 (e.2.cut owner outs)) s
  let hs : List (Nat × WRule) := t.heldRules.map (fun e => (e.1, e.2.cut owner outs))
  { t with heldRules := hs }.wioSettle s

/-! ### Faults of inputs -/

/-- The discrepancy fault latches (R355). -/
def State.discFault (s : State) (n : Nat) : State :=
  let t := ((s.setF .WIO_WINSTAT_FAULT n 1).addHold .WIO_WINCNT_COUNT n 1).raise 0x101 0 0xFF n 0xFFFF []
  t.wioSettle s

/-- The levels of a pair have been set: the discrepancy timer starts or clears, latching the fault where the disagreement
lasted T, to the tick, and the joint safe state begins or ends; a CLR of the tick in which it ends is discarded (R355, R356). -/
def State.winJudge (s : State) (n : Nat) : State :=
  let x := s.win n
  let a := s.winA n
  let b := s.winB n
  let safe := !a && !b
  let y : Win := { x with differ := if a != b && s.winOn n then some (x.differ.getD s.time) else none, safe := if safe then some (x.safe.getD s.time) else none }
  let late := match x.differ with
    | some t => a == b && tickOf (t + s.discTime n) ≤ tickOf s.time && !(s.bit .WIO_WINSTAT_FAULT n)
    | none => false
  let t := s.setWin n y
  let t := if !safe && x.safe.isSome && x.cleared.map tickOf == some (tickOf s.time) then t.setF .WIO_WINSTAT_FAULT n 1 else t
  let t := if safe then t else t.setF .WIO_WINSTAT_CLRREADY n 0
  if late then t.discFault n else t

/-- WATCH_INPUT_CHANGE (R353, R354): the filtered levels of a pair. -/
def execWatchInputChange (now : Nat) (n : Fin 4) (a b : Bool) (s : State) : Host.Outcome State Fault Refusal :=
  let s := s.advance now
  if s.wioDown then .next s
  else
    let t := ((s.setB .WIO_WINSTAT_A n.val a).setB .WIO_WINSTAT_B n.val b).winJudge n.val
    .next (t.wioSettle s)

/-- DISCREPANCY_FAULT (R355): the disagreement has lasted T. -/
def execDiscrepancyFault (now : Nat) (n : Fin 4) (s : State) : Host.Outcome State Fault Refusal :=
  let s := s.advance now
  match (s.win n.val).differ with
  | some t =>
    if t + s.discTime n.val ≤ s.time && !(s.bit .WIO_WINSTAT_FAULT n.val) && !s.wioDown then .next (s.discFault n.val)
    else .next s
  | none => .next s

/-- CLR_READY (R356): both channels have been safe for 10 ms. -/
def execClrReady (now : Nat) (n : Fin 4) (s : State) : Host.Outcome State Fault Refusal :=
  let s := s.advance now
  match (s.win n.val).safe with
  | some t => if t + 10000000 ≤ s.time then .next (s.setF .WIO_WINSTAT_CLRREADY n.val 1) else .next s
  | none => .next s

/-- WATCH_INPUT_CLEAR (R356): discarded while CLRREADY is 0. -/
def execWatchInputClear (now : Nat) (n : Fin 4) (s : State) : Host.Outcome State Fault Refusal :=
  let s := s.advance now
  if s.bit .WIO_WINSTAT_CLRREADY n.val && s.bit .WIO_WINSTAT_FAULT n.val then
    .next (((s.setF .WIO_WINSTAT_FAULT n.val 0).setWin n.val { s.win n.val with cleared := some s.time }).wioSettle s)
  else .next s

/-- WATCH_INPUT_CONFIG (R357): discarded while a loaded rule names the pair as its INHIBIT or its fault is latched. -/
def execWatchInputConfig (now : Nat) (n : Fin 4) (v : Word) (s : State) : Host.Outcome State Fault Refusal :=
  let s := s.advance now
  if s.wrules.any (fun e => e.2.valid && e.2.inhibit == n.val) || s.bit .WIO_WINSTAT_FAULT n.val then .next s
  else
    let w := v.toNat
    let disc := w / 65536 % 512
    let disc := if disc < 1 then 1 else if 500 < disc then 500 else disc
    let t := ((s.setF .WIO_WINCFG_DISC n.val disc).setF .WIO_WINCFG_ANTIV n.val (w / 256 % 2)).setF .WIO_WINCFG_FILT n.val
      (w % 256)
    .next ((t.winJudge n.val).wioSettle s)

/-! ### Outputs -/

/-- Whether a rule's hold timer has run out. -/
def WRule.expired (x : WRule) (now : Nat) : Bool := match x.till with | some t => decide (t ≤ now) | none => false

/-- HOLD_EXPIRE (R364, R366): the hold timer of a rule, and of rules that were freed from its place, ends, and the request with
it. -/
def execHoldExpire (now : Nat) (r : Fin 32) (s : State) : Host.Outcome State Fault Refusal :=
  let s := s.advance now
  let x := s.wrule r.val
  let t := { s with heldRules := s.heldRules.filter (fun e => !(e.1 == r.val && e.2.expired s.time)) }
  .next ((if x.expired s.time then t.setWRule r.val { x with till := none } else t).wioSettle s)

/-- A fault latches on an output (R359, R362): counted, reported, and in a pair the other member is held. -/
def State.outFault (s : State) (n fault : Nat) (extlow : Bool) : State :=
  let owners := s.outOwners n
  let owner := match owners with | [o] => o | _ => 0xFF
  let t := ((s.setF .WIO_WOUTSTAT_FAULT n fault).setB .WIO_WOUTSTAT_EXTLOW n extlow).addHold .WIO_WOUTFLTCNT_COUNT n 1
  let t := t.setOutMark n { t.outMark n with fired := some s.time, cleared := none }
  let t := t.raiseTo owners 0x102 owner 0xFF n 0xFFFF [BitVec.ofNat 8 fault]
  let t := if s.pairedOut n then t.setF .WIO_WOUTSTAT_HELD (partner n) 1 else t
  t.wioSettle s

/-- OUTPUT_SHORT (R359): the limiter has held for 1 us on an asserted output. -/
def execOutputShort (now : Nat) (n : Fin 8) (s : State) : Host.Outcome State Fault Refusal :=
  let s := s.advance now
  if s.asserted n.val && (s.outMark n.val).since + 1000 ≤ s.time then .next (s.outFault n.val 1 false) else .next s

/-- OUTPUT_MISMATCH (R359, R360): the readback has disagreed with the commanded state for longer than 2 us. -/
def execOutputMismatch (now : Nat) (n : Fin 8) (pin : Bool) (s : State) : Host.Outcome State Fault Refusal :=
  let s := s.advance now
  let on := (s.setting 2).testBit n.val && !s.wioDown
  let s := s.setB .WIO_WOUTSTAT_PIN n.val pin
  if on && s.getF .WIO_WOUTSTAT_FAULT n.val = 0 && pin == s.asserted n.val && (s.outMark n.val).since + 2000 < s.time then
    .next (s.outFault n.val 2 (!(s.asserted n.val)))
  else .next s

/-- A fault of an output clears; once neither member of its pair has one, both are let go (R361, R362). -/
def State.outClear (s : State) (n : Nat) : State :=
  let t := (s.setF .WIO_WOUTSTAT_FAULT n 0).setF .WIO_WOUTSTAT_EXTLOW n 0
  let t := if t.getF .WIO_WOUTSTAT_FAULT (partner n) = 0 then
      (t.setF .WIO_WOUTSTAT_HELD n 0).setF .WIO_WOUTSTAT_HELD (partner n) 0 else t
  t.wioSettle s

/-- WATCH_OUTPUT_CLEAR (R361): discarded in the tick in which a detector fires, and for MISMATCH while the readback still disagrees. -/
def execWatchOutputClear (now : Nat) (n : Fin 8) (pin : Bool) (s : State) : Host.Outcome State Fault Refusal :=
  let s := s.advance now
  let s := s.setB .WIO_WOUTSTAT_PIN n.val pin
  let x := s.outMark n.val
  if x.fired.map tickOf == some (tickOf s.time) then .next s
  else
    match s.getF .WIO_WOUTSTAT_FAULT n.val with
    | 0 => .next s
    | 2 =>
      if pin == s.asserted n.val then .next s
      else .next ((s.setOutMark n.val { x with cleared := some (s.time, pin, s.bit .WIO_WOUTSTAT_EXTLOW n.val) }).outClear n.val)
    | _ => .next (s.outClear n.val)

/-- FORCE (R358). -/
def execForce (now : Nat) (n : Fin 8) (v : Bool) (s : State) : Host.Outcome State Fault Refusal :=
  let s := s.advance now
  .next ((s.setB .WIO_WOUTCFG_FORCE n.val v).wioSettle s)

end Sys2Proof.Machine
end

