-- ==== Sys2Proof/Machine/Tile.lean ====
section
/-!
DEFINITION. The tile loop of the steppers (R155, R159, R165, R166, R201, R211, R463, R466), decision words (R182), the
parking of stations (R16, R154), and the switch to a new weight copy (R99, R179, R263).
-/

namespace Sys2Proof.Machine
open Sys2Proof

/-! ### Which station starts (R201) -/

/-- The unit set of a kind without engines: 16 DPE, 17 VXE, 18 PRE, 19 TMV. -/
def unitOfKind (kind : Nat) : Nat := match kind with | 1 => 16 | 3 => 18 | 5 => 19 | _ => 17

/-- Whether a station's unit set is free. -/
def State.unitFree (s : State) (core kind : Nat) (x : Desc) : Bool :=
  if kind = 0 then (engList x.engmask).all (fun e => (s.engine (s.physOf core e)).tile.isNone)
  else (s.coreTiles core).all (fun t => t.unit != unitOfKind kind)

/-- Whether the next tiles of the input rings can be taken: each is Full, and those of a merge have one sequence number
unless one is torn. -/
def State.inputsReady (s : State) (rings : List SlotRef) : Bool :=
  let hs := rings.map s.nextRd
  !rings.isEmpty && hs.all (fun r => s.slot r == 2 && s.slotOn r)

def State.matched (s : State) (rings : List SlotRef) : Bool :=
  let hs := rings.map s.nextRd
  hs.any s.torn || hs.all (fun r => s.hdrSeq r == s.hdrSeq (hs.headD r))

/-- A merge station: kind 5 with several input routes. -/
def Desc.merge (x : Desc) : Bool := x.kind == 5 && 2 ≤ x.nin

/-- The rings that the counted route words name, but for the invalid ones of a descriptor that raises DESCRIPTOR. -/
def Desc.okRings (x : Desc) (core : Nat) (ws : List Nat) (n : Nat) : List SlotRef :=
  (((ws.take n).filter (fun w => x.reason.isNone || routeOk w)).map (routeRing core))

/-- If descriptor d can start a tile, or raise DESCRIPTOR in its stead (R201, R211): the device time of its oldest input tile. -/
def State.startable (s : State) (core d : Nat) : Option Nat :=
  let x := s.desc core d
  let y := s.station x.station
  let ins := x.okRings core x.ins x.nin
  let bound := x.valid && y.core == core && y.d == d && hasDesc y.kind && (y.state == 1 || y.state == 4)
  if !bound || !y.holds.isEmpty || y.grants = 0 || (s.tileOf core d).isSome || !(s.unitFree core y.kind x) then none
  else
    let oldest := y.window.headD (s.nextRd (ins.headD { km := false, unit := core, n := 0 }))
    let taken := s.inputsReady ins && (!x.merge || s.matched ins)
    if (taken || (x.reason.isSome && ins.isEmpty)) &&
        (x.okRings core x.outs x.nout).all (fun h => s.slot (s.nextWr h) == 0 && s.slotOn h) &&
        (x.reason.isSome || x.kind != 0 || x.nout == 1) then
      some (if ins.isEmpty then 0 else s.hdrTime oldest)
    else none

/-- The engines that matrix stations of the core which can start share with unit u, through overlapping masks (R201; DEDUCED, log
entry 44). -/
def unitSet (masks : List Nat) (u : Nat) : Nat :=
  (List.range 16).foldl (fun m _ => masks.foldl (fun n k => if n &&& k != 0 then n ||| k else n) m) (2 ^ u)

/-- The station that starts on the unit set of unit u: of those that can, the one with the earliest input tile, then the lower
descriptor. -/
def State.pick (s : State) (core u : Nat) : Option Nat :=
  let can := (List.range 64).filterMap (fun d => (s.startable core d).map (fun t => (t, d)))
  let kind (d : Nat) : Nat := (s.station (s.desc core d).station).kind
  let set := unitSet ((can.filter (fun p => kind p.2 == 0)).map (fun p => (s.desc core p.2).engmask)) u
  let mine := can.filter (fun p =>
    if kind p.2 = 0 then u < 16 && (s.desc core p.2).engmask &&& set != 0 else unitOfKind (kind p.2) == u)
  (mine.foldl (fun (m : Option (Nat × Nat)) p => match m with
    | some q => if p.1 < q.1 then some p else some q
    | none => some p) none).map (·.2)

/-! ### Merge inputs (R155) -/

/-- One input tile of a merge that precedes the tile another route offers is discarded and counted. -/
def State.mergeStep (s : State) (st : Nat) (rings : List SlotRef) : Option State :=
  let offered := rings.filter (fun h => s.slot (s.nextRd h) == 2 && !(s.torn (s.nextRd h)))
  let late := offered.find? (fun h => offered.any (fun g => precedes (s.hdrSeq (s.nextRd h)) (s.hdrSeq (s.nextRd g))))
  late.map (fun h => ((s.emptySlot (s.nextRd h)).stepRd h).count st 4 1)

def State.mergeAlign (s : State) (st : Nat) (rings : List SlotRef) : Nat → State
  | 0 => s
  | n + 1 =>
    match s.mergeStep st rings with
    | some t => t.mergeAlign st rings n
    | none => s

/-- The merge stations of a core that are not parked discard what can find no match. -/
def State.alignMerges (s : State) (core : Nat) : State :=
  (List.range 64).foldl
    (fun t d =>
      let x := t.desc core d
      let y := t.station x.station
      if x.valid && x.merge && x.reason.isNone && y.core == core && y.d == d && (y.state == 1 || y.state == 4) &&
          y.holds.isEmpty then t.mergeAlign x.station (x.inRings core) 512
      else t) s

/-! ### A tile start -/

/-- The exception DESCRIPTOR (R211). -/
def State.descExc (s : State) (core d reason : Nat) : State :=
  let st := (s.desc core d).station
  let y := s.station st
  let s := s.capture .STP_EXC_VALID .STP_EXC_OVERRUN core
    [(.STP_EXC_REASON, reason), (.STP_EXC_DIDX, d), (.STP_EXC_STATION, st)]
  let s := (s.park st .descriptor).raise 0x203 y.owner (core / 8) (core % 8) st [BitVec.ofNat 8 reason]
  match y.firer with
  | some (cl, th, pc) => s.seqCapture (8 * cl + th) 0x20 pc
  | none => s

/-- The register that names the station of a unit's last tile. -/
def State.noteUnit (s : State) (core u st : Nat) : State :=
  match u with
  | 16 => s.setF .DPE_STAT_STATION core st
  | 17 => s.setF .VXE_STAT_STATION core st
  | 18 => s.setF .PRE_STAT_STATION core st
  | _ => s

/-- A start takes a grant and, of a sweep station, one of the tiles it is to take (R199, R265). -/
def State.takeGrant (s : State) (core d st : Nat) (r : SlotRef) : State :=
  let y := s.station st
  let s := s.setStation st { y with grants := y.grants - 1, tiles := y.tiles - 1, ctx := some (s.hdrCtx r), taken := s.hdrSeq r }
  let s := (s.setF .STP_STAT_DIDX core d).setF .STP_STAT_STATION core st
  if y.tiles = 1 then s.park st .sweep else s

/-- An input slot is taken: Reading, or where the tile is torn and not kept, Empty. -/
def State.takeSlot (s : State) (st : Nat) (h : SlotRef) (keep : Bool) : State :=
  let r := s.nextRd h
  let s := s.stepRd h
  if s.torn r then (s.tornTaken st r).setSlot r (if keep then 3 else 0) else s.setSlot r (if keep then 3 else 0)

/-- What an engine of a matrix station begins a tile with. -/
def State.armEngine (s : State) (core d st e : Nat) (opw : Nat) : State :=
  let pe := if (s.station st).onOld then engIx core e else s.mapOf core e
  let x := s.engine pe
  s.setEngine pe { Engine.idle with opw := BitVec.ofNat 32 opw, station := st, rg := x.rg, neg := x.neg, tile := some d, ran := x.ran }

/-- The processing of a tile begins: the next output slots become Filling, the next partial-sum tiles belong to it, and its
unit set is busy. -/
def State.beginTile (s : State) (core u d : Nat) (ins side gone : List SlotRef) (newest : SlotRef) : State :=
  let x := s.desc core d
  let st := x.station
  let y := s.station st
  let outs := (x.outRings core).map s.nextWr
  let parts := (x.partRings core).map s.nextRd
  let flags := (ins ++ side).foldl (fun m r => m ||| s.passFlags r) 0
  let nvec := s.hdrNvec newest
  let master := fnMaster y.owner
  let word := if y.kind = 6 then some (s.decide_ (cmBase core + x.rsbase) y.inFmt y.inExp ins) else none
  let s := if y.kind = 6 then { s.readEcc master (cmBase core + x.rsbase) 128 with fresh := s.fresh + 16 } else s
  let s := (ins ++ side).foldl
    (fun t r => t.readEcc master (t.slotAddr r)
      (if y.kind = 0 then 64 else 64 + t.hdrNvec r * vstride (t.hdrFmt r) (t.hdrNelem r))) s
  let s := (x.outRings core).foldl (fun t h => (t.setSlot (t.nextWr h) 1).stepWr h) s
  let s := (x.partRings core).foldl (fun t h => t.stepRd h) s
  let s := if y.kind = 0 then (engList x.engmask).foldl (fun t e => t.armEngine core d st e (x.opws.getD e 0)) s
    else s.noteUnit core u st
  let t : Tile := { d := d, st := st, unit := if y.kind = 0 then x.head else u, ins := ins ++ side, parts := parts, outs := outs, nvec := nvec, done := [], flags := flags, start := s.time, word := word, old := false, pois := [], src := newest, gone := gone, sent := false, oldCopy := false, worked := 0, turn := false }
  let s := s.setCoreTiles core (s.coreTiles core ++ [t])
  s.enterTile st

/-- A start of a station with one window: the tile joins it. A torn tile, or one that leaves the window short, gives no output;
a full window that gave none lets its oldest tile go first (R165, R166, R466). -/
def State.startWindow (s : State) (core u d : Nat) : State :=
  let x := s.desc core d
  let st := x.station
  match x.inRings core with
  | [] => s
  | h :: more =>
    let r := s.nextRd h
    let torn := s.torn r || more.any (fun g => s.torn (s.nextRd g))
    let side := more.map s.nextRd
    let s := s.takeGrant core d st r
    let s := more.foldl (fun t g => t.takeSlot st g true) s
    let free (t : State) : State := (side.foldl (fun t g => t.setSlot g 0) t)
    let skip (t : State) : State := (x.partRings core).foldl State.skipPart t
    if torn && x.window ≤ 1 then skip (free (s.takeSlot st h false))
    else
      let y := s.station st
      let filled := x.window ≤ y.window.length
      let s := if filled then (match y.window.head? with | some o => s.emptySlot o | none => s) else s
      let w := (if filled then y.window.drop 1 else y.window) ++ [r]
      let s := (s.setStation st { y with window := w }).takeSlot st h true
      if torn || w.length < x.window then skip (free s)
      else s.beginTile core u d w side (w.take 1 ++ side) r

/-- A start of a merge: a torn tile of one route is discarded, else the matched set is taken. -/
def State.startMerge (s : State) (core u d : Nat) : State :=
  let x := s.desc core d
  let rings := x.inRings core
  match rings.find? (fun h => s.torn (s.nextRd h)) with
  | some h => (s.takeGrant core d x.station (s.nextRd h)).takeSlot x.station h false
  | none =>
    let ins := rings.map s.nextRd
    let s := s.takeGrant core d x.station (ins.headD { km := false, unit := core, n := 0 })
    let s := rings.foldl (fun t h => t.takeSlot x.station h true) s
    s.beginTile core u d ins [] ins (ins.headD { km := false, unit := core, n := 0 })

/-! ### A tile completes -/

/-- How many elements a kernel that the manual does not give writes per vector: a free value that the slot has room for. -/
def State.freeNelem (s : State) (r : SlotRef) (fmt nvec : Nat) : Nat :=
  let size := match s.ringOf r with | some h => (s.ring h).size | none => 0
  let room := (size - 64) / max nvec 1 / 32 * 16
  if fmt = 2 then 256 else 1 + Config.freeNat s.fresh % max 1 (min 256 room)

/-- What a kernel may write where no poison is: no poison element, and in bf16 no subnormal, no infinity and no negative zero
(R91, R92, R96). -/
def soundElem (fmt x : Nat) : Nat :=
  if fmt = 2 then (if x % 4294967296 = 0x80000000 then 0x80000001 else x % 4294967296)
  else if fmt = 0 then (if x % 65536 = 0x8000 then 0x8001 else x % 65536)
  else if x / 128 % 256 = 255 then x % 65536 / 32768 * 32768 + 0x7F7F
  else cleanElem fmt (x % 65536)

/-- The input of output vector v of a station without a stated function: of a digital-matrix station the concatenation of R463,
of the others all that its window holds. -/
def State.kernelIn (s : State) (t : Tile) (v : Nat) : List (Nat × Bool) :=
  let y := s.station t.st
  if y.kind = 1 then s.windowVec y.inFmt v t.ins
  else t.ins.flatMap (fun r => (List.range (s.hdrNvec r)).flatMap (fun w => s.windowPart (s.hdrFmt r) w t.src r))

/-- The elements of a tile that a vector, pool/resize, digital-matrix or merge kernel computes, each with whether it is poison
(R92, R166): every result of a digital-matrix vector with a poison element, and every result while the window holds a torn tile; of
another kernel the elements that depend on a poison element, which the manual does not tell. Values are free (log entry 12). -/
def State.kernelElems (s : State) (t : Tile) (fmt nelem : Nat) : List (List (Nat × Bool)) :=
  let y := s.station t.st
  let torn := t.ins.any (fun r => (s.hdrFlags r).testBit 2)
  (List.range t.nvec).map (fun v =>
    let xs := s.kernelIn t v
    let bad := xs.any (fun x => x.2)
    let all := bad && (y.kind = 1 || torn || (fmt == 2 && Config.freeBool (s.fresh + v)))
    (List.range nelem).map (fun k =>
      (soundElem fmt (Config.kernel s.fresh (xs.map (fun x => x.1)) v k), all || (bad && fmt != 2 && Config.freeBool (s.fresh + 256 * v + k)))))

/-- The payload bytes of elements: poison in its form, and zeros between vectors (R92, R96, R157). -/
def kernelBytes (fmt nelem : Nat) (es : List (List (Nat × Bool))) : List Byte :=
  es.flatMap (fun v =>
    let bs := v.flatMap (fun e =>
      if fmt = 2 then leBytes 4 (if e.2 then 0x80000000 else e.1) else leBytes 2 (if e.2 then poisonElem fmt else e.1))
    bs ++ List.replicate (vstride fmt nelem - bs.length) 0)

/-- Whether the tiles of a window hold a poison element. -/
def State.tilesPoison (s : State) (ins : List SlotRef) : Bool :=
  ins.any (fun r =>
    (s.hdrFlags r).testBit 2 ||
    (if s.hdrFmt r = 2 then (s.hdrFlags r).testBit 1 || s.readsPoison (s.slotAddr r + 64) (s.hdrNvec r * 1024)
     else (List.range (s.hdrNvec r)).any (fun v => (s.tileVec r (s.hdrFmt r) (s.hdrNelem r) v).any (fun e => e.2))))

/-- A copy of the payload of one slot into another, poison marks kept (R155, R182). -/
def State.copyPayload (s : State) (master : Nat) (dst src : SlotRef) : State :=
  s.moveBytes master (s.slotAddr dst + 64) (s.slotAddr src + 64)
    (s.hdrNvec src * vstride (s.hdrFmt src) (s.hdrNelem src))

/-- In a spilled tile with POISON set, a saturated accumulator of -2^31 becomes -2^31 + 1 (R96). -/
def State.spillFix (s : State) (r : SlotRef) (nvec : Nat) (pois : List Nat) : State :=
  ((List.range nvec).filter (fun v => !(pois.contains v))).foldl
    (fun t v => (List.range 256).foldl
      (fun u j =>
        let a := u.slotAddr r + 64 + 1024 * v + 4 * j
        if leNat (u.bytes a 4) = 0x80000000 && !(u.readsPoison a 4) then u.store a (leBytes 4 0x80000001) else u) t) s

/-- The header of an output tile (R159). -/
def State.outHeader (s : State) (t : Tile) (fmt nelem nvec flags : Nat) : Header :=
  let src := t.src
  let y := s.station t.st
  { dtime := s.hdrTime src, pos := s.hdr src 8 6, seq := s.hdrSeq src, epoch := s.hdr src 0x14 4, station := t.st, kind := y.kind, ctx := s.hdrCtx src, gen := if t.old then (y.gen + 255) % 256 else y.gen, nvec := nvec, fmt := fmt, exp := if fmt = 0 then y.outExp else 0, flags := flags, nelem := nelem, decision := t.word.getD 0 }

/-- An output slot is finished: header, Full, and what observes the tile. Late tiles of an old placement are discarded (R181).
DESIGN CHOICE: the Owl takes each route's copy as a tile of its own (log entry 104). -/
def State.finishSlot (s : State) (t : Tile) (late : Bool) (h : Header) (r : SlotRef) : State :=
  if late then s.setSlot r 4
  else
    let y := s.station t.st
    let s := (s.writeMem (fnMaster y.owner) (fun _ => false) (s.slotAddr r) h.bytes).1
    let s := if h.flags.testBit 1 then s.count t.st 1 1 else s
    let vs := (s.outElems r h.exp).filterMap id
    let s := if h.flags.testBit 0 || t.oldCopy then s
      else (s.owlsOf t.st).foldl (fun u i => u.owlTake i vs (h.flags.testBit 3)) s
    ((s.pointsTake t.st h.exp r).fillSlot r).tmvQueue r

/-- Writes the payloads of a tile that no engine has written, and tells format, elements, vectors and flags of the output. -/
def State.produce (s : State) (t : Tile) : State × Nat × Nat × Nat × Nat :=
  let y := s.station t.st
  let master := fnMaster y.owner
  let copyAll := t.outs
  let src := t.src
  if y.kind = 0 then
    let fmt := y.outFmt
    let fixed := if fmt = 2 && t.flags.testBit 1 then copyAll.foldl (fun u r => u.spillFix r t.nvec t.pois) s else s
    (fixed, fmt, (if fmt = 2 then 256 else y.ncol), t.nvec, t.flags)
  else if y.kind = 6 || (y.kind = 5 && t.ins.length = 1) then
    (copyAll.foldl (fun u r => u.copyPayload master r src) s, s.hdrFmt src, s.hdrNelem src, t.nvec,
      t.flags ||| (if s.tilesPoison t.ins then 2 else 0))
  else
    let nelem := s.freeNelem (copyAll.headD src) y.outFmt t.nvec
    let es := s.kernelElems t y.outFmt nelem
    let pois := if es.any (fun v => v.any (fun e => e.2)) then 2 else 0
    let sats := Config.freeNat (s.fresh + 1) % ((es.flatten.filter (fun e => !e.2)).length + 1)
    let bs := kernelBytes y.outFmt nelem es
    let w := copyAll.foldl (fun u r => (u.writeMem master (fun _ => false) (u.slotAddr r + 64) bs).1) s
    let w := if sats = 0 then w else w.count t.st 0 sats
    ({ w with fresh := w.fresh + 8192 }, y.outFmt, nelem, t.nvec, t.flags ||| pois ||| (if sats = 0 then 0 else 8))

/-- Whether the unit set has done its work on a tile: every vector is written, or the decision word has gone; and while OUT = 1 vectors
wait for the VXE, every vector of a tile on it has had its turn (R464). -/
def State.tileDone (s : State) (core : Nat) (t : Tile) : Bool :=
  let y := s.station t.st
  if y.kind = 0 then t.nvec ≤ t.done.length
  else (y.kind != 6 || t.sent) && (t.unit != 17 || (s.offered core).isEmpty || (t.turn && t.nvec ≤ t.worked + 1))

/-- An image with a placement generation. -/
def genImage (gen : Nat) (ws : List Word) : List Word :=
  let w0 := (ws.getD 0 0).toNat
  BitVec.ofNat 32 (w0 / 16777216 * 16777216 + gen % 256 * 65536 + w0 % 65536) :: ws.drop 1

/-- Writes words into a descriptor with a placement generation. -/
def State.writeDesc (s : State) (core d gen : Nat) (ws : List Word) : State :=
  s.store (descAddr core d) ((genImage gen ws).flatMap (fun w => leBytes 4 w.toNat))

/-- Changes what the loaded bit-stream of an owner holds of a descriptor (R198). -/
def State.setImage (s : State) (owner core d : Nat) (f : Nat × Nat × List Word → Nat × Nat × List Word) : State :=
  s.setPart owner ((s.part owner).map (fun p =>
    { p with images := p.images.map (fun e => if e.1 = core && e.2.1 = d then f e else e) }))

/-- As a station passes to engines that hold its new weight copy, the shadow rows of its correction station become those of the same
rows on the new engines, taken as they were programmed, with no weak cell (R126, R263; DESIGN CHOICE, log entry 97). -/
def State.moveShadow (s : State) (core cst : Nat) (pairs : List (Nat × Nat)) : State :=
  let c := s.station cst
  let rows := c.shadow.map (fun p => match pairs.find? (fun q => q.1 == p.1) with | some q => (q.2, p.2) | none => p)
  if rows = c.shadow then s
  else
    rows.zipIdx.foldl
      (fun t r =>
        let pe := t.mapOf core r.1.1
        (List.range 256).foldl
          (fun u p => { u with shadows := smapSet 0 u.shadows (shadowKey cst r.2 p) (u.level pe r.1.2 (u.pairOf pe p)), weak := smapSet false u.weak (shadowKey cst r.2 p) false }) t)
      (s.setStation cst { c with shadow := rows })

/-- A switch to a new weight copy takes effect, with no tile of the old copy in progress (R99, R179, R263). -/
def State.weightNow (s : State) (st : Nat) (m : Migration) : State :=
  let y := s.station st
  let gen := (y.gen + 1) % 256
  let pairs := (s.desc y.core y.d).members.zip (descOf (fun k => (m.image.getD k 0).toNat)).members
  let s := (s.setImage y.owner y.core y.d (fun _ => (y.core, y.d, genImage gen m.image))).writeDesc y.core y.d gen m.image
  let s := match y.mate with | some c => s.moveShadow y.core c pairs | none => s
  s.setStation st { y with gen := gen, model := m.model, layer := m.layer, mig := y.mig.filter (fun x => !x.weight), onOld := false, holds := y.holds.filter (fun h => h != .swap) }

/-- At the end of the last tile of an old weight copy its switch takes effect. -/
def State.weightAt (s : State) (st : Nat) : State :=
  let y := s.station st
  match y.mig.find? (fun m => m.weight), y.drain with
  | some m, some _ => s.weightNow st m
  | _, _ => s

/-- The tile boundary of a station: its unit set is free, and what waits for the boundary takes effect (R16, R154, R201). -/
def State.tileEnd (s : State) (core : Nat) (t : Tile) : State :=
  let s := if t.unit < 16 then
      (List.range 17).foldl
        (fun u e =>
          let pe := engIx core e
          let x := u.engine pe
          if x.tile = some t.d && x.station = t.st then u.setEngine pe { x with tile := none } else u) s
    else s
  let s := s.setCoreTiles core ((s.coreTiles core).filter (fun u => u.d != t.d))
  let y := s.station t.st
  let s := if t.old then s else s.leaveTile t.st
  let s := if t.oldCopy then s.weightAt t.st else s
  let s := if t.old && y.drain.isNone then s.store (descAddr core t.d) (leBytes 256 0) else s
  (List.range 64).foldl (fun u g => u.sendRounds g) s

/-- Releases the input slots of a tile: the oldest of its window, and its partial sums (R73, R201). -/
def State.releaseIns (s : State) (t : Tile) : State :=
  let y := s.station t.st
  let s := (t.gone ++ t.parts).foldl State.emptySlot s
  if t.old then s else s.setStation t.st { y with window := y.window.filter (fun r => !(t.gone.contains r)) }

/-- TILE_COMPLETE (R159, R163, R181, R201). -/
def execTileComplete (now : Nat) (cl : Cluster) (co : Core) (d : Fin 64) (s : State) : Host.Outcome State Fault Refusal :=
  let s := s.advance now
  let core := coreIx cl co
  match s.tileOf core d.val with
  | some t =>
    if s.coreOn core && s.tileDone core t then
      let late := t.old && (s.station t.st).drain.isNone
      let p : State × Nat × Nat × Nat × Nat := if late then (s, 0, 0, 0, 0) else s.produce t
      let h := p.1.outHeader t p.2.1 p.2.2.1 p.2.2.2.1 p.2.2.2.2
      let s := t.outs.foldl (fun u r => u.finishSlot t late h r) p.1
      let s := if late then s.count t.st 3 1 else s
      .next ((s.releaseIns t).tileEnd core t)
    else .next s
  | none => .next s

/-- DECISION_WORD (R182): the VXE delivers the word of the decision tile in progress to the rule matcher. -/
def execDecisionWord (now : Nat) (cl : Cluster) (co : Core) (s : State) : Host.Outcome State Fault Refusal :=
  let s := s.advance now
  let core := coreIx cl co
  match (s.coreTiles core).find? (fun t => t.word.isSome && !t.sent) with
  | some t =>
    if s.coreOn core then
      let w := t.word.getD 0
      .next ((s.putTile core { t with sent := true }).ruleWord t.st w (t.flags.testBit 0))
    else .next s
  | none => .next s

/-! ### Parking -/

/-- STATION_PARK (R16, R154). -/
def execStationPark (now : Nat) (st : StationId) (s : State) : Host.Outcome State Fault Refusal :=
  .next ((s.advance now).park st.val .level1)

/-- STATION_UNPARK (R154): the station resumes once no other reason holds it; a park for a descriptor exception ends with it
(R211). -/
def execStationUnpark (now : Nat) (st : StationId) (s : State) : Host.Outcome State Fault Refusal :=
  .next (((s.advance now).unpark st.val .level1).unpark st.val .descriptor)

end Sys2Proof.Machine
end

