-- ==== Sys2Proof/Machine/Placement.lean ====
section
/-!
DEFINITION. Placement changes by drain and switch (R179 to R181): a station moves to another descriptor, with rings of its
own, at an epoch boundary of its stream; and the start of a tile (R201), which can end a drain.
-/

namespace Sys2Proof.Machine
open Sys2Proof

/-! ### Rings of a new placement -/

/-- A route word that names a ring, made of an old one. -/
def routeWord (w : Nat) (h : SlotRef) (len : Nat) : Nat :=
  2147483648 + (if h.km then 1073741824 else 0) + bits w 29 28 * 268435456 + (if h.km then h.unit else 0) * 16777216 +
    len * 131072 + h.n * 128 + w % 128

/-- Replaces word k of a descriptor. -/
def State.setDescWord (s : State) (core d k v : Nat) : State :=
  let owner := (s.desc core d).owner
  (s.setImage owner core d (fun e => (e.1, e.2.1, e.2.2.set k (BitVec.ofNat 32 v)))).store (descAddr core d + 4 * k) (leBytes 4 v)

/-- Takes a ring into use after the pattern of another, its slots Empty from a slot base on. -/
def State.ringLike (s : State) (h : SlotRef) (x : Ring) (len base : Nat) : State :=
  let s := s.setRing h { x with len := len, wr := 0, rd := 0, owed := [], target := none }
  (List.range len).foldl
    (fun t i =>
      let r := h.nth i
      let t := (t.setSlot r 0).setTorn r false
      if h.km then (t.setF .KMC_SLOT_STATION r.inst x.cons).setF .KMC_SLOT_BASE r.inst (base + i * x.size / 64)
      else (t.setF .CMC_SLOT_STATION r.inst x.cons).setF .CMC_SLOT_BASE r.inst (base + i * x.size / 64)) s

/-- Gives up a ring: its slots are no longer assigned, but for one that its consumer still reads, once it has (R181). -/
def State.ringFree (s : State) (h : SlotRef) : State :=
  let n := (s.ring h).len
  ((List.range n).foldl (fun t i => if t.slot (h.nth i) = 3 then t else (t.setSlot (h.nth i) 4).setTorn (h.nth i) false)
    s).setRing h Ring.free

/-- A slot that a producer is writing is henceforth another one. -/
def State.renameSlot (s : State) (a b : SlotRef) : State :=
  let sub (r : SlotRef) : SlotRef := if r = a then b else r
  { s with
    tiles := s.tiles.map (fun e => (e.1, e.2.map (fun t => { t with outs := t.outs.map sub })))
    tmvs := s.tmvs.map (fun e => (e.1, { e.2 with cur := e.2.cur.map (fun x => { x with slot := x.slot.map sub }) }))
    links := s.links.map (fun e => (e.1, { e.2 with open_ := e.2.open_.map (fun o => (o.1, o.2.map (fun x => { x with slot := sub x.slot, ring := if x.slot = a then b else x.ring }))) })) }

/-- Carries the tiles of a ring that have not been taken, and those being written, into a new ring in their order. -/
def State.carryTiles (s : State) (h g : SlotRef) : Nat → State
  | 0 => s
  | n + 1 =>
    let r := s.nextRd h
    let v := s.slot r
    if (v = 1 || v = 2) && s.slot (s.nextWr g) = 0 then
      let q := s.nextWr g
      let s := s.moveBytes (fnMaster (s.station (s.ring h).prod).owner) (s.slotAddr q) (s.slotAddr r) (s.ring h).size
      let s := ((s.setSlot q v).setTorn q (s.torn r)).stepWr g
      let s := (((s.setSlot r 0).setTorn r false).stepRd h).renameSlot r q
      s.carryTiles h g n
    else s

/-- The producers of a ring turn to another: the route map of a tile mover, a route word, or a unit without descriptor. -/
def State.turnProducers (s : State) (h g : SlotRef) : State :=
  let s := { s with rings := s.rings.map (fun e => (e.1, if e.2.target = some h then { e.2 with target := some g } else e.2)) }
  let x := s.ring g
  let p := s.station x.prod
  if hasDesc p.kind then
    (List.range 8).foldl
      (fun t i =>
        let w := t.descWord p.core p.d (48 + i)
        if w.testBit 31 && routeRing p.core w = h then t.setDescWord p.core p.d (48 + i) (routeWord w g x.len) else t) s
  else s.setStation x.prod { p with outs := p.outs.map (fun r => if r = h then g else r) }

/-- The consumer of a ring turns to another. -/
def State.turnConsumer (s : State) (h g : SlotRef) : State :=
  let x := s.ring g
  let c := s.station x.cons
  if hasDesc c.kind then
    (List.range 16).foldl
      (fun t i =>
        let w := t.descWord c.core c.d (32 + i)
        if w.testBit 31 && routeRing c.core w = h then t.setDescWord c.core c.d (32 + i) (routeWord w g x.len) else t) s
  else s.setStation x.cons { c with ins := c.ins.map (fun r => if r = h then g else r) }

/-! ### The boundary -/

/-- The valid route words of an image, as pairs of the old and the new ring, the new length and the slot base. -/
def routePairs (old new core ncore : Nat) (w v : Nat → Nat) (from_ n : Nat) (bases : List Nat) :
    List (SlotRef × SlotRef × Nat × Nat) :=
  ((List.range n).filter (fun i => (v (from_ + i)).testBit 31 && (w (from_ + i)).testBit 31)).zipIdx.map (fun p =>
    (routeRing core (w (from_ + p.1)), routeRing ncore (v (from_ + p.1)), bits (v (from_ + p.1)) 23 17,
      bases.getD (old + new + p.2) 0))

/-- An entry of the station registers of a cluster that no station has (R184). -/
def State.freeEntry (s : State) (c : Nat) : Option Nat :=
  (List.range 512).find? (fun e => !(s.stations.any (fun x => x.2.entry == some (c, e))))

/-- Binds an entry: its counters are cleared (R185). -/
def State.bindEntry (s : State) (c e : Nat) : State :=
  [Fld.KMC_STN_SATCNT_COUNT, .KMC_STN_POISCNT_COUNT, .KMC_STN_TORNCNT_COUNT, .KMC_STN_LATECNT_COUNT,
    .KMC_STN_UNMATCH_COUNT].foldl (fun t f => t.setF f (c * 512 + e) 0) s

/-- The move of a station to its new placement at a boundary (R181 steps 1 and 2). -/
def State.moveStation (s : State) (st epoch : Nat) (m : Migration) : State :=
  let y := s.station st
  let w := s.descWord y.core y.d
  let v (k : Nat) : Nat := (m.image.getD k 0).toNat
  let ins := routePairs 0 0 y.core m.core w v 32 16 m.bases
  let outs := routePairs ins.length 0 y.core m.core w v 48 8 m.bases
  let gen := (y.gen + 1) % 256
  let entry := if y.core / 8 = m.core / 8 then y.entry else (s.freeEntry (m.core / 8)).map (fun e => (m.core / 8, e))
  let s := if y.core / 8 = m.core / 8 then s
    else match entry with | some (c, e) => s.bindEntry c e | none => s
  let s := (s.setImage y.owner y.core y.d (fun _ => (m.core, m.d, genImage gen m.image))).writeDesc m.core m.d gen m.image
  let s := ins.foldl
    (fun t p =>
      if p.1 = p.2.1 then t
      else
        let t := if (t.ring p.2.1).len = 0 then t.ringLike p.2.1 (t.ring p.1) p.2.2.1 p.2.2.2 else t
        (t.carryTiles p.1 p.2.1 64).turnProducers p.1 p.2.1) s
  let s := outs.foldl
    (fun t p =>
      if p.1 ≠ p.2.1 && (t.ring p.2.1).len = 0 then t.ringLike p.2.1 (t.ring p.1) p.2.2.1 p.2.2.2 else t) s
  let busy := (s.coreTiles y.core).any (fun t => t.st == st)
  let s := if busy then
      s.setCoreTiles y.core ((s.coreTiles y.core).map (fun t => if t.st = st then { t with old := true, gone := t.ins } else t))
    else y.window.foldl State.emptySlot s
  let rings := ((ins ++ outs).map (fun p => (p.1, p.2.1))).filter (fun p => p.1 != p.2)
  let dr : Drain := { core := y.core, d := y.d, seq := (y.taken + 1) % 4294967296, epoch := epoch, rings := rings }
  s.setStation st { y with core := m.core, d := m.d, gen := gen, entry := entry, window := [], state := if y.state = 3 then 3 else 4, drain := some dr, onOld := false, mig := y.mig.filter (fun x => x != m) }

/-- A switch to a new weight copy at a boundary: at once, or once the tile in progress is written; the observers of the station's output
learn anew from the boundary on, old-copy tiles left out (R137). -/
def State.switchWeights (s : State) (st epoch : Nat) (m : Migration) : State :=
  let y := s.station st
  let dr : Drain := { core := y.core, d := y.d, seq := (y.taken + 1) % 4294967296, epoch := epoch, rings := [] }
  let s := s.setStation st { y with state := if y.state = 3 then 3 else 4, drain := some dr }
  let s := (s.owlsOf st).foldl State.owlRelearn s
  if s.inProgress st then
    s.setCoreTiles y.core ((s.coreTiles y.core).map (fun t => if t.st = st then { t with oldCopy := true } else t))
  else s.weightNow st m

/-- The placement change that a station takes at a boundary: a switch before a migration, at most one (R180). -/
def State.changePlacement (s : State) (st epoch : Nat) : State :=
  let y := s.station st
  if y.state = 0 || y.drain.isSome then s
  else
    match y.mig.find? (fun m => m.weight), y.mig with
    | some m, _ => s.switchWeights st epoch m
    | none, m :: _ => s.moveStation st epoch m
    | none, [] => s

/-- Whether a station's stream is of a context: the context of its last tile, or any of its owner's before the first. -/
def State.ofStream (s : State) (y : Station) (c : Nat) : Bool :=
  y.ctx == some c || (y.ctx.isNone && y.owner == (s.ctx c).owner)

/-- Whether a running swap is to stall a station (R264). -/
def State.stallDue (s : State) (st : Nat) : Bool :=
  s.beavers.any (fun e => match e.2 with
    | some b => b.job.kind == .swap && b.job.station == st && b.engines.isEmpty && b.check.isNone
    | none => false)

/-- The stations that change at a boundary of a context: those whose stream it is. A swap that stalls its station parks it
(R264). -/
def State.changeAll (s : State) (c epoch : Nat) : State :=
  let sts := (s.stations.filter (fun e => s.ofStream e.2 c)).map (·.1)
  let s := (sts.filter (fun st => !(s.station st).mig.isEmpty)).foldl
    (fun t st => if t.frozen (t.station st).core then { t with snapHeld := t.snapHeld ++ [(st, epoch)] } else t.changePlacement st epoch) s
  (sts.filter (fun st => s.stallDue st)).foldl (fun t st => t.park st .swap) s

/-- The placement changes of a core's stations that fell due during a snapshot take effect as tile starts resume (R205). -/
def State.changesHeld (s : State) (core : Nat) : State :=
  let mine (p : Nat × Nat) : Bool := (s.station p.1).core == core
  (s.snapHeld.filter mine).foldl (fun t p => t.changePlacement p.1 p.2)
    { s with snapHeld := s.snapHeld.filter (fun p => !(mine p)) }

/-! ### The drain window -/

/-- Tiles that the old placement has taken and not yet written. -/
def State.inflight (s : State) (st : Nat) : Nat :=
  (s.tiles.map (fun e => (e.2.filter (fun t => t.st == st && (t.old || t.oldCopy))).length)).sum

/-- Whether the drain window of a station is to close: nothing is in flight and the consumer has taken all that the old rings
hold, or DRAIN_LIMIT epochs have passed (R181 step 3). -/
def State.drainOver (s : State) (st : Nat) (dr : Drain) : Bool :=
  let y := s.station st
  let limit := (s.desc dr.core dr.d).drain
  let late := match y.ctx with
    | some c => limit ≤ ((s.ctx c).epoch + 4294967296 - dr.epoch) % 4294967296
    | none => true
  let outs := dr.rings.filter (fun p => (s.ring p.1).prod == st)
  let empty := outs.all (fun p => s.countSlots p.1 2 == 0 && s.countSlots p.1 1 == 0)
  late || (s.inflight st == 0 && empty)

/-- Queues the transfers of every Full slot of a staging ring, in ring order. -/
def State.queueAll (s : State) (h : SlotRef) : State :=
  let x := s.ring h
  (List.range x.len).foldl
    (fun t i =>
      let r := h.nth ((x.rd + i) % max x.len 1)
      if t.slot r = 2 then t.tmvQueue r else t) s

/-- The drain window closes (R181 step 4): consumers turn to the new rings, and what the old placement held is free. -/
def State.drainClose (s : State) (st : Nat) (dr : Drain) : State :=
  let y := s.station st
  let s := dr.rings.foldl
    (fun t p =>
      let x := t.ring p.1
      if x.prod = st then
        let t := match x.target with
          | some g =>
            (t.setRing p.2 { t.ring p.2 with target := some g }).queueAll p.2
          | none => t.turnConsumer p.1 p.2
        t.ringFree p.1
      else t.ringFree p.1) s
  let s := if (y.core = dr.core && y.d = dr.d) || (s.tileOf dr.core dr.d).isSome then s
    else s.store (descAddr dr.core dr.d) (leBytes 256 0)
  let z : Station := { s.station st with drain := none }
  s.setStation st (if z.state = 4 then { z with state := if s.atWork st then 2 else z.rest } else z)

/-! ### The commands -/

/-- TILE_START (R201): on unit u of a core, 0 to 15 an engine, 16 DPE, 17 VXE, 18 PRE, 19 TMV. The stepper
reads the whole descriptor; a descriptor byte that reads as poison is taken as it stands (log entry 91). -/
def execTileStart (now : Nat) (cl : Cluster) (co : Core) (u : Fin 20) (s : State) : Host.Outcome State Fault Refusal :=
  let s := s.advance now
  let core := coreIx cl co
  if !(s.coreOn core) || s.frozen core || s.getF .STP_STAT_STATE core = 3 then .next s
  else
    let s := (s.latchAll).changesHeld core
    let s := if u.val = 19 then s.alignMerges core else s
    match s.pick core u.val with
    | some d =>
      let s := s.readEcc (fnMaster (s.station (s.desc core d).station).owner) (descAddr core d) 256
      (match (s.desc core d).reason with
        | some r => .next (s.descExc core d r)
        | none => .next (if (s.desc core d).merge then s.startMerge core u.val d else s.startWindow core u.val d))
    | none => .next s

/-- MIGRATION_REQUEST (R180): refused while the station is Draining, for an image that is not the station's, and for a
descriptor in use. -/
def execMigrationRequest (now : Nat) (st : StationId) (cl : Cluster) (co : Core) (d : Fin 64) (image : List Word)
    (bases : List (BitVec 16)) (s : State) : Host.Outcome State Fault Refusal :=
    let s := s.advance now
    let y := s.station st.val
    let core := coreIx cl co
    let image := (List.range 64).map (fun k => image.getD k 0)
    let x := descOf (fun k => (image.getD k 0).toNat)
    if y.state = 0 || y.drain.isSome || y.swapping || !(hasDesc y.kind) || !(y.mig.filter (fun m => !m.weight)).isEmpty || !x.valid ||
        x.station != st.val || x.kind != y.kind || x.owner != y.owner || x.reason.isSome || (s.desc core d.val).valid then
      .next s
    else
      let m : Migration := { core := core, d := d.val, image := image, model := y.model, layer := y.layer, weight := false, bases := bases.map BitVec.toNat }
      .next (s.setStation st.val { y with mig := y.mig ++ [m] })

/-- DRAIN_WINDOW_CLOSE (R181). -/
def execDrainWindowClose (now : Nat) (st : StationId) (s : State) : Host.Outcome State Fault Refusal :=
  let s := s.advance now
  match (s.station st.val).drain with
  | some dr => if s.drainOver st.val dr then .next (s.drainClose st.val dr) else .next s
  | none => .next s

end Sys2Proof.Machine
end

