-- ==== Sys2Proof/Machine/Quota.lean ====
section
/-!
DEFINITION. The tenants' quotas, what they use of them, and the reclaim that a cut starts (R312 to R317).
-/

namespace Sys2Proof.Machine
open Sys2Proof

/-! ### Quotas and usage (R312, R313) -/

/-- The quota in force of tenant t, 1 to 128. -/
def State.quota (s : State) (t : Nat) : Quota :=
  { cores := s.getF .TEN_QUOTA0_CORES (t - 1), contexts := s.getF .TEN_QUOTA0_CONTEXTS (t - 1), link := s.getF .TEN_QUOTA0_LINKSHARE (t - 1), cm := s.getF .TEN_CMKIB_VALUE (t - 1), km := s.getF .TEN_KMKIB_VALUE (t - 1), loader := s.getF .TEN_LDRMS_VALUE (t - 1), wout := s.getF .TEN_QUOTA0_WOUTMAP (t - 1), grace := s.getF .TEN_QUOTA1_GRACE (t - 1) }

/-- The loader-time bucket of an owner now, of which 3,600,000 make 1 ns; none where there is no limit (R314). -/
def State.loaderLevel (s : State) (owner : Nat) : Option Int :=
  let ms := (s.quota owner).loader
  if owner = 0 || ms = 0xFFFFFFFF then none
  else
    let level := smapGet 0 s.buckets owner + ((s.time - smapGet 0 s.bucketAt owner) * ms : Nat)
    some (min (ms * 1000000 * 3600000 : Nat) level)

/-- Brings an owner's bucket up to date and takes from it. -/
def State.loaderCharge (s : State) (owner ns : Nat) : State :=
  let level := match s.loaderLevel owner with
    | some v => v - (3600000 * ns : Nat)
    | none => smapGet 0 s.buckets owner
  { s with buckets := smapSet 0 s.buckets owner level, bucketAt := smapSet 0 s.bucketAt owner s.time }

/-- Sets a tenant's quota. -/
def State.setQuota (s : State) (t : Nat) (q : Quota) : State :=
  let i := t - 1
  let s := ((s.setF .TEN_QUOTA0_CORES i q.cores).setF .TEN_QUOTA0_CONTEXTS i q.contexts).setF .TEN_QUOTA0_LINKSHARE i q.link
  let s := ((s.setF .TEN_CMKIB_VALUE i q.cm).setF .TEN_KMKIB_VALUE i q.km).setF .TEN_LDRMS_VALUE i q.loader
  (s.setF .TEN_QUOTA0_WOUTMAP i q.wout).setF .TEN_QUOTA1_GRACE i q.grace

/-- The 32 bytes of a QUOTAS record (R231). -/
def Quota.record (q : Quota) (t : Nat) : List Byte :=
  leBytes 1 t ++ leBytes 1 q.cores ++ leBytes 1 q.contexts ++ leBytes 1 q.link ++ leBytes 4 q.cm ++ leBytes 4 q.km ++
  leBytes 4 q.loader ++ leBytes 1 q.wout ++ leBytes 1 q.grace ++ leBytes 14 0

/-- A quota from the bytes of a record. -/
def quotaOf (b : Nat → Nat → Nat) : Quota :=
  { cores := b 1 1, contexts := b 2 1, link := b 3 1, cm := b 4 4, km := b 8 4, loader := b 12 4, wout := b 16 1, grace := b 17 1 }

/-- The partition of an owner, empty when none is loaded. -/
def State.partOf (s : State) (owner : Nat) : Partition := (s.part owner).getD Partition.empty

/-- KiB of extents. -/
def kib (xs : List (Nat × Nat × Nat)) : Nat := (xs.map (fun x => x.2.2)).sum / 1024

/-- Contexts of an owner that are Open or Closing. -/
def State.ctxUse (s : State) (owner : Nat) : Nat := (s.ctxs.filter (fun e => e.2.state != 0 && e.2.owner == owner)).length

/-- Bytes of the shadow copies of an owner's stations, which count as cluster memory (R126). -/
def State.shadowUse (s : State) (owner : Nat) : Nat :=
  ((s.stations.filter (fun e => e.2.state != 0 && e.2.owner == owner)).map (fun e => 256 * e.2.shadow.length)).sum

/-- KiB of cluster memory that an owner uses, rounded up. -/
def State.kmUse (s : State) (owner : Nat) : Nat := kib (s.partOf owner).km + (s.shadowUse owner + 1023) / 1024

/-- Whether a tenant's usage fits its quota. -/
def State.fits (s : State) (t : Nat) : Bool :=
  let p := s.partOf t
  let q := s.quota t
  p.cores.length ≤ q.cores && kib p.cm ≤ q.cm && s.kmUse t ≤ q.km && s.ctxUse t ≤ q.contexts

/-! ### The choice of claims (R316 step 3) -/

/-- The bytes of a ring in its memory. -/
def State.ringSpan (s : State) (h : SlotRef) : Nat × Nat :=
  (s.slotAddr h - h.base, (s.ring h).len * (s.ring h).size)

/-- Two byte ranges, each a start and a length, share a byte. -/
def overlap (a n b m : Nat) : Bool := a < b + m && b < a + n

/-- The rings of a station: inputs, partial sums and outputs. -/
def State.allRings (s : State) (st : Nat) : List SlotRef :=
  let x := s.station st
  s.inRings st ++ (if hasDesc x.kind then (s.desc x.core x.d).partRings x.core else []) ++ s.outRings st

/-- Whether a station's unit, descriptor or a ring of it lies in a core. -/
def State.inCore (s : State) (st core : Nat) : Bool :=
  let x := s.station st
  (hasDesc x.kind && x.core == core) || (s.allRings st).any (fun h => !h.km && h.unit == core)

/-- Whether a ring or the table of a station lies in an extent. -/
def State.inExtent (s : State) (st : Nat) (km : Bool) (unit off len : Nat) : Bool :=
  let x := s.station st
  (s.allRings st).any (fun h => h.km == km && h.unit == unit && (let p := s.ringSpan h; overlap p.1 p.2 off len)) ||
  (!km && hasDesc x.kind && x.core == unit && overlap (s.desc x.core x.d).rsbase (8 * x.ncol) off len)

/-- The stations of an owner. -/
def State.stationsOf (s : State) (owner : Nat) : List Nat :=
  (s.stations.filter (fun e => e.2.state != 0 && e.2.owner == owner)).map (·.1)

/-- The rank of the most recently placed of some stations. -/
def State.latest (s : State) (sts : List Nat) : Nat := sts.foldl (fun m st => max m (s.station st).order) 0

/-- Of claims with their rank and place, the one that is chosen next: latest first, then the higher place. -/
def chooseClaim (xs : List (Nat × Nat × Nat × Nat × Nat)) : Option (Nat × Nat × Nat × Nat × Nat) :=
  xs.foldl
    (fun m x => match m with
      | none => some x
      | some y => if y.1 < x.1 || (y.1 == x.1 && y.2.1 < x.2.1) then some x else some y) none

/-- Chooses claims until the amount to free is reached; the amount of each comes last. -/
def chooseClaims (xs : List (Nat × Nat × Nat × Nat × Nat)) (need : Nat) : Nat → List (Nat × Nat × Nat × Nat × Nat)
  | 0 => []
  | n + 1 =>
    if need = 0 then []
    else
      match chooseClaim xs with
      | none => []
      | some x => x :: chooseClaims (xs.erase x) (need - x.2.2.2.2) n

/-- The cores that a cut reclaims. -/
def State.cutCores (s : State) (t : Nat) : List Nat :=
  let p := s.partOf t
  let sts := s.stationsOf t
  let xs := p.cores.map (fun c => (s.latest (sts.filter (fun st => s.inCore st c)), c, c, 0, 1))
  (chooseClaims xs (p.cores.length - (s.quota t).cores) 128).map (fun x => x.2.2.1)

/-- The extents that a cut reclaims, to free an excess in KiB, beside what goes with the cores: unit, offset and length. -/
def State.cutExtents (s : State) (t : Nat) (km : Bool) (exts : List (Nat × Nat × Nat)) (excess : Nat) : List (Nat × Nat × Nat) :=
  let sts := s.stationsOf t
  let xs := exts.map (fun e => (s.latest (sts.filter (fun st => s.inExtent st km e.1 e.2.1 e.2.2)), e.2.1, e.1, e.2.1, e.2.2))
  (chooseClaims xs (1024 * excess) 4096).map (fun x => (x.2.2.1, x.2.2.2.1, x.2.2.2.2))

/-- The contexts that a cut closes, the most recently opened first. -/
def State.cutCtxs (s : State) (t : Nat) : List Nat :=
  let cs := s.ctxs.filter (fun e => e.2.state != 0 && e.2.owner == t)
  let xs := (cs.filter (fun e => e.2.state == 1)).map (fun e => (e.2.order, e.1, e.1, 0, 1))
  (chooseClaims xs (cs.length - (s.quota t).contexts) 128).map (fun x => x.2.2.1)

/-- Whether a station lies in a chosen claim. -/
def State.inCut (s : State) (st : Nat) (cut : List Nat × List (Nat × Nat × Nat) × List (Nat × Nat × Nat)) : Bool :=
  cut.1.any (fun c => s.inCore st c) || cut.2.1.any (fun e => s.inExtent st false e.1 e.2.1 e.2.2) ||
  cut.2.2.any (fun e => s.inExtent st true e.1 e.2.1 e.2.2)

/-! ### A reclaim ends (R316 step 6, R317) -/

/-- A reclaim ends without further effect: no claim stays chosen and no deadline stands. Stations already parked stay so. -/
def State.reclaimEnd (s : State) (t : Nat) : State :=
  let x := s.fnst t
  if x.cut.isNone then s
  else
    let sts : SMap Station := s.stations.map (fun e => (e.1, if e.2.owner = t then { e.2 with deadline := none } else e.2))
    let cs : SMap Context := s.ctxs.map (fun e => (e.1, if e.2.owner = t then { e.2 with deadline := none } else e.2))
    { s with stations := sts, ctxs := cs }.setFn t { x with cut := none, released := 0, parked := 0, closed := 0 }

/-- Whether a reclaim is pending and the deadlines of its stations and contexts have all passed. -/
def State.reclaimLate (s : State) (t : Nat) : Bool :=
  (s.fnst t).cut.isSome &&
  s.stations.all (fun e => e.2.owner != t || e.2.state == 0 || (match e.2.deadline with | some d => d.2 == 0 | none => true)) &&
  s.ctxs.all (fun e => e.2.owner != t || e.2.state == 0 || (match e.2.deadline with | some n => n == 0 | none => true))

/-- A reclaim whose chosen claims are all released, and whose contexts are closed, is reported and over. -/
def State.reclaimDone (s : State) (t : Nat) : State :=
  let x := s.fnst t
  if x.cut = some ([], [], []) && !(s.ctxs.any (fun e => e.2.owner == t && e.2.deadline.isSome)) then
    (s.service t 0x02 [BitVec.ofNat 32 x.released, BitVec.ofNat 32 x.parked, BitVec.ofNat 32 x.closed]).reclaimEnd t
  else s

/-- The claims of a reclaim that the tenant holds no more count as released. -/
def State.reclaimGone (s : State) (t : Nat) : State :=
  let x := s.fnst t
  let p := s.partOf t
  match x.cut with
  | none => s
  | some c =>
    let left := (c.1.filter p.cores.contains, c.2.1.filter p.cm.contains, c.2.2.filter p.km.contains)
    let n := c.1.length + c.2.1.length + c.2.2.length - (left.1.length + left.2.1.length + left.2.2.length)
    (s.setFn t { x with cut := some left, released := x.released + n }).reclaimDone t

/-- The tenant's own doing has changed its usage (R317): where it has come within the quota before the deadlines have passed the
reclaim ends without further effect; after them the claims it gave up are released, and the last one ends the reclaim with its
message. -/
def State.reclaimFit (s : State) (t : Nat) (late : Bool) : State :=
  if late then s.reclaimGone t else if s.fits t then s.reclaimEnd t else s

end Sys2Proof.Machine
end

