-- ==== Sys2Proof/Machine/Position.lean ====
section
/-!
DEFINITION. The position time-base unit: port counters, epochs and their boundaries, sync inputs and position triggers (R275
to R292). Values of a port source are held modulo 2^48.
-/

namespace Sys2Proof.Machine
open Sys2Proof

/-! ### Sources (R279, R281, R282) -/

/-- The port of a source of Table 10.2. -/
def srcPort (src : Nat) : Nat := (src - 1) % 4

/-- The value of a source: device time, or a position or travel counter modulo 2^48. -/
def State.source (s : State) (src : Nat) : Nat :=
  if src = 0 then s.clock
  else if src ≤ 4 then (s.port (srcPort src)).pos.toNat
  else (s.port (srcPort src)).trv.toNat

/-- (a - b) modulo 2^48. -/
def diff48 (a b : Nat) : Nat := (a % 281474976710656 + 281474976710656 - b % 281474976710656) % 281474976710656

/-- Whether a value of a port reaches another (R279). -/
def reach48 (a b : Nat) : Bool := diff48 a b < 140737488355328

/-- Whether a value of a source reaches another. -/
def reachSrc (src a b : Nat) : Bool := if src = 0 then b ≤ a else reach48 a b

/-- A sum in the units of a source. -/
def addSrc (src : Nat) (a : Nat) (d : Int) : Nat :=
  if src = 0 then (((a : Int) + d) % 18446744073709551616).toNat else (((a : Int) + d) % 281474976710656).toNat

/-- The signed difference of two values of a source: 64 bits for device time, 48 bits for a port (R283). -/
def diffSrc (src a b : Nat) : Int :=
  if src = 0 then (BitVec.ofInt 64 ((a : Int) - b)).toInt else (BitVec.ofInt 48 ((a : Int) - b)).toInt

/-- A 48-bit value that stands for device time, extended to the nearest time, the earlier one of two (R282). -/
def extend48 (now v : Nat) : Nat :=
  let d := (BitVec.ofInt 48 ((v : Int) - now)).toInt
  (((now : Int) + d) % 18446744073709551616).toNat

/-! ### Counting (R277, R278) -/

/-- A count of a port: the position counter by ±1, the travel counter by 1. -/
def Port.count (x : Port) (up : Bool) : Port := { x with pos := if up then x.pos + 1 else x.pos - 1, trv := x.trv + 1 }

/-- Whether a glitch filter accepts a transition now: the level before it has stood for FILT × 10 ns since the last one (R276). -/
def filterOpen (filt now : Nat) (last : Option Nat) : Bool := match last with | some t => t + 10 * filt ≤ now | none => true

/-- Whether a port counts in a mode. -/
def State.portRuns (s : State) (p mode : Nat) : Bool :=
  s.bit .POS_CFG_EN p && s.getF .POS_CFG_MODE p == mode && !s.wioDown

/-- W of R285. -/
def Context.halfWindow (x : Context) : Nat := if x.sync = 0 then 0 else x.len / 8

/-- What a count brings a context of its source: the source has reached B, or B + W (R284, R285). -/
def Context.noted (x : Context) (now v : Nat) : Context :=
  { x with
    held := x.held || reachSrc x.src v x.bound
    ended := if x.ended.isSome || x.sync = 0 || !(reachSrc x.src v (addSrc x.src x.bound x.halfWindow)) then x.ended else some now }

/-- A port has counted: a Z edge of the same sample latches the counter after the count (R277), and the contexts bound to the port
note what their source has reached. -/
def State.counted (s : State) (p : Nat) (x : Port) : State :=
  let s := s.setPort p (if x.zAt = some s.time then { x with zlat := x.pos } else x)
  { s with ctxs := s.ctxs.map (fun e => (e.1, if e.2.state == 1 && e.2.src != 0 && srcPort e.2.src == p then e.2.noted s.time (s.source e.2.src) else e.2)) }

/-- Whether the filter of a port accepts a transition of an input whose last one is given. -/
def State.portFilter (s : State) (p : Nat) (last : Option Nat) : Bool := filterOpen (s.getF .POS_CFG_FILT p) s.time last

/-- QUAD_TRANSITION (R276, R277): the levels of A and B in a sample. A level that its filter does not accept stays as it was. -/
def execQuadTransition (now : Nat) (p : Fin 4) (a b : Bool) (s : State) : Host.Outcome State Fault Refusal :=
  let s := s.advance now
  let x := s.port p.val
  if !(s.portRuns p.val 0) then .next (s.setPort p.val { x with a := a, b := b })
  else
    let da := x.a != a && s.portFilter p.val x.aAt
    let db := x.b != b && s.portFilter p.val x.bAt
    let y := { x with a := x.a != da, b := x.b != db, aAt := if da then some s.time else x.aAt, bAt := if db then some s.time else x.bAt }
    if da && db then .next ((s.setPort p.val y).addHold .POS_ERRCNT_ILLEGAL p.val 1)
    else if !da && !db then .next s
    else
      let lead := if da then y.a != y.b else y.a == y.b
      .next (s.counted p.val (y.count (lead != s.bit .POS_CFG_INV p.val)))

/-- Z_EDGE (R276, R277): between two rising edges of Z its filter has accepted a falling one. -/
def execZEdge (now : Nat) (p : Fin 4) (s : State) : Host.Outcome State Fault Refusal :=
  let s := s.advance now
  let x := s.port p.val
  if s.portRuns p.val 0 && s.bit .POS_CFG_ZEN p.val && filterOpen (2 * s.getF .POS_CFG_FILT p.val) s.time x.zAt then
    .next (s.setPort p.val { x with zlat := x.pos, zAt := some s.time })
  else .next s

/-- A transition of A in line or cycle mode that the filter accepts, and whether it is the active edge: the rising one, or the
falling one when INV is 1 (R278). -/
def State.edgeOf (s : State) (p mode : Nat) (rise : Bool) : Option (Port × Bool) :=
  let x := s.port p
  if s.portRuns p mode && s.portFilter p x.aAt then some ({ x with a := rise, aAt := some s.time }, rise != s.bit .POS_CFG_INV p)
  else none

/-- LINE_EDGE (R278). -/
def execLineEdge (now : Nat) (e : PortEdge) (s : State) : Host.Outcome State Fault Refusal :=
  let s := s.advance now
  match s.edgeOf e.port.val 1 e.rise with
  | some (y, active) => .next (if active then s.counted e.port.val (y.count true) else s.setPort e.port.val y)
  | none => .next s

/-- The interval in microseconds as PERIOD holds it; above its 16 bits a free value. -/
def State.period (s : State) (ns : Nat) : Nat :=
  if ns / 1000 < 65536 then ns / 1000 else Config.freeNat s.fresh % 65536

/-- An active edge in cycle mode: one less than 13.0 ms after the last accepted one is rejected (R278). -/
def State.cycle (s : State) (p : Nat) (y : Port) : State :=
  let z := { y.count true with edge := some s.time }
  match y.edge with
  | some t =>
    if s.time - t < 13000000 then (s.setPort p y).addHold .POS_ERRCNT_REJECT p 1
    else (((s.setF .POS_STAT_PERIOD p (s.period (s.time - t))).setF .POS_STAT_LOSS p 0).burn).counted p z
  | none => (s.setF .POS_STAT_LOSS p 0).counted p z

/-- CYCLE_EDGE (R278). -/
def execCycleEdge (now : Nat) (e : PortEdge) (s : State) : Host.Outcome State Fault Refusal :=
  let s := s.advance now
  match s.edgeOf e.port.val 2 e.rise with
  | some (y, active) => .next (if active then s.cycle e.port.val y else s.setPort e.port.val y)
  | none => .next s

/-- CYCLE_LOSS (R278): 26.0 ms without an accepted edge. -/
def execCycleLoss (now : Nat) (p : Fin 4) (s : State) : Host.Outcome State Fault Refusal :=
  let s := s.advance now
  let x := s.port p.val
  if s.portRuns p.val 2 && x.edge.getD x.since + 26000000 ≤ s.time then .next (s.setF .POS_STAT_LOSS p.val 1)
  else .next s

/-! ### Epoch boundaries (R283 to R287) -/

/-- The EPOCH of a position (R286). -/
def Context.epochOf (x : Context) (p : Nat) : Nat :=
  let b' := addSrc x.src x.bound x.halfWindow
  if reachSrc x.src p b' then
    ((x.epoch + 1 + diffSrc x.src p x.bound / x.len) % 4294967296).toNat
  else
    match x.hist.find? (fun h => reachSrc x.src p h.2) with
    | some h => h.1
    | none =>
      match x.hist.getLast? with
      | some h => (((h.1 : Int) + (diffSrc x.src p h.2) / x.len) % 4294967296).toNat
      | none => x.epoch

/-- A context's boundary fires with value v: the new epoch and its record (R284, R287 step 1). -/
def Context.boundary (x : Context) (v : Nat) : Context :=
  let e := (x.epoch + 1) % 4294967296
  { x with epoch := e, bound := addSrc x.src v x.len, held := false, ended := none, slip := none, hist := (e, v) :: x.hist.take 15 }

/-- The waits of EPW on a context end for the threads whose epoch has come (R208, R287 step 2). -/
def State.releaseEpw (s : State) (c : Nat) : State :=
  let e := (s.ctx c).epoch
  (List.range 128).foldl
    (fun t i => match (t.thread i).wait with
      | .epoch k w => if k = c && t.thState i = 3 && (w == e || precedes w e) then t.resume i true else t
      | _ => t) s

/-- The armed actions of a context that fall due, in ascending order of threads and in the order of arming (R209, R287 step 3). -/
def State.applyArmed (s : State) (c : Nat) : State :=
  let e := (s.ctx c).epoch
  (List.range 128).foldl
    (fun t i =>
      let x := t.thread i
      let due (a : Armed) : Bool := a.ctx == c && (a.epoch == e || precedes a.epoch e)
      let hit := x.armed.filter due
      if hit.isEmpty then t
      else hit.foldl (fun u a => u.grant a.station a.grants) (t.setThread i { x with armed := x.armed.filter (fun a => !(due a)) })) s

/-! ### Triggers (R288, R289) -/

/-- P of a trigger. -/
def State.trgVal (s : State) (m : Nat) : Nat := s.getF .POS_TRG_VALL_VALUE m + 4294967296 * s.getF .POS_TRG_VALH_VALUE m

/-- Whether an armed trigger's condition is met, and it has not fired in this cycle. -/
def State.trgDue (s : State) (m : Nat) : Bool :=
  let v := s.source (s.getF .POS_TRG_CFG_SRC m)
  s.bit .POS_TRG_CFG_EN m && smapGet 0 s.trgAt m != s.time + 1 && (if s.bit .POS_TRG_CFG_DIR m then reach48 (s.trgVal m) v else reach48 v (s.trgVal m))

/-- A trigger fires. -/
def State.trgFire (s : State) (m : Nat) : State :=
  let target := s.getF .POS_TRG_CFG_TARGET m
  let period := s.getF .POS_TRG_PERIOD_PERIOD m
  let s := { s with trgAt := smapSet 0 s.trgAt m (s.time + 1) }.addHold .POS_TRG_STAT_FIRES m 1
  let s := if period = 0 then s.setF .POS_TRG_CFG_EN m 0
    else
      let p := addSrc 1 (s.trgVal m) (if s.bit .POS_TRG_CFG_DIR m then -(period : Int) else period)
      (s.setF .POS_TRG_VALL_VALUE m (p % 4294967296)).setF .POS_TRG_VALH_VALUE m (p / 4294967296)
  if s.bit .POS_TRG_CFG_ACTION m then
    let c := target % 128
    s.setCtx c { s.ctx c with hold := false }
  else if (s.station target).state = 0 then s.setF .POS_TRG_CFG_EN m 0
  else s.grant target (s.getF .POS_TRG_CFG_GRANTS m)

/-- The triggers of a source that are due fire (R287 step 5). -/
def State.fireTriggers (s : State) (src : Nat) : State :=
  (List.range 64).foldl
    (fun t m => if t.getF .POS_TRG_CFG_SRC m = src && t.trgDue m then t.trgFire m else t) s

/-! ### Closing a context (R167, R208, R209, R287, R289) -/

/-- Disarms the armed triggers that target a station, or a context (R289, R290). -/
def State.disarmTarget (s : State) (ctx : Bool) (t : Nat) : State :=
  (List.range 64).foldl
    (fun u m =>
      let g := u.getF .POS_TRG_CFG_TARGET m
      if u.bit .POS_TRG_CFG_ACTION m == ctx && (if ctx then g % 128 == t else g == t) then u.setF .POS_TRG_CFG_EN m 0 else u) s

/-- The armed actions on a context are discarded (R209). -/
def State.dropArmed (s : State) (c : Nat) : State :=
  (List.range 128).foldl
    (fun t i =>
      let x := t.thread i
      if x.armed.any (fun a => a.ctx == c) then t.setThread i { x with armed := x.armed.filter (fun a => a.ctx != c) } else t) s

/-- The threads that wait for an epoch of a context go on with p7 = 0 (R208). -/
def State.failEpw (s : State) (c : Nat) : State :=
  (List.range 128).foldl
    (fun t i => match (t.thread i).wait with
      | .epoch k _ => if k = c && t.thState i = 3 then t.resume i false else t
      | _ => t) s

/-- The deadlines of the stations that count a context's boundaries, and of the context itself, change by f (R316). -/
def State.countdown (s : State) (c : Nat) (f : Nat → Nat) : State :=
  let sts : SMap Station := s.stations.map (fun e => (e.1, { e.2 with deadline := e.2.deadline.map (fun d => if d.1 = c then (c, f d.2) else d) }))
  { s with stations := sts }.setCtx c { s.ctx c with deadline := (s.ctx c).deadline.map f }

/-- Closes an Open context (R167): its queue is dropped, its pending boundary is discarded (R287), its waits and armed actions end,
and the triggers that target it are disarmed. It is Closed at once, or Closing while its job runs. A deadline that counts its
boundaries is there (log entry 95). -/
def State.closeCtx (s : State) (c : Nat) : State :=
  let s := s.countdown c (fun _ => 0)
  let x := s.ctx c
  if x.state = 1 then
    let y := if x.running then { x with state := 2, queue := [], held := false, ended := none, slip := none } else Context.closed
    (((s.setCtx c y).failEpw c).dropArmed c).disarmTarget true c
  else s

/-- A context chosen by a cut closes at its deadline (R316 step 3). -/
def State.cutBoundary (s : State) (c : Nat) : State :=
  let x := s.ctx c
  if x.state = 1 && x.deadline == some 0 then
    let f := s.fnst x.owner
    ((s.setFn x.owner { f with closed := f.closed + 1 }).closeCtx c).reclaimDone x.owner
  else s

/-- A boundary of a context fires, in the order of R287; a context that a cut closes at it is closed after that. -/
def State.fireBoundary (s : State) (c v : Nat) : State :=
  let x := (s.ctx c).boundary v
  let s := s.setCtx c x
  (((((s.releaseEpw c).applyArmed c).changeAll c x.epoch).fireTriggers x.src).countdown c (fun n => n - 1)).cutBoundary c

/-- Whether the source of a context has reached B. -/
def State.atBound (s : State) (c : Nat) : Bool :=
  let x := s.ctx c
  x.state == 1 && (x.held || reachSrc x.src (s.source x.src) x.bound)

/-- Whether the source of a context has reached B + W with no edge: none, or whether it did so in an earlier sample. -/
def State.windowEnd (s : State) (c : Nat) : Option Bool :=
  let x := s.ctx c
  let b := addSrc x.src x.bound x.halfWindow
  if x.state != 1 || x.sync = 0 then none
  else
    match x.ended with
    | some t => some (t < s.time)
    | none => if reachSrc x.src (s.source x.src) b then some (x.src == 0 && s.source 0 != b) else none

/-- The boundary at the end of a sync window fires with V = B, and counts MISSED (R285). -/
def State.fireMissed (s : State) (c : Nat) (early : Bool) : State :=
  let x := s.ctx c
  let m := s.getF .POS_CTX_STAT_MISSED c
  let t := (s.addHold .POS_CTX_STAT_MISSED c 1).fireBoundary c x.bound
  if early || (t.ctx c).state ≠ 1 then t else t.setCtx c { t.ctx c with slip := some (s.time, x.bound, m) }

/-- The boundary of a context fires if it is due (R284, R285). -/
def State.fireDue (s : State) (c : Nat) : State :=
  if (s.ctx c).sync = 0 then if s.atBound c then s.fireBoundary c (s.ctx c).bound else s
  else match s.windowEnd c with
    | some early => s.fireMissed c early
    | none => s

/-- The boundaries that are due fire up to a context, in ascending order (R287). -/
def State.fireUpTo (s : State) (c : Nat) : State := (List.range (c + 1)).foldl State.fireDue s

/-- EPOCH_BOUNDARY (R284, R285): the source has reached B. Without SYNC the boundary fires; with it the boundary is held
pending. -/
def execEpochBoundary (now : Nat) (ctx : Ctx) (s : State) : Host.Outcome State Fault Refusal :=
  let s := s.advance now
  let x := s.ctx ctx.val
  if s.atBound ctx.val then
    if x.sync = 0 then .next (s.fireUpTo ctx.val) else .next (s.setCtx ctx.val { x with held := true })
  else .next s

/-- SYNC_WINDOW_END (R285): the source has reached B + W with no edge. -/
def execSyncWindowEnd (now : Nat) (ctx : Ctx) (s : State) : Host.Outcome State Fault Refusal :=
  let s := s.advance now
  if (s.windowEnd ctx.val).isSome then .next (s.fireUpTo ctx.val) else .next s

/-- Whether a source value lies in the sync window of the pending boundary. -/
def Context.inWindow (x : Context) (e : Nat) : Bool :=
  let d := diffSrc x.src e x.bound
  decide (-(x.halfWindow : Int) ≤ d) && decide (d ≤ x.halfWindow)

/-- A context judges an accepted sync edge in sample order (R285): where the boundary fired at B + W in this very sample the edge
takes its place, and where B + W was reached in an earlier sample that boundary comes first. -/
def State.syncJudge (s : State) (c : Nat) : State :=
  let x := s.ctx c
  let e := s.source x.src
  let late := match x.slip with
    | some y => y.1 == s.time && { x with bound := y.2.1 }.inWindow e
    | none => false
  if late then
    (s.setF .POS_CTX_STAT_MISSED c (match x.slip with | some y => y.2.2 | none => 0)).setCtx c
      { x with bound := addSrc x.src e x.len, hist := (x.epoch, e) :: x.hist.drop 1, slip := none }
  else
    let s := if s.windowEnd c = some true then s.fireDue c else s
    if (s.ctx c).state = 1 && (s.ctx c).inWindow e then s.fireBoundary c e else s.addHold .POS_CTX_STAT_OUTWIN c 1

/-- SYNC_EDGE (R276, R285): a transition of a sync input. Where it is the active edge the Open contexts of the input judge it, in
ascending order. -/
def execSyncEdge (now : Nat) (e : SyncInEdge) (s : State) : Host.Outcome State Fault Refusal :=
  let s := s.advance now
  let n := e.input
  let f (a b : Fld) : Fld := if n.val = 0 then a else b
  let last := smapGet 0 s.syncAt n.val
  let open_ := filterOpen (s.getF (f .POS_SYNCCFG_FILT0 .POS_SYNCCFG_FILT1) 0) s.time (if last = 0 then none else some (last - 1))
  if s.bit (f .POS_SYNCCFG_EN0 .POS_SYNCCFG_EN1) 0 && !s.wioDown && open_ then
    let t := { s with syncAt := smapSet 0 s.syncAt n.val (s.time + 1) }
    if e.rise != s.bit (f .POS_SYNCCFG_FALL0 .POS_SYNCCFG_FALL1) 0 then
      .next ((List.range 128).foldl
        (fun t c => if (t.ctx c).state = 1 && (t.ctx c).sync = n.val + 1 then t.syncJudge c else t)
        (t.addWrap .POS_SYNC_CNT_COUNT n.val 1))
    else .next t
  else .next s

/-! ### Configuration (R280) -/

/-- Whether an Open context or an armed trigger uses a port. -/
def State.portUsed (s : State) (p : Nat) : Bool :=
  s.ctxs.any (fun e => e.2.state == 1 && e.2.src != 0 && srcPort e.2.src == p) ||
  (List.range 64).any (fun m => s.bit .POS_TRG_CFG_EN m && s.getF .POS_TRG_CFG_SRC m != 0 &&
    srcPort (s.getF .POS_TRG_CFG_SRC m) == p)

/-- POS_PORT_CONFIG (R275, R279, R280). -/
def execPosPortConfig (now : Nat) (p : Fin 4) (v : Word) (s : State) : Host.Outcome State Fault Refusal :=
  let s := s.advance now
  let w := v.toNat
  if s.portUsed p.val || bits w 30 29 = 3 then .next s
  else
    let rising := w.testBit 31 && !(s.bit .POS_CFG_EN p.val)
    let s := ((s.setB .POS_CFG_EN p.val (w.testBit 31)).setF .POS_CFG_MODE p.val (bits w 30 29)).setB .POS_CFG_INV p.val
      (w.testBit 28)
    let s := (s.setB .POS_CFG_ZEN p.val (w.testBit 27)).setF .POS_CFG_FILT p.val (min (w % 256) 160)
    if rising then
      let s := (s.setF .POS_ERRCNT_ILLEGAL p.val 0).setF .POS_ERRCNT_REJECT p.val 0
      .next (s.setPort p.val { s.port p.val with pos := 0, trv := 0, edge := none, since := s.time })
    else .next s

/-- POS_SYNC_CONFIG (R280): the fields of a sync input that an Open context uses stay. -/
def execPosSyncConfig (now : Nat) (v : Word) (s : State) : Host.Outcome State Fault Refusal :=
  let s := s.advance now
  let w := v.toNat
  let used (n : Nat) : Bool := s.ctxs.any (fun e => e.2.state == 1 && e.2.sync == n + 1)
  let t := if used 0 then s
    else ((s.setB .POS_SYNCCFG_EN0 0 (w.testBit 15)).setB .POS_SYNCCFG_FALL0 0 (w.testBit 14)).setF .POS_SYNCCFG_FILT0 0
      (min (w % 256) 160)
  let t := if used 1 then t
    else ((t.setB .POS_SYNCCFG_EN1 0 (w.testBit 31)).setB .POS_SYNCCFG_FALL1 0 (w.testBit 30)).setF .POS_SYNCCFG_FILT1 0
      (min (bits w 23 16) 160)
  .next t

/-! ### Trigger registers (R288, R290) -/

/-- A write by a function to a trigger: one to a free trigger claims it; another function's is discarded and, for a tenant,
counted. -/
def State.trgClaim (s : State) (fn m : Nat) : Option State :=
  let o := s.getF .POS_TRG_STAT_OWNER m
  if o = 0xFF then some (s.setF .POS_TRG_STAT_OWNER m fn) else if o = fn then some s else none

/-- The fields of POS_TRGm_CFG but EN. -/
def State.trgFields (s : State) (m w : Nat) : State :=
  let s := (s.setB .POS_TRG_CFG_DIR m (w.testBit 29)).setB .POS_TRG_CFG_ACTION m (w.testBit 28)
  ((s.setF .POS_TRG_CFG_SRC m (bits w 27 24)).setF .POS_TRG_CFG_TARGET m (bits w 23 12)).setF .POS_TRG_CFG_GRANTS m (w % 256)

/-- Whether a function may target what an arming write names (R290). -/
def State.trgTarget (s : State) (fn w : Nat) : Bool :=
  let t := bits w 23 12
  fn == 0 || (if w.testBit 28 then (s.ctx (t % 128)).state == 1 && (s.ctx (t % 128)).owner == fn
    else (s.station t).state != 0 && (s.station t).owner == fn)

/-- An arming write of POS_TRGm_CFG (R288, R290). -/
def State.trgArm (s : State) (fn m w : Nat) : State :=
  match s.trgClaim fn m with
  | none => s.denied fn
  | some t =>
    if !(t.trgTarget fn w) then (t.setF .POS_TRG_CFG_EN m 0).denied fn
    else if 9 ≤ bits w 27 24 || w % 256 = 0 then t
    else ((t.trgFields m w).setF .POS_TRG_CFG_EN m 1).setF .POS_TRG_STAT_FIRES m 0

/-- TRIGGER_ARM (R288, R290). -/
def execTriggerArm (now : Nat) (fn : Func) (m : Fin 64) (v : Word) (s : State) : Host.Outcome State Fault Refusal :=
  .next ((s.advance now).hosted fn.val (fun t => t.trgArm fn.val m.val v.toNat))

/-- A write of POS_TRGm_CFG with EN = 0 (R288, R290). -/
def State.trgDisarm (s : State) (fn m w : Nat) : State :=
  match s.trgClaim fn m with
  | none => s.denied fn
  | some t => (t.trgFields m w).setF .POS_TRG_CFG_EN m 0

/-- TRIGGER_DISARM (R288, R290). -/
def execTriggerDisarm (now : Nat) (fn : Func) (m : Fin 64) (v : Word) (s : State) : Host.Outcome State Fault Refusal :=
  .next ((s.advance now).hosted fn.val (fun t => t.trgDisarm fn.val m.val v.toNat))

/-- A trigger is disarmed and free. -/
def State.trgFree (s : State) (m : Nat) : State := (s.setF .POS_TRG_CFG_EN m 0).setF .POS_TRG_STAT_OWNER m 0xFF

/-- A write of POS_TRGm_CFG with FREE = 1: the physical function frees any trigger, a tenant its own (R290). -/
def State.trgRelease (s : State) (fn m : Nat) : State :=
  let o := s.getF .POS_TRG_STAT_OWNER m
  if fn = 0 || o = fn || o = 0xFF then s.trgFree m else s.denied fn

/-- TRIGGER_FREE (R290). -/
def execTriggerFree (now : Nat) (fn : Func) (m : Fin 64) (s : State) : Host.Outcome State Fault Refusal :=
  .next ((s.advance now).hosted fn.val (fun t => t.trgRelease fn.val m.val))

/-- A write of VALL, VALH or PERIOD, discarded while EN is 1 (R288, R290). -/
def State.trgValue (s : State) (fn m : Nat) (which : TrgWord) (w : Nat) : State :=
  match s.trgClaim fn m with
  | none => s.denied fn
  | some t =>
    if t.bit .POS_TRG_CFG_EN m then t
    else
      match which with
      | .vall => t.setF .POS_TRG_VALL_VALUE m w
      | .valh => t.setF .POS_TRG_VALH_VALUE m w
      | .period => t.setF .POS_TRG_PERIOD_PERIOD m w

/-- TRIGGER_VALUE_WRITE (R288, R290). -/
def execTriggerValueWrite (now : Nat) (fn : Func) (m : Fin 64) (which : TrgWord) (v : Word) (s : State) :
    Host.Outcome State Fault Refusal :=
  .next ((s.advance now).hosted fn.val (fun t => t.trgValue fn.val m.val which v.toNat))

/-- TRIGGER_FIRE (R288, R289). -/
def execTriggerFire (now : Nat) (m : Fin 64) (s : State) : Host.Outcome State Fault Refusal :=
  let s := s.advance now
  if s.trgDue m.val then .next (s.trgFire m.val) else .next s

/-- A write of HOLD: discarded for a context that is not Open; a tenant writes that of its own contexts (R289, R291). -/
def State.holdWrite (s : State) (fn c : Nat) (hold : Bool) : State :=
  let x := s.ctx c
  if fn != 0 && !(x.state != 0 && x.owner == fn) then s.denied fn
  else if x.state = 1 then s.setCtx c { x with hold := hold }
  else s

/-- HOLD_WRITE (R289, R291). -/
def execHoldWrite (now : Nat) (fn : Func) (ctx : Ctx) (hold : Bool) (s : State) : Host.Outcome State Fault Refusal :=
  .next ((s.advance now).hosted fn.val (fun t => t.holdWrite fn.val ctx.val hold))

/-- Frees every trigger of an owner (R290). -/
def State.freeTriggers (s : State) (fn : Nat) : State :=
  (List.range 64).foldl (fun u m => if u.getF .POS_TRG_STAT_OWNER m = fn then u.trgFree m else u) s

end Sys2Proof.Machine
end

