-- ==== Sys2Proof/Machine/Gate.lean ====
section
/-!
DEFINITION. The stream gate: opening, closing and posting (R167, R168, R173, R283, R311), ingest jobs (R169 to R172), and
the rewriting and capture of error-corrected words (R175, R183).
-/

namespace Sys2Proof.Machine
open Sys2Proof

/-! ### Context commands -/

/-- Whether a command stands first among the accepted ones of its kind, so that it is the one to be carried out: load, unload and
quota commands across all functions (R238), context commands within the function, the others among equal opcodes (R306). -/
def State.nextUp (s : State) (fn op : Nat) (e : List Word) : Bool :=
  let kind (x : List Word) : Bool := if op = 4 || op = 5 then entryOp x == 4 || entryOp x == 5 else entryOp x == op
  entryOp e == op &&
  (if op ≤ 3 then s.accepted.head? == some (fn, e) else (s.fnst fn).accepted.find? kind == some e)

/-- A command that is carried out leaves the list of accepted ones. -/
def State.takeAccepted (s : State) (fn : Nat) (e : List Word) : State :=
  let x := s.fnst fn
  { s with accepted := s.accepted.erase (fn, e) }.setFn fn { x with accepted := x.accepted.erase e }

/-- Carries out an accepted command in its turn; a row that names an entry whose turn it is not does nothing (R305, R306). -/
def State.command (s : State) (fn op : Nat) (e : List Word) (f : State → State) : State :=
  if s.nextUp fn op e then f (s.takeAccepted fn e) else s

/-- Completes a command entry with a class 0 code (R309, R310). -/
def State.answer (s : State) (fn : Nat) (e : List Word) (code value : Nat) : State :=
  s.complete fn (result 0 (entryTag e) code value 0)

/-- The parameters of a gate-ingest station (R225). -/
structure IngestCfg where
  layout : Nat
  pixw : Nat
  kh : Nat
  kw : Nat
  sy : Nat
  sx : Nat
  nvec : Nat
  weight : Nat
  drop : Bool
  /-- YUV: bit 0 set for BT.709, bit 1 set for full range. -/
  yuv : Nat
  cx : Nat
  cy : Nat
  cw : Nat
  ch : Nat
  means : List Nat
  scales : List Nat
deriving DecidableEq, Repr

/-- The parameters in the bytes of an INGEST record. -/
def ingestOf (bs : List Byte) : IngestCfg :=
  let b (o n : Nat) : Nat := leNat ((bs.drop o).take n)
  { layout := b 3 1, pixw := b 4 1, kh := b 5 1, kw := b 6 1, sy := b 7 1, sx := b 8 1, nvec := b 9 1, weight := b 10 1, drop := b 11 1 != 0, yuv := b 12 1, cx := b 16 2, cy := b 18 2, cw := b 20 2, ch := b 22 2, means := (List.range 3).map (fun i => b (24 + 4 * i) 4), scales := (List.range 3).map (fun i => b (36 + 4 * i) 4) }

def State.ingestCfg (s : State) (st : Nat) : IngestCfg := ingestOf (s.station st).ingest

/-- The parameters of OPEN_CONTEXT (Table 11.7). -/
structure OpenParams where
  ctx : Nat
  station : Nat
  src : Nat
  sync : Nat
  hold : Bool
  current : Bool
  len : Nat
  origin : Nat
deriving DecidableEq, Repr

def openParams (e : List Word) : OpenParams :=
  { ctx := entryWord e 2 % 256, station := bits (entryWord e 2) 27 16, src := entryWord e 3 % 16, sync := bits (entryWord e 3) 5 4, hold := (entryWord e 3).testBit 6, current := (entryWord e 3).testBit 7, len := entryWord e 4, origin := entryWord e 5 + 4294967296 * entryWord e 6 }

/-- Whether the entry has a reserved code or a reserved field that is not zero (R307). -/
def openReserved (e : List Word) : Bool :=
  let p := openParams e
  !(entryClean e 7) || bits (entryWord e 2) 15 8 != 0 || bits (entryWord e 2) 31 28 != 0 || 256 ≤ entryWord e 3 ||
  (128 ≤ p.ctx && p.ctx != 0xFF) || (1 ≤ p.src && p.src ≤ 8 && 65536 ≤ entryWord e 6)

/-- Whether a binding is refused (R283). -/
def State.badBinding (s : State) (p : OpenParams) : Bool :=
  9 ≤ p.src || (p.src != 0 && !(s.bit .POS_CFG_EN (srcPort p.src))) ||
  p.len = 0 || 2147483648 < p.len || (p.src == 0 && p.len < 1000) || (p.sync != 0 && p.len < 8) || p.sync == 3 ||
  (p.sync == 1 && !(s.bit .POS_SYNCCFG_EN0 0)) || (p.sync == 2 && !(s.bit .POS_SYNCCFG_EN1 0))

/-- The context that an open takes: the named one, or the lowest that is Closed. -/
def State.openWhich (s : State) (c : Nat) : Option Nat :=
  if c = 0xFF then (List.range 128).find? (fun k => (s.ctx k).state == 0)
  else if (s.ctx c).state = 0 then some c else none

/-- Opens a context (R167, R283). -/
def State.openCtx (s : State) (fn c : Nat) (p : OpenParams) : State :=
  let v := s.source p.src
  let origin := if p.current then v else p.origin
  let n := diffSrc p.src v origin / (p.len : Int)
  let e := (n % 4294967296).toNat
  let v0 := addSrc p.src origin (n * p.len)
  let g := s.ingestCfg p.station
  let x : Context := { state := 1, owner := fn, weight := g.weight, drop := g.drop, queue := [], station := p.station, seq := 0, running := false, src := p.src, sync := p.sync, hold := p.hold, len := p.len, epoch := e, bound := addSrc p.src v0 p.len, held := false, ended := none, slip := none, hist := [(e, v0)], order := s.placed, deadline := none }
  let s := { s with placed := s.placed + 1, offers := smapSet 0 s.offers c 0 }.setCtx c x
  let s := ((s.setF .SGT_CTX_DROPCNT_COUNT c 0).setF .POS_CTX_STAT_OUTWIN c 0).setF .POS_CTX_STAT_MISSED c 0
  s.setF .SCTL_WORD (fn * 1152 + 9 * c + 8) 0

/-- The class 0 code of an open, 0 when it can be done; of several causes the one with the lowest code (R310). -/
def State.openCode (s : State) (fn : Nat) (e : List Word) : Nat :=
  let p := openParams e
  let y := s.station p.station
  if openReserved e then 1
  else if (List.range 128).all (fun k => (s.ctx k).state != 0) then 3
  else if (s.openWhich p.ctx).isNone then 4
  else if fn != 0 && ((s.quota fn).contexts ≤ s.ctxUse fn || (s.fnst fn).cut.isSome) then 5
  else if s.badBinding p then 6
  else if y.state = 0 || y.kind != 7 || y.owner != fn then 7
  else 0

/-- What OPEN_CONTEXT does once it is carried out. -/
def State.openCommand (s : State) (fn : Nat) (e : List Word) : State :=
  let code := s.openCode fn e
  match code, s.openWhich (openParams e).ctx with
  | 0, some c => (s.openCtx fn c (openParams e)).answer fn e 0 c
  | _, _ => s.answer fn e code 0

/-- OPEN_CONTEXT (R167, R283, R306 to R310, R316). -/
def execOpenContext (now : Nat) (fn : Func) (entry : List Word) (s : State) : Host.Outcome State Fault Refusal :=
  .next ((s.advance now).command fn.val 0x04 entry (fun t => t.openCommand fn.val entry))

/-- What CLOSE_CONTEXT does once it is carried out: a close that brings the tenant's usage within its quota ends a reclaim
(R317). -/
def State.closeCommand (s : State) (fn : Nat) (e : List Word) : State :=
  let c := entryWord e 2 % 128
  let x := s.ctx c
  if !(entryClean e 3) || 128 ≤ entryWord e 2 then s.answer fn e 1 0
  else if x.state = 0 || x.owner ≠ fn then s.answer fn e 4 0
  else
    let late := s.reclaimLate fn
    let s := if x.state = 1 then s.setCtx c { x with deadline := none } else s
    ((s.closeCtx c).reclaimFit fn late).answer fn e 0 0

/-- CLOSE_CONTEXT (R167, R306, R308, R310, R317). -/
def execCloseContext (now : Nat) (fn : Func) (entry : List Word) (s : State) : Host.Outcome State Fault Refusal :=
  .next ((s.advance now).command fn.val 0x05 entry (fun t => t.closeCommand fn.val entry))

/-- CONTEXT_CLOSED (R167): the job in progress of a Closing context has finished. -/
def execContextClosed (now : Nat) (ctx : Ctx) (s : State) : Host.Outcome State Fault Refusal :=
  let s := s.advance now
  let x := s.ctx ctx.val
  if x.state = 2 && !x.running then
    let t := s.setCtx ctx.val Context.closed
    .next (if x.deadline.isSome then t.reclaimDone x.owner else t.reclaimFit x.owner (s.reclaimLate x.owner))
  else .next s

/-! ### Posting (R168, R173, R311) -/

/-- Channels of a format and bytes of a pixel in its first plane (Table 6.5). -/
def fmtChannels (f : Nat) : Nat := if f < 2 then 1 else 3
def fmtBytes (f : Nat) : Nat := match f with | 0 => 1 | 1 => 2 | 2 => 3 | 3 => 3 | 4 => 4 | _ => 1

/-- Elements of a vector in a layout with C channels (R172). -/
def IngestCfg.nelem (g : IngestCfg) (chans : Nat) : Nat := if g.layout = 0 then g.pixw * chans else g.kh * g.kw * chans

/-- Whether a source counts the lines of a line-mode port. -/
def State.lineMode (s : State) (src : Nat) : Bool := src != 0 && s.getF .POS_CFG_MODE (srcPort src) == 1

/-- Word w of a stream control. -/
def State.sctl (s : State) (fn c w : Nat) : Nat := s.getF .SCTL_WORD (fn * 1152 + 9 * c + w)

/-- The frame descriptor in a stream control (Table 11.10). -/
def State.posted (s : State) (fn c : Nat) : FrameDesc :=
  let w := s.sctl fn c
  { addr := w 0 + 4294967296 * w 1, width := w 2 % 65536, height := w 2 / 65536, stride := w 3, format := w 4 % 16, stamp := if (w 4).testBit 31 then some (w 5 + 4294967296 * (w 6 % 65536)) else none }

/-- A descriptor that R173 refuses for its geometry. -/
def badGeometry (d : FrameDesc) (g : IngestCfg) (line : Bool) : Bool :=
  d.width = 0 || d.height = 0 || (d.format == 5 && (d.width % 2 == 1 || d.height % 2 == 1)) ||
  d.stride < fmtBytes d.format * d.width || d.width < g.cx + g.cw || (!line && d.height < g.cy + g.ch) ||
  256 < g.nelem (fmtChannels d.format)

/-- Sets RESULT, and counts ACCEPTED when the descriptor has been queued. -/
def State.postResult (s : State) (fn c r : Nat) : State :=
  let a := s.sctl fn c 8 % 536870912
  s.setF .SCTL_WORD (fn * 1152 + 9 * c + 8) (r * 536870912 + (if r < 2 then (a + 1) % 536870912 else a))

/-- Posts the frame descriptor that a function has written (R168, R173, R311). -/
def State.post (s : State) (fn c : Nat) : State :=
  let x := s.ctx c
  let d := s.posted fn c
  if x.state ≠ 1 || x.owner ≠ fn then s.denied fn
  else if 6 ≤ d.format then s.postResult fn c 3
  else if badGeometry d (s.ingestCfg x.station) (s.lineMode x.src) then
    (s.postResult fn c 4).addHold .SGT_CTX_DROPCNT_COUNT c 1
  else if x.queue.length < 16 then (s.setCtx c { x with queue := x.queue ++ [d] }).postResult fn c 0
  else
    let s := s.addHold .SGT_CTX_DROPCNT_COUNT c 1
    if x.drop then (s.setCtx c { x with queue := x.queue.drop 1 ++ [d] }).postResult fn c 1
    else s.postResult fn c 2

/-- POST (R168, R173, R311). -/
def execPost (now : Nat) (fn : Func) (ctx : Ctx) (s : State) : Host.Outcome State Fault Refusal :=
  .next ((s.advance now).hosted fn.val (fun t => t.post fn.val ctx.val))

/-! ### Ingest jobs (R169 to R172) -/

/-- A context that a free engine could serve: Open, with a descriptor queued, no job, no HOLD, its station not parked. -/
def State.ctxReady (s : State) (c : Nat) : Bool :=
  let x := s.ctx c
  x.state == 1 && !x.queue.isEmpty && !x.running && !x.hold && (s.station x.station).holds.isEmpty

/-- The ready context with the lowest index that still has offers in the round. -/
def State.nextOffer (s : State) : Option Nat :=
  (List.range 128).find? (fun c => s.ctxReady c && smapGet 0 s.offers c < (s.ctx c).weight)

/-- The contexts below c that have nothing queued are passed over: their offers lapse. -/
def State.lapse (s : State) (c : Nat) : State :=
  (List.range c).foldl
    (fun t k =>
      let x := t.ctx k
      if x.state = 1 && x.queue.isEmpty then { t with offers := smapSet 0 t.offers k x.weight } else t) s

/-- The context that the next free engine serves; a round that has no ready context left gives way to a new one. -/
def State.takeOffer (s : State) : Option (Nat × State) :=
  let t := if s.nextOffer.isSome then s else { s with offers := [] }
  t.nextOffer.map (fun c =>
    (c, { t with offers := smapSet 0 t.offers c (smapGet 0 t.offers c + 1) }.lapse c))

/-- A byte of the frame: its value, and whether it came poisoned or not at all. -/
structure Frame where
  bytes : List Byte
  bad   : List Nat
deriving DecidableEq, Repr

def Frame.byte (f : Frame) (o : Nat) : Nat × Bool := ((f.bytes.getD o 0).toNat, f.bytes.length ≤ o || f.bad.contains o)

/-- Channel ch (R, G, B) of a YCbCr value as the exact quotient of R171's standards, over one denominator: Kr and Kb of BT.601 or BT.709 in
1/10,000, limited or full range (PRESUMED, log entry 13). -/
def yuvExact (yuv y cb cr ch : Nat) : Int × Nat :=
  let kr : Int := if yuv.testBit 0 then 2126 else 2990
  let kb : Int := if yuv.testBit 0 then 722 else 1140
  let kg : Int := 10000 - kr - kb
  let full := yuv.testBit 1
  let l : Int := if full then y else ((y : Int) - 16) * (255 * 224)
  let b : Int := ((cb : Int) - 128) * (if full then 1 else 255 * 219)
  let r : Int := ((cr : Int) - 128) * (if full then 1 else 255 * 219)
  let n : Int := match ch with
    | 0 => kg * (10000 * l + 2 * (10000 - kr) * r)
    | 1 => 10000 * kg * l - 2 * (10000 - kb) * kb * b - 2 * (10000 - kr) * kr * r
    | _ => kg * (10000 * l + 2 * (10000 - kb) * b)
  (n, (10000 * kg).toNat * (if full then 1 else 219 * 224))

/-- The fp32 of a channel of an NV12 pixel, clamped to 0 to 255. How the steps are rounded the manual does not say: the value is a free
fp32 within 2^-13 of the exact one. -/
def yuvChannel (yuv k y cb cr ch : Nat) : Nat :=
  let q := yuvExact yuv y cb cr ch
  if q.1 ≤ 0 then 0
  else if (255 * q.2 : Int) ≤ q.1 then 0x437F0000
  else
    let f := Config.freeNat k % 0x437F0001
    if (fp32Val f * q.2 - q.1 * 2 ^ 149).natAbs ≤ q.2 * 2 ^ 136 then f else fp32Div q.1 q.2 0

/-- Channel ch of the pixel at a row and column (Table 6.5): its fp32 bits and whether it is poison. -/
def Frame.channel (f : Frame) (d : FrameDesc) (yuv k row col ch : Nat) : Nat × Bool :=
  let o := row * d.stride + col * fmtBytes d.format
  let whole (p : Nat × Bool) : Nat × Bool := (toFp32 p.1 0, p.2)
  match d.format with
  | 0 => whole (f.byte o)
  | 1 => whole ((f.byte o).1 + 256 * (f.byte (o + 1)).1, (f.byte o).2 || (f.byte (o + 1)).2)
  | 3 => whole (f.byte (o + 2 - ch))
  | 5 =>
    let c := d.stride * d.height + row / 2 * d.stride + col / 2 * 2
    (yuvChannel yuv k (f.byte o).1 (f.byte c).1 (f.byte (c + 1)).1 ch, (f.byte o).2 || (f.byte c).2 || (f.byte (c + 1)).2)
  | _ => whole (f.byte (o + ch))

/-- Normalises a channel value (R171): the element, whether it saturated, and whether it is poison. Where a mean or a scale is not
finite the element is a free value (log entry 13); a step that overflows saturates. -/
def normElem (fmt : Nat) (exp : Int) (k m sc : Nat) (v : Nat × Bool) : Nat × Bool × Bool :=
  let a := fp32Add v.1 (if fp32Neg m then m - 2147483648 else m + 2147483648)
  let y := fp32Mul a sc
  if v.2 then (poisonElem fmt, false, true)
  else if fp32Exp m = 255 || fp32Exp sc = 255 then
    let x := cleanElem fmt (Config.freeNat k % 65536)
    (x, Config.freeBool k && !(elemPoison fmt x), elemPoison fmt x)
  else
    let e := toElem fmt exp (fp32Val y)
    (e.1, e.2, false)

/-- The pixels of each vector, row by row (R172): row and column, none for padding; and the first row of the vector. -/
def IngestCfg.vectors (g : IngestCfg) (rows : Nat) (y0 : Nat) : List (Nat × List (Option (Nat × Nat))) :=
  if g.layout = 0 then
    (List.range rows).flatMap (fun r =>
      (List.range ((g.cw + g.pixw - 1) / max g.pixw 1)).map (fun b =>
        (y0 + r, (List.range g.pixw).map (fun i =>
          if b * g.pixw + i < g.cw then some (y0 + r, g.cx + b * g.pixw + i) else none))))
  else
    (List.range ((rows + g.sy - 1) / max g.sy 1)).flatMap (fun v =>
      (List.range ((g.cw + g.sx - 1) / max g.sx 1)).map (fun h =>
        (y0 + v * g.sy, (List.range g.kh).flatMap (fun i => (List.range g.kw).map (fun j =>
          if v * g.sy + i < rows && h * g.sx + j < g.cw then some (y0 + v * g.sy + i, g.cx + h * g.sx + j) else none)))))

/-- The elements of a vector. -/
def Frame.elems (f : Frame) (d : FrameDesc) (g : IngestCfg) (fmt : Nat) (exp : Int) (k : Nat)
    (px : List (Option (Nat × Nat))) : List (Nat × Bool × Bool) :=
  px.flatMap (fun p => (List.range (fmtChannels d.format)).map (fun ch =>
    match p with
    | some (r, c) =>
      let n := k + 2 * ((r * d.width + c) * 3 + ch)
      normElem fmt exp (n + 1) (g.means.getD ch 0) (g.scales.getD ch 0) (f.channel d g.yuv n r c ch)
    | none => (0, false, false)))

/-- Groups vectors into tiles of n, at most `fuel` of them. -/
def groupBy {α : Type} (n : Nat) : List α → Nat → List (List α)
  | _, 0 => []
  | [], _ => []
  | xs, fuel + 1 => xs.take n :: groupBy n (xs.drop n) fuel

/-- A tile of some vectors; `pos` is its extended position. -/
def ingestTile (fmt : Nat) (exp : Int) (f : Frame) (d : FrameDesc) (g : IngestCfg) (k pos : Nat)
    (vs : List (Nat × List (Option (Nat × Nat)))) : IngestTile :=
  let es := vs.map (fun v => f.elems d g fmt exp k v.2)
  let n := g.nelem (fmtChannels d.format)
  let fl := es.flatten
  { pos := pos, nvec := vs.length, nelem := n, poison := fl.any (fun e => e.2.2), sats := (fl.filter (fun e => e.2.1)).length, data := es.flatMap (fun v => let bs := v.flatMap (fun e => leBytes 2 e.1); bs ++ List.replicate (vstride fmt n - bs.length) 0) }

/-- The bytes of host memory that a descriptor covers. -/
def FrameDesc.size (d : FrameDesc) : Nat :=
  if d.format = 5 then d.stride * (d.height + d.height / 2) else d.stride * (d.height - 1) + fmtBytes d.format * d.width

/-- The job of a descriptor of a context at this moment (R170 to R172). -/
def State.ingestJob (s : State) (c : Nat) (d : FrameDesc) (f : Frame) : Ingest :=
  let x := s.ctx c
  let y := s.station x.station
  let g := s.ingestCfg x.station
  let fmt := if y.outFmt = 1 then 1 else 0
  let line := s.lineMode x.src
  let base := match d.stamp with
    | some t => if x.src = 0 then extend48 s.clock t else t
    | none => s.source x.src
  let vs := g.vectors (if line then d.height else g.ch) (if line then 0 else g.cy)
  let tiles := (groupBy g.nvec vs vs.length).map (fun t =>
    ingestTile fmt y.outExp f d g s.fresh (if line then addSrc 1 base ((t.headD (0, [])).1 : Nat) else base) t)
  { ctx := c, dtime := s.clock, tiles := tiles, wait := f.bytes.length < d.size }

/-- INGEST_JOB_START (R169 to R172, R295): a free engine takes the next job of the round. `frame` is what the host reads of the
descriptor return; bytes past its end are outstanding, and those at the offsets `bad` came poisoned. -/
def execIngestJobStart (now : Nat) (eng : Fin 8) (frame : List Byte) (bad : List Nat) (s : State) :
    Host.Outcome State Fault Refusal :=
  let s := s.advance now
  if !(s.dieOn 2) || (smapGet none s.ingests eng.val).isSome then .next s
  else
    match s.takeOffer with
    | some (c, s) =>
      let x := s.ctx c
      (match x.queue with
        | d :: rest =>
          let j := s.ingestJob c d { bytes := frame.take d.size, bad := bad }
          let s := { s with ingests := smapSet none s.ingests eng.val (some j), fresh := s.fresh + 6 * d.width * d.height }
          .next (((s.setCtx c { x with queue := rest, running := true }).enterTile x.station).emit (.hostRead x.owner d.addr d.size))
        | [] => .next s)
    | none => .next s

/-- Writes a tile of a job into a slot of its ring. -/
def State.ingestWrite (s : State) (j : Ingest) (t : IngestTile) (h : SlotRef) : State :=
  let x := s.ctx j.ctx
  let y := s.station x.station
  let r := s.nextWr h
  let fmt := if y.outFmt = 1 then 1 else 0
  let hd : Header := { dtime := j.dtime, pos := t.pos % 281474976710656, seq := x.seq, epoch := x.epochOf t.pos, station := x.station, kind := 7, ctx := j.ctx, gen := y.gen, nvec := t.nvec, fmt := fmt, exp := if fmt = 0 then y.outExp else 0, flags := if t.poison then 2 else 0, nelem := t.nelem, decision := 0 }
  let m := fnMaster y.owner
  let s := (s.setSlot r 1).stepWr h
  let w := s.writeMem m (fun _ => false) (s.slotAddr r + 64) t.data
  let hd := if w.2 then { hd with flags := 2 } else hd
  let s := (w.1.writeMem m (fun _ => false) (w.1.slotAddr r) hd.bytes).1
  let s := s.setCtx j.ctx { x with seq := (x.seq + 1) % 4294967296 }
  let s := (s.count x.station 0 t.sats).count x.station 1 (if hd.flags = 0 then 0 else 1)
  let s := (s.owlsOf x.station).foldl (fun u i => u.owlTake i ((u.outElems r hd.exp).filterMap id) false) s
  (s.pointsTake x.station hd.exp r).fillSlot r

/-- Writes the tiles of a job while its ring has Empty slots and nothing holds its station; those left. A write outside the owner's
allocation is refused and captured (R303). -/
def State.ingestFlush (s : State) (j : Ingest) (h : SlotRef) : List IngestTile → State × List IngestTile
  | [] => (s, [])
  | t :: ts =>
    let r := s.nextWr h
    if s.slot r != 0 || !(s.slotOn r) || !(s.station (s.ctx j.ctx).station).holds.isEmpty then (s, t :: ts)
    else if s.ownsAll (s.ctx j.ctx).owner (s.slotAddr r) (s.ring h).size then (s.ingestWrite j t h).ingestFlush j h ts
    else (s.foreignCapture (s.ctx j.ctx).owner (s.slotAddr r), t :: ts)

/-- A job of a gate-ingest station stands at a tile boundary: the station is what it then is, Active while another job of it runs on
(R154). -/
def State.gateRest (s : State) (st : Nat) (ended : Bool) : State :=
  let more := s.ingests.any (fun e => match e.2 with | some j => (s.ctx j.ctx).station == st | none => false)
  if (s.station st).holds.isEmpty && (more || !ended) then s else s.leaveTile st

/-- INGEST_JOB_DONE (R163, R169): the engine writes its tiles in order; with the last one written it is free. A full ring makes
it wait. -/
def execIngestJobDone (now : Nat) (eng : Fin 8) (s : State) : Host.Outcome State Fault Refusal :=
  let s := s.advance now
  match smapGet none s.ingests eng.val with
  | some j =>
    let x := s.ctx j.ctx
    (match (s.station x.station).outs with
      | h :: _ =>
        if !(s.dieOn 2) || j.wait then .next s
        else if !(s.station x.station).holds.isEmpty then .next (s.gateRest x.station false)
        else
          let w := (s.enterTile x.station).ingestFlush j h j.tiles
          if w.2.isEmpty then
            .next (({ w.1 with ingests := smapSet none w.1.ingests eng.val none }.setCtx j.ctx
              { w.1.ctx j.ctx with running := false }).gateRest x.station true)
          else .next { w.1 with ingests := smapSet none w.1.ingests eng.val (some { j with tiles := w.2 }) }
      | [] => .next s)
  | none => .next s

/-! ### Error-corrected words (R175, R183) -/

/-- ECC_SCRUB_WRITE (R175): a word that was returned corrected is rewritten with correct check bits. -/
def execEccScrubWrite (now : Nat) (word : BitVec 24) (s : State) : Host.Outcome State Fault Refusal :=
  let s := s.advance now
  let w := word.toNat
  if s.scrubs.contains w && s.memOn (8 * w) then
    let t := { s with scrubs := s.scrubs.erase w }
    .next (if correctable (t.syndrome w) then t.mark w 0 else t)
  else .next s

/-- ECC_CAPTURE_CLEAR (R183): the capture registers of a core's or a cluster's memory are armed again. -/
def execEccCaptureClear (now : Nat) (cl : Cluster) (core : Option Core) (s : State) : Host.Outcome State Fault Refusal :=
  let s := s.advance now
  match core with
  | some k =>
    let i := coreIx cl k
    .next (s.onReg 0x20 .CMC_ECCSTAT [cl.val, k.val] i
      (s.setF .CMC_ECCSTAT_VALID i 0))
  | none =>
    .next (s.onReg 0x20 .KMC_ECCSTAT [cl.val] cl.val
      (s.setF .KMC_ECCSTAT_VALID cl.val 0))

end Sys2Proof.Machine
end

