-- ==== Sys2Proof/Machine/Link.lean ====
section
/-!
DEFINITION. The Edeneg ports (R332 to R351): bring-up, flits and replay, tiles and credits, barriers, broadcasts, forwarded
mailbox messages, delay exchanges, and a port going down.
-/

namespace Sys2Proof
open Machine

/-- A number in a payload of up to 240 bytes; what it does not hold reads as 0. -/
def Flit.num (f : Flit) (o n : Nat) : Nat := leNat (((f.payload.take 240).drop o).take n)

/-- The entries of an ID frame: the peer first, then its table. -/
def Flit.entries (f : Flit) : List (Nat × List Byte) :=
  (List.range ((f.payload.take 240).length / 17)).map (fun i => (f.num (17 * i) 1, (f.payload.drop (17 * i + 1)).take 16))

/-- Delay and offset of an exchange, the offset in halves of a ns. -/
def Stamps.delay (x : Stamps) : Int := ((x.t4 : Int) - x.t1) - ((x.t3 : Int) - x.t2)
def Stamps.offset2 (x : Stamps) : Int := ((x.t1 : Int) - x.t2) + ((x.t4 : Int) - x.t3)

end Sys2Proof

namespace Sys2Proof.Machine
open Sys2Proof

/-! ### Ports -/

def State.portState (s : State) (p : Nat) : Nat := s.getF .LNK_PSTAT_STATE p

/-- Whether the lanes of a port carry flits: identifying, measuring or up. -/
def State.portTrained (s : State) (p : Nat) : Bool := s.dieOn 1 && 2 ≤ s.portState p && s.portState p ≤ 4

/-- The OFS of a device (R339): the last measurement carried on by the rate term, which for a neighbour is the change between
the last two. -/
def State.ofs (s : State) (d : Nat) : Int :=
  let o := smapGet 0 s.offsets d
  match s.routeTo d with
  | some p =>
    let x := s.link p
    if s.linkUp p && s.getF .LNK_PSTAT_PEER p = d && 0 < x.span then o + x.drift * ((s.time - x.measAt : Nat) : Int) / (x.span : Int)
    else o
  | none => o

/-- The station at the given end of a link channel of a port, with its ring: kind 8 sends, kind 9 receives (R342). -/
def State.linkStation (s : State) (kind p lchan : Nat) : Option (Nat × SlotRef) :=
  (s.stations.filter (fun e => e.2.kind == kind && e.2.state != 0)).findSome? (fun e =>
    (if kind = 8 then e.2.ins else e.2.outs).findSome? (fun h =>
      if (s.ring h).lport = p && (s.ring h).lchan = lchan then some (e.1, h) else none))

/-! ### Acknowledgement and replay (R334) -/

/-- Flits up to an ACKSEQ leave the replay buffer. -/
def ackFlits (a : Nat) (q : List SentFlit) : List SentFlit :=
  if q.any (fun f => f.fseq == a) then (q.dropWhile (fun f => f.fseq != a)).drop 1 else q

/-- A tile's flit of a link channel has been acknowledged. -/
def ackTile (c : Nat) : List TxTile → List TxTile
  | [] => []
  | t :: ts => if t.lchan = c && t.left != 0 then { t with left := t.left - 1 } :: ts else t :: ackTile c ts

/-- A tile whose last flit is acknowledged has been sent: its slot is Empty. -/
def State.sentTiles (s : State) (p : Nat) : State :=
  let x := s.link p
  let left := x.sending.filter (fun t => t.left != 0)
  let done := x.sending.filter (fun t => t.left == 0)
  let s := done.foldl (fun u t => u.emptySlot t.slot) s
  let s := s.setLink p { x with sending := left }
  done.foldl (fun u t => if left.any (fun v => v.st == t.st) then u else u.leaveTile t.st) s

/-- Takes an acknowledgement: what waits leaves as far as there is room. -/
def State.acked (s : State) (p a : Nat) : State :=
  let x := s.link p
  let q := ackFlits a x.buf
  if q.length < x.buf.length then
    let gone := (x.buf.take (x.buf.length - q.length)).filter (fun f => tileFrame f.type)
    let sending := gone.foldl (fun ts f => ackTile f.lchan ts) x.sending
    (((s.setLink p { x with buf := q, sending := sending, tries := 0, ackAt := s.time }).sentTiles p).sendHeld p 64)
  else s

/-- What a frame is sent as again. -/
def State.resend (s : State) (p : Nat) (f : SentFlit) : State := s.emit (.frame p f.type f.lchan f.dst f.payload)

/-! ### A port goes down (R348) -/

/-- The port of a route toward any member device but this one. -/
def State.groupUses (s : State) (x : Group) (p : Nat) : Bool :=
  x.scope == 2 && (ranks x.devmask).any (fun d => d != s.devId && s.routeTo d == some p)

/-- The tiles being sent stay: their slots are Full again, and the ring gives them out again in order. -/
def State.unsend (s : State) (p : Nat) : State :=
  let x := s.link p
  let s := x.sending.reverse.foldl
    (fun u t => ((u.setSlot t.slot 2).setRing t.ring { u.ring t.ring with rd := t.slot.n - t.ring.n }).leaveTile t.st) s
  s.setLink p { x with sending := [] }

/-- The tiles being received are torn (R165). -/
def State.tearOpen (s : State) (p : Nat) : State :=
  let x := s.link p
  let s := x.open_.foldl
    (fun u e => match e.2 with | some t => (u.tear t.slot).leaveTile (u.ring t.ring).prod | none => u) s
  s.setLink p { s.link p with open_ := [] }

/-- The offsets of devices reached through a port are stale. -/
def State.staleOfs (s : State) (p : Nat) : State :=
  let ds := (List.range 8).filter (fun d => s.routeTo d == some p && (smapGet none s.domain d).isSome)
  s.setF .LNK_OFSVAL_VALID 0 (ds.foldl (fun m d => withBit m d false) (s.getF .LNK_OFSVAL_VALID 0))

/-- What a port loses at the instant it goes down. -/
def State.portLoses (s : State) (p : Nat) : State :=
  let s := (s.unsend p).tearOpen p
  let x := s.link p
  let s := s.setLink p { Link.idle with lostAt := s.time, outage := x.outage, deficit := x.deficit, lastSt := x.lastSt }
  let s := (List.range 64).foldl (fun u g => if u.groupUses (u.group g) p then u.endInstance g false true else u) s
  let s := (List.range 64).foldl
    (fun u ch => if u.mbxBound ch && u.mbxReceiver ch = 0x30 + p && u.mbxFull ch then u.mbxEmpty ch true else u) s
  s.staleOfs p

/-- A port goes down: to state 6 where it retries, to 0 where it is off. A port whose lanes are locked counts and reports it. -/
def State.portDown (s : State) (p next : Nat) : State :=
  let st := s.portState p
  if 2 ≤ st && st ≤ 4 then
    let s := (s.portLoses p).addHold .LNK_PDOWNCNT_COUNT p 1
    ((s.setF .LNK_PSTAT_STATE p next).setF .LNK_PSTAT_LANES p 0).raise 0x20A 0xFF 0xFF p 0xFFFF []
  else if st = 1 || next = 0 then
    (s.setF .LNK_PSTAT_STATE p next).setLink p { s.link p with lostAt := s.time }
  else s

/-- Replays from the oldest flit that a predicate admits (R334). The eighth replay in succession takes the port down. -/
def State.replay (s : State) (p : Nat) (keep : SentFlit → Bool) : State :=
  let x := s.link p
  let q := x.buf.dropWhile (fun f => !(keep f))
  if q.isEmpty then s
  else
    let s := (s.setLink p { x with tries := x.tries + 1, ackAt := s.time }).addHold .LNK_PREPLAY_COUNT p 1
    if 8 ≤ x.tries + 1 then s.portDown p 6 else q.foldl (fun u f => u.resend p f) s

/-- A NAK with the expected FSEQ. -/
def State.sendNak (s : State) (p : Nat) : State := s.sendFrame p 0xA 0 (s.getF .LNK_PSTAT_PEER p) (leBytes 2 (s.link p).rx)

/-! ### Credits (R343) -/

/-- Gives the peer a credit for each Empty slot of a link-receive ring that it has none for. -/
def State.giveCredit (s : State) (p : Nat) (h : SlotRef) : State :=
  let x := s.link p
  let c := (s.ring h).lchan
  let have_ := smapGet 0 x.given c
  let free := s.countSlots h 0
  if have_ < free then
    (s.setLink p { x with given := smapSet 0 x.given c free }).sendFrame p 4 c (s.getF .LNK_PSTAT_PEER p) (leBytes 1 (free - have_))
  else s

/-- Gives the credits of all link-receive rings of a port that is up. A parked station takes no new tile, so that its peer gets none:
its tiles stay in the sender's slots (R154, log entry 94). -/
def State.giveCredits (s : State) (p : Nat) : State :=
  if s.linkUp p then
    (s.stations.filter (fun e => e.2.kind == 9 && e.2.state != 0 && e.2.holds.isEmpty)).foldl
      (fun u e => e.2.outs.foldl (fun v h => if (v.ring h).lport = p then v.giveCredit p h else v) u) s
  else s

/-! ### Taking in a flit -/

/-- A flit is taken in: while the lanes are trained, in sequence, its ACKSEQ acknowledges and `body` does what its type asks;
out of sequence it is discarded and answered with NAK (R334). -/
def State.rxFlit (s : State) (p : Nat) (f : Flit) (body : State → State) : State :=
  if !(s.portTrained p) then s
  else if f.fseq.toNat ≠ (s.link p).rx then s.sendNak p
  else
    let s := s.setLink p { s.link p with rx := ((s.link p).rx + 1) % 4096 }
    (body (s.acked p f.ackseq.toNat)).giveCredits p

/-- Whether a flit is for this device; one for another is discarded and counted, as the traffic crosses one hop (R337). -/
def State.onHop (s : State) (p : Nat) (f : Flit) (t : State) : State :=
  if s.portState p ≠ 4 then s
  else if f.dst.toNat = s.devId then t
  else s.addHold .LNK_PNOCHAN_COUNT p 1

/-! ### Bring-up (R335 to R338) -/

/-- LINK_LOCK (R335). -/
def execLinkLock (now : Nat) (s : State) : Host.Outcome State Fault Refusal :=
  let s := s.advance now
  .next (s.onReg 0x20 .LNK_CFG [] 0 (s.setF .LNK_CFG_LOCK 0 1))

/-- LINK_PORT_ENABLE (R335, R338): discarded while LOCK is 0. -/
def execLinkPortEnable (now : Nat) (p : Fin 4) (s : State) : Host.Outcome State Fault Refusal :=
  let s := s.advance now
  .next (s.onReg 0x20 .LNK_PCFG [p.val] 0
    (if s.bit .LNK_CFG_LOCK 0 && !(s.bit .LNK_PCFG_EN p.val) then
      ((s.setF .LNK_PCFG_EN p.val 1).setF .LNK_PSTAT_STATE p.val 1).setF .LNK_PSTAT_REASON p.val 0
    else s))

/-- The ID frame: the device's ID and digest, and its domain table (Table 12.2). -/
def State.idPayload (s : State) : List Byte :=
  leBytes 1 s.devId ++ deviceDigest ++
  s.domain.flatMap (fun e => match e.2 with | some x => leBytes 1 e.1 ++ x.digest | none => [])

/-- LINK_TRAINING_DONE (R332, R338): with fewer than 4 lanes training begins again. -/
def execLinkTrainingDone (now : Nat) (p : Fin 4) (lanes : BitVec 8) (s : State) : Host.Outcome State Fault Refusal :=
  let s := s.advance now
  let n := ((List.range 8).filter (fun l => lanes.getLsbD l)).length
  if s.dieOn 1 && s.portState p.val = 1 then
    if n < 4 then .next s
    else
      let s := (s.setF .LNK_PSTAT_LANES p.val lanes.toNat).setF .LNK_PSTAT_STATE p.val 2
      .next (s.sendFrame p.val 0xB 0 0 s.idPayload)
  else .next s

/-- Why a port is refused (R336): 2 when an entry holds the device's own ID with another digest, 1 when one holds an ID of
the table with another digest. The device's own entry as others know it is no conflict. -/
def State.idConflict (s : State) (es : List (Nat × List Byte)) : Option Nat :=
  if es.zipIdx.any (fun e => e.1.1 % 8 == s.devId && (e.2 == 0 || e.1.2 != deviceDigest)) then some 2
  else if es.any (fun e => match smapGet none s.domain (e.1 % 8) with | some x => x.digest != e.2 | none => false) then some 1
  else none

/-- Merges entries that came by a port into the domain table. -/
def State.mergeDomain (s : State) (p : Nat) (es : List (Nat × List Byte)) : State :=
  es.foldl
    (fun u e =>
      if e.1 % 8 = u.devId || (smapGet none u.domain (e.1 % 8)).isSome then u
      else { u with domain := smapSet none u.domain (e.1 % 8) (some { digest := e.2, port := p }) }) s

/-- ID_FRAME (R336, R338): the tables are merged, or the port is refused until EN is cleared and set again. -/
def State.takeId (t : State) (p : Nat) (f : Flit) : State :=
  let es := f.entries
  if t.portState p ≠ 2 || es.isEmpty then t
  else
    match t.idConflict es with
    | some r => (t.setF .LNK_PSTAT_STATE p 5).setF .LNK_PSTAT_REASON p r
    | none =>
      let t := (t.mergeDomain p es).setF .LNK_PSTAT_PEER p (f.num 0 1 % 8)
      ((t.setF .LNK_PSTAT_STATE p 3).setLink p { t.link p with samples := [] }).sendFrame p 9 0
        (f.num 0 1 % 8) (leBytes 8 t.clock ++ leBytes 17 0)

/-- ID_FRAME: what it does once the port takes the flit. -/
def execIdFrame (now : Nat) (p : Fin 4) (f : Flit) (s : State) : Host.Outcome State Fault Refusal :=
  .next ((s.advance now).rxFlit p.val f (fun t => t.takeId p.val f))

/-! ### Time (R339) -/

/-- A half is rounded down or up: which of both is a free value. -/
def State.half2 (s : State) (v : Int) : Int := if v % 2 = 0 then v / 2 else v / 2 + Config.freeNat s.fresh % 2

/-- The exchange with the smallest delay, the first of equals. -/
def bestSample (xs : List (Int × Int)) : Option (Int × Int) :=
  xs.foldl
    (fun m x => match m with
      | none => some x
      | some y => if x.1 < y.1 then some x else some y) none

/-- Takes a measured offset of a port's peer; with `drift` its rate term is renewed. -/
def State.setOffset (s : State) (p : Nat) (xs : List (Int × Int)) (drift : Bool) : State :=
  match bestSample xs with
  | some y =>
    let x := s.link p
    let d := s.getF .LNK_PSTAT_PEER p
    let o := s.half2 y.2
    let old := smapGet 0 s.offsets d
    let s := { s.burn with offsets := smapSet 0 s.offsets d o }
    let s := s.setLink p { x with measAt := s.time, drift := if drift then o - old else 0, span := if drift then s.time - x.measAt else 0 }
    s.setF .LNK_OFSVAL_VALID 0 (withBit (s.getF .LNK_OFSVAL_VALID 0) d true)
  | none => s

/-- The delay register after an exchange. -/
def State.setDelay (s : State) (p : Nat) (d : Int) : State := s.setF .LNK_PDLY_DELAY p (min d.toNat 65535)

/-- TIME_FRAME (R338, R339): a request is answered; a reply ends an exchange, and during bring-up starts the next. -/
def State.takeTime (t : State) (p : Nat) (f : Flit) : State :=
  let peer := t.getF .LNK_PSTAT_PEER p
  if t.portState p < 3 then t
  else if f.num 24 1 % 2 = 0 then
    t.sendFrame p 9 0 peer (leBytes 8 (f.num 0 8) ++ leBytes 8 t.clock ++ leBytes 8 t.clock ++ leBytes 1 1)
  else
    let x : Stamps := { t1 := f.num 0 8, t2 := f.num 8 8, t3 := f.num 16 8, t4 := t.clock }
    let t := t.setDelay p x.delay
    if t.portState p = 3 then
      let l := t.link p
      let t := t.setLink p { l with samples := l.samples ++ [(x.delay, x.offset2)] }
      if l.samples.length < 63 then t.sendFrame p 9 0 peer (leBytes 8 t.clock ++ leBytes 17 0) else t
    else t.setOffset p [(x.delay, x.offset2)] true

/-- TIME_FRAME: what it does once the port takes the flit. -/
def execTimeFrame (now : Nat) (p : Fin 4) (f : Flit) (s : State) : Host.Outcome State Fault Refusal :=
  .next ((s.advance now).rxFlit p.val f (fun t => t.takeTime p.val f))

/-- TIME_EXCHANGE (R339): the exchanges of 1 ms in service. -/
def execTimeExchange (now : Nat) (p : Fin 4) (stamps : List Stamps) (s : State) : Host.Outcome State Fault Refusal :=
  let s := s.advance now
  if s.dieOn 1 && s.linkUp p.val then
    let s := s.setOffset p.val (stamps.map (fun x => (x.delay, x.offset2))) true
    .next (match stamps.getLast? with | some x => s.setDelay p.val x.delay | none => s)
  else .next s

/-- The offsets of devices that are no neighbours come with the domain table; the frames do not carry them, so that each is a
free value. -/
def State.farOffsets (s : State) : State :=
  (List.range 8).foldl
    (fun u d =>
      match smapGet none u.domain d, u.routeTo d with
      | some _, some p =>
        if u.getF .LNK_PSTAT_PEER p = d && u.linkUp p then u
        else
          let v := (BitVec.ofNat 64 (Config.freeNat u.fresh)).toInt
          { u.burn with offsets := smapSet 0 u.offsets d v }
      | _, _ => u) s

/-- LINK_UP (R338, R339): the 64 exchanges have ended. -/
def execLinkUp (now : Nat) (p : Fin 4) (s : State) : Host.Outcome State Fault Refusal :=
  let s := s.advance now
  let x := s.link p.val
  if s.dieOn 1 && s.portState p.val = 3 && 64 ≤ x.samples.length then
    let s := (s.setOffset p.val x.samples false).setF .LNK_PSTAT_STATE p.val 4
    let s := (s.setLink p.val { s.link p.val with samples := [], outage := [] }).farOffsets.giveCredits p.val
    .next (s.deliverWakes (fun ch => s.mbxReceiver ch == 0x30 + p.val) (fun _ => false))
  else .next s

/-- LINK_RETRY (R338): 100 ms after it went down. -/
def execLinkRetry (now : Nat) (p : Fin 4) (s : State) : Host.Outcome State Fault Refusal :=
  let s := s.advance now
  if s.dieOn 1 && s.portState p.val = 6 && s.bit .LNK_PCFG_EN p.val && (s.link p.val).lostAt + 100000000 ≤ s.time then
    .next (s.setF .LNK_PSTAT_STATE p.val 1)
  else .next s

/-! ### Flits (R334, R341) -/

/-- FLIT_CRC_ERROR (R334). -/
def execFlitCrcError (now : Nat) (p : Fin 4) (crcFailed : Bool) (s : State) : Host.Outcome State Fault Refusal :=
  let s := s.advance now
  if s.portTrained p.val then
    .next ((if crcFailed then s.addHold .LNK_PCRCERR_COUNT p.val 1 else s).sendNak p.val)
  else .next s

/-- FLIT_RESERVED_TYPE (R341). -/
def execFlitReservedType (now : Nat) (p : Fin 4) (ty : Byte) (f : Flit) (s : State) : Host.Outcome State Fault Refusal :=
  .next (if ty.toNat < 0x0C then s.advance now
    else (s.advance now).rxFlit p.val f (fun t => t.addHold .LNK_PCRCERR_COUNT p.val 1))

/-- REPLAY_TIMEOUT (R334): 2 us without an acknowledgement. -/
def execReplayTimeout (now : Nat) (p : Fin 4) (s : State) : Host.Outcome State Fault Refusal :=
  let s := s.advance now
  if s.portTrained p.val && (s.link p.val).ackAt + 2000 ≤ s.time then .next (s.replay p.val (fun _ => true)) else .next s

/-- NAK (R334). -/
def execNak (now : Nat) (p : Fin 4) (f : Flit) (s : State) : Host.Outcome State Fault Refusal :=
  .next ((s.advance now).rxFlit p.val f (fun t => t.replay p.val (fun q => q.fseq == f.num 0 2 % 4096)))

/-- IDLE (R334, R341): only its ACKSEQ counts. -/
def execIdle (now : Nat) (p : Fin 4) (f : Flit) (s : State) : Host.Outcome State Fault Refusal :=
  .next ((s.advance now).rxFlit p.val f (fun t => t))

/-! ### Tiles in (R103, R340, R343) -/

/-- TILE_HEAD (R343): the next slot of the channel's ring becomes Filling and the station Active. A head that had no credit is
discarded. -/
def State.takeTileHead (t : State) (p : Nat) (f : Flit) : State :=
  match t.linkStation 9 p f.lchan.toNat with
    | none => t.addHold .LNK_PNOCHAN_COUNT p 1
    | some (st, h) =>
      let t := match smapGet none (t.link p).open_ f.lchan.toNat with
        | some o => (t.setLink p { t.link p with open_ := smapSet none (t.link p).open_ f.lchan.toNat none }).tear o.slot
        | none => t
      let r := t.nextWr h
      let g := smapGet 0 (t.link p).given f.lchan.toNat
      if t.slot r = 0 && t.slotOn r && g != 0 then
        let x := t.link p
        let o : RxTile := { slot := r, ring := h, head := f.payload.take 64, scale := f.num 64 4, codes := [] }
        (((t.setSlot r 1).stepWr h).enterTile st).setLink p { x with open_ := smapSet none x.open_ f.lchan.toNat (some o), given := smapSet 0 x.given f.lchan.toNat (g - 1) }
      else t.leaveTile st

/-- TILE_HEAD: what it does once the port takes the flit. -/
def execTileHead (now : Nat) (p : Fin 4) (f : Flit) (s : State) : Host.Outcome State Fault Refusal :=
  .next ((s.advance now).rxFlit p.val f (fun t => t.onHop p.val f (t.takeTileHead p.val f)))

/-- An element of a code k (R103): its bits, whether it is poison, and whether it saturated. With a scale that is not finite the manual
states no value: it is a free one, number n (log entry 13). -/
def rxElem (fmt : Nat) (exp : Int) (scale n : Nat) (k : Byte) : Nat × Bool × Bool :=
  if k = 0x80#8 then (poisonElem fmt, true, false)
  else if fp32Exp scale = 255 then
    let x := cleanElem fmt (Config.freeNat n % 65536)
    (x, elemPoison fmt x, Config.freeBool n && !(elemPoison fmt x))
  else
    let e := toElem fmt exp (k.toInt * fp32Val scale)
    (e.1, false, e.2)

/-- The tile whose last element has come is written: elements, then header, and its slot is Full (R103, R159, R340). -/
def State.rxTile (s : State) (p st : Nat) (src : Nat) (o : RxTile) : State :=
  let y := s.station st
  let b (i n : Nat) : Nat := leNat ((o.head.drop i).take n)
  let fmt := if y.outFmt = 1 then 1 else 0
  let n := b 0x20 2
  let es := o.codes.zipIdx.map (fun c => rxElem fmt y.outExp o.scale (s.fresh + c.2) c.1)
  let bs := (List.range (b 0x1C 1)).flatMap (fun v =>
    let row := ((es.drop (v * n)).take n).flatMap (fun e => leBytes 2 e.1)
    row ++ List.replicate (vstride fmt n - row.length) 0)
  let pois := (es.filter (fun e => e.2.1)).length
  let m := 0x30 + p
  let w := s.writeMem m (fun _ => false) (s.slotAddr o.slot + 64) bs
  let s := if fp32Exp o.scale = 255 then { w.1 with fresh := w.1.fresh + o.codes.length } else w.1
  let flags := b 0x1F 1 % 16 / 8 * 8 + b 0x1F 1 % 4
  let flags := if 0 < pois || w.2 then flags ||| 2 else flags
  let t := (((b 0 8 : Int) + s.ofs src) % 18446744073709551616).toNat
  let hd : Header := { dtime := t, pos := b 8 6, seq := b 0x10 4, epoch := b 0x14 4, station := st, kind := 9, ctx := b 0x1A 1 % 128, gen := y.gen, nvec := b 0x1C 1, fmt := fmt, exp := if fmt = 0 then y.outExp else 0, flags := flags, nelem := n, decision := 0 }
  let s := (s.writeMem m (fun _ => false) (s.slotAddr o.slot) hd.bytes).1
  let s := ((s.count st 0 (es.filter (fun e => e.2.2)).length).count st 1 pois).count st 1 (if flags.testBit 1 then 1 else 0)
  let s := if flags.testBit 0 then s
    else (s.owlsOf st).foldl (fun u i => u.owlTake i ((u.outElems o.slot hd.exp).filterMap id) (flags.testBit 3)) s
  ((s.pointsTake st hd.exp o.slot).fillSlot o.slot).leaveTile st

/-- TILE_DATA (R343). -/
def State.takeTileData (t : State) (p : Nat) (f : Flit) : State :=
  match t.linkStation 9 p f.lchan.toNat with
    | none => t.addHold .LNK_PNOCHAN_COUNT p 1
    | some (st, _) =>
      let x := t.link p
      match smapGet none x.open_ f.lchan.toNat with
      | none => t
      | some o =>
        let total := leNat ((o.head.drop 0x1C).take 1) * leNat ((o.head.drop 0x20).take 2)
        let o := { o with codes := (o.codes ++ f.payload.take 240).take total }
        if o.codes.length < total then t.setLink p { x with open_ := smapSet none x.open_ f.lchan.toNat (some o) }
        else (t.setLink p { x with open_ := smapSet none x.open_ f.lchan.toNat none }).rxTile p st f.src.toNat o

/-- TILE_DATA: what it does once the port takes the flit. -/
def execTileData (now : Nat) (p : Fin 4) (f : Flit) (s : State) : Host.Outcome State Fault Refusal :=
  .next ((s.advance now).rxFlit p.val f (fun t => t.onHop p.val f (t.takeTileData p.val f)))

/-- TILE_ABORT (R349): the open tile of the channel is torn (R165). -/
def State.takeTileAbort (t : State) (p : Nat) (f : Flit) : State :=
  if (t.linkStation 9 p f.lchan.toNat).isNone then t.addHold .LNK_PNOCHAN_COUNT p 1
  else
    let x := t.link p
    match smapGet none x.open_ f.lchan.toNat with
    | some o =>
      ((t.setLink p { x with open_ := smapSet none x.open_ f.lchan.toNat none }).tear o.slot).leaveTile (t.ring o.ring).prod
    | none => t

/-- TILE_ABORT: what it does once the port takes the flit. -/
def execTileAbort (now : Nat) (p : Fin 4) (f : Flit) (s : State) : Host.Outcome State Fault Refusal :=
  .next ((s.advance now).rxFlit p.val f (fun t => t.onHop p.val f (t.takeTileAbort p.val f)))

/-- CREDIT (R343). -/
def State.takeCredit (t : State) (p : Nat) (f : Flit) : State :=
  let x := t.link p
  let c := f.lchan.toNat
  t.setLink p { x with credits := smapSet 0 x.credits c (smapGet 0 x.credits c + f.num 0 1) }

/-- CREDIT: what it does once the port takes the flit. -/
def execCredit (now : Nat) (p : Fin 4) (f : Flit) (s : State) : Host.Outcome State Fault Refusal :=
  .next ((s.advance now).rxFlit p.val f (fun t => t.onHop p.val f (t.takeCredit p.val f)))

/-! ### Tiles out (R102, R343, R344) -/

/-- The codes of a tile in the order of its vectors and elements, and how many saturated. -/
def State.linkCodes (s : State) (st : Nat) (r : SlotRef) (recip : Nat) : List Byte × Nat :=
  let y := s.station st
  let fmt := s.hdrFmt r
  let n := s.hdrNelem r
  let cs := (List.range (s.hdrNvec r)).flatMap (fun v =>
    (s.tileVec r fmt n v).map (fun e =>
      if e.2 then ((0x80#8 : Byte), false)
      else
        let c := linkCode (elemVal fmt y.inExp e.1) recip
        (BitVec.ofInt 8 c.1, c.2)))
  (cs.map (·.1), (cs.filter (·.2)).length)

/-- Flits that a tile takes. -/
def State.tileFlits (s : State) (r : SlotRef) : Nat := 1 + (s.hdrNvec r * s.hdrNelem r + 239) / 240

/-- Link-send stations of a port with a tile to send, with its ring. -/
def State.senders (s : State) (p : Nat) : List (Nat × SlotRef) :=
  (s.stations.filter (fun e => e.2.kind == 8 && e.2.state != 0 && e.2.holds.isEmpty)).flatMap (fun e =>
    (e.2.ins.filter (fun h => (s.ring h).lport == p && s.slot (s.nextRd h) == 2 && s.slotOn (s.nextRd h))).map (fun h => (e.1, h)))

/-- The weight of an owner on a port (R344). -/
def State.linkWeight (s : State) (p owner : Nat) : Nat :=
  if owner = 0 then
    let ts := ((s.stations.filter (fun e => 8 ≤ e.2.kind && e.2.state != 0 && e.2.owner != 0 &&
      (e.2.ins ++ e.2.outs).any (fun h => (s.ring h).lport == p))).map (fun e => e.2.owner)).dedup
    max 16 (256 - (ts.map (fun t => (s.quota t).link)).sum)
  else (s.quota owner).link

/-- The next station of an owner after the one served last, in ascending order round. -/
def nextAfter (last : Nat) (xs : List (Nat × SlotRef)) : Option (Nat × SlotRef) :=
  match xs.find? (fun e => last < e.1) with
  | some e => some e
  | none => xs.head?

/-- Deficit round-robin: the owner, its station and the deficits when it may send; `fuel` bounds the rounds. -/
def State.drr (s : State) (p : Nat) (xs : List (Nat × SlotRef)) : SMap Int → Nat → Option (Nat × SlotRef × SMap Int)
  | _, 0 => none
  | df, fuel + 1 =>
    let owners := (xs.map (fun e => (s.station e.1).owner)).dedup
    let cand (o : Nat) : Option (Nat × SlotRef) :=
      nextAfter (smapGet 0 (s.link p).lastSt o) (xs.filter (fun e => (s.station e.1).owner == o))
    let pick := (List.range 129).findSome? (fun o =>
      if owners.contains o then
        (match cand o with
          | some e => if (s.tileFlits (s.nextRd e.2) : Int) ≤ smapGet 0 df o then some (o, e) else none
          | none => none)
      else none)
    match pick with
    | some (o, e) => some (e.1, e.2, smapSet 0 df o (smapGet 0 df o - s.tileFlits (s.nextRd e.2)))
    | none =>
      s.drr p xs (owners.foldl (fun (m : SMap Int) o => smapSet 0 m o (smapGet 0 df o + s.linkWeight p o)) []) fuel

/-- Groups of 240 codes. -/
def chunks (bs : List Byte) : List (List Byte) := groupBy 240 bs bs.length

/-- Sends the tile of a station: head and data; the slot is Reading until the last flit is acknowledged. -/
def State.sendTile (s : State) (p st : Nat) (h : SlotRef) : State :=
  let x := s.ring h
  let r := s.nextRd h
  let y := s.station st
  let s := s.readEcc (fnMaster y.owner) (s.slotAddr r) (64 + s.hdrNvec r * s.hdrStride r)
  let c := s.linkCodes st r x.recip.toNat
  let s := (((s.setSlot r 3).stepRd h).enterTile st).addHold .LNK_PSATCNT_COUNT p c.2
  let s := s.sendFrame p 1 x.lchan x.peer (s.bytes (s.slotAddr r) 64 ++ leBytes 4 x.scale.toNat)
  let s := (chunks c.1).foldl (fun u bs => u.sendFrame p 2 x.lchan x.peer bs) s
  let l := s.link p
  s.setLink p { l with credits := smapSet 0 l.credits x.lchan (smapGet 0 l.credits x.lchan - 1), lastSt := smapSet 0 l.lastSt y.owner st, sending := l.sending ++ [{ st := st, slot := r, ring := h, lchan := x.lchan, left := 1 + (chunks c.1).length }] }

/-- A torn tile is taken and discarded by a link-send station (R165). -/
def State.dropTorn (s : State) (st : Nat) (h : SlotRef) : State :=
  let r := s.nextRd h
  ((s.tornTaken st r).emptySlot r).stepRd h

/-- LINK_SEND_TILE (R343, R344): the share of an owner with nothing to send lapses; torn tiles go first; a station whose port is not up, or whose peer is another, takes none and
reports its outage once. -/
def execLinkSendTile (now : Nat) (p : Fin 4) (s : State) : Host.Outcome State Fault Refusal :=
  let s := s.advance now
  let xs := s.senders p.val
  let fit (e : Nat × SlotRef) : Bool := s.linkUp p.val && (s.ring e.2).peer == s.getF .LNK_PSTAT_PEER p.val
  let out := xs.filter (fun e => !(fit e) && !((s.link p.val).outage.contains e.1))
  let good := xs.filter fit
  if !(s.dieOn 1) then .next s
  else
    let s := out.foldl
      (fun u e => (u.setLink p.val { u.link p.val with outage := (u.link p.val).outage ++ [e.1] }).raise 0x20A
        (u.station e.1).owner 0xFF p.val e.1 []) s
    match good.find? (fun e => s.torn (s.nextRd e.2)) with
    | some e => .next (s.dropTorn e.1 e.2)
    | none =>
      let x := s.link p.val
      let ready := good.filter (fun e => x.held.isEmpty && 0 < smapGet 0 x.credits (s.ring e.2).lchan)
      let deficit := x.deficit.filter (fun e => xs.any (fun y => (s.station y.1).owner == e.1))
      match s.drr p.val ready deficit 256 with
      | some (st, h, df) => .next ((s.setLink p.val { s.link p.val with deficit := df }).sendTile p.val st h)
      | none => .next s

/-! ### Barriers, broadcasts and mailboxes (R345 to R347) -/

/-- A barrier or broadcast frame for another device goes on along LNK_ROUTE. -/
def State.relay (s : State) (p : Nat) (f : Flit) (type : Nat) (t : State) : State :=
  if s.portState p ≠ 4 then s
  else if f.dst.toNat = s.devId then t
  else s.sendTo f.dst.toNat type f.lchan.toNat f.payload

/-- A round of an instance that another device has sent: kept for the instance in progress, or ahead for the next. -/
def State.takeRound (s : State) (g inst k : Nat) : State :=
  let x := s.group g
  match x.inst with
  | some b =>
    if inst = x.count % 65536 then s.setGroup g { x with inst := some { b with rounds := b.rounds ++ [k] } }
    else if inst = (x.count + 1) % 65536 then s.setGroup g { x with early := x.early ++ [k] }
    else s
  | none => if inst = x.count % 65536 then s.setGroup g { x with early := x.early ++ [k] } else s

/-- A group whose records differ ends its instance and is disabled (R346). -/
def State.groupMismatch (s : State) (g : Nat) : State :=
  let s := s.endInstance g false true
  (s.setGroup g { s.group g with disabled := true }).raise 0x20B (s.group g).owner 0xFF 0xFF 0xFFFF (leBytes 1 g)

/-- BARRIER_FRAME (R345, R346). -/
def State.takeBarrier (t : State) (f : Flit) : State :=
  let g := f.num 0 1 % 64
  let x := t.group g
  let inst := f.num 1 2
  let k := f.num 3 1
  if !x.defined || x.scope ≠ 2 || x.disabled then t
  else if inst = 0 && k = 0 && !x.checked &&
      (f.num 4 1 != x.scope || f.num 5 1 != x.devmask || f.num 6 4 != x.timeout) then t.groupMismatch g
  else ((t.setGroup g { x with checked := true }).takeRound g inst k).sendRounds g

/-- BARRIER_FRAME: what it does once the port takes the flit. -/
def execBarrierFrame (now : Nat) (p : Fin 4) (f : Flit) (s : State) : Host.Outcome State Fault Refusal :=
  .next ((s.advance now).rxFlit p.val f (fun t => t.relay p.val f 5 (t.takeBarrier f)))

/-- BCAST_FRAME (R345): the value is kept for the instance and goes on along the binomial tree. -/
def State.takeBcast (t : State) (f : Flit) : State :=
  let g := f.num 0 1 % 64
  let x := t.group g
  let v : Word := BitVec.ofNat 32 (f.num 3 4)
  let ds := ranks x.devmask
  let step := (ds.idxOf t.devId + ds.length - ds.idxOf f.src.toNat) % max ds.length 1
  if !x.defined || x.scope ≠ 2 || x.disabled then t
  else
    let t := match x.inst with
      | some b =>
        if f.num 1 2 = x.count % 65536 then
          t.setGroup g { x with inst := some { b with value := some (b.value.getD v) } }
        else if f.num 1 2 = (x.count + 1) % 65536 then t.setGroup g { x with earlyVal := some (x.earlyVal.getD v) }
        else t
      | none => if f.num 1 2 = x.count % 65536 then t.setGroup g { x with earlyVal := some (x.earlyVal.getD v) } else t
    t.sendBcast g (clog2 (step + 1)) v

/-- BCAST_FRAME: what it does once the port takes the flit. -/
def execBcastFrame (now : Nat) (p : Fin 4) (f : Flit) (s : State) : Host.Outcome State Fault Refusal :=
  .next ((s.advance now).rxFlit p.val f (fun t => t.relay p.val f 6 (t.takeBcast f)))

/-- MBX_POST_FRAME (R347). -/
def State.takeMbxPost (t : State) (p : Nat) (f : Flit) : State :=
  let ch := f.num 0 1
  let n := f.num 1 1
  if ch < 64 && 1 ≤ n && n ≤ 16 && t.mbxBound ch && t.mbxSender ch = 0x30 + p && t.mbxTakes ch then
    t.mbxAccept ch ((List.range n).map (fun i => f.num (2 + 4 * i) 4))
  else t.addHold .LNK_PNOCHAN_COUNT p 1

/-- MBX_POST_FRAME: what it does once the port takes the flit. -/
def execMbxPostFrame (now : Nat) (p : Fin 4) (f : Flit) (s : State) : Host.Outcome State Fault Refusal :=
  .next ((s.advance now).rxFlit p.val f (fun t => t.onHop p.val f (t.takeMbxPost p.val f)))

/-- MBX_ACK_FRAME (R347). -/
def State.takeMbxAck (t : State) (p : Nat) (f : Flit) : State :=
  let ch := f.num 0 1
  if ch < 64 && t.mbxBound ch && t.mbxReceiver ch = 0x30 + p && t.mbxFull ch then
    t.mbxEmpty ch (f.num 1 1 % 2 == 1)
  else t

/-- MBX_ACK_FRAME: what it does once the port takes the flit. -/
def execMbxAckFrame (now : Nat) (p : Fin 4) (f : Flit) (s : State) : Host.Outcome State Fault Refusal :=
  .next ((s.advance now).rxFlit p.val f (fun t => t.onHop p.val f (t.takeMbxAck p.val f)))

/-- LINK_DOWN (R348). With EN cleared, or DIE.LINK off, the port is off; else it retries. -/
def execLinkDown (now : Nat) (p : Fin 4) (cause : LinkDownCause) (s : State) : Host.Outcome State Fault Refusal :=
  let s := s.advance now
  match cause with
  | .lanesLost => .next (if s.dieOn 1 then s.portDown p.val 6 else s)
  | .replays => .next (if s.dieOn 1 && 8 ≤ (s.link p.val).tries then s.portDown p.val 6 else s)
  | .domainOff => .next (s.portDown p.val 0)
  | .enCleared =>
    .next (s.onReg 0x20 .LNK_PCFG [p.val] 0
      (if s.bit .LNK_PCFG_EN p.val then
        ((s.portDown p.val 0).setF .LNK_PCFG_EN p.val 0).setF .LNK_PSTAT_REASON p.val 0
      else s))

end Sys2Proof.Machine
end

