-- ==== Sys2Proof/Machine/Sdac.lean ====
section
/-!
DEFINITION. The stimulus DAC: its output, spans and routes with their safe-value passage, board-test sessions and loopback
calibration (R140 to R151).
-/

namespace Sys2Proof.Machine
open Sys2Proof

/-! ### The sweep through the gain ranges (R112, R114, R146) -/

/-- Where the DAC stands in its sweep: the gain range, whether the level is the negative one, and whether it passes to the range's
span. -/
structure Sweep where
  range   : Nat
  neg     : Bool
  passing : Bool
deriving DecidableEq, Repr

/-- The sweep so many ns after its start: full calibration takes 20 us of settling and 16,384 samples of 40 ns a range, the two-point
check 256 samples a level, and each change of range begins with the passage of R147. DESIGN CHOICE: the ranges come in the order of
Table 5.2, the positive level first (log entry 89). -/
def sweepAt (full : Bool) (t : Nat) : Sweep :=
  if full then { range := min 3 (t / 675360), neg := false, passing := 675360 ≤ t && t < 2701440 && t % 675360 < 1004 }
  else
    let u := t + 1004
    { range := min 3 (u / 21484), neg := 11244 ≤ u % 21484 || 85936 ≤ u, passing := 1004 ≤ t && u < 85936 && u % 21484 < 1004 }

/-- The sweep in progress, while the DAC serves a cluster. -/
def State.sweep (s : State) : Option Sweep :=
  s.dac.serving.map (fun c => sweepAt (s.pass c).doing (s.time - (s.pass c).began))

/-- The measurement of a loopback calibration in hand: none for the load, else the span and whether the code is the negative one. -/
def State.loopStep (s : State) : Option (Nat × Bool) :=
  let t := s.time - s.dac.loop
  if t < 50000 then none else some ((Config.loopStage t).val / 2, (Config.loopStage t).val % 2 == 1)

/-- The span in force. -/
def State.spanNow (s : State) : Nat :=
  if s.bit .SDAC_STAT_LOOPBUSY 0 then (match s.loopStep with | some x => x.1 | none => s.getF .SDAC_CTL_SPAN 0)
  else match s.sweep with | some w => (calSetting w.range).1 | none => s.getF .SDAC_CTL_SPAN 0

/-- The DC level in force, as SDAC_LEVEL.DC holds it. -/
def State.dcNow (s : State) : Nat :=
  match s.sweep with
  | some w => if w.neg then 16384 - (calSetting w.range).2.2 else (calSetting w.range).2.2
  | none => s.getF .SDAC_LEVEL_DC 0

/-- A safe-value passage is in progress. -/
def State.passing (s : State) : Bool :=
  s.bit .SDAC_STAT_PASSAGE 0 || (match s.sweep with | some w => w.passing | none => false)

/-! ### The output (R140 to R144) -/

/-- Entry i of the sine table. -/
def sineTable (i : Nat) : Int := roundAway ((turn 4611599204741358747 28296773447188932 (i % 1024)).2) (2 ^ 48)

/-- The full-scale current of a span in uA (Table 5.1). -/
def spanMicroamp (n : Nat) : Int := match n with | 0 => 500 | 1 => 1000 | 2 => 2000 | _ => 4000

/-- The code that the generator puts out: the safe value during a passage, in mode 0 and while DIE.DAC is off; in a loopback
calibration the code nearest to 100 uA, then +6,144 or -6,144 from the safe value (R150). -/
def State.dacCode (s : State) : Int :=
  if !(s.dieOn 4) || s.passing then 8192
  else if s.bit .SDAC_STAT_LOOPBUSY 0 then
    match s.loopStep with
    | none => 8192 + roundAway (100 * 8192) (spanMicroamp s.spanNow).natAbs
    | some x => if x.2 then 8192 - 6144 else 8192 + 6144
  else
    match s.getF .SDAC_CTL_MODE 0 with
    | 1 => 8192 + roundAway ((s.getF .SDAC_LEVEL_AMP 0 : Int) * sineTable (s.dac.phase / 4194304)) 16384
    | 2 =>
      let dc := (BitVec.ofNat 14 s.dcNow).toInt
      8192 + max dc (-8191)
    | _ => 8192

/-- What the DAC can drive. -/
inductive DacDest where
  | line (c : Nat)
  | calout
deriving DecidableEq, Repr

/-- The destination of a ROUTE value; a reserved one is applied as none. -/
def destOf (route : Nat) : Option DacDest :=
  if route < 16 then some (.line route) else if route = 16 then some .calout else none

/-- The one destination that is driven: none while DIE.DAC is off; CALOUT in a loopback calibration (R141, R148, R150). -/
def State.dacDest (s : State) : Option DacDest :=
  if !(s.dieOn 4) then none
  else if s.bit .SDAC_STAT_LOOPBUSY 0 then some .calout
  else destOf s.connected

/-- The differential current at a destination, in uA / 8,192: SPAN x (n - 8,192) at the one selected, none elsewhere (R140, R141). -/
def State.current (s : State) (d : DacDest) : Int :=
  if s.dacDest = some d then spanMicroamp s.spanNow * (s.dacCode - 8192) else 0

/-- CALOUT_P/N are high-impedance (R141). -/
def State.caloutHighZ (s : State) : Bool := !(s.dieOn 4)

/-- The current in uA that a calibration line turns into the converter full scale of 32 LSB_g at a gain range (R146), and the level
that a current on the line gives there, in LSB_g as a quotient. -/
def fullScale (g : Nat) : Nat := 2000 / 2 ^ g
def lineLevel (g : Nat) (i : Int) : Int × Nat := (32 * i, 8192 * fullScale g)

/-! ### The commands -/

/-- The identity of the physical function, or of the active management processor (Table 11.5). -/
def State.dacMaster (s : State) (byHost : Bool) : Nat := if byHost then 0x20 else s.getF .GCTL_MGR_ACTIVE 0

/-- SDAC_SPAN_ROUTE_CHANGE (R147, R149): outside its session the physical function's write is discarded, and in it the only
route is CALOUT; the management processor writes outside sessions. A change starts a passage or extends one. -/
def execSdacSpanRouteChange (now : Nat) (byHost : Bool) (span : BitVec 2) (route : BitVec 5) (s : State) :
    Host.Outcome State Fault Refusal :=
  let s := s.advance now
  let old := s.getF .SDAC_CTL_ROUTE 0
  let dest := if byHost && route.toNat != 0x10 then old else route.toNat
  let t := if s.bit .SDAC_STAT_OWNER 0 != byHost then s
    else if s.spanNow = span.toNat && old = dest then s
    else s.dacPassage span.toNat dest
  .next (s.onReg (s.dacMaster byHost) .SDAC_CTL [] 0 t)

/-- PASSAGE_END (R147): 1,004 ns after the last change the generator's output has resumed. -/
def execPassageEnd (now : Nat) (s : State) : Host.Outcome State Fault Refusal :=
  let s := s.advance now
  if s.bit .SDAC_STAT_PASSAGE 0 && s.dac.passUntil ≤ s.time then .next (s.setF .SDAC_STAT_PASSAGE 0 0) else .next s

/-- SDAC_FTW_WRITE (R143, R145, R149): the phase accumulator goes on. -/
def execSdacFtwWrite (now : Nat) (byHost : Bool) (v : Word) (s : State) : Host.Outcome State Fault Refusal :=
  let s := s.advance now
  let t := if s.bit .SDAC_STAT_OWNER 0 != byHost then s else s.setF .SDAC_FTW_FTW 0 (min v.toNat 0x33333333)
  .next (s.onReg (s.dacMaster byHost) .SDAC_FTW [] 0 t)

/-- Whether the die is in a cold or warm start: before step 6, or with a cluster under power that is not yet in full
service. -/
def State.starting (s : State) : Bool :=
  s.getF .GCTL_START_STEP 0 < 6 || (List.range 16).any (fun c => s.sharedOn c && s.bringup c)

/-- SESSION_REQUEST (R149). -/
def execSessionRequest (now : Nat) (s : State) : Host.Outcome State Fault Refusal :=
  let s := s.advance now
  .next (s.onReg 0x20 .SDAC_CTL [] 0 (s.setF .SDAC_CTL_SESSION 0 1))

/-- SESSION_GRANT (R149): once no cluster calibration is running or queued, and not during a start. -/
def execSessionGrant (now : Nat) (s : State) : Host.Outcome State Fault Refusal :=
  let s := s.advance now
  if s.dieOn 4 && s.bit .SDAC_CTL_SESSION 0 && !(s.bit .SDAC_STAT_OWNER 0) && s.dac.serving.isNone &&
      s.dac.queue.isEmpty && !s.starting then
    .next { s.setF .SDAC_STAT_OWNER 0 1 with dac := { s.dac with granted := s.time } }
  else .next s

/-- The end of a session, or of its request: a loopback calibration in progress ends with it, and the DAC passes to the safe
value with no destination. -/
def State.sessionOver (s : State) : State :=
  let s := s.setF .SDAC_CTL_SESSION 0 0
  if s.bit .SDAC_STAT_OWNER 0 then
    let s := ((s.setF .SDAC_STAT_OWNER 0 0).setF .SDAC_STAT_LOOPBUSY 0 0).setF .SDAC_CTL_MODE 0 0
    s.dacPassage (s.getF .SDAC_CTL_SPAN 0) 0x1F
  else s

/-- SESSION_END (R149). -/
def execSessionEnd (now : Nat) (s : State) : Host.Outcome State Fault Refusal :=
  let s := s.advance now
  .next (s.onReg 0x20 .SDAC_CTL [] 0 s.sessionOver)

/-- SESSION_TIMEOUT (R149): 100 ms after the grant. -/
def execSessionTimeout (now : Nat) (s : State) : Host.Outcome State Fault Refusal :=
  let s := s.advance now
  if s.bit .SDAC_STAT_OWNER 0 && s.dac.granted + 100000000 ≤ s.time then .next s.sessionOver else .next s

/-- LOOPCAL (R150): discarded outside a session. -/
def execLoopcal (now : Nat) (s : State) : Host.Outcome State Fault Refusal :=
  let s := s.advance now
  .next (s.onReg 0x20 .SDAC_CTL [] 0 
    (if s.bit .SDAC_STAT_OWNER 0 then { s.setF .SDAC_STAT_LOOPBUSY 0 1 with dac := { s.dac with loop := s.time } } else s))

/-- LOOPCAL_DONE (R150): the load sensed, and above 2,000 ohms, outside 180 to 220 ohms, or in that range the outcome. The
trims of the four spans are set from the measurements by a rule that the manual does not give: free values, which go to Q0 of
Sett. -/
def execLoopcalDone (now : Nat) (ohms : Nat) (s : State) : Host.Outcome State Fault Refusal :=
  let s := s.advance now
  if s.bit .SDAC_STAT_LOOPBUSY 0 then
    let s := (s.setF .SDAC_STAT_LOOPBUSY 0 0).setF .SDAC_LOAD_OHMS 0 (min ohms 65535)
    if 2000 < ohms then .next ((s.setF .SDAC_STAT_RESULT 0 1).raise 0x207 0 0xFF 0xFF 0xFFFF [1#8])
    else if ohms < 180 || 220 < ohms then .next ((s.setF .SDAC_STAT_RESULT 0 2).raise 0x207 0 0xFF 0xFF 0xFFFF [2#8])
    else
      let v := (List.range 4).map (fun i => Config.freeNat (s.fresh + i))
      .next { ({ s with fresh := s.fresh + 4 }).setF .SDAC_STAT_RESULT 0 3 with dac := { s.dac with spanTrim := v, settTrim := v } }
  else .next s

end Sys2Proof.Machine
end

