-- ==== Sys2Proof/Machine/Tmv.lean ====
section
/-!
DEFINITION. The tile movers (R164, R165, R178, R303).
-/

namespace Sys2Proof.Machine
open Sys2Proof

/-- The staging ring of a transfer. -/
def State.stageOf (s : State) (x : Xfer) : Option SlotRef := s.ringOf x.src

/-- Whether an earlier tile of a transfer's staging ring has been refused and waits to be offered again. -/
def State.behindRefused (s : State) (m : Tmv) (x : Xfer) : Bool := m.refused.any (fun y => s.stageOf y == s.stageOf x)

/-- A transfer is refused (R164): it counts in TMV_ERR and leaves the queue, its source slot is Full, and the tile is to be
offered again. -/
def State.tmvRefuse (s : State) (core : Nat) (m : Tmv) (x : Xfer) : State :=
  let m2 := { m with cur := none, refused := m.refused ++ [{ x with slot := none }] }
  ((s.setTmv core (m2.queued (m.all.filter (fun y => y != x)))).setSlot x.src 2).addHold .TMV_ERR_COUNT core 1

/-- The bytes that a tile occupies in its slot: the header alone where the tile is torn. -/
def State.tileLen (s : State) (r : SlotRef) : Nat :=
  if (s.hdrFlags r).testBit 2 then 64 else 64 + s.hdrNvec r * vstride (s.hdrFmt r) (s.hdrNelem r)

/-- TMV_TRANSFER (R164, R303): the first queued transfer that no refused tile of its ring precedes starts into the next slot of
its target ring, once that is Empty; with the target's domain off it is refused. -/
def execTmvTransfer (now : Nat) (cl : Cluster) (co : Core) (s : State) : Host.Outcome State Fault Refusal :=
  let s := s.advance now
  let core := coreIx cl co
  let m := s.tmv core
  match m.cur, m.queue.find? (fun x => !(s.behindRefused m x)) with
  | none, some x =>
    let r := s.nextWr x.dst
    if !(s.coreOn core) then .next s
    else if !(s.slotOn r) then .next (s.tmvRefuse core m x)
    else if !(s.ownsAll x.owner (s.slotAddr r) (s.ring x.dst).size) then
      .next ((s.tmvRefuse core m x).foreignCapture x.owner (s.slotAddr r))
    else if s.slot r = 0 then
      let y := { x with slot := some r, start := s.time }
      let s := ((s.setSlot r 1).stepWr x.dst).setSlot x.src 3
      .next (s.setTmv core ({ m with cur := some y }.queued (m.all.filter (fun z => z != x))))
    else .next s
  | _, _ => .next s

/-- Moves a tile into its target slot: payload, then the header, whose POISON flag is set where the payload holds poison or a
burst failed. The flag tells of a failed burst. -/
def State.carry (s : State) (master : Nat) (dst src : SlotRef) : State × Bool :=
  let a := s.slotAddr src
  let b := s.slotAddr dst
  let n := s.tileLen src
  let bad := s.readsPoison (a + 64) (n - 64)
  let s := s.moveBytes master (b + 64) (a + 64) (n - 64)
  let s := s.readEcc master a 64
  let hd := s.bytes a 64
  let flags := hd.getD 0x1F 0
  let w := s.writeMem master (fun _ => false) b (hd.set 0x1F (if bad then flags ||| 2#8 else flags))
  (w.1.setTorn dst ((flags &&& 4#8) != 0), w.2)

/-- TMV_TRANSFER_DONE (R164): the header is written last; the target is Full and the source Empty. -/
def execTmvTransferDone (now : Nat) (cl : Cluster) (co : Core) (s : State) : Host.Outcome State Fault Refusal :=
  let s := s.advance now
  let core := coreIx cl co
  let m := s.tmv core
  match m.cur, m.cur.bind (fun x => x.slot) with
  | some x, some r =>
    if s.coreOn core && s.slotOn r then
      let w := s.carry (fnMaster x.owner) r x.src
      let s := if w.2 then w.1.addHold .TMV_ERR_COUNT core 1 else w.1
      .next ((((s.fillSlot r).setTorn x.src false).emptySlot x.src).setTmv core { m with cur := none })
    else .next s
  | _, _ => .next s

/-- TMV_RETRY (R164): the first refused tile whose target is on and has an Empty slot is queued again, ahead of any later tile
of its staging ring. -/
def execTmvRetry (now : Nat) (cl : Cluster) (co : Core) (s : State) : Host.Outcome State Fault Refusal :=
  let s := s.advance now
  let core := coreIx cl co
  let m := s.tmv core
  match m.refused.find? (fun x => s.slotOn (s.nextWr x.dst) && s.slot (s.nextWr x.dst) == 0) with
  | some x =>
    if s.coreOn core then
      let before := m.all.takeWhile (fun y => s.stageOf y != s.stageOf x)
      let q := before ++ [x] ++ m.all.drop before.length
      .next (s.setTmv core ({ m with refused := m.refused.filter (fun y => y != x) }.queued q))
    else .next s
  | none => .next s

/-- A transfer under way is cut by a reset of its core or its owner (R165): a free number of its bytes is written, the target
slot is torn, and the source is Empty. -/
def State.tmvTear (s : State) (core : Nat) : State :=
  let m := s.tmv core
  match m.cur, m.cur.bind (fun x => x.slot) with
  | some x, some r =>
    let n := Config.freeNat s.fresh % (s.tileLen x.src - 63)
    let s := (s.burn.moveBytes (fnMaster x.owner) (s.slotAddr r + 64) (s.slotAddr x.src + 64) n).tear r
    (((s.setTorn x.src false).emptySlot x.src)).setTmv core { m with cur := none }
  | _, _ => s

/-- A transfer whose target's domain goes off ends as a refused one (R164). -/
def State.tmvLost (s : State) (core : Nat) : State :=
  let m := s.tmv core
  match m.cur with
  | some x => s.tmvRefuse core m x
  | none => s

end Sys2Proof.Machine
end

