-- ==== Sys2Proof/Machine/Domains.lean ====
section
/-!
DEFINITION. The power domains: what each needs to be on, switching on and off (R27 to R29, R110, R116, R198, R386, R387), and
the domain resets of DRST (R206).
-/

namespace Sys2Proof.Machine
open Sys2Proof

/-! ### The loss of memory -/

/-- A ring in memory that loses its contents (R206): each Full tile is lost and counts in its consumer's TORNCNT, and every
slot is Empty. -/
def State.ringLose (s : State) (h : SlotRef) : State :=
  let x := s.ring h
  let s := (List.range x.len).foldl
    (fun t i =>
      let r := h.nth i
      let t := if t.slot r = 2 then t.count x.cons 2 1 else t
      (t.setSlot r 0).setTorn r false) s
  s.setRing h { x with wr := 0, rd := 0, owed := [] }

/-- The rings that lie in one memory. -/
def State.ringsIn (s : State) (km : Bool) (unit : Nat) : List SlotRef :=
  (s.rings.map (fun e => slotOfKey e.1)).filter (fun h => h.km == km && h.unit == unit)

/-- Transfers of other tile movers into a memory whose domain goes off end as refused ones (R164); tiles that a link port
receives into it are gone. -/
def State.dropWriters (s : State) (km : Bool) (unit : Nat) : State :=
  let hit (r : SlotRef) : Bool := r.km == km && r.unit == unit
  let s := (List.range 128).foldl
    (fun t c => match (t.tmv c).cur.bind (fun x => x.slot) with
      | some r => if hit r then t.tmvLost c else t
      | none => t) s
  let ls : SMap Link := s.links.map (fun e => (e.1, { e.2 with open_ := e.2.open_.map (fun o => (o.1, match o.2 with | some t => if hit t.slot then none else some t | none => none)) }))
  { s with links := ls }

/-- The fields of a block's registers that are lost while its domain is off, with how many of each a unit holds. What R87,
R88, R139, R32 and R185 keep, and the slot tables, are not among them. -/
def lostRegs (b : Block) : List Reg :=
  (pfRegs.filter (fun r => r.info.block == b)).filter (fun r =>
    !([Reg.ME_PHCNT, .ME_SKIPCNT, .ME_SATCNT, .ME_SPLITCNT, .ME_ESCCNT, .ME_ESCMISS, .ME_ACCSAT, .ME_REMAP, .ME_RGSTAT,
      .ME_CALSTAT, .ME_KACNT, .CCTL_EMAP, .CMC_SLOT, .KMC_SLOT, .KMC_STN_SATCNT, .KMC_STN_POISCNT, .KMC_STN_TORNCNT,
      .KMC_STN_LATECNT, .KMC_STN_UNMATCH].contains r))

/-- Replications of a register in one unit: a core has two outer dimensions, a cluster one. -/
def Reg.perUnit (r : Reg) (b : Block) : Nat := ((r.info.dims.drop (if b = .core then 2 else 1)).map (·.2)).prod

/-- Returns the lost registers of a unit to their reset values. -/
def State.regsLost (s : State) (b : Block) (unit : Nat) : State :=
  let codes := (lostRegs b).flatMap (fun r => r.fields.map (fun f => (f.code, r.perUnit b)))
  { s with regs := s.regs.filter (fun e =>
      match codes.find? (fun c => c.1 == keyCode e.1) with
      | some c => keyRep e.1 / c.2 != unit
      | none => true) }

/-! ### Cores -/

/-- Clears an engine of what it works on; its operation word stays. -/
def Engine.cleared (e : Engine) : Engine := { Engine.idle with opw := e.opw, station := e.station, rg := e.rg, neg := e.neg }

/-- The stations with a descriptor on a core. -/
def State.onCore (s : State) (core : Nat) : List Nat :=
  (s.stations.filter (fun e => e.2.state != 0 && hasDesc e.2.kind && e.2.core == core)).map (·.1)

/-- The warm reset of a core (R206): tiles in progress are abandoned and their output slots torn, input slots that its
stations hold are Empty, grants, windows and latches are cleared. What the OCU has queued for the core stays and is served without
effect (R42), its vectors being gone; what the stepper holds goes with it. -/
def State.warmReset (s : State) (core : Nat) : State :=
  let s := s.tmvTear core
  let s := (s.coreTiles core).foldl
    (fun t x =>
      let t := x.outs.foldl (fun u r => (u.tear r).tmvQueue r) t
      (x.ins ++ x.parts ++ x.gone).foldl (fun u r => if u.slot r = 3 then (u.emptySlot r).setTorn r false else u) t) s
  let s := s.setCoreTiles core []
  let s := (s.onCore core).foldl
    (fun t st =>
      let y := t.station st
      let rs := t.inRings st ++ (t.desc y.core y.d).partRings y.core
      let t := rs.foldl
        (fun u h => (List.range (u.ring h).len).foldl
          (fun v i => if v.slot (h.nth i) = 3 then (v.emptySlot (h.nth i)).setTorn (h.nth i) false else v) u) t
      t.setStation st { y with grants := 0, window := [], state := if y.state = 2 then y.rest else y.state }) s
  let s := (List.range 17).foldl (fun t e => t.setEngine (engIx core e) (t.engine (engIx core e)).cleared) s
  let c := core / 8
  let o := s.ocu c
  s.setOcu c { o with queue := o.queue.map (fun r => if r.core == core then { r with d := 64, terms := [] } else r), held := o.held.filter (fun r => r.core != core) }

/-- A core's domain goes off: what its memory holds is lost (R29), and what its engines' windows show (log entry 77). -/
def State.coreOff (s : State) (core : Nat) : State :=
  let s := (s.cutCopies (fun a => memOf a == Mem.cm core (a % 0x80000))).warmReset core
  let s := (List.range 17).foldl (fun t e => t.setEngine (engIx core e) Engine.idle) s
  let s := (s.dropWriters false core).setTmv core Tmv.idle
  let s := (s.ringsIn false core).foldl State.ringLose s
  let s := s.zeroFill (cmBase core) 0x80000
  let s := { s with cmWait := s.cmWait.filter (fun r => r.core != core), scrubs := s.scrubs.filter (fun w => memOf (8 * w) != Mem.cm core ((8 * w - 0x4000000) % 0x80000)) }
  s.setF .CPT_DOM_CORE (core / 8) (withBit (s.getF .CPT_DOM_CORE (core / 8)) (core % 8) false)

/-- The management processor rewrites a core's descriptors from the loaded bit-streams (R198). -/
def State.rewriteDescs (s : State) (core : Nat) : State :=
  s.parts.foldl
    (fun t e => match e.2 with
      | some p => (p.images.filter (fun i => i.1 == core)).foldl
          (fun u i => u.store (descAddr core i.2.1) (i.2.2.flatMap (fun w => leBytes 4 w.toNat))) t
      | none => t) s

/-- The band in which an engine's stored trims were taken. -/
def State.trimBand (s : State) (pe : Nat) : Nat := s.getF .ME_CALSTAT_BAND pe

/-- Requests the calibration of a core's engines as it powers up (R116): a two-point check where the stored trims are of the
cluster's band, full calibration where they are not. -/
def State.calOnPower (s : State) (core : Nat) : State :=
  let c := core / 8
  let es := (List.range 17).map (engIx core)
  let two := es.filter (fun pe => s.trimBand pe == s.band c)
  let full := es.filter (fun pe => s.trimBand pe != s.band c)
  let s := if two.isEmpty then s else s.queueCal c { CalPass.idle with engines := two, band := s.band c }
  if full.isEmpty then s else s.queueCal c { CalPass.idle with full := true, engines := full, band := s.band c }

/-- A core's domain comes on: its memory is zero (R29), its registers are at reset, its trackers restart (R110), its engines
are to be calibrated (R116), and its descriptors are rewritten (R198). -/
def State.coreUp (s : State) (core : Nat) : State :=
  let waiting := s.resets.any (fun r => r.cores.contains core)
  let s := (s.zeroFill (cmBase core) 0x80000).regsLost .core core
  let s := if waiting then s.setF .STP_STAT_STATE core 3 else s
  let s := s.setF .CPT_DOM_CORE (core / 8) (withBit (s.getF .CPT_DOM_CORE (core / 8)) (core % 8) true)
  let s := (List.range 17).foldl
    (fun t e => (List.range 4).foldl (fun u r => u.trackerStart (engIx core e) r) t) s
  (s.calOnPower core).rewriteDescs core

/-! ### Shared domains -/

/-- The management processor rewrites a cluster's program memory from the loaded bit-streams (R188). -/
def State.rewriteProgs (s : State) (c : Nat) : State :=
  s.parts.foldl
    (fun t e => match e.2 with
      | some p => (p.progs.filter (fun i => i.1 == c)).foldl
          (fun u i => u.store (kmBase c + 0x3F0000 + 4 * i.2.2.1) (i.2.2.2.flatMap (fun w => leBytes 4 w.toNat))) t
      | none => t) s

/-- A cluster's shared domain comes on: its memory is zero, its registers are at reset, its shard records are rebuilt from Sett
(R256) and its program memory from the loaded bit-streams. -/
def State.sharedUp (s : State) (c : Nat) : State :=
  let s := (s.shards.filter (fun e => e.2.cluster == c && e.2.state != 1)).foldl (fun t e => t.setShard e.1 e.2.rebuilt) s
  (((s.zeroFill (kmBase c) 0x400000).regsLost .shared c).setF .CPT_DOM_SHARED c 1).rewriteProgs c

/-- What the copy channel of a cluster moves is cut as its shared domain goes off (R207). -/
def State.clusterCut (s : State) (c : Nat) : State :=
  s.threads.foldl
    (fun t e => if e.1 / 8 = c then (t.cutCopy e.1).setThread e.1 { t.thread e.1 with wait := match e.2.wait with | .copy _ _ _ => .idle | w => w } else t) s

/-- A cluster's shared domain goes off. -/
def State.sharedOff (s : State) (c : Nat) : State :=
  let s := ((s.cutCopies (fun a => memOf a == Mem.km c (a % 0x400000))).clusterCut c).dropWriters true c
  let s := (s.ringsIn true c).foldl State.ringLose s
  let s := ((s.zeroFill (kmBase c) 0x400000).setOcu c Ocu.idle).setTrace c { s.trace c with recs := [], lost := 0, oldest := 0 }
  let s := { s with scrubs := s.scrubs.filter (fun w => memOf (8 * w) != Mem.km c ((8 * w) % 0x400000)) }
  s.setF .CPT_DOM_SHARED c 0

/-- The domains of a core that are off come on, the cluster's shared one first. -/
def State.coreOnNow (s : State) (core : Nat) : State :=
  let s := if s.sharedOn (core / 8) then s else s.sharedUp (core / 8)
  if s.coreOn core then s else s.coreUp core

/-! ### What a domain is needed for (Table 15.1) -/

/-- In Bear state or on the way there. -/
def State.bearing (s : State) : Bool := s.getF .GCTL_PWRST_STATE 0 == 1 || s.getF .GCTL_PWRST_STATE 0 == 2

/-- The die has shut down for its temperature (R405, R406). -/
def State.shutDown (s : State) : Bool := s.bit .THM_STAT_SHUT 0

/-- Whether a cluster may be under power at all. -/
def State.clusterAllowed (s : State) (c : Nat) : Bool :=
  !(s.bearing) && !(s.shutDown) && !(s.deadCls.contains c) && 6 ≤ s.getF .GCTL_START_STEP 0

/-- A Beaver instance has a step to do on a core, or reads its engines back. -/
def State.beaverNeeds (s : State) (core : Nat) : Bool :=
  let on (g : Nat) : Bool := g / 68 == core
  s.beavers.any (fun e => match e.2 with
    | some b => b.spare.any (fun w => coreOf w.pe == core) || b.erase.any on || b.rows.any (fun x => on x.1) || b.job.rgs.any on ||
        (match b.check with | some n => (s.shard n).rgs.any on | none => false)
    | none => false)

/-- A calibration of one of its engines is requested, a touch-up is due, a loader step or a read-back is under way. -/
def State.engineDue (s : State) (core : Nat) : Bool :=
  (s.passQ (core / 8)).any (fun p => p.engines.any (fun pe => coreOf pe == core)) ||
  s.trackers.any (fun e => e.1 / 68 == core && e.2.due) || s.beaverNeeds core

/-- Whether a loaded partition claims a core. -/
def State.claimed (s : State) (core : Nat) : Bool :=
  s.parts.any (fun e => match e.2 with | some p => p.cores.contains core | none => false)

/-- Whether a loaded partition claims memory of a cluster. -/
def State.kmClaimed (s : State) (c : Nat) : Bool :=
  s.parts.any (fun e => match e.2 with | some p => p.km.any (fun x => x.1 == c) | none => false)

def State.needCore (s : State) (core : Nat) : Bool := s.clusterAllowed (core / 8) && (s.claimed core || s.engineDue core)

def State.anyCoreOn (s : State) (c : Nat) : Bool := s.getF .CPT_DOM_CORE c != 0

def State.needShared (s : State) (c : Nat) : Bool :=
  s.clusterAllowed c && (s.anyCoreOn c || s.kmClaimed c || (List.range 8).any (fun k => s.needCore (8 * c + k)))

/-- A calibration is requested, queued or running, or a session is asked for or held. -/
def State.dacNeeded (s : State) : Bool :=
  s.dac.serving.isSome || !(s.dac.queue.isEmpty) || s.bit .SDAC_CTL_SESSION 0 || s.bit .SDAC_STAT_OWNER 0

/-- A wake of a receiver of a class waits: of hosts (bit 0) or of peers (bit 1). -/
def State.wakeWaits (s : State) (host : Bool) : Bool := s.wakes.any (fun ch => isHost (s.mbxReceiver ch) == host)

/-- Whether a domain of the die is to be on: bits 0 HOST, 1 LINK, 2 GATE, 3 LOADER, 4 DAC, 5 OBS. -/
def State.needDie (s : State) (b : Nat) : Bool :=
  match b with
  | 0 => !(s.perst && s.bearing) || s.wakeWaits true
  | 1 => !(s.bit .PWR_DIEDOM_LINK_OFF 0) && !(s.shutDown) &&
      ((List.range 4).any (fun p => s.bit .LNK_PCFG_EN p) || s.wakeWaits false)
  | 2 => !(s.bearing) && !(s.shutDown)
  | 3 => !(s.bearing) && !(s.shutDown)
  | 4 => s.dacNeeded && !(s.bearing) && !(s.shutDown)
  | _ => 6 ≤ s.getF .GCTL_START_STEP 0 && !(s.bit .PWR_DIEDOM_OBS_OFF 0) && !(s.shutDown)

/-! ### Switching -/

/-- A domain of the die is switched; from step 5 of the start the core PLL runs unless the device is always-on only (R20, R372). -/
def State.setDie (s : State) (b : Nat) (v : Bool) : State :=
  let t := s.setF .PWR_DIEDOM_ON 0 (withBit (s.getF .PWR_DIEDOM_ON 0) b v)
  t.setPll (t.getF .PWR_DIEDOM_ON 0 != 0 && 5 ≤ t.getF .GCTL_START_STEP 0)

/-- Partial windows of the tensor watch points are discarded (R438). -/
def State.windowsDrop (s : State) : State :=
  let ps : SMap TensorPoint := s.points.map (fun e => (e.1, { TensorPoint.idle with size := e.2.size, rank := e.2.rank }))
  { s with points := ps }

/-- A domain of the die comes on (R148, R151, R325, R338, R438). DEDUCED: an enabled port trains again (log entry 101). The DAC comes up
disconnected. DESIGN CHOICE: its phase accumulator starts
at 0 (log entry 55). -/
def State.dieUp (s : State) (b : Nat) : State :=
  let s := s.setDie b true
  match b with
  | 0 => s.deliverWakes (fun ch => isHost (s.mbxReceiver ch)) (fun _ => false)
  | 1 =>
    let s := (List.range 4).foldl (fun t p => if t.bit .LNK_PCFG_EN p then t.setF .LNK_PSTAT_STATE p 1 else t) s
    s.deliverWakes (fun _ => false) (fun ch => !(isHost (s.mbxReceiver ch)) && !(s.bit .LNK_PCFG_EN (s.mbxReceiver ch - 0x30)))
  | 4 =>
    let s := { s with dac := { s.dac with spanTrim := s.dac.settTrim, phase := 0, was := 0x1F, switchAt := s.time + 1 } }
    s.dacPassage (s.getF .SDAC_CTL_SPAN 0) (s.getF .SDAC_CTL_ROUTE 0)
  | 5 => s.windowsDrop
  | _ => s

/-- A domain of the die goes off; with the links' domain every port goes down (R348). -/
def State.dieOff (s : State) (b : Nat) : State :=
  let s := if b = 1 then (List.range 4).foldl (fun t p => t.portDown p 0) s else s
  s.setDie b false

/-- A cluster's turn under the inrush limit (R387): it is the one switched on in the last 20 us, or that time is over and no
lower cluster waits. -/
def State.inrushOk (s : State) (c : Nat) : Bool :=
  let waits (d : Nat) : Bool :=
    (s.needShared d && !(s.sharedOn d)) || (List.range 8).any (fun k => s.needCore (8 * d + k) && !(s.coreOn (8 * d + k)))
  if s.onCl = c && s.time < s.onAt + 20000 then true
  else (s.onCl = 16 || s.onAt + 20000 ≤ s.time) && (List.range c).all (fun d => !(waits d))

def State.switched (s : State) (c : Nat) : State :=
  if s.onCl = c && s.time < s.onAt + 20000 then s else { s with onCl := c, onAt := s.time }

/-- The bit of a die domain in PWR_DIEDOM.ON. -/
def dieBit : Domain → Option Nat
  | .host => some 0
  | .link => some 1
  | .gate => some 2
  | .loader => some 3
  | .dac => some 4
  | .obs => some 5
  | _ => none

/-- DOMAIN_SWITCH_ON (R29, R386, R387): a domain that is needed and off comes on. -/
def execDomainSwitchOn (now : Nat) (d : Domain) (s : State) : Host.Outcome State Fault Refusal :=
  let s := s.advance now
  match d with
  | .core cl co =>
    let core := coreIx cl co
    if s.needCore core && !(s.coreOn core) && s.inrushOk cl.val then .next ((s.switched cl.val).coreOnNow core) else .next s
  | .shared cl =>
    if s.needShared cl.val && !(s.sharedOn cl.val) && s.inrushOk cl.val then .next ((s.switched cl.val).sharedUp cl.val)
    else .next s
  | _ =>
    match dieBit d with
    | some b => if s.needDie b && !(s.dieOn b) then .next (s.dieUp b) else .next s
    | none => .next s

/-- DOMAIN_SWITCH_OFF (R386, R387): a domain that is on and no longer needed goes off, never with a tile in progress in it. -/
def execDomainSwitchOff (now : Nat) (d : Domain) (s : State) : Host.Outcome State Fault Refusal :=
  let s := s.advance now
  match d with
  | .core cl co =>
    let core := coreIx cl co
    if !(s.needCore core) && s.coreOn core && (s.coreTiles core).isEmpty then .next (s.coreOff core) else .next s
  | .shared cl =>
    if s.sharedOn cl.val && !(s.needShared cl.val) then .next (s.sharedOff cl.val) else .next s
  | _ =>
    match dieBit d with
    | some b => if !(s.needDie b) && s.dieOn b then .next (s.dieOff b) else .next s
    | none => .next s

/-- DIEDOM_OFF_REQUEST (R386). -/
def execDiedomOffRequest (now : Nat) (link : Bool) (off : Bool) (s : State) : Host.Outcome State Fault Refusal :=
  let s := s.advance now
  .next (if link then s.setB .PWR_DIEDOM_LINK_OFF 0 off else s.setB .PWR_DIEDOM_OBS_OFF 0 off)

/-! ### Domain resets (R206) -/

/-- A core in domain reset starts no tile: STP_STAT.STATE is 3. -/
def State.enterReset (s : State) (cold : Bool) (core : Nat) : State :=
  let s := if cold then s.coreOff core else s.warmReset core
  s.setF .STP_STAT_STATE core 3

/-- DRST. -/
def execDrst (now : Nat) (cl : Cluster) (th : Thread) (w : Word) (s : State) : Host.Outcome State Fault Refusal :=
  let i := thIx cl th
  let f := fieldsOf w
  let cold := f.low.testBit 8
  let cores := ((List.range 8).filter (fun k => f.low.testBit k)).map (fun k => 8 * cl.val + k)
  seqRow now 0x1F w s (fun s => s.issue i w 1 (fun t =>
    let mine := match t.part (t.thOwner i) with | some p => cores.all (fun c => p.cores.contains c) | none => cores.isEmpty
    if !mine then t.seqHalt i 0x03
    else if cores.isEmpty then (t.setPred i 7 true).setPc i (t.pc i + 1)
    else
      let t := cores.foldl (fun u c => u.enterReset cold c) t
      let t := { t with resets := t.resets ++ [DomReset.mk i cold cores] }
      (t.block i 5 (.reset cold cores)).setPc i (t.pc i + 1)))

/-- Whether a core is back in service: for a cold reset its domain is on and the check of its engines has ended. -/
def State.backInService (s : State) (cold : Bool) (core : Nat) : Bool :=
  !cold || (s.coreOn core && !((s.passQ (core / 8)).any (fun p => p.engines.any (fun pe => coreOf pe == core))))

/-- DOMAIN_RESET_DONE (R206): the oldest reset that a thread has asked for ends, whether the thread still waits for it or has been
restarted; a core that another reset still holds stays in reset. -/
def execDomainResetDone (now : Nat) (cl : Cluster) (th : Thread) (s : State) : Host.Outcome State Fault Refusal :=
  let i := thIx cl th
  let s := s.advance now
  match s.resets.find? (fun r => r.th == i) with
  | some r =>
    if r.cores.all (fun c => s.backInService r.cold c) then
      let s := r.cores.foldl (fun t c => if t.resets.any (fun q => q.cores.contains c) then t else t.setF .STP_STAT_STATE c 1) { s with resets := s.resets.erase r }
      let waits := match (s.thread i).wait with | .reset _ _ => true | _ => false
      .next (if waits && s.resets.all (fun q => q.th != i) then s.resume i true else s)
    else .next s
  | none => .next s

end Sys2Proof.Machine
end

