-- ==== Sys2Proof/Machine/BsCheck.lean ====
section
/-!
DEFINITION. A configuration bit-stream as the loader reads it, and the checks of R234 (R214 to R235). Where a record has
several faults the lowest code of Table 8.10 is reported.
-/

namespace Sys2Proof.Machine
open Sys2Proof

/-! ### Reading a bit-stream -/

/-- A number of n bytes at an offset. -/
def bnum (bs : List Byte) (o n : Nat) : Nat := leNat ((bs.drop o).take n)

/-- A section-table entry (Table 8.2). -/
structure Sect where
  ty : Nat
  size : Nat
  off : Nat
  len : Nat
  count : Nat
deriving DecidableEq, Repr

/-- The section table. -/
def bsSects (bs : List Byte) : List Sect :=
  (List.range (bnum bs 0x0C 2)).map (fun i =>
    let o := 128 + 16 * i
    { ty := bnum bs o 2, size := bnum bs (o + 2) 2, off := bnum bs (o + 4) 4, len := bnum bs (o + 8) 4, count := bnum bs (o + 12) 4 })

/-- The record sizes of Table 8.4, 0 for variable ones; none for a type that does not exist. -/
def bsSize (ty : Nat) : Option Nat :=
  match ty with
  | 1 => some 16 | 2 => some 64 | 3 => some 272 | 4 => some 48 | 5 => some 0 | 6 => some 168 | 7 => some 64 | 8 => some 0
  | 9 => some 0 | 10 => some 32 | 11 => some 200 | 12 => some 64 | 13 => some 32 | 14 => some 32 | 15 => some 8 | 16 => some 8
  | _ => none

/-- Rounds up to a multiple of 8. -/
def up8 (n : Nat) : Nat := (n + 7) / 8 * 8

/-- The length of a variable record at an offset (R223, R226, R227). -/
def bsVarLen (bs : List Byte) (ty o : Nat) : Nat :=
  match ty with
  | 5 => 8 + 8 * bnum bs (o + 4) 2
  | 8 => 16 + up8 (4 * bnum bs (o + 4) 4)
  | _ => 16 + up8 (bnum bs (o + 8) 4 + 4 * bnum bs (o + 12) 4)

/-- The offsets of n variable records, none when they do not end with the section. -/
def bsWalk (bs : List Byte) (ty last : Nat) : Nat → Nat → Option (List Nat)
  | 0, o => if o = last then some [] else none
  | n + 1, o =>
    let e := o + bsVarLen bs ty o
    if o + 8 ≤ last && e ≤ last then (bsWalk bs ty last n e).map (fun os => o :: os) else none

/-- The offsets of a section's records, none where COUNT does not agree with the section's length. -/
def Sect.records (s : Sect) (bs : List Byte) : Option (List Nat) :=
  match bsSize s.ty with
  | some 0 => bsWalk bs s.ty (s.off + s.len) s.count s.off
  | some n => if s.count * n = s.len then some ((List.range s.count).map (fun i => s.off + n * i)) else none
  | none => none

/-- The offsets of the records of a type, in the bit-stream's order. -/
def bsRecs (bs : List Byte) (ty : Nat) : List Nat :=
  match (bsSects bs).find? (fun s => s.ty == ty) with
  | some s => (s.records bs).getD []
  | none => []

/-- Whether n bytes at an offset are zero. -/
def zeros (bs : List Byte) (o n : Nat) : Bool := bnum bs o n == 0

/-- A signed byte. -/
def sbyte (n : Nat) : Int := (BitVec.ofNat 8 n).toInt

/-- A STATIONS record (Table 8.6). -/
structure StRec where
  id : Nat
  kind : Nat
  flags : Nat
  inFmt : Nat
  inExp : Int
  outFmt : Nat
  outExp : Int
  name : List Byte
deriving DecidableEq, Repr

def stRec (bs : List Byte) (o : Nat) : StRec :=
  { id := bnum bs o 2 % 4096, kind := bnum bs o 2 / 4096, flags := bnum bs (o + 2) 1, inFmt := bnum bs (o + 4) 1, inExp := sbyte (bnum bs (o + 5) 1), outFmt := bnum bs (o + 6) 1, outExp := sbyte (bnum bs (o + 7) 1), name := (bs.drop (o + 0x10)).take 32 }

def StRec.sens (r : StRec) : Bool := r.flags.testBit 0

/-- A PLACEMENT record (Table 8.7). -/
structure PlRec where
  st : Nat
  cluster : Nat
  co : Nat
  d : Nat
  model : Nat
  layer : Nat
  image : List Word
deriving DecidableEq, Repr

def plRec (bs : List Byte) (o : Nat) : PlRec :=
  { st := bnum bs o 2, cluster := bnum bs (o + 2) 1, co := bnum bs (o + 3) 1, d := bnum bs (o + 4) 1, model := bnum bs (o + 8) 4, layer := bnum bs (o + 12) 2, image := (List.range 64).map (fun k => BitVec.ofNat 32 (bnum bs (o + 16 + 4 * k) 4)) }

def PlRec.core (p : PlRec) : Nat := 8 * p.cluster + p.co
def PlRec.word (p : PlRec) (k : Nat) : Nat := (p.image.getD k 0).toNat
def PlRec.desc (p : PlRec) : Desc := descOf p.word

/-- A ROUTES record (Table 8.8). -/
structure RtRec where
  prod : Nat
  pport : Nat
  kind : Nat
  cons : Nat
  cport : Nat
  mem : Nat
  cluster : Nat
  co : Nat
  len : Nat
  stage : Nat
  size : Nat
  base : Nat
  sbase : Nat
  scale : Nat
  recip : Nat
  lport : Nat
  peer : Nat
  lchan : Nat
deriving DecidableEq, Repr

def rtRec (bs : List Byte) (o : Nat) : RtRec :=
  { prod := bnum bs o 2, pport := bnum bs (o + 2) 1, kind := bnum bs (o + 3) 1, cons := bnum bs (o + 4) 2, cport := bnum bs (o + 6) 1, mem := bnum bs (o + 7) 1, cluster := bnum bs (o + 8) 1, co := bnum bs (o + 9) 1, len := bnum bs (o + 10) 1, stage := bnum bs (o + 11) 1, size := bnum bs (o + 12) 4, base := bnum bs (o + 16) 4, sbase := bnum bs (o + 20) 4, scale := bnum bs (o + 24) 4, recip := bnum bs (o + 28) 4, lport := bnum bs (o + 32) 1, peer := bnum bs (o + 33) 1, lchan := bnum bs (o + 34) 2 }

/-- The memory unit of a ring: its cluster, or its core. -/
def RtRec.unit (r : RtRec) : Nat := if r.mem = 1 then r.cluster else 8 * r.cluster + r.co

/-- What a bit-stream holds, parsed once: its bytes, its owner, its claims, stations, placements and routes. -/
structure BitStream where
  bytes : List Byte
  owner : Nat
  cores : List Nat
  cm : List (Nat × Nat × Nat)
  km : List (Nat × Nat × Nat)
  stations : List StRec
  places : List PlRec
  routes : List RtRec
deriving DecidableEq, Repr

/-- The claims of one KIND in the MEMORY records. -/
def bsClaims (bs : List Byte) (kind : Nat) : List (Nat × Nat × Nat) :=
  ((bsRecs bs 1).filter (fun o => bnum bs o 1 == kind)).map (fun o =>
    (if kind = 2 then bnum bs (o + 1) 1 else 8 * bnum bs (o + 1) 1 + bnum bs (o + 2) 1, bnum bs (o + 4) 4, bnum bs (o + 8) 4))

def bitStream (bs : List Byte) : BitStream :=
  { bytes := bs, owner := bnum bs 0x10 1, cores := ((bsClaims bs 0).map (·.1)).dedup, cm := bsClaims bs 1, km := bsClaims bs 2, stations := (bsRecs bs 2).map (stRec bs), places := (bsRecs bs 3).map (plRec bs), routes := (bsRecs bs 4).map (rtRec bs) }

namespace BitStream

def num (x : BitStream) (o n : Nat) : Nat := bnum x.bytes o n
def recs (x : BitStream) (ty : Nat) : List Nat := bsRecs x.bytes ty
def st? (x : BitStream) (id : Nat) : Option StRec := x.stations.find? (fun r => r.id == id)
def pl? (x : BitStream) (id : Nat) : Option PlRec := x.places.find? (fun p => p.st == id)

/-- Whether a byte range lies in one extent of the claims. -/
def claims (x : BitStream) (km : Bool) (unit off len : Nat) : Bool :=
  (if km then x.km else x.cm).any (fun e => e.1 == unit && e.2.1 ≤ off && off + len ≤ e.2.1 + e.2.2)

/-- Whether a byte range lies inside the claims, in one extent or in several that follow each other: an extent is made of whole
4 KiB pages (R219). -/
def covers (x : BitStream) (km : Bool) (unit off len : Nat) : Bool :=
  (List.range ((off + len + 4095) / 4096 - off / 4096)).all (fun k => x.claims km unit (4096 * (off / 4096 + k)) 4096)

/-- Whether the partition includes all eight cores of a cluster (R125). -/
def whole (x : BitStream) (c : Nat) : Bool := (List.range 8).all (fun k => x.cores.contains (8 * c + k))

/-- The offset of the CORRECTION record of a correction station, and of a matrix station. -/
def corrOf (x : BitStream) (id : Nat) : Option Nat := (x.recs 6).find? (fun o => x.num o 2 == id)

/-- The rescale record of a station. -/
def tableOf (x : BitStream) (id : Nat) : Option Nat := (x.recs 5).find? (fun o => x.num o 2 == id)

/-- The INGEST record of a station. -/
def ingestOf (x : BitStream) (id : Nat) : Option Nat := (x.recs 7).find? (fun o => x.num o 2 == id)

/-- The ordinary routes: those that have a ring here. -/
def rings (x : BitStream) : List RtRec := x.routes.filter (fun r => r.kind != 2)

/-- The cluster of a station's output stage: that of its placement, for a gate-ingest or link-receive station that of its
output ring (R132, R184). -/
def outCluster (x : BitStream) (id : Nat) : Option Nat :=
  match x.pl? id, x.st? id with
  | some p, _ => some p.cluster
  | none, some r =>
    if r.kind = 7 || r.kind = 9 then (x.rings.find? (fun t => t.kind != 3 && t.prod == id && t.pport == 0)).map (·.cluster) else none
  | none, none => none

/-- The link record of a station (R342). -/
def linkOf (x : BitStream) (send : Bool) (id : Nat) : Option RtRec :=
  x.routes.find? (fun r => r.kind == 2 && (if send then r.prod == id else r.cons == id))

end BitStream

/-! ### Codes -/

/-- The code of the first fault of a list, 0 for none. -/
def firstCode : List (Bool × Nat) → Nat
  | [] => 0
  | (b, c) :: rest => if b then c else firstCode rest

/-- Whether a list holds an entry twice up to place i: its i-th entry stands earlier. -/
def repeats {α : Type} [BEq α] (xs : List α) (i : Nat) : Bool :=
  match xs[i]? with
  | some v => (xs.take i).contains v
  | none => false

/-! ### Records (R219 to R232) -/

/-- Whether a core belongs to another loaded partition or lies in a cluster without sensor (R219, R374). -/
def State.coreTaken (s : State) (owner core : Nat) : Bool :=
  s.deadCls.contains (core / 8) ||
  s.parts.any (fun e => e.1 != owner && (match e.2 with | some p => p.cores.contains core | none => false))

/-- Whether a cluster-memory range belongs to another partition. -/
def State.kmTaken (s : State) (owner c off len : Nat) : Bool :=
  s.parts.any (fun e => e.1 != owner &&
    (match e.2 with | some p => p.km.any (fun k => k.1 == c && overlap k.2.1 k.2.2 off len) | none => false))

/-- A MEMORY record (R219). -/
def State.badMemory (s : State) (x : BitStream) (o : Nat) : Nat :=
  let kind := x.num o 1
  let cl := x.num (o + 1) 1
  let co := x.num (o + 2) 1
  let off := x.num (o + 4) 4
  let len := x.num (o + 8) 4
  let core := 8 * cl + co
  firstCode [
    (x.num (o + 3) 1 != 0 || x.num (o + 12) 4 != 0 || (kind == 2 && co != 0) || (kind == 0 && (off != 0 || len != 0)), 0x0A),
    (2 < kind || 15 < cl || 7 < co, 0x17),
    (kind == 0 && s.coreTaken x.owner core, 0x17),
    (kind != 0 && (off % 4096 != 0 || len % 4096 != 0 || len == 0), 0x17),
    (kind == 1 && (!(x.cores.contains core) || 0x7C000 < off + len), 0x17),
    (kind == 2 && (0x3F0000 < off + len || s.kmTaken x.owner cl off len), 0x17)]

/-- A station's name: 1 to 31 printable characters and zeros (R153, R220). -/
def goodName (n : List Byte) : Bool :=
  let cs := n.takeWhile (fun b => b != 0)
  1 ≤ cs.length && cs.length ≤ 31 && cs.all (fun b => 0x20 ≤ b.toNat && b.toNat ≤ 0x7E) && (n.drop cs.length).all (fun b => b == 0)

/-- The kinds that a PLACEMENT record places (R221). -/
def placeable (kind : Nat) : Bool := hasDesc kind

/-- The cluster whose OCU a station would use: that of its matrix station for a correction station. -/
def BitStream.ocuCluster (x : BitStream) (r : StRec) : Option Nat :=
  if r.kind = 4 then (x.corrOf r.id).bind (fun o => (x.pl? (x.num (o + 2) 2)).map (·.cluster))
  else (x.pl? r.id).map (·.cluster)

/-- A STATIONS record (R153, R220, R461, R125), with what the other sections must hold of the station. -/
def State.badStation (_ : State) (x : BitStream) (i o : Nat) : Nat :=
  let r := stRec x.bytes o
  let isFull := match x.ocuCluster r with | some c => x.whole c | none => (List.range 16).any x.whole
  firstCode [
    (1 < r.flags || x.num (o + 3) 1 != 0 || !(zeros x.bytes (o + 8) 8) || !(zeros x.bytes (o + 0x30) 16), 0x0A),
    (repeats (x.stations.map (·.id)) i, 0x0B),
    (10 ≤ r.kind || (placeable r.kind && (x.pl? r.id).isNone) || 2 < r.inFmt ||
      (r.inFmt == 2 && r.kind != 2 && r.kind != 5) || (r.kind == 7 && (r.inFmt != 0 || r.inExp != 0)), 0x0C),
    (!(goodName r.name), 0x0D),
    (r.inExp < -64 || 63 < r.inExp || r.outExp < -64 || 63 < r.outExp, 0x0E),
    (2 < r.outFmt || (r.kind == 4 && isFull && (x.corrOf r.id).isNone), 0x0F),
    ((r.kind == 4 || (r.kind == 0 && r.sens)) && !isFull, 0x12),
    ((r.kind == 8 || r.kind == 9) && (x.linkOf (r.kind == 8) r.id).isNone, 0x13),
    (r.kind == 7 && (x.ingestOf r.id).isNone, 0x1E)]

/-- Reserved bits of a descriptor image that are not zero (Table 7.6, Table 7.7, ME_OPW). -/
def imageReserved (w : Nat → Nat) : Bool :=
  bits (w 0) 30 28 != 0 || bits (w 0) 15 12 != 0 || bits (w 1) 7 1 != 0 || bits (w 2) 31 16 != 0 ||
  (engList (bits (w 2) 15 0)).any (fun e => bits (w (3 + e)) 31 27 != 0 || (w (3 + e)).testBit 14) ||
  bits (w 19) 31 19 != 0 || bits (w 20) 31 13 != 0 || bits (w 21) 31 4 != 0 || w 22 != 0 || w 23 != 0 ||
  (List.range 24).any (fun k => bits (w (32 + k)) 6 0 != 0) || (List.range 8).any (fun k => w (56 + k) != 0)

/-- The routes that a kind may have (Table 6.1, R73). -/
def goodPorts (kind nin npart nout : Nat) : Bool :=
  match kind with
  | 0 => nin == 1 && nout == 1
  | 1 => nin == 1 && npart == 0 && nout == 1
  | 2 => 1 ≤ nin && nin ≤ 2 && npart == 0 && nout == 1
  | 3 => nin == 1 && npart == 0 && nout == 1
  | 5 => npart == 0 && ((2 ≤ nin && nin ≤ 8 && nout == 1) || (nin == 1 && 2 ≤ nout && nout ≤ 8))
  | 6 => nin == 1 && npart == 0 && nout ≤ 1
  | _ => false

/-- The row-group masks of a placement by logical engine. -/
def PlRec.rgmask (p : PlRec) (e : Nat) : Nat :=
  let d := p.desc
  if p.desc.kind = 0 && d.engmask.testBit e then (opwOf (d.opws.getD e 0)).rgmask else 0

/-- The route record of an output or input port of a station. -/
def BitStream.outPort (x : BitStream) (id k : Nat) : Option RtRec := x.rings.find? (fun r => r.kind != 3 && r.prod == id && r.pport == k)
def BitStream.inPort (x : BitStream) (id k : Nat) : Option RtRec := x.rings.find? (fun r => r.cons == id && r.cport == k)

/-- Whether a route word agrees with the ring of its record: MEM, CLUSTER and RINGLEN; for a producer of a moved route the
staging ring. -/
def wordFits (w : Nat) (r : RtRec) (producer : Bool) : Bool :=
  if producer && r.kind == 1 then !(w.testBit 30) && bits w 29 28 == 1 && bits w 23 17 == r.stage
  else
    (w.testBit 30 == (r.mem == 1)) && bits w 23 17 == r.len && (r.mem != 1 || bits w 27 24 == r.cluster) &&
    (!producer || bits w 29 28 == r.kind)

/-- Whether every counted port of a placement has a route record. -/
def BitStream.portsFit (x : BitStream) (p : PlRec) : Bool :=
  let d := p.desc
  (List.range (d.nin + d.npart)).all (fun k => (x.inPort p.st k).isSome) && (List.range d.nout).all (fun k => (x.outPort p.st k).isSome)

/-- An engine's logical index that has been lost (R269). -/
def State.indexLost (s : State) (core e : Nat) : Bool :=
  (s.getF .CCTL_EMAP_RETIRED core).testBit e && !(s.bit .CCTL_EMAP_SPARE_USED core && s.getF .CCTL_EMAP_SPARE_FOR core == e)

/-- The table that a placement's station has at RSBASE: 2 decision tests, and for a matrix station 0 rescale entries or 1 fp32
pairs as the OUT field of its lone engine or chain head says (R97, R100, R465). -/
def PlRec.tableType (p : PlRec) : Option Nat :=
  let d := p.desc
  if d.kind = 6 then some 2 else if d.kind = 0 then some (opwOf (d.opws.getD d.head 0)).out else none

/-- Whether engine operation words break R221: a reserved encoding, an empty RGMASK, a position outside its chain, or ADDIN against
R73. -/
def Desc.badOps (d : Desc) : Bool :=
  ((engList d.engmask).map (fun e => opwOf (d.opws.getD e 0))).any (fun q => q.reserved || q.rgmask == 0 || q.len == 0 || q.len ≤ q.pos) ||
    d.badAddin

/-- Whether the OUT field of a matrix station's head disagrees with the station's output format (R221). -/
def Desc.badOut (d : Desc) (fmt : Nat) : Bool :=
  match (opwOf (d.opws.getD d.head 0)).out with | 0 => fmt != 0 | 1 => 1 < fmt | _ => fmt != 2

/-- Whether an engine word asks for SATPOL ESCALATE, which needs the whole cluster (R125, R221). -/
def Desc.escalates (d : Desc) : Bool := (engList d.engmask).any (fun e => (opwOf (d.opws.getD e 0)).satpol == 2)

/-- A PLACEMENT record (R221). -/
def State.badPlace (s : State) (x : BitStream) (i o : Nat) : Nat :=
  let p := plRec x.bytes o
  let d := p.desc
  match x.st? p.st with
  | none => if x.num (o + 5) 3 != 0 || x.num (o + 14) 2 != 0 then 0x0A else 0x0C
  | some r =>
    let table := r.kind != 6 || (match x.tableOf p.st with | some q => x.num (q + 2) 1 == 2 | none => false)
    let corr := match (x.recs 6).find? (fun q => x.num (q + 2) 2 == p.st) with
      | some q => d.corr == some (x.num q 2)
      | none => d.corr.isNone
    let earlier := (x.places.take i).filter (fun q => q.core == p.core)
    firstCode [
      (x.num (o + 5) 3 != 0 || x.num (o + 14) 2 != 0 || imageReserved p.word, 0x0A),
      (!(placeable r.kind) || repeats (x.places.map (·.st)) i, 0x0C),
      (!(goodPorts r.kind d.nin d.npart d.nout) || !d.valid || d.station != r.id || d.kind != r.kind || d.gen != 0 || d.owner != x.owner || (p.word 1).testBit 0 != r.sens || d.window == 0 || 8 < d.window || (r.kind == 5 && d.window != 1) || d.badRoute || d.rsbase % 8 != 0 || !corr, 0x0F),
      (r.kind == 0 && (d.badOps || (engList d.engmask).any (s.indexLost p.core)), 0x0F),
      (r.kind == 0 && d.badOut r.outFmt, 0x0F),
      (!table, 0x0F),
      (r.kind == 0 && d.badChain, 0x10),
      ((List.range 16).any (fun e => earlier.any (fun q => q.rgmask e &&& p.rgmask e != 0)), 0x11),
      (r.kind == 0 && d.escalates && !(x.whole p.cluster), 0x12),
      (!(x.portsFit p), 0x13),
      (15 < p.cluster || 7 < p.co || !(x.cores.contains p.core), 0x17),
      (64 ≤ p.d || earlier.any (fun q => q.d == p.d) || (s.coreOn p.core && (s.desc p.core p.d).valid), 0x19)]

/-- The reciprocal of a scale, rne32(1/s) (R101). -/
def recipOk (scale recip : Nat) : Bool := recip == fp32Recip scale

/-- Where the ring of a route may lie (R162): with the consumer, for a partial sum in any cluster memory, and for a direct
route where its producer can write. -/
def BitStream.ringPlace (x : BitStream) (r : RtRec) : Bool :=
  let c := x.pl? r.cons
  let p := x.pl? r.prod
  let part := match c with | some q => q.desc.nin ≤ r.cport | none => false
  let byCons := match c with
    | some q => if r.mem = 1 then part || r.cluster == q.cluster else !part && r.unit == q.core
    | none => true
  let byProd := match p with
    | some q => r.kind != 0 || (if r.mem = 1 then r.cluster == q.cluster else r.unit == q.core)
    | none => true
  byCons && byProd

/-- Whether a link channel is used on a port in a direction by a loaded station (R342). -/
def State.chanUsed (s : State) (send : Bool) (p c : Nat) : Bool :=
  s.stations.any (fun e => e.2.state != 0 && e.2.kind == (if send then 8 else 9) &&
    (if send then e.2.ins else e.2.outs).any (fun h => (s.ring h).lport == p && (s.ring h).lchan == c))

/-- Whether this device sends on the link route of a record. -/
def BitStream.sends (x : BitStream) (r : RtRec) : Bool := match x.st? r.prod with | some t => t.kind == 8 | none => false

/-- A ROUTES record of RKIND 2 (R342). -/
def State.badLink (s : State) (x : BitStream) (i o : Nat) : Nat :=
  let r := rtRec x.bytes o
  let send := x.sends r
  let own := if send then x.st? r.prod else x.st? r.cons
  let before := (x.routes.take i).filter (fun q => q.kind == 2 && x.sends q == send && q.lport == r.lport && q.lchan == r.lchan)
  let twice := (x.routes.take i).any (fun q => q.kind == 2 && x.sends q == send && (if send then q.prod == r.prod else q.cons == r.cons))
  firstCode [
    (!(zeros x.bytes (o + 0x24) 12), 0x0A),
    (!(match own with | some t => t.kind == (if send then 8 else 9) | none => false) || r.pport != 0 || r.cport != 0 || x.num (o + 7) 17 != 0 || 3 < r.lport || 7 < r.peer || r.peer == s.getF .LNK_CFG_DEVID 0 || 255 < r.lchan || !before.isEmpty || twice || s.chanUsed send r.lport r.lchan, 0x13),
    (r.scale != 0 || r.recip != 0, 0x13),
    (!(if send then x.rings.any (fun q => q.cons == r.prod) else x.rings.any (fun q => q.kind != 3 && q.prod == r.cons)), 0x13),
    (x.owner != 0 && (s.quota x.owner).link == 0, 0x16)]

/-- A ROUTES record of the other kinds (R162, R222, R466). -/
def State.badRing (_ : State) (x : BitStream) (i o : Nat) : Nat :=
  let r := rtRec x.bytes o
  let p := x.pl? r.prod
  let c := x.pl? r.cons
  let consKind := (x.st? r.cons).map (·.kind)
  let prodKind := (x.st? r.prod).map (·.kind)
  let inOk := match c with | some q => r.cport < q.desc.nin + q.desc.npart | none => consKind == some 8 && r.cport == 0
  let outOk := r.kind == 3 || (match p with | some q => r.pport < q.desc.nout | none => (prodKind == some 7 || prodKind == some 9) && r.pport == 0)
  let before := (x.routes.take i).filter (fun q => q.kind != 2)
  let used := before.any (fun q => (q.cons == r.cons && q.cport == r.cport) || (q.kind != 3 && r.kind != 3 && q.prod == r.prod && q.pport == r.pport))
  let send := consKind == some 8
  let window := match c with | some q => if r.cport < q.desc.nin then q.desc.window else 1 | none => 1
  let staged := r.kind == 1
  let goodScale := fp32PosNormal r.scale
  firstCode [
    (!(zeros x.bytes (o + 0x24) 12), 0x0A),
    (3 < r.kind || !inOk || !outOk || used || 1 < r.mem || 15 < r.cluster || 7 < r.co || r.len < 2 || 64 < r.len || r.size == 0 || r.size % 64 != 0 || r.base % 64 != 0, 0x13),
    ((if staged then r.stage < 2 || 64 < r.stage || r.sbase % 64 != 0 || p.isNone else r.stage != 0 || r.sbase != 0), 0x13),
    (!(x.ringPlace r) || (2 ≤ window && r.len < window + 1), 0x13),
    ((if send then goodScale && !(recipOk r.scale r.recip) else r.scale != 0 || r.recip != 0), 0x13),
    (send && !goodScale, 0x14),
    (!((match c with | some q => wordFits (q.word (32 + r.cport)) r false | none => true) && (r.kind == 3 || (match p with | some q => wordFits (q.word (48 + r.pport)) r true | none => true))), 0x13),
    (!(x.covers (r.mem == 1) r.unit r.base (r.len * r.size)), 0x17),
    (staged && (match p with | some q => !(x.covers false q.core r.sbase (r.stage * r.size)) | none => true), 0x17)]

/-- A ROUTES record. -/
def State.badRoute (s : State) (x : BitStream) (i o : Nat) : Nat :=
  if x.num (o + 3) 1 = 2 then s.badLink x i o else s.badRing x i o

/-- Whether an fp32 word is a NaN or an infinity. -/
def fp32NonFinite (b : Nat) : Bool := fp32IsNaN b || fp32IsInf b

/-- A RESCALE record (R97, R100, R223, R465). -/
def State.badRescale (_ : State) (x : BitStream) (i o : Nat) : Nat :=
  let id := x.num o 2
  let ty := x.num (o + 2) 1
  let ncol := x.num (o + 4) 2
  let kind := (x.st? id).map (·.kind)
  let narrow := match x.pl? id with
    | some p => p.desc.kind == 0 && (opwOf (p.desc.opws.getD p.desc.head 0)).wmode != 0
    | none => false
  let wrong := match x.pl? id with
    | some p => (ty == 2) != (kind == some 6) || (match p.tableType with | some t => t != ty | none => false)
    | none => true
  let lo (j : Nat) : Nat := x.num (o + 8 + 8 * j) 4
  let hi (j : Nat) : Nat := x.num (o + 12 + 8 * j) 4
  let js := List.range ncol
  firstCode [
    (x.num (o + 3) 1 != 0 || x.num (o + 6) 2 != 0, 0x0A),
    (ty == 0 && js.any (fun j => bits (lo j) 31 22 != 0 || bits (hi j) 31 16 != 0), 0x0A),
    (ty == 2 && js.any (fun j => bits (lo j) 30 18 != 0 || bits (lo j) 15 8 != 0), 0x0A),
    (2 < ty || ncol == 0 || (if narrow then 128 < ncol else 256 < ncol) || (ty == 2 && ncol != 16) || repeats ((x.recs 5).map (fun q => x.num q 2)) i || wrong, 0x0F),
    (ty == 2 && js.any (fun j => fp32IsNaN (hi j)), 0x0F),
    (ty == 1 && js.any (fun j => fp32NonFinite (lo j) || fp32NonFinite (hi j)), 0x14),
    (match x.pl? id with | some p => !(x.claims false p.core p.desc.rsbase (8 * ncol)) | none => false, 0x17)]

/-- A CORRECTION record (R125 to R127, R224). -/
def State.badCorrection (_ : State) (x : BitStream) (i o : Nat) : Nat :=
  let c := x.num o 2
  let m := x.num (o + 2) 2
  let n := x.num (o + 36) 1
  let good := match x.st? c, x.st? m, x.pl? m with
    | some a, some b, some p => a.kind == 4 && b.kind == 0 && p.desc.corr == some c
    | _, _, _ => false
  let clip (e : Nat) : Nat := x.num (o + 4 + 2 * e) 2
  let clipTop (e : Nat) : Nat := match x.pl? m with
    | some p => if 1 < (opwOf (p.desc.opws.getD e 0)).inmode then 32767 else 255
    | none => 32767
  firstCode [
    (x.num (o + 37) 3 != 0 || (List.range 64).any (fun k => n ≤ k && x.num (o + 40 + 2 * k) 2 != 0), 0x0A),
    (!good || 64 < n || (List.range n).any (fun k => 16 ≤ x.num (o + 40 + 2 * k) 1) || repeats ((x.recs 6).map (fun q => x.num q 2)) i || repeats ((x.recs 6).map (fun q => x.num (q + 2) 2)) i, 0x0F),
    ((List.range 16).any (fun e => clip e != 0xFFFF && clipTop e < clip e), 0x0F),
    (match x.pl? m with | some p => !(x.whole p.cluster) | none => false, 0x12)]

/-- An INGEST record (R168 to R172, R225). -/
def State.badIngest (_ : State) (x : BitStream) (i o : Nat) : Nat :=
  let b (k : Nat) : Nat := x.num (o + k) 1
  let chans := fmtChannels (b 2)
  let station := x.st? (x.num o 2)
  firstCode [
    (3 < b 0x0C || x.num (o + 0x0D) 3 != 0 || !(zeros x.bytes (o + 0x30) 16), 0x0A),
    (!(match station with | some r => r.kind == 7 && r.outFmt < 2 | none => false) || repeats ((x.recs 7).map (fun q => x.num q 2)) i, 0x1E),
    (5 < b 2 || 1 < b 3 || b 9 == 0 || 32 < b 9 || b 10 == 0 || 15 < b 10 || 1 < b 11 || x.num (o + 0x14) 2 == 0 || x.num (o + 0x16) 2 == 0, 0x1E),
    (b 4 == 0 || 256 < b 4 * chans || (List.range 4).any (fun k => b (5 + k) == 0 || 16 < b (5 + k)) || 256 < b 5 * b 6 * chans, 0x1E),
    (!(x.rings.any (fun t => t.kind != 3 && t.prod == x.num o 2)), 0x13)]

/-- A PROGRAMS record (R226). -/
def State.badProgram (_ : State) (x : BitStream) (i o : Nat) : Nat :=
  let cl := x.num o 1
  let n := x.num (o + 4) 4
  firstCode [
    (1 < x.num (o + 1) 1 || x.num (o + 2) 2 != 0 || !(zeros x.bytes (o + 8) 8) || (n % 2 == 1 && x.num (o + 16 + 4 * n) 4 != 0), 0x0A),
    (15 < cl || !((List.range 8).any (fun k => x.cores.contains (8 * cl + k))), 0x17),
    (n == 0 || 16384 < n || repeats ((x.recs 8).map (fun q => x.num q 1)) i, 0x1A)]

/-- An INIT record (R227). -/
def State.badInit (_ : State) (x : BitStream) (_ o : Nat) : Nat :=
  let kind := x.num o 1
  let cl := x.num (o + 1) 1
  let co := x.num (o + 2) 1
  let len := x.num (o + 8) 4
  let n := x.num (o + 12) 4
  let unit := if kind = 2 then cl else 8 * cl + co
  firstCode [
    (len % 8 != 0 || (List.range n).any (fun k => let r := x.num (o + 16 + len + 4 * k) 4; r % 4 != 0 || len < r + 4), 0x02),
    (x.num (o + 3) 1 != 0 || (kind == 2 && co != 0) || (n % 2 == 1 && x.num (o + 16 + len + 4 * n) 4 != 0), 0x0A),
    (kind == 0 || 2 < kind || 15 < cl || 7 < co || !(x.claims (kind == 2) unit (x.num (o + 4) 4) len), 0x17),
    (n != 0 && !((List.range 8).any (fun k => x.cores.contains (8 * cl + k))), 0x1A)]

/-- The member-core masks of a GROUPS record. -/
def BitStream.masks (x : BitStream) (o : Nat) : List Nat := (List.range 16).map (fun c => x.num (o + 8 + c) 1)

/-- A GROUPS record (R202, R228). -/
def State.badGroup (s : State) (x : BitStream) (i o : Nat) : Nat :=
  let scope := x.num (o + 1) 1
  let dev := x.num (o + 2) 1
  let tmo := x.num (o + 4) 4
  let ms := x.masks o
  let own := 2 ^ s.getF .LNK_CFG_DEVID 0
  firstCode [
    (x.num (o + 3) 1 != 0 || !(zeros x.bytes (o + 0x18) 8), 0x0A),
    (63 < x.num o 1 || 2 < scope || tmo == 0 || 1000000 < tmo || repeats ((x.recs 10).map (fun q => x.num q 1)) i, 0x1B),
    ((if scope = 2 then dev &&& own == 0 else dev != own) || (scope == 0 && 1 < (ms.filter (fun m => m != 0)).length), 0x1B),
    ((List.range 128).any (fun c => (ms.getD (c / 8) 0).testBit (c % 8) && !(x.cores.contains c)), 0x1B)]

/-- Whether a BAR2 range lies inside the claims (R219). -/
def BitStream.claimsAt (x : BitStream) (a len : Nat) : Bool :=
  a + len ≤ 0x8000000 &&
  (match memOf a with
    | .km c off => x.covers true c off len
    | .cm core off => x.covers false core off len)

/-- A SNAPSHOTS record (R205, R228). -/
def State.badSnapshot (_ : State) (x : BitStream) (i o : Nat) : Nat :=
  let n := x.num (o + 2) 1
  let reg (k j : Nat) : Nat := x.num (o + 8 + 12 * k + 4 * j) 4
  firstCode [
    (x.num (o + 3) 5 != 0 || (List.range 16).any (fun k => n ≤ k && !(zeros x.bytes (o + 8 + 12 * k) 12)), 0x0A),
    ((List.range (min n 16)).any (fun k => !(x.claimsAt (reg k 0) (reg k 2)) || !(x.claimsAt (reg k 1) (reg k 2))), 0x17),
    (63 < x.num o 1 || 16 < n || !((x.recs 10).any (fun q => x.num q 1 == x.num (o + 1) 1)) || repeats ((x.recs 11).map (fun q => x.num q 1)) i || (List.range (min n 16)).any (fun k => reg k 2 % 32 != 0), 0x1B)]

/-- An OWL record (R132 to R134, R229). -/
def State.badOwl (_ : State) (x : BitStream) (_ o : Nat) : Nat :=
  let f (k : Nat) : Nat := x.num (o + 4 + 4 * k) 4
  let outs := (x.outCluster (x.num o 2)).isSome
  firstCode [
    (31 < x.num (o + 3) 1, 0x0A),
    (!outs || (List.range 15).any (fun k => fp32NonFinite (f k)) || (List.range 5).any (fun k => fp32Neg (f k) && fp32Mag (f k) != 0), 0x1C)]

/-- The watch outputs that an owner may use (R230, R352). -/
def State.woutGrant (s : State) (owner : Nat) : Nat :=
  (s.setting 2 % 256) &&& (if owner = 0 then 255 else (s.quota owner).wout)

/-- A WATCH record (R230, R363, R364). -/
def State.badWatch (s : State) (x : BitStream) (_ o : Nat) : Nat :=
  let outs := x.num (o + 2) 1
  let flags := x.num (o + 3) 1
  let inhibit := x.num (o + 7) 1
  firstCode [
    (3 < flags || !(zeros x.bytes (o + 12) 20), 0x0A),
    (!(match x.st? (x.num o 2) with | some r => r.kind == 6 | none => false) || 1 < x.num (o + 6) 1 || (3 < inhibit && inhibit != 0xFF), 0x1D),
    (outs &&& s.woutGrant x.owner != outs, 0x1D),
    (flags.testBit 0 && (List.range 4).any (fun k => outs.testBit (2 * k) != outs.testBit (2 * k + 1)), 0x1D),
    (10000000 < x.num (o + 8) 4, 0x1D)]

/-- A QUOTAS record (R231). -/
def State.badQuota (s : State) (x : BitStream) (_ o : Nat) : Nat :=
  let t := x.num o 1
  firstCode [(!(zeros x.bytes (o + 0x12) 14), 0x0A), (t == 0 || s.setting 0 < t, 0x16)]

/-- An ARBITRATION record (R39, R232). -/
def State.badArb (_ : State) (x : BitStream) (_ o : Nat) : Nat :=
  let cl := x.num o 1
  let slot := x.num (o + 1) 1
  firstCode [
    (x.owner != 0 && (slot == 8 || slot == 9), 0x07),
    (15 < x.num (o + 2) 1 || x.num (o + 3) 5 != 0, 0x0A),
    (15 < cl || 9 < slot || (slot < 8 && !(x.cores.contains (8 * cl + slot))), 0x17)]

/-- A MAILBOX record (R210, R232). -/
def State.badMailbox (s : State) (x : BitStream) (i o : Nat) : Nat :=
  let ch := x.num o 1
  let cl := x.num (o + 1) 1
  let other := s.parts.any (fun e => match e.2 with | some p => p.chans.any (fun c => c.1 == ch) | none => false)
  firstCode [
    (x.num (o + 2) 6 != 0, 0x0A),
    (63 < ch || 15 < cl || !(s.mbxBound ch) || s.mbxSender ch != 0x10 + cl || other || repeats ((x.recs 16).map (fun q => x.num q 1)) i || !((List.range 8).any (fun k => x.cores.contains (8 * cl + k))), 0x1F)]

/-- The code of record i at offset o of a section. -/
def State.badRecord (s : State) (x : BitStream) (ty i o : Nat) : Nat :=
  match ty with
  | 1 => s.badMemory x o
  | 2 => s.badStation x i o
  | 3 => s.badPlace x i o
  | 4 => s.badRoute x i o
  | 5 => s.badRescale x i o
  | 6 => s.badCorrection x i o
  | 7 => s.badIngest x i o
  | 8 => s.badProgram x i o
  | 9 => s.badInit x i o
  | 10 => s.badGroup x i o
  | 11 => s.badSnapshot x i o
  | 12 => s.badOwl x i o
  | 13 => s.badWatch x i o
  | 14 => s.badQuota x i o
  | 15 => s.badArb x i o
  | _ => s.badMailbox x i o

/-! ### Allocation (R222, R226, R229, R233) -/

/-- Entries of the slot table of a memory controller. -/
def slotCount (km : Bool) : Nat := if km then 1024 else 128

/-- The lowest run of n free slot-table entries of a memory beside those taken (R222). -/
def State.findSlots (s : State) (taken : List (SlotRef × Nat)) (km : Bool) (unit n : Nat) : Option SlotRef :=
  let free (k : Nat) : Bool :=
    s.slot { km := km, unit := unit, n := k } == 4 &&
    !(taken.any (fun t => t.1.km == km && t.1.unit == unit && t.1.n ≤ k && k < t.1.n + t.2))
  ((List.range (slotCount km + 1 - n)).find? (fun f => (List.range n).all (fun k => free (f + k)))).map
    (fun f => { km := km, unit := unit, n := f })

/-- What a route takes: its ring and its staging ring. -/
def State.takeRings (s : State) (x : BitStream) (acc : Option (List (SlotRef × Nat) × List (RtRec × SlotRef × Option SlotRef)))
    (r : RtRec) : Option (List (SlotRef × Nat) × List (RtRec × SlotRef × Option SlotRef)) :=
  match acc with
  | none => none
  | some (taken, done) =>
    match s.findSlots taken (r.mem == 1) r.unit r.len with
    | none => none
    | some h =>
      let taken := taken ++ [(h, r.len)]
      if r.kind = 1 then
        match x.pl? r.prod with
        | none => none
        | some p =>
          match s.findSlots taken false p.core r.stage with
          | none => none
          | some g =>
            let used := (done.filter (fun d => match d.2.2 with | some q => q.unit == p.core | none => false)).length +
              (s.rings.filter (fun e => e.2.target.isSome && (slotOfKey e.1).unit == p.core)).length
            if 32 ≤ used then none else some (taken ++ [(g, r.stage)], done ++ [(r, h, some g)])
      else some (taken, done ++ [(r, h, none)])

/-- The rings of the first n routes. -/
def State.allocRings (s : State) (x : BitStream) (n : Nat) : Option (List (RtRec × SlotRef × Option SlotRef)) :=
  ((x.rings.take n).foldl (s.takeRings x) (some ([], []))).map (·.2)

/-- The lowest unassigned thread of a cluster (R186). -/
def State.freeThread (s : State) (c : Nat) : Option Nat := (List.range 8).find? (fun t => s.thState (8 * c + t) == 0)

/-- The lowest free run of n words of a cluster's program memory at a multiple of 16 (R226). -/
def State.freeRegion (s : State) (c n : Nat) : Option Nat :=
  let used := ((List.range 8).filter (fun t => s.thState (8 * c + t) != 0)).map (fun t =>
    (s.getF .CSQ_TH_REGION_BASE (8 * c + t), s.getF .CSQ_TH_REGION_LAST (8 * c + t)))
  ((List.range 1024).map (fun k => 16 * k)).find? (fun b =>
    b + n ≤ 16384 && used.all (fun u => u.2 < u.1 || u.2 < b || b + n ≤ u.1))

/-- The clusters in which the partition claims a core: each gets a thread. -/
def BitStream.clusters (x : BitStream) : List Nat :=
  (List.range 16).filter (fun c => (List.range 8).any (fun k => x.cores.contains (8 * c + k)))

/-- The program of a cluster. -/
def BitStream.program (x : BitStream) (c : Nat) : Option Nat := (x.recs 8).find? (fun o => x.num o 1 == c)

/-- Stations whose output stage lies in a cluster, of the first n stations (R184). -/
def BitStream.stages (x : BitStream) (c n : Nat) : Nat :=
  ((x.stations.take n).filter (fun r => x.outCluster r.id == some c)).length

/-- Loaded stations with an output stage in a cluster. -/
def State.stages (s : State) (c : Nat) : Nat :=
  (s.stations.filter (fun e => e.2.state != 0 && e.2.kind != 4 && e.2.kind != 8 && e.2.core / 8 == c)).length

/-- The first n for which a condition on a prefix fails, as a record index. -/
def firstFail (n : Nat) (ok : Nat → Bool) : Option Nat := (List.range n).find? (fun i => !(ok (i + 1)))

/-- Free Owl slots of a cluster, and free watch rules. -/
def State.freeOwls (s : State) (c : Nat) : List Nat := ((List.range 32).map (fun n => 32 * c + n)).filter (fun i => !(s.bit .OWL_SCFG_EN i))
def State.freeRules (s : State) : List Nat := (List.range 32).filter (fun r => !(s.wrule r).valid)

/-- Bytes of shadow copies, which count as cluster memory (R126). -/
def BitStream.shadowBytes (x : BitStream) : Nat := ((x.recs 6).map (fun o => 256 * x.num (o + 36) 1)).sum

/-! ### The whole (R233, R234) -/

/-- A refusal: code, section index and record index. -/
abbrev BsFault := Nat × Nat × Nat

/-- The index of a section of a type. -/
def sectionOf (bs : List Byte) (ty : Nat) : Nat := ((bsSects bs).map (·.ty)).idxOf ty

/-- Whether the first n MEMORY records claim no more than a quota (R219, R313). -/
def BitStream.fitsQuota (x : BitStream) (q : Quota) (n : Nat) : Bool :=
  let rs := (x.recs 1).take n
  let kibs (kind : Nat) : Nat := ((rs.filter (fun o => x.num o 1 == kind)).map (fun o => x.num (o + 8) 4)).sum / 1024
  let cores := ((rs.filter (fun o => x.num o 1 == 0)).map (fun o => 8 * x.num (o + 1) 1 + x.num (o + 2) 1)).dedup
  cores.length ≤ q.cores && kibs 1 ≤ q.cm && kibs 2 ≤ q.km

/-- Step 6: quotas, limits, then identities that other partitions hold. -/
def State.badWhole (s : State) (x : BitStream) : Option BsFault :=
  let at_ (code ty i : Nat) : Option BsFault := some (code, sectionOf x.bytes ty, i)
  let q := s.quota x.owner
  let over_ := if x.owner = 0 then none else firstFail (x.recs 1).length (x.fitsQuota q)
  let full := x.owner != 0 && (1024 * q.km < 1024 * kib x.km + x.shadowBytes || (s.fnst x.owner).cut.isSome)
  let stage := firstFail x.stations.length (fun n => (List.range 16).all (fun c => s.stages c + x.stages c n ≤ 512))
  let ring := firstFail x.rings.length (fun n => (s.allocRings x n).isSome)
  let ringRec := ring.bind (fun i => (x.rings[i]?).map (fun r => x.routes.idxOf r))
  let thread := x.clusters.find? (fun c => (s.freeThread c).isNone)
  let region := (x.recs 8).findIdx? (fun o => (s.freeRegion (x.num o 1) (x.num (o + 4) 4)).isNone)
  let owl := firstFail (x.recs 12).length (fun n => (List.range 16).all (fun c =>
    (((x.recs 12).take n).filter (fun o => x.outCluster (x.num o 2) == some c)).length ≤ (s.freeOwls c).length))
  let ident := x.stations.findIdx? (fun r => (s.station r.id).state != 0)
  let grp := (x.recs 10).findIdx? (fun o => (s.group (x.num o 1)).defined)
  let set := (x.recs 11).findIdx? (fun o => (smapGet none s.sets (x.num o 1)).isSome)
  if over_.isSome || full then at_ 0x16 1 (over_.getD 0)
  else
    match stage, ringRec, thread, region, owl with
    | some i, _, _, _, _ => at_ 0x15 2 i
    | none, some i, _, _, _ => at_ 0x18 4 i
    | none, none, some _, _, _ => at_ 0x1A 1 0
    | none, none, none, some i, _ => at_ 0x1A 8 i
    | none, none, none, none, some i => at_ 0x1C 12 i
    | none, none, none, none, none =>
      if s.freeRules.length < (x.recs 13).length then at_ 0x1D 13 s.freeRules.length
      else
        match ident, grp, set with
        | some i, _, _ => at_ 0x0B 2 i
        | none, some i, _ => at_ 0x1B 10 i
        | none, none, some i => at_ 0x1B 11 i
        | none, none, none => none

/-- Step 1: the header (Table 8.1). -/
def State.badHeader (s : State) (bs : List Byte) (len : Nat) : Nat :=
  let b := bnum bs
  let rev := 16 * s.getF .GCTL_ID_REV_MAJOR 0 + s.getF .GCTL_ID_REV_MINOR 0
  firstCode [
    (bs.length < 128 || b 0 4 != 0x5342515A || b 4 2 != 1 || b 6 2 != 128, 0x01),
    (33554432 < b 8 4, 0x20),
    (b 8 4 != len || bs.length != len || b 8 4 < 344, 0x02),
    (b 0x12 2 != s.getF .GCTL_ID_DEVICE 0 || rev < b 0x14 1, 0x03),
    (!(zeros bs 0x0E 2) || !(zeros bs 0x15 1) || !(zeros bs 0x1C 4) || !(zeros bs 0x30 80), 0x0A)]

/-- Step 2: the signature (R217). -/
def State.badSignature (s : State) (bs : List Byte) : Nat :=
  let n := bnum bs 8 4
  let o := n - 200
  let part (k m : Nat) : List Byte := (bs.drop (o + k)).take m
  let slot := smapGet Key.empty s.signKeys (bnum bs 0x11 1)
  let sig := bnum bs o 4 == 1 &&
    ecdsaVerify (bs.take o) (beNat (part 8 48)) (beNat (part 0x38 48)) (beNat (part 0x68 48)) (beNat (part 0x98 48))
  firstCode [
    (!sig, 0x04),
    (slot.bytes != sha384 (part 8 96) || slot.bytes.isEmpty || slot.owner != bnum bs 0x10 1 || slot.usage != 1, 0x05),
    (bnum bs (o + 4) 4 != 0, 0x0A)]

/-- Step 3: owner, security version, and whether the partition is loaded. -/
def State.badOwner (s : State) (fn : Nat) (bs : List Byte) : Nat :=
  firstCode [(bnum bs 0x10 1 != fn, 0x07), (bnum bs 0x18 4 < s.setting 5, 0x06), ((s.part fn).isSome, 0x08)]

/-- Step 4: one entry of the section table (R216, R218). -/
def badSection (bs : List Byte) (owner i : Nat) (t : Sect) : Nat :=
  let ss := bsSects bs
  let stop := bnum bs 8 4 - 200
  firstCode [
    (t.off % 8 != 0 || t.off < 128 + 16 * ss.length || stop < t.off + t.len || (ss.take i).any (fun q => overlap q.off q.len t.off t.len), 0x02),
    (t.ty == 14 && owner != 0, 0x07),
    (bsSize t.ty != some t.size || repeats (ss.map (·.ty)) i || (t.records bs).isNone, 0x09)]

/-- Padding between sections that is not zero (R214). -/
def badPadding (bs : List Byte) : Bool :=
  let ss := bsSects bs
  let from_ := 128 + 16 * ss.length
  (List.range (bnum bs 8 4 - 200 - from_)).any (fun k =>
    bnum bs (from_ + k) 1 != 0 && !(ss.any (fun t => t.off ≤ from_ + k && from_ + k < t.off + t.len)))

/-- The first fault of the section table: NSECT, the entries, what is required, the padding. -/
def badTable (bs : List Byte) (owner : Nat) : Option BsFault :=
  let ss := bsSects bs
  if ss.isEmpty || 24 < ss.length then some (0x09, 0xFF, 0)
  else if bnum bs 8 4 - 200 < 128 + 16 * ss.length then some (0x02, 0xFF, 0)
  else
    match ss.zipIdx.find? (fun p => badSection bs owner p.2 p.1 != 0) with
    | some p => some (badSection bs owner p.2 p.1, p.2, 0)
    | none =>
      if !((ss.map (·.ty)).contains 1 && (ss.map (·.ty)).contains 2) then some (0x09, 0xFF, 0)
      else if badPadding bs then some (0x0A, 0xFF, 0) else none

/-- Step 5: the first faulty record in section-table order. -/
def State.badRecords (s : State) (x : BitStream) : Option BsFault :=
  let all := (bsSects x.bytes).zipIdx.flatMap (fun p =>
    (((p.1.records x.bytes).getD []).zipIdx).map (fun r => (p.1.ty, p.2, r.2, r.1)))
  (all.find? (fun r => s.badRecord x r.1 r.2.2.1 r.2.2.2 != 0)).map (fun r => (s.badRecord x r.1 r.2.2.1 r.2.2.2, r.2.1, r.2.2.1))

/-- The checks of R234 in their order: the first failure. -/
def State.badBitStream (s : State) (fn : Nat) (bs : List Byte) (len : Nat) : Option BsFault :=
  let h := s.badHeader bs len
  if h ≠ 0 then some (h, 0xFF, 0)
  else
    let g := s.badSignature bs
    if g ≠ 0 then some (g, 0xFF, 0)
    else
      let o := s.badOwner fn bs
      if o ≠ 0 then some (o, 0xFF, 0)
      else
        match badTable bs fn with
        | some f => some f
        | none =>
          let x := bitStream bs
          match s.badRecords x with
          | some f => some f
          | none => s.badWhole x

end Sys2Proof.Machine
end

