-- ==== Sys2Proof/Machine/Bitstream.lean ====
section
/-!
DEFINITION. Loading and unloading a partition (R186, R188, R198, R214 to R240, R262), and quotas and their cuts (R312 to R317).
-/

namespace Sys2Proof.Machine
open Sys2Proof

/-! ### Quotas (R312, R315, R316) -/

/-- What a cut of tenant t chooses: cores with their extents, other extents of core memory, extents of cluster memory. -/
def State.chooseCut (s : State) (t : Nat) : List Nat × List (Nat × Nat × Nat) × List (Nat × Nat × Nat) :=
  let p := s.partOf t
  let q := s.quota t
  let cores := s.cutCores t
  let withCores := p.cm.filter (fun e => cores.contains e.1)
  let others := p.cm.filter (fun e => !(cores.contains e.1))
  let cm := s.cutExtents t false others (kib others - q.cm)
  (cores, withCores ++ cm, s.cutExtents t true p.km (s.kmUse t - q.km))

/-- The deadline of a station that a cut concerns (R316 step 2): the context of the last tile it took and the 1 + GRACE boundaries
of it that are to come; none to come where the cut itself is the deadline. -/
def State.cutDeadline (s : State) (grace : Nat) (c : Option Nat) : Nat × Nat :=
  match c with
  | some c => (c, if (s.ctx c).state = 1 then 1 + grace else 0)
  | none => (128, 0)

/-- A cut of tenant t begins (R316): the claims are chosen, deadlines set, the tenant told. -/
def State.beginCut (s : State) (t : Nat) (q : Quota) : State :=
  let cut := s.chooseCut t
  let cs := s.cutCtxs t
  let sts : SMap Station := s.stations.map (fun e => (e.1, if e.2.state != 0 && e.2.owner == t && s.inCut e.1 cut then { e.2 with deadline := some (s.cutDeadline q.grace e.2.ctx) } else e.2))
  let ctxs : SMap Context := s.ctxs.map (fun e => (e.1, if cs.contains e.1 then { e.2 with deadline := some (1 + q.grace) } else e.2))
  let s := { s with stations := sts, ctxs := ctxs }
  let s := s.setFn t { s.fnst t with cut := some cut, released := 0, parked := 0, closed := 0 }
  let n := cut.1.length + cut.2.1.length + cut.2.2.length + cs.length
  s.service t 0x01 (((pieces 4 8 (q.record t)).map (fun g => BitVec.ofNat 32 (leNat g))) ++ [BitVec.ofNat 32 n])

/-- A quota takes effect (R315 to R317): what has no usage to reclaim applies at once; usage beyond it starts a reclaim, in
place of one in progress; usage within it ends one. -/
def State.applyQuota (s : State) (t : Nat) (q : Quota) : State :=
  let s := (((s.loaderCharge t 0).setQuota t q).reclaimEnd t).ruleCut t q.wout
  if s.fits t then s else s.beginCut t q

/-- The quota in the parameters of SET_QUOTA: bytes 0x01 to 0x11 of the record from W3 on (Table 11.7). -/
def quotaParams (e : List Word) : Quota :=
  let bytes := (e.drop 3).flatMap (fun w => leBytes 4 w.toNat)
  quotaOf (fun o n => bnum bytes (o - 1) n)

/-- What SET_QUOTA does once it is carried out. -/
def State.quotaCommand (s : State) (fn : Nat) (e : List Word) : State :=
  let t := entryWord e 2
  if !(entryClean e 8) || 256 ≤ t || 256 ≤ entryWord e 7 then s.answer fn e 1 0
  else if fn ≠ 0 then s.answer fn e 2 0
  else if t = 0 || s.setting 0 < t then s.answer fn e 0x0A 0
  else (s.applyQuota t (quotaParams e)).answer fn e 0 0

/-- SET_QUOTA (R238, R307 to R310, R316, R317). -/
def execSetQuota (now : Nat) (fn : Func) (entry : List Word) (s : State) : Host.Outcome State Fault Refusal :=
  .next ((s.advance now).command fn.val 0x03 entry (fun t => t.quotaCommand fn.val entry))

/-- RECLAIM_DEADLINE (R316 step 4): a station whose deadline has passed is parked; one that is Draining once it has settled. -/
def execReclaimDeadline (now : Nat) (st : StationId) (s : State) : Host.Outcome State Fault Refusal :=
  let s := s.advance now
  let x := s.station st.val
  match x.deadline with
  | some d =>
    if d.2 = 0 && x.drain.isNone && !(x.holds.contains .reclaim) then
      let f := s.fnst x.owner
      .next ((s.setFn x.owner { f with parked := f.parked + 1 }).park st.val .reclaim)
    else .next s
  | none => .next s

/-- Whether every one of some stations is parked by the reclaim. -/
def State.allParked (s : State) (sts : List Nat) : Bool :=
  sts.all (fun st => (s.station st).state == 3 && (s.station st).holds.contains .reclaim)

/-- Releases an extent: it leaves the partition and its memory is zero. -/
def State.releaseExtent (s : State) (t : Nat) (km : Bool) (e : Nat × Nat × Nat) : State :=
  let s := s.setPart t ((s.part t).map (fun p => if km then { p with km := p.km.erase e } else { p with cm := p.cm.erase e }))
  s.zeroFill ((if km then kmBase e.1 else cmBase e.1) + e.2.1) e.2.2

/-- The arbitration weight fields by slot: CORE0 to CORE7, OCU, CSQ (R39). -/
def arbField (slot : Nat) : Fld :=
  match slot with
  | 0 => .KMC_ARBW0_W_CORE0 | 1 => .KMC_ARBW0_W_CORE1 | 2 => .KMC_ARBW0_W_CORE2 | 3 => .KMC_ARBW0_W_CORE3
  | 4 => .KMC_ARBW0_W_CORE4 | 5 => .KMC_ARBW0_W_CORE5 | 6 => .KMC_ARBW0_W_CORE6 | 7 => .KMC_ARBW0_W_CORE7
  | 8 => .KMC_ARBW1_W_OCU | _ => .KMC_ARBW1_W_CSQ

/-- CLAIM_RELEASE (R316 steps 5 and 6): the first chosen claim whose stations are all parked. -/
def execClaimRelease (now : Nat) (t : Fin 128) (s : State) : Host.Outcome State Fault Refusal :=
  let s := s.advance now
  let o := t.val + 1
  let f := s.fnst o
  match f.cut with
  | none => .next s
  | some cut =>
    let sts := s.stationsOf o
    let core := cut.1.find? (fun c => s.allParked (sts.filter (fun st => s.inCore st c)))
    let cm := cut.2.1.find? (fun e => !(cut.1.contains e.1) && s.allParked (sts.filter (fun st => s.inExtent st false e.1 e.2.1 e.2.2)))
    let km := cut.2.2.find? (fun e => s.allParked (sts.filter (fun st => s.inExtent st true e.1 e.2.1 e.2.2)))
    match core, cm, km with
    | some c, _, _ =>
      let mine := cut.2.1.filter (fun e => e.1 == c)
      let s := mine.foldl (fun u e => u.releaseExtent o false e) s
      let s := (s.setPart o ((s.part o).map (fun p => { p with cores := p.cores.erase c }))).setF (arbField (c % 8)) (c / 8) 4
      let f2 := { f with cut := some (cut.1.erase c, cut.2.1.filter (fun e => e.1 != c), cut.2.2), released := f.released + 1 + mine.length }
      .next ((s.setFn o f2).reclaimDone o)
    | none, some e, _ =>
      let f2 := { f with cut := some (cut.1, cut.2.1.erase e, cut.2.2), released := f.released + 1 }
      .next (((s.releaseExtent o false e).setFn o f2).reclaimDone o)
    | none, none, some e =>
      let f2 := { f with cut := some (cut.1, cut.2.1, cut.2.2.erase e), released := f.released + 1 }
      .next (((s.releaseExtent o true e).setFn o f2).reclaimDone o)
    | none, none, none => .next s

/-! ### Weights of a placement (R237, R262) -/

/-- The row groups of a matrix station's image on a core. -/
def State.rgsOf (s : State) (core : Nat) (d : Desc) : List Nat :=
  (engList d.engmask).flatMap (fun e =>
    (rowGroups (opwOf (d.opws.getD e 0)).rgmask).map (fun r => rgIx (s.mapOf core e) r))

/-- Whether every row group of a station holds the named layer of its owner. -/
def State.programmed (s : State) (owner model layer : Nat) (rgs : List Nat) : Bool :=
  rgs.all (fun g => s.shards.any (fun e =>
    e.2.state == 2 && e.2.owner == owner && e.2.model == model && e.2.layer == layer && e.2.rgs.contains g))

/-- Why a new matrix station is parked: weights not programmed, a suspect shard under it, or a sweep station without a
layer (R237, R265, R375). -/
def State.firstHolds (s : State) (owner : Nat) (p : PlRec) : List Hold :=
  let d := p.desc
  if d.kind ≠ 0 || p.model = 0 then []
  else if p.model = 0xFFFFFFFF then [Hold.sweep]
  else
    let rgs := s.rgsOf p.core d
    (if s.programmed owner p.model p.layer rgs then [] else [Hold.weights]) ++
    (if s.shards.any (fun e => e.2.state == 3 && e.2.owner == owner && e.2.rgs.any rgs.contains) then [Hold.suspect] else [])

/-- The row groups of a newly claimed core that hold another owner's shards are to be erased, and the records are free (R262). -/
def State.wipeCore (s : State) (owner core : Nat) : State :=
  let old := s.shards.filter (fun e => e.2.state != 0 && e.2.owner != owner && e.2.rgs.any (fun g => g / 68 == core))
  let rgs := (old.flatMap (fun e => e.2.rgs.filter (fun g => g / 68 == core))).dedup
  if rgs.isEmpty then s
  else
    let s := old.foldl (fun t e => t.setShard e.1 Shard.free) s
    s.setJobQ 0 (s.jobQ 0 ++ [{ Job.blank .wipe 0 none with rgs := rgs }])

/-! ### Loading (R236) -/

/-- Step 1: the claims, their domains and the quotas. -/
def State.loadClaims (s : State) (x : BitStream) : State :=
  let s := s.setPart x.owner (some { Partition.empty with cores := x.cores, cm := x.cm, km := x.km })
  let s := x.cores.foldl State.coreOnNow s
  let s := x.km.foldl (fun t e => if t.sharedOn e.1 then t else t.sharedUp e.1) s
  let s := x.cores.foldl (fun t c => t.wipeCore x.owner c) s
  (x.recs 14).foldl (fun t o => t.applyQuota (x.num o 1) (quotaOf (fun k n => x.num (o + k) n))) s

/-- The KM weights of an owner's slots have their reset values (R39, R232). -/
def State.arbReset (s : State) (owner : Nat) (cores : List Nat) : State :=
  let s := cores.foldl (fun t c => t.setF (arbField (c % 8)) (c / 8) 4) s
  if owner = 0 then (List.range 16).foldl (fun t c => (t.setF (arbField 8) c 4).setF (arbField 9) c 2) s else s

/-- Step 2: the KM weights; a weight given as 0 is applied as 1, one not given keeps its reset value (R39, R232). -/
def State.loadArb (s : State) (x : BitStream) : State :=
  (x.recs 15).foldl (fun t o => t.setF (arbField (x.num (o + 1) 1)) (x.num o 1) (max 1 (x.num (o + 2) 1))) (s.arbReset x.owner x.cores)

/-- A ring of a route; `stage` tells that it is the staging ring, which the producer's tile mover empties. -/
def RtRec.ring (x : BitStream) (r : RtRec) (len : Nat) (target : Option SlotRef) : Ring :=
  let link := if (match x.st? r.cons with | some t => t.kind == 8 | none => false) then x.linkOf true r.cons
    else if (match x.st? r.prod with | some t => t.kind == 9 | none => false) then x.linkOf false r.prod else none
  let l (f : RtRec → Nat) : Nat := match link with | some k => f k | none => 0
  { len := len, size := r.size, prod := if r.kind = 3 then 4096 else r.prod, prodPort := r.pport, cons := r.cons, consPort := r.cport, wr := 0, rd := 0, kind := r.kind, target := target, scale := BitVec.ofNat 32 r.scale, recip := BitVec.ofNat 32 r.recip, lport := l RtRec.lport, peer := l RtRec.peer, lchan := l RtRec.lchan, owed := [] }

/-- Step 3: the slot tables and route maps. -/
def State.loadRings (s : State) (x : BitStream) (rs : List (RtRec × SlotRef × Option SlotRef)) : State :=
  rs.foldl
    (fun t r =>
      let t := (t.ringLike r.2.1 (r.1.ring x r.1.len none) r.1.len (r.1.base / 64)).setRing r.2.1 (r.1.ring x r.1.len none)
      match r.2.2 with
      | some g =>
        let y := r.1.ring x r.1.stage (some r.2.1)
        (t.ringLike g y r.1.stage (r.1.sbase / 64)).setRing g y
      | none => t) s

/-- The thread that the owner has in a cluster. -/
def State.threadOf (s : State) (owner c : Nat) : Option Nat :=
  ((List.range 8).map (fun t => 8 * c + t)).find? (fun i => s.thState i != 0 && s.thOwner i == owner)

/-- The data of an INIT record, its relocated words with the base of the owner's program region added (R227). -/
def State.initData (s : State) (x : BitStream) (o : Nat) : List Byte :=
  let len := x.num (o + 8) 4
  let data := (x.bytes.drop (o + 16)).take len
  let base := match s.threadOf x.owner (x.num (o + 1) 1) with | some i => s.getF .CSQ_TH_REGION_BASE i | none => 0
  (List.range (x.num (o + 12) 4)).foldl
    (fun d k =>
      let r := x.num (o + 16 + len + 4 * k) 4
      d.take r ++ leBytes 4 (bnum d r 4 + base) ++ d.drop (r + 4)) data

/-- Step 4: INIT data and rescale tables. -/
def State.loadData (s : State) (x : BitStream) : State :=
  let s := (x.recs 9).foldl
    (fun t o =>
      let km := x.num o 1 == 2
      let unit := if km then x.num (o + 1) 1 else 8 * x.num (o + 1) 1 + x.num (o + 2) 1
      t.store ((if km then kmBase unit else cmBase unit) + x.num (o + 4) 4) (t.initData x o)) s
  (x.recs 5).foldl
    (fun t o => match x.pl? (x.num o 2) with
      | some p => t.store (cmBase p.core + p.desc.rsbase) ((x.bytes.drop (o + 8)).take (8 * x.num (o + 4) 2))
      | none => t) s

/-- The ring that a port of a station uses: for an output of a moved route its staging ring. -/
def ringAt (rs : List (RtRec × SlotRef × Option SlotRef)) (out : Bool) (id port : Nat) : Option SlotRef :=
  (rs.find? (fun r => if out then r.1.kind != 3 && r.1.prod == id && r.1.pport == port else r.1.cons == id && r.1.cport == port)).map
    (fun r => if out then r.2.2.getD r.2.1 else r.2.1)

/-- A route word with FIRST filled in. -/
def fillFirst (w : Nat) (h : Option SlotRef) : Nat :=
  match h with | some r => w / 131072 * 131072 + r.n * 128 + w % 128 | none => w

/-- The image of a placement with the FIRST fields of its route words (R221, R222). -/
def PlRec.filled (p : PlRec) (rs : List (RtRec × SlotRef × Option SlotRef)) : List Word :=
  p.image.zipIdx.map (fun w =>
    if 32 ≤ w.2 && w.2 < 48 && w.1.getLsbD 31 then BitVec.ofNat 32 (fillFirst w.1.toNat (ringAt rs false p.st (w.2 - 32)))
    else if 48 ≤ w.2 && w.2 < 56 && w.1.getLsbD 31 then BitVec.ofNat 32 (fillFirst w.1.toNat (ringAt rs true p.st (w.2 - 48)))
    else w.1)

/-- Step 5: the descriptors. -/
def State.loadDescs (s : State) (x : BitStream) (rs : List (RtRec × SlotRef × Option SlotRef)) : State :=
  let s := x.places.foldl (fun t p => t.writeDesc p.core p.d 0 (p.filled rs)) s
  s.setPart x.owner ((s.part x.owner).map (fun q => { q with images := x.places.map (fun p => (p.core, p.d, p.filled rs)) }))

/-- The columns that a station writes (R223): those of its table, or all that its engines have. -/
def BitStream.ncol (x : BitStream) (id : Nat) : Nat :=
  match x.tableOf id, x.pl? id with
  | some o, _ => x.num (o + 4) 2
  | none, some p => (opwOf (p.desc.opws.getD p.desc.head 0)).columns
  | none, none => 256

/-- The cluster whose registers show a station: that of its descriptor, of its matrix station, or of its ring. -/
def BitStream.home (x : BitStream) (r : StRec) (rs : List (RtRec × SlotRef × Option SlotRef)) : Nat :=
  match x.pl? r.id, x.ocuCluster r with
  | some p, _ => p.cluster
  | none, some c => c
  | none, none =>
    match (rs.find? (fun t => t.1.prod == r.id || t.1.cons == r.id)) with
    | some t => t.2.1.cluster
    | none => 0

/-- The station of a record (R152 to R154, R220, R224, R225, R236, R237). -/
def State.newStation (s : State) (x : BitStream) (rs : List (RtRec × SlotRef × Option SlotRef)) (r : StRec) : Station :=
  let p := x.pl? r.id
  let corr := x.corrOf r.id
  let mate := if r.kind = 4 then corr.map (fun o => x.num (o + 2) 2) else p.bind (fun q => q.desc.corr)
  let n := match corr with | some o => x.num (o + 36) 1 | none => 0
  let holds := match p with | some q => s.firstHolds x.owner q | none => []
  let rank := match p with | some q => s.placed + x.places.idxOf q | none => s.placed
  { Station.unloaded with kind := r.kind, state := if holds.isEmpty then 1 else 3, owner := x.owner, core := match p with | some q => q.core | none => 8 * x.home r rs, d := match p with | some q => q.d | none => 0, entry := (x.outCluster r.id).bind (fun c => (s.freeEntry c).map (fun e => (c, e))), inFmt := r.inFmt, inExp := r.inExp, outFmt := r.outFmt, outExp := r.outExp, ncol := x.ncol r.id, name := r.name, model := match p with | some q => q.model | none => 0, layer := match p with | some q => q.layer | none => 0, sens := r.sens, holds := holds, mate := mate, clip := match corr with | some o => (List.range 16).map (fun k => x.num (o + 4 + 2 * k) 2) | none => [], shadow := match corr with | some o => (List.range n).map (fun k => (x.num (o + 40 + 2 * k) 1, x.num (o + 41 + 2 * k) 1)) | none => [], ins := if hasDesc r.kind then [] else (ringAt rs false r.id 0).toList, outs := if hasDesc r.kind then [] else (ringAt rs true r.id 0).toList, ingest := match x.ingestOf r.id with | some o => (x.bytes.drop o).take 64 | none => [], order := rank }

/-- The stations, each that has an output stage with an entry of its cluster's station registers, whose counters start at 0
(R184, R185). -/
def State.loadStations (s : State) (x : BitStream) (rs : List (RtRec × SlotRef × Option SlotRef)) : State :=
  let s := x.stations.foldl
    (fun t r =>
      let y := t.newStation x rs r
      let t := t.setStation r.id y
      match y.entry with | some (c, e) => t.bindEntry c e | none => t) s
  { s with placed := s.placed + x.places.length + 1 }

/-- A thread for each cluster in which the owner claims a core, with its program region (R186, R226); without a program the
region is empty. -/
def State.loadThreads (s : State) (x : BitStream) : State :=
  x.clusters.foldl
    (fun t c =>
      match t.freeThread c with
      | none => t
      | some k =>
        let i := 8 * c + k
        let t := t.setThread i ThreadState.idle
        match x.program c with
        | some o =>
          let n := x.num (o + 4) 4
          let b := (t.freeRegion c n).getD 0
          let t := ((t.setF .CSQ_TH_STAT_STATE i 1).setF .CSQ_TH_STAT_OWNER i x.owner).setF .CSQ_TH_REGION_STRICT i (x.num (o + 1) 1 % 2)
          let t := (t.setF .CSQ_TH_REGION_BASE i b).setF .CSQ_TH_REGION_LAST i (b + n - 1)
          let ws := (List.range n).map (fun k => BitVec.ofNat 32 (x.num (o + 16 + 4 * k) 4))
          t.setPart x.owner ((t.part x.owner).map (fun q => { q with progs := q.progs ++ [(c, i, b, ws)] }))
        | none =>
          let t := (t.setF .CSQ_TH_STAT_STATE i 1).setF .CSQ_TH_STAT_OWNER i x.owner
          ((t.setF .CSQ_TH_REGION_STRICT i 0).setF .CSQ_TH_REGION_BASE i 1).setF .CSQ_TH_REGION_LAST i 0) s

/-- The words of the owner's programs are written to program memory (R188). -/
def State.loadWords (s : State) (owner : Nat) : State :=
  (s.partOf owner).progs.foldl
    (fun t p => t.store (kmBase p.1 + 0x3F0000 + 4 * p.2.2.1) (p.2.2.2.flatMap (fun w => leBytes 4 w.toNat))) s

/-- Groups and snapshot sets (R228), and mailbox channels (R232). -/
def State.loadTables (s : State) (x : BitStream) : State :=
  let s := (x.recs 10).foldl
    (fun t o => t.setGroup (x.num o 1) { Group.free with defined := true, owner := x.owner, scope := x.num (o + 1) 1, devmask := x.num (o + 2) 1, timeout := x.num (o + 4) 4, masks := x.masks o }) s
  let s := (x.recs 11).foldl
    (fun t o =>
      let d : SnapSet := { owner := x.owner, group := x.num (o + 1) 1, regions := (List.range (x.num (o + 2) 1)).map (fun k => (x.num (o + 8 + 12 * k) 4, x.num (o + 12 + 12 * k) 4, x.num (o + 16 + 12 * k) 4)) }
      { t with sets := smapSet none t.sets (x.num o 1) (some d) }) s
  let chans := (x.recs 16).map (fun o => (x.num o 1, (s.threadOf x.owner (x.num (o + 1) 1)).getD 128))
  s.setPart x.owner ((s.part x.owner).map (fun q => { q with chans := chans }))

/-- An Owl slot is bound (R132, R229). -/
def State.loadOwl (x : BitStream) (s : State) (o : Nat) : State :=
  match x.outCluster (x.num o 2) with
  | none => s
  | some c =>
    match (s.freeOwls c).head? with
    | none => s
    | some i =>
      let f (k : Nat) : List Nat := (List.range 5).map (fun j => x.num (o + k + 4 * j) 4)
      let w : Owl := { Owl.idle with margin := x.num (o + 2) 1, harden := x.num (o + 3) 1, floor := f 4, hlo := f 0x18, hhi := f 0x2C }
      let s := ((s.setOwl i w).setF .OWL_SCFG_EN i 1).setF .OWL_SCFG_STATION i (x.num o 2)
      let s := (s.setF .OWL_SSTAT_ALARM i 0).setF .OWL_SALMCNT_COUNT i 0
      (s.setPart x.owner ((s.part x.owner).map (fun q => { q with owls := q.owls ++ [i] }))).owlRelearn i

/-- A watch rule takes the lowest free place (R230, R363). -/
def State.loadRule (x : BitStream) (s : State) (o : Nat) : State :=
  match s.freeRules.head? with
  | none => s
  | some r =>
    let flags := x.num (o + 3) 1
    let w : WRule := { valid := true, station := x.num o 2, owner := x.owner, outmask := x.num (o + 2) 1, paired := flags.testBit 0, exclProv := flags.testBit 1, mask := x.num (o + 4) 2, allBits := x.num (o + 6) 1 == 1, inhibit := x.num (o + 7) 1, hold := x.num (o + 8) 4, last := false, till := none }
    (s.setWRule r w).setPart x.owner ((s.part x.owner).map (fun q => { q with rules := q.rules ++ [r] }))

/-- Everything that a load writes, in the order of R236, and the start of the threads that have a program (R190) and of the trackers
that become active (R110). -/
def State.loadAll (s : State) (x : BitStream) : State :=
  let old := s
  let s := (s.loadClaims x).loadArb x
  let rs := (s.allocRings x x.rings.length).getD []
  let s := (s.loadRings x rs).loadThreads x
  let s := ((s.loadData x).loadDescs x rs).loadStations x rs
  let s := (s.loadWords x.owner).loadTables x
  let s := (x.recs 12).foldl (State.loadOwl x) s
  let t := (x.recs 13).foldl (State.loadRule x) s
  let s := t.wioSettle s
  let s := s.setPart x.owner ((s.part x.owner).map (fun q => { q with stations := x.stations.map (·.id), groups := (x.recs 10).map (fun o => x.num o 1), sets := (x.recs 11).map (fun o => x.num o 1), slots := rs.map (fun r => r.2.1) ++ rs.filterMap (fun r => r.2.2) }))
  (s.partOf x.owner).progs.foldl (fun t p => t.threadStart p.2.1) (s.activate old)

/-- A completion of class 1 (R234). -/
def loadResult (tag code sect rec_ : Nat) : Completion :=
  { cls := 1, tag := tag, sect := sect, code := code, value := rec_, info := 0 }

/-- What LOAD_BITSTREAM does once it is carried out: a load that passes is not final before a committed checkpoint holds its
completion (R239). -/
def State.loadCommand (s : State) (fn : Nat) (e : List Word) (bytes : List Byte) : State :=
  let tag := entryTag e
  let addr := entryWord e 2 + 4294967296 * entryWord e 3
  let len := entryWord e 4
  if !(entryClean e 5) then s.answer fn e 1 0
  else
    let s := s.emit (.hostRead fn addr len)
    match s.badBitStream fn bytes len with
    | some f => s.complete fn (loadResult tag f.1 f.2.1 f.2.2)
    | none =>
      let x := bitStream bytes
      let l : Loading := { fn := fn, tag := tag, quotas := (x.recs 14).map (fun o => (x.num o 1, s.quota (x.num o 1))) }
      ({ s with loading := s.loading ++ [l] }.loadAll x).complete fn (loadResult tag 0 0 0)

/-- LOAD_BITSTREAM (R234 to R239, R307 to R309): `bytes` is what the read of the host's memory gives. In Bear state and on
the way into and out of it no partition can be loaded (Table 14.3), and the command waits. -/
def execLoadBitstream (now : Nat) (fn : Func) (entry : List Word) (bytes : List Byte) (s : State) :
    Host.Outcome State Fault Refusal :=
  let s := s.advance now
  if s.getF .GCTL_PWRST_STATE 0 ≠ 0 then .next s
  else .next (s.command fn.val 0x01 entry (fun t => t.loadCommand fn.val entry bytes))

/-! ### Unloading (R240) -/

/-- The threads of an owner. -/
def State.threadsOf (s : State) (owner : Nat) : List Nat :=
  (List.range 128).filter (fun i => s.thState i != 0 && s.thOwner i == owner)

/-- The contexts bound to an owner's gate-ingest stations. -/
def State.ctxsOf (s : State) (owner : Nat) : List Nat :=
  (s.ctxs.filter (fun e => e.2.state != 0 && e.2.owner == owner)).map (·.1)

/-- Steps 1 to 4: threads stop, stations are parked, contexts close, instances end. -/
def State.unloadStop (s : State) (owner : Nat) : State :=
  let s := (s.threadsOf owner).foldl State.threadStopNow s
  let s := (s.stationsOf owner).foldl (fun t st => t.park st .level1) s
  let s := (s.ctxsOf owner).foldl State.closeCtx s
  (s.partOf owner).groups.foldl (fun t g => t.endInstance g false true) s

/-- Whether a tile of an owner's station is in progress or an ingest job of it runs. -/
def State.ownerBusy (s : State) (owner : Nat) : Bool :=
  (s.stationsOf owner).any s.inProgress || (s.ctxsOf owner).any (fun c => (s.ctx c).running)

/-- A thread is no longer assigned. -/
def State.freeThreadAt (s : State) (i : Nat) : State :=
  let s := ((s.setF .CSQ_TH_STAT_STATE i 0).setF .CSQ_TH_STAT_OWNER i 0).setF .CSQ_TH_STAT_WAITKIND i 0
  let s := ((s.setF .CSQ_TH_REGION_STRICT i 0).setF .CSQ_TH_REGION_BASE i 0).setF .CSQ_TH_REGION_LAST i 0
  s.setThread i ThreadState.idle

/-- An Owl slot is free. -/
def State.freeOwl (s : State) (i : Nat) : State :=
  (((s.setOwl i Owl.idle).setF .OWL_SCFG_EN i 0).setF .OWL_SCFG_STATION i 0).setF .OWL_SSTAT_STATE i 0

/-- Points on a station are disarmed as it is unloaded (R438). -/
def State.disarmPoints (s : State) (st : Nat) : State :=
  (s.pointsOf st).foldl (fun t n => (t.setF .OBS_TW_CFG_ARMED n 0).setPoint n TensorPoint.idle) s

/-- The slots of a ring of an unloaded partition are free, whatever they hold. -/
def State.ringDrop (s : State) (h : SlotRef) : State :=
  ((List.range (s.ring h).len).foldl (fun t i => (t.setSlot (h.nth i) 4).setTorn (h.nth i) false) s).setRing h Ring.free

/-- Step 5: everything that the partition holds is free, with the old descriptor of a station that is Draining. -/
def State.unloadFree (s : State) (owner : Nat) : State :=
  let p := s.partOf owner
  let late := s.reclaimLate owner
  let sts := s.stationsOf owner
  let rings := (sts.flatMap s.allRings).dedup ++ (s.rings.filter (fun e => sts.contains e.2.prod || sts.contains e.2.cons)).map (fun e => slotOfKey e.1)
  let s := sts.foldl (fun t st => (t.disarmPoints st).disarmTarget false st) s
  let olds := sts.flatMap (fun st => match (s.station st).drain with | some d => [(d.core, d.d)] | none => [])
  let s := (rings.filter (fun h => (s.ring h).len != 0)).foldl State.ringDrop s
  let s := (p.images.map (fun e => (e.1, e.2.1)) ++ olds).foldl (fun t e => if t.coreOn e.1 then t.store (descAddr e.1 e.2) (leBytes 256 0) else t) s
  let s := p.owls.foldl State.freeOwl s
  let s := p.rules.foldl State.ruleFree s
  let s := p.groups.foldl (fun t g => t.setGroup g Group.free) s
  let sets := p.sets.foldl (fun m n => smapSet none m n none) s.sets
  let ms : SMap Tmv := s.tmvs.map (fun e => (e.1, ({ e.2 with refused := e.2.refused.filter (fun y => y.owner != owner) }).queued (e.2.all.filter (fun y => y.owner != owner))))
  let s := { s with sets := sets, loading := s.loading.filter (fun l => l.fn != owner), snaps := s.snaps.filter (fun n => !(p.sets.contains n.set)), flights := s.flights.filter (fun f => !(sts.contains f.station)), tmvs := ms }
  let s := s.arbReset owner p.cores
  let s := (s.threadsOf owner).foldl State.freeThreadAt s
  let s := sts.foldl (fun t st => t.setStation st Station.unloaded) s
  (s.setPart owner none).reclaimFit owner late

/-- What UNLOAD does in its turn: while a tile of the partition is in progress or an ingest job runs, it stops what it stops and
stays the next command, to be carried out to its end when it comes up again. -/
def State.unloadCommand (s : State) (fn : Nat) (e : List Word) : State :=
  if !(entryClean e 2) then (s.takeAccepted fn e).answer fn e 1 0
  else if (s.part fn).isNone then (s.takeAccepted fn e).answer fn e 8 0
  else
    let s := s.unloadStop fn
    if s.ownerBusy fn then s else ((s.unloadFree fn).takeAccepted fn e).answer fn e 0 0

/-- UNLOAD (R238, R240, R310). -/
def execUnload (now : Nat) (fn : Func) (entry : List Word) (s : State) : Host.Outcome State Fault Refusal :=
  let s := s.advance now
  .next (if s.nextUp fn.val 0x02 entry then s.unloadCommand fn.val entry else s)

/-- Everything that a load has written is removed (R239): the partition, the memory of its claims and the quotas it set. -/
def State.loadRemove (s : State) (l : Loading) : State :=
  let p := s.partOf l.fn
  let s := if (s.part l.fn).isSome then (s.unloadStop l.fn).unloadFree l.fn else s
  let s := p.cm.foldl (fun u e => u.zeroFill (cmBase e.1 + e.2.1) e.2.2) s
  let s := p.km.foldl (fun u e => u.zeroFill (kmBase e.1 + e.2.1) e.2.2) s
  l.quotas.foldl (fun t q => t.applyQuota q.1 q.2) s

end Sys2Proof.Machine
end

