-- ==== Sys2Proof/Machine/Engine.lean ====
section
/-!
DEFINITION. The steps of a matrix engine, its chain adder and output stage, and of the outlier correction unit (R49 to
R73, R464, R92 to R100, R127 to R131). An engine operand names the logical engine (R32) unless it is of type `Eng`.
-/

namespace Sys2Proof.Machine
open Sys2Proof

/-! ### Loading a vector -/

/-- The bytes that an engine reads of each tile of a window for vector v: elements from `lo` for `n` of the concatenation. -/
def State.readWindow (s : State) (master fmt v lo n : Nat) (newest : SlotRef) (ins : List SlotRef) : State :=
  (ins.foldl
    (fun (acc : State × Nat) r =>
      let t := acc.1
      let len := if (t.hdrFlags r).testBit 2 then t.hdrNelem newest else t.hdrNelem r
      let a := max lo acc.2
      let b := min (lo + n) (acc.2 + len)
      let t2 := if a < b && v < t.hdrNvec r then
          t.readEcc master (t.slotAddr r + 64 + v * vstride fmt len + 2 * (a - acc.2)) (2 * (b - a)) else t
      (t2, acc.2 + len)) (s, 0)).1

/-- The term of column j of a vector request, over the rows given with their copies (R128). -/
def State.vectorTerm (s : State) (cst wmode : Nat) (codes residuals : List Int) (rows : List (Nat × Nat)) (j : Nat) : Int :=
  (rows.map (fun (p : Nat × Nat) =>
    residuals.getD p.2 0 * s.shadowCol cst p.1 wmode j + codes.getD p.2 0 * s.weakCol cst p.1 wmode j)).sum

/-- The vector request of R128: terms by column for clip residuals and weak cells, and the rows it takes. DESIGN CHOICE: the weak-cell
term of a clipped row takes the clipped code, which is the one driven (log entry 86). -/
def State.vectorTerms (s : State) (c : Station) (cst e wmode : Nat) (codes residuals : List Int) : List (Nat × Int) × Nat :=
  let rows := (c.shadowRows e).filter (fun (p : Nat × Nat) =>
    residuals.getD p.2 0 != 0 || (codes.getD p.2 0 != 0 && s.hasWeak cst p.1))
  let terms := (List.range (if wmode = 0 then 256 else 128)).map (fun j =>
    (j, s.vectorTerm cst wmode codes residuals rows j))
  (terms.filter (fun t => t.2 != 0), rows.length)

/-- Loads vector v of a tile into a free buffer of an engine: codes, clipping, zero detection and the vector request. -/
def State.loadVector (s : State) (cl core e pe : Nat) (t : Tile) : State :=
  let x := s.engine pe
  let st := s.station t.st
  let d := s.desc core t.d
  let v := x.nextV
  let o := opwOf x.opw.toNat
  let newest := t.ins.getLastD { km := false, unit := 0, n := 0 }
  let s := s.readWindow (fnMaster st.owner) st.inFmt v (d.rowBase e) (64 * (rowGroups o.rgmask).length) newest t.ins
  let elems := s.windowVec st.inFmt v t.ins
  let rows := (List.range 256).map (rowIn d e st.inFmt st.inExp elems)
  let sats := (rows.filter RowIn.sat).length
  let corr := st.mate.map s.station
  let cut : List (Int × Int) := rows.zipIdx.map (fun (p : RowIn × Nat) => match corr with | some c => clip c e p.2 p.1.code | none => (p.1.code, 0))
  let codes := cut.map (·.1)
  let sched := schedule o (s.bringup cl) codes
  let req : List (Nat × Int) × Nat := match corr, st.mate with
    | some c, some cst => s.vectorTerms c cst e o.wmode codes (cut.map (·.2))
    | _, _ => ([], 0)
  let asked := req.2 != 0
  let vec : Vec := { d := t.d, v := v, codes := codes, todo := sched.1, started := false, provMask := 0, poison := rows.any RowIn.poison, sat := false, prov := s.bringup cl, ocu := asked.toNat, pre := [], bring := s.bringup cl }
  let x := if x.cur.isNone then { x with cur := some vec, nextV := v + 1 } else { x with nxt := some vec, nextV := v + 1 }
  let s := (s.setEngine pe x).meWrap .ME_SKIPCNT_COUNT pe sched.2
  let s := if sats = 0 then s else s.count t.st 0 sats
  let r : OcuReq := { core := core, eng := pe, d := t.d, v := v, esc := false, rows := req.2, terms := req.1, at_ := s.time }
  if asked then s.ocuPush cl r else s

/-- VECTOR_LOAD (R53, R55, R93 to R95, R127, R128): not while the stepper holds a request of the station (R42). -/
def execVectorLoad (now : Nat) (cl : Cluster) (co : Core) (e : Fin 16) (s : State) : Host.Outcome State Fault Refusal :=
  let s := s.advance now
  let core := coreIx cl co
  let pe := s.physOf core e.val
  let x := s.engine pe
  match x.tile.bind (s.tileOf core) with
  | some t =>
    if x.nextV < t.nvec && (x.cur.isNone || x.nxt.isNone) && !(s.ocuStalls cl.val core x.station) then .next (s.loadVector cl.val core e.val pe t) else .next s
  | none => .next s

/-! ### A phase -/

/-- What a phase finds of the weight pairs of an engine: the conversion of each of the 256 columns. -/
def State.phaseConvs (s : State) (pe : Nat) (nibs : List Nat) (r lsb : Nat) (bringup : Bool) (satpol : Nat) (covered : Bool) :
    List Conv :=
  (List.range 256).map (fun j =>
    let p := s.pairOf pe j
    convPair (s.halfSum pe p (nibs.take 32) (64 * r)) (s.halfSum pe p (nibs.drop 32) (64 * r + 32)) lsb bringup satpol covered)

/-- The reference sample of a phase (R106) joins the samples of its row group's interval. -/
def State.sample (s : State) (pe r : Nat) (nibs : List Nat) (bringup : Bool) : State :=
  let x := s.tracker (rgIx pe r)
  let unit : Nat := if bringup then 2048 else 512
  let vsum := nibs.sum
  let code (f : Nat) : Int := roundAway (s.halfSum pe f nibs (64 * r)) unit * unit
  let cs := [273, 274, 275].map (fun f => (refLevel f * vsum, code f))
  let c := x.cur
  let gain := 64 ≤ vsum
  let c1 := { c with nOff := c.nOff + 1, sumF0 := c.sumF0 + code 272 }
  let c2 := if gain then
      { c1 with nGain := c.nGain + 1, sEC := c.sEC + (cs.map (fun p => p.1 * p.2)).sum, sE := c.sE + (cs.map (·.1)).sum, sCC := c.sCC + (cs.map (fun p => p.2 * p.2)).sum, sC := c.sC + (cs.map (·.2)).sum }
    else c1
  s.setTracker (rgIx pe r) { x with cur := c2 }

/-- Adds the contribution of a finished phase (R66), one correction for each unit that contributed a code. -/
def State.contribute (s : State) (pe : Nat) (ph : Phase) (o : Opw) (bringup : Bool) : State :=
  let e := s.engine pe
  let gain := s.getF .ME_DTGAIN_GAIN (rgIx pe ph.rg)
  let offset := int16Val (s.getF .ME_DTOFS_OFFSET (rgIx pe ph.rg))
  let a := o.avg bringup
  let w : Int := (if ph.neg then -1 else 1) * (16 ^ ph.nib : Nat)
  let r := e.codeN.foldl
    (fun m u => addAcc m (columnOf o.wmode u.1)
      (w * sliceWeight o.wmode u.1 * corrected gain offset (smapGet 0 e.codeSum u.1) u.2 a)) (e.acc, 0)
  (s.setEngine pe { e with acc := r.1, codeSum := [], codeN := [] }).accSat pe r.2

/-- The share of conversion k of the `a` that R66 averages in an exact sum p: the shares of all of them make p exactly. -/
def shareOf (p : Int) (a k : Nat) : Int := (p * (k + 1 : Nat)) / a - (p * k) / a

/-- The exact sums that an escalation adds for the masked pairs (R62), from the digital shadow: each conversion its share, so that
twin pairs and repetitions that all escalate add the exact sum once (log entry 41). -/
def State.escTerms (s : State) (c : Station) (cst e : Nat) (ph : Phase) (o : Opw) (bringup : Bool) (nibs : List Nat)
    (convs : List Conv) : List (Nat × Int) :=
  let w : Int := (if ph.neg then -1 else 1) * (16 ^ ph.nib : Nat)
  convs.zipIdx.filterMap (fun p =>
    if p.1.esc then
      let total := (nibs.zipIdx.map (fun q => (q.1 : Int) * s.shadowLevel cst (c.copyOf e (64 * ph.rg + q.2)) p.2)).sum
      let u := unitOf o.wmode p.2
      let k := ph.rep * (if o.wmode = 2 then 2 else 1) + (if o.wmode = 2 then p.2 % 2 else 0)
      some (columnOf o.wmode u, w * sliceWeight o.wmode u * shareOf total (o.avg bringup) k)
    else none)

/-- Runs the next phase of the current vector. -/
def State.runPhase (s : State) (cl core e pe : Nat) (x : Engine) (vec : Vec) (ph : Phase) (rest : List Phase) : State :=
  let st := s.station x.station
  let o := opwOf x.opw.toNat
  let bringup := vec.bring
  let nibs := ((vec.codes.drop (64 * ph.rg)).take 64).map (fun c => nibble c ph.neg ph.nib)
  let corr := st.mate.map s.station
  let covered := match corr with | some c => c.covers e ph.rg | none => false
  let convs := s.phaseConvs pe nibs ph.rg (lsb o.gain bringup) bringup (if o.gain = 0 then 0 else o.satpol) covered
  let clamps := (convs.map Conv.clamps).sum
  let split := convs.any Conv.split
  let esc := convs.any Conv.esc
  let miss := convs.any Conv.miss
  let opens := !vec.started
  let prov := if opens then
      (List.range 4).foldl (fun m r => withBit m r (s.bit .ME_DTGAIN_PROV (rgIx pe r))) 0
    else vec.provMask
  let vec := { vec with todo := rest, started := true, provMask := prov, prov := vec.prov || prov.testBit ph.rg, sat := vec.sat || clamps != 0 || miss, ocu := vec.ocu + esc.toNat }
  let sums := convs.zipIdx.foldl
    (fun (m : SMap Int × SMap Nat) p =>
      let u := unitOf o.wmode p.2
      (smapSet 0 m.1 u (smapGet 0 m.1 u + p.1.val), smapSet 0 m.2 u (smapGet 0 m.2 u + p.1.n)))
    (x.codeSum, x.codeN)
  let y := { x with cur := some vec, rg := ph.rg, neg := ph.neg, codeSum := sums.1, codeN := sums.2, ran := x.ran || (opens && s.opWaits pe) }
  let s := (s.setEngine pe y).sample pe ph.rg nibs bringup
  let s := (s.meWrap .ME_PHCNT_COUNT pe (1 + split.toNat)).meHold .ME_SATCNT_COUNT pe clamps
  let s := ((s.meHold .ME_SPLITCNT_COUNT pe split.toNat).meHold .ME_ESCCNT_COUNT pe esc.toNat).meHold
    .ME_ESCMISS_COUNT pe miss.toNat
  let last := match rest with
    | p :: _ => p.rg != ph.rg || p.neg != ph.neg || p.nib != ph.nib
    | [] => true
  let s := if last then s.contribute pe ph o bringup else s
  match corr, st.mate, esc with
  | some c, some cst, true => s.ocuPush cl { core := core, eng := pe, d := vec.d, v := vec.v, esc := true, rows := 64, terms := s.escTerms c cst e ph o bringup nibs convs, at_ := s.time }
  | _, _, _ => s

/-- ENGINE_PHASE (R48 to R67, R106, R108): the next phase of the vector in the engine. A first phase waits while an
operation waits behind a vector that has run ahead of it (R80), and every phase while the stepper holds a request of the
station (R42). -/
def execEnginePhase (now : Nat) (cl : Cluster) (co : Core) (e : Fin 16) (s : State) : Host.Outcome State Fault Refusal :=
  let s := s.advance now
  let core := coreIx cl co
  let pe := s.physOf core e.val
  let x := s.engine pe
  match x.cur with
  | some vec =>
    (match vec.todo with
      | ph :: rest =>
        if (!vec.started && x.ran && s.opWaits pe) || s.ocuStalls cl.val core x.station then .next s
        else .next (s.runPhase cl.val core e.val pe x vec ph rest)
      | [] => .next s)
  | none => .next s

/-- READOUT_COPY (R68): the bank goes into the free latch and is cleared, once the OCU has added all of the vector's terms
(R62, R128); the vector in the second buffer becomes the current one. -/
def execReadoutCopy (now : Nat) (cl : Cluster) (co : Core) (e : Fin 16) (s : State) : Host.Outcome State Fault Refusal :=
  let s := s.advance now
  let pe := s.physOf (coreIx cl co) e.val
  let x := s.engine pe
  match x.cur, x.latch with
  | some vec, none =>
    if vec.todo.isEmpty && vec.ocu == 0 then
      let l : Latch := { d := vec.d, v := vec.v, vals := (List.range x.columns).map (smapGet 0 x.acc), poison := vec.poison, sat := vec.sat, prov := vec.prov, since := s.time, summed := false, padded := false, offered := false }
      let pre := match x.nxt with | some n => n.pre | none => []
      let nxt := x.nxt.map (fun n => { n with pre := [] })
      .next ((s.setEngine pe { x with latch := some l, acc := [], cur := nxt, nxt := none }).addTerms pe pre)
    else .next s
  | _, _ => .next s

/-! ### Chains (R69, R70) -/

/-- The latches of a chain's members, when each holds the same vector and the head has not been summed. -/
def State.chainReady (s : State) (core : Nat) (d : Desc) (di : Nat) : Option (List Latch) :=
  let ls := d.members.map (fun m => (s.engine (s.physOf core m)).latch)
  if 2 ≤ d.members.length && ls.all (fun l => match l with
      | some y => y.d == di && !y.summed && (match ls.headD none with | some h => h.v == y.v | none => false)
      | none => false)
  then some (ls.filterMap id) else none

/-- The chains of a core that are ready: when the last latch filled, the head, and the descriptor. -/
def State.readyChains (s : State) (core : Nat) : List (Nat × Nat × Nat) :=
  ((s.coreTiles core).filter (fun t => t.unit < 16)).filterMap (fun t =>
    let d := s.desc core t.d
    (s.chainReady core d t.d).map (fun ls => ((ls.map Latch.since).foldl max 0, d.head, t.d)))

/-- The first of a list in an order of pairs. -/
def first (xs : List (Nat × Nat × Nat)) : Option (Nat × Nat × Nat) :=
  xs.foldl
    (fun m x => match m with
      | none => some x
      | some y => if x.1 < y.1 || (x.1 == y.1 && x.2.1 < y.2.1) then some x else some y) none

/-- Sums the latches of a chain into the head's latch. A sum that poison taints counts no saturation (R92). DESIGN CHOICE: of the vector's
sum each column that saturates counts once, as each is an addition of R67 (log entry 87). -/
def State.sumChain (s : State) (core di : Nat) (ls : List Latch) : State :=
  let d := s.desc core di
  let hp := s.physOf core d.head
  let cols := (s.engine hp).columns
  let sums := (List.range cols).map (fun j => sat32 ((ls.map (fun l => l.vals.getD j 0)).sum))
  let nsat := if ls.any Latch.poison then 0 else (sums.filter (·.2)).length
  let s := d.members.foldl (fun t m => let p := t.physOf core m; t.setEngine p { t.engine p with latch := none }) s
  let l : Latch := { d := di, v := (ls.head?.map Latch.v).getD 0, vals := sums.map (·.1), poison := ls.any Latch.poison, sat := ls.any Latch.sat || nsat != 0, prov := ls.any Latch.prov, since := s.time, summed := true, padded := false, offered := false }
  (s.setEngine hp { s.engine hp with latch := some l }).meHold .ME_ACCSAT_COUNT hp nsat

/-- CHAIN_ADD (R69, R70): the chain that became ready first, then the lowest head. -/
def execChainAdd (now : Nat) (cl : Cluster) (co : Core) (s : State) : Host.Outcome State Fault Refusal :=
  let s := s.advance now
  let core := coreIx cl co
  match first (s.readyChains core) with
  | some (_, _, di) =>
    (match s.chainReady core (s.desc core di) di with
      | some ls =>
        if smapGet 0 s.adderFree core ≤ s.time then
          let s := s.sumChain core di ls
          .next { s with adderFree := smapSet 0 s.adderFree core (s.time + 8) }
        else .next s
      | none => .next s)
  | none => .next s

/-! ### The output stage (R72, R73, R96 to R100) -/

/-- The latch of a lone engine or chain head whose result is complete: the tile, the word and the latch. -/
def State.resultOf (s : State) (core e : Nat) : Option (Tile × Opw × Latch) :=
  let x := s.engine (s.physOf core e)
  match x.latch, x.tile.bind (s.tileOf core) with
  | some l, some t =>
    let o := opwOf x.opw.toNat
    if o.pos = 0 && (o.len ≤ 1 || l.summed) then some (t, o, l) else none
  | _, _ => none

/-- The vector of a partial-sum tile: its int32 values, or none where it counts as poison (R73, R96). -/
def State.partial_ (s : State) (r : SlotRef) (v cols : Nat) : Option (List Int) :=
  let a := s.slotAddr r + 64 + 1024 * v
  let flags := s.hdrFlags r
  let vals := (List.range cols).map (fun j => (BitVec.ofNat 32 (leNat (s.bytes (a + 4 * j) 4))).toInt)
  if flags.testBit 2 || s.hdrNvec r ≤ v || s.readsPoison a (4 * cols) ||
      (flags.testBit 1 && vals.any (fun x => x == -2147483648)) then none
  else some vals

/-- PARTIAL_SUM_ADD (R73): adds the partial-sum vectors once their tiles are full. -/
def execPartialSumAdd (now : Nat) (cl : Cluster) (co : Core) (e : Fin 16) (s : State) :
    Host.Outcome State Fault Refusal :=
  let s := s.advance now
  let core := coreIx cl co
  let pe := s.physOf core e.val
  match s.resultOf core e.val with
  | some (t, o, l) =>
    if o.addin && !l.padded && t.parts.all (fun r => s.slot r == 2 || s.slot r == 3) then
      let owner := (s.station t.st).owner
      let s := t.parts.foldl
        (fun u r => (if u.slot r == 2 then (if u.torn r then (u.setTorn r false).count t.st 2 1 else u).setSlot r 3 else u).readEcc
          (fnMaster owner) (u.slotAddr r + 64 + 1024 * l.v) 1024) s
      let ps := t.parts.map (fun r => s.partial_ r l.v l.vals.length)
      let flags := t.parts.foldl (fun m r => m ||| ((s.hdrFlags r) &&& 0xB)) 0
      let poison := l.poison || ps.any Option.isNone
      let acc := (ps.filterMap id).foldl
        (fun (m : List Int × Nat) p =>
          let r := m.1.zipIdx.map (fun q => sat32 (q.1 + p.getD q.2 0))
          (r.map (·.1), m.2 + (r.filter (·.2)).length)) (l.vals, 0)
      let nsat := if poison then 0 else acc.2
      let l2 := { l with vals := acc.1, poison := poison, sat := l.sat || nsat != 0, padded := true }
      let x := s.engine pe
      let s := (s.setEngine pe { x with latch := some l2 }).meHold .ME_ACCSAT_COUNT pe nsat
      .next (s.putTile core { t with flags := t.flags ||| flags })
    else .next s
  | none => .next s

/-- Ends a vector: its flags join the tile's, the latch is free and the vector is written (R65, R92, R111). -/
def State.vectorDone (s : State) (core pe : Nat) (t : Tile) (l : Latch) (sats : Nat) : State :=
  let f := (if l.prov then 1 else 0) ||| (if l.poison then 2 else 0) ||| (if l.sat || sats != 0 then 8 else 0)
  let x := s.engine pe
  let s := s.setEngine pe { x with latch := none }
  let s := s.putTile core { t with flags := t.flags ||| f, done := t.done ++ [l.v], pois := if l.poison then t.pois ++ [l.v] else t.pois }
  if sats = 0 then s else s.count t.st 0 sats

/-- Writes bytes of a vector into the output slot of a tile. -/
def State.putVector (s : State) (core : Nat) (t : Tile) (stride v : Nat) (bs : List Byte) : State :=
  match t.outs.head? with
  | some r =>
    let w := s.writeMem (fnMaster (s.station t.st).owner) (fun _ => false) (s.slotAddr r + 64 + v * stride) (padTo stride bs)
    if w.2 then w.1.putTile core { t with flags := t.flags ||| 2 } else w.1
  | none => s

/-- Entry j of a rescale table as 64 bits, and whether its word is poison. -/
def State.tableEntry (s : State) (core base j : Nat) : Nat × Bool :=
  let a := cmBase core + base + 8 * j
  (leNat (s.bytes a 8), s.readsPoison a 8)

/-- The element that table rescale gives for column j (R98), and whether it saturates. -/
def State.rescaleCol (s : State) (core base j : Nat) (a : Int) (poison : Bool) : Nat × Bool :=
  let e := s.tableEntry core base j
  if poison || e.2 then (0x8000, false)
  else
    let r := rescale a (int16Val (e.1 % 65536)) (e.1 / 65536 % 64) (int16Val (e.1 / 4294967296 % 65536))
    (half r.1, r.2)

/-- A vector with OUT = 0: rescaled by table and written to core memory (R72, R97, R98). -/
def State.outTable (s : State) (core pe : Nat) (t : Tile) (l : Latch) : State :=
  let st := s.station t.st
  let base := (s.desc core t.d).rsbase
  let s := s.readEcc (fnMaster st.owner) (cmBase core + base) (8 * st.ncol)
  let els := (List.range st.ncol).map (fun j => s.rescaleCol core base j (l.vals.getD j 0) l.poison)
  let tainted := l.poison || (List.range st.ncol).any (fun j => (s.tableEntry core base j).2)
  let s := s.putVector core t (vstride 0 st.ncol) l.v (els.flatMap (fun x => leBytes 2 x.1))
  match s.tileOf core t.d with
  | some u => s.vectorDone core pe u { l with poison := tainted } (els.filter (·.2)).length
  | none => s

/-- A vector with OUT = 2: the int32 values of a partial-sum vector, or all poison (R72, R96). -/
def State.outSpill (s : State) (core pe : Nat) (t : Tile) (l : Latch) : State :=
  let vals := (List.range 256).map (fun j => if l.poison then (0x80000000 : Nat) else (BitVec.ofInt 32 (l.vals.getD j 0)).toNat)
  let s := s.putVector core t 1024 l.v (vals.flatMap (leBytes 4))
  match s.tileOf core t.d with
  | some u => s.vectorDone core pe u l 0
  | none => s

/-- OUTPUT_STAGE (R72): a complete result with its partial sums added is treated as OUT selects; with OUT = 1 it is offered
to the VXE and keeps its latch (R464). -/
def execOutputStage (now : Nat) (cl : Cluster) (co : Core) (e : Fin 16) (s : State) : Host.Outcome State Fault Refusal :=
  let s := s.advance now
  let core := coreIx cl co
  let pe := s.physOf core e.val
  match s.resultOf core e.val with
  | some (t, o, l) =>
    if o.addin && !l.padded then .next s
    else if o.out = 0 then .next (s.outTable core pe t l)
    else if o.out = 1 then
      let x := s.engine pe
      .next (s.setEngine pe { x with latch := some { l with offered := true } })
    else .next (s.outSpill core pe t l)
  | none => .next s

/-- The element that the floating-point rescale gives (R100): a free value where scale or bias is not finite. -/
def State.fpCol (s : State) (core base fmt : Nat) (exp : Int) (j : Nat) (a : Int) (poison : Bool) : Nat × Bool :=
  let e := s.tableEntry core base j
  let f := e.1 % 4294967296
  let b := e.1 / 4294967296
  if poison || e.2 then (poisonElem fmt, false)
  else if fp32Exp f = 255 || fp32Exp b = 255 then
    (cleanElem fmt ((Config.freeByte s.fresh (2 * j)).toNat + 256 * (Config.freeByte s.fresh (2 * j + 1)).toNat),
      Config.freeBool (s.fresh + j))
  else toElem fmt exp (fp32Val (rescaleFp a f b))

/-- A tile in progress on the VXE has its turn before the next OUT = 1 vector: the VXE works one vector of it, and after that OUT = 1
vector another is due (R464). -/
def State.vxeTurn (s : State) (core : Nat) : State :=
  s.setCoreTiles core ((s.coreTiles core).map (fun t =>
    if t.unit = 17 then { t with worked := if t.turn then min (t.worked + 1) t.nvec else t.worked, turn := true } else t))

/-- VXE_RESCALE (R464, R100): the VXE takes the vector whose latch filled first and writes it in the output format, after a vector of
a tile in progress on it if that has its turn. -/
def execVxeRescale (now : Nat) (cl : Cluster) (co : Core) (s : State) : Host.Outcome State Fault Refusal :=
  let core := coreIx cl co
  let s := s.advance now
  match first (s.offered core) with
  | some (_, e, _) =>
    (match s.resultOf core e with
      | some (t, _, l) =>
        let s := s.vxeTurn core
        let st := s.station t.st
        let base := (s.desc core t.d).rsbase
        let s := s.readEcc (fnMaster st.owner) (cmBase core + base) (8 * st.ncol)
        let els := (List.range st.ncol).map (fun j => s.fpCol core base st.outFmt st.outExp j (l.vals.getD j 0) l.poison)
        let tainted := l.poison || (List.range st.ncol).any (fun j => (s.tableEntry core base j).2)
        let s := s.burn.putVector core t (vstride st.outFmt st.ncol) l.v (els.flatMap (fun x => leBytes 2 x.1))
        (match s.tileOf core t.d with
          | some u => .next (s.vectorDone core (s.physOf core e) u { l with poison := tainted } (els.filter (·.2)).length)
          | none => .next s)
      | none => .next s)
  | none => .next s

/-- ENGINE_CLR_CNT (R87): the clear also keeps out what else is counted in its cycle. -/
def execEngineClrCnt (now : Nat) (cl : Cluster) (co : Core) (e : Eng) (s : State) : Host.Outcome State Fault Refusal :=
  let s := s.advance now
  let pe := engIx (coreIx cl co) e.val
  .next (s.onReg 0x20 .ME_CTL [cl.val, co.val, e.val] (coreIx cl co)
    ({ [Fld.ME_PHCNT_COUNT, .ME_SKIPCNT_COUNT, .ME_SATCNT_COUNT, .ME_SPLITCNT_COUNT, .ME_ESCCNT_COUNT,
      .ME_ESCMISS_COUNT, .ME_ACCSAT_COUNT].foldl (fun t f => t.setF f pe 0) s with clrAt := smapSet 0 s.clrAt pe (s.time + 1) }))

/-! ### The outlier correction unit -/

/-- Serves the request at the head of a cluster's queue: its terms go to the bank of its vector, or wait with the vector in
the second buffer. -/
def State.serveOcu (s : State) (c : Nat) (r : OcuReq) (rest : List OcuReq) : State :=
  let o := s.ocu c
  let cost := if r.esc then 276 else 20 + 4 * r.rows
  let s := s.setOcu c { o with queue := rest, busy := min (o.busy + cost) 4294967295 }
  let s := s.addHold (if r.esc then .OCU_EREQ_COUNT else .OCU_VREQ_COUNT) c 1
  let x := s.engine r.eng
  let mine (v : Vec) : Bool := v.d == r.d && v.v == r.v
  let s := match x.cur, x.nxt with
    | some v, n =>
      if mine v then (s.setEngine r.eng { x with cur := some { v with ocu := v.ocu - 1 } }).addTerms r.eng r.terms
      else match n with
        | some w => if mine w then s.setEngine r.eng { x with nxt := some { w with ocu := w.ocu - 1, pre := w.pre ++ r.terms } } else s
        | none => s
    | none, _ => s
  s.ocuRefill c r.core

/-- OCU_VECTOR_SERVICE (R128, R130): the request at the head of the queue is a vector request. -/
def execOcuVectorService (now : Nat) (cl : Cluster) (s : State) : Host.Outcome State Fault Refusal :=
  let s := s.advance now
  match (s.ocu cl.val).queue with
  | r :: rest => if r.esc then .next s else .next (s.serveOcu cl.val r rest)
  | [] => .next s

/-- OCU_ESCALATION_SERVICE (R62, R130): the request at the head of the queue is an escalation. -/
def execOcuEscalationService (now : Nat) (cl : Cluster) (s : State) : Host.Outcome State Fault Refusal :=
  let s := s.advance now
  match (s.ocu cl.val).queue with
  | r :: rest => if r.esc then .next (s.serveOcu cl.val r rest) else .next s
  | [] => .next s

/-- OCU_CLR_CNT (R131): the counters and HIWAT. -/
def execOcuClrCnt (now : Nat) (cl : Cluster) (s : State) : Host.Outcome State Fault Refusal :=
  let c := cl.val
  let s := s.advance now
  let t := s.setOcu c { s.ocu c with busy := 0, stall := 0 }
  .next (s.onReg 0x20 .OCU_CTL [c] c
    (((t.setF .OCU_VREQ_COUNT c 0).setF .OCU_EREQ_COUNT c 0).setF .OCU_STAT_HIWAT c 0))

end Sys2Proof.Machine
end

