-- ==== Sys2Proof/Machine/Loader.lean ====
section
/-!
DEFINITION. Beaver, the weight loader: shards and key envelopes (R241 to R248), the job queues (R249, R250), erase and
program (R251 to R254), read-back (R257 to R260), swaps and sweep mode (R263 to R266), and results (R271, R272).
-/

namespace Sys2Proof.Machine
open Sys2Proof

/-! ### Shards (R241 to R245) -/

/-- The header and digest at the start of a shard (Table 9.1). -/
def shardHead (bs : List Byte) : ShardHead :=
  { bytes := bs.take 64, digest := (bs.drop 64).take 32, model := bnum bs 4 4, shard := bnum bs 8 2, layer := bnum bs 0x0A 2, station := bnum bs 0x0C 2, k0 := bnum bs 0x0E 2, krows := bnum bs 0x10 2, ncols := bnum bs 0x12 2, srcfmt := bnum bs 0x14 1, qmode := bnum bs 0x15 1, keyslot := bnum bs 0x16 1, paylen := bnum bs 0x18 4, nonce := (bs.drop 0x1C).take 12 }

/-- Bits of an element of SRCFMT. -/
def ShardHead.width (h : ShardHead) : Nat := match h.srcfmt % 4 with | 0 => 8 | 1 => 4 | _ => 16

/-- The plaintext length that the layout of R244 gives. -/
def ShardHead.plain (h : ShardHead) : Nat :=
  (if h.qmode = 1 then 4 * h.ncols else 0) + (h.krows * h.ncols * h.width + 7) / 8

/-- Whether a header of a shard of a length breaks R241. -/
def ShardHead.bad (h : ShardHead) (len : Nat) : Bool :=
  let b := h.bytes
  bnum b 0 4 != 0x4853515A || h.model = 0 || h.model = 0xFFFFFFFF || 4095 < h.station || 4095 < h.k0 ||
  h.krows = 0 || 4096 < h.krows || h.ncols = 0 || 256 < h.ncols || 7 < h.srcfmt || 1 < h.qmode || 31 < h.keyslot ||
  bnum b 0x17 1 != 0 || bnum b 0x2C 20 != 0 || len != 112 + h.paylen || 4194304 < len || h.paylen != h.plain ||
  (h.qmode = 0 && 2 ≤ h.srcfmt % 4)

/-- The position of an element of inner row k and column n in the payload (R244). -/
def ShardHead.place (h : ShardHead) (k n : Nat) : Nat := if h.srcfmt < 4 then k * h.ncols + n else n * h.krows + k

/-- A number m × 2^e of a floating-point source element with fb fraction bits; none for NaN and infinity. -/
def floatElem (eb fb x : Nat) : Option (Int × Int) :=
  let e := x / 2 ^ fb % 2 ^ eb
  let f := x % 2 ^ fb
  let bias : Nat := 2 ^ (eb - 1) - 1
  if e = 2 ^ eb - 1 then none
  else
    let m : Nat := if e = 0 then f else (2 ^ fb + f) * 2 ^ (e - 1)
    some (if x.testBit (eb + fb) then -(m : Int) else m, 1 - (bias : Int) - fb)

/-- An element of SRCFMT as m × 2^e. -/
def ShardHead.elem (h : ShardHead) (els : List Byte) (i : Nat) : Option (Int × Int) :=
  match h.srcfmt % 4 with
  | 0 => some ((BitVec.ofNat 8 (bnum els i 1)).toInt, 0)
  | 1 => some ((BitVec.ofNat 4 (bnum els (i / 2) 1 / 16 ^ (i % 2))).toInt, 0)
  | 2 => floatElem 5 10 (bnum els (2 * i) 2)
  | _ => floatElem 8 7 (bnum els (2 * i) 2)

/-- The level code of an element and whether it was clamped; none is LEVEL_RANGE (R244). -/
def ShardHead.levelOf (h : ShardHead) (els : List Byte) (qs : List Nat) (most : Int) (k n : Nat) : Option (Int × Bool) :=
  match h.elem els (h.place k n) with
  | none => none
  | some (m, e) =>
    if h.qmode = 0 then (if m.natAbs ≤ most.natAbs then some (m, false) else none)
    else
      let q := qs.getD n 0
      let p := toFp32 (m * fp32Val q) (e - 149)
      if fp32IsInf p then none
      else
        let v := roundAway (fp32Val p) (2 ^ 149)
        some (if v < -most then -most else if most < v then most else v, decide (most < v) || decide (v < -most))

/-- Collects results, none when one is missing. -/
def allSome {α : Type} : List (Option α) → Option (List α)
  | [] => some []
  | none :: _ => none
  | some x :: xs => (allSome xs).map (fun ys => x :: ys)

/-- The level codes of a payload by inner row and column, and how many were clamped (R244). -/
def ShardHead.levels (h : ShardHead) (wmode : Nat) (plain : List Byte) : Option (List Int × Nat) :=
  let qs := if h.qmode = 1 then (List.range h.ncols).map (fun n => bnum plain (4 * n) 4) else []
  let els := if h.qmode = 1 then plain.drop (4 * h.ncols) else plain
  let most : Int := if wmode = 1 then 255 else 15
  if qs.any (fun q => !(fp32PosNormal q)) then none
  else
    (allSome ((List.range (h.krows * h.ncols)).map (fun i => h.levelOf els qs most (i / h.ncols) (i % h.ncols)))).map
      (fun xs => (xs.map (·.1), (xs.filter (·.2)).length))

/-! ### Jobs (R249, R250) -/

/-- A class 2 completion (Table 9.6). -/
def State.loaderAnswer (s : State) (owner : Nat) (tag : Option Nat) (code info : Nat) : State :=
  match tag with
  | some t => s.complete owner (result 2 t code 0 info)
  | none => s

/-- The end of a swap or sweep: a further one may be commanded, and a station that stalled without its layer stays parked
for want of weights. -/
def State.swapEnd (s : State) (j : Job) (ok : Bool) : State :=
  let y := s.station j.station
  if !(j.kind == .swap || j.kind == .sweep) || y.state = 0 || y.owner != j.owner then s
  else
    let s := s.setStation j.station { y with swapping := false }
    if ok || !(y.holds.contains .swap) then s
    else
      let whole := s.programmed y.owner y.model y.layer (s.innerRgs y.core (s.desc y.core y.d))
      (if whole then s else s.park j.station .weights).unpark j.station .swap

/-- What the result of a job leads to: a swap is over, a failure is captured with the station `st`, and the owner is answered
(R264, R272). A job of the device's own has no result. -/
def State.jobResult (s : State) (j : Job) (st clamped code : Nat) : State :=
  let s := s.swapEnd j (code < 2)
  let s := if code < 2 || j.tag.isNone then s
    else s.capture .WLD_ERR_VALID .WLD_ERR_OVERRUN 0 [(.WLD_ERR_CODE, code), (.WLD_ERR_OWNER, j.owner), (.WLD_ERR_STATION, st)]
  s.loaderAnswer j.owner j.tag code clamped

/-- Whether an owner's loader-time bucket is at or below 0 (R250). -/
def State.loaderBroke (s : State) (owner : Nat) : Bool :=
  match s.loaderLevel owner with | some v => decide (v ≤ 0) | none => false

/-- Jobs that have reached the head of their owner's queue while its bucket is at or below 0 complete with QUOTA (R250). -/
def State.settleHead (s : State) (owner : Nat) : Nat → State
  | 0 => s
  | n + 1 =>
    match s.jobQ owner with
    | j :: rest => if s.loaderBroke owner then ((s.setJobQ owner rest).jobResult j j.station 0 0x10).settleHead owner n else s
    | [] => s

/-- Carries out a loader command that its function has had accepted, by opcode and tag; a row that names none does nothing
(R305, R306). -/
def State.loaderCommand (s : State) (fn op tag : Nat) (f : State → State) : State :=
  match (s.fnst fn).accepted.find? (fun e => entryOp e == op && entryTag e == tag) with
  | some e => f (s.takeAccepted fn e)
  | none => s

/-- Puts a job behind its owner's queue of 8, or answers BUSY (R250). -/
def State.enqueue (s : State) (j : Job) : State :=
  let q := s.jobQ j.owner
  if 8 ≤ (q.filter (fun x => x.tag.isSome)).length then s.loaderAnswer j.owner j.tag 0x0C 0
  else
    let s := s.setJobQ j.owner (q ++ [j])
    if q.isEmpty then s.settleHead j.owner 1 else s

/-- IMPORT_KEY (R247 to R250). -/
def execImportKey (now : Nat) (fn : Func) (tag : BitVec 16) (addr : BitVec 64) (s : State) :
    Host.Outcome State Fault Refusal :=
  .next ((s.advance now).loaderCommand fn.val 0x10 tag.toNat (fun t =>
    t.enqueue { Job.blank .importKey fn.val (some tag.toNat) with addr := addr.toNat, len := 376 }))

/-- LOAD (R249 to R251). -/
def execLoad (now : Nat) (fn : Func) (tag : BitVec 16) (addr : BitVec 64) (len : Nat) (force : Bool) (s : State) :
    Host.Outcome State Fault Refusal :=
  .next ((s.advance now).loaderCommand fn.val 0x11 tag.toNat (fun t =>
    t.enqueue { Job.blank .load fn.val (some tag.toNat) with addr := addr.toNat, len := len, force := force }))

/-- Queues a swap or sweep job of a station, one at a time (R264). -/
def State.enqueueSwap (s : State) (j : Job) : State :=
  let y := s.station j.station
  let mine := y.state != 0 && y.owner == j.owner
  if mine && (y.swapping || y.mig.any (fun m => m.weight)) || 8 ≤ ((s.jobQ j.owner).filter (fun x => x.tag.isSome)).length then
    s.loaderAnswer j.owner j.tag 0x0C 0
  else (if mine then s.setStation j.station { y with swapping := true } else s).enqueue j

/-- SWAP (R263, R264). -/
def execSwap (now : Nat) (fn : Func) (tag : BitVec 16) (st : StationId) (model : Word) (layer : BitVec 16)
    (shards : List (BitVec 64)) (opws : List Word) (table : List Byte) (tableOff : BitVec 19) (s : State) :
    Host.Outcome State Fault Refusal :=
  .next ((s.advance now).loaderCommand fn.val 0x12 tag.toNat (fun t =>
    t.enqueueSwap { Job.blank .swap fn.val (some tag.toNat) with station := st.val, model := model.toNat, layer := layer.toNat, shards := shards.map BitVec.toNat, opws := opws, table := table, tableOff := tableOff.toNat }))

/-- SWEEP_LOAD (R265). TILES is 1 to 128; a command with another value completes with BAD_COMMAND (log 4). -/
def execSweepLoad (now : Nat) (fn : Func) (tag : BitVec 16) (st : StationId) (model : Word) (layer : BitVec 16)
    (shards : List (BitVec 64)) (opws : List Word) (table : List Byte) (tableOff : BitVec 19) (tiles : Fin 129)
    (s : State) : Host.Outcome State Fault Refusal :=
  .next ((s.advance now).loaderCommand fn.val 0x13 tag.toNat (fun t =>
    if tiles.val = 0 then t.complete fn.val (result 0 tag.toNat 1 0 0) else
    t.enqueueSwap { Job.blank .sweep fn.val (some tag.toNat) with station := st.val, model := model.toNat, layer := layer.toNat, shards := shards.map BitVec.toNat, opws := opws, table := table, tableOff := tableOff.toNat, tiles := tiles.val }))

/-- The row groups that an ERASE names for an owner as it runs: its own shards' row groups, the physical function any (Table 9.3). -/
def State.eraseTargets (s : State) (owner : Nat) : EraseTarget → List Nat
  | .model id =>
    ((s.shards.filter (fun e => e.2.state != 0 && e.2.model == id.toNat && (owner == 0 || e.2.owner == owner))).flatMap
      (fun e => e.2.rgs)).dedup
  | .engines cl co mask =>
    let named := ((List.range 17).filter (fun e => mask.toNat.testBit e)).flatMap
      (fun e => (List.range 4).map (fun r => rgIx (engIx (coreIx cl co) e) r))
    if owner = 0 then named
    else named.filter (fun g => s.shards.any (fun e => e.2.state != 0 && e.2.owner == owner && e.2.rgs.contains g))

/-- Whether a row group that an instance is to erase is still one that its job names: an ERASE spares what has passed to another
owner, and the erase of an earlier owner's rows what has been programmed since (R249, R262). -/
def State.stillNamed (s : State) (j : Job) (g : Nat) : Bool :=
  match j.kind, j.what with
  | .erase, some w => (s.eraseTargets j.owner w).contains g
  | .wipe, _ => !(s.holdsWeights g)
  | _, _ => true

/-- ERASE (R249). -/
def execErase (now : Nat) (fn : Func) (tag : BitVec 16) (what : EraseTarget) (s : State) :
    Host.Outcome State Fault Refusal :=
  .next ((s.advance now).loaderCommand fn.val 0x14 tag.toNat (fun t =>
    t.enqueue { Job.blank .erase fn.val (some tag.toNat) with what := some what }))

/-! ### A job at work -/

/-- An instance that starts a job. -/
def Beaver.of (j : Job) (state now : Nat) : Beaver :=
  { job := j, state := state, start := now, head := none, levels := [], erase := [], eraseN := 0, rows := [], iter := 0, okPairs := [], iters := [], record := none, clamped := 0, engines := [], left := j.shards, spare := none, check := none }

/-- The station of the shard in hand, or the job's. -/
def Beaver.station (x : Beaver) : Nat := match x.head with | some h => h.station | none => x.job.station

/-- A job ends with a result: its owner is answered and charged (R250, R272). -/
def State.jobEnd (s : State) (b : Nat) (x : Beaver) (code : Nat) : State :=
  (((s.setBeaver b (some x)).beaverStop b).loaderCharge x.job.owner (s.time - x.start)).jobResult x.job x.station x.clamped code

/-- A job fails: the record of the shard in hand is freed. The programming of a spare engine or a spare pair is to be done again. -/
def State.jobFail (s : State) (b : Nat) (x : Beaver) (code : Nat) : State :=
  let s := match x.record with | some n => s.setShard n Shard.free | none => s
  let s := s.jobEnd b x code
  if x.job.kind == .spare || x.job.kind == .remap then s.queueOwn x.job else s

/-! ### Targets of a job -/

/-- The image that a swap or sweep gives a station: each chain member's word on the engine that replaces it, and the new
table (R263). The operation words are named by the station's present engines. -/
def State.swapImage (s : State) (j : Job) (engines : List Nat) : List Word :=
  let y := s.station j.station
  let d := s.desc y.core y.d
  let pairs := if engines.isEmpty then d.members.map (fun e => (e, e)) else d.members.zip engines
  let mask := (pairs.map (fun p => 2 ^ p.2)).sum
  (List.range 64).map (fun k =>
    let w := s.descWord y.core y.d k
    if k = 2 then BitVec.ofNat 32 (w / 65536 * 65536 + mask)
    else if 3 ≤ k && k < 19 then
      (match pairs.find? (fun p => p.2 + 3 == k) with | some p => j.opws.getD p.1 0 | none => 0)
    else if k = 19 then BitVec.ofNat 32 j.tableOff
    else BitVec.ofNat 32 w)

def imageDesc (ws : List Word) : Desc := descOf (fun k => (ws.getD k 0).toNat)

/-- Whether the table of a swap lies in its owner's extent (R263 step 2). -/
def State.tableFits (s : State) (j : Job) : Bool :=
  let y := s.station j.station
  j.tableOff % 8 == 0 && j.tableOff + j.table.length ≤ 524288 &&
    (j.table.isEmpty || s.ownsAll j.owner (cmBase y.core + j.tableOff) j.table.length)

/-- Whether the new words fit the station as a bit-stream's would (R221, R263 steps 1 and 2). -/
def State.swapFits (s : State) (j : Job) : Bool :=
  let y := s.station j.station
  let d := s.desc y.core y.d
  let image := s.swapImage j []
  let n := imageDesc image
  let whole := (List.range 8).all (fun k => (s.partOf j.owner).cores.contains (y.core / 8 * 8 + k))
  !(imageReserved (fun k => (image.getD k 0).toNat)) && n.reason.isNone && !n.badOps && !n.badChain && !(n.badOut y.outFmt) &&
  (!n.escalates || whole) && n.wmode == d.wmode && n.members == d.members &&
  d.members.all (fun e => (opwOf (n.opws.getD e 0)).rgmask == (opwOf (d.opws.getD e 0)).rgmask)

/-- Whether a logical engine of a core is free for a member with an RGMASK (R263 step 1). -/
def State.engineFree (s : State) (core e rgmask : Nat) : Bool :=
  let rgs := (rowGroups rgmask).map (fun r => rgIx (s.mapOf core e) r)
  !(s.engineLost core e) && (s.stationsUsing rgs).isEmpty &&
  s.stations.all (fun x => x.2.core != core || x.2.mig.all (fun m => !m.weight || !((imageDesc m.image).engmask.testBit e))) &&
  s.beavers.all (fun x => match x.2 with
    | some b => (s.station b.job.station).core != core || !(b.engines.contains e)
    | none => true)

/-- The engines for a second copy of a station, by chain position; empty when there are too few. -/
def State.swapEngines (s : State) (j : Job) : List Nat :=
  let y := s.station j.station
  let d := s.desc y.core y.d
  let es := d.members.foldl
    (fun acc m =>
      match (List.range 16).find? (fun e => !(acc.contains e) && s.engineFree y.core e (opwOf (d.opws.getD m 0)).rgmask) with
      | some e => acc ++ [e]
      | none => acc) []
  if es.length = d.members.length then es else []

/-- The descriptor that a job's shards are laid out by. -/
def State.jobDesc (s : State) (x : Beaver) (station : Nat) : Desc :=
  let y := s.station station
  if x.engines.isEmpty then s.desc y.core y.d else imageDesc (s.swapImage x.job x.engines)

/-- The row groups that a shard covers (R242, R243). -/
def State.shardRgs (s : State) (x : Beaver) (h : ShardHead) : List Nat :=
  let y := s.station h.station
  ((s.innerRgs y.core (s.jobDesc x h.station)).drop (h.k0 / 64)).take (h.krows / 64)

/-- Why a shard of a job is refused, 0 if it is not (R241, R242, R246, R269). -/
def State.shardCode (s : State) (x : Beaver) (h : ShardHead) (len : Nat) : Nat :=
  let j := x.job
  let y := s.station h.station
  let d := s.jobDesc x h.station
  let key := smapGet Key.empty s.modelKeys h.keyslot
  let own := j.kind = .load
  firstCode [
    (h.bad len, 0x02),
    (y.state != 0 && y.kind == 0 && y.owner != j.owner, 0x04),
    (y.state == 0 || y.kind != 0 || (own && (y.model != h.model || y.layer != h.layer)) ||
      (!own && (h.station != j.station || h.model != j.model || h.layer != j.layer)) ||
      h.k0 % 64 != 0 || h.krows % 64 != 0 || 64 * (s.innerRgs y.core d).length < h.k0 + h.krows ||
      (d.wmode != 0 && 128 < h.ncols), 0x03),
    (key.bytes.isEmpty, 0x05),
    (key.owner != j.owner, 0x04),
    ((engList d.engmask).any (s.engineLost y.core), 0x0A)]

/-- The resident record that makes a LOAD needless (R251 step 2). -/
def State.residentSame (s : State) (owner : Nat) (h : ShardHead) : Bool :=
  s.shards.any (fun e => e.2.state == 2 && e.2.owner == owner && e.2.model == h.model && e.2.shard == h.shard &&
    e.2.station == h.station && e.2.digest == h.digest)

/-! ### Programming (R251 to R254) -/

/-- The rows of row groups. -/
def rowsOf (rgs : List Nat) : List (Nat × Nat) := rgs.flatMap (fun g => (List.range 64).map (fun r => (g, r)))

/-- Whether another instance programs one of some row groups. -/
def State.busyRows (s : State) (b : Nat) (rgs : List Nat) : Bool :=
  s.beavers.any (fun e => e.1 != b && match e.2 with
    | some x => x.rows.any (fun p => rgs.contains p.1)
    | none => false)

/-- Whether another instance works on one of some row groups. -/
def State.busyRgs (s : State) (b : Nat) (rgs : List Nat) : Bool :=
  s.beavers.any (fun e => e.1 != b && match e.2 with
    | some x => x.erase.any rgs.contains || x.rows.any (fun p => rgs.contains p.1)
    | none => false)

/-- Goes on with the step in hand, for which a token of its engine is wanted (R43). -/
def State.beaverGo (s : State) (b : Nat) (x : Beaver) : State := s.beaverBegin b x

/-- A station whose weights are programmed anew runs on the spare engine from then on (R268). -/
def State.leaveOld (s : State) (st : Nat) : State :=
  let y := s.station st
  if y.onOld then (s.setStation st { y with onOld := false }).moveToSpare st else s

/-- Steps 4 to 6: a shard record is allocated, in place of records whose row groups it takes, the stations on its row groups
are parked, and the erase begins (R251, R256). -/
def State.programStart (s : State) (b : Nat) (x : Beaver) (h : ShardHead) (codes : List Int) (clamped : Nat) : State :=
  let y := s.station h.station
  let rgs := s.shardRgs x h
  let cl := y.core / 8
  let old := (s.shards.filter (fun e => e.2.state != 0 && e.2.rgs.any rgs.contains)).map (·.1)
  let t := old.foldl (fun u n => u.setShard n Shard.free) s
  let here := (t.shards.filter (fun e => e.2.state != 0 && e.2.cluster == cl)).length
  match (List.range 1024).find? (fun n => (t.shard n).state == 0) with
  | none => s.jobFail b x 0x09
  | some n =>
    if 128 ≤ here then s.jobFail b x 0x09
    else
      let r : Shard := { state := 1, owner := x.job.owner, cluster := cl, head := h.bytes, digest := h.digest, sett := none, model := h.model, shard := h.shard, layer := h.layer, station := h.station, k0 := h.k0, krows := h.krows, ncols := h.ncols, rgs := rgs, wmode := (s.jobDesc x h.station).wmode, checked := s.time, idle := 0, overdue := false, owed := false }
      let t := t.setShard n r
      let t := if x.job.kind = .load then (t.stationsUsing rgs).foldl (fun u st => (u.park st .weights).leaveOld st) t else t
      let t := { t with spareLeft := t.spareLeft.filter (fun g => !(rgs.contains g)) }
      t.beaverGo b { x with state := 3, head := some h, levels := codes, erase := rgs, eraseN := 0, rows := rowsOf rgs, iter := 0, okPairs := [], iters := [], record := some n, clamped := x.clamped + clamped }

/-- The level code of inner row k, from K0, and column n that is being programmed. -/
def Beaver.code (x : Beaver) (k n : Nat) : Int :=
  match x.head with
  | some h => if n < h.ncols then x.levels.getD (k * h.ncols + n) 0 else 0
  | none => 0

/-- The target of a column pair under a WMODE (R74, R75, R243). -/
def Beaver.pairTarget (x : Beaver) (wmode k pair : Nat) : Int :=
  if wmode = 0 then x.code k pair
  else
    let w := x.code k (pair / 2)
    if wmode = 2 then w else if pair % 2 = 0 then w.sign * (w.natAbs / 16 : Nat) else w.sign * (w.natAbs % 16 : Nat)

/-- The target of a weight column of a row of a row group: by its place in the shard, or, of a spare engine that takes over, the
level that the retired engine holds (R268). -/
def State.target (s : State) (x : Beaver) (g row column : Nat) : Int :=
  match x.record with
  | some n => x.pairTarget (s.shard n).wmode (64 * (s.shard n).rgs.idxOf g + row) column
  | none =>
    let old := engIx (coreOf (g / 4)) (s.getF .CCTL_EMAP_SPARE_FOR (coreOf (g / 4)))
    s.level old (64 * (g % 4) + row) (s.pairOf old column)

/-- The target of the cells of a pair: a weak cell 0, a spare pair that of its column, a reference pair its own (R105,
R129, R253). -/
def State.cellTarget (s : State) (x : Beaver) (g row pair : Nat) : Int :=
  if 272 ≤ pair then refLevel pair
  else
    match s.columnAt (g / 4) pair with
    | none => 0
    | some c =>
      let y := s.station x.station
      let e := (s.logicalOf (g / 4)).getD 16
      match (if x.record.isSome then y.mate else none) with
      | some k =>
        let w := s.station k
        let abs := 64 * (g % 4) + row
        if w.shadow.contains (e, abs) && s.weakBit k (w.copyOf e abs) c then 0 else s.target x g row c
      | none => s.target x g row c

/-- The pairs of a row that must be accepted: the weight pairs in use, the spare pairs in use and the references. -/
def State.pulsed (s : State) (pe : Nat) : List Nat :=
  (List.range 276).filter (fun p =>
    272 ≤ p || (p < 256 && s.pairOf pe p == p) || (256 ≤ p && p < 272 && s.bit .ME_REMAP_VALID (pe * 16 + (p - 256)) && !(s.bit .ME_REMAP_FAULTY (pe * 16 + (p - 256)))))

/-- Writes the shadow copy of a programmed row (R126, R251 step 6). -/
def State.writeShadow (s : State) (x : Beaver) (g row : Nat) : State :=
  let e := (s.logicalOf (g / 4)).getD 16
  let abs := 64 * (g % 4) + row
  match (if x.record.isSome then (s.station x.station).mate else none) with
  | some c =>
    let w := s.station c
    if w.shadow.contains (e, abs) then
      (List.range 256).foldl (fun u p => { u with shadows := smapSet 0 u.shadows (shadowKey c (w.copyOf e abs) p) (u.target x g row p) }) s
    else s
  | none => s

/-- The mean iteration count of a row group just programmed, and the warning of R267. The manual gives the count with 4
fraction bits and not its rounding. -/
def State.meanIterations (s : State) (g sum : Nat) : State :=
  let up := if sum % 4 = 0 then 0 else Config.freeNat s.fresh % 2
  let s := (if sum % 4 = 0 then s else s.burn).setF .ME_RGSTAT_MEANIT g (min 255 (sum / 4 + up))
  if 576 < sum then (s.setF .ME_RGSTAT_WARN g 1).raise 0x20C 0xFF (clOf (g / 4)) (engUnit (g / 4)) 0xFFFF [] else s

/-- Step 8: the stations whose row groups are all resident resume (R237); a suspect shard under a station keeps it parked. -/
def State.unparkLoaded (s : State) (rgs : List Nat) : State :=
  (s.stationsUsing rgs).foldl
    (fun t st =>
      let y := t.station st
      let all := t.innerRgs y.core (t.desc y.core y.d)
      let t := if t.programmed y.owner y.model y.layer all && !(all.any t.spareLeft.contains) then t.unpark st .weights else t
      if t.shards.any (fun e => e.2.state == 3 && e.2.rgs.any all.contains) then t else t.unpark st .suspect) s

/-- A swap or sweep whose shards have all committed takes effect: its table is written under its owner's identity (R303), and the
switch is due at the next epoch boundary (R263 step 3, R264, R265). DESIGN CHOICE: a table that overlaps the one in use is written
at the commit as well (log entry 90). -/
def State.swapCommit (s : State) (b : Nat) (x : Beaver) : State :=
  let j := x.job
  let y := s.station j.station
  let image := s.swapImage j x.engines
  let all := s.innerRgs y.core (imageDesc image)
  if !(s.programmed j.owner j.model j.layer all) then s.jobFail b { x with record := none } 0x03
  else
    let s := if j.table.isEmpty then s else (s.writeMem (fnMaster j.owner) (fun _ => false) (cmBase y.core + j.tableOff) j.table).1
    if j.kind = .sweep then
      let s := (s.setImage y.owner y.core y.d (fun _ => (y.core, y.d, genImage y.gen image))).writeDesc y.core y.d y.gen image
      let s := s.setStation j.station { y with layerTiles := j.tiles, tiles := j.tiles }
      (s.unpark j.station .sweep).jobEnd b { x with record := none } 0
    else
      let m : Migration := { core := y.core, d := y.d, image := image, model := j.model, layer := j.layer, weight := true, bases := [] }
      (s.setStation j.station { y with mig := y.mig ++ [m] }).jobEnd b { x with record := none } 0

/-- Step 7: the levels are verified, so that the digest is the header's; both copies of the record are committed. -/
def State.shardCommit (s : State) (b : Nat) (x : Beaver) : State :=
  match x.record with
  | none => s.jobEnd b x 0
  | some n =>
    let r := s.shard n
    let s := s.setShard n { r with state := 2, sett := some r.digest, checked := s.time, idle := 0, overdue := false, owed := false }
    let s := (r.rgs.foldl State.rgProgrammed s).addHold .WLD_LOADCNT_COUNT 0 1
    if x.job.kind = .load then (s.unparkLoaded r.rgs).jobEnd b x 0
    else
      let rest := x.left.drop 1
      match rest with
      | [] => s.swapCommit b { x with left := [] }
      | a :: _ =>
        ((s.beaverStop b).setBeaver b (some { x with state := 2, head := none, levels := [], record := none, left := rest })).emit
          (.hostRead x.job.owner a 96)

/-- A spare engine has been programmed: its trackers start, and the stations that ran on the retired engine move at their next epoch
boundary (R268). -/
def State.spareDone (s : State) (rgs : List Nat) : State :=
  let mine := rgs.filter s.spareLeft.contains
  let s := { s with spareLeft := s.spareLeft.filter (fun g => !(rgs.contains g)) }
  let s := mine.foldl State.rgProgrammed s
  let s := ((s.stationsUsing mine).filter (fun st => (s.station st).onOld)).foldl State.moveToSpare s
  s.unparkLoaded mine

/-- What follows a step: more of the same shard, or its commit; an erase, or a job of the device's own, ends. -/
def State.beaverNext (s : State) (b : Nat) (x : Beaver) : State :=
  let y := { x with erase := x.erase.dropWhile (fun g => !(s.stillNamed x.job g)) }
  if !y.erase.isEmpty || !y.rows.isEmpty || y.spare.isSome then s.beaverGo b y
  else (if y.job.kind = .spare then s.spareDone y.job.rgs else s).shardCommit b y

/-- An instance's engine has been retired: its job goes on where the spare engine took over or another engine is left, or ends with
ENGINE_LOST (R268, R269). -/
def State.jobEngineGone (s : State) (b pe : Nat) : State :=
  let core := coreOf pe
  let took := s.bit .CCTL_EMAP_SPARE_USED core && placeOf pe != 16 && s.getF .CCTL_EMAP_SPARE_FOR core == placeOf pe
  match s.beaver b with
  | none => s
  | some x =>
    let mine (g : Nat) : Bool := g / 4 == pe
    if took then s.beaverNext b x
    else if x.record.isSome then s.jobFail b x 0x0A
    else
      s.beaverNext b { x with erase := x.erase.filter (fun g => !(mine g)), eraseN := 0, rows := x.rows.filter (fun p => !(mine p.1)), iter := 0, okPairs := [], spare := none }

/-- An engine fails under an instance's step and is retired (R252 to R254). -/
def State.jobEngineFails (s : State) (b : Nat) (x : Beaver) (pe : Nat) : State :=
  ((s.setBeaver b (some x)).retire pe).jobEngineGone b pe

/-- Whether a physical engine has been retired. -/
def State.retired (s : State) (pe : Nat) : Bool :=
  if placeOf pe = 16 then s.bit .CCTL_EMAP_MES_RETIRED (coreOf pe) else (s.getF .CCTL_EMAP_RETIRED (coreOf pe)).testBit (placeOf pe)

/-- The units of a sweep bucket that one erase cycle takes. -/
def sweepUnit : Nat := 86400000000000

/-- A row group's sweep bucket now (R266). -/
def State.sweepLevel (s : State) (g : Nat) : Nat :=
  let x := s.tracker g
  let daily := s.getF .WLD_SWEEPCFG_DAILY 0
  min (daily * sweepUnit) (x.sweep + (s.time - x.sweepAt) * daily)

/-- Brings a row group's sweep bucket up to date and takes cycles from it. -/
def State.sweepTake (s : State) (g n : Nat) : State :=
  s.setTracker g { s.tracker g with sweep := s.sweepLevel g - n * sweepUnit, sweepAt := s.time, swept := (s.tracker g).swept + n }

/-- Whether a station's row groups are worn for sweep (R266). -/
def State.sweepWorn (s : State) (rgs : List Nat) : Bool :=
  let life := s.getF .WLD_SWEEPCFG_LIFE 0
  rgs.any (fun g => life ≤ (s.tracker g).swept || 100000 ≤ s.getF .ME_RGSTAT_CYC10 g)

/-- A row group has been erased (R252, R266, R267). -/
def State.erased (s : State) (x : Beaver) (g : Nat) : State :=
  let pe := g / 4
  let s := (s.eraseRg pe (g % 4)).addHold .ME_RGSTAT_CYC10 g 10
  let s := if 100000 ≤ s.getF .ME_RGSTAT_CYC10 g then s.raise 0x20C 0xFF (clOf pe) (engUnit pe) 0xFFFF [] else s
  let s := if x.job.kind = .spare then s else { s with spareLeft := s.spareLeft.filter (fun h => h != g) }
  if x.job.kind = .sweep then s.sweepTake g 1 else s

/-- Whether an instance's step on an engine can run: it is that engine's turn, the instance holds a token, and the engine stands at
a vector boundary of a core that is on (R43, R80, R119). -/
def State.stepRuns (s : State) (x : Beaver) (pe : Nat) : Bool :=
  x.state == 3 && x.engine == some pe && s.tokenHeld.contains pe && s.coreOn (coreOf pe) && (s.engine pe).boundary && s.stepMay x pe

/-- ERASE_STEP (R252): one step on the row group in hand, at a vector boundary and with a token; it leaves the row group at level
0 everywhere (`clean`) or not. -/
def execEraseStep (now : Nat) (b : Fin 2) (cl : Cluster) (co : Core) (e : Eng) (rg : RowGroup) (clean : Bool) (s : State) :
    Host.Outcome State Fault Refusal :=
  let s := s.advance now
  let pe := engIx (coreIx cl co) e.val
  let g := rgIx pe rg.val
  match s.beaver b.val with
  | none => .next s
  | some x =>
    if x.erase.head? != some g || !(s.stepRuns x pe) || s.busyRows b.val [g] then .next s
    else if s.retired pe then .next (s.jobEngineGone b.val pe)
    else if !(s.stillNamed x.job g) then .next (s.beaverNext b.val x)
    else
      let t := if x.eraseN = 0 && x.record.isNone && x.job.kind != .spare then
          ((s.shards.filter (fun y => y.2.state != 0 && y.2.rgs.contains g)).map (·.1)).foldl (fun u n => u.setShard n Shard.free)
            ((s.stationsUsing [g]).foldl (fun u st => u.park st .weights) s)
        else s
      let t := (t.setBeaver b.val (some x)).opDone pe
      if clean then .next (((t.erased x g).beaverNext b.val { x with erase := x.erase.drop 1, eraseN := 0 }).freeToken pe)
      else if x.eraseN = 7 then .next (((t.addHold .ME_RGSTAT_CYC10 g 10).jobEngineFails b.val x pe).freeToken pe)
      else .next ((t.beaverGo b.val { x with eraseN := x.eraseN + 1 }).freeToken pe)

/-- A row is done (R253). -/
def State.rowDone (s : State) (b : Nat) (x : Beaver) (g row : Nat) : State :=
  let sum := smapGet 0 x.iters g + x.iter
  let s := s.writeShadow x g row
  let rest := x.rows.drop 1
  let s := if rest.any (fun p => p.1 == g) then s else s.meanIterations g sum
  s.beaverNext b { x with rows := rest, iter := 0, okPairs := [], iters := smapSet 0 x.iters g sum, spare := none }

/-- After the iterations of a row: it is done, or the next pair that failed hands its column to a spare pair, which is programmed
first; a reference pair, or a column without a free spare pair, retires the engine (R254). -/
def State.rowAfter (s : State) (b : Nat) (x : Beaver) (g row : Nat) : State :=
  let pe := g / 4
  match (s.pulsed pe).find? (fun p => !(x.okPairs.contains p)) with
  | none => s.rowDone b x g row
  | some p =>
    let own (c : Nat) : List (Nat × Nat × Int) := (List.range (row + 1)).map (fun r => (g, r, s.cellTarget x g r (s.pairOf pe c)))
    match (s.columnAt pe p).bind (fun c => s.spareWork pe c (own c)) with
    | none => s.jobEngineFails b x pe
    | some w => s.beaverGo b { x with spare := some w }

/-- An iteration on the row in hand: the pairs of `read` that were pulsed and read within their windows are accepted (R253). -/
def State.rowIteration (s : State) (b : Nat) (x : Beaver) (g row : Nat) (read : List Nat) : State :=
  let pe := g / 4
  let fresh := read.filter (fun p => (s.pulsed pe).contains p && !(x.okPairs.contains p))
  let s := fresh.foldl (fun t p => t.setLevel pe (64 * (g % 4) + row) p (t.cellTarget x g row p)) s
  let y : Beaver := { x with iter := x.iter + 1, okPairs := x.okPairs ++ fresh }
  if y.iter < 16 && (s.pulsed pe).any (fun p => !(y.okPairs.contains p)) then s.beaverGo b y else s.rowAfter b y g row

/-- An iteration on a spare pair for a column: accepted on all its rows, it stands in for the column; not accepted on one of them
after 16, it is faulty and the next is taken (R254). -/
def State.spareIteration (s : State) (b : Nat) (x : Beaver) (w : SpareWork) (read : List Nat) : State :=
  let done (t : State) (w : SpareWork) : State :=
    let t := t.spareTake w
    match x.rows.head? with
    | some (g, row) => t.rowAfter b { x with spare := none, okPairs := x.okPairs ++ [256 + w.entry] } g row
    | none => t.beaverNext b { x with spare := none }
  match w.todo with
  | [] => done s w
  | (g, row, v) :: rest =>
    if read.contains (256 + w.entry) then
      let t := s.setLevel w.pe (64 * (g % 4) + row) (256 + w.entry) v
      if rest.isEmpty then done t w else t.beaverGo b { x with spare := some { w with todo := rest, iter := 0 } }
    else if w.iter < 15 then s.beaverGo b { x with spare := some { w with iter := w.iter + 1 } }
    else
      match s.spareFails w with
      | (t, some u) => t.beaverGo b { x with spare := some u }
      | (t, none) => t.jobEngineFails b { x with spare := none } w.pe

/-- PROGRAM_ITERATION (R253, R254): a pulse and its verify read on the row in hand, or on the spare pair that a column is given; the
pairs `accepted` read within their windows. -/
def execProgramIteration (now : Nat) (b : Fin 2) (cl : Cluster) (co : Core) (e : Eng) (accepted : List (Fin 276))
    (s : State) : Host.Outcome State Fault Refusal :=
  let s := s.advance now
  let pe := engIx (coreIx cl co) e.val
  let read := accepted.map Fin.val
  match s.beaver b.val with
  | none => .next s
  | some x =>
    if !x.erase.isEmpty || !(s.stepRuns x pe) then .next s
    else if s.retired pe then .next (s.jobEngineGone b.val pe)
    else
      let t := s.opDone pe
      match x.spare, x.rows with
      | some w, _ => .next ((t.spareIteration b.val x w read).freeToken pe)
      | none, (g, row) :: _ => .next ((t.rowIteration b.val x g row read).freeToken pe)
      | none, [] => .next t

/-! ### Starting a job (R250) -/

/-- The row groups that a job names as it stands, for the jobs that name some. -/
def State.jobRgs (s : State) (j : Job) : List Nat :=
  match j.what, j.column with
  | some w, _ => s.eraseTargets j.owner w
  | none, some c => [rgIx c.1 0]
  | none, none => j.rgs

/-- Whether the head job of an owner can run now; a job whose target core is off is passed over, and so is a SWEEP_LOAD whose
station is not parked or whose row groups lack budget (R250, R265, R266). -/
def State.jobReady (s : State) (j : Job) : Bool :=
  let on (st : Nat) : Bool := (s.station st).state = 0 || (s.station st).kind != 0 || s.coreOn (s.station st).core
  match j.kind with
  | .importKey => true
  | .load => match j.seen with | some st => on st | none => true
  | .swap => on j.station
  | .sweep =>
    let y := s.station j.station
    let rgs := s.innerRgs y.core (s.desc y.core y.d)
    y.state = 0 || y.kind != 0 || y.owner != j.owner || s.sweepWorn rgs ||
      (s.coreOn y.core && y.state = 3 && rgs.all (fun g => sweepUnit ≤ s.sweepLevel g))
  | .erase | .wipe | .spare | .remap => (s.jobRgs j).all (fun g => s.coreOn (g / 68))

/-- The head job that a free instance takes: of the first owner in round-robin order whose job can run. DESIGN CHOICE: a job that was
at the head before its owner's bucket ran dry waits there until the bucket is above 0 (log entry 99). -/
def State.nextJob (s : State) : Option Job :=
  ((List.range 129).filterMap (fun k =>
    let o := (s.turn + k) % 129
    match s.jobQ o with
    | j :: _ => if !(s.loaderBroke o) && s.jobReady j then some j else none
    | [] => none)).head?

/-- Why a SWAP or SWEEP_LOAD cannot start, 0 if it can. -/
def State.swapCode (s : State) (j : Job) : Nat :=
  let y := s.station j.station
  let d := s.desc y.core y.d
  firstCode [
    (y.state != 0 && y.kind == 0 && y.owner != j.owner, 0x04),
    (y.state == 0 || y.kind != 0 || j.shards.isEmpty || (j.kind == .sweep && y.model != 0xFFFFFFFF) || !(s.swapFits j) || !(s.tableFits j), 0x03),
    (j.kind == .sweep && s.sweepWorn (s.innerRgs y.core d), 0x0D),
    ((engList d.engmask).any (s.engineLost y.core) && (j.kind == .sweep || (s.swapEngines j).isEmpty), 0x0A)]

/-- A job begins on an instance. `data` is the header and digest of the shard of a LOAD. -/
def State.jobBegin (s : State) (b : Nat) (j : Job) (data : List Byte) : State :=
  let x := Beaver.of j 2 s.time
  match j.kind with
  | .importKey => (s.setBeaver b (some x)).emit (.hostRead j.owner j.addr 376)
  | .load =>
    let h := shardHead data
    let y : Beaver := { x with head := some h }
    let s := s.emit (.hostRead j.owner j.addr 96)
    let code := s.shardCode y h j.len
    if code != 0 then s.jobEnd b y code
    else if !j.force && s.residentSame j.owner h then s.jobEnd b y 0x01
    else (s.setBeaver b (some y)).emit (.hostRead j.owner (j.addr + 96) (h.paylen + 16))
  | .swap | .sweep =>
    let code := s.swapCode j
    let y := s.station j.station
    let mine := y.state != 0 && y.kind == 0 && y.owner == j.owner
    if code != 0 then (if mine && !(s.tableFits j) then s.foreignCapture j.owner (cmBase y.core + j.tableOff) else s).jobEnd b x code
    else
      let es := if j.kind = .swap then s.swapEngines j else []
      (s.setBeaver b (some { x with engines := es })).emit (.hostRead j.owner (j.shards.headD 0) 96)
  | .erase =>
    let rgs := s.jobRgs j
    if rgs.isEmpty && j.owner != 0 then s.jobEnd b x 0x04 else s.beaverNext b { x with state := 3, erase := rgs }
  | .wipe => s.beaverNext b { x with state := 3, erase := j.rgs }
  | .spare =>
    let rgs := j.rgs.filter s.spareLeft.contains
    s.beaverNext b { x with state := 3, erase := rgs, rows := rowsOf rgs }
  | .remap =>
    match j.column with
    | none => s.jobEnd b x 0
    | some (pe, c) =>
      if s.retired pe then s.jobEnd b x 0
      else
        match s.spareWork pe c [] with
        | none => s.jobEngineFails b { x with state := 3 } pe
        | some w => if w.todo.isEmpty then (s.spareTake w).jobEnd b x 0 else s.beaverGo b { x with state := 3, spare := some w }

/-- LOADER_JOB_START (R250): a free instance takes a job; of a LOAD it reads the header and digest, `data`, and puts it back where
the core it names is off. -/
def execLoaderJobStart (now : Nat) (b : Fin 2) (data : List Byte) (s : State) : Host.Outcome State Fault Refusal :=
  let s := s.advance now
  if !(s.dieOn 3) || (s.beaver b.val).isSome then .next s
  else
    match s.nextJob with
    | none => .next s
    | some j =>
      let rest := (s.jobQ j.owner).drop 1
      let h := shardHead data
      let y := s.station h.station
      let s := { s.unclean with turn := (j.owner + 1) % 129 }
      if j.kind == .load && j.seen.isNone && !(h.bad j.len) && y.state != 0 && y.kind == 0 && !(s.coreOn y.core) then
        .next ((s.setJobQ j.owner ({ j with seen := some h.station } :: rest)).emit (.hostRead j.owner j.addr 96))
      else .next (((s.setJobQ j.owner rest).jobBegin b.val j data).settleHead j.owner 8)

/-! ### Fetching and decrypting (R248, R251) -/

/-- Why a key envelope is refused, 0 if it is not; and the key (R248). The physical function may empty any slot, with a key of zero
bytes (R246, R425). -/
def State.envelope (s : State) (owner : Nat) (d : List Byte) : Nat × List Byte :=
  let part (o n : Nat) : List Byte := (d.drop o).take n
  let slot := smapGet Key.empty s.signKeys (bnum d 6 1)
  let key := smapGet Key.empty s.modelKeys (bnum d 5 1)
  let z := ecdhX Config.identityScalar (beNat (part 0x18 48)) (beNat (part 0x48 48))
  let kek := hkdf384 (part 8 16) z ([0x5A#8, 0x51#8, 0x2D#8, 0x4D#8, 0x4B#8, 0x45#8, 0x59#8] ++ part 5 1) 32
  let plain := gcmDecrypt kek (part 0x78 12) (d.take 0x78) (part 0x84 32) (part 0xA4 16)
  let code := firstCode [
    (d.length != 376 || bnum d 0 4 != 0x4B4D515A || bnum d 7 1 != 0 || bnum d 0xB4 4 != 0 || 31 < bnum d 5 1 ||
      bnum d 4 1 != owner, 0x0E),
    (!(ecdsaVerify (d.take 0x118) (beNat (part 0xB8 48)) (beNat (part 0xE8 48)) (beNat (part 0x118 48)) (beNat (part 0x148 48))) ||
      slot.bytes.isEmpty || slot.bytes != sha384 (part 0xB8 96) || slot.owner != owner || slot.usage != 2, 0x0E),
    (part 8 16 != deviceDigest, 0x0E),
    (!(onCurve (beNat (part 0x18 48)) (beNat (part 0x48 48))), 0x0E),
    (!key.bytes.isEmpty && key.owner != owner && !(owner == 0 && plain.any (fun k => k.all (fun y => y == 0))), 0x0F),
    (plain.isNone, 0x0E)]
  (code, plain.getD [])

/-- The payload of a shard of a job has been fetched: tag, levels and digest are checked, then programming begins. -/
def State.payload (s : State) (b : Nat) (x : Beaver) (h : ShardHead) (cipher tag : List Byte) : State :=
  let key := smapGet Key.empty s.modelKeys h.keyslot
  match gcmDecrypt key.bytes h.nonce (h.bytes ++ h.digest) cipher tag with
  | none => s.jobFail b x 0x06
  | some plain =>
    match h.levels (s.jobDesc x h.station).wmode plain with
    | none => s.jobFail b x 0x07
    | some (codes, clamped) =>
      if codeDigest codes != h.digest then s.jobFail b x 0x08
      else if s.busyRgs b (s.shardRgs x h) then s.setBeaver b (some x)
      else s.programStart b x h codes clamped

/-- PAYLOAD_FETCH_DONE (R248, R251, R425): a key of zero bytes empties its slot. `data` is a key envelope, the ciphertext and tag of a LOAD, or a whole shard of a swap or
sweep. -/
def execPayloadFetchDone (now : Nat) (b : Fin 2) (data : List Byte) (s : State) : Host.Outcome State Fault Refusal :=
  let s := s.advance now
  match s.beaver b.val with
  | none => .next s
  | some x =>
    if x.state != 2 then .next s
    else
      match x.job.kind with
      | .importKey =>
        let r := s.envelope x.job.owner data
        if r.1 != 0 then .next (s.jobEnd b.val x r.1)
        else
          let k : Key := if r.2.all (fun y => y == 0) then Key.empty else { bytes := r.2, owner := x.job.owner, usage := 0 }
          .next ({ s with modelKeys := smapSet Key.empty s.modelKeys (bnum data 5 1) k }.jobEnd b.val x 0)
      | .load =>
        match x.head with
        | some h => .next (s.payload b.val x h (data.take h.paylen) (data.drop h.paylen))
        | none => .next s
      | .swap | .sweep =>
        let h := shardHead data
        let code := s.shardCode x h data.length
        let s := s.emit (.hostRead x.job.owner (x.left.headD 0 + 96) (h.paylen + 16))
        if code != 0 then .next (s.jobFail b.val { x with head := some h } code)
        else .next (s.payload b.val x h ((data.drop 96).take h.paylen) (data.drop (96 + h.paylen)))
      | .erase | .wipe | .spare | .remap => .next s

/-! ### Sweep mode (R265, R266) -/

/-- SWEEP_TILES_DONE (R265): the station has taken its tiles and parked itself, and its owner is told. -/
def execSweepTilesDone (now : Nat) (st : StationId) (s : State) : Host.Outcome State Fault Refusal :=
  let s := s.advance now
  let y := s.station st.val
  if y.state = 0 || y.layerTiles = 0 || y.tiles != 0 || !(y.holds.contains .sweep) then .next s
  else
    .next ((s.setStation st.val { y with layerTiles := 0 }).service y.owner 4
      [BitVec.ofNat 32 st.val, BitVec.ofNat 32 y.layerTiles])

/-- SWEEP_BUDGET_READY (R266): the bucket of a row group is brought up to date; a waiting SWEEP_LOAD may then start. -/
def execSweepBudgetReady (now : Nat) (cl : Cluster) (co : Core) (e : Eng) (rg : RowGroup) (s : State) :
    Host.Outcome State Fault Refusal :=
  let s := s.advance now
  .next (s.sweepTake (rgIx (engIx (coreIx cl co) e.val) rg.val) 0)

/-! ### Read-back (R257 to R261) -/

/-- The interval of R258 in ns. -/
def State.checkInterval (s : State) : Nat := 1000000000 * s.getF .WLD_CHKCFG_INTERVAL 0

/-- Whether a touch-up of a row group is in progress, with which a read-back never interleaves (R260). -/
def State.touching (s : State) (g : Nat) : Bool := (s.tracker g).due && ((s.tracker g).row != 0 || (s.tracker g).steps != 0)

/-- The resident shard whose last check is oldest, of those that are due, or that a start still owes a read-back, and whose cores
are on; one that is being programmed, erased or touched up, or that the other instance reads back, is left out (R258, R260). -/
def State.oldestDue (s : State) (b : Nat) : Option Nat :=
  ((s.shards.filter (fun e => e.2.state == 2 && (e.2.owed || e.2.checked + s.checkInterval ≤ s.time) &&
      e.2.rgs.all (fun g => s.coreOn (g / 68) && !(s.touching g) && !(s.readingBack g) && !(s.spareLeft.contains g)) &&
      !(s.busyRgs b e.2.rgs))).foldl
    (fun m e => match m with
      | none => some (e.1, e.2.checked)
      | some y => if e.2.checked < y.2 then some (e.1, e.2.checked) else some y) none).map (·.1)

/-- READBACK_START (R258): a free instance takes the shard, and asks for a token for each of its engines (R257). -/
def execReadbackStart (now : Nat) (b : Fin 2) (s : State) : Host.Outcome State Fault Refusal :=
  let s := s.advance now
  let queued := s.jobs.any (fun e => e.2.any (fun j => j.kind == .load || j.kind == .swap || j.kind == .sweep || j.kind == .erase))
  if !(s.dieOn 3) || (s.beaver b.val).isSome || queued then .next s
  else
    match s.oldestDue b.val with
    | none => .next s
    | some n => .next (s.beaverBegin b.val { Beaver.of (Job.blank .wipe 0 none) 4 s.time with check := some n })

/-- The columns of a twin shard whose two pairs differ (R257), as physical engine, row and pair. -/
def State.twinFindings (s : State) (x : Shard) : List (Nat × Nat × Nat) :=
  if x.wmode != 2 then []
  else
    (List.range x.krows).flatMap (fun k =>
      let g := x.rgs.getD (k / 64) 0
      let row := 64 * (g % 4) + k % 64
      ((List.range x.ncols).filter (fun j =>
        s.heldLevel x.station (g / 4) row (2 * j) != s.heldLevel x.station (g / 4) row (2 * j + 1))).map
          (fun j => (g / 4, row, 2 * j)))

/-- What the read-back of a record decides (Table 9.4). -/
def State.judgeShard (s : State) (n : Nat) (kmReadable settReadable : Bool) : State :=
  let x := s.shard n
  let d := s.heldDigest x
  let km := kmReadable && x.digest == d
  let sett := settReadable && x.sett == some d
  let s := s.addHold .WLD_CHKCNT_COUNT 0 1
  if km || sett then
    let s := s.setShard n { x with digest := d, sett := some d, checked := s.time, idle := 0, overdue := false, owed := false }
    if km && sett then s
    else (s.addHold .WLD_REPAIR_COUNT 0 1).raise 0x206 x.owner x.cluster 0xFF x.station []
  else s.suspectShard n

/-- Once the shards that a warm start checks before service have been read back, the spot pointer advances (R261). -/
def State.spotSettle (s : State) : State :=
  if s.spotDue && !(s.shards.any (fun e => e.2.state == 2 && e.2.owed && e.1 % 64 == s.spot)) then
    { s with spot := (s.spot + 1) % 64, spotDue := false }
  else s

/-- READBACK_DONE (R257 to R260): the verify steps, taken together, end: the instance holds a token for each engine of the shard, which
stands at a vector boundary (log entry 60). `snaps` are the cell pairs, keyed as `cells`, that were snapped to other levels than were
programmed, coded 16 G+ plus G- plus 1; `drifted` the row groups with a cell more than 0.3 level from its snapped level. -/
def execReadbackDone (now : Nat) (b : Fin 2) (snaps : List (Nat × Nat)) (drifted : List Nat) (kmReadable settReadable : Bool)
    (s : State) : Host.Outcome State Fault Refusal :=
  let s := s.advance now
  match s.beaver b.val with
  | none => .next s
  | some y =>
    match y.check with
    | none => .next s
    | some n =>
      let x := s.shard n
      let pes := s.stepsOf y
      if x.state != 2 then .next (s.beaverStop b.val).spotSettle
      else if !(pes.all (fun pe => s.tokenHeld.contains pe && s.coreOn (coreOf pe) && (s.engine pe).boundary)) then .next s
      else
        let s := pes.foldl State.opDone (s.beaverStop b.val)
        let mine := snaps.filter (fun p => x.rgs.contains (p.1 / 276 / 64) && 1 ≤ p.2 && p.2 ≤ 256)
        let s := mine.foldl (fun t p => { t with cells := smapSet 0 t.cells p.1 p.2 }) s
        let s := (x.rgs.filter drifted.contains).foldl (fun t g => t.earlyTouchup (g / 4) (g % 4)) s
        let twins := s.twinFindings x
        let s := (s.judgeShard n kmReadable settReadable).spotSettle
        .next (twins.foldl (fun t p => (t.weakCell p.1 p.2.1 (p.2.2 + Config.freeNat t.fresh % 2)).burn) s)

/-- READBACK_OVERDUE (R258). -/
def execReadbackOverdue (now : Nat) (n : Fin 1024) (s : State) : Host.Outcome State Fault Refusal :=
  let s := s.advance now
  let x := s.shard n.val
  if x.state != 2 || x.overdue || s.time < x.checked + x.idle + 2 * s.checkInterval then .next s
  else .next ((s.setShard n.val { x with overdue := true }).addHold .WLD_CHKSTAT_OVERDUE 0 1)

/-- WLD_ERR_CLEAR (R272): the capture is cleared and armed again. -/
def execWldErrClear (now : Nat) (s : State) : Host.Outcome State Fault Refusal :=
  let s := s.advance now
  .next (s.onReg 0x20 .WLD_ERR [] 0 (s.setF .WLD_ERR_VALID 0 0))

/-! ### Interruptions (R271) -/

/-- The commanded jobs of an owner are dropped, and the one in progress is abandoned after its step: its record is freed and its row
groups are left as they are. -/
def State.abortJobs (s : State) (owner : Nat) : State :=
  let s := (s.jobQ owner).foldl (fun t j => t.swapEnd j true) s
  let s := s.setJobQ owner ((s.jobQ owner).filter (fun j => j.tag.isNone))
  [0, 1].foldl
    (fun t b => match t.beaver b with
      | some x => if x.check.isNone && x.job.owner == owner && x.job.tag.isSome then t.jobFail b x 0x0B else t
      | none => t) s

/-- The programming of spare engines that is still to be done, as jobs of the device's own (R268). -/
def State.spareJobs (s : State) : List Job :=
  ((s.spareLeft.map (fun g => g / 68)).dedup).map (fun c => { Job.blank .spare 0 none with rgs := s.spareLeft.filter (fun g => g / 68 == c) })

end Sys2Proof.Machine
end

