-- ==== Sys2Proof/Machine/Thermal.lean ====
section
/-!
DEFINITION. The sensor hub: readings, exclusion and medians (R397 to R399), bands and throttling (R400 to R402), clusters without
sensors (R401), and the thermal shutdown (R405, R406).
-/

namespace Sys2Proof.Machine
open Sys2Proof

/-! ### Means and medians -/

def insertInt (x : Int) : List Int → List Int
  | [] => [x]
  | y :: ys => if x ≤ y then x :: y :: ys else y :: insertInt x ys

/-- Twice the median of some values; with an even count the median is the mean of the middle two (R399). -/
def median2 (xs : List Int) : Int :=
  let ys := xs.foldr insertInt []
  let n := ys.length
  if n % 2 = 1 then 2 * ys.getD (n / 2) 0 else ys.getD (n / 2 - 1) 0 + ys.getD (n / 2) 0

/-- A quotient as a register holds it. The manual does not say how it is rounded: the direction is a free value. -/
def State.rounded (s : State) (n : Int) (d : Nat) : Int :=
  n / d + (if n % d = 0 then 0 else (Config.freeNat s.fresh % 2 : Nat))

def State.sensor (s : State) (n : Nat) : Sensor := smapGet Sensor.idle s.sensors n
def State.setSensor (s : State) (n : Nat) (x : Sensor) : State := { s with sensors := smapSet Sensor.idle s.sensors n x }
def State.sensorValid (s : State) (n : Nat) : Bool := s.bit .THM_SENS_VALID n
/-- The 1 ms mean of a sensor in 1/8 °C. -/
def State.temp (s : State) (n : Nat) : Int := int16Val (s.getF .THM_SENS_TEMP n)

/-- The neighbours of a sensor (R398). -/
def neighbours (n : Nat) : List Nat :=
  if n < 64 then
    let c := n / 4
    ((List.range 4).map (fun i => 4 * c + i)).filter (fun m => m != n) ++
    ((List.range 16).filter (fun d => hops c d == 1)).map (fun d => 4 * d + n % 4)
  else
    let j := n - 64
    let p := Config.nearSensors n
    [64 + (j + 1) % 8, 64 + (j + 7) % 8, p.1 % 64, p.2 % 64]

/-- The sensors of a cluster, and the die-level sensors. -/
def clSensors (c : Nat) : List Nat := (List.range 4).map (fun i => 4 * c + i)
def dieSensors : List Nat := List.range' 64 8

/-- Each sensor's mean over its last 10 readings. -/
def State.takeMeans (s : State) : State :=
  (List.range 72).foldl
    (fun t n =>
      let xs := (t.sensor n).last
      if xs.isEmpty then t
      else ((t.setF .THM_SENS_TEMP n (half (t.rounded xs.sum xs.length)))).burn) s

/-- Whether a sensor differs by more than 8 °C from the median of its valid neighbours. -/
def State.differs (s : State) (n : Nat) : Bool :=
  let xs := ((neighbours n).filter s.sensorValid).map s.temp
  !xs.isEmpty && 128 < (2 * s.temp n - median2 xs).natAbs

/-- The cross-check of one sensor by the means of `u` (R398). -/
def State.crossCheck (u s : State) (n : Nat) : State :=
  let x := s.sensor n
  let c := if n < 64 then n / 4 else 0xFF
  if u.differs n then
    let s := s.setSensor n { x with bad := x.bad + 1, good := 0 }
    if u.sensorValid n && 2 ≤ x.bad then (s.setF .THM_SENS_VALID n 0).raise 0x209 0xFF c n 0xFFFF [] else s
  else
    let s := s.setSensor n { x with bad := 0, good := x.good + 1 }
    if !(u.sensorValid n) && 99 ≤ x.good then s.setF .THM_SENS_VALID n 1 else s

/-- The cluster and die medians over the valid sensors (R399). -/
def State.takeMedians (s : State) : State :=
  let s := (List.range 16).foldl
    (fun t c =>
      let xs := ((clSensors c).filter t.sensorValid).map t.temp
      let t := { t with medPrev := smapSet 0 t.medPrev c (t.median c) }
      if xs.isEmpty then t else (t.setF .CPT_STAT_MEDIAN c (half (t.rounded (median2 xs) 2))).burn) s
  let xs := (dieSensors.filter s.sensorValid).map s.temp
  if xs.isEmpty then s else (s.setF .THM_STAT_DIEMED 0 (half (s.rounded (median2 xs) 2))).burn

/-! ### Bands and throttling -/

/-- A cluster takes a band: its time in the old one is noted, and in service a calibration pass starts (R120, R121, R400). -/
def State.bandSet (s : State) (c b : Nat) : State :=
  if s.band c = b then s
  else
    let old := s.band c
    let t := smapGet 0 s.bandTime (5 * c + old) + (s.time - smapGet 0 s.bandAt c)
    let s := { s with bandTime := smapSet 0 s.bandTime (5 * c + old) t, bandAt := smapSet 0 s.bandAt c s.time }
    let s := s.unclean.setF .CPT_STAT_BAND c b
    if s.clusterAllowed c then s.bandPass c else s

/-- The thresholds at which a band is entered and left, in 1/8 °C (R400). -/
def bandRise : List Int := [320, 560, 720, 840]
def bandFall : List Int := [296, 536, 696, 816]

/-- The band moves by at most one in a 1 ms step, towards the one of the median; a cluster short of sensors is held in T4 (R400,
R401). -/
def State.bandStep (s : State) (c : Nat) : State :=
  let b := s.band c
  let m := s.median c
  let t := { s with bandMoved := c :: s.bandMoved }
  if s.bit .CPT_STAT_LOWSENS c || s.bandMoved.contains c then s
  else if b < 4 && bandRise.getD b 0 ≤ m then t.bandSet c (b + 1)
  else if 0 < b && m < bandFall.getD (b - 1) 0 then t.bandSet c (b - 1)
  else s

/-- BAND_CHANGE (R400). -/
def execBandChange (now : Nat) (cl : Cluster) (s : State) : Host.Outcome State Fault Refusal :=
  .next ((s.advance now).bandStep cl.val)

/-- A budget after throttling (R394). -/
def throttled (budget thr : Nat) : Nat := budget * (16 - thr) / 16

/-- A cluster's THR takes a value. A budget refill of the same cycle uses it (R404). -/
def State.thrSet (s : State) (c v : Nat) : State :=
  let t := s.setF .CPT_STAT_THR c v
  if s.refillAt = some s.time && s.sharedOn c then
    let old := throttled (smapGet 0 s.grants c) (s.getF .CPT_STAT_THR c)
    let new := throttled (smapGet 0 s.grants c) v
    let t := t.setF .CPT_PWR_BUDGET c (min 65535 new)
    { t with accounts := smapSet 0 t.accounts c (new - (old - smapGet 0 s.accounts c)) }
  else t

/-- THROTTLE_STEP (R402): once in a 1 ms step, on the band as the step leaves it, THR rises while the cluster is in T4, at 105 °C or above
and not cooling, and falls below 103 °C. -/
def execThrottleStep (now : Nat) (cl : Cluster) (s : State) : Host.Outcome State Fault Refusal :=
  let s := (s.advance now).bandStep cl.val
  let c := cl.val
  let thr := s.getF .CPT_STAT_THR c
  let m := s.median c
  let t := { s with thrJudged := c :: s.thrJudged }
  if s.bit .CPT_STAT_LOWSENS c || s.thrJudged.contains c then .next s
  else if s.band c = 4 && 840 ≤ m && smapGet 0 s.medPrev c ≤ m then .next (t.thrSet c (min 14 (thr + 1)))
  else if m < 824 then .next (t.thrSet c (thr - 1))
  else .next t

/-! ### Clusters without sensors (R401) -/

/-- Switches a cluster's domains off. -/
def State.clusterOff (s : State) (c : Nat) : State :=
  let s := (List.range 8).foldl (fun t k => if t.coreOn (8 * c + k) then t.coreOff (8 * c + k) else t) s
  if s.sharedOn c then s.sharedOff c else s

/-- A cluster without a valid sensor in service. -/
def State.clusterDead (s : State) (c : Nat) : State :=
  let s := s.clusterOff c
  let sts := (s.stations.filter (fun e => e.2.state != 0 && e.2.core / 8 == c)).map (·.1)
  let s := sts.foldl (fun t st => t.park st .sensor) s
  { s with deadCls := s.deadCls ++ [c] }.raise 0x106 0xFF c 0xFF 0xFFFF []

/-- LOWSENS, and a cluster without sensors. -/
def State.countSensors (s : State) (c : Nat) : State :=
  let n := ((clSensors c).filter s.sensorValid).length
  let s := if n < 2 then ((s.bandSet c 4).thrSet c 14).setF .CPT_STAT_LOWSENS c 1
    else s.setF .CPT_STAT_LOWSENS c 0
  if n = 0 && s.clusterAllowed c then s.clusterDead c else s

/-- SENSOR_CHECK (R398, R399, R401), once per 1 ms: the means, the cross-check, the medians, and the count of valid sensors. -/
def execSensorCheck (now : Nat) (s : State) : Host.Outcome State Fault Refusal :=
  let u := (s.advance now).takeMeans
  let s := { ((List.range 72).foldl (fun t n => u.crossCheck t n) u).takeMedians with bandMoved := [], thrJudged := [] }
  .next ((List.range 16).foldl (fun t c => t.countSensors c) s)

/-! ### Shutdown (R405, R406) -/

/-- Every loader job ends with ABORTED; a record that is not committed does not exist (R271, R406). -/
def State.loaderAbort (s : State) : State :=
  let s := [0, 1].foldl
    (fun t b => match t.beaver b with
      | some x => if x.check.isSome then t.beaverStop b else t.jobFail b x 0x0B
      | none => t) s
  let s := (List.range 129).foldl
    (fun t o => ((t.jobQ o).foldl (fun u j => (u.swapEnd j true).loaderAnswer o j.tag 0x0B 0) t).setJobQ o []) s
  { s.setJobQ 0 s.spareJobs with tokenHeld := [], tokenWait := [] }

/-- Sends OPERATION off to the VDD_PGM regulators (PMBus command 0x01). -/
def State.pgmOff (s : State) : State :=
  (List.range 6).foldl
    (fun t n => if t.bit .PWR_REG_VALID n && t.getF .PWR_REG_RAIL n = 2 then t.emit (.pmbus n 0x01 0) else t) s

/-- The thermal shutdown of Table 15.5. -/
def State.shutdown (s : State) (sensor : Nat) : State :=
  let s := ((s.setF .THM_STAT_SHUT 0 1).setF .THM_STAT_SHUTSENS 0 sensor).raise 0x103 0xFF 0xFF sensor 0xFFFF []
  let s := s.loaderAbort
  let s := (List.range 16).foldl State.clusterOff s
  let s := [1, 2, 3, 4, 5].foldl (fun t b => if t.dieOn b then t.dieOff b else t) s
  let s := { s with passes := [], dac := { s.dac with queue := [], serving := none } }
  let s := { s.pgmOff with avs := { whence := 750, whither := 750, since := s.time } }
  if s.bit .PWR_REG_VALID 0 then s.emit (.pmbus 0 0x21 750) else s

/-- SENSOR_READ (R397, R405): a reading of every sensor in 1/8 °C, by number; a valid sensor at 115 °C or above twice running shuts the
die down. -/
def execSensorRead (now : Nat) (temps : List Int) (s : State) : Host.Outcome State Fault Refusal :=
  let s := s.advance now
  let s := (List.range 72).foldl
    (fun t n => let x := t.sensor n; match temps[n]? with
      | some v => t.setSensor n { x with last := (v :: x.last).take 10 }
      | none => t) s
  let hot (n : Nat) : Bool :=
    s.sensorValid n && (s.sensor n).last.length ≥ 2 && ((s.sensor n).last.take 2).all (fun v => 920 ≤ v)
  match (List.range 72).find? hot with
  | some n => if s.shutDown then .next s else .next (s.shutdown n)
  | none => .next s

end Sys2Proof.Machine
end

