-- ==== Sys2Proof/Machine/Power.lean ====
section
/-!
DEFINITION. The power manager: the power cap and the programming-token pool (R392 to R396), the regulators (R389, R391), and
adaptive voltage (R390).
-/

namespace Sys2Proof.Machine
open Sys2Proof

/-! ### The cap (R392 to R396) -/

/-- The programming-token pool at a cap in 250 mW (R396); a fault on VDD_PGM holds it at 0 (R391). -/
def State.poolNow (s : State) : State :=
  let pool := if s.pgmFault then 0 else min 256 (2 * (s.capNow - 8))
  { s.setF .PWR_STAT_POOL 0 pool with tokenPool := pool }

/-- CAP_WRITE (R392, R395). -/
def execCapWrite (now : Nat) (v : BitVec 8) (s : State) : Host.Outcome State Fault Refusal :=
  let s := s.advance now
  .next ((s.setF .PWR_CAP_CAP 0 (max 24 (min (4 * s.setting 4) v.toNat))).setF .PWR_STAT_OVERCAP 0 0)

/-- Awake clusters (R394). -/
def State.awake (s : State) : List Nat := (List.range 16).filter s.sharedOn

/-- The shares of `rest` tokens by demand, rounded down; equal where every demand is 0 (R394). -/
def shares (rest : Nat) (demand : List Nat) : List Nat :=
  let total := demand.sum
  if total = 0 then demand.map (fun _ => rest / demand.length) else demand.map (fun d => rest * d / total)

/-- The budgets of the awake clusters before throttling: the floor of 8, the share, and the remainder one token each. -/
def budgets (rest : Nat) (demand : List Nat) : List Nat :=
  let xs := shares rest demand
  let left := rest - xs.sum
  xs.zipIdx.map (fun p => 8 + p.1 + (if p.2 < left then 1 else 0))

/-- BUDGET_REFILL (R394 to R396, Table 16.3) at each multiple of 100 us of device time: CAP is clamped to its ceiling again, and each
awake cluster's account holds its budget, what was left of the last one lapsing. `base` is the measured charge of AON and the die
domains. The demands, which the controllers estimate, are free values. -/
def execBudgetRefill (now : Nat) (base : Nat) (s : State) : Host.Outcome State Fault Refusal :=
  let s := s.advance now
  if s.clock % 100000 != 0 then .next s
  else
    let v := min (s.getF .PWR_CAP_CAP 0) (4 * s.setting 4)
    let s := { s.setF .PWR_CAP_CAP 0 v with capNow := v }.poolNow
    let cs := s.awake
    let used := base + s.tokenHeld.length + 8 * cs.length
    let cap := 10 * s.capNow
    let s := if cap < used then s.addHold .PWR_STAT_OVERCAP 0 1 else s
    let demand := cs.map (fun c => Config.freeNat (s.fresh + c))
    let bs := budgets (cap - used) demand
    let s := { s with fresh := s.fresh + 16 }
    let ps := (cs.zip bs).map (fun p => (p.1, throttled p.2 (s.getF .CPT_STAT_THR p.1)))
    let t := ps.foldl (fun (t : State) p => t.setF .CPT_PWR_BUDGET p.1 (min 65535 p.2)) s
    let left : SMap Nat := ps.foldl (fun (m : SMap Nat) p => smapSet 0 m p.1 p.2) []
    let all : SMap Nat := (cs.zip bs).foldl (fun (m : SMap Nat) p => smapSet 0 m p.1 p.2) []
    .next { t with accounts := left, refillAt := some t.time, grants := all }

/-! ### Regulators (R389, R391) -/

/-- The VDD_CORE setpoint now, at 10 mV per 100 us. -/
def State.vset (s : State) : Nat :=
  let step := (s.time - s.avs.since) / 100000 * 10
  if s.avs.whence ≤ s.avs.whither then min s.avs.whither (s.avs.whence + step) else max s.avs.whither (s.avs.whence - step)

/-- Whether a STATUS_WORD reports a fault: PMBus names bits 1, 3, 4 and 5 faults; bits 0, 2, 8 to 10 and 12 to 15 stand for
faults or warnings alike, and whether such a word is a fault is a free value. -/
def State.faultWord (s : State) (w : Nat) : Bool :=
  w &&& 0x003A != 0 || (w &&& 0xF705 != 0 && Config.freeBool s.fresh)

/-- A fault on VDD_PGM: no tokens, and programming in progress ends (R391). -/
def State.pgmFails (s : State) : State :=
  let s := [0, 1].foldl
    (fun t b => match t.beaver b with
      | some x => if x.check.isNone && x.state == 3 then t.jobFail b x 0x0B else t
      | none => t) s
  (s.tokenHeld.foldl State.freeToken { s with pgmFault := true }).poolNow

/-- A regulator's STATUS_WORD and power (R389, R391). -/
def State.regAnswer (s : State) (n : Nat) (a : RegAnswer) : State :=
  let s := { s with regFails := smapSet 0 s.regFails n 0 }
  let s := (s.setF .PWR_REG_STAT_STATUS n a.status.toNat).setF .PWR_REG_POUT_MW n a.mw
  if s.faultWord a.status.toNat then
    let t := if s.bit .PWR_REG_STAT_FAULT n then s.burn else ((s.setF .PWR_REG_STAT_FAULT n 1).burn).raise 0x105 0xFF 0xFF n 0xFFFF []
    if s.getF .PWR_REG_RAIL n = 2 then t.pgmFails else t
  else s.burn

/-- A slot that does not answer: LOST at the third time running (R391). -/
def State.regSilent (s : State) (n : Nat) : State :=
  let k := smapGet 0 s.regFails n + 1
  let s := { s with regFails := smapSet 0 s.regFails n k }
  if k < 3 then s
  else
    let s := { s.setF .PWR_REG_STAT_LOST n 1 with regTried := smapSet 0 s.regTried n s.time }
    if n = 0 then { s.setF .PWR_AVS_HELD 0 1 with avs := { whence := s.vset, whither := s.vset, since := s.time } } else s

/-- One transaction with each valid slot that is not LOST. -/
def State.telemetry (s : State) (answers : List (Option RegAnswer)) : State :=
  (List.range 6).foldl
    (fun t n =>
      if !(t.bit .PWR_REG_VALID n) || t.bit .PWR_REG_STAT_LOST n then t
      else match answers.getD n none with
        | some a => t.regAnswer n a
        | none => t.regSilent n) s

/-- The power that the registers report: measured while every valid slot answers, else in part an estimate, which is a free
value, as each cluster's is (R391, R393). -/
def State.powerShown (s : State) : State :=
  let ns := (List.range 6).filter (fun n => s.bit .PWR_REG_VALID n)
  let all := ns.all (fun n => !(s.bit .PWR_REG_STAT_LOST n) && smapGet 0 s.regFails n == 0)
  let mw := if all then (ns.map (fun n => s.getF .PWR_REG_POUT_MW n)).sum else Config.freeNat s.fresh
  let s := (s.setF .PWR_STAT_DIEMW 0 (min 65535 mw)).burn
  (List.range 16).foldl (fun t c => (t.setF .CPT_PWR_MW c (Config.freeNat t.fresh % 65536)).burn) s

/-- PMBUS_TELEMETRY (R389, R391): once per 1 ms. -/
def execPmbusTelemetry (now : Nat) (answers : List (Option RegAnswer)) (s : State) : Host.Outcome State Fault Refusal :=
  .next (((s.advance now).telemetry answers).powerShown)

/-- SMBALERT (R389, R391): the STATUS_WORD of every slot is read at once. -/
def execSmbalert (now : Nat) (answers : List (Option RegAnswer)) (s : State) : Host.Outcome State Fault Refusal :=
  .next ((s.advance now).telemetry answers)

/-- REGULATOR_RETRY (R391): every 100 ms a LOST slot is tried again. -/
def execRegulatorRetry (now : Nat) (n : Fin 6) (answer : Option RegAnswer) (s : State) : Host.Outcome State Fault Refusal :=
  let s := s.advance now
  if !(s.bit .PWR_REG_STAT_LOST n.val) || s.time < smapGet 0 s.regTried n.val + 100000000 then .next s
  else
    match answer with
    | none => .next { s with regTried := smapSet 0 s.regTried n.val s.time }
    | some a =>
      let s := s.setF .PWR_REG_STAT_LOST n.val 0
      .next ((if n.val = 0 then s.setF .PWR_AVS_HELD 0 0 else s).regAnswer n.val a)

/-- Whether a slot's CLR ends a fault of VDD_PGM: it holds that rail, or no slot does (R391, R453). -/
def State.clearsPgm (s : State) (n : Nat) : Bool :=
  let pgm (k : Nat) : Bool := s.bit .PWR_REG_VALID k && s.getF .PWR_REG_RAIL k == 2
  pgm n || !((List.range 6).any pgm)

/-- REGULATOR_CLR (R391): FAULT clears and CLEAR_FAULTS, PMBus command 0x03, is sent. -/
def execRegulatorClr (now : Nat) (n : Fin 6) (s : State) : Host.Outcome State Fault Refusal :=
  let s := s.advance now
  let s := (s.setF .PWR_REG_STAT_FAULT n.val 0).emit (.pmbus n.val 0x03 0)
  .next (if s.pgmFault && s.clearsPgm n.val then { s with pgmFault := false }.poolNow else s)

/-! ### Adaptive voltage (R390) -/

/-- Sets out for a voltage, unless slot 0 is LOST; VOUT_COMMAND is PMBus command 0x21. -/
def State.setVoltage (s : State) (mv : Nat) : State :=
  if s.bit .PWR_AVS_HELD 0 || mv = s.avs.whither then s
  else { s with avs := { whence := s.vset, whither := mv, since := s.time } }.emit (.pmbus 0 0x21 mv)

/-- A setpoint within 0.65 to 0.85 V, in steps of 5 mV. -/
def voltage (mv : Nat) : Nat := max 650 (min 850 (mv / 5 * 5))

/-- AVS_ADJUST (R390): once per 10 ms, from the path monitors. -/
def execAvsAdjust (now : Nat) (mv : Nat) (s : State) : Host.Outcome State Fault Refusal :=
  let s := s.advance now
  .next (if s.bit .PWR_AVS_EN 0 then s.setVoltage (voltage mv) else s)

/-- AVS_MONITOR_WARNING (R390): the voltage is raised at once. -/
def execAvsMonitorWarning (now : Nat) (mv : Nat) (s : State) : Host.Outcome State Fault Refusal :=
  let s := s.advance now
  .next (if s.bit .PWR_AVS_EN 0 then s.setVoltage (max s.avs.whither (voltage mv)) else s)

/-- AVS_ENABLE_WRITE (R390): with EN = 0 the output goes to 0.75 V. -/
def execAvsEnableWrite (now : Nat) (en : Bool) (s : State) : Host.Outcome State Fault Refusal :=
  let s := (s.advance now).setB .PWR_AVS_EN 0 en
  .next (if en then s else s.setVoltage 750)

end Sys2Proof.Machine
end

