-- ==== Sys2Proof/Machine/Startup.lean ====
section
/-!
DEFINITION. Start-up, reset, Bear state and failover: the choice and the sequence of a start (R370 to R376), what each reset
leaves (R377), Bear state (R378, R379), the boot images (R380), checkpoints and takeover (R381 to R385), and the rail monitors
(R453).
-/

namespace Sys2Proof.Machine
open Sys2Proof

/-! ### What survives (R377, Table 14.2) -/

/-- Register fields kept in Sett and fuses, restored at every start (R32, R88, R416, R421). -/
def Fld.inSett (f : Fld) : Bool :=
  match f with
  | .ME_REMAP_VALID | .ME_REMAP_FAULTY | .ME_REMAP_COLUMN | .ME_RGSTAT_CYC10 | .ME_RGSTAT_MEANIT | .ME_RGSTAT_WARN
  | .CCTL_EMAP_SPARE_USED | .CCTL_EMAP_MES_RETIRED | .CCTL_EMAP_CAPACITY | .CCTL_EMAP_SPARE_FOR | .CCTL_EMAP_RETIRED
  | .NVS_STAT_SPARES | .NVS_FWARB_COUNT => true
  | _ => false

/-- Register fields that a die reset leaves beside those: the shutdown latch, the count since power-on, failed starts, the band
of the stored trims, and the slots that the boot configuration gives again. -/
def Fld.inAon (f : Fld) : Bool :=
  match f with
  | .GCTL_START_BOOTS | .GCTL_MGR_TAKEOVERS | .THM_STAT_SHUT | .THM_STAT_SHUTSENS | .ME_CALSTAT_BAND
  | .PWR_REG_VALID | .PWR_REG_PEC | .PWR_REG_RAIL | .PWR_REG_SPEED | .PWR_REG_ADDR => true
  | _ => false

/-- The register store with only the fields that satisfy a test. -/
def State.keepRegs (s : State) (p : Fld → Bool) : SMap Nat :=
  let codes := ((pfRegs.flatMap Reg.fields).filter p).map Fld.code
  s.regs.filter (fun e => codes.contains (keyCode e.1))

/-- A tracker with its touch-up account and wear, and nothing else. -/
def Tracker.kept (x : Tracker) : Tracker :=
  { Tracker.fresh with account := x.account, snap := x.snap, halvings := x.halvings, gainRef := x.gainRef, sweep := x.sweep, sweepAt := x.sweepAt, swept := x.swept }

/-- A tracker's wear alone. -/
def Tracker.worn (x : Tracker) : Tracker :=
  { Tracker.fresh with sweep := x.sweep, sweepAt := x.sweepAt, swept := x.swept }

/-- Maps the values of a map, dropping those that become the default. -/
def mapKept {α : Type} [DecidableEq α] (d : α) (f : α → α) (m : SMap α) : SMap α :=
  (m.map (fun e => (e.1, f e.2))).filter (fun e => !(e.2 == d))

/-- Burns that a loss of power or a die reset cuts short: a change slot is spent without effect, and the anti-rollback counter
stays at the bits already burned, a free value (R419, R421). -/
def State.burnsCut (s : State) : State :=
  let s := match s.lcBusy with
    | some (n, v) => { s with lc := smapSet [] s.lc n (s.lcSlots n ++ [({ value := v, ok := false } : LcSlot)]), lcBusy := none }
    | none => s
  match s.fwTarget with
  | some t =>
    let c := s.getF .NVS_FWARB_COUNT 0
    { (s.setF .NVS_FWARB_COUNT 0 (c + Config.freeNat s.fresh % (t - c + 1))).burn with fwTarget := none }
  | none => s

/-- The bytes of Sett with pages of a commit written (R412). -/
def settWith (m : SMap (Option Byte)) (ps : List SettPage) : SMap (Option Byte) :=
  ps.foldl (fun m p => p.bytes.foldl (fun u e => smapSet none u (64 * p.page + e.1) e.2) m) m

/-- Power lost during a commit of the physical function leaves every page of it in its new or its old state, by a free value
(R412). -/
def State.commitCut (s : State) : State :=
  match s.events.commit, s.settQueue with
  | some true, c :: _ =>
    c.foldl
      (fun (t : State) p =>
        if Config.freeBool t.fresh then { t with settMem := settWith t.settMem [p] }.burn else t.burn) s
  | _, _ => s

/-- The counter group in a slot of the ring, if the slot is readable (R411, R415). -/
def State.ringSlot (s : State) (n : Nat) : Option CounterSlot :=
  let xs := (List.range 32).filterMap (fun k => smapGet none s.settMem (131072 + 32 * n + k))
  if xs.length = 32 && crc32 (xs.take 28) == leNat (xs.drop 28) then
    some { group := leNat (xs.take 4), seq := leNat ((xs.drop 4).take 4), data := (xs.drop 8).take 20 }
  else none

/-- The newest readable copy of each counter group (R415), newest under the comparison of R160. -/
def State.newestCounters (s : State) : SMap CounterSlot :=
  let slots := ((s.settMem.filter (fun e => 131072 ≤ e.1 && e.1 < 196608)).map (fun e => (e.1 - 131072) / 32)).dedup
  (slots.filterMap s.ringSlot).foldl
    (fun m x =>
      let y := smapGet CounterSlot.empty m x.group
      if y = CounterSlot.empty || (x.seq + 4294967296 - y.seq) % 4294967296 < 2147483648 then smapSet CounterSlot.empty m x.group x
      else m) []

/-- The state that a loss of power leaves: Sett, fuses, the key store and the engine weights; the queue of waiting commands, the
free values taken and what has been sent are the model's own. -/
def State.powerOff (u : State) : State :=
  let s := u.burnsCut.commitCut
  { State.reset with
    pending := s.pending
    time := s.time
    base := s.time
    pllOff := some s.time
    fresh := s.fresh
    out := s.out
    regs := s.keepRegs Fld.inSett
    cells := s.cells
    trackers := mapKept Tracker.fresh Tracker.worn s.trackers
    shards := mapKept Shard.free Shard.rebuilt s.shards
    spareLeft := s.spareLeft
    modelKeys := s.modelKeys
    signKeys := s.signKeys
    dac := { Dac.reset with settTrim := s.dac.settTrim }
    events := { State.reset.events with paths := smapSet EvPath.empty [] 0 { recs := (s.events.path 0).recs, table := [] }, seq := s.events.seq }
    perst := s.perst
    norA := s.norA
    norB := s.norB
    shutRec := s.shutRec
    calRec := s.calRec
    settMem := s.settMem
    settCommits := s.settCommits
    settRefreshes := s.settRefreshes
    counters := s.newestCounters
    ringNext := s.ringNext
    ringSeq := s.ringSeq
    lc := s.lc
    spot := s.spot
    wioDown := s.wioDown }

/-- The state that a die reset leaves: beside that, device time, the trims, the touch-up accounts, the readings of the sensors and
the state of the always-on block that Table 14.2 names. -/
def State.dieCleared (u : State) : State :=
  let s := u.burnsCut.commitCut
  let times : SMap Nat := (List.range 16).foldl
    (fun m c => (s.bandTimes c).zipIdx.foldl (fun u p => smapSet 0 u (5 * c + p.2) p.1) m) []
  { s.powerOff with
    base := s.base
    pllOff := some (s.pllOff.getD s.time)
    regs := s.keepRegs (fun f => f.inSett || f.inAon)
    trackers := mapKept Tracker.fresh Tracker.kept s.trackers
    trims := s.trims
    bandTime := times
    bandAt := (List.range 16).foldl (fun m c => smapSet 0 m c s.time) []
    sensors := s.sensors }

/-! ### The start (R370 to R374, R380) -/

/-- Whether the ROM accepts an image (R380). -/
def State.accepts (s : State) (i : Option Image) : Bool :=
  match i with
  | some x => x.authentic && s.getF .NVS_FWARB_COUNT 0 ≤ x.secver
  | none => false

def imageVersion (i : Option Image) : Nat := match i with | some x => x.version | none => 0

/-- The slot from which the ROM boots, false for A: first the slot with the higher image version (R380). -/
def State.bootSlot (s : State) : Option Bool :=
  let b := imageVersion s.norA < imageVersion s.norB
  let order := if b then [true, false] else [false, true]
  order.find? (fun x => s.accepts (if x then s.norB else s.norA))

/-- Why a start after power-on is cold, 0 if it is warm (R370, GCTL_START.CAUSE). -/
def State.coldCause (s : State) (rtc : Option Nat) (dieTemp2 : Int) : Nat :=
  match s.shutRec with
  | none => 1
  | some r =>
    let young := match rtc with | some t => decide (r.rtc ≤ t ∧ t - r.rtc ≤ 86400) | none => false
    let fresh := match s.calRec, s.image with | some v, some i => v == i.calver | _, _ => false
    if !r.clean then 2 else if !young then 3 else if 160 < (dieTemp2 - 2 * r.temp).natAbs then 4
    else if !fresh then 5 else 0

/-- The band that a temperature lies in (Table 4.5). -/
def bandOf (m : Int) : Nat := (bandRise.filter (fun t => t ≤ m)).length

/-- Step 6: the sensors are cross-checked on 1 ms of readings, the medians and bands taken; a cluster without a valid sensor
stays off (R374, R398). -/
def State.startSensors (s : State) : State :=
  let s := (List.range 72).foldl (fun t n => t.setF .THM_SENS_VALID n 1) s
  let s := s.takeMeans
  let bad := (List.range 72).filter s.differs
  let s := bad.foldl (fun t n => (t.setF .THM_SENS_VALID n 0).raise 0x209 0xFF (if n < 64 then n / 4 else 0xFF) n 0xFFFF []) s
  let s := s.takeMedians
  (List.range 16).foldl
    (fun (t : State) (c : Nat) =>
      let n := ((clSensors c).filter t.sensorValid).length
      let t : State := { t.setF .CPT_STAT_BAND c (if n < 2 then 4 else bandOf (t.median c)) with bandAt := smapSet 0 t.bandAt c t.time }
      let t := if n < 2 then (t.setF .CPT_STAT_THR c 14).setF .CPT_STAT_LOWSENS c 1 else t
      if n = 0 then { t with deadCls := t.deadCls ++ [c] }.raise 0x106 0xFF c 0xFF 0xFFFF [] else t) s

/-- Step 7 is asked of every cluster in ascending index: full calibration at a cold start and where the trims are of another
band, else the two-point check (R372, R373, R117). -/
def State.startCalibration (s : State) (cold : Bool) : State :=
  ((List.range 16).filter (fun c => !(s.deadCls.contains c))).foldl
    (fun t c =>
      let es := (List.range 136).map (fun k => 136 * c + k)
      let full := cold || es.any (fun pe => t.trimBand pe != t.band c)
      t.queueCal c { CalPass.idle with full := full, engines := es, band := t.band c }) s

/-- Step 9: the read-backs that a start owes; a warm one first those at the spot pointer (R261). Spare engines that are still to be
programmed are (R268). -/
def State.startReadback (s : State) (warm : Bool) : State :=
  let sh : SMap Shard := s.shards.map (fun e => (e.1, { e.2 with owed := e.2.state == 2 }))
  { s with shards := sh, spotDue := warm }.setJobQ 0 s.spareJobs |>.spotSettle

/-- A start that no image allows: three attempts fail alike, and the ROM stops at step 3 (R376). -/
def State.startFails (s : State) : State :=
  (((s.setF .GCTL_START_BOOTS 0 3).setF .GCTL_START_STEP 0 3).setF .GCTL_RESET_LAST 0 4).dieUp 0

/-- Steps 1 to 6 of a start. `kind` is GCTL_START.KIND and `cause` its CAUSE. -/
def State.runStart (s : State) (kind cause : Nat) (slot : Bool) : State :=
  let r : Option ShutRecord := match s.shutRec with | some r => some { r with clean := false } | none => none
  let s := { s with shutRec := r }
  let s := ((s.setF .GCTL_START_KIND 0 kind).setF .GCTL_START_CAUSE 0 cause).setF .GCTL_START_BOOTS 0 0
  let s := (s.setB .GCTL_START_SLOT 0 slot).startSensors
  let s := (s.setF .GCTL_START_STEP 0 6).setF .GCTL_MGR_STANDBY 0 1
  let s := [0, 2, 3, 5].foldl (fun t b => if t.needDie b then t.dieUp b else t) s
  (s.startCalibration (kind == 0)).startReadback (kind != 0)

/-- The trims and touch-up accounts of the shutdown record (R373). -/
def State.restoreRecord (s : State) (r : ShutRecord) : State :=
  let s := { s with trims := r.trims }
  let s := r.bands.zipIdx.foldl (fun t p => t.setF .ME_CALSTAT_BAND p.2 p.1) s
  r.accounts.foldl (fun t p => t.setTracker p.1 { p.2.kept with snap := [0, 0, 0, 0, 0] }) s

/-- The boot configuration's regulator slots, laid out as PWR_REGn (R389). -/
def State.loadSlots (s : State) (ws : List (BitVec 32)) : State :=
  ws.zipIdx.foldl
    (fun t p =>
      let w := p.1.toNat
      let t := ((t.setF .PWR_REG_VALID p.2 (bits w 31 31)).setF .PWR_REG_PEC p.2 (bits w 30 30)).setF .PWR_REG_RAIL p.2 (bits w 29 27)
      (t.setF .PWR_REG_SPEED p.2 (bits w 26 25)).setF .PWR_REG_ADDR p.2 (bits w 6 0)) s

/-- POWER_ON (R370 to R374): whatever was held without power is gone, and the ROM chooses and runs a start. -/
def execPowerOn (now : Nat) (found : PowerOnInputs) (s : State) : Host.Outcome State Fault Refusal :=
  let s := { s.powerOff with time := now, base := now, pllOff := some now, norA := found.imageA, norB := found.imageB }
  let s := s.loadSlots found.slots
  let s := (List.range 72).foldl (fun t n => t.setSensor n { Sensor.idle with last := [found.sensors.getD n 0] }) s
  match s.bootSlot with
  | none => .next s.startFails
  | some slot =>
    let s := { s with image := if slot then s.norB else s.norA }
    let cause := s.coldCause found.rtc (median2 (dieSensors.map (fun n => found.sensors.getD n 0)))
    match cause, s.shutRec with
    | 0, some r => .next ((s.restoreRecord r).runStart 1 0 slot)
    | c, _ => .next (s.runStart 0 c slot)

/-- A die reset and the warm start that follows (R377). -/
def State.dieReset (s : State) (last : Nat) : State :=
  let t := s.dieCleared.setF .GCTL_RESET_LAST 0 last
  match t.bootSlot with
  | none => t.startFails
  | some slot => { t with image := if slot then t.norB else t.norA }.runStart 2 0 slot

/-- DIE_RESET (R377): RST_N, or a write of GCTL_RESET with the key and DIE. -/
def execDieReset (now : Nat) (cause : DieResetCause) (s : State) : Host.Outcome State Fault Refusal :=
  let s := s.advance now
  match cause with
  | .rstN => .next (s.dieReset 1)
  | .pfWrite key die => if key = 0x5A17#16 && die then .next (s.dieReset 2) else .next s

/-- CLUSTER_FULL_SERVICE (R375): the cluster's calibration and its read-backs have ended. -/
def execClusterFullService (now : Nat) (cl : Cluster) (s : State) : Host.Outcome State Fault Refusal :=
  let s := (s.advance now).spotSettle
  let c := cl.val
  let owed := s.shards.any (fun e => e.2.state == 2 && e.2.cluster == c && e.2.owed &&
    (s.getF .GCTL_START_KIND 0 == 0 || (s.spotDue && e.1 % 64 == s.spot)))
  let busy := (s.passQ c).any (fun p => !p.engines.isEmpty)
  if s.getF .GCTL_START_STEP 0 != 6 || s.deadCls.contains c || (s.getF .GCTL_START_FULL 0).testBit c || owed || busy then .next s
  else
    let s := s.setF .GCTL_START_FULL 0 (withBit (s.getF .GCTL_START_FULL 0) c true)
    .next (if s.getF .GCTL_START_FULL 0 = 0xFFFF then s.setF .GCTL_START_STEP 0 10 else s)

/-! ### Bear state (R378, R379, R382) -/

/-- Whether any partition is loaded. -/
def State.anyLoaded (s : State) : Bool := s.parts.any (fun e => e.2.isSome)

/-- A write of GCTL_PWRST in thermal shutdown is refused; which RESULT it shows is a free value (R406). -/
def State.pwrstRefused (s : State) : State := (s.setF .GCTL_PWRST_RESULT 0 (Config.freeNat s.fresh % 4)).burn

/-- BEAR (R378). -/
def execBear (now : Nat) (s : State) : Host.Outcome State Fault Refusal :=
  let s := s.advance now
  if s.shutDown then .next s.pwrstRefused
  else if s.anyLoaded || s.ctxs.any (fun e => e.2.state != 0) then .next (s.setF .GCTL_PWRST_RESULT 0 2)
  else if s.getF .GCTL_PWRST_STATE 0 != 0 then .next s
  else .next (s.setF .GCTL_PWRST_STATE 0 1)

/-- The wake begins: every cluster asks for its two-point check, or for full calibration in another band (R379). -/
def State.wakeStart (s : State) : State :=
  let sh : SMap Shard := s.shards.map (fun e => (e.1, if e.2.state = 2 then { e.2 with idle := e.2.idle + (s.time - s.bearAt) } else e.2))
  let s := { s.setF .GCTL_PWRST_STATE 0 3 with shards := sh, wakeAsked := false }
  let s := [2, 3].foldl (fun t b => if t.dieOn b then t else t.dieUp b) s
  s.startCalibration false

/-- BEAR_ENTRY_DONE (R378): the domains are off. -/
def execBearEntryDone (now : Nat) (s : State) : Host.Outcome State Fault Refusal :=
  let s := s.advance now
  if s.getF .GCTL_PWRST_STATE 0 != 1 then .next s
  else
    let s := [0, 1].foldl
      (fun t b => match t.beaver b with | some x => if x.check.isSome then t.beaverStop b else t | none => t) s
    let s := (List.range 16).foldl State.clusterOff s
    let s := [2, 3, 4].foldl (fun t b => if t.dieOn b then t.dieOff b else t) s
    let s := { (s.setF .GCTL_PWRST_STATE 0 2).setF .GCTL_PWRST_RESULT 0 1 with bearAt := s.time }
    .next (if s.wakeAsked then s.wakeStart else s)

/-- WAKE (R379): a WAKE during entry takes effect once entry is complete. -/
def execWake (now : Nat) (s : State) : Host.Outcome State Fault Refusal :=
  let s := s.advance now
  if s.shutDown then .next s.pwrstRefused
  else if s.getF .GCTL_PWRST_STATE 0 = 2 then .next s.wakeStart
  else if s.getF .GCTL_PWRST_STATE 0 = 1 then .next { s with wakeAsked := true }
  else .next s

/-- WAKE_DONE (R379): the two-point checks have ended; full calibrations of clusters in another band go on. -/
def execWakeDone (now : Nat) (s : State) : Host.Outcome State Fault Refusal :=
  let s := s.advance now
  let checks := (List.range 16).any (fun c => (s.passQ c).any (fun p => !p.full && !p.engines.isEmpty))
  if s.getF .GCTL_PWRST_STATE 0 != 3 || checks then .next s else .next (s.setF .GCTL_PWRST_STATE 0 0)

/-- The shutdown record (R382). -/
def State.shutRecord (s : State) (rtc : Nat) : ShutRecord :=
  { clean := true, rtc := rtc, temp := int16Val (s.getF .THM_STAT_DIEMED 0), calver := match s.image with | some i => i.calver | none => 0, trims := s.trims, bands := (List.range 2176).map s.trimBand, accounts := s.trackers.map (fun e => (e.1, { e.2 with account := s.touchAccount (e.1 / 4) (e.1 % 4) })), spot := s.spot }

/-- PREPARE (R382): the shutdown record is written with the clock's value, and committed or not. -/
def execPrepare (now : Nat) (rtc : Nat) (committed : Bool) (s : State) : Host.Outcome State Fault Refusal :=
  let s := s.advance now
  if s.shutDown then .next s.pwrstRefused
  else if s.anyLoaded then .next (s.setF .GCTL_PWRST_RESULT 0 2)
  else if !committed then .next (s.setF .GCTL_PWRST_RESULT 0 3)
  else
    let r := s.shutRecord rtc
    .next { (s.setF .GCTL_PWRST_CLEAN 0 1).setF .GCTL_PWRST_RESULT 0 1 with shutRec := some r, calRec := some r.calver }

/-! ### Checkpoints and takeover (R381 to R385) -/

/-- CHECKPOINT_COMMIT (R239, R381): every command entry read so far, and the completion of every load, is held in the committed
buffer. -/
def execCheckpointCommit (now : Nat) (s : State) : Host.Outcome State Fault Refusal :=
  let s := s.advance now
  let fs : SMap Function := s.fns.map (fun e => (e.1, { e.2 with held := e.2.entries.length }))
  .next ({ s with fns := fs, loading := [] }.addWrap .GCTL_CKPT_CN 0 1)

/-- The completion of a command that ends without effect at a takeover or in thermal shutdown (R305, R406). -/
def voided (e : List Word) : Completion :=
  let op := entryOp e
  if op = 0x01 then result 1 (entryTag e) 0x21 0 0
  else if 0x10 ≤ op && op ≤ 0x14 then result 2 (entryTag e) 0x0B 0 0
  else result 0 (entryTag e) 0x09 0 0

/-- The commands of a function that are not accepted complete without effect (R305). -/
def State.voidCommands (s : State) (f : Nat) : State :=
  let x := s.fnst f
  let s := s.setFn f { x with entries := [], held := 0 }
  let s := s.setF .CMD_CONS_INDEX f (s.getF .CMD_PROD_INDEX f)
  x.entries.foldl (fun t e => t.complete f (voided e)) s

/-- The loads that a takeover ends (R239): those carried out whose completion no committed checkpoint holds are removed, the latest
first, and with them every accepted load that has not completed; each completes with ABANDONED. -/
def State.abandonLoads (s : State) : State :=
  let done := s.loading
  let s := done.reverse.foldl State.loadRemove { s with loading := [] }
  let s := done.foldl (fun t l => t.complete l.fn (loadResult l.tag 0x21 0 0)) s
  (s.accepted.filter (fun p => entryOp p.2 == 0x01)).foldl (fun t p => (t.takeAccepted p.1 p.2).complete p.1 (voided p.2)) s

/-- The standby management processor takes over, or without one the die is reset (R383, R385). -/
def State.takeover (s : State) (cause : Nat) : State :=
  if !(s.bit .GCTL_MGR_STANDBY 0) then s.dieReset 3
  else
    let s := (s.setF .GCTL_MGR_ACTIVE 0 (1 - s.getF .GCTL_MGR_ACTIVE 0)).setF .GCTL_MGR_STANDBY 0 0
    let s := (s.setF .GCTL_MGR_CAUSE 0 cause).addHold .GCTL_MGR_TAKEOVERS 0 1
    let s := s.raise 0x107 0xFF 0xFF 0xFF 0xFFFF []
    (s.fns.map (·.1)).foldl State.voidCommands s.abandonLoads

/-- HEARTBEAT_LOSS (R383). -/
def execHeartbeatLoss (now : Nat) (s : State) : Host.Outcome State Fault Refusal := .next ((s.advance now).takeover 1)

/-- MGR_WATCHDOG (R383). -/
def execMgrWatchdog (now : Nat) (s : State) : Host.Outcome State Fault Refusal := .next ((s.advance now).takeover 2)

/-- MGR_MEMORY_ERROR (R383). -/
def execMgrMemoryError (now : Nat) (s : State) : Host.Outcome State Fault Refusal := .next ((s.advance now).takeover 3)

/-- SWITCH (R383): discarded while STANDBY is 0. -/
def execSwitch (now : Nat) (s : State) : Host.Outcome State Fault Refusal :=
  let s := s.advance now
  if s.bit .GCTL_MGR_STANDBY 0 then .next (s.takeover 4) else .next s

/-- MGR_STANDBY_READY (R383). -/
def execMgrStandbyReady (now : Nat) (s : State) : Host.Outcome State Fault Refusal :=
  let s := s.advance now
  if 6 ≤ s.getF .GCTL_START_STEP 0 then .next (s.setF .GCTL_MGR_STANDBY 0 1) else .next s

/-! ### Rails (R453) -/

/-- RAIL_UNDERVOLTAGE (R453): VDD_IO is a power-on reset, and the device waits for its supply; VDD_PGM a regulator fault; VDD_WIO
stops the watch and position inputs; any other rail resets the die. -/
def execRailUndervoltage (now : Nat) (rail : Rail) (s : State) : Host.Outcome State Fault Refusal :=
  let s := s.advance now
  match rail with
  | .vddIo => .next s.powerOff
  | .vddPgm =>
    let slot := (List.range 6).find? (fun n => s.bit .PWR_REG_VALID n && s.getF .PWR_REG_RAIL n == 2)
    let s := match slot with | some n => s.setF .PWR_REG_STAT_FAULT n 1 | none => s
    .next ((s.raise 0x105 0xFF 0xFF (slot.getD 0xFF) 0xFFFF []).pgmFails)
  | .vddWio => .next ({ s with wioDown := true }.wioSettle s)
  | .vddCore | .vddAna | .serdes => .next (s.dieReset 1)

/-- RAIL_RETURN (R453): the watch inputs and outputs and the position ports resume; the times of Table 13.1 and R355 start
anew. -/
def execRailReturn (now : Nat) (s : State) : Host.Outcome State Fault Refusal :=
  let s := s.advance now
  if !s.wioDown then .next s
  else
    let ws : SMap Win := s.wins.map (fun e => (e.1, { e.2 with differ := e.2.differ.map (fun _ => s.time), safe := e.2.safe.map (fun _ => s.time) }))
    .next ({ s with wioDown := false, wins := ws }.wioSettle s)

end Sys2Proof.Machine
end

