-- ==== Sys2Proof/Machine/Sett.lean ====
section
/-!
DEFINITION. The Sett store and the fuses: the operator window and commits (R412, R413, R417, R418), the counter ring and margin
scans (R415, R416), limited-change settings (R419, R420), the anti-rollback counter (R421), and the key store (R424, R425).
-/

namespace Sys2Proof.Machine
open Sys2Proof

/-! ### The operator window (R417, R418) -/

/-- Whether NVS_CTL.PROT protects a quarter. -/
def State.settProtected (s : State) (q : Nat) : Bool :=
  match s.getF .NVS_CTL_PROT 0 with
  | 0 => false
  | 1 => q == 3
  | 2 => decide (2 ≤ q)
  | _ => true

/-- Puts a page into a gather list; bytes written again take the later value. -/
def gatherPage (xs : List SettPage) (p : SettPage) : List SettPage :=
  if xs.any (fun x => x.page == p.page) then
    xs.map (fun x => if x.page = p.page then { x with bytes := p.bytes.foldl (fun m e => smapSet none m e.1 e.2) x.bytes } else x)
  else xs ++ [p]

/-- The gather list with the page in the buffer. -/
def State.settPages (s : State) : List SettPage :=
  match s.settBuf with
  | some p => gatherPage s.settList p
  | none => s.settList

/-- One byte of a window write that is let in: to the page buffer, or discarded where it would need a 65th page. -/
def State.settPut (s : State) (off : Nat) (b : Byte) : State :=
  let page := off / 64
  let put (bytes : SMap (Option Byte)) (t : State) : State :=
    { t with settBuf := some { page := page, bytes := smapSet none bytes (off % 64) (some b) } }
  match s.settBuf with
  | some p =>
    if p.page = page then put p.bytes s
    else if 64 ≤ s.settPages.length && !(s.settPages.any (fun x => x.page == page)) then s.setF .NVS_STAT_OVERFLOW 0 1
    else put [] { s with settList := s.settPages }
  | none =>
    if 64 ≤ s.settList.length && !(s.settList.any (fun x => x.page == page)) then s.setF .NVS_STAT_OVERFLOW 0 1
    else put [] s

/-- A write through the window; `every` lets it reach every quarter (R426). A write discarded in part counts once. -/
def State.settWrite (s : State) (every : Bool) (off : Nat) (data : List Byte) : State :=
  let ok (a : Nat) : Bool := (every || 196608 ≤ a) && !(s.settProtected (a / 65536))
  let s' := data.zipIdx.foldl (fun t p => if ok (off + p.2) then t.settPut (off + p.2) p.1 else t) s
  if data.zipIdx.all (fun p => ok (off + p.2)) then s' else s'.addHold .NVS_STAT_DENIED 0 1

/-- SETT_WINDOW_WRITE (R417, R418). -/
def execSettWindowWrite (now : Nat) (off : BitVec 18) (data : List Byte) (s : State) : Host.Outcome State Fault Refusal :=
  .next ((s.advance now).settWrite false off.toNat data)

/-- SETT_COMMIT (R413, R417): the list waits for the controller, or is committed at once when it is idle. -/
def execSettCommit (now : Nat) (s : State) : Host.Outcome State Fault Refusal :=
  let s := s.advance now
  if s.settPages.isEmpty then .next s
  else
    let e := s.events
    .next { s with
      settQueue := s.settQueue ++ [s.settPages]
      settList := []
      settBuf := none
      events := if e.commit.isNone then { e with commit := some true } else e }

/-- SETT_DISCARD (R417). -/
def execSettDiscard (now : Nat) (s : State) : Host.Outcome State Fault Refusal :=
  .next { s.advance now with settList := [], settBuf := none }

/-- The Sett controller's next commit after one of `last` (R413): the two lists alternately, but one of the firmware with a class A
record ahead of any that waits. -/
def State.nextCommit (s : State) (last : Bool) : Events :=
  let e := s.events
  if e.urgent || (e.gather && (last || s.settQueue.isEmpty)) then { e with commit := some false, gather := false, urgent := false }
  else if s.settQueue.isEmpty then { e with commit := none }
  else { e with commit := some true }

/-- SETT_COMMIT_DONE (R412, R413): the commit in progress ends, one of the physical function with its bytes stored, and the next
begins. -/
def execSettCommitDone (now : Nat) (s : State) : Host.Outcome State Fault Refusal :=
  let s := s.advance now
  match s.events.commit with
  | none => .next s
  | some pf =>
    let t : State := if pf then { s with settQueue := s.settQueue.drop 1, settMem := settWith s.settMem (s.settQueue.headD []) } else s
    .next { t with settCommits := s.settCommits + 1, events := t.nextCommit pf }

/-! ### The counter ring and margin scans (R415, R416) -/

/-- The 32 bytes of a slot of the counter ring (R415). -/
def CounterSlot.bytes (x : CounterSlot) : List Byte :=
  let b := leBytes 4 x.group ++ leBytes 4 x.seq ++ x.data
  b ++ leBytes 4 (crc32 b)

/-- Writes a slot of the counter ring. -/
def State.putSlot (s : State) (n : Nat) (x : CounterSlot) : State :=
  { s with settMem := x.bytes.zipIdx.foldl (fun m p => smapSet none m (131072 + 32 * n + p.2) (some p.1)) s.settMem }

/-- COUNTER_GROUP_UPDATE (R415): primary and duplicate take the next two slots. -/
def execCounterGroupUpdate (now : Nat) (group : Byte) (counters : List Byte) (s : State) :
    Host.Outcome State Fault Refusal :=
  let s := s.advance now
  let x : CounterSlot := { group := group.toNat, seq := (s.ringSeq + 1) % 4294967296, data := padTo 20 (counters.take 20) }
  let t := (s.putSlot s.ringNext x).putSlot ((s.ringNext + 1) % 2048) x
  .next { t with
    counters := smapSet CounterSlot.empty s.counters x.group x
    ringNext := (s.ringNext + 2) % 2048
    ringSeq := x.seq
    events := s.events.gathered false }

/-- MARGIN_SCAN (R416): the weak pages are refreshed; those weak again go to spare pages while there are any. -/
def execMarginScan (now : Nat) (weak dead : List (Fin 4096)) (s : State) : Host.Outcome State Fault Refusal :=
  let s := s.advance now
  let s := { s with settRefreshes := s.settRefreshes + (weak ++ dead).dedup.length }
  .next (dead.dedup.foldl
    (fun t _ =>
      let n := t.getF .NVS_STAT_SPARES 0
      if n = 0 then t.raise 0x108 0xFF 0xFF 0xFF 0xFFFF [] else t.setF .NVS_STAT_SPARES 0 (n - 1)) s)

/-! ### Limited-change settings (R419, R420, Table 16.3) -/

/-- Whether a value lies in a setting's range. -/
def settingRange (n v : Nat) : Bool :=
  match n with
  | 0 => v ≤ 128
  | 1 => v ≤ 2
  | 2 => v < 4096
  | 3 => v ≤ 63 || v == 0xFF
  | 4 => 6 ≤ v && v ≤ 60
  | 5 => true
  | _ => false

/-- Whether a change is refused for its value, in itself or against what is in force. -/
def State.settingValueBad (s : State) (n v : Nat) : Bool :=
  !(settingRange n v) ||
  (n == 3 && v != 0xFF && ((smapGet Key.empty s.signKeys v).usage != 4 || (smapGet Key.empty s.signKeys v).bytes.isEmpty)) ||
  (n == 5 && v < s.setting 5)

/-- Whether a change is refused while something uses the setting. -/
def State.settingInUse (s : State) (n v : Nat) : Bool :=
  match n with
  | 0 => s.numVfs != 0
  | 1 => s.setting 1 < v && s.anyLoaded
  | 2 => s.wrules.any (fun e => e.2.valid)
  | _ => false

/-- LC_CHANGE_REQUEST (R420). -/
def execLcChangeRequest (now : Nat) (key : BitVec 16) (n : BitVec 3) (s : State) : Host.Outcome State Fault Refusal :=
  let s := s.advance now
  if key ≠ 0xC3A5#16 || s.lcBusy.isSome || s.shutDown then .next s
  else
    let k := n.toNat
    let v := s.getF .NVS_LCVAL_VALUE 0
    let s := s.setF .NVS_LCSTAT_SETTING 0 k
    if k < 6 && 8 ≤ (s.lcSlots k).length then .next (s.setF .NVS_LCSTAT_RESULT 0 2)
    else if s.settingValueBad k v then .next (s.setF .NVS_LCSTAT_RESULT 0 4)
    else if s.settingInUse k v then .next (s.setF .NVS_LCSTAT_RESULT 0 3)
    else if v = s.setting k then .next (s.setF .NVS_LCSTAT_RESULT 0 1)
    else .next { s.setF .NVS_LCSTAT_RESULT 0 0 with lcBusy := some (k, v) }

/-- LC_BURN_DONE (R419, R420, R426): the slot is spent, with its commit bit burned or not. Raising the debug level empties every
model-key slot. -/
def execLcBurnDone (now : Nat) (burned : Bool) (s : State) : Host.Outcome State Fault Refusal :=
  let s := s.advance now
  match s.lcBusy with
  | none => .next s
  | some (n, v) =>
    let slot := (s.lcSlots n).length
    let raises := burned && n == 1 && s.setting 1 < v
    let t := { s with lc := smapSet [] s.lc n (s.lcSlots n ++ [({ value := v, ok := burned } : LcSlot)]), lcBusy := none }
    let t := if raises then { t with modelKeys := [] } else t
    let t := (t.setF .NVS_LCSTAT_RESULT 0 (if burned then 1 else 5)).raise 0x20D 0xFF 0xFF 0xFF 0xFFFF (leBytes 1 n ++ leBytes 1 slot ++ leBytes 4 v)
    .next (if n = 2 then t.wioSettle s else t)

/-- FWARB_ADVANCE (R421). -/
def execFwarbAdvance (now : Nat) (target : BitVec 7) (s : State) : Host.Outcome State Fault Refusal :=
  let s := s.advance now
  let secver := match s.image with | some i => i.secver | none => 0
  let t := target.toNat
  if 64 < t || secver < t || s.fwTarget.isSome || t ≤ s.getF .NVS_FWARB_COUNT 0 then .next s
  else .next { s with fwTarget := some t }

/-- FWARB_BURN_DONE (R421): `burned` bits are burned now, at most up to TARGET. -/
def execFwarbBurnDone (now : Nat) (burned : Nat) (s : State) : Host.Outcome State Fault Refusal :=
  let s := s.advance now
  match s.fwTarget with
  | none => .next s
  | some t => .next { s.setF .NVS_FWARB_COUNT 0 (max (s.getF .NVS_FWARB_COUNT 0) (min burned t)) with fwTarget := none }

/-! ### The key store (R424) -/

/-- Whether a signature over a message is by a P-384 key whose X and Y have a SHA-384 hash; the key is recovered from the
signature. -/
def signedBy (hash m : List Byte) (r s : Nat) : Bool :=
  let z := beNat (sha384 m)
  let at_ (x : Nat) : List (Nat × Nat) :=
    let y2 := ((x * x % p384P * x) % p384P + (p384P - 3) * x + p384B) % p384P
    let y := powMod y2 ((p384P + 1) / 4) p384P 384
    if x < p384P && y * y % p384P = y2 then [(x, y), (x, (p384P - y) % p384P)] else []
  let inv := invMod r p384N
  0 < r && r < p384N && 0 < s && s < p384N &&
  (at_ r ++ at_ (r + p384N)).any (fun p =>
    match addPoint (mulPoint (inv * s % p384N) (some p) 384) (mulPoint (inv * (p384N - z % p384N) % p384N) (some p384G) 384) with
    | some (x, y) => sha384 (beBytes 48 x ++ beBytes 48 y) == hash && ecdsaVerify m x y r s
    | none => false)

/-- The bytes of the request block (Table 16.4). -/
def State.ksBlock (s : State) : List Byte := (List.range 37).flatMap (fun i => leBytes 4 (s.getF .NVS_KSBUF_WORD i))

/-- RESULT of a request (NVS_KSCMD): 5 a bad block, 3 the slot frozen, 2 not empty, 4 the root signature fails, else 1. -/
def State.ksResult (s : State) (b : List Byte) : Nat :=
  let slot := bnum b 0 1
  let usage := bnum b 2 1
  let op := bnum b 3 1
  let root := s.setting 3
  let rootKey := smapGet Key.empty s.signKeys root
  if 63 < slot || 128 < bnum b 1 1 || !([1, 2, 4].contains usage) || (op != 1 && op != 2) then 5
  else if root = slot then 3
  else if op = 2 then 1
  else if !((smapGet Key.empty s.signKeys slot).bytes.isEmpty) then 2
  else if root != 0xFF && usage == 2 &&
      !(signedBy rootKey.bytes (b.take 0x34 ++ deviceDigest) (beNat ((b.drop 0x34).take 48)) (beNat ((b.drop 0x64).take 48))) then 4
  else 1

/-- KEYSTORE_REQUEST (R424). -/
def execKeystoreRequest (now : Nat) (s : State) : Host.Outcome State Fault Refusal :=
  let s := s.advance now
  if s.bit .NVS_KSCMD_BUSY 0 then .next s else .next ((s.setF .NVS_KSCMD_BUSY 0 1).setF .NVS_KSCMD_RESULT 0 0)

/-- KEYSTORE_REQUEST_DONE (R424). -/
def execKeystoreRequestDone (now : Nat) (s : State) : Host.Outcome State Fault Refusal :=
  let s := s.advance now
  if !(s.bit .NVS_KSCMD_BUSY 0) then .next s
  else
    let b := s.ksBlock
    let r := s.ksResult b
    let usage := bnum b 2 1
    let k : Key := if bnum b 3 1 = 2 then Key.empty
      else { bytes := (b.drop 4).take 48, owner := if usage = 4 then 0xFF else bnum b 1 1, usage := usage }
    let s := (s.setF .NVS_KSCMD_BUSY 0 0).setF .NVS_KSCMD_RESULT 0 r
    .next (if r = 1 then { s with signKeys := smapSet Key.empty s.signKeys (bnum b 0 1) k } else s)

end Sys2Proof.Machine
end

