-- ==== Sys2Proof/Machine/Observe.lean ====
section
/-!
DEFINITION. Counters, trace and tensor watch: the tenant counter page (R431), the trace drain (R433, R435 to R437), watch points
and region digests (R438 to R441), and the event queues (R444, R445).
-/

namespace Sys2Proof.Machine
open Sys2Proof

/-! ### The tenant counter page (R431, Table 17.2) -/

/-- A 16-bit number sign-extended to a word. -/
def signWord (v : Nat) : Nat := ((BitVec.ofNat 16 v).signExtend 32).toNat

/-- The words of a tenant's page now, by offset; what belongs to a core or cluster that it does not claim is 0. -/
def State.tencNow (s : State) (t : Nat) : SMap Nat :=
  let mine := (s.partOf t).cores
  let own (c : Nat) : Bool := mine.any (fun k => k / 8 == c)
  let busy (i : Nat) : Nat := if mine.contains i && s.coreOn i then smapGet 0 s.busy (4 * i) else 0
  let cores := (List.range 128).flatMap (fun i => [(0x100 + 8 * i, busy i % 4294967296), (0x104 + 8 * i, busy i / 4294967296 % 4294967296)])
  let cls := (List.range 16).flatMap (fun c => [(0x500 + 8 * c, if own c then s.getF .CPT_PWR_MW c else 0), (0x504 + 8 * c, if own c then signWord (s.getF .CPT_STAT_MEDIAN c) else 0)])
  let totals := (List.range 8).map (fun w => (0x600 + 4 * w, smapGet 0 s.totals (8 * t + w)))
  (cores ++ cls ++ totals).foldl (fun m e => smapSet 0 m e.1 e.2) []

/-- TENC_LATCH (R431): the tenant's own copy, or the physical function's of that tenant's page. -/
def execTencLatch (now : Nat) (pf : Bool) (t : Fin 128) (s : State) : Host.Outcome State Fault Refusal :=
  let s := s.advance now
  let f := t.val + 1
  if !((s.fnst f).enabled) || (s.fnst f).flr.isSome then .next (if pf then s else s.hosted f id)
  else
    let copy : TenCopy := { time := s.clock, words := s.tencNow f }
    .next { s with tencs := smapSet none s.tencs (if pf then 128 + f else f) (some copy) }

/-! ### The trace drain (R435 to R437) -/

/-- TRACE_ENABLE (R435): going from 0 to 1 sets BSEQ and PROD to 0. -/
def execTraceEnable (now : Nat) (en : Bool) (s : State) : Host.Outcome State Fault Refusal :=
  let s := s.advance now
  let t := s.setB .OBS_TRCFG_EN 0 en
  .next (s.onReg 0x20 .OBS_TRCFG [] 0
    (if en && !(s.bit .OBS_TRCFG_EN 0) then { t.setF .OBS_TRPROD_INDEX 0 0 with traceSeq := 0 } else t))

/-- The offset that aligned times are taken by, and whether it is stale (R437). -/
def State.traceOffset (s : State) : Int × Bool :=
  let d := s.getF .OBS_TRCFG_REFDEV 0
  if !(s.bit .OBS_TRCFG_ALIGN 0) || d = s.devId then (0, false)
  else (smapGet 0 s.offsets d, !((s.getF .LNK_OFSVAL_VALID 0).testBit d))

/-- A 64-bit two's-complement number, low byte first. -/
def int64Bytes (v : Int) : List Byte := leBytes 8 (v % 18446744073709551616).toNat

/-- The 16 bytes of a trace record (Table 17.4). -/
def TraceRec.bytes (r : TraceRec) (ofs : Int × Bool) : List Byte :=
  int64Bytes ((r.time : Int) - ofs.1) ++ leBytes 1 r.kind ++ leBytes 1 (r.src + (if ofs.2 then 128 else 0)) ++ leBytes 2 r.pc ++
  leBytes 4 r.data

/-- A drain block of some records of a cluster (Table 17.5). -/
def State.traceBlock (s : State) (c : Nat) (rs : List TraceRec) : List Byte :=
  let ofs := s.traceOffset
  let dev := s.devId + 16 * s.getF .OBS_TRCFG_REFDEV 0 + 128 * s.getF .OBS_TRCFG_ALIGN 0
  let first : Int := match rs with | r :: _ => (r.time : Int) - ofs.1 | [] => 0
  let used := smapGet 0 s.offsets (s.getF .OBS_TRCFG_REFDEV 0)
  padTo 4096 (leBytes 4 0x5254515A ++ leBytes 1 dev ++ leBytes 1 c ++ leBytes 2 rs.length ++ leBytes 8 s.traceSeq ++
    int64Bytes used ++ int64Bytes first ++ leBytes 4 (s.trace c).blockLost ++ leBytes 28 0 ++
    rs.flatMap (fun r => r.bytes ofs))

/-- Whether the host region is full: the next PROD would equal CONS. -/
def State.traceFull (s : State) (prod : Nat) : Bool :=
  (prod + 1) % (s.getF .OBS_TRSIZE_BLOCKS 0) == s.getF .OBS_TRCONS_INDEX 0

/-- Blocks that the host has not read. -/
def State.traceUnread (s : State) (prod : Nat) : Nat :=
  let n := s.getF .OBS_TRSIZE_BLOCKS 0
  (prod + n - s.getF .OBS_TRCONS_INDEX 0 % n) % n

/-- Whether a cluster's ring is to be drained: it holds 252 records, or its oldest is 100 us old (R435). -/
def State.drainDue (s : State) (c : Nat) : Bool :=
  let t := s.trace c
  s.sharedOn c && (252 ≤ t.recs.length || (!t.recs.isEmpty && t.oldest + 100000 ≤ s.clock))

/-- The ring whose turn it is: the first due one behind the last drained, in ascending cluster index and round (R435). -/
def State.drainTurn (s : State) : Option Nat :=
  ((List.range 16).map (fun k => (s.traceLast + 1 + k) % 16)).find? s.drainDue

/-- TRACE_DRAIN_BLOCK (R435): a ring with 252 records, or one 100 us old, gives a block to the host region. -/
def execTraceDrainBlock (now : Nat) (cl : Cluster) (s : State) : Host.Outcome State Fault Refusal :=
  let s := s.advance now
  let c := cl.val
  let t := s.trace c
  let n := s.getF .OBS_TRSIZE_BLOCKS 0
  let prod := s.getF .OBS_TRPROD_INDEX 0
  if !(s.bit .OBS_TRCFG_EN 0) || !(s.dieOn 5) || n = 0 || s.drainTurn != some c || s.traceFull prod then .next s
  else
    let rs := t.recs.take 252
    let rest := t.recs.drop 252
    let base := s.getF .OBS_TRBASEH_VALUE 0 * 4294967296 + s.getF .OBS_TRBASEL_VALUE 0 * 4096
    let s := s.emit (.hostWrite 0 (base + 4096 * prod) (s.traceBlock c rs))
    let next := (prod + 1) % n
    let mark := n * s.getF .OBS_TRCFG_WMARK 0
    let reached := mark != 0 && 16 * s.traceUnread prod < mark && mark ≤ 16 * s.traceUnread next
    let s := { s.setTrace c { t with recs := rest, blockLost := 0, oldest := match rest with | r :: _ => r.time | [] => 0 } with traceSeq := s.traceSeq + 1, traceLast := c }
    let s := s.setF .OBS_TRPROD_INDEX 0 next
    .next (if reached || s.traceFull next then s.msix 0 5 else s)

/-! ### Observability commands (R433, R438 to R441) -/

/-- The kinds that a point may watch (R438). -/
def watchable : List Nat := [0, 1, 2, 3, 5, 6, 9]

/-- The points that an owner holds. -/
def State.ownPoints (s : State) (f : Nat) : List Nat :=
  (List.range 64).filter (fun n => s.bit .OBS_TW_CFG_ARMED n && s.getF .OBS_TW_CFG_OWNER n == f)

/-- The point that a WATCH_ARM takes: the one it names, or the lowest free for 0x3F. -/
def State.armPoint (s : State) (e : List Word) : Option Nat :=
  let p := bits (entryWord e 2) 5 0
  if p = 0x3F then (List.range 64).find? (fun n => !(s.bit .OBS_TW_CFG_ARMED n))
  else if s.bit .OBS_TW_CFG_ARMED p then none else some p

/-- Why a WATCH_ARM is refused, 0 if it is not (R438, R440). -/
def State.armCode (s : State) (f : Nat) (e : List Word) : Nat :=
  let w2 := entryWord e 2
  let w3 := entryWord e 3
  let y := s.station (bits w2 27 16)
  let p := bits w2 5 0
  firstCode [
    (!(entryClean e 4) || bits w2 15 6 != 0 || bits w2 31 28 != 0 || bits w3 15 1 != 0 || bits w3 31 16 == 0, 0x01),
    (y.state == 0 || (f != 0 && y.owner != f), 0x02),
    (!(watchable.contains y.kind), 0x01),
    (p != 0x3F && s.bit .OBS_TW_CFG_ARMED p && s.getF .OBS_TW_CFG_OWNER p != f, 0x02),
    ((s.armPoint e).isNone || (f != 0 && 8 ≤ (s.ownPoints f).length), 0x05),
    (!(s.dieOn 5), 0x09)]

/-- What WATCH_ARM does once it is carried out. -/
def State.armCommand (s : State) (fn : Nat) (entry : List Word) : State :=
  match s.armCode fn entry, s.armPoint entry with
  | 0, some n =>
    let rank := (s.points.map (fun p => p.2.rank)).foldl max 0 + 1
    let s := ((s.setF .OBS_TW_CFG_ARMED n 1).setF .OBS_TW_CFG_MODE n (bits (entryWord entry 3) 0 0)).setF .OBS_TW_CFG_OWNER n fn
    let s := (s.setF .OBS_TW_CFG_STATION n (bits (entryWord entry 2) 27 16)).setResult n [0, 0, 0, 0, 0, 0, 0, 0]
    let s := ((s.setF .OBS_TW_STAT_CLOSED n 0).setF .OBS_TW_STAT_MISSED n 0).setF .OBS_TW_STAT_MIXED n 0
    let s := ((s.setF .OBS_TW_STAT_INCOMPLETE n 0).setF .OBS_TW_FSEQ_VALUE n 0).setF .OBS_TW_LSEQ_VALUE n 0
    let s := (s.setF .OBS_TW_FLAGT_SAT n 0).setF .OBS_TW_FLAGT_PROV n 0
    let s := { s with twLatch := s.twLatch.filter (fun x => x.1 / 16 != n) }
    let s := s.setPoint n { TensorPoint.idle with size := bits (entryWord entry 3) 31 16, rank := rank }
    s.answer fn entry 0 n
  | c, _ => s.answer fn entry c 0

/-- WATCH_ARM (R438, R440). -/
def execWatchArm (now : Nat) (fn : Func) (entry : List Word) (s : State) : Host.Outcome State Fault Refusal :=
  .next ((s.advance now).command fn.val 0x30 entry (fun t => t.armCommand fn.val entry))

/-- What WATCH_DISARM does once it is carried out. -/
def State.disarmCommand (s : State) (fn : Nat) (entry : List Word) : State :=
  let w2 := entryWord entry 2
  let n := bits w2 5 0
  let code := firstCode [
    (!(entryClean entry 3) || bits w2 31 6 != 0, 0x01),
    (!(s.bit .OBS_TW_CFG_ARMED n) || s.getF .OBS_TW_CFG_OWNER n != fn, 0x02),
    (!(s.dieOn 5), 0x09)]
  (if code = 0 then (s.setF .OBS_TW_CFG_ARMED n 0).setPoint n TensorPoint.idle else s).answer fn entry code 0

/-- WATCH_DISARM (R440). -/
def execWatchDisarm (now : Nat) (fn : Func) (entry : List Word) (s : State) : Host.Outcome State Fault Refusal :=
  .next ((s.advance now).command fn.val 0x31 entry (fun t => t.disarmCommand fn.val entry))

/-- WATCH_WINDOW_CLOSE (R438): a window of TILES tiles latches its result. -/
def execWatchWindowClose (now : Nat) (n : Fin 64) (s : State) : Host.Outcome State Fault Refusal :=
  let s := s.advance now
  let p := s.point n.val
  if s.bit .OBS_TW_CFG_ARMED n.val && s.dieOn 5 && p.size ≤ p.n then .next (s.closePoint n.val) else .next s

/-- The result words of a point beside STAT, by word of its 0x40 bytes. -/
def State.pointWords (s : State) (n : Nat) : List (Nat × Nat) :=
  [(2, s.getF .OBS_TW_FSEQ_VALUE n), (3, s.getF .OBS_TW_LSEQ_VALUE n)] ++
  (List.range 8).map (fun i => (4 + i, s.getF .OBS_TW_R_VALUE (8 * n + i))) ++
  [(12, s.getF .OBS_TW_FLAGT_SAT n * 65536 + s.getF .OBS_TW_FLAGT_PROV n)]

/-- A read of STAT latches the other result words (R439). -/
def State.pointLatch (s : State) (n : Nat) : State :=
  { s with twLatch := (s.pointWords n).foldl (fun m e => smapSet 0 m (16 * n + e.1) (e.2 + 1)) s.twLatch }

/-- WATCH_STAT_READ (R439): the value of STAT is returned. -/
def execWatchStatRead (now : Nat) (n : Fin 64) (s : State) : Host.Outcome State Fault Refusal :=
  let s := s.advance now
  if !(s.dieOn 5) then .next ((s.accErr 0 false 0x20 false (Reg.OBS_TW_STAT.at_ [n.val])).emit (.readWord 0))
  else
    let i := n.val
    let v := s.getF .OBS_TW_STAT_INCOMPLETE i * 2147483648 + s.getF .OBS_TW_STAT_MIXED i * 1073741824 + s.getF .OBS_TW_STAT_CLOSED i * 65536 + s.getF .OBS_TW_STAT_MISSED i
    .next ((s.pointLatch i).emit (.readWord v))

/-- What TRACE_CONSENT does once it is carried out. -/
def State.consentCommand (s : State) (fn : Nat) (entry : List Word) : State :=
  let w2 := entryWord entry 2
  let code := firstCode [(!(entryClean entry 3) || bits w2 31 1 != 0, 0x01), (!(s.dieOn 5), 0x09)]
  (if code = 0 then s.setFn fn { s.fnst fn with consent := w2 % 2 == 1 } else s).answer fn entry code 0

/-- TRACE_CONSENT (R433). -/
def execTraceConsent (now : Nat) (fn : Func) (entry : List Word) (s : State) : Host.Outcome State Fault Refusal :=
  .next ((s.advance now).command fn.val 0x32 entry (fun t => t.consentCommand fn.val entry))

/-- Whether a region lies in an issuer's allocation at the granularity of R298, or in BAR2 for the physical function. -/
def State.regionOf (s : State) (f off len : Nat) : Bool :=
  off + len ≤ 134217728 && (f == 0 || s.ownsAll f off len)

/-- What DIGEST_REGION does once it is carried out. -/
def State.digestCommand (s : State) (fn : Nat) (entry : List Word) : State :=
  let off := entryWord entry 2 + 4294967296 * entryWord entry 3
  let len := entryWord entry 4
  let code := firstCode [
    (!(entryClean entry 7) || off % 64 != 0 || len % 64 != 0 || len == 0 || 4194304 < len, 0x01),
    (!(s.regionOf fn off len), 0x02),
    (!(s.dieOn 5), 0x09)]
  if code = 0 then
    let r : RegionDigest := { fn := fn, tag := entryTag entry, off := off, len := len, addr := entryWord entry 5 + 4294967296 * entryWord entry 6 }
    { s with digests := s.digests ++ [r] }
  else s.answer fn entry code 0

/-- DIGEST_REGION (R440, R441). -/
def execDigestRegion (now : Nat) (fn : Func) (entry : List Word) (s : State) : Host.Outcome State Fault Refusal :=
  .next ((s.advance now).command fn.val 0x33 entry (fun t => t.digestCommand fn.val entry))

/-- DIGEST_REGION_DONE (R441): the oldest digest in progress is written, then its completion. -/
def execDigestRegionDone (now : Nat) (s : State) : Host.Outcome State Fault Refusal :=
  let s := s.advance now
  match s.digests with
  | [] => .next s
  | r :: rest =>
    let s := { s with digests := rest }
    if !(s.dieOn 5) then .next (s.complete r.fn (result 0 r.tag 0x09 0 0))
    else
      let info := if s.readsPoison r.off r.len then 1 else 0
      let d := sha256 (s.bytes r.off r.len)
      let s := (s.readEcc (fnMaster r.fn) r.off r.len).emit (.hostWrite r.fn r.addr d)
      .next (s.complete r.fn (result 0 r.tag 0 0 info))

/-! ### Event queues (R444, R445) -/

/-- Class A records that wait for a queue enter it while it has room. -/
def State.admitPending (s : State) (f : Nat) : Nat → State
  | 0 => s
  | n + 1 =>
    match s.events.pending.find? (fun p => p.1 == f) with
    | none => s
    | some p =>
      let q := s.events.path (1 + f)
      if queueRoom q.recs 0 then
        let e := { s.events with pending := s.events.pending.erase p }.setPath (1 + f) { q with recs := q.recs ++ [p.2] }
        ({ s with events := e }.msix f 4).admitPending f n
      else s

/-- The head record of a queue goes, and waiting class A records enter (R444, R445). -/
def State.popEvent (s : State) (fn : Nat) : State :=
  let q := s.events.path (1 + fn)
  { s with events := s.events.setPath (1 + fn) { q with recs := q.recs.drop 1 } }.admitPending fn 256

/-- EVQ_POP (R445). -/
def execEvqPop (now : Nat) (fn : Func) (s : State) : Host.Outcome State Fault Refusal :=
  .next ((s.advance now).hosted fn.val (fun t => t.popEvent fn.val))

/-- EVENT_COALESCED_FLUSH (R444): the oldest entry of a path's table leaves as a SUPPRESSED record when the path has room. -/
def execEventCoalescedFlush (now : Nat) (path : EventPath) (s : State) : Host.Outcome State Fault Refusal :=
  let s := s.advance now
  match path with
  | .log =>
    let p := s.events.path 0
    let e : Events := { s.events with bucket := min 4000000000 (s.events.bucket + (s.time - s.events.bucketAt)), bucketAt := s.time }
    match p.table with
    | [] => .next s
    | r :: rest =>
      if e.bucket < 62500000 then .next s
      else .next { s with events := (({ e with bucket := e.bucket - 62500000 } : Events).setPath 0 { p with table := rest }).ring { r with supp := true } }
  | .queue fn =>
    let f := fn.val
    let p := s.events.path (1 + f)
    match p.table with
    | [] => .next s
    | r :: rest =>
      if queueRoom p.recs 1 then
        let t := { s with events := s.events.setPath (1 + f) { recs := p.recs ++ [{ r with supp := true }], table := rest } }
        .next (if queueWakes p.recs 1 then t.msix f 4 else t)
      else .next s

end Sys2Proof.Machine
end

