-- ==== Sys2Proof/Machine/FuncReset.lean ====
section
/-!
DEFINITION. Resets of functions (R294, R318 to R320, R330, R349, R377, R388, R431, R433, R445).
-/

namespace Sys2Proof.Machine
open Sys2Proof

/-- How many registers of a per-function register each function has. -/
def Reg.perFn (r : Reg) : Nat := (r.info.dims.map (·.2)).prod

/-- The per-function registers of a function at their reset values. -/
def State.fnRegsReset (s : State) (fn : Nat) : State :=
  let codes := fnRegs.flatMap (fun r => r.fields.map (fun f => (f.code, r.perFn)))
  { s with regs := s.regs.filter (fun e =>
      match codes.find? (fun c => c.1 == keyCode e.1) with
      | some c => keyRep e.1 / c.2 != fn
      | none => true) }

/-- Step 1: the commands that are not accepted are dropped, and completions and messages are no longer written. The accepted ones
stay (R305), but for loads, which end ABANDONED (R239, R318). -/
def State.flrBegin (s : State) (t : Nat) : State :=
  let x := s.fnst t
  let s := { s with accepted := s.accepted.filter (fun p => p.1 != t || entryOp p.2 != 0x01), loading := s.loading.filter (fun l => l.fn != t) }
  let s := s.setFn t { x with flr := some s.time, entries := [], held := 0, accepted := x.accepted.filter (fun e => entryOp e != 0x01), waiting := [], messages := [], consent := false }
  s.reclaimEnd t

/-- A sender of a port drops a tenant's tiles: their flits that wait are not sent, and for each tile that has begun it sends
TILE_ABORT (R349). -/
def State.linkDrop (s : State) (t p : Nat) : State :=
  let x := s.link p
  let mine (y : TxTile) : Bool := (s.station y.st).owner == t
  let waits (type lchan : Nat) : Bool := x.held.any (fun f => f.type == type && f.lchan == lchan)
  let gone := x.sending.filter (fun y => mine y && !(waits 1 y.lchan))
  let kept (f : SentFlit) : Bool := !(tileFrame f.type) || !(x.sending.any (fun y => mine y && y.lchan == f.lchan))
  let s := s.setLink p { x with sending := x.sending.filter (fun y => !(mine y)), held := x.held.filter kept }
  gone.foldl (fun u y => if u.linkUp p then u.sendFrame p 3 y.lchan (u.ring y.ring).peer [] else u) s

/-- Step 2: the items of a tenant leave the shared engines. The slots they stand in are freed with the partition. -/
def State.flrDrop (s : State) (t : Nat) : State :=
  let keep (x : Xfer) : Bool := x.owner != t
  let ms : SMap Tmv := s.tmvs.map (fun e => (e.1, ({ e.2 with cur := e.2.cur.filter keep, refused := e.2.refused.filter keep }).queued (e.2.all.filter keep)))
  let cs := s.ctxsOf t
  let js : SMap (Option Ingest) := s.ingests.filter (fun e => match e.2 with | some j => !(cs.contains j.ctx) | none => false)
  let s := { s with tmvs := mapKept Tmv.idle id ms, ingests := js, digests := s.digests.filter (fun d => d.fn != t) }
  let s := [0, 1, 2, 3].foldl (fun u p => u.linkDrop t p) s
  s.abortJobs t

/-- Steps 3, 4 and 6 for the partition: everything stops, its cores have a warm domain reset, and the partition is unloaded with
its memory zeroed. -/
def State.flrPartition (s : State) (t : Nat) : State :=
  let p := s.partOf t
  let s := (p.cores.filter s.coreOn).foldl State.warmReset s
  let cs := s.ctxsOf t
  let s := s.unloadStop t
  let s := cs.foldl (fun u c => u.setCtx c Context.closed) s
  let s := if (s.part t).isSome then s.unloadFree t else s
  let s := p.cm.foldl (fun u e => u.zeroFill (cmBase e.1 + e.2.1) e.2.2) s
  p.km.foldl (fun u e => u.zeroFill (kmBase e.1 + e.2.1) e.2.2) s

/-- Step 6 for the function itself: channels (R330), the service queue, the window registers, the counter page (R431) and the
event queue with its coalescing table (R445). -/
def State.flrWindow (s : State) (t : Nat) : State :=
  let s := (s.mbxReset (fnMaster t)).fnRegsReset t
  let s := s.setFn t { s.fnst t with wrapped := false, seq := 0 }
  let ev : Events := (s.events.setPath (1 + t) EvPath.empty)
  let ev : Events := { ev with pending := ev.pending.filter (fun p => p.1 != t), amiss := smapErase ev.amiss t, bsupp := smapErase ev.bsupp t }
  { s with
    events := ev
    pba := s.pba.filter (fun e => e.1 / 2 != t)
    tencs := smapErase s.tencs t
    totals := s.totals.filter (fun e => e.1 / 8 != t || t == 0) }

/-- A function-level reset up to the end of step 6 (Table 11.11). -/
def State.flr (s : State) (t : Nat) : State := ((((s.flrBegin t).flrDrop t).freeTriggers t).flrPartition t).flrWindow t

/-- VF_FLR (R318). A function that is not enabled has none. -/
def execVfFlr (now : Nat) (t : Fin 128) (s : State) : Host.Outcome State Fault Refusal :=
  let s := s.advance now
  .next (if (s.fnst (t.val + 1)).enabled then s.flr (t.val + 1) else s)

/-- VF_FLR_DONE (R318 step 7). -/
def execVfFlrDone (now : Nat) (t : Fin 128) (s : State) : Host.Outcome State Fault Refusal :=
  let s := s.advance now
  .next (s.setFn (t.val + 1) { s.fnst (t.val + 1) with flr := none })

/-- The virtual functions that are enabled. -/
def State.vfs (s : State) : List Nat := (List.range 128).filterMap (fun i => if (s.fnst (i + 1)).enabled then some (i + 1) else none)

/-- The reset of the physical function: every enabled virtual function with it (R320). -/
def State.pfReset (s : State) : State :=
  let s := (s.vfs.foldl State.flr s).flr 0
  s.setFn 0 { s.fnst 0 with flr := none }

/-- PF_FLR (R320). -/
def execPfFlr (now : Nat) (s : State) : Host.Outcome State Fault Refusal := .next (s.advance now).pfReset

/-- A virtual function disappears: it is reset first (R294). -/
def State.vfGone (s : State) (t : Nat) : State :=
  let s := s.flr t
  s.setFn t { s.fnst t with enabled := false, flr := none }

/-- PCIE_CONVENTIONAL_RESET (R377): PERST# is asserted; the functions are reset, and with the configuration space VF Enable. -/
def execPcieConventionalReset (now : Nat) (s : State) : Host.Outcome State Fault Refusal :=
  let s := (s.advance now).pfReset
  let off (u : State) (t : Nat) : State := u.setFn t { u.fnst t with enabled := false, flr := none }
  .next { s.vfs.foldl off s with perst := true, numVfs := 0 }

/-- PERST_RELEASE (R388): DIE.HOST is switched on before link training. -/
def execPerstRelease (now : Nat) (s : State) : Host.Outcome State Fault Refusal :=
  let s := s.advance now
  let t := { s with perst := false }
  .next (if s.perst && !(s.dieOn 0) then t.dieUp 0 else t)

/-- The SR-IOV capability as it reads (R294). -/
structure Sriov where
  firstOffset : Nat
  stride      : Nat
  totalVfs    : Nat
  initialVfs  : Nat
  numVfs      : Nat
deriving DecidableEq, Repr

/-- First VF Offset and VF Stride are 1; TotalVFs and InitialVFs are the tenant ceiling (R294). -/
def State.sriov (s : State) : Sriov :=
  { firstOffset := 1, stride := 1, totalVfs := s.setting 0, initialVfs := s.setting 0, numVfs := s.numVfs }

/-- The routing ID of VF n, that of the physical function plus n (R294); an output for function n goes out under it (R295). -/
def State.routingId (s : State) (pf n : Nat) : Nat :=
  if n = 0 then pf else pf + s.sriov.firstOffset + (n - 1) * s.sriov.stride

/-- VF_ENABLE_CHANGE (R294): NumVFs above TotalVFs counts as TotalVFs. -/
def execVfEnableChange (now : Nat) (enable : Bool) (num : Nat) (s : State) : Host.Outcome State Fault Refusal :=
  let s := s.advance now
  let n := if enable then min num s.sriov.totalVfs else 0
  let s := (s.vfs.filter (fun t => n < t)).foldl State.vfGone s
  let fresh := (List.range n).filter (fun i => !((s.fnst (i + 1)).enabled))
  let s := fresh.foldl (fun u i => u.setFn (i + 1) { Function.reset with enabled := true, accepted := (u.fnst (i + 1)).accepted }) s
  .next { s with numVfs := n }

end Sys2Proof.Machine
end

