-- ==== Sys2Proof/Machine/Command.lean ====
section
/-!
DEFINITION. The command path (R304 to R309), host reads that time out (R296), and the service mailbox (R321).
-/

namespace Sys2Proof.Machine
open Sys2Proof

/-- COMMAND_DOORBELL (R304): the host advances CMD_PROD, and the device reads the entries from the old index to the new.
`entries` is what the host's memory holds there, an entry not given being words of 0. -/
def execCommandDoorbell (now : Nat) (fn : Func) (prod : BitVec 6) (entries : List (List Word)) (s : State) :
    Host.Outcome State Fault Refusal :=
  .next ((s.advance now).hosted fn.val (fun t =>
    let f := fn.val
    let n := t.ringSize f
    let old := t.getF .CMD_PROD_INDEX f
    let p := prod.toNat % n
    let t := t.setF .CMD_PROD_INDEX f p
    if t.bit .CMD_CFG_EN f then
      let base := t.getF .CMD_BASEL_ADDR f * 64 + t.getF .CMD_BASEH_ADDR f * 4294967296
      let k := (p + n - old % n) % n
      let es := (List.range k).map (fun i => entries.getD i (List.replicate 16 0))
      let t := (List.range k).foldl (fun u i => u.emit (.hostRead f (base + 64 * ((old + i) % n)) 64)) t
      t.setFn f { t.fnst f with entries := (t.fnst f).entries ++ es }
    else t))

/-- The opcodes of Table 11.7 and Table 17.6. -/
def opcodeKnown (op : Nat) : Bool := [0x01, 0x02, 0x03, 0x04, 0x05, 0x10, 0x11, 0x12, 0x13, 0x14, 0x30, 0x31, 0x32, 0x33].contains op

/-- Takes up an accepted entry: what is reserved completes with BAD_COMMAND, after a thermal shutdown every command completes
without effect (R406), and the rest waits to be carried out, loads, unloads and quotas in the order of all functions (R306,
R307). -/
def State.takeUp (s : State) (f : Nat) (e : List Word) : State :=
  if s.shutDown then s.complete f (voided e)
  else if !(opcodeKnown (entryOp e)) || (entryWord e 0 / 256) % 256 != 0 || entryWord e 1 != 0 then
    s.complete f (result 0 (entryTag e) 1 0 0)
  else
    let s := s.setFn f { s.fnst f with accepted := (s.fnst f).accepted ++ [e] }
    if entryOp e ≤ 3 then { s with accepted := s.accepted ++ [(f, e)] } else s

/-- COMMAND_ACCEPT (R305, R306): CMD_CONS moves past a command that a committed checkpoint holds, while the queue of waiting
completions has room. -/
def execCommandAccept (now : Nat) (fn : Func) (s : State) : Host.Outcome State Fault Refusal :=
  let s := s.advance now
  let f := fn.val
  let x := s.fnst f
  match x.entries with
  | e :: rest =>
    if s.bit .CMD_CFG_EN f && x.flr.isNone && 0 < x.held && x.waiting.length < 64 then
      let t := s.setFn f { x with entries := rest, held := x.held - 1 }
      .next ((t.setF .CMD_CONS_INDEX f ((t.getF .CMD_CONS_INDEX f + 1) % t.ringSize f)).takeUp f e)
    else .next s
  | [] => .next s

/-- Writes the waiting completions while the ring has room. -/
def State.drainCpl (s : State) (f : Nat) : Nat → State
  | 0 => s
  | n + 1 =>
    match (s.fnst f).waiting with
    | c :: rest =>
      if s.bit .CMD_CFG_EN f && s.cplRoom f then
        ((s.setFn f { s.fnst f with waiting := rest }).cplWrite f c).drainCpl f n
      else s
    | [] => s

/-- CPL_HEAD_ADVANCE (R306). -/
def execCplHeadAdvance (now : Nat) (fn : Func) (head : BitVec 6) (s : State) : Host.Outcome State Fault Refusal :=
  .next ((s.advance now).hosted fn.val (fun t =>
    let t := t.setF .CPL_HEAD_INDEX fn.val (head.toNat % t.ringSize fn.val)
    t.drainCpl fn.val (t.fnst fn.val).waiting.length))

/-- The SIZE that a write of x stores: 4, 5 or 6, and for other values 4 (R304). -/
def ringSizeCode (x : Nat) : Nat := if 4 ≤ x && x ≤ 6 then x else 4

/-- CMD_RING_ENABLE (R304): writes while EN is 1 are discarded; other sizes are stored as 4. -/
def execCmdRingEnable (now : Nat) (fn : Func) (size : BitVec 3) (s : State) : Host.Outcome State Fault Refusal :=
  .next ((s.advance now).hosted fn.val (fun t =>
    let f := fn.val
    if t.bit .CMD_CFG_EN f then t
    else
      let t := (t.setF .CMD_CFG_EN f 1).setF .CMD_CFG_SIZE f (ringSizeCode size.toNat)
      let t := (t.setF .CMD_PROD_INDEX f 0).setF .CMD_CONS_INDEX f 0
      let t := (t.setF .CPL_HEAD_INDEX f 0).setF .CPL_TAIL_INDEX f 0
      t.setFn f { t.fnst f with wrapped := false }))

/-- HOST_READ_TIMEOUT (R296): what was not read is poisoned. An ingest job goes on with poison (R172); what Beaver fetched does
not authenticate; the words of a command entry and the bytes of a bit-stream are free values. -/
def execHostReadTimeout (now : Nat) (reader : HostReader) (s : State) : Host.Outcome State Fault Refusal :=
  let s := s.advance now
  match reader with
  | .ingest eng =>
    (match smapGet none s.ingests eng.val with
      | some j => .next { s with ingests := smapSet none s.ingests eng.val (some { j with wait := false }) }
      | none => .next s)
  | .loader b =>
    (match s.beaver b.val with
      | some x =>
        if x.state != 2 then .next s
        else if x.job.kind == .importKey then .next (s.jobEnd b.val x 0x0E)
        else .next (s.jobFail b.val x 0x06)
      | none => .next s)
  | .ring fn =>
    let x := s.fnst fn.val
    if x.held < x.entries.length then
      let e := (List.range 16).map (fun i => BitVec.ofNat 32 (Config.freeNat (s.fresh + i)))
      let t := { s with fresh := s.fresh + 16 }
      .next (t.setFn fn.val { x with entries := x.entries.dropLast ++ [e] })
    else .next s
  | .bitstream fn =>
    (match (s.fnst fn.val).accepted.find? (fun e => entryOp e == 0x01) with
      | some e =>
        if s.getF .GCTL_PWRST_STATE 0 ≠ 0 then .next s
        else
          let len := entryWord e 4
          let bytes := (List.range len).map (fun i => BitVec.ofNat 8 (Config.freeNat (s.fresh + i)))
          .next ({ s with fresh := s.fresh + len }.command fn.val 0x01 e (fun t => t.loadCommand fn.val e bytes))
      | none => .next s)

/-- SERVICE_ACK (R321): the mailbox is emptied, and the next queued message is delivered. -/
def execServiceAck (now : Nat) (fn : Func) (s : State) : Host.Outcome State Fault Refusal :=
  .next ((s.advance now).hosted fn.val (fun t =>
    let f := fn.val
    let x := t.fnst f
    match x.messages with
    | m :: rest => (t.setFn f { x with messages := rest }).svcFill f m
    | [] => t.setF .SVC_STAT_FULL f 0))

end Sys2Proof.Machine
end

