-- ==== Sys2Proof/Machine/Views.lean ====
section
/-!
DEFINITION. What a read of a register field returns. Fields whose value lies in the state beside the register store are read
here from where it lies; the rest read as stored.
-/

namespace Sys2Proof.Machine
open Sys2Proof

/-! ### Parts of the state as register values -/

/-- The 64 bytes of an event record (Table 17.8). -/
def EventRec.bytes (r : EventRec) : List Byte :=
  let b := leBytes 8 r.time ++ leBytes 2 r.code ++ leBytes 1 (r.cls + 4 * r.supp.toNat) ++ leBytes 1 r.owner ++ leBytes 1 r.cluster ++
    leBytes 1 r.unit ++ leBytes 2 r.station ++ leBytes 4 r.seq ++ leBytes 4 r.count ++ leBytes 8 r.first ++ padTo 28 (r.detail.take 28)
  b ++ leBytes 4 (crc32 b)

/-- The records of a function's event queue. -/
def State.evq (s : State) (fn : Nat) : List EventRec := (s.events.path (1 + fn)).recs

/-- ME_STAT.STATE of a physical engine (R86): a vector whose phases run comes before the steps between which it runs. -/
def State.engState (s : State) (pe : Nat) : Nat :=
  let core := coreOf pe
  let e := placeOf pe
  let steps := s.waitsBeaver pe || s.waitsTouch pe
  if (if e = 16 then s.bit .CCTL_EMAP_MES_RETIRED core else (s.getF .CCTL_EMAP_RETIRED core).testBit e) then 4
  else if !((s.engine pe).boundary) then 2
  else if steps then 3
  else if (s.engine pe).cur.isSome then 2
  else if e = 16 && !(s.bit .CCTL_EMAP_SPARE_USED core) then 5
  else 1

/-- STATE of a digital unit (DPE_STAT, VXE_STAT, PRE_STAT): busy while it has a tile; stalled when a station bound to it has a grant
and its input waits for an Empty output slot, or its input is missing (DEDUCED). -/
def State.unitState (s : State) (core u : Nat) : Nat :=
  if (s.coreTiles core).any (fun t => t.unit == u) then 2
  else
    let sts := s.stations.filter (fun e => e.2.core == core && hasDesc e.2.kind && unitOfKind e.2.kind == u && e.2.kind != 0 &&
      (e.2.state == 1 || e.2.state == 4) && e.2.holds.isEmpty && e.2.grants != 0)
    if sts.any (fun e => s.inputsReady (s.inRings e.1)) then 3 else if sts.isEmpty then 1 else 4

/-- TMV_STAT.STATE. -/
def State.tmvState (s : State) (core : Nat) : Nat :=
  let m := s.tmv core
  match m.cur with
  | some x => if x.slot.isSome then 2 else 3
  | none => if m.queue.isEmpty && m.refused.isEmpty then 1 else 3

/-- STP_STAT.STATE: 3 in a domain reset, as stored. -/
def State.stpState (s : State) (core : Nat) : Nat :=
  if s.getF .STP_STAT_STATE core = 3 then 3 else if (s.coreTiles core).isEmpty then 1 else 2

/-- The station of a descriptor of a core. -/
def State.descStation (s : State) (core d : Nat) : Station :=
  match s.stations.find? (fun e => hasDesc e.2.kind && e.2.state != 0 && e.2.core == core && e.2.d == d) with
  | some e => e.2
  | none => Station.unloaded

/-- The station bound to an entry of KMC_STN. -/
def State.entryStation (s : State) (c n : Nat) : Option (Nat × Station) := s.stations.find? (fun e => e.2.entry == some (c, n))

/-- SGT_ENGSTAT of an ingest engine. -/
def State.ingestState (s : State) (e : Nat) : Nat :=
  match smapGet none s.ingests e with
  | none => 0
  | some j =>
    if j.wait then 3
    else
      match (s.station (s.ctx j.ctx).station).outs, j.tiles with
      | h :: _, _ :: _ => if s.slot (s.nextWr h) = 0 then 1 else 2
      | _, _ => 1

/-- WLD_STAT.STATE of an instance: an idle one shows 5 while a sweep job at a queue's head waits for its budget (R266). -/
def State.beaverState (s : State) (b : Nat) : Nat :=
  match s.beaver b with
  | some x => x.state
  | none =>
    if s.jobs.any (fun e => match e.2 with
        | j :: _ => j.kind == .sweep && (match s.station j.station with
            | y => y.state != 0 && (s.innerRgs y.core (s.desc y.core y.d)).any (fun g => s.sweepLevel g < sweepUnit))
        | [] => false) then 5
    else 1

/-- TEN_Tt_STAT.STATE and TENV_STAT.STATE. -/
def State.tenState (s : State) (t : Nat) : Nat :=
  let x := s.fnst t
  if !x.enabled then 0 else if x.flr.isSome then 3 else if (s.part t).isSome then 2 else 1

/-- The owner of all eight cores of a cluster, 0xFF for none (R125). -/
def State.ocuOwner (s : State) (c : Nat) : Nat :=
  match s.parts.find? (fun e => match e.2 with | some p => (List.range 8).all (fun k => p.cores.contains (8 * c + k)) | none => false) with
  | some e => e.1
  | none => 0xFF

/-- A signed number in 32 bits, and the two words of a signed number in 64. -/
def word32 (v : Int) : Nat := (v % 4294967296).toNat
def lowWord (v : Int) : Nat := (v % 4294967296).toNat
def highWord (v : Int) : Nat := (v / 4294967296 % 4294967296).toNat

/-- The pending boundary of an open context, else 0 (R287): a position is signed, a travel count is not, device time has 64 bits
(R292). -/
def Context.next (x : Context) : Int :=
  if x.state != 1 then 0
  else if 1 ≤ x.src && x.src ≤ 4 then (BitVec.ofNat 48 x.bound).toInt else x.bound

/-- The loader bucket in ms (R314); for a tenant without limit the manual states no value. -/
def State.bucketMs (s : State) (t : Nat) : Nat :=
  match s.loaderLevel t with
  | some v => word32 (v / 3600000000000)
  | none => Config.freeNat s.fresh % 4294967296

/-! ### Fields -/

/-- The value that a read of field `f` of replication `i` returns. -/
def State.readFld (s : State) (f : Fld) (i : Nat) : Nat :=
  match f with
  | .GCTL_ID_GRADE => Config.grade % 16
  | .GCTL_EVDROP_LOGC => s.events.logDrop
  | .GCTL_EVDROP_TRC => s.events.trcDrop
  | .PWR_CAP_CEIL => s.setting 4
  | .PWR_AVS_VSET => s.vset
  | .POS_CNTL_VALUE => (s.port i).pos.toNat % 4294967296
  | .POS_CNTH_VALUE => (s.port i).pos.toNat / 4294967296
  | .POS_TRVL_VALUE => (s.port i).trv.toNat % 4294967296
  | .POS_TRVH_VALUE => (s.port i).trv.toNat / 4294967296
  | .POS_ZLATL_VALUE => (s.port i).zlat.toNat % 4294967296
  | .POS_ZLATH_VALUE => (s.port i).zlat.toNat / 4294967296
  | .POS_CTX_CFG_BOUND => ((s.ctx i).state != 0).toNat
  | .POS_CTX_CFG_HOLD => (s.ctx i).hold.toNat
  | .POS_CTX_CFG_PENDING => ((s.ctx i).sync != 0 && s.atBound i).toNat
  | .POS_CTX_CFG_SRC => (s.ctx i).src
  | .POS_CTX_CFG_SYNC => (s.ctx i).sync
  | .POS_CTX_LEN_VALUE => (s.ctx i).len
  | .POS_CTX_EPOCH_VALUE => (s.ctx i).epoch
  | .POS_CTX_NEXTL_VALUE => lowWord (s.ctx i).next
  | .POS_CTX_NEXTH_VALUE => highWord (s.ctx i).next
  | .WIO_STAT_WINFLT => (List.range 4).foldl (fun m n => withBit m n (s.bit .WIO_WINSTAT_FAULT n)) 0
  | .WIO_STAT_WOUTFLT => (List.range 8).foldl (fun m n => withBit m n (s.getF .WIO_WOUTSTAT_FAULT n != 0)) 0
  | .WIO_ENMAP_WIN => s.setting 2 / 256 % 16
  | .WIO_ENMAP_WOUT => s.setting 2 % 256
  | .WIO_WINSTAT_ARMED => (s.armed i).toNat
  | .WIO_WINSTAT_TIMER => s.winTimer i
  | .WIO_WOUTSTAT_ASSERTED => (s.asserted i).toNat
  | .WIO_WOUTSTAT_PAIRED => (s.pairedOut i).toNat
  | .WIO_RULE_VALID => (s.wrule i).valid.toNat
  | .WIO_RULE_REQ => (s.requesting (s.wrule i)).toNat
  | .WIO_RULE_MUTED => (s.muted (s.wrule i)).toNat
  | .WIO_RULE_OWNER => if (s.wrule i).valid then (s.wrule i).owner else 0
  | .WIO_RULE_OUTMASK => if (s.wrule i).valid then (s.wrule i).outmask else 0
  | .WIO_RULE_STATION => if (s.wrule i).valid then (s.wrule i).station else 0
  | .NVS_STAT_BUSY => s.events.commit.isSome.toNat
  | .NVS_STAT_PFPAGES => s.settList.length
  | .NVS_LOG_ALOST => s.events.alost
  | .NVS_LOG_DROPPED => s.events.dropped
  | .NVS_LCSTAT_BUSY => s.lcBusy.isSome.toNat
  | .NVS_LC_STAT_USED => (s.lcSlots i).length
  | .NVS_LC_STAT_FROZEN => (8 ≤ (s.lcSlots i).length : Bool).toNat
  | .NVS_LC_VAL_VALUE => s.setting i
  | .NVS_FWARB_BUSY => s.fwTarget.isSome.toNat
  | .NVS_IDPUB_BYTES => beNat (((Config.identityX ++ Config.identityY).drop (4 * i)).take 4)
  | .NVS_KS_FULL => (!((smapGet Key.empty s.signKeys i).bytes.isEmpty)).toNat
  | .NVS_KS_USAGE => (smapGet Key.empty s.signKeys i).usage
  | .NVS_KS_FROZEN => (s.setting 3 == i).toNat
  | .NVS_KS_OWNER => (smapGet Key.empty s.signKeys i).owner
  | .NVS_MK_FULL => (!((smapGet Key.empty s.modelKeys i).bytes.isEmpty)).toNat
  | .NVS_MK_OWNER => (smapGet Key.empty s.modelKeys i).owner
  | .SDAC_STAT_QUEUE => s.dac.queue.length
  | .SDAC_STAT_PASSAGE => s.passing.toNat
  | .SDAC_CTL_SPAN => s.spanNow
  | .SDAC_LEVEL_DC => s.dcNow
  | .WLD_STAT_STATE1 => s.beaverState 1
  | .WLD_STAT_STATE0 => s.beaverState 0
  | .WLD_STAT_TOKHELD => (s.tokenHeld.filter (fun pe => s.beavers.any (fun b => match b.2 with | some x => (s.stepsOf x).contains pe | none => false))).length
  | .WLD_STAT_QDEPTH => (s.jobs.map (fun e => e.2.length)).sum
  | .WLD_CHKSTAT_RESIDENT => (s.shards.filter (fun e => e.2.state != 0)).length
  | .WLD_RES_STAT_STATE => (s.shard i).state
  | .WLD_RES_STAT_OWNER => (s.shard i).owner
  | .WLD_RES_STAT_CLUSTER => (s.shard i).cluster
  | .WLD_RES_STAT_STATION => (s.shard i).station
  | .WLD_RES_MODEL_MODEL => (s.shard i).model
  | .WLD_RES_CHK_SHARD => (s.shard i).shard
  | .WLD_RES_CHK_AGE => if (s.shard i).state = 0 then 0 else min ((s.time - (s.shard i).checked) / 60000000000) 65535
  | .LNK_DOMAIN_KNOWN => (List.range 8).foldl (fun m d => withBit m d (smapGet none s.domain d).isSome) 0
  | .LNK_OFSL_VALUE => lowWord (s.ofs i)
  | .LNK_OFSH_VALUE => highWord (s.ofs i)
  | .TEN_USE0_CORES => (s.partOf (i + 1)).cores.length
  | .TEN_USE0_CONTEXTS => s.ctxUse (i + 1)
  | .TEN_CMUSE_VALUE => kib (s.partOf (i + 1)).cm
  | .TEN_KMUSE_VALUE => s.kmUse (i + 1)
  | .TEN_STAT_STATE => s.tenState (i + 1)
  | .TEN_STAT_CUT => (s.fnst (i + 1)).cut.isSome.toNat
  | .TEN_STAT_DENIED => s.getF .TENV_STAT_DENIED (i + 1)
  | .TEN_LDRBKT_VALUE => s.bucketMs (i + 1)
  | .OBS_TRLOSS_COUNT => (s.trace i).all
  | .SGT_ENGSTAT_ENG7 => s.ingestState 7
  | .SGT_ENGSTAT_ENG6 => s.ingestState 6
  | .SGT_ENGSTAT_ENG5 => s.ingestState 5
  | .SGT_ENGSTAT_ENG4 => s.ingestState 4
  | .SGT_ENGSTAT_ENG3 => s.ingestState 3
  | .SGT_ENGSTAT_ENG2 => s.ingestState 2
  | .SGT_ENGSTAT_ENG1 => s.ingestState 1
  | .SGT_ENGSTAT_ENG0 => s.ingestState 0
  | .SGT_CTX_STAT_STATE => (s.ctx i).state
  | .SGT_CTX_STAT_OWNER => (s.ctx i).owner
  | .SGT_CTX_STAT_WEIGHT => (s.ctx i).weight
  | .SGT_CTX_STAT_DROP => (s.ctx i).drop.toNat
  | .SGT_CTX_STAT_QUEUED => (s.ctx i).queue.length
  | .SGT_CTX_STAT_STATION => (s.ctx i).station
  | .SGT_CTX_SEQ_NEXTSEQ => (s.ctx i).seq
  | .CSQ_STAT_STATE => if s.sharedOn i then 2 else 0
  | .CSQ_STAT_EXCMASK => (List.range 8).foldl (fun m t => withBit m t (s.thState (8 * i + t) == 4)) 0
  | .CSQ_STAT_USED => (List.range 8).foldl (fun m t => withBit m t (s.thState (8 * i + t) != 0)) 0
  | .CSQ_GRP_STAT_DEFINED => ((s.group (i % 64)).defined && !(((s.group (i % 64)).coresOf (i / 64)).isEmpty)).toNat
  | .CSQ_GRP_STAT_SCOPE => (s.group (i % 64)).scope
  | .CSQ_GRP_STAT_TIMEDOUT => (s.group (i % 64)).timedOut.toNat
  | .CSQ_GRP_STAT_ARRIVED =>
    (match (s.group (i % 64)).inst with
      | some b => (((s.group (i % 64)).coresOf (i / 64)).filter (fun c => (s.arrivedMask b).testBit c)).length
      | none => 0)
  | .CSQ_GRP_STAT_INSTANCE => (s.group (i % 64)).count % 65536
  | .OCU_STAT_OWNER => s.ocuOwner i
  | .OCU_STAT_QDEPTH => (s.ocu i).queue.length
  | .OCU_LIMSTALL_COUNT => (s.ocu i).stall % 4294967296
  | .OCU_BUSY_COUNT => (s.ocu i).busy % 4294967296
  | .KMC_STN_STAT_VALID => (s.entryStation (i / 512) (i % 512)).isSome.toNat
  | .KMC_STN_STAT_STATE => (match s.entryStation (i / 512) (i % 512) with | some e => e.2.state | none => 0)
  | .KMC_STN_STAT_GEN => (match s.entryStation (i / 512) (i % 512) with | some e => e.2.gen | none => 0)
  | .KMC_STN_STAT_INFLIGHT => (match s.entryStation (i / 512) (i % 512) with | some e => (if e.2.state = 4 then s.inflight e.1 else 0) | none => 0)
  | .KMC_STN_STAT_STATION => (match s.entryStation (i / 512) (i % 512) with | some e => e.1 | none => 0)
  | .STP_STAT_STATE => s.stpState i
  | .STP_GRANT_STATE => (s.descStation (i / 64) (i % 64)).state
  | .STP_GRANT_GRANTS => (s.descStation (i / 64) (i % 64)).grants
  | .ME_STAT_STATE => s.engState i
  | .ME_STAT_BRINGUP => (s.bringup (clOf i)).toNat
  | .ME_STAT_RG => (s.engine i).rg
  | .ME_STAT_SUBPASS => (s.engine i).neg.toNat
  | .ME_STAT_STATION => (s.engine i).station
  | .ME_OPW_ADDIN => bits (s.engine i).opw.toNat 26 26
  | .ME_OPW_OUT => bits (s.engine i).opw.toNat 25 24
  | .ME_OPW_CHAIN_POS => bits (s.engine i).opw.toNat 23 20
  | .ME_OPW_CHAIN_LEN => bits (s.engine i).opw.toNat 19 15
  | .ME_OPW_RGMASK => bits (s.engine i).opw.toNat 13 10
  | .ME_OPW_REPEAT => bits (s.engine i).opw.toNat 9 8
  | .ME_OPW_WMODE => bits (s.engine i).opw.toNat 7 6
  | .ME_OPW_INMODE => bits (s.engine i).opw.toNat 5 4
  | .ME_OPW_SATPOL => bits (s.engine i).opw.toNat 3 2
  | .ME_OPW_GAIN => bits (s.engine i).opw.toNat 1 0
  | .ME_DTGAIN_ACTIVE => (s.rgActive i).toNat
  | .ME_CALSTAT_TRIM_AGE =>
    (match s.trims.find? (fun e => e.1 == i) with
      | some e => min ((s.time - e.2.at_) / 1000000000) 65535
      | none => 0)
  | .DPE_STAT_STATE => s.unitState i 16
  | .DPE_BUSY_COUNT => smapGet 0 s.busy (4 * i + 1) % 4294967296
  | .VXE_STAT_STATE => s.unitState i 17
  | .VXE_BUSY_COUNT => smapGet 0 s.busy (4 * i + 2) % 4294967296
  | .PRE_STAT_STATE => s.unitState i 18
  | .PRE_BUSY_COUNT => smapGet 0 s.busy (4 * i + 3) % 4294967296
  | .TMV_STAT_STATE => s.tmvState i
  | .TMV_STAT_QDEPTH => (s.tmv i).queue.length
  | .CCTL_BUSYL_VALUE => smapGet 0 s.busy (4 * i) % 4294967296
  | .CCTL_BUSYH_VALUE => smapGet 0 s.busy (4 * i) / 4294967296 % 4294967296
  | .TENV_ID_IDENTITY => fnMaster i
  | .TENV_ID_TENANT => i
  | .TENV_STAT_STATE => s.tenState i
  | .TENV_STAT_CUT => (s.fnst i).cut.isSome.toNat
  | .SVC_STAT_QUEUED => (s.fnst i).messages.length
  | .MSIX_PBA_BITS => smapGet 0 s.pba i
  | .EVQ_STAT_COUNT => (s.evq i).length
  | .EVQ_STAT_ACOUNT => ((s.evq i).filter (fun r => r.cls == 0)).length % 32
  | .EVQ_STAT_AMISS => smapGet 0 s.events.amiss i
  | .EVQ_STAT_BSUPP => smapGet 0 s.events.bsupp i
  | .EVQ_HEAD_WORD =>
    (match s.evq (i / 16) with
      | r :: _ => leNat ((r.bytes.drop (4 * (i % 16))).take 4)
      | [] => 0)
  | f => s.getF f i

/-- A whole register: its fields in place, fields that only trigger an action and reserved bits read as 0 (R7, R8). -/
def State.readReg (s : State) (r : Reg) (i : Nat) : Nat :=
  (r.fields.map (fun f =>
    match f.info.acc with
    | .wo => 0
    | _ => s.readFld f i % 2 ^ f.width * 2 ^ f.info.lo)).sum

end Sys2Proof.Machine
end

