-- ==== Sys2Proof/Machine/HostAccess.lean ====
section
/-!
DEFINITION. Accesses to registers and to SRAM: the BAR0 of the physical function (R7 to R9, R21 to R30, R292), the tenant window
and the indirect port (R298 to R300), BAR2 (R26, R28, R175, R176, R188, R198, R296), and the debug port (R426). A write to a
register field that has a row of its own does what that row says and nothing here, but for the two accesses that are such
rows themselves: the indirect port and the debug port.
-/

namespace Sys2Proof.Machine
open Sys2Proof

/-! ### Where an offset lies -/

/-- The indices of a replicated register at a distance from its first copy. -/
def digits : List (Nat × Nat) → Nat → Option (List Nat)
  | [], d => if d = 0 then some [] else none
  | (st, n) :: ds, d => if d / st < n then (digits ds (d % st)).map (fun ix => d / st :: ix) else none

/-- The replication number of indices. -/
def Reg.flat (r : Reg) (ix : List Nat) : Nat := (r.info.dims.zip ix).foldl (fun i p => i * p.1.2 + p.2) 0

/-- Whether a register lies at an offset, and its indices. -/
def Reg.locate (r : Reg) (off : Nat) : Option (List Nat) := if off < r.info.base then none else digits r.info.dims (off - r.info.base)

/-- The register at an offset of PF BAR0, and its replication number. -/
def regAt (off : Nat) : Option (Reg × Nat) := pfRegs.findSome? (fun r => (r.locate off).map (fun ix => (r, r.flat ix)))

/-- The register at an offset of a function's window, and its replication number. -/
def winAt (fn off : Nat) : Option (Reg × Nat) :=
  fnRegs.findSome? (fun r =>
    match r.locate off with
    | some ix => if fn != 0 && r == .MSIX_TABLE && 32 ≤ r.flat ix then none else some (r, fn * r.perFn + r.flat ix)
    | none => none)

/-- The offset in the layout of a function's window of an offset of PF BAR0: the physical function's copies lie in the TEN block
and its event queue in GCTL (R297, R445). -/
def pfWindow (off : Nat) : Option Nat :=
  if 0xA01000 ≤ off && off < 0xA04000 then some (off - 0xA00000)
  else if 0xA20000 ≤ off && off < 0xA28000 then some (off - 0xA00000)
  else if 0x1000 ≤ off && off < 0x1100 then some (off - 0x1000 + 0x1F000)
  else none

/-- Whether the domain of the block at an offset of PF BAR0 is on (Tables 1.5 and 1.6). -/
def State.bar0On (s : State) (off : Nat) : Bool :=
  let m := off / 0x100000
  let rel := off % 0x100000
  if m = 7 then s.dieOn 4
  else if m = 8 then s.dieOn 3
  else if m = 9 then s.dieOn 1
  else if m = 0xB then s.dieOn 5
  else if m = 0xC then s.dieOn 2
  else if 16 ≤ m && m < 32 then
    let c := m - 16
    if rel < 0x30000 then s.sharedOn c
    else if rel < 0x40000 then true
    else if rel < 0x50000 then s.sharedOn c
    else if rel < 0x80000 then true
    else s.coreOn (8 * c + (rel - 0x80000) / 0x10000)
  else true

/-! ### Writes of stored fields -/

/-- Whether a write of a field is discarded: a lock, a ring or a drain in use, another sender's channel, a DAC without session. -/
def State.writeLocked (s : State) (master : Nat) (f : Fld) (i : Nat) : Bool :=
  match f with
  | .MBX_CH_DATA_WORD => !(s.mbxBound (i / 16)) || s.mbxSender (i / 16) != master || s.mbxFull (i / 16)
  | .CMD_BASEL_ADDR | .CMD_BASEH_ADDR | .CPL_BASEL_ADDR | .CPL_BASEH_ADDR | .CMD_CFG_SIZE => s.bit .CMD_CFG_EN i
  | .OBS_TRBASEL_VALUE | .OBS_TRBASEH_VALUE | .OBS_TRSIZE_BLOCKS | .OBS_TRCFG_REFDEV => s.bit .OBS_TRCFG_EN 0
  | .LNK_CFG_DEVID | .LNK_ROUTE_DEV0 | .LNK_ROUTE_DEV1 | .LNK_ROUTE_DEV2 | .LNK_ROUTE_DEV3 | .LNK_ROUTE_DEV4
  | .LNK_ROUTE_DEV5 | .LNK_ROUTE_DEV6 | .LNK_ROUTE_DEV7 => s.bit .LNK_CFG_LOCK 0
  | .NVS_CTL_PROT => s.bit .NVS_CTL_BPLOCK 0
  | .NVS_KSBUF_WORD => s.bit .NVS_KSCMD_BUSY 0
  | .SDAC_CTL_MODE | .SDAC_LEVEL_AMP | .SDAC_LEVEL_DC => !(s.bit .SDAC_STAT_OWNER 0)
  | .SCTL_WORD => 7 ≤ i % 9
  | _ => false

/-- What a write stores: values outside a stated range as the nearer limit, reserved bits as 0. -/
def storedAs (f : Fld) (i x : Nat) : Nat :=
  match f with
  | .WLD_CHKCFG_INTERVAL => max 60 (min 86400 x)
  | .CMD_CFG_SIZE => ringSizeCode x
  | .LNK_ROUTE_DEV0 | .LNK_ROUTE_DEV1 | .LNK_ROUTE_DEV2 | .LNK_ROUTE_DEV3 | .LNK_ROUTE_DEV4 | .LNK_ROUTE_DEV5
  | .LNK_ROUTE_DEV6 | .LNK_ROUTE_DEV7 => x % 4 + 8 * (x / 8)
  | .SCTL_WORD => if i % 9 = 4 then x % 16 + 2147483648 * (x / 2147483648) else if i % 9 = 6 then x % 65536 else x
  | _ => x

/-- A write reaches one field, as its access type says (R7); `s` is the state before the write, `t` what earlier fields of the
register have made of it. -/
def State.writeFld (s : State) (master : Nat) (t : State) (f : Fld) (i v : Nat) : State :=
  let x := bits v f.info.hi f.info.lo
  if f.info.own || s.writeLocked master f i then t
  else
    match f.info.acc with
    | .rw | .rwl => t.setF f i (storedAs f i x)
    | .w1c => if x = 1 then t.setF f i 0 else t
    | .w1s => if x = 1 then t.setF f i 1 else t
    | _ => t

/-- The sweep buckets are brought up to date before their rate changes (R266). -/
def State.sweepSettle (s : State) : State :=
  let one (g : Nat) : Nat × Tracker := (g, { s.tracker g with sweep := s.sweepLevel g, sweepAt := s.time })
  { s with trackers := ((List.range 8704).map one).filter (fun e => !(e.2 == Tracker.fresh)) }

/-- A write of a register. -/
def State.writeReg (s : State) (master : Nat) (r : Reg) (i v : Nat) : State :=
  let s := if r = .WLD_SWEEPCFG then s.sweepSettle else s
  r.fields.foldl (fun t f => s.writeFld master t f i v) s

/-- A write in the layout of a function's window. A stream control is that of a context the function has open. -/
def State.winWrite (s : State) (master fn off v : Nat) : State :=
  match winAt fn off with
  | some (.SCTL, i) =>
    let x := s.ctx (i % 1152 / 9)
    if x.state != 0 && x.owner == fn then s.writeReg master .SCTL i v
    else if x.state != 0 then s.denied fn
    else s
  | some (r, i) => s.writeReg master r i v
  | none => s

/-- A write of PF BAR0: with the block's domain off it is discarded and captured (R27). -/
def State.pfWrite (s : State) (master off v : Nat) : State :=
  if !(s.bar0On off) then s.accErr 0 true master false off
  else
    match pfWindow off with
    | some w => s.winWrite master 0 w v
    | none =>
      match regAt off with
      | some (r, i) => s.writeReg master r i v
      | none => s

/-- Whether a mailbox channel names a tenant. -/
def State.mbxNames (s : State) (t ch : Nat) : Bool := s.mbxBound ch && (s.mbxSender ch == fnMaster t || s.mbxReceiver ch == fnMaster t)

/-- A write in a tenant window (R299). -/
def State.vfWrite (s : State) (t off v : Nat) : State :=
  if 0x4000 ≤ off && off < 0x6000 then
    if s.mbxNames t ((off - 0x4000) / 0x80) then
      match regAt (off - 0x4000 + 0x101000) with
      | some (r, i) => s.writeReg (fnMaster t) r i v
      | none => s
    else s.denied t
  else s.winWrite (fnMaster t) t off v

/-- An access by a virtual function beyond its 256 KiB of BAR0 is none of the device's: it completes as Unsupported Request
(PRESUMED, log entry 4). -/
def beyondWindow (fn off : Nat) : Bool := fn != 0 && 0x40000 ≤ off

/-- REGISTER_WRITE (R7 to R9, R25, R27, R296, R299). A write that does not cover one whole aligned register is partial (R25).
DESIGN CHOICE: R25 comes before R27, so that a partial write to a block whose domain is off is captured with KIND 2 (log entry 29). -/
def execRegisterWrite (now : Nat) (fn : Func) (off : BitVec 26) (v : Word) (be : BitVec 4) (poisoned : Bool) (s : State) :
    Host.Outcome State Fault Refusal :=
    .next ((s.advance now).hosted fn.val (fun t =>
      if beyondWindow fn.val off.toNat then t.emit .unsupported
      else if poisoned then t
      else if be != 0xF#4 || off.toNat % 4 != 0 then t.accErr 2 true (fnMaster fn.val) false off.toNat
      else if fn.val = 0 then t.pfWrite 0x20 off.toNat v.toNat
      else t.vfWrite fn.val off.toNat v.toNat))

/-! ### Reads -/

/-- The low registers of pairs; the high register stands 4 bytes above (R292, R351, R429). -/
def lowRegs : List Reg := [.POS_CNTL, .POS_TRVL, .POS_ZLATL, .POS_CTX_NEXTL, .POS_TRG_VALL, .LNK_OFSL, .CCTL_BUSYL]

/-- The register at an offset as it reads now, latched words apart. -/
def State.liveWord (s : State) (off : Nat) : Nat := match regAt off with | some (r, i) => s.readReg r i | none => 0

/-- The points that a function armed, in the order it armed them (R446). -/
def State.pointsArmed (s : State) (fn : Nat) : List Nat :=
  ((s.points.filter (fun e => s.bit .OBS_TW_CFG_ARMED e.1 && s.getF .OBS_TW_CFG_OWNER e.1 == fn)).mergeSort
    (fun a b => a.2.rank ≤ b.2.rank)).map (·.1)

/-- A word of a watch point: a latched word if STAT has been read (R439). -/
def State.pointWord (s : State) (n off : Nat) : Nat :=
  let l := smapGet 0 s.twLatch (16 * n + off / 4)
  if l != 0 then l - 1 else s.liveWord (0xB02000 + 0x40 * n + off)

/-- A word of a tenant's counter page as its owner or the physical function sees it, each by its own copy (R431). -/
def State.pageWord (s : State) (pf : Bool) (t o : Nat) : Nat :=
  let x := s.fnst t
  let key := if pf then 128 + t else t
  if !x.enabled then 0
  else if o = 8 || o = 12 then
    match smapGet none s.tencs key with
    | some c => if o = 8 then c.time % 4294967296 else c.time / 4294967296 % 4294967296
    | none => 0
  else if 0x1000 ≤ o && o < 0x1400 then
    match (s.pointsArmed t)[(o - 0x1000) / 0x80]? with
    | some n => if o % 0x80 < 0x40 then s.pointWord n (o % 0x80) else 0
    | none => 0
  else if 0xF000 ≤ o then
    match winAt t (o + 0x10000) with
    | some (r, i) => s.readReg r i
    | none => 0
  else
    match smapGet none s.tencs key with
    | some c => smapGet 0 c.words o
    | none => 0

/-- A byte of Sett through its window (R417). -/
def State.settAt (s : State) (a : Nat) : Byte := match smapGet none s.settMem a with | some b => b | none => Config.settByte a

/-- A read of PF BAR0: its value, and the latches it sets. With the block's domain off it returns 0 and is captured (R27). -/
def State.readAt (s : State) (master off : Nat) : State × Nat :=
  if !(s.bar0On off) then (s.accErr 0 false master false off, 0)
  else if 0x640000 ≤ off && off < 0x680000 then (s, leNat ((List.range 4).map (fun k => s.settAt (off - 0x640000 + k))))
  else if 0x2000000 ≤ off && off < 0x2800000 then (s, s.pageWord true ((off - 0x2000000) / 0x10000 + 1) (off % 0x10000))
  else
    match pfWindow off with
    | some w => (s, match winAt 0 w with | some (r, i) => s.readReg r i | none => 0)
    | none =>
      match regAt off with
      | some (r, i) =>
        if r = .OBS_TW_STAT then (s.pointLatch i, s.readReg r i)
        else if 0xB02000 ≤ off && off < 0xB03000 then (s, s.pointWord ((off - 0xB02000) / 0x40) (off % 0x40))
        else if lowRegs.contains r then ({ s with latches := smapSet 0 s.latches (off + 4) (s.liveWord (off + 4) + 1) }, s.readReg r i)
        else
          let l := smapGet 0 s.latches off
          (s, if l != 0 then l - 1 else s.readReg r i)
      | none => (s, 0)

/-! ### Reads through the indirect port and the tenant window (R299, R300) -/

/-- The offset that a tenant has selected. -/
def State.iaddr (s : State) (t : Nat) : Nat := 4 * s.getF .TENV_IADDR_OFFSET t

/-- Registers of engines, steppers and digital units (R300), with the core's utilisation, which a tenant reaches for its claimed cores
(Table 17.1). -/
def coreUnitReg (r : Reg) : Bool :=
  match r with
  | .ME_STAT | .ME_OPW | .ME_CTL | .ME_PHCNT | .ME_SKIPCNT | .ME_SATCNT | .ME_SPLITCNT | .ME_ESCCNT | .ME_ESCMISS | .ME_ACCSAT
  | .ME_REMAP | .ME_RGSTAT | .ME_DTGAIN | .ME_DTOFS | .ME_CALSTAT | .ME_KACNT | .STP_STAT | .STP_EXC | .DPE_STAT | .DPE_BUSY
  | .VXE_STAT | .VXE_BUSY | .PRE_STAT | .PRE_BUSY | .CCTL_BUSYL | .CCTL_BUSYH => true
  | _ => false

/-- Whether a tenant may read a register through the indirect port (R138, R213, R274, R291, R300; of a station's entry the two counts
that Table 17.1 lets the owner of the station reach). -/
def State.mayRead (s : State) (t : Nat) (r : Reg) (i : Nat) : Bool :=
  let own (st : Nat) : Bool := (s.station st).state != 0 && (s.station st).owner == t
  match r with
  | .POS_CNTL | .POS_CNTH | .POS_TRVL | .POS_TRVH | .POS_ZLATL | .POS_ZLATH | .POS_SYNC_CNT => true
  | .POS_CTX_CFG | .POS_CTX_LEN | .POS_CTX_EPOCH | .POS_CTX_NEXTL | .POS_CTX_NEXTH | .POS_CTX_STAT => (s.ctx i).state != 0 && (s.ctx i).owner == t
  | .POS_TRG_CFG | .POS_TRG_VALL | .POS_TRG_VALH | .POS_TRG_PERIOD | .POS_TRG_STAT => s.getF .POS_TRG_STAT_OWNER i == t
  | .CSQ_TH_STAT | .CSQ_TH_EXC | .CSQ_TH_PRED | .CSQ_TH_CTL | .CSQ_TH_REGION | .CSQ_TH_RECCNT => s.thState i != 0 && s.thOwner i == t
  | .CSQ_TH_GREG | .CSQ_TH_CNT => s.thState (i / 16) != 0 && s.thOwner (i / 16) == t
  | .CSQ_GRP_STAT => (s.group (i % 64)).defined && (s.group (i % 64)).owner == t
  | .OWL_SCFG | .OWL_SSTAT | .OWL_SALMCNT | .OWL_SCTL | .OWL_SMEAN | .OWL_SVAR | .OWL_SMIN | .OWL_SMAX => s.ownsOwl t i
  | .KMC_STN_SATCNT | .KMC_STN_POISCNT =>
    (match s.entryStation (i / 512) (i % 512) with | some e => own e.1 | none => false)
  | .STP_GRANT => (s.descStation (i / 64) (i % 64)).state != 0 && (s.descStation (i / 64) (i % 64)).owner == t
  | .WLD_RES_STAT | .WLD_RES_MODEL | .WLD_RES_CHK => (s.shard i).state != 0 && (s.shard i).owner == t
  | .WLD_ERR => s.bit .WLD_ERR_VALID 0 && s.getF .WLD_ERR_OWNER 0 == t
  | .TEN_QUOTA0 | .TEN_QUOTA1 | .TEN_CMKIB | .TEN_KMKIB | .TEN_LDRMS | .TEN_USE0 | .TEN_CMUSE | .TEN_KMUSE | .TEN_STAT
  | .TEN_LDRBKT => i + 1 == t
  | r => coreUnitReg r && (s.partOf t).cores.contains (i * 128 / (r.info.dims.map (·.2)).prod)

/-- A read of TENV_IDATA (R300): what the tenant may not read reads 0 and is counted. -/
def State.indirectRead (s : State) (f : Nat) : State × Nat :=
  match regAt (s.iaddr f) with
  | some (r, i) => if s.mayRead f r i then s.readAt (fnMaster f) (s.iaddr f) else (s.denied f, 0)
  | none => (s.denied f, 0)

/-- INDIRECT_READ (R300): a read of TENV_IDATA. -/
def execIndirectRead (now : Nat) (t : Fin 128) (s : State) : Host.Outcome State Fault Refusal :=
  let f := t.val + 1
  .next ((s.advance now).hosted f (fun u =>
    let x := u.indirectRead f
    x.1.emit (.readWord x.2)))

/-- A read in a tenant window (R299): what belongs to another owner reads 0 and is counted. -/
def State.vfRead (s : State) (t off : Nat) : State × Nat :=
  if 0x4000 ≤ off && off < 0x6000 then
    if s.mbxNames t ((off - 0x4000) / 0x80) then s.readAt (fnMaster t) (off - 0x4000 + 0x101000) else (s.denied t, 0)
  else if 0x10000 ≤ off && off < 0x20000 then (s, s.pageWord false t (off - 0x10000))
  else
    match winAt t off with
    | some (.SCTL, i) =>
      let x := s.ctx (i % 1152 / 9)
      if x.state != 0 && x.owner == t then (s, s.readReg .SCTL i) else if x.state != 0 then (s.denied t, 0) else (s, 0)
    | some (.TENV_IDATA, _) => s.indirectRead t
    | some (r, i) => (s, s.readReg r i)
    | none => (s, 0)

/-- PAIRED_VALUE_READ (R25, R27, R292, R299): a read of a register, which names the register that holds its first byte; of a pair the
low register latches the high one. -/
def execPairedValueRead (now : Nat) (r : RegRead) (s : State) : Host.Outcome State Fault Refusal :=
  .next ((s.advance now).hosted r.fn.val (fun t =>
    if beyondWindow r.fn.val r.off.toNat then t.emit .unsupported
    else
      let o := r.off.toNat / 4 * 4
      let x := if r.fn.val = 0 then t.readAt 0x20 o else t.vfRead r.fn.val o
      x.1.emit (.readWord x.2)))

/-! ### BAR2 -/

/-- Whether the memory at both ends of a range is on; a range of no bytes asks nothing. -/
def State.rangeOn (s : State) (a n : Nat) : Bool := n == 0 || (s.memOn a && s.memOn (a + n - 1))

/-- Whether a range lies in a tenant's allocation (R298); the physical function and the debug port reach all of BAR2. -/
def State.bar2May (s : State) (fn a n : Nat) : Bool := fn == 0 || (List.range n).all (fun k => s.owns fn (a + k))

/-- A read of SRAM by a master for a function (R26, R28, R175, R298), of any length; one that runs past the end of BAR2 is none of the
device's. -/
def State.bar2Read (s : State) (master fn a n : Nat) : State :=
  if 0x8000000 < a + n then s.emit .unsupported
  else if !(s.bar2May fn a n) then (s.denied fn).emit .completerAbort
  else if !(s.rangeOn a n) then (s.accErr 1 false master true a).emit .completerAbort
  else (s.readEcc master a n).emit (.readBytes (s.bytes a n) (s.readsPoison a n))

/-- BAR2_READ. -/
def execBar2Read (now : Nat) (fn : Func) (off : BitVec 27) (len : Nat) (s : State) : Host.Outcome State Fault Refusal :=
  .next ((s.advance now).hosted fn.val (fun t => t.bar2Read (fnMaster fn.val) fn.val off.toNat len))

/-- A write with an error completion is reported to its function as an AER Uncorrectable Internal Error, by default non-fatal; the header
log keeps the first (R293, R296). -/
def State.aerReport (s : State) (fn a n : Nat) : State :=
  let t := s.emit (.aer fn false a n)
  if (smapGet none s.aerLog fn).isSome then t else { t with aerLog := smapSet none t.aerLog fn (some (a, n)) }

/-- A host write of some bytes as the producer of a host-fed ring (R163): a write into the ring's next slot while it is Empty marks it
Filling, and the write of the header's last byte, which the host writes last, marks it Full (log entry 92). -/
def State.hostFill (s : State) (a n : Nat) (e : Nat × Ring) : State :=
  let h := SlotRef.ofKey e.1
  if (s.ring h).prod != 4096 || (s.ring h).len == 0 then s
  else
    let r := s.nextWr h
    let lo := s.slotAddr r
    let s := if s.slot r = 0 && a < lo + (s.ring h).size && lo < a + n then s.setSlot r 1 else s
    if s.slot r = 1 && a ≤ lo + 63 && lo + 63 < a + n then (s.setSlot r 2).stepWr h else s

/-- A host write as the producer of the host-fed rings it touches. -/
def State.hostFed (s : State) (a n : Nat) : State := s.rings.foldl (fun t e => t.hostFill a n e) s

/-- A write of SRAM by a master for a function (R26, R28, R176, R188, R198, R296, R298): bytes in program memory and descriptor
areas are not written; a Poisoned TLP marks the words it touches. One that runs past the end of BAR2 is none of the device's. -/
def State.bar2Write (s : State) (master fn a : Nat) (bs : List Byte) (poisoned : Bool) : State :=
  if 0x8000000 < a + bs.length then s.emit .unsupported
  else if !(s.bar2May fn a bs.length) then s.denied fn
  else if !(s.rangeOn a bs.length) then s.accErr 1 true master true a
  else
    let w :=
      if poisoned then (((wordsOf a bs.length).filter (fun w => !(guarded (8 * w)))).foldl (fun t w => t.mark w 0x7F) s, false)
      else s.writeMem master guarded a bs
    let t := if w.2 then w.1.aerReport fn a bs.length else w.1
    if isHost master then t.hostFed a bs.length else t

/-- BAR2_WRITE. -/
def execBar2Write (now : Nat) (fn : Func) (off : BitVec 27) (data : List Byte) (poisoned : Bool) (s : State) :
    Host.Outcome State Fault Refusal :=
  .next ((s.advance now).hosted fn.val (fun t => t.bar2Write (fnMaster fn.val) fn.val off.toNat data poisoned))

/-! ### Access errors and banks -/

/-- ACCERR_CLEAR (R30). -/
def execAccerrClear (now : Nat) (s : State) : Host.Outcome State Fault Refusal :=
  .next ((s.advance now).hosted 0 (fun t => t.setF .GCTL_ACCERR_VALID 0 0))

/-- CM_REQUEST_PROMOTE (R33, R35): a request for the bytes at an offset that was presented to its bank at `since` and has waited 32
cycles is promoted; each requester holds at most one request per bank. -/
def execCmRequestPromote (now : Nat) (cl : Cluster) (co : Core) (off : BitVec 19) (req : Fin 24) (since : Nat) (s : State) :
    Host.Outcome State Fault Refusal :=
  let s := s.advance now
  let r : CmReq := { core := coreIx cl co, bank := cmBank off.toNat, req := req.val, since := since }
  if s.coreOn (coreIx cl co) && since + 32 ≤ s.time &&
      !(s.cmWait.any (fun x => x.core == r.core && x.bank == r.bank && x.req == r.req)) then
    .next { s with cmWait := s.cmWait ++ [r] }
  else .next s

/-! ### Writes through the indirect port (R300) -/

/-- A write of POS_TRGm_CFG: FREE, else EN decides (R288, R290). -/
def State.trgWrite (s : State) (fn m v : Nat) : State :=
  if v.testBit 30 then s.trgRelease fn m else if v.testBit 31 then s.trgArm fn m v else s.trgDisarm fn m v

/-- A write of CSQ_THt_CTL: STOP, then RESTART. -/
def State.ctlWrite (s : State) (fn i v : Nat) : State :=
  let s := if v.testBit 1 then s.stopWrite fn (i / 8) (i % 8) else s
  if v.testBit 0 then s.restartWrite fn (i / 8) (i % 8) else s

/-- A tenant's write of a register through the indirect port. -/
def State.indirect (s : State) (t : Nat) (r : Reg) (i v : Nat) : State :=
  match r with
  | .CSQ_TH_CTL => if s.mayThread t i then s.ctlWrite t i v else s.denied t
  | .OWL_SCTL => if s.ownsOwl t i then (if v.testBit 0 then s.relearn t (i / 32) (i % 32) else s) else s.denied t
  | .POS_CTX_CFG => s.holdWrite t i (v.testBit 30)
  | .POS_TRG_CFG => s.trgWrite t i v
  | .POS_TRG_VALL => s.trgValue t i .vall v
  | .POS_TRG_VALH => s.trgValue t i .valh v
  | .POS_TRG_PERIOD => s.trgValue t i .period v
  | _ => s.denied t

/-- INDIRECT_WRITE (R300): a write of TENV_IDATA. -/
def execIndirectWrite (now : Nat) (t : Fin 128) (v : Word) (s : State) : Host.Outcome State Fault Refusal :=
  let f := t.val + 1
  .next ((s.advance now).hosted f (fun u =>
    match regAt (u.iaddr f) with
    | some (r, i) => u.indirect f r i v.toNat
    | none => u.denied f))

end Sys2Proof.Machine
end

