-- ==== Sys2Proof/Machine/Debug.lean ====
section
/-!
DEFINITION. The debug port (R426, R418): accesses as the physical function at the levels that the debug access level allows.
-/

namespace Sys2Proof.Machine
open Sys2Proof

/-- The state that a register's own action leaves. -/
def State.after (s : State) (o : Host.Outcome State Fault Refusal) : State := match o with | .next t => t | _ => s

/-- The actions in the first blocks of PF BAR0: GCTL, MBX, PWR and POS. -/
def State.actA (s : State) (r : Reg) (i : Nat) (v : Word) : State :=
  let w := v.toNat
  match r with
  | .GCTL_ACCERR => if w.testBit 31 then s.setF .GCTL_ACCERR_VALID 0 0 else s
  | .GCTL_RESET => s.after (execDieReset s.time (.pfWrite (BitVec.ofNat 16 (w / 65536)) (w.testBit 0)) s)
  | .GCTL_PWRST =>
    let s := if w.testBit 2 then s.after (execPrepare s.time (Config.freeNat s.fresh) (Config.freeBool s.fresh) s.burn) else s
    let s := if w.testBit 1 then s.after (execWake s.time s) else s
    if w.testBit 0 then s.after (execBear s.time s) else s
  | .GCTL_MGR => if w.testBit 0 then s.after (execSwitch s.time s) else s
  | .MBX_LOCK => if w.testBit 0 then s.after (execMailboxLock s.time s) else s
  | .MBX_BIND => s.after (execMailboxBind s.time (Fin.ofNat 64 i) false v s)
  | .MBX_TMO => s.after (execMailboxBind s.time (Fin.ofNat 64 i) true v s)
  | .MBX_CH_CTL =>
    let ch : Fin 64 := Fin.ofNat 64 i
    let s := if w.testBit 28 then s.after (execFlush s.time 0x20 ch s) else s
    let s := if w.testBit 30 then s.after (execMailboxAck s.time 0x21 ch s) else s
    let s := if w.testBit 29 then s.after (execClrtmo s.time 0x21 ch s) else s
    if w.testBit 31 then s.after (execMailboxPost s.time 0x21 ch (Fin.ofNat 16 w) s) else s
  | .PWR_CAP => s.after (execCapWrite s.time (BitVec.ofNat 8 w) s)
  | .PWR_AVS => s.after (execAvsEnableWrite s.time (w.testBit 31) s)
  | .PWR_DIEDOM => s.after (execDiedomOffRequest s.time false (w.testBit 30) (s.after (execDiedomOffRequest s.time true (w.testBit 31) s)))
  | .PWR_REG_STAT => if w.testBit 29 then s.after (execRegulatorClr s.time (Fin.ofNat 6 i) s) else s
  | .POS_CFG => s.after (execPosPortConfig s.time (Fin.ofNat 4 i) v s)
  | .POS_SYNCCFG => s.after (execPosSyncConfig s.time v s)
  | .POS_CTX_CFG => s.holdWrite 0 i (w.testBit 30)
  | .POS_TRG_CFG => s.trgWrite 0 i w
  | .POS_TRG_VALL => s.trgValue 0 i .vall w
  | .POS_TRG_VALH => s.trgValue 0 i .valh w
  | .POS_TRG_PERIOD => s.trgValue 0 i .period w
  | _ => s

/-- The actions in the other blocks: WIO, NVS, SDAC, WLD, LNK, OBS and the clusters. -/
def State.actB (s : State) (r : Reg) (i : Nat) (v : Word) : State :=
  let w := v.toNat
  let core := i % 128
  match r with
  | .WIO_WINCFG => s.after (execWatchInputConfig s.time (Fin.ofNat 4 i) v s)
  | .WIO_WINCTL => if w.testBit 0 then s.after (execWatchInputClear s.time (Fin.ofNat 4 i) s) else s
  | .WIO_WOUTCFG => s.after (execForce s.time (Fin.ofNat 8 i) (w.testBit 31) s)
  | .WIO_WOUTCTL => if w.testBit 0 then s.after (execWatchOutputClear s.time (Fin.ofNat 8 i) (s.bit .WIO_WOUTSTAT_PIN i) s) else s
  | .NVS_CTL =>
    let s := if w.testBit 31 then s.after (execSettCommit s.time s) else s
    if w.testBit 30 then s.after (execSettDiscard s.time s) else s
  | .NVS_LCREQ => s.after (execLcChangeRequest s.time (BitVec.ofNat 16 (w / 65536)) (BitVec.ofNat 3 w) s)
  | .NVS_FWARB => if w.testBit 31 then s.after (execFwarbAdvance s.time (BitVec.ofNat 7 (w / 65536)) s) else s
  | .SDAC_CTL =>
    let s := s.after (execSdacSpanRouteChange s.time true (BitVec.ofNat 2 (w / 64)) (BitVec.ofNat 5 w) s)
    let s := if w.testBit 30 then s.after (execLoopcal s.time s) else s
    if w.testBit 31 then s.after (execSessionRequest s.time s) else s.after (execSessionEnd s.time s)
  | .SDAC_FTW => s.after (execSdacFtwWrite s.time true v s)
  | .WLD_ERR => if w.testBit 31 then s.after (execWldErrClear s.time s) else s
  | .LNK_CFG => if w.testBit 31 then s.after (execLinkLock s.time s) else s
  | .LNK_PCFG =>
    if w.testBit 31 then s.after (execLinkPortEnable s.time (Fin.ofNat 4 i) s)
    else s.after (execLinkDown s.time (Fin.ofNat 4 i) .enCleared s)
  | .OBS_TRCFG => s.after (execTraceEnable s.time (w.testBit 31) s)
  | .CSQ_TH_EXC => if w.testBit 31 then s.setF .CSQ_TH_EXC_VALID i 0 else s
  | .CSQ_TH_CTL => s.ctlWrite 0 i w
  | .OCU_CTL => if w.testBit 0 then s.after (execOcuClrCnt s.time (Fin.ofNat 16 i) s) else s
  | .OWL_SCTL => if w.testBit 0 then s.relearn 0 (i / 32) (i % 32) else s
  | .KMC_ECCSTAT => if w.testBit 31 then s.setF .KMC_ECCSTAT_VALID i 0 else s
  | .CMC_ECCSTAT => if w.testBit 31 then s.setF .CMC_ECCSTAT_VALID i 0 else s
  | .STP_EXC => if w.testBit 31 then s.setF .STP_EXC_VALID core 0 else s
  | .ME_CTL =>
    if w.testBit 0 then s.after (execEngineClrCnt s.time (Fin.ofNat 16 (i / 136)) (Fin.ofNat 8 (i / 17)) (Fin.ofNat 17 i) s) else s
  | _ => s

/-- The actions of the physical function's command interface, service mailbox, stream controls and event queue. The command
entries that a doorbell makes the device read are not the port's to give, and are free values. -/
def State.actWin (s : State) (r : Reg) (i : Nat) (v : Word) : State :=
  let w := v.toNat
  match r with
  | .CMD_CFG => if w.testBit 31 then s.after (execCmdRingEnable s.time 0 (BitVec.ofNat 3 w) s) else s
  | .CMD_PROD =>
    let entry (k : Nat) : List Word := (List.range 16).map (fun j => BitVec.ofNat 32 (Config.freeNat (s.fresh + 16 * k + j)))
    s.after (execCommandDoorbell s.time 0 (BitVec.ofNat 6 w) ((List.range 64).map entry) { s with fresh := s.fresh + 1024 })
  | .CPL_HEAD => s.after (execCplHeadAdvance s.time 0 (BitVec.ofNat 6 w) s)
  | .SVC_CTL => if w.testBit 0 then s.after (execServiceAck s.time 0 s) else s
  | .SCTL => if i % 9 = 7 then s.post 0 (i % 1152 / 9) else s
  | .EVQ_POP => if w.testBit 0 then s.popEvent 0 else s
  | _ => s

/-- A write of PF BAR0 by the debug port, with the action of the register written. No level reaches the key store. -/
def State.debugWrite (s : State) (off : Nat) (v : Word) : State :=
  let t := s.pfWrite 0x21 off v.toNat
  if !(s.bar0On off) then t
  else if 0x640000 ≤ off && off < 0x680000 then t.settWrite true (off - 0x640000) (leBytes 4 v.toNat)
  else if 0x2000000 ≤ off && off < 0x2800000 then
    if off % 0x10000 = 0 && v.toNat.testBit 0 then t.after (execTencLatch t.time true (Fin.ofNat 128 ((off - 0x2000000) / 0x10000)) t) else t
  else
    match pfWindow off with
    | some w => (match winAt 0 w with | some (r, i) => t.actWin r i v | none => t)
    | none =>
      match regAt off with
      | some (r, i) => if r = .NVS_KSBUF || r = .NVS_KSCMD then s else (t.actA r i v).actB r i v
      | none => t

/-- DEBUG_PORT_ACCESS (R426): at level 0 the port reaches nothing of this model, at level 1 it reads, at level 2 it writes;
its accesses are those of the physical function (R25, R26). -/
def execDebugPortAccess (now : Nat) (access : DebugAccess) (s : State) : Host.Outcome State Fault Refusal :=
  let s := s.advance now
  let level := s.setting 1
  match access with
  | .readReg off =>
    let r := s.readAt 0x21 (off.toNat / 4 * 4)
    .next (if level = 0 then s else r.1.emit (.readWord r.2))
  | .writeReg off v =>
    .next (if level < 2 then s else if off.toNat % 4 ≠ 0 then s.accErr 2 true 0x21 false off.toNat else s.debugWrite off.toNat v)
  | .readMem off len => .next (if level = 0 then s else s.bar2Read 0x21 0 off.toNat len)
  | .writeMem off data => .next (if level < 2 then s else s.bar2Write 0x21 0 off.toNat data false)
  | .settWrite off data => .next (if level < 2 then s else s.settWrite true off.toNat (data.take (262144 - off.toNat)))

end Sys2Proof.Machine
end

