-- ==== Sys2Proof/Machine/Dispatch.lean ====
section
/-! DEFINITION. The dispatch of the commands: one arm for each row of the table. -/

namespace Sys2Proof.Machine

def exec (i : Instr) (s : State) : Host.Outcome State Fault Refusal :=
  match i with
  | .registerWrite now fn off v be poisoned => Sys2Proof.Machine.execRegisterWrite now fn off v be poisoned s
  | .pairedValueRead now r => Sys2Proof.Machine.execPairedValueRead now r s
  | .bar2Read now fn off len => Sys2Proof.Machine.execBar2Read now fn off len s
  | .bar2Write now fn off data poisoned => Sys2Proof.Machine.execBar2Write now fn off data poisoned s
  | .accerrClear now => Sys2Proof.Machine.execAccerrClear now s
  | .cmRequestPromote now cl co bank req since => Sys2Proof.Machine.execCmRequestPromote now cl co bank req since s
  | .progTokenGrant now => Sys2Proof.Machine.execProgTokenGrant now s
  | .vectorLoad now cl co e => Sys2Proof.Machine.execVectorLoad now cl co e s
  | .enginePhase now cl co e => Sys2Proof.Machine.execEnginePhase now cl co e s
  | .readoutCopy now cl co e => Sys2Proof.Machine.execReadoutCopy now cl co e s
  | .chainAdd now cl co => Sys2Proof.Machine.execChainAdd now cl co s
  | .outputStage now cl co e => Sys2Proof.Machine.execOutputStage now cl co e s
  | .vxeRescale now cl co => Sys2Proof.Machine.execVxeRescale now cl co s
  | .partialSumAdd now cl co e => Sys2Proof.Machine.execPartialSumAdd now cl co e s
  | .engineClrCnt now cl co e => Sys2Proof.Machine.execEngineClrCnt now cl co e s
  | .ocuVectorService now cl => Sys2Proof.Machine.execOcuVectorService now cl s
  | .ocuEscalationService now cl => Sys2Proof.Machine.execOcuEscalationService now cl s
  | .ocuClrCnt now cl => Sys2Proof.Machine.execOcuClrCnt now cl s
  | .trackerUpdate now cl co e rg => Sys2Proof.Machine.execTrackerUpdate now cl co e rg s
  | .keepaliveBurst now cl co e rg => Sys2Proof.Machine.execKeepaliveBurst now cl co e rg s
  | .trackerFirstUpdate now cl co e rg => Sys2Proof.Machine.execTrackerFirstUpdate now cl co e rg s
  | .dacServeCluster now => Sys2Proof.Machine.execDacServeCluster now s
  | .converterCalibration now cl co e codesHit amplitudeOk offsetOk => Sys2Proof.Machine.execConverterCalibration now cl co e codesHit amplitudeOk offsetOk s
  | .twoPointCheck now cl co e within => Sys2Proof.Machine.execTwoPointCheck now cl co e within s
  | .trimRefreshDue now cl => Sys2Proof.Machine.execTrimRefreshDue now cl s
  | .touchupDue now cl co e rg => Sys2Proof.Machine.execTouchupDue now cl co e rg s
  | .touchupStep now cl co e rg low high => Sys2Proof.Machine.execTouchupStep now cl co e rg low high s
  | .owlWindowClose now cl slot => Sys2Proof.Machine.execOwlWindowClose now cl slot s
  | .relearn now fn cl slot => Sys2Proof.Machine.execRelearn now fn cl slot s
  | .sdacSpanRouteChange now byHost span route => Sys2Proof.Machine.execSdacSpanRouteChange now byHost span route s
  | .passageEnd now => Sys2Proof.Machine.execPassageEnd now s
  | .sdacFtwWrite now byHost v => Sys2Proof.Machine.execSdacFtwWrite now byHost v s
  | .sessionRequest now => Sys2Proof.Machine.execSessionRequest now s
  | .sessionGrant now => Sys2Proof.Machine.execSessionGrant now s
  | .sessionEnd now => Sys2Proof.Machine.execSessionEnd now s
  | .sessionTimeout now => Sys2Proof.Machine.execSessionTimeout now s
  | .loopcal now => Sys2Proof.Machine.execLoopcal now s
  | .loopcalDone now ohms => Sys2Proof.Machine.execLoopcalDone now ohms s
  | .tileStart now cl co u => Sys2Proof.Machine.execTileStart now cl co u s
  | .tileComplete now cl co d => Sys2Proof.Machine.execTileComplete now cl co d s
  | .stationPark now st => Sys2Proof.Machine.execStationPark now st s
  | .stationUnpark now st => Sys2Proof.Machine.execStationUnpark now st s
  | .migrationRequest now st cl co d image bases => Sys2Proof.Machine.execMigrationRequest now st cl co d image bases s
  | .tmvTransfer now cl co => Sys2Proof.Machine.execTmvTransfer now cl co s
  | .tmvTransferDone now cl co => Sys2Proof.Machine.execTmvTransferDone now cl co s
  | .tmvRetry now cl co => Sys2Proof.Machine.execTmvRetry now cl co s
  | .openContext now fn entry => Sys2Proof.Machine.execOpenContext now fn entry s
  | .closeContext now fn entry => Sys2Proof.Machine.execCloseContext now fn entry s
  | .contextClosed now ctx => Sys2Proof.Machine.execContextClosed now ctx s
  | .post now fn ctx => Sys2Proof.Machine.execPost now fn ctx s
  | .ingestJobStart now eng frame bad => Sys2Proof.Machine.execIngestJobStart now eng frame bad s
  | .ingestJobDone now eng => Sys2Proof.Machine.execIngestJobDone now eng s
  | .eccScrubWrite now word => Sys2Proof.Machine.execEccScrubWrite now word s
  | .eccCaptureClear now cl core => Sys2Proof.Machine.execEccCaptureClear now cl core s
  | .drainWindowClose now st => Sys2Proof.Machine.execDrainWindowClose now st s
  | .decisionWord now cl co => Sys2Proof.Machine.execDecisionWord now cl co s
  | .nop now cl th w => Sys2Proof.Machine.execNop now cl th w s
  | .movi now cl th w => Sys2Proof.Machine.execMovi now cl th w s
  | .movhi now cl th w => Sys2Proof.Machine.execMovhi now cl th w s
  | .add now cl th w => Sys2Proof.Machine.execAdd now cl th w s
  | .sub now cl th w => Sys2Proof.Machine.execSub now cl th w s
  | .and now cl th w => Sys2Proof.Machine.execAnd now cl th w s
  | .or now cl th w => Sys2Proof.Machine.execOr now cl th w s
  | .xor now cl th w => Sys2Proof.Machine.execXor now cl th w s
  | .addi now cl th w => Sys2Proof.Machine.execAddi now cl th w s
  | .shli now cl th w => Sys2Proof.Machine.execShli now cl th w s
  | .shri now cl th w => Sys2Proof.Machine.execShri now cl th w s
  | .cmp now cl th w => Sys2Proof.Machine.execCmp now cl th w s
  | .plog now cl th w => Sys2Proof.Machine.execPlog now cl th w s
  | .br now cl th w => Sys2Proof.Machine.execBr now cl th w s
  | .loop now cl th w => Sys2Proof.Machine.execLoop now cl th w s
  | .jr now cl th w => Sys2Proof.Machine.execJr now cl th w s
  | .ldw now cl th w => Sys2Proof.Machine.execLdw now cl th w s
  | .stw now cl th w => Sys2Proof.Machine.execStw now cl th w s
  | .copy now cl th w => Sys2Proof.Machine.execCopy now cl th w s
  | .copyDone now cl th => Sys2Proof.Machine.execCopyDone now cl th s
  | .fire now cl th w => Sys2Proof.Machine.execFire now cl th w s
  | .grantsLand now st => Sys2Proof.Machine.execGrantsLand now st s
  | .wait now cl th w w2 => Sys2Proof.Machine.execWait now cl th w w2 s
  | .waitResume now cl th => Sys2Proof.Machine.execWaitResume now cl th s
  | .waitTimeout now cl th => Sys2Proof.Machine.execWaitTimeout now cl th s
  | .bar now cl th w => Sys2Proof.Machine.execBar now cl th w s
  | .barrierRelease now g => Sys2Proof.Machine.execBarrierRelease now g s
  | .barrierTimeout now g => Sys2Proof.Machine.execBarrierTimeout now g s
  | .bcast now cl th w => Sys2Proof.Machine.execBcast now cl th w s
  | .bcastDeliver now g => Sys2Proof.Machine.execBcastDeliver now g s
  | .epw now cl th w => Sys2Proof.Machine.execEpw now cl th w s
  | .epa now cl th w w2 => Sys2Proof.Machine.execEpa now cl th w w2 s
  | .snap now cl th w => Sys2Proof.Machine.execSnap now cl th w s
  | .snapshotDone now cl th => Sys2Proof.Machine.execSnapshotDone now cl th s
  | .drst now cl th w => Sys2Proof.Machine.execDrst now cl th w s
  | .domainResetDone now cl th => Sys2Proof.Machine.execDomainResetDone now cl th s
  | .dwr now cl th w => Sys2Proof.Machine.execDwr now cl th w s
  | .cnt now cl th w => Sys2Proof.Machine.execCnt now cl th w s
  | .rdt now cl th w => Sys2Proof.Machine.execRdt now cl th w s
  | .mpost now cl th w => Sys2Proof.Machine.execMpost now cl th w s
  | .tmark now cl th w => Sys2Proof.Machine.execTmark now cl th w s
  | .halt now cl th w => Sys2Proof.Machine.execHalt now cl th w s
  | .threadStop now fn cl th => Sys2Proof.Machine.execThreadStop now fn cl th s
  | .threadRestart now fn cl th => Sys2Proof.Machine.execThreadRestart now fn cl th s
  | .threadExcClear now cl th => Sys2Proof.Machine.execThreadExcClear now cl th s
  | .stepperExcClear now cl co => Sys2Proof.Machine.execStepperExcClear now cl co s
  | .loadBitstream now fn entry bytes => Sys2Proof.Machine.execLoadBitstream now fn entry bytes s
  | .unload now fn entry => Sys2Proof.Machine.execUnload now fn entry s
  | .setQuota now fn entry => Sys2Proof.Machine.execSetQuota now fn entry s
  | .reclaimDeadline now st => Sys2Proof.Machine.execReclaimDeadline now st s
  | .claimRelease now t => Sys2Proof.Machine.execClaimRelease now t s
  | .importKey now fn tag addr => Sys2Proof.Machine.execImportKey now fn tag addr s
  | .load now fn tag addr len force => Sys2Proof.Machine.execLoad now fn tag addr len force s
  | .swap now fn tag st model layer shards opws table tableOff => Sys2Proof.Machine.execSwap now fn tag st model layer shards opws table tableOff s
  | .sweepLoad now fn tag st model layer shards opws table tableOff tiles => Sys2Proof.Machine.execSweepLoad now fn tag st model layer shards opws table tableOff tiles s
  | .erase now fn tag what => Sys2Proof.Machine.execErase now fn tag what s
  | .loaderJobStart now b data => Sys2Proof.Machine.execLoaderJobStart now b data s
  | .eraseStep now b cl co e rg clean => Sys2Proof.Machine.execEraseStep now b cl co e rg clean s
  | .programIteration now b cl co e accepted => Sys2Proof.Machine.execProgramIteration now b cl co e accepted s
  | .sweepTilesDone now st => Sys2Proof.Machine.execSweepTilesDone now st s
  | .readbackStart now b => Sys2Proof.Machine.execReadbackStart now b s
  | .readbackDone now b snaps drifted kmReadable settReadable => Sys2Proof.Machine.execReadbackDone now b snaps drifted kmReadable settReadable s
  | .readbackOverdue now n => Sys2Proof.Machine.execReadbackOverdue now n s
  | .wldErrClear now => Sys2Proof.Machine.execWldErrClear now s
  | .quadTransition now p a b => Sys2Proof.Machine.execQuadTransition now p a b s
  | .zEdge now p => Sys2Proof.Machine.execZEdge now p s
  | .lineEdge now e => Sys2Proof.Machine.execLineEdge now e s
  | .cycleEdge now e => Sys2Proof.Machine.execCycleEdge now e s
  | .cycleLoss now p => Sys2Proof.Machine.execCycleLoss now p s
  | .syncEdge now e => Sys2Proof.Machine.execSyncEdge now e s
  | .epochBoundary now ctx => Sys2Proof.Machine.execEpochBoundary now ctx s
  | .syncWindowEnd now ctx => Sys2Proof.Machine.execSyncWindowEnd now ctx s
  | .posPortConfig now p v => Sys2Proof.Machine.execPosPortConfig now p v s
  | .triggerArm now fn m v => Sys2Proof.Machine.execTriggerArm now fn m v s
  | .triggerDisarm now fn m v => Sys2Proof.Machine.execTriggerDisarm now fn m v s
  | .triggerFree now fn m => Sys2Proof.Machine.execTriggerFree now fn m s
  | .triggerFire now m => Sys2Proof.Machine.execTriggerFire now m s
  | .holdWrite now fn ctx hold => Sys2Proof.Machine.execHoldWrite now fn ctx hold s
  | .vfFlr now t => Sys2Proof.Machine.execVfFlr now t s
  | .vfFlrDone now t => Sys2Proof.Machine.execVfFlrDone now t s
  | .pfFlr now => Sys2Proof.Machine.execPfFlr now s
  | .pcieConventionalReset now => Sys2Proof.Machine.execPcieConventionalReset now s
  | .vfEnableChange now enable num => Sys2Proof.Machine.execVfEnableChange now enable num s
  | .commandDoorbell now fn prod entries => Sys2Proof.Machine.execCommandDoorbell now fn prod entries s
  | .commandAccept now fn => Sys2Proof.Machine.execCommandAccept now fn s
  | .cplHeadAdvance now fn head => Sys2Proof.Machine.execCplHeadAdvance now fn head s
  | .cmdRingEnable now fn size => Sys2Proof.Machine.execCmdRingEnable now fn size s
  | .hostReadTimeout now reader => Sys2Proof.Machine.execHostReadTimeout now reader s
  | .serviceAck now fn => Sys2Proof.Machine.execServiceAck now fn s
  | .mailboxBind now ch tmo v => Sys2Proof.Machine.execMailboxBind now ch tmo v s
  | .mailboxLock now => Sys2Proof.Machine.execMailboxLock now s
  | .mailboxPost now m ch nm1 => Sys2Proof.Machine.execMailboxPost now m ch nm1 s
  | .mailboxAck now m ch => Sys2Proof.Machine.execMailboxAck now m ch s
  | .mailboxTimeout now ch => Sys2Proof.Machine.execMailboxTimeout now ch s
  | .clrtmo now m ch => Sys2Proof.Machine.execClrtmo now m ch s
  | .flush now m ch => Sys2Proof.Machine.execFlush now m ch s
  | .indirectRead now t => Sys2Proof.Machine.execIndirectRead now t s
  | .indirectWrite now t v => Sys2Proof.Machine.execIndirectWrite now t v s
  | .linkLock now => Sys2Proof.Machine.execLinkLock now s
  | .linkPortEnable now p => Sys2Proof.Machine.execLinkPortEnable now p s
  | .linkTrainingDone now p lanes => Sys2Proof.Machine.execLinkTrainingDone now p lanes s
  | .linkUp now p => Sys2Proof.Machine.execLinkUp now p s
  | .linkRetry now p => Sys2Proof.Machine.execLinkRetry now p s
  | .flitCrcError now p crcFailed => Sys2Proof.Machine.execFlitCrcError now p crcFailed s
  | .replayTimeout now p => Sys2Proof.Machine.execReplayTimeout now p s
  | .idle now p f => Sys2Proof.Machine.execIdle now p f s
  | .tileHead now p f => Sys2Proof.Machine.execTileHead now p f s
  | .tileData now p f => Sys2Proof.Machine.execTileData now p f s
  | .tileAbort now p f => Sys2Proof.Machine.execTileAbort now p f s
  | .credit now p f => Sys2Proof.Machine.execCredit now p f s
  | .barrierFrame now p f => Sys2Proof.Machine.execBarrierFrame now p f s
  | .bcastFrame now p f => Sys2Proof.Machine.execBcastFrame now p f s
  | .mbxPostFrame now p f => Sys2Proof.Machine.execMbxPostFrame now p f s
  | .mbxAckFrame now p f => Sys2Proof.Machine.execMbxAckFrame now p f s
  | .timeFrame now p f => Sys2Proof.Machine.execTimeFrame now p f s
  | .nak now p f => Sys2Proof.Machine.execNak now p f s
  | .idFrame now p f => Sys2Proof.Machine.execIdFrame now p f s
  | .linkSendTile now p => Sys2Proof.Machine.execLinkSendTile now p s
  | .timeExchange now p stamps => Sys2Proof.Machine.execTimeExchange now p stamps s
  | .linkDown now p cause => Sys2Proof.Machine.execLinkDown now p cause s
  | .watchInputChange now n a b => Sys2Proof.Machine.execWatchInputChange now n a b s
  | .discrepancyFault now n => Sys2Proof.Machine.execDiscrepancyFault now n s
  | .clrReady now n => Sys2Proof.Machine.execClrReady now n s
  | .watchInputClear now n => Sys2Proof.Machine.execWatchInputClear now n s
  | .holdExpire now r => Sys2Proof.Machine.execHoldExpire now r s
  | .outputShort now n => Sys2Proof.Machine.execOutputShort now n s
  | .outputMismatch now n pin => Sys2Proof.Machine.execOutputMismatch now n pin s
  | .watchOutputClear now n pin => Sys2Proof.Machine.execWatchOutputClear now n pin s
  | .force now n v => Sys2Proof.Machine.execForce now n v s
  | .powerOn now found => Sys2Proof.Machine.execPowerOn now found s
  | .clusterFullService now cl => Sys2Proof.Machine.execClusterFullService now cl s
  | .dieReset now cause => Sys2Proof.Machine.execDieReset now cause s
  | .bear now => Sys2Proof.Machine.execBear now s
  | .bearEntryDone now => Sys2Proof.Machine.execBearEntryDone now s
  | .wake now => Sys2Proof.Machine.execWake now s
  | .wakeDone now => Sys2Proof.Machine.execWakeDone now s
  | .prepare now rtc committed => Sys2Proof.Machine.execPrepare now rtc committed s
  | .checkpointCommit now => Sys2Proof.Machine.execCheckpointCommit now s
  | .heartbeatLoss now => Sys2Proof.Machine.execHeartbeatLoss now s
  | .mgrWatchdog now => Sys2Proof.Machine.execMgrWatchdog now s
  | .mgrMemoryError now => Sys2Proof.Machine.execMgrMemoryError now s
  | .switch now => Sys2Proof.Machine.execSwitch now s
  | .mgrStandbyReady now => Sys2Proof.Machine.execMgrStandbyReady now s
  | .domainSwitchOn now d => Sys2Proof.Machine.execDomainSwitchOn now d s
  | .domainSwitchOff now d => Sys2Proof.Machine.execDomainSwitchOff now d s
  | .budgetRefill now base => Sys2Proof.Machine.execBudgetRefill now base s
  | .capWrite now v => Sys2Proof.Machine.execCapWrite now v s
  | .pmbusTelemetry now answers => Sys2Proof.Machine.execPmbusTelemetry now answers s
  | .smbalert now answers => Sys2Proof.Machine.execSmbalert now answers s
  | .regulatorRetry now n answer => Sys2Proof.Machine.execRegulatorRetry now n answer s
  | .regulatorClr now n => Sys2Proof.Machine.execRegulatorClr now n s
  | .avsAdjust now mv => Sys2Proof.Machine.execAvsAdjust now mv s
  | .avsMonitorWarning now mv => Sys2Proof.Machine.execAvsMonitorWarning now mv s
  | .sensorRead now temps => Sys2Proof.Machine.execSensorRead now temps s
  | .sensorCheck now => Sys2Proof.Machine.execSensorCheck now s
  | .bandChange now cl => Sys2Proof.Machine.execBandChange now cl s
  | .throttleStep now cl => Sys2Proof.Machine.execThrottleStep now cl s
  | .railUndervoltage now rail => Sys2Proof.Machine.execRailUndervoltage now rail s
  | .settWindowWrite now off data => Sys2Proof.Machine.execSettWindowWrite now off data s
  | .settCommit now => Sys2Proof.Machine.execSettCommit now s
  | .settDiscard now => Sys2Proof.Machine.execSettDiscard now s
  | .settCommitDone now => Sys2Proof.Machine.execSettCommitDone now s
  | .counterGroupUpdate now group counters => Sys2Proof.Machine.execCounterGroupUpdate now group counters s
  | .marginScan now weak dead => Sys2Proof.Machine.execMarginScan now weak dead s
  | .lcChangeRequest now key n => Sys2Proof.Machine.execLcChangeRequest now key n s
  | .lcBurnDone now burned => Sys2Proof.Machine.execLcBurnDone now burned s
  | .fwarbAdvance now target => Sys2Proof.Machine.execFwarbAdvance now target s
  | .fwarbBurnDone now burned => Sys2Proof.Machine.execFwarbBurnDone now burned s
  | .keystoreRequest now => Sys2Proof.Machine.execKeystoreRequest now s
  | .watchArm now fn entry => Sys2Proof.Machine.execWatchArm now fn entry s
  | .watchDisarm now fn entry => Sys2Proof.Machine.execWatchDisarm now fn entry s
  | .watchWindowClose now n => Sys2Proof.Machine.execWatchWindowClose now n s
  | .watchStatRead now n => Sys2Proof.Machine.execWatchStatRead now n s
  | .traceConsent now fn entry => Sys2Proof.Machine.execTraceConsent now fn entry s
  | .digestRegion now fn entry => Sys2Proof.Machine.execDigestRegion now fn entry s
  | .digestRegionDone now => Sys2Proof.Machine.execDigestRegionDone now s
  | .tencLatch now pf t => Sys2Proof.Machine.execTencLatch now pf t s
  | .traceEnable now en => Sys2Proof.Machine.execTraceEnable now en s
  | .traceDrainBlock now cl => Sys2Proof.Machine.execTraceDrainBlock now cl s
  | .evqPop now fn => Sys2Proof.Machine.execEvqPop now fn s
  | .eventCoalescedFlush now path => Sys2Proof.Machine.execEventCoalescedFlush now path s
  | .payloadFetchDone now b data => Sys2Proof.Machine.execPayloadFetchDone now b data s
  | .sweepBudgetReady now cl co e rg => Sys2Proof.Machine.execSweepBudgetReady now cl co e rg s
  | .keystoreRequestDone now => Sys2Proof.Machine.execKeystoreRequestDone now s
  | .triggerValueWrite now fn m which v => Sys2Proof.Machine.execTriggerValueWrite now fn m which v s
  | .posSyncConfig now v => Sys2Proof.Machine.execPosSyncConfig now v s
  | .watchInputConfig now n v => Sys2Proof.Machine.execWatchInputConfig now n v s
  | .diedomOffRequest now link off => Sys2Proof.Machine.execDiedomOffRequest now link off s
  | .avsEnableWrite now en => Sys2Proof.Machine.execAvsEnableWrite now en s
  | .perstRelease now => Sys2Proof.Machine.execPerstRelease now s
  | .railReturn now => Sys2Proof.Machine.execRailReturn now s
  | .flitReservedType now p ty f => Sys2Proof.Machine.execFlitReservedType now p ty f s
  | .debugPortAccess now access => Sys2Proof.Machine.execDebugPortAccess now access s

end Sys2Proof.Machine
end

