-- ==== Sys2Proof/Safety.lean ====
section
/-!
DEFINITION. The terms in which statements about the block speak: what it means that registers keep their values, that
memory keeps its bytes, that the data of the block is in its canonical form, and that a step is safe.
-/

namespace Sys2Proof.Machine
open Sys2Proof

/-- The canonical form of the image of all SRAM: rising addresses, and no entry that reads as an unlisted address does. -/
def Memory.wf (m : List Host.Cell) : Bool := smapWf memDefault m

/-- Every register field outside `w` holds in t what it holds in s. -/
def KeepsRegs (s t : State) (w : Fld → Nat → Bool) : Prop :=
  ∀ f i, w f i = false → t.getF f i = s.getF f i

/-- Every byte of SRAM outside `w` reads in t as it does in s. -/
def KeepsBytes (s t : State) (w : Nat → Bool) : Prop := ∀ a, w a = false → t.byte a = s.byte a

/-- Nothing is written. -/
def nowhere : Nat → Bool := fun _ => false

/-- t is s but for what raising events touches: the paths of events, trace rings, pending interrupts and what has been sent. -/
def State.reports (s t : State) : State :=
  { s with events := t.events, traces := t.traces, pba := t.pba, out := t.out }

/-- Every stored register value fits in the field it is stored for. -/
def FieldsFit (s : State) : Prop := ∀ f i, s.getF f i < 2 ^ f.width

/-- An instruction word of n words, one of them the opcode `op`, executes on thread i: the thread runs, its cluster's shared
domain is on, its words lie in the thread's region, its guard holds and no reserved field is set (R187 to R192). -/
def Issues (s : State) (i : Nat) (op : Nat) (w : Word) (n : Nat) : Prop :=
  let f := fieldsOf w
  s.thState i = 2 ∧ s.sharedOn (i / 8) = true ∧ s.inRegion i (s.pc i) = true ∧ s.inRegion i (s.pc i + n - 1) = true ∧
  f.op = op ∧ (f.g = false ∨ s.pred i f.p ≠ f.n) ∧ f.low &&& reservedMask f.op = 0

/-- t is s after an instruction of thread i that changes only registers of the thread and, where its mode asks, the trace. -/
def ThreadOnly (s t : State) (w : Fld → Nat → Bool) : Prop :=
  t = { s with regs := t.regs, traces := t.traces } ∧ KeepsRegs s t w

/-- An access over the BARs of a function arrives: PERST# is released, and a virtual function is enabled and not in reset (R296,
R318). -/
def Hosted (s : State) (fn : Nat) : Prop :=
  s.perst = false ∧ (fn = 0 ∨ ((s.fnst fn).enabled = true ∧ (s.fnst fn).flr = none))

/-- A flit that a port takes in: the lanes are trained and its FSEQ is the one expected (R334). -/
def InSequence (s : State) (p : Nat) (f : Flit) : Prop := s.portTrained p = true ∧ f.fseq.toNat = (s.link p).rx

/-- A frame that a port sends now leaves at once: the replay buffer has room and no frame waits for it (R334). -/
def State.sendsAtOnce (s : State) (p : Nat) : Prop := (s.link p).buf.length < 64 ∧ (s.link p).held = []

/-- What a port has done with such a flit before it looks at its type: the next FSEQ is expected and ACKSEQ acknowledges. -/
def State.taken (s : State) (p : Nat) (f : Flit) : State :=
  (s.setLink p { s.link p with rx := ((s.link p).rx + 1) % 4096 }).acked p f.ackseq.toNat

/-- An offset of PF BAR0 that is a register of its own: outside the Sett window, the windows of functions and the tenants' counter
pages, and no watch point, whose words STAT latches. -/
def plainOffset (off : Nat) : Bool :=
  off % 4 == 0 && (pfWindow off).isNone && (off < 0x640000 || (0x680000 ≤ off && off < 0x2000000)) &&
    !(0xB02000 ≤ off && off < 0xB03000)

/-- How many bytes of each of its output slots a finished tile takes, header and payload (R157, R159). -/
def State.tileBytes (s : State) (t : Tile) : Nat :=
  let y := s.station t.st
  64 + (if y.kind = 0 then 1024 * t.nvec
    else if y.kind = 6 || (y.kind = 5 && t.ins.length = 1) then s.hdrNvec t.src * vstride (s.hdrFmt t.src) (s.hdrNelem t.src)
    else t.nvec * vstride y.outFmt (s.freeNelem (t.outs.headD t.src) y.outFmt t.nvec))

/-- A step is safe: it gives a next state. -/
def Safe (s : State) : Prop := ∃ t, step s = .next t

end Sys2Proof.Machine
end

