-- ==== Sys2Proof/Certificates/Slice0/Obligations.lean ====
section
/-!
DEFINITION. What is stated of the block: each `Obligations.X` is a proposition for the provers, with the rule of the spec it
formalises or rests on.
-/

open Sys2Proof Sys2Proof.Machine

/-! ### Queue, totality and canonical data -/

/-- A step takes the command at the front of the queue and carries it out with the queue's rest. -/
def Obligations.StepTakesFrontCommand : Prop :=
  ∀ (c : Instr) (rest : List Instr) (s : State),
    step { s with pending := c :: rest } = exec c { s with pending := rest }

/-- On an empty queue the block idles (the model's choice, log entry 3). No command touches the queue of commands. -/
def Obligations.QueueIsKept : Prop :=
  (∀ s : State, s.pending = [] → step s = .next s) ∧
  (∀ (c : Instr) (s t : State), exec c s = .next t → t.pending = s.pending)

/-- Every command, whatever its operands, gives a next state from every state: no command is refused and none faults. -/
def Obligations.EveryCommandCompletes : Prop := ∀ (c : Instr) (s : State), ∃ t, exec c s = .next t

/-- The image of SRAM keeps its canonical form in every step. -/
def Obligations.StepKeepsMemoryCanonical : Prop :=
  ∀ s t : State, Memory.wf s.sram = true → step s = .next t → Memory.wf t.sram = true

/-- At reset no byte of SRAM is listed, and the image has its canonical form. -/
def Obligations.ResetMemoryCanonical : Prop :=
  Memory.wf State.reset.sram = true ∧ ∀ a, State.reset.byte a = 0#8

/-- Every register field holds a value of its width after every step if it did before. -/
def Obligations.StepKeepsFieldsFit : Prop :=
  ∀ s t : State, FieldsFit s → step s = .next t → FieldsFit t

/-- At reset every register field holds the reset value of its field table (R10), which fits its width. -/
def Obligations.ResetFieldsFit : Prop :=
  FieldsFit State.reset ∧ ∀ f i, State.reset.getF f i = f.info.rst

/-! ### Accesses to registers and memory -/

/-- REGISTER_WRITE of the physical function to a register whose domain is on, outside the windows of functions: every RW or RWL field
that no row of its own writes and no lock holds takes its bits, other fields keep their values. One that is not of one whole aligned
register stores nothing and is captured with KIND 2. -/
def Obligations.RegisterWriteStores : Prop :=
  (∀ (now : Nat) (off : BitVec 26) (v : Word) (s : State) (r : Reg) (i : Nat),
    off.toNat % 4 = 0 → s.perst = false → s.bar0On off.toNat = true → pfWindow off.toNat = none →
    regAt off.toNat = some (r, i) →
    ∃ t, exec (.registerWrite now 0 off v 0xF#4 false) s = .next t ∧
      (∀ f, f ∈ r.fields → (f.info.acc = .rw ∨ f.info.acc = .rwl) → f.info.own = false →
        (s.advance now).writeLocked 0x20 f i = false →
        t.getF f i = storedAs f i (bits v.toNat f.info.hi f.info.lo) % 2 ^ f.width) ∧
      (∀ f, f.info.acc = .ro → t.getF f i = s.getF f i) ∧
      KeepsRegs s t (fun f j => r.fields.contains f && j == i) ∧
      t = { s.advance now with regs := t.regs, trackers := t.trackers } ∧
      (r ≠ .WLD_SWEEPCFG → t.trackers = s.trackers)) ∧
  (∀ (now : Nat) (off : BitVec 26) (v : Word) (be : BitVec 4) (s : State),
    (be ≠ 0xF#4 ∨ off.toNat % 4 ≠ 0) → s.perst = false → s.bar0On off.toNat = true → s.bit .GCTL_ACCERR_VALID 0 = false →
    ∃ t, exec (.registerWrite now 0 off v be false) s = .next t ∧ t = { s.advance now with regs := t.regs } ∧
      t.getF .GCTL_ACCERR_VALID 0 = 1 ∧ t.getF .GCTL_ACCERR_KIND 0 = 2 ∧ t.getF .GCTL_ACCERR_WRITE 0 = 1 ∧
      t.getF .GCTL_ACCADDR_OFFSET 0 = off.toNat)

/-- A register access to a block whose domain is off stores nothing, and a read returns 0; the first such error after VALID
was cleared is captured with KIND 0. Only the first access error after VALID was cleared is captured; ACCERR_CLEAR clears
VALID and nothing else. -/
def Obligations.AccessErrors : Prop :=
  ((∀ (now : Nat) (off : BitVec 26) (v : Word) (s : State),
     off.toNat % 4 = 0 → s.perst = false → s.bar0On off.toNat = false → s.bit .GCTL_ACCERR_VALID 0 = false →
     ∃ t, exec (.registerWrite now 0 off v 0xF#4 false) s = .next t ∧ t = { s.advance now with regs := t.regs } ∧
       t.getF .GCTL_ACCERR_VALID 0 = 1 ∧ t.getF .GCTL_ACCERR_KIND 0 = 0 ∧ t.getF .GCTL_ACCERR_WRITE 0 = 1 ∧
       t.getF .GCTL_ACCADDR_OFFSET 0 = off.toNat ∧
       KeepsRegs s t (fun f _ => [Fld.GCTL_ACCERR_VALID, .GCTL_ACCERR_KIND, .GCTL_ACCERR_WRITE, .GCTL_ACCERR_MASTER,
         .GCTL_ACCADDR_BAR, .GCTL_ACCADDR_OFFSET].contains f)) ∧
   (∀ (now : Nat) (off : BitVec 26) (s : State),
     off.toNat % 4 = 0 → s.perst = false → s.bar0On off.toNat = false → s.bit .GCTL_ACCERR_VALID 0 = false →
     ∃ t, exec (.pairedValueRead now ⟨0, off⟩) s = .next t ∧ t = { s.advance now with regs := t.regs, out := t.out } ∧
       t.out = .readWord 0 :: s.out ∧ t.getF .GCTL_ACCERR_VALID 0 = 1 ∧ t.getF .GCTL_ACCERR_KIND 0 = 0 ∧
       t.getF .GCTL_ACCERR_WRITE 0 = 0 ∧ t.getF .GCTL_ACCADDR_OFFSET 0 = off.toNat)) ∧
  ((∀ (s : State) (kind master off : Nat) (w bar2 : Bool), s.bit .GCTL_ACCERR_VALID 0 = true →
     s.accErr kind w master bar2 off = s.setF .GCTL_ACCERR_OVERRUN 0 1) ∧
   (∀ (s : State) (kind master off : Nat) (w bar2 : Bool), s.bit .GCTL_ACCERR_VALID 0 = false →
     (s.accErr kind w master bar2 off).getF .GCTL_ACCERR_VALID 0 = 1 ∧
     (s.accErr kind w master bar2 off).getF .GCTL_ACCERR_KIND 0 = kind % 4 ∧
     (s.accErr kind w master bar2 off).getF .GCTL_ACCERR_MASTER 0 = master % 256 ∧
     (s.accErr kind w master bar2 off).getF .GCTL_ACCERR_WRITE 0 = w.toNat ∧
     (s.accErr kind w master bar2 off).getF .GCTL_ACCADDR_BAR 0 = bar2.toNat ∧
     (s.accErr kind w master bar2 off).getF .GCTL_ACCADDR_OFFSET 0 = off % 2 ^ 27 ∧
     (s.accErr kind w master bar2 off).getF .GCTL_ACCERR_OVERRUN 0 = s.getF .GCTL_ACCERR_OVERRUN 0) ∧
   (∀ (now : Nat) (s : State), s.perst = false →
     ∃ t, exec (.accerrClear now) s = .next t ∧ t.getF .GCTL_ACCERR_VALID 0 = 0 ∧
       KeepsRegs s t (fun f i => f == .GCTL_ACCERR_VALID && i == 0) ∧ t = { s.advance now with regs := t.regs }))

/-- PAIRED_VALUE_READ: a read of a low register of a pair returns its present value and latches the word above it; a read of the
high register then returns the latched word; another register reads as it stands. The indirect port: what the tenant may read is read as
the physical function reads it, what it may not reads 0 and counts in TENV_STAT.DENIED; a write of a register that a tenant reaches has
that register's effect, and any other counts and writes nothing. -/
def Obligations.PairedAndIndirectReads : Prop :=
  (∀ (now : Nat) (off : BitVec 26) (s : State) (r : Reg) (i : Nat),
     plainOffset off.toNat = true → s.perst = false → s.bar0On off.toNat = true → regAt off.toNat = some (r, i) →
     r ≠ .OBS_TW_STAT →
     (lowRegs.contains r = true →
       exec (.pairedValueRead now ⟨0, off⟩) s = .next
         { s.advance now with
           latches := smapSet 0 s.latches (off.toNat + 4) ((s.advance now).liveWord (off.toNat + 4) + 1)
           out := .readWord ((s.advance now).readReg r i) :: s.out }) ∧
     (lowRegs.contains r = false →
       exec (.pairedValueRead now ⟨0, off⟩) s = .next ((s.advance now).emit (.readWord
         (if smapGet 0 s.latches off.toNat = 0 then (s.advance now).readReg r i
          else smapGet 0 s.latches off.toNat - 1))))) ∧
  (∀ (now : Nat) (t : Fin 128) (s : State) (r : Reg) (i : Nat),
     s.perst = false → (s.fnst (t.val + 1)).enabled = true → (s.fnst (t.val + 1)).flr = none →
     regAt (s.iaddr (t.val + 1)) = some (r, i) →
     ((s.advance now).mayRead (t.val + 1) r i = false →
       exec (.indirectRead now t) s =
         .next (((s.advance now).addHold .TENV_STAT_DENIED (t.val + 1) 1).emit (.readWord 0))) ∧
     ((s.advance now).mayRead (t.val + 1) r i = true → (s.advance now).bar0On (s.iaddr (t.val + 1)) = true →
       plainOffset (s.iaddr (t.val + 1)) = true → r ≠ .OBS_TW_STAT → lowRegs.contains r = false →
       exec (.indirectRead now t) s = .next ((s.advance now).emit (.readWord
         (if smapGet 0 s.latches (s.iaddr (t.val + 1)) = 0 then (s.advance now).readReg r i
          else smapGet 0 s.latches (s.iaddr (t.val + 1)) - 1)))) ∧
     (∀ v : Word, r = .POS_CTX_CFG →
       exec (.indirectWrite now t v) s = .next ((s.advance now).holdWrite (t.val + 1) i (v.toNat.testBit 30))) ∧
     (∀ v : Word, r = .POS_TRG_CFG →
       exec (.indirectWrite now t v) s = .next ((s.advance now).trgWrite (t.val + 1) i v.toNat)) ∧
     (∀ v : Word, r = .CSQ_TH_CTL → (s.advance now).mayThread (t.val + 1) i = true →
       exec (.indirectWrite now t v) s = .next ((s.advance now).ctlWrite (t.val + 1) i v.toNat)) ∧
     (∀ v : Word, r = .CSQ_TH_CTL → (s.advance now).mayThread (t.val + 1) i = false →
       exec (.indirectWrite now t v) s = .next ((s.advance now).addHold .TENV_STAT_DENIED (t.val + 1) 1)) ∧
     (∀ v : Word, ¬ (r = .CSQ_TH_CTL ∨ r = .OWL_SCTL ∨ r = .POS_CTX_CFG ∨ r = .POS_TRG_CFG ∨ r = .POS_TRG_VALL ∨
         r = .POS_TRG_VALH ∨ r = .POS_TRG_PERIOD) →
       exec (.indirectWrite now t v) s = .next ((s.advance now).addHold .TENV_STAT_DENIED (t.val + 1) 1)))

/-- BAR2_READ of the physical function: a range whose memories are on and that holds no word in error is returned as it
stands, without the Poisoned bit, and nothing else changes. BAR2_WRITE of the physical function into memory that is on,
outside program memory and descriptor areas: every byte of the range takes its data and every other byte keeps its own; no register
changes but the states of slots of host-fed rings. A tenant's access over BAR2 that leaves its allocation is denied: a read aborts, a
write stores nothing, and TENV_STAT counts it. -/
def Obligations.Bar2Accesses : Prop :=
  (∀ (now : Nat) (off : BitVec 27) (len : Nat) (s : State),
     bar2Range off.toNat len 4096 = true → s.perst = false → s.rangeOn off.toNat len = true →
     (∀ w, w ∈ wordsOf off.toNat len → s.syndrome w = 0) →
     exec (.bar2Read now 0 off len) s = .next
       { s.advance now with out := .readBytes (s.bytes off.toNat len) false :: s.out }) ∧
  (∀ (now : Nat) (off : BitVec 27) (data : List Byte) (s : State),
     bar2Range off.toNat data.length 512 = true → s.perst = false → s.rangeOn off.toNat data.length = true →
     (∀ w, w ∈ wordsOf off.toNat data.length → s.syndrome w = 0 ∧ guarded (8 * w) = false) →
     ∃ t, exec (.bar2Write now 0 off data false) s = .next t ∧
       (∀ k, k < data.length → t.byte (off.toNat + k) = data.getD k 0) ∧
       KeepsBytes s t (fun a => decide (off.toNat ≤ a ∧ a < off.toNat + data.length)) ∧
       t = { s.advance now with sram := t.sram, ecc := t.ecc, regs := t.regs, rings := t.rings } ∧
       KeepsRegs s t (fun f _ => [Fld.KMC_SLOT_STATE, .CMC_SLOT_STATE].contains f) ∧
       ((∀ e, e ∈ s.rings → (s.ring (SlotRef.ofKey e.1)).prod ≠ 4096) → t.regs = s.regs ∧ t.rings = s.rings) ∧
       (∀ w, w ∈ wordsOf off.toNat data.length → t.syndrome w = 0)) ∧
  (∀ (now : Nat) (fn : Func) (off : BitVec 27) (len : Nat) (data : List Byte) (s : State),
     fn.val ≠ 0 → s.perst = false → (s.fnst fn.val).enabled = true → (s.fnst fn.val).flr = none →
     (bar2Range off.toNat len 4096 = true → s.bar2May fn.val off.toNat len = false →
       exec (.bar2Read now fn off len) s =
         .next (((s.advance now).addHold .TENV_STAT_DENIED fn.val 1).emit .completerAbort)) ∧
     (bar2Range off.toNat data.length 512 = true → s.bar2May fn.val off.toNat data.length = false →
       exec (.bar2Write now fn off data false) s = .next ((s.advance now).addHold .TENV_STAT_DENIED fn.val 1)))

/-! ### Matrix engines and the correction unit -/

/-- R98 as the manual writes it: the exact product, a shift that rounds ties away from zero, the offset, and the limits. -/
def Obligations.TableRescale : Prop :=
  ∀ (a mult offset : Int) (shift : Nat),
    let p := a * mult
    let r : Int := if shift = 0 then p else p.sign * (((p.natAbs + 2 ^ (shift - 1)) / 2 ^ shift : Nat) : Int)
    rescale a mult shift offset =
      if 32767 < r + offset then (32767, true) else if r + offset < -32767 then (-32767, true) else (r + offset, false)

/-- R58, beside R57: a conversion is the nearest code with ties away from zero, and where the quotient is at least +31.5 or at
most -32.5 LSB the converter saturates and delivers the limit on that side; at x1 no sum of 64 rows does. R60: under CLAMP the
saturated code is used at its limit and counts once. -/
def Obligations.ConverterSaturates : Prop :=
  ∀ (p : Int) (lsb : Nat), 0 < lsb →
    ((63 : Int) * lsb ≤ 2 * p → convert p lsb false = (31, true)) ∧
    (2 * p ≤ -65 * (lsb : Int) → convert p lsb false = (-32, true)) ∧
    (-65 * (lsb : Int) < 2 * p → 2 * p < (63 : Int) * lsb →
      ∃ c : Int, convert p lsb false = (c, false) ∧ -32 ≤ c ∧ c ≤ 31 ∧
        2 * (p - c * lsb).natAbs ≤ lsb ∧ (2 * (p - c * lsb).natAbs = lsb → (p.natAbs : Int) < c.natAbs * lsb)) ∧
    (∀ lo hi : Int, (63 : Int) * lsb ≤ 2 * (lo + hi) → ∀ covered,
      convPair lo hi lsb false 0 covered =
        { val := 31 * lsb, n := 1, clamps := 1, split := false, esc := false, miss := false }) ∧
    (∀ lo hi : Int, 2 * (lo + hi) ≤ -65 * (lsb : Int) → ∀ covered,
      convPair lo hi lsb false 0 covered =
        { val := -32 * lsb, n := 1, clamps := 1, split := false, esc := false, miss := false }) ∧
    (∀ x : Int, x.natAbs ≤ 14400 → (convert x 512 false).2 = false)

/-- VECTOR_LOAD of a tile's next vector into an engine with a free buffer, of a station none of whose requests the stepper holds: the
vector in that buffer is the tile's next, its 256 codes give its phases by zero detection, and the phases skipped are counted.
ENGINE_PHASE of a vector that may go on: the next phase is done, and the phase counter counts it, and a split slot beside it; the
vector stays in its buffer. A counter that was cleared in the very cycle counts nothing (R87). -/
def Obligations.VectorsRun : Prop :=
  (∀ (now : Nat) (cl : Cluster) (co : Core) (e : Fin 16) (s : State) (tl : Tile),
     let core := coreIx cl co
     let pe := s.physOf core e.val
     let x := s.engine pe
     let n (k : Nat) : Nat := if (s.advance now).cleared pe then 0 else k
     x.tile.bind (s.tileOf core) = some tl → x.nextV < tl.nvec → (x.cur = none ∨ x.nxt = none) →
     s.ocuStalls cl.val core x.station = false →
     ∃ (t : State) (v : Vec), exec (.vectorLoad now cl co e) s = .next t ∧
       (t.engine pe).cur = (if x.cur = none then some v else x.cur) ∧
       (t.engine pe).nxt = (if x.cur = none then x.nxt else some v) ∧
       v.d = tl.d ∧ v.v = x.nextV ∧ v.started = false ∧ v.codes.length = 256 ∧
       v.todo = (schedule (opwOf x.opw.toNat) (s.bringup cl.val) v.codes).1 ∧
       (t.engine pe).nextV = x.nextV + 1 ∧ (t.engine pe).acc = x.acc ∧ (t.engine pe).latch = x.latch ∧
       t.getF .ME_SKIPCNT_COUNT pe =
         (s.getF .ME_SKIPCNT_COUNT pe + n (schedule (opwOf x.opw.toNat) (s.bringup cl.val) v.codes).2) % 4294967296 ∧
       KeepsBytes s t nowhere ∧ t.tiles = s.tiles) ∧
  (∀ (now : Nat) (cl : Cluster) (co : Core) (e : Fin 16) (s : State) (vec : Vec) (ph : Phase) (rest : List Phase),
     let core := coreIx cl co
     let pe := s.physOf core e.val
     let n (k : Nat) : Nat := if (s.advance now).cleared pe then 0 else k
     (s.engine pe).cur = some vec → vec.todo = ph :: rest →
     (vec.started = true ∨ (s.engine pe).ran = false ∨ s.opWaits pe = false) →
     s.ocuStalls cl.val core (s.engine pe).station = false →
     ∃ (t : State) (v : Vec) (k : Nat), exec (.enginePhase now cl co e) s = .next t ∧
       (t.engine pe).cur = some v ∧ v.todo = rest ∧ v.started = true ∧ v.codes = vec.codes ∧ v.v = vec.v ∧
       k ≤ 1 ∧ t.getF .ME_PHCNT_COUNT pe = (s.getF .ME_PHCNT_COUNT pe + n (1 + k)) % 4294967296 ∧
       (t.engine pe).latch = (s.engine pe).latch ∧ KeepsBytes s t nowhere ∧ t.tiles = s.tiles ∧ t.stations = s.stations ∧
       KeepsRegs s t (fun f i =>
         ([Fld.ME_PHCNT_COUNT, .ME_SATCNT_COUNT, .ME_SPLITCNT_COUNT, .ME_ESCCNT_COUNT, .ME_ESCMISS_COUNT,
           .ME_ACCSAT_COUNT].contains f && i == pe) || (f == .OCU_STAT_HIWAT && i == cl.val)))

/-- READOUT_COPY when the last phase has been added and the latch is free: the latch takes the bank by column and the next
vector comes to the front. CHAIN_ADD of a chain all of whose latches hold the vector: the head's latch takes the exact sums,
saturated once, and the adder accepts its next sum 8 cycles later. -/
def Obligations.ReadoutAndChain : Prop :=
  (∀ (now : Nat) (cl : Cluster) (co : Core) (e : Fin 16) (s : State) (vec : Vec),
     let pe := s.physOf (coreIx cl co) e.val
     let x := s.engine pe
     x.cur = some vec → x.latch = none → vec.todo = [] → vec.ocu = 0 →
     ∃ (t : State) (l : Latch), exec (.readoutCopy now cl co e) s = .next t ∧
       (t.engine pe).latch = some l ∧ l.v = vec.v ∧ l.d = vec.d ∧
       l.vals = (List.range x.columns).map (smapGet 0 x.acc) ∧ l.summed = false ∧
       l.poison = vec.poison ∧ l.sat = vec.sat ∧ (t.engine pe).nxt = none ∧
       (t.engine pe).cur.map Vec.v = x.nxt.map Vec.v ∧ (x.nxt = none → (t.engine pe).acc = []) ∧
       t = { s.advance now with engines := t.engines, regs := t.regs } ∧
       KeepsRegs s t (fun f i => f == .ME_ACCSAT_COUNT && i == pe)) ∧
  (∀ (now : Nat) (cl : Cluster) (co : Core) (s : State) (at_ head di : Nat) (ls : List Latch),
     let core := coreIx cl co
     let d := s.desc core di
     let hp := s.physOf core d.head
     first (s.readyChains core) = some (at_, head, di) → s.chainReady core d di = some ls →
     smapGet 0 s.adderFree core ≤ now → s.time ≤ now →
     ∃ (t : State) (l : Latch), exec (.chainAdd now cl co) s = .next t ∧ (t.engine hp).latch = some l ∧ l.summed = true ∧
       l.vals = (List.range (s.engine hp).columns).map (fun j => (sat32 ((ls.map (fun x => x.vals.getD j 0)).sum)).1) ∧
       l.poison = ls.any Latch.poison ∧ smapGet 0 t.adderFree core = now + 8 ∧
       t = { s.advance now with engines := t.engines, regs := t.regs, adderFree := t.adderFree } ∧
       KeepsRegs s t (fun f i => f == .ME_ACCSAT_COUNT && i == hp))

/-- PARTIAL_SUM_ADD of a complete result whose partial-sum tiles are full: the partial sums are added once, saturated after each addition,
and where one counts as poison the result does. OUTPUT_STAGE and VXE_RESCALE of a complete result: one for the VXE is offered and keeps
its latch; one that is written frees the latch, its vector is among those its tile has done, and no byte changes outside that vector
of the output slot. -/
def Obligations.ResultsComplete : Prop :=
  (∀ (now : Nat) (cl : Cluster) (co : Core) (e : Fin 16) (s : State) (tl : Tile) (o : Opw) (l : Latch),
    let core := coreIx cl co
    let pe := s.physOf core e.val
    let ps := tl.parts.map (fun r => s.partial_ r l.v l.vals.length)
    s.resultOf core e.val = some (tl, o, l) → o.addin = true → l.padded = false →
    (∀ r, r ∈ tl.parts → s.slot r = 2 ∨ s.slot r = 3) →
    ∃ (t : State) (m : Latch), exec (.partialSumAdd now cl co e) s = .next t ∧ (t.engine pe).latch = some m ∧
      m.padded = true ∧ m.v = l.v ∧ m.poison = (l.poison || ps.any Option.isNone) ∧
      m.vals = (ps.filterMap id).foldl
        (fun (vs : List Int) p => vs.zipIdx.map (fun q => (sat32 (q.1 + p.getD q.2 0)).1)) l.vals ∧
      KeepsBytes s t nowhere) ∧
  (∀ (now : Nat) (cl : Cluster) (co : Core) (e : Fin 16) (s : State) (tl : Tile) (o : Opw) (l : Latch),
    let core := coreIx cl co
    let pe := s.physOf core e.val
    let stride := if o.out = 0 then vstride 0 (s.station tl.st).ncol else 1024
    s.resultOf core e.val = some (tl, o, l) → (o.addin = true → l.padded = true) →
    (o.out = 1 → exec (.outputStage now cl co e) s =
      .next ((s.advance now).setEngine pe { s.engine pe with latch := some { l with offered := true } })) ∧
    (o.out ≠ 1 → ∃ (t : State) (u : Tile), exec (.outputStage now cl co e) s = .next t ∧
      t.tileOf core tl.d = some u ∧ u.done = tl.done ++ [l.v] ∧ (t.engine pe).latch = none ∧
      KeepsBytes s t (fun a => match tl.outs.head? with
        | some r => decide (s.slotAddr r + 64 + l.v * stride ≤ a ∧ a < s.slotAddr r + 64 + l.v * stride + stride)
        | none => false))) ∧
  (∀ (now : Nat) (cl : Cluster) (co : Core) (s : State) (since e x : Nat) (tl : Tile) (o : Opw) (l : Latch),
    let core := coreIx cl co
    let y := s.station tl.st
    let stride := vstride y.outFmt y.ncol
    first (s.offered core) = some (since, e, x) → s.resultOf core e = some (tl, o, l) → y.outFmt ≤ 1 →
    ∃ (t : State) (u : Tile), exec (.vxeRescale now cl co) s = .next t ∧
      t.tileOf core tl.d = some u ∧ u.done = tl.done ++ [l.v] ∧ (t.engine (s.physOf core e)).latch = none ∧
      KeepsBytes s t (fun a => match tl.outs.head? with
        | some r => decide (s.slotAddr r + 64 + l.v * stride ≤ a ∧ a < s.slotAddr r + 64 + l.v * stride + stride)
        | none => false))

/-- CLR_CNT clears the seven counters of an engine, and that of an OCU its counters and HIWAT, while their domain is on; no
other register changes. The OCU serves the request at the head of its queue: the counter of its kind counts it and the unit is
busy for the cycles of Table 4.6, both holding at their maximum. CM_REQUEST_PROMOTE: a request that has waited 32 cycles joins the
promoted requests of its bank, which offset bits [7:5] name, unless its requester holds one there; promoted requests stand in the order
of their waiting, then by the level and the turn of Table 1.10. -/
def Obligations.CountersAndRequests : Prop :=
  ((∀ (now : Nat) (cl : Cluster) (co : Core) (e : Eng) (s : State), s.coreOn (coreIx cl co) = true →
     let cs := [Fld.ME_PHCNT_COUNT, .ME_SKIPCNT_COUNT, .ME_SATCNT_COUNT, .ME_SPLITCNT_COUNT, .ME_ESCCNT_COUNT,
       .ME_ESCMISS_COUNT, .ME_ACCSAT_COUNT]
     let pe := engIx (coreIx cl co) e.val
     ∃ t, exec (.engineClrCnt now cl co e) s = .next t ∧ (∀ f, f ∈ cs → t.getF f pe = 0) ∧ t.cleared pe = true ∧
       KeepsRegs s t (fun f i => cs.contains f && i == pe) ∧ t = { s.advance now with regs := t.regs, clrAt := t.clrAt } ∧
       (∀ k, k ≠ pe → smapGet 0 t.clrAt k = smapGet 0 s.clrAt k)) ∧
   (∀ (now : Nat) (cl : Cluster) (s : State), s.sharedOn cl.val = true →
     let cs := [Fld.OCU_VREQ_COUNT, .OCU_EREQ_COUNT, .OCU_STAT_HIWAT]
     ∃ t, exec (.ocuClrCnt now cl) s = .next t ∧ (∀ f, f ∈ cs → t.getF f cl.val = 0) ∧
       (t.ocu cl.val).busy = 0 ∧ (t.ocu cl.val).stall = 0 ∧ (t.ocu cl.val).queue = (s.ocu cl.val).queue ∧
       KeepsRegs s t (fun f i => cs.contains f && i == cl.val) ∧ t = { s.advance now with regs := t.regs, ocus := t.ocus })) ∧
  (∀ (now : Nat) (cl : Cluster) (s : State) (r : OcuReq) (rest : List OcuReq), (s.ocu cl.val).queue = r :: rest →
     (r.esc = false → ∃ t, exec (.ocuVectorService now cl) s = .next t ∧
       (t.ocu cl.val).busy = min ((s.ocu cl.val).busy + (20 + 4 * r.rows)) 4294967295 ∧
       t.getF .OCU_VREQ_COUNT cl.val = min (s.getF .OCU_VREQ_COUNT cl.val + 1) 4294967295 ∧
       t.getF .OCU_EREQ_COUNT cl.val = s.getF .OCU_EREQ_COUNT cl.val ∧ KeepsBytes s t nowhere ∧
       t = { s.advance now with engines := t.engines, regs := t.regs, ocus := t.ocus }) ∧
     (r.esc = true → ∃ t, exec (.ocuEscalationService now cl) s = .next t ∧
       (t.ocu cl.val).busy = min ((s.ocu cl.val).busy + 276) 4294967295 ∧
       t.getF .OCU_EREQ_COUNT cl.val = min (s.getF .OCU_EREQ_COUNT cl.val + 1) 4294967295 ∧
       t.getF .OCU_VREQ_COUNT cl.val = s.getF .OCU_VREQ_COUNT cl.val ∧ KeepsBytes s t nowhere ∧
       t = { s.advance now with engines := t.engines, regs := t.regs, ocus := t.ocus })) ∧
  ((∀ (now : Nat) (cl : Cluster) (co : Core) (off : BitVec 19) (req : Fin 24) (since : Nat) (s : State),
     s.coreOn (coreIx cl co) = true → since + 32 ≤ max s.time now →
     (s.advance now).cmWait.any
       (fun x => x.core == coreIx cl co && x.bank == off.toNat / 32 % 8 && x.req == req.val) = false →
     exec (.cmRequestPromote now cl co off req since) s = .next
       { s.advance now with
         cmWait := (s.advance now).cmWait ++
           [{ core := coreIx cl co, bank := off.toNat / 32 % 8, req := req.val, since := since }] }) ∧
   (∀ (last : SMap Nat) (a b : CmReq), a.before last b = true ↔ a.since < b.since ∨ (a.since = b.since ∧
     (cmLevel a.req < cmLevel b.req ∨ (cmLevel a.req = cmLevel b.req ∧ a.turn last < b.turn last)))))

/-! ### Accuracy, Owl and the DAC -/

/-- TRACKER_UPDATE at the end of a 1 ms interval, and TRACKER_FIRST_UPDATE of a provisional tracker with 64 gain samples: with too
few samples the interval waits for its burst; an update within its tests gives the filtered gain and offset and ends the
provisional state; another is counted as rejected and leaves both. An interval that ends while one waits is judged after it, on its own
samples. KEEPALIVE_BURST at a vector boundary with no operation of higher rank waiting, outside the times in which a burst waits for its
charge: the burst phases that bring the samples to 64 are counted, the interval is judged, and the next that waits is the first behind it
with too few samples. That a new interval begins with a first update is the model's choice (log entry 88). -/
def Obligations.TrackersAndKeepalive : Prop :=
  (∀ (now : Nat) (cl : Cluster) (co : Core) (e : Eng) (rg : RowGroup) (s : State),
     let pe := engIx (coreIx cl co) e.val
     let g := rgIx pe rg.val
     let x := s.tracker g
     let K := if x.retrim then 1 else 2 ^ filterOf (s.band (clOf pe))
     let m := x.cur.measure
     let updated (t : State) : Prop :=
       t.getF .ME_DTGAIN_PROV g = 0 ∧ t.getF .ME_DTGAIN_GAIN g = (m.gain (s.getF .ME_DTGAIN_GAIN g) K).toNat ∧
       t.getF .ME_DTOFS_OFFSET g = half (m.offset (int16Val (s.getF .ME_DTOFS_OFFSET g)) K) % 65536 ∧
       (t.tracker g).cur = Samples.none ∧ (t.tracker g).retrim = false ∧ KeepsBytes s t nowhere
     let rejected (t : State) : Prop :=
       t.getF .ME_DTGAIN_GAIN g = s.getF .ME_DTGAIN_GAIN g ∧ t.getF .ME_DTOFS_OFFSET g = s.getF .ME_DTOFS_OFFSET g ∧
       t.getF .ME_DTGAIN_REJECTS g = min (s.getF .ME_DTGAIN_REJECTS g + 1) (2 ^ Fld.ME_DTGAIN_REJECTS.width - 1) ∧
       (t.tracker g).cur = Samples.none ∧ KeepsBytes s t nowhere
     s.coreOn (coreIx cl co) = true → s.rgActive g = true →
     (x.since + 1000000 ≤ max s.time now →
       (x.deferred ≠ [] → exec (.trackerUpdate now cl co e rg) s = .next ((s.advance now).setTracker g
         { x with cur := Samples.none, since := x.since + 1000000, deferred := x.deferred ++ [x.cur] })) ∧
       (x.deferred = [] → x.cur.nGain < 64 → ∃ t, exec (.trackerUpdate now cl co e rg) s = .next t ∧
         t.tracker g = { x with cur := Samples.none, since := x.since + 1000000, deferred := [x.cur] } ∧
         (∀ k, k ≠ g → t.tracker k = s.tracker k) ∧ t = { s.advance now with trackers := t.trackers }) ∧
       (x.deferred = [] → 64 ≤ x.cur.nGain → m.ok = true → ∃ t, exec (.trackerUpdate now cl co e rg) s = .next t ∧
         updated t ∧ (t.tracker g).since = x.since + 1000000) ∧
       (x.deferred = [] → 64 ≤ x.cur.nGain → m.ok = false → ∃ t, exec (.trackerUpdate now cl co e rg) s = .next t ∧
         rejected t ∧ (t.tracker g).since = x.since + 1000000)) ∧
     (s.bit .ME_DTGAIN_PROV g = true → x.deferred = [] → 64 ≤ x.cur.nGain →
       (m.ok = true → ∃ t, exec (.trackerFirstUpdate now cl co e rg) s = .next t ∧ updated t ∧
         (t.tracker g).since = max s.time now) ∧
       (m.ok = false → ∃ t, exec (.trackerFirstUpdate now cl co e rg) s = .next t ∧ rejected t ∧
         (t.tracker g).since = max s.time now))) ∧
  (∀ (now : Nat) (cl : Cluster) (co : Core) (e : Eng) (rg : RowGroup) (s : State) (d : Samples) (ds : List Samples),
     let pe := engIx (coreIx cl co) e.val
     let g := rgIx pe rg.val
     (s.tracker g).deferred = d :: ds → s.coreOn (coreIx cl co) = true → (s.engine pe).boundary = true →
     s.waitsBeaver pe = false → s.waitsCal pe = false → s.waitsTouch pe = false → s.sparing cl.val = false →
     ∃ t, exec (.keepaliveBurst now cl co e rg) s = .next t ∧
       (t.tracker g).deferred = ds.dropWhile (fun x => decide (64 ≤ x.nGain)) ∧
       t.getF .ME_PHCNT_COUNT pe = (s.getF .ME_PHCNT_COUNT pe + (64 - d.nGain)) % 4294967296 ∧
       t.getF .ME_KACNT_COUNT pe = (s.getF .ME_KACNT_COUNT pe + (64 - d.nGain)) % 2 ^ Fld.ME_KACNT_COUNT.width ∧
       (t.engine pe).ran = false ∧ KeepsBytes s t nowhere ∧ t.cells = s.cells)

/-- DAC_SERVE_CLUSTER: the DAC, free and in no session, turns to the first cluster queued at the settings of the first gain
range, through the safe value, and serves it, an engine of the pass's position being on, outside the times in which it waits for the
charge; a two-point pass turns to full calibration where every engine of the position is flagged as failed. CONVERTER_CALIBRATION and
TWO_POINT_CHECK of an engine in hand: an attempt that passes gives new trims; one during which the temperature moved, or that fails its
tests, is discarded and flagged, and the third in succession ends it as failed; a two-point check outside its limits is flagged, and
full calibration of the engine follows. TRIM_REFRESH_DUE: with no pass of its own queued, a cluster one of whose engines has held its
trims for the interval of its band joins the DAC's queue with a two-point pass over its engines. -/
def Obligations.CalibrationRuns : Prop :=
  (∀ (now : Nat) (s : State) (c at_ : Nat) (rest : List (Nat × Nat)),
     let p := s.pass c
     let es := s.passEngines c p
     s.dac.queue = (at_, c) :: rest → s.dieOn 4 = true → s.dac.serving = none → s.bit .SDAC_STAT_OWNER 0 = false →
     s.bit .SDAC_STAT_PASSAGE 0 = false → s.sparing c = false → es ≠ [] →
     ∃ t, exec (.dacServeCluster now) s = .next t ∧
       t.getF .SDAC_FTW_FTW 0 = 13436000 ∧ t.getF .SDAC_LEVEL_AMP 0 = 4260 ∧ t.getF .SDAC_LEVEL_DC 0 = 3072 ∧
       t.getF .SDAC_CTL_SPAN 0 = 3 ∧ t.getF .SDAC_CTL_ROUTE 0 = c % 32 ∧ t.getF .SDAC_STAT_PASSAGE 0 = 1 ∧
       t.getF .SDAC_CTL_MODE 0 =
         (if p.full || es.all (fun pe => s.getF .ME_CALSTAT_RETRIES pe == 3) then 1 else 2) ∧
       t.dac.serving = some c ∧ t.dac.queue = rest ∧ KeepsBytes s t nowhere) ∧
  (∀ (now : Nat) (cl : Cluster) (co : Core) (e : Eng) (s : State),
     let c := cl.val
     let pe := engIx (coreIx cl co) e.val
     let others := (s.pass c).left.filter (fun x => x != pe)
     let discarded (t : State) (temp : Nat) : Prop :=
       t.getF .ME_CALSTAT_TEMP_FAIL pe = temp ∧ t.getF .ME_CALSTAT_SHAPE_FAIL pe = 1 - temp ∧ t.trims = s.trims ∧
       (s.getF .ME_CALSTAT_RETRIES pe < 2 → t.getF .ME_CALSTAT_RETRIES pe = s.getF .ME_CALSTAT_RETRIES pe + 1) ∧
       (s.getF .ME_CALSTAT_RETRIES pe = 2 → others ≠ [] →
         t.getF .ME_CALSTAT_STATE pe = 5 ∧ t.getF .ME_CALSTAT_RETRIES pe = 3 ∧ (t.pass c).left = others) ∧
       KeepsBytes s t nowhere
     (s.calRuns c pe true = true →
       (s.tempMoved c pe = false → ∃ t, exec (.converterCalibration now cl co e true true true) s = .next t ∧
         t.getF .ME_CALSTAT_BAND pe = s.band c % 2 ^ Fld.ME_CALSTAT_BAND.width ∧ t.getF .ME_CALSTAT_RETRIES pe = 0 ∧
         t.getF .ME_CALSTAT_TEMP_FAIL pe = 0 ∧ t.getF .ME_CALSTAT_SHAPE_FAIL pe = 0 ∧
         t.trimOf pe = { hist := s.fresh + 1, refined := 0, at_ := max s.time now } ∧
         (∀ k, k ≠ pe → t.trimOf k = s.trimOf k) ∧
         (others ≠ [] → t.getF .ME_CALSTAT_STATE pe = 1 ∧ (t.pass c).left = others) ∧ KeepsBytes s t nowhere) ∧
       (∀ hit amp ofs : Bool, s.tempMoved c pe = true → ∃ t, exec (.converterCalibration now cl co e hit amp ofs) s = .next t ∧
         discarded t 1) ∧
       (∀ hit amp ofs : Bool, s.tempMoved c pe = false → (hit && amp && ofs) = false →
         ∃ t, exec (.converterCalibration now cl co e hit amp ofs) s = .next t ∧ discarded t 0)) ∧
     (s.calRuns c pe false = true →
       (s.tempMoved c pe = false → ∃ t, exec (.twoPointCheck now cl co e true) s = .next t ∧
         t.getF .ME_CALSTAT_QCHECK_FAIL pe = 0 ∧
         t.trimOf pe = { s.trimOf pe with refined := s.fresh + 1, at_ := max s.time now } ∧
         (others ≠ [] → t.getF .ME_CALSTAT_STATE pe = 2) ∧ KeepsBytes s t nowhere) ∧
       (s.tempMoved c pe = false → ∃ t, exec (.twoPointCheck now cl co e false) s = .next t ∧
         t.getF .ME_CALSTAT_QCHECK_FAIL pe = 1 ∧ t.trims = s.trims ∧
         (others ≠ [] → pe ∈ (t.pass c).redo) ∧ KeepsBytes s t nowhere) ∧
       (∀ within : Bool, s.tempMoved c pe = true → ∃ t, exec (.twoPointCheck now cl co e within) s = .next t ∧
         discarded t 1))) ∧
  (∀ (now : Nat) (cl : Cluster) (s : State) (k : Nat),
     let pe := 136 * cl.val + k
     k < 136 → s.coreOn (coreOf pe) = true → (s.trimOf pe).at_ + refreshOf (s.band cl.val) ≤ max s.time now →
     s.passQ cl.val = [] →
     ∃ t, exec (.trimRefreshDue now cl) s = .next t ∧
       t.passQ cl.val = [{ CalPass.idle with band := s.band cl.val, pos := 0, since := max s.time now }] ∧
       (s.dac.serving ≠ some cl.val → t.dac.queue.any (fun x => x.2 == cl.val) = true) ∧
       t = { s.advance now with passes := t.passes, regs := t.regs, dac := t.dac } ∧
       KeepsRegs s t (fun f _ => f == .ME_CALSTAT_STATE))

/-- TOUCHUP_DUE and TOUCHUP_STEP: a row group with weights whose account is full, or for which an early touch-up is pending,
is due and asks for a programming token; a step that holds one moves on at a vector boundary: a pulse step follows a verify step that
found low cells, the row ends when it finds none or after the third pulse, and the touch-up ends with row 63, when it adds 0.1 to the
cycles of the row group. PROG_TOKEN_GRANT: while a token of the pool is free the first request gets it, in the times in which a step
waits for its charge once the charge is in the cluster's account. -/
def Obligations.TouchupsRun : Prop :=
  ((∀ (now : Nat) (cl : Cluster) (co : Core) (e : Eng) (rg : RowGroup) (s : State),
     let pe := engIx (coreIx cl co) e.val
     let g := rgIx pe rg.val
     s.holdsWeights g = true → (s.tracker g).due = false →
     ((s.getF .ME_CALSTAT_EARLY_TU pe).testBit rg.val = true ∨
       54432000000000000 ≤ (s.advance now).touchAccount pe rg.val) →
     ∃ t, exec (.touchupDue now cl co e rg) s = .next t ∧ (t.tracker g).due = true ∧ (t.tracker g).row = 0 ∧
       (t.tracker g).steps = 0 ∧ (pe ∈ t.tokenHeld ∨ t.tokenWait.any (fun q => q.engine == pe) = true) ∧
       t.getF .GCTL_PWRST_CLEAN 0 = 0 ∧
       t = { s.advance now with regs := t.regs, shutRec := t.shutRec, trackers := t.trackers, tokenWait := t.tokenWait } ∧
       KeepsRegs s t (fun f i => f == .GCTL_PWRST_CLEAN && i == 0)) ∧
   (∀ (now : Nat) (cl : Cluster) (co : Core) (e : Eng) (rg : RowGroup) (low high : List (Fin 276)) (s : State),
     let pe := engIx (coreIx cl co) e.val
     let g := rgIx pe rg.val
     let x := s.tracker g
     x.due = true → pe ∈ s.tokenHeld → s.coreOn (coreIx cl co) = true → (s.engine pe).boundary = true →
     s.waitsBeaver pe = false → s.waitsCal pe = false → s.readingBack g = false →
     (x.steps % 2 = 1 → ∃ t, exec (.touchupStep now cl co e rg low high) s = .next t ∧
       t.tracker g = { x with steps := x.steps + 1 } ∧ t.tokenHeld = s.tokenHeld.erase pe ∧ t.cells = s.cells ∧
       t.regs = s.regs ∧ KeepsBytes s t nowhere) ∧
     (x.steps % 2 = 0 → low ≠ [] → x.steps ≠ 6 → ∃ t, exec (.touchupStep now cl co e rg low []) s = .next t ∧
       t.tracker g = { x with steps := x.steps + 1 } ∧ t.tokenHeld = s.tokenHeld.erase pe ∧ t.cells = s.cells ∧
       t.regs = s.regs ∧ KeepsBytes s t nowhere) ∧
     (x.steps % 2 = 0 → x.row ≠ 63 → ∃ t, exec (.touchupStep now cl co e rg [] []) s = .next t ∧
       t.tracker g = { x with steps := 0, row := x.row + 1 } ∧ t.regs = s.regs ∧ KeepsBytes s t nowhere) ∧
     (x.steps % 2 = 0 → x.row = 63 → ∃ t, exec (.touchupStep now cl co e rg [] []) s = .next t ∧
       (t.tracker g).due = false ∧ (t.tracker g).account = 0 ∧
       t.getF .ME_RGSTAT_CYC10 g = min (s.getF .ME_RGSTAT_CYC10 g + 1) 1048575 ∧
       (t.getF .ME_CALSTAT_EARLY_TU pe).testBit rg.val = false))) ∧
  (∀ (now : Nat) (s : State) (r : TokenReq),
     let c := clOf r.engine
     let e := Config.freeNat s.fresh
     s.firstToken = some r → s.tokenHeld.length < s.tokenPool →
     (s.sparing c = false → exec (.progTokenGrant now) s = .next
       { s.advance now with tokenWait := s.tokenWait.erase r, tokenHeld := s.tokenHeld ++ [r.engine] }) ∧
     (s.sparing c = true → e ≤ smapGet 0 s.accounts c → exec (.progTokenGrant now) s = .next
       { s.advance now with
         fresh := s.fresh + 1
         accounts := smapSet 0 s.accounts c (smapGet 0 s.accounts c - e)
         tokenWait := s.tokenWait.erase r
         tokenHeld := s.tokenHeld ++ [r.engine] }))

/-- OWL_WINDOW_CLOSE: the statistics of the window's elements are written, NaN where it held none, and the next window begins;
in warm-up the window counts, and the sixteenth arms the slot; a statistic outside a limit, or an empty window, is an alarm.
RELEARN of a bound slot by the physical function or the owner of its station: the slot is back in warm-up and its partial
window is discarded; another tenant's write is denied. -/
def Obligations.OwlWatches : Prop :=
  (∀ (now : Nat) (cl : Cluster) (slot : Fin 32) (s : State),
     let i := 32 * cl.val + slot.val
     let o := s.owl i
     s.sharedOn cl.val = true → s.bit .OWL_SCFG_EN i = true → 256 ≤ o.tiles →
     ∃ t, exec (.owlWindowClose now cl slot) s = .next t ∧
       (∀ bs, o.stats = some bs → t.getF .OWL_SMEAN_VALUE i = bs.getD 0 0 % 4294967296 ∧
         t.getF .OWL_SVAR_VALUE i = bs.getD 1 0 % 4294967296 ∧ t.getF .OWL_SMIN_VALUE i = bs.getD 2 0 % 4294967296 ∧
         t.getF .OWL_SMAX_VALUE i = bs.getD 3 0 % 4294967296 ∧ t.getF .OWL_SSTAT_EMPTY i = 0) ∧
       (o.count = 0 → t.getF .OWL_SMEAN_VALUE i = 0x7FC00000 ∧ t.getF .OWL_SSTAT_EMPTY i = 1 ∧
         t.getF .OWL_SALMCNT_COUNT i = min (s.getF .OWL_SALMCNT_COUNT i + 1) (2 ^ Fld.OWL_SALMCNT_COUNT.width - 1)) ∧
       (t.owl i).tiles = 0 ∧ (t.owl i).count = 0 ∧
       (s.getF .OWL_SSTAT_STATE i = 2 → t.getF .OWL_SSTAT_STATE i = 2 ∧ (t.owl i).lo = o.lo ∧ (t.owl i).hi = o.hi) ∧
       (s.getF .OWL_SSTAT_STATE i = 1 → s.getF .OWL_SSTAT_WARM i = 15 → t.getF .OWL_SSTAT_STATE i = 2) ∧
       (s.getF .OWL_SSTAT_STATE i = 1 → s.getF .OWL_SSTAT_WARM i < 15 → t.getF .OWL_SSTAT_STATE i = 1 ∧
         t.getF .OWL_SSTAT_WARM i = s.getF .OWL_SSTAT_WARM i + 1) ∧
       KeepsBytes s t nowhere ∧ t.stations = s.stations) ∧
  (∀ (now : Nat) (fn : Func) (cl : Cluster) (slot : Fin 32) (s : State),
     let i := 32 * cl.val + slot.val
     Hosted s fn.val →
     ((fn.val = 0 ∨ s.ownsOwl fn.val i = true) → s.sharedOn cl.val = true → s.bit .OWL_SCFG_EN i = true →
       ∃ t, exec (.relearn now fn cl slot) s = .next t ∧ t.getF .OWL_SSTAT_STATE i = 1 ∧ t.getF .OWL_SSTAT_WARM i = 0 ∧
         (t.owl i).tiles = 0 ∧ (t.owl i).lo = [none, none, none, none, none] ∧
         t = { s.advance now with regs := t.regs, owls := t.owls } ∧
         KeepsRegs s t (fun f j => [Fld.OWL_SSTAT_STATE, .OWL_SSTAT_WARM].contains f && j == i)) ∧
     (fn.val ≠ 0 → s.ownsOwl fn.val i = false →
       exec (.relearn now fn cl slot) s = .next ((s.advance now).addHold .TENV_STAT_DENIED fn.val 1)))

/-- The stimulus DAC's span, route and frequency: the physical function writes them only in its session, with CALOUT as its
route, and the management processor only outside one; a change of span or route passes through the safe value for 1,004 ns, a
frequency is held to its limit, and a foreign write changes nothing. A board-test session: it is requested, granted when no
calibration runs or waits and no start is in progress, and over when its request is taken back or 100 ms have passed; then the
DAC has no destination and puts out the safe value. Loopback calibration runs only in a session, and its result tells what the
load sensed: missing above 2,000 ohms, wrong outside 180 to 220 ohms, else measured, when the new span trims also go to Sett. At most one
destination carries current, and none while DIE.DAC is off. -/
def Obligations.DacUse : Prop :=
  (∀ (s : State) (d e : DacDest), (s.current d ≠ 0 → s.current e ≠ 0 → d = e) ∧ (s.dieOn 4 = false → s.current d = 0)) ∧
  ((∀ (now : Nat) (byHost : Bool) (span : BitVec 2) (route : BitVec 5) (s : State),
     let old := s.getF .SDAC_CTL_ROUTE 0
     let dest := if byHost && route.toNat != 0x10 then old else route.toNat
     s.dieOn 4 = true →
     (s.bit .SDAC_STAT_OWNER 0 = byHost → (s.advance now).spanNow = span.toNat → old = dest →
       exec (.sdacSpanRouteChange now byHost span route) s = .next (s.advance now)) ∧
     (s.bit .SDAC_STAT_OWNER 0 = byHost → ((s.advance now).spanNow ≠ span.toNat ∨ old ≠ dest) → old < 32 →
       ∃ t, exec (.sdacSpanRouteChange now byHost span route) s = .next t ∧ t.getF .SDAC_CTL_SPAN 0 = span.toNat ∧
         t.getF .SDAC_CTL_ROUTE 0 = dest ∧ t.getF .SDAC_STAT_PASSAGE 0 = 1 ∧ (max s.time now) + 1004 ≤ t.dac.passUntil ∧
         t.dacCode = 8192 ∧ t = { s.advance now with regs := t.regs, dac := t.dac } ∧
         KeepsRegs s t (fun f i => [Fld.SDAC_CTL_SPAN, .SDAC_CTL_ROUTE, .SDAC_STAT_PASSAGE].contains f && i == 0)) ∧
     (s.bit .SDAC_STAT_OWNER 0 ≠ byHost → exec (.sdacSpanRouteChange now byHost span route) s = .next (s.advance now))) ∧
   (∀ (now : Nat) (s : State), s.bit .SDAC_STAT_PASSAGE 0 = true → s.dac.passUntil ≤ now →
     exec (.passageEnd now) s = .next ((s.advance now).setF .SDAC_STAT_PASSAGE 0 0)) ∧
   (∀ (now : Nat) (byHost : Bool) (v : Word) (s : State), s.dieOn 4 = true →
     (s.bit .SDAC_STAT_OWNER 0 = byHost → ∃ t, exec (.sdacFtwWrite now byHost v) s = .next t ∧
       t.getF .SDAC_FTW_FTW 0 = min v.toNat 0x33333333 ∧ t = { s.advance now with regs := t.regs } ∧
       KeepsRegs s t (fun f i => f == .SDAC_FTW_FTW && i == 0)) ∧
     (s.bit .SDAC_STAT_OWNER 0 ≠ byHost → exec (.sdacFtwWrite now byHost v) s = .next (s.advance now)))) ∧
  (∀ (now : Nat) (s : State),
     let over_ (t : State) : Prop := t.getF .SDAC_CTL_SESSION 0 = 0 ∧ t.getF .SDAC_STAT_OWNER 0 = 0 ∧
       t.getF .SDAC_STAT_LOOPBUSY 0 = 0 ∧ t.getF .SDAC_CTL_MODE 0 = 0 ∧ t.getF .SDAC_CTL_ROUTE 0 = 0x1F ∧
       t.dacCode = 8192 ∧ t = { s.advance now with regs := t.regs, dac := t.dac }
     s.dieOn 4 = true →
     (exec (.sessionRequest now) s = .next ((s.advance now).setF .SDAC_CTL_SESSION 0 1)) ∧
     (s.bit .SDAC_CTL_SESSION 0 = true → s.bit .SDAC_STAT_OWNER 0 = false → s.dac.serving = none → s.dac.queue = [] →
       s.starting = false → ∃ t, exec (.sessionGrant now) s = .next t ∧ t.getF .SDAC_STAT_OWNER 0 = 1 ∧
         t.dac.granted = max s.time now ∧ t = { s.advance now with regs := t.regs, dac := t.dac } ∧
         KeepsRegs s t (fun f i => f == .SDAC_STAT_OWNER && i == 0)) ∧
     (s.bit .SDAC_STAT_OWNER 0 = true → ∃ t, exec (.sessionEnd now) s = .next t ∧ over_ t) ∧
     (s.bit .SDAC_STAT_OWNER 0 = true → s.dac.granted + 100000000 ≤ now → ∃ t, exec (.sessionTimeout now) s = .next t ∧ over_ t)) ∧
  ((∀ (now : Nat) (s : State), s.dieOn 4 = true →
     (s.bit .SDAC_STAT_OWNER 0 = true → exec (.loopcal now) s = .next
       { (s.advance now).setF .SDAC_STAT_LOOPBUSY 0 1 with dac := { (s.advance now).dac with loop := max s.time now } }) ∧
     (s.bit .SDAC_STAT_OWNER 0 = false → exec (.loopcal now) s = .next (s.advance now))) ∧
   (∀ (now ohms : Nat) (s : State), s.bit .SDAC_STAT_LOOPBUSY 0 = true →
     ∃ t, exec (.loopcalDone now ohms) s = .next t ∧ t.getF .SDAC_STAT_LOOPBUSY 0 = 0 ∧
       t.getF .SDAC_LOAD_OHMS 0 = min ohms 65535 ∧
       t.getF .SDAC_STAT_RESULT 0 = (if 2000 < ohms then 1 else if ohms < 180 ∨ 220 < ohms then 2 else 3) ∧
       (180 ≤ ohms → ohms ≤ 220 → t.dac.spanTrim = t.dac.settTrim ∧ t.dac.spanTrim.length = 4) ∧
       ((ohms < 180 ∨ 220 < ohms) → t.dac.spanTrim = s.dac.spanTrim) ∧ KeepsBytes s t nowhere ∧
       KeepsRegs s t (fun f i => [Fld.SDAC_STAT_LOOPBUSY, .SDAC_LOAD_OHMS, .SDAC_STAT_RESULT].contains f && i == 0)))

/-! ### Stations and tiles -/

/-- TILE_START starts the station that R201 picks on its unit set, where the core is on, not in its reset and not stopped by a
snapshot. It takes a grant and the tile, whose slot it reads: with its window full a tile in progress for its descriptor begins with the
vectors of the newest header; with the window short the tile joins it; a torn tile gives no output and its slot is Empty; a merge
takes the matched tiles of all its routes. An invalid descriptor raises the exception DESCRIPTOR and parks the station. -/
def Obligations.TileStarts : Prop :=
  ∀ (now : Nat) (cl : Cluster) (co : Core) (u : Fin 20) (s : State) (d : Nat),
    let core := coreIx cl co
    let v := (s.advance now).latchAll.changesHeld core
    let w := if u.val = 19 then v.alignMerges core else v
    let x := w.desc core d
    let y := w.station x.station
    s.coreOn core = true → s.frozen core = false → s.getF .STP_STAT_STATE core ≠ 3 → w.pick core u.val = some d →
    w.tileOf core d = none →
    (∀ h, x.reason = none → x.merge = false → x.inRings core = [h] →
      let r := w.nextRd h
      ∃ t, exec (.tileStart now cl co u) s = .next t ∧ (t.station x.station).grants = y.grants - 1 ∧
        (t.station x.station).taken = w.hdrSeq r ∧ t.getF .STP_STAT_DIDX core = d % 64 ∧ KeepsBytes w t nowhere ∧
        (s.snapHeld = [] → KeepsBytes s t nowhere) ∧
        (w.torn r = false → x.window ≤ y.window.length + 1 →
          ∃ tl, t.tileOf core d = some tl ∧ tl.st = x.station ∧ tl.src = r ∧ tl.nvec = w.hdrNvec r ∧ tl.done = []) ∧
        (w.torn r = false → y.window.length + 1 < x.window →
          t.tileOf core d = none ∧ (t.station x.station).window = y.window ++ [r] ∧ (x.partRings core = [] → t.slot r = 3)) ∧
        (w.torn r = true → x.window ≤ 1 → x.partRings core = [] →
          t.tileOf core d = none ∧ t.slot r = 0 ∧ t.torn r = false)) ∧
    (x.reason = none → x.merge = true → (∀ h, h ∈ x.inRings core → w.torn (w.nextRd h) = false) →
      ∃ (t : State) (tl : Tile), exec (.tileStart now cl co u) s = .next t ∧ t.tileOf core d = some tl ∧
        tl.st = x.station ∧ tl.ins = (x.inRings core).map w.nextRd ∧ (t.station x.station).grants = y.grants - 1 ∧
        KeepsBytes w t nowhere) ∧
    (∀ r, x.reason = some r → w.bit .STP_EXC_VALID core = false → y.state ≠ 0 →
      ∃ t, exec (.tileStart now cl co u) s = .next t ∧ t.getF .STP_EXC_VALID core = 1 ∧
        t.getF .STP_EXC_REASON core = r % 2 ^ Fld.STP_EXC_REASON.width ∧ t.getF .STP_EXC_DIDX core = d % 64 ∧
        Hold.descriptor ∈ (t.station x.station).holds ∧ KeepsBytes w t nowhere ∧ t.tiles = w.tiles)

/-- TILE_COMPLETE of a tile whose unit set has done its work: the tile is no longer in progress, its input slots are released and
its output slot is Full; the engines' weights, the shards and the partitions stay as they are, and only the bytes of the output
slots are written. DECISION_WORD goes to the rule matcher once, with the PROVISIONAL flag of its tile. -/
def Obligations.TilesEnd : Prop :=
  (∀ (now : Nat) (cl : Cluster) (co : Core) (d : Fin 64) (s : State) (tl : Tile),
     let core := coreIx cl co
     let n := s.tileBytes tl
     s.tileOf core d.val = some tl → s.coreOn core = true → (s.advance now).tileDone core tl = true →
     ∃ t, exec (.tileComplete now cl co d) s = .next t ∧ t.tileOf core d.val = none ∧
       (∀ r, r ∈ tl.gone ++ tl.parts → t.slot r = if (t.ringOf r).isSome then 0 else 4) ∧
       (∀ r, tl.outs = [r] → (tl.old = false ∨ (s.station tl.st).drain.isSome = true) →
         (∀ h, s.ringOf r = some h → (s.ring h).owed = []) →
         (∀ q, q ∈ tl.gone ++ tl.parts → q.km ≠ r.km ∨ q.inst ≠ r.inst) → t.slot r = 2) ∧
       t.cells = s.cells ∧ t.shards = s.shards ∧
       (tl.old = false → tl.oldCopy = false →
         (∀ r, r ∈ tl.outs → s.slotAddr r + n ≤ s.slotAddr tl.src ∨ s.slotAddr tl.src + 64 ≤ s.slotAddr r) →
         t.parts = s.parts ∧
         KeepsBytes s t (fun a => tl.outs.any (fun r => s.slotAddr r ≤ a && a < s.slotAddr r + n)))) ∧
  (∀ (now : Nat) (cl : Cluster) (co : Core) (s : State) (tl : Tile),
     let core := coreIx cl co
     (s.coreTiles core).find? (fun t => t.word.isSome && !t.sent) = some tl → s.coreOn core = true →
     exec (.decisionWord now cl co) s =
       .next (((s.advance now).putTile core { tl with sent := true }).ruleWord tl.st (tl.word.getD 0) (tl.flags.testBit 0)))

/-- STATION_PARK holds a loaded station, at once unless a tile of it is in progress or a snapshot stops its core; a FIRE of the same
cycle is taken back. STATION_UNPARK takes the holds of level 1 and of a descriptor exception away, and the station resumes where no
other is left. MIGRATION_REQUEST of a station with no other change pending, for a valid image of that station into a free
descriptor, waits for the station's next epoch boundary; DRAIN_WINDOW_CLOSE ends the drain once it is over. -/
def Obligations.StationsMove : Prop :=
  (∀ (now : Nat) (st : StationId) (s : State),
     let y := s.station st.val
     let hs := y.holds.filter (fun h => h != .level1 && h != .descriptor)
     let same := fun (f : Flight) => f.station = st.val ∧ f.at_ = max s.time now + 8 + 4 * hops f.cl y.cluster
     (y.state ≠ 0 →
      (∃ t, exec (.stationPark now st) s = .next t ∧ Hold.level1 ∈ (t.station st.val).holds ∧
        (t.station st.val).state = (if s.atWork st.val = true ∨ s.frozen y.core = true then y.state else 3) ∧
        (∀ f, f ∈ t.flights ↔ f ∈ s.flights ∧ ¬ same f) ∧ KeepsBytes s t nowhere ∧
        ((∀ f, f ∈ s.flights → ¬ same f) → t = { s.advance now with stations := t.stations }) ∧
        ∀ n, n ≠ st.val → t.station n = s.station n) ∧
      (∃ t, exec (.stationUnpark now st) s = .next t ∧
        t.station st.val = { y with holds := hs, state := if y.state = 3 then Station.rest { y with holds := hs } else y.state } ∧
        t = { s.advance now with stations := t.stations } ∧ ∀ n, n ≠ st.val → t.station n = s.station n)) ∧
     (y.state = 0 → exec (.stationPark now st) s = .next (s.advance now) ∧
       exec (.stationUnpark now st) s = .next (s.advance now))) ∧
  ((∀ (now : Nat) (st : StationId) (cl : Cluster) (co : Core) (d : Fin 64) (image : List Word) (bases : List (BitVec 16))
       (s : State),
     let y := s.station st.val
     let im := (List.range 64).map (fun k => image.getD k 0)
     let x := descOf (fun k => (im.getD k 0).toNat)
     y.state ≠ 0 → y.drain = none → y.swapping = false → hasDesc y.kind = true → (∀ m, m ∈ y.mig → m.weight = true) →
     x.valid = true → x.station = st.val → x.kind = y.kind → x.owner = y.owner → x.reason = none →
     (s.desc (coreIx cl co) d.val).valid = false →
     exec (.migrationRequest now st cl co d image bases) s = .next ((s.advance now).setStation st.val
       { y with mig := y.mig ++ [{ core := coreIx cl co, d := d.val, image := im, model := y.model, layer := y.layer, weight := false, bases := bases.map BitVec.toNat }] })) ∧
   (∀ (now : Nat) (st : StationId) (s : State) (dr : Drain),
     (s.station st.val).drain = some dr → (s.advance now).drainOver st.val dr = true →
     ∃ t, exec (.drainWindowClose now st) s = .next t ∧ (t.station st.val).drain = none ∧ (t.station st.val).state ≠ 4 ∧
       t.cells = s.cells ∧ t.shards = s.shards ∧ t.tiles = s.tiles))

/-- The tile mover: a queued transfer starts into the next slot of its target ring when that is Empty; it ends with the target Full,
the source released and the mover free, and only the target slot written; a target whose domain is off, or that its owner does not
hold, refuses it, which counts in TMV_ERR, and a refused tile is queued again once its target is on and has room. -/
def Obligations.TileMover : Prop :=
  ∀ (now : Nat) (cl : Cluster) (co : Core) (s : State) (x : Xfer),
    let core := coreIx cl co
    let m := s.tmv core
    let r := s.nextWr x.dst
    s.coreOn core = true →
    (m.cur = none → m.queue.find? (fun y => !((s.advance now).behindRefused m y)) = some x →
      (s.slotOn r = true → s.ownsAll x.owner (s.slotAddr r) (s.ring x.dst).size = true → s.slot r = 0 →
        exec (.tmvTransfer now cl co) s = .next (((((s.advance now).setSlot r 1).stepWr x.dst).setSlot x.src 3).setTmv core
          ({ m with cur := some { x with slot := some r, start := max s.time now } }.queued (m.all.filter (fun z => z != x))))) ∧
      (s.slotOn r = false ∨ s.ownsAll x.owner (s.slotAddr r) (s.ring x.dst).size = false →
        ∃ t, exec (.tmvTransfer now cl co) s = .next t ∧ x ∉ (t.tmv core).queue ∧ t.slot x.src = 2 ∧
          { x with slot := none } ∈ (t.tmv core).refused ∧
          t.getF .TMV_ERR_COUNT core = min (s.getF .TMV_ERR_COUNT core + 1) (2 ^ Fld.TMV_ERR_COUNT.width - 1) ∧
          KeepsBytes s t nowhere)) ∧
    (∀ q, m.cur = some x → x.slot = some q → s.slotOn q = true →
      ∃ t, exec (.tmvTransferDone now cl co) s = .next t ∧ (t.tmv core).cur = none ∧ (t.tmv core).queue = m.queue ∧
        t.slot x.src = (if (t.ringOf x.src).isSome then 0 else 4) ∧ t.torn x.src = false ∧
        ((x.src.km ≠ q.km ∨ x.src.inst ≠ q.inst) → (∀ h, s.ringOf q = some h → (s.ring h).owed = []) → t.slot q = 2) ∧
        t.cells = s.cells ∧ t.stations = s.stations ∧
        KeepsBytes s t (fun a => s.slotAddr q ≤ a && a < s.slotAddr q + s.tileLen x.src)) ∧
    (m.refused.find? (fun y => s.slotOn (s.nextWr y.dst) && s.slot (s.nextWr y.dst) == 0) = some x →
      ∃ t, exec (.tmvRetry now cl co) s = .next t ∧ x ∈ (t.tmv core).all ∧ x ∉ (t.tmv core).refused ∧
        t = { s.advance now with tmvs := t.tmvs })

/-! ### Streams, time and watches -/

/-- OPEN_CONTEXT in its turn that nothing refuses opens the context: its function owns it, its queue is empty and its sequence starts
at 0; CLOSE_CONTEXT of it closes it, at once or when its job ends; CONTEXT_CLOSED is that end; a refused one is answered with its code.
POST of a well-formed descriptor to an open context of the function: with room it is queued; to a full queue the newest is refused, or
the oldest discarded, as the station's INGEST record says, and DROPCNT counts; an undefined format gives RESULT 3 and a bad geometry
RESULT 4, counted. -/
def Obligations.ContextsAndPosts : Prop :=
  ((∀ (now : Nat) (fn : Func) (entry : List Word) (s : State),
     let u := (s.advance now).takeAccepted fn.val entry
     (s.advance now).nextUp fn.val 0x04 entry = true →
     (∀ c, u.openCode fn.val entry = 0 → u.openWhich (openParams entry).ctx = some c →
       ∃ t, exec (.openContext now fn entry) s = .next t ∧ (t.ctx c).state = 1 ∧ (t.ctx c).owner = fn.val ∧
         (t.ctx c).queue = [] ∧ (t.ctx c).seq = 0 ∧ (t.ctx c).station = (openParams entry).station ∧
         (t.ctx c).src = (openParams entry).src ∧ (t.ctx c).len = (openParams entry).len ∧
         t.getF .SGT_CTX_DROPCNT_COUNT c = 0 ∧ KeepsBytes s t nowhere ∧ (∀ k, k ≠ c → t.ctx k = s.ctx k)) ∧
     (u.openCode fn.val entry ≠ 0 → exec (.openContext now fn entry) s =
       .next (u.answer fn.val entry (u.openCode fn.val entry) 0))) ∧
   (∀ (now : Nat) (fn : Func) (entry : List Word) (s : State),
     let u := (s.advance now).takeAccepted fn.val entry
     let c := entryWord entry 2 % 128
     (s.advance now).nextUp fn.val 0x05 entry = true →
     (entryClean entry 3 = true → entryWord entry 2 < 128 → (s.ctx c).owner = fn.val →
       ((s.ctx c).state = 1 → ∃ t, exec (.closeContext now fn entry) s = .next t ∧
         (t.ctx c).state = (if (s.ctx c).running then 2 else 0) ∧ (t.ctx c).queue = [] ∧ KeepsBytes s t nowhere) ∧
       ((s.ctx c).state = 2 → ∃ t, exec (.closeContext now fn entry) s = .next t ∧ (t.ctx c).state = 2 ∧
         KeepsBytes s t nowhere)) ∧
     (entryClean entry 3 = false ∨ 128 ≤ entryWord entry 2 →
       exec (.closeContext now fn entry) s = .next (u.answer fn.val entry 1 0))) ∧
   (∀ (now : Nat) (ctx : Ctx) (s : State), (s.ctx ctx.val).state = 2 → (s.ctx ctx.val).running = false →
     ∃ t, exec (.contextClosed now ctx) s = .next t ∧ (t.ctx ctx.val).state = 0 ∧ KeepsBytes s t nowhere)) ∧
  (∀ (now : Nat) (fn : Func) (ctx : Ctx) (s : State),
     let c := ctx.val
     let x := s.ctx c
     let d := s.posted fn.val c
     let w := fn.val * 1152 + 9 * c + 8
     Hosted s fn.val →
     (x.state ≠ 1 ∨ x.owner ≠ fn.val → exec (.post now fn ctx) s = .next ((s.advance now).denied fn.val)) ∧
     (x.state = 1 → x.owner = fn.val →
      (6 ≤ d.format → ∃ t, exec (.post now fn ctx) s = .next t ∧ t.getF .SCTL_WORD w / 536870912 = 3 ∧
        t = { s.advance now with regs := t.regs } ∧ KeepsRegs s t (fun f i => f == .SCTL_WORD && i == w)) ∧
      (d.format < 6 → badGeometry d (s.ingestCfg x.station) (s.lineMode x.src) = true →
        ∃ t, exec (.post now fn ctx) s = .next t ∧ t.getF .SCTL_WORD w / 536870912 = 4 ∧
          t.getF .SGT_CTX_DROPCNT_COUNT c =
            min (s.getF .SGT_CTX_DROPCNT_COUNT c + 1) (2 ^ Fld.SGT_CTX_DROPCNT_COUNT.width - 1) ∧
          t = { s.advance now with regs := t.regs }) ∧
      (d.format < 6 → badGeometry d (s.ingestCfg x.station) (s.lineMode x.src) = false →
       (x.queue.length < 16 → ∃ t, exec (.post now fn ctx) s = .next t ∧ t.ctx c = { x with queue := x.queue ++ [d] } ∧
         t.getF .SCTL_WORD w = (s.getF .SCTL_WORD w % 536870912 + 1) % 536870912 ∧
         t = { s.advance now with regs := t.regs, ctxs := t.ctxs } ∧
         KeepsRegs s t (fun f i => f == .SCTL_WORD && i == w)) ∧
       (16 ≤ x.queue.length → ∃ t, exec (.post now fn ctx) s = .next t ∧
         (t.ctx c).queue = (if x.drop then x.queue.drop 1 ++ [d] else x.queue) ∧
         t.getF .SGT_CTX_DROPCNT_COUNT c =
           min (s.getF .SGT_CTX_DROPCNT_COUNT c + 1) (2 ^ Fld.SGT_CTX_DROPCNT_COUNT.width - 1) ∧
         t.getF .SCTL_WORD w / 536870912 = (if x.drop then 1 else 2) ∧
         t = { s.advance now with regs := t.regs, ctxs := t.ctxs }))))

/-- An ingest job starts for the context whose turn it is and takes its oldest descriptor; it ends when its tiles are written, and the
engine and the context are free again; with its ring full it keeps the tiles that are left. A corrected word is rewritten once with
correct check bits, and the capture of a memory's errors is armed again by clearing VALID. -/
def Obligations.IngestAndMemoryErrors : Prop :=
  ((∀ (now : Nat) (eng : Fin 8) (frame : List Byte) (bad : List Nat) (s u : State) (c : Nat) (d : FrameDesc)
       (rest : List FrameDesc),
     let st := (u.ctx c).station
     s.dieOn 2 = true → smapGet none s.ingests eng.val = none → (s.advance now).takeOffer = some (c, u) →
     (u.ctx c).queue = d :: rest →
     ∃ t j, exec (.ingestJobStart now eng frame bad) s = .next t ∧ smapGet none t.ingests eng.val = some j ∧ j.ctx = c ∧
       t.ctx c = { u.ctx c with queue := rest, running := true } ∧ t.out = .hostRead (u.ctx c).owner d.addr d.size :: s.out ∧
       ((s.station st).state = 1 → (t.station st).state = 2) ∧ t.regs = s.regs ∧ KeepsBytes s t nowhere) ∧
   (∀ (now : Nat) (eng : Fin 8) (s : State) (j : Ingest) (h : SlotRef) (hs : List SlotRef),
     let st := (s.ctx j.ctx).station
     let w := ((s.advance now).enterTile st).ingestFlush j h j.tiles
     smapGet none s.ingests eng.val = some j → (s.station st).outs = h :: hs → s.dieOn 2 = true → j.wait = false →
     (s.station st).holds = [] →
     (w.2 = [] → ∃ t, exec (.ingestJobDone now eng) s = .next t ∧ smapGet none t.ingests eng.val = none ∧
       (t.ctx j.ctx).running = false ∧ t.cells = s.cells ∧ t.sram = w.1.sram) ∧
     (w.2 ≠ [] → ∃ t, exec (.ingestJobDone now eng) s = .next t ∧
       smapGet none t.ingests eng.val = some { j with tiles := w.2 } ∧ t.cells = s.cells ∧ t.sram = w.1.sram))) ∧
  ((∀ (now : Nat) (word : BitVec 24) (s : State), word.toNat ∈ s.scrubs → s.memOn (8 * word.toNat) = true →
     (correctable (s.syndrome word.toNat) = true →
      ∃ t, exec (.eccScrubWrite now word) s = .next t ∧ t.syndrome word.toNat = 0 ∧ t.scrubs = s.scrubs.erase word.toNat ∧
       (∀ w, w ≠ word.toNat → t.syndrome w = s.syndrome w) ∧
       t = { s.advance now with ecc := t.ecc, scrubs := t.scrubs }) ∧
     (correctable (s.syndrome word.toNat) = false →
      exec (.eccScrubWrite now word) s = .next { s.advance now with scrubs := s.scrubs.erase word.toNat })) ∧
   (∀ (now : Nat) (cl : Cluster) (co : Core) (s : State), s.coreOn (coreIx cl co) = true →
     exec (.eccCaptureClear now cl (some co)) s = .next ((s.advance now).setF .CMC_ECCSTAT_VALID (coreIx cl co) 0)) ∧
   (∀ (now : Nat) (cl : Cluster) (s : State), s.sharedOn cl.val = true →
     exec (.eccCaptureClear now cl none) s = .next ((s.advance now).setF .KMC_ECCSTAT_VALID cl.val 0)))

/-- Position ports: a transition of one channel that the filter accepts moves the position counter by 1 in the direction that A, B and
INV give and the travel counter up by 1, one of both is illegal and counted, one that the filter rejects changes nothing; Z latches
the position; active edges of lines and cycles count up, but for a cycle edge less than 13.0 ms after the last, which is rejected;
26.0 ms without one is a loss. -/
def Obligations.PortsCount : Prop :=
  ∀ (now : Nat) (p : Fin 4) (s : State),
    let x := s.port p.val
    let open_ := filterOpen (s.getF .POS_CFG_FILT p.val) now
    s.time ≤ now →
    (∀ a b : Bool,
      let da := (x.a != a) && open_ x.aAt
      let db := (x.b != b) && open_ x.bAt
      (s.portRuns p.val 0 = true →
        (da ≠ db → ∃ t, exec (.quadTransition now p a b) s = .next t ∧
          (t.port p.val).pos =
            (if (if da then a != x.b else x.a == b) != s.bit .POS_CFG_INV p.val then x.pos + 1 else x.pos - 1) ∧
          (t.port p.val).trv = x.trv + 1 ∧ (t.port p.val).a = (if da then a else x.a) ∧
          (t.port p.val).b = (if db then b else x.b) ∧ (x.zAt = some now → (t.port p.val).zlat = (t.port p.val).pos) ∧
          t = { s.advance now with ports := t.ports, ctxs := t.ctxs }) ∧
        (da = true → db = true → ∃ t, exec (.quadTransition now p a b) s = .next t ∧ (t.port p.val).pos = x.pos ∧
          (t.port p.val).trv = x.trv ∧
          t.getF .POS_ERRCNT_ILLEGAL p.val = min (s.getF .POS_ERRCNT_ILLEGAL p.val + 1) (2 ^ Fld.POS_ERRCNT_ILLEGAL.width - 1) ∧
          t = { s.advance now with regs := t.regs, ports := t.ports }) ∧
        (da = false → db = false → exec (.quadTransition now p a b) s = .next (s.advance now))) ∧
      (s.portRuns p.val 0 = false →
        exec (.quadTransition now p a b) s = .next ((s.advance now).setPort p.val { x with a := a, b := b }))) ∧
    (s.portRuns p.val 0 = true → s.bit .POS_CFG_ZEN p.val = true →
      filterOpen (2 * s.getF .POS_CFG_FILT p.val) now x.zAt = true →
      exec (.zEdge now p) s = .next ((s.advance now).setPort p.val { x with zlat := x.pos, zAt := some now })) ∧
    (∀ rise : Bool, open_ x.aAt = true →
      let y := { x with a := rise, aAt := some now }
      (s.portRuns p.val 1 = true →
        (rise ≠ s.bit .POS_CFG_INV p.val → ∃ t, exec (.lineEdge now ⟨p, rise⟩) s = .next t ∧
          (t.port p.val).pos = x.pos + 1 ∧ (t.port p.val).trv = x.trv + 1 ∧
          t = { s.advance now with ports := t.ports, ctxs := t.ctxs }) ∧
        (rise = s.bit .POS_CFG_INV p.val → exec (.lineEdge now ⟨p, rise⟩) s = .next ((s.advance now).setPort p.val y))) ∧
      (s.portRuns p.val 2 = true →
        (rise = s.bit .POS_CFG_INV p.val → exec (.cycleEdge now ⟨p, rise⟩) s = .next ((s.advance now).setPort p.val y)) ∧
        (rise ≠ s.bit .POS_CFG_INV p.val →
          (∀ e, x.edge = some e → now < e + 13000000 → exec (.cycleEdge now ⟨p, rise⟩) s =
            .next (((s.advance now).setPort p.val y).addHold .POS_ERRCNT_REJECT p.val 1)) ∧
          ((∀ e, x.edge = some e → e + 13000000 ≤ now) → ∃ t, exec (.cycleEdge now ⟨p, rise⟩) s = .next t ∧
            (t.port p.val).pos = x.pos + 1 ∧ (t.port p.val).trv = x.trv + 1 ∧ (t.port p.val).edge = some now ∧
            t.getF .POS_STAT_LOSS p.val = 0 ∧
            (∀ e, x.edge = some e → now < e + 65536000 → t.getF .POS_STAT_PERIOD p.val = (now - e) / 1000) ∧
            KeepsRegs s t (fun f i => (f == .POS_STAT_PERIOD || f == .POS_STAT_LOSS) && i == p.val) ∧
            KeepsBytes s t nowhere)))) ∧
    (s.portRuns p.val 2 = true → x.edge.getD x.since + 26000000 ≤ now →
      exec (.cycleLoss now p) s = .next ((s.advance now).setF .POS_STAT_LOSS p.val 1))

/-- Epoch boundaries: without SYNC a context's boundary fires when its source has reached it, after those of lower contexts that are
due, with SYNC it is held; a window that ends without an edge counts as missed and fires at B; an accepted edge is counted and every
context of that input judges it: inside its window the boundary fires at the edge, outside it counts in OUTWIN. Firing gives the next
epoch number and the next boundary LEN further. POS_PORT_CONFIG of an unused port stores its fields, a filter above 160 as 160, and
enabling it clears its counters; of a port in use, or with a reserved mode, it is discarded. POS_SYNC_CONFIG stores the fields of the
inputs that no open context uses. -/
def Obligations.EpochsAndPortSetup : Prop :=
  ((∀ (now : Nat) (ctx : Ctx) (s : State),
     let c := ctx.val
     let x := s.ctx c
     let fires := fun (t : State) => x.deadline = none → (t.ctx c).epoch = (x.epoch + 1) % 4294967296 ∧
       (t.ctx c).bound = addSrc x.src x.bound x.len ∧ (t.ctx c).state = 1
     x.state = 1 →
     ((s.advance now).atBound c = true → x.sync = 0 →
       ∃ t, exec (.epochBoundary now ctx) s = .next t ∧ t = (s.advance now).fireUpTo c ∧ fires t) ∧
     ((s.advance now).atBound c = true → x.sync ≠ 0 →
       exec (.epochBoundary now ctx) s = .next ((s.advance now).setCtx c { x with held := true })) ∧
     ((s.advance now).windowEnd c ≠ none →
       ∃ t, exec (.syncWindowEnd now ctx) s = .next t ∧ t = (s.advance now).fireUpTo c ∧ fires t ∧
         t.getF .POS_CTX_STAT_MISSED c =
           min (s.getF .POS_CTX_STAT_MISSED c + 1) (2 ^ Fld.POS_CTX_STAT_MISSED.width - 1))) ∧
   (∀ (now : Nat) (n : Fin 2) (rise : Bool) (s : State),
     let last := smapGet 0 s.syncAt n.val
     let filt := s.getF (if n.val = 0 then Fld.POS_SYNCCFG_FILT0 else .POS_SYNCCFG_FILT1) 0
     let u := { s.advance now with syncAt := smapSet 0 s.syncAt n.val (max s.time now + 1) }
     let active := rise != s.bit (if n.val = 0 then Fld.POS_SYNCCFG_FALL0 else .POS_SYNCCFG_FALL1) 0
     s.bit (if n.val = 0 then .POS_SYNCCFG_EN0 else .POS_SYNCCFG_EN1) 0 = true → s.wioDown = false →
     filterOpen filt (max s.time now) (if last = 0 then none else some (last - 1)) = true →
     (active = false → exec (.syncEdge now ⟨n, rise⟩) s = .next u) ∧
     (active = true → ∃ t, exec (.syncEdge now ⟨n, rise⟩) s = .next t ∧
       t.getF .POS_SYNC_CNT_COUNT n.val = (s.getF .POS_SYNC_CNT_COUNT n.val + 1) % 4294967296 ∧
       ∀ c, c < 128 → (s.ctx c).state = 1 → (s.ctx c).sync = n.val + 1 → (s.ctx c).slip = none →
         (s.advance now).windowEnd c ≠ some true →
         ((s.ctx c).inWindow ((s.advance now).source (s.ctx c).src) = true → (s.ctx c).deadline = none →
           (t.ctx c).epoch = ((s.ctx c).epoch + 1) % 4294967296 ∧
           (t.ctx c).bound = addSrc (s.ctx c).src ((s.advance now).source (s.ctx c).src) (s.ctx c).len) ∧
         ((s.ctx c).inWindow ((s.advance now).source (s.ctx c).src) = false →
           (t.ctx c).epoch = (s.ctx c).epoch ∧ t.getF .POS_CTX_STAT_OUTWIN c =
             min (s.getF .POS_CTX_STAT_OUTWIN c + 1) (2 ^ Fld.POS_CTX_STAT_OUTWIN.width - 1)))) ∧
   (∀ (x : Context) (v : Nat), (x.boundary v).epoch = (x.epoch + 1) % 4294967296 ∧
     (x.boundary v).bound = addSrc x.src v x.len ∧ (x.boundary v).held = false ∧ (x.boundary v).state = x.state)) ∧
  ((∀ (now : Nat) (p : Fin 4) (v : Word) (s : State),
     let w := v.toNat
     (s.portUsed p.val = false → bits w 30 29 ≠ 3 → ∃ t, exec (.posPortConfig now p v) s = .next t ∧
       t.getF .POS_CFG_EN p.val = (w.testBit 31).toNat ∧ t.getF .POS_CFG_MODE p.val = bits w 30 29 ∧
       t.getF .POS_CFG_INV p.val = (w.testBit 28).toNat ∧ t.getF .POS_CFG_ZEN p.val = (w.testBit 27).toNat ∧
       t.getF .POS_CFG_FILT p.val = min (w % 256) 160 ∧
       (w.testBit 31 = true → s.bit .POS_CFG_EN p.val = false → (t.port p.val).pos = 0 ∧ (t.port p.val).trv = 0 ∧
         t.getF .POS_ERRCNT_ILLEGAL p.val = 0 ∧ t.getF .POS_ERRCNT_REJECT p.val = 0) ∧
       t = { s.advance now with regs := t.regs, ports := t.ports }) ∧
     ((s.portUsed p.val = true ∨ bits w 30 29 = 3) → exec (.posPortConfig now p v) s = .next (s.advance now))) ∧
   (∀ (now : Nat) (v : Word) (s : State),
     let used := fun (n : Nat) => s.ctxs.any (fun e => e.2.state == 1 && e.2.sync == n)
     let keep := fun (n : Nat) (f : Fld) (x : Nat) => if used n = true then s.getF f 0 else x
     ∃ t, exec (.posSyncConfig now v) s = .next t ∧
       t.getF .POS_SYNCCFG_EN0 0 = keep 1 .POS_SYNCCFG_EN0 (v.toNat.testBit 15).toNat ∧
       t.getF .POS_SYNCCFG_FALL0 0 = keep 1 .POS_SYNCCFG_FALL0 (v.toNat.testBit 14).toNat ∧
       t.getF .POS_SYNCCFG_FILT0 0 = keep 1 .POS_SYNCCFG_FILT0 (min (v.toNat % 256) 160) ∧
       t.getF .POS_SYNCCFG_EN1 0 = keep 2 .POS_SYNCCFG_EN1 (v.toNat.testBit 31).toNat ∧
       t.getF .POS_SYNCCFG_FALL1 0 = keep 2 .POS_SYNCCFG_FALL1 (v.toNat.testBit 30).toNat ∧
       t.getF .POS_SYNCCFG_FILT1 0 = keep 2 .POS_SYNCCFG_FILT1 (min (bits v.toNat 23 16) 160) ∧
       t = { s.advance now with regs := t.regs } ∧
       KeepsRegs s t (fun f _ => [Fld.POS_SYNCCFG_EN0, .POS_SYNCCFG_FALL0, .POS_SYNCCFG_FILT0, .POS_SYNCCFG_EN1,
         .POS_SYNCCFG_FALL1, .POS_SYNCCFG_FILT1].contains f)))

/-- Triggers: a write to a free trigger claims it and a foreign one is discarded; arming stores its fields, sets EN and clears FIRES,
but for a target that is not the function's; a write with EN = 0 disarms, FREE frees; a value is written only while disarmed; one that
fires counts, moves on by its period or is disarmed, acts on its context or grants its station, and fires no second time in the same
cycle; HOLD is written on an open context by its owner. -/
def Obligations.TriggersWork : Prop :=
  (∀ (now : Nat) (fn : Func) (m : Fin 64) (v : Word) (s : State),
    let w := v.toNat
    let o := s.getF .POS_TRG_STAT_OWNER m.val
    let mine := o = 0xFF ∨ o = fn.val
    let turned := (s.advance now).denied fn.val
    Hosted s fn.val →
    (mine → s.trgTarget fn.val w = true → bits w 27 24 < 9 → w % 256 ≠ 0 →
      ∃ t, exec (.triggerArm now fn m v) s = .next t ∧ t.getF .POS_TRG_CFG_EN m.val = 1 ∧
        t.getF .POS_TRG_STAT_OWNER m.val = fn.val ∧ t.getF .POS_TRG_STAT_FIRES m.val = 0 ∧
        t.getF .POS_TRG_CFG_SRC m.val = bits w 27 24 ∧ t.getF .POS_TRG_CFG_TARGET m.val = bits w 23 12 ∧
        t.getF .POS_TRG_CFG_GRANTS m.val = w % 256 ∧ t = { s.advance now with regs := t.regs }) ∧
    (mine → s.trgTarget fn.val w = false → ∃ t, exec (.triggerArm now fn m v) s = .next t ∧
        t.getF .POS_TRG_CFG_EN m.val = 0 ∧ t.getF .POS_TRG_STAT_OWNER m.val = fn.val ∧
        t = { s.advance now with regs := t.regs }) ∧
    (mine → ∃ t, exec (.triggerDisarm now fn m v) s = .next t ∧ t.getF .POS_TRG_CFG_EN m.val = 0 ∧
        t.getF .POS_TRG_STAT_OWNER m.val = fn.val ∧ t = { s.advance now with regs := t.regs }) ∧
    (¬ mine →
      exec (.triggerArm now fn m v) s = .next turned ∧ exec (.triggerDisarm now fn m v) s = .next turned ∧
      (∀ k, exec (.triggerValueWrite now fn m k v) s = .next turned) ∧
      (fn.val ≠ 0 → exec (.triggerFree now fn m) s = .next turned)) ∧
    ((fn.val = 0 ∨ mine) → ∃ t, exec (.triggerFree now fn m) s = .next t ∧
        t.getF .POS_TRG_CFG_EN m.val = 0 ∧ t.getF .POS_TRG_STAT_OWNER m.val = 0xFF ∧
        t = { s.advance now with regs := t.regs }) ∧
    (mine → s.bit .POS_TRG_CFG_EN m.val = false → ∀ k,
      let f := match k with | .vall => Fld.POS_TRG_VALL_VALUE | .valh => .POS_TRG_VALH_VALUE | .period => .POS_TRG_PERIOD_PERIOD
      ∃ t, exec (.triggerValueWrite now fn m k v) s = .next t ∧ t.getF f m.val = w % 2 ^ f.width ∧
        t.getF .POS_TRG_STAT_OWNER m.val = fn.val ∧ t = { s.advance now with regs := t.regs } ∧
        KeepsRegs s t (fun g i => (g == f || g == .POS_TRG_STAT_OWNER) && i == m.val)) ∧
    (o = fn.val → s.bit .POS_TRG_CFG_EN m.val = true → ∀ k,
      exec (.triggerValueWrite now fn m k v) s = .next (s.advance now))) ∧
  (∀ (now : Nat) (m : Fin 64) (s : State),
    let n := m.val
    let target := s.getF .POS_TRG_CFG_TARGET n
    let period := s.getF .POS_TRG_PERIOD_PERIOD n
    let y := s.station target
    (s.advance now).trgDue n = true →
    ∃ t, exec (.triggerFire now m) s = .next t ∧
      t.getF .POS_TRG_STAT_FIRES n = min (s.getF .POS_TRG_STAT_FIRES n + 1) 65535 ∧ t.trgDue n = false ∧
      (period = 0 → t.getF .POS_TRG_CFG_EN n = 0) ∧
      (period ≠ 0 → t.trgVal n = addSrc 1 (s.trgVal n) (if s.bit .POS_TRG_CFG_DIR n then -(period : Int) else period)) ∧
      (s.bit .POS_TRG_CFG_ACTION n = true → (t.ctx (target % 128)).hold = false ∧ t.stations = s.stations) ∧
      (s.bit .POS_TRG_CFG_ACTION n = false → y.state = 0 → t.getF .POS_TRG_CFG_EN n = 0 ∧ t.stations = s.stations) ∧
      (s.bit .POS_TRG_CFG_ACTION n = false → y.state ≠ 0 →
        (t.station target).grants = min (y.grants + s.getF .POS_TRG_CFG_GRANTS n) 65535 ∧ t.ctxs = s.ctxs) ∧
      KeepsBytes s t nowhere) ∧
  (∀ (now : Nat) (fn : Func) (ctx : Ctx) (hold : Bool) (s : State),
    let x := s.ctx ctx.val
    Hosted s fn.val →
    (x.state = 1 → (fn.val = 0 ∨ x.owner = fn.val) →
      exec (.holdWrite now fn ctx hold) s = .next ((s.advance now).setCtx ctx.val { x with hold := hold })) ∧
    (fn.val ≠ 0 → (x.state = 0 ∨ x.owner ≠ fn.val) →
      exec (.holdWrite now fn ctx hold) s = .next ((s.advance now).denied fn.val)))

/-- A watch input: its levels are taken, a disagreement that lasts T latches the fault and counts it, CLRREADY comes after 10
ms of joint safety, only then a clear takes the fault away, and its settings are written only while no rule names the pair and
no fault is latched. A watch output: a rule's request ends with its hold timer; a limiter that holds for 1 us, or a readback
that disagrees for longer than 2 us, latches a fault, a short one releasing the driver; a clear takes it away, but in the tick in which
a detector fired, and for a mismatch only once the readback agrees; FORCE commands the driver. -/
def Obligations.WatchPins : Prop :=
  (∀ (now : Nat) (n : Fin 4) (s : State), s.time ≤ now →
     (∀ a b : Bool,
       let vb := b != s.bit .WIO_WINCFG_ANTIV n.val
       (s.wioDown = true → exec (.watchInputChange now n a b) s = .next (s.advance now)) ∧
       (s.wioDown = false → ∃ t, exec (.watchInputChange now n a b) s = .next t ∧
         t.getF .WIO_WINSTAT_A n.val = a.toNat ∧ t.getF .WIO_WINSTAT_B n.val = b.toNat ∧
         ((a || vb) = true → t.getF .WIO_WINSTAT_CLRREADY n.val = 0) ∧
         (t.win n.val).differ = (if (a != vb && s.winOn n.val) = true then some ((s.win n.val).differ.getD now) else none) ∧
         KeepsBytes s t nowhere)) ∧
     (∀ t0, (s.win n.val).differ = some t0 → t0 + s.discTime n.val ≤ now → s.bit .WIO_WINSTAT_FAULT n.val = false →
       s.wioDown = false → ∃ t, exec (.discrepancyFault now n) s = .next t ∧ t.getF .WIO_WINSTAT_FAULT n.val = 1 ∧
         t.getF .WIO_WINCNT_COUNT n.val = min (s.getF .WIO_WINCNT_COUNT n.val + 1) (2 ^ Fld.WIO_WINCNT_COUNT.width - 1) ∧
         t.armed n.val = false ∧ KeepsBytes s t nowhere) ∧
     (∀ t0, (s.win n.val).safe = some t0 → t0 + 10000000 ≤ now →
       exec (.clrReady now n) s = .next ((s.advance now).setF .WIO_WINSTAT_CLRREADY n.val 1)) ∧
     (s.bit .WIO_WINSTAT_CLRREADY n.val = true → s.bit .WIO_WINSTAT_FAULT n.val = true →
       ∃ t, exec (.watchInputClear now n) s = .next t ∧ t.getF .WIO_WINSTAT_FAULT n.val = 0 ∧
       t = { s.advance now with regs := t.regs, wins := t.wins, outMarks := t.outMarks } ∧
       KeepsRegs s t (fun f i => (f == .WIO_WINSTAT_FAULT && i == n.val) || [Fld.WIO_WOUTSTAT_PIN, .WIO_WOUTSTAT_FAULT,
         .WIO_WOUTSTAT_EXTLOW, .WIO_WOUTSTAT_HELD].contains f)) ∧
     (s.bit .WIO_WINSTAT_CLRREADY n.val = false ∨ s.bit .WIO_WINSTAT_FAULT n.val = false →
       exec (.watchInputClear now n) s = .next (s.advance now)) ∧
     (∀ v : Word, (∀ e, e ∈ s.wrules → ¬ (e.2.valid = true ∧ e.2.inhibit = n.val)) → s.bit .WIO_WINSTAT_FAULT n.val = false →
       ∃ t, exec (.watchInputConfig now n v) s = .next t ∧
         t.getF .WIO_WINCFG_DISC n.val = max 1 (min 500 (v.toNat / 65536 % 512)) ∧
         t.getF .WIO_WINCFG_ANTIV n.val = v.toNat / 256 % 2 ∧ t.getF .WIO_WINCFG_FILT n.val = v.toNat % 256 ∧
         KeepsBytes s t nowhere) ∧
     (∀ v : Word, s.bit .WIO_WINSTAT_FAULT n.val = true ∨ s.wrules.any (fun e => e.2.valid && e.2.inhibit == n.val) = true →
       exec (.watchInputConfig now n v) s = .next (s.advance now))) ∧
  ((∀ (now : Nat) (r : Fin 32) (s : State) (e : Nat), (s.wrule r.val).till = some e → e ≤ now → s.time ≤ now →
     ∃ t, exec (.holdExpire now r) s = .next t ∧ t.wrule r.val = { s.wrule r.val with till := none } ∧
       (∀ h, h ∈ t.heldRules → h ∈ s.heldRules ∧ ¬ (h.1 = r.val ∧ h.2.expired now = true)) ∧
       t = { s.advance now with regs := t.regs, wrules := t.wrules, heldRules := t.heldRules, outMarks := t.outMarks } ∧
       KeepsRegs s t (fun f _ => [Fld.WIO_WOUTSTAT_PIN, .WIO_WOUTSTAT_FAULT, .WIO_WOUTSTAT_EXTLOW, .WIO_WOUTSTAT_HELD].contains f)) ∧
   (∀ (now : Nat) (n : Fin 8) (s : State), (s.advance now).asserted n.val = true → (s.outMark n.val).since + 1000 ≤ now →
     s.time ≤ now → ∃ t, exec (.outputShort now n) s = .next t ∧ t.getF .WIO_WOUTSTAT_FAULT n.val = 1 ∧
       t.asserted n.val = false ∧
       t.getF .WIO_WOUTFLTCNT_COUNT n.val =
         min (s.getF .WIO_WOUTFLTCNT_COUNT n.val + 1) (2 ^ Fld.WIO_WOUTFLTCNT_COUNT.width - 1) ∧ KeepsBytes s t nowhere) ∧
   (∀ (now : Nat) (n : Fin 8) (pin : Bool) (s : State), (s.setting 2).testBit n.val = true → s.wioDown = false →
     s.getF .WIO_WOUTSTAT_FAULT n.val = 0 → pin = (s.advance now).asserted n.val → (s.outMark n.val).since + 2000 < now →
     s.time ≤ now → ∃ t, exec (.outputMismatch now n pin) s = .next t ∧ t.getF .WIO_WOUTSTAT_FAULT n.val = 2 ∧
       t.getF .WIO_WOUTSTAT_EXTLOW n.val = (!pin).toNat ∧ KeepsBytes s t nowhere) ∧
   (∀ (now : Nat) (n : Fin 8) (pin : Bool) (s : State),
     let x := s.outMark n.val
     let f := s.getF .WIO_WOUTSTAT_FAULT n.val
     let moved := fun (t : State) => t = { s.advance now with regs := t.regs, outMarks := t.outMarks }
     (x.fired.map tickOf = some (tickOf (max s.time now)) ∨ f = 0 ∨ (f = 2 ∧ pin = (s.advance now).asserted n.val) →
       exec (.watchOutputClear now n pin) s = .next ((s.advance now).setB .WIO_WOUTSTAT_PIN n.val pin)) ∧
     (x.fired.map tickOf ≠ some (tickOf (max s.time now)) → (f = 2 ∧ pin ≠ (s.advance now).asserted n.val) ∨ (f = 1 ∧
         ∀ c, x.cleared = some c → tickOf c.1 ≠ tickOf (max s.time now) ∨ c.2.1 = false) →
       ∃ t, exec (.watchOutputClear now n pin) s = .next t ∧ t.getF .WIO_WOUTSTAT_FAULT n.val = 0 ∧ moved t)) ∧
   (∀ (now : Nat) (n : Fin 8) (v : Bool) (s : State), ∃ t, exec (.force now n v) s = .next t ∧
     t.getF .WIO_WOUTCFG_FORCE n.val = v.toNat ∧ t = { s.advance now with regs := t.regs, outMarks := t.outMarks } ∧
     ((s.setting 2).testBit n.val = true → s.getF .WIO_WOUTSTAT_FAULT n.val ≠ 1 → s.wioDown = false → v = true →
       t.asserted n.val = true)))

/-! ### The sequencer and the mailbox -/

/-- A register instruction that executes writes its result register, moves to the next word and changes no other register of
any thread: NOP, MOVI, MOVHI, ADD, SUB, AND, OR, XOR, ADDI, SHLI and SHRI by 0 to 31. -/
def Obligations.SequencerArithmetic : Prop :=
  ∀ (now : Nat) (cl : Cluster) (th : Thread) (w : Word) (s : State),
    let i := thIx cl th
    let f := fieldsOf w
    let a := s.greg i f.ra
    let b := s.greg i f.rb
    let k := BitVec.ofInt 32 f.imm13
    let res (c : Instr) (v : Word) : Prop :=
      ∃ t, exec c s = .next t ∧ t.greg i f.rd = v ∧ t.pc i = (s.pc i + 1) % 16384 ∧
        ThreadOnly (s.advance now) t
          (fun g j => (g == .CSQ_TH_GREG_VALUE && j == i * 16 + f.rd) || (g == .CSQ_TH_STAT_PC && j == i))
    (Issues s i 0x00 w 1 → ∃ t, exec (.nop now cl th w) s = .next t ∧ t.pc i = (s.pc i + 1) % 16384 ∧
      ThreadOnly (s.advance now) t (fun g j => g == .CSQ_TH_STAT_PC && j == i)) ∧
    (Issues s i 0x01 w 1 → res (.movi now cl th w) k) ∧
    (Issues s i 0x02 w 1 →
      res (.movhi now cl th w) ((BitVec.ofNat 32 f.imm16 <<< 16) ||| (s.greg i f.rd &&& 0xFFFF#32))) ∧
    (Issues s i 0x03 w 1 → res (.add now cl th w) (a + b)) ∧
    (Issues s i 0x04 w 1 → res (.sub now cl th w) (a - b)) ∧
    (Issues s i 0x05 w 1 → res (.and now cl th w) (a &&& b)) ∧
    (Issues s i 0x06 w 1 → res (.or now cl th w) (a ||| b)) ∧
    (Issues s i 0x07 w 1 → res (.xor now cl th w) (a ^^^ b)) ∧
    (Issues s i 0x08 w 1 → res (.addi now cl th w) (a + k)) ∧
    (Issues s i 0x09 w 1 → 0 ≤ f.imm13 → f.imm13 ≤ 31 → res (.shli now cl th w) (a <<< f.imm13.toNat)) ∧
    (Issues s i 0x0A w 1 → 0 ≤ f.imm13 → f.imm13 ≤ 31 → res (.shri now cl th w) (a >>> f.imm13.toNat))

/-- CMP and PLOG write their predicate and no other register but the program counter; CNT adds to its counter; RDT reads
device time, a latched high part or a position counter; TMARK goes on; HALT halts the thread at its word. A branch inside the
thread's region sets the program counter: BR relative to its own word, LOOP while the decremented register is not 0, JR to the
register's low 14 bits; a target outside the region raises PC_RANGE and has no effect. A shift by more than 31, the reserved condition
of CMP and selector 7 of RDT raise ILLEGAL and halt the thread at its word. -/
def Obligations.SequencerFlow : Prop :=
  (∀ (now : Nat) (cl : Cluster) (th : Thread) (w : Word) (s : State),
     let i := thIx cl th
     let f := fieldsOf w
     let x := f.low
     let clock := (s.advance now).clock
     let goes (t : State) (g : Fld → Nat → Bool) : Prop :=
       t.pc i = (s.pc i + 1) % 16384 ∧ ThreadOnly (s.advance now) t (fun h j => g h j || (h == .CSQ_TH_STAT_PC && j == i))
     let halts (t : State) : Prop := t.thState i = (if (s.thread i).stop = true then 5 else 4) ∧ t.pc i = s.pc i ∧
       (s.bit .CSQ_TH_EXC_VALID i = false → t.getF .CSQ_TH_EXC_CODE i = 0x01 ∧ t.getF .CSQ_TH_EXC_PC i = s.pc i % 16384) ∧
       KeepsBytes s t nowhere
     (Issues s i 0x09 w 1 → ¬ (0 ≤ f.imm13 ∧ f.imm13 ≤ 31) → ∃ t, exec (.shli now cl th w) s = .next t ∧ halts t) ∧
     (Issues s i 0x0A w 1 → ¬ (0 ≤ f.imm13 ∧ f.imm13 ≤ 31) → ∃ t, exec (.shri now cl th w) s = .next t ∧ halts t) ∧
     (Issues s i 0x0B w 1 → Sys2Proof.Machine.condHolds (bits x 2 0) (s.greg i (bits x 17 14)) (s.greg i (bits x 13 10)) = none →
       ∃ t, exec (.cmp now cl th w) s = .next t ∧ halts t) ∧
     (∀ v, Issues s i 0x0B w 1 → Sys2Proof.Machine.condHolds (bits x 2 0) (s.greg i (bits x 17 14)) (s.greg i (bits x 13 10)) = some v →
       ∃ t, exec (.cmp now cl th w) s = .next t ∧ t.pred i (bits x 20 18) = v ∧
         (∀ p, p ≠ bits x 20 18 → t.pred i p = s.pred i p) ∧ goes t (fun h j => h == .CSQ_TH_PRED_P && j == i)) ∧
     (Issues s i 0x0C w 1 → ∃ t, exec (.plog now cl th w) s = .next t ∧
       t.pred i (bits x 20 18) = Sys2Proof.Machine.plog (bits x 1 0) (s.pred i (bits x 17 15)) (s.pred i (bits x 14 12)) ∧
       goes t (fun h j => h == .CSQ_TH_PRED_P && j == i)) ∧
     (Issues s i 0x21 w 1 → ∃ t, exec (.cnt now cl th w) s = .next t ∧
       t.getF .CSQ_TH_CNT_VALUE (i * 16 + bits x 3 0) =
         (s.getF .CSQ_TH_CNT_VALUE (i * 16 + bits x 3 0) + (s.greg i f.rd).toNat) % 4294967296 ∧
       goes t (fun h j => h == .CSQ_TH_CNT_VALUE && j == i * 16 + bits x 3 0)) ∧
     (Issues s i 0x22 w 1 → bits x 2 0 = 0 → ∃ t, exec (.rdt now cl th w) s = .next t ∧
       t.greg i f.rd = BitVec.ofNat 32 clock ∧ (t.thread i).timeHi = clock / 4294967296 % 4294967296 ∧
       t.pc i = (s.pc i + 1) % 16384) ∧
     (Issues s i 0x22 w 1 → bits x 2 0 = 1 → ∃ t, exec (.rdt now cl th w) s = .next t ∧
       t.greg i f.rd = BitVec.ofNat 32 (s.thread i).timeHi ∧ t.pc i = (s.pc i + 1) % 16384) ∧
     (Issues s i 0x22 w 1 → 2 ≤ bits x 2 0 → bits x 2 0 ≤ 5 → ∃ t, exec (.rdt now cl th w) s = .next t ∧
       t.greg i f.rd = ((s.port (bits x 2 0 - 2)).pos).extractLsb' 0 32 ∧
       (t.thread i).posHi = (((s.port (bits x 2 0 - 2)).pos).extractLsb' 32 16).toNat ∧ t.pc i = (s.pc i + 1) % 16384) ∧
     (Issues s i 0x22 w 1 → bits x 2 0 = 6 → ∃ t, exec (.rdt now cl th w) s = .next t ∧
       t.greg i f.rd = BitVec.signExtend 32 (BitVec.ofNat 16 (s.thread i).posHi) ∧ t.pc i = (s.pc i + 1) % 16384) ∧
     (Issues s i 0x22 w 1 → bits x 2 0 = 7 → ∃ t, exec (.rdt now cl th w) s = .next t ∧ halts t) ∧
     (Issues s i 0x25 w 1 → ∃ t, exec (.tmark now cl th w) s = .next t ∧ goes t (fun _ _ => false) ∧
       (1 ≤ s.traceMode i → s.traceMode i < 3 → t.trace (i / 8) = (s.trace (i / 8)).put
         { time := clock, kind := 5, src := i / 8 + 16 * (i % 8), pc := s.pc i, data := f.imm16 })) ∧
     (Issues s i 0x3F w 1 → ∃ t, exec (.halt now cl th w) s = .next t ∧ t.thState i = 1 ∧ t.pc i = s.pc i ∧
       ThreadOnly (s.advance now) t (fun h j => h == .CSQ_TH_STAT_STATE && j == i))) ∧
  (∀ (now : Nat) (cl : Cluster) (th : Thread) (w : Word) (s : State),
     let i := thIx cl th
     let f := fieldsOf w
     let br := target (s.pc i) f.off21
     let lp := target (s.pc i) f.off17
     let jr := (s.greg i f.ra).toNat % 16384
     (Issues s i 0x10 w 1 → br.2 = true → s.inRegion i br.1 = true → ∃ t, exec (.br now cl th w) s = .next t ∧
       t.pc i = br.1 % 16384 ∧ KeepsRegs s t (fun g j => g == .CSQ_TH_STAT_PC && j == i) ∧ KeepsBytes s t nowhere) ∧
     (Issues s i 0x11 w 1 → s.greg i f.rd = 1 → ∃ t, exec (.loop now cl th w) s = .next t ∧
       t.pc i = (s.pc i + 1) % 16384 ∧ t.greg i f.rd = 0) ∧
     (Issues s i 0x11 w 1 → s.greg i f.rd ≠ 1 → lp.2 = true → s.inRegion i lp.1 = true →
       ∃ t, exec (.loop now cl th w) s = .next t ∧ t.pc i = lp.1 % 16384 ∧ t.greg i f.rd = s.greg i f.rd - 1) ∧
     (Issues s i 0x12 w 1 → s.inRegion i jr = true → ∃ t, exec (.jr now cl th w) s = .next t ∧ t.pc i = jr ∧
       KeepsRegs s t (fun g j => g == .CSQ_TH_STAT_PC && j == i) ∧ KeepsBytes s t nowhere) ∧
     (Issues s i 0x12 w 1 → s.inRegion i jr = false → s.bit .CSQ_TH_EXC_VALID i = false →
       ∃ t, exec (.jr now cl th w) s = .next t ∧ t.pc i = s.pc i ∧ t.thState i = (if (s.thread i).stop = true then 5 else 4) ∧
         t.getF .CSQ_TH_EXC_CODE i = 0x02 ∧ t.getF .CSQ_TH_EXC_PC i = s.pc i % 16384 ∧ KeepsBytes s t nowhere))

/-- LDW and STW to an aligned word of the owner's memory whose check bits are good load and store its four bytes; STW changes
no other byte; a misaligned address raises ADDRESS. COPY that passes its checks waits for the copy channel; COPY_DONE moves the bytes
and lets the thread go on, or raises MEMERR where a memory has gone off; DWR writes its descriptor word. -/
def Obligations.SequencerMemory : Prop :=
  (∀ (now : Nat) (cl : Cluster) (th : Thread) (w : Word) (s : State) (x : Nat),
     let i := thIx cl th
     let f := fieldsOf w
     let a := s.ldAddr i f
     (s.ldCheck i a = .inl x → (∀ k, k ∈ wordsOf x 4 → s.syndrome k = 0) → x % 4 = 0 →
       (Issues s i 0x14 w 1 → ∃ t, exec (.ldw now cl th w) s = .next t ∧ t.greg i f.rd = BitVec.ofNat 32 (s.word x) ∧
         t.pc i = (s.pc i + 1) % 16384 ∧ ThreadOnly (s.advance now) t
           (fun g j => (g == .CSQ_TH_GREG_VALUE && j == i * 16 + f.rd) || (g == .CSQ_TH_STAT_PC && j == i))) ∧
       (Issues s i 0x15 w 1 → ∃ t, exec (.stw now cl th w) s = .next t ∧ t.word x = (s.greg i f.rd).toNat ∧
         t.pc i = (s.pc i + 1) % 16384 ∧ KeepsBytes s t (fun b => decide (x ≤ b ∧ b < x + 4)) ∧
         KeepsRegs s t (fun g j => g == .CSQ_TH_STAT_PC && j == i))) ∧
     (∀ code, s.ldCheck i a = .inr code → s.bit .CSQ_TH_EXC_VALID i = false →
       let halts := fun (t : State) => t.thState i = (if (s.thread i).stop = true then 5 else 4) ∧
         t.getF .CSQ_TH_EXC_CODE i = code % 64 ∧ t.pc i = s.pc i ∧ KeepsBytes s t nowhere
       (a % 4 ≠ 0 → code = 0x06) ∧
       (Issues s i 0x14 w 1 → ∃ t, exec (.ldw now cl th w) s = .next t ∧ halts t) ∧
       (Issues s i 0x15 w 1 → ∃ t, exec (.stw now cl th w) s = .next t ∧ halts t))) ∧
  ((∀ (now : Nat) (cl : Cluster) (th : Thread) (w : Word) (s : State) (p : Nat × Nat),
     let i := thIx cl th
     let f := fieldsOf w
     Issues s i 0x16 w 1 →
     s.copyCheck i (s.greg i f.rd).toNat (s.greg i f.ra).toNat (s.greg i f.rb).toNat = .inl p →
     ∃ t, exec (.copy now cl th w) s = .next t ∧ t.thState i = 3 ∧ t.getF .CSQ_TH_STAT_WAITKIND i = 6 ∧
       (t.thread i).wait = .copy p.1 p.2 (s.greg i f.rb).toNat ∧ t.pc i = (s.pc i + 1) % 16384 ∧ KeepsBytes s t nowhere) ∧
   (∀ (now : Nat) (cl : Cluster) (th : Thread) (s : State) (dst src len : Nat),
     let i := thIx cl th
     (s.thread i).wait = .copy dst src len → s.sharedOn cl.val = true →
     (s.memOn dst = true → s.memOn src = true → ∃ t, exec (.copyDone now cl th) s = .next t ∧
       t.thState i = (if (s.thread i).stop = true then 5 else if (s.thread i).halt = true then 4 else 2) ∧
       t.getF .CSQ_TH_STAT_WAITKIND i = 0 ∧ (t.thread i).wait = .idle ∧ t.pc i = s.pc i ∧ t.cells = s.cells ∧
       t.sram = ((s.advance now).moveBytes (0x10 + cl.val) dst src len).sram) ∧
     (s.memOn dst = false ∨ s.memOn src = false → ∃ t, exec (.copyDone now cl th) s = .next t ∧
       t.thState i = (if (s.thread i).stop = true then 5 else 4) ∧ (t.thread i).wait = .idle ∧ KeepsBytes s t nowhere)) ∧
   (∀ (now : Nat) (cl : Cluster) (th : Thread) (w : Word) (s : State),
     let i := thIx cl th
     let f := fieldsOf w
     let st := bits f.low 11 0
     let y := s.station st
     let a := descAddr y.core y.d + 4 * (24 + bits f.low 16 14)
     Issues s i 0x20 w 1 → s.stationCheck i st false = none →
     (hasDesc y.kind = true → s.coreOn y.core = true → (∀ k, k ∈ wordsOf a 4 → s.syndrome k = 0) →
       ∃ t, exec (.dwr now cl th w) s = .next t ∧ t.word a = (s.greg i f.rd).toNat ∧ t.pc i = (s.pc i + 1) % 16384 ∧
         KeepsBytes s t (fun b => decide (a ≤ b ∧ b < a + 4)) ∧ KeepsRegs s t (fun g j => g == .CSQ_TH_STAT_PC && j == i)) ∧
     (hasDesc y.kind = false ∨ s.coreOn y.core = false →
       ∃ t, exec (.dwr now cl th w) s = .next t ∧ t.pc i = (s.pc i + 1) % 16384 ∧
         ThreadOnly (s.advance now) t (fun g j => g == .CSQ_TH_STAT_PC && j == i))))

/-- FIRE sends a flight of grants to a station that is not parked, and it lands after 8 cycles and 4 a hop; to a parked one it takes
STATION_PARKED and goes on; GRANTS_LAND adds what has arrived. WAIT goes on with p7 = 1 when its condition holds and else waits;
WAIT_RESUME and WAIT_TIMEOUT end the wait with p7 = 1 and p7 = 0. EPW goes on at once when its epoch has come, with p7 = 1, or its
context is not open, with p7 = 0, and else waits; EPA arms its grants for a later epoch with p7 = 1, gives them at once with
p7 = 0 when the epoch has come, and with no room or no open context goes on with p7 = 0. -/
def Obligations.SequencerStationsAndEpochs : Prop :=
  ((∀ (now : Nat) (cl : Cluster) (th : Thread) (w : Word) (s : State),
     let i := thIx cl th
     let x := (fieldsOf w).low
     let st := bits x 11 0
     let y := s.station st
     let n := if x.testBit 20 then (s.greg i (bits x 19 16)).toNat else 1
     let parked := y.state = 3 ∨ (y.holds ≠ [] ∧ y.parkAt = max s.time now + 1)
     Issues s i 0x18 w 1 → s.stationCheck i st true = none →
     (¬ parked → ∃ t, exec (.fire now cl th w) s = .next t ∧ t.flights = s.flights ++
         [{ at_ := max s.time now + 8 + 4 * hops cl.val y.cluster, station := st, grants := n, cl := cl.val, th := th.val, pc := s.pc i, was := y.firer, first := !((s.thread i).fired.contains st) }] ∧
       t.pc i = (s.pc i + 1) % 16384 ∧ (t.station st).grants = y.grants ∧ st ∈ (t.thread i).fired ∧
       KeepsRegs s t (fun g j => g == .CSQ_TH_STAT_PC && j == i) ∧ KeepsBytes s t nowhere) ∧
     (parked → s.bit .CSQ_TH_REGION_STRICT i = false → ∃ t, exec (.fire now cl th w) s = .next t ∧ t.thState i = 2 ∧
       t.pred i 7 = false ∧ t.pc i = (s.pc i + 1) % 16384 ∧ t.flights = s.flights ∧ t.stations = s.stations ∧
       KeepsBytes s t nowhere)) ∧
   (∀ (now : Nat) (st : StationId) (s : State),
     let due := fun (g : Flight) => g.station == st.val && decide (g.at_ ≤ max s.time now)
     let sum := ((s.flights.filter due).map (·.grants)).sum
     let y := s.station st.val
     ∃ t, exec (.grantsLand now st) s = .next t ∧ t.flights = s.flights.filter (fun g => !(due g)) ∧
       (y.state = 0 → (t.station st.val).grants = y.grants) ∧
       (y.state ≠ 0 → y.grants ≤ 65535 → (t.station st.val).grants = min (y.grants + sum) 65535) ∧
       (y.state = 0 ∨ y.grants + sum ≤ 65535 →
         t = { s.advance now with stations := t.stations, flights := t.flights, groups := t.groups }) ∧ KeepsBytes s t nowhere) ∧
   (∀ (now : Nat) (cl : Cluster) (th : Thread) (w w2 : Word) (s : State),
     let i := thIx cl th
     let x := (fieldsOf w).low
     let c := bits x 20 18
     let port := bits x 17 15
     let st := bits x 11 0
     let k := bits w2.toNat 15 0
     let tmo := bits w2.toNat 31 16
     Issues s i 0x19 w 2 → waitBad c port k = false → s.stationCheck i st (decide (2 ≤ c)) = none →
     (c < 2 → port < (if c = 0 then s.inRings st else s.outRings st).length) →
     (s.condHolds c port st k = true → ∃ t, exec (.wait now cl th w w2) s = .next t ∧ t.pred i 7 = true ∧
       t.pc i = (s.pc i + 2) % 16384 ∧ t.thState i = 2 ∧ KeepsBytes s t nowhere) ∧
     (s.condHolds c port st k = false → ∃ t, exec (.wait now cl th w w2) s = .next t ∧ t.thState i = 3 ∧
       (t.thread i).wait = .cond c port st k (if tmo = 0 then none else some (max s.time now + 1000 * tmo)) ∧
       t.getF .CSQ_TH_STAT_WAITKIND i = 1 ∧ t.pc i = (s.pc i + 2) % 16384 ∧ KeepsBytes s t nowhere)) ∧
   (∀ (now : Nat) (cl : Cluster) (th : Thread) (s : State) (c port st k : Nat) (till : Option Nat),
     let i := thIx cl th
     let v := s.thread i
     let resumed := fun (t : State) => t.thState i = (if v.stop = true then 5 else if v.halt = true then 4 else 2) ∧
       (t.thread i).wait = .idle ∧ t.pc i = s.pc i ∧ KeepsBytes s t nowhere
     v.wait = .cond c port st k till →
     ((s.advance now).condHolds c port st k = true → ∃ t, exec (.waitResume now cl th) s = .next t ∧ t.pred i 7 = true ∧
       resumed t) ∧
     (∀ e, till = some e → e ≤ now → (s.advance now).condHolds c port st k = false →
       ∃ t, exec (.waitTimeout now cl th) s = .next t ∧ t.pred i 7 = false ∧ resumed t))) ∧
  (∀ (now : Nat) (cl : Cluster) (th : Thread) (w w2 : Word) (s : State),
     let i := thIx cl th
     let f := fieldsOf w
     let c := bits f.low 6 0
     let x := s.ctx c
     let e := (s.greg i f.rd).toNat
     let st := bits w2.toNat 11 0
     let n := (s.greg i f.ra).toNat
     x.state = 0 ∨ x.owner = s.thOwner i →
     (Issues s i 0x1C w 1 →
       (x.state = 1 → reached e x.epoch = true → ∃ t, exec (.epw now cl th w) s = .next t ∧ t.pred i 7 = true ∧
         t.thState i = 2 ∧ t.pc i = (s.pc i + 1) % 16384) ∧
       (x.state = 1 → reached e x.epoch = false → ∃ t, exec (.epw now cl th w) s = .next t ∧ t.thState i = 3 ∧
         t.getF .CSQ_TH_STAT_WAITKIND i = 4 ∧ (t.thread i).wait = .epoch c e ∧ t.pc i = (s.pc i + 1) % 16384) ∧
       (x.state ≠ 1 → ∃ t, exec (.epw now cl th w) s = .next t ∧ t.pred i 7 = false ∧
         t.thState i = 2 ∧ t.pc i = (s.pc i + 1) % 16384)) ∧
     (Issues s i 0x1D w 2 → w2.toNat < 4096 → s.stationCheck i st true = none →
       (x.state = 1 → reached e x.epoch = true → ∃ t, exec (.epa now cl th w w2) s = .next t ∧ t.pred i 7 = false ∧
         (t.station st).grants = min ((s.station st).grants + n) 65535 ∧ t.pc i = (s.pc i + 2) % 16384) ∧
       (x.state = 1 → reached e x.epoch = false → (s.thread i).armed.length < 16 →
         ∃ t, exec (.epa now cl th w w2) s = .next t ∧
         t.pred i 7 = true ∧ t.pc i = (s.pc i + 2) % 16384 ∧ t.stations = s.stations ∧
         (t.thread i).armed = (s.thread i).armed ++ [{ ctx := c, epoch := e, station := st, grants := n }]) ∧
       (x.state ≠ 1 ∨ (reached e x.epoch = false ∧ 16 ≤ (s.thread i).armed.length) →
         s.bit .CSQ_TH_REGION_STRICT i = false → ∃ t, exec (.epa now cl th w w2) s = .next t ∧ t.pred i 7 = false ∧
           t.pc i = (s.pc i + 2) % 16384 ∧ t.stations = s.stations ∧ (t.thread i).armed = (s.thread i).armed)))

/-- Barriers and broadcasts: BAR and BCAST of a defined group arrive at its instance and wait; the instance ends for all its
threads when every member core and round is in, with p7 = 1, or at its time-out, with p7 = 0; a broadcast leaves the root's
value in the register that each other thread named, and a second root raises GROUP. SNAP of a set of the thread's owner stops the
member cores' tile starts and waits, and SNAPSHOT_DONE ends the instance; DRST of owned cores puts them into reset, and they are in
service again with DOMAIN_RESET_DONE; MPOST to a channel that takes it, bound to the thread's cluster, posts the words and sets p7,
to another it clears p7. -/
def Obligations.SequencerGroups : Prop :=
  ((∀ (now : Nat) (cl : Cluster) (th : Thread) (w : Word) (s : State),
     let i := thIx cl th
     let x := (fieldsOf w).low
     let g := bits x 5 0
     Issues s i 0x1A w 1 → s.groupBad i g (bits x 20 19) = false →
     (s.missed i g = false → ∃ t b, exec (.bar now cl th w) s = .next t ∧ t.thState i = 3 ∧
       t.getF .CSQ_TH_STAT_WAITKIND i = 2 ∧ (t.group g).inst = some b ∧ i ∈ b.threads ∧ t.pc i = (s.pc i + 1) % 16384 ∧
       KeepsBytes s t nowhere) ∧
     (s.missed i g = true → ∃ t, exec (.bar now cl th w) s = .next t ∧ t.thState i = 2 ∧ t.pred i 7 = false ∧
       t.pc i = (s.pc i + 1) % 16384 ∧ t.groups = s.groups)) ∧
   (∀ (now : Nat) (g : Fin 64) (s : State) (b : BarInst),
     let u := (s.advance now).sendRounds g.val
     let x := u.group g.val
     x.inst = some b → u.allHere x b = true → x.roundsIn b = true → u.bcastIn b = false → u.snapIn b = false →
     ∃ t, exec (.barrierRelease now g) s = .next t ∧ (t.group g.val).inst = none ∧
       (t.group g.val).count = x.count + 1 ∧ (t.group g.val).timedOut = false ∧
       (∀ i, i ∈ b.threads → u.thState i = 3 → t.pred i 7 = true ∧
         t.thState i = (if (u.thread i).stop = true then 5 else if (u.thread i).halt = true then 4 else 2))) ∧
   (∀ (now : Nat) (g : Fin 64) (s : State) (b : BarInst),
     let x := s.group g.val
     x.inst = some b → b.first + 1000 * x.timeout ≤ max s.time now →
     ∃ t, exec (.barrierTimeout now g) s = .next t ∧ (t.group g.val).inst = none ∧
       (t.group g.val).count = x.count + 1 ∧ (t.group g.val).timedOut = true ∧
       (∀ i, i ∈ b.threads → s.thState i = 3 → t.pred i 7 = false ∧
         t.thState i = (if (s.thread i).stop = true then 5 else if (s.thread i).halt = true then 4 else 2)) ∧
       KeepsBytes s t nowhere) ∧
   (∀ (now : Nat) (cl : Cluster) (th : Thread) (w : Word) (s : State),
     let i := thIx cl th
     let f := fieldsOf w
     let g := bits f.low 5 0
     let root := f.low.testBit 16
     let rooted := match (s.group g).inst with | some b => b.value.isSome | none => (s.group g).earlyVal.isSome
     Issues s i 0x1B w 1 → s.groupBad i g 4 = false → s.missed i g = false →
     ((root && rooted) = false → ∃ t b, exec (.bcast now cl th w) s = .next t ∧ t.thState i = 3 ∧
       t.getF .CSQ_TH_STAT_WAITKIND i = 3 ∧ (t.group g).inst = some b ∧ i ∈ b.threads ∧
       (root = true → b.value = some (s.greg i f.rd)) ∧ t.pc i = (s.pc i + 1) % 16384 ∧ KeepsBytes s t nowhere) ∧
     ((root && rooted) = true → s.bit .CSQ_TH_EXC_VALID i = false → ∃ t, exec (.bcast now cl th w) s = .next t ∧
       t.thState i = (if (s.thread i).stop = true then 5 else 4) ∧ t.getF .CSQ_TH_EXC_CODE i = 0x08 ∧ t.groups = s.groups)) ∧
   (∀ (now : Nat) (g : Fin 64) (s : State) (b : BarInst) (v : Word),
     let u := (s.advance now).sendRounds g.val
     let x := u.group g.val
     x.inst = some b → b.value = some v → u.allHere x b = true → x.roundsIn b = true → u.bcastIn b = true →
     (∀ i k r, i ∈ b.threads → (u.thread i).wait = .group k (some r) → r < 16) →
     ∃ t, exec (.bcastDeliver now g) s = .next t ∧ (t.group g.val).inst = none ∧
       (t.group g.val).count = x.count + 1 ∧
       (∀ i k r, i ∈ b.threads → (u.thread i).wait = .group k (some r) → t.greg i r = v))) ∧
  ((∀ (now : Nat) (cl : Cluster) (th : Thread) (w : Word) (s : State) (d : SnapSet),
     let i := thIx cl th
     let n := bits (fieldsOf w).low 5 0
     Issues s i 0x1E w 1 → smapGet none s.sets n = some d → d.owner = s.thOwner i → s.groupBad i d.group 4 = false →
     s.missed i d.group = false →
     ∃ t, exec (.snap now cl th w) s = .next t ∧ Snapshot.mk n i ∈ t.snaps ∧ t.thState i = 3 ∧
       t.getF .CSQ_TH_STAT_WAITKIND i = 5 ∧ (∀ core, core ∈ (s.group d.group).coresOf (i / 8) → t.frozen core = true) ∧
       t.pc i = (s.pc i + 1) % 16384 ∧ KeepsBytes s t nowhere) ∧
   (∀ (now : Nat) (cl : Cluster) (th : Thread) (s : State) (n : Nat) (d : SnapSet) (b : BarInst),
     let i := thIx cl th
     let u := (s.advance now).sendRounds d.group
     let x := u.group d.group
     (s.thread i).wait = .snap n → smapGet none s.sets n = some d → x.inst = some b → i ∈ b.threads →
     u.allHere x b = true → x.roundsIn b = true →
     ∃ t, exec (.snapshotDone now cl th) s = .next t ∧ (t.group d.group).inst = none ∧
       (∀ y, y ∈ t.snaps → b.threads.contains y.th = false) ∧ t.cells = s.cells) ∧
   (∀ (now : Nat) (cl : Cluster) (th : Thread) (w : Word) (s : State),
     let i := thIx cl th
     let x := (fieldsOf w).low
     let cold := x.testBit 8
     let cores := ((List.range 8).filter (fun k => x.testBit k)).map (fun k => 8 * cl.val + k)
     Issues s i 0x1F w 1 → (∀ c, c ∈ cores → ∃ p, s.part (s.thOwner i) = some p ∧ c ∈ p.cores) →
     (cores ≠ [] → ∃ t, exec (.drst now cl th w) s = .next t ∧ t.thState i = 3 ∧ t.getF .CSQ_TH_STAT_WAITKIND i = 5 ∧
       (t.thread i).wait = .reset cold cores ∧ DomReset.mk i cold cores ∈ t.resets ∧ t.pc i = (s.pc i + 1) % 16384 ∧
       (∀ c, c ∈ cores → t.getF .STP_STAT_STATE c = 3 ∧ t.coreTiles c = [] ∧ (cold = true → t.coreOn c = false)) ∧
       t.cells = s.cells) ∧
     (cores = [] → ∃ t, exec (.drst now cl th w) s = .next t ∧ t.thState i = 2 ∧ t.pred i 7 = true ∧
       t.pc i = (s.pc i + 1) % 16384 ∧ t.resets = s.resets)) ∧
   (∀ (now : Nat) (cl : Cluster) (th : Thread) (s : State) (r : DomReset),
     let i := thIx cl th
     let v := s.thread i
     s.resets.find? (fun q => q.th == i) = some r → (∀ c, c ∈ r.cores → (s.advance now).backInService r.cold c = true) →
     ∃ t, exec (.domainResetDone now cl th) s = .next t ∧ t.resets = s.resets.erase r ∧
       (∀ c, c ∈ r.cores → (∀ q, q ∈ s.resets.erase r → c ∉ q.cores) → t.getF .STP_STAT_STATE c = 1) ∧
       ((∃ cold cs, v.wait = .reset cold cs) → (∀ q, q ∈ s.resets.erase r → q.th ≠ i) →
         t.thState i = (if v.stop = true then 5 else if v.halt = true then 4 else 2) ∧ t.pred i 7 = true) ∧
       KeepsBytes s t nowhere) ∧
   (∀ (now : Nat) (cl : Cluster) (th : Thread) (w : Word) (s : State) (p : Partition),
     let i := thIx cl th
     let f := fieldsOf w
     let ch := bits f.low 5 0
     let ok := (s.advance now).mbxTakes ch && s.mbxBound ch && s.mbxSender ch == 0x10 + cl.val
     Issues s i 0x24 w 1 → s.part (s.thOwner i) = some p → (ch, i) ∈ p.chans →
     (ok = true → ∃ t, exec (.mpost now cl th w) s = .next t ∧ t.mbxFull ch = true ∧
       t.getF .MBX_CH_STAT_NWORDS ch = (f.ra + 1) % 32 ∧ t.pred i 7 = true ∧ t.pc i = (s.pc i + 1) % 16384 ∧
       (∀ k, k < f.ra + 1 → t.getF .MBX_CH_DATA_WORD (ch * 16 + k) = (s.greg i ((f.rd + k) % 16)).toNat) ∧
       KeepsBytes s t nowhere) ∧
     (ok = false → ∃ t, exec (.mpost now cl th w) s = .next t ∧ t.pred i 7 = false ∧ t.pc i = (s.pc i + 1) % 16384 ∧
       t.channels = s.channels ∧
       ThreadOnly (s.advance now) t (fun g j => (g == .CSQ_TH_PRED_P || g == .CSQ_TH_STAT_PC) && j == i))))

/-- STOP and RESTART by the physical function or the thread's owner: a running or waiting thread stops, but amid a COPY, SNAP or DRST,
which completes first, and a restarted one runs from the first word of its region with registers, predicates and counters at 0; the
exception captures of threads and steppers are armed again by clearing VALID. Guards and exceptions: a false guard skips an
instruction whatever its other fields hold; a reserved opcode or field raises ILLEGAL on the instruction's word, which halts the
thread at it; the first capture holds and a later exception sets OVERRUN. -/
def Obligations.ThreadsAndExceptions : Prop :=
  ((∀ (now : Nat) (fn : Func) (cl : Cluster) (th : Thread) (s : State),
     let i := 8 * cl.val + th.val
     let running := s.thState i = 2 ∨ (s.thState i = 3 ∧ s.midway i = false)
     Hosted s fn.val →
     (s.mayThread fn.val i = true → s.sharedOn cl.val = true →
      (running → ∃ t, exec (.threadStop now fn cl th) s = .next t ∧ t.thState i = 5 ∧ (t.thread i).armed = [] ∧
        ((∀ d x n, (s.thread i).wait ≠ .copy d x n) → KeepsBytes s t nowhere)) ∧
      (s.thState i = 3 → s.midway i = true → exec (.threadStop now fn cl th) s =
        .next ((s.advance now).setThread i { s.thread i with stop := true })) ∧
      (s.thState i ≠ 0 → ∃ t, exec (.threadRestart now fn cl th) s = .next t ∧
        t.thState i = 2 ∧ t.pc i = s.getF .CSQ_TH_REGION_BASE i % 16384 ∧ (∀ n, n < 16 → t.greg i n = 0) ∧
        (∀ p, t.pred i p = false) ∧ ((∀ d x n, (s.thread i).wait ≠ .copy d x n) → KeepsBytes s t nowhere))) ∧
     (s.mayThread fn.val i = false →
      exec (.threadStop now fn cl th) s = .next ((s.advance now).denied fn.val) ∧
      exec (.threadRestart now fn cl th) s = .next ((s.advance now).denied fn.val))) ∧
   (∀ (now : Nat) (cl : Cluster) (th : Thread) (s : State), s.sharedOn cl.val = true →
     exec (.threadExcClear now cl th) s = .next ((s.advance now).setF .CSQ_TH_EXC_VALID (thIx cl th) 0)) ∧
   (∀ (now : Nat) (cl : Cluster) (co : Core) (s : State), s.coreOn (coreIx cl co) = true →
     exec (.stepperExcClear now cl co) s = .next ((s.advance now).setF .STP_EXC_VALID (coreIx cl co) 0))) ∧
  ((∀ (s : State) (i n : Nat) (w : Word) (body : State → State),
     let f := fieldsOf w
     s.thState i = 2 → s.sharedOn (i / 8) = true → s.inRegion i (s.pc i) = true →
     (f.g = true → s.pred i f.p = f.n →
       (s.issue i w n body).pc i = (s.pc i + n) % 16384 ∧
       ThreadOnly s (s.issue i w n body) (fun g j => g == .CSQ_TH_STAT_PC && j == i)) ∧
     ((f.g = false ∨ s.pred i f.p ≠ f.n) → (opcodes.contains f.op = false ∨ f.low &&& reservedMask f.op ≠ 0) →
       (s.issue i w n body).thState i = (if (s.thread i).stop = true then 5 else 4) ∧
       (s.issue i w n body).pc i = s.pc i ∧
       (s.bit .CSQ_TH_EXC_VALID i = false → (s.issue i w n body).getF .CSQ_TH_EXC_CODE i = 0x01 ∧
         (s.issue i w n body).getF .CSQ_TH_EXC_PC i = s.pc i % 16384) ∧
       (s.bit .CSQ_TH_EXC_VALID i = true → (s.issue i w n body).getF .CSQ_TH_EXC_OVERRUN i = 1 ∧
         (s.issue i w n body).getF .CSQ_TH_EXC_CODE i = s.getF .CSQ_TH_EXC_CODE i) ∧
       KeepsBytes s (s.issue i w n body) nowhere)))

/-- The binding table is written until it is locked; a pair that a binding may not have leaves VALID at 0; a locked table does
not change. A post from the bound sender into a channel that takes it starts its time-out; the bound receiver's
acknowledgement empties it and its data read 0; the time-out is flagged once for each post; the sender clears the flag; the physical
function alone flushes; whatever any other master writes leaves the channel as it is. -/
def Obligations.MailboxChannels : Prop :=
  (∀ (now : Nat) (ch : Fin 64) (v : Word) (s : State),
     let snd := bits v.toNat 15 8
     let rcv := bits v.toNat 7 0
     let tmo := bits v.toNat 19 0
     (s.bit .MBX_LOCK_LOCK 0 = false → mbxSenderOk snd = true → mbxReceiverOk rcv = true → snd ≠ rcv →
       ∃ t, exec (.mailboxBind now ch false v) s = .next t ∧ t.getF .MBX_BIND_VALID ch.val = bits v.toNat 31 31 ∧
         t.getF .MBX_BIND_SENDER ch.val = snd ∧ t.getF .MBX_BIND_RECEIVER ch.val = rcv ∧
         t = { s.advance now with regs := t.regs } ∧
         KeepsRegs s t (fun f i => [Fld.MBX_BIND_VALID, .MBX_BIND_SENDER, .MBX_BIND_RECEIVER].contains f && i == ch.val)) ∧
     (s.bit .MBX_LOCK_LOCK 0 = false → (mbxSenderOk snd && mbxReceiverOk rcv && snd != rcv) = false →
       exec (.mailboxBind now ch false v) s = .next ((s.advance now).setF .MBX_BIND_VALID ch.val 0)) ∧
     (s.bit .MBX_LOCK_LOCK 0 = false → exec (.mailboxBind now ch true v) s = .next
       (if 1 ≤ tmo ∧ tmo ≤ 1000000 then (s.advance now).setF .MBX_TMO_TMO ch.val tmo
        else (s.advance now).setF .MBX_BIND_VALID ch.val 0)) ∧
     (s.bit .MBX_LOCK_LOCK 0 = true → ∀ tmo, exec (.mailboxBind now ch tmo v) s = .next (s.advance now)) ∧
     (exec (.mailboxLock now) s = .next ((s.advance now).setF .MBX_LOCK_LOCK 0 1))) ∧
  (∀ (now : Nat) (m : Master) (ch : Fin 64) (nm1 : Fin 16) (s : State),
     let c := ch.val
     let x := s.chan c
     let by_ := isHost m.val = true → Hosted s (hostFn m.val)
     (by_ → s.mbxBound c = true → s.mbxSender c = m.val → (s.advance now).mbxTakes c = true →
       ∃ t, exec (.mailboxPost now m ch nm1) s = .next t ∧ t.mbxFull c = true ∧ t.getF .MBX_CH_STAT_NWORDS c = nm1.val + 1 ∧
         (t.chan c).posted = max s.time now ∧ (t.chan c).expired = false ∧ t.getF .MBX_CH_STAT_TMO c = 0 ∧
         (∀ k, k ≤ nm1.val → t.getF .MBX_CH_DATA_WORD (c * 16 + k) = s.getF .MBX_CH_DATA_WORD (c * 16 + k) % 4294967296) ∧
         KeepsBytes s t nowhere) ∧
     (by_ → s.mbxBound c = true → s.mbxReceiver c = m.val → s.mbxFull c = true →
       ∃ t, exec (.mailboxAck now m ch) s = .next t ∧ t.mbxFull c = false ∧ (t.chan c).ackedAt = some (max s.time now) ∧
         (∀ k, k < 16 → t.getF .MBX_CH_DATA_WORD (c * 16 + k) = 0) ∧ KeepsBytes s t nowhere) ∧
     (s.mbxFull c = true → x.expired = false → x.posted + 1000 * s.getF .MBX_TMO_TMO c ≤ max s.time now →
       ∃ t, exec (.mailboxTimeout now ch) s = .next t ∧ t.getF .MBX_CH_STAT_TMO c = 1 ∧ t.mbxFull c = true ∧
         (t.chan c).expired = true ∧ KeepsRegs s t (fun f i => f == .MBX_CH_STAT_TMO && i == c) ∧ KeepsBytes s t nowhere) ∧
     (x.expired = true → exec (.mailboxTimeout now ch) s = .next (s.advance now)) ∧
     (by_ → s.mbxBound c = true → s.mbxSender c = m.val →
       exec (.clrtmo now m ch) s = .next ((s.advance now).setF .MBX_CH_STAT_TMO c 0)) ∧
     (by_ → m.val = 0x20 → ∃ t, exec (.flush now m ch) s = .next t ∧ t.mbxFull c = false ∧
       (s.mbxFull c = true ∨ x.ackedAt = some (max s.time now) → t.getF .MBX_CH_STAT_DISCARD c = 1) ∧
       (t.chan c).flushedAt = some (max s.time now) ∧ KeepsBytes s t nowhere) ∧
     (by_ → m.val < 0x80 → s.mbxSender c ≠ m.val → exec (.mailboxPost now m ch nm1) s = .next (s.advance now)) ∧
     (by_ → m.val < 0x80 → m.val ≠ 0x20 → exec (.flush now m ch) s = .next (s.advance now)))

/-! ### Domains and links -/

/-- A domain that is needed and off comes on in its turn, a core with its cluster's shared domain, one that is on and needed
no longer goes off; memory that comes on reads 0 but for what the loaded partitions' images put there; the host's requests for
LINK and OBS are stored. -/
def Obligations.DomainsSwitch : Prop :=
  (∀ (now : Nat) (cl : Cluster) (s : State), (s.advance now).needShared cl.val = true → s.sharedOn cl.val = false →
    (s.advance now).inrushOk cl.val = true →
    ∃ t, exec (.domainSwitchOn now (.shared cl)) s = .next t ∧ t.sharedOn cl.val = true ∧ t.cells = s.cells ∧
      (s.parts = [] → (∀ a, kmBase cl.val ≤ a → a < kmBase cl.val + 0x400000 → t.byte a = 0) ∧
        KeepsBytes s t (fun a => decide (kmBase cl.val ≤ a ∧ a < kmBase cl.val + 0x400000)))) ∧
  (∀ (now : Nat) (cl : Cluster) (co : Core) (s : State),
    let core := coreIx cl co
    (s.advance now).needCore core = true → s.coreOn core = false → (s.advance now).inrushOk cl.val = true →
    ∃ t, exec (.domainSwitchOn now (.core cl co)) s = .next t ∧ t.coreOn core = true ∧ t.sharedOn cl.val = true ∧
      t.cells = s.cells ∧
      (s.parts = [] → ∀ a, cmBase core ≤ a → a < cmBase core + 0x80000 → t.byte a = 0)) ∧
  (∀ (now : Nat) (cl : Cluster) (co : Core) (s : State),
    let core := coreIx cl co
    s.coreOn core = true → s.coreTiles core = [] → (s.advance now).needCore core = false →
    ∃ t, exec (.domainSwitchOff now (.core cl co)) s = .next t ∧ t.coreOn core = false ∧ t.cells = s.cells) ∧
  (∀ (now : Nat) (cl : Cluster) (s : State), s.sharedOn cl.val = true → (s.advance now).needShared cl.val = false →
    ∃ t, exec (.domainSwitchOff now (.shared cl)) s = .next t ∧ t.sharedOn cl.val = false ∧ t.cells = s.cells) ∧
  (∀ (now : Nat) (d : Domain) (b : Nat) (s : State), dieBit d = some b →
    (s.dieOn b = false → (s.advance now).needDie b = true →
      ∃ t, exec (.domainSwitchOn now d) s = .next t ∧ t.dieOn b = true ∧ KeepsBytes s t nowhere ∧ t.cells = s.cells) ∧
    (s.dieOn b = true → (s.advance now).needDie b = false →
      ∃ t, exec (.domainSwitchOff now d) s = .next t ∧ t.dieOn b = false ∧ t.cells = s.cells ∧
        (b ≠ 1 → KeepsBytes s t nowhere))) ∧
  (∀ (now : Nat) (off : Bool) (s : State),
    exec (.diedomOffRequest now true off) s = .next ((s.advance now).setB .PWR_DIEDOM_LINK_OFF 0 off) ∧
    exec (.diedomOffRequest now false off) s = .next ((s.advance now).setB .PWR_DIEDOM_OBS_OFF 0 off))

/-- Bring-up of a port: the table is locked, an enabled port trains, at least 4 lanes identify, 64 exchanges bring it up, and
a port that went down trains again after 100 ms. TIME_EXCHANGE of a port that is up takes the exchange with the smallest delay
as the peer's offset, exactly where it is a whole number of ns; a port that goes down, whatever the cause, loses its tiles and sequence
numbers and counts it: it retries, or is off where EN or its domain is. -/
def Obligations.LinksComeAndGo : Prop :=
  (∀ (now : Nat) (p : Fin 4) (s : State), s.dieOn 1 = true →
     (exec (.linkLock now) s = .next ((s.advance now).setF .LNK_CFG_LOCK 0 1)) ∧
     (s.bit .LNK_CFG_LOCK 0 = true → s.bit .LNK_PCFG_EN p.val = false → ∃ t, exec (.linkPortEnable now p) s = .next t ∧
       t.getF .LNK_PCFG_EN p.val = 1 ∧ t.portState p.val = 1 ∧ t.getF .LNK_PSTAT_REASON p.val = 0 ∧
       t = { s.advance now with regs := t.regs }) ∧
     (s.bit .LNK_CFG_LOCK 0 = false ∨ s.bit .LNK_PCFG_EN p.val = true →
       exec (.linkPortEnable now p) s = .next (s.advance now)) ∧
     (∀ lanes : BitVec 8, s.portState p.val = 1 →
       let n := ((List.range 8).filter (fun l => lanes.getLsbD l)).length
       (4 ≤ n → ∃ t, exec (.linkTrainingDone now p lanes) s = .next t ∧ t.portState p.val = 2 ∧
         t.getF .LNK_PSTAT_LANES p.val = lanes.toNat ∧ KeepsBytes s t nowhere ∧
         (s.sendsAtOnce p.val → t.out = .frame p.val 0xB 0 0 s.idPayload :: s.out)) ∧
       (n < 4 → exec (.linkTrainingDone now p lanes) s = .next (s.advance now))) ∧
     (s.portState p.val = 3 → 64 ≤ (s.link p.val).samples.length → ∃ t, exec (.linkUp now p) s = .next t ∧
       t.portState p.val = 4 ∧ (t.link p.val).samples = [] ∧ (t.link p.val).outage = [] ∧ KeepsBytes s t nowhere) ∧
     (s.portState p.val = 6 → s.bit .LNK_PCFG_EN p.val = true → (s.link p.val).lostAt + 100000000 ≤ max s.time now →
       exec (.linkRetry now p) s = .next ((s.advance now).setF .LNK_PSTAT_STATE p.val 1))) ∧
  ((∀ (now : Nat) (p : Fin 4) (stamps : List Stamps) (s : State) (y : Int × Int),
     let peer := s.getF .LNK_PSTAT_PEER p.val
     s.dieOn 1 = true → s.linkUp p.val = true → peer < 8 →
     bestSample (stamps.map (fun x => (x.delay, x.offset2))) = some y →
     ∃ t, exec (.timeExchange now p stamps) s = .next t ∧
       (smapGet 0 t.offsets peer = y.2 / 2 ∨ (y.2 % 2 ≠ 0 ∧ smapGet 0 t.offsets peer = y.2 / 2 + 1)) ∧
       (t.getF .LNK_OFSVAL_VALID 0).testBit peer = true ∧
       t = { s.advance now with offsets := t.offsets, links := t.links, regs := t.regs, fresh := t.fresh }) ∧
   (∀ (now : Nat) (p : Fin 4) (cause : LinkDownCause) (s : State),
     s.dieOn 1 = true → 2 ≤ s.portState p.val → s.portState p.val ≤ 4 →
     (cause = .replays → 8 ≤ (s.link p.val).tries) → (cause = .enCleared → s.bit .LNK_PCFG_EN p.val = true) →
     ∃ t, exec (.linkDown now p cause) s = .next t ∧
       t.portState p.val = (match cause with | .lanesLost => 6 | .replays => 6 | .domainOff => 0 | .enCleared => 0) ∧
       (cause = .enCleared → t.getF .LNK_PCFG_EN p.val = 0) ∧ t.getF .LNK_PSTAT_LANES p.val = 0 ∧
       t.getF .LNK_PDOWNCNT_COUNT p.val = min (s.getF .LNK_PDOWNCNT_COUNT p.val + 1) (2 ^ Fld.LNK_PDOWNCNT_COUNT.width - 1) ∧
       (t.link p.val).open_ = [] ∧ (t.link p.val).sending = [] ∧ (t.link p.val).rx = 0 ∧ t.cells = s.cells))

/-- Flits and replay: a flit in sequence is taken and its FSEQ is the next; one out of sequence, or broken, is answered with
NAK and its FSEQ is expected still; 2 us without acknowledgement, or a NAK, replays from the oldest flit that is asked for and
counts it, and the eighth in succession takes the port down; a reserved type counts as broken. Tiles over a link: a head with a credit
and an Empty slot opens its channel's next slot, tearing an open tile, data extends the open tile until its last element fills the slot,
an abort tears it, a credit adds to the channel's; a tile of a send ring goes as head and data, its slot Reading and one credit spent, a
torn one is discarded, and one that cannot go is an outage. -/
def Obligations.FlitsAndTiles : Prop :=
  ((∀ (now : Nat) (p : Fin 4) (f : Flit) (s : State), InSequence s p.val f →
     ∃ t, exec (.idle now p f) s = .next t ∧ (t.link p.val).rx = ((s.link p.val).rx + 1) % 4096 ∧ KeepsBytes s t nowhere) ∧
   (∀ (now : Nat) (p : Fin 4) (f : Flit) (crc : Bool) (s : State), s.portTrained p.val = true →
     let nak := fun (t : State) => (t.link p.val).rx = (s.link p.val).rx ∧ (s.sendsAtOnce p.val →
       t.out = .frame p.val 0xA 0 (s.getF .LNK_PSTAT_PEER p.val) (leBytes 2 (s.link p.val).rx) :: s.out)
     (f.fseq.toNat ≠ (s.link p.val).rx → ∃ t, exec (.idle now p f) s = .next t ∧ nak t) ∧
     (∃ t, exec (.flitCrcError now p crc) s = .next t ∧ nak t ∧ t.getF .LNK_PCRCERR_COUNT p.val =
       (if crc = true then min (s.getF .LNK_PCRCERR_COUNT p.val + 1) (2 ^ Fld.LNK_PCRCERR_COUNT.width - 1)
        else s.getF .LNK_PCRCERR_COUNT p.val))) ∧
   (∀ (now : Nat) (p : Fin 4) (s : State), s.portTrained p.val = true → (s.link p.val).ackAt + 2000 ≤ max s.time now →
     (s.link p.val).buf ≠ [] → ∃ t, exec (.replayTimeout now p) s = .next t ∧
       t.getF .LNK_PREPLAY_COUNT p.val = min (s.getF .LNK_PREPLAY_COUNT p.val + 1) (2 ^ Fld.LNK_PREPLAY_COUNT.width - 1) ∧
       ((s.link p.val).tries < 7 → (t.link p.val).tries = (s.link p.val).tries + 1 ∧
         (t.link p.val).buf = (s.link p.val).buf ∧
         t.out = (((s.link p.val).buf.map (fun q => Output.frame p.val q.type q.lchan q.dst q.payload)).reverse ++ s.out)) ∧
       (7 ≤ (s.link p.val).tries → t.portState p.val = 6)) ∧
   (∀ (now : Nat) (p : Fin 4) (f : Flit) (s : State), InSequence s p.val f →
     let u := (s.advance now).taken p.val f
     (u.link p.val).buf.any (fun q => q.fseq == f.num 0 2 % 4096) = true → (u.link p.val).tries < 7 →
     ∃ t, exec (.nak now p f) s = .next t ∧ (t.link p.val).tries = (u.link p.val).tries + 1 ∧
       t.getF .LNK_PREPLAY_COUNT p.val = min (s.getF .LNK_PREPLAY_COUNT p.val + 1) (2 ^ Fld.LNK_PREPLAY_COUNT.width - 1)) ∧
   (∀ (now : Nat) (p : Fin 4) (ty : Byte) (f : Flit) (s : State), InSequence s p.val f → 0x0C ≤ ty.toNat →
     ∃ t, exec (.flitReservedType now p ty f) s = .next t ∧
       t.getF .LNK_PCRCERR_COUNT p.val = min (s.getF .LNK_PCRCERR_COUNT p.val + 1) (2 ^ Fld.LNK_PCRCERR_COUNT.width - 1))) ∧
  (∀ (now : Nat) (p : Fin 4) (f : Flit) (s : State),
     let u := (s.advance now).taken p.val f
     let x := u.link p.val
     let c := f.lchan.toNat
     InSequence s p.val f → u.portState p.val = 4 → f.dst.toNat = u.devId →
     (∀ st h, u.linkStation 9 p.val c = some (st, h) → smapGet none x.open_ c = none → u.slot (u.nextWr h) = 0 →
       u.slotOn (u.nextWr h) = true → smapGet 0 x.given c ≠ 0 → ∃ t o, exec (.tileHead now p f) s = .next t ∧
         smapGet none (t.link p.val).open_ c = some o ∧ o.slot = u.nextWr h ∧ o.head = f.payload.take 64 ∧ o.codes = [] ∧
         t.slot (u.nextWr h) = 1 ∧ ((u.station st).state = 1 → (t.station st).state = 2) ∧ KeepsBytes s t nowhere) ∧
     (∀ st h o, u.linkStation 9 p.val c = some (st, h) → smapGet none x.open_ c = some o →
       let codes := o.codes ++ f.payload.take 240
       let total := leNat ((o.head.drop 0x1C).take 1) * leNat ((o.head.drop 0x20).take 2)
       (∃ t, exec (.tileHead now p f) s = .next t ∧ (t.hdrFlags o.slot).testBit 2 = true) ∧
       (codes.length < total → ∃ t, exec (.tileData now p f) s = .next t ∧
         smapGet none (t.link p.val).open_ c = some { o with codes := codes } ∧ KeepsBytes s t nowhere) ∧
       (total ≤ codes.length → ∃ t, exec (.tileData now p f) s = .next t ∧ smapGet none (t.link p.val).open_ c = none ∧
         ((∀ g, u.ringOf o.slot = some g → (u.ring g).owed = []) → t.slot o.slot = 2)) ∧
       (∃ t, exec (.tileAbort now p f) s = .next t ∧ smapGet none (t.link p.val).open_ c = none ∧
         (t.hdrFlags o.slot).testBit 2 = true)) ∧
     (∃ t, exec (.credit now p f) s = .next t ∧
       smapGet 0 (t.link p.val).credits c = smapGet 0 x.credits c + f.num 0 1 ∧ KeepsBytes s t nowhere)) ∧
  (∀ (now : Nat) (p : Fin 4) (s : State),
     let x := s.link p.val
     let good := (s.senders p.val).filter (fun e => s.linkUp p.val && (s.ring e.2).peer == s.getF .LNK_PSTAT_PEER p.val)
     let ready := good.filter (fun e => x.held.isEmpty && decide (0 < smapGet 0 x.credits (s.ring e.2).lchan))
     let deficit := x.deficit.filter (fun e => (s.senders p.val).any (fun y => (s.station y.1).owner == e.1))
     s.dieOn 1 = true →
     (good = s.senders p.val →
      (∀ st h df, good.find? (fun e => s.torn (s.nextRd e.2)) = none → s.drr p.val ready deficit 256 = some (st, h, df) →
       ∃ t, exec (.linkSendTile now p) s = .next t ∧ t.slot (s.nextRd h) = 3 ∧
         smapGet 0 (t.link p.val).credits (s.ring h).lchan = smapGet 0 x.credits (s.ring h).lchan - 1 ∧
         (∃ y, y ∈ (t.link p.val).sending ∧ y.st = st ∧ y.slot = s.nextRd h) ∧ KeepsBytes s t nowhere) ∧
      (∀ e, good.find? (fun e => s.torn (s.nextRd e.2)) = some e → ∃ t, exec (.linkSendTile now p) s = .next t ∧
        t.torn (s.nextRd e.2) = false ∧ KeepsBytes s t nowhere)) ∧
     (s.linkUp p.val = false → ∃ t, exec (.linkSendTile now p) s = .next t ∧
       (∀ e, e ∈ s.senders p.val → e.1 ∈ (t.link p.val).outage) ∧ KeepsBytes s t nowhere))

/-- The other frames of a port that is up: a barrier round and a broadcast value are kept for the instance in progress, or ahead for
the next, and a record that differs disables the group; a mailbox post fills its channel and an acknowledgement empties it; a time
request is answered with the device time, and a reply ends an exchange; an ID frame without conflict names the peer and begins the
exchanges, one with a conflict refuses the port. -/
def Obligations.LinkFrames : Prop :=
  ∀ (now : Nat) (p : Fin 4) (f : Flit) (s : State),
    let u := (s.advance now).taken p.val f
    let g := f.num 0 1 % 64
    let x := u.group g
    let ch := f.num 0 1
    let v : Word := BitVec.ofNat 32 (f.num 3 4)
    let same := f.num 4 1 = x.scope ∧ f.num 5 1 = x.devmask ∧ f.num 6 4 = x.timeout
    let stamps : Stamps := { t1 := f.num 0 8, t2 := f.num 8 8, t3 := f.num 16 8, t4 := u.clock }
    InSequence s p.val f →
    (u.portState p.val = 4 → f.dst.toNat = u.devId →
      (x.defined = true → x.scope = 2 → x.disabled = false →
        (f.num 1 2 = 0 → f.num 3 1 = 0 → x.checked = false → ¬ same →
          ∃ t, exec (.barrierFrame now p f) s = .next t ∧ (t.group g).disabled = true ∧ (t.group g).inst = none) ∧
        (f.num 1 2 = x.count % 65536 → (x.checked = true ∨ same) →
          (x.inst = none → ∃ t, exec (.barrierFrame now p f) s = .next t ∧ (t.group g).early = x.early ++ [f.num 3 1] ∧
            (t.group g).inst = none ∧ KeepsBytes s t nowhere) ∧
          (∀ b, x.inst = some b → ∃ t c, exec (.barrierFrame now p f) s = .next t ∧ (t.group g).inst = some c ∧
            f.num 3 1 ∈ c.rounds ∧ KeepsBytes s t nowhere)) ∧
        (f.num 1 2 = x.count % 65536 →
          (x.inst = none → ∃ t, exec (.bcastFrame now p f) s = .next t ∧
            (t.group g).earlyVal = some (x.earlyVal.getD v) ∧ KeepsBytes s t nowhere) ∧
          (∀ b, x.inst = some b → ∃ t, exec (.bcastFrame now p f) s = .next t ∧
            (t.group g).inst = some { b with value := some (b.value.getD v) } ∧ KeepsBytes s t nowhere))) ∧
      (ch < 64 → 1 ≤ f.num 1 1 → f.num 1 1 ≤ 16 → u.mbxBound ch = true → u.mbxSender ch = 0x30 + p.val →
        u.mbxTakes ch = true → ∃ t, exec (.mbxPostFrame now p f) s = .next t ∧ t.mbxFull ch = true ∧
          t.getF .MBX_CH_STAT_NWORDS ch = f.num 1 1 ∧ KeepsBytes s t nowhere) ∧
      (ch < 64 → u.mbxBound ch = true → u.mbxReceiver ch = 0x30 + p.val → u.mbxFull ch = true →
        ∃ t, exec (.mbxAckFrame now p f) s = .next t ∧ t.mbxFull ch = false ∧ KeepsBytes s t nowhere)) ∧
    (3 ≤ u.portState p.val → f.num 24 1 % 2 = 0 → ∃ t, exec (.timeFrame now p f) s = .next t ∧ KeepsBytes s t nowhere ∧
      (u.sendsAtOnce p.val → Output.frame p.val 9 0 (u.getF .LNK_PSTAT_PEER p.val)
        (leBytes 8 (f.num 0 8) ++ leBytes 8 u.clock ++ leBytes 8 u.clock ++ leBytes 1 1) ∈ t.out)) ∧
    (3 ≤ u.portState p.val → f.num 24 1 % 2 ≠ 0 → ∃ t, exec (.timeFrame now p f) s = .next t ∧ KeepsBytes s t nowhere ∧
      t.getF .LNK_PDLY_DELAY p.val = min stamps.delay.toNat 65535 ∧
      (u.portState p.val = 3 →
        (t.link p.val).samples = (u.link p.val).samples ++ [(stamps.delay, stamps.offset2)])) ∧
    (u.portState p.val = 2 → f.entries ≠ [] →
      (u.idConflict f.entries = none → ∃ t, exec (.idFrame now p f) s = .next t ∧ t.portState p.val = 3 ∧
        t.getF .LNK_PSTAT_PEER p.val = f.num 0 1 % 8 ∧ KeepsBytes s t nowhere) ∧
      (∀ r, u.idConflict f.entries = some r →
        ∃ t, exec (.idFrame now p f) s = .next t ∧ t.portState p.val = 5 ∧
          t.getF .LNK_PSTAT_REASON p.val = r % 2 ^ Fld.LNK_PSTAT_REASON.width))

/-! ### Functions, commands and partitions -/

/-- VF_FLR of an enabled virtual function resets it: its registers stand at their reset values, its rings and its service
queue are empty, it holds no partition, the memory of its claims is zero, and until VF_FLR_DONE it is in reset; accepted commands other
than loads stay (R305, R318). A function that is not enabled has none. PF_FLR resets the physical function the same way, with every
enabled virtual function, and it serves at once (R320). -/
def Obligations.FunctionResets : Prop :=
  (∀ (now : Nat) (tn : Fin 128) (s : State), (s.fnst (tn.val + 1)).enabled = true →
    ∃ t, exec (.vfFlr now tn) s = .next t ∧ (t.fnst (tn.val + 1)).entries = [] ∧ (t.fnst (tn.val + 1)).messages = [] ∧
      (t.fnst (tn.val + 1)).waiting = [] ∧
      (t.fnst (tn.val + 1)).accepted = (s.fnst (tn.val + 1)).accepted.filter (fun e => entryOp e != 0x01) ∧
      (t.fnst (tn.val + 1)).flr = some (max s.time now) ∧ (t.fnst (tn.val + 1)).enabled = true ∧ t.part (tn.val + 1) = none ∧
      t.getF .CMD_CFG_EN (tn.val + 1) = 0 ∧ t.getF .CMD_PROD_INDEX (tn.val + 1) = 0 ∧
      t.getF .SVC_STAT_FULL (tn.val + 1) = 0 ∧ t.getF .TENV_STAT_DENIED (tn.val + 1) = 0 ∧
      (∀ p, s.part (tn.val + 1) = some p →
        (∀ e, e ∈ p.cm → ∀ k, k < e.2.2 → t.byte (cmBase e.1 + e.2.1 + k) = 0) ∧
        (∀ e, e ∈ p.km → ∀ k, k < e.2.2 → t.byte (kmBase e.1 + e.2.1 + k) = 0)) ∧ t.cells = s.cells ∧ t.lc = s.lc) ∧
  (∀ (now : Nat) (tn : Fin 128) (s : State), (s.fnst (tn.val + 1)).enabled = false →
    exec (.vfFlr now tn) s = .next (s.advance now)) ∧
  (∀ (now : Nat) (s : State), ∃ t, exec (.pfFlr now) s = .next t ∧ (t.fnst 0).entries = [] ∧ (t.fnst 0).messages = [] ∧
    (t.fnst 0).flr = none ∧ t.part 0 = none ∧ t.getF .CMD_CFG_EN 0 = 0 ∧ t.getF .CMD_PROD_INDEX 0 = 0 ∧
    t.getF .SVC_STAT_FULL 0 = 0 ∧
    (∀ f, 1 ≤ f → f ≤ 128 → (s.fnst f).enabled = true → t.part f = none ∧ (t.fnst f).flr = some (max s.time now)) ∧
    t.cells = s.cells ∧ t.lc = s.lc) ∧
  (∀ (now : Nat) (tn : Fin 128) (s : State),
    exec (.vfFlrDone now tn) s = .next ((s.advance now).setFn (tn.val + 1) { s.fnst (tn.val + 1) with flr := none }))

/-- A conventional reset of the interface asserts PERST#, under which an access changes nothing; it leaves no virtual function
enabled (the model's reading, log entry 46); the release serves accesses again and switches DIE.HOST on. Enabling n functions, at most
as many as the tenant ceiling, leaves exactly these enabled: a new one starts afresh, one that disappears is reset first. -/
def Obligations.InterfaceResets : Prop :=
  (∀ (now : Nat) (s : State), ∃ t, exec (.pcieConventionalReset now) s = .next t ∧ t.perst = true ∧ t.numVfs = 0 ∧
    (∀ i, i < 128 → (t.fnst (i + 1)).enabled = false) ∧ t.part 0 = none ∧ t.getF .CMD_CFG_EN 0 = 0 ∧ t.cells = s.cells ∧ t.lc = s.lc) ∧
  (∀ (now : Nat) (s : State), s.perst = true → ∃ t, exec (.perstRelease now) s = .next t ∧ t.perst = false ∧
    t.dieOn 0 = true ∧ t.parts = s.parts ∧ t.sram = s.sram ∧ t.cells = s.cells) ∧
  (∀ (now : Nat) (s : State), s.perst = false → exec (.perstRelease now) s = .next (s.advance now)) ∧
  (∀ (now : Nat) (fn : Func) (head : BitVec 6) (s : State), s.perst = true →
    exec (.cplHeadAdvance now fn head) s = .next (s.advance now) ∧ exec (.serviceAck now fn) s = .next (s.advance now)) ∧
  (∀ (now : Nat) (enable : Bool) (num : Nat) (s : State),
    let n := if enable then min num (s.setting 0) else 0
    ∃ t, exec (.vfEnableChange now enable num) s = .next t ∧ t.numVfs = n ∧
      (∀ i, i < 128 → (t.fnst (i + 1)).enabled = decide (i < n)) ∧
      (∀ i, i < 128 → n ≤ i → (s.fnst (i + 1)).enabled = true → t.part (i + 1) = none ∧ t.getF .CMD_CFG_EN (i + 1) = 0 ∧
        (t.fnst (i + 1)).entries = []) ∧
      ((∀ i, i < 128 → n ≤ i → (s.fnst (i + 1)).enabled = false) →
        (∀ i, i < 128 → i < n → (s.fnst (i + 1)).enabled = false →
          t.fnst (i + 1) = { Function.reset with enabled := true, accepted := (s.fnst (i + 1)).accepted }) ∧
        t = { s.advance now with fns := t.fns, numVfs := t.numVfs }))

/-- The command ring: enabling it empties both rings and stores a size of 4 to 6, others as 4; the doorbell moves CMD_PROD and reads the
entries up to it in order (R304). COMMAND_ACCEPT takes the oldest entry that a committed checkpoint holds, and CMD_CONS moves past it:
a known command with clean words waits to be carried out, a reserved one completes (R305, R306). CPL_HEAD moves when the host moves it,
and completions that wait are written as far as the ring has room. A host read that times out gives its reader what R296 says.
SERVICE_ACK delivers the next message or empties the mailbox (R321). -/
def Obligations.CommandPath : Prop :=
  ((∀ (now : Nat) (fn : Func) (size : BitVec 3) (s : State), Hosted s fn.val → s.bit .CMD_CFG_EN fn.val = false →
     ∃ t, exec (.cmdRingEnable now fn size) s = .next t ∧ t.bit .CMD_CFG_EN fn.val = true ∧
       t.getF .CMD_CFG_SIZE fn.val = (if 4 ≤ size.toNat ∧ size.toNat ≤ 6 then size.toNat else 4) ∧
       t.getF .CMD_PROD_INDEX fn.val = 0 ∧ t.getF .CMD_CONS_INDEX fn.val = 0 ∧ t.getF .CPL_HEAD_INDEX fn.val = 0 ∧
       t.getF .CPL_TAIL_INDEX fn.val = 0 ∧ (t.fnst fn.val).wrapped = false ∧
       KeepsRegs s t (fun f i => [Fld.CMD_CFG_EN, .CMD_CFG_SIZE, .CMD_PROD_INDEX, .CMD_CONS_INDEX, .CPL_HEAD_INDEX,
         .CPL_TAIL_INDEX].contains f && i == fn.val) ∧ t = { s.advance now with regs := t.regs, fns := t.fns }) ∧
   (∀ (now : Nat) (fn : Func) (size : BitVec 3) (s : State), Hosted s fn.val → s.bit .CMD_CFG_EN fn.val = true →
     exec (.cmdRingEnable now fn size) s = .next (s.advance now)) ∧
   (∀ (now : Nat) (fn : Func) (prod : BitVec 6) (entries : List (List Word)) (s : State), Hosted s fn.val →
     let n := s.ringSize fn.val
     let old := s.getF .CMD_PROD_INDEX fn.val
     let base := s.getF .CMD_BASEL_ADDR fn.val * 64 + s.getF .CMD_BASEH_ADDR fn.val * 4294967296
     let k := (prod.toNat % n + n - old % n) % n
     ∃ t, exec (.commandDoorbell now fn prod entries) s = .next t ∧ t.getF .CMD_PROD_INDEX fn.val = prod.toNat % n ∧
       (s.bit .CMD_CFG_EN fn.val = true →
         (t.fnst fn.val).entries = (s.fnst fn.val).entries ++ (List.range k).map (fun i => entries.getD i (List.replicate 16 0)) ∧
         t.out = ((List.range k).map (fun i => Output.hostRead fn.val (base + 64 * ((old + i) % n)) 64)).reverse ++ s.out) ∧
       (s.bit .CMD_CFG_EN fn.val = false → (t.fnst fn.val).entries = (s.fnst fn.val).entries ∧ t.out = s.out) ∧
       (t.fnst fn.val).held = (s.fnst fn.val).held ∧ KeepsRegs s t (fun f i => f == .CMD_PROD_INDEX && i == fn.val) ∧
       t = { s.advance now with regs := t.regs, fns := t.fns, out := t.out }) ∧
   (∀ (now : Nat) (fn : Func) (prod head : BitVec 6) (entries : List (List Word)) (size : BitVec 3) (s : State),
     s.perst = false → fn.val ≠ 0 → ((s.fnst fn.val).enabled = false ∨ (s.fnst fn.val).flr ≠ none) →
     exec (.commandDoorbell now fn prod entries) s = .next ((s.advance now).emit .unsupported) ∧
     exec (.cmdRingEnable now fn size) s = .next ((s.advance now).emit .unsupported) ∧
     exec (.cplHeadAdvance now fn head) s = .next ((s.advance now).emit .unsupported) ∧
     exec (.serviceAck now fn) s = .next ((s.advance now).emit .unsupported))) ∧
  (∀ (now : Nat) (fn : Func) (s : State) (e : List Word) (rest : List (List Word)),
     let x := s.fnst fn.val
     x.entries = e :: rest → s.bit .CMD_CFG_EN fn.val = true → x.flr = none → 0 < x.held → x.waiting.length < 64 →
     ∃ t, exec (.commandAccept now fn) s = .next t ∧ (t.fnst fn.val).entries = rest ∧ (t.fnst fn.val).held = x.held - 1 ∧
       t.getF .CMD_CONS_INDEX fn.val =
         ((s.getF .CMD_CONS_INDEX fn.val + 1) % s.ringSize fn.val) % 2 ^ Fld.CMD_CONS_INDEX.width ∧
       (opcodeKnown (entryOp e) = true → (entryWord e 0 / 256) % 256 = 0 → entryWord e 1 = 0 → s.shutDown = false →
         (t.fnst fn.val).accepted = x.accepted ++ [e] ∧ (t.fnst fn.val).waiting = x.waiting ∧ t.out = s.out ∧
         t.accepted = s.accepted ++ (if entryOp e ≤ 3 then [(fn.val, e)] else [])) ∧
       (opcodeKnown (entryOp e) = false ∨ (entryWord e 0 / 256) % 256 ≠ 0 ∨ entryWord e 1 ≠ 0 ∨ s.shutDown = true →
         t = ((((s.advance now).setFn fn.val { x with entries := rest, held := x.held - 1 }).setF .CMD_CONS_INDEX fn.val
           ((s.getF .CMD_CONS_INDEX fn.val + 1) % s.ringSize fn.val)).complete fn.val
             (if s.shutDown then voided e else result 0 (entryTag e) 1 0 0)) ∧
         (t.fnst fn.val).accepted = x.accepted ∧ t.accepted = s.accepted) ∧
       KeepsBytes s t nowhere ∧ t.stations = s.stations) ∧
  (∀ (now : Nat) (fn : Func) (s : State),
     ((s.fnst fn.val).entries = [] ∨ s.bit .CMD_CFG_EN fn.val = false ∨ (s.fnst fn.val).flr ≠ none ∨ (s.fnst fn.val).held = 0 ∨
       64 ≤ (s.fnst fn.val).waiting.length) → exec (.commandAccept now fn) s = .next (s.advance now)) ∧
  ((∀ (now : Nat) (fn : Func) (head : BitVec 6) (s : State), Hosted s fn.val → (s.fnst fn.val).waiting = [] →
     exec (.cplHeadAdvance now fn head) s =
       .next ((s.advance now).setF .CPL_HEAD_INDEX fn.val (head.toNat % s.ringSize fn.val))) ∧
   (∀ (now : Nat) (fn : Func) (head : BitVec 6) (s : State), Hosted s fn.val →
     ∃ t n, exec (.cplHeadAdvance now fn head) s = .next t ∧ t.getF .CPL_HEAD_INDEX fn.val = head.toNat % s.ringSize fn.val ∧
       (t.fnst fn.val).waiting = (s.fnst fn.val).waiting.drop n ∧
       ((t.fnst fn.val).waiting = [] ∨ s.bit .CMD_CFG_EN fn.val = false ∨ t.cplRoom fn.val = false) ∧ KeepsBytes s t nowhere) ∧
   (∀ (now : Nat) (fn : Func) (s : State), Hosted s fn.val →
     ((s.fnst fn.val).messages = [] → exec (.serviceAck now fn) s = .next ((s.advance now).setF .SVC_STAT_FULL fn.val 0)) ∧
     (∀ m rest, (s.fnst fn.val).messages = m :: rest →
       ∃ t, exec (.serviceAck now fn) s = .next t ∧ t.getF .SVC_STAT_FULL fn.val = 1 ∧ (t.fnst fn.val).messages = rest ∧
         (∀ i, i < 16 → t.getF .SVC_DATA_WORD (fn.val * 16 + i) = (m.getD i 0).toNat) ∧ KeepsBytes s t nowhere))) ∧
  ((∀ (now : Nat) (eng : Fin 8) (s : State) (j : Ingest), smapGet none s.ingests eng.val = some j →
     exec (.hostReadTimeout now (.ingest eng)) s =
       .next { s.advance now with ingests := smapSet none s.ingests eng.val (some { j with wait := false }) }) ∧
   (∀ (now : Nat) (b : Fin 2) (s : State) (x : Beaver), s.beaver b.val = some x → x.state = 2 →
     ∃ t, exec (.hostReadTimeout now (.loader b)) s = .next t ∧ t.beaver b.val = none ∧ KeepsBytes s t nowhere ∧ t.cells = s.cells) ∧
   (∀ (now : Nat) (fn : Func) (s : State), (s.fnst fn.val).held < (s.fnst fn.val).entries.length →
     ∃ t, exec (.hostReadTimeout now (.ring fn)) s = .next t ∧
       (t.fnst fn.val).entries = (s.fnst fn.val).entries.dropLast ++
         [(List.range 16).map (fun i => BitVec.ofNat 32 (Config.freeNat (s.fresh + i)))] ∧
       t = { s.advance now with fns := t.fns, fresh := s.fresh + 16 }) ∧
   (∀ (now : Nat) (fn : Func) (s : State) (e : List Word), (s.fnst fn.val).accepted.find? (fun x => entryOp x == 0x01) = some e →
     s.getF .GCTL_PWRST_STATE 0 = 0 →
     exec (.hostReadTimeout now (.bitstream fn)) s =
       exec (.loadBitstream now fn e ((List.range (entryWord e 4)).map (fun i => BitVec.ofNat 8 (Config.freeNat (s.fresh + i)))))
         { s with fresh := s.fresh + entryWord e 4 }))

/-- LOAD_BITSTREAM of the command that is next, outside Bear state, of a bitstream without a fault is carried out whole and answered with
code 0: the owner then holds a partition with the stations of its records; one with a fault changes no partition and is answered with the
fault. UNLOAD of a partition none of whose tiles or jobs is in progress frees it: the owner holds none, every station of it is
unloaded, and the command is answered with code 0; while one is, the partition has stopped and the command stays next; a function
without a partition is answered NOT_LOADED. A row that names an entry whose turn it is not does nothing (R234 to R240, R306). -/
def Obligations.Partitions : Prop :=
  (∀ (now : Nat) (fn : Func) (entry : List Word) (bytes : List Byte) (s : State),
     let addr := entryWord entry 2 + 4294967296 * entryWord entry 3
     let len := entryWord entry 4
     let u := ((s.advance now).takeAccepted fn.val entry).emit (.hostRead fn.val addr len)
     s.getF .GCTL_PWRST_STATE 0 = 0 → s.nextUp fn.val 0x01 entry = true → entryClean entry 5 = true →
     ∃ t, exec (.loadBitstream now fn entry bytes) s = .next t ∧
       (∀ c sect n, u.badBitStream fn.val bytes len = some (c, sect, n) →
         t = u.complete fn.val (loadResult (entryTag entry) c sect n) ∧ t.parts = s.parts ∧ t.stations = s.stations ∧
         KeepsBytes s t nowhere) ∧
       (u.badBitStream fn.val bytes len = none →
         (∃ l : Loading, l.fn = fn.val ∧ l.tag = entryTag entry ∧
           t = ({ u with loading := u.loading ++ [l] }.loadAll (bitStream bytes)).complete fn.val
             (loadResult (entryTag entry) 0 0 0)) ∧
         (t.part (bitStream bytes).owner).map Partition.stations = some ((bitStream bytes).stations.map StRec.id)) ∧
       t.cells = s.cells) ∧
  (∀ (now : Nat) (fn : Func) (entry : List Word) (bytes : List Byte) (s : State),
     (s.getF .GCTL_PWRST_STATE 0 = 0 → s.nextUp fn.val 0x01 entry = true → entryClean entry 5 = false →
       exec (.loadBitstream now fn entry bytes) s = .next (((s.advance now).takeAccepted fn.val entry).answer fn.val entry 1 0)) ∧
     (s.getF .GCTL_PWRST_STATE 0 ≠ 0 ∨ s.nextUp fn.val 0x01 entry = false →
       exec (.loadBitstream now fn entry bytes) s = .next (s.advance now)) ∧
     (s.nextUp fn.val 0x02 entry = false → exec (.unload now fn entry) s = .next (s.advance now))) ∧
  (∀ (now : Nat) (fn : Func) (entry : List Word) (s : State), s.nextUp fn.val 0x02 entry = true →
     (entryClean entry 2 = false → exec (.unload now fn entry) s =
       .next (((s.advance now).takeAccepted fn.val entry).answer fn.val entry 1 0)) ∧
     (entryClean entry 2 = true → s.part fn.val = none → exec (.unload now fn entry) s =
       .next (((s.advance now).takeAccepted fn.val entry).answer fn.val entry 8 0)) ∧
     (entryClean entry 2 = true → s.part fn.val ≠ none → ((s.advance now).unloadStop fn.val).ownerBusy fn.val = false →
       ∃ t, exec (.unload now fn entry) s = .next t ∧ t.part fn.val = none ∧
         (∀ st, (s.station st).state ≠ 0 → (s.station st).owner = fn.val → (t.station st).state = 0) ∧ t.cells = s.cells ∧
         t.shards = s.shards) ∧
     (entryClean entry 2 = true → s.part fn.val ≠ none → ((s.advance now).unloadStop fn.val).ownerBusy fn.val = true →
       exec (.unload now fn entry) s = .next ((s.advance now).unloadStop fn.val) ∧
       ((s.advance now).unloadStop fn.val).nextUp fn.val 0x02 entry = true ∧
       ((s.advance now).unloadStop fn.val).part fn.val = s.part fn.val))

/-- SET_QUOTA of the physical function for a tenant: the quota is in force and the command answered with code 0; from another function it
is NOT_PERMITTED, for a tenant the device does not offer BAD_TENANT, with reserved parameters BAD_COMMAND, and no quota changes (R307 to
R316). A cut: at its deadline (counted in boundaries, the model's choice, log entry 95) a station whose drain is over is held by the
reclaim and counted; the first chosen core whose stations are all parked leaves the partition, with its extents, whose memory is zero;
after the cores the chosen extents of core memory, then of cluster memory, go the same way. -/
def Obligations.QuotasAndCuts : Prop :=
  (∀ (now : Nat) (fn : Func) (entry : List Word) (s : State),
     let tn := entryWord entry 2
     let u := (s.advance now).takeAccepted fn.val entry
     (s.nextUp fn.val 0x03 entry = false → exec (.setQuota now fn entry) s = .next (s.advance now)) ∧
     (s.nextUp fn.val 0x03 entry = true →
       (entryClean entry 8 = false ∨ 256 ≤ tn ∨ 256 ≤ entryWord entry 7 →
         exec (.setQuota now fn entry) s = .next (u.answer fn.val entry 1 0)) ∧
       (entryClean entry 8 = true → tn < 256 → entryWord entry 7 < 256 →
         (fn.val ≠ 0 → exec (.setQuota now fn entry) s = .next (u.answer fn.val entry 2 0)) ∧
         (fn.val = 0 → (tn = 0 ∨ s.setting 0 < tn) → exec (.setQuota now fn entry) s = .next (u.answer 0 entry 0x0A 0)) ∧
         (fn.val = 0 → tn ≠ 0 → tn ≤ s.setting 0 →
           ∃ t, exec (.setQuota now fn entry) s = .next t ∧ t.quota tn = quotaParams entry ∧
             (∀ k, k ≠ tn → t.quota k = s.quota k) ∧ KeepsBytes s t nowhere ∧ t.cells = s.cells ∧ t.parts = s.parts)))) ∧
  (∀ (now : Nat) (st : StationId) (s : State),
     let x := s.station st.val
     (∀ c, x.deadline = some (c, 0) → x.drain = none → Hold.reclaim ∉ x.holds → x.state ≠ 0 →
       ∃ t, exec (.reclaimDeadline now st) s = .next t ∧ Hold.reclaim ∈ (t.station st.val).holds ∧
         (t.fnst x.owner).parked = (s.fnst x.owner).parked + 1 ∧ KeepsBytes s t nowhere ∧
         (∀ n, n ≠ st.val → t.station n = s.station n) ∧
         ((∀ f, f ∈ s.flights → f.station ≠ st.val) → t = { s.advance now with stations := t.stations, fns := t.fns })) ∧
     (x.deadline = none ∨ (∃ d, x.deadline = some d ∧ d.2 ≠ 0) ∨ x.drain ≠ none →
       exec (.reclaimDeadline now st) s = .next (s.advance now))) ∧
  (∀ (now : Nat) (tn : Fin 128) (s : State) (cut : List Nat × List (Nat × Nat × Nat) × List (Nat × Nat × Nat)),
     let o := tn.val + 1
     let sts := s.stationsOf o
     let core := cut.1.find? (fun c => s.allParked (sts.filter (fun st => s.inCore st c)))
     let cm := cut.2.1.find? (fun e => !(cut.1.contains e.1) &&
       s.allParked (sts.filter (fun st => s.inExtent st false e.1 e.2.1 e.2.2)))
     let km := cut.2.2.find? (fun e => s.allParked (sts.filter (fun st => s.inExtent st true e.1 e.2.1 e.2.2)))
     (s.fnst o).cut = some cut →
     (∀ c p, core = some c → s.part o = some p → c ∉ p.cores.erase c →
       ∃ t, exec (.claimRelease now tn) s = .next t ∧ (∀ q, t.part o = some q → c ∉ q.cores) ∧
         (∀ f, (t.fnst o).cut = some f → f.1 = cut.1.erase c) ∧ t.getF (arbField (c % 8)) (c / 8) = 4 ∧
         (∀ e, e ∈ cut.2.1 → e.1 = c → ∀ k, k < e.2.2 → t.byte (cmBase c + e.2.1 + k) = 0) ∧
         t.cells = s.cells ∧ t.shards = s.shards) ∧
     (∀ e, core = none → cm = some e →
       ∃ t, exec (.claimRelease now tn) s = .next t ∧ t.part o = (s.part o).map (fun p => { p with cm := p.cm.erase e }) ∧
         (∀ k, k < e.2.2 → t.byte (cmBase e.1 + e.2.1 + k) = 0) ∧
         KeepsBytes s t (fun a => decide (cmBase e.1 + e.2.1 ≤ a) && decide (a < cmBase e.1 + e.2.1 + e.2.2)) ∧
         t.cells = s.cells ∧ t.shards = s.shards) ∧
     (∀ e, core = none → cm = none → km = some e →
       ∃ t, exec (.claimRelease now tn) s = .next t ∧ t.part o = (s.part o).map (fun p => { p with km := p.km.erase e }) ∧
         (∀ k, k < e.2.2 → t.byte (kmBase e.1 + e.2.1 + k) = 0) ∧
         KeepsBytes s t (fun a => decide (kmBase e.1 + e.2.1 ≤ a) && decide (a < kmBase e.1 + e.2.1 + e.2.2)) ∧
         t.cells = s.cells ∧ t.shards = s.shards) ∧
     (core = none → cm = none → km = none → exec (.claimRelease now tn) s = .next (s.advance now)))

/-! ### The loader -/

/-- An accepted loader command joins the queue of its owner while fewer than 8 jobs wait there; after 8 it is BUSY, and at the head of
the queue of an owner whose bucket is empty it completes with QUOTA and is gone (R249, R250). A swap or sweep of a station of its own
is one at a time (R264). A row that names no accepted command does nothing (R306). -/
def Obligations.LoaderCommandsQueue : Prop :=
  ∀ (now : Nat) (fn : Func) (tag : BitVec 16) (s : State),
    let q := s.jobQ fn.val
    let n := (q.filter (fun j => j.tag.isSome)).length
    let broke := (s.advance now).loaderBroke fn.val
    let asked (op : Nat) : Option (List Word) := (s.fnst fn.val).accepted.find? (fun x => entryOp x == op && entryTag x == tag.toNat)
    let u (e : List Word) : State := (s.advance now).takeAccepted fn.val e
    (∀ (addr : BitVec 64),
      (asked 0x10 = none → exec (.importKey now fn tag addr) s = .next (s.advance now)) ∧
      (∀ e, asked 0x10 = some e →
        (n < 8 → (q ≠ [] ∨ broke = false) → ∃ t j, exec (.importKey now fn tag addr) s = .next t ∧ t.jobQ fn.val = q ++ [j] ∧
          j.kind = .importKey ∧ j.owner = fn.val ∧ j.tag = some tag.toNat ∧ j.addr = addr.toNat ∧ t = { u e with jobs := t.jobs }) ∧
        (8 ≤ n → exec (.importKey now fn tag addr) s = .next ((u e).complete fn.val (result 2 tag.toNat 0x0C 0 0))) ∧
        (q = [] → broke = true → ∃ t, exec (.importKey now fn tag addr) s = .next t ∧ t.jobQ fn.val = [] ∧
          t.cells = s.cells ∧ KeepsBytes s t nowhere))) ∧
    (∀ (addr : BitVec 64) (len : Nat) (force : Bool),
      (asked 0x11 = none → exec (.load now fn tag addr len force) s = .next (s.advance now)) ∧
      (∀ e, asked 0x11 = some e →
        (n < 8 → (q ≠ [] ∨ broke = false) → ∃ t j, exec (.load now fn tag addr len force) s = .next t ∧ t.jobQ fn.val = q ++ [j] ∧
          j.kind = .load ∧ j.owner = fn.val ∧ j.tag = some tag.toNat ∧ j.addr = addr.toNat ∧ j.len = len ∧ j.force = force ∧
          t = { u e with jobs := t.jobs }) ∧
        (8 ≤ n → exec (.load now fn tag addr len force) s = .next ((u e).complete fn.val (result 2 tag.toNat 0x0C 0 0))) ∧
        (q = [] → broke = true → ∃ t, exec (.load now fn tag addr len force) s = .next t ∧ t.jobQ fn.val = [] ∧
          t.cells = s.cells ∧ KeepsBytes s t nowhere))) ∧
    (∀ (what : EraseTarget),
      (asked 0x14 = none → exec (.erase now fn tag what) s = .next (s.advance now)) ∧
      (∀ e, asked 0x14 = some e →
        (n < 8 → (q ≠ [] ∨ broke = false) → ∃ t j, exec (.erase now fn tag what) s = .next t ∧ t.jobQ fn.val = q ++ [j] ∧
          j.kind = .erase ∧ j.owner = fn.val ∧ j.tag = some tag.toNat ∧ j.what = some what ∧ t = { u e with jobs := t.jobs }) ∧
        (8 ≤ n → exec (.erase now fn tag what) s = .next ((u e).complete fn.val (result 2 tag.toNat 0x0C 0 0))) ∧
        (q = [] → broke = true → ∃ t, exec (.erase now fn tag what) s = .next t ∧ t.jobQ fn.val = [] ∧
          t.cells = s.cells ∧ KeepsBytes s t nowhere))) ∧
    (∀ (st : StationId) (model : Word) (layer : BitVec 16) (shards : List (BitVec 64)) (opws : List Word)
        (table : List Byte) (tableOff : BitVec 19) (tiles : Fin 129) (c : Instr) (op : Nat) (kind : JobKind),
      let y := s.station st.val
      let mine := y.state ≠ 0 ∧ y.owner = fn.val
      (c = .swap now fn tag st model layer shards opws table tableOff ∧ op = 0x12 ∧ kind = .swap) ∨
        (c = .sweepLoad now fn tag st model layer shards opws table tableOff tiles ∧ op = 0x13 ∧ kind = .sweep ∧ tiles.val ≠ 0) →
      (asked op = none → exec c s = .next (s.advance now)) ∧
      (∀ e, asked op = some e →
        ((mine → y.swapping = false ∧ ∀ m, m ∈ y.mig → m.weight = false) → n < 8 → (q ≠ [] ∨ broke = false) →
          ∃ t j, exec c s = .next t ∧ t.jobQ fn.val = q ++ [j] ∧ j.kind = kind ∧ j.owner = fn.val ∧ j.tag = some tag.toNat ∧
            j.station = st.val ∧ j.model = model.toNat ∧ j.layer = layer.toNat ∧ j.shards = shards.map BitVec.toNat ∧
            j.opws = opws ∧ j.table = table ∧ j.tableOff = tableOff.toNat ∧ (kind = .sweep → j.tiles = tiles.val) ∧
            (mine → t.station st.val = { y with swapping := true }) ∧ (∀ k, k ≠ st.val → t.station k = s.station k) ∧
            t = { u e with jobs := t.jobs, stations := t.stations }) ∧
        (mine → (y.swapping = true ∨ ∃ m, m ∈ y.mig ∧ m.weight = true) →
          exec c s = .next ((u e).complete fn.val (result 2 tag.toNat 0x0C 0 0))) ∧
        (8 ≤ n → exec c s = .next ((u e).complete fn.val (result 2 tag.toNat 0x0C 0 0))))) ∧
    (∀ (st : StationId) (model : Word) (layer : BitVec 16) (shards : List (BitVec 64)) (opws : List Word)
        (table : List Byte) (tableOff : BitVec 19) (e : List Word), asked 0x13 = some e →
      exec (.sweepLoad now fn tag st model layer shards opws table tableOff 0) s =
        .next ((u e).complete fn.val (result 0 tag.toNat 1 0 0)))

/-- A free Beaver takes the next job and reads what it needs (R250, R251); a key that its envelope authenticates goes into its slot,
and one of zeros empties the slot (R246 to R248); a shard whose tag or digest fails ends its job. Programming, with a token, at a vector
boundary and by rank (R43, R80, R119): a clean erase step leaves the row group at level 0 and adds 10 to its cycles (R252), and the last
one of an ERASE ends the job with no shard there; an iteration that leaves pairs of its row open keeps the row in hand, with the accepted
pairs at their targets, which later iterations need not reach again (R253). -/
def Obligations.LoaderWorks : Prop :=
  ((∀ (now : Nat) (b : Fin 2) (data : List Byte) (s : State) (j : Job),
     s.dieOn 3 = true → s.beaver b.val = none → (s.advance now).nextJob = some j →
     (j.kind = .importKey →
       ∃ t x, exec (.loaderJobStart now b data) s = .next t ∧ t.beaver b.val = some x ∧ x.job = j ∧ x.state = 2 ∧
         t.jobQ j.owner = (s.jobQ j.owner).drop 1 ∧ t.out = .hostRead j.owner j.addr 376 :: s.out ∧ t.cells = s.cells ∧
         KeepsRegs s t (fun f _ => f == .GCTL_PWRST_CLEAN)) ∧
     (∀ h, h = shardHead data → j.kind = .load → s.coreOn (s.station h.station).core = true →
       (s.advance now).shardCode { Beaver.of j 2 (max s.time now) with head := some h } h j.len = 0 →
       (j.force = true ∨ s.residentSame j.owner h = false) →
       ∃ t x, exec (.loaderJobStart now b data) s = .next t ∧ t.beaver b.val = some x ∧ x.job = j ∧ x.head = some h ∧ x.state = 2 ∧
         t.jobQ j.owner = (s.jobQ j.owner).drop 1 ∧
         t.out = .hostRead j.owner (j.addr + 96) (h.paylen + 16) :: .hostRead j.owner j.addr 96 :: s.out ∧ t.cells = s.cells)) ∧
   (∀ (now : Nat) (b : Fin 2) (data : List Byte) (s : State),
     (s.dieOn 3 = false ∨ s.beaver b.val ≠ none ∨ (s.advance now).nextJob = none) →
     exec (.loaderJobStart now b data) s = .next (s.advance now)) ∧
   (∀ (now : Nat) (b : Fin 2) (data : List Byte) (s : State) (x : Beaver),
     let slot := bnum data 5 1
     let r := (s.advance now).envelope x.job.owner data
     s.beaver b.val = some x → x.state = 2 → x.job.kind = .importKey →
     ∃ t, exec (.payloadFetchDone now b data) s = .next t ∧ t.beaver b.val = none ∧
       (r.1 = 0 → smapGet Key.empty t.modelKeys slot =
         (if r.2.all (fun y => y == 0) then Key.empty else { bytes := r.2, owner := x.job.owner, usage := 0 })) ∧
       (∀ k, r.1 ≠ 0 ∨ k ≠ slot → smapGet Key.empty t.modelKeys k = smapGet Key.empty s.modelKeys k) ∧ t.cells = s.cells ∧
       KeepsBytes s t nowhere) ∧
   (∀ (now : Nat) (b : Fin 2) (data : List Byte) (s : State) (x : Beaver) (h : ShardHead),
     let got := gcmDecrypt (smapGet Key.empty s.modelKeys h.keyslot).bytes h.nonce (h.bytes ++ h.digest) (data.take h.paylen)
       (data.drop h.paylen)
     s.beaver b.val = some x → x.state = 2 → x.job.kind = .load → x.head = some h →
     ((got = none ∨ ∃ p, got = some p ∧ ((h.levels (s.jobDesc x h.station).wmode p = none) ∨
         ∃ l, h.levels (s.jobDesc x h.station).wmode p = some l ∧ codeDigest l.1 ≠ h.digest)) →
       ∃ t, exec (.payloadFetchDone now b data) s = .next t ∧ t.beaver b.val = none ∧ t.cells = s.cells ∧ KeepsBytes s t nowhere) ∧
     (∀ p l, got = some p → h.levels (s.jobDesc x h.station).wmode p = some l → codeDigest l.1 = h.digest →
       s.busyRgs b.val (s.shardRgs x h) = false → (∃ n, n < 1024 ∧ (s.shard n).state = 0) →
       (s.shards.filter (fun e => e.2.state != 0 && e.2.cluster == (s.station h.station).core / 8)).length < 128 →
       ∃ t y, exec (.payloadFetchDone now b data) s = .next t ∧ t.beaver b.val = some y ∧ y.state = 3 ∧ y.levels = l.1 ∧
         y.erase = s.shardRgs x h ∧ t.cells = s.cells ∧ KeepsBytes s t nowhere))) ∧
  ((∀ (now : Nat) (b : Fin 2) (cl : Cluster) (co : Core) (e : Eng) (rg : RowGroup) (s : State) (x : Beaver) (rest : List Nat),
     let pe := engIx (coreIx cl co) e.val
     let g := rgIx pe rg.val
     s.beaver b.val = some x → x.erase = g :: rest → s.stepRuns x pe = true → s.busyRows b.val [g] = false →
     s.retired pe = false → s.stillNamed x.job g = true →
     (∀ n g2 tail, x.record = some n → x.job.kind ≠ .erase → x.job.kind ≠ .wipe → rest = g2 :: tail →
       ∃ t, exec (.eraseStep now b cl co e rg true) s = .next t ∧ t.beaver b.val = some { x with erase := rest, eraseN := 0 } ∧
         (∀ row pair, row < 64 → pair < 272 → t.level pe (64 * rg.val + row) pair = 0) ∧
         t.getF .ME_RGSTAT_CYC10 g = min (s.getF .ME_RGSTAT_CYC10 g + 10) (2 ^ Fld.ME_RGSTAT_CYC10.width - 1) ∧
         KeepsBytes s t nowhere ∧ t.shards = s.shards) ∧
     (∀ n, x.record = some n → x.eraseN < 7 →
       ∃ t, exec (.eraseStep now b cl co e rg false) s = .next t ∧ t.beaver b.val = some { x with eraseN := x.eraseN + 1 } ∧
         t.cells = s.cells ∧ KeepsBytes s t nowhere ∧ t.shards = s.shards) ∧
     (x.record = none → x.job.kind = .erase → rest = [] → x.rows = [] → x.spare = none → x.eraseN = 0 →
       ∃ t, exec (.eraseStep now b cl co e rg true) s = .next t ∧ t.beaver b.val = none ∧
         (∀ row pair, row < 64 → pair < 272 → t.level pe (64 * rg.val + row) pair = 0) ∧
         (∀ n, g ∈ (s.shard n).rgs → (t.shard n).state = 0) ∧ KeepsBytes s t nowhere)) ∧
   (∀ (now : Nat) (b : Fin 2) (cl : Cluster) (co : Core) (e : Eng) (accepted : List (Fin 276)) (s : State) (x : Beaver)
       (g row : Nat) (rest : List (Nat × Nat)),
     let pe := engIx (coreIx cl co) e.val
     s.beaver b.val = some x → x.erase = [] → x.spare = none → x.rows = (g, row) :: rest → s.stepRuns x pe = true →
     s.retired pe = false → x.iter + 1 < 16 → (∃ p, p ∈ s.pulsed pe ∧ p ∉ x.okPairs ∧ p ∉ accepted.map Fin.val) →
     ∃ t y, exec (.programIteration now b cl co e accepted) s = .next t ∧ t.beaver b.val = some y ∧ y.rows = x.rows ∧
       y.iter = x.iter + 1 ∧ (∀ p, p ∈ x.okPairs → p ∈ y.okPairs) ∧
       (∀ p, p ∈ accepted.map Fin.val → p ∈ s.pulsed pe → p ∈ y.okPairs) ∧
       (∀ p, p ∈ accepted.map Fin.val → p ∈ s.pulsed pe → p ∉ x.okPairs → x.record ≠ none → -16 < s.cellTarget x g row p →
         t.level pe (64 * (g % 4) + row) p = s.cellTarget x g row p) ∧
       (∀ p, p ∈ s.pulsed pe → p ∉ accepted.map Fin.val → t.level pe (64 * (g % 4) + row) p = s.level pe (64 * (g % 4) + row) p) ∧
       KeepsBytes s t nowhere ∧ t.shards = s.shards ∧ t.regs = s.regs) ∧
   (∀ (now : Nat) (b : Fin 2) (cl : Cluster) (co : Core) (e : Eng) (rg : RowGroup) (accepted : List (Fin 276)) (clean : Bool)
       (s : State),
     let pe := engIx (coreIx cl co) e.val
     (s.beaver b.val = none ∨ ∃ x, s.beaver b.val = some x ∧ s.stepRuns x pe = false) →
     exec (.programIteration now b cl co e accepted) s = .next (s.advance now) ∧
     exec (.eraseStep now b cl co e rg clean) s = .next (s.advance now)))

/-- Read-back: an idle Beaver, with no commanded job queued, takes the shard whose check is oldest; with a token for each engine of it,
all at a vector boundary, a shard that matches both digests counts as checked and stays resident, and one that matches neither is
suspect; after two intervals it is overdue once; clearing WLD_ERR arms its capture again (R257 to R260, R272). Sweep mode: a station that
has taken its tiles and parked itself tells its owner once; a row group's bucket is brought up to date, never beyond a day's cycles
(R265, R266). -/
def Obligations.ReadbackAndSweep : Prop :=
  ((∀ (now : Nat) (b : Fin 2) (s : State),
     (∀ n, s.dieOn 3 = true → s.beaver b.val = none →
       (∀ e, e ∈ s.jobs → ∀ j, j ∈ e.2 → j.kind ≠ .load ∧ j.kind ≠ .swap ∧ j.kind ≠ .sweep ∧ j.kind ≠ .erase) →
       (s.advance now).oldestDue b.val = some n →
       ∃ t x, exec (.readbackStart now b) s = .next t ∧ t.beaver b.val = some x ∧ x.check = some n ∧ x.state = 4 ∧
         (∀ pe, pe ∈ (s.shard n).rgs.map (fun g => g / 4) → pe ∈ s.tokenHeld ∨ ∃ w, w ∈ t.tokenWait ∧ w.engine = pe) ∧
         t = { s.advance now with beavers := t.beavers, tokenWait := t.tokenWait }) ∧
     ((s.dieOn 3 = false ∨ s.beaver b.val ≠ none ∨ (s.advance now).oldestDue b.val = none) →
       exec (.readbackStart now b) s = .next (s.advance now))) ∧
   (∀ (now : Nat) (b : Fin 2) (s : State) (x : Beaver) (n : Nat),
     let y := s.shard n
     s.beaver b.val = some x → x.check = some n → y.state = 2 → y.wmode ≠ 2 →
     (∀ pe, pe ∈ s.stepsOf x → pe ∈ s.tokenHeld ∧ s.coreOn (coreOf pe) = true ∧ (s.engine pe).boundary = true) →
     (y.digest = s.heldDigest y → y.sett = some (s.heldDigest y) →
       ∃ t, exec (.readbackDone now b [] [] true true) s = .next t ∧ t.beaver b.val = none ∧ (t.shard n).state = 2 ∧
         (t.shard n).checked = max s.time now ∧ (t.shard n).overdue = false ∧ t.cells = s.cells ∧
         t.getF .WLD_CHKCNT_COUNT 0 = min (s.getF .WLD_CHKCNT_COUNT 0 + 1) (2 ^ Fld.WLD_CHKCNT_COUNT.width - 1) ∧
         KeepsRegs s t (fun f i => f == .WLD_CHKCNT_COUNT && i == 0) ∧
         t = { s.advance now with regs := t.regs, beavers := t.beavers, shards := t.shards, engines := t.engines, tokenHeld := t.tokenHeld, tokenWait := t.tokenWait, spot := t.spot, spotDue := t.spotDue }) ∧
     (∀ km sett, ((y.digest ≠ s.heldDigest y ∨ km = false) ∧ (y.sett ≠ some (s.heldDigest y) ∨ sett = false)) →
       ∃ t, exec (.readbackDone now b [] [] km sett) s = .next t ∧ t.beaver b.val = none ∧ (t.shard n).state = 3 ∧
         t.getF .WLD_MISMATCH_COUNT 0 = min (s.getF .WLD_MISMATCH_COUNT 0 + 1) (2 ^ Fld.WLD_MISMATCH_COUNT.width - 1) ∧
         t.cells = s.cells ∧ KeepsBytes s t nowhere)) ∧
   (∀ (now : Nat) (b : Fin 2) (snaps : List (Nat × Nat)) (drifted : List Nat) (km sett : Bool) (s : State) (x : Beaver) (n : Nat),
     s.beaver b.val = some x → x.check = some n → (s.shard n).state = 2 →
     (∃ pe, pe ∈ s.stepsOf x ∧ ¬ (pe ∈ s.tokenHeld ∧ s.coreOn (coreOf pe) = true ∧ (s.engine pe).boundary = true)) →
     exec (.readbackDone now b snaps drifted km sett) s = .next (s.advance now)) ∧
   (∀ (now : Nat) (n : Fin 1024) (s : State),
     let y := s.shard n.val
     (y.state = 2 → y.overdue = false → y.checked + y.idle + 2 * s.checkInterval ≤ max s.time now →
       ∃ t, exec (.readbackOverdue now n) s = .next t ∧ t.shard n.val = { y with overdue := true } ∧
         t.getF .WLD_CHKSTAT_OVERDUE 0 = min (s.getF .WLD_CHKSTAT_OVERDUE 0 + 1) (2 ^ Fld.WLD_CHKSTAT_OVERDUE.width - 1) ∧
         KeepsRegs s t (fun f i => f == .WLD_CHKSTAT_OVERDUE && i == 0) ∧
         t = { s.advance now with regs := t.regs, shards := t.shards }) ∧
     ((y.state ≠ 2 ∨ y.overdue = true ∨ max s.time now < y.checked + y.idle + 2 * s.checkInterval) →
       exec (.readbackOverdue now n) s = .next (s.advance now))) ∧
   (∀ (now : Nat) (s : State),
     (s.dieOn 3 = true → ∃ t, exec (.wldErrClear now) s = .next t ∧ t.getF .WLD_ERR_VALID 0 = 0 ∧
       KeepsRegs s t (fun f i => f == .WLD_ERR_VALID && i == 0) ∧ t = { s.advance now with regs := t.regs }) ∧
     (s.dieOn 3 = false → exec (.wldErrClear now) s = .next ((s.advance now).accErr 0 true 0x20 false (Reg.WLD_ERR.at_ []))))) ∧
  ((∀ (now : Nat) (st : StationId) (s : State),
     let y := s.station st.val
     (y.state ≠ 0 → y.layerTiles ≠ 0 → y.tiles = 0 → Hold.sweep ∈ y.holds →
       ∃ t, exec (.sweepTilesDone now st) s = .next t ∧ t.station st.val = { y with layerTiles := 0 } ∧
         ((s.fnst y.owner).flr = none → t.bit .SVC_STAT_FULL y.owner = true) ∧
         (∀ n, n ≠ st.val → t.station n = s.station n) ∧ t.cells = s.cells ∧ KeepsBytes s t nowhere) ∧
     ((y.state = 0 ∨ y.layerTiles = 0 ∨ y.tiles ≠ 0 ∨ Hold.sweep ∉ y.holds) →
       exec (.sweepTilesDone now st) s = .next (s.advance now))) ∧
   (∀ (now : Nat) (cl : Cluster) (co : Core) (e : Eng) (rg : RowGroup) (s : State),
     let g := rgIx (engIx (coreIx cl co) e.val) rg.val
     ∃ t, exec (.sweepBudgetReady now cl co e rg) s = .next t ∧
       (t.tracker g).sweep ≤ s.getF .WLD_SWEEPCFG_DAILY 0 * 86400000000000 ∧
       ((s.tracker g).sweep ≤ s.getF .WLD_SWEEPCFG_DAILY 0 * 86400000000000 → (s.tracker g).sweep ≤ (t.tracker g).sweep) ∧
       (t.tracker g).swept = (s.tracker g).swept ∧ (t.tracker g).sweepAt = max s.time now ∧
       t = { s.advance now with trackers := t.trackers } ∧ ∀ k, k ≠ g → t.tracker k = s.tracker k))

/-! ### Starts, power and temperature -/

/-- POWER_ON with an image that the ROM accepts in slot A and none in B runs a start to step 6; without a shutdown record it
is cold, and with a clean one that is young, at a near temperature and of the image's calibration version it is warm. Without any image
the ROM stops at step 3 after three attempts. What power-off loses is gone, and Sett, fuses, keys and engine weights remain. DIE_RESET by
RST_N, or by a write of GCTL_RESET with the key 0x5A17 and DIE, runs a warm start; any other value written has no effect. Partitions,
contexts and SRAM are gone; the weights, the keys and the device time remain (R370 to R377). -/
def Obligations.StartsAndResets : Prop :=
  (∀ (now : Nat) (found : PowerOnInputs) (s : State),
     (∀ i, found.imageA = some i → found.imageB = none → i.authentic = true → s.fwTarget = none →
       (s.events.commit ≠ some true ∨ s.settQueue = []) → s.getF .NVS_FWARB_COUNT 0 ≤ i.secver →
       ∃ t, exec (.powerOn now found) s = .next t ∧ t.image = some i ∧ t.getF .GCTL_START_STEP 0 = 6 ∧
         t.getF .GCTL_START_SLOT 0 = 0 ∧ t.getF .GCTL_MGR_STANDBY 0 = 1 ∧
         (s.shutRec = none → t.getF .GCTL_START_KIND 0 = 0 ∧ t.getF .GCTL_START_CAUSE 0 = 1) ∧
         (∀ r, s.shutRec = some r → r.clean = true → (∃ c, found.rtc = some c ∧ r.rtc ≤ c ∧ c - r.rtc ≤ 86400) →
           (median2 (dieSensors.map (fun n => found.sensors.getD n 0)) - 2 * r.temp).natAbs ≤ 160 → s.calRec = some i.calver →
           t.getF .GCTL_START_KIND 0 = 1 ∧ t.getF .GCTL_START_CAUSE 0 = 0) ∧
         t.time = now ∧ t.parts = [] ∧ t.stations = [] ∧ t.sram = [] ∧ t.cells = s.cells ∧ t.modelKeys = s.modelKeys ∧
         t.signKeys = s.signKeys ∧ t.settMem = s.settMem ∧ t.pending = s.pending) ∧
     (found.imageA = none → found.imageB = none →
       ∃ t, exec (.powerOn now found) s = .next t ∧ t.image = none ∧ t.getF .GCTL_START_STEP 0 = 3 ∧
         t.getF .GCTL_START_BOOTS 0 = 3 ∧ t.getF .GCTL_RESET_LAST 0 = 4 ∧ t.parts = [] ∧ t.cells = s.cells ∧
         t.pending = s.pending)) ∧
  (∀ (now : Nat) (s : State),
     (∀ i, s.norA = some i → s.norB = none → i.authentic = true → s.fwTarget = none → s.getF .NVS_FWARB_COUNT 0 ≤ i.secver →
       ∀ c n, (c = DieResetCause.rstN ∧ n = 1) ∨ (c = DieResetCause.pfWrite 0x5A17#16 true ∧ n = 2) →
       ∃ t, exec (.dieReset now c) s = .next t ∧ t.getF .GCTL_RESET_LAST 0 = n ∧ t.getF .GCTL_START_KIND 0 = 2 ∧
         t.getF .GCTL_START_STEP 0 = 6 ∧ t.parts = [] ∧ t.stations = [] ∧ t.ctxs = [] ∧ t.sram = [] ∧ t.cells = s.cells ∧
         t.trims = s.trims ∧ t.modelKeys = s.modelKeys ∧ t.time = max s.time now ∧ t.base = s.base ∧ t.pending = s.pending) ∧
     (∀ k d, (k ≠ 0x5A17#16 ∨ d = false) → exec (.dieReset now (.pfWrite k d)) s = .next (s.advance now)))

/-- BEAR without a partition or a context begins the entry, and refuses otherwise; at its end every cluster is off; WAKE
begins the wake, or waits for the end of the entry; WAKE_DONE ends it once no two-point check is left (R378, R379). PREPARE without a
partition, committed, leaves a clean shutdown record of the clock's time; one not committed, or asked for with a partition
loaded, says so in RESULT (R382); after a thermal shutdown each is refused, with a RESULT that is a free value. A checkpoint holds every
command entry read so far (R381). A cluster whose calibration and read-backs have ended is in full service (R375). -/
def Obligations.BearAndService : Prop :=
  ((∀ (now : Nat) (s : State), s.shutDown = false →
     ((∀ e, e ∈ s.parts → e.2 = none) → (∀ e, e ∈ s.ctxs → e.2.state = 0) → s.getF .GCTL_PWRST_STATE 0 = 0 →
       exec (.bear now) s = .next ((s.advance now).setF .GCTL_PWRST_STATE 0 1)) ∧
     (((∃ e, e ∈ s.parts ∧ e.2 ≠ none) ∨ ∃ e, e ∈ s.ctxs ∧ e.2.state ≠ 0) →
       exec (.bear now) s = .next ((s.advance now).setF .GCTL_PWRST_RESULT 0 2))) ∧
   (∀ (now : Nat) (s : State),
     (s.getF .GCTL_PWRST_STATE 0 = 1 →
       ∃ t, exec (.bearEntryDone now) s = .next t ∧ (s.wakeAsked = false → t.getF .GCTL_PWRST_STATE 0 = 2) ∧
         (s.wakeAsked = true → t.getF .GCTL_PWRST_STATE 0 = 3 ∧ t.wakeAsked = false) ∧ t.getF .GCTL_PWRST_RESULT 0 = 1 ∧
         (∀ c, c < 16 → t.sharedOn c = false) ∧ t.cells = s.cells ∧ t.trims = s.trims) ∧
     (s.getF .GCTL_PWRST_STATE 0 ≠ 1 → exec (.bearEntryDone now) s = .next (s.advance now))) ∧
   (∀ (now : Nat) (s : State), s.shutDown = false →
     (s.getF .GCTL_PWRST_STATE 0 = 2 → ∃ t, exec (.wake now) s = .next t ∧ t.getF .GCTL_PWRST_STATE 0 = 3 ∧
       t.dieOn 2 = true ∧ t.dieOn 3 = true ∧ t.wakeAsked = false ∧ t.cells = s.cells ∧ KeepsBytes s t nowhere) ∧
     (s.getF .GCTL_PWRST_STATE 0 = 1 → exec (.wake now) s = .next { s.advance now with wakeAsked := true }) ∧
     (s.getF .GCTL_PWRST_STATE 0 ≠ 1 → s.getF .GCTL_PWRST_STATE 0 ≠ 2 → exec (.wake now) s = .next (s.advance now))) ∧
   (∀ (now : Nat) (s : State),
     (s.getF .GCTL_PWRST_STATE 0 = 3 → (∀ c p, c < 16 → p ∈ s.passQ c → p.full = true ∨ p.engines = []) →
       exec (.wakeDone now) s = .next ((s.advance now).setF .GCTL_PWRST_STATE 0 0)) ∧
     ((s.getF .GCTL_PWRST_STATE 0 ≠ 3 ∨ ∃ c p, c < 16 ∧ p ∈ s.passQ c ∧ p.full = false ∧ p.engines ≠ []) →
       exec (.wakeDone now) s = .next (s.advance now)))) ∧
  (∀ (now rtc : Nat) (s : State) (c : Instr), s.shutDown = true →
     (c = .bear now ∨ c = .wake now ∨ ∃ ok, c = .prepare now rtc ok) →
     exec c s = .next ((s.advance now).setF .GCTL_PWRST_RESULT 0 (Config.freeNat s.fresh % 4)).burn) ∧
  ((∀ (now rtc : Nat) (s : State), s.shutDown = false → (∀ e, e ∈ s.parts → e.2 = none) →
     (∃ t r, exec (.prepare now rtc true) s = .next t ∧ t.shutRec = some r ∧ r.clean = true ∧ r.rtc = rtc ∧
       r.trims = s.trims ∧ t.getF .GCTL_PWRST_CLEAN 0 = 1 ∧ t.getF .GCTL_PWRST_RESULT 0 = 1 ∧
       KeepsRegs s t (fun f i => (f == .GCTL_PWRST_CLEAN || f == .GCTL_PWRST_RESULT) && i == 0) ∧
       t = { s.advance now with regs := t.regs, shutRec := t.shutRec, calRec := t.calRec }) ∧
     exec (.prepare now rtc false) s = .next ((s.advance now).setF .GCTL_PWRST_RESULT 0 3)) ∧
   (∀ (now rtc : Nat) (ok : Bool) (s : State), s.shutDown = false → (∃ e, e ∈ s.parts ∧ e.2 ≠ none) →
     exec (.prepare now rtc ok) s = .next ((s.advance now).setF .GCTL_PWRST_RESULT 0 2)) ∧
   (∀ (now : Nat) (s : State),
     ∃ t, exec (.checkpointCommit now) s = .next t ∧ (∀ f, (t.fnst f).held = (s.fnst f).entries.length) ∧
       (∀ f, (t.fnst f).entries = (s.fnst f).entries) ∧
       t.getF .GCTL_CKPT_CN 0 = (s.getF .GCTL_CKPT_CN 0 + 1) % 4294967296 ∧
       KeepsRegs s t (fun f i => f == .GCTL_CKPT_CN && i == 0) ∧
       t = { s.advance now with regs := t.regs, fns := t.fns, loading := [] }) ∧
   (∀ (now : Nat) (cl : Cluster) (s : State),
     (s.getF .GCTL_START_STEP 0 = 6 → cl.val ∉ s.deadCls →
       (∀ e, e ∈ s.shards → e.2.state = 2 → e.2.cluster = cl.val → e.2.owed = false) →
       (∀ p, p ∈ s.passQ cl.val → p.engines = []) → (s.getF .GCTL_START_FULL 0).testBit cl.val = false →
       ∃ t, exec (.clusterFullService now cl) s = .next t ∧ (t.getF .GCTL_START_FULL 0).testBit cl.val = true ∧
         (t.getF .GCTL_START_FULL 0 = 0xFFFF → t.getF .GCTL_START_STEP 0 = 10) ∧
         (t.getF .GCTL_START_FULL 0 ≠ 0xFFFF → t.getF .GCTL_START_STEP 0 = 6) ∧
         KeepsRegs s t (fun f i => (f == .GCTL_START_FULL || f == .GCTL_START_STEP) && i == 0) ∧
         t = { s.advance now with regs := t.regs, spot := t.spot, spotDue := t.spotDue }) ∧
     ((s.getF .GCTL_START_STEP 0 ≠ 6 ∨ cl.val ∈ s.deadCls ∨ (∃ p, p ∈ s.passQ cl.val ∧ p.engines ≠ [])) →
       exec (.clusterFullService now cl) s = .next (s.advance now).spotSettle)))

/-- With the standby ready, a lost heartbeat, the watchdog, an error in the active processor's memory and SWITCH make it take
over: ACTIVE changes, STANDBY is 0, CAUSE names the reason, TAKEOVERS counts, no command entry read before remains, and loads whose
completion no committed checkpoint holds are removed (R239, R383 to R385). Without it SWITCH is discarded, and the others reset the die.
A restarted processor is the standby again once the start is past step 6. An undervoltage of VDD_IO leaves what a loss of power leaves;
of VDD_PGM no tokens are granted; of VDD_WIO the watch and position inputs stand still until the rail returns; of another rail the die is
reset (R453). -/
def Obligations.TakeoverAndRails : Prop :=
  ((∀ (now : Nat) (s : State), s.bit .GCTL_MGR_STANDBY 0 = true →
     (∃ t, exec (.heartbeatLoss now) s = .next t ∧ t.getF .GCTL_MGR_CAUSE 0 = 1) ∧
     (∃ t, exec (.mgrWatchdog now) s = .next t ∧ t.getF .GCTL_MGR_CAUSE 0 = 2) ∧
     (∃ t, exec (.mgrMemoryError now) s = .next t ∧ t.getF .GCTL_MGR_CAUSE 0 = 3) ∧
     (∃ t, exec (.switch now) s = .next t ∧ t.getF .GCTL_MGR_CAUSE 0 = 4)) ∧
   (∀ (now : Nat) (s : State) (c : Instr),
     c = .heartbeatLoss now ∨ c = .mgrWatchdog now ∨ c = .mgrMemoryError now ∨ c = .switch now →
     s.bit .GCTL_MGR_STANDBY 0 = true →
     ∃ t, exec c s = .next t ∧ t.getF .GCTL_MGR_ACTIVE 0 = 1 - s.getF .GCTL_MGR_ACTIVE 0 ∧
       t.getF .GCTL_MGR_STANDBY 0 = 0 ∧ t.getF .GCTL_MGR_TAKEOVERS 0 = min (s.getF .GCTL_MGR_TAKEOVERS 0 + 1) 255 ∧
       (∀ f, (t.fnst f).entries = []) ∧ t.loading = [] ∧ (∀ l, l ∈ s.loading → t.part l.fn = none) ∧ t.cells = s.cells ∧
       (s.loading = [] → KeepsBytes s t nowhere ∧ t.stations = s.stations ∧ t.parts = s.parts ∧ t.engines = s.engines)) ∧
   (∀ (now : Nat) (s : State), s.bit .GCTL_MGR_STANDBY 0 = false →
     exec (.switch now) s = .next (s.advance now) ∧ exec (.heartbeatLoss now) s = .next ((s.advance now).dieReset 3) ∧
     exec (.mgrWatchdog now) s = .next ((s.advance now).dieReset 3) ∧
     exec (.mgrMemoryError now) s = .next ((s.advance now).dieReset 3)) ∧
   (∀ (now : Nat) (s : State),
     (6 ≤ s.getF .GCTL_START_STEP 0 → exec (.mgrStandbyReady now) s = .next ((s.advance now).setF .GCTL_MGR_STANDBY 0 1)) ∧
     (s.getF .GCTL_START_STEP 0 < 6 → exec (.mgrStandbyReady now) s = .next (s.advance now)))) ∧
  ((∀ (now : Nat) (s : State), exec (.railUndervoltage now .vddIo) s = .next (s.advance now).powerOff) ∧
   (∀ (now : Nat) (s : State), ∃ t, exec (.railUndervoltage now .vddPgm) s = .next t ∧ t.pgmFault = true ∧ t.tokenHeld = [] ∧
     t.tokenPool = 0 ∧ t.getF .PWR_STAT_POOL 0 = 0 ∧ t.cells = s.cells ∧ KeepsBytes s t nowhere) ∧
   (∀ (now : Nat) (s : State), ∃ t, exec (.railUndervoltage now .vddWio) s = .next t ∧ t.wioDown = true ∧
     KeepsBytes s t nowhere ∧ t.cells = s.cells ∧ t.parts = s.parts) ∧
   (∀ (now : Nat) (s : State) (r : Rail), r = .vddCore ∨ r = .vddAna ∨ r = .serdes →
     ∃ t, exec (.railUndervoltage now r) s = .next t ∧ t.parts = [] ∧ t.sram = [] ∧ t.cells = s.cells) ∧
   (∀ (now : Nat) (s : State),
     (s.wioDown = true → ∃ t, exec (.railReturn now) s = .next t ∧ t.wioDown = false ∧
       KeepsBytes s t nowhere ∧ t.cells = s.cells ∧ t.parts = s.parts) ∧
     (s.wioDown = false → exec (.railReturn now) s = .next (s.advance now))))

/-- The cap: a write is clamped between 24 and four times setting 4, in 250 mW, and clears OVERCAP; a refill, at each 100 us of device
time, takes it over and gives the programming-token pool of it, and every awake cluster that is not throttled a budget of at least 8
tokens, which its account holds (R392 to R396). Regulators: a slot's answer shows in its STATUS and power; the third missing answer
running makes it LOST; a LOST slot that answers a retry is not; CLR clears FAULT and sends CLEAR_FAULTS (R389, R391). Adaptive voltage:
while it is enabled and not held, an adjustment sets out for the voltage asked for within 0.65 to 0.85 V in steps of 5 mV, and a warning
only upwards; while it is not enabled, or slot 0 is LOST, neither has an effect; disabling it sets out for 0.75 V (R390). -/
def Obligations.PowerManaged : Prop :=
  ((∀ (now : Nat) (v : BitVec 8) (s : State),
     ∃ t, exec (.capWrite now v) s = .next t ∧ t.getF .PWR_CAP_CAP 0 = max 24 (min (4 * s.setting 4) v.toNat) ∧
       t.getF .PWR_STAT_OVERCAP 0 = 0 ∧
       KeepsRegs s t (fun f i => (f == .PWR_CAP_CAP || f == .PWR_STAT_OVERCAP) && i == 0) ∧
       t = { s.advance now with regs := t.regs }) ∧
   (∀ (now base : Nat) (s : State),
     ((s.advance now).clock % 100000 = 0 →
       ∃ t, exec (.budgetRefill now base) s = .next t ∧ t.capNow = min (s.getF .PWR_CAP_CAP 0) (4 * s.setting 4) ∧
         t.tokenPool = (if s.pgmFault then 0 else min 256 (2 * (t.capNow - 8))) ∧ t.getF .PWR_STAT_POOL 0 = t.tokenPool ∧
         (∀ c, c < 16 → s.sharedOn c = true → s.getF .CPT_STAT_THR c = 0 → 8 ≤ t.getF .CPT_PWR_BUDGET c) ∧
         (∀ c, c < 16 → s.sharedOn c = true → t.getF .CPT_PWR_BUDGET c = min 65535 (smapGet 0 t.accounts c)) ∧
         (∀ c, s.sharedOn c = false → smapGet 0 t.accounts c = 0) ∧
         KeepsRegs s t (fun f _ => [Fld.PWR_CAP_CAP, .PWR_STAT_POOL, .PWR_STAT_OVERCAP, .CPT_PWR_BUDGET].contains f) ∧
         t = { s.advance now with regs := t.regs, capNow := t.capNow, tokenPool := t.tokenPool, fresh := t.fresh, accounts := t.accounts, refillAt := some (max s.time now), grants := t.grants }) ∧
     ((s.advance now).clock % 100000 ≠ 0 → exec (.budgetRefill now base) s = .next (s.advance now)))) ∧
  ((∀ (now : Nat) (answers : List (Option RegAnswer)) (s : State) (n : Nat) (c : Instr),
     c = .pmbusTelemetry now answers ∨ c = .smbalert now answers →
     n < 6 → s.bit .PWR_REG_VALID n = true → s.bit .PWR_REG_STAT_LOST n = false →
     (∀ a, answers.getD n none = some a →
       ∃ t, exec c s = .next t ∧ t.getF .PWR_REG_STAT_STATUS n = a.status.toNat ∧ smapGet 0 t.regFails n = 0 ∧
         t.getF .PWR_REG_POUT_MW n = a.mw % 4294967296 ∧ t.bit .PWR_REG_STAT_LOST n = false ∧ KeepsBytes s t nowhere) ∧
     (answers.getD n none = none →
       ∃ t, exec c s = .next t ∧ smapGet 0 t.regFails n = smapGet 0 s.regFails n + 1 ∧
         t.bit .PWR_REG_STAT_LOST n = decide (2 ≤ smapGet 0 s.regFails n) ∧ KeepsBytes s t nowhere)) ∧
   (∀ (now : Nat) (n : Fin 6) (s : State),
     (s.bit .PWR_REG_STAT_LOST n.val = true → smapGet 0 s.regTried n.val + 100000000 ≤ max s.time now →
       (∃ t, exec (.regulatorRetry now n none) s = .next t ∧ t.bit .PWR_REG_STAT_LOST n.val = true ∧
         smapGet 0 t.regTried n.val = max s.time now ∧ t = { s.advance now with regTried := t.regTried }) ∧
       (∀ a, ∃ t, exec (.regulatorRetry now n (some a)) s = .next t ∧ t.bit .PWR_REG_STAT_LOST n.val = false ∧
         t.getF .PWR_REG_STAT_STATUS n.val = a.status.toNat ∧ smapGet 0 t.regFails n.val = 0 ∧ KeepsBytes s t nowhere)) ∧
     ((s.bit .PWR_REG_STAT_LOST n.val = false ∨ max s.time now < smapGet 0 s.regTried n.val + 100000000) →
       ∀ a, exec (.regulatorRetry now n a) s = .next (s.advance now))) ∧
   (∀ (now : Nat) (n : Fin 6) (s : State),
     ((s.pgmFault = false ∨ s.clearsPgm n.val = false) →
       exec (.regulatorClr now n) s = .next (((s.advance now).setF .PWR_REG_STAT_FAULT n.val 0).emit (.pmbus n.val 3 0))) ∧
     (s.pgmFault = true → s.clearsPgm n.val = true →
       ∃ t, exec (.regulatorClr now n) s = .next t ∧ t.getF .PWR_REG_STAT_FAULT n.val = 0 ∧ t.pgmFault = false ∧
         t.tokenPool = min 256 (2 * (s.capNow - 8)) ∧ t.out = .pmbus n.val 3 0 :: s.out ∧
         KeepsRegs s t (fun f i => (f == .PWR_REG_STAT_FAULT && i == n.val) || (f == .PWR_STAT_POOL && i == 0)) ∧
         t = { s.advance now with regs := t.regs, out := t.out, pgmFault := false, tokenPool := t.tokenPool }))) ∧
  (∀ (now : Nat) (mv : Nat) (s : State),
     (650 ≤ voltage mv ∧ voltage mv ≤ 850 ∧ voltage mv % 5 = 0) ∧
     (s.bit .PWR_AVS_EN 0 = true → s.bit .PWR_AVS_HELD 0 = false →
       (∃ t, exec (.avsAdjust now mv) s = .next t ∧ t.avs.whither = voltage mv ∧
         t = { s.advance now with avs := t.avs, out := t.out }) ∧
       (∃ t, exec (.avsMonitorWarning now mv) s = .next t ∧ t.avs.whither = max s.avs.whither (voltage mv) ∧
         t = { s.advance now with avs := t.avs, out := t.out })) ∧
     (s.bit .PWR_AVS_EN 0 = false ∨ s.bit .PWR_AVS_HELD 0 = true →
       exec (.avsAdjust now mv) s = .next (s.advance now) ∧ exec (.avsMonitorWarning now mv) s = .next (s.advance now)) ∧
     (∃ t, exec (.avsEnableWrite now false) s = .next t ∧ t.bit .PWR_AVS_EN 0 = false ∧
       t.avs.whither = (if s.bit .PWR_AVS_HELD 0 then s.avs.whither else 750) ∧
       t = { s.advance now with regs := t.regs, avs := t.avs, out := t.out }) ∧
     exec (.avsEnableWrite now true) s = .next ((s.advance now).setF .PWR_AVS_EN 0 1))

/-- Sensors: a reading joins the ten that each sensor keeps; a valid sensor at 115 °C or above twice running shuts every
cluster down; a check holds a cluster with fewer than two valid sensors in T4, with LOWSENS set (R397 to R401, R405). A cluster's band
follows its median by one band in a 1 ms step, with hysteresis; in T4 at 105 °C or above and not cooling its throttle rises by 1, to 14,
and below 103 °C it falls by 1, once in a step (R400, R402). -/
def Obligations.TemperatureManaged : Prop :=
  ((∀ (now : Nat) (temps : List Int) (s : State),
     (s.shutDown = true ∨ ∀ n, n < 72 → s.sensorValid n = true → ∃ v, temps[n]? = some v ∧ v < 920) →
     ∃ t, exec (.sensorRead now temps) s = .next t ∧
       (∀ n, n < 72 → (t.sensor n).last =
         (match temps[n]? with | some v => (v :: (s.sensor n).last).take 10 | none => (s.sensor n).last)) ∧
       t = { s.advance now with sensors := t.sensors }) ∧
   (∀ (now : Nat) (temps : List Int) (s : State) (n : Nat) (v : Int), n < 72 → s.sensorValid n = true →
     temps[n]? = some v → 920 ≤ v → 920 ≤ (s.sensor n).last.headD 0 → s.shutDown = false →
     ∃ t, exec (.sensorRead now temps) s = .next t ∧ t.shutDown = true ∧ t.getF .THM_STAT_SHUTSENS 0 ≤ n ∧
       (∀ c, c < 16 → t.sharedOn c = false) ∧ t.tokenHeld = [] ∧ t.passes = [] ∧ t.cells = s.cells) ∧
   (∀ (now : Nat) (s : State), ∃ t, exec (.sensorCheck now) s = .next t ∧
     (∀ c, c < 16 → t.getF .CPT_STAT_LOWSENS c = (if ((clSensors c).filter t.sensorValid).length < 2 then 1 else 0)) ∧
     (∀ c, c < 16 → ((clSensors c).filter t.sensorValid).length < 2 → t.band c = 4 ∧ t.getF .CPT_STAT_THR c = 14) ∧
     t.bandMoved = [] ∧ t.thrJudged = [] ∧ t.cells = s.cells)) ∧
  (∀ (now : Nat) (cl : Cluster) (s : State),
     (s.bit .CPT_STAT_LOWSENS cl.val = true ∨ cl.val ∈ s.bandMoved →
       exec (.bandChange now cl) s = .next (s.advance now)) ∧
     (s.bit .CPT_STAT_LOWSENS cl.val = false → cl.val ∉ s.bandMoved →
       (∀ b thr, s.band cl.val = b → b < 4 → bandRise.getD b 0 = thr → thr ≤ s.median cl.val →
         ∃ t, exec (.bandChange now cl) s = .next t ∧ t.band cl.val = b + 1 ∧ cl.val ∈ t.bandMoved ∧ t.cells = s.cells ∧
           KeepsBytes s t nowhere) ∧
       (∀ b thr, s.band cl.val = b + 1 → b < 4 → bandFall.getD b 0 = thr → s.median cl.val < thr →
         ∃ t, exec (.bandChange now cl) s = .next t ∧ t.band cl.val = b ∧ cl.val ∈ t.bandMoved ∧ t.cells = s.cells ∧
           KeepsBytes s t nowhere) ∧
       (s.band cl.val ≤ 4 → (s.band cl.val < 4 → s.median cl.val < bandRise.getD (s.band cl.val) 0) →
         (0 < s.band cl.val → bandFall.getD (s.band cl.val - 1) 0 ≤ s.median cl.val) →
         exec (.bandChange now cl) s = .next (s.advance now)))) ∧
  (∀ (now : Nat) (cl : Cluster) (s : State),
     let u := (s.advance now).bandStep cl.val
     (s.bit .CPT_STAT_LOWSENS cl.val = false → cl.val ∉ s.thrJudged →
       (u.band cl.val = 4 → 840 ≤ s.median cl.val → smapGet 0 s.medPrev cl.val ≤ s.median cl.val →
         ∃ t, exec (.throttleStep now cl) s = .next t ∧ t.getF .CPT_STAT_THR cl.val = min 14 (s.getF .CPT_STAT_THR cl.val + 1) ∧
           cl.val ∈ t.thrJudged ∧
           KeepsRegs u t (fun f i => (f == .CPT_STAT_THR || f == .CPT_PWR_BUDGET) && i == cl.val) ∧
           t = { u with regs := t.regs, thrJudged := t.thrJudged, accounts := t.accounts }) ∧
       (s.median cl.val < 824 →
         ∃ t, exec (.throttleStep now cl) s = .next t ∧
           t.getF .CPT_STAT_THR cl.val = (s.getF .CPT_STAT_THR cl.val - 1) % 2 ^ Fld.CPT_STAT_THR.width ∧ cl.val ∈ t.thrJudged ∧
           KeepsRegs u t (fun f i => (f == .CPT_STAT_THR || f == .CPT_PWR_BUDGET) && i == cl.val) ∧
           t = { u with regs := t.regs, thrJudged := t.thrJudged, accounts := t.accounts })) ∧
     ((s.bit .CPT_STAT_LOWSENS cl.val = true ∨ cl.val ∈ s.thrJudged) → exec (.throttleStep now cl) s = .next u))

/-! ### Sett, fuses, keys and observation -/

/-- The operator window: a write of Q3 within one page, with nothing written before, stands in the page buffer; a write
outside Q3 stores nothing and counts once in DENIED; a commit queues the pages written, and begins at once when the controller is idle, a
discard forgets them, and at the end of a commit of the physical function its pages hold their new bytes and the next commit begins, the
two lists alternately (R412, R413, R417, R418). An update of a counter group writes the next two slots of the ring with the next
sequence number, primary and duplicate alike (R415; the slot's layout is the model's reading, log entry 102); a margin scan refreshes the
weak pages, and a page weak again takes a spare page while there are any (R416). -/
def Obligations.SettStore : Prop :=
  ((∀ (now : Nat) (off : BitVec 18) (data : List Byte) (s : State), 0 < data.length →
     (196608 ≤ off.toNat → s.getF .NVS_CTL_PROT 0 = 0 → s.settBuf = none → s.settList = [] →
       off.toNat / 64 = (off.toNat + data.length - 1) / 64 →
       ∃ t p, exec (.settWindowWrite now off data) s = .next t ∧ t.settBuf = some p ∧ p.page = off.toNat / 64 ∧
         (∀ k, k < data.length → smapGet none p.bytes ((off.toNat + k) % 64) = some (data.getD k 0)) ∧
         t = { s.advance now with settBuf := t.settBuf }) ∧
     (off.toNat + data.length ≤ 196608 →
       exec (.settWindowWrite now off data) s = .next ((s.advance now).addHold .NVS_STAT_DENIED 0 1))) ∧
   (∀ (now : Nat) (s : State),
     (s.settPages ≠ [] → exec (.settCommit now) s = .next { s.advance now with
       settQueue := s.settQueue ++ [s.settPages]
       settList := []
       settBuf := none
       events := if s.events.commit = none then { s.events with commit := some true } else s.events }) ∧
     (s.settPages = [] → exec (.settCommit now) s = .next (s.advance now)) ∧
     exec (.settDiscard now) s = .next { s.advance now with settList := [], settBuf := none }) ∧
   (∀ (now : Nat) (s : State),
     (s.events.commit = none → exec (.settCommitDone now) s = .next (s.advance now)) ∧
     (∀ c rest, s.events.commit = some true → s.settQueue = c :: rest →
       ∃ t, exec (.settCommitDone now) s = .next t ∧ t.settQueue = rest ∧ t.settCommits = s.settCommits + 1 ∧
         t.settMem = settWith s.settMem c ∧
         (∀ a, (∀ p, p ∈ c → ∀ e, e ∈ p.bytes → 64 * p.page + e.1 ≠ a) → smapGet none t.settMem a = smapGet none s.settMem a) ∧
         t.events.commit = (if s.events.urgent || s.events.gather then some false else if rest.isEmpty then none else some true) ∧
         t = { s.advance now with settQueue := t.settQueue, settMem := t.settMem, settCommits := t.settCommits, events := t.events }) ∧
     (s.events.commit = some false →
       ∃ t, exec (.settCommitDone now) s = .next t ∧ t.settCommits = s.settCommits + 1 ∧
         t.events.commit = (if s.events.urgent || (s.events.gather && s.settQueue.isEmpty) then some false
           else if s.settQueue.isEmpty then none else some true) ∧
         t = { s.advance now with settCommits := t.settCommits, events := t.events }))) ∧
  ((∀ (now : Nat) (group : Byte) (counters : List Byte) (s : State), s.ringNext < 2048 →
     let n := s.ringNext
     let m := (s.ringNext + 1) % 2048
     let x : CounterSlot := { group := group.toNat, seq := (s.ringSeq + 1) % 4294967296, data := padTo 20 (counters.take 20) }
     ∃ t, exec (.counterGroupUpdate now group counters) s = .next t ∧
       (∀ k, k < 32 → smapGet none t.settMem (131072 + 32 * n + k) = some (x.bytes.getD k 0) ∧
         smapGet none t.settMem (131072 + 32 * m + k) = some (x.bytes.getD k 0)) ∧
       (∀ a, (a < 131072 ∨ ((a - 131072) / 32 ≠ n ∧ (a - 131072) / 32 ≠ m)) →
         smapGet none t.settMem a = smapGet none s.settMem a) ∧
       smapGet CounterSlot.empty t.counters group.toNat = x ∧
       t.ringNext = (s.ringNext + 2) % 2048 ∧ t.ringSeq = (s.ringSeq + 1) % 4294967296 ∧
       t = { s.advance now with settMem := t.settMem, counters := t.counters, ringNext := t.ringNext, ringSeq := t.ringSeq, events := t.events }) ∧
   (∀ (now : Nat) (weak dead : List (Fin 4096)) (s : State), s.getF .NVS_STAT_SPARES 0 < 2 ^ Fld.NVS_STAT_SPARES.width →
     ∃ t, exec (.marginScan now weak dead) s = .next t ∧
       t.settRefreshes = s.settRefreshes + (weak ++ dead).dedup.length ∧
       t.getF .NVS_STAT_SPARES 0 = s.getF .NVS_STAT_SPARES 0 - dead.dedup.length ∧ KeepsBytes s t nowhere ∧
       (dead.dedup.length ≤ s.getF .NVS_STAT_SPARES 0 →
         KeepsRegs s t (fun f i => f == .NVS_STAT_SPARES && i == 0) ∧
         t = { s.advance now with regs := t.regs, settRefreshes := t.settRefreshes })))

/-- Limited-change settings: a write without the key changes nothing; a request is refused with RESULT 2 when its slots are used up, 4 for
its value, 3 while something uses the setting, and is done when the value is in force; any other is burned, and is in force once its
commit bit has burned; the slot is spent in any case (R419, R420). The anti-rollback counter: an advance to at most 64 and at most the
image's security version, above the count, is taken up; what has burned raises the count, never beyond the target and never down (R421).
The key store: a request is BUSY until it is done; done, its RESULT shows and only a successful one changes a slot, the one it names:
an erase empties it, a write fills it (R424). -/
def Obligations.FusesAndKeys : Prop :=
  ((∀ (now : Nat) (key : BitVec 16) (n : BitVec 3) (s : State), (key ≠ 0xC3A5#16 ∨ s.lcBusy ≠ none ∨ s.shutDown = true) →
     exec (.lcChangeRequest now key n) s = .next (s.advance now)) ∧
   (∀ (now : Nat) (n : BitVec 3) (s : State),
     let k := n.toNat
     let v := s.getF .NVS_LCVAL_VALUE 0
     let told (r : Nat) : State := ((s.advance now).setF .NVS_LCSTAT_SETTING 0 k).setF .NVS_LCSTAT_RESULT 0 r
     s.lcBusy = none → s.shutDown = false →
     (k < 6 → 8 ≤ (s.lcSlots k).length → exec (.lcChangeRequest now 0xC3A5#16 n) s = .next (told 2)) ∧
     ((6 ≤ k ∨ (s.lcSlots k).length < 8) →
       (s.settingValueBad k v = true → exec (.lcChangeRequest now 0xC3A5#16 n) s = .next (told 4)) ∧
       (s.settingValueBad k v = false → s.settingInUse k v = true → exec (.lcChangeRequest now 0xC3A5#16 n) s = .next (told 3)) ∧
       (s.settingValueBad k v = false → s.settingInUse k v = false → v = s.setting k →
         exec (.lcChangeRequest now 0xC3A5#16 n) s = .next (told 1)) ∧
       (s.settingValueBad k v = false → s.settingInUse k v = false → v ≠ s.setting k →
         exec (.lcChangeRequest now 0xC3A5#16 n) s = .next { told 0 with lcBusy := some (k, v) }))) ∧
   (∀ (now : Nat) (burned : Bool) (s : State),
     (s.lcBusy = none → exec (.lcBurnDone now burned) s = .next (s.advance now)) ∧
     (∀ n v, s.lcBusy = some (n, v) →
       ∃ t, exec (.lcBurnDone now burned) s = .next t ∧ t.lcBusy = none ∧
         t.lcSlots n = s.lcSlots n ++ [{ value := v, ok := burned }] ∧ (∀ k, k ≠ n → t.lcSlots k = s.lcSlots k) ∧
         t.setting n = (if burned then v else s.setting n) ∧
         t.getF .NVS_LCSTAT_RESULT 0 = (if burned then 1 else 5) ∧
         (burned = true → n = 1 → s.setting 1 < v → t.modelKeys = []) ∧
         ((burned = false ∨ n ≠ 1 ∨ v ≤ s.setting 1) → t.modelKeys = s.modelKeys) ∧ KeepsBytes s t nowhere ∧
         t.cells = s.cells))) ∧
  ((∀ (now : Nat) (target : BitVec 7) (s : State),
     let top := match s.image with | some i => i.secver | none => 0
     (target.toNat ≤ 64 → target.toNat ≤ top → s.fwTarget = none → s.getF .NVS_FWARB_COUNT 0 < target.toNat →
       exec (.fwarbAdvance now target) s = .next { s.advance now with fwTarget := some target.toNat }) ∧
     ((64 < target.toNat ∨ top < target.toNat ∨ s.fwTarget ≠ none ∨ target.toNat ≤ s.getF .NVS_FWARB_COUNT 0) →
       exec (.fwarbAdvance now target) s = .next (s.advance now))) ∧
   (∀ (now burned : Nat) (s : State),
     (s.fwTarget = none → exec (.fwarbBurnDone now burned) s = .next (s.advance now)) ∧
     (∀ n, s.fwTarget = some n → n ≤ 64 → s.getF .NVS_FWARB_COUNT 0 < 2 ^ Fld.NVS_FWARB_COUNT.width →
       ∃ t, exec (.fwarbBurnDone now burned) s = .next t ∧ t.fwTarget = none ∧
         t.getF .NVS_FWARB_COUNT 0 = max (s.getF .NVS_FWARB_COUNT 0) (min burned n) ∧
         KeepsRegs s t (fun f i => f == .NVS_FWARB_COUNT && i == 0) ∧
         t = { s.advance now with regs := t.regs, fwTarget := t.fwTarget }))) ∧
  ((∀ (now : Nat) (s : State),
     (s.bit .NVS_KSCMD_BUSY 0 = false →
       exec (.keystoreRequest now) s = .next (((s.advance now).setF .NVS_KSCMD_BUSY 0 1).setF .NVS_KSCMD_RESULT 0 0) ∧
       exec (.keystoreRequestDone now) s = .next (s.advance now)) ∧
     (s.bit .NVS_KSCMD_BUSY 0 = true → exec (.keystoreRequest now) s = .next (s.advance now))) ∧
   (∀ (now : Nat) (s : State), s.bit .NVS_KSCMD_BUSY 0 = true →
     let b := s.ksBlock
     let slot := bnum b 0 1
     ∃ t, exec (.keystoreRequestDone now) s = .next t ∧ t.bit .NVS_KSCMD_BUSY 0 = false ∧
       t.getF .NVS_KSCMD_RESULT 0 = s.ksResult b ∧
       (∀ k, k ≠ slot ∨ s.ksResult b ≠ 1 → smapGet Key.empty t.signKeys k = smapGet Key.empty s.signKeys k) ∧
       (s.ksResult b = 1 → smapGet Key.empty t.signKeys slot =
         (if bnum b 3 1 = 2 then Key.empty
          else { bytes := (b.drop 4).take 48, owner := if bnum b 2 1 = 4 then 0xFF else bnum b 1 1, usage := bnum b 2 1 })) ∧
       KeepsRegs s t (fun f i => (f == .NVS_KSCMD_BUSY || f == .NVS_KSCMD_RESULT) && i == 0) ∧
       t = { s.advance now with regs := t.regs, signKeys := t.signKeys }))

/-- Watch points: WATCH_ARM in its turn that nothing refuses arms the point for its owner and station; WATCH_DISARM of an own point frees
it; a full window latches the result and counts as closed; a read of STAT returns it and latches the other words (R438 to R440).
DIGEST_REGION that nothing refuses waits; done, the SHA-256 digest of the region's bytes goes to the host's address, before
its completion, and memory keeps every byte (R441). TRACE_CONSENT gives or takes a tenant's consent (R433). What is refused completes
with its code and has no other effect, and a row that names an entry whose turn it is not does nothing (R306). -/
def Obligations.WatchPointsAndDigests : Prop :=
  ((∀ (now : Nat) (fn : Func) (entry : List Word) (s : State), s.nextUp fn.val 0x30 entry = true →
     let u := (s.advance now).takeAccepted fn.val entry
     (∀ n, u.armCode fn.val entry = 0 → u.armPoint entry = some n →
       ∃ t, exec (.watchArm now fn entry) s = .next t ∧ t.bit .OBS_TW_CFG_ARMED n = true ∧
         t.getF .OBS_TW_CFG_OWNER n = fn.val ∧ t.getF .OBS_TW_CFG_STATION n = bits (entryWord entry 2) 27 16 ∧
         t.getF .OBS_TW_STAT_CLOSED n = 0 ∧ (t.point n).size = bits (entryWord entry 3) 31 16 ∧ (t.point n).n = 0 ∧
         (∀ k, k ≠ n → t.getF .OBS_TW_CFG_ARMED k = s.getF .OBS_TW_CFG_ARMED k) ∧
         KeepsBytes s t nowhere ∧ t.stations = s.stations) ∧
     (u.armCode fn.val entry ≠ 0 →
       exec (.watchArm now fn entry) s = .next (u.answer fn.val entry (u.armCode fn.val entry) 0))) ∧
   (∀ (now : Nat) (fn : Func) (entry : List Word) (s : State), s.nextUp fn.val 0x31 entry = true →
     let n := bits (entryWord entry 2) 5 0
     let u := (s.advance now).takeAccepted fn.val entry
     (entryClean entry 3 = false ∨ bits (entryWord entry 2) 31 6 ≠ 0 →
       exec (.watchDisarm now fn entry) s = .next (u.answer fn.val entry 1 0)) ∧
     (entryClean entry 3 = true → bits (entryWord entry 2) 31 6 = 0 →
       (s.bit .OBS_TW_CFG_ARMED n = false ∨ s.getF .OBS_TW_CFG_OWNER n ≠ fn.val →
         exec (.watchDisarm now fn entry) s = .next (u.answer fn.val entry 2 0)) ∧
       (s.bit .OBS_TW_CFG_ARMED n = true → s.getF .OBS_TW_CFG_OWNER n = fn.val → s.dieOn 5 = true →
         ∃ t, exec (.watchDisarm now fn entry) s = .next t ∧ t.bit .OBS_TW_CFG_ARMED n = false ∧ t.point n = TensorPoint.idle ∧
           (∀ k, k ≠ n → t.getF .OBS_TW_CFG_ARMED k = s.getF .OBS_TW_CFG_ARMED k) ∧ KeepsBytes s t nowhere))) ∧
   (∀ (now : Nat) (n : Fin 64) (s : State),
     (s.bit .OBS_TW_CFG_ARMED n.val = true → s.dieOn 5 = true → (s.point n.val).size ≤ (s.point n.val).n →
       ∃ t, exec (.watchWindowClose now n) s = .next t ∧
         t.getF .OBS_TW_STAT_CLOSED n.val = (s.getF .OBS_TW_STAT_CLOSED n.val + 1) % 2 ^ Fld.OBS_TW_STAT_CLOSED.width ∧
         t.getF .OBS_TW_FSEQ_VALUE n.val = (s.point n.val).fseq % 2 ^ Fld.OBS_TW_FSEQ_VALUE.width ∧
         t.getF .OBS_TW_LSEQ_VALUE n.val = (s.point n.val).lseq % 2 ^ Fld.OBS_TW_LSEQ_VALUE.width ∧
         (t.point n.val).n = 0 ∧ (t.point n.val).size = (s.point n.val).size ∧ t.bit .OBS_TW_CFG_ARMED n.val = true ∧
         t = { s.advance now with regs := t.regs, points := t.points, fresh := t.fresh }) ∧
     ((s.bit .OBS_TW_CFG_ARMED n.val = false ∨ s.dieOn 5 = false ∨ (s.point n.val).n < (s.point n.val).size) →
       exec (.watchWindowClose now n) s = .next (s.advance now))) ∧
   (∀ (now : Nat) (n : Fin 64) (s : State),
     (s.dieOn 5 = true →
       ∃ t v, exec (.watchStatRead now n) s = .next t ∧ t.out = .readWord v :: s.out ∧
         smapGet 0 t.twLatch (16 * n.val + 2) = s.getF .OBS_TW_FSEQ_VALUE n.val + 1 ∧
         (∀ i, i < 8 → smapGet 0 t.twLatch (16 * n.val + 4 + i) = s.getF .OBS_TW_R_VALUE (8 * n.val + i) + 1) ∧
         t = { s.advance now with twLatch := t.twLatch, out := t.out }) ∧
     (s.dieOn 5 = false →
       exec (.watchStatRead now n) s =
         .next (((s.advance now).accErr 0 false 0x20 false (Reg.OBS_TW_STAT.at_ [n.val])).emit (.readWord 0))))) ∧
  ((∀ (now : Nat) (fn : Func) (entry : List Word) (s : State), s.nextUp fn.val 0x33 entry = true →
     let u := (s.advance now).takeAccepted fn.val entry
     let off := entryWord entry 2 + 4294967296 * entryWord entry 3
     let len := entryWord entry 4
     let ok := entryClean entry 7 = true ∧ off % 64 = 0 ∧ len % 64 = 0 ∧ 0 < len ∧ len ≤ 4194304
     (¬ ok → exec (.digestRegion now fn entry) s = .next (u.answer fn.val entry 1 0)) ∧
     (ok → u.regionOf fn.val off len = false → exec (.digestRegion now fn entry) s = .next (u.answer fn.val entry 2 0)) ∧
     (ok → u.regionOf fn.val off len = true → s.dieOn 5 = true →
       exec (.digestRegion now fn entry) s = .next { u with
         digests := u.digests ++ [{ fn := fn.val, tag := entryTag entry, off := off, len := len, addr := entryWord entry 5 + 4294967296 * entryWord entry 6 }] })) ∧
   (∀ (now : Nat) (s : State),
     (s.digests = [] → exec (.digestRegionDone now) s = .next (s.advance now)) ∧
     (∀ r rest, s.digests = r :: rest → s.dieOn 5 = true →
       ∃ t, exec (.digestRegionDone now) s = .next t ∧ t.digests = rest ∧
         (∃ xs ys, t.out = xs ++ .hostWrite r.fn r.addr (sha256 (s.bytes r.off r.len)) :: (ys ++ s.out)) ∧
         KeepsBytes s t nowhere ∧ t.cells = s.cells) ∧
     (∀ r rest, s.digests = r :: rest → s.dieOn 5 = false →
       exec (.digestRegionDone now) s = .next ({ s.advance now with digests := rest }.complete r.fn (result 0 r.tag 9 0 0)))) ∧
   (∀ (now : Nat) (fn : Func) (entry : List Word) (s : State), s.nextUp fn.val 0x32 entry = true →
     entryClean entry 3 = true → bits (entryWord entry 2) 31 1 = 0 → s.dieOn 5 = true →
     ∃ t, exec (.traceConsent now fn entry) s = .next t ∧ (t.fnst fn.val).consent = (entryWord entry 2 % 2 == 1) ∧
       KeepsBytes s t nowhere ∧ t.stations = s.stations) ∧
   (∀ (now : Nat) (fn : Func) (entry : List Word) (s : State) (c : Instr) (op : Nat),
     (c = .watchArm now fn entry ∧ op = 0x30) ∨ (c = .watchDisarm now fn entry ∧ op = 0x31) ∨
       (c = .traceConsent now fn entry ∧ op = 0x32) ∨ (c = .digestRegion now fn entry ∧ op = 0x33) →
     s.nextUp fn.val op entry = false → exec c s = .next (s.advance now)))

/-- The tenant counter page is latched with the device time (R431); enabling the trace drain starts its blocks at 0, and the ring whose
turn it is gives up to 252 of its oldest records as one block to the host region, while that has room, and PROD advances (R435). EVQ_POP
takes the head record of a function's queue; a flush gives the oldest coalesced entry of a queue with room, or of the log while its
bucket has a record's worth, as a SUPPRESSED record (R444, R445). The debug port does nothing at level 0, reads from level 1 on, does not
write below level 2, and at level 2 writes memory as the physical function does and every quarter of Sett (R418, R426). -/
def Obligations.TraceQueuesAndDebug : Prop :=
  ((∀ (now : Nat) (tn : Fin 128) (s : State),
     ((s.fnst (tn.val + 1)).enabled = true → (s.fnst (tn.val + 1)).flr = none →
       ∀ pf : Bool, exec (.tencLatch now pf tn) s = .next { s.advance now with
         tencs := smapSet none s.tencs (if pf then 128 + (tn.val + 1) else tn.val + 1)
           (some { time := (s.advance now).clock, words := (s.advance now).tencNow (tn.val + 1) }) }) ∧
     (((s.fnst (tn.val + 1)).enabled = false ∨ (s.fnst (tn.val + 1)).flr ≠ none) → s.perst = false →
       exec (.tencLatch now true tn) s = .next (s.advance now) ∧
       exec (.tencLatch now false tn) s = .next ((s.advance now).emit .unsupported))) ∧
   (∀ (now : Nat) (s : State),
     (s.dieOn 5 = true →
       (s.bit .OBS_TRCFG_EN 0 = false → ∃ t, exec (.traceEnable now true) s = .next t ∧ t.bit .OBS_TRCFG_EN 0 = true ∧
         t.getF .OBS_TRPROD_INDEX 0 = 0 ∧ t.traceSeq = 0 ∧
         KeepsRegs s t (fun f i => (f == .OBS_TRCFG_EN || f == .OBS_TRPROD_INDEX) && i == 0) ∧
         t = { s.advance now with regs := t.regs, traceSeq := t.traceSeq }) ∧
       (s.bit .OBS_TRCFG_EN 0 = true → exec (.traceEnable now true) s = .next ((s.advance now).setF .OBS_TRCFG_EN 0 1)) ∧
       exec (.traceEnable now false) s = .next ((s.advance now).setF .OBS_TRCFG_EN 0 0)) ∧
     (s.dieOn 5 = false → ∀ en : Bool,
       exec (.traceEnable now en) s = .next ((s.advance now).accErr 0 true 0x20 false (Reg.OBS_TRCFG.at_ [])))) ∧
   (∀ (now : Nat) (cl : Cluster) (s : State),
     let x := s.trace cl.val
     let n := s.getF .OBS_TRSIZE_BLOCKS 0
     let prod := s.getF .OBS_TRPROD_INDEX 0
     (s.bit .OBS_TRCFG_EN 0 = true → s.dieOn 5 = true → 0 < n → (s.advance now).drainTurn = some cl.val → s.traceFull prod = false →
       ∃ t, exec (.traceDrainBlock now cl) s = .next t ∧ (t.trace cl.val).recs = x.recs.drop 252 ∧
         t.traceSeq = s.traceSeq + 1 ∧ t.traceLast = cl.val ∧
         t.getF .OBS_TRPROD_INDEX 0 = (prod + 1) % n % 2 ^ Fld.OBS_TRPROD_INDEX.width ∧
         (.hostWrite 0 (s.getF .OBS_TRBASEH_VALUE 0 * 4294967296 + s.getF .OBS_TRBASEL_VALUE 0 * 4096 + 4096 * prod)
           ((s.advance now).traceBlock cl.val (x.recs.take 252))) ∈ t.out ∧
         KeepsRegs s t (fun f i => f == .OBS_TRPROD_INDEX && i == 0) ∧
         t = { s.advance now with regs := t.regs, traces := t.traces, traceSeq := t.traceSeq, traceLast := t.traceLast, out := t.out, pba := t.pba }) ∧
     ((s.bit .OBS_TRCFG_EN 0 = false ∨ s.dieOn 5 = false ∨ n = 0 ∨ (s.advance now).drainTurn ≠ some cl.val ∨
       s.traceFull prod = true) → exec (.traceDrainBlock now cl) s = .next (s.advance now)))) ∧
  ((∀ (now : Nat) (fn : Func) (s : State), Hosted s fn.val →
     (∃ t xs, exec (.evqPop now fn) s = .next t ∧
       (t.events.path (1 + fn.val)).recs = (s.events.path (1 + fn.val)).recs.drop 1 ++ xs ∧
       (∀ k, k ≠ 1 + fn.val → t.events.path k = s.events.path k) ∧
       t = { s.advance now with events := t.events, out := t.out, pba := t.pba }) ∧
     ((∀ p, p ∈ s.events.pending → p.1 ≠ fn.val) →
       ∃ t, exec (.evqPop now fn) s = .next t ∧
         (t.events.path (1 + fn.val)).recs = (s.events.path (1 + fn.val)).recs.drop 1 ∧
         (∀ k, k ≠ 1 + fn.val → t.events.path k = s.events.path k) ∧ t = { s.advance now with events := t.events })) ∧
   (∀ (now : Nat) (fn : Func) (s : State),
     let p := s.events.path (1 + fn.val)
     (∀ r rest, p.table = r :: rest → queueRoom p.recs 1 = true →
       ∃ t, exec (.eventCoalescedFlush now (.queue fn)) s = .next t ∧
         t.events.path (1 + fn.val) = { recs := p.recs ++ [{ r with supp := true }], table := rest } ∧
         (∀ k, k ≠ 1 + fn.val → t.events.path k = s.events.path k) ∧
         t = { s.advance now with events := t.events, pba := t.pba, out := t.out }) ∧
     ((p.table = [] ∨ queueRoom p.recs 1 = false) →
       exec (.eventCoalescedFlush now (.queue fn)) s = .next (s.advance now))) ∧
   (∀ (now : Nat) (s : State),
     let p := s.events.path 0
     let level := min 4000000000 (s.events.bucket + (max s.time now - s.events.bucketAt))
     (∀ r rest, p.table = r :: rest → 62500000 ≤ level →
       ∃ t, exec (.eventCoalescedFlush now .log) s = .next t ∧ (t.events.path 0).table = rest ∧
         t.events.bucket = level - 62500000 ∧ (∀ k, k ≠ 0 → t.events.path k = s.events.path k) ∧
         t = { s.advance now with events := t.events }) ∧
     ((p.table = [] ∨ level < 62500000) → exec (.eventCoalescedFlush now .log) s = .next (s.advance now)))) ∧
  ((∀ (now : Nat) (a : DebugAccess) (s : State), s.setting 1 = 0 → exec (.debugPortAccess now a) s = .next (s.advance now)) ∧
   (∀ (now : Nat) (a : DebugAccess) (s : State), s.setting 1 < 2 →
     (∃ off v, a = .writeReg off v) ∨ (∃ off data, a = .writeMem off data) ∨ (∃ off data, a = .settWrite off data) →
     exec (.debugPortAccess now a) s = .next (s.advance now)) ∧
   (∀ (now : Nat) (off : BitVec 26) (s : State) (r : Reg) (i : Nat),
     plainOffset off.toNat = true → 1 ≤ s.setting 1 → s.bar0On off.toNat = true → regAt off.toNat = some (r, i) →
     r ≠ .OBS_TW_STAT → lowRegs.contains r = false →
     exec (.debugPortAccess now (.readReg off)) s = .next ((s.advance now).emit (.readWord
       (if smapGet 0 s.latches off.toNat = 0 then (s.advance now).readReg r i else smapGet 0 s.latches off.toNat - 1)))) ∧
   (∀ (now : Nat) (off : BitVec 27) (len : Nat) (s : State),
     bar2Range off.toNat len 4096 = true → 1 ≤ s.setting 1 → s.rangeOn off.toNat len = true →
     (∀ w, w ∈ wordsOf off.toNat len → s.syndrome w = 0) →
     exec (.debugPortAccess now (.readMem off len)) s = .next
       { s.advance now with out := .readBytes (s.bytes off.toNat len) false :: s.out }) ∧
   (∀ (now : Nat) (off : BitVec 27) (data : List Byte) (s : State),
     bar2Range off.toNat data.length 512 = true → 2 ≤ s.setting 1 → s.rangeOn off.toNat data.length = true →
     (∀ w, w ∈ wordsOf off.toNat data.length → s.syndrome w = 0 ∧ guarded (8 * w) = false) →
     ∃ t, exec (.debugPortAccess now (.writeMem off data)) s = .next t ∧
       (∀ k, k < data.length → t.byte (off.toNat + k) = data.getD k 0) ∧
       KeepsBytes s t (fun a => decide (off.toNat ≤ a ∧ a < off.toNat + data.length))) ∧
   (∀ (now : Nat) (off : BitVec 18) (b : Byte) (s : State), 2 ≤ s.setting 1 → s.getF .NVS_CTL_PROT 0 = 0 → s.settBuf = none →
     s.settList = [] →
     ∃ t p, exec (.debugPortAccess now (.settWrite off [b])) s = .next t ∧ t.settBuf = some p ∧ p.page = off.toNat / 64 ∧
       smapGet none p.bytes (off.toNat % 64) = some b ∧ t = { s.advance now with settBuf := t.settBuf }))
end

