-- ==== Sys2Proof/Laws/Map.lean ====
section
/-!
SUPPORT. The laws of sparse maps: a read after a write, writes to other keys, and the canonical form that writes and
filters keep. With them the numbering of the register fields.
-/

namespace Sys2Proof.Machine
open Sys2Proof

variable {α : Type}

/-! ### Reads -/

@[simp] theorem smapGet_nil (d : α) (i : Nat) : smapGet d [] i = d := rfl

theorem smapGet_insert (d : α) (m : SMap α) (i j : Nat) (v : α) (h : ∀ e, e ∈ m → e.1 ≠ i) :
    smapGet d (smapInsert m i v) j = if i = j then v else smapGet d m j := by
  induction m with
  | nil => simp [smapInsert, smapGet]
  | cons e m ih =>
    obtain ⟨k, w⟩ := e
    have hk : k ≠ i := h (k, w) (by simp)
    have hm := ih (fun e he => h e (by simp [he]))
    by_cases hlt : i < k
    · simp [smapInsert, hlt, smapGet]
    · simp only [smapInsert, hlt, if_false, smapGet, hm]
      by_cases hij : i = j
      · subst hij; simp [hk]
      · simp [hij]

theorem smapGet_filter_key (d : α) (m : SMap α) (p : Nat → Bool) (i : Nat) :
    smapGet d (m.filter (fun e => p e.1)) i = if p i then smapGet d m i else d := by
  induction m with
  | nil => simp [smapGet]
  | cons e m ih =>
    obtain ⟨k, w⟩ := e
    by_cases hk : k = i
    · subst hk; by_cases hp : p k <;> simp [smapGet, hp, ih]
    · by_cases hp : p k <;> simp [smapGet, hp, hk, ih]

theorem smapGet_erase (d : α) (m : SMap α) (i j : Nat) :
    smapGet d (smapErase m i) j = if i = j then d else smapGet d m j := by
  have := smapGet_filter_key d m (fun k => !(k == i)) j
  simp only [smapErase, this]
  by_cases h : i = j
  · subst h; simp
  · simp [h, Ne.symm h]

theorem smapErase_ne (m : SMap α) (i : Nat) : ∀ e, e ∈ smapErase m i → e.1 ≠ i := by
  intro e he
  simpa [smapErase] using (List.mem_filter.mp he).2

/-- A write is read back, and every other key reads as before. -/
theorem smapGet_set [DecidableEq α] (d : α) (m : SMap α) (i j : Nat) (v : α) :
    smapGet d (smapSet d m i v) j = if i = j then v else smapGet d m j := by
  unfold smapSet
  by_cases hv : v = d
  · subst hv; simp [smapGet_erase]
  · rw [if_neg hv, smapGet_insert _ _ _ _ _ (smapErase_ne m i), smapGet_erase]
    by_cases h : i = j <;> simp [h]

@[simp] theorem smapGet_set_same [DecidableEq α] (d : α) (m : SMap α) (i : Nat) (v : α) :
    smapGet d (smapSet d m i v) i = v := by
  simp [smapGet_set]

theorem smapGet_set_ne [DecidableEq α] {d : α} (m : SMap α) {i j : Nat} (v : α) (h : i ≠ j) :
    smapGet d (smapSet d m i v) j = smapGet d m j := by
  simp [smapGet_set, h]

/-- A write with one default is not seen by a read of another key with another. -/
theorem smapGet_set_other [DecidableEq α] {d d' : α} (m : SMap α) {i j : Nat} (v : α) (h : i ≠ j) :
    smapGet d (smapSet d' m i v) j = smapGet d m j := by
  unfold smapSet
  split
  · simp [smapGet_erase, h]
  · rw [smapGet_insert _ _ _ _ _ (smapErase_ne m i), smapGet_erase]
    simp [h]

/-! ### The canonical form -/

/-- The canonical form said of the whole list: the keys rise strictly, and no entry holds the default. -/
theorem smapWf_iff [DecidableEq α] (d : α) (m : SMap α) :
    smapWf d m = true ↔ m.Pairwise (fun a b => a.1 < b.1) ∧ ∀ e, e ∈ m → e.2 ≠ d := by
  induction m with
  | nil => simp [smapWf]
  | cons e m ih =>
    obtain ⟨k, v⟩ := e
    cases m with
    | nil => simp [smapWf]
    | cons e2 m =>
      obtain ⟨k2, v2⟩ := e2
      simp only [smapWf, Bool.and_eq_true, ih, List.pairwise_cons, List.mem_cons]
      constructor
      · rintro ⟨⟨hv, hk⟩, ⟨h1, h2⟩, h3⟩
        have hk' : k < k2 := by simpa using hk
        refine ⟨⟨?_, h1, h2⟩, ?_⟩
        · rintro e (rfl | he)
          · exact hk'
          · exact Nat.lt_trans hk' (h1 e he)
        · rintro e (rfl | he)
          · simpa using hv
          · exact h3 e he
      · rintro ⟨⟨h0, h1, h2⟩, h3⟩
        refine ⟨⟨?_, ?_⟩, ⟨h1, h2⟩, fun e he => h3 e (Or.inr he)⟩
        · simpa using h3 (k, v) (Or.inl rfl)
        · simpa using h0 (k2, v2) (Or.inl rfl)

theorem smapWf_filter [DecidableEq α] (d : α) (m : SMap α) (p : Nat × α → Bool) (h : smapWf d m = true) :
    smapWf d (m.filter p) = true := by
  rw [smapWf_iff] at h ⊢
  exact ⟨h.1.filter p, fun e he => h.2 e (List.mem_of_mem_filter he)⟩

theorem smapWf_erase [DecidableEq α] (d : α) (m : SMap α) (i : Nat) (h : smapWf d m = true) :
    smapWf d (smapErase m i) = true := smapWf_filter d m _ h

theorem mem_smapInsert (m : SMap α) (i : Nat) (v : α) (e : Nat × α) (h : e ∈ smapInsert m i v) : e = (i, v) ∨ e ∈ m := by
  induction m with
  | nil => simpa [smapInsert] using h
  | cons a m ih =>
    obtain ⟨k, w⟩ := a
    simp only [smapInsert] at h
    split at h
    · simpa using h
    · rcases List.mem_cons.mp h with rfl | h
      · simp
      · rcases ih h with h | h <;> simp [h]

theorem smapInsert_pairwise (m : SMap α) (i : Nat) (v : α) (h : m.Pairwise (fun a b => a.1 < b.1))
    (hi : ∀ e, e ∈ m → e.1 ≠ i) : (smapInsert m i v).Pairwise (fun a b => a.1 < b.1) := by
  induction m with
  | nil => simp [smapInsert]
  | cons a m ih =>
    obtain ⟨k, w⟩ := a
    rw [List.pairwise_cons] at h
    have hk : k ≠ i := hi (k, w) (by simp)
    simp only [smapInsert]
    split
    · rename_i hlt
      refine List.pairwise_cons.mpr ⟨?_, List.pairwise_cons.mpr h⟩
      intro e he
      rcases List.mem_cons.mp he with rfl | he
      · exact hlt
      · exact Nat.lt_trans hlt (h.1 e he)
    · rename_i hlt
      refine List.pairwise_cons.mpr ⟨?_, ih h.2 (fun e he => hi e (by simp [he]))⟩
      intro e he
      rcases mem_smapInsert m i v e he with rfl | he
      · exact Nat.lt_of_le_of_ne (Nat.le_of_not_lt hlt) hk
      · exact h.1 e he

theorem smapWf_set [DecidableEq α] (d : α) (m : SMap α) (i : Nat) (v : α) (h : smapWf d m = true) :
    smapWf d (smapSet d m i v) = true := by
  unfold smapSet
  split
  · exact smapWf_erase d m i h
  · rename_i hv
    have he := (smapWf_iff d _).mp (smapWf_erase d m i h)
    refine (smapWf_iff d _).mpr ⟨smapInsert_pairwise _ i v he.1 (smapErase_ne m i), ?_⟩
    intro e hm
    rcases mem_smapInsert _ i v e hm with rfl | hm
    · exact hv
    · exact he.2 e hm

/-- In canonical form the entry of a listed key is what the map reads there. -/
theorem smapGet_of_mem [DecidableEq α] (d : α) (m : SMap α) (h : smapWf d m = true) (e : Nat × α) (he : e ∈ m) :
    smapGet d m e.1 = e.2 := by
  have hp := ((smapWf_iff d m).mp h).1
  clear h
  induction m with
  | nil => cases he
  | cons a m ih =>
    obtain ⟨k, w⟩ := a
    rw [List.pairwise_cons] at hp
    rcases List.mem_cons.mp he with rfl | he
    · simp [smapGet]
    · have := hp.1 e he
      simp only [smapGet]
      rw [if_neg (Nat.ne_of_lt this)]
      exact ih he hp.2

theorem smapWf_setBytes (m : SMap Byte) (a : Nat) (bs : List Byte) (h : smapWf memDefault m = true) :
    smapWf memDefault (setBytes m a bs) = true := by
  induction bs generalizing m a with
  | nil => exact h
  | cons b bs ih => exact ih _ _ (smapWf_set memDefault m a b h)

/-- What bytes written into an image leave to be read: the bytes in their range, and elsewhere what was there. -/
theorem smapGet_setBytes (m : SMap Byte) (a : Nat) (bs : List Byte) (j : Nat) :
    smapGet memDefault (setBytes m a bs) j =
      if a ≤ j ∧ j < a + bs.length then bs.getD (j - a) 0 else smapGet memDefault m j := by
  induction bs generalizing m a with
  | nil => simp [setBytes]
  | cons b bs ih =>
    simp only [setBytes, ih, setByte, smapGet_set, List.length_cons]
    by_cases h1 : a + 1 ≤ j ∧ j < a + 1 + bs.length
    · have h2 : a ≤ j ∧ j < a + (bs.length + 1) := by omega
      have h3 : j - a = (j - (a + 1)) + 1 := by omega
      rw [if_pos h1, if_pos h2, h3]
      simp
    · rw [if_neg h1]
      by_cases h2 : a = j
      · subst h2; simp
      · rw [if_neg h2, if_neg (by omega)]

/-! ### Register fields -/

/-- No two fields have the same number. -/
theorem Fld.code_inj {f g : Fld} (h : f.code = g.code) : f = g := by
  have := congrArg Fld.ofNat h
  simpa [Fld.code, Fld.ofNat_ctorIdx] using this

set_option maxRecDepth 20000 in
theorem Fld.code_lt (f : Fld) : f.code < 1024 := by
  cases f <;> decide

set_option maxRecDepth 20000 in
/-- Every field's reset value fits its width. -/
theorem Fld.rst_lt (f : Fld) : f.info.rst < 2 ^ f.width := by
  cases f <;> decide

/-- Different fields or replications have different keys. -/
theorem fkey_inj {f g : Fld} {i j : Nat} (h : fkey f i = fkey g j) : f = g ∧ i = j := by
  have h1 := f.code_lt
  have h2 := g.code_lt
  unfold fkey at h
  exact ⟨Fld.code_inj (by omega), by omega⟩

end Sys2Proof.Machine
end

