-- ==== Sys2Proof/Laws/State.lean ====
section
/-!
SUPPORT. What the small updates of the state leave alone, one lemma per field and update, and what the reads of a state give
after them.
-/

namespace Sys2Proof.Machine
open Sys2Proof

/-! ### Each field after each update -/

@[simp] theorem State.setF_pending (s : State) (f : Fld) (i v : Nat) : (s.setF f i v).pending = s.pending := rfl
@[simp] theorem State.setF_time (s : State) (f : Fld) (i v : Nat) : (s.setF f i v).time = s.time := rfl
@[simp] theorem State.setF_fresh (s : State) (f : Fld) (i v : Nat) : (s.setF f i v).fresh = s.fresh := rfl
@[simp] theorem State.setF_out (s : State) (f : Fld) (i v : Nat) : (s.setF f i v).out = s.out := rfl
@[simp] theorem State.setF_latches (s : State) (f : Fld) (i v : Nat) : (s.setF f i v).latches = s.latches := rfl
@[simp] theorem State.setF_sram (s : State) (f : Fld) (i v : Nat) : (s.setF f i v).sram = s.sram := rfl
@[simp] theorem State.setF_ecc (s : State) (f : Fld) (i v : Nat) : (s.setF f i v).ecc = s.ecc := rfl
@[simp] theorem State.setF_cmWait (s : State) (f : Fld) (i v : Nat) : (s.setF f i v).cmWait = s.cmWait := rfl
@[simp] theorem State.setF_tokenPool (s : State) (f : Fld) (i v : Nat) : (s.setF f i v).tokenPool = s.tokenPool := rfl
@[simp] theorem State.setF_tokenHeld (s : State) (f : Fld) (i v : Nat) : (s.setF f i v).tokenHeld = s.tokenHeld := rfl
@[simp] theorem State.setF_tokenWait (s : State) (f : Fld) (i v : Nat) : (s.setF f i v).tokenWait = s.tokenWait := rfl
@[simp] theorem State.setF_cells (s : State) (f : Fld) (i v : Nat) : (s.setF f i v).cells = s.cells := rfl
@[simp] theorem State.setF_engines (s : State) (f : Fld) (i v : Nat) : (s.setF f i v).engines = s.engines := rfl
@[simp] theorem State.setF_trackers (s : State) (f : Fld) (i v : Nat) : (s.setF f i v).trackers = s.trackers := rfl
@[simp] theorem State.setF_trims (s : State) (f : Fld) (i v : Nat) : (s.setF f i v).trims = s.trims := rfl
@[simp] theorem State.setF_passes (s : State) (f : Fld) (i v : Nat) : (s.setF f i v).passes = s.passes := rfl
@[simp] theorem State.setF_bandTime (s : State) (f : Fld) (i v : Nat) : (s.setF f i v).bandTime = s.bandTime := rfl
@[simp] theorem State.setF_bandAt (s : State) (f : Fld) (i v : Nat) : (s.setF f i v).bandAt = s.bandAt := rfl
@[simp] theorem State.setF_adderFree (s : State) (f : Fld) (i v : Nat) : (s.setF f i v).adderFree = s.adderFree := rfl
@[simp] theorem State.setF_ocus (s : State) (f : Fld) (i v : Nat) : (s.setF f i v).ocus = s.ocus := rfl
@[simp] theorem State.setF_owls (s : State) (f : Fld) (i v : Nat) : (s.setF f i v).owls = s.owls := rfl
@[simp] theorem State.setF_dac (s : State) (f : Fld) (i v : Nat) : (s.setF f i v).dac = s.dac := rfl
@[simp] theorem State.setF_rings (s : State) (f : Fld) (i v : Nat) : (s.setF f i v).rings = s.rings := rfl
@[simp] theorem State.setF_stations (s : State) (f : Fld) (i v : Nat) : (s.setF f i v).stations = s.stations := rfl
@[simp] theorem State.setF_tiles (s : State) (f : Fld) (i v : Nat) : (s.setF f i v).tiles = s.tiles := rfl
@[simp] theorem State.setF_tmvs (s : State) (f : Fld) (i v : Nat) : (s.setF f i v).tmvs = s.tmvs := rfl
@[simp] theorem State.setF_ctxs (s : State) (f : Fld) (i v : Nat) : (s.setF f i v).ctxs = s.ctxs := rfl
@[simp] theorem State.setF_ingests (s : State) (f : Fld) (i v : Nat) : (s.setF f i v).ingests = s.ingests := rfl
@[simp] theorem State.setF_offers (s : State) (f : Fld) (i v : Nat) : (s.setF f i v).offers = s.offers := rfl
@[simp] theorem State.setF_scrubs (s : State) (f : Fld) (i v : Nat) : (s.setF f i v).scrubs = s.scrubs := rfl
@[simp] theorem State.setF_busy (s : State) (f : Fld) (i v : Nat) : (s.setF f i v).busy = s.busy := rfl
@[simp] theorem State.setF_ports (s : State) (f : Fld) (i v : Nat) : (s.setF f i v).ports = s.ports := rfl
@[simp] theorem State.setF_threads (s : State) (f : Fld) (i v : Nat) : (s.setF f i v).threads = s.threads := rfl
@[simp] theorem State.setF_flights (s : State) (f : Fld) (i v : Nat) : (s.setF f i v).flights = s.flights := rfl
@[simp] theorem State.setF_groups (s : State) (f : Fld) (i v : Nat) : (s.setF f i v).groups = s.groups := rfl
@[simp] theorem State.setF_sets (s : State) (f : Fld) (i v : Nat) : (s.setF f i v).sets = s.sets := rfl
@[simp] theorem State.setF_snaps (s : State) (f : Fld) (i v : Nat) : (s.setF f i v).snaps = s.snaps := rfl
@[simp] theorem State.setF_parts (s : State) (f : Fld) (i v : Nat) : (s.setF f i v).parts = s.parts := rfl
@[simp] theorem State.setF_placed (s : State) (f : Fld) (i v : Nat) : (s.setF f i v).placed = s.placed := rfl
@[simp] theorem State.setF_jobs (s : State) (f : Fld) (i v : Nat) : (s.setF f i v).jobs = s.jobs := rfl
@[simp] theorem State.setF_beavers (s : State) (f : Fld) (i v : Nat) : (s.setF f i v).beavers = s.beavers := rfl
@[simp] theorem State.setF_turn (s : State) (f : Fld) (i v : Nat) : (s.setF f i v).turn = s.turn := rfl
@[simp] theorem State.setF_shards (s : State) (f : Fld) (i v : Nat) : (s.setF f i v).shards = s.shards := rfl
@[simp] theorem State.setF_modelKeys (s : State) (f : Fld) (i v : Nat) : (s.setF f i v).modelKeys = s.modelKeys := rfl
@[simp] theorem State.setF_shadows (s : State) (f : Fld) (i v : Nat) : (s.setF f i v).shadows = s.shadows := rfl
@[simp] theorem State.setF_weak (s : State) (f : Fld) (i v : Nat) : (s.setF f i v).weak = s.weak := rfl
@[simp] theorem State.setF_buckets (s : State) (f : Fld) (i v : Nat) : (s.setF f i v).buckets = s.buckets := rfl
@[simp] theorem State.setF_bucketAt (s : State) (f : Fld) (i v : Nat) : (s.setF f i v).bucketAt = s.bucketAt := rfl
@[simp] theorem State.setF_fns (s : State) (f : Fld) (i v : Nat) : (s.setF f i v).fns = s.fns := rfl
@[simp] theorem State.setF_numVfs (s : State) (f : Fld) (i v : Nat) : (s.setF f i v).numVfs = s.numVfs := rfl
@[simp] theorem State.setF_accepted (s : State) (f : Fld) (i v : Nat) : (s.setF f i v).accepted = s.accepted := rfl
@[simp] theorem State.setF_pba (s : State) (f : Fld) (i v : Nat) : (s.setF f i v).pba = s.pba := rfl
@[simp] theorem State.setF_events (s : State) (f : Fld) (i v : Nat) : (s.setF f i v).events = s.events := rfl
@[simp] theorem State.setF_traces (s : State) (f : Fld) (i v : Nat) : (s.setF f i v).traces = s.traces := rfl
@[simp] theorem State.setF_traceSeq (s : State) (f : Fld) (i v : Nat) : (s.setF f i v).traceSeq = s.traceSeq := rfl
@[simp] theorem State.setF_points (s : State) (f : Fld) (i v : Nat) : (s.setF f i v).points = s.points := rfl
@[simp] theorem State.setF_twLatch (s : State) (f : Fld) (i v : Nat) : (s.setF f i v).twLatch = s.twLatch := rfl
@[simp] theorem State.setF_digests (s : State) (f : Fld) (i v : Nat) : (s.setF f i v).digests = s.digests := rfl
@[simp] theorem State.setF_tencs (s : State) (f : Fld) (i v : Nat) : (s.setF f i v).tencs = s.tencs := rfl
@[simp] theorem State.setF_totals (s : State) (f : Fld) (i v : Nat) : (s.setF f i v).totals = s.totals := rfl
@[simp] theorem State.setF_links (s : State) (f : Fld) (i v : Nat) : (s.setF f i v).links = s.links := rfl
@[simp] theorem State.setF_domain (s : State) (f : Fld) (i v : Nat) : (s.setF f i v).domain = s.domain := rfl
@[simp] theorem State.setF_offsets (s : State) (f : Fld) (i v : Nat) : (s.setF f i v).offsets = s.offsets := rfl
@[simp] theorem State.setF_wakes (s : State) (f : Fld) (i v : Nat) : (s.setF f i v).wakes = s.wakes := rfl
@[simp] theorem State.setF_norA (s : State) (f : Fld) (i v : Nat) : (s.setF f i v).norA = s.norA := rfl
@[simp] theorem State.setF_norB (s : State) (f : Fld) (i v : Nat) : (s.setF f i v).norB = s.norB := rfl
@[simp] theorem State.setF_image (s : State) (f : Fld) (i v : Nat) : (s.setF f i v).image = s.image := rfl
@[simp] theorem State.setF_perst (s : State) (f : Fld) (i v : Nat) : (s.setF f i v).perst = s.perst := rfl
@[simp] theorem State.setF_wakeAsked (s : State) (f : Fld) (i v : Nat) : (s.setF f i v).wakeAsked = s.wakeAsked := rfl
@[simp] theorem State.setF_shutRec (s : State) (f : Fld) (i v : Nat) : (s.setF f i v).shutRec = s.shutRec := rfl
@[simp] theorem State.setF_calRec (s : State) (f : Fld) (i v : Nat) : (s.setF f i v).calRec = s.calRec := rfl
@[simp] theorem State.setF_capNow (s : State) (f : Fld) (i v : Nat) : (s.setF f i v).capNow = s.capNow := rfl
@[simp] theorem State.setF_pgmFault (s : State) (f : Fld) (i v : Nat) : (s.setF f i v).pgmFault = s.pgmFault := rfl
@[simp] theorem State.setF_regFails (s : State) (f : Fld) (i v : Nat) : (s.setF f i v).regFails = s.regFails := rfl
@[simp] theorem State.setF_regTried (s : State) (f : Fld) (i v : Nat) : (s.setF f i v).regTried = s.regTried := rfl
@[simp] theorem State.setF_avs (s : State) (f : Fld) (i v : Nat) : (s.setF f i v).avs = s.avs := rfl
@[simp] theorem State.setF_sensors (s : State) (f : Fld) (i v : Nat) : (s.setF f i v).sensors = s.sensors := rfl
@[simp] theorem State.setF_medPrev (s : State) (f : Fld) (i v : Nat) : (s.setF f i v).medPrev = s.medPrev := rfl
@[simp] theorem State.setF_deadCls (s : State) (f : Fld) (i v : Nat) : (s.setF f i v).deadCls = s.deadCls := rfl
@[simp] theorem State.setF_onAt (s : State) (f : Fld) (i v : Nat) : (s.setF f i v).onAt = s.onAt := rfl
@[simp] theorem State.setF_onCl (s : State) (f : Fld) (i v : Nat) : (s.setF f i v).onCl = s.onCl := rfl
@[simp] theorem State.setF_settMem (s : State) (f : Fld) (i v : Nat) : (s.setF f i v).settMem = s.settMem := rfl
@[simp] theorem State.setF_settBuf (s : State) (f : Fld) (i v : Nat) : (s.setF f i v).settBuf = s.settBuf := rfl
@[simp] theorem State.setF_settList (s : State) (f : Fld) (i v : Nat) : (s.setF f i v).settList = s.settList := rfl
@[simp] theorem State.setF_settQueue (s : State) (f : Fld) (i v : Nat) : (s.setF f i v).settQueue = s.settQueue := rfl
@[simp] theorem State.setF_settCommits (s : State) (f : Fld) (i v : Nat) : (s.setF f i v).settCommits = s.settCommits := rfl
@[simp] theorem State.setF_settRefreshes (s : State) (f : Fld) (i v : Nat) : (s.setF f i v).settRefreshes = s.settRefreshes := rfl
@[simp] theorem State.setF_ringNext (s : State) (f : Fld) (i v : Nat) : (s.setF f i v).ringNext = s.ringNext := rfl
@[simp] theorem State.setF_ringSeq (s : State) (f : Fld) (i v : Nat) : (s.setF f i v).ringSeq = s.ringSeq := rfl
@[simp] theorem State.setF_lc (s : State) (f : Fld) (i v : Nat) : (s.setF f i v).lc = s.lc := rfl
@[simp] theorem State.setF_lcBusy (s : State) (f : Fld) (i v : Nat) : (s.setF f i v).lcBusy = s.lcBusy := rfl
@[simp] theorem State.setF_fwTarget (s : State) (f : Fld) (i v : Nat) : (s.setF f i v).fwTarget = s.fwTarget := rfl
@[simp] theorem State.setF_signKeys (s : State) (f : Fld) (i v : Nat) : (s.setF f i v).signKeys = s.signKeys := rfl
@[simp] theorem State.setF_spot (s : State) (f : Fld) (i v : Nat) : (s.setF f i v).spot = s.spot := rfl
@[simp] theorem State.setF_bearAt (s : State) (f : Fld) (i v : Nat) : (s.setF f i v).bearAt = s.bearAt := rfl
@[simp] theorem State.setF_wins (s : State) (f : Fld) (i v : Nat) : (s.setF f i v).wins = s.wins := rfl
@[simp] theorem State.setF_wrules (s : State) (f : Fld) (i v : Nat) : (s.setF f i v).wrules = s.wrules := rfl
@[simp] theorem State.setF_wioDown (s : State) (f : Fld) (i v : Nat) : (s.setF f i v).wioDown = s.wioDown := rfl
@[simp] theorem State.setF_base (s : State) (f : Fld) (i v : Nat) : (s.setF f i v).base = s.base := rfl
@[simp] theorem State.setF_pllOff (s : State) (f : Fld) (i v : Nat) : (s.setF f i v).pllOff = s.pllOff := rfl
@[simp] theorem State.setF_cmLast (s : State) (f : Fld) (i v : Nat) : (s.setF f i v).cmLast = s.cmLast := rfl
@[simp] theorem State.setF_clrAt (s : State) (f : Fld) (i v : Nat) : (s.setF f i v).clrAt = s.clrAt := rfl
@[simp] theorem State.setF_syncAt (s : State) (f : Fld) (i v : Nat) : (s.setF f i v).syncAt = s.syncAt := rfl
@[simp] theorem State.setF_trgAt (s : State) (f : Fld) (i v : Nat) : (s.setF f i v).trgAt = s.trgAt := rfl
@[simp] theorem State.setF_snapHeld (s : State) (f : Fld) (i v : Nat) : (s.setF f i v).snapHeld = s.snapHeld := rfl
@[simp] theorem State.setF_resets (s : State) (f : Fld) (i v : Nat) : (s.setF f i v).resets = s.resets := rfl
@[simp] theorem State.setF_accounts (s : State) (f : Fld) (i v : Nat) : (s.setF f i v).accounts = s.accounts := rfl
@[simp] theorem State.setF_refillAt (s : State) (f : Fld) (i v : Nat) : (s.setF f i v).refillAt = s.refillAt := rfl
@[simp] theorem State.setF_grants (s : State) (f : Fld) (i v : Nat) : (s.setF f i v).grants = s.grants := rfl
@[simp] theorem State.setF_bandMoved (s : State) (f : Fld) (i v : Nat) : (s.setF f i v).bandMoved = s.bandMoved := rfl
@[simp] theorem State.setF_thrJudged (s : State) (f : Fld) (i v : Nat) : (s.setF f i v).thrJudged = s.thrJudged := rfl
@[simp] theorem State.setF_spareLeft (s : State) (f : Fld) (i v : Nat) : (s.setF f i v).spareLeft = s.spareLeft := rfl
@[simp] theorem State.setF_aerLog (s : State) (f : Fld) (i v : Nat) : (s.setF f i v).aerLog = s.aerLog := rfl
@[simp] theorem State.setF_loading (s : State) (f : Fld) (i v : Nat) : (s.setF f i v).loading = s.loading := rfl
@[simp] theorem State.setF_channels (s : State) (f : Fld) (i v : Nat) : (s.setF f i v).channels = s.channels := rfl
@[simp] theorem State.setF_traceLast (s : State) (f : Fld) (i v : Nat) : (s.setF f i v).traceLast = s.traceLast := rfl
@[simp] theorem State.setF_counters (s : State) (f : Fld) (i v : Nat) : (s.setF f i v).counters = s.counters := rfl
@[simp] theorem State.setF_spotDue (s : State) (f : Fld) (i v : Nat) : (s.setF f i v).spotDue = s.spotDue := rfl
@[simp] theorem State.setF_heldRules (s : State) (f : Fld) (i v : Nat) : (s.setF f i v).heldRules = s.heldRules := rfl
@[simp] theorem State.setF_outMarks (s : State) (f : Fld) (i v : Nat) : (s.setF f i v).outMarks = s.outMarks := rfl
@[simp] theorem State.burn_pending (s : State) : s.burn.pending = s.pending := rfl
@[simp] theorem State.burn_time (s : State) : s.burn.time = s.time := rfl
@[simp] theorem State.burn_out (s : State) : s.burn.out = s.out := rfl
@[simp] theorem State.burn_regs (s : State) : s.burn.regs = s.regs := rfl
@[simp] theorem State.burn_latches (s : State) : s.burn.latches = s.latches := rfl
@[simp] theorem State.burn_sram (s : State) : s.burn.sram = s.sram := rfl
@[simp] theorem State.burn_ecc (s : State) : s.burn.ecc = s.ecc := rfl
@[simp] theorem State.burn_cmWait (s : State) : s.burn.cmWait = s.cmWait := rfl
@[simp] theorem State.burn_tokenPool (s : State) : s.burn.tokenPool = s.tokenPool := rfl
@[simp] theorem State.burn_tokenHeld (s : State) : s.burn.tokenHeld = s.tokenHeld := rfl
@[simp] theorem State.burn_tokenWait (s : State) : s.burn.tokenWait = s.tokenWait := rfl
@[simp] theorem State.burn_cells (s : State) : s.burn.cells = s.cells := rfl
@[simp] theorem State.burn_engines (s : State) : s.burn.engines = s.engines := rfl
@[simp] theorem State.burn_trackers (s : State) : s.burn.trackers = s.trackers := rfl
@[simp] theorem State.burn_trims (s : State) : s.burn.trims = s.trims := rfl
@[simp] theorem State.burn_passes (s : State) : s.burn.passes = s.passes := rfl
@[simp] theorem State.burn_bandTime (s : State) : s.burn.bandTime = s.bandTime := rfl
@[simp] theorem State.burn_bandAt (s : State) : s.burn.bandAt = s.bandAt := rfl
@[simp] theorem State.burn_adderFree (s : State) : s.burn.adderFree = s.adderFree := rfl
@[simp] theorem State.burn_ocus (s : State) : s.burn.ocus = s.ocus := rfl
@[simp] theorem State.burn_owls (s : State) : s.burn.owls = s.owls := rfl
@[simp] theorem State.burn_dac (s : State) : s.burn.dac = s.dac := rfl
@[simp] theorem State.burn_rings (s : State) : s.burn.rings = s.rings := rfl
@[simp] theorem State.burn_stations (s : State) : s.burn.stations = s.stations := rfl
@[simp] theorem State.burn_tiles (s : State) : s.burn.tiles = s.tiles := rfl
@[simp] theorem State.burn_tmvs (s : State) : s.burn.tmvs = s.tmvs := rfl
@[simp] theorem State.burn_ctxs (s : State) : s.burn.ctxs = s.ctxs := rfl
@[simp] theorem State.burn_ingests (s : State) : s.burn.ingests = s.ingests := rfl
@[simp] theorem State.burn_offers (s : State) : s.burn.offers = s.offers := rfl
@[simp] theorem State.burn_scrubs (s : State) : s.burn.scrubs = s.scrubs := rfl
@[simp] theorem State.burn_busy (s : State) : s.burn.busy = s.busy := rfl
@[simp] theorem State.burn_ports (s : State) : s.burn.ports = s.ports := rfl
@[simp] theorem State.burn_threads (s : State) : s.burn.threads = s.threads := rfl
@[simp] theorem State.burn_flights (s : State) : s.burn.flights = s.flights := rfl
@[simp] theorem State.burn_groups (s : State) : s.burn.groups = s.groups := rfl
@[simp] theorem State.burn_sets (s : State) : s.burn.sets = s.sets := rfl
@[simp] theorem State.burn_snaps (s : State) : s.burn.snaps = s.snaps := rfl
@[simp] theorem State.burn_parts (s : State) : s.burn.parts = s.parts := rfl
@[simp] theorem State.burn_placed (s : State) : s.burn.placed = s.placed := rfl
@[simp] theorem State.burn_jobs (s : State) : s.burn.jobs = s.jobs := rfl
@[simp] theorem State.burn_beavers (s : State) : s.burn.beavers = s.beavers := rfl
@[simp] theorem State.burn_turn (s : State) : s.burn.turn = s.turn := rfl
@[simp] theorem State.burn_shards (s : State) : s.burn.shards = s.shards := rfl
@[simp] theorem State.burn_modelKeys (s : State) : s.burn.modelKeys = s.modelKeys := rfl
@[simp] theorem State.burn_shadows (s : State) : s.burn.shadows = s.shadows := rfl
@[simp] theorem State.burn_weak (s : State) : s.burn.weak = s.weak := rfl
@[simp] theorem State.burn_buckets (s : State) : s.burn.buckets = s.buckets := rfl
@[simp] theorem State.burn_bucketAt (s : State) : s.burn.bucketAt = s.bucketAt := rfl
@[simp] theorem State.burn_fns (s : State) : s.burn.fns = s.fns := rfl
@[simp] theorem State.burn_numVfs (s : State) : s.burn.numVfs = s.numVfs := rfl
@[simp] theorem State.burn_accepted (s : State) : s.burn.accepted = s.accepted := rfl
@[simp] theorem State.burn_pba (s : State) : s.burn.pba = s.pba := rfl
@[simp] theorem State.burn_events (s : State) : s.burn.events = s.events := rfl
@[simp] theorem State.burn_traces (s : State) : s.burn.traces = s.traces := rfl
@[simp] theorem State.burn_traceSeq (s : State) : s.burn.traceSeq = s.traceSeq := rfl
@[simp] theorem State.burn_points (s : State) : s.burn.points = s.points := rfl
@[simp] theorem State.burn_twLatch (s : State) : s.burn.twLatch = s.twLatch := rfl
@[simp] theorem State.burn_digests (s : State) : s.burn.digests = s.digests := rfl
@[simp] theorem State.burn_tencs (s : State) : s.burn.tencs = s.tencs := rfl
@[simp] theorem State.burn_totals (s : State) : s.burn.totals = s.totals := rfl
@[simp] theorem State.burn_links (s : State) : s.burn.links = s.links := rfl
@[simp] theorem State.burn_domain (s : State) : s.burn.domain = s.domain := rfl
@[simp] theorem State.burn_offsets (s : State) : s.burn.offsets = s.offsets := rfl
@[simp] theorem State.burn_wakes (s : State) : s.burn.wakes = s.wakes := rfl
@[simp] theorem State.burn_norA (s : State) : s.burn.norA = s.norA := rfl
@[simp] theorem State.burn_norB (s : State) : s.burn.norB = s.norB := rfl
@[simp] theorem State.burn_image (s : State) : s.burn.image = s.image := rfl
@[simp] theorem State.burn_perst (s : State) : s.burn.perst = s.perst := rfl
@[simp] theorem State.burn_wakeAsked (s : State) : s.burn.wakeAsked = s.wakeAsked := rfl
@[simp] theorem State.burn_shutRec (s : State) : s.burn.shutRec = s.shutRec := rfl
@[simp] theorem State.burn_calRec (s : State) : s.burn.calRec = s.calRec := rfl
@[simp] theorem State.burn_capNow (s : State) : s.burn.capNow = s.capNow := rfl
@[simp] theorem State.burn_pgmFault (s : State) : s.burn.pgmFault = s.pgmFault := rfl
@[simp] theorem State.burn_regFails (s : State) : s.burn.regFails = s.regFails := rfl
@[simp] theorem State.burn_regTried (s : State) : s.burn.regTried = s.regTried := rfl
@[simp] theorem State.burn_avs (s : State) : s.burn.avs = s.avs := rfl
@[simp] theorem State.burn_sensors (s : State) : s.burn.sensors = s.sensors := rfl
@[simp] theorem State.burn_medPrev (s : State) : s.burn.medPrev = s.medPrev := rfl
@[simp] theorem State.burn_deadCls (s : State) : s.burn.deadCls = s.deadCls := rfl
@[simp] theorem State.burn_onAt (s : State) : s.burn.onAt = s.onAt := rfl
@[simp] theorem State.burn_onCl (s : State) : s.burn.onCl = s.onCl := rfl
@[simp] theorem State.burn_settMem (s : State) : s.burn.settMem = s.settMem := rfl
@[simp] theorem State.burn_settBuf (s : State) : s.burn.settBuf = s.settBuf := rfl
@[simp] theorem State.burn_settList (s : State) : s.burn.settList = s.settList := rfl
@[simp] theorem State.burn_settQueue (s : State) : s.burn.settQueue = s.settQueue := rfl
@[simp] theorem State.burn_settCommits (s : State) : s.burn.settCommits = s.settCommits := rfl
@[simp] theorem State.burn_settRefreshes (s : State) : s.burn.settRefreshes = s.settRefreshes := rfl
@[simp] theorem State.burn_ringNext (s : State) : s.burn.ringNext = s.ringNext := rfl
@[simp] theorem State.burn_ringSeq (s : State) : s.burn.ringSeq = s.ringSeq := rfl
@[simp] theorem State.burn_lc (s : State) : s.burn.lc = s.lc := rfl
@[simp] theorem State.burn_lcBusy (s : State) : s.burn.lcBusy = s.lcBusy := rfl
@[simp] theorem State.burn_fwTarget (s : State) : s.burn.fwTarget = s.fwTarget := rfl
@[simp] theorem State.burn_signKeys (s : State) : s.burn.signKeys = s.signKeys := rfl
@[simp] theorem State.burn_spot (s : State) : s.burn.spot = s.spot := rfl
@[simp] theorem State.burn_bearAt (s : State) : s.burn.bearAt = s.bearAt := rfl
@[simp] theorem State.burn_wins (s : State) : s.burn.wins = s.wins := rfl
@[simp] theorem State.burn_wrules (s : State) : s.burn.wrules = s.wrules := rfl
@[simp] theorem State.burn_wioDown (s : State) : s.burn.wioDown = s.wioDown := rfl
@[simp] theorem State.burn_base (s : State) : s.burn.base = s.base := rfl
@[simp] theorem State.burn_pllOff (s : State) : s.burn.pllOff = s.pllOff := rfl
@[simp] theorem State.burn_cmLast (s : State) : s.burn.cmLast = s.cmLast := rfl
@[simp] theorem State.burn_clrAt (s : State) : s.burn.clrAt = s.clrAt := rfl
@[simp] theorem State.burn_syncAt (s : State) : s.burn.syncAt = s.syncAt := rfl
@[simp] theorem State.burn_trgAt (s : State) : s.burn.trgAt = s.trgAt := rfl
@[simp] theorem State.burn_snapHeld (s : State) : s.burn.snapHeld = s.snapHeld := rfl
@[simp] theorem State.burn_resets (s : State) : s.burn.resets = s.resets := rfl
@[simp] theorem State.burn_accounts (s : State) : s.burn.accounts = s.accounts := rfl
@[simp] theorem State.burn_refillAt (s : State) : s.burn.refillAt = s.refillAt := rfl
@[simp] theorem State.burn_grants (s : State) : s.burn.grants = s.grants := rfl
@[simp] theorem State.burn_bandMoved (s : State) : s.burn.bandMoved = s.bandMoved := rfl
@[simp] theorem State.burn_thrJudged (s : State) : s.burn.thrJudged = s.thrJudged := rfl
@[simp] theorem State.burn_spareLeft (s : State) : s.burn.spareLeft = s.spareLeft := rfl
@[simp] theorem State.burn_aerLog (s : State) : s.burn.aerLog = s.aerLog := rfl
@[simp] theorem State.burn_loading (s : State) : s.burn.loading = s.loading := rfl
@[simp] theorem State.burn_channels (s : State) : s.burn.channels = s.channels := rfl
@[simp] theorem State.burn_traceLast (s : State) : s.burn.traceLast = s.traceLast := rfl
@[simp] theorem State.burn_counters (s : State) : s.burn.counters = s.counters := rfl
@[simp] theorem State.burn_spotDue (s : State) : s.burn.spotDue = s.spotDue := rfl
@[simp] theorem State.burn_heldRules (s : State) : s.burn.heldRules = s.heldRules := rfl
@[simp] theorem State.burn_outMarks (s : State) : s.burn.outMarks = s.outMarks := rfl
@[simp] theorem State.emit_pending (s : State) (o : Output) : (s.emit o).pending = s.pending := rfl
@[simp] theorem State.emit_time (s : State) (o : Output) : (s.emit o).time = s.time := rfl
@[simp] theorem State.emit_fresh (s : State) (o : Output) : (s.emit o).fresh = s.fresh := rfl
@[simp] theorem State.emit_regs (s : State) (o : Output) : (s.emit o).regs = s.regs := rfl
@[simp] theorem State.emit_latches (s : State) (o : Output) : (s.emit o).latches = s.latches := rfl
@[simp] theorem State.emit_sram (s : State) (o : Output) : (s.emit o).sram = s.sram := rfl
@[simp] theorem State.emit_ecc (s : State) (o : Output) : (s.emit o).ecc = s.ecc := rfl
@[simp] theorem State.emit_cmWait (s : State) (o : Output) : (s.emit o).cmWait = s.cmWait := rfl
@[simp] theorem State.emit_tokenPool (s : State) (o : Output) : (s.emit o).tokenPool = s.tokenPool := rfl
@[simp] theorem State.emit_tokenHeld (s : State) (o : Output) : (s.emit o).tokenHeld = s.tokenHeld := rfl
@[simp] theorem State.emit_tokenWait (s : State) (o : Output) : (s.emit o).tokenWait = s.tokenWait := rfl
@[simp] theorem State.emit_cells (s : State) (o : Output) : (s.emit o).cells = s.cells := rfl
@[simp] theorem State.emit_engines (s : State) (o : Output) : (s.emit o).engines = s.engines := rfl
@[simp] theorem State.emit_trackers (s : State) (o : Output) : (s.emit o).trackers = s.trackers := rfl
@[simp] theorem State.emit_trims (s : State) (o : Output) : (s.emit o).trims = s.trims := rfl
@[simp] theorem State.emit_passes (s : State) (o : Output) : (s.emit o).passes = s.passes := rfl
@[simp] theorem State.emit_bandTime (s : State) (o : Output) : (s.emit o).bandTime = s.bandTime := rfl
@[simp] theorem State.emit_bandAt (s : State) (o : Output) : (s.emit o).bandAt = s.bandAt := rfl
@[simp] theorem State.emit_adderFree (s : State) (o : Output) : (s.emit o).adderFree = s.adderFree := rfl
@[simp] theorem State.emit_ocus (s : State) (o : Output) : (s.emit o).ocus = s.ocus := rfl
@[simp] theorem State.emit_owls (s : State) (o : Output) : (s.emit o).owls = s.owls := rfl
@[simp] theorem State.emit_dac (s : State) (o : Output) : (s.emit o).dac = s.dac := rfl
@[simp] theorem State.emit_rings (s : State) (o : Output) : (s.emit o).rings = s.rings := rfl
@[simp] theorem State.emit_stations (s : State) (o : Output) : (s.emit o).stations = s.stations := rfl
@[simp] theorem State.emit_tiles (s : State) (o : Output) : (s.emit o).tiles = s.tiles := rfl
@[simp] theorem State.emit_tmvs (s : State) (o : Output) : (s.emit o).tmvs = s.tmvs := rfl
@[simp] theorem State.emit_ctxs (s : State) (o : Output) : (s.emit o).ctxs = s.ctxs := rfl
@[simp] theorem State.emit_ingests (s : State) (o : Output) : (s.emit o).ingests = s.ingests := rfl
@[simp] theorem State.emit_offers (s : State) (o : Output) : (s.emit o).offers = s.offers := rfl
@[simp] theorem State.emit_scrubs (s : State) (o : Output) : (s.emit o).scrubs = s.scrubs := rfl
@[simp] theorem State.emit_busy (s : State) (o : Output) : (s.emit o).busy = s.busy := rfl
@[simp] theorem State.emit_ports (s : State) (o : Output) : (s.emit o).ports = s.ports := rfl
@[simp] theorem State.emit_threads (s : State) (o : Output) : (s.emit o).threads = s.threads := rfl
@[simp] theorem State.emit_flights (s : State) (o : Output) : (s.emit o).flights = s.flights := rfl
@[simp] theorem State.emit_groups (s : State) (o : Output) : (s.emit o).groups = s.groups := rfl
@[simp] theorem State.emit_sets (s : State) (o : Output) : (s.emit o).sets = s.sets := rfl
@[simp] theorem State.emit_snaps (s : State) (o : Output) : (s.emit o).snaps = s.snaps := rfl
@[simp] theorem State.emit_parts (s : State) (o : Output) : (s.emit o).parts = s.parts := rfl
@[simp] theorem State.emit_placed (s : State) (o : Output) : (s.emit o).placed = s.placed := rfl
@[simp] theorem State.emit_jobs (s : State) (o : Output) : (s.emit o).jobs = s.jobs := rfl
@[simp] theorem State.emit_beavers (s : State) (o : Output) : (s.emit o).beavers = s.beavers := rfl
@[simp] theorem State.emit_turn (s : State) (o : Output) : (s.emit o).turn = s.turn := rfl
@[simp] theorem State.emit_shards (s : State) (o : Output) : (s.emit o).shards = s.shards := rfl
@[simp] theorem State.emit_modelKeys (s : State) (o : Output) : (s.emit o).modelKeys = s.modelKeys := rfl
@[simp] theorem State.emit_shadows (s : State) (o : Output) : (s.emit o).shadows = s.shadows := rfl
@[simp] theorem State.emit_weak (s : State) (o : Output) : (s.emit o).weak = s.weak := rfl
@[simp] theorem State.emit_buckets (s : State) (o : Output) : (s.emit o).buckets = s.buckets := rfl
@[simp] theorem State.emit_bucketAt (s : State) (o : Output) : (s.emit o).bucketAt = s.bucketAt := rfl
@[simp] theorem State.emit_fns (s : State) (o : Output) : (s.emit o).fns = s.fns := rfl
@[simp] theorem State.emit_numVfs (s : State) (o : Output) : (s.emit o).numVfs = s.numVfs := rfl
@[simp] theorem State.emit_accepted (s : State) (o : Output) : (s.emit o).accepted = s.accepted := rfl
@[simp] theorem State.emit_pba (s : State) (o : Output) : (s.emit o).pba = s.pba := rfl
@[simp] theorem State.emit_events (s : State) (o : Output) : (s.emit o).events = s.events := rfl
@[simp] theorem State.emit_traces (s : State) (o : Output) : (s.emit o).traces = s.traces := rfl
@[simp] theorem State.emit_traceSeq (s : State) (o : Output) : (s.emit o).traceSeq = s.traceSeq := rfl
@[simp] theorem State.emit_points (s : State) (o : Output) : (s.emit o).points = s.points := rfl
@[simp] theorem State.emit_twLatch (s : State) (o : Output) : (s.emit o).twLatch = s.twLatch := rfl
@[simp] theorem State.emit_digests (s : State) (o : Output) : (s.emit o).digests = s.digests := rfl
@[simp] theorem State.emit_tencs (s : State) (o : Output) : (s.emit o).tencs = s.tencs := rfl
@[simp] theorem State.emit_totals (s : State) (o : Output) : (s.emit o).totals = s.totals := rfl
@[simp] theorem State.emit_links (s : State) (o : Output) : (s.emit o).links = s.links := rfl
@[simp] theorem State.emit_domain (s : State) (o : Output) : (s.emit o).domain = s.domain := rfl
@[simp] theorem State.emit_offsets (s : State) (o : Output) : (s.emit o).offsets = s.offsets := rfl
@[simp] theorem State.emit_wakes (s : State) (o : Output) : (s.emit o).wakes = s.wakes := rfl
@[simp] theorem State.emit_norA (s : State) (o : Output) : (s.emit o).norA = s.norA := rfl
@[simp] theorem State.emit_norB (s : State) (o : Output) : (s.emit o).norB = s.norB := rfl
@[simp] theorem State.emit_image (s : State) (o : Output) : (s.emit o).image = s.image := rfl
@[simp] theorem State.emit_perst (s : State) (o : Output) : (s.emit o).perst = s.perst := rfl
@[simp] theorem State.emit_wakeAsked (s : State) (o : Output) : (s.emit o).wakeAsked = s.wakeAsked := rfl
@[simp] theorem State.emit_shutRec (s : State) (o : Output) : (s.emit o).shutRec = s.shutRec := rfl
@[simp] theorem State.emit_calRec (s : State) (o : Output) : (s.emit o).calRec = s.calRec := rfl
@[simp] theorem State.emit_capNow (s : State) (o : Output) : (s.emit o).capNow = s.capNow := rfl
@[simp] theorem State.emit_pgmFault (s : State) (o : Output) : (s.emit o).pgmFault = s.pgmFault := rfl
@[simp] theorem State.emit_regFails (s : State) (o : Output) : (s.emit o).regFails = s.regFails := rfl
@[simp] theorem State.emit_regTried (s : State) (o : Output) : (s.emit o).regTried = s.regTried := rfl
@[simp] theorem State.emit_avs (s : State) (o : Output) : (s.emit o).avs = s.avs := rfl
@[simp] theorem State.emit_sensors (s : State) (o : Output) : (s.emit o).sensors = s.sensors := rfl
@[simp] theorem State.emit_medPrev (s : State) (o : Output) : (s.emit o).medPrev = s.medPrev := rfl
@[simp] theorem State.emit_deadCls (s : State) (o : Output) : (s.emit o).deadCls = s.deadCls := rfl
@[simp] theorem State.emit_onAt (s : State) (o : Output) : (s.emit o).onAt = s.onAt := rfl
@[simp] theorem State.emit_onCl (s : State) (o : Output) : (s.emit o).onCl = s.onCl := rfl
@[simp] theorem State.emit_settMem (s : State) (o : Output) : (s.emit o).settMem = s.settMem := rfl
@[simp] theorem State.emit_settBuf (s : State) (o : Output) : (s.emit o).settBuf = s.settBuf := rfl
@[simp] theorem State.emit_settList (s : State) (o : Output) : (s.emit o).settList = s.settList := rfl
@[simp] theorem State.emit_settQueue (s : State) (o : Output) : (s.emit o).settQueue = s.settQueue := rfl
@[simp] theorem State.emit_settCommits (s : State) (o : Output) : (s.emit o).settCommits = s.settCommits := rfl
@[simp] theorem State.emit_settRefreshes (s : State) (o : Output) : (s.emit o).settRefreshes = s.settRefreshes := rfl
@[simp] theorem State.emit_ringNext (s : State) (o : Output) : (s.emit o).ringNext = s.ringNext := rfl
@[simp] theorem State.emit_ringSeq (s : State) (o : Output) : (s.emit o).ringSeq = s.ringSeq := rfl
@[simp] theorem State.emit_lc (s : State) (o : Output) : (s.emit o).lc = s.lc := rfl
@[simp] theorem State.emit_lcBusy (s : State) (o : Output) : (s.emit o).lcBusy = s.lcBusy := rfl
@[simp] theorem State.emit_fwTarget (s : State) (o : Output) : (s.emit o).fwTarget = s.fwTarget := rfl
@[simp] theorem State.emit_signKeys (s : State) (o : Output) : (s.emit o).signKeys = s.signKeys := rfl
@[simp] theorem State.emit_spot (s : State) (o : Output) : (s.emit o).spot = s.spot := rfl
@[simp] theorem State.emit_bearAt (s : State) (o : Output) : (s.emit o).bearAt = s.bearAt := rfl
@[simp] theorem State.emit_wins (s : State) (o : Output) : (s.emit o).wins = s.wins := rfl
@[simp] theorem State.emit_wrules (s : State) (o : Output) : (s.emit o).wrules = s.wrules := rfl
@[simp] theorem State.emit_wioDown (s : State) (o : Output) : (s.emit o).wioDown = s.wioDown := rfl
@[simp] theorem State.emit_base (s : State) (o : Output) : (s.emit o).base = s.base := rfl
@[simp] theorem State.emit_pllOff (s : State) (o : Output) : (s.emit o).pllOff = s.pllOff := rfl
@[simp] theorem State.emit_cmLast (s : State) (o : Output) : (s.emit o).cmLast = s.cmLast := rfl
@[simp] theorem State.emit_clrAt (s : State) (o : Output) : (s.emit o).clrAt = s.clrAt := rfl
@[simp] theorem State.emit_syncAt (s : State) (o : Output) : (s.emit o).syncAt = s.syncAt := rfl
@[simp] theorem State.emit_trgAt (s : State) (o : Output) : (s.emit o).trgAt = s.trgAt := rfl
@[simp] theorem State.emit_snapHeld (s : State) (o : Output) : (s.emit o).snapHeld = s.snapHeld := rfl
@[simp] theorem State.emit_resets (s : State) (o : Output) : (s.emit o).resets = s.resets := rfl
@[simp] theorem State.emit_accounts (s : State) (o : Output) : (s.emit o).accounts = s.accounts := rfl
@[simp] theorem State.emit_refillAt (s : State) (o : Output) : (s.emit o).refillAt = s.refillAt := rfl
@[simp] theorem State.emit_grants (s : State) (o : Output) : (s.emit o).grants = s.grants := rfl
@[simp] theorem State.emit_bandMoved (s : State) (o : Output) : (s.emit o).bandMoved = s.bandMoved := rfl
@[simp] theorem State.emit_thrJudged (s : State) (o : Output) : (s.emit o).thrJudged = s.thrJudged := rfl
@[simp] theorem State.emit_spareLeft (s : State) (o : Output) : (s.emit o).spareLeft = s.spareLeft := rfl
@[simp] theorem State.emit_aerLog (s : State) (o : Output) : (s.emit o).aerLog = s.aerLog := rfl
@[simp] theorem State.emit_loading (s : State) (o : Output) : (s.emit o).loading = s.loading := rfl
@[simp] theorem State.emit_channels (s : State) (o : Output) : (s.emit o).channels = s.channels := rfl
@[simp] theorem State.emit_traceLast (s : State) (o : Output) : (s.emit o).traceLast = s.traceLast := rfl
@[simp] theorem State.emit_counters (s : State) (o : Output) : (s.emit o).counters = s.counters := rfl
@[simp] theorem State.emit_spotDue (s : State) (o : Output) : (s.emit o).spotDue = s.spotDue := rfl
@[simp] theorem State.emit_heldRules (s : State) (o : Output) : (s.emit o).heldRules = s.heldRules := rfl
@[simp] theorem State.emit_outMarks (s : State) (o : Output) : (s.emit o).outMarks = s.outMarks := rfl
@[simp] theorem State.setEngine_pending (s : State) (i : Nat) (x : Engine) : (s.setEngine i x).pending = s.pending := rfl
@[simp] theorem State.setEngine_time (s : State) (i : Nat) (x : Engine) : (s.setEngine i x).time = s.time := rfl
@[simp] theorem State.setEngine_fresh (s : State) (i : Nat) (x : Engine) : (s.setEngine i x).fresh = s.fresh := rfl
@[simp] theorem State.setEngine_out (s : State) (i : Nat) (x : Engine) : (s.setEngine i x).out = s.out := rfl
@[simp] theorem State.setEngine_regs (s : State) (i : Nat) (x : Engine) : (s.setEngine i x).regs = s.regs := rfl
@[simp] theorem State.setEngine_latches (s : State) (i : Nat) (x : Engine) : (s.setEngine i x).latches = s.latches := rfl
@[simp] theorem State.setEngine_sram (s : State) (i : Nat) (x : Engine) : (s.setEngine i x).sram = s.sram := rfl
@[simp] theorem State.setEngine_ecc (s : State) (i : Nat) (x : Engine) : (s.setEngine i x).ecc = s.ecc := rfl
@[simp] theorem State.setEngine_cmWait (s : State) (i : Nat) (x : Engine) : (s.setEngine i x).cmWait = s.cmWait := rfl
@[simp] theorem State.setEngine_tokenPool (s : State) (i : Nat) (x : Engine) : (s.setEngine i x).tokenPool = s.tokenPool := rfl
@[simp] theorem State.setEngine_tokenHeld (s : State) (i : Nat) (x : Engine) : (s.setEngine i x).tokenHeld = s.tokenHeld := rfl
@[simp] theorem State.setEngine_tokenWait (s : State) (i : Nat) (x : Engine) : (s.setEngine i x).tokenWait = s.tokenWait := rfl
@[simp] theorem State.setEngine_cells (s : State) (i : Nat) (x : Engine) : (s.setEngine i x).cells = s.cells := rfl
@[simp] theorem State.setEngine_trackers (s : State) (i : Nat) (x : Engine) : (s.setEngine i x).trackers = s.trackers := rfl
@[simp] theorem State.setEngine_trims (s : State) (i : Nat) (x : Engine) : (s.setEngine i x).trims = s.trims := rfl
@[simp] theorem State.setEngine_passes (s : State) (i : Nat) (x : Engine) : (s.setEngine i x).passes = s.passes := rfl
@[simp] theorem State.setEngine_bandTime (s : State) (i : Nat) (x : Engine) : (s.setEngine i x).bandTime = s.bandTime := rfl
@[simp] theorem State.setEngine_bandAt (s : State) (i : Nat) (x : Engine) : (s.setEngine i x).bandAt = s.bandAt := rfl
@[simp] theorem State.setEngine_adderFree (s : State) (i : Nat) (x : Engine) : (s.setEngine i x).adderFree = s.adderFree := rfl
@[simp] theorem State.setEngine_ocus (s : State) (i : Nat) (x : Engine) : (s.setEngine i x).ocus = s.ocus := rfl
@[simp] theorem State.setEngine_owls (s : State) (i : Nat) (x : Engine) : (s.setEngine i x).owls = s.owls := rfl
@[simp] theorem State.setEngine_dac (s : State) (i : Nat) (x : Engine) : (s.setEngine i x).dac = s.dac := rfl
@[simp] theorem State.setEngine_rings (s : State) (i : Nat) (x : Engine) : (s.setEngine i x).rings = s.rings := rfl
@[simp] theorem State.setEngine_stations (s : State) (i : Nat) (x : Engine) : (s.setEngine i x).stations = s.stations := rfl
@[simp] theorem State.setEngine_tiles (s : State) (i : Nat) (x : Engine) : (s.setEngine i x).tiles = s.tiles := rfl
@[simp] theorem State.setEngine_tmvs (s : State) (i : Nat) (x : Engine) : (s.setEngine i x).tmvs = s.tmvs := rfl
@[simp] theorem State.setEngine_ctxs (s : State) (i : Nat) (x : Engine) : (s.setEngine i x).ctxs = s.ctxs := rfl
@[simp] theorem State.setEngine_ingests (s : State) (i : Nat) (x : Engine) : (s.setEngine i x).ingests = s.ingests := rfl
@[simp] theorem State.setEngine_offers (s : State) (i : Nat) (x : Engine) : (s.setEngine i x).offers = s.offers := rfl
@[simp] theorem State.setEngine_scrubs (s : State) (i : Nat) (x : Engine) : (s.setEngine i x).scrubs = s.scrubs := rfl
@[simp] theorem State.setEngine_busy (s : State) (i : Nat) (x : Engine) : (s.setEngine i x).busy = s.busy := rfl
@[simp] theorem State.setEngine_ports (s : State) (i : Nat) (x : Engine) : (s.setEngine i x).ports = s.ports := rfl
@[simp] theorem State.setEngine_threads (s : State) (i : Nat) (x : Engine) : (s.setEngine i x).threads = s.threads := rfl
@[simp] theorem State.setEngine_flights (s : State) (i : Nat) (x : Engine) : (s.setEngine i x).flights = s.flights := rfl
@[simp] theorem State.setEngine_groups (s : State) (i : Nat) (x : Engine) : (s.setEngine i x).groups = s.groups := rfl
@[simp] theorem State.setEngine_sets (s : State) (i : Nat) (x : Engine) : (s.setEngine i x).sets = s.sets := rfl
@[simp] theorem State.setEngine_snaps (s : State) (i : Nat) (x : Engine) : (s.setEngine i x).snaps = s.snaps := rfl
@[simp] theorem State.setEngine_parts (s : State) (i : Nat) (x : Engine) : (s.setEngine i x).parts = s.parts := rfl
@[simp] theorem State.setEngine_placed (s : State) (i : Nat) (x : Engine) : (s.setEngine i x).placed = s.placed := rfl
@[simp] theorem State.setEngine_jobs (s : State) (i : Nat) (x : Engine) : (s.setEngine i x).jobs = s.jobs := rfl
@[simp] theorem State.setEngine_beavers (s : State) (i : Nat) (x : Engine) : (s.setEngine i x).beavers = s.beavers := rfl
@[simp] theorem State.setEngine_turn (s : State) (i : Nat) (x : Engine) : (s.setEngine i x).turn = s.turn := rfl
@[simp] theorem State.setEngine_shards (s : State) (i : Nat) (x : Engine) : (s.setEngine i x).shards = s.shards := rfl
@[simp] theorem State.setEngine_modelKeys (s : State) (i : Nat) (x : Engine) : (s.setEngine i x).modelKeys = s.modelKeys := rfl
@[simp] theorem State.setEngine_shadows (s : State) (i : Nat) (x : Engine) : (s.setEngine i x).shadows = s.shadows := rfl
@[simp] theorem State.setEngine_weak (s : State) (i : Nat) (x : Engine) : (s.setEngine i x).weak = s.weak := rfl
@[simp] theorem State.setEngine_buckets (s : State) (i : Nat) (x : Engine) : (s.setEngine i x).buckets = s.buckets := rfl
@[simp] theorem State.setEngine_bucketAt (s : State) (i : Nat) (x : Engine) : (s.setEngine i x).bucketAt = s.bucketAt := rfl
@[simp] theorem State.setEngine_fns (s : State) (i : Nat) (x : Engine) : (s.setEngine i x).fns = s.fns := rfl
@[simp] theorem State.setEngine_numVfs (s : State) (i : Nat) (x : Engine) : (s.setEngine i x).numVfs = s.numVfs := rfl
@[simp] theorem State.setEngine_accepted (s : State) (i : Nat) (x : Engine) : (s.setEngine i x).accepted = s.accepted := rfl
@[simp] theorem State.setEngine_pba (s : State) (i : Nat) (x : Engine) : (s.setEngine i x).pba = s.pba := rfl
@[simp] theorem State.setEngine_events (s : State) (i : Nat) (x : Engine) : (s.setEngine i x).events = s.events := rfl
@[simp] theorem State.setEngine_traces (s : State) (i : Nat) (x : Engine) : (s.setEngine i x).traces = s.traces := rfl
@[simp] theorem State.setEngine_traceSeq (s : State) (i : Nat) (x : Engine) : (s.setEngine i x).traceSeq = s.traceSeq := rfl
@[simp] theorem State.setEngine_points (s : State) (i : Nat) (x : Engine) : (s.setEngine i x).points = s.points := rfl
@[simp] theorem State.setEngine_twLatch (s : State) (i : Nat) (x : Engine) : (s.setEngine i x).twLatch = s.twLatch := rfl
@[simp] theorem State.setEngine_digests (s : State) (i : Nat) (x : Engine) : (s.setEngine i x).digests = s.digests := rfl
@[simp] theorem State.setEngine_tencs (s : State) (i : Nat) (x : Engine) : (s.setEngine i x).tencs = s.tencs := rfl
@[simp] theorem State.setEngine_totals (s : State) (i : Nat) (x : Engine) : (s.setEngine i x).totals = s.totals := rfl
@[simp] theorem State.setEngine_links (s : State) (i : Nat) (x : Engine) : (s.setEngine i x).links = s.links := rfl
@[simp] theorem State.setEngine_domain (s : State) (i : Nat) (x : Engine) : (s.setEngine i x).domain = s.domain := rfl
@[simp] theorem State.setEngine_offsets (s : State) (i : Nat) (x : Engine) : (s.setEngine i x).offsets = s.offsets := rfl
@[simp] theorem State.setEngine_wakes (s : State) (i : Nat) (x : Engine) : (s.setEngine i x).wakes = s.wakes := rfl
@[simp] theorem State.setEngine_norA (s : State) (i : Nat) (x : Engine) : (s.setEngine i x).norA = s.norA := rfl
@[simp] theorem State.setEngine_norB (s : State) (i : Nat) (x : Engine) : (s.setEngine i x).norB = s.norB := rfl
@[simp] theorem State.setEngine_image (s : State) (i : Nat) (x : Engine) : (s.setEngine i x).image = s.image := rfl
@[simp] theorem State.setEngine_perst (s : State) (i : Nat) (x : Engine) : (s.setEngine i x).perst = s.perst := rfl
@[simp] theorem State.setEngine_wakeAsked (s : State) (i : Nat) (x : Engine) : (s.setEngine i x).wakeAsked = s.wakeAsked := rfl
@[simp] theorem State.setEngine_shutRec (s : State) (i : Nat) (x : Engine) : (s.setEngine i x).shutRec = s.shutRec := rfl
@[simp] theorem State.setEngine_calRec (s : State) (i : Nat) (x : Engine) : (s.setEngine i x).calRec = s.calRec := rfl
@[simp] theorem State.setEngine_capNow (s : State) (i : Nat) (x : Engine) : (s.setEngine i x).capNow = s.capNow := rfl
@[simp] theorem State.setEngine_pgmFault (s : State) (i : Nat) (x : Engine) : (s.setEngine i x).pgmFault = s.pgmFault := rfl
@[simp] theorem State.setEngine_regFails (s : State) (i : Nat) (x : Engine) : (s.setEngine i x).regFails = s.regFails := rfl
@[simp] theorem State.setEngine_regTried (s : State) (i : Nat) (x : Engine) : (s.setEngine i x).regTried = s.regTried := rfl
@[simp] theorem State.setEngine_avs (s : State) (i : Nat) (x : Engine) : (s.setEngine i x).avs = s.avs := rfl
@[simp] theorem State.setEngine_sensors (s : State) (i : Nat) (x : Engine) : (s.setEngine i x).sensors = s.sensors := rfl
@[simp] theorem State.setEngine_medPrev (s : State) (i : Nat) (x : Engine) : (s.setEngine i x).medPrev = s.medPrev := rfl
@[simp] theorem State.setEngine_deadCls (s : State) (i : Nat) (x : Engine) : (s.setEngine i x).deadCls = s.deadCls := rfl
@[simp] theorem State.setEngine_onAt (s : State) (i : Nat) (x : Engine) : (s.setEngine i x).onAt = s.onAt := rfl
@[simp] theorem State.setEngine_onCl (s : State) (i : Nat) (x : Engine) : (s.setEngine i x).onCl = s.onCl := rfl
@[simp] theorem State.setEngine_settMem (s : State) (i : Nat) (x : Engine) : (s.setEngine i x).settMem = s.settMem := rfl
@[simp] theorem State.setEngine_settBuf (s : State) (i : Nat) (x : Engine) : (s.setEngine i x).settBuf = s.settBuf := rfl
@[simp] theorem State.setEngine_settList (s : State) (i : Nat) (x : Engine) : (s.setEngine i x).settList = s.settList := rfl
@[simp] theorem State.setEngine_settQueue (s : State) (i : Nat) (x : Engine) : (s.setEngine i x).settQueue = s.settQueue := rfl
@[simp] theorem State.setEngine_settCommits (s : State) (i : Nat) (x : Engine) : (s.setEngine i x).settCommits = s.settCommits := rfl
@[simp] theorem State.setEngine_settRefreshes (s : State) (i : Nat) (x : Engine) : (s.setEngine i x).settRefreshes = s.settRefreshes := rfl
@[simp] theorem State.setEngine_ringNext (s : State) (i : Nat) (x : Engine) : (s.setEngine i x).ringNext = s.ringNext := rfl
@[simp] theorem State.setEngine_ringSeq (s : State) (i : Nat) (x : Engine) : (s.setEngine i x).ringSeq = s.ringSeq := rfl
@[simp] theorem State.setEngine_lc (s : State) (i : Nat) (x : Engine) : (s.setEngine i x).lc = s.lc := rfl
@[simp] theorem State.setEngine_lcBusy (s : State) (i : Nat) (x : Engine) : (s.setEngine i x).lcBusy = s.lcBusy := rfl
@[simp] theorem State.setEngine_fwTarget (s : State) (i : Nat) (x : Engine) : (s.setEngine i x).fwTarget = s.fwTarget := rfl
@[simp] theorem State.setEngine_signKeys (s : State) (i : Nat) (x : Engine) : (s.setEngine i x).signKeys = s.signKeys := rfl
@[simp] theorem State.setEngine_spot (s : State) (i : Nat) (x : Engine) : (s.setEngine i x).spot = s.spot := rfl
@[simp] theorem State.setEngine_bearAt (s : State) (i : Nat) (x : Engine) : (s.setEngine i x).bearAt = s.bearAt := rfl
@[simp] theorem State.setEngine_wins (s : State) (i : Nat) (x : Engine) : (s.setEngine i x).wins = s.wins := rfl
@[simp] theorem State.setEngine_wrules (s : State) (i : Nat) (x : Engine) : (s.setEngine i x).wrules = s.wrules := rfl
@[simp] theorem State.setEngine_wioDown (s : State) (i : Nat) (x : Engine) : (s.setEngine i x).wioDown = s.wioDown := rfl
@[simp] theorem State.setEngine_base (s : State) (i : Nat) (x : Engine) : (s.setEngine i x).base = s.base := rfl
@[simp] theorem State.setEngine_pllOff (s : State) (i : Nat) (x : Engine) : (s.setEngine i x).pllOff = s.pllOff := rfl
@[simp] theorem State.setEngine_cmLast (s : State) (i : Nat) (x : Engine) : (s.setEngine i x).cmLast = s.cmLast := rfl
@[simp] theorem State.setEngine_clrAt (s : State) (i : Nat) (x : Engine) : (s.setEngine i x).clrAt = s.clrAt := rfl
@[simp] theorem State.setEngine_syncAt (s : State) (i : Nat) (x : Engine) : (s.setEngine i x).syncAt = s.syncAt := rfl
@[simp] theorem State.setEngine_trgAt (s : State) (i : Nat) (x : Engine) : (s.setEngine i x).trgAt = s.trgAt := rfl
@[simp] theorem State.setEngine_snapHeld (s : State) (i : Nat) (x : Engine) : (s.setEngine i x).snapHeld = s.snapHeld := rfl
@[simp] theorem State.setEngine_resets (s : State) (i : Nat) (x : Engine) : (s.setEngine i x).resets = s.resets := rfl
@[simp] theorem State.setEngine_accounts (s : State) (i : Nat) (x : Engine) : (s.setEngine i x).accounts = s.accounts := rfl
@[simp] theorem State.setEngine_refillAt (s : State) (i : Nat) (x : Engine) : (s.setEngine i x).refillAt = s.refillAt := rfl
@[simp] theorem State.setEngine_grants (s : State) (i : Nat) (x : Engine) : (s.setEngine i x).grants = s.grants := rfl
@[simp] theorem State.setEngine_bandMoved (s : State) (i : Nat) (x : Engine) : (s.setEngine i x).bandMoved = s.bandMoved := rfl
@[simp] theorem State.setEngine_thrJudged (s : State) (i : Nat) (x : Engine) : (s.setEngine i x).thrJudged = s.thrJudged := rfl
@[simp] theorem State.setEngine_spareLeft (s : State) (i : Nat) (x : Engine) : (s.setEngine i x).spareLeft = s.spareLeft := rfl
@[simp] theorem State.setEngine_aerLog (s : State) (i : Nat) (x : Engine) : (s.setEngine i x).aerLog = s.aerLog := rfl
@[simp] theorem State.setEngine_loading (s : State) (i : Nat) (x : Engine) : (s.setEngine i x).loading = s.loading := rfl
@[simp] theorem State.setEngine_channels (s : State) (i : Nat) (x : Engine) : (s.setEngine i x).channels = s.channels := rfl
@[simp] theorem State.setEngine_traceLast (s : State) (i : Nat) (x : Engine) : (s.setEngine i x).traceLast = s.traceLast := rfl
@[simp] theorem State.setEngine_counters (s : State) (i : Nat) (x : Engine) : (s.setEngine i x).counters = s.counters := rfl
@[simp] theorem State.setEngine_spotDue (s : State) (i : Nat) (x : Engine) : (s.setEngine i x).spotDue = s.spotDue := rfl
@[simp] theorem State.setEngine_heldRules (s : State) (i : Nat) (x : Engine) : (s.setEngine i x).heldRules = s.heldRules := rfl
@[simp] theorem State.setEngine_outMarks (s : State) (i : Nat) (x : Engine) : (s.setEngine i x).outMarks = s.outMarks := rfl
@[simp] theorem State.setTracker_pending (s : State) (i : Nat) (x : Tracker) : (s.setTracker i x).pending = s.pending := rfl
@[simp] theorem State.setTracker_time (s : State) (i : Nat) (x : Tracker) : (s.setTracker i x).time = s.time := rfl
@[simp] theorem State.setTracker_fresh (s : State) (i : Nat) (x : Tracker) : (s.setTracker i x).fresh = s.fresh := rfl
@[simp] theorem State.setTracker_out (s : State) (i : Nat) (x : Tracker) : (s.setTracker i x).out = s.out := rfl
@[simp] theorem State.setTracker_regs (s : State) (i : Nat) (x : Tracker) : (s.setTracker i x).regs = s.regs := rfl
@[simp] theorem State.setTracker_latches (s : State) (i : Nat) (x : Tracker) : (s.setTracker i x).latches = s.latches := rfl
@[simp] theorem State.setTracker_sram (s : State) (i : Nat) (x : Tracker) : (s.setTracker i x).sram = s.sram := rfl
@[simp] theorem State.setTracker_ecc (s : State) (i : Nat) (x : Tracker) : (s.setTracker i x).ecc = s.ecc := rfl
@[simp] theorem State.setTracker_cmWait (s : State) (i : Nat) (x : Tracker) : (s.setTracker i x).cmWait = s.cmWait := rfl
@[simp] theorem State.setTracker_tokenPool (s : State) (i : Nat) (x : Tracker) : (s.setTracker i x).tokenPool = s.tokenPool := rfl
@[simp] theorem State.setTracker_tokenHeld (s : State) (i : Nat) (x : Tracker) : (s.setTracker i x).tokenHeld = s.tokenHeld := rfl
@[simp] theorem State.setTracker_tokenWait (s : State) (i : Nat) (x : Tracker) : (s.setTracker i x).tokenWait = s.tokenWait := rfl
@[simp] theorem State.setTracker_cells (s : State) (i : Nat) (x : Tracker) : (s.setTracker i x).cells = s.cells := rfl
@[simp] theorem State.setTracker_engines (s : State) (i : Nat) (x : Tracker) : (s.setTracker i x).engines = s.engines := rfl
@[simp] theorem State.setTracker_trims (s : State) (i : Nat) (x : Tracker) : (s.setTracker i x).trims = s.trims := rfl
@[simp] theorem State.setTracker_passes (s : State) (i : Nat) (x : Tracker) : (s.setTracker i x).passes = s.passes := rfl
@[simp] theorem State.setTracker_bandTime (s : State) (i : Nat) (x : Tracker) : (s.setTracker i x).bandTime = s.bandTime := rfl
@[simp] theorem State.setTracker_bandAt (s : State) (i : Nat) (x : Tracker) : (s.setTracker i x).bandAt = s.bandAt := rfl
@[simp] theorem State.setTracker_adderFree (s : State) (i : Nat) (x : Tracker) : (s.setTracker i x).adderFree = s.adderFree := rfl
@[simp] theorem State.setTracker_ocus (s : State) (i : Nat) (x : Tracker) : (s.setTracker i x).ocus = s.ocus := rfl
@[simp] theorem State.setTracker_owls (s : State) (i : Nat) (x : Tracker) : (s.setTracker i x).owls = s.owls := rfl
@[simp] theorem State.setTracker_dac (s : State) (i : Nat) (x : Tracker) : (s.setTracker i x).dac = s.dac := rfl
@[simp] theorem State.setTracker_rings (s : State) (i : Nat) (x : Tracker) : (s.setTracker i x).rings = s.rings := rfl
@[simp] theorem State.setTracker_stations (s : State) (i : Nat) (x : Tracker) : (s.setTracker i x).stations = s.stations := rfl
@[simp] theorem State.setTracker_tiles (s : State) (i : Nat) (x : Tracker) : (s.setTracker i x).tiles = s.tiles := rfl
@[simp] theorem State.setTracker_tmvs (s : State) (i : Nat) (x : Tracker) : (s.setTracker i x).tmvs = s.tmvs := rfl
@[simp] theorem State.setTracker_ctxs (s : State) (i : Nat) (x : Tracker) : (s.setTracker i x).ctxs = s.ctxs := rfl
@[simp] theorem State.setTracker_ingests (s : State) (i : Nat) (x : Tracker) : (s.setTracker i x).ingests = s.ingests := rfl
@[simp] theorem State.setTracker_offers (s : State) (i : Nat) (x : Tracker) : (s.setTracker i x).offers = s.offers := rfl
@[simp] theorem State.setTracker_scrubs (s : State) (i : Nat) (x : Tracker) : (s.setTracker i x).scrubs = s.scrubs := rfl
@[simp] theorem State.setTracker_busy (s : State) (i : Nat) (x : Tracker) : (s.setTracker i x).busy = s.busy := rfl
@[simp] theorem State.setTracker_ports (s : State) (i : Nat) (x : Tracker) : (s.setTracker i x).ports = s.ports := rfl
@[simp] theorem State.setTracker_threads (s : State) (i : Nat) (x : Tracker) : (s.setTracker i x).threads = s.threads := rfl
@[simp] theorem State.setTracker_flights (s : State) (i : Nat) (x : Tracker) : (s.setTracker i x).flights = s.flights := rfl
@[simp] theorem State.setTracker_groups (s : State) (i : Nat) (x : Tracker) : (s.setTracker i x).groups = s.groups := rfl
@[simp] theorem State.setTracker_sets (s : State) (i : Nat) (x : Tracker) : (s.setTracker i x).sets = s.sets := rfl
@[simp] theorem State.setTracker_snaps (s : State) (i : Nat) (x : Tracker) : (s.setTracker i x).snaps = s.snaps := rfl
@[simp] theorem State.setTracker_parts (s : State) (i : Nat) (x : Tracker) : (s.setTracker i x).parts = s.parts := rfl
@[simp] theorem State.setTracker_placed (s : State) (i : Nat) (x : Tracker) : (s.setTracker i x).placed = s.placed := rfl
@[simp] theorem State.setTracker_jobs (s : State) (i : Nat) (x : Tracker) : (s.setTracker i x).jobs = s.jobs := rfl
@[simp] theorem State.setTracker_beavers (s : State) (i : Nat) (x : Tracker) : (s.setTracker i x).beavers = s.beavers := rfl
@[simp] theorem State.setTracker_turn (s : State) (i : Nat) (x : Tracker) : (s.setTracker i x).turn = s.turn := rfl
@[simp] theorem State.setTracker_shards (s : State) (i : Nat) (x : Tracker) : (s.setTracker i x).shards = s.shards := rfl
@[simp] theorem State.setTracker_modelKeys (s : State) (i : Nat) (x : Tracker) : (s.setTracker i x).modelKeys = s.modelKeys := rfl
@[simp] theorem State.setTracker_shadows (s : State) (i : Nat) (x : Tracker) : (s.setTracker i x).shadows = s.shadows := rfl
@[simp] theorem State.setTracker_weak (s : State) (i : Nat) (x : Tracker) : (s.setTracker i x).weak = s.weak := rfl
@[simp] theorem State.setTracker_buckets (s : State) (i : Nat) (x : Tracker) : (s.setTracker i x).buckets = s.buckets := rfl
@[simp] theorem State.setTracker_bucketAt (s : State) (i : Nat) (x : Tracker) : (s.setTracker i x).bucketAt = s.bucketAt := rfl
@[simp] theorem State.setTracker_fns (s : State) (i : Nat) (x : Tracker) : (s.setTracker i x).fns = s.fns := rfl
@[simp] theorem State.setTracker_numVfs (s : State) (i : Nat) (x : Tracker) : (s.setTracker i x).numVfs = s.numVfs := rfl
@[simp] theorem State.setTracker_accepted (s : State) (i : Nat) (x : Tracker) : (s.setTracker i x).accepted = s.accepted := rfl
@[simp] theorem State.setTracker_pba (s : State) (i : Nat) (x : Tracker) : (s.setTracker i x).pba = s.pba := rfl
@[simp] theorem State.setTracker_events (s : State) (i : Nat) (x : Tracker) : (s.setTracker i x).events = s.events := rfl
@[simp] theorem State.setTracker_traces (s : State) (i : Nat) (x : Tracker) : (s.setTracker i x).traces = s.traces := rfl
@[simp] theorem State.setTracker_traceSeq (s : State) (i : Nat) (x : Tracker) : (s.setTracker i x).traceSeq = s.traceSeq := rfl
@[simp] theorem State.setTracker_points (s : State) (i : Nat) (x : Tracker) : (s.setTracker i x).points = s.points := rfl
@[simp] theorem State.setTracker_twLatch (s : State) (i : Nat) (x : Tracker) : (s.setTracker i x).twLatch = s.twLatch := rfl
@[simp] theorem State.setTracker_digests (s : State) (i : Nat) (x : Tracker) : (s.setTracker i x).digests = s.digests := rfl
@[simp] theorem State.setTracker_tencs (s : State) (i : Nat) (x : Tracker) : (s.setTracker i x).tencs = s.tencs := rfl
@[simp] theorem State.setTracker_totals (s : State) (i : Nat) (x : Tracker) : (s.setTracker i x).totals = s.totals := rfl
@[simp] theorem State.setTracker_links (s : State) (i : Nat) (x : Tracker) : (s.setTracker i x).links = s.links := rfl
@[simp] theorem State.setTracker_domain (s : State) (i : Nat) (x : Tracker) : (s.setTracker i x).domain = s.domain := rfl
@[simp] theorem State.setTracker_offsets (s : State) (i : Nat) (x : Tracker) : (s.setTracker i x).offsets = s.offsets := rfl
@[simp] theorem State.setTracker_wakes (s : State) (i : Nat) (x : Tracker) : (s.setTracker i x).wakes = s.wakes := rfl
@[simp] theorem State.setTracker_norA (s : State) (i : Nat) (x : Tracker) : (s.setTracker i x).norA = s.norA := rfl
@[simp] theorem State.setTracker_norB (s : State) (i : Nat) (x : Tracker) : (s.setTracker i x).norB = s.norB := rfl
@[simp] theorem State.setTracker_image (s : State) (i : Nat) (x : Tracker) : (s.setTracker i x).image = s.image := rfl
@[simp] theorem State.setTracker_perst (s : State) (i : Nat) (x : Tracker) : (s.setTracker i x).perst = s.perst := rfl
@[simp] theorem State.setTracker_wakeAsked (s : State) (i : Nat) (x : Tracker) : (s.setTracker i x).wakeAsked = s.wakeAsked := rfl
@[simp] theorem State.setTracker_shutRec (s : State) (i : Nat) (x : Tracker) : (s.setTracker i x).shutRec = s.shutRec := rfl
@[simp] theorem State.setTracker_calRec (s : State) (i : Nat) (x : Tracker) : (s.setTracker i x).calRec = s.calRec := rfl
@[simp] theorem State.setTracker_capNow (s : State) (i : Nat) (x : Tracker) : (s.setTracker i x).capNow = s.capNow := rfl
@[simp] theorem State.setTracker_pgmFault (s : State) (i : Nat) (x : Tracker) : (s.setTracker i x).pgmFault = s.pgmFault := rfl
@[simp] theorem State.setTracker_regFails (s : State) (i : Nat) (x : Tracker) : (s.setTracker i x).regFails = s.regFails := rfl
@[simp] theorem State.setTracker_regTried (s : State) (i : Nat) (x : Tracker) : (s.setTracker i x).regTried = s.regTried := rfl
@[simp] theorem State.setTracker_avs (s : State) (i : Nat) (x : Tracker) : (s.setTracker i x).avs = s.avs := rfl
@[simp] theorem State.setTracker_sensors (s : State) (i : Nat) (x : Tracker) : (s.setTracker i x).sensors = s.sensors := rfl
@[simp] theorem State.setTracker_medPrev (s : State) (i : Nat) (x : Tracker) : (s.setTracker i x).medPrev = s.medPrev := rfl
@[simp] theorem State.setTracker_deadCls (s : State) (i : Nat) (x : Tracker) : (s.setTracker i x).deadCls = s.deadCls := rfl
@[simp] theorem State.setTracker_onAt (s : State) (i : Nat) (x : Tracker) : (s.setTracker i x).onAt = s.onAt := rfl
@[simp] theorem State.setTracker_onCl (s : State) (i : Nat) (x : Tracker) : (s.setTracker i x).onCl = s.onCl := rfl
@[simp] theorem State.setTracker_settMem (s : State) (i : Nat) (x : Tracker) : (s.setTracker i x).settMem = s.settMem := rfl
@[simp] theorem State.setTracker_settBuf (s : State) (i : Nat) (x : Tracker) : (s.setTracker i x).settBuf = s.settBuf := rfl
@[simp] theorem State.setTracker_settList (s : State) (i : Nat) (x : Tracker) : (s.setTracker i x).settList = s.settList := rfl
@[simp] theorem State.setTracker_settQueue (s : State) (i : Nat) (x : Tracker) : (s.setTracker i x).settQueue = s.settQueue := rfl
@[simp] theorem State.setTracker_settCommits (s : State) (i : Nat) (x : Tracker) : (s.setTracker i x).settCommits = s.settCommits := rfl
@[simp] theorem State.setTracker_settRefreshes (s : State) (i : Nat) (x : Tracker) : (s.setTracker i x).settRefreshes = s.settRefreshes := rfl
@[simp] theorem State.setTracker_ringNext (s : State) (i : Nat) (x : Tracker) : (s.setTracker i x).ringNext = s.ringNext := rfl
@[simp] theorem State.setTracker_ringSeq (s : State) (i : Nat) (x : Tracker) : (s.setTracker i x).ringSeq = s.ringSeq := rfl
@[simp] theorem State.setTracker_lc (s : State) (i : Nat) (x : Tracker) : (s.setTracker i x).lc = s.lc := rfl
@[simp] theorem State.setTracker_lcBusy (s : State) (i : Nat) (x : Tracker) : (s.setTracker i x).lcBusy = s.lcBusy := rfl
@[simp] theorem State.setTracker_fwTarget (s : State) (i : Nat) (x : Tracker) : (s.setTracker i x).fwTarget = s.fwTarget := rfl
@[simp] theorem State.setTracker_signKeys (s : State) (i : Nat) (x : Tracker) : (s.setTracker i x).signKeys = s.signKeys := rfl
@[simp] theorem State.setTracker_spot (s : State) (i : Nat) (x : Tracker) : (s.setTracker i x).spot = s.spot := rfl
@[simp] theorem State.setTracker_bearAt (s : State) (i : Nat) (x : Tracker) : (s.setTracker i x).bearAt = s.bearAt := rfl
@[simp] theorem State.setTracker_wins (s : State) (i : Nat) (x : Tracker) : (s.setTracker i x).wins = s.wins := rfl
@[simp] theorem State.setTracker_wrules (s : State) (i : Nat) (x : Tracker) : (s.setTracker i x).wrules = s.wrules := rfl
@[simp] theorem State.setTracker_wioDown (s : State) (i : Nat) (x : Tracker) : (s.setTracker i x).wioDown = s.wioDown := rfl
@[simp] theorem State.setTracker_base (s : State) (i : Nat) (x : Tracker) : (s.setTracker i x).base = s.base := rfl
@[simp] theorem State.setTracker_pllOff (s : State) (i : Nat) (x : Tracker) : (s.setTracker i x).pllOff = s.pllOff := rfl
@[simp] theorem State.setTracker_cmLast (s : State) (i : Nat) (x : Tracker) : (s.setTracker i x).cmLast = s.cmLast := rfl
@[simp] theorem State.setTracker_clrAt (s : State) (i : Nat) (x : Tracker) : (s.setTracker i x).clrAt = s.clrAt := rfl
@[simp] theorem State.setTracker_syncAt (s : State) (i : Nat) (x : Tracker) : (s.setTracker i x).syncAt = s.syncAt := rfl
@[simp] theorem State.setTracker_trgAt (s : State) (i : Nat) (x : Tracker) : (s.setTracker i x).trgAt = s.trgAt := rfl
@[simp] theorem State.setTracker_snapHeld (s : State) (i : Nat) (x : Tracker) : (s.setTracker i x).snapHeld = s.snapHeld := rfl
@[simp] theorem State.setTracker_resets (s : State) (i : Nat) (x : Tracker) : (s.setTracker i x).resets = s.resets := rfl
@[simp] theorem State.setTracker_accounts (s : State) (i : Nat) (x : Tracker) : (s.setTracker i x).accounts = s.accounts := rfl
@[simp] theorem State.setTracker_refillAt (s : State) (i : Nat) (x : Tracker) : (s.setTracker i x).refillAt = s.refillAt := rfl
@[simp] theorem State.setTracker_grants (s : State) (i : Nat) (x : Tracker) : (s.setTracker i x).grants = s.grants := rfl
@[simp] theorem State.setTracker_bandMoved (s : State) (i : Nat) (x : Tracker) : (s.setTracker i x).bandMoved = s.bandMoved := rfl
@[simp] theorem State.setTracker_thrJudged (s : State) (i : Nat) (x : Tracker) : (s.setTracker i x).thrJudged = s.thrJudged := rfl
@[simp] theorem State.setTracker_spareLeft (s : State) (i : Nat) (x : Tracker) : (s.setTracker i x).spareLeft = s.spareLeft := rfl
@[simp] theorem State.setTracker_aerLog (s : State) (i : Nat) (x : Tracker) : (s.setTracker i x).aerLog = s.aerLog := rfl
@[simp] theorem State.setTracker_loading (s : State) (i : Nat) (x : Tracker) : (s.setTracker i x).loading = s.loading := rfl
@[simp] theorem State.setTracker_channels (s : State) (i : Nat) (x : Tracker) : (s.setTracker i x).channels = s.channels := rfl
@[simp] theorem State.setTracker_traceLast (s : State) (i : Nat) (x : Tracker) : (s.setTracker i x).traceLast = s.traceLast := rfl
@[simp] theorem State.setTracker_counters (s : State) (i : Nat) (x : Tracker) : (s.setTracker i x).counters = s.counters := rfl
@[simp] theorem State.setTracker_spotDue (s : State) (i : Nat) (x : Tracker) : (s.setTracker i x).spotDue = s.spotDue := rfl
@[simp] theorem State.setTracker_heldRules (s : State) (i : Nat) (x : Tracker) : (s.setTracker i x).heldRules = s.heldRules := rfl
@[simp] theorem State.setTracker_outMarks (s : State) (i : Nat) (x : Tracker) : (s.setTracker i x).outMarks = s.outMarks := rfl
@[simp] theorem State.setStation_pending (s : State) (i : Nat) (x : Station) : (s.setStation i x).pending = s.pending := rfl
@[simp] theorem State.setStation_time (s : State) (i : Nat) (x : Station) : (s.setStation i x).time = s.time := rfl
@[simp] theorem State.setStation_fresh (s : State) (i : Nat) (x : Station) : (s.setStation i x).fresh = s.fresh := rfl
@[simp] theorem State.setStation_out (s : State) (i : Nat) (x : Station) : (s.setStation i x).out = s.out := rfl
@[simp] theorem State.setStation_regs (s : State) (i : Nat) (x : Station) : (s.setStation i x).regs = s.regs := rfl
@[simp] theorem State.setStation_latches (s : State) (i : Nat) (x : Station) : (s.setStation i x).latches = s.latches := rfl
@[simp] theorem State.setStation_sram (s : State) (i : Nat) (x : Station) : (s.setStation i x).sram = s.sram := rfl
@[simp] theorem State.setStation_ecc (s : State) (i : Nat) (x : Station) : (s.setStation i x).ecc = s.ecc := rfl
@[simp] theorem State.setStation_cmWait (s : State) (i : Nat) (x : Station) : (s.setStation i x).cmWait = s.cmWait := rfl
@[simp] theorem State.setStation_tokenPool (s : State) (i : Nat) (x : Station) : (s.setStation i x).tokenPool = s.tokenPool := rfl
@[simp] theorem State.setStation_tokenHeld (s : State) (i : Nat) (x : Station) : (s.setStation i x).tokenHeld = s.tokenHeld := rfl
@[simp] theorem State.setStation_tokenWait (s : State) (i : Nat) (x : Station) : (s.setStation i x).tokenWait = s.tokenWait := rfl
@[simp] theorem State.setStation_cells (s : State) (i : Nat) (x : Station) : (s.setStation i x).cells = s.cells := rfl
@[simp] theorem State.setStation_engines (s : State) (i : Nat) (x : Station) : (s.setStation i x).engines = s.engines := rfl
@[simp] theorem State.setStation_trackers (s : State) (i : Nat) (x : Station) : (s.setStation i x).trackers = s.trackers := rfl
@[simp] theorem State.setStation_trims (s : State) (i : Nat) (x : Station) : (s.setStation i x).trims = s.trims := rfl
@[simp] theorem State.setStation_passes (s : State) (i : Nat) (x : Station) : (s.setStation i x).passes = s.passes := rfl
@[simp] theorem State.setStation_bandTime (s : State) (i : Nat) (x : Station) : (s.setStation i x).bandTime = s.bandTime := rfl
@[simp] theorem State.setStation_bandAt (s : State) (i : Nat) (x : Station) : (s.setStation i x).bandAt = s.bandAt := rfl
@[simp] theorem State.setStation_adderFree (s : State) (i : Nat) (x : Station) : (s.setStation i x).adderFree = s.adderFree := rfl
@[simp] theorem State.setStation_ocus (s : State) (i : Nat) (x : Station) : (s.setStation i x).ocus = s.ocus := rfl
@[simp] theorem State.setStation_owls (s : State) (i : Nat) (x : Station) : (s.setStation i x).owls = s.owls := rfl
@[simp] theorem State.setStation_dac (s : State) (i : Nat) (x : Station) : (s.setStation i x).dac = s.dac := rfl
@[simp] theorem State.setStation_rings (s : State) (i : Nat) (x : Station) : (s.setStation i x).rings = s.rings := rfl
@[simp] theorem State.setStation_tiles (s : State) (i : Nat) (x : Station) : (s.setStation i x).tiles = s.tiles := rfl
@[simp] theorem State.setStation_tmvs (s : State) (i : Nat) (x : Station) : (s.setStation i x).tmvs = s.tmvs := rfl
@[simp] theorem State.setStation_ctxs (s : State) (i : Nat) (x : Station) : (s.setStation i x).ctxs = s.ctxs := rfl
@[simp] theorem State.setStation_ingests (s : State) (i : Nat) (x : Station) : (s.setStation i x).ingests = s.ingests := rfl
@[simp] theorem State.setStation_offers (s : State) (i : Nat) (x : Station) : (s.setStation i x).offers = s.offers := rfl
@[simp] theorem State.setStation_scrubs (s : State) (i : Nat) (x : Station) : (s.setStation i x).scrubs = s.scrubs := rfl
@[simp] theorem State.setStation_busy (s : State) (i : Nat) (x : Station) : (s.setStation i x).busy = s.busy := rfl
@[simp] theorem State.setStation_ports (s : State) (i : Nat) (x : Station) : (s.setStation i x).ports = s.ports := rfl
@[simp] theorem State.setStation_threads (s : State) (i : Nat) (x : Station) : (s.setStation i x).threads = s.threads := rfl
@[simp] theorem State.setStation_flights (s : State) (i : Nat) (x : Station) : (s.setStation i x).flights = s.flights := rfl
@[simp] theorem State.setStation_groups (s : State) (i : Nat) (x : Station) : (s.setStation i x).groups = s.groups := rfl
@[simp] theorem State.setStation_sets (s : State) (i : Nat) (x : Station) : (s.setStation i x).sets = s.sets := rfl
@[simp] theorem State.setStation_snaps (s : State) (i : Nat) (x : Station) : (s.setStation i x).snaps = s.snaps := rfl
@[simp] theorem State.setStation_parts (s : State) (i : Nat) (x : Station) : (s.setStation i x).parts = s.parts := rfl
@[simp] theorem State.setStation_placed (s : State) (i : Nat) (x : Station) : (s.setStation i x).placed = s.placed := rfl
@[simp] theorem State.setStation_jobs (s : State) (i : Nat) (x : Station) : (s.setStation i x).jobs = s.jobs := rfl
@[simp] theorem State.setStation_beavers (s : State) (i : Nat) (x : Station) : (s.setStation i x).beavers = s.beavers := rfl
@[simp] theorem State.setStation_turn (s : State) (i : Nat) (x : Station) : (s.setStation i x).turn = s.turn := rfl
@[simp] theorem State.setStation_shards (s : State) (i : Nat) (x : Station) : (s.setStation i x).shards = s.shards := rfl
@[simp] theorem State.setStation_modelKeys (s : State) (i : Nat) (x : Station) : (s.setStation i x).modelKeys = s.modelKeys := rfl
@[simp] theorem State.setStation_shadows (s : State) (i : Nat) (x : Station) : (s.setStation i x).shadows = s.shadows := rfl
@[simp] theorem State.setStation_weak (s : State) (i : Nat) (x : Station) : (s.setStation i x).weak = s.weak := rfl
@[simp] theorem State.setStation_buckets (s : State) (i : Nat) (x : Station) : (s.setStation i x).buckets = s.buckets := rfl
@[simp] theorem State.setStation_bucketAt (s : State) (i : Nat) (x : Station) : (s.setStation i x).bucketAt = s.bucketAt := rfl
@[simp] theorem State.setStation_fns (s : State) (i : Nat) (x : Station) : (s.setStation i x).fns = s.fns := rfl
@[simp] theorem State.setStation_numVfs (s : State) (i : Nat) (x : Station) : (s.setStation i x).numVfs = s.numVfs := rfl
@[simp] theorem State.setStation_accepted (s : State) (i : Nat) (x : Station) : (s.setStation i x).accepted = s.accepted := rfl
@[simp] theorem State.setStation_pba (s : State) (i : Nat) (x : Station) : (s.setStation i x).pba = s.pba := rfl
@[simp] theorem State.setStation_events (s : State) (i : Nat) (x : Station) : (s.setStation i x).events = s.events := rfl
@[simp] theorem State.setStation_traces (s : State) (i : Nat) (x : Station) : (s.setStation i x).traces = s.traces := rfl
@[simp] theorem State.setStation_traceSeq (s : State) (i : Nat) (x : Station) : (s.setStation i x).traceSeq = s.traceSeq := rfl
@[simp] theorem State.setStation_points (s : State) (i : Nat) (x : Station) : (s.setStation i x).points = s.points := rfl
@[simp] theorem State.setStation_twLatch (s : State) (i : Nat) (x : Station) : (s.setStation i x).twLatch = s.twLatch := rfl
@[simp] theorem State.setStation_digests (s : State) (i : Nat) (x : Station) : (s.setStation i x).digests = s.digests := rfl
@[simp] theorem State.setStation_tencs (s : State) (i : Nat) (x : Station) : (s.setStation i x).tencs = s.tencs := rfl
@[simp] theorem State.setStation_totals (s : State) (i : Nat) (x : Station) : (s.setStation i x).totals = s.totals := rfl
@[simp] theorem State.setStation_links (s : State) (i : Nat) (x : Station) : (s.setStation i x).links = s.links := rfl
@[simp] theorem State.setStation_domain (s : State) (i : Nat) (x : Station) : (s.setStation i x).domain = s.domain := rfl
@[simp] theorem State.setStation_offsets (s : State) (i : Nat) (x : Station) : (s.setStation i x).offsets = s.offsets := rfl
@[simp] theorem State.setStation_wakes (s : State) (i : Nat) (x : Station) : (s.setStation i x).wakes = s.wakes := rfl
@[simp] theorem State.setStation_norA (s : State) (i : Nat) (x : Station) : (s.setStation i x).norA = s.norA := rfl
@[simp] theorem State.setStation_norB (s : State) (i : Nat) (x : Station) : (s.setStation i x).norB = s.norB := rfl
@[simp] theorem State.setStation_image (s : State) (i : Nat) (x : Station) : (s.setStation i x).image = s.image := rfl
@[simp] theorem State.setStation_perst (s : State) (i : Nat) (x : Station) : (s.setStation i x).perst = s.perst := rfl
@[simp] theorem State.setStation_wakeAsked (s : State) (i : Nat) (x : Station) : (s.setStation i x).wakeAsked = s.wakeAsked := rfl
@[simp] theorem State.setStation_shutRec (s : State) (i : Nat) (x : Station) : (s.setStation i x).shutRec = s.shutRec := rfl
@[simp] theorem State.setStation_calRec (s : State) (i : Nat) (x : Station) : (s.setStation i x).calRec = s.calRec := rfl
@[simp] theorem State.setStation_capNow (s : State) (i : Nat) (x : Station) : (s.setStation i x).capNow = s.capNow := rfl
@[simp] theorem State.setStation_pgmFault (s : State) (i : Nat) (x : Station) : (s.setStation i x).pgmFault = s.pgmFault := rfl
@[simp] theorem State.setStation_regFails (s : State) (i : Nat) (x : Station) : (s.setStation i x).regFails = s.regFails := rfl
@[simp] theorem State.setStation_regTried (s : State) (i : Nat) (x : Station) : (s.setStation i x).regTried = s.regTried := rfl
@[simp] theorem State.setStation_avs (s : State) (i : Nat) (x : Station) : (s.setStation i x).avs = s.avs := rfl
@[simp] theorem State.setStation_sensors (s : State) (i : Nat) (x : Station) : (s.setStation i x).sensors = s.sensors := rfl
@[simp] theorem State.setStation_medPrev (s : State) (i : Nat) (x : Station) : (s.setStation i x).medPrev = s.medPrev := rfl
@[simp] theorem State.setStation_deadCls (s : State) (i : Nat) (x : Station) : (s.setStation i x).deadCls = s.deadCls := rfl
@[simp] theorem State.setStation_onAt (s : State) (i : Nat) (x : Station) : (s.setStation i x).onAt = s.onAt := rfl
@[simp] theorem State.setStation_onCl (s : State) (i : Nat) (x : Station) : (s.setStation i x).onCl = s.onCl := rfl
@[simp] theorem State.setStation_settMem (s : State) (i : Nat) (x : Station) : (s.setStation i x).settMem = s.settMem := rfl
@[simp] theorem State.setStation_settBuf (s : State) (i : Nat) (x : Station) : (s.setStation i x).settBuf = s.settBuf := rfl
@[simp] theorem State.setStation_settList (s : State) (i : Nat) (x : Station) : (s.setStation i x).settList = s.settList := rfl
@[simp] theorem State.setStation_settQueue (s : State) (i : Nat) (x : Station) : (s.setStation i x).settQueue = s.settQueue := rfl
@[simp] theorem State.setStation_settCommits (s : State) (i : Nat) (x : Station) : (s.setStation i x).settCommits = s.settCommits := rfl
@[simp] theorem State.setStation_settRefreshes (s : State) (i : Nat) (x : Station) : (s.setStation i x).settRefreshes = s.settRefreshes := rfl
@[simp] theorem State.setStation_ringNext (s : State) (i : Nat) (x : Station) : (s.setStation i x).ringNext = s.ringNext := rfl
@[simp] theorem State.setStation_ringSeq (s : State) (i : Nat) (x : Station) : (s.setStation i x).ringSeq = s.ringSeq := rfl
@[simp] theorem State.setStation_lc (s : State) (i : Nat) (x : Station) : (s.setStation i x).lc = s.lc := rfl
@[simp] theorem State.setStation_lcBusy (s : State) (i : Nat) (x : Station) : (s.setStation i x).lcBusy = s.lcBusy := rfl
@[simp] theorem State.setStation_fwTarget (s : State) (i : Nat) (x : Station) : (s.setStation i x).fwTarget = s.fwTarget := rfl
@[simp] theorem State.setStation_signKeys (s : State) (i : Nat) (x : Station) : (s.setStation i x).signKeys = s.signKeys := rfl
@[simp] theorem State.setStation_spot (s : State) (i : Nat) (x : Station) : (s.setStation i x).spot = s.spot := rfl
@[simp] theorem State.setStation_bearAt (s : State) (i : Nat) (x : Station) : (s.setStation i x).bearAt = s.bearAt := rfl
@[simp] theorem State.setStation_wins (s : State) (i : Nat) (x : Station) : (s.setStation i x).wins = s.wins := rfl
@[simp] theorem State.setStation_wrules (s : State) (i : Nat) (x : Station) : (s.setStation i x).wrules = s.wrules := rfl
@[simp] theorem State.setStation_wioDown (s : State) (i : Nat) (x : Station) : (s.setStation i x).wioDown = s.wioDown := rfl
@[simp] theorem State.setStation_base (s : State) (i : Nat) (x : Station) : (s.setStation i x).base = s.base := rfl
@[simp] theorem State.setStation_pllOff (s : State) (i : Nat) (x : Station) : (s.setStation i x).pllOff = s.pllOff := rfl
@[simp] theorem State.setStation_cmLast (s : State) (i : Nat) (x : Station) : (s.setStation i x).cmLast = s.cmLast := rfl
@[simp] theorem State.setStation_clrAt (s : State) (i : Nat) (x : Station) : (s.setStation i x).clrAt = s.clrAt := rfl
@[simp] theorem State.setStation_syncAt (s : State) (i : Nat) (x : Station) : (s.setStation i x).syncAt = s.syncAt := rfl
@[simp] theorem State.setStation_trgAt (s : State) (i : Nat) (x : Station) : (s.setStation i x).trgAt = s.trgAt := rfl
@[simp] theorem State.setStation_snapHeld (s : State) (i : Nat) (x : Station) : (s.setStation i x).snapHeld = s.snapHeld := rfl
@[simp] theorem State.setStation_resets (s : State) (i : Nat) (x : Station) : (s.setStation i x).resets = s.resets := rfl
@[simp] theorem State.setStation_accounts (s : State) (i : Nat) (x : Station) : (s.setStation i x).accounts = s.accounts := rfl
@[simp] theorem State.setStation_refillAt (s : State) (i : Nat) (x : Station) : (s.setStation i x).refillAt = s.refillAt := rfl
@[simp] theorem State.setStation_grants (s : State) (i : Nat) (x : Station) : (s.setStation i x).grants = s.grants := rfl
@[simp] theorem State.setStation_bandMoved (s : State) (i : Nat) (x : Station) : (s.setStation i x).bandMoved = s.bandMoved := rfl
@[simp] theorem State.setStation_thrJudged (s : State) (i : Nat) (x : Station) : (s.setStation i x).thrJudged = s.thrJudged := rfl
@[simp] theorem State.setStation_spareLeft (s : State) (i : Nat) (x : Station) : (s.setStation i x).spareLeft = s.spareLeft := rfl
@[simp] theorem State.setStation_aerLog (s : State) (i : Nat) (x : Station) : (s.setStation i x).aerLog = s.aerLog := rfl
@[simp] theorem State.setStation_loading (s : State) (i : Nat) (x : Station) : (s.setStation i x).loading = s.loading := rfl
@[simp] theorem State.setStation_channels (s : State) (i : Nat) (x : Station) : (s.setStation i x).channels = s.channels := rfl
@[simp] theorem State.setStation_traceLast (s : State) (i : Nat) (x : Station) : (s.setStation i x).traceLast = s.traceLast := rfl
@[simp] theorem State.setStation_counters (s : State) (i : Nat) (x : Station) : (s.setStation i x).counters = s.counters := rfl
@[simp] theorem State.setStation_spotDue (s : State) (i : Nat) (x : Station) : (s.setStation i x).spotDue = s.spotDue := rfl
@[simp] theorem State.setStation_heldRules (s : State) (i : Nat) (x : Station) : (s.setStation i x).heldRules = s.heldRules := rfl
@[simp] theorem State.setStation_outMarks (s : State) (i : Nat) (x : Station) : (s.setStation i x).outMarks = s.outMarks := rfl
@[simp] theorem State.setCoreTiles_pending (s : State) (i : Nat) (x : List Tile) : (s.setCoreTiles i x).pending = s.pending := rfl
@[simp] theorem State.setCoreTiles_time (s : State) (i : Nat) (x : List Tile) : (s.setCoreTiles i x).time = s.time := rfl
@[simp] theorem State.setCoreTiles_fresh (s : State) (i : Nat) (x : List Tile) : (s.setCoreTiles i x).fresh = s.fresh := rfl
@[simp] theorem State.setCoreTiles_out (s : State) (i : Nat) (x : List Tile) : (s.setCoreTiles i x).out = s.out := rfl
@[simp] theorem State.setCoreTiles_regs (s : State) (i : Nat) (x : List Tile) : (s.setCoreTiles i x).regs = s.regs := rfl
@[simp] theorem State.setCoreTiles_latches (s : State) (i : Nat) (x : List Tile) : (s.setCoreTiles i x).latches = s.latches := rfl
@[simp] theorem State.setCoreTiles_sram (s : State) (i : Nat) (x : List Tile) : (s.setCoreTiles i x).sram = s.sram := rfl
@[simp] theorem State.setCoreTiles_ecc (s : State) (i : Nat) (x : List Tile) : (s.setCoreTiles i x).ecc = s.ecc := rfl
@[simp] theorem State.setCoreTiles_cmWait (s : State) (i : Nat) (x : List Tile) : (s.setCoreTiles i x).cmWait = s.cmWait := rfl
@[simp] theorem State.setCoreTiles_tokenPool (s : State) (i : Nat) (x : List Tile) : (s.setCoreTiles i x).tokenPool = s.tokenPool := rfl
@[simp] theorem State.setCoreTiles_tokenHeld (s : State) (i : Nat) (x : List Tile) : (s.setCoreTiles i x).tokenHeld = s.tokenHeld := rfl
@[simp] theorem State.setCoreTiles_tokenWait (s : State) (i : Nat) (x : List Tile) : (s.setCoreTiles i x).tokenWait = s.tokenWait := rfl
@[simp] theorem State.setCoreTiles_cells (s : State) (i : Nat) (x : List Tile) : (s.setCoreTiles i x).cells = s.cells := rfl
@[simp] theorem State.setCoreTiles_engines (s : State) (i : Nat) (x : List Tile) : (s.setCoreTiles i x).engines = s.engines := rfl
@[simp] theorem State.setCoreTiles_trackers (s : State) (i : Nat) (x : List Tile) : (s.setCoreTiles i x).trackers = s.trackers := rfl
@[simp] theorem State.setCoreTiles_trims (s : State) (i : Nat) (x : List Tile) : (s.setCoreTiles i x).trims = s.trims := rfl
@[simp] theorem State.setCoreTiles_passes (s : State) (i : Nat) (x : List Tile) : (s.setCoreTiles i x).passes = s.passes := rfl
@[simp] theorem State.setCoreTiles_bandTime (s : State) (i : Nat) (x : List Tile) : (s.setCoreTiles i x).bandTime = s.bandTime := rfl
@[simp] theorem State.setCoreTiles_bandAt (s : State) (i : Nat) (x : List Tile) : (s.setCoreTiles i x).bandAt = s.bandAt := rfl
@[simp] theorem State.setCoreTiles_adderFree (s : State) (i : Nat) (x : List Tile) : (s.setCoreTiles i x).adderFree = s.adderFree := rfl
@[simp] theorem State.setCoreTiles_ocus (s : State) (i : Nat) (x : List Tile) : (s.setCoreTiles i x).ocus = s.ocus := rfl
@[simp] theorem State.setCoreTiles_owls (s : State) (i : Nat) (x : List Tile) : (s.setCoreTiles i x).owls = s.owls := rfl
@[simp] theorem State.setCoreTiles_dac (s : State) (i : Nat) (x : List Tile) : (s.setCoreTiles i x).dac = s.dac := rfl
@[simp] theorem State.setCoreTiles_rings (s : State) (i : Nat) (x : List Tile) : (s.setCoreTiles i x).rings = s.rings := rfl
@[simp] theorem State.setCoreTiles_stations (s : State) (i : Nat) (x : List Tile) : (s.setCoreTiles i x).stations = s.stations := rfl
@[simp] theorem State.setCoreTiles_tmvs (s : State) (i : Nat) (x : List Tile) : (s.setCoreTiles i x).tmvs = s.tmvs := rfl
@[simp] theorem State.setCoreTiles_ctxs (s : State) (i : Nat) (x : List Tile) : (s.setCoreTiles i x).ctxs = s.ctxs := rfl
@[simp] theorem State.setCoreTiles_ingests (s : State) (i : Nat) (x : List Tile) : (s.setCoreTiles i x).ingests = s.ingests := rfl
@[simp] theorem State.setCoreTiles_offers (s : State) (i : Nat) (x : List Tile) : (s.setCoreTiles i x).offers = s.offers := rfl
@[simp] theorem State.setCoreTiles_scrubs (s : State) (i : Nat) (x : List Tile) : (s.setCoreTiles i x).scrubs = s.scrubs := rfl
@[simp] theorem State.setCoreTiles_busy (s : State) (i : Nat) (x : List Tile) : (s.setCoreTiles i x).busy = s.busy := rfl
@[simp] theorem State.setCoreTiles_ports (s : State) (i : Nat) (x : List Tile) : (s.setCoreTiles i x).ports = s.ports := rfl
@[simp] theorem State.setCoreTiles_threads (s : State) (i : Nat) (x : List Tile) : (s.setCoreTiles i x).threads = s.threads := rfl
@[simp] theorem State.setCoreTiles_flights (s : State) (i : Nat) (x : List Tile) : (s.setCoreTiles i x).flights = s.flights := rfl
@[simp] theorem State.setCoreTiles_groups (s : State) (i : Nat) (x : List Tile) : (s.setCoreTiles i x).groups = s.groups := rfl
@[simp] theorem State.setCoreTiles_sets (s : State) (i : Nat) (x : List Tile) : (s.setCoreTiles i x).sets = s.sets := rfl
@[simp] theorem State.setCoreTiles_snaps (s : State) (i : Nat) (x : List Tile) : (s.setCoreTiles i x).snaps = s.snaps := rfl
@[simp] theorem State.setCoreTiles_parts (s : State) (i : Nat) (x : List Tile) : (s.setCoreTiles i x).parts = s.parts := rfl
@[simp] theorem State.setCoreTiles_placed (s : State) (i : Nat) (x : List Tile) : (s.setCoreTiles i x).placed = s.placed := rfl
@[simp] theorem State.setCoreTiles_jobs (s : State) (i : Nat) (x : List Tile) : (s.setCoreTiles i x).jobs = s.jobs := rfl
@[simp] theorem State.setCoreTiles_beavers (s : State) (i : Nat) (x : List Tile) : (s.setCoreTiles i x).beavers = s.beavers := rfl
@[simp] theorem State.setCoreTiles_turn (s : State) (i : Nat) (x : List Tile) : (s.setCoreTiles i x).turn = s.turn := rfl
@[simp] theorem State.setCoreTiles_shards (s : State) (i : Nat) (x : List Tile) : (s.setCoreTiles i x).shards = s.shards := rfl
@[simp] theorem State.setCoreTiles_modelKeys (s : State) (i : Nat) (x : List Tile) : (s.setCoreTiles i x).modelKeys = s.modelKeys := rfl
@[simp] theorem State.setCoreTiles_shadows (s : State) (i : Nat) (x : List Tile) : (s.setCoreTiles i x).shadows = s.shadows := rfl
@[simp] theorem State.setCoreTiles_weak (s : State) (i : Nat) (x : List Tile) : (s.setCoreTiles i x).weak = s.weak := rfl
@[simp] theorem State.setCoreTiles_buckets (s : State) (i : Nat) (x : List Tile) : (s.setCoreTiles i x).buckets = s.buckets := rfl
@[simp] theorem State.setCoreTiles_bucketAt (s : State) (i : Nat) (x : List Tile) : (s.setCoreTiles i x).bucketAt = s.bucketAt := rfl
@[simp] theorem State.setCoreTiles_fns (s : State) (i : Nat) (x : List Tile) : (s.setCoreTiles i x).fns = s.fns := rfl
@[simp] theorem State.setCoreTiles_numVfs (s : State) (i : Nat) (x : List Tile) : (s.setCoreTiles i x).numVfs = s.numVfs := rfl
@[simp] theorem State.setCoreTiles_accepted (s : State) (i : Nat) (x : List Tile) : (s.setCoreTiles i x).accepted = s.accepted := rfl
@[simp] theorem State.setCoreTiles_pba (s : State) (i : Nat) (x : List Tile) : (s.setCoreTiles i x).pba = s.pba := rfl
@[simp] theorem State.setCoreTiles_events (s : State) (i : Nat) (x : List Tile) : (s.setCoreTiles i x).events = s.events := rfl
@[simp] theorem State.setCoreTiles_traces (s : State) (i : Nat) (x : List Tile) : (s.setCoreTiles i x).traces = s.traces := rfl
@[simp] theorem State.setCoreTiles_traceSeq (s : State) (i : Nat) (x : List Tile) : (s.setCoreTiles i x).traceSeq = s.traceSeq := rfl
@[simp] theorem State.setCoreTiles_points (s : State) (i : Nat) (x : List Tile) : (s.setCoreTiles i x).points = s.points := rfl
@[simp] theorem State.setCoreTiles_twLatch (s : State) (i : Nat) (x : List Tile) : (s.setCoreTiles i x).twLatch = s.twLatch := rfl
@[simp] theorem State.setCoreTiles_digests (s : State) (i : Nat) (x : List Tile) : (s.setCoreTiles i x).digests = s.digests := rfl
@[simp] theorem State.setCoreTiles_tencs (s : State) (i : Nat) (x : List Tile) : (s.setCoreTiles i x).tencs = s.tencs := rfl
@[simp] theorem State.setCoreTiles_totals (s : State) (i : Nat) (x : List Tile) : (s.setCoreTiles i x).totals = s.totals := rfl
@[simp] theorem State.setCoreTiles_links (s : State) (i : Nat) (x : List Tile) : (s.setCoreTiles i x).links = s.links := rfl
@[simp] theorem State.setCoreTiles_domain (s : State) (i : Nat) (x : List Tile) : (s.setCoreTiles i x).domain = s.domain := rfl
@[simp] theorem State.setCoreTiles_offsets (s : State) (i : Nat) (x : List Tile) : (s.setCoreTiles i x).offsets = s.offsets := rfl
@[simp] theorem State.setCoreTiles_wakes (s : State) (i : Nat) (x : List Tile) : (s.setCoreTiles i x).wakes = s.wakes := rfl
@[simp] theorem State.setCoreTiles_norA (s : State) (i : Nat) (x : List Tile) : (s.setCoreTiles i x).norA = s.norA := rfl
@[simp] theorem State.setCoreTiles_norB (s : State) (i : Nat) (x : List Tile) : (s.setCoreTiles i x).norB = s.norB := rfl
@[simp] theorem State.setCoreTiles_image (s : State) (i : Nat) (x : List Tile) : (s.setCoreTiles i x).image = s.image := rfl
@[simp] theorem State.setCoreTiles_perst (s : State) (i : Nat) (x : List Tile) : (s.setCoreTiles i x).perst = s.perst := rfl
@[simp] theorem State.setCoreTiles_wakeAsked (s : State) (i : Nat) (x : List Tile) : (s.setCoreTiles i x).wakeAsked = s.wakeAsked := rfl
@[simp] theorem State.setCoreTiles_shutRec (s : State) (i : Nat) (x : List Tile) : (s.setCoreTiles i x).shutRec = s.shutRec := rfl
@[simp] theorem State.setCoreTiles_calRec (s : State) (i : Nat) (x : List Tile) : (s.setCoreTiles i x).calRec = s.calRec := rfl
@[simp] theorem State.setCoreTiles_capNow (s : State) (i : Nat) (x : List Tile) : (s.setCoreTiles i x).capNow = s.capNow := rfl
@[simp] theorem State.setCoreTiles_pgmFault (s : State) (i : Nat) (x : List Tile) : (s.setCoreTiles i x).pgmFault = s.pgmFault := rfl
@[simp] theorem State.setCoreTiles_regFails (s : State) (i : Nat) (x : List Tile) : (s.setCoreTiles i x).regFails = s.regFails := rfl
@[simp] theorem State.setCoreTiles_regTried (s : State) (i : Nat) (x : List Tile) : (s.setCoreTiles i x).regTried = s.regTried := rfl
@[simp] theorem State.setCoreTiles_avs (s : State) (i : Nat) (x : List Tile) : (s.setCoreTiles i x).avs = s.avs := rfl
@[simp] theorem State.setCoreTiles_sensors (s : State) (i : Nat) (x : List Tile) : (s.setCoreTiles i x).sensors = s.sensors := rfl
@[simp] theorem State.setCoreTiles_medPrev (s : State) (i : Nat) (x : List Tile) : (s.setCoreTiles i x).medPrev = s.medPrev := rfl
@[simp] theorem State.setCoreTiles_deadCls (s : State) (i : Nat) (x : List Tile) : (s.setCoreTiles i x).deadCls = s.deadCls := rfl
@[simp] theorem State.setCoreTiles_onAt (s : State) (i : Nat) (x : List Tile) : (s.setCoreTiles i x).onAt = s.onAt := rfl
@[simp] theorem State.setCoreTiles_onCl (s : State) (i : Nat) (x : List Tile) : (s.setCoreTiles i x).onCl = s.onCl := rfl
@[simp] theorem State.setCoreTiles_settMem (s : State) (i : Nat) (x : List Tile) : (s.setCoreTiles i x).settMem = s.settMem := rfl
@[simp] theorem State.setCoreTiles_settBuf (s : State) (i : Nat) (x : List Tile) : (s.setCoreTiles i x).settBuf = s.settBuf := rfl
@[simp] theorem State.setCoreTiles_settList (s : State) (i : Nat) (x : List Tile) : (s.setCoreTiles i x).settList = s.settList := rfl
@[simp] theorem State.setCoreTiles_settQueue (s : State) (i : Nat) (x : List Tile) : (s.setCoreTiles i x).settQueue = s.settQueue := rfl
@[simp] theorem State.setCoreTiles_settCommits (s : State) (i : Nat) (x : List Tile) : (s.setCoreTiles i x).settCommits = s.settCommits := rfl
@[simp] theorem State.setCoreTiles_settRefreshes (s : State) (i : Nat) (x : List Tile) : (s.setCoreTiles i x).settRefreshes = s.settRefreshes := rfl
@[simp] theorem State.setCoreTiles_ringNext (s : State) (i : Nat) (x : List Tile) : (s.setCoreTiles i x).ringNext = s.ringNext := rfl
@[simp] theorem State.setCoreTiles_ringSeq (s : State) (i : Nat) (x : List Tile) : (s.setCoreTiles i x).ringSeq = s.ringSeq := rfl
@[simp] theorem State.setCoreTiles_lc (s : State) (i : Nat) (x : List Tile) : (s.setCoreTiles i x).lc = s.lc := rfl
@[simp] theorem State.setCoreTiles_lcBusy (s : State) (i : Nat) (x : List Tile) : (s.setCoreTiles i x).lcBusy = s.lcBusy := rfl
@[simp] theorem State.setCoreTiles_fwTarget (s : State) (i : Nat) (x : List Tile) : (s.setCoreTiles i x).fwTarget = s.fwTarget := rfl
@[simp] theorem State.setCoreTiles_signKeys (s : State) (i : Nat) (x : List Tile) : (s.setCoreTiles i x).signKeys = s.signKeys := rfl
@[simp] theorem State.setCoreTiles_spot (s : State) (i : Nat) (x : List Tile) : (s.setCoreTiles i x).spot = s.spot := rfl
@[simp] theorem State.setCoreTiles_bearAt (s : State) (i : Nat) (x : List Tile) : (s.setCoreTiles i x).bearAt = s.bearAt := rfl
@[simp] theorem State.setCoreTiles_wins (s : State) (i : Nat) (x : List Tile) : (s.setCoreTiles i x).wins = s.wins := rfl
@[simp] theorem State.setCoreTiles_wrules (s : State) (i : Nat) (x : List Tile) : (s.setCoreTiles i x).wrules = s.wrules := rfl
@[simp] theorem State.setCoreTiles_wioDown (s : State) (i : Nat) (x : List Tile) : (s.setCoreTiles i x).wioDown = s.wioDown := rfl
@[simp] theorem State.setCoreTiles_base (s : State) (i : Nat) (x : List Tile) : (s.setCoreTiles i x).base = s.base := rfl
@[simp] theorem State.setCoreTiles_pllOff (s : State) (i : Nat) (x : List Tile) : (s.setCoreTiles i x).pllOff = s.pllOff := rfl
@[simp] theorem State.setCoreTiles_cmLast (s : State) (i : Nat) (x : List Tile) : (s.setCoreTiles i x).cmLast = s.cmLast := rfl
@[simp] theorem State.setCoreTiles_clrAt (s : State) (i : Nat) (x : List Tile) : (s.setCoreTiles i x).clrAt = s.clrAt := rfl
@[simp] theorem State.setCoreTiles_syncAt (s : State) (i : Nat) (x : List Tile) : (s.setCoreTiles i x).syncAt = s.syncAt := rfl
@[simp] theorem State.setCoreTiles_trgAt (s : State) (i : Nat) (x : List Tile) : (s.setCoreTiles i x).trgAt = s.trgAt := rfl
@[simp] theorem State.setCoreTiles_snapHeld (s : State) (i : Nat) (x : List Tile) : (s.setCoreTiles i x).snapHeld = s.snapHeld := rfl
@[simp] theorem State.setCoreTiles_resets (s : State) (i : Nat) (x : List Tile) : (s.setCoreTiles i x).resets = s.resets := rfl
@[simp] theorem State.setCoreTiles_accounts (s : State) (i : Nat) (x : List Tile) : (s.setCoreTiles i x).accounts = s.accounts := rfl
@[simp] theorem State.setCoreTiles_refillAt (s : State) (i : Nat) (x : List Tile) : (s.setCoreTiles i x).refillAt = s.refillAt := rfl
@[simp] theorem State.setCoreTiles_grants (s : State) (i : Nat) (x : List Tile) : (s.setCoreTiles i x).grants = s.grants := rfl
@[simp] theorem State.setCoreTiles_bandMoved (s : State) (i : Nat) (x : List Tile) : (s.setCoreTiles i x).bandMoved = s.bandMoved := rfl
@[simp] theorem State.setCoreTiles_thrJudged (s : State) (i : Nat) (x : List Tile) : (s.setCoreTiles i x).thrJudged = s.thrJudged := rfl
@[simp] theorem State.setCoreTiles_spareLeft (s : State) (i : Nat) (x : List Tile) : (s.setCoreTiles i x).spareLeft = s.spareLeft := rfl
@[simp] theorem State.setCoreTiles_aerLog (s : State) (i : Nat) (x : List Tile) : (s.setCoreTiles i x).aerLog = s.aerLog := rfl
@[simp] theorem State.setCoreTiles_loading (s : State) (i : Nat) (x : List Tile) : (s.setCoreTiles i x).loading = s.loading := rfl
@[simp] theorem State.setCoreTiles_channels (s : State) (i : Nat) (x : List Tile) : (s.setCoreTiles i x).channels = s.channels := rfl
@[simp] theorem State.setCoreTiles_traceLast (s : State) (i : Nat) (x : List Tile) : (s.setCoreTiles i x).traceLast = s.traceLast := rfl
@[simp] theorem State.setCoreTiles_counters (s : State) (i : Nat) (x : List Tile) : (s.setCoreTiles i x).counters = s.counters := rfl
@[simp] theorem State.setCoreTiles_spotDue (s : State) (i : Nat) (x : List Tile) : (s.setCoreTiles i x).spotDue = s.spotDue := rfl
@[simp] theorem State.setCoreTiles_heldRules (s : State) (i : Nat) (x : List Tile) : (s.setCoreTiles i x).heldRules = s.heldRules := rfl
@[simp] theorem State.setCoreTiles_outMarks (s : State) (i : Nat) (x : List Tile) : (s.setCoreTiles i x).outMarks = s.outMarks := rfl
@[simp] theorem State.setTmv_pending (s : State) (i : Nat) (x : Tmv) : (s.setTmv i x).pending = s.pending := rfl
@[simp] theorem State.setTmv_time (s : State) (i : Nat) (x : Tmv) : (s.setTmv i x).time = s.time := rfl
@[simp] theorem State.setTmv_fresh (s : State) (i : Nat) (x : Tmv) : (s.setTmv i x).fresh = s.fresh := rfl
@[simp] theorem State.setTmv_out (s : State) (i : Nat) (x : Tmv) : (s.setTmv i x).out = s.out := rfl
@[simp] theorem State.setTmv_regs (s : State) (i : Nat) (x : Tmv) : (s.setTmv i x).regs = s.regs := rfl
@[simp] theorem State.setTmv_latches (s : State) (i : Nat) (x : Tmv) : (s.setTmv i x).latches = s.latches := rfl
@[simp] theorem State.setTmv_sram (s : State) (i : Nat) (x : Tmv) : (s.setTmv i x).sram = s.sram := rfl
@[simp] theorem State.setTmv_ecc (s : State) (i : Nat) (x : Tmv) : (s.setTmv i x).ecc = s.ecc := rfl
@[simp] theorem State.setTmv_cmWait (s : State) (i : Nat) (x : Tmv) : (s.setTmv i x).cmWait = s.cmWait := rfl
@[simp] theorem State.setTmv_tokenPool (s : State) (i : Nat) (x : Tmv) : (s.setTmv i x).tokenPool = s.tokenPool := rfl
@[simp] theorem State.setTmv_tokenHeld (s : State) (i : Nat) (x : Tmv) : (s.setTmv i x).tokenHeld = s.tokenHeld := rfl
@[simp] theorem State.setTmv_tokenWait (s : State) (i : Nat) (x : Tmv) : (s.setTmv i x).tokenWait = s.tokenWait := rfl
@[simp] theorem State.setTmv_cells (s : State) (i : Nat) (x : Tmv) : (s.setTmv i x).cells = s.cells := rfl
@[simp] theorem State.setTmv_engines (s : State) (i : Nat) (x : Tmv) : (s.setTmv i x).engines = s.engines := rfl
@[simp] theorem State.setTmv_trackers (s : State) (i : Nat) (x : Tmv) : (s.setTmv i x).trackers = s.trackers := rfl
@[simp] theorem State.setTmv_trims (s : State) (i : Nat) (x : Tmv) : (s.setTmv i x).trims = s.trims := rfl
@[simp] theorem State.setTmv_passes (s : State) (i : Nat) (x : Tmv) : (s.setTmv i x).passes = s.passes := rfl
@[simp] theorem State.setTmv_bandTime (s : State) (i : Nat) (x : Tmv) : (s.setTmv i x).bandTime = s.bandTime := rfl
@[simp] theorem State.setTmv_bandAt (s : State) (i : Nat) (x : Tmv) : (s.setTmv i x).bandAt = s.bandAt := rfl
@[simp] theorem State.setTmv_adderFree (s : State) (i : Nat) (x : Tmv) : (s.setTmv i x).adderFree = s.adderFree := rfl
@[simp] theorem State.setTmv_ocus (s : State) (i : Nat) (x : Tmv) : (s.setTmv i x).ocus = s.ocus := rfl
@[simp] theorem State.setTmv_owls (s : State) (i : Nat) (x : Tmv) : (s.setTmv i x).owls = s.owls := rfl
@[simp] theorem State.setTmv_dac (s : State) (i : Nat) (x : Tmv) : (s.setTmv i x).dac = s.dac := rfl
@[simp] theorem State.setTmv_rings (s : State) (i : Nat) (x : Tmv) : (s.setTmv i x).rings = s.rings := rfl
@[simp] theorem State.setTmv_stations (s : State) (i : Nat) (x : Tmv) : (s.setTmv i x).stations = s.stations := rfl
@[simp] theorem State.setTmv_tiles (s : State) (i : Nat) (x : Tmv) : (s.setTmv i x).tiles = s.tiles := rfl
@[simp] theorem State.setTmv_ctxs (s : State) (i : Nat) (x : Tmv) : (s.setTmv i x).ctxs = s.ctxs := rfl
@[simp] theorem State.setTmv_ingests (s : State) (i : Nat) (x : Tmv) : (s.setTmv i x).ingests = s.ingests := rfl
@[simp] theorem State.setTmv_offers (s : State) (i : Nat) (x : Tmv) : (s.setTmv i x).offers = s.offers := rfl
@[simp] theorem State.setTmv_scrubs (s : State) (i : Nat) (x : Tmv) : (s.setTmv i x).scrubs = s.scrubs := rfl
@[simp] theorem State.setTmv_busy (s : State) (i : Nat) (x : Tmv) : (s.setTmv i x).busy = s.busy := rfl
@[simp] theorem State.setTmv_ports (s : State) (i : Nat) (x : Tmv) : (s.setTmv i x).ports = s.ports := rfl
@[simp] theorem State.setTmv_threads (s : State) (i : Nat) (x : Tmv) : (s.setTmv i x).threads = s.threads := rfl
@[simp] theorem State.setTmv_flights (s : State) (i : Nat) (x : Tmv) : (s.setTmv i x).flights = s.flights := rfl
@[simp] theorem State.setTmv_groups (s : State) (i : Nat) (x : Tmv) : (s.setTmv i x).groups = s.groups := rfl
@[simp] theorem State.setTmv_sets (s : State) (i : Nat) (x : Tmv) : (s.setTmv i x).sets = s.sets := rfl
@[simp] theorem State.setTmv_snaps (s : State) (i : Nat) (x : Tmv) : (s.setTmv i x).snaps = s.snaps := rfl
@[simp] theorem State.setTmv_parts (s : State) (i : Nat) (x : Tmv) : (s.setTmv i x).parts = s.parts := rfl
@[simp] theorem State.setTmv_placed (s : State) (i : Nat) (x : Tmv) : (s.setTmv i x).placed = s.placed := rfl
@[simp] theorem State.setTmv_jobs (s : State) (i : Nat) (x : Tmv) : (s.setTmv i x).jobs = s.jobs := rfl
@[simp] theorem State.setTmv_beavers (s : State) (i : Nat) (x : Tmv) : (s.setTmv i x).beavers = s.beavers := rfl
@[simp] theorem State.setTmv_turn (s : State) (i : Nat) (x : Tmv) : (s.setTmv i x).turn = s.turn := rfl
@[simp] theorem State.setTmv_shards (s : State) (i : Nat) (x : Tmv) : (s.setTmv i x).shards = s.shards := rfl
@[simp] theorem State.setTmv_modelKeys (s : State) (i : Nat) (x : Tmv) : (s.setTmv i x).modelKeys = s.modelKeys := rfl
@[simp] theorem State.setTmv_shadows (s : State) (i : Nat) (x : Tmv) : (s.setTmv i x).shadows = s.shadows := rfl
@[simp] theorem State.setTmv_weak (s : State) (i : Nat) (x : Tmv) : (s.setTmv i x).weak = s.weak := rfl
@[simp] theorem State.setTmv_buckets (s : State) (i : Nat) (x : Tmv) : (s.setTmv i x).buckets = s.buckets := rfl
@[simp] theorem State.setTmv_bucketAt (s : State) (i : Nat) (x : Tmv) : (s.setTmv i x).bucketAt = s.bucketAt := rfl
@[simp] theorem State.setTmv_fns (s : State) (i : Nat) (x : Tmv) : (s.setTmv i x).fns = s.fns := rfl
@[simp] theorem State.setTmv_numVfs (s : State) (i : Nat) (x : Tmv) : (s.setTmv i x).numVfs = s.numVfs := rfl
@[simp] theorem State.setTmv_accepted (s : State) (i : Nat) (x : Tmv) : (s.setTmv i x).accepted = s.accepted := rfl
@[simp] theorem State.setTmv_pba (s : State) (i : Nat) (x : Tmv) : (s.setTmv i x).pba = s.pba := rfl
@[simp] theorem State.setTmv_events (s : State) (i : Nat) (x : Tmv) : (s.setTmv i x).events = s.events := rfl
@[simp] theorem State.setTmv_traces (s : State) (i : Nat) (x : Tmv) : (s.setTmv i x).traces = s.traces := rfl
@[simp] theorem State.setTmv_traceSeq (s : State) (i : Nat) (x : Tmv) : (s.setTmv i x).traceSeq = s.traceSeq := rfl
@[simp] theorem State.setTmv_points (s : State) (i : Nat) (x : Tmv) : (s.setTmv i x).points = s.points := rfl
@[simp] theorem State.setTmv_twLatch (s : State) (i : Nat) (x : Tmv) : (s.setTmv i x).twLatch = s.twLatch := rfl
@[simp] theorem State.setTmv_digests (s : State) (i : Nat) (x : Tmv) : (s.setTmv i x).digests = s.digests := rfl
@[simp] theorem State.setTmv_tencs (s : State) (i : Nat) (x : Tmv) : (s.setTmv i x).tencs = s.tencs := rfl
@[simp] theorem State.setTmv_totals (s : State) (i : Nat) (x : Tmv) : (s.setTmv i x).totals = s.totals := rfl
@[simp] theorem State.setTmv_links (s : State) (i : Nat) (x : Tmv) : (s.setTmv i x).links = s.links := rfl
@[simp] theorem State.setTmv_domain (s : State) (i : Nat) (x : Tmv) : (s.setTmv i x).domain = s.domain := rfl
@[simp] theorem State.setTmv_offsets (s : State) (i : Nat) (x : Tmv) : (s.setTmv i x).offsets = s.offsets := rfl
@[simp] theorem State.setTmv_wakes (s : State) (i : Nat) (x : Tmv) : (s.setTmv i x).wakes = s.wakes := rfl
@[simp] theorem State.setTmv_norA (s : State) (i : Nat) (x : Tmv) : (s.setTmv i x).norA = s.norA := rfl
@[simp] theorem State.setTmv_norB (s : State) (i : Nat) (x : Tmv) : (s.setTmv i x).norB = s.norB := rfl
@[simp] theorem State.setTmv_image (s : State) (i : Nat) (x : Tmv) : (s.setTmv i x).image = s.image := rfl
@[simp] theorem State.setTmv_perst (s : State) (i : Nat) (x : Tmv) : (s.setTmv i x).perst = s.perst := rfl
@[simp] theorem State.setTmv_wakeAsked (s : State) (i : Nat) (x : Tmv) : (s.setTmv i x).wakeAsked = s.wakeAsked := rfl
@[simp] theorem State.setTmv_shutRec (s : State) (i : Nat) (x : Tmv) : (s.setTmv i x).shutRec = s.shutRec := rfl
@[simp] theorem State.setTmv_calRec (s : State) (i : Nat) (x : Tmv) : (s.setTmv i x).calRec = s.calRec := rfl
@[simp] theorem State.setTmv_capNow (s : State) (i : Nat) (x : Tmv) : (s.setTmv i x).capNow = s.capNow := rfl
@[simp] theorem State.setTmv_pgmFault (s : State) (i : Nat) (x : Tmv) : (s.setTmv i x).pgmFault = s.pgmFault := rfl
@[simp] theorem State.setTmv_regFails (s : State) (i : Nat) (x : Tmv) : (s.setTmv i x).regFails = s.regFails := rfl
@[simp] theorem State.setTmv_regTried (s : State) (i : Nat) (x : Tmv) : (s.setTmv i x).regTried = s.regTried := rfl
@[simp] theorem State.setTmv_avs (s : State) (i : Nat) (x : Tmv) : (s.setTmv i x).avs = s.avs := rfl
@[simp] theorem State.setTmv_sensors (s : State) (i : Nat) (x : Tmv) : (s.setTmv i x).sensors = s.sensors := rfl
@[simp] theorem State.setTmv_medPrev (s : State) (i : Nat) (x : Tmv) : (s.setTmv i x).medPrev = s.medPrev := rfl
@[simp] theorem State.setTmv_deadCls (s : State) (i : Nat) (x : Tmv) : (s.setTmv i x).deadCls = s.deadCls := rfl
@[simp] theorem State.setTmv_onAt (s : State) (i : Nat) (x : Tmv) : (s.setTmv i x).onAt = s.onAt := rfl
@[simp] theorem State.setTmv_onCl (s : State) (i : Nat) (x : Tmv) : (s.setTmv i x).onCl = s.onCl := rfl
@[simp] theorem State.setTmv_settMem (s : State) (i : Nat) (x : Tmv) : (s.setTmv i x).settMem = s.settMem := rfl
@[simp] theorem State.setTmv_settBuf (s : State) (i : Nat) (x : Tmv) : (s.setTmv i x).settBuf = s.settBuf := rfl
@[simp] theorem State.setTmv_settList (s : State) (i : Nat) (x : Tmv) : (s.setTmv i x).settList = s.settList := rfl
@[simp] theorem State.setTmv_settQueue (s : State) (i : Nat) (x : Tmv) : (s.setTmv i x).settQueue = s.settQueue := rfl
@[simp] theorem State.setTmv_settCommits (s : State) (i : Nat) (x : Tmv) : (s.setTmv i x).settCommits = s.settCommits := rfl
@[simp] theorem State.setTmv_settRefreshes (s : State) (i : Nat) (x : Tmv) : (s.setTmv i x).settRefreshes = s.settRefreshes := rfl
@[simp] theorem State.setTmv_ringNext (s : State) (i : Nat) (x : Tmv) : (s.setTmv i x).ringNext = s.ringNext := rfl
@[simp] theorem State.setTmv_ringSeq (s : State) (i : Nat) (x : Tmv) : (s.setTmv i x).ringSeq = s.ringSeq := rfl
@[simp] theorem State.setTmv_lc (s : State) (i : Nat) (x : Tmv) : (s.setTmv i x).lc = s.lc := rfl
@[simp] theorem State.setTmv_lcBusy (s : State) (i : Nat) (x : Tmv) : (s.setTmv i x).lcBusy = s.lcBusy := rfl
@[simp] theorem State.setTmv_fwTarget (s : State) (i : Nat) (x : Tmv) : (s.setTmv i x).fwTarget = s.fwTarget := rfl
@[simp] theorem State.setTmv_signKeys (s : State) (i : Nat) (x : Tmv) : (s.setTmv i x).signKeys = s.signKeys := rfl
@[simp] theorem State.setTmv_spot (s : State) (i : Nat) (x : Tmv) : (s.setTmv i x).spot = s.spot := rfl
@[simp] theorem State.setTmv_bearAt (s : State) (i : Nat) (x : Tmv) : (s.setTmv i x).bearAt = s.bearAt := rfl
@[simp] theorem State.setTmv_wins (s : State) (i : Nat) (x : Tmv) : (s.setTmv i x).wins = s.wins := rfl
@[simp] theorem State.setTmv_wrules (s : State) (i : Nat) (x : Tmv) : (s.setTmv i x).wrules = s.wrules := rfl
@[simp] theorem State.setTmv_wioDown (s : State) (i : Nat) (x : Tmv) : (s.setTmv i x).wioDown = s.wioDown := rfl
@[simp] theorem State.setTmv_base (s : State) (i : Nat) (x : Tmv) : (s.setTmv i x).base = s.base := rfl
@[simp] theorem State.setTmv_pllOff (s : State) (i : Nat) (x : Tmv) : (s.setTmv i x).pllOff = s.pllOff := rfl
@[simp] theorem State.setTmv_cmLast (s : State) (i : Nat) (x : Tmv) : (s.setTmv i x).cmLast = s.cmLast := rfl
@[simp] theorem State.setTmv_clrAt (s : State) (i : Nat) (x : Tmv) : (s.setTmv i x).clrAt = s.clrAt := rfl
@[simp] theorem State.setTmv_syncAt (s : State) (i : Nat) (x : Tmv) : (s.setTmv i x).syncAt = s.syncAt := rfl
@[simp] theorem State.setTmv_trgAt (s : State) (i : Nat) (x : Tmv) : (s.setTmv i x).trgAt = s.trgAt := rfl
@[simp] theorem State.setTmv_snapHeld (s : State) (i : Nat) (x : Tmv) : (s.setTmv i x).snapHeld = s.snapHeld := rfl
@[simp] theorem State.setTmv_resets (s : State) (i : Nat) (x : Tmv) : (s.setTmv i x).resets = s.resets := rfl
@[simp] theorem State.setTmv_accounts (s : State) (i : Nat) (x : Tmv) : (s.setTmv i x).accounts = s.accounts := rfl
@[simp] theorem State.setTmv_refillAt (s : State) (i : Nat) (x : Tmv) : (s.setTmv i x).refillAt = s.refillAt := rfl
@[simp] theorem State.setTmv_grants (s : State) (i : Nat) (x : Tmv) : (s.setTmv i x).grants = s.grants := rfl
@[simp] theorem State.setTmv_bandMoved (s : State) (i : Nat) (x : Tmv) : (s.setTmv i x).bandMoved = s.bandMoved := rfl
@[simp] theorem State.setTmv_thrJudged (s : State) (i : Nat) (x : Tmv) : (s.setTmv i x).thrJudged = s.thrJudged := rfl
@[simp] theorem State.setTmv_spareLeft (s : State) (i : Nat) (x : Tmv) : (s.setTmv i x).spareLeft = s.spareLeft := rfl
@[simp] theorem State.setTmv_aerLog (s : State) (i : Nat) (x : Tmv) : (s.setTmv i x).aerLog = s.aerLog := rfl
@[simp] theorem State.setTmv_loading (s : State) (i : Nat) (x : Tmv) : (s.setTmv i x).loading = s.loading := rfl
@[simp] theorem State.setTmv_channels (s : State) (i : Nat) (x : Tmv) : (s.setTmv i x).channels = s.channels := rfl
@[simp] theorem State.setTmv_traceLast (s : State) (i : Nat) (x : Tmv) : (s.setTmv i x).traceLast = s.traceLast := rfl
@[simp] theorem State.setTmv_counters (s : State) (i : Nat) (x : Tmv) : (s.setTmv i x).counters = s.counters := rfl
@[simp] theorem State.setTmv_spotDue (s : State) (i : Nat) (x : Tmv) : (s.setTmv i x).spotDue = s.spotDue := rfl
@[simp] theorem State.setTmv_heldRules (s : State) (i : Nat) (x : Tmv) : (s.setTmv i x).heldRules = s.heldRules := rfl
@[simp] theorem State.setTmv_outMarks (s : State) (i : Nat) (x : Tmv) : (s.setTmv i x).outMarks = s.outMarks := rfl
@[simp] theorem State.setCtx_pending (s : State) (i : Nat) (x : Context) : (s.setCtx i x).pending = s.pending := rfl
@[simp] theorem State.setCtx_time (s : State) (i : Nat) (x : Context) : (s.setCtx i x).time = s.time := rfl
@[simp] theorem State.setCtx_fresh (s : State) (i : Nat) (x : Context) : (s.setCtx i x).fresh = s.fresh := rfl
@[simp] theorem State.setCtx_out (s : State) (i : Nat) (x : Context) : (s.setCtx i x).out = s.out := rfl
@[simp] theorem State.setCtx_regs (s : State) (i : Nat) (x : Context) : (s.setCtx i x).regs = s.regs := rfl
@[simp] theorem State.setCtx_latches (s : State) (i : Nat) (x : Context) : (s.setCtx i x).latches = s.latches := rfl
@[simp] theorem State.setCtx_sram (s : State) (i : Nat) (x : Context) : (s.setCtx i x).sram = s.sram := rfl
@[simp] theorem State.setCtx_ecc (s : State) (i : Nat) (x : Context) : (s.setCtx i x).ecc = s.ecc := rfl
@[simp] theorem State.setCtx_cmWait (s : State) (i : Nat) (x : Context) : (s.setCtx i x).cmWait = s.cmWait := rfl
@[simp] theorem State.setCtx_tokenPool (s : State) (i : Nat) (x : Context) : (s.setCtx i x).tokenPool = s.tokenPool := rfl
@[simp] theorem State.setCtx_tokenHeld (s : State) (i : Nat) (x : Context) : (s.setCtx i x).tokenHeld = s.tokenHeld := rfl
@[simp] theorem State.setCtx_tokenWait (s : State) (i : Nat) (x : Context) : (s.setCtx i x).tokenWait = s.tokenWait := rfl
@[simp] theorem State.setCtx_cells (s : State) (i : Nat) (x : Context) : (s.setCtx i x).cells = s.cells := rfl
@[simp] theorem State.setCtx_engines (s : State) (i : Nat) (x : Context) : (s.setCtx i x).engines = s.engines := rfl
@[simp] theorem State.setCtx_trackers (s : State) (i : Nat) (x : Context) : (s.setCtx i x).trackers = s.trackers := rfl
@[simp] theorem State.setCtx_trims (s : State) (i : Nat) (x : Context) : (s.setCtx i x).trims = s.trims := rfl
@[simp] theorem State.setCtx_passes (s : State) (i : Nat) (x : Context) : (s.setCtx i x).passes = s.passes := rfl
@[simp] theorem State.setCtx_bandTime (s : State) (i : Nat) (x : Context) : (s.setCtx i x).bandTime = s.bandTime := rfl
@[simp] theorem State.setCtx_bandAt (s : State) (i : Nat) (x : Context) : (s.setCtx i x).bandAt = s.bandAt := rfl
@[simp] theorem State.setCtx_adderFree (s : State) (i : Nat) (x : Context) : (s.setCtx i x).adderFree = s.adderFree := rfl
@[simp] theorem State.setCtx_ocus (s : State) (i : Nat) (x : Context) : (s.setCtx i x).ocus = s.ocus := rfl
@[simp] theorem State.setCtx_owls (s : State) (i : Nat) (x : Context) : (s.setCtx i x).owls = s.owls := rfl
@[simp] theorem State.setCtx_dac (s : State) (i : Nat) (x : Context) : (s.setCtx i x).dac = s.dac := rfl
@[simp] theorem State.setCtx_rings (s : State) (i : Nat) (x : Context) : (s.setCtx i x).rings = s.rings := rfl
@[simp] theorem State.setCtx_stations (s : State) (i : Nat) (x : Context) : (s.setCtx i x).stations = s.stations := rfl
@[simp] theorem State.setCtx_tiles (s : State) (i : Nat) (x : Context) : (s.setCtx i x).tiles = s.tiles := rfl
@[simp] theorem State.setCtx_tmvs (s : State) (i : Nat) (x : Context) : (s.setCtx i x).tmvs = s.tmvs := rfl
@[simp] theorem State.setCtx_ingests (s : State) (i : Nat) (x : Context) : (s.setCtx i x).ingests = s.ingests := rfl
@[simp] theorem State.setCtx_offers (s : State) (i : Nat) (x : Context) : (s.setCtx i x).offers = s.offers := rfl
@[simp] theorem State.setCtx_scrubs (s : State) (i : Nat) (x : Context) : (s.setCtx i x).scrubs = s.scrubs := rfl
@[simp] theorem State.setCtx_busy (s : State) (i : Nat) (x : Context) : (s.setCtx i x).busy = s.busy := rfl
@[simp] theorem State.setCtx_ports (s : State) (i : Nat) (x : Context) : (s.setCtx i x).ports = s.ports := rfl
@[simp] theorem State.setCtx_threads (s : State) (i : Nat) (x : Context) : (s.setCtx i x).threads = s.threads := rfl
@[simp] theorem State.setCtx_flights (s : State) (i : Nat) (x : Context) : (s.setCtx i x).flights = s.flights := rfl
@[simp] theorem State.setCtx_groups (s : State) (i : Nat) (x : Context) : (s.setCtx i x).groups = s.groups := rfl
@[simp] theorem State.setCtx_sets (s : State) (i : Nat) (x : Context) : (s.setCtx i x).sets = s.sets := rfl
@[simp] theorem State.setCtx_snaps (s : State) (i : Nat) (x : Context) : (s.setCtx i x).snaps = s.snaps := rfl
@[simp] theorem State.setCtx_parts (s : State) (i : Nat) (x : Context) : (s.setCtx i x).parts = s.parts := rfl
@[simp] theorem State.setCtx_placed (s : State) (i : Nat) (x : Context) : (s.setCtx i x).placed = s.placed := rfl
@[simp] theorem State.setCtx_jobs (s : State) (i : Nat) (x : Context) : (s.setCtx i x).jobs = s.jobs := rfl
@[simp] theorem State.setCtx_beavers (s : State) (i : Nat) (x : Context) : (s.setCtx i x).beavers = s.beavers := rfl
@[simp] theorem State.setCtx_turn (s : State) (i : Nat) (x : Context) : (s.setCtx i x).turn = s.turn := rfl
@[simp] theorem State.setCtx_shards (s : State) (i : Nat) (x : Context) : (s.setCtx i x).shards = s.shards := rfl
@[simp] theorem State.setCtx_modelKeys (s : State) (i : Nat) (x : Context) : (s.setCtx i x).modelKeys = s.modelKeys := rfl
@[simp] theorem State.setCtx_shadows (s : State) (i : Nat) (x : Context) : (s.setCtx i x).shadows = s.shadows := rfl
@[simp] theorem State.setCtx_weak (s : State) (i : Nat) (x : Context) : (s.setCtx i x).weak = s.weak := rfl
@[simp] theorem State.setCtx_buckets (s : State) (i : Nat) (x : Context) : (s.setCtx i x).buckets = s.buckets := rfl
@[simp] theorem State.setCtx_bucketAt (s : State) (i : Nat) (x : Context) : (s.setCtx i x).bucketAt = s.bucketAt := rfl
@[simp] theorem State.setCtx_fns (s : State) (i : Nat) (x : Context) : (s.setCtx i x).fns = s.fns := rfl
@[simp] theorem State.setCtx_numVfs (s : State) (i : Nat) (x : Context) : (s.setCtx i x).numVfs = s.numVfs := rfl
@[simp] theorem State.setCtx_accepted (s : State) (i : Nat) (x : Context) : (s.setCtx i x).accepted = s.accepted := rfl
@[simp] theorem State.setCtx_pba (s : State) (i : Nat) (x : Context) : (s.setCtx i x).pba = s.pba := rfl
@[simp] theorem State.setCtx_events (s : State) (i : Nat) (x : Context) : (s.setCtx i x).events = s.events := rfl
@[simp] theorem State.setCtx_traces (s : State) (i : Nat) (x : Context) : (s.setCtx i x).traces = s.traces := rfl
@[simp] theorem State.setCtx_traceSeq (s : State) (i : Nat) (x : Context) : (s.setCtx i x).traceSeq = s.traceSeq := rfl
@[simp] theorem State.setCtx_points (s : State) (i : Nat) (x : Context) : (s.setCtx i x).points = s.points := rfl
@[simp] theorem State.setCtx_twLatch (s : State) (i : Nat) (x : Context) : (s.setCtx i x).twLatch = s.twLatch := rfl
@[simp] theorem State.setCtx_digests (s : State) (i : Nat) (x : Context) : (s.setCtx i x).digests = s.digests := rfl
@[simp] theorem State.setCtx_tencs (s : State) (i : Nat) (x : Context) : (s.setCtx i x).tencs = s.tencs := rfl
@[simp] theorem State.setCtx_totals (s : State) (i : Nat) (x : Context) : (s.setCtx i x).totals = s.totals := rfl
@[simp] theorem State.setCtx_links (s : State) (i : Nat) (x : Context) : (s.setCtx i x).links = s.links := rfl
@[simp] theorem State.setCtx_domain (s : State) (i : Nat) (x : Context) : (s.setCtx i x).domain = s.domain := rfl
@[simp] theorem State.setCtx_offsets (s : State) (i : Nat) (x : Context) : (s.setCtx i x).offsets = s.offsets := rfl
@[simp] theorem State.setCtx_wakes (s : State) (i : Nat) (x : Context) : (s.setCtx i x).wakes = s.wakes := rfl
@[simp] theorem State.setCtx_norA (s : State) (i : Nat) (x : Context) : (s.setCtx i x).norA = s.norA := rfl
@[simp] theorem State.setCtx_norB (s : State) (i : Nat) (x : Context) : (s.setCtx i x).norB = s.norB := rfl
@[simp] theorem State.setCtx_image (s : State) (i : Nat) (x : Context) : (s.setCtx i x).image = s.image := rfl
@[simp] theorem State.setCtx_perst (s : State) (i : Nat) (x : Context) : (s.setCtx i x).perst = s.perst := rfl
@[simp] theorem State.setCtx_wakeAsked (s : State) (i : Nat) (x : Context) : (s.setCtx i x).wakeAsked = s.wakeAsked := rfl
@[simp] theorem State.setCtx_shutRec (s : State) (i : Nat) (x : Context) : (s.setCtx i x).shutRec = s.shutRec := rfl
@[simp] theorem State.setCtx_calRec (s : State) (i : Nat) (x : Context) : (s.setCtx i x).calRec = s.calRec := rfl
@[simp] theorem State.setCtx_capNow (s : State) (i : Nat) (x : Context) : (s.setCtx i x).capNow = s.capNow := rfl
@[simp] theorem State.setCtx_pgmFault (s : State) (i : Nat) (x : Context) : (s.setCtx i x).pgmFault = s.pgmFault := rfl
@[simp] theorem State.setCtx_regFails (s : State) (i : Nat) (x : Context) : (s.setCtx i x).regFails = s.regFails := rfl
@[simp] theorem State.setCtx_regTried (s : State) (i : Nat) (x : Context) : (s.setCtx i x).regTried = s.regTried := rfl
@[simp] theorem State.setCtx_avs (s : State) (i : Nat) (x : Context) : (s.setCtx i x).avs = s.avs := rfl
@[simp] theorem State.setCtx_sensors (s : State) (i : Nat) (x : Context) : (s.setCtx i x).sensors = s.sensors := rfl
@[simp] theorem State.setCtx_medPrev (s : State) (i : Nat) (x : Context) : (s.setCtx i x).medPrev = s.medPrev := rfl
@[simp] theorem State.setCtx_deadCls (s : State) (i : Nat) (x : Context) : (s.setCtx i x).deadCls = s.deadCls := rfl
@[simp] theorem State.setCtx_onAt (s : State) (i : Nat) (x : Context) : (s.setCtx i x).onAt = s.onAt := rfl
@[simp] theorem State.setCtx_onCl (s : State) (i : Nat) (x : Context) : (s.setCtx i x).onCl = s.onCl := rfl
@[simp] theorem State.setCtx_settMem (s : State) (i : Nat) (x : Context) : (s.setCtx i x).settMem = s.settMem := rfl
@[simp] theorem State.setCtx_settBuf (s : State) (i : Nat) (x : Context) : (s.setCtx i x).settBuf = s.settBuf := rfl
@[simp] theorem State.setCtx_settList (s : State) (i : Nat) (x : Context) : (s.setCtx i x).settList = s.settList := rfl
@[simp] theorem State.setCtx_settQueue (s : State) (i : Nat) (x : Context) : (s.setCtx i x).settQueue = s.settQueue := rfl
@[simp] theorem State.setCtx_settCommits (s : State) (i : Nat) (x : Context) : (s.setCtx i x).settCommits = s.settCommits := rfl
@[simp] theorem State.setCtx_settRefreshes (s : State) (i : Nat) (x : Context) : (s.setCtx i x).settRefreshes = s.settRefreshes := rfl
@[simp] theorem State.setCtx_ringNext (s : State) (i : Nat) (x : Context) : (s.setCtx i x).ringNext = s.ringNext := rfl
@[simp] theorem State.setCtx_ringSeq (s : State) (i : Nat) (x : Context) : (s.setCtx i x).ringSeq = s.ringSeq := rfl
@[simp] theorem State.setCtx_lc (s : State) (i : Nat) (x : Context) : (s.setCtx i x).lc = s.lc := rfl
@[simp] theorem State.setCtx_lcBusy (s : State) (i : Nat) (x : Context) : (s.setCtx i x).lcBusy = s.lcBusy := rfl
@[simp] theorem State.setCtx_fwTarget (s : State) (i : Nat) (x : Context) : (s.setCtx i x).fwTarget = s.fwTarget := rfl
@[simp] theorem State.setCtx_signKeys (s : State) (i : Nat) (x : Context) : (s.setCtx i x).signKeys = s.signKeys := rfl
@[simp] theorem State.setCtx_spot (s : State) (i : Nat) (x : Context) : (s.setCtx i x).spot = s.spot := rfl
@[simp] theorem State.setCtx_bearAt (s : State) (i : Nat) (x : Context) : (s.setCtx i x).bearAt = s.bearAt := rfl
@[simp] theorem State.setCtx_wins (s : State) (i : Nat) (x : Context) : (s.setCtx i x).wins = s.wins := rfl
@[simp] theorem State.setCtx_wrules (s : State) (i : Nat) (x : Context) : (s.setCtx i x).wrules = s.wrules := rfl
@[simp] theorem State.setCtx_wioDown (s : State) (i : Nat) (x : Context) : (s.setCtx i x).wioDown = s.wioDown := rfl
@[simp] theorem State.setCtx_base (s : State) (i : Nat) (x : Context) : (s.setCtx i x).base = s.base := rfl
@[simp] theorem State.setCtx_pllOff (s : State) (i : Nat) (x : Context) : (s.setCtx i x).pllOff = s.pllOff := rfl
@[simp] theorem State.setCtx_cmLast (s : State) (i : Nat) (x : Context) : (s.setCtx i x).cmLast = s.cmLast := rfl
@[simp] theorem State.setCtx_clrAt (s : State) (i : Nat) (x : Context) : (s.setCtx i x).clrAt = s.clrAt := rfl
@[simp] theorem State.setCtx_syncAt (s : State) (i : Nat) (x : Context) : (s.setCtx i x).syncAt = s.syncAt := rfl
@[simp] theorem State.setCtx_trgAt (s : State) (i : Nat) (x : Context) : (s.setCtx i x).trgAt = s.trgAt := rfl
@[simp] theorem State.setCtx_snapHeld (s : State) (i : Nat) (x : Context) : (s.setCtx i x).snapHeld = s.snapHeld := rfl
@[simp] theorem State.setCtx_resets (s : State) (i : Nat) (x : Context) : (s.setCtx i x).resets = s.resets := rfl
@[simp] theorem State.setCtx_accounts (s : State) (i : Nat) (x : Context) : (s.setCtx i x).accounts = s.accounts := rfl
@[simp] theorem State.setCtx_refillAt (s : State) (i : Nat) (x : Context) : (s.setCtx i x).refillAt = s.refillAt := rfl
@[simp] theorem State.setCtx_grants (s : State) (i : Nat) (x : Context) : (s.setCtx i x).grants = s.grants := rfl
@[simp] theorem State.setCtx_bandMoved (s : State) (i : Nat) (x : Context) : (s.setCtx i x).bandMoved = s.bandMoved := rfl
@[simp] theorem State.setCtx_thrJudged (s : State) (i : Nat) (x : Context) : (s.setCtx i x).thrJudged = s.thrJudged := rfl
@[simp] theorem State.setCtx_spareLeft (s : State) (i : Nat) (x : Context) : (s.setCtx i x).spareLeft = s.spareLeft := rfl
@[simp] theorem State.setCtx_aerLog (s : State) (i : Nat) (x : Context) : (s.setCtx i x).aerLog = s.aerLog := rfl
@[simp] theorem State.setCtx_loading (s : State) (i : Nat) (x : Context) : (s.setCtx i x).loading = s.loading := rfl
@[simp] theorem State.setCtx_channels (s : State) (i : Nat) (x : Context) : (s.setCtx i x).channels = s.channels := rfl
@[simp] theorem State.setCtx_traceLast (s : State) (i : Nat) (x : Context) : (s.setCtx i x).traceLast = s.traceLast := rfl
@[simp] theorem State.setCtx_counters (s : State) (i : Nat) (x : Context) : (s.setCtx i x).counters = s.counters := rfl
@[simp] theorem State.setCtx_spotDue (s : State) (i : Nat) (x : Context) : (s.setCtx i x).spotDue = s.spotDue := rfl
@[simp] theorem State.setCtx_heldRules (s : State) (i : Nat) (x : Context) : (s.setCtx i x).heldRules = s.heldRules := rfl
@[simp] theorem State.setCtx_outMarks (s : State) (i : Nat) (x : Context) : (s.setCtx i x).outMarks = s.outMarks := rfl
@[simp] theorem State.setThread_pending (s : State) (i : Nat) (x : ThreadState) : (s.setThread i x).pending = s.pending := rfl
@[simp] theorem State.setThread_time (s : State) (i : Nat) (x : ThreadState) : (s.setThread i x).time = s.time := rfl
@[simp] theorem State.setThread_fresh (s : State) (i : Nat) (x : ThreadState) : (s.setThread i x).fresh = s.fresh := rfl
@[simp] theorem State.setThread_out (s : State) (i : Nat) (x : ThreadState) : (s.setThread i x).out = s.out := rfl
@[simp] theorem State.setThread_regs (s : State) (i : Nat) (x : ThreadState) : (s.setThread i x).regs = s.regs := rfl
@[simp] theorem State.setThread_latches (s : State) (i : Nat) (x : ThreadState) : (s.setThread i x).latches = s.latches := rfl
@[simp] theorem State.setThread_sram (s : State) (i : Nat) (x : ThreadState) : (s.setThread i x).sram = s.sram := rfl
@[simp] theorem State.setThread_ecc (s : State) (i : Nat) (x : ThreadState) : (s.setThread i x).ecc = s.ecc := rfl
@[simp] theorem State.setThread_cmWait (s : State) (i : Nat) (x : ThreadState) : (s.setThread i x).cmWait = s.cmWait := rfl
@[simp] theorem State.setThread_tokenPool (s : State) (i : Nat) (x : ThreadState) : (s.setThread i x).tokenPool = s.tokenPool := rfl
@[simp] theorem State.setThread_tokenHeld (s : State) (i : Nat) (x : ThreadState) : (s.setThread i x).tokenHeld = s.tokenHeld := rfl
@[simp] theorem State.setThread_tokenWait (s : State) (i : Nat) (x : ThreadState) : (s.setThread i x).tokenWait = s.tokenWait := rfl
@[simp] theorem State.setThread_cells (s : State) (i : Nat) (x : ThreadState) : (s.setThread i x).cells = s.cells := rfl
@[simp] theorem State.setThread_engines (s : State) (i : Nat) (x : ThreadState) : (s.setThread i x).engines = s.engines := rfl
@[simp] theorem State.setThread_trackers (s : State) (i : Nat) (x : ThreadState) : (s.setThread i x).trackers = s.trackers := rfl
@[simp] theorem State.setThread_trims (s : State) (i : Nat) (x : ThreadState) : (s.setThread i x).trims = s.trims := rfl
@[simp] theorem State.setThread_passes (s : State) (i : Nat) (x : ThreadState) : (s.setThread i x).passes = s.passes := rfl
@[simp] theorem State.setThread_bandTime (s : State) (i : Nat) (x : ThreadState) : (s.setThread i x).bandTime = s.bandTime := rfl
@[simp] theorem State.setThread_bandAt (s : State) (i : Nat) (x : ThreadState) : (s.setThread i x).bandAt = s.bandAt := rfl
@[simp] theorem State.setThread_adderFree (s : State) (i : Nat) (x : ThreadState) : (s.setThread i x).adderFree = s.adderFree := rfl
@[simp] theorem State.setThread_ocus (s : State) (i : Nat) (x : ThreadState) : (s.setThread i x).ocus = s.ocus := rfl
@[simp] theorem State.setThread_owls (s : State) (i : Nat) (x : ThreadState) : (s.setThread i x).owls = s.owls := rfl
@[simp] theorem State.setThread_dac (s : State) (i : Nat) (x : ThreadState) : (s.setThread i x).dac = s.dac := rfl
@[simp] theorem State.setThread_rings (s : State) (i : Nat) (x : ThreadState) : (s.setThread i x).rings = s.rings := rfl
@[simp] theorem State.setThread_stations (s : State) (i : Nat) (x : ThreadState) : (s.setThread i x).stations = s.stations := rfl
@[simp] theorem State.setThread_tiles (s : State) (i : Nat) (x : ThreadState) : (s.setThread i x).tiles = s.tiles := rfl
@[simp] theorem State.setThread_tmvs (s : State) (i : Nat) (x : ThreadState) : (s.setThread i x).tmvs = s.tmvs := rfl
@[simp] theorem State.setThread_ctxs (s : State) (i : Nat) (x : ThreadState) : (s.setThread i x).ctxs = s.ctxs := rfl
@[simp] theorem State.setThread_ingests (s : State) (i : Nat) (x : ThreadState) : (s.setThread i x).ingests = s.ingests := rfl
@[simp] theorem State.setThread_offers (s : State) (i : Nat) (x : ThreadState) : (s.setThread i x).offers = s.offers := rfl
@[simp] theorem State.setThread_scrubs (s : State) (i : Nat) (x : ThreadState) : (s.setThread i x).scrubs = s.scrubs := rfl
@[simp] theorem State.setThread_busy (s : State) (i : Nat) (x : ThreadState) : (s.setThread i x).busy = s.busy := rfl
@[simp] theorem State.setThread_ports (s : State) (i : Nat) (x : ThreadState) : (s.setThread i x).ports = s.ports := rfl
@[simp] theorem State.setThread_flights (s : State) (i : Nat) (x : ThreadState) : (s.setThread i x).flights = s.flights := rfl
@[simp] theorem State.setThread_groups (s : State) (i : Nat) (x : ThreadState) : (s.setThread i x).groups = s.groups := rfl
@[simp] theorem State.setThread_sets (s : State) (i : Nat) (x : ThreadState) : (s.setThread i x).sets = s.sets := rfl
@[simp] theorem State.setThread_snaps (s : State) (i : Nat) (x : ThreadState) : (s.setThread i x).snaps = s.snaps := rfl
@[simp] theorem State.setThread_parts (s : State) (i : Nat) (x : ThreadState) : (s.setThread i x).parts = s.parts := rfl
@[simp] theorem State.setThread_placed (s : State) (i : Nat) (x : ThreadState) : (s.setThread i x).placed = s.placed := rfl
@[simp] theorem State.setThread_jobs (s : State) (i : Nat) (x : ThreadState) : (s.setThread i x).jobs = s.jobs := rfl
@[simp] theorem State.setThread_beavers (s : State) (i : Nat) (x : ThreadState) : (s.setThread i x).beavers = s.beavers := rfl
@[simp] theorem State.setThread_turn (s : State) (i : Nat) (x : ThreadState) : (s.setThread i x).turn = s.turn := rfl
@[simp] theorem State.setThread_shards (s : State) (i : Nat) (x : ThreadState) : (s.setThread i x).shards = s.shards := rfl
@[simp] theorem State.setThread_modelKeys (s : State) (i : Nat) (x : ThreadState) : (s.setThread i x).modelKeys = s.modelKeys := rfl
@[simp] theorem State.setThread_shadows (s : State) (i : Nat) (x : ThreadState) : (s.setThread i x).shadows = s.shadows := rfl
@[simp] theorem State.setThread_weak (s : State) (i : Nat) (x : ThreadState) : (s.setThread i x).weak = s.weak := rfl
@[simp] theorem State.setThread_buckets (s : State) (i : Nat) (x : ThreadState) : (s.setThread i x).buckets = s.buckets := rfl
@[simp] theorem State.setThread_bucketAt (s : State) (i : Nat) (x : ThreadState) : (s.setThread i x).bucketAt = s.bucketAt := rfl
@[simp] theorem State.setThread_fns (s : State) (i : Nat) (x : ThreadState) : (s.setThread i x).fns = s.fns := rfl
@[simp] theorem State.setThread_numVfs (s : State) (i : Nat) (x : ThreadState) : (s.setThread i x).numVfs = s.numVfs := rfl
@[simp] theorem State.setThread_accepted (s : State) (i : Nat) (x : ThreadState) : (s.setThread i x).accepted = s.accepted := rfl
@[simp] theorem State.setThread_pba (s : State) (i : Nat) (x : ThreadState) : (s.setThread i x).pba = s.pba := rfl
@[simp] theorem State.setThread_events (s : State) (i : Nat) (x : ThreadState) : (s.setThread i x).events = s.events := rfl
@[simp] theorem State.setThread_traces (s : State) (i : Nat) (x : ThreadState) : (s.setThread i x).traces = s.traces := rfl
@[simp] theorem State.setThread_traceSeq (s : State) (i : Nat) (x : ThreadState) : (s.setThread i x).traceSeq = s.traceSeq := rfl
@[simp] theorem State.setThread_points (s : State) (i : Nat) (x : ThreadState) : (s.setThread i x).points = s.points := rfl
@[simp] theorem State.setThread_twLatch (s : State) (i : Nat) (x : ThreadState) : (s.setThread i x).twLatch = s.twLatch := rfl
@[simp] theorem State.setThread_digests (s : State) (i : Nat) (x : ThreadState) : (s.setThread i x).digests = s.digests := rfl
@[simp] theorem State.setThread_tencs (s : State) (i : Nat) (x : ThreadState) : (s.setThread i x).tencs = s.tencs := rfl
@[simp] theorem State.setThread_totals (s : State) (i : Nat) (x : ThreadState) : (s.setThread i x).totals = s.totals := rfl
@[simp] theorem State.setThread_links (s : State) (i : Nat) (x : ThreadState) : (s.setThread i x).links = s.links := rfl
@[simp] theorem State.setThread_domain (s : State) (i : Nat) (x : ThreadState) : (s.setThread i x).domain = s.domain := rfl
@[simp] theorem State.setThread_offsets (s : State) (i : Nat) (x : ThreadState) : (s.setThread i x).offsets = s.offsets := rfl
@[simp] theorem State.setThread_wakes (s : State) (i : Nat) (x : ThreadState) : (s.setThread i x).wakes = s.wakes := rfl
@[simp] theorem State.setThread_norA (s : State) (i : Nat) (x : ThreadState) : (s.setThread i x).norA = s.norA := rfl
@[simp] theorem State.setThread_norB (s : State) (i : Nat) (x : ThreadState) : (s.setThread i x).norB = s.norB := rfl
@[simp] theorem State.setThread_image (s : State) (i : Nat) (x : ThreadState) : (s.setThread i x).image = s.image := rfl
@[simp] theorem State.setThread_perst (s : State) (i : Nat) (x : ThreadState) : (s.setThread i x).perst = s.perst := rfl
@[simp] theorem State.setThread_wakeAsked (s : State) (i : Nat) (x : ThreadState) : (s.setThread i x).wakeAsked = s.wakeAsked := rfl
@[simp] theorem State.setThread_shutRec (s : State) (i : Nat) (x : ThreadState) : (s.setThread i x).shutRec = s.shutRec := rfl
@[simp] theorem State.setThread_calRec (s : State) (i : Nat) (x : ThreadState) : (s.setThread i x).calRec = s.calRec := rfl
@[simp] theorem State.setThread_capNow (s : State) (i : Nat) (x : ThreadState) : (s.setThread i x).capNow = s.capNow := rfl
@[simp] theorem State.setThread_pgmFault (s : State) (i : Nat) (x : ThreadState) : (s.setThread i x).pgmFault = s.pgmFault := rfl
@[simp] theorem State.setThread_regFails (s : State) (i : Nat) (x : ThreadState) : (s.setThread i x).regFails = s.regFails := rfl
@[simp] theorem State.setThread_regTried (s : State) (i : Nat) (x : ThreadState) : (s.setThread i x).regTried = s.regTried := rfl
@[simp] theorem State.setThread_avs (s : State) (i : Nat) (x : ThreadState) : (s.setThread i x).avs = s.avs := rfl
@[simp] theorem State.setThread_sensors (s : State) (i : Nat) (x : ThreadState) : (s.setThread i x).sensors = s.sensors := rfl
@[simp] theorem State.setThread_medPrev (s : State) (i : Nat) (x : ThreadState) : (s.setThread i x).medPrev = s.medPrev := rfl
@[simp] theorem State.setThread_deadCls (s : State) (i : Nat) (x : ThreadState) : (s.setThread i x).deadCls = s.deadCls := rfl
@[simp] theorem State.setThread_onAt (s : State) (i : Nat) (x : ThreadState) : (s.setThread i x).onAt = s.onAt := rfl
@[simp] theorem State.setThread_onCl (s : State) (i : Nat) (x : ThreadState) : (s.setThread i x).onCl = s.onCl := rfl
@[simp] theorem State.setThread_settMem (s : State) (i : Nat) (x : ThreadState) : (s.setThread i x).settMem = s.settMem := rfl
@[simp] theorem State.setThread_settBuf (s : State) (i : Nat) (x : ThreadState) : (s.setThread i x).settBuf = s.settBuf := rfl
@[simp] theorem State.setThread_settList (s : State) (i : Nat) (x : ThreadState) : (s.setThread i x).settList = s.settList := rfl
@[simp] theorem State.setThread_settQueue (s : State) (i : Nat) (x : ThreadState) : (s.setThread i x).settQueue = s.settQueue := rfl
@[simp] theorem State.setThread_settCommits (s : State) (i : Nat) (x : ThreadState) : (s.setThread i x).settCommits = s.settCommits := rfl
@[simp] theorem State.setThread_settRefreshes (s : State) (i : Nat) (x : ThreadState) : (s.setThread i x).settRefreshes = s.settRefreshes := rfl
@[simp] theorem State.setThread_ringNext (s : State) (i : Nat) (x : ThreadState) : (s.setThread i x).ringNext = s.ringNext := rfl
@[simp] theorem State.setThread_ringSeq (s : State) (i : Nat) (x : ThreadState) : (s.setThread i x).ringSeq = s.ringSeq := rfl
@[simp] theorem State.setThread_lc (s : State) (i : Nat) (x : ThreadState) : (s.setThread i x).lc = s.lc := rfl
@[simp] theorem State.setThread_lcBusy (s : State) (i : Nat) (x : ThreadState) : (s.setThread i x).lcBusy = s.lcBusy := rfl
@[simp] theorem State.setThread_fwTarget (s : State) (i : Nat) (x : ThreadState) : (s.setThread i x).fwTarget = s.fwTarget := rfl
@[simp] theorem State.setThread_signKeys (s : State) (i : Nat) (x : ThreadState) : (s.setThread i x).signKeys = s.signKeys := rfl
@[simp] theorem State.setThread_spot (s : State) (i : Nat) (x : ThreadState) : (s.setThread i x).spot = s.spot := rfl
@[simp] theorem State.setThread_bearAt (s : State) (i : Nat) (x : ThreadState) : (s.setThread i x).bearAt = s.bearAt := rfl
@[simp] theorem State.setThread_wins (s : State) (i : Nat) (x : ThreadState) : (s.setThread i x).wins = s.wins := rfl
@[simp] theorem State.setThread_wrules (s : State) (i : Nat) (x : ThreadState) : (s.setThread i x).wrules = s.wrules := rfl
@[simp] theorem State.setThread_wioDown (s : State) (i : Nat) (x : ThreadState) : (s.setThread i x).wioDown = s.wioDown := rfl
@[simp] theorem State.setThread_base (s : State) (i : Nat) (x : ThreadState) : (s.setThread i x).base = s.base := rfl
@[simp] theorem State.setThread_pllOff (s : State) (i : Nat) (x : ThreadState) : (s.setThread i x).pllOff = s.pllOff := rfl
@[simp] theorem State.setThread_cmLast (s : State) (i : Nat) (x : ThreadState) : (s.setThread i x).cmLast = s.cmLast := rfl
@[simp] theorem State.setThread_clrAt (s : State) (i : Nat) (x : ThreadState) : (s.setThread i x).clrAt = s.clrAt := rfl
@[simp] theorem State.setThread_syncAt (s : State) (i : Nat) (x : ThreadState) : (s.setThread i x).syncAt = s.syncAt := rfl
@[simp] theorem State.setThread_trgAt (s : State) (i : Nat) (x : ThreadState) : (s.setThread i x).trgAt = s.trgAt := rfl
@[simp] theorem State.setThread_snapHeld (s : State) (i : Nat) (x : ThreadState) : (s.setThread i x).snapHeld = s.snapHeld := rfl
@[simp] theorem State.setThread_resets (s : State) (i : Nat) (x : ThreadState) : (s.setThread i x).resets = s.resets := rfl
@[simp] theorem State.setThread_accounts (s : State) (i : Nat) (x : ThreadState) : (s.setThread i x).accounts = s.accounts := rfl
@[simp] theorem State.setThread_refillAt (s : State) (i : Nat) (x : ThreadState) : (s.setThread i x).refillAt = s.refillAt := rfl
@[simp] theorem State.setThread_grants (s : State) (i : Nat) (x : ThreadState) : (s.setThread i x).grants = s.grants := rfl
@[simp] theorem State.setThread_bandMoved (s : State) (i : Nat) (x : ThreadState) : (s.setThread i x).bandMoved = s.bandMoved := rfl
@[simp] theorem State.setThread_thrJudged (s : State) (i : Nat) (x : ThreadState) : (s.setThread i x).thrJudged = s.thrJudged := rfl
@[simp] theorem State.setThread_spareLeft (s : State) (i : Nat) (x : ThreadState) : (s.setThread i x).spareLeft = s.spareLeft := rfl
@[simp] theorem State.setThread_aerLog (s : State) (i : Nat) (x : ThreadState) : (s.setThread i x).aerLog = s.aerLog := rfl
@[simp] theorem State.setThread_loading (s : State) (i : Nat) (x : ThreadState) : (s.setThread i x).loading = s.loading := rfl
@[simp] theorem State.setThread_channels (s : State) (i : Nat) (x : ThreadState) : (s.setThread i x).channels = s.channels := rfl
@[simp] theorem State.setThread_traceLast (s : State) (i : Nat) (x : ThreadState) : (s.setThread i x).traceLast = s.traceLast := rfl
@[simp] theorem State.setThread_counters (s : State) (i : Nat) (x : ThreadState) : (s.setThread i x).counters = s.counters := rfl
@[simp] theorem State.setThread_spotDue (s : State) (i : Nat) (x : ThreadState) : (s.setThread i x).spotDue = s.spotDue := rfl
@[simp] theorem State.setThread_heldRules (s : State) (i : Nat) (x : ThreadState) : (s.setThread i x).heldRules = s.heldRules := rfl
@[simp] theorem State.setThread_outMarks (s : State) (i : Nat) (x : ThreadState) : (s.setThread i x).outMarks = s.outMarks := rfl
@[simp] theorem State.setGroup_pending (s : State) (i : Nat) (x : Group) : (s.setGroup i x).pending = s.pending := rfl
@[simp] theorem State.setGroup_time (s : State) (i : Nat) (x : Group) : (s.setGroup i x).time = s.time := rfl
@[simp] theorem State.setGroup_fresh (s : State) (i : Nat) (x : Group) : (s.setGroup i x).fresh = s.fresh := rfl
@[simp] theorem State.setGroup_out (s : State) (i : Nat) (x : Group) : (s.setGroup i x).out = s.out := rfl
@[simp] theorem State.setGroup_regs (s : State) (i : Nat) (x : Group) : (s.setGroup i x).regs = s.regs := rfl
@[simp] theorem State.setGroup_latches (s : State) (i : Nat) (x : Group) : (s.setGroup i x).latches = s.latches := rfl
@[simp] theorem State.setGroup_sram (s : State) (i : Nat) (x : Group) : (s.setGroup i x).sram = s.sram := rfl
@[simp] theorem State.setGroup_ecc (s : State) (i : Nat) (x : Group) : (s.setGroup i x).ecc = s.ecc := rfl
@[simp] theorem State.setGroup_cmWait (s : State) (i : Nat) (x : Group) : (s.setGroup i x).cmWait = s.cmWait := rfl
@[simp] theorem State.setGroup_tokenPool (s : State) (i : Nat) (x : Group) : (s.setGroup i x).tokenPool = s.tokenPool := rfl
@[simp] theorem State.setGroup_tokenHeld (s : State) (i : Nat) (x : Group) : (s.setGroup i x).tokenHeld = s.tokenHeld := rfl
@[simp] theorem State.setGroup_tokenWait (s : State) (i : Nat) (x : Group) : (s.setGroup i x).tokenWait = s.tokenWait := rfl
@[simp] theorem State.setGroup_cells (s : State) (i : Nat) (x : Group) : (s.setGroup i x).cells = s.cells := rfl
@[simp] theorem State.setGroup_engines (s : State) (i : Nat) (x : Group) : (s.setGroup i x).engines = s.engines := rfl
@[simp] theorem State.setGroup_trackers (s : State) (i : Nat) (x : Group) : (s.setGroup i x).trackers = s.trackers := rfl
@[simp] theorem State.setGroup_trims (s : State) (i : Nat) (x : Group) : (s.setGroup i x).trims = s.trims := rfl
@[simp] theorem State.setGroup_passes (s : State) (i : Nat) (x : Group) : (s.setGroup i x).passes = s.passes := rfl
@[simp] theorem State.setGroup_bandTime (s : State) (i : Nat) (x : Group) : (s.setGroup i x).bandTime = s.bandTime := rfl
@[simp] theorem State.setGroup_bandAt (s : State) (i : Nat) (x : Group) : (s.setGroup i x).bandAt = s.bandAt := rfl
@[simp] theorem State.setGroup_adderFree (s : State) (i : Nat) (x : Group) : (s.setGroup i x).adderFree = s.adderFree := rfl
@[simp] theorem State.setGroup_ocus (s : State) (i : Nat) (x : Group) : (s.setGroup i x).ocus = s.ocus := rfl
@[simp] theorem State.setGroup_owls (s : State) (i : Nat) (x : Group) : (s.setGroup i x).owls = s.owls := rfl
@[simp] theorem State.setGroup_dac (s : State) (i : Nat) (x : Group) : (s.setGroup i x).dac = s.dac := rfl
@[simp] theorem State.setGroup_rings (s : State) (i : Nat) (x : Group) : (s.setGroup i x).rings = s.rings := rfl
@[simp] theorem State.setGroup_stations (s : State) (i : Nat) (x : Group) : (s.setGroup i x).stations = s.stations := rfl
@[simp] theorem State.setGroup_tiles (s : State) (i : Nat) (x : Group) : (s.setGroup i x).tiles = s.tiles := rfl
@[simp] theorem State.setGroup_tmvs (s : State) (i : Nat) (x : Group) : (s.setGroup i x).tmvs = s.tmvs := rfl
@[simp] theorem State.setGroup_ctxs (s : State) (i : Nat) (x : Group) : (s.setGroup i x).ctxs = s.ctxs := rfl
@[simp] theorem State.setGroup_ingests (s : State) (i : Nat) (x : Group) : (s.setGroup i x).ingests = s.ingests := rfl
@[simp] theorem State.setGroup_offers (s : State) (i : Nat) (x : Group) : (s.setGroup i x).offers = s.offers := rfl
@[simp] theorem State.setGroup_scrubs (s : State) (i : Nat) (x : Group) : (s.setGroup i x).scrubs = s.scrubs := rfl
@[simp] theorem State.setGroup_busy (s : State) (i : Nat) (x : Group) : (s.setGroup i x).busy = s.busy := rfl
@[simp] theorem State.setGroup_ports (s : State) (i : Nat) (x : Group) : (s.setGroup i x).ports = s.ports := rfl
@[simp] theorem State.setGroup_threads (s : State) (i : Nat) (x : Group) : (s.setGroup i x).threads = s.threads := rfl
@[simp] theorem State.setGroup_flights (s : State) (i : Nat) (x : Group) : (s.setGroup i x).flights = s.flights := rfl
@[simp] theorem State.setGroup_sets (s : State) (i : Nat) (x : Group) : (s.setGroup i x).sets = s.sets := rfl
@[simp] theorem State.setGroup_snaps (s : State) (i : Nat) (x : Group) : (s.setGroup i x).snaps = s.snaps := rfl
@[simp] theorem State.setGroup_parts (s : State) (i : Nat) (x : Group) : (s.setGroup i x).parts = s.parts := rfl
@[simp] theorem State.setGroup_placed (s : State) (i : Nat) (x : Group) : (s.setGroup i x).placed = s.placed := rfl
@[simp] theorem State.setGroup_jobs (s : State) (i : Nat) (x : Group) : (s.setGroup i x).jobs = s.jobs := rfl
@[simp] theorem State.setGroup_beavers (s : State) (i : Nat) (x : Group) : (s.setGroup i x).beavers = s.beavers := rfl
@[simp] theorem State.setGroup_turn (s : State) (i : Nat) (x : Group) : (s.setGroup i x).turn = s.turn := rfl
@[simp] theorem State.setGroup_shards (s : State) (i : Nat) (x : Group) : (s.setGroup i x).shards = s.shards := rfl
@[simp] theorem State.setGroup_modelKeys (s : State) (i : Nat) (x : Group) : (s.setGroup i x).modelKeys = s.modelKeys := rfl
@[simp] theorem State.setGroup_shadows (s : State) (i : Nat) (x : Group) : (s.setGroup i x).shadows = s.shadows := rfl
@[simp] theorem State.setGroup_weak (s : State) (i : Nat) (x : Group) : (s.setGroup i x).weak = s.weak := rfl
@[simp] theorem State.setGroup_buckets (s : State) (i : Nat) (x : Group) : (s.setGroup i x).buckets = s.buckets := rfl
@[simp] theorem State.setGroup_bucketAt (s : State) (i : Nat) (x : Group) : (s.setGroup i x).bucketAt = s.bucketAt := rfl
@[simp] theorem State.setGroup_fns (s : State) (i : Nat) (x : Group) : (s.setGroup i x).fns = s.fns := rfl
@[simp] theorem State.setGroup_numVfs (s : State) (i : Nat) (x : Group) : (s.setGroup i x).numVfs = s.numVfs := rfl
@[simp] theorem State.setGroup_accepted (s : State) (i : Nat) (x : Group) : (s.setGroup i x).accepted = s.accepted := rfl
@[simp] theorem State.setGroup_pba (s : State) (i : Nat) (x : Group) : (s.setGroup i x).pba = s.pba := rfl
@[simp] theorem State.setGroup_events (s : State) (i : Nat) (x : Group) : (s.setGroup i x).events = s.events := rfl
@[simp] theorem State.setGroup_traces (s : State) (i : Nat) (x : Group) : (s.setGroup i x).traces = s.traces := rfl
@[simp] theorem State.setGroup_traceSeq (s : State) (i : Nat) (x : Group) : (s.setGroup i x).traceSeq = s.traceSeq := rfl
@[simp] theorem State.setGroup_points (s : State) (i : Nat) (x : Group) : (s.setGroup i x).points = s.points := rfl
@[simp] theorem State.setGroup_twLatch (s : State) (i : Nat) (x : Group) : (s.setGroup i x).twLatch = s.twLatch := rfl
@[simp] theorem State.setGroup_digests (s : State) (i : Nat) (x : Group) : (s.setGroup i x).digests = s.digests := rfl
@[simp] theorem State.setGroup_tencs (s : State) (i : Nat) (x : Group) : (s.setGroup i x).tencs = s.tencs := rfl
@[simp] theorem State.setGroup_totals (s : State) (i : Nat) (x : Group) : (s.setGroup i x).totals = s.totals := rfl
@[simp] theorem State.setGroup_links (s : State) (i : Nat) (x : Group) : (s.setGroup i x).links = s.links := rfl
@[simp] theorem State.setGroup_domain (s : State) (i : Nat) (x : Group) : (s.setGroup i x).domain = s.domain := rfl
@[simp] theorem State.setGroup_offsets (s : State) (i : Nat) (x : Group) : (s.setGroup i x).offsets = s.offsets := rfl
@[simp] theorem State.setGroup_wakes (s : State) (i : Nat) (x : Group) : (s.setGroup i x).wakes = s.wakes := rfl
@[simp] theorem State.setGroup_norA (s : State) (i : Nat) (x : Group) : (s.setGroup i x).norA = s.norA := rfl
@[simp] theorem State.setGroup_norB (s : State) (i : Nat) (x : Group) : (s.setGroup i x).norB = s.norB := rfl
@[simp] theorem State.setGroup_image (s : State) (i : Nat) (x : Group) : (s.setGroup i x).image = s.image := rfl
@[simp] theorem State.setGroup_perst (s : State) (i : Nat) (x : Group) : (s.setGroup i x).perst = s.perst := rfl
@[simp] theorem State.setGroup_wakeAsked (s : State) (i : Nat) (x : Group) : (s.setGroup i x).wakeAsked = s.wakeAsked := rfl
@[simp] theorem State.setGroup_shutRec (s : State) (i : Nat) (x : Group) : (s.setGroup i x).shutRec = s.shutRec := rfl
@[simp] theorem State.setGroup_calRec (s : State) (i : Nat) (x : Group) : (s.setGroup i x).calRec = s.calRec := rfl
@[simp] theorem State.setGroup_capNow (s : State) (i : Nat) (x : Group) : (s.setGroup i x).capNow = s.capNow := rfl
@[simp] theorem State.setGroup_pgmFault (s : State) (i : Nat) (x : Group) : (s.setGroup i x).pgmFault = s.pgmFault := rfl
@[simp] theorem State.setGroup_regFails (s : State) (i : Nat) (x : Group) : (s.setGroup i x).regFails = s.regFails := rfl
@[simp] theorem State.setGroup_regTried (s : State) (i : Nat) (x : Group) : (s.setGroup i x).regTried = s.regTried := rfl
@[simp] theorem State.setGroup_avs (s : State) (i : Nat) (x : Group) : (s.setGroup i x).avs = s.avs := rfl
@[simp] theorem State.setGroup_sensors (s : State) (i : Nat) (x : Group) : (s.setGroup i x).sensors = s.sensors := rfl
@[simp] theorem State.setGroup_medPrev (s : State) (i : Nat) (x : Group) : (s.setGroup i x).medPrev = s.medPrev := rfl
@[simp] theorem State.setGroup_deadCls (s : State) (i : Nat) (x : Group) : (s.setGroup i x).deadCls = s.deadCls := rfl
@[simp] theorem State.setGroup_onAt (s : State) (i : Nat) (x : Group) : (s.setGroup i x).onAt = s.onAt := rfl
@[simp] theorem State.setGroup_onCl (s : State) (i : Nat) (x : Group) : (s.setGroup i x).onCl = s.onCl := rfl
@[simp] theorem State.setGroup_settMem (s : State) (i : Nat) (x : Group) : (s.setGroup i x).settMem = s.settMem := rfl
@[simp] theorem State.setGroup_settBuf (s : State) (i : Nat) (x : Group) : (s.setGroup i x).settBuf = s.settBuf := rfl
@[simp] theorem State.setGroup_settList (s : State) (i : Nat) (x : Group) : (s.setGroup i x).settList = s.settList := rfl
@[simp] theorem State.setGroup_settQueue (s : State) (i : Nat) (x : Group) : (s.setGroup i x).settQueue = s.settQueue := rfl
@[simp] theorem State.setGroup_settCommits (s : State) (i : Nat) (x : Group) : (s.setGroup i x).settCommits = s.settCommits := rfl
@[simp] theorem State.setGroup_settRefreshes (s : State) (i : Nat) (x : Group) : (s.setGroup i x).settRefreshes = s.settRefreshes := rfl
@[simp] theorem State.setGroup_ringNext (s : State) (i : Nat) (x : Group) : (s.setGroup i x).ringNext = s.ringNext := rfl
@[simp] theorem State.setGroup_ringSeq (s : State) (i : Nat) (x : Group) : (s.setGroup i x).ringSeq = s.ringSeq := rfl
@[simp] theorem State.setGroup_lc (s : State) (i : Nat) (x : Group) : (s.setGroup i x).lc = s.lc := rfl
@[simp] theorem State.setGroup_lcBusy (s : State) (i : Nat) (x : Group) : (s.setGroup i x).lcBusy = s.lcBusy := rfl
@[simp] theorem State.setGroup_fwTarget (s : State) (i : Nat) (x : Group) : (s.setGroup i x).fwTarget = s.fwTarget := rfl
@[simp] theorem State.setGroup_signKeys (s : State) (i : Nat) (x : Group) : (s.setGroup i x).signKeys = s.signKeys := rfl
@[simp] theorem State.setGroup_spot (s : State) (i : Nat) (x : Group) : (s.setGroup i x).spot = s.spot := rfl
@[simp] theorem State.setGroup_bearAt (s : State) (i : Nat) (x : Group) : (s.setGroup i x).bearAt = s.bearAt := rfl
@[simp] theorem State.setGroup_wins (s : State) (i : Nat) (x : Group) : (s.setGroup i x).wins = s.wins := rfl
@[simp] theorem State.setGroup_wrules (s : State) (i : Nat) (x : Group) : (s.setGroup i x).wrules = s.wrules := rfl
@[simp] theorem State.setGroup_wioDown (s : State) (i : Nat) (x : Group) : (s.setGroup i x).wioDown = s.wioDown := rfl
@[simp] theorem State.setGroup_base (s : State) (i : Nat) (x : Group) : (s.setGroup i x).base = s.base := rfl
@[simp] theorem State.setGroup_pllOff (s : State) (i : Nat) (x : Group) : (s.setGroup i x).pllOff = s.pllOff := rfl
@[simp] theorem State.setGroup_cmLast (s : State) (i : Nat) (x : Group) : (s.setGroup i x).cmLast = s.cmLast := rfl
@[simp] theorem State.setGroup_clrAt (s : State) (i : Nat) (x : Group) : (s.setGroup i x).clrAt = s.clrAt := rfl
@[simp] theorem State.setGroup_syncAt (s : State) (i : Nat) (x : Group) : (s.setGroup i x).syncAt = s.syncAt := rfl
@[simp] theorem State.setGroup_trgAt (s : State) (i : Nat) (x : Group) : (s.setGroup i x).trgAt = s.trgAt := rfl
@[simp] theorem State.setGroup_snapHeld (s : State) (i : Nat) (x : Group) : (s.setGroup i x).snapHeld = s.snapHeld := rfl
@[simp] theorem State.setGroup_resets (s : State) (i : Nat) (x : Group) : (s.setGroup i x).resets = s.resets := rfl
@[simp] theorem State.setGroup_accounts (s : State) (i : Nat) (x : Group) : (s.setGroup i x).accounts = s.accounts := rfl
@[simp] theorem State.setGroup_refillAt (s : State) (i : Nat) (x : Group) : (s.setGroup i x).refillAt = s.refillAt := rfl
@[simp] theorem State.setGroup_grants (s : State) (i : Nat) (x : Group) : (s.setGroup i x).grants = s.grants := rfl
@[simp] theorem State.setGroup_bandMoved (s : State) (i : Nat) (x : Group) : (s.setGroup i x).bandMoved = s.bandMoved := rfl
@[simp] theorem State.setGroup_thrJudged (s : State) (i : Nat) (x : Group) : (s.setGroup i x).thrJudged = s.thrJudged := rfl
@[simp] theorem State.setGroup_spareLeft (s : State) (i : Nat) (x : Group) : (s.setGroup i x).spareLeft = s.spareLeft := rfl
@[simp] theorem State.setGroup_aerLog (s : State) (i : Nat) (x : Group) : (s.setGroup i x).aerLog = s.aerLog := rfl
@[simp] theorem State.setGroup_loading (s : State) (i : Nat) (x : Group) : (s.setGroup i x).loading = s.loading := rfl
@[simp] theorem State.setGroup_channels (s : State) (i : Nat) (x : Group) : (s.setGroup i x).channels = s.channels := rfl
@[simp] theorem State.setGroup_traceLast (s : State) (i : Nat) (x : Group) : (s.setGroup i x).traceLast = s.traceLast := rfl
@[simp] theorem State.setGroup_counters (s : State) (i : Nat) (x : Group) : (s.setGroup i x).counters = s.counters := rfl
@[simp] theorem State.setGroup_spotDue (s : State) (i : Nat) (x : Group) : (s.setGroup i x).spotDue = s.spotDue := rfl
@[simp] theorem State.setGroup_heldRules (s : State) (i : Nat) (x : Group) : (s.setGroup i x).heldRules = s.heldRules := rfl
@[simp] theorem State.setGroup_outMarks (s : State) (i : Nat) (x : Group) : (s.setGroup i x).outMarks = s.outMarks := rfl
@[simp] theorem State.setPart_pending (s : State) (i : Nat) (x : Option Partition) : (s.setPart i x).pending = s.pending := rfl
@[simp] theorem State.setPart_time (s : State) (i : Nat) (x : Option Partition) : (s.setPart i x).time = s.time := rfl
@[simp] theorem State.setPart_fresh (s : State) (i : Nat) (x : Option Partition) : (s.setPart i x).fresh = s.fresh := rfl
@[simp] theorem State.setPart_out (s : State) (i : Nat) (x : Option Partition) : (s.setPart i x).out = s.out := rfl
@[simp] theorem State.setPart_regs (s : State) (i : Nat) (x : Option Partition) : (s.setPart i x).regs = s.regs := rfl
@[simp] theorem State.setPart_latches (s : State) (i : Nat) (x : Option Partition) : (s.setPart i x).latches = s.latches := rfl
@[simp] theorem State.setPart_sram (s : State) (i : Nat) (x : Option Partition) : (s.setPart i x).sram = s.sram := rfl
@[simp] theorem State.setPart_ecc (s : State) (i : Nat) (x : Option Partition) : (s.setPart i x).ecc = s.ecc := rfl
@[simp] theorem State.setPart_cmWait (s : State) (i : Nat) (x : Option Partition) : (s.setPart i x).cmWait = s.cmWait := rfl
@[simp] theorem State.setPart_tokenPool (s : State) (i : Nat) (x : Option Partition) : (s.setPart i x).tokenPool = s.tokenPool := rfl
@[simp] theorem State.setPart_tokenHeld (s : State) (i : Nat) (x : Option Partition) : (s.setPart i x).tokenHeld = s.tokenHeld := rfl
@[simp] theorem State.setPart_tokenWait (s : State) (i : Nat) (x : Option Partition) : (s.setPart i x).tokenWait = s.tokenWait := rfl
@[simp] theorem State.setPart_cells (s : State) (i : Nat) (x : Option Partition) : (s.setPart i x).cells = s.cells := rfl
@[simp] theorem State.setPart_engines (s : State) (i : Nat) (x : Option Partition) : (s.setPart i x).engines = s.engines := rfl
@[simp] theorem State.setPart_trackers (s : State) (i : Nat) (x : Option Partition) : (s.setPart i x).trackers = s.trackers := rfl
@[simp] theorem State.setPart_trims (s : State) (i : Nat) (x : Option Partition) : (s.setPart i x).trims = s.trims := rfl
@[simp] theorem State.setPart_passes (s : State) (i : Nat) (x : Option Partition) : (s.setPart i x).passes = s.passes := rfl
@[simp] theorem State.setPart_bandTime (s : State) (i : Nat) (x : Option Partition) : (s.setPart i x).bandTime = s.bandTime := rfl
@[simp] theorem State.setPart_bandAt (s : State) (i : Nat) (x : Option Partition) : (s.setPart i x).bandAt = s.bandAt := rfl
@[simp] theorem State.setPart_adderFree (s : State) (i : Nat) (x : Option Partition) : (s.setPart i x).adderFree = s.adderFree := rfl
@[simp] theorem State.setPart_ocus (s : State) (i : Nat) (x : Option Partition) : (s.setPart i x).ocus = s.ocus := rfl
@[simp] theorem State.setPart_owls (s : State) (i : Nat) (x : Option Partition) : (s.setPart i x).owls = s.owls := rfl
@[simp] theorem State.setPart_dac (s : State) (i : Nat) (x : Option Partition) : (s.setPart i x).dac = s.dac := rfl
@[simp] theorem State.setPart_rings (s : State) (i : Nat) (x : Option Partition) : (s.setPart i x).rings = s.rings := rfl
@[simp] theorem State.setPart_stations (s : State) (i : Nat) (x : Option Partition) : (s.setPart i x).stations = s.stations := rfl
@[simp] theorem State.setPart_tiles (s : State) (i : Nat) (x : Option Partition) : (s.setPart i x).tiles = s.tiles := rfl
@[simp] theorem State.setPart_tmvs (s : State) (i : Nat) (x : Option Partition) : (s.setPart i x).tmvs = s.tmvs := rfl
@[simp] theorem State.setPart_ctxs (s : State) (i : Nat) (x : Option Partition) : (s.setPart i x).ctxs = s.ctxs := rfl
@[simp] theorem State.setPart_ingests (s : State) (i : Nat) (x : Option Partition) : (s.setPart i x).ingests = s.ingests := rfl
@[simp] theorem State.setPart_offers (s : State) (i : Nat) (x : Option Partition) : (s.setPart i x).offers = s.offers := rfl
@[simp] theorem State.setPart_scrubs (s : State) (i : Nat) (x : Option Partition) : (s.setPart i x).scrubs = s.scrubs := rfl
@[simp] theorem State.setPart_busy (s : State) (i : Nat) (x : Option Partition) : (s.setPart i x).busy = s.busy := rfl
@[simp] theorem State.setPart_ports (s : State) (i : Nat) (x : Option Partition) : (s.setPart i x).ports = s.ports := rfl
@[simp] theorem State.setPart_threads (s : State) (i : Nat) (x : Option Partition) : (s.setPart i x).threads = s.threads := rfl
@[simp] theorem State.setPart_flights (s : State) (i : Nat) (x : Option Partition) : (s.setPart i x).flights = s.flights := rfl
@[simp] theorem State.setPart_groups (s : State) (i : Nat) (x : Option Partition) : (s.setPart i x).groups = s.groups := rfl
@[simp] theorem State.setPart_sets (s : State) (i : Nat) (x : Option Partition) : (s.setPart i x).sets = s.sets := rfl
@[simp] theorem State.setPart_snaps (s : State) (i : Nat) (x : Option Partition) : (s.setPart i x).snaps = s.snaps := rfl
@[simp] theorem State.setPart_placed (s : State) (i : Nat) (x : Option Partition) : (s.setPart i x).placed = s.placed := rfl
@[simp] theorem State.setPart_jobs (s : State) (i : Nat) (x : Option Partition) : (s.setPart i x).jobs = s.jobs := rfl
@[simp] theorem State.setPart_beavers (s : State) (i : Nat) (x : Option Partition) : (s.setPart i x).beavers = s.beavers := rfl
@[simp] theorem State.setPart_turn (s : State) (i : Nat) (x : Option Partition) : (s.setPart i x).turn = s.turn := rfl
@[simp] theorem State.setPart_shards (s : State) (i : Nat) (x : Option Partition) : (s.setPart i x).shards = s.shards := rfl
@[simp] theorem State.setPart_modelKeys (s : State) (i : Nat) (x : Option Partition) : (s.setPart i x).modelKeys = s.modelKeys := rfl
@[simp] theorem State.setPart_shadows (s : State) (i : Nat) (x : Option Partition) : (s.setPart i x).shadows = s.shadows := rfl
@[simp] theorem State.setPart_weak (s : State) (i : Nat) (x : Option Partition) : (s.setPart i x).weak = s.weak := rfl
@[simp] theorem State.setPart_buckets (s : State) (i : Nat) (x : Option Partition) : (s.setPart i x).buckets = s.buckets := rfl
@[simp] theorem State.setPart_bucketAt (s : State) (i : Nat) (x : Option Partition) : (s.setPart i x).bucketAt = s.bucketAt := rfl
@[simp] theorem State.setPart_fns (s : State) (i : Nat) (x : Option Partition) : (s.setPart i x).fns = s.fns := rfl
@[simp] theorem State.setPart_numVfs (s : State) (i : Nat) (x : Option Partition) : (s.setPart i x).numVfs = s.numVfs := rfl
@[simp] theorem State.setPart_accepted (s : State) (i : Nat) (x : Option Partition) : (s.setPart i x).accepted = s.accepted := rfl
@[simp] theorem State.setPart_pba (s : State) (i : Nat) (x : Option Partition) : (s.setPart i x).pba = s.pba := rfl
@[simp] theorem State.setPart_events (s : State) (i : Nat) (x : Option Partition) : (s.setPart i x).events = s.events := rfl
@[simp] theorem State.setPart_traces (s : State) (i : Nat) (x : Option Partition) : (s.setPart i x).traces = s.traces := rfl
@[simp] theorem State.setPart_traceSeq (s : State) (i : Nat) (x : Option Partition) : (s.setPart i x).traceSeq = s.traceSeq := rfl
@[simp] theorem State.setPart_points (s : State) (i : Nat) (x : Option Partition) : (s.setPart i x).points = s.points := rfl
@[simp] theorem State.setPart_twLatch (s : State) (i : Nat) (x : Option Partition) : (s.setPart i x).twLatch = s.twLatch := rfl
@[simp] theorem State.setPart_digests (s : State) (i : Nat) (x : Option Partition) : (s.setPart i x).digests = s.digests := rfl
@[simp] theorem State.setPart_tencs (s : State) (i : Nat) (x : Option Partition) : (s.setPart i x).tencs = s.tencs := rfl
@[simp] theorem State.setPart_totals (s : State) (i : Nat) (x : Option Partition) : (s.setPart i x).totals = s.totals := rfl
@[simp] theorem State.setPart_links (s : State) (i : Nat) (x : Option Partition) : (s.setPart i x).links = s.links := rfl
@[simp] theorem State.setPart_domain (s : State) (i : Nat) (x : Option Partition) : (s.setPart i x).domain = s.domain := rfl
@[simp] theorem State.setPart_offsets (s : State) (i : Nat) (x : Option Partition) : (s.setPart i x).offsets = s.offsets := rfl
@[simp] theorem State.setPart_wakes (s : State) (i : Nat) (x : Option Partition) : (s.setPart i x).wakes = s.wakes := rfl
@[simp] theorem State.setPart_norA (s : State) (i : Nat) (x : Option Partition) : (s.setPart i x).norA = s.norA := rfl
@[simp] theorem State.setPart_norB (s : State) (i : Nat) (x : Option Partition) : (s.setPart i x).norB = s.norB := rfl
@[simp] theorem State.setPart_image (s : State) (i : Nat) (x : Option Partition) : (s.setPart i x).image = s.image := rfl
@[simp] theorem State.setPart_perst (s : State) (i : Nat) (x : Option Partition) : (s.setPart i x).perst = s.perst := rfl
@[simp] theorem State.setPart_wakeAsked (s : State) (i : Nat) (x : Option Partition) : (s.setPart i x).wakeAsked = s.wakeAsked := rfl
@[simp] theorem State.setPart_shutRec (s : State) (i : Nat) (x : Option Partition) : (s.setPart i x).shutRec = s.shutRec := rfl
@[simp] theorem State.setPart_calRec (s : State) (i : Nat) (x : Option Partition) : (s.setPart i x).calRec = s.calRec := rfl
@[simp] theorem State.setPart_capNow (s : State) (i : Nat) (x : Option Partition) : (s.setPart i x).capNow = s.capNow := rfl
@[simp] theorem State.setPart_pgmFault (s : State) (i : Nat) (x : Option Partition) : (s.setPart i x).pgmFault = s.pgmFault := rfl
@[simp] theorem State.setPart_regFails (s : State) (i : Nat) (x : Option Partition) : (s.setPart i x).regFails = s.regFails := rfl
@[simp] theorem State.setPart_regTried (s : State) (i : Nat) (x : Option Partition) : (s.setPart i x).regTried = s.regTried := rfl
@[simp] theorem State.setPart_avs (s : State) (i : Nat) (x : Option Partition) : (s.setPart i x).avs = s.avs := rfl
@[simp] theorem State.setPart_sensors (s : State) (i : Nat) (x : Option Partition) : (s.setPart i x).sensors = s.sensors := rfl
@[simp] theorem State.setPart_medPrev (s : State) (i : Nat) (x : Option Partition) : (s.setPart i x).medPrev = s.medPrev := rfl
@[simp] theorem State.setPart_deadCls (s : State) (i : Nat) (x : Option Partition) : (s.setPart i x).deadCls = s.deadCls := rfl
@[simp] theorem State.setPart_onAt (s : State) (i : Nat) (x : Option Partition) : (s.setPart i x).onAt = s.onAt := rfl
@[simp] theorem State.setPart_onCl (s : State) (i : Nat) (x : Option Partition) : (s.setPart i x).onCl = s.onCl := rfl
@[simp] theorem State.setPart_settMem (s : State) (i : Nat) (x : Option Partition) : (s.setPart i x).settMem = s.settMem := rfl
@[simp] theorem State.setPart_settBuf (s : State) (i : Nat) (x : Option Partition) : (s.setPart i x).settBuf = s.settBuf := rfl
@[simp] theorem State.setPart_settList (s : State) (i : Nat) (x : Option Partition) : (s.setPart i x).settList = s.settList := rfl
@[simp] theorem State.setPart_settQueue (s : State) (i : Nat) (x : Option Partition) : (s.setPart i x).settQueue = s.settQueue := rfl
@[simp] theorem State.setPart_settCommits (s : State) (i : Nat) (x : Option Partition) : (s.setPart i x).settCommits = s.settCommits := rfl
@[simp] theorem State.setPart_settRefreshes (s : State) (i : Nat) (x : Option Partition) : (s.setPart i x).settRefreshes = s.settRefreshes := rfl
@[simp] theorem State.setPart_ringNext (s : State) (i : Nat) (x : Option Partition) : (s.setPart i x).ringNext = s.ringNext := rfl
@[simp] theorem State.setPart_ringSeq (s : State) (i : Nat) (x : Option Partition) : (s.setPart i x).ringSeq = s.ringSeq := rfl
@[simp] theorem State.setPart_lc (s : State) (i : Nat) (x : Option Partition) : (s.setPart i x).lc = s.lc := rfl
@[simp] theorem State.setPart_lcBusy (s : State) (i : Nat) (x : Option Partition) : (s.setPart i x).lcBusy = s.lcBusy := rfl
@[simp] theorem State.setPart_fwTarget (s : State) (i : Nat) (x : Option Partition) : (s.setPart i x).fwTarget = s.fwTarget := rfl
@[simp] theorem State.setPart_signKeys (s : State) (i : Nat) (x : Option Partition) : (s.setPart i x).signKeys = s.signKeys := rfl
@[simp] theorem State.setPart_spot (s : State) (i : Nat) (x : Option Partition) : (s.setPart i x).spot = s.spot := rfl
@[simp] theorem State.setPart_bearAt (s : State) (i : Nat) (x : Option Partition) : (s.setPart i x).bearAt = s.bearAt := rfl
@[simp] theorem State.setPart_wins (s : State) (i : Nat) (x : Option Partition) : (s.setPart i x).wins = s.wins := rfl
@[simp] theorem State.setPart_wrules (s : State) (i : Nat) (x : Option Partition) : (s.setPart i x).wrules = s.wrules := rfl
@[simp] theorem State.setPart_wioDown (s : State) (i : Nat) (x : Option Partition) : (s.setPart i x).wioDown = s.wioDown := rfl
@[simp] theorem State.setPart_base (s : State) (i : Nat) (x : Option Partition) : (s.setPart i x).base = s.base := rfl
@[simp] theorem State.setPart_pllOff (s : State) (i : Nat) (x : Option Partition) : (s.setPart i x).pllOff = s.pllOff := rfl
@[simp] theorem State.setPart_cmLast (s : State) (i : Nat) (x : Option Partition) : (s.setPart i x).cmLast = s.cmLast := rfl
@[simp] theorem State.setPart_clrAt (s : State) (i : Nat) (x : Option Partition) : (s.setPart i x).clrAt = s.clrAt := rfl
@[simp] theorem State.setPart_syncAt (s : State) (i : Nat) (x : Option Partition) : (s.setPart i x).syncAt = s.syncAt := rfl
@[simp] theorem State.setPart_trgAt (s : State) (i : Nat) (x : Option Partition) : (s.setPart i x).trgAt = s.trgAt := rfl
@[simp] theorem State.setPart_snapHeld (s : State) (i : Nat) (x : Option Partition) : (s.setPart i x).snapHeld = s.snapHeld := rfl
@[simp] theorem State.setPart_resets (s : State) (i : Nat) (x : Option Partition) : (s.setPart i x).resets = s.resets := rfl
@[simp] theorem State.setPart_accounts (s : State) (i : Nat) (x : Option Partition) : (s.setPart i x).accounts = s.accounts := rfl
@[simp] theorem State.setPart_refillAt (s : State) (i : Nat) (x : Option Partition) : (s.setPart i x).refillAt = s.refillAt := rfl
@[simp] theorem State.setPart_grants (s : State) (i : Nat) (x : Option Partition) : (s.setPart i x).grants = s.grants := rfl
@[simp] theorem State.setPart_bandMoved (s : State) (i : Nat) (x : Option Partition) : (s.setPart i x).bandMoved = s.bandMoved := rfl
@[simp] theorem State.setPart_thrJudged (s : State) (i : Nat) (x : Option Partition) : (s.setPart i x).thrJudged = s.thrJudged := rfl
@[simp] theorem State.setPart_spareLeft (s : State) (i : Nat) (x : Option Partition) : (s.setPart i x).spareLeft = s.spareLeft := rfl
@[simp] theorem State.setPart_aerLog (s : State) (i : Nat) (x : Option Partition) : (s.setPart i x).aerLog = s.aerLog := rfl
@[simp] theorem State.setPart_loading (s : State) (i : Nat) (x : Option Partition) : (s.setPart i x).loading = s.loading := rfl
@[simp] theorem State.setPart_channels (s : State) (i : Nat) (x : Option Partition) : (s.setPart i x).channels = s.channels := rfl
@[simp] theorem State.setPart_traceLast (s : State) (i : Nat) (x : Option Partition) : (s.setPart i x).traceLast = s.traceLast := rfl
@[simp] theorem State.setPart_counters (s : State) (i : Nat) (x : Option Partition) : (s.setPart i x).counters = s.counters := rfl
@[simp] theorem State.setPart_spotDue (s : State) (i : Nat) (x : Option Partition) : (s.setPart i x).spotDue = s.spotDue := rfl
@[simp] theorem State.setPart_heldRules (s : State) (i : Nat) (x : Option Partition) : (s.setPart i x).heldRules = s.heldRules := rfl
@[simp] theorem State.setPart_outMarks (s : State) (i : Nat) (x : Option Partition) : (s.setPart i x).outMarks = s.outMarks := rfl
@[simp] theorem State.setFn_pending (s : State) (i : Nat) (x : Function) : (s.setFn i x).pending = s.pending := rfl
@[simp] theorem State.setFn_time (s : State) (i : Nat) (x : Function) : (s.setFn i x).time = s.time := rfl
@[simp] theorem State.setFn_fresh (s : State) (i : Nat) (x : Function) : (s.setFn i x).fresh = s.fresh := rfl
@[simp] theorem State.setFn_out (s : State) (i : Nat) (x : Function) : (s.setFn i x).out = s.out := rfl
@[simp] theorem State.setFn_regs (s : State) (i : Nat) (x : Function) : (s.setFn i x).regs = s.regs := rfl
@[simp] theorem State.setFn_latches (s : State) (i : Nat) (x : Function) : (s.setFn i x).latches = s.latches := rfl
@[simp] theorem State.setFn_sram (s : State) (i : Nat) (x : Function) : (s.setFn i x).sram = s.sram := rfl
@[simp] theorem State.setFn_ecc (s : State) (i : Nat) (x : Function) : (s.setFn i x).ecc = s.ecc := rfl
@[simp] theorem State.setFn_cmWait (s : State) (i : Nat) (x : Function) : (s.setFn i x).cmWait = s.cmWait := rfl
@[simp] theorem State.setFn_tokenPool (s : State) (i : Nat) (x : Function) : (s.setFn i x).tokenPool = s.tokenPool := rfl
@[simp] theorem State.setFn_tokenHeld (s : State) (i : Nat) (x : Function) : (s.setFn i x).tokenHeld = s.tokenHeld := rfl
@[simp] theorem State.setFn_tokenWait (s : State) (i : Nat) (x : Function) : (s.setFn i x).tokenWait = s.tokenWait := rfl
@[simp] theorem State.setFn_cells (s : State) (i : Nat) (x : Function) : (s.setFn i x).cells = s.cells := rfl
@[simp] theorem State.setFn_engines (s : State) (i : Nat) (x : Function) : (s.setFn i x).engines = s.engines := rfl
@[simp] theorem State.setFn_trackers (s : State) (i : Nat) (x : Function) : (s.setFn i x).trackers = s.trackers := rfl
@[simp] theorem State.setFn_trims (s : State) (i : Nat) (x : Function) : (s.setFn i x).trims = s.trims := rfl
@[simp] theorem State.setFn_passes (s : State) (i : Nat) (x : Function) : (s.setFn i x).passes = s.passes := rfl
@[simp] theorem State.setFn_bandTime (s : State) (i : Nat) (x : Function) : (s.setFn i x).bandTime = s.bandTime := rfl
@[simp] theorem State.setFn_bandAt (s : State) (i : Nat) (x : Function) : (s.setFn i x).bandAt = s.bandAt := rfl
@[simp] theorem State.setFn_adderFree (s : State) (i : Nat) (x : Function) : (s.setFn i x).adderFree = s.adderFree := rfl
@[simp] theorem State.setFn_ocus (s : State) (i : Nat) (x : Function) : (s.setFn i x).ocus = s.ocus := rfl
@[simp] theorem State.setFn_owls (s : State) (i : Nat) (x : Function) : (s.setFn i x).owls = s.owls := rfl
@[simp] theorem State.setFn_dac (s : State) (i : Nat) (x : Function) : (s.setFn i x).dac = s.dac := rfl
@[simp] theorem State.setFn_rings (s : State) (i : Nat) (x : Function) : (s.setFn i x).rings = s.rings := rfl
@[simp] theorem State.setFn_stations (s : State) (i : Nat) (x : Function) : (s.setFn i x).stations = s.stations := rfl
@[simp] theorem State.setFn_tiles (s : State) (i : Nat) (x : Function) : (s.setFn i x).tiles = s.tiles := rfl
@[simp] theorem State.setFn_tmvs (s : State) (i : Nat) (x : Function) : (s.setFn i x).tmvs = s.tmvs := rfl
@[simp] theorem State.setFn_ctxs (s : State) (i : Nat) (x : Function) : (s.setFn i x).ctxs = s.ctxs := rfl
@[simp] theorem State.setFn_ingests (s : State) (i : Nat) (x : Function) : (s.setFn i x).ingests = s.ingests := rfl
@[simp] theorem State.setFn_offers (s : State) (i : Nat) (x : Function) : (s.setFn i x).offers = s.offers := rfl
@[simp] theorem State.setFn_scrubs (s : State) (i : Nat) (x : Function) : (s.setFn i x).scrubs = s.scrubs := rfl
@[simp] theorem State.setFn_busy (s : State) (i : Nat) (x : Function) : (s.setFn i x).busy = s.busy := rfl
@[simp] theorem State.setFn_ports (s : State) (i : Nat) (x : Function) : (s.setFn i x).ports = s.ports := rfl
@[simp] theorem State.setFn_threads (s : State) (i : Nat) (x : Function) : (s.setFn i x).threads = s.threads := rfl
@[simp] theorem State.setFn_flights (s : State) (i : Nat) (x : Function) : (s.setFn i x).flights = s.flights := rfl
@[simp] theorem State.setFn_groups (s : State) (i : Nat) (x : Function) : (s.setFn i x).groups = s.groups := rfl
@[simp] theorem State.setFn_sets (s : State) (i : Nat) (x : Function) : (s.setFn i x).sets = s.sets := rfl
@[simp] theorem State.setFn_snaps (s : State) (i : Nat) (x : Function) : (s.setFn i x).snaps = s.snaps := rfl
@[simp] theorem State.setFn_parts (s : State) (i : Nat) (x : Function) : (s.setFn i x).parts = s.parts := rfl
@[simp] theorem State.setFn_placed (s : State) (i : Nat) (x : Function) : (s.setFn i x).placed = s.placed := rfl
@[simp] theorem State.setFn_jobs (s : State) (i : Nat) (x : Function) : (s.setFn i x).jobs = s.jobs := rfl
@[simp] theorem State.setFn_beavers (s : State) (i : Nat) (x : Function) : (s.setFn i x).beavers = s.beavers := rfl
@[simp] theorem State.setFn_turn (s : State) (i : Nat) (x : Function) : (s.setFn i x).turn = s.turn := rfl
@[simp] theorem State.setFn_shards (s : State) (i : Nat) (x : Function) : (s.setFn i x).shards = s.shards := rfl
@[simp] theorem State.setFn_modelKeys (s : State) (i : Nat) (x : Function) : (s.setFn i x).modelKeys = s.modelKeys := rfl
@[simp] theorem State.setFn_shadows (s : State) (i : Nat) (x : Function) : (s.setFn i x).shadows = s.shadows := rfl
@[simp] theorem State.setFn_weak (s : State) (i : Nat) (x : Function) : (s.setFn i x).weak = s.weak := rfl
@[simp] theorem State.setFn_buckets (s : State) (i : Nat) (x : Function) : (s.setFn i x).buckets = s.buckets := rfl
@[simp] theorem State.setFn_bucketAt (s : State) (i : Nat) (x : Function) : (s.setFn i x).bucketAt = s.bucketAt := rfl
@[simp] theorem State.setFn_numVfs (s : State) (i : Nat) (x : Function) : (s.setFn i x).numVfs = s.numVfs := rfl
@[simp] theorem State.setFn_accepted (s : State) (i : Nat) (x : Function) : (s.setFn i x).accepted = s.accepted := rfl
@[simp] theorem State.setFn_pba (s : State) (i : Nat) (x : Function) : (s.setFn i x).pba = s.pba := rfl
@[simp] theorem State.setFn_events (s : State) (i : Nat) (x : Function) : (s.setFn i x).events = s.events := rfl
@[simp] theorem State.setFn_traces (s : State) (i : Nat) (x : Function) : (s.setFn i x).traces = s.traces := rfl
@[simp] theorem State.setFn_traceSeq (s : State) (i : Nat) (x : Function) : (s.setFn i x).traceSeq = s.traceSeq := rfl
@[simp] theorem State.setFn_points (s : State) (i : Nat) (x : Function) : (s.setFn i x).points = s.points := rfl
@[simp] theorem State.setFn_twLatch (s : State) (i : Nat) (x : Function) : (s.setFn i x).twLatch = s.twLatch := rfl
@[simp] theorem State.setFn_digests (s : State) (i : Nat) (x : Function) : (s.setFn i x).digests = s.digests := rfl
@[simp] theorem State.setFn_tencs (s : State) (i : Nat) (x : Function) : (s.setFn i x).tencs = s.tencs := rfl
@[simp] theorem State.setFn_totals (s : State) (i : Nat) (x : Function) : (s.setFn i x).totals = s.totals := rfl
@[simp] theorem State.setFn_links (s : State) (i : Nat) (x : Function) : (s.setFn i x).links = s.links := rfl
@[simp] theorem State.setFn_domain (s : State) (i : Nat) (x : Function) : (s.setFn i x).domain = s.domain := rfl
@[simp] theorem State.setFn_offsets (s : State) (i : Nat) (x : Function) : (s.setFn i x).offsets = s.offsets := rfl
@[simp] theorem State.setFn_wakes (s : State) (i : Nat) (x : Function) : (s.setFn i x).wakes = s.wakes := rfl
@[simp] theorem State.setFn_norA (s : State) (i : Nat) (x : Function) : (s.setFn i x).norA = s.norA := rfl
@[simp] theorem State.setFn_norB (s : State) (i : Nat) (x : Function) : (s.setFn i x).norB = s.norB := rfl
@[simp] theorem State.setFn_image (s : State) (i : Nat) (x : Function) : (s.setFn i x).image = s.image := rfl
@[simp] theorem State.setFn_perst (s : State) (i : Nat) (x : Function) : (s.setFn i x).perst = s.perst := rfl
@[simp] theorem State.setFn_wakeAsked (s : State) (i : Nat) (x : Function) : (s.setFn i x).wakeAsked = s.wakeAsked := rfl
@[simp] theorem State.setFn_shutRec (s : State) (i : Nat) (x : Function) : (s.setFn i x).shutRec = s.shutRec := rfl
@[simp] theorem State.setFn_calRec (s : State) (i : Nat) (x : Function) : (s.setFn i x).calRec = s.calRec := rfl
@[simp] theorem State.setFn_capNow (s : State) (i : Nat) (x : Function) : (s.setFn i x).capNow = s.capNow := rfl
@[simp] theorem State.setFn_pgmFault (s : State) (i : Nat) (x : Function) : (s.setFn i x).pgmFault = s.pgmFault := rfl
@[simp] theorem State.setFn_regFails (s : State) (i : Nat) (x : Function) : (s.setFn i x).regFails = s.regFails := rfl
@[simp] theorem State.setFn_regTried (s : State) (i : Nat) (x : Function) : (s.setFn i x).regTried = s.regTried := rfl
@[simp] theorem State.setFn_avs (s : State) (i : Nat) (x : Function) : (s.setFn i x).avs = s.avs := rfl
@[simp] theorem State.setFn_sensors (s : State) (i : Nat) (x : Function) : (s.setFn i x).sensors = s.sensors := rfl
@[simp] theorem State.setFn_medPrev (s : State) (i : Nat) (x : Function) : (s.setFn i x).medPrev = s.medPrev := rfl
@[simp] theorem State.setFn_deadCls (s : State) (i : Nat) (x : Function) : (s.setFn i x).deadCls = s.deadCls := rfl
@[simp] theorem State.setFn_onAt (s : State) (i : Nat) (x : Function) : (s.setFn i x).onAt = s.onAt := rfl
@[simp] theorem State.setFn_onCl (s : State) (i : Nat) (x : Function) : (s.setFn i x).onCl = s.onCl := rfl
@[simp] theorem State.setFn_settMem (s : State) (i : Nat) (x : Function) : (s.setFn i x).settMem = s.settMem := rfl
@[simp] theorem State.setFn_settBuf (s : State) (i : Nat) (x : Function) : (s.setFn i x).settBuf = s.settBuf := rfl
@[simp] theorem State.setFn_settList (s : State) (i : Nat) (x : Function) : (s.setFn i x).settList = s.settList := rfl
@[simp] theorem State.setFn_settQueue (s : State) (i : Nat) (x : Function) : (s.setFn i x).settQueue = s.settQueue := rfl
@[simp] theorem State.setFn_settCommits (s : State) (i : Nat) (x : Function) : (s.setFn i x).settCommits = s.settCommits := rfl
@[simp] theorem State.setFn_settRefreshes (s : State) (i : Nat) (x : Function) : (s.setFn i x).settRefreshes = s.settRefreshes := rfl
@[simp] theorem State.setFn_ringNext (s : State) (i : Nat) (x : Function) : (s.setFn i x).ringNext = s.ringNext := rfl
@[simp] theorem State.setFn_ringSeq (s : State) (i : Nat) (x : Function) : (s.setFn i x).ringSeq = s.ringSeq := rfl
@[simp] theorem State.setFn_lc (s : State) (i : Nat) (x : Function) : (s.setFn i x).lc = s.lc := rfl
@[simp] theorem State.setFn_lcBusy (s : State) (i : Nat) (x : Function) : (s.setFn i x).lcBusy = s.lcBusy := rfl
@[simp] theorem State.setFn_fwTarget (s : State) (i : Nat) (x : Function) : (s.setFn i x).fwTarget = s.fwTarget := rfl
@[simp] theorem State.setFn_signKeys (s : State) (i : Nat) (x : Function) : (s.setFn i x).signKeys = s.signKeys := rfl
@[simp] theorem State.setFn_spot (s : State) (i : Nat) (x : Function) : (s.setFn i x).spot = s.spot := rfl
@[simp] theorem State.setFn_bearAt (s : State) (i : Nat) (x : Function) : (s.setFn i x).bearAt = s.bearAt := rfl
@[simp] theorem State.setFn_wins (s : State) (i : Nat) (x : Function) : (s.setFn i x).wins = s.wins := rfl
@[simp] theorem State.setFn_wrules (s : State) (i : Nat) (x : Function) : (s.setFn i x).wrules = s.wrules := rfl
@[simp] theorem State.setFn_wioDown (s : State) (i : Nat) (x : Function) : (s.setFn i x).wioDown = s.wioDown := rfl
@[simp] theorem State.setFn_base (s : State) (i : Nat) (x : Function) : (s.setFn i x).base = s.base := rfl
@[simp] theorem State.setFn_pllOff (s : State) (i : Nat) (x : Function) : (s.setFn i x).pllOff = s.pllOff := rfl
@[simp] theorem State.setFn_cmLast (s : State) (i : Nat) (x : Function) : (s.setFn i x).cmLast = s.cmLast := rfl
@[simp] theorem State.setFn_clrAt (s : State) (i : Nat) (x : Function) : (s.setFn i x).clrAt = s.clrAt := rfl
@[simp] theorem State.setFn_syncAt (s : State) (i : Nat) (x : Function) : (s.setFn i x).syncAt = s.syncAt := rfl
@[simp] theorem State.setFn_trgAt (s : State) (i : Nat) (x : Function) : (s.setFn i x).trgAt = s.trgAt := rfl
@[simp] theorem State.setFn_snapHeld (s : State) (i : Nat) (x : Function) : (s.setFn i x).snapHeld = s.snapHeld := rfl
@[simp] theorem State.setFn_resets (s : State) (i : Nat) (x : Function) : (s.setFn i x).resets = s.resets := rfl
@[simp] theorem State.setFn_accounts (s : State) (i : Nat) (x : Function) : (s.setFn i x).accounts = s.accounts := rfl
@[simp] theorem State.setFn_refillAt (s : State) (i : Nat) (x : Function) : (s.setFn i x).refillAt = s.refillAt := rfl
@[simp] theorem State.setFn_grants (s : State) (i : Nat) (x : Function) : (s.setFn i x).grants = s.grants := rfl
@[simp] theorem State.setFn_bandMoved (s : State) (i : Nat) (x : Function) : (s.setFn i x).bandMoved = s.bandMoved := rfl
@[simp] theorem State.setFn_thrJudged (s : State) (i : Nat) (x : Function) : (s.setFn i x).thrJudged = s.thrJudged := rfl
@[simp] theorem State.setFn_spareLeft (s : State) (i : Nat) (x : Function) : (s.setFn i x).spareLeft = s.spareLeft := rfl
@[simp] theorem State.setFn_aerLog (s : State) (i : Nat) (x : Function) : (s.setFn i x).aerLog = s.aerLog := rfl
@[simp] theorem State.setFn_loading (s : State) (i : Nat) (x : Function) : (s.setFn i x).loading = s.loading := rfl
@[simp] theorem State.setFn_channels (s : State) (i : Nat) (x : Function) : (s.setFn i x).channels = s.channels := rfl
@[simp] theorem State.setFn_traceLast (s : State) (i : Nat) (x : Function) : (s.setFn i x).traceLast = s.traceLast := rfl
@[simp] theorem State.setFn_counters (s : State) (i : Nat) (x : Function) : (s.setFn i x).counters = s.counters := rfl
@[simp] theorem State.setFn_spotDue (s : State) (i : Nat) (x : Function) : (s.setFn i x).spotDue = s.spotDue := rfl
@[simp] theorem State.setFn_heldRules (s : State) (i : Nat) (x : Function) : (s.setFn i x).heldRules = s.heldRules := rfl
@[simp] theorem State.setFn_outMarks (s : State) (i : Nat) (x : Function) : (s.setFn i x).outMarks = s.outMarks := rfl
@[simp] theorem State.setOcu_pending (s : State) (i : Nat) (x : Ocu) : (s.setOcu i x).pending = s.pending := rfl
@[simp] theorem State.setOcu_time (s : State) (i : Nat) (x : Ocu) : (s.setOcu i x).time = s.time := rfl
@[simp] theorem State.setOcu_fresh (s : State) (i : Nat) (x : Ocu) : (s.setOcu i x).fresh = s.fresh := rfl
@[simp] theorem State.setOcu_out (s : State) (i : Nat) (x : Ocu) : (s.setOcu i x).out = s.out := rfl
@[simp] theorem State.setOcu_regs (s : State) (i : Nat) (x : Ocu) : (s.setOcu i x).regs = s.regs := rfl
@[simp] theorem State.setOcu_latches (s : State) (i : Nat) (x : Ocu) : (s.setOcu i x).latches = s.latches := rfl
@[simp] theorem State.setOcu_sram (s : State) (i : Nat) (x : Ocu) : (s.setOcu i x).sram = s.sram := rfl
@[simp] theorem State.setOcu_ecc (s : State) (i : Nat) (x : Ocu) : (s.setOcu i x).ecc = s.ecc := rfl
@[simp] theorem State.setOcu_cmWait (s : State) (i : Nat) (x : Ocu) : (s.setOcu i x).cmWait = s.cmWait := rfl
@[simp] theorem State.setOcu_tokenPool (s : State) (i : Nat) (x : Ocu) : (s.setOcu i x).tokenPool = s.tokenPool := rfl
@[simp] theorem State.setOcu_tokenHeld (s : State) (i : Nat) (x : Ocu) : (s.setOcu i x).tokenHeld = s.tokenHeld := rfl
@[simp] theorem State.setOcu_tokenWait (s : State) (i : Nat) (x : Ocu) : (s.setOcu i x).tokenWait = s.tokenWait := rfl
@[simp] theorem State.setOcu_cells (s : State) (i : Nat) (x : Ocu) : (s.setOcu i x).cells = s.cells := rfl
@[simp] theorem State.setOcu_engines (s : State) (i : Nat) (x : Ocu) : (s.setOcu i x).engines = s.engines := rfl
@[simp] theorem State.setOcu_trackers (s : State) (i : Nat) (x : Ocu) : (s.setOcu i x).trackers = s.trackers := rfl
@[simp] theorem State.setOcu_trims (s : State) (i : Nat) (x : Ocu) : (s.setOcu i x).trims = s.trims := rfl
@[simp] theorem State.setOcu_passes (s : State) (i : Nat) (x : Ocu) : (s.setOcu i x).passes = s.passes := rfl
@[simp] theorem State.setOcu_bandTime (s : State) (i : Nat) (x : Ocu) : (s.setOcu i x).bandTime = s.bandTime := rfl
@[simp] theorem State.setOcu_bandAt (s : State) (i : Nat) (x : Ocu) : (s.setOcu i x).bandAt = s.bandAt := rfl
@[simp] theorem State.setOcu_adderFree (s : State) (i : Nat) (x : Ocu) : (s.setOcu i x).adderFree = s.adderFree := rfl
@[simp] theorem State.setOcu_owls (s : State) (i : Nat) (x : Ocu) : (s.setOcu i x).owls = s.owls := rfl
@[simp] theorem State.setOcu_dac (s : State) (i : Nat) (x : Ocu) : (s.setOcu i x).dac = s.dac := rfl
@[simp] theorem State.setOcu_rings (s : State) (i : Nat) (x : Ocu) : (s.setOcu i x).rings = s.rings := rfl
@[simp] theorem State.setOcu_stations (s : State) (i : Nat) (x : Ocu) : (s.setOcu i x).stations = s.stations := rfl
@[simp] theorem State.setOcu_tiles (s : State) (i : Nat) (x : Ocu) : (s.setOcu i x).tiles = s.tiles := rfl
@[simp] theorem State.setOcu_tmvs (s : State) (i : Nat) (x : Ocu) : (s.setOcu i x).tmvs = s.tmvs := rfl
@[simp] theorem State.setOcu_ctxs (s : State) (i : Nat) (x : Ocu) : (s.setOcu i x).ctxs = s.ctxs := rfl
@[simp] theorem State.setOcu_ingests (s : State) (i : Nat) (x : Ocu) : (s.setOcu i x).ingests = s.ingests := rfl
@[simp] theorem State.setOcu_offers (s : State) (i : Nat) (x : Ocu) : (s.setOcu i x).offers = s.offers := rfl
@[simp] theorem State.setOcu_scrubs (s : State) (i : Nat) (x : Ocu) : (s.setOcu i x).scrubs = s.scrubs := rfl
@[simp] theorem State.setOcu_busy (s : State) (i : Nat) (x : Ocu) : (s.setOcu i x).busy = s.busy := rfl
@[simp] theorem State.setOcu_ports (s : State) (i : Nat) (x : Ocu) : (s.setOcu i x).ports = s.ports := rfl
@[simp] theorem State.setOcu_threads (s : State) (i : Nat) (x : Ocu) : (s.setOcu i x).threads = s.threads := rfl
@[simp] theorem State.setOcu_flights (s : State) (i : Nat) (x : Ocu) : (s.setOcu i x).flights = s.flights := rfl
@[simp] theorem State.setOcu_groups (s : State) (i : Nat) (x : Ocu) : (s.setOcu i x).groups = s.groups := rfl
@[simp] theorem State.setOcu_sets (s : State) (i : Nat) (x : Ocu) : (s.setOcu i x).sets = s.sets := rfl
@[simp] theorem State.setOcu_snaps (s : State) (i : Nat) (x : Ocu) : (s.setOcu i x).snaps = s.snaps := rfl
@[simp] theorem State.setOcu_parts (s : State) (i : Nat) (x : Ocu) : (s.setOcu i x).parts = s.parts := rfl
@[simp] theorem State.setOcu_placed (s : State) (i : Nat) (x : Ocu) : (s.setOcu i x).placed = s.placed := rfl
@[simp] theorem State.setOcu_jobs (s : State) (i : Nat) (x : Ocu) : (s.setOcu i x).jobs = s.jobs := rfl
@[simp] theorem State.setOcu_beavers (s : State) (i : Nat) (x : Ocu) : (s.setOcu i x).beavers = s.beavers := rfl
@[simp] theorem State.setOcu_turn (s : State) (i : Nat) (x : Ocu) : (s.setOcu i x).turn = s.turn := rfl
@[simp] theorem State.setOcu_shards (s : State) (i : Nat) (x : Ocu) : (s.setOcu i x).shards = s.shards := rfl
@[simp] theorem State.setOcu_modelKeys (s : State) (i : Nat) (x : Ocu) : (s.setOcu i x).modelKeys = s.modelKeys := rfl
@[simp] theorem State.setOcu_shadows (s : State) (i : Nat) (x : Ocu) : (s.setOcu i x).shadows = s.shadows := rfl
@[simp] theorem State.setOcu_weak (s : State) (i : Nat) (x : Ocu) : (s.setOcu i x).weak = s.weak := rfl
@[simp] theorem State.setOcu_buckets (s : State) (i : Nat) (x : Ocu) : (s.setOcu i x).buckets = s.buckets := rfl
@[simp] theorem State.setOcu_bucketAt (s : State) (i : Nat) (x : Ocu) : (s.setOcu i x).bucketAt = s.bucketAt := rfl
@[simp] theorem State.setOcu_fns (s : State) (i : Nat) (x : Ocu) : (s.setOcu i x).fns = s.fns := rfl
@[simp] theorem State.setOcu_numVfs (s : State) (i : Nat) (x : Ocu) : (s.setOcu i x).numVfs = s.numVfs := rfl
@[simp] theorem State.setOcu_accepted (s : State) (i : Nat) (x : Ocu) : (s.setOcu i x).accepted = s.accepted := rfl
@[simp] theorem State.setOcu_pba (s : State) (i : Nat) (x : Ocu) : (s.setOcu i x).pba = s.pba := rfl
@[simp] theorem State.setOcu_events (s : State) (i : Nat) (x : Ocu) : (s.setOcu i x).events = s.events := rfl
@[simp] theorem State.setOcu_traces (s : State) (i : Nat) (x : Ocu) : (s.setOcu i x).traces = s.traces := rfl
@[simp] theorem State.setOcu_traceSeq (s : State) (i : Nat) (x : Ocu) : (s.setOcu i x).traceSeq = s.traceSeq := rfl
@[simp] theorem State.setOcu_points (s : State) (i : Nat) (x : Ocu) : (s.setOcu i x).points = s.points := rfl
@[simp] theorem State.setOcu_twLatch (s : State) (i : Nat) (x : Ocu) : (s.setOcu i x).twLatch = s.twLatch := rfl
@[simp] theorem State.setOcu_digests (s : State) (i : Nat) (x : Ocu) : (s.setOcu i x).digests = s.digests := rfl
@[simp] theorem State.setOcu_tencs (s : State) (i : Nat) (x : Ocu) : (s.setOcu i x).tencs = s.tencs := rfl
@[simp] theorem State.setOcu_totals (s : State) (i : Nat) (x : Ocu) : (s.setOcu i x).totals = s.totals := rfl
@[simp] theorem State.setOcu_links (s : State) (i : Nat) (x : Ocu) : (s.setOcu i x).links = s.links := rfl
@[simp] theorem State.setOcu_domain (s : State) (i : Nat) (x : Ocu) : (s.setOcu i x).domain = s.domain := rfl
@[simp] theorem State.setOcu_offsets (s : State) (i : Nat) (x : Ocu) : (s.setOcu i x).offsets = s.offsets := rfl
@[simp] theorem State.setOcu_wakes (s : State) (i : Nat) (x : Ocu) : (s.setOcu i x).wakes = s.wakes := rfl
@[simp] theorem State.setOcu_norA (s : State) (i : Nat) (x : Ocu) : (s.setOcu i x).norA = s.norA := rfl
@[simp] theorem State.setOcu_norB (s : State) (i : Nat) (x : Ocu) : (s.setOcu i x).norB = s.norB := rfl
@[simp] theorem State.setOcu_image (s : State) (i : Nat) (x : Ocu) : (s.setOcu i x).image = s.image := rfl
@[simp] theorem State.setOcu_perst (s : State) (i : Nat) (x : Ocu) : (s.setOcu i x).perst = s.perst := rfl
@[simp] theorem State.setOcu_wakeAsked (s : State) (i : Nat) (x : Ocu) : (s.setOcu i x).wakeAsked = s.wakeAsked := rfl
@[simp] theorem State.setOcu_shutRec (s : State) (i : Nat) (x : Ocu) : (s.setOcu i x).shutRec = s.shutRec := rfl
@[simp] theorem State.setOcu_calRec (s : State) (i : Nat) (x : Ocu) : (s.setOcu i x).calRec = s.calRec := rfl
@[simp] theorem State.setOcu_capNow (s : State) (i : Nat) (x : Ocu) : (s.setOcu i x).capNow = s.capNow := rfl
@[simp] theorem State.setOcu_pgmFault (s : State) (i : Nat) (x : Ocu) : (s.setOcu i x).pgmFault = s.pgmFault := rfl
@[simp] theorem State.setOcu_regFails (s : State) (i : Nat) (x : Ocu) : (s.setOcu i x).regFails = s.regFails := rfl
@[simp] theorem State.setOcu_regTried (s : State) (i : Nat) (x : Ocu) : (s.setOcu i x).regTried = s.regTried := rfl
@[simp] theorem State.setOcu_avs (s : State) (i : Nat) (x : Ocu) : (s.setOcu i x).avs = s.avs := rfl
@[simp] theorem State.setOcu_sensors (s : State) (i : Nat) (x : Ocu) : (s.setOcu i x).sensors = s.sensors := rfl
@[simp] theorem State.setOcu_medPrev (s : State) (i : Nat) (x : Ocu) : (s.setOcu i x).medPrev = s.medPrev := rfl
@[simp] theorem State.setOcu_deadCls (s : State) (i : Nat) (x : Ocu) : (s.setOcu i x).deadCls = s.deadCls := rfl
@[simp] theorem State.setOcu_onAt (s : State) (i : Nat) (x : Ocu) : (s.setOcu i x).onAt = s.onAt := rfl
@[simp] theorem State.setOcu_onCl (s : State) (i : Nat) (x : Ocu) : (s.setOcu i x).onCl = s.onCl := rfl
@[simp] theorem State.setOcu_settMem (s : State) (i : Nat) (x : Ocu) : (s.setOcu i x).settMem = s.settMem := rfl
@[simp] theorem State.setOcu_settBuf (s : State) (i : Nat) (x : Ocu) : (s.setOcu i x).settBuf = s.settBuf := rfl
@[simp] theorem State.setOcu_settList (s : State) (i : Nat) (x : Ocu) : (s.setOcu i x).settList = s.settList := rfl
@[simp] theorem State.setOcu_settQueue (s : State) (i : Nat) (x : Ocu) : (s.setOcu i x).settQueue = s.settQueue := rfl
@[simp] theorem State.setOcu_settCommits (s : State) (i : Nat) (x : Ocu) : (s.setOcu i x).settCommits = s.settCommits := rfl
@[simp] theorem State.setOcu_settRefreshes (s : State) (i : Nat) (x : Ocu) : (s.setOcu i x).settRefreshes = s.settRefreshes := rfl
@[simp] theorem State.setOcu_ringNext (s : State) (i : Nat) (x : Ocu) : (s.setOcu i x).ringNext = s.ringNext := rfl
@[simp] theorem State.setOcu_ringSeq (s : State) (i : Nat) (x : Ocu) : (s.setOcu i x).ringSeq = s.ringSeq := rfl
@[simp] theorem State.setOcu_lc (s : State) (i : Nat) (x : Ocu) : (s.setOcu i x).lc = s.lc := rfl
@[simp] theorem State.setOcu_lcBusy (s : State) (i : Nat) (x : Ocu) : (s.setOcu i x).lcBusy = s.lcBusy := rfl
@[simp] theorem State.setOcu_fwTarget (s : State) (i : Nat) (x : Ocu) : (s.setOcu i x).fwTarget = s.fwTarget := rfl
@[simp] theorem State.setOcu_signKeys (s : State) (i : Nat) (x : Ocu) : (s.setOcu i x).signKeys = s.signKeys := rfl
@[simp] theorem State.setOcu_spot (s : State) (i : Nat) (x : Ocu) : (s.setOcu i x).spot = s.spot := rfl
@[simp] theorem State.setOcu_bearAt (s : State) (i : Nat) (x : Ocu) : (s.setOcu i x).bearAt = s.bearAt := rfl
@[simp] theorem State.setOcu_wins (s : State) (i : Nat) (x : Ocu) : (s.setOcu i x).wins = s.wins := rfl
@[simp] theorem State.setOcu_wrules (s : State) (i : Nat) (x : Ocu) : (s.setOcu i x).wrules = s.wrules := rfl
@[simp] theorem State.setOcu_wioDown (s : State) (i : Nat) (x : Ocu) : (s.setOcu i x).wioDown = s.wioDown := rfl
@[simp] theorem State.setOcu_base (s : State) (i : Nat) (x : Ocu) : (s.setOcu i x).base = s.base := rfl
@[simp] theorem State.setOcu_pllOff (s : State) (i : Nat) (x : Ocu) : (s.setOcu i x).pllOff = s.pllOff := rfl
@[simp] theorem State.setOcu_cmLast (s : State) (i : Nat) (x : Ocu) : (s.setOcu i x).cmLast = s.cmLast := rfl
@[simp] theorem State.setOcu_clrAt (s : State) (i : Nat) (x : Ocu) : (s.setOcu i x).clrAt = s.clrAt := rfl
@[simp] theorem State.setOcu_syncAt (s : State) (i : Nat) (x : Ocu) : (s.setOcu i x).syncAt = s.syncAt := rfl
@[simp] theorem State.setOcu_trgAt (s : State) (i : Nat) (x : Ocu) : (s.setOcu i x).trgAt = s.trgAt := rfl
@[simp] theorem State.setOcu_snapHeld (s : State) (i : Nat) (x : Ocu) : (s.setOcu i x).snapHeld = s.snapHeld := rfl
@[simp] theorem State.setOcu_resets (s : State) (i : Nat) (x : Ocu) : (s.setOcu i x).resets = s.resets := rfl
@[simp] theorem State.setOcu_accounts (s : State) (i : Nat) (x : Ocu) : (s.setOcu i x).accounts = s.accounts := rfl
@[simp] theorem State.setOcu_refillAt (s : State) (i : Nat) (x : Ocu) : (s.setOcu i x).refillAt = s.refillAt := rfl
@[simp] theorem State.setOcu_grants (s : State) (i : Nat) (x : Ocu) : (s.setOcu i x).grants = s.grants := rfl
@[simp] theorem State.setOcu_bandMoved (s : State) (i : Nat) (x : Ocu) : (s.setOcu i x).bandMoved = s.bandMoved := rfl
@[simp] theorem State.setOcu_thrJudged (s : State) (i : Nat) (x : Ocu) : (s.setOcu i x).thrJudged = s.thrJudged := rfl
@[simp] theorem State.setOcu_spareLeft (s : State) (i : Nat) (x : Ocu) : (s.setOcu i x).spareLeft = s.spareLeft := rfl
@[simp] theorem State.setOcu_aerLog (s : State) (i : Nat) (x : Ocu) : (s.setOcu i x).aerLog = s.aerLog := rfl
@[simp] theorem State.setOcu_loading (s : State) (i : Nat) (x : Ocu) : (s.setOcu i x).loading = s.loading := rfl
@[simp] theorem State.setOcu_channels (s : State) (i : Nat) (x : Ocu) : (s.setOcu i x).channels = s.channels := rfl
@[simp] theorem State.setOcu_traceLast (s : State) (i : Nat) (x : Ocu) : (s.setOcu i x).traceLast = s.traceLast := rfl
@[simp] theorem State.setOcu_counters (s : State) (i : Nat) (x : Ocu) : (s.setOcu i x).counters = s.counters := rfl
@[simp] theorem State.setOcu_spotDue (s : State) (i : Nat) (x : Ocu) : (s.setOcu i x).spotDue = s.spotDue := rfl
@[simp] theorem State.setOcu_heldRules (s : State) (i : Nat) (x : Ocu) : (s.setOcu i x).heldRules = s.heldRules := rfl
@[simp] theorem State.setOcu_outMarks (s : State) (i : Nat) (x : Ocu) : (s.setOcu i x).outMarks = s.outMarks := rfl
@[simp] theorem State.setOwl_pending (s : State) (i : Nat) (x : Owl) : (s.setOwl i x).pending = s.pending := rfl
@[simp] theorem State.setOwl_time (s : State) (i : Nat) (x : Owl) : (s.setOwl i x).time = s.time := rfl
@[simp] theorem State.setOwl_fresh (s : State) (i : Nat) (x : Owl) : (s.setOwl i x).fresh = s.fresh := rfl
@[simp] theorem State.setOwl_out (s : State) (i : Nat) (x : Owl) : (s.setOwl i x).out = s.out := rfl
@[simp] theorem State.setOwl_regs (s : State) (i : Nat) (x : Owl) : (s.setOwl i x).regs = s.regs := rfl
@[simp] theorem State.setOwl_latches (s : State) (i : Nat) (x : Owl) : (s.setOwl i x).latches = s.latches := rfl
@[simp] theorem State.setOwl_sram (s : State) (i : Nat) (x : Owl) : (s.setOwl i x).sram = s.sram := rfl
@[simp] theorem State.setOwl_ecc (s : State) (i : Nat) (x : Owl) : (s.setOwl i x).ecc = s.ecc := rfl
@[simp] theorem State.setOwl_cmWait (s : State) (i : Nat) (x : Owl) : (s.setOwl i x).cmWait = s.cmWait := rfl
@[simp] theorem State.setOwl_tokenPool (s : State) (i : Nat) (x : Owl) : (s.setOwl i x).tokenPool = s.tokenPool := rfl
@[simp] theorem State.setOwl_tokenHeld (s : State) (i : Nat) (x : Owl) : (s.setOwl i x).tokenHeld = s.tokenHeld := rfl
@[simp] theorem State.setOwl_tokenWait (s : State) (i : Nat) (x : Owl) : (s.setOwl i x).tokenWait = s.tokenWait := rfl
@[simp] theorem State.setOwl_cells (s : State) (i : Nat) (x : Owl) : (s.setOwl i x).cells = s.cells := rfl
@[simp] theorem State.setOwl_engines (s : State) (i : Nat) (x : Owl) : (s.setOwl i x).engines = s.engines := rfl
@[simp] theorem State.setOwl_trackers (s : State) (i : Nat) (x : Owl) : (s.setOwl i x).trackers = s.trackers := rfl
@[simp] theorem State.setOwl_trims (s : State) (i : Nat) (x : Owl) : (s.setOwl i x).trims = s.trims := rfl
@[simp] theorem State.setOwl_passes (s : State) (i : Nat) (x : Owl) : (s.setOwl i x).passes = s.passes := rfl
@[simp] theorem State.setOwl_bandTime (s : State) (i : Nat) (x : Owl) : (s.setOwl i x).bandTime = s.bandTime := rfl
@[simp] theorem State.setOwl_bandAt (s : State) (i : Nat) (x : Owl) : (s.setOwl i x).bandAt = s.bandAt := rfl
@[simp] theorem State.setOwl_adderFree (s : State) (i : Nat) (x : Owl) : (s.setOwl i x).adderFree = s.adderFree := rfl
@[simp] theorem State.setOwl_ocus (s : State) (i : Nat) (x : Owl) : (s.setOwl i x).ocus = s.ocus := rfl
@[simp] theorem State.setOwl_dac (s : State) (i : Nat) (x : Owl) : (s.setOwl i x).dac = s.dac := rfl
@[simp] theorem State.setOwl_rings (s : State) (i : Nat) (x : Owl) : (s.setOwl i x).rings = s.rings := rfl
@[simp] theorem State.setOwl_stations (s : State) (i : Nat) (x : Owl) : (s.setOwl i x).stations = s.stations := rfl
@[simp] theorem State.setOwl_tiles (s : State) (i : Nat) (x : Owl) : (s.setOwl i x).tiles = s.tiles := rfl
@[simp] theorem State.setOwl_tmvs (s : State) (i : Nat) (x : Owl) : (s.setOwl i x).tmvs = s.tmvs := rfl
@[simp] theorem State.setOwl_ctxs (s : State) (i : Nat) (x : Owl) : (s.setOwl i x).ctxs = s.ctxs := rfl
@[simp] theorem State.setOwl_ingests (s : State) (i : Nat) (x : Owl) : (s.setOwl i x).ingests = s.ingests := rfl
@[simp] theorem State.setOwl_offers (s : State) (i : Nat) (x : Owl) : (s.setOwl i x).offers = s.offers := rfl
@[simp] theorem State.setOwl_scrubs (s : State) (i : Nat) (x : Owl) : (s.setOwl i x).scrubs = s.scrubs := rfl
@[simp] theorem State.setOwl_busy (s : State) (i : Nat) (x : Owl) : (s.setOwl i x).busy = s.busy := rfl
@[simp] theorem State.setOwl_ports (s : State) (i : Nat) (x : Owl) : (s.setOwl i x).ports = s.ports := rfl
@[simp] theorem State.setOwl_threads (s : State) (i : Nat) (x : Owl) : (s.setOwl i x).threads = s.threads := rfl
@[simp] theorem State.setOwl_flights (s : State) (i : Nat) (x : Owl) : (s.setOwl i x).flights = s.flights := rfl
@[simp] theorem State.setOwl_groups (s : State) (i : Nat) (x : Owl) : (s.setOwl i x).groups = s.groups := rfl
@[simp] theorem State.setOwl_sets (s : State) (i : Nat) (x : Owl) : (s.setOwl i x).sets = s.sets := rfl
@[simp] theorem State.setOwl_snaps (s : State) (i : Nat) (x : Owl) : (s.setOwl i x).snaps = s.snaps := rfl
@[simp] theorem State.setOwl_parts (s : State) (i : Nat) (x : Owl) : (s.setOwl i x).parts = s.parts := rfl
@[simp] theorem State.setOwl_placed (s : State) (i : Nat) (x : Owl) : (s.setOwl i x).placed = s.placed := rfl
@[simp] theorem State.setOwl_jobs (s : State) (i : Nat) (x : Owl) : (s.setOwl i x).jobs = s.jobs := rfl
@[simp] theorem State.setOwl_beavers (s : State) (i : Nat) (x : Owl) : (s.setOwl i x).beavers = s.beavers := rfl
@[simp] theorem State.setOwl_turn (s : State) (i : Nat) (x : Owl) : (s.setOwl i x).turn = s.turn := rfl
@[simp] theorem State.setOwl_shards (s : State) (i : Nat) (x : Owl) : (s.setOwl i x).shards = s.shards := rfl
@[simp] theorem State.setOwl_modelKeys (s : State) (i : Nat) (x : Owl) : (s.setOwl i x).modelKeys = s.modelKeys := rfl
@[simp] theorem State.setOwl_shadows (s : State) (i : Nat) (x : Owl) : (s.setOwl i x).shadows = s.shadows := rfl
@[simp] theorem State.setOwl_weak (s : State) (i : Nat) (x : Owl) : (s.setOwl i x).weak = s.weak := rfl
@[simp] theorem State.setOwl_buckets (s : State) (i : Nat) (x : Owl) : (s.setOwl i x).buckets = s.buckets := rfl
@[simp] theorem State.setOwl_bucketAt (s : State) (i : Nat) (x : Owl) : (s.setOwl i x).bucketAt = s.bucketAt := rfl
@[simp] theorem State.setOwl_fns (s : State) (i : Nat) (x : Owl) : (s.setOwl i x).fns = s.fns := rfl
@[simp] theorem State.setOwl_numVfs (s : State) (i : Nat) (x : Owl) : (s.setOwl i x).numVfs = s.numVfs := rfl
@[simp] theorem State.setOwl_accepted (s : State) (i : Nat) (x : Owl) : (s.setOwl i x).accepted = s.accepted := rfl
@[simp] theorem State.setOwl_pba (s : State) (i : Nat) (x : Owl) : (s.setOwl i x).pba = s.pba := rfl
@[simp] theorem State.setOwl_events (s : State) (i : Nat) (x : Owl) : (s.setOwl i x).events = s.events := rfl
@[simp] theorem State.setOwl_traces (s : State) (i : Nat) (x : Owl) : (s.setOwl i x).traces = s.traces := rfl
@[simp] theorem State.setOwl_traceSeq (s : State) (i : Nat) (x : Owl) : (s.setOwl i x).traceSeq = s.traceSeq := rfl
@[simp] theorem State.setOwl_points (s : State) (i : Nat) (x : Owl) : (s.setOwl i x).points = s.points := rfl
@[simp] theorem State.setOwl_twLatch (s : State) (i : Nat) (x : Owl) : (s.setOwl i x).twLatch = s.twLatch := rfl
@[simp] theorem State.setOwl_digests (s : State) (i : Nat) (x : Owl) : (s.setOwl i x).digests = s.digests := rfl
@[simp] theorem State.setOwl_tencs (s : State) (i : Nat) (x : Owl) : (s.setOwl i x).tencs = s.tencs := rfl
@[simp] theorem State.setOwl_totals (s : State) (i : Nat) (x : Owl) : (s.setOwl i x).totals = s.totals := rfl
@[simp] theorem State.setOwl_links (s : State) (i : Nat) (x : Owl) : (s.setOwl i x).links = s.links := rfl
@[simp] theorem State.setOwl_domain (s : State) (i : Nat) (x : Owl) : (s.setOwl i x).domain = s.domain := rfl
@[simp] theorem State.setOwl_offsets (s : State) (i : Nat) (x : Owl) : (s.setOwl i x).offsets = s.offsets := rfl
@[simp] theorem State.setOwl_wakes (s : State) (i : Nat) (x : Owl) : (s.setOwl i x).wakes = s.wakes := rfl
@[simp] theorem State.setOwl_norA (s : State) (i : Nat) (x : Owl) : (s.setOwl i x).norA = s.norA := rfl
@[simp] theorem State.setOwl_norB (s : State) (i : Nat) (x : Owl) : (s.setOwl i x).norB = s.norB := rfl
@[simp] theorem State.setOwl_image (s : State) (i : Nat) (x : Owl) : (s.setOwl i x).image = s.image := rfl
@[simp] theorem State.setOwl_perst (s : State) (i : Nat) (x : Owl) : (s.setOwl i x).perst = s.perst := rfl
@[simp] theorem State.setOwl_wakeAsked (s : State) (i : Nat) (x : Owl) : (s.setOwl i x).wakeAsked = s.wakeAsked := rfl
@[simp] theorem State.setOwl_shutRec (s : State) (i : Nat) (x : Owl) : (s.setOwl i x).shutRec = s.shutRec := rfl
@[simp] theorem State.setOwl_calRec (s : State) (i : Nat) (x : Owl) : (s.setOwl i x).calRec = s.calRec := rfl
@[simp] theorem State.setOwl_capNow (s : State) (i : Nat) (x : Owl) : (s.setOwl i x).capNow = s.capNow := rfl
@[simp] theorem State.setOwl_pgmFault (s : State) (i : Nat) (x : Owl) : (s.setOwl i x).pgmFault = s.pgmFault := rfl
@[simp] theorem State.setOwl_regFails (s : State) (i : Nat) (x : Owl) : (s.setOwl i x).regFails = s.regFails := rfl
@[simp] theorem State.setOwl_regTried (s : State) (i : Nat) (x : Owl) : (s.setOwl i x).regTried = s.regTried := rfl
@[simp] theorem State.setOwl_avs (s : State) (i : Nat) (x : Owl) : (s.setOwl i x).avs = s.avs := rfl
@[simp] theorem State.setOwl_sensors (s : State) (i : Nat) (x : Owl) : (s.setOwl i x).sensors = s.sensors := rfl
@[simp] theorem State.setOwl_medPrev (s : State) (i : Nat) (x : Owl) : (s.setOwl i x).medPrev = s.medPrev := rfl
@[simp] theorem State.setOwl_deadCls (s : State) (i : Nat) (x : Owl) : (s.setOwl i x).deadCls = s.deadCls := rfl
@[simp] theorem State.setOwl_onAt (s : State) (i : Nat) (x : Owl) : (s.setOwl i x).onAt = s.onAt := rfl
@[simp] theorem State.setOwl_onCl (s : State) (i : Nat) (x : Owl) : (s.setOwl i x).onCl = s.onCl := rfl
@[simp] theorem State.setOwl_settMem (s : State) (i : Nat) (x : Owl) : (s.setOwl i x).settMem = s.settMem := rfl
@[simp] theorem State.setOwl_settBuf (s : State) (i : Nat) (x : Owl) : (s.setOwl i x).settBuf = s.settBuf := rfl
@[simp] theorem State.setOwl_settList (s : State) (i : Nat) (x : Owl) : (s.setOwl i x).settList = s.settList := rfl
@[simp] theorem State.setOwl_settQueue (s : State) (i : Nat) (x : Owl) : (s.setOwl i x).settQueue = s.settQueue := rfl
@[simp] theorem State.setOwl_settCommits (s : State) (i : Nat) (x : Owl) : (s.setOwl i x).settCommits = s.settCommits := rfl
@[simp] theorem State.setOwl_settRefreshes (s : State) (i : Nat) (x : Owl) : (s.setOwl i x).settRefreshes = s.settRefreshes := rfl
@[simp] theorem State.setOwl_ringNext (s : State) (i : Nat) (x : Owl) : (s.setOwl i x).ringNext = s.ringNext := rfl
@[simp] theorem State.setOwl_ringSeq (s : State) (i : Nat) (x : Owl) : (s.setOwl i x).ringSeq = s.ringSeq := rfl
@[simp] theorem State.setOwl_lc (s : State) (i : Nat) (x : Owl) : (s.setOwl i x).lc = s.lc := rfl
@[simp] theorem State.setOwl_lcBusy (s : State) (i : Nat) (x : Owl) : (s.setOwl i x).lcBusy = s.lcBusy := rfl
@[simp] theorem State.setOwl_fwTarget (s : State) (i : Nat) (x : Owl) : (s.setOwl i x).fwTarget = s.fwTarget := rfl
@[simp] theorem State.setOwl_signKeys (s : State) (i : Nat) (x : Owl) : (s.setOwl i x).signKeys = s.signKeys := rfl
@[simp] theorem State.setOwl_spot (s : State) (i : Nat) (x : Owl) : (s.setOwl i x).spot = s.spot := rfl
@[simp] theorem State.setOwl_bearAt (s : State) (i : Nat) (x : Owl) : (s.setOwl i x).bearAt = s.bearAt := rfl
@[simp] theorem State.setOwl_wins (s : State) (i : Nat) (x : Owl) : (s.setOwl i x).wins = s.wins := rfl
@[simp] theorem State.setOwl_wrules (s : State) (i : Nat) (x : Owl) : (s.setOwl i x).wrules = s.wrules := rfl
@[simp] theorem State.setOwl_wioDown (s : State) (i : Nat) (x : Owl) : (s.setOwl i x).wioDown = s.wioDown := rfl
@[simp] theorem State.setOwl_base (s : State) (i : Nat) (x : Owl) : (s.setOwl i x).base = s.base := rfl
@[simp] theorem State.setOwl_pllOff (s : State) (i : Nat) (x : Owl) : (s.setOwl i x).pllOff = s.pllOff := rfl
@[simp] theorem State.setOwl_cmLast (s : State) (i : Nat) (x : Owl) : (s.setOwl i x).cmLast = s.cmLast := rfl
@[simp] theorem State.setOwl_clrAt (s : State) (i : Nat) (x : Owl) : (s.setOwl i x).clrAt = s.clrAt := rfl
@[simp] theorem State.setOwl_syncAt (s : State) (i : Nat) (x : Owl) : (s.setOwl i x).syncAt = s.syncAt := rfl
@[simp] theorem State.setOwl_trgAt (s : State) (i : Nat) (x : Owl) : (s.setOwl i x).trgAt = s.trgAt := rfl
@[simp] theorem State.setOwl_snapHeld (s : State) (i : Nat) (x : Owl) : (s.setOwl i x).snapHeld = s.snapHeld := rfl
@[simp] theorem State.setOwl_resets (s : State) (i : Nat) (x : Owl) : (s.setOwl i x).resets = s.resets := rfl
@[simp] theorem State.setOwl_accounts (s : State) (i : Nat) (x : Owl) : (s.setOwl i x).accounts = s.accounts := rfl
@[simp] theorem State.setOwl_refillAt (s : State) (i : Nat) (x : Owl) : (s.setOwl i x).refillAt = s.refillAt := rfl
@[simp] theorem State.setOwl_grants (s : State) (i : Nat) (x : Owl) : (s.setOwl i x).grants = s.grants := rfl
@[simp] theorem State.setOwl_bandMoved (s : State) (i : Nat) (x : Owl) : (s.setOwl i x).bandMoved = s.bandMoved := rfl
@[simp] theorem State.setOwl_thrJudged (s : State) (i : Nat) (x : Owl) : (s.setOwl i x).thrJudged = s.thrJudged := rfl
@[simp] theorem State.setOwl_spareLeft (s : State) (i : Nat) (x : Owl) : (s.setOwl i x).spareLeft = s.spareLeft := rfl
@[simp] theorem State.setOwl_aerLog (s : State) (i : Nat) (x : Owl) : (s.setOwl i x).aerLog = s.aerLog := rfl
@[simp] theorem State.setOwl_loading (s : State) (i : Nat) (x : Owl) : (s.setOwl i x).loading = s.loading := rfl
@[simp] theorem State.setOwl_channels (s : State) (i : Nat) (x : Owl) : (s.setOwl i x).channels = s.channels := rfl
@[simp] theorem State.setOwl_traceLast (s : State) (i : Nat) (x : Owl) : (s.setOwl i x).traceLast = s.traceLast := rfl
@[simp] theorem State.setOwl_counters (s : State) (i : Nat) (x : Owl) : (s.setOwl i x).counters = s.counters := rfl
@[simp] theorem State.setOwl_spotDue (s : State) (i : Nat) (x : Owl) : (s.setOwl i x).spotDue = s.spotDue := rfl
@[simp] theorem State.setOwl_heldRules (s : State) (i : Nat) (x : Owl) : (s.setOwl i x).heldRules = s.heldRules := rfl
@[simp] theorem State.setOwl_outMarks (s : State) (i : Nat) (x : Owl) : (s.setOwl i x).outMarks = s.outMarks := rfl
@[simp] theorem State.setPort_pending (s : State) (i : Nat) (x : Port) : (s.setPort i x).pending = s.pending := rfl
@[simp] theorem State.setPort_time (s : State) (i : Nat) (x : Port) : (s.setPort i x).time = s.time := rfl
@[simp] theorem State.setPort_fresh (s : State) (i : Nat) (x : Port) : (s.setPort i x).fresh = s.fresh := rfl
@[simp] theorem State.setPort_out (s : State) (i : Nat) (x : Port) : (s.setPort i x).out = s.out := rfl
@[simp] theorem State.setPort_regs (s : State) (i : Nat) (x : Port) : (s.setPort i x).regs = s.regs := rfl
@[simp] theorem State.setPort_latches (s : State) (i : Nat) (x : Port) : (s.setPort i x).latches = s.latches := rfl
@[simp] theorem State.setPort_sram (s : State) (i : Nat) (x : Port) : (s.setPort i x).sram = s.sram := rfl
@[simp] theorem State.setPort_ecc (s : State) (i : Nat) (x : Port) : (s.setPort i x).ecc = s.ecc := rfl
@[simp] theorem State.setPort_cmWait (s : State) (i : Nat) (x : Port) : (s.setPort i x).cmWait = s.cmWait := rfl
@[simp] theorem State.setPort_tokenPool (s : State) (i : Nat) (x : Port) : (s.setPort i x).tokenPool = s.tokenPool := rfl
@[simp] theorem State.setPort_tokenHeld (s : State) (i : Nat) (x : Port) : (s.setPort i x).tokenHeld = s.tokenHeld := rfl
@[simp] theorem State.setPort_tokenWait (s : State) (i : Nat) (x : Port) : (s.setPort i x).tokenWait = s.tokenWait := rfl
@[simp] theorem State.setPort_cells (s : State) (i : Nat) (x : Port) : (s.setPort i x).cells = s.cells := rfl
@[simp] theorem State.setPort_engines (s : State) (i : Nat) (x : Port) : (s.setPort i x).engines = s.engines := rfl
@[simp] theorem State.setPort_trackers (s : State) (i : Nat) (x : Port) : (s.setPort i x).trackers = s.trackers := rfl
@[simp] theorem State.setPort_trims (s : State) (i : Nat) (x : Port) : (s.setPort i x).trims = s.trims := rfl
@[simp] theorem State.setPort_passes (s : State) (i : Nat) (x : Port) : (s.setPort i x).passes = s.passes := rfl
@[simp] theorem State.setPort_bandTime (s : State) (i : Nat) (x : Port) : (s.setPort i x).bandTime = s.bandTime := rfl
@[simp] theorem State.setPort_bandAt (s : State) (i : Nat) (x : Port) : (s.setPort i x).bandAt = s.bandAt := rfl
@[simp] theorem State.setPort_adderFree (s : State) (i : Nat) (x : Port) : (s.setPort i x).adderFree = s.adderFree := rfl
@[simp] theorem State.setPort_ocus (s : State) (i : Nat) (x : Port) : (s.setPort i x).ocus = s.ocus := rfl
@[simp] theorem State.setPort_owls (s : State) (i : Nat) (x : Port) : (s.setPort i x).owls = s.owls := rfl
@[simp] theorem State.setPort_dac (s : State) (i : Nat) (x : Port) : (s.setPort i x).dac = s.dac := rfl
@[simp] theorem State.setPort_rings (s : State) (i : Nat) (x : Port) : (s.setPort i x).rings = s.rings := rfl
@[simp] theorem State.setPort_stations (s : State) (i : Nat) (x : Port) : (s.setPort i x).stations = s.stations := rfl
@[simp] theorem State.setPort_tiles (s : State) (i : Nat) (x : Port) : (s.setPort i x).tiles = s.tiles := rfl
@[simp] theorem State.setPort_tmvs (s : State) (i : Nat) (x : Port) : (s.setPort i x).tmvs = s.tmvs := rfl
@[simp] theorem State.setPort_ctxs (s : State) (i : Nat) (x : Port) : (s.setPort i x).ctxs = s.ctxs := rfl
@[simp] theorem State.setPort_ingests (s : State) (i : Nat) (x : Port) : (s.setPort i x).ingests = s.ingests := rfl
@[simp] theorem State.setPort_offers (s : State) (i : Nat) (x : Port) : (s.setPort i x).offers = s.offers := rfl
@[simp] theorem State.setPort_scrubs (s : State) (i : Nat) (x : Port) : (s.setPort i x).scrubs = s.scrubs := rfl
@[simp] theorem State.setPort_busy (s : State) (i : Nat) (x : Port) : (s.setPort i x).busy = s.busy := rfl
@[simp] theorem State.setPort_threads (s : State) (i : Nat) (x : Port) : (s.setPort i x).threads = s.threads := rfl
@[simp] theorem State.setPort_flights (s : State) (i : Nat) (x : Port) : (s.setPort i x).flights = s.flights := rfl
@[simp] theorem State.setPort_groups (s : State) (i : Nat) (x : Port) : (s.setPort i x).groups = s.groups := rfl
@[simp] theorem State.setPort_sets (s : State) (i : Nat) (x : Port) : (s.setPort i x).sets = s.sets := rfl
@[simp] theorem State.setPort_snaps (s : State) (i : Nat) (x : Port) : (s.setPort i x).snaps = s.snaps := rfl
@[simp] theorem State.setPort_parts (s : State) (i : Nat) (x : Port) : (s.setPort i x).parts = s.parts := rfl
@[simp] theorem State.setPort_placed (s : State) (i : Nat) (x : Port) : (s.setPort i x).placed = s.placed := rfl
@[simp] theorem State.setPort_jobs (s : State) (i : Nat) (x : Port) : (s.setPort i x).jobs = s.jobs := rfl
@[simp] theorem State.setPort_beavers (s : State) (i : Nat) (x : Port) : (s.setPort i x).beavers = s.beavers := rfl
@[simp] theorem State.setPort_turn (s : State) (i : Nat) (x : Port) : (s.setPort i x).turn = s.turn := rfl
@[simp] theorem State.setPort_shards (s : State) (i : Nat) (x : Port) : (s.setPort i x).shards = s.shards := rfl
@[simp] theorem State.setPort_modelKeys (s : State) (i : Nat) (x : Port) : (s.setPort i x).modelKeys = s.modelKeys := rfl
@[simp] theorem State.setPort_shadows (s : State) (i : Nat) (x : Port) : (s.setPort i x).shadows = s.shadows := rfl
@[simp] theorem State.setPort_weak (s : State) (i : Nat) (x : Port) : (s.setPort i x).weak = s.weak := rfl
@[simp] theorem State.setPort_buckets (s : State) (i : Nat) (x : Port) : (s.setPort i x).buckets = s.buckets := rfl
@[simp] theorem State.setPort_bucketAt (s : State) (i : Nat) (x : Port) : (s.setPort i x).bucketAt = s.bucketAt := rfl
@[simp] theorem State.setPort_fns (s : State) (i : Nat) (x : Port) : (s.setPort i x).fns = s.fns := rfl
@[simp] theorem State.setPort_numVfs (s : State) (i : Nat) (x : Port) : (s.setPort i x).numVfs = s.numVfs := rfl
@[simp] theorem State.setPort_accepted (s : State) (i : Nat) (x : Port) : (s.setPort i x).accepted = s.accepted := rfl
@[simp] theorem State.setPort_pba (s : State) (i : Nat) (x : Port) : (s.setPort i x).pba = s.pba := rfl
@[simp] theorem State.setPort_events (s : State) (i : Nat) (x : Port) : (s.setPort i x).events = s.events := rfl
@[simp] theorem State.setPort_traces (s : State) (i : Nat) (x : Port) : (s.setPort i x).traces = s.traces := rfl
@[simp] theorem State.setPort_traceSeq (s : State) (i : Nat) (x : Port) : (s.setPort i x).traceSeq = s.traceSeq := rfl
@[simp] theorem State.setPort_points (s : State) (i : Nat) (x : Port) : (s.setPort i x).points = s.points := rfl
@[simp] theorem State.setPort_twLatch (s : State) (i : Nat) (x : Port) : (s.setPort i x).twLatch = s.twLatch := rfl
@[simp] theorem State.setPort_digests (s : State) (i : Nat) (x : Port) : (s.setPort i x).digests = s.digests := rfl
@[simp] theorem State.setPort_tencs (s : State) (i : Nat) (x : Port) : (s.setPort i x).tencs = s.tencs := rfl
@[simp] theorem State.setPort_totals (s : State) (i : Nat) (x : Port) : (s.setPort i x).totals = s.totals := rfl
@[simp] theorem State.setPort_links (s : State) (i : Nat) (x : Port) : (s.setPort i x).links = s.links := rfl
@[simp] theorem State.setPort_domain (s : State) (i : Nat) (x : Port) : (s.setPort i x).domain = s.domain := rfl
@[simp] theorem State.setPort_offsets (s : State) (i : Nat) (x : Port) : (s.setPort i x).offsets = s.offsets := rfl
@[simp] theorem State.setPort_wakes (s : State) (i : Nat) (x : Port) : (s.setPort i x).wakes = s.wakes := rfl
@[simp] theorem State.setPort_norA (s : State) (i : Nat) (x : Port) : (s.setPort i x).norA = s.norA := rfl
@[simp] theorem State.setPort_norB (s : State) (i : Nat) (x : Port) : (s.setPort i x).norB = s.norB := rfl
@[simp] theorem State.setPort_image (s : State) (i : Nat) (x : Port) : (s.setPort i x).image = s.image := rfl
@[simp] theorem State.setPort_perst (s : State) (i : Nat) (x : Port) : (s.setPort i x).perst = s.perst := rfl
@[simp] theorem State.setPort_wakeAsked (s : State) (i : Nat) (x : Port) : (s.setPort i x).wakeAsked = s.wakeAsked := rfl
@[simp] theorem State.setPort_shutRec (s : State) (i : Nat) (x : Port) : (s.setPort i x).shutRec = s.shutRec := rfl
@[simp] theorem State.setPort_calRec (s : State) (i : Nat) (x : Port) : (s.setPort i x).calRec = s.calRec := rfl
@[simp] theorem State.setPort_capNow (s : State) (i : Nat) (x : Port) : (s.setPort i x).capNow = s.capNow := rfl
@[simp] theorem State.setPort_pgmFault (s : State) (i : Nat) (x : Port) : (s.setPort i x).pgmFault = s.pgmFault := rfl
@[simp] theorem State.setPort_regFails (s : State) (i : Nat) (x : Port) : (s.setPort i x).regFails = s.regFails := rfl
@[simp] theorem State.setPort_regTried (s : State) (i : Nat) (x : Port) : (s.setPort i x).regTried = s.regTried := rfl
@[simp] theorem State.setPort_avs (s : State) (i : Nat) (x : Port) : (s.setPort i x).avs = s.avs := rfl
@[simp] theorem State.setPort_sensors (s : State) (i : Nat) (x : Port) : (s.setPort i x).sensors = s.sensors := rfl
@[simp] theorem State.setPort_medPrev (s : State) (i : Nat) (x : Port) : (s.setPort i x).medPrev = s.medPrev := rfl
@[simp] theorem State.setPort_deadCls (s : State) (i : Nat) (x : Port) : (s.setPort i x).deadCls = s.deadCls := rfl
@[simp] theorem State.setPort_onAt (s : State) (i : Nat) (x : Port) : (s.setPort i x).onAt = s.onAt := rfl
@[simp] theorem State.setPort_onCl (s : State) (i : Nat) (x : Port) : (s.setPort i x).onCl = s.onCl := rfl
@[simp] theorem State.setPort_settMem (s : State) (i : Nat) (x : Port) : (s.setPort i x).settMem = s.settMem := rfl
@[simp] theorem State.setPort_settBuf (s : State) (i : Nat) (x : Port) : (s.setPort i x).settBuf = s.settBuf := rfl
@[simp] theorem State.setPort_settList (s : State) (i : Nat) (x : Port) : (s.setPort i x).settList = s.settList := rfl
@[simp] theorem State.setPort_settQueue (s : State) (i : Nat) (x : Port) : (s.setPort i x).settQueue = s.settQueue := rfl
@[simp] theorem State.setPort_settCommits (s : State) (i : Nat) (x : Port) : (s.setPort i x).settCommits = s.settCommits := rfl
@[simp] theorem State.setPort_settRefreshes (s : State) (i : Nat) (x : Port) : (s.setPort i x).settRefreshes = s.settRefreshes := rfl
@[simp] theorem State.setPort_ringNext (s : State) (i : Nat) (x : Port) : (s.setPort i x).ringNext = s.ringNext := rfl
@[simp] theorem State.setPort_ringSeq (s : State) (i : Nat) (x : Port) : (s.setPort i x).ringSeq = s.ringSeq := rfl
@[simp] theorem State.setPort_lc (s : State) (i : Nat) (x : Port) : (s.setPort i x).lc = s.lc := rfl
@[simp] theorem State.setPort_lcBusy (s : State) (i : Nat) (x : Port) : (s.setPort i x).lcBusy = s.lcBusy := rfl
@[simp] theorem State.setPort_fwTarget (s : State) (i : Nat) (x : Port) : (s.setPort i x).fwTarget = s.fwTarget := rfl
@[simp] theorem State.setPort_signKeys (s : State) (i : Nat) (x : Port) : (s.setPort i x).signKeys = s.signKeys := rfl
@[simp] theorem State.setPort_spot (s : State) (i : Nat) (x : Port) : (s.setPort i x).spot = s.spot := rfl
@[simp] theorem State.setPort_bearAt (s : State) (i : Nat) (x : Port) : (s.setPort i x).bearAt = s.bearAt := rfl
@[simp] theorem State.setPort_wins (s : State) (i : Nat) (x : Port) : (s.setPort i x).wins = s.wins := rfl
@[simp] theorem State.setPort_wrules (s : State) (i : Nat) (x : Port) : (s.setPort i x).wrules = s.wrules := rfl
@[simp] theorem State.setPort_wioDown (s : State) (i : Nat) (x : Port) : (s.setPort i x).wioDown = s.wioDown := rfl
@[simp] theorem State.setPort_base (s : State) (i : Nat) (x : Port) : (s.setPort i x).base = s.base := rfl
@[simp] theorem State.setPort_pllOff (s : State) (i : Nat) (x : Port) : (s.setPort i x).pllOff = s.pllOff := rfl
@[simp] theorem State.setPort_cmLast (s : State) (i : Nat) (x : Port) : (s.setPort i x).cmLast = s.cmLast := rfl
@[simp] theorem State.setPort_clrAt (s : State) (i : Nat) (x : Port) : (s.setPort i x).clrAt = s.clrAt := rfl
@[simp] theorem State.setPort_syncAt (s : State) (i : Nat) (x : Port) : (s.setPort i x).syncAt = s.syncAt := rfl
@[simp] theorem State.setPort_trgAt (s : State) (i : Nat) (x : Port) : (s.setPort i x).trgAt = s.trgAt := rfl
@[simp] theorem State.setPort_snapHeld (s : State) (i : Nat) (x : Port) : (s.setPort i x).snapHeld = s.snapHeld := rfl
@[simp] theorem State.setPort_resets (s : State) (i : Nat) (x : Port) : (s.setPort i x).resets = s.resets := rfl
@[simp] theorem State.setPort_accounts (s : State) (i : Nat) (x : Port) : (s.setPort i x).accounts = s.accounts := rfl
@[simp] theorem State.setPort_refillAt (s : State) (i : Nat) (x : Port) : (s.setPort i x).refillAt = s.refillAt := rfl
@[simp] theorem State.setPort_grants (s : State) (i : Nat) (x : Port) : (s.setPort i x).grants = s.grants := rfl
@[simp] theorem State.setPort_bandMoved (s : State) (i : Nat) (x : Port) : (s.setPort i x).bandMoved = s.bandMoved := rfl
@[simp] theorem State.setPort_thrJudged (s : State) (i : Nat) (x : Port) : (s.setPort i x).thrJudged = s.thrJudged := rfl
@[simp] theorem State.setPort_spareLeft (s : State) (i : Nat) (x : Port) : (s.setPort i x).spareLeft = s.spareLeft := rfl
@[simp] theorem State.setPort_aerLog (s : State) (i : Nat) (x : Port) : (s.setPort i x).aerLog = s.aerLog := rfl
@[simp] theorem State.setPort_loading (s : State) (i : Nat) (x : Port) : (s.setPort i x).loading = s.loading := rfl
@[simp] theorem State.setPort_channels (s : State) (i : Nat) (x : Port) : (s.setPort i x).channels = s.channels := rfl
@[simp] theorem State.setPort_traceLast (s : State) (i : Nat) (x : Port) : (s.setPort i x).traceLast = s.traceLast := rfl
@[simp] theorem State.setPort_counters (s : State) (i : Nat) (x : Port) : (s.setPort i x).counters = s.counters := rfl
@[simp] theorem State.setPort_spotDue (s : State) (i : Nat) (x : Port) : (s.setPort i x).spotDue = s.spotDue := rfl
@[simp] theorem State.setPort_heldRules (s : State) (i : Nat) (x : Port) : (s.setPort i x).heldRules = s.heldRules := rfl
@[simp] theorem State.setPort_outMarks (s : State) (i : Nat) (x : Port) : (s.setPort i x).outMarks = s.outMarks := rfl
@[simp] theorem State.setShard_pending (s : State) (i : Nat) (x : Shard) : (s.setShard i x).pending = s.pending := rfl
@[simp] theorem State.setShard_time (s : State) (i : Nat) (x : Shard) : (s.setShard i x).time = s.time := rfl
@[simp] theorem State.setShard_fresh (s : State) (i : Nat) (x : Shard) : (s.setShard i x).fresh = s.fresh := rfl
@[simp] theorem State.setShard_out (s : State) (i : Nat) (x : Shard) : (s.setShard i x).out = s.out := rfl
@[simp] theorem State.setShard_regs (s : State) (i : Nat) (x : Shard) : (s.setShard i x).regs = s.regs := rfl
@[simp] theorem State.setShard_latches (s : State) (i : Nat) (x : Shard) : (s.setShard i x).latches = s.latches := rfl
@[simp] theorem State.setShard_sram (s : State) (i : Nat) (x : Shard) : (s.setShard i x).sram = s.sram := rfl
@[simp] theorem State.setShard_ecc (s : State) (i : Nat) (x : Shard) : (s.setShard i x).ecc = s.ecc := rfl
@[simp] theorem State.setShard_cmWait (s : State) (i : Nat) (x : Shard) : (s.setShard i x).cmWait = s.cmWait := rfl
@[simp] theorem State.setShard_tokenPool (s : State) (i : Nat) (x : Shard) : (s.setShard i x).tokenPool = s.tokenPool := rfl
@[simp] theorem State.setShard_tokenHeld (s : State) (i : Nat) (x : Shard) : (s.setShard i x).tokenHeld = s.tokenHeld := rfl
@[simp] theorem State.setShard_tokenWait (s : State) (i : Nat) (x : Shard) : (s.setShard i x).tokenWait = s.tokenWait := rfl
@[simp] theorem State.setShard_cells (s : State) (i : Nat) (x : Shard) : (s.setShard i x).cells = s.cells := rfl
@[simp] theorem State.setShard_engines (s : State) (i : Nat) (x : Shard) : (s.setShard i x).engines = s.engines := rfl
@[simp] theorem State.setShard_trackers (s : State) (i : Nat) (x : Shard) : (s.setShard i x).trackers = s.trackers := rfl
@[simp] theorem State.setShard_trims (s : State) (i : Nat) (x : Shard) : (s.setShard i x).trims = s.trims := rfl
@[simp] theorem State.setShard_passes (s : State) (i : Nat) (x : Shard) : (s.setShard i x).passes = s.passes := rfl
@[simp] theorem State.setShard_bandTime (s : State) (i : Nat) (x : Shard) : (s.setShard i x).bandTime = s.bandTime := rfl
@[simp] theorem State.setShard_bandAt (s : State) (i : Nat) (x : Shard) : (s.setShard i x).bandAt = s.bandAt := rfl
@[simp] theorem State.setShard_adderFree (s : State) (i : Nat) (x : Shard) : (s.setShard i x).adderFree = s.adderFree := rfl
@[simp] theorem State.setShard_ocus (s : State) (i : Nat) (x : Shard) : (s.setShard i x).ocus = s.ocus := rfl
@[simp] theorem State.setShard_owls (s : State) (i : Nat) (x : Shard) : (s.setShard i x).owls = s.owls := rfl
@[simp] theorem State.setShard_dac (s : State) (i : Nat) (x : Shard) : (s.setShard i x).dac = s.dac := rfl
@[simp] theorem State.setShard_rings (s : State) (i : Nat) (x : Shard) : (s.setShard i x).rings = s.rings := rfl
@[simp] theorem State.setShard_stations (s : State) (i : Nat) (x : Shard) : (s.setShard i x).stations = s.stations := rfl
@[simp] theorem State.setShard_tiles (s : State) (i : Nat) (x : Shard) : (s.setShard i x).tiles = s.tiles := rfl
@[simp] theorem State.setShard_tmvs (s : State) (i : Nat) (x : Shard) : (s.setShard i x).tmvs = s.tmvs := rfl
@[simp] theorem State.setShard_ctxs (s : State) (i : Nat) (x : Shard) : (s.setShard i x).ctxs = s.ctxs := rfl
@[simp] theorem State.setShard_ingests (s : State) (i : Nat) (x : Shard) : (s.setShard i x).ingests = s.ingests := rfl
@[simp] theorem State.setShard_offers (s : State) (i : Nat) (x : Shard) : (s.setShard i x).offers = s.offers := rfl
@[simp] theorem State.setShard_scrubs (s : State) (i : Nat) (x : Shard) : (s.setShard i x).scrubs = s.scrubs := rfl
@[simp] theorem State.setShard_busy (s : State) (i : Nat) (x : Shard) : (s.setShard i x).busy = s.busy := rfl
@[simp] theorem State.setShard_ports (s : State) (i : Nat) (x : Shard) : (s.setShard i x).ports = s.ports := rfl
@[simp] theorem State.setShard_threads (s : State) (i : Nat) (x : Shard) : (s.setShard i x).threads = s.threads := rfl
@[simp] theorem State.setShard_flights (s : State) (i : Nat) (x : Shard) : (s.setShard i x).flights = s.flights := rfl
@[simp] theorem State.setShard_groups (s : State) (i : Nat) (x : Shard) : (s.setShard i x).groups = s.groups := rfl
@[simp] theorem State.setShard_sets (s : State) (i : Nat) (x : Shard) : (s.setShard i x).sets = s.sets := rfl
@[simp] theorem State.setShard_snaps (s : State) (i : Nat) (x : Shard) : (s.setShard i x).snaps = s.snaps := rfl
@[simp] theorem State.setShard_parts (s : State) (i : Nat) (x : Shard) : (s.setShard i x).parts = s.parts := rfl
@[simp] theorem State.setShard_placed (s : State) (i : Nat) (x : Shard) : (s.setShard i x).placed = s.placed := rfl
@[simp] theorem State.setShard_jobs (s : State) (i : Nat) (x : Shard) : (s.setShard i x).jobs = s.jobs := rfl
@[simp] theorem State.setShard_beavers (s : State) (i : Nat) (x : Shard) : (s.setShard i x).beavers = s.beavers := rfl
@[simp] theorem State.setShard_turn (s : State) (i : Nat) (x : Shard) : (s.setShard i x).turn = s.turn := rfl
@[simp] theorem State.setShard_modelKeys (s : State) (i : Nat) (x : Shard) : (s.setShard i x).modelKeys = s.modelKeys := rfl
@[simp] theorem State.setShard_shadows (s : State) (i : Nat) (x : Shard) : (s.setShard i x).shadows = s.shadows := rfl
@[simp] theorem State.setShard_weak (s : State) (i : Nat) (x : Shard) : (s.setShard i x).weak = s.weak := rfl
@[simp] theorem State.setShard_buckets (s : State) (i : Nat) (x : Shard) : (s.setShard i x).buckets = s.buckets := rfl
@[simp] theorem State.setShard_bucketAt (s : State) (i : Nat) (x : Shard) : (s.setShard i x).bucketAt = s.bucketAt := rfl
@[simp] theorem State.setShard_fns (s : State) (i : Nat) (x : Shard) : (s.setShard i x).fns = s.fns := rfl
@[simp] theorem State.setShard_numVfs (s : State) (i : Nat) (x : Shard) : (s.setShard i x).numVfs = s.numVfs := rfl
@[simp] theorem State.setShard_accepted (s : State) (i : Nat) (x : Shard) : (s.setShard i x).accepted = s.accepted := rfl
@[simp] theorem State.setShard_pba (s : State) (i : Nat) (x : Shard) : (s.setShard i x).pba = s.pba := rfl
@[simp] theorem State.setShard_events (s : State) (i : Nat) (x : Shard) : (s.setShard i x).events = s.events := rfl
@[simp] theorem State.setShard_traces (s : State) (i : Nat) (x : Shard) : (s.setShard i x).traces = s.traces := rfl
@[simp] theorem State.setShard_traceSeq (s : State) (i : Nat) (x : Shard) : (s.setShard i x).traceSeq = s.traceSeq := rfl
@[simp] theorem State.setShard_points (s : State) (i : Nat) (x : Shard) : (s.setShard i x).points = s.points := rfl
@[simp] theorem State.setShard_twLatch (s : State) (i : Nat) (x : Shard) : (s.setShard i x).twLatch = s.twLatch := rfl
@[simp] theorem State.setShard_digests (s : State) (i : Nat) (x : Shard) : (s.setShard i x).digests = s.digests := rfl
@[simp] theorem State.setShard_tencs (s : State) (i : Nat) (x : Shard) : (s.setShard i x).tencs = s.tencs := rfl
@[simp] theorem State.setShard_totals (s : State) (i : Nat) (x : Shard) : (s.setShard i x).totals = s.totals := rfl
@[simp] theorem State.setShard_links (s : State) (i : Nat) (x : Shard) : (s.setShard i x).links = s.links := rfl
@[simp] theorem State.setShard_domain (s : State) (i : Nat) (x : Shard) : (s.setShard i x).domain = s.domain := rfl
@[simp] theorem State.setShard_offsets (s : State) (i : Nat) (x : Shard) : (s.setShard i x).offsets = s.offsets := rfl
@[simp] theorem State.setShard_wakes (s : State) (i : Nat) (x : Shard) : (s.setShard i x).wakes = s.wakes := rfl
@[simp] theorem State.setShard_norA (s : State) (i : Nat) (x : Shard) : (s.setShard i x).norA = s.norA := rfl
@[simp] theorem State.setShard_norB (s : State) (i : Nat) (x : Shard) : (s.setShard i x).norB = s.norB := rfl
@[simp] theorem State.setShard_image (s : State) (i : Nat) (x : Shard) : (s.setShard i x).image = s.image := rfl
@[simp] theorem State.setShard_perst (s : State) (i : Nat) (x : Shard) : (s.setShard i x).perst = s.perst := rfl
@[simp] theorem State.setShard_wakeAsked (s : State) (i : Nat) (x : Shard) : (s.setShard i x).wakeAsked = s.wakeAsked := rfl
@[simp] theorem State.setShard_shutRec (s : State) (i : Nat) (x : Shard) : (s.setShard i x).shutRec = s.shutRec := rfl
@[simp] theorem State.setShard_calRec (s : State) (i : Nat) (x : Shard) : (s.setShard i x).calRec = s.calRec := rfl
@[simp] theorem State.setShard_capNow (s : State) (i : Nat) (x : Shard) : (s.setShard i x).capNow = s.capNow := rfl
@[simp] theorem State.setShard_pgmFault (s : State) (i : Nat) (x : Shard) : (s.setShard i x).pgmFault = s.pgmFault := rfl
@[simp] theorem State.setShard_regFails (s : State) (i : Nat) (x : Shard) : (s.setShard i x).regFails = s.regFails := rfl
@[simp] theorem State.setShard_regTried (s : State) (i : Nat) (x : Shard) : (s.setShard i x).regTried = s.regTried := rfl
@[simp] theorem State.setShard_avs (s : State) (i : Nat) (x : Shard) : (s.setShard i x).avs = s.avs := rfl
@[simp] theorem State.setShard_sensors (s : State) (i : Nat) (x : Shard) : (s.setShard i x).sensors = s.sensors := rfl
@[simp] theorem State.setShard_medPrev (s : State) (i : Nat) (x : Shard) : (s.setShard i x).medPrev = s.medPrev := rfl
@[simp] theorem State.setShard_deadCls (s : State) (i : Nat) (x : Shard) : (s.setShard i x).deadCls = s.deadCls := rfl
@[simp] theorem State.setShard_onAt (s : State) (i : Nat) (x : Shard) : (s.setShard i x).onAt = s.onAt := rfl
@[simp] theorem State.setShard_onCl (s : State) (i : Nat) (x : Shard) : (s.setShard i x).onCl = s.onCl := rfl
@[simp] theorem State.setShard_settMem (s : State) (i : Nat) (x : Shard) : (s.setShard i x).settMem = s.settMem := rfl
@[simp] theorem State.setShard_settBuf (s : State) (i : Nat) (x : Shard) : (s.setShard i x).settBuf = s.settBuf := rfl
@[simp] theorem State.setShard_settList (s : State) (i : Nat) (x : Shard) : (s.setShard i x).settList = s.settList := rfl
@[simp] theorem State.setShard_settQueue (s : State) (i : Nat) (x : Shard) : (s.setShard i x).settQueue = s.settQueue := rfl
@[simp] theorem State.setShard_settCommits (s : State) (i : Nat) (x : Shard) : (s.setShard i x).settCommits = s.settCommits := rfl
@[simp] theorem State.setShard_settRefreshes (s : State) (i : Nat) (x : Shard) : (s.setShard i x).settRefreshes = s.settRefreshes := rfl
@[simp] theorem State.setShard_ringNext (s : State) (i : Nat) (x : Shard) : (s.setShard i x).ringNext = s.ringNext := rfl
@[simp] theorem State.setShard_ringSeq (s : State) (i : Nat) (x : Shard) : (s.setShard i x).ringSeq = s.ringSeq := rfl
@[simp] theorem State.setShard_lc (s : State) (i : Nat) (x : Shard) : (s.setShard i x).lc = s.lc := rfl
@[simp] theorem State.setShard_lcBusy (s : State) (i : Nat) (x : Shard) : (s.setShard i x).lcBusy = s.lcBusy := rfl
@[simp] theorem State.setShard_fwTarget (s : State) (i : Nat) (x : Shard) : (s.setShard i x).fwTarget = s.fwTarget := rfl
@[simp] theorem State.setShard_signKeys (s : State) (i : Nat) (x : Shard) : (s.setShard i x).signKeys = s.signKeys := rfl
@[simp] theorem State.setShard_spot (s : State) (i : Nat) (x : Shard) : (s.setShard i x).spot = s.spot := rfl
@[simp] theorem State.setShard_bearAt (s : State) (i : Nat) (x : Shard) : (s.setShard i x).bearAt = s.bearAt := rfl
@[simp] theorem State.setShard_wins (s : State) (i : Nat) (x : Shard) : (s.setShard i x).wins = s.wins := rfl
@[simp] theorem State.setShard_wrules (s : State) (i : Nat) (x : Shard) : (s.setShard i x).wrules = s.wrules := rfl
@[simp] theorem State.setShard_wioDown (s : State) (i : Nat) (x : Shard) : (s.setShard i x).wioDown = s.wioDown := rfl
@[simp] theorem State.setShard_base (s : State) (i : Nat) (x : Shard) : (s.setShard i x).base = s.base := rfl
@[simp] theorem State.setShard_pllOff (s : State) (i : Nat) (x : Shard) : (s.setShard i x).pllOff = s.pllOff := rfl
@[simp] theorem State.setShard_cmLast (s : State) (i : Nat) (x : Shard) : (s.setShard i x).cmLast = s.cmLast := rfl
@[simp] theorem State.setShard_clrAt (s : State) (i : Nat) (x : Shard) : (s.setShard i x).clrAt = s.clrAt := rfl
@[simp] theorem State.setShard_syncAt (s : State) (i : Nat) (x : Shard) : (s.setShard i x).syncAt = s.syncAt := rfl
@[simp] theorem State.setShard_trgAt (s : State) (i : Nat) (x : Shard) : (s.setShard i x).trgAt = s.trgAt := rfl
@[simp] theorem State.setShard_snapHeld (s : State) (i : Nat) (x : Shard) : (s.setShard i x).snapHeld = s.snapHeld := rfl
@[simp] theorem State.setShard_resets (s : State) (i : Nat) (x : Shard) : (s.setShard i x).resets = s.resets := rfl
@[simp] theorem State.setShard_accounts (s : State) (i : Nat) (x : Shard) : (s.setShard i x).accounts = s.accounts := rfl
@[simp] theorem State.setShard_refillAt (s : State) (i : Nat) (x : Shard) : (s.setShard i x).refillAt = s.refillAt := rfl
@[simp] theorem State.setShard_grants (s : State) (i : Nat) (x : Shard) : (s.setShard i x).grants = s.grants := rfl
@[simp] theorem State.setShard_bandMoved (s : State) (i : Nat) (x : Shard) : (s.setShard i x).bandMoved = s.bandMoved := rfl
@[simp] theorem State.setShard_thrJudged (s : State) (i : Nat) (x : Shard) : (s.setShard i x).thrJudged = s.thrJudged := rfl
@[simp] theorem State.setShard_spareLeft (s : State) (i : Nat) (x : Shard) : (s.setShard i x).spareLeft = s.spareLeft := rfl
@[simp] theorem State.setShard_aerLog (s : State) (i : Nat) (x : Shard) : (s.setShard i x).aerLog = s.aerLog := rfl
@[simp] theorem State.setShard_loading (s : State) (i : Nat) (x : Shard) : (s.setShard i x).loading = s.loading := rfl
@[simp] theorem State.setShard_channels (s : State) (i : Nat) (x : Shard) : (s.setShard i x).channels = s.channels := rfl
@[simp] theorem State.setShard_traceLast (s : State) (i : Nat) (x : Shard) : (s.setShard i x).traceLast = s.traceLast := rfl
@[simp] theorem State.setShard_counters (s : State) (i : Nat) (x : Shard) : (s.setShard i x).counters = s.counters := rfl
@[simp] theorem State.setShard_spotDue (s : State) (i : Nat) (x : Shard) : (s.setShard i x).spotDue = s.spotDue := rfl
@[simp] theorem State.setShard_heldRules (s : State) (i : Nat) (x : Shard) : (s.setShard i x).heldRules = s.heldRules := rfl
@[simp] theorem State.setShard_outMarks (s : State) (i : Nat) (x : Shard) : (s.setShard i x).outMarks = s.outMarks := rfl
@[simp] theorem State.setBeaver_pending (s : State) (i : Nat) (x : Option Beaver) : (s.setBeaver i x).pending = s.pending := rfl
@[simp] theorem State.setBeaver_time (s : State) (i : Nat) (x : Option Beaver) : (s.setBeaver i x).time = s.time := rfl
@[simp] theorem State.setBeaver_fresh (s : State) (i : Nat) (x : Option Beaver) : (s.setBeaver i x).fresh = s.fresh := rfl
@[simp] theorem State.setBeaver_out (s : State) (i : Nat) (x : Option Beaver) : (s.setBeaver i x).out = s.out := rfl
@[simp] theorem State.setBeaver_regs (s : State) (i : Nat) (x : Option Beaver) : (s.setBeaver i x).regs = s.regs := rfl
@[simp] theorem State.setBeaver_latches (s : State) (i : Nat) (x : Option Beaver) : (s.setBeaver i x).latches = s.latches := rfl
@[simp] theorem State.setBeaver_sram (s : State) (i : Nat) (x : Option Beaver) : (s.setBeaver i x).sram = s.sram := rfl
@[simp] theorem State.setBeaver_ecc (s : State) (i : Nat) (x : Option Beaver) : (s.setBeaver i x).ecc = s.ecc := rfl
@[simp] theorem State.setBeaver_cmWait (s : State) (i : Nat) (x : Option Beaver) : (s.setBeaver i x).cmWait = s.cmWait := rfl
@[simp] theorem State.setBeaver_tokenPool (s : State) (i : Nat) (x : Option Beaver) : (s.setBeaver i x).tokenPool = s.tokenPool := rfl
@[simp] theorem State.setBeaver_tokenHeld (s : State) (i : Nat) (x : Option Beaver) : (s.setBeaver i x).tokenHeld = s.tokenHeld := rfl
@[simp] theorem State.setBeaver_tokenWait (s : State) (i : Nat) (x : Option Beaver) : (s.setBeaver i x).tokenWait = s.tokenWait := rfl
@[simp] theorem State.setBeaver_cells (s : State) (i : Nat) (x : Option Beaver) : (s.setBeaver i x).cells = s.cells := rfl
@[simp] theorem State.setBeaver_engines (s : State) (i : Nat) (x : Option Beaver) : (s.setBeaver i x).engines = s.engines := rfl
@[simp] theorem State.setBeaver_trackers (s : State) (i : Nat) (x : Option Beaver) : (s.setBeaver i x).trackers = s.trackers := rfl
@[simp] theorem State.setBeaver_trims (s : State) (i : Nat) (x : Option Beaver) : (s.setBeaver i x).trims = s.trims := rfl
@[simp] theorem State.setBeaver_passes (s : State) (i : Nat) (x : Option Beaver) : (s.setBeaver i x).passes = s.passes := rfl
@[simp] theorem State.setBeaver_bandTime (s : State) (i : Nat) (x : Option Beaver) : (s.setBeaver i x).bandTime = s.bandTime := rfl
@[simp] theorem State.setBeaver_bandAt (s : State) (i : Nat) (x : Option Beaver) : (s.setBeaver i x).bandAt = s.bandAt := rfl
@[simp] theorem State.setBeaver_adderFree (s : State) (i : Nat) (x : Option Beaver) : (s.setBeaver i x).adderFree = s.adderFree := rfl
@[simp] theorem State.setBeaver_ocus (s : State) (i : Nat) (x : Option Beaver) : (s.setBeaver i x).ocus = s.ocus := rfl
@[simp] theorem State.setBeaver_owls (s : State) (i : Nat) (x : Option Beaver) : (s.setBeaver i x).owls = s.owls := rfl
@[simp] theorem State.setBeaver_dac (s : State) (i : Nat) (x : Option Beaver) : (s.setBeaver i x).dac = s.dac := rfl
@[simp] theorem State.setBeaver_rings (s : State) (i : Nat) (x : Option Beaver) : (s.setBeaver i x).rings = s.rings := rfl
@[simp] theorem State.setBeaver_stations (s : State) (i : Nat) (x : Option Beaver) : (s.setBeaver i x).stations = s.stations := rfl
@[simp] theorem State.setBeaver_tiles (s : State) (i : Nat) (x : Option Beaver) : (s.setBeaver i x).tiles = s.tiles := rfl
@[simp] theorem State.setBeaver_tmvs (s : State) (i : Nat) (x : Option Beaver) : (s.setBeaver i x).tmvs = s.tmvs := rfl
@[simp] theorem State.setBeaver_ctxs (s : State) (i : Nat) (x : Option Beaver) : (s.setBeaver i x).ctxs = s.ctxs := rfl
@[simp] theorem State.setBeaver_ingests (s : State) (i : Nat) (x : Option Beaver) : (s.setBeaver i x).ingests = s.ingests := rfl
@[simp] theorem State.setBeaver_offers (s : State) (i : Nat) (x : Option Beaver) : (s.setBeaver i x).offers = s.offers := rfl
@[simp] theorem State.setBeaver_scrubs (s : State) (i : Nat) (x : Option Beaver) : (s.setBeaver i x).scrubs = s.scrubs := rfl
@[simp] theorem State.setBeaver_busy (s : State) (i : Nat) (x : Option Beaver) : (s.setBeaver i x).busy = s.busy := rfl
@[simp] theorem State.setBeaver_ports (s : State) (i : Nat) (x : Option Beaver) : (s.setBeaver i x).ports = s.ports := rfl
@[simp] theorem State.setBeaver_threads (s : State) (i : Nat) (x : Option Beaver) : (s.setBeaver i x).threads = s.threads := rfl
@[simp] theorem State.setBeaver_flights (s : State) (i : Nat) (x : Option Beaver) : (s.setBeaver i x).flights = s.flights := rfl
@[simp] theorem State.setBeaver_groups (s : State) (i : Nat) (x : Option Beaver) : (s.setBeaver i x).groups = s.groups := rfl
@[simp] theorem State.setBeaver_sets (s : State) (i : Nat) (x : Option Beaver) : (s.setBeaver i x).sets = s.sets := rfl
@[simp] theorem State.setBeaver_snaps (s : State) (i : Nat) (x : Option Beaver) : (s.setBeaver i x).snaps = s.snaps := rfl
@[simp] theorem State.setBeaver_parts (s : State) (i : Nat) (x : Option Beaver) : (s.setBeaver i x).parts = s.parts := rfl
@[simp] theorem State.setBeaver_placed (s : State) (i : Nat) (x : Option Beaver) : (s.setBeaver i x).placed = s.placed := rfl
@[simp] theorem State.setBeaver_jobs (s : State) (i : Nat) (x : Option Beaver) : (s.setBeaver i x).jobs = s.jobs := rfl
@[simp] theorem State.setBeaver_turn (s : State) (i : Nat) (x : Option Beaver) : (s.setBeaver i x).turn = s.turn := rfl
@[simp] theorem State.setBeaver_shards (s : State) (i : Nat) (x : Option Beaver) : (s.setBeaver i x).shards = s.shards := rfl
@[simp] theorem State.setBeaver_modelKeys (s : State) (i : Nat) (x : Option Beaver) : (s.setBeaver i x).modelKeys = s.modelKeys := rfl
@[simp] theorem State.setBeaver_shadows (s : State) (i : Nat) (x : Option Beaver) : (s.setBeaver i x).shadows = s.shadows := rfl
@[simp] theorem State.setBeaver_weak (s : State) (i : Nat) (x : Option Beaver) : (s.setBeaver i x).weak = s.weak := rfl
@[simp] theorem State.setBeaver_buckets (s : State) (i : Nat) (x : Option Beaver) : (s.setBeaver i x).buckets = s.buckets := rfl
@[simp] theorem State.setBeaver_bucketAt (s : State) (i : Nat) (x : Option Beaver) : (s.setBeaver i x).bucketAt = s.bucketAt := rfl
@[simp] theorem State.setBeaver_fns (s : State) (i : Nat) (x : Option Beaver) : (s.setBeaver i x).fns = s.fns := rfl
@[simp] theorem State.setBeaver_numVfs (s : State) (i : Nat) (x : Option Beaver) : (s.setBeaver i x).numVfs = s.numVfs := rfl
@[simp] theorem State.setBeaver_accepted (s : State) (i : Nat) (x : Option Beaver) : (s.setBeaver i x).accepted = s.accepted := rfl
@[simp] theorem State.setBeaver_pba (s : State) (i : Nat) (x : Option Beaver) : (s.setBeaver i x).pba = s.pba := rfl
@[simp] theorem State.setBeaver_events (s : State) (i : Nat) (x : Option Beaver) : (s.setBeaver i x).events = s.events := rfl
@[simp] theorem State.setBeaver_traces (s : State) (i : Nat) (x : Option Beaver) : (s.setBeaver i x).traces = s.traces := rfl
@[simp] theorem State.setBeaver_traceSeq (s : State) (i : Nat) (x : Option Beaver) : (s.setBeaver i x).traceSeq = s.traceSeq := rfl
@[simp] theorem State.setBeaver_points (s : State) (i : Nat) (x : Option Beaver) : (s.setBeaver i x).points = s.points := rfl
@[simp] theorem State.setBeaver_twLatch (s : State) (i : Nat) (x : Option Beaver) : (s.setBeaver i x).twLatch = s.twLatch := rfl
@[simp] theorem State.setBeaver_digests (s : State) (i : Nat) (x : Option Beaver) : (s.setBeaver i x).digests = s.digests := rfl
@[simp] theorem State.setBeaver_tencs (s : State) (i : Nat) (x : Option Beaver) : (s.setBeaver i x).tencs = s.tencs := rfl
@[simp] theorem State.setBeaver_totals (s : State) (i : Nat) (x : Option Beaver) : (s.setBeaver i x).totals = s.totals := rfl
@[simp] theorem State.setBeaver_links (s : State) (i : Nat) (x : Option Beaver) : (s.setBeaver i x).links = s.links := rfl
@[simp] theorem State.setBeaver_domain (s : State) (i : Nat) (x : Option Beaver) : (s.setBeaver i x).domain = s.domain := rfl
@[simp] theorem State.setBeaver_offsets (s : State) (i : Nat) (x : Option Beaver) : (s.setBeaver i x).offsets = s.offsets := rfl
@[simp] theorem State.setBeaver_wakes (s : State) (i : Nat) (x : Option Beaver) : (s.setBeaver i x).wakes = s.wakes := rfl
@[simp] theorem State.setBeaver_norA (s : State) (i : Nat) (x : Option Beaver) : (s.setBeaver i x).norA = s.norA := rfl
@[simp] theorem State.setBeaver_norB (s : State) (i : Nat) (x : Option Beaver) : (s.setBeaver i x).norB = s.norB := rfl
@[simp] theorem State.setBeaver_image (s : State) (i : Nat) (x : Option Beaver) : (s.setBeaver i x).image = s.image := rfl
@[simp] theorem State.setBeaver_perst (s : State) (i : Nat) (x : Option Beaver) : (s.setBeaver i x).perst = s.perst := rfl
@[simp] theorem State.setBeaver_wakeAsked (s : State) (i : Nat) (x : Option Beaver) : (s.setBeaver i x).wakeAsked = s.wakeAsked := rfl
@[simp] theorem State.setBeaver_shutRec (s : State) (i : Nat) (x : Option Beaver) : (s.setBeaver i x).shutRec = s.shutRec := rfl
@[simp] theorem State.setBeaver_calRec (s : State) (i : Nat) (x : Option Beaver) : (s.setBeaver i x).calRec = s.calRec := rfl
@[simp] theorem State.setBeaver_capNow (s : State) (i : Nat) (x : Option Beaver) : (s.setBeaver i x).capNow = s.capNow := rfl
@[simp] theorem State.setBeaver_pgmFault (s : State) (i : Nat) (x : Option Beaver) : (s.setBeaver i x).pgmFault = s.pgmFault := rfl
@[simp] theorem State.setBeaver_regFails (s : State) (i : Nat) (x : Option Beaver) : (s.setBeaver i x).regFails = s.regFails := rfl
@[simp] theorem State.setBeaver_regTried (s : State) (i : Nat) (x : Option Beaver) : (s.setBeaver i x).regTried = s.regTried := rfl
@[simp] theorem State.setBeaver_avs (s : State) (i : Nat) (x : Option Beaver) : (s.setBeaver i x).avs = s.avs := rfl
@[simp] theorem State.setBeaver_sensors (s : State) (i : Nat) (x : Option Beaver) : (s.setBeaver i x).sensors = s.sensors := rfl
@[simp] theorem State.setBeaver_medPrev (s : State) (i : Nat) (x : Option Beaver) : (s.setBeaver i x).medPrev = s.medPrev := rfl
@[simp] theorem State.setBeaver_deadCls (s : State) (i : Nat) (x : Option Beaver) : (s.setBeaver i x).deadCls = s.deadCls := rfl
@[simp] theorem State.setBeaver_onAt (s : State) (i : Nat) (x : Option Beaver) : (s.setBeaver i x).onAt = s.onAt := rfl
@[simp] theorem State.setBeaver_onCl (s : State) (i : Nat) (x : Option Beaver) : (s.setBeaver i x).onCl = s.onCl := rfl
@[simp] theorem State.setBeaver_settMem (s : State) (i : Nat) (x : Option Beaver) : (s.setBeaver i x).settMem = s.settMem := rfl
@[simp] theorem State.setBeaver_settBuf (s : State) (i : Nat) (x : Option Beaver) : (s.setBeaver i x).settBuf = s.settBuf := rfl
@[simp] theorem State.setBeaver_settList (s : State) (i : Nat) (x : Option Beaver) : (s.setBeaver i x).settList = s.settList := rfl
@[simp] theorem State.setBeaver_settQueue (s : State) (i : Nat) (x : Option Beaver) : (s.setBeaver i x).settQueue = s.settQueue := rfl
@[simp] theorem State.setBeaver_settCommits (s : State) (i : Nat) (x : Option Beaver) : (s.setBeaver i x).settCommits = s.settCommits := rfl
@[simp] theorem State.setBeaver_settRefreshes (s : State) (i : Nat) (x : Option Beaver) : (s.setBeaver i x).settRefreshes = s.settRefreshes := rfl
@[simp] theorem State.setBeaver_ringNext (s : State) (i : Nat) (x : Option Beaver) : (s.setBeaver i x).ringNext = s.ringNext := rfl
@[simp] theorem State.setBeaver_ringSeq (s : State) (i : Nat) (x : Option Beaver) : (s.setBeaver i x).ringSeq = s.ringSeq := rfl
@[simp] theorem State.setBeaver_lc (s : State) (i : Nat) (x : Option Beaver) : (s.setBeaver i x).lc = s.lc := rfl
@[simp] theorem State.setBeaver_lcBusy (s : State) (i : Nat) (x : Option Beaver) : (s.setBeaver i x).lcBusy = s.lcBusy := rfl
@[simp] theorem State.setBeaver_fwTarget (s : State) (i : Nat) (x : Option Beaver) : (s.setBeaver i x).fwTarget = s.fwTarget := rfl
@[simp] theorem State.setBeaver_signKeys (s : State) (i : Nat) (x : Option Beaver) : (s.setBeaver i x).signKeys = s.signKeys := rfl
@[simp] theorem State.setBeaver_spot (s : State) (i : Nat) (x : Option Beaver) : (s.setBeaver i x).spot = s.spot := rfl
@[simp] theorem State.setBeaver_bearAt (s : State) (i : Nat) (x : Option Beaver) : (s.setBeaver i x).bearAt = s.bearAt := rfl
@[simp] theorem State.setBeaver_wins (s : State) (i : Nat) (x : Option Beaver) : (s.setBeaver i x).wins = s.wins := rfl
@[simp] theorem State.setBeaver_wrules (s : State) (i : Nat) (x : Option Beaver) : (s.setBeaver i x).wrules = s.wrules := rfl
@[simp] theorem State.setBeaver_wioDown (s : State) (i : Nat) (x : Option Beaver) : (s.setBeaver i x).wioDown = s.wioDown := rfl
@[simp] theorem State.setBeaver_base (s : State) (i : Nat) (x : Option Beaver) : (s.setBeaver i x).base = s.base := rfl
@[simp] theorem State.setBeaver_pllOff (s : State) (i : Nat) (x : Option Beaver) : (s.setBeaver i x).pllOff = s.pllOff := rfl
@[simp] theorem State.setBeaver_cmLast (s : State) (i : Nat) (x : Option Beaver) : (s.setBeaver i x).cmLast = s.cmLast := rfl
@[simp] theorem State.setBeaver_clrAt (s : State) (i : Nat) (x : Option Beaver) : (s.setBeaver i x).clrAt = s.clrAt := rfl
@[simp] theorem State.setBeaver_syncAt (s : State) (i : Nat) (x : Option Beaver) : (s.setBeaver i x).syncAt = s.syncAt := rfl
@[simp] theorem State.setBeaver_trgAt (s : State) (i : Nat) (x : Option Beaver) : (s.setBeaver i x).trgAt = s.trgAt := rfl
@[simp] theorem State.setBeaver_snapHeld (s : State) (i : Nat) (x : Option Beaver) : (s.setBeaver i x).snapHeld = s.snapHeld := rfl
@[simp] theorem State.setBeaver_resets (s : State) (i : Nat) (x : Option Beaver) : (s.setBeaver i x).resets = s.resets := rfl
@[simp] theorem State.setBeaver_accounts (s : State) (i : Nat) (x : Option Beaver) : (s.setBeaver i x).accounts = s.accounts := rfl
@[simp] theorem State.setBeaver_refillAt (s : State) (i : Nat) (x : Option Beaver) : (s.setBeaver i x).refillAt = s.refillAt := rfl
@[simp] theorem State.setBeaver_grants (s : State) (i : Nat) (x : Option Beaver) : (s.setBeaver i x).grants = s.grants := rfl
@[simp] theorem State.setBeaver_bandMoved (s : State) (i : Nat) (x : Option Beaver) : (s.setBeaver i x).bandMoved = s.bandMoved := rfl
@[simp] theorem State.setBeaver_thrJudged (s : State) (i : Nat) (x : Option Beaver) : (s.setBeaver i x).thrJudged = s.thrJudged := rfl
@[simp] theorem State.setBeaver_spareLeft (s : State) (i : Nat) (x : Option Beaver) : (s.setBeaver i x).spareLeft = s.spareLeft := rfl
@[simp] theorem State.setBeaver_aerLog (s : State) (i : Nat) (x : Option Beaver) : (s.setBeaver i x).aerLog = s.aerLog := rfl
@[simp] theorem State.setBeaver_loading (s : State) (i : Nat) (x : Option Beaver) : (s.setBeaver i x).loading = s.loading := rfl
@[simp] theorem State.setBeaver_channels (s : State) (i : Nat) (x : Option Beaver) : (s.setBeaver i x).channels = s.channels := rfl
@[simp] theorem State.setBeaver_traceLast (s : State) (i : Nat) (x : Option Beaver) : (s.setBeaver i x).traceLast = s.traceLast := rfl
@[simp] theorem State.setBeaver_counters (s : State) (i : Nat) (x : Option Beaver) : (s.setBeaver i x).counters = s.counters := rfl
@[simp] theorem State.setBeaver_spotDue (s : State) (i : Nat) (x : Option Beaver) : (s.setBeaver i x).spotDue = s.spotDue := rfl
@[simp] theorem State.setBeaver_heldRules (s : State) (i : Nat) (x : Option Beaver) : (s.setBeaver i x).heldRules = s.heldRules := rfl
@[simp] theorem State.setBeaver_outMarks (s : State) (i : Nat) (x : Option Beaver) : (s.setBeaver i x).outMarks = s.outMarks := rfl
@[simp] theorem State.setJobQ_pending (s : State) (i : Nat) (x : List Job) : (s.setJobQ i x).pending = s.pending := rfl
@[simp] theorem State.setJobQ_time (s : State) (i : Nat) (x : List Job) : (s.setJobQ i x).time = s.time := rfl
@[simp] theorem State.setJobQ_fresh (s : State) (i : Nat) (x : List Job) : (s.setJobQ i x).fresh = s.fresh := rfl
@[simp] theorem State.setJobQ_out (s : State) (i : Nat) (x : List Job) : (s.setJobQ i x).out = s.out := rfl
@[simp] theorem State.setJobQ_regs (s : State) (i : Nat) (x : List Job) : (s.setJobQ i x).regs = s.regs := rfl
@[simp] theorem State.setJobQ_latches (s : State) (i : Nat) (x : List Job) : (s.setJobQ i x).latches = s.latches := rfl
@[simp] theorem State.setJobQ_sram (s : State) (i : Nat) (x : List Job) : (s.setJobQ i x).sram = s.sram := rfl
@[simp] theorem State.setJobQ_ecc (s : State) (i : Nat) (x : List Job) : (s.setJobQ i x).ecc = s.ecc := rfl
@[simp] theorem State.setJobQ_cmWait (s : State) (i : Nat) (x : List Job) : (s.setJobQ i x).cmWait = s.cmWait := rfl
@[simp] theorem State.setJobQ_tokenPool (s : State) (i : Nat) (x : List Job) : (s.setJobQ i x).tokenPool = s.tokenPool := rfl
@[simp] theorem State.setJobQ_tokenHeld (s : State) (i : Nat) (x : List Job) : (s.setJobQ i x).tokenHeld = s.tokenHeld := rfl
@[simp] theorem State.setJobQ_tokenWait (s : State) (i : Nat) (x : List Job) : (s.setJobQ i x).tokenWait = s.tokenWait := rfl
@[simp] theorem State.setJobQ_cells (s : State) (i : Nat) (x : List Job) : (s.setJobQ i x).cells = s.cells := rfl
@[simp] theorem State.setJobQ_engines (s : State) (i : Nat) (x : List Job) : (s.setJobQ i x).engines = s.engines := rfl
@[simp] theorem State.setJobQ_trackers (s : State) (i : Nat) (x : List Job) : (s.setJobQ i x).trackers = s.trackers := rfl
@[simp] theorem State.setJobQ_trims (s : State) (i : Nat) (x : List Job) : (s.setJobQ i x).trims = s.trims := rfl
@[simp] theorem State.setJobQ_passes (s : State) (i : Nat) (x : List Job) : (s.setJobQ i x).passes = s.passes := rfl
@[simp] theorem State.setJobQ_bandTime (s : State) (i : Nat) (x : List Job) : (s.setJobQ i x).bandTime = s.bandTime := rfl
@[simp] theorem State.setJobQ_bandAt (s : State) (i : Nat) (x : List Job) : (s.setJobQ i x).bandAt = s.bandAt := rfl
@[simp] theorem State.setJobQ_adderFree (s : State) (i : Nat) (x : List Job) : (s.setJobQ i x).adderFree = s.adderFree := rfl
@[simp] theorem State.setJobQ_ocus (s : State) (i : Nat) (x : List Job) : (s.setJobQ i x).ocus = s.ocus := rfl
@[simp] theorem State.setJobQ_owls (s : State) (i : Nat) (x : List Job) : (s.setJobQ i x).owls = s.owls := rfl
@[simp] theorem State.setJobQ_dac (s : State) (i : Nat) (x : List Job) : (s.setJobQ i x).dac = s.dac := rfl
@[simp] theorem State.setJobQ_rings (s : State) (i : Nat) (x : List Job) : (s.setJobQ i x).rings = s.rings := rfl
@[simp] theorem State.setJobQ_stations (s : State) (i : Nat) (x : List Job) : (s.setJobQ i x).stations = s.stations := rfl
@[simp] theorem State.setJobQ_tiles (s : State) (i : Nat) (x : List Job) : (s.setJobQ i x).tiles = s.tiles := rfl
@[simp] theorem State.setJobQ_tmvs (s : State) (i : Nat) (x : List Job) : (s.setJobQ i x).tmvs = s.tmvs := rfl
@[simp] theorem State.setJobQ_ctxs (s : State) (i : Nat) (x : List Job) : (s.setJobQ i x).ctxs = s.ctxs := rfl
@[simp] theorem State.setJobQ_ingests (s : State) (i : Nat) (x : List Job) : (s.setJobQ i x).ingests = s.ingests := rfl
@[simp] theorem State.setJobQ_offers (s : State) (i : Nat) (x : List Job) : (s.setJobQ i x).offers = s.offers := rfl
@[simp] theorem State.setJobQ_scrubs (s : State) (i : Nat) (x : List Job) : (s.setJobQ i x).scrubs = s.scrubs := rfl
@[simp] theorem State.setJobQ_busy (s : State) (i : Nat) (x : List Job) : (s.setJobQ i x).busy = s.busy := rfl
@[simp] theorem State.setJobQ_ports (s : State) (i : Nat) (x : List Job) : (s.setJobQ i x).ports = s.ports := rfl
@[simp] theorem State.setJobQ_threads (s : State) (i : Nat) (x : List Job) : (s.setJobQ i x).threads = s.threads := rfl
@[simp] theorem State.setJobQ_flights (s : State) (i : Nat) (x : List Job) : (s.setJobQ i x).flights = s.flights := rfl
@[simp] theorem State.setJobQ_groups (s : State) (i : Nat) (x : List Job) : (s.setJobQ i x).groups = s.groups := rfl
@[simp] theorem State.setJobQ_sets (s : State) (i : Nat) (x : List Job) : (s.setJobQ i x).sets = s.sets := rfl
@[simp] theorem State.setJobQ_snaps (s : State) (i : Nat) (x : List Job) : (s.setJobQ i x).snaps = s.snaps := rfl
@[simp] theorem State.setJobQ_parts (s : State) (i : Nat) (x : List Job) : (s.setJobQ i x).parts = s.parts := rfl
@[simp] theorem State.setJobQ_placed (s : State) (i : Nat) (x : List Job) : (s.setJobQ i x).placed = s.placed := rfl
@[simp] theorem State.setJobQ_beavers (s : State) (i : Nat) (x : List Job) : (s.setJobQ i x).beavers = s.beavers := rfl
@[simp] theorem State.setJobQ_turn (s : State) (i : Nat) (x : List Job) : (s.setJobQ i x).turn = s.turn := rfl
@[simp] theorem State.setJobQ_shards (s : State) (i : Nat) (x : List Job) : (s.setJobQ i x).shards = s.shards := rfl
@[simp] theorem State.setJobQ_modelKeys (s : State) (i : Nat) (x : List Job) : (s.setJobQ i x).modelKeys = s.modelKeys := rfl
@[simp] theorem State.setJobQ_shadows (s : State) (i : Nat) (x : List Job) : (s.setJobQ i x).shadows = s.shadows := rfl
@[simp] theorem State.setJobQ_weak (s : State) (i : Nat) (x : List Job) : (s.setJobQ i x).weak = s.weak := rfl
@[simp] theorem State.setJobQ_buckets (s : State) (i : Nat) (x : List Job) : (s.setJobQ i x).buckets = s.buckets := rfl
@[simp] theorem State.setJobQ_bucketAt (s : State) (i : Nat) (x : List Job) : (s.setJobQ i x).bucketAt = s.bucketAt := rfl
@[simp] theorem State.setJobQ_fns (s : State) (i : Nat) (x : List Job) : (s.setJobQ i x).fns = s.fns := rfl
@[simp] theorem State.setJobQ_numVfs (s : State) (i : Nat) (x : List Job) : (s.setJobQ i x).numVfs = s.numVfs := rfl
@[simp] theorem State.setJobQ_accepted (s : State) (i : Nat) (x : List Job) : (s.setJobQ i x).accepted = s.accepted := rfl
@[simp] theorem State.setJobQ_pba (s : State) (i : Nat) (x : List Job) : (s.setJobQ i x).pba = s.pba := rfl
@[simp] theorem State.setJobQ_events (s : State) (i : Nat) (x : List Job) : (s.setJobQ i x).events = s.events := rfl
@[simp] theorem State.setJobQ_traces (s : State) (i : Nat) (x : List Job) : (s.setJobQ i x).traces = s.traces := rfl
@[simp] theorem State.setJobQ_traceSeq (s : State) (i : Nat) (x : List Job) : (s.setJobQ i x).traceSeq = s.traceSeq := rfl
@[simp] theorem State.setJobQ_points (s : State) (i : Nat) (x : List Job) : (s.setJobQ i x).points = s.points := rfl
@[simp] theorem State.setJobQ_twLatch (s : State) (i : Nat) (x : List Job) : (s.setJobQ i x).twLatch = s.twLatch := rfl
@[simp] theorem State.setJobQ_digests (s : State) (i : Nat) (x : List Job) : (s.setJobQ i x).digests = s.digests := rfl
@[simp] theorem State.setJobQ_tencs (s : State) (i : Nat) (x : List Job) : (s.setJobQ i x).tencs = s.tencs := rfl
@[simp] theorem State.setJobQ_totals (s : State) (i : Nat) (x : List Job) : (s.setJobQ i x).totals = s.totals := rfl
@[simp] theorem State.setJobQ_links (s : State) (i : Nat) (x : List Job) : (s.setJobQ i x).links = s.links := rfl
@[simp] theorem State.setJobQ_domain (s : State) (i : Nat) (x : List Job) : (s.setJobQ i x).domain = s.domain := rfl
@[simp] theorem State.setJobQ_offsets (s : State) (i : Nat) (x : List Job) : (s.setJobQ i x).offsets = s.offsets := rfl
@[simp] theorem State.setJobQ_wakes (s : State) (i : Nat) (x : List Job) : (s.setJobQ i x).wakes = s.wakes := rfl
@[simp] theorem State.setJobQ_norA (s : State) (i : Nat) (x : List Job) : (s.setJobQ i x).norA = s.norA := rfl
@[simp] theorem State.setJobQ_norB (s : State) (i : Nat) (x : List Job) : (s.setJobQ i x).norB = s.norB := rfl
@[simp] theorem State.setJobQ_image (s : State) (i : Nat) (x : List Job) : (s.setJobQ i x).image = s.image := rfl
@[simp] theorem State.setJobQ_perst (s : State) (i : Nat) (x : List Job) : (s.setJobQ i x).perst = s.perst := rfl
@[simp] theorem State.setJobQ_wakeAsked (s : State) (i : Nat) (x : List Job) : (s.setJobQ i x).wakeAsked = s.wakeAsked := rfl
@[simp] theorem State.setJobQ_shutRec (s : State) (i : Nat) (x : List Job) : (s.setJobQ i x).shutRec = s.shutRec := rfl
@[simp] theorem State.setJobQ_calRec (s : State) (i : Nat) (x : List Job) : (s.setJobQ i x).calRec = s.calRec := rfl
@[simp] theorem State.setJobQ_capNow (s : State) (i : Nat) (x : List Job) : (s.setJobQ i x).capNow = s.capNow := rfl
@[simp] theorem State.setJobQ_pgmFault (s : State) (i : Nat) (x : List Job) : (s.setJobQ i x).pgmFault = s.pgmFault := rfl
@[simp] theorem State.setJobQ_regFails (s : State) (i : Nat) (x : List Job) : (s.setJobQ i x).regFails = s.regFails := rfl
@[simp] theorem State.setJobQ_regTried (s : State) (i : Nat) (x : List Job) : (s.setJobQ i x).regTried = s.regTried := rfl
@[simp] theorem State.setJobQ_avs (s : State) (i : Nat) (x : List Job) : (s.setJobQ i x).avs = s.avs := rfl
@[simp] theorem State.setJobQ_sensors (s : State) (i : Nat) (x : List Job) : (s.setJobQ i x).sensors = s.sensors := rfl
@[simp] theorem State.setJobQ_medPrev (s : State) (i : Nat) (x : List Job) : (s.setJobQ i x).medPrev = s.medPrev := rfl
@[simp] theorem State.setJobQ_deadCls (s : State) (i : Nat) (x : List Job) : (s.setJobQ i x).deadCls = s.deadCls := rfl
@[simp] theorem State.setJobQ_onAt (s : State) (i : Nat) (x : List Job) : (s.setJobQ i x).onAt = s.onAt := rfl
@[simp] theorem State.setJobQ_onCl (s : State) (i : Nat) (x : List Job) : (s.setJobQ i x).onCl = s.onCl := rfl
@[simp] theorem State.setJobQ_settMem (s : State) (i : Nat) (x : List Job) : (s.setJobQ i x).settMem = s.settMem := rfl
@[simp] theorem State.setJobQ_settBuf (s : State) (i : Nat) (x : List Job) : (s.setJobQ i x).settBuf = s.settBuf := rfl
@[simp] theorem State.setJobQ_settList (s : State) (i : Nat) (x : List Job) : (s.setJobQ i x).settList = s.settList := rfl
@[simp] theorem State.setJobQ_settQueue (s : State) (i : Nat) (x : List Job) : (s.setJobQ i x).settQueue = s.settQueue := rfl
@[simp] theorem State.setJobQ_settCommits (s : State) (i : Nat) (x : List Job) : (s.setJobQ i x).settCommits = s.settCommits := rfl
@[simp] theorem State.setJobQ_settRefreshes (s : State) (i : Nat) (x : List Job) : (s.setJobQ i x).settRefreshes = s.settRefreshes := rfl
@[simp] theorem State.setJobQ_ringNext (s : State) (i : Nat) (x : List Job) : (s.setJobQ i x).ringNext = s.ringNext := rfl
@[simp] theorem State.setJobQ_ringSeq (s : State) (i : Nat) (x : List Job) : (s.setJobQ i x).ringSeq = s.ringSeq := rfl
@[simp] theorem State.setJobQ_lc (s : State) (i : Nat) (x : List Job) : (s.setJobQ i x).lc = s.lc := rfl
@[simp] theorem State.setJobQ_lcBusy (s : State) (i : Nat) (x : List Job) : (s.setJobQ i x).lcBusy = s.lcBusy := rfl
@[simp] theorem State.setJobQ_fwTarget (s : State) (i : Nat) (x : List Job) : (s.setJobQ i x).fwTarget = s.fwTarget := rfl
@[simp] theorem State.setJobQ_signKeys (s : State) (i : Nat) (x : List Job) : (s.setJobQ i x).signKeys = s.signKeys := rfl
@[simp] theorem State.setJobQ_spot (s : State) (i : Nat) (x : List Job) : (s.setJobQ i x).spot = s.spot := rfl
@[simp] theorem State.setJobQ_bearAt (s : State) (i : Nat) (x : List Job) : (s.setJobQ i x).bearAt = s.bearAt := rfl
@[simp] theorem State.setJobQ_wins (s : State) (i : Nat) (x : List Job) : (s.setJobQ i x).wins = s.wins := rfl
@[simp] theorem State.setJobQ_wrules (s : State) (i : Nat) (x : List Job) : (s.setJobQ i x).wrules = s.wrules := rfl
@[simp] theorem State.setJobQ_wioDown (s : State) (i : Nat) (x : List Job) : (s.setJobQ i x).wioDown = s.wioDown := rfl
@[simp] theorem State.setJobQ_base (s : State) (i : Nat) (x : List Job) : (s.setJobQ i x).base = s.base := rfl
@[simp] theorem State.setJobQ_pllOff (s : State) (i : Nat) (x : List Job) : (s.setJobQ i x).pllOff = s.pllOff := rfl
@[simp] theorem State.setJobQ_cmLast (s : State) (i : Nat) (x : List Job) : (s.setJobQ i x).cmLast = s.cmLast := rfl
@[simp] theorem State.setJobQ_clrAt (s : State) (i : Nat) (x : List Job) : (s.setJobQ i x).clrAt = s.clrAt := rfl
@[simp] theorem State.setJobQ_syncAt (s : State) (i : Nat) (x : List Job) : (s.setJobQ i x).syncAt = s.syncAt := rfl
@[simp] theorem State.setJobQ_trgAt (s : State) (i : Nat) (x : List Job) : (s.setJobQ i x).trgAt = s.trgAt := rfl
@[simp] theorem State.setJobQ_snapHeld (s : State) (i : Nat) (x : List Job) : (s.setJobQ i x).snapHeld = s.snapHeld := rfl
@[simp] theorem State.setJobQ_resets (s : State) (i : Nat) (x : List Job) : (s.setJobQ i x).resets = s.resets := rfl
@[simp] theorem State.setJobQ_accounts (s : State) (i : Nat) (x : List Job) : (s.setJobQ i x).accounts = s.accounts := rfl
@[simp] theorem State.setJobQ_refillAt (s : State) (i : Nat) (x : List Job) : (s.setJobQ i x).refillAt = s.refillAt := rfl
@[simp] theorem State.setJobQ_grants (s : State) (i : Nat) (x : List Job) : (s.setJobQ i x).grants = s.grants := rfl
@[simp] theorem State.setJobQ_bandMoved (s : State) (i : Nat) (x : List Job) : (s.setJobQ i x).bandMoved = s.bandMoved := rfl
@[simp] theorem State.setJobQ_thrJudged (s : State) (i : Nat) (x : List Job) : (s.setJobQ i x).thrJudged = s.thrJudged := rfl
@[simp] theorem State.setJobQ_spareLeft (s : State) (i : Nat) (x : List Job) : (s.setJobQ i x).spareLeft = s.spareLeft := rfl
@[simp] theorem State.setJobQ_aerLog (s : State) (i : Nat) (x : List Job) : (s.setJobQ i x).aerLog = s.aerLog := rfl
@[simp] theorem State.setJobQ_loading (s : State) (i : Nat) (x : List Job) : (s.setJobQ i x).loading = s.loading := rfl
@[simp] theorem State.setJobQ_channels (s : State) (i : Nat) (x : List Job) : (s.setJobQ i x).channels = s.channels := rfl
@[simp] theorem State.setJobQ_traceLast (s : State) (i : Nat) (x : List Job) : (s.setJobQ i x).traceLast = s.traceLast := rfl
@[simp] theorem State.setJobQ_counters (s : State) (i : Nat) (x : List Job) : (s.setJobQ i x).counters = s.counters := rfl
@[simp] theorem State.setJobQ_spotDue (s : State) (i : Nat) (x : List Job) : (s.setJobQ i x).spotDue = s.spotDue := rfl
@[simp] theorem State.setJobQ_heldRules (s : State) (i : Nat) (x : List Job) : (s.setJobQ i x).heldRules = s.heldRules := rfl
@[simp] theorem State.setJobQ_outMarks (s : State) (i : Nat) (x : List Job) : (s.setJobQ i x).outMarks = s.outMarks := rfl
@[simp] theorem State.setTrace_pending (s : State) (i : Nat) (x : TraceRing) : (s.setTrace i x).pending = s.pending := rfl
@[simp] theorem State.setTrace_time (s : State) (i : Nat) (x : TraceRing) : (s.setTrace i x).time = s.time := rfl
@[simp] theorem State.setTrace_fresh (s : State) (i : Nat) (x : TraceRing) : (s.setTrace i x).fresh = s.fresh := rfl
@[simp] theorem State.setTrace_out (s : State) (i : Nat) (x : TraceRing) : (s.setTrace i x).out = s.out := rfl
@[simp] theorem State.setTrace_regs (s : State) (i : Nat) (x : TraceRing) : (s.setTrace i x).regs = s.regs := rfl
@[simp] theorem State.setTrace_latches (s : State) (i : Nat) (x : TraceRing) : (s.setTrace i x).latches = s.latches := rfl
@[simp] theorem State.setTrace_sram (s : State) (i : Nat) (x : TraceRing) : (s.setTrace i x).sram = s.sram := rfl
@[simp] theorem State.setTrace_ecc (s : State) (i : Nat) (x : TraceRing) : (s.setTrace i x).ecc = s.ecc := rfl
@[simp] theorem State.setTrace_cmWait (s : State) (i : Nat) (x : TraceRing) : (s.setTrace i x).cmWait = s.cmWait := rfl
@[simp] theorem State.setTrace_tokenPool (s : State) (i : Nat) (x : TraceRing) : (s.setTrace i x).tokenPool = s.tokenPool := rfl
@[simp] theorem State.setTrace_tokenHeld (s : State) (i : Nat) (x : TraceRing) : (s.setTrace i x).tokenHeld = s.tokenHeld := rfl
@[simp] theorem State.setTrace_tokenWait (s : State) (i : Nat) (x : TraceRing) : (s.setTrace i x).tokenWait = s.tokenWait := rfl
@[simp] theorem State.setTrace_cells (s : State) (i : Nat) (x : TraceRing) : (s.setTrace i x).cells = s.cells := rfl
@[simp] theorem State.setTrace_engines (s : State) (i : Nat) (x : TraceRing) : (s.setTrace i x).engines = s.engines := rfl
@[simp] theorem State.setTrace_trackers (s : State) (i : Nat) (x : TraceRing) : (s.setTrace i x).trackers = s.trackers := rfl
@[simp] theorem State.setTrace_trims (s : State) (i : Nat) (x : TraceRing) : (s.setTrace i x).trims = s.trims := rfl
@[simp] theorem State.setTrace_passes (s : State) (i : Nat) (x : TraceRing) : (s.setTrace i x).passes = s.passes := rfl
@[simp] theorem State.setTrace_bandTime (s : State) (i : Nat) (x : TraceRing) : (s.setTrace i x).bandTime = s.bandTime := rfl
@[simp] theorem State.setTrace_bandAt (s : State) (i : Nat) (x : TraceRing) : (s.setTrace i x).bandAt = s.bandAt := rfl
@[simp] theorem State.setTrace_adderFree (s : State) (i : Nat) (x : TraceRing) : (s.setTrace i x).adderFree = s.adderFree := rfl
@[simp] theorem State.setTrace_ocus (s : State) (i : Nat) (x : TraceRing) : (s.setTrace i x).ocus = s.ocus := rfl
@[simp] theorem State.setTrace_owls (s : State) (i : Nat) (x : TraceRing) : (s.setTrace i x).owls = s.owls := rfl
@[simp] theorem State.setTrace_dac (s : State) (i : Nat) (x : TraceRing) : (s.setTrace i x).dac = s.dac := rfl
@[simp] theorem State.setTrace_rings (s : State) (i : Nat) (x : TraceRing) : (s.setTrace i x).rings = s.rings := rfl
@[simp] theorem State.setTrace_stations (s : State) (i : Nat) (x : TraceRing) : (s.setTrace i x).stations = s.stations := rfl
@[simp] theorem State.setTrace_tiles (s : State) (i : Nat) (x : TraceRing) : (s.setTrace i x).tiles = s.tiles := rfl
@[simp] theorem State.setTrace_tmvs (s : State) (i : Nat) (x : TraceRing) : (s.setTrace i x).tmvs = s.tmvs := rfl
@[simp] theorem State.setTrace_ctxs (s : State) (i : Nat) (x : TraceRing) : (s.setTrace i x).ctxs = s.ctxs := rfl
@[simp] theorem State.setTrace_ingests (s : State) (i : Nat) (x : TraceRing) : (s.setTrace i x).ingests = s.ingests := rfl
@[simp] theorem State.setTrace_offers (s : State) (i : Nat) (x : TraceRing) : (s.setTrace i x).offers = s.offers := rfl
@[simp] theorem State.setTrace_scrubs (s : State) (i : Nat) (x : TraceRing) : (s.setTrace i x).scrubs = s.scrubs := rfl
@[simp] theorem State.setTrace_busy (s : State) (i : Nat) (x : TraceRing) : (s.setTrace i x).busy = s.busy := rfl
@[simp] theorem State.setTrace_ports (s : State) (i : Nat) (x : TraceRing) : (s.setTrace i x).ports = s.ports := rfl
@[simp] theorem State.setTrace_threads (s : State) (i : Nat) (x : TraceRing) : (s.setTrace i x).threads = s.threads := rfl
@[simp] theorem State.setTrace_flights (s : State) (i : Nat) (x : TraceRing) : (s.setTrace i x).flights = s.flights := rfl
@[simp] theorem State.setTrace_groups (s : State) (i : Nat) (x : TraceRing) : (s.setTrace i x).groups = s.groups := rfl
@[simp] theorem State.setTrace_sets (s : State) (i : Nat) (x : TraceRing) : (s.setTrace i x).sets = s.sets := rfl
@[simp] theorem State.setTrace_snaps (s : State) (i : Nat) (x : TraceRing) : (s.setTrace i x).snaps = s.snaps := rfl
@[simp] theorem State.setTrace_parts (s : State) (i : Nat) (x : TraceRing) : (s.setTrace i x).parts = s.parts := rfl
@[simp] theorem State.setTrace_placed (s : State) (i : Nat) (x : TraceRing) : (s.setTrace i x).placed = s.placed := rfl
@[simp] theorem State.setTrace_jobs (s : State) (i : Nat) (x : TraceRing) : (s.setTrace i x).jobs = s.jobs := rfl
@[simp] theorem State.setTrace_beavers (s : State) (i : Nat) (x : TraceRing) : (s.setTrace i x).beavers = s.beavers := rfl
@[simp] theorem State.setTrace_turn (s : State) (i : Nat) (x : TraceRing) : (s.setTrace i x).turn = s.turn := rfl
@[simp] theorem State.setTrace_shards (s : State) (i : Nat) (x : TraceRing) : (s.setTrace i x).shards = s.shards := rfl
@[simp] theorem State.setTrace_modelKeys (s : State) (i : Nat) (x : TraceRing) : (s.setTrace i x).modelKeys = s.modelKeys := rfl
@[simp] theorem State.setTrace_shadows (s : State) (i : Nat) (x : TraceRing) : (s.setTrace i x).shadows = s.shadows := rfl
@[simp] theorem State.setTrace_weak (s : State) (i : Nat) (x : TraceRing) : (s.setTrace i x).weak = s.weak := rfl
@[simp] theorem State.setTrace_buckets (s : State) (i : Nat) (x : TraceRing) : (s.setTrace i x).buckets = s.buckets := rfl
@[simp] theorem State.setTrace_bucketAt (s : State) (i : Nat) (x : TraceRing) : (s.setTrace i x).bucketAt = s.bucketAt := rfl
@[simp] theorem State.setTrace_fns (s : State) (i : Nat) (x : TraceRing) : (s.setTrace i x).fns = s.fns := rfl
@[simp] theorem State.setTrace_numVfs (s : State) (i : Nat) (x : TraceRing) : (s.setTrace i x).numVfs = s.numVfs := rfl
@[simp] theorem State.setTrace_accepted (s : State) (i : Nat) (x : TraceRing) : (s.setTrace i x).accepted = s.accepted := rfl
@[simp] theorem State.setTrace_pba (s : State) (i : Nat) (x : TraceRing) : (s.setTrace i x).pba = s.pba := rfl
@[simp] theorem State.setTrace_events (s : State) (i : Nat) (x : TraceRing) : (s.setTrace i x).events = s.events := rfl
@[simp] theorem State.setTrace_traceSeq (s : State) (i : Nat) (x : TraceRing) : (s.setTrace i x).traceSeq = s.traceSeq := rfl
@[simp] theorem State.setTrace_points (s : State) (i : Nat) (x : TraceRing) : (s.setTrace i x).points = s.points := rfl
@[simp] theorem State.setTrace_twLatch (s : State) (i : Nat) (x : TraceRing) : (s.setTrace i x).twLatch = s.twLatch := rfl
@[simp] theorem State.setTrace_digests (s : State) (i : Nat) (x : TraceRing) : (s.setTrace i x).digests = s.digests := rfl
@[simp] theorem State.setTrace_tencs (s : State) (i : Nat) (x : TraceRing) : (s.setTrace i x).tencs = s.tencs := rfl
@[simp] theorem State.setTrace_totals (s : State) (i : Nat) (x : TraceRing) : (s.setTrace i x).totals = s.totals := rfl
@[simp] theorem State.setTrace_links (s : State) (i : Nat) (x : TraceRing) : (s.setTrace i x).links = s.links := rfl
@[simp] theorem State.setTrace_domain (s : State) (i : Nat) (x : TraceRing) : (s.setTrace i x).domain = s.domain := rfl
@[simp] theorem State.setTrace_offsets (s : State) (i : Nat) (x : TraceRing) : (s.setTrace i x).offsets = s.offsets := rfl
@[simp] theorem State.setTrace_wakes (s : State) (i : Nat) (x : TraceRing) : (s.setTrace i x).wakes = s.wakes := rfl
@[simp] theorem State.setTrace_norA (s : State) (i : Nat) (x : TraceRing) : (s.setTrace i x).norA = s.norA := rfl
@[simp] theorem State.setTrace_norB (s : State) (i : Nat) (x : TraceRing) : (s.setTrace i x).norB = s.norB := rfl
@[simp] theorem State.setTrace_image (s : State) (i : Nat) (x : TraceRing) : (s.setTrace i x).image = s.image := rfl
@[simp] theorem State.setTrace_perst (s : State) (i : Nat) (x : TraceRing) : (s.setTrace i x).perst = s.perst := rfl
@[simp] theorem State.setTrace_wakeAsked (s : State) (i : Nat) (x : TraceRing) : (s.setTrace i x).wakeAsked = s.wakeAsked := rfl
@[simp] theorem State.setTrace_shutRec (s : State) (i : Nat) (x : TraceRing) : (s.setTrace i x).shutRec = s.shutRec := rfl
@[simp] theorem State.setTrace_calRec (s : State) (i : Nat) (x : TraceRing) : (s.setTrace i x).calRec = s.calRec := rfl
@[simp] theorem State.setTrace_capNow (s : State) (i : Nat) (x : TraceRing) : (s.setTrace i x).capNow = s.capNow := rfl
@[simp] theorem State.setTrace_pgmFault (s : State) (i : Nat) (x : TraceRing) : (s.setTrace i x).pgmFault = s.pgmFault := rfl
@[simp] theorem State.setTrace_regFails (s : State) (i : Nat) (x : TraceRing) : (s.setTrace i x).regFails = s.regFails := rfl
@[simp] theorem State.setTrace_regTried (s : State) (i : Nat) (x : TraceRing) : (s.setTrace i x).regTried = s.regTried := rfl
@[simp] theorem State.setTrace_avs (s : State) (i : Nat) (x : TraceRing) : (s.setTrace i x).avs = s.avs := rfl
@[simp] theorem State.setTrace_sensors (s : State) (i : Nat) (x : TraceRing) : (s.setTrace i x).sensors = s.sensors := rfl
@[simp] theorem State.setTrace_medPrev (s : State) (i : Nat) (x : TraceRing) : (s.setTrace i x).medPrev = s.medPrev := rfl
@[simp] theorem State.setTrace_deadCls (s : State) (i : Nat) (x : TraceRing) : (s.setTrace i x).deadCls = s.deadCls := rfl
@[simp] theorem State.setTrace_onAt (s : State) (i : Nat) (x : TraceRing) : (s.setTrace i x).onAt = s.onAt := rfl
@[simp] theorem State.setTrace_onCl (s : State) (i : Nat) (x : TraceRing) : (s.setTrace i x).onCl = s.onCl := rfl
@[simp] theorem State.setTrace_settMem (s : State) (i : Nat) (x : TraceRing) : (s.setTrace i x).settMem = s.settMem := rfl
@[simp] theorem State.setTrace_settBuf (s : State) (i : Nat) (x : TraceRing) : (s.setTrace i x).settBuf = s.settBuf := rfl
@[simp] theorem State.setTrace_settList (s : State) (i : Nat) (x : TraceRing) : (s.setTrace i x).settList = s.settList := rfl
@[simp] theorem State.setTrace_settQueue (s : State) (i : Nat) (x : TraceRing) : (s.setTrace i x).settQueue = s.settQueue := rfl
@[simp] theorem State.setTrace_settCommits (s : State) (i : Nat) (x : TraceRing) : (s.setTrace i x).settCommits = s.settCommits := rfl
@[simp] theorem State.setTrace_settRefreshes (s : State) (i : Nat) (x : TraceRing) : (s.setTrace i x).settRefreshes = s.settRefreshes := rfl
@[simp] theorem State.setTrace_ringNext (s : State) (i : Nat) (x : TraceRing) : (s.setTrace i x).ringNext = s.ringNext := rfl
@[simp] theorem State.setTrace_ringSeq (s : State) (i : Nat) (x : TraceRing) : (s.setTrace i x).ringSeq = s.ringSeq := rfl
@[simp] theorem State.setTrace_lc (s : State) (i : Nat) (x : TraceRing) : (s.setTrace i x).lc = s.lc := rfl
@[simp] theorem State.setTrace_lcBusy (s : State) (i : Nat) (x : TraceRing) : (s.setTrace i x).lcBusy = s.lcBusy := rfl
@[simp] theorem State.setTrace_fwTarget (s : State) (i : Nat) (x : TraceRing) : (s.setTrace i x).fwTarget = s.fwTarget := rfl
@[simp] theorem State.setTrace_signKeys (s : State) (i : Nat) (x : TraceRing) : (s.setTrace i x).signKeys = s.signKeys := rfl
@[simp] theorem State.setTrace_spot (s : State) (i : Nat) (x : TraceRing) : (s.setTrace i x).spot = s.spot := rfl
@[simp] theorem State.setTrace_bearAt (s : State) (i : Nat) (x : TraceRing) : (s.setTrace i x).bearAt = s.bearAt := rfl
@[simp] theorem State.setTrace_wins (s : State) (i : Nat) (x : TraceRing) : (s.setTrace i x).wins = s.wins := rfl
@[simp] theorem State.setTrace_wrules (s : State) (i : Nat) (x : TraceRing) : (s.setTrace i x).wrules = s.wrules := rfl
@[simp] theorem State.setTrace_wioDown (s : State) (i : Nat) (x : TraceRing) : (s.setTrace i x).wioDown = s.wioDown := rfl
@[simp] theorem State.setTrace_base (s : State) (i : Nat) (x : TraceRing) : (s.setTrace i x).base = s.base := rfl
@[simp] theorem State.setTrace_pllOff (s : State) (i : Nat) (x : TraceRing) : (s.setTrace i x).pllOff = s.pllOff := rfl
@[simp] theorem State.setTrace_cmLast (s : State) (i : Nat) (x : TraceRing) : (s.setTrace i x).cmLast = s.cmLast := rfl
@[simp] theorem State.setTrace_clrAt (s : State) (i : Nat) (x : TraceRing) : (s.setTrace i x).clrAt = s.clrAt := rfl
@[simp] theorem State.setTrace_syncAt (s : State) (i : Nat) (x : TraceRing) : (s.setTrace i x).syncAt = s.syncAt := rfl
@[simp] theorem State.setTrace_trgAt (s : State) (i : Nat) (x : TraceRing) : (s.setTrace i x).trgAt = s.trgAt := rfl
@[simp] theorem State.setTrace_snapHeld (s : State) (i : Nat) (x : TraceRing) : (s.setTrace i x).snapHeld = s.snapHeld := rfl
@[simp] theorem State.setTrace_resets (s : State) (i : Nat) (x : TraceRing) : (s.setTrace i x).resets = s.resets := rfl
@[simp] theorem State.setTrace_accounts (s : State) (i : Nat) (x : TraceRing) : (s.setTrace i x).accounts = s.accounts := rfl
@[simp] theorem State.setTrace_refillAt (s : State) (i : Nat) (x : TraceRing) : (s.setTrace i x).refillAt = s.refillAt := rfl
@[simp] theorem State.setTrace_grants (s : State) (i : Nat) (x : TraceRing) : (s.setTrace i x).grants = s.grants := rfl
@[simp] theorem State.setTrace_bandMoved (s : State) (i : Nat) (x : TraceRing) : (s.setTrace i x).bandMoved = s.bandMoved := rfl
@[simp] theorem State.setTrace_thrJudged (s : State) (i : Nat) (x : TraceRing) : (s.setTrace i x).thrJudged = s.thrJudged := rfl
@[simp] theorem State.setTrace_spareLeft (s : State) (i : Nat) (x : TraceRing) : (s.setTrace i x).spareLeft = s.spareLeft := rfl
@[simp] theorem State.setTrace_aerLog (s : State) (i : Nat) (x : TraceRing) : (s.setTrace i x).aerLog = s.aerLog := rfl
@[simp] theorem State.setTrace_loading (s : State) (i : Nat) (x : TraceRing) : (s.setTrace i x).loading = s.loading := rfl
@[simp] theorem State.setTrace_channels (s : State) (i : Nat) (x : TraceRing) : (s.setTrace i x).channels = s.channels := rfl
@[simp] theorem State.setTrace_traceLast (s : State) (i : Nat) (x : TraceRing) : (s.setTrace i x).traceLast = s.traceLast := rfl
@[simp] theorem State.setTrace_counters (s : State) (i : Nat) (x : TraceRing) : (s.setTrace i x).counters = s.counters := rfl
@[simp] theorem State.setTrace_spotDue (s : State) (i : Nat) (x : TraceRing) : (s.setTrace i x).spotDue = s.spotDue := rfl
@[simp] theorem State.setTrace_heldRules (s : State) (i : Nat) (x : TraceRing) : (s.setTrace i x).heldRules = s.heldRules := rfl
@[simp] theorem State.setTrace_outMarks (s : State) (i : Nat) (x : TraceRing) : (s.setTrace i x).outMarks = s.outMarks := rfl
@[simp] theorem State.setPoint_pending (s : State) (i : Nat) (x : TensorPoint) : (s.setPoint i x).pending = s.pending := rfl
@[simp] theorem State.setPoint_time (s : State) (i : Nat) (x : TensorPoint) : (s.setPoint i x).time = s.time := rfl
@[simp] theorem State.setPoint_fresh (s : State) (i : Nat) (x : TensorPoint) : (s.setPoint i x).fresh = s.fresh := rfl
@[simp] theorem State.setPoint_out (s : State) (i : Nat) (x : TensorPoint) : (s.setPoint i x).out = s.out := rfl
@[simp] theorem State.setPoint_regs (s : State) (i : Nat) (x : TensorPoint) : (s.setPoint i x).regs = s.regs := rfl
@[simp] theorem State.setPoint_latches (s : State) (i : Nat) (x : TensorPoint) : (s.setPoint i x).latches = s.latches := rfl
@[simp] theorem State.setPoint_sram (s : State) (i : Nat) (x : TensorPoint) : (s.setPoint i x).sram = s.sram := rfl
@[simp] theorem State.setPoint_ecc (s : State) (i : Nat) (x : TensorPoint) : (s.setPoint i x).ecc = s.ecc := rfl
@[simp] theorem State.setPoint_cmWait (s : State) (i : Nat) (x : TensorPoint) : (s.setPoint i x).cmWait = s.cmWait := rfl
@[simp] theorem State.setPoint_tokenPool (s : State) (i : Nat) (x : TensorPoint) : (s.setPoint i x).tokenPool = s.tokenPool := rfl
@[simp] theorem State.setPoint_tokenHeld (s : State) (i : Nat) (x : TensorPoint) : (s.setPoint i x).tokenHeld = s.tokenHeld := rfl
@[simp] theorem State.setPoint_tokenWait (s : State) (i : Nat) (x : TensorPoint) : (s.setPoint i x).tokenWait = s.tokenWait := rfl
@[simp] theorem State.setPoint_cells (s : State) (i : Nat) (x : TensorPoint) : (s.setPoint i x).cells = s.cells := rfl
@[simp] theorem State.setPoint_engines (s : State) (i : Nat) (x : TensorPoint) : (s.setPoint i x).engines = s.engines := rfl
@[simp] theorem State.setPoint_trackers (s : State) (i : Nat) (x : TensorPoint) : (s.setPoint i x).trackers = s.trackers := rfl
@[simp] theorem State.setPoint_trims (s : State) (i : Nat) (x : TensorPoint) : (s.setPoint i x).trims = s.trims := rfl
@[simp] theorem State.setPoint_passes (s : State) (i : Nat) (x : TensorPoint) : (s.setPoint i x).passes = s.passes := rfl
@[simp] theorem State.setPoint_bandTime (s : State) (i : Nat) (x : TensorPoint) : (s.setPoint i x).bandTime = s.bandTime := rfl
@[simp] theorem State.setPoint_bandAt (s : State) (i : Nat) (x : TensorPoint) : (s.setPoint i x).bandAt = s.bandAt := rfl
@[simp] theorem State.setPoint_adderFree (s : State) (i : Nat) (x : TensorPoint) : (s.setPoint i x).adderFree = s.adderFree := rfl
@[simp] theorem State.setPoint_ocus (s : State) (i : Nat) (x : TensorPoint) : (s.setPoint i x).ocus = s.ocus := rfl
@[simp] theorem State.setPoint_owls (s : State) (i : Nat) (x : TensorPoint) : (s.setPoint i x).owls = s.owls := rfl
@[simp] theorem State.setPoint_dac (s : State) (i : Nat) (x : TensorPoint) : (s.setPoint i x).dac = s.dac := rfl
@[simp] theorem State.setPoint_rings (s : State) (i : Nat) (x : TensorPoint) : (s.setPoint i x).rings = s.rings := rfl
@[simp] theorem State.setPoint_stations (s : State) (i : Nat) (x : TensorPoint) : (s.setPoint i x).stations = s.stations := rfl
@[simp] theorem State.setPoint_tiles (s : State) (i : Nat) (x : TensorPoint) : (s.setPoint i x).tiles = s.tiles := rfl
@[simp] theorem State.setPoint_tmvs (s : State) (i : Nat) (x : TensorPoint) : (s.setPoint i x).tmvs = s.tmvs := rfl
@[simp] theorem State.setPoint_ctxs (s : State) (i : Nat) (x : TensorPoint) : (s.setPoint i x).ctxs = s.ctxs := rfl
@[simp] theorem State.setPoint_ingests (s : State) (i : Nat) (x : TensorPoint) : (s.setPoint i x).ingests = s.ingests := rfl
@[simp] theorem State.setPoint_offers (s : State) (i : Nat) (x : TensorPoint) : (s.setPoint i x).offers = s.offers := rfl
@[simp] theorem State.setPoint_scrubs (s : State) (i : Nat) (x : TensorPoint) : (s.setPoint i x).scrubs = s.scrubs := rfl
@[simp] theorem State.setPoint_busy (s : State) (i : Nat) (x : TensorPoint) : (s.setPoint i x).busy = s.busy := rfl
@[simp] theorem State.setPoint_ports (s : State) (i : Nat) (x : TensorPoint) : (s.setPoint i x).ports = s.ports := rfl
@[simp] theorem State.setPoint_threads (s : State) (i : Nat) (x : TensorPoint) : (s.setPoint i x).threads = s.threads := rfl
@[simp] theorem State.setPoint_flights (s : State) (i : Nat) (x : TensorPoint) : (s.setPoint i x).flights = s.flights := rfl
@[simp] theorem State.setPoint_groups (s : State) (i : Nat) (x : TensorPoint) : (s.setPoint i x).groups = s.groups := rfl
@[simp] theorem State.setPoint_sets (s : State) (i : Nat) (x : TensorPoint) : (s.setPoint i x).sets = s.sets := rfl
@[simp] theorem State.setPoint_snaps (s : State) (i : Nat) (x : TensorPoint) : (s.setPoint i x).snaps = s.snaps := rfl
@[simp] theorem State.setPoint_parts (s : State) (i : Nat) (x : TensorPoint) : (s.setPoint i x).parts = s.parts := rfl
@[simp] theorem State.setPoint_placed (s : State) (i : Nat) (x : TensorPoint) : (s.setPoint i x).placed = s.placed := rfl
@[simp] theorem State.setPoint_jobs (s : State) (i : Nat) (x : TensorPoint) : (s.setPoint i x).jobs = s.jobs := rfl
@[simp] theorem State.setPoint_beavers (s : State) (i : Nat) (x : TensorPoint) : (s.setPoint i x).beavers = s.beavers := rfl
@[simp] theorem State.setPoint_turn (s : State) (i : Nat) (x : TensorPoint) : (s.setPoint i x).turn = s.turn := rfl
@[simp] theorem State.setPoint_shards (s : State) (i : Nat) (x : TensorPoint) : (s.setPoint i x).shards = s.shards := rfl
@[simp] theorem State.setPoint_modelKeys (s : State) (i : Nat) (x : TensorPoint) : (s.setPoint i x).modelKeys = s.modelKeys := rfl
@[simp] theorem State.setPoint_shadows (s : State) (i : Nat) (x : TensorPoint) : (s.setPoint i x).shadows = s.shadows := rfl
@[simp] theorem State.setPoint_weak (s : State) (i : Nat) (x : TensorPoint) : (s.setPoint i x).weak = s.weak := rfl
@[simp] theorem State.setPoint_buckets (s : State) (i : Nat) (x : TensorPoint) : (s.setPoint i x).buckets = s.buckets := rfl
@[simp] theorem State.setPoint_bucketAt (s : State) (i : Nat) (x : TensorPoint) : (s.setPoint i x).bucketAt = s.bucketAt := rfl
@[simp] theorem State.setPoint_fns (s : State) (i : Nat) (x : TensorPoint) : (s.setPoint i x).fns = s.fns := rfl
@[simp] theorem State.setPoint_numVfs (s : State) (i : Nat) (x : TensorPoint) : (s.setPoint i x).numVfs = s.numVfs := rfl
@[simp] theorem State.setPoint_accepted (s : State) (i : Nat) (x : TensorPoint) : (s.setPoint i x).accepted = s.accepted := rfl
@[simp] theorem State.setPoint_pba (s : State) (i : Nat) (x : TensorPoint) : (s.setPoint i x).pba = s.pba := rfl
@[simp] theorem State.setPoint_events (s : State) (i : Nat) (x : TensorPoint) : (s.setPoint i x).events = s.events := rfl
@[simp] theorem State.setPoint_traces (s : State) (i : Nat) (x : TensorPoint) : (s.setPoint i x).traces = s.traces := rfl
@[simp] theorem State.setPoint_traceSeq (s : State) (i : Nat) (x : TensorPoint) : (s.setPoint i x).traceSeq = s.traceSeq := rfl
@[simp] theorem State.setPoint_twLatch (s : State) (i : Nat) (x : TensorPoint) : (s.setPoint i x).twLatch = s.twLatch := rfl
@[simp] theorem State.setPoint_digests (s : State) (i : Nat) (x : TensorPoint) : (s.setPoint i x).digests = s.digests := rfl
@[simp] theorem State.setPoint_tencs (s : State) (i : Nat) (x : TensorPoint) : (s.setPoint i x).tencs = s.tencs := rfl
@[simp] theorem State.setPoint_totals (s : State) (i : Nat) (x : TensorPoint) : (s.setPoint i x).totals = s.totals := rfl
@[simp] theorem State.setPoint_links (s : State) (i : Nat) (x : TensorPoint) : (s.setPoint i x).links = s.links := rfl
@[simp] theorem State.setPoint_domain (s : State) (i : Nat) (x : TensorPoint) : (s.setPoint i x).domain = s.domain := rfl
@[simp] theorem State.setPoint_offsets (s : State) (i : Nat) (x : TensorPoint) : (s.setPoint i x).offsets = s.offsets := rfl
@[simp] theorem State.setPoint_wakes (s : State) (i : Nat) (x : TensorPoint) : (s.setPoint i x).wakes = s.wakes := rfl
@[simp] theorem State.setPoint_norA (s : State) (i : Nat) (x : TensorPoint) : (s.setPoint i x).norA = s.norA := rfl
@[simp] theorem State.setPoint_norB (s : State) (i : Nat) (x : TensorPoint) : (s.setPoint i x).norB = s.norB := rfl
@[simp] theorem State.setPoint_image (s : State) (i : Nat) (x : TensorPoint) : (s.setPoint i x).image = s.image := rfl
@[simp] theorem State.setPoint_perst (s : State) (i : Nat) (x : TensorPoint) : (s.setPoint i x).perst = s.perst := rfl
@[simp] theorem State.setPoint_wakeAsked (s : State) (i : Nat) (x : TensorPoint) : (s.setPoint i x).wakeAsked = s.wakeAsked := rfl
@[simp] theorem State.setPoint_shutRec (s : State) (i : Nat) (x : TensorPoint) : (s.setPoint i x).shutRec = s.shutRec := rfl
@[simp] theorem State.setPoint_calRec (s : State) (i : Nat) (x : TensorPoint) : (s.setPoint i x).calRec = s.calRec := rfl
@[simp] theorem State.setPoint_capNow (s : State) (i : Nat) (x : TensorPoint) : (s.setPoint i x).capNow = s.capNow := rfl
@[simp] theorem State.setPoint_pgmFault (s : State) (i : Nat) (x : TensorPoint) : (s.setPoint i x).pgmFault = s.pgmFault := rfl
@[simp] theorem State.setPoint_regFails (s : State) (i : Nat) (x : TensorPoint) : (s.setPoint i x).regFails = s.regFails := rfl
@[simp] theorem State.setPoint_regTried (s : State) (i : Nat) (x : TensorPoint) : (s.setPoint i x).regTried = s.regTried := rfl
@[simp] theorem State.setPoint_avs (s : State) (i : Nat) (x : TensorPoint) : (s.setPoint i x).avs = s.avs := rfl
@[simp] theorem State.setPoint_sensors (s : State) (i : Nat) (x : TensorPoint) : (s.setPoint i x).sensors = s.sensors := rfl
@[simp] theorem State.setPoint_medPrev (s : State) (i : Nat) (x : TensorPoint) : (s.setPoint i x).medPrev = s.medPrev := rfl
@[simp] theorem State.setPoint_deadCls (s : State) (i : Nat) (x : TensorPoint) : (s.setPoint i x).deadCls = s.deadCls := rfl
@[simp] theorem State.setPoint_onAt (s : State) (i : Nat) (x : TensorPoint) : (s.setPoint i x).onAt = s.onAt := rfl
@[simp] theorem State.setPoint_onCl (s : State) (i : Nat) (x : TensorPoint) : (s.setPoint i x).onCl = s.onCl := rfl
@[simp] theorem State.setPoint_settMem (s : State) (i : Nat) (x : TensorPoint) : (s.setPoint i x).settMem = s.settMem := rfl
@[simp] theorem State.setPoint_settBuf (s : State) (i : Nat) (x : TensorPoint) : (s.setPoint i x).settBuf = s.settBuf := rfl
@[simp] theorem State.setPoint_settList (s : State) (i : Nat) (x : TensorPoint) : (s.setPoint i x).settList = s.settList := rfl
@[simp] theorem State.setPoint_settQueue (s : State) (i : Nat) (x : TensorPoint) : (s.setPoint i x).settQueue = s.settQueue := rfl
@[simp] theorem State.setPoint_settCommits (s : State) (i : Nat) (x : TensorPoint) : (s.setPoint i x).settCommits = s.settCommits := rfl
@[simp] theorem State.setPoint_settRefreshes (s : State) (i : Nat) (x : TensorPoint) : (s.setPoint i x).settRefreshes = s.settRefreshes := rfl
@[simp] theorem State.setPoint_ringNext (s : State) (i : Nat) (x : TensorPoint) : (s.setPoint i x).ringNext = s.ringNext := rfl
@[simp] theorem State.setPoint_ringSeq (s : State) (i : Nat) (x : TensorPoint) : (s.setPoint i x).ringSeq = s.ringSeq := rfl
@[simp] theorem State.setPoint_lc (s : State) (i : Nat) (x : TensorPoint) : (s.setPoint i x).lc = s.lc := rfl
@[simp] theorem State.setPoint_lcBusy (s : State) (i : Nat) (x : TensorPoint) : (s.setPoint i x).lcBusy = s.lcBusy := rfl
@[simp] theorem State.setPoint_fwTarget (s : State) (i : Nat) (x : TensorPoint) : (s.setPoint i x).fwTarget = s.fwTarget := rfl
@[simp] theorem State.setPoint_signKeys (s : State) (i : Nat) (x : TensorPoint) : (s.setPoint i x).signKeys = s.signKeys := rfl
@[simp] theorem State.setPoint_spot (s : State) (i : Nat) (x : TensorPoint) : (s.setPoint i x).spot = s.spot := rfl
@[simp] theorem State.setPoint_bearAt (s : State) (i : Nat) (x : TensorPoint) : (s.setPoint i x).bearAt = s.bearAt := rfl
@[simp] theorem State.setPoint_wins (s : State) (i : Nat) (x : TensorPoint) : (s.setPoint i x).wins = s.wins := rfl
@[simp] theorem State.setPoint_wrules (s : State) (i : Nat) (x : TensorPoint) : (s.setPoint i x).wrules = s.wrules := rfl
@[simp] theorem State.setPoint_wioDown (s : State) (i : Nat) (x : TensorPoint) : (s.setPoint i x).wioDown = s.wioDown := rfl
@[simp] theorem State.setPoint_base (s : State) (i : Nat) (x : TensorPoint) : (s.setPoint i x).base = s.base := rfl
@[simp] theorem State.setPoint_pllOff (s : State) (i : Nat) (x : TensorPoint) : (s.setPoint i x).pllOff = s.pllOff := rfl
@[simp] theorem State.setPoint_cmLast (s : State) (i : Nat) (x : TensorPoint) : (s.setPoint i x).cmLast = s.cmLast := rfl
@[simp] theorem State.setPoint_clrAt (s : State) (i : Nat) (x : TensorPoint) : (s.setPoint i x).clrAt = s.clrAt := rfl
@[simp] theorem State.setPoint_syncAt (s : State) (i : Nat) (x : TensorPoint) : (s.setPoint i x).syncAt = s.syncAt := rfl
@[simp] theorem State.setPoint_trgAt (s : State) (i : Nat) (x : TensorPoint) : (s.setPoint i x).trgAt = s.trgAt := rfl
@[simp] theorem State.setPoint_snapHeld (s : State) (i : Nat) (x : TensorPoint) : (s.setPoint i x).snapHeld = s.snapHeld := rfl
@[simp] theorem State.setPoint_resets (s : State) (i : Nat) (x : TensorPoint) : (s.setPoint i x).resets = s.resets := rfl
@[simp] theorem State.setPoint_accounts (s : State) (i : Nat) (x : TensorPoint) : (s.setPoint i x).accounts = s.accounts := rfl
@[simp] theorem State.setPoint_refillAt (s : State) (i : Nat) (x : TensorPoint) : (s.setPoint i x).refillAt = s.refillAt := rfl
@[simp] theorem State.setPoint_grants (s : State) (i : Nat) (x : TensorPoint) : (s.setPoint i x).grants = s.grants := rfl
@[simp] theorem State.setPoint_bandMoved (s : State) (i : Nat) (x : TensorPoint) : (s.setPoint i x).bandMoved = s.bandMoved := rfl
@[simp] theorem State.setPoint_thrJudged (s : State) (i : Nat) (x : TensorPoint) : (s.setPoint i x).thrJudged = s.thrJudged := rfl
@[simp] theorem State.setPoint_spareLeft (s : State) (i : Nat) (x : TensorPoint) : (s.setPoint i x).spareLeft = s.spareLeft := rfl
@[simp] theorem State.setPoint_aerLog (s : State) (i : Nat) (x : TensorPoint) : (s.setPoint i x).aerLog = s.aerLog := rfl
@[simp] theorem State.setPoint_loading (s : State) (i : Nat) (x : TensorPoint) : (s.setPoint i x).loading = s.loading := rfl
@[simp] theorem State.setPoint_channels (s : State) (i : Nat) (x : TensorPoint) : (s.setPoint i x).channels = s.channels := rfl
@[simp] theorem State.setPoint_traceLast (s : State) (i : Nat) (x : TensorPoint) : (s.setPoint i x).traceLast = s.traceLast := rfl
@[simp] theorem State.setPoint_counters (s : State) (i : Nat) (x : TensorPoint) : (s.setPoint i x).counters = s.counters := rfl
@[simp] theorem State.setPoint_spotDue (s : State) (i : Nat) (x : TensorPoint) : (s.setPoint i x).spotDue = s.spotDue := rfl
@[simp] theorem State.setPoint_heldRules (s : State) (i : Nat) (x : TensorPoint) : (s.setPoint i x).heldRules = s.heldRules := rfl
@[simp] theorem State.setPoint_outMarks (s : State) (i : Nat) (x : TensorPoint) : (s.setPoint i x).outMarks = s.outMarks := rfl
@[simp] theorem State.setPassQ_pending (s : State) (i : Nat) (x : List CalPass) : (s.setPassQ i x).pending = s.pending := rfl
@[simp] theorem State.setPassQ_time (s : State) (i : Nat) (x : List CalPass) : (s.setPassQ i x).time = s.time := rfl
@[simp] theorem State.setPassQ_fresh (s : State) (i : Nat) (x : List CalPass) : (s.setPassQ i x).fresh = s.fresh := rfl
@[simp] theorem State.setPassQ_out (s : State) (i : Nat) (x : List CalPass) : (s.setPassQ i x).out = s.out := rfl
@[simp] theorem State.setPassQ_regs (s : State) (i : Nat) (x : List CalPass) : (s.setPassQ i x).regs = s.regs := rfl
@[simp] theorem State.setPassQ_latches (s : State) (i : Nat) (x : List CalPass) : (s.setPassQ i x).latches = s.latches := rfl
@[simp] theorem State.setPassQ_sram (s : State) (i : Nat) (x : List CalPass) : (s.setPassQ i x).sram = s.sram := rfl
@[simp] theorem State.setPassQ_ecc (s : State) (i : Nat) (x : List CalPass) : (s.setPassQ i x).ecc = s.ecc := rfl
@[simp] theorem State.setPassQ_cmWait (s : State) (i : Nat) (x : List CalPass) : (s.setPassQ i x).cmWait = s.cmWait := rfl
@[simp] theorem State.setPassQ_tokenPool (s : State) (i : Nat) (x : List CalPass) : (s.setPassQ i x).tokenPool = s.tokenPool := rfl
@[simp] theorem State.setPassQ_tokenHeld (s : State) (i : Nat) (x : List CalPass) : (s.setPassQ i x).tokenHeld = s.tokenHeld := rfl
@[simp] theorem State.setPassQ_tokenWait (s : State) (i : Nat) (x : List CalPass) : (s.setPassQ i x).tokenWait = s.tokenWait := rfl
@[simp] theorem State.setPassQ_cells (s : State) (i : Nat) (x : List CalPass) : (s.setPassQ i x).cells = s.cells := rfl
@[simp] theorem State.setPassQ_engines (s : State) (i : Nat) (x : List CalPass) : (s.setPassQ i x).engines = s.engines := rfl
@[simp] theorem State.setPassQ_trackers (s : State) (i : Nat) (x : List CalPass) : (s.setPassQ i x).trackers = s.trackers := rfl
@[simp] theorem State.setPassQ_trims (s : State) (i : Nat) (x : List CalPass) : (s.setPassQ i x).trims = s.trims := rfl
@[simp] theorem State.setPassQ_bandTime (s : State) (i : Nat) (x : List CalPass) : (s.setPassQ i x).bandTime = s.bandTime := rfl
@[simp] theorem State.setPassQ_bandAt (s : State) (i : Nat) (x : List CalPass) : (s.setPassQ i x).bandAt = s.bandAt := rfl
@[simp] theorem State.setPassQ_adderFree (s : State) (i : Nat) (x : List CalPass) : (s.setPassQ i x).adderFree = s.adderFree := rfl
@[simp] theorem State.setPassQ_ocus (s : State) (i : Nat) (x : List CalPass) : (s.setPassQ i x).ocus = s.ocus := rfl
@[simp] theorem State.setPassQ_owls (s : State) (i : Nat) (x : List CalPass) : (s.setPassQ i x).owls = s.owls := rfl
@[simp] theorem State.setPassQ_dac (s : State) (i : Nat) (x : List CalPass) : (s.setPassQ i x).dac = s.dac := rfl
@[simp] theorem State.setPassQ_rings (s : State) (i : Nat) (x : List CalPass) : (s.setPassQ i x).rings = s.rings := rfl
@[simp] theorem State.setPassQ_stations (s : State) (i : Nat) (x : List CalPass) : (s.setPassQ i x).stations = s.stations := rfl
@[simp] theorem State.setPassQ_tiles (s : State) (i : Nat) (x : List CalPass) : (s.setPassQ i x).tiles = s.tiles := rfl
@[simp] theorem State.setPassQ_tmvs (s : State) (i : Nat) (x : List CalPass) : (s.setPassQ i x).tmvs = s.tmvs := rfl
@[simp] theorem State.setPassQ_ctxs (s : State) (i : Nat) (x : List CalPass) : (s.setPassQ i x).ctxs = s.ctxs := rfl
@[simp] theorem State.setPassQ_ingests (s : State) (i : Nat) (x : List CalPass) : (s.setPassQ i x).ingests = s.ingests := rfl
@[simp] theorem State.setPassQ_offers (s : State) (i : Nat) (x : List CalPass) : (s.setPassQ i x).offers = s.offers := rfl
@[simp] theorem State.setPassQ_scrubs (s : State) (i : Nat) (x : List CalPass) : (s.setPassQ i x).scrubs = s.scrubs := rfl
@[simp] theorem State.setPassQ_busy (s : State) (i : Nat) (x : List CalPass) : (s.setPassQ i x).busy = s.busy := rfl
@[simp] theorem State.setPassQ_ports (s : State) (i : Nat) (x : List CalPass) : (s.setPassQ i x).ports = s.ports := rfl
@[simp] theorem State.setPassQ_threads (s : State) (i : Nat) (x : List CalPass) : (s.setPassQ i x).threads = s.threads := rfl
@[simp] theorem State.setPassQ_flights (s : State) (i : Nat) (x : List CalPass) : (s.setPassQ i x).flights = s.flights := rfl
@[simp] theorem State.setPassQ_groups (s : State) (i : Nat) (x : List CalPass) : (s.setPassQ i x).groups = s.groups := rfl
@[simp] theorem State.setPassQ_sets (s : State) (i : Nat) (x : List CalPass) : (s.setPassQ i x).sets = s.sets := rfl
@[simp] theorem State.setPassQ_snaps (s : State) (i : Nat) (x : List CalPass) : (s.setPassQ i x).snaps = s.snaps := rfl
@[simp] theorem State.setPassQ_parts (s : State) (i : Nat) (x : List CalPass) : (s.setPassQ i x).parts = s.parts := rfl
@[simp] theorem State.setPassQ_placed (s : State) (i : Nat) (x : List CalPass) : (s.setPassQ i x).placed = s.placed := rfl
@[simp] theorem State.setPassQ_jobs (s : State) (i : Nat) (x : List CalPass) : (s.setPassQ i x).jobs = s.jobs := rfl
@[simp] theorem State.setPassQ_beavers (s : State) (i : Nat) (x : List CalPass) : (s.setPassQ i x).beavers = s.beavers := rfl
@[simp] theorem State.setPassQ_turn (s : State) (i : Nat) (x : List CalPass) : (s.setPassQ i x).turn = s.turn := rfl
@[simp] theorem State.setPassQ_shards (s : State) (i : Nat) (x : List CalPass) : (s.setPassQ i x).shards = s.shards := rfl
@[simp] theorem State.setPassQ_modelKeys (s : State) (i : Nat) (x : List CalPass) : (s.setPassQ i x).modelKeys = s.modelKeys := rfl
@[simp] theorem State.setPassQ_shadows (s : State) (i : Nat) (x : List CalPass) : (s.setPassQ i x).shadows = s.shadows := rfl
@[simp] theorem State.setPassQ_weak (s : State) (i : Nat) (x : List CalPass) : (s.setPassQ i x).weak = s.weak := rfl
@[simp] theorem State.setPassQ_buckets (s : State) (i : Nat) (x : List CalPass) : (s.setPassQ i x).buckets = s.buckets := rfl
@[simp] theorem State.setPassQ_bucketAt (s : State) (i : Nat) (x : List CalPass) : (s.setPassQ i x).bucketAt = s.bucketAt := rfl
@[simp] theorem State.setPassQ_fns (s : State) (i : Nat) (x : List CalPass) : (s.setPassQ i x).fns = s.fns := rfl
@[simp] theorem State.setPassQ_numVfs (s : State) (i : Nat) (x : List CalPass) : (s.setPassQ i x).numVfs = s.numVfs := rfl
@[simp] theorem State.setPassQ_accepted (s : State) (i : Nat) (x : List CalPass) : (s.setPassQ i x).accepted = s.accepted := rfl
@[simp] theorem State.setPassQ_pba (s : State) (i : Nat) (x : List CalPass) : (s.setPassQ i x).pba = s.pba := rfl
@[simp] theorem State.setPassQ_events (s : State) (i : Nat) (x : List CalPass) : (s.setPassQ i x).events = s.events := rfl
@[simp] theorem State.setPassQ_traces (s : State) (i : Nat) (x : List CalPass) : (s.setPassQ i x).traces = s.traces := rfl
@[simp] theorem State.setPassQ_traceSeq (s : State) (i : Nat) (x : List CalPass) : (s.setPassQ i x).traceSeq = s.traceSeq := rfl
@[simp] theorem State.setPassQ_points (s : State) (i : Nat) (x : List CalPass) : (s.setPassQ i x).points = s.points := rfl
@[simp] theorem State.setPassQ_twLatch (s : State) (i : Nat) (x : List CalPass) : (s.setPassQ i x).twLatch = s.twLatch := rfl
@[simp] theorem State.setPassQ_digests (s : State) (i : Nat) (x : List CalPass) : (s.setPassQ i x).digests = s.digests := rfl
@[simp] theorem State.setPassQ_tencs (s : State) (i : Nat) (x : List CalPass) : (s.setPassQ i x).tencs = s.tencs := rfl
@[simp] theorem State.setPassQ_totals (s : State) (i : Nat) (x : List CalPass) : (s.setPassQ i x).totals = s.totals := rfl
@[simp] theorem State.setPassQ_links (s : State) (i : Nat) (x : List CalPass) : (s.setPassQ i x).links = s.links := rfl
@[simp] theorem State.setPassQ_domain (s : State) (i : Nat) (x : List CalPass) : (s.setPassQ i x).domain = s.domain := rfl
@[simp] theorem State.setPassQ_offsets (s : State) (i : Nat) (x : List CalPass) : (s.setPassQ i x).offsets = s.offsets := rfl
@[simp] theorem State.setPassQ_wakes (s : State) (i : Nat) (x : List CalPass) : (s.setPassQ i x).wakes = s.wakes := rfl
@[simp] theorem State.setPassQ_norA (s : State) (i : Nat) (x : List CalPass) : (s.setPassQ i x).norA = s.norA := rfl
@[simp] theorem State.setPassQ_norB (s : State) (i : Nat) (x : List CalPass) : (s.setPassQ i x).norB = s.norB := rfl
@[simp] theorem State.setPassQ_image (s : State) (i : Nat) (x : List CalPass) : (s.setPassQ i x).image = s.image := rfl
@[simp] theorem State.setPassQ_perst (s : State) (i : Nat) (x : List CalPass) : (s.setPassQ i x).perst = s.perst := rfl
@[simp] theorem State.setPassQ_wakeAsked (s : State) (i : Nat) (x : List CalPass) : (s.setPassQ i x).wakeAsked = s.wakeAsked := rfl
@[simp] theorem State.setPassQ_shutRec (s : State) (i : Nat) (x : List CalPass) : (s.setPassQ i x).shutRec = s.shutRec := rfl
@[simp] theorem State.setPassQ_calRec (s : State) (i : Nat) (x : List CalPass) : (s.setPassQ i x).calRec = s.calRec := rfl
@[simp] theorem State.setPassQ_capNow (s : State) (i : Nat) (x : List CalPass) : (s.setPassQ i x).capNow = s.capNow := rfl
@[simp] theorem State.setPassQ_pgmFault (s : State) (i : Nat) (x : List CalPass) : (s.setPassQ i x).pgmFault = s.pgmFault := rfl
@[simp] theorem State.setPassQ_regFails (s : State) (i : Nat) (x : List CalPass) : (s.setPassQ i x).regFails = s.regFails := rfl
@[simp] theorem State.setPassQ_regTried (s : State) (i : Nat) (x : List CalPass) : (s.setPassQ i x).regTried = s.regTried := rfl
@[simp] theorem State.setPassQ_avs (s : State) (i : Nat) (x : List CalPass) : (s.setPassQ i x).avs = s.avs := rfl
@[simp] theorem State.setPassQ_sensors (s : State) (i : Nat) (x : List CalPass) : (s.setPassQ i x).sensors = s.sensors := rfl
@[simp] theorem State.setPassQ_medPrev (s : State) (i : Nat) (x : List CalPass) : (s.setPassQ i x).medPrev = s.medPrev := rfl
@[simp] theorem State.setPassQ_deadCls (s : State) (i : Nat) (x : List CalPass) : (s.setPassQ i x).deadCls = s.deadCls := rfl
@[simp] theorem State.setPassQ_onAt (s : State) (i : Nat) (x : List CalPass) : (s.setPassQ i x).onAt = s.onAt := rfl
@[simp] theorem State.setPassQ_onCl (s : State) (i : Nat) (x : List CalPass) : (s.setPassQ i x).onCl = s.onCl := rfl
@[simp] theorem State.setPassQ_settMem (s : State) (i : Nat) (x : List CalPass) : (s.setPassQ i x).settMem = s.settMem := rfl
@[simp] theorem State.setPassQ_settBuf (s : State) (i : Nat) (x : List CalPass) : (s.setPassQ i x).settBuf = s.settBuf := rfl
@[simp] theorem State.setPassQ_settList (s : State) (i : Nat) (x : List CalPass) : (s.setPassQ i x).settList = s.settList := rfl
@[simp] theorem State.setPassQ_settQueue (s : State) (i : Nat) (x : List CalPass) : (s.setPassQ i x).settQueue = s.settQueue := rfl
@[simp] theorem State.setPassQ_settCommits (s : State) (i : Nat) (x : List CalPass) : (s.setPassQ i x).settCommits = s.settCommits := rfl
@[simp] theorem State.setPassQ_settRefreshes (s : State) (i : Nat) (x : List CalPass) : (s.setPassQ i x).settRefreshes = s.settRefreshes := rfl
@[simp] theorem State.setPassQ_ringNext (s : State) (i : Nat) (x : List CalPass) : (s.setPassQ i x).ringNext = s.ringNext := rfl
@[simp] theorem State.setPassQ_ringSeq (s : State) (i : Nat) (x : List CalPass) : (s.setPassQ i x).ringSeq = s.ringSeq := rfl
@[simp] theorem State.setPassQ_lc (s : State) (i : Nat) (x : List CalPass) : (s.setPassQ i x).lc = s.lc := rfl
@[simp] theorem State.setPassQ_lcBusy (s : State) (i : Nat) (x : List CalPass) : (s.setPassQ i x).lcBusy = s.lcBusy := rfl
@[simp] theorem State.setPassQ_fwTarget (s : State) (i : Nat) (x : List CalPass) : (s.setPassQ i x).fwTarget = s.fwTarget := rfl
@[simp] theorem State.setPassQ_signKeys (s : State) (i : Nat) (x : List CalPass) : (s.setPassQ i x).signKeys = s.signKeys := rfl
@[simp] theorem State.setPassQ_spot (s : State) (i : Nat) (x : List CalPass) : (s.setPassQ i x).spot = s.spot := rfl
@[simp] theorem State.setPassQ_bearAt (s : State) (i : Nat) (x : List CalPass) : (s.setPassQ i x).bearAt = s.bearAt := rfl
@[simp] theorem State.setPassQ_wins (s : State) (i : Nat) (x : List CalPass) : (s.setPassQ i x).wins = s.wins := rfl
@[simp] theorem State.setPassQ_wrules (s : State) (i : Nat) (x : List CalPass) : (s.setPassQ i x).wrules = s.wrules := rfl
@[simp] theorem State.setPassQ_wioDown (s : State) (i : Nat) (x : List CalPass) : (s.setPassQ i x).wioDown = s.wioDown := rfl
@[simp] theorem State.setPassQ_base (s : State) (i : Nat) (x : List CalPass) : (s.setPassQ i x).base = s.base := rfl
@[simp] theorem State.setPassQ_pllOff (s : State) (i : Nat) (x : List CalPass) : (s.setPassQ i x).pllOff = s.pllOff := rfl
@[simp] theorem State.setPassQ_cmLast (s : State) (i : Nat) (x : List CalPass) : (s.setPassQ i x).cmLast = s.cmLast := rfl
@[simp] theorem State.setPassQ_clrAt (s : State) (i : Nat) (x : List CalPass) : (s.setPassQ i x).clrAt = s.clrAt := rfl
@[simp] theorem State.setPassQ_syncAt (s : State) (i : Nat) (x : List CalPass) : (s.setPassQ i x).syncAt = s.syncAt := rfl
@[simp] theorem State.setPassQ_trgAt (s : State) (i : Nat) (x : List CalPass) : (s.setPassQ i x).trgAt = s.trgAt := rfl
@[simp] theorem State.setPassQ_snapHeld (s : State) (i : Nat) (x : List CalPass) : (s.setPassQ i x).snapHeld = s.snapHeld := rfl
@[simp] theorem State.setPassQ_resets (s : State) (i : Nat) (x : List CalPass) : (s.setPassQ i x).resets = s.resets := rfl
@[simp] theorem State.setPassQ_accounts (s : State) (i : Nat) (x : List CalPass) : (s.setPassQ i x).accounts = s.accounts := rfl
@[simp] theorem State.setPassQ_refillAt (s : State) (i : Nat) (x : List CalPass) : (s.setPassQ i x).refillAt = s.refillAt := rfl
@[simp] theorem State.setPassQ_grants (s : State) (i : Nat) (x : List CalPass) : (s.setPassQ i x).grants = s.grants := rfl
@[simp] theorem State.setPassQ_bandMoved (s : State) (i : Nat) (x : List CalPass) : (s.setPassQ i x).bandMoved = s.bandMoved := rfl
@[simp] theorem State.setPassQ_thrJudged (s : State) (i : Nat) (x : List CalPass) : (s.setPassQ i x).thrJudged = s.thrJudged := rfl
@[simp] theorem State.setPassQ_spareLeft (s : State) (i : Nat) (x : List CalPass) : (s.setPassQ i x).spareLeft = s.spareLeft := rfl
@[simp] theorem State.setPassQ_aerLog (s : State) (i : Nat) (x : List CalPass) : (s.setPassQ i x).aerLog = s.aerLog := rfl
@[simp] theorem State.setPassQ_loading (s : State) (i : Nat) (x : List CalPass) : (s.setPassQ i x).loading = s.loading := rfl
@[simp] theorem State.setPassQ_channels (s : State) (i : Nat) (x : List CalPass) : (s.setPassQ i x).channels = s.channels := rfl
@[simp] theorem State.setPassQ_traceLast (s : State) (i : Nat) (x : List CalPass) : (s.setPassQ i x).traceLast = s.traceLast := rfl
@[simp] theorem State.setPassQ_counters (s : State) (i : Nat) (x : List CalPass) : (s.setPassQ i x).counters = s.counters := rfl
@[simp] theorem State.setPassQ_spotDue (s : State) (i : Nat) (x : List CalPass) : (s.setPassQ i x).spotDue = s.spotDue := rfl
@[simp] theorem State.setPassQ_heldRules (s : State) (i : Nat) (x : List CalPass) : (s.setPassQ i x).heldRules = s.heldRules := rfl
@[simp] theorem State.setPassQ_outMarks (s : State) (i : Nat) (x : List CalPass) : (s.setPassQ i x).outMarks = s.outMarks := rfl
@[simp] theorem State.advance_pending (s : State) (now : Nat) : (s.advance now).pending = s.pending := rfl
@[simp] theorem State.advance_fresh (s : State) (now : Nat) : (s.advance now).fresh = s.fresh := rfl
@[simp] theorem State.advance_out (s : State) (now : Nat) : (s.advance now).out = s.out := rfl
@[simp] theorem State.advance_regs (s : State) (now : Nat) : (s.advance now).regs = s.regs := rfl
@[simp] theorem State.advance_latches (s : State) (now : Nat) : (s.advance now).latches = s.latches := rfl
@[simp] theorem State.advance_sram (s : State) (now : Nat) : (s.advance now).sram = s.sram := rfl
@[simp] theorem State.advance_ecc (s : State) (now : Nat) : (s.advance now).ecc = s.ecc := rfl
@[simp] theorem State.advance_tokenPool (s : State) (now : Nat) : (s.advance now).tokenPool = s.tokenPool := rfl
@[simp] theorem State.advance_tokenHeld (s : State) (now : Nat) : (s.advance now).tokenHeld = s.tokenHeld := rfl
@[simp] theorem State.advance_tokenWait (s : State) (now : Nat) : (s.advance now).tokenWait = s.tokenWait := rfl
@[simp] theorem State.advance_cells (s : State) (now : Nat) : (s.advance now).cells = s.cells := rfl
@[simp] theorem State.advance_engines (s : State) (now : Nat) : (s.advance now).engines = s.engines := rfl
@[simp] theorem State.advance_trackers (s : State) (now : Nat) : (s.advance now).trackers = s.trackers := rfl
@[simp] theorem State.advance_trims (s : State) (now : Nat) : (s.advance now).trims = s.trims := rfl
@[simp] theorem State.advance_passes (s : State) (now : Nat) : (s.advance now).passes = s.passes := rfl
@[simp] theorem State.advance_bandTime (s : State) (now : Nat) : (s.advance now).bandTime = s.bandTime := rfl
@[simp] theorem State.advance_bandAt (s : State) (now : Nat) : (s.advance now).bandAt = s.bandAt := rfl
@[simp] theorem State.advance_adderFree (s : State) (now : Nat) : (s.advance now).adderFree = s.adderFree := rfl
@[simp] theorem State.advance_owls (s : State) (now : Nat) : (s.advance now).owls = s.owls := rfl
@[simp] theorem State.advance_rings (s : State) (now : Nat) : (s.advance now).rings = s.rings := rfl
@[simp] theorem State.advance_stations (s : State) (now : Nat) : (s.advance now).stations = s.stations := rfl
@[simp] theorem State.advance_tiles (s : State) (now : Nat) : (s.advance now).tiles = s.tiles := rfl
@[simp] theorem State.advance_tmvs (s : State) (now : Nat) : (s.advance now).tmvs = s.tmvs := rfl
@[simp] theorem State.advance_ctxs (s : State) (now : Nat) : (s.advance now).ctxs = s.ctxs := rfl
@[simp] theorem State.advance_ingests (s : State) (now : Nat) : (s.advance now).ingests = s.ingests := rfl
@[simp] theorem State.advance_offers (s : State) (now : Nat) : (s.advance now).offers = s.offers := rfl
@[simp] theorem State.advance_scrubs (s : State) (now : Nat) : (s.advance now).scrubs = s.scrubs := rfl
@[simp] theorem State.advance_ports (s : State) (now : Nat) : (s.advance now).ports = s.ports := rfl
@[simp] theorem State.advance_threads (s : State) (now : Nat) : (s.advance now).threads = s.threads := rfl
@[simp] theorem State.advance_flights (s : State) (now : Nat) : (s.advance now).flights = s.flights := rfl
@[simp] theorem State.advance_groups (s : State) (now : Nat) : (s.advance now).groups = s.groups := rfl
@[simp] theorem State.advance_sets (s : State) (now : Nat) : (s.advance now).sets = s.sets := rfl
@[simp] theorem State.advance_snaps (s : State) (now : Nat) : (s.advance now).snaps = s.snaps := rfl
@[simp] theorem State.advance_parts (s : State) (now : Nat) : (s.advance now).parts = s.parts := rfl
@[simp] theorem State.advance_placed (s : State) (now : Nat) : (s.advance now).placed = s.placed := rfl
@[simp] theorem State.advance_jobs (s : State) (now : Nat) : (s.advance now).jobs = s.jobs := rfl
@[simp] theorem State.advance_beavers (s : State) (now : Nat) : (s.advance now).beavers = s.beavers := rfl
@[simp] theorem State.advance_turn (s : State) (now : Nat) : (s.advance now).turn = s.turn := rfl
@[simp] theorem State.advance_shards (s : State) (now : Nat) : (s.advance now).shards = s.shards := rfl
@[simp] theorem State.advance_modelKeys (s : State) (now : Nat) : (s.advance now).modelKeys = s.modelKeys := rfl
@[simp] theorem State.advance_shadows (s : State) (now : Nat) : (s.advance now).shadows = s.shadows := rfl
@[simp] theorem State.advance_weak (s : State) (now : Nat) : (s.advance now).weak = s.weak := rfl
@[simp] theorem State.advance_buckets (s : State) (now : Nat) : (s.advance now).buckets = s.buckets := rfl
@[simp] theorem State.advance_bucketAt (s : State) (now : Nat) : (s.advance now).bucketAt = s.bucketAt := rfl
@[simp] theorem State.advance_fns (s : State) (now : Nat) : (s.advance now).fns = s.fns := rfl
@[simp] theorem State.advance_numVfs (s : State) (now : Nat) : (s.advance now).numVfs = s.numVfs := rfl
@[simp] theorem State.advance_accepted (s : State) (now : Nat) : (s.advance now).accepted = s.accepted := rfl
@[simp] theorem State.advance_pba (s : State) (now : Nat) : (s.advance now).pba = s.pba := rfl
@[simp] theorem State.advance_events (s : State) (now : Nat) : (s.advance now).events = s.events := rfl
@[simp] theorem State.advance_traces (s : State) (now : Nat) : (s.advance now).traces = s.traces := rfl
@[simp] theorem State.advance_traceSeq (s : State) (now : Nat) : (s.advance now).traceSeq = s.traceSeq := rfl
@[simp] theorem State.advance_points (s : State) (now : Nat) : (s.advance now).points = s.points := rfl
@[simp] theorem State.advance_twLatch (s : State) (now : Nat) : (s.advance now).twLatch = s.twLatch := rfl
@[simp] theorem State.advance_digests (s : State) (now : Nat) : (s.advance now).digests = s.digests := rfl
@[simp] theorem State.advance_tencs (s : State) (now : Nat) : (s.advance now).tencs = s.tencs := rfl
@[simp] theorem State.advance_totals (s : State) (now : Nat) : (s.advance now).totals = s.totals := rfl
@[simp] theorem State.advance_links (s : State) (now : Nat) : (s.advance now).links = s.links := rfl
@[simp] theorem State.advance_domain (s : State) (now : Nat) : (s.advance now).domain = s.domain := rfl
@[simp] theorem State.advance_offsets (s : State) (now : Nat) : (s.advance now).offsets = s.offsets := rfl
@[simp] theorem State.advance_wakes (s : State) (now : Nat) : (s.advance now).wakes = s.wakes := rfl
@[simp] theorem State.advance_norA (s : State) (now : Nat) : (s.advance now).norA = s.norA := rfl
@[simp] theorem State.advance_norB (s : State) (now : Nat) : (s.advance now).norB = s.norB := rfl
@[simp] theorem State.advance_image (s : State) (now : Nat) : (s.advance now).image = s.image := rfl
@[simp] theorem State.advance_perst (s : State) (now : Nat) : (s.advance now).perst = s.perst := rfl
@[simp] theorem State.advance_wakeAsked (s : State) (now : Nat) : (s.advance now).wakeAsked = s.wakeAsked := rfl
@[simp] theorem State.advance_shutRec (s : State) (now : Nat) : (s.advance now).shutRec = s.shutRec := rfl
@[simp] theorem State.advance_calRec (s : State) (now : Nat) : (s.advance now).calRec = s.calRec := rfl
@[simp] theorem State.advance_capNow (s : State) (now : Nat) : (s.advance now).capNow = s.capNow := rfl
@[simp] theorem State.advance_pgmFault (s : State) (now : Nat) : (s.advance now).pgmFault = s.pgmFault := rfl
@[simp] theorem State.advance_regFails (s : State) (now : Nat) : (s.advance now).regFails = s.regFails := rfl
@[simp] theorem State.advance_regTried (s : State) (now : Nat) : (s.advance now).regTried = s.regTried := rfl
@[simp] theorem State.advance_avs (s : State) (now : Nat) : (s.advance now).avs = s.avs := rfl
@[simp] theorem State.advance_sensors (s : State) (now : Nat) : (s.advance now).sensors = s.sensors := rfl
@[simp] theorem State.advance_medPrev (s : State) (now : Nat) : (s.advance now).medPrev = s.medPrev := rfl
@[simp] theorem State.advance_deadCls (s : State) (now : Nat) : (s.advance now).deadCls = s.deadCls := rfl
@[simp] theorem State.advance_onAt (s : State) (now : Nat) : (s.advance now).onAt = s.onAt := rfl
@[simp] theorem State.advance_onCl (s : State) (now : Nat) : (s.advance now).onCl = s.onCl := rfl
@[simp] theorem State.advance_settMem (s : State) (now : Nat) : (s.advance now).settMem = s.settMem := rfl
@[simp] theorem State.advance_settBuf (s : State) (now : Nat) : (s.advance now).settBuf = s.settBuf := rfl
@[simp] theorem State.advance_settList (s : State) (now : Nat) : (s.advance now).settList = s.settList := rfl
@[simp] theorem State.advance_settQueue (s : State) (now : Nat) : (s.advance now).settQueue = s.settQueue := rfl
@[simp] theorem State.advance_settCommits (s : State) (now : Nat) : (s.advance now).settCommits = s.settCommits := rfl
@[simp] theorem State.advance_settRefreshes (s : State) (now : Nat) : (s.advance now).settRefreshes = s.settRefreshes := rfl
@[simp] theorem State.advance_ringNext (s : State) (now : Nat) : (s.advance now).ringNext = s.ringNext := rfl
@[simp] theorem State.advance_ringSeq (s : State) (now : Nat) : (s.advance now).ringSeq = s.ringSeq := rfl
@[simp] theorem State.advance_lc (s : State) (now : Nat) : (s.advance now).lc = s.lc := rfl
@[simp] theorem State.advance_lcBusy (s : State) (now : Nat) : (s.advance now).lcBusy = s.lcBusy := rfl
@[simp] theorem State.advance_fwTarget (s : State) (now : Nat) : (s.advance now).fwTarget = s.fwTarget := rfl
@[simp] theorem State.advance_signKeys (s : State) (now : Nat) : (s.advance now).signKeys = s.signKeys := rfl
@[simp] theorem State.advance_spot (s : State) (now : Nat) : (s.advance now).spot = s.spot := rfl
@[simp] theorem State.advance_bearAt (s : State) (now : Nat) : (s.advance now).bearAt = s.bearAt := rfl
@[simp] theorem State.advance_wins (s : State) (now : Nat) : (s.advance now).wins = s.wins := rfl
@[simp] theorem State.advance_wrules (s : State) (now : Nat) : (s.advance now).wrules = s.wrules := rfl
@[simp] theorem State.advance_wioDown (s : State) (now : Nat) : (s.advance now).wioDown = s.wioDown := rfl
@[simp] theorem State.advance_base (s : State) (now : Nat) : (s.advance now).base = s.base := rfl
@[simp] theorem State.advance_pllOff (s : State) (now : Nat) : (s.advance now).pllOff = s.pllOff := rfl
@[simp] theorem State.advance_clrAt (s : State) (now : Nat) : (s.advance now).clrAt = s.clrAt := rfl
@[simp] theorem State.advance_syncAt (s : State) (now : Nat) : (s.advance now).syncAt = s.syncAt := rfl
@[simp] theorem State.advance_trgAt (s : State) (now : Nat) : (s.advance now).trgAt = s.trgAt := rfl
@[simp] theorem State.advance_snapHeld (s : State) (now : Nat) : (s.advance now).snapHeld = s.snapHeld := rfl
@[simp] theorem State.advance_resets (s : State) (now : Nat) : (s.advance now).resets = s.resets := rfl
@[simp] theorem State.advance_accounts (s : State) (now : Nat) : (s.advance now).accounts = s.accounts := rfl
@[simp] theorem State.advance_refillAt (s : State) (now : Nat) : (s.advance now).refillAt = s.refillAt := rfl
@[simp] theorem State.advance_grants (s : State) (now : Nat) : (s.advance now).grants = s.grants := rfl
@[simp] theorem State.advance_bandMoved (s : State) (now : Nat) : (s.advance now).bandMoved = s.bandMoved := rfl
@[simp] theorem State.advance_thrJudged (s : State) (now : Nat) : (s.advance now).thrJudged = s.thrJudged := rfl
@[simp] theorem State.advance_spareLeft (s : State) (now : Nat) : (s.advance now).spareLeft = s.spareLeft := rfl
@[simp] theorem State.advance_aerLog (s : State) (now : Nat) : (s.advance now).aerLog = s.aerLog := rfl
@[simp] theorem State.advance_loading (s : State) (now : Nat) : (s.advance now).loading = s.loading := rfl
@[simp] theorem State.advance_channels (s : State) (now : Nat) : (s.advance now).channels = s.channels := rfl
@[simp] theorem State.advance_traceLast (s : State) (now : Nat) : (s.advance now).traceLast = s.traceLast := rfl
@[simp] theorem State.advance_counters (s : State) (now : Nat) : (s.advance now).counters = s.counters := rfl
@[simp] theorem State.advance_spotDue (s : State) (now : Nat) : (s.advance now).spotDue = s.spotDue := rfl
@[simp] theorem State.advance_heldRules (s : State) (now : Nat) : (s.advance now).heldRules = s.heldRules := rfl
@[simp] theorem State.advance_outMarks (s : State) (now : Nat) : (s.advance now).outMarks = s.outMarks := rfl
@[simp] theorem State.advance_time (s : State) (now : Nat) : (s.advance now).time = max s.time now := rfl

/-! ### Reads of registers and memory after each update -/

@[simp] theorem State.byte_setF (s : State) (f : Fld) (i v : Nat) (j : Nat) : (s.setF f i v).byte j = s.byte j := rfl
@[simp] theorem State.syndrome_setF (s : State) (f : Fld) (i v : Nat) (j : Nat) : (s.setF f i v).syndrome j = s.syndrome j := rfl
@[simp] theorem State.getF_burn (s : State) (g : Fld) (j : Nat) : s.burn.getF g j = s.getF g j := rfl
@[simp] theorem State.bit_burn (s : State) (g : Fld) (j : Nat) : s.burn.bit g j = s.bit g j := rfl
@[simp] theorem State.byte_burn (s : State) (j : Nat) : s.burn.byte j = s.byte j := rfl
@[simp] theorem State.syndrome_burn (s : State) (j : Nat) : s.burn.syndrome j = s.syndrome j := rfl
@[simp] theorem State.getF_emit (s : State) (o : Output) (g : Fld) (j : Nat) : (s.emit o).getF g j = s.getF g j := rfl
@[simp] theorem State.bit_emit (s : State) (o : Output) (g : Fld) (j : Nat) : (s.emit o).bit g j = s.bit g j := rfl
@[simp] theorem State.byte_emit (s : State) (o : Output) (j : Nat) : (s.emit o).byte j = s.byte j := rfl
@[simp] theorem State.syndrome_emit (s : State) (o : Output) (j : Nat) : (s.emit o).syndrome j = s.syndrome j := rfl
@[simp] theorem State.getF_setEngine (s : State) (i : Nat) (x : Engine) (g : Fld) (j : Nat) : (s.setEngine i x).getF g j = s.getF g j := rfl
@[simp] theorem State.bit_setEngine (s : State) (i : Nat) (x : Engine) (g : Fld) (j : Nat) : (s.setEngine i x).bit g j = s.bit g j := rfl
@[simp] theorem State.byte_setEngine (s : State) (i : Nat) (x : Engine) (j : Nat) : (s.setEngine i x).byte j = s.byte j := rfl
@[simp] theorem State.syndrome_setEngine (s : State) (i : Nat) (x : Engine) (j : Nat) : (s.setEngine i x).syndrome j = s.syndrome j := rfl
@[simp] theorem State.getF_setTracker (s : State) (i : Nat) (x : Tracker) (g : Fld) (j : Nat) : (s.setTracker i x).getF g j = s.getF g j := rfl
@[simp] theorem State.bit_setTracker (s : State) (i : Nat) (x : Tracker) (g : Fld) (j : Nat) : (s.setTracker i x).bit g j = s.bit g j := rfl
@[simp] theorem State.byte_setTracker (s : State) (i : Nat) (x : Tracker) (j : Nat) : (s.setTracker i x).byte j = s.byte j := rfl
@[simp] theorem State.syndrome_setTracker (s : State) (i : Nat) (x : Tracker) (j : Nat) : (s.setTracker i x).syndrome j = s.syndrome j := rfl
@[simp] theorem State.getF_setStation (s : State) (i : Nat) (x : Station) (g : Fld) (j : Nat) : (s.setStation i x).getF g j = s.getF g j := rfl
@[simp] theorem State.bit_setStation (s : State) (i : Nat) (x : Station) (g : Fld) (j : Nat) : (s.setStation i x).bit g j = s.bit g j := rfl
@[simp] theorem State.byte_setStation (s : State) (i : Nat) (x : Station) (j : Nat) : (s.setStation i x).byte j = s.byte j := rfl
@[simp] theorem State.syndrome_setStation (s : State) (i : Nat) (x : Station) (j : Nat) : (s.setStation i x).syndrome j = s.syndrome j := rfl
@[simp] theorem State.getF_setCoreTiles (s : State) (i : Nat) (x : List Tile) (g : Fld) (j : Nat) : (s.setCoreTiles i x).getF g j = s.getF g j := rfl
@[simp] theorem State.bit_setCoreTiles (s : State) (i : Nat) (x : List Tile) (g : Fld) (j : Nat) : (s.setCoreTiles i x).bit g j = s.bit g j := rfl
@[simp] theorem State.byte_setCoreTiles (s : State) (i : Nat) (x : List Tile) (j : Nat) : (s.setCoreTiles i x).byte j = s.byte j := rfl
@[simp] theorem State.syndrome_setCoreTiles (s : State) (i : Nat) (x : List Tile) (j : Nat) : (s.setCoreTiles i x).syndrome j = s.syndrome j := rfl
@[simp] theorem State.getF_setTmv (s : State) (i : Nat) (x : Tmv) (g : Fld) (j : Nat) : (s.setTmv i x).getF g j = s.getF g j := rfl
@[simp] theorem State.bit_setTmv (s : State) (i : Nat) (x : Tmv) (g : Fld) (j : Nat) : (s.setTmv i x).bit g j = s.bit g j := rfl
@[simp] theorem State.byte_setTmv (s : State) (i : Nat) (x : Tmv) (j : Nat) : (s.setTmv i x).byte j = s.byte j := rfl
@[simp] theorem State.syndrome_setTmv (s : State) (i : Nat) (x : Tmv) (j : Nat) : (s.setTmv i x).syndrome j = s.syndrome j := rfl
@[simp] theorem State.getF_setCtx (s : State) (i : Nat) (x : Context) (g : Fld) (j : Nat) : (s.setCtx i x).getF g j = s.getF g j := rfl
@[simp] theorem State.bit_setCtx (s : State) (i : Nat) (x : Context) (g : Fld) (j : Nat) : (s.setCtx i x).bit g j = s.bit g j := rfl
@[simp] theorem State.byte_setCtx (s : State) (i : Nat) (x : Context) (j : Nat) : (s.setCtx i x).byte j = s.byte j := rfl
@[simp] theorem State.syndrome_setCtx (s : State) (i : Nat) (x : Context) (j : Nat) : (s.setCtx i x).syndrome j = s.syndrome j := rfl
@[simp] theorem State.getF_setThread (s : State) (i : Nat) (x : ThreadState) (g : Fld) (j : Nat) : (s.setThread i x).getF g j = s.getF g j := rfl
@[simp] theorem State.bit_setThread (s : State) (i : Nat) (x : ThreadState) (g : Fld) (j : Nat) : (s.setThread i x).bit g j = s.bit g j := rfl
@[simp] theorem State.byte_setThread (s : State) (i : Nat) (x : ThreadState) (j : Nat) : (s.setThread i x).byte j = s.byte j := rfl
@[simp] theorem State.syndrome_setThread (s : State) (i : Nat) (x : ThreadState) (j : Nat) : (s.setThread i x).syndrome j = s.syndrome j := rfl
@[simp] theorem State.getF_setGroup (s : State) (i : Nat) (x : Group) (g : Fld) (j : Nat) : (s.setGroup i x).getF g j = s.getF g j := rfl
@[simp] theorem State.bit_setGroup (s : State) (i : Nat) (x : Group) (g : Fld) (j : Nat) : (s.setGroup i x).bit g j = s.bit g j := rfl
@[simp] theorem State.byte_setGroup (s : State) (i : Nat) (x : Group) (j : Nat) : (s.setGroup i x).byte j = s.byte j := rfl
@[simp] theorem State.syndrome_setGroup (s : State) (i : Nat) (x : Group) (j : Nat) : (s.setGroup i x).syndrome j = s.syndrome j := rfl
@[simp] theorem State.getF_setPart (s : State) (i : Nat) (x : Option Partition) (g : Fld) (j : Nat) : (s.setPart i x).getF g j = s.getF g j := rfl
@[simp] theorem State.bit_setPart (s : State) (i : Nat) (x : Option Partition) (g : Fld) (j : Nat) : (s.setPart i x).bit g j = s.bit g j := rfl
@[simp] theorem State.byte_setPart (s : State) (i : Nat) (x : Option Partition) (j : Nat) : (s.setPart i x).byte j = s.byte j := rfl
@[simp] theorem State.syndrome_setPart (s : State) (i : Nat) (x : Option Partition) (j : Nat) : (s.setPart i x).syndrome j = s.syndrome j := rfl
@[simp] theorem State.getF_setFn (s : State) (i : Nat) (x : Function) (g : Fld) (j : Nat) : (s.setFn i x).getF g j = s.getF g j := rfl
@[simp] theorem State.bit_setFn (s : State) (i : Nat) (x : Function) (g : Fld) (j : Nat) : (s.setFn i x).bit g j = s.bit g j := rfl
@[simp] theorem State.byte_setFn (s : State) (i : Nat) (x : Function) (j : Nat) : (s.setFn i x).byte j = s.byte j := rfl
@[simp] theorem State.syndrome_setFn (s : State) (i : Nat) (x : Function) (j : Nat) : (s.setFn i x).syndrome j = s.syndrome j := rfl
@[simp] theorem State.getF_setOcu (s : State) (i : Nat) (x : Ocu) (g : Fld) (j : Nat) : (s.setOcu i x).getF g j = s.getF g j := rfl
@[simp] theorem State.bit_setOcu (s : State) (i : Nat) (x : Ocu) (g : Fld) (j : Nat) : (s.setOcu i x).bit g j = s.bit g j := rfl
@[simp] theorem State.byte_setOcu (s : State) (i : Nat) (x : Ocu) (j : Nat) : (s.setOcu i x).byte j = s.byte j := rfl
@[simp] theorem State.syndrome_setOcu (s : State) (i : Nat) (x : Ocu) (j : Nat) : (s.setOcu i x).syndrome j = s.syndrome j := rfl
@[simp] theorem State.getF_setOwl (s : State) (i : Nat) (x : Owl) (g : Fld) (j : Nat) : (s.setOwl i x).getF g j = s.getF g j := rfl
@[simp] theorem State.bit_setOwl (s : State) (i : Nat) (x : Owl) (g : Fld) (j : Nat) : (s.setOwl i x).bit g j = s.bit g j := rfl
@[simp] theorem State.byte_setOwl (s : State) (i : Nat) (x : Owl) (j : Nat) : (s.setOwl i x).byte j = s.byte j := rfl
@[simp] theorem State.syndrome_setOwl (s : State) (i : Nat) (x : Owl) (j : Nat) : (s.setOwl i x).syndrome j = s.syndrome j := rfl
@[simp] theorem State.getF_setPort (s : State) (i : Nat) (x : Port) (g : Fld) (j : Nat) : (s.setPort i x).getF g j = s.getF g j := rfl
@[simp] theorem State.bit_setPort (s : State) (i : Nat) (x : Port) (g : Fld) (j : Nat) : (s.setPort i x).bit g j = s.bit g j := rfl
@[simp] theorem State.byte_setPort (s : State) (i : Nat) (x : Port) (j : Nat) : (s.setPort i x).byte j = s.byte j := rfl
@[simp] theorem State.syndrome_setPort (s : State) (i : Nat) (x : Port) (j : Nat) : (s.setPort i x).syndrome j = s.syndrome j := rfl
@[simp] theorem State.getF_setShard (s : State) (i : Nat) (x : Shard) (g : Fld) (j : Nat) : (s.setShard i x).getF g j = s.getF g j := rfl
@[simp] theorem State.bit_setShard (s : State) (i : Nat) (x : Shard) (g : Fld) (j : Nat) : (s.setShard i x).bit g j = s.bit g j := rfl
@[simp] theorem State.byte_setShard (s : State) (i : Nat) (x : Shard) (j : Nat) : (s.setShard i x).byte j = s.byte j := rfl
@[simp] theorem State.syndrome_setShard (s : State) (i : Nat) (x : Shard) (j : Nat) : (s.setShard i x).syndrome j = s.syndrome j := rfl
@[simp] theorem State.getF_setBeaver (s : State) (i : Nat) (x : Option Beaver) (g : Fld) (j : Nat) : (s.setBeaver i x).getF g j = s.getF g j := rfl
@[simp] theorem State.bit_setBeaver (s : State) (i : Nat) (x : Option Beaver) (g : Fld) (j : Nat) : (s.setBeaver i x).bit g j = s.bit g j := rfl
@[simp] theorem State.byte_setBeaver (s : State) (i : Nat) (x : Option Beaver) (j : Nat) : (s.setBeaver i x).byte j = s.byte j := rfl
@[simp] theorem State.syndrome_setBeaver (s : State) (i : Nat) (x : Option Beaver) (j : Nat) : (s.setBeaver i x).syndrome j = s.syndrome j := rfl
@[simp] theorem State.getF_setJobQ (s : State) (i : Nat) (x : List Job) (g : Fld) (j : Nat) : (s.setJobQ i x).getF g j = s.getF g j := rfl
@[simp] theorem State.bit_setJobQ (s : State) (i : Nat) (x : List Job) (g : Fld) (j : Nat) : (s.setJobQ i x).bit g j = s.bit g j := rfl
@[simp] theorem State.byte_setJobQ (s : State) (i : Nat) (x : List Job) (j : Nat) : (s.setJobQ i x).byte j = s.byte j := rfl
@[simp] theorem State.syndrome_setJobQ (s : State) (i : Nat) (x : List Job) (j : Nat) : (s.setJobQ i x).syndrome j = s.syndrome j := rfl
@[simp] theorem State.getF_setTrace (s : State) (i : Nat) (x : TraceRing) (g : Fld) (j : Nat) : (s.setTrace i x).getF g j = s.getF g j := rfl
@[simp] theorem State.bit_setTrace (s : State) (i : Nat) (x : TraceRing) (g : Fld) (j : Nat) : (s.setTrace i x).bit g j = s.bit g j := rfl
@[simp] theorem State.byte_setTrace (s : State) (i : Nat) (x : TraceRing) (j : Nat) : (s.setTrace i x).byte j = s.byte j := rfl
@[simp] theorem State.syndrome_setTrace (s : State) (i : Nat) (x : TraceRing) (j : Nat) : (s.setTrace i x).syndrome j = s.syndrome j := rfl
@[simp] theorem State.getF_setPoint (s : State) (i : Nat) (x : TensorPoint) (g : Fld) (j : Nat) : (s.setPoint i x).getF g j = s.getF g j := rfl
@[simp] theorem State.bit_setPoint (s : State) (i : Nat) (x : TensorPoint) (g : Fld) (j : Nat) : (s.setPoint i x).bit g j = s.bit g j := rfl
@[simp] theorem State.byte_setPoint (s : State) (i : Nat) (x : TensorPoint) (j : Nat) : (s.setPoint i x).byte j = s.byte j := rfl
@[simp] theorem State.syndrome_setPoint (s : State) (i : Nat) (x : TensorPoint) (j : Nat) : (s.setPoint i x).syndrome j = s.syndrome j := rfl
@[simp] theorem State.getF_setPassQ (s : State) (i : Nat) (x : List CalPass) (g : Fld) (j : Nat) : (s.setPassQ i x).getF g j = s.getF g j := rfl
@[simp] theorem State.bit_setPassQ (s : State) (i : Nat) (x : List CalPass) (g : Fld) (j : Nat) : (s.setPassQ i x).bit g j = s.bit g j := rfl
@[simp] theorem State.byte_setPassQ (s : State) (i : Nat) (x : List CalPass) (j : Nat) : (s.setPassQ i x).byte j = s.byte j := rfl
@[simp] theorem State.syndrome_setPassQ (s : State) (i : Nat) (x : List CalPass) (j : Nat) : (s.setPassQ i x).syndrome j = s.syndrome j := rfl
@[simp] theorem State.getF_advance (s : State) (now : Nat) (g : Fld) (j : Nat) : (s.advance now).getF g j = s.getF g j := rfl
@[simp] theorem State.bit_advance (s : State) (now : Nat) (g : Fld) (j : Nat) : (s.advance now).bit g j = s.bit g j := rfl
@[simp] theorem State.byte_advance (s : State) (now : Nat) (j : Nat) : (s.advance now).byte j = s.byte j := rfl
@[simp] theorem State.syndrome_advance (s : State) (now : Nat) (j : Nat) : (s.advance now).syndrome j = s.syndrome j := rfl

/-- A field reads after a write of it as what was stored, cut to its width, and every other field as before. -/
theorem State.getF_setF (s : State) (f g : Fld) (i j v : Nat) :
    (s.setF f i v).getF g j = if f = g ∧ i = j then v % 2 ^ f.width else s.getF g j := by
  unfold State.getF State.setF
  by_cases h : f = g ∧ i = j
  · obtain ⟨rfl, rfl⟩ := h
    simp
  · rw [if_neg h]
    exact smapGet_set_other _ _ (fun e => h (fkey_inj e))

@[simp] theorem State.getF_setF_same (s : State) (f : Fld) (i v : Nat) : (s.setF f i v).getF f i = v % 2 ^ f.width := by
  simp [State.getF_setF]

theorem State.getF_setF_ne (s : State) {f g : Fld} {i j : Nat} (v : Nat) (h : ¬ (f = g ∧ i = j)) :
    (s.setF f i v).getF g j = s.getF g j := by
  simp [State.getF_setF, h]

/-- The other writes of a field are writes of it. -/
@[simp] theorem State.setB_def (s : State) (f : Fld) (i : Nat) (v : Bool) : s.setB f i v = s.setF f i v.toNat := rfl
@[simp] theorem State.addHold_def (s : State) (f : Fld) (i n : Nat) : s.addHold f i n = s.setF f i (min (s.getF f i + n) (2 ^ f.width - 1)) := rfl
@[simp] theorem State.addWrap_def (s : State) (f : Fld) (i n : Nat) : s.addWrap f i n = s.setF f i (s.getF f i + n) := rfl

theorem State.getF_addHold (s : State) (f : Fld) (i n : Nat) :
    (s.addHold f i n).getF f i = min (s.getF f i + n) (2 ^ f.width - 1) := by
  have h : 0 < 2 ^ f.width := Nat.two_pow_pos _
  rw [State.addHold_def, State.getF_setF_same]
  exact Nat.mod_eq_of_lt (by omega)

theorem State.getF_addWrap (s : State) (f : Fld) (i n : Nat) :
    (s.addWrap f i n).getF f i = (s.getF f i + n) % 2 ^ f.width := by
  rw [State.addWrap_def, State.getF_setF_same]

/-! ### Reads of the maps after each update -/

@[simp] theorem State.engine_setF (s : State) (f : Fld) (i v : Nat) (j : Nat) : (s.setF f i v).engine j = s.engine j := rfl
@[simp] theorem State.engine_burn (s : State) (j : Nat) : s.burn.engine j = s.engine j := rfl
@[simp] theorem State.engine_emit (s : State) (o : Output) (j : Nat) : (s.emit o).engine j = s.engine j := rfl
@[simp] theorem State.engine_setEngine_same (s : State) (i : Nat) (x : Engine) : (s.setEngine i x).engine i = x := by simp [State.engine, State.setEngine]
theorem State.engine_setEngine_ne (s : State) (i : Nat) (x : Engine) {j : Nat} (h : i ≠ j) : (s.setEngine i x).engine j = s.engine j := by
  simp [State.engine, State.setEngine, smapGet_set_ne _ _ h]
@[simp] theorem State.engine_setTracker (s : State) (i : Nat) (x : Tracker) (j : Nat) : (s.setTracker i x).engine j = s.engine j := rfl
@[simp] theorem State.engine_setStation (s : State) (i : Nat) (x : Station) (j : Nat) : (s.setStation i x).engine j = s.engine j := rfl
@[simp] theorem State.engine_setCoreTiles (s : State) (i : Nat) (x : List Tile) (j : Nat) : (s.setCoreTiles i x).engine j = s.engine j := rfl
@[simp] theorem State.engine_setTmv (s : State) (i : Nat) (x : Tmv) (j : Nat) : (s.setTmv i x).engine j = s.engine j := rfl
@[simp] theorem State.engine_setCtx (s : State) (i : Nat) (x : Context) (j : Nat) : (s.setCtx i x).engine j = s.engine j := rfl
@[simp] theorem State.engine_setThread (s : State) (i : Nat) (x : ThreadState) (j : Nat) : (s.setThread i x).engine j = s.engine j := rfl
@[simp] theorem State.engine_setGroup (s : State) (i : Nat) (x : Group) (j : Nat) : (s.setGroup i x).engine j = s.engine j := rfl
@[simp] theorem State.engine_setPart (s : State) (i : Nat) (x : Option Partition) (j : Nat) : (s.setPart i x).engine j = s.engine j := rfl
@[simp] theorem State.engine_setFn (s : State) (i : Nat) (x : Function) (j : Nat) : (s.setFn i x).engine j = s.engine j := rfl
@[simp] theorem State.engine_setOcu (s : State) (i : Nat) (x : Ocu) (j : Nat) : (s.setOcu i x).engine j = s.engine j := rfl
@[simp] theorem State.engine_setOwl (s : State) (i : Nat) (x : Owl) (j : Nat) : (s.setOwl i x).engine j = s.engine j := rfl
@[simp] theorem State.engine_setPort (s : State) (i : Nat) (x : Port) (j : Nat) : (s.setPort i x).engine j = s.engine j := rfl
@[simp] theorem State.engine_setShard (s : State) (i : Nat) (x : Shard) (j : Nat) : (s.setShard i x).engine j = s.engine j := rfl
@[simp] theorem State.engine_setBeaver (s : State) (i : Nat) (x : Option Beaver) (j : Nat) : (s.setBeaver i x).engine j = s.engine j := rfl
@[simp] theorem State.engine_setJobQ (s : State) (i : Nat) (x : List Job) (j : Nat) : (s.setJobQ i x).engine j = s.engine j := rfl
@[simp] theorem State.engine_setTrace (s : State) (i : Nat) (x : TraceRing) (j : Nat) : (s.setTrace i x).engine j = s.engine j := rfl
@[simp] theorem State.engine_setPoint (s : State) (i : Nat) (x : TensorPoint) (j : Nat) : (s.setPoint i x).engine j = s.engine j := rfl
@[simp] theorem State.engine_setPassQ (s : State) (i : Nat) (x : List CalPass) (j : Nat) : (s.setPassQ i x).engine j = s.engine j := rfl
@[simp] theorem State.engine_advance (s : State) (now j : Nat) : (s.advance now).engine j = s.engine j := rfl
@[simp] theorem State.tracker_setF (s : State) (f : Fld) (i v : Nat) (j : Nat) : (s.setF f i v).tracker j = s.tracker j := rfl
@[simp] theorem State.tracker_burn (s : State) (j : Nat) : s.burn.tracker j = s.tracker j := rfl
@[simp] theorem State.tracker_emit (s : State) (o : Output) (j : Nat) : (s.emit o).tracker j = s.tracker j := rfl
@[simp] theorem State.tracker_setEngine (s : State) (i : Nat) (x : Engine) (j : Nat) : (s.setEngine i x).tracker j = s.tracker j := rfl
@[simp] theorem State.tracker_setTracker_same (s : State) (i : Nat) (x : Tracker) : (s.setTracker i x).tracker i = x := by simp [State.tracker, State.setTracker]
theorem State.tracker_setTracker_ne (s : State) (i : Nat) (x : Tracker) {j : Nat} (h : i ≠ j) : (s.setTracker i x).tracker j = s.tracker j := by
  simp [State.tracker, State.setTracker, smapGet_set_ne _ _ h]
@[simp] theorem State.tracker_setStation (s : State) (i : Nat) (x : Station) (j : Nat) : (s.setStation i x).tracker j = s.tracker j := rfl
@[simp] theorem State.tracker_setCoreTiles (s : State) (i : Nat) (x : List Tile) (j : Nat) : (s.setCoreTiles i x).tracker j = s.tracker j := rfl
@[simp] theorem State.tracker_setTmv (s : State) (i : Nat) (x : Tmv) (j : Nat) : (s.setTmv i x).tracker j = s.tracker j := rfl
@[simp] theorem State.tracker_setCtx (s : State) (i : Nat) (x : Context) (j : Nat) : (s.setCtx i x).tracker j = s.tracker j := rfl
@[simp] theorem State.tracker_setThread (s : State) (i : Nat) (x : ThreadState) (j : Nat) : (s.setThread i x).tracker j = s.tracker j := rfl
@[simp] theorem State.tracker_setGroup (s : State) (i : Nat) (x : Group) (j : Nat) : (s.setGroup i x).tracker j = s.tracker j := rfl
@[simp] theorem State.tracker_setPart (s : State) (i : Nat) (x : Option Partition) (j : Nat) : (s.setPart i x).tracker j = s.tracker j := rfl
@[simp] theorem State.tracker_setFn (s : State) (i : Nat) (x : Function) (j : Nat) : (s.setFn i x).tracker j = s.tracker j := rfl
@[simp] theorem State.tracker_setOcu (s : State) (i : Nat) (x : Ocu) (j : Nat) : (s.setOcu i x).tracker j = s.tracker j := rfl
@[simp] theorem State.tracker_setOwl (s : State) (i : Nat) (x : Owl) (j : Nat) : (s.setOwl i x).tracker j = s.tracker j := rfl
@[simp] theorem State.tracker_setPort (s : State) (i : Nat) (x : Port) (j : Nat) : (s.setPort i x).tracker j = s.tracker j := rfl
@[simp] theorem State.tracker_setShard (s : State) (i : Nat) (x : Shard) (j : Nat) : (s.setShard i x).tracker j = s.tracker j := rfl
@[simp] theorem State.tracker_setBeaver (s : State) (i : Nat) (x : Option Beaver) (j : Nat) : (s.setBeaver i x).tracker j = s.tracker j := rfl
@[simp] theorem State.tracker_setJobQ (s : State) (i : Nat) (x : List Job) (j : Nat) : (s.setJobQ i x).tracker j = s.tracker j := rfl
@[simp] theorem State.tracker_setTrace (s : State) (i : Nat) (x : TraceRing) (j : Nat) : (s.setTrace i x).tracker j = s.tracker j := rfl
@[simp] theorem State.tracker_setPoint (s : State) (i : Nat) (x : TensorPoint) (j : Nat) : (s.setPoint i x).tracker j = s.tracker j := rfl
@[simp] theorem State.tracker_setPassQ (s : State) (i : Nat) (x : List CalPass) (j : Nat) : (s.setPassQ i x).tracker j = s.tracker j := rfl
@[simp] theorem State.tracker_advance (s : State) (now j : Nat) : (s.advance now).tracker j = s.tracker j := rfl
@[simp] theorem State.station_setF (s : State) (f : Fld) (i v : Nat) (j : Nat) : (s.setF f i v).station j = s.station j := rfl
@[simp] theorem State.station_burn (s : State) (j : Nat) : s.burn.station j = s.station j := rfl
@[simp] theorem State.station_emit (s : State) (o : Output) (j : Nat) : (s.emit o).station j = s.station j := rfl
@[simp] theorem State.station_setEngine (s : State) (i : Nat) (x : Engine) (j : Nat) : (s.setEngine i x).station j = s.station j := rfl
@[simp] theorem State.station_setTracker (s : State) (i : Nat) (x : Tracker) (j : Nat) : (s.setTracker i x).station j = s.station j := rfl
@[simp] theorem State.station_setStation_same (s : State) (i : Nat) (x : Station) : (s.setStation i x).station i = x := by simp [State.station, State.setStation]
theorem State.station_setStation_ne (s : State) (i : Nat) (x : Station) {j : Nat} (h : i ≠ j) : (s.setStation i x).station j = s.station j := by
  simp [State.station, State.setStation, smapGet_set_ne _ _ h]
@[simp] theorem State.station_setCoreTiles (s : State) (i : Nat) (x : List Tile) (j : Nat) : (s.setCoreTiles i x).station j = s.station j := rfl
@[simp] theorem State.station_setTmv (s : State) (i : Nat) (x : Tmv) (j : Nat) : (s.setTmv i x).station j = s.station j := rfl
@[simp] theorem State.station_setCtx (s : State) (i : Nat) (x : Context) (j : Nat) : (s.setCtx i x).station j = s.station j := rfl
@[simp] theorem State.station_setThread (s : State) (i : Nat) (x : ThreadState) (j : Nat) : (s.setThread i x).station j = s.station j := rfl
@[simp] theorem State.station_setGroup (s : State) (i : Nat) (x : Group) (j : Nat) : (s.setGroup i x).station j = s.station j := rfl
@[simp] theorem State.station_setPart (s : State) (i : Nat) (x : Option Partition) (j : Nat) : (s.setPart i x).station j = s.station j := rfl
@[simp] theorem State.station_setFn (s : State) (i : Nat) (x : Function) (j : Nat) : (s.setFn i x).station j = s.station j := rfl
@[simp] theorem State.station_setOcu (s : State) (i : Nat) (x : Ocu) (j : Nat) : (s.setOcu i x).station j = s.station j := rfl
@[simp] theorem State.station_setOwl (s : State) (i : Nat) (x : Owl) (j : Nat) : (s.setOwl i x).station j = s.station j := rfl
@[simp] theorem State.station_setPort (s : State) (i : Nat) (x : Port) (j : Nat) : (s.setPort i x).station j = s.station j := rfl
@[simp] theorem State.station_setShard (s : State) (i : Nat) (x : Shard) (j : Nat) : (s.setShard i x).station j = s.station j := rfl
@[simp] theorem State.station_setBeaver (s : State) (i : Nat) (x : Option Beaver) (j : Nat) : (s.setBeaver i x).station j = s.station j := rfl
@[simp] theorem State.station_setJobQ (s : State) (i : Nat) (x : List Job) (j : Nat) : (s.setJobQ i x).station j = s.station j := rfl
@[simp] theorem State.station_setTrace (s : State) (i : Nat) (x : TraceRing) (j : Nat) : (s.setTrace i x).station j = s.station j := rfl
@[simp] theorem State.station_setPoint (s : State) (i : Nat) (x : TensorPoint) (j : Nat) : (s.setPoint i x).station j = s.station j := rfl
@[simp] theorem State.station_setPassQ (s : State) (i : Nat) (x : List CalPass) (j : Nat) : (s.setPassQ i x).station j = s.station j := rfl
@[simp] theorem State.station_advance (s : State) (now j : Nat) : (s.advance now).station j = s.station j := rfl
@[simp] theorem State.coreTiles_setF (s : State) (f : Fld) (i v : Nat) (j : Nat) : (s.setF f i v).coreTiles j = s.coreTiles j := rfl
@[simp] theorem State.coreTiles_burn (s : State) (j : Nat) : s.burn.coreTiles j = s.coreTiles j := rfl
@[simp] theorem State.coreTiles_emit (s : State) (o : Output) (j : Nat) : (s.emit o).coreTiles j = s.coreTiles j := rfl
@[simp] theorem State.coreTiles_setEngine (s : State) (i : Nat) (x : Engine) (j : Nat) : (s.setEngine i x).coreTiles j = s.coreTiles j := rfl
@[simp] theorem State.coreTiles_setTracker (s : State) (i : Nat) (x : Tracker) (j : Nat) : (s.setTracker i x).coreTiles j = s.coreTiles j := rfl
@[simp] theorem State.coreTiles_setStation (s : State) (i : Nat) (x : Station) (j : Nat) : (s.setStation i x).coreTiles j = s.coreTiles j := rfl
@[simp] theorem State.coreTiles_setCoreTiles_same (s : State) (i : Nat) (x : List Tile) : (s.setCoreTiles i x).coreTiles i = x := by simp [State.coreTiles, State.setCoreTiles]
theorem State.coreTiles_setCoreTiles_ne (s : State) (i : Nat) (x : List Tile) {j : Nat} (h : i ≠ j) : (s.setCoreTiles i x).coreTiles j = s.coreTiles j := by
  simp [State.coreTiles, State.setCoreTiles, smapGet_set_ne _ _ h]
@[simp] theorem State.coreTiles_setTmv (s : State) (i : Nat) (x : Tmv) (j : Nat) : (s.setTmv i x).coreTiles j = s.coreTiles j := rfl
@[simp] theorem State.coreTiles_setCtx (s : State) (i : Nat) (x : Context) (j : Nat) : (s.setCtx i x).coreTiles j = s.coreTiles j := rfl
@[simp] theorem State.coreTiles_setThread (s : State) (i : Nat) (x : ThreadState) (j : Nat) : (s.setThread i x).coreTiles j = s.coreTiles j := rfl
@[simp] theorem State.coreTiles_setGroup (s : State) (i : Nat) (x : Group) (j : Nat) : (s.setGroup i x).coreTiles j = s.coreTiles j := rfl
@[simp] theorem State.coreTiles_setPart (s : State) (i : Nat) (x : Option Partition) (j : Nat) : (s.setPart i x).coreTiles j = s.coreTiles j := rfl
@[simp] theorem State.coreTiles_setFn (s : State) (i : Nat) (x : Function) (j : Nat) : (s.setFn i x).coreTiles j = s.coreTiles j := rfl
@[simp] theorem State.coreTiles_setOcu (s : State) (i : Nat) (x : Ocu) (j : Nat) : (s.setOcu i x).coreTiles j = s.coreTiles j := rfl
@[simp] theorem State.coreTiles_setOwl (s : State) (i : Nat) (x : Owl) (j : Nat) : (s.setOwl i x).coreTiles j = s.coreTiles j := rfl
@[simp] theorem State.coreTiles_setPort (s : State) (i : Nat) (x : Port) (j : Nat) : (s.setPort i x).coreTiles j = s.coreTiles j := rfl
@[simp] theorem State.coreTiles_setShard (s : State) (i : Nat) (x : Shard) (j : Nat) : (s.setShard i x).coreTiles j = s.coreTiles j := rfl
@[simp] theorem State.coreTiles_setBeaver (s : State) (i : Nat) (x : Option Beaver) (j : Nat) : (s.setBeaver i x).coreTiles j = s.coreTiles j := rfl
@[simp] theorem State.coreTiles_setJobQ (s : State) (i : Nat) (x : List Job) (j : Nat) : (s.setJobQ i x).coreTiles j = s.coreTiles j := rfl
@[simp] theorem State.coreTiles_setTrace (s : State) (i : Nat) (x : TraceRing) (j : Nat) : (s.setTrace i x).coreTiles j = s.coreTiles j := rfl
@[simp] theorem State.coreTiles_setPoint (s : State) (i : Nat) (x : TensorPoint) (j : Nat) : (s.setPoint i x).coreTiles j = s.coreTiles j := rfl
@[simp] theorem State.coreTiles_setPassQ (s : State) (i : Nat) (x : List CalPass) (j : Nat) : (s.setPassQ i x).coreTiles j = s.coreTiles j := rfl
@[simp] theorem State.coreTiles_advance (s : State) (now j : Nat) : (s.advance now).coreTiles j = s.coreTiles j := rfl
@[simp] theorem State.tmv_setF (s : State) (f : Fld) (i v : Nat) (j : Nat) : (s.setF f i v).tmv j = s.tmv j := rfl
@[simp] theorem State.tmv_burn (s : State) (j : Nat) : s.burn.tmv j = s.tmv j := rfl
@[simp] theorem State.tmv_emit (s : State) (o : Output) (j : Nat) : (s.emit o).tmv j = s.tmv j := rfl
@[simp] theorem State.tmv_setEngine (s : State) (i : Nat) (x : Engine) (j : Nat) : (s.setEngine i x).tmv j = s.tmv j := rfl
@[simp] theorem State.tmv_setTracker (s : State) (i : Nat) (x : Tracker) (j : Nat) : (s.setTracker i x).tmv j = s.tmv j := rfl
@[simp] theorem State.tmv_setStation (s : State) (i : Nat) (x : Station) (j : Nat) : (s.setStation i x).tmv j = s.tmv j := rfl
@[simp] theorem State.tmv_setCoreTiles (s : State) (i : Nat) (x : List Tile) (j : Nat) : (s.setCoreTiles i x).tmv j = s.tmv j := rfl
@[simp] theorem State.tmv_setTmv_same (s : State) (i : Nat) (x : Tmv) : (s.setTmv i x).tmv i = x := by simp [State.tmv, State.setTmv]
theorem State.tmv_setTmv_ne (s : State) (i : Nat) (x : Tmv) {j : Nat} (h : i ≠ j) : (s.setTmv i x).tmv j = s.tmv j := by
  simp [State.tmv, State.setTmv, smapGet_set_ne _ _ h]
@[simp] theorem State.tmv_setCtx (s : State) (i : Nat) (x : Context) (j : Nat) : (s.setCtx i x).tmv j = s.tmv j := rfl
@[simp] theorem State.tmv_setThread (s : State) (i : Nat) (x : ThreadState) (j : Nat) : (s.setThread i x).tmv j = s.tmv j := rfl
@[simp] theorem State.tmv_setGroup (s : State) (i : Nat) (x : Group) (j : Nat) : (s.setGroup i x).tmv j = s.tmv j := rfl
@[simp] theorem State.tmv_setPart (s : State) (i : Nat) (x : Option Partition) (j : Nat) : (s.setPart i x).tmv j = s.tmv j := rfl
@[simp] theorem State.tmv_setFn (s : State) (i : Nat) (x : Function) (j : Nat) : (s.setFn i x).tmv j = s.tmv j := rfl
@[simp] theorem State.tmv_setOcu (s : State) (i : Nat) (x : Ocu) (j : Nat) : (s.setOcu i x).tmv j = s.tmv j := rfl
@[simp] theorem State.tmv_setOwl (s : State) (i : Nat) (x : Owl) (j : Nat) : (s.setOwl i x).tmv j = s.tmv j := rfl
@[simp] theorem State.tmv_setPort (s : State) (i : Nat) (x : Port) (j : Nat) : (s.setPort i x).tmv j = s.tmv j := rfl
@[simp] theorem State.tmv_setShard (s : State) (i : Nat) (x : Shard) (j : Nat) : (s.setShard i x).tmv j = s.tmv j := rfl
@[simp] theorem State.tmv_setBeaver (s : State) (i : Nat) (x : Option Beaver) (j : Nat) : (s.setBeaver i x).tmv j = s.tmv j := rfl
@[simp] theorem State.tmv_setJobQ (s : State) (i : Nat) (x : List Job) (j : Nat) : (s.setJobQ i x).tmv j = s.tmv j := rfl
@[simp] theorem State.tmv_setTrace (s : State) (i : Nat) (x : TraceRing) (j : Nat) : (s.setTrace i x).tmv j = s.tmv j := rfl
@[simp] theorem State.tmv_setPoint (s : State) (i : Nat) (x : TensorPoint) (j : Nat) : (s.setPoint i x).tmv j = s.tmv j := rfl
@[simp] theorem State.tmv_setPassQ (s : State) (i : Nat) (x : List CalPass) (j : Nat) : (s.setPassQ i x).tmv j = s.tmv j := rfl
@[simp] theorem State.tmv_advance (s : State) (now j : Nat) : (s.advance now).tmv j = s.tmv j := rfl
@[simp] theorem State.ctx_setF (s : State) (f : Fld) (i v : Nat) (j : Nat) : (s.setF f i v).ctx j = s.ctx j := rfl
@[simp] theorem State.ctx_burn (s : State) (j : Nat) : s.burn.ctx j = s.ctx j := rfl
@[simp] theorem State.ctx_emit (s : State) (o : Output) (j : Nat) : (s.emit o).ctx j = s.ctx j := rfl
@[simp] theorem State.ctx_setEngine (s : State) (i : Nat) (x : Engine) (j : Nat) : (s.setEngine i x).ctx j = s.ctx j := rfl
@[simp] theorem State.ctx_setTracker (s : State) (i : Nat) (x : Tracker) (j : Nat) : (s.setTracker i x).ctx j = s.ctx j := rfl
@[simp] theorem State.ctx_setStation (s : State) (i : Nat) (x : Station) (j : Nat) : (s.setStation i x).ctx j = s.ctx j := rfl
@[simp] theorem State.ctx_setCoreTiles (s : State) (i : Nat) (x : List Tile) (j : Nat) : (s.setCoreTiles i x).ctx j = s.ctx j := rfl
@[simp] theorem State.ctx_setTmv (s : State) (i : Nat) (x : Tmv) (j : Nat) : (s.setTmv i x).ctx j = s.ctx j := rfl
@[simp] theorem State.ctx_setCtx_same (s : State) (i : Nat) (x : Context) : (s.setCtx i x).ctx i = x := by simp [State.ctx, State.setCtx]
theorem State.ctx_setCtx_ne (s : State) (i : Nat) (x : Context) {j : Nat} (h : i ≠ j) : (s.setCtx i x).ctx j = s.ctx j := by
  simp [State.ctx, State.setCtx, smapGet_set_ne _ _ h]
@[simp] theorem State.ctx_setThread (s : State) (i : Nat) (x : ThreadState) (j : Nat) : (s.setThread i x).ctx j = s.ctx j := rfl
@[simp] theorem State.ctx_setGroup (s : State) (i : Nat) (x : Group) (j : Nat) : (s.setGroup i x).ctx j = s.ctx j := rfl
@[simp] theorem State.ctx_setPart (s : State) (i : Nat) (x : Option Partition) (j : Nat) : (s.setPart i x).ctx j = s.ctx j := rfl
@[simp] theorem State.ctx_setFn (s : State) (i : Nat) (x : Function) (j : Nat) : (s.setFn i x).ctx j = s.ctx j := rfl
@[simp] theorem State.ctx_setOcu (s : State) (i : Nat) (x : Ocu) (j : Nat) : (s.setOcu i x).ctx j = s.ctx j := rfl
@[simp] theorem State.ctx_setOwl (s : State) (i : Nat) (x : Owl) (j : Nat) : (s.setOwl i x).ctx j = s.ctx j := rfl
@[simp] theorem State.ctx_setPort (s : State) (i : Nat) (x : Port) (j : Nat) : (s.setPort i x).ctx j = s.ctx j := rfl
@[simp] theorem State.ctx_setShard (s : State) (i : Nat) (x : Shard) (j : Nat) : (s.setShard i x).ctx j = s.ctx j := rfl
@[simp] theorem State.ctx_setBeaver (s : State) (i : Nat) (x : Option Beaver) (j : Nat) : (s.setBeaver i x).ctx j = s.ctx j := rfl
@[simp] theorem State.ctx_setJobQ (s : State) (i : Nat) (x : List Job) (j : Nat) : (s.setJobQ i x).ctx j = s.ctx j := rfl
@[simp] theorem State.ctx_setTrace (s : State) (i : Nat) (x : TraceRing) (j : Nat) : (s.setTrace i x).ctx j = s.ctx j := rfl
@[simp] theorem State.ctx_setPoint (s : State) (i : Nat) (x : TensorPoint) (j : Nat) : (s.setPoint i x).ctx j = s.ctx j := rfl
@[simp] theorem State.ctx_setPassQ (s : State) (i : Nat) (x : List CalPass) (j : Nat) : (s.setPassQ i x).ctx j = s.ctx j := rfl
@[simp] theorem State.ctx_advance (s : State) (now j : Nat) : (s.advance now).ctx j = s.ctx j := rfl
@[simp] theorem State.thread_setF (s : State) (f : Fld) (i v : Nat) (j : Nat) : (s.setF f i v).thread j = s.thread j := rfl
@[simp] theorem State.thread_burn (s : State) (j : Nat) : s.burn.thread j = s.thread j := rfl
@[simp] theorem State.thread_emit (s : State) (o : Output) (j : Nat) : (s.emit o).thread j = s.thread j := rfl
@[simp] theorem State.thread_setEngine (s : State) (i : Nat) (x : Engine) (j : Nat) : (s.setEngine i x).thread j = s.thread j := rfl
@[simp] theorem State.thread_setTracker (s : State) (i : Nat) (x : Tracker) (j : Nat) : (s.setTracker i x).thread j = s.thread j := rfl
@[simp] theorem State.thread_setStation (s : State) (i : Nat) (x : Station) (j : Nat) : (s.setStation i x).thread j = s.thread j := rfl
@[simp] theorem State.thread_setCoreTiles (s : State) (i : Nat) (x : List Tile) (j : Nat) : (s.setCoreTiles i x).thread j = s.thread j := rfl
@[simp] theorem State.thread_setTmv (s : State) (i : Nat) (x : Tmv) (j : Nat) : (s.setTmv i x).thread j = s.thread j := rfl
@[simp] theorem State.thread_setCtx (s : State) (i : Nat) (x : Context) (j : Nat) : (s.setCtx i x).thread j = s.thread j := rfl
@[simp] theorem State.thread_setThread_same (s : State) (i : Nat) (x : ThreadState) : (s.setThread i x).thread i = x := by simp [State.thread, State.setThread]
theorem State.thread_setThread_ne (s : State) (i : Nat) (x : ThreadState) {j : Nat} (h : i ≠ j) : (s.setThread i x).thread j = s.thread j := by
  simp [State.thread, State.setThread, smapGet_set_ne _ _ h]
@[simp] theorem State.thread_setGroup (s : State) (i : Nat) (x : Group) (j : Nat) : (s.setGroup i x).thread j = s.thread j := rfl
@[simp] theorem State.thread_setPart (s : State) (i : Nat) (x : Option Partition) (j : Nat) : (s.setPart i x).thread j = s.thread j := rfl
@[simp] theorem State.thread_setFn (s : State) (i : Nat) (x : Function) (j : Nat) : (s.setFn i x).thread j = s.thread j := rfl
@[simp] theorem State.thread_setOcu (s : State) (i : Nat) (x : Ocu) (j : Nat) : (s.setOcu i x).thread j = s.thread j := rfl
@[simp] theorem State.thread_setOwl (s : State) (i : Nat) (x : Owl) (j : Nat) : (s.setOwl i x).thread j = s.thread j := rfl
@[simp] theorem State.thread_setPort (s : State) (i : Nat) (x : Port) (j : Nat) : (s.setPort i x).thread j = s.thread j := rfl
@[simp] theorem State.thread_setShard (s : State) (i : Nat) (x : Shard) (j : Nat) : (s.setShard i x).thread j = s.thread j := rfl
@[simp] theorem State.thread_setBeaver (s : State) (i : Nat) (x : Option Beaver) (j : Nat) : (s.setBeaver i x).thread j = s.thread j := rfl
@[simp] theorem State.thread_setJobQ (s : State) (i : Nat) (x : List Job) (j : Nat) : (s.setJobQ i x).thread j = s.thread j := rfl
@[simp] theorem State.thread_setTrace (s : State) (i : Nat) (x : TraceRing) (j : Nat) : (s.setTrace i x).thread j = s.thread j := rfl
@[simp] theorem State.thread_setPoint (s : State) (i : Nat) (x : TensorPoint) (j : Nat) : (s.setPoint i x).thread j = s.thread j := rfl
@[simp] theorem State.thread_setPassQ (s : State) (i : Nat) (x : List CalPass) (j : Nat) : (s.setPassQ i x).thread j = s.thread j := rfl
@[simp] theorem State.thread_advance (s : State) (now j : Nat) : (s.advance now).thread j = s.thread j := rfl
@[simp] theorem State.group_setF (s : State) (f : Fld) (i v : Nat) (j : Nat) : (s.setF f i v).group j = s.group j := rfl
@[simp] theorem State.group_burn (s : State) (j : Nat) : s.burn.group j = s.group j := rfl
@[simp] theorem State.group_emit (s : State) (o : Output) (j : Nat) : (s.emit o).group j = s.group j := rfl
@[simp] theorem State.group_setEngine (s : State) (i : Nat) (x : Engine) (j : Nat) : (s.setEngine i x).group j = s.group j := rfl
@[simp] theorem State.group_setTracker (s : State) (i : Nat) (x : Tracker) (j : Nat) : (s.setTracker i x).group j = s.group j := rfl
@[simp] theorem State.group_setStation (s : State) (i : Nat) (x : Station) (j : Nat) : (s.setStation i x).group j = s.group j := rfl
@[simp] theorem State.group_setCoreTiles (s : State) (i : Nat) (x : List Tile) (j : Nat) : (s.setCoreTiles i x).group j = s.group j := rfl
@[simp] theorem State.group_setTmv (s : State) (i : Nat) (x : Tmv) (j : Nat) : (s.setTmv i x).group j = s.group j := rfl
@[simp] theorem State.group_setCtx (s : State) (i : Nat) (x : Context) (j : Nat) : (s.setCtx i x).group j = s.group j := rfl
@[simp] theorem State.group_setThread (s : State) (i : Nat) (x : ThreadState) (j : Nat) : (s.setThread i x).group j = s.group j := rfl
@[simp] theorem State.group_setGroup_same (s : State) (i : Nat) (x : Group) : (s.setGroup i x).group i = x := by simp [State.group, State.setGroup]
theorem State.group_setGroup_ne (s : State) (i : Nat) (x : Group) {j : Nat} (h : i ≠ j) : (s.setGroup i x).group j = s.group j := by
  simp [State.group, State.setGroup, smapGet_set_ne _ _ h]
@[simp] theorem State.group_setPart (s : State) (i : Nat) (x : Option Partition) (j : Nat) : (s.setPart i x).group j = s.group j := rfl
@[simp] theorem State.group_setFn (s : State) (i : Nat) (x : Function) (j : Nat) : (s.setFn i x).group j = s.group j := rfl
@[simp] theorem State.group_setOcu (s : State) (i : Nat) (x : Ocu) (j : Nat) : (s.setOcu i x).group j = s.group j := rfl
@[simp] theorem State.group_setOwl (s : State) (i : Nat) (x : Owl) (j : Nat) : (s.setOwl i x).group j = s.group j := rfl
@[simp] theorem State.group_setPort (s : State) (i : Nat) (x : Port) (j : Nat) : (s.setPort i x).group j = s.group j := rfl
@[simp] theorem State.group_setShard (s : State) (i : Nat) (x : Shard) (j : Nat) : (s.setShard i x).group j = s.group j := rfl
@[simp] theorem State.group_setBeaver (s : State) (i : Nat) (x : Option Beaver) (j : Nat) : (s.setBeaver i x).group j = s.group j := rfl
@[simp] theorem State.group_setJobQ (s : State) (i : Nat) (x : List Job) (j : Nat) : (s.setJobQ i x).group j = s.group j := rfl
@[simp] theorem State.group_setTrace (s : State) (i : Nat) (x : TraceRing) (j : Nat) : (s.setTrace i x).group j = s.group j := rfl
@[simp] theorem State.group_setPoint (s : State) (i : Nat) (x : TensorPoint) (j : Nat) : (s.setPoint i x).group j = s.group j := rfl
@[simp] theorem State.group_setPassQ (s : State) (i : Nat) (x : List CalPass) (j : Nat) : (s.setPassQ i x).group j = s.group j := rfl
@[simp] theorem State.group_advance (s : State) (now j : Nat) : (s.advance now).group j = s.group j := rfl
@[simp] theorem State.part_setF (s : State) (f : Fld) (i v : Nat) (j : Nat) : (s.setF f i v).part j = s.part j := rfl
@[simp] theorem State.part_burn (s : State) (j : Nat) : s.burn.part j = s.part j := rfl
@[simp] theorem State.part_emit (s : State) (o : Output) (j : Nat) : (s.emit o).part j = s.part j := rfl
@[simp] theorem State.part_setEngine (s : State) (i : Nat) (x : Engine) (j : Nat) : (s.setEngine i x).part j = s.part j := rfl
@[simp] theorem State.part_setTracker (s : State) (i : Nat) (x : Tracker) (j : Nat) : (s.setTracker i x).part j = s.part j := rfl
@[simp] theorem State.part_setStation (s : State) (i : Nat) (x : Station) (j : Nat) : (s.setStation i x).part j = s.part j := rfl
@[simp] theorem State.part_setCoreTiles (s : State) (i : Nat) (x : List Tile) (j : Nat) : (s.setCoreTiles i x).part j = s.part j := rfl
@[simp] theorem State.part_setTmv (s : State) (i : Nat) (x : Tmv) (j : Nat) : (s.setTmv i x).part j = s.part j := rfl
@[simp] theorem State.part_setCtx (s : State) (i : Nat) (x : Context) (j : Nat) : (s.setCtx i x).part j = s.part j := rfl
@[simp] theorem State.part_setThread (s : State) (i : Nat) (x : ThreadState) (j : Nat) : (s.setThread i x).part j = s.part j := rfl
@[simp] theorem State.part_setGroup (s : State) (i : Nat) (x : Group) (j : Nat) : (s.setGroup i x).part j = s.part j := rfl
@[simp] theorem State.part_setPart_same (s : State) (i : Nat) (x : Option Partition) : (s.setPart i x).part i = x := by simp [State.part, State.setPart]
theorem State.part_setPart_ne (s : State) (i : Nat) (x : Option Partition) {j : Nat} (h : i ≠ j) : (s.setPart i x).part j = s.part j := by
  simp [State.part, State.setPart, smapGet_set_ne _ _ h]
@[simp] theorem State.part_setFn (s : State) (i : Nat) (x : Function) (j : Nat) : (s.setFn i x).part j = s.part j := rfl
@[simp] theorem State.part_setOcu (s : State) (i : Nat) (x : Ocu) (j : Nat) : (s.setOcu i x).part j = s.part j := rfl
@[simp] theorem State.part_setOwl (s : State) (i : Nat) (x : Owl) (j : Nat) : (s.setOwl i x).part j = s.part j := rfl
@[simp] theorem State.part_setPort (s : State) (i : Nat) (x : Port) (j : Nat) : (s.setPort i x).part j = s.part j := rfl
@[simp] theorem State.part_setShard (s : State) (i : Nat) (x : Shard) (j : Nat) : (s.setShard i x).part j = s.part j := rfl
@[simp] theorem State.part_setBeaver (s : State) (i : Nat) (x : Option Beaver) (j : Nat) : (s.setBeaver i x).part j = s.part j := rfl
@[simp] theorem State.part_setJobQ (s : State) (i : Nat) (x : List Job) (j : Nat) : (s.setJobQ i x).part j = s.part j := rfl
@[simp] theorem State.part_setTrace (s : State) (i : Nat) (x : TraceRing) (j : Nat) : (s.setTrace i x).part j = s.part j := rfl
@[simp] theorem State.part_setPoint (s : State) (i : Nat) (x : TensorPoint) (j : Nat) : (s.setPoint i x).part j = s.part j := rfl
@[simp] theorem State.part_setPassQ (s : State) (i : Nat) (x : List CalPass) (j : Nat) : (s.setPassQ i x).part j = s.part j := rfl
@[simp] theorem State.part_advance (s : State) (now j : Nat) : (s.advance now).part j = s.part j := rfl
@[simp] theorem State.fnst_setF (s : State) (f : Fld) (i v : Nat) (j : Nat) : (s.setF f i v).fnst j = s.fnst j := rfl
@[simp] theorem State.fnst_burn (s : State) (j : Nat) : s.burn.fnst j = s.fnst j := rfl
@[simp] theorem State.fnst_emit (s : State) (o : Output) (j : Nat) : (s.emit o).fnst j = s.fnst j := rfl
@[simp] theorem State.fnst_setEngine (s : State) (i : Nat) (x : Engine) (j : Nat) : (s.setEngine i x).fnst j = s.fnst j := rfl
@[simp] theorem State.fnst_setTracker (s : State) (i : Nat) (x : Tracker) (j : Nat) : (s.setTracker i x).fnst j = s.fnst j := rfl
@[simp] theorem State.fnst_setStation (s : State) (i : Nat) (x : Station) (j : Nat) : (s.setStation i x).fnst j = s.fnst j := rfl
@[simp] theorem State.fnst_setCoreTiles (s : State) (i : Nat) (x : List Tile) (j : Nat) : (s.setCoreTiles i x).fnst j = s.fnst j := rfl
@[simp] theorem State.fnst_setTmv (s : State) (i : Nat) (x : Tmv) (j : Nat) : (s.setTmv i x).fnst j = s.fnst j := rfl
@[simp] theorem State.fnst_setCtx (s : State) (i : Nat) (x : Context) (j : Nat) : (s.setCtx i x).fnst j = s.fnst j := rfl
@[simp] theorem State.fnst_setThread (s : State) (i : Nat) (x : ThreadState) (j : Nat) : (s.setThread i x).fnst j = s.fnst j := rfl
@[simp] theorem State.fnst_setGroup (s : State) (i : Nat) (x : Group) (j : Nat) : (s.setGroup i x).fnst j = s.fnst j := rfl
@[simp] theorem State.fnst_setPart (s : State) (i : Nat) (x : Option Partition) (j : Nat) : (s.setPart i x).fnst j = s.fnst j := rfl
@[simp] theorem State.fnst_setFn_same (s : State) (i : Nat) (x : Function) : (s.setFn i x).fnst i = x := by simp [State.fnst, State.setFn]
theorem State.fnst_setFn_ne (s : State) (i : Nat) (x : Function) {j : Nat} (h : i ≠ j) : (s.setFn i x).fnst j = s.fnst j := by
  simp [State.fnst, State.setFn, smapGet_set_ne _ _ h]
@[simp] theorem State.fnst_setOcu (s : State) (i : Nat) (x : Ocu) (j : Nat) : (s.setOcu i x).fnst j = s.fnst j := rfl
@[simp] theorem State.fnst_setOwl (s : State) (i : Nat) (x : Owl) (j : Nat) : (s.setOwl i x).fnst j = s.fnst j := rfl
@[simp] theorem State.fnst_setPort (s : State) (i : Nat) (x : Port) (j : Nat) : (s.setPort i x).fnst j = s.fnst j := rfl
@[simp] theorem State.fnst_setShard (s : State) (i : Nat) (x : Shard) (j : Nat) : (s.setShard i x).fnst j = s.fnst j := rfl
@[simp] theorem State.fnst_setBeaver (s : State) (i : Nat) (x : Option Beaver) (j : Nat) : (s.setBeaver i x).fnst j = s.fnst j := rfl
@[simp] theorem State.fnst_setJobQ (s : State) (i : Nat) (x : List Job) (j : Nat) : (s.setJobQ i x).fnst j = s.fnst j := rfl
@[simp] theorem State.fnst_setTrace (s : State) (i : Nat) (x : TraceRing) (j : Nat) : (s.setTrace i x).fnst j = s.fnst j := rfl
@[simp] theorem State.fnst_setPoint (s : State) (i : Nat) (x : TensorPoint) (j : Nat) : (s.setPoint i x).fnst j = s.fnst j := rfl
@[simp] theorem State.fnst_setPassQ (s : State) (i : Nat) (x : List CalPass) (j : Nat) : (s.setPassQ i x).fnst j = s.fnst j := rfl
@[simp] theorem State.fnst_advance (s : State) (now j : Nat) : (s.advance now).fnst j = s.fnst j := rfl
@[simp] theorem State.ocu_setF (s : State) (f : Fld) (i v : Nat) (j : Nat) : (s.setF f i v).ocu j = s.ocu j := rfl
@[simp] theorem State.ocu_burn (s : State) (j : Nat) : s.burn.ocu j = s.ocu j := rfl
@[simp] theorem State.ocu_emit (s : State) (o : Output) (j : Nat) : (s.emit o).ocu j = s.ocu j := rfl
@[simp] theorem State.ocu_setEngine (s : State) (i : Nat) (x : Engine) (j : Nat) : (s.setEngine i x).ocu j = s.ocu j := rfl
@[simp] theorem State.ocu_setTracker (s : State) (i : Nat) (x : Tracker) (j : Nat) : (s.setTracker i x).ocu j = s.ocu j := rfl
@[simp] theorem State.ocu_setStation (s : State) (i : Nat) (x : Station) (j : Nat) : (s.setStation i x).ocu j = s.ocu j := rfl
@[simp] theorem State.ocu_setCoreTiles (s : State) (i : Nat) (x : List Tile) (j : Nat) : (s.setCoreTiles i x).ocu j = s.ocu j := rfl
@[simp] theorem State.ocu_setTmv (s : State) (i : Nat) (x : Tmv) (j : Nat) : (s.setTmv i x).ocu j = s.ocu j := rfl
@[simp] theorem State.ocu_setCtx (s : State) (i : Nat) (x : Context) (j : Nat) : (s.setCtx i x).ocu j = s.ocu j := rfl
@[simp] theorem State.ocu_setThread (s : State) (i : Nat) (x : ThreadState) (j : Nat) : (s.setThread i x).ocu j = s.ocu j := rfl
@[simp] theorem State.ocu_setGroup (s : State) (i : Nat) (x : Group) (j : Nat) : (s.setGroup i x).ocu j = s.ocu j := rfl
@[simp] theorem State.ocu_setPart (s : State) (i : Nat) (x : Option Partition) (j : Nat) : (s.setPart i x).ocu j = s.ocu j := rfl
@[simp] theorem State.ocu_setFn (s : State) (i : Nat) (x : Function) (j : Nat) : (s.setFn i x).ocu j = s.ocu j := rfl
@[simp] theorem State.ocu_setOcu_same (s : State) (i : Nat) (x : Ocu) : (s.setOcu i x).ocu i = x := by simp [State.ocu, State.setOcu]
theorem State.ocu_setOcu_ne (s : State) (i : Nat) (x : Ocu) {j : Nat} (h : i ≠ j) : (s.setOcu i x).ocu j = s.ocu j := by
  simp [State.ocu, State.setOcu, smapGet_set_ne _ _ h]
@[simp] theorem State.ocu_setOwl (s : State) (i : Nat) (x : Owl) (j : Nat) : (s.setOwl i x).ocu j = s.ocu j := rfl
@[simp] theorem State.ocu_setPort (s : State) (i : Nat) (x : Port) (j : Nat) : (s.setPort i x).ocu j = s.ocu j := rfl
@[simp] theorem State.ocu_setShard (s : State) (i : Nat) (x : Shard) (j : Nat) : (s.setShard i x).ocu j = s.ocu j := rfl
@[simp] theorem State.ocu_setBeaver (s : State) (i : Nat) (x : Option Beaver) (j : Nat) : (s.setBeaver i x).ocu j = s.ocu j := rfl
@[simp] theorem State.ocu_setJobQ (s : State) (i : Nat) (x : List Job) (j : Nat) : (s.setJobQ i x).ocu j = s.ocu j := rfl
@[simp] theorem State.ocu_setTrace (s : State) (i : Nat) (x : TraceRing) (j : Nat) : (s.setTrace i x).ocu j = s.ocu j := rfl
@[simp] theorem State.ocu_setPoint (s : State) (i : Nat) (x : TensorPoint) (j : Nat) : (s.setPoint i x).ocu j = s.ocu j := rfl
@[simp] theorem State.ocu_setPassQ (s : State) (i : Nat) (x : List CalPass) (j : Nat) : (s.setPassQ i x).ocu j = s.ocu j := rfl
@[simp] theorem State.owl_setF (s : State) (f : Fld) (i v : Nat) (j : Nat) : (s.setF f i v).owl j = s.owl j := rfl
@[simp] theorem State.owl_burn (s : State) (j : Nat) : s.burn.owl j = s.owl j := rfl
@[simp] theorem State.owl_emit (s : State) (o : Output) (j : Nat) : (s.emit o).owl j = s.owl j := rfl
@[simp] theorem State.owl_setEngine (s : State) (i : Nat) (x : Engine) (j : Nat) : (s.setEngine i x).owl j = s.owl j := rfl
@[simp] theorem State.owl_setTracker (s : State) (i : Nat) (x : Tracker) (j : Nat) : (s.setTracker i x).owl j = s.owl j := rfl
@[simp] theorem State.owl_setStation (s : State) (i : Nat) (x : Station) (j : Nat) : (s.setStation i x).owl j = s.owl j := rfl
@[simp] theorem State.owl_setCoreTiles (s : State) (i : Nat) (x : List Tile) (j : Nat) : (s.setCoreTiles i x).owl j = s.owl j := rfl
@[simp] theorem State.owl_setTmv (s : State) (i : Nat) (x : Tmv) (j : Nat) : (s.setTmv i x).owl j = s.owl j := rfl
@[simp] theorem State.owl_setCtx (s : State) (i : Nat) (x : Context) (j : Nat) : (s.setCtx i x).owl j = s.owl j := rfl
@[simp] theorem State.owl_setThread (s : State) (i : Nat) (x : ThreadState) (j : Nat) : (s.setThread i x).owl j = s.owl j := rfl
@[simp] theorem State.owl_setGroup (s : State) (i : Nat) (x : Group) (j : Nat) : (s.setGroup i x).owl j = s.owl j := rfl
@[simp] theorem State.owl_setPart (s : State) (i : Nat) (x : Option Partition) (j : Nat) : (s.setPart i x).owl j = s.owl j := rfl
@[simp] theorem State.owl_setFn (s : State) (i : Nat) (x : Function) (j : Nat) : (s.setFn i x).owl j = s.owl j := rfl
@[simp] theorem State.owl_setOcu (s : State) (i : Nat) (x : Ocu) (j : Nat) : (s.setOcu i x).owl j = s.owl j := rfl
@[simp] theorem State.owl_setOwl_same (s : State) (i : Nat) (x : Owl) : (s.setOwl i x).owl i = x := by simp [State.owl, State.setOwl]
theorem State.owl_setOwl_ne (s : State) (i : Nat) (x : Owl) {j : Nat} (h : i ≠ j) : (s.setOwl i x).owl j = s.owl j := by
  simp [State.owl, State.setOwl, smapGet_set_ne _ _ h]
@[simp] theorem State.owl_setPort (s : State) (i : Nat) (x : Port) (j : Nat) : (s.setPort i x).owl j = s.owl j := rfl
@[simp] theorem State.owl_setShard (s : State) (i : Nat) (x : Shard) (j : Nat) : (s.setShard i x).owl j = s.owl j := rfl
@[simp] theorem State.owl_setBeaver (s : State) (i : Nat) (x : Option Beaver) (j : Nat) : (s.setBeaver i x).owl j = s.owl j := rfl
@[simp] theorem State.owl_setJobQ (s : State) (i : Nat) (x : List Job) (j : Nat) : (s.setJobQ i x).owl j = s.owl j := rfl
@[simp] theorem State.owl_setTrace (s : State) (i : Nat) (x : TraceRing) (j : Nat) : (s.setTrace i x).owl j = s.owl j := rfl
@[simp] theorem State.owl_setPoint (s : State) (i : Nat) (x : TensorPoint) (j : Nat) : (s.setPoint i x).owl j = s.owl j := rfl
@[simp] theorem State.owl_setPassQ (s : State) (i : Nat) (x : List CalPass) (j : Nat) : (s.setPassQ i x).owl j = s.owl j := rfl
@[simp] theorem State.owl_advance (s : State) (now j : Nat) : (s.advance now).owl j = s.owl j := rfl
@[simp] theorem State.port_setF (s : State) (f : Fld) (i v : Nat) (j : Nat) : (s.setF f i v).port j = s.port j := rfl
@[simp] theorem State.port_burn (s : State) (j : Nat) : s.burn.port j = s.port j := rfl
@[simp] theorem State.port_emit (s : State) (o : Output) (j : Nat) : (s.emit o).port j = s.port j := rfl
@[simp] theorem State.port_setEngine (s : State) (i : Nat) (x : Engine) (j : Nat) : (s.setEngine i x).port j = s.port j := rfl
@[simp] theorem State.port_setTracker (s : State) (i : Nat) (x : Tracker) (j : Nat) : (s.setTracker i x).port j = s.port j := rfl
@[simp] theorem State.port_setStation (s : State) (i : Nat) (x : Station) (j : Nat) : (s.setStation i x).port j = s.port j := rfl
@[simp] theorem State.port_setCoreTiles (s : State) (i : Nat) (x : List Tile) (j : Nat) : (s.setCoreTiles i x).port j = s.port j := rfl
@[simp] theorem State.port_setTmv (s : State) (i : Nat) (x : Tmv) (j : Nat) : (s.setTmv i x).port j = s.port j := rfl
@[simp] theorem State.port_setCtx (s : State) (i : Nat) (x : Context) (j : Nat) : (s.setCtx i x).port j = s.port j := rfl
@[simp] theorem State.port_setThread (s : State) (i : Nat) (x : ThreadState) (j : Nat) : (s.setThread i x).port j = s.port j := rfl
@[simp] theorem State.port_setGroup (s : State) (i : Nat) (x : Group) (j : Nat) : (s.setGroup i x).port j = s.port j := rfl
@[simp] theorem State.port_setPart (s : State) (i : Nat) (x : Option Partition) (j : Nat) : (s.setPart i x).port j = s.port j := rfl
@[simp] theorem State.port_setFn (s : State) (i : Nat) (x : Function) (j : Nat) : (s.setFn i x).port j = s.port j := rfl
@[simp] theorem State.port_setOcu (s : State) (i : Nat) (x : Ocu) (j : Nat) : (s.setOcu i x).port j = s.port j := rfl
@[simp] theorem State.port_setOwl (s : State) (i : Nat) (x : Owl) (j : Nat) : (s.setOwl i x).port j = s.port j := rfl
@[simp] theorem State.port_setPort_same (s : State) (i : Nat) (x : Port) : (s.setPort i x).port i = x := by simp [State.port, State.setPort]
theorem State.port_setPort_ne (s : State) (i : Nat) (x : Port) {j : Nat} (h : i ≠ j) : (s.setPort i x).port j = s.port j := by
  simp [State.port, State.setPort, smapGet_set_ne _ _ h]
@[simp] theorem State.port_setShard (s : State) (i : Nat) (x : Shard) (j : Nat) : (s.setShard i x).port j = s.port j := rfl
@[simp] theorem State.port_setBeaver (s : State) (i : Nat) (x : Option Beaver) (j : Nat) : (s.setBeaver i x).port j = s.port j := rfl
@[simp] theorem State.port_setJobQ (s : State) (i : Nat) (x : List Job) (j : Nat) : (s.setJobQ i x).port j = s.port j := rfl
@[simp] theorem State.port_setTrace (s : State) (i : Nat) (x : TraceRing) (j : Nat) : (s.setTrace i x).port j = s.port j := rfl
@[simp] theorem State.port_setPoint (s : State) (i : Nat) (x : TensorPoint) (j : Nat) : (s.setPoint i x).port j = s.port j := rfl
@[simp] theorem State.port_setPassQ (s : State) (i : Nat) (x : List CalPass) (j : Nat) : (s.setPassQ i x).port j = s.port j := rfl
@[simp] theorem State.port_advance (s : State) (now j : Nat) : (s.advance now).port j = s.port j := rfl
@[simp] theorem State.shard_setF (s : State) (f : Fld) (i v : Nat) (j : Nat) : (s.setF f i v).shard j = s.shard j := rfl
@[simp] theorem State.shard_burn (s : State) (j : Nat) : s.burn.shard j = s.shard j := rfl
@[simp] theorem State.shard_emit (s : State) (o : Output) (j : Nat) : (s.emit o).shard j = s.shard j := rfl
@[simp] theorem State.shard_setEngine (s : State) (i : Nat) (x : Engine) (j : Nat) : (s.setEngine i x).shard j = s.shard j := rfl
@[simp] theorem State.shard_setTracker (s : State) (i : Nat) (x : Tracker) (j : Nat) : (s.setTracker i x).shard j = s.shard j := rfl
@[simp] theorem State.shard_setStation (s : State) (i : Nat) (x : Station) (j : Nat) : (s.setStation i x).shard j = s.shard j := rfl
@[simp] theorem State.shard_setCoreTiles (s : State) (i : Nat) (x : List Tile) (j : Nat) : (s.setCoreTiles i x).shard j = s.shard j := rfl
@[simp] theorem State.shard_setTmv (s : State) (i : Nat) (x : Tmv) (j : Nat) : (s.setTmv i x).shard j = s.shard j := rfl
@[simp] theorem State.shard_setCtx (s : State) (i : Nat) (x : Context) (j : Nat) : (s.setCtx i x).shard j = s.shard j := rfl
@[simp] theorem State.shard_setThread (s : State) (i : Nat) (x : ThreadState) (j : Nat) : (s.setThread i x).shard j = s.shard j := rfl
@[simp] theorem State.shard_setGroup (s : State) (i : Nat) (x : Group) (j : Nat) : (s.setGroup i x).shard j = s.shard j := rfl
@[simp] theorem State.shard_setPart (s : State) (i : Nat) (x : Option Partition) (j : Nat) : (s.setPart i x).shard j = s.shard j := rfl
@[simp] theorem State.shard_setFn (s : State) (i : Nat) (x : Function) (j : Nat) : (s.setFn i x).shard j = s.shard j := rfl
@[simp] theorem State.shard_setOcu (s : State) (i : Nat) (x : Ocu) (j : Nat) : (s.setOcu i x).shard j = s.shard j := rfl
@[simp] theorem State.shard_setOwl (s : State) (i : Nat) (x : Owl) (j : Nat) : (s.setOwl i x).shard j = s.shard j := rfl
@[simp] theorem State.shard_setPort (s : State) (i : Nat) (x : Port) (j : Nat) : (s.setPort i x).shard j = s.shard j := rfl
@[simp] theorem State.shard_setShard_same (s : State) (i : Nat) (x : Shard) : (s.setShard i x).shard i = x := by simp [State.shard, State.setShard]
theorem State.shard_setShard_ne (s : State) (i : Nat) (x : Shard) {j : Nat} (h : i ≠ j) : (s.setShard i x).shard j = s.shard j := by
  simp [State.shard, State.setShard, smapGet_set_ne _ _ h]
@[simp] theorem State.shard_setBeaver (s : State) (i : Nat) (x : Option Beaver) (j : Nat) : (s.setBeaver i x).shard j = s.shard j := rfl
@[simp] theorem State.shard_setJobQ (s : State) (i : Nat) (x : List Job) (j : Nat) : (s.setJobQ i x).shard j = s.shard j := rfl
@[simp] theorem State.shard_setTrace (s : State) (i : Nat) (x : TraceRing) (j : Nat) : (s.setTrace i x).shard j = s.shard j := rfl
@[simp] theorem State.shard_setPoint (s : State) (i : Nat) (x : TensorPoint) (j : Nat) : (s.setPoint i x).shard j = s.shard j := rfl
@[simp] theorem State.shard_setPassQ (s : State) (i : Nat) (x : List CalPass) (j : Nat) : (s.setPassQ i x).shard j = s.shard j := rfl
@[simp] theorem State.shard_advance (s : State) (now j : Nat) : (s.advance now).shard j = s.shard j := rfl
@[simp] theorem State.beaver_setF (s : State) (f : Fld) (i v : Nat) (j : Nat) : (s.setF f i v).beaver j = s.beaver j := rfl
@[simp] theorem State.beaver_burn (s : State) (j : Nat) : s.burn.beaver j = s.beaver j := rfl
@[simp] theorem State.beaver_emit (s : State) (o : Output) (j : Nat) : (s.emit o).beaver j = s.beaver j := rfl
@[simp] theorem State.beaver_setEngine (s : State) (i : Nat) (x : Engine) (j : Nat) : (s.setEngine i x).beaver j = s.beaver j := rfl
@[simp] theorem State.beaver_setTracker (s : State) (i : Nat) (x : Tracker) (j : Nat) : (s.setTracker i x).beaver j = s.beaver j := rfl
@[simp] theorem State.beaver_setStation (s : State) (i : Nat) (x : Station) (j : Nat) : (s.setStation i x).beaver j = s.beaver j := rfl
@[simp] theorem State.beaver_setCoreTiles (s : State) (i : Nat) (x : List Tile) (j : Nat) : (s.setCoreTiles i x).beaver j = s.beaver j := rfl
@[simp] theorem State.beaver_setTmv (s : State) (i : Nat) (x : Tmv) (j : Nat) : (s.setTmv i x).beaver j = s.beaver j := rfl
@[simp] theorem State.beaver_setCtx (s : State) (i : Nat) (x : Context) (j : Nat) : (s.setCtx i x).beaver j = s.beaver j := rfl
@[simp] theorem State.beaver_setThread (s : State) (i : Nat) (x : ThreadState) (j : Nat) : (s.setThread i x).beaver j = s.beaver j := rfl
@[simp] theorem State.beaver_setGroup (s : State) (i : Nat) (x : Group) (j : Nat) : (s.setGroup i x).beaver j = s.beaver j := rfl
@[simp] theorem State.beaver_setPart (s : State) (i : Nat) (x : Option Partition) (j : Nat) : (s.setPart i x).beaver j = s.beaver j := rfl
@[simp] theorem State.beaver_setFn (s : State) (i : Nat) (x : Function) (j : Nat) : (s.setFn i x).beaver j = s.beaver j := rfl
@[simp] theorem State.beaver_setOcu (s : State) (i : Nat) (x : Ocu) (j : Nat) : (s.setOcu i x).beaver j = s.beaver j := rfl
@[simp] theorem State.beaver_setOwl (s : State) (i : Nat) (x : Owl) (j : Nat) : (s.setOwl i x).beaver j = s.beaver j := rfl
@[simp] theorem State.beaver_setPort (s : State) (i : Nat) (x : Port) (j : Nat) : (s.setPort i x).beaver j = s.beaver j := rfl
@[simp] theorem State.beaver_setShard (s : State) (i : Nat) (x : Shard) (j : Nat) : (s.setShard i x).beaver j = s.beaver j := rfl
@[simp] theorem State.beaver_setBeaver_same (s : State) (i : Nat) (x : Option Beaver) : (s.setBeaver i x).beaver i = x := by simp [State.beaver, State.setBeaver]
theorem State.beaver_setBeaver_ne (s : State) (i : Nat) (x : Option Beaver) {j : Nat} (h : i ≠ j) : (s.setBeaver i x).beaver j = s.beaver j := by
  simp [State.beaver, State.setBeaver, smapGet_set_ne _ _ h]
@[simp] theorem State.beaver_setJobQ (s : State) (i : Nat) (x : List Job) (j : Nat) : (s.setJobQ i x).beaver j = s.beaver j := rfl
@[simp] theorem State.beaver_setTrace (s : State) (i : Nat) (x : TraceRing) (j : Nat) : (s.setTrace i x).beaver j = s.beaver j := rfl
@[simp] theorem State.beaver_setPoint (s : State) (i : Nat) (x : TensorPoint) (j : Nat) : (s.setPoint i x).beaver j = s.beaver j := rfl
@[simp] theorem State.beaver_setPassQ (s : State) (i : Nat) (x : List CalPass) (j : Nat) : (s.setPassQ i x).beaver j = s.beaver j := rfl
@[simp] theorem State.beaver_advance (s : State) (now j : Nat) : (s.advance now).beaver j = s.beaver j := rfl
@[simp] theorem State.jobQ_setF (s : State) (f : Fld) (i v : Nat) (j : Nat) : (s.setF f i v).jobQ j = s.jobQ j := rfl
@[simp] theorem State.jobQ_burn (s : State) (j : Nat) : s.burn.jobQ j = s.jobQ j := rfl
@[simp] theorem State.jobQ_emit (s : State) (o : Output) (j : Nat) : (s.emit o).jobQ j = s.jobQ j := rfl
@[simp] theorem State.jobQ_setEngine (s : State) (i : Nat) (x : Engine) (j : Nat) : (s.setEngine i x).jobQ j = s.jobQ j := rfl
@[simp] theorem State.jobQ_setTracker (s : State) (i : Nat) (x : Tracker) (j : Nat) : (s.setTracker i x).jobQ j = s.jobQ j := rfl
@[simp] theorem State.jobQ_setStation (s : State) (i : Nat) (x : Station) (j : Nat) : (s.setStation i x).jobQ j = s.jobQ j := rfl
@[simp] theorem State.jobQ_setCoreTiles (s : State) (i : Nat) (x : List Tile) (j : Nat) : (s.setCoreTiles i x).jobQ j = s.jobQ j := rfl
@[simp] theorem State.jobQ_setTmv (s : State) (i : Nat) (x : Tmv) (j : Nat) : (s.setTmv i x).jobQ j = s.jobQ j := rfl
@[simp] theorem State.jobQ_setCtx (s : State) (i : Nat) (x : Context) (j : Nat) : (s.setCtx i x).jobQ j = s.jobQ j := rfl
@[simp] theorem State.jobQ_setThread (s : State) (i : Nat) (x : ThreadState) (j : Nat) : (s.setThread i x).jobQ j = s.jobQ j := rfl
@[simp] theorem State.jobQ_setGroup (s : State) (i : Nat) (x : Group) (j : Nat) : (s.setGroup i x).jobQ j = s.jobQ j := rfl
@[simp] theorem State.jobQ_setPart (s : State) (i : Nat) (x : Option Partition) (j : Nat) : (s.setPart i x).jobQ j = s.jobQ j := rfl
@[simp] theorem State.jobQ_setFn (s : State) (i : Nat) (x : Function) (j : Nat) : (s.setFn i x).jobQ j = s.jobQ j := rfl
@[simp] theorem State.jobQ_setOcu (s : State) (i : Nat) (x : Ocu) (j : Nat) : (s.setOcu i x).jobQ j = s.jobQ j := rfl
@[simp] theorem State.jobQ_setOwl (s : State) (i : Nat) (x : Owl) (j : Nat) : (s.setOwl i x).jobQ j = s.jobQ j := rfl
@[simp] theorem State.jobQ_setPort (s : State) (i : Nat) (x : Port) (j : Nat) : (s.setPort i x).jobQ j = s.jobQ j := rfl
@[simp] theorem State.jobQ_setShard (s : State) (i : Nat) (x : Shard) (j : Nat) : (s.setShard i x).jobQ j = s.jobQ j := rfl
@[simp] theorem State.jobQ_setBeaver (s : State) (i : Nat) (x : Option Beaver) (j : Nat) : (s.setBeaver i x).jobQ j = s.jobQ j := rfl
@[simp] theorem State.jobQ_setJobQ_same (s : State) (i : Nat) (x : List Job) : (s.setJobQ i x).jobQ i = x := by simp [State.jobQ, State.setJobQ]
theorem State.jobQ_setJobQ_ne (s : State) (i : Nat) (x : List Job) {j : Nat} (h : i ≠ j) : (s.setJobQ i x).jobQ j = s.jobQ j := by
  simp [State.jobQ, State.setJobQ, smapGet_set_ne _ _ h]
@[simp] theorem State.jobQ_setTrace (s : State) (i : Nat) (x : TraceRing) (j : Nat) : (s.setTrace i x).jobQ j = s.jobQ j := rfl
@[simp] theorem State.jobQ_setPoint (s : State) (i : Nat) (x : TensorPoint) (j : Nat) : (s.setPoint i x).jobQ j = s.jobQ j := rfl
@[simp] theorem State.jobQ_setPassQ (s : State) (i : Nat) (x : List CalPass) (j : Nat) : (s.setPassQ i x).jobQ j = s.jobQ j := rfl
@[simp] theorem State.jobQ_advance (s : State) (now j : Nat) : (s.advance now).jobQ j = s.jobQ j := rfl
@[simp] theorem State.trace_setF (s : State) (f : Fld) (i v : Nat) (j : Nat) : (s.setF f i v).trace j = s.trace j := rfl
@[simp] theorem State.trace_burn (s : State) (j : Nat) : s.burn.trace j = s.trace j := rfl
@[simp] theorem State.trace_emit (s : State) (o : Output) (j : Nat) : (s.emit o).trace j = s.trace j := rfl
@[simp] theorem State.trace_setEngine (s : State) (i : Nat) (x : Engine) (j : Nat) : (s.setEngine i x).trace j = s.trace j := rfl
@[simp] theorem State.trace_setTracker (s : State) (i : Nat) (x : Tracker) (j : Nat) : (s.setTracker i x).trace j = s.trace j := rfl
@[simp] theorem State.trace_setStation (s : State) (i : Nat) (x : Station) (j : Nat) : (s.setStation i x).trace j = s.trace j := rfl
@[simp] theorem State.trace_setCoreTiles (s : State) (i : Nat) (x : List Tile) (j : Nat) : (s.setCoreTiles i x).trace j = s.trace j := rfl
@[simp] theorem State.trace_setTmv (s : State) (i : Nat) (x : Tmv) (j : Nat) : (s.setTmv i x).trace j = s.trace j := rfl
@[simp] theorem State.trace_setCtx (s : State) (i : Nat) (x : Context) (j : Nat) : (s.setCtx i x).trace j = s.trace j := rfl
@[simp] theorem State.trace_setThread (s : State) (i : Nat) (x : ThreadState) (j : Nat) : (s.setThread i x).trace j = s.trace j := rfl
@[simp] theorem State.trace_setGroup (s : State) (i : Nat) (x : Group) (j : Nat) : (s.setGroup i x).trace j = s.trace j := rfl
@[simp] theorem State.trace_setPart (s : State) (i : Nat) (x : Option Partition) (j : Nat) : (s.setPart i x).trace j = s.trace j := rfl
@[simp] theorem State.trace_setFn (s : State) (i : Nat) (x : Function) (j : Nat) : (s.setFn i x).trace j = s.trace j := rfl
@[simp] theorem State.trace_setOcu (s : State) (i : Nat) (x : Ocu) (j : Nat) : (s.setOcu i x).trace j = s.trace j := rfl
@[simp] theorem State.trace_setOwl (s : State) (i : Nat) (x : Owl) (j : Nat) : (s.setOwl i x).trace j = s.trace j := rfl
@[simp] theorem State.trace_setPort (s : State) (i : Nat) (x : Port) (j : Nat) : (s.setPort i x).trace j = s.trace j := rfl
@[simp] theorem State.trace_setShard (s : State) (i : Nat) (x : Shard) (j : Nat) : (s.setShard i x).trace j = s.trace j := rfl
@[simp] theorem State.trace_setBeaver (s : State) (i : Nat) (x : Option Beaver) (j : Nat) : (s.setBeaver i x).trace j = s.trace j := rfl
@[simp] theorem State.trace_setJobQ (s : State) (i : Nat) (x : List Job) (j : Nat) : (s.setJobQ i x).trace j = s.trace j := rfl
@[simp] theorem State.trace_setTrace_same (s : State) (i : Nat) (x : TraceRing) : (s.setTrace i x).trace i = x := by simp [State.trace, State.setTrace]
theorem State.trace_setTrace_ne (s : State) (i : Nat) (x : TraceRing) {j : Nat} (h : i ≠ j) : (s.setTrace i x).trace j = s.trace j := by
  simp [State.trace, State.setTrace, smapGet_set_ne _ _ h]
@[simp] theorem State.trace_setPoint (s : State) (i : Nat) (x : TensorPoint) (j : Nat) : (s.setPoint i x).trace j = s.trace j := rfl
@[simp] theorem State.trace_setPassQ (s : State) (i : Nat) (x : List CalPass) (j : Nat) : (s.setPassQ i x).trace j = s.trace j := rfl
@[simp] theorem State.trace_advance (s : State) (now j : Nat) : (s.advance now).trace j = s.trace j := rfl
@[simp] theorem State.point_setF (s : State) (f : Fld) (i v : Nat) (j : Nat) : (s.setF f i v).point j = s.point j := rfl
@[simp] theorem State.point_burn (s : State) (j : Nat) : s.burn.point j = s.point j := rfl
@[simp] theorem State.point_emit (s : State) (o : Output) (j : Nat) : (s.emit o).point j = s.point j := rfl
@[simp] theorem State.point_setEngine (s : State) (i : Nat) (x : Engine) (j : Nat) : (s.setEngine i x).point j = s.point j := rfl
@[simp] theorem State.point_setTracker (s : State) (i : Nat) (x : Tracker) (j : Nat) : (s.setTracker i x).point j = s.point j := rfl
@[simp] theorem State.point_setStation (s : State) (i : Nat) (x : Station) (j : Nat) : (s.setStation i x).point j = s.point j := rfl
@[simp] theorem State.point_setCoreTiles (s : State) (i : Nat) (x : List Tile) (j : Nat) : (s.setCoreTiles i x).point j = s.point j := rfl
@[simp] theorem State.point_setTmv (s : State) (i : Nat) (x : Tmv) (j : Nat) : (s.setTmv i x).point j = s.point j := rfl
@[simp] theorem State.point_setCtx (s : State) (i : Nat) (x : Context) (j : Nat) : (s.setCtx i x).point j = s.point j := rfl
@[simp] theorem State.point_setThread (s : State) (i : Nat) (x : ThreadState) (j : Nat) : (s.setThread i x).point j = s.point j := rfl
@[simp] theorem State.point_setGroup (s : State) (i : Nat) (x : Group) (j : Nat) : (s.setGroup i x).point j = s.point j := rfl
@[simp] theorem State.point_setPart (s : State) (i : Nat) (x : Option Partition) (j : Nat) : (s.setPart i x).point j = s.point j := rfl
@[simp] theorem State.point_setFn (s : State) (i : Nat) (x : Function) (j : Nat) : (s.setFn i x).point j = s.point j := rfl
@[simp] theorem State.point_setOcu (s : State) (i : Nat) (x : Ocu) (j : Nat) : (s.setOcu i x).point j = s.point j := rfl
@[simp] theorem State.point_setOwl (s : State) (i : Nat) (x : Owl) (j : Nat) : (s.setOwl i x).point j = s.point j := rfl
@[simp] theorem State.point_setPort (s : State) (i : Nat) (x : Port) (j : Nat) : (s.setPort i x).point j = s.point j := rfl
@[simp] theorem State.point_setShard (s : State) (i : Nat) (x : Shard) (j : Nat) : (s.setShard i x).point j = s.point j := rfl
@[simp] theorem State.point_setBeaver (s : State) (i : Nat) (x : Option Beaver) (j : Nat) : (s.setBeaver i x).point j = s.point j := rfl
@[simp] theorem State.point_setJobQ (s : State) (i : Nat) (x : List Job) (j : Nat) : (s.setJobQ i x).point j = s.point j := rfl
@[simp] theorem State.point_setTrace (s : State) (i : Nat) (x : TraceRing) (j : Nat) : (s.setTrace i x).point j = s.point j := rfl
@[simp] theorem State.point_setPoint_same (s : State) (i : Nat) (x : TensorPoint) : (s.setPoint i x).point i = x := by simp [State.point, State.setPoint]
theorem State.point_setPoint_ne (s : State) (i : Nat) (x : TensorPoint) {j : Nat} (h : i ≠ j) : (s.setPoint i x).point j = s.point j := by
  simp [State.point, State.setPoint, smapGet_set_ne _ _ h]
@[simp] theorem State.point_setPassQ (s : State) (i : Nat) (x : List CalPass) (j : Nat) : (s.setPassQ i x).point j = s.point j := rfl
@[simp] theorem State.point_advance (s : State) (now j : Nat) : (s.advance now).point j = s.point j := rfl
@[simp] theorem State.passQ_setF (s : State) (f : Fld) (i v : Nat) (j : Nat) : (s.setF f i v).passQ j = s.passQ j := rfl
@[simp] theorem State.passQ_burn (s : State) (j : Nat) : s.burn.passQ j = s.passQ j := rfl
@[simp] theorem State.passQ_emit (s : State) (o : Output) (j : Nat) : (s.emit o).passQ j = s.passQ j := rfl
@[simp] theorem State.passQ_setEngine (s : State) (i : Nat) (x : Engine) (j : Nat) : (s.setEngine i x).passQ j = s.passQ j := rfl
@[simp] theorem State.passQ_setTracker (s : State) (i : Nat) (x : Tracker) (j : Nat) : (s.setTracker i x).passQ j = s.passQ j := rfl
@[simp] theorem State.passQ_setStation (s : State) (i : Nat) (x : Station) (j : Nat) : (s.setStation i x).passQ j = s.passQ j := rfl
@[simp] theorem State.passQ_setCoreTiles (s : State) (i : Nat) (x : List Tile) (j : Nat) : (s.setCoreTiles i x).passQ j = s.passQ j := rfl
@[simp] theorem State.passQ_setTmv (s : State) (i : Nat) (x : Tmv) (j : Nat) : (s.setTmv i x).passQ j = s.passQ j := rfl
@[simp] theorem State.passQ_setCtx (s : State) (i : Nat) (x : Context) (j : Nat) : (s.setCtx i x).passQ j = s.passQ j := rfl
@[simp] theorem State.passQ_setThread (s : State) (i : Nat) (x : ThreadState) (j : Nat) : (s.setThread i x).passQ j = s.passQ j := rfl
@[simp] theorem State.passQ_setGroup (s : State) (i : Nat) (x : Group) (j : Nat) : (s.setGroup i x).passQ j = s.passQ j := rfl
@[simp] theorem State.passQ_setPart (s : State) (i : Nat) (x : Option Partition) (j : Nat) : (s.setPart i x).passQ j = s.passQ j := rfl
@[simp] theorem State.passQ_setFn (s : State) (i : Nat) (x : Function) (j : Nat) : (s.setFn i x).passQ j = s.passQ j := rfl
@[simp] theorem State.passQ_setOcu (s : State) (i : Nat) (x : Ocu) (j : Nat) : (s.setOcu i x).passQ j = s.passQ j := rfl
@[simp] theorem State.passQ_setOwl (s : State) (i : Nat) (x : Owl) (j : Nat) : (s.setOwl i x).passQ j = s.passQ j := rfl
@[simp] theorem State.passQ_setPort (s : State) (i : Nat) (x : Port) (j : Nat) : (s.setPort i x).passQ j = s.passQ j := rfl
@[simp] theorem State.passQ_setShard (s : State) (i : Nat) (x : Shard) (j : Nat) : (s.setShard i x).passQ j = s.passQ j := rfl
@[simp] theorem State.passQ_setBeaver (s : State) (i : Nat) (x : Option Beaver) (j : Nat) : (s.setBeaver i x).passQ j = s.passQ j := rfl
@[simp] theorem State.passQ_setJobQ (s : State) (i : Nat) (x : List Job) (j : Nat) : (s.setJobQ i x).passQ j = s.passQ j := rfl
@[simp] theorem State.passQ_setTrace (s : State) (i : Nat) (x : TraceRing) (j : Nat) : (s.setTrace i x).passQ j = s.passQ j := rfl
@[simp] theorem State.passQ_setPoint (s : State) (i : Nat) (x : TensorPoint) (j : Nat) : (s.setPoint i x).passQ j = s.passQ j := rfl
@[simp] theorem State.passQ_setPassQ_same (s : State) (i : Nat) (x : List CalPass) : (s.setPassQ i x).passQ i = x := by simp [State.passQ, State.setPassQ]
theorem State.passQ_setPassQ_ne (s : State) (i : Nat) (x : List CalPass) {j : Nat} (h : i ≠ j) : (s.setPassQ i x).passQ j = s.passQ j := by
  simp [State.passQ, State.setPassQ, smapGet_set_ne _ _ h]
@[simp] theorem State.passQ_advance (s : State) (now j : Nat) : (s.advance now).passQ j = s.passQ j := rfl

end Sys2Proof.Machine
end

