-- ==== Sys2Proof/Laws/Ops.lean ====
section
/-!
SUPPORT. What the shared operations can do, said once for each. `Keeps s t` is what every operation of the block keeps: the
queue of waiting commands, the canonical form of SRAM, and the fit of every field. Where an operation touches few parts of
the state, a second lemma `_only` says so by writing its result over the state it began with.
-/

namespace Sys2Proof.Machine
open Sys2Proof

/-! ### What every operation keeps -/

/-- The queue, the canonical form of SRAM and the fit of every field go over from s to t. -/
structure Keeps (s t : State) : Prop where
  queue : t.pending = s.pending
  sram : Memory.wf s.sram = true → Memory.wf t.sram = true
  fit : FieldsFit s → FieldsFit t

theorem Keeps.refl (s : State) : Keeps s s := ⟨rfl, id, id⟩

theorem Keeps.trans {s t u : State} (h : Keeps s t) (k : Keeps t u) : Keeps s u :=
  ⟨k.queue.trans h.queue, fun w => k.sram (h.sram w), fun w => k.fit (h.fit w)⟩

/-- Updates that write neither the queue nor SRAM nor the fields. -/
theorem Keeps.of_eq {s t : State} (hq : t.pending = s.pending) (hm : t.sram = s.sram) (hr : t.regs = s.regs) :
    Keeps s t :=
  ⟨hq, fun w => by rw [hm]; exact w, fun w f i => by simpa [State.getF, hr] using w f i⟩

theorem Keeps.ite {s t u : State} (c : Prop) [Decidable c] (h : Keeps s t) (k : Keeps s u) :
    Keeps s (if c then t else u) := by split <;> assumption

/-- A fold of operations that keep. -/
theorem Keeps.foldl {α : Type} (f : State → α → State) (h : ∀ s a, Keeps s (f s a)) (xs : List α) (s : State) :
    Keeps s (xs.foldl f s) := by
  induction xs generalizing s with
  | nil => exact Keeps.refl s
  | cons a xs ih => exact (h s a).trans (ih _)

/-- A fold that carries other data beside the state. -/
theorem Keeps.foldl_fst {α β : Type} (f : State × β → α → State × β) (h : ∀ r a, Keeps r.1 (f r a).1) (xs : List α)
    (r : State × β) : Keeps r.1 (xs.foldl f r).1 := by
  induction xs generalizing r with
  | nil => exact Keeps.refl r.1
  | cons a xs ih => exact (h r a).trans (ih _)

/-- A fold of operations that leave a reading as it is. -/
theorem foldl_same {α β σ : Type} (g : σ → β) (f : σ → α → σ) (h : ∀ s a, g (f s a) = g s) (xs : List α) (s : σ) :
    g (xs.foldl f s) = g s := by
  induction xs generalizing s with
  | nil => rfl
  | cons a xs ih => exact (ih _).trans (h s a)

/-- The state after reset fits. -/
theorem reset_getF (f : Fld) (i : Nat) : State.reset.getF f i = f.info.rst := rfl

/-! ### Register fields -/

theorem FieldsFit.setF {s : State} (h : FieldsFit s) (f : Fld) (i v : Nat) : FieldsFit (s.setF f i v) := by
  intro g j
  rw [State.getF_setF]
  split
  · rename_i e
    rw [← e.1]
    exact Nat.mod_lt _ (Nat.two_pow_pos _)
  · exact h g j

/-- Forgetting fields by their key gives those fields their reset values. -/
theorem FieldsFit.filter {s : State} (h : FieldsFit s) (p : Nat → Bool) :
    FieldsFit { s with regs := s.regs.filter (fun e => p e.1) } := by
  intro f i
  show smapGet f.info.rst (s.regs.filter (fun e => p e.1)) (fkey f i) < _
  rw [smapGet_filter_key]
  split
  · exact h f i
  · exact f.rst_lt

theorem State.setF_keeps (s : State) (f : Fld) (i v : Nat) : Keeps s (s.setF f i v) :=
  ⟨rfl, id, fun h => h.setF f i v⟩

theorem State.setB_keeps (s : State) (f : Fld) (i : Nat) (v : Bool) : Keeps s (s.setB f i v) := s.setF_keeps f i _
theorem State.addHold_keeps (s : State) (f : Fld) (i n : Nat) : Keeps s (s.addHold f i n) := s.setF_keeps f i _
theorem State.addWrap_keeps (s : State) (f : Fld) (i n : Nat) : Keeps s (s.addWrap f i n) := s.setF_keeps f i _

/-- A write of a field changes the register file alone, and two such changes are one. -/
theorem State.setF_only (s : State) (f : Fld) (i v : Nat) : s.setF f i v = { s with regs := (s.setF f i v).regs } := rfl
theorem State.only_regs_trans {s t u : State} (h : t = { s with regs := t.regs }) (k : u = { t with regs := u.regs }) :
    u = { s with regs := u.regs } := by
  rw [h] at k; exact k

/-- A fold of field writes changes the register file alone. -/
theorem State.foldl_setF_only {α : Type} (f : α → Fld) (i v : α → Nat) (xs : List α) (s : State) :
    xs.foldl (fun t x => t.setF (f x) (i x) (v x)) s =
      { s with regs := (xs.foldl (fun t x => t.setF (f x) (i x) (v x)) s).regs } := by
  induction xs generalizing s with
  | nil => rfl
  | cons a xs ih => simp only [List.foldl_cons]; rw [ih]; rfl

theorem State.foldl_setF_keeps {α : Type} (f : α → Fld) (i v : α → Nat) (xs : List α) (s : State) :
    Keeps s (xs.foldl (fun t x => t.setF (f x) (i x) (v x)) s) :=
  Keeps.foldl _ (fun _ _ => State.setF_keeps _ _ _ _) xs s

theorem State.capture_keeps (s : State) (v o : Fld) (i : Nat) (fs : List (Fld × Nat)) : Keeps s (s.capture v o i fs) :=
  Keeps.ite _ (s.setF_keeps o i 1)
    ((s.setF_keeps v i 1).trans (State.foldl_setF_keeps Prod.fst (fun _ => i) Prod.snd fs _))

theorem State.capture_only (s : State) (v o : Fld) (i : Nat) (fs : List (Fld × Nat)) :
    s.capture v o i fs = { s with regs := (s.capture v o i fs).regs } := by
  unfold State.capture
  split
  · rfl
  · rw [State.foldl_setF_only Prod.fst (fun _ => i) Prod.snd]; rfl

/-! ### Outward effects, free values, totals -/

theorem State.burn_keeps (s : State) : Keeps s s.burn := Keeps.of_eq rfl rfl rfl
theorem State.emit_keeps (s : State) (o : Output) : Keeps s (s.emit o) := Keeps.of_eq rfl rfl rfl
theorem State.total_keeps (s : State) (o w n : Nat) : Keeps s (s.total o w n) := Keeps.of_eq rfl rfl rfl

/-- Raising an interrupt touches the pending bits and what has been sent, no more. -/
theorem State.msix_only (s : State) (fn vec : Nat) :
    s.msix fn vec = { s with pba := (s.msix fn vec).pba, out := (s.msix fn vec).out } := by
  unfold State.msix; split <;> rfl

theorem State.msix_keeps (s : State) (fn vec : Nat) : Keeps s (s.msix fn vec) := by
  rw [State.msix_only]; exact Keeps.of_eq rfl rfl rfl

theorem State.foldl_msix_only (fs : List Nat) (v : Nat) (s : State) :
    fs.foldl (fun t f => t.msix f v) s =
      { s with pba := (fs.foldl (fun t f => t.msix f v) s).pba, out := (fs.foldl (fun t f => t.msix f v) s).out } := by
  induction fs generalizing s with
  | nil => rfl
  | cons f fs ih => simp only [List.foldl_cons]; rw [ih, State.msix_only]

/-! ### Device time -/

theorem State.advance_keeps (s : State) (now : Nat) : Keeps s (s.advance now) := Keeps.of_eq rfl rfl rfl

@[simp] theorem State.advance_getF (s : State) (now : Nat) (f : Fld) (i : Nat) : (s.advance now).getF f i = s.getF f i := rfl
@[simp] theorem State.advance_byte (s : State) (now a : Nat) : (s.advance now).byte a = s.byte a := rfl

/-! ### The maps of units -/

theorem State.setEngine_keeps (s : State) (i : Nat) (x : Engine) : Keeps s (s.setEngine i x) := Keeps.of_eq rfl rfl rfl
theorem State.setTracker_keeps (s : State) (i : Nat) (x : Tracker) : Keeps s (s.setTracker i x) := Keeps.of_eq rfl rfl rfl
theorem State.setStation_keeps (s : State) (i : Nat) (x : Station) : Keeps s (s.setStation i x) := Keeps.of_eq rfl rfl rfl
theorem State.setCoreTiles_keeps (s : State) (i : Nat) (x : List Tile) : Keeps s (s.setCoreTiles i x) :=
  Keeps.of_eq rfl rfl rfl
theorem State.setTmv_keeps (s : State) (i : Nat) (x : Tmv) : Keeps s (s.setTmv i x) := Keeps.of_eq rfl rfl rfl
theorem State.setCtx_keeps (s : State) (i : Nat) (x : Context) : Keeps s (s.setCtx i x) := Keeps.of_eq rfl rfl rfl
theorem State.setThread_keeps (s : State) (i : Nat) (x : ThreadState) : Keeps s (s.setThread i x) :=
  Keeps.of_eq rfl rfl rfl
theorem State.setGroup_keeps (s : State) (i : Nat) (x : Group) : Keeps s (s.setGroup i x) := Keeps.of_eq rfl rfl rfl
theorem State.setPart_keeps (s : State) (i : Nat) (x : Option Partition) : Keeps s (s.setPart i x) :=
  Keeps.of_eq rfl rfl rfl
theorem State.setFn_keeps (s : State) (i : Nat) (x : Function) : Keeps s (s.setFn i x) := Keeps.of_eq rfl rfl rfl
theorem State.setOcu_keeps (s : State) (i : Nat) (x : Ocu) : Keeps s (s.setOcu i x) := Keeps.of_eq rfl rfl rfl
theorem State.setOwl_keeps (s : State) (i : Nat) (x : Owl) : Keeps s (s.setOwl i x) := Keeps.of_eq rfl rfl rfl
theorem State.setPort_keeps (s : State) (i : Nat) (x : Port) : Keeps s (s.setPort i x) := Keeps.of_eq rfl rfl rfl
theorem State.setShard_keeps (s : State) (i : Nat) (x : Shard) : Keeps s (s.setShard i x) := Keeps.of_eq rfl rfl rfl
theorem State.setBeaver_keeps (s : State) (i : Nat) (x : Option Beaver) : Keeps s (s.setBeaver i x) :=
  Keeps.of_eq rfl rfl rfl
theorem State.setJobQ_keeps (s : State) (i : Nat) (x : List Job) : Keeps s (s.setJobQ i x) := Keeps.of_eq rfl rfl rfl
theorem State.setTrace_keeps (s : State) (i : Nat) (x : TraceRing) : Keeps s (s.setTrace i x) := Keeps.of_eq rfl rfl rfl
theorem State.setPoint_keeps (s : State) (i : Nat) (x : TensorPoint) : Keeps s (s.setPoint i x) :=
  Keeps.of_eq rfl rfl rfl
theorem State.setPassQ_keeps (s : State) (i : Nat) (x : List CalPass) : Keeps s (s.setPassQ i x) :=
  Keeps.of_eq rfl rfl rfl
theorem State.setRing_keeps (s : State) (r : SlotRef) (x : Ring) : Keeps s (s.setRing r x) := Keeps.of_eq rfl rfl rfl

/-! ### Memory -/

theorem State.store_keeps (s : State) (a : Nat) (bs : List Byte) : Keeps s (s.store a bs) :=
  ⟨rfl, fun h => smapWf_setBytes _ _ _ h, id⟩

/-- A store is read back, and every byte outside it reads as before. -/
theorem State.byte_store (s : State) (a : Nat) (bs : List Byte) (j : Nat) :
    (s.store a bs).byte j = if a ≤ j ∧ j < a + bs.length then bs.getD (j - a) 0 else s.byte j :=
  smapGet_setBytes s.sram a bs j

theorem State.store_only (s : State) (a : Nat) (bs : List Byte) :
    s.store a bs = { s with sram := (s.store a bs).sram, ecc := (s.store a bs).ecc } := rfl

theorem State.zeroFill_keeps (s : State) (a n : Nat) : Keeps s (s.zeroFill a n) :=
  ⟨rfl, fun h => smapWf_filter _ _ _ h, id⟩

/-- Every byte of a filled range reads 0, and every byte outside it as before. -/
theorem State.byte_zeroFill (s : State) (a n j : Nat) :
    (s.zeroFill a n).byte j = if a ≤ j ∧ j < a + n then 0 else s.byte j := by
  show smapGet memDefault (s.sram.filter (fun e => !(a ≤ e.1 && e.1 < a + n))) j = _
  rw [smapGet_filter_key memDefault s.sram (fun k => !(a ≤ k && k < a + n)) j]
  by_cases h : a ≤ j ∧ j < a + n
  · simp [h, memDefault]
  · have hb : (!(decide (a ≤ j) && decide (j < a + n))) = true := by
      simp only [Bool.not_eq_true', Bool.and_eq_false_iff, decide_eq_false_iff_not]
      omega
    rw [if_neg h, if_pos hb]; rfl

theorem State.zeroFill_only (s : State) (a n : Nat) :
    s.zeroFill a n = { s with sram := (s.zeroFill a n).sram, ecc := (s.zeroFill a n).ecc } := rfl

theorem State.mark_keeps (s : State) (w syn : Nat) : Keeps s (s.mark w syn) := Keeps.of_eq rfl rfl rfl

/-- Bytes written into SRAM with new check bits. -/
theorem State.setBytes_keeps (s : State) (a : Nat) (bs : List Byte) : Keeps s { s with sram := setBytes s.sram a bs } :=
  ⟨rfl, fun h => smapWf_setBytes _ _ _ h, id⟩

/-! ### Events, trace, service messages and completions -/

/-- Raising an event touches the paths of events, the trace rings, the pending interrupts and what has been sent. -/
theorem State.raiseTo_reports (s : State) (os : List Nat) (code o c u st : Nat) (d : List Byte) :
    s.raiseTo os code o c u st d = s.reports (s.raiseTo os code o c u st d) := by
  unfold State.raiseTo
  dsimp only
  rw [State.foldl_msix_only]
  split <;> rfl

theorem State.raise_reports (s : State) (code o c u st : Nat) (d : List Byte) :
    s.raise code o c u st d = s.reports (s.raise code o c u st d) := State.raiseTo_reports ..

theorem State.raiseTo_keeps (s : State) (os : List Nat) (code o c u st : Nat) (d : List Byte) :
    Keeps s (s.raiseTo os code o c u st d) := by
  rw [State.raiseTo_reports]; exact Keeps.of_eq rfl rfl rfl

theorem State.raise_keeps (s : State) (code o c u st : Nat) (d : List Byte) : Keeps s (s.raise code o c u st d) :=
  State.raiseTo_keeps ..

@[simp] theorem State.raise_getF (s : State) (code o c u st : Nat) (d : List Byte) (f : Fld) (i : Nat) :
    (s.raise code o c u st d).getF f i = s.getF f i := by rw [State.raise_reports]; rfl
@[simp] theorem State.raise_byte (s : State) (code o c u st : Nat) (d : List Byte) (a : Nat) :
    (s.raise code o c u st d).byte a = s.byte a := by rw [State.raise_reports]; rfl

theorem State.svcFill_keeps (s : State) (f : Nat) (ws : List Word) : Keeps s (s.svcFill f ws) := by
  unfold State.svcFill
  refine Keeps.trans ?_ (State.msix_keeps _ _ _)
  refine Keeps.trans ?_ (State.setF_keeps _ _ _ _)
  exact Keeps.foldl _ (fun _ _ => State.setF_keeps _ _ _ _) _ s

theorem State.service_keeps (s : State) (f code : Nat) (ws : List Word) : Keeps s (s.service f code ws) := by
  unfold State.service
  extract_lets x msg u
  refine Keeps.ite _ (Keeps.refl s) ((s.setFn_keeps f _).trans (t := u) ?_)
  exact Keeps.ite _ (State.svcFill_keeps _ _ _)
    (Keeps.ite _ (State.setFn_keeps _ _ _) (State.addHold_keeps _ _ _ _))

theorem State.cplWrite_keeps (s : State) (f : Nat) (c : Completion) : Keeps s (s.cplWrite f c) := by
  unfold State.cplWrite
  extract_lets tail base x last u v
  refine Keeps.trans ?_ (State.msix_keeps _ _ _)
  refine Keeps.trans ?_ (State.setF_keeps _ _ _ _)
  exact (s.emit_keeps _).trans (t := u) (State.setFn_keeps _ _ _)

theorem State.complete_keeps (s : State) (f : Nat) (c : Completion) : Keeps s (s.complete f c) := by
  unfold State.complete
  dsimp only
  split
  · exact Keeps.refl s
  · split
    · exact s.cplWrite_keeps f c
    · exact s.setFn_keeps f _

/-- While a function is in reset, or its rings are not in use, nothing is completed (R318). -/
theorem State.complete_in_reset (s : State) (f : Nat) (c : Completion) (h : (s.fnst f).flr.isSome = true) :
    s.complete f c = s := by
  simp [State.complete, h]

theorem State.denied_keeps (s : State) (f : Nat) : Keeps s (s.denied f) :=
  Keeps.ite _ (Keeps.refl s) (s.addHold_keeps _ _ _)

/-- What an access over the BARs keeps is what its effect keeps. -/
theorem State.hosted_keeps (s : State) (fn : Nat) (f : State → State) (h : Keeps s (f s)) : Keeps s (s.hosted fn f) := by
  unfold State.hosted
  split
  · exact Keeps.refl s
  · split
    · exact h
    · split
      · exact h
      · exact s.emit_keeps _

/-- An access that arrives has its effect (R296, R318). -/
theorem State.hosted_of (s : State) (fn : Nat) (f : State → State) (h : Hosted s fn) : s.hosted fn f = f s := by
  obtain ⟨hp, h⟩ := h
  rcases h with rfl | ⟨he, hr⟩
  · simp [State.hosted, hp]
  · simp [State.hosted, hp, he, hr]

/-! ### Error correction -/

theorem State.eccCapture_keeps (s : State) (m w syn kind : Nat) : Keeps s (s.eccCapture m w syn kind) := by
  unfold State.eccCapture
  split
  all_goals
    dsimp only
    split
    · exact s.capture_keeps _ _ _ _
    · exact (s.capture_keeps _ _ _ _).trans (State.setF_keeps _ _ _ _)

theorem State.eccEvent_keeps (s : State) (m w syn kind : Nat) : Keeps s (s.eccEvent m w syn kind) := by
  unfold State.eccEvent
  dsimp only
  split
  all_goals
    exact (s.eccCapture_keeps _ _ _ _).trans
      ((State.total_keeps _ _ _ _).trans ((State.addHold_keeps _ _ _ _).trans (State.raise_keeps _ _ _ _ _ _ _)))

theorem State.readWordEcc_keeps (m : Nat) (s : State) (w : Nat) : Keeps s (State.readWordEcc m s w) := by
  unfold State.readWordEcc
  dsimp only
  split
  · exact Keeps.refl s
  · split
    · split
      · exact s.eccEvent_keeps _ _ _ _
      · exact (s.eccEvent_keeps _ _ _ _).trans (Keeps.of_eq rfl rfl rfl)
    · split
      · exact s.eccCapture_keeps _ _ _ _
      · exact s.eccEvent_keeps _ _ _ _

theorem State.readEcc_keeps (s : State) (m a n : Nat) : Keeps s (s.readEcc m a n) :=
  Keeps.foldl _ (fun s w => State.readWordEcc_keeps m s w) _ s

theorem State.writeWord_keeps (s : State) (m w a : Nat) (bs : List Byte) : Keeps s (s.writeWord m w a bs).1 := by
  unfold State.writeWord
  dsimp only
  split
  · exact (s.setBytes_keeps a bs).trans (State.mark_keeps _ _ _)
  · split
    · exact (s.setBytes_keeps a bs).trans ((State.mark_keeps _ _ _).trans (State.eccEvent_keeps _ _ _ _ _))
    · exact (s.mark_keeps _ _).trans (State.eccEvent_keeps _ _ _ _ _)

theorem State.writeMem_keeps (s : State) (m : Nat) (skip : Nat → Bool) (a : Nat) (bs : List Byte) :
    Keeps s (s.writeMem m skip a bs).1 := by
  unfold State.writeMem
  refine Keeps.foldl_fst _ (fun r w => ?_) _ (s, false)
  dsimp only
  split
  · exact Keeps.refl _
  · exact State.writeWord_keeps _ _ _ _ _

/-! ### Access errors, slots, rings and stations -/

theorem State.accErr_keeps (s : State) (kind : Nat) (w : Bool) (m : Nat) (bar2 : Bool) (off : Nat) :
    Keeps s (s.accErr kind w m bar2 off) := by
  unfold State.accErr
  refine Keeps.ite _ (State.setF_keeps _ _ _ _) ?_
  refine Keeps.trans ?_ (State.setF_keeps _ _ _ _)
  refine Keeps.trans ?_ (State.setB_keeps _ _ _ _)
  refine Keeps.trans ?_ (State.setF_keeps _ _ _ _)
  refine Keeps.trans ?_ (State.setB_keeps _ _ _ _)
  exact Keeps.trans (State.setF_keeps _ _ _ _) (State.setF_keeps _ _ _ _)

theorem State.accErr_only (s : State) (kind : Nat) (w : Bool) (m : Nat) (bar2 : Bool) (off : Nat) :
    s.accErr kind w m bar2 off = { s with regs := (s.accErr kind w m bar2 off).regs } := by
  unfold State.accErr
  split
  · exact State.setF_only _ _ _ _
  · refine State.only_regs_trans ?_ (State.setF_only _ _ _ _)
    refine State.only_regs_trans ?_ (State.setF_only _ _ _ _)
    refine State.only_regs_trans ?_ (State.setF_only _ _ _ _)
    refine State.only_regs_trans ?_ (State.setF_only _ _ _ _)
    exact State.only_regs_trans (State.setF_only _ _ _ _) (State.setF_only _ _ _ _)

theorem State.onReg_keeps (s : State) (m : Nat) (r : Reg) (ix : List Nat) (u : Nat) (t : State) (h : Keeps s t) :
    Keeps s (s.onReg m r ix u t) := Keeps.ite _ h (s.accErr_keeps _ _ _ _ _)

/-- A register whose domain is on takes the write's effect. -/
theorem State.onReg_on (s : State) (m : Nat) (r : Reg) (ix : List Nat) (u : Nat) (t : State)
    (h : s.blockOn r.info.block u 1 = true) : s.onReg m r ix u t = t := by
  simp [State.onReg, h]

theorem State.setSlot_keeps (s : State) (r : SlotRef) (v : Nat) : Keeps s (s.setSlot r v) :=
  Keeps.ite _ (s.setF_keeps _ _ _) (s.setF_keeps _ _ _)
theorem State.setTorn_keeps (s : State) (r : SlotRef) (v : Bool) : Keeps s (s.setTorn r v) :=
  Keeps.ite _ (s.setB_keeps _ _ _) (s.setB_keeps _ _ _)
theorem State.stepWr_keeps (s : State) (r : SlotRef) : Keeps s (s.stepWr r) := s.setRing_keeps r _
theorem State.stepRd_keeps (s : State) (r : SlotRef) : Keeps s (s.stepRd r) := s.setRing_keeps r _

theorem State.count_keeps (s : State) (st which n : Nat) : Keeps s (s.count st which n) := by
  unfold State.count
  extract_lets x u
  have h : Keeps s u := by
    unfold u
    split
    · exact s.addHold_keeps _ _ _
    · exact Keeps.refl s
  exact Keeps.ite _ (h.trans (State.total_keeps _ _ _ _)) h

/-! ### Exceptions of a thread (R197) -/

theorem State.traceTh_keeps (s : State) (i l k pc d : Nat) : Keeps s (s.traceTh i l k pc d) :=
  Keeps.ite _ (s.setTrace_keeps _ _) (Keeps.refl s)

theorem State.seqReport_keeps (s : State) (i code pc : Nat) : Keeps s (s.seqReport i code pc) :=
  ((s.capture_keeps _ _ _ _).trans (State.traceTh_keeps _ _ _ _ _ _)).trans (State.raise_keeps _ _ _ _ _ _ _)

theorem State.seqStopDue_keeps (s : State) (i : Nat) : Keeps s (s.seqStopDue i) := by
  unfold State.seqStopDue
  have h : Keeps s (if (s.thread i).halt then (s.setThread i { s.thread i with halt := false }).setF .CSQ_TH_STAT_STATE i 4 else s) :=
    Keeps.ite _ ((s.setThread_keeps _ _).trans (State.setF_keeps _ _ _ _)) (Keeps.refl s)
  exact Keeps.ite _ (((h.trans (State.setThread_keeps _ _ _)).trans (State.setF_keeps _ _ _ _)).trans
    (State.traceTh_keeps _ _ _ _ _ _)) h

theorem State.seqHaltAt_keeps (s : State) (i code pc : Nat) : Keeps s (s.seqHaltAt i code pc) :=
  ((((s.setF_keeps _ _ _).trans (State.setF_keeps _ _ _ _)).trans (State.setThread_keeps _ _ _)).trans
    (State.seqReport_keeps _ _ _ _)).trans (State.seqStopDue_keeps _ _)

theorem State.seqRecoverAt_keeps (s : State) (i code pc : Nat) (p7 : Bool) : Keeps s (s.seqRecoverAt i code pc p7) := by
  refine Keeps.ite _ (s.seqHaltAt_keeps i code pc) ?_
  extract_lets u v
  have h : Keeps s u := Keeps.ite _ (s.setF_keeps _ _ _) (Keeps.refl s)
  have k : Keeps s v := (h.trans (State.addHold_keeps _ _ _ _)).trans (State.capture_keeps _ _ _ _ _)
  exact ((k.trans (State.total_keeps _ _ _ _)).trans (State.traceTh_keeps _ _ _ _ _ _)).trans
    (State.raise_keeps _ _ _ _ _ _ _)

/-- An exception of a thread leaves the stations alone. -/
theorem State.traceTh_stations (s : State) (i l k pc d : Nat) : (s.traceTh i l k pc d).stations = s.stations := by
  unfold State.traceTh; split <;> rfl

theorem State.raise_stations (s : State) (code o c u st : Nat) (d : List Byte) :
    (s.raise code o c u st d).stations = s.stations := by rw [State.raise_reports]; rfl

theorem State.capture_stations (s : State) (v o : Fld) (i : Nat) (fs : List (Fld × Nat)) :
    (s.capture v o i fs).stations = s.stations := by rw [State.capture_only]

theorem State.seqStopDue_stations (s : State) (i : Nat) : (s.seqStopDue i).stations = s.stations := by
  unfold State.seqStopDue
  have h : (if (s.thread i).halt then (s.setThread i { s.thread i with halt := false }).setF .CSQ_TH_STAT_STATE i 4 else s).stations =
    s.stations := by split <;> rfl
  extract_lets _ u _ v
  have k : u.stations = s.stations := h
  split
  · rw [State.traceTh_stations]; exact k
  · exact k

theorem State.seqHaltAt_stations (s : State) (i code pc : Nat) : (s.seqHaltAt i code pc).stations = s.stations := by
  unfold State.seqHaltAt State.seqReport State.seqCapture
  rw [State.seqStopDue_stations, State.raise_stations, State.traceTh_stations, State.capture_stations]; rfl

theorem State.seqRecoverAt_stations (s : State) (i code pc : Nat) (p7 : Bool) :
    (s.seqRecoverAt i code pc p7).stations = s.stations := by
  unfold State.seqRecoverAt
  dsimp only
  split
  · exact State.seqHaltAt_stations _ _ _ _
  · unfold State.seqCapture
    rw [State.raise_stations, State.traceTh_stations]
    show (State.capture _ _ _ _ _).stations = _
    rw [State.capture_stations]
    split <;> rfl

/-! ### Parking (R16, R154, R212) -/

/-- What the withdrawal of a FIRE of the same cycle does, one at a time. -/
theorem State.revokeFires_keeps (s : State) (st : Nat) : Keeps s (s.revokeFires st) := by
  unfold State.revokeFires
  extract_lets mine
  refine Keeps.trans (t := { s with flights := s.flights.filter (fun f => !(mine f)) }) (Keeps.of_eq rfl rfl rfl)
    (Keeps.foldl _ (fun t f => ?_) _ _)
  extract_lets i v _ u
  have h : Keeps t u := (t.setStation_keeps _ _).trans (State.setThread_keeps _ _ _)
  exact Keeps.ite _ h (Keeps.ite _ ((h.trans (State.seqHaltAt_keeps _ _ _ _)).trans (State.setF_keeps _ _ _ _))
    (h.trans (State.seqRecoverAt_keeps _ _ _ _ _)))

/-- It touches no other station. -/
theorem State.station_revokeFires_ne (s : State) (st : Nat) {j : Nat} (hj : st ≠ j) :
    (s.revokeFires st).station j = s.station j := by
  unfold State.revokeFires
  extract_lets mine
  refine foldl_same (fun t : State => t.station j) _ (fun t f => ?_) _ _
  extract_lets i v _ u
  have h : u.station j = t.station j := State.station_setStation_ne t st _ hj
  clear_value u
  rw [← h]
  split
  · rfl
  · split
    · exact congrArg (fun m => smapGet Station.unloaded m j) (State.seqHaltAt_stations u _ _ _)
    · exact congrArg (fun m => smapGet Station.unloaded m j) (State.seqRecoverAt_stations u _ _ _ _)

theorem State.park_keeps (s : State) (st : Nat) (h : Hold) : Keeps s (s.park st h) := by
  unfold State.park
  extract_lets own u x y
  have k : Keeps s u := Keeps.ite _ (Keeps.refl s) (s.revokeFires_keeps st)
  exact Keeps.ite _ k (k.trans (State.setStation_keeps _ _ _))
theorem State.unpark_keeps (s : State) (st : Nat) (h : Hold) : Keeps s (s.unpark st h) :=
  Keeps.ite _ (Keeps.refl s) (s.setStation_keeps st _)

/-- Parking a station leaves every other station alone (R16). -/
theorem State.station_park_ne (s : State) (st : Nat) (h : Hold) {j : Nat} (hj : st ≠ j) :
    (s.park st h).station j = s.station j := by
  unfold State.park
  extract_lets own u x y
  have k : u.station j = s.station j := by
    unfold u
    split
    · rfl
    · exact State.station_revokeFires_ne _ _ hj
  split
  · exact k
  · rw [State.station_setStation_ne _ _ _ hj]; exact k

end Sys2Proof.Machine
end

