-- ==== Sys2Proof/Tests/Slice0.lean ====
section
/-!
SUPPORT. Tests of the model: the checks of WellFormed each refuse a command, the manual's worked examples come out as it
prints them, and every set of hypotheses of an obligation is met by a small concrete state. Most states here are `live` with
a few fields and units written; none is the state of a run.
-/

set_option Elab.async false
set_option maxRecDepth 10000

namespace Sys2Proof.Tests
open Sys2Proof Sys2Proof.Machine

/-! ### Small states -/

/-- A device with every core, the shared part of cluster 0 and every domain of the die under power, in service. -/
def live : State :=
  ((((State.reset.setF .CPT_DOM_CORE 0 255).setF .CPT_DOM_SHARED 0 1).setF .PWR_DIEDOM_ON 0 63).setF .GCTL_START_STEP 0 10).setPll true

/-- The same with the virtual function of tenant 1 enabled. -/
def tenant : State := live.setFn 1 { Function.reset with enabled := true }

/-- Two slots of core 0 and one of cluster memory 0. -/
def slotA : SlotRef := { km := false, unit := 0, n := 4 }
def slotB : SlotRef := { km := false, unit := 0, n := 8 }
def slotK : SlotRef := { km := true, unit := 0, n := 0 }

def vec : Vec :=
  { d := 0, v := 0, codes := List.replicate 256 1, todo := [], started := true, provMask := 0, poison := false, sat := false,
    prov := false, ocu := 0, pre := [], bring := false }
def latch : Latch :=
  { d := 0, v := 0, vals := List.replicate 256 5, poison := false, sat := false, prov := false, since := 0, summed := false,
    padded := false, offered := false }
def tile : Tile :=
  { d := 0, st := 1, unit := 0, ins := [slotA], parts := [], outs := [slotB], nvec := 2, done := [], flags := 0, start := 0,
    word := none, old := false, pois := [], src := slotA, gone := [slotA], sent := false, oldCopy := false, worked := 0, turn := false }
def engine : Engine := { Engine.idle with opw := 0x00008400#32, station := 1, tile := some 0 }
def station : Station :=
  { Station.unloaded with state := 1, gen := 0, entry := some (0, 0), ins := [slotA], outs := [slotB], ncol := 256 }
def ocuReq : OcuReq := { core := 0, eng := 0, d := 0, v := 0, esc := false, rows := 3, terms := [(0, 7)], at_ := 0 }
def job : Job :=
  { kind := .load, owner := 0, tag := some 5, addr := 0x1000, len := 376, force := false, station := 1, model := 1, layer := 1,
    shards := [], opws := [], table := [], tableOff := 0, tiles := 0, rgs := [], seen := none, what := none, column := none }
def beaver : Beaver :=
  { job := job, state := 3, start := 0, head := none, levels := [], erase := [], eraseN := 0, rows := [], iter := 0,
    okPairs := [], iters := [], record := none, clamped := 0, engines := [], left := [], spare := none, check := none }

/-- A station on core 0 whose tile engine 0 works for. -/
def running : State := ((live.setStation 1 station).setCoreTiles 0 [tile]).setEngine 0 engine

/-- Everything of core 0 and of cluster memory 0 belongs to the physical function. -/
def owned : State :=
  live.setPart 0 (some { Partition.empty with cores := [0], cm := [(0, 0, 0x7C000)], km := [(0, 0, 0x100000)], stations := [1] })

/-- A station with its descriptor in core 0: one input ring and one output ring of core memory, engine 0, table rescale. -/
def placed : State :=
  let s := owned.setStation 1 { station with grants := 1 }
  let s := [(0, 0x80000001), (1, 0x00110100), (2, 1), (3, 0x8400), (32, 0x80040200), (48, 0x80040400)].foldl
    (fun t p => t.setDescWord 0 0 p.1 p.2) s
  let s := [4, 5, 8, 9].foldl (fun t n => t.setF .CMC_SLOT_STATE n 0) s
  { s with rings := [(4, { Ring.free with len := 2, size := 0x1000, cons := 1 }), (8, { Ring.free with len := 2, size := 0x1000, prod := 1 })] }

/-- A merge station of two input rings in core 0, both with a tile. -/
def merging : State :=
  let s := owned.setStation 1 { station with grants := 1, kind := 5 }
  let s := [(0, 0x85000001), (1, 0x00120100), (2, 0), (32, 0x80040200), (33, 0x80040600), (48, 0x80040400)].foldl
    (fun t p => t.setDescWord 0 0 p.1 p.2) s
  let s := ([8, 9].foldl (fun t n => t.setF .CMC_SLOT_STATE n 0) s).setF .CMC_SLOT_STATE 4 2 |>.setF .CMC_SLOT_STATE 12 2
  { s with rings := [(4, { Ring.free with len := 2, size := 0x1000, cons := 1 }), (8, { Ring.free with len := 2, size := 0x1000, prod := 1 }),
      (12, { Ring.free with len := 2, size := 0x1000, cons := 1 })] }

/-- An INGEST record: a crop of 1 by 1 pixels, patches of 1 pixel. -/
def ingestRec : List Byte :=
  [0, 0, 0, 1, 1, 1, 1, 1, 1, 1, 1, 0, 0, 0, 0, 0, 0, 0, 0, 0, 1, 0, 1, 0] ++ List.replicate 24 0#8
def camera : Station := { station with kind := 7, outs := [slotB], ingest := ingestRec }
def frameDesc : FrameDesc := { addr := 0x2000, width := 1, height := 1, stride := 1, format := 0, stamp := none }
def openCtx : Context := { Context.closed with state := 1, weight := 1, station := 2, len := 1000, queue := [frameDesc] }

/-- Row group 0 of core 0 holds weights of station 1; its tracker has a state. -/
def tracked (x : Tracker) : State :=
  ((running.setShard 0 { Shard.free with state := 2, station := 1, rgs := [0] }).setF .ME_DTGAIN_PROV 0 1).setTracker 0 x
def samples (n : Nat) (sEC : Int) : Samples := { nOff := 16, sumF0 := 0, nGain := n, sEC := sEC, sE := 0, sCC := 1000, sC := 0 }

/-- The DAC serves cluster 0, whose pass is at engine 0 of core 0. -/
def calibrating (full : Bool) (temp : Int) : State :=
  { live.setPassQ 0 [{ CalPass.idle with full := full, engines := [0], left := [0], doing := full, pos := 0, temps := [(0, temp)] }] with
    dac := { live.dac with serving := some 0 } }

/-- Words of 0. -/
def zeros (n : Nat) : List Word := List.replicate n 0

/-- A command entry of these words, and a function whose only accepted command it is. -/
def words (ws : List Word) : List Word := (ws ++ zeros 16).take 16
def asking (s : State) (fn : Nat) (e : List Word) : State :=
  { s with accepted := [(fn, e)] }.setFn fn { s.fnst fn with accepted := [e] }

/-- Context 3 is open for the physical function on the gate-ingest station 2. -/
def gate (x : Context) : State := (live.setCtx 3 x).setStation 2 camera

/-- Port 1 runs in a mode. -/
def port (mode : Nat) (x : Port) : State := ((live.setF .POS_CFG_EN 1 1).setF .POS_CFG_MODE 1 mode).setPort 1 x

/-- A transfer from a ring of core 0 to one of cluster memory 0. -/
def xfer : Xfer := { src := slotA, dst := slotK, owner := 0, slot := none, start := 0 }
def moving (x : Tmv) : State :=
  ({ owned with rings := [(4, { Ring.free with len := 2, size := 0x1000 }), (4194304, { Ring.free with len := 2, size := 0x1000 })] } : State
    ).setF .KMC_SLOT_STATE 0 0 |>.setTmv 0 x

/-- Thread 0 of cluster 0 runs for the physical function at word 4 of a region of words 0 to 100; register n holds 16 n. -/
def seq : State :=
  let s := (((owned.setF .CSQ_TH_STAT_STATE 0 2).setF .CSQ_TH_REGION_LAST 0 100).setF .CSQ_TH_STAT_PC 0 4)
  (List.range 16).foldl (fun t n => t.setF .CSQ_TH_GREG_VALUE n (16 * n)) s

/-- Barrier group 2 of core 0, in force on the core, and an instance of it that waits for no one. -/
def group : Group :=
  { Group.free with defined := true, timeout := 10, masks := [1] }
def inst : BarInst :=
  { first := 0, last := 0, arrived := 1, slow := [], threads := [0], rounds := [], value := none }

/-- What a next state satisfies. -/
def nextHas (o : Host.Outcome State Fault Refusal) (p : State → Bool) : Bool :=
  match o with
  | .next t => p t
  | _ => false

/-- Thread 0 waits in the open instance of group 2. -/
def waiting (w : ThreadWait) (b : BarInst) : State :=
  ((seq.setF .CSQ_TH_STAT_STATE 0 3).setThread 0 { ThreadState.idle with wait := w }).setGroup 2 { group with inst := some b }
def snapSet : SnapSet := { owner := 0, group := 2, regions := [(32, 64, 32)] }

/-- Channel 6 is bound to thread 0. -/
def chanPart : Partition := { Partition.empty with cores := [0], chans := [(6, 0)] }
def posting : State := ((seq.setPart 0 (some chanPart)).setF .MBX_BIND_VALID 6 1).setF .MBX_BIND_SENDER 6 0x10

/-- Port 1 in a state of its state machine, its neighbour device 3. -/
def peered (st : Nat) (x : Link) : State := ((live.setF .LNK_PSTAT_STATE 1 st).setF .LNK_PSTAT_PEER 1 3).setLink 1 x
def linkRing : Ring := { Ring.free with len := 2, size := 0x1000, lport := 1, lchan := 2, peer := 3 }
/-- A station of a kind on link channel 2 of port 1, its ring in core 0. -/
def linked (kind slot : Nat) (x : Link) : State :=
  ({ peered 4 x with rings := [(8, linkRing)] }.setStation 1 { station with kind := kind, ins := [slotB], outs := [slotB] }).setF .CMC_SLOT_STATE 8 slot
def flit (payload : List Byte) : Flit := { lchan := 2, fseq := 0, src := 3, dst := 0, ackseq := 4095, payload := payload }
/-- The header of a tile of one vector of 16 elements. -/
def tileHead : List Byte := List.replicate 0x1C 0#8 ++ [1#8, 0, 0, 0, 16, 0] ++ List.replicate 30 0#8
def rxTile : RxTile := { slot := slotB, ring := slotB, head := tileHead, scale := 0, codes := [] }
def sent : SentFlit := { fseq := 5, type := 2, lchan := 2, dst := 3, payload := [1] }
/-- Group 2 takes part in a barrier of two devices. -/
def peers (x : Group) : State := (peered 4 Link.idle).setGroup 2 { x with scope := 2, devmask := 3 }

/-- Tenant 1 holds core 0 and memory of cluster 0, station 1 is parked for a reclaim, and these claims are cut. -/
def cutting (cut : List Nat × List (Nat × Nat × Nat) × List (Nat × Nat × Nat)) : State :=
  ((live.setStation 1 { station with owner := 1, state := 3, holds := [.reclaim] }
    ).setPart 1 (some { Partition.empty with cores := [0], cm := [(0, 0, 0x1000)], km := [(0, 0, 0x1000)] })
    ).setFn 1 { Function.reset with enabled := true, cut := some cut }

/-- The header of shard 0 of layer 1 of model 1 for station 1: 64 rows, 1 column, int8. -/
def shardBytes : List Byte :=
  [0x5A, 0x51, 0x53, 0x48, 1, 0, 0, 0, 0, 0, 1, 0, 1, 0, 0, 0, 64, 0, 1, 0, 0, 0, 0, 0, 64, 0, 0, 0] ++ List.replicate 68 0
/-- Model-key slot 0 holds a key of zeros. -/
def keyed (s : State) : State := { s with modelKeys := [(0, { bytes := List.replicate 32 0, owner := 0, usage := 1 })] }
/-- A shard of one code, 5, as its sender encrypted it with that key, and its payload. -/
def oneHead : ShardHead :=
  { shardHead shardBytes with bytes := [], digest := codeDigest [5], krows := 1, paylen := 1 }
def oneData : List Byte := [203, 55, 54, 23, 164, 214, 56, 166, 137, 91, 202, 68, 249, 98, 207, 180, 187]
def fetching (h : ShardHead) : Beaver := { beaver with state := 2, head := some h }

/-- Instance 1 erases and programs with the step token of engine 0. -/
def programming (x : Beaver) : State := { live.setBeaver 1 (some x) with tokenHeld := [0] }
/-- Instance 1 reads shard 3 back, which covers row group 0 and holds no codes. -/
def checking (x : Shard) : State :=
  { (live.setShard 3 { x with state := 2, rgs := [0] }).setBeaver 1 (some { beaver with state := 4, check := some 3 }) with tokenHeld := [0] }

def image : Image := { version := 3, secver := 5, calver := 2, authentic := true }
def found (a : Option Image) : PowerOnInputs :=
  { rtc := some 5, imageA := a, imageB := none, sensors := List.replicate 72 200, slots := List.replicate 6 0x80000021#32 }
def page : SettPage := { page := 3072, bytes := [(4, some 9)] }
/-- Watch point 5 is armed on station 1 and has two samples. -/
def watching : State :=
  (((running.setF .OBS_TW_CFG_ARMED 5 1).setF .OBS_TW_CFG_OWNER 5 0).setF .OBS_TW_CFG_STATION 5 1
    ).setPoint 5 { TensorPoint.idle with size := 2, n := 2, fseq := 7, lseq := 8 }
def event : EventRec :=
  { time := 0, code := 0x101, cls := 2, supp := false, owner := 0, cluster := 0, unit := 0, station := 0, seq := 0, count := 1, first := 0,
    detail := [] }
/-- A path of the event log with these records waiting and these entered. -/
def logged (p : Nat) (table recs : List EventRec) : State :=
  { live with events := { live.events with paths := [(p, { recs := recs, table := table })] } }
/-- The debug port is open for reads and writes. -/
def debugged : State := { live with lc := [(1, [{ value := 2, ok := true }])] }

/-! ### Operands that are not well formed

One ill-formed term for each check of WellFormed. -/

theorem test_ill_register_offset : (Instr.registerWrite 0 0 2 0 15 false).wf = false := by decide
theorem test_ill_register_window : (Instr.registerWrite 0 1 0x40000 0 15 false).wf = false := by decide
theorem test_ill_paired_offset : (Instr.pairedValueRead 0 ⟨0, 1⟩).wf = false := by decide
theorem test_ill_bar2_read_length : (Instr.bar2Read 0 0 0 4097).wf = false := by decide
theorem test_ill_bar2_read_end : (Instr.bar2Read 0 0 0x7FFFFFF 2).wf = false := by decide
theorem test_ok_bar2_read_empty : (Instr.bar2Read 0 0 0 0).wf = true := by decide
theorem test_ill_bar2_write_length : (Instr.bar2Write 0 0 0 (List.replicate 513 0) false).wf = false := by decide +kernel
theorem test_ill_bar2_write_end : (Instr.bar2Write 0 0 0x7FFFFFF [0, 0] false).wf = false := by decide
theorem test_ill_image_length : (Instr.migrationRequest 0 1 0 0 0 [] []).wf = false := by decide
theorem test_ill_entry_length : (Instr.openContext 0 0 [4]).wf = false := by decide
theorem test_ill_entry_opcode :
    [Instr.openContext 0 0 (5 :: zeros 15), .closeContext 0 0 (4 :: zeros 15), .loadBitstream 0 0 (2 :: zeros 15) [],
      .unload 0 0 (1 :: zeros 15), .setQuota 0 0 (1 :: zeros 15), .watchArm 0 0 (1 :: zeros 15), .watchDisarm 0 0 (0x30 :: zeros 15),
      .traceConsent 0 0 (0x30 :: zeros 15), .digestRegion 0 0 (0x30 :: zeros 15)].map Instr.wf = List.replicate 9 false := by
  decide +kernel
theorem test_ill_instruction_word : (Instr.add 0 0 0 0x10000000#32).wf = false := by decide
theorem test_ok_reserved_word : (Instr.add 0 0 0 0xC0000000#32).wf = true := by decide
theorem test_ill_operation_words : (Instr.swap 0 0 1 0 0 0 [] [] [] 0).wf = false := by decide
theorem test_ill_table_words : (Instr.swap 0 0 1 0 0 0 [] (zeros 16) [0] 0).wf = false := by decide
theorem test_ill_table_length : (Instr.swap 0 0 1 0 0 0 [] (zeros 16) (List.replicate 2056 0) 0).wf = false := by
  decide +kernel
theorem test_ill_sweep_tiles : (Instr.sweepLoad 0 0 1 0 0 0 [] (zeros 16) [] 0 0).wf = false := by decide
theorem test_ill_doorbell_entry : (Instr.commandDoorbell 0 0 1 [[0]]).wf = false := by decide
theorem test_ill_flit_payload : (Instr.idle 0 0 ⟨0, 0, 0, 0, 0, List.replicate 241 0⟩).wf = false := by decide +kernel
theorem test_ill_flit_type : (Instr.flitReservedType 0 0 0x0B ⟨0, 0, 0, 0, 0, []⟩).wf = false := by decide
theorem test_ill_power_on_counts :
    (Instr.powerOn 0 ⟨none, none, none, [], List.replicate 6 0⟩).wf = false ∧
      (Instr.powerOn 0 ⟨none, none, none, List.replicate 72 0, []⟩).wf = false := by decide +kernel
theorem test_ill_telemetry_count : (Instr.pmbusTelemetry 0 []).wf = false ∧ (Instr.smbalert 0 []).wf = false := by decide
theorem test_ill_sensor_count : (Instr.sensorRead 0 []).wf = false := by decide
theorem test_ill_sett_length : (Instr.settWindowWrite 0 0 []).wf = false := by decide
theorem test_ill_sett_end : (Instr.settWindowWrite 0 0x3FFFF [0, 0]).wf = false := by decide
theorem test_ill_counter_group : (Instr.counterGroupUpdate 0 0 []).wf = false := by decide
theorem test_ill_debug_offset :
    (Instr.debugPortAccess 0 (.readReg 2)).wf = false ∧ (Instr.debugPortAccess 0 (.writeReg 2 0)).wf = false := by decide
theorem test_ill_debug_length :
    (Instr.debugPortAccess 0 (.readMem 0 4097)).wf = false ∧ (Instr.debugPortAccess 0 (.settWrite 0 [])).wf = false := by decide
theorem test_ill_debug_write : (Instr.debugPortAccess 0 (.writeMem 0 (List.replicate 513 0))).wf = false := by decide +kernel

/-- Operands that are not well formed do not end a run (log entry 4). -/
theorem test_ill_runs : nextHas (exec (.sensorRead 0 []) live) (fun _ => true) = true := by decide +kernel

/-! ### The manual's worked examples -/

/-- Example 0.1 and the numbering of R31: engine ME9 of CL3.CORE5 is on core 29. -/
theorem test_core_index : coreIx 3 5 = 29 ∧ engIx 29 9 = 17 * 29 + 9 := by decide

/-- Example 1.1: CORE7's read of KM offset 0x0012_3456 of CL6 is BAR2 offset 0x0192_3456. -/
theorem test_km_offset : seqAddr 6 0x123456 = some 0x1923456 := by decide

/-- Example 2.1: column 57 at x2 with SPLIT, halves of 4,300 and 4,800 units: codes 17 and 19, 9,216 units. -/
theorem test_split : convPair 4300 4800 256 false 1 false =
    { val := 9216, n := 1, clamps := 0, split := true, esc := false, miss := false } := by decide +kernel
/-- Example 2.1: under CLAMP it is 31 x 256 = 7,936. -/
theorem test_clamp : (convPair 4300 4800 256 false 0 false).val = 7936 := by decide +kernel

/-- Example 3.1: M = 8,808, S = 16, B = 51. -/
theorem test_rescale : rescale 40517 8808 16 51 = (5496, false) := by decide +kernel
theorem test_rescale_saturates : rescale 400000 8808 16 51 = (32767, true) := by decide +kernel

/-- Table 3.4: 3.156 25, -7.906 25, 7.968 75 and 8.0 in bf16, sent with r = 16. -/
theorem test_link_codes :
    [0x404A, 0xC0FD, 0x40FF, 0x4100].map (fun x => linkCode (bf16Val x) 0x41800000) =
      [(51, false), (-127, false), (127, true), (127, true)] := by decide +kernel

/-- Example 4.1: the update in band T2, f = 3. -/
theorem test_tracker_update :
    let m : Measured := { p := 31744, q := 1000, num := 102, den := 100 }
    m.ok = true ∧ m.gain 0x40CF 8 = 0x40DE ∧ m.offset 448 8 = 455 := by decide +kernel
/-- Example 4.1: code 20 at x2 is corrected to 5,161. -/
theorem test_correction : corrected 0x40DE 455 (20 * 256) 1 1 = 5161 := by decide +kernel

/-- Example 10.1: context 37 at epoch 199 with B = 1,250,000, and its port at a travel count. -/
def trolley (b epoch : Nat) (held : Bool) (travel : Nat) : State :=
  let x := { Context.closed with state := 1, src := 6, sync := 1, len := 6250, epoch := epoch, bound := b, held := held }
  ((live.setCtx 37 x).setPort 1 { Port.reset with trv := BitVec.ofNat 48 travel }).setF .POS_SYNCCFG_EN0 0 1

theorem test_sync_in_window :
    nextHas (exec (.syncEdge 0 ⟨0, true⟩) (trolley 1250000 199 false 1249420))
      (fun t => (t.ctx 37).epoch == 200 && (t.ctx 37).bound == 1255670) = true := by decide +kernel
theorem test_boundary_pending :
    nextHas (exec (.epochBoundary 0 37) (trolley 1255670 200 false 1255670))
      (fun t => (t.ctx 37).held && (t.ctx 37).epoch == 200) = true := by decide +kernel
theorem test_window_missed :
    nextHas (exec (.syncWindowEnd 0 37) (trolley 1255670 200 true 1256451))
      (fun t => (t.ctx 37).epoch == 201 && (t.ctx 37).bound == 1261920 && t.getF .POS_CTX_STAT_MISSED 37 == 1) = true := by
  decide +kernel
theorem test_sync_outside :
    nextHas (exec (.syncEdge 0 ⟨0, true⟩) (trolley 1261920 201 false 1256540))
      (fun t => (t.ctx 37).epoch == 201 && t.getF .POS_CTX_STAT_OUTWIN 37 == 1) = true := by decide +kernel

/-! ### Published values of the public functions -/

/-- The check value of CRC-32: of the nine digits "123456789". -/
theorem test_crc32 : crc32 [0x31, 0x32, 0x33, 0x34, 0x35, 0x36, 0x37, 0x38, 0x39] = 0xCBF43926 := by decide +kernel
/-- SHA-256 of "abc". -/
theorem test_sha256 : beNat (sha256 [0x61, 0x62, 0x63]) =
    0xba7816bf8f01cfea414140de5dae2223b00361a396177a9cb410ff61f20015ad := by decide +kernel
/-- SHA-384 of "abc". -/
theorem test_sha384 : beNat (sha384 [0x61, 0x62, 0x63]) =
    0xcb00753f45a35e8bb5a03d699ac65007272c32ab0eded1631a8b605a43ff5bed8086072ba1e7cc2358baeca134c825a7 := by
  decide +kernel



/-- Test case 14 of the specification of GCM: AES-256, a key, nonce and block of zeros. -/
theorem test_gcm : gcmDecrypt (List.replicate 32 0) (List.replicate 12 0) []
    (beBytes 16 0xcea7403d4d606b6e074ec5d3baf39d18) (beBytes 16 0xd0d1c8a799996bf0265b98b5d48ab919) = some (List.replicate 16 0) := by
  decide +kernel

/-! ### States of the queue and of its fields -/

/-- Two waiting commands: the first is taken. -/
def queued : State := { live with pending := [.sessionGrant 3, .sessionEnd 4] }
/-- What the first of them leaves. -/
def taken : State := { queued with pending := [.sessionEnd 4], time := 3 }

theorem live_fits : FieldsFit live := fun f i =>
  (((((show FieldsFit State.reset from fun f _ => f.rst_lt).setF .CPT_DOM_CORE 0 255).setF .CPT_DOM_SHARED 0 1).setF .PWR_DIEDOM_ON 0 63
    ).setF .GCTL_START_STEP 0 10) f i


/-! ### Every set of hypotheses is met

`meets_<Obligation>_<n>` shows values that meet the hypotheses of the n-th clause of an obligation together, counted from 0; a
clause whose hypotheses are among those of another one shares its values. -/

/-! ### QueueIsKept -/

theorem meets_QueueIsKept_0 :
    let s : State := live
    s.pending = [] := by decide +kernel

theorem meets_QueueIsKept_1 :
    let c : Instr := (.sessionGrant 3)
    let s : State := { live with pending := [.sessionEnd 4] }
    let t : State := taken
    exec c s = .next t := by rfl

/-! ### StepKeepsMemoryCanonical -/

theorem meets_StepKeepsMemoryCanonical_0 :
    let s : State := queued
    let t : State := taken
    Memory.wf s.sram = true ∧ step s = .next t := ⟨rfl, rfl⟩

/-! ### StepKeepsFieldsFit -/

theorem meets_StepKeepsFieldsFit_0 :
    let s : State := queued
    let t : State := taken
    FieldsFit s ∧ step s = .next t := ⟨live_fits, rfl⟩

/-! ### RegisterWriteStores -/

theorem meets_RegisterWriteStores_0 :
    let off : BitVec 26 := BitVec.ofNat 26 (Reg.NVS_LCVAL.at_ [])
    let s : State := live
    let r : Reg := .NVS_LCVAL
    let i : Nat := 0
    off.toNat % 4 = 0 ∧ s.perst = false ∧ s.bar0On off.toNat = true ∧ pfWindow off.toNat = none ∧ regAt off.toNat = some (r, i)
      := by
  decide +kernel

theorem meets_RegisterWriteStores_1 :
    let off : BitVec 26 := 0
    let be : BitVec 4 := 0
    let s : State := live
    (be ≠ 0xF#4 ∨ off.toNat % 4 ≠ 0) ∧ s.perst = false ∧ s.bar0On off.toNat = true ∧ s.bit .GCTL_ACCERR_VALID 0 = false := by
  decide +kernel

/-! ### AccessErrors -/

theorem meets_AccessErrors_0 :
    let off : BitVec 26 := 0x700004#26
    let s : State := live.setF .PWR_DIEDOM_ON 0 0
    off.toNat % 4 = 0 ∧ s.perst = false ∧ s.bar0On off.toNat = false ∧ s.bit .GCTL_ACCERR_VALID 0 = false := by
  decide +kernel

theorem meets_AccessErrors_2 :
    let s : State := live.setF .GCTL_ACCERR_VALID 0 1
    s.bit .GCTL_ACCERR_VALID 0 = true := by decide +kernel

theorem meets_AccessErrors_3 :
    let s : State := live
    s.bit .GCTL_ACCERR_VALID 0 = false := by decide +kernel

theorem meets_AccessErrors_4 :
    let s : State := live
    s.perst = false := by decide +kernel

/-! ### PairedAndIndirectReads -/

theorem meets_PairedAndIndirectReads_0 :
    let off : BitVec 26 := BitVec.ofNat 26 (Reg.POS_CNTL.at_ [0])
    let s : State := live
    let r : Reg := .POS_CNTL
    let i : Nat := 0
    plainOffset off.toNat = true ∧ s.perst = false ∧ s.bar0On off.toNat = true ∧ regAt off.toNat = some (r, i) ∧ r ≠
      .OBS_TW_STAT ∧ lowRegs.contains r = true := by
  decide +kernel

theorem meets_PairedAndIndirectReads_1 :
    let off : BitVec 26 := BitVec.ofNat 26 (Reg.NVS_LCVAL.at_ [])
    let s : State := live
    let r : Reg := .NVS_LCVAL
    let i : Nat := 0
    plainOffset off.toNat = true ∧ s.perst = false ∧ s.bar0On off.toNat = true ∧ regAt off.toNat = some (r, i) ∧ r ≠
      .OBS_TW_STAT ∧ lowRegs.contains r = false := by
  decide +kernel

theorem meets_PairedAndIndirectReads_2 :
    let now : Nat := 2000000
    let t : Fin 128 := 0
    let s : State := (tenant.setF .TENV_IADDR_OFFSET 1 (Reg.GCTL_CKPT.at_ [] / 4))
    let r : Reg := .GCTL_CKPT
    let i : Nat := 0
    s.perst = false ∧ (s.fnst (t.val + 1)).enabled = true ∧ (s.fnst (t.val + 1)).flr = none ∧ regAt (s.iaddr (t.val + 1)) =
      some (r, i) ∧ (s.advance now).mayRead (t.val + 1) r i = false := by
  decide +kernel

theorem meets_PairedAndIndirectReads_3 :
    let now : Nat := 2000000
    let t : Fin 128 := 0
    let s : State := (tenant.setF .TENV_IADDR_OFFSET 1 (Reg.POS_SYNC_CNT.at_ [0] / 4))
    let r : Reg := .POS_SYNC_CNT
    let i : Nat := 0
    s.perst = false ∧ (s.fnst (t.val + 1)).enabled = true ∧ (s.fnst (t.val + 1)).flr = none ∧ regAt (s.iaddr (t.val + 1)) =
      some (r, i) ∧ (s.advance now).mayRead (t.val + 1) r i = true ∧ (s.advance now).bar0On (s.iaddr (t.val + 1)) = true ∧
      plainOffset (s.iaddr (t.val + 1)) = true ∧ r ≠ .OBS_TW_STAT ∧ lowRegs.contains r = false := by
  decide +kernel

theorem meets_PairedAndIndirectReads_4 :
    let t : Fin 128 := 0
    let s : State := (tenant.setF .TENV_IADDR_OFFSET 1 (Reg.POS_CTX_CFG.at_ [1] / 4)).setCtx 1
      { Context.closed with state := 1, owner := 1 }
    let r : Reg := .POS_CTX_CFG
    let i : Nat := 1
    s.perst = false ∧ (s.fnst (t.val + 1)).enabled = true ∧ (s.fnst (t.val + 1)).flr = none ∧ regAt (s.iaddr (t.val + 1)) =
      some (r, i) ∧ r = .POS_CTX_CFG := by
  decide +kernel

theorem meets_PairedAndIndirectReads_5 :
    let t : Fin 128 := 0
    let s : State := (tenant.setF .TENV_IADDR_OFFSET 1 (Reg.POS_TRG_CFG.at_ [1] / 4))
    let r : Reg := .POS_TRG_CFG
    let i : Nat := 1
    s.perst = false ∧ (s.fnst (t.val + 1)).enabled = true ∧ (s.fnst (t.val + 1)).flr = none ∧ regAt (s.iaddr (t.val + 1)) =
      some (r, i) ∧ r = .POS_TRG_CFG := by
  decide +kernel

theorem meets_PairedAndIndirectReads_6 :
    let now : Nat := 2000000
    let t : Fin 128 := 0
    let s : State := ((tenant.setF .TENV_IADDR_OFFSET 1 (Reg.CSQ_TH_CTL.at_ [0, 1] / 4)).setF .CSQ_TH_STAT_OWNER 1 1).setF
      .CSQ_TH_STAT_STATE 1 2
    let r : Reg := .CSQ_TH_CTL
    let i : Nat := 1
    s.perst = false ∧ (s.fnst (t.val + 1)).enabled = true ∧ (s.fnst (t.val + 1)).flr = none ∧ regAt (s.iaddr (t.val + 1)) =
      some (r, i) ∧ r = .CSQ_TH_CTL ∧ (s.advance now).mayThread (t.val + 1) i = true := by
  decide +kernel

theorem meets_PairedAndIndirectReads_7 :
    let now : Nat := 2000000
    let t : Fin 128 := 0
    let s : State := (tenant.setF .TENV_IADDR_OFFSET 1 (Reg.CSQ_TH_CTL.at_ [0, 1] / 4))
    let r : Reg := .CSQ_TH_CTL
    let i : Nat := 1
    s.perst = false ∧ (s.fnst (t.val + 1)).enabled = true ∧ (s.fnst (t.val + 1)).flr = none ∧ regAt (s.iaddr (t.val + 1)) =
      some (r, i) ∧ r = .CSQ_TH_CTL ∧ (s.advance now).mayThread (t.val + 1) i = false := by
  decide +kernel

theorem meets_PairedAndIndirectReads_8 :
    let t : Fin 128 := 0
    let s : State := (tenant.setF .TENV_IADDR_OFFSET 1 (Reg.GCTL_CKPT.at_ [] / 4))
    let r : Reg := .GCTL_CKPT
    let i : Nat := 0
    s.perst = false ∧ (s.fnst (t.val + 1)).enabled = true ∧ (s.fnst (t.val + 1)).flr = none ∧ regAt (s.iaddr (t.val + 1)) =
      some (r, i) ∧ (¬ (r = .CSQ_TH_CTL ∨ r = .OWL_SCTL ∨ r = .POS_CTX_CFG ∨ r = .POS_TRG_CFG ∨ r = .POS_TRG_VALL ∨ r =
      .POS_TRG_VALH ∨ r = .POS_TRG_PERIOD)) := by
  decide +kernel

/-! ### Bar2Accesses -/

theorem meets_Bar2Accesses_0 :
    let off : BitVec 27 := 0x13#27
    let len : Nat := 16
    let s : State := { live with sram := [(0x14, 5)] }
    bar2Range off.toNat len 4096 = true ∧ s.perst = false ∧ s.rangeOn off.toNat len = true ∧ (∀ w, w ∈ wordsOf off.toNat len →
      s.syndrome w = 0) := by
  decide +kernel

theorem meets_Bar2Accesses_1 :
    let off : BitVec 27 := 0x13#27
    let data : List Byte := [1, 2, 3]
    let s : State := { live with sram := [(0x14, 5), (0x20, 9)] }
    bar2Range off.toNat data.length 512 = true ∧ s.perst = false ∧ s.rangeOn off.toNat data.length = true ∧ (∀ w, w ∈ wordsOf
      off.toNat data.length → s.syndrome w = 0 ∧ guarded (8 * w) = false) := by
  decide +kernel

theorem meets_Bar2Accesses_2 :
    let fn : Func := 1
    let off : BitVec 27 := 0
    let len : Nat := 16
    let s : State := tenant
    fn.val ≠ 0 ∧ s.perst = false ∧ (s.fnst fn.val).enabled = true ∧ (s.fnst fn.val).flr = none ∧ bar2Range off.toNat len 4096 =
      true ∧ s.bar2May fn.val off.toNat len = false := by
  decide +kernel

theorem meets_Bar2Accesses_3 :
    let fn : Func := 1
    let off : BitVec 27 := 0
    let data : List Byte := [1]
    let s : State := tenant
    fn.val ≠ 0 ∧ s.perst = false ∧ (s.fnst fn.val).enabled = true ∧ (s.fnst fn.val).flr = none ∧ bar2Range off.toNat
      data.length 512 = true ∧ s.bar2May fn.val off.toNat data.length = false := by
  decide +kernel

/-! ### ConverterSaturates -/

theorem meets_ConverterSaturates_0 :
    let p : Int := 63
    let lsb : Nat := 2
    0 < lsb ∧ (63 : Int) * lsb ≤ 2 * p := by decide +kernel

theorem meets_ConverterSaturates_1 :
    let p : Int := -65
    let lsb : Nat := 2
    0 < lsb ∧ 2 * p ≤ -65 * (lsb : Int) := by decide +kernel

theorem meets_ConverterSaturates_2 :
    let p : Int := -64
    let lsb : Nat := 2
    0 < lsb ∧ -65 * (lsb : Int) < 2 * p ∧ 2 * p < (63 : Int) * lsb := by decide +kernel

theorem meets_ConverterSaturates_3 :
    let lsb : Nat := 2
    let lo : Int := 30
    let hi : Int := 33
    0 < lsb ∧ (63 : Int) * lsb ≤ 2 * (lo + hi) := by decide +kernel

theorem meets_ConverterSaturates_4 :
    let lsb : Nat := 2
    let lo : Int := -30
    let hi : Int := -35
    0 < lsb ∧ 2 * (lo + hi) ≤ -65 * (lsb : Int) := by decide +kernel

theorem meets_ConverterSaturates_5 :
    let lsb : Nat := 2
    let x : Int := 14400
    0 < lsb ∧ x.natAbs ≤ 14400 := by decide +kernel

/-! ### VectorsRun -/

theorem meets_VectorsRun_0 :
    let cl : Cluster := 0
    let co : Core := 0
    let e : Fin 16 := 0
    let s : State := running
    let tl : Tile := tile
    let core := coreIx cl co
    let pe := s.physOf core e.val
    let x := s.engine pe
    x.tile.bind (s.tileOf core) = some tl ∧ x.nextV < tl.nvec ∧ (x.cur = none ∨ x.nxt = none) ∧ s.ocuStalls cl.val core
      x.station = false := by
  decide +kernel

theorem meets_VectorsRun_1 :
    let cl : Cluster := 0
    let co : Core := 0
    let e : Fin 16 := 0
    let s : State := running.setEngine 0 { engine with cur := some { vec with started := false, todo := [⟨0, false, 0, 0⟩] } }
    let vec : Vec := { vec with started := false, todo := [⟨0, false, 0, 0⟩] }
    let ph : Phase := ⟨0, false, 0, 0⟩
    let rest : List Phase := []
    let core := coreIx cl co
    let pe := s.physOf core e.val
    (s.engine pe).cur = some vec ∧ vec.todo = ph :: rest ∧ (vec.started = true ∨ (s.engine pe).ran = false ∨ s.opWaits pe =
      false) ∧ s.ocuStalls cl.val core (s.engine pe).station = false := by
  decide +kernel

/-! ### ReadoutAndChain -/

theorem meets_ReadoutAndChain_0 :
    let cl : Cluster := 0
    let co : Core := 0
    let e : Fin 16 := 0
    let s : State := running.setEngine 0 { engine with cur := some vec, acc := [(0, 9)] }
    let vec : Vec := vec
    let pe := s.physOf (coreIx cl co) e.val
    let x := s.engine pe
    x.cur = some vec ∧ x.latch = none ∧ vec.todo = [] ∧ vec.ocu = 0 := by decide +kernel

theorem meets_ReadoutAndChain_1 :
    let now : Nat := 2000000
    let cl : Cluster := 0
    let co : Core := 0
    let s : State := ((((running.setDescWord 0 0 2 3).setDescWord 0 0 3 0x10400).setDescWord 0 0 4 0x110400
      ).setEngine 0 { engine with opw := 0x10400#32, latch := some latch }
      ).setEngine 1 { engine with opw := 0x110400#32, latch := some { latch with since := 3 } }
    let at_ : Nat := 3
    let head : Nat := 0
    let di : Nat := 0
    let ls : List Latch := [latch, { latch with since := 3 }]
    let core := coreIx cl co
    let d := s.desc core di
    first (s.readyChains core) = some (at_, head, di) ∧ s.chainReady core d di = some ls ∧ smapGet 0 s.adderFree core ≤ now ∧
      s.time ≤ now := by
  decide +kernel

/-! ### ResultsComplete -/

theorem meets_ResultsComplete_0 :
    let cl : Cluster := 0
    let co : Core := 0
    let e : Fin 16 := 0
    let s : State := running.setEngine 0 { engine with opw := 0x04008400#32, latch := some latch }
    let tl : Tile := tile
    let o : Opw := opwOf 0x04008400
    let l : Latch := latch
    let core := coreIx cl co
    s.resultOf core e.val = some (tl, o, l) ∧ o.addin = true ∧ l.padded = false ∧ (∀ r, r ∈ tl.parts → s.slot r = 2 ∨ s.slot r
      = 3) := by
  decide +kernel

theorem meets_ResultsComplete_1 :
    let cl : Cluster := 0
    let co : Core := 0
    let e : Fin 16 := 0
    let s : State := running.setEngine 0 { engine with opw := 0x01008400#32, latch := some latch }
    let tl : Tile := tile
    let o : Opw := opwOf 0x01008400
    let l : Latch := latch
    let core := coreIx cl co
    s.resultOf core e.val = some (tl, o, l) ∧ (o.addin = true → l.padded = true) ∧ o.out = 1 := by decide +kernel

theorem meets_ResultsComplete_2 :
    let cl : Cluster := 0
    let co : Core := 0
    let e : Fin 16 := 0
    let s : State := running.setEngine 0 { engine with opw := 0x02008400#32, latch := some latch }
    let tl : Tile := tile
    let o : Opw := opwOf 0x02008400
    let l : Latch := latch
    let core := coreIx cl co
    s.resultOf core e.val = some (tl, o, l) ∧ (o.addin = true → l.padded = true) ∧ o.out ≠ 1 := by decide +kernel

theorem meets_ResultsComplete_3 :
    let cl : Cluster := 0
    let co : Core := 0
    let s : State := running.setEngine 0 { engine with opw := 0x01008400#32, latch := some { latch with offered := true } }
    let since : Nat := 0
    let e : Nat := 0
    let x : Nat := 0
    let tl : Tile := tile
    let o : Opw := opwOf 0x01008400
    let l : Latch := { latch with offered := true }
    let core := coreIx cl co
    let y := s.station tl.st
    first (s.offered core) = some (since, e, x) ∧ s.resultOf core e = some (tl, o, l) ∧ y.outFmt ≤ 1 := by
  decide +kernel

/-! ### CountersAndRequests -/

theorem meets_CountersAndRequests_1 :
    let cl : Cluster := 0
    let s : State := live
    s.sharedOn cl.val = true := by decide +kernel

theorem meets_CountersAndRequests_2 :
    let cl : Cluster := 0
    let s : State := live.setOcu 0 { Ocu.idle with queue := [ocuReq] }
    let r : OcuReq := ocuReq
    let rest : List OcuReq := []
    (s.ocu cl.val).queue = r :: rest ∧ r.esc = false := by decide +kernel

theorem meets_CountersAndRequests_3 :
    let cl : Cluster := 0
    let s : State := live.setOcu 0 { Ocu.idle with queue := [{ ocuReq with esc := true }] }
    let r : OcuReq := { ocuReq with esc := true }
    let rest : List OcuReq := []
    (s.ocu cl.val).queue = r :: rest ∧ r.esc = true := by decide +kernel

theorem meets_CountersAndRequests_4 :
    let now : Nat := 2000000
    let cl : Cluster := 0
    let co : Core := 0
    let off : BitVec 19 := 0
    let req : Fin 24 := 0
    let since : Nat := 0
    let s : State := live
    s.coreOn (coreIx cl co) = true ∧ since + 32 ≤ max s.time now ∧ ((s.advance now).cmWait.any (fun x => x.core == coreIx cl co
      && x.bank == off.toNat / 32 % 8 && x.req == req.val) = false) := by
  decide +kernel

/-! ### TrackersAndKeepalive -/

theorem meets_TrackersAndKeepalive_0 :
    let now : Nat := 2000000
    let cl : Cluster := 0
    let co : Core := 0
    let e : Eng := 0
    let rg : RowGroup := 0
    let s : State := tracked { Tracker.fresh with deferred := [samples 64 1000] }
    let pe := engIx (coreIx cl co) e.val
    let g := rgIx pe rg.val
    let x := s.tracker g
    s.coreOn (coreIx cl co) = true ∧ s.rgActive g = true ∧ x.since + 1000000 ≤ max s.time now ∧ x.deferred ≠ [] := by
  decide +kernel

theorem meets_TrackersAndKeepalive_1 :
    let now : Nat := 2000000
    let cl : Cluster := 0
    let co : Core := 0
    let e : Eng := 0
    let rg : RowGroup := 0
    let s : State := tracked { Tracker.fresh with cur := samples 63 1000 }
    let pe := engIx (coreIx cl co) e.val
    let g := rgIx pe rg.val
    let x := s.tracker g
    s.coreOn (coreIx cl co) = true ∧ s.rgActive g = true ∧ x.since + 1000000 ≤ max s.time now ∧ x.deferred = [] ∧ x.cur.nGain <
      64 := by
  decide +kernel

theorem meets_TrackersAndKeepalive_2 :
    let now : Nat := 2000000
    let cl : Cluster := 0
    let co : Core := 0
    let e : Eng := 0
    let rg : RowGroup := 0
    let s : State := tracked { Tracker.fresh with cur := samples 64 1000 }
    let pe := engIx (coreIx cl co) e.val
    let g := rgIx pe rg.val
    let x := s.tracker g
    let m := x.cur.measure
    s.coreOn (coreIx cl co) = true ∧ s.rgActive g = true ∧ x.since + 1000000 ≤ max s.time now ∧ x.deferred = [] ∧ 64 ≤
      x.cur.nGain ∧ m.ok = true := by
  decide +kernel

theorem meets_TrackersAndKeepalive_3 :
    let now : Nat := 2000000
    let cl : Cluster := 0
    let co : Core := 0
    let e : Eng := 0
    let rg : RowGroup := 0
    let s : State := tracked { Tracker.fresh with cur := samples 64 100000 }
    let pe := engIx (coreIx cl co) e.val
    let g := rgIx pe rg.val
    let x := s.tracker g
    let m := x.cur.measure
    s.coreOn (coreIx cl co) = true ∧ s.rgActive g = true ∧ x.since + 1000000 ≤ max s.time now ∧ x.deferred = [] ∧ 64 ≤
      x.cur.nGain ∧ m.ok = false := by
  decide +kernel

theorem meets_TrackersAndKeepalive_4 :
    let cl : Cluster := 0
    let co : Core := 0
    let e : Eng := 0
    let rg : RowGroup := 0
    let s : State := tracked { Tracker.fresh with cur := samples 64 1000 }
    let pe := engIx (coreIx cl co) e.val
    let g := rgIx pe rg.val
    let x := s.tracker g
    let m := x.cur.measure
    s.coreOn (coreIx cl co) = true ∧ s.rgActive g = true ∧ s.bit .ME_DTGAIN_PROV g = true ∧ x.deferred = [] ∧ 64 ≤ x.cur.nGain
      ∧ m.ok = true := by
  decide +kernel

theorem meets_TrackersAndKeepalive_5 :
    let cl : Cluster := 0
    let co : Core := 0
    let e : Eng := 0
    let rg : RowGroup := 0
    let s : State := tracked { Tracker.fresh with cur := samples 64 100000 }
    let pe := engIx (coreIx cl co) e.val
    let g := rgIx pe rg.val
    let x := s.tracker g
    let m := x.cur.measure
    s.coreOn (coreIx cl co) = true ∧ s.rgActive g = true ∧ s.bit .ME_DTGAIN_PROV g = true ∧ x.deferred = [] ∧ 64 ≤ x.cur.nGain
      ∧ m.ok = false := by
  decide +kernel

theorem meets_TrackersAndKeepalive_6 :
    let cl : Cluster := 0
    let co : Core := 0
    let e : Eng := 0
    let rg : RowGroup := 0
    let s : State := tracked { Tracker.fresh with deferred := [samples 10 1000] }
    let d : Samples := samples 10 1000
    let ds : List Samples := []
    let pe := engIx (coreIx cl co) e.val
    let g := rgIx pe rg.val
    (s.tracker g).deferred = d :: ds ∧ s.coreOn (coreIx cl co) = true ∧ (s.engine pe).boundary = true ∧ s.waitsBeaver pe =
      false ∧ s.waitsCal pe = false ∧ s.waitsTouch pe = false ∧ s.sparing cl.val = false := by
  decide +kernel

/-! ### CalibrationRuns -/

theorem meets_CalibrationRuns_0 :
    let s : State := { live.setPassQ 0 [{ CalPass.idle with pos := 0 }] with dac := { live.dac with queue := [(5, 0)] } }
    let c : Nat := 0
    let at_ : Nat := 5
    let rest : List (Nat × Nat) := []
    let p := s.pass c
    let es := s.passEngines c p
    s.dac.queue = (at_, c) :: rest ∧ s.dieOn 4 = true ∧ s.dac.serving = none ∧ s.bit .SDAC_STAT_OWNER 0 = false ∧ s.bit
      .SDAC_STAT_PASSAGE 0 = false ∧ s.sparing c = false ∧ es ≠ [] := by
  decide +kernel

theorem meets_CalibrationRuns_2 :
    let cl : Cluster := 0
    let co : Core := 0
    let e : Eng := 0
    let s : State := calibrating true (live.median 0 + 17)
    let c := cl.val
    let pe := engIx (coreIx cl co) e.val
    s.calRuns c pe true = true ∧ s.tempMoved c pe = true := by decide +kernel

theorem meets_CalibrationRuns_3 :
    let cl : Cluster := 0
    let co : Core := 0
    let e : Eng := 0
    let s : State := calibrating true (live.median 0)
    let c := cl.val
    let pe := engIx (coreIx cl co) e.val
    let hit : Bool := true
    let amp : Bool := true
    let ofs : Bool := false
    s.calRuns c pe true = true ∧ s.tempMoved c pe = false ∧ (hit && amp && ofs) = false := by decide +kernel

theorem meets_CalibrationRuns_4 :
    let cl : Cluster := 0
    let co : Core := 0
    let e : Eng := 0
    let s : State := calibrating false (live.median 0)
    let c := cl.val
    let pe := engIx (coreIx cl co) e.val
    s.calRuns c pe false = true ∧ s.tempMoved c pe = false := by decide +kernel

theorem meets_CalibrationRuns_6 :
    let cl : Cluster := 0
    let co : Core := 0
    let e : Eng := 0
    let s : State := calibrating false (live.median 0 - 17)
    let c := cl.val
    let pe := engIx (coreIx cl co) e.val
    s.calRuns c pe false = true ∧ s.tempMoved c pe = true := by decide +kernel

theorem meets_CalibrationRuns_7 :
    let now : Nat := 120000000000
    let cl : Cluster := 0
    let s : State := live
    let k : Nat := 0
    let pe := 136 * cl.val + k
    k < 136 ∧ s.coreOn (coreOf pe) = true ∧ (s.trimOf pe).at_ + refreshOf (s.band cl.val) ≤ max s.time now ∧ s.passQ cl.val =
      [] := by
  decide +kernel

/-! ### TouchupsRun -/

theorem meets_TouchupsRun_0 :
    let now : Nat := 2000000
    let cl : Cluster := 0
    let co : Core := 0
    let e : Eng := 0
    let rg : RowGroup := 0
    let s : State := tracked Tracker.fresh |>.setF .ME_CALSTAT_EARLY_TU 0 1
    let pe := engIx (coreIx cl co) e.val
    let g := rgIx pe rg.val
    s.holdsWeights g = true ∧ (s.tracker g).due = false ∧ ((s.getF .ME_CALSTAT_EARLY_TU pe).testBit rg.val = true ∨
      54432000000000000 ≤ (s.advance now).touchAccount pe rg.val) := by
  decide +kernel

theorem meets_TouchupsRun_1 :
    let cl : Cluster := 0
    let co : Core := 0
    let e : Eng := 0
    let rg : RowGroup := 0
    let s : State := { tracked { Tracker.fresh with due := true, row := 3, steps := 1 } with tokenHeld := [0] }
    let pe := engIx (coreIx cl co) e.val
    let g := rgIx pe rg.val
    let x := s.tracker g
    x.due = true ∧ pe ∈ s.tokenHeld ∧ s.coreOn (coreIx cl co) = true ∧ (s.engine pe).boundary = true ∧ s.waitsBeaver pe = false
      ∧ s.waitsCal pe = false ∧ s.readingBack g = false ∧ x.steps % 2 = 1 := by
  decide +kernel

theorem meets_TouchupsRun_2 :
    let cl : Cluster := 0
    let co : Core := 0
    let e : Eng := 0
    let rg : RowGroup := 0
    let low : List (Fin 276) := [5]
    let s : State := { tracked { Tracker.fresh with due := true, row := 3, steps := 4 } with tokenHeld := [0] }
    let pe := engIx (coreIx cl co) e.val
    let g := rgIx pe rg.val
    let x := s.tracker g
    x.due = true ∧ pe ∈ s.tokenHeld ∧ s.coreOn (coreIx cl co) = true ∧ (s.engine pe).boundary = true ∧ s.waitsBeaver pe = false
      ∧ s.waitsCal pe = false ∧ s.readingBack g = false ∧ x.steps % 2 = 0 ∧ low ≠ [] ∧ x.steps ≠ 6 := by
  decide +kernel

theorem meets_TouchupsRun_3 :
    let cl : Cluster := 0
    let co : Core := 0
    let e : Eng := 0
    let rg : RowGroup := 0
    let s : State := { tracked { Tracker.fresh with due := true, row := 62, steps := 6 } with tokenHeld := [0] }
    let pe := engIx (coreIx cl co) e.val
    let g := rgIx pe rg.val
    let x := s.tracker g
    x.due = true ∧ pe ∈ s.tokenHeld ∧ s.coreOn (coreIx cl co) = true ∧ (s.engine pe).boundary = true ∧ s.waitsBeaver pe = false
      ∧ s.waitsCal pe = false ∧ s.readingBack g = false ∧ x.steps % 2 = 0 ∧ x.row ≠ 63 := by
  decide +kernel

theorem meets_TouchupsRun_4 :
    let cl : Cluster := 0
    let co : Core := 0
    let e : Eng := 0
    let rg : RowGroup := 0
    let s : State := { tracked { Tracker.fresh with due := true, row := 63, steps := 2 } with tokenHeld := [0] }
    let pe := engIx (coreIx cl co) e.val
    let g := rgIx pe rg.val
    let x := s.tracker g
    x.due = true ∧ pe ∈ s.tokenHeld ∧ s.coreOn (coreIx cl co) = true ∧ (s.engine pe).boundary = true ∧ s.waitsBeaver pe = false
      ∧ s.waitsCal pe = false ∧ s.readingBack g = false ∧ x.steps % 2 = 0 ∧ x.row = 63 := by
  decide +kernel

theorem meets_TouchupsRun_5 :
    let s : State := { live with tokenWait := [⟨5, 3⟩, ⟨5, 2⟩] }
    let r : TokenReq := ⟨5, 2⟩
    let c := clOf r.engine
    s.firstToken = some r ∧ s.tokenHeld.length < s.tokenPool ∧ s.sparing c = false := by decide +kernel

theorem meets_TouchupsRun_6 :
    let s : State :=
      { live.setF .GCTL_START_STEP 0 7 with tokenWait := [⟨5, 3⟩, ⟨5, 2⟩], accounts := [(0, Config.freeNat live.fresh)] }
    let r : TokenReq := ⟨5, 2⟩
    let c := clOf r.engine
    let e := Config.freeNat s.fresh
    s.firstToken = some r ∧ s.tokenHeld.length < s.tokenPool ∧ s.sparing c = true ∧ e ≤ smapGet 0 s.accounts c :=
      ⟨by decide +kernel, by decide +kernel, by decide +kernel, Nat.le_refl _⟩

/-! ### OwlWatches -/

theorem meets_OwlWatches_0 :
    let cl : Cluster := 0
    let slot : Fin 32 := 0
    let s : State := (live.setF .OWL_SCFG_EN 0 1).setOwl 0 { Owl.idle with tiles := 256, count := 10 }
    let i := 32 * cl.val + slot.val
    let o := s.owl i
    s.sharedOn cl.val = true ∧ s.bit .OWL_SCFG_EN i = true ∧ 256 ≤ o.tiles := by decide +kernel

theorem meets_OwlWatches_1 :
    let fn : Func := 0
    let cl : Cluster := 0
    let slot : Fin 32 := 0
    let s : State := (live.setF .OWL_SCFG_EN 0 1).setOwl 0 { Owl.idle with tiles := 256, count := 10 }
    let i := 32 * cl.val + slot.val
    Hosted s fn.val ∧ (fn.val = 0 ∨ s.ownsOwl fn.val i = true) ∧ s.sharedOn cl.val = true ∧ s.bit .OWL_SCFG_EN i = true := by
  delta Hosted; decide +kernel

theorem meets_OwlWatches_2 :
    let fn : Func := 1
    let cl : Cluster := 0
    let slot : Fin 32 := 0
    let s : State := ((live.setF .OWL_SCFG_EN 0 1).setOwl 0 { Owl.idle with tiles := 256, count := 10 }).setFn 1
      { Function.reset with enabled := true }
    let i := 32 * cl.val + slot.val
    Hosted s fn.val ∧ fn.val ≠ 0 ∧ s.ownsOwl fn.val i = false := by delta Hosted; decide +kernel

/-! ### DacUse -/

theorem meets_DacUse_0 :
    let s : State := ((live.setF .SDAC_CTL_MODE 0 2).setF .SDAC_CTL_ROUTE 0 0x10).setF .SDAC_LEVEL_DC 0 100
    let d : DacDest := .calout
    let e : DacDest := .calout
    s.current d ≠ 0 ∧ s.current e ≠ 0 := by decide +kernel

theorem meets_DacUse_1 :
    let s : State := live.setF .PWR_DIEDOM_ON 0 0
    s.dieOn 4 = false := by decide +kernel

theorem meets_DacUse_2 :
    let now : Nat := 2000000
    let byHost : Bool := true
    let span : BitVec 2 := 2
    let route : BitVec 5 := 0
    let s : State := (live.setF .SDAC_STAT_OWNER 0 1).setF .SDAC_CTL_SPAN 0 2
    let old := s.getF .SDAC_CTL_ROUTE 0
    let dest := if byHost && route.toNat != 0x10 then old else route.toNat
    s.dieOn 4 = true ∧ s.bit .SDAC_STAT_OWNER 0 = byHost ∧ (s.advance now).spanNow = span.toNat ∧ old = dest := by
  decide +kernel

theorem meets_DacUse_3 :
    let now : Nat := 2000000
    let byHost : Bool := true
    let span : BitVec 2 := 2
    let route : BitVec 5 := 0x10
    let s : State := live.setF .SDAC_STAT_OWNER 0 1
    let old := s.getF .SDAC_CTL_ROUTE 0
    let dest := if byHost && route.toNat != 0x10 then old else route.toNat
    s.dieOn 4 = true ∧ s.bit .SDAC_STAT_OWNER 0 = byHost ∧ ((s.advance now).spanNow ≠ span.toNat ∨ old ≠ dest) ∧ old < 32 := by
  decide +kernel

theorem meets_DacUse_4 :
    let byHost : Bool := false
    let s : State := live.setF .SDAC_STAT_OWNER 0 1
    s.dieOn 4 = true ∧ s.bit .SDAC_STAT_OWNER 0 ≠ byHost := by decide +kernel

theorem meets_DacUse_5 :
    let now : Nat := 2000000
    let s : State := live.setF .SDAC_STAT_PASSAGE 0 1
    s.bit .SDAC_STAT_PASSAGE 0 = true ∧ s.dac.passUntil ≤ now := by decide +kernel

theorem meets_DacUse_9 :
    let s : State := (live.setF .SDAC_CTL_SESSION 0 1).setF .GCTL_START_FULL 0 0xFFFF
    s.dieOn 4 = true ∧ s.bit .SDAC_CTL_SESSION 0 = true ∧ s.bit .SDAC_STAT_OWNER 0 = false ∧ s.dac.serving = none ∧ s.dac.queue
      = [] ∧ s.starting = false := by
  decide +kernel

theorem meets_DacUse_11 :
    let now : Nat := 100000000
    let s : State := live.setF .SDAC_STAT_OWNER 0 1
    s.dieOn 4 = true ∧ s.bit .SDAC_STAT_OWNER 0 = true ∧ s.dac.granted + 100000000 ≤ now := by decide +kernel

theorem meets_DacUse_13 :
    let s : State := live
    s.dieOn 4 = true ∧ s.bit .SDAC_STAT_OWNER 0 = false := by decide +kernel

theorem meets_DacUse_14 :
    let s : State := (live.setF .SDAC_STAT_OWNER 0 1).setF .SDAC_STAT_LOOPBUSY 0 1
    s.bit .SDAC_STAT_LOOPBUSY 0 = true := by decide +kernel

/-! ### TileStarts -/

theorem meets_TileStarts_0 :
    let now : Nat := 2000000
    let cl : Cluster := 0
    let co : Core := 0
    let u : Fin 20 := 0
    let s : State := placed.setF .CMC_SLOT_STATE 4 2
    let d : Nat := 0
    let core := coreIx cl co
    let v := (s.advance now).latchAll.changesHeld core
    let w := if u.val = 19 then v.alignMerges core else v
    let x := w.desc core d
    let h := slotA
    s.coreOn core = true ∧ s.frozen core = false ∧ s.getF .STP_STAT_STATE core ≠ 3 ∧ w.pick core u.val = some d ∧ w.tileOf core
      d = none ∧ x.reason = none ∧ x.merge = false ∧ x.inRings core = [h] := by
  decide +kernel

theorem meets_TileStarts_1 :
    let now : Nat := 2000000
    let cl : Cluster := 0
    let co : Core := 0
    let u : Fin 20 := 19
    let s : State := merging
    let d : Nat := 0
    let core := coreIx cl co
    let v := (s.advance now).latchAll.changesHeld core
    let w := if u.val = 19 then v.alignMerges core else v
    let x := w.desc core d
    s.coreOn core = true ∧ s.frozen core = false ∧ s.getF .STP_STAT_STATE core ≠ 3 ∧ w.pick core u.val = some d ∧ w.tileOf core
      d = none ∧ x.reason = none ∧ x.merge = true ∧ (∀ h, h ∈ x.inRings core → w.torn (w.nextRd h) = false) := by
  decide +kernel

theorem meets_TileStarts_2 :
    let now : Nat := 2000000
    let cl : Cluster := 0
    let co : Core := 0
    let u : Fin 20 := 0
    let s : State := (placed.setF .CMC_SLOT_STATE 4 2).setDescWord 0 0 1 0x00910100
    let d : Nat := 0
    let core := coreIx cl co
    let v := (s.advance now).latchAll.changesHeld core
    let w := if u.val = 19 then v.alignMerges core else v
    let x := w.desc core d
    let y := w.station x.station
    let r := (8 : Nat)
    s.coreOn core = true ∧ s.frozen core = false ∧ s.getF .STP_STAT_STATE core ≠ 3 ∧ w.pick core u.val = some d ∧ w.tileOf core
      d = none ∧ x.reason = some r ∧ w.bit .STP_EXC_VALID core = false ∧ y.state ≠ 0 := by
  decide +kernel

/-! ### TilesEnd -/

theorem meets_TilesEnd_0 :
    let now : Nat := 2000000
    let cl : Cluster := 0
    let co : Core := 0
    let d : Fin 64 := 0
    let s : State := running.setCoreTiles 0 [{ tile with done := [0, 1] }]
    let tl : Tile := { tile with done := [0, 1] }
    let core := coreIx cl co
    s.tileOf core d.val = some tl ∧ s.coreOn core = true ∧ (s.advance now).tileDone core tl = true := by
  decide +kernel

theorem meets_TilesEnd_1 :
    let cl : Cluster := 0
    let co : Core := 0
    let s : State := running.setCoreTiles 0 [{ tile with word := some 9 }]
    let tl : Tile := { tile with word := some 9 }
    let core := coreIx cl co
    ((s.coreTiles core).find? (fun t => t.word.isSome && !t.sent) = some tl) ∧ s.coreOn core = true := by
  decide +kernel

/-! ### StationsMove -/

theorem meets_StationsMove_1 :
    let st : StationId := 1
    let s : State := running.setStation 1 { station with state := 3, holds := [.level1] }
    let y := s.station st.val
    y.state ≠ 0 := by decide +kernel

theorem meets_StationsMove_2 :
    let st : StationId := 0
    let s : State := live
    let y := s.station st.val
    y.state = 0 := by decide +kernel

theorem meets_StationsMove_4 :
    let st : StationId := 1
    let cl : Cluster := 0
    let co : Core := 0
    let d : Fin 64 := 3
    let image : List Word := (List.range 64).map (fun k => if k = 0 then 0x80000001#32 else if k = 1 then 0x00110100#32 else if
      k = 2 then 1#32 else if k = 3 then 0x8400#32 else if k = 32 then 0x80040200#32 else if k = 48 then 0x80040400#32 else
      0#32)
    let s : State := running
    let y := s.station st.val
    let im := (List.range 64).map (fun k => image.getD k 0)
    let x := descOf (fun k => (im.getD k 0).toNat)
    y.state ≠ 0 ∧ y.drain = none ∧ y.swapping = false ∧ hasDesc y.kind = true ∧ (∀ m, m ∈ y.mig → m.weight = true) ∧ x.valid =
      true ∧ x.station = st.val ∧ x.kind = y.kind ∧ x.owner = y.owner ∧ x.reason = none ∧ (s.desc (coreIx cl co) d.val).valid =
      false := by
  decide +kernel

theorem meets_StationsMove_5 :
    let now : Nat := 2000000
    let st : StationId := 1
    let s : State := running.setStation 1
      { station with state := 2, drain := some { core := 0, d := 0, seq := 0, epoch := 0, rings := [] } }
    let dr : Drain := { core := 0, d := 0, seq := 0, epoch := 0, rings := [] }
    (s.station st.val).drain = some dr ∧ (s.advance now).drainOver st.val dr = true := by decide +kernel

/-! ### TileMover -/

theorem meets_TileMover_0 :
    let now : Nat := 2000000
    let cl : Cluster := 0
    let co : Core := 0
    let s : State := moving { Tmv.idle with queue := [xfer] }
    let x : Xfer := xfer
    let core := coreIx cl co
    let m := s.tmv core
    let r := s.nextWr x.dst
    s.coreOn core = true ∧ m.cur = none ∧ (m.queue.find? (fun y => !((s.advance now).behindRefused m y)) = some x) ∧ s.slotOn r
      = true ∧ s.ownsAll x.owner (s.slotAddr r) (s.ring x.dst).size = true ∧ s.slot r = 0 := by
  decide +kernel

theorem meets_TileMover_1 :
    let now : Nat := 2000000
    let cl : Cluster := 0
    let co : Core := 0
    let s : State := (moving { Tmv.idle with queue := [xfer] }).setF .CPT_DOM_SHARED 0 0
    let x : Xfer := xfer
    let core := coreIx cl co
    let m := s.tmv core
    let r := s.nextWr x.dst
    s.coreOn core = true ∧ m.cur = none ∧ (m.queue.find? (fun y => !((s.advance now).behindRefused m y)) = some x) ∧ (s.slotOn
      r = false ∨ s.ownsAll x.owner (s.slotAddr r) (s.ring x.dst).size = false) := by
  decide +kernel

theorem meets_TileMover_2 :
    let cl : Cluster := 0
    let co : Core := 0
    let s : State := moving { Tmv.idle with cur := some { xfer with slot := some slotK } }
    let x : Xfer := { xfer with slot := some slotK }
    let core := coreIx cl co
    let m := s.tmv core
    let q := slotK
    s.coreOn core = true ∧ m.cur = some x ∧ x.slot = some q ∧ s.slotOn q = true := by decide +kernel

theorem meets_TileMover_3 :
    let cl : Cluster := 0
    let co : Core := 0
    let s : State := moving { Tmv.idle with refused := [xfer] }
    let x : Xfer := xfer
    let core := coreIx cl co
    let m := s.tmv core
    s.coreOn core = true ∧ (m.refused.find? (fun y => s.slotOn (s.nextWr y.dst) && s.slot (s.nextWr y.dst) == 0) = some x) := by
  decide +kernel

/-! ### ContextsAndPosts -/

theorem meets_ContextsAndPosts_0 :
    let now : Nat := 2000000
    let fn : Func := 0
    let entry : List Word := words [4, 0, 0x000200FF, 0, 1000]
    let s : State := asking (live.setStation 2 camera) 0 (words [4, 0, 0x000200FF, 0, 1000])
    let u := (s.advance now).takeAccepted fn.val entry
    let c := (0 : Nat)
    (s.advance now).nextUp fn.val 0x04 entry = true ∧ u.openCode fn.val entry = 0 ∧ u.openWhich (openParams entry).ctx = some c
      := by
  decide +kernel

theorem meets_ContextsAndPosts_1 :
    let now : Nat := 2000000
    let fn : Func := 0
    let entry : List Word := words [4, 0, 0x000200FF, 0, 1000]
    let s : State := asking live 0 (words [4, 0, 0x000200FF, 0, 1000])
    let u := (s.advance now).takeAccepted fn.val entry
    (s.advance now).nextUp fn.val 0x04 entry = true ∧ u.openCode fn.val entry ≠ 0 := by decide +kernel

theorem meets_ContextsAndPosts_2 :
    let now : Nat := 2000000
    let fn : Func := 0
    let entry : List Word := words [5, 0, 3]
    let s : State := asking (gate openCtx) 0 (words [5, 0, 3])
    let c := entryWord entry 2 % 128
    (s.advance now).nextUp fn.val 0x05 entry = true ∧ entryClean entry 3 = true ∧ entryWord entry 2 < 128 ∧ (s.ctx c).owner =
      fn.val ∧ (s.ctx c).state = 1 := by
  decide +kernel

theorem meets_ContextsAndPosts_3 :
    let now : Nat := 2000000
    let fn : Func := 0
    let entry : List Word := words [5, 0, 3]
    let s : State := asking (gate { openCtx with state := 2 }) 0 (words [5, 0, 3])
    let c := entryWord entry 2 % 128
    (s.advance now).nextUp fn.val 0x05 entry = true ∧ entryClean entry 3 = true ∧ entryWord entry 2 < 128 ∧ (s.ctx c).owner =
      fn.val ∧ (s.ctx c).state = 2 := by
  decide +kernel

theorem meets_ContextsAndPosts_4 :
    let now : Nat := 2000000
    let fn : Func := 0
    let entry : List Word := words [5, 0, 128]
    let s : State := asking (gate openCtx) 0 (words [5, 0, 128])
    (s.advance now).nextUp fn.val 0x05 entry = true ∧ (entryClean entry 3 = false ∨ 128 ≤ entryWord entry 2) := by
  decide +kernel

theorem meets_ContextsAndPosts_5 :
    let ctx : Ctx := 3
    let s : State := gate { openCtx with state := 2 }
    (s.ctx ctx.val).state = 2 ∧ (s.ctx ctx.val).running = false := by decide +kernel

theorem meets_ContextsAndPosts_6 :
    let fn : Func := 0
    let ctx : Ctx := 4
    let s : State := gate openCtx
    let c := ctx.val
    let x := s.ctx c
    Hosted s fn.val ∧ (x.state ≠ 1 ∨ x.owner ≠ fn.val) := by delta Hosted; decide +kernel

theorem meets_ContextsAndPosts_7 :
    let fn : Func := 0
    let ctx : Ctx := 3
    let s : State := (gate openCtx).setF .SCTL_WORD 31 7
    let c := ctx.val
    let x := s.ctx c
    let d := s.posted fn.val c
    Hosted s fn.val ∧ x.state = 1 ∧ x.owner = fn.val ∧ 6 ≤ d.format := by delta Hosted; decide +kernel

theorem meets_ContextsAndPosts_8 :
    let fn : Func := 0
    let ctx : Ctx := 3
    let s : State := ((gate openCtx).setF .SCTL_WORD 29 0x10002).setF .SCTL_WORD 30 1
    let c := ctx.val
    let x := s.ctx c
    let d := s.posted fn.val c
    Hosted s fn.val ∧ x.state = 1 ∧ x.owner = fn.val ∧ d.format < 6 ∧ badGeometry d (s.ingestCfg x.station) (s.lineMode x.src)
      = true := by
  delta Hosted; decide +kernel

theorem meets_ContextsAndPosts_9 :
    let fn : Func := 0
    let ctx : Ctx := 3
    let s : State := ((gate openCtx).setF .SCTL_WORD 29 0x10001).setF .SCTL_WORD 30 1
    let c := ctx.val
    let x := s.ctx c
    let d := s.posted fn.val c
    Hosted s fn.val ∧ x.state = 1 ∧ x.owner = fn.val ∧ d.format < 6 ∧ badGeometry d (s.ingestCfg x.station) (s.lineMode x.src)
      = false ∧ x.queue.length < 16 := by
  delta Hosted; decide +kernel

theorem meets_ContextsAndPosts_10 :
    let fn : Func := 0
    let ctx : Ctx := 3
    let s : State := ((gate { openCtx with queue := List.replicate 16 frameDesc }).setF .SCTL_WORD 29 0x10001).setF .SCTL_WORD
      30 1
    let c := ctx.val
    let x := s.ctx c
    let d := s.posted fn.val c
    Hosted s fn.val ∧ x.state = 1 ∧ x.owner = fn.val ∧ d.format < 6 ∧ badGeometry d (s.ingestCfg x.station) (s.lineMode x.src)
      = false ∧ 16 ≤ x.queue.length := by
  delta Hosted; decide +kernel

/-! ### IngestAndMemoryErrors -/

theorem meets_IngestAndMemoryErrors_0 :
    let now : Nat := 2000000
    let eng : Fin 8 := 2
    let s : State := gate openCtx
    let u : State := ((gate openCtx).advance 2000000).takeOffer.elim live Prod.snd
    let c : Nat := 3
    let d : FrameDesc := frameDesc
    let rest : List FrameDesc := []
    s.dieOn 2 = true ∧ smapGet none s.ingests eng.val = none ∧ (s.advance now).takeOffer = some (c, u) ∧ (u.ctx c).queue = d ::
      rest := by
  decide +kernel

theorem meets_IngestAndMemoryErrors_1 :
    let now : Nat := 2000000
    let eng : Fin 8 := 2
    let s : State :=
      { gate { openCtx with running := true } with ingests := [(2, some { ctx := 3, dtime := 0, tiles := [], wait := false })] }
    let j : Ingest := { ctx := 3, dtime := 0, tiles := [], wait := false }
    let h : SlotRef := slotB
    let hs : List SlotRef := []
    let st := (s.ctx j.ctx).station
    let w := ((s.advance now).enterTile st).ingestFlush j h j.tiles
    smapGet none s.ingests eng.val = some j ∧ (s.station st).outs = h :: hs ∧ s.dieOn 2 = true ∧ j.wait = false ∧ (s.station
      st).holds = [] ∧ w.2 = [] := by
  decide +kernel

theorem meets_IngestAndMemoryErrors_2 :
    let now : Nat := 2000000
    let eng : Fin 8 := 2
    let s : State :=
      { gate { openCtx with running := true } with ingests := [(2, some { ctx := 3, dtime := 0, tiles := [{ pos := 0, nvec := 1, nelem := 1, poison := false, sats := 0, data := [] }], wait := false })] }
    let j : Ingest :=
      { ctx := 3, dtime := 0, tiles := [{ pos := 0, nvec := 1, nelem := 1, poison := false, sats := 0, data := [] }], wait := false }
    let h : SlotRef := slotB
    let hs : List SlotRef := []
    let st := (s.ctx j.ctx).station
    let w := ((s.advance now).enterTile st).ingestFlush j h j.tiles
    smapGet none s.ingests eng.val = some j ∧ (s.station st).outs = h :: hs ∧ s.dieOn 2 = true ∧ j.wait = false ∧ (s.station
      st).holds = [] ∧ w.2 ≠ [] := by
  decide +kernel

theorem meets_IngestAndMemoryErrors_3 :
    let word : BitVec 24 := 5
    let s : State := { live with scrubs := [5], ecc := [(5, 7)] }
    word.toNat ∈ s.scrubs ∧ s.memOn (8 * word.toNat) = true ∧ correctable (s.syndrome word.toNat) = true := by
  decide +kernel

theorem meets_IngestAndMemoryErrors_4 :
    let word : BitVec 24 := 5
    let s : State := { live with scrubs := [5], ecc := [(5, 3)] }
    word.toNat ∈ s.scrubs ∧ s.memOn (8 * word.toNat) = true ∧ correctable (s.syndrome word.toNat) = false := by
  decide +kernel

theorem meets_IngestAndMemoryErrors_5 :
    let cl : Cluster := 0
    let co : Core := 0
    let s : State := live
    s.coreOn (coreIx cl co) = true := by decide +kernel

theorem meets_IngestAndMemoryErrors_6 :
    let cl : Cluster := 0
    let s : State := live
    s.sharedOn cl.val = true := by decide +kernel

/-! ### PortsCount -/

theorem meets_PortsCount_0 :
    let now : Nat := 2000000
    let p : Fin 4 := 1
    let s : State := port 0 { Port.reset with pos := 4 }
    let x := s.port p.val
    let open_ := filterOpen (s.getF .POS_CFG_FILT p.val) now
    let a : Bool := true
    let b : Bool := false
    let da := (x.a != a) && open_ x.aAt
    let db := (x.b != b) && open_ x.bAt
    s.time ≤ now ∧ s.portRuns p.val 0 = true ∧ da ≠ db := by decide +kernel

theorem meets_PortsCount_1 :
    let now : Nat := 2000000
    let p : Fin 4 := 1
    let s : State := port 0 { Port.reset with pos := 4 }
    let x := s.port p.val
    let open_ := filterOpen (s.getF .POS_CFG_FILT p.val) now
    let a : Bool := true
    let b : Bool := true
    let da := (x.a != a) && open_ x.aAt
    let db := (x.b != b) && open_ x.bAt
    s.time ≤ now ∧ s.portRuns p.val 0 = true ∧ da = true ∧ db = true := by decide +kernel

theorem meets_PortsCount_2 :
    let now : Nat := 2000000
    let p : Fin 4 := 1
    let s : State := port 0 { Port.reset with pos := 4 }
    let x := s.port p.val
    let open_ := filterOpen (s.getF .POS_CFG_FILT p.val) now
    let a : Bool := false
    let b : Bool := false
    let da := (x.a != a) && open_ x.aAt
    let db := (x.b != b) && open_ x.bAt
    s.time ≤ now ∧ s.portRuns p.val 0 = true ∧ da = false ∧ db = false := by decide +kernel

theorem meets_PortsCount_3 :
    let now : Nat := 2000000
    let p : Fin 4 := 0
    let s : State := live
    s.time ≤ now ∧ s.portRuns p.val 0 = false := by decide +kernel

theorem meets_PortsCount_4 :
    let now : Nat := 2000000
    let p : Fin 4 := 1
    let s : State := (port 0 { Port.reset with pos := 4 }).setF .POS_CFG_ZEN 1 1
    let x := s.port p.val
    s.time ≤ now ∧ s.portRuns p.val 0 = true ∧ s.bit .POS_CFG_ZEN p.val = true ∧ filterOpen (2 * s.getF .POS_CFG_FILT p.val)
      now x.zAt = true := by
  decide +kernel

theorem meets_PortsCount_5 :
    let now : Nat := 2000000
    let p : Fin 4 := 1
    let s : State := port 1 Port.reset
    let x := s.port p.val
    let open_ := filterOpen (s.getF .POS_CFG_FILT p.val) now
    let rise : Bool := true
    s.time ≤ now ∧ open_ x.aAt = true ∧ s.portRuns p.val 1 = true ∧ rise ≠ s.bit .POS_CFG_INV p.val := by
  decide +kernel

theorem meets_PortsCount_6 :
    let now : Nat := 2000000
    let p : Fin 4 := 1
    let s : State := port 1 Port.reset
    let x := s.port p.val
    let open_ := filterOpen (s.getF .POS_CFG_FILT p.val) now
    let rise : Bool := false
    s.time ≤ now ∧ open_ x.aAt = true ∧ s.portRuns p.val 1 = true ∧ rise = s.bit .POS_CFG_INV p.val := by
  decide +kernel

theorem meets_PortsCount_7 :
    let now : Nat := 2000000
    let p : Fin 4 := 1
    let s : State := port 2 Port.reset
    let x := s.port p.val
    let open_ := filterOpen (s.getF .POS_CFG_FILT p.val) now
    let rise : Bool := false
    s.time ≤ now ∧ open_ x.aAt = true ∧ s.portRuns p.val 2 = true ∧ rise = s.bit .POS_CFG_INV p.val := by
  decide +kernel

theorem meets_PortsCount_8 :
    let now : Nat := 12999999
    let p : Fin 4 := 1
    let s : State := port 2 { Port.reset with edge := some 0 }
    let x := s.port p.val
    let open_ := filterOpen (s.getF .POS_CFG_FILT p.val) now
    let rise : Bool := true
    let e := (0 : Nat)
    s.time ≤ now ∧ open_ x.aAt = true ∧ s.portRuns p.val 2 = true ∧ rise ≠ s.bit .POS_CFG_INV p.val ∧ x.edge = some e ∧ now < e
      + 13000000 := by
  decide +kernel

theorem meets_PortsCount_9 :
    let now : Nat := 13000000
    let p : Fin 4 := 1
    let s : State := port 2 { Port.reset with edge := some 0 }
    let x := s.port p.val
    let open_ := filterOpen (s.getF .POS_CFG_FILT p.val) now
    let rise : Bool := true
    s.time ≤ now ∧ open_ x.aAt = true ∧ s.portRuns p.val 2 = true ∧ rise ≠ s.bit .POS_CFG_INV p.val ∧ (∀ e, x.edge = some e → e
      + 13000000 ≤ now) := by
  decide +kernel

theorem meets_PortsCount_10 :
    let now : Nat := 26000000
    let p : Fin 4 := 1
    let s : State := port 2 { Port.reset with edge := some 0 }
    let x := s.port p.val
    s.time ≤ now ∧ s.portRuns p.val 2 = true ∧ x.edge.getD x.since + 26000000 ≤ now := by decide +kernel

/-! ### EpochsAndPortSetup -/

theorem meets_EpochsAndPortSetup_0 :
    let now : Nat := 2000000
    let ctx : Ctx := 3
    let s : State := gate { openCtx with bound := 2000000 }
    let c := ctx.val
    let x := s.ctx c
    x.state = 1 ∧ (s.advance now).atBound c = true ∧ x.sync = 0 := by decide +kernel

theorem meets_EpochsAndPortSetup_1 :
    let now : Nat := 2000000
    let ctx : Ctx := 3
    let s : State := gate { openCtx with bound := 2000000, sync := 1 }
    let c := ctx.val
    let x := s.ctx c
    x.state = 1 ∧ (s.advance now).atBound c = true ∧ x.sync ≠ 0 := by decide +kernel

theorem meets_EpochsAndPortSetup_2 :
    let now : Nat := 2000000
    let ctx : Ctx := 3
    let s : State := gate { openCtx with bound := 1999875, sync := 1 }
    let c := ctx.val
    let x := s.ctx c
    x.state = 1 ∧ (s.advance now).windowEnd c ≠ none := by decide +kernel

theorem meets_EpochsAndPortSetup_3 :
    let now : Nat := 2000000
    let n : Fin 2 := 0
    let rise : Bool := false
    let s : State := (gate { openCtx with bound := 1999990, sync := 1 }).setF .POS_SYNCCFG_EN0 0 1
    let last := smapGet 0 s.syncAt n.val
    let filt := s.getF (if n.val = 0 then Fld.POS_SYNCCFG_FILT0 else .POS_SYNCCFG_FILT1) 0
    let active := rise != s.bit (if n.val = 0 then Fld.POS_SYNCCFG_FALL0 else .POS_SYNCCFG_FALL1) 0
    s.bit (if n.val = 0 then .POS_SYNCCFG_EN0 else .POS_SYNCCFG_EN1) 0 = true ∧ s.wioDown = false ∧ filterOpen filt (max s.time
      now) (if last = 0 then none else some (last - 1)) = true ∧ active = false := by
  decide +kernel

theorem meets_EpochsAndPortSetup_4 :
    let now : Nat := 2000000
    let n : Fin 2 := 0
    let rise : Bool := true
    let s : State := (gate { openCtx with bound := 1999990, sync := 1 }).setF .POS_SYNCCFG_EN0 0 1
    let last := smapGet 0 s.syncAt n.val
    let filt := s.getF (if n.val = 0 then Fld.POS_SYNCCFG_FILT0 else .POS_SYNCCFG_FILT1) 0
    let active := rise != s.bit (if n.val = 0 then Fld.POS_SYNCCFG_FALL0 else .POS_SYNCCFG_FALL1) 0
    s.bit (if n.val = 0 then .POS_SYNCCFG_EN0 else .POS_SYNCCFG_EN1) 0 = true ∧ s.wioDown = false ∧ filterOpen filt (max s.time
      now) (if last = 0 then none else some (last - 1)) = true ∧ active = true := by
  decide +kernel

theorem meets_EpochsAndPortSetup_6 :
    let p : Fin 4 := 1
    let v : Word := 0xC800003C
    let s : State := live
    let w := v.toNat
    s.portUsed p.val = false ∧ bits w 30 29 ≠ 3 := by decide +kernel

theorem meets_EpochsAndPortSetup_7 :
    let p : Fin 4 := 1
    let v : Word := 0xE000003C
    let s : State := live
    let w := v.toNat
    (s.portUsed p.val = true ∨ bits w 30 29 = 3) := by decide +kernel

/-! ### TriggersWork -/

theorem meets_TriggersWork_0 :
    let fn : Func := 1
    let m : Fin 64 := 5
    let v : Word := 0x82001003
    let s : State := tenant.setStation 1 { station with owner := 1 }
    let w := v.toNat
    let o := s.getF .POS_TRG_STAT_OWNER m.val
    let mine := o = 0xFF ∨ o = fn.val
    Hosted s fn.val ∧ mine ∧ s.trgTarget fn.val w = true ∧ bits w 27 24 < 9 ∧ w % 256 ≠ 0 := by
  delta Hosted; dsimp only; decide +kernel

theorem meets_TriggersWork_1 :
    let fn : Func := 1
    let m : Fin 64 := 5
    let v : Word := 0x82001003
    let s : State := tenant.setStation 1 station
    let w := v.toNat
    let o := s.getF .POS_TRG_STAT_OWNER m.val
    let mine := o = 0xFF ∨ o = fn.val
    Hosted s fn.val ∧ mine ∧ s.trgTarget fn.val w = false := by delta Hosted; dsimp only; decide +kernel

theorem meets_TriggersWork_2 :
    let fn : Func := 1
    let m : Fin 64 := 5
    let s : State := tenant
    let o := s.getF .POS_TRG_STAT_OWNER m.val
    let mine := o = 0xFF ∨ o = fn.val
    Hosted s fn.val ∧ mine := by delta Hosted; dsimp only; decide +kernel

theorem meets_TriggersWork_6 :
    let fn : Func := 1
    let m : Fin 64 := 5
    let s : State := tenant.setF .POS_TRG_STAT_OWNER 5 0
    let o := s.getF .POS_TRG_STAT_OWNER m.val
    let mine := o = 0xFF ∨ o = fn.val
    Hosted s fn.val ∧ (¬ mine) ∧ fn.val ≠ 0 := by delta Hosted; dsimp only; decide +kernel

theorem meets_TriggersWork_7 :
    let fn : Func := 1
    let m : Fin 64 := 5
    let s : State := tenant.setF .POS_TRG_STAT_OWNER 5 1
    let o := s.getF .POS_TRG_STAT_OWNER m.val
    let mine := o = 0xFF ∨ o = fn.val
    Hosted s fn.val ∧ (fn.val = 0 ∨ mine) := by delta Hosted; dsimp only; decide +kernel

theorem meets_TriggersWork_8 :
    let fn : Func := 1
    let m : Fin 64 := 5
    let s : State := tenant.setF .POS_TRG_STAT_OWNER 5 1
    let o := s.getF .POS_TRG_STAT_OWNER m.val
    let mine := o = 0xFF ∨ o = fn.val
    Hosted s fn.val ∧ mine ∧ s.bit .POS_TRG_CFG_EN m.val = false := by delta Hosted; dsimp only; decide +kernel

theorem meets_TriggersWork_9 :
    let fn : Func := 1
    let m : Fin 64 := 5
    let s : State := (tenant.setF .POS_TRG_STAT_OWNER 5 1).setF .POS_TRG_CFG_EN 5 1
    let o := s.getF .POS_TRG_STAT_OWNER m.val
    Hosted s fn.val ∧ o = fn.val ∧ s.bit .POS_TRG_CFG_EN m.val = true := by delta Hosted; decide +kernel

theorem meets_TriggersWork_10 :
    let now : Nat := 2000000
    let m : Fin 64 := 5
    let s : State := (((tenant.setF .POS_TRG_STAT_OWNER 5 1).setF .POS_TRG_CFG_EN 5 1).setF .POS_TRG_CFG_ACTION 5 1).setCtx 0
      { openCtx with hold := true, owner := 1 }
    let n := m.val
    (s.advance now).trgDue n = true := by decide +kernel

theorem meets_TriggersWork_11 :
    let fn : Func := 0
    let ctx : Ctx := 3
    let s : State := gate openCtx
    let x := s.ctx ctx.val
    Hosted s fn.val ∧ x.state = 1 ∧ (fn.val = 0 ∨ x.owner = fn.val) := by delta Hosted; decide +kernel

theorem meets_TriggersWork_12 :
    let fn : Func := 1
    let ctx : Ctx := 3
    let s : State := (gate openCtx).setFn 1 { Function.reset with enabled := true }
    let x := s.ctx ctx.val
    Hosted s fn.val ∧ fn.val ≠ 0 ∧ (x.state = 0 ∨ x.owner ≠ fn.val) := by delta Hosted; decide +kernel

/-! ### WatchPins -/

theorem meets_WatchPins_0 :
    let now : Nat := 2000000
    let s : State := { live with wioDown := true }
    s.time ≤ now ∧ s.wioDown = true := by decide +kernel

theorem meets_WatchPins_2 :
    let now : Nat := 64000000
    let n : Fin 4 := 2
    let s : State := { live.setF .WIO_WINCFG_DISC 2 64 with wins := [(2, { Win.reset with differ := some 0, safe := none })] }
    let t0 := (0 : Nat)
    s.time ≤ now ∧ (s.win n.val).differ = some t0 ∧ t0 + s.discTime n.val ≤ now ∧ s.bit .WIO_WINSTAT_FAULT n.val = false ∧
      s.wioDown = false := by
  decide +kernel

theorem meets_WatchPins_3 :
    let now : Nat := 10000000
    let n : Fin 4 := 2
    let s : State := live.setF .WIO_WINSTAT_FAULT 2 1
    let t0 := (0 : Nat)
    s.time ≤ now ∧ (s.win n.val).safe = some t0 ∧ t0 + 10000000 ≤ now := by decide +kernel

theorem meets_WatchPins_4 :
    let now : Nat := 2000000
    let n : Fin 4 := 2
    let s : State := (live.setF .WIO_WINSTAT_FAULT 2 1).setF .WIO_WINSTAT_CLRREADY 2 1
    s.time ≤ now ∧ s.bit .WIO_WINSTAT_CLRREADY n.val = true ∧ s.bit .WIO_WINSTAT_FAULT n.val = true := by
  decide +kernel

theorem meets_WatchPins_5 :
    let now : Nat := 2000000
    let n : Fin 4 := 0
    let s : State := live
    s.time ≤ now ∧ (s.bit .WIO_WINSTAT_CLRREADY n.val = false ∨ s.bit .WIO_WINSTAT_FAULT n.val = false) := by
  decide +kernel

theorem meets_WatchPins_6 :
    let now : Nat := 2000000
    let n : Fin 4 := 0
    let s : State := live
    s.time ≤ now ∧ (∀ e, e ∈ s.wrules → ¬ (e.2.valid = true ∧ e.2.inhibit = n.val)) ∧ s.bit .WIO_WINSTAT_FAULT n.val = false :=
      by
  decide +kernel

theorem meets_WatchPins_7 :
    let now : Nat := 2000000
    let n : Fin 4 := 2
    let s : State := live.setF .WIO_WINSTAT_FAULT 2 1
    s.time ≤ now ∧ (s.bit .WIO_WINSTAT_FAULT n.val = true ∨ s.wrules.any (fun e => e.2.valid && e.2.inhibit == n.val) = true)
      := by
  decide +kernel

theorem meets_WatchPins_8 :
    let now : Nat := 2000000
    let r : Fin 32 := 4
    let s : State := { live with wrules := [(4, { WRule.free with valid := true, outmask := 1, hold := 5, till := some 100 })] }
    let e : Nat := 100
    (s.wrule r.val).till = some e ∧ e ≤ now ∧ s.time ≤ now := by decide +kernel

theorem meets_WatchPins_9 :
    let now : Nat := 2000000
    let n : Fin 8 := 3
    let s : State := ({ live with lc := [(2, [{ value := 0xFF, ok := true }])] } : State).setF .WIO_WOUTCFG_FORCE 3 1
    (s.advance now).asserted n.val = true ∧ (s.outMark n.val).since + 1000 ≤ now ∧ s.time ≤ now := by decide +kernel

theorem meets_WatchPins_10 :
    let now : Nat := 2000000
    let n : Fin 8 := 0
    let pin : Bool := false
    let s : State := live
    (s.setting 2).testBit n.val = true ∧ s.wioDown = false ∧ s.getF .WIO_WOUTSTAT_FAULT n.val = 0 ∧ pin = (s.advance
      now).asserted n.val ∧ (s.outMark n.val).since + 2000 < now ∧ s.time ≤ now := by
  decide +kernel

theorem meets_WatchPins_11 :
    let now : Nat := 2000000
    let n : Fin 8 := 3
    let pin : Bool := false
    let s : State := live
    let x := s.outMark n.val
    let f := s.getF .WIO_WOUTSTAT_FAULT n.val
    (x.fired.map tickOf = some (tickOf (max s.time now)) ∨ f = 0 ∨ (f = 2 ∧ pin = (s.advance now).asserted n.val)) := by
  decide +kernel

theorem meets_WatchPins_12 :
    let now : Nat := 2000000
    let n : Fin 8 := 3
    let pin : Bool := true
    let s : State := ({ live with lc := [(2, [{ value := 0xFF, ok := true }])] } : State).setF .WIO_WOUTSTAT_FAULT 3 2
    let x := s.outMark n.val
    let f := s.getF .WIO_WOUTSTAT_FAULT n.val
    x.fired.map tickOf ≠ some (tickOf (max s.time now)) ∧ ((f = 2 ∧ pin ≠ (s.advance now).asserted n.val) ∨ (f = 1 ∧ ∀ c,
      x.cleared = some c → tickOf c.1 ≠ tickOf (max s.time now) ∨ c.2.1 = false)) := by
  decide +kernel

/-! ### SequencerArithmetic -/

theorem meets_SequencerArithmetic_0 :
    let cl : Cluster := 0
    let th : Thread := 0
    let w : Word := 0x0
    let s : State := seq
    let i := thIx cl th
    Issues s i 0x00 w 1 := by delta Issues; decide +kernel

theorem meets_SequencerArithmetic_1 :
    let cl : Cluster := 0
    let th : Thread := 0
    let w : Word := 0x4061ffb
    let s : State := seq
    let i := thIx cl th
    Issues s i 0x01 w 1 := by delta Issues; decide +kernel

theorem meets_SequencerArithmetic_2 :
    let cl : Cluster := 0
    let th : Thread := 0
    let w : Word := 0x8068001
    let s : State := seq
    let i := thIx cl th
    Issues s i 0x02 w 1 := by delta Issues; decide +kernel

theorem meets_SequencerArithmetic_3 :
    let cl : Cluster := 0
    let th : Thread := 0
    let w : Word := 0xc068a00
    let s : State := seq
    let i := thIx cl th
    Issues s i 0x03 w 1 := by delta Issues; decide +kernel

theorem meets_SequencerArithmetic_4 :
    let cl : Cluster := 0
    let th : Thread := 0
    let w : Word := 0x10068a00
    let s : State := seq
    let i := thIx cl th
    Issues s i 0x04 w 1 := by delta Issues; decide +kernel

theorem meets_SequencerArithmetic_5 :
    let cl : Cluster := 0
    let th : Thread := 0
    let w : Word := 0x14068a00
    let s : State := seq
    let i := thIx cl th
    Issues s i 0x05 w 1 := by delta Issues; decide +kernel

theorem meets_SequencerArithmetic_6 :
    let cl : Cluster := 0
    let th : Thread := 0
    let w : Word := 0x18068a00
    let s : State := seq
    let i := thIx cl th
    Issues s i 0x06 w 1 := by delta Issues; decide +kernel

theorem meets_SequencerArithmetic_7 :
    let cl : Cluster := 0
    let th : Thread := 0
    let w : Word := 0x1c068a00
    let s : State := seq
    let i := thIx cl th
    Issues s i 0x07 w 1 := by delta Issues; decide +kernel

theorem meets_SequencerArithmetic_8 :
    let cl : Cluster := 0
    let th : Thread := 0
    let w : Word := 0x20067fff
    let s : State := seq
    let i := thIx cl th
    Issues s i 0x08 w 1 := by delta Issues; decide +kernel

theorem meets_SequencerArithmetic_9 :
    let cl : Cluster := 0
    let th : Thread := 0
    let w : Word := 0x2406801f
    let s : State := seq
    let i := thIx cl th
    let f := fieldsOf w
    Issues s i 0x09 w 1 ∧ 0 ≤ f.imm13 ∧ f.imm13 ≤ 31 := by delta Issues; decide +kernel

theorem meets_SequencerArithmetic_10 :
    let cl : Cluster := 0
    let th : Thread := 0
    let w : Word := 0x2806801f
    let s : State := seq
    let i := thIx cl th
    let f := fieldsOf w
    Issues s i 0x0A w 1 ∧ 0 ≤ f.imm13 ∧ f.imm13 ≤ 31 := by delta Issues; decide +kernel

/-! ### SequencerFlow -/

theorem meets_SequencerFlow_0 :
    let cl : Cluster := 0
    let th : Thread := 0
    let w : Word := 0x24069fff
    let s : State := seq
    let i := thIx cl th
    let f := fieldsOf w
    Issues s i 0x09 w 1 ∧ (¬ (0 ≤ f.imm13 ∧ f.imm13 ≤ 31)) := by delta Issues; decide +kernel

theorem meets_SequencerFlow_1 :
    let cl : Cluster := 0
    let th : Thread := 0
    let w : Word := 0x28068020
    let s : State := seq
    let i := thIx cl th
    let f := fieldsOf w
    Issues s i 0x0A w 1 ∧ (¬ (0 ≤ f.imm13 ∧ f.imm13 ≤ 31)) := by delta Issues; decide +kernel

theorem meets_SequencerFlow_2 :
    let cl : Cluster := 0
    let th : Thread := 0
    let w : Word := 0x2c144807
    let s : State := seq
    let i := thIx cl th
    let f := fieldsOf w
    let x := f.low
    Issues s i 0x0B w 1 ∧ Sys2Proof.Machine.condHolds (bits x 2 0) (s.greg i (bits x 17 14)) (s.greg i (bits x 13 10)) = none
      := by
  delta Issues; decide +kernel

theorem meets_SequencerFlow_3 :
    let cl : Cluster := 0
    let th : Thread := 0
    let w : Word := 0x2c144806
    let s : State := seq
    let i := thIx cl th
    let f := fieldsOf w
    let x := f.low
    let v := true
    Issues s i 0x0B w 1 ∧ Sys2Proof.Machine.condHolds (bits x 2 0) (s.greg i (bits x 17 14)) (s.greg i (bits x 13 10)) = some v
      := by
  delta Issues; decide +kernel

theorem meets_SequencerFlow_4 :
    let cl : Cluster := 0
    let th : Thread := 0
    let w : Word := 0x3014a003
    let s : State := seq
    let i := thIx cl th
    Issues s i 0x0C w 1 := by delta Issues; decide +kernel

theorem meets_SequencerFlow_5 :
    let cl : Cluster := 0
    let th : Thread := 0
    let w : Word := 0x840a000f
    let s : State := seq
    let i := thIx cl th
    Issues s i 0x21 w 1 := by delta Issues; decide +kernel

theorem meets_SequencerFlow_6 :
    let cl : Cluster := 0
    let th : Thread := 0
    let w : Word := 0x880a0000
    let s : State := seq
    let i := thIx cl th
    let f := fieldsOf w
    let x := f.low
    Issues s i 0x22 w 1 ∧ bits x 2 0 = 0 := by delta Issues; decide +kernel

theorem meets_SequencerFlow_7 :
    let cl : Cluster := 0
    let th : Thread := 0
    let w : Word := 0x880a0001
    let s : State := seq
    let i := thIx cl th
    let f := fieldsOf w
    let x := f.low
    Issues s i 0x22 w 1 ∧ bits x 2 0 = 1 := by delta Issues; decide +kernel

theorem meets_SequencerFlow_8 :
    let cl : Cluster := 0
    let th : Thread := 0
    let w : Word := 0x880a0005
    let s : State := seq
    let i := thIx cl th
    let f := fieldsOf w
    let x := f.low
    Issues s i 0x22 w 1 ∧ 2 ≤ bits x 2 0 ∧ bits x 2 0 ≤ 5 := by delta Issues; decide +kernel

theorem meets_SequencerFlow_9 :
    let cl : Cluster := 0
    let th : Thread := 0
    let w : Word := 0x880a0006
    let s : State := seq
    let i := thIx cl th
    let f := fieldsOf w
    let x := f.low
    Issues s i 0x22 w 1 ∧ bits x 2 0 = 6 := by delta Issues; decide +kernel

theorem meets_SequencerFlow_10 :
    let cl : Cluster := 0
    let th : Thread := 0
    let w : Word := 0x880a0007
    let s : State := seq
    let i := thIx cl th
    let f := fieldsOf w
    let x := f.low
    Issues s i 0x22 w 1 ∧ bits x 2 0 = 7 := by delta Issues; decide +kernel

theorem meets_SequencerFlow_11 :
    let cl : Cluster := 0
    let th : Thread := 0
    let w : Word := 0x94000009
    let s : State := seq
    let i := thIx cl th
    Issues s i 0x25 w 1 := by delta Issues; decide +kernel

theorem meets_SequencerFlow_12 :
    let cl : Cluster := 0
    let th : Thread := 0
    let w : Word := 0xfc000000
    let s : State := seq
    let i := thIx cl th
    Issues s i 0x3F w 1 := by delta Issues; decide +kernel

theorem meets_SequencerFlow_13 :
    let cl : Cluster := 0
    let th : Thread := 0
    let w : Word := 0x401ffffc
    let s : State := seq
    let i := thIx cl th
    let f := fieldsOf w
    let br := target (s.pc i) f.off21
    Issues s i 0x10 w 1 ∧ br.2 = true ∧ s.inRegion i br.1 = true := by delta Issues; decide +kernel

theorem meets_SequencerFlow_14 :
    let cl : Cluster := 0
    let th : Thread := 0
    let w : Word := 0x44040001
    let s : State := seq.setF .CSQ_TH_GREG_VALUE 2 1
    let i := thIx cl th
    let f := fieldsOf w
    Issues s i 0x11 w 1 ∧ s.greg i f.rd = 1 := by delta Issues; decide +kernel

theorem meets_SequencerFlow_15 :
    let cl : Cluster := 0
    let th : Thread := 0
    let w : Word := 0x44000060
    let s : State := seq
    let i := thIx cl th
    let f := fieldsOf w
    let lp := target (s.pc i) f.off17
    Issues s i 0x11 w 1 ∧ s.greg i f.rd ≠ 1 ∧ lp.2 = true ∧ s.inRegion i lp.1 = true := by
  delta Issues; decide +kernel

theorem meets_SequencerFlow_16 :
    let cl : Cluster := 0
    let th : Thread := 0
    let w : Word := 0x4800c000
    let s : State := seq
    let i := thIx cl th
    let f := fieldsOf w
    let jr := (s.greg i f.ra).toNat % 16384
    Issues s i 0x12 w 1 ∧ s.inRegion i jr = true := by delta Issues; decide +kernel

theorem meets_SequencerFlow_17 :
    let cl : Cluster := 0
    let th : Thread := 0
    let w : Word := 0x4800e000
    let s : State := seq
    let i := thIx cl th
    let f := fieldsOf w
    let jr := (s.greg i f.ra).toNat % 16384
    Issues s i 0x12 w 1 ∧ s.inRegion i jr = false ∧ s.bit .CSQ_TH_EXC_VALID i = false := by
  delta Issues; decide +kernel

/-! ### SequencerMemory -/

theorem meets_SequencerMemory_0 :
    let cl : Cluster := 0
    let th : Thread := 0
    let w : Word := 0x50068003
    let s : State := seq
    let x : Nat := (seqSpan 0 76 4).getD 0
    let i := thIx cl th
    let f := fieldsOf w
    let a := s.ldAddr i f
    s.ldCheck i a = .inl x ∧ (∀ k, k ∈ wordsOf x 4 → s.syndrome k = 0) ∧ x % 4 = 0 ∧ Issues s i 0x14 w 1 := by
  delta Issues; decide +kernel

theorem meets_SequencerMemory_1 :
    let cl : Cluster := 0
    let th : Thread := 0
    let w : Word := 0x54068003
    let s : State := seq
    let x : Nat := (seqSpan 0 76 4).getD 0
    let i := thIx cl th
    let f := fieldsOf w
    let a := s.ldAddr i f
    s.ldCheck i a = .inl x ∧ (∀ k, k ∈ wordsOf x 4 → s.syndrome k = 0) ∧ x % 4 = 0 ∧ Issues s i 0x15 w 1 := by
  delta Issues; decide +kernel

theorem meets_SequencerMemory_2 :
    let cl : Cluster := 0
    let th : Thread := 0
    let w : Word := 0x50068003
    let s : State := seq.setF .CSQ_TH_GREG_VALUE 4 65
    let i := thIx cl th
    let f := fieldsOf w
    let a := s.ldAddr i f
    let code := (seq.setF .CSQ_TH_GREG_VALUE 4 65).ldCheck 0 77 |>.elim (fun _ => 0) id
    s.ldCheck i a = .inr code ∧ s.bit .CSQ_TH_EXC_VALID i = false ∧ a % 4 ≠ 0 := by decide +kernel

theorem meets_SequencerMemory_3 :
    let cl : Cluster := 0
    let th : Thread := 0
    let w : Word := 0x50068003
    let s : State := seq.setF .CSQ_TH_GREG_VALUE 4 0x7FFFFFF0
    let i := thIx cl th
    let f := fieldsOf w
    let a := s.ldAddr i f
    let code := (seq.setF .CSQ_TH_GREG_VALUE 4 0x7FFFFFF0).ldCheck 0 0x7FFFFFFC |>.elim (fun _ => 0) id
    s.ldCheck i a = .inr code ∧ s.bit .CSQ_TH_EXC_VALID i = false ∧ Issues s i 0x14 w 1 := by
  delta Issues; decide +kernel

theorem meets_SequencerMemory_4 :
    let cl : Cluster := 0
    let th : Thread := 0
    let w : Word := 0x54068003
    let s : State := seq.setF .CSQ_TH_GREG_VALUE 4 0x7FFFFFF0
    let i := thIx cl th
    let f := fieldsOf w
    let a := s.ldAddr i f
    let code := (seq.setF .CSQ_TH_GREG_VALUE 4 0x7FFFFFF0).ldCheck 0 0x7FFFFFFC |>.elim (fun _ => 0) id
    s.ldCheck i a = .inr code ∧ s.bit .CSQ_TH_EXC_VALID i = false ∧ Issues s i 0x15 w 1 := by
  delta Issues; decide +kernel

theorem meets_SequencerMemory_5 :
    let cl : Cluster := 0
    let th : Thread := 0
    let w : Word := 0x58090400
    let s : State := seq
    let p : Nat × Nat := ((seqSpan 0 64 32).getD 0, (seqSpan 0 128 32).getD 0)
    let i := thIx cl th
    let f := fieldsOf w
    Issues s i 0x16 w 1 ∧ s.copyCheck i (s.greg i f.rd).toNat (s.greg i f.ra).toNat (s.greg i f.rb).toNat = .inl p := by
  delta Issues; decide +kernel

theorem meets_SequencerMemory_6 :
    let cl : Cluster := 0
    let th : Thread := 0
    let s : State := (seq.setF .CSQ_TH_STAT_STATE 0 3).setThread 0 { ThreadState.idle with wait := .copy 0x40 0x80 64 }
    let dst : Nat := 0x40
    let src : Nat := 0x80
    let len : Nat := 64
    let i := thIx cl th
    (s.thread i).wait = .copy dst src len ∧ s.sharedOn cl.val = true ∧ s.memOn dst = true ∧ s.memOn src = true := by
  decide +kernel

theorem meets_SequencerMemory_7 :
    let cl : Cluster := 0
    let th : Thread := 0
    let s : State := ((seq.setF .CSQ_TH_STAT_STATE 0 3).setThread 0 { ThreadState.idle with wait := .copy (cmBase 8) 0x80 64 })
    let dst : Nat := cmBase 8
    let src : Nat := 0x80
    let len : Nat := 64
    let i := thIx cl th
    (s.thread i).wait = .copy dst src len ∧ s.sharedOn cl.val = true ∧ (s.memOn dst = false ∨ s.memOn src = false) := by
  decide +kernel

theorem meets_SequencerMemory_8 :
    let cl : Cluster := 0
    let th : Thread := 0
    let w : Word := 0x800bc001
    let s : State := seq.setStation 1 station
    let i := thIx cl th
    let f := fieldsOf w
    let st := bits f.low 11 0
    let y := s.station st
    let a := descAddr y.core y.d + 4 * (24 + bits f.low 16 14)
    Issues s i 0x20 w 1 ∧ s.stationCheck i st false = none ∧ hasDesc y.kind = true ∧ s.coreOn y.core = true ∧ (∀ k, k ∈ wordsOf
      a 4 → s.syndrome k = 0) := by
  delta Issues; decide +kernel

theorem meets_SequencerMemory_9 :
    let cl : Cluster := 0
    let th : Thread := 0
    let w : Word := 0x800bc001
    let s : State := seq.setStation 1 { station with kind := 7 }
    let i := thIx cl th
    let f := fieldsOf w
    let st := bits f.low 11 0
    let y := s.station st
    Issues s i 0x20 w 1 ∧ s.stationCheck i st false = none ∧ (hasDesc y.kind = false ∨ s.coreOn y.core = false) := by
  delta Issues; decide +kernel

/-! ### SequencerStationsAndEpochs -/

theorem meets_SequencerStationsAndEpochs_0 :
    let now : Nat := 2000000
    let cl : Cluster := 0
    let th : Thread := 0
    let w : Word := 0x60150001
    let s : State := seq.setStation 1 station
    let i := thIx cl th
    let x := (fieldsOf w).low
    let st := bits x 11 0
    let y := s.station st
    let parked := y.state = 3 ∨ (y.holds ≠ [] ∧ y.parkAt = max s.time now + 1)
    Issues s i 0x18 w 1 ∧ s.stationCheck i st true = none ∧ (¬ parked) := by delta Issues; decide +kernel

theorem meets_SequencerStationsAndEpochs_1 :
    let now : Nat := 2000000
    let cl : Cluster := 0
    let th : Thread := 0
    let w : Word := 0x60150001
    let s : State := seq.setStation 1 { station with state := 3, holds := [.level1] }
    let i := thIx cl th
    let x := (fieldsOf w).low
    let st := bits x 11 0
    let y := s.station st
    let parked := y.state = 3 ∨ (y.holds ≠ [] ∧ y.parkAt = max s.time now + 1)
    Issues s i 0x18 w 1 ∧ s.stationCheck i st true = none ∧ parked ∧ s.bit .CSQ_TH_REGION_STRICT i = false := by
  delta Issues; decide +kernel

theorem meets_SequencerStationsAndEpochs_3 :
    let cl : Cluster := 0
    let th : Thread := 0
    let w : Word := 0x64040001
    let w2 : Word := 2
    let s : State := placed.setF .CSQ_TH_STAT_STATE 0 2 |>.setF .CSQ_TH_REGION_LAST 0 100
    let i := thIx cl th
    let x := (fieldsOf w).low
    let c := bits x 20 18
    let port := bits x 17 15
    let st := bits x 11 0
    let k := bits w2.toNat 15 0
    Issues s i 0x19 w 2 ∧ waitBad c port k = false ∧ s.stationCheck i st (decide (2 ≤ c)) = none ∧ (c < 2 → port < (if c = 0
      then s.inRings st else s.outRings st).length) ∧ s.condHolds c port st k = true := by
  delta Issues; decide +kernel

theorem meets_SequencerStationsAndEpochs_4 :
    let cl : Cluster := 0
    let th : Thread := 0
    let w : Word := 0x64000001
    let w2 : Word := 2
    let s : State := placed.setF .CSQ_TH_STAT_STATE 0 2 |>.setF .CSQ_TH_REGION_LAST 0 100
    let i := thIx cl th
    let x := (fieldsOf w).low
    let c := bits x 20 18
    let port := bits x 17 15
    let st := bits x 11 0
    let k := bits w2.toNat 15 0
    Issues s i 0x19 w 2 ∧ waitBad c port k = false ∧ s.stationCheck i st (decide (2 ≤ c)) = none ∧ (c < 2 → port < (if c = 0
      then s.inRings st else s.outRings st).length) ∧ s.condHolds c port st k = false := by
  delta Issues; decide +kernel

theorem meets_SequencerStationsAndEpochs_5 :
    let now : Nat := 2000000
    let cl : Cluster := 0
    let th : Thread := 0
    let s : State := (waiting (.cond 2 0 1 0 none) inst).setStation 1 { station with grants := 0 }
    let c : Nat := 2
    let port : Nat := 0
    let st : Nat := 1
    let k : Nat := 0
    let till : Option Nat := none
    let i := thIx cl th
    let v := s.thread i
    v.wait = .cond c port st k till ∧ (s.advance now).condHolds c port st k = true := by decide +kernel

theorem meets_SequencerStationsAndEpochs_6 :
    let now : Nat := 2000000
    let cl : Cluster := 0
    let th : Thread := 0
    let s : State := (waiting (.cond 2 0 1 0 (some 5)) inst).setStation 1 { station with grants := 2 }
    let c : Nat := 2
    let port : Nat := 0
    let st : Nat := 1
    let k : Nat := 0
    let till : Option Nat := some 5
    let i := thIx cl th
    let v := s.thread i
    let e := (5 : Nat)
    v.wait = .cond c port st k till ∧ till = some e ∧ e ≤ now ∧ (s.advance now).condHolds c port st k = false := by
  decide +kernel

theorem meets_SequencerStationsAndEpochs_7 :
    let cl : Cluster := 0
    let th : Thread := 0
    let w : Word := 0x70080003
    let s : State := (seq.setStation 1 station).setCtx 3 { openCtx with epoch := 100 }
    let i := thIx cl th
    let f := fieldsOf w
    let c := bits f.low 6 0
    let x := s.ctx c
    let e := (s.greg i f.rd).toNat
    (x.state = 0 ∨ x.owner = s.thOwner i) ∧ Issues s i 0x1C w 1 ∧ x.state = 1 ∧ reached e x.epoch = true := by
  delta Issues; decide +kernel

theorem meets_SequencerStationsAndEpochs_8 :
    let cl : Cluster := 0
    let th : Thread := 0
    let w : Word := 0x700e0003
    let s : State := (seq.setStation 1 station).setCtx 3 { openCtx with epoch := 100 }
    let i := thIx cl th
    let f := fieldsOf w
    let c := bits f.low 6 0
    let x := s.ctx c
    let e := (s.greg i f.rd).toNat
    (x.state = 0 ∨ x.owner = s.thOwner i) ∧ Issues s i 0x1C w 1 ∧ x.state = 1 ∧ reached e x.epoch = false := by
  delta Issues; decide +kernel

theorem meets_SequencerStationsAndEpochs_9 :
    let cl : Cluster := 0
    let th : Thread := 0
    let w : Word := 0x700e0003
    let s : State := seq
    let i := thIx cl th
    let f := fieldsOf w
    let c := bits f.low 6 0
    let x := s.ctx c
    (x.state = 0 ∨ x.owner = s.thOwner i) ∧ Issues s i 0x1C w 1 ∧ x.state ≠ 1 := by delta Issues; decide +kernel

theorem meets_SequencerStationsAndEpochs_10 :
    let cl : Cluster := 0
    let th : Thread := 0
    let w : Word := 0x7408a003
    let w2 : Word := 1
    let s : State := (seq.setStation 1 station).setCtx 3 { openCtx with epoch := 100 }
    let i := thIx cl th
    let f := fieldsOf w
    let c := bits f.low 6 0
    let x := s.ctx c
    let e := (s.greg i f.rd).toNat
    let st := bits w2.toNat 11 0
    (x.state = 0 ∨ x.owner = s.thOwner i) ∧ Issues s i 0x1D w 2 ∧ w2.toNat < 4096 ∧ s.stationCheck i st true = none ∧ x.state =
      1 ∧ reached e x.epoch = true := by
  delta Issues; decide +kernel

theorem meets_SequencerStationsAndEpochs_11 :
    let cl : Cluster := 0
    let th : Thread := 0
    let w : Word := 0x740ea003
    let w2 : Word := 1
    let s : State := (seq.setStation 1 station).setCtx 3 { openCtx with epoch := 100 }
    let i := thIx cl th
    let f := fieldsOf w
    let c := bits f.low 6 0
    let x := s.ctx c
    let e := (s.greg i f.rd).toNat
    let st := bits w2.toNat 11 0
    (x.state = 0 ∨ x.owner = s.thOwner i) ∧ Issues s i 0x1D w 2 ∧ w2.toNat < 4096 ∧ s.stationCheck i st true = none ∧ x.state =
      1 ∧ reached e x.epoch = false ∧ (s.thread i).armed.length < 16 := by
  delta Issues; decide +kernel

theorem meets_SequencerStationsAndEpochs_12 :
    let cl : Cluster := 0
    let th : Thread := 0
    let w : Word := 0x740ea003
    let w2 : Word := 1
    let s : State := seq.setStation 1 station
    let i := thIx cl th
    let f := fieldsOf w
    let c := bits f.low 6 0
    let x := s.ctx c
    let e := (s.greg i f.rd).toNat
    let st := bits w2.toNat 11 0
    (x.state = 0 ∨ x.owner = s.thOwner i) ∧ Issues s i 0x1D w 2 ∧ w2.toNat < 4096 ∧ s.stationCheck i st true = none ∧ (x.state
      ≠ 1 ∨ (reached e x.epoch = false ∧ 16 ≤ (s.thread i).armed.length)) ∧ s.bit .CSQ_TH_REGION_STRICT i = false := by
  delta Issues; decide +kernel

/-! ### SequencerGroups -/

theorem meets_SequencerGroups_0 :
    let cl : Cluster := 0
    let th : Thread := 0
    let w : Word := 0x68000002
    let s : State := seq.setGroup 2 group
    let i := thIx cl th
    let x := (fieldsOf w).low
    let g := bits x 5 0
    Issues s i 0x1A w 1 ∧ s.groupBad i g (bits x 20 19) = false ∧ s.missed i g = false := by
  delta Issues; decide +kernel

theorem meets_SequencerGroups_1 :
    let cl : Cluster := 0
    let th : Thread := 0
    let w : Word := 0x68000002
    let s : State := seq.setGroup 2 { group with count := 1 }
    let i := thIx cl th
    let x := (fieldsOf w).low
    let g := bits x 5 0
    Issues s i 0x1A w 1 ∧ s.groupBad i g (bits x 20 19) = false ∧ s.missed i g = true := by
  delta Issues; decide +kernel

theorem meets_SequencerGroups_2 :
    let now : Nat := 2000000
    let g : Fin 64 := 2
    let s : State := waiting (.group 2 none) inst
    let b : BarInst := inst
    let u := (s.advance now).sendRounds g.val
    let x := u.group g.val
    x.inst = some b ∧ u.allHere x b = true ∧ x.roundsIn b = true ∧ u.bcastIn b = false ∧ u.snapIn b = false := by
  decide +kernel

theorem meets_SequencerGroups_3 :
    let now : Nat := 2000000
    let g : Fin 64 := 2
    let s : State := waiting (.group 2 none) inst
    let b : BarInst := inst
    let x := s.group g.val
    x.inst = some b ∧ b.first + 1000 * x.timeout ≤ max s.time now := by decide +kernel

theorem meets_SequencerGroups_4 :
    let cl : Cluster := 0
    let th : Thread := 0
    let w : Word := 0x6c090002
    let s : State := seq.setGroup 2 group
    let i := thIx cl th
    let f := fieldsOf w
    let g := bits f.low 5 0
    let root := f.low.testBit 16
    let rooted := match (s.group g).inst with | some b => b.value.isSome | none => (s.group g).earlyVal.isSome
    Issues s i 0x1B w 1 ∧ s.groupBad i g 4 = false ∧ s.missed i g = false ∧ (root && rooted) = false := by
  delta Issues; decide +kernel

theorem meets_SequencerGroups_5 :
    let cl : Cluster := 0
    let th : Thread := 0
    let w : Word := 0x6c090002
    let s : State := seq.setGroup 2 { group with earlyVal := some 9#32 }
    let i := thIx cl th
    let f := fieldsOf w
    let g := bits f.low 5 0
    let root := f.low.testBit 16
    let rooted := match (s.group g).inst with | some b => b.value.isSome | none => (s.group g).earlyVal.isSome
    Issues s i 0x1B w 1 ∧ s.groupBad i g 4 = false ∧ s.missed i g = false ∧ (root && rooted) = true ∧ s.bit .CSQ_TH_EXC_VALID i
      = false := by
  delta Issues; decide +kernel

theorem meets_SequencerGroups_6 :
    let now : Nat := 2000000
    let g : Fin 64 := 2
    let s : State := (waiting (.group 2 (some 5)) { inst with value := some 9#32 }).setF .CSQ_TH_STAT_WAITKIND 0 3
    let b : BarInst := { inst with value := some 9#32 }
    let v : Word := 9
    let u := (s.advance now).sendRounds g.val
    let x := u.group g.val
    x.inst = some b ∧ b.value = some v ∧ u.allHere x b = true ∧ x.roundsIn b = true ∧ u.bcastIn b = true ∧ (∀ i k r, i ∈
      b.threads → (u.thread i).wait = .group k (some r) → r < 16) := by
  refine ⟨by decide +kernel, rfl, by decide +kernel, by decide +kernel, by decide +kernel, fun i k r hi hw => ?_⟩
  have h : i = 0 := by simpa [inst] using hi
  subst h
  have e : (((((waiting (.group 2 (some 5)) { inst with value := some 9#32 }).setF .CSQ_TH_STAT_WAITKIND 0 3).advance
      2000000).sendRounds 2).thread 0).wait = .group 2 (some 5) := by decide +kernel
  cases e.symm.trans hw
  decide

theorem meets_SequencerGroups_7 :
    let cl : Cluster := 0
    let th : Thread := 0
    let w : Word := 0x78000005
    let s : State := { seq.setGroup 2 group with sets := [(5, some snapSet)] }
    let d : SnapSet := snapSet
    let i := thIx cl th
    let n := bits (fieldsOf w).low 5 0
    Issues s i 0x1E w 1 ∧ smapGet none s.sets n = some d ∧ d.owner = s.thOwner i ∧ s.groupBad i d.group 4 = false ∧ s.missed i
      d.group = false := by
  delta Issues; decide +kernel

theorem meets_SequencerGroups_8 :
    let now : Nat := 2000000
    let cl : Cluster := 0
    let th : Thread := 0
    let s : State := { waiting (.snap 5) inst with sets := [(5, some snapSet)], snaps := [⟨5, 0⟩] }
    let n : Nat := 5
    let d : SnapSet := snapSet
    let b : BarInst := inst
    let i := thIx cl th
    let u := (s.advance now).sendRounds d.group
    let x := u.group d.group
    (s.thread i).wait = .snap n ∧ smapGet none s.sets n = some d ∧ x.inst = some b ∧ i ∈ b.threads ∧ u.allHere x b = true ∧
      x.roundsIn b = true := by
  decide +kernel

theorem meets_SequencerGroups_9 :
    let cl : Cluster := 0
    let th : Thread := 0
    let w : Word := 0x7c000001
    let s : State := seq
    let i := thIx cl th
    let x := (fieldsOf w).low
    let cores := ((List.range 8).filter (fun k => x.testBit k)).map (fun k => 8 * cl.val + k)
    Issues s i 0x1F w 1 ∧ (∀ c, c ∈ cores → ∃ p, s.part (s.thOwner i) = some p ∧ c ∈ p.cores) ∧ cores ≠ [] := by
  refine ⟨by delta Issues; decide +kernel, fun c hc => ⟨_, rfl, ?_⟩, by decide +kernel⟩
  have h : ∀ c, c ∈ ((List.range 8).filter (fun k => (fieldsOf 0x7c000001).low.testBit k)).map (fun k => 8 * (0 : Cluster).val
    + k) → c = 0 := by
    decide +kernel
  rw [h c hc]; decide

theorem meets_SequencerGroups_10 :
    let cl : Cluster := 0
    let th : Thread := 0
    let w : Word := 0x7c000000
    let s : State := seq
    let i := thIx cl th
    let x := (fieldsOf w).low
    let cores := ((List.range 8).filter (fun k => x.testBit k)).map (fun k => 8 * cl.val + k)
    Issues s i 0x1F w 1 ∧ (∀ c, c ∈ cores → ∃ p, s.part (s.thOwner i) = some p ∧ c ∈ p.cores) ∧ cores = [] := by
  refine ⟨by delta Issues; decide +kernel, fun c hc => ?_, by decide +kernel⟩
  have h : ((List.range 8).filter (fun k => (fieldsOf 0x7c000000).low.testBit k)).map (fun k => 8 * (0 : Cluster).val + k) = []
    := by
    decide +kernel
  exact absurd (h ▸ hc) List.not_mem_nil

theorem meets_SequencerGroups_11 :
    let now : Nat := 2000000
    let cl : Cluster := 0
    let th : Thread := 0
    let s : State := { waiting (.reset false [0]) inst with resets := [⟨0, false, [0]⟩] }
    let r : DomReset := ⟨0, false, [0]⟩
    let i := thIx cl th
    (s.resets.find? (fun q => q.th == i) = some r) ∧ (∀ c, c ∈ r.cores → (s.advance now).backInService r.cold c = true) := by
  decide +kernel

theorem meets_SequencerGroups_12 :
    let now : Nat := 2000000
    let cl : Cluster := 0
    let th : Thread := 0
    let w : Word := 0x901de006
    let s : State := posting
    let p : Partition := chanPart
    let i := thIx cl th
    let f := fieldsOf w
    let ch := bits f.low 5 0
    let ok := (s.advance now).mbxTakes ch && s.mbxBound ch && s.mbxSender ch == 0x10 + cl.val
    Issues s i 0x24 w 1 ∧ s.part (s.thOwner i) = some p ∧ (ch, i) ∈ p.chans ∧ ok = true := by
  delta Issues; decide +kernel

theorem meets_SequencerGroups_13 :
    let now : Nat := 2000000
    let cl : Cluster := 0
    let th : Thread := 0
    let w : Word := 0x901de006
    let s : State := posting.setF .MBX_CH_STAT_FULL 6 1
    let p : Partition := chanPart
    let i := thIx cl th
    let f := fieldsOf w
    let ch := bits f.low 5 0
    let ok := (s.advance now).mbxTakes ch && s.mbxBound ch && s.mbxSender ch == 0x10 + cl.val
    Issues s i 0x24 w 1 ∧ s.part (s.thOwner i) = some p ∧ (ch, i) ∈ p.chans ∧ ok = false := by
  delta Issues; decide +kernel

/-! ### ThreadsAndExceptions -/

theorem meets_ThreadsAndExceptions_0 :
    let fn : Func := 0
    let cl : Cluster := 0
    let th : Thread := 0
    let s : State := seq
    let i := 8 * cl.val + th.val
    let running := s.thState i = 2 ∨ (s.thState i = 3 ∧ s.midway i = false)
    Hosted s fn.val ∧ s.mayThread fn.val i = true ∧ s.sharedOn cl.val = true ∧ running := by
  delta Hosted; decide +kernel

theorem meets_ThreadsAndExceptions_1 :
    let fn : Func := 0
    let cl : Cluster := 0
    let th : Thread := 0
    let s : State := waiting (.copy 0x40 0x80 64) inst
    let i := 8 * cl.val + th.val
    Hosted s fn.val ∧ s.mayThread fn.val i = true ∧ s.sharedOn cl.val = true ∧ s.thState i = 3 ∧ s.midway i = true := by
  delta Hosted; decide +kernel

theorem meets_ThreadsAndExceptions_2 :
    let fn : Func := 0
    let cl : Cluster := 0
    let th : Thread := 0
    let s : State := seq.setF .CSQ_TH_STAT_STATE 0 4
    let i := 8 * cl.val + th.val
    Hosted s fn.val ∧ s.mayThread fn.val i = true ∧ s.sharedOn cl.val = true ∧ s.thState i ≠ 0 := by
  delta Hosted; decide +kernel

theorem meets_ThreadsAndExceptions_3 :
    let fn : Func := 1
    let cl : Cluster := 0
    let th : Thread := 0
    let s : State := tenant
    let i := 8 * cl.val + th.val
    Hosted s fn.val ∧ s.mayThread fn.val i = false := by delta Hosted; decide +kernel

theorem meets_ThreadsAndExceptions_5 :
    let cl : Cluster := 0
    let s : State := live
    s.sharedOn cl.val = true := by decide +kernel

theorem meets_ThreadsAndExceptions_6 :
    let cl : Cluster := 0
    let co : Core := 0
    let s : State := live
    s.coreOn (coreIx cl co) = true := by decide +kernel

theorem meets_ThreadsAndExceptions_7 :
    let s : State := seq.setF .CSQ_TH_PRED_P 0 0
    let i : Nat := 0
    let w : Word := 0x02000001
    let f := fieldsOf w
    s.thState i = 2 ∧ s.sharedOn (i / 8) = true ∧ s.inRegion i (s.pc i) = true ∧ f.g = true ∧ s.pred i f.p = f.n := by
  decide +kernel

theorem meets_ThreadsAndExceptions_8 :
    let s : State := seq
    let i : Nat := 0
    let w : Word := 0x34000000
    let f := fieldsOf w
    s.thState i = 2 ∧ s.sharedOn (i / 8) = true ∧ s.inRegion i (s.pc i) = true ∧ (f.g = false ∨ s.pred i f.p ≠ f.n) ∧
      (opcodes.contains f.op = false ∨ f.low &&& reservedMask f.op ≠ 0) := by
  decide +kernel

/-! ### MailboxChannels -/

theorem meets_MailboxChannels_0 :
    let v : Word := 0x80002030
    let s : State := live
    let snd := bits v.toNat 15 8
    let rcv := bits v.toNat 7 0
    s.bit .MBX_LOCK_LOCK 0 = false ∧ mbxSenderOk snd = true ∧ mbxReceiverOk rcv = true ∧ snd ≠ rcv := by
  decide +kernel

theorem meets_MailboxChannels_1 :
    let v : Word := 0
    let s : State := live
    let snd := bits v.toNat 15 8
    let rcv := bits v.toNat 7 0
    s.bit .MBX_LOCK_LOCK 0 = false ∧ (mbxSenderOk snd && mbxReceiverOk rcv && snd != rcv) = false := by decide +kernel

theorem meets_MailboxChannels_3 :
    let s : State := live.setF .MBX_LOCK_LOCK 0 1
    s.bit .MBX_LOCK_LOCK 0 = true := by decide +kernel

theorem meets_MailboxChannels_5 :
    let now : Nat := 2000000
    let m : Master := 0x30
    let ch : Fin 64 := 5
    let s : State := (live.setF .MBX_BIND_VALID 5 1).setF .MBX_BIND_SENDER 5 0x30
    let c := ch.val
    let by_ := isHost m.val = true → Hosted s (hostFn m.val)
    by_ ∧ s.mbxBound c = true ∧ s.mbxSender c = m.val ∧ (s.advance now).mbxTakes c = true := by
  delta Hosted; dsimp only; decide +kernel

theorem meets_MailboxChannels_6 :
    let m : Master := 0x30
    let ch : Fin 64 := 5
    let s : State := ((live.setF .MBX_BIND_VALID 5 1).setF .MBX_BIND_RECEIVER 5 0x30).setF .MBX_CH_STAT_FULL 5 1
    let c := ch.val
    let by_ := isHost m.val = true → Hosted s (hostFn m.val)
    by_ ∧ s.mbxBound c = true ∧ s.mbxReceiver c = m.val ∧ s.mbxFull c = true := by
  delta Hosted; dsimp only; decide +kernel

theorem meets_MailboxChannels_7 :
    let now : Nat := 2000000
    let ch : Fin 64 := 5
    let s : State := live.setF .MBX_CH_STAT_FULL 5 1
    let c := ch.val
    let x := s.chan c
    s.mbxFull c = true ∧ x.expired = false ∧ x.posted + 1000 * s.getF .MBX_TMO_TMO c ≤ max s.time now := by
  decide +kernel

theorem meets_MailboxChannels_8 :
    let ch : Fin 64 := 5
    let s : State := live.setChan 5 { live.chan 5 with expired := true }
    let c := ch.val
    let x := s.chan c
    x.expired = true := by decide +kernel

theorem meets_MailboxChannels_10 :
    let m : Master := 0x20
    let s : State := live.setF .MBX_CH_STAT_FULL 5 1
    let by_ := isHost m.val = true → Hosted s (hostFn m.val)
    by_ ∧ m.val = 0x20 := by delta Hosted; dsimp only; decide +kernel

theorem meets_MailboxChannels_11 :
    let m : Master := 0x31
    let ch : Fin 64 := 5
    let s : State := (live.setF .MBX_BIND_VALID 5 1).setF .MBX_BIND_SENDER 5 0x30
    let c := ch.val
    let by_ := isHost m.val = true → Hosted s (hostFn m.val)
    by_ ∧ m.val < 0x80 ∧ s.mbxSender c ≠ m.val := by delta Hosted; dsimp only; decide +kernel

theorem meets_MailboxChannels_12 :
    let m : Master := 0x31
    let s : State := live
    let by_ := isHost m.val = true → Hosted s (hostFn m.val)
    by_ ∧ m.val < 0x80 ∧ m.val ≠ 0x20 := by delta Hosted; dsimp only; decide +kernel

/-! ### DomainsSwitch -/

theorem meets_DomainsSwitch_0 :
    let now : Nat := 2000000
    let cl : Cluster := 0
    let s : State := (live.setF .CPT_DOM_SHARED 0 0).setF .CPT_DOM_CORE 0 1
    (s.advance now).needShared cl.val = true ∧ s.sharedOn cl.val = false ∧ (s.advance now).inrushOk cl.val = true := by
  decide +kernel

theorem meets_DomainsSwitch_1 :
    let now : Nat := 2000000
    let cl : Cluster := 0
    let co : Core := 0
    let s : State := (live.setF .CPT_DOM_CORE 0 0).setTracker 0 { Tracker.fresh with due := true }
    let core := coreIx cl co
    (s.advance now).needCore core = true ∧ s.coreOn core = false ∧ (s.advance now).inrushOk cl.val = true := by
  decide +kernel

theorem meets_DomainsSwitch_2 :
    let now : Nat := 2000000
    let cl : Cluster := 0
    let co : Core := 0
    let s : State := live
    let core := coreIx cl co
    s.coreOn core = true ∧ s.coreTiles core = [] ∧ (s.advance now).needCore core = false := by decide +kernel

theorem meets_DomainsSwitch_3 :
    let now : Nat := 2000000
    let cl : Cluster := 0
    let s : State := live.setF .CPT_DOM_CORE 0 0
    s.sharedOn cl.val = true ∧ (s.advance now).needShared cl.val = false := by decide +kernel

theorem meets_DomainsSwitch_4 :
    let now : Nat := 2000000
    let d : Domain := .gate
    let b : Nat := 2
    let s : State := live.setF .PWR_DIEDOM_ON 0 0
    dieBit d = some b ∧ s.dieOn b = false ∧ (s.advance now).needDie b = true := by decide +kernel

theorem meets_DomainsSwitch_5 :
    let now : Nat := 2000000
    let d : Domain := .gate
    let b : Nat := 2
    let s : State := live.setF .GCTL_PWRST_STATE 0 2
    dieBit d = some b ∧ s.dieOn b = true ∧ (s.advance now).needDie b = false := by decide +kernel

/-! ### LinksComeAndGo -/

theorem meets_LinksComeAndGo_1 :
    let p : Fin 4 := 1
    let s : State := live.setF .LNK_CFG_LOCK 0 1
    s.dieOn 1 = true ∧ s.bit .LNK_CFG_LOCK 0 = true ∧ s.bit .LNK_PCFG_EN p.val = false := by decide +kernel

theorem meets_LinksComeAndGo_2 :
    let p : Fin 4 := 0
    let s : State := live
    s.dieOn 1 = true ∧ (s.bit .LNK_CFG_LOCK 0 = false ∨ s.bit .LNK_PCFG_EN p.val = true) := by decide +kernel

theorem meets_LinksComeAndGo_3 :
    let p : Fin 4 := 1
    let s : State := peered 1 Link.idle
    let lanes : BitVec 8 := 0x0F
    let n := ((List.range 8).filter (fun l => lanes.getLsbD l)).length
    s.dieOn 1 = true ∧ s.portState p.val = 1 ∧ 4 ≤ n := by decide +kernel

theorem meets_LinksComeAndGo_4 :
    let p : Fin 4 := 1
    let s : State := peered 1 Link.idle
    let lanes : BitVec 8 := 0x07
    let n := ((List.range 8).filter (fun l => lanes.getLsbD l)).length
    s.dieOn 1 = true ∧ s.portState p.val = 1 ∧ n < 4 := by decide +kernel

theorem meets_LinksComeAndGo_5 :
    let p : Fin 4 := 1
    let s : State := peered 3 { Link.idle with samples := List.replicate 64 (5, 8) }
    s.dieOn 1 = true ∧ s.portState p.val = 3 ∧ 64 ≤ (s.link p.val).samples.length := by decide +kernel

theorem meets_LinksComeAndGo_6 :
    let now : Nat := 100000000
    let p : Fin 4 := 1
    let s : State := (peered 6 Link.idle).setF .LNK_PCFG_EN 1 1
    s.dieOn 1 = true ∧ s.portState p.val = 6 ∧ s.bit .LNK_PCFG_EN p.val = true ∧ (s.link p.val).lostAt + 100000000 ≤ max s.time
      now := by
  decide +kernel

theorem meets_LinksComeAndGo_7 :
    let p : Fin 4 := 1
    let stamps : List Stamps := [⟨0, 10, 12, 20⟩, ⟨0, 30, 32, 40⟩]
    let s : State := peered 4 Link.idle
    let y : Int × Int := (18, -2)
    let peer := s.getF .LNK_PSTAT_PEER p.val
    s.dieOn 1 = true ∧ s.linkUp p.val = true ∧ peer < 8 ∧ (bestSample (stamps.map (fun x => (x.delay, x.offset2))) = some y) :=
      by
  decide +kernel

theorem meets_LinksComeAndGo_8 :
    let p : Fin 4 := 1
    let cause : LinkDownCause := .replays
    let s : State := peered 4 { Link.idle with open_ := [(2, some rxTile)], rx := 7, tries := 8 }
    s.dieOn 1 = true ∧ 2 ≤ s.portState p.val ∧ s.portState p.val ≤ 4 ∧ (cause = .replays → 8 ≤ (s.link p.val).tries) ∧ (cause =
      .enCleared → s.bit .LNK_PCFG_EN p.val = true) := by
  decide +kernel

/-! ### FlitsAndTiles -/

theorem meets_FlitsAndTiles_0 :
    let p : Fin 4 := 1
    let f : Flit := { flit [] with fseq := 4095 }
    let s : State := peered 4 { Link.idle with rx := 4095 }
    InSequence s p.val f := by delta InSequence; decide +kernel

theorem meets_FlitsAndTiles_1 :
    let p : Fin 4 := 1
    let f : Flit := { flit [] with fseq := 8 }
    let s : State := peered 4 { Link.idle with rx := 7 }
    s.portTrained p.val = true ∧ f.fseq.toNat ≠ (s.link p.val).rx := by decide +kernel

theorem meets_FlitsAndTiles_2 :
    let p : Fin 4 := 1
    let s : State := peered 2 Link.idle
    s.portTrained p.val = true := by decide +kernel

theorem meets_FlitsAndTiles_3 :
    let now : Nat := 2000
    let p : Fin 4 := 1
    let s : State := peered 4 { Link.idle with buf := [sent], tries := 6 }
    s.portTrained p.val = true ∧ (s.link p.val).ackAt + 2000 ≤ max s.time now ∧ (s.link p.val).buf ≠ [] := by
  decide +kernel

theorem meets_FlitsAndTiles_4 :
    let now : Nat := 2000000
    let p : Fin 4 := 1
    let f : Flit := flit [5, 0]
    let s : State := peered 4 { Link.idle with buf := [sent], tries := 6 }
    let u := (s.advance now).taken p.val f
    InSequence s p.val f ∧ ((u.link p.val).buf.any (fun q => q.fseq == f.num 0 2 % 4096) = true) ∧ (u.link p.val).tries < 7 :=
      by
  delta InSequence; decide +kernel

theorem meets_FlitsAndTiles_5 :
    let p : Fin 4 := 1
    let ty : Byte := 0x0C
    let f : Flit := flit []
    let s : State := peered 4 Link.idle
    InSequence s p.val f ∧ 0x0C ≤ ty.toNat := by delta InSequence; decide +kernel

theorem meets_FlitsAndTiles_6 :
    let now : Nat := 2000000
    let p : Fin 4 := 1
    let f : Flit := flit tileHead
    let s : State := linked 9 0 { Link.idle with given := [(2, 1)] }
    let u := (s.advance now).taken p.val f
    let x := u.link p.val
    let c := f.lchan.toNat
    let st := (1 : Nat)
    let h := slotB
    InSequence s p.val f ∧ u.portState p.val = 4 ∧ f.dst.toNat = u.devId ∧ u.linkStation 9 p.val c = some (st, h) ∧ smapGet
      none x.open_ c = none ∧ u.slot (u.nextWr h) = 0 ∧ u.slotOn (u.nextWr h) = true ∧ smapGet 0 x.given c ≠ 0 := by
  delta InSequence; decide +kernel

theorem meets_FlitsAndTiles_8 :
    let now : Nat := 2000000
    let p : Fin 4 := 1
    let f : Flit := flit [1, 2, 3]
    let s : State := linked 9 0 { Link.idle with open_ := [(2, some rxTile)] }
    let u := (s.advance now).taken p.val f
    let x := u.link p.val
    let c := f.lchan.toNat
    let st := (1 : Nat)
    let h := slotB
    let o := rxTile
    let codes := o.codes ++ f.payload.take 240
    let total := leNat ((o.head.drop 0x1C).take 1) * leNat ((o.head.drop 0x20).take 2)
    InSequence s p.val f ∧ u.portState p.val = 4 ∧ f.dst.toNat = u.devId ∧ u.linkStation 9 p.val c = some (st, h) ∧ smapGet
      none x.open_ c = some o ∧ codes.length < total := by
  delta InSequence; decide +kernel

theorem meets_FlitsAndTiles_9 :
    let now : Nat := 2000000
    let p : Fin 4 := 1
    let f : Flit := flit (List.replicate 16 1)
    let s : State := linked 9 0 { Link.idle with open_ := [(2, some rxTile)] }
    let u := (s.advance now).taken p.val f
    let x := u.link p.val
    let c := f.lchan.toNat
    let st := (1 : Nat)
    let h := slotB
    let o := rxTile
    let codes := o.codes ++ f.payload.take 240
    let total := leNat ((o.head.drop 0x1C).take 1) * leNat ((o.head.drop 0x20).take 2)
    InSequence s p.val f ∧ u.portState p.val = 4 ∧ f.dst.toNat = u.devId ∧ u.linkStation 9 p.val c = some (st, h) ∧ smapGet
      none x.open_ c = some o ∧ total ≤ codes.length := by
  delta InSequence; decide +kernel

theorem meets_FlitsAndTiles_10 :
    let now : Nat := 2000000
    let p : Fin 4 := 1
    let f : Flit := flit []
    let s : State := linked 9 0 { Link.idle with open_ := [(2, some rxTile)] }
    let u := (s.advance now).taken p.val f
    let x := u.link p.val
    let c := f.lchan.toNat
    let st := (1 : Nat)
    let h := slotB
    let o := rxTile
    InSequence s p.val f ∧ u.portState p.val = 4 ∧ f.dst.toNat = u.devId ∧ u.linkStation 9 p.val c = some (st, h) ∧ smapGet
      none x.open_ c = some o := by
  delta InSequence; decide +kernel

theorem meets_FlitsAndTiles_11 :
    let now : Nat := 2000000
    let p : Fin 4 := 1
    let f : Flit := flit [9]
    let s : State := peered 4 Link.idle
    let u := (s.advance now).taken p.val f
    InSequence s p.val f ∧ u.portState p.val = 4 ∧ f.dst.toNat = u.devId := by delta InSequence; decide +kernel

theorem meets_FlitsAndTiles_12 :
    let p : Fin 4 := 1
    let s : State := linked 8 2 { Link.idle with credits := [(2, 3)] }
    let x := s.link p.val
    let good := (s.senders p.val).filter (fun e => s.linkUp p.val && (s.ring e.2).peer == s.getF .LNK_PSTAT_PEER p.val)
    let ready := good.filter (fun e => x.held.isEmpty && decide (0 < smapGet 0 x.credits (s.ring e.2).lchan))
    let deficit := x.deficit.filter (fun e => (s.senders p.val).any (fun y => (s.station y.1).owner == e.1))
    let st := (1 : Nat)
    let h := slotB
    let df := ((linked 8 2 { Link.idle with credits := [(2, 3)] }).drr 1 [(1, slotB)] [] 256).elim [] (fun x => x.2.2)
    s.dieOn 1 = true ∧ good = s.senders p.val ∧ (good.find? (fun e => s.torn (s.nextRd e.2)) = none) ∧ s.drr p.val ready
      deficit 256 = some (st, h, df) := by
  decide +kernel

theorem meets_FlitsAndTiles_13 :
    let p : Fin 4 := 1
    let s : State := (linked 8 2 { Link.idle with credits := [(2, 3)] }).setF .CMC_SLOT_TORN 8 1
    let good := (s.senders p.val).filter (fun e => s.linkUp p.val && (s.ring e.2).peer == s.getF .LNK_PSTAT_PEER p.val)
    let e := (1, slotB)
    s.dieOn 1 = true ∧ good = s.senders p.val ∧ (good.find? (fun e => s.torn (s.nextRd e.2)) = some e) := by
  decide +kernel

theorem meets_FlitsAndTiles_14 :
    let p : Fin 4 := 0
    let s : State := live
    s.dieOn 1 = true ∧ s.linkUp p.val = false := by decide +kernel

/-! ### LinkFrames -/

theorem meets_LinkFrames_0 :
    let now : Nat := 2000000
    let p : Fin 4 := 1
    let f : Flit := flit [2, 0, 0, 0, 2, 4, 10, 0, 0, 0]
    let s : State := peers group
    let u := (s.advance now).taken p.val f
    let g := f.num 0 1 % 64
    let x := u.group g
    let same := f.num 4 1 = x.scope ∧ f.num 5 1 = x.devmask ∧ f.num 6 4 = x.timeout
    InSequence s p.val f ∧ u.portState p.val = 4 ∧ f.dst.toNat = u.devId ∧ x.defined = true ∧ x.scope = 2 ∧ x.disabled = false
      ∧ f.num 1 2 = 0 ∧ f.num 3 1 = 0 ∧ x.checked = false ∧ (¬ same) := by
  delta InSequence; dsimp only; decide +kernel

theorem meets_LinkFrames_1 :
    let now : Nat := 2000000
    let p : Fin 4 := 1
    let f : Flit := flit [2, 0, 0, 0]
    let s : State := peers { group with checked := true }
    let u := (s.advance now).taken p.val f
    let g := f.num 0 1 % 64
    let x := u.group g
    let same := f.num 4 1 = x.scope ∧ f.num 5 1 = x.devmask ∧ f.num 6 4 = x.timeout
    InSequence s p.val f ∧ u.portState p.val = 4 ∧ f.dst.toNat = u.devId ∧ x.defined = true ∧ x.scope = 2 ∧ x.disabled = false
      ∧ f.num 1 2 = x.count % 65536 ∧ (x.checked = true ∨ same) ∧ x.inst = none := by
  delta InSequence; dsimp only; decide +kernel

theorem meets_LinkFrames_2 :
    let now : Nat := 2000000
    let p : Fin 4 := 1
    let f : Flit := flit [2, 0, 0, 0]
    let s : State := peers { group with checked := true, inst := some inst }
    let u := (s.advance now).taken p.val f
    let g := f.num 0 1 % 64
    let x := u.group g
    let same := f.num 4 1 = x.scope ∧ f.num 5 1 = x.devmask ∧ f.num 6 4 = x.timeout
    let b := inst
    InSequence s p.val f ∧ u.portState p.val = 4 ∧ f.dst.toNat = u.devId ∧ x.defined = true ∧ x.scope = 2 ∧ x.disabled = false
      ∧ f.num 1 2 = x.count % 65536 ∧ (x.checked = true ∨ same) ∧ x.inst = some b := by
  delta InSequence; dsimp only; decide +kernel

theorem meets_LinkFrames_3 :
    let now : Nat := 2000000
    let p : Fin 4 := 1
    let f : Flit := flit [2, 0, 0, 7, 0, 0, 0]
    let s : State := peers { group with checked := true }
    let u := (s.advance now).taken p.val f
    let g := f.num 0 1 % 64
    let x := u.group g
    InSequence s p.val f ∧ u.portState p.val = 4 ∧ f.dst.toNat = u.devId ∧ x.defined = true ∧ x.scope = 2 ∧ x.disabled = false
      ∧ f.num 1 2 = x.count % 65536 ∧ x.inst = none := by
  delta InSequence; decide +kernel

theorem meets_LinkFrames_4 :
    let now : Nat := 2000000
    let p : Fin 4 := 1
    let f : Flit := flit [2, 0, 0, 7, 0, 0, 0]
    let s : State := peers { group with checked := true, inst := some inst }
    let u := (s.advance now).taken p.val f
    let g := f.num 0 1 % 64
    let x := u.group g
    let b := inst
    InSequence s p.val f ∧ u.portState p.val = 4 ∧ f.dst.toNat = u.devId ∧ x.defined = true ∧ x.scope = 2 ∧ x.disabled = false
      ∧ f.num 1 2 = x.count % 65536 ∧ x.inst = some b := by
  delta InSequence; decide +kernel

theorem meets_LinkFrames_5 :
    let now : Nat := 2000000
    let p : Fin 4 := 1
    let f : Flit := flit ([6, 16] ++ List.replicate 66 1)
    let s : State := ((peered 4 Link.idle).setF .MBX_BIND_VALID 6 1).setF .MBX_BIND_SENDER 6 0x31
    let u := (s.advance now).taken p.val f
    let ch := f.num 0 1
    InSequence s p.val f ∧ u.portState p.val = 4 ∧ f.dst.toNat = u.devId ∧ ch < 64 ∧ 1 ≤ f.num 1 1 ∧ f.num 1 1 ≤ 16 ∧
      u.mbxBound ch = true ∧ u.mbxSender ch = 0x30 + p.val ∧ u.mbxTakes ch = true := by
  delta InSequence; decide +kernel

theorem meets_LinkFrames_6 :
    let now : Nat := 2000000
    let p : Fin 4 := 1
    let f : Flit := flit [6]
    let s : State := (((peered 4 Link.idle).setF .MBX_BIND_VALID 6 1).setF .MBX_BIND_RECEIVER 6 0x31).setF .MBX_CH_STAT_FULL 6 1
    let u := (s.advance now).taken p.val f
    let ch := f.num 0 1
    InSequence s p.val f ∧ u.portState p.val = 4 ∧ f.dst.toNat = u.devId ∧ ch < 64 ∧ u.mbxBound ch = true ∧ u.mbxReceiver ch =
      0x30 + p.val ∧ u.mbxFull ch = true := by
  delta InSequence; decide +kernel

theorem meets_LinkFrames_7 :
    let now : Nat := 2000000
    let p : Fin 4 := 1
    let f : Flit := flit (List.replicate 25 0)
    let s : State := peered 4 Link.idle
    let u := (s.advance now).taken p.val f
    InSequence s p.val f ∧ 3 ≤ u.portState p.val ∧ f.num 24 1 % 2 = 0 := by delta InSequence; decide +kernel

theorem meets_LinkFrames_8 :
    let now : Nat := 2000000
    let p : Fin 4 := 1
    let f : Flit := flit (List.replicate 24 0 ++ [1])
    let s : State := peered 3 Link.idle
    let u := (s.advance now).taken p.val f
    InSequence s p.val f ∧ 3 ≤ u.portState p.val ∧ f.num 24 1 % 2 ≠ 0 := by delta InSequence; decide +kernel

theorem meets_LinkFrames_9 :
    let now : Nat := 2000000
    let p : Fin 4 := 1
    let f : Flit := flit (3#8 :: List.replicate 16 5#8)
    let s : State := peered 2 Link.idle
    let u := (s.advance now).taken p.val f
    InSequence s p.val f ∧ u.portState p.val = 2 ∧ f.entries ≠ [] ∧ u.idConflict f.entries = none := by
  delta InSequence; decide +kernel

theorem meets_LinkFrames_10 :
    let now : Nat := 2000000
    let p : Fin 4 := 1
    let f : Flit := flit (3#8 :: List.replicate 16 5#8)
    let s : State := { peered 2 Link.idle with domain := [(3, some { digest := List.replicate 16 6#8, port := 1 })] }
    let u := (s.advance now).taken p.val f
    let r := (1 : Nat)
    InSequence s p.val f ∧ u.portState p.val = 2 ∧ f.entries ≠ [] ∧ u.idConflict f.entries = some r := by
  delta InSequence; decide +kernel

/-! ### FunctionResets -/

theorem meets_FunctionResets_0 :
    let tn : Fin 128 := 0
    let s : State := tenant
    (s.fnst (tn.val + 1)).enabled = true := by decide +kernel

theorem meets_FunctionResets_1 :
    let tn : Fin 128 := 0
    let s : State := live
    (s.fnst (tn.val + 1)).enabled = false := by decide +kernel

/-! ### InterfaceResets -/

theorem meets_InterfaceResets_1 :
    let s : State := { tenant with perst := true }
    s.perst = true := by decide +kernel

theorem meets_InterfaceResets_2 :
    let s : State := live
    s.perst = false := by decide +kernel

/-! ### CommandPath -/

theorem meets_CommandPath_0 :
    let fn : Func := 1
    let s : State := tenant
    Hosted s fn.val ∧ s.bit .CMD_CFG_EN fn.val = false := by delta Hosted; decide +kernel

theorem meets_CommandPath_1 :
    let fn : Func := 1
    let s : State := tenant.setF .CMD_CFG_EN 1 1
    Hosted s fn.val ∧ s.bit .CMD_CFG_EN fn.val = true := by delta Hosted; decide +kernel

theorem meets_CommandPath_2 :
    let fn : Func := 1
    let s : State := ((tenant.setF .CMD_CFG_EN 1 1).setF .CMD_PROD_INDEX 1 14).setF .CMD_CFG_SIZE 1 4
    Hosted s fn.val := by delta Hosted; decide +kernel

theorem meets_CommandPath_3 :
    let fn : Func := 1
    let s : State := live
    s.perst = false ∧ fn.val ≠ 0 ∧ ((s.fnst fn.val).enabled = false ∨ (s.fnst fn.val).flr ≠ none) := by decide +kernel

theorem meets_CommandPath_7 :
    let fn : Func := 0
    let s : State := (live.setF .CMD_CFG_EN 0 1).setFn 0 { Function.reset with entries := [words [2]], held := 1 }
    let e : List Word := words [2]
    let rest : List (List Word) := []
    let x := s.fnst fn.val
    x.entries = e :: rest ∧ s.bit .CMD_CFG_EN fn.val = true ∧ x.flr = none ∧ 0 < x.held ∧ x.waiting.length < 64 := by
  decide +kernel

theorem meets_CommandPath_8 :
    let fn : Func := 0
    let s : State := live
    ((s.fnst fn.val).entries = [] ∨ s.bit .CMD_CFG_EN fn.val = false ∨ (s.fnst fn.val).flr ≠ none ∨ (s.fnst fn.val).held = 0 ∨
      64 ≤ (s.fnst fn.val).waiting.length) := by
  decide +kernel

theorem meets_CommandPath_9 :
    let fn : Func := 0
    let s : State := live
    Hosted s fn.val ∧ (s.fnst fn.val).waiting = [] := by delta Hosted; decide +kernel

theorem meets_CommandPath_11 :
    let fn : Func := 0
    let s : State := live
    Hosted s fn.val ∧ (s.fnst fn.val).messages = [] := by delta Hosted; decide +kernel

theorem meets_CommandPath_12 :
    let fn : Func := 0
    let s : State := live.setFn 0 { Function.reset with messages := [[1, 2]] }
    let m := [1#32, 2]
    let rest := ([] : List (List Word))
    Hosted s fn.val ∧ (s.fnst fn.val).messages = m :: rest := by delta Hosted; decide +kernel

theorem meets_CommandPath_13 :
    let eng : Fin 8 := 1
    let s : State := { live with ingests := [(1, some { ctx := 0, dtime := 0, tiles := [], wait := true })] }
    let j : Ingest := { ctx := 0, dtime := 0, tiles := [], wait := true }
    smapGet none s.ingests eng.val = some j := by decide +kernel

theorem meets_CommandPath_14 :
    let b : Fin 2 := 0
    let s : State := live.setBeaver 0 (some { beaver with state := 2 })
    let x : Beaver := { beaver with state := 2 }
    s.beaver b.val = some x ∧ x.state = 2 := by decide +kernel

theorem meets_CommandPath_15 :
    let fn : Func := 0
    let s : State := live.setFn 0 { Function.reset with entries := [words [2]] }
    (s.fnst fn.val).held < (s.fnst fn.val).entries.length := by decide +kernel

theorem meets_CommandPath_16 :
    let fn : Func := 0
    let s : State := asking live 0 (words [1, 0, 0x1000, 0, 256])
    let e : List Word := words [1, 0, 0x1000, 0, 256]
    ((s.fnst fn.val).accepted.find? (fun x => entryOp x == 0x01) = some e) ∧ s.getF .GCTL_PWRST_STATE 0 = 0 := by
  decide +kernel

/-! ### Partitions -/

theorem meets_Partitions_0 :
    let fn : Func := 0
    let entry : List Word := words [1, 0, 0x1000, 0, 256]
    let s : State := asking live 0 (words [1, 0, 0x1000, 0, 256])
    s.getF .GCTL_PWRST_STATE 0 = 0 ∧ s.nextUp fn.val 0x01 entry = true ∧ entryClean entry 5 = true := by
  decide +kernel

theorem meets_Partitions_1 :
    let fn : Func := 0
    let entry : List Word := words [1, 1, 0x1000, 0, 256]
    let s : State := asking live 0 (words [1, 1, 0x1000, 0, 256])
    s.getF .GCTL_PWRST_STATE 0 = 0 ∧ s.nextUp fn.val 0x01 entry = true ∧ entryClean entry 5 = false := by
  decide +kernel

theorem meets_Partitions_2 :
    let fn : Func := 0
    let entry : List Word := []
    let s : State := live
    (s.getF .GCTL_PWRST_STATE 0 ≠ 0 ∨ s.nextUp fn.val 0x01 entry = false) := by decide +kernel

theorem meets_Partitions_3 :
    let fn : Func := 0
    let entry : List Word := []
    let s : State := live
    s.nextUp fn.val 0x02 entry = false := by decide +kernel

theorem meets_Partitions_4 :
    let fn : Func := 0
    let entry : List Word := words [2, 0, 9]
    let s : State := asking live 0 (words [2, 0, 9])
    s.nextUp fn.val 0x02 entry = true ∧ entryClean entry 2 = false := by decide +kernel

theorem meets_Partitions_5 :
    let fn : Func := 0
    let entry : List Word := words [2]
    let s : State := asking live 0 (words [2])
    s.nextUp fn.val 0x02 entry = true ∧ entryClean entry 2 = true ∧ s.part fn.val = none := by decide +kernel

theorem meets_Partitions_6 :
    let now : Nat := 2000000
    let fn : Func := 0
    let entry : List Word := words [2]
    let s : State := asking owned 0 (words [2])
    s.nextUp fn.val 0x02 entry = true ∧ entryClean entry 2 = true ∧ s.part fn.val ≠ none ∧ ((s.advance now).unloadStop
      fn.val).ownerBusy fn.val = false := by
  decide +kernel

theorem meets_Partitions_7 :
    let now : Nat := 2000000
    let fn : Func := 0
    let entry : List Word := words [2]
    let s : State := asking (running.setPart 0 (some { Partition.empty with stations := [1] })) 0 (words [2])
    s.nextUp fn.val 0x02 entry = true ∧ entryClean entry 2 = true ∧ s.part fn.val ≠ none ∧ ((s.advance now).unloadStop
      fn.val).ownerBusy fn.val = true := by
  decide +kernel

/-! ### QuotasAndCuts -/

theorem meets_QuotasAndCuts_0 :
    let fn : Func := 0
    let entry : List Word := []
    let s : State := live
    s.nextUp fn.val 0x03 entry = false := by decide +kernel

theorem meets_QuotasAndCuts_1 :
    let fn : Func := 0
    let entry : List Word := words [3, 0, 256, 8, 0, 0, 0, 0]
    let s : State := asking live 0 (words [3, 0, 256, 8, 0, 0, 0, 0])
    let tn := entryWord entry 2
    s.nextUp fn.val 0x03 entry = true ∧ (entryClean entry 8 = false ∨ 256 ≤ tn ∨ 256 ≤ entryWord entry 7) := by
  decide +kernel

theorem meets_QuotasAndCuts_2 :
    let fn : Func := 1
    let entry : List Word := words [3, 0, 1, 8, 0, 0, 0, 0]
    let s : State := asking tenant 1 (words [3, 0, 1, 8, 0, 0, 0, 0])
    let tn := entryWord entry 2
    s.nextUp fn.val 0x03 entry = true ∧ entryClean entry 8 = true ∧ tn < 256 ∧ entryWord entry 7 < 256 ∧ fn.val ≠ 0 := by
  decide +kernel

theorem meets_QuotasAndCuts_3 :
    let fn : Func := 0
    let entry : List Word := words [3, 0, 129, 8, 0, 0, 0, 0]
    let s : State := asking live 0 (words [3, 0, 129, 8, 0, 0, 0, 0])
    let tn := entryWord entry 2
    s.nextUp fn.val 0x03 entry = true ∧ entryClean entry 8 = true ∧ tn < 256 ∧ entryWord entry 7 < 256 ∧ fn.val = 0 ∧ (tn = 0 ∨
      s.setting 0 < tn) := by
  decide +kernel

theorem meets_QuotasAndCuts_4 :
    let fn : Func := 0
    let entry : List Word := words [3, 0, 2, 8, 0, 0, 0, 0]
    let s : State := asking { live with lc := [(0, [{ value := 2, ok := true }])] } 0 (words [3, 0, 2, 8, 0, 0, 0, 0])
    let tn := entryWord entry 2
    s.nextUp fn.val 0x03 entry = true ∧ entryClean entry 8 = true ∧ tn < 256 ∧ entryWord entry 7 < 256 ∧ fn.val = 0 ∧ tn ≠ 0 ∧
      tn ≤ s.setting 0 := by
  decide +kernel

theorem meets_QuotasAndCuts_5 :
    let st : StationId := 1
    let s : State := live.setStation 1 { station with deadline := some (3, 0) }
    let x := s.station st.val
    let c := (3 : Nat)
    x.deadline = some (c, 0) ∧ x.drain = none ∧ Hold.reclaim ∉ x.holds ∧ x.state ≠ 0 := by decide +kernel

theorem meets_QuotasAndCuts_6 :
    let st : StationId := 0
    let s : State := live
    let x := s.station st.val
    (x.deadline = none ∨ (∃ d, x.deadline = some d ∧ d.2 ≠ 0) ∨ x.drain ≠ none) := by decide +kernel

theorem meets_QuotasAndCuts_7 :
    let tn : Fin 128 := 0
    let s : State := cutting ([0], [], [])
    let cut : List Nat × List (Nat × Nat × Nat) × List (Nat × Nat × Nat) := ([0], [], [])
    let o := tn.val + 1
    let sts := s.stationsOf o
    let core := cut.1.find? (fun c => s.allParked (sts.filter (fun st => s.inCore st c)))
    let c := (0 : Nat)
    let p := { Partition.empty with cores := [0], cm := [(0, 0, 0x1000)], km := [(0, 0, 0x1000)] }
    (s.fnst o).cut = some cut ∧ core = some c ∧ s.part o = some p ∧ c ∉ p.cores.erase c := by decide +kernel

theorem meets_QuotasAndCuts_8 :
    let tn : Fin 128 := 0
    let s : State := cutting ([], [(0, 0, 0x1000)], [])
    let cut : List Nat × List (Nat × Nat × Nat) × List (Nat × Nat × Nat) := ([], [(0, 0, 0x1000)], [])
    let o := tn.val + 1
    let sts := s.stationsOf o
    let core := cut.1.find? (fun c => s.allParked (sts.filter (fun st => s.inCore st c)))
    let cm := cut.2.1.find? (fun e => !(cut.1.contains e.1) && s.allParked (sts.filter (fun st => s.inExtent st false e.1 e.2.1
      e.2.2)))
    let e := (0, 0, 0x1000)
    (s.fnst o).cut = some cut ∧ core = none ∧ cm = some e := by decide +kernel

theorem meets_QuotasAndCuts_9 :
    let tn : Fin 128 := 0
    let s : State := cutting ([], [], [(0, 0, 0x1000)])
    let cut : List Nat × List (Nat × Nat × Nat) × List (Nat × Nat × Nat) := ([], [], [(0, 0, 0x1000)])
    let o := tn.val + 1
    let sts := s.stationsOf o
    let core := cut.1.find? (fun c => s.allParked (sts.filter (fun st => s.inCore st c)))
    let cm := cut.2.1.find? (fun e => !(cut.1.contains e.1) && s.allParked (sts.filter (fun st => s.inExtent st false e.1 e.2.1
      e.2.2)))
    let km := cut.2.2.find? (fun e => s.allParked (sts.filter (fun st => s.inExtent st true e.1 e.2.1 e.2.2)))
    let e := (0, 0, 0x1000)
    (s.fnst o).cut = some cut ∧ core = none ∧ cm = none ∧ km = some e := by decide +kernel

theorem meets_QuotasAndCuts_10 :
    let tn : Fin 128 := 0
    let s : State := cutting ([], [], [])
    let cut : List Nat × List (Nat × Nat × Nat) × List (Nat × Nat × Nat) := ([], [], [])
    let o := tn.val + 1
    let sts := s.stationsOf o
    let core := cut.1.find? (fun c => s.allParked (sts.filter (fun st => s.inCore st c)))
    let cm := cut.2.1.find? (fun e => !(cut.1.contains e.1) && s.allParked (sts.filter (fun st => s.inExtent st false e.1 e.2.1
      e.2.2)))
    let km := cut.2.2.find? (fun e => s.allParked (sts.filter (fun st => s.inExtent st true e.1 e.2.1 e.2.2)))
    (s.fnst o).cut = some cut ∧ core = none ∧ cm = none ∧ km = none := by decide +kernel

/-! ### LoaderCommandsQueue -/

theorem meets_LoaderCommandsQueue_0 :
    let fn : Func := 0
    let tag : BitVec 16 := 0
    let s : State := live
    let asked (op : Nat) : Option (List Word) := (s.fnst fn.val).accepted.find? (fun x => entryOp x == op && entryTag x ==
      tag.toNat)
    asked 0x10 = none := by decide +kernel

theorem meets_LoaderCommandsQueue_1 :
    let now : Nat := 2000000
    let fn : Func := 0
    let tag : BitVec 16 := 0
    let s : State := asking (live) 0 (words [0x10])
    let q := s.jobQ fn.val
    let n := (q.filter (fun j => j.tag.isSome)).length
    let broke := (s.advance now).loaderBroke fn.val
    let asked (op : Nat) : Option (List Word) := (s.fnst fn.val).accepted.find? (fun x => entryOp x == op && entryTag x ==
      tag.toNat)
    let e := words [0x10]
    asked 0x10 = some e ∧ n < 8 ∧ (q ≠ [] ∨ broke = false) := by decide +kernel

theorem meets_LoaderCommandsQueue_2 :
    let fn : Func := 0
    let tag : BitVec 16 := 0
    let s : State := asking (live.setJobQ 0 (List.replicate 8 job)) 0 (words [0x10])
    let q := s.jobQ fn.val
    let n := (q.filter (fun j => j.tag.isSome)).length
    let asked (op : Nat) : Option (List Word) := (s.fnst fn.val).accepted.find? (fun x => entryOp x == op && entryTag x ==
      tag.toNat)
    let e := words [0x10]
    asked 0x10 = some e ∧ 8 ≤ n := by decide +kernel

theorem meets_LoaderCommandsQueue_3 :
    let now : Nat := 2000000
    let fn : Func := 1
    let tag : BitVec 16 := 0
    let s : State := asking ({ tenant.setQuota 1 { (live.quota 1) with loader := 1 } with bucketAt := [(1, 2000000)] }) 1
      (words [0x10])
    let q := s.jobQ fn.val
    let broke := (s.advance now).loaderBroke fn.val
    let asked (op : Nat) : Option (List Word) := (s.fnst fn.val).accepted.find? (fun x => entryOp x == op && entryTag x ==
      tag.toNat)
    let e := words [0x10]
    asked 0x10 = some e ∧ q = [] ∧ broke = true := by decide +kernel

theorem meets_LoaderCommandsQueue_4 :
    let fn : Func := 0
    let tag : BitVec 16 := 0
    let s : State := live
    let asked (op : Nat) : Option (List Word) := (s.fnst fn.val).accepted.find? (fun x => entryOp x == op && entryTag x ==
      tag.toNat)
    asked 0x11 = none := by decide +kernel

theorem meets_LoaderCommandsQueue_5 :
    let now : Nat := 2000000
    let fn : Func := 0
    let tag : BitVec 16 := 0
    let s : State := asking (live) 0 (words [0x11])
    let q := s.jobQ fn.val
    let n := (q.filter (fun j => j.tag.isSome)).length
    let broke := (s.advance now).loaderBroke fn.val
    let asked (op : Nat) : Option (List Word) := (s.fnst fn.val).accepted.find? (fun x => entryOp x == op && entryTag x ==
      tag.toNat)
    let e := words [0x11]
    asked 0x11 = some e ∧ n < 8 ∧ (q ≠ [] ∨ broke = false) := by decide +kernel

theorem meets_LoaderCommandsQueue_6 :
    let fn : Func := 0
    let tag : BitVec 16 := 0
    let s : State := asking (live.setJobQ 0 (List.replicate 8 job)) 0 (words [0x11])
    let q := s.jobQ fn.val
    let n := (q.filter (fun j => j.tag.isSome)).length
    let asked (op : Nat) : Option (List Word) := (s.fnst fn.val).accepted.find? (fun x => entryOp x == op && entryTag x ==
      tag.toNat)
    let e := words [0x11]
    asked 0x11 = some e ∧ 8 ≤ n := by decide +kernel

theorem meets_LoaderCommandsQueue_7 :
    let now : Nat := 2000000
    let fn : Func := 1
    let tag : BitVec 16 := 0
    let s : State := asking ({ tenant.setQuota 1 { (live.quota 1) with loader := 1 } with bucketAt := [(1, 2000000)] }) 1
      (words [0x11])
    let q := s.jobQ fn.val
    let broke := (s.advance now).loaderBroke fn.val
    let asked (op : Nat) : Option (List Word) := (s.fnst fn.val).accepted.find? (fun x => entryOp x == op && entryTag x ==
      tag.toNat)
    let e := words [0x11]
    asked 0x11 = some e ∧ q = [] ∧ broke = true := by decide +kernel

theorem meets_LoaderCommandsQueue_8 :
    let fn : Func := 0
    let tag : BitVec 16 := 0
    let s : State := live
    let asked (op : Nat) : Option (List Word) := (s.fnst fn.val).accepted.find? (fun x => entryOp x == op && entryTag x ==
      tag.toNat)
    asked 0x14 = none := by decide +kernel

theorem meets_LoaderCommandsQueue_9 :
    let now : Nat := 2000000
    let fn : Func := 0
    let tag : BitVec 16 := 0
    let s : State := asking (live) 0 (words [0x14])
    let q := s.jobQ fn.val
    let n := (q.filter (fun j => j.tag.isSome)).length
    let broke := (s.advance now).loaderBroke fn.val
    let asked (op : Nat) : Option (List Word) := (s.fnst fn.val).accepted.find? (fun x => entryOp x == op && entryTag x ==
      tag.toNat)
    let e := words [0x14]
    asked 0x14 = some e ∧ n < 8 ∧ (q ≠ [] ∨ broke = false) := by decide +kernel

theorem meets_LoaderCommandsQueue_10 :
    let fn : Func := 0
    let tag : BitVec 16 := 0
    let s : State := asking (live.setJobQ 0 (List.replicate 8 job)) 0 (words [0x14])
    let q := s.jobQ fn.val
    let n := (q.filter (fun j => j.tag.isSome)).length
    let asked (op : Nat) : Option (List Word) := (s.fnst fn.val).accepted.find? (fun x => entryOp x == op && entryTag x ==
      tag.toNat)
    let e := words [0x14]
    asked 0x14 = some e ∧ 8 ≤ n := by decide +kernel

theorem meets_LoaderCommandsQueue_11 :
    let now : Nat := 2000000
    let fn : Func := 1
    let tag : BitVec 16 := 0
    let s : State := asking ({ tenant.setQuota 1 { (live.quota 1) with loader := 1 } with bucketAt := [(1, 2000000)] }) 1
      (words [0x14])
    let q := s.jobQ fn.val
    let broke := (s.advance now).loaderBroke fn.val
    let asked (op : Nat) : Option (List Word) := (s.fnst fn.val).accepted.find? (fun x => entryOp x == op && entryTag x ==
      tag.toNat)
    let e := words [0x14]
    asked 0x14 = some e ∧ q = [] ∧ broke = true := by decide +kernel

theorem meets_LoaderCommandsQueue_12 :
    let now : Nat := 2000000
    let fn : Func := 0
    let tag : BitVec 16 := 0
    let s : State := running
    let asked (op : Nat) : Option (List Word) := (s.fnst fn.val).accepted.find? (fun x => entryOp x == op && entryTag x ==
      tag.toNat)
    let st : StationId := 1
    let model : Word := 7
    let layer : BitVec 16 := 3
    let shards : List (BitVec 64) := [0x1000#64]
    let opws : List Word := List.replicate 16 0x8400#32
    let table : List Byte := []
    let tableOff : BitVec 19 := 64
    let tiles : Fin 129 := 0
    let c : Instr := (.swap 2000000 0 0 1 7 3 [0x1000#64] (List.replicate 16 0x8400#32) [] 64)
    let op : Nat := 0x12
    let kind : JobKind := .swap
    ((c = .swap now fn tag st model layer shards opws table tableOff ∧ op = 0x12 ∧ kind = .swap) ∨ (c = .sweepLoad now fn tag
      st model layer shards opws table tableOff tiles ∧ op = 0x13 ∧ kind = .sweep ∧ tiles.val ≠ 0)) ∧ asked op = none := by
  decide +kernel

theorem meets_LoaderCommandsQueue_13 :
    let now : Nat := 2000000
    let fn : Func := 0
    let tag : BitVec 16 := 0
    let s : State := asking (running) 0 (words [0x13])
    let q := s.jobQ fn.val
    let n := (q.filter (fun j => j.tag.isSome)).length
    let broke := (s.advance now).loaderBroke fn.val
    let asked (op : Nat) : Option (List Word) := (s.fnst fn.val).accepted.find? (fun x => entryOp x == op && entryTag x ==
      tag.toNat)
    let st : StationId := 1
    let model : Word := 7
    let layer : BitVec 16 := 3
    let shards : List (BitVec 64) := [0x1000#64]
    let opws : List Word := List.replicate 16 0x8400#32
    let table : List Byte := []
    let tableOff : BitVec 19 := 64
    let tiles : Fin 129 := 5
    let c : Instr := (.sweepLoad 2000000 0 0 1 7 3 [0x1000#64] (List.replicate 16 0x8400#32) [] 64 5)
    let op : Nat := 0x13
    let kind : JobKind := .sweep
    let y := s.station st.val
    let mine := y.state ≠ 0 ∧ y.owner = fn.val
    let e := words [0x13]
    ((c = .swap now fn tag st model layer shards opws table tableOff ∧ op = 0x12 ∧ kind = .swap) ∨ (c = .sweepLoad now fn tag
      st model layer shards opws table tableOff tiles ∧ op = 0x13 ∧ kind = .sweep ∧ tiles.val ≠ 0)) ∧ asked op = some e ∧ (mine
      → y.swapping = false ∧ ∀ m, m ∈ y.mig → m.weight = false) ∧ n < 8 ∧ (q ≠ [] ∨ broke = false) := by
  dsimp only; decide +kernel

theorem meets_LoaderCommandsQueue_14 :
    let now : Nat := 2000000
    let fn : Func := 0
    let tag : BitVec 16 := 0
    let s : State := asking (running.setStation 1 { station with swapping := true }) 0 (words [0x12])
    let asked (op : Nat) : Option (List Word) := (s.fnst fn.val).accepted.find? (fun x => entryOp x == op && entryTag x ==
      tag.toNat)
    let st : StationId := 1
    let model : Word := 7
    let layer : BitVec 16 := 3
    let shards : List (BitVec 64) := [0x1000#64]
    let opws : List Word := List.replicate 16 0x8400#32
    let table : List Byte := []
    let tableOff : BitVec 19 := 64
    let tiles : Fin 129 := 0
    let c : Instr := (.swap 2000000 0 0 1 7 3 [0x1000#64] (List.replicate 16 0x8400#32) [] 64)
    let op : Nat := 0x12
    let kind : JobKind := .swap
    let y := s.station st.val
    let mine := y.state ≠ 0 ∧ y.owner = fn.val
    let e := words [0x12]
    ((c = .swap now fn tag st model layer shards opws table tableOff ∧ op = 0x12 ∧ kind = .swap) ∨ (c = .sweepLoad now fn tag
      st model layer shards opws table tableOff tiles ∧ op = 0x13 ∧ kind = .sweep ∧ tiles.val ≠ 0)) ∧ asked op = some e ∧ mine
      ∧ (y.swapping = true ∨ ∃ m, m ∈ y.mig ∧ m.weight = true) := by
  dsimp only; decide +kernel

theorem meets_LoaderCommandsQueue_15 :
    let now : Nat := 2000000
    let fn : Func := 0
    let tag : BitVec 16 := 0
    let s : State := asking (running.setJobQ 0 (List.replicate 8 job)) 0 (words [0x12])
    let q := s.jobQ fn.val
    let n := (q.filter (fun j => j.tag.isSome)).length
    let asked (op : Nat) : Option (List Word) := (s.fnst fn.val).accepted.find? (fun x => entryOp x == op && entryTag x ==
      tag.toNat)
    let st : StationId := 1
    let model : Word := 7
    let layer : BitVec 16 := 3
    let shards : List (BitVec 64) := [0x1000#64]
    let opws : List Word := List.replicate 16 0x8400#32
    let table : List Byte := []
    let tableOff : BitVec 19 := 64
    let tiles : Fin 129 := 0
    let c : Instr := (.swap 2000000 0 0 1 7 3 [0x1000#64] (List.replicate 16 0x8400#32) [] 64)
    let op : Nat := 0x12
    let kind : JobKind := .swap
    let e := words [0x12]
    ((c = .swap now fn tag st model layer shards opws table tableOff ∧ op = 0x12 ∧ kind = .swap) ∨ (c = .sweepLoad now fn tag
      st model layer shards opws table tableOff tiles ∧ op = 0x13 ∧ kind = .sweep ∧ tiles.val ≠ 0)) ∧ asked op = some e ∧ 8 ≤ n
      := by
  decide +kernel

theorem meets_LoaderCommandsQueue_16 :
    let fn : Func := 0
    let tag : BitVec 16 := 0
    let s : State := asking running 0 (words [0x13])
    let asked (op : Nat) : Option (List Word) := (s.fnst fn.val).accepted.find? (fun x => entryOp x == op && entryTag x ==
      tag.toNat)
    let e : List Word := words [0x13]
    asked 0x13 = some e := by decide +kernel

/-! ### LoaderWorks -/

theorem meets_LoaderWorks_0 :
    let now : Nat := 2000000
    let b : Fin 2 := 1
    let s : State := live.setJobQ 0 [{ job with kind := .importKey }]
    let j : Job := { job with kind := .importKey }
    s.dieOn 3 = true ∧ s.beaver b.val = none ∧ (s.advance now).nextJob = some j ∧ j.kind = .importKey := by
  decide +kernel

theorem meets_LoaderWorks_1 :
    let now : Nat := 2000000
    let b : Fin 2 := 1
    let data : List Byte := shardBytes
    let s : State := (keyed (placed.setStation 1 { station with model := 1, layer := 1 })).setJobQ 0 [{ job with len := 176 }]
    let j : Job := { job with len := 176 }
    let h := shardHead shardBytes
    s.dieOn 3 = true ∧ s.beaver b.val = none ∧ (s.advance now).nextJob = some j ∧ h = shardHead data ∧ j.kind = .load ∧
      s.coreOn (s.station h.station).core = true ∧ (s.advance now).shardCode
      { Beaver.of j 2 (max s.time now) with head := some h } h j.len = 0 ∧ (j.force = true ∨ s.residentSame j.owner h = false)
      := by
  decide +kernel

theorem meets_LoaderWorks_2 :
    let now : Nat := 2000000
    let b : Fin 2 := 0
    let s : State := live
    (s.dieOn 3 = false ∨ s.beaver b.val ≠ none ∨ (s.advance now).nextJob = none) := by decide +kernel

theorem meets_LoaderWorks_3 :
    let b : Fin 2 := 1
    let s : State := live.setBeaver 1 (some { beaver with job := { job with kind := .importKey }, state := 2 })
    let x : Beaver := { beaver with job := { job with kind := .importKey }, state := 2 }
    s.beaver b.val = some x ∧ x.state = 2 ∧ x.job.kind = .importKey := by decide +kernel

theorem meets_LoaderWorks_4 :
    let b : Fin 2 := 1
    let data : List Byte := []
    let s : State := (keyed placed).setBeaver 1 (some (fetching oneHead))
    let x : Beaver := fetching oneHead
    let h : ShardHead := oneHead
    let got := gcmDecrypt (smapGet Key.empty s.modelKeys h.keyslot).bytes h.nonce (h.bytes ++ h.digest) (data.take h.paylen)
      (data.drop h.paylen)
    s.beaver b.val = some x ∧ x.state = 2 ∧ x.job.kind = .load ∧ x.head = some h ∧ (got = none ∨ ∃ p, got = some p ∧ ((h.levels
      (s.jobDesc x h.station).wmode p = none) ∨ ∃ l, h.levels (s.jobDesc x h.station).wmode p = some l ∧ codeDigest l.1 ≠
      h.digest)) := ⟨by decide +kernel, by decide +kernel, by decide +kernel, by decide +kernel, Or.inl (by decide +kernel)⟩

theorem meets_LoaderWorks_5 :
    let b : Fin 2 := 1
    let data : List Byte := oneData
    let s : State := (keyed placed).setBeaver 1 (some (fetching oneHead))
    let x : Beaver := fetching oneHead
    let h : ShardHead := oneHead
    let got := gcmDecrypt (smapGet Key.empty s.modelKeys h.keyslot).bytes h.nonce (h.bytes ++ h.digest) (data.take h.paylen)
      (data.drop h.paylen)
    let p := ([5] : List Byte)
    let l := (([5], 0) : List Int × Nat)
    s.beaver b.val = some x ∧ x.state = 2 ∧ x.job.kind = .load ∧ x.head = some h ∧ got = some p ∧ h.levels (s.jobDesc x
      h.station).wmode p = some l ∧ codeDigest l.1 = h.digest ∧ s.busyRgs b.val (s.shardRgs x h) = false ∧ (∃ n, n < 1024 ∧
      (s.shard n).state = 0) ∧ ((s.shards.filter (fun e => e.2.state != 0 && e.2.cluster == (s.station h.station).core /
      8)).length < 128) := ⟨by decide +kernel, by decide +kernel, by decide +kernel, by decide +kernel, by decide +kernel,
      by decide +kernel, by decide +kernel,
    by decide +kernel, ⟨0, by decide, by decide +kernel⟩, by decide +kernel⟩

theorem meets_LoaderWorks_6 :
    let b : Fin 2 := 1
    let cl : Cluster := 0
    let co : Core := 0
    let e : Eng := 0
    let rg : RowGroup := 0
    let s : State := programming { beaver with erase := [0, 1], record := some 3 }
    let x : Beaver := { beaver with erase := [0, 1], record := some 3 }
    let rest : List Nat := [1]
    let pe := engIx (coreIx cl co) e.val
    let g := rgIx pe rg.val
    let n := (3 : Nat)
    let g2 := (1 : Nat)
    let tail := ([] : List Nat)
    s.beaver b.val = some x ∧ x.erase = g :: rest ∧ s.stepRuns x pe = true ∧ s.busyRows b.val [g] = false ∧ s.retired pe =
      false ∧ s.stillNamed x.job g = true ∧ x.record = some n ∧ x.job.kind ≠ .erase ∧ x.job.kind ≠ .wipe ∧ rest = g2 :: tail :=
      by
  decide +kernel

theorem meets_LoaderWorks_7 :
    let b : Fin 2 := 1
    let cl : Cluster := 0
    let co : Core := 0
    let e : Eng := 0
    let rg : RowGroup := 0
    let s : State := programming { beaver with erase := [0, 1], record := some 3 }
    let x : Beaver := { beaver with erase := [0, 1], record := some 3 }
    let rest : List Nat := [1]
    let pe := engIx (coreIx cl co) e.val
    let g := rgIx pe rg.val
    let n := (3 : Nat)
    s.beaver b.val = some x ∧ x.erase = g :: rest ∧ s.stepRuns x pe = true ∧ s.busyRows b.val [g] = false ∧ s.retired pe =
      false ∧ s.stillNamed x.job g = true ∧ x.record = some n ∧ x.eraseN < 7 := by
  decide +kernel

theorem meets_LoaderWorks_8 :
    let b : Fin 2 := 1
    let cl : Cluster := 0
    let co : Core := 0
    let e : Eng := 0
    let rg : RowGroup := 0
    let s : State := programming { beaver with erase := [0], job := { job with kind := .erase, what := some (.engines 0 0 1) } }
    let x : Beaver := { beaver with erase := [0], job := { job with kind := .erase, what := some (.engines 0 0 1) } }
    let rest : List Nat := []
    let pe := engIx (coreIx cl co) e.val
    let g := rgIx pe rg.val
    s.beaver b.val = some x ∧ x.erase = g :: rest ∧ s.stepRuns x pe = true ∧ s.busyRows b.val [g] = false ∧ s.retired pe =
      false ∧ s.stillNamed x.job g = true ∧ x.record = none ∧ x.job.kind = .erase ∧ rest = [] ∧ x.rows = [] ∧ x.spare = none ∧
      x.eraseN = 0 := by
  decide +kernel

theorem meets_LoaderWorks_9 :
    let b : Fin 2 := 1
    let cl : Cluster := 0
    let co : Core := 0
    let e : Eng := 0
    let accepted : List (Fin 276) := [3, 4]
    let s : State := programming { beaver with rows := [(0, 5)], record := some 3, iter := 14 }
    let x : Beaver := { beaver with rows := [(0, 5)], record := some 3, iter := 14 }
    let g : Nat := 0
    let row : Nat := 5
    let rest : List (Nat × Nat) := []
    let pe := engIx (coreIx cl co) e.val
    s.beaver b.val = some x ∧ x.erase = [] ∧ x.spare = none ∧ x.rows = (g, row) :: rest ∧ s.stepRuns x pe = true ∧ s.retired pe
      = false ∧ x.iter + 1 < 16 ∧ (∃ p, p ∈ s.pulsed pe ∧ p ∉ x.okPairs ∧ p ∉ accepted.map Fin.val) := by
  decide +kernel

theorem meets_LoaderWorks_10 :
    let b : Fin 2 := 0
    let cl : Cluster := 0
    let co : Core := 0
    let e : Eng := 0
    let s : State := live
    let pe := engIx (coreIx cl co) e.val
    (s.beaver b.val = none ∨ ∃ x, s.beaver b.val = some x ∧ s.stepRuns x pe = false) := by decide +kernel

/-! ### ReadbackAndSweep -/

theorem meets_ReadbackAndSweep_0 :
    let now : Nat := 2000000
    let b : Fin 2 := 1
    let s : State := live.setShard 3 { Shard.free with state := 2, rgs := [0], owed := true }
    let n := (3 : Nat)
    s.dieOn 3 = true ∧ s.beaver b.val = none ∧ (∀ e, e ∈ s.jobs → ∀ j, j ∈ e.2 → j.kind ≠ .load ∧ j.kind ≠ .swap ∧ j.kind ≠
      .sweep ∧ j.kind ≠ .erase) ∧ (s.advance now).oldestDue b.val = some n := by
  decide +kernel

theorem meets_ReadbackAndSweep_1 :
    let now : Nat := 2000000
    let b : Fin 2 := 0
    let s : State := live
    (s.dieOn 3 = false ∨ s.beaver b.val ≠ none ∨ (s.advance now).oldestDue b.val = none) := by decide +kernel

theorem meets_ReadbackAndSweep_2 :
    let b : Fin 2 := 1
    let s : State := checking { Shard.free with digest := codeDigest [], sett := some (codeDigest []) }
    let x : Beaver := { beaver with state := 4, check := some 3 }
    let n : Nat := 3
    let y := s.shard n
    s.beaver b.val = some x ∧ x.check = some n ∧ y.state = 2 ∧ y.wmode ≠ 2 ∧ (∀ pe, pe ∈ s.stepsOf x → pe ∈ s.tokenHeld ∧
      s.coreOn (coreOf pe) = true ∧ (s.engine pe).boundary = true) ∧ y.digest = s.heldDigest y ∧ y.sett = some (s.heldDigest y)
      := by
  decide +kernel

theorem meets_ReadbackAndSweep_3 :
    let b : Fin 2 := 1
    let s : State := checking { Shard.free with digest := [1], sett := none }
    let x : Beaver := { beaver with state := 4, check := some 3 }
    let n : Nat := 3
    let y := s.shard n
    let km := true
    let sett := true
    s.beaver b.val = some x ∧ x.check = some n ∧ y.state = 2 ∧ y.wmode ≠ 2 ∧ (∀ pe, pe ∈ s.stepsOf x → pe ∈ s.tokenHeld ∧
      s.coreOn (coreOf pe) = true ∧ (s.engine pe).boundary = true) ∧ ((y.digest ≠ s.heldDigest y ∨ km = false) ∧ (y.sett ≠ some
      (s.heldDigest y) ∨ sett = false)) := by
  decide +kernel

theorem meets_ReadbackAndSweep_4 :
    let b : Fin 2 := 1
    let s : State := { checking Shard.free with tokenHeld := [] }
    let x : Beaver := { beaver with state := 4, check := some 3 }
    let n : Nat := 3
    s.beaver b.val = some x ∧ x.check = some n ∧ (s.shard n).state = 2 ∧ (∃ pe, pe ∈ s.stepsOf x ∧ ¬ (pe ∈ s.tokenHeld ∧
      s.coreOn (coreOf pe) = true ∧ (s.engine pe).boundary = true)) := by
  decide +kernel

theorem meets_ReadbackAndSweep_5 :
    let now : Nat := 120000000000
    let n : Fin 1024 := 3
    let s : State := (live.setF .WLD_CHKCFG_INTERVAL 0 60).setShard 3 { Shard.free with state := 2 }
    let y := s.shard n.val
    y.state = 2 ∧ y.overdue = false ∧ y.checked + y.idle + 2 * s.checkInterval ≤ max s.time now := by decide +kernel

theorem meets_ReadbackAndSweep_6 :
    let now : Nat := 2000000
    let n : Fin 1024 := 0
    let s : State := live
    let y := s.shard n.val
    (y.state ≠ 2 ∨ y.overdue = true ∨ max s.time now < y.checked + y.idle + 2 * s.checkInterval) := by decide +kernel

theorem meets_ReadbackAndSweep_7 :
    let s : State := live
    s.dieOn 3 = true := by decide +kernel

theorem meets_ReadbackAndSweep_8 :
    let s : State := live.setF .PWR_DIEDOM_ON 0 0
    s.dieOn 3 = false := by decide +kernel

theorem meets_ReadbackAndSweep_9 :
    let st : StationId := 1
    let s : State := live.setStation 1 { station with layerTiles := 5, holds := [.sweep], state := 3 }
    let y := s.station st.val
    y.state ≠ 0 ∧ y.layerTiles ≠ 0 ∧ y.tiles = 0 ∧ Hold.sweep ∈ y.holds := by decide +kernel

theorem meets_ReadbackAndSweep_10 :
    let st : StationId := 0
    let s : State := live
    let y := s.station st.val
    (y.state = 0 ∨ y.layerTiles = 0 ∨ y.tiles ≠ 0 ∨ Hold.sweep ∉ y.holds) := by decide +kernel

/-! ### StartsAndResets -/

theorem meets_StartsAndResets_0 :
    let found : PowerOnInputs := Tests.found (some Tests.image)
    let s : State := State.reset
    let i := Tests.image
    found.imageA = some i ∧ found.imageB = none ∧ i.authentic = true ∧ s.fwTarget = none ∧ (s.events.commit ≠ some true ∨
      s.settQueue = []) ∧ s.getF .NVS_FWARB_COUNT 0 ≤ i.secver := by
  decide +kernel

theorem meets_StartsAndResets_1 :
    let found : PowerOnInputs := Tests.found none
    found.imageA = none ∧ found.imageB = none := by decide +kernel

theorem meets_StartsAndResets_2 :
    let s : State := { live with norA := some Tests.image }
    let i := Tests.image
    let c := DieResetCause.pfWrite 0x5A17#16 true
    let n := (2 : Nat)
    s.norA = some i ∧ s.norB = none ∧ i.authentic = true ∧ s.fwTarget = none ∧ s.getF .NVS_FWARB_COUNT 0 ≤ i.secver ∧ ((c =
      DieResetCause.rstN ∧ n = 1) ∨ (c = DieResetCause.pfWrite 0x5A17#16 true ∧ n = 2)) := by
  decide +kernel

theorem meets_StartsAndResets_3 :
    let k := (0 : Nat)
    let d := (0 : Nat)
    (k ≠ 0x5A17#16 ∨ d = false) := by decide +kernel

/-! ### BearAndService -/

theorem meets_BearAndService_0 :
    let s : State := live
    s.shutDown = false ∧ (∀ e, e ∈ s.parts → e.2 = none) ∧ (∀ e, e ∈ s.ctxs → e.2.state = 0) ∧ s.getF .GCTL_PWRST_STATE 0 = 0
      := by
  decide +kernel

theorem meets_BearAndService_1 :
    let s : State := owned
    s.shutDown = false ∧ ((∃ e, e ∈ s.parts ∧ e.2 ≠ none) ∨ ∃ e, e ∈ s.ctxs ∧ e.2.state ≠ 0) := by decide +kernel

theorem meets_BearAndService_4 :
    let s : State := live.setF .GCTL_PWRST_STATE 0 2
    s.shutDown = false ∧ s.getF .GCTL_PWRST_STATE 0 = 2 := by decide +kernel

theorem meets_BearAndService_5 :
    let s : State := live.setF .GCTL_PWRST_STATE 0 1
    s.shutDown = false ∧ s.getF .GCTL_PWRST_STATE 0 = 1 := by decide +kernel

theorem meets_BearAndService_6 :
    let s : State := live
    s.shutDown = false ∧ s.getF .GCTL_PWRST_STATE 0 ≠ 1 ∧ s.getF .GCTL_PWRST_STATE 0 ≠ 2 := by decide +kernel

theorem meets_BearAndService_7 :
    let s : State := live.setF .GCTL_PWRST_STATE 0 3
    s.getF .GCTL_PWRST_STATE 0 = 3 ∧ (∀ c p, c < 16 → p ∈ s.passQ c → p.full = true ∨ p.engines = []) := ⟨by decide +kernel,
      fun c p _ hp => absurd (show p ∈ ([] : List CalPass) from hp) List.not_mem_nil⟩

theorem meets_BearAndService_8 :
    let s : State := live
    (s.getF .GCTL_PWRST_STATE 0 ≠ 3 ∨ ∃ c p, c < 16 ∧ p ∈ s.passQ c ∧ p.full = false ∧ p.engines ≠ []) := Or.inl
      (by decide +kernel)

theorem meets_BearAndService_9 :
    let now : Nat := 2000000
    let rtc : Nat := 7
    let s : State := live.setF .THM_STAT_SHUT 0 1
    let c : Instr := (.prepare 2000000 7 true)
    s.shutDown = true ∧ (c = .bear now ∨ c = .wake now ∨ ∃ ok, c = .prepare now rtc ok) := ⟨by decide +kernel, Or.inr (Or.inr
      ⟨true, rfl⟩)⟩

theorem meets_BearAndService_12 :
    let s : State := owned
    s.shutDown = false ∧ (∃ e, e ∈ s.parts ∧ e.2 ≠ none) := by decide +kernel

theorem meets_BearAndService_14 :
    let cl : Cluster := 3
    let s : State := (live.setF .GCTL_START_STEP 0 6).setF .GCTL_START_FULL 0 0xFFF7
    s.getF .GCTL_START_STEP 0 = 6 ∧ cl.val ∉ s.deadCls ∧ (∀ e, e ∈ s.shards → e.2.state = 2 → e.2.cluster = cl.val → e.2.owed =
      false) ∧ (∀ p, p ∈ s.passQ cl.val → p.engines = []) ∧ (s.getF .GCTL_START_FULL 0).testBit cl.val = false := by
  decide +kernel

theorem meets_BearAndService_15 :
    let cl : Cluster := 0
    let s : State := live
    (s.getF .GCTL_START_STEP 0 ≠ 6 ∨ cl.val ∈ s.deadCls ∨ (∃ p, p ∈ s.passQ cl.val ∧ p.engines ≠ [])) := by
  decide +kernel

/-! ### TakeoverAndRails -/

theorem meets_TakeoverAndRails_4 :
    let now : Nat := 2000000
    let s : State := live.setF .GCTL_MGR_STANDBY 0 1
    let c : Instr := (.switch 2000000)
    (c = .heartbeatLoss now ∨ c = .mgrWatchdog now ∨ c = .mgrMemoryError now ∨ c = .switch now) ∧ s.bit .GCTL_MGR_STANDBY 0 =
      true := by
  decide +kernel

theorem meets_TakeoverAndRails_5 :
    let s : State := live
    s.bit .GCTL_MGR_STANDBY 0 = false := by decide +kernel

theorem meets_TakeoverAndRails_9 :
    let s : State := live
    6 ≤ s.getF .GCTL_START_STEP 0 := by decide +kernel

theorem meets_TakeoverAndRails_10 :
    let s : State := live.setF .GCTL_START_STEP 0 5
    s.getF .GCTL_START_STEP 0 < 6 := by decide +kernel

theorem meets_TakeoverAndRails_14 :
    let r : Rail := .serdes
    (r = .vddCore ∨ r = .vddAna ∨ r = .serdes) := by decide +kernel

theorem meets_TakeoverAndRails_15 :
    let s : State := { live with wioDown := true }
    s.wioDown = true := by decide +kernel

theorem meets_TakeoverAndRails_16 :
    let s : State := live
    s.wioDown = false := by decide +kernel

/-! ### PowerManaged -/

theorem meets_PowerManaged_1 :
    let now : Nat := 2000000
    let s : State := live
    (s.advance now).clock % 100000 = 0 := by decide +kernel

theorem meets_PowerManaged_2 :
    let now : Nat := 2000001
    let s : State := live
    (s.advance now).clock % 100000 ≠ 0 := by decide +kernel

theorem meets_PowerManaged_3 :
    let now : Nat := 2000000
    let answers : List (Option RegAnswer) := [none, some ⟨0x0000#16, 500⟩, none, none, none, none]
    let s : State := live.setF .PWR_REG_VALID 1 1
    let n : Nat := 1
    let c : Instr := (.smbalert 2000000 [none, some ⟨0x0000#16, 500⟩, none, none, none, none])
    let a := ⟨0, 500⟩
    (c = .pmbusTelemetry now answers ∨ c = .smbalert now answers) ∧ n < 6 ∧ s.bit .PWR_REG_VALID n = true ∧ s.bit
      .PWR_REG_STAT_LOST n = false ∧ answers.getD n none = some a := by
  decide +kernel

theorem meets_PowerManaged_4 :
    let now : Nat := 2000000
    let answers : List (Option RegAnswer) := List.replicate 6 none
    let s : State := { live.setF .PWR_REG_VALID 1 1 with regFails := [(1, 2)] }
    let n : Nat := 1
    let c : Instr := (.pmbusTelemetry 2000000 (List.replicate 6 none))
    (c = .pmbusTelemetry now answers ∨ c = .smbalert now answers) ∧ n < 6 ∧ s.bit .PWR_REG_VALID n = true ∧ s.bit
      .PWR_REG_STAT_LOST n = false ∧ answers.getD n none = none := by
  decide +kernel

theorem meets_PowerManaged_5 :
    let now : Nat := 100000000
    let n : Fin 6 := 1
    let s : State := (live.setF .PWR_REG_VALID 1 1).setF .PWR_REG_STAT_LOST 1 1
    s.bit .PWR_REG_STAT_LOST n.val = true ∧ smapGet 0 s.regTried n.val + 100000000 ≤ max s.time now := by
  decide +kernel

theorem meets_PowerManaged_7 :
    let now : Nat := 2000000
    let n : Fin 6 := 0
    let s : State := live
    (s.bit .PWR_REG_STAT_LOST n.val = false ∨ max s.time now < smapGet 0 s.regTried n.val + 100000000) := by
  decide +kernel

theorem meets_PowerManaged_8 :
    let n : Fin 6 := 0
    let s : State := live
    (s.pgmFault = false ∨ s.clearsPgm n.val = false) := by decide +kernel

theorem meets_PowerManaged_9 :
    let n : Fin 6 := 0
    let s : State := { live with pgmFault := true }
    s.pgmFault = true ∧ s.clearsPgm n.val = true := by decide +kernel

/-! ### TemperatureManaged -/

theorem meets_TemperatureManaged_0 :
    let temps : List Int := []
    let s : State := live
    (s.shutDown = true ∨ ∀ n, n < 72 → s.sensorValid n = true → ∃ v, temps[n]? = some v ∧ v < 920) := by
  decide +kernel

theorem meets_TemperatureManaged_1 :
    let temps : List Int := List.replicate 72 920
    let s : State := { live.setF .THM_SENS_VALID 5 1 with sensors := [(5, { last := [920], bad := 0, good := 0 })] }
    let n : Nat := 5
    let v : Int := 920
    n < 72 ∧ s.sensorValid n = true ∧ temps[n]? = some v ∧ 920 ≤ v ∧ 920 ≤ (s.sensor n).last.headD 0 ∧ s.shutDown = false := by
  decide +kernel

theorem meets_TemperatureManaged_3 :
    let cl : Cluster := 0
    let s : State := live.setF .CPT_STAT_LOWSENS 0 1
    (s.bit .CPT_STAT_LOWSENS cl.val = true ∨ cl.val ∈ s.bandMoved) := by decide +kernel

theorem meets_TemperatureManaged_4 :
    let cl : Cluster := 0
    let s : State := (live.setF .CPT_STAT_BAND 0 3).setF .CPT_STAT_MEDIAN 0 840
    let b := (3 : Nat)
    let thr := (840 : Int)
    s.bit .CPT_STAT_LOWSENS cl.val = false ∧ cl.val ∉ s.bandMoved ∧ s.band cl.val = b ∧ b < 4 ∧ bandRise.getD b 0 = thr ∧ thr ≤
      s.median cl.val := by
  decide +kernel

theorem meets_TemperatureManaged_5 :
    let cl : Cluster := 0
    let s : State := (live.setF .CPT_STAT_BAND 0 1).setF .CPT_STAT_MEDIAN 0 295
    let b := (0 : Nat)
    let thr := (296 : Int)
    s.bit .CPT_STAT_LOWSENS cl.val = false ∧ cl.val ∉ s.bandMoved ∧ s.band cl.val = b + 1 ∧ b < 4 ∧ bandFall.getD b 0 = thr ∧
      s.median cl.val < thr := by
  decide +kernel

theorem meets_TemperatureManaged_6 :
    let cl : Cluster := 0
    let s : State := live
    s.bit .CPT_STAT_LOWSENS cl.val = false ∧ cl.val ∉ s.bandMoved ∧ s.band cl.val ≤ 4 ∧ (s.band cl.val < 4 → s.median cl.val <
      bandRise.getD (s.band cl.val) 0) ∧ (0 < s.band cl.val → bandFall.getD (s.band cl.val - 1) 0 ≤ s.median cl.val) := by
  decide +kernel

theorem meets_TemperatureManaged_7 :
    let now : Nat := 2000000
    let cl : Cluster := 0
    let s : State := ((live.setF .CPT_STAT_BAND 0 4).setF .CPT_STAT_MEDIAN 0 840).setF .CPT_STAT_THR 0 14
    let u := (s.advance now).bandStep cl.val
    s.bit .CPT_STAT_LOWSENS cl.val = false ∧ cl.val ∉ s.thrJudged ∧ u.band cl.val = 4 ∧ 840 ≤ s.median cl.val ∧ smapGet 0
      s.medPrev cl.val ≤ s.median cl.val := by
  decide +kernel

theorem meets_TemperatureManaged_8 :
    let cl : Cluster := 0
    let s : State := live
    s.bit .CPT_STAT_LOWSENS cl.val = false ∧ cl.val ∉ s.thrJudged ∧ s.median cl.val < 824 := by decide +kernel

theorem meets_TemperatureManaged_9 :
    let cl : Cluster := 0
    let s : State := { live with thrJudged := [0] }
    (s.bit .CPT_STAT_LOWSENS cl.val = true ∨ cl.val ∈ s.thrJudged) := by decide +kernel

/-! ### SettStore -/

theorem meets_SettStore_0 :
    let off : BitVec 18 := 196668
    let data : List Byte := [1, 2, 3, 4]
    let s : State := live
    0 < data.length ∧ 196608 ≤ off.toNat ∧ s.getF .NVS_CTL_PROT 0 = 0 ∧ s.settBuf = none ∧ s.settList = [] ∧ off.toNat / 64 =
      (off.toNat + data.length - 1) / 64 := by
  decide +kernel

theorem meets_SettStore_1 :
    let off : BitVec 18 := 196604
    let data : List Byte := [1, 2, 3, 4]
    0 < data.length ∧ off.toNat + data.length ≤ 196608 := by decide +kernel

theorem meets_SettStore_2 :
    let s : State := { live with settBuf := some page }
    s.settPages ≠ [] := by decide +kernel

theorem meets_SettStore_3 :
    let s : State := live
    s.settPages = [] := by decide +kernel

theorem meets_SettStore_5 :
    let s : State := live
    s.events.commit = none := by decide +kernel

theorem meets_SettStore_6 :
    let s : State := { live with settQueue := [[page]], events := { live.events with commit := some true } }
    let c := [page]
    let rest := ([] : List (List SettPage))
    s.events.commit = some true ∧ s.settQueue = c :: rest := by decide +kernel

theorem meets_SettStore_7 :
    let s : State := { live with events := { live.events with commit := some false } }
    s.events.commit = some false := by decide +kernel

theorem meets_SettStore_8 :
    let s : State := live
    s.ringNext < 2048 := by decide +kernel

theorem meets_SettStore_9 :
    let s : State := live
    s.getF .NVS_STAT_SPARES 0 < 2 ^ Fld.NVS_STAT_SPARES.width := by decide +kernel

/-! ### FusesAndKeys -/

theorem meets_FusesAndKeys_0 :
    let key : BitVec 16 := 0
    let s : State := live
    (key ≠ 0xC3A5#16 ∨ s.lcBusy ≠ none ∨ s.shutDown = true) := by decide +kernel

theorem meets_FusesAndKeys_1 :
    let n : BitVec 3 := 2
    let s : State := { live with lc := [(2, List.replicate 8 { value := 0xFF, ok := false })] }
    let k := n.toNat
    s.lcBusy = none ∧ s.shutDown = false ∧ k < 6 ∧ 8 ≤ (s.lcSlots k).length := by decide +kernel

theorem meets_FusesAndKeys_2 :
    let n : BitVec 3 := 0
    let s : State := live.setF .NVS_LCVAL_VALUE 0 0xFFFF
    let k := n.toNat
    let v := s.getF .NVS_LCVAL_VALUE 0
    s.lcBusy = none ∧ s.shutDown = false ∧ (6 ≤ k ∨ (s.lcSlots k).length < 8) ∧ s.settingValueBad k v = true := by
  decide +kernel

theorem meets_FusesAndKeys_3 :
    let n : BitVec 3 := 0
    let s : State := { live.setF .NVS_LCVAL_VALUE 0 4 with numVfs := 2 }
    let k := n.toNat
    let v := s.getF .NVS_LCVAL_VALUE 0
    s.lcBusy = none ∧ s.shutDown = false ∧ (6 ≤ k ∨ (s.lcSlots k).length < 8) ∧ s.settingValueBad k v = false ∧ s.settingInUse
      k v = true := by
  decide +kernel

theorem meets_FusesAndKeys_4 :
    let n : BitVec 3 := 0
    let s : State := live.setF .NVS_LCVAL_VALUE 0 128
    let k := n.toNat
    let v := s.getF .NVS_LCVAL_VALUE 0
    s.lcBusy = none ∧ s.shutDown = false ∧ (6 ≤ k ∨ (s.lcSlots k).length < 8) ∧ s.settingValueBad k v = false ∧ s.settingInUse
      k v = false ∧ v = s.setting k := by
  decide +kernel

theorem meets_FusesAndKeys_5 :
    let n : BitVec 3 := 0
    let s : State := live
    let k := n.toNat
    let v := s.getF .NVS_LCVAL_VALUE 0
    s.lcBusy = none ∧ s.shutDown = false ∧ (6 ≤ k ∨ (s.lcSlots k).length < 8) ∧ s.settingValueBad k v = false ∧ s.settingInUse
      k v = false ∧ v ≠ s.setting k := by
  decide +kernel

theorem meets_FusesAndKeys_7 :
    let s : State := { live with lcBusy := some (1, 2) }
    let n := (1 : Nat)
    let v := (2 : Nat)
    s.lcBusy = some (n, v) := by decide +kernel

theorem meets_FusesAndKeys_8 :
    let target : BitVec 7 := 5
    let s : State := { live with image := some Tests.image }
    let top := match s.image with | some i => i.secver | none => 0
    target.toNat ≤ 64 ∧ target.toNat ≤ top ∧ s.fwTarget = none ∧ s.getF .NVS_FWARB_COUNT 0 < target.toNat := by
  decide +kernel

theorem meets_FusesAndKeys_9 :
    let target : BitVec 7 := 0
    let s : State := live
    let top := match s.image with | some i => i.secver | none => 0
    (64 < target.toNat ∨ top < target.toNat ∨ s.fwTarget ≠ none ∨ target.toNat ≤ s.getF .NVS_FWARB_COUNT 0) := by
  decide +kernel

theorem meets_FusesAndKeys_10 :
    let s : State := live
    s.fwTarget = none := by decide +kernel

theorem meets_FusesAndKeys_11 :
    let s : State := { live with fwTarget := some 5 }
    let n := (5 : Nat)
    s.fwTarget = some n ∧ n ≤ 64 ∧ s.getF .NVS_FWARB_COUNT 0 < 2 ^ Fld.NVS_FWARB_COUNT.width := by decide +kernel

theorem meets_FusesAndKeys_12 :
    let s : State := live
    s.bit .NVS_KSCMD_BUSY 0 = false := by decide +kernel

theorem meets_FusesAndKeys_14 :
    let s : State := live.setF .NVS_KSCMD_BUSY 0 1
    s.bit .NVS_KSCMD_BUSY 0 = true := by decide +kernel

/-! ### WatchPointsAndDigests -/

theorem meets_WatchPointsAndDigests_0 :
    let now : Nat := 2000000
    let fn : Func := 0
    let entry : List Word := words [0x30, 0, 0x00010005, 0x00020000]
    let s : State := asking running 0 (words [0x30, 0, 0x00010005, 0x00020000])
    let u := (s.advance now).takeAccepted fn.val entry
    let n := (5 : Nat)
    s.nextUp fn.val 0x30 entry = true ∧ u.armCode fn.val entry = 0 ∧ u.armPoint entry = some n := by decide +kernel

theorem meets_WatchPointsAndDigests_1 :
    let now : Nat := 2000000
    let fn : Func := 0
    let entry : List Word := words [0x30, 0, 0x00020005, 0x00020000]
    let s : State := asking running 0 (words [0x30, 0, 0x00020005, 0x00020000])
    let u := (s.advance now).takeAccepted fn.val entry
    s.nextUp fn.val 0x30 entry = true ∧ u.armCode fn.val entry ≠ 0 := by decide +kernel

theorem meets_WatchPointsAndDigests_2 :
    let fn : Func := 0
    let entry : List Word := words [0x31, 0, 5, 1]
    let s : State := asking live 0 (words [0x31, 0, 5, 1])
    s.nextUp fn.val 0x31 entry = true ∧ (entryClean entry 3 = false ∨ bits (entryWord entry 2) 31 6 ≠ 0) := by
  decide +kernel

theorem meets_WatchPointsAndDigests_3 :
    let fn : Func := 0
    let entry : List Word := words [0x31, 0, 5]
    let s : State := asking live 0 (words [0x31, 0, 5])
    let n := bits (entryWord entry 2) 5 0
    s.nextUp fn.val 0x31 entry = true ∧ entryClean entry 3 = true ∧ bits (entryWord entry 2) 31 6 = 0 ∧ (s.bit
      .OBS_TW_CFG_ARMED n = false ∨ s.getF .OBS_TW_CFG_OWNER n ≠ fn.val) := by
  decide +kernel

theorem meets_WatchPointsAndDigests_4 :
    let fn : Func := 0
    let entry : List Word := words [0x31, 0, 5]
    let s : State := asking watching 0 (words [0x31, 0, 5])
    let n := bits (entryWord entry 2) 5 0
    s.nextUp fn.val 0x31 entry = true ∧ entryClean entry 3 = true ∧ bits (entryWord entry 2) 31 6 = 0 ∧ s.bit .OBS_TW_CFG_ARMED
      n = true ∧ s.getF .OBS_TW_CFG_OWNER n = fn.val ∧ s.dieOn 5 = true := by
  decide +kernel

theorem meets_WatchPointsAndDigests_5 :
    let n : Fin 64 := 5
    let s : State := watching
    s.bit .OBS_TW_CFG_ARMED n.val = true ∧ s.dieOn 5 = true ∧ (s.point n.val).size ≤ (s.point n.val).n := by
  decide +kernel

theorem meets_WatchPointsAndDigests_6 :
    let n : Fin 64 := 0
    let s : State := live
    (s.bit .OBS_TW_CFG_ARMED n.val = false ∨ s.dieOn 5 = false ∨ (s.point n.val).n < (s.point n.val).size) := by
  decide +kernel

theorem meets_WatchPointsAndDigests_7 :
    let s : State := live
    s.dieOn 5 = true := by decide +kernel

theorem meets_WatchPointsAndDigests_8 :
    let s : State := watching.setF .PWR_DIEDOM_ON 0 31
    s.dieOn 5 = false := by decide +kernel

theorem meets_WatchPointsAndDigests_9 :
    let fn : Func := 0
    let entry : List Word := words [0x33, 0, 64, 0, 32, 0x8000]
    let s : State := asking live 0 (words [0x33, 0, 64, 0, 32, 0x8000])
    let off := entryWord entry 2 + 4294967296 * entryWord entry 3
    let len := entryWord entry 4
    let ok := entryClean entry 7 = true ∧ off % 64 = 0 ∧ len % 64 = 0 ∧ 0 < len ∧ len ≤ 4194304
    s.nextUp fn.val 0x33 entry = true ∧ (¬ ok) := by decide +kernel

theorem meets_WatchPointsAndDigests_10 :
    let now : Nat := 2000000
    let fn : Func := 0
    let entry : List Word := words [0x33, 0, 0x08000000, 0, 64, 0x8000]
    let s : State := asking live 0 (words [0x33, 0, 0x08000000, 0, 64, 0x8000])
    let u := (s.advance now).takeAccepted fn.val entry
    let off := entryWord entry 2 + 4294967296 * entryWord entry 3
    let len := entryWord entry 4
    let ok := entryClean entry 7 = true ∧ off % 64 = 0 ∧ len % 64 = 0 ∧ 0 < len ∧ len ≤ 4194304
    s.nextUp fn.val 0x33 entry = true ∧ ok ∧ u.regionOf fn.val off len = false := by decide +kernel

theorem meets_WatchPointsAndDigests_11 :
    let now : Nat := 2000000
    let fn : Func := 0
    let entry : List Word := words [0x33, 0, 64, 0, 64, 0x8000]
    let s : State := asking live 0 (words [0x33, 0, 64, 0, 64, 0x8000])
    let u := (s.advance now).takeAccepted fn.val entry
    let off := entryWord entry 2 + 4294967296 * entryWord entry 3
    let len := entryWord entry 4
    let ok := entryClean entry 7 = true ∧ off % 64 = 0 ∧ len % 64 = 0 ∧ 0 < len ∧ len ≤ 4194304
    s.nextUp fn.val 0x33 entry = true ∧ ok ∧ u.regionOf fn.val off len = true ∧ s.dieOn 5 = true := by decide +kernel

theorem meets_WatchPointsAndDigests_12 :
    let s : State := live
    s.digests = [] := by decide +kernel

theorem meets_WatchPointsAndDigests_13 :
    let s : State := { live with digests := [{ fn := 0, tag := 9, off := 64, len := 64, addr := 0x8000 : RegionDigest }] }
    let r := { fn := 0, tag := 9, off := 64, len := 64, addr := 0x8000 : RegionDigest }
    let rest := ([] : List RegionDigest)
    s.digests = r :: rest ∧ s.dieOn 5 = true := by decide +kernel

theorem meets_WatchPointsAndDigests_14 :
    let s : State :=
      { live.setF .PWR_DIEDOM_ON 0 31 with digests := [{ fn := 0, tag := 9, off := 64, len := 64, addr := 0x8000 : RegionDigest }] }
    let r := { fn := 0, tag := 9, off := 64, len := 64, addr := 0x8000 : RegionDigest }
    let rest := ([] : List RegionDigest)
    s.digests = r :: rest ∧ s.dieOn 5 = false := by decide +kernel

theorem meets_WatchPointsAndDigests_15 :
    let fn : Func := 0
    let entry : List Word := words [0x32, 0, 1]
    let s : State := asking live 0 (words [0x32, 0, 1])
    s.nextUp fn.val 0x32 entry = true ∧ entryClean entry 3 = true ∧ bits (entryWord entry 2) 31 1 = 0 ∧ s.dieOn 5 = true := by
  decide +kernel

theorem meets_WatchPointsAndDigests_16 :
    let now : Nat := 2000000
    let fn : Func := 0
    let entry : List Word := words [0x33]
    let s : State := live
    let c : Instr := (.digestRegion 2000000 0 (words [0x33]))
    let op : Nat := 0x33
    ((c = .watchArm now fn entry ∧ op = 0x30) ∨ (c = .watchDisarm now fn entry ∧ op = 0x31) ∨ (c = .traceConsent now fn entry ∧
      op = 0x32) ∨ (c = .digestRegion now fn entry ∧ op = 0x33)) ∧ s.nextUp fn.val op entry = false := by
  decide +kernel

/-! ### TraceQueuesAndDebug -/

theorem meets_TraceQueuesAndDebug_0 :
    let tn : Fin 128 := 0
    let s : State := tenant
    (s.fnst (tn.val + 1)).enabled = true ∧ (s.fnst (tn.val + 1)).flr = none := by decide +kernel

theorem meets_TraceQueuesAndDebug_1 :
    let tn : Fin 128 := 0
    let s : State := live
    ((s.fnst (tn.val + 1)).enabled = false ∨ (s.fnst (tn.val + 1)).flr ≠ none) ∧ s.perst = false := by decide +kernel

theorem meets_TraceQueuesAndDebug_3 :
    let s : State := live
    s.dieOn 5 = true ∧ s.bit .OBS_TRCFG_EN 0 = false := by decide +kernel

theorem meets_TraceQueuesAndDebug_4 :
    let s : State := live.setF .OBS_TRCFG_EN 0 1
    s.dieOn 5 = true ∧ s.bit .OBS_TRCFG_EN 0 = true := by decide +kernel

theorem meets_TraceQueuesAndDebug_6 :
    let s : State := live.setF .PWR_DIEDOM_ON 0 31
    s.dieOn 5 = false := by decide +kernel

theorem meets_TraceQueuesAndDebug_7 :
    let now : Nat := 2000000
    let cl : Cluster := 0
    let s : State := (((live.setF .OBS_TRCFG_EN 0 1).setF .OBS_TRSIZE_BLOCKS 0 4).setF .OBS_TRPROD_INDEX 0 3).setF
      .OBS_TRCONS_INDEX 0 2
      |>.setTrace 0 { TraceRing.empty with recs := List.replicate 253 ⟨0, 1, 0, 0, 0⟩ }
    let n := s.getF .OBS_TRSIZE_BLOCKS 0
    let prod := s.getF .OBS_TRPROD_INDEX 0
    s.bit .OBS_TRCFG_EN 0 = true ∧ s.dieOn 5 = true ∧ 0 < n ∧ (s.advance now).drainTurn = some cl.val ∧ s.traceFull prod =
      false := by
  decide +kernel

theorem meets_TraceQueuesAndDebug_8 :
    let now : Nat := 2000000
    let cl : Cluster := 0
    let s : State := live
    let n := s.getF .OBS_TRSIZE_BLOCKS 0
    let prod := s.getF .OBS_TRPROD_INDEX 0
    (s.bit .OBS_TRCFG_EN 0 = false ∨ s.dieOn 5 = false ∨ n = 0 ∨ (s.advance now).drainTurn ≠ some cl.val ∨ s.traceFull prod =
      true) := by
  decide +kernel

theorem meets_TraceQueuesAndDebug_10 :
    let fn : Func := 0
    let s : State := live
    Hosted s fn.val ∧ (∀ p, p ∈ s.events.pending → p.1 ≠ fn.val) := by delta Hosted; decide +kernel

theorem meets_TraceQueuesAndDebug_11 :
    let fn : Func := 0
    let s : State := logged 1 [event] []
    let p := s.events.path (1 + fn.val)
    let r := event
    let rest := ([] : List EventRec)
    p.table = r :: rest ∧ queueRoom p.recs 1 = true := by decide +kernel

theorem meets_TraceQueuesAndDebug_12 :
    let fn : Func := 0
    let s : State := live
    let p := s.events.path (1 + fn.val)
    (p.table = [] ∨ queueRoom p.recs 1 = false) := by decide +kernel

theorem meets_TraceQueuesAndDebug_13 :
    let now : Nat := 62500000
    let s : State := logged 0 [event] []
    let p := s.events.path 0
    let level := min 4000000000 (s.events.bucket + (max s.time now - s.events.bucketAt))
    let r := event
    let rest := ([] : List EventRec)
    p.table = r :: rest ∧ 62500000 ≤ level := by decide +kernel

theorem meets_TraceQueuesAndDebug_14 :
    let now : Nat := 2000000
    let s : State := live
    let p := s.events.path 0
    let level := min 4000000000 (s.events.bucket + (max s.time now - s.events.bucketAt))
    (p.table = [] ∨ level < 62500000) := by decide +kernel

theorem meets_TraceQueuesAndDebug_15 :
    let s : State := live
    s.setting 1 = 0 := by decide +kernel

theorem meets_TraceQueuesAndDebug_16 :
    let a : DebugAccess := .writeReg 0 0
    let s : State := live
    s.setting 1 < 2 ∧ ((∃ off v, a = .writeReg off v) ∨ (∃ off data, a = .writeMem off data) ∨ (∃ off data, a = .settWrite off
      data)) := ⟨by decide +kernel, Or.inl ⟨0, 0, rfl⟩⟩

theorem meets_TraceQueuesAndDebug_17 :
    let off : BitVec 26 := BitVec.ofNat 26 (Reg.NVS_LCVAL.at_ [])
    let s : State := debugged
    let r : Reg := .NVS_LCVAL
    let i : Nat := 0
    plainOffset off.toNat = true ∧ 1 ≤ s.setting 1 ∧ s.bar0On off.toNat = true ∧ regAt off.toNat = some (r, i) ∧ r ≠
      .OBS_TW_STAT ∧ lowRegs.contains r = false := by
  decide +kernel

theorem meets_TraceQueuesAndDebug_18 :
    let off : BitVec 27 := 0x13
    let len : Nat := 16
    let s : State := debugged
    bar2Range off.toNat len 4096 = true ∧ 1 ≤ s.setting 1 ∧ s.rangeOn off.toNat len = true ∧ (∀ w, w ∈ wordsOf off.toNat len →
      s.syndrome w = 0) := by
  decide +kernel

theorem meets_TraceQueuesAndDebug_19 :
    let off : BitVec 27 := 0x13
    let data : List Byte := [1, 2, 3]
    let s : State := debugged
    bar2Range off.toNat data.length 512 = true ∧ 2 ≤ s.setting 1 ∧ s.rangeOn off.toNat data.length = true ∧ (∀ w, w ∈ wordsOf
      off.toNat data.length → s.syndrome w = 0 ∧ guarded (8 * w) = false) := by
  decide +kernel

theorem meets_TraceQueuesAndDebug_20 :
    let s : State := debugged
    2 ≤ s.setting 1 ∧ s.getF .NVS_CTL_PROT 0 = 0 ∧ s.settBuf = none ∧ s.settList = [] := by decide +kernel

end Sys2Proof.Tests
end

section
/-!
PROOF. Access errors (R25, R27, R30): what the capture of an access error writes and leaves, what an access of the physical function
to a block without power does, and what ACCERR_CLEAR does.
-/

namespace Sys2Proof.Machine
open Sys2Proof

/-! ### Registers kept -/

/-- What keeps the registers of a state brought up to the time of an occurrence keeps those of the state itself. -/
theorem KeepsRegs.of_advance {s t : State} {now : Nat} {w : Fld → Nat → Bool} (h : KeepsRegs (s.advance now) t w) :
    KeepsRegs s t w := h

/-- A write of one field keeps every other. -/
theorem State.setF_keepsRegs (s : State) (g : Fld) (i v : Nat) : KeepsRegs s (s.setF g i v) (fun f j => f == g && j == i) := by
  intro f j hf
  refine State.getF_setF_ne s v ?_
  rintro ⟨rfl, rfl⟩
  simp at hf

/-! ### The capture -/

/-- The fields that the first access error after VALID was cleared writes (R30). -/
def accErrFields : List Fld :=
  [.GCTL_ACCERR_VALID, .GCTL_ACCERR_KIND, .GCTL_ACCERR_WRITE, .GCTL_ACCERR_MASTER, .GCTL_ACCADDR_BAR, .GCTL_ACCADDR_OFFSET]

/-- A later access error sets OVERRUN and does not overwrite the capture (R30). -/
theorem State.accErr_of_valid {s : State} (hv : s.bit .GCTL_ACCERR_VALID 0 = true) (kind : Nat) (w : Bool) (m : Nat) (bar2 : Bool)
    (off : Nat) : s.accErr kind w m bar2 off = s.setF .GCTL_ACCERR_OVERRUN 0 1 := if_pos hv

/-- The first access error after VALID was cleared writes its capture field by field (R30). -/
theorem State.accErr_of_clear {s : State} (hv : s.bit .GCTL_ACCERR_VALID 0 = false) (kind : Nat) (w : Bool) (m : Nat) (bar2 : Bool)
    (off : Nat) : s.accErr kind w m bar2 off =
      (((((s.setF .GCTL_ACCERR_VALID 0 1).setF .GCTL_ACCERR_KIND 0 kind).setF .GCTL_ACCERR_WRITE 0 w.toNat).setF
        .GCTL_ACCERR_MASTER 0 m).setF .GCTL_ACCADDR_BAR 0 bar2.toNat).setF .GCTL_ACCADDR_OFFSET 0 off :=
  if_neg (by simp [hv])

section Capture
variable {s : State} (hv : s.bit .GCTL_ACCERR_VALID 0 = false) (kind : Nat) (w : Bool) (m : Nat) (bar2 : Bool) (off : Nat)
include hv

/-- What every field reads after the first access error: the capture cut to the widths of its fields, and elsewhere what was there. -/
theorem State.getF_accErr (f : Fld) (i : Nat) : (s.accErr kind w m bar2 off).getF f i =
    if Fld.GCTL_ACCADDR_OFFSET = f ∧ 0 = i then off % 2 ^ 27
    else if Fld.GCTL_ACCADDR_BAR = f ∧ 0 = i then bar2.toNat
    else if Fld.GCTL_ACCERR_MASTER = f ∧ 0 = i then m % 256
    else if Fld.GCTL_ACCERR_WRITE = f ∧ 0 = i then w.toNat
    else if Fld.GCTL_ACCERR_KIND = f ∧ 0 = i then kind % 4
    else if Fld.GCTL_ACCERR_VALID = f ∧ 0 = i then 1
    else s.getF f i := by
  have hbit (b : Bool) : b.toNat % 2 = b.toNat := Nat.mod_eq_of_lt b.toNat_lt
  simp [State.accErr_of_clear hv, State.getF_setF, Fld.width, Fld.info, hbit]

theorem State.getF_accErr_valid : (s.accErr kind w m bar2 off).getF .GCTL_ACCERR_VALID 0 = 1 := by
  simp [State.getF_accErr hv]

theorem State.getF_accErr_kind : (s.accErr kind w m bar2 off).getF .GCTL_ACCERR_KIND 0 = kind % 4 := by
  simp [State.getF_accErr hv]

theorem State.getF_accErr_write : (s.accErr kind w m bar2 off).getF .GCTL_ACCERR_WRITE 0 = w.toNat := by
  simp [State.getF_accErr hv]

theorem State.getF_accErr_master : (s.accErr kind w m bar2 off).getF .GCTL_ACCERR_MASTER 0 = m % 256 := by
  simp [State.getF_accErr hv]

theorem State.getF_accErr_bar : (s.accErr kind w m bar2 off).getF .GCTL_ACCADDR_BAR 0 = bar2.toNat := by
  simp [State.getF_accErr hv]

theorem State.getF_accErr_offset : (s.accErr kind w m bar2 off).getF .GCTL_ACCADDR_OFFSET 0 = off % 2 ^ 27 := by
  simp [State.getF_accErr hv]

/-- The capture writes its own fields and no other register. -/
theorem State.accErr_keepsRegs : KeepsRegs s (s.accErr kind w m bar2 off) (fun f _ => accErrFields.contains f) := by
  intro f i hf
  have hne : ∀ g ∈ accErrFields, g ≠ f := by rintro g hg rfl; simp [hg] at hf
  simp only [accErrFields, List.forall_mem_cons] at hne
  obtain ⟨hvalid, hkind, hwrite, hmaster, hbar, hoffset, -⟩ := hne
  simp [State.getF_accErr hv, hvalid, hkind, hwrite, hmaster, hbar, hoffset]

end Capture

/-! ### Accesses to a block whose domain is off -/

@[simp] theorem State.bar0On_advance (s : State) (now off : Nat) : (s.advance now).bar0On off = s.bar0On off := rfl

/-- With PERST# released, what the physical function does over its BARs is done at the time of the occurrence (R296). -/
theorem State.hosted_advance_pf {s : State} (hp : s.perst = false) (now : Nat) (f : State → State) :
    (s.advance now).hosted 0 f = f (s.advance now) := State.hosted_of _ _ _ ⟨hp, .inl rfl⟩

/-- A write of PF BAR0 to a block whose domain is off is discarded and captured (R27). -/
theorem State.pfWrite_of_off {s : State} {off : Nat} (h : s.bar0On off = false) (m v : Nat) :
    s.pfWrite m off v = s.accErr 0 true m false off := if_pos (by simp [h])

/-- A read of PF BAR0 at a block whose domain is off returns 0 and is captured (R27). -/
theorem State.readAt_of_off {s : State} {off : Nat} (h : s.bar0On off = false) (m : Nat) :
    s.readAt m off = (s.accErr 0 false m false off, 0) := if_pos (by simp [h])

section DomainOff
variable {s : State} {off : BitVec 26} (ha : off.toNat % 4 = 0) (hp : s.perst = false) (hoff : s.bar0On off.toNat = false)
  (now : Nat)
include ha hp hoff

/-- A whole write of the physical function to a block without power comes down to its capture (R27). -/
theorem exec_registerWrite_of_off (v : Word) :
    exec (.registerWrite now 0 off v 0xF#4 false) s = .next ((s.advance now).accErr 0 true 0x20 false off.toNat) := by
  change Host.Outcome.next ((s.advance now).hosted 0 _) = _
  rw [State.hosted_advance_pf hp]
  simp [beyondWindow, ha, State.pfWrite_of_off, hoff]

/-- A read of the physical function at a block without power comes down to its capture and the word 0 (R27). -/
theorem exec_pairedValueRead_of_off :
    exec (.pairedValueRead now ⟨0, off⟩) s =
      .next (((s.advance now).accErr 0 false 0x20 false off.toNat).emit (.readWord 0)) := by
  have hword : off.toNat / 4 * 4 = off.toNat := Nat.div_mul_cancel (Nat.dvd_of_mod_eq_zero ha)
  change Host.Outcome.next ((s.advance now).hosted 0 _) = _
  rw [State.hosted_advance_pf hp]
  simp [beyondWindow, hword, State.readAt_of_off, hoff]

end DomainOff

/-- An offset of PF BAR0 is captured whole: OFFSET is a bit wider than the BAR. -/
theorem toNat_mod_accAddrOffset (off : BitVec 26) : off.toNat % 2 ^ 27 = off.toNat :=
  Nat.mod_eq_of_lt (by have := off.isLt; omega)

/-! ### ACCERR_CLEAR -/

theorem exec_accerrClear {s : State} (hp : s.perst = false) (now : Nat) :
    exec (.accerrClear now) s = .next ((s.advance now).setF .GCTL_ACCERR_VALID 0 0) :=
  congrArg Host.Outcome.next (State.hosted_advance_pf hp now _)

/-! ### The obligation -/

/-- A write to a block without power stores nothing and is captured with KIND 0 (R27, R30). -/
theorem registerWrite_off_captured (now : Nat) (off : BitVec 26) (v : Word) (s : State) (ha : off.toNat % 4 = 0)
    (hp : s.perst = false) (hoff : s.bar0On off.toNat = false) (hv : s.bit .GCTL_ACCERR_VALID 0 = false) :
    ∃ t, exec (.registerWrite now 0 off v 0xF#4 false) s = .next t ∧ t = { s.advance now with regs := t.regs } ∧
      t.getF .GCTL_ACCERR_VALID 0 = 1 ∧ t.getF .GCTL_ACCERR_KIND 0 = 0 ∧ t.getF .GCTL_ACCERR_WRITE 0 = 1 ∧
      t.getF .GCTL_ACCADDR_OFFSET 0 = off.toNat ∧ KeepsRegs s t (fun f _ => accErrFields.contains f) := by
  have hv' : (s.advance now).bit .GCTL_ACCERR_VALID 0 = false := hv
  exact ⟨_, exec_registerWrite_of_off ha hp hoff now v, State.accErr_only .., State.getF_accErr_valid hv' ..,
    State.getF_accErr_kind hv' .., State.getF_accErr_write hv' ..,
    (State.getF_accErr_offset hv' ..).trans (toNat_mod_accAddrOffset off), (State.accErr_keepsRegs hv' _ _ _ _ _).of_advance⟩

/-- A read at a block without power returns 0 and is captured with KIND 0 (R27, R30). -/
theorem pairedValueRead_off_captured (now : Nat) (off : BitVec 26) (s : State) (ha : off.toNat % 4 = 0)
    (hp : s.perst = false) (hoff : s.bar0On off.toNat = false) (hv : s.bit .GCTL_ACCERR_VALID 0 = false) :
    ∃ t, exec (.pairedValueRead now ⟨0, off⟩) s = .next t ∧ t = { s.advance now with regs := t.regs, out := t.out } ∧
      t.out = .readWord 0 :: s.out ∧ t.getF .GCTL_ACCERR_VALID 0 = 1 ∧ t.getF .GCTL_ACCERR_KIND 0 = 0 ∧
      t.getF .GCTL_ACCERR_WRITE 0 = 0 ∧ t.getF .GCTL_ACCADDR_OFFSET 0 = off.toNat := by
  have hv' : (s.advance now).bit .GCTL_ACCERR_VALID 0 = false := hv
  have honly := State.accErr_only (s.advance now) 0 false 0x20 false off.toNat
  refine ⟨_, exec_pairedValueRead_of_off ha hp hoff now, ?_, ?_, State.getF_accErr_valid hv' ..,
    State.getF_accErr_kind hv' .., State.getF_accErr_write hv' ..,
    (State.getF_accErr_offset hv' ..).trans (toNat_mod_accAddrOffset off)⟩
  · rw [honly]; rfl
  · rw [honly]; rfl

/-- Settles O9: an access to a block without power comes down to its capture, whose fields are read back one by one; ACCERR_CLEAR
is one write of VALID. -/
theorem accessErrors : Obligations.AccessErrors := by
  unfold Obligations.AccessErrors
  refine ⟨⟨registerWrite_off_captured, pairedValueRead_off_captured⟩, ?_, ?_, ?_⟩
  · intro s kind m off w bar2 hv
    exact State.accErr_of_valid hv ..
  · intro s kind m off w bar2 hv
    refine ⟨State.getF_accErr_valid hv .., State.getF_accErr_kind hv .., State.getF_accErr_master hv ..,
      State.getF_accErr_write hv .., State.getF_accErr_bar hv .., State.getF_accErr_offset hv .., ?_⟩
    exact State.accErr_keepsRegs hv kind w m bar2 off .GCTL_ACCERR_OVERRUN 0 (by decide)
  · intro now s hp
    exact ⟨_, exec_accerrClear hp now, State.getF_setF_same .., (State.setF_keepsRegs _ _ _ _).of_advance,
      State.setF_only ..⟩

end Sys2Proof.Machine
end

section
/-!
The 6-bit conversion of R57 to R60 (O13): nearest rounding with ties away from zero, the converter's three ranges, and the
clamp of a saturated pair.
-/

namespace Sys2Proof.Machine
open Sys2Proof

/-! ### Rounding with ties away from zero -/

theorem natAbs_roundAway (n : Int) (d : Nat) : (roundAway n d).natAbs = (2 * n.natAbs + d) / (2 * d) := by
  unfold roundAway
  split
  · exact Int.natAbs_neg _
  · rfl

/-- The rounded number, code times divisor, does not change its side of 0. -/
theorem roundAway_mul_side (n : Int) (d : Nat) :
    0 ≤ n ∧ 0 ≤ roundAway n d * d ∨ n < 0 ∧ roundAway n d * d ≤ 0 := by
  rcases lt_or_ge n 0 with hn | hn
  · have hr : roundAway n d ≤ 0 := (if_pos hn).trans_le (neg_nonpos.mpr (Int.natCast_nonneg _))
    exact .inr ⟨hn, mul_nonpos_of_nonpos_of_nonneg hr (Int.natCast_nonneg d)⟩
  · have hr : 0 ≤ roundAway n d := (Int.natCast_nonneg _).trans_eq (if_neg (not_lt.mpr hn)).symm
    exact .inl ⟨hn, mul_nonneg hr (Int.natCast_nonneg d)⟩

/-- The rounded size is at most half a divisor above the number's, and less than half a divisor below it. -/
theorem natAbs_roundAway_mul_bounds (n : Int) {d : Nat} (hd : 0 < d) :
    2 * (roundAway n d * d).natAbs ≤ 2 * n.natAbs + d ∧ 2 * n.natAbs < 2 * (roundAway n d * d).natAbs + d := by
  have hle := Nat.div_mul_le_self (2 * n.natAbs + d) (2 * d)
  have hlt := Nat.lt_div_mul_add (a := 2 * n.natAbs + d) (b := 2 * d) (by omega)
  rw [← natAbs_roundAway, Nat.mul_left_comm] at hle hlt
  rw [Int.natAbs_mul, Int.natAbs_natCast]
  omega

/-- No code is nearer. -/
theorem roundAway_nearest (n : Int) {d : Nat} (hd : 0 < d) : 2 * (n - roundAway n d * d).natAbs ≤ d := by
  have hside := roundAway_mul_side n d
  have hsize := natAbs_roundAway_mul_bounds n hd
  omega

/-- An exact tie is rounded away from zero. -/
theorem lt_natAbs_roundAway_mul_of_tie {n : Int} {d : Nat} (hd : 0 < d)
    (htie : 2 * (n - roundAway n d * d).natAbs = d) : n.natAbs < (roundAway n d).natAbs * d := by
  have hside := roundAway_mul_side n d
  have hsize := natAbs_roundAway_mul_bounds n hd
  have hmul : (roundAway n d * d).natAbs = (roundAway n d).natAbs * d := Int.natAbs_mul _ _
  omega

/-- Below c + 1/2 the nearest code is at most c. -/
theorem roundAway_le {n c : Int} {d : Nat} (hd : 0 < d) (hn : 2 * n < (2 * c + 1) * d) : roundAway n d ≤ c := by
  have hnear := roundAway_nearest n hd
  have hmul : roundAway n d * d < (c + 1) * d := by
    have : 2 * ((c + 1) * (d : Int)) = (2 * c + 1) * d + d := by ring
    omega
  exact Int.lt_add_one_iff.mp (lt_of_mul_lt_mul_right hmul (Int.natCast_nonneg d))

/-- Above c - 1/2 the nearest code is at least c. -/
theorem le_roundAway {n c : Int} {d : Nat} (hd : 0 < d) (hn : (2 * c - 1) * d < 2 * n) : c ≤ roundAway n d := by
  have hnear := roundAway_nearest n hd
  have hmul : (c - 1) * d < roundAway n d * d := by
    have : 2 * ((c - 1) * (d : Int)) = (2 * c - 1) * d - d := by ring
    omega
  exact Int.sub_one_lt_iff.mp (lt_of_mul_lt_mul_right hmul (Int.natCast_nonneg d))

/-! ### The three ranges of the 6-bit converter (R58) -/

theorem convert_of_high {p : Int} {lsb : Nat} (hp : (63 : Int) * lsb ≤ 2 * p) : convert p lsb false = (31, true) :=
  if_pos hp

theorem convert_of_low {p : Int} {lsb : Nat} (hl : 0 < lsb) (hp : 2 * p ≤ -65 * (lsb : Int)) :
    convert p lsb false = (-32, true) :=
  (if_neg (show ¬ (63 : Int) * lsb ≤ 2 * p by omega)).trans (if_pos hp)

theorem convert_of_inside {p : Int} {lsb : Nat} (hlo : -65 * (lsb : Int) < 2 * p) (hhi : 2 * p < (63 : Int) * lsb) :
    convert p lsb false = (roundAway p lsb, false) :=
  (if_neg (not_le.mpr hhi)).trans (if_neg (not_le.mpr hlo))

/-! ### A saturated pair under CLAMP (R60) -/

theorem convPair_clamp {lo hi c : Int} {lsb : Nat} (hc : convert (lo + hi) lsb false = (c, true)) (covered : Bool) :
    convPair lo hi lsb false 0 covered =
      { val := c * lsb, n := 1, clamps := 1, split := false, esc := false, miss := false } := by
  simp [convPair, hc]

/-! ### The obligation -/

/-- Settles O13: the converter's ranges are those of R58, and inside them the code is the nearest one, so that it stays within
the limits; 14,400 product units are below 31.5 LSB of 512. -/
theorem converterSaturates : Obligations.ConverterSaturates := by
  unfold Obligations.ConverterSaturates
  intro p lsb hl
  refine ⟨convert_of_high, convert_of_low hl, ?_, ?_, ?_, ?_⟩
  · intro hlo hhi
    refine ⟨roundAway p lsb, convert_of_inside hlo hhi, le_roundAway hl hlo, roundAway_le hl hhi, roundAway_nearest p hl, ?_⟩
    intro htie
    exact_mod_cast lt_natAbs_roundAway_mul_of_tie hl htie
  · exact fun lo hi hsum => convPair_clamp (convert_of_high hsum)
  · exact fun lo hi hsum => convPair_clamp (convert_of_low hl hsum)
  · intro x hx
    rw [convert_of_inside (by omega) (by omega)]

end Sys2Proof.Machine
end

section
/-!
PROOF. What every command keeps (O1 to O7): one lemma for each operation of the machine, in the order of the machine's
files, says that it keeps the queue, the canonical form of SRAM and the fit of every field (`Keeps`), and one for each
command that it gives a next state that keeps (`Completes`). The obligations follow from `exec_completes`.
-/

set_option Elab.async false

namespace Sys2Proof.Machine
open Sys2Proof

/-- `Keeps.trans` with the later step named first, as a composition of operations is read from the outside. -/
theorem Keeps.after {s t u : State} (k : Keeps t u) (h : Keeps s t) : Keeps s u := h.trans k

/-- An access over the BARs keeps what its effect keeps in every state. -/
theorem State.hosted_keeps_all (s : State) (fn : Nat) (f : State → State) (hf : ∀ t, Keeps t (f t)) : Keeps s (s.hosted fn f) :=
  s.hosted_keeps fn f (hf s)

theorem Keeps.burnt {s t : State} (h : Keeps s t) (n : Nat) : Keeps s { t with fresh := n } :=
  h.trans (Keeps.of_eq rfl rfl rfl)

theorem Keeps.onReg {s t u : State} {m : Nat} {r : Reg} {ix : List Nat} {n : Nat} (h : Keeps s t) (k : Keeps s u) :
    Keeps s (t.onReg m r ix n u) := Keeps.ite _ k (h.trans (State.accErr_keeps ..))

/-- What a command answers is a next state, and that state keeps. -/
def Completes (s : State) (o : Host.Outcome State Fault Refusal) : Prop := ∃ t, o = .next t ∧ Keeps s t

theorem Completes.next {s t : State} (h : Keeps s t) : Completes s (.next t) := ⟨t, rfl, h⟩

theorem Completes.ite {s : State} {o p : Host.Outcome State Fault Refusal} (c : Prop) [Decidable c] (h : Completes s o)
    (k : Completes s p) : Completes s (if c then o else p) := by split <;> assumption

theorem Completes.after {s t : State} {o : Host.Outcome State Fault Refusal} (k : Completes t o) (h : Keeps s t) :
    Completes s o := by
  obtain ⟨u, hu, ku⟩ := k
  exact ⟨u, hu, h.trans ku⟩

/-- The state that the debug port takes over from a command's outcome keeps what the command does. -/
theorem State.after_keeps {s u : State} {o : Host.Outcome State Fault Refusal} (h : Completes u o) : Keeps u (s.after o) := by
  obtain ⟨t, rfl, ht⟩ := h
  exact ht

/-! ### The operations of Machine/Ops.lean -/

theorem State.queueOwn_keeps (s : State) (j : Job) : Keeps s (s.queueOwn j) :=
  State.setJobQ_keeps ..

theorem State.setPass_keeps (s : State) (c : Nat) (x : CalPass) : Keeps s (s.setPass c x) :=
  State.setPassQ_keeps ..

theorem State.setPll_keeps (s : State) (on : Bool) : Keeps s (s.setPll on) :=
  Keeps.of_eq rfl rfl rfl

/-! ### The operations of Machine/Memory.lean -/

theorem State.enterTile_keeps (s : State) (st : Nat) : Keeps s (s.enterTile st) := by
  unfold State.enterTile
  extract_lets _
  exact Keeps.ite _ (State.setStation_keeps ..) (Keeps.refl _)

theorem State.leaveTile_keeps (s : State) (st : Nat) : Keeps s (s.leaveTile st) := by
  unfold State.leaveTile
  extract_lets _
  exact Keeps.ite _ (Keeps.refl _) (State.setStation_keeps ..)

/-! ### The operations of Machine/Frames.lean -/

theorem State.setLink_keeps (s : State) (p : Nat) (x : Link) : Keeps s (s.setLink p x) :=
  Keeps.of_eq rfl rfl rfl

theorem State.sendFlit_keeps (s : State) (p type : Nat) (lchan dst : Nat) (payload : List Byte) :
    Keeps s (s.sendFlit p type lchan dst payload) := by
  unfold State.sendFlit
  extract_lets _ _ _
  exact (State.emit_keeps ..).after (State.setLink_keeps ..)

theorem State.sendFrame_keeps (s : State) (p type : Nat) (lchan dst : Nat) (payload : List Byte) :
    Keeps s (s.sendFrame p type lchan dst payload) := by
  unfold State.sendFrame
  extract_lets _
  exact Keeps.ite _ (State.sendFlit_keeps ..) (State.setLink_keeps ..)

theorem State.sendHeld_keeps (s : State) (p n : Nat) : Keeps s (s.sendHeld p n) := by
  induction n generalizing s with
  | zero => exact Keeps.refl s
  | succ n ih =>
    unfold State.sendHeld
    extract_lets x
    split
    · exact Keeps.ite _ ((ih _).after ((State.sendFlit_keeps ..).after (State.setLink_keeps ..))) (Keeps.refl s)
    · exact Keeps.refl s

theorem State.sendTo_keeps (s : State) (dev type lchan : Nat) (payload : List Byte) :
    Keeps s (s.sendTo dev type lchan payload) := by
  unfold State.sendTo
  split
  · exact Keeps.ite _ (State.sendFrame_keeps ..) (Keeps.refl _)
  · exact Keeps.refl _

theorem State.sendRound_keeps (s : State) (g k : Nat) : Keeps s (s.sendRound g k) := by
  unfold State.sendRound
  extract_lets _ _ _
  exact State.sendTo_keeps ..

/-! ### The operations of Machine/CsqOps.lean -/

theorem State.setGreg_keeps (s : State) (i n : Nat) (v : Word) : Keeps s (s.setGreg i n v) :=
  State.setF_keeps ..

theorem State.setPred_keeps (s : State) (i p : Nat) (v : Bool) : Keeps s (s.setPred i p v) :=
  State.setF_keeps ..

theorem State.setPc_keeps (s : State) (i v : Nat) : Keeps s (s.setPc i v) :=
  State.setF_keeps ..

theorem State.moveWord_keeps (master : Nat) (s : State) (d w : Nat) : Keeps s (State.moveWord master s d w) := by
  unfold State.moveWord
  extract_lets u _
  have hu : Keeps s u := State.readWordEcc_keeps ..
  exact Keeps.ite _ ((State.mark_keeps ..).after (hu.trans (State.setBytes_keeps ..))) ((State.writeWord_keeps ..).after hu)

theorem State.moveBytes_keeps (s : State) (master dst : Nat) (src n : Nat) : Keeps s (s.moveBytes master dst src n) :=
  Keeps.foldl _ (fun _ _ => State.moveWord_keeps ..) _ _

theorem State.seqCapture_keeps (s : State) (i code pc : Nat) : Keeps s (s.seqCapture i code pc) :=
  State.capture_keeps ..

theorem State.seqHalt_keeps (s : State) (i code : Nat) : Keeps s (s.seqHalt i code) :=
  State.seqHaltAt_keeps ..

theorem State.seqRecover_keeps (s : State) (i code next : Nat) : Keeps s (s.seqRecover i code next) :=
  Keeps.ite _ (State.seqHalt_keeps ..) ((State.setPc_keeps ..).after (State.seqRecoverAt_keeps ..))

theorem State.issue_keeps (s : State) (i : Nat) (w : Word) (n : Nat) (body : State → State) (hbody : ∀
    (t : State), Keeps t (body t)) :
    Keeps s (s.issue i w n body) := by
  unfold State.issue
  extract_lets _ _ s1
  have hs1 : Keeps s s1 := State.traceTh_keeps ..
  refine Keeps.ite _ (Keeps.refl _) ?_
  refine Keeps.ite _ (State.seqHalt_keeps ..) ?_
  refine Keeps.ite _ ((State.setPc_keeps ..).after hs1) ?_
  refine Keeps.ite _ ?_ ?_
  · exact (State.seqHalt_keeps ..).after hs1
  · exact Keeps.ite _ ((State.seqHalt_keeps ..).after hs1) ((hbody ..).after hs1)

theorem State.simple_keeps (s : State) (i : Nat) (w : Word) (body : State → State) (hbody : ∀ (t : State), Keeps t (body t)) :
    Keeps s (s.simple i w body) :=
  State.issue_keeps _ _ _ _ _ (fun _ => (State.setPc_keeps ..).after (hbody ..))

theorem State.branch_keeps (s : State) (i target : Nat) (ok : Bool) (body : State → State) (hbody : ∀
    (t : State), Keeps t (body t)) :
    Keeps s (s.branch i target ok body) := by
  unfold State.branch
  extract_lets _ s1 _
  have hs1 : Keeps s s1 := (State.setPc_keeps ..).after (hbody ..)
  refine Keeps.ite _ ?_ ?_
  · exact State.seqHalt_keeps ..
  · exact (State.traceTh_keeps ..).after ((State.setThread_keeps ..).after hs1)

theorem State.block_keeps (s : State) (i kind : Nat) (wt : ThreadWait) : Keeps s (s.block i kind wt) := by
  unfold State.block
  extract_lets _ s1
  have hs1 : Keeps s s1 := State.setThread_keeps ..
  exact (State.traceTh_keeps ..).after ((State.setF_keeps ..).after ((State.setF_keeps ..).after hs1))

theorem State.resume_keeps (s : State) (i : Nat) (p7 : Bool) : Keeps s (s.resume i p7) := by
  unfold State.resume
  extract_lets _ s1 s2
  have hs1 : Keeps s s1 := State.setThread_keeps ..
  have hs2 : Keeps s s2 := (State.setPred_keeps ..).after ((State.setF_keeps ..).after ((State.setF_keeps ..).after hs1))
  exact (State.seqStopDue_keeps ..).after ((State.traceTh_keeps ..).after hs2)

theorem State.latch_keeps (s : State) (g : Nat) : Keeps s (s.latch g) := by
  unfold State.latch
  extract_lets _
  split
  · exact Keeps.ite _ (State.setGroup_keeps ..) (Keeps.refl _)
  · exact Keeps.refl _

theorem State.latchAll_keeps (s : State) : Keeps s (s.latchAll) :=
  Keeps.foldl _ (fun _ _ => State.latch_keeps ..) _ _

theorem State.grant_keeps (s : State) (st n : Nat) : Keeps s (s.grant st n) := by
  unfold State.grant
  extract_lets s1 _
  have hs1 : Keeps s s1 := State.latchAll_keeps ..
  exact Keeps.ite _ hs1 ((State.setStation_keeps ..).after hs1)

theorem State.sendRounds_keeps (s : State) (g : Nat) : Keeps s (s.sendRounds g) := by
  unfold State.sendRounds
  extract_lets s1 _
  have hs1 : Keeps s s1 := State.latch_keeps ..
  split
  · exact hs1
  · refine Keeps.ite _ ?_ hs1
    refine Keeps.after (Keeps.foldl _ (fun t x => ?_) _ _) hs1
    extract_lets t1 _
    have ht1 : Keeps t t1 := State.sendRound_keeps ..
    refine Keeps.ite _ ?_ (Keeps.refl _)
    split
    · exact (State.setGroup_keeps ..).after ht1
    · exact ht1

theorem State.arrive_keeps (s : State) (i g : Nat) (slow : Bool) (guardTh : Nat) : Keeps s (s.arrive i g slow guardTh) := by
  unfold State.arrive
  extract_lets _ _ _ _ _ _ s1 _ s2
  have hs1 : Keeps s s1 := State.setGroup_keeps ..
  have hs2 : Keeps s s2 := (State.setThread_keeps ..).after hs1
  exact (State.sendRounds_keeps ..).after hs2

theorem State.thaw_keeps (s : State) : Keeps s (s.thaw) :=
  Keeps.of_eq rfl rfl rfl

theorem State.endInstance_keeps (s : State) (g : Nat) (p7 timedOut : Bool) : Keeps s (s.endInstance g p7 timedOut) := by
  unfold State.endInstance
  extract_lets _ s1
  have hs1 : Keeps s s1 := State.setGroup_keeps ..
  split
  · exact Keeps.refl _
  · extract_lets s2
    have hs2 : Keeps s s2 := Keeps.ite _ ((State.thaw_keeps ..).after (hs1.trans (Keeps.of_eq rfl rfl rfl))) hs1
    exact Keeps.after (Keeps.foldl _ (fun _ _ => Keeps.ite _ (State.resume_keeps ..) (Keeps.refl _)) _ _) hs2

theorem State.abandonWaits_keeps (s : State) (i : Nat) : Keeps s (s.abandonWaits i) := by
  unfold State.abandonWaits
  extract_lets _
  exact Keeps.foldl _ (fun _ _ => State.endInstance_keeps ..) _ _

theorem State.cutCopy_keeps (s : State) (i : Nat) : Keeps s (s.cutCopy i) := by
  unfold State.cutCopy
  split
  · exact (State.moveBytes_keeps ..).after (State.burn_keeps ..)
  · exact Keeps.refl _

theorem State.cutCopies_keeps (s : State) (hit : Nat → Bool) : Keeps s (s.cutCopies hit) := by
  unfold State.cutCopies
  refine Keeps.foldl _ (fun t x => ?_) _ _
  split
  · exact Keeps.ite _ ((State.seqHaltAt_keeps ..).after (State.cutCopy_keeps ..)) (Keeps.refl _)
  · exact Keeps.refl _

theorem State.threadStart_keeps (s : State) (i : Nat) : Keeps s (s.threadStart i) := by
  unfold State.threadStart
  extract_lets s1 _ s2 s3 _ s4
  have hs1 : Keeps s s1 := Keeps.foldl _ (fun _ _ => (State.setF_keeps ..).after (State.setGreg_keeps ..)) _ _
  have hs2 : Keeps s s2 := (State.setPc_keeps ..).after ((State.setF_keeps ..).after ((State.setF_keeps ..).after hs1))
  have hs3 : Keeps s s3 := (State.setF_keeps ..).after ((State.setF_keeps ..).after hs2)
  have hs4 : Keeps s s4 := (State.setThread_keeps ..).after hs3
  exact (State.traceTh_keeps ..).after hs4

theorem State.threadStopNow_keeps (s : State) (i : Nat) : Keeps s (s.threadStopNow i) := by
  unfold State.threadStopNow
  extract_lets s1 _ s2
  have hs1 : Keeps s s1 := (State.setF_keeps ..).after ((State.setF_keeps ..).after (State.cutCopy_keeps ..))
  have hs2 : Keeps s s2 := (State.setThread_keeps ..).after hs1
  exact (State.traceTh_keeps ..).after ((State.abandonWaits_keeps ..).after hs2)

theorem State.seqOver_keeps (s : State) (i code pc : Nat) : Keeps s (s.seqOver i code pc) := by
  unfold State.seqOver
  extract_lets _
  refine Keeps.ite _ ?_ ?_
  · exact (State.seqReport_keeps ..).after (State.setThread_keeps ..)
  · exact Keeps.ite _ ((State.abandonWaits_keeps ..).after (State.seqHaltAt_keeps ..)) (State.seqCapture_keeps ..)

theorem State.threadStop_keeps (s : State) (i : Nat) : Keeps s (s.threadStop i) := by
  unfold State.threadStop
  extract_lets _ _
  refine Keeps.ite _ ?_ ?_
  · exact State.threadStopNow_keeps ..
  · exact Keeps.ite _ (State.setThread_keeps ..) (State.setThread_keeps ..)

theorem State.sendBcast_keeps (s : State) (g m : Nat) (v : Word) : Keeps s (s.sendBcast g m v) := by
  unfold State.sendBcast
  extract_lets _ _ _
  exact Keeps.ite _ (Keeps.foldl _ (fun _ _ => State.sendTo_keeps ..) _ _) (Keeps.refl _)

/-! ### The operations of Machine/EngineOps.lean -/

theorem State.setLevel_keeps (s : State) (pe row pair : Nat) (w : Int) : Keeps s (s.setLevel pe row pair w) := by
  unfold State.setLevel
  extract_lets _
  exact Keeps.of_eq rfl rfl rfl

theorem State.eraseRg_keeps (s : State) (pe r : Nat) : Keeps s (s.eraseRg pe r) := by
  unfold State.eraseRg
  extract_lets _ _ s1
  have hs1 : Keeps s s1 := Keeps.of_eq rfl rfl rfl
  exact Keeps.after (Keeps.foldl _ (fun _ _ => Keeps.foldl _ (fun _ _ => State.setLevel_keeps ..) _ _) _ _) hs1

theorem State.meHold_keeps (s : State) (f : Fld) (pe n : Nat) : Keeps s (s.meHold f pe n) :=
  State.addHold_keeps ..

theorem State.meWrap_keeps (s : State) (f : Fld) (pe n : Nat) : Keeps s (s.meWrap f pe n) :=
  State.addWrap_keeps ..

theorem State.accSat_keeps (s : State) (pe n : Nat) : Keeps s (s.accSat pe n) := by
  unfold State.accSat
  extract_lets _ _
  exact (State.meHold_keeps ..).after (State.setEngine_keeps ..)

theorem State.addTerms_keeps (s : State) (pe : Nat) (ts : List (Nat × Int)) : Keeps s (s.addTerms pe ts) := by
  unfold State.addTerms
  extract_lets _ _
  exact (State.accSat_keeps ..).after (State.setEngine_keeps ..)

theorem State.ocuPush_keeps (s : State) (c : Nat) (r : OcuReq) : Keeps s (s.ocuPush c r) := by
  unfold State.ocuPush
  extract_lets _ _
  exact Keeps.ite _ ((State.setF_keeps ..).after (State.setOcu_keeps ..)) (State.setOcu_keeps ..)

theorem State.ocuRefill_keeps (s : State) (c core : Nat) : Keeps s (s.ocuRefill c core) := by
  unfold State.ocuRefill
  extract_lets _
  split
  · exact Keeps.ite _ ((State.ocuPush_keeps ..).after (State.setOcu_keeps ..)) (Keeps.refl _)
  · exact Keeps.refl _

theorem State.putTile_keeps (s : State) (core : Nat) (t : Tile) : Keeps s (s.putTile core t) :=
  State.setCoreTiles_keeps ..

theorem State.draw_keeps (s : State) (c : Nat) : Keeps s (s.draw c).1 := by
  unfold State.draw
  extract_lets _ _ src
  have hsrc : Keeps s src := State.burn_keeps ..
  split
  · split
    · exact hsrc.trans (Keeps.of_eq rfl rfl rfl)
    · exact State.burn_keeps ..
  · exact Keeps.refl _

theorem State.askToken_keeps (s : State) (pe : Nat) : Keeps s (s.askToken pe) :=
  Keeps.ite _ (Keeps.refl _) (Keeps.of_eq rfl rfl rfl)

theorem State.freeToken_keeps (s : State) (pe : Nat) : Keeps s (s.freeToken pe) := by
  unfold State.freeToken
  extract_lets _ s1
  have hs1 : Keeps s s1 := Keeps.of_eq rfl rfl rfl
  exact Keeps.ite _ ((State.askToken_keeps ..).after hs1) (hs1.trans (Keeps.of_eq rfl rfl rfl))

theorem State.beaverBegin_keeps (s : State) (b : Nat) (x : Beaver) : Keeps s (s.beaverBegin b x) :=
  Keeps.after (Keeps.foldl _ (fun _ _ => State.askToken_keeps ..) _ _) (State.setBeaver_keeps ..)

theorem State.beaverStop_keeps (s : State) (b : Nat) : Keeps s (s.beaverStop b) := by
  unfold State.beaverStop
  split
  · exact Keeps.after (Keeps.foldl _ (fun _ _ => State.freeToken_keeps ..) _ _) (State.setBeaver_keeps ..)
  · exact Keeps.refl _

theorem State.opDone_keeps (s : State) (pe : Nat) : Keeps s (s.opDone pe) :=
  State.setEngine_keeps ..

/-! ### The operations of Machine/Wear.lean -/

theorem State.trackerStart_keeps (s : State) (pe r : Nat) : Keeps s (s.trackerStart pe r) := by
  unfold State.trackerStart
  extract_lets _ _ _ _ _ s1 s2 _
  have hs1 : Keeps s s1 := (State.setF_keeps ..).after (State.setF_keeps ..)
  have hs2 : Keeps s s2 := (State.setF_keeps ..).after hs1
  exact (State.setTracker_keeps ..).after hs2

theorem State.rgProgrammed_keeps (s : State) (g : Nat) : Keeps s (s.rgProgrammed g) := by
  unfold State.rgProgrammed
  extract_lets s1 _ s2
  have hs1 : Keeps s s1 := (State.setF_keeps ..).after (State.trackerStart_keeps ..)
  have hs2 : Keeps s s2 := (State.setTracker_keeps ..).after hs1
  exact (State.setF_keeps ..).after hs2

theorem State.earlyTouchup_keeps (s : State) (pe r : Nat) : Keeps s (s.earlyTouchup pe r) :=
  State.setF_keeps ..

theorem State.unclean_keeps (s : State) : Keeps s (s.unclean) := by
  unfold State.unclean
  extract_lets src
  have hsrc : Keeps s src := State.setF_keeps ..
  exact hsrc.trans (Keeps.of_eq rfl rfl rfl)

theorem State.activate_keeps (s old : State) : Keeps s (s.activate old) :=
  Keeps.foldl _ (fun _ _ => State.trackerStart_keeps ..) _ _

theorem State.suspectShard_keeps (s : State) (n : Nat) : Keeps s (s.suspectShard n) := by
  unfold State.suspectShard
  extract_lets _ s1 s2 s3 _ s4 s5
  have hs1 : Keeps s s1 := State.setShard_keeps ..
  have hs2 : Keeps s s2 := Keeps.after (Keeps.foldl _ (fun _ _ => State.park_keeps ..) _ _) hs1
  have hs3 : Keeps s s3 := (State.addHold_keeps ..).after hs2
  have hs4 : Keeps s s4 := (State.service_keeps ..).after hs3
  have hs5 : Keeps s s5 := Keeps.ite _ hs4 ((State.service_keeps ..).after hs4)
  exact (State.raise_keeps ..).after hs5

theorem State.spareTake_keeps (s : State) (w : SpareWork) : Keeps s (s.spareTake w) := by
  unfold State.spareTake
  extract_lets _ _ s1
  have hs1 : Keeps s s1 := Keeps.ite _ (Keeps.refl _) ((State.setF_keeps ..).after (State.setF_keeps ..))
  exact (State.addHold_keeps ..).after ((State.setF_keeps ..).after ((State.setF_keeps ..).after hs1))

theorem State.spareFails_keeps (s : State) (w : SpareWork) : Keeps s (s.spareFails w).1 := by
  unfold State.spareFails
  extract_lets t
  have ht : Keeps s t := State.setF_keeps ..
  exact ht

theorem State.tellLost_keeps (s : State) (core e : Nat) (sts : List Nat) : Keeps s (s.tellLost core e sts) := by
  unfold State.tellLost
  refine Keeps.foldl _ (fun t x => ?_) _ _
  extract_lets _
  exact State.service_keeps ..

theorem State.loseEngine_keeps (s : State) (core e : Nat) : Keeps s (s.loseEngine core e) := by
  unfold State.loseEngine
  extract_lets _ s1 s2
  have hs1 : Keeps s s1 := State.setF_keeps ..
  have hs2 : Keeps s s2 := Keeps.after (Keeps.foldl _ (fun _ _ => State.park_keeps ..) _ _) hs1
  exact (State.tellLost_keeps ..).after hs2

theorem State.moveToSpare_keeps (s : State) (st : Nat) : Keeps s (s.moveToSpare st) := by
  unfold State.moveToSpare
  extract_lets _ _ _
  exact Keeps.ite _ (Keeps.refl _) (State.setStation_keeps ..)

theorem State.useSpare_keeps (s : State) (core e : Nat) : Keeps s (s.useSpare core e) := by
  unfold State.useSpare
  extract_lets _ _ _ _ s1 _ s2 s3 s4 _ _ s5 _ _ s6 _ s7 s8
  have hs1 : Keeps s s1 := by
    unfold s1
    refine Keeps.foldl _ (fun t x => ?_) _ _
    split
    · exact Keeps.ite _ (State.beaverStop_keeps ..) (Keeps.refl _)
    · exact Keeps.refl _
  have hs2 : Keeps s s2 := hs1.trans (Keeps.of_eq rfl rfl rfl)
  have hs3 : Keeps s s3 := (State.setF_keeps ..).after hs2
  have hs4 : Keeps s s4 := (State.setF_keeps ..).after ((State.setF_keeps ..).after hs3)
  have hs5 : Keeps s s5 := hs4.trans (Keeps.of_eq rfl rfl rfl)
  have hs6 : Keeps s s6 := hs5.trans (Keeps.of_eq rfl rfl rfl)
  have hs7 : Keeps s s7 := Keeps.ite _ hs6 ((State.queueOwn_keeps ..).after hs6)
  have hs8 : Keeps s s8 := by
    unfold s8
    refine Keeps.after (Keeps.foldl _ (fun t x => ?_) _ _) hs7
    extract_lets _
    exact Keeps.ite _ (State.setStation_keeps ..) (State.moveToSpare_keeps ..)
  exact Keeps.after (Keeps.foldl _ (fun _ _ => State.suspectShard_keeps ..) _ _) ((State.addHold_keeps ..).after hs8)

theorem State.retire_keeps (s : State) (pe : Nat) : Keeps s (s.retire pe) := by
  unfold State.retire
  extract_lets _ _ _ s'
  have hs' : Keeps s s' := (State.setF_keeps ..).after (State.setF_keeps ..)
  refine Keeps.ite _ ?_ ?_
  · exact Keeps.ite _ ((State.loseEngine_keeps ..).after hs') (hs')
  · exact Keeps.ite _ ((State.loseEngine_keeps ..).after (State.setF_keeps ..)) (State.useSpare_keeps ..)

theorem State.shadowCell_keeps (s : State) (c pe : Nat) (row pair : Nat) : Keeps s (s.shadowCell c pe row pair) := by
  unfold State.shadowCell
  extract_lets _ _ _ _ t s1 s2
  have ht : Keeps s t := State.setStation_keeps ..
  have hs1 : Keeps s s1 := by
    unfold s1
    refine Keeps.ite _ (Keeps.refl _) ?_
    refine Keeps.after (Keeps.foldl _ (fun t x => ?_) _ _) ht
    exact Keeps.of_eq rfl rfl rfl
  have hs2 : Keeps s s2 := hs1.trans (Keeps.of_eq rfl rfl rfl)
  exact (State.setLevel_keeps ..).after hs2

theorem State.weakCell_keeps (s : State) (pe row pair : Nat) : Keeps s (s.weakCell pe row pair) := by
  unfold State.weakCell
  extract_lets _
  split
  · exact Keeps.ite _ (State.retire_keeps ..) (Keeps.refl _)
  · split
    · exact State.shadowCell_keeps ..
    · exact Keeps.ite _ (State.retire_keeps ..) (Keeps.ite _ (Keeps.refl _) (State.queueOwn_keeps ..))

/-! ### The operations of Machine/Accuracy.lean -/

theorem State.trackerReject_keeps (s : State) (pe r : Nat) : Keeps s (s.trackerReject pe r) := by
  unfold State.trackerReject
  extract_lets _ _ s1
  have hs1 : Keeps s s1 := State.addHold_keeps ..
  refine Keeps.ite _ ?_ ?_
  · exact (State.setTracker_keeps ..).after hs1
  · exact (State.raise_keeps ..).after ((State.earlyTouchup_keeps ..).after ((State.setTracker_keeps ..).after hs1))

theorem State.trackerAccept_keeps (s : State) (pe r : Nat) (m : Measured) : Keeps s (s.trackerAccept pe r m) := by
  unfold State.trackerAccept
  extract_lets _ _ _ _ _ s1 s2
  have hs1 : Keeps s s1 := (State.setF_keeps ..).after ((State.setF_keeps ..).after (State.setF_keeps ..))
  have hs2 : Keeps s s2 := (State.setTracker_keeps ..).after hs1
  exact Keeps.ite _ ((State.earlyTouchup_keeps ..).after hs2) hs2

theorem State.trackerApply_keeps (s : State) (pe r : Nat) (x : Samples) : Keeps s (s.trackerApply pe r x) := by
  unfold State.trackerApply
  extract_lets s1 _
  have hs1 : Keeps s s1 := State.setF_keeps ..
  exact Keeps.ite _ ((State.trackerAccept_keeps ..).after hs1) ((State.trackerReject_keeps ..).after hs1)

theorem State.trackerJudge_keeps (s : State) (pe r : Nat) (xs : List Samples) : Keeps s (s.trackerJudge pe r xs) := by
  induction xs generalizing s with
  | nil => exact Keeps.refl s
  | cons x xs ih =>
    unfold State.trackerJudge
    exact Keeps.ite _ (State.setTracker_keeps ..) ((ih _).after (State.trackerApply_keeps ..))

theorem execTrackerUpdate_completes (now : Nat) (cl : Cluster) (co : Core) (e : Eng) (rg : RowGroup) (s : State) :
    Completes s (execTrackerUpdate now cl co e rg s) := by
  unfold execTrackerUpdate
  extract_lets s1 _ _ _ _
  have hs1 : Keeps s s1 := State.advance_keeps ..
  refine Completes.ite _ ?_ (Completes.next hs1)
  refine Completes.ite _ ?_ ?_
  · exact Completes.next ((State.trackerJudge_keeps ..).after ((State.setTracker_keeps ..).after hs1))
  · exact Completes.next ((State.setTracker_keeps ..).after hs1)

theorem execTrackerFirstUpdate_completes (now : Nat) (cl : Cluster) (co : Core) (e : Eng) (rg : RowGroup) (s : State) :
    Completes s (execTrackerFirstUpdate now cl co e rg s) := by
  unfold execTrackerFirstUpdate
  extract_lets s1 _ _ _
  have hs1 : Keeps s s1 := State.advance_keeps ..
  refine Completes.ite _ ?_ ?_
  · exact Completes.next ((State.trackerApply_keeps ..).after ((State.setTracker_keeps ..).after hs1))
  · exact Completes.next hs1

theorem State.burstDone_keeps (s : State) (pe r : Nat) (d : Samples) (ds : List Samples) : Keeps s (s.burstDone pe r d ds) := by
  unfold State.burstDone
  extract_lets _ _ _ s1 s2
  have hs1 : Keeps s s1 := (State.opDone_keeps ..).after (State.setTracker_keeps ..)
  have hs2 : Keeps s s2 := (State.addWrap_keeps ..).after ((State.addWrap_keeps ..).after hs1)
  exact (State.trackerJudge_keeps ..).after ((State.trackerApply_keeps ..).after hs2)

theorem execKeepaliveBurst_completes (now : Nat) (cl : Cluster) (co : Core) (e : Eng) (rg : RowGroup) (s : State) :
    Completes s (execKeepaliveBurst now cl co e rg s) := by
  unfold execKeepaliveBurst
  extract_lets s1 _ _ _ p
  have hs1 : Keeps s s1 := State.advance_keeps ..
  have hp : Keeps s p.1 := (State.draw_keeps ..).after hs1
  split
  · refine Completes.ite _ ?_ ?_
    · exact Completes.next (Keeps.ite _ ((State.burstDone_keeps ..).after hp) hp)
    · exact Completes.next hs1
  · exact Completes.next hs1

theorem State.queueCal_keeps (s : State) (c : Nat) (r : CalPass) : Keeps s (s.queueCal c r) := by
  unfold State.queueCal
  extract_lets _ _ _ _ _ _ _ _ s1 _ s2 _
  have hs1 : Keeps s s1 := State.setPassQ_keeps ..
  have hs2 : Keeps s s2 := Keeps.after (Keeps.foldl _ (fun _ _ => Keeps.ite _ (Keeps.refl _) (State.setF_keeps ..)) _ _) hs1
  exact Keeps.ite _ hs2 (hs2.trans (Keeps.of_eq rfl rfl rfl))

theorem State.sweepBegin_keeps (s : State) (c : Nat) (p : CalPass) : Keeps s (s.sweepBegin c p) := by
  unfold State.sweepBegin
  extract_lets _
  exact (State.setF_keeps ..).after (State.setPass_keeps ..)

theorem State.passBegin_keeps (s : State) (c : Nat) : Keeps s (s.passBegin c) := by
  unfold State.passBegin
  extract_lets _ _ _ _ s1
  have hs1 : Keeps s s1 := Keeps.foldl _ (fun _ _ => (State.setF_keeps ..).after (State.setF_keeps ..)) _ _
  exact (State.sweepBegin_keeps ..).after hs1

theorem State.passStep_keeps (s : State) (c n : Nat) : Keeps s (s.passStep c n) := by
  induction n generalizing s with
  | zero => exact Keeps.refl s
  | succ n ih =>
    unfold State.passStep
    extract_lets p u q
    have hu : Keeps s u := State.setPassQ_keeps ..
    have hdac (d : Dac) : Keeps s { u.setF .SDAC_CTL_SPAN 0 0 with dac := d } :=
      (hu.trans (State.setF_keeps u .SDAC_CTL_SPAN 0 0)).trans (Keeps.of_eq rfl rfl rfl)
    refine Keeps.ite _ (Keeps.refl s) (Keeps.ite _ (State.sweepBegin_keeps ..) (Keeps.ite _ ?_ ?_))
    · exact (ih _).after ((State.passBegin_keeps ..).after (State.setPass_keeps ..))
    · exact hdac _

theorem State.dacPassage_keeps (s : State) (span route : Nat) : Keeps s (s.dacPassage span route) := by
  unfold State.dacPassage
  extract_lets _ s1 src _
  have hs1 : Keeps s s1 := (State.setF_keeps ..).after (State.setF_keeps ..)
  have hsrc : Keeps s src := (State.setF_keeps ..).after hs1
  exact hsrc.trans (Keeps.of_eq rfl rfl rfl)

theorem State.dacServe_keeps (s : State) (c : Nat) (rest : List (Nat × Nat)) : Keeps s (s.dacServe c rest) := by
  unfold State.dacServe
  extract_lets _ s1 _ s2
  have hs1 : Keeps s s1 := Keeps.of_eq rfl rfl rfl
  have hs2 : Keeps s s2 := (State.setF_keeps ..).after ((State.setF_keeps ..).after ((State.setF_keeps ..).after hs1))
  exact (State.passStep_keeps ..).after ((State.passBegin_keeps ..).after ((State.dacPassage_keeps ..).after hs2))

theorem execDacServeCluster_completes (now : Nat) (s : State) : Completes s (execDacServeCluster now s) := by
  unfold execDacServeCluster
  extract_lets s1
  have hs1 : Keeps s s1 := State.advance_keeps ..
  split
  · extract_lets p
    have hp : Keeps s p.1 := (State.draw_keeps ..).after hs1
    refine Completes.ite _ ?_ ?_
    · exact Completes.next (Keeps.ite _ ((State.dacServe_keeps ..).after hp) hp)
    · exact Completes.next hs1
  · exact Completes.next hs1

theorem State.newTrim_keeps (s : State) (pe : Nat) (full : Bool) : Keeps s (s.newTrim pe full) := by
  unfold State.newTrim
  extract_lets _ _ _ src s1
  have hsrc : Keeps s src := State.burn_keeps ..
  have hs1 : Keeps s s1 := hsrc.trans (Keeps.of_eq rfl rfl rfl)
  exact Keeps.after (Keeps.foldl _ (fun _ _ => Keeps.ite _ (State.setTracker_keeps ..) (Keeps.refl _)) _ _) hs1

theorem State.calDone_keeps (s : State) (c pe : Nat) : Keeps s (s.calDone c pe) := by
  unfold State.calDone
  extract_lets _
  exact (State.passStep_keeps ..).after ((State.opDone_keeps ..).after (State.setPass_keeps ..))

theorem State.calDiscard_keeps (s : State) (c pe : Nat) (temp : Bool) : Keeps s (s.calDiscard c pe temp) := by
  unfold State.calDiscard
  extract_lets s1 _ _ _ s2
  have hs1 : Keeps s s1 := (State.setB_keeps ..).after (State.setB_keeps ..)
  have hs2 : Keeps s s2 := (State.setPass_keeps ..).after ((State.setF_keeps ..).after hs1)
  refine Keeps.ite _ ?_ ?_
  · exact (State.opDone_keeps ..).after hs2
  · exact (State.calDone_keeps ..).after ((State.raise_keeps ..).after ((State.setF_keeps ..).after hs2))

theorem State.calPassed_keeps (s : State) (c pe state : Nat) : Keeps s (s.calPassed c pe state) := by
  unfold State.calPassed
  extract_lets s1
  have hs1 : Keeps s s1 := (State.setF_keeps ..).after ((State.setF_keeps ..).after (State.setF_keeps ..))
  exact (State.setF_keeps ..).after ((State.setF_keeps ..).after hs1)

theorem execConverterCalibration_completes (now : Nat) (cl : Cluster) (co : Core) (e : Eng)
    (codesHit amplitudeOk offsetOk : Bool) (s : State) :
    Completes s (execConverterCalibration now cl co e codesHit amplitudeOk offsetOk s) := by
  unfold execConverterCalibration
  extract_lets s1 _ _
  have hs1 : Keeps s s1 := State.advance_keeps ..
  refine Completes.ite _ ?_ (Completes.next hs1)
  refine Completes.ite _ (Completes.next ((State.calDiscard_keeps ..).after hs1)) ?_
  refine Completes.ite _ ?_ ?_
  · exact Completes.next ((State.calDiscard_keeps ..).after hs1)
  · exact Completes.next ((State.calDone_keeps ..).after ((State.newTrim_keeps ..).after
      ((State.calPassed_keeps ..).after hs1)))

theorem execTwoPointCheck_completes (now : Nat) (cl : Cluster) (co : Core) (e : Eng) (within : Bool) (s : State) :
    Completes s (execTwoPointCheck now cl co e within s) := by
  unfold execTwoPointCheck
  extract_lets s1 _ _ s2 _
  have hs1 : Keeps s s1 := State.advance_keeps ..
  have hs2 : Keeps s s2 := (State.setF_keeps ..).after hs1
  refine Completes.ite _ ?_ (Completes.next hs1)
  refine Completes.ite _ (Completes.next ((State.calDiscard_keeps ..).after hs1)) ?_
  refine Completes.ite _ ?_ ?_
  · exact Completes.next ((State.calDone_keeps ..).after ((State.newTrim_keeps ..).after ((State.setF_keeps ..).after
      ((State.calPassed_keeps ..).after hs1))))
  · exact Completes.next ((State.calDone_keeps ..).after ((State.setPass_keeps ..).after hs2))

theorem State.bandPass_keeps (s : State) (c : Nat) : Keeps s (s.bandPass c) := by
  unfold State.bandPass
  extract_lets _ _ _
  refine Keeps.ite _ ?_ ?_
  · exact (State.passStep_keeps ..).after ((State.passBegin_keeps ..).after (State.setPass_keeps ..))
  · exact Keeps.ite _ (State.setPassQ_keeps ..) (State.queueCal_keeps ..)

theorem execTrimRefreshDue_completes (now : Nat) (cl : Cluster) (s : State) : Completes s (execTrimRefreshDue now cl s) := by
  unfold execTrimRefreshDue
  extract_lets s1 _ _ _
  have hs1 : Keeps s s1 := State.advance_keeps ..
  exact Completes.ite _ (Completes.next ((State.queueCal_keeps ..).after hs1)) (Completes.next hs1)

theorem execTouchupDue_completes (now : Nat) (cl : Cluster) (co : Core) (e : Eng) (rg : RowGroup) (s : State) :
    Completes s (execTouchupDue now cl co e rg s) := by
  unfold execTouchupDue
  extract_lets s1 _ _ _ _
  have hs1 : Keeps s s1 := State.advance_keeps ..
  refine Completes.ite _ ?_ ?_
  · exact Completes.next ((State.askToken_keeps ..).after ((State.setTracker_keeps ..).after
      ((State.unclean_keeps ..).after hs1)))
  · exact Completes.next hs1

theorem State.touchupEnd_keeps (s : State) (pe r : Nat) : Keeps s (s.touchupEnd pe r) := by
  unfold State.touchupEnd
  extract_lets _ _ _ _ s1
  have hs1 : Keeps s s1 := (State.setF_keeps ..).after (State.setTracker_keeps ..)
  exact (State.addHold_keeps ..).after hs1

theorem State.touchupRow_keeps (s : State) (pe r : Nat) (low high : List Nat) : Keeps s (s.touchupRow pe r low high) := by
  unfold State.touchupRow
  extract_lets _ _ _ s1 s2
  have hs1 : Keeps s s1 := State.setTracker_keeps ..
  have hs2 : Keeps s s2 := Keeps.ite _ ((State.touchupEnd_keeps ..).after hs1) hs1
  refine Keeps.ite _ ?_ ?_
  · exact State.setTracker_keeps ..
  · exact Keeps.after (Keeps.foldl _ (fun _ _ => State.weakCell_keeps ..) _ _) hs2

theorem execTouchupStep_completes (now : Nat) (cl : Cluster) (co : Core) (e : Eng) (rg : RowGroup) (low : List
    (Fin 276)) (high : List (Fin 276)) (s : State) :
    Completes s (execTouchupStep now cl co e rg low high s) := by
  unfold execTouchupStep
  extract_lets s1 _ _
  have hs1 : Keeps s s1 := State.advance_keeps ..
  refine Completes.ite _ ?_ ?_
  · exact Completes.next ((State.opDone_keeps ..).after ((State.freeToken_keeps ..).after
      ((State.touchupRow_keeps ..).after hs1)))
  · exact Completes.next hs1

theorem execProgTokenGrant_completes (now : Nat) (s : State) : Completes s (execProgTokenGrant now s) := by
  unfold execProgTokenGrant
  extract_lets s1
  have hs1 : Keeps s s1 := State.advance_keeps ..
  split
  · extract_lets p src
    have hp : Keeps s p.1 := (State.draw_keeps ..).after hs1
    have hsrc : Keeps s src := hp
    refine Completes.ite _ ?_ ?_
    · exact Completes.next (Keeps.ite _ (hsrc.trans (Keeps.of_eq rfl rfl rfl)) hp)
    · exact Completes.next hs1
  · exact Completes.next hs1

/-! ### The operations of Machine/Mailbox.lean -/

theorem State.mbxStore_keeps (s : State) (ch : Nat) (ws : List Nat) : Keeps s (s.mbxStore ch ws) :=
  Keeps.foldl _ (fun _ _ => State.setF_keeps ..) _ _

theorem State.sendPeer_keeps (s : State) (p type : Nat) (payload : List Byte) : Keeps s (s.sendPeer p type payload) :=
  Keeps.ite _ (State.sendFrame_keeps ..) (Keeps.refl _)

theorem State.mbxWake_keeps (s : State) (ch : Nat) : Keeps s (s.mbxWake ch) := by
  unfold State.mbxWake
  extract_lets _
  refine Keeps.ite _ ?_ ?_
  · exact Keeps.ite _ (State.msix_keeps ..) (Keeps.of_eq rfl rfl rfl)
  · exact Keeps.ite _ (Keeps.ite _ (State.sendPeer_keeps ..) (Keeps.of_eq rfl rfl rfl)) (State.emit_keeps ..)

theorem State.deliverWakes_keeps (s : State) (ready gone : Nat → Bool) : Keeps s (s.deliverWakes ready gone) := by
  unfold State.deliverWakes
  extract_lets t
  have ht : Keeps s t := Keeps.of_eq rfl rfl rfl
  exact Keeps.after (Keeps.foldl _ (fun _ _ => State.mbxWake_keeps ..) _ _) ht

theorem State.setChan_keeps (s : State) (ch : Nat) (x : Channel) : Keeps s (s.setChan ch x) :=
  Keeps.of_eq rfl rfl rfl

theorem State.mbxAccept_keeps (s : State) (ch : Nat) (ws : List Nat) : Keeps s (s.mbxAccept ch ws) := by
  unfold State.mbxAccept
  extract_lets _ s1 s2 s3
  have hs1 : Keeps s s1 := State.setChan_keeps ..
  have hs2 : Keeps s s2 := (State.mbxStore_keeps ..).after hs1
  have hs3 : Keeps s s3 := (State.addWrap_keeps ..).after ((State.setF_keeps ..).after ((State.setF_keeps ..).after
      ((State.setF_keeps ..).after ((State.setF_keeps ..).after hs2))))
  exact (State.mbxWake_keeps ..).after hs3

theorem State.mbxTell_keeps (s : State) (ch : Nat) : Keeps s (s.mbxTell ch) :=
  Keeps.ite _ (State.msix_keeps ..) (Keeps.ite _ (State.emit_keeps ..) (Keeps.refl _))

theorem State.mbxClear_keeps (s : State) (ch : Nat) (discard : Bool) : Keeps s (s.mbxClear ch discard) := by
  unfold State.mbxClear
  extract_lets s1 s2
  have hs1 : Keeps s s1 := State.mbxStore_keeps ..
  have hs2 : Keeps s s2 := (State.setB_keeps ..).after ((State.setF_keeps ..).after hs1)
  clear_value s2
  exact hs2.trans (Keeps.of_eq rfl rfl rfl)

theorem State.mbxEmpty_keeps (s : State) (ch : Nat) (discard : Bool) : Keeps s (s.mbxEmpty ch discard) :=
  (State.mbxTell_keeps ..).after (State.mbxClear_keeps ..)

theorem State.mbxAckPeer_keeps (s : State) (ch : Nat) (discard : Bool) : Keeps s (s.mbxAckPeer ch discard) := by
  unfold State.mbxAckPeer
  extract_lets _
  exact Keeps.ite _ (State.sendPeer_keeps ..) (Keeps.refl _)

theorem State.mbxReset_keeps (s : State) (m : Nat) : Keeps s (s.mbxReset m) := by
  unfold State.mbxReset
  refine Keeps.foldl _ (fun t x => ?_) _ _
  refine Keeps.ite _ (Keeps.refl _) ?_
  refine Keeps.ite _ ?_ ?_
  · exact (State.mbxEmpty_keeps ..).after (State.mbxAckPeer_keeps ..)
  · exact Keeps.ite _ (State.setF_keeps ..) (Keeps.refl _)

theorem State.mbxBy_keeps (s : State) (m : Nat) (f : State → State) (hf : ∀ (t : State), Keeps t (f t)) : Keeps s
    (s.mbxBy m f) :=
  Keeps.ite _ (State.hosted_keeps_all _ _ _ (fun _ => hf ..)) (hf ..)

theorem State.mbxForeign_keeps (s : State) (m ch : Nat) : Keeps s (s.mbxForeign m ch) :=
  Keeps.ite _ (State.denied_keeps ..) (Keeps.refl _)

theorem execMailboxBind_completes (now : Nat) (ch : Fin 64) (tmo : Bool) (v : Word) (s : State) :
    Completes s (execMailboxBind now ch tmo v s) := by
  unfold execMailboxBind
  extract_lets s1 _ _ _
  have hs1 : Keeps s s1 := State.advance_keeps ..
  refine Completes.ite _ (Completes.next hs1) ?_
  refine Completes.ite _ ?_ ?_
  · refine Completes.ite _ ?_ ?_
    · exact Completes.next ((State.setF_keeps ..).after hs1)
    · exact Completes.next ((State.setF_keeps ..).after hs1)
  · refine Completes.ite _ ?_ ?_
    · exact Completes.next ((State.setF_keeps ..).after ((State.setF_keeps ..).after ((State.setF_keeps ..).after hs1)))
    · exact Completes.next ((State.setF_keeps ..).after hs1)

theorem execMailboxLock_completes (now : Nat) (s : State) : Completes s (execMailboxLock now s) :=
  Completes.next ((State.setF_keeps ..).after (State.advance_keeps ..))

theorem execMailboxPost_completes (now : Nat) (m : Master) (ch : Fin 64) (nm1 : Fin 16) (s : State) :
    Completes s (execMailboxPost now m ch nm1 s) :=
  Completes.next (Keeps.after (State.mbxBy_keeps _ _ _ (fun _ => Keeps.ite _ (State.mbxAccept_keeps ..)
      (State.mbxForeign_keeps ..))) (State.advance_keeps ..))

theorem State.mbxAck_keeps (s : State) (ch : Nat) : Keeps s (s.mbxAck ch) := by
  unfold State.mbxAck
  extract_lets _ _ t
  have ht : Keeps s t := (State.setChan_keeps ..).after (State.mbxAckPeer_keeps ..)
  refine Keeps.ite _ ?_ ?_
  · exact (State.mbxClear_keeps ..).after ((State.setF_keeps ..).after ht)
  · exact (State.mbxEmpty_keeps ..).after ht

theorem execMailboxAck_completes (now : Nat) (m : Master) (ch : Fin 64) (s : State) : Completes s (execMailboxAck now m ch s) :=
  Completes.next (Keeps.after (State.mbxBy_keeps _ _ _ (fun _ => Keeps.ite _ (State.mbxAck_keeps ..)
      (State.mbxForeign_keeps ..))) (State.advance_keeps ..))

theorem execMailboxTimeout_completes (now : Nat) (ch : Fin 64) (s : State) : Completes s (execMailboxTimeout now ch s) := by
  unfold execMailboxTimeout
  extract_lets s1 _ s2
  have hs1 : Keeps s s1 := State.advance_keeps ..
  have hs2 : Keeps s s2 := (State.setChan_keeps ..).after hs1
  refine Completes.ite _ ?_ ?_
  · exact Completes.next ((State.mbxTell_keeps ..).after ((State.setF_keeps ..).after hs2))
  · exact Completes.next hs1

theorem execClrtmo_completes (now : Nat) (m : Master) (ch : Fin 64) (s : State) : Completes s (execClrtmo now m ch s) :=
  Completes.next (Keeps.after (State.mbxBy_keeps _ _ _ (fun _ => Keeps.ite _ (State.setF_keeps ..)
      (State.mbxForeign_keeps ..))) (State.advance_keeps ..))

theorem State.mbxFlush_keeps (s : State) (ch : Nat) : Keeps s (s.mbxFlush ch) := by
  unfold State.mbxFlush
  extract_lets _ t
  have ht : Keeps s t := State.setChan_keeps ..
  refine Keeps.ite _ ?_ (Keeps.ite _ ((State.setF_keeps ..).after ht) ht)
  refine Keeps.ite _ ?_ ?_
  · exact (State.mbxEmpty_keeps ..).after ((State.setB_keeps ..).after ((State.addWrap_keeps ..).after ht))
  · exact (State.mbxEmpty_keeps ..).after ht

theorem execFlush_completes (now : Nat) (m : Master) (ch : Fin 64) (s : State) : Completes s (execFlush now m ch s) :=
  Completes.next (Keeps.after (State.mbxBy_keeps _ _ _ (fun _ => Keeps.ite _ (State.mbxFlush_keeps ..)
      (State.mbxForeign_keeps ..))) (State.advance_keeps ..))

/-! ### The operations of Machine/Csq.lean -/

theorem seqRow_completes (now op : Nat) (w : Word) (s : State) (body : State → State) (hbody : ∀ (t : State), Keeps t
    (body t)) :
    Completes s (seqRow now op w s body) := by
  unfold seqRow
  extract_lets s1
  have hs1 : Keeps s s1 := State.advance_keeps ..
  exact Completes.next (Keeps.ite _ ((hbody ..).after hs1) hs1)

theorem execNop_completes (now : Nat) (cl : Cluster) (th : Thread) (w : Word) (s : State) : Completes s
    (execNop now cl th w s) :=
  seqRow_completes _ _ _ _ _ (fun _ => State.simple_keeps _ _ _ _ (fun _ => Keeps.refl _))

theorem execMovi_completes (now : Nat) (cl : Cluster) (th : Thread) (w : Word) (s : State) :
    Completes s (execMovi now cl th w s) := by
  unfold execMovi
  extract_lets _ _
  exact seqRow_completes _ _ _ _ _ (fun _ => State.simple_keeps _ _ _ _ (fun _ => State.setGreg_keeps ..))

theorem execMovhi_completes (now : Nat) (cl : Cluster) (th : Thread) (w : Word) (s : State) :
    Completes s (execMovhi now cl th w s) := by
  unfold execMovhi
  extract_lets _ _
  exact seqRow_completes _ _ _ _ _ (fun _ => State.simple_keeps _ _ _ _ (fun _ => State.setGreg_keeps ..))

theorem State.alu_keeps (s : State) (i : Nat) (w : Word) (op : Word → Word → Word) : Keeps s (s.alu i w op) := by
  unfold State.alu
  extract_lets _
  exact State.simple_keeps _ _ _ _ (fun _ => State.setGreg_keeps ..)

theorem execAdd_completes (now : Nat) (cl : Cluster) (th : Thread) (w : Word) (s : State) : Completes s
    (execAdd now cl th w s) :=
  seqRow_completes _ _ _ _ _ (fun _ => State.alu_keeps ..)

theorem execSub_completes (now : Nat) (cl : Cluster) (th : Thread) (w : Word) (s : State) : Completes s
    (execSub now cl th w s) :=
  seqRow_completes _ _ _ _ _ (fun _ => State.alu_keeps ..)

theorem execAnd_completes (now : Nat) (cl : Cluster) (th : Thread) (w : Word) (s : State) : Completes s
    (execAnd now cl th w s) :=
  seqRow_completes _ _ _ _ _ (fun _ => State.alu_keeps ..)

theorem execOr_completes (now : Nat) (cl : Cluster) (th : Thread) (w : Word) (s : State) : Completes s (execOr now cl th w s) :=
  seqRow_completes _ _ _ _ _ (fun _ => State.alu_keeps ..)

theorem execXor_completes (now : Nat) (cl : Cluster) (th : Thread) (w : Word) (s : State) : Completes s
    (execXor now cl th w s) :=
  seqRow_completes _ _ _ _ _ (fun _ => State.alu_keeps ..)

theorem execAddi_completes (now : Nat) (cl : Cluster) (th : Thread) (w : Word) (s : State) :
    Completes s (execAddi now cl th w s) := by
  unfold execAddi
  extract_lets _ _
  exact seqRow_completes _ _ _ _ _ (fun _ => State.simple_keeps _ _ _ _ (fun _ => State.setGreg_keeps ..))

theorem State.shift_keeps (s : State) (i : Nat) (w : Word) (op : Word → Nat → Word) : Keeps s (s.shift i w op) := by
  unfold State.shift
  extract_lets _
  exact State.issue_keeps _ _ _ _ _ (fun _ => Keeps.ite _ ((State.setPc_keeps ..).after (State.setGreg_keeps ..))
      (State.seqHalt_keeps ..))

theorem execShli_completes (now : Nat) (cl : Cluster) (th : Thread) (w : Word) (s : State) :
    Completes s (execShli now cl th w s) :=
  seqRow_completes _ _ _ _ _ (fun _ => State.shift_keeps ..)

theorem execShri_completes (now : Nat) (cl : Cluster) (th : Thread) (w : Word) (s : State) :
    Completes s (execShri now cl th w s) :=
  seqRow_completes _ _ _ _ _ (fun _ => State.shift_keeps ..)

theorem execCmp_completes (now : Nat) (cl : Cluster) (th : Thread) (w : Word) (s : State) :
    Completes s (execCmp now cl th w s) := by
  unfold execCmp
  extract_lets _ _
  refine seqRow_completes _ _ _ _ _ (fun t => ?_)
  refine State.issue_keeps _ _ _ _ _ (fun t => ?_)
  split
  · exact (State.setPc_keeps ..).after (State.setPred_keeps ..)
  · exact State.seqHalt_keeps ..

theorem execPlog_completes (now : Nat) (cl : Cluster) (th : Thread) (w : Word) (s : State) :
    Completes s (execPlog now cl th w s) := by
  unfold execPlog
  extract_lets _ _
  exact seqRow_completes _ _ _ _ _ (fun _ => State.simple_keeps _ _ _ _ (fun _ => State.setPred_keeps ..))

theorem execCnt_completes (now : Nat) (cl : Cluster) (th : Thread) (w : Word) (s : State) :
    Completes s (execCnt now cl th w s) := by
  unfold execCnt
  extract_lets _ _
  exact seqRow_completes _ _ _ _ _ (fun _ => State.simple_keeps _ _ _ _ (fun _ => State.addWrap_keeps ..))

theorem execRdt_completes (now : Nat) (cl : Cluster) (th : Thread) (w : Word) (s : State) :
    Completes s (execRdt now cl th w s) := by
  unfold execRdt
  extract_lets _ _ _
  refine seqRow_completes _ _ _ _ _ (fun t => ?_)
  refine State.issue_keeps _ _ _ _ _ (fun t => ?_)
  extract_lets _ _
  refine Keeps.ite _ ((State.setPc_keeps ..).after ((State.setThread_keeps ..).after (State.setGreg_keeps ..))) ?_
  refine Keeps.ite _ ((State.setPc_keeps ..).after (State.setGreg_keeps ..)) ?_
  refine Keeps.ite _ ((State.setPc_keeps ..).after (State.setGreg_keeps ..)) ?_
  refine Keeps.ite _ ?_ ?_
  · exact State.seqHalt_keeps ..
  · exact (State.setPc_keeps ..).after ((State.setThread_keeps ..).after (State.setGreg_keeps ..))

theorem execTmark_completes (now : Nat) (cl : Cluster) (th : Thread) (w : Word) (s : State) :
    Completes s (execTmark now cl th w s) := by
  unfold execTmark
  extract_lets _
  exact seqRow_completes _ _ _ _ _ (fun _ => State.simple_keeps _ _ _ _ (fun _ => State.traceTh_keeps ..))

theorem execHalt_completes (now : Nat) (cl : Cluster) (th : Thread) (w : Word) (s : State) :
    Completes s (execHalt now cl th w s) := by
  unfold execHalt
  extract_lets _
  exact seqRow_completes _ _ _ _ _ (fun _ => State.issue_keeps _ _ _ _ _ (fun _ => State.setF_keeps ..))

theorem execBr_completes (now : Nat) (cl : Cluster) (th : Thread) (w : Word) (s : State) :
    Completes s (execBr now cl th w s) := by
  unfold execBr
  extract_lets _
  refine seqRow_completes _ _ _ _ _ (fun t => ?_)
  refine State.issue_keeps _ _ _ _ _ (fun t => ?_)
  extract_lets _
  exact State.branch_keeps _ _ _ _ _ (fun _ => Keeps.refl _)

theorem execLoop_completes (now : Nat) (cl : Cluster) (th : Thread) (w : Word) (s : State) :
    Completes s (execLoop now cl th w s) := by
  unfold execLoop
  extract_lets _ _
  refine seqRow_completes _ _ _ _ _ (fun t => ?_)
  refine State.issue_keeps _ _ _ _ _ (fun t => ?_)
  extract_lets _ _
  refine Keeps.ite _ ?_ ?_
  · exact (State.setPc_keeps ..).after (State.setGreg_keeps ..)
  · exact State.branch_keeps _ _ _ _ _ (fun _ => State.setGreg_keeps ..)

theorem execJr_completes (now : Nat) (cl : Cluster) (th : Thread) (w : Word) (s : State) :
    Completes s (execJr now cl th w s) := by
  unfold execJr
  extract_lets _
  exact seqRow_completes _ _ _ _ _ (fun _ => State.issue_keeps _ _ _ _ _ (fun _ => State.branch_keeps _ _ _ _ _
      (fun _ => Keeps.refl _)))

theorem execLdw_completes (now : Nat) (cl : Cluster) (th : Thread) (w : Word) (s : State) :
    Completes s (execLdw now cl th w s) := by
  unfold execLdw
  extract_lets _ _
  refine seqRow_completes _ _ _ _ _ (fun t => ?_)
  refine State.issue_keeps _ _ _ _ _ (fun t => ?_)
  split
  · exact State.seqHalt_keeps ..
  · extract_lets t1
    have ht1 : Keeps t t1 := State.readEcc_keeps ..
    refine Keeps.ite _ ?_ ?_
    · exact (State.seqHalt_keeps ..).after ht1
    · exact (State.setPc_keeps ..).after ((State.setGreg_keeps ..).after ht1)

theorem execStw_completes (now : Nat) (cl : Cluster) (th : Thread) (w : Word) (s : State) :
    Completes s (execStw now cl th w s) := by
  unfold execStw
  extract_lets _ _
  refine seqRow_completes _ _ _ _ _ (fun t => ?_)
  refine State.issue_keeps _ _ _ _ _ (fun t => ?_)
  split
  · exact State.seqHalt_keeps ..
  · extract_lets r
    have hr : Keeps t r.1 := State.writeMem_keeps ..
    exact Keeps.ite _ ((State.seqHalt_keeps ..).after hr) ((State.setPc_keeps ..).after hr)

theorem execCopy_completes (now : Nat) (cl : Cluster) (th : Thread) (w : Word) (s : State) :
    Completes s (execCopy now cl th w s) := by
  unfold execCopy
  extract_lets _ _
  refine seqRow_completes _ _ _ _ _ (fun t => ?_)
  refine State.issue_keeps _ _ _ _ _ (fun t => ?_)
  extract_lets _
  split
  · exact State.seqHalt_keeps ..
  · exact (State.setPc_keeps ..).after (State.block_keeps ..)

theorem execCopyDone_completes (now : Nat) (cl : Cluster) (th : Thread) (s : State) : Completes s
    (execCopyDone now cl th s) := by
  unfold execCopyDone
  extract_lets _ s1
  have hs1 : Keeps s s1 := State.advance_keeps ..
  split
  · extract_lets t _ t1
    have ht : Keeps s t := (State.moveBytes_keeps ..).after hs1
    have ht1 : Keeps s t1 := (State.setThread_keeps ..).after ht
    refine Completes.ite _ (Completes.next hs1) ?_
    refine Completes.ite _ ?_ ?_
    · exact Completes.next ((State.seqStopDue_keeps ..).after ((State.traceTh_keeps ..).after
        ((State.setF_keeps ..).after ((State.setF_keeps ..).after ht1))))
    · exact Completes.next ((State.seqHaltAt_keeps ..).after hs1)
  · exact Completes.next hs1

theorem execDwr_completes (now : Nat) (cl : Cluster) (th : Thread) (w : Word) (s : State) :
    Completes s (execDwr now cl th w s) := by
  unfold execDwr
  extract_lets _ _ _
  refine seqRow_completes _ _ _ _ _ (fun t => ?_)
  refine State.issue_keeps _ _ _ _ _ (fun t => ?_)
  extract_lets _ _ r
  have hr : Keeps t r := Keeps.ite _ (State.writeMem_keeps ..) (Keeps.refl _)
  split
  · exact State.seqHalt_keeps ..
  · exact (State.setPc_keeps ..).after hr

theorem execFire_completes (now : Nat) (cl : Cluster) (th : Thread) (w : Word) (s : State) :
    Completes s (execFire now cl th w s) := by
  unfold execFire
  extract_lets _ _ _
  refine seqRow_completes _ _ _ _ _ (fun t => ?_)
  refine State.issue_keeps _ _ _ _ _ (fun t => ?_)
  extract_lets _ _ _ t1 t2 _ t3
  have ht1 : Keeps t t1 := Keeps.of_eq rfl rfl rfl
  have ht2 : Keeps t t2 := (State.setStation_keeps ..).after ht1
  have ht3 : Keeps t t3 := (State.setThread_keeps ..).after ht2
  split
  · exact State.seqHalt_keeps ..
  · refine Keeps.ite _ ?_ ?_
    · exact State.seqRecover_keeps ..
    · exact (State.setPc_keeps ..).after ((State.traceTh_keeps ..).after ht3)

theorem State.land_keeps (s : State) (f : Flight) : Keeps s (s.land f) := by
  unfold State.land
  extract_lets _ s1 _
  have hs1 : Keeps s s1 := State.grant_keeps ..
  refine Keeps.ite _ ?_ ?_
  · exact hs1
  · exact Keeps.ite _ ((State.seqOver_keeps ..).after hs1) ((State.seqRecoverAt_keeps ..).after hs1)

theorem execGrantsLand_completes (now : Nat) (st : StationId) (s : State) : Completes s (execGrantsLand now st s) := by
  unfold execGrantsLand
  extract_lets s1 _ s11
  have hs1 : Keeps s s1 := State.advance_keeps ..
  have hs11 : Keeps s s11 := hs1.trans (Keeps.of_eq rfl rfl rfl)
  exact Completes.next (Keeps.after (Keeps.foldl _ (fun _ _ => State.land_keeps ..) _ _) hs11)

theorem execWait_completes (now : Nat) (cl : Cluster) (th : Thread) (w w2 : Word) (s : State) :
    Completes s (execWait now cl th w w2 s) := by
  unfold execWait
  extract_lets _ _ _ _ _ _ _
  refine seqRow_completes _ _ _ _ _ (fun t => ?_)
  refine State.issue_keeps _ _ _ _ _ (fun t => ?_)
  extract_lets _ _
  refine Keeps.ite _ (State.seqHalt_keeps ..) ?_
  split
  · exact State.seqHalt_keeps ..
  · refine Keeps.ite _ (State.seqHalt_keeps ..) ?_
    refine Keeps.ite _ ?_ ?_
    · exact (State.setPc_keeps ..).after (State.setPred_keeps ..)
    · exact (State.setPc_keeps ..).after (State.block_keeps ..)

theorem execWaitResume_completes (now : Nat) (cl : Cluster) (th : Thread) (s : State) :
    Completes s (execWaitResume now cl th s) := by
  unfold execWaitResume
  extract_lets _ s1
  have hs1 : Keeps s s1 := State.advance_keeps ..
  split
  · exact Completes.ite _ (Completes.next ((State.resume_keeps ..).after hs1)) (Completes.next hs1)
  · exact Completes.next hs1

theorem execWaitTimeout_completes (now : Nat) (cl : Cluster) (th : Thread) (s : State) :
    Completes s (execWaitTimeout now cl th s) := by
  unfold execWaitTimeout
  extract_lets _ s1
  have hs1 : Keeps s s1 := State.advance_keeps ..
  split
  · exact Completes.ite _ (Completes.next ((State.resume_keeps ..).after hs1)) (Completes.next hs1)
  · exact Completes.next hs1

theorem State.skipInstance_keeps (s : State) (i g : Nat) : Keeps s (s.skipInstance i g) := by
  unfold State.skipInstance
  extract_lets _ s1
  have hs1 : Keeps s s1 := State.setThread_keeps ..
  exact (State.setPc_keeps ..).after ((State.setPred_keeps ..).after hs1)

theorem execBar_completes (now : Nat) (cl : Cluster) (th : Thread) (w : Word) (s : State) :
    Completes s (execBar now cl th w s) := by
  unfold execBar
  extract_lets _ _ _
  refine seqRow_completes _ _ _ _ _ (fun t => ?_)
  refine State.issue_keeps _ _ _ _ _ (fun t => ?_)
  refine Keeps.ite _ (State.seqHalt_keeps ..) ?_
  refine Keeps.ite _ ?_ ?_
  · exact State.skipInstance_keeps ..
  · exact (State.setPc_keeps ..).after ((State.arrive_keeps ..).after (State.block_keeps ..))

theorem execBarrierRelease_completes (now : Nat) (g : Fin 64) (s : State) : Completes s (execBarrierRelease now g s) := by
  unfold execBarrierRelease
  extract_lets s1 _
  have hs1 : Keeps s s1 := (State.sendRounds_keeps ..).after (State.advance_keeps ..)
  split
  · exact Completes.ite _ (Completes.next ((State.endInstance_keeps ..).after hs1)) (Completes.next hs1)
  · exact Completes.next hs1

theorem execBarrierTimeout_completes (now : Nat) (g : Fin 64) (s : State) : Completes s (execBarrierTimeout now g s) := by
  unfold execBarrierTimeout
  extract_lets s1 _
  have hs1 : Keeps s s1 := State.advance_keeps ..
  split
  · exact Completes.ite _ (Completes.next ((State.endInstance_keeps ..).after hs1)) (Completes.next hs1)
  · exact Completes.next hs1

theorem execBcast_completes (now : Nat) (cl : Cluster) (th : Thread) (w : Word) (s : State) :
    Completes s (execBcast now cl th w s) := by
  unfold execBcast
  extract_lets _ _ _ _
  refine seqRow_completes _ _ _ _ _ (fun t => ?_)
  refine State.issue_keeps _ _ _ _ _ (fun t => ?_)
  extract_lets _ _ _ t1 _ t2
  have ht1 : Keeps t t1 := (State.arrive_keeps ..).after (State.block_keeps ..)
  have ht2 : Keeps t t2 := by
    unfold t2
    refine Keeps.ite _ ?_ ht1
    split
    · exact (State.sendBcast_keeps ..).after ((State.setGroup_keeps ..).after ht1)
    · exact ht1
  refine Keeps.ite _ (State.seqHalt_keeps ..) ?_
  refine Keeps.ite _ ?_ ?_
  · exact State.skipInstance_keeps ..
  · exact Keeps.ite _ (State.seqHalt_keeps ..) ((State.setPc_keeps ..).after ht2)

theorem State.deliver_keeps (v : Word) (s : State) (i : Nat) : Keeps s (State.deliver v s i) := by
  unfold State.deliver
  split
  · exact State.setGreg_keeps ..
  · exact Keeps.refl _

theorem execBcastDeliver_completes (now : Nat) (g : Fin 64) (s : State) : Completes s (execBcastDeliver now g s) := by
  unfold execBcastDeliver
  extract_lets s1 _
  have hs1 : Keeps s s1 := (State.sendRounds_keeps ..).after (State.advance_keeps ..)
  split
  · split
    · refine Completes.ite _ ?_ ?_
      · exact Completes.next ((State.endInstance_keeps ..).after (Keeps.after (Keeps.foldl _
          (fun _ _ => State.deliver_keeps ..) _ _) hs1))
      · exact Completes.next hs1
    · exact Completes.next hs1
  · exact Completes.next hs1

theorem execEpw_completes (now : Nat) (cl : Cluster) (th : Thread) (w : Word) (s : State) :
    Completes s (execEpw now cl th w s) := by
  unfold execEpw
  extract_lets _ _ _
  refine seqRow_completes _ _ _ _ _ (fun t => ?_)
  refine State.issue_keeps _ _ _ _ _ (fun t => ?_)
  extract_lets _ _
  refine Keeps.ite _ (State.seqHalt_keeps ..) ?_
  refine Keeps.ite _ ((State.setPc_keeps ..).after (State.setPred_keeps ..)) ?_
  refine Keeps.ite _ ?_ ?_
  · exact (State.setPc_keeps ..).after (State.setPred_keeps ..)
  · exact (State.setPc_keeps ..).after (State.block_keeps ..)

theorem execEpa_completes (now : Nat) (cl : Cluster) (th : Thread) (w w2 : Word) (s : State) :
    Completes s (execEpa now cl th w w2 s) := by
  unfold execEpa
  extract_lets _ _ _ _
  refine seqRow_completes _ _ _ _ _ (fun t => ?_)
  refine State.issue_keeps _ _ _ _ _ (fun t => ?_)
  extract_lets _ _ _ _ _
  refine Keeps.ite _ (State.seqHalt_keeps ..) ?_
  split
  · exact State.seqHalt_keeps ..
  · refine Keeps.ite _ (State.seqHalt_keeps ..) ?_
    refine Keeps.ite _ (State.seqRecover_keeps ..) ?_
    refine Keeps.ite _ ((State.setPc_keeps ..).after ((State.setPred_keeps ..).after (State.grant_keeps ..))) ?_
    refine Keeps.ite _ ?_ ?_
    · exact State.seqRecover_keeps ..
    · exact (State.setPc_keeps ..).after ((State.setPred_keeps ..).after (State.setThread_keeps ..))

theorem execSnap_completes (now : Nat) (cl : Cluster) (th : Thread) (w : Word) (s : State) :
    Completes s (execSnap now cl th w s) := by
  unfold execSnap
  extract_lets _ _
  refine seqRow_completes _ _ _ _ _ (fun t => ?_)
  refine State.issue_keeps _ _ _ _ _ (fun t => ?_)
  extract_lets t1
  have ht1 : Keeps t t1 := Keeps.of_eq rfl rfl rfl
  split
  · exact State.seqHalt_keeps ..
  · refine Keeps.ite _ (State.seqHalt_keeps ..) ?_
    refine Keeps.ite _ ?_ ?_
    · exact State.skipInstance_keeps ..
    · exact (State.setPc_keeps ..).after ((State.arrive_keeps ..).after ((State.block_keeps ..).after ht1))

theorem State.snapCopy_keeps (s : State) (i : Nat) (d : SnapSet) : Keeps s (s.snapCopy i d) :=
  Keeps.foldl _ (fun _ _ => Keeps.ite _ (State.moveBytes_keeps ..) (Keeps.refl _)) _ _

theorem execSnapshotDone_completes (now : Nat) (cl : Cluster) (th : Thread) (s : State) :
    Completes s (execSnapshotDone now cl th s) := by
  unfold execSnapshotDone
  extract_lets _ s1
  have hs1 : Keeps s s1 := State.advance_keeps ..
  split
  · split
    · extract_lets s2 _
      have hs2 : Keeps s s2 := (State.sendRounds_keeps ..).after hs1
      split
      · extract_lets _ t
        have ht : Keeps s t := by
          unfold t
          refine Keeps.after (Keeps.foldl _ (fun t x => ?_) _ _) hs2
          split
          · exact State.snapCopy_keeps ..
          · exact Keeps.refl _
        exact Completes.ite _ (Completes.next ((State.endInstance_keeps ..).after ht)) (Completes.next hs2)
      · exact Completes.next hs2
    · exact Completes.next hs1
  · exact Completes.next hs1

theorem execMpost_completes (now : Nat) (cl : Cluster) (th : Thread) (w : Word) (s : State) :
    Completes s (execMpost now cl th w s) := by
  unfold execMpost
  extract_lets _ _ _ _
  refine seqRow_completes _ _ _ _ _ (fun t => ?_)
  refine State.issue_keeps _ _ _ _ _ (fun t => ?_)
  extract_lets _ _
  refine Keeps.ite _ (State.seqHalt_keeps ..) ?_
  refine Keeps.ite _ ?_ ?_
  · exact (State.setPc_keeps ..).after (State.setPred_keeps ..)
  · exact (State.setPc_keeps ..).after ((State.setPred_keeps ..).after (State.mbxAccept_keeps ..))

theorem State.stopWrite_keeps (s : State) (fn cl th : Nat) : Keeps s (s.stopWrite fn cl th) := by
  unfold State.stopWrite
  extract_lets _
  refine Keeps.ite _ (State.denied_keeps ..) ?_
  refine Keeps.ite _ ?_ ?_
  · exact Keeps.onReg (Keeps.refl _) (Keeps.refl _)
  · exact Keeps.onReg (Keeps.refl _) (State.threadStop_keeps ..)

theorem execThreadStop_completes (now : Nat) (fn : Func) (cl : Cluster) (th : Thread) (s : State) :
    Completes s (execThreadStop now fn cl th s) :=
  Completes.next (Keeps.after (State.hosted_keeps_all _ _ _ (fun _ => State.stopWrite_keeps ..)) (State.advance_keeps ..))

theorem State.restartWrite_keeps (s : State) (fn cl th : Nat) : Keeps s (s.restartWrite fn cl th) := by
  unfold State.restartWrite
  extract_lets _
  refine Keeps.ite _ (State.denied_keeps ..) ?_
  refine Keeps.ite _ ?_ ?_
  · exact Keeps.onReg (Keeps.refl _) (Keeps.refl _)
  · exact Keeps.onReg (Keeps.refl _) ((State.threadStart_keeps ..).after (Keeps.ite _ (State.threadStopNow_keeps ..)
      (Keeps.refl _)))

theorem execThreadRestart_completes (now : Nat) (fn : Func) (cl : Cluster) (th : Thread) (s : State) :
    Completes s (execThreadRestart now fn cl th s) :=
  Completes.next (Keeps.after (State.hosted_keeps_all _ _ _ (fun _ => State.restartWrite_keeps ..)) (State.advance_keeps ..))

theorem execThreadExcClear_completes (now : Nat) (cl : Cluster) (th : Thread) (s : State) :
    Completes s (execThreadExcClear now cl th s) := by
  unfold execThreadExcClear
  extract_lets s1
  have hs1 : Keeps s s1 := State.advance_keeps ..
  exact Completes.next (Keeps.onReg hs1 ((State.setF_keeps ..).after hs1))

theorem execStepperExcClear_completes (now : Nat) (cl : Cluster) (co : Core) (s : State) :
    Completes s (execStepperExcClear now cl co s) := by
  unfold execStepperExcClear
  extract_lets s1
  have hs1 : Keeps s s1 := State.advance_keeps ..
  exact Completes.next (Keeps.onReg hs1 ((State.setF_keeps ..).after hs1))

/-! ### The operations of Machine/Owl.lean -/

theorem State.owlRelearn_keeps (s : State) (i : Nat) : Keeps s (s.owlRelearn i) := by
  unfold State.owlRelearn
  extract_lets _ _ _
  refine Keeps.ite _ ?_ ?_
  · exact (State.setF_keeps ..).after ((State.setF_keeps ..).after (State.setOwl_keeps ..))
  · exact Keeps.refl _

theorem State.owlReport_keeps (s : State) (i : Nat) (o : Owl) (alarm : Nat) (hard : Bool) :
    Keeps s (s.owlReport i o alarm hard) := by
  unfold State.owlReport
  extract_lets _ s1 s2
  have hs1 : Keeps s s1 := (State.setF_keeps ..).after ((State.setF_keeps ..).after (State.setF_keeps ..))
  have hs2 : Keeps s s2 := (State.setB_keeps ..).after ((State.setF_keeps ..).after hs1)
  exact (State.setF_keeps ..).after ((State.setB_keeps ..).after ((State.setF_keeps ..).after hs2))

theorem State.owlAlarm_keeps (s : State) (i : Nat) : Keeps s (s.owlAlarm i) := by
  unfold State.owlAlarm
  extract_lets _ _
  exact (State.raise_keeps ..).after ((State.total_keeps ..).after (State.addHold_keeps ..))

theorem State.owlClose_keeps (s : State) (i : Nat) : Keeps s (s.owlClose i) := by
  unfold State.owlClose
  extract_lets _ _ _ _ _ s1 _ s2
  have hs1 : Keeps s s1 := State.owlReport_keeps ..
  have hs2 : Keeps s s2 := by
    unfold s2
    refine Keeps.ite _ ?_ ?_
    · exact (State.setOwl_keeps ..).after hs1
    · exact (State.setF_keeps ..).after ((State.setF_keeps ..).after ((State.setOwl_keeps ..).after hs1))
  exact Keeps.ite _ ((State.owlAlarm_keeps ..).after hs2) hs2

theorem State.owlTake_keeps (s : State) (i : Nat) (vs : List Int) (sat : Bool) : Keeps s (s.owlTake i vs sat) := by
  unfold State.owlTake
  extract_lets s1
  have hs1 : Keeps s s1 := Keeps.ite _ (State.owlClose_keeps ..) (Keeps.refl _)
  exact (State.setOwl_keeps ..).after hs1

theorem execOwlWindowClose_completes (now : Nat) (cl : Cluster) (slot : Fin 32) (s : State) :
    Completes s (execOwlWindowClose now cl slot s) := by
  unfold execOwlWindowClose
  extract_lets s1 _
  have hs1 : Keeps s s1 := State.advance_keeps ..
  exact Completes.ite _ (Completes.next ((State.owlClose_keeps ..).after hs1)) (Completes.next hs1)

theorem State.relearn_keeps (s : State) (fn cl slot : Nat) : Keeps s (s.relearn fn cl slot) := by
  unfold State.relearn
  extract_lets _
  exact Keeps.ite _ (State.denied_keeps ..) (Keeps.onReg (Keeps.refl _) (State.owlRelearn_keeps ..))

theorem execRelearn_completes (now : Nat) (fn : Func) (cl : Cluster) (slot : Fin 32) (s : State) :
    Completes s (execRelearn now fn cl slot s) :=
  Completes.next (Keeps.after (State.hosted_keeps_all _ _ _ (fun _ => State.relearn_keeps ..)) (State.advance_keeps ..))

/-! ### The operations of Machine/TileOps.lean -/

theorem State.emptySlot_keeps (s : State) (r : SlotRef) : Keeps s (s.emptySlot r) :=
  State.setSlot_keeps ..

theorem State.tornTaken_keeps (s : State) (st : Nat) (r : SlotRef) : Keeps s (s.tornTaken st r) := by
  unfold State.tornTaken
  extract_lets _
  exact (State.raise_keeps ..).after ((State.count_keeps ..).after (State.setTorn_keeps ..))

theorem State.fillSlot_keeps (s : State) (r : SlotRef) : Keeps s (s.fillSlot r) := by
  unfold State.fillSlot
  split
  · extract_lets _ s1
    have hs1 : Keeps s s1 := State.setRing_keeps ..
    refine Keeps.ite _ ?_ ?_
    · exact (State.setSlot_keeps ..).after (Keeps.ite _ ((State.tornTaken_keeps ..).after hs1) hs1)
    · exact State.setSlot_keeps ..
  · exact State.setSlot_keeps ..

theorem State.tear_keeps (s : State) (r : SlotRef) : Keeps s (s.tear r) := by
  unfold State.tear
  extract_lets _
  exact (State.fillSlot_keeps ..).after ((State.setTorn_keeps ..).after ((State.store_keeps ..).after (State.burn_keeps ..)))

theorem State.skipPart_keeps (s : State) (h : SlotRef) : Keeps s (s.skipPart h) := by
  unfold State.skipPart
  extract_lets _ _ s1 _
  have hs1 : Keeps s s1 := State.stepRd_keeps ..
  refine Keeps.ite _ ?_ ?_
  · exact (State.setSlot_keeps ..).after (Keeps.ite _ ((State.tornTaken_keeps ..).after hs1) hs1)
  · exact (State.setRing_keeps ..).after hs1

theorem State.tmvQueue_keeps (s : State) (r : SlotRef) : Keeps s (s.tmvQueue r) := by
  unfold State.tmvQueue
  extract_lets _
  split
  · split
    · exact State.setTmv_keeps ..
    · exact Keeps.refl _
  · exact Keeps.refl _

theorem State.foreignCapture_keeps (s : State) (owner a : Nat) : Keeps s (s.foreignCapture owner a) :=
  (State.burn_keeps ..).after (State.eccCapture_keeps ..)

theorem State.setResult_keeps (s : State) (n : Nat) (ws : List Nat) : Keeps s (s.setResult n ws) :=
  Keeps.foldl _ (fun _ _ => State.setF_keeps ..) _ _

theorem State.closePoint_keeps (s : State) (n : Nat) : Keeps s (s.closePoint n) := by
  unfold State.closePoint
  extract_lets _ _ s1 s2 s3 s4 _ src
  have hs1 : Keeps s s1 := State.setResult_keeps ..
  have hs2 : Keeps s s2 := (State.setF_keeps ..).after ((State.setF_keeps ..).after ((State.setF_keeps ..).after hs1))
  have hs3 : Keeps s s3 := (State.setB_keeps ..).after ((State.setB_keeps ..).after ((State.setF_keeps ..).after hs2))
  have hs4 : Keeps s s4 := (State.addWrap_keeps ..).after hs3
  have hsrc : Keeps s src := (State.setPoint_keeps ..).after hs4
  exact hsrc.trans (Keeps.of_eq rfl rfl rfl)

theorem State.pointsTake_keeps (s : State) (st : Nat) (exp : Int) (r : SlotRef) : Keeps s (s.pointsTake st exp r) := by
  unfold State.pointsTake
  refine Keeps.foldl _ (fun t x => ?_) _ _
  extract_lets t1
  have ht1 : Keeps t t1 := Keeps.ite _ (State.closePoint_keeps ..) (Keeps.refl _)
  exact (State.setPoint_keeps ..).after ht1

/-! ### The operations of Machine/Watch.lean -/

theorem State.setWin_keeps (s : State) (n : Nat) (x : Win) : Keeps s (s.setWin n x) :=
  Keeps.of_eq rfl rfl rfl

theorem State.setOutMark_keeps (s : State) (n : Nat) (x : OutMark) : Keeps s (s.setOutMark n x) :=
  Keeps.of_eq rfl rfl rfl

theorem State.setWRule_keeps (s : State) (r : Nat) (x : WRule) : Keeps s (s.setWRule r x) :=
  Keeps.of_eq rfl rfl rfl

theorem State.outFollow_keeps (s t : State) : Keeps s (s.outFollow t) :=
  Keeps.foldl _ (fun _ _ => Keeps.ite _ ((State.setOutMark_keeps ..).after (State.setB_keeps ..)) (Keeps.refl _)) _ _

theorem State.clearJudged_keeps (s t : State) : Keeps s (s.clearJudged t) := by
  unfold State.clearJudged
  refine Keeps.foldl _ (fun t x => ?_) _ _
  split
  · extract_lets v _ v1
    have hv : Keeps t v := (State.setB_keeps ..).after ((State.setB_keeps ..).after (State.setF_keeps ..))
    have hv1 : Keeps t v1 := (State.setOutMark_keeps ..).after hv
    exact Keeps.ite _ (Keeps.ite _ ((State.setF_keeps ..).after hv1) hv1) (Keeps.refl _)
  · exact Keeps.refl _

theorem State.wioSettle_keeps (s t : State) : Keeps s (s.wioSettle t) := by
  unfold State.wioSettle
  extract_lets u
  have hu : Keeps s u := State.outFollow_keeps ..
  exact (State.outFollow_keeps ..).after ((State.clearJudged_keeps ..).after hu)

theorem State.ruleWord_keeps (s : State) (st word : Nat) (prov : Bool) : Keeps s (s.ruleWord st word prov) := by
  unfold State.ruleWord
  extract_lets t
  have ht : Keeps s t := Keeps.foldl _ (fun _ _ => Keeps.ite _ (State.setWRule_keeps ..) (Keeps.refl _)) _ _
  exact (State.wioSettle_keeps ..).after ht

theorem State.ruleFree_keeps (s : State) (r : Nat) : Keeps s (s.ruleFree r) := by
  unfold State.ruleFree
  extract_lets _ _
  exact (State.wioSettle_keeps ..).after ((State.setWRule_keeps ..).after (Keeps.of_eq rfl rfl rfl))

theorem State.ruleCut_keeps (s : State) (owner outs : Nat) : Keeps s (s.ruleCut owner outs) := by
  unfold State.ruleCut
  extract_lets t _
  have ht : Keeps s t := Keeps.foldl _ (fun _ _ => State.setWRule_keeps ..) _ _
  exact (State.wioSettle_keeps ..).after (ht.trans (Keeps.of_eq rfl rfl rfl))

theorem State.discFault_keeps (s : State) (n : Nat) : Keeps s (s.discFault n) := by
  unfold State.discFault
  extract_lets t
  have ht : Keeps s t := (State.raise_keeps ..).after ((State.addHold_keeps ..).after (State.setF_keeps ..))
  exact (State.wioSettle_keeps ..).after ht

theorem State.winJudge_keeps (s : State) (n : Nat) : Keeps s (s.winJudge n) := by
  unfold State.winJudge
  extract_lets _ _ _ _ _ _ t t1 t2
  have ht : Keeps s t := State.setWin_keeps ..
  have ht1 : Keeps s t1 := Keeps.ite _ ((State.setF_keeps ..).after ht) ht
  have ht2 : Keeps s t2 := Keeps.ite _ ht1 ((State.setF_keeps ..).after ht1)
  exact Keeps.ite _ ((State.discFault_keeps ..).after ht2) ht2

theorem execWatchInputChange_completes (now : Nat) (n : Fin 4) (a b : Bool) (s : State) :
    Completes s (execWatchInputChange now n a b s) := by
  unfold execWatchInputChange
  extract_lets s1 t
  have hs1 : Keeps s s1 := State.advance_keeps ..
  have ht : Keeps s t := (State.winJudge_keeps ..).after ((State.setB_keeps ..).after ((State.setB_keeps ..).after hs1))
  exact Completes.ite _ (Completes.next hs1) (Completes.next ((State.wioSettle_keeps ..).after ht))

theorem execDiscrepancyFault_completes (now : Nat) (n : Fin 4) (s : State) : Completes s (execDiscrepancyFault now n s) := by
  unfold execDiscrepancyFault
  extract_lets s1
  have hs1 : Keeps s s1 := State.advance_keeps ..
  split
  · exact Completes.ite _ (Completes.next ((State.discFault_keeps ..).after hs1)) (Completes.next hs1)
  · exact Completes.next hs1

theorem execClrReady_completes (now : Nat) (n : Fin 4) (s : State) : Completes s (execClrReady now n s) := by
  unfold execClrReady
  extract_lets s1
  have hs1 : Keeps s s1 := State.advance_keeps ..
  split
  · exact Completes.ite _ (Completes.next ((State.setF_keeps ..).after hs1)) (Completes.next hs1)
  · exact Completes.next hs1

theorem execWatchInputClear_completes (now : Nat) (n : Fin 4) (s : State) : Completes s (execWatchInputClear now n s) := by
  unfold execWatchInputClear
  extract_lets s1 _
  have hs1 : Keeps s s1 := State.advance_keeps ..
  refine Completes.ite _ ?_ ?_
  · exact Completes.next ((State.wioSettle_keeps ..).after ((State.setWin_keeps ..).after ((State.setF_keeps ..).after hs1)))
  · exact Completes.next hs1

theorem execWatchInputConfig_completes (now : Nat) (n : Fin 4) (v : Word) (s : State) :
    Completes s (execWatchInputConfig now n v s) := by
  unfold execWatchInputConfig
  extract_lets s1 _ _ _ t
  have hs1 : Keeps s s1 := State.advance_keeps ..
  have ht : Keeps s t := (State.setF_keeps ..).after ((State.setF_keeps ..).after ((State.setF_keeps ..).after hs1))
  refine Completes.ite _ ?_ ?_
  · exact Completes.next hs1
  · exact Completes.next ((State.wioSettle_keeps ..).after ((State.winJudge_keeps ..).after ht))

theorem execHoldExpire_completes (now : Nat) (r : Fin 32) (s : State) : Completes s (execHoldExpire now r s) := by
  unfold execHoldExpire
  extract_lets s1 _ t
  have hs1 : Keeps s s1 := State.advance_keeps ..
  have ht : Keeps s t := hs1.trans (Keeps.of_eq rfl rfl rfl)
  exact Completes.next ((State.wioSettle_keeps ..).after (Keeps.ite _ ((State.setWRule_keeps ..).after ht) ht))

theorem State.outFault_keeps (s : State) (n fault : Nat) (extlow : Bool) : Keeps s (s.outFault n fault extlow) := by
  unfold State.outFault
  extract_lets _ _ t _ t1 t2 t3
  have ht : Keeps s t := (State.addHold_keeps ..).after ((State.setB_keeps ..).after (State.setF_keeps ..))
  have ht1 : Keeps s t1 := (State.setOutMark_keeps ..).after ht
  have ht2 : Keeps s t2 := (State.raiseTo_keeps ..).after ht1
  have ht3 : Keeps s t3 := Keeps.ite _ ((State.setF_keeps ..).after ht2) ht2
  exact (State.wioSettle_keeps ..).after ht3

theorem execOutputShort_completes (now : Nat) (n : Fin 8) (s : State) : Completes s (execOutputShort now n s) := by
  unfold execOutputShort
  extract_lets s1
  have hs1 : Keeps s s1 := State.advance_keeps ..
  exact Completes.ite _ (Completes.next ((State.outFault_keeps ..).after hs1)) (Completes.next hs1)

theorem execOutputMismatch_completes (now : Nat) (n : Fin 8) (pin : Bool) (s : State) :
    Completes s (execOutputMismatch now n pin s) := by
  unfold execOutputMismatch
  extract_lets s1 _ s2
  have hs1 : Keeps s s1 := State.advance_keeps ..
  have hs2 : Keeps s s2 := (State.setB_keeps ..).after hs1
  exact Completes.ite _ (Completes.next ((State.outFault_keeps ..).after hs2)) (Completes.next hs2)

theorem State.outClear_keeps (s : State) (n : Nat) : Keeps s (s.outClear n) := by
  unfold State.outClear
  extract_lets t t1
  have ht : Keeps s t := (State.setF_keeps ..).after (State.setF_keeps ..)
  have ht1 : Keeps s t1 := Keeps.ite _ ((State.setF_keeps ..).after ((State.setF_keeps ..).after ht)) ht
  exact (State.wioSettle_keeps ..).after ht1

theorem execWatchOutputClear_completes (now : Nat) (n : Fin 8) (pin : Bool) (s : State) :
    Completes s (execWatchOutputClear now n pin s) := by
  unfold execWatchOutputClear
  extract_lets s1 s2 _
  have hs1 : Keeps s s1 := State.advance_keeps ..
  have hs2 : Keeps s s2 := (State.setB_keeps ..).after hs1
  refine Completes.ite _ (Completes.next hs2) ?_
  split
  · exact Completes.next hs2
  · refine Completes.ite _ ?_ ?_
    · exact Completes.next hs2
    · exact Completes.next ((State.outClear_keeps ..).after ((State.setOutMark_keeps ..).after hs2))
  · exact Completes.next ((State.outClear_keeps ..).after hs2)

theorem execForce_completes (now : Nat) (n : Fin 8) (v : Bool) (s : State) : Completes s (execForce now n v s) := by
  unfold execForce
  extract_lets s1
  have hs1 : Keeps s s1 := State.advance_keeps ..
  exact Completes.next ((State.wioSettle_keeps ..).after ((State.setB_keeps ..).after hs1))

/-! ### The operations of Machine/Tile.lean -/

/-- A step of the alignment of a merge discards one tile that is late. -/
theorem State.mergeStep_keeps {s t : State} {st : Nat} {rings : List SlotRef}
    (h : s.mergeStep st rings = some t) : Keeps s t := by
  obtain ⟨_, _, rfl⟩ := Option.map_eq_some_iff.mp h
  exact (State.count_keeps ..).after ((State.stepRd_keeps ..).after (State.emptySlot_keeps ..))

theorem State.mergeAlign_keeps (s : State) (st : Nat) (rings : List SlotRef) (n : Nat) : Keeps s (s.mergeAlign st rings n) := by
  induction n generalizing s with
  | zero => exact Keeps.refl s
  | succ n ih =>
    unfold State.mergeAlign
    split
    next t ht => exact (ih t).after (State.mergeStep_keeps ht)
    next => exact Keeps.refl s

theorem State.alignMerges_keeps (s : State) (core : Nat) : Keeps s (s.alignMerges core) := by
  unfold State.alignMerges
  refine Keeps.foldl _ (fun t x => ?_) _ _
  extract_lets _ _
  exact Keeps.ite _ (State.mergeAlign_keeps ..) (Keeps.refl _)

theorem State.descExc_keeps (s : State) (core d reason : Nat) : Keeps s (s.descExc core d reason) := by
  unfold State.descExc
  extract_lets _ _ s1 s2
  have hs1 : Keeps s s1 := State.capture_keeps ..
  have hs2 : Keeps s s2 := (State.raise_keeps ..).after ((State.park_keeps ..).after hs1)
  split
  · exact (State.seqCapture_keeps ..).after hs2
  · exact hs2

theorem State.noteUnit_keeps (s : State) (core u st : Nat) : Keeps s (s.noteUnit core u st) := by
  unfold State.noteUnit
  split
  · exact State.setF_keeps ..
  · exact State.setF_keeps ..
  · exact State.setF_keeps ..
  · exact Keeps.refl _

theorem State.takeGrant_keeps (s : State) (core d st : Nat) (r : SlotRef) : Keeps s (s.takeGrant core d st r) := by
  unfold State.takeGrant
  extract_lets _ s1 s2
  have hs1 : Keeps s s1 := State.setStation_keeps ..
  have hs2 : Keeps s s2 := (State.setF_keeps ..).after ((State.setF_keeps ..).after hs1)
  exact Keeps.ite _ ((State.park_keeps ..).after hs2) hs2

theorem State.takeSlot_keeps (s : State) (st : Nat) (h : SlotRef) (keep : Bool) : Keeps s (s.takeSlot st h keep) := by
  unfold State.takeSlot
  extract_lets _ s1
  have hs1 : Keeps s s1 := State.stepRd_keeps ..
  refine Keeps.ite _ ?_ ?_
  · exact (State.setSlot_keeps ..).after ((State.tornTaken_keeps ..).after hs1)
  · exact (State.setSlot_keeps ..).after hs1

theorem State.armEngine_keeps (s : State) (core d : Nat) (st e opw : Nat) : Keeps s (s.armEngine core d st e opw) := by
  unfold State.armEngine
  extract_lets _ _ _
  exact State.setEngine_keeps ..

theorem State.beginTile_keeps (s : State) (core u d : Nat) (ins side gone : List SlotRef) (newest : SlotRef) :
    Keeps s (s.beginTile core u d ins side gone newest) := by
  unfold State.beginTile
  extract_lets _ _ _ _ _ _ _ _ _ src s1 s2 s3 s4 s5 _ s6
  have hsrc : Keeps s src := State.readEcc_keeps ..
  have hs1 : Keeps s s1 := Keeps.ite _ (Keeps.burnt hsrc _) (Keeps.refl _)
  have hs2 : Keeps s s2 := Keeps.after (Keeps.foldl _ (fun _ _ => State.readEcc_keeps ..) _ _) hs1
  have hs3 : Keeps s s3 := Keeps.after (Keeps.foldl _ (fun _ _ => (State.stepWr_keeps ..).after
      (State.setSlot_keeps ..)) _ _) hs2
  have hs4 : Keeps s s4 := Keeps.after (Keeps.foldl _ (fun _ _ => State.stepRd_keeps ..) _ _) hs3
  have hs5 : Keeps s s5 :=
    Keeps.ite _ (Keeps.after (Keeps.foldl _ (fun _ _ => State.armEngine_keeps ..) _ _) hs4) ((State.noteUnit_keeps ..).after hs4)
  have hs6 : Keeps s s6 := (State.setCoreTiles_keeps ..).after hs5
  exact (State.enterTile_keeps ..).after hs6

theorem State.startWindow_keeps (s : State) (core u d : Nat) : Keeps s (s.startWindow core u d) := by
  unfold State.startWindow
  extract_lets _ _ _
  split
  · exact Keeps.refl _
  · extract_lets _ _ _ s1 s2 _ _ _ s3 _ s4
    have hs1 : Keeps s s1 := State.takeGrant_keeps ..
    have hs2 : Keeps s s2 := Keeps.after (Keeps.foldl _ (fun _ _ => State.takeSlot_keeps ..) _ _) hs1
    have hs3 : Keeps s s3 := by
      unfold s3
      refine Keeps.ite _ ?_ hs2
      split
      · exact (State.emptySlot_keeps ..).after hs2
      · exact hs2
    have hs4 : Keeps s s4 := (State.takeSlot_keeps ..).after ((State.setStation_keeps ..).after hs3)
    refine Keeps.ite _ (Keeps.after (Keeps.foldl _ (fun _ _ => State.skipPart_keeps ..) _ _) (Keeps.after (Keeps.foldl _
        (fun _ _ => State.setSlot_keeps ..) _ _) ((State.takeSlot_keeps ..).after hs2))) ?_
    refine Keeps.ite _ ?_ ?_
    · exact Keeps.after (Keeps.foldl _ (fun _ _ => State.skipPart_keeps ..) _ _) (Keeps.after (Keeps.foldl _
        (fun _ _ => State.setSlot_keeps ..) _ _) hs4)
    · exact (State.beginTile_keeps ..).after hs4

theorem State.startMerge_keeps (s : State) (core u d : Nat) : Keeps s (s.startMerge core u d) := by
  unfold State.startMerge
  extract_lets _ _ _ s1 s2
  have hs1 : Keeps s s1 := State.takeGrant_keeps ..
  have hs2 : Keeps s s2 := Keeps.after (Keeps.foldl _ (fun _ _ => State.takeSlot_keeps ..) _ _) hs1
  split
  · exact (State.takeSlot_keeps ..).after (State.takeGrant_keeps ..)
  · exact (State.beginTile_keeps ..).after hs2

theorem State.copyPayload_keeps (s : State) (master : Nat) (dst src : SlotRef) : Keeps s (s.copyPayload master dst src) :=
  State.moveBytes_keeps ..

theorem State.spillFix_keeps (s : State) (r : SlotRef) (nvec : Nat) (pois : List Nat) : Keeps s (s.spillFix r nvec pois) := by
  unfold State.spillFix
  refine Keeps.foldl _ (fun t x => ?_) _ _
  refine Keeps.foldl _ (fun t x => ?_) _ _
  extract_lets _
  exact Keeps.ite _ (State.store_keeps ..) (Keeps.refl _)

theorem State.finishSlot_keeps (s : State) (t : Tile) (late : Bool) (h : Header) (r : SlotRef) :
    Keeps s (s.finishSlot t late h r) := by
  unfold State.finishSlot
  extract_lets _ s1 s2 _ s3
  have hs1 : Keeps s s1 := State.writeMem_keeps ..
  have hs2 : Keeps s s2 := Keeps.ite _ ((State.count_keeps ..).after hs1) hs1
  have hs3 : Keeps s s3 := Keeps.ite _ hs2 (Keeps.after (Keeps.foldl _ (fun _ _ => State.owlTake_keeps ..) _ _) hs2)
  refine Keeps.ite _ ?_ ?_
  · exact State.setSlot_keeps ..
  · exact (State.tmvQueue_keeps ..).after ((State.fillSlot_keeps ..).after ((State.pointsTake_keeps ..).after hs3))

theorem State.produce_keeps (s : State) (t : Tile) : Keeps s (s.produce t).1 := by
  unfold State.produce
  extract_lets _ _ _ _ _ fixed _ _ _ _ _ w w1
  have hfixed : Keeps s fixed := Keeps.ite _ (Keeps.foldl _ (fun _ _ => State.spillFix_keeps ..) _ _) (Keeps.refl _)
  have hw : Keeps s w := Keeps.foldl _ (fun _ _ => State.writeMem_keeps ..) _ _
  have hw1 : Keeps s w1 := Keeps.ite _ hw ((State.count_keeps ..).after hw)
  split
  · exact hfixed
  · split
    · exact Keeps.foldl _ (fun _ _ => State.copyPayload_keeps ..) _ _
    · exact hw1.trans (Keeps.of_eq rfl rfl rfl)

theorem State.writeDesc_keeps (s : State) (core d gen : Nat) (ws : List Word) : Keeps s (s.writeDesc core d gen ws) :=
  State.store_keeps ..

theorem State.setImage_keeps (s : State) (owner core d : Nat) (f : Nat × Nat × List Word → Nat × Nat × List Word) :
    Keeps s (s.setImage owner core d f) :=
  State.setPart_keeps ..

theorem State.moveShadow_keeps (s : State) (core cst : Nat) (pairs : List (Nat × Nat)) :
    Keeps s (s.moveShadow core cst pairs) := by
  unfold State.moveShadow
  extract_lets _ _
  refine Keeps.ite _ (Keeps.refl _) ?_
  refine Keeps.after (Keeps.foldl _ (fun t x => ?_) _ _) (State.setStation_keeps ..)
  extract_lets _
  refine Keeps.foldl _ (fun t x => ?_) _ _
  exact Keeps.of_eq rfl rfl rfl

theorem State.weightNow_keeps (s : State) (st : Nat) (m : Migration) : Keeps s (s.weightNow st m) := by
  unfold State.weightNow
  extract_lets _ _ _ s1 s2
  have hs1 : Keeps s s1 := (State.writeDesc_keeps ..).after (State.setImage_keeps ..)
  have hs2 : Keeps s s2 := by
    unfold s2
    split
    · exact (State.moveShadow_keeps ..).after hs1
    · exact hs1
  exact (State.setStation_keeps ..).after hs2

theorem State.weightAt_keeps (s : State) (st : Nat) : Keeps s (s.weightAt st) := by
  unfold State.weightAt
  extract_lets _
  split
  · exact State.weightNow_keeps ..
  · exact Keeps.refl _

theorem State.tileEnd_keeps (s : State) (core : Nat) (t : Tile) : Keeps s (s.tileEnd core t) := by
  unfold State.tileEnd
  extract_lets s1 s2 _ s3 s4 s5
  have hs1 : Keeps s s1 := by
    unfold s1
    refine Keeps.ite _ ?_ (Keeps.refl _)
    refine Keeps.foldl _ (fun t x => ?_) _ _
    extract_lets _ _
    exact Keeps.ite _ (State.setEngine_keeps ..) (Keeps.refl _)
  have hs2 : Keeps s s2 := (State.setCoreTiles_keeps ..).after hs1
  have hs3 : Keeps s s3 := Keeps.ite _ hs2 ((State.leaveTile_keeps ..).after hs2)
  have hs4 : Keeps s s4 := Keeps.ite _ ((State.weightAt_keeps ..).after hs3) hs3
  have hs5 : Keeps s s5 := Keeps.ite _ ((State.store_keeps ..).after hs4) hs4
  exact Keeps.after (Keeps.foldl _ (fun _ _ => State.sendRounds_keeps ..) _ _) hs5

theorem State.releaseIns_keeps (s : State) (t : Tile) : Keeps s (s.releaseIns t) := by
  unfold State.releaseIns
  extract_lets _ s1
  have hs1 : Keeps s s1 := Keeps.foldl _ (fun _ _ => State.emptySlot_keeps ..) _ _
  exact Keeps.ite _ hs1 ((State.setStation_keeps ..).after hs1)

theorem execTileComplete_completes (now : Nat) (cl : Cluster) (co : Core) (d : Fin 64) (s : State) :
    Completes s (execTileComplete now cl co d s) := by
  unfold execTileComplete
  extract_lets s1 _
  have hs1 : Keeps s s1 := State.advance_keeps ..
  split
  · extract_lets _ p _ s2 s3
    have hp : Keeps s p.1 := by
      unfold p
      split
      · exact hs1
      · exact (State.produce_keeps ..).after hs1
    have hs2 : Keeps s s2 := Keeps.after (Keeps.foldl _ (fun _ _ => State.finishSlot_keeps ..) _ _) hp
    have hs3 : Keeps s s3 := Keeps.ite _ ((State.count_keeps ..).after hs2) hs2
    refine Completes.ite _ ?_ ?_
    · exact Completes.next ((State.tileEnd_keeps ..).after ((State.releaseIns_keeps ..).after hs3))
    · exact Completes.next hs1
  · exact Completes.next hs1

theorem execDecisionWord_completes (now : Nat) (cl : Cluster) (co : Core) (s : State) :
    Completes s (execDecisionWord now cl co s) := by
  unfold execDecisionWord
  extract_lets s1 _
  have hs1 : Keeps s s1 := State.advance_keeps ..
  split
  · extract_lets _
    refine Completes.ite _ ?_ ?_
    · exact Completes.next ((State.ruleWord_keeps ..).after ((State.putTile_keeps ..).after hs1))
    · exact Completes.next hs1
  · exact Completes.next hs1

theorem execStationPark_completes (now : Nat) (st : StationId) (s : State) : Completes s (execStationPark now st s) :=
  Completes.next ((State.park_keeps ..).after (State.advance_keeps ..))

theorem execStationUnpark_completes (now : Nat) (st : StationId) (s : State) : Completes s (execStationUnpark now st s) :=
  Completes.next ((State.unpark_keeps ..).after ((State.unpark_keeps ..).after (State.advance_keeps ..)))

/-! ### The operations of Machine/Placement.lean -/

theorem State.setDescWord_keeps (s : State) (core d : Nat) (k v : Nat) : Keeps s (s.setDescWord core d k v) := by
  unfold State.setDescWord
  extract_lets _
  exact (State.store_keeps ..).after (State.setImage_keeps ..)

theorem State.ringLike_keeps (s : State) (h : SlotRef) (x : Ring) (len base : Nat) : Keeps s (s.ringLike h x len base) := by
  unfold State.ringLike
  extract_lets s1
  have hs1 : Keeps s s1 := State.setRing_keeps ..
  refine Keeps.after (Keeps.foldl _ (fun t x => ?_) _ _) hs1
  extract_lets _ t1
  have ht1 : Keeps t t1 := (State.setTorn_keeps ..).after (State.setSlot_keeps ..)
  refine Keeps.ite _ ?_ ?_
  · exact (State.setF_keeps ..).after ((State.setF_keeps ..).after ht1)
  · exact (State.setF_keeps ..).after ((State.setF_keeps ..).after ht1)

theorem State.ringFree_keeps (s : State) (h : SlotRef) : Keeps s (s.ringFree h) := by
  unfold State.ringFree
  extract_lets _
  exact (State.setRing_keeps ..).after (Keeps.foldl _ (fun _ _ => Keeps.ite _ (Keeps.refl _)
      ((State.setTorn_keeps ..).after (State.setSlot_keeps ..))) _ _)

theorem State.renameSlot_keeps (s : State) (a b : SlotRef) : Keeps s (s.renameSlot a b) := by
  unfold State.renameSlot
  extract_lets _
  exact Keeps.of_eq rfl rfl rfl

theorem State.carryTiles_keeps (s : State) (h g : SlotRef) (n : Nat) : Keeps s (s.carryTiles h g n) := by
  induction n generalizing s with
  | zero => exact Keeps.refl s
  | succ n ih =>
    unfold State.carryTiles
    extract_lets r v q s1 s2 s3
    have h1 : Keeps s s1 := State.moveBytes_keeps ..
    have h2 : Keeps s s2 := (State.stepWr_keeps ..).after ((State.setTorn_keeps ..).after ((State.setSlot_keeps ..).after h1))
    have h3 : Keeps s s3 := (State.renameSlot_keeps ..).after
      ((State.stepRd_keeps ..).after ((State.setTorn_keeps ..).after ((State.setSlot_keeps ..).after h2)))
    exact Keeps.ite _ ((ih s3).after h3) (Keeps.refl s)

theorem State.turnProducers_keeps (s : State) (h g : SlotRef) : Keeps s (s.turnProducers h g) := by
  unfold State.turnProducers
  extract_lets s1 _ _
  have hs1 : Keeps s s1 := Keeps.of_eq rfl rfl rfl
  refine Keeps.ite _ ?_ ((State.setStation_keeps ..).after hs1)
  refine Keeps.after (Keeps.foldl _ (fun t x => ?_) _ _) hs1
  extract_lets _
  exact Keeps.ite _ (State.setDescWord_keeps ..) (Keeps.refl _)

theorem State.turnConsumer_keeps (s : State) (h g : SlotRef) : Keeps s (s.turnConsumer h g) := by
  unfold State.turnConsumer
  extract_lets _ _
  refine Keeps.ite _ ?_ (State.setStation_keeps ..)
  refine Keeps.foldl _ (fun t x => ?_) _ _
  extract_lets _
  exact Keeps.ite _ (State.setDescWord_keeps ..) (Keeps.refl _)

theorem State.bindEntry_keeps (s : State) (c e : Nat) : Keeps s (s.bindEntry c e) :=
  Keeps.foldl _ (fun _ _ => State.setF_keeps ..) _ _

theorem State.moveStation_keeps (s : State) (st epoch : Nat) (m : Migration) : Keeps s (s.moveStation st epoch m) := by
  unfold State.moveStation
  extract_lets y w v ins outs gen entry s1 s2 s3 s4 busy s5 rings dr
  have h1 : Keeps s s1 := by
    unfold s1
    refine Keeps.ite _ (Keeps.refl s) ?_
    clear_value entry
    cases entry with
    | none => exact Keeps.refl s
    | some e => exact State.bindEntry_keeps ..
  have h2 : Keeps s s2 := (State.writeDesc_keeps ..).after ((State.setImage_keeps ..).after h1)
  have h3 : Keeps s s3 := by
    refine Keeps.after (Keeps.foldl _ (fun t p => Keeps.ite _ (Keeps.refl t) ?_) _ _) h2
    exact (State.turnProducers_keeps ..).after ((State.carryTiles_keeps ..).after (Keeps.ite _ (State.ringLike_keeps ..)
        (Keeps.refl t)))
  have h4 : Keeps s s4 :=
    Keeps.after (Keeps.foldl _ (fun t _ => Keeps.ite _ (State.ringLike_keeps ..) (Keeps.refl t)) _ _) h3
  have h5 : Keeps s s5 :=
    Keeps.ite _ ((State.setCoreTiles_keeps ..).after h4) (Keeps.after (Keeps.foldl _ State.emptySlot_keeps _ _) h4)
  exact (State.setStation_keeps ..).after h5

theorem State.switchWeights_keeps (s : State) (st epoch : Nat) (m : Migration) : Keeps s (s.switchWeights st epoch m) := by
  unfold State.switchWeights
  extract_lets _ _ s1 s2
  have hs1 : Keeps s s1 := State.setStation_keeps ..
  have hs2 : Keeps s s2 := Keeps.after (Keeps.foldl _ (fun _ _ => State.owlRelearn_keeps ..) _ _) hs1
  exact Keeps.ite _ ((State.setCoreTiles_keeps ..).after hs2) ((State.weightNow_keeps ..).after hs2)

theorem State.changePlacement_keeps (s : State) (st epoch : Nat) : Keeps s (s.changePlacement st epoch) := by
  unfold State.changePlacement
  extract_lets _
  refine Keeps.ite _ (Keeps.refl _) ?_
  split
  · exact State.switchWeights_keeps ..
  · exact State.moveStation_keeps ..
  · exact Keeps.refl _

theorem State.changeAll_keeps (s : State) (c epoch : Nat) : Keeps s (s.changeAll c epoch) := by
  unfold State.changeAll
  extract_lets _ s1
  have hs1 : Keeps s s1 := by
    unfold s1
    refine Keeps.foldl _ (fun t x => ?_) _ _
    exact Keeps.ite _ (Keeps.of_eq rfl rfl rfl) (State.changePlacement_keeps ..)
  exact Keeps.after (Keeps.foldl _ (fun _ _ => State.park_keeps ..) _ _) hs1

theorem State.changesHeld_keeps (s : State) (core : Nat) : Keeps s (s.changesHeld core) := by
  unfold State.changesHeld
  extract_lets _
  exact Keeps.after (Keeps.foldl _ (fun _ _ => State.changePlacement_keeps ..) _ _) (Keeps.of_eq rfl rfl rfl)

theorem State.queueAll_keeps (s : State) (h : SlotRef) : Keeps s (s.queueAll h) := by
  unfold State.queueAll
  extract_lets _
  refine Keeps.foldl _ (fun t x => ?_) _ _
  extract_lets _
  exact Keeps.ite _ (State.tmvQueue_keeps ..) (Keeps.refl _)

theorem State.drainClose_keeps (s : State) (st : Nat) (dr : Drain) : Keeps s (s.drainClose st dr) := by
  unfold State.drainClose
  extract_lets _ s1 s2 _ _
  have hs1 : Keeps s s1 := by
    unfold s1
    refine Keeps.foldl _ (fun t x => ?_) _ _
    extract_lets _ _ t1
    have ht1 : Keeps t t1 := by
      unfold t1
      split
      · exact (State.queueAll_keeps ..).after (State.setRing_keeps ..)
      · exact State.turnConsumer_keeps ..
    exact Keeps.ite _ ((State.ringFree_keeps ..).after ht1) (State.ringFree_keeps ..)
  have hs2 : Keeps s s2 := Keeps.ite _ hs1 ((State.store_keeps ..).after hs1)
  exact (State.setStation_keeps ..).after hs2

/-- TILE_START of the descriptor picked, if there is one; for which reasons one is refused is of no account here. -/
theorem startPick_completes (refused : Desc → Option Nat) (o : Option Nat) {s t : State} (core u : Nat)
    (h : Keeps s t) :
    Completes s (match o with
      | some d =>
        let s := t.readEcc (fnMaster (t.station (t.desc core d).station).owner) (descAddr core d) 256
        (match refused (s.desc core d) with
          | some r => .next (s.descExc core d r)
          | none => .next (if (s.desc core d).merge then s.startMerge core u d else s.startWindow core u d))
      | none => .next t) := by
  cases o with
  | none => exact Completes.next h
  | some d =>
    dsimp only
    have hread := (State.readEcc_keeps t (fnMaster (t.station (t.desc core d).station).owner)
      (descAddr core d) 256).after h
    generalize t.readEcc _ _ _ = w at hread ⊢
    cases refused (w.desc core d) with
    | some r => exact Completes.next ((State.descExc_keeps ..).after hread)
    | none =>
      exact Completes.next (Keeps.ite _ ((State.startMerge_keeps ..).after hread)
        ((State.startWindow_keeps ..).after hread))

theorem execTileStart_completes (now : Nat) (cl : Cluster) (co : Core) (u : Fin 20) (s : State) :
    Completes s (execTileStart now cl co u s) := by
  have hs1 : Keeps s (s.advance now) := State.advance_keeps ..
  have hs2 := (State.changesHeld_keeps _ (coreIx cl co)).after ((State.latchAll_keeps _).after hs1)
  have hs3 := Keeps.ite (u.val = 19) ((State.alignMerges_keeps _ (coreIx cl co)).after hs2) hs2
  exact Completes.ite _ (Completes.next hs1) (startPick_completes Desc.reason _ _ _ hs3)

theorem execMigrationRequest_completes (now : Nat) (st : StationId) (cl : Cluster) (co : Core) (d : Fin 64)
    (image : List Word) (bases : List (BitVec 16)) (s : State) :
    Completes s (execMigrationRequest now st cl co d image bases s) := by
  unfold execMigrationRequest
  extract_lets s1 _ _ _ _ _
  have hs1 : Keeps s s1 := State.advance_keeps ..
  exact Completes.ite _ (Completes.next hs1) (Completes.next ((State.setStation_keeps ..).after hs1))

theorem execDrainWindowClose_completes (now : Nat) (st : StationId) (s : State) :
    Completes s (execDrainWindowClose now st s) := by
  unfold execDrainWindowClose
  extract_lets s1
  have hs1 : Keeps s s1 := State.advance_keeps ..
  split
  · exact Completes.ite _ (Completes.next ((State.drainClose_keeps ..).after hs1)) (Completes.next hs1)
  · exact Completes.next hs1

/-! ### The operations of Machine/Quota.lean -/

theorem State.loaderCharge_keeps (s : State) (owner ns : Nat) : Keeps s (s.loaderCharge owner ns) := by
  unfold State.loaderCharge
  extract_lets _
  exact Keeps.of_eq rfl rfl rfl

theorem State.setQuota_keeps (s : State) (t : Nat) (q : Quota) : Keeps s (s.setQuota t q) := by
  unfold State.setQuota
  extract_lets _ s1 s2
  have hs1 : Keeps s s1 := (State.setF_keeps ..).after ((State.setF_keeps ..).after (State.setF_keeps ..))
  have hs2 : Keeps s s2 := (State.setF_keeps ..).after ((State.setF_keeps ..).after ((State.setF_keeps ..).after hs1))
  exact (State.setF_keeps ..).after ((State.setF_keeps ..).after hs2)

theorem State.reclaimEnd_keeps (s : State) (t : Nat) : Keeps s (s.reclaimEnd t) := by
  unfold State.reclaimEnd
  extract_lets _ _ _
  exact Keeps.ite _ (Keeps.refl _) ((State.setFn_keeps ..).after (Keeps.of_eq rfl rfl rfl))

theorem State.reclaimDone_keeps (s : State) (t : Nat) : Keeps s (s.reclaimDone t) := by
  unfold State.reclaimDone
  extract_lets _
  exact Keeps.ite _ ((State.reclaimEnd_keeps ..).after (State.service_keeps ..)) (Keeps.refl _)

theorem State.reclaimGone_keeps (s : State) (t : Nat) : Keeps s (s.reclaimGone t) := by
  unfold State.reclaimGone
  extract_lets _ _
  split
  · exact Keeps.refl _
  · extract_lets _ _
    exact (State.reclaimDone_keeps ..).after (State.setFn_keeps ..)

theorem State.reclaimFit_keeps (s : State) (t : Nat) (late : Bool) : Keeps s (s.reclaimFit t late) :=
  Keeps.ite _ (State.reclaimGone_keeps ..) (Keeps.ite _ (State.reclaimEnd_keeps ..) (Keeps.refl _))

/-! ### The operations of Machine/Position.lean -/

theorem State.counted_keeps (s : State) (p : Nat) (x : Port) : Keeps s (s.counted p x) := by
  unfold State.counted
  extract_lets s1
  have hs1 : Keeps s s1 := State.setPort_keeps ..
  exact hs1.trans (Keeps.of_eq rfl rfl rfl)

theorem execQuadTransition_completes (now : Nat) (p : Fin 4) (a b : Bool) (s : State) :
    Completes s (execQuadTransition now p a b s) := by
  unfold execQuadTransition
  extract_lets s1 _ _ _ _ _
  have hs1 : Keeps s s1 := State.advance_keeps ..
  refine Completes.ite _ (Completes.next ((State.setPort_keeps ..).after hs1)) ?_
  refine Completes.ite _ ?_ ?_
  · exact Completes.next ((State.addHold_keeps ..).after ((State.setPort_keeps ..).after hs1))
  · exact Completes.ite _ (Completes.next hs1) (Completes.next ((State.counted_keeps ..).after hs1))

theorem execZEdge_completes (now : Nat) (p : Fin 4) (s : State) : Completes s (execZEdge now p s) := by
  unfold execZEdge
  extract_lets s1 _
  have hs1 : Keeps s s1 := State.advance_keeps ..
  exact Completes.ite _ (Completes.next ((State.setPort_keeps ..).after hs1)) (Completes.next hs1)

theorem execLineEdge_completes (now : Nat) (e : PortEdge) (s : State) : Completes s (execLineEdge now e s) := by
  unfold execLineEdge
  extract_lets s1
  have hs1 : Keeps s s1 := State.advance_keeps ..
  split
  · exact Completes.next (Keeps.ite _ ((State.counted_keeps ..).after hs1) ((State.setPort_keeps ..).after hs1))
  · exact Completes.next hs1

theorem State.cycle_keeps (s : State) (p : Nat) (y : Port) : Keeps s (s.cycle p y) := by
  unfold State.cycle
  extract_lets _ _
  split
  · refine Keeps.ite _ ?_ ?_
    · exact (State.addHold_keeps ..).after (State.setPort_keeps ..)
    · exact (State.counted_keeps ..).after ((State.burn_keeps ..).after ((State.setF_keeps ..).after (State.setF_keeps ..)))
  · exact (State.counted_keeps ..).after (State.setF_keeps ..)

theorem execCycleEdge_completes (now : Nat) (e : PortEdge) (s : State) : Completes s (execCycleEdge now e s) := by
  unfold execCycleEdge
  extract_lets s1
  have hs1 : Keeps s s1 := State.advance_keeps ..
  split
  · exact Completes.next (Keeps.ite _ ((State.cycle_keeps ..).after hs1) ((State.setPort_keeps ..).after hs1))
  · exact Completes.next hs1

theorem execCycleLoss_completes (now : Nat) (p : Fin 4) (s : State) : Completes s (execCycleLoss now p s) := by
  unfold execCycleLoss
  extract_lets s1 _
  have hs1 : Keeps s s1 := State.advance_keeps ..
  exact Completes.ite _ (Completes.next ((State.setF_keeps ..).after hs1)) (Completes.next hs1)

theorem State.releaseEpw_keeps (s : State) (c : Nat) : Keeps s (s.releaseEpw c) := by
  unfold State.releaseEpw
  extract_lets _
  refine Keeps.foldl _ (fun t x => ?_) _ _
  split
  · exact Keeps.ite _ (State.resume_keeps ..) (Keeps.refl _)
  · exact Keeps.refl _

theorem State.applyArmed_keeps (s : State) (c : Nat) : Keeps s (s.applyArmed c) := by
  unfold State.applyArmed
  extract_lets _ _
  refine Keeps.foldl _ (fun t x => ?_) _ _
  extract_lets _ _
  refine Keeps.ite _ ?_ ?_
  · exact Keeps.refl _
  · exact Keeps.after (Keeps.foldl _ (fun _ _ => State.grant_keeps ..) _ _) (State.setThread_keeps ..)

theorem State.trgFire_keeps (s : State) (m : Nat) : Keeps s (s.trgFire m) := by
  unfold State.trgFire
  extract_lets _ _ s1 _ s2 _ _
  have hs1 : Keeps s s1 := (State.addHold_keeps ..).after (Keeps.of_eq rfl rfl rfl)
  have hs2 : Keeps s s2 := by
    unfold s2
    refine Keeps.ite _ ?_ ?_
    · exact (State.setF_keeps ..).after hs1
    · exact (State.setF_keeps ..).after ((State.setF_keeps ..).after hs1)
  refine Keeps.ite _ ?_ ?_
  · exact (State.setCtx_keeps ..).after hs2
  · exact Keeps.ite _ ((State.setF_keeps ..).after hs2) ((State.grant_keeps ..).after hs2)

theorem State.fireTriggers_keeps (s : State) (src : Nat) : Keeps s (s.fireTriggers src) :=
  Keeps.foldl _ (fun _ _ => Keeps.ite _ (State.trgFire_keeps ..) (Keeps.refl _)) _ _

theorem State.disarmTarget_keeps (s : State) (ctx : Bool) (t : Nat) : Keeps s (s.disarmTarget ctx t) := by
  unfold State.disarmTarget
  refine Keeps.foldl _ (fun t x => ?_) _ _
  extract_lets _
  exact Keeps.ite _ (State.setF_keeps ..) (Keeps.refl _)

theorem State.dropArmed_keeps (s : State) (c : Nat) : Keeps s (s.dropArmed c) := by
  unfold State.dropArmed
  refine Keeps.foldl _ (fun t x => ?_) _ _
  extract_lets _
  exact Keeps.ite _ (State.setThread_keeps ..) (Keeps.refl _)

theorem State.failEpw_keeps (s : State) (c : Nat) : Keeps s (s.failEpw c) := by
  unfold State.failEpw
  refine Keeps.foldl _ (fun t x => ?_) _ _
  split
  · exact Keeps.ite _ (State.resume_keeps ..) (Keeps.refl _)
  · exact Keeps.refl _

theorem State.countdown_keeps (s : State) (c : Nat) (f : Nat → Nat) : Keeps s (s.countdown c f) := by
  unfold State.countdown
  extract_lets _ _
  exact (State.setCtx_keeps ..).after (Keeps.of_eq rfl rfl rfl)

theorem State.closeCtx_keeps (s : State) (c : Nat) : Keeps s (s.closeCtx c) := by
  unfold State.closeCtx
  extract_lets s1 _ _
  have hs1 : Keeps s s1 := State.countdown_keeps ..
  refine Keeps.ite _ ?_ ?_
  · exact (State.disarmTarget_keeps ..).after ((State.dropArmed_keeps ..).after ((State.failEpw_keeps ..).after
      ((State.setCtx_keeps ..).after hs1)))
  · exact hs1

theorem State.cutBoundary_keeps (s : State) (c : Nat) : Keeps s (s.cutBoundary c) := by
  unfold State.cutBoundary
  extract_lets _ _
  refine Keeps.ite _ ?_ ?_
  · exact (State.reclaimDone_keeps ..).after ((State.closeCtx_keeps ..).after (State.setFn_keeps ..))
  · exact Keeps.refl _

theorem State.fireBoundary_keeps (s : State) (c v : Nat) : Keeps s (s.fireBoundary c v) := by
  unfold State.fireBoundary
  extract_lets _ s1
  have hs1 : Keeps s s1 := State.setCtx_keeps ..
  exact (State.cutBoundary_keeps ..).after ((State.countdown_keeps ..).after ((State.fireTriggers_keeps ..).after
      ((State.changeAll_keeps ..).after ((State.applyArmed_keeps ..).after ((State.releaseEpw_keeps ..).after hs1)))))

theorem State.fireMissed_keeps (s : State) (c : Nat) (early : Bool) : Keeps s (s.fireMissed c early) := by
  unfold State.fireMissed
  extract_lets _ _ t _
  have ht : Keeps s t := (State.fireBoundary_keeps ..).after (State.addHold_keeps ..)
  exact Keeps.ite _ ht ((State.setCtx_keeps ..).after ht)

theorem State.fireDue_keeps (s : State) (c : Nat) : Keeps s (s.fireDue c) := by
  unfold State.fireDue
  refine Keeps.ite _ (Keeps.ite _ (State.fireBoundary_keeps ..) (Keeps.refl _)) ?_
  split
  · exact State.fireMissed_keeps ..
  · exact Keeps.refl _

theorem State.fireUpTo_keeps (s : State) (c : Nat) : Keeps s (s.fireUpTo c) :=
  Keeps.foldl _ (fun _ _ => State.fireDue_keeps ..) _ _

theorem execEpochBoundary_completes (now : Nat) (ctx : Ctx) (s : State) : Completes s (execEpochBoundary now ctx s) := by
  unfold execEpochBoundary
  extract_lets s1 _
  have hs1 : Keeps s s1 := State.advance_keeps ..
  refine Completes.ite _ ?_ (Completes.next hs1)
  refine Completes.ite _ ?_ ?_
  · exact Completes.next ((State.fireUpTo_keeps ..).after hs1)
  · exact Completes.next ((State.setCtx_keeps ..).after hs1)

theorem execSyncWindowEnd_completes (now : Nat) (ctx : Ctx) (s : State) : Completes s (execSyncWindowEnd now ctx s) := by
  unfold execSyncWindowEnd
  extract_lets s1
  have hs1 : Keeps s s1 := State.advance_keeps ..
  exact Completes.ite _ (Completes.next ((State.fireUpTo_keeps ..).after hs1)) (Completes.next hs1)

theorem State.syncJudge_keeps (s : State) (c : Nat) : Keeps s (s.syncJudge c) := by
  unfold State.syncJudge
  extract_lets _ _ _ s1
  have hs1 : Keeps s s1 := Keeps.ite _ (State.fireDue_keeps ..) (Keeps.refl _)
  refine Keeps.ite _ ?_ ?_
  · exact (State.setCtx_keeps ..).after (State.setF_keeps ..)
  · exact Keeps.ite _ ((State.fireBoundary_keeps ..).after hs1) ((State.addHold_keeps ..).after hs1)

theorem execSyncEdge_completes (now : Nat) (e : SyncInEdge) (s : State) : Completes s (execSyncEdge now e s) := by
  unfold execSyncEdge
  extract_lets s1 _ _ _ _ t
  have hs1 : Keeps s s1 := State.advance_keeps ..
  have ht : Keeps s t := hs1.trans (Keeps.of_eq rfl rfl rfl)
  refine Completes.ite _ ?_ (Completes.next hs1)
  refine Completes.ite _ ?_ ?_
  · exact Completes.next (Keeps.after (Keeps.foldl _ (fun _ _ => Keeps.ite _ (State.syncJudge_keeps ..)
      (Keeps.refl _)) _ _) ((State.addWrap_keeps ..).after ht))
  · exact Completes.next ht

theorem execPosPortConfig_completes (now : Nat) (p : Fin 4) (v : Word) (s : State) :
    Completes s (execPosPortConfig now p v s) := by
  unfold execPosPortConfig
  extract_lets s1 _ _ s2 s3 s4 _
  have hs1 : Keeps s s1 := State.advance_keeps ..
  have hs2 : Keeps s s2 := (State.setB_keeps ..).after ((State.setF_keeps ..).after ((State.setB_keeps ..).after hs1))
  have hs3 : Keeps s s3 := (State.setF_keeps ..).after ((State.setB_keeps ..).after hs2)
  have hs4 : Keeps s s4 := (State.setF_keeps ..).after ((State.setF_keeps ..).after hs3)
  refine Completes.ite _ ?_ ?_
  · exact Completes.next hs1
  · exact Completes.ite _ (Completes.next ((State.setPort_keeps ..).after hs4)) (Completes.next hs3)

theorem execPosSyncConfig_completes (now : Nat) (v : Word) (s : State) : Completes s (execPosSyncConfig now v s) := by
  unfold execPosSyncConfig
  extract_lets s1 _ _ t t1
  have hs1 : Keeps s s1 := State.advance_keeps ..
  have ht : Keeps s t := by
    unfold t
    refine Keeps.ite _ ?_ ?_
    · exact hs1
    · exact (State.setF_keeps ..).after ((State.setB_keeps ..).after ((State.setB_keeps ..).after hs1))
  have ht1 : Keeps s t1 := by
    unfold t1
    refine Keeps.ite _ ?_ ?_
    · exact ht
    · exact (State.setF_keeps ..).after ((State.setB_keeps ..).after ((State.setB_keeps ..).after ht))
  exact Completes.next ht1

theorem State.trgFields_keeps (s : State) (m w : Nat) : Keeps s (s.trgFields m w) := by
  unfold State.trgFields
  extract_lets s1
  have hs1 : Keeps s s1 := (State.setB_keeps ..).after (State.setB_keeps ..)
  exact (State.setF_keeps ..).after ((State.setF_keeps ..).after ((State.setF_keeps ..).after hs1))

/-- A write that claims a trigger writes its owner at most. -/
theorem State.trgClaim_keeps {s t : State} {fn m : Nat} (h : s.trgClaim fn m = some t) : Keeps s t := by
  unfold State.trgClaim at h
  dsimp only at h
  split at h
  · cases h
    exact State.setF_keeps ..
  · split at h
    · cases h
      exact Keeps.refl s
    · cases h

theorem State.trgArm_keeps (s : State) (fn m w : Nat) : Keeps s (s.trgArm fn m w) := by
  unfold State.trgArm
  split
  next => exact State.denied_keeps ..
  next t ht =>
    have h := State.trgClaim_keeps ht
    exact Keeps.ite _ ((State.denied_keeps ..).after ((State.setF_keeps ..).after h))
      (Keeps.ite _ h ((State.setF_keeps ..).after ((State.setF_keeps ..).after ((State.trgFields_keeps ..).after h))))

theorem execTriggerArm_completes (now : Nat) (fn : Func) (m : Fin 64) (v : Word) (s : State) :
    Completes s (execTriggerArm now fn m v s) :=
  Completes.next (Keeps.after (State.hosted_keeps_all _ _ _ (fun _ => State.trgArm_keeps ..)) (State.advance_keeps ..))

theorem State.trgDisarm_keeps (s : State) (fn m w : Nat) : Keeps s (s.trgDisarm fn m w) := by
  unfold State.trgDisarm
  split
  next => exact State.denied_keeps ..
  next t ht => exact (State.setF_keeps ..).after ((State.trgFields_keeps ..).after (State.trgClaim_keeps ht))

theorem execTriggerDisarm_completes (now : Nat) (fn : Func) (m : Fin 64) (v : Word) (s : State) :
    Completes s (execTriggerDisarm now fn m v s) :=
  Completes.next (Keeps.after (State.hosted_keeps_all _ _ _ (fun _ => State.trgDisarm_keeps ..)) (State.advance_keeps ..))

theorem State.trgFree_keeps (s : State) (m : Nat) : Keeps s (s.trgFree m) :=
  (State.setF_keeps ..).after (State.setF_keeps ..)

theorem State.trgRelease_keeps (s : State) (fn m : Nat) : Keeps s (s.trgRelease fn m) := by
  unfold State.trgRelease
  extract_lets _
  exact Keeps.ite _ (State.trgFree_keeps ..) (State.denied_keeps ..)

theorem execTriggerFree_completes (now : Nat) (fn : Func) (m : Fin 64) (s : State) : Completes s (execTriggerFree now fn m s) :=
  Completes.next (Keeps.after (State.hosted_keeps_all _ _ _ (fun _ => State.trgRelease_keeps ..)) (State.advance_keeps ..))

theorem State.trgValue_keeps (s : State) (fn m : Nat) (which : TrgWord) (w : Nat) : Keeps s (s.trgValue fn m which w) := by
  unfold State.trgValue
  split
  next => exact State.denied_keeps ..
  next t ht =>
    have h := State.trgClaim_keeps ht
    refine Keeps.ite _ h ?_
    cases which <;> exact (State.setF_keeps ..).after h

theorem execTriggerValueWrite_completes (now : Nat) (fn : Func) (m : Fin 64) (which : TrgWord) (v : Word) (s : State) :
    Completes s (execTriggerValueWrite now fn m which v s) :=
  Completes.next (Keeps.after (State.hosted_keeps_all _ _ _ (fun _ => State.trgValue_keeps ..)) (State.advance_keeps ..))

theorem execTriggerFire_completes (now : Nat) (m : Fin 64) (s : State) : Completes s (execTriggerFire now m s) := by
  unfold execTriggerFire
  extract_lets s1
  have hs1 : Keeps s s1 := State.advance_keeps ..
  exact Completes.ite _ (Completes.next ((State.trgFire_keeps ..).after hs1)) (Completes.next hs1)

theorem State.holdWrite_keeps (s : State) (fn c : Nat) (hold : Bool) : Keeps s (s.holdWrite fn c hold) := by
  unfold State.holdWrite
  extract_lets _
  exact Keeps.ite _ (State.denied_keeps ..) (Keeps.ite _ (State.setCtx_keeps ..) (Keeps.refl _))

theorem execHoldWrite_completes (now : Nat) (fn : Func) (ctx : Ctx) (hold : Bool) (s : State) :
    Completes s (execHoldWrite now fn ctx hold s) :=
  Completes.next (Keeps.after (State.hosted_keeps_all _ _ _ (fun _ => State.holdWrite_keeps ..)) (State.advance_keeps ..))

theorem State.freeTriggers_keeps (s : State) (fn : Nat) : Keeps s (s.freeTriggers fn) :=
  Keeps.foldl _ (fun _ _ => Keeps.ite _ (State.trgFree_keeps ..) (Keeps.refl _)) _ _

/-! ### The operations of Machine/Gate.lean -/

theorem State.takeAccepted_keeps (s : State) (fn : Nat) (e : List Word) : Keeps s (s.takeAccepted fn e) := by
  unfold State.takeAccepted
  extract_lets _
  exact (State.setFn_keeps ..).after (Keeps.of_eq rfl rfl rfl)

theorem State.command_keeps (s : State) (fn op : Nat) (e : List Word) (f : State → State) (hf : ∀ (t : State), Keeps t (f t)) :
    Keeps s (s.command fn op e f) :=
  Keeps.ite _ ((hf ..).after (State.takeAccepted_keeps ..)) (Keeps.refl _)

theorem State.answer_keeps (s : State) (fn : Nat) (e : List Word) (code value : Nat) : Keeps s (s.answer fn e code value) :=
  State.complete_keeps ..

theorem State.openCtx_keeps (s : State) (fn c : Nat) (p : OpenParams) : Keeps s (s.openCtx fn c p) := by
  unfold State.openCtx
  extract_lets _ _ _ _ _ _ _ s1 s2
  have hs1 : Keeps s s1 := (State.setCtx_keeps ..).after (Keeps.of_eq rfl rfl rfl)
  have hs2 : Keeps s s2 := (State.setF_keeps ..).after ((State.setF_keeps ..).after ((State.setF_keeps ..).after hs1))
  exact (State.setF_keeps ..).after hs2

theorem State.openCommand_keeps (s : State) (fn : Nat) (e : List Word) : Keeps s (s.openCommand fn e) := by
  unfold State.openCommand
  extract_lets _
  split
  · exact (State.answer_keeps ..).after (State.openCtx_keeps ..)
  · exact State.answer_keeps ..

theorem execOpenContext_completes (now : Nat) (fn : Func) (entry : List Word) (s : State) :
    Completes s (execOpenContext now fn entry s) :=
  Completes.next (Keeps.after (State.command_keeps _ _ _ _ _ (fun _ => State.openCommand_keeps ..)) (State.advance_keeps ..))

theorem State.closeCommand_keeps (s : State) (fn : Nat) (e : List Word) : Keeps s (s.closeCommand fn e) := by
  unfold State.closeCommand
  extract_lets _ _ _ s1
  have hs1 : Keeps s s1 := Keeps.ite _ (State.setCtx_keeps ..) (Keeps.refl _)
  refine Keeps.ite _ (State.answer_keeps ..) ?_
  refine Keeps.ite _ ?_ ?_
  · exact State.answer_keeps ..
  · exact (State.answer_keeps ..).after ((State.reclaimFit_keeps ..).after ((State.closeCtx_keeps ..).after hs1))

theorem execCloseContext_completes (now : Nat) (fn : Func) (entry : List Word) (s : State) :
    Completes s (execCloseContext now fn entry s) :=
  Completes.next (Keeps.after (State.command_keeps _ _ _ _ _ (fun _ => State.closeCommand_keeps ..)) (State.advance_keeps ..))

theorem execContextClosed_completes (now : Nat) (ctx : Ctx) (s : State) : Completes s (execContextClosed now ctx s) := by
  unfold execContextClosed
  extract_lets s1 _ t
  have hs1 : Keeps s s1 := State.advance_keeps ..
  have ht : Keeps s t := (State.setCtx_keeps ..).after hs1
  refine Completes.ite _ ?_ ?_
  · exact Completes.next (Keeps.ite _ ((State.reclaimDone_keeps ..).after ht) ((State.reclaimFit_keeps ..).after ht))
  · exact Completes.next hs1

theorem State.postResult_keeps (s : State) (fn c r : Nat) : Keeps s (s.postResult fn c r) := by
  unfold State.postResult
  extract_lets _
  exact State.setF_keeps ..

theorem State.post_keeps (s : State) (fn c : Nat) : Keeps s (s.post fn c) := by
  unfold State.post
  extract_lets _ _ s1
  have hs1 : Keeps s s1 := State.addHold_keeps ..
  refine Keeps.ite _ (State.denied_keeps ..) ?_
  refine Keeps.ite _ (State.postResult_keeps ..) ?_
  refine Keeps.ite _ ((State.addHold_keeps ..).after (State.postResult_keeps ..)) ?_
  refine Keeps.ite _ ((State.postResult_keeps ..).after (State.setCtx_keeps ..)) ?_
  refine Keeps.ite _ ?_ ?_
  · exact (State.postResult_keeps ..).after ((State.setCtx_keeps ..).after hs1)
  · exact (State.postResult_keeps ..).after hs1

theorem execPost_completes (now : Nat) (fn : Func) (ctx : Ctx) (s : State) : Completes s (execPost now fn ctx s) :=
  Completes.next (Keeps.after (State.hosted_keeps_all _ _ _ (fun _ => State.post_keeps ..)) (State.advance_keeps ..))

theorem State.lapse_keeps (s : State) (c : Nat) : Keeps s (s.lapse c) := by
  unfold State.lapse
  refine Keeps.foldl _ (fun t x => ?_) _ _
  extract_lets _
  exact Keeps.ite _ (Keeps.of_eq rfl rfl rfl) (Keeps.refl _)

/-- The offer that the gate takes is noted, and contexts whose jobs ran out lapse. -/
theorem State.takeOffer_keeps {s t : State} {c : Nat} (h : s.takeOffer = some (c, t)) : Keeps s t := by
  unfold State.takeOffer at h
  extract_lets u at h
  have hu : Keeps s u := Keeps.ite _ (Keeps.refl s) (Keeps.of_eq rfl rfl rfl)
  clear_value u
  obtain ⟨d, _, hd⟩ := Option.map_eq_some_iff.mp h
  obtain ⟨-, rfl⟩ := Prod.mk.inj hd
  exact (State.lapse_keeps ..).after (hu.trans (Keeps.of_eq rfl rfl rfl))

theorem execIngestJobStart_completes (now : Nat) (eng : Fin 8) (frame : List Byte) (bad : List Nat) (s : State) :
    Completes s (execIngestJobStart now eng frame bad s) := by
  unfold execIngestJobStart
  extract_lets u
  have hu : Keeps s u := State.advance_keeps ..
  clear_value u
  refine Completes.ite _ (Completes.next hu) ?_
  split
  next c t ht =>
    have h : Keeps s t := (State.takeOffer_keeps ht).after hu
    extract_lets x
    split
    · extract_lets j v
      have hv : Keeps s v := h.trans (Keeps.of_eq rfl rfl rfl)
      exact Completes.next ((State.emit_keeps ..).after ((State.enterTile_keeps ..).after ((State.setCtx_keeps ..).after hv)))
    · exact Completes.next h
  next => exact Completes.next hu

theorem State.ingestWrite_keeps (s : State) (j : Ingest) (t : IngestTile) (h : SlotRef) : Keeps s (s.ingestWrite j t h) := by
  unfold State.ingestWrite
  extract_lets _ _ _ _ _ _ s1 w _ s2 s3 s4 s5
  have hs1 : Keeps s s1 := (State.stepWr_keeps ..).after (State.setSlot_keeps ..)
  have hw : Keeps s w.1 := (State.writeMem_keeps ..).after hs1
  have hs2 : Keeps s s2 := (State.writeMem_keeps ..).after hw
  have hs3 : Keeps s s3 := (State.setCtx_keeps ..).after hs2
  have hs4 : Keeps s s4 := (State.count_keeps ..).after ((State.count_keeps ..).after hs3)
  have hs5 : Keeps s s5 := Keeps.after (Keeps.foldl _ (fun _ _ => State.owlTake_keeps ..) _ _) hs4
  exact (State.fillSlot_keeps ..).after ((State.pointsTake_keeps ..).after hs5)

theorem State.ingestFlush_keeps (s : State) (j : Ingest) (h : SlotRef) (ts : List IngestTile) : Keeps s
    (s.ingestFlush j h ts).1 := by
  induction ts generalizing s with
  | nil => exact Keeps.refl s
  | cons t ts ih =>
    unfold State.ingestFlush
    dsimp only
    split
    · exact Keeps.refl s
    · split
      · exact (ih _).after (State.ingestWrite_keeps ..)
      · exact State.foreignCapture_keeps ..

theorem State.gateRest_keeps (s : State) (st : Nat) (ended : Bool) : Keeps s (s.gateRest st ended) := by
  unfold State.gateRest
  extract_lets _
  exact Keeps.ite _ (Keeps.refl _) (State.leaveTile_keeps ..)

theorem execIngestJobDone_completes (now : Nat) (eng : Fin 8) (s : State) : Completes s (execIngestJobDone now eng s) := by
  unfold execIngestJobDone
  extract_lets s1
  have hs1 : Keeps s s1 := State.advance_keeps ..
  split
  · extract_lets _
    split
    · extract_lets w src _
      have hw : Keeps s w.1 := (State.ingestFlush_keeps ..).after ((State.enterTile_keeps ..).after hs1)
      have hsrc : Keeps s src := hw
      refine Completes.ite _ (Completes.next hs1) ?_
      refine Completes.ite _ (Completes.next ((State.gateRest_keeps ..).after hs1)) ?_
      refine Completes.ite _ ?_ ?_
      · exact Completes.next ((State.gateRest_keeps ..).after ((State.setCtx_keeps ..).after (hsrc.trans
          (Keeps.of_eq rfl rfl rfl))))
      · exact Completes.next (hsrc.trans (Keeps.of_eq rfl rfl rfl))
    · exact Completes.next hs1
  · exact Completes.next hs1

theorem execEccScrubWrite_completes (now : Nat) (word : BitVec 24) (s : State) : Completes s
    (execEccScrubWrite now word s) := by
  unfold execEccScrubWrite
  extract_lets s1 _ t
  have hs1 : Keeps s s1 := State.advance_keeps ..
  have ht : Keeps s t := hs1.trans (Keeps.of_eq rfl rfl rfl)
  refine Completes.ite _ ?_ ?_
  · exact Completes.next (Keeps.ite _ ((State.mark_keeps ..).after ht) ht)
  · exact Completes.next hs1

theorem execEccCaptureClear_completes (now : Nat) (cl : Cluster) (core : Option Core) (s : State) :
    Completes s (execEccCaptureClear now cl core s) := by
  unfold execEccCaptureClear
  extract_lets s1
  have hs1 : Keeps s s1 := State.advance_keeps ..
  split
  · extract_lets _
    exact Completes.next (Keeps.onReg hs1 ((State.setF_keeps ..).after hs1))
  · exact Completes.next (Keeps.onReg hs1 ((State.setF_keeps ..).after hs1))

/-! ### The operations of Machine/Link.lean -/

theorem State.sentTiles_keeps (s : State) (p : Nat) : Keeps s (s.sentTiles p) := by
  unfold State.sentTiles
  extract_lets _ _ _ s1 s2
  have hs1 : Keeps s s1 := Keeps.foldl _ (fun _ _ => State.emptySlot_keeps ..) _ _
  have hs2 : Keeps s s2 := (State.setLink_keeps ..).after hs1
  exact Keeps.after (Keeps.foldl _ (fun _ _ => Keeps.ite _ (Keeps.refl _) (State.leaveTile_keeps ..)) _ _) hs2

theorem State.acked_keeps (s : State) (p a : Nat) : Keeps s (s.acked p a) := by
  unfold State.acked
  extract_lets _ _ _ _
  refine Keeps.ite _ ?_ ?_
  · exact (State.sendHeld_keeps ..).after ((State.sentTiles_keeps ..).after (State.setLink_keeps ..))
  · exact Keeps.refl _

theorem State.resend_keeps (s : State) (p : Nat) (f : SentFlit) : Keeps s (s.resend p f) :=
  State.emit_keeps ..

theorem State.unsend_keeps (s : State) (p : Nat) : Keeps s (s.unsend p) := by
  unfold State.unsend
  extract_lets _ s1
  have hs1 : Keeps s s1 := Keeps.foldl _ (fun _ _ => (State.leaveTile_keeps ..).after ((State.setRing_keeps ..).after
      (State.setSlot_keeps ..))) _ _
  exact (State.setLink_keeps ..).after hs1

theorem State.tearOpen_keeps (s : State) (p : Nat) : Keeps s (s.tearOpen p) := by
  unfold State.tearOpen
  extract_lets _ s1 _
  have hs1 : Keeps s s1 := by
    unfold s1
    refine Keeps.foldl _ (fun t x => ?_) _ _
    split
    · exact (State.leaveTile_keeps ..).after (State.tear_keeps ..)
    · exact Keeps.refl _
  exact (State.setLink_keeps ..).after hs1

theorem State.staleOfs_keeps (s : State) (p : Nat) : Keeps s (s.staleOfs p) := by
  unfold State.staleOfs
  extract_lets _
  exact State.setF_keeps ..

theorem State.portLoses_keeps (s : State) (p : Nat) : Keeps s (s.portLoses p) := by
  unfold State.portLoses
  extract_lets s1 _ _ s2 s3 s4
  have hs1 : Keeps s s1 := (State.tearOpen_keeps ..).after (State.unsend_keeps ..)
  have hs2 : Keeps s s2 := (State.setLink_keeps ..).after hs1
  have hs3 : Keeps s s3 := Keeps.after (Keeps.foldl _ (fun _ _ => Keeps.ite _ (State.endInstance_keeps ..)
      (Keeps.refl _)) _ _) hs2
  have hs4 : Keeps s s4 := Keeps.after (Keeps.foldl _ (fun _ _ => Keeps.ite _ (State.mbxEmpty_keeps ..) (Keeps.refl _)) _ _) hs3
  exact (State.staleOfs_keeps ..).after hs4

theorem State.portDown_keeps (s : State) (p next : Nat) : Keeps s (s.portDown p next) := by
  unfold State.portDown
  extract_lets _ s1 _
  have hs1 : Keeps s s1 := (State.addHold_keeps ..).after (State.portLoses_keeps ..)
  refine Keeps.ite _ ?_ ?_
  · exact (State.raise_keeps ..).after ((State.setF_keeps ..).after ((State.setF_keeps ..).after hs1))
  · exact Keeps.ite _ ((State.setLink_keeps ..).after (State.setF_keeps ..)) (Keeps.refl _)

theorem State.replay_keeps (s : State) (p : Nat) (keep : SentFlit → Bool) : Keeps s (s.replay p keep) := by
  unfold State.replay
  extract_lets _ _ s1
  have hs1 : Keeps s s1 := (State.addHold_keeps ..).after (State.setLink_keeps ..)
  refine Keeps.ite _ (Keeps.refl _) ?_
  refine Keeps.ite _ ?_ ?_
  · exact (State.portDown_keeps ..).after hs1
  · exact Keeps.after (Keeps.foldl _ (fun _ _ => State.resend_keeps ..) _ _) hs1

theorem State.sendNak_keeps (s : State) (p : Nat) : Keeps s (s.sendNak p) :=
  State.sendFrame_keeps ..

theorem State.giveCredit_keeps (s : State) (p : Nat) (h : SlotRef) : Keeps s (s.giveCredit p h) := by
  unfold State.giveCredit
  extract_lets _ _ _ _
  exact Keeps.ite _ ((State.sendFrame_keeps ..).after (State.setLink_keeps ..)) (Keeps.refl _)

theorem State.giveCredits_keeps (s : State) (p : Nat) : Keeps s (s.giveCredits p) := by
  unfold State.giveCredits
  refine Keeps.ite _ ?_ ?_
  · exact Keeps.foldl _ (fun _ _ => Keeps.foldl _ (fun _ _ => Keeps.ite _ (State.giveCredit_keeps ..) (Keeps.refl _)) _ _) _ _
  · exact Keeps.refl _

theorem State.rxFlit_keeps (s : State) (p : Nat) (f : Flit) (body : State → State) (hbody : ∀ (t : State), Keeps t (body t)) :
    Keeps s (s.rxFlit p f body) := by
  unfold State.rxFlit
  extract_lets _ s1
  have hs1 : Keeps s s1 := State.setLink_keeps ..
  refine Keeps.ite _ (Keeps.refl _) ?_
  refine Keeps.ite _ ?_ ?_
  · exact State.sendNak_keeps ..
  · exact (State.giveCredits_keeps ..).after ((hbody ..).after ((State.acked_keeps ..).after hs1))

theorem State.onHop_keeps (s : State) (p : Nat) (f : Flit) (t : State) (ht : Keeps s t) : Keeps s (s.onHop p f t) :=
  Keeps.ite _ (Keeps.refl _) (Keeps.ite _ ht (State.addHold_keeps ..))

theorem execLinkLock_completes (now : Nat) (s : State) : Completes s (execLinkLock now s) := by
  unfold execLinkLock
  extract_lets s1
  have hs1 : Keeps s s1 := State.advance_keeps ..
  exact Completes.next (Keeps.onReg hs1 ((State.setF_keeps ..).after hs1))

theorem execLinkPortEnable_completes (now : Nat) (p : Fin 4) (s : State) : Completes s (execLinkPortEnable now p s) := by
  unfold execLinkPortEnable
  extract_lets s1
  have hs1 : Keeps s s1 := State.advance_keeps ..
  refine Completes.next ?_
  refine Keeps.onReg hs1 ?_
  refine Keeps.ite _ ?_ ?_
  · exact (State.setF_keeps ..).after ((State.setF_keeps ..).after ((State.setF_keeps ..).after hs1))
  · exact hs1

theorem execLinkTrainingDone_completes (now : Nat) (p : Fin 4) (lanes : BitVec 8) (s : State) :
    Completes s (execLinkTrainingDone now p lanes s) := by
  unfold execLinkTrainingDone
  extract_lets s1 _ s2
  have hs1 : Keeps s s1 := State.advance_keeps ..
  have hs2 : Keeps s s2 := (State.setF_keeps ..).after ((State.setF_keeps ..).after hs1)
  refine Completes.ite _ ?_ ?_
  · exact Completes.ite _ (Completes.next hs1) (Completes.next ((State.sendFrame_keeps ..).after hs2))
  · exact Completes.next hs1

theorem State.mergeDomain_keeps (s : State) (p : Nat) (es : List (Nat × List Byte)) : Keeps s (s.mergeDomain p es) := by
  unfold State.mergeDomain
  refine Keeps.foldl _ (fun t x => ?_) _ _
  exact Keeps.ite _ (Keeps.refl _) (Keeps.of_eq rfl rfl rfl)

theorem State.takeId_keeps (t : State) (p : Nat) (f : Flit) : Keeps t (t.takeId p f) := by
  unfold State.takeId
  extract_lets _ t1 _
  have ht1 : Keeps t t1 := (State.setF_keeps ..).after (State.mergeDomain_keeps ..)
  refine Keeps.ite _ (Keeps.refl _) ?_
  split
  · exact (State.setF_keeps ..).after (State.setF_keeps ..)
  · exact (State.sendFrame_keeps ..).after ((State.setLink_keeps ..).after ((State.setF_keeps ..).after ht1))

theorem execIdFrame_completes (now : Nat) (p : Fin 4) (f : Flit) (s : State) : Completes s (execIdFrame now p f s) :=
  Completes.next (Keeps.after (State.rxFlit_keeps _ _ _ _ (fun _ => State.takeId_keeps ..)) (State.advance_keeps ..))

theorem State.setOffset_keeps (s : State) (p : Nat) (xs : List (Int × Int)) (drift : Bool) :
    Keeps s (s.setOffset p xs drift) := by
  unfold State.setOffset
  extract_lets _ _ _ src
  have hsrc : Keeps s src := State.burn_keeps ..
  split
  · extract_lets _ s1 s2
    have hs1 : Keeps s s1 := hsrc.trans (Keeps.of_eq rfl rfl rfl)
    have hs2 : Keeps s s2 := (State.setLink_keeps ..).after hs1
    exact (State.setF_keeps ..).after hs2
  · exact Keeps.refl _

theorem State.setDelay_keeps (s : State) (p : Nat) (d : Int) : Keeps s (s.setDelay p d) :=
  State.setF_keeps ..

theorem State.takeTime_keeps (t : State) (p : Nat) (f : Flit) : Keeps t (t.takeTime p f) := by
  unfold State.takeTime
  extract_lets _ _ t1 _ t2
  have ht1 : Keeps t t1 := State.setDelay_keeps ..
  have ht2 : Keeps t t2 := (State.setLink_keeps ..).after ht1
  refine Keeps.ite _ (Keeps.refl _) ?_
  refine Keeps.ite _ (State.sendFrame_keeps ..) ?_
  refine Keeps.ite _ ?_ ?_
  · exact Keeps.ite _ ((State.sendFrame_keeps ..).after ht2) ht2
  · exact (State.setOffset_keeps ..).after ht1

theorem execTimeFrame_completes (now : Nat) (p : Fin 4) (f : Flit) (s : State) : Completes s (execTimeFrame now p f s) :=
  Completes.next (Keeps.after (State.rxFlit_keeps _ _ _ _ (fun _ => State.takeTime_keeps ..)) (State.advance_keeps ..))

theorem execTimeExchange_completes (now : Nat) (p : Fin 4) (stamps : List Stamps) (s : State) :
    Completes s (execTimeExchange now p stamps s) := by
  unfold execTimeExchange
  extract_lets s1 s2
  have hs1 : Keeps s s1 := State.advance_keeps ..
  have hs2 : Keeps s s2 := (State.setOffset_keeps ..).after hs1
  refine Completes.ite _ ?_ (Completes.next hs1)
  refine Completes.next ?_
  split
  · exact (State.setDelay_keeps ..).after hs2
  · exact hs2

theorem State.farOffsets_keeps (s : State) : Keeps s (s.farOffsets) := by
  unfold State.farOffsets
  refine Keeps.foldl _ (fun t x => ?_) _ _
  extract_lets _ src
  have hsrc : Keeps t src := State.burn_keeps ..
  split
  · exact Keeps.ite _ (Keeps.refl _) (hsrc.trans (Keeps.of_eq rfl rfl rfl))
  · exact Keeps.refl _

theorem execLinkUp_completes (now : Nat) (p : Fin 4) (s : State) : Completes s (execLinkUp now p s) := by
  unfold execLinkUp
  extract_lets s1 _ s2 _ s3
  have hs1 : Keeps s s1 := State.advance_keeps ..
  have hs2 : Keeps s s2 := (State.setF_keeps ..).after ((State.setOffset_keeps ..).after hs1)
  have hs3 : Keeps s s3 := (State.giveCredits_keeps ..).after ((State.farOffsets_keeps ..).after
      ((State.setLink_keeps ..).after hs2))
  exact Completes.ite _ (Completes.next ((State.deliverWakes_keeps ..).after hs3)) (Completes.next hs1)

theorem execLinkRetry_completes (now : Nat) (p : Fin 4) (s : State) : Completes s (execLinkRetry now p s) := by
  unfold execLinkRetry
  extract_lets s1
  have hs1 : Keeps s s1 := State.advance_keeps ..
  exact Completes.ite _ (Completes.next ((State.setF_keeps ..).after hs1)) (Completes.next hs1)

theorem execFlitCrcError_completes (now : Nat) (p : Fin 4) (crcFailed : Bool) (s : State) :
    Completes s (execFlitCrcError now p crcFailed s) := by
  unfold execFlitCrcError
  extract_lets s1
  have hs1 : Keeps s s1 := State.advance_keeps ..
  refine Completes.ite _ ?_ ?_
  · exact Completes.next ((State.sendNak_keeps ..).after (Keeps.ite _ ((State.addHold_keeps ..).after hs1) hs1))
  · exact Completes.next hs1

theorem execFlitReservedType_completes (now : Nat) (p : Fin 4) (ty : Byte) (f : Flit) (s : State) :
    Completes s (execFlitReservedType now p ty f s) := by
  unfold execFlitReservedType
  refine Completes.next ?_
  refine Keeps.ite _ ?_ ?_
  · exact State.advance_keeps ..
  · exact Keeps.after (State.rxFlit_keeps _ _ _ _ (fun _ => State.addHold_keeps ..)) (State.advance_keeps ..)

theorem execReplayTimeout_completes (now : Nat) (p : Fin 4) (s : State) : Completes s (execReplayTimeout now p s) := by
  unfold execReplayTimeout
  extract_lets s1
  have hs1 : Keeps s s1 := State.advance_keeps ..
  exact Completes.ite _ (Completes.next ((State.replay_keeps ..).after hs1)) (Completes.next hs1)

theorem execNak_completes (now : Nat) (p : Fin 4) (f : Flit) (s : State) : Completes s (execNak now p f s) :=
  Completes.next (Keeps.after (State.rxFlit_keeps _ _ _ _ (fun _ => State.replay_keeps ..)) (State.advance_keeps ..))

theorem execIdle_completes (now : Nat) (p : Fin 4) (f : Flit) (s : State) : Completes s (execIdle now p f s) :=
  Completes.next (Keeps.after (State.rxFlit_keeps _ _ _ _ (fun _ => Keeps.refl _)) (State.advance_keeps ..))

theorem State.takeTileHead_keeps (t : State) (p : Nat) (f : Flit) : Keeps t (t.takeTileHead p f) := by
  unfold State.takeTileHead
  extract_lets _ t1 _ _
  have ht1 : Keeps t t1 := by
    unfold t1
    split
    · exact (State.tear_keeps ..).after (State.setLink_keeps ..)
    · exact Keeps.refl _
  split
  · exact State.addHold_keeps ..
  · extract_lets _ _
    refine Keeps.ite _ ?_ ?_
    · exact (State.setLink_keeps ..).after ((State.enterTile_keeps ..).after ((State.stepWr_keeps ..).after
        ((State.setSlot_keeps ..).after ht1)))
    · exact (State.leaveTile_keeps ..).after ht1

theorem execTileHead_completes (now : Nat) (p : Fin 4) (f : Flit) (s : State) : Completes s (execTileHead now p f s) :=
  Completes.next (Keeps.after (State.rxFlit_keeps _ _ _ _ (fun _ => State.onHop_keeps _ _ _ _
      (State.takeTileHead_keeps ..))) (State.advance_keeps ..))

theorem State.rxTile_keeps (s : State) (p st src : Nat) (o : RxTile) : Keeps s (s.rxTile p st src o) := by
  unfold State.rxTile
  extract_lets _ _ _ _ _ _ _ _ w src1 s1 _ _ _ _ s2 s3 s4
  have hw : Keeps s w.1 := State.writeMem_keeps ..
  have hsrc1 : Keeps s src1 := hw
  have hs1 : Keeps s s1 := Keeps.ite _ (hsrc1.trans (Keeps.of_eq rfl rfl rfl)) hw
  have hs2 : Keeps s s2 := (State.writeMem_keeps ..).after hs1
  have hs3 : Keeps s s3 := (State.count_keeps ..).after ((State.count_keeps ..).after ((State.count_keeps ..).after hs2))
  have hs4 : Keeps s s4 := Keeps.ite _ hs3 (Keeps.after (Keeps.foldl _ (fun _ _ => State.owlTake_keeps ..) _ _) hs3)
  exact (State.leaveTile_keeps ..).after ((State.fillSlot_keeps ..).after ((State.pointsTake_keeps ..).after hs4))

theorem State.takeTileData_keeps (t : State) (p : Nat) (f : Flit) : Keeps t (t.takeTileData p f) := by
  unfold State.takeTileData
  extract_lets _
  split
  · exact State.addHold_keeps ..
  · split
    · exact Keeps.refl _
    · extract_lets _ _
      exact Keeps.ite _ (State.setLink_keeps ..) ((State.rxTile_keeps ..).after (State.setLink_keeps ..))

theorem execTileData_completes (now : Nat) (p : Fin 4) (f : Flit) (s : State) : Completes s (execTileData now p f s) :=
  Completes.next (Keeps.after (State.rxFlit_keeps _ _ _ _ (fun _ => State.onHop_keeps _ _ _ _
      (State.takeTileData_keeps ..))) (State.advance_keeps ..))

theorem State.takeTileAbort_keeps (t : State) (p : Nat) (f : Flit) : Keeps t (t.takeTileAbort p f) := by
  unfold State.takeTileAbort
  extract_lets _
  refine Keeps.ite _ (State.addHold_keeps ..) ?_
  split
  · exact (State.leaveTile_keeps ..).after ((State.tear_keeps ..).after (State.setLink_keeps ..))
  · exact Keeps.refl _

theorem execTileAbort_completes (now : Nat) (p : Fin 4) (f : Flit) (s : State) : Completes s (execTileAbort now p f s) :=
  Completes.next (Keeps.after (State.rxFlit_keeps _ _ _ _ (fun _ => State.onHop_keeps _ _ _ _
      (State.takeTileAbort_keeps ..))) (State.advance_keeps ..))

theorem State.takeCredit_keeps (t : State) (p : Nat) (f : Flit) : Keeps t (t.takeCredit p f) := by
  unfold State.takeCredit
  extract_lets _ _
  exact State.setLink_keeps ..

theorem execCredit_completes (now : Nat) (p : Fin 4) (f : Flit) (s : State) : Completes s (execCredit now p f s) :=
  Completes.next (Keeps.after (State.rxFlit_keeps _ _ _ _ (fun _ => State.onHop_keeps _ _ _ _
      (State.takeCredit_keeps ..))) (State.advance_keeps ..))

theorem State.sendTile_keeps (s : State) (p st : Nat) (h : SlotRef) : Keeps s (s.sendTile p st h) := by
  unfold State.sendTile
  extract_lets _ _ _ s1 _ s2 s3 s4 _
  have hs1 : Keeps s s1 := State.readEcc_keeps ..
  have hs2 : Keeps s s2 := (State.addHold_keeps ..).after ((State.enterTile_keeps ..).after
      ((State.stepRd_keeps ..).after ((State.setSlot_keeps ..).after hs1)))
  have hs3 : Keeps s s3 := (State.sendFrame_keeps ..).after hs2
  have hs4 : Keeps s s4 := Keeps.after (Keeps.foldl _ (fun _ _ => State.sendFrame_keeps ..) _ _) hs3
  exact (State.setLink_keeps ..).after hs4

theorem State.dropTorn_keeps (s : State) (st : Nat) (h : SlotRef) : Keeps s (s.dropTorn st h) := by
  unfold State.dropTorn
  extract_lets _
  exact (State.stepRd_keeps ..).after ((State.emptySlot_keeps ..).after (State.tornTaken_keeps ..))

theorem execLinkSendTile_completes (now : Nat) (p : Fin 4) (s : State) : Completes s (execLinkSendTile now p s) := by
  unfold execLinkSendTile
  extract_lets s1 _ _ _ _ s2 _ _ _
  have hs1 : Keeps s s1 := State.advance_keeps ..
  have hs2 : Keeps s s2 := Keeps.after (Keeps.foldl _ (fun _ _ => (State.raise_keeps ..).after
      (State.setLink_keeps ..)) _ _) hs1
  refine Completes.ite _ (Completes.next hs1) ?_
  split
  · exact Completes.next ((State.dropTorn_keeps ..).after hs2)
  · split
    · exact Completes.next ((State.sendTile_keeps ..).after ((State.setLink_keeps ..).after hs2))
    · exact Completes.next hs2

theorem State.relay_keeps (s : State) (p : Nat) (f : Flit) (type : Nat) (t : State) (ht : Keeps s t) :
    Keeps s (s.relay p f type t) :=
  Keeps.ite _ (Keeps.refl _) (Keeps.ite _ ht (State.sendTo_keeps ..))

theorem State.takeRound_keeps (s : State) (g inst k : Nat) : Keeps s (s.takeRound g inst k) := by
  unfold State.takeRound
  extract_lets _
  split
  · exact Keeps.ite _ (State.setGroup_keeps ..) (Keeps.ite _ (State.setGroup_keeps ..) (Keeps.refl _))
  · exact Keeps.ite _ (State.setGroup_keeps ..) (Keeps.refl _)

theorem State.groupMismatch_keeps (s : State) (g : Nat) : Keeps s (s.groupMismatch g) := by
  unfold State.groupMismatch
  extract_lets s1 _
  have hs1 : Keeps s s1 := State.endInstance_keeps ..
  exact (State.raise_keeps ..).after ((State.setGroup_keeps ..).after hs1)

theorem State.takeBarrier_keeps (t : State) (f : Flit) : Keeps t (t.takeBarrier f) := by
  unfold State.takeBarrier
  extract_lets _ _ _ _
  refine Keeps.ite _ (Keeps.refl _) ?_
  refine Keeps.ite _ ?_ ?_
  · exact State.groupMismatch_keeps ..
  · exact (State.sendRounds_keeps ..).after ((State.takeRound_keeps ..).after (State.setGroup_keeps ..))

theorem execBarrierFrame_completes (now : Nat) (p : Fin 4) (f : Flit) (s : State) : Completes s (execBarrierFrame now p f s) :=
  Completes.next (Keeps.after (State.rxFlit_keeps _ _ _ _ (fun _ => State.relay_keeps _ _ _ _ _
      (State.takeBarrier_keeps ..))) (State.advance_keeps ..))

theorem State.takeBcast_keeps (t : State) (f : Flit) : Keeps t (t.takeBcast f) := by
  unfold State.takeBcast
  extract_lets _ _ _ _ _ t1
  have ht1 : Keeps t t1 := by
    unfold t1
    split
    · exact Keeps.ite _ (State.setGroup_keeps ..) (Keeps.ite _ (State.setGroup_keeps ..) (Keeps.refl _))
    · exact Keeps.ite _ (State.setGroup_keeps ..) (Keeps.refl _)
  exact Keeps.ite _ (Keeps.refl _) ((State.sendBcast_keeps ..).after ht1)

theorem execBcastFrame_completes (now : Nat) (p : Fin 4) (f : Flit) (s : State) : Completes s (execBcastFrame now p f s) :=
  Completes.next (Keeps.after (State.rxFlit_keeps _ _ _ _ (fun _ => State.relay_keeps _ _ _ _ _
      (State.takeBcast_keeps ..))) (State.advance_keeps ..))

theorem State.takeMbxPost_keeps (t : State) (p : Nat) (f : Flit) : Keeps t (t.takeMbxPost p f) := by
  unfold State.takeMbxPost
  extract_lets _ _
  exact Keeps.ite _ (State.mbxAccept_keeps ..) (State.addHold_keeps ..)

theorem execMbxPostFrame_completes (now : Nat) (p : Fin 4) (f : Flit) (s : State) : Completes s (execMbxPostFrame now p f s) :=
  Completes.next (Keeps.after (State.rxFlit_keeps _ _ _ _ (fun _ => State.onHop_keeps _ _ _ _
      (State.takeMbxPost_keeps ..))) (State.advance_keeps ..))

theorem State.takeMbxAck_keeps (t : State) (p : Nat) (f : Flit) : Keeps t (t.takeMbxAck p f) := by
  unfold State.takeMbxAck
  extract_lets _
  exact Keeps.ite _ (State.mbxEmpty_keeps ..) (Keeps.refl _)

theorem execMbxAckFrame_completes (now : Nat) (p : Fin 4) (f : Flit) (s : State) : Completes s (execMbxAckFrame now p f s) :=
  Completes.next (Keeps.after (State.rxFlit_keeps _ _ _ _ (fun _ => State.onHop_keeps _ _ _ _
      (State.takeMbxAck_keeps ..))) (State.advance_keeps ..))

theorem execLinkDown_completes (now : Nat) (p : Fin 4) (cause : LinkDownCause) (s : State) :
    Completes s (execLinkDown now p cause s) := by
  unfold execLinkDown
  extract_lets s1
  have hs1 : Keeps s s1 := State.advance_keeps ..
  split
  · exact Completes.next (Keeps.ite _ ((State.portDown_keeps ..).after hs1) hs1)
  · exact Completes.next (Keeps.ite _ ((State.portDown_keeps ..).after hs1) hs1)
  · exact Completes.next ((State.portDown_keeps ..).after hs1)
  · refine Completes.next ?_
    refine Keeps.onReg hs1 ?_
    refine Keeps.ite _ ?_ ?_
    · exact (State.setF_keeps ..).after ((State.setF_keeps ..).after ((State.portDown_keeps ..).after hs1))
    · exact hs1

/-! ### The operations of Machine/Sdac.lean -/

theorem execSdacSpanRouteChange_completes (now : Nat) (byHost : Bool) (span : BitVec 2) (route : BitVec 5) (s : State) :
    Completes s (execSdacSpanRouteChange now byHost span route s) := by
  unfold execSdacSpanRouteChange
  extract_lets s1 _ _ t
  have hs1 : Keeps s s1 := State.advance_keeps ..
  have ht : Keeps s t := Keeps.ite _ hs1 (Keeps.ite _ hs1 ((State.dacPassage_keeps ..).after hs1))
  exact Completes.next (Keeps.onReg hs1 ht)

theorem execPassageEnd_completes (now : Nat) (s : State) : Completes s (execPassageEnd now s) := by
  unfold execPassageEnd
  extract_lets s1
  have hs1 : Keeps s s1 := State.advance_keeps ..
  exact Completes.ite _ (Completes.next ((State.setF_keeps ..).after hs1)) (Completes.next hs1)

theorem execSdacFtwWrite_completes (now : Nat) (byHost : Bool) (v : Word) (s : State) :
    Completes s (execSdacFtwWrite now byHost v s) := by
  unfold execSdacFtwWrite
  extract_lets s1 t
  have hs1 : Keeps s s1 := State.advance_keeps ..
  have ht : Keeps s t := Keeps.ite _ hs1 ((State.setF_keeps ..).after hs1)
  exact Completes.next (Keeps.onReg hs1 ht)

theorem execSessionRequest_completes (now : Nat) (s : State) : Completes s (execSessionRequest now s) := by
  unfold execSessionRequest
  extract_lets s1
  have hs1 : Keeps s s1 := State.advance_keeps ..
  exact Completes.next (Keeps.onReg hs1 ((State.setF_keeps ..).after hs1))

theorem execSessionGrant_completes (now : Nat) (s : State) : Completes s (execSessionGrant now s) := by
  unfold execSessionGrant
  extract_lets s1 src _
  have hs1 : Keeps s s1 := State.advance_keeps ..
  have hsrc : Keeps s src := (State.setF_keeps ..).after hs1
  exact Completes.ite _ (Completes.next (hsrc.trans (Keeps.of_eq rfl rfl rfl))) (Completes.next hs1)

theorem State.sessionOver_keeps (s : State) : Keeps s (s.sessionOver) := by
  unfold State.sessionOver
  extract_lets s1 s2
  have hs1 : Keeps s s1 := State.setF_keeps ..
  have hs2 : Keeps s s2 := (State.setF_keeps ..).after ((State.setF_keeps ..).after ((State.setF_keeps ..).after hs1))
  exact Keeps.ite _ ((State.dacPassage_keeps ..).after hs2) hs1

theorem execSessionEnd_completes (now : Nat) (s : State) : Completes s (execSessionEnd now s) := by
  unfold execSessionEnd
  extract_lets s1
  have hs1 : Keeps s s1 := State.advance_keeps ..
  exact Completes.next (Keeps.onReg hs1 ((State.sessionOver_keeps ..).after hs1))

theorem execSessionTimeout_completes (now : Nat) (s : State) : Completes s (execSessionTimeout now s) := by
  unfold execSessionTimeout
  extract_lets s1
  have hs1 : Keeps s s1 := State.advance_keeps ..
  exact Completes.ite _ (Completes.next ((State.sessionOver_keeps ..).after hs1)) (Completes.next hs1)

theorem execLoopcal_completes (now : Nat) (s : State) : Completes s (execLoopcal now s) := by
  unfold execLoopcal
  extract_lets s1 src _
  have hs1 : Keeps s s1 := State.advance_keeps ..
  have hsrc : Keeps s src := (State.setF_keeps ..).after hs1
  exact Completes.next (Keeps.onReg hs1 (Keeps.ite _ (hsrc.trans (Keeps.of_eq rfl rfl rfl)) hs1))

theorem execLoopcalDone_completes (now ohms : Nat) (s : State) : Completes s (execLoopcalDone now ohms s) := by
  unfold execLoopcalDone
  extract_lets s1 s2 _ src _
  have hs1 : Keeps s s1 := State.advance_keeps ..
  have hs2 : Keeps s s2 := (State.setF_keeps ..).after ((State.setF_keeps ..).after hs1)
  have hsrc : Keeps s src := (State.setF_keeps ..).after (hs2.trans (Keeps.of_eq rfl rfl rfl))
  refine Completes.ite _ ?_ (Completes.next hs1)
  refine Completes.ite _ (Completes.next ((State.raise_keeps ..).after ((State.setF_keeps ..).after hs2))) ?_
  refine Completes.ite _ ?_ ?_
  · exact Completes.next ((State.raise_keeps ..).after ((State.setF_keeps ..).after hs2))
  · exact Completes.next (hsrc.trans (Keeps.of_eq rfl rfl rfl))

/-! ### The operations of Machine/Tmv.lean -/

theorem State.tmvRefuse_keeps (s : State) (core : Nat) (m : Tmv) (x : Xfer) : Keeps s (s.tmvRefuse core m x) := by
  unfold State.tmvRefuse
  extract_lets _
  exact (State.addHold_keeps ..).after ((State.setSlot_keeps ..).after (State.setTmv_keeps ..))

theorem execTmvTransfer_completes (now : Nat) (cl : Cluster) (co : Core) (s : State) :
    Completes s (execTmvTransfer now cl co s) := by
  unfold execTmvTransfer
  extract_lets s1 _ _
  have hs1 : Keeps s s1 := State.advance_keeps ..
  split
  · extract_lets _ _ s2
    have hs2 : Keeps s s2 := (State.setSlot_keeps ..).after ((State.stepWr_keeps ..).after ((State.setSlot_keeps ..).after hs1))
    refine Completes.ite _ (Completes.next hs1) ?_
    refine Completes.ite _ (Completes.next ((State.tmvRefuse_keeps ..).after hs1)) ?_
    refine Completes.ite _ ?_ ?_
    · exact Completes.next ((State.foreignCapture_keeps ..).after ((State.tmvRefuse_keeps ..).after hs1))
    · exact Completes.ite _ (Completes.next ((State.setTmv_keeps ..).after hs2)) (Completes.next hs1)
  · exact Completes.next hs1

theorem State.carry_keeps (s : State) (master : Nat) (dst src : SlotRef) : Keeps s (s.carry master dst src).1 := by
  unfold State.carry
  extract_lets _ _ _ _ s1 s2 _ _ w
  have hs1 : Keeps s s1 := State.moveBytes_keeps ..
  have hs2 : Keeps s s2 := (State.readEcc_keeps ..).after hs1
  have hw : Keeps s w.1 := (State.writeMem_keeps ..).after hs2
  exact (State.setTorn_keeps ..).after hw

theorem execTmvTransferDone_completes (now : Nat) (cl : Cluster) (co : Core) (s : State) :
    Completes s (execTmvTransferDone now cl co s) := by
  unfold execTmvTransferDone
  extract_lets s1 _ _
  have hs1 : Keeps s s1 := State.advance_keeps ..
  split
  · extract_lets w s2
    have hw : Keeps s w.1 := (State.carry_keeps ..).after hs1
    have hs2 : Keeps s s2 := Keeps.ite _ ((State.addHold_keeps ..).after hw) hw
    refine Completes.ite _ ?_ ?_
    · exact Completes.next ((State.setTmv_keeps ..).after ((State.emptySlot_keeps ..).after
        ((State.setTorn_keeps ..).after ((State.fillSlot_keeps ..).after hs2))))
    · exact Completes.next hs1
  · exact Completes.next hs1

theorem execTmvRetry_completes (now : Nat) (cl : Cluster) (co : Core) (s : State) : Completes s (execTmvRetry now cl co s) := by
  unfold execTmvRetry
  extract_lets s1 _ _
  have hs1 : Keeps s s1 := State.advance_keeps ..
  split
  · extract_lets _ _
    exact Completes.ite _ (Completes.next ((State.setTmv_keeps ..).after hs1)) (Completes.next hs1)
  · exact Completes.next hs1

theorem State.tmvTear_keeps (s : State) (core : Nat) : Keeps s (s.tmvTear core) := by
  unfold State.tmvTear
  extract_lets _
  split
  · extract_lets _ s1
    have hs1 : Keeps s s1 := (State.tear_keeps ..).after ((State.moveBytes_keeps ..).after (State.burn_keeps ..))
    exact (State.setTmv_keeps ..).after ((State.emptySlot_keeps ..).after ((State.setTorn_keeps ..).after hs1))
  · exact Keeps.refl _

theorem State.tmvLost_keeps (s : State) (core : Nat) : Keeps s (s.tmvLost core) := by
  unfold State.tmvLost
  extract_lets _
  split
  · exact State.tmvRefuse_keeps ..
  · exact Keeps.refl _

/-! ### The operations of Machine/Domains.lean -/

theorem State.ringLose_keeps (s : State) (h : SlotRef) : Keeps s (s.ringLose h) := by
  unfold State.ringLose
  extract_lets _ s1
  have hs1 : Keeps s s1 := by
    unfold s1
    refine Keeps.foldl _ (fun t x => ?_) _ _
    extract_lets _ t1
    have ht1 : Keeps t t1 := Keeps.ite _ (State.count_keeps ..) (Keeps.refl _)
    exact (State.setTorn_keeps ..).after ((State.setSlot_keeps ..).after ht1)
  exact (State.setRing_keeps ..).after hs1

theorem State.dropWriters_keeps (s : State) (km : Bool) (unit : Nat) : Keeps s (s.dropWriters km unit) := by
  unfold State.dropWriters
  extract_lets _ s1 _
  have hs1 : Keeps s s1 := by
    unfold s1
    refine Keeps.foldl _ (fun t x => ?_) _ _
    split
    · exact Keeps.ite _ (State.tmvLost_keeps ..) (Keeps.refl _)
    · exact Keeps.refl _
  clear_value s1
  exact hs1.trans (Keeps.of_eq rfl rfl rfl)

/-- Forgetting the fields of certain registers, by their keys, gives those fields their reset values. -/
theorem Keeps.filterRegs (s : State) (p : Nat → Bool) : Keeps s { s with regs := s.regs.filter (fun e => p e.1) } :=
  ⟨rfl, id, fun h => h.filter p⟩

theorem State.regsLost_keeps (s : State) (b : Block) (unit : Nat) : Keeps s (s.regsLost b unit) :=
  Keeps.filterRegs s (fun k =>
    match ((lostRegs b).flatMap (fun r => r.fields.map (fun f => (f.code, r.perUnit b)))).find? (fun c => c.1 == keyCode k) with
    | some c => keyRep k / c.2 != unit
    | none => true)

theorem State.warmReset_keeps (s : State) (core : Nat) : Keeps s (s.warmReset core) := by
  unfold State.warmReset
  extract_lets s1 s2 s3 s4 s5 _ _
  have hs1 : Keeps s s1 := State.tmvTear_keeps ..
  have hs2 : Keeps s s2 := by
    unfold s2
    refine Keeps.after (Keeps.foldl _ (fun t x => ?_) _ _) hs1
    extract_lets t1
    have ht1 : Keeps t t1 := Keeps.foldl _ (fun _ _ => (State.tmvQueue_keeps ..).after (State.tear_keeps ..)) _ _
    exact Keeps.after (Keeps.foldl _ (fun _ _ => Keeps.ite _ ((State.setTorn_keeps ..).after (State.emptySlot_keeps ..))
        (Keeps.refl _)) _ _) ht1
  have hs3 : Keeps s s3 := (State.setCoreTiles_keeps ..).after hs2
  have hs4 : Keeps s s4 := by
    unfold s4
    refine Keeps.after (Keeps.foldl _ (fun t x => ?_) _ _) hs3
    extract_lets _ _ t1
    have ht1 : Keeps t t1 := Keeps.foldl _ (fun _ _ => Keeps.foldl _ (fun _ _ => Keeps.ite _
        ((State.setTorn_keeps ..).after (State.emptySlot_keeps ..)) (Keeps.refl _)) _ _) _ _
    exact (State.setStation_keeps ..).after ht1
  have hs5 : Keeps s s5 := Keeps.after (Keeps.foldl _ (fun _ _ => State.setEngine_keeps ..) _ _) hs4
  exact (State.setOcu_keeps ..).after hs5

theorem State.coreOff_keeps (s : State) (core : Nat) : Keeps s (s.coreOff core) := by
  unfold State.coreOff
  extract_lets s1 s2 s3 s4 s5 s6
  have hs1 : Keeps s s1 := (State.warmReset_keeps ..).after (State.cutCopies_keeps ..)
  have hs2 : Keeps s s2 := Keeps.after (Keeps.foldl _ (fun _ _ => State.setEngine_keeps ..) _ _) hs1
  have hs3 : Keeps s s3 := (State.setTmv_keeps ..).after ((State.dropWriters_keeps ..).after hs2)
  have hs4 : Keeps s s4 := Keeps.after (Keeps.foldl _ (fun _ _ => State.ringLose_keeps ..) _ _) hs3
  have hs5 : Keeps s s5 := (State.zeroFill_keeps ..).after hs4
  clear_value s5
  have hs6 : Keeps s s6 := hs5.trans (Keeps.of_eq rfl rfl rfl)
  exact (State.setF_keeps ..).after hs6

theorem State.rewriteDescs_keeps (s : State) (core : Nat) : Keeps s (s.rewriteDescs core) := by
  unfold State.rewriteDescs
  refine Keeps.foldl _ (fun t x => ?_) _ _
  split
  · exact Keeps.foldl _ (fun _ _ => State.store_keeps ..) _ _
  · exact Keeps.refl _

theorem State.calOnPower_keeps (s : State) (core : Nat) : Keeps s (s.calOnPower core) := by
  unfold State.calOnPower
  extract_lets _ _ _ _ _ s1
  have hs1 : Keeps s s1 := Keeps.ite _ (Keeps.refl _) (State.queueCal_keeps ..)
  exact Keeps.ite _ hs1 ((State.queueCal_keeps ..).after hs1)

theorem State.coreUp_keeps (s : State) (core : Nat) : Keeps s (s.coreUp core) := by
  unfold State.coreUp
  extract_lets _ s1 s2 s3 s4
  have hs1 : Keeps s s1 := (State.regsLost_keeps ..).after (State.zeroFill_keeps ..)
  have hs2 : Keeps s s2 := Keeps.ite _ ((State.setF_keeps ..).after hs1) hs1
  have hs3 : Keeps s s3 := (State.setF_keeps ..).after hs2
  have hs4 : Keeps s s4 := Keeps.after (Keeps.foldl _ (fun _ _ => Keeps.foldl _
      (fun _ _ => State.trackerStart_keeps ..) _ _) _ _) hs3
  exact (State.rewriteDescs_keeps ..).after ((State.calOnPower_keeps ..).after hs4)

theorem State.rewriteProgs_keeps (s : State) (c : Nat) : Keeps s (s.rewriteProgs c) := by
  unfold State.rewriteProgs
  refine Keeps.foldl _ (fun t x => ?_) _ _
  split
  · exact Keeps.foldl _ (fun _ _ => State.store_keeps ..) _ _
  · exact Keeps.refl _

theorem State.sharedUp_keeps (s : State) (c : Nat) : Keeps s (s.sharedUp c) := by
  unfold State.sharedUp
  extract_lets s1
  have hs1 : Keeps s s1 := Keeps.foldl _ (fun _ _ => State.setShard_keeps ..) _ _
  exact (State.rewriteProgs_keeps ..).after ((State.setF_keeps ..).after ((State.regsLost_keeps ..).after
      ((State.zeroFill_keeps ..).after hs1)))

theorem State.clusterCut_keeps (s : State) (c : Nat) : Keeps s (s.clusterCut c) :=
  Keeps.foldl _ (fun _ _ => Keeps.ite _ ((State.setThread_keeps ..).after (State.cutCopy_keeps ..)) (Keeps.refl _)) _ _

theorem State.sharedOff_keeps (s : State) (c : Nat) : Keeps s (s.sharedOff c) := by
  unfold State.sharedOff
  extract_lets s1 s2 _ s3 s4
  have hs1 : Keeps s s1 := (State.dropWriters_keeps ..).after ((State.clusterCut_keeps ..).after (State.cutCopies_keeps ..))
  have hs2 : Keeps s s2 := Keeps.after (Keeps.foldl _ (fun _ _ => State.ringLose_keeps ..) _ _) hs1
  have hs3 : Keeps s s3 := (State.setTrace_keeps ..).after ((State.setOcu_keeps ..).after ((State.zeroFill_keeps ..).after hs2))
  clear_value s3
  have hs4 : Keeps s s4 := hs3.trans (Keeps.of_eq rfl rfl rfl)
  exact (State.setF_keeps ..).after hs4

theorem State.coreOnNow_keeps (s : State) (core : Nat) : Keeps s (s.coreOnNow core) := by
  unfold State.coreOnNow
  extract_lets s1
  have hs1 : Keeps s s1 := Keeps.ite _ (Keeps.refl _) (State.sharedUp_keeps ..)
  exact Keeps.ite _ hs1 ((State.coreUp_keeps ..).after hs1)

theorem State.setDie_keeps (s : State) (b : Nat) (v : Bool) : Keeps s (s.setDie b v) := by
  unfold State.setDie
  extract_lets t
  have ht : Keeps s t := State.setF_keeps ..
  exact (State.setPll_keeps ..).after ht

theorem State.windowsDrop_keeps (s : State) : Keeps s (s.windowsDrop) := by
  unfold State.windowsDrop
  extract_lets _ _
  exact Keeps.of_eq rfl rfl rfl

theorem State.dieUp_keeps (s : State) (b : Nat) : Keeps s (s.dieUp b) := by
  unfold State.dieUp
  extract_lets s1 s2 _ s3
  have hs1 : Keeps s s1 := State.setDie_keeps ..
  have hs2 : Keeps s s2 := Keeps.after (Keeps.foldl _ (fun _ _ => Keeps.ite _ (State.setF_keeps ..) (Keeps.refl _)) _ _) hs1
  have hs3 : Keeps s s3 := hs1.trans (Keeps.of_eq rfl rfl rfl)
  split
  · exact (State.deliverWakes_keeps ..).after hs1
  · exact (State.deliverWakes_keeps ..).after hs2
  · exact (State.dacPassage_keeps ..).after hs3
  · exact (State.windowsDrop_keeps ..).after hs1
  · exact hs1

theorem State.dieOff_keeps (s : State) (b : Nat) : Keeps s (s.dieOff b) := by
  unfold State.dieOff
  extract_lets s1
  have hs1 : Keeps s s1 := Keeps.ite _ (Keeps.foldl _ (fun _ _ => State.portDown_keeps ..) _ _) (Keeps.refl _)
  exact (State.setDie_keeps ..).after hs1

theorem State.switched_keeps (s : State) (c : Nat) : Keeps s (s.switched c) :=
  Keeps.ite _ (Keeps.refl _) (Keeps.of_eq rfl rfl rfl)

theorem execDomainSwitchOn_completes (now : Nat) (d : Domain) (s : State) : Completes s (execDomainSwitchOn now d s) := by
  unfold execDomainSwitchOn
  extract_lets s1
  have hs1 : Keeps s s1 := State.advance_keeps ..
  split
  · extract_lets _
    refine Completes.ite _ ?_ ?_
    · exact Completes.next ((State.coreOnNow_keeps ..).after ((State.switched_keeps ..).after hs1))
    · exact Completes.next hs1
  · refine Completes.ite _ ?_ ?_
    · exact Completes.next ((State.sharedUp_keeps ..).after ((State.switched_keeps ..).after hs1))
    · exact Completes.next hs1
  · split
    · exact Completes.ite _ (Completes.next ((State.dieUp_keeps ..).after hs1)) (Completes.next hs1)
    · exact Completes.next hs1

theorem execDomainSwitchOff_completes (now : Nat) (d : Domain) (s : State) : Completes s (execDomainSwitchOff now d s) := by
  unfold execDomainSwitchOff
  extract_lets s1
  have hs1 : Keeps s s1 := State.advance_keeps ..
  split
  · extract_lets _
    exact Completes.ite _ (Completes.next ((State.coreOff_keeps ..).after hs1)) (Completes.next hs1)
  · exact Completes.ite _ (Completes.next ((State.sharedOff_keeps ..).after hs1)) (Completes.next hs1)
  · split
    · exact Completes.ite _ (Completes.next ((State.dieOff_keeps ..).after hs1)) (Completes.next hs1)
    · exact Completes.next hs1

theorem execDiedomOffRequest_completes (now : Nat) (link off : Bool) (s : State) :
    Completes s (execDiedomOffRequest now link off s) := by
  unfold execDiedomOffRequest
  extract_lets s1
  have hs1 : Keeps s s1 := State.advance_keeps ..
  exact Completes.next (Keeps.ite _ ((State.setB_keeps ..).after hs1) ((State.setB_keeps ..).after hs1))

theorem State.enterReset_keeps (s : State) (cold : Bool) (core : Nat) : Keeps s (s.enterReset cold core) := by
  unfold State.enterReset
  extract_lets s1
  have hs1 : Keeps s s1 := Keeps.ite _ (State.coreOff_keeps ..) (State.warmReset_keeps ..)
  exact (State.setF_keeps ..).after hs1

theorem execDrst_completes (now : Nat) (cl : Cluster) (th : Thread) (w : Word) (s : State) :
    Completes s (execDrst now cl th w s) := by
  unfold execDrst
  extract_lets _ _ _ _
  refine seqRow_completes _ _ _ _ _ (fun t => ?_)
  refine State.issue_keeps _ _ _ _ _ (fun t => ?_)
  extract_lets _ t1 t2
  have ht1 : Keeps t t1 := Keeps.foldl _ (fun _ _ => State.enterReset_keeps ..) _ _
  have ht2 : Keeps t t2 := ht1.trans (Keeps.of_eq rfl rfl rfl)
  refine Keeps.ite _ (State.seqHalt_keeps ..) ?_
  refine Keeps.ite _ ?_ ?_
  · exact (State.setPc_keeps ..).after (State.setPred_keeps ..)
  · exact (State.setPc_keeps ..).after ((State.block_keeps ..).after ht2)

theorem execDomainResetDone_completes (now : Nat) (cl : Cluster) (th : Thread) (s : State) :
    Completes s (execDomainResetDone now cl th s) := by
  unfold execDomainResetDone
  extract_lets _ s1
  have hs1 : Keeps s s1 := State.advance_keeps ..
  split
  · extract_lets s2 _
    have hs2 : Keeps s s2 := Keeps.after (Keeps.foldl _ (fun _ _ => Keeps.ite _ (Keeps.refl _)
        (State.setF_keeps ..)) _ _) (hs1.trans (Keeps.of_eq rfl rfl rfl))
    refine Completes.ite _ ?_ ?_
    · exact Completes.next (Keeps.ite _ ((State.resume_keeps ..).after hs2) hs2)
    · exact Completes.next hs1
  · exact Completes.next hs1

/-! ### The operations of Machine/Bitstream.lean -/

theorem State.beginCut_keeps (s : State) (t : Nat) (q : Quota) : Keeps s (s.beginCut t q) := by
  unfold State.beginCut
  extract_lets _ _ _ _ s1 _ s2 _
  have hs1 : Keeps s s1 := Keeps.of_eq rfl rfl rfl
  have hs2 : Keeps s s2 := (State.setFn_keeps ..).after hs1
  exact (State.service_keeps ..).after hs2

theorem State.applyQuota_keeps (s : State) (t : Nat) (q : Quota) : Keeps s (s.applyQuota t q) := by
  unfold State.applyQuota
  extract_lets s1
  have hs1 : Keeps s s1 := (State.ruleCut_keeps ..).after ((State.reclaimEnd_keeps ..).after
      ((State.setQuota_keeps ..).after (State.loaderCharge_keeps ..)))
  exact Keeps.ite _ hs1 ((State.beginCut_keeps ..).after hs1)

theorem State.quotaCommand_keeps (s : State) (fn : Nat) (e : List Word) : Keeps s (s.quotaCommand fn e) := by
  unfold State.quotaCommand
  extract_lets _
  refine Keeps.ite _ (State.answer_keeps ..) ?_
  refine Keeps.ite _ ?_ ?_
  · exact State.answer_keeps ..
  · exact Keeps.ite _ (State.answer_keeps ..) ((State.answer_keeps ..).after (State.applyQuota_keeps ..))

theorem execSetQuota_completes (now : Nat) (fn : Func) (entry : List Word) (s : State) :
    Completes s (execSetQuota now fn entry s) :=
  Completes.next (Keeps.after (State.command_keeps _ _ _ _ _ (fun _ => State.quotaCommand_keeps ..)) (State.advance_keeps ..))

theorem execReclaimDeadline_completes (now : Nat) (st : StationId) (s : State) : Completes s
    (execReclaimDeadline now st s) := by
  unfold execReclaimDeadline
  extract_lets s1 _ _
  have hs1 : Keeps s s1 := State.advance_keeps ..
  split
  · refine Completes.ite _ ?_ ?_
    · exact Completes.next ((State.park_keeps ..).after ((State.setFn_keeps ..).after hs1))
    · exact Completes.next hs1
  · exact Completes.next hs1

theorem State.releaseExtent_keeps (s : State) (t : Nat) (km : Bool) (e : Nat × Nat × Nat) : Keeps s
    (s.releaseExtent t km e) := by
  unfold State.releaseExtent
  extract_lets s1
  have hs1 : Keeps s s1 := State.setPart_keeps ..
  exact (State.zeroFill_keeps ..).after hs1

theorem execClaimRelease_completes (now : Nat) (t : Fin 128) (s : State) : Completes s (execClaimRelease now t s) := by
  unfold execClaimRelease
  extract_lets u o f
  have hu : Keeps s u := State.advance_keeps ..
  have hdone {w : State} (hw : Keeps s w) (x : Function) : Completes s (.next ((w.setFn o x).reclaimDone o)) :=
    .next ((State.reclaimDone_keeps ..).after ((State.setFn_keeps ..).after hw))
  split
  next => exact Completes.next hu
  next cut _ =>
    extract_lets core cm km
    clear_value core cm km
    cases core with
    | some c =>
      have hcore := Keeps.after (Keeps.foldl _ (fun v e => State.releaseExtent_keeps v o false e) (cut.2.1.filter
          (fun e => e.1 == c)) u) hu
      exact hdone ((State.setF_keeps ..).after ((State.setPart_keeps ..).after hcore)) _
    | none =>
      cases cm with
      | some e => exact hdone ((State.releaseExtent_keeps ..).after hu) _
      | none =>
        cases km with
        | some e => exact hdone ((State.releaseExtent_keeps ..).after hu) _
        | none => exact Completes.next hu

theorem State.wipeCore_keeps (s : State) (owner core : Nat) : Keeps s (s.wipeCore owner core) := by
  unfold State.wipeCore
  extract_lets _ _ s1 _
  have hs1 : Keeps s s1 := Keeps.foldl _ (fun _ _ => State.setShard_keeps ..) _ _
  exact Keeps.ite _ (Keeps.refl _) ((State.setJobQ_keeps ..).after hs1)

theorem State.loadClaims_keeps (s : State) (x : BitStream) : Keeps s (s.loadClaims x) := by
  unfold State.loadClaims
  extract_lets _ s1 s2 s3 s4
  have hs1 : Keeps s s1 := State.setPart_keeps ..
  have hs2 : Keeps s s2 := Keeps.after (Keeps.foldl _ (fun _ _ => State.coreOnNow_keeps ..) _ _) hs1
  have hs3 : Keeps s s3 := Keeps.after (Keeps.foldl _ (fun _ _ => Keeps.ite _ (Keeps.refl _) (State.sharedUp_keeps ..)) _ _) hs2
  have hs4 : Keeps s s4 := Keeps.after (Keeps.foldl _ (fun _ _ => State.wipeCore_keeps ..) _ _) hs3
  exact Keeps.after (Keeps.foldl _ (fun _ _ => State.applyQuota_keeps ..) _ _) hs4

theorem State.arbReset_keeps (s : State) (owner : Nat) (cores : List Nat) : Keeps s (s.arbReset owner cores) := by
  unfold State.arbReset
  extract_lets s1
  have hs1 : Keeps s s1 := Keeps.foldl _ (fun _ _ => State.setF_keeps ..) _ _
  refine Keeps.ite _ ?_ ?_
  · exact Keeps.after (Keeps.foldl _ (fun _ _ => (State.setF_keeps ..).after (State.setF_keeps ..)) _ _) hs1
  · exact hs1

theorem State.loadArb_keeps (s : State) (x : BitStream) : Keeps s (s.loadArb x) :=
  Keeps.after (Keeps.foldl _ (fun _ _ => State.setF_keeps ..) _ _) (State.arbReset_keeps ..)

theorem State.loadRings_keeps (s : State) (x : BitStream) (rs : List (RtRec × SlotRef × Option SlotRef)) :
    Keeps s (s.loadRings x rs) := by
  unfold State.loadRings
  refine Keeps.foldl _ (fun t x => ?_) _ _
  extract_lets t1 _
  have ht1 : Keeps t t1 := (State.setRing_keeps ..).after (State.ringLike_keeps ..)
  split
  · exact (State.setRing_keeps ..).after ((State.ringLike_keeps ..).after ht1)
  · exact ht1

theorem State.loadData_keeps (s : State) (x : BitStream) : Keeps s (s.loadData x) := by
  unfold State.loadData
  extract_lets s1
  have hs1 : Keeps s s1 := by
    unfold s1
    refine Keeps.foldl _ (fun t x => ?_) _ _
    extract_lets _ _
    exact State.store_keeps ..
  refine Keeps.after (Keeps.foldl _ (fun t x => ?_) _ _) hs1
  split
  · exact State.store_keeps ..
  · exact Keeps.refl _

theorem State.loadDescs_keeps (s : State) (x : BitStream) (rs : List (RtRec × SlotRef × Option SlotRef)) :
    Keeps s (s.loadDescs x rs) := by
  unfold State.loadDescs
  extract_lets s1
  have hs1 : Keeps s s1 := Keeps.foldl _ (fun _ _ => State.writeDesc_keeps ..) _ _
  exact (State.setPart_keeps ..).after hs1

theorem State.loadStations_keeps (s : State) (x : BitStream) (rs : List (RtRec × SlotRef × Option SlotRef)) :
    Keeps s (s.loadStations x rs) := by
  unfold State.loadStations
  extract_lets s1
  have hs1 : Keeps s s1 := by
    unfold s1
    refine Keeps.foldl _ (fun t x => ?_) _ _
    extract_lets _ t1
    have ht1 : Keeps t t1 := State.setStation_keeps ..
    split
    · exact (State.bindEntry_keeps ..).after ht1
    · exact ht1
  exact hs1.trans (Keeps.of_eq rfl rfl rfl)

theorem State.loadThreads_keeps (s : State) (x : BitStream) : Keeps s (s.loadThreads x) := by
  unfold State.loadThreads
  refine Keeps.foldl _ (fun t x => ?_) _ _
  split
  · exact Keeps.refl _
  · extract_lets _ t1 t2
    have ht1 : Keeps t t1 := State.setThread_keeps ..
    have ht2 : Keeps t t2 := (State.setF_keeps ..).after ((State.setF_keeps ..).after ht1)
    split
    · extract_lets _ _ t3 t4 _
      have ht3 : Keeps t t3 := (State.setF_keeps ..).after ((State.setF_keeps ..).after ((State.setF_keeps ..).after ht1))
      have ht4 : Keeps t t4 := (State.setF_keeps ..).after ((State.setF_keeps ..).after ht3)
      exact (State.setPart_keeps ..).after ht4
    · exact (State.setF_keeps ..).after ((State.setF_keeps ..).after ((State.setF_keeps ..).after ht2))

theorem State.loadWords_keeps (s : State) (owner : Nat) : Keeps s (s.loadWords owner) :=
  Keeps.foldl _ (fun _ _ => State.store_keeps ..) _ _

theorem State.loadTables_keeps (s : State) (x : BitStream) : Keeps s (s.loadTables x) := by
  unfold State.loadTables
  extract_lets _ s1 s2 _
  have hs1 : Keeps s s1 := Keeps.foldl _ (fun _ _ => State.setGroup_keeps ..) _ _
  have hs2 : Keeps s s2 := by
    unfold s2
    refine Keeps.after (Keeps.foldl _ (fun t x => ?_) _ _) hs1
    extract_lets _
    exact Keeps.of_eq rfl rfl rfl
  exact (State.setPart_keeps ..).after hs2

theorem State.loadOwl_keeps (x : BitStream) (s : State) (o : Nat) : Keeps s (State.loadOwl x s o) := by
  unfold State.loadOwl
  extract_lets _ _ _
  split
  · exact Keeps.refl _
  · split
    · exact Keeps.refl _
    · extract_lets s1 s2
      have hs1 : Keeps s s1 := (State.setF_keeps ..).after ((State.setF_keeps ..).after (State.setOwl_keeps ..))
      have hs2 : Keeps s s2 := (State.setF_keeps ..).after ((State.setF_keeps ..).after hs1)
      exact (State.owlRelearn_keeps ..).after ((State.setPart_keeps ..).after hs2)

theorem State.loadRule_keeps (x : BitStream) (s : State) (o : Nat) : Keeps s (State.loadRule x s o) := by
  unfold State.loadRule
  extract_lets _ _
  split
  · exact Keeps.refl _
  · exact (State.setPart_keeps ..).after (State.setWRule_keeps ..)

theorem State.loadAll_keeps (s : State) (x : BitStream) : Keeps s (s.loadAll x) := by
  unfold State.loadAll
  extract_lets old s1 _ s2 s3 s4 s5 t s6 s7
  have hold : Keeps s old := Keeps.refl _
  have hs1 : Keeps s s1 := (State.loadArb_keeps ..).after (State.loadClaims_keeps ..)
  have hs2 : Keeps s s2 := (State.loadThreads_keeps ..).after ((State.loadRings_keeps ..).after hs1)
  have hs3 : Keeps s s3 := (State.loadStations_keeps ..).after ((State.loadDescs_keeps ..).after
      ((State.loadData_keeps ..).after hs2))
  have hs4 : Keeps s s4 := (State.loadTables_keeps ..).after ((State.loadWords_keeps ..).after hs3)
  have hs5 : Keeps s s5 := Keeps.after (Keeps.foldl _ (fun _ _ => State.loadOwl_keeps ..) _ _) hs4
  have ht : Keeps s t := Keeps.after (Keeps.foldl _ (fun _ _ => State.loadRule_keeps ..) _ _) hs5
  have hs6 : Keeps s s6 := (State.wioSettle_keeps ..).after ht
  have hs7 : Keeps s s7 := (State.setPart_keeps ..).after hs6
  exact Keeps.after (Keeps.foldl _ (fun _ _ => State.threadStart_keeps ..) _ _) ((State.activate_keeps ..).after hs7)

theorem State.loadCommand_keeps (s : State) (fn : Nat) (e : List Word) (bytes : List Byte) :
    Keeps s (s.loadCommand fn e bytes) := by
  unfold State.loadCommand
  extract_lets _ _ _ s1 _ _
  have hs1 : Keeps s s1 := State.emit_keeps ..
  refine Keeps.ite _ (State.answer_keeps ..) ?_
  split
  · exact (State.complete_keeps ..).after hs1
  · exact (State.complete_keeps ..).after ((State.loadAll_keeps ..).after (hs1.trans (Keeps.of_eq rfl rfl rfl)))

theorem execLoadBitstream_completes (now : Nat) (fn : Func) (entry : List Word) (bytes : List Byte) (s : State) :
    Completes s (execLoadBitstream now fn entry bytes s) := by
  unfold execLoadBitstream
  extract_lets s1
  have hs1 : Keeps s s1 := State.advance_keeps ..
  refine Completes.ite _ ?_ ?_
  · exact Completes.next hs1
  · exact Completes.next (Keeps.after (State.command_keeps _ _ _ _ _ (fun _ => State.loadCommand_keeps ..)) hs1)

theorem State.unloadStop_keeps (s : State) (owner : Nat) : Keeps s (s.unloadStop owner) := by
  unfold State.unloadStop
  extract_lets s1 s2 s3
  have hs1 : Keeps s s1 := Keeps.foldl _ (fun _ _ => State.threadStopNow_keeps ..) _ _
  have hs2 : Keeps s s2 := Keeps.after (Keeps.foldl _ (fun _ _ => State.park_keeps ..) _ _) hs1
  have hs3 : Keeps s s3 := Keeps.after (Keeps.foldl _ (fun _ _ => State.closeCtx_keeps ..) _ _) hs2
  exact Keeps.after (Keeps.foldl _ (fun _ _ => State.endInstance_keeps ..) _ _) hs3

theorem State.freeThreadAt_keeps (s : State) (i : Nat) : Keeps s (s.freeThreadAt i) := by
  unfold State.freeThreadAt
  extract_lets s1 s2
  have hs1 : Keeps s s1 := (State.setF_keeps ..).after ((State.setF_keeps ..).after (State.setF_keeps ..))
  have hs2 : Keeps s s2 := (State.setF_keeps ..).after ((State.setF_keeps ..).after ((State.setF_keeps ..).after hs1))
  exact (State.setThread_keeps ..).after hs2

theorem State.freeOwl_keeps (s : State) (i : Nat) : Keeps s (s.freeOwl i) :=
  (State.setF_keeps ..).after ((State.setF_keeps ..).after ((State.setF_keeps ..).after (State.setOwl_keeps ..)))

theorem State.disarmPoints_keeps (s : State) (st : Nat) : Keeps s (s.disarmPoints st) :=
  Keeps.foldl _ (fun _ _ => (State.setPoint_keeps ..).after (State.setF_keeps ..)) _ _

theorem State.ringDrop_keeps (s : State) (h : SlotRef) : Keeps s (s.ringDrop h) :=
  (State.setRing_keeps ..).after (Keeps.foldl _ (fun _ _ => (State.setTorn_keeps ..).after (State.setSlot_keeps ..)) _ _)

theorem State.unloadFree_keeps (s : State) (owner : Nat) : Keeps s (s.unloadFree owner) := by
  unfold State.unloadFree
  extract_lets _ _ _ _ s1 _ s2 s3 s4 s5 s6 _ _ s7 s8 s9 s10
  have hs1 : Keeps s s1 := Keeps.foldl _ (fun _ _ => (State.disarmTarget_keeps ..).after (State.disarmPoints_keeps ..)) _ _
  have hs2 : Keeps s s2 := Keeps.after (Keeps.foldl _ (fun _ _ => State.ringDrop_keeps ..) _ _) hs1
  have hs3 : Keeps s s3 := Keeps.after (Keeps.foldl _ (fun _ _ => Keeps.ite _ (State.store_keeps ..) (Keeps.refl _)) _ _) hs2
  have hs4 : Keeps s s4 := Keeps.after (Keeps.foldl _ (fun _ _ => State.freeOwl_keeps ..) _ _) hs3
  have hs5 : Keeps s s5 := Keeps.after (Keeps.foldl _ (fun _ _ => State.ruleFree_keeps ..) _ _) hs4
  have hs6 : Keeps s s6 := Keeps.after (Keeps.foldl _ (fun _ _ => State.setGroup_keeps ..) _ _) hs5
  have hs7 : Keeps s s7 := hs6.trans (Keeps.of_eq rfl rfl rfl)
  have hs8 : Keeps s s8 := (State.arbReset_keeps ..).after hs7
  have hs9 : Keeps s s9 := Keeps.after (Keeps.foldl _ (fun _ _ => State.freeThreadAt_keeps ..) _ _) hs8
  have hs10 : Keeps s s10 := Keeps.after (Keeps.foldl _ (fun _ _ => State.setStation_keeps ..) _ _) hs9
  exact (State.reclaimFit_keeps ..).after ((State.setPart_keeps ..).after hs10)

theorem State.unloadCommand_keeps (s : State) (fn : Nat) (e : List Word) : Keeps s (s.unloadCommand fn e) := by
  unfold State.unloadCommand
  extract_lets s1
  have hs1 : Keeps s s1 := State.unloadStop_keeps ..
  refine Keeps.ite _ ((State.answer_keeps ..).after (State.takeAccepted_keeps ..)) ?_
  refine Keeps.ite _ ((State.answer_keeps ..).after (State.takeAccepted_keeps ..)) ?_
  refine Keeps.ite _ ?_ ?_
  · exact hs1
  · exact (State.answer_keeps ..).after ((State.takeAccepted_keeps ..).after ((State.unloadFree_keeps ..).after hs1))

theorem execUnload_completes (now : Nat) (fn : Func) (entry : List Word) (s : State) :
    Completes s (execUnload now fn entry s) := by
  unfold execUnload
  extract_lets s1
  have hs1 : Keeps s s1 := State.advance_keeps ..
  exact Completes.next (Keeps.ite _ ((State.unloadCommand_keeps ..).after hs1) hs1)

theorem State.loadRemove_keeps (s : State) (l : Loading) : Keeps s (s.loadRemove l) := by
  unfold State.loadRemove
  extract_lets _ s1 s2 s3
  have hs1 : Keeps s s1 := Keeps.ite _ ((State.unloadFree_keeps ..).after (State.unloadStop_keeps ..)) (Keeps.refl _)
  have hs2 : Keeps s s2 := Keeps.after (Keeps.foldl _ (fun _ _ => State.zeroFill_keeps ..) _ _) hs1
  have hs3 : Keeps s s3 := Keeps.after (Keeps.foldl _ (fun _ _ => State.zeroFill_keeps ..) _ _) hs2
  exact Keeps.after (Keeps.foldl _ (fun _ _ => State.applyQuota_keeps ..) _ _) hs3

/-! ### The operations of Machine/Engine.lean -/

theorem State.readWindow_keeps (s : State) (master fmt v lo n : Nat) (newest : SlotRef) (ins : List SlotRef) :
    Keeps s (s.readWindow master fmt v lo n newest ins) := by
  unfold State.readWindow
  refine Keeps.foldl_fst _ (fun acc r => ?_) ins (s, 0)
  exact Keeps.ite _ (State.readEcc_keeps ..) (Keeps.refl _)

theorem State.loadVector_keeps (s : State) (cl core : Nat) (e pe : Nat) (t : Tile) : Keeps s (s.loadVector cl core e pe t) := by
  unfold State.loadVector
  extract_lets _ _ _ _ _ _ s1 _ _ _ _ _ _ _ _ _ _ _ s2 s3 _
  have hs1 : Keeps s s1 := State.readWindow_keeps ..
  have hs2 : Keeps s s2 := (State.meWrap_keeps ..).after ((State.setEngine_keeps ..).after hs1)
  have hs3 : Keeps s s3 := Keeps.ite _ hs2 ((State.count_keeps ..).after hs2)
  exact Keeps.ite _ ((State.ocuPush_keeps ..).after hs3) hs3

theorem execVectorLoad_completes (now : Nat) (cl : Cluster) (co : Core) (e : Fin 16) (s : State) :
    Completes s (execVectorLoad now cl co e s) := by
  unfold execVectorLoad
  extract_lets s1 _ _ _
  have hs1 : Keeps s s1 := State.advance_keeps ..
  split
  · exact Completes.ite _ (Completes.next ((State.loadVector_keeps ..).after hs1)) (Completes.next hs1)
  · exact Completes.next hs1

theorem State.sample_keeps (s : State) (pe r : Nat) (nibs : List Nat) (bringup : Bool) :
    Keeps s (s.sample pe r nibs bringup) := by
  unfold State.sample
  extract_lets _ _ _ _ _ _ _ _ _
  exact State.setTracker_keeps ..

theorem State.contribute_keeps (s : State) (pe : Nat) (ph : Phase) (o : Opw) (bringup : Bool) :
    Keeps s (s.contribute pe ph o bringup) := by
  unfold State.contribute
  extract_lets _ _ _ _ _ _
  exact (State.accSat_keeps ..).after (State.setEngine_keeps ..)

theorem State.runPhase_keeps (s : State) (cl core : Nat) (e pe : Nat) (x : Engine) (vec : Vec) (ph : Phase)
    (rest : List Phase) :
    Keeps s (s.runPhase cl core e pe x vec ph rest) := by
  unfold State.runPhase
  extract_lets _ _ _ _ _ _ _ _ _ _ _ _ _ _ _ _ s1 s2 s3 _ s4
  have hs1 : Keeps s s1 := (State.sample_keeps ..).after (State.setEngine_keeps ..)
  have hs2 : Keeps s s2 := (State.meHold_keeps ..).after ((State.meWrap_keeps ..).after hs1)
  have hs3 : Keeps s s3 := (State.meHold_keeps ..).after ((State.meHold_keeps ..).after ((State.meHold_keeps ..).after hs2))
  have hs4 : Keeps s s4 := Keeps.ite _ ((State.contribute_keeps ..).after hs3) hs3
  split
  · exact (State.ocuPush_keeps ..).after hs4
  · exact hs4

theorem execEnginePhase_completes (now : Nat) (cl : Cluster) (co : Core) (e : Fin 16) (s : State) :
    Completes s (execEnginePhase now cl co e s) := by
  unfold execEnginePhase
  extract_lets s1 _ _ _
  have hs1 : Keeps s s1 := State.advance_keeps ..
  split
  · split
    · exact Completes.ite _ (Completes.next hs1) (Completes.next ((State.runPhase_keeps ..).after hs1))
    · exact Completes.next hs1
  · exact Completes.next hs1

theorem execReadoutCopy_completes (now : Nat) (cl : Cluster) (co : Core) (e : Fin 16) (s : State) :
    Completes s (execReadoutCopy now cl co e s) := by
  unfold execReadoutCopy
  extract_lets s1 _ _ _ _
  have hs1 : Keeps s s1 := State.advance_keeps ..
  split
  · extract_lets _
    refine Completes.ite _ ?_ ?_
    · exact Completes.next ((State.addTerms_keeps ..).after ((State.setEngine_keeps ..).after hs1))
    · exact Completes.next hs1
  · exact Completes.next hs1

theorem State.sumChain_keeps (s : State) (core di : Nat) (ls : List Latch) : Keeps s (s.sumChain core di ls) := by
  unfold State.sumChain
  extract_lets _ _ _ _ _ s1 _ _
  have hs1 : Keeps s s1 := by
    unfold s1
    refine Keeps.foldl _ (fun t x => ?_) _ _
    extract_lets _ _
    exact State.setEngine_keeps ..
  exact (State.meHold_keeps ..).after ((State.setEngine_keeps ..).after hs1)

theorem execChainAdd_completes (now : Nat) (cl : Cluster) (co : Core) (s : State) : Completes s (execChainAdd now cl co s) := by
  unfold execChainAdd
  extract_lets s1 _
  have hs1 : Keeps s s1 := State.advance_keeps ..
  split
  · split
    · extract_lets s2
      have hs2 : Keeps s s2 := (State.sumChain_keeps ..).after hs1
      exact Completes.ite _ (Completes.next (hs2.trans (Keeps.of_eq rfl rfl rfl))) (Completes.next hs1)
    · exact Completes.next hs1
  · exact Completes.next hs1

theorem execPartialSumAdd_completes (now : Nat) (cl : Cluster) (co : Core) (e : Fin 16) (s : State) :
    Completes s (execPartialSumAdd now cl co e s) := by
  unfold execPartialSumAdd
  extract_lets s1 _ _
  have hs1 : Keeps s s1 := State.advance_keeps ..
  split
  · extract_lets _ s2 _ _ _ _ _ _ _ s3
    have hs2 : Keeps s s2 := by
      unfold s2
      refine Keeps.after (Keeps.foldl _ (fun t x => ?_) _ _) hs1
      refine Keeps.after (State.readEcc_keeps ..) ?_
      refine Keeps.ite _ ?_ ?_
      · exact (State.setSlot_keeps ..).after (Keeps.ite _ ((State.count_keeps ..).after (State.setTorn_keeps ..))
          (Keeps.refl _))
      · exact Keeps.refl _
    have hs3 : Keeps s s3 := (State.meHold_keeps ..).after ((State.setEngine_keeps ..).after hs2)
    exact Completes.ite _ (Completes.next ((State.putTile_keeps ..).after hs3)) (Completes.next hs1)
  · exact Completes.next hs1

theorem State.vectorDone_keeps (s : State) (core pe : Nat) (t : Tile) (l : Latch) (sats : Nat) :
    Keeps s (s.vectorDone core pe t l sats) := by
  unfold State.vectorDone
  extract_lets _ _ s1 s2
  have hs1 : Keeps s s1 := State.setEngine_keeps ..
  have hs2 : Keeps s s2 := (State.putTile_keeps ..).after hs1
  exact Keeps.ite _ hs2 ((State.count_keeps ..).after hs2)

theorem State.putVector_keeps (s : State) (core : Nat) (t : Tile) (stride v : Nat) (bs : List Byte) :
    Keeps s (s.putVector core t stride v bs) := by
  unfold State.putVector
  split
  · extract_lets w
    have hw : Keeps s w.1 := State.writeMem_keeps ..
    exact Keeps.ite _ ((State.putTile_keeps ..).after hw) hw
  · exact Keeps.refl _

theorem State.outTable_keeps (s : State) (core pe : Nat) (t : Tile) (l : Latch) : Keeps s (s.outTable core pe t l) := by
  unfold State.outTable
  extract_lets _ _ s1 _ _ s2
  have hs1 : Keeps s s1 := State.readEcc_keeps ..
  have hs2 : Keeps s s2 := (State.putVector_keeps ..).after hs1
  split
  · exact (State.vectorDone_keeps ..).after hs2
  · exact hs2

theorem State.outSpill_keeps (s : State) (core pe : Nat) (t : Tile) (l : Latch) : Keeps s (s.outSpill core pe t l) := by
  unfold State.outSpill
  extract_lets _ s1
  have hs1 : Keeps s s1 := State.putVector_keeps ..
  split
  · exact (State.vectorDone_keeps ..).after hs1
  · exact hs1

theorem execOutputStage_completes (now : Nat) (cl : Cluster) (co : Core) (e : Fin 16) (s : State) :
    Completes s (execOutputStage now cl co e s) := by
  unfold execOutputStage
  extract_lets s1 _ _ _
  have hs1 : Keeps s s1 := State.advance_keeps ..
  split
  · refine Completes.ite _ (Completes.next hs1) ?_
    refine Completes.ite _ (Completes.next ((State.outTable_keeps ..).after hs1)) ?_
    refine Completes.ite _ ?_ ?_
    · exact Completes.next ((State.setEngine_keeps ..).after hs1)
    · exact Completes.next ((State.outSpill_keeps ..).after hs1)
  · exact Completes.next hs1

theorem State.vxeTurn_keeps (s : State) (core : Nat) : Keeps s (s.vxeTurn core) :=
  State.setCoreTiles_keeps ..

theorem execVxeRescale_completes (now : Nat) (cl : Cluster) (co : Core) (s : State) :
    Completes s (execVxeRescale now cl co s) := by
  unfold execVxeRescale
  extract_lets _ s1 s2
  have hs1 : Keeps s s1 := State.advance_keeps ..
  have hs2 : Keeps s s2 := (State.vxeTurn_keeps ..).after hs1
  split
  · split
    · extract_lets _ _ s3 _ _ s4
      have hs3 : Keeps s s3 := (State.readEcc_keeps ..).after hs2
      have hs4 : Keeps s s4 := (State.putVector_keeps ..).after ((State.burn_keeps ..).after hs3)
      split
      · exact Completes.next ((State.vectorDone_keeps ..).after hs4)
      · exact Completes.next hs4
    · exact Completes.next hs1
  · exact Completes.next hs1

theorem execEngineClrCnt_completes (now : Nat) (cl : Cluster) (co : Core) (e : Eng) (s : State) :
    Completes s (execEngineClrCnt now cl co e s) := by
  unfold execEngineClrCnt
  extract_lets s1 _ src
  have hs1 : Keeps s s1 := State.advance_keeps ..
  have hsrc : Keeps s src := Keeps.after (Keeps.foldl _ (fun _ _ => State.setF_keeps ..) _ _) hs1
  clear_value src
  exact Completes.next (Keeps.onReg hs1 (hsrc.trans (Keeps.of_eq rfl rfl rfl)))

theorem State.serveOcu_keeps (s : State) (c : Nat) (r : OcuReq) (rest : List OcuReq) : Keeps s (s.serveOcu c r rest) := by
  unfold State.serveOcu
  extract_lets _ _ s1 s2 _ _ s3
  have hs1 : Keeps s s1 := State.setOcu_keeps ..
  have hs2 : Keeps s s2 := (State.addHold_keeps ..).after hs1
  have hs3 : Keeps s s3 := by
    unfold s3
    split
    · refine Keeps.ite _ ((State.addTerms_keeps ..).after ((State.setEngine_keeps ..).after hs2)) ?_
      split
      · exact Keeps.ite _ ((State.setEngine_keeps ..).after hs2) hs2
      · exact hs2
    · exact hs2
  exact (State.ocuRefill_keeps ..).after hs3

theorem execOcuVectorService_completes (now : Nat) (cl : Cluster) (s : State) : Completes s
    (execOcuVectorService now cl s) := by
  unfold execOcuVectorService
  extract_lets s1
  have hs1 : Keeps s s1 := State.advance_keeps ..
  split
  · exact Completes.ite _ (Completes.next hs1) (Completes.next ((State.serveOcu_keeps ..).after hs1))
  · exact Completes.next hs1

theorem execOcuEscalationService_completes (now : Nat) (cl : Cluster) (s : State) :
    Completes s (execOcuEscalationService now cl s) := by
  unfold execOcuEscalationService
  extract_lets s1
  have hs1 : Keeps s s1 := State.advance_keeps ..
  split
  · exact Completes.ite _ (Completes.next ((State.serveOcu_keeps ..).after hs1)) (Completes.next hs1)
  · exact Completes.next hs1

theorem execOcuClrCnt_completes (now : Nat) (cl : Cluster) (s : State) : Completes s (execOcuClrCnt now cl s) := by
  unfold execOcuClrCnt
  extract_lets _ s1 _ t
  have hs1 : Keeps s s1 := State.advance_keeps ..
  have ht : Keeps s t := (State.setOcu_keeps ..).after hs1
  exact Completes.next (Keeps.onReg hs1 ((State.setF_keeps ..).after ((State.setF_keeps ..).after
      ((State.setF_keeps ..).after ht))))

/-! ### The operations of Machine/Loader.lean -/

theorem State.loaderAnswer_keeps (s : State) (owner : Nat) (tag : Option Nat) (code info : Nat) :
    Keeps s (s.loaderAnswer owner tag code info) := by
  unfold State.loaderAnswer
  split
  · exact State.complete_keeps ..
  · exact Keeps.refl _

theorem State.swapEnd_keeps (s : State) (j : Job) (ok : Bool) : Keeps s (s.swapEnd j ok) := by
  unfold State.swapEnd
  extract_lets _ s1 _
  have hs1 : Keeps s s1 := State.setStation_keeps ..
  refine Keeps.ite _ ?_ ?_
  · exact Keeps.refl _
  · exact Keeps.ite _ hs1 ((State.unpark_keeps ..).after (Keeps.ite _ hs1 ((State.park_keeps ..).after hs1)))

theorem State.jobResult_keeps (s : State) (j : Job) (st clamped code : Nat) : Keeps s (s.jobResult j st clamped code) := by
  unfold State.jobResult
  extract_lets s1 s2
  have hs1 : Keeps s s1 := State.swapEnd_keeps ..
  have hs2 : Keeps s s2 := Keeps.ite _ hs1 ((State.capture_keeps ..).after hs1)
  exact (State.loaderAnswer_keeps ..).after hs2

theorem State.settleHead_keeps (s : State) (owner n : Nat) : Keeps s (s.settleHead owner n) := by
  induction n generalizing s with
  | zero => exact Keeps.refl s
  | succ n ih =>
    unfold State.settleHead
    split
    · exact Keeps.ite _ ((ih _).after ((State.jobResult_keeps ..).after (State.setJobQ_keeps ..))) (Keeps.refl s)
    · exact Keeps.refl s

theorem State.loaderCommand_keeps (s : State) (fn op tag : Nat) (f : State → State) (hf : ∀ (t : State), Keeps t (f t)) :
    Keeps s (s.loaderCommand fn op tag f) := by
  unfold State.loaderCommand
  split
  · exact (hf ..).after (State.takeAccepted_keeps ..)
  · exact Keeps.refl _

theorem State.enqueue_keeps (s : State) (j : Job) : Keeps s (s.enqueue j) := by
  unfold State.enqueue
  extract_lets _ s1
  have hs1 : Keeps s s1 := State.setJobQ_keeps ..
  exact Keeps.ite _ (State.loaderAnswer_keeps ..) (Keeps.ite _ ((State.settleHead_keeps ..).after hs1) hs1)

theorem execImportKey_completes (now : Nat) (fn : Func) (tag : BitVec 16) (addr : BitVec 64) (s : State) :
    Completes s (execImportKey now fn tag addr s) :=
  Completes.next (Keeps.after (State.loaderCommand_keeps _ _ _ _ _ (fun _ => State.enqueue_keeps ..)) (State.advance_keeps ..))

theorem execLoad_completes (now : Nat) (fn : Func) (tag : BitVec 16) (addr : BitVec 64) (len : Nat) (force : Bool) (s : State) :
    Completes s (execLoad now fn tag addr len force s) :=
  Completes.next (Keeps.after (State.loaderCommand_keeps _ _ _ _ _ (fun _ => State.enqueue_keeps ..)) (State.advance_keeps ..))

theorem State.enqueueSwap_keeps (s : State) (j : Job) : Keeps s (s.enqueueSwap j) := by
  unfold State.enqueueSwap
  extract_lets _ _
  refine Keeps.ite _ ?_ ?_
  · exact State.loaderAnswer_keeps ..
  · exact (State.enqueue_keeps ..).after (Keeps.ite _ (State.setStation_keeps ..) (Keeps.refl _))

theorem execSwap_completes (now : Nat) (fn : Func) (tag : BitVec 16) (st : StationId) (model : Word) (layer : BitVec 16)
    (shards : List (BitVec 64)) (opws : List Word) (table : List Byte) (tableOff : BitVec 19) (s : State) :
    Completes s (execSwap now fn tag st model layer shards opws table tableOff s) :=
  Completes.next (Keeps.after (State.loaderCommand_keeps _ _ _ _ _ (fun _ => State.enqueueSwap_keeps ..))
      (State.advance_keeps ..))

theorem execSweepLoad_completes (now : Nat) (fn : Func) (tag : BitVec 16) (st : StationId) (model : Word)
    (layer : BitVec 16) (shards : List (BitVec 64)) (opws : List Word) (table : List Byte) (tableOff : BitVec 19)
        (tiles : Fin 129) (s : State) :
    Completes s (execSweepLoad now fn tag st model layer shards opws table tableOff tiles s) :=
  Completes.next (Keeps.after (State.loaderCommand_keeps _ _ _ _ _ (fun _ => Keeps.ite _ (State.complete_keeps ..)
      (State.enqueueSwap_keeps ..))) (State.advance_keeps ..))

theorem execErase_completes (now : Nat) (fn : Func) (tag : BitVec 16) (what : EraseTarget) (s : State) :
    Completes s (execErase now fn tag what s) :=
  Completes.next (Keeps.after (State.loaderCommand_keeps _ _ _ _ _ (fun _ => State.enqueue_keeps ..)) (State.advance_keeps ..))

theorem State.jobEnd_keeps (s : State) (b : Nat) (x : Beaver) (code : Nat) : Keeps s (s.jobEnd b x code) :=
  (State.jobResult_keeps ..).after ((State.loaderCharge_keeps ..).after ((State.beaverStop_keeps ..).after
      (State.setBeaver_keeps ..)))

theorem State.jobFail_keeps (s : State) (b : Nat) (x : Beaver) (code : Nat) : Keeps s (s.jobFail b x code) := by
  unfold State.jobFail
  extract_lets s1 s2
  have hs1 : Keeps s s1 := by
    unfold s1
    split
    · exact State.setShard_keeps ..
    · exact Keeps.refl _
  have hs2 : Keeps s s2 := (State.jobEnd_keeps ..).after hs1
  exact Keeps.ite _ ((State.queueOwn_keeps ..).after hs2) hs2

theorem State.beaverGo_keeps (s : State) (b : Nat) (x : Beaver) : Keeps s (s.beaverGo b x) :=
  State.beaverBegin_keeps ..

theorem State.leaveOld_keeps (s : State) (st : Nat) : Keeps s (s.leaveOld st) := by
  unfold State.leaveOld
  extract_lets _
  exact Keeps.ite _ ((State.moveToSpare_keeps ..).after (State.setStation_keeps ..)) (Keeps.refl _)

theorem State.programStart_keeps (s : State) (b : Nat) (x : Beaver) (h : ShardHead) (codes : List Int) (clamped : Nat) :
    Keeps s (s.programStart b x h codes clamped) := by
  unfold State.programStart
  extract_lets _ _ _ _ t _ _
  have ht : Keeps s t := Keeps.foldl _ (fun _ _ => State.setShard_keeps ..) _ _
  split
  · exact State.jobFail_keeps ..
  · extract_lets t1 t2 t3
    have ht1 : Keeps s t1 := (State.setShard_keeps ..).after ht
    have ht2 : Keeps s t2 := by
      unfold t2
      refine Keeps.ite _ ?_ ?_
      · exact Keeps.after (Keeps.foldl _ (fun _ _ => (State.leaveOld_keeps ..).after (State.park_keeps ..)) _ _) ht1
      · exact ht1
    have ht3 : Keeps s t3 := ht2.trans (Keeps.of_eq rfl rfl rfl)
    exact Keeps.ite _ (State.jobFail_keeps ..) ((State.beaverGo_keeps ..).after ht3)

theorem State.writeShadow_keeps (s : State) (x : Beaver) (g row : Nat) : Keeps s (s.writeShadow x g row) := by
  unfold State.writeShadow
  extract_lets _ _
  split
  · extract_lets _
    refine Keeps.ite _ ?_ (Keeps.refl _)
    refine Keeps.foldl _ (fun t x => ?_) _ _
    exact Keeps.of_eq rfl rfl rfl
  · exact Keeps.refl _

theorem State.meanIterations_keeps (s : State) (g sum : Nat) : Keeps s (s.meanIterations g sum) := by
  unfold State.meanIterations
  extract_lets _ s1
  have hs1 : Keeps s s1 := (State.setF_keeps ..).after (Keeps.ite _ (Keeps.refl _) (State.burn_keeps ..))
  exact Keeps.ite _ ((State.raise_keeps ..).after ((State.setF_keeps ..).after hs1)) hs1

theorem State.unparkLoaded_keeps (s : State) (rgs : List Nat) : Keeps s (s.unparkLoaded rgs) := by
  unfold State.unparkLoaded
  refine Keeps.foldl _ (fun t x => ?_) _ _
  extract_lets _ _ t1
  have ht1 : Keeps t t1 := Keeps.ite _ (State.unpark_keeps ..) (Keeps.refl _)
  exact Keeps.ite _ ht1 ((State.unpark_keeps ..).after ht1)

theorem State.swapCommit_keeps (s : State) (b : Nat) (x : Beaver) : Keeps s (s.swapCommit b x) := by
  unfold State.swapCommit
  extract_lets _ _ _ _ s1 s2 s3 _
  have hs1 : Keeps s s1 := Keeps.ite _ (Keeps.refl _) (State.writeMem_keeps ..)
  have hs2 : Keeps s s2 := (State.writeDesc_keeps ..).after ((State.setImage_keeps ..).after hs1)
  have hs3 : Keeps s s3 := (State.setStation_keeps ..).after hs2
  refine Keeps.ite _ (State.jobFail_keeps ..) ?_
  refine Keeps.ite _ ?_ ?_
  · exact (State.jobEnd_keeps ..).after ((State.unpark_keeps ..).after hs3)
  · exact (State.jobEnd_keeps ..).after ((State.setStation_keeps ..).after hs1)

theorem State.shardCommit_keeps (s : State) (b : Nat) (x : Beaver) : Keeps s (s.shardCommit b x) := by
  unfold State.shardCommit
  split
  · exact State.jobEnd_keeps ..
  · extract_lets r s1 s2 rest
    have h1 : Keeps s s1 := State.setShard_keeps ..
    have h2 : Keeps s s2 := (State.addHold_keeps ..).after (Keeps.after (Keeps.foldl _
        (fun _ _ => State.rgProgrammed_keeps ..) _ _) h1)
    refine Keeps.ite _ ((State.jobEnd_keeps ..).after ((State.unparkLoaded_keeps ..).after h2)) ?_
    cases rest with
    | nil => exact (State.swapCommit_keeps ..).after h2
    | cons a as => exact (State.emit_keeps ..).after ((State.setBeaver_keeps ..).after ((State.beaverStop_keeps ..).after h2))

theorem State.spareDone_keeps (s : State) (rgs : List Nat) : Keeps s (s.spareDone rgs) := by
  unfold State.spareDone
  extract_lets _ s1 s2 s3
  have hs1 : Keeps s s1 := Keeps.of_eq rfl rfl rfl
  have hs2 : Keeps s s2 := Keeps.after (Keeps.foldl _ (fun _ _ => State.rgProgrammed_keeps ..) _ _) hs1
  have hs3 : Keeps s s3 := Keeps.after (Keeps.foldl _ (fun _ _ => State.moveToSpare_keeps ..) _ _) hs2
  exact (State.unparkLoaded_keeps ..).after hs3

theorem State.beaverNext_keeps (s : State) (b : Nat) (x : Beaver) : Keeps s (s.beaverNext b x) := by
  unfold State.beaverNext
  extract_lets _
  refine Keeps.ite _ ?_ ?_
  · exact State.beaverGo_keeps ..
  · exact (State.shardCommit_keeps ..).after (Keeps.ite _ (State.spareDone_keeps ..) (Keeps.refl _))

theorem State.jobEngineGone_keeps (s : State) (b pe : Nat) : Keeps s (s.jobEngineGone b pe) := by
  unfold State.jobEngineGone
  extract_lets _ _ _
  split
  · exact Keeps.refl _
  · refine Keeps.ite _ ?_ ?_
    · exact State.beaverNext_keeps ..
    · exact Keeps.ite _ (State.jobFail_keeps ..) (State.beaverNext_keeps ..)

theorem State.jobEngineFails_keeps (s : State) (b : Nat) (x : Beaver) (pe : Nat) : Keeps s (s.jobEngineFails b x pe) :=
  (State.jobEngineGone_keeps ..).after ((State.retire_keeps ..).after (State.setBeaver_keeps ..))

theorem State.sweepTake_keeps (s : State) (g n : Nat) : Keeps s (s.sweepTake g n) :=
  State.setTracker_keeps ..

theorem State.erased_keeps (s : State) (x : Beaver) (g : Nat) : Keeps s (s.erased x g) := by
  unfold State.erased
  extract_lets _ s1 s2 s3
  have hs1 : Keeps s s1 := (State.addHold_keeps ..).after (State.eraseRg_keeps ..)
  have hs2 : Keeps s s2 := Keeps.ite _ ((State.raise_keeps ..).after hs1) hs1
  have hs3 : Keeps s s3 := Keeps.ite _ hs2 (hs2.trans (Keeps.of_eq rfl rfl rfl))
  exact Keeps.ite _ ((State.sweepTake_keeps ..).after hs3) hs3

theorem execEraseStep_completes (now : Nat) (b : Fin 2) (cl : Cluster) (co : Core) (e : Eng) (rg : RowGroup)
    (clean : Bool) (s : State) :
    Completes s (execEraseStep now b cl co e rg clean s) := by
  unfold execEraseStep
  extract_lets s1 _ _
  have hs1 : Keeps s s1 := State.advance_keeps ..
  split
  · exact Completes.next hs1
  · extract_lets t t1
    have ht : Keeps s t := by
      unfold t
      refine Keeps.ite _ ?_ ?_
      · exact Keeps.after (Keeps.foldl _ (fun _ _ => State.setShard_keeps ..) _ _) (Keeps.after (Keeps.foldl _
          (fun _ _ => State.park_keeps ..) _ _) hs1)
      · exact hs1
    have ht1 : Keeps s t1 := (State.opDone_keeps ..).after ((State.setBeaver_keeps ..).after ht)
    refine Completes.ite _ (Completes.next hs1) ?_
    refine Completes.ite _ (Completes.next ((State.jobEngineGone_keeps ..).after hs1)) ?_
    refine Completes.ite _ (Completes.next ((State.beaverNext_keeps ..).after hs1)) ?_
    refine Completes.ite _ (Completes.next ((State.freeToken_keeps ..).after ((State.beaverNext_keeps ..).after
        ((State.erased_keeps ..).after ht1)))) ?_
    refine Completes.ite _ ?_ ?_
    · exact Completes.next ((State.freeToken_keeps ..).after ((State.jobEngineFails_keeps ..).after
        ((State.addHold_keeps ..).after ht1)))
    · exact Completes.next ((State.freeToken_keeps ..).after ((State.beaverGo_keeps ..).after ht1))

theorem State.rowDone_keeps (s : State) (b : Nat) (x : Beaver) (g row : Nat) : Keeps s (s.rowDone b x g row) := by
  unfold State.rowDone
  extract_lets _ s1 _ s2
  have hs1 : Keeps s s1 := State.writeShadow_keeps ..
  have hs2 : Keeps s s2 := Keeps.ite _ hs1 ((State.meanIterations_keeps ..).after hs1)
  exact (State.beaverNext_keeps ..).after hs2

theorem State.rowAfter_keeps (s : State) (b : Nat) (x : Beaver) (g row : Nat) : Keeps s (s.rowAfter b x g row) := by
  unfold State.rowAfter
  extract_lets _ _
  split
  · exact State.rowDone_keeps ..
  · split
    · exact State.jobEngineFails_keeps ..
    · exact State.beaverGo_keeps ..

theorem State.rowIteration_keeps (s : State) (b : Nat) (x : Beaver) (g row : Nat) (read : List Nat) :
    Keeps s (s.rowIteration b x g row read) := by
  unfold State.rowIteration
  extract_lets _ _ s1 _
  have hs1 : Keeps s s1 := Keeps.foldl _ (fun _ _ => State.setLevel_keeps ..) _ _
  exact Keeps.ite _ ((State.beaverGo_keeps ..).after hs1) ((State.rowAfter_keeps ..).after hs1)

theorem State.spareIteration_keeps (s : State) (b : Nat) (x : Beaver) (w : SpareWork) (read : List Nat) :
    Keeps s (s.spareIteration b x w read) := by
  unfold State.spareIteration
  extract_lets done
  have hdone (t : State) (w : SpareWork) : Keeps t (done t w) := by
    unfold done
    extract_lets u
    have hu : Keeps t u := State.spareTake_keeps ..
    split
    · exact (State.rowAfter_keeps ..).after hu
    · exact (State.beaverNext_keeps ..).after hu
  clear_value done
  split
  · exact hdone s w
  · split
    · extract_lets t
      have ht : Keeps s t := State.setLevel_keeps ..
      exact Keeps.ite _ ((hdone ..).after ht) ((State.beaverGo_keeps ..).after ht)
    · refine Keeps.ite _ (State.beaverGo_keeps ..) ?_
      have hfail := State.spareFails_keeps s w
      split
      next t u ht => rw [ht] at hfail; exact (State.beaverGo_keeps ..).after hfail
      next t ht => rw [ht] at hfail; exact (State.jobEngineFails_keeps ..).after hfail

theorem execProgramIteration_completes (now : Nat) (b : Fin 2) (cl : Cluster) (co : Core) (e : Eng) (accepted : List
    (Fin 276)) (s : State) :
    Completes s (execProgramIteration now b cl co e accepted s) := by
  unfold execProgramIteration
  extract_lets s1 _ _ t
  have hs1 : Keeps s s1 := State.advance_keeps ..
  have ht : Keeps s t := (State.opDone_keeps ..).after hs1
  split
  · exact Completes.next hs1
  · refine Completes.ite _ (Completes.next hs1) ?_
    refine Completes.ite _ (Completes.next ((State.jobEngineGone_keeps ..).after hs1)) ?_
    split
    · exact Completes.next ((State.freeToken_keeps ..).after ((State.spareIteration_keeps ..).after ht))
    · exact Completes.next ((State.freeToken_keeps ..).after ((State.rowIteration_keeps ..).after ht))
    · exact Completes.next ht

theorem State.jobBegin_keeps (s : State) (b : Nat) (j : Job) (data : List Byte) : Keeps s (s.jobBegin b j data) := by
  unfold State.jobBegin
  extract_lets _ _ _ s1 _ _ _ _ _ _ _
  have hs1 : Keeps s s1 := State.emit_keeps ..
  split
  · exact (State.emit_keeps ..).after (State.setBeaver_keeps ..)
  · refine Keeps.ite _ ((State.jobEnd_keeps ..).after hs1) ?_
    refine Keeps.ite _ ?_ ?_
    · exact (State.jobEnd_keeps ..).after hs1
    · exact (State.emit_keeps ..).after ((State.setBeaver_keeps ..).after hs1)
  · refine Keeps.ite _ ?_ ?_
    · exact (State.jobEnd_keeps ..).after (Keeps.ite _ (State.foreignCapture_keeps ..) (Keeps.refl _))
    · exact (State.emit_keeps ..).after (State.setBeaver_keeps ..)
  · refine Keeps.ite _ ?_ ?_
    · exact (State.jobEnd_keeps ..).after (Keeps.ite _ (State.foreignCapture_keeps ..) (Keeps.refl _))
    · exact (State.emit_keeps ..).after (State.setBeaver_keeps ..)
  · exact Keeps.ite _ (State.jobEnd_keeps ..) (State.beaverNext_keeps ..)
  · exact State.beaverNext_keeps ..
  · exact State.beaverNext_keeps ..
  · split
    · exact State.jobEnd_keeps ..
    · refine Keeps.ite _ (State.jobEnd_keeps ..) ?_
      split
      · exact State.jobEngineFails_keeps ..
      · exact Keeps.ite _ ((State.jobEnd_keeps ..).after (State.spareTake_keeps ..)) (State.beaverGo_keeps ..)

theorem execLoaderJobStart_completes (now : Nat) (b : Fin 2) (data : List Byte) (s : State) :
    Completes s (execLoaderJobStart now b data s) := by
  unfold execLoaderJobStart
  extract_lets s1 _ _ src
  have hs1 : Keeps s s1 := State.advance_keeps ..
  have hsrc : Keeps s src := (State.unclean_keeps ..).after hs1
  refine Completes.ite _ (Completes.next hs1) ?_
  split
  · exact Completes.next hs1
  · extract_lets _ s2
    have hs2 : Keeps s s2 := hsrc.trans (Keeps.of_eq rfl rfl rfl)
    refine Completes.ite _ ?_ ?_
    · exact Completes.next ((State.emit_keeps ..).after ((State.setJobQ_keeps ..).after hs2))
    · exact Completes.next ((State.settleHead_keeps ..).after ((State.jobBegin_keeps ..).after
        ((State.setJobQ_keeps ..).after hs2)))

theorem State.payload_keeps (s : State) (b : Nat) (x : Beaver) (h : ShardHead) (cipher tag : List Byte) :
    Keeps s (s.payload b x h cipher tag) := by
  unfold State.payload
  extract_lets _
  split
  · exact State.jobFail_keeps ..
  · split
    · exact State.jobFail_keeps ..
    · refine Keeps.ite _ ?_ ?_
      · exact State.jobFail_keeps ..
      · exact Keeps.ite _ (State.setBeaver_keeps ..) (State.programStart_keeps ..)

theorem execPayloadFetchDone_completes (now : Nat) (b : Fin 2) (data : List Byte) (s : State) :
    Completes s (execPayloadFetchDone now b data s) := by
  unfold execPayloadFetchDone
  extract_lets s1 _
  have hs1 : Keeps s s1 := State.advance_keeps ..
  split
  · exact Completes.next hs1
  · extract_lets _ _ _ s2
    have hs2 : Keeps s s2 := (State.emit_keeps ..).after hs1
    refine Completes.ite _ (Completes.next hs1) ?_
    split
    · refine Completes.ite _ ?_ ?_
      · exact Completes.next ((State.jobEnd_keeps ..).after hs1)
      · exact Completes.next ((State.jobEnd_keeps ..).after (hs1.trans (Keeps.of_eq rfl rfl rfl)))
    · split
      · exact Completes.next ((State.payload_keeps ..).after hs1)
      · exact Completes.next hs1
    · refine Completes.ite _ ?_ ?_
      · exact Completes.next ((State.jobFail_keeps ..).after hs2)
      · exact Completes.next ((State.payload_keeps ..).after hs2)
    · refine Completes.ite _ ?_ ?_
      · exact Completes.next ((State.jobFail_keeps ..).after hs2)
      · exact Completes.next ((State.payload_keeps ..).after hs2)
    · exact Completes.next hs1
    · exact Completes.next hs1
    · exact Completes.next hs1
    · exact Completes.next hs1

theorem execSweepTilesDone_completes (now : Nat) (st : StationId) (s : State) : Completes s (execSweepTilesDone now st s) := by
  unfold execSweepTilesDone
  extract_lets s1 _
  have hs1 : Keeps s s1 := State.advance_keeps ..
  refine Completes.ite _ ?_ ?_
  · exact Completes.next hs1
  · exact Completes.next ((State.service_keeps ..).after ((State.setStation_keeps ..).after hs1))

theorem execSweepBudgetReady_completes (now : Nat) (cl : Cluster) (co : Core) (e : Eng) (rg : RowGroup) (s : State) :
    Completes s (execSweepBudgetReady now cl co e rg s) := by
  unfold execSweepBudgetReady
  extract_lets s1
  have hs1 : Keeps s s1 := State.advance_keeps ..
  exact Completes.next ((State.sweepTake_keeps ..).after hs1)

theorem execReadbackStart_completes (now : Nat) (b : Fin 2) (s : State) : Completes s (execReadbackStart now b s) := by
  unfold execReadbackStart
  extract_lets s1 _ _
  have hs1 : Keeps s s1 := State.advance_keeps ..
  refine Completes.ite _ (Completes.next hs1) ?_
  split
  · exact Completes.next hs1
  · exact Completes.next ((State.beaverBegin_keeps ..).after hs1)

theorem State.judgeShard_keeps (s : State) (n : Nat) (kmReadable settReadable : Bool) :
    Keeps s (s.judgeShard n kmReadable settReadable) := by
  unfold State.judgeShard
  extract_lets _ _ _ _ s1 s2
  have hs1 : Keeps s s1 := State.addHold_keeps ..
  have hs2 : Keeps s s2 := (State.setShard_keeps ..).after hs1
  refine Keeps.ite _ ?_ ?_
  · exact Keeps.ite _ hs2 ((State.raise_keeps ..).after ((State.addHold_keeps ..).after hs2))
  · exact (State.suspectShard_keeps ..).after hs1

theorem State.spotSettle_keeps (s : State) : Keeps s (s.spotSettle) :=
  Keeps.ite _ (Keeps.of_eq rfl rfl rfl) (Keeps.refl _)

theorem execReadbackDone_completes (now : Nat) (b : Fin 2) (snaps : List (Nat × Nat)) (drifted : List Nat)
    (kmReadable settReadable : Bool) (s : State) :
    Completes s (execReadbackDone now b snaps drifted kmReadable settReadable s) := by
  unfold execReadbackDone
  extract_lets s1
  have hs1 : Keeps s s1 := State.advance_keeps ..
  split
  · exact Completes.next hs1
  · extract_lets _ s2
    have hs2 : Keeps s s2 := Keeps.after (Keeps.foldl _ (fun _ _ => State.opDone_keeps ..) _ _)
        ((State.beaverStop_keeps ..).after hs1)
    split
    · exact Completes.next hs1
    · extract_lets _ _ s3 s4 _ s5
      have hs3 : Keeps s s3 := by
        unfold s3
        refine Keeps.after (Keeps.foldl _ (fun t x => ?_) _ _) hs2
        exact Keeps.of_eq rfl rfl rfl
      have hs4 : Keeps s s4 := Keeps.after (Keeps.foldl _ (fun _ _ => State.earlyTouchup_keeps ..) _ _) hs3
      have hs5 : Keeps s s5 := (State.spotSettle_keeps ..).after ((State.judgeShard_keeps ..).after hs4)
      refine Completes.ite _ (Completes.next ((State.spotSettle_keeps ..).after ((State.beaverStop_keeps ..).after hs1))) ?_
      refine Completes.ite _ ?_ ?_
      · exact Completes.next hs1
      · exact Completes.next (Keeps.after (Keeps.foldl _ (fun _ _ => (State.burn_keeps ..).after
          (State.weakCell_keeps ..)) _ _) hs5)

theorem execReadbackOverdue_completes (now : Nat) (n : Fin 1024) (s : State) : Completes s (execReadbackOverdue now n s) := by
  unfold execReadbackOverdue
  extract_lets s1 _
  have hs1 : Keeps s s1 := State.advance_keeps ..
  refine Completes.ite _ ?_ ?_
  · exact Completes.next hs1
  · exact Completes.next ((State.addHold_keeps ..).after ((State.setShard_keeps ..).after hs1))

theorem execWldErrClear_completes (now : Nat) (s : State) : Completes s (execWldErrClear now s) := by
  unfold execWldErrClear
  extract_lets s1
  have hs1 : Keeps s s1 := State.advance_keeps ..
  exact Completes.next (Keeps.onReg hs1 ((State.setF_keeps ..).after hs1))

theorem State.abortJobs_keeps (s : State) (owner : Nat) : Keeps s (s.abortJobs owner) := by
  unfold State.abortJobs
  extract_lets s1 s2
  have hs1 : Keeps s s1 := Keeps.foldl _ (fun _ _ => State.swapEnd_keeps ..) _ _
  have hs2 : Keeps s s2 := (State.setJobQ_keeps ..).after hs1
  refine Keeps.after (Keeps.foldl _ (fun t x => ?_) _ _) hs2
  split
  · exact Keeps.ite _ (State.jobFail_keeps ..) (Keeps.refl _)
  · exact Keeps.refl _

/-! ### The operations of Machine/Thermal.lean -/

theorem State.setSensor_keeps (s : State) (n : Nat) (x : Sensor) : Keeps s (s.setSensor n x) :=
  Keeps.of_eq rfl rfl rfl

theorem State.takeMeans_keeps (s : State) : Keeps s (s.takeMeans) := by
  unfold State.takeMeans
  refine Keeps.foldl _ (fun t x => ?_) _ _
  extract_lets _
  exact Keeps.ite _ (Keeps.refl _) ((State.burn_keeps ..).after (State.setF_keeps ..))

theorem State.crossCheck_keeps (u s : State) (n : Nat) : Keeps s (u.crossCheck s n) := by
  unfold State.crossCheck
  extract_lets _ _ s1 s2
  have hs1 : Keeps s s1 := State.setSensor_keeps ..
  have hs2 : Keeps s s2 := State.setSensor_keeps ..
  refine Keeps.ite _ ?_ ?_
  · exact Keeps.ite _ ((State.raise_keeps ..).after ((State.setF_keeps ..).after hs1)) hs1
  · exact Keeps.ite _ ((State.setF_keeps ..).after hs2) hs2

theorem State.takeMedians_keeps (s : State) : Keeps s (s.takeMedians) := by
  unfold State.takeMedians
  extract_lets s1 _
  have hs1 : Keeps s s1 := by
    unfold s1
    refine Keeps.foldl _ (fun t x => ?_) _ _
    extract_lets _ t1
    have ht1 : Keeps t t1 := Keeps.of_eq rfl rfl rfl
    exact Keeps.ite _ ht1 ((State.burn_keeps ..).after ((State.setF_keeps ..).after ht1))
  exact Keeps.ite _ hs1 ((State.burn_keeps ..).after ((State.setF_keeps ..).after hs1))

theorem State.bandSet_keeps (s : State) (c b : Nat) : Keeps s (s.bandSet c b) := by
  unfold State.bandSet
  extract_lets _ _ s1 s2
  have hs1 : Keeps s s1 := Keeps.of_eq rfl rfl rfl
  have hs2 : Keeps s s2 := (State.setF_keeps ..).after ((State.unclean_keeps ..).after hs1)
  exact Keeps.ite _ (Keeps.refl _) (Keeps.ite _ ((State.bandPass_keeps ..).after hs2) hs2)

theorem State.bandStep_keeps (s : State) (c : Nat) : Keeps s (s.bandStep c) := by
  unfold State.bandStep
  extract_lets _ _ t
  have ht : Keeps s t := Keeps.of_eq rfl rfl rfl
  refine Keeps.ite _ (Keeps.refl _) ?_
  refine Keeps.ite _ ?_ ?_
  · exact (State.bandSet_keeps ..).after ht
  · exact Keeps.ite _ ((State.bandSet_keeps ..).after ht) (Keeps.refl _)

theorem execBandChange_completes (now : Nat) (cl : Cluster) (s : State) : Completes s (execBandChange now cl s) :=
  Completes.next ((State.bandStep_keeps ..).after (State.advance_keeps ..))

theorem State.thrSet_keeps (s : State) (c v : Nat) : Keeps s (s.thrSet c v) := by
  unfold State.thrSet
  extract_lets t _ _ t1
  have ht : Keeps s t := State.setF_keeps ..
  have ht1 : Keeps s t1 := (State.setF_keeps ..).after ht
  exact Keeps.ite _ (ht1.trans (Keeps.of_eq rfl rfl rfl)) ht

theorem execThrottleStep_completes (now : Nat) (cl : Cluster) (s : State) : Completes s (execThrottleStep now cl s) := by
  unfold execThrottleStep
  extract_lets s1 _ _ _ t
  have hs1 : Keeps s s1 := (State.bandStep_keeps ..).after (State.advance_keeps ..)
  have ht : Keeps s t := hs1.trans (Keeps.of_eq rfl rfl rfl)
  refine Completes.ite _ (Completes.next hs1) ?_
  refine Completes.ite _ ?_ ?_
  · exact Completes.next ((State.thrSet_keeps ..).after ht)
  · exact Completes.ite _ (Completes.next ((State.thrSet_keeps ..).after ht)) (Completes.next ht)

theorem State.clusterOff_keeps (s : State) (c : Nat) : Keeps s (s.clusterOff c) := by
  unfold State.clusterOff
  extract_lets s1
  have hs1 : Keeps s s1 := Keeps.foldl _ (fun _ _ => Keeps.ite _ (State.coreOff_keeps ..) (Keeps.refl _)) _ _
  exact Keeps.ite _ ((State.sharedOff_keeps ..).after hs1) hs1

theorem State.clusterDead_keeps (s : State) (c : Nat) : Keeps s (s.clusterDead c) := by
  unfold State.clusterDead
  extract_lets s1 _ s2
  have hs1 : Keeps s s1 := State.clusterOff_keeps ..
  have hs2 : Keeps s s2 := Keeps.after (Keeps.foldl _ (fun _ _ => State.park_keeps ..) _ _) hs1
  exact (State.raise_keeps ..).after (hs2.trans (Keeps.of_eq rfl rfl rfl))

theorem State.countSensors_keeps (s : State) (c : Nat) : Keeps s (s.countSensors c) := by
  unfold State.countSensors
  extract_lets _ s1
  have hs1 : Keeps s s1 := by
    unfold s1
    refine Keeps.ite _ ?_ ?_
    · exact (State.setF_keeps ..).after ((State.thrSet_keeps ..).after (State.bandSet_keeps ..))
    · exact State.setF_keeps ..
  exact Keeps.ite _ ((State.clusterDead_keeps ..).after hs1) hs1

theorem execSensorCheck_completes (now : Nat) (s : State) : Completes s (execSensorCheck now s) := by
  unfold execSensorCheck
  extract_lets u src s1
  have hu : Keeps s u := (State.takeMeans_keeps ..).after (State.advance_keeps ..)
  have hsrc : Keeps s src := (State.takeMedians_keeps ..).after (Keeps.after (Keeps.foldl _
      (fun _ _ => State.crossCheck_keeps ..) _ _) hu)
  clear_value src
  have hs1 : Keeps s s1 := hsrc.trans (Keeps.of_eq rfl rfl rfl)
  exact Completes.next (Keeps.after (Keeps.foldl _ (fun _ _ => State.countSensors_keeps ..) _ _) hs1)

theorem State.loaderAbort_keeps (s : State) : Keeps s (s.loaderAbort) := by
  unfold State.loaderAbort
  extract_lets s1 s2 src
  have hs1 : Keeps s s1 := by
    unfold s1
    refine Keeps.foldl _ (fun t x => ?_) _ _
    split
    · exact Keeps.ite _ (State.beaverStop_keeps ..) (State.jobFail_keeps ..)
    · exact Keeps.refl _
  have hs2 : Keeps s s2 := Keeps.after (Keeps.foldl _ (fun _ _ => (State.setJobQ_keeps ..).after (Keeps.foldl _
      (fun _ _ => (State.loaderAnswer_keeps ..).after (State.swapEnd_keeps ..)) _ _)) _ _) hs1
  have hsrc : Keeps s src := (State.setJobQ_keeps ..).after hs2
  clear_value src
  exact hsrc.trans (Keeps.of_eq rfl rfl rfl)

theorem State.pgmOff_keeps (s : State) : Keeps s (s.pgmOff) :=
  Keeps.foldl _ (fun _ _ => Keeps.ite _ (State.emit_keeps ..) (Keeps.refl _)) _ _

theorem State.shutdown_keeps (s : State) (sensor : Nat) : Keeps s (s.shutdown sensor) := by
  unfold State.shutdown
  extract_lets s1 s2 s3 s4 _ s5 src s6
  have hs1 : Keeps s s1 := (State.raise_keeps ..).after ((State.setF_keeps ..).after (State.setF_keeps ..))
  have hs2 : Keeps s s2 := (State.loaderAbort_keeps ..).after hs1
  have hs3 : Keeps s s3 := Keeps.after (Keeps.foldl _ (fun _ _ => State.clusterOff_keeps ..) _ _) hs2
  have hs4 : Keeps s s4 := Keeps.after (Keeps.foldl _ (fun _ _ => Keeps.ite _ (State.dieOff_keeps ..) (Keeps.refl _)) _ _) hs3
  clear_value s4
  have hs5 : Keeps s s5 := hs4.trans (Keeps.of_eq rfl rfl rfl)
  have hsrc : Keeps s src := (State.pgmOff_keeps ..).after hs5
  clear_value src
  have hs6 : Keeps s s6 := hsrc.trans (Keeps.of_eq rfl rfl rfl)
  exact Keeps.ite _ ((State.emit_keeps ..).after hs6) hs6

theorem execSensorRead_completes (now : Nat) (temps : List Int) (s : State) : Completes s (execSensorRead now temps s) := by
  unfold execSensorRead
  extract_lets s1 s2 _
  have hs1 : Keeps s s1 := State.advance_keeps ..
  have hs2 : Keeps s s2 := by
    unfold s2
    refine Keeps.after (Keeps.foldl _ (fun t x => ?_) _ _) hs1
    extract_lets _
    split
    · exact State.setSensor_keeps ..
    · exact Keeps.refl _
  split
  · exact Completes.ite _ (Completes.next hs2) (Completes.next ((State.shutdown_keeps ..).after hs2))
  · exact Completes.next hs2

/-! ### The operations of Machine/Power.lean -/

theorem State.poolNow_keeps (s : State) : Keeps s (s.poolNow) := by
  unfold State.poolNow
  extract_lets _ src
  have hsrc : Keeps s src := State.setF_keeps ..
  exact hsrc.trans (Keeps.of_eq rfl rfl rfl)

theorem execCapWrite_completes (now : Nat) (v : BitVec 8) (s : State) : Completes s (execCapWrite now v s) := by
  unfold execCapWrite
  extract_lets s1
  have hs1 : Keeps s s1 := State.advance_keeps ..
  exact Completes.next ((State.setF_keeps ..).after ((State.setF_keeps ..).after hs1))

theorem execBudgetRefill_completes (now base : Nat) (s : State) : Completes s (execBudgetRefill now base s) := by
  unfold execBudgetRefill
  extract_lets s1 _ src s2 _ _ _ s3 _ _ s4 _ t _ _
  have hs1 : Keeps s s1 := State.advance_keeps ..
  have hsrc : Keeps s src := (State.setF_keeps ..).after hs1
  have hs2 : Keeps s s2 := (State.poolNow_keeps ..).after (hsrc.trans (Keeps.of_eq rfl rfl rfl))
  have hs3 : Keeps s s3 := Keeps.ite _ ((State.addHold_keeps ..).after hs2) hs2
  have hs4 : Keeps s s4 := hs3.trans (Keeps.of_eq rfl rfl rfl)
  have ht : Keeps s t := Keeps.after (Keeps.foldl _ (fun _ _ => State.setF_keeps ..) _ _) hs4
  exact Completes.ite _ (Completes.next hs1) (Completes.next (ht.trans (Keeps.of_eq rfl rfl rfl)))

theorem State.pgmFails_keeps (s : State) : Keeps s (s.pgmFails) := by
  unfold State.pgmFails
  extract_lets s1
  have hs1 : Keeps s s1 := by
    unfold s1
    refine Keeps.foldl _ (fun t x => ?_) _ _
    split
    · exact Keeps.ite _ (State.jobFail_keeps ..) (Keeps.refl _)
    · exact Keeps.refl _
  exact (State.poolNow_keeps ..).after (Keeps.after (Keeps.foldl _ (fun _ _ => State.freeToken_keeps ..) _ _) (hs1.trans
      (Keeps.of_eq rfl rfl rfl)))

theorem State.regAnswer_keeps (s : State) (n : Nat) (a : RegAnswer) : Keeps s (s.regAnswer n a) := by
  unfold State.regAnswer
  extract_lets s1 s2 t
  have hs1 : Keeps s s1 := Keeps.of_eq rfl rfl rfl
  have hs2 : Keeps s s2 := (State.setF_keeps ..).after ((State.setF_keeps ..).after hs1)
  have ht : Keeps s t := by
    unfold t
    refine Keeps.ite _ ?_ ?_
    · exact (State.burn_keeps ..).after hs2
    · exact (State.raise_keeps ..).after ((State.burn_keeps ..).after ((State.setF_keeps ..).after hs2))
  exact Keeps.ite _ (Keeps.ite _ ((State.pgmFails_keeps ..).after ht) ht) ((State.burn_keeps ..).after hs2)

theorem State.regSilent_keeps (s : State) (n : Nat) : Keeps s (s.regSilent n) := by
  unfold State.regSilent
  extract_lets _ s1 src s2 src1
  have hs1 : Keeps s s1 := Keeps.of_eq rfl rfl rfl
  have hsrc : Keeps s src := (State.setF_keeps ..).after hs1
  have hs2 : Keeps s s2 := hsrc.trans (Keeps.of_eq rfl rfl rfl)
  have hsrc1 : Keeps s src1 := (State.setF_keeps ..).after hs2
  exact Keeps.ite _ hs1 (Keeps.ite _ (hsrc1.trans (Keeps.of_eq rfl rfl rfl)) hs2)

theorem State.telemetry_keeps (s : State) (answers : List (Option RegAnswer)) : Keeps s (s.telemetry answers) := by
  unfold State.telemetry
  refine Keeps.foldl _ (fun t x => ?_) _ _
  refine Keeps.ite _ (Keeps.refl _) ?_
  split
  · exact State.regAnswer_keeps ..
  · exact State.regSilent_keeps ..

theorem State.powerShown_keeps (s : State) : Keeps s (s.powerShown) := by
  unfold State.powerShown
  extract_lets _ _ _ s1
  have hs1 : Keeps s s1 := (State.burn_keeps ..).after (State.setF_keeps ..)
  exact Keeps.after (Keeps.foldl _ (fun _ _ => (State.burn_keeps ..).after (State.setF_keeps ..)) _ _) hs1

theorem execPmbusTelemetry_completes (now : Nat) (answers : List (Option RegAnswer)) (s : State) :
    Completes s (execPmbusTelemetry now answers s) :=
  Completes.next ((State.powerShown_keeps ..).after ((State.telemetry_keeps ..).after (State.advance_keeps ..)))

theorem execSmbalert_completes (now : Nat) (answers : List (Option RegAnswer)) (s : State) :
    Completes s (execSmbalert now answers s) :=
  Completes.next ((State.telemetry_keeps ..).after (State.advance_keeps ..))

theorem execRegulatorRetry_completes (now : Nat) (n : Fin 6) (answer : Option RegAnswer) (s : State) :
    Completes s (execRegulatorRetry now n answer s) := by
  unfold execRegulatorRetry
  extract_lets s1 s2
  have hs1 : Keeps s s1 := State.advance_keeps ..
  have hs2 : Keeps s s2 := (State.setF_keeps ..).after hs1
  refine Completes.ite _ (Completes.next hs1) ?_
  split
  · exact Completes.next (hs1.trans (Keeps.of_eq rfl rfl rfl))
  · exact Completes.next ((State.regAnswer_keeps ..).after (Keeps.ite _ ((State.setF_keeps ..).after hs2) hs2))

theorem execRegulatorClr_completes (now : Nat) (n : Fin 6) (s : State) : Completes s (execRegulatorClr now n s) := by
  unfold execRegulatorClr
  extract_lets s1 s2
  have hs1 : Keeps s s1 := State.advance_keeps ..
  have hs2 : Keeps s s2 := (State.emit_keeps ..).after ((State.setF_keeps ..).after hs1)
  exact Completes.next (Keeps.ite _ ((State.poolNow_keeps ..).after (hs2.trans (Keeps.of_eq rfl rfl rfl))) hs2)

theorem State.setVoltage_keeps (s : State) (mv : Nat) : Keeps s (s.setVoltage mv) :=
  Keeps.ite _ (Keeps.refl _) ((State.emit_keeps ..).after (Keeps.of_eq rfl rfl rfl))

theorem execAvsAdjust_completes (now mv : Nat) (s : State) : Completes s (execAvsAdjust now mv s) := by
  unfold execAvsAdjust
  extract_lets s1
  have hs1 : Keeps s s1 := State.advance_keeps ..
  exact Completes.next (Keeps.ite _ ((State.setVoltage_keeps ..).after hs1) hs1)

theorem execAvsMonitorWarning_completes (now mv : Nat) (s : State) : Completes s (execAvsMonitorWarning now mv s) := by
  unfold execAvsMonitorWarning
  extract_lets s1
  have hs1 : Keeps s s1 := State.advance_keeps ..
  exact Completes.next (Keeps.ite _ ((State.setVoltage_keeps ..).after hs1) hs1)

theorem execAvsEnableWrite_completes (now : Nat) (en : Bool) (s : State) : Completes s (execAvsEnableWrite now en s) := by
  unfold execAvsEnableWrite
  extract_lets s1
  have hs1 : Keeps s s1 := (State.setB_keeps ..).after (State.advance_keeps ..)
  exact Completes.next (Keeps.ite _ hs1 ((State.setVoltage_keeps ..).after hs1))

/-! ### The operations of Machine/Startup.lean -/

theorem State.burnsCut_keeps (s : State) : Keeps s (s.burnsCut) := by
  unfold State.burnsCut
  extract_lets s1 _
  have hs1 : Keeps s s1 := by
    unfold s1
    split
    · exact Keeps.of_eq rfl rfl rfl
    · exact Keeps.refl _
  split
  · extract_lets src
    have hsrc : Keeps s src := (State.burn_keeps ..).after ((State.setF_keeps ..).after hs1)
    exact hsrc.trans (Keeps.of_eq rfl rfl rfl)
  · exact hs1

theorem State.commitCut_keeps (s : State) : Keeps s (s.commitCut) := by
  unfold State.commitCut
  split
  · refine Keeps.foldl _ (fun t x => ?_) _ _
    exact Keeps.ite _ ((State.burn_keeps ..).after (Keeps.of_eq rfl rfl rfl)) (State.burn_keeps ..)
  · exact Keeps.refl _

/-- A register file of which only certain fields are left fits: the others read as after reset. -/
theorem FieldsFit.keepRegs {s t : State} (p : Fld → Bool) (hr : t.regs = s.keepRegs p) (h : FieldsFit s) : FieldsFit t := by
  intro f i
  have hf := h.filter (fun k => (((pfRegs.flatMap Reg.fields).filter p).map Fld.code).contains (keyCode k)) f i
  simpa [State.getF, hr, State.keepRegs] using hf

theorem State.powerOff_keeps (s : State) : Keeps s (s.powerOff) := by
  have h : Keeps s s.burnsCut.commitCut := (State.commitCut_keeps _).after (State.burnsCut_keeps s)
  exact ⟨h.queue, fun _ => rfl, fun w => FieldsFit.keepRegs Fld.inSett rfl (h.fit w)⟩

theorem State.dieCleared_keeps (s : State) : Keeps s (s.dieCleared) := by
  have h : Keeps s s.burnsCut.commitCut := (State.commitCut_keeps _).after (State.burnsCut_keeps s)
  exact ⟨((State.powerOff_keeps _).after h).queue, fun _ => rfl,
    fun w => FieldsFit.keepRegs (fun f => f.inSett || f.inAon) rfl (h.fit w)⟩

theorem State.startSensors_keeps (s : State) : Keeps s (s.startSensors) := by
  unfold State.startSensors
  extract_lets s1 s2 _ s3 s4
  have hs1 : Keeps s s1 := Keeps.foldl _ (fun _ _ => State.setF_keeps ..) _ _
  have hs2 : Keeps s s2 := (State.takeMeans_keeps ..).after hs1
  have hs3 : Keeps s s3 := Keeps.after (Keeps.foldl _ (fun _ _ => (State.raise_keeps ..).after (State.setF_keeps ..)) _ _) hs2
  have hs4 : Keeps s s4 := (State.takeMedians_keeps ..).after hs3
  refine Keeps.after (Keeps.foldl _ (fun t x => ?_) _ _) hs4
  extract_lets _ src t1 t2
  have hsrc : Keeps t src := State.setF_keeps ..
  have ht1 : Keeps t t1 := hsrc.trans (Keeps.of_eq rfl rfl rfl)
  have ht2 : Keeps t t2 := Keeps.ite _ ((State.setF_keeps ..).after ((State.setF_keeps ..).after ht1)) ht1
  exact Keeps.ite _ ((State.raise_keeps ..).after (ht2.trans (Keeps.of_eq rfl rfl rfl))) ht2

theorem State.startCalibration_keeps (s : State) (cold : Bool) : Keeps s (s.startCalibration cold) := by
  unfold State.startCalibration
  extract_lets _
  refine Keeps.foldl _ (fun t x => ?_) _ _
  extract_lets _ _
  exact State.queueCal_keeps ..

theorem State.startReadback_keeps (s : State) (warm : Bool) : Keeps s (s.startReadback warm) := by
  unfold State.startReadback
  extract_lets _
  exact (State.spotSettle_keeps ..).after ((State.setJobQ_keeps ..).after (Keeps.of_eq rfl rfl rfl))

theorem State.startFails_keeps (s : State) : Keeps s (s.startFails) :=
  (State.dieUp_keeps ..).after ((State.setF_keeps ..).after ((State.setF_keeps ..).after (State.setF_keeps ..)))

theorem State.runStart_keeps (s : State) (kind cause : Nat) (slot : Bool) : Keeps s (s.runStart kind cause slot) := by
  unfold State.runStart
  extract_lets _ s1 s2 s3 s4 s5
  have hs1 : Keeps s s1 := Keeps.of_eq rfl rfl rfl
  have hs2 : Keeps s s2 := (State.setF_keeps ..).after ((State.setF_keeps ..).after ((State.setF_keeps ..).after hs1))
  have hs3 : Keeps s s3 := (State.startSensors_keeps ..).after ((State.setB_keeps ..).after hs2)
  have hs4 : Keeps s s4 := (State.setF_keeps ..).after ((State.setF_keeps ..).after hs3)
  have hs5 : Keeps s s5 := Keeps.after (Keeps.foldl _ (fun _ _ => Keeps.ite _ (State.dieUp_keeps ..) (Keeps.refl _)) _ _) hs4
  exact (State.startReadback_keeps ..).after ((State.startCalibration_keeps ..).after hs5)

theorem State.restoreRecord_keeps (s : State) (r : ShutRecord) : Keeps s (s.restoreRecord r) := by
  unfold State.restoreRecord
  extract_lets s1 s2
  have hs1 : Keeps s s1 := Keeps.of_eq rfl rfl rfl
  have hs2 : Keeps s s2 := Keeps.after (Keeps.foldl _ (fun _ _ => State.setF_keeps ..) _ _) hs1
  exact Keeps.after (Keeps.foldl _ (fun _ _ => State.setTracker_keeps ..) _ _) hs2

theorem State.loadSlots_keeps (s : State) (ws : List (BitVec 32)) : Keeps s (s.loadSlots ws) := by
  unfold State.loadSlots
  refine Keeps.foldl _ (fun t x => ?_) _ _
  extract_lets _ t1
  have ht1 : Keeps t t1 := (State.setF_keeps ..).after ((State.setF_keeps ..).after (State.setF_keeps ..))
  exact (State.setF_keeps ..).after ((State.setF_keeps ..).after ht1)

theorem execPowerOn_completes (now : Nat) (found : PowerOnInputs) (s : State) : Completes s (execPowerOn now found s) := by
  unfold execPowerOn
  extract_lets src s1 s2 _ s3
  have hsrc : Keeps s src := State.powerOff_keeps ..
  clear_value src
  have hs1 : Keeps s s1 := hsrc.trans (Keeps.of_eq rfl rfl rfl)
  have hs2 : Keeps s s2 := (State.loadSlots_keeps ..).after hs1
  have hs3 : Keeps s s3 := Keeps.after (Keeps.foldl _ (fun _ _ => State.setSensor_keeps ..) _ _) hs2
  split
  · exact Completes.next ((State.startFails_keeps ..).after hs3)
  · extract_lets s4 _
    clear_value s3
    have hs4 : Keeps s s4 := hs3.trans (Keeps.of_eq rfl rfl rfl)
    split
    · exact Completes.next ((State.runStart_keeps ..).after ((State.restoreRecord_keeps ..).after hs4))
    · exact Completes.next ((State.runStart_keeps ..).after hs4)

theorem State.dieReset_keeps (s : State) (last : Nat) : Keeps s (s.dieReset last) := by
  unfold State.dieReset
  extract_lets t
  have ht : Keeps s t := (State.setF_keeps ..).after (State.dieCleared_keeps ..)
  split
  · exact (State.startFails_keeps ..).after ht
  · exact (State.runStart_keeps ..).after (ht.trans (Keeps.of_eq rfl rfl rfl))

theorem execDieReset_completes (now : Nat) (cause : DieResetCause) (s : State) : Completes s (execDieReset now cause s) := by
  unfold execDieReset
  extract_lets s1
  have hs1 : Keeps s s1 := State.advance_keeps ..
  split
  · exact Completes.next ((State.dieReset_keeps ..).after hs1)
  · exact Completes.ite _ (Completes.next ((State.dieReset_keeps ..).after hs1)) (Completes.next hs1)

theorem execClusterFullService_completes (now : Nat) (cl : Cluster) (s : State) :
    Completes s (execClusterFullService now cl s) := by
  unfold execClusterFullService
  extract_lets s1 _ _ _ s2
  have hs1 : Keeps s s1 := (State.spotSettle_keeps ..).after (State.advance_keeps ..)
  have hs2 : Keeps s s2 := (State.setF_keeps ..).after hs1
  refine Completes.ite _ ?_ ?_
  · exact Completes.next hs1
  · exact Completes.next (Keeps.ite _ ((State.setF_keeps ..).after hs2) hs2)

theorem State.pwrstRefused_keeps (s : State) : Keeps s (s.pwrstRefused) :=
  (State.burn_keeps ..).after (State.setF_keeps ..)

theorem execBear_completes (now : Nat) (s : State) : Completes s (execBear now s) := by
  unfold execBear
  extract_lets s1
  have hs1 : Keeps s s1 := State.advance_keeps ..
  refine Completes.ite _ (Completes.next ((State.pwrstRefused_keeps ..).after hs1)) ?_
  refine Completes.ite _ ?_ ?_
  · exact Completes.next ((State.setF_keeps ..).after hs1)
  · exact Completes.ite _ (Completes.next hs1) (Completes.next ((State.setF_keeps ..).after hs1))

theorem State.wakeStart_keeps (s : State) : Keeps s (s.wakeStart) := by
  unfold State.wakeStart
  extract_lets _ src s1 s2
  have hsrc : Keeps s src := State.setF_keeps ..
  have hs1 : Keeps s s1 := hsrc.trans (Keeps.of_eq rfl rfl rfl)
  have hs2 : Keeps s s2 := Keeps.after (Keeps.foldl _ (fun _ _ => Keeps.ite _ (Keeps.refl _) (State.dieUp_keeps ..)) _ _) hs1
  exact (State.startCalibration_keeps ..).after hs2

theorem execBearEntryDone_completes (now : Nat) (s : State) : Completes s (execBearEntryDone now s) := by
  unfold execBearEntryDone
  extract_lets s1 s2 s3 s4 src s5
  have hs1 : Keeps s s1 := State.advance_keeps ..
  have hs2 : Keeps s s2 := by
    unfold s2
    refine Keeps.after (Keeps.foldl _ (fun t x => ?_) _ _) hs1
    split
    · exact Keeps.ite _ (State.beaverStop_keeps ..) (Keeps.refl _)
    · exact Keeps.refl _
  have hs3 : Keeps s s3 := Keeps.after (Keeps.foldl _ (fun _ _ => State.clusterOff_keeps ..) _ _) hs2
  have hs4 : Keeps s s4 := Keeps.after (Keeps.foldl _ (fun _ _ => Keeps.ite _ (State.dieOff_keeps ..) (Keeps.refl _)) _ _) hs3
  have hsrc : Keeps s src := (State.setF_keeps ..).after ((State.setF_keeps ..).after hs4)
  have hs5 : Keeps s s5 := hsrc.trans (Keeps.of_eq rfl rfl rfl)
  refine Completes.ite _ ?_ ?_
  · exact Completes.next hs1
  · exact Completes.next (Keeps.ite _ ((State.wakeStart_keeps ..).after hs5) hs5)

theorem execWake_completes (now : Nat) (s : State) : Completes s (execWake now s) := by
  unfold execWake
  extract_lets s1
  have hs1 : Keeps s s1 := State.advance_keeps ..
  refine Completes.ite _ (Completes.next ((State.pwrstRefused_keeps ..).after hs1)) ?_
  refine Completes.ite _ ?_ ?_
  · exact Completes.next ((State.wakeStart_keeps ..).after hs1)
  · exact Completes.ite _ (Completes.next (hs1.trans (Keeps.of_eq rfl rfl rfl))) (Completes.next hs1)

theorem execWakeDone_completes (now : Nat) (s : State) : Completes s (execWakeDone now s) := by
  unfold execWakeDone
  extract_lets s1 _
  have hs1 : Keeps s s1 := State.advance_keeps ..
  exact Completes.ite _ (Completes.next hs1) (Completes.next ((State.setF_keeps ..).after hs1))

theorem execPrepare_completes (now rtc : Nat) (committed : Bool) (s : State) : Completes s
    (execPrepare now rtc committed s) := by
  unfold execPrepare
  extract_lets s1 _ src
  have hs1 : Keeps s s1 := State.advance_keeps ..
  have hsrc : Keeps s src := (State.setF_keeps ..).after ((State.setF_keeps ..).after hs1)
  refine Completes.ite _ (Completes.next ((State.pwrstRefused_keeps ..).after hs1)) ?_
  refine Completes.ite _ (Completes.next ((State.setF_keeps ..).after hs1)) ?_
  refine Completes.ite _ ?_ ?_
  · exact Completes.next ((State.setF_keeps ..).after hs1)
  · exact Completes.next (hsrc.trans (Keeps.of_eq rfl rfl rfl))

theorem execCheckpointCommit_completes (now : Nat) (s : State) : Completes s (execCheckpointCommit now s) := by
  unfold execCheckpointCommit
  extract_lets s1 _
  have hs1 : Keeps s s1 := State.advance_keeps ..
  exact Completes.next ((State.addWrap_keeps ..).after (hs1.trans (Keeps.of_eq rfl rfl rfl)))

theorem State.voidCommands_keeps (s : State) (f : Nat) : Keeps s (s.voidCommands f) := by
  unfold State.voidCommands
  extract_lets _ s1 s2
  have hs1 : Keeps s s1 := State.setFn_keeps ..
  have hs2 : Keeps s s2 := (State.setF_keeps ..).after hs1
  exact Keeps.after (Keeps.foldl _ (fun _ _ => State.complete_keeps ..) _ _) hs2

theorem State.abandonLoads_keeps (s : State) : Keeps s (s.abandonLoads) := by
  unfold State.abandonLoads
  extract_lets _ s1 s2
  have hs1 : Keeps s s1 := Keeps.after (Keeps.foldl _ (fun _ _ => State.loadRemove_keeps ..) _ _) (Keeps.of_eq rfl rfl rfl)
  have hs2 : Keeps s s2 := Keeps.after (Keeps.foldl _ (fun _ _ => State.complete_keeps ..) _ _) hs1
  exact Keeps.after (Keeps.foldl _ (fun _ _ => (State.complete_keeps ..).after (State.takeAccepted_keeps ..)) _ _) hs2

theorem State.takeover_keeps (s : State) (cause : Nat) : Keeps s (s.takeover cause) := by
  unfold State.takeover
  extract_lets s1 s2 s3
  have hs1 : Keeps s s1 := (State.setF_keeps ..).after (State.setF_keeps ..)
  have hs2 : Keeps s s2 := (State.addHold_keeps ..).after ((State.setF_keeps ..).after hs1)
  have hs3 : Keeps s s3 := (State.raise_keeps ..).after hs2
  refine Keeps.ite _ ?_ ?_
  · exact State.dieReset_keeps ..
  · exact Keeps.after (Keeps.foldl _ (fun _ _ => State.voidCommands_keeps ..) _ _) ((State.abandonLoads_keeps ..).after hs3)

theorem execHeartbeatLoss_completes (now : Nat) (s : State) : Completes s (execHeartbeatLoss now s) :=
  Completes.next ((State.takeover_keeps ..).after (State.advance_keeps ..))

theorem execMgrWatchdog_completes (now : Nat) (s : State) : Completes s (execMgrWatchdog now s) :=
  Completes.next ((State.takeover_keeps ..).after (State.advance_keeps ..))

theorem execMgrMemoryError_completes (now : Nat) (s : State) : Completes s (execMgrMemoryError now s) :=
  Completes.next ((State.takeover_keeps ..).after (State.advance_keeps ..))

theorem execSwitch_completes (now : Nat) (s : State) : Completes s (execSwitch now s) := by
  unfold execSwitch
  extract_lets s1
  have hs1 : Keeps s s1 := State.advance_keeps ..
  exact Completes.ite _ (Completes.next ((State.takeover_keeps ..).after hs1)) (Completes.next hs1)

theorem execMgrStandbyReady_completes (now : Nat) (s : State) : Completes s (execMgrStandbyReady now s) := by
  unfold execMgrStandbyReady
  extract_lets s1
  have hs1 : Keeps s s1 := State.advance_keeps ..
  exact Completes.ite _ (Completes.next ((State.setF_keeps ..).after hs1)) (Completes.next hs1)

theorem execRailUndervoltage_completes (now : Nat) (rail : Rail) (s : State) : Completes s
    (execRailUndervoltage now rail s) := by
  unfold execRailUndervoltage
  extract_lets u slot v
  have hu : Keeps s u := State.advance_keeps ..
  have hv : Keeps s v := by
    unfold v
    clear_value slot
    cases slot with
    | none => exact hu
    | some n => exact (State.setF_keeps ..).after hu
  have hwio : Keeps s { u with wioDown := true } := hu.trans (Keeps.of_eq rfl rfl rfl)
  cases rail with
  | vddIo => exact Completes.next ((State.powerOff_keeps ..).after hu)
  | vddPgm => exact Completes.next ((State.pgmFails_keeps ..).after ((State.raise_keeps ..).after hv))
  | vddWio => exact Completes.next ((State.wioSettle_keeps ..).after hwio)
  | vddCore | vddAna | serdes => exact Completes.next ((State.dieReset_keeps ..).after hu)

theorem execRailReturn_completes (now : Nat) (s : State) : Completes s (execRailReturn now s) := by
  unfold execRailReturn
  extract_lets s1 _
  have hs1 : Keeps s s1 := State.advance_keeps ..
  refine Completes.ite _ ?_ ?_
  · exact Completes.next hs1
  · exact Completes.next ((State.wioSettle_keeps ..).after (hs1.trans (Keeps.of_eq rfl rfl rfl)))

/-! ### The operations of Machine/Sett.lean -/

theorem State.settPut_keeps (s : State) (off : Nat) (b : Byte) : Keeps s (s.settPut off b) := by
  unfold State.settPut
  extract_lets _ _
  split
  · refine Keeps.ite _ ?_ ?_
    · exact Keeps.of_eq rfl rfl rfl
    · exact Keeps.ite _ (State.setF_keeps ..) (Keeps.trans (Keeps.of_eq rfl rfl rfl) (Keeps.of_eq rfl rfl rfl))
  · exact Keeps.ite _ (State.setF_keeps ..) (Keeps.of_eq rfl rfl rfl)

theorem State.settWrite_keeps (s : State) (every : Bool) (off : Nat) (data : List Byte) :
    Keeps s (s.settWrite every off data) := by
  unfold State.settWrite
  extract_lets _ s'
  have hs' : Keeps s s' := Keeps.foldl _ (fun _ _ => Keeps.ite _ (State.settPut_keeps ..) (Keeps.refl _)) _ _
  exact Keeps.ite _ (hs') ((State.addHold_keeps ..).after hs')

theorem execSettWindowWrite_completes (now : Nat) (off : BitVec 18) (data : List Byte) (s : State) :
    Completes s (execSettWindowWrite now off data s) :=
  Completes.next ((State.settWrite_keeps ..).after (State.advance_keeps ..))

theorem execSettCommit_completes (now : Nat) (s : State) : Completes s (execSettCommit now s) := by
  unfold execSettCommit
  extract_lets s1 _
  have hs1 : Keeps s s1 := State.advance_keeps ..
  exact Completes.ite _ (Completes.next hs1) (Completes.next (hs1.trans (Keeps.of_eq rfl rfl rfl)))

theorem execSettDiscard_completes (now : Nat) (s : State) : Completes s (execSettDiscard now s) := by
  unfold execSettDiscard
  refine Completes.next ?_
  extract_lets src
  have hsrc : Keeps s src := State.advance_keeps ..
  exact hsrc.trans (Keeps.of_eq rfl rfl rfl)

theorem execSettCommitDone_completes (now : Nat) (s : State) : Completes s (execSettCommitDone now s) := by
  unfold execSettCommitDone
  extract_lets s1
  have hs1 : Keeps s s1 := State.advance_keeps ..
  split
  · exact Completes.next hs1
  · extract_lets t
    have ht : Keeps s t := Keeps.ite _ (hs1.trans (Keeps.of_eq rfl rfl rfl)) hs1
    exact Completes.next (ht.trans (Keeps.of_eq rfl rfl rfl))

theorem State.putSlot_keeps (s : State) (n : Nat) (x : CounterSlot) : Keeps s (s.putSlot n x) :=
  Keeps.of_eq rfl rfl rfl

theorem execCounterGroupUpdate_completes (now : Nat) (group : Byte) (counters : List Byte) (s : State) :
    Completes s (execCounterGroupUpdate now group counters s) := by
  unfold execCounterGroupUpdate
  extract_lets s1 _ t
  have hs1 : Keeps s s1 := State.advance_keeps ..
  have ht : Keeps s t := (State.putSlot_keeps ..).after ((State.putSlot_keeps ..).after hs1)
  exact Completes.next (ht.trans (Keeps.of_eq rfl rfl rfl))

theorem execMarginScan_completes (now : Nat) (weak : List (Fin 4096)) (dead : List (Fin 4096)) (s : State) :
    Completes s (execMarginScan now weak dead s) := by
  unfold execMarginScan
  extract_lets s1 s2
  have hs1 : Keeps s s1 := State.advance_keeps ..
  have hs2 : Keeps s s2 := hs1.trans (Keeps.of_eq rfl rfl rfl)
  refine Completes.next ?_
  refine Keeps.after (Keeps.foldl _ (fun t x => ?_) _ _) hs2
  extract_lets _
  exact Keeps.ite _ (State.raise_keeps ..) (State.setF_keeps ..)

theorem execLcChangeRequest_completes (now : Nat) (key : BitVec 16) (n : BitVec 3) (s : State) :
    Completes s (execLcChangeRequest now key n s) := by
  unfold execLcChangeRequest
  extract_lets s1 _ _ s2 src
  have hs1 : Keeps s s1 := State.advance_keeps ..
  have hs2 : Keeps s s2 := (State.setF_keeps ..).after hs1
  have hsrc : Keeps s src := (State.setF_keeps ..).after hs2
  refine Completes.ite _ (Completes.next hs1) ?_
  refine Completes.ite _ (Completes.next ((State.setF_keeps ..).after hs2)) ?_
  refine Completes.ite _ (Completes.next ((State.setF_keeps ..).after hs2)) ?_
  refine Completes.ite _ (Completes.next ((State.setF_keeps ..).after hs2)) ?_
  refine Completes.ite _ ?_ ?_
  · exact Completes.next ((State.setF_keeps ..).after hs2)
  · exact Completes.next (hsrc.trans (Keeps.of_eq rfl rfl rfl))

theorem execLcBurnDone_completes (now : Nat) (burned : Bool) (s : State) : Completes s (execLcBurnDone now burned s) := by
  unfold execLcBurnDone
  extract_lets s1
  have hs1 : Keeps s s1 := State.advance_keeps ..
  split
  · exact Completes.next hs1
  · extract_lets _ _ t t1 t2
    have ht : Keeps s t := hs1.trans (Keeps.of_eq rfl rfl rfl)
    have ht1 : Keeps s t1 := Keeps.ite _ (ht.trans (Keeps.of_eq rfl rfl rfl)) ht
    have ht2 : Keeps s t2 := (State.raise_keeps ..).after ((State.setF_keeps ..).after ht1)
    exact Completes.next (Keeps.ite _ ((State.wioSettle_keeps ..).after ht2) ht2)

theorem execFwarbAdvance_completes (now : Nat) (target : BitVec 7) (s : State) : Completes s
    (execFwarbAdvance now target s) := by
  unfold execFwarbAdvance
  extract_lets s1 _ _
  have hs1 : Keeps s s1 := State.advance_keeps ..
  exact Completes.ite _ (Completes.next hs1) (Completes.next (hs1.trans (Keeps.of_eq rfl rfl rfl)))

theorem execFwarbBurnDone_completes (now burned : Nat) (s : State) : Completes s (execFwarbBurnDone now burned s) := by
  unfold execFwarbBurnDone
  extract_lets s1
  have hs1 : Keeps s s1 := State.advance_keeps ..
  split
  · exact Completes.next hs1
  · refine Completes.next ?_
    extract_lets src
    have hsrc : Keeps s src := (State.setF_keeps ..).after hs1
    exact hsrc.trans (Keeps.of_eq rfl rfl rfl)

theorem execKeystoreRequest_completes (now : Nat) (s : State) : Completes s (execKeystoreRequest now s) := by
  unfold execKeystoreRequest
  extract_lets s1
  have hs1 : Keeps s s1 := State.advance_keeps ..
  refine Completes.ite _ ?_ ?_
  · exact Completes.next hs1
  · exact Completes.next ((State.setF_keeps ..).after ((State.setF_keeps ..).after hs1))

theorem execKeystoreRequestDone_completes (now : Nat) (s : State) : Completes s (execKeystoreRequestDone now s) := by
  unfold execKeystoreRequestDone
  extract_lets s1 _ _ _ _ s2
  have hs1 : Keeps s s1 := State.advance_keeps ..
  have hs2 : Keeps s s2 := (State.setF_keeps ..).after ((State.setF_keeps ..).after hs1)
  refine Completes.ite _ ?_ ?_
  · exact Completes.next hs1
  · exact Completes.next (Keeps.ite _ (hs2.trans (Keeps.of_eq rfl rfl rfl)) hs2)

/-! ### The operations of Machine/Observe.lean -/

theorem execTencLatch_completes (now : Nat) (pf : Bool) (t : Fin 128) (s : State) : Completes s (execTencLatch now pf t s) := by
  unfold execTencLatch
  extract_lets u f copy
  have hu : Keeps s u := State.advance_keeps ..
  have hid : Keeps s (u.hosted f id) := (State.hosted_keeps_all _ _ _ Keeps.refl).after hu
  exact Completes.ite _ (Completes.next (Keeps.ite _ hu hid)) (Completes.next (hu.trans (Keeps.of_eq rfl rfl rfl)))

theorem execTraceEnable_completes (now : Nat) (en : Bool) (s : State) : Completes s (execTraceEnable now en s) := by
  unfold execTraceEnable
  extract_lets s1 t src
  have hs1 : Keeps s s1 := State.advance_keeps ..
  have ht : Keeps s t := (State.setB_keeps ..).after hs1
  have hsrc : Keeps s src := (State.setF_keeps ..).after ht
  exact Completes.next (Keeps.onReg hs1 (Keeps.ite _ (hsrc.trans (Keeps.of_eq rfl rfl rfl)) ht))

theorem execTraceDrainBlock_completes (now : Nat) (cl : Cluster) (s : State) : Completes s (execTraceDrainBlock now cl s) := by
  unfold execTraceDrainBlock
  extract_lets s1 _ _ _ _ _ _ _ s2 _ _ _ src s3 s4
  have hs1 : Keeps s s1 := State.advance_keeps ..
  have hs2 : Keeps s s2 := (State.emit_keeps ..).after hs1
  have hsrc : Keeps s src := (State.setTrace_keeps ..).after hs2
  have hs3 : Keeps s s3 := hsrc.trans (Keeps.of_eq rfl rfl rfl)
  have hs4 : Keeps s s4 := (State.setF_keeps ..).after hs3
  refine Completes.ite _ ?_ ?_
  · exact Completes.next hs1
  · exact Completes.next (Keeps.ite _ ((State.msix_keeps ..).after hs4) hs4)

theorem State.armCommand_keeps (s : State) (fn : Nat) (entry : List Word) : Keeps s (s.armCommand fn entry) := by
  unfold State.armCommand
  extract_lets _ _
  split
  · extract_lets s1 s2 s3 s4 s5 s6 s7
    have hs1 : Keeps s s1 := (State.setF_keeps ..).after ((State.setF_keeps ..).after (State.setF_keeps ..))
    have hs2 : Keeps s s2 := (State.setResult_keeps ..).after ((State.setF_keeps ..).after hs1)
    have hs3 : Keeps s s3 := (State.setF_keeps ..).after ((State.setF_keeps ..).after ((State.setF_keeps ..).after hs2))
    have hs4 : Keeps s s4 := (State.setF_keeps ..).after ((State.setF_keeps ..).after ((State.setF_keeps ..).after hs3))
    have hs5 : Keeps s s5 := (State.setF_keeps ..).after ((State.setF_keeps ..).after hs4)
    clear_value s5
    have hs6 : Keeps s s6 := hs5.trans (Keeps.of_eq rfl rfl rfl)
    have hs7 : Keeps s s7 := (State.setPoint_keeps ..).after hs6
    exact (State.answer_keeps ..).after hs7
  · exact State.answer_keeps ..

theorem execWatchArm_completes (now : Nat) (fn : Func) (entry : List Word) (s : State) :
    Completes s (execWatchArm now fn entry s) :=
  Completes.next (Keeps.after (State.command_keeps _ _ _ _ _ (fun _ => State.armCommand_keeps ..)) (State.advance_keeps ..))

theorem State.disarmCommand_keeps (s : State) (fn : Nat) (entry : List Word) : Keeps s (s.disarmCommand fn entry) := by
  unfold State.disarmCommand
  extract_lets _ _ _
  exact (State.answer_keeps ..).after (Keeps.ite _ ((State.setPoint_keeps ..).after (State.setF_keeps ..)) (Keeps.refl _))

theorem execWatchDisarm_completes (now : Nat) (fn : Func) (entry : List Word) (s : State) :
    Completes s (execWatchDisarm now fn entry s) :=
  Completes.next (Keeps.after (State.command_keeps _ _ _ _ _ (fun _ => State.disarmCommand_keeps ..)) (State.advance_keeps ..))

theorem execWatchWindowClose_completes (now : Nat) (n : Fin 64) (s : State) : Completes s (execWatchWindowClose now n s) := by
  unfold execWatchWindowClose
  extract_lets s1 _
  have hs1 : Keeps s s1 := State.advance_keeps ..
  exact Completes.ite _ (Completes.next ((State.closePoint_keeps ..).after hs1)) (Completes.next hs1)

theorem State.pointLatch_keeps (s : State) (n : Nat) : Keeps s (s.pointLatch n) := by
  have h (m : SMap Nat) : Keeps s { s with twLatch := m } := Keeps.of_eq rfl rfl rfl
  exact h _

theorem execWatchStatRead_completes (now : Nat) (n : Fin 64) (s : State) : Completes s (execWatchStatRead now n s) := by
  unfold execWatchStatRead
  extract_lets s1 _ _
  have hs1 : Keeps s s1 := State.advance_keeps ..
  refine Completes.ite _ ?_ ?_
  · exact Completes.next ((State.emit_keeps ..).after ((State.accErr_keeps ..).after hs1))
  · exact Completes.next ((State.emit_keeps ..).after ((State.pointLatch_keeps ..).after hs1))

theorem State.consentCommand_keeps (s : State) (fn : Nat) (entry : List Word) : Keeps s (s.consentCommand fn entry) := by
  unfold State.consentCommand
  extract_lets _ _ _
  exact (State.answer_keeps ..).after (Keeps.ite _ (State.setFn_keeps ..) (Keeps.refl _))

theorem execTraceConsent_completes (now : Nat) (fn : Func) (entry : List Word) (s : State) :
    Completes s (execTraceConsent now fn entry s) :=
  Completes.next (Keeps.after (State.command_keeps _ _ _ _ _ (fun _ => State.consentCommand_keeps ..)) (State.advance_keeps ..))

theorem State.digestCommand_keeps (s : State) (fn : Nat) (entry : List Word) : Keeps s (s.digestCommand fn entry) := by
  unfold State.digestCommand
  extract_lets _ _ _ _
  exact Keeps.ite _ (Keeps.of_eq rfl rfl rfl) (State.answer_keeps ..)

theorem execDigestRegion_completes (now : Nat) (fn : Func) (entry : List Word) (s : State) :
    Completes s (execDigestRegion now fn entry s) :=
  Completes.next (Keeps.after (State.command_keeps _ _ _ _ _ (fun _ => State.digestCommand_keeps ..)) (State.advance_keeps ..))

theorem execDigestRegionDone_completes (now : Nat) (s : State) : Completes s (execDigestRegionDone now s) := by
  unfold execDigestRegionDone
  extract_lets s1
  have hs1 : Keeps s s1 := State.advance_keeps ..
  split
  · exact Completes.next hs1
  · extract_lets s2 _ _ s3
    have hs2 : Keeps s s2 := hs1.trans (Keeps.of_eq rfl rfl rfl)
    have hs3 : Keeps s s3 := (State.emit_keeps ..).after ((State.readEcc_keeps ..).after hs2)
    refine Completes.ite _ ?_ ?_
    · exact Completes.next ((State.complete_keeps ..).after hs2)
    · exact Completes.next ((State.complete_keeps ..).after hs3)

theorem State.admitPending_keeps (s : State) (f n : Nat) : Keeps s (s.admitPending f n) := by
  induction n generalizing s with
  | zero => exact Keeps.refl s
  | succ n ih =>
    unfold State.admitPending
    split
    · exact Keeps.refl s
    · extract_lets q e
      exact Keeps.ite _ ((ih _).after ((State.msix_keeps ..).after (Keeps.of_eq rfl rfl rfl))) (Keeps.refl s)

theorem State.popEvent_keeps (s : State) (fn : Nat) : Keeps s (s.popEvent fn) := by
  unfold State.popEvent
  extract_lets _
  exact (State.admitPending_keeps ..).after (Keeps.of_eq rfl rfl rfl)

theorem execEvqPop_completes (now : Nat) (fn : Func) (s : State) : Completes s (execEvqPop now fn s) :=
  Completes.next (Keeps.after (State.hosted_keeps_all _ _ _ (fun _ => State.popEvent_keeps ..)) (State.advance_keeps ..))

theorem execEventCoalescedFlush_completes (now : Nat) (path : EventPath) (s : State) :
    Completes s (execEventCoalescedFlush now path s) := by
  unfold execEventCoalescedFlush
  extract_lets s1 _ _ _
  have hs1 : Keeps s s1 := State.advance_keeps ..
  split
  · split
    · exact Completes.next hs1
    · exact Completes.ite _ (Completes.next hs1) (Completes.next (hs1.trans (Keeps.of_eq rfl rfl rfl)))
  · extract_lets _ _
    split
    · exact Completes.next hs1
    · extract_lets t
      have ht : Keeps s t := hs1.trans (Keeps.of_eq rfl rfl rfl)
      refine Completes.ite _ ?_ ?_
      · exact Completes.next (Keeps.ite _ ((State.msix_keeps ..).after ht) ht)
      · exact Completes.next hs1

/-! ### The operations of Machine/FuncReset.lean -/

theorem State.fnRegsReset_keeps (s : State) (fn : Nat) : Keeps s (s.fnRegsReset fn) :=
  Keeps.filterRegs s (fun k =>
    match (fnRegs.flatMap (fun r => r.fields.map (fun f => (f.code, r.perFn)))).find? (fun c => c.1 == keyCode k) with
    | some c => keyRep k / c.2 != fn
    | none => true)

theorem State.flrBegin_keeps (s : State) (t : Nat) : Keeps s (s.flrBegin t) := by
  unfold State.flrBegin
  extract_lets _ s1 s2
  have hs1 : Keeps s s1 := Keeps.of_eq rfl rfl rfl
  have hs2 : Keeps s s2 := (State.setFn_keeps ..).after hs1
  exact (State.reclaimEnd_keeps ..).after hs2

theorem State.linkDrop_keeps (s : State) (t p : Nat) : Keeps s (s.linkDrop t p) := by
  unfold State.linkDrop
  extract_lets _ _ _ _ _ s1
  have hs1 : Keeps s s1 := State.setLink_keeps ..
  exact Keeps.after (Keeps.foldl _ (fun _ _ => Keeps.ite _ (State.sendFrame_keeps ..) (Keeps.refl _)) _ _) hs1

theorem State.flrDrop_keeps (s : State) (t : Nat) : Keeps s (s.flrDrop t) := by
  unfold State.flrDrop
  extract_lets _ _ _ _ s1 s2
  have hs1 : Keeps s s1 := Keeps.of_eq rfl rfl rfl
  have hs2 : Keeps s s2 := Keeps.after (Keeps.foldl _ (fun _ _ => State.linkDrop_keeps ..) _ _) hs1
  exact (State.abortJobs_keeps ..).after hs2

theorem State.flrPartition_keeps (s : State) (t : Nat) : Keeps s (s.flrPartition t) := by
  unfold State.flrPartition
  extract_lets _ s1 _ s2 s3 s4 s5
  have hs1 : Keeps s s1 := Keeps.foldl _ (fun _ _ => State.warmReset_keeps ..) _ _
  have hs2 : Keeps s s2 := (State.unloadStop_keeps ..).after hs1
  have hs3 : Keeps s s3 := Keeps.after (Keeps.foldl _ (fun _ _ => State.setCtx_keeps ..) _ _) hs2
  have hs4 : Keeps s s4 := Keeps.ite _ ((State.unloadFree_keeps ..).after hs3) hs3
  have hs5 : Keeps s s5 := Keeps.after (Keeps.foldl _ (fun _ _ => State.zeroFill_keeps ..) _ _) hs4
  exact Keeps.after (Keeps.foldl _ (fun _ _ => State.zeroFill_keeps ..) _ _) hs5

theorem State.flrWindow_keeps (s : State) (t : Nat) : Keeps s (s.flrWindow t) := by
  unfold State.flrWindow
  extract_lets s1 _ s2 _ _
  have hs1 : Keeps s s1 := (State.fnRegsReset_keeps ..).after (State.mbxReset_keeps ..)
  have hs2 : Keeps s s2 := (State.setFn_keeps ..).after hs1
  clear_value s2
  exact hs2.trans (Keeps.of_eq rfl rfl rfl)

theorem State.flr_keeps (s : State) (t : Nat) : Keeps s (s.flr t) :=
  (State.flrWindow_keeps ..).after ((State.flrPartition_keeps ..).after ((State.freeTriggers_keeps ..).after
      ((State.flrDrop_keeps ..).after (State.flrBegin_keeps ..))))

theorem execVfFlr_completes (now : Nat) (t : Fin 128) (s : State) : Completes s (execVfFlr now t s) := by
  unfold execVfFlr
  extract_lets s1
  have hs1 : Keeps s s1 := State.advance_keeps ..
  exact Completes.next (Keeps.ite _ ((State.flr_keeps ..).after hs1) hs1)

theorem execVfFlrDone_completes (now : Nat) (t : Fin 128) (s : State) : Completes s (execVfFlrDone now t s) := by
  unfold execVfFlrDone
  extract_lets s1 _
  have hs1 : Keeps s s1 := State.advance_keeps ..
  exact Completes.next ((State.setFn_keeps ..).after hs1)

theorem State.pfReset_keeps (s : State) : Keeps s (s.pfReset) := by
  unfold State.pfReset
  extract_lets s1 _
  have hs1 : Keeps s s1 := (State.flr_keeps ..).after (Keeps.foldl _ (fun _ _ => State.flr_keeps ..) _ _)
  exact (State.setFn_keeps ..).after hs1

theorem execPfFlr_completes (now : Nat) (s : State) : Completes s (execPfFlr now s) :=
  Completes.next ((State.pfReset_keeps ..).after (State.advance_keeps ..))

theorem State.vfGone_keeps (s : State) (t : Nat) : Keeps s (s.vfGone t) := by
  unfold State.vfGone
  extract_lets s1 _
  have hs1 : Keeps s s1 := State.flr_keeps ..
  exact (State.setFn_keeps ..).after hs1

theorem execPcieConventionalReset_completes (now : Nat) (s : State) : Completes s (execPcieConventionalReset now s) := by
  unfold execPcieConventionalReset
  extract_lets s1 _ src
  have hs1 : Keeps s s1 := (State.pfReset_keeps ..).after (State.advance_keeps ..)
  have hsrc : Keeps s src := Keeps.after (Keeps.foldl _ (fun _ _ => State.setFn_keeps ..) _ _) hs1
  clear_value src
  exact Completes.next (hsrc.trans (Keeps.of_eq rfl rfl rfl))

theorem execPerstRelease_completes (now : Nat) (s : State) : Completes s (execPerstRelease now s) := by
  unfold execPerstRelease
  extract_lets s1 t
  have hs1 : Keeps s s1 := State.advance_keeps ..
  have ht : Keeps s t := hs1.trans (Keeps.of_eq rfl rfl rfl)
  exact Completes.next (Keeps.ite _ ((State.dieUp_keeps ..).after ht) ht)

theorem execVfEnableChange_completes (now : Nat) (enable : Bool) (num : Nat) (s : State) :
    Completes s (execVfEnableChange now enable num s) := by
  unfold execVfEnableChange
  extract_lets s1 _ s2 _ _ s3
  have hs1 : Keeps s s1 := State.advance_keeps ..
  have hs2 : Keeps s s2 := Keeps.after (Keeps.foldl _ (fun _ _ => State.vfGone_keeps ..) _ _) hs1
  have hs3 : Keeps s s3 := Keeps.after (Keeps.foldl _ (fun _ _ => State.setFn_keeps ..) _ _) hs2
  exact Completes.next (hs3.trans (Keeps.of_eq rfl rfl rfl))

/-! ### The operations of Machine/Command.lean -/

theorem execCommandDoorbell_completes (now : Nat) (fn : Func) (prod : BitVec 6) (entries : List (List Word)) (s : State) :
    Completes s (execCommandDoorbell now fn prod entries s) := by
  unfold execCommandDoorbell
  refine Completes.next ?_
  extract_lets _
  refine Keeps.after (State.hosted_keeps_all _ _ _ (fun t => ?_)) (State.advance_keeps ..)
  extract_lets _ _ _ t1 _ _ _ t2 _
  have ht1 : Keeps t t1 := State.setF_keeps ..
  have ht2 : Keeps t t2 := Keeps.after (Keeps.foldl _ (fun _ _ => State.emit_keeps ..) _ _) ht1
  exact Keeps.ite _ ((State.setFn_keeps ..).after ht2) ht1

theorem State.takeUp_keeps (s : State) (f : Nat) (e : List Word) : Keeps s (s.takeUp f e) := by
  unfold State.takeUp
  extract_lets _ s1
  have hs1 : Keeps s s1 := State.setFn_keeps ..
  refine Keeps.ite _ ?_ ?_
  · exact State.complete_keeps ..
  · exact Keeps.ite _ (State.complete_keeps ..) (Keeps.ite _ (hs1.trans (Keeps.of_eq rfl rfl rfl)) hs1)

theorem execCommandAccept_completes (now : Nat) (fn : Func) (s : State) : Completes s (execCommandAccept now fn s) := by
  unfold execCommandAccept
  extract_lets s1 _ _
  have hs1 : Keeps s s1 := State.advance_keeps ..
  split
  · extract_lets t
    have ht : Keeps s t := (State.setFn_keeps ..).after hs1
    refine Completes.ite _ ?_ ?_
    · exact Completes.next ((State.takeUp_keeps ..).after ((State.setF_keeps ..).after ht))
    · exact Completes.next hs1
  · exact Completes.next hs1

theorem State.drainCpl_keeps (s : State) (f n : Nat) : Keeps s (s.drainCpl f n) := by
  induction n generalizing s with
  | zero => exact Keeps.refl s
  | succ n ih =>
    unfold State.drainCpl
    split
    · exact Keeps.ite _ ((ih _).after ((State.cplWrite_keeps ..).after (State.setFn_keeps ..))) (Keeps.refl s)
    · exact Keeps.refl s

theorem execCplHeadAdvance_completes (now : Nat) (fn : Func) (head : BitVec 6) (s : State) :
    Completes s (execCplHeadAdvance now fn head s) := by
  unfold execCplHeadAdvance
  refine Completes.next ?_
  refine Keeps.after (State.hosted_keeps_all _ _ _ (fun t => ?_)) (State.advance_keeps ..)
  extract_lets t1
  have ht1 : Keeps t t1 := State.setF_keeps ..
  exact (State.drainCpl_keeps ..).after ht1

theorem execCmdRingEnable_completes (now : Nat) (fn : Func) (size : BitVec 3) (s : State) :
    Completes s (execCmdRingEnable now fn size s) := by
  unfold execCmdRingEnable
  refine Completes.next ?_
  extract_lets _
  refine Keeps.after (State.hosted_keeps_all _ _ _ (fun t => ?_)) (State.advance_keeps ..)
  extract_lets t1 t2 t3 _
  have ht1 : Keeps t t1 := (State.setF_keeps ..).after (State.setF_keeps ..)
  have ht2 : Keeps t t2 := (State.setF_keeps ..).after ((State.setF_keeps ..).after ht1)
  have ht3 : Keeps t t3 := (State.setF_keeps ..).after ((State.setF_keeps ..).after ht2)
  exact Keeps.ite _ (Keeps.refl _) ((State.setFn_keeps ..).after ht3)

theorem execHostReadTimeout_completes (now : Nat) (reader : HostReader) (s : State) :
    Completes s (execHostReadTimeout now reader s) := by
  unfold execHostReadTimeout
  extract_lets s1 _ t
  have hs1 : Keeps s s1 := State.advance_keeps ..
  have ht : Keeps s t := hs1.trans (Keeps.of_eq rfl rfl rfl)
  split
  · split
    · exact Completes.next (hs1.trans (Keeps.of_eq rfl rfl rfl))
    · exact Completes.next hs1
  · split
    · refine Completes.ite _ (Completes.next hs1) ?_
      refine Completes.ite _ ?_ ?_
      · exact Completes.next ((State.jobEnd_keeps ..).after hs1)
      · exact Completes.next ((State.jobFail_keeps ..).after hs1)
    · exact Completes.next hs1
  · extract_lets _
    exact Completes.ite _ (Completes.next ((State.setFn_keeps ..).after ht)) (Completes.next hs1)
  · split
    · extract_lets _ _
      refine Completes.ite _ ?_ ?_
      · exact Completes.next hs1
      · exact Completes.next (Keeps.after (State.command_keeps _ _ _ _ _ (fun _ => State.loadCommand_keeps ..))
          (hs1.trans (Keeps.of_eq rfl rfl rfl)))
    · exact Completes.next hs1

theorem execServiceAck_completes (now : Nat) (fn : Func) (s : State) : Completes s (execServiceAck now fn s) := by
  unfold execServiceAck
  refine Completes.next ?_
  extract_lets _
  refine Keeps.after (State.hosted_keeps_all _ _ _ (fun t => ?_)) (State.advance_keeps ..)
  extract_lets _
  split
  · exact (State.svcFill_keeps ..).after (State.setFn_keeps ..)
  · exact State.setF_keeps ..

/-! ### The operations of Machine/HostAccess.lean -/

theorem State.writeFld_keeps (s : State) (master : Nat) (t : State) (f : Fld) (i v : Nat) :
    Keeps t (s.writeFld master t f i v) := by
  unfold State.writeFld
  extract_lets _
  refine Keeps.ite _ (Keeps.refl _) ?_
  split
  · exact State.setF_keeps ..
  · exact State.setF_keeps ..
  · exact Keeps.ite _ (State.setF_keeps ..) (Keeps.refl _)
  · exact Keeps.ite _ (State.setF_keeps ..) (Keeps.refl _)
  · exact Keeps.refl _

theorem State.sweepSettle_keeps (s : State) : Keeps s (s.sweepSettle) := by
  unfold State.sweepSettle
  extract_lets _
  exact Keeps.of_eq rfl rfl rfl

theorem State.writeReg_keeps (s : State) (master : Nat) (r : Reg) (i v : Nat) : Keeps s (s.writeReg master r i v) := by
  unfold State.writeReg
  extract_lets s1
  have hs1 : Keeps s s1 := Keeps.ite _ (State.sweepSettle_keeps ..) (Keeps.refl _)
  exact Keeps.after (Keeps.foldl _ (fun _ _ => State.writeFld_keeps ..) _ _) hs1

theorem State.winWrite_keeps (s : State) (master fn : Nat) (off v : Nat) : Keeps s (s.winWrite master fn off v) := by
  unfold State.winWrite
  split
  · extract_lets _
    exact Keeps.ite _ (State.writeReg_keeps ..) (Keeps.ite _ (State.denied_keeps ..) (Keeps.refl _))
  · exact State.writeReg_keeps ..
  · exact Keeps.refl _

theorem State.pfWrite_keeps (s : State) (master off v : Nat) : Keeps s (s.pfWrite master off v) := by
  unfold State.pfWrite
  refine Keeps.ite _ (State.accErr_keeps ..) ?_
  split
  · exact State.winWrite_keeps ..
  · split
    · exact State.writeReg_keeps ..
    · exact Keeps.refl _

theorem State.vfWrite_keeps (s : State) (t off v : Nat) : Keeps s (s.vfWrite t off v) := by
  unfold State.vfWrite
  refine Keeps.ite _ ?_ (State.winWrite_keeps ..)
  refine Keeps.ite _ ?_ (State.denied_keeps ..)
  split
  · exact State.writeReg_keeps ..
  · exact Keeps.refl _

theorem execRegisterWrite_completes (now : Nat) (fn : Func) (off : BitVec 26) (v : Word) (be : BitVec 4)
    (poisoned : Bool) (s : State) :
    Completes s (execRegisterWrite now fn off v be poisoned s) := by
  unfold execRegisterWrite
  refine Completes.next ?_
  refine Keeps.after (State.hosted_keeps_all _ _ _ (fun t => ?_)) (State.advance_keeps ..)
  refine Keeps.ite _ (State.emit_keeps ..) ?_
  refine Keeps.ite _ ?_ ?_
  · exact Keeps.refl _
  · exact Keeps.ite _ (State.accErr_keeps ..) (Keeps.ite _ (State.pfWrite_keeps ..) (State.vfWrite_keeps ..))

theorem State.readAt_keeps (s : State) (master off : Nat) : Keeps s (s.readAt master off).1 := by
  unfold State.readAt
  extract_lets _
  split
  · exact State.accErr_keeps ..
  · split
    · exact Keeps.refl _
    · split
      · exact Keeps.refl _
      · split
        · exact Keeps.refl _
        · split
          · split
            · exact State.pointLatch_keeps ..
            · split
              · exact Keeps.refl _
              · split
                · exact Keeps.of_eq rfl rfl rfl
                · exact Keeps.refl _
          · exact Keeps.refl _

theorem State.indirectRead_keeps (s : State) (f : Nat) : Keeps s (s.indirectRead f).1 := by
  unfold State.indirectRead
  split
  · split
    · exact State.readAt_keeps ..
    · exact State.denied_keeps ..
  · exact State.denied_keeps ..

theorem execIndirectRead_completes (now : Nat) (t : Fin 128) (s : State) : Completes s (execIndirectRead now t s) := by
  unfold execIndirectRead
  extract_lets _
  refine Completes.next ?_
  refine Keeps.after (State.hosted_keeps_all _ _ _ (fun t => ?_)) (State.advance_keeps ..)
  extract_lets x
  have hx : Keeps t x.1 := State.indirectRead_keeps ..
  exact (State.emit_keeps ..).after hx

theorem State.vfRead_keeps (s : State) (t off : Nat) : Keeps s (s.vfRead t off).1 := by
  unfold State.vfRead
  split
  · split
    · exact State.readAt_keeps ..
    · exact State.denied_keeps ..
  · split
    · exact Keeps.refl _
    · split
      · extract_lets _
        split
        · exact Keeps.refl _
        · split
          · exact State.denied_keeps ..
          · exact Keeps.refl _
      · exact State.indirectRead_keeps ..
      · exact Keeps.refl _
      · exact Keeps.refl _

theorem execPairedValueRead_completes (now : Nat) (r : RegRead) (s : State) : Completes s (execPairedValueRead now r s) := by
  unfold execPairedValueRead
  refine Completes.next ?_
  extract_lets _
  refine Keeps.after (State.hosted_keeps_all _ _ _ (fun t => ?_)) (State.advance_keeps ..)
  extract_lets x
  have hx : Keeps t x.1 := by
    unfold x
    split
    · exact State.readAt_keeps ..
    · exact State.vfRead_keeps ..
  exact Keeps.ite _ (State.emit_keeps ..) ((State.emit_keeps ..).after hx)

theorem State.bar2Read_keeps (s : State) (master fn : Nat) (a n : Nat) : Keeps s (s.bar2Read master fn a n) := by
  unfold State.bar2Read
  refine Keeps.ite _ (State.emit_keeps ..) ?_
  refine Keeps.ite _ ((State.emit_keeps ..).after (State.denied_keeps ..)) ?_
  refine Keeps.ite _ ?_ ?_
  · exact (State.emit_keeps ..).after (State.accErr_keeps ..)
  · exact (State.emit_keeps ..).after (State.readEcc_keeps ..)

theorem execBar2Read_completes (now : Nat) (fn : Func) (off : BitVec 27) (len : Nat) (s : State) :
    Completes s (execBar2Read now fn off len s) :=
  Completes.next (Keeps.after (State.hosted_keeps_all _ _ _ (fun _ => State.bar2Read_keeps ..)) (State.advance_keeps ..))

theorem State.aerReport_keeps (s : State) (fn a n : Nat) : Keeps s (s.aerReport fn a n) := by
  unfold State.aerReport
  extract_lets t
  have ht : Keeps s t := State.emit_keeps ..
  exact Keeps.ite _ ht (ht.trans (Keeps.of_eq rfl rfl rfl))

theorem State.hostFill_keeps (s : State) (a n : Nat) (e : Nat × Ring) : Keeps s (s.hostFill a n e) := by
  unfold State.hostFill
  extract_lets _ _ _ s1
  have hs1 : Keeps s s1 := Keeps.ite _ (State.setSlot_keeps ..) (Keeps.refl _)
  refine Keeps.ite _ ?_ ?_
  · exact Keeps.refl _
  · exact Keeps.ite _ ((State.stepWr_keeps ..).after ((State.setSlot_keeps ..).after hs1)) hs1

theorem State.hostFed_keeps (s : State) (a n : Nat) : Keeps s (s.hostFed a n) :=
  Keeps.foldl _ (fun _ _ => State.hostFill_keeps ..) _ _

theorem State.bar2Write_keeps (s : State) (master fn a : Nat) (bs : List Byte) (poisoned : Bool) :
    Keeps s (s.bar2Write master fn a bs poisoned) := by
  unfold State.bar2Write
  extract_lets w t
  have hw : Keeps s w.1 := by
    unfold w
    split
    · exact Keeps.foldl _ (fun _ _ => State.mark_keeps ..) _ _
    · exact State.writeMem_keeps ..
  have ht : Keeps s t := Keeps.ite _ ((State.aerReport_keeps ..).after hw) hw
  refine Keeps.ite _ (State.emit_keeps ..) ?_
  refine Keeps.ite _ ?_ ?_
  · exact State.denied_keeps ..
  · exact Keeps.ite _ (State.accErr_keeps ..) (Keeps.ite _ ((State.hostFed_keeps ..).after ht) ht)

theorem execBar2Write_completes (now : Nat) (fn : Func) (off : BitVec 27) (data : List Byte) (poisoned : Bool) (s : State) :
    Completes s (execBar2Write now fn off data poisoned s) :=
  Completes.next (Keeps.after (State.hosted_keeps_all _ _ _ (fun _ => State.bar2Write_keeps ..)) (State.advance_keeps ..))

theorem execAccerrClear_completes (now : Nat) (s : State) : Completes s (execAccerrClear now s) :=
  Completes.next (Keeps.after (State.hosted_keeps_all _ _ _ (fun _ => State.setF_keeps ..)) (State.advance_keeps ..))

theorem execCmRequestPromote_completes (now : Nat) (cl : Cluster) (co : Core) (off : BitVec 19) (req : Fin 24)
    (since : Nat) (s : State) :
    Completes s (execCmRequestPromote now cl co off req since s) := by
  unfold execCmRequestPromote
  extract_lets s1 _
  have hs1 : Keeps s s1 := State.advance_keeps ..
  exact Completes.ite _ (Completes.next (hs1.trans (Keeps.of_eq rfl rfl rfl))) (Completes.next hs1)

theorem State.trgWrite_keeps (s : State) (fn m v : Nat) : Keeps s (s.trgWrite fn m v) :=
  Keeps.ite _ (State.trgRelease_keeps ..) (Keeps.ite _ (State.trgArm_keeps ..) (State.trgDisarm_keeps ..))

theorem State.ctlWrite_keeps (s : State) (fn i v : Nat) : Keeps s (s.ctlWrite fn i v) := by
  unfold State.ctlWrite
  extract_lets s1
  have hs1 : Keeps s s1 := Keeps.ite _ (State.stopWrite_keeps ..) (Keeps.refl _)
  exact Keeps.ite _ ((State.restartWrite_keeps ..).after hs1) hs1

theorem State.indirect_keeps (s : State) (t : Nat) (r : Reg) (i v : Nat) : Keeps s (s.indirect t r i v) := by
  unfold State.indirect
  split
  · exact Keeps.ite _ (State.ctlWrite_keeps ..) (State.denied_keeps ..)
  · exact Keeps.ite _ (Keeps.ite _ (State.relearn_keeps ..) (Keeps.refl _)) (State.denied_keeps ..)
  · exact State.holdWrite_keeps ..
  · exact State.trgWrite_keeps ..
  · exact State.trgValue_keeps ..
  · exact State.trgValue_keeps ..
  · exact State.trgValue_keeps ..
  · exact State.denied_keeps ..

theorem execIndirectWrite_completes (now : Nat) (t : Fin 128) (v : Word) (s : State) :
    Completes s (execIndirectWrite now t v s) := by
  unfold execIndirectWrite
  extract_lets _
  refine Completes.next ?_
  refine Keeps.after (State.hosted_keeps_all _ _ _ (fun t => ?_)) (State.advance_keeps ..)
  split
  · exact State.indirect_keeps ..
  · exact State.denied_keeps ..

/-! ### The operations of Machine/Debug.lean -/

theorem State.actA_keeps (s : State) (r : Reg) (i : Nat) (v : Word) : Keeps s (s.actA r i v) := by
  unfold State.actA
  extract_lets _ s1 s2 _ s3 s4 s5
  have hs1 : Keeps s s1 := Keeps.ite _ ((State.after_keeps (execPrepare_completes ..)).after (State.burn_keeps ..))
      (Keeps.refl _)
  have hs2 : Keeps s s2 := Keeps.ite _ ((State.after_keeps (execWake_completes ..)).after hs1) hs1
  have hs3 : Keeps s s3 := Keeps.ite _ (State.after_keeps (execFlush_completes ..)) (Keeps.refl _)
  have hs4 : Keeps s s4 := Keeps.ite _ ((State.after_keeps (execMailboxAck_completes ..)).after hs3) hs3
  have hs5 : Keeps s s5 := Keeps.ite _ ((State.after_keeps (execClrtmo_completes ..)).after hs4) hs4
  split
  · exact Keeps.ite _ (State.setF_keeps ..) (Keeps.refl _)
  · exact State.after_keeps (execDieReset_completes ..)
  · exact Keeps.ite _ ((State.after_keeps (execBear_completes ..)).after hs2) hs2
  · exact Keeps.ite _ (State.after_keeps (execSwitch_completes ..)) (Keeps.refl _)
  · exact Keeps.ite _ (State.after_keeps (execMailboxLock_completes ..)) (Keeps.refl _)
  · exact State.after_keeps (execMailboxBind_completes ..)
  · exact State.after_keeps (execMailboxBind_completes ..)
  · exact Keeps.ite _ ((State.after_keeps (execMailboxPost_completes ..)).after hs5) hs5
  · exact State.after_keeps (execCapWrite_completes ..)
  · exact State.after_keeps (execAvsEnableWrite_completes ..)
  · exact (State.after_keeps (execDiedomOffRequest_completes ..)).after (State.after_keeps (execDiedomOffRequest_completes ..))
  · exact Keeps.ite _ (State.after_keeps (execRegulatorClr_completes ..)) (Keeps.refl _)
  · exact State.after_keeps (execPosPortConfig_completes ..)
  · exact State.after_keeps (execPosSyncConfig_completes ..)
  · exact State.holdWrite_keeps ..
  · exact State.trgWrite_keeps ..
  · exact State.trgValue_keeps ..
  · exact State.trgValue_keeps ..
  · exact State.trgValue_keeps ..
  · exact Keeps.refl _

theorem State.actB_keeps (s : State) (r : Reg) (i : Nat) (v : Word) : Keeps s (s.actB r i v) := by
  unfold State.actB
  extract_lets _ _ s1 s2 s3
  have hs1 : Keeps s s1 := Keeps.ite _ (State.after_keeps (execSettCommit_completes ..)) (Keeps.refl _)
  have hs2 : Keeps s s2 := State.after_keeps (execSdacSpanRouteChange_completes ..)
  have hs3 : Keeps s s3 := Keeps.ite _ ((State.after_keeps (execLoopcal_completes ..)).after hs2) hs2
  split
  · exact State.after_keeps (execWatchInputConfig_completes ..)
  · exact Keeps.ite _ (State.after_keeps (execWatchInputClear_completes ..)) (Keeps.refl _)
  · exact State.after_keeps (execForce_completes ..)
  · exact Keeps.ite _ (State.after_keeps (execWatchOutputClear_completes ..)) (Keeps.refl _)
  · exact Keeps.ite _ ((State.after_keeps (execSettDiscard_completes ..)).after hs1) hs1
  · exact State.after_keeps (execLcChangeRequest_completes ..)
  · exact Keeps.ite _ (State.after_keeps (execFwarbAdvance_completes ..)) (Keeps.refl _)
  · refine Keeps.ite _ ?_ ?_
    · exact (State.after_keeps (execSessionRequest_completes ..)).after hs3
    · exact (State.after_keeps (execSessionEnd_completes ..)).after hs3
  · exact State.after_keeps (execSdacFtwWrite_completes ..)
  · exact Keeps.ite _ (State.after_keeps (execWldErrClear_completes ..)) (Keeps.refl _)
  · exact Keeps.ite _ (State.after_keeps (execLinkLock_completes ..)) (Keeps.refl _)
  · refine Keeps.ite _ ?_ ?_
    · exact State.after_keeps (execLinkPortEnable_completes ..)
    · exact State.after_keeps (execLinkDown_completes ..)
  · exact State.after_keeps (execTraceEnable_completes ..)
  · exact Keeps.ite _ (State.setF_keeps ..) (Keeps.refl _)
  · exact State.ctlWrite_keeps ..
  · exact Keeps.ite _ (State.after_keeps (execOcuClrCnt_completes ..)) (Keeps.refl _)
  · exact Keeps.ite _ (State.relearn_keeps ..) (Keeps.refl _)
  · exact Keeps.ite _ (State.setF_keeps ..) (Keeps.refl _)
  · exact Keeps.ite _ (State.setF_keeps ..) (Keeps.refl _)
  · exact Keeps.ite _ (State.setF_keeps ..) (Keeps.refl _)
  · exact Keeps.ite _ (State.after_keeps (execEngineClrCnt_completes ..)) (Keeps.refl _)
  · exact Keeps.refl _

theorem State.actWin_keeps (s : State) (r : Reg) (i : Nat) (v : Word) : Keeps s (s.actWin r i v) := by
  unfold State.actWin
  extract_lets _ _
  split
  · exact Keeps.ite _ (State.after_keeps (execCmdRingEnable_completes ..)) (Keeps.refl _)
  · exact (State.after_keeps (execCommandDoorbell_completes ..)).after (Keeps.of_eq rfl rfl rfl)
  · exact State.after_keeps (execCplHeadAdvance_completes ..)
  · exact Keeps.ite _ (State.after_keeps (execServiceAck_completes ..)) (Keeps.refl _)
  · exact Keeps.ite _ (State.post_keeps ..) (Keeps.refl _)
  · exact Keeps.ite _ (State.popEvent_keeps ..) (Keeps.refl _)
  · exact Keeps.refl _

theorem State.debugWrite_keeps (s : State) (off : Nat) (v : Word) : Keeps s (s.debugWrite off v) := by
  unfold State.debugWrite
  extract_lets t
  have ht : Keeps s t := State.pfWrite_keeps ..
  refine Keeps.ite _ ht ?_
  refine Keeps.ite _ ((State.settWrite_keeps ..).after ht) ?_
  refine Keeps.ite _ (Keeps.ite _ ((State.after_keeps (execTencLatch_completes ..)).after ht) ht) ?_
  split
  · split
    · exact (State.actWin_keeps ..).after ht
    · exact ht
  · split
    · exact Keeps.ite _ (Keeps.refl _) ((State.actB_keeps ..).after ((State.actA_keeps ..).after ht))
    · exact ht

theorem execDebugPortAccess_completes (now : Nat) (access : DebugAccess) (s : State) :
    Completes s (execDebugPortAccess now access s) := by
  unfold execDebugPortAccess
  extract_lets s1 _
  have hs1 : Keeps s s1 := State.advance_keeps ..
  split
  · extract_lets r
    have hr : Keeps s r.1 := (State.readAt_keeps ..).after hs1
    exact Completes.next (Keeps.ite _ hs1 ((State.emit_keeps ..).after hr))
  · refine Completes.next ?_
    refine Keeps.ite _ ?_ ?_
    · exact hs1
    · exact Keeps.ite _ ((State.accErr_keeps ..).after hs1) ((State.debugWrite_keeps ..).after hs1)
  · exact Completes.next (Keeps.ite _ hs1 ((State.bar2Read_keeps ..).after hs1))
  · exact Completes.next (Keeps.ite _ hs1 ((State.bar2Write_keeps ..).after hs1))
  · exact Completes.next (Keeps.ite _ hs1 ((State.settWrite_keeps ..).after hs1))

/-! ### The operations of Machine/Dispatch.lean -/

/-- Every command gives a next state, and that state keeps the queue, the canonical form of SRAM and the fit of every field. -/
theorem exec_completes (c : Instr) (s : State) : Completes s (exec c s) := by
  cases c
  case registerWrite => exact execRegisterWrite_completes ..
  case pairedValueRead => exact execPairedValueRead_completes ..
  case bar2Read => exact execBar2Read_completes ..
  case bar2Write => exact execBar2Write_completes ..
  case accerrClear => exact execAccerrClear_completes ..
  case cmRequestPromote => exact execCmRequestPromote_completes ..
  case progTokenGrant => exact execProgTokenGrant_completes ..
  case vectorLoad => exact execVectorLoad_completes ..
  case enginePhase => exact execEnginePhase_completes ..
  case readoutCopy => exact execReadoutCopy_completes ..
  case chainAdd => exact execChainAdd_completes ..
  case outputStage => exact execOutputStage_completes ..
  case vxeRescale => exact execVxeRescale_completes ..
  case partialSumAdd => exact execPartialSumAdd_completes ..
  case engineClrCnt => exact execEngineClrCnt_completes ..
  case ocuVectorService => exact execOcuVectorService_completes ..
  case ocuEscalationService => exact execOcuEscalationService_completes ..
  case ocuClrCnt => exact execOcuClrCnt_completes ..
  case trackerUpdate => exact execTrackerUpdate_completes ..
  case keepaliveBurst => exact execKeepaliveBurst_completes ..
  case trackerFirstUpdate => exact execTrackerFirstUpdate_completes ..
  case dacServeCluster => exact execDacServeCluster_completes ..
  case converterCalibration => exact execConverterCalibration_completes ..
  case twoPointCheck => exact execTwoPointCheck_completes ..
  case trimRefreshDue => exact execTrimRefreshDue_completes ..
  case touchupDue => exact execTouchupDue_completes ..
  case touchupStep => exact execTouchupStep_completes ..
  case owlWindowClose => exact execOwlWindowClose_completes ..
  case relearn => exact execRelearn_completes ..
  case sdacSpanRouteChange => exact execSdacSpanRouteChange_completes ..
  case passageEnd => exact execPassageEnd_completes ..
  case sdacFtwWrite => exact execSdacFtwWrite_completes ..
  case sessionRequest => exact execSessionRequest_completes ..
  case sessionGrant => exact execSessionGrant_completes ..
  case sessionEnd => exact execSessionEnd_completes ..
  case sessionTimeout => exact execSessionTimeout_completes ..
  case loopcal => exact execLoopcal_completes ..
  case loopcalDone => exact execLoopcalDone_completes ..
  case tileStart => exact execTileStart_completes ..
  case tileComplete => exact execTileComplete_completes ..
  case stationPark => exact execStationPark_completes ..
  case stationUnpark => exact execStationUnpark_completes ..
  case migrationRequest => exact execMigrationRequest_completes ..
  case tmvTransfer => exact execTmvTransfer_completes ..
  case tmvTransferDone => exact execTmvTransferDone_completes ..
  case tmvRetry => exact execTmvRetry_completes ..
  case openContext => exact execOpenContext_completes ..
  case closeContext => exact execCloseContext_completes ..
  case contextClosed => exact execContextClosed_completes ..
  case post => exact execPost_completes ..
  case ingestJobStart => exact execIngestJobStart_completes ..
  case ingestJobDone => exact execIngestJobDone_completes ..
  case eccScrubWrite => exact execEccScrubWrite_completes ..
  case eccCaptureClear => exact execEccCaptureClear_completes ..
  case drainWindowClose => exact execDrainWindowClose_completes ..
  case decisionWord => exact execDecisionWord_completes ..
  case nop => exact execNop_completes ..
  case movi => exact execMovi_completes ..
  case movhi => exact execMovhi_completes ..
  case add => exact execAdd_completes ..
  case sub => exact execSub_completes ..
  case and => exact execAnd_completes ..
  case or => exact execOr_completes ..
  case xor => exact execXor_completes ..
  case addi => exact execAddi_completes ..
  case shli => exact execShli_completes ..
  case shri => exact execShri_completes ..
  case cmp => exact execCmp_completes ..
  case plog => exact execPlog_completes ..
  case br => exact execBr_completes ..
  case loop => exact execLoop_completes ..
  case jr => exact execJr_completes ..
  case ldw => exact execLdw_completes ..
  case stw => exact execStw_completes ..
  case copy => exact execCopy_completes ..
  case copyDone => exact execCopyDone_completes ..
  case fire => exact execFire_completes ..
  case grantsLand => exact execGrantsLand_completes ..
  case wait => exact execWait_completes ..
  case waitResume => exact execWaitResume_completes ..
  case waitTimeout => exact execWaitTimeout_completes ..
  case bar => exact execBar_completes ..
  case barrierRelease => exact execBarrierRelease_completes ..
  case barrierTimeout => exact execBarrierTimeout_completes ..
  case bcast => exact execBcast_completes ..
  case bcastDeliver => exact execBcastDeliver_completes ..
  case epw => exact execEpw_completes ..
  case epa => exact execEpa_completes ..
  case snap => exact execSnap_completes ..
  case snapshotDone => exact execSnapshotDone_completes ..
  case drst => exact execDrst_completes ..
  case domainResetDone => exact execDomainResetDone_completes ..
  case dwr => exact execDwr_completes ..
  case cnt => exact execCnt_completes ..
  case rdt => exact execRdt_completes ..
  case mpost => exact execMpost_completes ..
  case tmark => exact execTmark_completes ..
  case halt => exact execHalt_completes ..
  case threadStop => exact execThreadStop_completes ..
  case threadRestart => exact execThreadRestart_completes ..
  case threadExcClear => exact execThreadExcClear_completes ..
  case stepperExcClear => exact execStepperExcClear_completes ..
  case loadBitstream => exact execLoadBitstream_completes ..
  case unload => exact execUnload_completes ..
  case setQuota => exact execSetQuota_completes ..
  case reclaimDeadline => exact execReclaimDeadline_completes ..
  case claimRelease => exact execClaimRelease_completes ..
  case importKey => exact execImportKey_completes ..
  case load => exact execLoad_completes ..
  case swap => exact execSwap_completes ..
  case sweepLoad => exact execSweepLoad_completes ..
  case erase => exact execErase_completes ..
  case loaderJobStart => exact execLoaderJobStart_completes ..
  case eraseStep => exact execEraseStep_completes ..
  case programIteration => exact execProgramIteration_completes ..
  case sweepTilesDone => exact execSweepTilesDone_completes ..
  case readbackStart => exact execReadbackStart_completes ..
  case readbackDone => exact execReadbackDone_completes ..
  case readbackOverdue => exact execReadbackOverdue_completes ..
  case wldErrClear => exact execWldErrClear_completes ..
  case quadTransition => exact execQuadTransition_completes ..
  case zEdge => exact execZEdge_completes ..
  case lineEdge => exact execLineEdge_completes ..
  case cycleEdge => exact execCycleEdge_completes ..
  case cycleLoss => exact execCycleLoss_completes ..
  case syncEdge => exact execSyncEdge_completes ..
  case epochBoundary => exact execEpochBoundary_completes ..
  case syncWindowEnd => exact execSyncWindowEnd_completes ..
  case posPortConfig => exact execPosPortConfig_completes ..
  case triggerArm => exact execTriggerArm_completes ..
  case triggerDisarm => exact execTriggerDisarm_completes ..
  case triggerFree => exact execTriggerFree_completes ..
  case triggerFire => exact execTriggerFire_completes ..
  case holdWrite => exact execHoldWrite_completes ..
  case vfFlr => exact execVfFlr_completes ..
  case vfFlrDone => exact execVfFlrDone_completes ..
  case pfFlr => exact execPfFlr_completes ..
  case pcieConventionalReset => exact execPcieConventionalReset_completes ..
  case vfEnableChange => exact execVfEnableChange_completes ..
  case commandDoorbell => exact execCommandDoorbell_completes ..
  case commandAccept => exact execCommandAccept_completes ..
  case cplHeadAdvance => exact execCplHeadAdvance_completes ..
  case cmdRingEnable => exact execCmdRingEnable_completes ..
  case hostReadTimeout => exact execHostReadTimeout_completes ..
  case serviceAck => exact execServiceAck_completes ..
  case mailboxBind => exact execMailboxBind_completes ..
  case mailboxLock => exact execMailboxLock_completes ..
  case mailboxPost => exact execMailboxPost_completes ..
  case mailboxAck => exact execMailboxAck_completes ..
  case mailboxTimeout => exact execMailboxTimeout_completes ..
  case clrtmo => exact execClrtmo_completes ..
  case flush => exact execFlush_completes ..
  case indirectRead => exact execIndirectRead_completes ..
  case indirectWrite => exact execIndirectWrite_completes ..
  case linkLock => exact execLinkLock_completes ..
  case linkPortEnable => exact execLinkPortEnable_completes ..
  case linkTrainingDone => exact execLinkTrainingDone_completes ..
  case linkUp => exact execLinkUp_completes ..
  case linkRetry => exact execLinkRetry_completes ..
  case flitCrcError => exact execFlitCrcError_completes ..
  case replayTimeout => exact execReplayTimeout_completes ..
  case idle => exact execIdle_completes ..
  case tileHead => exact execTileHead_completes ..
  case tileData => exact execTileData_completes ..
  case tileAbort => exact execTileAbort_completes ..
  case credit => exact execCredit_completes ..
  case barrierFrame => exact execBarrierFrame_completes ..
  case bcastFrame => exact execBcastFrame_completes ..
  case mbxPostFrame => exact execMbxPostFrame_completes ..
  case mbxAckFrame => exact execMbxAckFrame_completes ..
  case timeFrame => exact execTimeFrame_completes ..
  case nak => exact execNak_completes ..
  case idFrame => exact execIdFrame_completes ..
  case linkSendTile => exact execLinkSendTile_completes ..
  case timeExchange => exact execTimeExchange_completes ..
  case linkDown => exact execLinkDown_completes ..
  case watchInputChange => exact execWatchInputChange_completes ..
  case discrepancyFault => exact execDiscrepancyFault_completes ..
  case clrReady => exact execClrReady_completes ..
  case watchInputClear => exact execWatchInputClear_completes ..
  case holdExpire => exact execHoldExpire_completes ..
  case outputShort => exact execOutputShort_completes ..
  case outputMismatch => exact execOutputMismatch_completes ..
  case watchOutputClear => exact execWatchOutputClear_completes ..
  case force => exact execForce_completes ..
  case powerOn => exact execPowerOn_completes ..
  case clusterFullService => exact execClusterFullService_completes ..
  case dieReset => exact execDieReset_completes ..
  case bear => exact execBear_completes ..
  case bearEntryDone => exact execBearEntryDone_completes ..
  case wake => exact execWake_completes ..
  case wakeDone => exact execWakeDone_completes ..
  case prepare => exact execPrepare_completes ..
  case checkpointCommit => exact execCheckpointCommit_completes ..
  case heartbeatLoss => exact execHeartbeatLoss_completes ..
  case mgrWatchdog => exact execMgrWatchdog_completes ..
  case mgrMemoryError => exact execMgrMemoryError_completes ..
  case switch => exact execSwitch_completes ..
  case mgrStandbyReady => exact execMgrStandbyReady_completes ..
  case domainSwitchOn => exact execDomainSwitchOn_completes ..
  case domainSwitchOff => exact execDomainSwitchOff_completes ..
  case budgetRefill => exact execBudgetRefill_completes ..
  case capWrite => exact execCapWrite_completes ..
  case pmbusTelemetry => exact execPmbusTelemetry_completes ..
  case smbalert => exact execSmbalert_completes ..
  case regulatorRetry => exact execRegulatorRetry_completes ..
  case regulatorClr => exact execRegulatorClr_completes ..
  case avsAdjust => exact execAvsAdjust_completes ..
  case avsMonitorWarning => exact execAvsMonitorWarning_completes ..
  case sensorRead => exact execSensorRead_completes ..
  case sensorCheck => exact execSensorCheck_completes ..
  case bandChange => exact execBandChange_completes ..
  case throttleStep => exact execThrottleStep_completes ..
  case railUndervoltage => exact execRailUndervoltage_completes ..
  case settWindowWrite => exact execSettWindowWrite_completes ..
  case settCommit => exact execSettCommit_completes ..
  case settDiscard => exact execSettDiscard_completes ..
  case settCommitDone => exact execSettCommitDone_completes ..
  case counterGroupUpdate => exact execCounterGroupUpdate_completes ..
  case marginScan => exact execMarginScan_completes ..
  case lcChangeRequest => exact execLcChangeRequest_completes ..
  case lcBurnDone => exact execLcBurnDone_completes ..
  case fwarbAdvance => exact execFwarbAdvance_completes ..
  case fwarbBurnDone => exact execFwarbBurnDone_completes ..
  case keystoreRequest => exact execKeystoreRequest_completes ..
  case watchArm => exact execWatchArm_completes ..
  case watchDisarm => exact execWatchDisarm_completes ..
  case watchWindowClose => exact execWatchWindowClose_completes ..
  case watchStatRead => exact execWatchStatRead_completes ..
  case traceConsent => exact execTraceConsent_completes ..
  case digestRegion => exact execDigestRegion_completes ..
  case digestRegionDone => exact execDigestRegionDone_completes ..
  case tencLatch => exact execTencLatch_completes ..
  case traceEnable => exact execTraceEnable_completes ..
  case traceDrainBlock => exact execTraceDrainBlock_completes ..
  case evqPop => exact execEvqPop_completes ..
  case eventCoalescedFlush => exact execEventCoalescedFlush_completes ..
  case payloadFetchDone => exact execPayloadFetchDone_completes ..
  case sweepBudgetReady => exact execSweepBudgetReady_completes ..
  case keystoreRequestDone => exact execKeystoreRequestDone_completes ..
  case triggerValueWrite => exact execTriggerValueWrite_completes ..
  case posSyncConfig => exact execPosSyncConfig_completes ..
  case watchInputConfig => exact execWatchInputConfig_completes ..
  case diedomOffRequest => exact execDiedomOffRequest_completes ..
  case avsEnableWrite => exact execAvsEnableWrite_completes ..
  case perstRelease => exact execPerstRelease_completes ..
  case railReturn => exact execRailReturn_completes ..
  case flitReservedType => exact execFlitReservedType_completes ..
  case debugPortAccess => exact execDebugPortAccess_completes ..

/-! ### The obligations -/

/-- A step keeps: on an empty queue nothing changes, else the command at the front keeps, which touches no queue itself. -/
theorem step_keeps_image {s t : State} (h : step s = .next t) :
    (Memory.wf s.sram = true → Memory.wf t.sram = true) ∧ (FieldsFit s → FieldsFit t) := by
  unfold step at h
  split at h
  next => cases h; exact ⟨id, id⟩
  next c rest _ =>
    obtain ⟨u, hu, hk⟩ := exec_completes c { s with pending := rest }
    obtain rfl : t = u := Host.Outcome.next.inj (h.symm.trans hu)
    exact ⟨hk.sram, hk.fit⟩

/-- Settles O4: every operation keeps the canonical form of SRAM. -/
theorem stepKeepsMemoryCanonical : Obligations.StepKeepsMemoryCanonical := by
  unfold Obligations.StepKeepsMemoryCanonical
  exact fun s t hs h => (step_keeps_image h).1 hs

/-- Settles O6: every operation keeps the fit of every field. -/
theorem stepKeepsFieldsFit : Obligations.StepKeepsFieldsFit := by
  unfold Obligations.StepKeepsFieldsFit
  exact fun s t hs h => (step_keeps_image h).2 hs

/-- Settles O2: on an empty queue the step's own first case, and else no operation touches the queue. -/
theorem queueIsKept : Obligations.QueueIsKept := by
  unfold Obligations.QueueIsKept
  refine ⟨fun s hs => by simp [step, hs], fun c s t h => ?_⟩
  obtain ⟨u, hu, hk⟩ := exec_completes c s
  obtain rfl : t = u := Host.Outcome.next.inj (h.symm.trans hu)
  exact hk.queue

/-- Settles O3: every command's outcome is a next state. -/
theorem everyCommandCompletes : Obligations.EveryCommandCompletes := by
  unfold Obligations.EveryCommandCompletes
  intro c s
  obtain ⟨t, ht, -⟩ := exec_completes c s
  exact ⟨t, ht⟩

/-- Settles O1: the queue's front is the command that the step carries out. -/
theorem stepTakesFrontCommand : Obligations.StepTakesFrontCommand := by
  unfold Obligations.StepTakesFrontCommand
  exact fun c rest s => rfl

/-- Settles O5: after reset SRAM lists no byte, and an unlisted byte reads 0. -/
theorem resetMemoryCanonical : Obligations.ResetMemoryCanonical := by
  unfold Obligations.ResetMemoryCanonical
  exact ⟨rfl, fun _ => rfl⟩

/-- Settles O7: after reset a field reads its table's reset value, and each of these fits. -/
theorem resetFieldsFit : Obligations.ResetFieldsFit := by
  unfold Obligations.ResetFieldsFit
  refine ⟨fun f i => ?_, reset_getF⟩
  rw [reset_getF]
  exact f.rst_lt

end Sys2Proof.Machine
end

section
/-!
PROOF. Frames of registers and bytes, a thread's registers and trace, and the issue of an instruction that executes
(R187 to R192).
-/

set_option Elab.async false

namespace Sys2Proof.Machine
open Sys2Proof

/-! ### Frames: registers and bytes kept -/

theorem KeepsRegs.refl (s : State) (w : Fld → Nat → Bool) : KeepsRegs s s w := fun _ _ _ => rfl

theorem KeepsRegs.trans {s t u : State} {w : Fld → Nat → Bool} (h : KeepsRegs s t w) (k : KeepsRegs t u w) :
    KeepsRegs s u w := fun f i hw => (k f i hw).trans (h f i hw)

theorem KeepsRegs.mono {s t : State} {v w : Fld → Nat → Bool} (h : KeepsRegs s t v)
    (hw : ∀ f i, w f i = false → v f i = false) : KeepsRegs s t w := fun f i hf => h f i (hw f i hf)

/-- One more write, of a field that may be written. -/
theorem KeepsRegs.setF {s t : State} {w : Fld → Nat → Bool} (h : KeepsRegs s t w) {g : Fld} {i : Nat} (hw : w g i = true)
    (v : Nat) : KeepsRegs s (t.setF g i v) w := by
  intro f j hf
  refine (State.getF_setF_ne t v ?_).trans (h f j hf)
  rintro ⟨rfl, rfl⟩
  simp [hw] at hf

theorem KeepsRegs.of_regs_eq {s t : State} (h : t.regs = s.regs) (w : Fld → Nat → Bool) : KeepsRegs s t w :=
  fun f i _ => by simp only [State.getF, h]

theorem KeepsRegs.congr {s t u : State} {w : Fld → Nat → Bool} (h : KeepsRegs s t w) (hu : u.regs = t.regs) :
    KeepsRegs s u w := h.trans (KeepsRegs.of_regs_eq hu w)

theorem KeepsBytes.refl (s : State) (w : Nat → Bool) : KeepsBytes s s w := fun _ _ => rfl

theorem KeepsBytes.trans {s t u : State} {w : Nat → Bool} (h : KeepsBytes s t w) (k : KeepsBytes t u w) :
    KeepsBytes s u w := fun a hw => (k a hw).trans (h a hw)

theorem KeepsBytes.of_sram_eq {s t : State} (h : t.sram = s.sram) (w : Nat → Bool) : KeepsBytes s t w :=
  fun a _ => by simp only [State.byte, h]

/-! ### Device time -/

@[simp] theorem State.sharedOn_advance (s : State) (now c : Nat) : (s.advance now).sharedOn c = s.sharedOn c := rfl

@[simp] theorem State.coreOn_advance (s : State) (now core : Nat) : (s.advance now).coreOn core = s.coreOn core := rfl

@[simp] theorem State.dieOn_advance (s : State) (now n : Nat) : (s.advance now).dieOn n = s.dieOn n := rfl

/-! ### The trace of a thread -/

theorem State.traceTh_only (s : State) (i least kind pc data : Nat) :
    s.traceTh i least kind pc data = { s with traces := (s.traceTh i least kind pc data).traces } := by
  unfold State.traceTh
  split <;> rfl

@[simp] theorem State.getF_traceTh (s : State) (i least kind pc data : Nat) (f : Fld) (j : Nat) :
    (s.traceTh i least kind pc data).getF f j = s.getF f j := by rw [State.traceTh_only]; rfl

@[simp] theorem State.regs_traceTh (s : State) (i least kind pc data : Nat) :
    (s.traceTh i least kind pc data).regs = s.regs := by rw [State.traceTh_only]

@[simp] theorem State.thread_traceTh (s : State) (i least kind pc data j : Nat) :
    (s.traceTh i least kind pc data).thread j = s.thread j := by rw [State.traceTh_only]; rfl

/-! ### A thread's registers -/

theorem State.greg_setGreg_same (s : State) (i n : Nat) (v : Word) : (s.setGreg i n v).greg i n = v := by
  have hv := v.isLt
  simp only [State.greg, State.setGreg, State.getF_setF_same]
  exact BitVec.eq_of_toNat_eq (by simp [Fld.width, Fld.info]; omega)

@[simp] theorem State.greg_traceTh (s : State) (i least kind pc data j n : Nat) :
    (s.traceTh i least kind pc data).greg j n = s.greg j n := by simp [State.greg]

@[simp] theorem State.greg_advance (s : State) (now i n : Nat) : (s.advance now).greg i n = s.greg i n := rfl

@[simp] theorem State.greg_setPc (s : State) (i v j n : Nat) : (s.setPc i v).greg j n = s.greg j n := by
  simp [State.greg, State.setPc, State.getF_setF]

@[simp] theorem State.pc_setGreg (s : State) (i n : Nat) (v : Word) (j : Nat) : (s.setGreg i n v).pc j = s.pc j := by
  simp [State.pc, State.setGreg, State.getF_setF]

@[simp] theorem State.pc_setPc_same (s : State) (i v : Nat) : (s.setPc i v).pc i = v % 16384 :=
  State.getF_setF_same ..

@[simp] theorem State.pc_traceTh (s : State) (i least kind pc data j : Nat) :
    (s.traceTh i least kind pc data).pc j = s.pc j := State.getF_traceTh ..

@[simp] theorem State.pc_advance (s : State) (now i : Nat) : (s.advance now).pc i = s.pc i := rfl

theorem ThreadOnly.traceTh (s : State) (i least kind pc data : Nat) (w : Fld → Nat → Bool) :
    ThreadOnly s (s.traceTh i least kind pc data) w :=
  ⟨by rw [State.traceTh_only], fun _ _ _ => State.getF_traceTh ..⟩

theorem ThreadOnly.setF {s t : State} {w : Fld → Nat → Bool} (h : ThreadOnly s t w) {g : Fld} {i : Nat} (hw : w g i = true)
    (v : Nat) : ThreadOnly s (t.setF g i v) w := by
  obtain ⟨honly, hregs⟩ := h
  refine ⟨?_, hregs.setF hw v⟩
  rw [honly]
  rfl

/-! ### Issue of an instruction that executes -/

theorem Issues.advance {s : State} {i op : Nat} {w : Word} {n : Nat} (h : Issues s i op w n) (now : Nat) :
    Issues (s.advance now) i op w n := h

/-- An instruction that executes runs its body behind its trace record (R187 to R192). -/
theorem State.issue_of_issues {s : State} {i op : Nat} {w : Word} {n : Nat} (h : Issues s i op w n)
    (hop : opcodes.contains op = true) (body : State → State) :
    s.issue i w n body = body (s.traceTh i 3 0 (s.pc i) w.toNat) := by
  obtain ⟨hst, hon, hin, hin2, rfl, hg, hres⟩ := h
  have hguard : ((fieldsOf w).g && !(s.pred i (fieldsOf w).p != (fieldsOf w).n)) = false := by
    rcases hg with hg | hg <;> simp [hg]
  have hpred : (s.traceTh i 3 0 (s.pc i) w.toNat).pred i (fieldsOf w).p = s.pred i (fieldsOf w).p := by
    simp [State.pred]
  have hregion : (s.traceTh i 3 0 (s.pc i) w.toNat).inRegion i (s.pc i + n - 1) = true := by
    simpa [State.inRegion] using hin2
  unfold State.issue
  simp only [hst, hon, hin, hpred, hguard, hop, hres, hregion, bne_self_eq_false, Bool.not_true, Bool.or_self,
    Bool.false_eq_true, if_false]

/-- A row whose instruction executes does what the instruction does. -/
theorem seqRow_of_issues {s : State} {i op : Nat} {w : Word} {n : Nat} (h : Issues s i op w n) (now : Nat)
    (body : State → State) : seqRow now op w s body = .next (body (s.advance now)) := by
  obtain ⟨-, -, -, -, hop, -, -⟩ := h
  have hw : seqWord op w = true := by
    simp only [seqWord, Bool.or_eq_true, beq_iff_eq]
    exact .inl hop
  simp [seqRow, hw]

end Sys2Proof.Machine
end

section
/-!
PROOF. What an operation touches: `Touches ps s t` says that s and t differ in the parts `ps` alone. One lemma for each
small update, and the reading of a frame as an update of the state it began with.
-/

set_option Elab.async false

namespace Sys2Proof.Machine
open Sys2Proof

/-! ### Parts of the state, and what an operation leaves alone -/

/-- The fields of the machine's state. -/
inductive Part where
  | pending | time | base | pllOff | fresh | out | regs | latches | sram | ecc | cmWait | cmLast | tokenPool | tokenHeld
  | tokenWait | cells | engines | clrAt | trackers | trims | passes | bandTime | bandAt | adderFree | ocus | owls | dac | rings
  | stations | tiles | tmvs | ctxs | ingests | offers | scrubs | busy | ports | syncAt | trgAt | threads | flights | groups
  | sets | snaps | snapHeld | resets | accounts | refillAt | grants | bandMoved | thrJudged | parts | placed | jobs | beavers
  | turn | shards | spareLeft | modelKeys | shadows | weak | buckets | bucketAt | fns | numVfs | aerLog | accepted | loading
  | pba | channels | events | traces | traceSeq | traceLast | points | twLatch | digests | tencs | totals | links | domain
  | offsets | wakes | norA | norB | image | perst | wakeAsked | shutRec | calRec | capNow | pgmFault | regFails | regTried
  | avs | sensors | medPrev | deadCls | onAt | onCl | settMem | settBuf | settList | settQueue | settCommits | settRefreshes
  | counters | ringNext | ringSeq | lc | lcBusy | fwTarget | signKeys | spot | spotDue | bearAt | wins | wrules | heldRules
  | outMarks | wioDown
deriving DecidableEq

/-- A part holds in t what it holds in s. -/
def Part.Same (s t : State) : Part → Prop
  | .pending => t.pending = s.pending | .time => t.time = s.time | .base => t.base = s.base | .pllOff => t.pllOff = s.pllOff
  | .fresh => t.fresh = s.fresh | .out => t.out = s.out | .regs => t.regs = s.regs | .latches => t.latches = s.latches
  | .sram => t.sram = s.sram | .ecc => t.ecc = s.ecc | .cmWait => t.cmWait = s.cmWait | .cmLast => t.cmLast = s.cmLast
  | .tokenPool => t.tokenPool = s.tokenPool | .tokenHeld => t.tokenHeld = s.tokenHeld | .tokenWait => t.tokenWait = s.tokenWait
  | .cells => t.cells = s.cells | .engines => t.engines = s.engines | .clrAt => t.clrAt = s.clrAt
  | .trackers => t.trackers = s.trackers | .trims => t.trims = s.trims | .passes => t.passes = s.passes
  | .bandTime => t.bandTime = s.bandTime | .bandAt => t.bandAt = s.bandAt | .adderFree => t.adderFree = s.adderFree
  | .ocus => t.ocus = s.ocus | .owls => t.owls = s.owls | .dac => t.dac = s.dac | .rings => t.rings = s.rings
  | .stations => t.stations = s.stations | .tiles => t.tiles = s.tiles | .tmvs => t.tmvs = s.tmvs | .ctxs => t.ctxs = s.ctxs
  | .ingests => t.ingests = s.ingests | .offers => t.offers = s.offers | .scrubs => t.scrubs = s.scrubs
  | .busy => t.busy = s.busy | .ports => t.ports = s.ports | .syncAt => t.syncAt = s.syncAt | .trgAt => t.trgAt = s.trgAt
  | .threads => t.threads = s.threads | .flights => t.flights = s.flights | .groups => t.groups = s.groups
  | .sets => t.sets = s.sets | .snaps => t.snaps = s.snaps | .snapHeld => t.snapHeld = s.snapHeld
  | .resets => t.resets = s.resets | .accounts => t.accounts = s.accounts | .refillAt => t.refillAt = s.refillAt
  | .grants => t.grants = s.grants | .bandMoved => t.bandMoved = s.bandMoved | .thrJudged => t.thrJudged = s.thrJudged
  | .parts => t.parts = s.parts | .placed => t.placed = s.placed | .jobs => t.jobs = s.jobs | .beavers => t.beavers = s.beavers
  | .turn => t.turn = s.turn | .shards => t.shards = s.shards | .spareLeft => t.spareLeft = s.spareLeft
  | .modelKeys => t.modelKeys = s.modelKeys | .shadows => t.shadows = s.shadows | .weak => t.weak = s.weak
  | .buckets => t.buckets = s.buckets | .bucketAt => t.bucketAt = s.bucketAt | .fns => t.fns = s.fns
  | .numVfs => t.numVfs = s.numVfs | .aerLog => t.aerLog = s.aerLog | .accepted => t.accepted = s.accepted
  | .loading => t.loading = s.loading | .pba => t.pba = s.pba | .channels => t.channels = s.channels
  | .events => t.events = s.events | .traces => t.traces = s.traces | .traceSeq => t.traceSeq = s.traceSeq
  | .traceLast => t.traceLast = s.traceLast | .points => t.points = s.points | .twLatch => t.twLatch = s.twLatch
  | .digests => t.digests = s.digests | .tencs => t.tencs = s.tencs | .totals => t.totals = s.totals
  | .links => t.links = s.links | .domain => t.domain = s.domain | .offsets => t.offsets = s.offsets
  | .wakes => t.wakes = s.wakes | .norA => t.norA = s.norA | .norB => t.norB = s.norB | .image => t.image = s.image
  | .perst => t.perst = s.perst | .wakeAsked => t.wakeAsked = s.wakeAsked | .shutRec => t.shutRec = s.shutRec
  | .calRec => t.calRec = s.calRec | .capNow => t.capNow = s.capNow | .pgmFault => t.pgmFault = s.pgmFault
  | .regFails => t.regFails = s.regFails | .regTried => t.regTried = s.regTried | .avs => t.avs = s.avs
  | .sensors => t.sensors = s.sensors | .medPrev => t.medPrev = s.medPrev | .deadCls => t.deadCls = s.deadCls
  | .onAt => t.onAt = s.onAt | .onCl => t.onCl = s.onCl | .settMem => t.settMem = s.settMem | .settBuf => t.settBuf = s.settBuf
  | .settList => t.settList = s.settList | .settQueue => t.settQueue = s.settQueue
  | .settCommits => t.settCommits = s.settCommits | .settRefreshes => t.settRefreshes = s.settRefreshes
  | .counters => t.counters = s.counters | .ringNext => t.ringNext = s.ringNext | .ringSeq => t.ringSeq = s.ringSeq
  | .lc => t.lc = s.lc | .lcBusy => t.lcBusy = s.lcBusy | .fwTarget => t.fwTarget = s.fwTarget
  | .signKeys => t.signKeys = s.signKeys | .spot => t.spot = s.spot | .spotDue => t.spotDue = s.spotDue
  | .bearAt => t.bearAt = s.bearAt | .wins => t.wins = s.wins | .wrules => t.wrules = s.wrules
  | .heldRules => t.heldRules = s.heldRules | .outMarks => t.outMarks = s.outMarks | .wioDown => t.wioDown = s.wioDown

theorem Part.Same.refl (s : State) (p : Part) : p.Same s s := by cases p <;> rfl

theorem Part.Same.trans {s t u : State} {p : Part} (h : p.Same s t) (k : p.Same t u) : p.Same s u := by
  cases p <;> exact Eq.trans k h

/-- An operation touches the parts `ps` alone. -/
structure Touches (ps : List Part) (s t : State) : Prop where
  keeps : ∀ p, ps.contains p = false → p.Same s t

theorem Touches.refl (ps : List Part) (s : State) : Touches ps s s := ⟨fun p _ => Part.Same.refl s p⟩

theorem Touches.trans {ps : List Part} {s t u : State} (h : Touches ps s t) (k : Touches ps t u) : Touches ps s u :=
  ⟨fun p hp => (h.keeps p hp).trans (k.keeps p hp)⟩

theorem Touches.mono {ps qs : List Part} {s t : State} (h : Touches ps s t) (hq : ps.all qs.contains = true := by decide) :
    Touches qs s t := by
  refine ⟨fun p hp => h.keeps p (Bool.eq_false_iff.mpr fun hc => ?_)⟩
  have hin := List.all_eq_true.mp hq p (List.contains_iff_mem.mp hc)
  exact Bool.noConfusion (hp.symm.trans hin)

/-- The later step named first, as a composition of operations is read from the outside. -/
theorem Touches.after {ps qs : List Part} {s t u : State} (k : Touches ps t u) (h : Touches qs s t)
    (hq : ps.all qs.contains = true := by decide) : Touches qs s u := h.trans (k.mono hq)

theorem Touches.ite {ps : List Part} {s t u : State} (c : Prop) [Decidable c] (h : Touches ps s t) (k : Touches ps s u) :
    Touches ps s (if c then t else u) := by split <;> assumption

theorem Touches.foldl {α : Type} {ps : List Part} (f : State → α → State) (h : ∀ s a, Touches ps s (f s a)) (xs : List α)
    (s : State) : Touches ps s (xs.foldl f s) := by
  induction xs generalizing s with
  | nil => exact Touches.refl ps s
  | cons a xs ih => exact (h s a).trans (ih _)

theorem Touches.same {ps : List Part} {s t : State} (h : Touches ps s t) (p : Part) (hp : ps.contains p = false := by decide) :
    p.Same s t := h.keeps p hp

/-- Every part of a state: the parts of s but for `ps`, which are t's. -/
def State.withParts (ps : List Part) (s t : State) : State where
  pending := match ps.contains .pending with | true => t.pending | false => s.pending
  time := match ps.contains .time with | true => t.time | false => s.time
  base := match ps.contains .base with | true => t.base | false => s.base
  pllOff := match ps.contains .pllOff with | true => t.pllOff | false => s.pllOff
  fresh := match ps.contains .fresh with | true => t.fresh | false => s.fresh
  out := match ps.contains .out with | true => t.out | false => s.out
  regs := match ps.contains .regs with | true => t.regs | false => s.regs
  latches := match ps.contains .latches with | true => t.latches | false => s.latches
  sram := match ps.contains .sram with | true => t.sram | false => s.sram
  ecc := match ps.contains .ecc with | true => t.ecc | false => s.ecc
  cmWait := match ps.contains .cmWait with | true => t.cmWait | false => s.cmWait
  cmLast := match ps.contains .cmLast with | true => t.cmLast | false => s.cmLast
  tokenPool := match ps.contains .tokenPool with | true => t.tokenPool | false => s.tokenPool
  tokenHeld := match ps.contains .tokenHeld with | true => t.tokenHeld | false => s.tokenHeld
  tokenWait := match ps.contains .tokenWait with | true => t.tokenWait | false => s.tokenWait
  cells := match ps.contains .cells with | true => t.cells | false => s.cells
  engines := match ps.contains .engines with | true => t.engines | false => s.engines
  clrAt := match ps.contains .clrAt with | true => t.clrAt | false => s.clrAt
  trackers := match ps.contains .trackers with | true => t.trackers | false => s.trackers
  trims := match ps.contains .trims with | true => t.trims | false => s.trims
  passes := match ps.contains .passes with | true => t.passes | false => s.passes
  bandTime := match ps.contains .bandTime with | true => t.bandTime | false => s.bandTime
  bandAt := match ps.contains .bandAt with | true => t.bandAt | false => s.bandAt
  adderFree := match ps.contains .adderFree with | true => t.adderFree | false => s.adderFree
  ocus := match ps.contains .ocus with | true => t.ocus | false => s.ocus
  owls := match ps.contains .owls with | true => t.owls | false => s.owls
  dac := match ps.contains .dac with | true => t.dac | false => s.dac
  rings := match ps.contains .rings with | true => t.rings | false => s.rings
  stations := match ps.contains .stations with | true => t.stations | false => s.stations
  tiles := match ps.contains .tiles with | true => t.tiles | false => s.tiles
  tmvs := match ps.contains .tmvs with | true => t.tmvs | false => s.tmvs
  ctxs := match ps.contains .ctxs with | true => t.ctxs | false => s.ctxs
  ingests := match ps.contains .ingests with | true => t.ingests | false => s.ingests
  offers := match ps.contains .offers with | true => t.offers | false => s.offers
  scrubs := match ps.contains .scrubs with | true => t.scrubs | false => s.scrubs
  busy := match ps.contains .busy with | true => t.busy | false => s.busy
  ports := match ps.contains .ports with | true => t.ports | false => s.ports
  syncAt := match ps.contains .syncAt with | true => t.syncAt | false => s.syncAt
  trgAt := match ps.contains .trgAt with | true => t.trgAt | false => s.trgAt
  threads := match ps.contains .threads with | true => t.threads | false => s.threads
  flights := match ps.contains .flights with | true => t.flights | false => s.flights
  groups := match ps.contains .groups with | true => t.groups | false => s.groups
  sets := match ps.contains .sets with | true => t.sets | false => s.sets
  snaps := match ps.contains .snaps with | true => t.snaps | false => s.snaps
  snapHeld := match ps.contains .snapHeld with | true => t.snapHeld | false => s.snapHeld
  resets := match ps.contains .resets with | true => t.resets | false => s.resets
  accounts := match ps.contains .accounts with | true => t.accounts | false => s.accounts
  refillAt := match ps.contains .refillAt with | true => t.refillAt | false => s.refillAt
  grants := match ps.contains .grants with | true => t.grants | false => s.grants
  bandMoved := match ps.contains .bandMoved with | true => t.bandMoved | false => s.bandMoved
  thrJudged := match ps.contains .thrJudged with | true => t.thrJudged | false => s.thrJudged
  parts := match ps.contains .parts with | true => t.parts | false => s.parts
  placed := match ps.contains .placed with | true => t.placed | false => s.placed
  jobs := match ps.contains .jobs with | true => t.jobs | false => s.jobs
  beavers := match ps.contains .beavers with | true => t.beavers | false => s.beavers
  turn := match ps.contains .turn with | true => t.turn | false => s.turn
  shards := match ps.contains .shards with | true => t.shards | false => s.shards
  spareLeft := match ps.contains .spareLeft with | true => t.spareLeft | false => s.spareLeft
  modelKeys := match ps.contains .modelKeys with | true => t.modelKeys | false => s.modelKeys
  shadows := match ps.contains .shadows with | true => t.shadows | false => s.shadows
  weak := match ps.contains .weak with | true => t.weak | false => s.weak
  buckets := match ps.contains .buckets with | true => t.buckets | false => s.buckets
  bucketAt := match ps.contains .bucketAt with | true => t.bucketAt | false => s.bucketAt
  fns := match ps.contains .fns with | true => t.fns | false => s.fns
  numVfs := match ps.contains .numVfs with | true => t.numVfs | false => s.numVfs
  aerLog := match ps.contains .aerLog with | true => t.aerLog | false => s.aerLog
  accepted := match ps.contains .accepted with | true => t.accepted | false => s.accepted
  loading := match ps.contains .loading with | true => t.loading | false => s.loading
  pba := match ps.contains .pba with | true => t.pba | false => s.pba
  channels := match ps.contains .channels with | true => t.channels | false => s.channels
  events := match ps.contains .events with | true => t.events | false => s.events
  traces := match ps.contains .traces with | true => t.traces | false => s.traces
  traceSeq := match ps.contains .traceSeq with | true => t.traceSeq | false => s.traceSeq
  traceLast := match ps.contains .traceLast with | true => t.traceLast | false => s.traceLast
  points := match ps.contains .points with | true => t.points | false => s.points
  twLatch := match ps.contains .twLatch with | true => t.twLatch | false => s.twLatch
  digests := match ps.contains .digests with | true => t.digests | false => s.digests
  tencs := match ps.contains .tencs with | true => t.tencs | false => s.tencs
  totals := match ps.contains .totals with | true => t.totals | false => s.totals
  links := match ps.contains .links with | true => t.links | false => s.links
  domain := match ps.contains .domain with | true => t.domain | false => s.domain
  offsets := match ps.contains .offsets with | true => t.offsets | false => s.offsets
  wakes := match ps.contains .wakes with | true => t.wakes | false => s.wakes
  norA := match ps.contains .norA with | true => t.norA | false => s.norA
  norB := match ps.contains .norB with | true => t.norB | false => s.norB
  image := match ps.contains .image with | true => t.image | false => s.image
  perst := match ps.contains .perst with | true => t.perst | false => s.perst
  wakeAsked := match ps.contains .wakeAsked with | true => t.wakeAsked | false => s.wakeAsked
  shutRec := match ps.contains .shutRec with | true => t.shutRec | false => s.shutRec
  calRec := match ps.contains .calRec with | true => t.calRec | false => s.calRec
  capNow := match ps.contains .capNow with | true => t.capNow | false => s.capNow
  pgmFault := match ps.contains .pgmFault with | true => t.pgmFault | false => s.pgmFault
  regFails := match ps.contains .regFails with | true => t.regFails | false => s.regFails
  regTried := match ps.contains .regTried with | true => t.regTried | false => s.regTried
  avs := match ps.contains .avs with | true => t.avs | false => s.avs
  sensors := match ps.contains .sensors with | true => t.sensors | false => s.sensors
  medPrev := match ps.contains .medPrev with | true => t.medPrev | false => s.medPrev
  deadCls := match ps.contains .deadCls with | true => t.deadCls | false => s.deadCls
  onAt := match ps.contains .onAt with | true => t.onAt | false => s.onAt
  onCl := match ps.contains .onCl with | true => t.onCl | false => s.onCl
  settMem := match ps.contains .settMem with | true => t.settMem | false => s.settMem
  settBuf := match ps.contains .settBuf with | true => t.settBuf | false => s.settBuf
  settList := match ps.contains .settList with | true => t.settList | false => s.settList
  settQueue := match ps.contains .settQueue with | true => t.settQueue | false => s.settQueue
  settCommits := match ps.contains .settCommits with | true => t.settCommits | false => s.settCommits
  settRefreshes := match ps.contains .settRefreshes with | true => t.settRefreshes | false => s.settRefreshes
  counters := match ps.contains .counters with | true => t.counters | false => s.counters
  ringNext := match ps.contains .ringNext with | true => t.ringNext | false => s.ringNext
  ringSeq := match ps.contains .ringSeq with | true => t.ringSeq | false => s.ringSeq
  lc := match ps.contains .lc with | true => t.lc | false => s.lc
  lcBusy := match ps.contains .lcBusy with | true => t.lcBusy | false => s.lcBusy
  fwTarget := match ps.contains .fwTarget with | true => t.fwTarget | false => s.fwTarget
  signKeys := match ps.contains .signKeys with | true => t.signKeys | false => s.signKeys
  spot := match ps.contains .spot with | true => t.spot | false => s.spot
  spotDue := match ps.contains .spotDue with | true => t.spotDue | false => s.spotDue
  bearAt := match ps.contains .bearAt with | true => t.bearAt | false => s.bearAt
  wins := match ps.contains .wins with | true => t.wins | false => s.wins
  wrules := match ps.contains .wrules with | true => t.wrules | false => s.wrules
  heldRules := match ps.contains .heldRules with | true => t.heldRules | false => s.heldRules
  outMarks := match ps.contains .outMarks with | true => t.outMarks | false => s.outMarks
  wioDown := match ps.contains .wioDown with | true => t.wioDown | false => s.wioDown

theorem State.eq_of_same {s t : State} (h : ∀ p, Part.Same s t p) : t = s := by
  cases s
  cases t
  simp only [State.mk.injEq]
  exact ⟨h .pending, h .time, h .base, h .pllOff, h .fresh, h .out, h .regs, h .latches, h .sram, h .ecc, h .cmWait, h .cmLast,
    h .tokenPool, h .tokenHeld, h .tokenWait, h .cells, h .engines, h .clrAt, h .trackers, h .trims, h .passes, h .bandTime,
    h .bandAt, h .adderFree, h .ocus, h .owls, h .dac, h .rings, h .stations, h .tiles, h .tmvs, h .ctxs, h .ingests,
    h .offers, h .scrubs, h .busy, h .ports, h .syncAt, h .trgAt, h .threads, h .flights, h .groups, h .sets, h .snaps,
    h .snapHeld, h .resets, h .accounts, h .refillAt, h .grants, h .bandMoved, h .thrJudged, h .parts, h .placed, h .jobs,
    h .beavers, h .turn, h .shards, h .spareLeft, h .modelKeys, h .shadows, h .weak, h .buckets, h .bucketAt, h .fns,
    h .numVfs, h .aerLog, h .accepted, h .loading, h .pba, h .channels, h .events, h .traces, h .traceSeq, h .traceLast,
    h .points, h .twLatch, h .digests, h .tencs, h .totals, h .links, h .domain, h .offsets, h .wakes, h .norA, h .norB,
    h .image, h .perst, h .wakeAsked, h .shutRec, h .calRec, h .capNow, h .pgmFault, h .regFails, h .regTried, h .avs,
    h .sensors, h .medPrev, h .deadCls, h .onAt, h .onCl, h .settMem, h .settBuf, h .settList, h .settQueue, h .settCommits,
    h .settRefreshes, h .counters, h .ringNext, h .ringSeq, h .lc, h .lcBusy, h .fwTarget, h .signKeys, h .spot, h .spotDue,
    h .bearAt, h .wins, h .wrules, h .heldRules, h .outMarks, h .wioDown⟩

/-- What an operation touches, written as an update of the state it began with. -/
theorem Touches.eq_withParts {ps : List Part} {s t : State} (h : Touches ps s t) : t = s.withParts ps t := by
  refine State.eq_of_same fun p => ?_
  have hp := h.keeps p
  cases p
  all_goals
    unfold Part.Same State.withParts at *
    dsimp only
    cases hc : List.contains ps _ with
    | true => rfl
    | false => exact hp hc

/-- An update of the parts `ps` touches them alone. -/
theorem Touches.of_withParts {ps : List Part} {s t : State} (h : t = s.withParts ps t) : Touches ps s t := by
  refine ⟨fun p hp => ?_⟩
  rw [h]
  cases p
  all_goals
    unfold Part.Same State.withParts
    dsimp only
    rw [hp]

theorem Touches.bytes {ps : List Part} {s t : State} (h : Touches ps s t) (w : Nat → Bool)
    (hp : ps.contains .sram = false := by decide) : KeepsBytes s t w := KeepsBytes.of_sram_eq (h.keeps .sram hp) w

theorem Touches.regs {ps : List Part} {s t : State} (h : Touches ps s t) (w : Fld → Nat → Bool)
    (hp : ps.contains .regs = false := by decide) : KeepsRegs s t w := KeepsRegs.of_regs_eq (h.keeps .regs hp) w

/-! ### Units, fields and bytes of parts that are not touched -/

section Lookup
variable {ps : List Part} {s t : State} (h : Touches ps s t)
include h

theorem Touches.getF (f : Fld) (i : Nat) (hp : ps.contains .regs = false := by decide) : t.getF f i = s.getF f i :=
  congrArg (fun m => smapGet _ m _) (show t.regs = s.regs from h.keeps .regs hp)
theorem Touches.bit (f : Fld) (i : Nat) (hp : ps.contains .regs = false := by decide) : t.bit f i = s.bit f i := by
  simp only [State.bit, h.getF f i hp]
theorem Touches.byte (a : Nat) (hp : ps.contains .sram = false := by decide) : t.byte a = s.byte a :=
  congrArg (fun m => smapGet _ m a) (show t.sram = s.sram from h.keeps .sram hp)
theorem Touches.thread (j : Nat) (hp : ps.contains .threads = false := by decide) : t.thread j = s.thread j :=
  congrArg (fun m => smapGet _ m j) (show t.threads = s.threads from h.keeps .threads hp)
theorem Touches.station (j : Nat) (hp : ps.contains .stations = false := by decide) : t.station j = s.station j :=
  congrArg (fun m => smapGet _ m j) (show t.stations = s.stations from h.keeps .stations hp)
theorem Touches.engine (j : Nat) (hp : ps.contains .engines = false := by decide) : t.engine j = s.engine j :=
  congrArg (fun m => smapGet _ m j) (show t.engines = s.engines from h.keeps .engines hp)
theorem Touches.tracker (j : Nat) (hp : ps.contains .trackers = false := by decide) : t.tracker j = s.tracker j :=
  congrArg (fun m => smapGet _ m j) (show t.trackers = s.trackers from h.keeps .trackers hp)
theorem Touches.coreTiles (j : Nat) (hp : ps.contains .tiles = false := by decide) : t.coreTiles j = s.coreTiles j :=
  congrArg (fun m => smapGet _ m j) (show t.tiles = s.tiles from h.keeps .tiles hp)
theorem Touches.tmv (j : Nat) (hp : ps.contains .tmvs = false := by decide) : t.tmv j = s.tmv j :=
  congrArg (fun m => smapGet _ m j) (show t.tmvs = s.tmvs from h.keeps .tmvs hp)
theorem Touches.ctx (j : Nat) (hp : ps.contains .ctxs = false := by decide) : t.ctx j = s.ctx j :=
  congrArg (fun m => smapGet _ m j) (show t.ctxs = s.ctxs from h.keeps .ctxs hp)
theorem Touches.group (j : Nat) (hp : ps.contains .groups = false := by decide) : t.group j = s.group j :=
  congrArg (fun m => smapGet _ m j) (show t.groups = s.groups from h.keeps .groups hp)
theorem Touches.part (j : Nat) (hp : ps.contains .parts = false := by decide) : t.part j = s.part j :=
  congrArg (fun m => smapGet _ m j) (show t.parts = s.parts from h.keeps .parts hp)
theorem Touches.fnst (j : Nat) (hp : ps.contains .fns = false := by decide) : t.fnst j = s.fnst j :=
  congrArg (fun m => smapGet _ m j) (show t.fns = s.fns from h.keeps .fns hp)
theorem Touches.ocu (j : Nat) (hp : ps.contains .ocus = false := by decide) : t.ocu j = s.ocu j :=
  congrArg (fun m => smapGet _ m j) (show t.ocus = s.ocus from h.keeps .ocus hp)
theorem Touches.owl (j : Nat) (hp : ps.contains .owls = false := by decide) : t.owl j = s.owl j :=
  congrArg (fun m => smapGet _ m j) (show t.owls = s.owls from h.keeps .owls hp)
theorem Touches.port (j : Nat) (hp : ps.contains .ports = false := by decide) : t.port j = s.port j :=
  congrArg (fun m => smapGet _ m j) (show t.ports = s.ports from h.keeps .ports hp)
theorem Touches.shard (j : Nat) (hp : ps.contains .shards = false := by decide) : t.shard j = s.shard j :=
  congrArg (fun m => smapGet _ m j) (show t.shards = s.shards from h.keeps .shards hp)
theorem Touches.beaver (j : Nat) (hp : ps.contains .beavers = false := by decide) : t.beaver j = s.beaver j :=
  congrArg (fun m => smapGet _ m j) (show t.beavers = s.beavers from h.keeps .beavers hp)
theorem Touches.jobQ (j : Nat) (hp : ps.contains .jobs = false := by decide) : t.jobQ j = s.jobQ j :=
  congrArg (fun m => smapGet _ m j) (show t.jobs = s.jobs from h.keeps .jobs hp)
theorem Touches.trace (j : Nat) (hp : ps.contains .traces = false := by decide) : t.trace j = s.trace j :=
  congrArg (fun m => smapGet _ m j) (show t.traces = s.traces from h.keeps .traces hp)
theorem Touches.point (j : Nat) (hp : ps.contains .points = false := by decide) : t.point j = s.point j :=
  congrArg (fun m => smapGet _ m j) (show t.points = s.points from h.keeps .points hp)
theorem Touches.passQ (j : Nat) (hp : ps.contains .passes = false := by decide) : t.passQ j = s.passQ j :=
  congrArg (fun m => smapGet _ m j) (show t.passes = s.passes from h.keeps .passes hp)
theorem Touches.link (j : Nat) (hp : ps.contains .links = false := by decide) : t.link j = s.link j :=
  congrArg (fun m => smapGet _ m j) (show t.links = s.links from h.keeps .links hp)

end Lookup

/-! ### What the small updates touch -/

theorem State.setF_touches (s : State) (f : Fld) (i v : Nat) : Touches [.regs] s (s.setF f i v) := Touches.of_withParts rfl
theorem State.setB_touches (s : State) (f : Fld) (i : Nat) (v : Bool) : Touches [.regs] s (s.setB f i v) := Touches.of_withParts rfl
theorem State.addHold_touches (s : State) (f : Fld) (i n : Nat) : Touches [.regs] s (s.addHold f i n) := Touches.of_withParts rfl
theorem State.addWrap_touches (s : State) (f : Fld) (i n : Nat) : Touches [.regs] s (s.addWrap f i n) := Touches.of_withParts rfl
theorem State.emit_touches (s : State) (o : Output) : Touches [.out] s (s.emit o) := Touches.of_withParts rfl
theorem State.total_touches (s : State) (o w n : Nat) : Touches [.totals] s (s.total o w n) := Touches.of_withParts rfl
theorem State.mark_touches (s : State) (w syn : Nat) : Touches [.ecc] s (s.mark w syn) := Touches.of_withParts rfl
theorem State.stepWr_touches (s : State) (r : SlotRef) : Touches [.rings] s (s.stepWr r) := Touches.of_withParts rfl
theorem State.zeroFill_touches (s : State) (a n : Nat) : Touches [.sram, .ecc] s (s.zeroFill a n) := Touches.of_withParts rfl
theorem State.setEngine_touches (s : State) (i : Nat) (x : Engine) : Touches [.engines] s (s.setEngine i x) := Touches.of_withParts rfl
theorem State.setTracker_touches (s : State) (i : Nat) (x : Tracker) : Touches [.trackers] s (s.setTracker i x) := Touches.of_withParts rfl
theorem State.setStation_touches (s : State) (i : Nat) (x : Station) : Touches [.stations] s (s.setStation i x) := Touches.of_withParts rfl
theorem State.setCoreTiles_touches (s : State) (i : Nat) (x : List Tile) : Touches [.tiles] s (s.setCoreTiles i x) := Touches.of_withParts rfl
theorem State.setCtx_touches (s : State) (i : Nat) (x : Context) : Touches [.ctxs] s (s.setCtx i x) := Touches.of_withParts rfl
theorem State.setThread_touches (s : State) (i : Nat) (x : ThreadState) : Touches [.threads] s (s.setThread i x) := Touches.of_withParts rfl
theorem State.setGroup_touches (s : State) (i : Nat) (x : Group) : Touches [.groups] s (s.setGroup i x) := Touches.of_withParts rfl
theorem State.setFn_touches (s : State) (i : Nat) (x : Function) : Touches [.fns] s (s.setFn i x) := Touches.of_withParts rfl
theorem State.setOcu_touches (s : State) (i : Nat) (x : Ocu) : Touches [.ocus] s (s.setOcu i x) := Touches.of_withParts rfl
theorem State.setPort_touches (s : State) (i : Nat) (x : Port) : Touches [.ports] s (s.setPort i x) := Touches.of_withParts rfl
theorem State.setShard_touches (s : State) (i : Nat) (x : Shard) : Touches [.shards] s (s.setShard i x) := Touches.of_withParts rfl
theorem State.setJobQ_touches (s : State) (i : Nat) (x : List Job) : Touches [.jobs] s (s.setJobQ i x) := Touches.of_withParts rfl
theorem State.setTrace_touches (s : State) (i : Nat) (x : TraceRing) : Touches [.traces] s (s.setTrace i x) := Touches.of_withParts rfl
theorem State.burn_touches (s : State) : Touches [.fresh] s s.burn := Touches.of_withParts rfl

theorem State.setSlot_touches (s : State) (r : SlotRef) (v : Nat) : Touches [.regs] s (s.setSlot r v) :=
  Touches.ite _ (s.setF_touches _ _ _) (s.setF_touches _ _ _)
theorem State.setTorn_touches (s : State) (r : SlotRef) (v : Bool) : Touches [.regs] s (s.setTorn r v) :=
  Touches.ite _ (s.setB_touches _ _ _) (s.setB_touches _ _ _)

theorem State.capture_touches (s : State) (v o : Fld) (i : Nat) (fs : List (Fld × Nat)) :
    Touches [.regs] s (s.capture v o i fs) := Touches.of_withParts (s.capture_only v o i fs)

theorem State.accErr_touches (s : State) (kind : Nat) (w : Bool) (m : Nat) (bar2 : Bool) (off : Nat) :
    Touches [.regs] s (s.accErr kind w m bar2 off) := Touches.of_withParts (s.accErr_only kind w m bar2 off)

theorem State.msix_touches (s : State) (fn vec : Nat) : Touches [.pba, .out] s (s.msix fn vec) :=
  Touches.of_withParts (s.msix_only fn vec)

/-- The parts that raising an event touches. -/
def eventParts : List Part := [.events, .traces, .pba, .out]

theorem State.raiseTo_touches (s : State) (os : List Nat) (code o c u st : Nat) (d : List Byte) :
    Touches eventParts s (s.raiseTo os code o c u st d) := Touches.of_withParts (s.raiseTo_reports os code o c u st d)

theorem State.raise_touches (s : State) (code o c u st : Nat) (d : List Byte) :
    Touches eventParts s (s.raise code o c u st d) := s.raiseTo_touches _ _ _ _ _ _ _

theorem State.traceTh_touches (s : State) (i least kind pc data : Nat) :
    Touches [.traces] s (s.traceTh i least kind pc data) := Touches.of_withParts (s.traceTh_only i least kind pc data)

theorem State.denied_touches (s : State) (f : Nat) : Touches [.regs] s (s.denied f) :=
  Touches.ite _ (Touches.refl _ s) (s.addHold_touches _ _ _)

/-- The parts that the passing of time alone touches. -/
def timeParts : List Part := [.time, .busy, .ocus, .dac, .cmWait, .cmLast]

theorem State.advance_touches (s : State) (now : Nat) : Touches timeParts s (s.advance now) := Touches.of_withParts rfl

end Sys2Proof.Machine
end

section
/-!
PROOF. What reads and writes under error correction touch (R174 to R176), and registers under captures and folds.
-/

set_option Elab.async false

namespace Sys2Proof.Machine
open Sys2Proof

/-! ### Registers under captures and folds -/

theorem KeepsRegs.ite {s t u : State} {w : Fld → Nat → Bool} (c : Prop) [Decidable c] (h : KeepsRegs s t w)
    (k : KeepsRegs s u w) : KeepsRegs s (if c then t else u) w := by split <;> assumption

theorem KeepsRegs.foldl {α : Type} {w : Fld → Nat → Bool} (f : State → α → State) (h : ∀ s a, KeepsRegs s (f s a) w)
    (xs : List α) (s : State) : KeepsRegs s (xs.foldl f s) w := by
  induction xs generalizing s with
  | nil => exact KeepsRegs.refl s w
  | cons a xs ih => exact (h s a).trans (ih _)

theorem KeepsRegs.foldl_setF {α : Type} {w : Fld → Nat → Bool} (f : α → Fld) (i v : α → Nat) (xs : List α)
    (h : ∀ x ∈ xs, w (f x) (i x) = true) (s : State) : KeepsRegs s (xs.foldl (fun t x => t.setF (f x) (i x) (v x)) s) w := by
  induction xs generalizing s with
  | nil => exact KeepsRegs.refl s w
  | cons a xs ih =>
    obtain ⟨ha, hxs⟩ := List.forall_mem_cons.mp h
    exact ((KeepsRegs.refl s w).setF ha _).trans (ih hxs _)

theorem KeepsRegs.capture {s t : State} {w : Fld → Nat → Bool} (h : KeepsRegs s t w) {v o : Fld} {i : Nat}
    {fs : List (Fld × Nat)} (hv : w v i = true) (ho : w o i = true) (hfs : ∀ p ∈ fs, w p.1 i = true) :
    KeepsRegs s (t.capture v o i fs) w :=
  KeepsRegs.ite _ (h.setF ho 1) ((h.setF hv 1).trans (KeepsRegs.foldl_setF Prod.fst (fun _ => i) Prod.snd fs hfs _))

/-- What is established by one step of a fold and kept by every step holds at its end. -/
theorem foldl_establishes {α σ : Type} (f : σ → α → σ) (P : σ → Prop) (hkeep : ∀ s a, P s → P (f s a)) {a : α} {xs : List α}
    (ha : a ∈ xs) (hset : ∀ s, P (f s a)) (s : σ) : P (xs.foldl f s) := by
  induction xs generalizing s with
  | nil => cases ha
  | cons b xs ih =>
    rcases List.mem_cons.mp ha with rfl | ha
    · exact List.foldlRecOn xs f (hset s) (fun t ht c _ => hkeep t c ht)
    · exact ih ha _

/-- Fewer fields written. -/
theorem KeepsRegs.fields {s t : State} {xs ys : List Fld} {p : Nat → Bool}
    (h : KeepsRegs s t (fun f j => xs.contains f && p j)) (hsub : xs.all ys.contains = true := by decide) :
    KeepsRegs s t (fun f j => ys.contains f && p j) := by
  refine h.mono fun f j hf => Bool.eq_false_iff.mpr fun hc => ?_
  obtain ⟨hx, hp⟩ := Bool.and_eq_true_iff.mp hc
  have hy := List.all_eq_true.mp hsub f (List.contains_iff_mem.mp hx)
  exact Bool.noConfusion (hf.symm.trans (Bool.and_eq_true_iff.mpr ⟨hy, hp⟩))

/-- One field written. -/
theorem KeepsRegs.field {s t : State} {g : Fld} {ys : List Fld} {p : Nat → Bool} (h : KeepsRegs s t (fun f j => f == g && p j))
    (hg : ys.contains g = true := by decide) : KeepsRegs s t (fun f j => ys.contains f && p j) := by
  refine h.mono fun f j hf => Bool.eq_false_iff.mpr fun hc => ?_
  obtain ⟨hx, hp⟩ := Bool.and_eq_true_iff.mp hc
  rw [eq_of_beq hx, hg, hp] at hf
  exact Bool.noConfusion hf

/-- A step that leaves the registers alone. -/
theorem KeepsRegs.touches {s t u : State} {w : Fld → Nat → Bool} {ps : List Part} (h : KeepsRegs s t w) (k : Touches ps t u)
    (hp : ps.contains .regs = false := by decide) : KeepsRegs s u w := h.trans (k.regs w hp)

/-! ### Error correction: what it touches -/

/-- The registers of the memory controllers that error correction writes (R183). -/
def eccFields : List Fld :=
  [.KMC_ECCSTAT_VALID, .KMC_ECCSTAT_OVERRUN, .KMC_ECCSTAT_KIND, .KMC_ECCSTAT_SYNDROME, .KMC_ECCSTAT_MASTER, .KMC_ECCADDR_OFFSET,
    .CMC_ECCSTAT_VALID, .CMC_ECCSTAT_OVERRUN, .CMC_ECCSTAT_KIND, .CMC_ECCSTAT_SYNDROME, .CMC_ECCSTAT_MASTER, .CMC_ECCADDR_OFFSET,
    .KMC_ECCCNT_CORR, .KMC_ECCCNT_UNCORR, .CMC_ECCCNT_CORR, .CMC_ECCCNT_UNCORR]

/-- Registers other than those of error correction are kept. -/
def eccWrites (f : Fld) (_ : Nat) : Bool := eccFields.contains f

/-- The parts that a read under error correction touches. -/
def eccParts : List Part := [.regs, .totals, .scrubs] ++ eventParts

theorem State.eccCapture_touches (s : State) (m w syn kind : Nat) : Touches [.regs] s (s.eccCapture m w syn kind) := by
  unfold State.eccCapture
  split
  all_goals exact Touches.ite _ (s.capture_touches ..) ((State.setF_touches ..).after (s.capture_touches ..))

theorem State.eccCapture_keepsRegs (s : State) (m w syn kind : Nat) : KeepsRegs s (s.eccCapture m w syn kind) eccWrites := by
  unfold State.eccCapture
  split
  all_goals
    refine KeepsRegs.ite _ ((KeepsRegs.refl s eccWrites).capture rfl rfl ?_)
      (((KeepsRegs.refl s eccWrites).capture rfl rfl ?_).setF rfl _)
    all_goals
      intro p hp
      simp only [List.mem_cons, List.not_mem_nil, or_false] at hp
      rcases hp with rfl | rfl | rfl <;> rfl

theorem State.eccEvent_touches (s : State) (m w syn kind : Nat) : Touches eccParts s (s.eccEvent m w syn kind) := by
  unfold State.eccEvent
  extract_lets good owner code t
  have ht : Touches eccParts s t := (State.total_touches ..).after ((s.eccCapture_touches ..).mono)
  split
  all_goals exact (State.raise_touches ..).after ((State.addHold_touches ..).after ht)

theorem KeepsRegs.raise {s t : State} {w : Fld → Nat → Bool} (h : KeepsRegs s t w) (code o c u st : Nat) (d : List Byte) :
    KeepsRegs s (t.raise code o c u st d) w := h.congr ((t.raise_touches code o c u st d).same .regs)

theorem State.eccEvent_keepsRegs (s : State) (m w syn kind : Nat) : KeepsRegs s (s.eccEvent m w syn kind) eccWrites := by
  unfold State.eccEvent
  extract_lets good owner code t
  have ht : KeepsRegs s t eccWrites := (s.eccCapture_keepsRegs m w syn kind).congr rfl
  split
  all_goals
    refine KeepsRegs.raise (ht.setF ?_ _) _ _ _ _ _ _
    split <;> rfl

theorem State.readWordEcc_touches (m : Nat) (s : State) (w : Nat) : Touches eccParts s (State.readWordEcc m s w) := by
  unfold State.readWordEcc
  extract_lets syn u
  have hu : Touches eccParts s u := s.eccEvent_touches ..
  refine Touches.ite _ (Touches.refl _ s) (Touches.ite _ (Touches.ite _ hu ?_)
    (Touches.ite _ ((s.eccCapture_touches ..).mono) (s.eccEvent_touches ..)))
  exact (Touches.of_withParts (ps := [.scrubs]) rfl).after hu

theorem State.readWordEcc_keepsRegs (m : Nat) (s : State) (w : Nat) : KeepsRegs s (State.readWordEcc m s w) eccWrites := by
  unfold State.readWordEcc
  extract_lets syn u
  have hu : KeepsRegs s u eccWrites := s.eccEvent_keepsRegs _ _ _ _
  exact KeepsRegs.ite _ (KeepsRegs.refl s _) (KeepsRegs.ite _ (KeepsRegs.ite _ hu (hu.congr rfl))
    (KeepsRegs.ite _ (s.eccCapture_keepsRegs _ _ _ _) (s.eccEvent_keepsRegs _ _ _ _)))

theorem State.readEcc_touches (s : State) (m a n : Nat) : Touches eccParts s (s.readEcc m a n) :=
  Touches.foldl _ (fun s w => State.readWordEcc_touches m s w) _ s

theorem State.readEcc_keepsRegs (s : State) (m a n : Nat) : KeepsRegs s (s.readEcc m a n) eccWrites :=
  KeepsRegs.foldl _ (fun s w => State.readWordEcc_keepsRegs m s w) _ s

theorem State.sram_touches (s : State) (m : List Host.Cell) : Touches [.sram] s { s with sram := m } := Touches.of_withParts rfl

/-- The parts that a write under error correction touches. -/
def eccWriteParts : List Part := [.sram, .ecc] ++ eccParts

theorem State.writeWord_touches (s : State) (m w a : Nat) (bs : List Byte) :
    Touches eccWriteParts s (s.writeWord m w a bs).1 := by
  have hset : Touches eccWriteParts s ({ s with sram := setBytes s.sram a bs }.mark w 0) :=
    (State.mark_touches ..).after (s.sram_touches _).mono
  unfold State.writeWord
  dsimp only
  split
  · exact hset
  · split
    · exact (State.eccEvent_touches ..).after hset
    · exact (State.eccEvent_touches ..).after (s.mark_touches ..).mono

theorem KeepsRegs.sram {s t : State} {w : Fld → Nat → Bool} (h : KeepsRegs s t w) (m : List Host.Cell) :
    KeepsRegs s { t with sram := m } w := h.congr rfl

theorem KeepsRegs.mark {s t : State} {w : Fld → Nat → Bool} (h : KeepsRegs s t w) (k syn : Nat) :
    KeepsRegs s (t.mark k syn) w := h.congr rfl

theorem State.writeWord_keepsRegs (s : State) (m w a : Nat) (bs : List Byte) :
    KeepsRegs s (s.writeWord m w a bs).1 eccWrites := by
  unfold State.writeWord
  dsimp only
  split
  · exact ((KeepsRegs.refl s _).sram _).mark _ _
  · split
    · exact (((KeepsRegs.refl s _).sram _).mark _ _).trans (State.eccEvent_keepsRegs _ _ _ _ _)
    · exact ((KeepsRegs.refl s _).mark _ _).trans (State.eccEvent_keepsRegs _ _ _ _ _)

theorem State.moveWord_keepsRegs (m : Nat) (s : State) (d w : Nat) : KeepsRegs s (State.moveWord m s d w) eccWrites := by
  unfold State.moveWord
  extract_lets u bs
  have hu : KeepsRegs s u eccWrites := State.readWordEcc_keepsRegs _ _ _
  clear_value u
  exact KeepsRegs.ite _ ((hu.sram _).mark _ _) (hu.trans (State.writeWord_keepsRegs _ _ _ _ _))

theorem State.moveBytes_keepsRegs (s : State) (m dst src n : Nat) : KeepsRegs s (s.moveBytes m dst src n) eccWrites :=
  KeepsRegs.foldl _ (fun s _ => State.moveWord_keepsRegs m s _ _) _ s

end Sys2Proof.Machine
end

section
/-!
PROOF. The sequencer's threads: captures and halts (R197), waiting and resuming, the end of a gathering, and stops
(R190).
-/

set_option Elab.async false

namespace Sys2Proof.Machine
open Sys2Proof

/-! ### Stops and halts that were waiting (R190, R199) -/

theorem State.seqStopDue_touches (s : State) (i : Nat) : Touches [.threads, .regs, .traces] s (s.seqStopDue i) := by
  unfold State.seqStopDue
  extract_lets _ u _ v
  have hu : Touches [.threads, .regs, .traces] s u :=
    Touches.ite _ ((State.setF_touches ..).after (s.setThread_touches ..).mono) (Touches.refl _ s)
  clear_value u
  have hv : Touches [.threads, .regs, .traces] s v := (State.setThread_touches ..).after hu
  clear_value v
  exact Touches.ite _ ((State.traceTh_touches ..).after ((State.setF_touches ..).after hv)) hu

theorem State.seqStopDue_keepsRegs (s : State) (i : Nat) :
    KeepsRegs s (s.seqStopDue i) (fun f j => f == .CSQ_TH_STAT_STATE && j == i) := by
  unfold State.seqStopDue
  extract_lets w u _ v
  have hu : KeepsRegs s u (fun f j => f == .CSQ_TH_STAT_STATE && j == i) :=
    KeepsRegs.ite _ (((KeepsRegs.refl s _).touches (s.setThread_touches i w)).setF (by simp) _) (KeepsRegs.refl s _)
  clear_value u
  have hv : KeepsRegs s v (fun f j => f == .CSQ_TH_STAT_STATE && j == i) := hu.touches (State.setThread_touches ..)
  clear_value v
  exact KeepsRegs.ite _ ((hv.setF (by simp) 5).touches (State.traceTh_touches ..)) hu

theorem State.thState_seqStopDue (s : State) (i : Nat) : (s.seqStopDue i).thState i =
    if (s.thread i).stop then 5 else if (s.thread i).halt then 4 else s.thState i := by
  unfold State.seqStopDue State.thState
  cases hh : (s.thread i).halt <;> cases hs : (s.thread i).stop <;> simp [hh, hs, Fld.width, Fld.info]

theorem State.thread_seqStopDue_ne (s : State) {i j : Nat} (h : i ≠ j) : (s.seqStopDue i).thread j = s.thread j := by
  unfold State.seqStopDue
  cases hh : (s.thread i).halt <;> cases hs : (s.thread i).stop <;> simp [hh, hs, State.thread_setThread_ne _ _ _ h]

theorem State.wait_seqStopDue (s : State) (i : Nat) : ((s.seqStopDue i).thread i).wait = (s.thread i).wait := by
  unfold State.seqStopDue
  cases hh : (s.thread i).halt <;> cases hs : (s.thread i).stop <;> simp [hh, hs]

/-! ### Captures of a thread's exceptions (R197) -/

theorem State.seqCapture_touches (s : State) (i code pc : Nat) : Touches [.regs] s (s.seqCapture i code pc) :=
  s.capture_touches ..

/-- The registers of a thread that an exception's capture writes. -/
def excFields : List Fld := [.CSQ_TH_EXC_VALID, .CSQ_TH_EXC_OVERRUN, .CSQ_TH_EXC_CODE, .CSQ_TH_EXC_PC]

theorem State.seqCapture_keepsRegs (s : State) (i code pc : Nat) :
    KeepsRegs s (s.seqCapture i code pc) (fun f j => excFields.contains f && j == i) := by
  refine (KeepsRegs.refl s _).capture ?_ ?_ ?_
  · simp [excFields]
  · simp [excFields]
  · simp [excFields]

/-- The first capture takes the exception's code and its word. -/
theorem State.getF_seqCapture_of_clear {s : State} {i : Nat} (h : s.bit .CSQ_TH_EXC_VALID i = false) (code pc : Nat) :
    (s.seqCapture i code pc).getF .CSQ_TH_EXC_VALID i = 1 ∧ (s.seqCapture i code pc).getF .CSQ_TH_EXC_CODE i = code % 64 ∧
      (s.seqCapture i code pc).getF .CSQ_TH_EXC_PC i = pc % 16384 := by
  simp [State.seqCapture, State.capture, h, State.getF_setF, Fld.width, Fld.info]

/-- A later exception sets OVERRUN alone. -/
theorem State.seqCapture_of_valid {s : State} {i : Nat} (h : s.bit .CSQ_TH_EXC_VALID i = true) (code pc : Nat) :
    s.seqCapture i code pc = s.setF .CSQ_TH_EXC_OVERRUN i 1 := if_pos h

/-! ### Halting exceptions -/

/-- The parts that an exception of a thread touches. -/
def excParts : List Part := [.threads, .regs] ++ eventParts

theorem State.seqReport_touches (s : State) (i code pc : Nat) : Touches (.regs :: eventParts) s (s.seqReport i code pc) :=
  (State.raise_touches ..).after ((State.traceTh_touches ..).after (s.seqCapture_touches i code pc).mono)

theorem State.seqReport_regs (s : State) (i code pc : Nat) : (s.seqReport i code pc).regs = (s.seqCapture i code pc).regs :=
  (((State.raise_touches ..).after ((s.seqCapture i code pc).traceTh_touches ..).mono).same (ps := eventParts) .regs)

theorem State.getF_seqReport (s : State) (i code pc : Nat) (f : Fld) (j : Nat) :
    (s.seqReport i code pc).getF f j = (s.seqCapture i code pc).getF f j := by
  simp only [State.getF, State.seqReport_regs]

/-- The thread of a halting exception as it is reported: state 4, waiting for nothing. -/
def State.seqHalted (s : State) (i : Nat) : State :=
  ((s.setF .CSQ_TH_STAT_STATE i 4).setF .CSQ_TH_STAT_WAITKIND i 0).setThread i { s.thread i with wait := .idle }

theorem State.seqHaltAt_eq (s : State) (i code pc : Nat) :
    s.seqHaltAt i code pc = ((s.seqHalted i).seqReport i code pc).seqStopDue i := by
  unfold State.seqHaltAt State.seqHalted
  simp only [State.thread_setF]

theorem State.seqHalted_touches (s : State) (i : Nat) : Touches [.threads, .regs] s (s.seqHalted i) :=
  (State.setThread_touches ..).after ((State.setF_touches ..).after (s.setF_touches ..).mono)

theorem State.seqHaltAt_touches (s : State) (i code pc : Nat) : Touches excParts s (s.seqHaltAt i code pc) := by
  rw [State.seqHaltAt_eq]
  exact (State.seqStopDue_touches ..).after ((State.seqReport_touches ..).after ((s.seqHalted_touches i).mono))

/-- The registers of a thread that a halt writes. -/
def haltFields : List Fld := [.CSQ_TH_STAT_STATE, .CSQ_TH_STAT_WAITKIND] ++ excFields

theorem State.seqHaltAt_keepsRegs (s : State) (i code pc : Nat) :
    KeepsRegs s (s.seqHaltAt i code pc) (fun f j => haltFields.contains f && j == i) := by
  rw [State.seqHaltAt_eq]
  have hhalted : KeepsRegs s (s.seqHalted i) (fun f j => haltFields.contains f && j == i) :=
    (((KeepsRegs.refl s _).setF (by simp [haltFields]) 4).setF (by simp [haltFields]) 0).touches (State.setThread_touches ..)
  have hreport : KeepsRegs (s.seqHalted i) ((s.seqHalted i).seqReport i code pc) (fun f j => haltFields.contains f && j == i) :=
    ((State.seqCapture_keepsRegs _ i code pc).congr (State.seqReport_regs ..)).fields
  exact (hhalted.trans hreport).trans (State.seqStopDue_keepsRegs _ i).field

/-- A halting exception ends in state 4, or 5 where a stop was waiting. -/
theorem State.thState_seqHaltAt (s : State) (i code pc : Nat) :
    (s.seqHaltAt i code pc).thState i = if (s.thread i).stop then 5 else 4 := by
  have hthread : ((s.seqHalted i).seqReport i code pc).thread i = { s.thread i with wait := .idle } := by
    rw [(State.seqReport_touches ..).thread i, State.seqHalted, State.thread_setThread_same]
  have hstate : ((s.seqHalted i).seqReport i code pc).thState i = 4 := by
    show State.getF _ _ _ = 4
    rw [State.getF_seqReport, State.seqCapture_keepsRegs _ _ _ _ _ _ (by simp [excFields])]
    simp [State.seqHalted, State.getF_setF, Fld.width, Fld.info]
  rw [State.seqHaltAt_eq, State.thState_seqStopDue, hthread, hstate]
  simp

/-- What the capture of a halting exception holds. -/
theorem State.getF_seqHaltAt_exc (s : State) (i code pc : Nat) {f : Fld} (hf : excFields.contains f = true) :
    (s.seqHaltAt i code pc).getF f i = (s.seqCapture i code pc).getF f i := by
  have hne : (f == .CSQ_TH_STAT_STATE && i == i) = false := by
    simp only [beq_self_eq_true, Bool.and_true, beq_eq_false_iff_ne]
    rintro rfl
    simp [excFields] at hf
  rw [State.seqHaltAt_eq, State.seqStopDue_keepsRegs _ _ _ _ hne, State.getF_seqReport]
  have hsame (g : Fld) (hg : excFields.contains g = true) : (s.seqHalted i).getF g i = s.getF g i := by
    unfold State.seqHalted
    rw [State.getF_setThread]
    have h1 : ¬ (Fld.CSQ_TH_STAT_STATE = g ∧ i = i) := by rintro ⟨rfl, -⟩; simp [excFields] at hg
    have h2 : ¬ (Fld.CSQ_TH_STAT_WAITKIND = g ∧ i = i) := by rintro ⟨rfl, -⟩; simp [excFields] at hg
    rw [State.getF_setF_ne _ _ h2, State.getF_setF_ne _ _ h1]
  have hvalid : (s.seqHalted i).bit .CSQ_TH_EXC_VALID i = s.bit .CSQ_TH_EXC_VALID i := by
    simp only [State.bit, hsame .CSQ_TH_EXC_VALID (by decide)]
  cases hv : s.bit .CSQ_TH_EXC_VALID i with
  | true =>
    rw [State.seqCapture_of_valid (hvalid.trans hv), State.seqCapture_of_valid hv, State.getF_setF, State.getF_setF, hsame f hf]
  | false =>
    simp only [State.seqCapture, State.capture, hvalid, hv, Bool.false_eq_true, if_false, List.foldl_cons, List.foldl_nil,
      State.getF_setF, hsame f hf]

/-! ### Waiting and resuming -/

/-- The registers of a thread that waiting and resuming write. -/
def waitFields : List Fld := [.CSQ_TH_STAT_STATE, .CSQ_TH_STAT_WAITKIND, .CSQ_TH_PRED_P]

/-- The parts that a thread's own progress touches. -/
def threadParts : List Part := [.threads, .regs, .traces]

theorem State.block_touches (s : State) (i kind : Nat) (wt : ThreadWait) : Touches threadParts s (s.block i kind wt) := by
  unfold State.block
  extract_lets u
  exact (State.traceTh_touches ..).after ((State.setF_touches ..).after ((State.setF_touches ..).after
    (s.setThread_touches ..).mono))

/-- A thread that waits: state 3, its WAITKIND and what it waits for. -/
theorem State.block_spec (s : State) (i : Nat) {kind : Nat} (hkind : kind < 8) (wt : ThreadWait) :
    (s.block i kind wt).thState i = 3 ∧ (s.block i kind wt).getF .CSQ_TH_STAT_WAITKIND i = kind ∧
      (s.block i kind wt).thread i = { s.thread i with wait := wt } := by
  unfold State.block
  simp [State.thState, State.getF_setF, Fld.width, Fld.info]
  omega

/-- The thread as it goes on, before what was waiting for it takes effect. -/
def State.resumed (s : State) (i : Nat) (p7 : Bool) : State :=
  (((s.setThread i { s.thread i with wait := .idle }).setF .CSQ_TH_STAT_STATE i 2).setF .CSQ_TH_STAT_WAITKIND i 0).setPred i 7 p7

theorem State.resume_eq (s : State) (i : Nat) (p7 : Bool) :
    s.resume i p7 = ((s.resumed i p7).traceTh i 2 3 ((s.resumed i p7).pc i) p7.toNat).seqStopDue i := rfl

theorem State.resumed_touches (s : State) (i : Nat) (p7 : Bool) : Touches [.threads, .regs] s (s.resumed i p7) :=
  (State.setF_touches ..).after ((State.setF_touches ..).after ((State.setF_touches ..).after (s.setThread_touches ..).mono))

theorem State.resumed_keepsRegs (s : State) (i : Nat) (p7 : Bool) :
    KeepsRegs s (s.resumed i p7) (fun f j => waitFields.contains f && j == i) :=
  ((((KeepsRegs.refl s _).touches (s.setThread_touches ..)).setF (by simp [waitFields]) _).setF (by simp [waitFields]) _).setF
    (by simp [waitFields]) _

theorem State.resume_touches (s : State) (i : Nat) (p7 : Bool) : Touches threadParts s (s.resume i p7) := by
  rw [State.resume_eq]
  exact (State.seqStopDue_touches ..).after ((State.traceTh_touches ..).after (s.resumed_touches i p7).mono)

theorem State.resume_keepsRegs (s : State) (i : Nat) (p7 : Bool) :
    KeepsRegs s (s.resume i p7) (fun f j => waitFields.contains f && j == i) := by
  rw [State.resume_eq]
  exact ((s.resumed_keepsRegs i p7).touches (State.traceTh_touches ..)).trans (State.seqStopDue_keepsRegs _ i).field

theorem State.thread_resume_ne (s : State) {i j : Nat} (p7 : Bool) (h : i ≠ j) : (s.resume i p7).thread j = s.thread j := by
  rw [State.resume_eq, State.thread_seqStopDue_ne _ h, State.thread_traceTh]
  simp [State.resumed, State.setPred, State.thread_setThread_ne _ _ _ h]

theorem State.thState_resume (s : State) (i : Nat) (p7 : Bool) : (s.resume i p7).thState i =
    if (s.thread i).stop then 5 else if (s.thread i).halt then 4 else 2 := by
  rw [State.resume_eq, State.thState_seqStopDue, State.thread_traceTh]
  simp [State.resumed, State.setPred, State.thState, State.getF_setF, Fld.width, Fld.info]

theorem State.wait_resume (s : State) (i : Nat) (p7 : Bool) : ((s.resume i p7).thread i).wait = .idle := by
  rw [State.resume_eq, State.wait_seqStopDue, State.thread_traceTh]
  simp [State.resumed, State.setPred]

theorem State.pc_resume (s : State) (i j : Nat) (p7 : Bool) : (s.resume i p7).pc j = s.pc j :=
  s.resume_keepsRegs i p7 _ _ (by simp [waitFields])

/-! ### Predicates -/

theorem testBit_sub_two_pow_same {n b : Nat} (h : n.testBit b = true) : (n - 2 ^ b).testBit b = false := by
  have hpos : 0 < 2 ^ b := Nat.two_pow_pos b
  simp only [Nat.testBit_eq_decide_div_mod_eq, decide_eq_true_eq, decide_eq_false_iff_not] at h ⊢
  have hdiv : (n - 2 ^ b) / 2 ^ b = n / 2 ^ b - 1 := by
    simpa using Nat.sub_mul_div n (2 ^ b) 1
  omega

theorem testBit_withBit_same (n b : Nat) (v : Bool) : (withBit n b v).testBit b = v := by
  cases v with
  | true => simp [withBit, Nat.testBit_or, Nat.testBit_two_pow_self]
  | false =>
    unfold withBit
    cases h : n.testBit b with
    | true => simpa using testBit_sub_two_pow_same h
    | false => simpa using h

theorem State.pred_setPred_same (s : State) (i : Nat) {p : Nat} (hp : p < 8) (v : Bool) : (s.setPred i p v).pred i p = v := by
  simp only [State.pred, State.setPred, State.getF_setF_same]
  rw [show Fld.width .CSQ_TH_PRED_P = 8 from rfl, Nat.testBit_mod_two_pow, testBit_withBit_same]
  simp [hp]

theorem State.pred_resume (s : State) (i : Nat) (p7 : Bool) : (s.resume i p7).pred i 7 = p7 := by
  have hstop : (s.resume i p7).pred i 7 = (s.resumed i p7).pred i 7 := by
    unfold State.pred
    rw [State.resume_eq, State.seqStopDue_keepsRegs _ _ _ _ (by simp), State.getF_traceTh]
  rw [hstop]
  exact State.pred_setPred_same _ i (by decide) p7

/-! ### The end of a gathering (R190, R203) -/

/-- The parts that the end of a gathering touches. -/
def groupParts : List Part := [.groups, .snaps, .stations] ++ threadParts

theorem State.thaw_touches (s : State) : Touches [.stations] s s.thaw := Touches.of_withParts rfl

/-- A fold that resumes the threads of a gathering. -/
theorem State.resumeAll_touches (p7 : Bool) (xs : List Nat) (s : State) :
    Touches threadParts s (xs.foldl (fun t i => if t.thState i == 3 then t.resume i p7 else t) s) :=
  Touches.foldl _ (fun t i => Touches.ite _ (t.resume_touches i p7) (Touches.refl _ t)) xs s

theorem State.resumeAll_keepsRegs (p7 : Bool) (xs : List Nat) (s : State) :
    KeepsRegs s (xs.foldl (fun t i => if t.thState i == 3 then t.resume i p7 else t) s) (fun f _ => waitFields.contains f) := by
  refine KeepsRegs.foldl _ (fun t i => KeepsRegs.ite _ ((t.resume_keepsRegs i p7).mono fun f j hf => ?_) (KeepsRegs.refl t _)) xs s
  rw [hf, Bool.false_and]

/-- A thread that does not wait stays as it is. -/
theorem State.resumeAll_of_not_waiting (p7 : Bool) (xs : List Nat) {s : State} {i : Nat} (h : s.thState i ≠ 3) :
    let t := xs.foldl (fun t i => if t.thState i == 3 then t.resume i p7 else t) s
    t.thState i = s.thState i ∧ t.thread i = s.thread i := by
  refine List.foldlRecOn (motive := fun t : State => t.thState i = s.thState i ∧ t.thread i = s.thread i) xs _ ⟨rfl, rfl⟩ ?_
  rintro t ⟨hst, hth⟩ j -
  by_cases hj : t.thState j = 3
  · have hne : j ≠ i := by
      rintro rfl
      exact h (hst.symm.trans hj)
    rw [if_pos (beq_iff_eq.mpr hj), State.thread_resume_ne _ _ hne]
    refine ⟨?_, hth⟩
    exact (t.resume_keepsRegs j p7 _ _ (by simp [Ne.symm hne])).trans hst
  · rw [if_neg (by simpa using hj)]
    exact ⟨hst, hth⟩

/-- A gathering ends: its group is free, a snapshot in it ends with it. -/
def State.instanceOver (s : State) (g : Nat) (b : BarInst) (timedOut : Bool) : State :=
  let s := s.setGroup g { s.group g with inst := none, count := (s.group g).count + 1, timedOut := timedOut }
  if s.snaps.any (fun n => b.threads.contains n.th) then
    { s with snaps := s.snaps.filter (fun n => !(b.threads.contains n.th)) }.thaw
  else s

theorem State.endInstance_of_some {s : State} {g : Nat} {b : BarInst} (h : (s.group g).inst = some b) (p7 timedOut : Bool) :
    s.endInstance g p7 timedOut =
      b.threads.foldl (fun t i => if t.thState i == 3 then t.resume i p7 else t) (s.instanceOver g b timedOut) := by
  simp only [State.endInstance, h, State.instanceOver]

theorem State.endInstance_of_none {s : State} {g : Nat} (h : (s.group g).inst = none) (p7 timedOut : Bool) :
    s.endInstance g p7 timedOut = s := by
  simp only [State.endInstance, h]

theorem State.snaps_touches (s : State) (xs : List Snapshot) : Touches [.snaps] s { s with snaps := xs } := Touches.of_withParts rfl

theorem State.instanceOver_touches (s : State) (g : Nat) (b : BarInst) (timedOut : Bool) :
    Touches [.groups, .snaps, .stations] s (s.instanceOver g b timedOut) := by
  unfold State.instanceOver
  extract_lets _ u
  have hu : Touches [.groups, .snaps, .stations] s u := (s.setGroup_touches ..).mono
  clear_value u
  exact Touches.ite _ ((State.thaw_touches _).after ((u.snaps_touches _).after hu)) hu

theorem State.endInstance_touches (s : State) (g : Nat) (p7 timedOut : Bool) :
    Touches groupParts s (s.endInstance g p7 timedOut) := by
  cases h : (s.group g).inst with
  | none => rw [State.endInstance_of_none h]; exact Touches.refl _ s
  | some b =>
    rw [State.endInstance_of_some h]
    exact (State.resumeAll_touches ..).after (s.instanceOver_touches ..).mono

theorem State.endInstance_keepsRegs (s : State) (g : Nat) (p7 timedOut : Bool) :
    KeepsRegs s (s.endInstance g p7 timedOut) (fun f _ => waitFields.contains f) := by
  cases h : (s.group g).inst with
  | none => rw [State.endInstance_of_none h]; exact KeepsRegs.refl s _
  | some b =>
    rw [State.endInstance_of_some h]
    exact ((KeepsRegs.refl s _).touches (s.instanceOver_touches g b timedOut)).trans (State.resumeAll_keepsRegs _ _ _)

theorem State.endInstance_of_not_waiting {s : State} {i : Nat} (h : s.thState i ≠ 3) (g : Nat) (p7 timedOut : Bool) :
    (s.endInstance g p7 timedOut).thState i = s.thState i ∧ (s.endInstance g p7 timedOut).thread i = s.thread i := by
  cases hg : (s.group g).inst with
  | none => rw [State.endInstance_of_none hg]; exact ⟨rfl, rfl⟩
  | some b =>
    have hover := s.instanceOver_touches g b timedOut
    have hst : (s.instanceOver g b timedOut).thState i = s.thState i := hover.getF ..
    have hth : (s.instanceOver g b timedOut).thread i = s.thread i := hover.thread i
    rw [State.endInstance_of_some hg, ← hst, ← hth]
    exact State.resumeAll_of_not_waiting p7 b.threads (by rwa [hst])

theorem State.abandonWaits_touches (s : State) (i : Nat) : Touches groupParts s (s.abandonWaits i) :=
  Touches.foldl _ (fun t g => t.endInstance_touches g _ _) _ s

theorem State.abandonWaits_keepsRegs (s : State) (i : Nat) :
    KeepsRegs s (s.abandonWaits i) (fun f _ => waitFields.contains f) :=
  KeepsRegs.foldl _ (fun t g => t.endInstance_keepsRegs g _ _) _ s

theorem State.abandonWaits_of_not_waiting {s : State} {i : Nat} (h : s.thState i ≠ 3) (k : Nat) :
    (s.abandonWaits k).thState i = s.thState i ∧ (s.abandonWaits k).thread i = s.thread i := by
  unfold State.abandonWaits
  extract_lets gs
  refine List.foldlRecOn (motive := fun t : State => t.thState i = s.thState i ∧ t.thread i = s.thread i) gs _ ⟨rfl, rfl⟩ ?_
  rintro t ⟨hst, hth⟩ g -
  obtain ⟨hst', hth'⟩ := State.endInstance_of_not_waiting (s := t) (i := i) (by rwa [hst]) g false true
  exact ⟨hst'.trans hst, hth'.trans hth⟩

/-! ### Stopping a thread (R190) -/

theorem State.cutCopy_keepsRegs (s : State) (i : Nat) : KeepsRegs s (s.cutCopy i) eccWrites := by
  unfold State.cutCopy
  split
  · exact ((KeepsRegs.refl s _).touches s.burn_touches).trans (State.moveBytes_keepsRegs _ _ _ _ _)
  · exact KeepsRegs.refl s _

theorem State.cutCopy_of_no_copy {s : State} {i : Nat} (h : ∀ d x n, (s.thread i).wait ≠ .copy d x n) : s.cutCopy i = s := by
  unfold State.cutCopy
  split
  · next hc => exact absurd hc (h _ _ _)
  · rfl

/-- A thread that stops, before the instances that it waits in end. -/
def State.stopped (s : State) (i : Nat) : State :=
  let s := ((s.cutCopy i).setF .CSQ_TH_STAT_STATE i 5).setF .CSQ_TH_STAT_WAITKIND i 0
  s.setThread i { s.thread i with wait := .idle, stop := false, halt := false, armed := [] }

theorem State.threadStopNow_eq (s : State) (i : Nat) :
    ∃ pc, s.threadStopNow i = ((s.stopped i).abandonWaits i).traceTh i 1 8 pc 0 := ⟨_, rfl⟩

theorem State.stopped_spec (s : State) (i : Nat) : (s.stopped i).thState i = 5 ∧ ((s.stopped i).thread i).armed = [] := by
  unfold State.stopped
  simp [State.thState, State.getF_setF, Fld.width, Fld.info]

/-- A stopped thread is in state 5 and has discarded its armed actions. -/
theorem State.threadStopNow_spec (s : State) (i : Nat) :
    (s.threadStopNow i).thState i = 5 ∧ ((s.threadStopNow i).thread i).armed = [] := by
  obtain ⟨pc, hpc⟩ := s.threadStopNow_eq i
  obtain ⟨hst, harmed⟩ := s.stopped_spec i
  obtain ⟨hst', hth'⟩ := State.abandonWaits_of_not_waiting (s := s.stopped i) (i := i) (by rw [hst]; decide) i
  rw [hpc, State.thread_traceTh, hth']
  refine ⟨?_, harmed⟩
  exact (State.getF_traceTh ..).trans (hst'.trans hst)

theorem State.stopped_sram {s : State} {i : Nat} (h : ∀ d x n, (s.thread i).wait ≠ .copy d x n) :
    (s.stopped i).sram = s.sram := by
  unfold State.stopped
  rw [State.cutCopy_of_no_copy h]
  rfl

/-- A thread that is not amid a COPY stops without writing a byte. -/
theorem State.threadStopNow_sram {s : State} {i : Nat} (h : ∀ d x n, (s.thread i).wait ≠ .copy d x n) :
    (s.threadStopNow i).sram = s.sram := by
  obtain ⟨pc, hpc⟩ := s.threadStopNow_eq i
  have hafter : Touches groupParts (s.stopped i) (s.threadStopNow i) := by
    rw [hpc]
    exact (State.traceTh_touches ..).after (State.abandonWaits_touches ..)
  exact Eq.trans (hafter.same .sram) (State.stopped_sram h)

/-- A stop writes registers of threads' waits and of error correction alone. -/
theorem State.threadStopNow_keepsRegs (s : State) (i : Nat) :
    KeepsRegs s (s.threadStopNow i) (fun f _ => (waitFields ++ eccFields).contains f) := by
  obtain ⟨pc, hpc⟩ := s.threadStopNow_eq i
  rw [hpc]
  have hcut : KeepsRegs s (s.cutCopy i) (fun f _ => (waitFields ++ eccFields).contains f) := by
    refine (s.cutCopy_keepsRegs i).mono fun f j hf => ?_
    simp only [List.contains_append, Bool.or_eq_false_iff] at hf
    exact hf.2
  have hstopped : KeepsRegs s (s.stopped i) (fun f _ => (waitFields ++ eccFields).contains f) :=
    ((hcut.setF rfl _).setF rfl _).touches (State.setThread_touches ..)
  refine (hstopped.trans ((State.abandonWaits_keepsRegs _ i).mono fun f j hf => ?_)).touches (State.traceTh_touches ..)
  simp only [List.contains_append, Bool.or_eq_false_iff] at hf
  exact hf.1

end Sys2Proof.Machine
end

section
/-!
PROOF. The rescale by table (R98, O12).
-/

set_option Elab.async false

namespace Sys2Proof.Machine
open Sys2Proof

/-- Rounding with ties away from zero at a power of two, as the manual writes it: add half the divisor, shift, put the sign back. -/
theorem roundAway_two_pow (p : Int) {k : Nat} (hk : k ≠ 0) :
    roundAway p (2 ^ k) = p.sign * (((p.natAbs + 2 ^ (k - 1)) / 2 ^ k : Nat) : Int) := by
  obtain ⟨n, rfl⟩ := Nat.exists_eq_succ_of_ne_zero hk
  have hquot : (2 * p.natAbs + 2 ^ (n + 1)) / (2 * 2 ^ (n + 1)) = (p.natAbs + 2 ^ n) / 2 ^ (n + 1) := by
    rw [pow_succ', ← Nat.mul_add, Nat.mul_div_mul_left _ _ Nat.two_pos]
  simp only [roundAway, Nat.succ_eq_add_one, Nat.add_sub_cancel, hquot]
  rcases lt_trichotomy p 0 with hp | rfl | hp
  · simp [hp, Int.sign_eq_neg_one_of_neg hp]
  · have hzero : 2 ^ n / (2 * 2 ^ n) = 0 := Nat.div_eq_of_lt (by have := Nat.two_pow_pos n; omega)
    simp [pow_succ', hzero]
  · simp [hp.le, Int.sign_eq_one_of_pos hp]

/-- Settles O12: the model rounds with `roundAway`, which at a power of two is the manual's shift. -/
theorem tableRescale : Obligations.TableRescale := by
  unfold Obligations.TableRescale
  intro a mult offset shift p r
  have hr : (if shift = 0 then p else roundAway p (2 ^ shift)) = r := by
    unfold r
    split
    · rfl
    · next hshift => exact roundAway_two_pow p hshift
  show sat16 ((if shift = 0 then p else roundAway p (2 ^ shift)) + offset) = _
  rw [hr]
  rfl
end Sys2Proof.Machine
end

section
/-!
PROOF. The stimulus DAC (R140 to R151, O22).
-/

set_option Elab.async false

namespace Sys2Proof.Machine
open Sys2Proof

/-! ### The destination and its current (R140, R141) -/

theorem State.dacDest_of_current {s : State} {d : DacDest} (h : s.current d ≠ 0) : s.dacDest = some d := by
  by_contra hd
  exact h (if_neg hd)

theorem State.current_of_die_off {s : State} (h : s.dieOn 4 = false) (d : DacDest) : s.current d = 0 := by
  simp [State.current, State.dacDest, h]

/-! ### Passages through the safe value (R147) -/

/-- A register of the DAC takes a write while DIE.DAC is on. -/
theorem State.onReg_dac {s : State} (hon : s.dieOn 4 = true) {r : Reg} (hr : r.info.block = .dac) (m : Nat) (t : State) :
    s.onReg m r [] 0 t = t := State.onReg_on _ _ _ _ _ _ (by rw [hr]; exact hon)

theorem State.dacCode_of_passage {s : State} (h : s.getF .SDAC_STAT_PASSAGE 0 = 1) : s.dacCode = 8192 := by
  simp [State.dacCode, State.passing, State.bit, h]

theorem State.dacPassage_only (s : State) (span route : Nat) :
    s.dacPassage span route = { s with regs := (s.dacPassage span route).regs, dac := (s.dacPassage span route).dac } := by
  simp only [State.dacPassage, State.setF]

theorem State.regs_dacPassage (s : State) (span route : Nat) : (s.dacPassage span route).regs =
    (((s.setF .SDAC_CTL_SPAN 0 span).setF .SDAC_CTL_ROUTE 0 route).setF .SDAC_STAT_PASSAGE 0 1).regs := by
  simp only [State.dacPassage, State.setF]

theorem State.getF_dacPassage (s : State) (span route : Nat) (f : Fld) (i : Nat) :
    (s.dacPassage span route).getF f i =
      (((s.setF .SDAC_CTL_SPAN 0 span).setF .SDAC_CTL_ROUTE 0 route).setF .SDAC_STAT_PASSAGE 0 1).getF f i := by
  simp only [State.getF, State.regs_dacPassage]

theorem State.dacCode_dacPassage (s : State) (span route : Nat) : (s.dacPassage span route).dacCode = 8192 :=
  State.dacCode_of_passage (by simp [State.getF_dacPassage, Fld.width, Fld.info])

theorem State.passUntil_dacPassage (s : State) (span route : Nat) :
    s.time + 1004 ≤ (s.dacPassage span route).dac.passUntil := Nat.le_max_right ..

theorem State.dacPassage_keepsRegs (s : State) (span route : Nat) : KeepsRegs s (s.dacPassage span route)
    (fun f i => [Fld.SDAC_CTL_SPAN, .SDAC_CTL_ROUTE, .SDAC_STAT_PASSAGE].contains f && i == 0) :=
  ((((KeepsRegs.refl s _).setF (by decide) span).setF (by decide) route).setF (by decide) 1).trans
    (KeepsRegs.of_regs_eq (State.regs_dacPassage ..) _)

/-! ### The end of a session (R149) -/

theorem State.sessionOver_of_owned {s : State} (h : s.bit .SDAC_STAT_OWNER 0 = true) : s.sessionOver =
    ((((s.setF .SDAC_CTL_SESSION 0 0).setF .SDAC_STAT_OWNER 0 0).setF .SDAC_STAT_LOOPBUSY 0 0).setF .SDAC_CTL_MODE 0 0).dacPassage
      ((((s.setF .SDAC_CTL_SESSION 0 0).setF .SDAC_STAT_OWNER 0 0).setF .SDAC_STAT_LOOPBUSY 0 0).setF .SDAC_CTL_MODE 0 0
        |>.getF .SDAC_CTL_SPAN 0) 0x1F :=
  if_pos (by simpa [State.bit, State.getF_setF] using h)

/-- What the end of a session leaves. -/
theorem State.sessionOver_over {s : State} (h : s.bit .SDAC_STAT_OWNER 0 = true) :
    let t := s.sessionOver
    t.getF .SDAC_CTL_SESSION 0 = 0 ∧ t.getF .SDAC_STAT_OWNER 0 = 0 ∧ t.getF .SDAC_STAT_LOOPBUSY 0 = 0 ∧
      t.getF .SDAC_CTL_MODE 0 = 0 ∧ t.getF .SDAC_CTL_ROUTE 0 = 0x1F ∧ t.dacCode = 8192 ∧
      t = { s with regs := t.regs, dac := t.dac } := by
  simp only [State.sessionOver_of_owned h]
  refine ⟨?_, ?_, ?_, ?_, ?_, State.dacCode_dacPassage .., ?_⟩
  case refine_6 => simp only [State.dacPassage, State.setF]
  all_goals simp [State.getF_dacPassage, State.getF_setF, Fld.width, Fld.info]

/-! ### The loads that a loopback calibration senses (R150) -/

/-- What LOOPCAL_DONE finds: the load stored, and nothing more of a loopback calibration in hand. -/
def State.loopSensed (s : State) (ohms : Nat) : State :=
  (s.setF .SDAC_STAT_LOOPBUSY 0 0).setF .SDAC_LOAD_OHMS 0 (min ohms 65535)

theorem State.getF_loopSensed_result (s : State) (ohms r : Nat) (hr : r < 4) :
    let t := (s.loopSensed ohms).setF .SDAC_STAT_RESULT 0 r
    t.getF .SDAC_STAT_LOOPBUSY 0 = 0 ∧ t.getF .SDAC_LOAD_OHMS 0 = min ohms 65535 ∧ t.getF .SDAC_STAT_RESULT 0 = r ∧
      KeepsRegs s t (fun f i => [Fld.SDAC_STAT_LOOPBUSY, .SDAC_LOAD_OHMS, .SDAC_STAT_RESULT].contains f && i == 0) := by
  refine ⟨?_, ?_, ?_, ?_⟩
  · simp [State.loopSensed, State.getF_setF]
  · simp [State.loopSensed, State.getF_setF, Fld.width, Fld.info]
  · rw [State.getF_setF_same]
    exact Nat.mod_eq_of_lt hr
  · exact (((KeepsRegs.refl s _).setF (by decide) _).setF (by decide) _).setF (by decide) r

theorem State.raise_dac (s : State) (code o c u st : Nat) (d : List Byte) : (s.raise code o c u st d).dac = s.dac := by
  rw [State.raise_reports]; rfl

/-- A loopback calibration that fails: the load, the result and the event of it. -/
def State.loopFailed (s : State) (ohms r : Nat) (d : List Byte) : State :=
  ((s.loopSensed ohms).setF .SDAC_STAT_RESULT 0 r).raise 0x207 0 0xFF 0xFF 0xFFFF d

theorem State.loopFailed_spec (s : State) (ohms r : Nat) (hr : r < 4) (d : List Byte) :
    let t := s.loopFailed ohms r d
    t.getF .SDAC_STAT_LOOPBUSY 0 = 0 ∧ t.getF .SDAC_LOAD_OHMS 0 = min ohms 65535 ∧ t.getF .SDAC_STAT_RESULT 0 = r ∧
      t.dac.spanTrim = s.dac.spanTrim ∧ KeepsBytes s t nowhere ∧
      KeepsRegs s t (fun f i => [Fld.SDAC_STAT_LOOPBUSY, .SDAC_LOAD_OHMS, .SDAC_STAT_RESULT].contains f && i == 0) := by
  obtain ⟨hdone, hohms, hres, hregs⟩ := s.getF_loopSensed_result ohms r hr
  refine ⟨(State.raise_getF ..).trans hdone, (State.raise_getF ..).trans hohms, (State.raise_getF ..).trans hres,
    congrArg Dac.spanTrim (State.raise_dac ..), fun a _ => State.raise_byte .., fun f i hf => ?_⟩
  exact (State.raise_getF ..).trans (hregs f i hf)

theorem execLoopcalDone_of_busy {s : State} (h : s.bit .SDAC_STAT_LOOPBUSY 0 = true) (now ohms : Nat) :
    exec (.loopcalDone now ohms) s = .next
      (if 2000 < ohms then (s.advance now).loopFailed ohms 1 [1#8]
      else if ohms < 180 ∨ 220 < ohms then (s.advance now).loopFailed ohms 2 [2#8]
      else
        let u := (s.advance now).loopSensed ohms
        let v := (List.range 4).map (fun i => Config.freeNat (u.fresh + i))
        { ({ u with fresh := u.fresh + 4 }).setF .SDAC_STAT_RESULT 0 3 with dac := { u.dac with spanTrim := v, settTrim := v } }) := by
  show execLoopcalDone now ohms s = _
  simp only [execLoopcalDone, State.bit_advance, h, if_true, Bool.or_eq_true, decide_eq_true_eq, State.loopSensed, State.loopFailed]
  split
  · rfl
  · split <;> rfl

/-! ### The rows -/

section Passage
variable {s : State} (now : Nat) (byHost : Bool) (hon : s.dieOn 4 = true)
include hon

theorem exec_sdacSpanRouteChange (span : BitVec 2) (route : BitVec 5) {dest : Nat}
    (hdest : (if byHost && route.toNat != 0x10 then s.getF .SDAC_CTL_ROUTE 0 else route.toNat) = dest) :
    exec (.sdacSpanRouteChange now byHost span route) s = .next
      (if s.bit .SDAC_STAT_OWNER 0 != byHost then s.advance now
      else if (s.advance now).spanNow = span.toNat ∧ s.getF .SDAC_CTL_ROUTE 0 = dest then s.advance now
      else (s.advance now).dacPassage span.toNat dest) := by
  subst hdest
  refine (congrArg Host.Outcome.next (State.onReg_dac (s := s.advance now) hon (r := .SDAC_CTL) rfl _ _)).trans ?_
  simp only [State.bit_advance, State.advance_getF, Bool.and_eq_true, decide_eq_true_eq]

theorem exec_sdacFtwWrite (v : Word) : exec (.sdacFtwWrite now byHost v) s = .next
    (if s.bit .SDAC_STAT_OWNER 0 != byHost then s.advance now
    else (s.advance now).setF .SDAC_FTW_FTW 0 (min v.toNat 0x33333333)) :=
  congrArg Host.Outcome.next (State.onReg_dac (s := s.advance now) hon (r := .SDAC_FTW) rfl _ _)

theorem exec_sessionEnd : exec (.sessionEnd now) s = .next (s.advance now).sessionOver :=
  congrArg Host.Outcome.next (State.onReg_dac (s := s.advance now) hon (r := .SDAC_CTL) rfl _ _)

theorem exec_sessionRequest : exec (.sessionRequest now) s = .next ((s.advance now).setF .SDAC_CTL_SESSION 0 1) :=
  congrArg Host.Outcome.next (State.onReg_dac (s := s.advance now) hon (r := .SDAC_CTL) rfl _ _)

theorem exec_loopcal : exec (.loopcal now) s = .next
    (if s.bit .SDAC_STAT_OWNER 0 then
      { (s.advance now).setF .SDAC_STAT_LOOPBUSY 0 1 with dac := { (s.advance now).dac with loop := max s.time now } }
    else s.advance now) :=
  congrArg Host.Outcome.next (State.onReg_dac (s := s.advance now) hon (r := .SDAC_CTL) rfl _ _)

end Passage

/-- A board-test session is granted where nothing stands in its way (R149). -/
theorem exec_sessionGrant {s : State} (now : Nat) (hon : s.dieOn 4 = true) (hask : s.bit .SDAC_CTL_SESSION 0 = true)
    (howner : s.bit .SDAC_STAT_OWNER 0 = false) (hserve : s.dac.serving = none) (hqueue : s.dac.queue = [])
    (hstart : s.starting = false) : exec (.sessionGrant now) s = .next
      { (s.advance now).setF .SDAC_STAT_OWNER 0 1 with dac := { (s.advance now).dac with granted := max s.time now } } := by
  have hgo : ((s.advance now).dieOn 4 && (s.advance now).bit .SDAC_CTL_SESSION 0 && !((s.advance now).bit .SDAC_STAT_OWNER 0) &&
      (s.advance now).dac.serving.isNone && (s.advance now).dac.queue.isEmpty && !(s.advance now).starting) = true := by
    show (s.dieOn 4 && s.bit .SDAC_CTL_SESSION 0 && !(s.bit .SDAC_STAT_OWNER 0) && s.dac.serving.isNone && s.dac.queue.isEmpty &&
      !s.starting) = true
    simp [hon, hask, howner, hserve, hqueue, hstart]
  exact if_pos hgo

/-- Settles O22: each row comes down to a passage, a field or the end of a session; what those leave is said above. -/
theorem dacUse : Obligations.DacUse := by
  unfold Obligations.DacUse
  refine ⟨?current, ⟨?route, ?passage, ?ftw⟩, ?session, ?loopcal, ?done⟩
  case current =>
    intro s d e
    refine ⟨fun hd he => ?_, fun hoff => State.current_of_die_off hoff d⟩
    exact Option.some.inj ((State.dacDest_of_current hd).symm.trans (State.dacDest_of_current he))
  case route =>
    intro now byHost span route s old dest hon
    rw [exec_sdacSpanRouteChange now byHost hon span route (dest := dest) rfl]
    have hspan := span.isLt
    refine ⟨?_, ?_, ?_⟩
    · intro howner hsame hold
      rw [if_neg (by simp [howner]), if_pos ⟨hsame, hold⟩]
    · intro howner hmoved hold
      have hdest : dest < 32 := by
        unfold dest
        split
        · exact hold
        · exact route.isLt
      clear_value dest
      refine ⟨_, congrArg Host.Outcome.next ((if_neg (by simp [howner])).trans (if_neg ?_)), ?_, ?_, ?_,
        State.passUntil_dacPassage (s.advance now) _ _, State.dacCode_dacPassage .., State.dacPassage_only ..,
        (State.dacPassage_keepsRegs _ _ _).of_advance⟩
      · rintro ⟨hsame, hold'⟩
        exact hmoved.elim (· hsame) (· hold')
      · simp [State.getF_dacPassage, State.getF_setF, Fld.width, Fld.info]
        omega
      · simp [State.getF_dacPassage, State.getF_setF, Fld.width, Fld.info]
        omega
      · simp [State.getF_dacPassage, Fld.width, Fld.info]
    · intro howner
      rw [if_pos (by simp [howner])]
  case passage =>
    intro now s hp hu
    exact if_pos (Bool.and_eq_true_iff.mpr ⟨hp, decide_eq_true (le_max_of_le_right hu)⟩)
  case ftw =>
    intro now byHost v s hon
    rw [exec_sdacFtwWrite now byHost hon]
    refine ⟨fun howner => ⟨_, congrArg _ (if_neg (by simp [howner])), ?_, State.setF_only .., (State.setF_keepsRegs _ _ _ _).of_advance⟩,
      fun howner => by rw [if_pos (by simp [howner])]⟩
    rw [State.getF_setF_same]
    exact Nat.mod_eq_of_lt (by simp [Fld.width, Fld.info])
  case session =>
    intro now s over_ hon
    refine ⟨exec_sessionRequest now hon, ?_, ?_, ?_⟩
    · intro hask howner hserve hqueue hstart
      refine ⟨_, exec_sessionGrant now hon hask howner hserve hqueue hstart, ?_, rfl, ?_, ?_⟩
      · show ((s.advance now).setF .SDAC_STAT_OWNER 0 1).getF .SDAC_STAT_OWNER 0 = 1
        simp [Fld.width, Fld.info]
      · simp only [State.setF]
      · exact (State.setF_keepsRegs (s.advance now) .SDAC_STAT_OWNER 0 1).of_advance.congr rfl
    · exact fun howner => ⟨_, exec_sessionEnd now hon, State.sessionOver_over (s := s.advance now) howner⟩
    · intro howner hlate
      have hover : ((s.advance now).bit .SDAC_STAT_OWNER 0 &&
          decide ((s.advance now).dac.granted + 100000000 ≤ (s.advance now).time)) = true :=
        Bool.and_eq_true_iff.mpr ⟨howner, decide_eq_true (le_max_of_le_right hlate)⟩
      exact ⟨_, if_pos hover, State.sessionOver_over (s := s.advance now) howner⟩
  case loopcal =>
    intro now s hon
    rw [exec_loopcal now hon]
    exact ⟨fun h => by simp [h], fun h => by simp [h]⟩
  case done =>
    intro now ohms s hbusy
    rw [execLoopcalDone_of_busy hbusy]
    by_cases hmiss : 2000 < ohms
    · obtain ⟨hdone, hohms, hres, htrim, hbytes, hregs⟩ := (s.advance now).loopFailed_spec ohms 1 (by decide) [1#8]
      refine ⟨_, congrArg Host.Outcome.next (if_pos hmiss), hdone, hohms, ?_, ?_, fun _ => htrim, hbytes, hregs⟩
      · rw [if_pos hmiss]
        exact hres
      · omega
    by_cases hwrong : ohms < 180 ∨ 220 < ohms
    · obtain ⟨hdone, hohms, hres, htrim, hbytes, hregs⟩ := (s.advance now).loopFailed_spec ohms 2 (by decide) [2#8]
      refine ⟨_, congrArg Host.Outcome.next ((if_neg hmiss).trans (if_pos hwrong)), hdone, hohms, ?_, ?_, fun _ => htrim,
        hbytes, hregs⟩
      · rw [if_neg hmiss, if_pos hwrong]
        exact hres
      · omega
    · obtain ⟨hdone, hohms, hres, hregs⟩ := (s.advance now).getF_loopSensed_result ohms 3 (by decide)
      refine ⟨_, congrArg Host.Outcome.next ((if_neg hmiss).trans (if_neg hwrong)), hdone, hohms, ?_, fun _ _ => ⟨rfl, rfl⟩,
        fun h => absurd h hwrong, KeepsBytes.of_sram_eq rfl _, hregs⟩
      rw [if_neg hmiss, if_neg hwrong]
      exact hres

end Sys2Proof.Machine
end

section
/-!
PROOF. The register instructions of the sequencer (Table 7.3, O33).
-/

set_option Elab.async false

namespace Sys2Proof.Machine
open Sys2Proof

/-! ### Register instructions -/

/-- An instruction of one word that changes registers only: its effect, then the next word. -/
theorem State.simple_of_issues {s : State} {i op : Nat} {w : Word} (h : Issues s i op w 1)
    (hop : opcodes.contains op = true) (body : State → State) :
    s.simple i w body = (body (s.traceTh i 3 0 (s.pc i) w.toNat)).setPc i (s.pc i + 1) := by
  rw [State.simple, State.issue_of_issues h hop, State.pc_traceTh]

section Register
variable {s : State} {i op : Nat} {w : Word} (h : Issues s i op w 1) (hop : opcodes.contains op = true)
include h hop

/-- What a register instruction leaves: the value in its register, the next word, and nothing else but the trace. -/
theorem simple_setGreg {g : State → Word} {v : Word} (hg : ∀ k, g (s.traceTh i 3 0 (s.pc i) k) = v) (n : Nat) :
    let t := s.simple i w (fun t => t.setGreg i n (g t))
    t.greg i n = v ∧ t.pc i = (s.pc i + 1) % 16384 ∧
      ThreadOnly s t (fun f j => (f == .CSQ_TH_GREG_VALUE && j == i * 16 + n) || (f == .CSQ_TH_STAT_PC && j == i)) := by
  simp only [State.simple_of_issues h hop, hg]
  refine ⟨?_, ?_, ?_⟩
  · rw [State.greg_setPc, State.greg_setGreg_same]
  · rw [State.pc_setPc_same]
  · exact ((ThreadOnly.traceTh ..).setF (by simp) _).setF (by simp) _

/-- NOP leaves the next word. -/
theorem simple_id :
    let t := s.simple i w (fun t => t)
    t.pc i = (s.pc i + 1) % 16384 ∧ ThreadOnly s t (fun f j => f == .CSQ_TH_STAT_PC && j == i) := by
  simp only [State.simple_of_issues h hop]
  exact ⟨State.pc_setPc_same .., (ThreadOnly.traceTh ..).setF (by simp) _⟩

/-- A shift by 0 to 31 is a register instruction. -/
theorem shift_of_small {f : Fields} (hf : fieldsOf w = f) (hlo : 0 ≤ f.imm13) (hhi : f.imm13 ≤ 31) (sh : Word → Nat → Word) :
    s.shift i w sh = s.simple i w (fun t => t.setGreg i f.rd (sh (t.greg i f.ra) f.imm13.toNat)) := by
  subst hf
  rw [State.shift, State.issue_of_issues h hop, State.simple_of_issues h hop]
  simp only [hlo, hhi, and_self, if_true, State.greg_traceTh, State.pc_traceTh]

end Register

/-- A row of a register instruction: its value in its register, the next word, and nothing else. -/
theorem registerRow {c : Instr} {s : State} {i op now : Nat} {w : Word} {body : State → State} {g : State → Word} {v : Word}
    (hop : opcodes.contains op = true) (h : Issues s i op w 1) (hc : exec c s = seqRow now op w s body)
    (hbody : body (s.advance now) = (s.advance now).simple i w (fun t => t.setGreg i (fieldsOf w).rd (g t)))
    (hg : ∀ k, g ((s.advance now).traceTh i 3 0 ((s.advance now).pc i) k) = v) :
    ∃ t, exec c s = .next t ∧ t.greg i (fieldsOf w).rd = v ∧ t.pc i = (s.pc i + 1) % 16384 ∧
      ThreadOnly (s.advance now) t (fun f j =>
        (f == .CSQ_TH_GREG_VALUE && j == i * 16 + (fieldsOf w).rd) || (f == .CSQ_TH_STAT_PC && j == i)) := by
  obtain ⟨hv, hpc, honly⟩ := simple_setGreg (h.advance now) hop hg (fieldsOf w).rd
  rw [← hbody] at hv hpc honly
  exact ⟨_, hc.trans (seqRow_of_issues h now body), hv, hpc, honly⟩

/-- Settles O33: each row is `simple` over one write of its register; the value it writes is read before the trace record. -/
theorem sequencerArithmetic : Obligations.SequencerArithmetic := by
  unfold Obligations.SequencerArithmetic
  intro now cl th w s
  extract_lets i f a b k res
  have alu {c : Instr} {op : Nat} (sh : Word → Word → Word) (hop : opcodes.contains op = true)
      (hc : exec c s = seqRow now op w s (fun t => t.alu i w sh)) (h : Issues s i op w 1) : res c (sh a b) :=
    registerRow hop h hc rfl (by simp [a, b, f])
  have shift {c : Instr} {op : Nat} (sh : Word → Nat → Word) (hop : opcodes.contains op = true)
      (hc : exec c s = seqRow now op w s (fun t => t.shift i w sh)) (h : Issues s i op w 1) (hlo : 0 ≤ f.imm13)
      (hhi : f.imm13 ≤ 31) : res c (sh a f.imm13.toNat) :=
    registerRow hop h hc (shift_of_small (h.advance now) hop rfl hlo hhi sh) (by simp [a, f])
  refine ⟨?_, ?_, ?_, alu (· + ·) (by decide) rfl, alu (· - ·) (by decide) rfl, alu (· &&& ·) (by decide) rfl,
    alu (· ||| ·) (by decide) rfl, alu (· ^^^ ·) (by decide) rfl, ?_, shift (· <<< ·) (by decide) rfl,
    shift (· >>> ·) (by decide) rfl⟩
  · intro h
    exact ⟨_, seqRow_of_issues (op := 0x00) h now (fun t => t.simple i w (fun u => u)), simple_id (h.advance now) (by decide)⟩
  · exact registerRow (body := fun t => t.simple i w (fun u => u.setGreg i f.rd k)) (g := fun _ => k)
      (by decide) (hc := rfl) (hbody := rfl) (hg := fun _ => rfl)
  · let g := fun t : State => (BitVec.ofNat 32 f.imm16 <<< 16) ||| (t.greg i f.rd &&& 0xFFFF#32)
    exact registerRow (body := fun t => t.simple i w (fun u => u.setGreg i f.rd (g u))) (g := g)
      (by decide) (hc := rfl) (hbody := rfl) (hg := by simp [g])
  · let g := fun t : State => t.greg i f.ra + k
    exact registerRow (body := fun t => t.simple i w (fun u => u.setGreg i f.rd (g u))) (g := g)
      (by decide) (hc := rfl) (hbody := rfl) (hg := by simp [g, a])
end Sys2Proof.Machine
end

section
/-!
PROOF. Control of threads, guards and reserved words (R190, R191, R197, O38).
-/

set_option Elab.async false

namespace Sys2Proof.Machine
open Sys2Proof

/-! ### Starting a thread (R190) -/

/-- One register and one counter of a thread cleared. -/
def State.clearGreg (i : Nat) (s : State) (n : Nat) : State := (s.setGreg i n 0).setF .CSQ_TH_CNT_VALUE (i * 16 + n) 0

/-- A thread whose registers and counters are cleared. -/
def State.gregsCleared (s : State) (i : Nat) : State := (List.range 16).foldl (State.clearGreg i) s

theorem State.clearGreg_keepsRegs (i : Nat) (s : State) (n : Nat) :
    KeepsRegs s (State.clearGreg i s n) (fun f _ => [Fld.CSQ_TH_GREG_VALUE, .CSQ_TH_CNT_VALUE].contains f) :=
  ((KeepsRegs.refl s _).setF rfl _).setF rfl _

theorem State.gregsCleared_keepsRegs (s : State) (i : Nat) :
    KeepsRegs s (s.gregsCleared i) (fun f _ => [Fld.CSQ_TH_GREG_VALUE, .CSQ_TH_CNT_VALUE].contains f) :=
  KeepsRegs.foldl _ (State.clearGreg_keepsRegs i) _ s

theorem State.gregsCleared_touches (s : State) (i : Nat) : Touches [.regs] s (s.gregsCleared i) :=
  Touches.foldl _ (fun t _ => (State.setF_touches ..).after (t.setF_touches ..)) _ s

theorem State.getF_gregsCleared (s : State) (i : Nat) {n : Nat} (hn : n < 16) :
    (s.gregsCleared i).getF .CSQ_TH_GREG_VALUE (i * 16 + n) = 0 := by
  refine foldl_establishes (State.clearGreg i) (fun t => t.getF .CSQ_TH_GREG_VALUE (i * 16 + n) = 0) ?_
    (List.mem_range.mpr hn) ?_ s
  · intro t m ht
    simp [State.clearGreg, State.setGreg, State.getF_setF, ht]
  · intro t
    simp [State.clearGreg, State.setGreg, State.getF_setF]

/-- A thread that starts, before the trace record of its start. -/
def State.started (s : State) (i : Nat) : State :=
  let base := s.getF .CSQ_TH_REGION_BASE i
  let s := ((s.setF .CSQ_TH_PRED_P i 0).setF .CSQ_TH_RECCNT_COUNT i 0).setPc i base
  let s := (s.setF .CSQ_TH_STAT_STATE i 2).setF .CSQ_TH_STAT_WAITKIND i 0
  s.setThread i { ThreadState.idle with line := base / 16, met := (s.thread i).met }

theorem State.started_touches (s : State) (i : Nat) : Touches [.threads, .regs] s (s.started i) :=
  (State.setThread_touches ..).after ((State.setF_touches ..).after ((State.setF_touches ..).after
    ((State.setF_touches ..).after ((State.setF_touches ..).after (s.setF_touches ..).mono))))

theorem State.threadStart_eq (s : State) (i : Nat) :
    ∃ base, s.threadStart i = ((s.gregsCleared i).started i).traceTh i 1 7 base 0 := ⟨_, rfl⟩

theorem State.threadStart_sram (s : State) (i : Nat) : (s.threadStart i).sram = s.sram := by
  obtain ⟨base, hbase⟩ := s.threadStart_eq i
  have hstart : Touches threadParts s (s.threadStart i) := by
    rw [hbase]
    exact (State.traceTh_touches ..).after ((State.started_touches ..).after (s.gregsCleared_touches i).mono)
  exact hstart.same .sram

theorem State.started_spec (s : State) (i : Nat) :
    (s.started i).thState i = 2 ∧ (s.started i).pc i = s.getF .CSQ_TH_REGION_BASE i % 16384 ∧
      (s.started i).getF .CSQ_TH_PRED_P i = 0 ∧
      ∀ n, (s.started i).getF .CSQ_TH_GREG_VALUE n = s.getF .CSQ_TH_GREG_VALUE n := by
  simp [State.started, State.thState, State.pc, State.setPc, State.getF_setF, Fld.width, Fld.info]

/-- A thread that starts runs from the first word of its region, with registers and predicates at 0. -/
theorem State.threadStart_spec (s : State) (i : Nat) :
    (s.threadStart i).thState i = 2 ∧ (s.threadStart i).pc i = s.getF .CSQ_TH_REGION_BASE i % 16384 ∧
      (∀ n, n < 16 → (s.threadStart i).greg i n = 0) ∧ ∀ p, (s.threadStart i).pred i p = false := by
  obtain ⟨base, hbase⟩ := s.threadStart_eq i
  obtain ⟨hst, hpc, hpred, hgreg⟩ := (s.gregsCleared i).started_spec i
  have hregion : (s.gregsCleared i).getF .CSQ_TH_REGION_BASE i = s.getF .CSQ_TH_REGION_BASE i :=
    s.gregsCleared_keepsRegs i _ _ rfl
  have hget (f : Fld) (j : Nat) : (s.threadStart i).getF f j = ((s.gregsCleared i).started i).getF f j := by
    rw [hbase, State.getF_traceTh]
  refine ⟨(hget _ _).trans hst, (hget _ _).trans (hpc.trans (by rw [hregion])), fun n hn => ?_, fun p => ?_⟩
  · simp only [State.greg, hget, hgreg, State.getF_gregsCleared s i hn]
    rfl
  · simp only [State.pred, hget, hpred, Nat.zero_testBit]

/-! ### The words of STOP and RESTART -/

/-- A register of a cluster's shared domain, or of a core, takes a write while that domain is on. -/
theorem State.onReg_shared {s : State} {r : Reg} {c : Nat} (hr : r.info.block = .shared) (hon : s.sharedOn c = true) (m : Nat)
    (ix : List Nat) (t : State) : s.onReg m r ix c t = t :=
  State.onReg_on _ _ _ _ _ _ (by rw [hr, State.blockOn, Nat.div_one]; exact hon)

theorem State.onReg_core {s : State} {r : Reg} {c : Nat} (hr : r.info.block = .core) (hon : s.coreOn c = true) (m : Nat)
    (ix : List Nat) (t : State) : s.onReg m r ix c t = t :=
  State.onReg_on _ _ _ _ _ _ (by rw [hr, State.blockOn, Nat.div_one]; exact hon)

section Control
variable {s : State} {fn cl th : Nat} (hmay : s.mayThread fn (8 * cl + th) = true) (hon : s.sharedOn cl = true)
  (hst : s.thState (8 * cl + th) ≠ 0)
include hmay hon hst

theorem State.stopWrite_of_may : s.stopWrite fn cl th = s.threadStop (8 * cl + th) := by
  simp [State.stopWrite, hmay, hst, State.onReg_shared (r := .CSQ_TH_CTL) rfl hon]

theorem State.restartWrite_of_may :
    s.restartWrite fn cl th =
      (if s.thState (8 * cl + th) = 2 || s.thState (8 * cl + th) = 3 then s.threadStopNow (8 * cl + th) else s).threadStart
        (8 * cl + th) := by
  simp [State.restartWrite, hmay, hst, State.onReg_shared (r := .CSQ_TH_CTL) rfl hon]

end Control

theorem State.stopWrite_of_not_may {s : State} {fn cl th : Nat} (hmay : s.mayThread fn (8 * cl + th) = false) :
    s.stopWrite fn cl th = s.denied fn := by
  simp [State.stopWrite, hmay]

theorem State.restartWrite_of_not_may {s : State} {fn cl th : Nat} (hmay : s.mayThread fn (8 * cl + th) = false) :
    s.restartWrite fn cl th = s.denied fn := by
  simp [State.restartWrite, hmay]

/-- An access that arrives has its effect at the time of the occurrence. -/
theorem State.hosted_advance {s : State} {fn : Nat} (h : Hosted s fn) (now : Nat) (f : State → State) :
    (s.advance now).hosted fn f = f (s.advance now) := State.hosted_of _ _ _ h

/-- A running thread, or one that waits and is not amid a COPY, SNAP or DRST, stops at once. -/
theorem State.threadStop_of_running {s : State} {i : Nat} (h : s.thState i = 2 ∨ (s.thState i = 3 ∧ s.midway i = false)) :
    s.threadStop i = s.threadStopNow i := by
  unfold State.threadStop
  rcases h with h | ⟨h, hmid⟩
  · simp [h]
  · simp [h, hmid]

/-- Amid a COPY, SNAP or DRST a thread completes it first. -/
theorem State.threadStop_of_midway {s : State} {i : Nat} (h : s.thState i = 3) (hmid : s.midway i = true) :
    s.threadStop i = s.setThread i { s.thread i with stop := true } := by
  simp [State.threadStop, h, hmid]

/-- What RESTART leaves of a thread: it runs from the first word of its region, with registers and predicates at 0. -/
theorem State.restart_spec (s : State) (i : Nat) (c : Bool) :
    let t := (if c then s.threadStopNow i else s).threadStart i
    t.thState i = 2 ∧ t.pc i = s.getF .CSQ_TH_REGION_BASE i % 16384 ∧ (∀ n, n < 16 → t.greg i n = 0) ∧
      (∀ p, t.pred i p = false) ∧ ((∀ d x n, (s.thread i).wait ≠ .copy d x n) → KeepsBytes s t nowhere) := by
  have hbase : (if c then s.threadStopNow i else s).getF .CSQ_TH_REGION_BASE i = s.getF .CSQ_TH_REGION_BASE i := by
    split
    · exact s.threadStopNow_keepsRegs i _ _ rfl
    · rfl
  obtain ⟨hst, hpc, hgreg, hpred⟩ := State.threadStart_spec (if c then s.threadStopNow i else s) i
  refine ⟨hst, hpc.trans (by rw [hbase]), hgreg, hpred, fun hcopy => KeepsBytes.of_sram_eq ?_ _⟩
  rw [State.threadStart_sram]
  split
  · exact State.threadStopNow_sram hcopy
  · rfl

/-! ### Guards and reserved words (R191, R197) -/

section Guard
variable {s : State} {i : Nat} {w : Word} (hst : s.thState i = 2) (hon : s.sharedOn (i / 8) = true)
  (hin : s.inRegion i (s.pc i) = true)
include hst hon hin

/-- A false guard skips the instruction. -/
theorem State.issue_of_guard_false (hg : (fieldsOf w).g = true) (hp : s.pred i (fieldsOf w).p = (fieldsOf w).n) (n : Nat)
    (body : State → State) : s.issue i w n body = (s.traceTh i 3 0 (s.pc i) w.toNat).setPc i (s.pc i + n) := by
  have hpred : (s.traceTh i 3 0 (s.pc i) w.toNat).pred i (fieldsOf w).p = s.pred i (fieldsOf w).p := by
    simp [State.pred]
  unfold State.issue
  simp only [hst, hon, hin, hpred, hg, hp, bne_self_eq_false, Bool.not_true, Bool.not_false, Bool.or_self, Bool.and_self,
    Bool.false_eq_true, if_false, if_true]

/-- A reserved opcode or field is ILLEGAL on its word. -/
theorem State.issue_of_reserved (hg : (fieldsOf w).g = false ∨ s.pred i (fieldsOf w).p ≠ (fieldsOf w).n)
    (hres : opcodes.contains (fieldsOf w).op = false ∨ (fieldsOf w).low &&& reservedMask (fieldsOf w).op ≠ 0) (n : Nat)
    (body : State → State) : s.issue i w n body = (s.traceTh i 3 0 (s.pc i) w.toNat).seqHaltAt i 0x01 (s.pc i) := by
  have hguard : ((fieldsOf w).g && !(s.pred i (fieldsOf w).p != (fieldsOf w).n)) = false := by
    rcases hg with hg | hg <;> simp [hg]
  have hpred : (s.traceTh i 3 0 (s.pc i) w.toNat).pred i (fieldsOf w).p = s.pred i (fieldsOf w).p := by
    simp [State.pred]
  have hbad : (!(opcodes.contains (fieldsOf w).op) || (fieldsOf w).low &&& reservedMask (fieldsOf w).op != 0) = true := by
    rcases hres with h | h
    · rw [h]; rfl
    · simp [h]
  unfold State.issue State.seqHalt
  simp only [hst, hon, hin, hpred, hguard, hbad, bne_self_eq_false, Bool.not_true, Bool.or_self, Bool.false_eq_true, if_false,
    if_true, State.pc_traceTh]

end Guard

/-- Settles O38: STOP and RESTART come down to `threadStop` and `threadStart`, a skipped word to its program counter, a reserved
one to a halting exception; what each of these leaves is said once for every row of the sequencer. -/
theorem threadsAndExceptions : Obligations.ThreadsAndExceptions := by
  unfold Obligations.ThreadsAndExceptions
  refine ⟨⟨?control, ?excClear, ?stepper⟩, ?issue⟩
  case control =>
    intro now fn cl th s i running hhost
    have hstop : exec (.threadStop now fn cl th) s = .next ((s.advance now).stopWrite fn.val cl.val th.val) :=
      congrArg Host.Outcome.next (State.hosted_advance hhost now _)
    have hrestart : exec (.threadRestart now fn cl th) s = .next ((s.advance now).restartWrite fn.val cl.val th.val) :=
      congrArg Host.Outcome.next (State.hosted_advance hhost now _)
    rw [hstop, hrestart]
    refine ⟨fun hmay hon => ⟨fun hrun => ?_, fun hst hmid => ?_, fun hst => ?_⟩, fun hmay => ⟨?_, ?_⟩⟩
    · have hst : s.thState i ≠ 0 := by
        rcases hrun with h | ⟨h, -⟩ <;> rw [h] <;> decide
      rw [State.stopWrite_of_may (s := s.advance now) hmay hon hst, State.threadStop_of_running (s := s.advance now) hrun]
      obtain ⟨hst', harmed⟩ := (s.advance now).threadStopNow_spec i
      exact ⟨_, rfl, hst', harmed, fun hcopy => KeepsBytes.of_sram_eq (State.threadStopNow_sram (s := s.advance now) hcopy) _⟩
    · have hst' : s.thState i ≠ 0 := by rw [hst]; decide
      rw [State.stopWrite_of_may (s := s.advance now) hmay hon hst', State.threadStop_of_midway (s := s.advance now) hst hmid]
      rfl
    · rw [State.restartWrite_of_may (s := s.advance now) hmay hon hst]
      exact ⟨_, rfl, (s.advance now).restart_spec i _⟩
    · rw [State.stopWrite_of_not_may (s := s.advance now) hmay]
    · rw [State.restartWrite_of_not_may (s := s.advance now) hmay]
  case excClear =>
    intro now cl th s hon
    exact congrArg Host.Outcome.next (State.onReg_shared (s := s.advance now) (r := .CSQ_TH_EXC) rfl hon _ _ _)
  case stepper =>
    intro now cl co s hon
    exact congrArg Host.Outcome.next (State.onReg_core (s := s.advance now) (r := .STP_EXC) rfl hon _ _ _)
  case issue =>
    intro s i n w body f hst hon hin
    refine ⟨fun hg hp => ?_, fun hg hres => ?_⟩
    · rw [State.issue_of_guard_false hst hon hin hg hp]
      exact ⟨State.pc_setPc_same .., (ThreadOnly.traceTh ..).setF (by simp) _⟩
    · rw [State.issue_of_reserved hst hon hin hg hres]
      have htrace := s.traceTh_touches i 3 0 (s.pc i) w.toNat
      refine ⟨?_, ?_, fun hv => ?_, fun hv => ?_, ?_⟩
      · rw [State.thState_seqHaltAt, htrace.thread]
      · exact (State.seqHaltAt_keepsRegs _ _ _ _ _ _ rfl).trans (htrace.getF ..)
      · rw [State.getF_seqHaltAt_exc _ _ _ _ (by decide), State.getF_seqHaltAt_exc _ _ _ _ (by decide)]
        obtain ⟨-, hcode, hpc⟩ := State.getF_seqCapture_of_clear (s := s.traceTh i 3 0 (s.pc i) w.toNat)
          ((htrace.bit ..).trans hv) 0x01 (s.pc i)
        exact ⟨hcode, hpc⟩
      · rw [State.getF_seqHaltAt_exc _ _ _ _ (by decide), State.getF_seqHaltAt_exc _ _ _ _ (by decide),
          State.seqCapture_of_valid ((htrace.bit ..).trans hv)]
        refine ⟨by simp [Fld.width, Fld.info], ?_⟩
        exact (State.getF_setF_ne _ _ (by simp)).trans (htrace.getF ..)
      · exact ((State.seqHaltAt_touches ..).after (qs := excParts) htrace.mono).bytes nowhere

end Sys2Proof.Machine
end

section
/-!
PROOF. The sequencer's stations: FIRE and its flights, WAIT, EPW and EPA (R198 to R202, O36).
-/

set_option Elab.async false

namespace Sys2Proof.Machine
open Sys2Proof

/-! ### A row whose instruction executes -/

/-- The state in which an instruction executes: the time is the occurrence's, the trace has its record. -/
def State.issued (s : State) (now i : Nat) (w : Word) : State := (s.advance now).traceTh i 3 0 (s.pc i) w.toNat

theorem exec_of_issues {c : Instr} {s : State} {now i op : Nat} {w : Word} {n : Nat} {body : State → State}
    (h : Issues s i op w n) (hc : exec c s = seqRow now op w s (fun s => s.issue i w n body))
    (hop : opcodes.contains op = true) : exec c s = .next (body (s.issued now i w)) := by
  rw [hc, seqRow_of_issues h]
  exact congrArg Host.Outcome.next (State.issue_of_issues (h.advance now) hop body)

/-- The parts that the issue of an instruction touches. -/
def issueParts : List Part := .traces :: timeParts

section Issued
variable (s : State) (now i : Nat) (w : Word)

theorem State.issued_touches : Touches issueParts s (s.issued now i w) :=
  (State.traceTh_touches ..).after (s.advance_touches now).mono

@[simp] theorem State.time_issued : (s.issued now i w).time = max s.time now :=
  (State.traceTh_touches ..).same (ps := [.traces]) .time

@[simp] theorem State.getF_issued (f : Fld) (j : Nat) : (s.issued now i w).getF f j = s.getF f j :=
  (s.issued_touches now i w).getF f j

@[simp] theorem State.bit_issued (f : Fld) (j : Nat) : (s.issued now i w).bit f j = s.bit f j :=
  (s.issued_touches now i w).bit f j

@[simp] theorem State.pc_issued (j : Nat) : (s.issued now i w).pc j = s.pc j := State.getF_issued ..

@[simp] theorem State.thState_issued (j : Nat) : (s.issued now i w).thState j = s.thState j := State.getF_issued ..

@[simp] theorem State.thOwner_issued (j : Nat) : (s.issued now i w).thOwner j = s.thOwner j := State.getF_issued ..

@[simp] theorem State.greg_issued (j n : Nat) : (s.issued now i w).greg j n = s.greg j n := by
  simp only [State.greg, State.getF_issued]

@[simp] theorem State.station_issued (j : Nat) : (s.issued now i w).station j = s.station j :=
  (s.issued_touches now i w).station j

@[simp] theorem State.thread_issued (j : Nat) : (s.issued now i w).thread j = s.thread j :=
  (s.issued_touches now i w).thread j

@[simp] theorem State.ctx_issued (j : Nat) : (s.issued now i w).ctx j = s.ctx j := (s.issued_touches now i w).ctx j

@[simp] theorem State.stationCheck_issued (j st : Nat) (kind : Bool) :
    (s.issued now i w).stationCheck j st kind = s.stationCheck j st kind := by
  simp only [State.stationCheck, State.station_issued, State.thOwner_issued]

theorem State.issued_only : s.issued now i w = { s.advance now with traces := (s.issued now i w).traces } :=
  State.traceTh_only ..

theorem State.inRings_issued (st : Nat) : (s.issued now i w).inRings st = s.inRings st := by
  rw [State.issued_only]; rfl

theorem State.outRings_issued (st : Nat) : (s.issued now i w).outRings st = s.outRings st := by
  rw [State.issued_only]; rfl

theorem State.condHolds_issued (c port st k : Nat) : (s.issued now i w).condHolds c port st k = s.condHolds c port st k := by
  rw [State.issued_only]; rfl

end Issued

/-! ### Exceptions that a thread goes on after (R197) -/

/-- The parts that such an exception touches. -/
def recoverParts : List Part := [.regs, .totals] ++ eventParts

theorem KeepsRegs.addHold {s t : State} {w : Fld → Nat → Bool} (h : KeepsRegs s t w) {g : Fld} {i : Nat} (hw : w g i = true)
    (n : Nat) : KeepsRegs s (t.addHold g i n) w := h.setF hw _

/-- A thread's exception captured and reported, after which it goes on. -/
def State.recovered (s : State) (i code pc : Nat) : State :=
  let s := (s.addHold .CSQ_TH_RECCNT_COUNT i 1).seqCapture i code pc
  ((s.total (s.thOwner i) 7 1).traceTh i 1 6 pc code).raise 0x302 (s.thOwner i) (i / 8) 0xFF 0xFFFF [BitVec.ofNat 8 code]

theorem State.seqRecoverAt_of_not_strict {s : State} {i : Nat} (h : s.bit .CSQ_TH_REGION_STRICT i = false) (code pc : Nat)
    (p7 : Bool) : s.seqRecoverAt i code pc p7 = (if p7 then s.setPred i 7 false else s).recovered i code pc := by
  simp only [State.seqRecoverAt, h, Bool.false_eq_true, if_false, State.recovered]

theorem State.recovered_touches (s : State) (i code pc : Nat) : Touches recoverParts s (s.recovered i code pc) := by
  unfold State.recovered
  extract_lets u
  have hu : Touches recoverParts s u := (State.seqCapture_touches ..).after (s.addHold_touches ..).mono
  clear_value u
  exact (State.raise_touches ..).after ((State.traceTh_touches ..).after ((u.total_touches ..).after hu))

theorem State.recovered_keepsRegs (s : State) (i code pc : Nat) : KeepsRegs s (s.recovered i code pc)
    (fun f j => (.CSQ_TH_RECCNT_COUNT :: excFields).contains f && j == i) := by
  unfold State.recovered
  extract_lets u
  have hu : KeepsRegs s u (fun f j => (.CSQ_TH_RECCNT_COUNT :: excFields).contains f && j == i) :=
    ((KeepsRegs.refl s _).addHold (by simp) 1).trans (State.seqCapture_keepsRegs _ i code pc).fields
  clear_value u
  exact ((hu.touches (u.total_touches ..)).touches (State.traceTh_touches ..)).raise _ _ _ _ _ _

/-- An exception that the thread goes on after: p7 cleared, the next word, and nothing of stations or flights. -/
theorem State.seqRecover_of_not_strict {s : State} {i : Nat} (h : s.bit .CSQ_TH_REGION_STRICT i = false) (code next : Nat) :
    let t := s.seqRecover i code next
    t.pred i 7 = false ∧ t.pc i = next % 16384 ∧ t.thState i = s.thState i ∧ Touches recoverParts s t := by
  have hkeeps := (s.setPred i 7 false).recovered_keepsRegs i code (s.pc i)
  have htouches : Touches recoverParts s ((s.setPred i 7 false).recovered i code (s.pc i)) :=
    (State.recovered_touches ..).after (s.setF_touches ..).mono
  simp only [State.seqRecover, h, Bool.false_eq_true, if_false, State.seqRecoverAt_of_not_strict h, if_true]
  refine ⟨?_, State.pc_setPc_same .., ?_, (State.setF_touches ..).after htouches⟩
  · have hpred : ∀ u : State, (u.setPc i next).pred i 7 = u.pred i 7 := fun u => by
      simp [State.pred, State.setPc, State.getF_setF]
    rw [hpred, State.pred, hkeeps _ _ rfl]
    exact State.pred_setPred_same s i (by decide) false
  · exact (State.getF_setF_ne _ _ (by simp)).trans ((hkeeps _ _ rfl).trans (State.getF_setF_ne _ _ (by simp)))

/-! ### Grants (R199) -/

theorem State.latch_touches (s : State) (g : Nat) : Touches [.groups] s (s.latch g) := by
  unfold State.latch
  extract_lets x
  split
  · exact Touches.ite _ (s.setGroup_touches ..) (Touches.refl _ s)
  · exact Touches.refl _ s

theorem State.latchAll_touches (s : State) : Touches [.groups] s s.latchAll :=
  Touches.foldl (fun t (e : Nat × Group) => t.latch e.1) (fun t e => t.latch_touches e.1) s.groups s

/-- The parts that a grant touches. -/
def grantParts : List Part := [.stations, .groups]

theorem State.grant_touches (s : State) (st n : Nat) : Touches grantParts s (s.grant st n) := by
  unfold State.grant
  extract_lets u x
  have hu : Touches grantParts s u := s.latchAll_touches.mono
  clear_value u x
  exact Touches.ite _ hu ((State.setStation_touches ..).after hu)

/-- A grant adds to its station, up to 65,535; one that is not loaded takes none. -/
theorem State.station_grant (s : State) (st n : Nat) : (s.grant st n).station st =
    if (s.station st).state = 0 then s.station st
    else { s.station st with grants := min ((s.station st).grants + n) 65535 } := by
  simp only [State.grant, s.latchAll_touches.station]
  split
  · exact s.latchAll_touches.station st
  · exact State.station_setStation_same ..

/-! ### Stations as a snapshot ends -/

/-- A station that keeps its grants, and stays unloaded or loaded. -/
def Station.KeptBy (x y : Station) : Prop := y.grants = x.grants ∧ (y.state = 0 ↔ x.state = 0)

theorem Station.KeptBy.refl (x : Station) : x.KeptBy x := ⟨rfl, Iff.rfl⟩

theorem Station.KeptBy.trans {x y z : Station} (h : x.KeptBy y) (k : y.KeptBy z) : x.KeptBy z :=
  ⟨k.1.trans h.1, k.2.trans h.2⟩

theorem Station.rest_ne_zero (x : Station) : x.rest ≠ 0 := by
  unfold Station.rest
  split
  · decide
  · split <;> decide

/-- A map of values that relates each to its own relates what is read. -/
theorem smapGet_map_rel {α : Type} {d : α} {R : α → α → Prop} (hd : R d d) {f : Nat × α → Nat × α}
    (hf : ∀ e, (f e).1 = e.1 ∧ R e.2 (f e).2) (m : SMap α) (i : Nat) : R (smapGet d m i) (smapGet d (m.map f) i) := by
  induction m with
  | nil => exact hd
  | cons e m ih =>
    obtain ⟨hkey, hval⟩ := hf e
    rw [List.map_cons, show f e = (e.1, (f e).2) from Prod.ext hkey rfl]
    simp only [smapGet]
    split
    · exact hval
    · exact ih

theorem State.station_thaw (s : State) (j : Nat) : (s.station j).KeptBy (s.thaw.station j) := by
  unfold State.thaw
  refine smapGet_map_rel (R := Station.KeptBy) (Station.KeptBy.refl _) (fun e => ?_) s.stations j
  split
  · next h =>
    simp only [Bool.and_eq_true, bne_iff_ne, ne_eq] at h
    exact ⟨rfl, rfl, iff_of_false e.2.rest_ne_zero h.2⟩
  · exact ⟨rfl, Station.KeptBy.refl _⟩

theorem State.station_instanceOver (s : State) (g : Nat) (b : BarInst) (timedOut : Bool) (j : Nat) :
    (s.station j).KeptBy ((s.instanceOver g b timedOut).station j) := by
  unfold State.instanceOver
  extract_lets _ u
  have hu : u.station j = s.station j := (s.setGroup_touches ..).station j
  rw [← hu]
  clear_value u
  split
  · exact State.station_thaw ({ u with snaps := u.snaps.filter (fun n => !(b.threads.contains n.th)) }) j
  · exact Station.KeptBy.refl _

theorem State.station_endInstance (s : State) (g : Nat) (p7 timedOut : Bool) (j : Nat) :
    (s.station j).KeptBy ((s.endInstance g p7 timedOut).station j) := by
  cases h : (s.group g).inst with
  | none => rw [State.endInstance_of_none h]; exact Station.KeptBy.refl _
  | some b =>
    rw [State.endInstance_of_some h, (State.resumeAll_touches ..).station j]
    exact s.station_instanceOver g b timedOut j

theorem State.station_abandonWaits (s : State) (i j : Nat) : (s.station j).KeptBy ((s.abandonWaits i).station j) := by
  unfold State.abandonWaits
  extract_lets gs
  refine List.foldlRecOn (motive := fun t : State => (s.station j).KeptBy (t.station j)) gs _ (Station.KeptBy.refl _) ?_
  exact fun t ht g _ => ht.trans (t.station_endInstance g _ _ j)

/-! ### Grants that land (R199) -/

/-- The parts that an exception of a thread that does not run an instruction touches. -/
def overParts : List Part := .totals :: (excParts ++ groupParts)

theorem State.seqOver_touches (s : State) (i code pc : Nat) : Touches overParts s (s.seqOver i code pc) := by
  unfold State.seqOver
  exact Touches.ite _ ((State.seqReport_touches ..).after (s.setThread_touches ..).mono) (Touches.ite _
    ((State.abandonWaits_touches ..).after (s.seqHaltAt_touches ..).mono) (s.seqCapture_touches ..).mono)

theorem State.station_seqOver (s : State) (i code pc j : Nat) : (s.station j).KeptBy ((s.seqOver i code pc).station j) := by
  unfold State.seqOver
  split
  · rw [(State.seqReport_touches ..).station j, (s.setThread_touches ..).station j]
    exact Station.KeptBy.refl _
  · split
    · have h := (s.seqHaltAt i code pc).station_abandonWaits i j
      rwa [(s.seqHaltAt_touches ..).station j] at h
    · rw [(s.seqCapture_touches ..).station j]
      exact Station.KeptBy.refl _

/-- The parts that landing grants touch. -/
def landParts : List Part := grantParts ++ overParts

/-- Grants that land: what their station takes, and that below the limit nothing else comes of it. -/
theorem State.land_spec (s : State) (f : Flight) :
    let x := s.station f.station
    let y := (s.land f).station f.station
    Touches landParts s (s.land f) ∧ (y.state = 0 ↔ x.state = 0) ∧
      y.grants = (if x.state = 0 then x.grants else min (x.grants + f.grants) 65535) ∧
      (x.state = 0 ∨ x.grants + f.grants ≤ 65535 → Touches grantParts s (s.land f)) := by
  extract_lets x y
  have hgrant := s.grant_touches f.station f.grants
  have hstate : ((s.grant f.station f.grants).station f.station).state = 0 ↔ x.state = 0 := by
    rw [State.station_grant]
    split <;> exact Iff.rfl
  have hgrants : ((s.grant f.station f.grants).station f.station).grants =
      if x.state = 0 then x.grants else min (x.grants + f.grants) 65535 := by
    rw [State.station_grant]
    split <;> rfl
  by_cases hfit : x.state = 0 ∨ x.grants + f.grants ≤ 65535
  · have hland : s.land f = s.grant f.station f.grants := if_pos (by simpa using hfit)
    simp only [y, hland]
    exact ⟨hgrant.mono, hstate, hgrants, fun _ => hgrant⟩
  · have hover : Touches overParts (s.grant f.station f.grants) (s.land f) ∧
        ((s.grant f.station f.grants).station f.station).KeptBy y := by
      cases hstrict : (s.grant f.station f.grants).bit .CSQ_TH_REGION_STRICT (8 * f.cl + f.th) with
      | true =>
        have hland : s.land f = (s.grant f.station f.grants).seqOver (8 * f.cl + f.th) 0x11 f.pc := by
          unfold State.land
          exact (if_neg (by simpa using hfit)).trans (if_pos hstrict)
        simp only [y, hland]
        exact ⟨State.seqOver_touches .., State.station_seqOver ..⟩
      | false =>
        have hland : s.land f = (s.grant f.station f.grants).recovered (8 * f.cl + f.th) 0x11 f.pc := by
          unfold State.land
          refine (if_neg (by simpa using hfit)).trans ((if_neg (by simp [hstrict])).trans ?_)
          rw [State.seqRecoverAt_of_not_strict hstrict]
          rfl
        simp only [y, hland]
        refine ⟨(State.recovered_touches ..).mono, ?_⟩
        rw [(State.recovered_touches ..).station]
        exact Station.KeptBy.refl _
    obtain ⟨htouches, hkept⟩ := hover
    exact ⟨htouches.after hgrant.mono, hkept.2.trans hstate, hkept.1.trans hgrants, fun h => absurd h hfit⟩

/-- All the grants that land at one station. -/
theorem State.landAll_spec (st : Nat) (fs : List Flight) (hst : ∀ f ∈ fs, f.station = st) (s : State) :
    let x := s.station st
    let t := fs.foldl State.land s
    let sum := (fs.map (·.grants)).sum
    Touches landParts s t ∧ (x.state = 0 → (t.station st).grants = x.grants) ∧
      (x.state ≠ 0 → x.grants ≤ 65535 → (t.station st).grants = min (x.grants + sum) 65535) ∧
      (x.state = 0 ∨ x.grants + sum ≤ 65535 → Touches grantParts s t) := by
  induction fs generalizing s with
  | nil => exact ⟨Touches.refl _ s, fun _ => rfl, fun _ h => (min_eq_left h).symm, fun _ => Touches.refl _ s⟩
  | cons f fs ih =>
    obtain ⟨hf, hfs⟩ := List.forall_mem_cons.mp hst
    subst hf
    obtain ⟨hland, hstate, hgrants, hfits⟩ := s.land_spec f
    obtain ⟨ihland, ihnone, ihsome, ihfits⟩ := ih hfs (s.land f)
    simp only [List.foldl_cons, List.map_cons, List.sum_cons]
    refine ⟨hland.trans ihland, fun hx => ?_, fun hx hle => ?_, fun hx => ?_⟩
    · rw [ihnone (hstate.mpr hx), hgrants, if_pos hx]
    · rw [if_neg hx] at hgrants
      rw [ihsome (fun h => hx (hstate.mp h)) (by omega), hgrants]
      omega
    · refine (hfits (hx.imp_right (by omega))).trans (ihfits ?_)
      by_cases hs : (s.station f.station).state = 0
      · exact Or.inl (hstate.mpr hs)
      · rw [if_neg hs] at hgrants
        rw [hgrants]
        right
        have := hx.resolve_left hs
        omega

theorem State.flights_touches (s : State) (fs : List Flight) : Touches [.flights] s { s with flights := fs } :=
  Touches.of_withParts rfl

/-! ### The rows -/

theorem State.stationCheck_none {s : State} {i st : Nat} {kind : Bool} (h : s.stationCheck i st kind = none) :
    (s.station st).state ≠ 0 := by
  intro h0
  simp [State.stationCheck, h0] at h

/-- The flight of a FIRE. -/
def State.flightOf (s : State) (i cl th x : Nat) : Flight :=
  let st := bits x 11 0
  let y := s.station st
  { at_ := s.time + 8 + 4 * hops cl y.cluster, station := st,
    grants := if x.testBit 20 then (s.greg i (bits x 19 16)).toNat else 1, cl := cl, th := th, pc := s.pc i, was := y.firer,
    first := !((s.thread i).fired.contains st) }

/-- A FIRE that is sent: the flight, the station's last sender and the thread's list. -/
def State.fired (s : State) (i cl th x : Nat) : State :=
  let st := bits x 11 0
  let fl := s.flightOf i cl th x
  let y := s.station st
  let t1 := { s with flights := s.flights ++ [fl] }
  let t2 := t1.setStation st { y with firer := some (cl, th, s.pc i) }
  let v := t2.thread i
  let t3 := t2.setThread i { v with fired := if v.fired.contains st then v.fired else v.fired ++ [st] }
  (t3.traceTh i 2 4 (s.pc i) (st + 65536 * (fl.grants % 65536))).setPc i (s.pc i + 1)

theorem State.fired_spec (s : State) (i cl th x : Nat) :
    let st := bits x 11 0
    let t := s.fired i cl th x
    t.flights = s.flights ++ [s.flightOf i cl th x] ∧ t.pc i = (s.pc i + 1) % 16384 ∧
      (t.station st).grants = (s.station st).grants ∧ st ∈ (t.thread i).fired ∧
      KeepsRegs s t (fun g j => g == .CSQ_TH_STAT_PC && j == i) ∧ t.sram = s.sram := by
  unfold State.fired
  extract_lets st fl y t1 t2 v t3 t
  have hpc : Touches [.regs, .traces] t3 t := (State.setF_touches ..).after (State.traceTh_touches ..).mono
  refine ⟨hpc.same .flights, State.pc_setPc_same .., ?_, ?_, ?_, hpc.same .sram⟩
  · have h3 : t3.station st = { y with firer := some (cl, th, s.pc i) } := State.station_setStation_same ..
    rw [hpc.station, h3]
  · rw [hpc.thread, State.thread_setThread_same]
    show st ∈ if v.fired.contains st then v.fired else v.fired ++ [st]
    split
    · next h => exact List.contains_iff_mem.mp h
    · simp
  · have h3 : KeepsRegs s t3 (fun g j => g == .CSQ_TH_STAT_PC && j == i) := KeepsRegs.of_regs_eq rfl _
    clear_value t3
    exact (h3.touches (State.traceTh_touches ..)).setF (by simp) _

/-- A FIRE of a station that the thread may grant. -/
theorem execFire_of_issues {s : State} {now : Nat} {cl : Cluster} {th : Thread} {w : Word}
    (h : Issues s (thIx cl th) 0x18 w 1)
    (hcheck : s.stationCheck (thIx cl th) (bits (fieldsOf w).low 11 0) true = none) :
    let i := thIx cl th
    let u := s.issued now i w
    let y := u.station (bits (fieldsOf w).low 11 0)
    exec (.fire now cl th w) s = .next
      (if y.state = 3 || (!y.holds.isEmpty && y.parkAt = u.time + 1) then u.seqRecover i 0x10 (u.pc i + 1)
      else u.fired i cl th (fieldsOf w).low) := by
  refine (exec_of_issues h rfl rfl).trans ?_
  dsimp only
  rw [State.stationCheck_issued, hcheck]
  rfl

/-- A station's grants in flight, as the statement selects them. -/
theorem execGrantsLand_eq (now : Nat) (st : StationId) (s : State) :
    let due := fun (g : Flight) => g.station == st.val && decide (g.at_ ≤ max s.time now)
    exec (.grantsLand now st) s = .next
      ((s.flights.filter due).foldl State.land { s.advance now with flights := s.flights.filter (fun g => !(due g)) }) := rfl

section Wait
variable {s : State} {now : Nat} {cl : Cluster} {th : Thread} {w w2 : Word}

/-- A WAIT whose station, port and count are in order. -/
theorem execWait_of_issues (h : Issues s (thIx cl th) 0x19 w 2) {x c port st k tmo : Nat} (hx : (fieldsOf w).low = x)
    (hc : bits x 20 18 = c) (hport : bits x 17 15 = port) (hst : bits x 11 0 = st) (hk : bits w2.toNat 15 0 = k)
    (htmo : bits w2.toNat 31 16 = tmo) (hgood : waitBad c port k = false)
    (hcheck : s.stationCheck (thIx cl th) st (decide (2 ≤ c)) = none)
    (hrings : c < 2 → port < (if c = 0 then s.inRings st else s.outRings st).length) :
    let i := thIx cl th
    let u := s.issued now i w
    exec (.wait now cl th w w2) s = .next
      (if s.condHolds c port st k then (u.setPred i 7 true).setPc i (s.pc i + 2)
      else (u.block i 1 (.cond c port st k (if tmo = 0 then none else some (max s.time now + 1000 * tmo)))).setPc i
        (s.pc i + 2)) := by
  subst hx hc hport hst hk htmo
  refine (exec_of_issues h rfl rfl).trans ?_
  dsimp only
  rw [if_neg (by simp [hgood]), State.stationCheck_issued, hcheck]
  dsimp only
  rw [State.inRings_issued, State.outRings_issued, State.condHolds_issued, State.pc_issued, State.time_issued, if_neg]
  simpa using hrings

end Wait

/-- A thread that goes on behind p7. -/
theorem State.setPred_setPc_spec (s : State) (i next : Nat) (v : Bool) :
    let t := (s.setPred i 7 v).setPc i next
    t.pred i 7 = v ∧ t.pc i = next % 16384 ∧ t.thState i = s.thState i ∧ Touches [.regs] s t := by
  refine ⟨?_, State.pc_setPc_same .., ?_, (State.setF_touches ..).after (s.setF_touches ..)⟩
  · have hpred : ((s.setPred i 7 v).setPc i next).pred i 7 = (s.setPred i 7 v).pred i 7 := by
      simp [State.pred, State.setPc, State.getF_setF]
    exact hpred.trans (s.pred_setPred_same i (by decide) v)
  · exact (State.getF_setF_ne _ _ (by simp)).trans (State.getF_setF_ne _ _ (by simp))

/-- A thread that waits behind its word. -/
theorem State.block_setPc_spec (s : State) (i : Nat) {kind : Nat} (hkind : kind < 8) (wt : ThreadWait) (next : Nat) :
    let t := (s.block i kind wt).setPc i next
    t.thState i = 3 ∧ t.getF .CSQ_TH_STAT_WAITKIND i = kind ∧ (t.thread i).wait = wt ∧ t.pc i = next % 16384 ∧
      Touches threadParts s t := by
  obtain ⟨hst, hwk, hth⟩ := s.block_spec i hkind wt
  refine ⟨(State.getF_setF_ne _ _ (by simp)).trans hst, (State.getF_setF_ne _ _ (by simp)).trans hwk, ?_,
    State.pc_setPc_same .., (State.setF_touches ..).after (s.block_touches ..)⟩
  exact congrArg ThreadState.wait hth

/-- What going on leaves of a thread that waited. -/
theorem State.resume_spec (s : State) (i : Nat) (p7 : Bool) :
    let t := s.resume i p7
    t.pred i 7 = p7 ∧ t.thState i = (if (s.thread i).stop = true then 5 else if (s.thread i).halt = true then 4 else 2) ∧
      (t.thread i).wait = .idle ∧ t.pc i = s.pc i ∧ KeepsBytes s t nowhere :=
  ⟨s.pred_resume i p7, s.thState_resume i p7, s.wait_resume i p7, s.pc_resume i i p7, (s.resume_touches i p7).bytes nowhere⟩

section Epochs
variable {s : State} {now : Nat} {cl : Cluster} {th : Thread} {w w2 : Word} {c : Nat}
  (hc : bits (fieldsOf w).low 6 0 = c) (hown : (s.ctx c).state = 0 ∨ (s.ctx c).owner = s.thOwner (thIx cl th))
include hc hown

/-- EPW of a context that is the thread's owner's. -/
theorem execEpw_of_issues (h : Issues s (thIx cl th) 0x1C w 1) :
    let i := thIx cl th
    let u := s.issued now i w
    let e := (s.greg i (fieldsOf w).rd).toNat
    exec (.epw now cl th w) s = .next
      (if (s.ctx c).state != 1 then (u.setPred i 7 false).setPc i (s.pc i + 1)
      else if reached e (s.ctx c).epoch then (u.setPred i 7 true).setPc i (s.pc i + 1)
      else (u.block i 4 (.epoch c e)).setPc i (s.pc i + 1)) := by
  subst hc
  refine (exec_of_issues h rfl rfl).trans ?_
  dsimp only
  rw [State.ctx_issued, State.thOwner_issued, State.pc_issued, State.greg_issued, if_neg]
  rcases hown with h | h <;> simp [h]

/-- EPA of a context and a station that are the thread's owner's. -/
theorem execEpa_of_issues (h : Issues s (thIx cl th) 0x1D w 2) (hw2 : w2.toNat < 4096) {st : Nat}
    (hst : bits w2.toNat 11 0 = st) (hcheck : s.stationCheck (thIx cl th) st true = none) :
    let i := thIx cl th
    let u := s.issued now i w
    let e := (s.greg i (fieldsOf w).rd).toNat
    let n := (s.greg i (fieldsOf w).ra).toNat
    exec (.epa now cl th w w2) s = .next
      (if (s.ctx c).state != 1 then u.seqRecover i 0x13 (s.pc i + 2)
      else if reached e (s.ctx c).epoch then ((u.grant st n).setPred i 7 false).setPc i (s.pc i + 2)
      else if 16 ≤ (s.thread i).armed.length then u.seqRecover i 0x12 (s.pc i + 2)
      else
        let a : Armed := { ctx := c, epoch := e, station := st, grants := n }
        ((u.setThread i { u.thread i with armed := (u.thread i).armed ++ [a] }).setPred i 7 true).setPc i (s.pc i + 2)) := by
  subst hc hst
  refine (exec_of_issues h rfl rfl).trans ?_
  dsimp only
  rw [if_neg (by simp [Nat.div_eq_of_lt hw2]), State.stationCheck_issued, hcheck]
  dsimp only
  rw [State.ctx_issued, State.thOwner_issued, State.pc_issued, State.greg_issued, State.greg_issued, if_neg]
  · rw [State.thread_issued]
  · rcases hown with h | h <;> simp [h]

end Epochs

/-- Settles O36: each row is one branch of its instruction over the state in which it issues. -/
theorem sequencerStationsAndEpochs : Obligations.SequencerStationsAndEpochs := by
  unfold Obligations.SequencerStationsAndEpochs
  refine ⟨⟨?fire, ?land, ?wait, ?resume⟩, ?epochs⟩
  case fire =>
    intro now cl th w s i x st y n parked h hcheck
    have hissued := s.issued_touches now i w
    rw [execFire_of_issues h hcheck]
    refine ⟨fun hnot => ?_, fun hpark hstrict => ?_⟩
    · obtain ⟨hfl, hpc, hgr, hfi, hregs, hsram⟩ := (s.issued now i w).fired_spec i cl th x
      refine ⟨_, congrArg _ (if_neg ?_), ?_, hpc.trans (by rw [State.pc_issued]), hgr.trans (by rw [State.station_issued]), hfi,
        (hissued.regs _).trans hregs, KeepsBytes.of_sram_eq (hsram.trans (hissued.same .sram)) _⟩
      · simpa [parked, y, st, x] using hnot
      · rw [hfl, hissued.same .flights]
        simp only [State.flightOf, State.time_issued, State.station_issued, State.greg_issued, State.pc_issued,
          State.thread_issued]
        rfl
    · obtain ⟨hpred, hpc, hst, htouch⟩ := State.seqRecover_of_not_strict (s := s.issued now i w) (i := i)
        (by rw [State.bit_issued, hstrict]) 0x10 ((s.issued now i w).pc i + 1)
      have hall := htouch.after (qs := recoverParts ++ issueParts) hissued.mono
      exact ⟨_, congrArg _ (if_pos (by simpa [parked, y, st, x] using hpark)), hst.trans ((State.thState_issued ..).trans h.1), hpred,
        hpc.trans (by rw [State.pc_issued]), hall.same .flights, hall.same .stations, hall.bytes nowhere⟩
  case land =>
    intro now st s due sum y
    have hall : ∀ f ∈ s.flights.filter due, f.station = st.val := fun f hf => by
      have := (List.mem_filter.mp hf).2
      simp only [due, Bool.and_eq_true, beq_iff_eq] at this
      exact this.1
    have hflights := (s.advance now).flights_touches (s.flights.filter (fun g => !(due g)))
    obtain ⟨hland, hnone, hsome, hfits⟩ := State.landAll_spec st.val (s.flights.filter due) hall
      { s.advance now with flights := s.flights.filter (fun g => !(due g)) }
    refine ⟨_, execGrantsLand_eq now st s, hland.same .flights, hnone, hsome, fun h => ?_,
      (hland.after (qs := .flights :: landParts) hflights.mono).bytes nowhere⟩
    exact ((hfits h).after (qs := [.stations, .flights, .groups]) hflights.mono).eq_withParts
  case wait =>
    intro now cl th w w2 s i x c port st k tmo h hgood hcheck hrings
    have hissued := s.issued_touches now i w
    rw [execWait_of_issues h rfl rfl rfl rfl rfl rfl hgood hcheck hrings]
    refine ⟨fun hcond => ?_, fun hcond => ?_⟩
    · obtain ⟨hpred, hpc, hst, htouch⟩ := (s.issued now i w).setPred_setPc_spec i (s.pc i + 2) true
      exact ⟨_, congrArg _ (if_pos hcond), hpred, hpc, hst.trans ((State.thState_issued ..).trans h.1),
        (htouch.after (qs := .regs :: issueParts) hissued.mono).bytes nowhere⟩
    · obtain ⟨hst, hwk, hwait, hpc, htouch⟩ := (s.issued now i w).block_setPc_spec i (kind := 1) (by decide)
        (.cond c port st k (if tmo = 0 then none else some (max s.time now + 1000 * tmo))) (s.pc i + 2)
      exact ⟨_, congrArg _ (if_neg (by rw [hcond]; decide)), hst, hwait, hwk, hpc,
        (htouch.after (qs := threadParts ++ issueParts) hissued.mono).bytes nowhere⟩
  case resume =>
    intro now cl th s c port st k till i v resumed hwait
    refine ⟨fun hcond => ?_, fun e htill hlate hcond => ?_⟩
    · obtain ⟨hpred, hspec⟩ := (s.advance now).resume_spec i true
      refine ⟨_, ?_, hpred, hspec⟩
      show execWaitResume now cl th s = _
      have hw : ((s.advance now).thread (thIx cl th)).wait = .cond c port st k till := hwait
      simp only [execWaitResume, hw]
      exact if_pos hcond
    · obtain ⟨hpred, hspec⟩ := (s.advance now).resume_spec i false
      refine ⟨_, ?_, hpred, hspec⟩
      show execWaitTimeout now cl th s = _
      have hw : ((s.advance now).thread (thIx cl th)).wait = .cond c port st k (some e) := hwait.trans (by rw [htill])
      simp only [execWaitTimeout, hw]
      exact if_pos (Bool.and_eq_true_iff.mpr ⟨decide_eq_true (le_max_of_le_right hlate), by rw [hcond]; rfl⟩)
  case epochs =>
    intro now cl th w w2 s i f c x e st n hown
    have hissued := s.issued_touches now i w
    have hone (hx : x.state = 1) : ¬ (x.state != 1) = true := by rw [hx]; decide
    refine ⟨fun h => ?_, fun h hw2 hcheck => ?_⟩
    · rw [execEpw_of_issues rfl hown h]
      have hrun : (s.issued now i w).thState i = 2 := (State.thState_issued ..).trans h.1
      refine ⟨fun hopen hre => ?_, fun hopen hre => ?_, fun hopen => ?_⟩
      · obtain ⟨hpred, hpc, hst, -⟩ := (s.issued now i w).setPred_setPc_spec i (s.pc i + 1) true
        exact ⟨_, congrArg _ ((if_neg (hone hopen)).trans (if_pos hre)), hpred, hst.trans hrun, hpc⟩
      · obtain ⟨hst, hwk, hwait, hpc, -⟩ := (s.issued now i w).block_setPc_spec i (kind := 4) (by decide) (.epoch c e)
          (s.pc i + 1)
        exact ⟨_, congrArg _ ((if_neg (hone hopen)).trans (if_neg (by rw [hre]; decide))), hst, hwk, hwait, hpc⟩
      · obtain ⟨hpred, hpc, hst, -⟩ := (s.issued now i w).setPred_setPc_spec i (s.pc i + 1) false
        exact ⟨_, congrArg _ (if_pos (bne_iff_ne.mpr hopen)), hpred, hst.trans hrun, hpc⟩
    · rw [execEpa_of_issues rfl hown h hw2 rfl hcheck]
      refine ⟨fun hopen hre => ?_, fun hopen hre hroom => ?_, fun hno hstrict => ?_⟩
      · obtain ⟨hpred, hpc, -, htouch⟩ := ((s.issued now i w).grant st n).setPred_setPc_spec i (s.pc i + 2) false
        refine ⟨_, congrArg _ ((if_neg (hone hopen)).trans (if_pos hre)), hpred, ?_, hpc⟩
        rw [htouch.station, State.station_grant, State.station_issued, if_neg (State.stationCheck_none hcheck)]
      · obtain ⟨hpred, hpc, -, htouch⟩ := ((s.issued now i w).setThread i { (s.issued now i w).thread i with
          armed := ((s.issued now i w).thread i).armed ++ [{ ctx := c, epoch := e, station := st, grants := n }] }).setPred_setPc_spec
            i (s.pc i + 2) true
        refine ⟨_, congrArg _ ((if_neg (hone hopen)).trans ((if_neg (by rw [hre]; decide)).trans
          (if_neg (Nat.not_le.mpr hroom)))), hpred, hpc, ?_, ?_⟩
        · exact Eq.trans (htouch.same .stations) (hissued.same .stations)
        · rw [htouch.thread, State.thread_setThread_same, State.thread_issued]
      · obtain ⟨code, hcode⟩ : ∃ code, exec (.epa now cl th w w2) s = .next ((s.issued now i w).seqRecover i code (s.pc i + 2)) := by
          rw [execEpa_of_issues rfl hown h hw2 rfl hcheck]
          by_cases hopen : x.state = 1
          · obtain ⟨hre, hfull⟩ := hno.resolve_left (fun h => h hopen)
            exact ⟨0x12, congrArg _ ((if_neg (hone hopen)).trans ((if_neg (by rw [hre]; decide)).trans (if_pos hfull)))⟩
          · exact ⟨0x13, congrArg _ (if_pos (bne_iff_ne.mpr hopen))⟩
        obtain ⟨hpred, hpc, -, htouch⟩ := State.seqRecover_of_not_strict (s := s.issued now i w) (i := i)
          (by rw [State.bit_issued, hstrict]) code (s.pc i + 2)
        have hall := htouch.after (qs := recoverParts ++ issueParts) hissued.mono
        refine ⟨_, ?_, hpred, hpc, hall.same .stations, congrArg ThreadState.armed (hall.thread i)⟩
        rw [← hcode, execEpa_of_issues rfl hown h hw2 rfl hcheck]

end Sys2Proof.Machine
end

section
/-!
PROOF. The position ports: quadrature, lines and cycles (R275 to R278, O29).
-/

set_option Elab.async false

namespace Sys2Proof.Machine
open Sys2Proof

theorem State.time_advance_of_le {s : State} {now : Nat} (h : s.time ≤ now) : (s.advance now).time = now := max_eq_right h

theorem State.ctxs_touches (s : State) (m : SMap Context) : Touches [.ctxs] s { s with ctxs := m } := Touches.of_withParts rfl

theorem KeepsRegs.burn {s t : State} {w : Fld → Nat → Bool} (h : KeepsRegs s t w) : KeepsRegs s t.burn w := h.congr rfl

/-! ### Counts of a port (R277, R278) -/

/-- The parts that a count touches. -/
def countParts : List Part := [.ports, .ctxs]

theorem State.counted_touches (s : State) (p : Nat) (x : Port) : Touches countParts s (s.counted p x) :=
  (State.ctxs_touches ..).after (s.setPort_touches ..).mono

/-- What a count leaves of its port: a Z edge of the same sample latches the counter after it. -/
theorem State.port_counted (s : State) (p : Nat) (x : Port) :
    (s.counted p x).port p = if x.zAt = some s.time then { x with zlat := x.pos } else x :=
  State.port_setPort_same ..

theorem State.pos_counted (s : State) (p : Nat) (x : Port) : ((s.counted p x).port p).pos = x.pos := by
  rw [State.port_counted]; split <;> rfl

theorem State.trv_counted (s : State) (p : Nat) (x : Port) : ((s.counted p x).port p).trv = x.trv := by
  rw [State.port_counted]; split <;> rfl

theorem State.a_counted (s : State) (p : Nat) (x : Port) : ((s.counted p x).port p).a = x.a := by
  rw [State.port_counted]; split <;> rfl

theorem State.b_counted (s : State) (p : Nat) (x : Port) : ((s.counted p x).port p).b = x.b := by
  rw [State.port_counted]; split <;> rfl

theorem State.edge_counted (s : State) (p : Nat) (x : Port) : ((s.counted p x).port p).edge = x.edge := by
  rw [State.port_counted]; split <;> rfl

theorem State.zlat_counted (s : State) (p : Nat) (x : Port) (h : x.zAt = some s.time) :
    ((s.counted p x).port p).zlat = ((s.counted p x).port p).pos := by
  rw [State.port_counted, if_pos h]

/-! ### An edge in cycle mode (R278) -/

/-- What an accepted edge leaves in the registers, before it counts. -/
def State.cycled (s : State) (p : Nat) (y : Port) : State :=
  match y.edge with
  | some t => ((s.setF .POS_STAT_PERIOD p (s.period (s.time - t))).setF .POS_STAT_LOSS p 0).burn
  | none => s.setF .POS_STAT_LOSS p 0

theorem State.cycled_touches (s : State) (p : Nat) (y : Port) : Touches [.regs, .fresh] s (s.cycled p y) := by
  unfold State.cycled
  split
  · exact (State.burn_touches _).after ((State.setF_touches ..).after (s.setF_touches ..).mono)
  · exact (s.setF_touches ..).mono

theorem State.cycled_keepsRegs (s : State) (p : Nat) (y : Port) :
    KeepsRegs s (s.cycled p y) (fun f i => (f == .POS_STAT_PERIOD || f == .POS_STAT_LOSS) && i == p) := by
  unfold State.cycled
  split
  · exact (((KeepsRegs.refl s _).setF (by simp) _).setF (by simp) 0).burn
  · exact (KeepsRegs.refl s _).setF (by simp) 0

theorem State.loss_cycled (s : State) (p : Nat) (y : Port) : (s.cycled p y).getF .POS_STAT_LOSS p = 0 := by
  unfold State.cycled
  split <;> simp

theorem State.period_cycled {s : State} {p : Nat} {y : Port} {e : Nat} (he : y.edge = some e) (h : (s.time - e) / 1000 < 65536) :
    (s.cycled p y).getF .POS_STAT_PERIOD p = (s.time - e) / 1000 := by
  simp only [State.cycled, he, State.period, h, if_true]
  simp [State.getF_setF, Fld.width, Fld.info]
  omega

theorem State.cycle_of_early {s : State} {p : Nat} {y : Port} {e : Nat} (he : y.edge = some e) (h : s.time - e < 13000000) :
    s.cycle p y = (s.setPort p y).addHold .POS_ERRCNT_REJECT p 1 := by
  simp only [State.cycle, he, if_pos h]

theorem State.cycle_of_late {s : State} {p : Nat} {y : Port} (h : ∀ e, y.edge = some e → 13000000 ≤ s.time - e) :
    s.cycle p y = (s.cycled p y).counted p { y.count true with edge := some s.time } := by
  cases he : y.edge with
  | none => simp only [State.cycle, State.cycled, he]
  | some e => simp only [State.cycle, State.cycled, he, if_neg (Nat.not_lt.mpr (h e he))]

/-! ### The rows -/

section Rows
variable {s : State} {now : Nat} {p : Fin 4}

/-- A sample of A and B, as the filters take it. -/
def Port.sampled (x : Port) (now : Nat) (da db : Bool) : Port :=
  { x with a := x.a != da, b := x.b != db, aAt := if da then some now else x.aAt, bAt := if db then some now else x.bAt }

theorem execQuadTransition_of_runs (hnow : s.time ≤ now) (hrun : s.portRuns p.val 0 = true) {a b da db : Bool}
    (hda : ((s.port p.val).a != a && filterOpen (s.getF .POS_CFG_FILT p.val) now (s.port p.val).aAt) = da)
    (hdb : ((s.port p.val).b != b && filterOpen (s.getF .POS_CFG_FILT p.val) now (s.port p.val).bAt) = db) :
    let y := (s.port p.val).sampled now da db
    exec (.quadTransition now p a b) s = .next
      (if da && db then ((s.advance now).setPort p.val y).addHold .POS_ERRCNT_ILLEGAL p.val 1
      else if !da && !db then s.advance now
      else (s.advance now).counted p.val
        (y.count ((if da then y.a != y.b else y.a == y.b) != s.bit .POS_CFG_INV p.val))) := by
  have hrun' : (s.advance now).portRuns p.val 0 = true := hrun
  show execQuadTransition now p a b s = _
  simp only [execQuadTransition, hrun', State.portFilter, State.time_advance_of_le hnow, State.port_advance,
    State.getF_advance, State.bit_advance, Bool.not_true, Bool.false_eq_true, if_false, hda, hdb, Port.sampled]
  cases da <;> cases db <;> rfl

theorem execQuadTransition_of_not_runs (hoff : s.portRuns p.val 0 = false) (a b : Bool) :
    exec (.quadTransition now p a b) s = .next ((s.advance now).setPort p.val { s.port p.val with a := a, b := b }) :=
  if_pos (by rw [show (s.advance now).portRuns p.val 0 = false from hoff]; rfl)

/-- A transition of A that the filter accepts, with its port as it is then. -/
theorem State.edgeOf_of_open (hnow : s.time ≤ now) {mode : Nat} (hrun : s.portRuns p.val mode = true)
    (hopen : filterOpen (s.getF .POS_CFG_FILT p.val) now (s.port p.val).aAt = true) (rise : Bool) :
    (s.advance now).edgeOf p.val mode rise =
      some ({ s.port p.val with a := rise, aAt := some now }, rise != s.bit .POS_CFG_INV p.val) := by
  have hrun' : (s.advance now).portRuns p.val mode = true := hrun
  simp only [State.edgeOf, hrun', State.portFilter, State.time_advance_of_le hnow, State.port_advance, State.getF_advance,
    State.bit_advance, hopen, Bool.and_self, if_true]

end Rows

/-- Settles O29: each row is a count, or one write, of the port; what a count leaves is said once. -/
theorem portsCount : Obligations.PortsCount := by
  unfold Obligations.PortsCount
  intro now p s x open_ hnow
  have htime := State.time_advance_of_le hnow
  refine ⟨fun a b => ?quad, ?z, fun rise hopen => ?edge, ?loss⟩
  case quad =>
    intro da db
    refine ⟨fun hrun => ?_, fun hoff => execQuadTransition_of_not_runs hoff a b⟩
    have hexec := execQuadTransition_of_runs (da := da) (db := db) hnow hrun rfl rfl
    have ha : da = true → a = !x.a := fun h => by
      have hne := (Bool.and_eq_true_iff.mp h).1
      revert hne
      cases a <;> cases x.a <;> simp
    have hb : db = true → b = !x.b := fun h => by
      have hne := (Bool.and_eq_true_iff.mp h).1
      revert hne
      cases b <;> cases x.b <;> simp
    clear_value da db
    rw [hexec]
    refine ⟨fun hne => ?_, fun hta htb => ?_, fun hfa hfb => ?_⟩
    · refine ⟨_, congrArg _ ((if_neg ?_).trans (if_neg ?_)), ?_, State.trv_counted .., ?_, ?_, fun hz => ?_,
        (State.counted_touches ..).eq_withParts⟩
      · revert hne; cases da <;> cases db <;> simp
      · revert hne; cases da <;> cases db <;> simp
      · rw [State.pos_counted]
        cases da with
        | true => cases db with
          | true => exact absurd rfl hne
          | false => simp [Port.count, Port.sampled, ha rfl, x]
        | false => cases db with
          | true => simp [Port.count, Port.sampled, hb rfl, x]
          | false => exact absurd rfl hne
      · rw [State.a_counted]
        cases da with
        | true => simp [Port.count, Port.sampled, ha rfl, x]
        | false => simp [Port.count, Port.sampled, x]
      · rw [State.b_counted]
        cases db with
        | true => simp [Port.count, Port.sampled, hb rfl, x]
        | false => simp [Port.count, Port.sampled, x]
      · exact State.zlat_counted _ _ _ (hz.trans (congrArg some htime.symm))
    · subst hta htb
      have htouches : Touches [.regs, .ports] (s.advance now) (((s.advance now).setPort p.val ((s.port p.val).sampled now true
          true)).addHold .POS_ERRCNT_ILLEGAL p.val 1) := (State.addHold_touches ..).after (State.setPort_touches ..).mono
      refine ⟨_, congrArg _ (if_pos rfl), ?_, ?_, ?_, htouches.eq_withParts⟩
      · rw [(State.addHold_touches ..).port, State.port_setPort_same]
        rfl
      · rw [(State.addHold_touches ..).port, State.port_setPort_same]
        rfl
      · rw [State.addHold, State.getF_setF_same]
        exact Nat.mod_eq_of_lt (by have := Nat.two_pow_pos Fld.POS_ERRCNT_ILLEGAL.width; omega)
    · subst hfa hfb
      rfl
  case z =>
    intro hrun hzen hopen
    show execZEdge now p s = _
    have hrun' : (s.advance now).portRuns p.val 0 = true := hrun
    simp only [execZEdge, hrun', State.bit_advance, State.getF_advance, State.port_advance, hzen, htime]
    exact if_pos (by simpa using hopen)
  case edge =>
    intro y
    refine ⟨fun hrun => ?_, fun hrun => ?_⟩
    · have hexec : exec (.lineEdge now ⟨p, rise⟩) s = .next (if rise != s.bit .POS_CFG_INV p.val then
          (s.advance now).counted p.val (y.count true) else (s.advance now).setPort p.val y) := by
        show execLineEdge now ⟨p, rise⟩ s = _
        simp only [execLineEdge, State.edgeOf_of_open hnow hrun hopen rise]
        rfl
      rw [hexec]
      refine ⟨fun hact => ?_, fun hinact => congrArg _ (if_neg (by simpa using hinact))⟩
      exact ⟨_, congrArg _ (if_pos (bne_iff_ne.mpr hact)), State.pos_counted .., State.trv_counted ..,
        (State.counted_touches ..).eq_withParts⟩
    · have hexec : exec (.cycleEdge now ⟨p, rise⟩) s = .next (if rise != s.bit .POS_CFG_INV p.val then
          (s.advance now).cycle p.val y else (s.advance now).setPort p.val y) := by
        show execCycleEdge now ⟨p, rise⟩ s = _
        simp only [execCycleEdge, State.edgeOf_of_open hnow hrun hopen rise]
        rfl
      rw [hexec]
      refine ⟨fun hinact => congrArg _ (if_neg (by simpa using hinact)), fun hact => ⟨fun e he hearly => ?_, fun hlate => ?_⟩⟩
      · rw [if_pos (bne_iff_ne.mpr hact), State.cycle_of_early (y := y) he (by rw [htime]; omega)]
      · rw [if_pos (bne_iff_ne.mpr hact), State.cycle_of_late (y := y) fun e he => by
          have hle := hlate e he
          rw [htime]
          omega]
        have hcount := ((s.advance now).cycled p.val y).counted_touches p.val { y.count true with edge := some (s.advance now).time }
        refine ⟨_, rfl, State.pos_counted .., State.trv_counted .., ?_, ?_, fun e he hlt => ?_, ?_, ?_⟩
        · rw [State.edge_counted, htime]
        · exact (hcount.getF ..).trans (State.loss_cycled ..)
        · rw [hcount.getF, State.period_cycled (y := y) he, htime]
          rw [htime]
          omega
        · exact ((State.cycled_keepsRegs (s.advance now) p.val y).touches hcount).of_advance
        · exact ((hcount.after (qs := [.regs, .fresh] ++ countParts) (State.cycled_touches ..).mono).bytes nowhere)
  case loss =>
    intro hrun hlate
    have hrun' : (s.advance now).portRuns p.val 2 = true := hrun
    exact if_pos (Bool.and_eq_true_iff.mpr ⟨hrun', decide_eq_true (by rw [htime]; exact hlate)⟩)

end Sys2Proof.Machine
end

section
/-!
PROOF. The position triggers: claims, arming, values, firing and HOLD (R288 to R291, O31).
-/

set_option Elab.async false

namespace Sys2Proof.Machine
open Sys2Proof

/-! ### Claims (R288, R290) -/

section Claim
variable {s : State} {fn m : Nat}

/-- A claim gives the trigger to the function. -/
theorem State.trgClaim_of_mine (hfn : fn < 256)
    (h : s.getF .POS_TRG_STAT_OWNER m = 0xFF ∨ s.getF .POS_TRG_STAT_OWNER m = fn) :
    ∃ t, s.trgClaim fn m = some t ∧ t.getF .POS_TRG_STAT_OWNER m = fn ∧ Touches [.regs] s t ∧
      KeepsRegs s t (fun f i => f == .POS_TRG_STAT_OWNER && i == m) := by
  by_cases hfree : s.getF .POS_TRG_STAT_OWNER m = 0xFF
  · refine ⟨s.setF .POS_TRG_STAT_OWNER m fn, if_pos hfree, ?_, s.setF_touches .., s.setF_keepsRegs _ _ _⟩
    rw [State.getF_setF_same]
    exact Nat.mod_eq_of_lt hfn
  · have hmine := h.resolve_left hfree
    exact ⟨s, (if_neg hfree).trans (if_pos hmine), hmine, Touches.refl _ s, KeepsRegs.refl s _⟩

theorem State.trgClaim_of_not_mine
    (h : ¬ (s.getF .POS_TRG_STAT_OWNER m = 0xFF ∨ s.getF .POS_TRG_STAT_OWNER m = fn)) : s.trgClaim fn m = none := by
  obtain ⟨hfree, hother⟩ := not_or.mp h
  exact (if_neg hfree).trans (if_neg hother)

end Claim

/-! ### Writes of a trigger's fields -/

/-- The fields of POS_TRGm_CFG but EN. -/
def trgCfgFields : List Fld :=
  [.POS_TRG_CFG_DIR, .POS_TRG_CFG_ACTION, .POS_TRG_CFG_SRC, .POS_TRG_CFG_TARGET, .POS_TRG_CFG_GRANTS]

theorem State.trgFields_touches (s : State) (m w : Nat) : Touches [.regs] s (s.trgFields m w) :=
  (State.setF_touches ..).after ((State.setF_touches ..).after ((State.setF_touches ..).after ((State.setB_touches ..).after
    (s.setB_touches ..))))

theorem KeepsRegs.setB {s t : State} {w : Fld → Nat → Bool} (h : KeepsRegs s t w) {g : Fld} {i : Nat} (hw : w g i = true)
    (v : Bool) : KeepsRegs s (t.setB g i v) w := h.setF hw _

theorem State.trgFields_keepsRegs (s : State) (m w : Nat) :
    KeepsRegs s (s.trgFields m w) (fun f i => trgCfgFields.contains f && i == m) := by
  have hin (f : Fld) (h : trgCfgFields.contains f = true := by decide) : (trgCfgFields.contains f && m == m) = true := by
    rw [h, beq_self_eq_true]; rfl
  exact (((((KeepsRegs.refl s _).setB (hin _) _).setB (hin _) _).setF (hin _) _).setF (hin _) _).setF (hin _) _

theorem State.getF_trgFields (s : State) (m w : Nat) :
    (s.trgFields m w).getF .POS_TRG_CFG_SRC m = bits w 27 24 % 16 ∧
      (s.trgFields m w).getF .POS_TRG_CFG_TARGET m = bits w 23 12 % 4096 ∧
      (s.trgFields m w).getF .POS_TRG_CFG_GRANTS m = w % 256 := by
  simp [State.trgFields, State.setB, State.getF_setF, Fld.width, Fld.info]

theorem State.trgTarget_of_touches {s t : State} (h : Touches [.regs] s t) (fn w : Nat) : t.trgTarget fn w = s.trgTarget fn w := by
  simp only [State.trgTarget, h.ctx, h.station]

/-- An armed trigger: its fields stored, enabled, with no fires counted. -/
def State.trgArmed (s : State) (m w : Nat) : State :=
  ((s.trgFields m w).setF .POS_TRG_CFG_EN m 1).setF .POS_TRG_STAT_FIRES m 0

theorem State.trgArmed_spec (s : State) (m w : Nat) :
    let t := s.trgArmed m w
    t.getF .POS_TRG_CFG_EN m = 1 ∧ t.getF .POS_TRG_STAT_FIRES m = 0 ∧ t.getF .POS_TRG_CFG_SRC m = bits w 27 24 % 16 ∧
      t.getF .POS_TRG_CFG_TARGET m = bits w 23 12 % 4096 ∧ t.getF .POS_TRG_CFG_GRANTS m = w % 256 ∧
      t.getF .POS_TRG_STAT_OWNER m = s.getF .POS_TRG_STAT_OWNER m ∧ Touches [.regs] s t := by
  obtain ⟨hsrc, htarget, hgrants⟩ := s.getF_trgFields m w
  have howner : (s.trgFields m w).getF .POS_TRG_STAT_OWNER m = s.getF .POS_TRG_STAT_OWNER m :=
    s.trgFields_keepsRegs m w _ _ rfl
  refine ⟨?_, ?_, ?_, ?_, ?_, ?_, (State.setF_touches ..).after ((State.setF_touches ..).after (s.trgFields_touches m w))⟩
  all_goals simp [State.trgArmed, State.getF_setF, hsrc, htarget, hgrants, howner, Fld.width, Fld.info]

theorem bits_lt (w hi lo : Nat) : bits w hi lo < 2 ^ (hi + 1 - lo) := by
  unfold bits
  exact Nat.mod_lt _ (Nat.two_pow_pos _)

/-! ### Firing (R288, R289) -/

/-- A trigger that fires counts it, and fires no second time in its cycle. -/
def State.trgMarked (s : State) (m : Nat) : State :=
  { s with trgAt := smapSet 0 s.trgAt m (s.time + 1) }.addHold .POS_TRG_STAT_FIRES m 1

/-- A trigger moves on by its period, or is disarmed. -/
def State.trgMoved (s : State) (m period : Nat) : State :=
  if period = 0 then s.setF .POS_TRG_CFG_EN m 0
  else
    let p := addSrc 1 (s.trgVal m) (if s.bit .POS_TRG_CFG_DIR m then -(period : Int) else period)
    (s.setF .POS_TRG_VALL_VALUE m (p % 4294967296)).setF .POS_TRG_VALH_VALUE m (p / 4294967296)

theorem State.trgAt_touches (s : State) (x : SMap Nat) : Touches [.trgAt] s { s with trgAt := x } := Touches.of_withParts rfl

theorem State.trgMarked_touches (s : State) (m : Nat) : Touches [.trgAt, .regs] s (s.trgMarked m) :=
  (State.addHold_touches ..).after (s.trgAt_touches ..).mono

theorem State.trgMarked_keepsRegs (s : State) (m : Nat) :
    KeepsRegs s (s.trgMarked m) (fun f i => f == .POS_TRG_STAT_FIRES && i == m) :=
  ((KeepsRegs.refl s _).touches (s.trgAt_touches _)).addHold (by simp) 1

theorem State.trgAt_trgMarked (s : State) (m : Nat) : smapGet 0 (s.trgMarked m).trgAt m = s.time + 1 :=
  smapGet_set_same 0 s.trgAt m (s.time + 1)

theorem State.fires_trgMarked (s : State) (m : Nat) :
    (s.trgMarked m).getF .POS_TRG_STAT_FIRES m = min (s.getF .POS_TRG_STAT_FIRES m + 1) 65535 := by
  refine (State.getF_setF_same ..).trans (Nat.mod_eq_of_lt ?_)
  simp [Fld.width, Fld.info]

theorem State.trgMoved_touches (s : State) (m period : Nat) : Touches [.regs] s (s.trgMoved m period) := by
  unfold State.trgMoved
  exact Touches.ite _ (State.setF_touches ..) ((State.setF_touches ..).after (State.setF_touches ..))

theorem State.trgMoved_keepsRegs (s : State) (m period : Nat) : KeepsRegs s (s.trgMoved m period)
    (fun f i => [Fld.POS_TRG_CFG_EN, .POS_TRG_VALL_VALUE, .POS_TRG_VALH_VALUE].contains f && i == m) := by
  unfold State.trgMoved
  exact KeepsRegs.ite _ ((KeepsRegs.refl s _).setF (by simp) _) (((KeepsRegs.refl s _).setF (by simp) _).setF (by simp) _)

theorem State.en_trgMoved_zero (s : State) (m : Nat) : (s.trgMoved m 0).getF .POS_TRG_CFG_EN m = 0 := by
  simp [State.trgMoved]

theorem addSrc_one_lt (a : Nat) (d : Int) : addSrc 1 a d < 281474976710656 := by
  simp only [addSrc, Nat.one_ne_zero, if_false]
  omega

theorem State.trgVal_setF {p : Nat} (hp : p < 281474976710656) (s : State) (m : Nat) :
    ((s.setF .POS_TRG_VALL_VALUE m (p % 4294967296)).setF .POS_TRG_VALH_VALUE m (p / 4294967296)).trgVal m = p := by
  simp [State.trgVal, State.getF_setF, Fld.width, Fld.info]
  omega

theorem State.trgVal_trgMoved (s : State) (m : Nat) {period : Nat} (h : period ≠ 0) : (s.trgMoved m period).trgVal m =
    addSrc 1 (s.trgVal m) (if s.bit .POS_TRG_CFG_DIR m then -(period : Int) else period) := by
  unfold State.trgMoved
  rw [if_neg h]
  exact State.trgVal_setF (addSrc_one_lt ..) s m

/-- A trigger that fires, before what it acts on. -/
def State.trgCounted (s : State) (m : Nat) : State := (s.trgMarked m).trgMoved m (s.getF .POS_TRG_PERIOD_PERIOD m)

theorem State.trgCounted_touches (s : State) (m : Nat) : Touches [.trgAt, .regs] s (s.trgCounted m) :=
  (State.trgMoved_touches ..).after (s.trgMarked_touches m)

/-- What a trigger acts on as it fires: its context, or its station. -/
def State.trgAct (s : State) (m target : Nat) : State :=
  if s.bit .POS_TRG_CFG_ACTION m then s.setCtx (target % 128) { s.ctx (target % 128) with hold := false }
  else if (s.station target).state = 0 then s.setF .POS_TRG_CFG_EN m 0
  else s.grant target (s.getF .POS_TRG_CFG_GRANTS m)

theorem State.trgFire_eq (s : State) (m : Nat) : s.trgFire m = (s.trgCounted m).trgAct m (s.getF .POS_TRG_CFG_TARGET m) := rfl

theorem State.trgAct_keepsRegs (s : State) (m target : Nat) :
    KeepsRegs s (s.trgAct m target) (fun f i => f == .POS_TRG_CFG_EN && i == m) := by
  unfold State.trgAct
  exact KeepsRegs.ite _ ((KeepsRegs.refl s _).touches (s.setCtx_touches ..)) (KeepsRegs.ite _ (s.setF_keepsRegs _ _ _)
    ((KeepsRegs.refl s _).touches (s.grant_touches ..)))

theorem State.trgAct_touches (s : State) (m target : Nat) : Touches [.regs, .ctxs, .stations, .groups] s (s.trgAct m target) := by
  unfold State.trgAct
  exact Touches.ite _ (s.setCtx_touches ..).mono (Touches.ite _ (s.setF_touches ..).mono (s.grant_touches ..).mono)

/-- Each action of a trigger, and what it leaves to the others. -/
theorem State.trgAct_spec (s : State) (m target : Nat) :
    let t := s.trgAct m target
    (s.bit .POS_TRG_CFG_ACTION m = true → (t.ctx (target % 128)).hold = false ∧ t.stations = s.stations) ∧
    (s.bit .POS_TRG_CFG_ACTION m = false → (s.station target).state = 0 →
      t.getF .POS_TRG_CFG_EN m = 0 ∧ t.stations = s.stations) ∧
    (s.bit .POS_TRG_CFG_ACTION m = false → (s.station target).state ≠ 0 →
      (t.station target).grants = min ((s.station target).grants + s.getF .POS_TRG_CFG_GRANTS m) 65535 ∧ t.ctxs = s.ctxs) ∧
    (s.getF .POS_TRG_CFG_EN m = 0 → t.getF .POS_TRG_CFG_EN m = 0) := by
  unfold State.trgAct
  cases hact : s.bit .POS_TRG_CFG_ACTION m with
  | true =>
    have hctx := s.setCtx_touches (target % 128) { s.ctx (target % 128) with hold := false }
    simp only [if_true]
    refine ⟨fun _ => ⟨?_, hctx.same .stations⟩, fun h => absurd h (by decide), fun h => absurd h (by decide),
      fun h => (hctx.getF ..).trans h⟩
    rw [State.ctx_setCtx_same]
  | false =>
    simp only [Bool.false_eq_true, if_false]
    by_cases hgone : (s.station target).state = 0
    · simp only [hgone, if_true]
      exact ⟨fun h => absurd h (by decide), fun _ _ => ⟨by simp, (s.setF_touches ..).same (ps := [.regs]) .stations⟩,
        fun _ h => absurd rfl h, fun _ => by simp⟩
    · simp only [hgone, if_false]
      have hgrant := s.grant_touches target (s.getF .POS_TRG_CFG_GRANTS m)
      refine ⟨fun h => absurd h (by decide), fun _ h => h.elim, fun _ _ => ⟨?_, hgrant.same .ctxs⟩, fun h => (hgrant.getF ..).trans h⟩
      rw [State.station_grant, if_neg hgone]

theorem State.getF_trgCounted (s : State) (m : Nat) {f : Fld}
    (h : [Fld.POS_TRG_STAT_FIRES, .POS_TRG_CFG_EN, .POS_TRG_VALL_VALUE, .POS_TRG_VALH_VALUE].contains f = false) (i : Nat) :
    (s.trgCounted m).getF f i = s.getF f i := by
  simp only [List.contains_cons, List.contains_nil, Bool.or_false, Bool.or_eq_false_iff] at h
  obtain ⟨h1, h2, h3, h4⟩ := h
  refine (State.trgMoved_keepsRegs _ _ _ f i ?_).trans (s.trgMarked_keepsRegs m f i ?_)
  · simp only [List.contains_cons, List.contains_nil, h2, h3, h4]; rfl
  · dsimp only; rw [h1]; rfl

theorem State.trgCounted_spec (s : State) (m : Nat) :
    let t := s.trgCounted m
    let period := s.getF .POS_TRG_PERIOD_PERIOD m
    t.getF .POS_TRG_STAT_FIRES m = min (s.getF .POS_TRG_STAT_FIRES m + 1) 65535 ∧ smapGet 0 t.trgAt m = s.time + 1 ∧
      (period = 0 → t.getF .POS_TRG_CFG_EN m = 0) ∧
      (period ≠ 0 → t.trgVal m = addSrc 1 (s.trgVal m) (if s.bit .POS_TRG_CFG_DIR m then -(period : Int) else period)) := by
  have hkeeps (f : Fld) (h : (f == .POS_TRG_STAT_FIRES) = false) : (s.trgMarked m).getF f m = s.getF f m :=
    s.trgMarked_keepsRegs m f m (by simp [h])
  refine ⟨?_, ?_, fun h0 => ?_, fun h0 => ?_⟩
  · exact (State.trgMoved_keepsRegs _ _ _ _ _ (by simp)).trans (s.fires_trgMarked m)
  · exact (congrArg (smapGet 0 · m) (show (s.trgCounted m).trgAt = _ from (State.trgMoved_touches ..).same .trgAt)).trans
      (s.trgAt_trgMarked m)
  · unfold State.trgCounted
    rw [h0]
    exact State.en_trgMoved_zero _ m
  · unfold State.trgCounted
    rw [State.trgVal_trgMoved _ m h0]
    simp only [State.trgVal, State.bit, hkeeps _ (show (Fld.POS_TRG_VALL_VALUE == .POS_TRG_STAT_FIRES) = false by decide),
      hkeeps _ (show (Fld.POS_TRG_VALH_VALUE == .POS_TRG_STAT_FIRES) = false by decide),
      hkeeps _ (show (Fld.POS_TRG_CFG_DIR == .POS_TRG_STAT_FIRES) = false by decide)]
    rfl

/-- A trigger that has fired in this cycle is not due. -/
theorem State.trgDue_of_fired {s : State} {m : Nat} (h : smapGet 0 s.trgAt m = s.time + 1) : s.trgDue m = false := by
  simp [State.trgDue, h]

theorem State.denied_keepsRegs (s : State) (f : Nat) : KeepsRegs s (s.denied f) (fun g _ => g == .TENV_STAT_DENIED) :=
  KeepsRegs.ite _ (KeepsRegs.refl s _) ((KeepsRegs.refl s _).addHold rfl 1)

/-! ### The rows -/

section Control
variable {s : State} {fn : Func} {now : Nat} {m : Fin 64} (hhost : Hosted s fn.val)
include hhost

theorem exec_triggerArm (v : Word) : exec (.triggerArm now fn m v) s = .next ((s.advance now).trgArm fn.val m.val v.toNat) :=
  congrArg Host.Outcome.next (State.hosted_advance hhost now _)

theorem exec_triggerDisarm (v : Word) :
    exec (.triggerDisarm now fn m v) s = .next ((s.advance now).trgDisarm fn.val m.val v.toNat) :=
  congrArg Host.Outcome.next (State.hosted_advance hhost now _)

theorem exec_triggerFree : exec (.triggerFree now fn m) s = .next ((s.advance now).trgRelease fn.val m.val) :=
  congrArg Host.Outcome.next (State.hosted_advance hhost now _)

theorem exec_triggerValueWrite (k : TrgWord) (v : Word) :
    exec (.triggerValueWrite now fn m k v) s = .next ((s.advance now).trgValue fn.val m.val k v.toNat) :=
  congrArg Host.Outcome.next (State.hosted_advance hhost now _)

end Control

/-- Writes of a trigger by a function that does not hold it are turned away. -/
theorem State.trg_of_not_mine {s : State} {fn m : Nat}
    (h : ¬ (s.getF .POS_TRG_STAT_OWNER m = 0xFF ∨ s.getF .POS_TRG_STAT_OWNER m = fn)) (w : Nat) (k : TrgWord) :
    s.trgArm fn m w = s.denied fn ∧ s.trgDisarm fn m w = s.denied fn ∧ s.trgValue fn m k w = s.denied fn ∧
      (fn ≠ 0 → s.trgRelease fn m = s.denied fn) := by
  have hclaim := State.trgClaim_of_not_mine h
  refine ⟨?_, ?_, ?_, fun h0 => if_neg ?_⟩
  · rw [State.trgArm, hclaim]
  · rw [State.trgDisarm, hclaim]
  · rw [State.trgValue, hclaim]
  · simp only [Bool.or_eq_true, decide_eq_true_eq]
    tauto

/-- The field of a value word of a trigger. -/
def trgWordField : TrgWord → Fld
  | .vall => .POS_TRG_VALL_VALUE
  | .valh => .POS_TRG_VALH_VALUE
  | .period => .POS_TRG_PERIOD_PERIOD

theorem State.trgValue_of_claim {s t : State} {fn m : Nat} (h : s.trgClaim fn m = some t) (k : TrgWord) (w : Nat) :
    s.trgValue fn m k w = if t.bit .POS_TRG_CFG_EN m then t else t.setF (trgWordField k) m w := by
  rw [State.trgValue, h]
  cases k <;> rfl

/-- Settles O31: a write of a trigger is a claim and then a write of its fields; a fire is its count and then its action. -/
theorem triggersWork : Obligations.TriggersWork := by
  unfold Obligations.TriggersWork
  refine ⟨?control, ?fire, ?hold⟩
  case control =>
    intro now fn m v s w o mine turned hhost
    have hfn : fn.val < 256 := by have := fn.isLt; omega
    have hclaim (h : mine) := State.trgClaim_of_mine (s := s.advance now) hfn h
    rw [exec_triggerArm hhost, exec_triggerDisarm hhost, exec_triggerFree hhost]
    refine ⟨fun hmine hmay hsrc hgr => ?_, fun hmine hmay => ?_, fun hmine => ?_, fun hnot => ?_, fun hmay => ?_,
      fun hmine hoff k => ?_, fun hown hon k => ?_⟩
    · obtain ⟨t, ht, howner, htouch, -⟩ := hclaim hmine
      obtain ⟨hen, hfires, hsrc', htarget, hgrants, howner', harmed⟩ := t.trgArmed_spec m.val w
      have hgo : (s.advance now).trgArm fn.val m.val w = t.trgArmed m.val w := by
        rw [State.trgArm, ht]
        refine (if_neg ?_).trans (if_neg ?_)
        · rw [State.trgTarget_of_touches htouch, show (s.advance now).trgTarget fn.val w = true from hmay]
          decide
        · simp [hgr, Nat.not_le.mpr hsrc]
      refine ⟨_, congrArg _ hgo, hen, howner'.trans howner, hfires, ?_, ?_, hgrants, (harmed.after htouch).eq_withParts⟩
      · rw [hsrc', Nat.mod_eq_of_lt (by omega)]
      · exact htarget.trans (Nat.mod_eq_of_lt (bits_lt w 23 12))
    · obtain ⟨t, ht, howner, htouch, -⟩ := hclaim hmine
      have hgo : (s.advance now).trgArm fn.val m.val w = (t.setF .POS_TRG_CFG_EN m.val 0).denied fn.val := by
        rw [State.trgArm, ht]
        refine if_pos ?_
        rw [State.trgTarget_of_touches htouch, show (s.advance now).trgTarget fn.val w = false from hmay]
        decide
      refine ⟨_, congrArg _ hgo, ?_, ?_, ((State.denied_touches ..).after ((t.setF_touches ..).after htouch)).eq_withParts⟩
      · exact (State.denied_keepsRegs _ _ _ _ rfl).trans (by simp)
      · exact (State.denied_keepsRegs _ _ _ _ rfl).trans ((State.getF_setF_ne _ _ (by simp)).trans howner)
    · obtain ⟨t, ht, howner, htouch, -⟩ := hclaim hmine
      refine ⟨(t.trgFields m.val w).setF .POS_TRG_CFG_EN m.val 0, congrArg _ (by rw [State.trgDisarm, ht]), by simp, ?_,
        ((State.setF_touches ..).after ((t.trgFields_touches ..).after htouch)).eq_withParts⟩
      exact (State.getF_setF_ne _ _ (by simp)).trans ((t.trgFields_keepsRegs m.val w _ _ rfl).trans howner)
    · have hturned (k : TrgWord) := State.trg_of_not_mine (s := s.advance now) hnot w k
      refine ⟨congrArg _ (hturned .vall).1, congrArg _ (hturned .vall).2.1, fun k => ?_, fun hne => congrArg _ ((hturned .vall).2.2.2 hne)⟩
      rw [exec_triggerValueWrite hhost]
      exact congrArg _ (hturned k).2.2.1
    · have hgo : (s.advance now).trgRelease fn.val m.val = (s.advance now).trgFree m.val := by
        refine if_pos ?_
        simp only [Bool.or_eq_true, decide_eq_true_eq]
        exact hmay.elim (fun h => .inl (.inl h)) (fun h => h.elim .inr (fun h => .inl (.inr h)))
      exact ⟨_, congrArg _ hgo, (State.getF_setF_ne _ _ (by simp)).trans (by simp),
        by simp [State.trgFree, Fld.width, Fld.info],
        ((State.setF_touches ..).after (ps := [.regs]) ((s.advance now).setF_touches ..)).eq_withParts⟩
    · intro f
      obtain ⟨t, ht, howner, htouch, hkeeps⟩ := hclaim hmine
      have hne : trgWordField k ≠ .POS_TRG_STAT_OWNER := by cases k <;> decide
      have hoff' : t.bit .POS_TRG_CFG_EN m.val = false := by
        unfold State.bit
        rw [hkeeps _ _ rfl]
        exact hoff
      have hf : trgWordField k = f := by cases k <;> rfl
      rw [exec_triggerValueWrite hhost, State.trgValue_of_claim ht, if_neg (by rw [hoff']; decide), hf]
      rw [hf] at hne
      refine ⟨_, rfl, State.getF_setF_same .., (State.getF_setF_ne _ _ (fun h => hne h.1)).trans howner,
        ((t.setF_touches ..).after htouch).eq_withParts, ?_⟩
      exact (hkeeps.mono fun g i hg => by simp only [Bool.and_eq_false_imp, Bool.or_eq_true] at *; tauto).setF (by simp) _
    · have hclaimed : (s.advance now).trgClaim fn.val m.val = some (s.advance now) := by
        have hnot : (s.advance now).getF .POS_TRG_STAT_OWNER m.val ≠ 0xFF := by
          rw [State.getF_advance]
          have := fn.isLt
          omega
        exact (if_neg hnot).trans (if_pos hown)
      rw [exec_triggerValueWrite hhost, State.trgValue_of_claim hclaimed, if_pos (show (s.advance now).bit .POS_TRG_CFG_EN m.val = true from hon)]
  case fire =>
    intro now m s n target period y hdue
    have hexec : exec (.triggerFire now m) s = .next ((s.advance now).trgFire m.val) :=
      if_pos (show (s.advance now).trgDue m.val = true from hdue)
    obtain ⟨hfires, hat, hzero, hval⟩ := (s.advance now).trgCounted_spec n
    have htouch := (s.advance now).trgCounted_touches n
    have hkept (f : Fld) (h : [Fld.POS_TRG_STAT_FIRES, .POS_TRG_CFG_EN, .POS_TRG_VALL_VALUE, .POS_TRG_VALH_VALUE].contains f = false) :
        ((s.advance now).trgCounted n).getF f n = s.getF f n := (s.advance now).getF_trgCounted n h n
    have haction : ((s.advance now).trgCounted n).bit .POS_TRG_CFG_ACTION n = s.bit .POS_TRG_CFG_ACTION n :=
      congrArg (· == 1) (hkept .POS_TRG_CFG_ACTION (by decide))
    have hgrants := hkept .POS_TRG_CFG_GRANTS (by decide)
    have hkeeps := ((s.advance now).trgCounted n).trgAct_keepsRegs n target
    have hact := ((s.advance now).trgCounted n).trgAct_touches n target
    obtain ⟨hctx, hgone, hgrant, hen⟩ := ((s.advance now).trgCounted n).trgAct_spec n target
    rw [haction, htouch.station target] at hgone hgrant
    rw [haction] at hctx
    refine ⟨((s.advance now).trgCounted n).trgAct n target, hexec.trans (congrArg _ (State.trgFire_eq ..)), (hkeeps _ _ rfl).trans hfires, State.trgDue_of_fired ?_,
      fun h => hen (hzero h), fun h => ?_, fun h => ?_, fun h h0 => ?_, fun h h0 => ?_, ?_⟩
    · rw [show State.trgAt _ = _ from hact.same .trgAt, show State.time _ = _ from hact.same .time,
        show State.time _ = _ from htouch.same .time]
      exact hat
    · refine Eq.trans ?_ (hval h)
      simp only [State.trgVal]
      rw [hkeeps _ _ rfl, hkeeps _ _ rfl]
    · exact (hctx h).imp_right (fun hst => hst.trans (htouch.same .stations))
    · exact (hgone h h0).imp_right (fun hst => hst.trans (htouch.same .stations))
    · obtain ⟨hgr, hcs⟩ := hgrant h h0
      exact ⟨hgr.trans (by rw [hgrants]; rfl), hcs.trans (htouch.same .ctxs)⟩
    · exact (hact.after (qs := [.regs, .ctxs, .stations, .groups, .trgAt]) htouch.mono).bytes nowhere
  case hold =>
    intro now fn ctx hold s x hhost
    have hexec : exec (.holdWrite now fn ctx hold) s = .next ((s.advance now).holdWrite fn.val ctx.val hold) :=
      congrArg Host.Outcome.next (State.hosted_advance hhost now _)
    rw [hexec]
    refine ⟨fun hopen hmay => congrArg _ ((if_neg ?_).trans (if_pos hopen)), fun hne hno => congrArg _ (if_pos ?_)⟩
    · have hctx : (s.advance now).ctx ctx.val = x := rfl
      rw [hctx, hopen]
      rcases hmay with h | h <;> simp [h]
    · have hctx : (s.advance now).ctx ctx.val = x := rfl
      rw [hctx]
      rcases hno with h | h <;> simp [h, hne]

end Sys2Proof.Machine
end

section
/-!
PROOF. Watch inputs and outputs (R352 to R368, O32).
-/

set_option Elab.async false

namespace Sys2Proof.Machine
open Sys2Proof

/-! ### What the change of an output's commanded state entails (R358, R359, R368) -/

theorem State.setWin_touches (s : State) (n : Nat) (x : Win) : Touches [.wins] s (s.setWin n x) := Touches.of_withParts rfl
theorem State.setOutMark_touches (s : State) (n : Nat) (x : OutMark) : Touches [.outMarks] s (s.setOutMark n x) := Touches.of_withParts rfl
theorem State.setWRule_touches (s : State) (n : Nat) (x : WRule) : Touches [.wrules] s (s.setWRule n x) := Touches.of_withParts rfl

theorem State.outMark_setOutMark_same (s : State) (n : Nat) (x : OutMark) : (s.setOutMark n x).outMark n = x :=
  smapGet_set_same ..

theorem State.outMark_setOutMark_ne (s : State) {n m : Nat} (x : OutMark) (h : n ≠ m) :
    (s.setOutMark n x).outMark m = s.outMark m := by
  rw [State.outMark, State.setOutMark, smapGet_set_ne (h := h)]
  rfl

theorem Touches.outMark {ps : List Part} {s t : State} (h : Touches ps s t) (j : Nat)
    (hp : ps.contains .outMarks = false := by decide) : t.outMark j = s.outMark j :=
  congrArg (fun m => smapGet _ m j) (show t.outMarks = s.outMarks from h.same .outMarks hp)

theorem Touches.win {ps : List Part} {s t : State} (h : Touches ps s t) (j : Nat)
    (hp : ps.contains .wins = false := by decide) : t.win j = s.win j :=
  congrArg (fun m => smapGet _ m j) (show t.wins = s.wins from h.same .wins hp)

theorem Touches.setting {ps : List Part} {s t : State} (h : Touches ps s t) (k : Nat)
    (hp : ps.contains .lc = false := by decide) : t.setting k = s.setting k := by
  have hlc : t.lc = s.lc := h.same .lc hp
  simp only [State.setting, State.lcSlots, hlc]

/-- The registers of the watch outputs that settling writes. -/
def settleFields : List Fld := [.WIO_WOUTSTAT_PIN, .WIO_WOUTSTAT_FAULT, .WIO_WOUTSTAT_EXTLOW, .WIO_WOUTSTAT_HELD]

/-- The parts that settling touches. -/
def settleParts : List Part := [.regs, .outMarks]

section Requests
variable {ps : List Part} {s t : State} {w : Fld → Nat → Bool}

/-- A pair reads ARMED as before where its registers stay. -/
theorem State.armed_of_kept (h : Touches ps s t) (hk : KeepsRegs s t w) {n : Nat}
    (hw : ∀ f ∈ [Fld.WIO_WINSTAT_A, .WIO_WINSTAT_B, .WIO_WINCFG_ANTIV, .WIO_WINSTAT_FAULT], w f n = false)
    (hlc : ps.contains .lc = false := by decide) (hdown : ps.contains .wioDown = false := by decide) :
    t.armed n = s.armed n := by
  have hwio : t.wioDown = s.wioDown := h.same .wioDown hdown
  have hf (f : Fld) (hin : f ∈ [Fld.WIO_WINSTAT_A, .WIO_WINSTAT_B, .WIO_WINCFG_ANTIV, .WIO_WINSTAT_FAULT]) :
      t.getF f n = s.getF f n := hk f n (hw f hin)
  simp only [State.armed, State.winOn, State.winA, State.winB, State.bit, h.setting _ hlc, hwio, hf .WIO_WINSTAT_A (by simp),
    hf .WIO_WINSTAT_B (by simp), hf .WIO_WINCFG_ANTIV (by simp), hf .WIO_WINSTAT_FAULT (by simp)]

/-- Rules request as before where the pairs stay armed. -/
theorem State.requested_of_kept (h : Touches ps s t) (harmed : ∀ n, t.armed n = s.armed n) (n : Nat)
    (hw : ps.contains .wrules = false := by decide) (hh : ps.contains .heldRules = false := by decide) :
    t.requested n = s.requested n := by
  have hrules : t.wrules = s.wrules := h.same .wrules hw
  have hheld : t.heldRules = s.heldRules := h.same .heldRules hh
  simp only [State.requested, State.requesting, State.muted, harmed, hrules, hheld]

end Requests

/-- Where settling's registers alone change, an output is driven as its FAULT, FORCE and HELD say. -/
theorem State.asserted_of_settled {ps : List Part} {s t : State} (h : Touches ps s t)
    (hk : KeepsRegs s t (fun f _ => settleFields.contains f)) (n : Nat) (hps : ps.all settleParts.contains = true := by decide) :
    t.asserted n = ((s.setting 2).testBit n && t.getF .WIO_WOUTSTAT_FAULT n != 1 && !s.wioDown &&
      (s.bit .WIO_WOUTCFG_FORCE n || t.bit .WIO_WOUTSTAT_HELD n || s.requested n)) := by
  have h' : Touches settleParts s t := h.mono hps
  have hwio : t.wioDown = s.wioDown := h'.same .wioDown
  have harmed (m : Nat) : t.armed m = s.armed m := by
    refine State.armed_of_kept h' hk fun f hf => ?_
    simp only [List.mem_cons, List.not_mem_nil, or_false] at hf
    rcases hf with rfl | rfl | rfl | rfl <;> rfl
  have hforce : t.bit .WIO_WOUTCFG_FORCE n = s.bit .WIO_WOUTCFG_FORCE n := congrArg (· == 1) (hk .WIO_WOUTCFG_FORCE n rfl)
  rw [State.asserted, h'.setting, hwio, hforce, State.requested_of_kept h' harmed]

/-! ### The two steps of settling -/

/-- The test of one output restarts. -/
def State.followed (v : Bool) (now : Nat) (s : State) (n : Nat) : State :=
  (s.setB .WIO_WOUTSTAT_PIN n v).setOutMark n { s.outMark n with since := now }

theorem State.outFollow_eq (s t : State) : s.outFollow t = (List.range 8).foldl
    (fun u n => if t.asserted n != s.asserted n then State.followed (!(s.asserted n)) s.time u n else u) s := rfl

theorem State.outFollow_touches (s t : State) : Touches settleParts s (s.outFollow t) := by
  rw [State.outFollow_eq]
  exact Touches.foldl _ (fun u n => Touches.ite _ ((State.setOutMark_touches ..).after (u.setB_touches ..).mono)
    (Touches.refl _ u)) _ s

theorem State.outFollow_keepsRegs (s t : State) : KeepsRegs s (s.outFollow t) (fun f _ => f == .WIO_WOUTSTAT_PIN) := by
  rw [State.outFollow_eq]
  exact KeepsRegs.foldl _ (fun u n => KeepsRegs.ite _ (((KeepsRegs.refl u _).setB rfl _).touches (State.setOutMark_touches ..))
    (KeepsRegs.refl u _)) _ s

theorem State.cleared_outFollow (s t : State) (n : Nat) : ((s.outFollow t).outMark n).cleared = (s.outMark n).cleared := by
  rw [State.outFollow_eq]
  refine List.foldlRecOn (motive := fun u : State => (u.outMark n).cleared = (s.outMark n).cleared) _ _ rfl ?_
  intro u hu m _
  split
  · by_cases hmn : m = n
    · subst hmn
      exact (congrArg OutMark.cleared (State.outMark_setOutMark_same ..)).trans hu
    · exact (congrArg OutMark.cleared (State.outMark_setOutMark_ne _ _ hmn)).trans hu
  · exact hu

theorem State.settled_of_pin {s t : State} (h : KeepsRegs s t (fun f _ => f == .WIO_WOUTSTAT_PIN)) :
    KeepsRegs s t (fun f _ => settleFields.contains f) := by
  refine h.mono fun f _ hf => ?_
  simp only [settleFields, List.contains_cons, Bool.or_eq_false_iff] at hf
  exact hf.1

/-- Outputs are driven as before where the tests alone restart. -/
theorem State.asserted_outFollow (s t : State) (n : Nat) : (s.outFollow t).asserted n = s.asserted n := by
  have hheld : (s.outFollow t).bit .WIO_WOUTSTAT_HELD n = s.bit .WIO_WOUTSTAT_HELD n :=
    congrArg (· == 1) (s.outFollow_keepsRegs t .WIO_WOUTSTAT_HELD n rfl)
  rw [State.asserted_of_settled (s.outFollow_touches t) (State.settled_of_pin (s.outFollow_keepsRegs t)), hheld,
    s.outFollow_keepsRegs t .WIO_WOUTSTAT_FAULT n rfl]
  rfl

/-- The readback of a clear that a request in its tick undoes. -/
def State.undone (s t : State) (n : Nat) (c : Nat × Bool × Bool) : Bool :=
  s.asserted n && !(t.asserted n) && tickOf c.1 == tickOf s.time && c.2.1

/-- A fault that stays. -/
def State.faultStays (u : State) (n : Nat) (c : Nat × Bool × Bool) (pair : Bool) : State :=
  let v := ((u.setF .WIO_WOUTSTAT_FAULT n 2).setB .WIO_WOUTSTAT_EXTLOW n c.2.2).setB .WIO_WOUTSTAT_PIN n c.2.1
  let x := v.outMark n
  let v := v.setOutMark n { x with cleared := none }
  if pair then v.setF .WIO_WOUTSTAT_HELD (partner n) 1 else v

/-- One output's clear judged. -/
def State.judgeClear (s t u : State) (n : Nat) : State :=
  match (u.outMark n).cleared with
  | some c => if s.undone t n c then u.faultStays n c (s.pairedOut n) else u
  | none => u

theorem State.clearJudged_eq (s t : State) : s.clearJudged t = (List.range 8).foldl (s.judgeClear t) s := rfl

theorem State.faultStays_touches (u : State) (n : Nat) (c : Nat × Bool × Bool) (pair : Bool) :
    Touches settleParts u (u.faultStays n c pair) := by
  unfold State.faultStays
  extract_lets v x v'
  have hv : Touches settleParts u v :=
    (State.setB_touches ..).after ((State.setB_touches ..).after (u.setF_touches ..).mono)
  have hv' : Touches settleParts u v' := (State.setOutMark_touches ..).after hv
  exact Touches.ite _ ((State.setF_touches ..).after hv') hv'

theorem State.faultStays_keepsRegs (u : State) (n : Nat) (c : Nat × Bool × Bool) (pair : Bool) :
    KeepsRegs u (u.faultStays n c pair) (fun f m => settleFields.contains f && (m == n || f == .WIO_WOUTSTAT_HELD)) := by
  unfold State.faultStays
  extract_lets v x v'
  have hv : KeepsRegs u v (fun f m => settleFields.contains f && (m == n || f == .WIO_WOUTSTAT_HELD)) :=
    (((KeepsRegs.refl u _).setF (by simp [settleFields]) _).setB (by simp [settleFields]) _).setB (by simp [settleFields]) _
  have hv' := hv.touches (v.setOutMark_touches n { x with cleared := none })
  exact KeepsRegs.ite _ (hv'.setF (by simp [settleFields]) _) hv'

theorem State.fault_faultStays (u : State) (n : Nat) (c : Nat × Bool × Bool) (pair : Bool) :
    (u.faultStays n c pair).getF .WIO_WOUTSTAT_FAULT n = 2 := by
  unfold State.faultStays
  extract_lets v x v'
  have hv : v'.getF .WIO_WOUTSTAT_FAULT n = 2 := by
    refine ((v.setOutMark_touches ..).getF ..).trans ?_
    simp [v, State.setB, State.getF_setF, Fld.width, Fld.info]
  split
  · exact (State.getF_setF_ne _ _ (by simp)).trans hv
  · exact hv

theorem State.outMark_faultStays_ne (u : State) {n m : Nat} (h : n ≠ m) (c : Nat × Bool × Bool) (pair : Bool) :
    (u.faultStays n c pair).outMark m = u.outMark m := by
  unfold State.faultStays
  extract_lets v x v'
  have hv : v.outMark m = u.outMark m :=
    ((State.setB_touches ..).after ((State.setB_touches ..).after (u.setF_touches ..)) : Touches [.regs] u v).outMark m
  have hv' : v'.outMark m = u.outMark m := (State.outMark_setOutMark_ne _ _ h).trans hv
  split
  · exact ((v'.setF_touches ..).outMark m).trans hv'
  · exact hv'

theorem State.judgeClear_cases (s t u : State) (n : Nat) :
    s.judgeClear t u n = u ∨ ∃ c, (u.outMark n).cleared = some c ∧ s.undone t n c = true ∧
      s.judgeClear t u n = u.faultStays n c (s.pairedOut n) := by
  unfold State.judgeClear
  cases hc : (u.outMark n).cleared with
  | none => exact .inl rfl
  | some c =>
    cases hu : s.undone t n c with
    | true => exact .inr ⟨c, rfl, hu, by simp only [hu, if_true]⟩
    | false => exact .inl (by simp only [hu, Bool.false_eq_true, if_false])

theorem State.clearJudged_touches (s t : State) : Touches settleParts s (s.clearJudged t) := by
  rw [State.clearJudged_eq]
  refine Touches.foldl _ (fun u n => ?_) _ s
  obtain h | ⟨c, -, -, h⟩ := s.judgeClear_cases t u n
  · rw [h]; exact Touches.refl _ u
  · rw [h]; exact u.faultStays_touches n c _

theorem State.clearJudged_keepsRegs (s t : State) : KeepsRegs s (s.clearJudged t) (fun f _ => settleFields.contains f) := by
  rw [State.clearJudged_eq]
  refine KeepsRegs.foldl _ (fun u n => ?_) _ s
  obtain h | ⟨c, -, -, h⟩ := s.judgeClear_cases t u n
  · rw [h]; exact KeepsRegs.refl u _
  · rw [h]
    exact (u.faultStays_keepsRegs n c _).mono fun f m hf => by rw [hf]; rfl

/-- A clear that no request in its tick undoes stands: the output's FAULT and EXTLOW stay. -/
theorem State.clearJudged_of_stands {s : State} (t : State) {n : Nat}
    (h : ∀ c, (s.outMark n).cleared = some c → s.undone t n c = false) {f : Fld} (hf : (f == .WIO_WOUTSTAT_HELD) = false) :
    (s.clearJudged t).getF f n = s.getF f n := by
  rw [State.clearJudged_eq]
  refine (List.foldlRecOn (motive := fun u : State => (u.outMark n).cleared = (s.outMark n).cleared ∧ u.getF f n = s.getF f n)
    _ _ ⟨rfl, rfl⟩ ?_).2
  rintro u ⟨hmark, hfault⟩ m -
  obtain hj | ⟨c, hc, hundone, hj⟩ := s.judgeClear_cases t u m
  · rw [hj]; exact ⟨hmark, hfault⟩
  · have hne : m ≠ n := by
      rintro rfl
      rw [h c (hmark.symm.trans hc)] at hundone
      exact absurd hundone (by decide)
    rw [hj, State.outMark_faultStays_ne _ hne]
    refine ⟨hmark, (u.faultStays_keepsRegs m c _ f n ?_).trans hfault⟩
    simp [hf, Ne.symm hne]

/-- Judging clears releases no driver and faults none as SHORT. -/
theorem State.fault_clearJudged_ne_one {s : State} (t : State) {n : Nat} (h : s.getF .WIO_WOUTSTAT_FAULT n ≠ 1) :
    (s.clearJudged t).getF .WIO_WOUTSTAT_FAULT n ≠ 1 := by
  rw [State.clearJudged_eq]
  refine List.foldlRecOn (motive := fun u : State => u.getF .WIO_WOUTSTAT_FAULT n ≠ 1) _ _ h ?_
  intro u hu m _
  obtain hj | ⟨c, -, -, hj⟩ := s.judgeClear_cases t u m
  · rwa [hj]
  · rw [hj]
    by_cases hmn : m = n
    · subst hmn
      rw [State.fault_faultStays]
      decide
    · rwa [u.faultStays_keepsRegs m c _ .WIO_WOUTSTAT_FAULT n (by simp [Ne.symm hmn])]

/-! ### Settling -/

theorem State.wioSettle_touches (s t : State) : Touches settleParts s (s.wioSettle t) :=
  (State.outFollow_touches ..).after ((State.clearJudged_touches ..).after (s.outFollow_touches t))

theorem State.wioSettle_keepsRegs (s t : State) : KeepsRegs s (s.wioSettle t) (fun f _ => settleFields.contains f) :=
  ((State.settled_of_pin (s.outFollow_keepsRegs t)).trans (State.clearJudged_keepsRegs _ t)).trans
    (State.settled_of_pin (State.outFollow_keepsRegs _ _))

/-- Settling leaves FAULT and EXTLOW of an output whose clear stands. -/
theorem State.wioSettle_of_stands {s t : State} {n : Nat}
    (h : ∀ c, (s.outMark n).cleared = some c →
      (s.asserted n && !(t.asserted n) && tickOf c.1 == tickOf s.time && c.2.1) = false)
    {f : Fld} (hf : [Fld.WIO_WOUTSTAT_FAULT, .WIO_WOUTSTAT_EXTLOW].contains f = true) :
    (s.wioSettle t).getF f n = s.getF f n := by
  have hne : (f == .WIO_WOUTSTAT_PIN) = false ∧ (f == .WIO_WOUTSTAT_HELD) = false := by
    simp only [List.contains_cons, List.contains_nil, Bool.or_false, Bool.or_eq_true, beq_iff_eq] at hf
    rcases hf with rfl | rfl <;> exact ⟨rfl, rfl⟩
  obtain ⟨hpin, hheld⟩ := hne
  have htime : (s.outFollow t).time = s.time := (s.outFollow_touches t).same .time
  unfold State.wioSettle
  rw [State.outFollow_keepsRegs _ _ f n hpin, State.clearJudged_of_stands t ?_ hheld, State.outFollow_keepsRegs _ _ f n hpin]
  intro c hc
  rw [State.undone, State.asserted_outFollow, htime]
  exact h c ((s.cleared_outFollow t n).symm.trans hc)

/-- Settling faults no output as SHORT. -/
theorem State.fault_wioSettle_ne_one {s : State} (t : State) {n : Nat} (h : s.getF .WIO_WOUTSTAT_FAULT n ≠ 1) :
    (s.wioSettle t).getF .WIO_WOUTSTAT_FAULT n ≠ 1 := by
  unfold State.wioSettle
  rw [State.outFollow_keepsRegs _ _ _ _ rfl]
  refine State.fault_clearJudged_ne_one t ?_
  rwa [State.outFollow_keepsRegs _ _ _ _ rfl]

/-! ### Faults of inputs (R355) -/

/-- The parts that a fault of an input touches. -/
def discParts : List Part := settleParts ++ eventParts

/-- The registers of inputs that judging their levels writes. -/
def judgeFields : List Fld := [.WIO_WINSTAT_FAULT, .WIO_WINSTAT_CLRREADY, .WIO_WINCNT_COUNT] ++ settleFields

theorem State.discFault_touches (s : State) (n : Nat) : Touches discParts s (s.discFault n) :=
  (State.wioSettle_touches ..).after ((State.raise_touches ..).after ((State.addHold_touches ..).after (s.setF_touches ..).mono))

/-- A discrepancy fault before what it entails. -/
def State.discCounted (s : State) (n : Nat) : State := (s.setF .WIO_WINSTAT_FAULT n 1).addHold .WIO_WINCNT_COUNT n 1

theorem State.getF_discFault (s : State) (n : Nat) {f : Fld} (hf : settleFields.contains f = false) (m : Nat) :
    (s.discFault n).getF f m = (s.discCounted n).getF f m :=
  (State.wioSettle_keepsRegs _ _ f m hf).trans (State.raise_getF ..)

theorem State.discCounted_keepsRegs (s : State) (n : Nat) : KeepsRegs s (s.discCounted n)
    (fun f m => [Fld.WIO_WINSTAT_FAULT, .WIO_WINCNT_COUNT].contains f && m == n) :=
  ((KeepsRegs.refl s _).setF (by simp) 1).addHold (by simp) 1

theorem State.discFault_spec (s : State) (n : Nat) :
    let t := s.discFault n
    t.getF .WIO_WINSTAT_FAULT n = 1 ∧
      t.getF .WIO_WINCNT_COUNT n = min (s.getF .WIO_WINCNT_COUNT n + 1) (2 ^ Fld.WIO_WINCNT_COUNT.width - 1) ∧
      t.armed n = false := by
  have hfault : (s.discFault n).getF .WIO_WINSTAT_FAULT n = 1 := by
    rw [State.getF_discFault _ _ rfl]
    simp [State.discCounted, State.addHold, State.getF_setF, Fld.width, Fld.info]
  refine ⟨hfault, ?_, ?_⟩
  · rw [State.getF_discFault _ _ rfl, State.discCounted, State.addHold, State.getF_setF_same,
      State.getF_setF_ne _ _ (by simp)]
    exact Nat.mod_eq_of_lt (by have := Nat.two_pow_pos Fld.WIO_WINCNT_COUNT.width; omega)
  · simp [State.armed, State.bit, hfault]

theorem State.discFault_keepsRegs (s : State) (n : Nat) : KeepsRegs s (s.discFault n) (fun f _ => judgeFields.contains f) := by
  intro f m hf
  simp only [judgeFields, List.contains_append, Bool.or_eq_false_iff] at hf
  obtain ⟨hjudge, hsettle⟩ := hf
  rw [State.getF_discFault _ _ hsettle]
  refine s.discCounted_keepsRegs n f m ?_
  simp only [List.contains_cons, List.contains_nil, Bool.or_false, Bool.or_eq_false_iff] at hjudge ⊢
  obtain ⟨h1, -, h3⟩ := hjudge
  simp [h1, h3]

/-! ### The levels of a pair judged (R353 to R356) -/

/-- What the levels leave of the pair's timers. -/
def State.winTimed (s : State) (n : Nat) : Win :=
  let x := s.win n
  { x with
    differ := if s.winA n != s.winB n && s.winOn n then some (x.differ.getD s.time) else none
    safe := if !(s.winA n) && !(s.winB n) then some (x.safe.getD s.time) else none }

/-- The parts that judging levels touches. -/
def judgeParts : List Part := .wins :: discParts

theorem State.winJudge_spec (s : State) (n : Nat) :
    let t := s.winJudge n
    Touches judgeParts s t ∧ KeepsRegs s t (fun f _ => judgeFields.contains f) ∧ t.win n = s.winTimed n ∧
      ((s.winA n || s.winB n) = true → t.getF .WIO_WINSTAT_CLRREADY n = 0) := by
  unfold State.winJudge
  extract_lets x a b safe y late t t1 t2 t3
  have hwin : t.win n = s.winTimed n := smapGet_set_same ..
  have ht : Touches judgeParts s t := (s.setWin_touches ..).mono
  have htk : KeepsRegs s t (fun f _ => judgeFields.contains f) := (KeepsRegs.refl s _).touches (s.setWin_touches ..)
  clear_value t
  have h1 : Touches [.regs] t t1 := Touches.ite _ (t.setF_touches ..) (Touches.refl _ t)
  have h1k : KeepsRegs t t1 (fun f _ => judgeFields.contains f) :=
    KeepsRegs.ite _ ((KeepsRegs.refl t _).setF rfl 1) (KeepsRegs.refl t _)
  clear_value t1
  have h2 : Touches [.regs] t1 t2 := Touches.ite _ (Touches.refl _ t1) (t1.setF_touches ..)
  have h2k : KeepsRegs t1 t2 (fun f _ => judgeFields.contains f) :=
    KeepsRegs.ite _ (KeepsRegs.refl t1 _) ((KeepsRegs.refl t1 _).setF rfl 0)
  have h2c : safe = false → t2.getF .WIO_WINSTAT_CLRREADY n = 0 := fun hs => by
    unfold t2
    rw [hs, if_neg (by decide)]
    simp
  clear_value t2
  have hall := h2.after (qs := judgeParts) (h1.after ht)
  have hallk := (htk.trans h1k).trans h2k
  have hwin2 : t2.win n = s.winTimed n := ((h2.win n).trans (h1.win n)).trans hwin
  have hsafe : (s.winA n || s.winB n) = true → safe = false := by
    unfold safe a b
    cases s.winA n <;> cases s.winB n <;> decide
  have hfault := t2.discFault_touches n
  unfold t3
  split
  · refine ⟨hfault.after hall, hallk.trans (t2.discFault_keepsRegs n), (hfault.win n).trans hwin2, fun h => ?_⟩
    rw [State.getF_discFault _ _ rfl, t2.discCounted_keepsRegs n _ _ (by simp)]
    exact h2c (hsafe h)
  · exact ⟨hall, hallk, hwin2, fun h => h2c (hsafe h)⟩

/-! ### Faults of outputs (R359 to R362) -/

/-- A fault latched on an output, before it is reported. -/
def State.outLatched (s : State) (n fault : Nat) (extlow : Bool) : State :=
  let t := ((s.setF .WIO_WOUTSTAT_FAULT n fault).setB .WIO_WOUTSTAT_EXTLOW n extlow).addHold .WIO_WOUTFLTCNT_COUNT n 1
  let x := t.outMark n
  t.setOutMark n { x with fired := some s.time, cleared := none }

/-- It is reported, and in a pair the other member is held. -/
def State.outReported (s t : State) (n fault : Nat) : State :=
  let owners := s.outOwners n
  let owner := match owners with | [o] => o | _ => 0xFF
  let t := t.raiseTo owners 0x102 owner 0xFF n 0xFFFF [BitVec.ofNat 8 fault]
  if s.pairedOut n then t.setF .WIO_WOUTSTAT_HELD (partner n) 1 else t

theorem State.outFault_eq (s : State) (n fault : Nat) (extlow : Bool) :
    s.outFault n fault extlow = (s.outReported (s.outLatched n fault extlow) n fault).wioSettle s := rfl

theorem State.outLatched_touches (s : State) (n fault : Nat) (extlow : Bool) :
    Touches settleParts s (s.outLatched n fault extlow) :=
  (State.setOutMark_touches ..).after ((State.addHold_touches ..).after ((State.setB_touches ..).after (s.setF_touches ..).mono))

theorem State.outLatched_spec (s : State) (n : Nat) {fault : Nat} (hfault : fault < 4) (extlow : Bool) :
    let t := s.outLatched n fault extlow
    t.getF .WIO_WOUTSTAT_FAULT n = fault ∧ t.getF .WIO_WOUTSTAT_EXTLOW n = extlow.toNat ∧
      t.getF .WIO_WOUTFLTCNT_COUNT n =
        min (s.getF .WIO_WOUTFLTCNT_COUNT n + 1) (2 ^ Fld.WIO_WOUTFLTCNT_COUNT.width - 1) ∧
      (t.outMark n).cleared = none := by
  unfold State.outLatched
  extract_lets t x
  have hmark := t.setOutMark_touches n { x with fired := some s.time, cleared := none }
  have hext := extlow.toNat_lt
  refine ⟨(hmark.getF ..).trans ?_, (hmark.getF ..).trans ?_, (hmark.getF ..).trans ?_,
    congrArg OutMark.cleared (State.outMark_setOutMark_same ..)⟩
  · simp [t, State.setB, State.getF_setF, Fld.width, Fld.info]
    omega
  · simp [t, State.setB, State.getF_setF, Fld.width, Fld.info]
    omega
  · unfold t State.addHold
    rw [State.getF_setF_same, State.setB, State.getF_setF_ne _ _ (by simp), State.getF_setF_ne _ _ (by simp)]
    exact Nat.mod_eq_of_lt (by have := Nat.two_pow_pos Fld.WIO_WOUTFLTCNT_COUNT.width; omega)

theorem State.outReported_touches (s t : State) (n fault : Nat) :
    Touches (.regs :: eventParts) t (s.outReported t n fault) := by
  unfold State.outReported
  extract_lets owners owner u
  have hu : Touches (.regs :: eventParts) t u := (t.raiseTo_touches ..).mono
  clear_value u
  exact Touches.ite _ ((State.setF_touches ..).after hu) hu

theorem State.outReported_keepsRegs (s t : State) (n fault : Nat) :
    KeepsRegs t (s.outReported t n fault) (fun f _ => f == .WIO_WOUTSTAT_HELD) := by
  unfold State.outReported
  extract_lets owners owner u
  have hu : KeepsRegs t u (fun f _ => f == .WIO_WOUTSTAT_HELD) := (KeepsRegs.refl t _).touches (t.raiseTo_touches ..)
  clear_value u
  exact KeepsRegs.ite _ (hu.setF rfl 1) hu

/-- The parts that a fault of an output touches. -/
def faultParts : List Part := settleParts ++ eventParts

/-- What a fault of an output leaves: FAULT, EXTLOW, the count, and for a SHORT its driver released. -/
theorem State.outFault_spec (s : State) (n : Nat) {fault : Nat} (hfault : fault < 4) (extlow : Bool) :
    let t := s.outFault n fault extlow
    t.getF .WIO_WOUTSTAT_FAULT n = fault ∧ t.getF .WIO_WOUTSTAT_EXTLOW n = extlow.toNat ∧
      t.getF .WIO_WOUTFLTCNT_COUNT n =
        min (s.getF .WIO_WOUTFLTCNT_COUNT n + 1) (2 ^ Fld.WIO_WOUTFLTCNT_COUNT.width - 1) ∧
      (fault = 1 → t.asserted n = false) ∧ Touches faultParts s t := by
  obtain ⟨hf, hext, hcount, hcleared⟩ := s.outLatched_spec n hfault extlow
  have hlatched := s.outLatched_touches n fault extlow
  have hreported := s.outReported_touches (s.outLatched n fault extlow) n fault
  have hregs := s.outReported_keepsRegs (s.outLatched n fault extlow) n fault
  have hstands : ∀ c, ((s.outReported (s.outLatched n fault extlow) n fault).outMark n).cleared = some c →
      ((s.outReported (s.outLatched n fault extlow) n fault).asserted n && !(s.asserted n) &&
        tickOf c.1 == tickOf (s.outReported (s.outLatched n fault extlow) n fault).time && c.2.1) = false := by
    intro c hc
    rw [hreported.outMark, hcleared] at hc
    exact absurd hc (by simp)
  have hfault' : (s.outFault n fault extlow).getF .WIO_WOUTSTAT_FAULT n = fault := by
    rw [State.outFault_eq, State.wioSettle_of_stands hstands rfl, hregs _ _ rfl, hf]
  refine ⟨hfault', ?_, ?_, fun h1 => ?_, ?_⟩
  · rw [State.outFault_eq, State.wioSettle_of_stands hstands rfl, hregs _ _ rfl, hext]
  · rw [State.outFault_eq, State.wioSettle_keepsRegs _ _ _ _ rfl, hregs _ _ rfl, hcount]
  · have hone := hfault'.trans h1
    simp [State.asserted, hone]
  · rw [State.outFault_eq]
    exact (State.wioSettle_touches ..).after (hreported.after hlatched.mono)

/-! ### Clears of outputs (R361, R362, R368) -/

/-- A fault of an output taken away, before what it entails. -/
def State.outCleared (s : State) (n : Nat) : State :=
  let t := (s.setF .WIO_WOUTSTAT_FAULT n 0).setF .WIO_WOUTSTAT_EXTLOW n 0
  if t.getF .WIO_WOUTSTAT_FAULT (partner n) = 0 then
    (t.setF .WIO_WOUTSTAT_HELD n 0).setF .WIO_WOUTSTAT_HELD (partner n) 0 else t

theorem State.outClear_eq (s : State) (n : Nat) : s.outClear n = (s.outCleared n).wioSettle s := rfl

theorem State.outCleared_touches (s : State) (n : Nat) : Touches [.regs] s (s.outCleared n) := by
  unfold State.outCleared
  extract_lets t
  have ht : Touches [.regs] s t := (State.setF_touches ..).after (s.setF_touches ..)
  clear_value t
  exact Touches.ite _ ((State.setF_touches ..).after ((State.setF_touches ..).after ht)) ht

theorem State.outCleared_keepsRegs (s : State) (n : Nat) :
    KeepsRegs s (s.outCleared n) (fun f _ => settleFields.contains f) := by
  unfold State.outCleared
  extract_lets t
  have ht : KeepsRegs s t (fun f _ => settleFields.contains f) := ((KeepsRegs.refl s _).setF rfl 0).setF rfl 0
  clear_value t
  exact KeepsRegs.ite _ ((ht.setF rfl 0).setF rfl 0) ht

theorem State.outCleared_spec (s : State) (n : Nat) :
    (s.outCleared n).getF .WIO_WOUTSTAT_FAULT n = 0 ∧
      ((s.outCleared n).bit .WIO_WOUTSTAT_HELD n = true → s.bit .WIO_WOUTSTAT_HELD n = true) := by
  unfold State.outCleared
  extract_lets t
  split
  · refine ⟨by simp [t, State.getF_setF], ?_⟩
    simp [State.bit, State.getF_setF]
  · exact ⟨by simp [t, State.getF_setF], by simp [t, State.bit, State.getF_setF]⟩

/-- A clear of a MISMATCH commands no driver that was not commanded before. -/
theorem State.asserted_outCleared {s : State} {n : Nat} (h : s.getF .WIO_WOUTSTAT_FAULT n ≠ 1)
    (ha : (s.outCleared n).asserted n = true) : s.asserted n = true := by
  obtain ⟨hf, hheld⟩ := s.outCleared_spec n
  rw [State.asserted_of_settled (s.outCleared_touches n) (s.outCleared_keepsRegs n), hf] at ha
  simp only [State.asserted, Bool.and_eq_true, Bool.or_eq_true, bne_iff_ne, ne_eq] at ha ⊢
  obtain ⟨⟨⟨hset, -⟩, hdown⟩, hreq⟩ := ha
  exact ⟨⟨⟨hset, h⟩, hdown⟩, hreq.imp_left (fun h => h.imp_right hheld)⟩

/-- A clear leaves FAULT 0 where no request of its tick undoes it. -/
theorem State.fault_outClear {s : State} {n : Nat}
    (h : ∀ c, (s.outMark n).cleared = some c →
      ((s.outCleared n).asserted n && !(s.asserted n) && tickOf c.1 == tickOf s.time && c.2.1) = false) :
    (s.outClear n).getF .WIO_WOUTSTAT_FAULT n = 0 := by
  have htouch := s.outCleared_touches n
  rw [State.outClear_eq, State.wioSettle_of_stands ?_ rfl, (s.outCleared_spec n).1]
  rw [htouch.outMark, show (s.outCleared n).time = s.time from htouch.same .time]
  exact h

theorem State.outClear_touches (s : State) (n : Nat) : Touches settleParts s (s.outClear n) := by
  rw [State.outClear_eq]
  exact (State.wioSettle_touches ..).after (s.outCleared_touches n).mono

/-! ### The rows -/

/-- The settings of an input written (R357). -/
def State.winConfigured (s : State) (n w : Nat) : State :=
  let disc := w / 65536 % 512
  let disc := if disc < 1 then 1 else if 500 < disc then 500 else disc
  ((s.setF .WIO_WINCFG_DISC n disc).setF .WIO_WINCFG_ANTIV n (w / 256 % 2)).setF .WIO_WINCFG_FILT n (w % 256)

theorem State.winConfigured_spec (s : State) (n w : Nat) :
    let t := s.winConfigured n w
    t.getF .WIO_WINCFG_DISC n = max 1 (min 500 (w / 65536 % 512)) ∧ t.getF .WIO_WINCFG_ANTIV n = w / 256 % 2 ∧
      t.getF .WIO_WINCFG_FILT n = w % 256 ∧ Touches [.regs] s t := by
  unfold State.winConfigured
  extract_lets d disc t
  have hd : d < 512 := Nat.mod_lt _ (by decide)
  have hdisc : disc = max 1 (min 500 d) := by
    unfold disc
    split
    · omega
    · split <;> omega
  refine ⟨?_, ?_, ?_, (State.setF_touches ..).after ((State.setF_touches ..).after (s.setF_touches ..))⟩
  · refine (State.getF_setF_ne _ _ (by simp)).trans ((State.getF_setF_ne _ _ (by simp)).trans ?_)
    rw [State.getF_setF_same, hdisc]
    exact Nat.mod_eq_of_lt (by simp [Fld.width, Fld.info])
  · simp [t, State.getF_setF, Fld.width, Fld.info]
  · simp [t, Fld.width, Fld.info]

theorem execWatchInputConfig_of_free {s : State} {n : Fin 4} (v : Word) (now : Nat)
    (hrules : ∀ e, e ∈ s.wrules → ¬ (e.2.valid = true ∧ e.2.inhibit = n.val)) (hfault : s.bit .WIO_WINSTAT_FAULT n.val = false) :
    exec (.watchInputConfig now n v) s =
      .next ((((s.advance now).winConfigured n.val v.toNat).winJudge n.val).wioSettle (s.advance now)) := by
  refine if_neg ?_
  show ¬ (s.wrules.any (fun e => e.2.valid && e.2.inhibit == n.val) || s.bit .WIO_WINSTAT_FAULT n.val) = true
  rw [Bool.or_eq_true, not_or, hfault]
  refine ⟨fun h => ?_, by decide⟩
  obtain ⟨e, he, hv⟩ := List.any_eq_true.mp h
  obtain ⟨hvalid, hinh⟩ := Bool.and_eq_true_iff.mp hv
  exact hrules e he ⟨hvalid, beq_iff_eq.mp hinh⟩

/-- A pair's levels judged, and what that entails, leave its settings. -/
theorem State.settled_winJudge_spec (s u : State) (n : Nat) :
    Touches judgeParts s ((s.winJudge n).wioSettle u) ∧
      KeepsRegs s ((s.winJudge n).wioSettle u) (fun f _ => judgeFields.contains f) := by
  obtain ⟨htouch, hkeeps, -, -⟩ := s.winJudge_spec n
  refine ⟨(State.wioSettle_touches ..).after htouch, hkeeps.trans ((State.wioSettle_keepsRegs _ _).mono fun f m hf => ?_)⟩
  simp only [judgeFields, List.contains_append, Bool.or_eq_false_iff] at hf
  exact hf.2

theorem State.asserted_setB_pin (s : State) (n : Nat) (pin : Bool) (m : Nat) :
    (s.setB .WIO_WOUTSTAT_PIN n pin).asserted m = s.asserted m := by
  have hkeeps : KeepsRegs s (s.setB .WIO_WOUTSTAT_PIN n pin) (fun f _ => f == .WIO_WOUTSTAT_PIN) :=
    (KeepsRegs.refl _ _).setB rfl pin
  have hheld : (s.setB .WIO_WOUTSTAT_PIN n pin).bit .WIO_WOUTSTAT_HELD m = s.bit .WIO_WOUTSTAT_HELD m :=
    congrArg (· == 1) (hkeeps _ _ rfl)
  rw [State.asserted_of_settled (s.setB_touches ..) (State.settled_of_pin hkeeps), hkeeps _ _ rfl, hheld]
  rfl

/-! ### Hold timers (R364, R366) -/

/-- The hold timers of a rule's place that have run out end. -/
def State.holdOver (s : State) (r : Nat) : State :=
  let x := s.wrule r
  let t := { s with heldRules := s.heldRules.filter (fun e => !(e.1 == r && e.2.expired s.time)) }
  if x.expired s.time then t.setWRule r { x with till := none } else t

theorem State.heldRules_touches (s : State) (hs : List (Nat × WRule)) : Touches [.heldRules] s { s with heldRules := hs } :=
  Touches.of_withParts rfl

theorem State.holdOver_spec {s : State} {r : Nat} (h : (s.wrule r).expired s.time = true) :
    let t := s.holdOver r
    t.wrule r = { s.wrule r with till := none } ∧ t.heldRules = s.heldRules.filter (fun e => !(e.1 == r && e.2.expired s.time)) ∧
      Touches [.wrules, .heldRules] s t := by
  unfold State.holdOver
  extract_lets x t u
  have hu : u = t.setWRule r { x with till := none } := if_pos h
  rw [hu]
  refine ⟨smapGet_set_same .., rfl, (State.setWRule_touches ..).after (s.heldRules_touches _).mono⟩

theorem Touches.wrule {ps : List Part} {s t : State} (h : Touches ps s t) (j : Nat)
    (hp : ps.contains .wrules = false := by decide) : t.wrule j = s.wrule j :=
  congrArg (fun m => smapGet _ m j) (show t.wrules = s.wrules from h.same .wrules hp)

/-! ### Clears of outputs: the rows -/

/-- A clear of an output whose readback has been taken. -/
def State.outCleaned (u : State) (n : Nat) (pin : Bool) : Host.Outcome State Fault Refusal :=
  let x := u.outMark n
  if x.fired.map tickOf == some (tickOf u.time) then .next u
  else
    match u.getF .WIO_WOUTSTAT_FAULT n with
    | 0 => .next u
    | 2 =>
      if pin == u.asserted n then .next u
      else .next ((u.setOutMark n { x with cleared := some (u.time, pin, u.bit .WIO_WOUTSTAT_EXTLOW n) }).outClear n)
    | _ => .next (u.outClear n)

theorem execWatchOutputClear_eq (now : Nat) (n : Fin 8) (pin : Bool) (s : State) :
    exec (.watchOutputClear now n pin) s = ((s.advance now).setB .WIO_WOUTSTAT_PIN n.val pin).outCleaned n.val pin := rfl

section Cleaned
variable {u : State} {n : Nat} {pin : Bool}

/-- In the tick in which a detector fired, without a fault, and while the readback disagrees, a clear does nothing. -/
theorem State.outCleaned_stays (h : (u.outMark n).fired.map tickOf = some (tickOf u.time) ∨ u.getF .WIO_WOUTSTAT_FAULT n = 0 ∨
    (u.getF .WIO_WOUTSTAT_FAULT n = 2 ∧ pin = u.asserted n)) : u.outCleaned n pin = .next u := by
  unfold State.outCleaned
  by_cases hfired : (u.outMark n).fired.map tickOf = some (tickOf u.time)
  · exact if_pos (beq_iff_eq.mpr hfired)
  · refine (if_neg (by simpa using hfired)).trans ?_
    obtain hf0 | ⟨hf2, hpin⟩ := h.resolve_left hfired
    · rw [hf0]
      rfl
    · rw [hf2]
      exact if_pos (beq_iff_eq.mpr hpin)

/-- A clear of a MISMATCH that is let through. -/
theorem State.outCleaned_mismatch (hfired : (u.outMark n).fired.map tickOf ≠ some (tickOf u.time))
    (hf : u.getF .WIO_WOUTSTAT_FAULT n = 2) (hpin : pin ≠ u.asserted n) :
    ∃ c, c.2.1 = pin ∧ u.outCleaned n pin = .next ((u.setOutMark n { u.outMark n with cleared := some c }).outClear n) := by
  refine ⟨(u.time, pin, u.bit .WIO_WOUTSTAT_EXTLOW n), rfl, ?_⟩
  unfold State.outCleaned
  refine (if_neg (by simpa using hfired)).trans ?_
  rw [hf]
  exact if_neg (by simpa using hpin)

/-- A clear of a SHORT that is let through. -/
theorem State.outCleaned_short (hfired : (u.outMark n).fired.map tickOf ≠ some (tickOf u.time))
    (hf : u.getF .WIO_WOUTSTAT_FAULT n = 1) : u.outCleaned n pin = .next (u.outClear n) := by
  unfold State.outCleaned
  refine (if_neg (by simpa using hfired)).trans ?_
  rw [hf]
  rfl

end Cleaned

/-- Outputs are driven as before where a mark alone changes. -/
theorem State.asserted_setOutMark (s : State) (n : Nat) (x : OutMark) (m : Nat) :
    (s.setOutMark n x).asserted m = s.asserted m := by
  have hkeeps : KeepsRegs s (s.setOutMark n x) (fun f _ => settleFields.contains f) := (s.setOutMark_touches n x).regs _
  rw [State.asserted_of_settled (s.setOutMark_touches n x) hkeeps]
  rfl

/-- Settles O32: every row is a few writes and then `wioSettle`, of which the lemmas above say what stands after it. -/
theorem watchPins : Obligations.WatchPins := by
  unfold Obligations.WatchPins
  refine ⟨fun now n s hnow => ⟨?levels, ?disc, ?ready, ?clear, ?noclear, ?config, ?noconfig⟩, ?hold, ?short, ?mismatch, ?outClear, ?force⟩
  case levels =>
    intro a b vb
    refine ⟨fun hdown => if_pos hdown, fun hup => ?_⟩
    obtain ⟨hjudge, hkeeps, hwin, hready⟩ := (((s.advance now).setB .WIO_WINSTAT_A n.val a).setB .WIO_WINSTAT_B n.val
      b).winJudge_spec n.val
    have hset : Touches [.regs] (s.advance now) (((s.advance now).setB .WIO_WINSTAT_A n.val a).setB .WIO_WINSTAT_B n.val b) :=
      (State.setB_touches ..).after (State.setB_touches ..)
    have hbit (v : Bool) : (v.toNat == 1) = v := by cases v <;> rfl
    have ha' := a.toNat_lt
    have hb' := b.toNat_lt
    have hfa : (((s.advance now).setB .WIO_WINSTAT_A n.val a).setB .WIO_WINSTAT_B n.val b).getF .WIO_WINSTAT_A n.val = a.toNat := by
      simp [State.setB, State.getF_setF, Fld.width, Fld.info]
      omega
    have hfb : (((s.advance now).setB .WIO_WINSTAT_A n.val a).setB .WIO_WINSTAT_B n.val b).getF .WIO_WINSTAT_B n.val = b.toNat := by
      simp [State.setB, Fld.width, Fld.info]
      omega
    have hanti : (((s.advance now).setB .WIO_WINSTAT_A n.val a).setB .WIO_WINSTAT_B n.val b).bit .WIO_WINCFG_ANTIV n.val =
        s.bit .WIO_WINCFG_ANTIV n.val := by
      simp [State.bit, State.setB, State.getF_setF]
    have hwa : (((s.advance now).setB .WIO_WINSTAT_A n.val a).setB .WIO_WINSTAT_B n.val b).winA n.val = a := by
      rw [State.winA, State.bit, hfa, hbit]
    have hwb : (((s.advance now).setB .WIO_WINSTAT_A n.val a).setB .WIO_WINSTAT_B n.val b).winB n.val = vb := by
      rw [State.winB, hanti, State.bit, hfb, hbit]
    have hon : (((s.advance now).setB .WIO_WINSTAT_A n.val a).setB .WIO_WINSTAT_B n.val b).winOn n.val = s.winOn n.val := rfl
    rw [hwa, hwb] at hready
    rw [State.winTimed, hwa, hwb, hon, hset.win, show State.time _ = _ from hset.same .time, State.time_advance_of_le hnow] at hwin
    have hsettle (u : State) := u.wioSettle_keepsRegs (s.advance now)
    refine ⟨_, if_neg (by rw [show (s.advance now).wioDown = false from hup]; decide), ?_, ?_, fun h => ?_, ?_, ?_⟩
    · exact (hsettle _ _ _ rfl).trans ((hkeeps _ _ rfl).trans hfa)
    · exact (hsettle _ _ _ rfl).trans ((hkeeps _ _ rfl).trans hfb)
    · exact (hsettle _ _ _ rfl).trans (hready h)
    · rw [(State.wioSettle_touches ..).win, hwin]
      rfl
    · exact ((State.wioSettle_touches ..).after (qs := judgeParts) (hjudge.after hset.mono)).bytes nowhere
  case disc =>
    intro t0 ht0 hlate hclear hup
    have hdiffer : ((s.advance now).win n.val).differ = some t0 := ht0
    obtain ⟨hfault, hcount, harmed⟩ := (s.advance now).discFault_spec n.val
    refine ⟨_, ?_, hfault, hcount, harmed, ((s.advance now).discFault_touches n.val).bytes nowhere⟩
    show execDiscrepancyFault now n s = _
    simp only [execDiscrepancyFault, hdiffer]
    refine if_pos ?_
    rw [State.bit_advance, hclear, show (s.advance now).wioDown = false from hup]
    simp only [Bool.not_false, Bool.and_true]
    exact decide_eq_true (le_max_of_le_right hlate)
  case ready =>
    intro t0 ht0 hlate
    have hsafe : ((s.advance now).win n.val).safe = some t0 := ht0
    show execClrReady now n s = _
    simp only [execClrReady, hsafe]
    exact if_pos (le_max_of_le_right hlate)
  case clear =>
    intro hready hfault
    have hgo : ((s.advance now).bit .WIO_WINSTAT_CLRREADY n.val && (s.advance now).bit .WIO_WINSTAT_FAULT n.val) = true :=
      Bool.and_eq_true_iff.mpr ⟨hready, hfault⟩
    refine ⟨_, if_pos hgo, ?_, ?_, ?_⟩
    · rw [State.wioSettle_keepsRegs _ _ _ _ rfl, (State.setWin_touches ..).getF, State.getF_setF_same]
      rfl
    · exact ((State.wioSettle_touches ..).after (qs := [.regs, .wins, .outMarks])
        ((State.setWin_touches ..).after (State.setF_touches ..).mono)).eq_withParts
    · have hset : KeepsRegs s (((s.advance now).setF .WIO_WINSTAT_FAULT n.val 0).setWin n.val
          { (s.advance now).win n.val with cleared := some (s.advance now).time })
          (fun f i => (f == .WIO_WINSTAT_FAULT && i == n.val) || settleFields.contains f) :=
        ((KeepsRegs.refl (s.advance now) _).setF (by simp) 0).touches (State.setWin_touches ..)
      refine hset.trans ((State.wioSettle_keepsRegs _ _).mono fun f i hf => ?_)
      simp only [Bool.or_eq_false_iff] at hf
      exact hf.2
  case noclear =>
    intro h
    refine if_neg ?_
    show ¬ (s.bit .WIO_WINSTAT_CLRREADY n.val && s.bit .WIO_WINSTAT_FAULT n.val) = true
    rcases h with h | h <;> simp [h]
  case config =>
    intro v hrules hfault
    obtain ⟨hdisc, hanti, hfilt, hconf⟩ := (s.advance now).winConfigured_spec n.val v.toNat
    obtain ⟨htouch, hkeeps⟩ := ((s.advance now).winConfigured n.val v.toNat).settled_winJudge_spec (s.advance now) n.val
    exact ⟨_, execWatchInputConfig_of_free v now hrules hfault, (hkeeps _ _ rfl).trans hdisc, (hkeeps _ _ rfl).trans hanti,
      (hkeeps _ _ rfl).trans hfilt, (htouch.after (qs := judgeParts) hconf.mono).bytes nowhere⟩
  case noconfig =>
    intro v h
    refine if_pos ?_
    show (s.wrules.any (fun e => e.2.valid && e.2.inhibit == n.val) || s.bit .WIO_WINSTAT_FAULT n.val) = true
    rcases h with h | h <;> simp [h]
  case hold =>
    intro now r s e htill hle hnow
    have htime := State.time_advance_of_le hnow
    have hexp : ((s.advance now).wrule r.val).expired (s.advance now).time = true := by
      rw [htime]
      show WRule.expired (s.wrule r.val) now = true
      rw [WRule.expired, htill]
      exact decide_eq_true hle
    obtain ⟨hrule, hheld, hover⟩ := State.holdOver_spec hexp
    have hsettle := ((s.advance now).holdOver r.val).wioSettle_touches (s.advance now)
    refine ⟨(((s.advance now).holdOver r.val).wioSettle (s.advance now)), rfl, (hsettle.wrule _).trans hrule, fun h hin => ?_,
      (hsettle.after (qs := [.regs, .wrules, .heldRules, .outMarks]) hover.mono).eq_withParts,
      (hover.regs _).trans (State.wioSettle_keepsRegs _ _)⟩
    rw [show State.heldRules _ = _ from hsettle.same .heldRules, hheld, htime] at hin
    obtain ⟨hmem, hkeep⟩ := List.mem_filter.mp hin
    refine ⟨hmem, fun hx => ?_⟩
    simp [hx.1, hx.2] at hkeep
  case short =>
    intro now n s hon hsince hnow
    obtain ⟨hfault, -, hcount, hoff, htouch⟩ := (s.advance now).outFault_spec n.val (fault := 1) (by decide) false
    refine ⟨_, if_pos (Bool.and_eq_true_iff.mpr ⟨hon, decide_eq_true ?_⟩), hfault, hoff rfl, hcount, htouch.bytes nowhere⟩
    rw [State.time_advance_of_le hnow]
    exact hsince
  case mismatch =>
    intro now n pin s hset hup hclear hpin hsince hnow
    have hpinned := (s.advance now).setB_touches .WIO_WOUTSTAT_PIN n.val pin
    obtain ⟨hfault, hext, -, -, htouch⟩ := ((s.advance now).setB .WIO_WOUTSTAT_PIN n.val pin).outFault_spec n.val (fault := 2)
      (by decide) (!(((s.advance now).setB .WIO_WOUTSTAT_PIN n.val pin).asserted n.val))
    refine ⟨_, if_pos ?_, hfault, ?_, (htouch.after (qs := faultParts) hpinned.mono).bytes nowhere⟩
    · rw [show State.time _ = _ from hpinned.same .time, State.time_advance_of_le hnow, State.asserted_setB_pin, ← hpin,
        State.setB, State.getF_setF_ne _ _ (by simp)]
      simp only [Bool.and_eq_true, decide_eq_true_eq, beq_self_eq_true, and_true]
      exact ⟨⟨⟨hset, by rw [show (s.advance now).wioDown = false from hup]; rfl⟩, hclear⟩, hsince⟩
    · rw [hext, State.asserted_setB_pin, ← hpin]
  case outClear =>
    intro now n pin s x f moved
    have hpinned := (s.advance now).setB_touches .WIO_WOUTSTAT_PIN n.val pin
    have hasserted := (s.advance now).asserted_setB_pin n.val pin n.val
    have hfault : ((s.advance now).setB .WIO_WOUTSTAT_PIN n.val pin).getF .WIO_WOUTSTAT_FAULT n.val = f :=
      State.getF_setF_ne _ _ (by simp)
    have hmark : ((s.advance now).setB .WIO_WOUTSTAT_PIN n.val pin).outMark n.val = x := hpinned.outMark n.val
    have htime : ((s.advance now).setB .WIO_WOUTSTAT_PIN n.val pin).time = max s.time now := hpinned.same .time
    rw [execWatchOutputClear_eq]
    have hmoved {t : State} (h : Touches settleParts ((s.advance now).setB .WIO_WOUTSTAT_PIN n.val pin) t) : moved t :=
      (h.after (qs := [.regs, .outMarks]) hpinned.mono).eq_withParts
    clear_value f x moved
    generalize (s.advance now).setB .WIO_WOUTSTAT_PIN n.val pin = u at *
    rw [← hmark, ← htime, ← hfault, ← hasserted]
    refine ⟨State.outCleaned_stays, fun hfired hclear => ?_⟩
    obtain ⟨hf2, hpin⟩ | ⟨hf1, hold⟩ := hclear
    · obtain ⟨c, hc, hgo⟩ := State.outCleaned_mismatch hfired hf2 hpin
      have hset := u.setOutMark_touches n.val { u.outMark n.val with cleared := some c }
      refine ⟨_, hgo, State.fault_outClear fun d hd => ?_, hmoved ((State.outClear_touches ..).after hset.mono)⟩
      rw [State.outMark_setOutMark_same] at hd
      have hdc : c = d := Option.some.inj hd
      have hne : (u.setOutMark n.val { u.outMark n.val with cleared := some c }).getF .WIO_WOUTSTAT_FAULT n.val ≠ 1 := by
        rw [hset.getF, hf2]
        decide
      have hmono := State.asserted_outCleared hne
      rw [State.asserted_setOutMark] at hmono ⊢
      revert hmono
      cases ((u.setOutMark n.val { u.outMark n.val with cleared := some c }).outCleared n.val).asserted n.val <;>
        cases u.asserted n.val <;> simp
    · refine ⟨_, State.outCleaned_short hfired hf1, State.fault_outClear fun c hc => ?_, hmoved (State.outClear_touches ..)⟩
      rcases hold c hc with h | h
      · rw [beq_eq_false_iff_ne.mpr h]
        simp
      · rw [h, Bool.and_false]
  case force =>
    intro now n v s
    have hset := (s.advance now).setB_touches .WIO_WOUTCFG_FORCE n.val v
    have hsettle := ((s.advance now).setB .WIO_WOUTCFG_FORCE n.val v).wioSettle_touches (s.advance now)
    have hkeeps := ((s.advance now).setB .WIO_WOUTCFG_FORCE n.val v).wioSettle_keepsRegs (s.advance now)
    have hv := v.toNat_lt
    have hforce : ((s.advance now).setB .WIO_WOUTCFG_FORCE n.val v).getF .WIO_WOUTCFG_FORCE n.val = v.toNat := by
      simp [State.setB, Fld.width, Fld.info]
      omega
    refine ⟨_, rfl, (hkeeps _ _ rfl).trans hforce, (hsettle.after (qs := [.regs, .outMarks]) hset.mono).eq_withParts,
      fun hon hfault hup hv => ?_⟩
    have hne := State.fault_wioSettle_ne_one (s := (s.advance now).setB .WIO_WOUTCFG_FORCE n.val v) (s.advance now) (n := n.val)
      (by rwa [State.setB, State.getF_setF_ne _ _ (by simp)])
    have hbit : ((s.advance now).setB .WIO_WOUTCFG_FORCE n.val v).bit .WIO_WOUTCFG_FORCE n.val = true := by
      rw [State.bit, hforce, hv]
      rfl
    have hup' : ((s.advance now).setB .WIO_WOUTCFG_FORCE n.val v).wioDown = false := Eq.trans (hset.same .wioDown) hup
    rw [State.asserted_of_settled hsettle hkeeps, hbit, hset.setting, hup', Bool.true_or, Bool.true_or, Bool.and_true,
      Bool.not_false, Bool.and_true]
    exact Bool.and_eq_true_iff.mpr ⟨hon, bne_iff_ne.mpr hne⟩

end Sys2Proof.Machine
end

section
/-!
PROOF. Register writes of the physical function (R7, R25, O8).
-/

set_option Elab.async false

namespace Sys2Proof.Machine
open Sys2Proof

/-! ### A write of a register, field by field (R7) -/

/-- What a write makes of one field: nothing, or one value. -/
theorem State.writeFld_cases (s : State) (m : Nat) (t : State) (f : Fld) (i v : Nat) :
    s.writeFld m t f i v = t ∨ (f.info.acc ≠ .ro ∧ ∃ x, s.writeFld m t f i v = t.setF f i x) := by
  unfold State.writeFld
  dsimp only
  split
  · exact .inl rfl
  · split
    · next h => exact .inr ⟨by rw [h]; decide, _, rfl⟩
    · next h => exact .inr ⟨by rw [h]; decide, _, rfl⟩
    · next h =>
      split
      · exact .inr ⟨by rw [h]; decide, _, rfl⟩
      · exact .inl rfl
    · next h =>
      split
      · exact .inr ⟨by rw [h]; decide, _, rfl⟩
      · exact .inl rfl
    · exact .inl rfl

/-- A field that may be written, is not locked and has no row of its own takes its bits. -/
theorem State.writeFld_of_rw {s : State} {m i : Nat} {f : Fld} (hacc : f.info.acc = .rw ∨ f.info.acc = .rwl)
    (hown : f.info.own = false) (hfree : s.writeLocked m f i = false) (t : State) (v : Nat) :
    s.writeFld m t f i v = t.setF f i (storedAs f i (bits v f.info.hi f.info.lo)) := by
  unfold State.writeFld
  simp only [hown, hfree, Bool.or_self, Bool.false_eq_true, if_false]
  rcases hacc with h | h <;> rw [h]

section Write
variable (s : State) (m : Nat) (r : Reg) (i v : Nat)

theorem State.writeFlds_touches (t : State) : Touches [.regs] t (r.fields.foldl (fun t f => s.writeFld m t f i v) t) := by
  refine Touches.foldl _ (fun u f => ?_) _ t
  obtain h | ⟨-, x, h⟩ := s.writeFld_cases m u f i v
  · rw [h]; exact Touches.refl _ u
  · rw [h]; exact u.setF_touches ..

/-- Registers other than the one written are kept. -/
theorem State.writeFlds_keepsRegs (t : State) :
    KeepsRegs t (r.fields.foldl (fun t f => s.writeFld m t f i v) t) (fun f j => r.fields.contains f && j == i) := by
  have hall : ∀ f ∈ r.fields, ∀ u : State, KeepsRegs u (s.writeFld m u f i v) (fun f j => r.fields.contains f && j == i) := by
    intro f hf u
    obtain h | ⟨-, x, h⟩ := s.writeFld_cases m u f i v
    · rw [h]; exact KeepsRegs.refl u _
    · rw [h]
      exact (KeepsRegs.refl u _).setF (by rw [List.contains_iff_mem.mpr hf, beq_self_eq_true]; rfl) x
  exact List.foldlRecOn (motive := fun u => KeepsRegs t u (fun f j => r.fields.contains f && j == i)) _ _ (KeepsRegs.refl t _)
    (fun u hu f hf => hu.trans (hall f hf u))

/-- Read-only fields are kept. -/
theorem State.getF_writeFlds_of_ro {f : Fld} (hf : f.info.acc = .ro) (t : State) (j : Nat) :
    (r.fields.foldl (fun t f => s.writeFld m t f i v) t).getF f j = t.getF f j := by
  refine List.foldlRecOn (motive := fun u : State => u.getF f j = t.getF f j) _ _ rfl (fun u hu g _ => ?_)
  obtain h | ⟨hacc, x, h⟩ := s.writeFld_cases m u g i v
  · rwa [h]
  · rw [h, State.getF_setF_ne _ _ (by rintro ⟨rfl, -⟩; exact hacc hf), hu]

variable {s m r i v}

/-- A field that takes its bits holds them at the end of the write. -/
theorem State.getF_writeFlds {f : Fld} (hf : f ∈ r.fields) (hacc : f.info.acc = .rw ∨ f.info.acc = .rwl)
    (hown : f.info.own = false) (hfree : s.writeLocked m f i = false) (t : State) :
    (r.fields.foldl (fun t f => s.writeFld m t f i v) t).getF f i =
      storedAs f i (bits v f.info.hi f.info.lo) % 2 ^ f.width := by
  have hset (u : State) : (s.writeFld m u f i v).getF f i = storedAs f i (bits v f.info.hi f.info.lo) % 2 ^ f.width := by
    rw [State.writeFld_of_rw hacc hown hfree, State.getF_setF_same]
  refine foldl_establishes (fun t f => s.writeFld m t f i v) (fun u => u.getF f i = _) (fun u g hu => ?_) hf hset t
  by_cases hgf : g = f
  · subst hgf
    exact hset u
  · obtain h | ⟨-, x, h⟩ := s.writeFld_cases m u g i v
    · rwa [h]
    · rw [h, State.getF_setF_ne _ _ (fun hx => hgf hx.1), hu]

end Write

theorem State.trackers_touches (s : State) (m : SMap Tracker) : Touches [.trackers] s { s with trackers := m } :=
  Touches.of_withParts rfl

theorem State.writeLocked_trackers (s : State) (x : SMap Tracker) (m : Nat) (f : Fld) (i : Nat) :
    ({ s with trackers := x } : State).writeLocked m f i = s.writeLocked m f i := rfl

/-- Sweep buckets brought up to date (R266): the trackers alone. -/
theorem State.sweepSettle_eq (s : State) : ∃ x, s.sweepSettle = { s with trackers := x } := by
  unfold State.sweepSettle
  exact ⟨_, rfl⟩

theorem State.sweepSettle_touches (s : State) : Touches [.trackers] s s.sweepSettle := by
  obtain ⟨x, hx⟩ := s.sweepSettle_eq
  rw [hx]
  exact s.trackers_touches x

theorem State.writeLocked_sweepSettle (s : State) (m : Nat) (f : Fld) (i : Nat) :
    s.sweepSettle.writeLocked m f i = s.writeLocked m f i := by
  obtain ⟨x, hx⟩ := s.sweepSettle_eq
  rw [hx]
  exact s.writeLocked_trackers x m f i

/-- A write of a whole register of the physical function, outside the windows of functions. -/
theorem exec_registerWrite_of_reg {s : State} {off : BitVec 26} {r : Reg} {i : Nat} (now : Nat) (v : Word)
    (halign : off.toNat % 4 = 0) (hperst : s.perst = false) (hon : s.bar0On off.toNat = true) (hwin : pfWindow off.toNat = none)
    (hreg : regAt off.toNat = some (r, i)) :
    exec (.registerWrite now 0 off v 0xF#4 false) s = .next ((s.advance now).writeReg 0x20 r i v.toNat) := by
  refine congrArg Host.Outcome.next ((State.hosted_advance_pf hperst now _).trans ?_)
  show (if beyondWindow 0 off.toNat then (s.advance now).emit .unsupported
    else if false then s.advance now
    else if 0xF#4 != 0xF#4 || off.toNat % 4 != 0 then (s.advance now).accErr 2 true 0x20 false off.toNat
    else (s.advance now).pfWrite 0x20 off.toNat v.toNat) = _
  rw [if_neg (by simp [beyondWindow]), if_neg (by decide), if_neg (by simp [halign]), State.pfWrite,
    if_neg (by simp [hon]), hwin, hreg]

/-- Settles O8: the write is a fold over the fields of its register. -/
theorem registerWriteStores : Obligations.RegisterWriteStores := by
  unfold Obligations.RegisterWriteStores
  refine ⟨?stores, ?captured⟩
  case stores =>
    intro now off v s r i halign hperst hon hwin hreg
    rw [exec_registerWrite_of_reg now v halign hperst hon hwin hreg]
    unfold State.writeReg
    extract_lets u
    have hu : Touches [.trackers] (s.advance now) u := Touches.ite _ (State.sweepSettle_touches _) (Touches.refl _ _)
    have hlock (f : Fld) : u.writeLocked 0x20 f i = (s.advance now).writeLocked 0x20 f i := by
      unfold u
      split
      · exact State.writeLocked_sweepSettle ..
      · rfl
    have hother (hr : r ≠ .WLD_SWEEPCFG) : u = s.advance now := if_neg hr
    clear_value u
    have hflds := u.writeFlds_touches 0x20 r i v.toNat u
    refine ⟨_, rfl, fun f hf hacc hown hfree => ?_, fun f hf => ?_, ?_, (hflds.after (qs := [.regs, .trackers]) hu.mono).eq_withParts,
      fun hr => ?_⟩
    · exact State.getF_writeFlds hf hacc hown ((hlock f).trans hfree) u
    · exact (u.getF_writeFlds_of_ro 0x20 r i v.toNat hf u i).trans (hu.getF f i)
    · exact KeepsRegs.trans (hu.regs _) (u.writeFlds_keepsRegs 0x20 r i v.toNat u)
    · rw [show State.trackers _ = _ from hflds.same .trackers, hother hr]
      rfl
  case captured =>
    intro now off v be s hbad hperst hon hclear
    have hexec : exec (.registerWrite now 0 off v be false) s = .next ((s.advance now).accErr 2 true 0x20 false off.toNat) := by
      refine congrArg Host.Outcome.next ((State.hosted_advance_pf hperst now _).trans ?_)
      show (if beyondWindow 0 off.toNat then (s.advance now).emit .unsupported
        else if false then s.advance now
        else if be != 0xF#4 || off.toNat % 4 != 0 then (s.advance now).accErr 2 true 0x20 false off.toNat
        else (s.advance now).pfWrite 0x20 off.toNat v.toNat) = _
      rw [if_neg (by simp [beyondWindow]), if_neg (by decide), if_pos]
      rcases hbad with h | h <;> simp [h]
    have hv : (s.advance now).bit .GCTL_ACCERR_VALID 0 = false := hclear
    have hoff := off.isLt
    refine ⟨_, hexec, (State.accErr_touches ..).eq_withParts, State.getF_accErr_valid hv .., State.getF_accErr_kind hv ..,
      State.getF_accErr_write hv .., ?_⟩
    rw [State.getF_accErr_offset hv]
    omega

end Sys2Proof.Machine
end

section
/-!
PROOF. Paired and indirect reads, and writes through the indirect port (R9, R299, R300, O10).
-/

set_option Elab.async false

namespace Sys2Proof.Machine
open Sys2Proof

/-! ### Reads of registers (R9, R299, R300) -/

theorem plainOffset_iff {off : Nat} : plainOffset off = true ↔ off % 4 = 0 ∧ pfWindow off = none ∧
    (off < 0x640000 ∨ (0x680000 ≤ off ∧ off < 0x2000000)) ∧ ¬ (0xB02000 ≤ off ∧ off < 0xB03000) := by
  simp only [plainOffset, Bool.and_eq_true, beq_iff_eq, Option.isNone_iff_eq_none, Bool.or_eq_true, decide_eq_true_eq,
    Bool.not_eq_true', Bool.and_eq_false_imp, decide_eq_false_iff_not, not_and, and_assoc]

/-- A read of a register that stands in BAR0 alone: a low register of a pair latches the word above it, and a latched word is
returned. -/
theorem State.readAt_of_plain {s : State} {off : Nat} {r : Reg} {i : Nat} (hplain : plainOffset off = true)
    (hon : s.bar0On off = true) (hreg : regAt off = some (r, i)) (hr : r ≠ .OBS_TW_STAT) (m : Nat) :
    s.readAt m off =
      if lowRegs.contains r then ({ s with latches := smapSet 0 s.latches (off + 4) (s.liveWord (off + 4) + 1) }, s.readReg r i)
      else (s, if smapGet 0 s.latches off = 0 then s.readReg r i else smapGet 0 s.latches off - 1) := by
  obtain ⟨-, hwin, hsett, hpoint⟩ := plainOffset_iff.mp hplain
  unfold State.readAt
  rw [if_neg (by simp [hon]), if_neg (by simp only [Bool.and_eq_true, decide_eq_true_eq]; omega),
    if_neg (by simp only [Bool.and_eq_true, decide_eq_true_eq]; omega), hwin]
  simp only [hreg, hr, if_false, Bool.and_eq_true, decide_eq_true_eq, if_neg hpoint]
  split
  · rfl
  · by_cases hl : smapGet 0 s.latches off = 0
    · simp [hl]
    · simp [hl]

section Port
variable {s : State} {t : Fin 128} (hperst : s.perst = false) (hen : (s.fnst (t.val + 1)).enabled = true)
  (hflr : (s.fnst (t.val + 1)).flr = none) (now : Nat)
include hperst hen hflr

/-- What an enabled virtual function does over its BARs is done at the time of the occurrence. -/
theorem State.hosted_advance_vf (f : State → State) : (s.advance now).hosted (t.val + 1) f = f (s.advance now) :=
  State.hosted_of _ _ _ ⟨hperst, .inr ⟨hen, hflr⟩⟩

theorem exec_indirectRead {r : Reg} {i : Nat} (hreg : regAt (s.iaddr (t.val + 1)) = some (r, i)) :
    exec (.indirectRead now t) s = .next
      (let x := if (s.advance now).mayRead (t.val + 1) r i then (s.advance now).readAt (fnMaster (t.val + 1)) (s.iaddr (t.val + 1))
        else ((s.advance now).denied (t.val + 1), 0)
      x.1.emit (.readWord x.2)) := by
  refine congrArg Host.Outcome.next ((State.hosted_advance_vf hperst hen hflr now _).trans ?_)
  have haddr : (s.advance now).iaddr (t.val + 1) = s.iaddr (t.val + 1) := rfl
  simp only [State.indirectRead, haddr, hreg]

theorem exec_indirectWrite {r : Reg} {i : Nat} (hreg : regAt (s.iaddr (t.val + 1)) = some (r, i)) (v : Word) :
    exec (.indirectWrite now t v) s = .next ((s.advance now).indirect (t.val + 1) r i v.toNat) := by
  refine congrArg Host.Outcome.next ((State.hosted_advance_vf hperst hen hflr now _).trans ?_)
  have haddr : (s.advance now).iaddr (t.val + 1) = s.iaddr (t.val + 1) := rfl
  simp only [haddr, hreg]

end Port

theorem State.denied_of_tenant (s : State) (t : Nat) : s.denied (t + 1) = s.addHold .TENV_STAT_DENIED (t + 1) 1 :=
  if_neg (Nat.succ_ne_zero t)

/-- A register that no tenant's write reaches (R300). -/
theorem State.indirect_of_other {r : Reg} (h : ¬ (r = .CSQ_TH_CTL ∨ r = .OWL_SCTL ∨ r = .POS_CTX_CFG ∨ r = .POS_TRG_CFG ∨
    r = .POS_TRG_VALL ∨ r = .POS_TRG_VALH ∨ r = .POS_TRG_PERIOD)) (s : State) (t i v : Nat) : s.indirect t r i v = s.denied t := by
  unfold State.indirect
  split
  · exact absurd (.inl rfl) h
  · exact absurd (.inr (.inl rfl)) h
  · exact absurd (.inr (.inr (.inl rfl))) h
  · exact absurd (.inr (.inr (.inr (.inl rfl)))) h
  · exact absurd (.inr (.inr (.inr (.inr (.inl rfl))))) h
  · exact absurd (.inr (.inr (.inr (.inr (.inr (.inl rfl)))))) h
  · exact absurd (.inr (.inr (.inr (.inr (.inr (.inr rfl)))))) h
  · rfl

/-- Settles O10: both reads come down to `readAt` of a plain offset, the writes to the branch of their register. -/
theorem pairedAndIndirectReads : Obligations.PairedAndIndirectReads := by
  unfold Obligations.PairedAndIndirectReads
  refine ⟨?paired, ?port⟩
  case paired =>
    intro now off s r i hplain hperst hon hreg hr
    have hexec : exec (.pairedValueRead now ⟨0, off⟩) s =
        .next (((s.advance now).readAt 0x20 off.toNat).1.emit (.readWord ((s.advance now).readAt 0x20 off.toNat).2)) := by
      refine congrArg Host.Outcome.next ((State.hosted_advance_pf hperst now _).trans ?_)
      have halign : off.toNat / 4 * 4 = off.toNat := by
        have := (plainOffset_iff.mp hplain).1
        omega
      dsimp only
      rw [halign]
      exact if_neg (by simp [beyondWindow])
    rw [hexec, State.readAt_of_plain (s := s.advance now) hplain hon hreg hr]
    refine ⟨fun hlow => ?_, fun hhigh => ?_⟩
    · rw [if_pos hlow]
      rfl
    · rw [if_neg (by rw [hhigh]; decide)]
      rfl
  case port =>
    intro now t s r i hperst hen hflr hreg
    rw [exec_indirectRead hperst hen hflr now hreg]
    have hwrite := exec_indirectWrite hperst hen hflr now hreg
    refine ⟨fun hno => ?_, fun hmay hon hplain hr hlow => ?_, fun v hctx => ?_, fun v htrg => ?_, fun v hctl hmay => ?_,
      fun v hctl hmay => ?_, fun v hother => ?_⟩
    · rw [hno, State.denied_of_tenant]
      rfl
    · rw [hmay, if_pos rfl, State.readAt_of_plain (s := s.advance now) hplain hon hreg hr, if_neg (by rw [hlow]; decide)]
      rfl
    · rw [hwrite, hctx]
      rfl
    · rw [hwrite, htrg]
      rfl
    · rw [hwrite, hctl]
      exact congrArg _ (if_pos hmay)
    · rw [hwrite, hctl, ← State.denied_of_tenant]
      exact congrArg _ (if_neg (by rw [hmay]; decide))
    · rw [hwrite, State.indirect_of_other hother, State.denied_of_tenant]

end Sys2Proof.Machine
end

section
/-!
PROOF. Accesses over BAR2 (R26, R28, R175, R176, R296, R298, O11).
-/

set_option Elab.async false

namespace Sys2Proof.Machine
open Sys2Proof

/-! ### Words without error (R175, R176) -/

/-- The words of a range that holds bytes. -/
theorem mem_wordsOf {a n w : Nat} (h : 0 < n) : w ∈ wordsOf a n ↔ a / 8 ≤ w ∧ w ≤ (a + n - 1) / 8 := by
  rw [wordsOf, if_neg (Nat.pos_iff_ne_zero.mp h), List.mem_range'_1]
  omega

/-- A read of words without error does nothing beside returning their bytes. -/
theorem State.readEcc_of_clean {s : State} {a n : Nat} (h : ∀ w ∈ wordsOf a n, s.syndrome w = 0) (m : Nat) :
    s.readEcc m a n = s := by
  unfold State.readEcc
  refine List.foldlRecOn (motive := fun t => t = s) _ _ rfl ?_
  rintro t rfl w hw
  exact if_pos (h w hw)

theorem State.readsPoison_of_clean {s : State} {a n : Nat} (h : ∀ w ∈ wordsOf a n, s.syndrome w = 0) :
    s.readsPoison a n = false := by
  simp only [State.readsPoison, List.any_eq_false]
  intro w hw
  rw [h w hw]
  decide

theorem State.syndrome_mark (s : State) (w v k : Nat) : (s.mark w v).syndrome k = if w = k then v else s.syndrome k :=
  smapGet_set ..

/-- A write into a word without error writes its bytes, with new check bits. -/
theorem State.writeWord_of_clean {s : State} {w : Nat} (h : s.syndrome w = 0) (m a : Nat) (bs : List Byte) :
    s.writeWord m w a bs = ({ s with sram := setBytes s.sram a bs }.mark w 0, false) := by
  unfold State.writeWord
  exact if_pos (by simp [h])

theorem State.byte_setBytes (s : State) (a : Nat) (bs : List Byte) (j : Nat) :
    ({ s with sram := setBytes s.sram a bs } : State).byte j =
      if a ≤ j ∧ j < a + bs.length then bs.getD (j - a) 0 else s.byte j := smapGet_setBytes ..

/-- The part of a write that lies in one word: which bytes it takes, and their values. -/
theorem bytesIn_spec (a : Nat) (bs : List Byte) (w j : Nat) :
    ((bytesIn a bs w).1 ≤ j ∧ j < (bytesIn a bs w).1 + (bytesIn a bs w).2.length ↔
      (a ≤ j ∧ j < a + bs.length) ∧ j / 8 = w) ∧
    ((bytesIn a bs w).1 ≤ j → j < (bytesIn a bs w).1 + (bytesIn a bs w).2.length →
      (bytesIn a bs w).2.getD (j - (bytesIn a bs w).1) 0 = bs.getD (j - a) 0) := by
  unfold bytesIn
  simp only [List.length_take, List.length_drop]
  refine ⟨by omega, fun hlo hhi => ?_⟩
  have hsum : max a (8 * w) - a + (j - max a (8 * w)) = j - a := by omega
  rw [List.getD_eq_getElem?_getD, List.getElem?_take_of_lt (by omega), List.getElem?_drop, hsum, List.getD_eq_getElem?_getD]

/-! ### Writes of ranges without error -/

/-- One word of a write, none of whose words is skipped. -/
def State.writePart (m a : Nat) (bs : List Byte) (r : State × Bool) (w : Nat) : State × Bool :=
  ((r.1.writeWord m w (bytesIn a bs w).1 (bytesIn a bs w).2).1, r.2 || (r.1.writeWord m w (bytesIn a bs w).1 (bytesIn a bs w).2).2)

theorem State.writeParts_of_clean (m a : Nat) (bs : List Byte) (ws : List Nat) (s : State) (h : ∀ w ∈ ws, s.syndrome w = 0) :
    let r := ws.foldl (State.writePart m a bs) (s, false)
    r.2 = false ∧ Touches [.sram, .ecc] s r.1 ∧ (∀ w ∈ ws, r.1.syndrome w = 0) ∧ (∀ w, s.syndrome w = 0 → r.1.syndrome w = 0) ∧
      ∀ j, r.1.byte j = if (a ≤ j ∧ j < a + bs.length) ∧ j / 8 ∈ ws then bs.getD (j - a) 0 else s.byte j := by
  induction ws generalizing s with
  | nil => exact ⟨rfl, Touches.refl _ s, fun w hw => absurd hw (by simp), fun w hw => hw, fun j => by simp⟩
  | cons w ws ih =>
    obtain ⟨hw, hws⟩ := List.forall_mem_cons.mp h
    have hstep : State.writePart m a bs (s, false) w =
        ({ s with sram := setBytes s.sram (bytesIn a bs w).1 (bytesIn a bs w).2 }.mark w 0, false) := by
      unfold State.writePart
      rw [State.writeWord_of_clean hw]
      rfl
    have hset : Touches [.sram, .ecc] s ({ s with sram := setBytes s.sram (bytesIn a bs w).1 (bytesIn a bs w).2 }.mark w 0) :=
      (State.mark_touches ..).after (s.sram_touches _).mono
    have hsyn (k : Nat) (hk : s.syndrome k = 0) :
        ({ s with sram := setBytes s.sram (bytesIn a bs w).1 (bytesIn a bs w).2 }.mark w 0).syndrome k = 0 := by
      rw [State.syndrome_mark]
      split
      · rfl
      · exact hk
    have hbyte (j : Nat) : ({ s with sram := setBytes s.sram (bytesIn a bs w).1 (bytesIn a bs w).2 }.mark w 0).byte j =
        if (a ≤ j ∧ j < a + bs.length) ∧ j / 8 = w then bs.getD (j - a) 0 else s.byte j := by
      obtain ⟨hiff, hval⟩ := bytesIn_spec a bs w j
      refine (s.byte_setBytes (bytesIn a bs w).1 (bytesIn a bs w).2 j).trans ?_
      by_cases hin : (bytesIn a bs w).1 ≤ j ∧ j < (bytesIn a bs w).1 + (bytesIn a bs w).2.length
      · rw [if_pos hin, if_pos (hiff.mp hin), hval hin.1 hin.2]
      · rw [if_neg hin, if_neg (fun hx => hin (hiff.mpr hx))]
    rw [List.foldl_cons, hstep]
    obtain ⟨hflag, htouch, hclean, hkeep, hbytes⟩ := ih _ fun k hk => hsyn k (hws k hk)
    refine ⟨hflag, hset.trans htouch, List.forall_mem_cons.mpr ⟨hkeep w (hsyn w hw), hclean⟩, fun k hk => hkeep k (hsyn k hk),
      fun j => ?_⟩
    rw [hbytes j, hbyte j]
    by_cases hin : a ≤ j ∧ j < a + bs.length
    · by_cases hj : j / 8 = w
      · simp [hin, hj]
      · simp [hin, hj]
    · simp [hin]

/-- A write of a range without error, none of whose words is skipped: its bytes, and no other. -/
theorem State.writeMem_of_clean {s : State} {skip : Nat → Bool} {a : Nat} {bs : List Byte}
    (h : ∀ w ∈ wordsOf a bs.length, s.syndrome w = 0 ∧ skip (8 * w) = false) (m : Nat) :
    let r := s.writeMem m skip a bs
    r.2 = false ∧ Touches [.sram, .ecc] s r.1 ∧ (∀ w ∈ wordsOf a bs.length, r.1.syndrome w = 0) ∧
      ∀ j, r.1.byte j = if a ≤ j ∧ j < a + bs.length then bs.getD (j - a) 0 else s.byte j := by
  have hparts : s.writeMem m skip a bs = (wordsOf a bs.length).foldl (State.writePart m a bs) (s, false) :=
    List.foldl_ext _ _ _ fun r w hw => if_neg (by simp [(h w hw).2])
  rw [hparts]
  obtain ⟨hflag, htouch, hclean, -, hbytes⟩ := State.writeParts_of_clean m a bs (wordsOf a bs.length) s fun w hw => (h w hw).1
  refine ⟨hflag, htouch, hclean, fun j => ?_⟩
  rw [hbytes j]
  by_cases hin : a ≤ j ∧ j < a + bs.length
  · have hmem : j / 8 ∈ wordsOf a bs.length := (mem_wordsOf (by omega)).mpr (by omega)
    simp [hin, hmem]
  · simp [hin]

/-! ### Host-fed rings (R163) -/

theorem State.setSlot_keepsRegs (s : State) (r : SlotRef) (v : Nat) :
    KeepsRegs s (s.setSlot r v) (fun f _ => [Fld.KMC_SLOT_STATE, .CMC_SLOT_STATE].contains f) :=
  KeepsRegs.ite _ ((KeepsRegs.refl s _).setF rfl v) ((KeepsRegs.refl s _).setF rfl v)

/-- The parts that filling a host-fed ring touches. -/
def fillParts : List Part := [.regs, .rings]

theorem State.hostFill_spec (s : State) (a n : Nat) (e : Nat × Ring) : Touches fillParts s (s.hostFill a n e) ∧
    KeepsRegs s (s.hostFill a n e) (fun f _ => [Fld.KMC_SLOT_STATE, .CMC_SLOT_STATE].contains f) := by
  unfold State.hostFill
  extract_lets h r lo u
  have hu : Touches fillParts s u := Touches.ite _ (s.setSlot_touches ..).mono (Touches.refl _ s)
  have huk : KeepsRegs s u (fun f _ => [Fld.KMC_SLOT_STATE, .CMC_SLOT_STATE].contains f) :=
    KeepsRegs.ite _ (s.setSlot_keepsRegs _ _) (KeepsRegs.refl s _)
  clear_value u
  constructor
  · exact Touches.ite _ (Touches.refl _ s) (Touches.ite _ ((State.stepWr_touches ..).after ((State.setSlot_touches ..).after hu)) hu)
  · exact KeepsRegs.ite _ (KeepsRegs.refl s _) (KeepsRegs.ite _ ((huk.trans (State.setSlot_keepsRegs _ _ _)).touches
      (State.stepWr_touches ..)) huk)

theorem State.hostFed_spec (s : State) (a n : Nat) : Touches fillParts s (s.hostFed a n) ∧
    KeepsRegs s (s.hostFed a n) (fun f _ => [Fld.KMC_SLOT_STATE, .CMC_SLOT_STATE].contains f) :=
  ⟨Touches.foldl _ (fun t e => (t.hostFill_spec a n e).1) _ s, KeepsRegs.foldl _ (fun t e => (t.hostFill_spec a n e).2) _ s⟩

/-- Where no ring is fed by the host, nothing is filled. -/
theorem State.hostFed_of_none {s : State} (h : ∀ e, e ∈ s.rings → (s.ring (SlotRef.ofKey e.1)).prod ≠ 4096) (a n : Nat) :
    s.hostFed a n = s := by
  unfold State.hostFed
  refine List.foldlRecOn (motive := fun t => t = s) _ _ rfl ?_
  rintro t rfl e he
  exact if_pos (by simp [h e he])

/-! ### The rows -/

theorem bar2Range_fits {off len most : Nat} (h : bar2Range off len most = true) : ¬ 0x8000000 < off + len := by
  simp only [bar2Range, Bool.and_eq_true, decide_eq_true_eq] at h
  omega

/-- A write of the physical function into memory that is on and without error. -/
theorem exec_bar2Write_of_clean {s : State} {off : BitVec 27} {data : List Byte} (now : Nat)
    (hrange : bar2Range off.toNat data.length 512 = true) (hperst : s.perst = false)
    (hon : s.rangeOn off.toNat data.length = true)
    (hclean : ∀ w, w ∈ wordsOf off.toNat data.length → s.syndrome w = 0 ∧ guarded (8 * w) = false) :
    exec (.bar2Write now 0 off data false) s =
      .next (((s.advance now).writeMem 0x20 guarded off.toNat data).1.hostFed off.toNat data.length) := by
  refine congrArg Host.Outcome.next ((State.hosted_advance_pf hperst now _).trans ?_)
  show (s.advance now).bar2Write 0x20 0 off.toNat data false = _
  obtain ⟨hflag, -⟩ := State.writeMem_of_clean (s := s.advance now) hclean 0x20
  have hon' : (s.advance now).rangeOn off.toNat data.length = true := hon
  unfold State.bar2Write
  rw [if_neg (bar2Range_fits hrange), if_neg (by simp [State.bar2May]), if_neg (by simp [hon'])]
  simp only [Bool.false_eq_true, if_false, hflag]
  rfl

/-- Settles O11: without errors a read returns its bytes, and a write is its words and then the rings it feeds. -/
theorem bar2Accesses : Obligations.Bar2Accesses := by
  unfold Obligations.Bar2Accesses
  refine ⟨?read, ?write, ?denied⟩
  case read =>
    intro now off len s hrange hperst hon hclean
    refine congrArg Host.Outcome.next ((State.hosted_advance_pf hperst now _).trans ?_)
    show (s.advance now).bar2Read 0x20 0 off.toNat len = _
    have hon' : (s.advance now).rangeOn off.toNat len = true := hon
    have hclean' : ∀ w ∈ wordsOf off.toNat len, (s.advance now).syndrome w = 0 := hclean
    unfold State.bar2Read
    rw [if_neg (bar2Range_fits hrange), if_neg (by simp [State.bar2May]), if_neg (by simp [hon']),
      State.readEcc_of_clean hclean', State.readsPoison_of_clean hclean']
    rfl
  case write =>
    intro now off data s hrange hperst hon hclean
    obtain ⟨-, htouch, hsyn, hbytes⟩ := State.writeMem_of_clean (s := s.advance now) hclean 0x20
    obtain ⟨hfed, hslots⟩ := ((s.advance now).writeMem 0x20 guarded off.toNat data).1.hostFed_spec off.toNat data.length
    have hnone (h : ∀ e, e ∈ s.rings → (s.ring (SlotRef.ofKey e.1)).prod ≠ 4096) :
        ((s.advance now).writeMem 0x20 guarded off.toNat data).1.hostFed off.toNat data.length =
          ((s.advance now).writeMem 0x20 guarded off.toNat data).1 := by
      refine State.hostFed_of_none (fun e he => ?_) _ _
      rw [show State.rings _ = _ from htouch.same .rings] at he
      simp only [State.ring, show State.rings _ = _ from htouch.same .rings]
      exact h e he
    rw [exec_bar2Write_of_clean now hrange hperst hon hclean]
    generalize (s.advance now).writeMem 0x20 guarded off.toNat data = r at *
    refine ⟨_, rfl, fun k hk => ?_, fun j hj => ?_, (hfed.after (qs := [.sram, .ecc, .regs, .rings]) htouch.mono).eq_withParts, ?_,
      fun h => ?_, fun w hw => ?_⟩
    · rw [hfed.byte, hbytes, if_pos (by omega), Nat.add_sub_cancel_left]
    · rw [hfed.byte, hbytes, if_neg (of_decide_eq_false hj)]
      rfl
    · exact KeepsRegs.trans (htouch.regs _) hslots
    · rw [hnone h]
      exact ⟨htouch.same .regs, htouch.same .rings⟩
    · refine Eq.trans ?_ (hsyn w hw)
      exact congrArg (fun m => smapGet 0 m w) (show State.ecc _ = _ from hfed.same .ecc)
  case denied =>
    intro now fn off len data s hfn hperst hen hflr
    have hhost : Hosted s fn.val := ⟨hperst, .inr ⟨hen, hflr⟩⟩
    refine ⟨fun hrange hmay => ?_, fun hrange hmay => ?_⟩
    · refine congrArg Host.Outcome.next ((State.hosted_of (s.advance now) _ _ hhost).trans ?_)
      have hmay' : (s.advance now).bar2May fn.val off.toNat len = false := hmay
      unfold State.bar2Read
      rw [if_neg (bar2Range_fits hrange), if_pos (by simp [hmay']), State.denied, if_neg hfn]
    · refine congrArg Host.Outcome.next ((State.hosted_of (s.advance now) _ _ hhost).trans ?_)
      have hmay' : (s.advance now).bar2May fn.val off.toNat data.length = false := hmay
      unfold State.bar2Write
      rw [if_neg (bar2Range_fits hrange), if_pos (by simp [hmay']), State.denied, if_neg hfn]

end Sys2Proof.Machine
end

section
/-!
PROOF. The readout of a finished bank and the sums of a chain (R66 to R70, O15).
-/

set_option Elab.async false

namespace Sys2Proof.Machine
open Sys2Proof

/-! ### Counters of engines (R67, R87) -/

theorem State.meHold_touches (s : State) (f : Fld) (pe n : Nat) : Touches [.regs] s (s.meHold f pe n) := s.addHold_touches ..

theorem State.meWrap_touches (s : State) (f : Fld) (pe n : Nat) : Touches [.regs] s (s.meWrap f pe n) := s.addWrap_touches ..

theorem State.meHold_keepsRegs (s : State) (g : Fld) (pe n : Nat) :
    KeepsRegs s (s.meHold g pe n) (fun f i => f == g && i == pe) := s.setF_keepsRegs _ _ _

theorem State.meWrap_keepsRegs (s : State) (g : Fld) (pe n : Nat) :
    KeepsRegs s (s.meWrap g pe n) (fun f i => f == g && i == pe) := s.setF_keepsRegs _ _ _

/-! ### Terms added to an accumulator (R66, R67) -/

/-- The parts that adding terms touches. -/
def termParts : List Part := [.engines, .regs]

/-- The current vector of an engine whose accumulator has saturated k times. -/
def satMarked (cur : Option Vec) (k : Nat) : Option Vec := cur.map (fun v => { v with sat := v.sat || k != 0 })

theorem satMarked_map_v (cur : Option Vec) (k : Nat) : (satMarked cur k).map Vec.v = cur.map Vec.v := by
  cases cur <;> rfl

/-- An engine whose accumulator has saturated k times. -/
def Engine.satMarked (x : Engine) (k : Nat) : Engine := { x with cur := Machine.satMarked x.cur k }

/-- The saturations that count, of n. -/
def Engine.satsOf (x : Engine) (n : Nat) : Nat := if x.cur.any Vec.poison then 0 else n

theorem State.accSat_eq (s : State) (pe n : Nat) : s.accSat pe n =
    (s.setEngine pe ((s.engine pe).satMarked ((s.engine pe).satsOf n))).meHold .ME_ACCSAT_COUNT pe ((s.engine pe).satsOf n) := rfl

theorem State.engine_setEngine (s : State) (i : Nat) (x : Engine) (j : Nat) :
    (s.setEngine i x).engine j = if j = i then x else s.engine j := by
  by_cases h : j = i
  · rw [if_pos h, h, State.engine_setEngine_same]
  · exact (State.engine_setEngine_ne _ _ _ (Ne.symm h)).trans (if_neg h).symm

/-- What saturations do: the vector's flag of engine pe, and its counter. -/
theorem State.accSat_spec (s : State) (pe n : Nat) : ∃ k, Touches termParts s (s.accSat pe n) ∧
    KeepsRegs s (s.accSat pe n) (fun f i => f == .ME_ACCSAT_COUNT && i == pe) ∧
      ∀ j, (s.accSat pe n).engine j = if j = pe then (s.engine pe).satMarked k else s.engine j := by
  rw [s.accSat_eq]
  generalize (s.engine pe).satsOf n = k
  have hset : Touches [.engines] s (s.setEngine pe ((s.engine pe).satMarked k)) := s.setEngine_touches _ _
  refine ⟨k, (State.meHold_touches ..).after hset.mono, KeepsRegs.trans (hset.regs _) (State.meHold_keepsRegs _ _ _ _),
    fun j => ((State.meHold_touches ..).engine j).trans (s.engine_setEngine pe _ j)⟩

/-- An accumulator with terms added, and the saturations of adding them. -/
def accAdded (acc : List (Nat × Int)) (ts : List (Nat × Int)) : List (Nat × Int) × Nat :=
  ts.foldl (fun m t => addAcc m t.1 t.2) (acc, 0)

/-- An engine with another accumulator. -/
def Engine.withAcc (x : Engine) (acc : List (Nat × Int)) : Engine := { x with acc := acc }

theorem State.addTerms_eq (s : State) (pe : Nat) (ts : List (Nat × Int)) : s.addTerms pe ts =
    (s.setEngine pe ((s.engine pe).withAcc (accAdded (s.engine pe).acc ts).1)).accSat pe (accAdded (s.engine pe).acc ts).2 := rfl

/-- What adding terms does: the accumulator and the vector's flag of engine pe, and its counter of saturations. -/
theorem State.addTerms_spec (s : State) (pe : Nat) (ts : List (Nat × Int)) : ∃ k, Touches termParts s (s.addTerms pe ts) ∧
    KeepsRegs s (s.addTerms pe ts) (fun f i => f == .ME_ACCSAT_COUNT && i == pe) ∧
      ∀ j, (s.addTerms pe ts).engine j =
        if j = pe then ((s.engine pe).withAcc (accAdded (s.engine pe).acc ts).1).satMarked k else s.engine j := by
  rw [s.addTerms_eq]
  generalize (accAdded (s.engine pe).acc ts).2 = n
  generalize (s.engine pe).withAcc (accAdded (s.engine pe).acc ts).1 = x
  have hset : Touches [.engines] s (s.setEngine pe x) := s.setEngine_touches _ _
  obtain ⟨k, htouch, hregs, heng⟩ := (s.setEngine pe x).accSat_spec pe n
  refine ⟨k, htouch.after hset.mono, KeepsRegs.trans (hset.regs _) hregs, fun j => (heng j).trans ?_⟩
  rw [State.engine_setEngine_same, State.engine_setEngine]
  split <;> rfl

/-! ### The latch takes a bank (R69) -/

/-- An engine whose latch has taken its bank. -/
def Engine.copiedOut (x : Engine) (l : Latch) : Engine :=
  { x with latch := some l, acc := [], cur := x.nxt.map (fun n => { n with pre := [] }), nxt := none }

/-- The latch that takes the bank of a vector. -/
def Engine.bankLatch (x : Engine) (vec : Vec) (time : Nat) : Latch :=
  { d := vec.d, v := vec.v, vals := (List.range x.columns).map (smapGet 0 x.acc), poison := vec.poison, sat := vec.sat,
    prov := vec.prov, since := time, summed := false, padded := false, offered := false }

/-- The terms of the vector behind that came before its turn. -/
def Engine.preTerms (x : Engine) : List (Nat × Int) := match x.nxt with | some n => n.pre | none => []

theorem exec_readoutCopy_of_done {s : State} {cl : Cluster} {co : Core} {e : Fin 16} {vec : Vec} (now : Nat)
    (hcur : (s.engine (s.physOf (coreIx cl co) e.val)).cur = some vec)
    (hlatch : (s.engine (s.physOf (coreIx cl co) e.val)).latch = none) (htodo : vec.todo = []) (hocu : vec.ocu = 0) :
    let pe := s.physOf (coreIx cl co) e.val
    let x := s.engine pe
    exec (.readoutCopy now cl co e) s =
      .next (((s.advance now).setEngine pe (x.copiedOut (x.bankLatch vec (s.advance now).time))).addTerms pe x.preTerms) := by
  intro pe x
  refine (show exec (.readoutCopy now cl co e) s = execReadoutCopy now cl co e s from rfl).trans ?_
  unfold execReadoutCopy
  extract_lets u qe y
  have hyx : y = x := rfl
  have hcase : y.cur = some vec ∧ y.latch = none := ⟨hcur, hlatch⟩
  obtain ⟨hy1, hy2⟩ := hcase
  simp only [hy1, hy2, htodo, hocu]
  rfl

/-! ### Chains (R69, R70) -/

/-- The latches of a chain's members emptied. -/
def State.latchesEmptied (s : State) (core : Nat) (ms : List Nat) : State :=
  ms.foldl (fun t m => let p := t.physOf core m; t.setEngine p { t.engine p with latch := none }) s

theorem State.latchesEmptied_touches (s : State) (core : Nat) (ms : List Nat) : Touches [.engines] s (s.latchesEmptied core ms) :=
  Touches.foldl _ (fun t _ => t.setEngine_touches ..) _ s

/-- The sums of a chain's latches, by column. -/
def chainSums (cols : Nat) (ls : List Latch) : List (Int × Bool) :=
  (List.range cols).map (fun j => sat32 ((ls.map (fun l => l.vals.getD j 0)).sum))

/-- The saturations of a chain's sums that count. -/
def chainSats (cols : Nat) (ls : List Latch) : Nat :=
  if ls.any Latch.poison then 0 else ((chainSums cols ls).filter (·.2)).length

/-- The latch of a chain's head after its sum. -/
def chainLatch (di time cols : Nat) (ls : List Latch) : Latch :=
  { d := di, v := (ls.head?.map Latch.v).getD 0, vals := (chainSums cols ls).map (·.1), poison := ls.any Latch.poison,
    sat := ls.any Latch.sat || chainSats cols ls != 0, prov := ls.any Latch.prov, since := time, summed := true,
    padded := false, offered := false }

/-- An engine with another latch. -/
def Engine.latched (x : Engine) (l : Latch) : Engine := { x with latch := some l }

/-- A head's latch takes the sums, and its counter the saturations. -/
def State.headLatched (u : State) (hp : Nat) (l : Latch) (n : Nat) : State :=
  (u.setEngine hp ((u.engine hp).latched l)).meHold .ME_ACCSAT_COUNT hp n

theorem State.headLatched_spec (u : State) (hp : Nat) (l : Latch) (n : Nat) :
    ((u.headLatched hp l n).engine hp).latch = some l ∧ Touches termParts u (u.headLatched hp l n) ∧
      KeepsRegs u (u.headLatched hp l n) (fun f i => f == .ME_ACCSAT_COUNT && i == hp) := by
  have hset : Touches [.engines] u (u.setEngine hp ((u.engine hp).latched l)) := u.setEngine_touches _ _
  refine ⟨?_, (State.meHold_touches ..).after hset.mono, KeepsRegs.trans (hset.regs _) (State.meHold_keepsRegs _ _ _ _)⟩
  exact congrArg Engine.latch (((State.meHold_touches ..).engine hp).trans (State.engine_setEngine_same _ _ _))

theorem State.sumChain_eq (s : State) (core di : Nat) (ls : List Latch) :
    let hp := s.physOf core (s.desc core di).head
    let cols := (s.engine hp).columns
    let u := s.latchesEmptied core (s.desc core di).members
    s.sumChain core di ls = u.headLatched hp (chainLatch di u.time cols ls) (chainSats cols ls) := rfl

/-- The head's latch takes the exact sums of a chain, saturated once. -/
theorem State.sumChain_spec (s : State) (core di : Nat) (ls : List Latch) :
    let hp := s.physOf core (s.desc core di).head
    ∃ l, ((s.sumChain core di ls).engine hp).latch = some l ∧ l.summed = true ∧
      l.vals = (List.range (s.engine hp).columns).map (fun j => (sat32 ((ls.map (fun x => x.vals.getD j 0)).sum)).1) ∧
      l.poison = ls.any Latch.poison ∧ Touches termParts s (s.sumChain core di ls) ∧
      KeepsRegs s (s.sumChain core di ls) (fun f i => f == .ME_ACCSAT_COUNT && i == hp) := by
  intro hp
  rw [s.sumChain_eq]
  have hu := s.latchesEmptied_touches core (s.desc core di).members
  generalize s.latchesEmptied core (s.desc core di).members = u at hu ⊢
  obtain ⟨hlatch, htouch, hregs⟩ := u.headLatched_spec hp (chainLatch di u.time (s.engine hp).columns ls)
    (chainSats (s.engine hp).columns ls)
  exact ⟨_, hlatch, rfl, List.map_map, rfl, htouch.after hu.mono, KeepsRegs.trans (hu.regs _) hregs⟩

/-- The adder of a core free again from a time on. -/
def State.adderBusy (s : State) (core : Nat) : State := { s with adderFree := smapSet 0 s.adderFree core (s.time + 8) }

theorem State.adderBusy_touches (s : State) (core : Nat) : Touches [.adderFree] s (s.adderBusy core) := Touches.of_withParts rfl

theorem exec_chainAdd_of_ready {s : State} {cl : Cluster} {co : Core} {at_ head di now : Nat} {ls : List Latch}
    (hfirst : first (s.readyChains (coreIx cl co)) = some (at_, head, di))
    (hready : s.chainReady (coreIx cl co) (s.desc (coreIx cl co) di) di = some ls)
    (hfree : smapGet 0 s.adderFree (coreIx cl co) ≤ now) (hnow : s.time ≤ now) :
    exec (.chainAdd now cl co) s = .next (((s.advance now).sumChain (coreIx cl co) di ls).adderBusy (coreIx cl co)) := by
  refine (show exec (.chainAdd now cl co) s = execChainAdd now cl co s from rfl).trans ?_
  have htime : smapGet 0 (s.advance now).adderFree (coreIx cl co) ≤ (s.advance now).time := by
    rw [State.time_advance_of_le hnow]
    exact hfree
  unfold execChainAdd
  extract_lets u core
  have h1 : first (u.readyChains core) = some (at_, head, di) := hfirst
  have h2 : u.chainReady core (u.desc core di) di = some ls := hready
  simp only [h1, h2]
  exact if_pos htime

/-! ### O15 -/

/-- What the latch of engine pe and its vectors are once it has copied its bank. -/
theorem State.copied_spec (s : State) (pe : Nat) (x : Engine) (l : Latch) :
    let t := (s.setEngine pe (x.copiedOut l)).addTerms pe x.preTerms
    (t.engine pe).latch = some l ∧ (t.engine pe).nxt = none ∧ (t.engine pe).cur.map Vec.v = x.nxt.map Vec.v ∧
      (x.nxt = none → (t.engine pe).acc = []) ∧ Touches termParts s t ∧
      KeepsRegs s t (fun f i => f == .ME_ACCSAT_COUNT && i == pe) := by
  intro t
  have hset : Touches [.engines] s (s.setEngine pe (x.copiedOut l)) := s.setEngine_touches _ _
  obtain ⟨k, htouch, hregs, heng⟩ := (s.setEngine pe (x.copiedOut l)).addTerms_spec pe x.preTerms
  have hpe := heng pe
  rw [if_pos rfl, State.engine_setEngine_same] at hpe
  refine ⟨congrArg Engine.latch hpe, congrArg Engine.nxt hpe, (congrArg (fun y => y.cur.map Vec.v) hpe).trans ?_,
    fun hnxt => (congrArg Engine.acc hpe).trans ?_, htouch.after hset.mono, KeepsRegs.trans (hset.regs _) hregs⟩
  · refine (satMarked_map_v _ _).trans ?_
    exact (Option.map_map ..).trans rfl
  · have hpre : x.preTerms = [] := by
      unfold Engine.preTerms
      rw [hnxt]
    rw [hpre]
    rfl

/-- Settles O15: the latch takes the bank of a finished vector, and a ready chain its exact sums. -/
theorem readoutAndChain : Obligations.ReadoutAndChain := by
  unfold Obligations.ReadoutAndChain
  constructor
  · intro now cl co e s vec pe x hcur hlatch htodo hocu
    obtain ⟨hl, hnxt, hv, hacc, htouch, hregs⟩ := (s.advance now).copied_spec pe x (x.bankLatch vec (s.advance now).time)
    exact ⟨_, _, exec_readoutCopy_of_done now hcur hlatch htodo hocu, hl, rfl, rfl, rfl, rfl, rfl, rfl, hnxt, hv, hacc,
      htouch.eq_withParts, KeepsRegs.of_advance hregs⟩
  · intro now cl co s at_ head di ls core d hp hfirst hready hfree hnow
    obtain ⟨l, hl, hsum, hvals, hpoison, htouch, hregs⟩ := (s.advance now).sumChain_spec core di ls
    have hbusy := ((s.advance now).sumChain core di ls).adderBusy_touches core
    have hpart : Touches [.engines, .regs, .adderFree] (s.advance now)
      (((s.advance now).sumChain core di ls).adderBusy core) := hbusy.after htouch.mono
    refine ⟨_, l, exec_chainAdd_of_ready hfirst hready hfree hnow, (congrArg Engine.latch (hbusy.engine _)).trans hl, hsum, hvals,
      hpoison, ?_, hpart.eq_withParts, ?_⟩
    · refine (smapGet_set_same ..).trans (congrArg (· + 8) ((show State.time _ = _ from htouch.same .time).trans ?_))
      exact State.time_advance_of_le hnow
    · exact KeepsRegs.of_advance (KeepsRegs.touches hregs hbusy)

end Sys2Proof.Machine
end

section
/-!
PROOF. A vector's load and its phases (R53 to R67, R93 to R95, R106, R128, O14).
-/

set_option Elab.async false

namespace Sys2Proof.Machine
open Sys2Proof

/-! ### Requests of the outlier correction unit -/

/-- The parts that a request of an OCU touches. -/
def ocuParts : List Part := [.ocus, .regs]

theorem State.ocuPush_touches (s : State) (c : Nat) (r : OcuReq) : Touches ocuParts s (s.ocuPush c r) := by
  unfold State.ocuPush
  extract_lets o q
  exact Touches.ite _ ((State.setF_touches ..).after (s.setOcu_touches ..).mono) ((s.setOcu_touches ..).mono)

theorem State.ocuPush_keepsRegs (s : State) (c : Nat) (r : OcuReq) :
    KeepsRegs s (s.ocuPush c r) (fun f i => f == .OCU_STAT_HIWAT && i == c) := by
  unfold State.ocuPush
  extract_lets o q
  exact KeepsRegs.ite _ (KeepsRegs.setF ((s.setOcu_touches ..).regs _) (by simp) _) ((s.setOcu_touches ..).regs _)

theorem State.held_ocu_advance (s : State) (now c : Nat) : ((s.advance now).ocu c).held = (s.ocu c).held := by
  refine Eq.symm (smapGet_map_rel (R := fun x y : Ocu => x.held = y.held) rfl (fun e => ?_) s.ocus c)
  split <;> exact ⟨rfl, rfl⟩

theorem State.ocuStalls_advance (s : State) (now c core st : Nat) :
    (s.advance now).ocuStalls c core st = s.ocuStalls c core st := by
  unfold State.ocuStalls
  rw [s.held_ocu_advance]
  rfl

/-! ### Reading a window (R55, R93) -/

theorem State.readWindow_spec (s : State) (m fmt v lo n : Nat) (newest : SlotRef) (ins : List SlotRef) :
    Touches eccParts s (s.readWindow m fmt v lo n newest ins) ∧
      KeepsRegs s (s.readWindow m fmt v lo n newest ins) eccWrites := by
  unfold State.readWindow
  refine List.foldlRecOn (motive := fun p : State × Nat => Touches eccParts s p.1 ∧ KeepsRegs s p.1 eccWrites) ins _
    ⟨Touches.refl _ s, KeepsRegs.refl s _⟩ (fun p hp r _ => ?_)
  obtain ⟨t, base⟩ := p
  obtain ⟨htouch, hregs⟩ := hp
  dsimp only at htouch hregs ⊢
  exact ⟨Touches.ite _ ((State.readEcc_touches ..).after htouch) htouch,
    KeepsRegs.ite _ (hregs.trans (State.readEcc_keepsRegs _ _ _ _)) hregs⟩

/-! ### Counters of a station -/

/-- The parts that a station's counters touch. -/
def stnCountParts : List Part := [.regs, .totals]

/-- The counters of stations. -/
def stationCounters : List Fld :=
  [.KMC_STN_SATCNT_COUNT, .KMC_STN_POISCNT_COUNT, .KMC_STN_TORNCNT_COUNT, .KMC_STN_LATECNT_COUNT, .KMC_STN_UNMATCH_COUNT]

theorem State.count_touches (s : State) (st which n : Nat) : Touches stnCountParts s (s.count st which n) := by
  unfold State.count
  extract_lets x u
  have hu : Touches stnCountParts s u := by
    unfold u
    split
    · exact (s.addHold_touches ..).mono
    · exact Touches.refl _ s
  clear_value u
  exact Touches.ite _ ((State.total_touches ..).after hu) hu

theorem State.count_keepsRegs (s : State) (st which n : Nat) :
    KeepsRegs s (s.count st which n) (fun f _ => stationCounters.contains f) := by
  unfold State.count
  extract_lets x u
  have hu : KeepsRegs s u (fun f _ => stationCounters.contains f) := by
    unfold u
    split
    · refine (KeepsRegs.refl s _).setF ?_ _
      split <;> rfl
    · exact KeepsRegs.refl s _
  clear_value u
  exact KeepsRegs.ite _ (hu.touches (State.total_touches ..)) hu

/-! ### Loading a vector (R53, R55, R93 to R95) -/

/-- An engine whose next vector stands in its free buffer. -/
def Engine.loaded (x : Engine) (vec : Vec) (v : Nat) : Engine :=
  if x.cur.isNone then { x with cur := some vec, nextV := v + 1 } else { x with nxt := some vec, nextV := v + 1 }

theorem Engine.loaded_spec (x : Engine) (vec : Vec) (v : Nat) :
    (x.loaded vec v).cur = (if x.cur = none then some vec else x.cur) ∧
      (x.loaded vec v).nxt = (if x.cur = none then x.nxt else some vec) ∧ (x.loaded vec v).nextV = v + 1 ∧
      (x.loaded vec v).acc = x.acc ∧ (x.loaded vec v).latch = x.latch := by
  unfold Engine.loaded
  cases hcur : x.cur with
  | none => exact ⟨rfl, rfl, rfl, rfl, rfl⟩
  | some v' => simp

/-- The parts that a vector's load touches. -/
def loadParts : List Part := [.engines, .ocus] ++ stnCountParts ++ eccParts

/-- What VECTOR_LOAD does of a vector that its tile has. -/
theorem State.loadVector_spec (s : State) (cl core e pe : Nat) (tl : Tile) :
    let x := s.engine pe
    let t := s.loadVector cl core e pe tl
    ∃ v : Vec, t.engine pe = x.loaded v x.nextV ∧ v.d = tl.d ∧ v.v = x.nextV ∧ v.started = false ∧ v.codes.length = 256 ∧
      v.todo = (schedule (opwOf x.opw.toNat) (s.bringup cl) v.codes).1 ∧
      t.getF .ME_SKIPCNT_COUNT pe = (s.getF .ME_SKIPCNT_COUNT pe +
        (if s.cleared pe then 0 else (schedule (opwOf x.opw.toNat) (s.bringup cl) v.codes).2)) % 4294967296 ∧
      Touches loadParts s t := by
  intro x t
  unfold t State.loadVector
  extract_lets st d v o newest u elems rows sats corr cut codes sched req asked vec z a b r
  obtain ⟨hu, huregs⟩ : Touches eccParts s u ∧ KeepsRegs s u eccWrites := s.readWindow_spec ..
  have hbring : u.bringup cl = s.bringup cl := congrArg (fun n => !(Nat.testBit n cl)) (huregs .GCTL_START_FULL 0 rfl)
  have hcleared : u.cleared pe = s.cleared pe := by
    unfold State.cleared
    rw [show u.clrAt = _ from hu.same .clrAt, show u.time = _ from hu.same .time]
  have hlen : vec.codes.length = 256 := by simp [vec, codes, cut, rows]
  have hsched : sched = schedule (opwOf x.opw.toNat) (s.bringup cl) vec.codes := congrArg (fun q => schedule _ q codes) hbring
  have hz : z = x.loaded vec x.nextV := rfl
  have ha : Touches loadParts s a :=
    (State.meWrap_touches ..).after ((State.setEngine_touches ..).after (hu.mono : Touches loadParts s u))
  have hapart : a.engine pe = z := ((State.meWrap_touches ..).engine pe).trans (State.engine_setEngine_same ..)
  have haskip : a.getF .ME_SKIPCNT_COUNT pe =
      (s.getF .ME_SKIPCNT_COUNT pe + (if s.cleared pe then 0 else sched.2)) % 4294967296 := by
    refine (State.getF_addWrap ..).trans ?_
    rw [show (u.setEngine pe z).cleared pe = s.cleared pe from hcleared, State.getF_setEngine, huregs .ME_SKIPCNT_COUNT pe rfl]
    rfl
  have hb : Touches stnCountParts a b ∧ KeepsRegs a b (fun f _ => stationCounters.contains f) :=
    ⟨Touches.ite _ (Touches.refl _ a) (State.count_touches ..), KeepsRegs.ite _ (KeepsRegs.refl a _) (State.count_keepsRegs _ _ _ _)⟩
  obtain ⟨hbtouch, hbregs⟩ := hb
  have hv : vec.d = tl.d ∧ vec.v = x.nextV ∧ vec.started = false ∧ vec.todo = sched.1 := ⟨rfl, rfl, rfl, rfl⟩
  obtain ⟨hd, hv, hstart, htodo⟩ := hv
  clear_value vec sched z a b asked r
  have hend : Touches ocuParts b (if asked then b.ocuPush cl r else b) :=
    Touches.ite _ (State.ocuPush_touches ..) (Touches.refl _ b)
  have hendregs : KeepsRegs b (if asked then b.ocuPush cl r else b) (fun f i => f == .OCU_STAT_HIWAT && i == cl) :=
    KeepsRegs.ite _ (State.ocuPush_keepsRegs _ _ _) (KeepsRegs.refl b _)
  refine ⟨vec, ((hend.engine pe).trans ((hbtouch.engine pe).trans hapart)).trans hz, hd, hv, hstart, hlen, ?_, ?_,
    hend.after (hbtouch.after ha)⟩
  · rw [htodo, hsched]
  · rw [hendregs .ME_SKIPCNT_COUNT pe rfl, hbregs .ME_SKIPCNT_COUNT pe rfl, haskip, hsched]

/-! ### A phase (R48 to R67, R106) -/

/-- The parts that a phase touches. -/
def phaseParts : List Part := [.engines, .regs, .trackers, .ocus]

/-- The registers that a phase of engine pe of cluster cl writes. -/
def phaseWrites (pe cl : Nat) : Fld → Nat → Bool := fun f i =>
  ([Fld.ME_PHCNT_COUNT, .ME_SATCNT_COUNT, .ME_SPLITCNT_COUNT, .ME_ESCCNT_COUNT, .ME_ESCMISS_COUNT,
    .ME_ACCSAT_COUNT].contains f && i == pe) || (f == .OCU_STAT_HIWAT && i == cl)

/-- A counter of engine pe that a phase writes. -/
theorem KeepsRegs.phase {s t : State} {g : Fld} {pe : Nat} (h : KeepsRegs s t (fun f i => f == g && i == pe)) (cl : Nat)
    (hg : phaseWrites pe cl g pe = true) : KeepsRegs s t (phaseWrites pe cl) := by
  refine h.mono fun f i hf => Bool.eq_false_iff.mpr fun hc => ?_
  obtain ⟨hf', hi⟩ := Bool.and_eq_true_iff.mp hc
  rw [eq_of_beq hf', eq_of_beq hi, hg] at hf
  exact Bool.noConfusion hf

/-- An engine that has added the contribution of a phase. -/
def Engine.contributed (x : Engine) (acc : List (Nat × Int)) : Engine := { x with acc := acc, codeSum := [], codeN := [] }

theorem State.contribute_spec (s : State) (pe : Nat) (ph : Phase) (o : Opw) (bringup : Bool) :
    ∃ k acc, Touches termParts s (s.contribute pe ph o bringup) ∧
      KeepsRegs s (s.contribute pe ph o bringup) (fun f i => f == .ME_ACCSAT_COUNT && i == pe) ∧
      (s.contribute pe ph o bringup).engine pe = ((s.engine pe).contributed acc).satMarked k := by
  unfold State.contribute
  extract_lets e gain offset a w r
  have hset : Touches [.engines] s (s.setEngine pe (e.contributed r.1)) := s.setEngine_touches _ _
  obtain ⟨k, htouch, hregs, heng⟩ := (s.setEngine pe (e.contributed r.1)).accSat_spec pe r.2
  have hpe := heng pe
  rw [if_pos rfl, State.engine_setEngine_same] at hpe
  exact ⟨k, r.1, htouch.after hset.mono, KeepsRegs.trans (hset.regs _) hregs, hpe⟩

theorem State.sample_touches (s : State) (pe r : Nat) (nibs : List Nat) (bringup : Bool) :
    Touches [.trackers] s (s.sample pe r nibs bringup) := s.setTracker_touches ..

/-- The request that an escalation puts to the OCU of a station with a corrector (R62). -/
def State.escRequested (s : State) (cl : Nat) (corr : Option Station) (mate : Option Nat) (esc : Bool)
    (req : Station → Nat → OcuReq) : State :=
  match corr, mate, esc with
  | some c, some cst, true => s.ocuPush cl (req c cst)
  | _, _, _ => s

theorem State.escRequested_spec (s : State) (cl : Nat) (corr : Option Station) (mate : Option Nat) (esc : Bool)
    (req : Station → Nat → OcuReq) : Touches ocuParts s (s.escRequested cl corr mate esc req) ∧
      KeepsRegs s (s.escRequested cl corr mate esc req) (fun f i => f == .OCU_STAT_HIWAT && i == cl) := by
  unfold State.escRequested
  split
  · exact ⟨State.ocuPush_touches _ _ _, State.ocuPush_keepsRegs _ _ _⟩
  · exact ⟨Touches.refl _ s, KeepsRegs.refl s _⟩

theorem satMarked_zero (cur : Option Vec) : satMarked cur 0 = cur := by
  cases cur <;> simp [satMarked]

/-- What ENGINE_PHASE does of a vector whose next phase is ph. -/
theorem State.runPhase_spec (s : State) (cl core e pe : Nat) (x : Engine) (vec : Vec) (ph : Phase) (rest : List Phase) :
    let t := s.runPhase cl core e pe x vec ph rest
    ∃ (v : Vec) (k : Nat), (t.engine pe).cur = some v ∧ v.todo = rest ∧ v.started = true ∧ v.codes = vec.codes ∧ v.v = vec.v ∧
      k ≤ 1 ∧ t.getF .ME_PHCNT_COUNT pe =
        (s.getF .ME_PHCNT_COUNT pe + (if s.cleared pe then 0 else 1 + k)) % 4294967296 ∧
      (t.engine pe).latch = x.latch ∧ Touches phaseParts s t ∧ KeepsRegs s t (phaseWrites pe cl) := by
  intro t
  unfold t State.runPhase
  extract_lets st o bringup nibs corr covered convs clamps split esc miss opens prov vec' sums y a b c last d
  obtain ⟨hwtouch, hwregs⟩ := d.escRequested_spec cl corr st.mate esc (fun c cst =>
    { core := core, eng := pe, d := vec'.d, v := vec'.v, esc := true, rows := 64, terms := d.escTerms c cst e ph o bringup nibs convs,
      at_ := d.time })
  have hwget := hwregs .ME_PHCNT_COUNT pe rfl
  have hsplit : split.toNat ≤ 1 := Bool.toNat_le split
  have ha : Touches phaseParts s a := (State.sample_touches ..).after (State.setEngine_touches ..).mono
  have haeng : a.engine pe = y := ((State.sample_touches ..).engine pe).trans (State.engine_setEngine_same ..)
  have haget : a.getF .ME_PHCNT_COUNT pe = s.getF .ME_PHCNT_COUNT pe := (State.sample_touches ..).getF _ _
  have haregs : KeepsRegs s a (phaseWrites pe cl) :=
    KeepsRegs.touches ((s.setEngine_touches ..).regs _) (State.sample_touches ..)
  have hacleared : a.cleared pe = s.cleared pe := rfl
  have hy : y.cur = some vec' ∧ y.latch = x.latch := ⟨rfl, rfl⟩
  have hvec : vec'.todo = rest ∧ vec'.started = true ∧ vec'.codes = vec.codes ∧ vec'.v = vec.v := ⟨rfl, rfl, rfl, rfl⟩
  clear_value vec' y a
  have hb : Touches [.regs] a b := (State.meHold_touches ..).after (State.meWrap_touches ..)
  have hbregs : KeepsRegs a b (phaseWrites pe cl) :=
    ((a.meWrap_keepsRegs _ _ _).phase cl (by simp [phaseWrites])).trans
      ((State.meHold_keepsRegs _ _ _ _).phase cl (by simp [phaseWrites]))
  have hbget : b.getF .ME_PHCNT_COUNT pe =
      (s.getF .ME_PHCNT_COUNT pe + (if s.cleared pe then 0 else 1 + split.toNat)) % 4294967296 := by
    refine ((State.meHold_keepsRegs _ _ _ _) .ME_PHCNT_COUNT pe rfl).trans ((State.getF_addWrap ..).trans ?_)
    rw [haget, hacleared]
    rfl
  clear_value b
  have hc : Touches [.regs] b c :=
    (State.meHold_touches ..).after ((State.meHold_touches ..).after (State.meHold_touches ..))
  have hcregs : KeepsRegs b c (phaseWrites pe cl) :=
    (((State.meHold_keepsRegs _ _ _ _).phase cl (by simp [phaseWrites])).trans
      ((State.meHold_keepsRegs _ _ _ _).phase cl (by simp [phaseWrites]))).trans
      ((State.meHold_keepsRegs _ _ _ _).phase cl (by simp [phaseWrites]))
  have hcget : c.getF .ME_PHCNT_COUNT pe = b.getF .ME_PHCNT_COUNT pe :=
    ((State.meHold_keepsRegs _ _ _ _) .ME_PHCNT_COUNT pe rfl).trans
      (((State.meHold_keepsRegs _ _ _ _) .ME_PHCNT_COUNT pe rfl).trans ((State.meHold_keepsRegs _ _ _ _) .ME_PHCNT_COUNT pe rfl))
  have hceng : c.engine pe = y := (hc.engine pe).trans ((hb.engine pe).trans haeng)
  clear_value c
  obtain ⟨n, hdtouch, hdregs, hdcur, hdlatch, hdget⟩ : ∃ n, Touches termParts c d ∧ KeepsRegs c d (phaseWrites pe cl) ∧
      (d.engine pe).cur = satMarked y.cur n ∧ (d.engine pe).latch = y.latch ∧
      d.getF .ME_PHCNT_COUNT pe = c.getF .ME_PHCNT_COUNT pe := by
    unfold d
    split
    · obtain ⟨k, acc, htouch, hregs, heng⟩ := c.contribute_spec pe ph o bringup
      rw [hceng] at heng
      exact ⟨k, htouch, hregs.phase cl (by simp [phaseWrites]), congrArg Engine.cur heng,
        (congrArg Engine.latch heng).trans rfl, hregs _ _ rfl⟩
    · exact ⟨0, Touches.refl _ c, KeepsRegs.refl c _, (congrArg Engine.cur hceng).trans (satMarked_zero _).symm,
        congrArg Engine.latch hceng, rfl⟩
  clear_value d
  obtain ⟨hycur, hylatch⟩ := hy
  obtain ⟨htodo, hstart, hcodes, hv⟩ := hvec
  rw [hycur] at hdcur
  refine ⟨_, split.toNat, (congrArg Engine.cur (hwtouch.engine pe)).trans hdcur, htodo, hstart, hcodes, hv, hsplit, ?_,
    (congrArg Engine.latch (hwtouch.engine pe)).trans (hdlatch.trans hylatch), ?_, ?_⟩
  · exact hwget.trans (hdget.trans (hcget.trans hbget))
  · exact hwtouch.after (hdtouch.after (hc.after (hb.after ha)))
  · exact (((haregs.trans hbregs).trans hcregs).trans hdregs).trans
      (hwregs.mono fun f i hf => (Bool.or_eq_false_iff.mp hf).2)

/-! ### O14 -/

theorem exec_vectorLoad_of_tile {s : State} {cl : Cluster} {co : Core} {e : Fin 16} {tl : Tile} (now : Nat)
    (htile : (s.engine (s.physOf (coreIx cl co) e.val)).tile.bind (s.tileOf (coreIx cl co)) = some tl)
    (hv : (s.engine (s.physOf (coreIx cl co) e.val)).nextV < tl.nvec)
    (hfree : (s.engine (s.physOf (coreIx cl co) e.val)).cur = none ∨ (s.engine (s.physOf (coreIx cl co) e.val)).nxt = none)
    (hstall : s.ocuStalls cl.val (coreIx cl co) (s.engine (s.physOf (coreIx cl co) e.val)).station = false) :
    exec (.vectorLoad now cl co e) s =
      .next ((s.advance now).loadVector cl.val (coreIx cl co) e.val (s.physOf (coreIx cl co) e.val) tl) := by
  refine (show exec (.vectorLoad now cl co e) s = execVectorLoad now cl co e s from rfl).trans ?_
  unfold execVectorLoad
  extract_lets u core pe x
  have htile' : x.tile.bind (u.tileOf core) = some tl := htile
  have hstall' : u.ocuStalls cl.val core x.station = false := (s.ocuStalls_advance ..).trans hstall
  have hfree' : x.cur.isNone || x.nxt.isNone := by
    simp only [Option.isNone_iff_eq_none, Bool.or_eq_true]
    exact hfree
  simp only [htile', hstall', hfree', show x.nextV < tl.nvec from hv, decide_true, Bool.not_false, Bool.and_self, if_true]
  rfl

theorem exec_enginePhase_of_vector {s : State} {cl : Cluster} {co : Core} {e : Fin 16} {vec : Vec} {ph : Phase} {rest : List Phase}
    (now : Nat) (hcur : (s.engine (s.physOf (coreIx cl co) e.val)).cur = some vec) (htodo : vec.todo = ph :: rest)
    (hmay : vec.started = true ∨ (s.engine (s.physOf (coreIx cl co) e.val)).ran = false ∨
      s.opWaits (s.physOf (coreIx cl co) e.val) = false)
    (hstall : s.ocuStalls cl.val (coreIx cl co) (s.engine (s.physOf (coreIx cl co) e.val)).station = false) :
    let pe := s.physOf (coreIx cl co) e.val
    exec (.enginePhase now cl co e) s =
      .next ((s.advance now).runPhase cl.val (coreIx cl co) e.val pe (s.engine pe) vec ph rest) := by
  intro pe
  refine (show exec (.enginePhase now cl co e) s = execEnginePhase now cl co e s from rfl).trans ?_
  unfold execEnginePhase
  extract_lets u core qe x
  have hcur' : x.cur = some vec := hcur
  have hstall' : u.ocuStalls cl.val core x.station = false := (s.ocuStalls_advance ..).trans hstall
  have hmay' : (!vec.started && x.ran && u.opWaits qe) = false := by
    rcases hmay with h | h | h
    · rw [h]
      rfl
    · rw [show x.ran = false from h, Bool.and_false, Bool.false_and]
    · rw [show u.opWaits qe = false from h, Bool.and_false]
  simp only [hcur', htodo, hmay', hstall', Bool.or_self, Bool.false_eq_true, if_false]
  rfl

/-- Settles O14: the next vector and its phases, and the next phase with its counters. -/
theorem vectorsRun : Obligations.VectorsRun := by
  unfold Obligations.VectorsRun
  constructor
  · intro now cl co e s tl core pe x n htile hv hfree hstall
    obtain ⟨v, heng, hd, hvv, hstart, hlen, htodo, hskip, htouch⟩ := (s.advance now).loadVector_spec cl.val core e.val pe tl
    obtain ⟨hcur, hnxt, hnext, hacc, hlatch⟩ := x.loaded_spec v x.nextV
    refine ⟨_, v, exec_vectorLoad_of_tile now htile hv hfree hstall, (congrArg Engine.cur heng).trans hcur,
      (congrArg Engine.nxt heng).trans hnxt, hd, hvv, hstart, hlen, htodo, (congrArg Engine.nextV heng).trans hnext,
      (congrArg Engine.acc heng).trans hacc, (congrArg Engine.latch heng).trans hlatch, hskip, htouch.bytes _, htouch.same .tiles⟩
  · intro now cl co e s vec ph rest core pe n hcur htodo hmay hstall
    obtain ⟨v, k, hv, hrest, hstart, hcodes, hvv, hk, hcount, hlatch, htouch, hregs⟩ :=
      (s.advance now).runPhase_spec cl.val core e.val pe (s.engine pe) vec ph rest
    exact ⟨_, v, k, exec_enginePhase_of_vector now hcur htodo hmay hstall, hv, hrest, hstart, hcodes, hvv, hk, hcount, hlatch,
      htouch.bytes _, htouch.same .tiles, htouch.same .stations, KeepsRegs.of_advance hregs⟩

end Sys2Proof.Machine
end

section
/-!
PROOF. Clears of counters, the outlier correction unit and promoted requests (R42, R62, R87, R128 to R131, O17).
-/

set_option Elab.async false

namespace Sys2Proof.Machine
open Sys2Proof

/-! ### Registers cleared together -/

/-- The registers of a list cleared in a unit. -/
def State.cleared0 (s : State) (fs : List Fld) (i : Nat) : State := fs.foldl (fun t f => t.setF f i 0) s

theorem State.cleared0_touches (s : State) (fs : List Fld) (i : Nat) : Touches [.regs] s (s.cleared0 fs i) :=
  Touches.foldl _ (fun t f => t.setF_touches f i 0) fs s

theorem State.cleared0_keepsRegs (s : State) (fs : List Fld) (i : Nat) :
    KeepsRegs s (s.cleared0 fs i) (fun f j => fs.contains f && j == i) :=
  KeepsRegs.foldl_setF (fun f => f) (fun _ => i) (fun _ => 0) fs (fun f hf => by simpa using hf) s

theorem State.getF_cleared0 (s : State) {fs : List Fld} (i : Nat) {f : Fld} (hf : f ∈ fs) : (s.cleared0 fs i).getF f i = 0 := by
  refine foldl_establishes (fun t f => t.setF f i 0) (fun t => t.getF f i = 0) (fun t g ht => ?_) hf (fun t => ?_) s
  · rw [State.getF_setF]
    split
    · exact Nat.zero_mod _
    · exact ht
  · exact (State.getF_setF_same ..).trans (Nat.zero_mod _)

/-! ### Clears of counters (R87, R131) -/

/-- The counters of an engine. -/
def engineCounters : List Fld := [Fld.ME_PHCNT_COUNT, .ME_SKIPCNT_COUNT, .ME_SATCNT_COUNT, .ME_SPLITCNT_COUNT, .ME_ESCCNT_COUNT,
  .ME_ESCMISS_COUNT, .ME_ACCSAT_COUNT]

/-- The counters of an OCU. -/
def ocuCounters : List Fld := [Fld.OCU_VREQ_COUNT, .OCU_EREQ_COUNT, .OCU_STAT_HIWAT]

/-- An engine whose clear keeps out what is counted in its cycle. -/
def State.clearMarked (s : State) (clr : SMap Nat) (pe at_ : Nat) : State := { s with clrAt := smapSet 0 clr pe at_ }

theorem State.clearMarked_touches (s : State) (clr : SMap Nat) (pe at_ : Nat) : Touches [.clrAt] s (s.clearMarked clr pe at_) :=
  Touches.of_withParts rfl

theorem State.cleared_clearMarked (s : State) (clr : SMap Nat) (pe : Nat) {at_ : Nat} (h : s.time + 1 = at_) :
    (s.clearMarked clr pe at_).cleared pe = true := by
  have hset : smapGet 0 (smapSet 0 clr pe at_) pe = at_ := smapGet_set_same ..
  unfold State.cleared State.clearMarked
  dsimp only
  rw [hset, h]
  exact beq_self_eq_true at_

theorem State.clrAt_clearMarked_ne (s : State) (clr : SMap Nat) {pe k : Nat} (at_ : Nat) (h : k ≠ pe) :
    smapGet 0 (s.clearMarked clr pe at_).clrAt k = smapGet 0 clr k := smapGet_set_ne clr at_ (Ne.symm h)

theorem exec_engineClrCnt_of_on {s : State} {cl : Cluster} {co : Core} {e : Eng} (now : Nat) (hon : s.coreOn (coreIx cl co) = true) :
    let pe := engIx (coreIx cl co) e.val
    exec (.engineClrCnt now cl co e) s = .next (((s.advance now).cleared0 engineCounters pe).clearMarked s.clrAt pe
      ((s.advance now).time + 1)) :=
  congrArg Host.Outcome.next (State.onReg_core (s := s.advance now) (r := .ME_CTL) rfl hon _ _ _)

theorem engineClrCnt_clears {s : State} {cl : Cluster} {co : Core} {e : Eng} (now : Nat) (hon : s.coreOn (coreIx cl co) = true) :
    let pe := engIx (coreIx cl co) e.val
    ∃ t, exec (.engineClrCnt now cl co e) s = .next t ∧ (∀ f, f ∈ engineCounters → t.getF f pe = 0) ∧ t.cleared pe = true ∧
      KeepsRegs s t (fun f i => engineCounters.contains f && i == pe) ∧
      t = { s.advance now with regs := t.regs, clrAt := t.clrAt } ∧
      (∀ k, k ≠ pe → smapGet 0 t.clrAt k = smapGet 0 s.clrAt k) := by
  intro pe
  have hzero := (s.advance now).cleared0_touches engineCounters pe
  have hregs := (s.advance now).cleared0_keepsRegs engineCounters pe
  have hget := fun f hf => (s.advance now).getF_cleared0 (fs := engineCounters) pe (f := f) hf
  refine ⟨_, exec_engineClrCnt_of_on now hon, ?_⟩
  have htime : ((s.advance now).cleared0 engineCounters pe).time = (s.advance now).time := hzero.same .time
  generalize (s.advance now).cleared0 engineCounters pe = u at hzero hregs hget htime ⊢
  have hmark := u.clearMarked_touches s.clrAt pe ((s.advance now).time + 1)
  have hboth : Touches [.regs, .clrAt] (s.advance now) (u.clearMarked s.clrAt pe ((s.advance now).time + 1)) :=
    hmark.after hzero.mono
  refine ⟨fun f hf => (hmark.getF f pe).trans (hget f hf), ?_, KeepsRegs.of_advance (hregs.touches hmark), hboth.eq_withParts,
    fun k hk => State.clrAt_clearMarked_ne _ _ _ hk⟩
  exact State.cleared_clearMarked _ _ _ (congrArg (· + 1) htime)

/-- An OCU whose times are cleared. -/
def Ocu.timesCleared (o : Ocu) : Ocu := { o with busy := 0, stall := 0 }

theorem State.ocu_advance (s : State) (now c : Nat) :
    ((s.advance now).ocu c).queue = (s.ocu c).queue ∧ ((s.advance now).ocu c).busy = (s.ocu c).busy := by
  refine smapGet_map_rel (R := fun x y : Ocu => y.queue = x.queue ∧ y.busy = x.busy) ⟨rfl, rfl⟩ (fun e => ?_) s.ocus c
  split <;> exact ⟨rfl, rfl, rfl⟩

theorem exec_ocuClrCnt_of_on {s : State} {cl : Cluster} (now : Nat) (hon : s.sharedOn cl.val = true) :
    exec (.ocuClrCnt now cl) s =
      .next (((s.advance now).setOcu cl.val ((s.advance now).ocu cl.val).timesCleared).cleared0 ocuCounters cl.val) :=
  congrArg Host.Outcome.next (State.onReg_shared (s := s.advance now) (r := .OCU_CTL) rfl hon _ _ _)

theorem ocuClrCnt_clears {s : State} {cl : Cluster} (now : Nat) (hon : s.sharedOn cl.val = true) :
    ∃ t, exec (.ocuClrCnt now cl) s = .next t ∧ (∀ f, f ∈ ocuCounters → t.getF f cl.val = 0) ∧
      (t.ocu cl.val).busy = 0 ∧ (t.ocu cl.val).stall = 0 ∧ (t.ocu cl.val).queue = (s.ocu cl.val).queue ∧
      KeepsRegs s t (fun f i => ocuCounters.contains f && i == cl.val) ∧
      t = { s.advance now with regs := t.regs, ocus := t.ocus } := by
  refine ⟨_, exec_ocuClrCnt_of_on now hon, ?_⟩
  obtain ⟨hqueue, -⟩ := s.ocu_advance now cl.val
  have hset : Touches [.ocus] (s.advance now) ((s.advance now).setOcu cl.val ((s.advance now).ocu cl.val).timesCleared) :=
    State.setOcu_touches ..
  have hocu := (s.advance now).ocu_setOcu_same cl.val ((s.advance now).ocu cl.val).timesCleared
  generalize (s.advance now).setOcu cl.val ((s.advance now).ocu cl.val).timesCleared = u at hset hocu ⊢
  have hclr := u.cleared0_touches ocuCounters cl.val
  have hboth : Touches [.regs, .ocus] (s.advance now) (u.cleared0 ocuCounters cl.val) := hclr.after hset.mono
  have hend := (hclr.ocu cl.val).trans hocu
  exact ⟨fun f hf => u.getF_cleared0 _ hf, congrArg Ocu.busy hend, congrArg Ocu.stall hend, (congrArg Ocu.queue hend).trans hqueue,
    KeepsRegs.of_advance (KeepsRegs.trans (hset.regs _) (u.cleared0_keepsRegs _ _)), hboth.eq_withParts⟩

/-! ### Service of a request (R62, R128, R130) -/

theorem State.ocuPush_busy (s : State) (c : Nat) (r : OcuReq) : ((s.ocuPush c r).ocu c).busy = (s.ocu c).busy := by
  unfold State.ocuPush
  extract_lets o q
  split
  · exact (congrArg Ocu.busy (((State.setF_touches ..).ocu c).trans (State.ocu_setOcu_same ..))).trans rfl
  · exact (congrArg Ocu.busy (State.ocu_setOcu_same ..)).trans rfl

/-- An OCU that holds other requests. -/
def Ocu.holding (o : Ocu) (held : List OcuReq) : Ocu := { o with held := held }

/-- What refilling a queue does. -/
theorem State.ocuRefill_spec (s : State) (c core : Nat) : Touches ocuParts s (s.ocuRefill c core) ∧
    KeepsRegs s (s.ocuRefill c core) (fun f i => f == .OCU_STAT_HIWAT && i == c) ∧
      ((s.ocuRefill c core).ocu c).busy = (s.ocu c).busy := by
  unfold State.ocuRefill
  extract_lets o
  split
  · next r _ =>
    split
    · have hset : Touches [.ocus] s (s.setOcu c (o.holding (o.held.erase r))) := s.setOcu_touches _ _
      exact ⟨(State.ocuPush_touches ..).after hset.mono, KeepsRegs.trans (hset.regs _) (State.ocuPush_keepsRegs _ _ _),
        (State.ocuPush_busy ..).trans ((congrArg Ocu.busy (State.ocu_setOcu_same ..)).trans rfl)⟩
    · exact ⟨Touches.refl _ s, KeepsRegs.refl s _, rfl⟩
  · exact ⟨Touches.refl _ s, KeepsRegs.refl s _, rfl⟩

/-- Terms of a request at the vector it belongs to: to the bank of the current one, or waiting with the next. -/
def State.termsDelivered (s : State) (r : OcuReq) : State :=
  let x := s.engine r.eng
  let mine (v : Vec) : Bool := v.d == r.d && v.v == r.v
  match x.cur, x.nxt with
  | some v, n =>
    if mine v then (s.setEngine r.eng { x with cur := some { v with ocu := v.ocu - 1 } }).addTerms r.eng r.terms
    else match n with
      | some w => if mine w then s.setEngine r.eng { x with nxt := some { w with ocu := w.ocu - 1, pre := w.pre ++ r.terms } } else s
      | none => s
  | none, _ => s

theorem State.termsDelivered_spec (s : State) (r : OcuReq) : Touches termParts s (s.termsDelivered r) ∧
    KeepsRegs s (s.termsDelivered r) (fun f i => f == .ME_ACCSAT_COUNT && i == r.eng) := by
  have hsame : Touches termParts s s ∧ KeepsRegs s s (fun f i => f == .ME_ACCSAT_COUNT && i == r.eng) :=
    ⟨Touches.refl _ s, KeepsRegs.refl s _⟩
  have hset (y : Engine) : Touches [.engines] s (s.setEngine r.eng y) := s.setEngine_touches _ _
  unfold State.termsDelivered
  extract_lets x mine
  split
  · split
    · obtain ⟨k, htouch, hregs, -⟩ := State.addTerms_spec _ r.eng r.terms
      exact ⟨htouch.after (hset _).mono, KeepsRegs.trans ((hset _).regs _) hregs⟩
    · split
      · split
        · exact ⟨(hset _).mono, (hset _).regs _⟩
        · exact hsame
      · exact hsame
  · exact hsame

/-- An OCU that has taken a request from its queue. -/
def Ocu.serving (o : Ocu) (rest : List OcuReq) (cost : Nat) : Ocu := { o with queue := rest, busy := min (o.busy + cost) 4294967295 }

/-- The cycles of a request (Table 4.6). -/
def OcuReq.cost (r : OcuReq) : Nat := if r.esc then 276 else 20 + 4 * r.rows

/-- The counter of a request. -/
def OcuReq.counter (r : OcuReq) : Fld := if r.esc then .OCU_EREQ_COUNT else .OCU_VREQ_COUNT

theorem State.serveOcu_eq (s : State) (c : Nat) (r : OcuReq) (rest : List OcuReq) : s.serveOcu c r rest =
    (((s.setOcu c ((s.ocu c).serving rest r.cost)).addHold r.counter c 1).termsDelivered r).ocuRefill c r.core := rfl

/-- What the service of a request does. -/
theorem State.serveOcu_spec (s : State) (c : Nat) (r : OcuReq) (rest : List OcuReq) :
    let t := s.serveOcu c r rest
    (t.ocu c).busy = min ((s.ocu c).busy + r.cost) 4294967295 ∧ t.getF r.counter c = min (s.getF r.counter c + 1) 4294967295 ∧
      (∀ f, f ≠ r.counter → f ≠ .ME_ACCSAT_COUNT → f ≠ .OCU_STAT_HIWAT → t.getF f c = s.getF f c) ∧
      Touches [.engines, .regs, .ocus] s t := by
  intro t
  unfold t
  rw [s.serveOcu_eq]
  have hset : Touches [.ocus] s (s.setOcu c ((s.ocu c).serving rest r.cost)) := s.setOcu_touches _ _
  have hocu := s.ocu_setOcu_same c ((s.ocu c).serving rest r.cost)
  generalize s.setOcu c ((s.ocu c).serving rest r.cost) = u at hset hocu ⊢
  have hadd := u.addHold_touches r.counter c 1
  have haddRegs : KeepsRegs u (u.addHold r.counter c 1) (fun f i => f == r.counter && i == c) := u.setF_keepsRegs _ _ _
  have haddGet := u.getF_addHold r.counter c 1
  generalize u.addHold r.counter c 1 = v at hadd haddRegs haddGet ⊢
  obtain ⟨hterm, htermRegs⟩ := v.termsDelivered_spec r
  generalize v.termsDelivered r = w at hterm htermRegs ⊢
  obtain ⟨hfill, hfillRegs, hfillBusy⟩ := w.ocuRefill_spec c r.core
  have hcounter : r.counter ≠ .ME_ACCSAT_COUNT ∧ r.counter ≠ .OCU_STAT_HIWAT ∧ r.counter.width = 32 := by
    unfold OcuReq.counter
    split <;> exact ⟨by decide, by decide, rfl⟩
  obtain ⟨hne, hne', hwidth⟩ := hcounter
  have hget (f : Fld) (h1 : f ≠ .ME_ACCSAT_COUNT) (h2 : f ≠ .OCU_STAT_HIWAT) :
      (w.ocuRefill c r.core).getF f c = v.getF f c :=
    (hfillRegs f c (by simp [h2])).trans (htermRegs f c (by simp [h1]))
  refine ⟨hfillBusy.trans ((congrArg Ocu.busy ((hterm.ocu c).trans ((hadd.ocu c).trans hocu))).trans rfl), ?_, ?_, ?_⟩
  · rw [hget _ hne hne', haddGet, hset.getF, hwidth]
    rfl
  · intro f h1 h2 h3
    exact (hget f h2 h3).trans ((haddRegs f c (by simp [h1])).trans (hset.getF f c))
  · exact hfill.after (hterm.after (hadd.after (hset.mono : Touches [.engines, .regs, .ocus] s u)))

/-- The service of the request at the head of an OCU's queue, of the state as the command finds it. -/
theorem State.serveOcu_advance_spec (s : State) (now c : Nat) (r : OcuReq) (rest : List OcuReq) :
    let t := (s.advance now).serveOcu c r rest
    (t.ocu c).busy = min ((s.ocu c).busy + r.cost) 4294967295 ∧ t.getF r.counter c = min (s.getF r.counter c + 1) 4294967295 ∧
      (∀ f, f ≠ r.counter → f ≠ .ME_ACCSAT_COUNT → f ≠ .OCU_STAT_HIWAT → t.getF f c = s.getF f c) ∧ KeepsBytes s t nowhere ∧
      t = { s.advance now with engines := t.engines, regs := t.regs, ocus := t.ocus } := by
  intro t
  obtain ⟨hbusy, hcount, hrest, htouch⟩ := (s.advance now).serveOcu_spec c r rest
  obtain ⟨-, hwas⟩ := s.ocu_advance now c
  exact ⟨hbusy.trans (by rw [hwas]), hcount, hrest, htouch.bytes _, htouch.eq_withParts⟩

theorem exec_ocuVectorService_of_head {s : State} {cl : Cluster} {r : OcuReq} {rest : List OcuReq} (now : Nat)
    (hqueue : (s.ocu cl.val).queue = r :: rest) (hesc : r.esc = false) :
    exec (.ocuVectorService now cl) s = .next ((s.advance now).serveOcu cl.val r rest) := by
  obtain ⟨hadv, -⟩ := s.ocu_advance now cl.val
  refine (show exec (.ocuVectorService now cl) s = execOcuVectorService now cl s from rfl).trans ?_
  unfold execOcuVectorService
  simp only [hadv, hqueue, hesc, Bool.false_eq_true, if_false]

theorem exec_ocuEscalationService_of_head {s : State} {cl : Cluster} {r : OcuReq} {rest : List OcuReq} (now : Nat)
    (hqueue : (s.ocu cl.val).queue = r :: rest) (hesc : r.esc = true) :
    exec (.ocuEscalationService now cl) s = .next ((s.advance now).serveOcu cl.val r rest) := by
  obtain ⟨hadv, -⟩ := s.ocu_advance now cl.val
  refine (show exec (.ocuEscalationService now cl) s = execOcuEscalationService now cl s from rfl).trans ?_
  unfold execOcuEscalationService
  simp only [hadv, hqueue, hesc, if_true]

/-! ### Promoted requests of a core memory (R42, Table 1.10) -/

theorem exec_cmRequestPromote_of_waited {s : State} {now since : Nat} {cl : Cluster} {co : Core} {off : BitVec 19} {req : Fin 24}
    (hon : s.coreOn (coreIx cl co) = true) (hwait : since + 32 ≤ max s.time now)
    (hfree : (s.advance now).cmWait.any
      (fun x => x.core == coreIx cl co && x.bank == off.toNat / 32 % 8 && x.req == req.val) = false) :
    exec (.cmRequestPromote now cl co off req since) s = .next { s.advance now with
      cmWait := (s.advance now).cmWait ++ [{ core := coreIx cl co, bank := off.toNat / 32 % 8, req := req.val, since := since }] } := by
  refine if_pos ?_
  simp only [Bool.and_eq_true, decide_eq_true_eq, Bool.not_eq_true']
  exact ⟨⟨hon, hwait⟩, hfree⟩

theorem CmReq.before_iff (last : SMap Nat) (a b : CmReq) : a.before last b = true ↔ a.since < b.since ∨ (a.since = b.since ∧
    (cmLevel a.req < cmLevel b.req ∨ (cmLevel a.req = cmLevel b.req ∧ a.turn last < b.turn last))) := by
  simp [CmReq.before]

/-! ### O17 -/

/-- Settles O17: the clears of counters, the requests an OCU serves, and those of core memory that are promoted. -/
theorem countersAndRequests : Obligations.CountersAndRequests := by
  unfold Obligations.CountersAndRequests
  refine ⟨⟨fun now cl co e s hon => engineClrCnt_clears now hon, fun now cl s hon => ocuClrCnt_clears now hon⟩,
    fun now cl s r rest hqueue => ⟨fun hesc => ?_, fun hesc => ?_⟩,
    fun now cl co off req since s hon hwait hfree => exec_cmRequestPromote_of_waited hon hwait hfree, CmReq.before_iff⟩
  · obtain ⟨hbusy, hcount, hrest, hbytes, honly⟩ := s.serveOcu_advance_spec now cl.val r rest
    rw [show r.cost = 20 + 4 * r.rows by simp [OcuReq.cost, hesc]] at hbusy
    rw [show r.counter = .OCU_VREQ_COUNT by simp [OcuReq.counter, hesc]] at hcount hrest
    exact ⟨_, exec_ocuVectorService_of_head now hqueue hesc, hbusy, hcount, hrest _ (by decide) (by decide) (by decide), hbytes, honly⟩
  · obtain ⟨hbusy, hcount, hrest, hbytes, honly⟩ := s.serveOcu_advance_spec now cl.val r rest
    rw [show r.cost = 276 by simp [OcuReq.cost, hesc]] at hbusy
    rw [show r.counter = .OCU_EREQ_COUNT by simp [OcuReq.counter, hesc]] at hcount hrest
    exact ⟨_, exec_ocuEscalationService_of_head now hqueue hesc, hbusy, hcount, hrest _ (by decide) (by decide) (by decide), hbytes,
      honly⟩

end Sys2Proof.Machine
end

section
/-!
PROOF. Partial sums, the output stage and the VXE (R72, R73, R96 to R100, R464, O16).
-/

set_option Elab.async false

namespace Sys2Proof.Machine
open Sys2Proof

/-! ### Writes under error correction leave every other byte -/

theorem State.writeWord_keepsBytes (s : State) (m w a : Nat) (bs : List Byte) :
    KeepsBytes s (s.writeWord m w a bs).1 (fun j => decide (a ≤ j ∧ j < a + bs.length)) := by
  have hset : KeepsBytes s ({ s with sram := setBytes s.sram a bs }.mark w 0) (fun j => decide (a ≤ j ∧ j < a + bs.length)) :=
    fun j hj => (s.byte_setBytes a bs j).trans (if_neg (of_decide_eq_false hj))
  unfold State.writeWord
  dsimp only
  split
  · exact hset
  · split
    · exact hset.trans ((State.eccEvent_touches ..).bytes _)
    · exact KeepsBytes.trans ((s.mark_touches w 0x7F).bytes _) ((State.eccEvent_touches ..).bytes _)

/-- What a write of a range does: no byte outside it, and the registers of error correction alone. -/
theorem State.writeMem_spec (s : State) (m : Nat) (skip : Nat → Bool) (a : Nat) (bs : List Byte) :
    KeepsBytes s (s.writeMem m skip a bs).1 (fun j => decide (a ≤ j ∧ j < a + bs.length)) ∧
      Touches eccWriteParts s (s.writeMem m skip a bs).1 ∧ KeepsRegs s (s.writeMem m skip a bs).1 eccWrites := by
  refine List.foldlRecOn (motive := fun r : State × Bool => KeepsBytes s r.1 (fun j => decide (a ≤ j ∧ j < a + bs.length)) ∧
    Touches eccWriteParts s r.1 ∧ KeepsRegs s r.1 eccWrites) (wordsOf a bs.length) _
    ⟨KeepsBytes.refl s _, Touches.refl _ s, KeepsRegs.refl s _⟩ (fun r hr w _ => ?_)
  obtain ⟨hbytes, htouch, hregs⟩ := hr
  dsimp only
  split
  · exact ⟨hbytes, htouch, hregs⟩
  · refine ⟨hbytes.trans fun j hj => State.writeWord_keepsBytes _ _ _ _ _ j (decide_eq_false fun hin => of_decide_eq_false hj ?_),
      (State.writeWord_touches ..).after htouch, hregs.trans (State.writeWord_keepsRegs _ _ _ _ _)⟩
    exact ((bytesIn_spec a bs w j).1.mp hin).1

/-! ### A tile in progress -/

theorem State.d_of_tileOf {s : State} {core d : Nat} {t : Tile} (h : s.tileOf core d = some t) : t.d = d :=
  eq_of_beq (List.find?_some (p := fun t : Tile => t.d == d) h)

theorem State.tileOf_setCoreTiles_map (s : State) (core d : Nat) (f : Tile → Tile) (hf : ∀ t, (f t).d = t.d) :
    (s.setCoreTiles core ((s.coreTiles core).map f)).tileOf core d = (s.tileOf core d).map f := by
  unfold State.tileOf
  rw [State.coreTiles_setCoreTiles_same, List.find?_map]
  exact congrArg (Option.map f) (congrArg (fun p => List.find? p _) (funext fun t => congrArg (· == d) (hf t)))

theorem State.tileOf_putTile {s : State} {core : Nat} {t u : Tile} (h : s.tileOf core t.d = some u) :
    (s.putTile core t).tileOf core t.d = some t := by
  unfold State.putTile
  rw [State.tileOf_setCoreTiles_map _ _ _ _ fun v => ?_, h]
  · exact congrArg some (if_pos (beq_iff_eq.mpr (State.d_of_tileOf h)))
  · split
    · next hv => exact (eq_of_beq hv).symm
    · rfl

theorem State.putTile_touches (s : State) (core : Nat) (t : Tile) : Touches [.tiles] s (s.putTile core t) := s.setCoreTiles_touches ..

/-! ### The end of a vector (R65, R92, R111) -/

/-- An engine with a free latch. -/
def Engine.unlatched (x : Engine) : Engine := { x with latch := none }

/-- A tile one more vector of which is done. -/
def Tile.vectorAdded (t : Tile) (l : Latch) (sats : Nat) : Tile :=
  { t with
    flags := t.flags ||| ((if l.prov then 1 else 0) ||| (if l.poison then 2 else 0) ||| (if l.sat || sats != 0 then 8 else 0))
    done := t.done ++ [l.v], pois := if l.poison then t.pois ++ [l.v] else t.pois }

theorem State.vectorDone_eq (s : State) (core pe : Nat) (t : Tile) (l : Latch) (sats : Nat) : s.vectorDone core pe t l sats =
    let u := (s.setEngine pe (s.engine pe).unlatched).putTile core (t.vectorAdded l sats)
    if sats = 0 then u else u.count t.st 0 sats := rfl

/-- The parts that the end of a vector touches. -/
def doneParts : List Part := [.engines, .tiles] ++ stnCountParts

theorem State.vectorDone_spec {s : State} {core : Nat} {t u : Tile} (h : s.tileOf core t.d = some u) (pe : Nat) (l : Latch)
    (sats : Nat) : (s.vectorDone core pe t l sats).tileOf core t.d = some (t.vectorAdded l sats) ∧
      ((s.vectorDone core pe t l sats).engine pe).latch = none ∧ Touches doneParts s (s.vectorDone core pe t l sats) := by
  rw [State.vectorDone_eq]
  have hset : Touches [.engines] s (s.setEngine pe (s.engine pe).unlatched) := s.setEngine_touches _ _
  have hpe := s.engine_setEngine_same pe (s.engine pe).unlatched
  have htile : (s.setEngine pe (s.engine pe).unlatched).tileOf core t.d = some u := h
  generalize s.setEngine pe (s.engine pe).unlatched = v at hset hpe htile ⊢
  have hput := v.putTile_touches core (t.vectorAdded l sats)
  have hputTile : (v.putTile core (t.vectorAdded l sats)).tileOf core t.d = some (t.vectorAdded l sats) :=
    State.tileOf_putTile (t := t.vectorAdded l sats) htile
  generalize v.putTile core (t.vectorAdded l sats) = w at hput hputTile ⊢
  have hend : Touches stnCountParts w (if sats = 0 then w else w.count t.st 0 sats) :=
    Touches.ite _ (Touches.refl _ w) (w.count_touches ..)
  dsimp only
  generalize (if sats = 0 then w else w.count t.st 0 sats) = r at hend ⊢
  refine ⟨?_, ?_, hend.after (hput.after (hset.mono : Touches doneParts s v))⟩
  · unfold State.tileOf at *
    rw [hend.coreTiles]
    exact hputTile
  · exact (congrArg Engine.latch ((hend.engine pe).trans ((hput.engine pe).trans hpe))).trans rfl

/-! ### A vector of an output slot (R72, R97) -/

/-- The bytes of vector v of the output slot of a tile. -/
def State.vectorBytes (s : State) (t : Tile) (v stride : Nat) : Nat → Bool := fun a =>
  match t.outs.head? with
  | some r => decide (s.slotAddr r + 64 + v * stride ≤ a ∧ a < s.slotAddr r + 64 + v * stride + stride)
  | none => false

theorem padTo_length {n : Nat} {bs : List Byte} (h : bs.length ≤ n) : (padTo n bs).length = n := by
  unfold padTo
  rw [List.length_append, List.length_replicate]
  omega

/-- The parts that writing a vector touches. -/
def vectorParts : List Part := [.tiles] ++ eccWriteParts

/-- A tile whose flags say that it holds poison. -/
def Tile.poisoned (t : Tile) : Tile := { t with flags := t.flags ||| 2 }

theorem State.putVector_spec {s : State} {core : Nat} {t u : Tile} (h : s.tileOf core t.d = some u) (hdone : u.done = t.done)
    {stride : Nat} {bs : List Byte} (hlen : bs.length ≤ stride) (v : Nat) :
    (∃ w, (s.putVector core t stride v bs).tileOf core t.d = some w ∧ w.done = t.done) ∧
      KeepsBytes s (s.putVector core t stride v bs) (s.vectorBytes t v stride) ∧
      Touches vectorParts s (s.putVector core t stride v bs) := by
  unfold State.putVector State.vectorBytes
  split
  · next r hr =>
    simp only [hr]
    obtain ⟨hbytes, htouch, -⟩ :=
      s.writeMem_spec (fnMaster (s.station t.st).owner) (fun _ => false) (s.slotAddr r + 64 + v * stride) (padTo stride bs)
    rw [padTo_length hlen] at hbytes
    generalize s.writeMem (fnMaster (s.station t.st).owner) (fun _ => false) (s.slotAddr r + 64 + v * stride) (padTo stride bs) = w
      at hbytes htouch ⊢
    have htile : w.1.tileOf core t.d = some u := by
      unfold State.tileOf
      rw [htouch.coreTiles]
      exact h
    split
    · have hput := w.1.putTile_touches core t.poisoned
      have hputTile : (w.1.putTile core t.poisoned).tileOf core t.d = some t.poisoned :=
        State.tileOf_putTile (t := t.poisoned) htile
      exact ⟨⟨t.poisoned, hputTile, rfl⟩, hbytes.trans (hput.bytes _), hput.after htouch.mono⟩
    · exact ⟨⟨u, htile, hdone⟩, hbytes, htouch.mono⟩
  · exact ⟨⟨u, h, hdone⟩, KeepsBytes.refl s _, Touches.refl _ s⟩

theorem State.putVector_frame (s : State) (core : Nat) (t : Tile) (stride v : Nat) (bs : List Byte) :
    Touches vectorParts s (s.putVector core t stride v bs) ∧ KeepsRegs s (s.putVector core t stride v bs) eccWrites := by
  unfold State.putVector
  split
  · next r _ =>
    obtain ⟨-, htouch, hregs⟩ :=
      s.writeMem_spec (fnMaster (s.station t.st).owner) (fun _ => false) (s.slotAddr r + 64 + v * stride) (padTo stride bs)
    dsimp only
    split
    · exact ⟨(State.putTile_touches ..).after htouch.mono, hregs.touches (State.putTile_touches ..)⟩
    · exact ⟨htouch.mono, hregs⟩
  · exact ⟨Touches.refl _ s, KeepsRegs.refl s _⟩

/-- The engine that a logical one stands for is kept with the engines and the map of spares (R32). -/
theorem State.physOf_congr {s t : State} (heng : ∀ j, t.engine j = s.engine j) {w : Fld → Nat → Bool} (h : KeepsRegs s t w)
    (core : Nat) (hk : w .CCTL_EMAP_SPARE_USED core = false ∧ w .CCTL_EMAP_SPARE_FOR core = false) (e : Nat) :
    t.physOf core e = s.physOf core e := by
  unfold State.physOf State.mapOf State.bit
  rw [heng, h _ _ hk.1, h _ _ hk.2]

/-! ### A complete result -/

theorem State.tileOf_of_resultOf {s : State} {core e : Nat} {tl : Tile} {o : Opw} {l : Latch}
    (h : s.resultOf core e = some (tl, o, l)) :
    s.tileOf core tl.d = some tl ∧ (s.engine (s.physOf core e)).latch = some l := by
  unfold State.resultOf at h
  extract_lets x at h
  split at h
  · next l' t' hl ht =>
    split at h
    · obtain ⟨rfl, -, rfl⟩ : t' = tl ∧ _ = o ∧ l' = l := by simpa only [Option.some.injEq, Prod.mk.injEq] using h
      obtain ⟨d, -, htile⟩ := Option.bind_eq_some_iff.mp ht
      refine ⟨?_, hl⟩
      rw [State.d_of_tileOf htile]
      exact htile
    · cases h
  · cases h

theorem length_leBytes (n v : Nat) : (leBytes n v).length = n := by
  induction n generalizing v with
  | zero => rfl
  | succ n ih => exact congrArg (· + 1) (ih _)

/-- The bytes of n elements of k bytes each. -/
theorem length_flatMap_leBytes {α : Type} (k : Nat) (f : α → Nat) (xs : List α) :
    (xs.flatMap (fun x => leBytes k (f x))).length = xs.length * k := by
  rw [List.length_flatMap]
  simp [length_leBytes]

/-- The end of a vector of the tile in progress for a descriptor, if there is one. -/
def State.vectorEnded (s : State) (core pe d : Nat) (l : Latch) (sats : Nat) : State :=
  match s.tileOf core d with
  | some u => s.vectorDone core pe u l sats
  | none => s

/-- What writing a vector and ending it do, of a tile in progress that has the vectors done that t has. -/
theorem State.vectorWritten_spec {s : State} {core : Nat} {t u : Tile} (h : s.tileOf core t.d = some u) (hdone : u.done = t.done)
    {stride : Nat} {bs : List Byte} (hlen : bs.length ≤ stride) (pe : Nat) (l l' : Latch) (hl : l'.v = l.v) (sats : Nat) :
    let v := s.putVector core t stride l.v bs
    let r := v.vectorEnded core pe t.d l' sats
    (∃ w, v.tileOf core t.d = some w) ∧ (∃ w, r.tileOf core t.d = some w ∧ w.done = t.done ++ [l.v]) ∧
      (r.engine pe).latch = none ∧ KeepsBytes s r (s.vectorBytes t l.v stride) := by
  obtain ⟨⟨w, hw, hwdone⟩, hbytes, -⟩ := State.putVector_spec h hdone hlen l.v
  generalize s.putVector core t stride l.v bs = v at hw hbytes ⊢
  have hd : w.d = t.d := State.d_of_tileOf hw
  have hw' : v.tileOf core w.d = some w := by rw [hd]; exact hw
  obtain ⟨htile, hlatch, htouch⟩ := State.vectorDone_spec hw' pe l' sats
  have hr : v.vectorEnded core pe t.d l' sats = v.vectorDone core pe w l' sats := by
    unfold State.vectorEnded
    rw [hw]
  dsimp only
  rw [hr, ← hd]
  exact ⟨⟨w, hw'⟩, ⟨_, htile, congrArg₂ (fun a b => a ++ [b]) hwdone hl⟩, hlatch, hbytes.trans (htouch.bytes _)⟩

theorem State.vectorBytes_congr {s t : State} {tl : Tile} (h : ∀ r, t.slotAddr r = s.slotAddr r) (v stride : Nat) :
    t.vectorBytes tl v stride = s.vectorBytes tl v stride := by
  unfold State.vectorBytes
  simp only [h]

/-- The address of a slot is kept with the registers of its base. -/
theorem KeepsRegs.slotAddr {s t : State} {w : Fld → Nat → Bool} (h : KeepsRegs s t w)
    (hk : ∀ i, w .KMC_SLOT_BASE i = false ∧ w .CMC_SLOT_BASE i = false := by exact fun _ => ⟨rfl, rfl⟩) (r : SlotRef) :
    t.slotAddr r = s.slotAddr r := by
  unfold State.slotAddr
  rw [h _ _ (hk r.inst).1, h _ _ (hk r.inst).2]

theorem State.outTable_spec {s : State} {core : Nat} {t : Tile} (h : s.tileOf core t.d = some t) (pe : Nat) (l : Latch) :
    ∃ u, (s.outTable core pe t l).tileOf core t.d = some u ∧ u.done = t.done ++ [l.v] ∧
      ((s.outTable core pe t l).engine pe).latch = none ∧
      KeepsBytes s (s.outTable core pe t l) (s.vectorBytes t l.v (vstride 0 (s.station t.st).ncol)) := by
  unfold State.outTable
  extract_lets st base v els tainted w
  have hv : Touches eccParts s v := s.readEcc_touches ..
  have haddr : ∀ r, v.slotAddr r = s.slotAddr r := KeepsRegs.slotAddr (s.readEcc_keepsRegs _ _ _)
  have htile : v.tileOf core t.d = some t := by
    unfold State.tileOf
    rw [hv.coreTiles]
    exact h
  have hlen : (els.flatMap (fun x => leBytes 2 x.1)).length ≤ vstride 0 st.ncol := by
    have hels : els.length = st.ncol := by simp [els]
    rw [length_flatMap_leBytes, hels]
    show st.ncol * 2 ≤ (2 * st.ncol + 31) / 32 * 32
    omega
  obtain ⟨-, ⟨u, hu, hdone⟩, hlatch, hbytes⟩ :=
    State.vectorWritten_spec htile rfl hlen pe l { l with poison := tainted } rfl (els.filter (·.2)).length
  rw [State.vectorBytes_congr haddr] at hbytes
  exact ⟨u, hu, hdone, hlatch, KeepsBytes.trans (hv.bytes _) hbytes⟩

theorem State.outSpill_spec {s : State} {core : Nat} {t : Tile} (h : s.tileOf core t.d = some t) (pe : Nat) (l : Latch) :
    ∃ u, (s.outSpill core pe t l).tileOf core t.d = some u ∧ u.done = t.done ++ [l.v] ∧
      ((s.outSpill core pe t l).engine pe).latch = none ∧
      KeepsBytes s (s.outSpill core pe t l) (s.vectorBytes t l.v 1024) := by
  unfold State.outSpill
  extract_lets vals w
  have hlen : (vals.flatMap (leBytes 4)).length ≤ 1024 :=
    Nat.le_of_eq ((length_flatMap_leBytes 4 (fun x => x) vals).trans (by simp [vals]))
  obtain ⟨-, ⟨u, hu, hdone⟩, hlatch, hbytes⟩ := State.vectorWritten_spec h rfl hlen pe l l rfl 0
  exact ⟨u, hu, hdone, hlatch, hbytes⟩

/-! ### The output stage (R72) -/

theorem State.stageDue {o : Opw} {l : Latch} (h : o.addin = true → l.padded = true) : (o.addin && !l.padded) = false := by
  cases ha : o.addin with
  | true => rw [h ha]; rfl
  | false => rfl

section Stage
variable {s : State} {cl : Cluster} {co : Core} {e : Fin 16} {tl : Tile} {o : Opw} {l : Latch} (now : Nat)
  (hres : s.resultOf (coreIx cl co) e.val = some (tl, o, l)) (hdue : o.addin = true → l.padded = true)
include hres hdue

theorem exec_outputStage_of_result : exec (.outputStage now cl co e) s =
    let core := coreIx cl co
    let pe := s.physOf core e.val
    if o.out = 0 then .next ((s.advance now).outTable core pe tl l)
    else if o.out = 1 then .next ((s.advance now).setEngine pe { s.engine pe with latch := some { l with offered := true } })
    else .next ((s.advance now).outSpill core pe tl l) := by
  refine (show exec (.outputStage now cl co e) s = execOutputStage now cl co e s from rfl).trans ?_
  unfold execOutputStage
  extract_lets u core pe
  have hres' : u.resultOf core e.val = some (tl, o, l) := hres
  simp only [hres', State.stageDue hdue, Bool.false_eq_true, if_false]
  rfl

theorem exec_outputStage_writes (hout : o.out ≠ 1) :
    let core := coreIx cl co
    let pe := s.physOf core e.val
    let stride := if o.out = 0 then vstride 0 (s.station tl.st).ncol else 1024
    ∃ (t : State) (u : Tile), exec (.outputStage now cl co e) s = .next t ∧
      t.tileOf core tl.d = some u ∧ u.done = tl.done ++ [l.v] ∧ (t.engine pe).latch = none ∧
      KeepsBytes s t (s.vectorBytes tl l.v stride) := by
  intro core pe stride
  obtain ⟨htile, -⟩ := State.tileOf_of_resultOf hres
  have htile' : (s.advance now).tileOf core tl.d = some tl := htile
  rw [exec_outputStage_of_result now hres hdue]
  dsimp only
  unfold stride
  by_cases h0 : o.out = 0
  · obtain ⟨u, hu, hdone, hlatch, hbytes⟩ := State.outTable_spec htile' pe l
    rw [if_pos h0, if_pos h0]
    exact ⟨_, u, rfl, hu, hdone, hlatch, hbytes⟩
  · obtain ⟨u, hu, hdone, hlatch, hbytes⟩ := State.outSpill_spec htile' pe l
    rw [if_neg h0, if_neg h0, if_neg hout]
    exact ⟨_, u, rfl, hu, hdone, hlatch, hbytes⟩

end Stage

/-! ### The VXE (R100, R464) -/

/-- A tile in progress after a turn of the VXE. -/
def Tile.vxeMoved (t : Tile) : Tile :=
  if t.unit = 17 then { t with worked := if t.turn then min (t.worked + 1) t.nvec else t.worked, turn := true } else t

theorem Tile.vxeMoved_spec (t : Tile) : t.vxeMoved.d = t.d ∧ t.vxeMoved.done = t.done := by
  unfold Tile.vxeMoved
  split <;> exact ⟨rfl, rfl⟩

theorem State.vxeTurn_spec {s : State} {core d : Nat} {t : Tile} (h : s.tileOf core d = some t) :
    (s.vxeTurn core).tileOf core d = some t.vxeMoved ∧ Touches [.tiles] s (s.vxeTurn core) :=
  ⟨(State.tileOf_setCoreTiles_map s core d Tile.vxeMoved fun t => t.vxeMoved_spec.1).trans (by rw [h]; rfl),
    s.setCoreTiles_touches ..⟩

theorem vstride_holds {fmt : Nat} (h : fmt ≤ 1) (n : Nat) : n * 2 ≤ vstride fmt n := by
  unfold vstride
  rw [if_neg (by omega)]
  omega

theorem exec_vxeRescale_writes {s : State} {cl : Cluster} {co : Core} {since e x : Nat} {tl : Tile} {o : Opw} {l : Latch}
    (now : Nat) (hfirst : first (s.offered (coreIx cl co)) = some (since, e, x))
    (hres : s.resultOf (coreIx cl co) e = some (tl, o, l)) (hfmt : (s.station tl.st).outFmt ≤ 1) :
    let core := coreIx cl co
    let y := s.station tl.st
    ∃ (t : State) (u : Tile), exec (.vxeRescale now cl co) s = .next t ∧
      t.tileOf core tl.d = some u ∧ u.done = tl.done ++ [l.v] ∧ (t.engine (s.physOf core e)).latch = none ∧
      KeepsBytes s t (s.vectorBytes tl l.v (vstride y.outFmt y.ncol)) := by
  intro core y
  obtain ⟨htile, -⟩ := State.tileOf_of_resultOf hres
  rw [show exec (.vxeRescale now cl co) s = execVxeRescale now cl co s from rfl]
  unfold execVxeRescale
  extract_lets u v
  have hfirst' : first (u.offered core) = some (since, e, x) := hfirst
  have hres' : u.resultOf core e = some (tl, o, l) := hres
  obtain ⟨hturn, hturnTouch⟩ := State.vxeTurn_spec (s := u) (core := core) (d := tl.d) (t := tl) htile
  obtain ⟨hd, hdone⟩ := tl.vxeMoved_spec
  simp -zeta only [hfirst', hres']
  extract_lets st base w els tainted p
  have hv : Touches [.tiles] u v := hturnTouch
  have hw : Touches eccParts v w := v.readEcc_touches ..
  have haddr (r : SlotRef) : w.slotAddr r = s.slotAddr r := KeepsRegs.slotAddr (t := w) (v.readEcc_keepsRegs _ _ _) (r := r)
  have hphys : p.physOf core e = s.physOf core e := by
    obtain ⟨hp, hpregs⟩ := w.burn.putVector_frame core tl (vstride st.outFmt st.ncol) l.v (els.flatMap (fun x => leBytes 2 x.1))
    refine (State.physOf_congr (fun j => hp.engine j) hpregs core ⟨rfl, rfl⟩ e).trans ?_
    exact State.physOf_congr (t := w) (fun j => hw.engine j) (v.readEcc_keepsRegs _ _ _) core ⟨rfl, rfl⟩ e
  have hst : st = y := hv.station tl.st
  have hwtile : w.burn.tileOf core tl.d = some tl.vxeMoved := (congrArg (List.find? _) (hw.coreTiles core)).trans hturn
  have hlen : (els.flatMap (fun x => leBytes 2 x.1)).length ≤ vstride st.outFmt st.ncol := by
    have hels : els.length = st.ncol := by simp [els]
    rw [length_flatMap_leBytes, hels]
    exact vstride_holds (by rw [hst]; exact hfmt) _
  obtain ⟨⟨r, hr⟩, ⟨q, hq, hqdone⟩, hlatch, hbytes⟩ :=
    State.vectorWritten_spec hwtile hdone hlen (s.physOf core e) l { l with poison := tainted } rfl (els.filter (·.2)).length
  have hend : p.vectorEnded core (s.physOf core e) tl.d { l with poison := tainted } (els.filter (·.2)).length =
      p.vectorDone core (s.physOf core e) r { l with poison := tainted } (els.filter (·.2)).length := by
    unfold State.vectorEnded
    rw [show p.tileOf core tl.d = some r from hr]
  rw [show p.tileOf core tl.d = some r from hr]
  dsimp only
  refine ⟨_, q, congrArg Host.Outcome.next ?_, hq, hqdone, hlatch, ?_⟩
  · rw [hphys]
    exact hend.symm
  · rw [State.vectorBytes_congr (s := s) (t := w.burn) haddr, hst] at hbytes
    exact KeepsBytes.trans (((s.advance_touches now).bytes _).trans ((hv.bytes _).trans (hw.bytes _))) hbytes

/-! ### Partial sums (R73, R96) -/

/-- Every register but the bases of slots. -/
def notBases (f : Fld) (_ : Nat) : Bool := f != .KMC_SLOT_BASE && f != .CMC_SLOT_BASE

/-- The parts that reading a partial-sum tile touches. -/
def partialParts : List Part := stnCountParts ++ eccParts

/-- A partial-sum tile is read: a full one is taken first. -/
def State.partialRead (v owner st : Nat) (u : State) (r : SlotRef) : State :=
  (if u.slot r == 2 then (if u.torn r then (u.setTorn r false).count st 2 1 else u).setSlot r 3 else u).readEcc
    (fnMaster owner) (u.slotAddr r + 64 + 1024 * v) 1024

theorem KeepsRegs.notBases {s t : State} {p : Fld → Nat → Bool} (h : KeepsRegs s t p)
    (hp : ∀ i, p .KMC_SLOT_BASE i = false ∧ p .CMC_SLOT_BASE i = false := by exact fun _ => ⟨rfl, rfl⟩) : KeepsRegs s t notBases := by
  refine h.mono fun f i hf => ?_
  have hor : f = .KMC_SLOT_BASE ∨ f = .CMC_SLOT_BASE := by
    by_contra hc
    simp only [not_or] at hc
    simp [Machine.notBases, hc] at hf
  rcases hor with rfl | rfl
  · exact (hp i).1
  · exact (hp i).2

theorem State.partialRead_frame (v owner st : Nat) (u : State) (r : SlotRef) :
    Touches partialParts u (State.partialRead v owner st u r) ∧ KeepsRegs u (State.partialRead v owner st u r) notBases := by
  have htorn : Touches partialParts u (if u.torn r then (u.setTorn r false).count st 2 1 else u) ∧
      KeepsRegs u (if u.torn r then (u.setTorn r false).count st 2 1 else u) notBases := by
    refine ⟨Touches.ite _ ((State.count_touches ..).after (State.setTorn_touches ..).mono) (Touches.refl _ u),
      KeepsRegs.ite _ (KeepsRegs.trans ?_ (State.count_keepsRegs _ _ _ _).notBases) (KeepsRegs.refl u _)⟩
    exact KeepsRegs.ite _ ((KeepsRegs.refl u _).setF rfl _) ((KeepsRegs.refl u _).setF rfl _)
  unfold State.partialRead
  generalize (if u.torn r then (u.setTorn r false).count st 2 1 else u) = w at htorn ⊢
  obtain ⟨htouch, hregs⟩ := htorn
  have htaken : Touches partialParts u (if u.slot r == 2 then w.setSlot r 3 else u) ∧
      KeepsRegs u (if u.slot r == 2 then w.setSlot r 3 else u) notBases :=
    ⟨Touches.ite _ ((State.setSlot_touches ..).after htouch) (Touches.refl _ u),
      KeepsRegs.ite _ (hregs.trans (State.setSlot_keepsRegs _ _ _).notBases) (KeepsRegs.refl u _)⟩
  generalize (if u.slot r == 2 then w.setSlot r 3 else u) = x at htaken ⊢
  obtain ⟨htouch', hregs'⟩ := htaken
  exact ⟨(State.readEcc_touches ..).after htouch', hregs'.trans (State.readEcc_keepsRegs _ _ _ _).notBases⟩

theorem State.partialsRead_frame (v owner st : Nat) (rs : List SlotRef) (s : State) :
    Touches partialParts s (rs.foldl (State.partialRead v owner st) s) ∧
      KeepsRegs s (rs.foldl (State.partialRead v owner st) s) notBases :=
  ⟨Touches.foldl _ (fun u r => (State.partialRead_frame v owner st u r).1) rs s,
    KeepsRegs.foldl _ (fun u r => (State.partialRead_frame v owner st u r).2) rs s⟩

/-- A partial-sum vector reads the same where the bytes, their words' errors and the bases of slots are the same. -/
theorem State.partial_congr {s t : State} (hsram : t.sram = s.sram) (hecc : t.ecc = s.ecc) (haddr : ∀ r, t.slotAddr r = s.slotAddr r)
    (r : SlotRef) (v cols : Nat) : t.partial_ r v cols = s.partial_ r v cols := by
  have hbytes (a n : Nat) : t.bytes a n = s.bytes a n := by
    unfold State.bytes State.byte
    rw [hsram]
  have hpoison (a n : Nat) : t.readsPoison a n = s.readsPoison a n := by
    unfold State.readsPoison State.syndrome
    rw [hecc]
  unfold State.partial_ State.hdrFlags State.hdrNvec State.hdr
  simp only [hbytes, hpoison, haddr]

/-- A latch after its partial sums, and the saturations of adding them. -/
def partialsAdded (vals : List Int) (ps : List (List Int)) : List Int × Nat :=
  ps.foldl (fun (m : List Int × Nat) p =>
    let r := m.1.zipIdx.map (fun q => sat32 (q.1 + p.getD q.2 0))
    (r.map (·.1), m.2 + (r.filter (·.2)).length)) (vals, 0)

theorem partialsAdded_vals (vals : List Int) (ps : List (List Int)) :
    (partialsAdded vals ps).1 = ps.foldl (fun vs p => vs.zipIdx.map (fun q => (sat32 (q.1 + p.getD q.2 0)).1)) vals := by
  suffices h : ∀ m : List Int × Nat, (ps.foldl (fun (m : List Int × Nat) p =>
      let r := m.1.zipIdx.map (fun q => sat32 (q.1 + p.getD q.2 0))
      (r.map (·.1), m.2 + (r.filter (·.2)).length)) m).1 =
        ps.foldl (fun vs p => vs.zipIdx.map (fun q => (sat32 (q.1 + p.getD q.2 0)).1)) m.1 from h (vals, 0)
  induction ps with
  | nil => exact fun m => rfl
  | cons p ps ih =>
    intro m
    rw [List.foldl_cons, List.foldl_cons, ih]
    exact congrArg (fun vs => ps.foldl _ vs) (List.map_map ..)

/-- A latch with its partial sums. -/
def Latch.withPartials (l : Latch) (ps : List (Option (List Int))) : Latch :=
  let acc := partialsAdded l.vals (ps.filterMap id)
  let poison := l.poison || ps.any Option.isNone
  { l with vals := acc.1, poison := poison, sat := l.sat || (if poison then 0 else acc.2) != 0, padded := true }

theorem exec_partialSumAdd_of_full {s : State} {cl : Cluster} {co : Core} {e : Fin 16} {tl : Tile} {o : Opw} {l : Latch} (now : Nat)
    (hres : s.resultOf (coreIx cl co) e.val = some (tl, o, l)) (hadd : o.addin = true) (hpad : l.padded = false)
    (hfull : ∀ r, r ∈ tl.parts → s.slot r = 2 ∨ s.slot r = 3) :
    let core := coreIx cl co
    let pe := s.physOf core e.val
    let u := tl.parts.foldl (State.partialRead l.v (s.station tl.st).owner tl.st) (s.advance now)
    let ps := tl.parts.map (fun r => u.partial_ r l.v l.vals.length)
    ∃ n u', exec (.partialSumAdd now cl co e) s =
      .next (((u.setEngine pe ((u.engine pe).latched (l.withPartials ps))).meHold .ME_ACCSAT_COUNT pe n).putTile core u') := by
  intro core pe u ps
  refine ⟨if (l.withPartials ps).poison then 0 else (partialsAdded l.vals (ps.filterMap id)).2,
    { tl with flags := tl.flags ||| tl.parts.foldl (fun m r => m ||| ((u.hdrFlags r) &&& 0xB)) 0 }, ?_⟩
  rw [show exec (.partialSumAdd now cl co e) s = execPartialSumAdd now cl co e s from rfl]
  unfold execPartialSumAdd
  extract_lets v
  have hres' : v.resultOf core e.val = some (tl, o, l) := hres
  have hall : tl.parts.all (fun r => v.slot r == 2 || v.slot r == 3) = true := List.all_eq_true.mpr fun r hr => by
    have hslot : v.slot r = 2 ∨ v.slot r = 3 := hfull r hr
    rw [Bool.or_eq_true, beq_iff_eq, beq_iff_eq]
    exact hslot
  simp only [hres', hadd, hpad, hall, Bool.not_false, Bool.and_self, if_true]
  rfl

theorem exec_partialSumAdd_adds {s : State} {cl : Cluster} {co : Core} {e : Fin 16} {tl : Tile} {o : Opw} {l : Latch} (now : Nat)
    (hres : s.resultOf (coreIx cl co) e.val = some (tl, o, l)) (hadd : o.addin = true) (hpad : l.padded = false)
    (hfull : ∀ r, r ∈ tl.parts → s.slot r = 2 ∨ s.slot r = 3) :
    let core := coreIx cl co
    let pe := s.physOf core e.val
    let ps := tl.parts.map (fun r => s.partial_ r l.v l.vals.length)
    ∃ (t : State) (m : Latch), exec (.partialSumAdd now cl co e) s = .next t ∧ (t.engine pe).latch = some m ∧
      m.padded = true ∧ m.v = l.v ∧ m.poison = (l.poison || ps.any Option.isNone) ∧
      m.vals = (ps.filterMap id).foldl
        (fun (vs : List Int) p => vs.zipIdx.map (fun q => (sat32 (q.1 + p.getD q.2 0)).1)) l.vals ∧
      KeepsBytes s t nowhere := by
  intro core pe ps
  obtain ⟨n, u', hexec⟩ := exec_partialSumAdd_of_full now hres hadd hpad hfull
  obtain ⟨htouch, hregs⟩ := State.partialsRead_frame l.v (s.station tl.st).owner tl.st tl.parts (s.advance now)
  generalize tl.parts.foldl (State.partialRead l.v (s.station tl.st).owner tl.st) (s.advance now) = u at hexec htouch hregs
  have hps : tl.parts.map (fun r => u.partial_ r l.v l.vals.length) = ps := List.map_congr_left fun r _ =>
    State.partial_congr (s := s) (htouch.same .sram) (htouch.same .ecc) (fun r => KeepsRegs.slotAddr hregs (r := r)) r _ _
  rw [hps] at hexec
  have hset := u.setEngine_touches pe ((u.engine pe).latched (l.withPartials ps))
  have hpe := u.engine_setEngine_same pe ((u.engine pe).latched (l.withPartials ps))
  refine ⟨_, l.withPartials ps, hexec, ?_, rfl, rfl, rfl, partialsAdded_vals .., ?_⟩
  · have hend := ((State.putTile_touches _ core u').engine pe).trans
      (((State.meHold_touches _ .ME_ACCSAT_COUNT pe n).engine pe).trans hpe)
    exact (congrArg Engine.latch hend).trans rfl
  · exact KeepsBytes.trans (htouch.bytes _) ((hset.bytes _).trans (((State.meHold_touches ..).bytes _).trans
      ((State.putTile_touches ..).bytes _)))

/-! ### O16 -/

/-- Settles O16: partial sums, the output stage and the VXE finish a result. -/
theorem resultsComplete : Obligations.ResultsComplete := by
  unfold Obligations.ResultsComplete
  refine ⟨?_, ?_, ?_⟩
  · intro now cl co e s tl o l core pe ps hres hadd hpad hfull
    exact exec_partialSumAdd_adds now hres hadd hpad hfull
  · intro now cl co e s tl o l core pe stride hres hdue
    refine ⟨fun hout => ?_, fun hout => exec_outputStage_writes now hres hdue hout⟩
    rw [exec_outputStage_of_result now hres hdue]
    dsimp only
    rw [if_neg (by omega), if_pos hout]
  · intro now cl co s since e x tl o l core y stride hfirst hres hfmt
    exact exec_vxeRescale_writes now hfirst hres hfmt

end Sys2Proof.Machine
end

section
/-!
PROOF. Drift trackers and keep-alive bursts (R107 to R111, O18).
-/

set_option Elab.async false

namespace Sys2Proof.Machine
open Sys2Proof

/-! ### What an event leaves alone -/

@[simp] theorem State.getF_raise (s : State) (code o c u st : Nat) (d : List Byte) (f : Fld) (i : Nat) :
    (s.raise code o c u st d).getF f i = s.getF f i := (s.raise_touches ..).getF f i

@[simp] theorem State.tracker_raise (s : State) (code o c u st : Nat) (d : List Byte) (g : Nat) :
    (s.raise code o c u st d).tracker g = s.tracker g := (s.raise_touches ..).tracker g

/-! ### Updates of a tracker (R107, R111) -/

/-- The parts that an update of a tracker touches. -/
def trackerParts : List Part := [.regs, .trackers] ++ eventParts

/-- The registers that an update of a tracker writes. -/
def trackerWrites (f : Fld) (_ : Nat) : Bool :=
  [Fld.ME_DTOFS_SAMPLES, .ME_DTOFS_OFFSET, .ME_DTGAIN_PROV, .ME_DTGAIN_GAIN, .ME_DTGAIN_REJECTS, .ME_CALSTAT_EARLY_TU].contains f

theorem State.earlyTouchup_touches (s : State) (pe r : Nat) : Touches [.regs] s (s.earlyTouchup pe r) := s.setF_touches ..

theorem State.earlyTouchup_keepsRegs (s : State) (pe r : Nat) :
    KeepsRegs s (s.earlyTouchup pe r) (fun f i => f == .ME_CALSTAT_EARLY_TU && i == pe) := s.setF_keepsRegs _ _ _

@[simp] theorem State.tracker_earlyTouchup (s : State) (pe r g : Nat) : (s.earlyTouchup pe r).tracker g = s.tracker g := rfl

theorem State.getF_earlyTouchup (s : State) (pe r : Nat) {f : Fld} (hf : f ≠ .ME_CALSTAT_EARLY_TU) (i : Nat) :
    (s.earlyTouchup pe r).getF f i = s.getF f i := s.earlyTouchup_keepsRegs pe r f i (by simp [hf])

/-- An update of row group r of engine pe keeps the samples of a tracker and the intervals that wait. -/
structure TrackerKept (s t : State) (g : Nat) : Prop where
  touch : Touches trackerParts s t
  cur : (t.tracker g).cur = (s.tracker g).cur
  since : (t.tracker g).since = (s.tracker g).since
  deferred : (t.tracker g).deferred = (s.tracker g).deferred
  regs : KeepsRegs s t trackerWrites

theorem State.trackerReject_kept (s : State) (pe r : Nat) : TrackerKept s (s.trackerReject pe r) (rgIx pe r) := by
  unfold State.trackerReject
  extract_lets g x a
  have ha : Touches trackerParts s a := (s.addHold_touches ..).mono
  have hregs : KeepsRegs s a trackerWrites := (KeepsRegs.refl s _).setF rfl _
  clear_value a
  show TrackerKept s _ g
  split
  · exact ⟨(State.setTracker_touches ..).after ha, by simp [x], by simp [x], by simp [x], hregs.touches (State.setTracker_touches ..)⟩
  · refine ⟨(State.raise_touches ..).after ((State.earlyTouchup_touches ..).after ((State.setTracker_touches ..).after ha)),
      by simp [x], by simp [x], by simp [x], KeepsRegs.raise ?_ _ _ _ _ _ _⟩
    exact (hregs.touches (State.setTracker_touches ..)).setF rfl _

/-- A rejected update is counted and leaves gain and offset. -/
theorem State.trackerReject_regs (s : State) (pe r : Nat) :
    let g := rgIx pe r
    let t := s.trackerReject pe r
    t.getF .ME_DTGAIN_GAIN g = s.getF .ME_DTGAIN_GAIN g ∧ t.getF .ME_DTOFS_OFFSET g = s.getF .ME_DTOFS_OFFSET g ∧
      t.getF .ME_DTGAIN_REJECTS g = min (s.getF .ME_DTGAIN_REJECTS g + 1) (2 ^ Fld.ME_DTGAIN_REJECTS.width - 1) := by
  intro g t
  unfold t State.trackerReject
  extract_lets x a
  have hget := s.getF_addHold .ME_DTGAIN_REJECTS g 1
  have hkeep (f : Fld) (hf : f ≠ .ME_DTGAIN_REJECTS) : a.getF f g = s.getF f g := State.getF_setF_ne _ _ (by simp [Ne.symm hf])
  rw [show s.addHold .ME_DTGAIN_REJECTS g 1 = a from rfl] at hget
  clear_value a
  split <;> simp [hget, hkeep, State.getF_earlyTouchup]

theorem State.trackerAccept_kept (s : State) (pe r : Nat) (m : Measured) : TrackerKept s (s.trackerAccept pe r m) (rgIx pe r) := by
  unfold State.trackerAccept
  extract_lets g x K gain ofs a b
  have ha : Touches trackerParts s a := (State.setF_touches ..).after ((State.setF_touches ..).after (s.setF_touches ..).mono)
  have hregs : KeepsRegs s a trackerWrites := (((KeepsRegs.refl s _).setF rfl _).setF rfl _).setF rfl _
  have hb : Touches trackerParts s b := (State.setTracker_touches ..).after ha
  have hbregs := hregs.touches (a.setTracker_touches g { x with rejectRun := 0, retrim := false })
  have hself : b.tracker g = { x with rejectRun := 0, retrim := false } := State.tracker_setTracker_same ..
  have hkept : TrackerKept s b g := ⟨hb, by rw [hself], by rw [hself], by rw [hself], hbregs⟩
  obtain ⟨htouch, hcur, hsince, hdef, hregs'⟩ := hkept
  clear_value b
  show TrackerKept s _ g
  split
  · exact ⟨(State.earlyTouchup_touches ..).after htouch, by simp [hcur], by simp [hsince], by simp [hdef], hregs'.setF rfl _⟩
  · exact ⟨htouch, hcur, hsince, hdef, hregs'⟩

/-- An accepted update gives the filtered gain and offset and ends the provisional state. -/
theorem State.trackerAccept_regs (s : State) (pe r : Nat) (m : Measured) :
    let g := rgIx pe r
    let K := if (s.tracker g).retrim then 1 else 2 ^ filterOf (s.band (clOf pe))
    let t := s.trackerAccept pe r m
    t.getF .ME_DTGAIN_PROV g = 0 ∧ t.getF .ME_DTGAIN_GAIN g = (m.gain (s.getF .ME_DTGAIN_GAIN g) K).toNat ∧
      t.getF .ME_DTOFS_OFFSET g = half (m.offset (int16Val (s.getF .ME_DTOFS_OFFSET g)) K) % 65536 ∧ (t.tracker g).retrim = false := by
  intro g K t
  unfold t State.trackerAccept
  extract_lets x K' gain ofs a b
  have hgain : gain.toNat < 65536 := by
    have hmost : gain ≤ 20480 := max_le (by decide) (min_le_left _ _)
    omega
  have hprov : b.getF .ME_DTGAIN_PROV g = 0 := by simp [b, a, State.getF_setF]
  have hbgain : b.getF .ME_DTGAIN_GAIN g = gain.toNat := by
    refine Eq.trans ?_ (Nat.mod_eq_of_lt hgain)
    simp [b, a, State.getF_setF, Fld.width, Fld.info]
  have hofs : b.getF .ME_DTOFS_OFFSET g = half ofs % 65536 := State.getF_setF_same ..
  have hretrim : (b.tracker g).retrim = false := by simp [b]
  clear_value b
  split
  · have hget {f : Fld} (hf : f ≠ .ME_CALSTAT_EARLY_TU) := b.getF_earlyTouchup pe r hf g
    exact ⟨(hget (by decide)).trans hprov, (hget (by decide)).trans hbgain, (hget (by decide)).trans hofs, hretrim⟩
  · exact ⟨hprov, hbgain, hofs, hretrim⟩

theorem TrackerKept.trans {s t u : State} {g : Nat} (h : TrackerKept s t g) (k : TrackerKept t u g) : TrackerKept s u g :=
  ⟨h.touch.trans k.touch, k.cur.trans h.cur, k.since.trans h.since, k.deferred.trans h.deferred, h.regs.trans k.regs⟩

/-- The samples of an interval counted. -/
def State.sampled (s : State) (g : Nat) (x : Samples) : State := s.setF .ME_DTOFS_SAMPLES g (min x.nGain 65535)

theorem State.sampled_kept (s : State) (g : Nat) (x : Samples) : TrackerKept s (s.sampled g x) g :=
  ⟨(s.setF_touches ..).mono, rfl, rfl, rfl, (KeepsRegs.refl s _).setF rfl _⟩

theorem State.trackerApply_eq (s : State) (pe r : Nat) (x : Samples) : s.trackerApply pe r x =
    if x.measure.ok then (s.sampled (rgIx pe r) x).trackerAccept pe r x.measure
    else (s.sampled (rgIx pe r) x).trackerReject pe r := rfl

theorem State.trackerApply_kept (s : State) (pe r : Nat) (x : Samples) : TrackerKept s (s.trackerApply pe r x) (rgIx pe r) := by
  rw [s.trackerApply_eq]
  split
  · exact (s.sampled_kept _ x).trans (State.trackerAccept_kept ..)
  · exact (s.sampled_kept _ x).trans (State.trackerReject_kept ..)

/-- The intervals that have closed are judged up to the first with too few samples, which waits with those behind it. -/
theorem State.trackerJudge_spec (pe r : Nat) (xs : List Samples) (s : State) (h : (s.tracker (rgIx pe r)).deferred = []) :
    let t := s.trackerJudge pe r xs
    Touches trackerParts s t ∧ (t.tracker (rgIx pe r)).deferred = xs.dropWhile (fun x => decide (64 ≤ x.nGain)) ∧
      KeepsRegs s t trackerWrites := by
  induction xs generalizing s with
  | nil => exact ⟨Touches.refl _ s, h, KeepsRegs.refl s _⟩
  | cons x xs ih =>
    by_cases hx : x.nGain < 64
    · rw [State.trackerJudge, if_pos hx, List.dropWhile_cons_of_neg (by simpa using hx)]
      exact ⟨(s.setTracker_touches ..).mono, by simp, (s.setTracker_touches ..).regs _⟩
    · rw [State.trackerJudge, if_neg hx, List.dropWhile_cons_of_pos (by simpa using hx)]
      obtain ⟨htouch, -, -, hdef, hregs⟩ := s.trackerApply_kept pe r x
      obtain ⟨htouch', hdef', hregs'⟩ := ih _ (hdef.trans h)
      exact ⟨htouch.trans htouch', hdef', hregs.trans hregs'⟩

theorem State.trackerApply_ok {s : State} {pe r : Nat} {x : Samples} (h : x.measure.ok = true) :
    let g := rgIx pe r
    let K := if (s.tracker g).retrim then 1 else 2 ^ filterOf (s.band (clOf pe))
    let t := s.trackerApply pe r x
    t.getF .ME_DTGAIN_PROV g = 0 ∧ t.getF .ME_DTGAIN_GAIN g = (x.measure.gain (s.getF .ME_DTGAIN_GAIN g) K).toNat ∧
      t.getF .ME_DTOFS_OFFSET g = half (x.measure.offset (int16Val (s.getF .ME_DTOFS_OFFSET g)) K) % 65536 ∧
      (t.tracker g).retrim = false := by
  intro g K t
  have hget {f : Fld} (hf : f ≠ .ME_DTOFS_SAMPLES) (i : Nat) : (s.sampled (rgIx pe r) x).getF f i = s.getF f i :=
    State.getF_setF_ne _ _ (by simp [Ne.symm hf])
  unfold t
  rw [s.trackerApply_eq, if_pos h]
  obtain ⟨hprov, hgain, hofs, hretrim⟩ := (s.sampled (rgIx pe r) x).trackerAccept_regs pe r x.measure
  have hband : (s.sampled (rgIx pe r) x).band (clOf pe) = s.band (clOf pe) := hget (by decide) _
  rw [hget (by decide), hband] at hgain hofs
  exact ⟨hprov, hgain, hofs, hretrim⟩

theorem State.trackerApply_not_ok {s : State} {pe r : Nat} {x : Samples} (h : x.measure.ok = false) :
    let g := rgIx pe r
    let t := s.trackerApply pe r x
    t.getF .ME_DTGAIN_GAIN g = s.getF .ME_DTGAIN_GAIN g ∧ t.getF .ME_DTOFS_OFFSET g = s.getF .ME_DTOFS_OFFSET g ∧
      t.getF .ME_DTGAIN_REJECTS g = min (s.getF .ME_DTGAIN_REJECTS g + 1) (2 ^ Fld.ME_DTGAIN_REJECTS.width - 1) := by
  intro g t
  have hget {f : Fld} (hf : f ≠ .ME_DTOFS_SAMPLES) (i : Nat) : (s.sampled (rgIx pe r) x).getF f i = s.getF f i :=
    State.getF_setF_ne _ _ (by simp [Ne.symm hf])
  unfold t
  rw [s.trackerApply_eq, if_neg (by simp [h])]
  obtain ⟨hgain, hofs, hrej⟩ := (s.sampled (rgIx pe r) x).trackerReject_regs pe r
  rw [hget (by decide)] at hgain hofs hrej
  exact ⟨hgain, hofs, hrej⟩

/-! ### The rows of trackers -/

/-- A tracker whose interval begins anew. -/
def Tracker.restarted (x : Tracker) (since : Nat) : Tracker := { x with cur := Samples.none, since := since }

/-- A tracker with other intervals that wait. -/
def Tracker.waiting (x : Tracker) (ds : List Samples) : Tracker := { x with deferred := ds }

section Rows
variable {s : State} {now : Nat} {cl : Cluster} {co : Core} {e : Eng} {rg : RowGroup}
  (hon : s.coreOn (coreIx cl co) = true) (hact : s.rgActive (rgIx (engIx (coreIx cl co) e.val) rg.val) = true)
include hon hact

theorem exec_trackerUpdate_of_due
    (hdue : (s.tracker (rgIx (engIx (coreIx cl co) e.val) rg.val)).since + 1000000 ≤ max s.time now) :
    let pe := engIx (coreIx cl co) e.val
    let g := rgIx pe rg.val
    let x := s.tracker g
    let y := x.restarted (x.since + 1000000)
    exec (.trackerUpdate now cl co e rg) s =
      .next (if x.deferred = [] then ((s.advance now).setTracker g y).trackerJudge pe rg.val [x.cur]
        else (s.advance now).setTracker g (y.waiting (x.deferred ++ [x.cur]))) := by
  intro pe g x y
  refine (if_pos ?_).trans ?_
  · simp only [Bool.and_eq_true, decide_eq_true_eq]
    exact ⟨⟨hon, hact⟩, hdue⟩
  · by_cases hdef : x.deferred = []
    · exact (if_pos hdef).trans (congrArg Host.Outcome.next (if_pos hdef).symm)
    · exact (if_neg hdef).trans (congrArg Host.Outcome.next (if_neg hdef).symm)

theorem exec_trackerFirstUpdate_of_samples
    (hprov : s.bit .ME_DTGAIN_PROV (rgIx (engIx (coreIx cl co) e.val) rg.val) = true)
    (hdef : (s.tracker (rgIx (engIx (coreIx cl co) e.val) rg.val)).deferred = [])
    (hgain : 64 ≤ (s.tracker (rgIx (engIx (coreIx cl co) e.val) rg.val)).cur.nGain) :
    let pe := engIx (coreIx cl co) e.val
    let g := rgIx pe rg.val
    let x := s.tracker g
    exec (.trackerFirstUpdate now cl co e rg) s =
      .next (((s.advance now).setTracker g (x.restarted (max s.time now))).trackerApply pe rg.val x.cur) := by
  refine if_pos ?_
  simp only [Bool.and_eq_true, decide_eq_true_eq]
  exact ⟨⟨⟨⟨hon, hact⟩, hprov⟩, hdef⟩, hgain⟩

end Rows

/-- The outcome of an update by samples x of the tracker g of a state whose tracker has begun its interval anew. -/
theorem State.restarted_applied (s : State) (now pe r since : Nat) :
    let g := rgIx pe r
    let x := s.tracker g
    let K := if x.retrim then 1 else 2 ^ filterOf (s.band (clOf pe))
    let m := x.cur.measure
    let t := ((s.advance now).setTracker g (x.restarted since)).trackerApply pe r x.cur
    (m.ok = true → (t.getF .ME_DTGAIN_PROV g = 0 ∧ t.getF .ME_DTGAIN_GAIN g = (m.gain (s.getF .ME_DTGAIN_GAIN g) K).toNat ∧
      t.getF .ME_DTOFS_OFFSET g = half (m.offset (int16Val (s.getF .ME_DTOFS_OFFSET g)) K) % 65536 ∧
      (t.tracker g).cur = Samples.none ∧ (t.tracker g).retrim = false ∧ KeepsBytes s t nowhere) ∧ (t.tracker g).since = since) ∧
    (m.ok = false → (t.getF .ME_DTGAIN_GAIN g = s.getF .ME_DTGAIN_GAIN g ∧ t.getF .ME_DTOFS_OFFSET g = s.getF .ME_DTOFS_OFFSET g ∧
      t.getF .ME_DTGAIN_REJECTS g = min (s.getF .ME_DTGAIN_REJECTS g + 1) (2 ^ Fld.ME_DTGAIN_REJECTS.width - 1) ∧
      (t.tracker g).cur = Samples.none ∧ KeepsBytes s t nowhere) ∧ (t.tracker g).since = since) := by
  intro g x K m t
  have hself := (s.advance now).tracker_setTracker_same g (x.restarted since)
  have hset := (s.advance now).setTracker_touches g (x.restarted since)
  obtain ⟨htouch, hcur, hsince, -, -⟩ := ((s.advance now).setTracker g (x.restarted since)).trackerApply_kept pe r x.cur
  have hcur' : (t.tracker g).cur = Samples.none := hcur.trans (by rw [hself]; rfl)
  have hsince' : (t.tracker g).since = since := hsince.trans (by rw [hself]; rfl)
  have hbytes : KeepsBytes s t nowhere := KeepsBytes.trans (hset.bytes _) (htouch.bytes _)
  refine ⟨fun hok => ?_, fun hok => ?_⟩
  · obtain ⟨hprov, hgain, hofs, hretrim⟩ :=
      State.trackerApply_ok (s := (s.advance now).setTracker g (x.restarted since)) (pe := pe) (r := r) hok
    rw [hself] at hgain hofs
    exact ⟨⟨hprov, hgain, hofs, hcur', hretrim, hbytes⟩, hsince'⟩
  · obtain ⟨hgain, hofs, hrej⟩ :=
      State.trackerApply_not_ok (s := (s.advance now).setTracker g (x.restarted since)) (pe := pe) (r := r) hok
    exact ⟨⟨hgain, hofs, hrej, hcur', hbytes⟩, hsince'⟩

/-! ### Keep-alive bursts (R109) -/

theorem State.opDone_touches (s : State) (pe : Nat) : Touches [.engines] s (s.opDone pe) := s.setEngine_touches ..

theorem State.ran_opDone (s : State) (pe : Nat) : ((s.opDone pe).engine pe).ran = false :=
  (congrArg Engine.ran (s.engine_setEngine_same pe _)).trans rfl

/-- The burst phases of a row group counted, with none of its intervals waiting. -/
def State.burstCounted (s : State) (pe r n : Nat) : State :=
  (((s.setTracker (rgIx pe r) ((s.tracker (rgIx pe r)).waiting [])).opDone pe).addWrap .ME_PHCNT_COUNT pe n).addWrap
    .ME_KACNT_COUNT pe n

theorem State.burstDone_eq (s : State) (pe r : Nat) (d : Samples) (ds : List Samples) : s.burstDone pe r d ds =
    ((s.burstCounted pe r (64 - d.nGain)).trackerApply pe r (s.burst pe r (64 - d.nGain) d)).trackerJudge pe r ds := rfl

theorem State.burstCounted_spec (s : State) (pe r n : Nat) :
    let t := s.burstCounted pe r n
    (t.tracker (rgIx pe r)).deferred = [] ∧ t.getF .ME_PHCNT_COUNT pe = (s.getF .ME_PHCNT_COUNT pe + n) % 4294967296 ∧
      t.getF .ME_KACNT_COUNT pe = (s.getF .ME_KACNT_COUNT pe + n) % 2 ^ Fld.ME_KACNT_COUNT.width ∧
      (t.engine pe).ran = false ∧ Touches [.regs, .trackers, .engines] s t := by
  intro t
  have hset := s.setTracker_touches (rgIx pe r) ((s.tracker (rgIx pe r)).waiting [])
  have hself := s.tracker_setTracker_same (rgIx pe r) ((s.tracker (rgIx pe r)).waiting [])
  unfold t State.burstCounted
  generalize s.setTracker (rgIx pe r) ((s.tracker (rgIx pe r)).waiting []) = u at hset hself ⊢
  have hop := u.opDone_touches pe
  have hran := u.ran_opDone pe
  generalize u.opDone pe = v at hop hran ⊢
  have hadd := v.addWrap_touches .ME_PHCNT_COUNT pe n
  have hph := v.getF_addWrap .ME_PHCNT_COUNT pe n
  have hka : (v.addWrap .ME_PHCNT_COUNT pe n).getF .ME_KACNT_COUNT pe = v.getF .ME_KACNT_COUNT pe :=
    v.setF_keepsRegs _ _ _ _ _ rfl
  generalize v.addWrap .ME_PHCNT_COUNT pe n = w at hadd hph hka ⊢
  have hadd' := w.addWrap_touches .ME_KACNT_COUNT pe n
  refine ⟨?_, ?_, ?_, ?_, hadd'.after (hadd.after (hop.after (hset.mono : Touches [.regs, .trackers, .engines] s u)))⟩
  · rw [hadd'.tracker, hadd.tracker, hop.tracker, hself]
    rfl
  · refine (w.setF_keepsRegs .ME_KACNT_COUNT pe _ _ _ rfl).trans (hph.trans ?_)
    rw [hop.getF, hset.getF]
    rfl
  · rw [State.getF_addWrap, hka, hop.getF, hset.getF]
  · rw [hadd'.engine, hadd.engine]
    exact hran

theorem exec_keepaliveBurst_of_boundary {s : State} {now : Nat} {cl : Cluster} {co : Core} {e : Eng} {rg : RowGroup} {d : Samples}
    {ds : List Samples} (hdef : (s.tracker (rgIx (engIx (coreIx cl co) e.val) rg.val)).deferred = d :: ds)
    (hon : s.coreOn (coreIx cl co) = true) (hbound : (s.engine (engIx (coreIx cl co) e.val)).boundary = true)
    (hbeaver : s.waitsBeaver (engIx (coreIx cl co) e.val) = false) (hcal : s.waitsCal (engIx (coreIx cl co) e.val) = false)
    (htouch : s.waitsTouch (engIx (coreIx cl co) e.val) = false) (hspare : s.sparing cl.val = false) :
    exec (.keepaliveBurst now cl co e rg) s =
      .next ((s.advance now).burstDone (engIx (coreIx cl co) e.val) rg.val d ds) := by
  rw [show exec (.keepaliveBurst now cl co e rg) s = execKeepaliveBurst now cl co e rg s from rfl]
  unfold execKeepaliveBurst
  extract_lets u pe g x p
  have hdraw : p = (u, true) := if_neg (by rw [show u.sparing cl.val = false from hspare]; exact Bool.noConfusion)
  have hgo : (u.coreOn (coreIx cl co) && (u.engine pe).boundary && !(u.waitsBeaver pe || u.waitsCal pe || u.waitsTouch pe)) = true := by
    rw [show u.coreOn (coreIx cl co) = true from hon, show (u.engine pe).boundary = true from hbound,
      show u.waitsBeaver pe = false from hbeaver, show u.waitsCal pe = false from hcal, show u.waitsTouch pe = false from htouch]
    rfl
  rw [show x.deferred = d :: ds from hdef]
  dsimp only
  rw [if_pos hgo, hdraw]
  rfl

/-! ### O18 -/

/-- Settles O18: updates, first updates and bursts of drift trackers. -/
theorem trackersAndKeepalive : Obligations.TrackersAndKeepalive := by
  unfold Obligations.TrackersAndKeepalive
  constructor
  · intro now cl co e rg s pe g x K m updated rejected hon hact
    refine ⟨fun hdue => ?_, fun hprov hdef hgain => ?_⟩
    · have hexec := exec_trackerUpdate_of_due (rg := rg) hon hact hdue
      have hself := (s.advance now).tracker_setTracker_same g (x.restarted (x.since + 1000000))
      obtain ⟨hok, hno⟩ := s.restarted_applied now pe rg.val (x.since + 1000000)
      have hjudge (hgain : 64 ≤ x.cur.nGain) (u : State) : u.trackerJudge pe rg.val [x.cur] = u.trackerApply pe rg.val x.cur :=
        if_neg (Nat.not_lt.mpr hgain)
      refine ⟨fun hdef => hexec.trans (congrArg Host.Outcome.next (if_neg hdef)), fun hdef hfew => ?_, fun hdef hgain hm => ?_,
        fun hdef hgain hm => ?_⟩
      · refine ⟨_, hexec.trans (congrArg Host.Outcome.next ((if_pos hdef).trans (if_pos hfew))), ?_, fun k hk => ?_, ?_⟩
        · rw [State.tracker_setTracker_same, hself]
          rfl
        · rw [State.tracker_setTracker_ne _ _ _ (Ne.symm hk), State.tracker_setTracker_ne _ _ _ (Ne.symm hk)]
          rfl
        · exact Touches.eq_withParts (ps := [.trackers]) ((State.setTracker_touches ..).after (State.setTracker_touches ..))
      · exact ⟨_, hexec.trans (congrArg Host.Outcome.next ((if_pos hdef).trans (hjudge hgain _))), hok hm⟩
      · exact ⟨_, hexec.trans (congrArg Host.Outcome.next ((if_pos hdef).trans (hjudge hgain _))), hno hm⟩
    · have hexec := exec_trackerFirstUpdate_of_samples (rg := rg) (now := now) hon hact hprov hdef hgain
      obtain ⟨hok, hno⟩ := s.restarted_applied now pe rg.val (max s.time now)
      exact ⟨fun hm => ⟨_, hexec, hok hm⟩, fun hm => ⟨_, hexec, hno hm⟩⟩
  · intro now cl co e rg s d ds pe g hdef hon hbound hbeaver hcal htouch hspare
    refine ⟨_, exec_keepaliveBurst_of_boundary hdef hon hbound hbeaver hcal htouch hspare, ?_⟩
    rw [State.burstDone_eq]
    obtain ⟨hnone, hph, hka, hran, hcount⟩ := (s.advance now).burstCounted_spec pe rg.val (64 - d.nGain)
    generalize (s.advance now).burstCounted pe rg.val (64 - d.nGain) = u at hnone hph hka hran hcount ⊢
    generalize (s.advance now).burst pe rg.val (64 - d.nGain) d = y
    obtain ⟨happ, -, -, hdef', hregs⟩ := u.trackerApply_kept pe rg.val y
    obtain ⟨hjudge, hend, hregs'⟩ := State.trackerJudge_spec pe rg.val ds (u.trackerApply pe rg.val y) (hdef'.trans hnone)
    have hall : Touches ([.engines] ++ trackerParts) (s.advance now) ((u.trackerApply pe rg.val y).trackerJudge pe rg.val ds) :=
      hjudge.after (happ.after hcount.mono)
    exact ⟨hend, ((hregs.trans hregs') _ _ rfl).trans hph, ((hregs.trans hregs') _ _ rfl).trans hka,
      (congrArg Engine.ran ((hjudge.engine pe).trans (happ.engine pe))).trans hran, hall.bytes _, hall.same .cells⟩

end Sys2Proof.Machine
end

section
/-!
PROOF. Touch-ups and programming tokens (R43, R44, R121, R122, O20).
-/

set_option Elab.async false

namespace Sys2Proof.Machine
open Sys2Proof

/-! ### Requests for programming tokens (R43) -/

theorem State.askToken_touches (s : State) (pe : Nat) : Touches [.tokenWait] s (s.askToken pe) :=
  Touches.ite _ (Touches.refl _ s) (Touches.of_withParts rfl)

theorem State.askToken_asks (s : State) (pe : Nat) :
    pe ∈ (s.askToken pe).tokenHeld ∨ (s.askToken pe).tokenWait.any (fun q => q.engine == pe) = true := by
  unfold State.askToken
  split
  · next h =>
    rw [Bool.or_eq_true, List.contains_iff_mem] at h
    exact h
  · exact .inr (by simp)

/-- Tokens held by other engines. -/
def State.holding (s : State) (held : List Nat) : State := { s with tokenHeld := held }

theorem State.holding_touches (s : State) (held : List Nat) : Touches [.tokenHeld] s (s.holding held) := Touches.of_withParts rfl

theorem State.freeToken_spec (s : State) (pe : Nat) :
    (s.freeToken pe).tokenHeld = s.tokenHeld.erase pe ∧ Touches [.tokenHeld, .tokenWait] s (s.freeToken pe) := by
  have hheld := s.holding_touches (s.tokenHeld.erase pe)
  unfold State.freeToken
  extract_lets more u
  have hu : Touches [.tokenHeld] s u ∧ u.tokenHeld = s.tokenHeld.erase pe := ⟨hheld, rfl⟩
  obtain ⟨hut, huh⟩ := hu
  clear_value u more
  split
  · exact ⟨(show (u.askToken pe).tokenHeld = _ from (u.askToken_touches pe).same .tokenHeld).trans huh, (u.askToken_touches pe).after hut.mono⟩
  · have hw : Touches [.tokenWait] u { u with tokenWait := u.tokenWait.filter (fun t => t.engine != pe) } := Touches.of_withParts rfl
    exact ⟨huh, hw.after hut.mono⟩

/-! ### When a touch-up is due (R121) -/

theorem State.unclean_spec (s : State) : Touches [.regs, .shutRec] s s.unclean ∧
    KeepsRegs s s.unclean (fun f i => f == .GCTL_PWRST_CLEAN && i == 0) ∧ s.unclean.getF .GCTL_PWRST_CLEAN 0 = 0 := by
  have hset := s.setF_touches .GCTL_PWRST_CLEAN 0 0
  have hregs := s.setF_keepsRegs .GCTL_PWRST_CLEAN 0 0
  have hget := s.getF_setF_same .GCTL_PWRST_CLEAN 0 0
  unfold State.unclean
  generalize s.setF .GCTL_PWRST_CLEAN 0 0 = u at hset hregs hget ⊢
  have hrec : Touches [.shutRec] u { u with shutRec := s.shutRec.map (fun r => { r with clean := false }) } := Touches.of_withParts rfl
  exact ⟨hrec.after hset.mono, hregs.touches hrec, hget⟩

/-- A tracker whose touch-up begins. -/
def Tracker.touchDue (x : Tracker) : Tracker := { x with due := true, row := 0, steps := 0 }

theorem exec_touchupDue_of_due {s : State} {now : Nat} {cl : Cluster} {co : Core} {e : Eng} {rg : RowGroup}
    (hholds : s.holdsWeights (rgIx (engIx (coreIx cl co) e.val) rg.val) = true)
    (hidle : (s.tracker (rgIx (engIx (coreIx cl co) e.val) rg.val)).due = false)
    (hdue : (s.getF .ME_CALSTAT_EARLY_TU (engIx (coreIx cl co) e.val)).testBit rg.val = true ∨
      54432000000000000 ≤ (s.advance now).touchAccount (engIx (coreIx cl co) e.val) rg.val) :
    let pe := engIx (coreIx cl co) e.val
    let g := rgIx pe rg.val
    exec (.touchupDue now cl co e rg) s =
      .next (((s.advance now).unclean.setTracker g (s.tracker g).touchDue).askToken pe) := by
  refine if_pos ?_
  simp only [Bool.and_eq_true, Bool.or_eq_true, decide_eq_true_eq, Bool.not_eq_true']
  exact ⟨⟨hholds, hidle⟩, hdue⟩

/-! ### Steps of a touch-up (R122) -/

/-- A tracker another step of whose row is done. -/
def Tracker.stepped (x : Tracker) : Tracker := { x with steps := x.steps + 1 }

/-- A tracker whose row is done. -/
def Tracker.rowDone (x : Tracker) : Tracker := { x with steps := 0, row := x.row + 1 }

theorem State.touchupRow_pulse {s : State} {pe r : Nat} (low high : List Nat) (h : (s.tracker (rgIx pe r)).steps % 2 = 1) :
    s.touchupRow pe r low high = s.setTracker (rgIx pe r) (s.tracker (rgIx pe r)).stepped := if_pos h

theorem State.touchupRow_low {s : State} {pe r : Nat} {low : List Nat} (h : (s.tracker (rgIx pe r)).steps % 2 = 0)
    (hlow : low ≠ []) (h6 : (s.tracker (rgIx pe r)).steps ≠ 6) :
    s.touchupRow pe r low [] = s.setTracker (rgIx pe r) (s.tracker (rgIx pe r)).stepped := by
  have hempty : low.isEmpty = false := by simp [hlow]
  simp [State.touchupRow, h, hempty, h6, Tracker.stepped]

theorem State.touchupRow_clean {s : State} {pe r : Nat} (h : (s.tracker (rgIx pe r)).steps % 2 = 0) :
    let g := rgIx pe r
    let u := s.setTracker g (s.tracker g).rowDone
    s.touchupRow pe r [] [] = if (s.tracker g).row = 63 then u.touchupEnd pe r else u := by
  simp [State.touchupRow, h, Tracker.rowDone]

theorem testBit_withBit_false (v i : Nat) : (withBit v i false).testBit i = false := by
  unfold withBit
  rw [if_neg Bool.false_ne_true]
  split
  · next h =>
    have hsub : (v - 2 ^ i) / 2 ^ i = v / 2 ^ i - 1 := by simpa using Nat.sub_mul_div v (2 ^ i) 1
    rw [Nat.testBit_eq_decide_div_mod_eq, decide_eq_true_eq] at h
    rw [Nat.testBit_eq_decide_div_mod_eq, decide_eq_false_iff_not, hsub]
    omega
  · next h => exact Bool.eq_false_iff.mpr h

/-- The end of a touch-up: the account starts again, one tenth of a cycle is counted, and no early touch-up is pending. -/
theorem State.touchupEnd_spec (s : State) (pe r : Nat) :
    let g := rgIx pe r
    let t := s.touchupEnd pe r
    (t.tracker g).due = false ∧ (t.tracker g).account = 0 ∧
      t.getF .ME_RGSTAT_CYC10 g = min (s.getF .ME_RGSTAT_CYC10 g + 1) 1048575 ∧
      (t.getF .ME_CALSTAT_EARLY_TU pe).testBit r = false ∧ Touches [.regs, .trackers] s t := by
  intro g t
  unfold t State.touchupEnd
  extract_lets early x y u
  obtain ⟨hdue, hacc⟩ : y.due = false ∧ y.account = 0 := ⟨rfl, rfl⟩
  clear_value y
  have hset := s.setTracker_touches g y
  have hself := s.tracker_setTracker_same g y
  obtain ⟨hu, hget, hearly⟩ : Touches [.regs] (s.setTracker g y) u ∧
      u.getF .ME_RGSTAT_CYC10 g = (s.setTracker g y).getF .ME_RGSTAT_CYC10 g ∧ (u.getF .ME_CALSTAT_EARLY_TU pe).testBit r = false := by
    refine ⟨State.setF_touches .., State.setF_keepsRegs _ _ _ _ _ _ rfl, ?_⟩
    rw [show u.getF .ME_CALSTAT_EARLY_TU pe = _ from State.getF_setF_same .., Nat.testBit_mod_two_pow, testBit_withBit_false,
      Bool.and_false]
  clear_value u
  have hadd := u.addHold_touches .ME_RGSTAT_CYC10 g 1
  have hend := (hadd.tracker g).trans ((hu.tracker g).trans hself)
  refine ⟨(congrArg Tracker.due hend).trans hdue, (congrArg Tracker.account hend).trans hacc, ?_, ?_,
    hadd.after (hu.after hset.mono)⟩
  · refine (u.getF_addHold ..).trans ?_
    rw [hget, hset.getF]
    rfl
  · exact (congrArg (fun n => Nat.testBit n r) (u.setF_keepsRegs .ME_RGSTAT_CYC10 g _ _ _ rfl)).trans hearly

theorem exec_touchupStep_of_token {s : State} {now : Nat} {cl : Cluster} {co : Core} {e : Eng} {rg : RowGroup}
    {low high : List (Fin 276)} (hdue : (s.tracker (rgIx (engIx (coreIx cl co) e.val) rg.val)).due = true)
    (hheld : engIx (coreIx cl co) e.val ∈ s.tokenHeld) (hon : s.coreOn (coreIx cl co) = true)
    (hbound : (s.engine (engIx (coreIx cl co) e.val)).boundary = true)
    (hbeaver : s.waitsBeaver (engIx (coreIx cl co) e.val) = false) (hcal : s.waitsCal (engIx (coreIx cl co) e.val) = false)
    (hback : s.readingBack (rgIx (engIx (coreIx cl co) e.val) rg.val) = false) :
    let pe := engIx (coreIx cl co) e.val
    exec (.touchupStep now cl co e rg low high) s =
      .next ((((s.advance now).touchupRow pe rg.val (low.map Fin.val) (high.map Fin.val)).freeToken pe).opDone pe) := by
  refine if_pos ?_
  simp only [Bool.and_eq_true, Bool.not_eq_true', List.contains_iff_mem]
  exact ⟨⟨⟨⟨⟨⟨hdue, hheld⟩, hon⟩, hbound⟩, hbeaver⟩, hcal⟩, hback⟩

/-- What a step leaves once the row is dealt with: its token is given back. -/
theorem State.stepEnds_spec (s : State) (pe : Nat) : Touches [.tokenHeld, .tokenWait, .engines] s ((s.freeToken pe).opDone pe) ∧
    ((s.freeToken pe).opDone pe).tokenHeld = s.tokenHeld.erase pe := by
  obtain ⟨hheld, htouch⟩ := s.freeToken_spec pe
  exact ⟨((s.freeToken pe).opDone_touches pe).after htouch.mono, hheld⟩

/-- A step that moves on within its row, or to another row. -/
theorem State.stepSet_spec (s : State) (now pe g : Nat) (x : Tracker) :
    let t := ((((s.advance now).setTracker g x).freeToken pe).opDone pe)
    t.tracker g = x ∧ t.tokenHeld = s.tokenHeld.erase pe ∧ t.cells = s.cells ∧ t.regs = s.regs ∧ KeepsBytes s t nowhere := by
  intro t
  have hset := (s.advance now).setTracker_touches g x
  have hself := (s.advance now).tracker_setTracker_same g x
  unfold t
  generalize (s.advance now).setTracker g x = u at hset hself ⊢
  obtain ⟨hend, hheld⟩ := u.stepEnds_spec pe
  have hall : Touches [.tokenHeld, .tokenWait, .engines, .trackers] (s.advance now) ((u.freeToken pe).opDone pe) :=
    hend.after hset.mono
  exact ⟨(hend.tracker g).trans hself, hheld.trans (congrArg (List.erase · pe) (hset.same .tokenHeld)), hall.same .cells,
    hall.same .regs, hall.bytes _⟩

/-! ### Grants of programming tokens (R43, R44) -/

theorem exec_progTokenGrant_of_first {s : State} {r : TokenReq} (now : Nat) (hfirst : s.firstToken = some r)
    (hpool : s.tokenHeld.length < s.tokenPool) :
    exec (.progTokenGrant now) s =
      let p := (s.advance now).draw (clOf r.engine)
      .next (if p.2 then { p.1 with tokenWait := s.tokenWait.erase r, tokenHeld := s.tokenHeld ++ [r.engine] } else p.1) := by
  rw [show exec (.progTokenGrant now) s = execProgTokenGrant now s from rfl]
  unfold execProgTokenGrant
  extract_lets u
  rw [show u.firstToken = some r from hfirst]
  exact if_pos hpool

theorem State.draw_of_not_sparing {s : State} {c : Nat} (h : s.sparing c = false) : s.draw c = (s, true) :=
  if_neg (by rw [h]; exact Bool.false_ne_true)

theorem State.draw_of_account {s : State} {c : Nat} (h : s.sparing c = true)
    (hacc : Config.freeNat s.fresh ≤ smapGet 0 s.accounts c) :
    s.draw c = ({ s.burn with accounts := smapSet 0 s.accounts c (smapGet 0 s.accounts c - Config.freeNat s.fresh) }, true) :=
  (if_pos h).trans (if_pos hacc)

/-! ### O20 -/

/-- Settles O20: touch-ups that are due, their steps and end, and grants of tokens. -/
theorem touchupsRun : Obligations.TouchupsRun := by
  unfold Obligations.TouchupsRun
  refine ⟨⟨?_, ?_⟩, ?_⟩
  · intro now cl co e rg s pe g hholds hidle hdue
    refine ⟨_, exec_touchupDue_of_due hholds hidle hdue, ?_⟩
    obtain ⟨hclean, hregs, hzero⟩ := (s.advance now).unclean_spec
    generalize (s.advance now).unclean = u at hclean hregs hzero ⊢
    have hset := u.setTracker_touches g (s.tracker g).touchDue
    have hself := u.tracker_setTracker_same g (s.tracker g).touchDue
    generalize u.setTracker g (s.tracker g).touchDue = v at hset hself ⊢
    have hask := v.askToken_touches pe
    have hall : Touches [.regs, .shutRec, .trackers, .tokenWait] (s.advance now) (v.askToken pe) :=
      hask.after (hset.after hclean.mono)
    have hend := (hask.tracker g).trans hself
    exact ⟨congrArg Tracker.due hend, congrArg Tracker.row hend, congrArg Tracker.steps hend, v.askToken_asks pe,
      (hask.getF _ _).trans ((hset.getF _ _).trans hzero), hall.eq_withParts,
      KeepsRegs.of_advance ((hregs.touches hset).touches hask)⟩
  · intro now cl co e rg low high s pe g x hdue hheld hon hbound hbeaver hcal hback
    have hexec := fun (low high : List (Fin 276)) =>
      exec_touchupStep_of_token (now := now) (low := low) (high := high) hdue hheld hon hbound hbeaver hcal hback
    refine ⟨fun hodd => ?_, fun heven hlow h6 => ?_, fun heven hrow => ?_, fun heven hrow => ?_⟩
    · refine ⟨_, hexec low high, ?_⟩
      rw [State.touchupRow_pulse (s := s.advance now) _ _ hodd]
      exact s.stepSet_spec now pe g x.stepped
    · refine ⟨_, hexec low [], ?_⟩
      rw [List.map_nil, State.touchupRow_low (s := s.advance now) heven (by simpa using hlow) h6]
      exact s.stepSet_spec now pe g x.stepped
    · refine ⟨_, hexec [] [], ?_⟩
      rw [List.map_nil, State.touchupRow_clean (s := s.advance now) heven]
      rw [if_neg (show ¬ ((s.advance now).tracker (rgIx pe rg.val)).row = 63 from hrow)]
      obtain ⟨htr, -, -, hregs, hbytes⟩ := s.stepSet_spec now pe g x.rowDone
      exact ⟨htr, hregs, hbytes⟩
    · refine ⟨_, hexec [] [], ?_⟩
      rw [List.map_nil, State.touchupRow_clean (s := s.advance now) heven]
      rw [if_pos (show ((s.advance now).tracker (rgIx pe rg.val)).row = 63 from hrow)]
      have hset := (s.advance now).setTracker_touches g x.rowDone
      obtain ⟨hd, hacc, hcyc, hearly, -⟩ := ((s.advance now).setTracker g x.rowDone).touchupEnd_spec pe rg.val
      rw [hset.getF] at hcyc
      generalize hu : ((s.advance now).setTracker g x.rowDone).touchupEnd pe rg.val = u at hd hacc hcyc hearly
      obtain ⟨hend, -⟩ := u.stepEnds_spec pe
      rw [show ((s.advance now).setTracker (rgIx pe rg.val) ((s.advance now).tracker (rgIx pe rg.val)).rowDone).touchupEnd pe rg.val = u
        from hu]
      exact ⟨(congrArg Tracker.due (hend.tracker g)).trans hd, (congrArg Tracker.account (hend.tracker g)).trans hacc,
        (hend.getF _ _).trans hcyc, (congrArg (fun n => Nat.testBit n rg.val) (hend.getF _ _)).trans hearly⟩
  · intro now s r c e hfirst hpool
    refine ⟨fun hspare => ?_, fun hspare hacc => ?_⟩
    · rw [exec_progTokenGrant_of_first now hfirst hpool, State.draw_of_not_sparing (s := s.advance now) hspare]
      rfl
    · rw [exec_progTokenGrant_of_first now hfirst hpool, State.draw_of_account (s := s.advance now) hspare hacc]
      rfl

end Sys2Proof.Machine
end

section
/-!
PROOF. What an operation may write: parts of the state, and fields of registers.
-/

set_option Elab.async false

namespace Sys2Proof.Machine
open Sys2Proof

/-! ### What an operation may write: parts of the state, and fields of registers -/

/-- Parts of the state, and fields of registers. -/
structure Writes where
  parts : List Part
  flds : List Fld

/-- A set of numbers as one number. -/
def maskOf (xs : List Nat) : Nat := xs.foldl (fun m i => m ||| 1 <<< i) 0

/-- Whether every part and field of one is one of the other. -/
def Writes.le (v w : Writes) : Bool :=
  maskOf (v.parts.map Part.ctorIdx) &&& maskOf (w.parts.map Part.ctorIdx) == maskOf (v.parts.map Part.ctorIdx) &&
    maskOf (v.flds.map Fld.ctorIdx) &&& maskOf (w.flds.map Fld.ctorIdx) == maskOf (v.flds.map Fld.ctorIdx)

theorem testBit_maskOf (xs : List Nat) (i : Nat) : (maskOf xs).testBit i = xs.contains i := by
  have hfold (ys : List Nat) (m : Nat) : (ys.foldl (fun m i => m ||| 1 <<< i) m).testBit i = (m.testBit i || ys.contains i) := by
    induction ys generalizing m with
    | nil => simp
    | cons y ys ih =>
      rw [List.foldl_cons, ih, Nat.testBit_or, Nat.one_shiftLeft, Nat.testBit_two_pow, List.contains_cons, Bool.or_assoc,
        show (i == y) = decide (y = i) from (Bool.beq_eq_decide_eq i y).trans (decide_eq_decide.mpr eq_comm)]
  exact (hfold xs 0).trans (by simp)

theorem mem_of_mask {xs ys : List Nat} (h : (maskOf xs &&& maskOf ys == maskOf xs) = true) {i : Nat} (hi : i ∈ xs) : i ∈ ys := by
  have hx : (maskOf xs).testBit i = true := (testBit_maskOf xs i).trans (List.contains_iff_mem.mpr hi)
  rw [← eq_of_beq h, Nat.testBit_and, Bool.and_eq_true, testBit_maskOf ys] at hx
  exact List.contains_iff_mem.mp hx.2

theorem Part.ctorIdx_injective : Function.Injective Part.ctorIdx := fun p q h =>
  (Part.ofNat_ctorIdx p).symm.trans ((congrArg Part.ofNat h).trans (Part.ofNat_ctorIdx q))

theorem Fld.ctorIdx_injective : Function.Injective Fld.ctorIdx := fun p q h =>
  (Fld.ofNat_ctorIdx p).symm.trans ((congrArg Fld.ofNat h).trans (Fld.ofNat_ctorIdx q))

theorem mem_of_mask_map {α : Type} {f : α → Nat} (hf : Function.Injective f) {xs ys : List α}
    (h : (maskOf (xs.map f) &&& maskOf (ys.map f) == maskOf (xs.map f)) = true) {x : α} (hx : x ∈ xs) : x ∈ ys := by
  obtain ⟨y, hy, hxy⟩ := List.mem_map.mp (mem_of_mask h (List.mem_map_of_mem hx))
  exact hf hxy ▸ hy

/-- From s to t, nothing but the parts and fields of w is written. -/
structure Within (w : Writes) (s t : State) : Prop where
  touch : Touches w.parts s t
  regs : KeepsRegs s t (fun f _ => w.flds.contains f)

theorem Within.refl (w : Writes) (s : State) : Within w s s := ⟨Touches.refl _ s, KeepsRegs.refl s _⟩

theorem Within.trans {w : Writes} {s t u : State} (h : Within w s t) (k : Within w t u) : Within w s u :=
  ⟨h.touch.trans k.touch, h.regs.trans k.regs⟩

theorem Within.mono {v w : Writes} {s t : State} (h : Within v s t) (hw : v.le w = true := by decide) : Within w s t := by
  obtain ⟨hparts, hflds⟩ := Bool.and_eq_true_iff.mp hw
  refine ⟨⟨fun p hp => h.touch.keeps p (Bool.eq_false_iff.mpr fun hc => ?_)⟩, fun f i hf => h.regs f i (Bool.eq_false_iff.mpr fun hc => ?_)⟩
  · have hin := List.contains_iff_mem.mpr (mem_of_mask_map Part.ctorIdx_injective hparts (List.contains_iff_mem.mp hc))
    exact Bool.noConfusion (hp.symm.trans hin)
  · have hin := List.contains_iff_mem.mpr (mem_of_mask_map Fld.ctorIdx_injective hflds (List.contains_iff_mem.mp hc))
    exact Bool.noConfusion (hf.symm.trans hin)

/-- The later step named first, as a composition of operations is read from the outside. -/
theorem Within.after {v w : Writes} {s t u : State} (k : Within v t u) (h : Within w s t) (hv : v.le w = true := by decide) :
    Within w s u := h.trans (k.mono hv)

theorem Within.ite {w : Writes} {s t u : State} (c : Prop) [Decidable c] (h : Within w s t) (k : Within w s u) :
    Within w s (if c then t else u) := by split <;> assumption

theorem Within.foldl {α : Type} {w : Writes} (f : State → α → State) (h : ∀ s a, Within w s (f s a)) (xs : List α) (s : State) :
    Within w s (xs.foldl f s) := ⟨Touches.foldl f (fun t a => (h t a).touch) xs s, KeepsRegs.foldl f (fun t a => (h t a).regs) xs s⟩

/-- An operation that leaves the registers alone. -/
theorem Within.of_touches {ps : List Part} {s t : State} (h : Touches ps s t) (hp : ps.contains .regs = false := by decide) :
    Within ⟨ps, []⟩ s t := ⟨h, h.regs _ hp⟩

/-- An update of parts other than the registers. -/
theorem Within.update {s t : State} (ps : List Part) (h : t = s.withParts ps t) (hp : ps.contains .regs = false := by decide) :
    Within ⟨ps, []⟩ s t := Within.of_touches (Touches.of_withParts h) hp

theorem Within.getF {w : Writes} {s t : State} (h : Within w s t) (f : Fld) (i : Nat) (hf : w.flds.contains f = false := by decide) :
    t.getF f i = s.getF f i := h.regs f i hf

theorem Within.bit {w : Writes} {s t : State} (h : Within w s t) (f : Fld) (i : Nat) (hf : w.flds.contains f = false := by decide) :
    t.bit f i = s.bit f i := by
  unfold State.bit
  rw [h.getF f i hf]

theorem State.setF_within (s : State) (f : Fld) (i v : Nat) : Within ⟨[.regs], [f]⟩ s (s.setF f i v) :=
  ⟨s.setF_touches .., (KeepsRegs.refl s _).setF (by simp) v⟩

theorem State.setB_within (s : State) (f : Fld) (i : Nat) (v : Bool) : Within ⟨[.regs], [f]⟩ s (s.setB f i v) := s.setF_within ..

theorem State.addHold_within (s : State) (f : Fld) (i n : Nat) : Within ⟨[.regs], [f]⟩ s (s.addHold f i n) := s.setF_within ..

theorem State.addWrap_within (s : State) (f : Fld) (i n : Nat) : Within ⟨[.regs], [f]⟩ s (s.addWrap f i n) := s.setF_within ..

theorem Within.setF {w : Writes} {s t : State} (h : Within w s t) {f : Fld} (hp : w.parts.contains .regs = true)
    (hf : w.flds.contains f = true) (i v : Nat) : Within w s (t.setF f i v) :=
  ⟨h.touch.trans ((t.setF_touches f i v).mono (by simpa using hp)), h.regs.setF hf v⟩

/-- A fold over elements that each satisfy a condition. -/
theorem Within.foldl_mem {α : Type} {w : Writes} (f : State → α → State) (xs : List α)
    (h : ∀ s, ∀ a ∈ xs, Within w s (f s a)) (s : State) : Within w s (xs.foldl f s) := by
  induction xs generalizing s with
  | nil => exact Within.refl _ _
  | cons a xs ih =>
    exact (h s a List.mem_cons_self).trans (ih (fun t b hb => h t b (List.mem_cons_of_mem a hb)) _)

/-- A fold whose steps carry a flag beside the state. -/
theorem Within.foldl_fst {α β : Type} {w : Writes} (f : State × β → α → State × β) (h : ∀ r a, Within w r.1 (f r a).1) (xs : List α)
    (r : State × β) : Within w r.1 (xs.foldl f r).1 := by
  induction xs generalizing r with
  | nil => exact Within.refl _ _
  | cons a xs ih => exact (h r a).trans (ih _)

end Sys2Proof.Machine
end

section
/-!
PROOF. What each operation of the machine may write, in the order of the machine's files.
-/

set_option Elab.async false

namespace Sys2Proof.Machine
open Sys2Proof

theorem State.capture_within (s : State) (valid overrun : Fld) (i : Nat) (fields : List (Fld × Nat)) :
    Within ⟨[.regs], valid :: overrun :: fields.map Prod.fst⟩ s (s.capture valid overrun i fields) := by
  unfold State.capture
  refine Within.ite _ ((Within.refl _ _).setF rfl (by simp) ..) ?_
  refine Within.trans ((Within.refl _ _).setF rfl (by simp) ..) (Within.foldl_mem _ _ (fun t p hp => ?_) _)
  exact (Within.refl _ _).setF rfl
    (by simp only [List.contains_cons, Bool.or_eq_true, List.contains_iff_mem]; exact .inr (.inr (List.mem_map_of_mem hp))) ..

theorem State.burn_within (s : State) : Within ⟨[.fresh], []⟩ s (s.burn) :=
  (Within.update [.fresh] rfl).mono

theorem State.emit_within (s : State) (o : Output) : Within ⟨[.out], []⟩ s (s.emit o) :=
  (Within.update [.out] rfl).mono

theorem State.msix_within (s : State) (fn vec : Nat) : Within ⟨[.out, .pba], []⟩ s (s.msix fn vec) :=
  Within.ite _ ((Within.update [.pba] rfl).mono) ((State.emit_within ..).mono)

theorem State.setEngine_within (s : State) (pe : Nat) (e : Engine) : Within ⟨[.engines], []⟩ s (s.setEngine pe e) :=
  (Within.update [.engines] rfl).mono

theorem State.setTracker_within (s : State) (rg : Nat) (t : Tracker) : Within ⟨[.trackers], []⟩ s (s.setTracker rg t) :=
  (Within.update [.trackers] rfl).mono

theorem State.setStation_within (s : State) (id : Nat) (x : Station) : Within ⟨[.stations], []⟩ s (s.setStation id x) :=
  (Within.update [.stations] rfl).mono

theorem State.setCoreTiles_within (s : State) (core : Nat) (ts : List Tile) :
    Within ⟨[.tiles], []⟩ s (s.setCoreTiles core ts) :=
  (Within.update [.tiles] rfl).mono

theorem State.setTmv_within (s : State) (core : Nat) (x : Tmv) : Within ⟨[.tmvs], []⟩ s (s.setTmv core x) :=
  (Within.update [.tmvs] rfl).mono

theorem State.setCtx_within (s : State) (c : Nat) (x : Context) : Within ⟨[.ctxs], []⟩ s (s.setCtx c x) :=
  (Within.update [.ctxs] rfl).mono

theorem State.setThread_within (s : State) (i : Nat) (x : ThreadState) : Within ⟨[.threads], []⟩ s (s.setThread i x) :=
  (Within.update [.threads] rfl).mono

theorem State.setGroup_within (s : State) (g : Nat) (x : Group) : Within ⟨[.groups], []⟩ s (s.setGroup g x) :=
  (Within.update [.groups] rfl).mono

theorem State.setPart_within (s : State) (owner : Nat) (p : Option Partition) : Within ⟨[.parts], []⟩ s (s.setPart owner p) :=
  (Within.update [.parts] rfl).mono

theorem State.setFn_within (s : State) (f : Nat) (x : Function) : Within ⟨[.fns], []⟩ s (s.setFn f x) :=
  (Within.update [.fns] rfl).mono

theorem State.setOcu_within (s : State) (c : Nat) (x : Ocu) : Within ⟨[.ocus], []⟩ s (s.setOcu c x) :=
  (Within.update [.ocus] rfl).mono

theorem State.setOwl_within (s : State) (i : Nat) (x : Owl) : Within ⟨[.owls], []⟩ s (s.setOwl i x) :=
  (Within.update [.owls] rfl).mono

theorem State.setPort_within (s : State) (p : Nat) (x : Port) : Within ⟨[.ports], []⟩ s (s.setPort p x) :=
  (Within.update [.ports] rfl).mono

theorem State.setShard_within (s : State) (n : Nat) (x : Shard) : Within ⟨[.shards], []⟩ s (s.setShard n x) :=
  (Within.update [.shards] rfl).mono

theorem State.setBeaver_within (s : State) (b : Nat) (x : Option Beaver) : Within ⟨[.beavers], []⟩ s (s.setBeaver b x) :=
  (Within.update [.beavers] rfl).mono

theorem State.setJobQ_within (s : State) (o : Nat) (q : List Job) : Within ⟨[.jobs], []⟩ s (s.setJobQ o q) :=
  (Within.update [.jobs] rfl).mono

theorem State.queueOwn_within (s : State) (j : Job) : Within ⟨[.jobs], []⟩ s (s.queueOwn j) :=
  (State.setJobQ_within ..).mono

theorem State.setTrace_within (s : State) (c : Nat) (x : TraceRing) : Within ⟨[.traces], []⟩ s (s.setTrace c x) :=
  (Within.update [.traces] rfl).mono

theorem State.setPoint_within (s : State) (n : Nat) (x : TensorPoint) : Within ⟨[.points], []⟩ s (s.setPoint n x) :=
  (Within.update [.points] rfl).mono

theorem State.setPassQ_within (s : State) (c : Nat) (q : List CalPass) : Within ⟨[.passes], []⟩ s (s.setPassQ c q) :=
  (Within.update [.passes] rfl).mono

theorem State.setPass_within (s : State) (c : Nat) (x : CalPass) : Within ⟨[.passes], []⟩ s (s.setPass c x) :=
  (State.setPassQ_within ..).mono

theorem State.setPll_within (s : State) (on : Bool) : Within ⟨[.pllOff], []⟩ s (s.setPll on) :=
  (Within.update [.pllOff] rfl).mono

theorem State.store_within (s : State) (a : Nat) (bs : List Byte) : Within ⟨[.sram, .ecc], []⟩ s (s.store a bs) :=
  (Within.update [.sram, .ecc] rfl).mono

theorem State.zeroFill_within (s : State) (a n : Nat) : Within ⟨[.sram, .ecc], []⟩ s (s.zeroFill a n) :=
  (Within.update [.sram, .ecc] rfl).mono

theorem State.total_within (s : State) (owner which n : Nat) : Within ⟨[.totals], []⟩ s (s.total owner which n) := by
  unfold State.total
  extract_lets _
  exact (Within.update [.totals] rfl).mono

/-- What `State.raiseTo` may write. -/
def State.raiseToWrites : Writes := ⟨[.out, .pba, .events, .traces], []⟩

theorem State.raiseTo_within (s : State) (owners : List Nat) (code owner : Nat) (cluster unit station : Nat)
    (detail : List Byte) :
    Within State.raiseToWrites s (s.raiseTo owners code owner cluster unit station detail) := by
  unfold State.raiseTo
  extract_lets _ _ _ _ _ _ _ _ _ s1 s2
  have hs1 : Within State.raiseToWrites s s1 := (Within.update [.events] rfl).mono
  have hs2 : Within State.raiseToWrites s s2 := Within.ite _ ((State.setTrace_within ..).after hs1) hs1
  exact Within.trans hs2 (Within.foldl _ (fun _ _ => (State.msix_within ..).mono) _ _)

/-- What `State.raise` may write. -/
def State.raiseWrites : Writes := ⟨[.out, .pba, .events, .traces], []⟩

theorem State.raise_within (s : State) (code owner : Nat) (cluster unit station : Nat) (detail : List Byte) :
    Within State.raiseWrites s (s.raise code owner cluster unit station detail) :=
  (State.raiseTo_within ..).mono

/-- What `State.svcFill` may write. -/
def State.svcFillWrites : Writes := ⟨[.out, .regs, .pba], [.SVC_DATA_WORD, .SVC_STAT_FULL]⟩

theorem State.svcFill_within (s : State) (f : Nat) (ws : List Word) : Within State.svcFillWrites s (s.svcFill f ws) := by
  unfold State.svcFill
  extract_lets s1
  have hs1 : Within State.svcFillWrites s s1 := Within.foldl _ (fun _ _ => (State.setF_within ..).mono) _ _
  exact (State.msix_within ..).after ((State.setF_within ..).after hs1)

/-- What `State.service` may write. -/
def State.serviceWrites : Writes := ⟨[.out, .regs, .fns, .pba], [.SVC_DATA_WORD, .SVC_STAT_FULL, .SVC_STAT_LOST]⟩

theorem State.service_within (s : State) (f code : Nat) (ws : List Word) :
    Within State.serviceWrites s (s.service f code ws) := by
  unfold State.service
  extract_lets _ _ s1 _
  have hs1 : Within State.serviceWrites s s1 := (State.setFn_within ..).mono
  refine Within.ite _ (Within.refl _ _) ?_
  refine Within.ite _ ?_ ?_
  · exact (State.svcFill_within ..).after hs1
  · exact Within.ite _ ((State.setFn_within ..).after hs1) ((State.addHold_within ..).after hs1)

/-- What `State.cplWrite` may write. -/
def State.cplWriteWrites : Writes := ⟨[.out, .regs, .fns, .pba], [.CPL_TAIL_INDEX]⟩

theorem State.cplWrite_within (s : State) (f : Nat) (c : Completion) : Within State.cplWriteWrites s (s.cplWrite f c) := by
  unfold State.cplWrite
  extract_lets _ _ _ _ s1 s2
  have hs1 : Within State.cplWriteWrites s s1 := (State.emit_within ..).mono
  have hs2 : Within State.cplWriteWrites s s2 := (State.setFn_within ..).after hs1
  exact (State.msix_within ..).after ((State.setF_within ..).after hs2)

/-- What `State.complete` may write. -/
def State.completeWrites : Writes := ⟨[.out, .regs, .fns, .pba], [.CPL_TAIL_INDEX]⟩

theorem State.complete_within (s : State) (f : Nat) (c : Completion) : Within State.completeWrites s (s.complete f c) := by
  unfold State.complete
  extract_lets _
  refine Within.ite _ ?_ ?_
  · exact Within.refl _ _
  · exact Within.ite _ ((State.cplWrite_within ..).mono) ((State.setFn_within ..).mono)

/-- What `State.eccCapture` may write. -/
def State.eccCaptureWrites : Writes := ⟨[.regs], [.CMC_ECCADDR_OFFSET, .CMC_ECCSTAT_KIND, .CMC_ECCSTAT_MASTER,
  .CMC_ECCSTAT_OVERRUN, .CMC_ECCSTAT_SYNDROME, .CMC_ECCSTAT_VALID, .KMC_ECCADDR_OFFSET, .KMC_ECCSTAT_KIND,
  .KMC_ECCSTAT_MASTER, .KMC_ECCSTAT_OVERRUN, .KMC_ECCSTAT_SYNDROME, .KMC_ECCSTAT_VALID]⟩

theorem State.eccCapture_within (s : State) (master w : Nat) (syn kind : Nat) :
    Within State.eccCaptureWrites s (s.eccCapture master w syn kind) := by
  unfold State.eccCapture
  split
  · extract_lets t
    have ht : Within State.eccCaptureWrites s t := Within.mono (State.capture_within ..)
      (by simp only [List.map_cons, List.map_nil]; decide)
    exact Within.ite _ ht ((State.setF_within ..).after ht)
  · extract_lets t
    have ht : Within State.eccCaptureWrites s t := Within.mono (State.capture_within ..)
      (by simp only [List.map_cons, List.map_nil]; decide)
    exact Within.ite _ ht ((State.setF_within ..).after ht)

/-- What `State.eccEvent` may write. -/
def State.eccEventWrites : Writes := ⟨[.out, .regs, .pba, .events, .traces, .totals], [.CMC_ECCADDR_OFFSET,
  .CMC_ECCCNT_CORR, .CMC_ECCCNT_UNCORR, .CMC_ECCSTAT_KIND, .CMC_ECCSTAT_MASTER, .CMC_ECCSTAT_OVERRUN,
  .CMC_ECCSTAT_SYNDROME, .CMC_ECCSTAT_VALID, .KMC_ECCADDR_OFFSET, .KMC_ECCCNT_CORR, .KMC_ECCCNT_UNCORR,
  .KMC_ECCSTAT_KIND, .KMC_ECCSTAT_MASTER, .KMC_ECCSTAT_OVERRUN, .KMC_ECCSTAT_SYNDROME, .KMC_ECCSTAT_VALID]⟩

theorem State.eccEvent_within (s : State) (master w : Nat) (syn kind : Nat) :
    Within State.eccEventWrites s (s.eccEvent master w syn kind) := by
  unfold State.eccEvent
  extract_lets _ _ _ t
  have ht : Within State.eccEventWrites s t := (State.total_within ..).after ((State.eccCapture_within ..).mono)
  split <;> exact (State.raise_within ..).after (Within.after (State.addHold_within ..) ht (by split <;> decide))

/-- What `State.readWordEcc` may write. -/
def State.readWordEccWrites : Writes := ⟨[.out, .regs, .scrubs, .pba, .events, .traces, .totals], [.CMC_ECCADDR_OFFSET,
  .CMC_ECCCNT_CORR, .CMC_ECCCNT_UNCORR, .CMC_ECCSTAT_KIND, .CMC_ECCSTAT_MASTER, .CMC_ECCSTAT_OVERRUN,
  .CMC_ECCSTAT_SYNDROME, .CMC_ECCSTAT_VALID, .KMC_ECCADDR_OFFSET, .KMC_ECCCNT_CORR, .KMC_ECCCNT_UNCORR,
  .KMC_ECCSTAT_KIND, .KMC_ECCSTAT_MASTER, .KMC_ECCSTAT_OVERRUN, .KMC_ECCSTAT_SYNDROME, .KMC_ECCSTAT_VALID]⟩

theorem State.readWordEcc_within (master : Nat) (s : State) (w : Nat) :
    Within State.readWordEccWrites s (State.readWordEcc master s w) := by
  unfold State.readWordEcc
  extract_lets _ s1
  have hs1 : Within State.readWordEccWrites s s1 := (State.eccEvent_within ..).mono
  refine Within.ite _ (Within.refl _ _) ?_
  refine Within.ite _ ?_ ?_
  · exact Within.ite _ hs1 (Within.after (Within.update [.scrubs] rfl) hs1)
  · exact Within.ite _ ((State.eccCapture_within ..).mono) ((State.eccEvent_within ..).mono)

/-- What `State.readEcc` may write. -/
def State.readEccWrites : Writes := ⟨[.out, .regs, .scrubs, .pba, .events, .traces, .totals], [.CMC_ECCADDR_OFFSET,
  .CMC_ECCCNT_CORR, .CMC_ECCCNT_UNCORR, .CMC_ECCSTAT_KIND, .CMC_ECCSTAT_MASTER, .CMC_ECCSTAT_OVERRUN,
  .CMC_ECCSTAT_SYNDROME, .CMC_ECCSTAT_VALID, .KMC_ECCADDR_OFFSET, .KMC_ECCCNT_CORR, .KMC_ECCCNT_UNCORR,
  .KMC_ECCSTAT_KIND, .KMC_ECCSTAT_MASTER, .KMC_ECCSTAT_OVERRUN, .KMC_ECCSTAT_SYNDROME, .KMC_ECCSTAT_VALID]⟩

theorem State.readEcc_within (s : State) (master a n : Nat) : Within State.readEccWrites s (s.readEcc master a n) :=
  Within.foldl _ (fun _ _ => (State.readWordEcc_within ..).mono) _ _

theorem State.mark_within (s : State) (w syn : Nat) : Within ⟨[.ecc], []⟩ s (s.mark w syn) :=
  (Within.update [.ecc] rfl).mono

/-- What `State.writeWord` may write. -/
def State.writeWordWrites : Writes := ⟨[.out, .regs, .sram, .ecc, .pba, .events, .traces, .totals], [.CMC_ECCADDR_OFFSET,
  .CMC_ECCCNT_CORR, .CMC_ECCCNT_UNCORR, .CMC_ECCSTAT_KIND, .CMC_ECCSTAT_MASTER, .CMC_ECCSTAT_OVERRUN,
  .CMC_ECCSTAT_SYNDROME, .CMC_ECCSTAT_VALID, .KMC_ECCADDR_OFFSET, .KMC_ECCCNT_CORR, .KMC_ECCCNT_UNCORR,
  .KMC_ECCSTAT_KIND, .KMC_ECCSTAT_MASTER, .KMC_ECCSTAT_OVERRUN, .KMC_ECCSTAT_SYNDROME, .KMC_ECCSTAT_VALID]⟩

theorem State.writeWord_within (s : State) (master w a : Nat) (bs : List Byte) :
    Within State.writeWordWrites s (s.writeWord master w a bs).1 := by
  unfold State.writeWord
  extract_lets _
  split
  · exact (State.mark_within ..).after ((Within.update [.sram] rfl).mono)
  · split
    · exact (State.eccEvent_within ..).after ((State.mark_within ..).after ((Within.update [.sram] rfl).mono))
    · exact (State.eccEvent_within ..).after ((State.mark_within ..).mono)

/-- What `State.writeMem` may write. -/
def State.writeMemWrites : Writes := ⟨[.out, .regs, .sram, .ecc, .pba, .events, .traces, .totals], [.CMC_ECCADDR_OFFSET,
  .CMC_ECCCNT_CORR, .CMC_ECCCNT_UNCORR, .CMC_ECCSTAT_KIND, .CMC_ECCSTAT_MASTER, .CMC_ECCSTAT_OVERRUN,
  .CMC_ECCSTAT_SYNDROME, .CMC_ECCSTAT_VALID, .KMC_ECCADDR_OFFSET, .KMC_ECCCNT_CORR, .KMC_ECCCNT_UNCORR,
  .KMC_ECCSTAT_KIND, .KMC_ECCSTAT_MASTER, .KMC_ECCSTAT_OVERRUN, .KMC_ECCSTAT_SYNDROME, .KMC_ECCSTAT_VALID]⟩

theorem State.writeMem_within (s : State) (master : Nat) (skip : Nat → Bool) (a : Nat) (bs : List Byte) :
    Within State.writeMemWrites s (s.writeMem master skip a bs).1 := by
  unfold State.writeMem
  refine Within.foldl_fst _ (fun r w => ?_) _ (s, false)
  dsimp only
  split
  · exact Within.refl _ _
  · exact (State.writeWord_within ..).mono

theorem State.setSlot_within (s : State) (r : SlotRef) (v : Nat) :
    Within ⟨[.regs], [.CMC_SLOT_STATE, .KMC_SLOT_STATE]⟩ s (s.setSlot r v) :=
  Within.ite _ ((State.setF_within ..).mono) ((State.setF_within ..).mono)

theorem State.setTorn_within (s : State) (r : SlotRef) (v : Bool) :
    Within ⟨[.regs], [.CMC_SLOT_TORN, .KMC_SLOT_TORN]⟩ s (s.setTorn r v) :=
  Within.ite _ ((State.setB_within ..).mono) ((State.setB_within ..).mono)

theorem State.setRing_within (s : State) (r : SlotRef) (x : Ring) : Within ⟨[.rings], []⟩ s (s.setRing r x) :=
  (Within.update [.rings] rfl).mono

theorem State.stepWr_within (s : State) (r : SlotRef) : Within ⟨[.rings], []⟩ s (s.stepWr r) := by
  unfold State.stepWr
  extract_lets _
  exact (State.setRing_within ..).mono

theorem State.stepRd_within (s : State) (r : SlotRef) : Within ⟨[.rings], []⟩ s (s.stepRd r) := by
  unfold State.stepRd
  extract_lets _
  exact (State.setRing_within ..).mono

/-- What `State.count` may write. -/
def State.countWrites : Writes := ⟨[.regs, .totals], [.KMC_STN_LATECNT_COUNT, .KMC_STN_POISCNT_COUNT,
  .KMC_STN_SATCNT_COUNT, .KMC_STN_TORNCNT_COUNT, .KMC_STN_UNMATCH_COUNT]⟩

theorem State.count_within (s : State) (st which n : Nat) : Within State.countWrites s (s.count st which n) := by
  unfold State.count
  extract_lets _ s1
  have hs1 : Within State.countWrites s s1 := by
    unfold s1
    split
    · exact Within.mono (State.addHold_within ..) (by split <;> decide)
    · exact Within.refl _ _
  exact Within.ite _ ((State.total_within ..).after hs1) hs1

theorem State.enterTile_within (s : State) (st : Nat) : Within ⟨[.stations], []⟩ s (s.enterTile st) := by
  unfold State.enterTile
  extract_lets _
  exact Within.ite _ ((State.setStation_within ..).mono) (Within.refl _ _)

theorem State.leaveTile_within (s : State) (st : Nat) : Within ⟨[.stations], []⟩ s (s.leaveTile st) := by
  unfold State.leaveTile
  extract_lets _
  exact Within.ite _ (Within.refl _ _) ((State.setStation_within ..).mono)

theorem State.setLink_within (s : State) (p : Nat) (x : Link) : Within ⟨[.links], []⟩ s (s.setLink p x) :=
  (Within.update [.links] rfl).mono

theorem State.sendFlit_within (s : State) (p type : Nat) (lchan dst : Nat) (payload : List Byte) :
    Within ⟨[.out, .links], []⟩ s (s.sendFlit p type lchan dst payload) := by
  unfold State.sendFlit
  extract_lets _ _ _
  exact (State.emit_within ..).after ((State.setLink_within ..).mono)

theorem State.sendFrame_within (s : State) (p type : Nat) (lchan dst : Nat) (payload : List Byte) :
    Within ⟨[.out, .links], []⟩ s (s.sendFrame p type lchan dst payload) := by
  unfold State.sendFrame
  extract_lets _
  exact Within.ite _ ((State.sendFlit_within ..).mono) ((State.setLink_within ..).mono)

/-- What `State.sendHeld` may write. -/
def State.sendHeldWrites : Writes := ⟨[.out, .links], []⟩

theorem State.sendHeld_within (s : State) (p n : Nat) : Within State.sendHeldWrites s (s.sendHeld p n) := by
  induction n generalizing s with
  | zero => exact Within.refl _ _
  | succ n ih =>
    unfold State.sendHeld
    extract_lets x
    split
    · exact Within.ite _ ((ih _).after ((State.sendFlit_within ..).after ((State.setLink_within ..).mono))) (Within.refl _ _)
    · exact Within.refl _ _

theorem State.sendTo_within (s : State) (dev type lchan : Nat) (payload : List Byte) :
    Within ⟨[.out, .links], []⟩ s (s.sendTo dev type lchan payload) := by
  unfold State.sendTo
  split
  · exact Within.ite _ ((State.sendFrame_within ..).mono) (Within.refl _ _)
  · exact Within.refl _ _

theorem State.sendRound_within (s : State) (g k : Nat) : Within ⟨[.out, .links], []⟩ s (s.sendRound g k) := by
  unfold State.sendRound
  extract_lets _ _ _
  exact (State.sendTo_within ..).mono

theorem State.setGreg_within (s : State) (i n : Nat) (v : Word) : Within ⟨[.regs], [.CSQ_TH_GREG_VALUE]⟩ s (s.setGreg i n v) :=
  (State.setF_within ..).mono

theorem State.setPred_within (s : State) (i p : Nat) (v : Bool) : Within ⟨[.regs], [.CSQ_TH_PRED_P]⟩ s (s.setPred i p v) :=
  (State.setF_within ..).mono

theorem State.setPc_within (s : State) (i v : Nat) : Within ⟨[.regs], [.CSQ_TH_STAT_PC]⟩ s (s.setPc i v) :=
  (State.setF_within ..).mono

theorem State.traceTh_within (s : State) (i least : Nat) (kind pc data : Nat) :
    Within ⟨[.traces], []⟩ s (s.traceTh i least kind pc data) :=
  Within.ite _ ((State.setTrace_within ..).mono) (Within.refl _ _)

/-- What `State.moveWord` may write. -/
def State.moveWordWrites : Writes := ⟨[.out, .regs, .sram, .ecc, .scrubs, .pba, .events, .traces, .totals],
  [.CMC_ECCADDR_OFFSET, .CMC_ECCCNT_CORR, .CMC_ECCCNT_UNCORR, .CMC_ECCSTAT_KIND, .CMC_ECCSTAT_MASTER,
  .CMC_ECCSTAT_OVERRUN, .CMC_ECCSTAT_SYNDROME, .CMC_ECCSTAT_VALID, .KMC_ECCADDR_OFFSET, .KMC_ECCCNT_CORR,
  .KMC_ECCCNT_UNCORR, .KMC_ECCSTAT_KIND, .KMC_ECCSTAT_MASTER, .KMC_ECCSTAT_OVERRUN, .KMC_ECCSTAT_SYNDROME, .KMC_ECCSTAT_VALID]⟩

theorem State.moveWord_within (master : Nat) (s : State) (d w : Nat) :
    Within State.moveWordWrites s (State.moveWord master s d w) := by
  unfold State.moveWord
  extract_lets s1 _
  have hs1 : Within State.moveWordWrites s s1 := (State.readWordEcc_within ..).mono
  refine Within.ite _ ?_ ?_
  · exact (State.mark_within ..).after (Within.after (Within.update [.sram] rfl) hs1)
  · exact (State.writeWord_within ..).after hs1

/-- What `State.moveBytes` may write. -/
def State.moveBytesWrites : Writes := ⟨[.out, .regs, .sram, .ecc, .scrubs, .pba, .events, .traces, .totals],
  [.CMC_ECCADDR_OFFSET, .CMC_ECCCNT_CORR, .CMC_ECCCNT_UNCORR, .CMC_ECCSTAT_KIND, .CMC_ECCSTAT_MASTER,
  .CMC_ECCSTAT_OVERRUN, .CMC_ECCSTAT_SYNDROME, .CMC_ECCSTAT_VALID, .KMC_ECCADDR_OFFSET, .KMC_ECCCNT_CORR,
  .KMC_ECCCNT_UNCORR, .KMC_ECCSTAT_KIND, .KMC_ECCSTAT_MASTER, .KMC_ECCSTAT_OVERRUN, .KMC_ECCSTAT_SYNDROME, .KMC_ECCSTAT_VALID]⟩

theorem State.moveBytes_within (s : State) (master dst : Nat) (src n : Nat) :
    Within State.moveBytesWrites s (s.moveBytes master dst src n) :=
  Within.foldl _ (fun _ _ => (State.moveWord_within ..).mono) _ _

/-- What `State.seqCapture` may write. -/
def State.seqCaptureWrites : Writes := ⟨[.regs], [.CSQ_TH_EXC_CODE, .CSQ_TH_EXC_OVERRUN, .CSQ_TH_EXC_PC, .CSQ_TH_EXC_VALID]⟩

theorem State.seqCapture_within (s : State) (i code pc : Nat) : Within State.seqCaptureWrites s (s.seqCapture i code pc) :=
  Within.mono (State.capture_within ..) (by simp only [List.map_cons, List.map_nil]; decide)

/-- What `State.seqStopDue` may write. -/
def State.seqStopDueWrites : Writes := ⟨[.regs, .threads, .traces], [.CSQ_TH_STAT_STATE]⟩

theorem State.seqStopDue_within (s : State) (i : Nat) : Within State.seqStopDueWrites s (s.seqStopDue i) := by
  unfold State.seqStopDue
  extract_lets _ s1 _ s2
  have hs1 : Within State.seqStopDueWrites s s1 := Within.ite _ ((State.setF_within ..).after
    ((State.setThread_within ..).mono)) (Within.refl _ _)
  have hs2 : Within State.seqStopDueWrites s s2 := (State.setThread_within ..).after hs1
  exact Within.ite _ ((State.traceTh_within ..).after ((State.setF_within ..).after hs2)) hs1

/-- What `State.seqReport` may write. -/
def State.seqReportWrites : Writes := ⟨[.out, .regs, .pba, .events, .traces], [.CSQ_TH_EXC_CODE, .CSQ_TH_EXC_OVERRUN,
  .CSQ_TH_EXC_PC, .CSQ_TH_EXC_VALID]⟩

theorem State.seqReport_within (s : State) (i code pc : Nat) : Within State.seqReportWrites s (s.seqReport i code pc) :=
  (State.raise_within ..).after ((State.traceTh_within ..).after ((State.seqCapture_within ..).mono))

/-- What `State.seqHaltAt` may write. -/
def State.seqHaltAtWrites : Writes := ⟨[.out, .regs, .threads, .pba, .events, .traces], [.CSQ_TH_EXC_CODE,
  .CSQ_TH_EXC_OVERRUN, .CSQ_TH_EXC_PC, .CSQ_TH_EXC_VALID, .CSQ_TH_STAT_STATE, .CSQ_TH_STAT_WAITKIND]⟩

theorem State.seqHaltAt_within (s : State) (i code pc : Nat) : Within State.seqHaltAtWrites s (s.seqHaltAt i code pc) := by
  unfold State.seqHaltAt
  extract_lets s1 _
  have hs1 : Within State.seqHaltAtWrites s s1 := (State.setF_within ..).after ((State.setF_within ..).mono)
  exact (State.seqStopDue_within ..).after ((State.seqReport_within ..).after ((State.setThread_within ..).after hs1))

/-- What `State.seqHalt` may write. -/
def State.seqHaltWrites : Writes := ⟨[.out, .regs, .threads, .pba, .events, .traces], [.CSQ_TH_EXC_CODE,
  .CSQ_TH_EXC_OVERRUN, .CSQ_TH_EXC_PC, .CSQ_TH_EXC_VALID, .CSQ_TH_STAT_STATE, .CSQ_TH_STAT_WAITKIND]⟩

theorem State.seqHalt_within (s : State) (i code : Nat) : Within State.seqHaltWrites s (s.seqHalt i code) :=
  (State.seqHaltAt_within ..).mono

/-- What `State.seqRecoverAt` may write. -/
def State.seqRecoverAtWrites : Writes := ⟨[.out, .regs, .threads, .pba, .events, .traces, .totals], [.CSQ_TH_EXC_CODE,
  .CSQ_TH_EXC_OVERRUN, .CSQ_TH_EXC_PC, .CSQ_TH_EXC_VALID, .CSQ_TH_PRED_P, .CSQ_TH_RECCNT_COUNT, .CSQ_TH_STAT_STATE,
  .CSQ_TH_STAT_WAITKIND]⟩

theorem State.seqRecoverAt_within (s : State) (i code pc : Nat) (p7 : Bool) :
    Within State.seqRecoverAtWrites s (s.seqRecoverAt i code pc p7) := by
  unfold State.seqRecoverAt
  extract_lets s1 s2
  have hs1 : Within State.seqRecoverAtWrites s s1 := Within.ite _ ((State.setPred_within ..).mono) (Within.refl _ _)
  have hs2 : Within State.seqRecoverAtWrites s s2 := (State.seqCapture_within ..).after ((State.addHold_within ..).after hs1)
  refine Within.ite _ ?_ ?_
  · exact (State.seqHaltAt_within ..).mono
  · exact (State.raise_within ..).after ((State.traceTh_within ..).after ((State.total_within ..).after hs2))

/-- What `State.block` may write. -/
def State.blockWrites : Writes := ⟨[.regs, .threads, .traces], [.CSQ_TH_STAT_STATE, .CSQ_TH_STAT_WAITKIND]⟩

theorem State.block_within (s : State) (i kind : Nat) (wt : ThreadWait) : Within State.blockWrites s (s.block i kind wt) := by
  unfold State.block
  extract_lets _ s1
  have hs1 : Within State.blockWrites s s1 := (State.setThread_within ..).mono
  exact (State.traceTh_within ..).after ((State.setF_within ..).after ((State.setF_within ..).after hs1))

/-- What `State.resume` may write. -/
def State.resumeWrites : Writes := ⟨[.regs, .threads, .traces], [.CSQ_TH_PRED_P, .CSQ_TH_STAT_STATE, .CSQ_TH_STAT_WAITKIND]⟩

theorem State.resume_within (s : State) (i : Nat) (p7 : Bool) : Within State.resumeWrites s (s.resume i p7) := by
  unfold State.resume
  extract_lets _ s1 s2
  have hs1 : Within State.resumeWrites s s1 := (State.setThread_within ..).mono
  have hs2 : Within State.resumeWrites s s2 := (State.setPred_within ..).after ((State.setF_within ..).after
    ((State.setF_within ..).after hs1))
  exact (State.seqStopDue_within ..).after ((State.traceTh_within ..).after hs2)

theorem State.latch_within (s : State) (g : Nat) : Within ⟨[.groups], []⟩ s (s.latch g) := by
  unfold State.latch
  extract_lets _
  split
  · exact Within.ite _ ((State.setGroup_within ..).mono) (Within.refl _ _)
  · exact Within.refl _ _

theorem State.latchAll_within (s : State) : Within ⟨[.groups], []⟩ s (s.latchAll) :=
  Within.foldl _ (fun _ _ => (State.latch_within ..).mono) _ _

theorem State.grant_within (s : State) (st n : Nat) : Within ⟨[.stations, .groups], []⟩ s (s.grant st n) := by
  unfold State.grant
  extract_lets s1 _
  have hs1 : Within ⟨[.stations, .groups], []⟩ s s1 := (State.latchAll_within ..).mono
  exact Within.ite _ hs1 ((State.setStation_within ..).after hs1)

theorem State.sendRounds_within (s : State) (g : Nat) : Within ⟨[.out, .groups, .links], []⟩ s (s.sendRounds g) := by
  unfold State.sendRounds
  extract_lets s1 _
  have hs1 : Within ⟨[.out, .groups, .links], []⟩ s s1 := (State.latch_within ..).mono
  split
  · exact hs1
  · refine Within.ite _ ?_ hs1
    refine Within.trans hs1 (Within.foldl _ (fun t x => ?_) _ _)
    extract_lets t1 _
    have ht1 : Within ⟨[.out, .groups, .links], []⟩ t t1 := (State.sendRound_within ..).mono
    refine Within.ite _ ?_ (Within.refl _ _)
    split
    · exact (State.setGroup_within ..).after ht1
    · exact ht1

/-- What `State.arrive` may write. -/
def State.arriveWrites : Writes := ⟨[.out, .threads, .groups, .links], []⟩

theorem State.arrive_within (s : State) (i g : Nat) (slow : Bool) (guardTh : Nat) :
    Within State.arriveWrites s (s.arrive i g slow guardTh) := by
  unfold State.arrive
  extract_lets _ _ _ _ _ _ s1 _ s2
  have hs1 : Within State.arriveWrites s s1 := (State.setGroup_within ..).mono
  have hs2 : Within State.arriveWrites s s2 := (State.setThread_within ..).after hs1
  exact (State.sendRounds_within ..).after hs2

theorem State.thaw_within (s : State) : Within ⟨[.stations], []⟩ s (s.thaw) :=
  (Within.update [.stations] rfl).mono

/-- What `State.endInstance` may write. -/
def State.endInstanceWrites : Writes := ⟨[.regs, .stations, .threads, .groups, .snaps, .traces], [.CSQ_TH_PRED_P,
  .CSQ_TH_STAT_STATE, .CSQ_TH_STAT_WAITKIND]⟩

theorem State.endInstance_within (s : State) (g : Nat) (p7 timedOut : Bool) :
    Within State.endInstanceWrites s (s.endInstance g p7 timedOut) := by
  unfold State.endInstance
  extract_lets _ s1
  have hs1 : Within State.endInstanceWrites s s1 := (State.setGroup_within ..).mono
  split
  · exact Within.refl _ _
  · extract_lets s2
    have hs2 : Within State.endInstanceWrites s s2 := Within.ite _ ((State.thaw_within ..).after (Within.after
      (Within.update [.snaps] rfl) hs1)) hs1
    exact Within.trans hs2 (Within.foldl _ (fun _ _ => Within.ite _ ((State.resume_within ..).mono) (Within.refl _ _)) _ _)

/-- What `State.abandonWaits` may write. -/
def State.abandonWaitsWrites : Writes := ⟨[.regs, .stations, .threads, .groups, .snaps, .traces], [.CSQ_TH_PRED_P,
  .CSQ_TH_STAT_STATE, .CSQ_TH_STAT_WAITKIND]⟩

theorem State.abandonWaits_within (s : State) (i : Nat) : Within State.abandonWaitsWrites s (s.abandonWaits i) := by
  unfold State.abandonWaits
  extract_lets _
  exact Within.foldl _ (fun _ _ => (State.endInstance_within ..).mono) _ _

/-- What `State.cutCopy` may write. -/
def State.cutCopyWrites : Writes := ⟨[.fresh, .out, .regs, .sram, .ecc, .scrubs, .pba, .events, .traces, .totals],
  [.CMC_ECCADDR_OFFSET, .CMC_ECCCNT_CORR, .CMC_ECCCNT_UNCORR, .CMC_ECCSTAT_KIND, .CMC_ECCSTAT_MASTER,
  .CMC_ECCSTAT_OVERRUN, .CMC_ECCSTAT_SYNDROME, .CMC_ECCSTAT_VALID, .KMC_ECCADDR_OFFSET, .KMC_ECCCNT_CORR,
  .KMC_ECCCNT_UNCORR, .KMC_ECCSTAT_KIND, .KMC_ECCSTAT_MASTER, .KMC_ECCSTAT_OVERRUN, .KMC_ECCSTAT_SYNDROME, .KMC_ECCSTAT_VALID]⟩

theorem State.cutCopy_within (s : State) (i : Nat) : Within State.cutCopyWrites s (s.cutCopy i) := by
  unfold State.cutCopy
  split
  · exact (State.moveBytes_within ..).after ((State.burn_within ..).mono)
  · exact Within.refl _ _

/-- What `State.cutCopies` may write. -/
def State.cutCopiesWrites : Writes := ⟨[.fresh, .out, .regs, .sram, .ecc, .scrubs, .threads, .pba, .events, .traces,
  .totals], [.CMC_ECCADDR_OFFSET, .CMC_ECCCNT_CORR, .CMC_ECCCNT_UNCORR, .CMC_ECCSTAT_KIND, .CMC_ECCSTAT_MASTER,
  .CMC_ECCSTAT_OVERRUN, .CMC_ECCSTAT_SYNDROME, .CMC_ECCSTAT_VALID, .CSQ_TH_EXC_CODE, .CSQ_TH_EXC_OVERRUN, .CSQ_TH_EXC_PC,
  .CSQ_TH_EXC_VALID, .CSQ_TH_STAT_STATE, .CSQ_TH_STAT_WAITKIND, .KMC_ECCADDR_OFFSET, .KMC_ECCCNT_CORR,
  .KMC_ECCCNT_UNCORR, .KMC_ECCSTAT_KIND, .KMC_ECCSTAT_MASTER, .KMC_ECCSTAT_OVERRUN, .KMC_ECCSTAT_SYNDROME, .KMC_ECCSTAT_VALID]⟩

theorem State.cutCopies_within (s : State) (hit : Nat → Bool) : Within State.cutCopiesWrites s (s.cutCopies hit) := by
  unfold State.cutCopies
  refine Within.foldl _ (fun t x => ?_) _ _
  split
  · exact Within.ite _ ((State.seqHaltAt_within ..).after ((State.cutCopy_within ..).mono)) (Within.refl _ _)
  · exact Within.refl _ _

/-- What `State.threadStart` may write. -/
def State.threadStartWrites : Writes := ⟨[.regs, .threads, .traces], [.CSQ_TH_CNT_VALUE, .CSQ_TH_GREG_VALUE,
  .CSQ_TH_PRED_P, .CSQ_TH_RECCNT_COUNT, .CSQ_TH_STAT_PC, .CSQ_TH_STAT_STATE, .CSQ_TH_STAT_WAITKIND]⟩

theorem State.threadStart_within (s : State) (i : Nat) : Within State.threadStartWrites s (s.threadStart i) := by
  unfold State.threadStart
  extract_lets s1 _ s2 s3 _ s4
  have hs1 : Within State.threadStartWrites s s1 := Within.foldl _ (fun _ _ => (State.setF_within ..).after
    ((State.setGreg_within ..).mono)) _ _
  have hs2 : Within State.threadStartWrites s s2 := (State.setPc_within ..).after ((State.setF_within ..).after
    ((State.setF_within ..).after hs1))
  have hs3 : Within State.threadStartWrites s s3 := (State.setF_within ..).after ((State.setF_within ..).after hs2)
  have hs4 : Within State.threadStartWrites s s4 := (State.setThread_within ..).after hs3
  exact (State.traceTh_within ..).after hs4

/-- What `State.threadStopNow` may write. -/
def State.threadStopNowWrites : Writes := ⟨[.fresh, .out, .regs, .sram, .ecc, .stations, .scrubs, .threads, .groups,
  .snaps, .pba, .events, .traces, .totals], [.CMC_ECCADDR_OFFSET, .CMC_ECCCNT_CORR, .CMC_ECCCNT_UNCORR,
  .CMC_ECCSTAT_KIND, .CMC_ECCSTAT_MASTER, .CMC_ECCSTAT_OVERRUN, .CMC_ECCSTAT_SYNDROME, .CMC_ECCSTAT_VALID,
  .CSQ_TH_PRED_P, .CSQ_TH_STAT_STATE, .CSQ_TH_STAT_WAITKIND, .KMC_ECCADDR_OFFSET, .KMC_ECCCNT_CORR, .KMC_ECCCNT_UNCORR,
  .KMC_ECCSTAT_KIND, .KMC_ECCSTAT_MASTER, .KMC_ECCSTAT_OVERRUN, .KMC_ECCSTAT_SYNDROME, .KMC_ECCSTAT_VALID]⟩

theorem State.threadStopNow_within (s : State) (i : Nat) : Within State.threadStopNowWrites s (s.threadStopNow i) := by
  unfold State.threadStopNow
  extract_lets s1 _ s2
  have hs1 : Within State.threadStopNowWrites s s1 := (State.setF_within ..).after ((State.setF_within ..).after
    ((State.cutCopy_within ..).mono))
  have hs2 : Within State.threadStopNowWrites s s2 := (State.setThread_within ..).after hs1
  exact (State.traceTh_within ..).after ((State.abandonWaits_within ..).after hs2)

/-- What `State.revokeFires` may write. -/
def State.revokeFiresWrites : Writes := ⟨[.out, .regs, .stations, .threads, .flights, .pba, .events, .traces, .totals],
  [.CSQ_TH_EXC_CODE, .CSQ_TH_EXC_OVERRUN, .CSQ_TH_EXC_PC, .CSQ_TH_EXC_VALID, .CSQ_TH_PRED_P, .CSQ_TH_RECCNT_COUNT,
  .CSQ_TH_STAT_PC, .CSQ_TH_STAT_STATE, .CSQ_TH_STAT_WAITKIND]⟩

theorem State.revokeFires_within (s : State) (st : Nat) : Within State.revokeFiresWrites s (s.revokeFires st) := by
  unfold State.revokeFires
  extract_lets _
  refine Within.trans ((Within.update [.flights] rfl).mono) (Within.foldl _ (fun t x => ?_) _ _)
  extract_lets _ _ _ t1
  have ht1 : Within State.revokeFiresWrites t t1 := (State.setThread_within ..).after ((State.setStation_within ..).mono)
  refine Within.ite _ ht1 ?_
  refine Within.ite _ ?_ ?_
  · exact (State.setPc_within ..).after ((State.seqHaltAt_within ..).after ht1)
  · exact (State.seqRecoverAt_within ..).after ht1

/-- What `State.park` may write. -/
def State.parkWrites : Writes := ⟨[.out, .regs, .stations, .threads, .flights, .pba, .events, .traces, .totals],
  [.CSQ_TH_EXC_CODE, .CSQ_TH_EXC_OVERRUN, .CSQ_TH_EXC_PC, .CSQ_TH_EXC_VALID, .CSQ_TH_PRED_P, .CSQ_TH_RECCNT_COUNT,
  .CSQ_TH_STAT_PC, .CSQ_TH_STAT_STATE, .CSQ_TH_STAT_WAITKIND]⟩

theorem State.park_within (s : State) (st : Nat) (h : Hold) : Within State.parkWrites s (s.park st h) := by
  unfold State.park
  extract_lets _ s1 _ _
  have hs1 : Within State.parkWrites s s1 := Within.ite _ (Within.refl _ _) ((State.revokeFires_within ..).mono)
  exact Within.ite _ hs1 ((State.setStation_within ..).after hs1)

theorem State.unpark_within (s : State) (st : Nat) (h : Hold) : Within ⟨[.stations], []⟩ s (s.unpark st h) := by
  unfold State.unpark
  extract_lets _ _
  exact Within.ite _ (Within.refl _ _) ((State.setStation_within ..).mono)

theorem State.sendBcast_within (s : State) (g m : Nat) (v : Word) : Within ⟨[.out, .links], []⟩ s (s.sendBcast g m v) := by
  unfold State.sendBcast
  extract_lets _ _ _
  exact Within.ite _ (Within.foldl _ (fun _ _ => (State.sendTo_within ..).mono) _ _) (Within.refl _ _)

theorem State.askToken_within (s : State) (pe : Nat) : Within ⟨[.tokenWait], []⟩ s (s.askToken pe) :=
  Within.ite _ (Within.refl _ _) ((Within.update [.tokenWait] rfl).mono)

theorem State.freeToken_within (s : State) (pe : Nat) : Within ⟨[.tokenHeld, .tokenWait], []⟩ s (s.freeToken pe) := by
  unfold State.freeToken
  extract_lets _ s1
  have hs1 : Within ⟨[.tokenHeld, .tokenWait], []⟩ s s1 := (Within.update [.tokenHeld] rfl).mono
  exact Within.ite _ ((State.askToken_within ..).after hs1) (Within.after (Within.update [.tokenWait] rfl) hs1)

theorem State.beaverBegin_within (s : State) (b : Nat) (x : Beaver) :
    Within ⟨[.tokenWait, .beavers], []⟩ s (s.beaverBegin b x) :=
  Within.trans ((State.setBeaver_within ..).mono) (Within.foldl _ (fun _ _ => (State.askToken_within ..).mono) _ _)

theorem State.beaverStop_within (s : State) (b : Nat) : Within ⟨[.tokenHeld, .tokenWait, .beavers], []⟩ s (s.beaverStop b) := by
  unfold State.beaverStop
  split
  · exact Within.trans ((State.setBeaver_within ..).mono) (Within.foldl _ (fun _ _ => (State.freeToken_within ..).mono) _ _)
  · exact Within.refl _ _

theorem State.opDone_within (s : State) (pe : Nat) : Within ⟨[.engines], []⟩ s (s.opDone pe) :=
  (State.setEngine_within ..).mono

/-- What `State.trackerStart` may write. -/
def State.trackerStartWrites : Writes := ⟨[.regs, .trackers], [.ME_DTGAIN_GAIN, .ME_DTGAIN_PROV, .ME_DTOFS_OFFSET]⟩

theorem State.trackerStart_within (s : State) (pe r : Nat) : Within State.trackerStartWrites s (s.trackerStart pe r) := by
  unfold State.trackerStart
  extract_lets _ _ _ _ _ s1 s2 _
  have hs1 : Within State.trackerStartWrites s s1 := (State.setF_within ..).after ((State.setF_within ..).mono)
  have hs2 : Within State.trackerStartWrites s s2 := (State.setF_within ..).after hs1
  exact (State.setTracker_within ..).after hs2

theorem State.unclean_within (s : State) : Within ⟨[.regs, .shutRec], [.GCTL_PWRST_CLEAN]⟩ s (s.unclean) := by
  unfold State.unclean
  extract_lets src
  have hsrc : Within ⟨[.regs, .shutRec], [.GCTL_PWRST_CLEAN]⟩ s src := (State.setF_within ..).mono
  exact Within.after (Within.update [.shutRec] rfl) hsrc

/-- What `State.activate` may write. -/
def State.activateWrites : Writes := ⟨[.regs, .trackers], [.ME_DTGAIN_GAIN, .ME_DTGAIN_PROV, .ME_DTOFS_OFFSET]⟩

theorem State.activate_within (s old : State) : Within State.activateWrites s (s.activate old) :=
  Within.foldl _ (fun _ _ => (State.trackerStart_within ..).mono) _ _

/-- What `State.suspectShard` may write. -/
def State.suspectShardWrites : Writes := ⟨[.out, .regs, .stations, .threads, .flights, .shards, .fns, .pba, .events,
  .traces, .totals], [.CSQ_TH_EXC_CODE, .CSQ_TH_EXC_OVERRUN, .CSQ_TH_EXC_PC, .CSQ_TH_EXC_VALID, .CSQ_TH_PRED_P,
  .CSQ_TH_RECCNT_COUNT, .CSQ_TH_STAT_PC, .CSQ_TH_STAT_STATE, .CSQ_TH_STAT_WAITKIND, .SVC_DATA_WORD, .SVC_STAT_FULL,
  .SVC_STAT_LOST, .WLD_MISMATCH_COUNT]⟩

theorem State.suspectShard_within (s : State) (n : Nat) : Within State.suspectShardWrites s (s.suspectShard n) := by
  unfold State.suspectShard
  extract_lets _ s1 s2 s3 _ s4 s5
  have hs1 : Within State.suspectShardWrites s s1 := (State.setShard_within ..).mono
  have hs2 : Within State.suspectShardWrites s s2 := Within.trans hs1 (Within.foldl _ (fun _ _ =>
    (State.park_within ..).mono) _ _)
  have hs3 : Within State.suspectShardWrites s s3 := (State.addHold_within ..).after hs2
  have hs4 : Within State.suspectShardWrites s s4 := (State.service_within ..).after hs3
  have hs5 : Within State.suspectShardWrites s s5 := Within.ite _ hs4 ((State.service_within ..).after hs4)
  exact (State.raise_within ..).after hs5

/-- What `State.queueCal` may write. -/
def State.queueCalWrites : Writes := ⟨[.regs, .passes, .dac], [.ME_CALSTAT_STATE]⟩

theorem State.queueCal_within (s : State) (c : Nat) (r : CalPass) : Within State.queueCalWrites s (s.queueCal c r) := by
  unfold State.queueCal
  extract_lets _ _ _ _ _ _ _ _ s1 _ s2 _
  have hs1 : Within State.queueCalWrites s s1 := (State.setPassQ_within ..).mono
  have hs2 : Within State.queueCalWrites s s2 := Within.trans hs1 (Within.foldl _ (fun _ _ => Within.ite _
    (Within.refl _ _) ((State.setF_within ..).mono)) _ _)
  exact Within.ite _ hs2 (Within.after (Within.update [.dac] rfl) hs2)

theorem State.sweepBegin_within (s : State) (c : Nat) (p : CalPass) :
    Within ⟨[.regs, .passes], [.SDAC_CTL_MODE]⟩ s (s.sweepBegin c p) := by
  unfold State.sweepBegin
  extract_lets _
  exact (State.setF_within ..).after ((State.setPass_within ..).mono)

/-- What `State.passBegin` may write. -/
def State.passBeginWrites : Writes := ⟨[.regs, .passes], [.ME_CALSTAT_RETRIES, .ME_CALSTAT_STATE, .SDAC_CTL_MODE]⟩

theorem State.passBegin_within (s : State) (c : Nat) : Within State.passBeginWrites s (s.passBegin c) := by
  unfold State.passBegin
  extract_lets _ _ _ _ s1
  have hs1 : Within State.passBeginWrites s s1 := Within.foldl _ (fun _ _ => (State.setF_within ..).after
    ((State.setF_within ..).mono)) _ _
  exact (State.sweepBegin_within ..).after hs1

/-- What `State.passStep` may write. -/
def State.passStepWrites : Writes := ⟨[.regs, .passes, .dac], [.ME_CALSTAT_RETRIES, .ME_CALSTAT_STATE, .SDAC_CTL_MODE,
  .SDAC_CTL_SPAN]⟩

theorem State.passStep_within (s : State) (c n : Nat) : Within State.passStepWrites s (s.passStep c n) := by
  induction n generalizing s with
  | zero => exact Within.refl _ _
  | succ n ih =>
    unfold State.passStep
    extract_lets p u q
    have hu : Within State.passStepWrites s u := (State.setPassQ_within ..).mono
    have hdac (d : Dac) : Within State.passStepWrites s { u.setF .SDAC_CTL_SPAN 0 0 with dac := d } :=
      Within.after (Within.update [.dac] rfl) ((State.setF_within ..).after hu)
    refine Within.ite _ (Within.refl _ _) (Within.ite _ ((State.sweepBegin_within ..).mono) (Within.ite _ ?_ ?_))
    · exact (ih _).after ((State.passBegin_within ..).after ((State.setPass_within ..).mono))
    · exact hdac _

/-- What `State.dacPassage` may write. -/
def State.dacPassageWrites : Writes := ⟨[.regs, .dac], [.SDAC_CTL_ROUTE, .SDAC_CTL_SPAN, .SDAC_STAT_PASSAGE]⟩

theorem State.dacPassage_within (s : State) (span route : Nat) : Within State.dacPassageWrites s (s.dacPassage span route) := by
  unfold State.dacPassage
  extract_lets _ s1 src _
  have hs1 : Within State.dacPassageWrites s s1 := (State.setF_within ..).after ((State.setF_within ..).mono)
  have hsrc : Within State.dacPassageWrites s src := (State.setF_within ..).after hs1
  exact Within.after (Within.update [.dac] rfl) hsrc

/-- What `State.bandPass` may write. -/
def State.bandPassWrites : Writes := ⟨[.regs, .passes, .dac], [.ME_CALSTAT_RETRIES, .ME_CALSTAT_STATE, .SDAC_CTL_MODE,
  .SDAC_CTL_SPAN]⟩

theorem State.bandPass_within (s : State) (c : Nat) : Within State.bandPassWrites s (s.bandPass c) := by
  unfold State.bandPass
  extract_lets _ _ _
  refine Within.ite _ ?_ ?_
  · exact (State.passStep_within ..).after ((State.passBegin_within ..).after ((State.setPass_within ..).mono))
  · exact Within.ite _ ((State.setPassQ_within ..).mono) ((State.queueCal_within ..).mono)

theorem State.mbxStore_within (s : State) (ch : Nat) (ws : List Nat) :
    Within ⟨[.regs], [.MBX_CH_DATA_WORD]⟩ s (s.mbxStore ch ws) :=
  Within.foldl _ (fun _ _ => (State.setF_within ..).mono) _ _

theorem State.sendPeer_within (s : State) (p type : Nat) (payload : List Byte) :
    Within ⟨[.out, .links], []⟩ s (s.sendPeer p type payload) :=
  Within.ite _ ((State.sendFrame_within ..).mono) (Within.refl _ _)

/-- What `State.mbxWake` may write. -/
def State.mbxWakeWrites : Writes := ⟨[.out, .pba, .links, .wakes], []⟩

theorem State.mbxWake_within (s : State) (ch : Nat) : Within State.mbxWakeWrites s (s.mbxWake ch) := by
  unfold State.mbxWake
  extract_lets _
  refine Within.ite _ (Within.ite _ ((State.msix_within ..).mono) ((Within.update [.wakes] rfl).mono)) ?_
  refine Within.ite _ ?_ ?_
  · exact Within.ite _ ((State.sendPeer_within ..).mono) ((Within.update [.wakes] rfl).mono)
  · exact (State.emit_within ..).mono

/-- What `State.deliverWakes` may write. -/
def State.deliverWakesWrites : Writes := ⟨[.out, .pba, .links, .wakes], []⟩

theorem State.deliverWakes_within (s : State) (ready gone : Nat → Bool) :
    Within State.deliverWakesWrites s (s.deliverWakes ready gone) := by
  unfold State.deliverWakes
  extract_lets t
  have ht : Within State.deliverWakesWrites s t := (Within.update [.wakes] rfl).mono
  exact Within.trans ht (Within.foldl _ (fun _ _ => (State.mbxWake_within ..).mono) _ _)

theorem State.setChan_within (s : State) (ch : Nat) (x : Channel) : Within ⟨[.channels], []⟩ s (s.setChan ch x) :=
  (Within.update [.channels] rfl).mono

/-- What `State.mbxAccept` may write. -/
def State.mbxAcceptWrites : Writes := ⟨[.out, .regs, .pba, .channels, .links, .wakes], [.MBX_CH_DATA_WORD,
  .MBX_CH_STAT_DISCARD, .MBX_CH_STAT_FULL, .MBX_CH_STAT_NWORDS, .MBX_CH_STAT_POSTS, .MBX_CH_STAT_TMO]⟩

theorem State.mbxAccept_within (s : State) (ch : Nat) (ws : List Nat) : Within State.mbxAcceptWrites s (s.mbxAccept ch ws) := by
  unfold State.mbxAccept
  extract_lets _ s1 s2 s3
  have hs1 : Within State.mbxAcceptWrites s s1 := (State.setChan_within ..).mono
  have hs2 : Within State.mbxAcceptWrites s s2 := (State.mbxStore_within ..).after hs1
  have hs3 : Within State.mbxAcceptWrites s s3 := (State.addWrap_within ..).after ((State.setF_within ..).after
    ((State.setF_within ..).after ((State.setF_within ..).after ((State.setF_within ..).after hs2))))
  exact (State.mbxWake_within ..).after hs3

theorem State.mbxTell_within (s : State) (ch : Nat) : Within ⟨[.out, .pba], []⟩ s (s.mbxTell ch) :=
  Within.ite _ ((State.msix_within ..).mono) (Within.ite _ ((State.emit_within ..).mono) (Within.refl _ _))

/-- What `State.mbxClear` may write. -/
def State.mbxClearWrites : Writes := ⟨[.regs, .wakes], [.MBX_CH_DATA_WORD, .MBX_CH_STAT_DISCARD, .MBX_CH_STAT_FULL]⟩

theorem State.mbxClear_within (s : State) (ch : Nat) (discard : Bool) :
    Within State.mbxClearWrites s (s.mbxClear ch discard) := by
  unfold State.mbxClear
  extract_lets s1 s2
  have hs1 : Within State.mbxClearWrites s s1 := (State.mbxStore_within ..).mono
  have hs2 : Within State.mbxClearWrites s s2 := (State.setB_within ..).after ((State.setF_within ..).after hs1)
  exact Within.after (Within.update [.wakes] rfl) hs2

/-- What `State.mbxEmpty` may write. -/
def State.mbxEmptyWrites : Writes := ⟨[.out, .regs, .pba, .wakes], [.MBX_CH_DATA_WORD, .MBX_CH_STAT_DISCARD, .MBX_CH_STAT_FULL]⟩

theorem State.mbxEmpty_within (s : State) (ch : Nat) (discard : Bool) : Within State.mbxEmptyWrites s (s.mbxEmpty ch discard) :=
  (State.mbxTell_within ..).after ((State.mbxClear_within ..).mono)

theorem State.mbxAckPeer_within (s : State) (ch : Nat) (discard : Bool) :
    Within ⟨[.out, .links], []⟩ s (s.mbxAckPeer ch discard) := by
  unfold State.mbxAckPeer
  extract_lets _
  exact Within.ite _ ((State.sendPeer_within ..).mono) (Within.refl _ _)

/-- What `State.mbxReset` may write. -/
def State.mbxResetWrites : Writes := ⟨[.out, .regs, .pba, .links, .wakes], [.MBX_CH_DATA_WORD, .MBX_CH_STAT_DISCARD,
  .MBX_CH_STAT_FULL, .MBX_CH_STAT_TMO]⟩

theorem State.mbxReset_within (s : State) (m : Nat) : Within State.mbxResetWrites s (s.mbxReset m) := by
  unfold State.mbxReset
  refine Within.foldl _ (fun t x => ?_) _ _
  refine Within.ite _ (Within.refl _ _) ?_
  refine Within.ite _ ?_ ?_
  · exact (State.mbxEmpty_within ..).after ((State.mbxAckPeer_within ..).mono)
  · exact Within.ite _ ((State.setF_within ..).mono) (Within.refl _ _)

theorem State.deliver_within (v : Word) (s : State) (i : Nat) :
    Within ⟨[.regs], [.CSQ_TH_GREG_VALUE]⟩ s (State.deliver v s i) := by
  unfold State.deliver
  split
  · exact (State.setGreg_within ..).mono
  · exact Within.refl _ _

/-- What `State.snapCopy` may write. -/
def State.snapCopyWrites : Writes := ⟨[.out, .regs, .sram, .ecc, .scrubs, .pba, .events, .traces, .totals],
  [.CMC_ECCADDR_OFFSET, .CMC_ECCCNT_CORR, .CMC_ECCCNT_UNCORR, .CMC_ECCSTAT_KIND, .CMC_ECCSTAT_MASTER,
  .CMC_ECCSTAT_OVERRUN, .CMC_ECCSTAT_SYNDROME, .CMC_ECCSTAT_VALID, .KMC_ECCADDR_OFFSET, .KMC_ECCCNT_CORR,
  .KMC_ECCCNT_UNCORR, .KMC_ECCSTAT_KIND, .KMC_ECCSTAT_MASTER, .KMC_ECCSTAT_OVERRUN, .KMC_ECCSTAT_SYNDROME, .KMC_ECCSTAT_VALID]⟩

theorem State.snapCopy_within (s : State) (i : Nat) (d : SnapSet) : Within State.snapCopyWrites s (s.snapCopy i d) :=
  Within.foldl _ (fun _ _ => Within.ite _ ((State.moveBytes_within ..).mono) (Within.refl _ _)) _ _

/-- What `State.owlRelearn` may write. -/
def State.owlRelearnWrites : Writes := ⟨[.regs, .owls], [.OWL_SSTAT_STATE, .OWL_SSTAT_WARM]⟩

theorem State.owlRelearn_within (s : State) (i : Nat) : Within State.owlRelearnWrites s (s.owlRelearn i) := by
  unfold State.owlRelearn
  extract_lets _ _ _
  refine Within.ite _ ?_ ?_
  · exact (State.setF_within ..).after ((State.setF_within ..).after ((State.setOwl_within ..).mono))
  · exact Within.refl _ _

/-- What `State.owlReport` may write. -/
def State.owlReportWrites : Writes := ⟨[.regs], [.OWL_SMAX_VALUE, .OWL_SMEAN_VALUE, .OWL_SMIN_VALUE, .OWL_SSTAT_ALARM,
  .OWL_SSTAT_EMPTY, .OWL_SSTAT_HARD, .OWL_SSTAT_SATN, .OWL_SVAR_VALUE]⟩

theorem State.owlReport_within (s : State) (i : Nat) (o : Owl) (alarm : Nat) (hard : Bool) :
    Within State.owlReportWrites s (s.owlReport i o alarm hard) := by
  unfold State.owlReport
  extract_lets _ s1 s2
  have hs1 : Within State.owlReportWrites s s1 := (State.setF_within ..).after ((State.setF_within ..).after
    ((State.setF_within ..).mono))
  have hs2 : Within State.owlReportWrites s s2 := (State.setB_within ..).after ((State.setF_within ..).after hs1)
  exact (State.setF_within ..).after ((State.setB_within ..).after ((State.setF_within ..).after hs2))

/-- What `State.owlAlarm` may write. -/
def State.owlAlarmWrites : Writes := ⟨[.out, .regs, .pba, .events, .traces, .totals], [.OWL_SALMCNT_COUNT]⟩

theorem State.owlAlarm_within (s : State) (i : Nat) : Within State.owlAlarmWrites s (s.owlAlarm i) := by
  unfold State.owlAlarm
  extract_lets _ _
  exact (State.raise_within ..).after ((State.total_within ..).after ((State.addHold_within ..).mono))

/-- What `State.owlClose` may write. -/
def State.owlCloseWrites : Writes := ⟨[.out, .regs, .owls, .pba, .events, .traces, .totals], [.OWL_SALMCNT_COUNT,
  .OWL_SMAX_VALUE, .OWL_SMEAN_VALUE, .OWL_SMIN_VALUE, .OWL_SSTAT_ALARM, .OWL_SSTAT_EMPTY, .OWL_SSTAT_HARD,
  .OWL_SSTAT_SATN, .OWL_SSTAT_STATE, .OWL_SSTAT_WARM, .OWL_SVAR_VALUE]⟩

theorem State.owlClose_within (s : State) (i : Nat) : Within State.owlCloseWrites s (s.owlClose i) := by
  unfold State.owlClose
  extract_lets _ _ _ _ _ s1 _ s2
  have hs1 : Within State.owlCloseWrites s s1 := (State.owlReport_within ..).mono
  have hs2 : Within State.owlCloseWrites s s2 := by
    unfold s2
    refine Within.ite _ ?_ ?_
    · exact (State.setOwl_within ..).after hs1
    · exact (State.setF_within ..).after ((State.setF_within ..).after ((State.setOwl_within ..).after hs1))
  exact Within.ite _ ((State.owlAlarm_within ..).after hs2) hs2

/-- What `State.owlTake` may write. -/
def State.owlTakeWrites : Writes := ⟨[.out, .regs, .owls, .pba, .events, .traces, .totals], [.OWL_SALMCNT_COUNT,
  .OWL_SMAX_VALUE, .OWL_SMEAN_VALUE, .OWL_SMIN_VALUE, .OWL_SSTAT_ALARM, .OWL_SSTAT_EMPTY, .OWL_SSTAT_HARD,
  .OWL_SSTAT_SATN, .OWL_SSTAT_STATE, .OWL_SSTAT_WARM, .OWL_SVAR_VALUE]⟩

theorem State.owlTake_within (s : State) (i : Nat) (vs : List Int) (sat : Bool) :
    Within State.owlTakeWrites s (s.owlTake i vs sat) := by
  unfold State.owlTake
  extract_lets s1
  have hs1 : Within State.owlTakeWrites s s1 := Within.ite _ ((State.owlClose_within ..).mono) (Within.refl _ _)
  exact (State.setOwl_within ..).after hs1

theorem State.emptySlot_within (s : State) (r : SlotRef) :
    Within ⟨[.regs], [.CMC_SLOT_STATE, .KMC_SLOT_STATE]⟩ s (s.emptySlot r) :=
  (State.setSlot_within ..).mono

/-- What `State.tornTaken` may write. -/
def State.tornTakenWrites : Writes := ⟨[.out, .regs, .pba, .events, .traces, .totals], [.CMC_SLOT_TORN, .KMC_SLOT_TORN,
  .KMC_STN_LATECNT_COUNT, .KMC_STN_POISCNT_COUNT, .KMC_STN_SATCNT_COUNT, .KMC_STN_TORNCNT_COUNT, .KMC_STN_UNMATCH_COUNT]⟩

theorem State.tornTaken_within (s : State) (st : Nat) (r : SlotRef) : Within State.tornTakenWrites s (s.tornTaken st r) := by
  unfold State.tornTaken
  extract_lets _
  exact (State.raise_within ..).after ((State.count_within ..).after ((State.setTorn_within ..).mono))

/-- What `State.fillSlot` may write. -/
def State.fillSlotWrites : Writes := ⟨[.out, .regs, .rings, .pba, .events, .traces, .totals], [.CMC_SLOT_STATE,
  .CMC_SLOT_TORN, .KMC_SLOT_STATE, .KMC_SLOT_TORN, .KMC_STN_LATECNT_COUNT, .KMC_STN_POISCNT_COUNT, .KMC_STN_SATCNT_COUNT,
  .KMC_STN_TORNCNT_COUNT, .KMC_STN_UNMATCH_COUNT]⟩

theorem State.fillSlot_within (s : State) (r : SlotRef) : Within State.fillSlotWrites s (s.fillSlot r) := by
  unfold State.fillSlot
  split
  · extract_lets _ s1
    have hs1 : Within State.fillSlotWrites s s1 := (State.setRing_within ..).mono
    refine Within.ite _ ?_ ?_
    · exact (State.setSlot_within ..).after (Within.ite _ ((State.tornTaken_within ..).after hs1) hs1)
    · exact (State.setSlot_within ..).mono
  · exact (State.setSlot_within ..).mono

/-- What `State.tear` may write. -/
def State.tearWrites : Writes := ⟨[.fresh, .out, .regs, .sram, .ecc, .rings, .pba, .events, .traces, .totals],
  [.CMC_SLOT_STATE, .CMC_SLOT_TORN, .KMC_SLOT_STATE, .KMC_SLOT_TORN, .KMC_STN_LATECNT_COUNT, .KMC_STN_POISCNT_COUNT,
  .KMC_STN_SATCNT_COUNT, .KMC_STN_TORNCNT_COUNT, .KMC_STN_UNMATCH_COUNT]⟩

theorem State.tear_within (s : State) (r : SlotRef) : Within State.tearWrites s (s.tear r) := by
  unfold State.tear
  extract_lets _
  exact (State.fillSlot_within ..).after ((State.setTorn_within ..).after ((State.store_within ..).after
    ((State.burn_within ..).mono)))

/-- What `State.skipPart` may write. -/
def State.skipPartWrites : Writes := ⟨[.out, .regs, .rings, .pba, .events, .traces, .totals], [.CMC_SLOT_STATE,
  .CMC_SLOT_TORN, .KMC_SLOT_STATE, .KMC_SLOT_TORN, .KMC_STN_LATECNT_COUNT, .KMC_STN_POISCNT_COUNT, .KMC_STN_SATCNT_COUNT,
  .KMC_STN_TORNCNT_COUNT, .KMC_STN_UNMATCH_COUNT]⟩

theorem State.skipPart_within (s : State) (h : SlotRef) : Within State.skipPartWrites s (s.skipPart h) := by
  unfold State.skipPart
  extract_lets _ _ s1 _
  have hs1 : Within State.skipPartWrites s s1 := (State.stepRd_within ..).mono
  refine Within.ite _ ?_ ?_
  · exact (State.setSlot_within ..).after (Within.ite _ ((State.tornTaken_within ..).after hs1) hs1)
  · exact (State.setRing_within ..).after hs1

theorem State.tmvQueue_within (s : State) (r : SlotRef) : Within ⟨[.tmvs], []⟩ s (s.tmvQueue r) := by
  unfold State.tmvQueue
  extract_lets _
  split
  · split
    · exact (State.setTmv_within ..).mono
    · exact Within.refl _ _
  · exact Within.refl _ _

/-- What `State.foreignCapture` may write. -/
def State.foreignCaptureWrites : Writes := ⟨[.fresh, .regs], [.CMC_ECCADDR_OFFSET, .CMC_ECCSTAT_KIND,
  .CMC_ECCSTAT_MASTER, .CMC_ECCSTAT_OVERRUN, .CMC_ECCSTAT_SYNDROME, .CMC_ECCSTAT_VALID, .KMC_ECCADDR_OFFSET,
  .KMC_ECCSTAT_KIND, .KMC_ECCSTAT_MASTER, .KMC_ECCSTAT_OVERRUN, .KMC_ECCSTAT_SYNDROME, .KMC_ECCSTAT_VALID]⟩

theorem State.foreignCapture_within (s : State) (owner a : Nat) :
    Within State.foreignCaptureWrites s (s.foreignCapture owner a) :=
  (State.burn_within ..).after ((State.eccCapture_within ..).mono)

theorem State.setResult_within (s : State) (n : Nat) (ws : List Nat) :
    Within ⟨[.regs], [.OBS_TW_R_VALUE]⟩ s (s.setResult n ws) :=
  Within.foldl _ (fun _ _ => (State.setF_within ..).mono) _ _

/-- What `State.closePoint` may write. -/
def State.closePointWrites : Writes := ⟨[.fresh, .regs, .points], [.OBS_TW_FLAGT_PROV, .OBS_TW_FLAGT_SAT,
  .OBS_TW_FSEQ_VALUE, .OBS_TW_LSEQ_VALUE, .OBS_TW_R_VALUE, .OBS_TW_STAT_CLOSED, .OBS_TW_STAT_INCOMPLETE, .OBS_TW_STAT_MIXED]⟩

theorem State.closePoint_within (s : State) (n : Nat) : Within State.closePointWrites s (s.closePoint n) := by
  unfold State.closePoint
  extract_lets _ _ s1 s2 s3 s4 _ src
  have hs1 : Within State.closePointWrites s s1 := (State.setResult_within ..).mono
  have hs2 : Within State.closePointWrites s s2 := (State.setF_within ..).after ((State.setF_within ..).after
    ((State.setF_within ..).after hs1))
  have hs3 : Within State.closePointWrites s s3 := (State.setB_within ..).after ((State.setB_within ..).after
    ((State.setF_within ..).after hs2))
  have hs4 : Within State.closePointWrites s s4 := (State.addWrap_within ..).after hs3
  have hsrc : Within State.closePointWrites s src := (State.setPoint_within ..).after hs4
  exact Within.after (Within.update [.fresh] rfl) hsrc

/-- What `State.pointsTake` may write. -/
def State.pointsTakeWrites : Writes := ⟨[.fresh, .regs, .points], [.OBS_TW_FLAGT_PROV, .OBS_TW_FLAGT_SAT,
  .OBS_TW_FSEQ_VALUE, .OBS_TW_LSEQ_VALUE, .OBS_TW_R_VALUE, .OBS_TW_STAT_CLOSED, .OBS_TW_STAT_INCOMPLETE, .OBS_TW_STAT_MIXED]⟩

theorem State.pointsTake_within (s : State) (st : Nat) (exp : Int) (r : SlotRef) :
    Within State.pointsTakeWrites s (s.pointsTake st exp r) := by
  unfold State.pointsTake
  refine Within.foldl _ (fun t x => ?_) _ _
  extract_lets t1
  have ht1 : Within State.pointsTakeWrites t t1 := Within.ite _ ((State.closePoint_within ..).mono) (Within.refl _ _)
  exact (State.setPoint_within ..).after ht1

theorem State.setOutMark_within (s : State) (n : Nat) (x : OutMark) : Within ⟨[.outMarks], []⟩ s (s.setOutMark n x) :=
  (Within.update [.outMarks] rfl).mono

theorem State.setWRule_within (s : State) (r : Nat) (x : WRule) : Within ⟨[.wrules], []⟩ s (s.setWRule r x) :=
  (Within.update [.wrules] rfl).mono

theorem State.outFollow_within (s t : State) : Within ⟨[.regs, .outMarks], [.WIO_WOUTSTAT_PIN]⟩ s (s.outFollow t) :=
  Within.foldl _ (fun _ _ => Within.ite _ ((State.setOutMark_within ..).after ((State.setB_within ..).mono))
    (Within.refl _ _)) _ _

/-- What `State.clearJudged` may write. -/
def State.clearJudgedWrites : Writes := ⟨[.regs, .outMarks], [.WIO_WOUTSTAT_EXTLOW, .WIO_WOUTSTAT_FAULT,
  .WIO_WOUTSTAT_HELD, .WIO_WOUTSTAT_PIN]⟩

theorem State.clearJudged_within (s t : State) : Within State.clearJudgedWrites s (s.clearJudged t) := by
  unfold State.clearJudged
  refine Within.foldl _ (fun t x => ?_) _ _
  split
  · extract_lets v _ v1
    have hv : Within State.clearJudgedWrites t v := (State.setB_within ..).after ((State.setB_within ..).after
      ((State.setF_within ..).mono))
    have hv1 : Within State.clearJudgedWrites t v1 := (State.setOutMark_within ..).after hv
    exact Within.ite _ (Within.ite _ ((State.setF_within ..).after hv1) hv1) (Within.refl _ _)
  · exact Within.refl _ _

/-- What `State.wioSettle` may write. -/
def State.wioSettleWrites : Writes := ⟨[.regs, .outMarks], [.WIO_WOUTSTAT_EXTLOW, .WIO_WOUTSTAT_FAULT,
  .WIO_WOUTSTAT_HELD, .WIO_WOUTSTAT_PIN]⟩

theorem State.wioSettle_within (s t : State) : Within State.wioSettleWrites s (s.wioSettle t) := by
  unfold State.wioSettle
  extract_lets u
  have hu : Within State.wioSettleWrites s u := (State.outFollow_within ..).mono
  exact (State.outFollow_within ..).after ((State.clearJudged_within ..).after hu)

/-- What `State.ruleFree` may write. -/
def State.ruleFreeWrites : Writes := ⟨[.regs, .wrules, .heldRules, .outMarks], [.WIO_WOUTSTAT_EXTLOW,
  .WIO_WOUTSTAT_FAULT, .WIO_WOUTSTAT_HELD, .WIO_WOUTSTAT_PIN]⟩

theorem State.ruleFree_within (s : State) (r : Nat) : Within State.ruleFreeWrites s (s.ruleFree r) := by
  unfold State.ruleFree
  extract_lets _ _
  exact (State.wioSettle_within ..).after ((State.setWRule_within ..).after ((Within.update [.heldRules] rfl).mono))

/-- What `State.ruleCut` may write. -/
def State.ruleCutWrites : Writes := ⟨[.regs, .wrules, .heldRules, .outMarks], [.WIO_WOUTSTAT_EXTLOW, .WIO_WOUTSTAT_FAULT,
  .WIO_WOUTSTAT_HELD, .WIO_WOUTSTAT_PIN]⟩

theorem State.ruleCut_within (s : State) (owner outs : Nat) : Within State.ruleCutWrites s (s.ruleCut owner outs) := by
  unfold State.ruleCut
  extract_lets t _
  have ht : Within State.ruleCutWrites s t := Within.foldl _ (fun _ _ => (State.setWRule_within ..).mono) _ _
  exact (State.wioSettle_within ..).after (Within.after (Within.update [.heldRules] rfl) ht)

/-- What `State.mergeAlign` may write. -/
def State.mergeAlignWrites : Writes := ⟨[.regs, .totals, .rings], [.KMC_STN_LATECNT_COUNT, .KMC_STN_POISCNT_COUNT,
  .KMC_STN_SATCNT_COUNT, .KMC_STN_TORNCNT_COUNT, .KMC_STN_UNMATCH_COUNT, .CMC_SLOT_STATE, .KMC_SLOT_STATE]⟩

/-- A step of the alignment of a merge discards one tile that is late. -/
theorem State.mergeStep_within {s t : State} {st : Nat} {rings : List SlotRef} (h : s.mergeStep st rings = some t) :
    Within State.mergeAlignWrites s t := by
  obtain ⟨_, _, rfl⟩ := Option.map_eq_some_iff.mp h
  exact (State.count_within ..).after ((State.stepRd_within ..).after ((State.emptySlot_within ..).mono))

theorem State.mergeAlign_within (s : State) (st : Nat) (rings : List SlotRef) (n : Nat) :
    Within State.mergeAlignWrites s (s.mergeAlign st rings n) := by
  induction n generalizing s with
  | zero => exact Within.refl _ _
  | succ n ih =>
    unfold State.mergeAlign
    split
    next t ht => exact (State.mergeStep_within ht).trans (ih t)
    next => exact Within.refl _ _

/-- What `State.alignMerges` may write. -/
def State.alignMergesWrites : Writes := ⟨[.regs, .rings, .totals], [.CMC_SLOT_STATE, .KMC_SLOT_STATE,
  .KMC_STN_LATECNT_COUNT, .KMC_STN_POISCNT_COUNT, .KMC_STN_SATCNT_COUNT, .KMC_STN_TORNCNT_COUNT, .KMC_STN_UNMATCH_COUNT]⟩

theorem State.alignMerges_within (s : State) (core : Nat) : Within State.alignMergesWrites s (s.alignMerges core) := by
  unfold State.alignMerges
  refine Within.foldl _ (fun t x => ?_) _ _
  extract_lets _ _
  exact Within.ite _ ((State.mergeAlign_within ..).mono) (Within.refl _ _)

/-- What `State.descExc` may write. -/
def State.descExcWrites : Writes := ⟨[.out, .regs, .stations, .threads, .flights, .pba, .events, .traces, .totals],
  [.CSQ_TH_EXC_CODE, .CSQ_TH_EXC_OVERRUN, .CSQ_TH_EXC_PC, .CSQ_TH_EXC_VALID, .CSQ_TH_PRED_P, .CSQ_TH_RECCNT_COUNT,
  .CSQ_TH_STAT_PC, .CSQ_TH_STAT_STATE, .CSQ_TH_STAT_WAITKIND, .STP_EXC_DIDX, .STP_EXC_OVERRUN, .STP_EXC_REASON,
  .STP_EXC_STATION, .STP_EXC_VALID]⟩

theorem State.descExc_within (s : State) (core d reason : Nat) : Within State.descExcWrites s (s.descExc core d reason) := by
  unfold State.descExc
  extract_lets _ _ s1 s2
  have hs1 : Within State.descExcWrites s s1 := Within.mono (State.capture_within ..)
    (by simp only [List.map_cons, List.map_nil]; decide)
  have hs2 : Within State.descExcWrites s s2 := (State.raise_within ..).after ((State.park_within ..).after hs1)
  split
  · exact (State.seqCapture_within ..).after hs2
  · exact hs2

/-- What `State.noteUnit` may write. -/
def State.noteUnitWrites : Writes := ⟨[.regs], [.DPE_STAT_STATION, .PRE_STAT_STATION, .VXE_STAT_STATION]⟩

theorem State.noteUnit_within (s : State) (core u st : Nat) : Within State.noteUnitWrites s (s.noteUnit core u st) := by
  unfold State.noteUnit
  split
  · exact (State.setF_within ..).mono
  · exact (State.setF_within ..).mono
  · exact (State.setF_within ..).mono
  · exact Within.refl _ _

/-- What `State.takeGrant` may write. -/
def State.takeGrantWrites : Writes := ⟨[.out, .regs, .stations, .threads, .flights, .pba, .events, .traces, .totals],
  [.CSQ_TH_EXC_CODE, .CSQ_TH_EXC_OVERRUN, .CSQ_TH_EXC_PC, .CSQ_TH_EXC_VALID, .CSQ_TH_PRED_P, .CSQ_TH_RECCNT_COUNT,
  .CSQ_TH_STAT_PC, .CSQ_TH_STAT_STATE, .CSQ_TH_STAT_WAITKIND, .STP_STAT_DIDX, .STP_STAT_STATION]⟩

theorem State.takeGrant_within (s : State) (core d st : Nat) (r : SlotRef) :
    Within State.takeGrantWrites s (s.takeGrant core d st r) := by
  unfold State.takeGrant
  extract_lets _ s1 s2
  have hs1 : Within State.takeGrantWrites s s1 := (State.setStation_within ..).mono
  have hs2 : Within State.takeGrantWrites s s2 := (State.setF_within ..).after ((State.setF_within ..).after hs1)
  exact Within.ite _ ((State.park_within ..).after hs2) hs2

/-- What `State.takeSlot` may write. -/
def State.takeSlotWrites : Writes := ⟨[.out, .regs, .rings, .pba, .events, .traces, .totals], [.CMC_SLOT_STATE,
  .CMC_SLOT_TORN, .KMC_SLOT_STATE, .KMC_SLOT_TORN, .KMC_STN_LATECNT_COUNT, .KMC_STN_POISCNT_COUNT, .KMC_STN_SATCNT_COUNT,
  .KMC_STN_TORNCNT_COUNT, .KMC_STN_UNMATCH_COUNT]⟩

theorem State.takeSlot_within (s : State) (st : Nat) (h : SlotRef) (keep : Bool) :
    Within State.takeSlotWrites s (s.takeSlot st h keep) := by
  unfold State.takeSlot
  extract_lets _ s1
  have hs1 : Within State.takeSlotWrites s s1 := (State.stepRd_within ..).mono
  refine Within.ite _ ?_ ?_
  · exact (State.setSlot_within ..).after ((State.tornTaken_within ..).after hs1)
  · exact (State.setSlot_within ..).after hs1

theorem State.armEngine_within (s : State) (core d : Nat) (st e opw : Nat) :
    Within ⟨[.engines], []⟩ s (s.armEngine core d st e opw) := by
  unfold State.armEngine
  extract_lets _ _ _
  exact (State.setEngine_within ..).mono

/-- What `State.beginTile` may write. -/
def State.beginTileWrites : Writes := ⟨[.fresh, .out, .regs, .engines, .rings, .stations, .tiles, .scrubs, .pba, .events,
  .traces, .totals], [.CMC_ECCADDR_OFFSET, .CMC_ECCCNT_CORR, .CMC_ECCCNT_UNCORR, .CMC_ECCSTAT_KIND, .CMC_ECCSTAT_MASTER,
  .CMC_ECCSTAT_OVERRUN, .CMC_ECCSTAT_SYNDROME, .CMC_ECCSTAT_VALID, .CMC_SLOT_STATE, .DPE_STAT_STATION,
  .KMC_ECCADDR_OFFSET, .KMC_ECCCNT_CORR, .KMC_ECCCNT_UNCORR, .KMC_ECCSTAT_KIND, .KMC_ECCSTAT_MASTER,
  .KMC_ECCSTAT_OVERRUN, .KMC_ECCSTAT_SYNDROME, .KMC_ECCSTAT_VALID, .KMC_SLOT_STATE, .PRE_STAT_STATION, .VXE_STAT_STATION]⟩

theorem State.beginTile_within (s : State) (core u d : Nat) (ins side gone : List SlotRef) (newest : SlotRef) :
    Within State.beginTileWrites s (s.beginTile core u d ins side gone newest) := by
  have hfresh (t : State) (n : Nat) : Within State.beginTileWrites t { t with fresh := n } := (Within.update [.fresh] rfl).mono
  unfold State.beginTile
  extract_lets x st y outs parts flags nvec master word read u1 u2 u3 u4 u5 tile u6
  have h1 : Within State.beginTileWrites s u1 :=
    Within.ite _ (Within.trans (t := read) ((State.readEcc_within ..).mono) (hfresh _ _)) (Within.refl _ _)
  have h2 : Within State.beginTileWrites s u2 := Within.trans h1 (Within.foldl _ (fun _ _ =>
    (State.readEcc_within ..).mono) _ _)
  have h3 : Within State.beginTileWrites s u3 := Within.trans h2 (Within.foldl _ (fun _ _ =>
    (State.stepWr_within ..).after ((State.setSlot_within ..).mono)) _ _)
  have h4 : Within State.beginTileWrites s u4 := Within.trans h3 (Within.foldl _ (fun _ _ => (State.stepRd_within ..).mono) _ _)
  have h5 : Within State.beginTileWrites s u5 :=
    Within.ite _ (Within.trans h4 (Within.foldl _ (fun _ _ => (State.armEngine_within ..).mono) _ _))
      ((State.noteUnit_within ..).after h4)
  exact (State.enterTile_within ..).after ((State.setCoreTiles_within ..).after h5)

/-- What `State.startWindow` may write. -/
def State.startWindowWrites : Writes := ⟨[.fresh, .out, .regs, .engines, .rings, .stations, .tiles, .scrubs, .threads,
  .flights, .pba, .events, .traces, .totals], [.CMC_ECCADDR_OFFSET, .CMC_ECCCNT_CORR, .CMC_ECCCNT_UNCORR,
  .CMC_ECCSTAT_KIND, .CMC_ECCSTAT_MASTER, .CMC_ECCSTAT_OVERRUN, .CMC_ECCSTAT_SYNDROME, .CMC_ECCSTAT_VALID,
  .CMC_SLOT_STATE, .CMC_SLOT_TORN, .CSQ_TH_EXC_CODE, .CSQ_TH_EXC_OVERRUN, .CSQ_TH_EXC_PC, .CSQ_TH_EXC_VALID,
  .CSQ_TH_PRED_P, .CSQ_TH_RECCNT_COUNT, .CSQ_TH_STAT_PC, .CSQ_TH_STAT_STATE, .CSQ_TH_STAT_WAITKIND, .DPE_STAT_STATION,
  .KMC_ECCADDR_OFFSET, .KMC_ECCCNT_CORR, .KMC_ECCCNT_UNCORR, .KMC_ECCSTAT_KIND, .KMC_ECCSTAT_MASTER,
  .KMC_ECCSTAT_OVERRUN, .KMC_ECCSTAT_SYNDROME, .KMC_ECCSTAT_VALID, .KMC_SLOT_STATE, .KMC_SLOT_TORN,
  .KMC_STN_LATECNT_COUNT, .KMC_STN_POISCNT_COUNT, .KMC_STN_SATCNT_COUNT, .KMC_STN_TORNCNT_COUNT, .KMC_STN_UNMATCH_COUNT,
  .PRE_STAT_STATION, .STP_STAT_DIDX, .STP_STAT_STATION, .VXE_STAT_STATION]⟩

theorem State.startWindow_within (s : State) (core u d : Nat) : Within State.startWindowWrites s (s.startWindow core u d) := by
  unfold State.startWindow
  extract_lets x st ins
  split
  · exact Within.refl _ _
  · extract_lets r torn side u1 u2 free y filled u3 w u4
    have h1 : Within State.startWindowWrites s u1 := (State.takeGrant_within ..).mono
    have h2 : Within State.startWindowWrites s u2 := Within.trans h1 (Within.foldl _ (fun _ _ =>
      (State.takeSlot_within ..).mono) _ _)
    have hfree (t : State) : Within State.startWindowWrites t (free t) :=
      Within.foldl _ (fun _ _ => (State.setSlot_within ..).mono) _ _
    have hskip (t : State) : Within State.startWindowWrites t (ins t) :=
      Within.foldl _ (fun _ _ => (State.skipPart_within ..).mono) _ _
    have h3 : Within State.startWindowWrites s u3 := by
      unfold u3
      refine Within.ite _ ?_ h2
      split
      · exact (State.emptySlot_within ..).after h2
      · exact h2
    have h4 : Within State.startWindowWrites s u4 := (State.takeSlot_within ..).after ((State.setStation_within ..).after h3)
    clear_value u2 u3 u4
    refine Within.ite _ ((((State.takeSlot_within ..).after h2).trans (hfree _)).trans (hskip _)) (Within.ite _ ?_ ?_)
    · exact (h4.trans (hfree _)).trans (hskip _)
    · exact (State.beginTile_within ..).after h4

/-- What `State.startMerge` may write. -/
def State.startMergeWrites : Writes := ⟨[.fresh, .out, .regs, .engines, .rings, .stations, .tiles, .scrubs, .threads,
  .flights, .pba, .events, .traces, .totals], [.CMC_ECCADDR_OFFSET, .CMC_ECCCNT_CORR, .CMC_ECCCNT_UNCORR,
  .CMC_ECCSTAT_KIND, .CMC_ECCSTAT_MASTER, .CMC_ECCSTAT_OVERRUN, .CMC_ECCSTAT_SYNDROME, .CMC_ECCSTAT_VALID,
  .CMC_SLOT_STATE, .CMC_SLOT_TORN, .CSQ_TH_EXC_CODE, .CSQ_TH_EXC_OVERRUN, .CSQ_TH_EXC_PC, .CSQ_TH_EXC_VALID,
  .CSQ_TH_PRED_P, .CSQ_TH_RECCNT_COUNT, .CSQ_TH_STAT_PC, .CSQ_TH_STAT_STATE, .CSQ_TH_STAT_WAITKIND, .DPE_STAT_STATION,
  .KMC_ECCADDR_OFFSET, .KMC_ECCCNT_CORR, .KMC_ECCCNT_UNCORR, .KMC_ECCSTAT_KIND, .KMC_ECCSTAT_MASTER,
  .KMC_ECCSTAT_OVERRUN, .KMC_ECCSTAT_SYNDROME, .KMC_ECCSTAT_VALID, .KMC_SLOT_STATE, .KMC_SLOT_TORN,
  .KMC_STN_LATECNT_COUNT, .KMC_STN_POISCNT_COUNT, .KMC_STN_SATCNT_COUNT, .KMC_STN_TORNCNT_COUNT, .KMC_STN_UNMATCH_COUNT,
  .PRE_STAT_STATION, .STP_STAT_DIDX, .STP_STAT_STATION, .VXE_STAT_STATION]⟩

theorem State.startMerge_within (s : State) (core u d : Nat) : Within State.startMergeWrites s (s.startMerge core u d) := by
  unfold State.startMerge
  extract_lets _ _ _ s1 s2
  have hs1 : Within State.startMergeWrites s s1 := (State.takeGrant_within ..).mono
  have hs2 : Within State.startMergeWrites s s2 := Within.trans hs1 (Within.foldl _ (fun _ _ =>
    (State.takeSlot_within ..).mono) _ _)
  split
  · exact (State.takeSlot_within ..).after ((State.takeGrant_within ..).mono)
  · exact (State.beginTile_within ..).after hs2

theorem State.writeDesc_within (s : State) (core d gen : Nat) (ws : List Word) :
    Within ⟨[.sram, .ecc], []⟩ s (s.writeDesc core d gen ws) :=
  (State.store_within ..).mono

theorem State.setImage_within (s : State) (owner core d : Nat) (f : Nat × Nat × List Word → Nat × Nat × List Word) :
    Within ⟨[.parts], []⟩ s (s.setImage owner core d f) :=
  (State.setPart_within ..).mono

theorem State.moveShadow_within (s : State) (core cst : Nat) (pairs : List (Nat × Nat)) :
    Within ⟨[.stations, .shadows, .weak], []⟩ s (s.moveShadow core cst pairs) := by
  unfold State.moveShadow
  extract_lets _ _
  refine Within.ite _ (Within.refl _ _) ?_
  refine Within.trans ((State.setStation_within ..).mono) (Within.foldl _ (fun t x => ?_) _ _)
  extract_lets _
  exact Within.foldl _ (fun _ _ => (Within.update [.shadows, .weak] rfl).mono) _ _

/-- What `State.weightNow` may write. -/
def State.weightNowWrites : Writes := ⟨[.sram, .ecc, .stations, .parts, .shadows, .weak], []⟩

theorem State.weightNow_within (s : State) (st : Nat) (m : Migration) : Within State.weightNowWrites s (s.weightNow st m) := by
  unfold State.weightNow
  extract_lets _ _ _ s1 s2
  have hs1 : Within State.weightNowWrites s s1 := (State.writeDesc_within ..).after ((State.setImage_within ..).mono)
  have hs2 : Within State.weightNowWrites s s2 := by
    unfold s2
    split
    · exact (State.moveShadow_within ..).after hs1
    · exact hs1
  exact (State.setStation_within ..).after hs2

/-- What `State.weightAt` may write. -/
def State.weightAtWrites : Writes := ⟨[.sram, .ecc, .stations, .parts, .shadows, .weak], []⟩

theorem State.weightAt_within (s : State) (st : Nat) : Within State.weightAtWrites s (s.weightAt st) := by
  unfold State.weightAt
  extract_lets _
  split
  · exact (State.weightNow_within ..).mono
  · exact Within.refl _ _

/-- What `State.tileEnd` may write. -/
def State.tileEndWrites : Writes := ⟨[.out, .sram, .ecc, .engines, .stations, .tiles, .groups, .parts, .shadows, .weak,
  .links], []⟩

theorem State.tileEnd_within (s : State) (core : Nat) (t : Tile) : Within State.tileEndWrites s (s.tileEnd core t) := by
  unfold State.tileEnd
  extract_lets s1 s2 _ s3 s4 s5
  have hs1 : Within State.tileEndWrites s s1 := by
    unfold s1
    refine Within.ite _ ?_ (Within.refl _ _)
    refine Within.foldl _ (fun t x => ?_) _ _
    extract_lets _ _
    exact Within.ite _ ((State.setEngine_within ..).mono) (Within.refl _ _)
  have hs2 : Within State.tileEndWrites s s2 := (State.setCoreTiles_within ..).after hs1
  have hs3 : Within State.tileEndWrites s s3 := Within.ite _ hs2 ((State.leaveTile_within ..).after hs2)
  have hs4 : Within State.tileEndWrites s s4 := Within.ite _ ((State.weightAt_within ..).after hs3) hs3
  have hs5 : Within State.tileEndWrites s s5 := Within.ite _ ((State.store_within ..).after hs4) hs4
  exact Within.trans hs5 (Within.foldl _ (fun _ _ => (State.sendRounds_within ..).mono) _ _)

/-- What `State.releaseIns` may write. -/
def State.releaseInsWrites : Writes := ⟨[.regs, .stations], [.CMC_SLOT_STATE, .KMC_SLOT_STATE]⟩

theorem State.releaseIns_within (s : State) (t : Tile) : Within State.releaseInsWrites s (s.releaseIns t) := by
  unfold State.releaseIns
  extract_lets _ s1
  have hs1 : Within State.releaseInsWrites s s1 := Within.foldl _ (fun _ _ => (State.emptySlot_within ..).mono) _ _
  exact Within.ite _ hs1 ((State.setStation_within ..).after hs1)

theorem State.setDescWord_within (s : State) (core d : Nat) (k v : Nat) :
    Within ⟨[.sram, .ecc, .parts], []⟩ s (s.setDescWord core d k v) := by
  unfold State.setDescWord
  extract_lets _
  exact (State.store_within ..).after ((State.setImage_within ..).mono)

/-- What `State.ringLike` may write. -/
def State.ringLikeWrites : Writes := ⟨[.regs, .rings], [.CMC_SLOT_BASE, .CMC_SLOT_STATE, .CMC_SLOT_STATION,
  .CMC_SLOT_TORN, .KMC_SLOT_BASE, .KMC_SLOT_STATE, .KMC_SLOT_STATION, .KMC_SLOT_TORN]⟩

theorem State.ringLike_within (s : State) (h : SlotRef) (x : Ring) (len base : Nat) :
    Within State.ringLikeWrites s (s.ringLike h x len base) := by
  unfold State.ringLike
  extract_lets s1
  have hs1 : Within State.ringLikeWrites s s1 := (State.setRing_within ..).mono
  refine Within.trans hs1 (Within.foldl _ (fun t x => ?_) _ _)
  extract_lets _ t1
  have ht1 : Within State.ringLikeWrites t t1 := (State.setTorn_within ..).after ((State.setSlot_within ..).mono)
  refine Within.ite _ ?_ ?_
  · exact (State.setF_within ..).after ((State.setF_within ..).after ht1)
  · exact (State.setF_within ..).after ((State.setF_within ..).after ht1)

/-- What `State.ringFree` may write. -/
def State.ringFreeWrites : Writes := ⟨[.regs, .rings], [.CMC_SLOT_STATE, .CMC_SLOT_TORN, .KMC_SLOT_STATE, .KMC_SLOT_TORN]⟩

theorem State.ringFree_within (s : State) (h : SlotRef) : Within State.ringFreeWrites s (s.ringFree h) := by
  unfold State.ringFree
  extract_lets _
  exact (State.setRing_within ..).after (Within.foldl _ (fun _ _ => Within.ite _ (Within.refl _ _)
    ((State.setTorn_within ..).after ((State.setSlot_within ..).mono))) _ _)

theorem State.renameSlot_within (s : State) (a b : SlotRef) : Within ⟨[.tiles, .tmvs, .links], []⟩ s (s.renameSlot a b) := by
  unfold State.renameSlot
  extract_lets _
  exact (Within.update [.tiles, .tmvs, .links] rfl).mono

/-- What `State.carryTiles` may write. -/
def State.carryTilesWrites : Writes := ⟨[.out, .regs, .sram, .ecc, .rings, .tiles, .tmvs, .scrubs, .pba, .events,
  .traces, .totals, .links], [.CMC_ECCADDR_OFFSET, .CMC_ECCCNT_CORR, .CMC_ECCCNT_UNCORR, .CMC_ECCSTAT_KIND,
  .CMC_ECCSTAT_MASTER, .CMC_ECCSTAT_OVERRUN, .CMC_ECCSTAT_SYNDROME, .CMC_ECCSTAT_VALID, .CMC_SLOT_STATE, .CMC_SLOT_TORN,
  .KMC_ECCADDR_OFFSET, .KMC_ECCCNT_CORR, .KMC_ECCCNT_UNCORR, .KMC_ECCSTAT_KIND, .KMC_ECCSTAT_MASTER,
  .KMC_ECCSTAT_OVERRUN, .KMC_ECCSTAT_SYNDROME, .KMC_ECCSTAT_VALID, .KMC_SLOT_STATE, .KMC_SLOT_TORN]⟩

theorem State.carryTiles_within (s : State) (h g : SlotRef) (n : Nat) :
    Within State.carryTilesWrites s (s.carryTiles h g n) := by
  induction n generalizing s with
  | zero => exact Within.refl _ _
  | succ n ih =>
    unfold State.carryTiles
    extract_lets r v q s1 s2 s3
    have h1 : Within State.carryTilesWrites s s1 := (State.moveBytes_within ..).mono
    have h2 : Within State.carryTilesWrites s s2 :=
      (State.stepWr_within ..).after ((State.setTorn_within ..).after ((State.setSlot_within ..).after h1))
    have h3 : Within State.carryTilesWrites s s3 := (State.renameSlot_within ..).after
      ((State.stepRd_within ..).after ((State.setTorn_within ..).after ((State.setSlot_within ..).after h2)))
    exact Within.ite _ (h3.trans (ih s3)) (Within.refl _ _)

/-- What `State.turnProducers` may write. -/
def State.turnProducersWrites : Writes := ⟨[.sram, .ecc, .rings, .stations, .parts], []⟩

theorem State.turnProducers_within (s : State) (h g : SlotRef) : Within State.turnProducersWrites s (s.turnProducers h g) := by
  unfold State.turnProducers
  extract_lets s1 _ _
  have hs1 : Within State.turnProducersWrites s s1 := (Within.update [.rings] rfl).mono
  refine Within.ite _ ?_ ((State.setStation_within ..).after hs1)
  refine Within.trans hs1 (Within.foldl _ (fun t x => ?_) _ _)
  extract_lets _
  exact Within.ite _ ((State.setDescWord_within ..).mono) (Within.refl _ _)

/-- What `State.turnConsumer` may write. -/
def State.turnConsumerWrites : Writes := ⟨[.sram, .ecc, .stations, .parts], []⟩

theorem State.turnConsumer_within (s : State) (h g : SlotRef) : Within State.turnConsumerWrites s (s.turnConsumer h g) := by
  unfold State.turnConsumer
  extract_lets _ _
  refine Within.ite _ ?_ ((State.setStation_within ..).mono)
  refine Within.foldl _ (fun t x => ?_) _ _
  extract_lets _
  exact Within.ite _ ((State.setDescWord_within ..).mono) (Within.refl _ _)

/-- What `State.bindEntry` may write. -/
def State.bindEntryWrites : Writes := ⟨[.regs], [.KMC_STN_LATECNT_COUNT, .KMC_STN_POISCNT_COUNT, .KMC_STN_SATCNT_COUNT,
  .KMC_STN_TORNCNT_COUNT, .KMC_STN_UNMATCH_COUNT]⟩

theorem State.bindEntry_within (s : State) (c e : Nat) : Within State.bindEntryWrites s (s.bindEntry c e) :=
  Within.foldl_mem _ _ (fun _ f hf => (Within.refl _ _).setF rfl (List.all_eq_true.mp (by decide) f hf) ..) _

/-- What `State.moveStation` may write. -/
def State.moveStationWrites : Writes := ⟨[.out, .regs, .sram, .ecc, .rings, .stations, .tiles, .tmvs, .scrubs, .parts,
  .pba, .events, .traces, .totals, .links], [.CMC_ECCADDR_OFFSET, .CMC_ECCCNT_CORR, .CMC_ECCCNT_UNCORR,
  .CMC_ECCSTAT_KIND, .CMC_ECCSTAT_MASTER, .CMC_ECCSTAT_OVERRUN, .CMC_ECCSTAT_SYNDROME, .CMC_ECCSTAT_VALID,
  .CMC_SLOT_BASE, .CMC_SLOT_STATE, .CMC_SLOT_STATION, .CMC_SLOT_TORN, .KMC_ECCADDR_OFFSET, .KMC_ECCCNT_CORR,
  .KMC_ECCCNT_UNCORR, .KMC_ECCSTAT_KIND, .KMC_ECCSTAT_MASTER, .KMC_ECCSTAT_OVERRUN, .KMC_ECCSTAT_SYNDROME,
  .KMC_ECCSTAT_VALID, .KMC_SLOT_BASE, .KMC_SLOT_STATE, .KMC_SLOT_STATION, .KMC_SLOT_TORN, .KMC_STN_LATECNT_COUNT,
  .KMC_STN_POISCNT_COUNT, .KMC_STN_SATCNT_COUNT, .KMC_STN_TORNCNT_COUNT, .KMC_STN_UNMATCH_COUNT]⟩

theorem State.moveStation_within (s : State) (st epoch : Nat) (m : Migration) :
    Within State.moveStationWrites s (s.moveStation st epoch m) := by
  unfold State.moveStation
  extract_lets y w v ins outs gen entry s1 s2 s3 s4 busy s5 rings dr
  have h1 : Within State.moveStationWrites s s1 := by
    unfold s1
    refine Within.ite _ (Within.refl _ _) ?_
    clear_value entry
    cases entry with
    | none => exact Within.refl _ _
    | some e => exact (State.bindEntry_within ..).mono
  have h2 : Within State.moveStationWrites s s2 := (State.writeDesc_within ..).after ((State.setImage_within ..).after h1)
  have h3 : Within State.moveStationWrites s s3 := by
    refine Within.trans h2 (Within.foldl _ (fun t p => Within.ite _ (Within.refl _ _) ?_) _ _)
    refine (State.turnProducers_within ..).after ((State.carryTiles_within ..).after ?_)
    exact Within.ite _ ((State.ringLike_within ..).mono) (Within.refl _ _)
  have h4 : Within State.moveStationWrites s s4 :=
    Within.trans h3 (Within.foldl _ (fun t _ => Within.ite _ ((State.ringLike_within ..).mono) (Within.refl _ _)) _ _)
  have h5 : Within State.moveStationWrites s s5 :=
    Within.ite _ ((State.setCoreTiles_within ..).after h4)
      (Within.trans h4 (Within.foldl _ (fun _ _ => (State.emptySlot_within ..).mono) _ _))
  exact (State.setStation_within ..).after h5

/-- What `State.switchWeights` may write. -/
def State.switchWeightsWrites : Writes := ⟨[.regs, .sram, .ecc, .owls, .stations, .tiles, .parts, .shadows, .weak],
  [.OWL_SSTAT_STATE, .OWL_SSTAT_WARM]⟩

theorem State.switchWeights_within (s : State) (st epoch : Nat) (m : Migration) :
    Within State.switchWeightsWrites s (s.switchWeights st epoch m) := by
  unfold State.switchWeights
  extract_lets _ _ s1 s2
  have hs1 : Within State.switchWeightsWrites s s1 := (State.setStation_within ..).mono
  have hs2 : Within State.switchWeightsWrites s s2 := Within.trans hs1 (Within.foldl _ (fun _ _ =>
    (State.owlRelearn_within ..).mono) _ _)
  exact Within.ite _ ((State.setCoreTiles_within ..).after hs2) ((State.weightNow_within ..).after hs2)

/-- What `State.changePlacement` may write. -/
def State.changePlacementWrites : Writes := ⟨[.out, .regs, .sram, .ecc, .owls, .rings, .stations, .tiles, .tmvs, .scrubs,
  .parts, .shadows, .weak, .pba, .events, .traces, .totals, .links], [.CMC_ECCADDR_OFFSET, .CMC_ECCCNT_CORR,
  .CMC_ECCCNT_UNCORR, .CMC_ECCSTAT_KIND, .CMC_ECCSTAT_MASTER, .CMC_ECCSTAT_OVERRUN, .CMC_ECCSTAT_SYNDROME,
  .CMC_ECCSTAT_VALID, .CMC_SLOT_BASE, .CMC_SLOT_STATE, .CMC_SLOT_STATION, .CMC_SLOT_TORN, .KMC_ECCADDR_OFFSET,
  .KMC_ECCCNT_CORR, .KMC_ECCCNT_UNCORR, .KMC_ECCSTAT_KIND, .KMC_ECCSTAT_MASTER, .KMC_ECCSTAT_OVERRUN,
  .KMC_ECCSTAT_SYNDROME, .KMC_ECCSTAT_VALID, .KMC_SLOT_BASE, .KMC_SLOT_STATE, .KMC_SLOT_STATION, .KMC_SLOT_TORN,
  .KMC_STN_LATECNT_COUNT, .KMC_STN_POISCNT_COUNT, .KMC_STN_SATCNT_COUNT, .KMC_STN_TORNCNT_COUNT, .KMC_STN_UNMATCH_COUNT,
  .OWL_SSTAT_STATE, .OWL_SSTAT_WARM]⟩

theorem State.changePlacement_within (s : State) (st epoch : Nat) :
    Within State.changePlacementWrites s (s.changePlacement st epoch) := by
  unfold State.changePlacement
  extract_lets _
  refine Within.ite _ (Within.refl _ _) ?_
  split
  · exact (State.switchWeights_within ..).mono
  · exact (State.moveStation_within ..).mono
  · exact Within.refl _ _

/-- What `State.changeAll` may write. -/
def State.changeAllWrites : Writes := ⟨[.out, .regs, .sram, .ecc, .owls, .rings, .stations, .tiles, .tmvs, .scrubs,
  .threads, .flights, .snapHeld, .parts, .shadows, .weak, .pba, .events, .traces, .totals, .links], [.CMC_ECCADDR_OFFSET,
  .CMC_ECCCNT_CORR, .CMC_ECCCNT_UNCORR, .CMC_ECCSTAT_KIND, .CMC_ECCSTAT_MASTER, .CMC_ECCSTAT_OVERRUN,
  .CMC_ECCSTAT_SYNDROME, .CMC_ECCSTAT_VALID, .CMC_SLOT_BASE, .CMC_SLOT_STATE, .CMC_SLOT_STATION, .CMC_SLOT_TORN,
  .CSQ_TH_EXC_CODE, .CSQ_TH_EXC_OVERRUN, .CSQ_TH_EXC_PC, .CSQ_TH_EXC_VALID, .CSQ_TH_PRED_P, .CSQ_TH_RECCNT_COUNT,
  .CSQ_TH_STAT_PC, .CSQ_TH_STAT_STATE, .CSQ_TH_STAT_WAITKIND, .KMC_ECCADDR_OFFSET, .KMC_ECCCNT_CORR, .KMC_ECCCNT_UNCORR,
  .KMC_ECCSTAT_KIND, .KMC_ECCSTAT_MASTER, .KMC_ECCSTAT_OVERRUN, .KMC_ECCSTAT_SYNDROME, .KMC_ECCSTAT_VALID,
  .KMC_SLOT_BASE, .KMC_SLOT_STATE, .KMC_SLOT_STATION, .KMC_SLOT_TORN, .KMC_STN_LATECNT_COUNT, .KMC_STN_POISCNT_COUNT,
  .KMC_STN_SATCNT_COUNT, .KMC_STN_TORNCNT_COUNT, .KMC_STN_UNMATCH_COUNT, .OWL_SSTAT_STATE, .OWL_SSTAT_WARM]⟩

theorem State.changeAll_within (s : State) (c epoch : Nat) : Within State.changeAllWrites s (s.changeAll c epoch) := by
  unfold State.changeAll
  extract_lets _ s1
  have hs1 : Within State.changeAllWrites s s1 := Within.foldl _ (fun _ _ => Within.ite _
    ((Within.update [.snapHeld] rfl).mono) ((State.changePlacement_within ..).mono)) _ _
  exact Within.trans hs1 (Within.foldl _ (fun _ _ => (State.park_within ..).mono) _ _)

theorem State.queueAll_within (s : State) (h : SlotRef) : Within ⟨[.tmvs], []⟩ s (s.queueAll h) := by
  unfold State.queueAll
  extract_lets _
  refine Within.foldl _ (fun t x => ?_) _ _
  extract_lets _
  exact Within.ite _ ((State.tmvQueue_within ..).mono) (Within.refl _ _)

/-- What `State.drainClose` may write. -/
def State.drainCloseWrites : Writes := ⟨[.regs, .sram, .ecc, .rings, .stations, .tmvs, .parts], [.CMC_SLOT_STATE,
  .CMC_SLOT_TORN, .KMC_SLOT_STATE, .KMC_SLOT_TORN]⟩

theorem State.drainClose_within (s : State) (st : Nat) (dr : Drain) : Within State.drainCloseWrites s (s.drainClose st dr) := by
  unfold State.drainClose
  extract_lets _ s1 s2 _ _
  have hs1 : Within State.drainCloseWrites s s1 := by
    unfold s1
    refine Within.foldl _ (fun t x => ?_) _ _
    extract_lets _ _ t1
    have ht1 : Within State.drainCloseWrites t t1 := by
      unfold t1
      split
      · exact (State.queueAll_within ..).after ((State.setRing_within ..).mono)
      · exact (State.turnConsumer_within ..).mono
    exact Within.ite _ ((State.ringFree_within ..).after ht1) ((State.ringFree_within ..).mono)
  have hs2 : Within State.drainCloseWrites s s2 := Within.ite _ hs1 ((State.store_within ..).after hs1)
  exact (State.setStation_within ..).after hs2

theorem State.loaderCharge_within (s : State) (owner ns : Nat) :
    Within ⟨[.buckets, .bucketAt], []⟩ s (s.loaderCharge owner ns) := by
  unfold State.loaderCharge
  extract_lets _
  exact (Within.update [.buckets, .bucketAt] rfl).mono

/-- What `State.setQuota` may write. -/
def State.setQuotaWrites : Writes := ⟨[.regs], [.TEN_CMKIB_VALUE, .TEN_KMKIB_VALUE, .TEN_LDRMS_VALUE,
  .TEN_QUOTA0_CONTEXTS, .TEN_QUOTA0_CORES, .TEN_QUOTA0_LINKSHARE, .TEN_QUOTA0_WOUTMAP, .TEN_QUOTA1_GRACE]⟩

theorem State.setQuota_within (s : State) (t : Nat) (q : Quota) : Within State.setQuotaWrites s (s.setQuota t q) := by
  unfold State.setQuota
  extract_lets _ s1 s2
  have hs1 : Within State.setQuotaWrites s s1 := (State.setF_within ..).after ((State.setF_within ..).after
    ((State.setF_within ..).mono))
  have hs2 : Within State.setQuotaWrites s s2 := (State.setF_within ..).after ((State.setF_within ..).after
    ((State.setF_within ..).after hs1))
  exact (State.setF_within ..).after ((State.setF_within ..).after hs2)

theorem State.reclaimEnd_within (s : State) (t : Nat) : Within ⟨[.stations, .ctxs, .fns], []⟩ s (s.reclaimEnd t) := by
  unfold State.reclaimEnd
  extract_lets _ _ _
  refine Within.ite _ ?_ ?_
  · exact Within.refl _ _
  · exact (State.setFn_within ..).after ((Within.update [.stations, .ctxs] rfl).mono)

/-- What `State.reclaimDone` may write. -/
def State.reclaimDoneWrites : Writes := ⟨[.out, .regs, .stations, .ctxs, .fns, .pba], [.SVC_DATA_WORD, .SVC_STAT_FULL,
  .SVC_STAT_LOST]⟩

theorem State.reclaimDone_within (s : State) (t : Nat) : Within State.reclaimDoneWrites s (s.reclaimDone t) := by
  unfold State.reclaimDone
  extract_lets _
  exact Within.ite _ ((State.reclaimEnd_within ..).after ((State.service_within ..).mono)) (Within.refl _ _)

/-- What `State.reclaimGone` may write. -/
def State.reclaimGoneWrites : Writes := ⟨[.out, .regs, .stations, .ctxs, .fns, .pba], [.SVC_DATA_WORD, .SVC_STAT_FULL,
  .SVC_STAT_LOST]⟩

theorem State.reclaimGone_within (s : State) (t : Nat) : Within State.reclaimGoneWrites s (s.reclaimGone t) := by
  unfold State.reclaimGone
  extract_lets _ _
  split
  · exact Within.refl _ _
  · extract_lets _ _
    exact (State.reclaimDone_within ..).after ((State.setFn_within ..).mono)

/-- What `State.reclaimFit` may write. -/
def State.reclaimFitWrites : Writes := ⟨[.out, .regs, .stations, .ctxs, .fns, .pba], [.SVC_DATA_WORD, .SVC_STAT_FULL,
  .SVC_STAT_LOST]⟩

theorem State.reclaimFit_within (s : State) (t : Nat) (late : Bool) :
    Within State.reclaimFitWrites s (s.reclaimFit t late) := by
  unfold State.reclaimFit
  refine Within.ite _ ?_ ?_
  · exact (State.reclaimGone_within ..).mono
  · exact Within.ite _ ((State.reclaimEnd_within ..).mono) (Within.refl _ _)

/-- What `State.releaseEpw` may write. -/
def State.releaseEpwWrites : Writes := ⟨[.regs, .threads, .traces], [.CSQ_TH_PRED_P, .CSQ_TH_STAT_STATE, .CSQ_TH_STAT_WAITKIND]⟩

theorem State.releaseEpw_within (s : State) (c : Nat) : Within State.releaseEpwWrites s (s.releaseEpw c) := by
  unfold State.releaseEpw
  extract_lets _
  refine Within.foldl _ (fun t x => ?_) _ _
  split
  · exact Within.ite _ ((State.resume_within ..).mono) (Within.refl _ _)
  · exact Within.refl _ _

theorem State.applyArmed_within (s : State) (c : Nat) : Within ⟨[.stations, .threads, .groups], []⟩ s (s.applyArmed c) := by
  unfold State.applyArmed
  extract_lets _ _
  refine Within.foldl _ (fun t x => ?_) _ _
  extract_lets _ _
  refine Within.ite _ ?_ ?_
  · exact Within.refl _ _
  · exact Within.trans ((State.setThread_within ..).mono) (Within.foldl _ (fun _ _ => (State.grant_within ..).mono) _ _)

/-- What `State.trgFire` may write. -/
def State.trgFireWrites : Writes := ⟨[.regs, .stations, .ctxs, .trgAt, .groups], [.POS_TRG_CFG_EN, .POS_TRG_STAT_FIRES,
  .POS_TRG_VALH_VALUE, .POS_TRG_VALL_VALUE]⟩

theorem State.trgFire_within (s : State) (m : Nat) : Within State.trgFireWrites s (s.trgFire m) := by
  unfold State.trgFire
  extract_lets _ _ s1 _ s2 _ _
  have hs1 : Within State.trgFireWrites s s1 := (State.addHold_within ..).after ((Within.update [.trgAt] rfl).mono)
  have hs2 : Within State.trgFireWrites s s2 := by
    unfold s2
    refine Within.ite _ ?_ ?_
    · exact (State.setF_within ..).after hs1
    · exact (State.setF_within ..).after ((State.setF_within ..).after hs1)
  refine Within.ite _ ?_ ?_
  · exact (State.setCtx_within ..).after hs2
  · exact Within.ite _ ((State.setF_within ..).after hs2) ((State.grant_within ..).after hs2)

/-- What `State.fireTriggers` may write. -/
def State.fireTriggersWrites : Writes := ⟨[.regs, .stations, .ctxs, .trgAt, .groups], [.POS_TRG_CFG_EN,
  .POS_TRG_STAT_FIRES, .POS_TRG_VALH_VALUE, .POS_TRG_VALL_VALUE]⟩

theorem State.fireTriggers_within (s : State) (src : Nat) : Within State.fireTriggersWrites s (s.fireTriggers src) :=
  Within.foldl _ (fun _ _ => Within.ite _ ((State.trgFire_within ..).mono) (Within.refl _ _)) _ _

theorem State.disarmTarget_within (s : State) (ctx : Bool) (t : Nat) :
    Within ⟨[.regs], [.POS_TRG_CFG_EN]⟩ s (s.disarmTarget ctx t) := by
  unfold State.disarmTarget
  refine Within.foldl _ (fun t x => ?_) _ _
  extract_lets _
  exact Within.ite _ ((State.setF_within ..).mono) (Within.refl _ _)

theorem State.dropArmed_within (s : State) (c : Nat) : Within ⟨[.threads], []⟩ s (s.dropArmed c) := by
  unfold State.dropArmed
  refine Within.foldl _ (fun t x => ?_) _ _
  extract_lets _
  exact Within.ite _ ((State.setThread_within ..).mono) (Within.refl _ _)

/-- What `State.failEpw` may write. -/
def State.failEpwWrites : Writes := ⟨[.regs, .threads, .traces], [.CSQ_TH_PRED_P, .CSQ_TH_STAT_STATE, .CSQ_TH_STAT_WAITKIND]⟩

theorem State.failEpw_within (s : State) (c : Nat) : Within State.failEpwWrites s (s.failEpw c) := by
  unfold State.failEpw
  refine Within.foldl _ (fun t x => ?_) _ _
  split
  · exact Within.ite _ ((State.resume_within ..).mono) (Within.refl _ _)
  · exact Within.refl _ _

theorem State.countdown_within (s : State) (c : Nat) (f : Nat → Nat) : Within ⟨[.stations, .ctxs], []⟩ s (s.countdown c f) := by
  unfold State.countdown
  extract_lets _ _
  exact (State.setCtx_within ..).after ((Within.update [.stations] rfl).mono)

/-- What `State.closeCtx` may write. -/
def State.closeCtxWrites : Writes := ⟨[.regs, .stations, .ctxs, .threads, .traces], [.CSQ_TH_PRED_P, .CSQ_TH_STAT_STATE,
  .CSQ_TH_STAT_WAITKIND, .POS_TRG_CFG_EN]⟩

theorem State.closeCtx_within (s : State) (c : Nat) : Within State.closeCtxWrites s (s.closeCtx c) := by
  unfold State.closeCtx
  extract_lets s1 _ _
  have hs1 : Within State.closeCtxWrites s s1 := (State.countdown_within ..).mono
  refine Within.ite _ ?_ ?_
  · exact (State.disarmTarget_within ..).after ((State.dropArmed_within ..).after ((State.failEpw_within ..).after
    ((State.setCtx_within ..).after hs1)))
  · exact hs1

/-- What `State.cutBoundary` may write. -/
def State.cutBoundaryWrites : Writes := ⟨[.out, .regs, .stations, .ctxs, .threads, .fns, .pba, .traces], [.CSQ_TH_PRED_P,
  .CSQ_TH_STAT_STATE, .CSQ_TH_STAT_WAITKIND, .POS_TRG_CFG_EN, .SVC_DATA_WORD, .SVC_STAT_FULL, .SVC_STAT_LOST]⟩

theorem State.cutBoundary_within (s : State) (c : Nat) : Within State.cutBoundaryWrites s (s.cutBoundary c) := by
  unfold State.cutBoundary
  extract_lets _ _
  refine Within.ite _ ?_ ?_
  · exact (State.reclaimDone_within ..).after ((State.closeCtx_within ..).after ((State.setFn_within ..).mono))
  · exact Within.refl _ _

/-- What `State.fireBoundary` may write. -/
def State.fireBoundaryWrites : Writes := ⟨[.out, .regs, .sram, .ecc, .owls, .rings, .stations, .tiles, .tmvs, .ctxs,
  .scrubs, .trgAt, .threads, .flights, .groups, .snapHeld, .parts, .shadows, .weak, .fns, .pba, .events, .traces,
  .totals, .links], [.CMC_ECCADDR_OFFSET, .CMC_ECCCNT_CORR, .CMC_ECCCNT_UNCORR, .CMC_ECCSTAT_KIND, .CMC_ECCSTAT_MASTER,
  .CMC_ECCSTAT_OVERRUN, .CMC_ECCSTAT_SYNDROME, .CMC_ECCSTAT_VALID, .CMC_SLOT_BASE, .CMC_SLOT_STATE, .CMC_SLOT_STATION,
  .CMC_SLOT_TORN, .CSQ_TH_EXC_CODE, .CSQ_TH_EXC_OVERRUN, .CSQ_TH_EXC_PC, .CSQ_TH_EXC_VALID, .CSQ_TH_PRED_P,
  .CSQ_TH_RECCNT_COUNT, .CSQ_TH_STAT_PC, .CSQ_TH_STAT_STATE, .CSQ_TH_STAT_WAITKIND, .KMC_ECCADDR_OFFSET,
  .KMC_ECCCNT_CORR, .KMC_ECCCNT_UNCORR, .KMC_ECCSTAT_KIND, .KMC_ECCSTAT_MASTER, .KMC_ECCSTAT_OVERRUN,
  .KMC_ECCSTAT_SYNDROME, .KMC_ECCSTAT_VALID, .KMC_SLOT_BASE, .KMC_SLOT_STATE, .KMC_SLOT_STATION, .KMC_SLOT_TORN,
  .KMC_STN_LATECNT_COUNT, .KMC_STN_POISCNT_COUNT, .KMC_STN_SATCNT_COUNT, .KMC_STN_TORNCNT_COUNT, .KMC_STN_UNMATCH_COUNT,
  .OWL_SSTAT_STATE, .OWL_SSTAT_WARM, .POS_TRG_CFG_EN, .POS_TRG_STAT_FIRES, .POS_TRG_VALH_VALUE, .POS_TRG_VALL_VALUE,
  .SVC_DATA_WORD, .SVC_STAT_FULL, .SVC_STAT_LOST]⟩

theorem State.fireBoundary_within (s : State) (c v : Nat) : Within State.fireBoundaryWrites s (s.fireBoundary c v) := by
  unfold State.fireBoundary
  extract_lets _ s1
  have hs1 : Within State.fireBoundaryWrites s s1 := (State.setCtx_within ..).mono
  exact (State.cutBoundary_within ..).after ((State.countdown_within ..).after ((State.fireTriggers_within ..).after
    ((State.changeAll_within ..).after ((State.applyArmed_within ..).after ((State.releaseEpw_within ..).after hs1)))))

/-- What `State.fireMissed` may write. -/
def State.fireMissedWrites : Writes := ⟨[.out, .regs, .sram, .ecc, .owls, .rings, .stations, .tiles, .tmvs, .ctxs,
  .scrubs, .trgAt, .threads, .flights, .groups, .snapHeld, .parts, .shadows, .weak, .fns, .pba, .events, .traces,
  .totals, .links], [.CMC_ECCADDR_OFFSET, .CMC_ECCCNT_CORR, .CMC_ECCCNT_UNCORR, .CMC_ECCSTAT_KIND, .CMC_ECCSTAT_MASTER,
  .CMC_ECCSTAT_OVERRUN, .CMC_ECCSTAT_SYNDROME, .CMC_ECCSTAT_VALID, .CMC_SLOT_BASE, .CMC_SLOT_STATE, .CMC_SLOT_STATION,
  .CMC_SLOT_TORN, .CSQ_TH_EXC_CODE, .CSQ_TH_EXC_OVERRUN, .CSQ_TH_EXC_PC, .CSQ_TH_EXC_VALID, .CSQ_TH_PRED_P,
  .CSQ_TH_RECCNT_COUNT, .CSQ_TH_STAT_PC, .CSQ_TH_STAT_STATE, .CSQ_TH_STAT_WAITKIND, .KMC_ECCADDR_OFFSET,
  .KMC_ECCCNT_CORR, .KMC_ECCCNT_UNCORR, .KMC_ECCSTAT_KIND, .KMC_ECCSTAT_MASTER, .KMC_ECCSTAT_OVERRUN,
  .KMC_ECCSTAT_SYNDROME, .KMC_ECCSTAT_VALID, .KMC_SLOT_BASE, .KMC_SLOT_STATE, .KMC_SLOT_STATION, .KMC_SLOT_TORN,
  .KMC_STN_LATECNT_COUNT, .KMC_STN_POISCNT_COUNT, .KMC_STN_SATCNT_COUNT, .KMC_STN_TORNCNT_COUNT, .KMC_STN_UNMATCH_COUNT,
  .OWL_SSTAT_STATE, .OWL_SSTAT_WARM, .POS_CTX_STAT_MISSED, .POS_TRG_CFG_EN, .POS_TRG_STAT_FIRES, .POS_TRG_VALH_VALUE,
  .POS_TRG_VALL_VALUE, .SVC_DATA_WORD, .SVC_STAT_FULL, .SVC_STAT_LOST]⟩

theorem State.fireMissed_within (s : State) (c : Nat) (early : Bool) :
    Within State.fireMissedWrites s (s.fireMissed c early) := by
  unfold State.fireMissed
  extract_lets _ _ t _
  have ht : Within State.fireMissedWrites s t := (State.fireBoundary_within ..).after ((State.addHold_within ..).mono)
  exact Within.ite _ ht ((State.setCtx_within ..).after ht)

/-- What `State.fireDue` may write. -/
def State.fireDueWrites : Writes := ⟨[.out, .regs, .sram, .ecc, .owls, .rings, .stations, .tiles, .tmvs, .ctxs, .scrubs,
  .trgAt, .threads, .flights, .groups, .snapHeld, .parts, .shadows, .weak, .fns, .pba, .events, .traces, .totals,
  .links], [.CMC_ECCADDR_OFFSET, .CMC_ECCCNT_CORR, .CMC_ECCCNT_UNCORR, .CMC_ECCSTAT_KIND, .CMC_ECCSTAT_MASTER,
  .CMC_ECCSTAT_OVERRUN, .CMC_ECCSTAT_SYNDROME, .CMC_ECCSTAT_VALID, .CMC_SLOT_BASE, .CMC_SLOT_STATE, .CMC_SLOT_STATION,
  .CMC_SLOT_TORN, .CSQ_TH_EXC_CODE, .CSQ_TH_EXC_OVERRUN, .CSQ_TH_EXC_PC, .CSQ_TH_EXC_VALID, .CSQ_TH_PRED_P,
  .CSQ_TH_RECCNT_COUNT, .CSQ_TH_STAT_PC, .CSQ_TH_STAT_STATE, .CSQ_TH_STAT_WAITKIND, .KMC_ECCADDR_OFFSET,
  .KMC_ECCCNT_CORR, .KMC_ECCCNT_UNCORR, .KMC_ECCSTAT_KIND, .KMC_ECCSTAT_MASTER, .KMC_ECCSTAT_OVERRUN,
  .KMC_ECCSTAT_SYNDROME, .KMC_ECCSTAT_VALID, .KMC_SLOT_BASE, .KMC_SLOT_STATE, .KMC_SLOT_STATION, .KMC_SLOT_TORN,
  .KMC_STN_LATECNT_COUNT, .KMC_STN_POISCNT_COUNT, .KMC_STN_SATCNT_COUNT, .KMC_STN_TORNCNT_COUNT, .KMC_STN_UNMATCH_COUNT,
  .OWL_SSTAT_STATE, .OWL_SSTAT_WARM, .POS_CTX_STAT_MISSED, .POS_TRG_CFG_EN, .POS_TRG_STAT_FIRES, .POS_TRG_VALH_VALUE,
  .POS_TRG_VALL_VALUE, .SVC_DATA_WORD, .SVC_STAT_FULL, .SVC_STAT_LOST]⟩

theorem State.fireDue_within (s : State) (c : Nat) : Within State.fireDueWrites s (s.fireDue c) := by
  unfold State.fireDue
  refine Within.ite _ (Within.ite _ ((State.fireBoundary_within ..).mono) (Within.refl _ _)) ?_
  split
  · exact (State.fireMissed_within ..).mono
  · exact Within.refl _ _

/-- What `State.syncJudge` may write. -/
def State.syncJudgeWrites : Writes := ⟨[.out, .regs, .sram, .ecc, .owls, .rings, .stations, .tiles, .tmvs, .ctxs,
  .scrubs, .trgAt, .threads, .flights, .groups, .snapHeld, .parts, .shadows, .weak, .fns, .pba, .events, .traces,
  .totals, .links], [.CMC_ECCADDR_OFFSET, .CMC_ECCCNT_CORR, .CMC_ECCCNT_UNCORR, .CMC_ECCSTAT_KIND, .CMC_ECCSTAT_MASTER,
  .CMC_ECCSTAT_OVERRUN, .CMC_ECCSTAT_SYNDROME, .CMC_ECCSTAT_VALID, .CMC_SLOT_BASE, .CMC_SLOT_STATE, .CMC_SLOT_STATION,
  .CMC_SLOT_TORN, .CSQ_TH_EXC_CODE, .CSQ_TH_EXC_OVERRUN, .CSQ_TH_EXC_PC, .CSQ_TH_EXC_VALID, .CSQ_TH_PRED_P,
  .CSQ_TH_RECCNT_COUNT, .CSQ_TH_STAT_PC, .CSQ_TH_STAT_STATE, .CSQ_TH_STAT_WAITKIND, .KMC_ECCADDR_OFFSET,
  .KMC_ECCCNT_CORR, .KMC_ECCCNT_UNCORR, .KMC_ECCSTAT_KIND, .KMC_ECCSTAT_MASTER, .KMC_ECCSTAT_OVERRUN,
  .KMC_ECCSTAT_SYNDROME, .KMC_ECCSTAT_VALID, .KMC_SLOT_BASE, .KMC_SLOT_STATE, .KMC_SLOT_STATION, .KMC_SLOT_TORN,
  .KMC_STN_LATECNT_COUNT, .KMC_STN_POISCNT_COUNT, .KMC_STN_SATCNT_COUNT, .KMC_STN_TORNCNT_COUNT, .KMC_STN_UNMATCH_COUNT,
  .OWL_SSTAT_STATE, .OWL_SSTAT_WARM, .POS_CTX_STAT_MISSED, .POS_CTX_STAT_OUTWIN, .POS_TRG_CFG_EN, .POS_TRG_STAT_FIRES,
  .POS_TRG_VALH_VALUE, .POS_TRG_VALL_VALUE, .SVC_DATA_WORD, .SVC_STAT_FULL, .SVC_STAT_LOST]⟩

theorem State.syncJudge_within (s : State) (c : Nat) : Within State.syncJudgeWrites s (s.syncJudge c) := by
  unfold State.syncJudge
  extract_lets _ _ _ s1
  have hs1 : Within State.syncJudgeWrites s s1 := Within.ite _ ((State.fireDue_within ..).mono) (Within.refl _ _)
  refine Within.ite _ ?_ ?_
  · exact (State.setCtx_within ..).after ((State.setF_within ..).mono)
  · exact Within.ite _ ((State.fireBoundary_within ..).after hs1) ((State.addHold_within ..).after hs1)

theorem State.trgFree_within (s : State) (m : Nat) : Within ⟨[.regs], [.POS_TRG_CFG_EN, .POS_TRG_STAT_OWNER]⟩ s (s.trgFree m) :=
  (State.setF_within ..).after ((State.setF_within ..).mono)

theorem State.freeTriggers_within (s : State) (fn : Nat) :
    Within ⟨[.regs], [.POS_TRG_CFG_EN, .POS_TRG_STAT_OWNER]⟩ s (s.freeTriggers fn) :=
  Within.foldl _ (fun _ _ => Within.ite _ ((State.trgFree_within ..).mono) (Within.refl _ _)) _ _

theorem State.takeAccepted_within (s : State) (fn : Nat) (e : List Word) :
    Within ⟨[.fns, .accepted], []⟩ s (s.takeAccepted fn e) := by
  unfold State.takeAccepted
  extract_lets _
  exact (State.setFn_within ..).after ((Within.update [.accepted] rfl).mono)

/-- What `State.answer` may write. -/
def State.answerWrites : Writes := ⟨[.out, .regs, .fns, .pba], [.CPL_TAIL_INDEX]⟩

theorem State.answer_within (s : State) (fn : Nat) (e : List Word) (code value : Nat) :
    Within State.answerWrites s (s.answer fn e code value) :=
  (State.complete_within ..).mono

/-- What `State.openCtx` may write. -/
def State.openCtxWrites : Writes := ⟨[.regs, .ctxs, .offers, .placed], [.POS_CTX_STAT_MISSED, .POS_CTX_STAT_OUTWIN,
  .SCTL_WORD, .SGT_CTX_DROPCNT_COUNT]⟩

theorem State.openCtx_within (s : State) (fn c : Nat) (p : OpenParams) : Within State.openCtxWrites s (s.openCtx fn c p) := by
  unfold State.openCtx
  extract_lets _ _ _ _ _ _ _ s1 s2
  have hs1 : Within State.openCtxWrites s s1 := (State.setCtx_within ..).after ((Within.update [.offers, .placed] rfl).mono)
  have hs2 : Within State.openCtxWrites s s2 := (State.setF_within ..).after ((State.setF_within ..).after
    ((State.setF_within ..).after hs1))
  exact (State.setF_within ..).after hs2

/-- What `State.closeCommand` may write. -/
def State.closeCommandWrites : Writes := ⟨[.out, .regs, .stations, .ctxs, .threads, .fns, .pba, .traces],
  [.CPL_TAIL_INDEX, .CSQ_TH_PRED_P, .CSQ_TH_STAT_STATE, .CSQ_TH_STAT_WAITKIND, .POS_TRG_CFG_EN, .SVC_DATA_WORD,
  .SVC_STAT_FULL, .SVC_STAT_LOST]⟩

theorem State.closeCommand_within (s : State) (fn : Nat) (e : List Word) :
    Within State.closeCommandWrites s (s.closeCommand fn e) := by
  unfold State.closeCommand
  extract_lets _ _ _ s1
  have hs1 : Within State.closeCommandWrites s s1 := Within.ite _ ((State.setCtx_within ..).mono) (Within.refl _ _)
  refine Within.ite _ ((State.answer_within ..).mono) ?_
  refine Within.ite _ ?_ ?_
  · exact (State.answer_within ..).mono
  · exact (State.answer_within ..).after ((State.reclaimFit_within ..).after ((State.closeCtx_within ..).after hs1))

theorem State.postResult_within (s : State) (fn c r : Nat) : Within ⟨[.regs], [.SCTL_WORD]⟩ s (s.postResult fn c r) := by
  unfold State.postResult
  extract_lets _
  exact (State.setF_within ..).mono

theorem State.lapse_within (s : State) (c : Nat) : Within ⟨[.offers], []⟩ s (s.lapse c) := by
  unfold State.lapse
  refine Within.foldl _ (fun t x => ?_) _ _
  extract_lets _
  exact Within.ite _ ((Within.update [.offers] rfl).mono) (Within.refl _ _)

/-- What `State.ingestWrite` may write. -/
def State.ingestWriteWrites : Writes := ⟨[.fresh, .out, .regs, .sram, .ecc, .owls, .rings, .ctxs, .pba, .events, .traces,
  .points, .totals], [.CMC_ECCADDR_OFFSET, .CMC_ECCCNT_CORR, .CMC_ECCCNT_UNCORR, .CMC_ECCSTAT_KIND, .CMC_ECCSTAT_MASTER,
  .CMC_ECCSTAT_OVERRUN, .CMC_ECCSTAT_SYNDROME, .CMC_ECCSTAT_VALID, .CMC_SLOT_STATE, .CMC_SLOT_TORN, .KMC_ECCADDR_OFFSET,
  .KMC_ECCCNT_CORR, .KMC_ECCCNT_UNCORR, .KMC_ECCSTAT_KIND, .KMC_ECCSTAT_MASTER, .KMC_ECCSTAT_OVERRUN,
  .KMC_ECCSTAT_SYNDROME, .KMC_ECCSTAT_VALID, .KMC_SLOT_STATE, .KMC_SLOT_TORN, .KMC_STN_LATECNT_COUNT,
  .KMC_STN_POISCNT_COUNT, .KMC_STN_SATCNT_COUNT, .KMC_STN_TORNCNT_COUNT, .KMC_STN_UNMATCH_COUNT, .OBS_TW_FLAGT_PROV,
  .OBS_TW_FLAGT_SAT, .OBS_TW_FSEQ_VALUE, .OBS_TW_LSEQ_VALUE, .OBS_TW_R_VALUE, .OBS_TW_STAT_CLOSED,
  .OBS_TW_STAT_INCOMPLETE, .OBS_TW_STAT_MIXED, .OWL_SALMCNT_COUNT, .OWL_SMAX_VALUE, .OWL_SMEAN_VALUE, .OWL_SMIN_VALUE,
  .OWL_SSTAT_ALARM, .OWL_SSTAT_EMPTY, .OWL_SSTAT_HARD, .OWL_SSTAT_SATN, .OWL_SSTAT_STATE, .OWL_SSTAT_WARM, .OWL_SVAR_VALUE]⟩

theorem State.ingestWrite_within (s : State) (j : Ingest) (t : IngestTile) (h : SlotRef) :
    Within State.ingestWriteWrites s (s.ingestWrite j t h) := by
  unfold State.ingestWrite
  extract_lets _ _ _ _ _ _ s1 w _ s2 s3 s4 s5
  have hs1 : Within State.ingestWriteWrites s s1 := (State.stepWr_within ..).after ((State.setSlot_within ..).mono)
  have hw : Within State.ingestWriteWrites s w.1 := (State.writeMem_within ..).after hs1
  have hs2 : Within State.ingestWriteWrites s s2 := (State.writeMem_within ..).after hw
  have hs3 : Within State.ingestWriteWrites s s3 := (State.setCtx_within ..).after hs2
  have hs4 : Within State.ingestWriteWrites s s4 := (State.count_within ..).after ((State.count_within ..).after hs3)
  have hs5 : Within State.ingestWriteWrites s s5 := Within.trans hs4 (Within.foldl _ (fun _ _ =>
    (State.owlTake_within ..).mono) _ _)
  exact (State.fillSlot_within ..).after ((State.pointsTake_within ..).after hs5)

/-- What `State.ingestFlush` may write. -/
def State.ingestFlushWrites : Writes := ⟨[.fresh, .out, .regs, .sram, .ecc, .owls, .rings, .ctxs, .pba, .events, .traces,
  .points, .totals], [.CMC_ECCADDR_OFFSET, .CMC_ECCCNT_CORR, .CMC_ECCCNT_UNCORR, .CMC_ECCSTAT_KIND, .CMC_ECCSTAT_MASTER,
  .CMC_ECCSTAT_OVERRUN, .CMC_ECCSTAT_SYNDROME, .CMC_ECCSTAT_VALID, .CMC_SLOT_STATE, .CMC_SLOT_TORN, .KMC_ECCADDR_OFFSET,
  .KMC_ECCCNT_CORR, .KMC_ECCCNT_UNCORR, .KMC_ECCSTAT_KIND, .KMC_ECCSTAT_MASTER, .KMC_ECCSTAT_OVERRUN,
  .KMC_ECCSTAT_SYNDROME, .KMC_ECCSTAT_VALID, .KMC_SLOT_STATE, .KMC_SLOT_TORN, .KMC_STN_LATECNT_COUNT,
  .KMC_STN_POISCNT_COUNT, .KMC_STN_SATCNT_COUNT, .KMC_STN_TORNCNT_COUNT, .KMC_STN_UNMATCH_COUNT, .OBS_TW_FLAGT_PROV,
  .OBS_TW_FLAGT_SAT, .OBS_TW_FSEQ_VALUE, .OBS_TW_LSEQ_VALUE, .OBS_TW_R_VALUE, .OBS_TW_STAT_CLOSED,
  .OBS_TW_STAT_INCOMPLETE, .OBS_TW_STAT_MIXED, .OWL_SALMCNT_COUNT, .OWL_SMAX_VALUE, .OWL_SMEAN_VALUE, .OWL_SMIN_VALUE,
  .OWL_SSTAT_ALARM, .OWL_SSTAT_EMPTY, .OWL_SSTAT_HARD, .OWL_SSTAT_SATN, .OWL_SSTAT_STATE, .OWL_SSTAT_WARM, .OWL_SVAR_VALUE]⟩

theorem State.ingestFlush_within (s : State) (j : Ingest) (h : SlotRef) (ts : List IngestTile) :
    Within State.ingestFlushWrites s (s.ingestFlush j h ts).1 := by
  induction ts generalizing s with
  | nil => exact Within.refl _ _
  | cons t ts ih =>
    unfold State.ingestFlush
    dsimp only
    split
    · exact Within.refl _ _
    · split
      · exact (ih _).after ((State.ingestWrite_within ..).mono)
      · exact (State.foreignCapture_within ..).mono

theorem State.gateRest_within (s : State) (st : Nat) (ended : Bool) : Within ⟨[.stations], []⟩ s (s.gateRest st ended) := by
  unfold State.gateRest
  extract_lets _
  exact Within.ite _ (Within.refl _ _) ((State.leaveTile_within ..).mono)

/-- What `State.sentTiles` may write. -/
def State.sentTilesWrites : Writes := ⟨[.regs, .stations, .links], [.CMC_SLOT_STATE, .KMC_SLOT_STATE]⟩

theorem State.sentTiles_within (s : State) (p : Nat) : Within State.sentTilesWrites s (s.sentTiles p) := by
  unfold State.sentTiles
  extract_lets _ _ _ s1 s2
  have hs1 : Within State.sentTilesWrites s s1 := Within.foldl _ (fun _ _ => (State.emptySlot_within ..).mono) _ _
  have hs2 : Within State.sentTilesWrites s s2 := (State.setLink_within ..).after hs1
  exact Within.trans hs2 (Within.foldl _ (fun _ _ => Within.ite _ (Within.refl _ _) ((State.leaveTile_within ..).mono)) _ _)

/-- What `State.acked` may write. -/
def State.ackedWrites : Writes := ⟨[.out, .regs, .stations, .links], [.CMC_SLOT_STATE, .KMC_SLOT_STATE]⟩

theorem State.acked_within (s : State) (p a : Nat) : Within State.ackedWrites s (s.acked p a) := by
  unfold State.acked
  extract_lets _ _ _ _
  refine Within.ite _ ?_ ?_
  · exact (State.sendHeld_within ..).after ((State.sentTiles_within ..).after ((State.setLink_within ..).mono))
  · exact Within.refl _ _

theorem State.resend_within (s : State) (p : Nat) (f : SentFlit) : Within ⟨[.out], []⟩ s (s.resend p f) :=
  (State.emit_within ..).mono

/-- What `State.unsend` may write. -/
def State.unsendWrites : Writes := ⟨[.regs, .rings, .stations, .links], [.CMC_SLOT_STATE, .KMC_SLOT_STATE]⟩

theorem State.unsend_within (s : State) (p : Nat) : Within State.unsendWrites s (s.unsend p) := by
  unfold State.unsend
  extract_lets _ s1
  have hs1 : Within State.unsendWrites s s1 := Within.foldl _ (fun _ _ => (State.leaveTile_within ..).after
    ((State.setRing_within ..).after ((State.setSlot_within ..).mono))) _ _
  exact (State.setLink_within ..).after hs1

/-- What `State.tearOpen` may write. -/
def State.tearOpenWrites : Writes := ⟨[.fresh, .out, .regs, .sram, .ecc, .rings, .stations, .pba, .events, .traces,
  .totals, .links], [.CMC_SLOT_STATE, .CMC_SLOT_TORN, .KMC_SLOT_STATE, .KMC_SLOT_TORN, .KMC_STN_LATECNT_COUNT,
  .KMC_STN_POISCNT_COUNT, .KMC_STN_SATCNT_COUNT, .KMC_STN_TORNCNT_COUNT, .KMC_STN_UNMATCH_COUNT]⟩

theorem State.tearOpen_within (s : State) (p : Nat) : Within State.tearOpenWrites s (s.tearOpen p) := by
  unfold State.tearOpen
  extract_lets _ s1 _
  have hs1 : Within State.tearOpenWrites s s1 := by
    unfold s1
    refine Within.foldl _ (fun t x => ?_) _ _
    split
    · exact (State.leaveTile_within ..).after ((State.tear_within ..).mono)
    · exact Within.refl _ _
  exact (State.setLink_within ..).after hs1

theorem State.staleOfs_within (s : State) (p : Nat) : Within ⟨[.regs], [.LNK_OFSVAL_VALID]⟩ s (s.staleOfs p) := by
  unfold State.staleOfs
  extract_lets _
  exact (State.setF_within ..).mono

/-- What `State.portLoses` may write. -/
def State.portLosesWrites : Writes := ⟨[.fresh, .out, .regs, .sram, .ecc, .rings, .stations, .threads, .groups, .snaps,
  .pba, .events, .traces, .totals, .links, .wakes], [.CMC_SLOT_STATE, .CMC_SLOT_TORN, .CSQ_TH_PRED_P, .CSQ_TH_STAT_STATE,
  .CSQ_TH_STAT_WAITKIND, .KMC_SLOT_STATE, .KMC_SLOT_TORN, .KMC_STN_LATECNT_COUNT, .KMC_STN_POISCNT_COUNT,
  .KMC_STN_SATCNT_COUNT, .KMC_STN_TORNCNT_COUNT, .KMC_STN_UNMATCH_COUNT, .LNK_OFSVAL_VALID, .MBX_CH_DATA_WORD,
  .MBX_CH_STAT_DISCARD, .MBX_CH_STAT_FULL]⟩

theorem State.portLoses_within (s : State) (p : Nat) : Within State.portLosesWrites s (s.portLoses p) := by
  unfold State.portLoses
  extract_lets s1 _ _ s2 s3 s4
  have hs1 : Within State.portLosesWrites s s1 := (State.tearOpen_within ..).after ((State.unsend_within ..).mono)
  have hs2 : Within State.portLosesWrites s s2 := (State.setLink_within ..).after hs1
  have hs3 : Within State.portLosesWrites s s3 := Within.trans hs2 (Within.foldl _ (fun _ _ => Within.ite _
    ((State.endInstance_within ..).mono) (Within.refl _ _)) _ _)
  have hs4 : Within State.portLosesWrites s s4 := Within.trans hs3 (Within.foldl _ (fun _ _ => Within.ite _
    ((State.mbxEmpty_within ..).mono) (Within.refl _ _)) _ _)
  exact (State.staleOfs_within ..).after hs4

/-- What `State.portDown` may write. -/
def State.portDownWrites : Writes := ⟨[.fresh, .out, .regs, .sram, .ecc, .rings, .stations, .threads, .groups, .snaps,
  .pba, .events, .traces, .totals, .links, .wakes], [.CMC_SLOT_STATE, .CMC_SLOT_TORN, .CSQ_TH_PRED_P, .CSQ_TH_STAT_STATE,
  .CSQ_TH_STAT_WAITKIND, .KMC_SLOT_STATE, .KMC_SLOT_TORN, .KMC_STN_LATECNT_COUNT, .KMC_STN_POISCNT_COUNT,
  .KMC_STN_SATCNT_COUNT, .KMC_STN_TORNCNT_COUNT, .KMC_STN_UNMATCH_COUNT, .LNK_OFSVAL_VALID, .LNK_PDOWNCNT_COUNT,
  .LNK_PSTAT_LANES, .LNK_PSTAT_STATE, .MBX_CH_DATA_WORD, .MBX_CH_STAT_DISCARD, .MBX_CH_STAT_FULL]⟩

theorem State.portDown_within (s : State) (p next : Nat) : Within State.portDownWrites s (s.portDown p next) := by
  unfold State.portDown
  extract_lets _ s1 _
  have hs1 : Within State.portDownWrites s s1 := (State.addHold_within ..).after ((State.portLoses_within ..).mono)
  refine Within.ite _ ?_ ?_
  · exact (State.raise_within ..).after ((State.setF_within ..).after ((State.setF_within ..).after hs1))
  · exact Within.ite _ ((State.setLink_within ..).after ((State.setF_within ..).mono)) (Within.refl _ _)

theorem State.giveCredit_within (s : State) (p : Nat) (h : SlotRef) : Within ⟨[.out, .links], []⟩ s (s.giveCredit p h) := by
  unfold State.giveCredit
  extract_lets _ _ _ _
  exact Within.ite _ ((State.sendFrame_within ..).after ((State.setLink_within ..).mono)) (Within.refl _ _)

theorem State.giveCredits_within (s : State) (p : Nat) : Within ⟨[.out, .links], []⟩ s (s.giveCredits p) := by
  unfold State.giveCredits
  refine Within.ite _ ?_ ?_
  · exact Within.foldl _ (fun _ _ => Within.foldl _ (fun _ _ => Within.ite _ ((State.giveCredit_within ..).mono)
    (Within.refl _ _)) _ _) _ _
  · exact Within.refl _ _

theorem State.mergeDomain_within (s : State) (p : Nat) (es : List (Nat × List Byte)) :
    Within ⟨[.domain], []⟩ s (s.mergeDomain p es) :=
  Within.foldl _ (fun _ _ => Within.ite _ (Within.refl _ _) ((Within.update [.domain] rfl).mono)) _ _

/-- What `State.takeId` may write. -/
def State.takeIdWrites : Writes := ⟨[.out, .regs, .links, .domain], [.LNK_PSTAT_PEER, .LNK_PSTAT_REASON, .LNK_PSTAT_STATE]⟩

theorem State.takeId_within (t : State) (p : Nat) (f : Flit) : Within State.takeIdWrites t (t.takeId p f) := by
  unfold State.takeId
  extract_lets _ t1 _
  have ht1 : Within State.takeIdWrites t t1 := (State.setF_within ..).after ((State.mergeDomain_within ..).mono)
  refine Within.ite _ (Within.refl _ _) ?_
  split
  · exact (State.setF_within ..).after ((State.setF_within ..).mono)
  · exact (State.sendFrame_within ..).after ((State.setLink_within ..).after ((State.setF_within ..).after ht1))

/-- What `State.setOffset` may write. -/
def State.setOffsetWrites : Writes := ⟨[.fresh, .regs, .links, .offsets], [.LNK_OFSVAL_VALID]⟩

theorem State.setOffset_within (s : State) (p : Nat) (xs : List (Int × Int)) (drift : Bool) :
    Within State.setOffsetWrites s (s.setOffset p xs drift) := by
  unfold State.setOffset
  extract_lets _ _ _ src
  have hsrc : Within State.setOffsetWrites s src := (State.burn_within ..).mono
  split
  · extract_lets _ s1 s2
    have hs1 : Within State.setOffsetWrites s s1 := Within.after (Within.update [.offsets] rfl) hsrc
    have hs2 : Within State.setOffsetWrites s s2 := (State.setLink_within ..).after hs1
    exact (State.setF_within ..).after hs2
  · exact Within.refl _ _

theorem State.setDelay_within (s : State) (p : Nat) (d : Int) : Within ⟨[.regs], [.LNK_PDLY_DELAY]⟩ s (s.setDelay p d) :=
  (State.setF_within ..).mono

theorem State.farOffsets_within (s : State) : Within ⟨[.fresh, .offsets], []⟩ s (s.farOffsets) := by
  unfold State.farOffsets
  refine Within.foldl _ (fun t x => ?_) _ _
  extract_lets _ src
  have hsrc : Within ⟨[.fresh, .offsets], []⟩ t src := (State.burn_within ..).mono
  split
  · exact Within.ite _ (Within.refl _ _) (Within.after (Within.update [.offsets] rfl) hsrc)
  · exact Within.refl _ _

/-- What `State.rxTile` may write. -/
def State.rxTileWrites : Writes := ⟨[.fresh, .out, .regs, .sram, .ecc, .owls, .rings, .stations, .pba, .events, .traces,
  .points, .totals], [.CMC_ECCADDR_OFFSET, .CMC_ECCCNT_CORR, .CMC_ECCCNT_UNCORR, .CMC_ECCSTAT_KIND, .CMC_ECCSTAT_MASTER,
  .CMC_ECCSTAT_OVERRUN, .CMC_ECCSTAT_SYNDROME, .CMC_ECCSTAT_VALID, .CMC_SLOT_STATE, .CMC_SLOT_TORN, .KMC_ECCADDR_OFFSET,
  .KMC_ECCCNT_CORR, .KMC_ECCCNT_UNCORR, .KMC_ECCSTAT_KIND, .KMC_ECCSTAT_MASTER, .KMC_ECCSTAT_OVERRUN,
  .KMC_ECCSTAT_SYNDROME, .KMC_ECCSTAT_VALID, .KMC_SLOT_STATE, .KMC_SLOT_TORN, .KMC_STN_LATECNT_COUNT,
  .KMC_STN_POISCNT_COUNT, .KMC_STN_SATCNT_COUNT, .KMC_STN_TORNCNT_COUNT, .KMC_STN_UNMATCH_COUNT, .OBS_TW_FLAGT_PROV,
  .OBS_TW_FLAGT_SAT, .OBS_TW_FSEQ_VALUE, .OBS_TW_LSEQ_VALUE, .OBS_TW_R_VALUE, .OBS_TW_STAT_CLOSED,
  .OBS_TW_STAT_INCOMPLETE, .OBS_TW_STAT_MIXED, .OWL_SALMCNT_COUNT, .OWL_SMAX_VALUE, .OWL_SMEAN_VALUE, .OWL_SMIN_VALUE,
  .OWL_SSTAT_ALARM, .OWL_SSTAT_EMPTY, .OWL_SSTAT_HARD, .OWL_SSTAT_SATN, .OWL_SSTAT_STATE, .OWL_SSTAT_WARM, .OWL_SVAR_VALUE]⟩

theorem State.rxTile_within (s : State) (p st src : Nat) (o : RxTile) : Within State.rxTileWrites s (s.rxTile p st src o) := by
  unfold State.rxTile
  extract_lets _ _ _ _ _ _ _ _ w src1 s1 _ _ _ _ s2 s3 s4
  have hw : Within State.rxTileWrites s w.1 := (State.writeMem_within ..).mono
  have hsrc1 : Within State.rxTileWrites s src1 := hw
  have hs1 : Within State.rxTileWrites s s1 := Within.ite _ (Within.after (Within.update [.fresh] rfl) hsrc1) hw
  have hs2 : Within State.rxTileWrites s s2 := (State.writeMem_within ..).after hs1
  have hs3 : Within State.rxTileWrites s s3 := (State.count_within ..).after ((State.count_within ..).after
    ((State.count_within ..).after hs2))
  have hs4 : Within State.rxTileWrites s s4 := Within.ite _ hs3 (Within.trans hs3 (Within.foldl _ (fun _ _ =>
    (State.owlTake_within ..).mono) _ _))
  exact (State.leaveTile_within ..).after ((State.fillSlot_within ..).after ((State.pointsTake_within ..).after hs4))

/-- What `State.sendTile` may write. -/
def State.sendTileWrites : Writes := ⟨[.out, .regs, .rings, .stations, .scrubs, .pba, .events, .traces, .totals, .links],
  [.CMC_ECCADDR_OFFSET, .CMC_ECCCNT_CORR, .CMC_ECCCNT_UNCORR, .CMC_ECCSTAT_KIND, .CMC_ECCSTAT_MASTER,
  .CMC_ECCSTAT_OVERRUN, .CMC_ECCSTAT_SYNDROME, .CMC_ECCSTAT_VALID, .CMC_SLOT_STATE, .KMC_ECCADDR_OFFSET,
  .KMC_ECCCNT_CORR, .KMC_ECCCNT_UNCORR, .KMC_ECCSTAT_KIND, .KMC_ECCSTAT_MASTER, .KMC_ECCSTAT_OVERRUN,
  .KMC_ECCSTAT_SYNDROME, .KMC_ECCSTAT_VALID, .KMC_SLOT_STATE, .LNK_PSATCNT_COUNT]⟩

theorem State.sendTile_within (s : State) (p st : Nat) (h : SlotRef) : Within State.sendTileWrites s (s.sendTile p st h) := by
  unfold State.sendTile
  extract_lets _ _ _ s1 _ s2 s3 s4 _
  have hs1 : Within State.sendTileWrites s s1 := (State.readEcc_within ..).mono
  have hs2 : Within State.sendTileWrites s s2 := (State.addHold_within ..).after ((State.enterTile_within ..).after
    ((State.stepRd_within ..).after ((State.setSlot_within ..).after hs1)))
  have hs3 : Within State.sendTileWrites s s3 := (State.sendFrame_within ..).after hs2
  have hs4 : Within State.sendTileWrites s s4 := Within.trans hs3 (Within.foldl _ (fun _ _ =>
    (State.sendFrame_within ..).mono) _ _)
  exact (State.setLink_within ..).after hs4

/-- What `State.dropTorn` may write. -/
def State.dropTornWrites : Writes := ⟨[.out, .regs, .rings, .pba, .events, .traces, .totals], [.CMC_SLOT_STATE,
  .CMC_SLOT_TORN, .KMC_SLOT_STATE, .KMC_SLOT_TORN, .KMC_STN_LATECNT_COUNT, .KMC_STN_POISCNT_COUNT, .KMC_STN_SATCNT_COUNT,
  .KMC_STN_TORNCNT_COUNT, .KMC_STN_UNMATCH_COUNT]⟩

theorem State.dropTorn_within (s : State) (st : Nat) (h : SlotRef) : Within State.dropTornWrites s (s.dropTorn st h) := by
  unfold State.dropTorn
  extract_lets _
  exact (State.stepRd_within ..).after ((State.emptySlot_within ..).after ((State.tornTaken_within ..).mono))

theorem State.takeRound_within (s : State) (g inst k : Nat) : Within ⟨[.groups], []⟩ s (s.takeRound g inst k) := by
  unfold State.takeRound
  extract_lets _
  split
  · refine Within.ite _ ?_ ?_
    · exact (State.setGroup_within ..).mono
    · exact Within.ite _ ((State.setGroup_within ..).mono) (Within.refl _ _)
  · exact Within.ite _ ((State.setGroup_within ..).mono) (Within.refl _ _)

/-- What `State.tmvRefuse` may write. -/
def State.tmvRefuseWrites : Writes := ⟨[.regs, .tmvs], [.CMC_SLOT_STATE, .KMC_SLOT_STATE, .TMV_ERR_COUNT]⟩

theorem State.tmvRefuse_within (s : State) (core : Nat) (m : Tmv) (x : Xfer) :
    Within State.tmvRefuseWrites s (s.tmvRefuse core m x) := by
  unfold State.tmvRefuse
  extract_lets _
  exact (State.addHold_within ..).after ((State.setSlot_within ..).after ((State.setTmv_within ..).mono))

/-- What `State.carry` may write. -/
def State.carryWrites : Writes := ⟨[.out, .regs, .sram, .ecc, .scrubs, .pba, .events, .traces, .totals],
  [.CMC_ECCADDR_OFFSET, .CMC_ECCCNT_CORR, .CMC_ECCCNT_UNCORR, .CMC_ECCSTAT_KIND, .CMC_ECCSTAT_MASTER,
  .CMC_ECCSTAT_OVERRUN, .CMC_ECCSTAT_SYNDROME, .CMC_ECCSTAT_VALID, .CMC_SLOT_TORN, .KMC_ECCADDR_OFFSET, .KMC_ECCCNT_CORR,
  .KMC_ECCCNT_UNCORR, .KMC_ECCSTAT_KIND, .KMC_ECCSTAT_MASTER, .KMC_ECCSTAT_OVERRUN, .KMC_ECCSTAT_SYNDROME,
  .KMC_ECCSTAT_VALID, .KMC_SLOT_TORN]⟩

theorem State.carry_within (s : State) (master : Nat) (dst src : SlotRef) :
    Within State.carryWrites s (s.carry master dst src).1 := by
  unfold State.carry
  extract_lets _ _ _ _ s1 s2 _ _ w
  have hs1 : Within State.carryWrites s s1 := (State.moveBytes_within ..).mono
  have hs2 : Within State.carryWrites s s2 := (State.readEcc_within ..).after hs1
  have hw : Within State.carryWrites s w.1 := (State.writeMem_within ..).after hs2
  exact (State.setTorn_within ..).after hw

/-- What `State.tmvTear` may write. -/
def State.tmvTearWrites : Writes := ⟨[.fresh, .out, .regs, .sram, .ecc, .rings, .tmvs, .scrubs, .pba, .events, .traces,
  .totals], [.CMC_ECCADDR_OFFSET, .CMC_ECCCNT_CORR, .CMC_ECCCNT_UNCORR, .CMC_ECCSTAT_KIND, .CMC_ECCSTAT_MASTER,
  .CMC_ECCSTAT_OVERRUN, .CMC_ECCSTAT_SYNDROME, .CMC_ECCSTAT_VALID, .CMC_SLOT_STATE, .CMC_SLOT_TORN, .KMC_ECCADDR_OFFSET,
  .KMC_ECCCNT_CORR, .KMC_ECCCNT_UNCORR, .KMC_ECCSTAT_KIND, .KMC_ECCSTAT_MASTER, .KMC_ECCSTAT_OVERRUN,
  .KMC_ECCSTAT_SYNDROME, .KMC_ECCSTAT_VALID, .KMC_SLOT_STATE, .KMC_SLOT_TORN, .KMC_STN_LATECNT_COUNT,
  .KMC_STN_POISCNT_COUNT, .KMC_STN_SATCNT_COUNT, .KMC_STN_TORNCNT_COUNT, .KMC_STN_UNMATCH_COUNT]⟩

theorem State.tmvTear_within (s : State) (core : Nat) : Within State.tmvTearWrites s (s.tmvTear core) := by
  unfold State.tmvTear
  extract_lets _
  split
  · extract_lets _ s1
    have hs1 : Within State.tmvTearWrites s s1 := (State.tear_within ..).after ((State.moveBytes_within ..).after
      ((State.burn_within ..).mono))
    exact (State.setTmv_within ..).after ((State.emptySlot_within ..).after ((State.setTorn_within ..).after hs1))
  · exact Within.refl _ _

/-- What `State.tmvLost` may write. -/
def State.tmvLostWrites : Writes := ⟨[.regs, .tmvs], [.CMC_SLOT_STATE, .KMC_SLOT_STATE, .TMV_ERR_COUNT]⟩

theorem State.tmvLost_within (s : State) (core : Nat) : Within State.tmvLostWrites s (s.tmvLost core) := by
  unfold State.tmvLost
  extract_lets _
  split
  · exact (State.tmvRefuse_within ..).mono
  · exact Within.refl _ _

/-- What `State.ringLose` may write. -/
def State.ringLoseWrites : Writes := ⟨[.regs, .rings, .totals], [.CMC_SLOT_STATE, .CMC_SLOT_TORN, .KMC_SLOT_STATE,
  .KMC_SLOT_TORN, .KMC_STN_LATECNT_COUNT, .KMC_STN_POISCNT_COUNT, .KMC_STN_SATCNT_COUNT, .KMC_STN_TORNCNT_COUNT,
  .KMC_STN_UNMATCH_COUNT]⟩

theorem State.ringLose_within (s : State) (h : SlotRef) : Within State.ringLoseWrites s (s.ringLose h) := by
  unfold State.ringLose
  extract_lets _ s1
  have hs1 : Within State.ringLoseWrites s s1 := by
    unfold s1
    refine Within.foldl _ (fun t x => ?_) _ _
    extract_lets _ t1
    have ht1 : Within State.ringLoseWrites t t1 := Within.ite _ ((State.count_within ..).mono) (Within.refl _ _)
    exact (State.setTorn_within ..).after ((State.setSlot_within ..).after ht1)
  exact (State.setRing_within ..).after hs1

/-- What `State.dropWriters` may write. -/
def State.dropWritersWrites : Writes := ⟨[.regs, .tmvs, .links], [.CMC_SLOT_STATE, .KMC_SLOT_STATE, .TMV_ERR_COUNT]⟩

/-- The blocks' open tiles over links are cut where their memory goes. -/
theorem State.dropWriters_within (s : State) (km : Bool) (unit : Nat) :
    Within State.dropWritersWrites s (s.dropWriters km unit) := by
  have hlinks (t : State) (m : SMap Link) : Within State.dropWritersWrites t { t with links := m } :=
    (Within.update [.links] rfl).mono
  unfold State.dropWriters
  extract_lets mine u low
  refine Within.trans (t := u) (Within.foldl _ (fun t x => ?_) _ _) (hlinks u _)
  split
  · exact Within.ite _ ((State.tmvLost_within ..).mono) (Within.refl _ _)
  · exact Within.refl _ _

/-- What `State.warmReset` may write. -/
def State.warmResetWrites : Writes := ⟨[.fresh, .out, .regs, .sram, .ecc, .engines, .ocus, .rings, .stations, .tiles,
  .tmvs, .scrubs, .pba, .events, .traces, .totals], [.CMC_ECCADDR_OFFSET, .CMC_ECCCNT_CORR, .CMC_ECCCNT_UNCORR,
  .CMC_ECCSTAT_KIND, .CMC_ECCSTAT_MASTER, .CMC_ECCSTAT_OVERRUN, .CMC_ECCSTAT_SYNDROME, .CMC_ECCSTAT_VALID,
  .CMC_SLOT_STATE, .CMC_SLOT_TORN, .KMC_ECCADDR_OFFSET, .KMC_ECCCNT_CORR, .KMC_ECCCNT_UNCORR, .KMC_ECCSTAT_KIND,
  .KMC_ECCSTAT_MASTER, .KMC_ECCSTAT_OVERRUN, .KMC_ECCSTAT_SYNDROME, .KMC_ECCSTAT_VALID, .KMC_SLOT_STATE, .KMC_SLOT_TORN,
  .KMC_STN_LATECNT_COUNT, .KMC_STN_POISCNT_COUNT, .KMC_STN_SATCNT_COUNT, .KMC_STN_TORNCNT_COUNT, .KMC_STN_UNMATCH_COUNT]⟩

theorem State.warmReset_within (s : State) (core : Nat) : Within State.warmResetWrites s (s.warmReset core) := by
  unfold State.warmReset
  extract_lets s1 s2 s3 s4 s5 _ _
  have hs1 : Within State.warmResetWrites s s1 := (State.tmvTear_within ..).mono
  have hs2 : Within State.warmResetWrites s s2 := by
    unfold s2
    refine Within.trans hs1 (Within.foldl _ (fun t x => ?_) _ _)
    extract_lets t1
    have ht1 : Within State.warmResetWrites t t1 := Within.foldl _ (fun _ _ => (State.tmvQueue_within ..).after
      ((State.tear_within ..).mono)) _ _
    exact Within.trans ht1 (Within.foldl _ (fun _ _ => Within.ite _ ((State.setTorn_within ..).after
      ((State.emptySlot_within ..).mono)) (Within.refl _ _)) _ _)
  have hs3 : Within State.warmResetWrites s s3 := (State.setCoreTiles_within ..).after hs2
  have hs4 : Within State.warmResetWrites s s4 := by
    unfold s4
    refine Within.trans hs3 (Within.foldl _ (fun t x => ?_) _ _)
    extract_lets _ _ t1
    have ht1 : Within State.warmResetWrites t t1 := Within.foldl _ (fun _ _ => Within.foldl _ (fun _ _ => Within.ite _
      ((State.setTorn_within ..).after ((State.emptySlot_within ..).mono)) (Within.refl _ _)) _ _) _ _
    exact (State.setStation_within ..).after ht1
  have hs5 : Within State.warmResetWrites s s5 := Within.trans hs4 (Within.foldl _ (fun _ _ =>
    (State.setEngine_within ..).mono) _ _)
  exact (State.setOcu_within ..).after hs5

/-- What `State.coreOff` may write. -/
def State.coreOffWrites : Writes := ⟨[.fresh, .out, .regs, .sram, .ecc, .cmWait, .engines, .ocus, .rings, .stations,
  .tiles, .tmvs, .scrubs, .threads, .pba, .events, .traces, .totals, .links], [.CMC_ECCADDR_OFFSET, .CMC_ECCCNT_CORR,
  .CMC_ECCCNT_UNCORR, .CMC_ECCSTAT_KIND, .CMC_ECCSTAT_MASTER, .CMC_ECCSTAT_OVERRUN, .CMC_ECCSTAT_SYNDROME,
  .CMC_ECCSTAT_VALID, .CMC_SLOT_STATE, .CMC_SLOT_TORN, .CPT_DOM_CORE, .CSQ_TH_EXC_CODE, .CSQ_TH_EXC_OVERRUN,
  .CSQ_TH_EXC_PC, .CSQ_TH_EXC_VALID, .CSQ_TH_STAT_STATE, .CSQ_TH_STAT_WAITKIND, .KMC_ECCADDR_OFFSET, .KMC_ECCCNT_CORR,
  .KMC_ECCCNT_UNCORR, .KMC_ECCSTAT_KIND, .KMC_ECCSTAT_MASTER, .KMC_ECCSTAT_OVERRUN, .KMC_ECCSTAT_SYNDROME,
  .KMC_ECCSTAT_VALID, .KMC_SLOT_STATE, .KMC_SLOT_TORN, .KMC_STN_LATECNT_COUNT, .KMC_STN_POISCNT_COUNT,
  .KMC_STN_SATCNT_COUNT, .KMC_STN_TORNCNT_COUNT, .KMC_STN_UNMATCH_COUNT, .TMV_ERR_COUNT]⟩

/-- What the switching off of a core may write beside the bit of its domain. -/
def State.coreCutWrites : Writes := ⟨State.coreOffWrites.parts, State.coreOffWrites.flds.filter (· != .CPT_DOM_CORE)⟩

theorem State.coreOff_eq (s : State) (core : Nat) : ∃ u, Within State.coreCutWrites s u ∧
    s.coreOff core = u.setF .CPT_DOM_CORE (core / 8) (withBit (u.getF .CPT_DOM_CORE (core / 8)) (core % 8) false) := by
  have hwait (t : State) (m : List CmReq) (n : List Nat) : Within State.coreCutWrites t { t with cmWait := m, scrubs := n } :=
    (Within.update [.cmWait, .scrubs] rfl).mono
  unfold State.coreOff
  extract_lets s1 s2 s3 s4 s5 s6
  have hs1 : Within State.coreCutWrites s s1 := (State.warmReset_within ..).after ((State.cutCopies_within ..).mono)
  have hs2 : Within State.coreCutWrites s s2 := Within.trans hs1 (Within.foldl _ (fun _ _ =>
    (State.setEngine_within ..).mono) _ _)
  have hs3 : Within State.coreCutWrites s s3 := (State.setTmv_within ..).after ((State.dropWriters_within ..).after hs2)
  have hs4 : Within State.coreCutWrites s s4 := Within.trans hs3 (Within.foldl _ (fun _ _ =>
    (State.ringLose_within ..).mono) _ _)
  have hs5 : Within State.coreCutWrites s s5 := (State.zeroFill_within ..).after hs4
  exact ⟨s6, hs5.trans (hwait s5 _ _), rfl⟩

theorem State.coreOff_within (s : State) (core : Nat) : Within State.coreOffWrites s (s.coreOff core) := by
  obtain ⟨u, hu, he⟩ := s.coreOff_eq core
  exact he ▸ (State.setF_within ..).after hu.mono

theorem State.rewriteDescs_within (s : State) (core : Nat) : Within ⟨[.sram, .ecc], []⟩ s (s.rewriteDescs core) := by
  unfold State.rewriteDescs
  refine Within.foldl _ (fun t x => ?_) _ _
  split
  · exact Within.foldl _ (fun _ _ => (State.store_within ..).mono) _ _
  · exact Within.refl _ _

/-- What `State.calOnPower` may write. -/
def State.calOnPowerWrites : Writes := ⟨[.regs, .passes, .dac], [.ME_CALSTAT_STATE]⟩

theorem State.calOnPower_within (s : State) (core : Nat) : Within State.calOnPowerWrites s (s.calOnPower core) := by
  unfold State.calOnPower
  extract_lets _ _ _ _ _ s1
  have hs1 : Within State.calOnPowerWrites s s1 := Within.ite _ (Within.refl _ _) ((State.queueCal_within ..).mono)
  exact Within.ite _ hs1 ((State.queueCal_within ..).after hs1)

theorem State.rewriteProgs_within (s : State) (c : Nat) : Within ⟨[.sram, .ecc], []⟩ s (s.rewriteProgs c) := by
  unfold State.rewriteProgs
  refine Within.foldl _ (fun t x => ?_) _ _
  split
  · exact Within.foldl _ (fun _ _ => (State.store_within ..).mono) _ _
  · exact Within.refl _ _

/-- What `State.clusterCut` may write. -/
def State.clusterCutWrites : Writes := ⟨[.fresh, .out, .regs, .sram, .ecc, .scrubs, .threads, .pba, .events, .traces,
  .totals], [.CMC_ECCADDR_OFFSET, .CMC_ECCCNT_CORR, .CMC_ECCCNT_UNCORR, .CMC_ECCSTAT_KIND, .CMC_ECCSTAT_MASTER,
  .CMC_ECCSTAT_OVERRUN, .CMC_ECCSTAT_SYNDROME, .CMC_ECCSTAT_VALID, .KMC_ECCADDR_OFFSET, .KMC_ECCCNT_CORR,
  .KMC_ECCCNT_UNCORR, .KMC_ECCSTAT_KIND, .KMC_ECCSTAT_MASTER, .KMC_ECCSTAT_OVERRUN, .KMC_ECCSTAT_SYNDROME, .KMC_ECCSTAT_VALID]⟩

theorem State.clusterCut_within (s : State) (c : Nat) : Within State.clusterCutWrites s (s.clusterCut c) :=
  Within.foldl _ (fun _ _ => Within.ite _ ((State.setThread_within ..).after ((State.cutCopy_within ..).mono))
    (Within.refl _ _)) _ _

/-- What `State.sharedOff` may write. -/
def State.sharedOffWrites : Writes := ⟨[.fresh, .out, .regs, .sram, .ecc, .ocus, .rings, .tmvs, .scrubs, .threads, .pba,
  .events, .traces, .totals, .links], [.CMC_ECCADDR_OFFSET, .CMC_ECCCNT_CORR, .CMC_ECCCNT_UNCORR, .CMC_ECCSTAT_KIND,
  .CMC_ECCSTAT_MASTER, .CMC_ECCSTAT_OVERRUN, .CMC_ECCSTAT_SYNDROME, .CMC_ECCSTAT_VALID, .CMC_SLOT_STATE, .CMC_SLOT_TORN,
  .CPT_DOM_SHARED, .CSQ_TH_EXC_CODE, .CSQ_TH_EXC_OVERRUN, .CSQ_TH_EXC_PC, .CSQ_TH_EXC_VALID, .CSQ_TH_STAT_STATE,
  .CSQ_TH_STAT_WAITKIND, .KMC_ECCADDR_OFFSET, .KMC_ECCCNT_CORR, .KMC_ECCCNT_UNCORR, .KMC_ECCSTAT_KIND,
  .KMC_ECCSTAT_MASTER, .KMC_ECCSTAT_OVERRUN, .KMC_ECCSTAT_SYNDROME, .KMC_ECCSTAT_VALID, .KMC_SLOT_STATE, .KMC_SLOT_TORN,
  .KMC_STN_LATECNT_COUNT, .KMC_STN_POISCNT_COUNT, .KMC_STN_SATCNT_COUNT, .KMC_STN_TORNCNT_COUNT, .KMC_STN_UNMATCH_COUNT,
  .TMV_ERR_COUNT]⟩

/-- What the switching off of a shared domain may write beside the bit of the domain. -/
def State.sharedCutWrites : Writes := ⟨State.sharedOffWrites.parts, State.sharedOffWrites.flds.filter (· != .CPT_DOM_SHARED)⟩

theorem State.sharedOff_eq (s : State) (c : Nat) :
    ∃ u, Within State.sharedCutWrites s u ∧ s.sharedOff c = u.setF .CPT_DOM_SHARED c 0 := by
  have hscrubs (t : State) (m : List Nat) : Within State.sharedCutWrites t { t with scrubs := m } :=
    (Within.update [.scrubs] rfl).mono
  unfold State.sharedOff
  extract_lets s1 s2 tr s3 s4
  have hs1 : Within State.sharedCutWrites s s1 := (State.dropWriters_within ..).after
    ((State.clusterCut_within ..).after ((State.cutCopies_within ..).mono))
  have hs2 : Within State.sharedCutWrites s s2 := Within.trans hs1 (Within.foldl _ (fun _ _ =>
    (State.ringLose_within ..).mono) _ _)
  have hs3 : Within State.sharedCutWrites s s3 := (State.setTrace_within ..).after ((State.setOcu_within ..).after
    ((State.zeroFill_within ..).after hs2))
  exact ⟨s4, hs3.trans (hscrubs s3 _), rfl⟩

theorem State.sharedOff_within (s : State) (c : Nat) : Within State.sharedOffWrites s (s.sharedOff c) := by
  obtain ⟨u, hu, he⟩ := s.sharedOff_eq c
  exact he ▸ (State.setF_within ..).after hu.mono

theorem State.setDie_within (s : State) (b : Nat) (v : Bool) :
    Within ⟨[.pllOff, .regs], [.PWR_DIEDOM_ON]⟩ s (s.setDie b v) := by
  unfold State.setDie
  extract_lets t
  have ht : Within ⟨[.pllOff, .regs], [.PWR_DIEDOM_ON]⟩ s t := (State.setF_within ..).mono
  exact (State.setPll_within ..).after ht

theorem State.windowsDrop_within (s : State) : Within ⟨[.points], []⟩ s (s.windowsDrop) := by
  unfold State.windowsDrop
  extract_lets _ _
  exact (Within.update [.points] rfl).mono

/-- What `State.dieUp` may write. -/
def State.dieUpWrites : Writes := ⟨[.pllOff, .out, .regs, .dac, .pba, .points, .links, .wakes], [.LNK_PSTAT_STATE,
  .PWR_DIEDOM_ON, .SDAC_CTL_ROUTE, .SDAC_CTL_SPAN, .SDAC_STAT_PASSAGE]⟩

theorem State.dieUp_within (s : State) (b : Nat) : Within State.dieUpWrites s (s.dieUp b) := by
  unfold State.dieUp
  extract_lets s1 s2 _ s3
  have hs1 : Within State.dieUpWrites s s1 := (State.setDie_within ..).mono
  have hs2 : Within State.dieUpWrites s s2 := Within.trans hs1 (Within.foldl _ (fun _ _ => Within.ite _
    ((State.setF_within ..).mono) (Within.refl _ _)) _ _)
  have hs3 : Within State.dieUpWrites s s3 := Within.after (Within.update [.dac] rfl) hs1
  split
  · exact (State.deliverWakes_within ..).after hs1
  · exact (State.deliverWakes_within ..).after hs2
  · exact (State.dacPassage_within ..).after hs3
  · exact (State.windowsDrop_within ..).after hs1
  · exact hs1

/-- What `State.dieOff` may write. -/
def State.dieOffWrites : Writes := ⟨[.pllOff, .fresh, .out, .regs, .sram, .ecc, .rings, .stations, .threads, .groups,
  .snaps, .pba, .events, .traces, .totals, .links, .wakes], [.CMC_SLOT_STATE, .CMC_SLOT_TORN, .CSQ_TH_PRED_P,
  .CSQ_TH_STAT_STATE, .CSQ_TH_STAT_WAITKIND, .KMC_SLOT_STATE, .KMC_SLOT_TORN, .KMC_STN_LATECNT_COUNT,
  .KMC_STN_POISCNT_COUNT, .KMC_STN_SATCNT_COUNT, .KMC_STN_TORNCNT_COUNT, .KMC_STN_UNMATCH_COUNT, .LNK_OFSVAL_VALID,
  .LNK_PDOWNCNT_COUNT, .LNK_PSTAT_LANES, .LNK_PSTAT_STATE, .MBX_CH_DATA_WORD, .MBX_CH_STAT_DISCARD, .MBX_CH_STAT_FULL,
  .PWR_DIEDOM_ON]⟩

theorem State.dieOff_within (s : State) (b : Nat) : Within State.dieOffWrites s (s.dieOff b) := by
  unfold State.dieOff
  extract_lets s1
  have hs1 : Within State.dieOffWrites s s1 := Within.ite _ (Within.foldl _ (fun _ _ =>
    (State.portDown_within ..).mono) _ _) (Within.refl _ _)
  exact (State.setDie_within ..).after hs1

theorem State.switched_within (s : State) (c : Nat) : Within ⟨[.onAt, .onCl], []⟩ s (s.switched c) :=
  Within.ite _ (Within.refl _ _) ((Within.update [.onAt, .onCl] rfl).mono)

/-- What `State.enterReset` may write. -/
def State.enterResetWrites : Writes := ⟨[.fresh, .out, .regs, .sram, .ecc, .cmWait, .engines, .ocus, .rings, .stations,
  .tiles, .tmvs, .scrubs, .threads, .pba, .events, .traces, .totals, .links], [.CMC_ECCADDR_OFFSET, .CMC_ECCCNT_CORR,
  .CMC_ECCCNT_UNCORR, .CMC_ECCSTAT_KIND, .CMC_ECCSTAT_MASTER, .CMC_ECCSTAT_OVERRUN, .CMC_ECCSTAT_SYNDROME,
  .CMC_ECCSTAT_VALID, .CMC_SLOT_STATE, .CMC_SLOT_TORN, .CPT_DOM_CORE, .CSQ_TH_EXC_CODE, .CSQ_TH_EXC_OVERRUN,
  .CSQ_TH_EXC_PC, .CSQ_TH_EXC_VALID, .CSQ_TH_STAT_STATE, .CSQ_TH_STAT_WAITKIND, .KMC_ECCADDR_OFFSET, .KMC_ECCCNT_CORR,
  .KMC_ECCCNT_UNCORR, .KMC_ECCSTAT_KIND, .KMC_ECCSTAT_MASTER, .KMC_ECCSTAT_OVERRUN, .KMC_ECCSTAT_SYNDROME,
  .KMC_ECCSTAT_VALID, .KMC_SLOT_STATE, .KMC_SLOT_TORN, .KMC_STN_LATECNT_COUNT, .KMC_STN_POISCNT_COUNT,
  .KMC_STN_SATCNT_COUNT, .KMC_STN_TORNCNT_COUNT, .KMC_STN_UNMATCH_COUNT, .STP_STAT_STATE, .TMV_ERR_COUNT]⟩

theorem State.enterReset_within (s : State) (cold : Bool) (core : Nat) :
    Within State.enterResetWrites s (s.enterReset cold core) := by
  unfold State.enterReset
  extract_lets s1
  have hs1 : Within State.enterResetWrites s s1 := Within.ite _ ((State.coreOff_within ..).mono)
    ((State.warmReset_within ..).mono)
  exact (State.setF_within ..).after hs1

/-- What `State.beginCut` may write. -/
def State.beginCutWrites : Writes := ⟨[.out, .regs, .stations, .ctxs, .fns, .pba], [.SVC_DATA_WORD, .SVC_STAT_FULL,
  .SVC_STAT_LOST]⟩

theorem State.beginCut_within (s : State) (t : Nat) (q : Quota) : Within State.beginCutWrites s (s.beginCut t q) := by
  unfold State.beginCut
  extract_lets _ _ _ _ s1 _ s2 _
  have hs1 : Within State.beginCutWrites s s1 := (Within.update [.stations, .ctxs] rfl).mono
  have hs2 : Within State.beginCutWrites s s2 := (State.setFn_within ..).after hs1
  exact (State.service_within ..).after hs2

/-- What `State.applyQuota` may write. -/
def State.applyQuotaWrites : Writes := ⟨[.out, .regs, .stations, .ctxs, .buckets, .bucketAt, .fns, .pba, .wrules,
  .heldRules, .outMarks], [.SVC_DATA_WORD, .SVC_STAT_FULL, .SVC_STAT_LOST, .TEN_CMKIB_VALUE, .TEN_KMKIB_VALUE,
  .TEN_LDRMS_VALUE, .TEN_QUOTA0_CONTEXTS, .TEN_QUOTA0_CORES, .TEN_QUOTA0_LINKSHARE, .TEN_QUOTA0_WOUTMAP,
  .TEN_QUOTA1_GRACE, .WIO_WOUTSTAT_EXTLOW, .WIO_WOUTSTAT_FAULT, .WIO_WOUTSTAT_HELD, .WIO_WOUTSTAT_PIN]⟩

theorem State.applyQuota_within (s : State) (t : Nat) (q : Quota) : Within State.applyQuotaWrites s (s.applyQuota t q) := by
  unfold State.applyQuota
  extract_lets s1
  have hs1 : Within State.applyQuotaWrites s s1 := (State.ruleCut_within ..).after ((State.reclaimEnd_within ..).after
    ((State.setQuota_within ..).after ((State.loaderCharge_within ..).mono)))
  exact Within.ite _ hs1 ((State.beginCut_within ..).after hs1)

theorem State.wipeCore_within (s : State) (owner core : Nat) : Within ⟨[.jobs, .shards], []⟩ s (s.wipeCore owner core) := by
  unfold State.wipeCore
  extract_lets _ _ s1 _
  have hs1 : Within ⟨[.jobs, .shards], []⟩ s s1 := Within.foldl _ (fun _ _ => (State.setShard_within ..).mono) _ _
  exact Within.ite _ (Within.refl _ _) ((State.setJobQ_within ..).after hs1)

/-- What `State.arbReset` may write. -/
def State.arbResetWrites : Writes := ⟨[.regs], [.KMC_ARBW0_W_CORE0, .KMC_ARBW0_W_CORE1, .KMC_ARBW0_W_CORE2,
  .KMC_ARBW0_W_CORE3, .KMC_ARBW0_W_CORE4, .KMC_ARBW0_W_CORE5, .KMC_ARBW0_W_CORE6, .KMC_ARBW0_W_CORE7, .KMC_ARBW1_W_CSQ,
  .KMC_ARBW1_W_OCU]⟩

theorem arbField_mem (n : Nat) : State.arbResetWrites.flds.contains (arbField n) = true := by
  unfold arbField
  split <;> decide

theorem State.arbReset_within (s : State) (owner : Nat) (cores : List Nat) :
    Within State.arbResetWrites s (s.arbReset owner cores) := by
  unfold State.arbReset
  extract_lets u
  have hu : Within State.arbResetWrites s u := Within.foldl _ (fun _ _ => (Within.refl _ _).setF rfl (arbField_mem _) ..) _ _
  refine Within.ite _ (Within.trans hu (Within.foldl _ (fun _ _ => ?_) _ _)) hu
  exact ((Within.refl _ _).setF rfl (arbField_mem _) ..).setF rfl (arbField_mem _) ..

theorem State.loadArb_within (s : State) (x : BitStream) : Within State.arbResetWrites s (s.loadArb x) :=
  Within.trans (State.arbReset_within ..) (Within.foldl _ (fun _ _ => (Within.refl _ _).setF rfl (arbField_mem _) ..) _ _)

/-- What `State.loadRings` may write. -/
def State.loadRingsWrites : Writes := ⟨[.regs, .rings], [.CMC_SLOT_BASE, .CMC_SLOT_STATE, .CMC_SLOT_STATION,
  .CMC_SLOT_TORN, .KMC_SLOT_BASE, .KMC_SLOT_STATE, .KMC_SLOT_STATION, .KMC_SLOT_TORN]⟩

theorem State.loadRings_within (s : State) (x : BitStream) (rs : List (RtRec × SlotRef × Option SlotRef)) :
    Within State.loadRingsWrites s (s.loadRings x rs) := by
  unfold State.loadRings
  refine Within.foldl _ (fun t x => ?_) _ _
  extract_lets t1 _
  have ht1 : Within State.loadRingsWrites t t1 := (State.setRing_within ..).after ((State.ringLike_within ..).mono)
  split
  · exact (State.setRing_within ..).after ((State.ringLike_within ..).after ht1)
  · exact ht1

theorem State.loadData_within (s : State) (x : BitStream) : Within ⟨[.sram, .ecc], []⟩ s (s.loadData x) := by
  unfold State.loadData
  extract_lets s1
  have hs1 : Within ⟨[.sram, .ecc], []⟩ s s1 := by
    unfold s1
    refine Within.foldl _ (fun t x => ?_) _ _
    extract_lets _ _
    exact (State.store_within ..).mono
  refine Within.trans hs1 (Within.foldl _ (fun t x => ?_) _ _)
  split
  · exact (State.store_within ..).mono
  · exact Within.refl _ _

/-- What `State.loadStations` may write. -/
def State.loadStationsWrites : Writes := ⟨[.regs, .stations, .placed], [.KMC_STN_LATECNT_COUNT, .KMC_STN_POISCNT_COUNT,
  .KMC_STN_SATCNT_COUNT, .KMC_STN_TORNCNT_COUNT, .KMC_STN_UNMATCH_COUNT]⟩

theorem State.loadStations_within (s : State) (x : BitStream) (rs : List (RtRec × SlotRef × Option SlotRef)) :
    Within State.loadStationsWrites s (s.loadStations x rs) := by
  unfold State.loadStations
  extract_lets s1
  have hs1 : Within State.loadStationsWrites s s1 := by
    unfold s1
    refine Within.foldl _ (fun t x => ?_) _ _
    extract_lets _ t1
    have ht1 : Within State.loadStationsWrites t t1 := (State.setStation_within ..).mono
    split
    · exact (State.bindEntry_within ..).after ht1
    · exact ht1
  exact Within.after (Within.update [.placed] rfl) hs1

theorem State.loadWords_within (s : State) (owner : Nat) : Within ⟨[.sram, .ecc], []⟩ s (s.loadWords owner) :=
  Within.foldl _ (fun _ _ => (State.store_within ..).mono) _ _

/-- What `State.unloadStop` may write. -/
def State.unloadStopWrites : Writes := ⟨[.fresh, .out, .regs, .sram, .ecc, .stations, .ctxs, .scrubs, .threads, .flights,
  .groups, .snaps, .pba, .events, .traces, .totals], [.CMC_ECCADDR_OFFSET, .CMC_ECCCNT_CORR, .CMC_ECCCNT_UNCORR,
  .CMC_ECCSTAT_KIND, .CMC_ECCSTAT_MASTER, .CMC_ECCSTAT_OVERRUN, .CMC_ECCSTAT_SYNDROME, .CMC_ECCSTAT_VALID,
  .CSQ_TH_EXC_CODE, .CSQ_TH_EXC_OVERRUN, .CSQ_TH_EXC_PC, .CSQ_TH_EXC_VALID, .CSQ_TH_PRED_P, .CSQ_TH_RECCNT_COUNT,
  .CSQ_TH_STAT_PC, .CSQ_TH_STAT_STATE, .CSQ_TH_STAT_WAITKIND, .KMC_ECCADDR_OFFSET, .KMC_ECCCNT_CORR, .KMC_ECCCNT_UNCORR,
  .KMC_ECCSTAT_KIND, .KMC_ECCSTAT_MASTER, .KMC_ECCSTAT_OVERRUN, .KMC_ECCSTAT_SYNDROME, .KMC_ECCSTAT_VALID, .POS_TRG_CFG_EN]⟩

theorem State.unloadStop_within (s : State) (owner : Nat) : Within State.unloadStopWrites s (s.unloadStop owner) := by
  unfold State.unloadStop
  extract_lets s1 s2 s3
  have hs1 : Within State.unloadStopWrites s s1 := Within.foldl _ (fun _ _ => (State.threadStopNow_within ..).mono) _ _
  have hs2 : Within State.unloadStopWrites s s2 := Within.trans hs1 (Within.foldl _ (fun _ _ =>
    (State.park_within ..).mono) _ _)
  have hs3 : Within State.unloadStopWrites s s3 := Within.trans hs2 (Within.foldl _ (fun _ _ =>
    (State.closeCtx_within ..).mono) _ _)
  exact Within.trans hs3 (Within.foldl _ (fun _ _ => (State.endInstance_within ..).mono) _ _)

/-- What `State.freeThreadAt` may write. -/
def State.freeThreadAtWrites : Writes := ⟨[.regs, .threads], [.CSQ_TH_REGION_BASE, .CSQ_TH_REGION_LAST,
  .CSQ_TH_REGION_STRICT, .CSQ_TH_STAT_OWNER, .CSQ_TH_STAT_STATE, .CSQ_TH_STAT_WAITKIND]⟩

theorem State.freeThreadAt_within (s : State) (i : Nat) : Within State.freeThreadAtWrites s (s.freeThreadAt i) := by
  unfold State.freeThreadAt
  extract_lets s1 s2
  have hs1 : Within State.freeThreadAtWrites s s1 := (State.setF_within ..).after ((State.setF_within ..).after
    ((State.setF_within ..).mono))
  have hs2 : Within State.freeThreadAtWrites s s2 := (State.setF_within ..).after ((State.setF_within ..).after
    ((State.setF_within ..).after hs1))
  exact (State.setThread_within ..).after hs2

/-- What `State.freeOwl` may write. -/
def State.freeOwlWrites : Writes := ⟨[.regs, .owls], [.OWL_SCFG_EN, .OWL_SCFG_STATION, .OWL_SSTAT_STATE]⟩

theorem State.freeOwl_within (s : State) (i : Nat) : Within State.freeOwlWrites s (s.freeOwl i) :=
  (State.setF_within ..).after ((State.setF_within ..).after ((State.setF_within ..).after ((State.setOwl_within ..).mono)))

theorem State.disarmPoints_within (s : State) (st : Nat) :
    Within ⟨[.regs, .points], [.OBS_TW_CFG_ARMED]⟩ s (s.disarmPoints st) :=
  Within.foldl _ (fun _ _ => (State.setPoint_within ..).after ((State.setF_within ..).mono)) _ _

/-- What `State.ringDrop` may write. -/
def State.ringDropWrites : Writes := ⟨[.regs, .rings], [.CMC_SLOT_STATE, .CMC_SLOT_TORN, .KMC_SLOT_STATE, .KMC_SLOT_TORN]⟩

theorem State.ringDrop_within (s : State) (h : SlotRef) : Within State.ringDropWrites s (s.ringDrop h) :=
  (State.setRing_within ..).after (Within.foldl _ (fun _ _ => (State.setTorn_within ..).after
    ((State.setSlot_within ..).mono)) _ _)

/-- What `State.unloadFree` may write. -/
def State.unloadFreeWrites : Writes := ⟨[.out, .regs, .sram, .ecc, .owls, .rings, .stations, .tmvs, .ctxs, .threads,
  .flights, .groups, .sets, .snaps, .parts, .fns, .loading, .pba, .points, .wrules, .heldRules, .outMarks],
  [.CMC_SLOT_STATE, .CMC_SLOT_TORN, .CSQ_TH_REGION_BASE, .CSQ_TH_REGION_LAST, .CSQ_TH_REGION_STRICT, .CSQ_TH_STAT_OWNER,
  .CSQ_TH_STAT_STATE, .CSQ_TH_STAT_WAITKIND, .KMC_ARBW0_W_CORE0, .KMC_ARBW0_W_CORE1, .KMC_ARBW0_W_CORE2,
  .KMC_ARBW0_W_CORE3, .KMC_ARBW0_W_CORE4, .KMC_ARBW0_W_CORE5, .KMC_ARBW0_W_CORE6, .KMC_ARBW0_W_CORE7, .KMC_ARBW1_W_CSQ,
  .KMC_ARBW1_W_OCU, .KMC_SLOT_STATE, .KMC_SLOT_TORN, .OBS_TW_CFG_ARMED, .OWL_SCFG_EN, .OWL_SCFG_STATION,
  .OWL_SSTAT_STATE, .POS_TRG_CFG_EN, .SVC_DATA_WORD, .SVC_STAT_FULL, .SVC_STAT_LOST, .WIO_WOUTSTAT_EXTLOW,
  .WIO_WOUTSTAT_FAULT, .WIO_WOUTSTAT_HELD, .WIO_WOUTSTAT_PIN]⟩

theorem State.unloadFree_within (s : State) (owner : Nat) : Within State.unloadFreeWrites s (s.unloadFree owner) := by
  unfold State.unloadFree
  extract_lets _ _ _ _ s1 _ s2 s3 s4 s5 s6 _ _ s7 s8 s9 s10
  have hs1 : Within State.unloadFreeWrites s s1 := Within.foldl _ (fun _ _ => (State.disarmTarget_within ..).after
    ((State.disarmPoints_within ..).mono)) _ _
  have hs2 : Within State.unloadFreeWrites s s2 := Within.trans hs1 (Within.foldl _ (fun _ _ =>
    (State.ringDrop_within ..).mono) _ _)
  have hs3 : Within State.unloadFreeWrites s s3 := Within.trans hs2 (Within.foldl _ (fun _ _ => Within.ite _
    ((State.store_within ..).mono) (Within.refl _ _)) _ _)
  have hs4 : Within State.unloadFreeWrites s s4 := Within.trans hs3 (Within.foldl _ (fun _ _ =>
    (State.freeOwl_within ..).mono) _ _)
  have hs5 : Within State.unloadFreeWrites s s5 := Within.trans hs4 (Within.foldl _ (fun _ _ =>
    (State.ruleFree_within ..).mono) _ _)
  have hs6 : Within State.unloadFreeWrites s s6 := Within.trans hs5 (Within.foldl _ (fun _ _ =>
    (State.setGroup_within ..).mono) _ _)
  have hs7 : Within State.unloadFreeWrites s s7 := Within.after
    (Within.update [.tmvs, .flights, .sets, .snaps, .loading] rfl) hs6
  have hs8 : Within State.unloadFreeWrites s s8 := (State.arbReset_within ..).after hs7
  have hs9 : Within State.unloadFreeWrites s s9 := Within.trans hs8 (Within.foldl _ (fun _ _ =>
    (State.freeThreadAt_within ..).mono) _ _)
  have hs10 : Within State.unloadFreeWrites s s10 := Within.trans hs9 (Within.foldl _ (fun _ _ =>
    (State.setStation_within ..).mono) _ _)
  exact (State.reclaimFit_within ..).after ((State.setPart_within ..).after hs10)

/-- What `State.loadRemove` may write. -/
def State.loadRemoveWrites : Writes := ⟨[.fresh, .out, .regs, .sram, .ecc, .owls, .rings, .stations, .tmvs, .ctxs,
  .scrubs, .threads, .flights, .groups, .sets, .snaps, .parts, .buckets, .bucketAt, .fns, .loading, .pba, .events,
  .traces, .points, .totals, .wrules, .heldRules, .outMarks], [.CMC_ECCADDR_OFFSET, .CMC_ECCCNT_CORR, .CMC_ECCCNT_UNCORR,
  .CMC_ECCSTAT_KIND, .CMC_ECCSTAT_MASTER, .CMC_ECCSTAT_OVERRUN, .CMC_ECCSTAT_SYNDROME, .CMC_ECCSTAT_VALID,
  .CMC_SLOT_STATE, .CMC_SLOT_TORN, .CSQ_TH_EXC_CODE, .CSQ_TH_EXC_OVERRUN, .CSQ_TH_EXC_PC, .CSQ_TH_EXC_VALID,
  .CSQ_TH_PRED_P, .CSQ_TH_RECCNT_COUNT, .CSQ_TH_REGION_BASE, .CSQ_TH_REGION_LAST, .CSQ_TH_REGION_STRICT,
  .CSQ_TH_STAT_OWNER, .CSQ_TH_STAT_PC, .CSQ_TH_STAT_STATE, .CSQ_TH_STAT_WAITKIND, .KMC_ARBW0_W_CORE0, .KMC_ARBW0_W_CORE1,
  .KMC_ARBW0_W_CORE2, .KMC_ARBW0_W_CORE3, .KMC_ARBW0_W_CORE4, .KMC_ARBW0_W_CORE5, .KMC_ARBW0_W_CORE6, .KMC_ARBW0_W_CORE7,
  .KMC_ARBW1_W_CSQ, .KMC_ARBW1_W_OCU, .KMC_ECCADDR_OFFSET, .KMC_ECCCNT_CORR, .KMC_ECCCNT_UNCORR, .KMC_ECCSTAT_KIND,
  .KMC_ECCSTAT_MASTER, .KMC_ECCSTAT_OVERRUN, .KMC_ECCSTAT_SYNDROME, .KMC_ECCSTAT_VALID, .KMC_SLOT_STATE, .KMC_SLOT_TORN,
  .OBS_TW_CFG_ARMED, .OWL_SCFG_EN, .OWL_SCFG_STATION, .OWL_SSTAT_STATE, .POS_TRG_CFG_EN, .SVC_DATA_WORD, .SVC_STAT_FULL,
  .SVC_STAT_LOST, .TEN_CMKIB_VALUE, .TEN_KMKIB_VALUE, .TEN_LDRMS_VALUE, .TEN_QUOTA0_CONTEXTS, .TEN_QUOTA0_CORES,
  .TEN_QUOTA0_LINKSHARE, .TEN_QUOTA0_WOUTMAP, .TEN_QUOTA1_GRACE, .WIO_WOUTSTAT_EXTLOW, .WIO_WOUTSTAT_FAULT,
  .WIO_WOUTSTAT_HELD, .WIO_WOUTSTAT_PIN]⟩

theorem State.loadRemove_within (s : State) (l : Loading) : Within State.loadRemoveWrites s (s.loadRemove l) := by
  unfold State.loadRemove
  extract_lets _ s1 s2 s3
  have hs1 : Within State.loadRemoveWrites s s1 := Within.ite _ ((State.unloadFree_within ..).after
    ((State.unloadStop_within ..).mono)) (Within.refl _ _)
  have hs2 : Within State.loadRemoveWrites s s2 := Within.trans hs1 (Within.foldl _ (fun _ _ =>
    (State.zeroFill_within ..).mono) _ _)
  have hs3 : Within State.loadRemoveWrites s s3 := Within.trans hs2 (Within.foldl _ (fun _ _ =>
    (State.zeroFill_within ..).mono) _ _)
  exact Within.trans hs3 (Within.foldl _ (fun _ _ => (State.applyQuota_within ..).mono) _ _)

/-- What `State.loaderAnswer` may write. -/
def State.loaderAnswerWrites : Writes := ⟨[.out, .regs, .fns, .pba], [.CPL_TAIL_INDEX]⟩

theorem State.loaderAnswer_within (s : State) (owner : Nat) (tag : Option Nat) (code info : Nat) :
    Within State.loaderAnswerWrites s (s.loaderAnswer owner tag code info) := by
  unfold State.loaderAnswer
  split
  · exact (State.complete_within ..).mono
  · exact Within.refl _ _

/-- What `State.swapEnd` may write. -/
def State.swapEndWrites : Writes := ⟨[.out, .regs, .stations, .threads, .flights, .pba, .events, .traces, .totals],
  [.CSQ_TH_EXC_CODE, .CSQ_TH_EXC_OVERRUN, .CSQ_TH_EXC_PC, .CSQ_TH_EXC_VALID, .CSQ_TH_PRED_P, .CSQ_TH_RECCNT_COUNT,
  .CSQ_TH_STAT_PC, .CSQ_TH_STAT_STATE, .CSQ_TH_STAT_WAITKIND]⟩

theorem State.swapEnd_within (s : State) (j : Job) (ok : Bool) : Within State.swapEndWrites s (s.swapEnd j ok) := by
  unfold State.swapEnd
  extract_lets _ s1 _
  have hs1 : Within State.swapEndWrites s s1 := (State.setStation_within ..).mono
  refine Within.ite _ (Within.refl _ _) ?_
  refine Within.ite _ ?_ ?_
  · exact hs1
  · exact (State.unpark_within ..).after (Within.ite _ hs1 ((State.park_within ..).after hs1))

/-- What `State.jobResult` may write. -/
def State.jobResultWrites : Writes := ⟨[.out, .regs, .stations, .threads, .flights, .fns, .pba, .events, .traces,
  .totals], [.CPL_TAIL_INDEX, .CSQ_TH_EXC_CODE, .CSQ_TH_EXC_OVERRUN, .CSQ_TH_EXC_PC, .CSQ_TH_EXC_VALID, .CSQ_TH_PRED_P,
  .CSQ_TH_RECCNT_COUNT, .CSQ_TH_STAT_PC, .CSQ_TH_STAT_STATE, .CSQ_TH_STAT_WAITKIND, .WLD_ERR_CODE, .WLD_ERR_OVERRUN,
  .WLD_ERR_OWNER, .WLD_ERR_STATION, .WLD_ERR_VALID]⟩

theorem State.jobResult_within (s : State) (j : Job) (st clamped code : Nat) :
    Within State.jobResultWrites s (s.jobResult j st clamped code) := by
  unfold State.jobResult
  extract_lets s1 s2
  have hs1 : Within State.jobResultWrites s s1 := (State.swapEnd_within ..).mono
  have hs2 : Within State.jobResultWrites s s2 := by
    unfold s2
    refine Within.ite _ ?_ ?_
    · exact hs1
    · exact Within.after (State.capture_within ..) hs1 (by simp only [List.map_cons, List.map_nil]; decide)
  exact (State.loaderAnswer_within ..).after hs2

/-- What `State.jobEnd` may write. -/
def State.jobEndWrites : Writes := ⟨[.out, .regs, .tokenHeld, .tokenWait, .stations, .threads, .flights, .beavers,
  .buckets, .bucketAt, .fns, .pba, .events, .traces, .totals], [.CPL_TAIL_INDEX, .CSQ_TH_EXC_CODE, .CSQ_TH_EXC_OVERRUN,
  .CSQ_TH_EXC_PC, .CSQ_TH_EXC_VALID, .CSQ_TH_PRED_P, .CSQ_TH_RECCNT_COUNT, .CSQ_TH_STAT_PC, .CSQ_TH_STAT_STATE,
  .CSQ_TH_STAT_WAITKIND, .WLD_ERR_CODE, .WLD_ERR_OVERRUN, .WLD_ERR_OWNER, .WLD_ERR_STATION, .WLD_ERR_VALID]⟩

theorem State.jobEnd_within (s : State) (b : Nat) (x : Beaver) (code : Nat) : Within State.jobEndWrites s (s.jobEnd b x code) :=
  (State.jobResult_within ..).after ((State.loaderCharge_within ..).after ((State.beaverStop_within ..).after
    ((State.setBeaver_within ..).mono)))

/-- What `State.jobFail` may write. -/
def State.jobFailWrites : Writes := ⟨[.out, .regs, .tokenHeld, .tokenWait, .stations, .threads, .flights, .jobs,
  .beavers, .shards, .buckets, .bucketAt, .fns, .pba, .events, .traces, .totals], [.CPL_TAIL_INDEX, .CSQ_TH_EXC_CODE,
  .CSQ_TH_EXC_OVERRUN, .CSQ_TH_EXC_PC, .CSQ_TH_EXC_VALID, .CSQ_TH_PRED_P, .CSQ_TH_RECCNT_COUNT, .CSQ_TH_STAT_PC,
  .CSQ_TH_STAT_STATE, .CSQ_TH_STAT_WAITKIND, .WLD_ERR_CODE, .WLD_ERR_OVERRUN, .WLD_ERR_OWNER, .WLD_ERR_STATION, .WLD_ERR_VALID]⟩

theorem State.jobFail_within (s : State) (b : Nat) (x : Beaver) (code : Nat) :
    Within State.jobFailWrites s (s.jobFail b x code) := by
  unfold State.jobFail
  extract_lets s1 s2
  have hs1 : Within State.jobFailWrites s s1 := by
    unfold s1
    split
    · exact (State.setShard_within ..).mono
    · exact Within.refl _ _
  have hs2 : Within State.jobFailWrites s s2 := (State.jobEnd_within ..).after hs1
  exact Within.ite _ ((State.queueOwn_within ..).after hs2) hs2

theorem State.sweepTake_within (s : State) (g n : Nat) : Within ⟨[.trackers], []⟩ s (s.sweepTake g n) :=
  (State.setTracker_within ..).mono

theorem State.spotSettle_within (s : State) : Within ⟨[.spot, .spotDue], []⟩ s (s.spotSettle) :=
  Within.ite _ ((Within.update [.spot, .spotDue] rfl).mono) (Within.refl _ _)

/-- What `State.abortJobs` may write. -/
def State.abortJobsWrites : Writes := ⟨[.out, .regs, .tokenHeld, .tokenWait, .stations, .threads, .flights, .jobs,
  .beavers, .shards, .buckets, .bucketAt, .fns, .pba, .events, .traces, .totals], [.CPL_TAIL_INDEX, .CSQ_TH_EXC_CODE,
  .CSQ_TH_EXC_OVERRUN, .CSQ_TH_EXC_PC, .CSQ_TH_EXC_VALID, .CSQ_TH_PRED_P, .CSQ_TH_RECCNT_COUNT, .CSQ_TH_STAT_PC,
  .CSQ_TH_STAT_STATE, .CSQ_TH_STAT_WAITKIND, .WLD_ERR_CODE, .WLD_ERR_OVERRUN, .WLD_ERR_OWNER, .WLD_ERR_STATION, .WLD_ERR_VALID]⟩

theorem State.abortJobs_within (s : State) (owner : Nat) : Within State.abortJobsWrites s (s.abortJobs owner) := by
  unfold State.abortJobs
  extract_lets s1 s2
  have hs1 : Within State.abortJobsWrites s s1 := Within.foldl _ (fun _ _ => (State.swapEnd_within ..).mono) _ _
  have hs2 : Within State.abortJobsWrites s s2 := (State.setJobQ_within ..).after hs1
  refine Within.trans hs2 (Within.foldl _ (fun t x => ?_) _ _)
  split
  · exact Within.ite _ ((State.jobFail_within ..).mono) (Within.refl _ _)
  · exact Within.refl _ _

theorem State.setSensor_within (s : State) (n : Nat) (x : Sensor) : Within ⟨[.sensors], []⟩ s (s.setSensor n x) :=
  (Within.update [.sensors] rfl).mono

theorem State.takeMeans_within (s : State) : Within ⟨[.fresh, .regs], [.THM_SENS_TEMP]⟩ s (s.takeMeans) := by
  unfold State.takeMeans
  refine Within.foldl _ (fun t x => ?_) _ _
  extract_lets _
  exact Within.ite _ (Within.refl _ _) ((State.burn_within ..).after ((State.setF_within ..).mono))

/-- What `State.crossCheck` may write. -/
def State.crossCheckWrites : Writes := ⟨[.out, .regs, .pba, .events, .traces, .sensors], [.THM_SENS_VALID]⟩

theorem State.crossCheck_within (u s : State) (n : Nat) : Within State.crossCheckWrites s (u.crossCheck s n) := by
  unfold State.crossCheck
  extract_lets _ _ s1 s2
  have hs1 : Within State.crossCheckWrites s s1 := (State.setSensor_within ..).mono
  have hs2 : Within State.crossCheckWrites s s2 := (State.setSensor_within ..).mono
  refine Within.ite _ ?_ ?_
  · exact Within.ite _ ((State.raise_within ..).after ((State.setF_within ..).after hs1)) hs1
  · exact Within.ite _ ((State.setF_within ..).after hs2) hs2

/-- What `State.takeMedians` may write. -/
def State.takeMediansWrites : Writes := ⟨[.fresh, .regs, .medPrev], [.CPT_STAT_MEDIAN, .THM_STAT_DIEMED]⟩

theorem State.takeMedians_within (s : State) : Within State.takeMediansWrites s (s.takeMedians) := by
  unfold State.takeMedians
  extract_lets s1 _
  have hs1 : Within State.takeMediansWrites s s1 := by
    unfold s1
    refine Within.foldl _ (fun t x => ?_) _ _
    extract_lets _ t1
    have ht1 : Within State.takeMediansWrites t t1 := (Within.update [.medPrev] rfl).mono
    exact Within.ite _ ht1 ((State.burn_within ..).after ((State.setF_within ..).after ht1))
  exact Within.ite _ hs1 ((State.burn_within ..).after ((State.setF_within ..).after hs1))

/-- What `State.bandSet` may write. -/
def State.bandSetWrites : Writes := ⟨[.regs, .passes, .bandTime, .bandAt, .dac, .shutRec], [.CPT_STAT_BAND,
  .GCTL_PWRST_CLEAN, .ME_CALSTAT_RETRIES, .ME_CALSTAT_STATE, .SDAC_CTL_MODE, .SDAC_CTL_SPAN]⟩

theorem State.bandSet_within (s : State) (c b : Nat) : Within State.bandSetWrites s (s.bandSet c b) := by
  unfold State.bandSet
  extract_lets _ _ s1 s2
  have hs1 : Within State.bandSetWrites s s1 := (Within.update [.bandTime, .bandAt] rfl).mono
  have hs2 : Within State.bandSetWrites s s2 := (State.setF_within ..).after ((State.unclean_within ..).after hs1)
  exact Within.ite _ (Within.refl _ _) (Within.ite _ ((State.bandPass_within ..).after hs2) hs2)

/-- What `State.bandStep` may write. -/
def State.bandStepWrites : Writes := ⟨[.regs, .passes, .bandTime, .bandAt, .dac, .bandMoved, .shutRec], [.CPT_STAT_BAND,
  .GCTL_PWRST_CLEAN, .ME_CALSTAT_RETRIES, .ME_CALSTAT_STATE, .SDAC_CTL_MODE, .SDAC_CTL_SPAN]⟩

theorem State.bandStep_within (s : State) (c : Nat) : Within State.bandStepWrites s (s.bandStep c) := by
  unfold State.bandStep
  extract_lets _ _ t
  have ht : Within State.bandStepWrites s t := (Within.update [.bandMoved] rfl).mono
  refine Within.ite _ (Within.refl _ _) ?_
  refine Within.ite _ ?_ ?_
  · exact (State.bandSet_within ..).after ht
  · exact Within.ite _ ((State.bandSet_within ..).after ht) (Within.refl _ _)

/-- What `State.thrSet` may write. -/
def State.thrSetWrites : Writes := ⟨[.regs, .accounts], [.CPT_PWR_BUDGET, .CPT_STAT_THR]⟩

theorem State.thrSet_within (s : State) (c v : Nat) : Within State.thrSetWrites s (s.thrSet c v) := by
  unfold State.thrSet
  extract_lets t _ _ t1
  have ht : Within State.thrSetWrites s t := (State.setF_within ..).mono
  have ht1 : Within State.thrSetWrites s t1 := (State.setF_within ..).after ht
  exact Within.ite _ (Within.after (Within.update [.accounts] rfl) ht1) ht

/-- What `State.clusterOff` may write. -/
def State.clusterOffWrites : Writes := ⟨[.fresh, .out, .regs, .sram, .ecc, .cmWait, .engines, .ocus, .rings, .stations,
  .tiles, .tmvs, .scrubs, .threads, .pba, .events, .traces, .totals, .links], [.CMC_ECCADDR_OFFSET, .CMC_ECCCNT_CORR,
  .CMC_ECCCNT_UNCORR, .CMC_ECCSTAT_KIND, .CMC_ECCSTAT_MASTER, .CMC_ECCSTAT_OVERRUN, .CMC_ECCSTAT_SYNDROME,
  .CMC_ECCSTAT_VALID, .CMC_SLOT_STATE, .CMC_SLOT_TORN, .CPT_DOM_CORE, .CPT_DOM_SHARED, .CSQ_TH_EXC_CODE,
  .CSQ_TH_EXC_OVERRUN, .CSQ_TH_EXC_PC, .CSQ_TH_EXC_VALID, .CSQ_TH_STAT_STATE, .CSQ_TH_STAT_WAITKIND, .KMC_ECCADDR_OFFSET,
  .KMC_ECCCNT_CORR, .KMC_ECCCNT_UNCORR, .KMC_ECCSTAT_KIND, .KMC_ECCSTAT_MASTER, .KMC_ECCSTAT_OVERRUN,
  .KMC_ECCSTAT_SYNDROME, .KMC_ECCSTAT_VALID, .KMC_SLOT_STATE, .KMC_SLOT_TORN, .KMC_STN_LATECNT_COUNT,
  .KMC_STN_POISCNT_COUNT, .KMC_STN_SATCNT_COUNT, .KMC_STN_TORNCNT_COUNT, .KMC_STN_UNMATCH_COUNT, .TMV_ERR_COUNT]⟩

theorem State.clusterOff_within (s : State) (c : Nat) : Within State.clusterOffWrites s (s.clusterOff c) := by
  unfold State.clusterOff
  extract_lets s1
  have hs1 : Within State.clusterOffWrites s s1 := Within.foldl _ (fun _ _ => Within.ite _
    ((State.coreOff_within ..).mono) (Within.refl _ _)) _ _
  exact Within.ite _ ((State.sharedOff_within ..).after hs1) hs1

/-- What `State.clusterDead` may write. -/
def State.clusterDeadWrites : Writes := ⟨[.fresh, .out, .regs, .sram, .ecc, .cmWait, .engines, .ocus, .rings, .stations,
  .tiles, .tmvs, .scrubs, .threads, .flights, .pba, .events, .traces, .totals, .links, .deadCls], [.CMC_ECCADDR_OFFSET,
  .CMC_ECCCNT_CORR, .CMC_ECCCNT_UNCORR, .CMC_ECCSTAT_KIND, .CMC_ECCSTAT_MASTER, .CMC_ECCSTAT_OVERRUN,
  .CMC_ECCSTAT_SYNDROME, .CMC_ECCSTAT_VALID, .CMC_SLOT_STATE, .CMC_SLOT_TORN, .CPT_DOM_CORE, .CPT_DOM_SHARED,
  .CSQ_TH_EXC_CODE, .CSQ_TH_EXC_OVERRUN, .CSQ_TH_EXC_PC, .CSQ_TH_EXC_VALID, .CSQ_TH_PRED_P, .CSQ_TH_RECCNT_COUNT,
  .CSQ_TH_STAT_PC, .CSQ_TH_STAT_STATE, .CSQ_TH_STAT_WAITKIND, .KMC_ECCADDR_OFFSET, .KMC_ECCCNT_CORR, .KMC_ECCCNT_UNCORR,
  .KMC_ECCSTAT_KIND, .KMC_ECCSTAT_MASTER, .KMC_ECCSTAT_OVERRUN, .KMC_ECCSTAT_SYNDROME, .KMC_ECCSTAT_VALID,
  .KMC_SLOT_STATE, .KMC_SLOT_TORN, .KMC_STN_LATECNT_COUNT, .KMC_STN_POISCNT_COUNT, .KMC_STN_SATCNT_COUNT,
  .KMC_STN_TORNCNT_COUNT, .KMC_STN_UNMATCH_COUNT, .TMV_ERR_COUNT]⟩

theorem State.clusterDead_within (s : State) (c : Nat) : Within State.clusterDeadWrites s (s.clusterDead c) := by
  unfold State.clusterDead
  extract_lets s1 _ s2
  have hs1 : Within State.clusterDeadWrites s s1 := (State.clusterOff_within ..).mono
  have hs2 : Within State.clusterDeadWrites s s2 := Within.trans hs1 (Within.foldl _ (fun _ _ =>
    (State.park_within ..).mono) _ _)
  exact (State.raise_within ..).after (Within.after (Within.update [.deadCls] rfl) hs2)

/-- What `State.countSensors` may write. -/
def State.countSensorsWrites : Writes := ⟨[.fresh, .out, .regs, .sram, .ecc, .cmWait, .engines, .passes, .bandTime,
  .bandAt, .ocus, .dac, .rings, .stations, .tiles, .tmvs, .scrubs, .threads, .flights, .accounts, .pba, .events, .traces,
  .totals, .links, .shutRec, .deadCls], [.CMC_ECCADDR_OFFSET, .CMC_ECCCNT_CORR, .CMC_ECCCNT_UNCORR, .CMC_ECCSTAT_KIND,
  .CMC_ECCSTAT_MASTER, .CMC_ECCSTAT_OVERRUN, .CMC_ECCSTAT_SYNDROME, .CMC_ECCSTAT_VALID, .CMC_SLOT_STATE, .CMC_SLOT_TORN,
  .CPT_DOM_CORE, .CPT_DOM_SHARED, .CPT_PWR_BUDGET, .CPT_STAT_BAND, .CPT_STAT_LOWSENS, .CPT_STAT_THR, .CSQ_TH_EXC_CODE,
  .CSQ_TH_EXC_OVERRUN, .CSQ_TH_EXC_PC, .CSQ_TH_EXC_VALID, .CSQ_TH_PRED_P, .CSQ_TH_RECCNT_COUNT, .CSQ_TH_STAT_PC,
  .CSQ_TH_STAT_STATE, .CSQ_TH_STAT_WAITKIND, .GCTL_PWRST_CLEAN, .KMC_ECCADDR_OFFSET, .KMC_ECCCNT_CORR,
  .KMC_ECCCNT_UNCORR, .KMC_ECCSTAT_KIND, .KMC_ECCSTAT_MASTER, .KMC_ECCSTAT_OVERRUN, .KMC_ECCSTAT_SYNDROME,
  .KMC_ECCSTAT_VALID, .KMC_SLOT_STATE, .KMC_SLOT_TORN, .KMC_STN_LATECNT_COUNT, .KMC_STN_POISCNT_COUNT,
  .KMC_STN_SATCNT_COUNT, .KMC_STN_TORNCNT_COUNT, .KMC_STN_UNMATCH_COUNT, .ME_CALSTAT_RETRIES, .ME_CALSTAT_STATE,
  .SDAC_CTL_MODE, .SDAC_CTL_SPAN, .TMV_ERR_COUNT]⟩

theorem State.countSensors_within (s : State) (c : Nat) : Within State.countSensorsWrites s (s.countSensors c) := by
  unfold State.countSensors
  extract_lets _ s1
  have hs1 : Within State.countSensorsWrites s s1 := by
    unfold s1
    refine Within.ite _ ?_ ?_
    · exact (State.setF_within ..).after ((State.thrSet_within ..).after ((State.bandSet_within ..).mono))
    · exact (State.setF_within ..).mono
  exact Within.ite _ ((State.clusterDead_within ..).after hs1) hs1

/-- What `State.loaderAbort` may write. -/
def State.loaderAbortWrites : Writes := ⟨[.out, .regs, .tokenHeld, .tokenWait, .stations, .threads, .flights, .jobs,
  .beavers, .shards, .buckets, .bucketAt, .fns, .pba, .events, .traces, .totals], [.CPL_TAIL_INDEX, .CSQ_TH_EXC_CODE,
  .CSQ_TH_EXC_OVERRUN, .CSQ_TH_EXC_PC, .CSQ_TH_EXC_VALID, .CSQ_TH_PRED_P, .CSQ_TH_RECCNT_COUNT, .CSQ_TH_STAT_PC,
  .CSQ_TH_STAT_STATE, .CSQ_TH_STAT_WAITKIND, .WLD_ERR_CODE, .WLD_ERR_OVERRUN, .WLD_ERR_OWNER, .WLD_ERR_STATION, .WLD_ERR_VALID]⟩

theorem State.loaderAbort_within (s : State) : Within State.loaderAbortWrites s (s.loaderAbort) := by
  unfold State.loaderAbort
  extract_lets s1 s2 src
  have hs1 : Within State.loaderAbortWrites s s1 := by
    unfold s1
    refine Within.foldl _ (fun t x => ?_) _ _
    split
    · exact Within.ite _ ((State.beaverStop_within ..).mono) ((State.jobFail_within ..).mono)
    · exact Within.refl _ _
  have hs2 : Within State.loaderAbortWrites s s2 := Within.trans hs1 (Within.foldl _ (fun _ _ =>
    (State.setJobQ_within ..).after (Within.foldl _ (fun _ _ => (State.loaderAnswer_within ..).after
      ((State.swapEnd_within ..).mono)) _ _)) _ _)
  have hsrc : Within State.loaderAbortWrites s src := (State.setJobQ_within ..).after hs2
  exact Within.after (Within.update [.tokenHeld, .tokenWait] rfl) hsrc

theorem State.pgmOff_within (s : State) : Within ⟨[.out], []⟩ s (s.pgmOff) :=
  Within.foldl _ (fun _ _ => Within.ite _ ((State.emit_within ..).mono) (Within.refl _ _)) _ _

/-- What `State.shutdown` may write. -/
def State.shutdownWrites : Writes := ⟨[.pllOff, .fresh, .out, .regs, .sram, .ecc, .cmWait, .tokenHeld, .tokenWait,
  .engines, .passes, .ocus, .dac, .rings, .stations, .tiles, .tmvs, .scrubs, .threads, .flights, .groups, .snaps, .jobs,
  .beavers, .shards, .buckets, .bucketAt, .fns, .pba, .events, .traces, .totals, .links, .wakes, .avs],
  [.CMC_ECCADDR_OFFSET, .CMC_ECCCNT_CORR, .CMC_ECCCNT_UNCORR, .CMC_ECCSTAT_KIND, .CMC_ECCSTAT_MASTER,
  .CMC_ECCSTAT_OVERRUN, .CMC_ECCSTAT_SYNDROME, .CMC_ECCSTAT_VALID, .CMC_SLOT_STATE, .CMC_SLOT_TORN, .CPL_TAIL_INDEX,
  .CPT_DOM_CORE, .CPT_DOM_SHARED, .CSQ_TH_EXC_CODE, .CSQ_TH_EXC_OVERRUN, .CSQ_TH_EXC_PC, .CSQ_TH_EXC_VALID,
  .CSQ_TH_PRED_P, .CSQ_TH_RECCNT_COUNT, .CSQ_TH_STAT_PC, .CSQ_TH_STAT_STATE, .CSQ_TH_STAT_WAITKIND, .KMC_ECCADDR_OFFSET,
  .KMC_ECCCNT_CORR, .KMC_ECCCNT_UNCORR, .KMC_ECCSTAT_KIND, .KMC_ECCSTAT_MASTER, .KMC_ECCSTAT_OVERRUN,
  .KMC_ECCSTAT_SYNDROME, .KMC_ECCSTAT_VALID, .KMC_SLOT_STATE, .KMC_SLOT_TORN, .KMC_STN_LATECNT_COUNT,
  .KMC_STN_POISCNT_COUNT, .KMC_STN_SATCNT_COUNT, .KMC_STN_TORNCNT_COUNT, .KMC_STN_UNMATCH_COUNT, .LNK_OFSVAL_VALID,
  .LNK_PDOWNCNT_COUNT, .LNK_PSTAT_LANES, .LNK_PSTAT_STATE, .MBX_CH_DATA_WORD, .MBX_CH_STAT_DISCARD, .MBX_CH_STAT_FULL,
  .PWR_DIEDOM_ON, .THM_STAT_SHUT, .THM_STAT_SHUTSENS, .TMV_ERR_COUNT, .WLD_ERR_CODE, .WLD_ERR_OVERRUN, .WLD_ERR_OWNER,
  .WLD_ERR_STATION, .WLD_ERR_VALID]⟩

theorem State.shutdown_within (s : State) (sensor : Nat) : Within State.shutdownWrites s (s.shutdown sensor) := by
  unfold State.shutdown
  extract_lets s1 s2 s3 s4 _ s5 src s6
  have hs1 : Within State.shutdownWrites s s1 := (State.raise_within ..).after ((State.setF_within ..).after
    ((State.setF_within ..).mono))
  have hs2 : Within State.shutdownWrites s s2 := (State.loaderAbort_within ..).after hs1
  have hs3 : Within State.shutdownWrites s s3 := Within.trans hs2 (Within.foldl _ (fun _ _ =>
    (State.clusterOff_within ..).mono) _ _)
  have hs4 : Within State.shutdownWrites s s4 := Within.trans hs3 (Within.foldl _ (fun _ _ => Within.ite _
    ((State.dieOff_within ..).mono) (Within.refl _ _)) _ _)
  have hs5 : Within State.shutdownWrites s s5 := Within.after (Within.update [.passes, .dac] rfl) hs4
  have hsrc : Within State.shutdownWrites s src := (State.pgmOff_within ..).after hs5
  have hs6 : Within State.shutdownWrites s s6 := Within.after (Within.update [.avs] rfl) hsrc
  exact Within.ite _ ((State.emit_within ..).after hs6) hs6

theorem State.poolNow_within (s : State) : Within ⟨[.regs, .tokenPool], [.PWR_STAT_POOL]⟩ s (s.poolNow) := by
  unfold State.poolNow
  extract_lets _ src
  have hsrc : Within ⟨[.regs, .tokenPool], [.PWR_STAT_POOL]⟩ s src := (State.setF_within ..).mono
  exact Within.after (Within.update [.tokenPool] rfl) hsrc

/-- What `State.pgmFails` may write. -/
def State.pgmFailsWrites : Writes := ⟨[.out, .regs, .tokenPool, .tokenHeld, .tokenWait, .stations, .threads, .flights,
  .jobs, .beavers, .shards, .buckets, .bucketAt, .fns, .pba, .events, .traces, .totals, .pgmFault], [.CPL_TAIL_INDEX,
  .CSQ_TH_EXC_CODE, .CSQ_TH_EXC_OVERRUN, .CSQ_TH_EXC_PC, .CSQ_TH_EXC_VALID, .CSQ_TH_PRED_P, .CSQ_TH_RECCNT_COUNT,
  .CSQ_TH_STAT_PC, .CSQ_TH_STAT_STATE, .CSQ_TH_STAT_WAITKIND, .PWR_STAT_POOL, .WLD_ERR_CODE, .WLD_ERR_OVERRUN,
  .WLD_ERR_OWNER, .WLD_ERR_STATION, .WLD_ERR_VALID]⟩

theorem State.pgmFails_within (s : State) : Within State.pgmFailsWrites s (s.pgmFails) := by
  unfold State.pgmFails
  extract_lets s1
  have hs1 : Within State.pgmFailsWrites s s1 := by
    unfold s1
    refine Within.foldl _ (fun t x => ?_) _ _
    split
    · exact Within.ite _ ((State.jobFail_within ..).mono) (Within.refl _ _)
    · exact Within.refl _ _
  exact (State.poolNow_within ..).after (Within.trans (Within.after (Within.update [.pgmFault] rfl) hs1) (Within.foldl _
    (fun _ _ => (State.freeToken_within ..).mono) _ _))

/-- What `State.regAnswer` may write. -/
def State.regAnswerWrites : Writes := ⟨[.fresh, .out, .regs, .tokenPool, .tokenHeld, .tokenWait, .stations, .threads,
  .flights, .jobs, .beavers, .shards, .buckets, .bucketAt, .fns, .pba, .events, .traces, .totals, .pgmFault, .regFails],
  [.CPL_TAIL_INDEX, .CSQ_TH_EXC_CODE, .CSQ_TH_EXC_OVERRUN, .CSQ_TH_EXC_PC, .CSQ_TH_EXC_VALID, .CSQ_TH_PRED_P,
  .CSQ_TH_RECCNT_COUNT, .CSQ_TH_STAT_PC, .CSQ_TH_STAT_STATE, .CSQ_TH_STAT_WAITKIND, .PWR_REG_POUT_MW,
  .PWR_REG_STAT_FAULT, .PWR_REG_STAT_STATUS, .PWR_STAT_POOL, .WLD_ERR_CODE, .WLD_ERR_OVERRUN, .WLD_ERR_OWNER,
  .WLD_ERR_STATION, .WLD_ERR_VALID]⟩

theorem State.regAnswer_within (s : State) (n : Nat) (a : RegAnswer) : Within State.regAnswerWrites s (s.regAnswer n a) := by
  unfold State.regAnswer
  extract_lets s1 s2 t
  have hs1 : Within State.regAnswerWrites s s1 := (Within.update [.regFails] rfl).mono
  have hs2 : Within State.regAnswerWrites s s2 := (State.setF_within ..).after ((State.setF_within ..).after hs1)
  have ht : Within State.regAnswerWrites s t := by
    unfold t
    refine Within.ite _ ?_ ?_
    · exact (State.burn_within ..).after hs2
    · exact (State.raise_within ..).after ((State.burn_within ..).after ((State.setF_within ..).after hs2))
  exact Within.ite _ (Within.ite _ ((State.pgmFails_within ..).after ht) ht) ((State.burn_within ..).after hs2)

/-- What `State.regSilent` may write. -/
def State.regSilentWrites : Writes := ⟨[.regs, .regFails, .regTried, .avs], [.PWR_AVS_HELD, .PWR_REG_STAT_LOST]⟩

theorem State.regSilent_within (s : State) (n : Nat) : Within State.regSilentWrites s (s.regSilent n) := by
  unfold State.regSilent
  extract_lets _ s1 src s2 src1
  have hs1 : Within State.regSilentWrites s s1 := (Within.update [.regFails] rfl).mono
  have hsrc : Within State.regSilentWrites s src := (State.setF_within ..).after hs1
  have hs2 : Within State.regSilentWrites s s2 := Within.after (Within.update [.regTried] rfl) hsrc
  have hsrc1 : Within State.regSilentWrites s src1 := (State.setF_within ..).after hs2
  exact Within.ite _ hs1 (Within.ite _ (Within.after (Within.update [.avs] rfl) hsrc1) hs2)

/-- What `State.telemetry` may write. -/
def State.telemetryWrites : Writes := ⟨[.fresh, .out, .regs, .tokenPool, .tokenHeld, .tokenWait, .stations, .threads,
  .flights, .jobs, .beavers, .shards, .buckets, .bucketAt, .fns, .pba, .events, .traces, .totals, .pgmFault, .regFails,
  .regTried, .avs], [.CPL_TAIL_INDEX, .CSQ_TH_EXC_CODE, .CSQ_TH_EXC_OVERRUN, .CSQ_TH_EXC_PC, .CSQ_TH_EXC_VALID,
  .CSQ_TH_PRED_P, .CSQ_TH_RECCNT_COUNT, .CSQ_TH_STAT_PC, .CSQ_TH_STAT_STATE, .CSQ_TH_STAT_WAITKIND, .PWR_AVS_HELD,
  .PWR_REG_POUT_MW, .PWR_REG_STAT_FAULT, .PWR_REG_STAT_LOST, .PWR_REG_STAT_STATUS, .PWR_STAT_POOL, .WLD_ERR_CODE,
  .WLD_ERR_OVERRUN, .WLD_ERR_OWNER, .WLD_ERR_STATION, .WLD_ERR_VALID]⟩

theorem State.telemetry_within (s : State) (answers : List (Option RegAnswer)) :
    Within State.telemetryWrites s (s.telemetry answers) := by
  unfold State.telemetry
  refine Within.foldl _ (fun t x => ?_) _ _
  refine Within.ite _ (Within.refl _ _) ?_
  split
  · exact (State.regAnswer_within ..).mono
  · exact (State.regSilent_within ..).mono

/-- What `State.powerShown` may write. -/
def State.powerShownWrites : Writes := ⟨[.fresh, .regs], [.CPT_PWR_MW, .PWR_STAT_DIEMW]⟩

theorem State.powerShown_within (s : State) : Within State.powerShownWrites s (s.powerShown) := by
  unfold State.powerShown
  extract_lets _ _ _ s1
  have hs1 : Within State.powerShownWrites s s1 := (State.burn_within ..).after ((State.setF_within ..).mono)
  exact Within.trans hs1 (Within.foldl _ (fun _ _ => (State.burn_within ..).after ((State.setF_within ..).mono)) _ _)

/-- What `State.burnsCut` may write. -/
def State.burnsCutWrites : Writes := ⟨[.fresh, .regs, .lc, .lcBusy, .fwTarget], [.NVS_FWARB_COUNT]⟩

theorem State.burnsCut_within (s : State) : Within State.burnsCutWrites s (s.burnsCut) := by
  unfold State.burnsCut
  extract_lets s1 _
  have hs1 : Within State.burnsCutWrites s s1 := by
    unfold s1
    split
    · exact (Within.update [.lc, .lcBusy] rfl).mono
    · exact Within.refl _ _
  split
  · extract_lets src
    have hsrc : Within State.burnsCutWrites s src := (State.burn_within ..).after ((State.setF_within ..).after hs1)
    exact Within.after (Within.update [.fwTarget] rfl) hsrc
  · exact hs1

theorem State.commitCut_within (s : State) : Within ⟨[.fresh, .settMem], []⟩ s (s.commitCut) := by
  unfold State.commitCut
  split
  · refine Within.foldl _ (fun t x => ?_) _ _
    refine Within.ite _ ?_ ?_
    · exact (State.burn_within ..).after ((Within.update [.settMem] rfl).mono)
    · exact (State.burn_within ..).mono
  · exact Within.refl _ _

/-- What `State.startSensors` may write. -/
def State.startSensorsWrites : Writes := ⟨[.fresh, .out, .regs, .bandAt, .pba, .events, .traces, .medPrev, .deadCls],
  [.CPT_STAT_BAND, .CPT_STAT_LOWSENS, .CPT_STAT_MEDIAN, .CPT_STAT_THR, .THM_SENS_TEMP, .THM_SENS_VALID, .THM_STAT_DIEMED]⟩

theorem State.startSensors_within (s : State) : Within State.startSensorsWrites s (s.startSensors) := by
  unfold State.startSensors
  extract_lets s1 s2 _ s3 s4
  have hs1 : Within State.startSensorsWrites s s1 := Within.foldl _ (fun _ _ => (State.setF_within ..).mono) _ _
  have hs2 : Within State.startSensorsWrites s s2 := (State.takeMeans_within ..).after hs1
  have hs3 : Within State.startSensorsWrites s s3 := Within.trans hs2 (Within.foldl _ (fun _ _ =>
    (State.raise_within ..).after ((State.setF_within ..).mono)) _ _)
  have hs4 : Within State.startSensorsWrites s s4 := (State.takeMedians_within ..).after hs3
  refine Within.trans hs4 (Within.foldl _ (fun t x => ?_) _ _)
  extract_lets _ src t1 t2
  have hsrc : Within State.startSensorsWrites t src := (State.setF_within ..).mono
  have ht1 : Within State.startSensorsWrites t t1 := Within.after (Within.update [.bandAt] rfl) hsrc
  have ht2 : Within State.startSensorsWrites t t2 := Within.ite _ ((State.setF_within ..).after
    ((State.setF_within ..).after ht1)) ht1
  exact Within.ite _ ((State.raise_within ..).after (Within.after (Within.update [.deadCls] rfl) ht2)) ht2

/-- What `State.startCalibration` may write. -/
def State.startCalibrationWrites : Writes := ⟨[.regs, .passes, .dac], [.ME_CALSTAT_STATE]⟩

theorem State.startCalibration_within (s : State) (cold : Bool) :
    Within State.startCalibrationWrites s (s.startCalibration cold) := by
  unfold State.startCalibration
  extract_lets _
  refine Within.foldl _ (fun t x => ?_) _ _
  extract_lets _ _
  exact (State.queueCal_within ..).mono

/-- What `State.startReadback` may write. -/
def State.startReadbackWrites : Writes := ⟨[.jobs, .shards, .spot, .spotDue], []⟩

theorem State.startReadback_within (s : State) (warm : Bool) : Within State.startReadbackWrites s (s.startReadback warm) := by
  unfold State.startReadback
  extract_lets _
  exact (State.spotSettle_within ..).after ((State.setJobQ_within ..).after ((Within.update [.shards, .spotDue] rfl).mono))

/-- What `State.startFails` may write. -/
def State.startFailsWrites : Writes := ⟨[.pllOff, .out, .regs, .dac, .pba, .points, .links, .wakes], [.GCTL_RESET_LAST,
  .GCTL_START_BOOTS, .GCTL_START_STEP, .LNK_PSTAT_STATE, .PWR_DIEDOM_ON, .SDAC_CTL_ROUTE, .SDAC_CTL_SPAN, .SDAC_STAT_PASSAGE]⟩

theorem State.startFails_within (s : State) : Within State.startFailsWrites s (s.startFails) :=
  (State.dieUp_within ..).after ((State.setF_within ..).after ((State.setF_within ..).after ((State.setF_within ..).mono)))

/-- What `State.runStart` may write. -/
def State.runStartWrites : Writes := ⟨[.pllOff, .fresh, .out, .regs, .passes, .bandAt, .dac, .jobs, .shards, .pba,
  .events, .traces, .points, .links, .wakes, .shutRec, .medPrev, .deadCls, .spot, .spotDue], [.CPT_STAT_BAND,
  .CPT_STAT_LOWSENS, .CPT_STAT_MEDIAN, .CPT_STAT_THR, .GCTL_MGR_STANDBY, .GCTL_START_BOOTS, .GCTL_START_CAUSE,
  .GCTL_START_KIND, .GCTL_START_SLOT, .GCTL_START_STEP, .LNK_PSTAT_STATE, .ME_CALSTAT_STATE, .PWR_DIEDOM_ON,
  .SDAC_CTL_ROUTE, .SDAC_CTL_SPAN, .SDAC_STAT_PASSAGE, .THM_SENS_TEMP, .THM_SENS_VALID, .THM_STAT_DIEMED]⟩

theorem State.runStart_within (s : State) (kind cause : Nat) (slot : Bool) :
    Within State.runStartWrites s (s.runStart kind cause slot) := by
  unfold State.runStart
  extract_lets _ s1 s2 s3 s4 s5
  have hs1 : Within State.runStartWrites s s1 := (Within.update [.shutRec] rfl).mono
  have hs2 : Within State.runStartWrites s s2 := (State.setF_within ..).after ((State.setF_within ..).after
    ((State.setF_within ..).after hs1))
  have hs3 : Within State.runStartWrites s s3 := (State.startSensors_within ..).after ((State.setB_within ..).after hs2)
  have hs4 : Within State.runStartWrites s s4 := (State.setF_within ..).after ((State.setF_within ..).after hs3)
  have hs5 : Within State.runStartWrites s s5 := Within.trans hs4 (Within.foldl _ (fun _ _ => Within.ite _
    ((State.dieUp_within ..).mono) (Within.refl _ _)) _ _)
  exact (State.startReadback_within ..).after ((State.startCalibration_within ..).after hs5)

/-- What `State.restoreRecord` may write. -/
def State.restoreRecordWrites : Writes := ⟨[.regs, .trackers, .trims], [.ME_CALSTAT_BAND]⟩

theorem State.restoreRecord_within (s : State) (r : ShutRecord) : Within State.restoreRecordWrites s (s.restoreRecord r) := by
  unfold State.restoreRecord
  extract_lets s1 s2
  have hs1 : Within State.restoreRecordWrites s s1 := (Within.update [.trims] rfl).mono
  have hs2 : Within State.restoreRecordWrites s s2 := Within.trans hs1 (Within.foldl _ (fun _ _ =>
    (State.setF_within ..).mono) _ _)
  exact Within.trans hs2 (Within.foldl _ (fun _ _ => (State.setTracker_within ..).mono) _ _)

/-- What `State.loadSlots` may write. -/
def State.loadSlotsWrites : Writes := ⟨[.regs], [.PWR_REG_ADDR, .PWR_REG_PEC, .PWR_REG_RAIL, .PWR_REG_SPEED, .PWR_REG_VALID]⟩

theorem State.loadSlots_within (s : State) (ws : List (BitVec 32)) : Within State.loadSlotsWrites s (s.loadSlots ws) := by
  unfold State.loadSlots
  refine Within.foldl _ (fun t x => ?_) _ _
  extract_lets _ t1
  have ht1 : Within State.loadSlotsWrites t t1 := (State.setF_within ..).after ((State.setF_within ..).after
    ((State.setF_within ..).mono))
  exact (State.setF_within ..).after ((State.setF_within ..).after ht1)

/-- What `State.wakeStart` may write. -/
def State.wakeStartWrites : Writes := ⟨[.pllOff, .out, .regs, .passes, .dac, .shards, .pba, .points, .links, .wakes,
  .wakeAsked], [.GCTL_PWRST_STATE, .LNK_PSTAT_STATE, .ME_CALSTAT_STATE, .PWR_DIEDOM_ON, .SDAC_CTL_ROUTE, .SDAC_CTL_SPAN,
  .SDAC_STAT_PASSAGE]⟩

theorem State.wakeStart_within (s : State) : Within State.wakeStartWrites s (s.wakeStart) := by
  unfold State.wakeStart
  extract_lets _ src s1 s2
  have hsrc : Within State.wakeStartWrites s src := (State.setF_within ..).mono
  have hs1 : Within State.wakeStartWrites s s1 := Within.after (Within.update [.shards, .wakeAsked] rfl) hsrc
  have hs2 : Within State.wakeStartWrites s s2 := Within.trans hs1 (Within.foldl _ (fun _ _ => Within.ite _
    (Within.refl _ _) ((State.dieUp_within ..).mono)) _ _)
  exact (State.startCalibration_within ..).after hs2

/-- What `State.voidCommands` may write. -/
def State.voidCommandsWrites : Writes := ⟨[.out, .regs, .fns, .pba], [.CMD_CONS_INDEX, .CPL_TAIL_INDEX]⟩

theorem State.voidCommands_within (s : State) (f : Nat) : Within State.voidCommandsWrites s (s.voidCommands f) := by
  unfold State.voidCommands
  extract_lets _ s1 s2
  have hs1 : Within State.voidCommandsWrites s s1 := (State.setFn_within ..).mono
  have hs2 : Within State.voidCommandsWrites s s2 := (State.setF_within ..).after hs1
  exact Within.trans hs2 (Within.foldl _ (fun _ _ => (State.complete_within ..).mono) _ _)

/-- What `State.abandonLoads` may write. -/
def State.abandonLoadsWrites : Writes := ⟨[.fresh, .out, .regs, .sram, .ecc, .owls, .rings, .stations, .tmvs, .ctxs,
  .scrubs, .threads, .flights, .groups, .sets, .snaps, .parts, .buckets, .bucketAt, .fns, .accepted, .loading, .pba,
  .events, .traces, .points, .totals, .wrules, .heldRules, .outMarks], [.CMC_ECCADDR_OFFSET, .CMC_ECCCNT_CORR,
  .CMC_ECCCNT_UNCORR, .CMC_ECCSTAT_KIND, .CMC_ECCSTAT_MASTER, .CMC_ECCSTAT_OVERRUN, .CMC_ECCSTAT_SYNDROME,
  .CMC_ECCSTAT_VALID, .CMC_SLOT_STATE, .CMC_SLOT_TORN, .CPL_TAIL_INDEX, .CSQ_TH_EXC_CODE, .CSQ_TH_EXC_OVERRUN,
  .CSQ_TH_EXC_PC, .CSQ_TH_EXC_VALID, .CSQ_TH_PRED_P, .CSQ_TH_RECCNT_COUNT, .CSQ_TH_REGION_BASE, .CSQ_TH_REGION_LAST,
  .CSQ_TH_REGION_STRICT, .CSQ_TH_STAT_OWNER, .CSQ_TH_STAT_PC, .CSQ_TH_STAT_STATE, .CSQ_TH_STAT_WAITKIND,
  .KMC_ARBW0_W_CORE0, .KMC_ARBW0_W_CORE1, .KMC_ARBW0_W_CORE2, .KMC_ARBW0_W_CORE3, .KMC_ARBW0_W_CORE4, .KMC_ARBW0_W_CORE5,
  .KMC_ARBW0_W_CORE6, .KMC_ARBW0_W_CORE7, .KMC_ARBW1_W_CSQ, .KMC_ARBW1_W_OCU, .KMC_ECCADDR_OFFSET, .KMC_ECCCNT_CORR,
  .KMC_ECCCNT_UNCORR, .KMC_ECCSTAT_KIND, .KMC_ECCSTAT_MASTER, .KMC_ECCSTAT_OVERRUN, .KMC_ECCSTAT_SYNDROME,
  .KMC_ECCSTAT_VALID, .KMC_SLOT_STATE, .KMC_SLOT_TORN, .OBS_TW_CFG_ARMED, .OWL_SCFG_EN, .OWL_SCFG_STATION,
  .OWL_SSTAT_STATE, .POS_TRG_CFG_EN, .SVC_DATA_WORD, .SVC_STAT_FULL, .SVC_STAT_LOST, .TEN_CMKIB_VALUE, .TEN_KMKIB_VALUE,
  .TEN_LDRMS_VALUE, .TEN_QUOTA0_CONTEXTS, .TEN_QUOTA0_CORES, .TEN_QUOTA0_LINKSHARE, .TEN_QUOTA0_WOUTMAP,
  .TEN_QUOTA1_GRACE, .WIO_WOUTSTAT_EXTLOW, .WIO_WOUTSTAT_FAULT, .WIO_WOUTSTAT_HELD, .WIO_WOUTSTAT_PIN]⟩

theorem State.abandonLoads_within (s : State) : Within State.abandonLoadsWrites s (s.abandonLoads) := by
  unfold State.abandonLoads
  extract_lets _ s1 s2
  have hs1 : Within State.abandonLoadsWrites s s1 := Within.trans ((Within.update [.loading] rfl).mono) (Within.foldl _
    (fun _ _ => (State.loadRemove_within ..).mono) _ _)
  have hs2 : Within State.abandonLoadsWrites s s2 := Within.trans hs1 (Within.foldl _ (fun _ _ =>
    (State.complete_within ..).mono) _ _)
  exact Within.trans hs2 (Within.foldl _ (fun _ _ => (State.complete_within ..).after
    ((State.takeAccepted_within ..).mono)) _ _)

theorem State.putSlot_within (s : State) (n : Nat) (x : CounterSlot) : Within ⟨[.settMem], []⟩ s (s.putSlot n x) := by
  have h (m : SMap (Option Byte)) : Within ⟨[.settMem], []⟩ s { s with settMem := m } := Within.update [.settMem] rfl
  exact h _

/-- What `State.flrBegin` may write. -/
def State.flrBeginWrites : Writes := ⟨[.stations, .ctxs, .fns, .accepted, .loading], []⟩

theorem State.flrBegin_within (s : State) (t : Nat) : Within State.flrBeginWrites s (s.flrBegin t) := by
  unfold State.flrBegin
  extract_lets _ s1 s2
  have hs1 : Within State.flrBeginWrites s s1 := (Within.update [.accepted, .loading] rfl).mono
  have hs2 : Within State.flrBeginWrites s s2 := (State.setFn_within ..).after hs1
  exact (State.reclaimEnd_within ..).after hs2

theorem State.linkDrop_within (s : State) (t p : Nat) : Within ⟨[.out, .links], []⟩ s (s.linkDrop t p) := by
  unfold State.linkDrop
  extract_lets _ _ _ _ _ s1
  have hs1 : Within ⟨[.out, .links], []⟩ s s1 := (State.setLink_within ..).mono
  exact Within.trans hs1 (Within.foldl _ (fun _ _ => Within.ite _ ((State.sendFrame_within ..).mono) (Within.refl _ _)) _ _)

/-- What `State.flrDrop` may write. -/
def State.flrDropWrites : Writes := ⟨[.out, .regs, .tokenHeld, .tokenWait, .stations, .tmvs, .ingests, .threads,
  .flights, .jobs, .beavers, .shards, .buckets, .bucketAt, .fns, .pba, .events, .traces, .digests, .totals, .links],
  [.CPL_TAIL_INDEX, .CSQ_TH_EXC_CODE, .CSQ_TH_EXC_OVERRUN, .CSQ_TH_EXC_PC, .CSQ_TH_EXC_VALID, .CSQ_TH_PRED_P,
  .CSQ_TH_RECCNT_COUNT, .CSQ_TH_STAT_PC, .CSQ_TH_STAT_STATE, .CSQ_TH_STAT_WAITKIND, .WLD_ERR_CODE, .WLD_ERR_OVERRUN,
  .WLD_ERR_OWNER, .WLD_ERR_STATION, .WLD_ERR_VALID]⟩

theorem State.flrDrop_within (s : State) (t : Nat) : Within State.flrDropWrites s (s.flrDrop t) := by
  unfold State.flrDrop
  extract_lets _ _ _ _ s1 s2
  have hs1 : Within State.flrDropWrites s s1 := (Within.update [.tmvs, .ingests, .digests] rfl).mono
  have hs2 : Within State.flrDropWrites s s2 := Within.trans hs1 (Within.foldl _ (fun _ _ =>
    (State.linkDrop_within ..).mono) _ _)
  exact (State.abortJobs_within ..).after hs2

/-- What `State.flrPartition` may write. -/
def State.flrPartitionWrites : Writes := ⟨[.fresh, .out, .regs, .sram, .ecc, .engines, .ocus, .owls, .rings, .stations,
  .tiles, .tmvs, .ctxs, .scrubs, .threads, .flights, .groups, .sets, .snaps, .parts, .fns, .loading, .pba, .events,
  .traces, .points, .totals, .wrules, .heldRules, .outMarks], [.CMC_ECCADDR_OFFSET, .CMC_ECCCNT_CORR, .CMC_ECCCNT_UNCORR,
  .CMC_ECCSTAT_KIND, .CMC_ECCSTAT_MASTER, .CMC_ECCSTAT_OVERRUN, .CMC_ECCSTAT_SYNDROME, .CMC_ECCSTAT_VALID,
  .CMC_SLOT_STATE, .CMC_SLOT_TORN, .CSQ_TH_EXC_CODE, .CSQ_TH_EXC_OVERRUN, .CSQ_TH_EXC_PC, .CSQ_TH_EXC_VALID,
  .CSQ_TH_PRED_P, .CSQ_TH_RECCNT_COUNT, .CSQ_TH_REGION_BASE, .CSQ_TH_REGION_LAST, .CSQ_TH_REGION_STRICT,
  .CSQ_TH_STAT_OWNER, .CSQ_TH_STAT_PC, .CSQ_TH_STAT_STATE, .CSQ_TH_STAT_WAITKIND, .KMC_ARBW0_W_CORE0, .KMC_ARBW0_W_CORE1,
  .KMC_ARBW0_W_CORE2, .KMC_ARBW0_W_CORE3, .KMC_ARBW0_W_CORE4, .KMC_ARBW0_W_CORE5, .KMC_ARBW0_W_CORE6, .KMC_ARBW0_W_CORE7,
  .KMC_ARBW1_W_CSQ, .KMC_ARBW1_W_OCU, .KMC_ECCADDR_OFFSET, .KMC_ECCCNT_CORR, .KMC_ECCCNT_UNCORR, .KMC_ECCSTAT_KIND,
  .KMC_ECCSTAT_MASTER, .KMC_ECCSTAT_OVERRUN, .KMC_ECCSTAT_SYNDROME, .KMC_ECCSTAT_VALID, .KMC_SLOT_STATE, .KMC_SLOT_TORN,
  .KMC_STN_LATECNT_COUNT, .KMC_STN_POISCNT_COUNT, .KMC_STN_SATCNT_COUNT, .KMC_STN_TORNCNT_COUNT, .KMC_STN_UNMATCH_COUNT,
  .OBS_TW_CFG_ARMED, .OWL_SCFG_EN, .OWL_SCFG_STATION, .OWL_SSTAT_STATE, .POS_TRG_CFG_EN, .SVC_DATA_WORD, .SVC_STAT_FULL,
  .SVC_STAT_LOST, .WIO_WOUTSTAT_EXTLOW, .WIO_WOUTSTAT_FAULT, .WIO_WOUTSTAT_HELD, .WIO_WOUTSTAT_PIN]⟩

theorem State.flrPartition_within (s : State) (t : Nat) : Within State.flrPartitionWrites s (s.flrPartition t) := by
  unfold State.flrPartition
  extract_lets _ s1 _ s2 s3 s4 s5
  have hs1 : Within State.flrPartitionWrites s s1 := Within.foldl _ (fun _ _ => (State.warmReset_within ..).mono) _ _
  have hs2 : Within State.flrPartitionWrites s s2 := (State.unloadStop_within ..).after hs1
  have hs3 : Within State.flrPartitionWrites s s3 := Within.trans hs2 (Within.foldl _ (fun _ _ =>
    (State.setCtx_within ..).mono) _ _)
  have hs4 : Within State.flrPartitionWrites s s4 := Within.ite _ ((State.unloadFree_within ..).after hs3) hs3
  have hs5 : Within State.flrPartitionWrites s s5 := Within.trans hs4 (Within.foldl _ (fun _ _ =>
    (State.zeroFill_within ..).mono) _ _)
  exact Within.trans hs5 (Within.foldl _ (fun _ _ => (State.zeroFill_within ..).mono) _ _)

/-- What `State.takeUp` may write. -/
def State.takeUpWrites : Writes := ⟨[.out, .regs, .fns, .accepted, .pba], [.CPL_TAIL_INDEX]⟩

theorem State.takeUp_within (s : State) (f : Nat) (e : List Word) : Within State.takeUpWrites s (s.takeUp f e) := by
  unfold State.takeUp
  extract_lets _ s1
  have hs1 : Within State.takeUpWrites s s1 := (State.setFn_within ..).mono
  refine Within.ite _ ((State.complete_within ..).mono) ?_
  refine Within.ite _ ?_ ?_
  · exact (State.complete_within ..).mono
  · exact Within.ite _ (Within.after (Within.update [.accepted] rfl) hs1) hs1

/-- What `State.drainCpl` may write. -/
def State.drainCplWrites : Writes := ⟨[.out, .regs, .fns, .pba], [.CPL_TAIL_INDEX]⟩

theorem State.drainCpl_within (s : State) (f n : Nat) : Within State.drainCplWrites s (s.drainCpl f n) := by
  induction n generalizing s with
  | zero => exact Within.refl _ _
  | succ n ih =>
    unfold State.drainCpl
    split
    · exact Within.ite _ ((ih _).after ((State.cplWrite_within ..).after ((State.setFn_within ..).mono))) (Within.refl _ _)
    · exact Within.refl _ _

end Sys2Proof.Machine
end

section
/-!
PROOF. The power cap, the regulators and adaptive voltage (R389 to R396, O55).
-/

set_option Elab.async false

namespace Sys2Proof.Machine
open Sys2Proof

/-! ### A fold over distinct places, seen from one of them -/

/-- A fold in which only the step at n does more than K allows. -/
theorem foldl_at {α σ : Type} {K : σ → σ → Prop} (hr : ∀ s, K s s) (ht : ∀ s t u, K s t → K t u → K s u) (f : σ → α → σ) (n : α)
    (hk : ∀ s k, k ≠ n → K s (f s k)) {xs : List α} (hd : xs.Nodup) (hn : n ∈ xs) (s : σ) :
    ∃ u, K s u ∧ K (f u n) (xs.foldl f s) := by
  have hall (ys : List α) (h : n ∉ ys) (t : σ) : K t (ys.foldl f t) := by
    induction ys generalizing t with
    | nil => exact hr t
    | cons y ys ih =>
      obtain ⟨hy, hys⟩ := not_or.mp (fun hx => h (List.mem_cons.mpr hx))
      exact ht _ _ _ (hk t y (Ne.symm hy)) (ih hys _)
  obtain ⟨ys, zs, rfl⟩ := List.append_of_mem hn
  obtain ⟨-, hz, hyz⟩ := List.nodup_append.mp hd
  obtain ⟨hnz, -⟩ := List.nodup_cons.mp hz
  have hny : n ∉ ys := fun h => hyz n h n List.mem_cons_self rfl
  exact ⟨ys.foldl f s, hall ys hny s, by rw [List.foldl_append, List.foldl_cons]; exact hall zs hnz _⟩

/-! ### The power cap (R392 to R396) -/

theorem length_shares (rest : Nat) (demand : List Nat) : (shares rest demand).length = demand.length := by
  unfold shares
  extract_lets total
  split <;> exact List.length_map ..

theorem length_budgets (rest : Nat) (demand : List Nat) : (budgets rest demand).length = demand.length := by
  simp [budgets, length_shares]

theorem le_of_mem_budgets {rest : Nat} {demand : List Nat} {b : Nat} (h : b ∈ budgets rest demand) : 8 ≤ b := by
  obtain ⟨p, -, rfl⟩ := List.mem_map.mp h
  omega

theorem throttled_zero (b : Nat) : throttled b 0 = b := by
  simp [throttled]

/-- Budgets and accounts of the clusters that a refill names: a named cluster's register shows its account. -/
theorem refill_spec (ps : List (Nat × Nat)) (s : State) (c : Nat) (hc : c ∈ ps.map Prod.fst) :
    ∃ b, (c, b) ∈ ps ∧ smapGet 0 (ps.foldl (fun (m : SMap Nat) p => smapSet 0 m p.1 p.2) []) c = b ∧
      (ps.foldl (fun (t : State) p => t.setF .CPT_PWR_BUDGET p.1 (min 65535 p.2)) s).getF .CPT_PWR_BUDGET c = min 65535 b := by
  induction ps using List.reverseRecOn with
  | nil => cases hc
  | append_singleton ps p ih =>
    simp only [List.foldl_append, List.foldl_cons, List.foldl_nil]
    by_cases h : p.1 = c
    · subst h
      refine ⟨p.2, List.mem_append_right _ List.mem_cons_self, smapGet_set_same .., ?_⟩
      rw [State.getF_setF_same]
      exact Nat.mod_eq_of_lt (show min 65535 p.2 < 65536 by omega)
    · have hc' : c ∈ ps.map Prod.fst := by simpa [Ne.symm h] using hc
      obtain ⟨b, hb, hm, ht⟩ := ih hc'
      exact ⟨b, List.mem_append_left _ hb, (smapGet_set_ne _ _ h).trans hm, (State.getF_setF_ne _ _ (fun hx => h hx.2)).trans ht⟩

theorem refill_none (ps : List (Nat × Nat)) (c : Nat) (hc : c ∉ ps.map Prod.fst) :
    smapGet 0 (ps.foldl (fun (m : SMap Nat) p => smapSet 0 m p.1 p.2) []) c = 0 := by
  induction ps using List.reverseRecOn with
  | nil => rfl
  | append_singleton ps p ih =>
    rw [List.map_append, List.mem_append, not_or] at hc
    simp only [List.foldl_append, List.foldl_cons, List.foldl_nil]
    exact (smapGet_set_ne _ _ (fun h => hc.2 (by simp [h]))).trans (ih hc.1)

theorem capWrite_spec (now : Nat) (v : BitVec 8) (s : State) :
    ∃ t, exec (.capWrite now v) s = .next t ∧ t.getF .PWR_CAP_CAP 0 = max 24 (min (4 * s.setting 4) v.toNat) ∧
      t.getF .PWR_STAT_OVERCAP 0 = 0 ∧
      KeepsRegs s t (fun f i => (f == .PWR_CAP_CAP || f == .PWR_STAT_OVERCAP) && i == 0) ∧
      t = { s.advance now with regs := t.regs } := by
  refine ⟨_, rfl, ?_, ?_, ?_, rfl⟩
  · rw [State.getF_setF_ne _ _ (by decide), State.getF_setF_same]
    refine Nat.mod_eq_of_lt ?_
    have hv := v.isLt
    change _ < 256
    change v.toNat < 256 at hv
    change max 24 (min (4 * s.setting 4) v.toNat) < 256
    omega
  · exact State.getF_setF_same ..
  · exact ((KeepsRegs.refl s _).setF (s := s) (t := s.advance now) rfl _).setF rfl _

theorem State.poolNow_pool (s : State) : s.poolNow.tokenPool = if s.pgmFault then 0 else min 256 (2 * (s.capNow - 8)) := rfl

theorem State.poolNow_stat (s : State) : s.poolNow.getF .PWR_STAT_POOL 0 = s.poolNow.tokenPool := by
  refine (s.getF_setF_same .PWR_STAT_POOL 0 _).trans (Nat.mod_eq_of_lt ?_)
  change (if s.pgmFault then 0 else min 256 (2 * (s.capNow - 8))) < 512
  split <;> omega

/-- The cap in force and the pool of a refill (R395, R396). -/
def State.capTaken (s : State) : State :=
  let v := min (s.getF .PWR_CAP_CAP 0) (4 * s.setting 4)
  { s.setF .PWR_CAP_CAP 0 v with capNow := v }.poolNow

theorem State.capTaken_within (s : State) :
    Within ⟨[.regs, .capNow, .tokenPool], [.PWR_CAP_CAP, .PWR_STAT_POOL]⟩ s s.capTaken := by
  have hcap (t : State) (v : Nat) : Within ⟨[.capNow], []⟩ t { t with capNow := v } := Within.update [.capNow] rfl
  exact (State.poolNow_within _).after ((hcap _ _).after ((State.setF_within ..).mono))

/-- What the registers of the clusters show after a refill: each its budget, throttled (R394). -/
def refillShown (cs bs : List Nat) (thr : Nat → Nat) : List (Nat × Nat) :=
  (cs.zip bs).map (fun p => (p.1, throttled p.2 (thr p.1)))

theorem refillShown_clusters {cs bs : List Nat} (h : bs.length = cs.length) (thr : Nat → Nat) :
    (refillShown cs bs thr).map Prod.fst = cs := by
  unfold refillShown
  rw [List.map_map]
  exact List.map_fst_zip h.ge

theorem refillShown_least {cs bs : List Nat} {thr : Nat → Nat} {c b : Nat} (hb : ∀ x ∈ bs, 8 ≤ x) (h : (c, b) ∈ refillShown cs bs thr)
    (ht : thr c = 0) : 8 ≤ b := by
  obtain ⟨p, hp, he⟩ := List.mem_map.mp h
  obtain ⟨rfl, rfl⟩ := Prod.mk.inj he
  rw [ht, throttled_zero]
  exact hb _ (List.of_mem_zip hp).2

theorem mem_awake (s : State) (c : Nat) : c ∈ s.awake ↔ c < 16 ∧ s.sharedOn c = true := by
  simp [State.awake, List.mem_filter]

theorem refill_within (ps : List (Nat × Nat)) (s : State) :
    Within ⟨[.regs], [.CPT_PWR_BUDGET]⟩ s (ps.foldl (fun (t : State) p => t.setF .CPT_PWR_BUDGET p.1 (min 65535 p.2)) s) :=
  Within.foldl _ (fun _ _ => State.setF_within ..) _ _

/-- What a refill may write. -/
def refillWrites : Writes :=
  ⟨[.regs, .capNow, .tokenPool, .fresh], [.PWR_CAP_CAP, .PWR_STAT_POOL, .PWR_STAT_OVERCAP, .CPT_PWR_BUDGET]⟩

theorem budgetRefill_spec (now base : Nat) (s : State) (h : (s.advance now).clock % 100000 = 0) :
    ∃ t, exec (.budgetRefill now base) s = .next t ∧ t.capNow = min (s.getF .PWR_CAP_CAP 0) (4 * s.setting 4) ∧
      t.tokenPool = (if s.pgmFault then 0 else min 256 (2 * (t.capNow - 8))) ∧ t.getF .PWR_STAT_POOL 0 = t.tokenPool ∧
      (∀ c, c < 16 → s.sharedOn c = true → s.getF .CPT_STAT_THR c = 0 → 8 ≤ t.getF .CPT_PWR_BUDGET c) ∧
      (∀ c, c < 16 → s.sharedOn c = true → t.getF .CPT_PWR_BUDGET c = min 65535 (smapGet 0 t.accounts c)) ∧
      (∀ c, s.sharedOn c = false → smapGet 0 t.accounts c = 0) ∧
      KeepsRegs s t (fun f _ => [Fld.PWR_CAP_CAP, .PWR_STAT_POOL, .PWR_STAT_OVERCAP, .CPT_PWR_BUDGET].contains f) ∧
      t = { s.advance now with regs := t.regs, capNow := t.capNow, tokenPool := t.tokenPool, fresh := t.fresh,
                               accounts := t.accounts, refillAt := some (max s.time now), grants := t.grants } := by
  rw [show exec (.budgetRefill now base) s = execBudgetRefill now base s from rfl]
  unfold execBudgetRefill
  extract_lets u v capped w cs used cap x demand bs y ps t left all
  have hclock : (u.clock % 100000 != 0) = false := by simp [u, h]
  rw [hclock]
  have hw : Within ⟨[.regs, .capNow, .tokenPool], [.PWR_CAP_CAP, .PWR_STAT_POOL]⟩ u w := u.capTaken_within
  have hx : Within ⟨[.regs], [.PWR_STAT_OVERCAP]⟩ w x := Within.ite _ (State.addHold_within ..) (Within.refl _ _)
  have hfresh : Within ⟨[.fresh], []⟩ x y := Within.update [.fresh] rfl
  have ht : Within ⟨[.regs], [.CPT_PWR_BUDGET]⟩ y t := refill_within ps y
  have hpool : w.tokenPool = if s.pgmFault then 0 else min 256 (2 * (w.capNow - 8)) := State.poolNow_pool _
  have hstat : w.getF .PWR_STAT_POOL 0 = w.tokenPool := State.poolNow_stat _
  have hcap : w.capNow = min (s.getF .PWR_CAP_CAP 0) (4 * s.setting 4) := rfl
  have hcs : cs = s.awake := List.filter_congr (fun c _ => hw.bit .CPT_DOM_SHARED c)
  have hbs : bs.length = cs.length := (length_budgets ..).trans (List.length_map ..)
  have hleast : ∀ b ∈ bs, 8 ≤ b := fun b hb => le_of_mem_budgets hb
  have hps : ps = refillShown cs bs (y.getF .CPT_STAT_THR) := rfl
  have hthr (c : Nat) : y.getF .CPT_STAT_THR c = s.getF .CPT_STAT_THR c :=
    (hfresh.getF _ _).trans ((hx.getF _ _).trans (hw.getF _ _))
  have hleft : left = ps.foldl (fun (m : SMap Nat) p => smapSet 0 m p.1 p.2) [] := rfl
  have hfst : ps.map Prod.fst = s.awake := (refillShown_clusters hbs _).trans hcs
  have hread (c : Nat) (hc : c < 16) (hon : s.sharedOn c = true) :
      ∃ b, (c, b) ∈ ps ∧ smapGet 0 left c = b ∧ t.getF .CPT_PWR_BUDGET c = min 65535 b :=
    refill_spec ps y c (hfst ▸ (mem_awake s c).mpr ⟨hc, hon⟩)
  have hkeep : Within refillWrites u t := ht.after (hfresh.after (hx.after hw.mono))
  clear_value w x y t ps left all cs bs
  have hcapt : t.capNow = w.capNow := (show t.capNow = y.capNow from ht.touch.same .capNow).trans
    ((show y.capNow = x.capNow from hfresh.touch.same .capNow).trans (hx.touch.same .capNow))
  have hpoolt : t.tokenPool = w.tokenPool := (show t.tokenPool = y.tokenPool from ht.touch.same .tokenPool).trans
    ((show y.tokenPool = x.tokenPool from hfresh.touch.same .tokenPool).trans (hx.touch.same .tokenPool))
  have htime : t.time = max s.time now := hkeep.touch.same .time
  refine ⟨_, rfl, hcapt.trans hcap, ?_, ?_, ?_, ?_, ?_, hkeep.regs, ?_⟩
  · refine hpoolt.trans (hpool.trans ?_)
    rw [show ({ t with accounts := left, refillAt := some t.time, grants := all } : State).capNow = w.capNow from hcapt]
  · exact ((ht.getF _ _).trans ((hfresh.getF _ _).trans (hx.getF _ _))).trans (hstat.trans hpoolt.symm)
  · intro c hc hon hzero
    obtain ⟨b, hb, -, hget⟩ := hread c hc hon
    refine (?_ : 8 ≤ min 65535 b).trans_eq hget.symm
    have := refillShown_least hleast (hps ▸ hb) ((hthr c).trans hzero)
    omega
  · intro c hc hon
    obtain ⟨b, -, hm, hget⟩ := hread c hc hon
    exact hget.trans (by rw [← hm])
  · intro c hoff
    refine (congrArg (smapGet 0 · c) hleft).trans (refill_none ps c (fun hc => ?_))
    have := ((mem_awake s c).mp (hfst ▸ hc)).2
    rw [hoff] at this
    cases this
  · have h2 : Touches [.regs, .capNow, .tokenPool, .fresh, .accounts, .refillAt, .grants] u
        { t with accounts := left, refillAt := some t.time, grants := all } :=
      (Touches.of_withParts (ps := [.accounts, .refillAt, .grants]) rfl).after (hkeep.touch.mono)
    exact h2.eq_withParts.trans (by rw [htime]; rfl)

theorem budgetRefill_other (now base : Nat) (s : State) (h : (s.advance now).clock % 100000 ≠ 0) :
    exec (.budgetRefill now base) s = .next (s.advance now) :=
  if_pos (bne_iff_ne.mpr h)

/-! ### Regulators (R389, R391) -/

/-- The registers and the count of missing answers of slot n stay. -/
def SlotKept (n : Nat) (s t : State) : Prop :=
  t.getF .PWR_REG_VALID n = s.getF .PWR_REG_VALID n ∧ t.getF .PWR_REG_STAT_LOST n = s.getF .PWR_REG_STAT_LOST n ∧
    t.getF .PWR_REG_STAT_STATUS n = s.getF .PWR_REG_STAT_STATUS n ∧ t.getF .PWR_REG_POUT_MW n = s.getF .PWR_REG_POUT_MW n ∧
    smapGet 0 t.regFails n = smapGet 0 s.regFails n

theorem SlotKept.refl (n : Nat) (s : State) : SlotKept n s s := ⟨rfl, rfl, rfl, rfl, rfl⟩

theorem SlotKept.trans {n : Nat} {s t u : State} (h : SlotKept n s t) (k : SlotKept n t u) : SlotKept n s u := by
  obtain ⟨hv, hl, hs, hp, hf⟩ := h
  obtain ⟨kv, kl, ks, kp, kf⟩ := k
  exact ⟨kv.trans hv, kl.trans hl, ks.trans hs, kp.trans hp, kf.trans hf⟩

theorem SlotKept.of_within {w : Writes} {s t : State} (n : Nat) (h : Within w s t) (hp : w.parts.contains .regFails = false)
    (hf : [Fld.PWR_REG_VALID, .PWR_REG_STAT_LOST, .PWR_REG_STAT_STATUS, .PWR_REG_POUT_MW].all (fun f => !w.flds.contains f) = true) :
    SlotKept n s t := by
  simp only [List.all_cons, List.all_nil, Bool.and_eq_true, Bool.not_eq_true', Bool.and_true] at hf
  obtain ⟨hv, hl, hs, hm⟩ := hf
  exact ⟨h.getF _ _ hv, h.getF _ _ hl, h.getF _ _ hs, h.getF _ _ hm, congrArg (smapGet 0 · n) (h.touch.same .regFails hp)⟩

theorem SlotKept.setF {n k : Nat} {s t : State} (h : SlotKept n s t) (hk : k ≠ n) (f : Fld) (v : Nat) : SlotKept n s (t.setF f k v) := by
  have hne (g : Fld) : (t.setF f k v).getF g n = t.getF g n := State.getF_setF_ne _ _ (fun h => hk h.2)
  exact h.trans ⟨hne _, hne _, hne _, hne _, rfl⟩

theorem SlotKept.count (s : State) {n k : Nat} (h : k ≠ n) (v : Nat) : SlotKept n s { s with regFails := smapSet 0 s.regFails k v } :=
  ⟨rfl, rfl, rfl, rfl, smapGet_set_ne s.regFails v h⟩

/-- Slot n with its answer noted (R389). -/
def State.answered (s : State) (n : Nat) (a : RegAnswer) : State :=
  ({ s with regFails := smapSet 0 s.regFails n 0 }.setF .PWR_REG_STAT_STATUS n a.status.toNat).setF .PWR_REG_POUT_MW n a.mw

/-- What an answer may write beside its slot's status, power and count. -/
def slotAnswerWrites : Writes := ⟨State.pgmFailsWrites.parts, .PWR_REG_STAT_FAULT :: State.pgmFailsWrites.flds⟩

theorem State.regAnswer_answered (s : State) (n : Nat) (a : RegAnswer) :
    Within ⟨.fresh :: slotAnswerWrites.parts, slotAnswerWrites.flds⟩ (s.answered n a) (s.regAnswer n a) := by
  unfold State.regAnswer
  extract_lets u v t
  have hburn : Within ⟨.fresh :: slotAnswerWrites.parts, slotAnswerWrites.flds⟩ v v.burn := (State.burn_within ..).mono
  have ht : Within ⟨.fresh :: slotAnswerWrites.parts, slotAnswerWrites.flds⟩ v t :=
    Within.ite _ hburn ((State.raise_within ..).after ((State.burn_within ..).after ((State.setF_within ..).mono)))
  exact Within.ite _ (Within.ite _ ((State.pgmFails_within ..).after ht) ht) hburn

theorem State.regAnswer_spec (s : State) (n : Nat) (a : RegAnswer) :
    (s.regAnswer n a).getF .PWR_REG_STAT_STATUS n = a.status.toNat ∧ smapGet 0 (s.regAnswer n a).regFails n = 0 ∧
      (s.regAnswer n a).getF .PWR_REG_POUT_MW n = a.mw % 4294967296 ∧
      (s.regAnswer n a).bit .PWR_REG_STAT_LOST n = s.bit .PWR_REG_STAT_LOST n := by
  obtain ⟨-, hl, hs, hp, hf⟩ := SlotKept.of_within n (s.regAnswer_answered n a) (by decide) (by decide)
  unfold State.bit
  rw [hl, hs, hp, hf]
  refine ⟨?_, smapGet_set_same 0 s.regFails n 0, State.getF_setF_same .., ?_⟩
  · refine (State.getF_setF_ne _ _ (by simp)).trans ((State.getF_setF_same ..).trans (Nat.mod_eq_of_lt ?_))
    exact a.status.isLt
  · exact congrArg (· == 1) ((State.getF_setF_ne _ _ (by simp)).trans (State.getF_setF_ne _ _ (by simp)))

theorem State.regAnswer_other (s : State) {n k : Nat} (h : k ≠ n) (a : RegAnswer) : SlotKept n s (s.regAnswer k a) := by
  refine SlotKept.trans ?_ (SlotKept.of_within n (s.regAnswer_answered k a) (by decide) (by decide))
  exact SlotKept.setF (SlotKept.setF (SlotKept.count s h 0) h _ _) h _ _

theorem State.regSilent_other (s : State) {n k : Nat} (h : k ≠ n) : SlotKept n s (s.regSilent k) := by
  have htried (t : State) (m : SMap Nat) : SlotKept n t { t with regTried := m } := ⟨rfl, rfl, rfl, rfl, rfl⟩
  have havs (t : State) (x : Avs) : SlotKept n t { t with avs := x } := ⟨rfl, rfl, rfl, rfl, rfl⟩
  unfold State.regSilent
  extract_lets count u lost v held
  have hu : SlotKept n s u := SlotKept.count s h count
  have hv : SlotKept n s v := (hu.setF h _ _).trans (htried _ _)
  have hheld : SlotKept n v held := SlotKept.of_within n (State.setF_within ..) rfl rfl
  clear_value u v held
  split
  · exact hu
  · split
    · exact (hv.trans hheld).trans (havs _ _)
    · exact hv

theorem State.regSilent_spec (s : State) (n : Nat) (h : s.bit .PWR_REG_STAT_LOST n = false) :
    smapGet 0 (s.regSilent n).regFails n = smapGet 0 s.regFails n + 1 ∧
      (s.regSilent n).bit .PWR_REG_STAT_LOST n = decide (2 ≤ smapGet 0 s.regFails n) := by
  unfold State.regSilent
  extract_lets count u lost v held
  have hu : smapGet 0 u.regFails n = smapGet 0 s.regFails n + 1 ∧ u.bit .PWR_REG_STAT_LOST n = false :=
    ⟨smapGet_set_same 0 s.regFails n count, h⟩
  have hv : smapGet 0 v.regFails n = smapGet 0 s.regFails n + 1 ∧ v.bit .PWR_REG_STAT_LOST n = true :=
    ⟨hu.1, beq_iff_eq.mpr (u.getF_setF_same .PWR_REG_STAT_LOST n 1)⟩
  have hheld : Within ⟨[.regs], [.PWR_AVS_HELD]⟩ v held := State.setF_within ..
  have hc : count = smapGet 0 s.regFails n + 1 := rfl
  clear_value u v held count
  by_cases hlt : count < 3
  · rw [if_pos hlt, show decide (2 ≤ smapGet 0 s.regFails n) = false by simp; omega]
    exact hu
  · rw [if_neg hlt, show decide (2 ≤ smapGet 0 s.regFails n) = true by simp; omega]
    split
    · exact ⟨(congrArg (smapGet 0 · n) (hheld.touch.same .regFails)).trans hv.1, (hheld.bit .PWR_REG_STAT_LOST n).trans hv.2⟩
    · exact hv

/-- One slot of a telemetry poll. -/
def pollSlot (answers : List (Option RegAnswer)) (t : State) (n : Nat) : State :=
  if !(t.bit .PWR_REG_VALID n) || t.bit .PWR_REG_STAT_LOST n then t
  else match answers.getD n none with
    | some a => t.regAnswer n a
    | none => t.regSilent n

theorem pollSlot_other (answers : List (Option RegAnswer)) (t : State) {n k : Nat} (h : k ≠ n) :
    SlotKept n t (pollSlot answers t k) := by
  unfold pollSlot
  split
  · exact SlotKept.refl n t
  · split
    · exact t.regAnswer_other h _
    · exact t.regSilent_other h

theorem State.telemetry_slot (s : State) (answers : List (Option RegAnswer)) {n : Nat} (h : n < 6) :
    ∃ u, SlotKept n s u ∧ SlotKept n (pollSlot answers u n) (s.telemetry answers) :=
  foldl_at (SlotKept.refl n) (fun _ _ _ => SlotKept.trans) _ n (fun t _ hk => pollSlot_other answers t hk)
    List.nodup_range (List.mem_range.mpr h) s

/-- What a poll leaves of slot n, and of SRAM (R389). -/
theorem poll_spec (now : Nat) (answers : List (Option RegAnswer)) (s : State) {n : Nat} (h : n < 6) {c : Instr}
    (hc : c = .pmbusTelemetry now answers ∨ c = .smbalert now answers) :
    ∃ u t, exec c s = .next t ∧ SlotKept n s u ∧ SlotKept n (pollSlot answers u n) t ∧ KeepsBytes s t nowhere := by
  obtain ⟨u, hu, ht⟩ := (s.advance now).telemetry_slot answers h
  have hbytes : KeepsBytes s ((s.advance now).telemetry answers) nowhere :=
    (State.telemetry_within (s.advance now) answers).touch.bytes _
  obtain rfl | rfl := hc
  · have hshown := State.powerShown_within ((s.advance now).telemetry answers)
    exact ⟨u, _, rfl, hu, ht.trans (SlotKept.of_within n hshown (by decide) (by decide)), hbytes.trans (hshown.touch.bytes _)⟩
  · exact ⟨u, _, rfl, hu, ht, hbytes⟩

theorem poll_answered {now : Nat} {answers : List (Option RegAnswer)} {s : State} {n : Nat} {c : Instr}
    (hc : c = .pmbusTelemetry now answers ∨ c = .smbalert now answers) (h : n < 6) (hv : s.bit .PWR_REG_VALID n = true)
    (hl : s.bit .PWR_REG_STAT_LOST n = false) {a : RegAnswer} (ha : answers.getD n none = some a) :
    ∃ t, exec c s = .next t ∧ t.getF .PWR_REG_STAT_STATUS n = a.status.toNat ∧ smapGet 0 t.regFails n = 0 ∧
      t.getF .PWR_REG_POUT_MW n = a.mw % 4294967296 ∧ t.bit .PWR_REG_STAT_LOST n = false ∧ KeepsBytes s t nowhere := by
  obtain ⟨u, t, ht, ⟨huv, hul, -, -, -⟩, ⟨-, htl, hts, htp, htf⟩, hb⟩ := poll_spec now answers s h hc
  have hslot : pollSlot answers u n = u.regAnswer n a := by
    unfold pollSlot State.bit
    simp only [huv, hul]
    rw [if_neg (by simp [show (s.getF .PWR_REG_VALID n == 1) = true from hv, show (s.getF .PWR_REG_STAT_LOST n == 1) = false from hl])]
    simp only [ha]
  rw [hslot] at htl hts htp htf
  obtain ⟨hs, hf, hp, hlost⟩ := u.regAnswer_spec n a
  refine ⟨t, ht, hts.trans hs, htf.trans hf, htp.trans hp, ?_, hb⟩
  exact (congrArg (· == 1) htl).trans (hlost.trans ((congrArg (· == 1) hul).trans hl))

theorem poll_silent {now : Nat} {answers : List (Option RegAnswer)} {s : State} {n : Nat} {c : Instr}
    (hc : c = .pmbusTelemetry now answers ∨ c = .smbalert now answers) (h : n < 6) (hv : s.bit .PWR_REG_VALID n = true)
    (hl : s.bit .PWR_REG_STAT_LOST n = false) (ha : answers.getD n none = none) :
    ∃ t, exec c s = .next t ∧ smapGet 0 t.regFails n = smapGet 0 s.regFails n + 1 ∧
      t.bit .PWR_REG_STAT_LOST n = decide (2 ≤ smapGet 0 s.regFails n) ∧ KeepsBytes s t nowhere := by
  obtain ⟨u, t, ht, ⟨huv, hul, -, -, huf⟩, ⟨-, htl, -, -, htf⟩, hb⟩ := poll_spec now answers s h hc
  have hlost : u.bit .PWR_REG_STAT_LOST n = false := (congrArg (· == 1) hul).trans hl
  have hslot : pollSlot answers u n = u.regSilent n := by
    unfold pollSlot
    rw [if_neg (by simp [show u.bit .PWR_REG_VALID n = true from (congrArg (· == 1) huv).trans hv, hlost])]
    simp only [ha]
  rw [hslot] at htl htf
  obtain ⟨hf, hs⟩ := u.regSilent_spec n hlost
  refine ⟨t, ht, htf.trans (hf.trans (by rw [huf])), ?_, hb⟩
  exact (congrArg (· == 1) htl).trans (hs.trans (by rw [huf]))

theorem retry_due {now n : Nat} {s : State} (hl : s.bit .PWR_REG_STAT_LOST n = true)
    (hd : smapGet 0 s.regTried n + 100000000 ≤ max s.time now) :
    (!((s.advance now).bit .PWR_REG_STAT_LOST n) ||
      decide ((s.advance now).time < smapGet 0 (s.advance now).regTried n + 100000000)) = false := by
  rw [show (s.advance now).bit .PWR_REG_STAT_LOST n = true from hl, Bool.not_true, Bool.false_or, decide_eq_false_iff_not, not_lt]
  exact hd

theorem regulatorRetry_silent (now : Nat) (n : Fin 6) (s : State) (hl : s.bit .PWR_REG_STAT_LOST n.val = true)
    (hd : smapGet 0 s.regTried n.val + 100000000 ≤ max s.time now) :
    ∃ t, exec (.regulatorRetry now n none) s = .next t ∧ t.bit .PWR_REG_STAT_LOST n.val = true ∧
      smapGet 0 t.regTried n.val = max s.time now ∧ t = { s.advance now with regTried := t.regTried } := by
  refine ⟨{ s.advance now with regTried := smapSet 0 s.regTried n.val (max s.time now) }, ?_, hl, smapGet_set_same .., rfl⟩
  exact if_neg (Bool.eq_false_iff.mp (retry_due hl hd))

theorem regulatorRetry_answered (now : Nat) (n : Fin 6) (s : State) (hl : s.bit .PWR_REG_STAT_LOST n.val = true)
    (hd : smapGet 0 s.regTried n.val + 100000000 ≤ max s.time now) (a : RegAnswer) :
    ∃ t, exec (.regulatorRetry now n (some a)) s = .next t ∧ t.bit .PWR_REG_STAT_LOST n.val = false ∧
      t.getF .PWR_REG_STAT_STATUS n.val = a.status.toNat ∧ smapGet 0 t.regFails n.val = 0 ∧ KeepsBytes s t nowhere := by
  rw [show exec (.regulatorRetry now n (some a)) s = execRegulatorRetry now n (some a) s from rfl]
  unfold execRegulatorRetry
  extract_lets u v
  have hguard : (!(u.bit .PWR_REG_STAT_LOST n.val) || decide (u.time < smapGet 0 u.regTried n.val + 100000000)) = false := retry_due hl hd
  rw [hguard]
  have hv : v.bit .PWR_REG_STAT_LOST n.val = false := by
    unfold State.bit
    rw [show v.getF .PWR_REG_STAT_LOST n.val = 0 from u.getF_setF_same ..]
    rfl
  have hvb : KeepsBytes s v nowhere := (State.setF_touches u ..).bytes _
  let w := if n.val = 0 then v.setF .PWR_AVS_HELD 0 0 else v
  have hw : Within ⟨[.regs], [.PWR_AVS_HELD]⟩ v w := Within.ite _ (State.setF_within ..) (Within.refl _ _)
  obtain ⟨hs, hf, -, hlost⟩ := w.regAnswer_spec n.val a
  refine ⟨_, rfl, hlost.trans ((hw.bit _ _).trans hv), hs, hf, ?_⟩
  exact (hvb.trans (hw.touch.bytes _)).trans ((State.regAnswer_within ..).touch.bytes _)

theorem regulatorRetry_other (now : Nat) (n : Fin 6) (s : State)
    (h : s.bit .PWR_REG_STAT_LOST n.val = false ∨ max s.time now < smapGet 0 s.regTried n.val + 100000000) (a : Option RegAnswer) :
    exec (.regulatorRetry now n a) s = .next (s.advance now) := by
  refine if_pos ?_
  rw [Bool.or_eq_true, decide_eq_true_eq, Bool.not_eq_true']
  exact h

theorem regulatorClr_spec (now : Nat) (n : Fin 6) (s : State) (h : s.pgmFault = false ∨ s.clearsPgm n.val = false) :
    exec (.regulatorClr now n) s = .next (((s.advance now).setF .PWR_REG_STAT_FAULT n.val 0).emit (.pmbus n.val 3 0)) := by
  rw [show exec (.regulatorClr now n) s = execRegulatorClr now n s from rfl]
  unfold execRegulatorClr
  extract_lets u v
  have hv : Within ⟨[.out, .regs], [.PWR_REG_STAT_FAULT]⟩ u v := (State.emit_within ..).after ((State.setF_within ..).mono)
  have hclears : v.clearsPgm n.val = s.clearsPgm n.val := by
    unfold State.clearsPgm
    simp only [hv.bit .PWR_REG_VALID _, hv.getF .PWR_REG_RAIL _]
    rfl
  rw [show v.pgmFault = s.pgmFault from rfl, hclears]
  refine congrArg _ (if_neg ?_)
  rw [Bool.and_eq_true]
  rintro ⟨hp, hq⟩
  rcases h with h | h <;> simp_all

theorem regulatorClr_pgm (now : Nat) (n : Fin 6) (s : State) (hp : s.pgmFault = true) (hq : s.clearsPgm n.val = true) :
    ∃ t, exec (.regulatorClr now n) s = .next t ∧ t.getF .PWR_REG_STAT_FAULT n.val = 0 ∧ t.pgmFault = false ∧
      t.tokenPool = min 256 (2 * (s.capNow - 8)) ∧ t.out = .pmbus n.val 3 0 :: s.out ∧
      KeepsRegs s t (fun f i => (f == .PWR_REG_STAT_FAULT && i == n.val) || (f == .PWR_STAT_POOL && i == 0)) ∧
      t = { s.advance now with regs := t.regs, out := t.out, pgmFault := false, tokenPool := t.tokenPool } := by
  let v := ((s.advance now).setF .PWR_REG_STAT_FAULT n.val 0).emit (.pmbus n.val 0x03 0)
  have hv : Within ⟨[.out, .regs], [.PWR_REG_STAT_FAULT]⟩ (s.advance now) v := (State.emit_within ..).after ((State.setF_within ..).mono)
  have hclears : v.clearsPgm n.val = s.clearsPgm n.val := by
    unfold State.clearsPgm
    simp only [hv.bit .PWR_REG_VALID _, hv.getF .PWR_REG_RAIL _]
    rfl
  refine ⟨{ v with pgmFault := false }.poolNow, congrArg _ (if_pos ?_), ?_, rfl, rfl, rfl, ?_, rfl⟩
  · rw [Bool.and_eq_true]
    exact ⟨hp, hclears.trans hq⟩
  · exact (State.getF_setF_ne _ _ (by simp)).trans ((s.advance now).getF_setF_same .PWR_REG_STAT_FAULT n.val 0)
  · have hfault : KeepsRegs s { v with pgmFault := false }
        (fun f i => (f == .PWR_REG_STAT_FAULT && i == n.val) || (f == .PWR_STAT_POOL && i == 0)) :=
      (KeepsRegs.refl s _).setF (g := .PWR_REG_STAT_FAULT) (i := n.val) (by simp) 0
    exact hfault.setF (g := .PWR_STAT_POOL) (i := 0) (by simp) _

/-! ### Adaptive voltage (R390) -/

theorem voltage_range (mv : Nat) : 650 ≤ voltage mv ∧ voltage mv ≤ 850 ∧ voltage mv % 5 = 0 := by
  unfold voltage
  omega

theorem State.setVoltage_spec (s : State) (mv : Nat) :
    (s.setVoltage mv).avs.whither = (if s.bit .PWR_AVS_HELD 0 then s.avs.whither else mv) ∧
      s.setVoltage mv = { s with avs := (s.setVoltage mv).avs, out := (s.setVoltage mv).out } := by
  unfold State.setVoltage
  by_cases hh : s.bit .PWR_AVS_HELD 0 = true
  · rw [hh, Bool.true_or, if_pos rfl, if_pos rfl]
    exact ⟨rfl, rfl⟩
  · rw [Bool.eq_false_iff.mpr hh, Bool.false_or]
    split
    next he => exact ⟨(of_decide_eq_true he).symm, rfl⟩
    next => exact ⟨rfl, rfl⟩

theorem avsAdjust_spec (now mv : Nat) (s : State) (he : s.bit .PWR_AVS_EN 0 = true) (hh : s.bit .PWR_AVS_HELD 0 = false) :
    ∃ t, exec (.avsAdjust now mv) s = .next t ∧ t.avs.whither = voltage mv ∧
      t = { s.advance now with avs := t.avs, out := t.out } := by
  obtain ⟨hw, hf⟩ := (s.advance now).setVoltage_spec (voltage mv)
  exact ⟨_, congrArg Host.Outcome.next (if_pos he), hw.trans (if_neg (Bool.eq_false_iff.mp hh)), hf⟩

theorem avsMonitorWarning_spec (now mv : Nat) (s : State) (he : s.bit .PWR_AVS_EN 0 = true) (hh : s.bit .PWR_AVS_HELD 0 = false) :
    ∃ t, exec (.avsMonitorWarning now mv) s = .next t ∧ t.avs.whither = max s.avs.whither (voltage mv) ∧
      t = { s.advance now with avs := t.avs, out := t.out } := by
  obtain ⟨hw, hf⟩ := (s.advance now).setVoltage_spec (max s.avs.whither (voltage mv))
  exact ⟨_, congrArg Host.Outcome.next (if_pos he), hw.trans (if_neg (Bool.eq_false_iff.mp hh)), hf⟩

theorem State.setVoltage_held (s : State) (mv : Nat) (hh : s.bit .PWR_AVS_HELD 0 = true) : s.setVoltage mv = s :=
  if_pos (by rw [hh, Bool.true_or])

theorem avs_stays (now mv : Nat) (s : State) (h : s.bit .PWR_AVS_EN 0 = false ∨ s.bit .PWR_AVS_HELD 0 = true) :
    exec (.avsAdjust now mv) s = .next (s.advance now) ∧ exec (.avsMonitorWarning now mv) s = .next (s.advance now) := by
  have hstays (v : Nat) : (if (s.advance now).bit .PWR_AVS_EN 0 then (s.advance now).setVoltage v else s.advance now) = s.advance now := by
    rcases h with h | h
    · exact if_neg (Bool.eq_false_iff.mp h)
    · exact ite_eq_right_iff.mpr fun _ => (s.advance now).setVoltage_held v h
  exact ⟨congrArg _ (hstays _), congrArg _ (hstays _)⟩

theorem avsEnableWrite_off (now : Nat) (s : State) :
    ∃ t, exec (.avsEnableWrite now false) s = .next t ∧ t.bit .PWR_AVS_EN 0 = false ∧
      t.avs.whither = (if s.bit .PWR_AVS_HELD 0 then s.avs.whither else 750) ∧
      t = { s.advance now with regs := t.regs, avs := t.avs, out := t.out } := by
  let u := (s.advance now).setB .PWR_AVS_EN 0 false
  obtain ⟨hw, hf⟩ := u.setVoltage_spec 750
  have hheld : u.bit .PWR_AVS_HELD 0 = s.bit .PWR_AVS_HELD 0 := (State.setB_within (s.advance now) .PWR_AVS_EN 0 false).bit _ _
  refine ⟨u.setVoltage 750, rfl, ?_, hw.trans (by rw [hheld]; rfl), ?_⟩
  · have hoff : u.getF .PWR_AVS_EN 0 = 0 := (s.advance now).getF_setF_same .PWR_AVS_EN 0 0
    refine ((Touches.of_withParts (ps := [.avs, .out]) hf).bit .PWR_AVS_EN 0).trans ?_
    exact beq_eq_false_iff_ne.mpr (by rw [hoff]; decide)
  · have ht : Touches [.regs, .avs, .out] (s.advance now) (u.setVoltage 750) :=
      (Touches.of_withParts (ps := [.avs, .out]) hf).after ((State.setB_touches ..).mono)
    exact ht.eq_withParts

/-- Settles O55: the cap and its refills, the slots of the regulators under answers and silence, and the voltage asked for. -/
theorem powerManaged : Obligations.PowerManaged := by
  unfold Obligations.PowerManaged
  refine ⟨⟨capWrite_spec, fun now base s => ⟨budgetRefill_spec now base s, budgetRefill_other now base s⟩⟩, ⟨?_, ?_, ?_⟩, ?_⟩
  · intro now answers s n c hc hn hv hl
    exact ⟨fun a ha => poll_answered hc hn hv hl ha, fun ha => poll_silent hc hn hv hl ha⟩
  · intro now n s
    exact ⟨fun hl hd => ⟨regulatorRetry_silent now n s hl hd, regulatorRetry_answered now n s hl hd⟩, regulatorRetry_other now n s⟩
  · intro now n s
    exact ⟨regulatorClr_spec now n s, regulatorClr_pgm now n s⟩
  · intro now mv s
    exact ⟨voltage_range mv, fun he hh => ⟨avsAdjust_spec now mv s he hh, avsMonitorWarning_spec now mv s he hh⟩,
      avs_stays now mv s, avsEnableWrite_off now s, rfl⟩

end Sys2Proof.Machine
end

section
/-!
PROOF. Sensors, bands, throttling and the thermal shutdown (R397 to R406, O56).
-/

set_option Elab.async false

namespace Sys2Proof.Machine
open Sys2Proof

/-! ### Fields of one place that stay -/

/-- The fields fs of place c stay. -/
def FieldsKept (fs : List Fld) (c : Nat) (s t : State) : Prop := ∀ f ∈ fs, t.getF f c = s.getF f c

theorem FieldsKept.refl (fs : List Fld) (c : Nat) (s : State) : FieldsKept fs c s s := fun _ _ => rfl

theorem FieldsKept.trans {fs : List Fld} {c : Nat} {s t u : State} (h : FieldsKept fs c s t) (k : FieldsKept fs c t u) :
    FieldsKept fs c s u := fun f hf => (k f hf).trans (h f hf)

theorem FieldsKept.of_within {w : Writes} {fs : List Fld} {s t : State} (c : Nat) (h : Within w s t)
    (hf : fs.all (fun f => !w.flds.contains f) = true := by decide) : FieldsKept fs c s t := fun f hm =>
  h.getF f c (by simpa using List.all_eq_true.mp hf f hm)

theorem FieldsKept.of_regs_eq (fs : List Fld) (c : Nat) {s t : State} (h : t.regs = s.regs) : FieldsKept fs c s t := fun f _ =>
  (KeepsRegs.of_regs_eq h (fun _ _ => false)) f c rfl

theorem FieldsKept.setF {fs : List Fld} {c k : Nat} {s t : State} (h : FieldsKept fs c s t) (hk : k ≠ c) (f : Fld) (v : Nat) :
    FieldsKept fs c s (t.setF f k v) :=
  h.trans fun _ _ => State.getF_setF_ne _ _ (fun hx => hk hx.2)

theorem FieldsKept.ite {fs : List Fld} {c : Nat} {s t u : State} (p : Prop) [Decidable p] (h : FieldsKept fs c s t)
    (k : FieldsKept fs c s u) : FieldsKept fs c s (if p then t else u) := by split <;> assumption

/-! ### Readings of the sensors (R397) -/

/-- A reading of a sensor joins the ten kept. -/
def Sensor.read (x : Sensor) : Option Int → Sensor
  | some v => { x with last := (v :: x.last).take 10 }
  | none => x

def readSensor (temps : List Int) (t : State) (n : Nat) : State :=
  match temps[n]? with
  | some v => t.setSensor n { t.sensor n with last := (v :: (t.sensor n).last).take 10 }
  | none => t

theorem State.sensor_setSensor (s : State) (n m : Nat) (x : Sensor) :
    (s.setSensor n x).sensor m = if n = m then x else s.sensor m := by
  by_cases h : n = m
  · subst h
    rw [if_pos rfl]
    exact smapGet_set_same ..
  · rw [if_neg h]
    exact smapGet_set_ne _ _ h

theorem readSensor_sensor (temps : List Int) (t : State) (n m : Nat) :
    (readSensor temps t n).sensor m = if n = m then (t.sensor m).read temps[n]? else t.sensor m := by
  unfold readSensor
  split
  next v hv =>
    rw [State.sensor_setSensor, hv]
    by_cases h : n = m
    · subst h; rfl
    · rw [if_neg h, if_neg h]
  next hv =>
    rw [hv]
    split <;> rfl

theorem readSensor_touches (temps : List Int) (t : State) (n : Nat) : Touches [.sensors] t (readSensor temps t n) := by
  unfold readSensor
  split
  · exact Touches.of_withParts rfl
  · exact Touches.refl _ _

def State.readSensors (s : State) (temps : List Int) : State := (List.range 72).foldl (readSensor temps) s

theorem State.readSensors_touches (s : State) (temps : List Int) : Touches [.sensors] s (s.readSensors temps) :=
  Touches.foldl _ (readSensor_touches temps) _ _

theorem State.readSensors_sensor (s : State) (temps : List Int) {n : Nat} (h : n < 72) :
    (s.readSensors temps).sensor n = (s.sensor n).read temps[n]? := by
  obtain ⟨u, hu, ht⟩ := foldl_at (K := fun (s t : State) => t.sensor n = s.sensor n) (fun _ => rfl) (fun _ _ _ h k => k.trans h)
    (readSensor temps) n (fun t k hk => (readSensor_sensor temps t k n).trans (if_neg hk)) List.nodup_range (List.mem_range.mpr h) s
  exact ht.trans ((readSensor_sensor temps u n n).trans (by rw [if_pos rfl, hu]))

theorem Sensor.read_last (x : Sensor) (o : Option Int) :
    (x.read o).last = match o with | some v => (v :: x.last).take 10 | none => x.last := by
  cases o <;> rfl

/-- A valid sensor at 115 °C or above twice running (R405). -/
def State.hot (s : State) (n : Nat) : Bool :=
  s.sensorValid n && (s.sensor n).last.length ≥ 2 && ((s.sensor n).last.take 2).all (fun v => 920 ≤ v)

theorem execSensorRead_eq (now : Nat) (temps : List Int) (s : State) :
    exec (.sensorRead now temps) s = match (List.range 72).find? ((s.advance now).readSensors temps).hot with
      | some n => if s.shutDown then .next ((s.advance now).readSensors temps)
          else .next (((s.advance now).readSensors temps).shutdown n)
      | none => .next ((s.advance now).readSensors temps) := by
  have hs : ((s.advance now).readSensors temps).shutDown = s.shutDown := ((s.advance now).readSensors_touches temps).bit _ _
  rw [← hs]
  rfl

theorem sensorRead_spec (now : Nat) (temps : List Int) (s : State)
    (h : s.shutDown = true ∨ ∀ n, n < 72 → s.sensorValid n = true → ∃ v, temps[n]? = some v ∧ v < 920) :
    ∃ t, exec (.sensorRead now temps) s = .next t ∧
      (∀ n, n < 72 → (t.sensor n).last =
        (match temps[n]? with | some v => (v :: (s.sensor n).last).take 10 | none => (s.sensor n).last)) ∧
      t = { s.advance now with sensors := t.sensors } := by
  have ht := (s.advance now).readSensors_touches temps
  refine ⟨(s.advance now).readSensors temps, ?_, fun n hn => ?_, ht.eq_withParts⟩
  · rw [execSensorRead_eq]
    split
    next n hn =>
      refine if_pos (h.resolve_right fun hc => ?_)
      have hmem := List.mem_range.mp (List.mem_of_find?_eq_some hn)
      have hhot := List.find?_some hn
      simp only [State.hot, Bool.and_eq_true] at hhot
      obtain ⟨⟨hv, -⟩, ha⟩ := hhot
      obtain ⟨v, htemp, hlt⟩ := hc n hmem ((ht.bit .THM_SENS_VALID n).symm.trans hv)
      rw [State.readSensors_sensor _ _ hmem, htemp] at ha
      have := List.all_eq_true.mp ha v (by simp [Sensor.read])
      exact absurd (of_decide_eq_true this) (by omega)
    next => rfl
  · rw [State.readSensors_sensor _ _ hn, Sensor.read_last]
    rfl

/-! ### Clusters that go off (R401, R405) -/

theorem State.sharedOff_off (s : State) (c : Nat) : (s.sharedOff c).sharedOn c = false := by
  obtain ⟨u, -, he⟩ := s.sharedOff_eq c
  rw [he]
  unfold State.sharedOn State.bit
  rw [State.getF_setF_same]
  rfl

theorem State.sharedOff_other (s : State) {c k : Nat} (h : k ≠ c) : FieldsKept [.CPT_DOM_SHARED] c s (s.sharedOff k) := by
  obtain ⟨u, hu, he⟩ := s.sharedOff_eq k
  rw [he]
  exact (FieldsKept.of_within c hu).setF h _ _

theorem State.clusterOff_other (s : State) {c k : Nat} (h : k ≠ c) : FieldsKept [.CPT_DOM_SHARED] c s (s.clusterOff k) := by
  unfold State.clusterOff
  extract_lets u
  have hu : Within State.coreOffWrites s u :=
    Within.foldl _ (fun _ _ => Within.ite _ (State.coreOff_within ..) (Within.refl _ _)) _ _
  have hk : FieldsKept [.CPT_DOM_SHARED] c s u := FieldsKept.of_within c hu
  exact FieldsKept.ite _ (hk.trans (u.sharedOff_other h)) hk

theorem State.clusterOff_off (s : State) (c : Nat) : (s.clusterOff c).sharedOn c = false := by
  unfold State.clusterOff
  extract_lets u
  split
  · exact u.sharedOff_off c
  next h => exact Bool.eq_false_iff.mpr h

theorem State.clustersOff_off (s : State) {c : Nat} (h : c < 16) : ((List.range 16).foldl State.clusterOff s).sharedOn c = false := by
  obtain ⟨u, -, ht⟩ := foldl_at (FieldsKept.refl [.CPT_DOM_SHARED] c) (fun _ _ _ => FieldsKept.trans) State.clusterOff c
    (fun t k hk => t.clusterOff_other hk) List.nodup_range (List.mem_range.mpr h) s
  exact (congrArg (· == 1) (ht _ List.mem_cons_self)).trans (u.clusterOff_off c)

theorem State.shutdown_spec (s : State) (n : Nat) (h : n < 72) :
    (s.shutdown n).shutDown = true ∧ (s.shutdown n).getF .THM_STAT_SHUTSENS 0 = n ∧
      (∀ c, c < 16 → (s.shutdown n).sharedOn c = false) ∧ (s.shutdown n).tokenHeld = [] ∧ (s.shutdown n).passes = [] := by
  unfold State.shutdown
  extract_lets shut u v w dac y off z
  have hon : shut.bit .THM_STAT_SHUT 0 = true ∧ shut.getF .THM_STAT_SHUTSENS 0 = n := by
    have hr := State.raise_within ((s.setF .THM_STAT_SHUT 0 1).setF .THM_STAT_SHUTSENS 0 n) 0x103 0xFF 0xFF n 0xFFFF []
    refine ⟨(hr.bit _ _).trans ?_, (hr.getF _ _).trans ?_⟩
    · exact beq_iff_eq.mpr ((State.getF_setF_ne _ _ (by decide)).trans (s.getF_setF_same .THM_STAT_SHUT 0 1))
    · exact (State.getF_setF_same ..).trans (Nat.mod_eq_of_lt (h.trans (by decide)))
  have hu : Within State.loaderAbortWrites shut u := State.loaderAbort_within shut
  have hheld : u.tokenHeld = [] := rfl
  have hv : Within State.clusterOffWrites u v := Within.foldl _ State.clusterOff_within _ _
  have hoff (c : Nat) (hc : c < 16) : v.sharedOn c = false := u.clustersOff_off hc
  have hw : Within State.dieOffWrites v w :=
    Within.foldl _ (fun _ _ => Within.ite _ (State.dieOff_within ..) (Within.refl _ _)) _ _
  have hy : Touches [.passes, .dac] w y := Touches.of_withParts rfl
  have hpass : y.passes = [] := rfl
  have hq : Within ⟨[.out], []⟩ y off := State.pgmOff_within y
  have hz : Touches [.avs] off z := Touches.of_withParts rfl
  generalize ht : (if z.bit .PWR_REG_VALID 0 then z.emit (.pmbus 0 0x21 750) else z) = t
  have hemit : Touches [.out] z t := ht ▸ Touches.ite _ (State.emit_touches ..) (Touches.refl _ _)
  have htail : Touches [.out, .avs] y t := hemit.after (hz.after hq.touch.mono)
  have hend : Within ⟨[.passes, .dac, .out, .avs] ++ State.dieOffWrites.parts, State.dieOffWrites.flds⟩ v t :=
    (Within.of_touches htail).after ((Within.of_touches hy).after hw.mono)
  clear_value u v w y off z
  refine ⟨?_, ?_, fun c hc => ?_, ?_, ?_⟩
  · exact (hend.bit _ _).trans ((hv.bit _ _).trans ((hu.bit _ _).trans hon.1))
  · exact (hend.getF _ _).trans ((hv.getF _ _).trans ((hu.getF _ _).trans hon.2))
  · exact (hend.bit .CPT_DOM_SHARED c).trans (hoff c hc)
  · exact (show t.tokenHeld = v.tokenHeld from hend.touch.same .tokenHeld).trans
      ((show v.tokenHeld = u.tokenHeld from hv.touch.same .tokenHeld).trans hheld)
  · exact (show t.passes = y.passes from htail.same .passes).trans hpass

theorem sensorRead_shutdown (now : Nat) (temps : List Int) (s : State) (n : Nat) (v : Int) (hn : n < 72)
    (hvalid : s.sensorValid n = true) (htemp : temps[n]? = some v) (hv : 920 ≤ v) (hlast : 920 ≤ (s.sensor n).last.headD 0)
    (hshut : s.shutDown = false) :
    ∃ t, exec (.sensorRead now temps) s = .next t ∧ t.shutDown = true ∧ t.getF .THM_STAT_SHUTSENS 0 ≤ n ∧
      (∀ c, c < 16 → t.sharedOn c = false) ∧ t.tokenHeld = [] ∧ t.passes = [] ∧ t.cells = s.cells := by
  have ht := (s.advance now).readSensors_touches temps
  have hhot : ((s.advance now).readSensors temps).hot n = true := by
    unfold State.hot
    rw [State.readSensors_sensor _ _ hn, htemp, show ((s.advance now).readSensors temps).sensorValid n = true from
      (ht.bit .THM_SENS_VALID n).trans hvalid, show (s.advance now).sensor n = s.sensor n from rfl]
    cases hl : (s.sensor n).last with
    | nil => simp [hl] at hlast
    | cons x xs =>
      have hx : 920 ≤ x := by simpa [hl] using hlast
      simp [Sensor.read, hl, hv, hx]
  obtain ⟨m, hm⟩ := Option.ne_none_iff_exists'.mp (fun hc => (List.find?_eq_none.mp hc) n (List.mem_range.mpr hn) hhot)
  have hle : m ≤ n := by
    by_contra hgt
    have hfirst := (List.find?_range_eq_some.mp hm).2.2 n (Nat.lt_of_not_le hgt)
    rw [hhot] at hfirst
    cases hfirst
  have hm72 : m < 72 := List.mem_range.mp (List.mem_of_find?_eq_some hm)
  obtain ⟨hs, hsens, hoff, hheld, hpass⟩ := ((s.advance now).readSensors temps).shutdown_spec m hm72
  refine ⟨((s.advance now).readSensors temps).shutdown m, ?_, hs, hsens.trans_le hle, hoff, hheld, hpass, ?_⟩
  · rw [execSensorRead_eq, hm]
    exact if_neg (Bool.eq_false_iff.mp hshut)
  · exact (show _ = ((s.advance now).readSensors temps).cells from (State.shutdown_within ..).touch.same .cells).trans (ht.same .cells)

/-! ### Bands (R400) -/

theorem State.bandSet_band (s : State) (c : Nat) {b : Nat} (h : b < 8) : (s.bandSet c b).band c = b := by
  unfold State.bandSet
  split
  next hb => exact hb
  next =>
    extract_lets old spent timed t
    have ht : t.band c = b := (State.getF_setF_same ..).trans (Nat.mod_eq_of_lt h)
    clear_value t
    split
    · exact ((State.bandPass_within t c).getF _ _).trans ht
    · exact ht

theorem State.bandSet_other (s : State) {c k : Nat} (h : k ≠ c) (b : Nat) :
    FieldsKept [.CPT_STAT_LOWSENS, .CPT_STAT_BAND, .CPT_STAT_THR] c s (s.bandSet k b) := by
  unfold State.bandSet
  refine FieldsKept.ite _ (FieldsKept.refl _ _ _) ?_
  extract_lets old spent timed t
  have htimed : FieldsKept [.CPT_STAT_LOWSENS, .CPT_STAT_BAND, .CPT_STAT_THR] c s timed := FieldsKept.of_regs_eq _ _ rfl
  have ht : FieldsKept [.CPT_STAT_LOWSENS, .CPT_STAT_BAND, .CPT_STAT_THR] c s t :=
    (htimed.trans (FieldsKept.of_within c timed.unclean_within)).setF h _ _
  clear_value t
  exact FieldsKept.ite _ (ht.trans (FieldsKept.of_within c (t.bandPass_within k))) ht

theorem bandStep_held (now : Nat) (cl : Cluster) (s : State) (h : s.bit .CPT_STAT_LOWSENS cl.val = true ∨ cl.val ∈ s.bandMoved) :
    exec (.bandChange now cl) s = .next (s.advance now) := by
  refine congrArg Host.Outcome.next (if_pos ?_)
  rw [Bool.or_eq_true, List.contains_iff_mem]
  exact h

theorem State.bandStep_free {s : State} {c : Nat} (hl : s.bit .CPT_STAT_LOWSENS c = false) (hm : c ∉ s.bandMoved) :
    s.bandStep c = if s.band c < 4 ∧ bandRise.getD (s.band c) 0 ≤ s.median c
      then { s with bandMoved := c :: s.bandMoved }.bandSet c (s.band c + 1)
      else if 0 < s.band c ∧ s.median c < bandFall.getD (s.band c - 1) 0
        then { s with bandMoved := c :: s.bandMoved }.bandSet c (s.band c - 1) else s := by
  unfold State.bandStep
  simp only [hl, Bool.false_or, List.contains_eq_mem, hm, Bool.and_eq_true, decide_eq_true_eq, decide_false, Bool.false_eq_true,
    if_false]

/-- A band taken by the step: the cluster has moved, and no cell and no byte changes. -/
theorem State.bandSet_moved (s : State) (c : Nat) {b : Nat} (h : b < 8) (hm : c ∈ s.bandMoved) :
    (s.bandSet c b).band c = b ∧ c ∈ (s.bandSet c b).bandMoved ∧ (s.bandSet c b).cells = s.cells ∧
      KeepsBytes s (s.bandSet c b) nowhere := by
  have hw := (State.bandSet_within s c b).touch
  have hmoved : (s.bandSet c b).bandMoved = s.bandMoved := hw.same .bandMoved
  exact ⟨State.bandSet_band _ c h, hmoved ▸ hm, hw.same .cells, hw.bytes _⟩

theorem bandChange_spec (now : Nat) (cl : Cluster) (s : State) (hl : s.bit .CPT_STAT_LOWSENS cl.val = false)
    (hm : cl.val ∉ s.bandMoved) :
    (∀ b thr, s.band cl.val = b → b < 4 → bandRise.getD b 0 = thr → thr ≤ s.median cl.val →
      ∃ t, exec (.bandChange now cl) s = .next t ∧ t.band cl.val = b + 1 ∧ cl.val ∈ t.bandMoved ∧ t.cells = s.cells ∧
        KeepsBytes s t nowhere) ∧
    (∀ b thr, s.band cl.val = b + 1 → b < 4 → bandFall.getD b 0 = thr → s.median cl.val < thr →
      ∃ t, exec (.bandChange now cl) s = .next t ∧ t.band cl.val = b ∧ cl.val ∈ t.bandMoved ∧ t.cells = s.cells ∧
        KeepsBytes s t nowhere) ∧
    (s.band cl.val ≤ 4 → (s.band cl.val < 4 → s.median cl.val < bandRise.getD (s.band cl.val) 0) →
      (0 < s.band cl.val → bandFall.getD (s.band cl.val - 1) 0 ≤ s.median cl.val) →
      exec (.bandChange now cl) s = .next (s.advance now)) := by
  have hstep := State.bandStep_free (s := s.advance now) (c := cl.val) hl hm
  rw [show (s.advance now).band cl.val = s.band cl.val from rfl, show (s.advance now).median cl.val = s.median cl.val from rfl] at hstep
  rw [show exec (.bandChange now cl) s = .next ((s.advance now).bandStep cl.val) from rfl]
  refine ⟨?_, ?_, ?_⟩
  · rintro b thr rfl hb rfl hr
    rw [if_pos ⟨hb, hr⟩] at hstep
    exact ⟨_, rfl, hstep ▸ State.bandSet_moved { s.advance now with bandMoved := cl.val :: s.bandMoved } cl.val (by omega) List.mem_cons_self⟩
  · rintro b thr hb hb4 rfl hf
    have hrise : ¬ (s.band cl.val < 4 ∧ bandRise.getD (s.band cl.val) 0 ≤ s.median cl.val) := by
      rw [hb]
      rintro ⟨hlt, hr⟩
      have : bandFall.getD b 0 ≤ bandRise.getD (b + 1) 0 := by
        have hb3 : b < 3 := by omega
        interval_cases b <;> decide
      omega
    rw [if_neg hrise, if_pos ⟨by omega, by rw [hb]; exact hf⟩, hb, Nat.add_sub_cancel] at hstep
    exact ⟨_, rfl, hstep ▸ State.bandSet_moved { s.advance now with bandMoved := cl.val :: s.bandMoved } cl.val (by omega) List.mem_cons_self⟩
  · intro _ hr hf
    rw [if_neg (fun h => absurd h.2 (not_le.mpr (hr h.1))), if_neg (fun h => absurd h.2 (not_lt.mpr (hf h.1)))] at hstep
    exact congrArg _ hstep

/-! ### Throttling (R402, R404) -/

theorem State.thrSet_regs (s : State) (c v : Nat) :
    KeepsRegs s (s.thrSet c v) (fun f i => (f == .CPT_STAT_THR || f == .CPT_PWR_BUDGET) && i == c) := by
  unfold State.thrSet
  extract_lets t old new u
  have ht : KeepsRegs s t (fun f i => (f == .CPT_STAT_THR || f == .CPT_PWR_BUDGET) && i == c) :=
    (KeepsRegs.refl s _).setF (by simp) v
  split
  · exact (ht.setF (by simp) _).congr rfl
  · exact ht

theorem State.thrSet_touches (s : State) (c v : Nat) : Touches [.regs, .accounts] s (s.thrSet c v) := by
  unfold State.thrSet
  extract_lets t old new u
  split
  · exact Touches.of_withParts rfl
  · exact Touches.of_withParts rfl

theorem State.thrSet_thr (s : State) (c v : Nat) : (s.thrSet c v).getF .CPT_STAT_THR c = v % 2 ^ Fld.CPT_STAT_THR.width := by
  unfold State.thrSet
  extract_lets t old new u
  have ht : t.getF .CPT_STAT_THR c = v % 2 ^ Fld.CPT_STAT_THR.width := State.getF_setF_same ..
  split
  · exact (State.getF_setF_ne _ _ (by simp)).trans ht
  · exact ht

theorem State.thrSet_other (s : State) {c k : Nat} (h : k ≠ c) (v : Nat) (fs : List Fld) : FieldsKept fs c s (s.thrSet k v) :=
  fun f _ => s.thrSet_regs k v f c (Bool.and_eq_false_iff.mpr (.inr (beq_eq_false_iff_ne.mpr h.symm)))

/-- A cluster judged in this 1 ms step (R402). -/
def State.judged (s : State) (c : Nat) : State := { s with thrJudged := c :: s.thrJudged }

theorem State.judged_thrSet (s : State) (c v : Nat) :
    c ∈ ((s.judged c).thrSet c v).thrJudged ∧
      KeepsRegs s ((s.judged c).thrSet c v) (fun f i => (f == .CPT_STAT_THR || f == .CPT_PWR_BUDGET) && i == c) ∧
      (s.judged c).thrSet c v = { s with regs := ((s.judged c).thrSet c v).regs, thrJudged := ((s.judged c).thrSet c v).thrJudged,
                                         accounts := ((s.judged c).thrSet c v).accounts } := by
  have hj : Touches [.thrJudged] s (s.judged c) := Touches.of_withParts rfl
  have ht := (s.judged c).thrSet_touches c v
  have hjudged : ((s.judged c).thrSet c v).thrJudged = c :: s.thrJudged := ht.same .thrJudged
  have hall : Touches [.regs, .thrJudged, .accounts] s ((s.judged c).thrSet c v) := ht.after hj.mono
  exact ⟨hjudged ▸ List.mem_cons_self, (hj.regs _).trans ((s.judged c).thrSet_regs c v), hall.eq_withParts⟩

theorem execThrottleStep_eq (now : Nat) (cl : Cluster) (s : State) :
    exec (.throttleStep now cl) s =
      let u := (s.advance now).bandStep cl.val
      if s.bit .CPT_STAT_LOWSENS cl.val || s.thrJudged.contains cl.val then .next u
      else if u.band cl.val = 4 && 840 ≤ s.median cl.val && smapGet 0 s.medPrev cl.val ≤ s.median cl.val then
        .next ((u.judged cl.val).thrSet cl.val (min 14 (s.getF .CPT_STAT_THR cl.val + 1)))
      else if s.median cl.val < 824 then .next ((u.judged cl.val).thrSet cl.val (s.getF .CPT_STAT_THR cl.val - 1))
      else .next (u.judged cl.val) := by
  have hu := (s.advance now).bandStep_within cl.val
  have hlow : ((s.advance now).bandStep cl.val).bit .CPT_STAT_LOWSENS cl.val = s.bit .CPT_STAT_LOWSENS cl.val := hu.bit _ _
  have hjudged : ((s.advance now).bandStep cl.val).thrJudged = s.thrJudged := hu.touch.same .thrJudged
  have hmed : ((s.advance now).bandStep cl.val).median cl.val = s.median cl.val := congrArg int16Val (hu.getF _ _)
  have hprev : ((s.advance now).bandStep cl.val).medPrev = s.medPrev := hu.touch.same .medPrev
  have hthr : ((s.advance now).bandStep cl.val).getF .CPT_STAT_THR cl.val = s.getF .CPT_STAT_THR cl.val := hu.getF _ _
  rw [← hlow, ← hjudged, ← hmed, ← hprev, ← hthr]
  rfl

theorem throttleStep_spec (now : Nat) (cl : Cluster) (s : State) :
    let u := (s.advance now).bandStep cl.val
    (s.bit .CPT_STAT_LOWSENS cl.val = false → cl.val ∉ s.thrJudged →
      (u.band cl.val = 4 → 840 ≤ s.median cl.val → smapGet 0 s.medPrev cl.val ≤ s.median cl.val →
        ∃ t, exec (.throttleStep now cl) s = .next t ∧ t.getF .CPT_STAT_THR cl.val = min 14 (s.getF .CPT_STAT_THR cl.val + 1) ∧
          cl.val ∈ t.thrJudged ∧
          KeepsRegs u t (fun f i => (f == .CPT_STAT_THR || f == .CPT_PWR_BUDGET) && i == cl.val) ∧
          t = { u with regs := t.regs, thrJudged := t.thrJudged, accounts := t.accounts }) ∧
      (s.median cl.val < 824 →
        ∃ t, exec (.throttleStep now cl) s = .next t ∧
          t.getF .CPT_STAT_THR cl.val = (s.getF .CPT_STAT_THR cl.val - 1) % 2 ^ Fld.CPT_STAT_THR.width ∧ cl.val ∈ t.thrJudged ∧
          KeepsRegs u t (fun f i => (f == .CPT_STAT_THR || f == .CPT_PWR_BUDGET) && i == cl.val) ∧
          t = { u with regs := t.regs, thrJudged := t.thrJudged, accounts := t.accounts })) ∧
    ((s.bit .CPT_STAT_LOWSENS cl.val = true ∨ cl.val ∈ s.thrJudged) → exec (.throttleStep now cl) s = .next u) := by
  intro u
  have hrow := execThrottleStep_eq now cl s
  extract_lets at hrow
  refine ⟨fun hl hj => ?_, fun h => hrow.trans (if_pos ?_)⟩
  · rw [hl, Bool.false_or, List.contains_eq_mem, decide_eq_false hj, if_neg Bool.false_ne_true] at hrow
    refine ⟨fun hb hm hp => ?_, fun hm => ?_⟩
    · rw [if_pos (by simp only [Bool.and_eq_true, decide_eq_true_eq]; exact ⟨⟨hb, hm⟩, hp⟩)] at hrow
      refine ⟨_, hrow, (State.thrSet_thr ..).trans (Nat.mod_eq_of_lt ?_), u.judged_thrSet ..⟩
      exact lt_of_le_of_lt (min_le_left _ _) (by decide)
    · rw [if_neg (by simp only [Bool.and_eq_true, decide_eq_true_eq]; omega), if_pos hm] at hrow
      exact ⟨_, hrow, State.thrSet_thr .., u.judged_thrSet ..⟩
  · rw [Bool.or_eq_true, List.contains_iff_mem]
    exact h

/-! ### The count of a cluster's sensors (R399, R401) -/

/-- Valid sensors of a cluster. -/
def validCount (s : State) (c : Nat) : Nat := ((clSensors c).filter s.sensorValid).length

theorem validCount_congr {s t : State} (h : ∀ n, t.getF .THM_SENS_VALID n = s.getF .THM_SENS_VALID n) (c : Nat) :
    validCount t c = validCount s c := by
  unfold validCount State.sensorValid State.bit
  simp only [h]

theorem State.countSensors_other (s : State) {c k : Nat} (h : k ≠ c) :
    FieldsKept [.CPT_STAT_LOWSENS, .CPT_STAT_BAND, .CPT_STAT_THR] c s (s.countSensors k) := by
  unfold State.countSensors
  extract_lets n u
  have hu : FieldsKept [.CPT_STAT_LOWSENS, .CPT_STAT_BAND, .CPT_STAT_THR] c s u :=
    FieldsKept.ite _ (((s.bandSet_other h 4).trans (State.thrSet_other _ h 14 _)).setF h _ _) ((FieldsKept.refl _ _ _).setF h _ _)
  clear_value u
  exact FieldsKept.ite _ (hu.trans (FieldsKept.of_within c (u.clusterDead_within k))) hu

theorem State.countSensors_self (s : State) (c : Nat) :
    (s.countSensors c).getF .CPT_STAT_LOWSENS c = (if validCount s c < 2 then 1 else 0) ∧
      (validCount s c < 2 → (s.countSensors c).band c = 4 ∧ (s.countSensors c).getF .CPT_STAT_THR c = 14) := by
  unfold State.countSensors
  extract_lets n u
  have hn : validCount s c = n := rfl
  have hu : u.getF .CPT_STAT_LOWSENS c = (if n < 2 then 1 else 0) ∧ (n < 2 → u.band c = 4 ∧ u.getF .CPT_STAT_THR c = 14) := by
    unfold u
    split
    next h =>
      refine ⟨State.getF_setF_same .., fun _ => ⟨?_, ?_⟩⟩
      · refine (State.getF_setF_ne _ _ (by simp)).trans ?_
        exact ((s.bandSet c 4).thrSet_regs c 14 .CPT_STAT_BAND c rfl).trans (s.bandSet_band c (by decide))
      · exact (State.getF_setF_ne _ _ (by simp)).trans ((s.bandSet c 4).thrSet_thr c 14)
    next h => exact ⟨State.getF_setF_same .., fun hlt => absurd hlt h⟩
  rw [hn]
  clear_value u n
  split
  · have hd := u.clusterDead_within c
    exact ⟨(hd.getF _ _).trans hu.1, fun h => ⟨(hd.getF _ _).trans (hu.2 h).1, (hd.getF _ _).trans (hu.2 h).2⟩⟩
  · exact hu

theorem sensorCheck_spec (now : Nat) (s : State) :
    ∃ t, exec (.sensorCheck now) s = .next t ∧
      (∀ c, c < 16 → t.getF .CPT_STAT_LOWSENS c = (if ((clSensors c).filter t.sensorValid).length < 2 then 1 else 0)) ∧
      (∀ c, c < 16 → ((clSensors c).filter t.sensorValid).length < 2 → t.band c = 4 ∧ t.getF .CPT_STAT_THR c = 14) ∧
      t.bandMoved = [] ∧ t.thrJudged = [] ∧ t.cells = s.cells := by
  rw [show exec (.sensorCheck now) s = execSensorCheck now s from rfl]
  unfold execSensorCheck
  extract_lets u checked v
  have hmeans : Within ⟨[.fresh, .regs], [.THM_SENS_TEMP]⟩ (s.advance now) u := State.takeMeans_within _
  have hchecked : Touches (State.crossCheckWrites.parts ++ State.takeMediansWrites.parts) u checked :=
    (State.takeMedians_within _).touch.after ((Within.foldl (w := State.crossCheckWrites) _ (fun t n => State.crossCheck_within u t n) _ _).touch.mono)
  have hv : Touches [.bandMoved, .thrJudged] checked v := Touches.of_withParts rfl
  have hmoved : v.bandMoved = [] ∧ v.thrJudged = [] := ⟨rfl, rfl⟩
  have hcells : v.cells = s.cells := (show v.cells = checked.cells from hv.same .cells).trans
    ((show checked.cells = u.cells from hchecked.same .cells).trans (hmeans.touch.same .cells))
  clear_value u checked v
  generalize ht : (List.range 16).foldl (fun t c => t.countSensors c) v = t
  have hend : Within State.countSensorsWrites v t := ht ▸ Within.foldl _ State.countSensors_within _ _
  have hcluster (c : Nat) (hc : c < 16) : t.getF .CPT_STAT_LOWSENS c = (if validCount t c < 2 then 1 else 0) ∧
      (validCount t c < 2 → t.band c = 4 ∧ t.getF .CPT_STAT_THR c = 14) := by
    obtain ⟨w, ⟨-, hvalid⟩, hkept, hvalid'⟩ := foldl_at
      (K := fun a b => FieldsKept [.CPT_STAT_LOWSENS, .CPT_STAT_BAND, .CPT_STAT_THR] c a b ∧
        ∀ n, b.getF .THM_SENS_VALID n = a.getF .THM_SENS_VALID n)
      (fun _ => ⟨FieldsKept.refl _ _ _, fun _ => rfl⟩) (fun _ _ _ h k => ⟨h.1.trans k.1, fun n => (k.2 n).trans (h.2 n)⟩)
      State.countSensors c (fun a k hk => ⟨a.countSensors_other hk, fun n => (a.countSensors_within k).getF _ n⟩)
      List.nodup_range (List.mem_range.mpr hc) v
    replace hkept : FieldsKept [.CPT_STAT_LOWSENS, .CPT_STAT_BAND, .CPT_STAT_THR] c (w.countSensors c) t := ht ▸ hkept
    replace hvalid' : ∀ n, t.getF .THM_SENS_VALID n = (w.countSensors c).getF .THM_SENS_VALID n := ht ▸ hvalid'
    obtain ⟨hlow, hheld⟩ := w.countSensors_self c
    have hcount : validCount t c = validCount w c :=
      validCount_congr (fun n => (hvalid' n).trans ((w.countSensors_within c).getF _ n)) c
    rw [hcount]
    exact ⟨(hkept _ (by simp)).trans hlow, fun h => ⟨(hkept _ (by simp)).trans (hheld h).1, (hkept _ (by simp)).trans (hheld h).2⟩⟩
  refine ⟨t, rfl, fun c hc => (hcluster c hc).1, fun c hc => (hcluster c hc).2, ?_, ?_, ?_⟩
  · exact (show t.bandMoved = v.bandMoved from hend.touch.same .bandMoved).trans hmoved.1
  · exact (show t.thrJudged = v.thrJudged from hend.touch.same .thrJudged).trans hmoved.2
  · exact (show t.cells = v.cells from hend.touch.same .cells).trans hcells

/-- Settles O56: readings and the shutdown, the counts of valid sensors, bands by one step and throttling once in a step. -/
theorem temperatureManaged : Obligations.TemperatureManaged := by
  unfold Obligations.TemperatureManaged
  refine ⟨⟨sensorRead_spec, sensorRead_shutdown, sensorCheck_spec⟩, fun now cl s => ?_, throttleStep_spec⟩
  exact ⟨bandStep_held now cl s, bandChange_spec now cl s⟩

end Sys2Proof.Machine
end

section
/-!
PROOF. The operator window, commits, the counter ring and margin scans (R412 to R418, O57).
-/

set_option Elab.async false

namespace Sys2Proof.Machine
open Sys2Proof

/-! ### Runs of bytes in a map (R412, R415) -/

/-- Bytes put one after another from an offset on. -/
def putRun (b : Nat) (m : SMap (Option Byte)) (xs : List (Byte × Nat)) : SMap (Option Byte) :=
  xs.foldl (fun m p => smapSet none m (b + p.2) (some p.1)) m

theorem smapGet_putRun (xs : List Byte) (b i a : Nat) (m : SMap (Option Byte)) :
    smapGet none (putRun b m (xs.zipIdx i)) a =
      if b + i ≤ a ∧ a < b + i + xs.length then some (xs.getD (a - (b + i)) 0) else smapGet none m a := by
  induction xs generalizing i m with
  | nil => exact (if_neg (fun h => by simp only [List.length_nil] at h; omega)).symm
  | cons x xs ih =>
    rw [List.zipIdx_cons, show putRun b m ((x, i) :: xs.zipIdx (i + 1)) = putRun b (smapSet none m (b + i) (some x)) (xs.zipIdx (i + 1))
      from rfl, ih, List.length_cons]
    by_cases ha : a = b + i
    · subst ha
      rw [if_neg (by omega), if_pos (by omega), Nat.sub_self, List.getD_cons_zero]
      exact smapGet_set_same ..
    · by_cases hin : b + (i + 1) ≤ a ∧ a < b + (i + 1) + xs.length
      · rw [if_pos hin, if_pos (by omega), show a - (b + i) = (a - (b + (i + 1))) + 1 by omega, List.getD_cons_succ]
      · rw [if_neg hin, if_neg (by omega)]
        exact smapGet_set_ne _ _ (Ne.symm ha)

/-! ### The operator window (R417, R418) -/

theorem State.settPut_first {s : State} (hb : s.settBuf = none) (hl : s.settList = []) (off : Nat) (b : Byte) :
    s.settPut off b = { s with settBuf := some { page := off / 64, bytes := smapSet none [] (off % 64) (some b) } } := by
  unfold State.settPut
  simp only [hb, hl]
  rfl

theorem State.settPut_same {s : State} {p : SettPage} (hb : s.settBuf = some p) {off : Nat} (hp : p.page = off / 64) (b : Byte) :
    s.settPut off b = { s with settBuf := some { page := off / 64, bytes := smapSet none p.bytes (off % 64) (some b) } } := by
  unfold State.settPut
  simp only [hb]
  exact if_pos hp

/-- Bytes of one page join the page in the buffer. -/
theorem State.settPut_run (xs : List Byte) (off i page : Nat) (m : SMap (Option Byte)) (s : State)
    (hx : off % 64 + i + xs.length ≤ 64) (hp : off / 64 = page) :
    (xs.zipIdx i).foldl (fun t p => t.settPut (off + p.2) p.1) { s with settBuf := some { page := page, bytes := m } } =
      { s with settBuf := some { page := page, bytes := putRun (off % 64) m (xs.zipIdx i) } } := by
  induction xs generalizing i m with
  | nil => rfl
  | cons x xs ih =>
    rw [List.length_cons] at hx
    rw [List.zipIdx_cons, List.foldl_cons, State.settPut_same rfl (by change page = (off + i) / 64; omega),
      show (off + i) / 64 = page by omega, show (off + i) % 64 = off % 64 + i by omega]
    exact ih (i + 1) (smapSet none m (off % 64 + i) (some x)) (by omega)

theorem State.settProtected_none {s : State} (h : s.getF .NVS_CTL_PROT 0 = 0) (q : Nat) : s.settProtected q = false := by
  unfold State.settProtected
  simp only [h]

theorem settWindowWrite_spec (now : Nat) (off : BitVec 18) (data : List Byte) (s : State) (hd : 0 < data.length)
    (hoff : 196608 ≤ off.toNat) (hprot : s.getF .NVS_CTL_PROT 0 = 0) (hb : s.settBuf = none) (hl : s.settList = [])
    (hpage : off.toNat / 64 = (off.toNat + data.length - 1) / 64) :
    ∃ t p, exec (.settWindowWrite now off data) s = .next t ∧ t.settBuf = some p ∧ p.page = off.toNat / 64 ∧
      (∀ k, k < data.length → smapGet none p.bytes ((off.toNat + k) % 64) = some (data.getD k 0)) ∧
      t = { s.advance now with settBuf := t.settBuf } := by
  have hok (a : Nat) (ha : off.toNat ≤ a) :
      ((false || decide (196608 ≤ a)) && !((s.advance now).settProtected (a / 65536))) = true := by
    rw [State.settProtected_none (s := s.advance now) hprot]
    simp only [Bool.false_or, Bool.not_false, Bool.and_true, decide_eq_true_eq]
    omega
  obtain ⟨x, xs, rfl⟩ := List.exists_cons_of_length_pos hd
  rw [List.length_cons] at hpage
  have hwrite : (s.advance now).settWrite false off.toNat (x :: xs) =
      { s.advance now with settBuf := some { page := off.toNat / 64, bytes := putRun (off.toNat % 64) [] ((x :: xs).zipIdx) } } := by
    unfold State.settWrite
    simp only [hok _ (Nat.le_add_right _ _), if_true]
    rw [if_pos (List.all_eq_true.mpr fun _ _ => rfl), List.zipIdx_cons, List.foldl_cons, State.settPut_first (s := s.advance now) hb hl]
    exact State.settPut_run xs off.toNat 1 (off.toNat / 64) _ (s.advance now) (by omega) rfl
  refine ⟨_, _, congrArg Host.Outcome.next hwrite, rfl, rfl, fun k hk => ?_, rfl⟩
  rw [List.length_cons] at hk
  rw [smapGet_putRun, List.length_cons, if_pos (by omega)]
  exact congrArg (fun j => some ((x :: xs).getD j 0)) (by omega)

theorem settWindowWrite_denied (now : Nat) (off : BitVec 18) (data : List Byte) (s : State) (hd : 0 < data.length)
    (h : off.toNat + data.length ≤ 196608) :
    exec (.settWindowWrite now off data) s = .next ((s.advance now).addHold .NVS_STAT_DENIED 0 1) := by
  have hout (p : Byte × Nat) (hp : p ∈ data.zipIdx) :
      ((false || decide (196608 ≤ off.toNat + p.2)) && !((s.advance now).settProtected ((off.toNat + p.2) / 65536))) = false := by
    have hlt := List.snd_lt_of_mem_zipIdx hp
    rw [Bool.false_or, decide_eq_false (by omega), Bool.false_and]
  have hnone (ps : List (Byte × Nat)) (hps : ∀ p ∈ ps, p ∈ data.zipIdx) :
      ps.foldl (fun t p => if (false || decide (196608 ≤ off.toNat + p.2)) &&
        !((s.advance now).settProtected ((off.toNat + p.2) / 65536)) then t.settPut (off.toNat + p.2) p.1 else t) (s.advance now) =
        s.advance now := by
    induction ps with
    | nil => rfl
    | cons p ps ih =>
      rw [List.foldl_cons, if_neg (Bool.eq_false_iff.mp (hout p (hps p List.mem_cons_self)))]
      exact ih fun q hq => hps q (List.mem_cons_of_mem p hq)
  refine congrArg Host.Outcome.next ?_
  unfold State.settWrite
  dsimp only
  rw [hnone _ fun _ h => h]
  obtain ⟨x, xs, rfl⟩ := List.exists_cons_of_length_pos hd
  refine if_neg fun hall => ?_
  have hx : (x, 0) ∈ (x :: xs).zipIdx := by simp [List.zipIdx_cons]
  exact Bool.noConfusion ((hout _ hx).symm.trans (List.all_eq_true.mp hall _ hx))

theorem settCommit_spec (now : Nat) (s : State) :
    (s.settPages ≠ [] → exec (.settCommit now) s = .next { s.advance now with
      settQueue := s.settQueue ++ [s.settPages]
      settList := []
      settBuf := none
      events := if s.events.commit = none then { s.events with commit := some true } else s.events }) ∧
    (s.settPages = [] → exec (.settCommit now) s = .next (s.advance now)) ∧
    exec (.settDiscard now) s = .next { s.advance now with settList := [], settBuf := none } := by
  have hrow : exec (.settCommit now) s = if s.settPages.isEmpty then .next (s.advance now) else .next { s.advance now with
      settQueue := s.settQueue ++ [s.settPages]
      settList := []
      settBuf := none
      events := if s.events.commit.isNone then { s.events with commit := some true } else s.events } := rfl
  refine ⟨fun h => ?_, fun h => hrow.trans (if_pos (List.isEmpty_iff.mpr h)), rfl⟩
  rw [hrow, if_neg (fun he => h (List.isEmpty_iff.mp he))]
  simp only [Option.isNone_iff_eq_none]

/-! ### The end of a commit (R412, R413) -/

theorem smapGet_settWith (ps : List SettPage) (m : SMap (Option Byte)) (a : Nat)
    (h : ∀ p, p ∈ ps → ∀ e, e ∈ p.bytes → 64 * p.page + e.1 ≠ a) : smapGet none (settWith m ps) a = smapGet none m a := by
  have hpage (p : SettPage) (es : SMap (Option Byte)) (he : ∀ e ∈ es, 64 * p.page + e.1 ≠ a) (u : SMap (Option Byte)) :
      smapGet none (es.foldl (fun u e => smapSet none u (64 * p.page + e.1) e.2) u) a = smapGet none u a := by
    induction es generalizing u with
    | nil => rfl
    | cons e es ih =>
      exact (ih (fun x hx => he x (List.mem_cons_of_mem e hx)) _).trans (smapGet_set_ne _ _ (he e List.mem_cons_self))
  unfold settWith
  induction ps generalizing m with
  | nil => rfl
  | cons p ps ih =>
    exact (ih _ fun q hq => h q (List.mem_cons_of_mem p hq)).trans (hpage p p.bytes (h p List.mem_cons_self) m)

theorem State.nextCommit_commit (s : State) (last : Bool) :
    (s.nextCommit last).commit = if s.events.urgent || (s.events.gather && (last || s.settQueue.isEmpty)) then some false
      else if s.settQueue.isEmpty then none else some true := by
  unfold State.nextCommit
  dsimp only
  split
  · rfl
  · split <;> rfl

theorem settCommitDone_spec (now : Nat) (s : State) :
    (s.events.commit = none → exec (.settCommitDone now) s = .next (s.advance now)) ∧
    (∀ c rest, s.events.commit = some true → s.settQueue = c :: rest →
      ∃ t, exec (.settCommitDone now) s = .next t ∧ t.settQueue = rest ∧ t.settCommits = s.settCommits + 1 ∧
        t.settMem = settWith s.settMem c ∧
        (∀ a, (∀ p, p ∈ c → ∀ e, e ∈ p.bytes → 64 * p.page + e.1 ≠ a) → smapGet none t.settMem a = smapGet none s.settMem a) ∧
        t.events.commit = (if s.events.urgent || s.events.gather then some false else if rest.isEmpty then none else some true) ∧
        t = { s.advance now with settQueue := t.settQueue, settMem := t.settMem, settCommits := t.settCommits, events := t.events }) ∧
    (s.events.commit = some false →
      ∃ t, exec (.settCommitDone now) s = .next t ∧ t.settCommits = s.settCommits + 1 ∧
        t.events.commit = (if s.events.urgent || (s.events.gather && s.settQueue.isEmpty) then some false
          else if s.settQueue.isEmpty then none else some true) ∧
        t = { s.advance now with settCommits := t.settCommits, events := t.events }) := by
  have hrow : exec (.settCommitDone now) s = match s.events.commit with
    | none => .next (s.advance now)
    | some pf =>
      let t : State := if pf then { s.advance now with settQueue := s.settQueue.drop 1, settMem := settWith s.settMem (s.settQueue.headD []) }
        else s.advance now
      .next { t with settCommits := s.settCommits + 1, events := t.nextCommit pf } := rfl
  refine ⟨fun h => by rw [hrow, h], fun c rest h hq => ?_, fun h => ?_⟩
  · rw [hrow, h, hq]
    refine ⟨_, rfl, rfl, rfl, rfl, smapGet_settWith c s.settMem, ?_, rfl⟩
    refine (State.nextCommit_commit _ true).trans ?_
    simp only [Bool.true_or, Bool.and_true]
    rfl
  · rw [hrow, h]
    refine ⟨_, rfl, rfl, ?_, rfl⟩
    exact (State.nextCommit_commit _ false).trans rfl

/-! ### The counter ring (R415) -/

theorem CounterSlot.length_bytes (x : CounterSlot) (h : x.data.length = 20) : x.bytes.length = 32 := by
  unfold CounterSlot.bytes
  simp [length_leBytes, h]

theorem State.putSlot_run (s : State) (n : Nat) (x : CounterSlot) :
    (s.putSlot n x).settMem = putRun (131072 + 32 * n) s.settMem x.bytes.zipIdx := by
  have hmem (m : SMap (Option Byte)) : ({ s with settMem := m } : State).settMem = m := rfl
  unfold State.putSlot putRun
  exact hmem _

theorem State.putSlot_mem (s : State) (n : Nat) (x : CounterSlot) (h : x.data.length = 20) (a : Nat) :
    smapGet none (s.putSlot n x).settMem a =
      if 131072 + 32 * n ≤ a ∧ a < 131072 + 32 * n + 32 then some (x.bytes.getD (a - (131072 + 32 * n)) 0)
      else smapGet none s.settMem a := by
  rw [s.putSlot_run, smapGet_putRun, x.length_bytes h, Nat.add_zero]

/-- The counters, the place in the ring and the events after an update of a group. -/
def State.ringTaken (s : State) (c : SMap CounterSlot) (n q : Nat) (e : Events) : State :=
  { s with counters := c, ringNext := n, ringSeq := q, events := e }

theorem State.ringTaken_spec {s v : State} (h : Touches [.settMem] s v) (c : SMap CounterSlot) (n q : Nat) (e : Events) :
    (v.ringTaken c n q e).settMem = v.settMem ∧ (v.ringTaken c n q e).counters = c ∧ (v.ringTaken c n q e).ringNext = n ∧
      (v.ringTaken c n q e).ringSeq = q ∧
      Touches [.settMem, .counters, .ringNext, .ringSeq, .events] s (v.ringTaken c n q e) :=
  ⟨rfl, rfl, rfl, rfl, (Touches.of_withParts (ps := [.counters, .ringNext, .ringSeq, .events]) rfl).after h.mono⟩

theorem counterGroupUpdate_spec (now : Nat) (group : Byte) (counters : List Byte) (s : State) (h : s.ringNext < 2048) :
    let n := s.ringNext
    let m := (s.ringNext + 1) % 2048
    let x : CounterSlot := { group := group.toNat, seq := (s.ringSeq + 1) % 4294967296, data := padTo 20 (counters.take 20) }
    ∃ t, exec (.counterGroupUpdate now group counters) s = .next t ∧
      (∀ k, k < 32 → smapGet none t.settMem (131072 + 32 * n + k) = some (x.bytes.getD k 0) ∧
        smapGet none t.settMem (131072 + 32 * m + k) = some (x.bytes.getD k 0)) ∧
      (∀ a, (a < 131072 ∨ ((a - 131072) / 32 ≠ n ∧ (a - 131072) / 32 ≠ m)) →
        smapGet none t.settMem a = smapGet none s.settMem a) ∧
      smapGet CounterSlot.empty t.counters group.toNat = x ∧
      t.ringNext = (s.ringNext + 2) % 2048 ∧ t.ringSeq = (s.ringSeq + 1) % 4294967296 ∧
      t = { s.advance now with settMem := t.settMem, counters := t.counters, ringNext := t.ringNext, ringSeq := t.ringSeq, events := t.events } := by
  intro n m x
  have hx : x.data.length = 20 := padTo_length (by rw [List.length_take]; omega)
  have hne : m ≠ n := by
    change (s.ringNext + 1) % 2048 ≠ s.ringNext
    omega
  have hread (a : Nat) : smapGet none (((s.advance now).putSlot n x).putSlot m x).settMem a =
      if 131072 + 32 * m ≤ a ∧ a < 131072 + 32 * m + 32 then some (x.bytes.getD (a - (131072 + 32 * m)) 0)
      else if 131072 + 32 * n ≤ a ∧ a < 131072 + 32 * n + 32 then some (x.bytes.getD (a - (131072 + 32 * n)) 0)
      else smapGet none s.settMem a := by
    rw [State.putSlot_mem _ m x hx, State.putSlot_mem _ n x hx]
    rfl
  have hput : Touches [.settMem] (s.advance now) (((s.advance now).putSlot n x).putSlot m x) :=
    (State.putSlot_within ..).touch.trans (State.putSlot_within ..).touch
  have hrow : exec (.counterGroupUpdate now group counters) s = .next ((((s.advance now).putSlot n x).putSlot m x).ringTaken
      (smapSet CounterSlot.empty s.counters group.toNat x) ((s.ringNext + 2) % 2048) ((s.ringSeq + 1) % 4294967296)
      (s.events.gathered false)) := rfl
  clear_value x
  obtain ⟨hmem, hcount, hnext, hseq, htouch⟩ := State.ringTaken_spec hput (smapSet CounterSlot.empty s.counters group.toNat x)
    ((s.ringNext + 2) % 2048) ((s.ringSeq + 1) % 4294967296) (s.events.gathered false)
  rw [← hmem] at hread
  refine ⟨_, hrow, fun k hk => ⟨?_, ?_⟩, fun a ha => ?_, ?_, hnext, hseq, htouch.eq_withParts⟩
  · rw [hread, if_neg (by omega), if_pos (by omega), Nat.add_sub_cancel_left]
  · rw [hread, if_pos (by omega), Nat.add_sub_cancel_left]
  · rw [hread, if_neg (by omega), if_neg (by omega)]
  · rw [hcount]
    exact smapGet_set_same ..

/-! ### Margin scans (R416) -/

/-- A page that is weak again takes a spare page, or there is none left. -/
def State.takeSparePage (t : State) : State :=
  let n := t.getF .NVS_STAT_SPARES 0
  if n = 0 then t.raise 0x108 0xFF 0xFF 0xFF 0xFFFF [] else t.setF .NVS_STAT_SPARES 0 (n - 1)

theorem State.takeSparePage_spares {t : State} (h : t.getF .NVS_STAT_SPARES 0 < 2 ^ Fld.NVS_STAT_SPARES.width) :
    t.takeSparePage.getF .NVS_STAT_SPARES 0 = t.getF .NVS_STAT_SPARES 0 - 1 := by
  unfold State.takeSparePage
  dsimp only
  split
  next h0 => exact ((State.raise_within ..).getF _ _).trans (by omega)
  next => exact (State.getF_setF_same ..).trans (Nat.mod_eq_of_lt (by omega))

theorem State.takeSparePage_touches (t : State) : Touches (.regs :: State.raiseWrites.parts) t t.takeSparePage :=
  Touches.ite _ ((State.raise_within ..).touch.mono) ((State.setF_touches ..).mono)

theorem State.takeSparePage_regs (t : State) : KeepsRegs t t.takeSparePage (fun f i => f == .NVS_STAT_SPARES && i == 0) := by
  unfold State.takeSparePage
  dsimp only
  split
  · exact (State.raise_touches ..).regs _
  · exact (KeepsRegs.refl t _).setF rfl _

theorem State.takeSparePage_left {t : State} (h : 0 < t.getF .NVS_STAT_SPARES 0) : Touches [.regs] t t.takeSparePage := by
  unfold State.takeSparePage
  dsimp only
  rw [if_neg (by omega)]
  exact State.setF_touches ..

theorem takeSparePages_spec {α : Type} (xs : List α) (s : State) (h : s.getF .NVS_STAT_SPARES 0 < 2 ^ Fld.NVS_STAT_SPARES.width) :
    (xs.foldl (fun t _ => t.takeSparePage) s).getF .NVS_STAT_SPARES 0 = s.getF .NVS_STAT_SPARES 0 - xs.length ∧
      (xs.length ≤ s.getF .NVS_STAT_SPARES 0 → Touches [.regs] s (xs.foldl (fun t _ => t.takeSparePage) s)) := by
  induction xs generalizing s with
  | nil => exact ⟨rfl, fun _ => Touches.refl _ s⟩
  | cons x xs ih =>
    have hs := State.takeSparePage_spares h
    obtain ⟨hget, htouch⟩ := ih s.takeSparePage (hs ▸ by omega)
    rw [List.foldl_cons, List.length_cons]
    refine ⟨hget.trans (by omega), fun hle => ?_⟩
    exact (State.takeSparePage_left (by omega)).trans (htouch (by omega))

theorem marginScan_spec (now : Nat) (weak dead : List (Fin 4096)) (s : State)
    (h : s.getF .NVS_STAT_SPARES 0 < 2 ^ Fld.NVS_STAT_SPARES.width) :
    ∃ t, exec (.marginScan now weak dead) s = .next t ∧
      t.settRefreshes = s.settRefreshes + (weak ++ dead).dedup.length ∧
      t.getF .NVS_STAT_SPARES 0 = s.getF .NVS_STAT_SPARES 0 - dead.dedup.length ∧ KeepsBytes s t nowhere ∧
      (dead.dedup.length ≤ s.getF .NVS_STAT_SPARES 0 →
        KeepsRegs s t (fun f i => f == .NVS_STAT_SPARES && i == 0) ∧
        t = { s.advance now with regs := t.regs, settRefreshes := t.settRefreshes }) := by
  let u : State := { s.advance now with settRefreshes := s.settRefreshes + (weak ++ dead).dedup.length }
  have hu : Touches [.settRefreshes] (s.advance now) u := Touches.of_withParts rfl
  obtain ⟨hget, htouch⟩ := takeSparePages_spec dead.dedup u h
  have hall : Touches (.regs :: State.raiseWrites.parts) u (dead.dedup.foldl (fun t _ => t.takeSparePage) u) :=
    Touches.foldl _ (fun t _ => t.takeSparePage_touches) _ _
  have hregs : KeepsRegs u (dead.dedup.foldl (fun t _ => t.takeSparePage) u) (fun f i => f == .NVS_STAT_SPARES && i == 0) :=
    KeepsRegs.foldl _ (fun t _ => t.takeSparePage_regs) _ _
  have hrow : exec (.marginScan now weak dead) s = .next (dead.dedup.foldl (fun t _ => t.takeSparePage) u) := rfl
  refine ⟨_, hrow, hall.same .settRefreshes, hget, hall.bytes _, fun hle => ⟨hregs, ?_⟩⟩
  exact ((htouch hle).after hu.mono : Touches [.regs, .settRefreshes] (s.advance now) _).eq_withParts

/-- Settles O57: the operator window and its commits, the counter ring, and the pages that margin scans replace. -/
theorem settStore : Obligations.SettStore := by
  unfold Obligations.SettStore
  refine ⟨⟨fun now off data s hd => ⟨settWindowWrite_spec now off data s hd, settWindowWrite_denied now off data s hd⟩,
    settCommit_spec, settCommitDone_spec⟩, counterGroupUpdate_spec, marginScan_spec⟩

end Sys2Proof.Machine
end

section
/-!
PROOF. Limited-change settings, the anti-rollback counter and the key store (R419 to R424, O58).
-/

set_option Elab.async false

namespace Sys2Proof.Machine
open Sys2Proof

/-! ### Limited-change settings (R419, R420) -/

theorem lcChangeRequest_none (now : Nat) (key : BitVec 16) (n : BitVec 3) (s : State)
    (h : key ≠ 0xC3A5#16 ∨ s.lcBusy ≠ none ∨ s.shutDown = true) : exec (.lcChangeRequest now key n) s = .next (s.advance now) := by
  refine if_pos ?_
  simp only [Bool.or_eq_true, decide_eq_true_eq, or_assoc]
  exact h.imp id (Or.imp Option.isSome_iff_ne_none.mpr id)

/-- What an LC_CHANGE_REQUEST tells, by its first fault (R420). -/
theorem lcChangeRequest_row (now : Nat) (n : BitVec 3) (s : State) (hb : s.lcBusy = none) (hs : s.shutDown = false) :
    let k := n.toNat
    let v := s.getF .NVS_LCVAL_VALUE 0
    let told (r : Nat) : State := ((s.advance now).setF .NVS_LCSTAT_SETTING 0 k).setF .NVS_LCSTAT_RESULT 0 r
    exec (.lcChangeRequest now 0xC3A5#16 n) s =
      if k < 6 ∧ 8 ≤ (s.lcSlots k).length then .next (told 2)
      else if s.settingValueBad k v = true then .next (told 4)
      else if s.settingInUse k v = true then .next (told 3)
      else if v = s.setting k then .next (told 1)
      else .next { told 0 with lcBusy := some (k, v) } := by
  intro k v told
  have hrow : exec (.lcChangeRequest now 0xC3A5#16 n) s =
      if 0xC3A5#16 ≠ 0xC3A5#16 || s.lcBusy.isSome || s.shutDown then .next (s.advance now)
      else if k < 6 && 8 ≤ (s.lcSlots k).length then .next (told 2)
      else if s.settingValueBad k v then .next (told 4)
      else if s.settingInUse k v then .next (told 3)
      else if v = s.setting k then .next (told 1)
      else .next { told 0 with lcBusy := some (k, v) } := rfl
  rw [hrow, hb, hs]
  simp only [ne_eq, not_true_eq_false, decide_false, Option.isSome_none, Bool.or_self, Bool.false_eq_true, if_false,
    Bool.and_eq_true, decide_eq_true_eq]

theorem lcChangeRequest_spec (now : Nat) (n : BitVec 3) (s : State) :
    let k := n.toNat
    let v := s.getF .NVS_LCVAL_VALUE 0
    let told (r : Nat) : State := ((s.advance now).setF .NVS_LCSTAT_SETTING 0 k).setF .NVS_LCSTAT_RESULT 0 r
    s.lcBusy = none → s.shutDown = false →
    (k < 6 → 8 ≤ (s.lcSlots k).length → exec (.lcChangeRequest now 0xC3A5#16 n) s = .next (told 2)) ∧
    ((6 ≤ k ∨ (s.lcSlots k).length < 8) →
      (s.settingValueBad k v = true → exec (.lcChangeRequest now 0xC3A5#16 n) s = .next (told 4)) ∧
      (s.settingValueBad k v = false → s.settingInUse k v = true → exec (.lcChangeRequest now 0xC3A5#16 n) s = .next (told 3)) ∧
      (s.settingValueBad k v = false → s.settingInUse k v = false → v = s.setting k →
        exec (.lcChangeRequest now 0xC3A5#16 n) s = .next (told 1)) ∧
      (s.settingValueBad k v = false → s.settingInUse k v = false → v ≠ s.setting k →
        exec (.lcChangeRequest now 0xC3A5#16 n) s = .next { told 0 with lcBusy := some (k, v) })) := by
  intro k v told hb hs
  have hrow := lcChangeRequest_row now n s hb hs
  extract_lets at hrow
  refine ⟨fun hk hlen => hrow.trans (if_pos ⟨hk, hlen⟩), fun hroom => ?_⟩
  rw [if_neg (by omega)] at hrow
  refine ⟨fun hv => hrow.trans (if_pos hv), fun hv hu => ?_, fun hv hu he => ?_, fun hv hu he => ?_⟩
  · rw [if_neg (Bool.eq_false_iff.mp hv), if_pos hu] at hrow
    exact hrow
  · rw [if_neg (Bool.eq_false_iff.mp hv), if_neg (Bool.eq_false_iff.mp hu), if_pos he] at hrow
    exact hrow
  · rw [if_neg (Bool.eq_false_iff.mp hv), if_neg (Bool.eq_false_iff.mp hu), if_neg he] at hrow
    exact hrow

/-- A slot of setting n is spent, with its commit bit burned or not. -/
def State.lcSpent (s : State) (n v : Nat) (burned : Bool) : State :=
  { s with lc := smapSet [] s.lc n (s.lcSlots n ++ [({ value := v, ok := burned } : LcSlot)]), lcBusy := none }

theorem State.lcSpent_same (s : State) (n v : Nat) (burned : Bool) :
    (s.lcSpent n v burned).lcSlots n = s.lcSlots n ++ [{ value := v, ok := burned }] := smapGet_set_same ..

theorem State.lcSpent_other (s : State) (n v : Nat) (burned : Bool) {k : Nat} (h : k ≠ n) :
    (s.lcSpent n v burned).lcSlots k = s.lcSlots k := smapGet_set_ne _ _ h.symm

theorem setting_of_slots {s t : State} {n v : Nat} {burned : Bool} (h : t.lcSlots n = s.lcSlots n ++ [{ value := v, ok := burned }]) :
    t.setting n = if burned then v else s.setting n := by
  unfold State.setting
  rw [h, List.filter_append]
  cases burned
  · simp
  · simp

theorem lcBurnDone_spec (now : Nat) (burned : Bool) (s : State) {n v : Nat} (h : s.lcBusy = some (n, v)) :
    ∃ t, exec (.lcBurnDone now burned) s = .next t ∧ t.lcBusy = none ∧
      t.lcSlots n = s.lcSlots n ++ [{ value := v, ok := burned }] ∧ (∀ k, k ≠ n → t.lcSlots k = s.lcSlots k) ∧
      t.setting n = (if burned then v else s.setting n) ∧
      t.getF .NVS_LCSTAT_RESULT 0 = (if burned then 1 else 5) ∧
      (burned = true → n = 1 → s.setting 1 < v → t.modelKeys = []) ∧
      ((burned = false ∨ n ≠ 1 ∨ v ≤ s.setting 1) → t.modelKeys = s.modelKeys) ∧ KeepsBytes s t nowhere ∧
      t.cells = s.cells := by
  rw [show exec (.lcBurnDone now burned) s = execLcBurnDone now burned s from rfl]
  unfold execLcBurnDone
  extract_lets u
  have hu : u.lcBusy = some (n, v) := h
  simp -zeta only [hu]
  extract_lets slot raises spent keyed told
  have hspent : spent = u.lcSpent n v burned := rfl
  have hslots : ∀ k, keyed.lcSlots k = spent.lcSlots k ∧ keyed.lcBusy = none ∧ Touches [.lc, .lcBusy, .modelKeys] u keyed := by
    intro k
    unfold keyed
    split
    · exact ⟨rfl, rfl, Touches.of_withParts rfl⟩
    · exact ⟨rfl, rfl, Touches.of_withParts rfl⟩
  have hkeys : keyed.modelKeys = if raises then [] else s.modelKeys := by
    unfold keyed
    split <;> rfl
  have hr : raises = true ↔ burned = true ∧ n = 1 ∧ s.setting 1 < v := by
    simp only [raises, Bool.and_eq_true, beq_iff_eq, decide_eq_true_eq, and_assoc]
    rfl
  have htold : Within ⟨.regs :: State.raiseWrites.parts, [.NVS_LCSTAT_RESULT]⟩ keyed told :=
    (State.raise_within ..).after ((State.setF_within ..).mono)
  have hres : told.getF .NVS_LCSTAT_RESULT 0 = if burned then 1 else 5 := by
    refine ((State.raise_within ..).getF _ _).trans ((State.getF_setF_same ..).trans ?_)
    cases burned <;> rfl
  clear_value raises spent keyed told
  subst hspent
  generalize hend : (if n = 2 then told.wioSettle u else told) = t
  have ht : Within State.wioSettleWrites told t := hend ▸ Within.ite _ (State.wioSettle_within ..) (Within.refl _ _)
  have htouch : Touches (State.wioSettleWrites.parts ++ .regs :: State.raiseWrites.parts) keyed t := ht.touch.after htold.touch.mono
  obtain ⟨-, hbusy, hkeyed⟩ := hslots 0
  have hlc (k : Nat) : t.lcSlots k = (u.lcSpent n v burned).lcSlots k :=
    (congrArg (smapGet [] · k) (htouch.same .lc)).trans (hslots k).1
  have hall : Touches (State.wioSettleWrites.parts ++ .regs :: State.raiseWrites.parts ++ [.lc, .lcBusy, .modelKeys]) u t :=
    htouch.after hkeyed.mono
  have hn : t.lcSlots n = s.lcSlots n ++ [{ value := v, ok := burned }] := (hlc n).trans (u.lcSpent_same n v burned)
  have hmk : t.modelKeys = if raises then [] else s.modelKeys := (show t.modelKeys = keyed.modelKeys from htouch.same .modelKeys).trans hkeys
  refine ⟨t, rfl, (show t.lcBusy = keyed.lcBusy from htouch.same .lcBusy).trans hbusy, hn,
    fun k hk => (hlc k).trans (u.lcSpent_other n v burned hk), setting_of_slots hn, (ht.getF _ _).trans hres,
    fun hb h1 hv => hmk.trans (if_pos (hr.mpr ⟨hb, h1, hv⟩)), fun hno => hmk.trans (if_neg fun hc => ?_), hall.bytes _, hall.same .cells⟩
  obtain ⟨hb, h1, hv⟩ := hr.mp hc
  rcases hno with hno | hno | hno
  · rw [hb] at hno
    cases hno
  · exact hno h1
  · omega

/-! ### The anti-rollback counter (R421) -/

theorem fwarbAdvance_spec (now : Nat) (target : BitVec 7) (s : State) :
    let top := match s.image with | some i => i.secver | none => 0
    (target.toNat ≤ 64 → target.toNat ≤ top → s.fwTarget = none → s.getF .NVS_FWARB_COUNT 0 < target.toNat →
      exec (.fwarbAdvance now target) s = .next { s.advance now with fwTarget := some target.toNat }) ∧
    ((64 < target.toNat ∨ top < target.toNat ∨ s.fwTarget ≠ none ∨ target.toNat ≤ s.getF .NVS_FWARB_COUNT 0) →
      exec (.fwarbAdvance now target) s = .next (s.advance now)) := by
  intro top
  have hrow : exec (.fwarbAdvance now target) s =
      if 64 < target.toNat || top < target.toNat || s.fwTarget.isSome || target.toNat ≤ s.getF .NVS_FWARB_COUNT 0 then
        .next (s.advance now) else .next { s.advance now with fwTarget := some target.toNat } := rfl
  rw [hrow]
  simp only [Bool.or_eq_true, decide_eq_true_eq, or_assoc, Option.isSome_iff_ne_none]
  refine ⟨fun h64 htop hnone hcount => if_neg ?_, fun h => if_pos h⟩
  rintro (h | h | h | h)
  · omega
  · omega
  · exact h hnone
  · omega

theorem fwarbBurnDone_spec (now burned : Nat) (s : State) :
    (s.fwTarget = none → exec (.fwarbBurnDone now burned) s = .next (s.advance now)) ∧
    (∀ n, s.fwTarget = some n → n ≤ 64 → s.getF .NVS_FWARB_COUNT 0 < 2 ^ Fld.NVS_FWARB_COUNT.width →
      ∃ t, exec (.fwarbBurnDone now burned) s = .next t ∧ t.fwTarget = none ∧
        t.getF .NVS_FWARB_COUNT 0 = max (s.getF .NVS_FWARB_COUNT 0) (min burned n) ∧
        KeepsRegs s t (fun f i => f == .NVS_FWARB_COUNT && i == 0) ∧
        t = { s.advance now with regs := t.regs, fwTarget := t.fwTarget }) := by
  have hrow : exec (.fwarbBurnDone now burned) s = match s.fwTarget with
    | none => .next (s.advance now)
    | some t => .next { (s.advance now).setF .NVS_FWARB_COUNT 0 (max (s.getF .NVS_FWARB_COUNT 0) (min burned t)) with fwTarget := none } :=
    rfl
  refine ⟨fun h => by rw [hrow, h], fun n h hn hc => ?_⟩
  rw [hrow, h]
  refine ⟨_, rfl, rfl, ?_, ?_, rfl⟩
  · refine ((s.advance now).getF_setF_same .NVS_FWARB_COUNT 0 _).trans (Nat.mod_eq_of_lt ?_)
    rw [show 2 ^ Fld.NVS_FWARB_COUNT.width = 128 from rfl] at hc ⊢
    omega
  · exact ((KeepsRegs.refl s _).setF (s := s) (t := s.advance now) rfl _).congr rfl

/-! ### The key store (R424) -/

theorem keystoreRequest_spec (now : Nat) (s : State) :
    (s.bit .NVS_KSCMD_BUSY 0 = false →
      exec (.keystoreRequest now) s = .next (((s.advance now).setF .NVS_KSCMD_BUSY 0 1).setF .NVS_KSCMD_RESULT 0 0) ∧
      exec (.keystoreRequestDone now) s = .next (s.advance now)) ∧
    (s.bit .NVS_KSCMD_BUSY 0 = true → exec (.keystoreRequest now) s = .next (s.advance now)) := by
  refine ⟨fun h => ⟨if_neg (Bool.eq_false_iff.mp h), if_pos ?_⟩, fun h => if_pos h⟩
  rw [show (s.advance now).bit .NVS_KSCMD_BUSY 0 = false from h]
  rfl

theorem State.ksResult_lt (s : State) (b : List Byte) : s.ksResult b < 8 := by
  unfold State.ksResult
  dsimp only
  repeat' split
  all_goals decide

/-- The key that a request writes into its slot. -/
def ksKey (b : List Byte) : Key :=
  if bnum b 3 1 = 2 then Key.empty
  else { bytes := (b.drop 4).take 48, owner := if bnum b 2 1 = 4 then 0xFF else bnum b 1 1, usage := bnum b 2 1 }

theorem keystoreRequestDone_spec (now : Nat) (s : State) (h : s.bit .NVS_KSCMD_BUSY 0 = true) :
    let b := s.ksBlock
    let slot := bnum b 0 1
    ∃ t, exec (.keystoreRequestDone now) s = .next t ∧ t.bit .NVS_KSCMD_BUSY 0 = false ∧
      t.getF .NVS_KSCMD_RESULT 0 = s.ksResult b ∧
      (∀ k, k ≠ slot ∨ s.ksResult b ≠ 1 → smapGet Key.empty t.signKeys k = smapGet Key.empty s.signKeys k) ∧
      (s.ksResult b = 1 → smapGet Key.empty t.signKeys slot =
        (if bnum b 3 1 = 2 then Key.empty
         else { bytes := (b.drop 4).take 48, owner := if bnum b 2 1 = 4 then 0xFF else bnum b 1 1, usage := bnum b 2 1 })) ∧
      KeepsRegs s t (fun f i => (f == .NVS_KSCMD_BUSY || f == .NVS_KSCMD_RESULT) && i == 0) ∧
      t = { s.advance now with regs := t.regs, signKeys := t.signKeys } := by
  intro b slot
  let told := ((s.advance now).setF .NVS_KSCMD_BUSY 0 0).setF .NVS_KSCMD_RESULT 0 (s.ksResult b)
  have hrow : exec (.keystoreRequestDone now) s = if !((s.advance now).bit .NVS_KSCMD_BUSY 0) then .next (s.advance now)
      else .next (if s.ksResult b = 1 then { told with signKeys := smapSet Key.empty s.signKeys slot (ksKey b) } else told) := rfl
  rw [show (s.advance now).bit .NVS_KSCMD_BUSY 0 = true from h] at hrow
  have hbusy : told.bit .NVS_KSCMD_BUSY 0 = false := by
    have h0 : told.getF .NVS_KSCMD_BUSY 0 = 0 :=
      (State.getF_setF_ne _ _ (by decide)).trans ((s.advance now).getF_setF_same .NVS_KSCMD_BUSY 0 0)
    exact beq_eq_false_iff_ne.mpr (by rw [h0]; decide)
  have hres : told.getF .NVS_KSCMD_RESULT 0 = s.ksResult b :=
    (State.getF_setF_same ..).trans (Nat.mod_eq_of_lt (s.ksResult_lt b))
  have hregs : KeepsRegs s told (fun f i => (f == .NVS_KSCMD_BUSY || f == .NVS_KSCMD_RESULT) && i == 0) :=
    ((KeepsRegs.refl s _).setF (s := s) (t := s.advance now) rfl _).setF rfl _
  have htouch : Touches [.regs] (s.advance now) told := (State.setF_touches ..).trans (State.setF_touches ..)
  have hkeys : told.signKeys = s.signKeys := htouch.same .signKeys
  clear_value told
  by_cases hr : s.ksResult b = 1
  · rw [if_pos hr] at hrow
    refine ⟨_, hrow, hbusy, hres, fun k hk => smapGet_set_ne _ _ ?_, fun _ => smapGet_set_same .., hregs.congr rfl, ?_⟩
    · exact fun he => hk.elim (fun h => h he.symm) (fun h => h hr)
    · exact ((Touches.of_withParts (ps := [.signKeys]) rfl).after htouch.mono : Touches [.regs, .signKeys] (s.advance now) _).eq_withParts
  · rw [if_neg hr] at hrow
    refine ⟨told, hrow, hbusy, hres, fun k _ => by rw [hkeys], fun h => absurd h hr, hregs, ?_⟩
    exact (htouch.mono : Touches [.regs, .signKeys] (s.advance now) _).eq_withParts

/-- Settles O58: limited-change settings, the anti-rollback counter and the key store. -/
theorem fusesAndKeys : Obligations.FusesAndKeys := by
  unfold Obligations.FusesAndKeys
  refine ⟨⟨lcChangeRequest_none, lcChangeRequest_spec, fun now burned s => ⟨fun h => ?_, fun n v h => lcBurnDone_spec now burned s h⟩⟩,
    ⟨fwarbAdvance_spec, fwarbBurnDone_spec⟩, ⟨keystoreRequest_spec, keystoreRequestDone_spec⟩⟩
  rw [show exec (.lcBurnDone now burned) s = execLcBurnDone now burned s from rfl]
  unfold execLcBurnDone
  simp only [show (s.advance now).lcBusy = none from h]

end Sys2Proof.Machine
end

section
/-!
PROOF. The counter page, the trace drain, the event queues and the debug port (R418, R426, R431 to R445, O60).
-/

set_option Elab.async false

namespace Sys2Proof.Machine
open Sys2Proof

/-! ### The tenant counter page and the trace drain (R431, R435) -/

theorem tencLatch_spec (now : Nat) (tn : Fin 128) (s : State) :
    ((s.fnst (tn.val + 1)).enabled = true → (s.fnst (tn.val + 1)).flr = none →
      ∀ pf : Bool, exec (.tencLatch now pf tn) s = .next { s.advance now with
        tencs := smapSet none s.tencs (if pf then 128 + (tn.val + 1) else tn.val + 1)
          (some { time := (s.advance now).clock, words := (s.advance now).tencNow (tn.val + 1) }) }) ∧
    (((s.fnst (tn.val + 1)).enabled = false ∨ (s.fnst (tn.val + 1)).flr ≠ none) → s.perst = false →
      exec (.tencLatch now true tn) s = .next (s.advance now) ∧
      exec (.tencLatch now false tn) s = .next ((s.advance now).emit .unsupported)) := by
  have hrow (pf : Bool) : exec (.tencLatch now pf tn) s =
      if !((s.fnst (tn.val + 1)).enabled) || (s.fnst (tn.val + 1)).flr.isSome then
        .next (if pf then s.advance now else (s.advance now).hosted (tn.val + 1) id)
      else .next { s.advance now with
        tencs := smapSet none s.tencs (if pf then 128 + (tn.val + 1) else tn.val + 1)
          (some { time := (s.advance now).clock, words := (s.advance now).tencNow (tn.val + 1) }) } := rfl
  refine ⟨fun he hf pf => (hrow pf).trans (if_neg (by simp [he, hf])), fun h hp => ?_⟩
  have hguard : (!((s.fnst (tn.val + 1)).enabled) || (s.fnst (tn.val + 1)).flr.isSome) = true := by
    rw [Bool.or_eq_true, Bool.not_eq_true']
    exact h.imp id Option.isSome_iff_ne_none.mpr
  have hout : (s.advance now).hosted (tn.val + 1) id = (s.advance now).emit .unsupported := by
    unfold State.hosted
    rw [if_neg (Bool.eq_false_iff.mp (show (s.advance now).perst = false from hp)), if_neg (Nat.succ_ne_zero _)]
    refine if_neg fun hc => ?_
    obtain ⟨he, hf⟩ := Bool.and_eq_true_iff.mp hc
    rcases h with h | h
    · exact Bool.noConfusion (h.symm.trans he)
    · exact h (Option.isNone_iff_eq_none.mp hf)
  exact ⟨(hrow true).trans (if_pos hguard), (hrow false).trans ((if_pos hguard).trans (congrArg Host.Outcome.next hout))⟩

theorem execTraceEnable_eq (now : Nat) (en : Bool) (s : State) :
    exec (.traceEnable now en) s = .next (if s.dieOn 5 then
      (if en && !(s.bit .OBS_TRCFG_EN 0) then { ((s.advance now).setB .OBS_TRCFG_EN 0 en).setF .OBS_TRPROD_INDEX 0 0 with traceSeq := 0 }
        else (s.advance now).setB .OBS_TRCFG_EN 0 en)
      else (s.advance now).accErr 0 true 0x20 false (Reg.OBS_TRCFG.at_ [])) := rfl

theorem traceEnable_on (now : Nat) (s : State) (hd : s.dieOn 5 = true) :
    (s.bit .OBS_TRCFG_EN 0 = false → ∃ t, exec (.traceEnable now true) s = .next t ∧ t.bit .OBS_TRCFG_EN 0 = true ∧
      t.getF .OBS_TRPROD_INDEX 0 = 0 ∧ t.traceSeq = 0 ∧
      KeepsRegs s t (fun f i => (f == .OBS_TRCFG_EN || f == .OBS_TRPROD_INDEX) && i == 0) ∧
      t = { s.advance now with regs := t.regs, traceSeq := t.traceSeq }) ∧
    (s.bit .OBS_TRCFG_EN 0 = true → exec (.traceEnable now true) s = .next ((s.advance now).setF .OBS_TRCFG_EN 0 1)) ∧
    exec (.traceEnable now false) s = .next ((s.advance now).setF .OBS_TRCFG_EN 0 0) := by
  have hrow (en : Bool) := execTraceEnable_eq now en s
  simp only [hd, if_true] at hrow
  refine ⟨fun he => ?_, fun he => ?_, hrow false⟩
  · have hrow1 := hrow true
    simp only [he, Bool.not_false, Bool.and_self, if_true] at hrow1
    let w := ((s.advance now).setB .OBS_TRCFG_EN 0 true).setF .OBS_TRPROD_INDEX 0 0
    have hen : w.bit .OBS_TRCFG_EN 0 = true :=
      beq_iff_eq.mpr ((State.getF_setF_ne _ _ (by decide)).trans ((s.advance now).getF_setF_same .OBS_TRCFG_EN 0 1))
    have hprod : w.getF .OBS_TRPROD_INDEX 0 = 0 := State.getF_setF_same ..
    have hregs : KeepsRegs s w (fun f i => (f == .OBS_TRCFG_EN || f == .OBS_TRPROD_INDEX) && i == 0) :=
      ((KeepsRegs.refl s _).setF (s := s) (t := s.advance now) rfl _).setF rfl _
    exact ⟨{ w with traceSeq := 0 }, hrow1, hen, hprod, rfl, hregs.congr rfl, rfl⟩
  · have hrow1 := hrow true
    simp only [he, Bool.not_true, Bool.and_false, Bool.false_eq_true, if_false] at hrow1
    exact hrow1

theorem State.mem_out_msix (s : State) (fn vec : Nat) {o : Output} (h : o ∈ s.out) : o ∈ (s.msix fn vec).out := by
  unfold State.msix
  split
  · exact h
  · exact List.mem_cons_of_mem _ h

theorem traceDrainBlock_spec (now : Nat) (cl : Cluster) (s : State) :
    let x := s.trace cl.val
    let n := s.getF .OBS_TRSIZE_BLOCKS 0
    let prod := s.getF .OBS_TRPROD_INDEX 0
    (s.bit .OBS_TRCFG_EN 0 = true → s.dieOn 5 = true → 0 < n → (s.advance now).drainTurn = some cl.val → s.traceFull prod = false →
      ∃ t, exec (.traceDrainBlock now cl) s = .next t ∧ (t.trace cl.val).recs = x.recs.drop 252 ∧
        t.traceSeq = s.traceSeq + 1 ∧ t.traceLast = cl.val ∧
        t.getF .OBS_TRPROD_INDEX 0 = (prod + 1) % n % 2 ^ Fld.OBS_TRPROD_INDEX.width ∧
        (.hostWrite 0 (s.getF .OBS_TRBASEH_VALUE 0 * 4294967296 + s.getF .OBS_TRBASEL_VALUE 0 * 4096 + 4096 * prod)
          ((s.advance now).traceBlock cl.val (x.recs.take 252))) ∈ t.out ∧
        KeepsRegs s t (fun f i => f == .OBS_TRPROD_INDEX && i == 0) ∧
        t = { s.advance now with regs := t.regs, traces := t.traces, traceSeq := t.traceSeq, traceLast := t.traceLast, out := t.out, pba := t.pba }) ∧
    ((s.bit .OBS_TRCFG_EN 0 = false ∨ s.dieOn 5 = false ∨ n = 0 ∨ (s.advance now).drainTurn ≠ some cl.val ∨
      s.traceFull prod = true) → exec (.traceDrainBlock now cl) s = .next (s.advance now)) := by
  intro x n prod
  rw [show exec (.traceDrainBlock now cl) s = execTraceDrainBlock now cl s from rfl]
  unfold execTraceDrainBlock
  extract_lets u c v m p rs rest base w next mark reached drained told shown
  have hguard : (!(u.bit .OBS_TRCFG_EN 0) || !(u.dieOn 5) || decide (m = 0) || u.drainTurn != some c || u.traceFull p) = true ↔
      (s.bit .OBS_TRCFG_EN 0 = false ∨ s.dieOn 5 = false ∨ n = 0 ∨ (s.advance now).drainTurn ≠ some cl.val ∨ s.traceFull prod = true) := by
    simp only [Bool.or_eq_true, Bool.not_eq_true', decide_eq_true_eq, bne_iff_ne, or_assoc]
    exact Iff.rfl
  refine ⟨fun he hd hn ht hf => ?_, fun h => if_pos (hguard.mpr h)⟩
  have hno : ¬ (!(u.bit .OBS_TRCFG_EN 0) || !(u.dieOn 5) || decide (m = 0) || u.drainTurn != some c || u.traceFull p) = true := by
    intro hc
    rcases hguard.mp hc with h | h | h | h | h
    · exact Bool.noConfusion (h.symm.trans he)
    · exact Bool.noConfusion (h.symm.trans hd)
    · omega
    · exact h ht
    · exact Bool.noConfusion (h.symm.trans hf)
  rw [if_neg hno]
  have hw : Touches [.out] u w := State.emit_touches ..
  have hwout : (.hostWrite 0 (s.getF .OBS_TRBASEH_VALUE 0 * 4294967296 + s.getF .OBS_TRBASEL_VALUE 0 * 4096 + 4096 * prod)
      ((s.advance now).traceBlock cl.val (x.recs.take 252))) ∈ w.out := List.mem_cons_self
  have hseq : w.traceSeq = s.traceSeq := rfl
  clear_value w reached
  have hdrained : Touches [.traces] w drained := State.setTrace_touches ..
  have hrecs : (drained.trace c).recs = x.recs.drop 252 := congrArg TraceRing.recs (smapGet_set_same ..)
  clear_value drained
  have htold : Touches [.traceSeq, .traceLast] drained told := Touches.of_withParts rfl
  have hlast : told.traceSeq = s.traceSeq + 1 ∧ told.traceLast = cl.val := ⟨congrArg (· + 1) hseq, rfl⟩
  have htrace : told.traces = drained.traces := rfl
  clear_value told
  have hshown : Touches [.regs] told shown := State.setF_touches ..
  have hprod : shown.getF .OBS_TRPROD_INDEX 0 = (prod + 1) % n % 2 ^ Fld.OBS_TRPROD_INDEX.width := State.getF_setF_same ..
  have hregs : KeepsRegs told shown (fun f i => f == .OBS_TRPROD_INDEX && i == 0) := (KeepsRegs.refl told _).setF rfl _
  clear_value shown
  generalize hend : (if reached || shown.traceFull next then shown.msix 0 5 else shown) = t
  have hmsix : Touches [.pba, .out] shown t := hend ▸ Touches.ite _ (State.msix_touches ..) (Touches.refl _ _)
  have hmem : ∀ o, o ∈ shown.out → o ∈ t.out := by
    intro o ho
    rw [← hend]
    split
    · exact State.mem_out_msix _ _ _ ho
    · exact ho
  have hall : Touches [.regs, .traces, .traceSeq, .traceLast, .out, .pba] u t :=
    hmsix.after (hshown.after (htold.after (hdrained.after hw.mono)))
  have hsame : Touches [.regs, .pba, .out] told t := hmsix.after hshown.mono
  refine ⟨t, rfl, ?_, ?_, ?_, (hmsix.getF _ _).trans hprod, hmem _ ?_, ?_, hall.eq_withParts⟩
  · have ht : t.trace c = drained.trace c :=
      congrArg (smapGet TraceRing.empty · c) ((show t.traces = told.traces from hsame.same .traces).trans htrace)
    exact (congrArg TraceRing.recs ht).trans hrecs
  · exact (show t.traceSeq = told.traceSeq from hsame.same .traceSeq).trans hlast.1
  · exact (show t.traceLast = told.traceLast from hsame.same .traceLast).trans hlast.2
  · rw [show shown.out = told.out from hshown.same .out, show told.out = drained.out from htold.same .out,
      show drained.out = w.out from hdrained.same .out]
    exact hwout
  · refine KeepsRegs.trans (t := told) ?_ (hregs.trans (hmsix.regs _))
    exact (hw.regs _).trans ((hdrained.regs _).trans (htold.regs _))

/-! ### The event queues (R444, R445) -/

theorem Events.path_setPath_same (e : Events) (i : Nat) (p : EvPath) : (e.setPath i p).path i = p := smapGet_set_same ..

theorem Events.path_setPath_ne (e : Events) {i k : Nat} (p : EvPath) (h : k ≠ i) : (e.setPath i p).path k = e.path k :=
  smapGet_set_ne _ _ h.symm

theorem State.path_msix (s : State) (fn vec k : Nat) : (s.msix fn vec).events.path k = s.events.path k :=
  congrArg (fun e : Events => e.path k) ((s.msix_touches fn vec).same .events)

/-- Events that wait for room are admitted in order, each as the queue's last record. -/
theorem State.admitPending_spec (s : State) (f n : Nat) :
    ∃ xs, ((s.admitPending f n).events.path (1 + f)).recs = (s.events.path (1 + f)).recs ++ xs ∧
      (∀ k, k ≠ 1 + f → (s.admitPending f n).events.path k = s.events.path k) ∧
      Touches [.events, .out, .pba] s (s.admitPending f n) := by
  have hno (s : State) : ∃ xs, (s.events.path (1 + f)).recs = (s.events.path (1 + f)).recs ++ xs ∧
      (∀ k, k ≠ 1 + f → s.events.path k = s.events.path k) ∧ Touches [.events, .out, .pba] s s :=
    ⟨[], (List.append_nil _).symm, fun _ _ => rfl, Touches.refl _ s⟩
  induction n generalizing s with
  | zero => exact hno s
  | succ n ih =>
    unfold State.admitPending
    split
    · exact hno s
    next p hp =>
      extract_lets q ev e
      split
      · have htaken : Touches [.events] s { s with events := e } := Touches.of_withParts rfl
        have hall : Touches [.events, .out, .pba] s (State.msix { s with events := e } f 4) := (State.msix_touches ..).after htaken.mono
        have hpath (k : Nat) : (State.msix { s with events := e } f 4).events.path k = e.path k := State.path_msix ..
        obtain ⟨xs, hx, hk, ht⟩ := ih (State.msix { s with events := e } f 4)
        refine ⟨p.2 :: xs, ?_, fun k hne => ?_, hall.trans ht⟩
        · rw [hx, hpath, Events.path_setPath_same, List.append_assoc, List.singleton_append]
        · rw [hk k hne, hpath, Events.path_setPath_ne _ _ hne]
          rfl
      · exact hno s

theorem State.admitPending_none {s : State} {f : Nat} (h : ∀ p, p ∈ s.events.pending → p.1 ≠ f) (n : Nat) : s.admitPending f n = s := by
  cases n with
  | zero => rfl
  | succ n =>
    unfold State.admitPending
    rw [List.find?_eq_none.mpr fun p hp => by simp [h p hp]]

/-- The head record of a function's queue is gone. -/
def State.headTaken (s : State) (fn : Nat) : State :=
  { s with events := s.events.setPath (1 + fn) { s.events.path (1 + fn) with recs := (s.events.path (1 + fn)).recs.drop 1 } }

theorem State.headTaken_spec (s : State) (fn : Nat) :
    ((s.headTaken fn).events.path (1 + fn)).recs = (s.events.path (1 + fn)).recs.drop 1 ∧
      (∀ k, k ≠ 1 + fn → (s.headTaken fn).events.path k = s.events.path k) ∧ Touches [.events] s (s.headTaken fn) :=
  ⟨congrArg EvPath.recs (Events.path_setPath_same ..), fun _ hk => Events.path_setPath_ne _ _ hk, Touches.of_withParts rfl⟩

theorem evqPop_spec (now : Nat) (fn : Func) (s : State) (hh : Hosted s fn.val) :
    (∃ t xs, exec (.evqPop now fn) s = .next t ∧
      (t.events.path (1 + fn.val)).recs = (s.events.path (1 + fn.val)).recs.drop 1 ++ xs ∧
      (∀ k, k ≠ 1 + fn.val → t.events.path k = s.events.path k) ∧
      t = { s.advance now with events := t.events, out := t.out, pba := t.pba }) ∧
    ((∀ p, p ∈ s.events.pending → p.1 ≠ fn.val) →
      ∃ t, exec (.evqPop now fn) s = .next t ∧
        (t.events.path (1 + fn.val)).recs = (s.events.path (1 + fn.val)).recs.drop 1 ∧
        (∀ k, k ≠ 1 + fn.val → t.events.path k = s.events.path k) ∧ t = { s.advance now with events := t.events }) := by
  have hrow : exec (.evqPop now fn) s = .next (((s.advance now).headTaken fn.val).admitPending fn.val 256) :=
    congrArg Host.Outcome.next (State.hosted_of (s.advance now) fn.val (fun t => t.popEvent fn.val) hh)
  obtain ⟨hhead, hother, htouch⟩ := (s.advance now).headTaken_spec fn.val
  refine ⟨?_, fun hp => ?_⟩
  · obtain ⟨xs, hx, hk, ht⟩ := ((s.advance now).headTaken fn.val).admitPending_spec fn.val 256
    refine ⟨_, xs, hrow, hx.trans (by rw [hhead]; rfl), fun k hne => (hk k hne).trans (hother k hne), ?_⟩
    exact (ht.after htouch.mono : Touches [.events, .out, .pba] (s.advance now) _).eq_withParts
  · rw [State.admitPending_none (s := (s.advance now).headTaken fn.val) hp] at hrow
    exact ⟨_, hrow, hhead, hother, htouch.eq_withParts⟩

theorem flushQueue_spec (now : Nat) (fn : Func) (s : State) :
    let p := s.events.path (1 + fn.val)
    (∀ r rest, p.table = r :: rest → queueRoom p.recs 1 = true →
      ∃ t, exec (.eventCoalescedFlush now (.queue fn)) s = .next t ∧
        t.events.path (1 + fn.val) = { recs := p.recs ++ [{ r with supp := true }], table := rest } ∧
        (∀ k, k ≠ 1 + fn.val → t.events.path k = s.events.path k) ∧
        t = { s.advance now with events := t.events, pba := t.pba, out := t.out }) ∧
    ((p.table = [] ∨ queueRoom p.recs 1 = false) →
      exec (.eventCoalescedFlush now (.queue fn)) s = .next (s.advance now)) := by
  intro p
  have hrow : exec (.eventCoalescedFlush now (.queue fn)) s = match p.table with
      | [] => .next (s.advance now)
      | r :: rest =>
        if queueRoom p.recs 1 then
          let t := { s.advance now with
            events := s.events.setPath (1 + fn.val) { recs := p.recs ++ [{ r with supp := true }], table := rest } }
          .next (if queueWakes p.recs 1 then t.msix fn.val 4 else t)
        else .next (s.advance now) := rfl
  refine ⟨fun r rest hp hroom => ?_, fun h => ?_⟩
  · simp -zeta only [hp, hroom, if_true] at hrow
    extract_lets u t at hrow
    have ht : Touches [.events] u t := Touches.of_withParts rfl
    have hpath : t.events.path (1 + fn.val) = { recs := p.recs ++ [{ r with supp := true }], table := rest } :=
      Events.path_setPath_same ..
    have hother : ∀ k, k ≠ 1 + fn.val → t.events.path k = s.events.path k := fun k hk => Events.path_setPath_ne _ _ hk
    clear_value t
    have hmsix : Touches [.pba, .out] t (if queueWakes p.recs 1 then t.msix fn.val 4 else t) :=
      Touches.ite _ (State.msix_touches ..) (Touches.refl _ _)
    have hev : (if queueWakes p.recs 1 then t.msix fn.val 4 else t).events = t.events := hmsix.same .events
    refine ⟨_, hrow, by rw [hev]; exact hpath, fun k hk => by rw [hev]; exact hother k hk, ?_⟩
    exact (hmsix.after ht.mono : Touches [.events, .pba, .out] u _).eq_withParts
  · rw [hrow]
    rcases h with h | h
    · rw [h]
    · split
      · rfl
      · rw [h]
        rfl

theorem Events.gathered_keeps (e : Events) (b : Bool) : (∀ k, (e.gathered b).path k = e.path k) ∧ (e.gathered b).bucket = e.bucket := by
  unfold Events.gathered
  split <;> exact ⟨fun _ => rfl, rfl⟩

/-- A record that enters the log leaves the other paths, the log's table and its bucket as they are. -/
theorem Events.ring_keeps (e : Events) (r : EventRec) :
    (∀ k, k ≠ 0 → (e.ring r).path k = e.path k) ∧ ((e.ring r).path 0).table = (e.path 0).table ∧ (e.ring r).bucket = e.bucket := by
  unfold Events.ring
  extract_lets p room put
  have hput (rs : List EventRec) (d : Events) (hd : ∀ k, d.path k = e.path k) (hb : d.bucket = e.bucket) :
      (∀ k, k ≠ 0 → (put rs d).path k = e.path k) ∧ ((put rs d).path 0).table = (e.path 0).table ∧ (put rs d).bucket = e.bucket := by
    obtain ⟨hpath, hbucket⟩ := (d.setPath 0 { p with recs := enter rs r }).gathered_keeps (r.cls == 0)
    refine ⟨fun k hk => ?_, ?_, hbucket.trans hb⟩
    · exact (hpath k).trans ((Events.path_setPath_ne _ _ hk).trans (hd k))
    · have hset : (d.setPath 0 { p with recs := enter rs r }).path 0 = { p with recs := enter rs r } := Events.path_setPath_same ..
      exact (congrArg EvPath.table ((hpath 0).trans hset)).trans rfl
  clear_value put
  split
  · exact hput _ e (fun _ => rfl) rfl
  split
  · exact hput _ e (fun _ => rfl) rfl
  split
  · exact hput _ e (fun _ => rfl) rfl
  split
  · exact hput _ _ (fun _ => rfl) rfl
  · exact ⟨fun _ _ => rfl, rfl, rfl⟩

/-- The log's path and bucket after a record of its table is taken. -/
def Events.logTaken (e : Events) (b a : Nat) (p : EvPath) : Events := ({ e with bucket := b, bucketAt := a } : Events).setPath 0 p

theorem Events.logTaken_spec (e : Events) (b a : Nat) (p : EvPath) :
    (e.logTaken b a p).path 0 = p ∧ (∀ k, k ≠ 0 → (e.logTaken b a p).path k = e.path k) ∧ (e.logTaken b a p).bucket = b :=
  ⟨Events.path_setPath_same .., fun _ hk => Events.path_setPath_ne _ _ hk, rfl⟩

theorem flushLog_spec (now : Nat) (s : State) :
    let p := s.events.path 0
    let level := min 4000000000 (s.events.bucket + (max s.time now - s.events.bucketAt))
    (∀ r rest, p.table = r :: rest → 62500000 ≤ level →
      ∃ t, exec (.eventCoalescedFlush now .log) s = .next t ∧ (t.events.path 0).table = rest ∧
        t.events.bucket = level - 62500000 ∧ (∀ k, k ≠ 0 → t.events.path k = s.events.path k) ∧
        t = { s.advance now with events := t.events }) ∧
    ((p.table = [] ∨ level < 62500000) → exec (.eventCoalescedFlush now .log) s = .next (s.advance now)) := by
  intro p level
  have hrow : exec (.eventCoalescedFlush now .log) s = match p.table with
      | [] => .next (s.advance now)
      | r :: rest =>
        if level < 62500000 then .next (s.advance now)
        else .next { s.advance now with
          events := (s.events.logTaken (level - 62500000) (max s.time now) { p with table := rest }).ring { r with supp := true } } := rfl
  refine ⟨fun r rest hp hl => ?_, fun h => ?_⟩
  · simp only [hp, if_neg (not_lt.mpr hl)] at hrow
    obtain ⟨h0, hother, hbucket⟩ := s.events.logTaken_spec (level - 62500000) (max s.time now) { p with table := rest }
    generalize s.events.logTaken (level - 62500000) (max s.time now) { p with table := rest } = e at *
    obtain ⟨hk, ht, hb⟩ := e.ring_keeps { r with supp := true }
    refine ⟨_, hrow, ht.trans ?_, hb.trans hbucket, fun k hne => (hk k hne).trans (hother k hne), rfl⟩
    rw [h0]
  · rw [hrow]
    rcases h with h | h
    · rw [h]
    · split
      · rfl
      · exact if_pos h

/-! ### The debug port (R418, R426) -/

theorem debugPort_closed (now : Nat) (a : DebugAccess) (s : State) (h : s.setting 1 = 0) :
    exec (.debugPortAccess now a) s = .next (s.advance now) := by
  have h' : (s.advance now).setting 1 = 0 := h
  cases a with
  | readReg off => exact congrArg Host.Outcome.next (if_pos h')
  | readMem off len => exact congrArg Host.Outcome.next (if_pos h')
  | writeReg off v => exact congrArg Host.Outcome.next (if_pos (h' ▸ by decide))
  | writeMem off data => exact congrArg Host.Outcome.next (if_pos (h' ▸ by decide))
  | settWrite off data => exact congrArg Host.Outcome.next (if_pos (h' ▸ by decide))

theorem debugPort_readOnly (now : Nat) (a : DebugAccess) (s : State) (h : s.setting 1 < 2)
    (ha : (∃ off v, a = .writeReg off v) ∨ (∃ off data, a = .writeMem off data) ∨ (∃ off data, a = .settWrite off data)) :
    exec (.debugPortAccess now a) s = .next (s.advance now) := by
  have h' : (s.advance now).setting 1 < 2 := h
  rcases ha with ⟨off, v, rfl⟩ | ⟨off, data, rfl⟩ | ⟨off, data, rfl⟩ <;> exact congrArg Host.Outcome.next (if_pos h')

theorem debugPort_readReg (now : Nat) (off : BitVec 26) (s : State) (r : Reg) (i : Nat) (hplain : plainOffset off.toNat = true)
    (hl : 1 ≤ s.setting 1) (hon : s.bar0On off.toNat = true) (hreg : regAt off.toNat = some (r, i)) (hr : r ≠ .OBS_TW_STAT)
    (hlow : lowRegs.contains r = false) :
    exec (.debugPortAccess now (.readReg off)) s = .next ((s.advance now).emit (.readWord
      (if smapGet 0 s.latches off.toNat = 0 then (s.advance now).readReg r i else smapGet 0 s.latches off.toNat - 1))) := by
  have hread := State.readAt_of_plain (s := s.advance now) hplain hon hreg hr 0x21
  rw [hlow, if_neg Bool.false_ne_true] at hread
  have hoff : off.toNat / 4 * 4 = off.toNat := by
    have := (plainOffset_iff.mp hplain).1
    omega
  have hrow : exec (.debugPortAccess now (.readReg off)) s =
      .next (if (s.advance now).setting 1 = 0 then s.advance now
        else ((s.advance now).readAt 0x21 (off.toNat / 4 * 4)).1.emit (.readWord ((s.advance now).readAt 0x21 (off.toNat / 4 * 4)).2)) := rfl
  rw [hrow, hoff, if_neg (by rw [show (s.advance now).setting 1 = s.setting 1 from rfl]; omega), hread]
  rfl

theorem debugPort_readMem (now : Nat) (off : BitVec 27) (len : Nat) (s : State) (hrange : bar2Range off.toNat len 4096 = true)
    (hl : 1 ≤ s.setting 1) (hon : s.rangeOn off.toNat len = true) (hclean : ∀ w, w ∈ wordsOf off.toNat len → s.syndrome w = 0) :
    exec (.debugPortAccess now (.readMem off len)) s = .next
      { s.advance now with out := .readBytes (s.bytes off.toNat len) false :: s.out } := by
  have hrow : exec (.debugPortAccess now (.readMem off len)) s =
      .next (if (s.advance now).setting 1 = 0 then s.advance now else (s.advance now).bar2Read 0x21 0 off.toNat len) := rfl
  have hon' : (s.advance now).rangeOn off.toNat len = true := hon
  have hclean' : ∀ w ∈ wordsOf off.toNat len, (s.advance now).syndrome w = 0 := hclean
  rw [hrow, if_neg (by rw [show (s.advance now).setting 1 = s.setting 1 from rfl]; omega)]
  unfold State.bar2Read
  rw [if_neg (bar2Range_fits hrange), if_neg (by simp [State.bar2May]), if_neg (by simp [hon']), State.readEcc_of_clean hclean',
    State.readsPoison_of_clean hclean']
  rfl

theorem debugPort_writeMem (now : Nat) (off : BitVec 27) (data : List Byte) (s : State) (hrange : bar2Range off.toNat data.length 512 = true)
    (hl : 2 ≤ s.setting 1) (hon : s.rangeOn off.toNat data.length = true)
    (hclean : ∀ w, w ∈ wordsOf off.toNat data.length → s.syndrome w = 0 ∧ guarded (8 * w) = false) :
    ∃ t, exec (.debugPortAccess now (.writeMem off data)) s = .next t ∧
      (∀ k, k < data.length → t.byte (off.toNat + k) = data.getD k 0) ∧
      KeepsBytes s t (fun a => decide (off.toNat ≤ a ∧ a < off.toNat + data.length)) := by
  obtain ⟨hflag, -, -, hbytes⟩ := State.writeMem_of_clean (s := s.advance now) hclean 0x21
  have hwrite : (s.advance now).bar2Write 0x21 0 off.toNat data false = ((s.advance now).writeMem 0x21 guarded off.toNat data).1 := by
    have hon' : (s.advance now).rangeOn off.toNat data.length = true := hon
    unfold State.bar2Write
    rw [if_neg (bar2Range_fits hrange), if_neg (by simp [State.bar2May]), if_neg (by simp [hon'])]
    simp only [Bool.false_eq_true, if_false, hflag]
    exact if_neg (by decide)
  have hrow : exec (.debugPortAccess now (.writeMem off data)) s =
      .next (if (s.advance now).setting 1 < 2 then s.advance now else (s.advance now).bar2Write 0x21 0 off.toNat data false) := rfl
  rw [if_neg (not_lt.mpr (show 2 ≤ (s.advance now).setting 1 from hl)), hwrite] at hrow
  refine ⟨_, hrow, fun k hk => ?_, fun j hj => ?_⟩
  · rw [hbytes, if_pos (by omega), Nat.add_sub_cancel_left]
  · rw [hbytes, if_neg (of_decide_eq_false hj)]
    rfl

theorem debugPort_settWrite (now : Nat) (off : BitVec 18) (b : Byte) (s : State) (hl : 2 ≤ s.setting 1)
    (hprot : s.getF .NVS_CTL_PROT 0 = 0) (hb : s.settBuf = none) (hlist : s.settList = []) :
    ∃ t p, exec (.debugPortAccess now (.settWrite off [b])) s = .next t ∧ t.settBuf = some p ∧ p.page = off.toNat / 64 ∧
      smapGet none p.bytes (off.toNat % 64) = some b ∧ t = { s.advance now with settBuf := t.settBuf } := by
  have hoff : off.toNat < 262144 := off.isLt
  have htake : [b].take (262144 - off.toNat) = [b] := List.take_of_length_le (by rw [List.length_singleton]; omega)
  have hwrite : (s.advance now).settWrite true off.toNat [b] = (s.advance now).settPut off.toNat b := by
    have hok : ((true || decide (196608 ≤ off.toNat + 0)) && !((s.advance now).settProtected ((off.toNat + 0) / 65536))) = true := by
      rw [State.settProtected_none (s := s.advance now) hprot, Bool.true_or]
      rfl
    unfold State.settWrite
    dsimp only
    rw [show [b].zipIdx = [(b, 0)] from rfl, List.foldl_cons, List.foldl_nil, if_pos hok, List.all_cons, hok]
    rfl
  have hrow : exec (.debugPortAccess now (.settWrite off [b])) s =
      .next (if (s.advance now).setting 1 < 2 then s.advance now
        else (s.advance now).settWrite true off.toNat ([b].take (262144 - off.toNat))) := rfl
  rw [if_neg (not_lt.mpr (show 2 ≤ (s.advance now).setting 1 from hl)), htake, hwrite, State.settPut_first (s := s.advance now) hb hlist] at hrow
  exact ⟨_, _, hrow, rfl, rfl, smapGet_set_same none [] (off.toNat % 64) (some b), rfl⟩

/-- Settles O60: the counter page, the trace drain, the event queues and the debug port. -/
theorem traceQueuesAndDebug : Obligations.TraceQueuesAndDebug := by
  unfold Obligations.TraceQueuesAndDebug
  refine ⟨⟨fun now tn s => tencLatch_spec now tn s, fun now s => ⟨traceEnable_on now s, fun hd en => ?_⟩, traceDrainBlock_spec⟩,
    ⟨evqPop_spec, flushQueue_spec, flushLog_spec⟩, debugPort_closed, debugPort_readOnly, debugPort_readReg, debugPort_readMem,
    debugPort_writeMem, debugPort_settWrite⟩
  rw [execTraceEnable_eq, if_neg (Bool.eq_false_iff.mp hd)]

end Sys2Proof.Machine
end

section
/-!
PROOF. Bear state, PREPARE, checkpoints and full service (R375 to R382, O53).
-/

set_option Elab.async false

namespace Sys2Proof.Machine
open Sys2Proof

/-! ### Bear state (R378, R379) -/

theorem anyLoaded_iff (s : State) : s.anyLoaded = true ↔ ∃ e, e ∈ s.parts ∧ e.2 ≠ none := by
  simp only [State.anyLoaded, List.any_eq_true, Option.isSome_iff_ne_none]

theorem anyLoaded_none {s : State} (h : ∀ e, e ∈ s.parts → e.2 = none) : s.anyLoaded = false :=
  Bool.eq_false_iff.mpr fun hc => by
    obtain ⟨e, he, hn⟩ := (anyLoaded_iff s).mp hc
    exact hn (h e he)

theorem execBear_eq (now : Nat) (s : State) :
    exec (.bear now) s = if s.shutDown then .next (s.advance now).pwrstRefused
      else if s.anyLoaded || s.ctxs.any (fun e => e.2.state != 0) then .next ((s.advance now).setF .GCTL_PWRST_RESULT 0 2)
      else if s.getF .GCTL_PWRST_STATE 0 != 0 then .next (s.advance now)
      else .next ((s.advance now).setF .GCTL_PWRST_STATE 0 1) := rfl

theorem bear_spec (now : Nat) (s : State) (hs : s.shutDown = false) :
    ((∀ e, e ∈ s.parts → e.2 = none) → (∀ e, e ∈ s.ctxs → e.2.state = 0) → s.getF .GCTL_PWRST_STATE 0 = 0 →
      exec (.bear now) s = .next ((s.advance now).setF .GCTL_PWRST_STATE 0 1)) ∧
    (((∃ e, e ∈ s.parts ∧ e.2 ≠ none) ∨ ∃ e, e ∈ s.ctxs ∧ e.2.state ≠ 0) →
      exec (.bear now) s = .next ((s.advance now).setF .GCTL_PWRST_RESULT 0 2)) := by
  have hctx : s.ctxs.any (fun e => e.2.state != 0) = true ↔ ∃ e, e ∈ s.ctxs ∧ e.2.state ≠ 0 := by
    simp only [List.any_eq_true, bne_iff_ne]
  rw [execBear_eq, hs, if_neg Bool.false_ne_true]
  refine ⟨fun hp hc h0 => ?_, fun h => if_pos ?_⟩
  · have hno : s.ctxs.any (fun e => e.2.state != 0) = false := Bool.eq_false_iff.mpr fun h => by
      obtain ⟨e, he, hn⟩ := hctx.mp h
      exact hn (hc e he)
    rw [anyLoaded_none hp, hno, h0]
    rfl
  · rw [Bool.or_eq_true, anyLoaded_iff, hctx]
    exact h

theorem State.wakeStart_state (s : State) : s.wakeStart.getF .GCTL_PWRST_STATE 0 = 3 ∧ s.wakeStart.wakeAsked = false := by
  unfold State.wakeStart
  extract_lets sh begun u v
  have hbegun : begun.getF .GCTL_PWRST_STATE 0 = 3 := s.getF_setF_same .GCTL_PWRST_STATE 0 3
  have hu : u.getF .GCTL_PWRST_STATE 0 = 3 ∧ u.wakeAsked = false := ⟨hbegun, rfl⟩
  have hv : Within State.dieUpWrites u v :=
    Within.foldl _ (fun _ _ => Within.ite _ (Within.refl _ _) (State.dieUp_within ..)) _ _
  clear_value u v
  have hw := v.startCalibration_within false
  exact ⟨(hw.getF _ _).trans ((hv.getF _ _).trans hu.1),
    (show (v.startCalibration false).wakeAsked = v.wakeAsked from hw.touch.same .wakeAsked).trans ((show v.wakeAsked = u.wakeAsked from hv.touch.same .wakeAsked).trans hu.2)⟩

theorem State.dieOn_setDie (s : State) {b : Nat} (hb : b < 6) : (s.setDie b true).dieOn b = true ∧
    ∀ c, s.dieOn c = true → c < 6 → (s.setDie b true).dieOn c = true := by
  have hget : (s.setDie b true).getF .PWR_DIEDOM_ON 0 = (s.getF .PWR_DIEDOM_ON 0 ||| 2 ^ b) % 2 ^ 6 :=
    s.getF_setF_same .PWR_DIEDOM_ON 0 (s.getF .PWR_DIEDOM_ON 0 ||| 2 ^ b)
  unfold State.dieOn
  simp only [hget, Nat.testBit_mod_two_pow, Nat.testBit_or, Nat.testBit_two_pow_self, Bool.or_true, Bool.and_true, decide_eq_true_eq]
  refine ⟨hb, fun c hc h6 => ?_⟩
  rw [hc, Bool.true_or, Bool.and_true, decide_eq_true_eq]
  exact h6

/-- The gate and the loader come on in a wake. -/
theorem State.dieUp_of_two_three {b : Nat} (h : b = 2 ∨ b = 3) (s : State) : s.dieUp b = s.setDie b true := by
  obtain rfl | rfl := h <;> rfl

theorem State.wakeStart_dies (s : State) : s.wakeStart.dieOn 2 = true ∧ s.wakeStart.dieOn 3 = true := by
  unfold State.wakeStart
  extract_lets sh begun u v
  have hup (t : State) {b : Nat} (hb : b = 2 ∨ b = 3) : (if t.dieOn b then t else t.dieUp b).dieOn b = true ∧
      ∀ c, t.dieOn c = true → c < 6 → (if t.dieOn b then t else t.dieUp b).dieOn c = true := by
    split
    next h => exact ⟨h, fun _ hc _ => hc⟩
    next h =>
      rw [State.dieUp_of_two_three hb]
      exact t.dieOn_setDie (by omega)
  have hv : v.dieOn 2 = true ∧ v.dieOn 3 = true :=
    ⟨(hup _ (.inr rfl)).2 2 (hup u (.inl rfl)).1 (by decide), (hup _ (.inr rfl)).1⟩
  have hw := (v.startCalibration_within false).getF .PWR_DIEDOM_ON 0
  unfold State.dieOn at hv ⊢
  rw [hw]
  exact hv

theorem bearEntryDone_spec (now : Nat) (s : State) (h : s.getF .GCTL_PWRST_STATE 0 = 1) :
    ∃ t, exec (.bearEntryDone now) s = .next t ∧ (s.wakeAsked = false → t.getF .GCTL_PWRST_STATE 0 = 2) ∧
      (s.wakeAsked = true → t.getF .GCTL_PWRST_STATE 0 = 3 ∧ t.wakeAsked = false) ∧ t.getF .GCTL_PWRST_RESULT 0 = 1 ∧
      (∀ c, c < 16 → t.sharedOn c = false) ∧ t.cells = s.cells ∧ t.trims = s.trims := by
  rw [show exec (.bearEntryDone now) s = execBearEntryDone now s from rfl]
  unfold execBearEntryDone
  extract_lets u stopped v w told x
  rw [show u.getF .GCTL_PWRST_STATE 0 = 1 from h]
  refine ⟨if x.wakeAsked then x.wakeStart else x, rfl, ?_⟩
  have hstopped : Within ⟨[.tokenHeld, .tokenWait, .beavers], []⟩ u stopped := by
    refine Within.foldl _ (fun t b => ?_) _ _
    split
    · exact Within.ite _ (State.beaverStop_within ..) (Within.refl _ _)
    · exact Within.refl _ _
  have hv : Within State.clusterOffWrites stopped v := Within.foldl _ State.clusterOff_within _ _
  have hoff (c : Nat) (hc : c < 16) : v.sharedOn c = false := stopped.clustersOff_off hc
  have hw : Within State.dieOffWrites v w :=
    Within.foldl _ (fun _ _ => Within.ite _ (State.dieOff_within ..) (Within.refl _ _)) _ _
  clear_value stopped v w
  have htold : Within ⟨[.regs], [.GCTL_PWRST_STATE, .GCTL_PWRST_RESULT]⟩ w told := (State.setF_within ..).after ((State.setF_within ..).mono)
  have hstate : told.getF .GCTL_PWRST_STATE 0 = 2 := (State.getF_setF_ne _ _ (by decide)).trans (w.getF_setF_same .GCTL_PWRST_STATE 0 2)
  have hres : told.getF .GCTL_PWRST_RESULT 0 = 1 := (w.setF .GCTL_PWRST_STATE 0 2).getF_setF_same .GCTL_PWRST_RESULT 0 1
  clear_value told
  have hx : Touches [.bearAt] told x := Touches.of_withParts rfl
  clear_value x
  have hasked : x.wakeAsked = s.wakeAsked := (show x.wakeAsked = told.wakeAsked from hx.same .wakeAsked).trans
    ((show told.wakeAsked = w.wakeAsked from htold.touch.same .wakeAsked).trans ((show w.wakeAsked = v.wakeAsked from
      hw.touch.same .wakeAsked).trans ((show v.wakeAsked = stopped.wakeAsked from hv.touch.same .wakeAsked).trans
        (hstopped.touch.same .wakeAsked))))
  have hend : Within State.wakeStartWrites x (if x.wakeAsked then x.wakeStart else x) :=
    Within.ite _ (State.wakeStart_within x) (Within.refl _ _)
  have hall : Touches (State.wakeStartWrites.parts ++ .bearAt :: State.dieOffWrites.parts ++ State.clusterOffWrites.parts ++
      [.tokenHeld, .tokenWait, .beavers]) u (if x.wakeAsked then x.wakeStart else x) :=
    hend.touch.after (hx.after (htold.touch.after (hw.touch.after (hv.touch.after hstopped.touch.mono))))
  refine ⟨fun hk => ?_, fun hk => ?_, ?_, fun c hc => ?_, hall.same .cells, hall.same .trims⟩
  · rw [if_neg (Bool.eq_false_iff.mp (hasked.trans hk))]
    exact (hx.getF _ _).trans hstate
  · rw [if_pos (hasked.trans hk)]
    exact x.wakeStart_state
  · exact (hend.getF _ _).trans ((hx.getF _ _).trans hres)
  · exact (hend.bit .CPT_DOM_SHARED c).trans ((hx.bit _ _).trans ((htold.bit _ _).trans ((hw.bit _ _).trans (hoff c hc))))

theorem wake_spec (now : Nat) (s : State) (hs : s.shutDown = false) :
    (s.getF .GCTL_PWRST_STATE 0 = 2 → ∃ t, exec (.wake now) s = .next t ∧ t.getF .GCTL_PWRST_STATE 0 = 3 ∧
      t.dieOn 2 = true ∧ t.dieOn 3 = true ∧ t.wakeAsked = false ∧ t.cells = s.cells ∧ KeepsBytes s t nowhere) ∧
    (s.getF .GCTL_PWRST_STATE 0 = 1 → exec (.wake now) s = .next { s.advance now with wakeAsked := true }) ∧
    (s.getF .GCTL_PWRST_STATE 0 ≠ 1 → s.getF .GCTL_PWRST_STATE 0 ≠ 2 → exec (.wake now) s = .next (s.advance now)) := by
  have hrow : exec (.wake now) s = if s.shutDown then .next (s.advance now).pwrstRefused
      else if s.getF .GCTL_PWRST_STATE 0 = 2 then .next (s.advance now).wakeStart
      else if s.getF .GCTL_PWRST_STATE 0 = 1 then .next { s.advance now with wakeAsked := true }
      else .next (s.advance now) := rfl
  rw [hrow, hs, if_neg Bool.false_ne_true]
  refine ⟨fun h2 => ⟨_, if_pos h2, ?_⟩, fun h1 => ?_, fun h1 h2 => by rw [if_neg h2, if_neg h1]⟩
  · obtain ⟨hstate, hasked⟩ := (s.advance now).wakeStart_state
    obtain ⟨hgate, hloader⟩ := (s.advance now).wakeStart_dies
    have hw := (s.advance now).wakeStart_within.touch
    exact ⟨hstate, hgate, hloader, hasked, hw.same .cells, hw.bytes _⟩
  · rw [if_neg (by omega), if_pos h1]

theorem wakeDone_spec (now : Nat) (s : State) :
    (s.getF .GCTL_PWRST_STATE 0 = 3 → (∀ c p, c < 16 → p ∈ s.passQ c → p.full = true ∨ p.engines = []) →
      exec (.wakeDone now) s = .next ((s.advance now).setF .GCTL_PWRST_STATE 0 0)) ∧
    ((s.getF .GCTL_PWRST_STATE 0 ≠ 3 ∨ ∃ c p, c < 16 ∧ p ∈ s.passQ c ∧ p.full = false ∧ p.engines ≠ []) →
      exec (.wakeDone now) s = .next (s.advance now)) := by
  have hrow : exec (.wakeDone now) s = if s.getF .GCTL_PWRST_STATE 0 != 3 ||
      (List.range 16).any (fun c => (s.passQ c).any (fun p => !p.full && !p.engines.isEmpty)) then .next (s.advance now)
      else .next ((s.advance now).setF .GCTL_PWRST_STATE 0 0) := rfl
  have hguard : (s.getF .GCTL_PWRST_STATE 0 != 3 || (List.range 16).any (fun c => (s.passQ c).any (fun p => !p.full && !p.engines.isEmpty)))
      = true ↔ (s.getF .GCTL_PWRST_STATE 0 ≠ 3 ∨ ∃ c p, c < 16 ∧ p ∈ s.passQ c ∧ p.full = false ∧ p.engines ≠ []) := by
    simp only [Bool.or_eq_true, bne_iff_ne, List.any_eq_true, List.mem_range, Bool.and_eq_true, Bool.not_eq_true',
      List.isEmpty_eq_false_iff, exists_and_left]
  refine ⟨fun h3 hp => hrow.trans (if_neg fun hc => ?_), fun h => hrow.trans (if_pos (hguard.mpr h))⟩
  rcases hguard.mp hc with h | ⟨c, p, hc16, hm, hf, hn⟩
  · exact h h3
  · rcases hp c p hc16 hm with h | h
    · exact Bool.noConfusion (hf.symm.trans h)
    · exact hn h

/-! ### PREPARE and checkpoints (R381, R382) -/

theorem execPrepare_eq (now rtc : Nat) (ok : Bool) (s : State) :
    exec (.prepare now rtc ok) s = if s.shutDown then .next (s.advance now).pwrstRefused
      else if s.anyLoaded then .next ((s.advance now).setF .GCTL_PWRST_RESULT 0 2)
      else if !ok then .next ((s.advance now).setF .GCTL_PWRST_RESULT 0 3)
      else .next { ((s.advance now).setF .GCTL_PWRST_CLEAN 0 1).setF .GCTL_PWRST_RESULT 0 1 with
        shutRec := some ((s.advance now).shutRecord rtc), calRec := some ((s.advance now).shutRecord rtc).calver } := rfl

theorem refused_in_shutdown (now rtc : Nat) (s : State) (c : Instr) (h : s.shutDown = true)
    (hc : c = .bear now ∨ c = .wake now ∨ ∃ ok, c = .prepare now rtc ok) :
    exec c s = .next ((s.advance now).setF .GCTL_PWRST_RESULT 0 (Config.freeNat s.fresh % 4)).burn := by
  rcases hc with rfl | rfl | ⟨ok, rfl⟩
  · exact (execBear_eq now s).trans (if_pos h)
  · exact if_pos h
  · exact (execPrepare_eq now rtc ok s).trans (if_pos h)

theorem prepare_spec (now rtc : Nat) (s : State) (hs : s.shutDown = false) (hp : ∀ e, e ∈ s.parts → e.2 = none) :
    (∃ t r, exec (.prepare now rtc true) s = .next t ∧ t.shutRec = some r ∧ r.clean = true ∧ r.rtc = rtc ∧
      r.trims = s.trims ∧ t.getF .GCTL_PWRST_CLEAN 0 = 1 ∧ t.getF .GCTL_PWRST_RESULT 0 = 1 ∧
      KeepsRegs s t (fun f i => (f == .GCTL_PWRST_CLEAN || f == .GCTL_PWRST_RESULT) && i == 0) ∧
      t = { s.advance now with regs := t.regs, shutRec := t.shutRec, calRec := t.calRec }) ∧
    exec (.prepare now rtc false) s = .next ((s.advance now).setF .GCTL_PWRST_RESULT 0 3) := by
  have hrow (ok : Bool) := execPrepare_eq now rtc ok s
  rw [hs, anyLoaded_none hp] at hrow
  simp only [Bool.false_eq_true, if_false] at hrow
  refine ⟨?_, hrow false⟩
  let w := ((s.advance now).setF .GCTL_PWRST_CLEAN 0 1).setF .GCTL_PWRST_RESULT 0 1
  have hclean : w.getF .GCTL_PWRST_CLEAN 0 = 1 :=
    (State.getF_setF_ne _ _ (by decide)).trans ((s.advance now).getF_setF_same .GCTL_PWRST_CLEAN 0 1)
  have hres : w.getF .GCTL_PWRST_RESULT 0 = 1 := ((s.advance now).setF .GCTL_PWRST_CLEAN 0 1).getF_setF_same .GCTL_PWRST_RESULT 0 1
  have hregs : KeepsRegs s w (fun f i => (f == .GCTL_PWRST_CLEAN || f == .GCTL_PWRST_RESULT) && i == 0) :=
    ((KeepsRegs.refl s _).setF (s := s) (t := s.advance now) rfl _).setF rfl _
  exact ⟨_, (s.advance now).shutRecord rtc, hrow true, rfl, rfl, rfl, rfl, hclean, hres, hregs.congr rfl, rfl⟩

theorem prepare_loaded (now rtc : Nat) (ok : Bool) (s : State) (hs : s.shutDown = false) (hp : ∃ e, e ∈ s.parts ∧ e.2 ≠ none) :
    exec (.prepare now rtc ok) s = .next ((s.advance now).setF .GCTL_PWRST_RESULT 0 2) := by
  rw [execPrepare_eq, hs, if_neg Bool.false_ne_true, if_pos ((anyLoaded_iff s).mpr hp)]

theorem checkpointCommit_spec (now : Nat) (s : State) :
    ∃ t, exec (.checkpointCommit now) s = .next t ∧ (∀ f, (t.fnst f).held = (s.fnst f).entries.length) ∧
      (∀ f, (t.fnst f).entries = (s.fnst f).entries) ∧
      t.getF .GCTL_CKPT_CN 0 = (s.getF .GCTL_CKPT_CN 0 + 1) % 4294967296 ∧
      KeepsRegs s t (fun f i => f == .GCTL_CKPT_CN && i == 0) ∧
      t = { s.advance now with regs := t.regs, fns := t.fns, loading := [] } := by
  let u : State := { s.advance now with fns := s.fns.map (fun e => (e.1, { e.2 with held := e.2.entries.length })), loading := [] }
  have hu (f : Nat) : (u.fnst f).held = (s.fnst f).entries.length ∧ (u.fnst f).entries = (s.fnst f).entries :=
    smapGet_map_rel (d := Function.reset) (R := fun x y : Function => y.held = x.entries.length ∧ y.entries = x.entries) ⟨rfl, rfl⟩
      (f := fun e => (e.1, { e.2 with held := e.2.entries.length })) (fun _ => ⟨rfl, rfl, rfl⟩) s.fns f
  have hget : (u.addWrap .GCTL_CKPT_CN 0 1).getF .GCTL_CKPT_CN 0 = (s.getF .GCTL_CKPT_CN 0 + 1) % 4294967296 := by
    refine (u.getF_setF_same .GCTL_CKPT_CN 0 _).trans ?_
    rfl
  exact ⟨u.addWrap .GCTL_CKPT_CN 0 1, rfl, fun f => (hu f).1, fun f => (hu f).2, hget,
    (KeepsRegs.refl s _).setF (s := s) (t := u) rfl _, rfl⟩

/-! ### Full service (R375) -/

/-- Whether a read-back or a calibration of a cluster is still owed to the start. -/
def State.startOwes (s : State) (c : Nat) : Bool :=
  s.shards.any (fun e => e.2.state == 2 && e.2.cluster == c && e.2.owed &&
    (s.getF .GCTL_START_KIND 0 == 0 || (s.spotDue && e.1 % 64 == s.spot)))

theorem execClusterFullService_eq (now : Nat) (cl : Cluster) (s : State) :
    let u := (s.advance now).spotSettle
    let v := u.setF .GCTL_START_FULL 0 (withBit (u.getF .GCTL_START_FULL 0) cl.val true)
    exec (.clusterFullService now cl) s =
      if u.getF .GCTL_START_STEP 0 != 6 || u.deadCls.contains cl.val || (u.getF .GCTL_START_FULL 0).testBit cl.val ||
        u.startOwes cl.val || (u.passQ cl.val).any (fun p => !p.engines.isEmpty) then .next u
      else .next (if v.getF .GCTL_START_FULL 0 = 0xFFFF then v.setF .GCTL_START_STEP 0 10 else v) := rfl

theorem clusterFullService_other (now : Nat) (cl : Cluster) (s : State)
    (h : s.getF .GCTL_START_STEP 0 ≠ 6 ∨ cl.val ∈ s.deadCls ∨ ∃ p, p ∈ s.passQ cl.val ∧ p.engines ≠ []) :
    exec (.clusterFullService now cl) s = .next (s.advance now).spotSettle := by
  have hu := (s.advance now).spotSettle_within
  refine (execClusterFullService_eq now cl s).trans (if_pos ?_)
  rw [hu.getF .GCTL_START_STEP 0, hu.touch.passQ, show ((s.advance now).spotSettle).deadCls = s.deadCls from hu.touch.same .deadCls]
  simp only [Bool.or_eq_true, bne_iff_ne, List.contains_iff_mem, List.any_eq_true, Bool.not_eq_true', List.isEmpty_eq_false_iff]
  rcases h with h | h | h
  · exact .inl (.inl (.inl (.inl h)))
  · exact .inl (.inl (.inl (.inr h)))
  · exact .inr h

theorem clusterFullService_spec (now : Nat) (cl : Cluster) (s : State) (hstep : s.getF .GCTL_START_STEP 0 = 6) (hdead : cl.val ∉ s.deadCls)
    (howed : ∀ e, e ∈ s.shards → e.2.state = 2 → e.2.cluster = cl.val → e.2.owed = false)
    (hpass : ∀ p, p ∈ s.passQ cl.val → p.engines = []) (hfull : (s.getF .GCTL_START_FULL 0).testBit cl.val = false) :
    ∃ t, exec (.clusterFullService now cl) s = .next t ∧ (t.getF .GCTL_START_FULL 0).testBit cl.val = true ∧
      (t.getF .GCTL_START_FULL 0 = 0xFFFF → t.getF .GCTL_START_STEP 0 = 10) ∧
      (t.getF .GCTL_START_FULL 0 ≠ 0xFFFF → t.getF .GCTL_START_STEP 0 = 6) ∧
      KeepsRegs s t (fun f i => (f == .GCTL_START_FULL || f == .GCTL_START_STEP) && i == 0) ∧
      t = { s.advance now with regs := t.regs, spot := t.spot, spotDue := t.spotDue } := by
  have hu := (s.advance now).spotSettle_within
  have hrow := execClusterFullService_eq now cl s
  extract_lets u v at hrow
  have hguard : (u.getF .GCTL_START_STEP 0 != 6 || u.deadCls.contains cl.val || (u.getF .GCTL_START_FULL 0).testBit cl.val ||
      u.startOwes cl.val || (u.passQ cl.val).any (fun p => !p.engines.isEmpty)) = false := by
    have hshards : u.shards = s.shards := hu.touch.same .shards
    have h1 : (u.getF .GCTL_START_STEP 0 != 6) = false := by rw [hu.getF .GCTL_START_STEP 0]; exact bne_eq_false_iff_eq.mpr hstep
    have h2 : u.deadCls.contains cl.val = false := by
      rw [show u.deadCls = s.deadCls from hu.touch.same .deadCls, List.contains_eq_mem]
      exact decide_eq_false hdead
    have h3 : (u.getF .GCTL_START_FULL 0).testBit cl.val = false := by rw [hu.getF .GCTL_START_FULL 0]; exact hfull
    have h4 : u.startOwes cl.val = false := by
      unfold State.startOwes
      rw [hshards, List.any_eq_false]
      intro e he hc
      simp only [Bool.and_eq_true, beq_iff_eq] at hc
      obtain ⟨⟨⟨hs, hcl⟩, ho⟩, -⟩ := hc
      exact Bool.noConfusion ((howed e he hs hcl).symm.trans ho)
    have h5 : (u.passQ cl.val).any (fun p => !p.engines.isEmpty) = false := by
      rw [hu.touch.passQ, List.any_eq_false]
      intro p hp
      simp [hpass p hp]
    rw [h1, h2, h3, h4, h5]
    rfl
  rw [hguard, if_neg Bool.false_ne_true] at hrow
  have hv : (v.getF .GCTL_START_FULL 0).testBit cl.val = true ∧ v.getF .GCTL_START_STEP 0 = 6 := by
    refine ⟨?_, (State.getF_setF_ne _ _ (by decide)).trans ((hu.getF _ _).trans hstep)⟩
    rw [show v.getF .GCTL_START_FULL 0 = (withBit (u.getF .GCTL_START_FULL 0) cl.val true) % 2 ^ 16 from
      u.getF_setF_same .GCTL_START_FULL 0 _, Nat.testBit_mod_two_pow, testBit_withBit_same, Bool.and_true]
    exact decide_eq_true cl.isLt
  have hvregs : KeepsRegs s v (fun f i => (f == .GCTL_START_FULL || f == .GCTL_START_STEP) && i == 0) := by
    have hus : KeepsRegs s u (fun f i => (f == .GCTL_START_FULL || f == .GCTL_START_STEP) && i == 0) := hu.touch.regs _
    exact hus.setF rfl _
  have hvt : Touches [.regs, .spot, .spotDue] (s.advance now) v := (State.setF_touches u ..).after hu.touch.mono
  clear_value v
  by_cases hall : v.getF .GCTL_START_FULL 0 = 0xFFFF
  · rw [if_pos hall] at hrow
    have hfullkept : (v.setF .GCTL_START_STEP 0 10).getF .GCTL_START_FULL 0 = v.getF .GCTL_START_FULL 0 :=
      State.getF_setF_ne _ _ (by decide)
    refine ⟨_, hrow, hfullkept ▸ hv.1, fun _ => v.getF_setF_same .GCTL_START_STEP 0 10, fun h => absurd (hfullkept.trans hall) h,
      hvregs.setF rfl _, ?_⟩
    exact ((State.setF_touches v ..).after hvt).eq_withParts
  · rw [if_neg hall] at hrow
    exact ⟨v, hrow, hv.1, fun h => absurd h hall, fun _ => hv.2, hvregs, hvt.eq_withParts⟩

/-- Settles O53: the Bear state and its wake, PREPARE and checkpoints, and the clusters' full service. -/
theorem bearAndService : Obligations.BearAndService := by
  unfold Obligations.BearAndService
  refine ⟨⟨bear_spec, fun now s => ⟨bearEntryDone_spec now s, fun h => if_pos (bne_iff_ne.mpr h)⟩, wake_spec, wakeDone_spec⟩,
    refused_in_shutdown, prepare_spec, prepare_loaded, checkpointCommit_spec, fun now cl s => ?_⟩
  exact ⟨clusterFullService_spec now cl s, clusterFullService_other now cl s⟩

end Sys2Proof.Machine
end

section
/-!
PROOF. Power-on, loss of power and die resets (R370 to R377, R380, O52).
-/

set_option Elab.async false

namespace Sys2Proof.Machine
open Sys2Proof

/-! ### What a loss of power and a die reset leave (R377, R412, R421) -/

theorem getF_keepRegs {s t : State} {p : Fld → Bool} (h : t.regs = s.keepRegs p) (f : Fld) (i : Nat) :
    t.getF f i = s.getF f i ∨ t.getF f i = f.info.rst := by
  unfold State.getF
  rw [h]
  have hread := smapGet_filter_key f.info.rst s.regs
    (fun k => (((pfRegs.flatMap Reg.fields).filter p).map Fld.code).contains (keyCode k)) (fkey f i)
  unfold State.keepRegs
  split at hread
  · exact .inl hread
  · exact .inr hread

theorem State.burnsCut_idle {s : State} (h : s.fwTarget = none) : Touches [.lc, .lcBusy] s s.burnsCut := by
  unfold State.burnsCut
  extract_lets u
  have hu : Touches [.lc, .lcBusy] s u := by
    unfold u
    split
    · exact Touches.of_withParts rfl
    · exact Touches.refl _ _
  have hf : u.fwTarget = none := (show u.fwTarget = s.fwTarget from hu.same .fwTarget).trans h
  simp only [hf]
  exact hu

theorem State.commitCut_idle {s : State} (h : s.events.commit ≠ some true ∨ s.settQueue = []) : s.commitCut = s := by
  unfold State.commitCut
  split
  next hc hq =>
    rcases h with h | h
    · exact absurd hc h
    · rw [h] at hq
      cases hq
  next => rfl

/-- The state whose burns and commit are cut short. -/
def State.cutShort (s : State) : State := s.burnsCut.commitCut

theorem State.cutShort_within (s : State) :
    Within ⟨.settMem :: State.burnsCutWrites.parts, State.burnsCutWrites.flds⟩ s s.cutShort :=
  (State.commitCut_within _).after ((State.burnsCut_within s).mono)

theorem State.cutShort_fwarb {s : State} (h : s.fwTarget = none) (i : Nat) :
    s.cutShort.getF .NVS_FWARB_COUNT i = s.getF .NVS_FWARB_COUNT i :=
  ((State.commitCut_within _).getF _ _).trans ((State.burnsCut_idle h).getF _ _)

theorem State.cutShort_settMem {s : State} (h : s.events.commit ≠ some true ∨ s.settQueue = []) :
    s.cutShort.settMem = s.settMem := by
  have hb := (State.burnsCut_within s).touch
  unfold State.cutShort
  rw [State.commitCut_idle (by
    rw [show s.burnsCut.events = s.events from hb.same .events, show s.burnsCut.settQueue = s.settQueue from hb.same .settQueue]
    exact h)]
  exact hb.same .settMem

/-- What the power that is lost takes from a state and what it leaves. -/
structure PowerLost (s t : State) : Prop where
  parts : t.parts = []
  stations : t.stations = []
  ctxs : t.ctxs = []
  sram : t.sram = []
  image : t.image = none
  cells : t.cells = s.cells
  modelKeys : t.modelKeys = s.modelKeys
  signKeys : t.signKeys = s.signKeys
  shutRec : t.shutRec = s.shutRec
  calRec : t.calRec = s.calRec
  norA : t.norA = s.norA
  norB : t.norB = s.norB
  pending : t.pending = s.pending
  time : t.time = s.time
  fwarb : s.fwTarget = none → ∀ n, s.getF .NVS_FWARB_COUNT 0 ≤ n → t.getF .NVS_FWARB_COUNT 0 ≤ n

theorem State.powerOff_lost (s : State) : PowerLost s s.powerOff := by
  have h := s.cutShort_within.touch
  refine ⟨rfl, rfl, rfl, rfl, rfl, h.same .cells, h.same .modelKeys, h.same .signKeys, h.same .shutRec, h.same .calRec,
    h.same .norA, h.same .norB, h.same .pending, h.same .time, fun hf n hn => ?_⟩
  rcases getF_keepRegs (s := s.cutShort) (t := s.powerOff) (p := Fld.inSett) rfl .NVS_FWARB_COUNT 0 with hr | hr
  · rw [hr, State.cutShort_fwarb hf]
    exact hn
  · exact hr.trans_le (Nat.zero_le n)

theorem State.powerOff_settMem (s : State) : s.powerOff.settMem = s.cutShort.settMem := rfl

/-- What a die reset keeps beside that: the device time and the trims. -/
theorem State.dieCleared_lost (s : State) : PowerLost s s.dieCleared ∧ s.dieCleared.base = s.base ∧ s.dieCleared.trims = s.trims := by
  have h := s.cutShort_within.touch
  have hc := s.cutShort.powerOff_lost
  refine ⟨⟨rfl, rfl, rfl, rfl, rfl, hc.cells.trans (h.same .cells), hc.modelKeys.trans (h.same .modelKeys),
    hc.signKeys.trans (h.same .signKeys), hc.shutRec.trans (h.same .shutRec), hc.calRec.trans (h.same .calRec),
    hc.norA.trans (h.same .norA), hc.norB.trans (h.same .norB), hc.pending.trans (h.same .pending), hc.time.trans (h.same .time),
    fun hf n hn => ?_⟩, h.same .base, h.same .trims⟩
  rcases getF_keepRegs (s := s.cutShort) (t := s.dieCleared) (p := fun f => f.inSett || f.inAon) rfl .NVS_FWARB_COUNT 0 with hr | hr
  · rw [hr, State.cutShort_fwarb hf]
    exact hn
  · exact hr.trans_le (Nat.zero_le n)

/-! ### The start (R370 to R374, R380) -/

theorem State.bootSlot_none {s : State} (ha : s.norA = none) (hb : s.norB = none) : s.bootSlot = none := by
  unfold State.bootSlot
  rw [ha, hb]
  rfl

/-- An image that the ROM accepts in slot A, and none in B, is started from A. -/
theorem State.bootSlot_A {s : State} {i : Image} (ha : s.norA = some i) (hb : s.norB = none) (hi : i.authentic = true)
    (hv : s.getF .NVS_FWARB_COUNT 0 ≤ i.secver) : s.bootSlot = some false := by
  have hacc : s.accepts (some i) = true := by
    unfold State.accepts
    rw [Bool.and_eq_true, decide_eq_true_eq]
    exact ⟨hi, hv⟩
  unfold State.bootSlot
  rw [ha, hb]
  have hlt : ¬ imageVersion (some i) < imageVersion none := Nat.not_lt_zero _
  simp only [hlt, if_false, List.find?_cons, Bool.false_eq_true, hacc]

theorem State.runStart_spec (s : State) {kind cause : Nat} (hk : kind < 4) (hc : cause < 8) (slot : Bool) :
    (s.runStart kind cause slot).getF .GCTL_START_STEP 0 = 6 ∧ (s.runStart kind cause slot).getF .GCTL_MGR_STANDBY 0 = 1 ∧
      (s.runStart kind cause slot).getF .GCTL_START_SLOT 0 = slot.toNat ∧
      (s.runStart kind cause slot).getF .GCTL_START_KIND 0 = kind ∧ (s.runStart kind cause slot).getF .GCTL_START_CAUSE 0 = cause := by
  unfold State.runStart
  extract_lets r u v w x y
  have hv : v.getF .GCTL_START_KIND 0 = kind ∧ v.getF .GCTL_START_CAUSE 0 = cause := by
    refine ⟨(State.getF_setF_ne _ _ (by decide)).trans ((State.getF_setF_ne _ _ (by decide)).trans ?_),
      (State.getF_setF_ne _ _ (by decide)).trans ?_⟩
    · exact (State.getF_setF_same ..).trans (Nat.mod_eq_of_lt hk)
    · exact (State.getF_setF_same ..).trans (Nat.mod_eq_of_lt hc)
  have hslot : (v.setB .GCTL_START_SLOT 0 slot).getF .GCTL_START_SLOT 0 = slot.toNat :=
    (v.getF_setF_same .GCTL_START_SLOT 0 slot.toNat).trans (by cases slot <;> rfl)
  have hset : Within ⟨[.regs], [.GCTL_START_SLOT]⟩ v (v.setB .GCTL_START_SLOT 0 slot) := State.setB_within ..
  have hw : Within State.startSensorsWrites (v.setB .GCTL_START_SLOT 0 slot) w := State.startSensors_within _
  have hx : x.getF .GCTL_START_STEP 0 = 6 ∧ x.getF .GCTL_MGR_STANDBY 0 = 1 :=
    ⟨(State.getF_setF_ne _ _ (by decide)).trans (w.getF_setF_same .GCTL_START_STEP 0 6), State.getF_setF_same ..⟩
  have hwx : Within ⟨[.regs], [.GCTL_START_STEP, .GCTL_MGR_STANDBY]⟩ w x := (State.setF_within ..).after ((State.setF_within ..).mono)
  have hy : Within State.dieUpWrites x y :=
    Within.foldl _ (fun _ _ => Within.ite _ (State.dieUp_within ..) (Within.refl _ _)) _ _
  clear_value v w x y
  have hend : Within ⟨State.startCalibrationWrites.parts ++ State.startReadbackWrites.parts ++ State.dieUpWrites.parts,
      State.startCalibrationWrites.flds ++ State.dieUpWrites.flds⟩ x ((y.startCalibration (kind == 0)).startReadback (kind != 0)) :=
    (State.startReadback_within ..).after ((State.startCalibration_within ..).after hy.mono)
  refine ⟨(hend.getF _ _).trans hx.1, (hend.getF _ _).trans hx.2, ?_, ?_, ?_⟩
  · exact (hend.getF _ _).trans ((hwx.getF _ _).trans ((hw.getF _ _).trans hslot))
  · exact (hend.getF _ _).trans ((hwx.getF _ _).trans ((hw.getF _ _).trans ((hset.getF _ _).trans hv.1)))
  · exact (hend.getF _ _).trans ((hwx.getF _ _).trans ((hw.getF _ _).trans ((hset.getF _ _).trans hv.2)))

theorem State.startFails_spec (s : State) :
    s.startFails.getF .GCTL_START_STEP 0 = 3 ∧ s.startFails.getF .GCTL_START_BOOTS 0 = 3 ∧ s.startFails.getF .GCTL_RESET_LAST 0 = 4 := by
  have h := State.dieUp_within (((s.setF .GCTL_START_BOOTS 0 3).setF .GCTL_START_STEP 0 3).setF .GCTL_RESET_LAST 0 4) 0
  refine ⟨(h.getF _ _).trans ?_, (h.getF _ _).trans ?_, (h.getF _ _).trans (State.getF_setF_same ..)⟩
  · exact (State.getF_setF_ne _ _ (by decide)).trans ((s.setF .GCTL_START_BOOTS 0 3).getF_setF_same .GCTL_START_STEP 0 3)
  · exact (State.getF_setF_ne _ _ (by decide)).trans ((State.getF_setF_ne _ _ (by decide)).trans (s.getF_setF_same .GCTL_START_BOOTS 0 3))

/-! ### POWER_ON (R370 to R373) -/

/-- What power-off leaves, at power-on, with the images found. -/
def State.repowered (s : State) (now : Nat) (found : PowerOnInputs) : State :=
  { s.powerOff with time := now, base := now, pllOff := some now, norA := found.imageA, norB := found.imageB }

/-- The state that the ROM finds after power-on: what power-off leaves, the images and regulator slots found, and one reading of
each sensor. -/
def State.powered (s : State) (now : Nat) (found : PowerOnInputs) : State :=
  (List.range 72).foldl (fun t n => t.setSensor n { Sensor.idle with last := [found.sensors.getD n 0] })
    ((s.repowered now found).loadSlots found.slots)

theorem State.powered_within (s : State) (now : Nat) (found : PowerOnInputs) :
    Within ⟨.sensors :: State.loadSlotsWrites.parts, State.loadSlotsWrites.flds⟩
      (s.repowered now found) (s.powered now found) :=
  Within.trans ((State.loadSlots_within ..).mono) (Within.foldl _ (fun _ _ => (State.setSensor_within ..).mono) _ _)

/-- The warm start or the cold one, with the cause that its checks give (R371, R372). -/
def State.coldOrWarm (w : State) (rtc : Option Nat) (d : Int) (slot : Bool) : State :=
  match w.coldCause rtc d, w.shutRec with
  | 0, some r => (w.restoreRecord r).runStart 1 0 slot
  | c, _ => w.runStart 0 c slot

/-- The state with the image that is started. -/
def State.booted (s : State) (slot : Bool) : State := { s with image := if slot then s.norB else s.norA }

theorem execPowerOn_eq (now : Nat) (found : PowerOnInputs) (s : State) :
    exec (.powerOn now found) s = match (s.powered now found).bootSlot with
      | none => .next (s.powered now found).startFails
      | some slot =>
        match ((s.powered now found).booted slot).coldCause found.rtc (median2 (dieSensors.map (fun n => found.sensors.getD n 0))),
          ((s.powered now found).booted slot).shutRec with
        | 0, some r => .next ((((s.powered now found).booted slot).restoreRecord r).runStart 1 0 slot)
        | c, _ => .next (((s.powered now found).booted slot).runStart 0 c slot) := rfl

theorem exec_powerOn_some {now : Nat} {found : PowerOnInputs} {s : State} {slot : Bool}
    (h : (s.powered now found).bootSlot = some slot) :
    exec (.powerOn now found) s = .next (((s.powered now found).booted slot).coldOrWarm found.rtc
      (median2 (dieSensors.map (fun n => found.sensors.getD n 0))) slot) := by
  rw [execPowerOn_eq, h]
  simp only []
  generalize (s.powered now found).booted slot = w
  generalize median2 (dieSensors.map (fun n => found.sensors.getD n 0)) = d
  unfold State.coldOrWarm
  generalize w.coldCause found.rtc d = c
  split <;> rfl

/-- What is left after power-on, whatever start follows. -/
structure PowerFound (now : Nat) (s t : State) : Prop where
  parts : t.parts = []
  stations : t.stations = []
  sram : t.sram = []
  cells : t.cells = s.cells
  modelKeys : t.modelKeys = s.modelKeys
  signKeys : t.signKeys = s.signKeys
  settMem : t.settMem = s.cutShort.settMem
  time : t.time = now
  pending : t.pending = s.pending

theorem PowerFound.of_within {w : Writes} {now : Nat} {s t u : State} (h : PowerFound now s t) (k : Within w t u)
    (hw : [Part.parts, .stations, .sram, .cells, .modelKeys, .signKeys, .settMem, .time, .pending].all
      (fun p => !w.parts.contains p) = true := by decide) : PowerFound now s u := by
  have hno (p : Part) (hp : p ∈ [Part.parts, .stations, .sram, .cells, .modelKeys, .signKeys, .settMem, .time, .pending]) :
      w.parts.contains p = false := by simpa using List.all_eq_true.mp hw p hp
  exact ⟨(show u.parts = t.parts from k.touch.same .parts (hno _ (by simp))).trans h.parts,
    (show u.stations = t.stations from k.touch.same .stations (hno _ (by simp))).trans h.stations,
    (show u.sram = t.sram from k.touch.same .sram (hno _ (by simp))).trans h.sram,
    (show u.cells = t.cells from k.touch.same .cells (hno _ (by simp))).trans h.cells,
    (show u.modelKeys = t.modelKeys from k.touch.same .modelKeys (hno _ (by simp))).trans h.modelKeys,
    (show u.signKeys = t.signKeys from k.touch.same .signKeys (hno _ (by simp))).trans h.signKeys,
    (show u.settMem = t.settMem from k.touch.same .settMem (hno _ (by simp))).trans h.settMem,
    (show u.time = t.time from k.touch.same .time (hno _ (by simp))).trans h.time,
    (show u.pending = t.pending from k.touch.same .pending (hno _ (by simp))).trans h.pending⟩

theorem State.powered_found (s : State) (now : Nat) (found : PowerOnInputs) : PowerFound now s (s.powered now found) := by
  have h := s.powerOff_lost
  have hr : PowerFound now s (s.repowered now found) :=
    ⟨rfl, rfl, rfl, h.cells, h.modelKeys, h.signKeys, s.powerOff_settMem, rfl, h.pending⟩
  exact hr.of_within (s.powered_within now found)

theorem State.powered_finds (s : State) (now : Nat) (found : PowerOnInputs) :
    (s.powered now found).norA = found.imageA ∧ (s.powered now found).norB = found.imageB ∧
      (s.powered now found).shutRec = s.shutRec ∧ (s.powered now found).calRec = s.calRec ∧ (s.powered now found).image = none := by
  have h := (s.powered_within now found).touch
  exact ⟨h.same .norA, h.same .norB,
    (show (s.powered now found).shutRec = s.powerOff.shutRec from h.same .shutRec).trans s.powerOff_lost.shutRec,
    (show (s.powered now found).calRec = s.powerOff.calRec from h.same .calRec).trans s.powerOff_lost.calRec, h.same .image⟩

theorem State.coldCause_lt (s : State) (rtc : Option Nat) (d : Int) : s.coldCause rtc d < 8 := by
  unfold State.coldCause
  split
  · decide
  · extract_lets young fresh
    repeat' split
    all_goals decide

theorem State.coldCause_warm {s : State} {rtc : Option Nat} {d : Int} {r : ShutRecord} {i : Image} (hr : s.shutRec = some r)
    (hclean : r.clean = true) (hrtc : ∃ c, rtc = some c ∧ r.rtc ≤ c ∧ c - r.rtc ≤ 86400) (ht : (d - 2 * r.temp).natAbs ≤ 160)
    (hcal : s.calRec = some i.calver) (hi : s.image = some i) : s.coldCause rtc d = 0 := by
  obtain ⟨c, rfl, hle, hday⟩ := hrtc
  unfold State.coldCause
  simp [hr, hclean, hcal, hi, hle, hday, not_lt.mpr ht]

theorem State.coldOrWarm_within (w : State) (rtc : Option Nat) (d : Int) (slot : Bool) :
    Within ⟨State.restoreRecordWrites.parts ++ State.runStartWrites.parts, State.restoreRecordWrites.flds ++ State.runStartWrites.flds⟩
      w (w.coldOrWarm rtc d slot) := by
  unfold State.coldOrWarm
  split
  · exact (State.runStart_within ..).after ((State.restoreRecord_within ..).mono)
  · exact (State.runStart_within ..).mono

theorem State.coldOrWarm_spec (w : State) (rtc : Option Nat) (d : Int) (slot : Bool) :
    (w.coldOrWarm rtc d slot).getF .GCTL_START_STEP 0 = 6 ∧ (w.coldOrWarm rtc d slot).getF .GCTL_MGR_STANDBY 0 = 1 ∧
      (w.coldOrWarm rtc d slot).getF .GCTL_START_SLOT 0 = slot.toNat := by
  unfold State.coldOrWarm
  split
  next r _ _ =>
    obtain ⟨hstep, hstand, hslot, -, -⟩ := (w.restoreRecord r).runStart_spec (kind := 1) (cause := 0) (by decide) (by decide) slot
    exact ⟨hstep, hstand, hslot⟩
  next =>
    obtain ⟨hstep, hstand, hslot, -, -⟩ := w.runStart_spec (kind := 0) (by decide) (w.coldCause_lt rtc d) slot
    exact ⟨hstep, hstand, hslot⟩

/-- Without a shutdown record the start is cold. -/
theorem State.coldOrWarm_cold {w : State} (h : w.shutRec = none) (rtc : Option Nat) (d : Int) (slot : Bool) :
    (w.coldOrWarm rtc d slot).getF .GCTL_START_KIND 0 = 0 ∧ (w.coldOrWarm rtc d slot).getF .GCTL_START_CAUSE 0 = 1 := by
  have hc : w.coldCause rtc d = 1 := by
    unfold State.coldCause
    rw [h]
  unfold State.coldOrWarm
  rw [h, hc]
  exact ⟨(w.runStart_spec (kind := 0) (cause := 1) (by decide) (by decide) slot).2.2.2.1,
    (w.runStart_spec (kind := 0) (cause := 1) (by decide) (by decide) slot).2.2.2.2⟩

/-- With a shutdown record that all checks accept it is warm. -/
theorem State.coldOrWarm_warm {w : State} {r : ShutRecord} (h : w.shutRec = some r) {rtc : Option Nat} {d : Int}
    (hc : w.coldCause rtc d = 0) (slot : Bool) :
    (w.coldOrWarm rtc d slot).getF .GCTL_START_KIND 0 = 1 ∧ (w.coldOrWarm rtc d slot).getF .GCTL_START_CAUSE 0 = 0 := by
  unfold State.coldOrWarm
  rw [h, hc]
  exact ⟨((w.restoreRecord r).runStart_spec (kind := 1) (cause := 0) (by decide) (by decide) slot).2.2.2.1,
    ((w.restoreRecord r).runStart_spec (kind := 1) (cause := 0) (by decide) (by decide) slot).2.2.2.2⟩

theorem State.booted_image (s : State) : (s.booted false).image = s.norA := rfl

theorem State.booted_touches (s : State) (slot : Bool) : Touches [.image] s (s.booted slot) := Touches.of_withParts rfl

theorem powerOn_image (now : Nat) (found : PowerOnInputs) (s : State) (i : Image) (ha : found.imageA = some i)
    (hb : found.imageB = none) (hi : i.authentic = true) (hf : s.fwTarget = none)
    (hcommit : s.events.commit ≠ some true ∨ s.settQueue = []) (hv : s.getF .NVS_FWARB_COUNT 0 ≤ i.secver) :
    ∃ t, exec (.powerOn now found) s = .next t ∧ t.image = some i ∧ t.getF .GCTL_START_STEP 0 = 6 ∧
      t.getF .GCTL_START_SLOT 0 = 0 ∧ t.getF .GCTL_MGR_STANDBY 0 = 1 ∧
      (s.shutRec = none → t.getF .GCTL_START_KIND 0 = 0 ∧ t.getF .GCTL_START_CAUSE 0 = 1) ∧
      (∀ r, s.shutRec = some r → r.clean = true → (∃ c, found.rtc = some c ∧ r.rtc ≤ c ∧ c - r.rtc ≤ 86400) →
        (median2 (dieSensors.map (fun n => found.sensors.getD n 0)) - 2 * r.temp).natAbs ≤ 160 → s.calRec = some i.calver →
        t.getF .GCTL_START_KIND 0 = 1 ∧ t.getF .GCTL_START_CAUSE 0 = 0) ∧
      t.time = now ∧ t.parts = [] ∧ t.stations = [] ∧ t.sram = [] ∧ t.cells = s.cells ∧ t.modelKeys = s.modelKeys ∧
      t.signKeys = s.signKeys ∧ t.settMem = s.settMem ∧ t.pending = s.pending := by
  obtain ⟨hnorA, hnorB, hshut', hcal', -⟩ := s.powered_finds now found
  have hcount : (s.powered now found).getF .NVS_FWARB_COUNT 0 ≤ i.secver := by
    rw [(s.powered_within now found).getF .NVS_FWARB_COUNT 0]
    exact s.powerOff_lost.fwarb hf _ hv
  have hrow := exec_powerOn_some (State.bootSlot_A (hnorA.trans ha) (hnorB.trans hb) hi hcount)
  have hboot := (s.powered now found).booted_touches false
  have himage : ((s.powered now found).booted false).image = some i :=
    (State.booted_image _).trans (hnorA.trans ha)
  have hfound := (s.powered_found now found).of_within (Within.of_touches hboot)
  have hshut := (show ((s.powered now found).booted false).shutRec = _ from hboot.same .shutRec).trans hshut'
  have hcal := (show ((s.powered now found).booted false).calRec = _ from hboot.same .calRec).trans hcal'
  generalize (s.powered now found).booted false = w at hrow himage hfound hshut hcal
  generalize hd : median2 (dieSensors.map (fun n => found.sensors.getD n 0)) = d at hrow ⊢
  have hrun := w.coldOrWarm_within found.rtc d false
  obtain ⟨hstep, hstand, hslot⟩ := w.coldOrWarm_spec found.rtc d false
  have hend := hfound.of_within hrun
  exact ⟨_, hrow, (show _ = w.image from hrun.touch.same .image).trans himage, hstep, hslot, hstand,
    fun hnone => State.coldOrWarm_cold (hshut.trans hnone) ..,
    fun r hr hclean hrtc ht hcalver => State.coldOrWarm_warm (hshut.trans hr)
      (State.coldCause_warm (hshut.trans hr) hclean hrtc ht (hcal.trans hcalver) himage) false,
    hend.time, hend.parts, hend.stations, hend.sram, hend.cells, hend.modelKeys, hend.signKeys,
    hend.settMem.trans (State.cutShort_settMem hcommit), hend.pending⟩

theorem powerOn_noImage (now : Nat) (found : PowerOnInputs) (s : State) (ha : found.imageA = none) (hb : found.imageB = none) :
    ∃ t, exec (.powerOn now found) s = .next t ∧ t.image = none ∧ t.getF .GCTL_START_STEP 0 = 3 ∧
      t.getF .GCTL_START_BOOTS 0 = 3 ∧ t.getF .GCTL_RESET_LAST 0 = 4 ∧ t.parts = [] ∧ t.cells = s.cells ∧
      t.pending = s.pending := by
  obtain ⟨hnorA, hnorB, -, -, himage⟩ := s.powered_finds now found
  have hrow := execPowerOn_eq now found s
  rw [State.bootSlot_none (hnorA.trans ha) (hnorB.trans hb)] at hrow
  have hfails := (s.powered now found).startFails_within
  obtain ⟨hstep, hboots, hlast⟩ := (s.powered now found).startFails_spec
  have hend := (s.powered_found now found).of_within hfails
  exact ⟨_, hrow, (show _ = (s.powered now found).image from hfails.touch.same .image).trans himage, hstep, hboots, hlast, hend.parts, hend.cells, hend.pending⟩

/-! ### DIE_RESET (R377) -/

/-- The state of a die reset before its start. -/
def State.resetDie (s : State) (last : Nat) : State := s.dieCleared.setF .GCTL_RESET_LAST 0 last

theorem State.dieReset_eq (s : State) (last : Nat) :
    s.dieReset last = match (s.resetDie last).bootSlot with
      | none => (s.resetDie last).startFails
      | some slot => ((s.resetDie last).booted slot).runStart 2 0 slot := rfl

theorem State.dieReset_booted {s : State} {i : Image} (ha : s.norA = some i) (hb : s.norB = none) (hi : i.authentic = true)
    (hf : s.fwTarget = none) (hv : s.getF .NVS_FWARB_COUNT 0 ≤ i.secver) (n : Nat) :
    s.dieReset n = ((s.resetDie n).booted false).runStart 2 0 false := by
  obtain ⟨hlost, -, -⟩ := s.dieCleared_lost
  have hset : Within ⟨[.regs], [.GCTL_RESET_LAST]⟩ s.dieCleared (s.resetDie n) := State.setF_within ..
  have hcount : (s.resetDie n).getF .NVS_FWARB_COUNT 0 ≤ i.secver := by
    rw [hset.getF .NVS_FWARB_COUNT 0]
    exact hlost.fwarb hf _ hv
  have hslot := State.bootSlot_A (s := s.resetDie n) (hlost.norA.trans ha) (hlost.norB.trans hb) hi hcount
  rw [State.dieReset_eq, hslot]

/-- What a die reset takes and leaves, whatever start follows it. -/
structure DieLost (s t : State) : Prop where
  parts : t.parts = []
  stations : t.stations = []
  ctxs : t.ctxs = []
  sram : t.sram = []
  cells : t.cells = s.cells
  trims : t.trims = s.trims
  modelKeys : t.modelKeys = s.modelKeys
  time : t.time = s.time
  base : t.base = s.base
  pending : t.pending = s.pending

theorem DieLost.of_within {w : Writes} {s t u : State} (h : DieLost s t) (k : Within w t u)
    (hw : [Part.parts, .stations, .ctxs, .sram, .cells, .trims, .modelKeys, .time, .base, .pending].all
      (fun p => !w.parts.contains p) = true := by decide) : DieLost s u := by
  have hno (p : Part) (hp : p ∈ [Part.parts, .stations, .ctxs, .sram, .cells, .trims, .modelKeys, .time, .base, .pending]) :
      w.parts.contains p = false := by simpa using List.all_eq_true.mp hw p hp
  exact ⟨(show u.parts = t.parts from k.touch.same .parts (hno _ (by simp))).trans h.parts,
    (show u.stations = t.stations from k.touch.same .stations (hno _ (by simp))).trans h.stations,
    (show u.ctxs = t.ctxs from k.touch.same .ctxs (hno _ (by simp))).trans h.ctxs,
    (show u.sram = t.sram from k.touch.same .sram (hno _ (by simp))).trans h.sram,
    (show u.cells = t.cells from k.touch.same .cells (hno _ (by simp))).trans h.cells,
    (show u.trims = t.trims from k.touch.same .trims (hno _ (by simp))).trans h.trims,
    (show u.modelKeys = t.modelKeys from k.touch.same .modelKeys (hno _ (by simp))).trans h.modelKeys,
    (show u.time = t.time from k.touch.same .time (hno _ (by simp))).trans h.time,
    (show u.base = t.base from k.touch.same .base (hno _ (by simp))).trans h.base,
    (show u.pending = t.pending from k.touch.same .pending (hno _ (by simp))).trans h.pending⟩

theorem State.resetDie_lost (s : State) (n : Nat) : DieLost s (s.resetDie n) := by
  obtain ⟨hlost, hbase, htrims⟩ := s.dieCleared_lost
  have hset : Within ⟨[.regs], [.GCTL_RESET_LAST]⟩ s.dieCleared (s.resetDie n) := State.setF_within ..
  have hcleared : DieLost s s.dieCleared := ⟨hlost.parts, hlost.stations, hlost.ctxs, hlost.sram, hlost.cells, htrims,
    hlost.modelKeys, hlost.time, hbase, hlost.pending⟩
  exact hcleared.of_within hset

/-- Whatever start follows: the image that is found is started, or the ROM stops. -/
theorem State.dieReset_lost (s : State) (n : Nat) : DieLost s (s.dieReset n) := by
  rw [State.dieReset_eq]
  split
  · exact (s.resetDie_lost n).of_within (State.startFails_within _)
  · exact ((s.resetDie_lost n).of_within (Within.of_touches (State.booted_touches ..))).of_within (State.runStart_within ..)

theorem State.dieReset_spec {s : State} {i : Image} (ha : s.norA = some i) (hb : s.norB = none) (hi : i.authentic = true)
    (hf : s.fwTarget = none) (hv : s.getF .NVS_FWARB_COUNT 0 ≤ i.secver) {n : Nat} (hn : n < 8) :
    (s.dieReset n).getF .GCTL_RESET_LAST 0 = n ∧ (s.dieReset n).getF .GCTL_START_KIND 0 = 2 ∧
      (s.dieReset n).getF .GCTL_START_STEP 0 = 6 := by
  rw [State.dieReset_booted ha hb hi hf hv n]
  have hlast : ((s.resetDie n).booted false).getF .GCTL_RESET_LAST 0 = n :=
    (((s.resetDie n).booted_touches false).getF _ _).trans
      ((s.dieCleared.getF_setF_same .GCTL_RESET_LAST 0 n).trans (Nat.mod_eq_of_lt (b := 2 ^ 4) (hn.trans (by decide))))
  obtain ⟨hstep, -, -, hkind, -⟩ := ((s.resetDie n).booted false).runStart_spec (kind := 2) (cause := 0) (by decide) (by decide) false
  exact ⟨((State.runStart_within ..).getF _ _).trans hlast, hkind, hstep⟩

theorem dieReset_started (now : Nat) (s : State) (i : Image) (ha : s.norA = some i) (hb : s.norB = none) (hi : i.authentic = true)
    (hf : s.fwTarget = none) (hv : s.getF .NVS_FWARB_COUNT 0 ≤ i.secver) (c : DieResetCause) (n : Nat)
    (hc : (c = .rstN ∧ n = 1) ∨ (c = .pfWrite 0x5A17#16 true ∧ n = 2)) :
    ∃ t, exec (.dieReset now c) s = .next t ∧ t.getF .GCTL_RESET_LAST 0 = n ∧ t.getF .GCTL_START_KIND 0 = 2 ∧
      t.getF .GCTL_START_STEP 0 = 6 ∧ t.parts = [] ∧ t.stations = [] ∧ t.ctxs = [] ∧ t.sram = [] ∧ t.cells = s.cells ∧
      t.trims = s.trims ∧ t.modelKeys = s.modelKeys ∧ t.time = max s.time now ∧ t.base = s.base ∧ t.pending = s.pending := by
  have hrow : exec (.dieReset now c) s = .next ((s.advance now).dieReset n) := by
    rcases hc with ⟨rfl, rfl⟩ | ⟨rfl, rfl⟩ <;> rfl
  have hn : n < 8 := by omega
  obtain ⟨hlast, hkind, hstep⟩ := State.dieReset_spec (s := s.advance now) ha hb hi hf hv hn
  have hlost := (s.advance now).dieReset_lost n
  exact ⟨_, hrow, hlast, hkind, hstep, hlost.parts, hlost.stations, hlost.ctxs, hlost.sram, hlost.cells, hlost.trims,
    hlost.modelKeys, hlost.time, hlost.base, hlost.pending⟩

theorem dieReset_noEffect (now : Nat) (s : State) (k : BitVec 16) (d : Bool) (h : k ≠ 0x5A17#16 ∨ d = false) :
    exec (.dieReset now (.pfWrite k d)) s = .next (s.advance now) := by
  have hrow : exec (.dieReset now (.pfWrite k d)) s =
    if k = 0x5A17#16 && d then .next ((s.advance now).dieReset 2) else .next (s.advance now) := rfl
  rw [hrow, if_neg]
  simpa [imp_iff_not_or] using h

/-- Settles O52: power-on and die resets keep what power-off or the reset leaves, and the start writes what R370 to R374 say. -/
theorem startsAndResets : Obligations.StartsAndResets :=
  ⟨fun now found s => ⟨powerOn_image now found s, powerOn_noImage now found s⟩,
    fun now s => ⟨dieReset_started now s, dieReset_noEffect now s⟩⟩

end Sys2Proof.Machine
end

section
/-!
PROOF. Takeovers and rails (R239, R383 to R385, R453, O54).
-/

set_option Elab.async false

namespace Sys2Proof.Machine
open Sys2Proof

/-! ### What answers, messages and reclaims leave of a function's state (R305, R306, R317, R321) -/

/-- Two states of a function that differ only in its completions, its messages and the course of a reclaim. -/
structure Function.Alike (x y : Function) : Prop where
  enabled : y.enabled = x.enabled
  flr : y.flr = x.flr
  entries : y.entries = x.entries
  held : y.held = x.held
  accepted : y.accepted = x.accepted
  consent : y.consent = x.consent

theorem Function.Alike.refl (x : Function) : Function.Alike x x := ⟨rfl, rfl, rfl, rfl, rfl, rfl⟩

theorem Function.Alike.trans {x y z : Function} (h : Function.Alike x y) (k : Function.Alike y z) : Function.Alike x z :=
  ⟨k.enabled.trans h.enabled, k.flr.trans h.flr, k.entries.trans h.entries, k.held.trans h.held, k.accepted.trans h.accepted,
    k.consent.trans h.consent⟩

/-- Every function's state is alike in both states. -/
structure FnsAlike (s t : State) : Prop where
  fn (f : Nat) : Function.Alike (s.fnst f) (t.fnst f)

theorem FnsAlike.refl (s : State) : FnsAlike s s := ⟨fun _ => .refl _⟩

theorem FnsAlike.trans {s t u : State} (h : FnsAlike s t) (k : FnsAlike t u) : FnsAlike s u := ⟨fun f => (h.fn f).trans (k.fn f)⟩

theorem FnsAlike.of_fns_eq {s t : State} (h : t.fns = s.fns) : FnsAlike s t := ⟨fun f => by
  unfold State.fnst
  rw [h]
  exact .refl _⟩

theorem FnsAlike.of_within {w : Writes} {s t : State} (h : Within w s t) (hw : w.parts.contains .fns = false := by decide) : FnsAlike s t :=
  .of_fns_eq (show t.fns = s.fns from h.touch.same .fns hw)

theorem FnsAlike.setFn (s : State) {f : Nat} {x : Function} (h : Function.Alike (s.fnst f) x) : FnsAlike s (s.setFn f x) := by
  refine ⟨fun g => ?_⟩
  by_cases hg : f = g
  · rw [← hg, State.fnst_setFn_same]
    exact h
  · rw [State.fnst_setFn_ne _ _ _ hg]
    exact .refl _

theorem FnsAlike.foldl {α : Type} {g : State → α → State} (hg : ∀ s a, FnsAlike s (g s a)) (l : List α) (s : State) : FnsAlike s (l.foldl g s) := by
  induction l generalizing s with
  | nil => exact .refl s
  | cons a l ih => exact (hg s a).trans (ih _)

theorem FnsAlike.ite {s t u : State} {c : Prop} [Decidable c] (ht : FnsAlike s t) (hu : FnsAlike s u) : FnsAlike s (if c then t else u) := by
  split
  · exact ht
  · exact hu

theorem State.service_alike (s : State) (f code : Nat) (ws : List Word) : FnsAlike s (s.service f code ws) := by
  unfold State.service
  extract_lets x msg u
  have hu : FnsAlike s u := .setFn s (x := { x with seq := _ }) ⟨rfl, rfl, rfl, rfl, rfl, rfl⟩
  refine .ite (.refl s) (.ite (hu.trans (.of_within (State.svcFill_within ..))) (.ite (hu.trans ?_) (hu.trans (.of_within (State.addHold_within ..)))))
  exact .setFn u (x := { u.fnst f with messages := _ }) ⟨rfl, rfl, rfl, rfl, rfl, rfl⟩

theorem State.cplWrite_alike (s : State) (f : Nat) (c : Completion) : FnsAlike s (s.cplWrite f c) := by
  unfold State.cplWrite
  extract_lets tail base x last u v
  have hu : FnsAlike s u := .of_within (State.emit_within ..)
  have hv : FnsAlike u v := .setFn u (x := { x with wrapped := _ }) ⟨rfl, rfl, rfl, rfl, rfl, rfl⟩
  have hend : Within ⟨[.regs, .out, .pba], [.CPL_TAIL_INDEX]⟩ v ((v.setF .CPL_TAIL_INDEX f ((tail + 1) % s.ringSize f)).msix f 0) :=
    (State.msix_within ..).after ((State.setF_within ..).mono)
  exact hu.trans (hv.trans (.of_within hend))

theorem State.complete_alike (s : State) (f : Nat) (c : Completion) : FnsAlike s (s.complete f c) := by
  unfold State.complete
  extract_lets x
  refine .ite (.refl s) (.ite (s.cplWrite_alike f c) ?_)
  exact .setFn s (x := { x with waiting := _ }) ⟨rfl, rfl, rfl, rfl, rfl, rfl⟩

theorem State.reclaimEnd_alike (s : State) (t : Nat) : FnsAlike s (s.reclaimEnd t) := by
  unfold State.reclaimEnd
  extract_lets x sts cs
  refine .ite (.refl s) ?_
  have hmaps : FnsAlike s { s with stations := sts, ctxs := cs } := .of_fns_eq rfl
  exact hmaps.trans <| FnsAlike.setFn { s with stations := sts, ctxs := cs }
    (x := { x with cut := none, released := 0, parked := 0, closed := 0 }) ⟨rfl, rfl, rfl, rfl, rfl, rfl⟩

theorem State.reclaimDone_alike (s : State) (t : Nat) : FnsAlike s (s.reclaimDone t) := by
  unfold State.reclaimDone
  extract_lets x
  exact .ite ((s.service_alike ..).trans (State.reclaimEnd_alike ..)) (.refl s)

theorem State.reclaimGone_alike (s : State) (t : Nat) : FnsAlike s (s.reclaimGone t) := by
  unfold State.reclaimGone
  extract_lets x p
  split
  · exact .refl s
  next c hc =>
    extract_lets left n
    exact (FnsAlike.setFn s (x := { x with cut := some left, released := x.released + n }) ⟨rfl, rfl, rfl, rfl, rfl, rfl⟩).trans
      (State.reclaimDone_alike ..)

theorem State.reclaimFit_alike (s : State) (t : Nat) (late : Bool) : FnsAlike s (s.reclaimFit t late) := by
  unfold State.reclaimFit
  exact .ite (s.reclaimGone_alike t) (.ite (s.reclaimEnd_alike t) (.refl s))

theorem State.beginCut_alike (s : State) (t : Nat) (q : Quota) : FnsAlike s (s.beginCut t q) := by
  unfold State.beginCut
  extract_lets cut cs sts ctxs u x v n
  have hu : FnsAlike s u := .of_fns_eq rfl
  have hv : FnsAlike u v := .setFn u (x := { u.fnst t with cut := some cut, released := 0, parked := 0, closed := 0 })
    ⟨rfl, rfl, rfl, rfl, rfl, rfl⟩
  exact hu.trans (hv.trans (State.service_alike ..))

theorem State.applyQuota_alike (s : State) (t : Nat) (q : Quota) : FnsAlike s (s.applyQuota t q) := by
  unfold State.applyQuota
  extract_lets u
  have hset : Within ⟨.buckets :: .bucketAt :: State.setQuotaWrites.parts, State.setQuotaWrites.flds⟩ s ((s.loaderCharge t 0).setQuota t q) :=
    (State.setQuota_within ..).after ((State.loaderCharge_within ..).mono)
  have hu : FnsAlike s u :=
    (FnsAlike.of_within hset).trans ((State.reclaimEnd_alike ..).trans (.of_within (State.ruleCut_within ..)))
  exact .ite hu (hu.trans (State.beginCut_alike ..))

/-! ### The end of a partition (R239, R240) -/

theorem foldl_setStation_stations (l : List Nat) (x : Station) (s : State) :
    (l.foldl (fun t st => t.setStation st x) s).stations = l.foldl (fun m st => smapSet Station.unloaded m st x) s.stations := by
  induction l generalizing s with
  | nil => rfl
  | cons a l ih => exact ih _

/-- What `State.unloadFree` writes before the partition goes. -/
def State.unloadFreedWrites : Writes := ⟨State.unloadFreeWrites.parts.filter (fun p => p != .parts && p != .fns && p != .stations && p != .loading), State.unloadFreeWrites.flds⟩

/-- `State.unloadFree` frees what the partition holds and then the partition. -/
theorem State.unloadFree_eq (s : State) (owner : Nat) : ∃ u late, Within ⟨.stations :: .loading :: State.unloadFreedWrites.parts, State.unloadFreedWrites.flds⟩ s u ∧
    u.loading = s.loading.filter (fun l => l.fn != owner) ∧
    u.stations = (s.stationsOf owner).foldl (fun m st => smapSet Station.unloaded m st Station.unloaded) s.stations ∧
    s.unloadFree owner = (u.setPart owner none).reclaimFit owner late := by
  unfold State.unloadFree
  extract_lets p late sts rings s1 olds s2 s3 s4 s5 s6 sets ms s7 s8 s9 s10
  have hs1 : Within State.unloadFreedWrites s s1 := Within.foldl _ (fun _ _ => (State.disarmTarget_within ..).after
    ((State.disarmPoints_within ..).mono)) _ _
  have hs2 : Within State.unloadFreedWrites s s2 := Within.trans hs1 (Within.foldl _ (fun _ _ =>
    (State.ringDrop_within ..).mono) _ _)
  have hs3 : Within State.unloadFreedWrites s s3 := Within.trans hs2 (Within.foldl _ (fun _ _ => Within.ite _
    ((State.store_within ..).mono) (Within.refl _ _)) _ _)
  have hs4 : Within State.unloadFreedWrites s s4 := Within.trans hs3 (Within.foldl _ (fun _ _ =>
    (State.freeOwl_within ..).mono) _ _)
  have hs5 : Within State.unloadFreedWrites s s5 := Within.trans hs4 (Within.foldl _ (fun _ _ =>
    (State.ruleFree_within ..).mono) _ _)
  have hs6 : Within State.unloadFreedWrites s s6 := Within.trans hs5 (Within.foldl _ (fun _ _ =>
    (State.setGroup_within ..).mono) _ _)
  have hs7 : Within ⟨.loading :: State.unloadFreedWrites.parts, State.unloadFreedWrites.flds⟩ s s7 := Within.after
    (Within.update [.tmvs, .flights, .sets, .snaps, .loading] rfl) hs6.mono
  have hfree : Within ⟨.threads :: State.arbResetWrites.parts, State.arbResetWrites.flds ++ State.freeThreadAtWrites.flds⟩ s7 s9 :=
    (State.arbReset_within ..).mono.trans (Within.foldl _ (fun _ _ => (State.freeThreadAt_within ..).mono) _ _)
  have hloading : s9.loading = s.loading.filter (fun l => l.fn != owner) := by
    refine (show s9.loading = s7.loading from hfree.touch.same .loading).trans ?_
    change s6.loading.filter _ = _
    rw [show s6.loading = s.loading from hs6.touch.same .loading]
  have hs9 : Within ⟨.loading :: State.unloadFreedWrites.parts, State.unloadFreedWrites.flds⟩ s s9 := hfree.after hs7
  have hstations : s9.stations = s.stations := hs9.touch.same .stations
  clear_value s9
  have hs10 : Within ⟨[.stations], []⟩ s9 s10 := Within.foldl _ (fun _ _ => State.setStation_within ..) _ _
  refine ⟨s10, late, hs10.after hs9.mono, (show s10.loading = s9.loading from hs10.touch.same .loading).trans hloading, ?_, rfl⟩
  rw [← hstations]
  exact foldl_setStation_stations _ _ _

theorem State.unloadFree_parts (s : State) (owner : Nat) :
    (s.unloadFree owner).parts = smapSet none s.parts owner none := by
  obtain ⟨u, late, hu, -, -, heq⟩ := s.unloadFree_eq owner
  rw [heq]
  refine (show _ = (u.setPart owner none).parts from (State.reclaimFit_within ..).touch.same .parts).trans ?_
  change smapSet none u.parts owner none = _
  rw [show u.parts = s.parts from hu.touch.same .parts]

theorem State.unloadFree_loading (s : State) (owner : Nat) :
    (s.unloadFree owner).loading = s.loading.filter (fun l => l.fn != owner) := by
  obtain ⟨u, late, -, hloading, -, heq⟩ := s.unloadFree_eq owner
  rw [heq]
  exact (show _ = (u.setPart owner none).loading from (State.reclaimFit_within ..).touch.same .loading).trans hloading

theorem State.unloadFree_alike (s : State) (owner : Nat) : FnsAlike s (s.unloadFree owner) := by
  obtain ⟨u, late, hu, -, -, heq⟩ := s.unloadFree_eq owner
  rw [heq]
  have hset : FnsAlike u (u.setPart owner none) := .of_fns_eq rfl
  exact (FnsAlike.of_within hu).trans (hset.trans (State.reclaimFit_alike ..))

/-! ### Loads that a takeover removes (R239) -/

/-- The partition of a removed load is gone; its memory is zero and its quotas are as before the load. -/
theorem State.loadRemove_spec (s : State) (l : Loading) :
    (s.loadRemove l).part l.fn = none ∧ (∀ f, s.part f = none → (s.loadRemove l).part f = none) ∧
      (s.loading = [] → (s.loadRemove l).loading = []) ∧ FnsAlike s (s.loadRemove l) := by
  unfold State.loadRemove
  extract_lets p u v w
  have hu : u.part l.fn = none ∧ (∀ f, s.part f = none → u.part f = none) ∧ (s.loading = [] → u.loading = []) ∧ FnsAlike s u := by
    unfold u
    split
    next hs =>
      have hstop := s.unloadStop_within l.fn
      have hparts : ((s.unloadStop l.fn).unloadFree l.fn).parts = smapSet none s.parts l.fn none := by
        rw [State.unloadFree_parts, show (s.unloadStop l.fn).parts = s.parts from hstop.touch.same .parts]
      refine ⟨?_, fun f hf => ?_, fun hl => ?_, (FnsAlike.of_within hstop).trans (State.unloadFree_alike ..)⟩
      · unfold State.part
        rw [hparts]
        exact smapGet_set_same none s.parts l.fn none
      · unfold State.part
        rw [hparts]
        by_cases he : l.fn = f
        · rw [he]
          exact smapGet_set_same none s.parts f none
        · exact (smapGet_set_ne _ _ he).trans hf
      · rw [State.unloadFree_loading, show (s.unloadStop l.fn).loading = s.loading from hstop.touch.same .loading, hl]
        rfl
    next hs => exact ⟨Option.not_isSome_iff_eq_none.mp hs, fun _ hf => hf, id, .refl s⟩
  have hv : Within ⟨[.sram, .ecc], []⟩ u v := Within.foldl _ (fun _ _ => State.zeroFill_within ..) _ _
  have hw : Within ⟨[.sram, .ecc], []⟩ u w := hv.trans (Within.foldl _ (fun _ _ => State.zeroFill_within ..) _ _)
  have hq : Within State.applyQuotaWrites w (l.quotas.foldl (fun t q => t.applyQuota q.1 q.2) w) :=
    Within.foldl _ (fun _ _ => State.applyQuota_within ..) _ _
  have hend : Within ⟨.sram :: .ecc :: State.applyQuotaWrites.parts, State.applyQuotaWrites.flds⟩ u
      (l.quotas.foldl (fun t q => t.applyQuota q.1 q.2) w) := hq.after hw.mono
  obtain ⟨hpart, hother, hloading, halike⟩ := hu
  have hparts : (l.quotas.foldl (fun t q => t.applyQuota q.1 q.2) w).parts = u.parts := hend.touch.same .parts
  have hget (f : Nat) : (l.quotas.foldl (fun t q => t.applyQuota q.1 q.2) w).part f = u.part f := by
    unfold State.part
    rw [hparts]
  have hquotas : FnsAlike w (l.quotas.foldl (fun t q => t.applyQuota q.1 q.2) w) :=
    FnsAlike.foldl (fun _ _ => State.applyQuota_alike ..) _ _
  exact ⟨(hget _).trans hpart, fun f hf => (hget f).trans (hother f hf),
    fun hl => (show _ = u.loading from hend.touch.same .loading).trans (hloading hl),
    halike.trans ((FnsAlike.of_within hw).trans hquotas)⟩

theorem foldl_loadRemove_spec (ls : List Loading) (s : State) :
    (∀ l, l ∈ ls → (ls.foldl State.loadRemove s).part l.fn = none) ∧
      (∀ f, s.part f = none → (ls.foldl State.loadRemove s).part f = none) ∧
      (s.loading = [] → (ls.foldl State.loadRemove s).loading = []) ∧ FnsAlike s (ls.foldl State.loadRemove s) := by
  induction ls generalizing s with
  | nil => exact ⟨fun l hl => absurd hl List.not_mem_nil, fun f hf => hf, id, .refl s⟩
  | cons a ls ih =>
    obtain ⟨hpart, hother, hloading, halike⟩ := s.loadRemove_spec a
    obtain ⟨hparts, hothers, hempty, hfold⟩ := ih (s.loadRemove a)
    refine ⟨fun l hl => ?_, fun f hf => hothers f (hother f hf), fun hl => hempty (hloading hl), halike.trans hfold⟩
    rcases List.mem_cons.mp hl with rfl | hl
    · exact hothers _ hpart
    · exact hparts l hl

/-- A command that is taken and answered leaves the entries that wait, and all but the records of functions. -/
theorem State.answerVoided_spec (s : State) (p : Nat × List Word) :
    Within ⟨.accepted :: State.completeWrites.parts, State.completeWrites.flds⟩ s ((s.takeAccepted p.1 p.2).complete p.1 (voided p.2)) ∧
      ∀ f, (((s.takeAccepted p.1 p.2).complete p.1 (voided p.2)).fnst f).entries = (s.fnst f).entries := by
  refine ⟨(State.complete_within ..).after ((State.takeAccepted_within ..).mono), fun f => ?_⟩
  refine ((State.complete_alike ..).fn f).entries.trans ?_
  have hset (t : State) (ht : t.fns = s.fns) (x : Function) (hx : x.entries = (s.fnst p.1).entries) :
      ((t.setFn p.1 x).fnst f).entries = (s.fnst f).entries := by
    by_cases hf : p.1 = f
    · rw [← hf, State.fnst_setFn_same]
      exact hx
    · rw [State.fnst_setFn_ne _ _ _ hf]
      unfold State.fnst
      rw [ht]
  exact hset { s with accepted := s.accepted.erase (p.1, p.2) } rfl _ rfl

theorem State.abandonLoads_spec (s : State) :
    (∀ l, l ∈ s.loading → s.abandonLoads.part l.fn = none) ∧ s.abandonLoads.loading = [] ∧
      (∀ f, (s.abandonLoads.fnst f).entries = (s.fnst f).entries) ∧
      (s.loading = [] → Within ⟨.accepted :: .loading :: State.completeWrites.parts, State.completeWrites.flds⟩ s s.abandonLoads) := by
  unfold State.abandonLoads
  extract_lets done u v
  obtain ⟨hparts, -, hloading, halike⟩ := foldl_loadRemove_spec done.reverse { s with loading := [] }
  have hv : Within State.completeWrites u v := Within.foldl _ (fun _ _ => State.complete_within ..) _ _
  have hva : FnsAlike u v := FnsAlike.foldl (fun _ _ => State.complete_alike ..) _ _
  generalize v.accepted.filter (fun p => entryOp p.2 == 0x01) = ps
  have hw : Within ⟨.accepted :: State.completeWrites.parts, State.completeWrites.flds⟩ v
      (ps.foldl (fun t p => (t.takeAccepted p.1 p.2).complete p.1 (voided p.2)) v) :=
    Within.foldl _ (fun t p => (t.answerVoided_spec p).1) _ _
  have hwe : ∀ f, ((ps.foldl (fun t p => (t.takeAccepted p.1 p.2).complete p.1 (voided p.2)) v).fnst f).entries = (v.fnst f).entries := by
    intro f
    induction ps using List.reverseRecOn with
    | nil => rfl
    | append_singleton ps p ih =>
      rw [List.foldl_append]
      exact ((State.answerVoided_spec ..).2 f).trans (ih (Within.foldl _ (fun t p => (t.answerVoided_spec p).1) _ _))
  generalize ps.foldl (fun t p => (t.takeAccepted p.1 p.2).complete p.1 (voided p.2)) v = w at hw hwe ⊢
  have hend : Within ⟨.accepted :: State.completeWrites.parts, State.completeWrites.flds⟩ u w := hw.after hv.mono
  have hget (f : Nat) : w.part f = u.part f := by
    unfold State.part
    rw [show w.parts = u.parts from hend.touch.same .parts]
  refine ⟨fun l hl => (hget _).trans (hparts l (List.mem_reverse.mpr hl)),
    (show w.loading = u.loading from hend.touch.same .loading).trans (hloading rfl), fun f => ?_, fun hl => ?_⟩
  · have hempty : FnsAlike s { s with loading := [] } := .of_fns_eq rfl
    exact (hwe f).trans ((hempty.trans (halike.trans hva)).fn f).entries
  · have hu : Within ⟨[.loading], []⟩ s u := by
      unfold u done
      rw [hl]
      exact Within.update [.loading] rfl
    exact hend.after hu.mono

/-! ### Takeovers (R383 to R385) -/

theorem State.voidCommands_entries (s : State) (f g : Nat) :
    ((s.voidCommands f).fnst g).entries = if f = g then [] else (s.fnst g).entries := by
  unfold State.voidCommands
  extract_lets x u v
  have hend : FnsAlike u (x.entries.foldl (fun t e => t.complete f (voided e)) v) :=
    (FnsAlike.of_within (State.setF_within ..)).trans (FnsAlike.foldl (fun _ _ => State.complete_alike ..) _ _)
  refine (hend.fn g).entries.trans ?_
  split
  next hfg =>
    rw [← hfg]
    unfold u
    rw [State.fnst_setFn_same]
  next hfg =>
    unfold u
    rw [State.fnst_setFn_ne _ _ _ hfg]

/-- The takeover leaves no entry, where every function with entries is listed. -/
theorem foldl_voidCommands_entries (fs : List Nat) (s : State) (h : ∀ f, f ∉ fs → (s.fnst f).entries = []) (f : Nat) :
    ((fs.foldl State.voidCommands s).fnst f).entries = [] := by
  induction fs generalizing s with
  | nil => exact h f List.not_mem_nil
  | cons a fs ih =>
    refine ih (s.voidCommands a) (fun g hg => ?_)
    rw [State.voidCommands_entries]
    split
    · rfl
    next hne => exact h g (List.not_mem_cons_of_ne_of_not_mem (Ne.symm hne) hg)

theorem smapGet_of_forall_ne {α : Type} {d : α} {m : SMap α} {i : Nat} (h : ∀ e, e ∈ m → e.1 ≠ i) : smapGet d m i = d := by
  induction m with
  | nil => rfl
  | cons e m ih =>
    unfold smapGet
    rw [if_neg (h e List.mem_cons_self), ih fun x hx => h x (List.mem_cons_of_mem _ hx)]

theorem fnst_unlisted {s : State} {f : Nat} (h : f ∉ s.fns.map (·.1)) : s.fnst f = Function.reset :=
  smapGet_of_forall_ne (fun e he hf => h (List.mem_map.mpr ⟨e, he, hf⟩))

/-- The registers of a takeover, with its event. -/
def State.takesOver (s : State) (cause : Nat) : State :=
  ((((s.setF .GCTL_MGR_ACTIVE 0 (1 - s.getF .GCTL_MGR_ACTIVE 0)).setF .GCTL_MGR_STANDBY 0 0).setF .GCTL_MGR_CAUSE 0 cause).addHold
    .GCTL_MGR_TAKEOVERS 0 1).raise 0x107 0xFF 0xFF 0xFF 0xFFFF []

theorem State.takeover_eq (s : State) (cause : Nat) : s.takeover cause =
    if !(s.bit .GCTL_MGR_STANDBY 0) then s.dieReset 3
    else ((s.takesOver cause).fns.map (·.1)).foldl State.voidCommands (s.takesOver cause).abandonLoads := rfl

theorem State.takesOver_spec (s : State) {cause : Nat} (hc : cause < 8) :
    (s.takesOver cause).getF .GCTL_MGR_CAUSE 0 = cause ∧
      (s.takesOver cause).getF .GCTL_MGR_ACTIVE 0 = 1 - s.getF .GCTL_MGR_ACTIVE 0 ∧ (s.takesOver cause).getF .GCTL_MGR_STANDBY 0 = 0 ∧
      (s.takesOver cause).getF .GCTL_MGR_TAKEOVERS 0 = min (s.getF .GCTL_MGR_TAKEOVERS 0 + 1) 255 ∧
      Within ⟨.regs :: State.raiseWrites.parts, [.GCTL_MGR_ACTIVE, .GCTL_MGR_STANDBY, .GCTL_MGR_CAUSE, .GCTL_MGR_TAKEOVERS]⟩
        s (s.takesOver cause) := by
  unfold State.takesOver
  generalize hu : s.setF .GCTL_MGR_ACTIVE 0 (1 - s.getF .GCTL_MGR_ACTIVE 0) = u
  generalize hv : u.setF .GCTL_MGR_STANDBY 0 0 = v
  generalize hw : v.setF .GCTL_MGR_CAUSE 0 cause = w
  have ku : Within ⟨[.regs], [.GCTL_MGR_ACTIVE]⟩ s u := hu ▸ State.setF_within ..
  have kv : Within ⟨[.regs], [.GCTL_MGR_STANDBY]⟩ u v := hv ▸ State.setF_within ..
  have kw : Within ⟨[.regs], [.GCTL_MGR_CAUSE]⟩ v w := hw ▸ State.setF_within ..
  have ke : Within ⟨.regs :: State.raiseWrites.parts, [.GCTL_MGR_TAKEOVERS]⟩ w
      ((w.addHold .GCTL_MGR_TAKEOVERS 0 1).raise 0x107 0xFF 0xFF 0xFF 0xFFFF []) :=
    (State.raise_within ..).after ((State.addHold_within ..).mono)
  refine ⟨(ke.getF _ _).trans ?_, (ke.getF _ _).trans ((kw.getF _ _).trans ((kv.getF _ _).trans ?_)),
    (ke.getF _ _).trans ((kw.getF _ _).trans ?_), ((State.raise_within ..).getF _ _).trans ((w.getF_addHold ..).trans ?_),
    ke.after (kw.after (kv.after ku.mono))⟩
  · rw [← hw]
    exact (v.getF_setF_same .GCTL_MGR_CAUSE 0 cause).trans (Nat.mod_eq_of_lt hc)
  · rw [← hu]
    refine (s.getF_setF_same .GCTL_MGR_ACTIVE 0 _).trans (Nat.mod_eq_of_lt (?_ : _ < 2))
    omega
  · rw [← hv]
    exact u.getF_setF_same .GCTL_MGR_STANDBY 0 0
  · rw [kw.getF _ _, kv.getF _ _, ku.getF _ _]
    rfl

/-- A takeover with the standby ready. -/
theorem State.takeover_spec {s : State} (hs : s.bit .GCTL_MGR_STANDBY 0 = true) {cause : Nat} (hc : cause < 8) :
    (s.takeover cause).getF .GCTL_MGR_CAUSE 0 = cause ∧
      (s.takeover cause).getF .GCTL_MGR_ACTIVE 0 = 1 - s.getF .GCTL_MGR_ACTIVE 0 ∧ (s.takeover cause).getF .GCTL_MGR_STANDBY 0 = 0 ∧
      (s.takeover cause).getF .GCTL_MGR_TAKEOVERS 0 = min (s.getF .GCTL_MGR_TAKEOVERS 0 + 1) 255 ∧
      (∀ f, ((s.takeover cause).fnst f).entries = []) ∧ (s.takeover cause).loading = [] ∧
      (∀ l, l ∈ s.loading → (s.takeover cause).part l.fn = none) ∧ (s.takeover cause).cells = s.cells ∧
      (s.loading = [] → KeepsBytes s (s.takeover cause) nowhere ∧ (s.takeover cause).stations = s.stations ∧
        (s.takeover cause).parts = s.parts ∧ (s.takeover cause).engines = s.engines) := by
  rw [State.takeover_eq, hs, if_neg (by decide)]
  obtain ⟨hcause, hactive, hstand, htakes, hu⟩ := s.takesOver_spec hc
  generalize s.takesOver cause = u at hcause hactive hstand htakes hu ⊢
  have hloading : u.loading = s.loading := hu.touch.same .loading
  obtain ⟨hpart, hempty, hentries, hidle⟩ := u.abandonLoads_spec
  have ha := u.abandonLoads_within
  have hv : Within State.voidCommandsWrites u.abandonLoads ((u.fns.map (·.1)).foldl State.voidCommands u.abandonLoads) :=
    Within.foldl _ (fun _ _ => State.voidCommands_within ..) _ _
  have hvoid := foldl_voidCommands_entries (u.fns.map (·.1)) u.abandonLoads (fun f hf => by
    rw [hentries, fnst_unlisted hf]
    rfl)
  generalize (u.fns.map (·.1)).foldl State.voidCommands u.abandonLoads = v at hv hvoid ⊢
  refine ⟨(hv.getF _ _).trans ((ha.getF _ _).trans hcause), (hv.getF _ _).trans ((ha.getF _ _).trans hactive),
    (hv.getF _ _).trans ((ha.getF _ _).trans hstand), (hv.getF _ _).trans ((ha.getF _ _).trans htakes), hvoid,
    (show v.loading = _ from hv.touch.same .loading).trans hempty, fun l hl => ?_, ?_, fun hl => ?_⟩
  · unfold State.part
    rw [show v.parts = u.abandonLoads.parts from hv.touch.same .parts]
    exact hpart l (hloading ▸ hl)
  · exact (show v.cells = _ from hv.touch.same .cells).trans ((show _ = u.cells from ha.touch.same .cells).trans (hu.touch.same .cells))
  · have hi := hidle (hloading.trans hl)
    have hend : Within ⟨.regs :: .accepted :: .loading :: State.completeWrites.parts ++ State.raiseWrites.parts,
        [.GCTL_MGR_ACTIVE, .GCTL_MGR_STANDBY, .GCTL_MGR_CAUSE, .GCTL_MGR_TAKEOVERS] ++ State.voidCommandsWrites.flds⟩ s v :=
      hv.after (hi.after hu.mono)
    exact ⟨.of_sram_eq (hend.touch.same .sram) _, hend.touch.same .stations, hend.touch.same .parts, hend.touch.same .engines⟩

theorem takeover_causes (now : Nat) (s : State) (hs : s.bit .GCTL_MGR_STANDBY 0 = true) :
    (∃ t, exec (.heartbeatLoss now) s = .next t ∧ t.getF .GCTL_MGR_CAUSE 0 = 1) ∧
      (∃ t, exec (.mgrWatchdog now) s = .next t ∧ t.getF .GCTL_MGR_CAUSE 0 = 2) ∧
      (∃ t, exec (.mgrMemoryError now) s = .next t ∧ t.getF .GCTL_MGR_CAUSE 0 = 3) ∧
      (∃ t, exec (.switch now) s = .next t ∧ t.getF .GCTL_MGR_CAUSE 0 = 4) := by
  have hs' : (s.advance now).bit .GCTL_MGR_STANDBY 0 = true := hs
  have hswitch : exec (.switch now) s = if (s.advance now).bit .GCTL_MGR_STANDBY 0 = true then .next ((s.advance now).takeover 4)
    else .next (s.advance now) := rfl
  rw [if_pos hs'] at hswitch
  exact ⟨⟨_, rfl, (State.takeover_spec hs' (by decide)).1⟩, ⟨_, rfl, (State.takeover_spec hs' (by decide)).1⟩,
    ⟨_, rfl, (State.takeover_spec hs' (by decide)).1⟩, ⟨_, hswitch, (State.takeover_spec hs' (by decide)).1⟩⟩

/-- Each of the four causes is a takeover, with the standby ready. -/
theorem exec_takeover (now : Nat) (s : State) (c : Instr)
    (hc : c = .heartbeatLoss now ∨ c = .mgrWatchdog now ∨ c = .mgrMemoryError now ∨ c = .switch now)
    (hs : s.bit .GCTL_MGR_STANDBY 0 = true) : ∃ n, n < 8 ∧ exec c s = .next ((s.advance now).takeover n) := by
  rcases hc with rfl | rfl | rfl | rfl
  · exact ⟨1, by decide, rfl⟩
  · exact ⟨2, by decide, rfl⟩
  · exact ⟨3, by decide, rfl⟩
  · have hs' : (s.advance now).bit .GCTL_MGR_STANDBY 0 = true := hs
    have hswitch : exec (.switch now) s = if (s.advance now).bit .GCTL_MGR_STANDBY 0 = true then .next ((s.advance now).takeover 4)
      else .next (s.advance now) := rfl
    exact ⟨4, by decide, hswitch.trans (if_pos hs')⟩

theorem takeover_ready (now : Nat) (s : State) (c : Instr)
    (hc : c = .heartbeatLoss now ∨ c = .mgrWatchdog now ∨ c = .mgrMemoryError now ∨ c = .switch now)
    (hs : s.bit .GCTL_MGR_STANDBY 0 = true) :
    ∃ t, exec c s = .next t ∧ t.getF .GCTL_MGR_ACTIVE 0 = 1 - s.getF .GCTL_MGR_ACTIVE 0 ∧
      t.getF .GCTL_MGR_STANDBY 0 = 0 ∧ t.getF .GCTL_MGR_TAKEOVERS 0 = min (s.getF .GCTL_MGR_TAKEOVERS 0 + 1) 255 ∧
      (∀ f, (t.fnst f).entries = []) ∧ t.loading = [] ∧ (∀ l, l ∈ s.loading → t.part l.fn = none) ∧ t.cells = s.cells ∧
      (s.loading = [] → KeepsBytes s t nowhere ∧ t.stations = s.stations ∧ t.parts = s.parts ∧ t.engines = s.engines) := by
  obtain ⟨n, hn, hrow⟩ := exec_takeover now s c hc hs
  exact ⟨_, hrow, (State.takeover_spec (s := s.advance now) hs hn).2⟩

theorem takeover_unready (now : Nat) (s : State) (hs : s.bit .GCTL_MGR_STANDBY 0 = false) :
    exec (.switch now) s = .next (s.advance now) ∧ exec (.heartbeatLoss now) s = .next ((s.advance now).dieReset 3) ∧
      exec (.mgrWatchdog now) s = .next ((s.advance now).dieReset 3) ∧
      exec (.mgrMemoryError now) s = .next ((s.advance now).dieReset 3) := by
  have hs' : (s.advance now).bit .GCTL_MGR_STANDBY 0 = false := hs
  have hreset (n : Nat) : (s.advance now).takeover n = (s.advance now).dieReset 3 := by
    rw [State.takeover_eq, hs']
    rfl
  have hswitch : exec (.switch now) s = if (s.advance now).bit .GCTL_MGR_STANDBY 0 = true then .next ((s.advance now).takeover 4)
    else .next (s.advance now) := rfl
  exact ⟨hswitch.trans (if_neg (Bool.eq_false_iff.mp hs')), congrArg Host.Outcome.next (hreset 1),
    congrArg Host.Outcome.next (hreset 2), congrArg Host.Outcome.next (hreset 3)⟩

theorem standbyReady_spec (now : Nat) (s : State) :
    (6 ≤ s.getF .GCTL_START_STEP 0 → exec (.mgrStandbyReady now) s = .next ((s.advance now).setF .GCTL_MGR_STANDBY 0 1)) ∧
      (s.getF .GCTL_START_STEP 0 < 6 → exec (.mgrStandbyReady now) s = .next (s.advance now)) := by
  have hrow : exec (.mgrStandbyReady now) s = if 6 ≤ s.getF .GCTL_START_STEP 0 then
    .next ((s.advance now).setF .GCTL_MGR_STANDBY 0 1) else .next (s.advance now) := rfl
  exact ⟨fun h => hrow.trans (if_pos h), fun h => hrow.trans (if_neg (Nat.not_le.mpr h))⟩

/-! ### Rails (R453) -/

theorem State.freeToken_held (s : State) (pe : Nat) : (s.freeToken pe).tokenHeld = s.tokenHeld.erase pe := by
  unfold State.freeToken
  extract_lets more u
  split
  · unfold State.askToken
    split <;> rfl
  · rfl

theorem foldl_freeToken_held (l : List Nat) (s : State) (h : s.tokenHeld = l) : (l.foldl State.freeToken s).tokenHeld = [] := by
  induction l generalizing s with
  | nil => exact h
  | cons a l ih =>
    refine ih (s.freeToken a) ?_
    rw [State.freeToken_held, h, List.erase_cons_head]

theorem State.pgmFails_spec (s : State) : s.pgmFails.pgmFault = true ∧ s.pgmFails.tokenHeld = [] ∧ s.pgmFails.tokenPool = 0 ∧
    s.pgmFails.getF .PWR_STAT_POOL 0 = 0 := by
  unfold State.pgmFails
  extract_lets u
  have hw : Within ⟨[.tokenHeld, .tokenWait], []⟩ { u with pgmFault := true }
      (u.tokenHeld.foldl State.freeToken { u with pgmFault := true }) := Within.foldl _ (fun _ _ => State.freeToken_within ..) _ _
  have hheld := foldl_freeToken_held u.tokenHeld { u with pgmFault := true } rfl
  have hfault : (u.tokenHeld.foldl State.freeToken { u with pgmFault := true }).pgmFault = true := hw.touch.same .pgmFault
  generalize u.tokenHeld.foldl State.freeToken { u with pgmFault := true } = w at hheld hfault ⊢
  have hp := w.poolNow_within
  have hpool : w.poolNow.tokenPool = 0 := by
    rw [State.poolNow_pool, hfault]
    rfl
  exact ⟨(show w.poolNow.pgmFault = w.pgmFault from hp.touch.same .pgmFault).trans hfault,
    (show w.poolNow.tokenHeld = w.tokenHeld from hp.touch.same .tokenHeld).trans hheld, hpool, w.poolNow_stat.trans hpool⟩

/-- VDD_PGM: the regulator's fault, when a slot supplies that rail, and the event. -/
def State.pgmRaises (s : State) (slot : Option Nat) : State :=
  (match slot with | some n => s.setF .PWR_REG_STAT_FAULT n 1 | none => s).raise 0x105 0xFF 0xFF (slot.getD 0xFF) 0xFFFF []

theorem State.pgmRaises_within (s : State) (slot : Option Nat) :
    Within ⟨.regs :: State.raiseWrites.parts, [.PWR_REG_STAT_FAULT]⟩ s (s.pgmRaises slot) := by
  unfold State.pgmRaises
  cases slot with
  | none => exact (State.raise_within ..).mono
  | some n => exact (State.raise_within ..).after ((State.setF_within ..).mono)

theorem rail_vddPgm (now : Nat) (s : State) : ∃ t, exec (.railUndervoltage now .vddPgm) s = .next t ∧ t.pgmFault = true ∧
    t.tokenHeld = [] ∧ t.tokenPool = 0 ∧ t.getF .PWR_STAT_POOL 0 = 0 ∧ t.cells = s.cells ∧ KeepsBytes s t nowhere := by
  have hrow : exec (.railUndervoltage now .vddPgm) s = .next ((s.advance now).pgmRaises ((List.range 6).find?
    (fun n => (s.advance now).bit .PWR_REG_VALID n && (s.advance now).getF .PWR_REG_RAIL n == 2))).pgmFails := rfl
  generalize (List.range 6).find? _ = slot at hrow
  have hr := (s.advance now).pgmRaises_within slot
  generalize (s.advance now).pgmRaises slot = u at hrow hr
  have hp := u.pgmFails_within
  obtain ⟨hfault, hheld, hpool, hstat⟩ := u.pgmFails_spec
  exact ⟨_, hrow, hfault, hheld, hpool, hstat,
    (show _ = u.cells from hp.touch.same .cells).trans (hr.touch.same .cells),
    .of_sram_eq ((show _ = u.sram from hp.touch.same .sram).trans (hr.touch.same .sram)) _⟩

theorem rail_vddWio (now : Nat) (s : State) : ∃ t, exec (.railUndervoltage now .vddWio) s = .next t ∧ t.wioDown = true ∧
    KeepsBytes s t nowhere ∧ t.cells = s.cells ∧ t.parts = s.parts := by
  have hw := State.wioSettle_within { s.advance now with wioDown := true } (s.advance now)
  exact ⟨_, rfl, hw.touch.same .wioDown, .of_sram_eq (hw.touch.same .sram) _, hw.touch.same .cells, hw.touch.same .parts⟩

theorem rail_other (now : Nat) (s : State) (r : Rail) (hr : r = .vddCore ∨ r = .vddAna ∨ r = .serdes) :
    ∃ t, exec (.railUndervoltage now r) s = .next t ∧ t.parts = [] ∧ t.sram = [] ∧ t.cells = s.cells := by
  have hrow : exec (.railUndervoltage now r) s = .next ((s.advance now).dieReset 1) := by
    rcases hr with rfl | rfl | rfl <;> rfl
  have hlost := (s.advance now).dieReset_lost 1
  exact ⟨_, hrow, hlost.parts, hlost.sram, hlost.cells⟩

/-- The watch and position inputs stand again from now on: filters and judgements start anew. -/
def State.wioBack (s : State) : State :=
  { s with
    wioDown := false
    wins := s.wins.map (fun e => (e.1, { e.2 with differ := e.2.differ.map (fun _ => s.time), safe := e.2.safe.map (fun _ => s.time) })) }

theorem railReturn_spec (now : Nat) (s : State) :
    (s.wioDown = true → ∃ t, exec (.railReturn now) s = .next t ∧ t.wioDown = false ∧
      KeepsBytes s t nowhere ∧ t.cells = s.cells ∧ t.parts = s.parts) ∧
      (s.wioDown = false → exec (.railReturn now) s = .next (s.advance now)) := by
  have hrow : exec (.railReturn now) s = if !s.wioDown then .next (s.advance now) else
    .next ((s.advance now).wioBack.wioSettle (s.advance now)) := rfl
  refine ⟨fun h => ?_, fun h => hrow.trans (by rw [h]; rfl)⟩
  have hw := State.wioSettle_within (s.advance now).wioBack (s.advance now)
  rw [h] at hrow
  exact ⟨_, hrow, hw.touch.same .wioDown, .of_sram_eq (hw.touch.same .sram) _, hw.touch.same .cells, hw.touch.same .parts⟩

/-- Settles O54: a takeover voids the entries and the loads that no checkpoint holds, and each rail takes what R453 says. -/
theorem takeoverAndRails : Obligations.TakeoverAndRails :=
  ⟨⟨takeover_causes, takeover_ready, takeover_unready, standbyReady_spec⟩,
    fun _ _ => rfl, rail_vddPgm, rail_vddWio, rail_other, railReturn_spec⟩

end Sys2Proof.Machine
end

section
/-!
PROOF. Slot states, carried tiles and the tile mover (R221 to R223, O26).
-/

set_option Elab.async false

namespace Sys2Proof.Machine
open Sys2Proof

/-! ### Slot states -/

theorem Within.slot {w : Writes} {s t : State} (h : Within w s t) (r : SlotRef)
    (hk : w.flds.contains .KMC_SLOT_STATE = false := by decide) (hc : w.flds.contains .CMC_SLOT_STATE = false := by decide) :
    t.slot r = s.slot r := by
  unfold State.slot
  rw [h.getF _ _ hk, h.getF _ _ hc]

theorem Within.slotAddr {w : Writes} {s t : State} (h : Within w s t) (r : SlotRef)
    (hk : w.flds.contains .KMC_SLOT_BASE = false := by decide) (hc : w.flds.contains .CMC_SLOT_BASE = false := by decide) :
    t.slotAddr r = s.slotAddr r := by
  unfold State.slotAddr
  rw [h.getF _ _ hk, h.getF _ _ hc]

theorem Within.torn {w : Writes} {s t : State} (h : Within w s t) (r : SlotRef)
    (hk : w.flds.contains .KMC_SLOT_TORN = false := by decide) (hc : w.flds.contains .CMC_SLOT_TORN = false := by decide) :
    t.torn r = s.torn r := by
  unfold State.torn
  rw [h.bit _ _ hk, h.bit _ _ hc]

theorem Within.ringOf {w : Writes} {s t : State} (h : Within w s t) (r : SlotRef) (hw : w.parts.contains .rings = false := by decide) :
    t.ringOf r = s.ringOf r := by
  unfold State.ringOf
  rw [show t.rings = s.rings from h.touch.same .rings hw]

theorem State.slot_setSlot_same (s : State) (r : SlotRef) {v : Nat} (hv : v < 8) : (s.setSlot r v).slot r = v := by
  unfold State.slot State.setSlot
  cases r.km
  · exact (s.getF_setF_same .CMC_SLOT_STATE r.inst v).trans (Nat.mod_eq_of_lt hv)
  · exact (s.getF_setF_same .KMC_SLOT_STATE r.inst v).trans (Nat.mod_eq_of_lt hv)

/-- Slots of different memories, or with different entries, have different states. -/
theorem State.slot_setSlot_ne (s : State) {r q : SlotRef} (v : Nat) (h : r.km ≠ q.km ∨ r.inst ≠ q.inst) :
    (s.setSlot r v).slot q = s.slot q := by
  unfold State.slot State.setSlot
  cases hr : r.km <;> cases hq : q.km
  · exact s.getF_setF_ne v (fun hc => (h.resolve_left (by simp [hr, hq])) hc.2)
  · exact s.getF_setF_ne v (fun hc => by cases hc.1)
  · exact s.getF_setF_ne v (fun hc => by cases hc.1)
  · exact s.getF_setF_ne v (fun hc => (h.resolve_left (by simp [hr, hq])) hc.2)

/-- A bit that is written reads as written. -/
theorem State.bit_setB_same (s : State) (f : Fld) (i : Nat) (v : Bool) (hf : 0 < f.width) : (s.setB f i v).bit f i = v := by
  unfold State.bit
  rw [State.setB_def, State.getF_setF_same, Nat.mod_eq_of_lt ((Bool.toNat_lt v).trans_le (Nat.pow_le_pow_right (n := 2) (by decide) hf))]
  cases v <;> rfl

theorem State.torn_setTorn_same (s : State) (r : SlotRef) (v : Bool) : (s.setTorn r v).torn r = v := by
  unfold State.torn State.setTorn
  cases r.km
  · exact s.bit_setB_same .CMC_SLOT_TORN r.inst v (by decide)
  · exact s.bit_setB_same .KMC_SLOT_TORN r.inst v (by decide)

/-- A slot that is filled is Full, unless its ring owes the tile to a consumer that has skipped it. -/
theorem State.fillSlot_slot {s : State} {r : SlotRef} (h : ∀ g, s.ringOf r = some g → (s.ring g).owed = []) : s.fillSlot r = s.setSlot r 2 := by
  unfold State.fillSlot
  split
  next g hg =>
    dsimp only
    rw [h g hg]
    rfl
  next => rfl

/-! ### Copies of bytes under error correction -/

theorem State.length_bytes (s : State) (a n : Nat) : (s.bytes a n).length = n := (List.length_map ..).trans List.length_range

theorem State.moveWord_keepsBytes (master : Nat) (s : State) (d w : Nat) :
    KeepsBytes s (State.moveWord master s d w) (fun j => decide (8 * d ≤ j ∧ j < 8 * d + 8)) := by
  unfold State.moveWord
  extract_lets u bs
  have hu : KeepsBytes s u (fun j => decide (8 * d ≤ j ∧ j < 8 * d + 8)) := .of_sram_eq ((State.readWordEcc_within ..).touch.same .sram) _
  have hlen : bs.length = 8 := State.length_bytes ..
  split
  · exact hu.trans (fun j hj => (u.byte_setBytes (8 * d) bs j).trans (if_neg (hlen ▸ of_decide_eq_false hj)))
  · exact hu.trans (fun j hj => State.writeWord_keepsBytes u master d (8 * d) bs j (hlen ▸ hj))

theorem State.moveBytes_keepsBytes (s : State) (master dst src n : Nat) :
    KeepsBytes s (s.moveBytes master dst src n) (fun j => decide (8 * (dst / 8) ≤ j ∧ j < 8 * (dst / 8 + n / 8))) := by
  unfold State.moveBytes
  refine List.foldlRecOn (motive := fun t => KeepsBytes s t _) (List.range (n / 8)) _ (KeepsBytes.refl s _) (fun t ht k hk => ?_)
  refine ht.trans fun j hj => State.moveWord_keepsBytes master t _ _ j (decide_eq_false fun hin => of_decide_eq_false hj ?_)
  have hk' := List.mem_range.mp hk
  omega

theorem State.tileLen_ge (s : State) (r : SlotRef) : 64 ≤ s.tileLen r := by
  unfold State.tileLen
  split <;> omega

/-- A tile that is carried writes the bytes of its new slot alone. -/
theorem State.carry_keepsBytes (s : State) (master : Nat) (dst src : SlotRef) :
    KeepsBytes s (s.carry master dst src).1 (fun a => s.slotAddr dst ≤ a && a < s.slotAddr dst + s.tileLen src) := by
  have hlen := s.tileLen_ge src
  unfold State.carry
  extract_lets a b n bad u v hd flags w
  have hu : KeepsBytes s u (fun j => b ≤ j && j < b + n) := fun j hj =>
    s.moveBytes_keepsBytes master (b + 64) (a + 64) (n - 64) j (decide_eq_false fun hin => by
      have hno := of_decide_eq_false ((Bool.decide_and ..).trans hj)
      omega)
  have hv : KeepsBytes u v (fun j => b ≤ j && j < b + n) := .of_sram_eq ((State.readEcc_within ..).touch.same .sram) _
  have hw : KeepsBytes v w.1 (fun j => b ≤ j && j < b + n) := fun j hj =>
    (v.writeMem_spec master (fun _ => false) b _).1 j (decide_eq_false fun hin => by
      have hno := of_decide_eq_false ((Bool.decide_and ..).trans hj)
      have hl : (hd.set 0x1F (if bad then flags ||| 2#8 else flags)).length = 64 := (List.length_set ..).trans (State.length_bytes ..)
      omega)
  exact hu.trans (hv.trans (hw.trans (.of_sram_eq ((State.setTorn_within ..).touch.same .sram) _)))

/-! ### TMV_TRANSFER (R221, R222) -/

theorem Tmv.mem_queued_queue {m : Tmv} {l : List Xfer} {x : Xfer} (h : x ∉ l) : x ∉ (m.queued l).queue :=
  fun hx => h (List.mem_of_mem_take hx)

theorem Tmv.mem_queued_all {m : Tmv} {l : List Xfer} {x : Xfer} (h : x ∈ l) : x ∈ (m.queued l).all := by
  unfold Tmv.all Tmv.queued
  rw [List.take_append_drop]
  exact h

theorem State.tmvRefuse_spec (s : State) (core : Nat) (m : Tmv) (x : Xfer) :
    x ∉ ((s.tmvRefuse core m x).tmv core).queue ∧ (s.tmvRefuse core m x).slot x.src = 2 ∧
      { x with slot := none } ∈ ((s.tmvRefuse core m x).tmv core).refused ∧
      (s.tmvRefuse core m x).getF .TMV_ERR_COUNT core = min (s.getF .TMV_ERR_COUNT core + 1) (2 ^ Fld.TMV_ERR_COUNT.width - 1) := by
  unfold State.tmvRefuse
  extract_lets m2
  generalize hu : s.setTmv core (m2.queued (m.all.filter (fun y => y != x))) = u
  have hw : Within ⟨[.tmvs], []⟩ s u := hu ▸ State.setTmv_within ..
  have htmv : ((u.setSlot x.src 2).addHold .TMV_ERR_COUNT core 1).tmv core = m2.queued (m.all.filter (fun y => y != x)) := by
    have hend : Within ⟨[.regs], [.CMC_SLOT_STATE, .KMC_SLOT_STATE, .TMV_ERR_COUNT]⟩ u ((u.setSlot x.src 2).addHold .TMV_ERR_COUNT core 1) :=
      (State.addHold_within ..).after ((State.setSlot_within ..).mono)
    rw [hend.touch.tmv core, ← hu, State.tmv_setTmv_same]
  refine ⟨?_, ((State.addHold_within ..).slot _).trans (u.slot_setSlot_same _ (by decide)), ?_, ?_⟩
  · rw [htmv]
    exact Tmv.mem_queued_queue (fun hx => by simpa using (List.mem_filter.mp hx).2)
  · rw [htmv]
    exact List.mem_append_right _ List.mem_cons_self
  · refine ((u.setSlot x.src 2).getF_addHold .TMV_ERR_COUNT core 1).trans ?_
    rw [(State.setSlot_within ..).getF _ _, hw.getF _ _]

/-- What TMV_TRANSFER does with the transfer that is next. -/
theorem execTmvTransfer_eq {now : Nat} {cl : Cluster} {co : Core} {s : State} {x : Xfer} (hon : s.coreOn (coreIx cl co) = true)
    (hcur : (s.tmv (coreIx cl co)).cur = none)
    (hx : (s.tmv (coreIx cl co)).queue.find? (fun y => !((s.advance now).behindRefused (s.tmv (coreIx cl co)) y)) = some x) :
    exec (.tmvTransfer now cl co) s =
      if !(s.slotOn (s.nextWr x.dst)) then .next ((s.advance now).tmvRefuse (coreIx cl co) (s.tmv (coreIx cl co)) x)
      else if !(s.ownsAll x.owner (s.slotAddr (s.nextWr x.dst)) (s.ring x.dst).size) then
        .next (((s.advance now).tmvRefuse (coreIx cl co) (s.tmv (coreIx cl co)) x).foreignCapture x.owner (s.slotAddr (s.nextWr x.dst)))
      else if s.slot (s.nextWr x.dst) = 0 then
        .next (((((s.advance now).setSlot (s.nextWr x.dst) 1).stepWr x.dst).setSlot x.src 3).setTmv (coreIx cl co)
          ({ s.tmv (coreIx cl co) with cur := some { x with slot := some (s.nextWr x.dst), start := max s.time now } }.queued
            ((s.tmv (coreIx cl co)).all.filter (fun z => z != x))))
      else .next (s.advance now) := by
  have hrow : exec (.tmvTransfer now cl co) s = execTmvTransfer now cl co s := rfl
  rw [hrow]
  unfold execTmvTransfer
  extract_lets u core m
  have hcur' : m.cur = none := hcur
  have hx' : m.queue.find? (fun y => !(u.behindRefused m y)) = some x := hx
  have hon' : u.coreOn core = true := hon
  simp only [hcur', hx', hon']
  rfl

theorem tmvTransfer_starts (now : Nat) (cl : Cluster) (co : Core) (s : State) (x : Xfer) (hon : s.coreOn (coreIx cl co) = true)
    (hcur : (s.tmv (coreIx cl co)).cur = none)
    (hx : (s.tmv (coreIx cl co)).queue.find? (fun y => !((s.advance now).behindRefused (s.tmv (coreIx cl co)) y)) = some x)
    (hslot : s.slotOn (s.nextWr x.dst) = true)
    (howns : s.ownsAll x.owner (s.slotAddr (s.nextWr x.dst)) (s.ring x.dst).size = true) (hempty : s.slot (s.nextWr x.dst) = 0) :
    exec (.tmvTransfer now cl co) s =
      .next (((((s.advance now).setSlot (s.nextWr x.dst) 1).stepWr x.dst).setSlot x.src 3).setTmv (coreIx cl co)
        ({ s.tmv (coreIx cl co) with cur := some { x with slot := some (s.nextWr x.dst), start := max s.time now } }.queued
          ((s.tmv (coreIx cl co)).all.filter (fun z => z != x)))) := by
  rw [execTmvTransfer_eq hon hcur hx, hslot, howns, if_neg (by decide), if_neg (by decide), if_pos hempty]

theorem tmvTransfer_refused (now : Nat) (cl : Cluster) (co : Core) (s : State) (x : Xfer) (hon : s.coreOn (coreIx cl co) = true)
    (hcur : (s.tmv (coreIx cl co)).cur = none)
    (hx : (s.tmv (coreIx cl co)).queue.find? (fun y => !((s.advance now).behindRefused (s.tmv (coreIx cl co)) y)) = some x)
    (h : s.slotOn (s.nextWr x.dst) = false ∨ s.ownsAll x.owner (s.slotAddr (s.nextWr x.dst)) (s.ring x.dst).size = false) :
    ∃ t, exec (.tmvTransfer now cl co) s = .next t ∧ x ∉ (t.tmv (coreIx cl co)).queue ∧ t.slot x.src = 2 ∧
      { x with slot := none } ∈ (t.tmv (coreIx cl co)).refused ∧
      t.getF .TMV_ERR_COUNT (coreIx cl co) = min (s.getF .TMV_ERR_COUNT (coreIx cl co) + 1) (2 ^ Fld.TMV_ERR_COUNT.width - 1) ∧
      KeepsBytes s t nowhere := by
  rw [execTmvTransfer_eq hon hcur hx]
  obtain ⟨hqueue, hsrc, hrefused, hcount⟩ := (s.advance now).tmvRefuse_spec (coreIx cl co) (s.tmv (coreIx cl co)) x
  have hw := (s.advance now).tmvRefuse_within (coreIx cl co) (s.tmv (coreIx cl co)) x
  generalize (s.advance now).tmvRefuse (coreIx cl co) (s.tmv (coreIx cl co)) x = u at hqueue hsrc hrefused hcount hw ⊢
  have hbytes : KeepsBytes s u nowhere := .of_sram_eq (hw.touch.same .sram) _
  cases hslot : s.slotOn (s.nextWr x.dst) with
  | false => exact ⟨u, rfl, hqueue, hsrc, hrefused, hcount, hbytes⟩
  | true =>
    have howns := h.resolve_left (by rw [hslot]; decide)
    have hc := u.foreignCapture_within x.owner (s.slotAddr (s.nextWr x.dst))
    rw [if_neg (by decide), howns, if_pos (by decide : (!false) = true)]
    refine ⟨_, rfl, ?_, (hc.slot _).trans hsrc, ?_, (hc.getF _ _).trans hcount, hbytes.trans (.of_sram_eq (hc.touch.same .sram) _)⟩
    · rw [hc.touch.tmv]
      exact hqueue
    · rw [hc.touch.tmv]
      exact hrefused

/-! ### TMV_TRANSFER_DONE and TMV_RETRY (R222, R223) -/

/-- What follows the copy of a tile. -/
def State.tmvEnds (s : State) (core : Nat) (m : Tmv) (r src : SlotRef) : State :=
  (((s.fillSlot r).setTorn src false).emptySlot src).setTmv core { m with cur := none }

/-- The state with the tile copied, and a detected error counted. -/
def State.tmvCopied (s : State) (core : Nat) (owner : Nat) (r src : SlotRef) : State :=
  if (s.carry (fnMaster owner) r src).2 then (s.carry (fnMaster owner) r src).1.addHold .TMV_ERR_COUNT core 1
  else (s.carry (fnMaster owner) r src).1

theorem State.tmvCopied_within (s : State) (core owner : Nat) (r src : SlotRef) :
    Within ⟨State.carryWrites.parts, .TMV_ERR_COUNT :: State.carryWrites.flds⟩ s (s.tmvCopied core owner r src) := by
  unfold State.tmvCopied
  exact Within.ite _ ((State.addHold_within ..).after ((State.carry_within ..).mono)) ((State.carry_within ..).mono)

theorem State.tmvCopied_keepsBytes (s : State) (core owner : Nat) (r src : SlotRef) :
    KeepsBytes s (s.tmvCopied core owner r src) (fun a => s.slotAddr r ≤ a && a < s.slotAddr r + s.tileLen src) := by
  unfold State.tmvCopied
  split
  · exact KeepsBytes.trans (t := (s.carry (fnMaster owner) r src).1) (s.carry_keepsBytes (fnMaster owner) r src)
      (.of_sram_eq ((State.addHold_within ..).touch.same .sram) _)
  · exact s.carry_keepsBytes (fnMaster owner) r src

theorem State.tmvEnds_spec (s : State) (core : Nat) (m : Tmv) (r src : SlotRef) :
    ((s.tmvEnds core m r src).tmv core).cur = none ∧ ((s.tmvEnds core m r src).tmv core).queue = m.queue ∧
      (s.tmvEnds core m r src).slot src = (if ((s.tmvEnds core m r src).ringOf src).isSome then 0 else 4) ∧
      (s.tmvEnds core m r src).torn src = false ∧
      ((src.km ≠ r.km ∨ src.inst ≠ r.inst) → (∀ h, s.ringOf r = some h → (s.ring h).owed = []) → (s.tmvEnds core m r src).slot r = 2) ∧
      Within ⟨.tmvs :: State.fillSlotWrites.parts, .CMC_SLOT_TORN :: .KMC_SLOT_TORN :: State.fillSlotWrites.flds⟩ s (s.tmvEnds core m r src) := by
  unfold State.tmvEnds
  have hf := s.fillSlot_within r
  have hfill (h : ∀ g, s.ringOf r = some g → (s.ring g).owed = []) : (s.fillSlot r).slot r = 2 := by
    rw [State.fillSlot_slot h]
    exact s.slot_setSlot_same r (by decide)
  generalize s.fillSlot r = u at hf hfill ⊢
  have hv : Within ⟨[.regs], [.CMC_SLOT_TORN, .KMC_SLOT_TORN]⟩ u (u.setTorn src false) := State.setTorn_within ..
  have htorn := u.torn_setTorn_same src false
  generalize u.setTorn src false = v at hv htorn ⊢
  have he : Within ⟨[.regs], [.CMC_SLOT_STATE, .KMC_SLOT_STATE]⟩ v (v.emptySlot src) := State.emptySlot_within ..
  have hsrc : (v.emptySlot src).slot src = if (v.ringOf src).isSome then 0 else 4 := v.slot_setSlot_same src (by split <;> decide)
  have hother (h : src.km ≠ r.km ∨ src.inst ≠ r.inst) : (v.emptySlot src).slot r = v.slot r := v.slot_setSlot_ne _ h
  generalize v.emptySlot src = w at he hsrc hother ⊢
  have hm : Within ⟨[.tmvs], []⟩ w (w.setTmv core { m with cur := none }) := State.setTmv_within ..
  have htmv : (w.setTmv core { m with cur := none }).tmv core = { m with cur := none } := w.tmv_setTmv_same core { m with cur := none }
  generalize w.setTmv core { m with cur := none } = z at hm htmv ⊢
  refine ⟨by rw [htmv], by rw [htmv], ?_, (hm.torn _).trans ((he.torn _).trans htorn), fun hne howed => ?_,
    hm.after (he.after (hv.after hf.mono))⟩
  · rw [hm.slot, hsrc, hm.ringOf, he.ringOf]
  · rw [hm.slot, hother hne, hv.slot, hfill howed]

theorem tmvTransferDone_spec (now : Nat) (cl : Cluster) (co : Core) (s : State) (x : Xfer) (hon : s.coreOn (coreIx cl co) = true)
    (q : SlotRef) (hcur : (s.tmv (coreIx cl co)).cur = some x) (hslot : x.slot = some q) (hq : s.slotOn q = true) :
    ∃ t, exec (.tmvTransferDone now cl co) s = .next t ∧ (t.tmv (coreIx cl co)).cur = none ∧
      (t.tmv (coreIx cl co)).queue = (s.tmv (coreIx cl co)).queue ∧
      t.slot x.src = (if (t.ringOf x.src).isSome then 0 else 4) ∧ t.torn x.src = false ∧
      ((x.src.km ≠ q.km ∨ x.src.inst ≠ q.inst) → (∀ h, s.ringOf q = some h → (s.ring h).owed = []) → t.slot q = 2) ∧
      t.cells = s.cells ∧ t.stations = s.stations ∧
      KeepsBytes s t (fun a => s.slotAddr q ≤ a && a < s.slotAddr q + s.tileLen x.src) := by
  have hrow : exec (.tmvTransferDone now cl co) s =
      .next (((s.advance now).tmvCopied (coreIx cl co) x.owner q x.src).tmvEnds (coreIx cl co) (s.tmv (coreIx cl co)) q x.src) := by
    have hexec : exec (.tmvTransferDone now cl co) s = execTmvTransferDone now cl co s := rfl
    rw [hexec]
    unfold execTmvTransferDone
    extract_lets u core m
    have hcur' : m.cur = some x := hcur
    have hbind : (some x).bind (fun x => x.slot) = some q := hslot
    have hcond : (u.coreOn core && u.slotOn q) = true := Bool.and_eq_true_iff.mpr ⟨hon, hq⟩
    simp only [hcur', hbind, hcond]
    rfl
  have hc := (s.advance now).tmvCopied_within (coreIx cl co) x.owner q x.src
  have hbytes := (s.advance now).tmvCopied_keepsBytes (coreIx cl co) x.owner q x.src
  generalize (s.advance now).tmvCopied (coreIx cl co) x.owner q x.src = u at hrow hc hbytes
  obtain ⟨hidle, hqueue, hsrc, htorn, hfull, he⟩ := u.tmvEnds_spec (coreIx cl co) (s.tmv (coreIx cl co)) q x.src
  generalize u.tmvEnds (coreIx cl co) (s.tmv (coreIx cl co)) q x.src = t at hrow hidle hqueue hsrc htorn hfull he
  refine ⟨t, hrow, hidle, hqueue, hsrc, htorn, fun hne howed => hfull hne (fun h hr => ?_), ?_, ?_, ?_⟩
  · unfold State.ring
    rw [show u.rings = s.rings from hc.touch.same .rings]
    exact howed h ((hc.ringOf q).symm.trans hr)
  · exact (show t.cells = u.cells from he.touch.same .cells).trans (hc.touch.same .cells)
  · exact (show t.stations = u.stations from he.touch.same .stations).trans (hc.touch.same .stations)
  · exact KeepsBytes.trans (t := u) hbytes (.of_sram_eq (he.touch.same .sram) _)

theorem tmvRetry_spec (now : Nat) (cl : Cluster) (co : Core) (s : State) (x : Xfer) (hon : s.coreOn (coreIx cl co) = true)
    (hx : (s.tmv (coreIx cl co)).refused.find? (fun y => s.slotOn (s.nextWr y.dst) && s.slot (s.nextWr y.dst) == 0) = some x) :
    ∃ t, exec (.tmvRetry now cl co) s = .next t ∧ x ∈ (t.tmv (coreIx cl co)).all ∧ x ∉ (t.tmv (coreIx cl co)).refused ∧
      t = { s.advance now with tmvs := t.tmvs } := by
  have hrow : ∃ before rest, exec (.tmvRetry now cl co) s = .next ((s.advance now).setTmv (coreIx cl co)
      ({ s.tmv (coreIx cl co) with refused := (s.tmv (coreIx cl co)).refused.filter (fun y => y != x) }.queued (before ++ [x] ++ rest))) := by
    have hexec : exec (.tmvRetry now cl co) s = execTmvRetry now cl co s := rfl
    rw [hexec]
    unfold execTmvRetry
    extract_lets u core m
    have hx' : m.refused.find? (fun x => u.slotOn (u.nextWr x.dst) && u.slot (u.nextWr x.dst) == 0) = some x := hx
    have hon' : u.coreOn core = true := hon
    simp only [hx', hon']
    exact ⟨_, _, rfl⟩
  obtain ⟨before, rest, hrow⟩ := hrow
  refine ⟨_, hrow, ?_, ?_, rfl⟩
  · rw [State.tmv_setTmv_same]
    exact Tmv.mem_queued_all (by simp)
  · rw [State.tmv_setTmv_same]
    exact fun hmem => by simpa using (List.mem_filter.mp hmem).2

/-- Settles O26: the tile mover starts, ends, refuses and retries as R221 to R223 say. -/
theorem tileMover : Obligations.TileMover := by
  intro now cl co s x core m r hon
  exact ⟨fun hcur hx => ⟨tmvTransfer_starts now cl co s x hon hcur hx, tmvTransfer_refused now cl co s x hon hcur hx⟩,
    fun q => tmvTransferDone_spec now cl co s x hon q, tmvRetry_spec now cl co s x hon⟩

end Sys2Proof.Machine
end

section
/-!
PROOF. Parking, migration requests and drains (R199, R203, R208, R211, O25).
-/

set_option Elab.async false

namespace Sys2Proof.Machine
open Sys2Proof

/-! ### STATION_PARK (R199, R203) -/

/-- Only the record of who fired a station differs. -/
structure FirerOnly (st : Nat) (s t : State) : Prop where
  own : ∃ f, t.station st = { s.station st with firer := f }
  other (n : Nat) (h : n ≠ st) : t.station n = s.station n

theorem FirerOnly.of_stations_eq {st : Nat} {s t : State} (h : t.stations = s.stations) : FirerOnly st s t := by
  have hstation (n : Nat) : t.station n = s.station n := by
    unfold State.station
    rw [h]
  exact ⟨⟨(s.station st).firer, hstation st⟩, fun n _ => hstation n⟩

theorem FirerOnly.trans {st : Nat} {s t u : State} (h : FirerOnly st s t) (k : FirerOnly st t u) : FirerOnly st s u := by
  obtain ⟨f, hf⟩ := h.own
  obtain ⟨g, hg⟩ := k.own
  exact ⟨⟨g, by rw [hg, hf]⟩, fun n hn => (k.other n hn).trans (h.other n hn)⟩

theorem FirerOnly.setFirer (s : State) (st : Nat) (f : Option (Nat × Nat × Nat)) : FirerOnly st s (s.setStation st { s.station st with firer := f }) :=
  ⟨⟨f, s.station_setStation_same st { s.station st with firer := f }⟩, fun _ hn => s.station_setStation_ne st _ (Ne.symm hn)⟩

theorem State.revokeFires_spec (s : State) (st : Nat) :
    FirerOnly st s (s.revokeFires st) ∧
      (s.revokeFires st).flights =
        s.flights.filter (fun f => !(f.station == st && f.at_ == s.time + 8 + 4 * hops f.cl (s.station st).cluster)) ∧
      ((∀ f, f ∈ s.flights → ¬ (f.station = st ∧ f.at_ = s.time + 8 + 4 * hops f.cl (s.station st).cluster)) → s.revokeFires st = s) := by
  unfold State.revokeFires
  extract_lets mine
  refine ⟨?_, ?_, fun hno => ?_⟩
  · refine List.foldlRecOn (motive := fun t => FirerOnly st s t) (s.flights.filter mine) _ (.of_stations_eq rfl) (fun t ht f _ => ?_)
    extract_lets i v y u
    have hu : FirerOnly st t u := (FirerOnly.setFirer t st f.was).trans (.of_stations_eq rfl)
    refine ht.trans (hu.trans ?_)
    split
    · exact .of_stations_eq rfl
    · split
      · have hw : Within ⟨State.seqHaltAtWrites.parts, .CSQ_TH_STAT_PC :: State.seqHaltAtWrites.flds⟩ u
            ((u.seqHaltAt i 0x10 f.pc).setPc i f.pc) :=
          (State.setPc_within ..).after ((State.seqHaltAt_within u i 0x10 f.pc).mono)
        exact .of_stations_eq (hw.touch.same .stations)
      · exact .of_stations_eq ((State.seqRecoverAt_within u i 0x10 f.pc true).touch.same .stations)
  · refine List.foldlRecOn (motive := fun t : State => t.flights = s.flights.filter (fun f => !(mine f))) (s.flights.filter mine) _ rfl
      (fun t ht f _ => ?_)
    extract_lets i v y u
    refine Eq.trans ?_ ht
    split
    · rfl
    · split
      · have hw : Within ⟨State.seqHaltAtWrites.parts, .CSQ_TH_STAT_PC :: State.seqHaltAtWrites.flds⟩ u
            ((u.seqHaltAt i 0x10 f.pc).setPc i f.pc) :=
          (State.setPc_within ..).after ((State.seqHaltAt_within u i 0x10 f.pc).mono)
        exact hw.touch.same .flights
      · exact (State.seqRecoverAt_within u i 0x10 f.pc true).touch.same .flights
  · have hnone : s.flights.filter mine = [] := List.filter_eq_nil_iff.mpr fun f hf hm => hno f hf (by
      simpa [mine] using hm)
    have hall : s.flights.filter (fun f => !(mine f)) = s.flights := List.filter_eq_self.mpr fun f hf => by
      rw [Bool.not_eq_true', Bool.eq_false_iff]
      exact fun hm => hno f hf (by simpa [mine] using hm)
    rw [hnone, hall]
    rfl

/-- What says that a station is at work, and that its core is stopped. -/
theorem State.atWork_congr {s t : State} {st : Nat} (htiles : t.tiles = s.tiles) (hstate : (t.station st).state = (s.station st).state)
    (hcore : (t.station st).core = (s.station st).core) : t.atWork st = s.atWork st := by
  unfold State.atWork State.coreTiles
  rw [htiles, hstate, hcore]

theorem State.frozen_congr {s t : State} (hsnaps : t.snaps = s.snaps) (hsets : t.sets = s.sets) (hgroups : t.groups = s.groups) (core : Nat) :
    t.frozen core = s.frozen core := by
  unfold State.frozen State.group
  rw [hsnaps, hsets, hgroups]

/-- A station with one more hold. -/
def Station.heldBy (x : Station) (h : Hold) (at_ : Nat) : Station :=
  { x with holds := if x.holds.contains h then x.holds else x.holds ++ [h], parkAt := at_ }

theorem Station.mem_heldBy (x : Station) (h : Hold) (n : Nat) : h ∈ (x.heldBy h n).holds := by
  unfold Station.heldBy
  dsimp only
  split
  next hc => exact List.contains_iff_mem.mp hc
  next => exact List.mem_append_right _ List.mem_cons_self

theorem Station.rest_of_held {x : Station} {h : Hold} (hx : h ∈ x.holds) : x.rest = 3 := by
  unfold Station.rest
  cases hh : x.holds with
  | nil =>
    rw [hh] at hx
    cases hx
  | cons => rfl

/-- STATION_PARK of a station after the flights of its cycle are taken back. -/
theorem State.park_level1 {s : State} {st : Nat} (hx : (s.station st).state ≠ 0) :
    s.park st .level1 = (s.revokeFires st).setStation st
      (if (s.revokeFires st).atWork st || (s.revokeFires st).frozen ((s.revokeFires st).station st).core then
        ((s.revokeFires st).station st).heldBy .level1 ((s.revokeFires st).time + 1)
      else { ((s.revokeFires st).station st).heldBy .level1 ((s.revokeFires st).time + 1) with
        state := (((s.revokeFires st).station st).heldBy .level1 ((s.revokeFires st).time + 1)).rest }) := by
  obtain ⟨⟨⟨f, hfirer⟩, -⟩, -, -⟩ := s.revokeFires_spec st
  have hstate : ((s.revokeFires st).station st).state ≠ 0 := by
    rw [hfirer]
    exact hx
  unfold State.park
  extract_lets own u x y
  have hu : u = s.revokeFires st := if_neg (by simp [hx, show own = false from rfl])
  clear_value u
  subst hu
  have hy : y = ((s.revokeFires st).station st).heldBy .level1 ((s.revokeFires st).time + 1) := rfl
  rw [if_neg (show ¬ x.state = 0 from hstate), hy, show own = false from rfl, Bool.not_false, Bool.and_true]

theorem stationPark_spec (now : Nat) (st : StationId) (s : State) (hx : (s.station st.val).state ≠ 0) :
    ∃ t, exec (.stationPark now st) s = .next t ∧ Hold.level1 ∈ (t.station st.val).holds ∧
      (t.station st.val).state =
        (if s.atWork st.val = true ∨ s.frozen (s.station st.val).core = true then (s.station st.val).state else 3) ∧
      (∀ f, f ∈ t.flights ↔ f ∈ s.flights ∧
        ¬ (f.station = st.val ∧ f.at_ = max s.time now + 8 + 4 * hops f.cl (s.station st.val).cluster)) ∧
      KeepsBytes s t nowhere ∧
      ((∀ f, f ∈ s.flights → ¬ (f.station = st.val ∧ f.at_ = max s.time now + 8 + 4 * hops f.cl (s.station st.val).cluster)) →
        t = { s.advance now with stations := t.stations }) ∧
      ∀ n, n ≠ st.val → t.station n = s.station n := by
  obtain ⟨⟨⟨f, hfirer⟩, hother⟩, hflights, hidle⟩ := (s.advance now).revokeFires_spec st.val
  have hrow : exec (.stationPark now st) s = .next ((s.advance now).park st.val .level1) := rfl
  rw [State.park_level1 (s := s.advance now) hx] at hrow
  have hw := (s.advance now).revokeFires_within st.val
  generalize (s.advance now).revokeFires st.val = u at hfirer hother hflights hidle hw hrow
  have hwork : u.atWork st.val = s.atWork st.val :=
    State.atWork_congr (hw.touch.same .tiles) (by rw [hfirer]; rfl) (by rw [hfirer]; rfl)
  have hcore : (u.station st.val).core = (s.station st.val).core := by rw [hfirer]; rfl
  have hstate : (u.station st.val).state = (s.station st.val).state := by rw [hfirer]; rfl
  have hfrozen : u.frozen (u.station st.val).core = s.frozen (s.station st.val).core := by
    rw [hcore]
    exact State.frozen_congr (hw.touch.same .snaps) (hw.touch.same .sets) (hw.touch.same .groups) _
  rw [hwork, hfrozen] at hrow
  have hrest := Station.rest_of_held ((u.station st.val).mem_heldBy .level1 (u.time + 1))
  have hmem := (u.station st.val).mem_heldBy .level1 (u.time + 1)
  have hheld : ((u.station st.val).heldBy .level1 (u.time + 1)).state = (u.station st.val).state := rfl
  generalize (u.station st.val).heldBy .level1 (u.time + 1) = x at hrow hrest hmem hheld
  generalize hy : (if s.atWork st.val || s.frozen (s.station st.val).core then x else { x with state := x.rest }) = y at hrow
  have hyspec : Hold.level1 ∈ y.holds ∧ y.state =
      (if s.atWork st.val = true ∨ s.frozen (s.station st.val).core = true then (s.station st.val).state else 3) := by
    rw [← hy]
    by_cases hc : s.atWork st.val = true ∨ s.frozen (s.station st.val).core = true
    · rw [if_pos hc, if_pos (Bool.or_eq_true_iff.mpr hc)]
      exact ⟨hmem, hheld.trans hstate⟩
    · rw [if_neg hc, if_neg (fun h => hc (Bool.or_eq_true_iff.mp h))]
      exact ⟨hmem, hrest⟩
  obtain ⟨hholds, hnew⟩ := hyspec
  clear hy
  have hset := u.setStation_within st.val y
  have hown : (u.setStation st.val y).station st.val = y := u.station_setStation_same st.val y
  have hne (n : Nat) (hn : n ≠ st.val) : (u.setStation st.val y).station n = u.station n := u.station_setStation_ne st.val y (Ne.symm hn)
  generalize u.setStation st.val y = t at hrow hset hown hne
  refine ⟨t, hrow, by rw [hown]; exact hholds, by rw [hown]; exact hnew, fun g => ?_, ?_, fun hno => ?_, fun n hn => (hne n hn).trans (hother n hn)⟩
  · rw [show t.flights = u.flights from hset.touch.same .flights, hflights, List.mem_filter]
    refine and_congr_right fun _ => ?_
    rw [Bool.not_eq_true', Bool.eq_false_iff]
    refine not_congr ?_
    rw [Bool.and_eq_true, beq_iff_eq, beq_iff_eq]
    rfl
  · exact .of_sram_eq ((show t.sram = u.sram from hset.touch.same .sram).trans (hw.touch.same .sram)) _
  · have hu : u = s.advance now := hidle hno
    rw [← hu]
    exact hset.touch.eq_withParts

/-! ### STATION_UNPARK (R203) -/

/-- A station without one of its holds. -/
def Station.released (x : Station) (h : Hold) : Station := { x with holds := x.holds.filter (fun g => g != h) }

theorem State.unpark_eq {s : State} {st : Nat} (h : (s.station st).state ≠ 0) (k : Hold) :
    s.unpark st k = s.setStation st (if (s.station st).state = 3 then
      { (s.station st).released k with state := ((s.station st).released k).rest } else (s.station st).released k) := by
  unfold State.unpark
  exact if_neg h

theorem Station.rest_three {x : Station} (h : x.rest ≠ 3) : x.holds = [] := by
  unfold Station.rest at h
  cases hh : x.holds with
  | nil => rfl
  | cons a l => exact absurd (by rw [hh]; rfl) h

theorem Station.rest_of_no_holds {x : Station} (h : x.holds = []) : x.rest = if x.drain.isSome then 4 else 1 := by
  unfold Station.rest
  rw [h]
  rfl

/-- A station after UNPARK of one hold. -/
def Station.unheld (x : Station) (k : Hold) : Station :=
  if x.state = 3 then { x.released k with state := (x.released k).rest } else x.released k

theorem Station.unheld_state_ne_zero {x : Station} (h : x.state ≠ 0) (k : Hold) : (x.unheld k).state ≠ 0 := by
  unfold Station.unheld
  split
  · exact Station.rest_ne_zero _
  · exact h

/-- Without both holds: a parked station is as it rests then, and another keeps its state. -/
theorem Station.unheld_twice (y : Station) : (y.unheld .level1).unheld .descriptor =
    { y with
      holds := y.holds.filter (fun h => h != .level1 && h != .descriptor)
      state := if y.state = 3 then Station.rest { y with holds := y.holds.filter (fun h => h != .level1 && h != .descriptor) }
        else y.state } := by
  have htwice : (y.holds.filter (fun g => g != .level1)).filter (fun g => g != .descriptor) =
      y.holds.filter (fun h => h != .level1 && h != .descriptor) := by
    rw [List.filter_filter]
    exact List.filter_congr fun h _ => Bool.and_comm ..
  by_cases hy : y.state = 3
  · have hone : y.unheld .level1 = { y.released .level1 with state := (y.released .level1).rest } := if_pos hy
    rw [hone, if_pos hy, ← htwice]
    by_cases hr : (y.released .level1).rest = 3
    · exact if_pos hr
    · have hnone : y.holds.filter (fun g => g != .level1) = [] := Station.rest_three hr
      have hrest : (y.released .level1).rest = Station.rest { y with holds := [] } := by
        rw [Station.rest_of_no_holds hnone, Station.rest_of_no_holds rfl]
        rfl
      refine (if_neg hr).trans ?_
      rw [hnone, List.filter_nil, hrest]
      unfold Station.released
      dsimp only
      rw [hnone, List.filter_nil]
  · have hone : y.unheld .level1 = y.released .level1 := if_neg hy
    rw [hone, if_neg hy, ← htwice]
    exact if_neg hy

theorem stationUnpark_spec (now : Nat) (st : StationId) (s : State) (hx : (s.station st.val).state ≠ 0) :
    ∃ t, exec (.stationUnpark now st) s = .next t ∧
      t.station st.val = { s.station st.val with
        holds := (s.station st.val).holds.filter (fun h => h != .level1 && h != .descriptor)
        state := if (s.station st.val).state = 3 then
          Station.rest { s.station st.val with holds := (s.station st.val).holds.filter (fun h => h != .level1 && h != .descriptor) }
          else (s.station st.val).state } ∧
      t = { s.advance now with stations := t.stations } ∧ ∀ n, n ≠ st.val → t.station n = s.station n := by
  have hrow : exec (.stationUnpark now st) s = .next (((s.advance now).unpark st.val .level1).unpark st.val .descriptor) := rfl
  have htouch : Within ⟨[.stations], []⟩ (s.advance now) (((s.advance now).unpark st.val .level1).unpark st.val .descriptor) :=
    (State.unpark_within ..).after (State.unpark_within ..)
  have hfirst : (s.advance now).unpark st.val .level1 = (s.advance now).setStation st.val ((s.station st.val).unheld .level1) :=
    State.unpark_eq (s := s.advance now) hx _
  have hget : ((s.advance now).setStation st.val ((s.station st.val).unheld .level1)).station st.val = (s.station st.val).unheld .level1 :=
    State.station_setStation_same ..
  have hsecond : ((s.advance now).setStation st.val ((s.station st.val).unheld .level1)).unpark st.val .descriptor =
      ((s.advance now).setStation st.val ((s.station st.val).unheld .level1)).setStation st.val
        (((s.station st.val).unheld .level1).unheld .descriptor) := by
    have h := State.unpark_eq (s := (s.advance now).setStation st.val ((s.station st.val).unheld .level1)) (st := st.val)
      (by rw [hget]; exact Station.unheld_state_ne_zero hx _) .descriptor
    rwa [hget] at h
  rw [hfirst, hsecond, Station.unheld_twice] at hrow htouch
  exact ⟨_, hrow, State.station_setStation_same .., htouch.touch.eq_withParts, fun n hn =>
    (State.station_setStation_ne _ _ _ (Ne.symm hn)).trans (State.station_setStation_ne _ _ _ (Ne.symm hn))⟩

/-! ### MIGRATION_REQUEST and DRAIN_WINDOW_CLOSE (R208, R211) -/

/-- The words of an image, as many as a descriptor has. -/
def imageWords (image : List Word) : List Word := (List.range 64).map (fun k => image.getD k 0)

theorem migrationRequest_waits (now : Nat) (st : StationId) (cl : Cluster) (co : Core) (d : Fin 64) (image : List Word)
    (bases : List (BitVec 16)) (s : State) (y : Station) (hy : s.station st.val = y) (x : Desc)
    (hx : descOf (fun k => ((imageWords image).getD k 0).toNat) = x) (hstate : y.state ≠ 0) (hdrain : y.drain = none)
    (hswap : y.swapping = false) (hkind : hasDesc y.kind = true) (hmig : ∀ m, m ∈ y.mig → m.weight = true) (hvalid : x.valid = true)
    (hst : x.station = st.val) (hk : x.kind = y.kind) (ho : x.owner = y.owner) (hreason : x.reason = none)
    (hfree : (s.desc (coreIx cl co) d.val).valid = false) :
    exec (.migrationRequest now st cl co d image bases) s = .next ((s.advance now).setStation st.val
      { y with mig := y.mig ++ [{ core := coreIx cl co, d := d.val, image := imageWords image, model := y.model,
                                  layer := y.layer, weight := false, bases := bases.map BitVec.toNat }] }) := by
  have hnone : y.mig.filter (fun m => !m.weight) = [] := List.filter_eq_nil_iff.mpr fun m hm => by simp [hmig m hm]
  have hrow : exec (.migrationRequest now st cl co d image bases) s =
    if (s.station st.val).state = 0 || (s.station st.val).drain.isSome || (s.station st.val).swapping ||
        !(hasDesc (s.station st.val).kind) || !((s.station st.val).mig.filter (fun m => !m.weight)).isEmpty ||
        !(descOf (fun k => ((imageWords image).getD k 0).toNat)).valid ||
        (descOf (fun k => ((imageWords image).getD k 0).toNat)).station != st.val ||
        (descOf (fun k => ((imageWords image).getD k 0).toNat)).kind != (s.station st.val).kind ||
        (descOf (fun k => ((imageWords image).getD k 0).toNat)).owner != (s.station st.val).owner ||
        (descOf (fun k => ((imageWords image).getD k 0).toNat)).reason.isSome || (s.desc (coreIx cl co) d.val).valid then
      .next (s.advance now)
    else .next ((s.advance now).setStation st.val
      { s.station st.val with
        mig := (s.station st.val).mig ++ [{ core := coreIx cl co, d := d.val, image := imageWords image, model := (s.station st.val).model,
                                            layer := (s.station st.val).layer, weight := false, bases := bases.map BitVec.toNat }] }) := rfl
  rw [hy, hx] at hrow
  exact hrow.trans (if_neg (by simp [hstate, hdrain, hswap, hkind, hnone, hvalid, hst, hk, ho, hreason, hfree]))

theorem State.drainClose_station (s : State) (st : Nat) (dr : Drain) :
    ((s.drainClose st dr).station st).drain = none ∧ ((s.drainClose st dr).station st).state ≠ 4 := by
  unfold State.drainClose
  extract_lets y u v x z
  rw [State.station_setStation_same]
  split
  · refine ⟨rfl, ?_⟩
    change (if v.atWork st then 2 else z.rest) ≠ 4
    split
    · decide
    · unfold Station.rest
      split
      · decide
      · exact (by decide : ¬ (if (none : Option Drain).isSome then 4 else 1) = 4)
  next hz => exact ⟨rfl, hz⟩

theorem drainWindowClose_spec (now : Nat) (st : StationId) (s : State) (dr : Drain) (hdr : (s.station st.val).drain = some dr)
    (hover : (s.advance now).drainOver st.val dr = true) :
    ∃ t, exec (.drainWindowClose now st) s = .next t ∧ (t.station st.val).drain = none ∧ (t.station st.val).state ≠ 4 ∧
      t.cells = s.cells ∧ t.shards = s.shards ∧ t.tiles = s.tiles := by
  have hrow : exec (.drainWindowClose now st) s = match (s.station st.val).drain with
    | some dr => if (s.advance now).drainOver st.val dr then .next ((s.advance now).drainClose st.val dr) else .next (s.advance now)
    | none => .next (s.advance now) := rfl
  rw [hdr] at hrow
  have hclose := (s.advance now).drainClose_station st.val dr
  have hw := (s.advance now).drainClose_within st.val dr
  exact ⟨_, hrow.trans (if_pos hover), hclose.1, hclose.2, hw.touch.same .cells, hw.touch.same .shards, hw.touch.same .tiles⟩

/-! ### Stations that are not loaded -/

theorem State.park_unloaded {s : State} {st : Nat} (h : (s.station st).state = 0) (k : Hold) : s.park st k = s := by
  have hu : (if (k == .descriptor || k == .sweep || decide ((s.station st).state = 0)) = true then s else s.revokeFires st) = s :=
    if_pos (by rw [h]; simp)
  unfold State.park
  extract_lets own u x y
  have hus : u = s := hu
  clear_value u
  subst hus
  exact if_pos h

theorem State.unpark_unloaded {s : State} {st : Nat} (h : (s.station st).state = 0) (k : Hold) : s.unpark st k = s := if_pos h

theorem stationMoves_unloaded (now : Nat) (st : StationId) (s : State) (h : (s.station st.val).state = 0) :
    exec (.stationPark now st) s = .next (s.advance now) ∧ exec (.stationUnpark now st) s = .next (s.advance now) := by
  have hpark : (s.advance now).park st.val .level1 = s.advance now := State.park_unloaded (s := s.advance now) h _
  have hunpark (k : Hold) : (s.advance now).unpark st.val k = s.advance now := State.unpark_unloaded (s := s.advance now) h k
  refine ⟨congrArg Host.Outcome.next hpark, congrArg Host.Outcome.next ?_⟩
  rw [hunpark, hunpark]

/-- Settles O25: parking, its reversal, a migration request and the end of a drain, as R199, R203, R208 and R211 say. -/
theorem stationsMove : Obligations.StationsMove :=
  ⟨fun now st s => ⟨fun hx => ⟨stationPark_spec now st s hx, stationUnpark_spec now st s hx⟩, stationMoves_unloaded now st s⟩,
    ⟨fun now st cl co d image bases s => migrationRequest_waits now st cl co d image bases s _ rfl _ rfl, drainWindowClose_spec⟩⟩

end Sys2Proof.Machine
end

section
/-!
PROOF. Ingest jobs and error correction (R189, R190, R217 to R220, O28).
-/

set_option Elab.async false

namespace Sys2Proof.Machine
open Sys2Proof

/-! ### Ingest jobs (R189, R190) -/

/-- The turn of the stream gate takes an offer of a context; it touches the turns alone. -/
theorem State.takeOffer_within {s u : State} {c : Nat} (h : s.takeOffer = some (c, u)) : Within ⟨[.offers], []⟩ s u := by
  unfold State.takeOffer at h
  extract_lets t at h
  obtain ⟨d, -, hd⟩ := Option.map_eq_some_iff.mp h
  rw [← (Prod.mk.inj hd).2]
  have ht : Within ⟨[.offers], []⟩ s t := by
    unfold t
    split
    · exact Within.refl _ _
    · exact (Within.update [.offers] rfl).mono
  exact (State.lapse_within ..).after ((Within.update [.offers] rfl : Within ⟨[.offers], []⟩ t _).after ht)

theorem State.enterTile_state {s : State} {st : Nat} (h : (s.station st).state = 1) : ((s.enterTile st).station st).state = 2 := by
  unfold State.enterTile
  extract_lets x
  rw [if_pos h, State.station_setStation_same]

/-- The job that starts takes the oldest descriptor of its context. -/
def State.ingestStarts (u : State) (eng c : Nat) (d : FrameDesc) (rest : List FrameDesc) (f : Frame) : State :=
  (({ u with ingests := smapSet none u.ingests eng (some (u.ingestJob c d f)), fresh := u.fresh + 6 * d.width * d.height }.setCtx c
    { u.ctx c with queue := rest, running := true }).enterTile (u.ctx c).station).emit (.hostRead (u.ctx c).owner d.addr d.size)

theorem ingestJobStart_starts (now : Nat) (eng : Fin 8) (frame : List Byte) (bad : List Nat) (s u : State) (c : Nat) (d : FrameDesc)
    (rest : List FrameDesc) (hon : s.dieOn 2 = true) (hfree : smapGet none s.ingests eng.val = none)
    (htake : (s.advance now).takeOffer = some (c, u)) (hq : (u.ctx c).queue = d :: rest) :
    ∃ t j, exec (.ingestJobStart now eng frame bad) s = .next t ∧ smapGet none t.ingests eng.val = some j ∧ j.ctx = c ∧
      t.ctx c = { u.ctx c with queue := rest, running := true } ∧ t.out = .hostRead (u.ctx c).owner d.addr d.size :: s.out ∧
      ((s.station (u.ctx c).station).state = 1 → (t.station (u.ctx c).station).state = 2) ∧ t.regs = s.regs ∧ KeepsBytes s t nowhere := by
  have hu := State.takeOffer_within htake
  have hexec : exec (.ingestJobStart now eng frame bad) s =
      if !((s.advance now).dieOn 2) || (smapGet none (s.advance now).ingests eng.val).isSome then .next (s.advance now)
      else match (s.advance now).takeOffer with
        | some (c, u) => (match (u.ctx c).queue with
          | d :: rest => .next (u.ingestStarts eng.val c d rest { bytes := frame.take d.size, bad := bad })
          | [] => .next u)
        | none => .next (s.advance now) := rfl
  have hcond : (!((s.advance now).dieOn 2) || (smapGet none (s.advance now).ingests eng.val).isSome) = false := by
    rw [show (s.advance now).dieOn 2 = true from hon, show smapGet none (s.advance now).ingests eng.val = none from hfree]
    rfl
  rw [hcond, if_neg (by decide), htake] at hexec
  simp only [hq] at hexec
  generalize (⟨frame.take d.size, bad⟩ : Frame) = f at hexec
  unfold State.ingestStarts at hexec
  generalize hv : ({ u with ingests := smapSet none u.ingests eng.val (some (u.ingestJob c d f)), fresh := u.fresh + 6 * d.width * d.height } : State) = v at hexec
  have kv : Within ⟨[.ingests, .fresh], []⟩ u v := hv ▸ Within.update [.ingests, .fresh] rfl
  have hjob : smapGet none v.ingests eng.val = some (u.ingestJob c d f) := by
    rw [← hv]
    exact smapGet_set_same none u.ingests eng.val (some (u.ingestJob c d f))
  clear hv
  have hctx := v.ctx_setCtx_same c { u.ctx c with queue := rest, running := true }
  have kw : Within ⟨[.ctxs], []⟩ v (v.setCtx c { u.ctx c with queue := rest, running := true }) := State.setCtx_within ..
  generalize v.setCtx c { u.ctx c with queue := rest, running := true } = w at hexec hctx kw
  have kx := w.enterTile_within (u.ctx c).station
  have hstate (h : (w.station (u.ctx c).station).state = 1) := State.enterTile_state h
  generalize w.enterTile (u.ctx c).station = x at hexec kx hstate
  have hstations : w.stations = s.stations :=
    (show w.stations = v.stations from kw.touch.same .stations).trans
      ((show v.stations = u.stations from kv.touch.same .stations).trans (hu.touch.same .stations))
  have kend : Within ⟨[.out], []⟩ x (x.emit (.hostRead (u.ctx c).owner d.addr d.size)) := State.emit_within ..
  have hout : x.out = s.out := (show x.out = w.out from kx.touch.same .out).trans ((show w.out = v.out from kw.touch.same .out).trans
    ((show v.out = u.out from kv.touch.same .out).trans (hu.touch.same .out)))
  have hall : Within ⟨[.out, .stations, .ctxs, .ingests, .fresh, .offers], []⟩ (s.advance now) (x.emit (.hostRead (u.ctx c).owner d.addr d.size)) :=
    kend.after (kx.after (kw.after (kv.after hu.mono)))
  refine ⟨_, u.ingestJob c d f, hexec, ?_, rfl, ?_, ?_, fun h => ?_, hall.touch.same .regs, .of_sram_eq (hall.touch.same .sram) _⟩
  · rw [show (x.emit _).ingests = x.ingests from rfl, show x.ingests = w.ingests from kx.touch.same .ingests,
      show w.ingests = v.ingests from kw.touch.same .ingests]
    exact hjob
  · exact (kx.touch.ctx c).trans hctx
  · exact congrArg (List.cons _) hout
  · refine hstate ?_
    unfold State.station at h ⊢
    rw [hstations]
    exact h

/-! ### The end of a job -/

theorem ingestJobDone_spec (now : Nat) (eng : Fin 8) (s : State) (j : Ingest) (h : SlotRef) (hs : List SlotRef)
    (w : State × List IngestTile)
    (hw : ((s.advance now).enterTile (s.ctx j.ctx).station).ingestFlush j h j.tiles = w)
    (hj : smapGet none s.ingests eng.val = some j) (houts : (s.station (s.ctx j.ctx).station).outs = h :: hs)
    (hon : s.dieOn 2 = true) (hwait : j.wait = false) (hholds : (s.station (s.ctx j.ctx).station).holds = []) :
    (w.2 = [] → ∃ t, exec (.ingestJobDone now eng) s = .next t ∧ smapGet none t.ingests eng.val = none ∧
      (t.ctx j.ctx).running = false ∧ t.cells = s.cells ∧ t.sram = w.1.sram) ∧
    (w.2 ≠ [] → ∃ t, exec (.ingestJobDone now eng) s = .next t ∧
      smapGet none t.ingests eng.val = some { j with tiles := w.2 } ∧ t.cells = s.cells ∧ t.sram = w.1.sram) := by
  have hexec : exec (.ingestJobDone now eng) s = match smapGet none s.ingests eng.val with
      | some j => (match (s.station (s.ctx j.ctx).station).outs with
        | h :: _ =>
          if !(s.dieOn 2) || j.wait then .next (s.advance now)
          else if !((s.station (s.ctx j.ctx).station).holds.isEmpty) then .next ((s.advance now).gateRest (s.ctx j.ctx).station false)
          else
            let w := ((s.advance now).enterTile (s.ctx j.ctx).station).ingestFlush j h j.tiles
            if w.2.isEmpty then
              .next (({ w.1 with ingests := smapSet none w.1.ingests eng.val none }.setCtx j.ctx
                { w.1.ctx j.ctx with running := false }).gateRest (s.ctx j.ctx).station true)
            else .next { w.1 with ingests := smapSet none w.1.ingests eng.val (some { j with tiles := w.2 }) }
        | [] => .next (s.advance now))
      | none => .next (s.advance now) := rfl
  simp only [hj, houts, hon, hwait, hholds, hw] at hexec
  have hcells : w.1.cells = s.cells := by
    rw [← hw]
    have hin := (s.advance now).enterTile_within (s.ctx j.ctx).station
    exact (show _ = _ from (State.ingestFlush_within ..).touch.same .cells).trans (hin.touch.same .cells)
  refine ⟨fun hnil => ?_, fun hne => ?_⟩
  · rw [hnil] at hexec
    have hg := State.gateRest_within ({ w.1 with ingests := smapSet none w.1.ingests eng.val none }.setCtx j.ctx
      { w.1.ctx j.ctx with running := false }) (s.ctx j.ctx).station true
    refine ⟨_, hexec, ?_, ?_, (show _ = w.1.cells from hg.touch.same .cells).trans hcells, (show _ = w.1.sram from hg.touch.same .sram)⟩
    · rw [show _ = smapSet none w.1.ingests eng.val none from hg.touch.same .ingests]
      exact smapGet_set_same ..
    · rw [hg.touch.ctx, State.ctx_setCtx_same]
  · have hfalse : w.2.isEmpty = false := by
      cases hl : w.2 with
      | nil => exact absurd hl hne
      | cons => rfl
    rw [hfalse] at hexec
    refine ⟨_, hexec, ?_, hcells, rfl⟩
    dsimp only
    rw [smapGet_set_same, hwait]

/-! ### Error correction (R217 to R220) -/

theorem eccScrubWrite_corrects (now : Nat) (word : BitVec 24) (s : State) (hin : word.toNat ∈ s.scrubs)
    (hon : s.memOn (8 * word.toNat) = true) (hc : correctable (s.syndrome word.toNat) = true) :
    ∃ t, exec (.eccScrubWrite now word) s = .next t ∧ t.syndrome word.toNat = 0 ∧ t.scrubs = s.scrubs.erase word.toNat ∧
      (∀ w, w ≠ word.toNat → t.syndrome w = s.syndrome w) ∧ t = { s.advance now with ecc := t.ecc, scrubs := t.scrubs } := by
  have hexec : exec (.eccScrubWrite now word) s =
      if s.scrubs.contains word.toNat && s.memOn (8 * word.toNat) then
        .next (if correctable (s.syndrome word.toNat) then
          { s.advance now with scrubs := s.scrubs.erase word.toNat }.mark word.toNat 0
          else { s.advance now with scrubs := s.scrubs.erase word.toNat })
      else .next (s.advance now) := rfl
  rw [List.contains_iff_mem.mpr hin, hon, hc] at hexec
  exact ⟨_, hexec, smapGet_set_same 0 s.ecc word.toNat 0, rfl, fun w hne => smapGet_set_ne s.ecc 0 (Ne.symm hne), rfl⟩

theorem eccScrubWrite_leaves (now : Nat) (word : BitVec 24) (s : State) (hin : word.toNat ∈ s.scrubs)
    (hon : s.memOn (8 * word.toNat) = true) (hc : correctable (s.syndrome word.toNat) = false) :
    exec (.eccScrubWrite now word) s = .next { s.advance now with scrubs := s.scrubs.erase word.toNat } := by
  have hexec : exec (.eccScrubWrite now word) s =
      if s.scrubs.contains word.toNat && s.memOn (8 * word.toNat) then
        .next (if correctable (s.syndrome word.toNat) then
          { s.advance now with scrubs := s.scrubs.erase word.toNat }.mark word.toNat 0
          else { s.advance now with scrubs := s.scrubs.erase word.toNat })
      else .next (s.advance now) := rfl
  rw [List.contains_iff_mem.mpr hin, hon, hc] at hexec
  exact hexec

/-- Settles O28: ingest jobs, words rewritten and captures armed again, as R189, R190 and R217 to R220 say. -/
theorem ingestAndMemoryErrors : Obligations.IngestAndMemoryErrors := by
  refine ⟨⟨fun now eng frame bad s u c d rest => ingestJobStart_starts now eng frame bad s u c d rest,
    fun now eng s j h hs hj houts hon hwait hholds => ingestJobDone_spec now eng s j h hs _ rfl hj houts hon hwait hholds⟩,
    fun now word s hin hon => ⟨eccScrubWrite_corrects now word s hin hon, eccScrubWrite_leaves now word s hin hon⟩,
    fun now cl co s hon => ?_, fun now cl s hon => ?_⟩
  · exact congrArg Host.Outcome.next (State.onReg_core (s := s.advance now) (r := .CMC_ECCSTAT) rfl hon _ _ _)
  · exact congrArg Host.Outcome.next (State.onReg_shared (s := s.advance now) (r := .KMC_ECCSTAT) rfl hon _ _ _)

end Sys2Proof.Machine
end

section
/-!
PROOF. Contexts and posts (R168, R181 to R188, O27).
-/

set_option Elab.async false

namespace Sys2Proof.Machine
open Sys2Proof

/-! ### Commands (R305, R306) -/

theorem State.command_of {s : State} {fn op : Nat} {e : List Word} (h : s.nextUp fn op e = true) (f : State → State) :
    s.command fn op e f = f (s.takeAccepted fn e) := if_pos h

theorem State.takeAccepted_touches (s : State) (fn : Nat) (e : List Word) : Touches [.accepted, .fns] s (s.takeAccepted fn e) :=
  (s.takeAccepted_within fn e).touch.mono

/-! ### OPEN_CONTEXT (R181 to R183) -/

theorem State.openCommand_code {s : State} {fn : Nat} {e : List Word} (h : s.openCode fn e ≠ 0) :
    s.openCommand fn e = s.answer fn e (s.openCode fn e) 0 := by
  unfold State.openCommand
  extract_lets code
  split
  next c h0 _ => exact absurd h0 h
  next => rfl

theorem State.openCommand_opens {s : State} {fn c : Nat} {e : List Word} (h : s.openCode fn e = 0)
    (hc : s.openWhich (openParams e).ctx = some c) : s.openCommand fn e = (s.openCtx fn c (openParams e)).answer fn e 0 c := by
  unfold State.openCommand
  rw [h, hc]
  rfl

theorem State.openCtx_spec (s : State) (fn c : Nat) (p : OpenParams) :
    ((s.openCtx fn c p).ctx c).state = 1 ∧ ((s.openCtx fn c p).ctx c).owner = fn ∧ ((s.openCtx fn c p).ctx c).queue = [] ∧
      ((s.openCtx fn c p).ctx c).seq = 0 ∧ ((s.openCtx fn c p).ctx c).station = p.station ∧ ((s.openCtx fn c p).ctx c).src = p.src ∧
      ((s.openCtx fn c p).ctx c).len = p.len ∧ (s.openCtx fn c p).getF .SGT_CTX_DROPCNT_COUNT c = 0 ∧
      (∀ k, k ≠ c → (s.openCtx fn c p).ctx k = s.ctx k) := by
  unfold State.openCtx
  extract_lets v origin n e v0 g x u w
  have hu : u.ctx c = x := State.ctx_setCtx_same ..
  have hother (k : Nat) (hk : k ≠ c) : u.ctx k = s.ctx k := State.ctx_setCtx_ne _ _ _ (Ne.symm hk)
  have hx : x.state = 1 ∧ x.owner = fn ∧ x.queue = [] ∧ x.seq = 0 ∧ x.station = p.station ∧ x.src = p.src ∧ x.len = p.len :=
    ⟨rfl, rfl, rfl, rfl, rfl, rfl, rfl⟩
  clear_value x
  have hw : Within ⟨[.regs], [.POS_CTX_STAT_OUTWIN, .POS_CTX_STAT_MISSED]⟩ (u.setF .SGT_CTX_DROPCNT_COUNT c 0) w :=
    (State.setF_within ..).after ((State.setF_within ..).mono)
  have hdrop : (u.setF .SGT_CTX_DROPCNT_COUNT c 0).getF .SGT_CTX_DROPCNT_COUNT c = 0 := State.getF_setF_same ..
  have hctx (k : Nat) : (w.setF .SCTL_WORD (fn * 1152 + 9 * c + 8) 0).ctx k = u.ctx k := rfl
  have hend := State.setF_within w .SCTL_WORD (fn * 1152 + 9 * c + 8) 0
  generalize w.setF .SCTL_WORD (fn * 1152 + 9 * c + 8) 0 = t at hctx hend ⊢
  obtain ⟨hstate, howner, hqueue, hseq, hstation, hsrc, hlen⟩ := hx
  rw [hctx c, hu]
  exact ⟨hstate, howner, hqueue, hseq, hstation, hsrc, hlen, (hend.getF _ _).trans ((hw.getF _ _).trans hdrop),
    fun k hk => (hctx k).trans (hother k hk)⟩

theorem openContext_opens (now : Nat) (fn : Func) (entry : List Word) (s : State)
    (hnext : (s.advance now).nextUp fn.val 0x04 entry = true) (c : Nat)
    (hcode : ((s.advance now).takeAccepted fn.val entry).openCode fn.val entry = 0)
    (hwhich : ((s.advance now).takeAccepted fn.val entry).openWhich (openParams entry).ctx = some c) :
    ∃ t, exec (.openContext now fn entry) s = .next t ∧ (t.ctx c).state = 1 ∧ (t.ctx c).owner = fn.val ∧
      (t.ctx c).queue = [] ∧ (t.ctx c).seq = 0 ∧ (t.ctx c).station = (openParams entry).station ∧
      (t.ctx c).src = (openParams entry).src ∧ (t.ctx c).len = (openParams entry).len ∧
      t.getF .SGT_CTX_DROPCNT_COUNT c = 0 ∧ KeepsBytes s t nowhere ∧ (∀ k, k ≠ c → t.ctx k = s.ctx k) := by
  have hrow : exec (.openContext now fn entry) s =
      .next ((s.advance now).command fn.val 0x04 entry (fun t => t.openCommand fn.val entry)) := rfl
  rw [State.command_of hnext, State.openCommand_opens hcode hwhich] at hrow
  have htake := (s.advance now).takeAccepted_touches fn.val entry
  generalize (s.advance now).takeAccepted fn.val entry = u at hrow htake
  obtain ⟨hstate, howner, hqueue, hseq, hstation, hsrc, hlen, hdrop, hother⟩ := u.openCtx_spec fn.val c (openParams entry)
  have hopen := u.openCtx_within fn.val c (openParams entry)
  generalize u.openCtx fn.val c (openParams entry) = v at hrow hstate howner hqueue hseq hstation hsrc hlen hdrop hother hopen
  have hend := v.answer_within fn.val entry 0 c
  refine ⟨_, hrow, ?_⟩
  rw [hend.touch.ctx, hend.getF _ _]
  exact ⟨hstate, howner, hqueue, hseq, hstation, hsrc, hlen, hdrop,
    .of_sram_eq ((show _ = v.sram from hend.touch.same .sram).trans
      ((show v.sram = u.sram from hopen.touch.same .sram).trans (htake.same .sram))) _,
    fun k hk => (hend.touch.ctx k).trans ((hother k hk).trans (htake.ctx k))⟩

/-! ### CLOSE_CONTEXT (R184) -/

/-- Two contexts with the same state and queue. -/
structure Context.Alike (x y : Context) : Prop where
  state : y.state = x.state
  queue : y.queue = x.queue

theorem Context.Alike.refl (x : Context) : Context.Alike x x := ⟨rfl, rfl⟩

theorem Context.Alike.trans {x y z : Context} (h : Context.Alike x y) (k : Context.Alike y z) : Context.Alike x z :=
  ⟨k.state.trans h.state, k.queue.trans h.queue⟩

theorem Context.Alike.of_eq {x y : Context} (h : y = x) : Context.Alike x y := h ▸ .refl x

theorem State.reclaimEnd_ctx (s : State) (t c : Nat) : Context.Alike (s.ctx c) ((s.reclaimEnd t).ctx c) := by
  unfold State.reclaimEnd
  extract_lets x sts cs
  split
  · exact .refl _
  · have hcs : Context.Alike (s.ctx c) (smapGet Context.closed cs c) := by
      unfold cs
      refine smapGet_map_rel (R := Context.Alike) (.refl _)
        (f := fun e => (e.1, if e.2.owner = t then { e.2 with deadline := none } else e.2)) (fun e => ⟨rfl, ?_⟩) s.ctxs c
      dsimp only
      split
      · exact ⟨rfl, rfl⟩
      · exact .refl _
    exact hcs.trans (.of_eq rfl)

theorem State.reclaimDone_ctx (s : State) (t c : Nat) : Context.Alike (s.ctx c) ((s.reclaimDone t).ctx c) := by
  unfold State.reclaimDone
  extract_lets x
  split
  · exact (Context.Alike.of_eq ((State.service_within ..).touch.ctx c)).trans (State.reclaimEnd_ctx ..)
  · exact .refl _

theorem State.reclaimGone_ctx (s : State) (t c : Nat) : Context.Alike (s.ctx c) ((s.reclaimGone t).ctx c) := by
  unfold State.reclaimGone
  extract_lets x p
  split
  · exact .refl _
  next k hk =>
    extract_lets left n
    exact (Context.Alike.of_eq ((State.setFn_within ..).touch.ctx c)).trans (State.reclaimDone_ctx ..)

theorem State.reclaimFit_ctx (s : State) (t : Nat) (late : Bool) (c : Nat) : Context.Alike (s.ctx c) ((s.reclaimFit t late).ctx c) := by
  unfold State.reclaimFit
  split
  · exact s.reclaimGone_ctx t c
  · split
    · exact s.reclaimEnd_ctx t c
    · exact .refl _

theorem State.countdown_ctx (s : State) (c : Nat) (f : Nat → Nat) :
    ((s.countdown c f).ctx c) = { s.ctx c with deadline := (s.ctx c).deadline.map f } := by
  unfold State.countdown
  extract_lets sts
  exact State.ctx_setCtx_same ..

theorem State.closeCtx_ctx (s : State) (c : Nat) :
    ((s.ctx c).state = 1 → ((s.closeCtx c).ctx c).state = (if (s.ctx c).running then 2 else 0) ∧ ((s.closeCtx c).ctx c).queue = []) ∧
      ((s.ctx c).state = 2 → ((s.closeCtx c).ctx c).state = 2) := by
  have hctx := s.countdown_ctx c (fun _ => 0)
  unfold State.closeCtx
  extract_lets u x y
  have hx : x = { s.ctx c with deadline := (s.ctx c).deadline.map (fun _ => 0) } := hctx
  have hstate : x.state = (s.ctx c).state := by rw [hx]
  have hrun : x.running = (s.ctx c).running := by rw [hx]
  refine ⟨fun h => ?_, fun h => ?_⟩
  · rw [if_pos (hstate.trans h)]
    have hy : y.state = (if (s.ctx c).running then 2 else 0) ∧ y.queue = [] := by
      rw [← hrun]
      unfold y
      split
      · exact ⟨rfl, rfl⟩
      · exact ⟨rfl, rfl⟩
    have hset : (u.setCtx c y).ctx c = y := State.ctx_setCtx_same ..
    generalize u.setCtx c y = v at hset ⊢
    have hend : Within ⟨.threads :: State.failEpwWrites.parts, .POS_TRG_CFG_EN :: State.failEpwWrites.flds⟩ v
        (((v.failEpw c).dropArmed c).disarmTarget true c) :=
      (State.disarmTarget_within ..).after ((State.dropArmed_within ..).after ((State.failEpw_within ..).mono))
    rw [hend.touch.ctx, hset]
    exact hy
  · rw [if_neg (by rw [hstate, h]; decide)]
    exact hstate.trans h

theorem closeContext_refuses (now : Nat) (fn : Func) (entry : List Word) (s : State)
    (hnext : (s.advance now).nextUp fn.val 0x05 entry = true) (h : entryClean entry 3 = false ∨ 128 ≤ entryWord entry 2) :
    exec (.closeContext now fn entry) s =
      .next (((s.advance now).takeAccepted fn.val entry).answer fn.val entry 1 0) := by
  have hrow : exec (.closeContext now fn entry) s =
      .next ((s.advance now).command fn.val 0x05 entry (fun t => t.closeCommand fn.val entry)) := rfl
  rw [State.command_of hnext] at hrow
  refine hrow.trans (congrArg Host.Outcome.next ?_)
  unfold State.closeCommand
  extract_lets c x late v
  exact if_pos (by simpa using h)

/-- A command that closes a context of its function. -/
theorem State.closeCommand_closes {u : State} {fn : Nat} {e : List Word} (hclean : entryClean e 3 = true) (hlt : entryWord e 2 < 128)
    (howner : (u.ctx (entryWord e 2 % 128)).owner = fn) (hopen : (u.ctx (entryWord e 2 % 128)).state ≠ 0) :
    ((u.ctx (entryWord e 2 % 128)).state = 1 →
      ((u.closeCommand fn e).ctx (entryWord e 2 % 128)).state = (if (u.ctx (entryWord e 2 % 128)).running then 2 else 0) ∧
        ((u.closeCommand fn e).ctx (entryWord e 2 % 128)).queue = []) ∧
      ((u.ctx (entryWord e 2 % 128)).state = 2 → ((u.closeCommand fn e).ctx (entryWord e 2 % 128)).state = 2) := by
  unfold State.closeCommand
  extract_lets c x late v
  have hx : x.owner = fn ∧ x.state ≠ 0 := ⟨howner, hopen⟩
  rw [if_neg (by simp [hclean, hlt]), if_neg (by simp [hx])]
  have hv : v.ctx c = { x with deadline := none } ∨ v.ctx c = x ∧ x.state ≠ 1 := by
    unfold v
    split
    · exact .inl (State.ctx_setCtx_same ..)
    next hne => exact .inr ⟨rfl, hne⟩
  have hvs : (v.ctx c).state = x.state ∧ (v.ctx c).running = x.running := by
    rcases hv with hv | ⟨hv, -⟩ <;> rw [hv] <;> exact ⟨rfl, rfl⟩
  obtain ⟨hone, htwo⟩ := v.closeCtx_ctx c
  have hfit := (v.closeCtx c).reclaimFit_ctx fn late c
  rw [((State.answer_within ..).touch.ctx c : _), hfit.state, hfit.queue]
  rw [hvs.1, hvs.2] at hone
  rw [hvs.1] at htwo
  exact ⟨hone, htwo⟩

theorem closeContext_closes (now : Nat) (fn : Func) (entry : List Word) (s : State)
    (hnext : (s.advance now).nextUp fn.val 0x05 entry = true) (hclean : entryClean entry 3 = true) (hlt : entryWord entry 2 < 128)
    (howner : (s.ctx (entryWord entry 2 % 128)).owner = fn.val) :
    ((s.ctx (entryWord entry 2 % 128)).state = 1 → ∃ t, exec (.closeContext now fn entry) s = .next t ∧
      (t.ctx (entryWord entry 2 % 128)).state = (if (s.ctx (entryWord entry 2 % 128)).running then 2 else 0) ∧
      (t.ctx (entryWord entry 2 % 128)).queue = [] ∧ KeepsBytes s t nowhere) ∧
    ((s.ctx (entryWord entry 2 % 128)).state = 2 → ∃ t, exec (.closeContext now fn entry) s = .next t ∧
      (t.ctx (entryWord entry 2 % 128)).state = 2 ∧ KeepsBytes s t nowhere) := by
  have hrow : exec (.closeContext now fn entry) s =
      .next ((s.advance now).command fn.val 0x05 entry (fun t => t.closeCommand fn.val entry)) := rfl
  rw [State.command_of hnext] at hrow
  have htake := (s.advance now).takeAccepted_touches fn.val entry
  generalize (s.advance now).takeAccepted fn.val entry = u at hrow htake
  have hctx (k : Nat) : u.ctx k = s.ctx k := htake.ctx k
  have hw := u.closeCommand_within fn.val entry
  have hbytes : KeepsBytes s (u.closeCommand fn.val entry) nowhere :=
    .of_sram_eq ((show _ = u.sram from hw.touch.same .sram).trans (htake.same .sram)) _
  rw [← hctx] at howner ⊢
  refine ⟨fun h => ?_, fun h => ?_⟩
  · obtain ⟨hstate, hqueue⟩ := (State.closeCommand_closes hclean hlt howner (by rw [h]; decide)).1 h
    exact ⟨_, hrow, hstate, hqueue, hbytes⟩
  · exact ⟨_, hrow, (State.closeCommand_closes hclean hlt howner (by rw [h]; decide)).2 h, hbytes⟩

theorem contextClosed_closes (now : Nat) (ctx : Ctx) (s : State) (h : (s.ctx ctx.val).state = 2) (hrun : (s.ctx ctx.val).running = false) :
    ∃ t, exec (.contextClosed now ctx) s = .next t ∧ (t.ctx ctx.val).state = 0 ∧ KeepsBytes s t nowhere := by
  have hrow : exec (.contextClosed now ctx) s = if (s.ctx ctx.val).state = 2 && !(s.ctx ctx.val).running then
      .next (if (s.ctx ctx.val).deadline.isSome then ((s.advance now).setCtx ctx.val Context.closed).reclaimDone (s.ctx ctx.val).owner
        else ((s.advance now).setCtx ctx.val Context.closed).reclaimFit (s.ctx ctx.val).owner
          ((s.advance now).reclaimLate (s.ctx ctx.val).owner))
    else .next (s.advance now) := rfl
  rw [if_pos (by rw [h, hrun]; rfl)] at hrow
  have hset : ((s.advance now).setCtx ctx.val Context.closed).ctx ctx.val = Context.closed := State.ctx_setCtx_same ..
  have hw : Within ⟨[.ctxs], []⟩ (s.advance now) ((s.advance now).setCtx ctx.val Context.closed) := State.setCtx_within ..
  generalize (s.advance now).setCtx ctx.val Context.closed = u at hrow hset hw
  have hbytes {t : State} (k : t.sram = u.sram) : KeepsBytes s t nowhere := .of_sram_eq (k.trans (hw.touch.same .sram)) _
  cases hd : (s.ctx ctx.val).deadline.isSome with
  | true =>
    rw [hd, if_pos rfl] at hrow
    refine ⟨_, hrow, (State.reclaimDone_ctx ..).state.trans (congrArg Context.state hset), hbytes ?_⟩
    exact (State.reclaimDone_within ..).touch.same .sram
  | false =>
    rw [hd, if_neg (by decide)] at hrow
    refine ⟨_, hrow, (State.reclaimFit_ctx ..).state.trans (congrArg Context.state hset), hbytes ?_⟩
    exact (State.reclaimFit_within ..).touch.same .sram

/-! ### POST (R168, R185 to R188) -/

theorem exec_post {now : Nat} {fn : Func} {ctx : Ctx} {s : State} (h : Hosted s fn.val) :
    exec (.post now fn ctx) s = .next ((s.advance now).post fn.val ctx.val) := by
  have hrow : exec (.post now fn ctx) s = .next ((s.advance now).hosted fn.val (fun t => t.post fn.val ctx.val)) := rfl
  exact hrow.trans (congrArg Host.Outcome.next (State.hosted_of _ _ _ h))

/-- What a POST stores in its result: the code, and below it the sequence number, which an accepted one advances. -/
theorem State.postResult_word (s : State) (fn c : Nat) {r : Nat} (hr : r < 8) :
    (s.postResult fn c r).getF .SCTL_WORD (fn * 1152 + 9 * c + 8) = r * 536870912 +
      (if r < 2 then (s.getF .SCTL_WORD (fn * 1152 + 9 * c + 8) % 536870912 + 1) % 536870912
        else s.getF .SCTL_WORD (fn * 1152 + 9 * c + 8) % 536870912) := by
  refine (s.getF_setF_same .SCTL_WORD (fn * 1152 + 9 * c + 8) _).trans (Nat.mod_eq_of_lt ?_)
  change r * 536870912 + (if r < 2 then (s.getF .SCTL_WORD (fn * 1152 + 9 * c + 8) % 536870912 + 1) % 536870912
    else s.getF .SCTL_WORD (fn * 1152 + 9 * c + 8) % 536870912) < 4294967296
  split <;> omega

theorem State.postResult_code (s : State) (fn c : Nat) {r : Nat} (hr : r < 8) :
    (s.postResult fn c r).getF .SCTL_WORD (fn * 1152 + 9 * c + 8) / 536870912 = r := by
  rw [State.postResult_word s fn c hr]
  split <;> omega

theorem State.postResult_keepsRegs (s : State) (fn c r : Nat) :
    KeepsRegs s (s.postResult fn c r) (fun f i => f == .SCTL_WORD && i == fn * 1152 + 9 * c + 8) :=
  (KeepsRegs.refl s (fun f i => f == .SCTL_WORD && i == fn * 1152 + 9 * c + 8)).setF (by simp) _

theorem post_denied (now : Nat) (fn : Func) (ctx : Ctx) (s : State) (h : Hosted s fn.val)
    (hx : (s.ctx ctx.val).state ≠ 1 ∨ (s.ctx ctx.val).owner ≠ fn.val) :
    exec (.post now fn ctx) s = .next ((s.advance now).denied fn.val) := by
  refine (exec_post h).trans (congrArg Host.Outcome.next ?_)
  unfold State.post
  extract_lets x d u
  have hx' : x.state ≠ 1 ∨ x.owner ≠ fn.val := hx
  exact if_pos (by simpa using hx')

/-- What a POST to an open context of its function does. -/
theorem exec_post_open {now : Nat} {fn : Func} {ctx : Ctx} {s : State} (h : Hosted s fn.val) (hopen : (s.ctx ctx.val).state = 1)
    (howner : (s.ctx ctx.val).owner = fn.val) {d : FrameDesc} (hd : s.posted fn.val ctx.val = d) :
    exec (.post now fn ctx) s = .next (
      if 6 ≤ d.format then (s.advance now).postResult fn.val ctx.val 3
      else if badGeometry d (s.ingestCfg (s.ctx ctx.val).station) (s.lineMode (s.ctx ctx.val).src) then
        ((s.advance now).postResult fn.val ctx.val 4).addHold .SGT_CTX_DROPCNT_COUNT ctx.val 1
      else if (s.ctx ctx.val).queue.length < 16 then
        ((s.advance now).setCtx ctx.val { s.ctx ctx.val with queue := (s.ctx ctx.val).queue ++ [d] }).postResult fn.val ctx.val 0
      else if (s.ctx ctx.val).drop then
        (((s.advance now).addHold .SGT_CTX_DROPCNT_COUNT ctx.val 1).setCtx ctx.val
          { s.ctx ctx.val with queue := (s.ctx ctx.val).queue.drop 1 ++ [d] }).postResult fn.val ctx.val 1
      else ((s.advance now).addHold .SGT_CTX_DROPCNT_COUNT ctx.val 1).postResult fn.val ctx.val 2) := by
  subst hd
  refine (exec_post h).trans (congrArg Host.Outcome.next ?_)
  unfold State.post
  extract_lets x d u
  have hx : x.state = 1 ∧ x.owner = fn.val := ⟨hopen, howner⟩
  exact if_neg (by simp [hx])

theorem post_format (now : Nat) (fn : Func) (ctx : Ctx) (s : State) (h : Hosted s fn.val) (hopen : (s.ctx ctx.val).state = 1)
    (howner : (s.ctx ctx.val).owner = fn.val) (hf : 6 ≤ (s.posted fn.val ctx.val).format) :
    ∃ t, exec (.post now fn ctx) s = .next t ∧ t.getF .SCTL_WORD (fn.val * 1152 + 9 * ctx.val + 8) / 536870912 = 3 ∧
      t = { s.advance now with regs := t.regs } ∧
      KeepsRegs s t (fun f i => f == .SCTL_WORD && i == fn.val * 1152 + 9 * ctx.val + 8) := by
  have hrow := exec_post_open (now := now) h hopen howner rfl
  rw [if_pos hf] at hrow
  exact ⟨_, hrow, State.postResult_code _ _ _ (by decide), (State.postResult_within ..).touch.eq_withParts,
    (s.advance now).postResult_keepsRegs fn.val ctx.val 3⟩

theorem post_geometry (now : Nat) (fn : Func) (ctx : Ctx) (s : State) (h : Hosted s fn.val) (hopen : (s.ctx ctx.val).state = 1)
    (howner : (s.ctx ctx.val).owner = fn.val) (hf : (s.posted fn.val ctx.val).format < 6)
    (hbad : badGeometry (s.posted fn.val ctx.val) (s.ingestCfg (s.ctx ctx.val).station) (s.lineMode (s.ctx ctx.val).src) = true) :
    ∃ t, exec (.post now fn ctx) s = .next t ∧ t.getF .SCTL_WORD (fn.val * 1152 + 9 * ctx.val + 8) / 536870912 = 4 ∧
      t.getF .SGT_CTX_DROPCNT_COUNT ctx.val =
        min (s.getF .SGT_CTX_DROPCNT_COUNT ctx.val + 1) (2 ^ Fld.SGT_CTX_DROPCNT_COUNT.width - 1) ∧
      t = { s.advance now with regs := t.regs } := by
  have hrow := exec_post_open (now := now) h hopen howner rfl
  rw [if_neg (Nat.not_le.mpr hf), if_pos hbad] at hrow
  have hcode := (s.advance now).postResult_code fn.val ctx.val (r := 4) (by decide)
  have hw := (s.advance now).postResult_within fn.val ctx.val 4
  generalize (s.advance now).postResult fn.val ctx.val 4 = u at hrow hcode hw
  have hadd := u.addHold_within .SGT_CTX_DROPCNT_COUNT ctx.val 1
  refine ⟨_, hrow, ?_, ?_, (hadd.touch.after hw.touch).eq_withParts⟩
  · rw [hadd.getF _ _]
    exact hcode
  · rw [u.getF_addHold, hw.getF _ _]
    rfl

theorem post_queued (now : Nat) (fn : Func) (ctx : Ctx) (s : State) (h : Hosted s fn.val) (hopen : (s.ctx ctx.val).state = 1)
    (howner : (s.ctx ctx.val).owner = fn.val) (hf : (s.posted fn.val ctx.val).format < 6)
    (hgood : badGeometry (s.posted fn.val ctx.val) (s.ingestCfg (s.ctx ctx.val).station) (s.lineMode (s.ctx ctx.val).src) = false)
    (hroom : (s.ctx ctx.val).queue.length < 16) :
    ∃ t, exec (.post now fn ctx) s = .next t ∧
      t.ctx ctx.val = { s.ctx ctx.val with queue := (s.ctx ctx.val).queue ++ [s.posted fn.val ctx.val] } ∧
      t.getF .SCTL_WORD (fn.val * 1152 + 9 * ctx.val + 8) =
        (s.getF .SCTL_WORD (fn.val * 1152 + 9 * ctx.val + 8) % 536870912 + 1) % 536870912 ∧
      t = { s.advance now with regs := t.regs, ctxs := t.ctxs } ∧
      KeepsRegs s t (fun f i => f == .SCTL_WORD && i == fn.val * 1152 + 9 * ctx.val + 8) := by
  have hrow := exec_post_open (now := now) h hopen howner rfl
  rw [if_neg (Nat.not_le.mpr hf), hgood, if_neg (by decide), if_pos hroom] at hrow
  generalize { s.ctx ctx.val with queue := (s.ctx ctx.val).queue ++ [s.posted fn.val ctx.val] } = x at hrow
  have hset : ((s.advance now).setCtx ctx.val x).ctx ctx.val = x := State.ctx_setCtx_same ..
  have hw : Within ⟨[.ctxs], []⟩ (s.advance now) ((s.advance now).setCtx ctx.val x) := State.setCtx_within ..
  have hregs : KeepsRegs s ((s.advance now).setCtx ctx.val x) (fun f i => f == .SCTL_WORD && i == fn.val * 1152 + 9 * ctx.val + 8) :=
    .of_regs_eq rfl _
  generalize (s.advance now).setCtx ctx.val x = u at hrow hset hw hregs
  have hres := u.postResult_within fn.val ctx.val 0
  refine ⟨_, hrow, (hres.touch.ctx _).trans hset, ?_, ?_, hregs.trans (u.postResult_keepsRegs fn.val ctx.val 0)⟩
  · rw [State.postResult_word u _ _ (by decide), if_pos (by decide), Nat.zero_mul, Nat.zero_add, hw.getF _ _]
    rfl
  · exact (hres.after hw.mono : Within ⟨[.regs, .ctxs], [.SCTL_WORD]⟩ _ _).touch.eq_withParts

theorem post_full (now : Nat) (fn : Func) (ctx : Ctx) (s : State) (h : Hosted s fn.val) (hopen : (s.ctx ctx.val).state = 1)
    (howner : (s.ctx ctx.val).owner = fn.val) (hf : (s.posted fn.val ctx.val).format < 6)
    (hgood : badGeometry (s.posted fn.val ctx.val) (s.ingestCfg (s.ctx ctx.val).station) (s.lineMode (s.ctx ctx.val).src) = false)
    (hfull : 16 ≤ (s.ctx ctx.val).queue.length) :
    ∃ t, exec (.post now fn ctx) s = .next t ∧
      (t.ctx ctx.val).queue = (if (s.ctx ctx.val).drop then (s.ctx ctx.val).queue.drop 1 ++ [s.posted fn.val ctx.val]
        else (s.ctx ctx.val).queue) ∧
      t.getF .SGT_CTX_DROPCNT_COUNT ctx.val =
        min (s.getF .SGT_CTX_DROPCNT_COUNT ctx.val + 1) (2 ^ Fld.SGT_CTX_DROPCNT_COUNT.width - 1) ∧
      t.getF .SCTL_WORD (fn.val * 1152 + 9 * ctx.val + 8) / 536870912 = (if (s.ctx ctx.val).drop then 1 else 2) ∧
      t = { s.advance now with regs := t.regs, ctxs := t.ctxs } := by
  have hrow := exec_post_open (now := now) h hopen howner rfl
  rw [if_neg (Nat.not_le.mpr hf), hgood, if_neg (by decide), if_neg (Nat.not_lt.mpr hfull)] at hrow
  have hcount : ((s.advance now).addHold .SGT_CTX_DROPCNT_COUNT ctx.val 1).getF .SGT_CTX_DROPCNT_COUNT ctx.val =
      min (s.getF .SGT_CTX_DROPCNT_COUNT ctx.val + 1) (2 ^ Fld.SGT_CTX_DROPCNT_COUNT.width - 1) := State.getF_addHold ..
  have hadd : Within ⟨[.regs], [.SGT_CTX_DROPCNT_COUNT]⟩ (s.advance now) ((s.advance now).addHold .SGT_CTX_DROPCNT_COUNT ctx.val 1) :=
    State.addHold_within ..
  generalize (s.advance now).addHold .SGT_CTX_DROPCNT_COUNT ctx.val 1 = u at hrow hcount hadd
  cases hdrop : (s.ctx ctx.val).drop with
  | true =>
    rw [hdrop, if_pos rfl] at hrow
    generalize hx : { s.ctx ctx.val with queue := (s.ctx ctx.val).queue.drop 1 ++ [s.posted fn.val ctx.val] } = x at hrow
    have hset : (u.setCtx ctx.val x).ctx ctx.val = x := State.ctx_setCtx_same ..
    have hw : Within ⟨[.ctxs], []⟩ u (u.setCtx ctx.val x) := State.setCtx_within ..
    generalize u.setCtx ctx.val x = v at hrow hset hw
    have hres := v.postResult_within fn.val ctx.val 1
    refine ⟨_, hrow, ?_, ?_, State.postResult_code v _ _ (by decide), ?_⟩
    · rw [hres.touch.ctx, hset, ← hx]
      rfl
    · rw [hres.getF _ _, hw.getF _ _]
      exact hcount
    · exact (hres.after (hw.after hadd.mono) : Within ⟨[.regs, .ctxs], [.SCTL_WORD, .SGT_CTX_DROPCNT_COUNT]⟩ _ _).touch.eq_withParts
  | false =>
    rw [hdrop, if_neg (by decide)] at hrow
    have hres := u.postResult_within fn.val ctx.val 2
    refine ⟨_, hrow, ?_, (hres.getF _ _).trans hcount, State.postResult_code u _ _ (by decide), ?_⟩
    · rw [hres.touch.ctx, hadd.touch.ctx]
      rfl
    · exact (hres.after hadd.mono : Within ⟨[.regs, .ctxs], [.SCTL_WORD, .SGT_CTX_DROPCNT_COUNT]⟩ _ _).touch.eq_withParts

/-- Settles O27: contexts open and close, and posts are queued, refused or drop the oldest, as R168 and R181 to R188 say. -/
theorem contextsAndPosts : Obligations.ContextsAndPosts :=
  ⟨⟨fun now fn entry s hnext => ⟨openContext_opens now fn entry s hnext, fun hcode => by
      have hrow : exec (.openContext now fn entry) s =
        .next ((s.advance now).command fn.val 0x04 entry (fun t => t.openCommand fn.val entry)) := rfl
      rw [State.command_of hnext, State.openCommand_code hcode] at hrow
      exact hrow⟩,
    fun now fn entry s hnext => ⟨closeContext_closes now fn entry s hnext, closeContext_refuses now fn entry s hnext⟩,
    contextClosed_closes⟩,
    fun now fn ctx s h => ⟨post_denied now fn ctx s h, fun hopen howner => ⟨post_format now fn ctx s h hopen howner,
      post_geometry now fn ctx s h hopen howner, fun hf hgood => ⟨post_queued now fn ctx s h hopen howner hf hgood,
        post_full now fn ctx s h hopen howner hf hgood⟩⟩⟩⟩

end Sys2Proof.Machine
end

section
/-!
PROOF. Ports of the links: bring-up, time, loss (R332 to R340, R348, R349, O41).
-/

set_option Elab.async false

namespace Sys2Proof.Machine
open Sys2Proof

/-! ### What sending leaves of a port's state (R332 to R334) -/

/-- Two states of a port that differ only in the flits it sends and the credits it has given. -/
structure Link.Alike (x y : Link) : Prop where
  rx : y.rx = x.rx
  tries : y.tries = x.tries
  credits : y.credits = x.credits
  open_ : y.open_ = x.open_
  sending : y.sending = x.sending
  lostAt : y.lostAt = x.lostAt
  samples : y.samples = x.samples
  deficit : y.deficit = x.deficit
  outage : y.outage = x.outage
  lastSt : y.lastSt = x.lastSt

theorem Link.Alike.refl (x : Link) : Link.Alike x x := ⟨rfl, rfl, rfl, rfl, rfl, rfl, rfl, rfl, rfl, rfl⟩

theorem Link.Alike.trans {x y z : Link} (h : Link.Alike x y) (k : Link.Alike y z) : Link.Alike x z :=
  ⟨k.rx.trans h.rx, k.tries.trans h.tries, k.credits.trans h.credits, k.open_.trans h.open_, k.sending.trans h.sending,
    k.lostAt.trans h.lostAt, k.samples.trans h.samples, k.deficit.trans h.deficit, k.outage.trans h.outage, k.lastSt.trans h.lastSt⟩

/-- Every port's state is alike in both states. -/
structure LinksAlike (s t : State) : Prop where
  link (p : Nat) : Link.Alike (s.link p) (t.link p)

theorem LinksAlike.refl (s : State) : LinksAlike s s := ⟨fun _ => .refl _⟩

theorem LinksAlike.trans {s t u : State} (h : LinksAlike s t) (k : LinksAlike t u) : LinksAlike s u := ⟨fun p => (h.link p).trans (k.link p)⟩

theorem LinksAlike.of_links_eq {s t : State} (h : t.links = s.links) : LinksAlike s t := by
  refine ⟨fun p => ?_⟩
  unfold State.link
  rw [h]
  exact .refl _

theorem LinksAlike.of_within {w : Writes} {s t : State} (h : Within w s t) (hw : w.parts.contains .links = false := by decide) : LinksAlike s t :=
  .of_links_eq (show t.links = s.links from h.touch.same .links hw)

theorem State.link_setLink_same (s : State) (p : Nat) (x : Link) : (s.setLink p x).link p = x := smapGet_set_same ..

theorem State.link_setLink_ne (s : State) (p : Nat) (x : Link) {q : Nat} (h : p ≠ q) : (s.setLink p x).link q = s.link q :=
  smapGet_set_ne _ _ h

theorem LinksAlike.setLink (s : State) {p : Nat} {x : Link} (h : Link.Alike (s.link p) x) : LinksAlike s (s.setLink p x) := by
  refine ⟨fun q => ?_⟩
  by_cases hq : p = q
  · rw [← hq, State.link_setLink_same]
    exact h
  · rw [State.link_setLink_ne _ _ _ hq]
    exact .refl _

theorem LinksAlike.foldl {α : Type} {g : State → α → State} (hg : ∀ s a, LinksAlike s (g s a)) (l : List α) (s : State) :
    LinksAlike s (l.foldl g s) := by
  induction l generalizing s with
  | nil => exact .refl s
  | cons a l ih => exact (hg s a).trans (ih _)

theorem LinksAlike.ite {s t u : State} {c : Prop} [Decidable c] (ht : LinksAlike s t) (hu : LinksAlike s u) :
    LinksAlike s (if c then t else u) := by
  split
  · exact ht
  · exact hu

theorem State.sendFlit_links (s : State) (p type lchan dst : Nat) (payload : List Byte) :
    LinksAlike s (s.sendFlit p type lchan dst payload) := by
  unfold State.sendFlit
  extract_lets x f y
  have hset : LinksAlike s (s.setLink p y) := .setLink s ⟨rfl, rfl, rfl, rfl, rfl, rfl, rfl, rfl, rfl, rfl⟩
  exact hset.trans (.of_within (State.emit_within ..))

theorem State.sendFrame_links (s : State) (p type lchan dst : Nat) (payload : List Byte) :
    LinksAlike s (s.sendFrame p type lchan dst payload) := by
  unfold State.sendFrame
  extract_lets x
  exact .ite (s.sendFlit_links ..) (.setLink s ⟨rfl, rfl, rfl, rfl, rfl, rfl, rfl, rfl, rfl, rfl⟩)

theorem State.sendPeer_links (s : State) (p type : Nat) (payload : List Byte) : LinksAlike s (s.sendPeer p type payload) := by
  unfold State.sendPeer
  exact .ite (s.sendFrame_links ..) (.refl s)

theorem State.giveCredit_links (s : State) (p : Nat) (h : SlotRef) : LinksAlike s (s.giveCredit p h) := by
  unfold State.giveCredit
  extract_lets x c have_ free
  refine .ite (LinksAlike.trans (.setLink s ?_) (State.sendFrame_links ..)) (.refl s)
  exact ⟨rfl, rfl, rfl, rfl, rfl, rfl, rfl, rfl, rfl, rfl⟩

theorem State.giveCredits_links (s : State) (p : Nat) : LinksAlike s (s.giveCredits p) := by
  unfold State.giveCredits
  refine .ite (.foldl (fun u e => .foldl (fun v h => .ite (v.giveCredit_links p h) (.refl v)) _ u) _ s) (.refl s)

theorem State.mbxWake_links (s : State) (ch : Nat) : LinksAlike s (s.mbxWake ch) := by
  have hwait : LinksAlike s { s with wakes := s.wakes ++ [ch] } := .of_links_eq rfl
  unfold State.mbxWake
  extract_lets r
  refine .ite (.ite (.of_within (State.msix_within ..)) hwait) (.ite (.ite (s.sendPeer_links ..) hwait) (.of_within (State.emit_within ..)))

theorem State.deliverWakes_links (s : State) (ready gone : Nat → Bool) : LinksAlike s (s.deliverWakes ready gone) := by
  unfold State.deliverWakes
  extract_lets t
  have ht : LinksAlike s t := .of_links_eq rfl
  exact ht.trans (.foldl (fun u ch => u.mbxWake_links ch) _ t)

theorem State.onReg_link {s : State} (hon : s.dieOn 1 = true) {r : Reg} (hr : r.info.block = .link) (m : Nat) (ix : List Nat)
    (u : Nat) (t : State) : s.onReg m r ix u t = t := State.onReg_on _ _ _ _ _ _ (by rw [hr]; exact hon)

/-! ### The loss of a port (R348, R349) -/

theorem State.portLoses_link (s : State) (p : Nat) :
    ((s.portLoses p).link p).open_ = [] ∧ ((s.portLoses p).link p).sending = [] ∧ ((s.portLoses p).link p).rx = 0 := by
  unfold State.portLoses
  extract_lets u x _ v w z
  have hv : v.link p = { Link.idle with lostAt := u.time, outage := x.outage, deficit := x.deficit, lastSt := x.lastSt } :=
    State.link_setLink_same ..
  have hw : Within State.endInstanceWrites v w :=
    Within.foldl _ (fun _ _ => Within.ite _ (State.endInstance_within ..) (Within.refl _ _)) _ _
  have hz : Within State.mbxEmptyWrites w z :=
    Within.foldl _ (fun _ _ => Within.ite _ (State.mbxEmpty_within ..) (Within.refl _ _)) _ _
  have hlink : (z.staleOfs p).link p = v.link p :=
    ((State.staleOfs_within ..).touch.link p).trans ((hz.touch.link p).trans (hw.touch.link p))
  rw [hlink, hv]
  exact ⟨rfl, rfl, rfl⟩

/-- A port that was training further or up goes down. -/
theorem State.portDown_spec {s : State} {p next : Nat} (hst : 2 ≤ s.portState p ∧ s.portState p ≤ 4) (hnext : next < 8) :
    (s.portDown p next).portState p = next ∧ (s.portDown p next).getF .LNK_PSTAT_LANES p = 0 ∧
      (s.portDown p next).getF .LNK_PDOWNCNT_COUNT p =
        min (s.getF .LNK_PDOWNCNT_COUNT p + 1) (2 ^ Fld.LNK_PDOWNCNT_COUNT.width - 1) ∧
      ((s.portDown p next).link p).open_ = [] ∧ ((s.portDown p next).link p).sending = [] ∧ ((s.portDown p next).link p).rx = 0 := by
  unfold State.portDown
  extract_lets st u w
  rw [if_pos (by simpa [st] using hst)]
  have hlose := s.portLoses_within p
  have hlink := s.portLoses_link p
  have hu : Within ⟨[.regs], [.LNK_PDOWNCNT_COUNT]⟩ (s.portLoses p) u := State.addHold_within ..
  have hcount : u.getF .LNK_PDOWNCNT_COUNT p = min (s.getF .LNK_PDOWNCNT_COUNT p + 1) (2 ^ Fld.LNK_PDOWNCNT_COUNT.width - 1) := by
    refine (State.getF_addHold ..).trans ?_
    rw [hlose.getF _ _]
  have hstate : (u.setF .LNK_PSTAT_STATE p next).getF .LNK_PSTAT_STATE p = next :=
    (u.getF_setF_same .LNK_PSTAT_STATE p next).trans (Nat.mod_eq_of_lt hnext)
  have hv : Within ⟨[.regs], [.LNK_PSTAT_STATE]⟩ u (u.setF .LNK_PSTAT_STATE p next) := State.setF_within ..
  clear_value u
  generalize u.setF .LNK_PSTAT_STATE p next = v at hstate hv ⊢
  have hlanes : (v.setF .LNK_PSTAT_LANES p 0).getF .LNK_PSTAT_LANES p = 0 := State.getF_setF_same ..
  have hx : Within ⟨[.regs], [.LNK_PSTAT_LANES]⟩ v (v.setF .LNK_PSTAT_LANES p 0) := State.setF_within ..
  generalize v.setF .LNK_PSTAT_LANES p 0 = x at hlanes hx ⊢
  have hr := x.raise_within 0x20A 0xFF 0xFF p 0xFFFF []
  refine ⟨(hr.getF _ _).trans ((hx.getF _ _).trans hstate), (hr.getF _ _).trans hlanes,
    (hr.getF _ _).trans ((hx.getF _ _).trans ((hv.getF _ _).trans hcount)), ?_⟩
  rw [hr.touch.link, hx.touch.link, hv.touch.link, hu.touch.link]
  exact hlink

theorem linkDown_spec (now : Nat) (p : Fin 4) (cause : LinkDownCause) (s : State) (hon : s.dieOn 1 = true)
    (hlo : 2 ≤ s.portState p.val) (hhi : s.portState p.val ≤ 4) :
    (cause = .replays → 8 ≤ (s.link p.val).tries) → (cause = .enCleared → s.bit .LNK_PCFG_EN p.val = true) → ∃ t, exec (.linkDown now p cause) s = .next t ∧
      t.portState p.val = (match cause with | .lanesLost => 6 | .replays => 6 | .domainOff => 0 | .enCleared => 0) ∧
      (cause = .enCleared → t.getF .LNK_PCFG_EN p.val = 0) ∧ t.getF .LNK_PSTAT_LANES p.val = 0 ∧
      t.getF .LNK_PDOWNCNT_COUNT p.val = min (s.getF .LNK_PDOWNCNT_COUNT p.val + 1) (2 ^ Fld.LNK_PDOWNCNT_COUNT.width - 1) ∧
      (t.link p.val).open_ = [] ∧ (t.link p.val).sending = [] ∧ (t.link p.val).rx = 0 ∧ t.cells = s.cells := by
  intro htries hen
  have hdown {next : Nat} (hn : next < 8) := State.portDown_spec (s := s.advance now) (p := p.val) ⟨hlo, hhi⟩ hn
  have hcells (next : Nat) : ((s.advance now).portDown p.val next).cells = s.cells := (State.portDown_within ..).touch.same .cells
  cases cause with
  | lanesLost =>
    have hrow : exec (.linkDown now p .lanesLost) s = .next (if s.dieOn 1 then (s.advance now).portDown p.val 6 else s.advance now) := rfl
    rw [if_pos hon] at hrow
    obtain ⟨hstate, hlanes, hcount, hopen, hsend, hrx⟩ := hdown (next := 6) (by decide)
    exact ⟨_, hrow, hstate, (fun h => by cases h), hlanes, hcount, hopen, hsend, hrx, hcells 6⟩
  | replays =>
    have hrow : exec (.linkDown now p .replays) s =
      .next (if s.dieOn 1 && 8 ≤ (s.link p.val).tries then (s.advance now).portDown p.val 6 else s.advance now) := rfl
    rw [if_pos (by simp [hon, htries rfl])] at hrow
    obtain ⟨hstate, hlanes, hcount, hopen, hsend, hrx⟩ := hdown (next := 6) (by decide)
    exact ⟨_, hrow, hstate, (fun h => by cases h), hlanes, hcount, hopen, hsend, hrx, hcells 6⟩
  | domainOff =>
    obtain ⟨hstate, hlanes, hcount, hopen, hsend, hrx⟩ := hdown (next := 0) (by decide)
    exact ⟨_, rfl, hstate, (fun h => by cases h), hlanes, hcount, hopen, hsend, hrx, hcells 0⟩
  | enCleared =>
    have hrow : exec (.linkDown now p .enCleared) s = .next ((s.advance now).onReg 0x20 .LNK_PCFG [p.val] 0
      (if s.bit .LNK_PCFG_EN p.val then
        (((s.advance now).portDown p.val 0).setF .LNK_PCFG_EN p.val 0).setF .LNK_PSTAT_REASON p.val 0
      else s.advance now)) := rfl
    rw [if_pos (hen rfl), State.onReg_link (s := s.advance now) hon (r := .LNK_PCFG) rfl] at hrow
    obtain ⟨hstate, hlanes, hcount, hopen, hsend, hrx⟩ := hdown (next := 0) (by decide)
    have hcell := hcells 0
    generalize (s.advance now).portDown p.val 0 = u at hrow hstate hlanes hcount hopen hsend hrx hcell
    have hend : Within ⟨[.regs], [.LNK_PCFG_EN, .LNK_PSTAT_REASON]⟩ u ((u.setF .LNK_PCFG_EN p.val 0).setF .LNK_PSTAT_REASON p.val 0) :=
      (State.setF_within ..).after ((State.setF_within ..).mono)
    refine ⟨_, hrow, (hend.getF _ _).trans hstate, fun _ => ?_, (hend.getF _ _).trans hlanes, (hend.getF _ _).trans hcount, ?_⟩
    · exact ((State.setF_within ..).getF _ _).trans (u.getF_setF_same .LNK_PCFG_EN p.val 0)
    · rw [hend.touch.link]
      exact ⟨hopen, hsend, hrx, (show _ = u.cells from hend.touch.same .cells).trans hcell⟩

/-! ### Bring-up (R335 to R339) -/

theorem linkPortEnable_enables (now : Nat) (p : Fin 4) (s : State) (hon : s.dieOn 1 = true) (hlock : s.bit .LNK_CFG_LOCK 0 = true)
    (hoff : s.bit .LNK_PCFG_EN p.val = false) :
    ∃ t, exec (.linkPortEnable now p) s = .next t ∧ t.getF .LNK_PCFG_EN p.val = 1 ∧ t.portState p.val = 1 ∧
      t.getF .LNK_PSTAT_REASON p.val = 0 ∧ t = { s.advance now with regs := t.regs } := by
  have hrow : exec (.linkPortEnable now p) s = .next ((s.advance now).onReg 0x20 .LNK_PCFG [p.val] 0
    (if s.bit .LNK_CFG_LOCK 0 && !(s.bit .LNK_PCFG_EN p.val) then
      (((s.advance now).setF .LNK_PCFG_EN p.val 1).setF .LNK_PSTAT_STATE p.val 1).setF .LNK_PSTAT_REASON p.val 0 else s.advance now)) := rfl
  rw [hlock, hoff, if_pos (by decide : (true && !false) = true), State.onReg_link (s := s.advance now) hon (r := .LNK_PCFG) rfl] at hrow
  have hen := (s.advance now).getF_setF_same .LNK_PCFG_EN p.val 1
  have hu : Within ⟨[.regs], [.LNK_PCFG_EN]⟩ (s.advance now) ((s.advance now).setF .LNK_PCFG_EN p.val 1) := State.setF_within ..
  generalize (s.advance now).setF .LNK_PCFG_EN p.val 1 = u at hrow hen hu
  have hstate := u.getF_setF_same .LNK_PSTAT_STATE p.val 1
  have hv : Within ⟨[.regs], [.LNK_PSTAT_STATE]⟩ u (u.setF .LNK_PSTAT_STATE p.val 1) := State.setF_within ..
  generalize u.setF .LNK_PSTAT_STATE p.val 1 = v at hrow hstate hv
  have hw : Within ⟨[.regs], [.LNK_PSTAT_REASON]⟩ v (v.setF .LNK_PSTAT_REASON p.val 0) := State.setF_within ..
  exact ⟨_, hrow, (hw.getF _ _).trans ((hv.getF _ _).trans hen), (hw.getF _ _).trans hstate, v.getF_setF_same .LNK_PSTAT_REASON p.val 0,
    (hw.touch.after (hv.touch.after hu.touch)).eq_withParts⟩

theorem linkPortEnable_refused (now : Nat) (p : Fin 4) (s : State) (hon : s.dieOn 1 = true)
    (h : s.bit .LNK_CFG_LOCK 0 = false ∨ s.bit .LNK_PCFG_EN p.val = true) :
    exec (.linkPortEnable now p) s = .next (s.advance now) := by
  have hrow : exec (.linkPortEnable now p) s = .next ((s.advance now).onReg 0x20 .LNK_PCFG [p.val] 0
    (if s.bit .LNK_CFG_LOCK 0 && !(s.bit .LNK_PCFG_EN p.val) then
      (((s.advance now).setF .LNK_PCFG_EN p.val 1).setF .LNK_PSTAT_STATE p.val 1).setF .LNK_PSTAT_REASON p.val 0 else s.advance now)) := rfl
  rw [State.onReg_link (s := s.advance now) hon (r := .LNK_PCFG) rfl, if_neg] at hrow
  · exact hrow
  · rcases h with h | h <;> simp [h]

theorem linkTrainingDone_spec (now : Nat) (p : Fin 4) (s : State) (hon : s.dieOn 1 = true) (lanes : BitVec 8)
    (hstate : s.portState p.val = 1) :
    (4 ≤ ((List.range 8).filter (fun l => lanes.getLsbD l)).length →
      ∃ t, exec (.linkTrainingDone now p lanes) s = .next t ∧ t.portState p.val = 2 ∧
        t.getF .LNK_PSTAT_LANES p.val = lanes.toNat ∧ KeepsBytes s t nowhere ∧
        (s.sendsAtOnce p.val → t.out = .frame p.val 0xB 0 0 s.idPayload :: s.out)) ∧
    (((List.range 8).filter (fun l => lanes.getLsbD l)).length < 4 →
      exec (.linkTrainingDone now p lanes) s = .next (s.advance now)) := by
  have hrow : exec (.linkTrainingDone now p lanes) s = if s.dieOn 1 && s.portState p.val = 1 then
      if ((List.range 8).filter (fun l => lanes.getLsbD l)).length < 4 then .next (s.advance now)
      else .next ((((s.advance now).setF .LNK_PSTAT_LANES p.val lanes.toNat).setF .LNK_PSTAT_STATE p.val 2).sendFrame p.val 0xB 0 0
        (((s.advance now).setF .LNK_PSTAT_LANES p.val lanes.toNat).setF .LNK_PSTAT_STATE p.val 2).idPayload)
    else .next (s.advance now) := rfl
  rw [if_pos (by simp [hon, hstate])] at hrow
  refine ⟨fun hn => ?_, fun hn => hrow.trans (if_pos hn)⟩
  rw [if_neg (Nat.not_lt.mpr hn)] at hrow
  have hlanes : ((s.advance now).setF .LNK_PSTAT_LANES p.val lanes.toNat).getF .LNK_PSTAT_LANES p.val = lanes.toNat :=
    ((s.advance now).getF_setF_same .LNK_PSTAT_LANES p.val _).trans (Nat.mod_eq_of_lt lanes.isLt)
  have hu : Within ⟨[.regs], [.LNK_PSTAT_LANES]⟩ (s.advance now) ((s.advance now).setF .LNK_PSTAT_LANES p.val lanes.toNat) :=
    State.setF_within ..
  generalize (s.advance now).setF .LNK_PSTAT_LANES p.val lanes.toNat = u at hrow hlanes hu
  have htwo := u.getF_setF_same .LNK_PSTAT_STATE p.val 2
  have hv : Within ⟨[.regs], [.LNK_PSTAT_STATE]⟩ u (u.setF .LNK_PSTAT_STATE p.val 2) := State.setF_within ..
  generalize u.setF .LNK_PSTAT_STATE p.val 2 = v at hrow htwo hv
  have hsv : Within ⟨[.regs], [.LNK_PSTAT_LANES, .LNK_PSTAT_STATE]⟩ (s.advance now) v := hv.after hu.mono
  have hid : v.idPayload = s.idPayload := by
    unfold State.idPayload
    rw [show v.domain = s.domain from hsv.touch.same .domain, show v.devId = s.devId from hsv.getF .LNK_CFG_DEVID 0]
  have hlink : v.link p.val = s.link p.val := hsv.touch.link p.val
  have hw := v.sendFrame_within p.val 0xB 0 0 v.idPayload
  refine ⟨_, hrow, (hw.getF _ _).trans htwo, (hw.getF _ _).trans ((hv.getF _ _).trans hlanes),
    .of_sram_eq ((show _ = v.sram from hw.touch.same .sram).trans (hsv.touch.same .sram)) _, fun ⟨hroom, hnone⟩ => ?_⟩
  have hsend : v.sendFrame p.val 0xB 0 0 v.idPayload = v.sendFlit p.val 0xB 0 0 v.idPayload := by
    unfold State.sendFrame
    extract_lets x
    have hx : x = s.link p.val := hlink
    rw [hx]
    exact if_pos (by simp [hroom, hnone])
  rw [hsend, hid]
  have hout : v.out = s.out := hsv.touch.same .out
  exact congrArg (List.cons _) hout

theorem linkUp_spec (now : Nat) (p : Fin 4) (s : State) (hon : s.dieOn 1 = true) (hstate : s.portState p.val = 3)
    (hn : 64 ≤ (s.link p.val).samples.length) :
    ∃ t, exec (.linkUp now p) s = .next t ∧ t.portState p.val = 4 ∧ (t.link p.val).samples = [] ∧ (t.link p.val).outage = [] ∧
      KeepsBytes s t nowhere := by
  have hrow : ∃ f g h u x, Within State.setOffsetWrites (s.advance now) u ∧ exec (.linkUp now p) s =
      .next (((((u.setF .LNK_PSTAT_STATE p.val 4).setLink p.val x).farOffsets.giveCredits p.val).deliverWakes f g)) ∧
        x = { (u.setF .LNK_PSTAT_STATE p.val 4).link p.val with samples := [], outage := h } ∧ h = [] := by
    have hexec : exec (.linkUp now p) s = execLinkUp now p s := rfl
    rw [hexec]
    unfold execLinkUp
    extract_lets a x u _ w
    have hcond : (a.dieOn 1 && decide (a.portState p.val = 3) && decide (64 ≤ x.samples.length)) = true := by
      rw [show a.dieOn 1 = true from hon, show a.portState p.val = 3 from hstate, decide_eq_true (show 64 ≤ x.samples.length from hn)]
      rfl
    rw [if_pos hcond]
    exact ⟨_, _, _, a.setOffset p.val x.samples false, _, a.setOffset_within .., rfl, rfl, rfl⟩
  obtain ⟨f, g, h, u, x, hu, hrow, hx, hh⟩ := hrow
  have hfour := u.getF_setF_same .LNK_PSTAT_STATE p.val 4
  have hv : Within ⟨[.regs], [.LNK_PSTAT_STATE]⟩ u (u.setF .LNK_PSTAT_STATE p.val 4) := State.setF_within ..
  generalize u.setF .LNK_PSTAT_STATE p.val 4 = v at hrow hx hfour hv
  have hset : (v.setLink p.val x).link p.val = x := State.link_setLink_same ..
  have hxs : x.samples = [] ∧ x.outage = [] := by
    rw [hx]
    exact ⟨rfl, hh⟩
  have hw : Within ⟨[.links], []⟩ v (v.setLink p.val x) := State.setLink_within ..
  generalize v.setLink p.val x = w at hrow hset hw
  have hfar := w.farOffsets_within
  generalize w.farOffsets = y at hrow hfar
  have hcred := y.giveCredits_within p.val
  have hdel := (y.giveCredits p.val).deliverWakes_within f g
  have halike : LinksAlike w ((y.giveCredits p.val).deliverWakes f g) :=
    (LinksAlike.of_within hfar).trans ((y.giveCredits_links _).trans (State.deliverWakes_links ..))
  have hend : Within ⟨[.fresh, .offsets, .out, .pba, .links, .wakes], []⟩ v ((y.giveCredits p.val).deliverWakes f g) :=
    hdel.after (hcred.after (hfar.after hw.mono))
  refine ⟨_, hrow, (hend.getF _ _).trans hfour, (halike.link _).samples.trans ?_, (halike.link _).outage.trans ?_, ?_⟩
  · rw [hset]
    exact hxs.1
  · rw [hset]
    exact hxs.2
  · exact .of_sram_eq ((show _ = v.sram from hend.touch.same .sram).trans ((show v.sram = u.sram from hv.touch.same .sram).trans
      (hu.touch.same .sram))) _

theorem linkRetry_spec (now : Nat) (p : Fin 4) (s : State) (hon : s.dieOn 1 = true) (hstate : s.portState p.val = 6)
    (hen : s.bit .LNK_PCFG_EN p.val = true) (hlost : (s.link p.val).lostAt + 100000000 ≤ max s.time now) :
    exec (.linkRetry now p) s = .next ((s.advance now).setF .LNK_PSTAT_STATE p.val 1) := by
  have hrow : exec (.linkRetry now p) s = if s.dieOn 1 && s.portState p.val = 6 && s.bit .LNK_PCFG_EN p.val &&
      (s.link p.val).lostAt + 100000000 ≤ max s.time now then .next ((s.advance now).setF .LNK_PSTAT_STATE p.val 1)
    else .next (s.advance now) := rfl
  exact hrow.trans (if_pos (by simp only [hon, hstate, hen, decide_eq_true hlost, decide_true, Bool.and_self]))

/-! ### TIME_EXCHANGE (R339, R340) -/

theorem State.half2_cases (s : State) (v : Int) : s.half2 v = v / 2 ∨ (v % 2 ≠ 0 ∧ s.half2 v = v / 2 + 1) := by
  unfold State.half2
  split
  · exact .inl rfl
  next h =>
    rcases Nat.mod_two_eq_zero_or_one (Config.freeNat s.fresh) with hf | hf
    · exact .inl (by omega)
    · exact .inr ⟨h, by omega⟩

theorem State.setOffset_spec (s : State) (p : Nat) {xs : List (Int × Int)} {y : Int × Int} (h : bestSample xs = some y) (drift : Bool)
    (hpeer : s.getF .LNK_PSTAT_PEER p < 8) :
    smapGet 0 (s.setOffset p xs drift).offsets (s.getF .LNK_PSTAT_PEER p) = s.half2 y.2 ∧
      ((s.setOffset p xs drift).getF .LNK_OFSVAL_VALID 0).testBit (s.getF .LNK_PSTAT_PEER p) = true := by
  unfold State.setOffset
  rw [h]
  dsimp only
  refine ⟨smapGet_set_same .., ?_⟩
  rw [State.getF_setF_same, show Fld.width .LNK_OFSVAL_VALID = 8 from rfl, Nat.testBit_mod_two_pow, testBit_withBit_same]
  simp [hpeer]

theorem timeExchange_spec (now : Nat) (p : Fin 4) (stamps : List Stamps) (s : State) (y : Int × Int) (hon : s.dieOn 1 = true)
    (hup : s.linkUp p.val = true) (hpeer : s.getF .LNK_PSTAT_PEER p.val < 8)
    (hbest : bestSample (stamps.map (fun x => (x.delay, x.offset2))) = some y) :
    ∃ t, exec (.timeExchange now p stamps) s = .next t ∧
      (smapGet 0 t.offsets (s.getF .LNK_PSTAT_PEER p.val) = y.2 / 2 ∨
        (y.2 % 2 ≠ 0 ∧ smapGet 0 t.offsets (s.getF .LNK_PSTAT_PEER p.val) = y.2 / 2 + 1)) ∧
      (t.getF .LNK_OFSVAL_VALID 0).testBit (s.getF .LNK_PSTAT_PEER p.val) = true ∧
      t = { s.advance now with offsets := t.offsets, links := t.links, regs := t.regs, fresh := t.fresh } := by
  have hrow : exec (.timeExchange now p stamps) s = if s.dieOn 1 && s.linkUp p.val then
      .next (match stamps.getLast? with
        | some x => ((s.advance now).setOffset p.val (stamps.map (fun x => (x.delay, x.offset2))) true).setDelay p.val x.delay
        | none => (s.advance now).setOffset p.val (stamps.map (fun x => (x.delay, x.offset2))) true)
    else .next (s.advance now) := rfl
  rw [if_pos (by rw [hon, hup]; rfl)] at hrow
  obtain ⟨hoffset, hvalid⟩ := (s.advance now).setOffset_spec p.val hbest true hpeer
  have hw := (s.advance now).setOffset_within p.val (stamps.map (fun x => (x.delay, x.offset2))) true
  generalize (s.advance now).setOffset p.val (stamps.map (fun x => (x.delay, x.offset2))) true = u at hrow hoffset hvalid hw
  have hend : Within ⟨[.regs], [.LNK_PDLY_DELAY]⟩ u (match stamps.getLast? with | some x => u.setDelay p.val x.delay | none => u) := by
    split
    · exact u.setDelay_within ..
    · exact Within.refl _ _
  generalize (match stamps.getLast? with | some x => u.setDelay p.val x.delay | none => u) = t at hrow hend
  refine ⟨t, hrow, ?_, ?_, ?_⟩
  · rw [show t.offsets = u.offsets from hend.touch.same .offsets]
    refine Or.imp (fun h => hoffset.trans h) (fun ⟨hodd, h⟩ => ⟨hodd, hoffset.trans h⟩) ((s.advance now).half2_cases y.2)
  · rw [hend.getF _ _]
    exact hvalid
  · exact (hend.after hw.mono : Within ⟨[.offsets, .links, .regs, .fresh], [.LNK_PDLY_DELAY, .LNK_OFSVAL_VALID]⟩ _ _).touch.eq_withParts

/-- Settles O41: ports come up, exchange their time, go down and train again as R335 to R340, R348 and R349 say. -/
theorem linksComeAndGo : Obligations.LinksComeAndGo :=
  ⟨fun now p s hon => ⟨congrArg Host.Outcome.next (State.onReg_link (s := s.advance now) hon (r := .LNK_CFG) rfl _ _ _ _),
    linkPortEnable_enables now p s hon, linkPortEnable_refused now p s hon,
    fun lanes hstate => linkTrainingDone_spec now p s hon lanes hstate, linkUp_spec now p s hon, linkRetry_spec now p s hon⟩,
    timeExchange_spec, linkDown_spec⟩

end Sys2Proof.Machine
end

section
/-!
PROOF. Flits, replay and tiles over a link (R102, R103, R332 to R334, R343, R344, O42).
-/

set_option Elab.async false

namespace Sys2Proof.Machine
open Sys2Proof

/-! ### Flits in sequence (R332 to R334) -/

theorem State.sendHeld_rx (s : State) (p n q : Nat) : ((s.sendHeld p n).link q).rx = (s.link q).rx := by
  induction n generalizing s with
  | zero => rfl
  | succ n ih =>
    rw [State.sendHeld]
    split
    next f fs hx =>
      split
      · rw [ih, ((State.sendFlit_links ..).link q).rx]
        by_cases hq : p = q
        · rw [← hq, State.link_setLink_same]
        · rw [State.link_setLink_ne _ _ _ hq]
      · rfl
    next => rfl

theorem State.sentTiles_rx (s : State) (p q : Nat) : ((s.sentTiles p).link q).rx = (s.link q).rx := by
  unfold State.sentTiles
  extract_lets x left done u v
  have hu : Within ⟨[.regs], [.CMC_SLOT_STATE, .KMC_SLOT_STATE]⟩ s u := Within.foldl _ (fun _ _ => State.emptySlot_within ..) _ _
  have hend : Within ⟨[.stations], []⟩ v (done.foldl (fun u t => if left.any (fun v => v.st == t.st) then u else u.leaveTile t.st) v) :=
    Within.foldl _ (fun _ _ => Within.ite _ (Within.refl _ _) (State.leaveTile_within ..)) _ _
  rw [hend.touch.link]
  by_cases hq : p = q
  · rw [← hq]
    exact (congrArg Link.rx (State.link_setLink_same u p _)).trans rfl
  · exact congrArg Link.rx ((State.link_setLink_ne _ _ _ hq).trans (hu.touch.link q))

theorem State.acked_rx (s : State) (p a q : Nat) : ((s.acked p a).link q).rx = (s.link q).rx := by
  unfold State.acked
  extract_lets x fs gone sending
  split
  · rw [State.sendHeld_rx, State.sentTiles_rx]
    by_cases hq : p = q
    · rw [← hq, State.link_setLink_same]
    · rw [State.link_setLink_ne _ _ _ hq]
  · rfl

theorem State.taken_rx (s : State) (p : Nat) (f : Flit) : ((s.taken p f).link p).rx = ((s.link p).rx + 1) % 4096 := by
  unfold State.taken
  rw [State.acked_rx, State.link_setLink_same]

theorem State.taken_within (s : State) (p : Nat) (f : Flit) : Within State.ackedWrites s (s.taken p f) :=
  (State.acked_within ..).after ((State.setLink_within ..).mono)

/-- A flit in sequence is taken. -/
theorem State.rxFlit_of {s : State} {p : Nat} {f : Flit} (h : InSequence s p f) (body : State → State) :
    s.rxFlit p f body = (body (s.taken p f)).giveCredits p := by
  obtain ⟨htrained, hseq⟩ := h
  unfold State.rxFlit
  rw [htrained, if_neg (by decide), if_neg (not_not_intro hseq)]
  rfl

theorem InSequence.advance {s : State} {p : Nat} {f : Flit} (h : InSequence s p f) (now : Nat) : InSequence (s.advance now) p f := h

/-- A flit out of sequence is answered with NAK. -/
theorem State.rxFlit_nak {s : State} {p : Nat} {f : Flit} (ht : s.portTrained p = true) (h : f.fseq.toNat ≠ (s.link p).rx)
    (body : State → State) : s.rxFlit p f body = s.sendNak p := by
  unfold State.rxFlit
  rw [ht, if_neg (by decide), if_pos h]

theorem State.sendFrame_out {s : State} {p : Nat} (h : s.sendsAtOnce p) (type lchan dst : Nat) (payload : List Byte) :
    (s.sendFrame p type lchan dst payload).out = .frame p type lchan dst payload :: s.out := by
  obtain ⟨hroom, hnone⟩ := h
  unfold State.sendFrame
  extract_lets x
  rw [if_pos (by simp [x, hroom, hnone])]
  rfl

theorem State.sendNak_spec (s : State) (p : Nat) : ((s.sendNak p).link p).rx = (s.link p).rx ∧
    (s.sendsAtOnce p → (s.sendNak p).out = .frame p 0xA 0 (s.getF .LNK_PSTAT_PEER p) (leBytes 2 (s.link p).rx) :: s.out) :=
  ⟨((State.sendFrame_links ..).link p).rx, fun h => State.sendFrame_out h ..⟩

theorem idle_taken (now : Nat) (p : Fin 4) (f : Flit) (s : State) (h : InSequence s p.val f) :
    ∃ t, exec (.idle now p f) s = .next t ∧ (t.link p.val).rx = ((s.link p.val).rx + 1) % 4096 ∧ KeepsBytes s t nowhere := by
  have hrow : exec (.idle now p f) s = .next ((s.advance now).rxFlit p.val f (fun t => t)) := rfl
  rw [State.rxFlit_of (h.advance now)] at hrow
  have hrx := (s.advance now).taken_rx p.val f
  have hw := (s.advance now).taken_within p.val f
  generalize (s.advance now).taken p.val f = u at hrow hrx hw
  have hg := u.giveCredits_within p.val
  exact ⟨_, hrow, ((u.giveCredits_links _).link _).rx.trans hrx,
    .of_sram_eq ((show _ = u.sram from hg.touch.same .sram).trans (hw.touch.same .sram)) _⟩

theorem idle_nak (now : Nat) (p : Fin 4) (f : Flit) (s : State) (ht : s.portTrained p.val = true)
    (h : f.fseq.toNat ≠ (s.link p.val).rx) :
    ∃ t, exec (.idle now p f) s = .next t ∧ (t.link p.val).rx = (s.link p.val).rx ∧ (s.sendsAtOnce p.val →
      t.out = .frame p.val 0xA 0 (s.getF .LNK_PSTAT_PEER p.val) (leBytes 2 (s.link p.val).rx) :: s.out) := by
  have hrow : exec (.idle now p f) s = .next ((s.advance now).rxFlit p.val f (fun t => t)) := rfl
  rw [State.rxFlit_nak (s := s.advance now) ht h] at hrow
  exact ⟨_, hrow, (s.advance now).sendNak_spec p.val⟩

theorem flitCrcError_nak (now : Nat) (p : Fin 4) (crc : Bool) (s : State) (ht : s.portTrained p.val = true) :
    ∃ t, exec (.flitCrcError now p crc) s = .next t ∧ ((t.link p.val).rx = (s.link p.val).rx ∧ (s.sendsAtOnce p.val →
      t.out = .frame p.val 0xA 0 (s.getF .LNK_PSTAT_PEER p.val) (leBytes 2 (s.link p.val).rx) :: s.out)) ∧
      t.getF .LNK_PCRCERR_COUNT p.val =
        (if crc = true then min (s.getF .LNK_PCRCERR_COUNT p.val + 1) (2 ^ Fld.LNK_PCRCERR_COUNT.width - 1)
          else s.getF .LNK_PCRCERR_COUNT p.val) := by
  have hrow : exec (.flitCrcError now p crc) s = if s.portTrained p.val then
    .next ((if crc then (s.advance now).addHold .LNK_PCRCERR_COUNT p.val 1 else s.advance now).sendNak p.val) else .next (s.advance now) := rfl
  rw [if_pos ht] at hrow
  generalize hu : (if crc then (s.advance now).addHold .LNK_PCRCERR_COUNT p.val 1 else s.advance now) = u at hrow
  have hw : Within ⟨[.regs], [.LNK_PCRCERR_COUNT]⟩ (s.advance now) u := hu ▸ Within.ite _ (State.addHold_within ..) (Within.refl _ _)
  have hcount : u.getF .LNK_PCRCERR_COUNT p.val =
      (if crc = true then min (s.getF .LNK_PCRCERR_COUNT p.val + 1) (2 ^ Fld.LNK_PCRCERR_COUNT.width - 1)
        else s.getF .LNK_PCRCERR_COUNT p.val) := by
    rw [← hu]
    split
    · exact State.getF_addHold ..
    · rfl
  have hlink : u.link p.val = s.link p.val := hw.touch.link p.val
  have hout : u.out = s.out := hw.touch.same .out
  have hpeer : u.getF .LNK_PSTAT_PEER p.val = s.getF .LNK_PSTAT_PEER p.val := hw.getF _ _
  obtain ⟨hrx, hnak⟩ := u.sendNak_spec p.val
  refine ⟨_, hrow, ⟨hrx.trans (congrArg Link.rx hlink), fun h => ?_⟩, ?_⟩
  · rw [hnak (by unfold State.sendsAtOnce; rw [hlink]; exact h), hlink, hout, hpeer]
  · exact ((State.sendFrame_within ..).getF _ _).trans hcount

/-! ### Replay -/

theorem foldl_resend_spec (p : Nat) (fs : List SentFlit) (s : State) :
    Within ⟨[.out], []⟩ s (fs.foldl (fun u f => u.resend p f) s) ∧
      (fs.foldl (fun u f => u.resend p f) s).out =
        (fs.map (fun q => Output.frame p q.type q.lchan q.dst q.payload)).reverse ++ s.out := by
  refine ⟨Within.foldl _ (fun _ _ => State.resend_within ..) _ _, ?_⟩
  induction fs generalizing s with
  | nil => rfl
  | cons f fs ih =>
    rw [List.foldl_cons, ih, List.map_cons, List.reverse_cons, List.append_assoc]
    rfl

/-- A port whose tries count, with a flit to replay. -/
def State.retried (s : State) (p : Nat) : State :=
  (s.setLink p { s.link p with tries := (s.link p).tries + 1, ackAt := s.time }).addHold .LNK_PREPLAY_COUNT p 1

theorem State.replay_of {s : State} {p : Nat} {keep : SentFlit → Bool} (h : (s.link p).buf.any keep = true) :
    s.replay p keep = if 8 ≤ (s.link p).tries + 1 then (s.retried p).portDown p 6
      else ((s.link p).buf.dropWhile (fun f => !(keep f))).foldl (fun u f => u.resend p f) (s.retried p) := by
  have hne : ((s.link p).buf.dropWhile (fun f => !(keep f))).isEmpty = false := by
    rw [Bool.eq_false_iff]
    intro hnil
    obtain ⟨f, hf, hk⟩ := List.any_eq_true.mp h
    have hall := List.dropWhile_eq_nil_iff.mp (List.isEmpty_iff.mp hnil) f hf
    simp [hk] at hall
  unfold State.replay
  extract_lets x q u
  have hq : q.isEmpty = false := hne
  rw [hq]
  rfl

theorem State.retried_spec (s : State) (p : Nat) : ((s.retried p).link p).tries = (s.link p).tries + 1 ∧
    ((s.retried p).link p).buf = (s.link p).buf ∧
    (s.retried p).getF .LNK_PREPLAY_COUNT p = min (s.getF .LNK_PREPLAY_COUNT p + 1) (2 ^ Fld.LNK_PREPLAY_COUNT.width - 1) ∧
    Within ⟨[.regs, .links], [.LNK_PREPLAY_COUNT]⟩ s (s.retried p) := by
  unfold State.retried
  have hset := s.link_setLink_same p { s.link p with tries := (s.link p).tries + 1, ackAt := s.time }
  have hu : Within ⟨[.links], []⟩ s (s.setLink p { s.link p with tries := (s.link p).tries + 1, ackAt := s.time }) := State.setLink_within ..
  generalize s.setLink p { s.link p with tries := (s.link p).tries + 1, ackAt := s.time } = u at hset hu ⊢
  have hv : Within ⟨[.regs], [.LNK_PREPLAY_COUNT]⟩ u (u.addHold .LNK_PREPLAY_COUNT p 1) := State.addHold_within ..
  refine ⟨?_, ?_, ?_, hv.after hu.mono⟩
  · rw [hv.touch.link, hset]
  · rw [hv.touch.link, hset]
  · rw [u.getF_addHold, hu.getF _ _]

theorem replayTimeout_spec (now : Nat) (p : Fin 4) (s : State) (ht : s.portTrained p.val = true)
    (hack : (s.link p.val).ackAt + 2000 ≤ max s.time now) (hbuf : (s.link p.val).buf ≠ []) :
    ∃ t, exec (.replayTimeout now p) s = .next t ∧
      t.getF .LNK_PREPLAY_COUNT p.val = min (s.getF .LNK_PREPLAY_COUNT p.val + 1) (2 ^ Fld.LNK_PREPLAY_COUNT.width - 1) ∧
      ((s.link p.val).tries < 7 → (t.link p.val).tries = (s.link p.val).tries + 1 ∧
        (t.link p.val).buf = (s.link p.val).buf ∧
        t.out = (((s.link p.val).buf.map (fun q => Output.frame p.val q.type q.lchan q.dst q.payload)).reverse ++ s.out)) ∧
      (7 ≤ (s.link p.val).tries → t.portState p.val = 6) := by
  have hrow : exec (.replayTimeout now p) s = if s.portTrained p.val && (s.link p.val).ackAt + 2000 ≤ max s.time now then
    .next ((s.advance now).replay p.val (fun _ => true)) else .next (s.advance now) := rfl
  rw [if_pos (by rw [ht, decide_eq_true hack]; rfl)] at hrow
  have hany : ((s.advance now).link p.val).buf.any (fun _ => true) = true := by
    cases hb : (s.link p.val).buf with
    | nil => exact absurd hb hbuf
    | cons f fs =>
      change (s.link p.val).buf.any (fun _ => true) = true
      rw [hb]
      rfl
  rw [State.replay_of hany] at hrow
  obtain ⟨htries, hkept, hcount, hw⟩ := (s.advance now).retried_spec p.val
  have hstate : 2 ≤ s.portState p.val ∧ s.portState p.val ≤ 4 := by
    unfold State.portTrained at ht
    simp only [Bool.and_eq_true, decide_eq_true_eq] at ht
    exact ⟨ht.1.2, ht.2⟩
  have hport : (((s.advance now).retried p.val).portState p.val) = s.portState p.val := hw.getF _ _
  have hout : ((s.advance now).retried p.val).out = s.out := hw.touch.same .out
  generalize (s.advance now).retried p.val = u at hrow htries hkept hcount hport hout
  by_cases h7 : 7 ≤ (s.link p.val).tries
  · have h8 : 8 ≤ ((s.advance now).link p.val).tries + 1 := Nat.succ_le_succ h7
    rw [if_pos h8] at hrow
    have hdown := State.portDown_spec (s := u) (p := p.val) (by rw [hport]; exact hstate) (next := 6) (by decide)
    exact ⟨_, hrow, ((State.portDown_within ..).getF _ _).trans hcount, fun h => absurd h7 (Nat.not_le.mpr h), fun _ => hdown.1⟩
  · have h8 : ¬ 8 ≤ ((s.advance now).link p.val).tries + 1 := fun h => h7 (Nat.le_of_succ_le_succ h)
    rw [if_neg h8] at hrow
    have hall : ((s.advance now).link p.val).buf.dropWhile (fun _ => !true) = (s.link p.val).buf := by
      cases hb : (s.link p.val).buf with
      | nil => exact absurd hb hbuf
      | cons f fs =>
        change (s.link p.val).buf.dropWhile (fun _ => !true) = _
        rw [hb]
        rfl
    rw [hall] at hrow
    obtain ⟨hfold, hsent⟩ := foldl_resend_spec p.val (s.link p.val).buf u
    refine ⟨_, hrow, (hfold.getF _ _).trans hcount, fun _ => ⟨?_, ?_, ?_⟩, fun h => absurd h h7⟩
    · rw [hfold.touch.link]
      exact htries
    · rw [hfold.touch.link]
      exact hkept
    · rw [hsent, hout]

theorem nak_replays (now : Nat) (p : Fin 4) (f : Flit) (s : State) (h : InSequence s p.val f)
    (hany : (((s.advance now).taken p.val f).link p.val).buf.any (fun q => q.fseq == f.num 0 2 % 4096) = true)
    (hlt : (((s.advance now).taken p.val f).link p.val).tries < 7) :
    ∃ t, exec (.nak now p f) s = .next t ∧ (t.link p.val).tries = (((s.advance now).taken p.val f).link p.val).tries + 1 ∧
      t.getF .LNK_PREPLAY_COUNT p.val = min (s.getF .LNK_PREPLAY_COUNT p.val + 1) (2 ^ Fld.LNK_PREPLAY_COUNT.width - 1) := by
  have hrow : exec (.nak now p f) s =
    .next ((s.advance now).rxFlit p.val f (fun t => t.replay p.val (fun q => q.fseq == f.num 0 2 % 4096))) := rfl
  rw [State.rxFlit_of (h.advance now)] at hrow
  have hw := (s.advance now).taken_within p.val f
  generalize (s.advance now).taken p.val f = u at hrow hany hlt hw ⊢
  rw [State.replay_of hany, if_neg (show ¬ 8 ≤ (u.link p.val).tries + 1 by omega)] at hrow
  obtain ⟨htries, -, hcount, -⟩ := u.retried_spec p.val
  generalize u.retried p.val = v at hrow htries hcount
  generalize (u.link p.val).buf.dropWhile _ = fs at hrow
  obtain ⟨hfold, -⟩ := foldl_resend_spec p.val fs v
  generalize fs.foldl (fun u f => u.resend p.val f) v = x at hrow hfold
  refine ⟨_, hrow, ((x.giveCredits_links _).link _).tries.trans ?_, ((x.giveCredits_within _).getF _ _).trans ((hfold.getF _ _).trans ?_)⟩
  · rw [hfold.touch.link]
    exact htries
  · rw [hcount, hw.getF _ _]
    rfl

theorem reservedType_counts (now : Nat) (p : Fin 4) (ty : Byte) (f : Flit) (s : State) (h : InSequence s p.val f) (hty : 0x0C ≤ ty.toNat) :
    ∃ t, exec (.flitReservedType now p ty f) s = .next t ∧
      t.getF .LNK_PCRCERR_COUNT p.val = min (s.getF .LNK_PCRCERR_COUNT p.val + 1) (2 ^ Fld.LNK_PCRCERR_COUNT.width - 1) := by
  have hrow : exec (.flitReservedType now p ty f) s = .next (if ty.toNat < 0x0C then s.advance now
    else (s.advance now).rxFlit p.val f (fun t => t.addHold .LNK_PCRCERR_COUNT p.val 1)) := rfl
  rw [if_neg (Nat.not_lt.mpr hty), State.rxFlit_of (h.advance now)] at hrow
  have hw := (s.advance now).taken_within p.val f
  generalize (s.advance now).taken p.val f = u at hrow hw
  refine ⟨_, hrow, ((State.giveCredits_within ..).getF _ _).trans ((u.getF_addHold ..).trans ?_)⟩
  rw [hw.getF _ _]
  rfl

/-! ### Tiles received (R103, R343) -/

theorem State.onHop_own {s : State} {p : Nat} {f : Flit} (hup : s.portState p = 4) (hdst : f.dst.toNat = s.devId) (t : State) :
    s.onHop p f t = t := by
  unfold State.onHop
  rw [if_neg (not_not_intro hup), if_pos hdst]

theorem Within.hdrFlags {w : Writes} {s t : State} (h : Within w s t) (r : SlotRef) (hs : w.parts.contains .sram = false := by decide)
    (hk : w.flds.contains .KMC_SLOT_BASE = false := by decide) (hc : w.flds.contains .CMC_SLOT_BASE = false := by decide) :
    t.hdrFlags r = s.hdrFlags r := by
  unfold State.hdrFlags State.hdr State.bytes State.byte
  rw [h.slotAddr r hk hc, show t.sram = s.sram from h.touch.same .sram hs]

/-- A tile that is torn says so in its header. -/
theorem State.tear_flags (s : State) (r : SlotRef) : ((s.tear r).hdrFlags r).testBit 2 = true := by
  unfold State.tear
  extract_lets bs
  have hstore : (s.burn.store (s.slotAddr r) bs).byte (s.slotAddr r + 0x1F) = Config.freeByte s.fresh 0x1F ||| 4#8 := by
    refine (State.byte_setBytes s.burn (s.slotAddr r) bs (s.slotAddr r + 0x1F)).trans ?_
    have hlen : bs.length = 64 := (List.length_map ..).trans List.length_range
    rw [if_pos ⟨Nat.le_add_right _ _, by rw [hlen]; omega⟩, Nat.add_sub_cancel_left]
    rfl
  have hu : Within ⟨[.fresh, .sram, .ecc], []⟩ s (s.burn.store (s.slotAddr r) bs) :=
    (State.store_within ..).after ((State.burn_within ..).mono)
  have haddr := hu.slotAddr r
  generalize s.burn.store (s.slotAddr r) bs = u at hstore haddr ⊢
  have hw : Within ⟨State.fillSlotWrites.parts, .CMC_SLOT_TORN :: .KMC_SLOT_TORN :: State.fillSlotWrites.flds⟩ u
      ((u.setTorn r true).fillSlot r) := (State.fillSlot_within ..).after ((State.setTorn_within ..).mono)
  rw [hw.hdrFlags r]
  unfold State.hdrFlags State.hdr
  rw [haddr]
  change (leNat [u.byte (s.slotAddr r + 0x1F + 0)]).testBit 2 = true
  rw [Nat.add_zero, hstore]
  generalize Config.freeByte s.fresh 0x1F = b
  change ((b ||| 4#8).toNat + 256 * 0).testBit 2 = true
  rw [Nat.mul_zero, Nat.add_zero, BitVec.testBit_toNat, BitVec.getLsbD_or]
  simp

/-- The tile that a head opens. -/
def RxTile.opened (f : Flit) (r g : SlotRef) : RxTile := { slot := r, ring := g, head := f.payload.take 64, scale := f.num 64 4, codes := [] }

theorem State.takeTileHead_opens {u : State} {p st : Nat} {f : Flit} {g : SlotRef}
    (hst : u.linkStation 9 p f.lchan.toNat = some (st, g)) (hopen : smapGet none (u.link p).open_ f.lchan.toNat = none)
    (hslot : u.slot (u.nextWr g) = 0) (hon : u.slotOn (u.nextWr g) = true) (hgiven : smapGet 0 (u.link p).given f.lchan.toNat ≠ 0) :
    u.takeTileHead p f = (((u.setSlot (u.nextWr g) 1).stepWr g).enterTile st).setLink p
      { u.link p with
        open_ := smapSet none (u.link p).open_ f.lchan.toNat (some (RxTile.opened f (u.nextWr g) g))
        given := smapSet 0 (u.link p).given f.lchan.toNat (smapGet 0 (u.link p).given f.lchan.toNat - 1) } := by
  unfold State.takeTileHead
  rw [hst]
  simp only [hopen]
  refine if_pos ?_
  rw [hslot, hon]
  simpa using hgiven

theorem tileHead_opens (now : Nat) (p : Fin 4) (f : Flit) (s u : State) (hu : (s.advance now).taken p.val f = u) (h : InSequence s p.val f)
    (hup : u.portState p.val = 4) (hdst : f.dst.toNat = u.devId) (st : Nat) (g : SlotRef)
    (hst : u.linkStation 9 p.val f.lchan.toNat = some (st, g)) (hopen : smapGet none (u.link p.val).open_ f.lchan.toNat = none)
    (hslot : u.slot (u.nextWr g) = 0) (hon : u.slotOn (u.nextWr g) = true)
    (hgiven : smapGet 0 (u.link p.val).given f.lchan.toNat ≠ 0) :
    ∃ t o, exec (.tileHead now p f) s = .next t ∧ smapGet none (t.link p.val).open_ f.lchan.toNat = some o ∧ o.slot = u.nextWr g ∧
      o.head = f.payload.take 64 ∧ o.codes = [] ∧ t.slot (u.nextWr g) = 1 ∧
      ((u.station st).state = 1 → (t.station st).state = 2) ∧ KeepsBytes s t nowhere := by
  have hrow : exec (.tileHead now p f) s =
    .next ((s.advance now).rxFlit p.val f (fun t => t.onHop p.val f (t.takeTileHead p.val f))) := rfl
  have hw := (s.advance now).taken_within p.val f
  rw [State.rxFlit_of (h.advance now), hu, State.onHop_own hup hdst, State.takeTileHead_opens hst hopen hslot hon hgiven] at hrow
  rw [hu] at hw
  have hone := u.slot_setSlot_same (u.nextWr g) (v := 1) (by decide)
  have hv : Within ⟨[.regs, .rings], [.CMC_SLOT_STATE, .KMC_SLOT_STATE]⟩ u ((u.setSlot (u.nextWr g) 1).stepWr g) :=
    (State.stepWr_within ..).after ((State.setSlot_within ..).mono)
  have hvslot := ((u.setSlot (u.nextWr g) 1).stepWr_within g).slot (u.nextWr g)
  generalize (u.setSlot (u.nextWr g) 1).stepWr g = v at hrow hv hvslot
  have he := v.enterTile_within st
  have hstate (hk : (v.station st).state = 1) := State.enterTile_state hk
  generalize v.enterTile st = x at hrow he hstate
  generalize hl : ({ u.link p.val with
        open_ := smapSet none (u.link p.val).open_ f.lchan.toNat (some (RxTile.opened f (u.nextWr g) g))
        given := smapSet 0 (u.link p.val).given f.lchan.toNat (smapGet 0 (u.link p.val).given f.lchan.toNat - 1) } : Link) = l at hrow
  have hget : smapGet none l.open_ f.lchan.toNat = some (RxTile.opened f (u.nextWr g) g) := by
    rw [← hl]
    dsimp only
    rw [smapGet_set_same]
  clear hl
  have hset := x.link_setLink_same p.val l
  have hy : Within ⟨[.links], []⟩ x (x.setLink p.val l) := State.setLink_within ..
  generalize x.setLink p.val l = y at hrow hset hy
  have hg := y.giveCredits_within p.val
  have hend : Within ⟨[.out, .links], []⟩ x (y.giveCredits p.val) := hg.after hy.mono
  refine ⟨_, RxTile.opened f (u.nextWr g) g, hrow, ?_, rfl, rfl, rfl, ?_, fun hk => ?_, ?_⟩
  · rw [((y.giveCredits_links _).link _).open_, hset]
    exact hget
  · rw [hend.slot, he.slot, hvslot]
    exact hone
  · rw [hend.touch.station]
    refine hstate ?_
    rw [hv.touch.station]
    exact hk
  · exact .of_sram_eq ((show _ = x.sram from hend.touch.same .sram).trans ((show x.sram = v.sram from he.touch.same .sram).trans
      ((show v.sram = u.sram from hv.touch.same .sram).trans (hw.touch.same .sram)))) _

/-- An open tile is torn before anything else of a head. -/
theorem State.takeTileHead_tears {u : State} {p st : Nat} {f : Flit} {g : SlotRef} {o : RxTile}
    (hst : u.linkStation 9 p f.lchan.toNat = some (st, g)) (hopen : smapGet none (u.link p).open_ f.lchan.toNat = some o) :
    ∃ x : Link, Within ⟨[.regs, .rings, .stations, .links], [.CMC_SLOT_STATE, .KMC_SLOT_STATE]⟩ ((u.setLink p x).tear o.slot) (u.takeTileHead p f) := by
  unfold State.takeTileHead
  rw [hst]
  simp only [hopen]
  refine ⟨_, Within.ite _ ?_ ((State.leaveTile_within ..).mono)⟩
  exact (State.setLink_within ..).after ((State.enterTile_within ..).after ((State.stepWr_within ..).after ((State.setSlot_within ..).mono)))

theorem tileHead_tears (now : Nat) (p : Fin 4) (f : Flit) (s u : State) (hu : (s.advance now).taken p.val f = u) (h : InSequence s p.val f)
    (hup : u.portState p.val = 4) (hdst : f.dst.toNat = u.devId) {st : Nat} {g : SlotRef}
    (hst : u.linkStation 9 p.val f.lchan.toNat = some (st, g)) {o : RxTile}
    (hopen : smapGet none (u.link p.val).open_ f.lchan.toNat = some o) :
    ∃ t, exec (.tileHead now p f) s = .next t ∧ (t.hdrFlags o.slot).testBit 2 = true := by
  have hrow : exec (.tileHead now p f) s =
    .next ((s.advance now).rxFlit p.val f (fun t => t.onHop p.val f (t.takeTileHead p.val f))) := rfl
  rw [State.rxFlit_of (h.advance now), hu, State.onHop_own hup hdst] at hrow
  obtain ⟨x, hx⟩ := State.takeTileHead_tears hst hopen
  have hflags := (u.setLink p.val x).tear_flags o.slot
  refine ⟨_, hrow, ?_⟩
  rw [((State.giveCredits_within ..).hdrFlags o.slot), hx.hdrFlags]
  exact hflags

/-! ### Data, aborts and credits -/

/-- The number of codes of a tile, from its header. -/
def RxTile.total (o : RxTile) : Nat := leNat ((o.head.drop 0x1C).take 1) * leNat ((o.head.drop 0x20).take 2)

theorem State.takeTileData_of {u : State} {p st : Nat} {f : Flit} {g : SlotRef} {o : RxTile}
    (hst : u.linkStation 9 p f.lchan.toNat = some (st, g)) (hopen : smapGet none (u.link p).open_ f.lchan.toNat = some o) :
    u.takeTileData p f =
      if ((o.codes ++ f.payload.take 240).take o.total).length < o.total then
        u.setLink p { u.link p with
          open_ := smapSet none (u.link p).open_ f.lchan.toNat (some { o with codes := (o.codes ++ f.payload.take 240).take o.total }) }
      else (u.setLink p { u.link p with open_ := smapSet none (u.link p).open_ f.lchan.toNat none }).rxTile p st f.src.toNat
        { o with codes := (o.codes ++ f.payload.take 240).take o.total } := by
  unfold State.takeTileData
  rw [hst]
  simp only [hopen]
  rfl

theorem tileData_extends (now : Nat) (p : Fin 4) (f : Flit) (s u : State) (hu : (s.advance now).taken p.val f = u) (h : InSequence s p.val f)
    (hup : u.portState p.val = 4) (hdst : f.dst.toNat = u.devId) {st : Nat} {g : SlotRef}
    (hst : u.linkStation 9 p.val f.lchan.toNat = some (st, g)) {o : RxTile}
    (hopen : smapGet none (u.link p.val).open_ f.lchan.toNat = some o) (hlt : (o.codes ++ f.payload.take 240).length < o.total) :
    ∃ t, exec (.tileData now p f) s = .next t ∧
      smapGet none (t.link p.val).open_ f.lchan.toNat = some { o with codes := o.codes ++ f.payload.take 240 } ∧ KeepsBytes s t nowhere := by
  have hrow : exec (.tileData now p f) s =
    .next ((s.advance now).rxFlit p.val f (fun t => t.onHop p.val f (t.takeTileData p.val f))) := rfl
  have hw := (s.advance now).taken_within p.val f
  rw [hu] at hw
  rw [State.rxFlit_of (h.advance now), hu, State.onHop_own hup hdst, State.takeTileData_of hst hopen,
    List.take_of_length_le (Nat.le_of_lt hlt), if_pos hlt] at hrow
  generalize hl : ({ u.link p.val with
    open_ := smapSet none (u.link p.val).open_ f.lchan.toNat (some { o with codes := o.codes ++ f.payload.take 240 }) } : Link) = l at hrow
  have hget : smapGet none l.open_ f.lchan.toNat = some { o with codes := o.codes ++ f.payload.take 240 } := by
    rw [← hl]
    dsimp only
    rw [smapGet_set_same]
  clear hl
  have hset := u.link_setLink_same p.val l
  have hy : Within ⟨[.links], []⟩ u (u.setLink p.val l) := State.setLink_within ..
  generalize u.setLink p.val l = y at hrow hset hy
  have hg := y.giveCredits_within p.val
  refine ⟨_, hrow, ?_, .of_sram_eq ((show _ = y.sram from hg.touch.same .sram).trans ((show y.sram = u.sram from hy.touch.same .sram).trans
    (hw.touch.same .sram))) _⟩
  rw [((y.giveCredits_links _).link _).open_, hset]
  exact hget

/-- What writing a tile writes before its slot is filled. -/
def rxWrites : Writes := ⟨State.rxTileWrites.parts.filter (· != .rings), State.rxTileWrites.flds⟩

/-- A tile that is written fills its slot at its end. -/
theorem State.rxTile_fills (s : State) (p st src : Nat) (o : RxTile) : ∃ v : State,
    Within rxWrites s v ∧ s.rxTile p st src o = (v.fillSlot o.slot).leaveTile st := by
  unfold State.rxTile
  extract_lets _ _ _ _ _ _ _ _ w src1 s1 _ _ _ _ s2 s3 s4
  have hw : Within rxWrites s w.1 := (State.writeMem_within ..).mono
  have hsrc1 : Within rxWrites s src1 := hw
  have hs1 : Within rxWrites s s1 := Within.ite _ (Within.after (Within.update [.fresh] rfl) hsrc1) hw
  have hs2 : Within rxWrites s s2 := (State.writeMem_within ..).after hs1
  have hs3 : Within rxWrites s s3 := (State.count_within ..).after ((State.count_within ..).after
    ((State.count_within ..).after hs2))
  have hs4 : Within rxWrites s s4 := Within.ite _ hs3 (Within.trans hs3 (Within.foldl _ (fun _ _ =>
    (State.owlTake_within ..).mono) _ _))
  exact ⟨_, (State.pointsTake_within ..).after hs4, rfl⟩

theorem tileData_fills (now : Nat) (p : Fin 4) (f : Flit) (s u : State) (hu : (s.advance now).taken p.val f = u) (h : InSequence s p.val f)
    (hup : u.portState p.val = 4) (hdst : f.dst.toNat = u.devId) {st : Nat} {g : SlotRef}
    (hst : u.linkStation 9 p.val f.lchan.toNat = some (st, g)) {o : RxTile}
    (hopen : smapGet none (u.link p.val).open_ f.lchan.toNat = some o) (hle : o.total ≤ (o.codes ++ f.payload.take 240).length) :
    ∃ t, exec (.tileData now p f) s = .next t ∧ smapGet none (t.link p.val).open_ f.lchan.toNat = none ∧
      ((∀ g, u.ringOf o.slot = some g → (u.ring g).owed = []) → t.slot o.slot = 2) := by
  have hrow : exec (.tileData now p f) s =
    .next ((s.advance now).rxFlit p.val f (fun t => t.onHop p.val f (t.takeTileData p.val f))) := rfl
  have hlen : ((o.codes ++ f.payload.take 240).take o.total).length = o.total := by
    rw [List.length_take, Nat.min_eq_left hle]
  rw [State.rxFlit_of (h.advance now), hu, State.onHop_own hup hdst, State.takeTileData_of hst hopen,
    if_neg (by rw [hlen]; exact Nat.lt_irrefl _)] at hrow
  generalize hl : ({ u.link p.val with open_ := smapSet none (u.link p.val).open_ f.lchan.toNat none } : Link) = l at hrow
  have hget : smapGet none l.open_ f.lchan.toNat = none := by
    rw [← hl]
    dsimp only
    rw [smapGet_set_same]
  clear hl
  have hset := u.link_setLink_same p.val l
  have hv : Within ⟨[.links], []⟩ u (u.setLink p.val l) := State.setLink_within ..
  generalize u.setLink p.val l = v at hrow hset hv
  generalize ho : ({ o with codes := (o.codes ++ f.payload.take 240).take o.total } : RxTile) = o' at hrow
  have hslot : o'.slot = o.slot := by rw [← ho]
  have hrx := v.rxTile_within p.val st f.src.toNat o'
  obtain ⟨w, hw, heq⟩ := v.rxTile_fills p.val st f.src.toNat o'
  have hg := (v.rxTile p.val st f.src.toNat o').giveCredits_within p.val
  refine ⟨_, hrow, ?_, fun howed => ?_⟩
  · rw [((State.giveCredits_links _ _).link _).open_, hrx.touch.link, hset]
    exact hget
  · have hrings : w.rings = u.rings := (show w.rings = v.rings from hw.touch.same .rings).trans (hv.touch.same .rings)
    have howed' (k : SlotRef) (hk : w.ringOf o.slot = some k) : (w.ring k).owed = [] := by
      unfold State.ring State.ringOf at *
      rw [hrings] at hk ⊢
      exact howed k hk
    rw [hg.slot, heq, (State.leaveTile_within ..).slot, hslot, State.fillSlot_slot howed']
    exact State.slot_setSlot_same _ _ (by decide)

theorem tileAbort_tears (now : Nat) (p : Fin 4) (f : Flit) (s u : State) (hu : (s.advance now).taken p.val f = u) (h : InSequence s p.val f)
    (hup : u.portState p.val = 4) (hdst : f.dst.toNat = u.devId) {st : Nat} {g : SlotRef}
    (hst : u.linkStation 9 p.val f.lchan.toNat = some (st, g)) {o : RxTile}
    (hopen : smapGet none (u.link p.val).open_ f.lchan.toNat = some o) :
    ∃ t, exec (.tileAbort now p f) s = .next t ∧ smapGet none (t.link p.val).open_ f.lchan.toNat = none ∧
      (t.hdrFlags o.slot).testBit 2 = true := by
  have hrow : exec (.tileAbort now p f) s =
    .next ((s.advance now).rxFlit p.val f (fun t => t.onHop p.val f (t.takeTileAbort p.val f))) := rfl
  have habort : u.takeTileAbort p.val f = ((u.setLink p.val { u.link p.val with
      open_ := smapSet none (u.link p.val).open_ f.lchan.toNat none }).tear o.slot).leaveTile (u.ring o.ring).prod := by
    unfold State.takeTileAbort
    rw [hst]
    simp only [hopen]
    rfl
  rw [State.rxFlit_of (h.advance now), hu, State.onHop_own hup hdst, habort] at hrow
  generalize hl : ({ u.link p.val with open_ := smapSet none (u.link p.val).open_ f.lchan.toNat none } : Link) = l at hrow
  have hget : smapGet none l.open_ f.lchan.toNat = none := by
    rw [← hl]
    dsimp only
    rw [smapGet_set_same]
  clear hl
  have hset := u.link_setLink_same p.val l
  generalize u.setLink p.val l = v at hrow hset
  have ht := v.tear_within o.slot
  have hflags := v.tear_flags o.slot
  generalize v.tear o.slot = w at hrow ht hflags
  have hl := w.leaveTile_within (u.ring o.ring).prod
  have hg := (w.leaveTile (u.ring o.ring).prod).giveCredits_within p.val
  refine ⟨_, hrow, ?_, ?_⟩
  · rw [((State.giveCredits_links _ _).link _).open_, hl.touch.link, ht.touch.link, hset]
    exact hget
  · rw [hg.hdrFlags, hl.hdrFlags]
    exact hflags

theorem credit_adds (now : Nat) (p : Fin 4) (f : Flit) (s u : State) (hu : (s.advance now).taken p.val f = u) (h : InSequence s p.val f)
    (hup : u.portState p.val = 4) (hdst : f.dst.toNat = u.devId) :
    ∃ t, exec (.credit now p f) s = .next t ∧
      smapGet 0 (t.link p.val).credits f.lchan.toNat = smapGet 0 (u.link p.val).credits f.lchan.toNat + f.num 0 1 ∧ KeepsBytes s t nowhere := by
  have hrow : exec (.credit now p f) s =
    .next ((s.advance now).rxFlit p.val f (fun t => t.onHop p.val f (t.takeCredit p.val f))) := rfl
  have hw := (s.advance now).taken_within p.val f
  rw [hu] at hw
  have hcredit : u.takeCredit p.val f = u.setLink p.val { u.link p.val with
    credits := smapSet 0 (u.link p.val).credits f.lchan.toNat (smapGet 0 (u.link p.val).credits f.lchan.toNat + f.num 0 1) } := rfl
  rw [State.rxFlit_of (h.advance now), hu, State.onHop_own hup hdst, hcredit] at hrow
  generalize hl : ({ u.link p.val with
    credits := smapSet 0 (u.link p.val).credits f.lchan.toNat (smapGet 0 (u.link p.val).credits f.lchan.toNat + f.num 0 1) } : Link) = l at hrow
  have hget : smapGet 0 l.credits f.lchan.toNat = smapGet 0 (u.link p.val).credits f.lchan.toNat + f.num 0 1 := by
    rw [← hl]
    dsimp only
    rw [smapGet_set_same]
  clear hl
  have hset := u.link_setLink_same p.val l
  have hy : Within ⟨[.links], []⟩ u (u.setLink p.val l) := State.setLink_within ..
  generalize u.setLink p.val l = y at hrow hset hy
  have hg := y.giveCredits_within p.val
  refine ⟨_, hrow, ?_, .of_sram_eq ((show _ = y.sram from hg.touch.same .sram).trans ((show y.sram = u.sram from hy.touch.same .sram).trans
    (hw.touch.same .sram))) _⟩
  rw [((y.giveCredits_links _).link _).credits, hset]
  exact hget

/-! ### Tiles sent (R102, R344) -/

theorem State.drr_advance (s : State) (now p : Nat) (xs : List (Nat × SlotRef)) (n : Nat) (df : SMap Int) :
    (s.advance now).drr p xs df n = s.drr p xs df n := by
  induction n generalizing df with
  | zero => rfl
  | succ n ih =>
    simp only [State.drr, ih]
    rfl

theorem State.drr_nil (s : State) (p n : Nat) (df : SMap Int) : s.drr p [] df n = none := by
  induction n generalizing df with
  | zero => rfl
  | succ n ih =>
    have hpick (c : Nat → Option (Nat × (Nat × SlotRef))) : (List.range 129).findSome? (fun o => if ([] : List Nat).contains o then c o
        else none) = none := List.findSome?_eq_none_iff.mpr fun o _ => rfl
    rw [State.drr]
    simp only [List.map_nil, List.dedup_nil, List.foldl_nil]
    rw [hpick]
    exact ih _

/-- What a tile that is sent writes. -/
theorem State.sendTile_spec (s : State) (p st : Nat) (h : SlotRef) :
    (s.sendTile p st h).slot (s.nextRd h) = 3 ∧
      smapGet 0 ((s.sendTile p st h).link p).credits (s.ring h).lchan = smapGet 0 (s.link p).credits (s.ring h).lchan - 1 ∧
      (∃ y, y ∈ ((s.sendTile p st h).link p).sending ∧ y.st = st ∧ y.slot = s.nextRd h) := by
  unfold State.sendTile
  extract_lets x r y u c v w z l
  have hu : Within State.readEccWrites s u := State.readEcc_within ..
  have hslot := u.slot_setSlot_same r (v := 3) (by decide)
  have hv : Within ⟨[.regs, .rings, .stations], [.LNK_PSATCNT_COUNT]⟩ (u.setSlot r 3) v :=
    (State.addHold_within ..).after ((State.enterTile_within ..).after ((State.stepRd_within ..).mono))
  have hset : Within ⟨[.regs], [.CMC_SLOT_STATE, .KMC_SLOT_STATE]⟩ u (u.setSlot r 3) := State.setSlot_within ..
  have hw : Within ⟨[.out, .links], []⟩ v w := State.sendFrame_within ..
  have hz : Within ⟨[.out, .links], []⟩ w z := Within.foldl _ (fun _ _ => State.sendFrame_within ..) _ _
  have hwl : LinksAlike v w := State.sendFrame_links ..
  have hzl : LinksAlike w z := LinksAlike.foldl (fun _ _ => State.sendFrame_links ..) _ _
  have hlink : v.link p = s.link p := (hv.touch.link p).trans ((hset.touch.link p).trans (hu.touch.link p))
  have hcredits : l.credits = (s.link p).credits := by
    rw [← hlink]
    exact ((hwl.trans hzl).link p).credits
  clear_value u v w z
  have hend (k : Link) : Within ⟨[.links], []⟩ z (z.setLink p k) := State.setLink_within ..
  refine ⟨?_, ?_, ?_⟩
  · rw [(hend _).slot, hz.slot, hw.slot, hv.slot]
    exact hslot
  · rw [State.link_setLink_same, ← hcredits]
    dsimp only
    rw [smapGet_set_same]
  · rw [State.link_setLink_same]
    exact ⟨_, List.mem_append_right _ List.mem_cons_self, rfl, rfl⟩

/-- The row of LINK_SEND_TILE. -/
def State.linkSends (s : State) (p rounds : Nat) (xs : List (Nat × SlotRef)) (good : List (Nat × SlotRef)) : State :=
  match good.find? (fun e => s.torn (s.nextRd e.2)) with
  | some e => s.dropTorn e.1 e.2
  | none =>
    match s.drr p (good.filter (fun e => (s.link p).held.isEmpty && decide (0 < smapGet 0 (s.link p).credits (s.ring e.2).lchan)))
        ((s.link p).deficit.filter (fun e => xs.any (fun y => (s.station y.1).owner == e.1))) rounds with
    | some (st, h, df) => (s.setLink p { s.link p with deficit := df }).sendTile p st h
    | none => s

/-- The state after the outages of LINK_SEND_TILE. -/
def State.outages (s : State) (p : Nat) (out : List (Nat × SlotRef)) : State :=
  out.foldl
    (fun u e => (u.setLink p { u.link p with outage := (u.link p).outage ++ [e.1] }).raise 0x20A
      (u.station e.1).owner 0xFF p e.1 []) s

/-- Whether the device at the far end of a port is the one that a sender's ring names. -/
def State.fitsPeer (s : State) (p : Nat) (e : Nat × SlotRef) : Bool := s.linkUp p && (s.ring e.2).peer == s.getF .LNK_PSTAT_PEER p

theorem exec_linkSendTile (now : Nat) (p : Fin 4) {s : State} (hon : s.dieOn 1 = true) :
    exec (.linkSendTile now p) s = .next (((s.advance now).outages p.val ((s.senders p.val).filter
      (fun e => !(s.fitsPeer p.val e) && !((s.link p.val).outage.contains e.1)))).linkSends p.val 256 (s.senders p.val)
        ((s.senders p.val).filter (s.fitsPeer p.val))) := by
  have hexec : exec (.linkSendTile now p) s = execLinkSendTile now p s := rfl
  rw [hexec]
  unfold execLinkSendTile
  extract_lets a xs fit out good u x ready deficit
  have hon' : a.dieOn 1 = true := hon
  rw [hon', if_neg (by decide)]
  change _ = Host.Outcome.next (u.linkSends p.val 256 xs good)
  clear_value u
  unfold State.linkSends
  cases hf : good.find? (fun e => u.torn (u.nextRd e.2)) with
  | some e => rfl
  | none =>
    have hdrr (o : Option (Nat × SlotRef × SMap Int)) : (match o with
        | some (st, h, df) => .next ((u.setLink p.val { u.link p.val with deficit := df }).sendTile p.val st h)
        | none => .next u : Host.Outcome State Fault Refusal) = .next (match o with
          | some (st, h, df) => (u.setLink p.val { u.link p.val with deficit := df }).sendTile p.val st h
          | none => u) := by
      cases o <;> rfl
    exact hdrr _

theorem State.linkSends_torn {s : State} {p n : Nat} {xs good : List (Nat × SlotRef)} {e : Nat × SlotRef}
    (h : good.find? (fun e => s.torn (s.nextRd e.2)) = some e) : s.linkSends p n xs good = s.dropTorn e.1 e.2 := by
  unfold State.linkSends
  rw [h]

theorem State.linkSends_sends {s : State} {p n : Nat} {xs good : List (Nat × SlotRef)}
    (hf : good.find? (fun e => s.torn (s.nextRd e.2)) = none) {st : Nat} {h : SlotRef} {df : SMap Int}
    (hdrr : s.drr p (good.filter (fun e => (s.link p).held.isEmpty && decide (0 < smapGet 0 (s.link p).credits (s.ring e.2).lchan)))
      ((s.link p).deficit.filter (fun e => xs.any (fun y => (s.station y.1).owner == e.1))) n = some (st, h, df)) :
    s.linkSends p n xs good = (s.setLink p { s.link p with deficit := df }).sendTile p st h := by
  unfold State.linkSends
  rw [hf]
  dsimp only
  rw [hdrr]

theorem State.linkSends_idle (s : State) (p n : Nat) (xs : List (Nat × SlotRef)) : s.linkSends p n xs [] = s := by
  have hnone := s.drr_nil p n ((s.link p).deficit.filter (fun e => xs.any (fun y => (s.station y.1).owner == e.1)))
  unfold State.linkSends
  simp only [List.find?_nil, List.filter_nil, hnone]

theorem linkSendTile_sends (now : Nat) (p : Fin 4) (s : State) (hon : s.dieOn 1 = true)
    (hgood : (s.senders p.val).filter (s.fitsPeer p.val) = s.senders p.val) (st : Nat) (h : SlotRef) (df : SMap Int) (n : Nat) (hn : 256 = n)
    (htorn : ((s.senders p.val).filter (s.fitsPeer p.val)).find? (fun e => s.torn (s.nextRd e.2)) = none)
    (hdrr : s.drr p.val (((s.senders p.val).filter (s.fitsPeer p.val)).filter (fun e => (s.link p.val).held.isEmpty &&
        decide (0 < smapGet 0 (s.link p.val).credits (s.ring e.2).lchan)))
      ((s.link p.val).deficit.filter (fun e => (s.senders p.val).any (fun y => (s.station y.1).owner == e.1))) n = some (st, h, df)) :
    ∃ t, exec (.linkSendTile now p) s = .next t ∧ t.slot (s.nextRd h) = 3 ∧
      smapGet 0 (t.link p.val).credits (s.ring h).lchan = smapGet 0 (s.link p.val).credits (s.ring h).lchan - 1 ∧
      (∃ y, y ∈ (t.link p.val).sending ∧ y.st = st ∧ y.slot = s.nextRd h) ∧ KeepsBytes s t nowhere := by
  have hrow := exec_linkSendTile now p hon
  have hall (e : Nat × SlotRef) (he : e ∈ s.senders p.val) : s.fitsPeer p.val e = true := List.filter_eq_self.mp hgood e he
  have hnone : (s.senders p.val).filter (fun e => !(s.fitsPeer p.val e) && !((s.link p.val).outage.contains e.1)) = [] :=
    List.filter_eq_nil_iff.mpr fun e he => by simp [hall e he]
  rw [hnone, show (s.advance now).outages p.val [] = s.advance now from rfl,
    hn, State.linkSends_sends (s := s.advance now) htorn ((State.drr_advance ..).trans hdrr)] at hrow
  generalize hl : ({ (s.advance now).link p.val with deficit := df } : Link) = l at hrow
  have hcredits : l.credits = (s.link p.val).credits := by
    rw [← hl]
    rfl
  clear hl
  have hset := (s.advance now).link_setLink_same p.val l
  have hu : Within ⟨[.links], []⟩ (s.advance now) ((s.advance now).setLink p.val l) := State.setLink_within ..
  have hring : ((s.advance now).setLink p.val l).ring h = s.ring h := rfl
  have hnext : ((s.advance now).setLink p.val l).nextRd h = s.nextRd h := rfl
  generalize (s.advance now).setLink p.val l = u at hrow hset hu hring hnext
  obtain ⟨hslot, hcred, hsend⟩ := u.sendTile_spec p.val st h
  rw [hnext] at hslot hsend
  rw [hring, hset, hcredits] at hcred
  exact ⟨_, hrow, hslot, hcred, hsend, .of_sram_eq ((show _ = u.sram from (State.sendTile_within ..).touch.same .sram).trans
    (hu.touch.same .sram)) _⟩

theorem State.dropTorn_torn (s : State) (st : Nat) (h : SlotRef) : (s.dropTorn st h).torn (s.nextRd h) = false := by
  unfold State.dropTorn
  extract_lets r
  have hrest : Within ⟨[.regs, .rings], [.CMC_SLOT_STATE, .KMC_SLOT_STATE]⟩ (s.tornTaken st r) (((s.tornTaken st r).emptySlot r).stepRd h) :=
    (State.stepRd_within ..).after ((State.emptySlot_within ..).mono)
  rw [hrest.torn]
  unfold State.tornTaken
  extract_lets x
  have hset := s.torn_setTorn_same r false
  generalize s.setTorn r false = u at hset ⊢
  rw [(State.raise_within ..).torn, (State.count_within ..).torn]
  exact hset

theorem linkSendTile_drops (now : Nat) (p : Fin 4) (s : State) (hon : s.dieOn 1 = true)
    (hgood : (s.senders p.val).filter (s.fitsPeer p.val) = s.senders p.val) (e : Nat × SlotRef)
    (htorn : ((s.senders p.val).filter (s.fitsPeer p.val)).find? (fun e => s.torn (s.nextRd e.2)) = some e) :
    ∃ t, exec (.linkSendTile now p) s = .next t ∧ t.torn (s.nextRd e.2) = false ∧ KeepsBytes s t nowhere := by
  have hrow := exec_linkSendTile now p hon
  generalize 256 = n at hrow
  have hall (e : Nat × SlotRef) (he : e ∈ s.senders p.val) : s.fitsPeer p.val e = true := List.filter_eq_self.mp hgood e he
  have hnone : (s.senders p.val).filter (fun e => !(s.fitsPeer p.val e) && !((s.link p.val).outage.contains e.1)) = [] :=
    List.filter_eq_nil_iff.mpr fun e he => by simp [hall e he]
  rw [hnone, show (s.advance now).outages p.val [] = s.advance now from rfl, State.linkSends_torn (s := s.advance now) htorn] at hrow
  have hw := (s.advance now).dropTorn_within e.1 e.2
  have htorn' : ((s.advance now).dropTorn e.1 e.2).torn (s.nextRd e.2) = false := (s.advance now).dropTorn_torn e.1 e.2
  generalize (s.advance now).dropTorn e.1 e.2 = t at hrow hw htorn'
  exact ⟨t, hrow, htorn', .of_sram_eq (hw.touch.same .sram) _⟩

/-- Every outage is recorded, and none is forgotten. -/
theorem State.outages_spec (s : State) (p : Nat) (out : List (Nat × SlotRef)) :
    Within ⟨.links :: State.raiseWrites.parts, []⟩ s (s.outages p out) ∧
      ∀ n, (n ∈ (s.link p).outage ∨ n ∈ out.map (·.1)) → n ∈ ((s.outages p out).link p).outage := by
  refine ⟨Within.foldl _ (fun _ _ => (State.raise_within ..).after ((State.setLink_within ..).mono)) _ _, ?_⟩
  induction out generalizing s with
  | nil => exact fun n hn => hn.resolve_right List.not_mem_nil
  | cons e out ih =>
    intro n hn
    refine ih _ n ?_
    rw [(State.raise_within ..).touch.link, State.link_setLink_same]
    dsimp only
    rw [List.mem_append, List.mem_singleton]
    rw [List.map_cons, List.mem_cons] at hn
    rcases hn with hn | hn | hn
    · exact .inl (.inl hn)
    · exact .inl (.inr hn)
    · exact .inr hn

theorem linkSendTile_outage (now : Nat) (p : Fin 4) (s : State) (hon : s.dieOn 1 = true) (hdown : s.linkUp p.val = false) :
    ∃ t, exec (.linkSendTile now p) s = .next t ∧ (∀ e, e ∈ s.senders p.val → e.1 ∈ (t.link p.val).outage) ∧ KeepsBytes s t nowhere := by
  have hrow := exec_linkSendTile now p hon
  generalize 256 = n at hrow
  have hno (e : Nat × SlotRef) : s.fitsPeer p.val e = false := by
    unfold State.fitsPeer
    rw [hdown]
    rfl
  have hgood : (s.senders p.val).filter (s.fitsPeer p.val) = [] := List.filter_eq_nil_iff.mpr fun e _ => by simp [hno e]
  rw [hgood] at hrow
  generalize hout : (s.senders p.val).filter (fun e => !(s.fitsPeer p.val e) && !((s.link p.val).outage.contains e.1)) = out at hrow
  obtain ⟨hw, hmem⟩ := (s.advance now).outages_spec p.val out
  generalize (s.advance now).outages p.val out = u at hrow hw hmem
  rw [State.linkSends_idle] at hrow
  refine ⟨_, hrow, fun e he => hmem e.1 ?_, .of_sram_eq (hw.touch.same .sram) _⟩
  by_cases hin : e.1 ∈ (s.link p.val).outage
  · exact .inl hin
  · refine .inr (List.mem_map.mpr ⟨e, ?_, rfl⟩)
    rw [← hout, List.mem_filter]
    exact ⟨he, by simp [hno e, hin]⟩

/-- Settles O42: flits are taken in sequence or answered with NAK and replayed, and tiles go over a link, as R332 to R334, R343,
R344 and R349 say. -/
theorem flitsAndTiles : Obligations.FlitsAndTiles := by
  refine ⟨⟨idle_taken, fun now p f crc s ht => ⟨idle_nak now p f s ht, flitCrcError_nak now p crc s ht⟩, replayTimeout_spec,
    fun now p f s h => nak_replays now p f s h, reservedType_counts⟩, fun now p f s h hup hdst => ⟨?_, ?_, ?_⟩, fun now p s hon => ⟨?_, ?_⟩⟩
  · exact tileHead_opens now p f s _ rfl h hup hdst
  · exact fun st g o hst hopen => ⟨tileHead_tears now p f s _ rfl h hup hdst hst hopen, tileData_extends now p f s _ rfl h hup hdst hst hopen,
      tileData_fills now p f s _ rfl h hup hdst hst hopen, tileAbort_tears now p f s _ rfl h hup hdst hst hopen⟩
  · exact credit_adds now p f s _ rfl h hup hdst
  · exact fun hgood => ⟨fun st h df => linkSendTile_sends now p s hon hgood st h df 256 rfl, linkSendTile_drops now p s hon hgood⟩
  · exact linkSendTile_outage now p s hon

end Sys2Proof.Machine
end

section
/-!
PROOF. Frames over a link: rounds, values, mailbox, time and ID frames (R335 to R339, R345 to R347, O43).
-/

set_option Elab.async false

namespace Sys2Proof.Machine
open Sys2Proof

/-! ### Frames that a port takes (R332, R345 to R347) -/

theorem State.relay_own {s : State} {p : Nat} {f : Flit} (hup : s.portState p = 4) (hdst : f.dst.toNat = s.devId) (type : Nat) (t : State) :
    s.relay p f type t = t := by
  unfold State.relay
  rw [if_neg (not_not_intro hup), if_pos hdst]

/-- What is put out stays put out. -/
structure OutGrows (s t : State) : Prop where
  mem (o : Output) (h : o ∈ s.out) : o ∈ t.out

theorem OutGrows.refl (s : State) : OutGrows s s := ⟨fun _ h => h⟩

theorem OutGrows.trans {s t u : State} (h : OutGrows s t) (k : OutGrows t u) : OutGrows s u := ⟨fun o ho => k.mem o (h.mem o ho)⟩

theorem OutGrows.of_out_eq {s t : State} (h : t.out = s.out) : OutGrows s t := ⟨fun _ ho => h ▸ ho⟩

theorem OutGrows.foldl {α : Type} {g : State → α → State} (hg : ∀ s a, OutGrows s (g s a)) (l : List α) (s : State) :
    OutGrows s (l.foldl g s) := by
  induction l generalizing s with
  | nil => exact .refl s
  | cons a l ih => exact (hg s a).trans (ih _)

theorem OutGrows.ite {s t u : State} {c : Prop} [Decidable c] (ht : OutGrows s t) (hu : OutGrows s u) : OutGrows s (if c then t else u) := by
  split
  · exact ht
  · exact hu

theorem State.sendFrame_outGrows (s : State) (p type lchan dst : Nat) (payload : List Byte) :
    OutGrows s (s.sendFrame p type lchan dst payload) := by
  unfold State.sendFrame
  extract_lets x
  exact .ite ⟨fun o ho => List.mem_cons_of_mem _ ho⟩ (.of_out_eq rfl)

theorem State.giveCredits_outGrows (s : State) (p : Nat) : OutGrows s (s.giveCredits p) := by
  have hone (u : State) (h : SlotRef) : OutGrows u (u.giveCredit p h) := by
    unfold State.giveCredit
    extract_lets x c have_ free
    refine .ite (OutGrows.trans (t := u.setLink p { x with given := smapSet 0 x.given c free }) (.of_out_eq rfl) ?_) (.refl u)
    exact State.sendFrame_outGrows ..
  unfold State.giveCredits
  exact .ite (.foldl (fun u e => .foldl (fun v h => .ite (hone v h) (.refl v)) _ u) _ s) (.refl s)

/-! ### Barrier rounds and broadcast values (R345, R346) -/

/-- The rounds that a gathering holds are kept. -/
structure RoundsKept (g : Nat) (s t : State) : Prop where
  inst (b : BarInst) (h : (s.group g).inst = some b) : ∃ c, (t.group g).inst = some c ∧ ∀ k, k ∈ b.rounds → k ∈ c.rounds

theorem RoundsKept.refl (g : Nat) (s : State) : RoundsKept g s s := ⟨fun b h => ⟨b, h, fun _ hk => hk⟩⟩

theorem RoundsKept.trans {g : Nat} {s t u : State} (h : RoundsKept g s t) (k : RoundsKept g t u) : RoundsKept g s u := by
  refine ⟨fun b hb => ?_⟩
  obtain ⟨c, hc, hbc⟩ := h.inst b hb
  obtain ⟨d, hd, hcd⟩ := k.inst c hc
  exact ⟨d, hd, fun n hn => hcd n (hbc n hn)⟩

theorem RoundsKept.of_groups_eq {g : Nat} {s t : State} (h : t.groups = s.groups) : RoundsKept g s t := by
  refine ⟨fun b hb => ⟨b, ?_, fun _ hk => hk⟩⟩
  unfold State.group at *
  rw [h]
  exact hb

theorem State.latch_rounds (s : State) (g : Nat) : RoundsKept g s (s.latch g) := by
  unfold State.latch
  extract_lets x
  split
  next b hb =>
    split
    · refine ⟨fun c hc => ?_⟩
      rw [State.group_setGroup_same]
      have hbc : b = c := Option.some.inj (hb.symm.trans hc)
      exact ⟨_, rfl, fun k hk => hbc ▸ hk⟩
    · exact .refl g s
  next => exact .refl g s

theorem State.sendRounds_rounds (s : State) (g : Nat) : RoundsKept g s (s.sendRounds g) := by
  unfold State.sendRounds
  extract_lets u x
  have hu : RoundsKept g s u := s.latch_rounds g
  split
  · exact hu
  next b hb =>
    split
    · refine hu.trans (List.foldlRecOn (motive := fun t => RoundsKept g u t) _ _ (.refl g u) (fun t ht k _ => ht.trans ?_))
      split
      · extract_lets v y
        have hv : RoundsKept g t v := .of_groups_eq ((State.sendRound_within ..).touch.same .groups)
        split
        next c hc =>
          refine hv.trans ⟨fun d hd => ?_⟩
          rw [State.group_setGroup_same]
          have hcd : c = d := Option.some.inj (hc.symm.trans hd)
          exact ⟨_, rfl, fun n hn => List.mem_append_left _ (hcd ▸ hn)⟩
        next => exact hv
      · exact .refl g t
    · exact hu

theorem State.sendRounds_idle {s : State} {g : Nat} (h : (s.group g).inst = none) : s.sendRounds g = s := by
  have hl : s.latch g = s := by
    unfold State.latch
    extract_lets x
    rw [show x.inst = none from h]
  unfold State.sendRounds
  rw [hl]
  extract_lets _ x
  rw [show x.inst = none from h]

theorem State.instanceOver_inst (s : State) (g : Nat) (b : BarInst) (timedOut : Bool) :
    ((s.instanceOver g b timedOut).group g).inst = none := by
  unfold State.instanceOver
  extract_lets x u
  have hu : (u.group g).inst = none := (congrArg Group.inst (State.group_setGroup_same ..)).trans rfl
  split
  · exact (congrArg Group.inst ((State.thaw_within _).touch.group g)).trans hu
  · exact hu

theorem State.endInstance_inst (s : State) (g : Nat) (p7 timedOut : Bool) : ((s.endInstance g p7 timedOut).group g).inst = none := by
  cases h : (s.group g).inst with
  | none =>
    rw [State.endInstance_of_none h]
    exact h
  | some b =>
    rw [State.endInstance_of_some h, (State.resumeAll_touches ..).group g]
    exact s.instanceOver_inst g b timedOut

theorem State.groupMismatch_group (s : State) (g : Nat) :
    ((s.groupMismatch g).group g).disabled = true ∧ ((s.groupMismatch g).group g).inst = none := by
  unfold State.groupMismatch
  extract_lets u _
  have hu : (u.group g).inst = none := s.endInstance_inst ..
  rw [(State.raise_within ..).touch.group, State.group_setGroup_same]
  exact ⟨rfl, hu⟩

section Group
variable {u : State} {f : Flit} {g : Nat} {x : Group} (hg : f.num 0 1 % 64 = g) (hx : u.group g = x) (hdef : x.defined = true)
  (hscope : x.scope = 2) (hdis : x.disabled = false)
include hg hx hdef hscope hdis

theorem State.takeBarrier_mismatch (hinst : f.num 1 2 = 0) (hround : f.num 3 1 = 0) (hchecked : x.checked = false)
    (hne : ¬ (f.num 4 1 = x.scope ∧ f.num 5 1 = x.devmask ∧ f.num 6 4 = x.timeout)) : u.takeBarrier f = u.groupMismatch g := by
  subst hg hx
  unfold State.takeBarrier
  extract_lets g x inst k
  rw [if_neg (by simp [x, g, hdef, hscope, hdis])]
  refine if_pos ?_
  simp only [inst, k, hinst, hround, x, g, hchecked, Bool.not_false, decide_true, Bool.and_true, Bool.true_and, Bool.or_eq_true, bne_iff_ne]
  by_cases h4 : f.num 4 1 = (u.group (f.num 0 1 % 64)).scope
  · by_cases h5 : f.num 5 1 = (u.group (f.num 0 1 % 64)).devmask
    · exact .inr fun h6 => hne ⟨h4, h5, h6⟩
    · exact .inl (.inr h5)
  · exact .inl (.inl h4)

theorem State.takeBarrier_takes (hok : x.checked = true ∨ f.num 4 1 = x.scope ∧ f.num 5 1 = x.devmask ∧ f.num 6 4 = x.timeout) :
    u.takeBarrier f = ((u.setGroup g { x with checked := true }).takeRound g (f.num 1 2) (f.num 3 1)).sendRounds g := by
  subst hg hx
  unfold State.takeBarrier
  extract_lets g x inst k
  rw [if_neg (by simp [x, g, hdef, hscope, hdis])]
  refine if_neg ?_
  rcases hok with hok | ⟨h4, h5, h6⟩
  · simp [x, g, hok]
  · simp [x, g, h4, h5, h6]

end Group

theorem KeepsBytes.of_within {w : Writes} {s t : State} (h : Within w s t) (hw : w.parts.contains .sram = false := by decide) :
    KeepsBytes s t nowhere := .of_sram_eq (show t.sram = s.sram from h.touch.same .sram hw) _

/-- A round of the gathering in progress is one of its rounds, one before it is kept. -/
theorem State.takeRound_spec {s : State} {g : Nat} {x : Group} (hx : s.group g = x) {inst k : Nat} (hinst : inst = x.count % 65536) :
    (x.inst = none → (s.takeRound g inst k).group g = { x with early := x.early ++ [k] }) ∧
      (∀ b, x.inst = some b → (s.takeRound g inst k).group g = { x with inst := some { b with rounds := b.rounds ++ [k] } }) := by
  subst hx
  refine ⟨fun h => ?_, fun b h => ?_⟩
  · unfold State.takeRound
    simp only [h, hinst, if_true]
    exact State.group_setGroup_same ..
  · unfold State.takeRound
    simp only [h, hinst, if_true]
    exact State.group_setGroup_same ..

/-- A group with a broadcast value: of its gathering in progress, or ahead for the next. -/
def Group.valued (x : Group) (v : Word) : Group :=
  match x.inst with
  | some b => { x with inst := some { b with value := some (b.value.getD v) } }
  | none => { x with earlyVal := some (x.earlyVal.getD v) }

section Frames
variable {now : Nat} {p : Fin 4} {f : Flit} {s u : State} (hu : (s.advance now).taken p.val f = u) (h : InSequence s p.val f)
include hu

theorem taken_keepsBytes : KeepsBytes s u nowhere := by
  have hw := (s.advance now).taken_within p.val f
  rw [hu] at hw
  exact .of_sram_eq (hw.touch.same .sram) _

include h
variable (hup : u.portState p.val = 4) (hdst : f.dst.toNat = u.devId)
include hup hdst

theorem exec_barrierFrame : exec (.barrierFrame now p f) s = .next ((u.takeBarrier f).giveCredits p.val) := by
  have hrow : exec (.barrierFrame now p f) s =
    .next ((s.advance now).rxFlit p.val f (fun t => t.relay p.val f 5 (t.takeBarrier f))) := rfl
  rw [State.rxFlit_of (h.advance now), hu, State.relay_own hup hdst] at hrow
  exact hrow

theorem exec_bcastFrame : exec (.bcastFrame now p f) s = .next ((u.takeBcast f).giveCredits p.val) := by
  have hrow : exec (.bcastFrame now p f) s =
    .next ((s.advance now).rxFlit p.val f (fun t => t.relay p.val f 6 (t.takeBcast f))) := rfl
  rw [State.rxFlit_of (h.advance now), hu, State.relay_own hup hdst] at hrow
  exact hrow

section Group
variable {g : Nat} {x : Group} (hg : f.num 0 1 % 64 = g) (hx : u.group g = x) (hdef : x.defined = true) (hscope : x.scope = 2)
  (hdis : x.disabled = false)
include hg hx hdef hscope hdis

theorem barrierFrame_mismatch (hinst : f.num 1 2 = 0) (hround : f.num 3 1 = 0) (hchecked : x.checked = false)
    (hne : ¬ (f.num 4 1 = x.scope ∧ f.num 5 1 = x.devmask ∧ f.num 6 4 = x.timeout)) :
    ∃ t, exec (.barrierFrame now p f) s = .next t ∧ (t.group g).disabled = true ∧ (t.group g).inst = none := by
  have hrow := exec_barrierFrame hu h hup hdst
  rw [State.takeBarrier_mismatch hg hx hdef hscope hdis hinst hround hchecked hne] at hrow
  refine ⟨_, hrow, ?_⟩
  rw [(State.giveCredits_within ..).touch.group]
  exact u.groupMismatch_group g

theorem barrierFrame_takes (hinst : f.num 1 2 = x.count % 65536)
    (hok : x.checked = true ∨ f.num 4 1 = x.scope ∧ f.num 5 1 = x.devmask ∧ f.num 6 4 = x.timeout) :
    (x.inst = none → ∃ t, exec (.barrierFrame now p f) s = .next t ∧ (t.group g).early = x.early ++ [f.num 3 1] ∧
      (t.group g).inst = none ∧ KeepsBytes s t nowhere) ∧
    (∀ b, x.inst = some b → ∃ t c, exec (.barrierFrame now p f) s = .next t ∧ (t.group g).inst = some c ∧
      f.num 3 1 ∈ c.rounds ∧ KeepsBytes s t nowhere) := by
  have hrow := exec_barrierFrame hu h hup hdst
  rw [State.takeBarrier_takes hg hx hdef hscope hdis hok] at hrow
  have hbytes := taken_keepsBytes hu
  have hset := u.group_setGroup_same g { x with checked := true }
  have hv : Within ⟨[.groups], []⟩ u (u.setGroup g { x with checked := true }) := State.setGroup_within ..
  generalize u.setGroup g { x with checked := true } = v at hrow hset hv
  obtain ⟨hnone, hsome⟩ := State.takeRound_spec hset (k := f.num 3 1) hinst
  have ht := v.takeRound_within g (f.num 1 2) (f.num 3 1)
  generalize v.takeRound g (f.num 1 2) (f.num 3 1) = w at hrow hnone hsome ht
  have hsend := w.sendRounds_within g
  have hcred := (w.sendRounds g).giveCredits_within p.val
  have hall : KeepsBytes s ((w.sendRounds g).giveCredits p.val) nowhere :=
    hbytes.trans (.of_within (hcred.after (hsend.after (ht.after hv.mono)) : Within ⟨[.out, .groups, .links], []⟩ _ _))
  refine ⟨fun hi => ?_, fun b hi => ?_⟩
  · have hwg := hnone hi
    have hidle : w.sendRounds g = w := State.sendRounds_idle (by rw [hwg]; exact hi)
    refine ⟨_, hrow, ?_, ?_, hall⟩
    · rw [hcred.touch.group, hidle, hwg]
    · rw [hcred.touch.group, hidle, hwg]
      exact hi
  · have hwg := hsome b hi
    obtain ⟨c, hc, hkept⟩ := (w.sendRounds_rounds g).inst { b with rounds := b.rounds ++ [f.num 3 1] } (by rw [hwg])
    refine ⟨_, c, hrow, ?_, hkept _ (List.mem_append_right _ List.mem_cons_self), hall⟩
    rw [hcred.touch.group]
    exact hc

omit hu h hup hdst in
theorem State.takeBcast_takes (hinst : f.num 1 2 = x.count % 65536) : ∃ m, u.takeBcast f =
    (u.setGroup g (x.valued (BitVec.ofNat 32 (f.num 3 4)))).sendBcast g m (BitVec.ofNat 32 (f.num 3 4)) := by
  subst hg hx
  unfold State.takeBcast
  extract_lets g x v ds step t
  rw [if_neg (by simp [x, g, hdef, hscope, hdis])]
  have hinst' : f.num 1 2 = x.count % 65536 := hinst
  have ht : t = u.setGroup g (x.valued v) := by
    unfold t Group.valued
    cases x.inst with
    | none => exact if_pos hinst'
    | some b => exact if_pos hinst'
  exact ⟨_, congrArg (fun t => t.sendBcast g (clog2 (step + 1)) v) ht⟩

theorem bcastFrame_takes (hinst : f.num 1 2 = x.count % 65536) :
    (x.inst = none → ∃ t, exec (.bcastFrame now p f) s = .next t ∧
      (t.group g).earlyVal = some (x.earlyVal.getD (BitVec.ofNat 32 (f.num 3 4))) ∧ KeepsBytes s t nowhere) ∧
    (∀ b, x.inst = some b → ∃ t, exec (.bcastFrame now p f) s = .next t ∧
      (t.group g).inst = some { b with value := some (b.value.getD (BitVec.ofNat 32 (f.num 3 4))) } ∧ KeepsBytes s t nowhere) := by
  have hrow := exec_bcastFrame hu h hup hdst
  have hbytes := taken_keepsBytes hu
  obtain ⟨m, htake⟩ := State.takeBcast_takes hg hx hdef hscope hdis hinst
  rw [htake] at hrow
  generalize hy : x.valued (BitVec.ofNat 32 (f.num 3 4)) = y at hrow
  have hnone (hi : x.inst = none) : y.earlyVal = some (x.earlyVal.getD (BitVec.ofNat 32 (f.num 3 4))) := by
    rw [← hy]
    unfold Group.valued
    rw [hi]
  have hsome (b : BarInst) (hi : x.inst = some b) : y.inst = some { b with value := some (b.value.getD (BitVec.ofNat 32 (f.num 3 4))) } := by
    rw [← hy]
    unfold Group.valued
    rw [hi]
  have hset := u.group_setGroup_same g y
  have hv : Within ⟨[.groups], []⟩ u (u.setGroup g y) := State.setGroup_within ..
  generalize u.setGroup g y = v at hrow hset hv
  have hsend := v.sendBcast_within g m (BitVec.ofNat 32 (f.num 3 4))
  generalize v.sendBcast g m (BitVec.ofNat 32 (f.num 3 4)) = w at hrow hsend
  have hcred := w.giveCredits_within p.val
  have hall : KeepsBytes s (w.giveCredits p.val) nowhere :=
    hbytes.trans (.of_within (hcred.after (hsend.after hv.mono) : Within ⟨[.out, .groups, .links], []⟩ _ _))
  have hend : (w.giveCredits p.val).group g = y := (hcred.touch.group g).trans ((hsend.touch.group g).trans hset)
  refine ⟨fun hi => ⟨_, hrow, ?_, hall⟩, fun b hi => ⟨_, hrow, ?_, hall⟩⟩
  · rw [hend, hnone hi]
  · rw [hend, hsome b hi]

end Group

/-! ### Mailbox frames (R347) -/

omit hu h hup hdst in
theorem State.mbxAccept_spec (s : State) (ch : Nat) {ws : List Nat} (hn : ws.length < 32) :
    (s.mbxAccept ch ws).mbxFull ch = true ∧ (s.mbxAccept ch ws).getF .MBX_CH_STAT_NWORDS ch = ws.length := by
  unfold State.mbxAccept
  extract_lets _ a v w
  generalize hx : v.setF .MBX_CH_STAT_FULL ch 1 = x
  have hfull : x.getF .MBX_CH_STAT_FULL ch = 1 := hx ▸ v.getF_setF_same .MBX_CH_STAT_FULL ch 1
  generalize hy : (x.setF .MBX_CH_STAT_TMO ch 0).setF .MBX_CH_STAT_DISCARD ch 0 = y
  have kxy : Within ⟨[.regs], [.MBX_CH_STAT_TMO, .MBX_CH_STAT_DISCARD]⟩ x y := by
    rw [← hy]
    exact (State.setF_within ..).after ((State.setF_within ..).mono)
  generalize hz : y.setF .MBX_CH_STAT_NWORDS ch ws.length = z
  have hwords : z.getF .MBX_CH_STAT_NWORDS ch = ws.length := by
    rw [← hz]
    exact (y.getF_setF_same .MBX_CH_STAT_NWORDS ch ws.length).trans (Nat.mod_eq_of_lt hn)
  have kyz : Within ⟨[.regs], [.MBX_CH_STAT_NWORDS]⟩ y z := hz ▸ State.setF_within ..
  have hw : w = z.addWrap .MBX_CH_STAT_POSTS ch 1 := by rw [← hz, ← hy, ← hx]
  have kzw : Within ⟨[.regs], [.MBX_CH_STAT_POSTS]⟩ z w := hw ▸ State.addWrap_within ..
  have hwake := w.mbxWake_within ch
  unfold State.mbxFull
  rw [hwake.bit _ _, hwake.getF _ _, kzw.bit _ _, kzw.getF _ _, kyz.bit _ _, kxy.bit _ _]
  refine ⟨?_, hwords⟩
  unfold State.bit
  rw [hfull]
  rfl

theorem mbxPostFrame_fills (hch : f.num 0 1 < 64) (hlo : 1 ≤ f.num 1 1) (hhi : f.num 1 1 ≤ 16) (hbound : u.mbxBound (f.num 0 1) = true)
    (hsender : u.mbxSender (f.num 0 1) = 0x30 + p.val) (htakes : u.mbxTakes (f.num 0 1) = true) :
    ∃ t, exec (.mbxPostFrame now p f) s = .next t ∧ t.mbxFull (f.num 0 1) = true ∧
      t.getF .MBX_CH_STAT_NWORDS (f.num 0 1) = f.num 1 1 ∧ KeepsBytes s t nowhere := by
  have hrow : exec (.mbxPostFrame now p f) s =
    .next ((s.advance now).rxFlit p.val f (fun t => t.onHop p.val f (t.takeMbxPost p.val f))) := rfl
  have htake : u.takeMbxPost p.val f =
      u.mbxAccept (f.num 0 1) ((List.range (f.num 1 1)).map (fun i => f.num (2 + 4 * i) 4)) := by
    unfold State.takeMbxPost
    extract_lets ch n
    refine if_pos ?_
    rw [show u.mbxBound ch = true from hbound, show u.mbxSender ch = 0x30 + p.val from hsender, show u.mbxTakes ch = true from htakes]
    simp [ch, n, hch, hlo, hhi]
  rw [State.rxFlit_of (h.advance now), hu, State.onHop_own hup hdst, htake] at hrow
  have hlen : ((List.range (f.num 1 1)).map (fun i => f.num (2 + 4 * i) 4)).length = f.num 1 1 := (List.length_map ..).trans List.length_range
  generalize (List.range (f.num 1 1)).map (fun i => f.num (2 + 4 * i) 4) = ws at hrow hlen
  obtain ⟨hfull, hwords⟩ := u.mbxAccept_spec (f.num 0 1) (ws := ws) (by omega)
  have hacc := u.mbxAccept_within (f.num 0 1) ws
  generalize u.mbxAccept (f.num 0 1) ws = v at hrow hfull hwords hacc
  have hcred := v.giveCredits_within p.val
  refine ⟨_, hrow, ?_, ?_, (taken_keepsBytes hu).trans ((KeepsBytes.of_within hacc).trans (.of_within hcred))⟩
  · unfold State.mbxFull at *
    rw [hcred.bit _ _]
    exact hfull
  · rw [hcred.getF _ _, hwords, hlen]

omit hu h hup hdst in
theorem State.mbxEmpty_full (s : State) (ch : Nat) (discard : Bool) : (s.mbxEmpty ch discard).mbxFull ch = false := by
  unfold State.mbxEmpty
  have htell := (s.mbxClear ch discard).mbxTell_within ch
  unfold State.mbxFull
  rw [htell.bit _ _]
  unfold State.mbxClear
  extract_lets u v
  have hu : (u.setF .MBX_CH_STAT_FULL ch 0).getF .MBX_CH_STAT_FULL ch = 0 := State.getF_setF_same ..
  have hv : Within ⟨[.regs], [.MBX_CH_STAT_DISCARD]⟩ (u.setF .MBX_CH_STAT_FULL ch 0) v := State.setB_within ..
  have hend : v.bit .MBX_CH_STAT_FULL ch = false := by
    rw [hv.bit _ _]
    unfold State.bit
    rw [hu]
    rfl
  have hw : Within ⟨[.wakes], []⟩ v { v with wakes := v.wakes.filter (fun c => c != ch) } := Within.update [.wakes] rfl
  exact (hw.bit _ _).trans hend

theorem mbxAckFrame_empties (hch : f.num 0 1 < 64) (hbound : u.mbxBound (f.num 0 1) = true)
    (hreceiver : u.mbxReceiver (f.num 0 1) = 0x30 + p.val) (hfull : u.mbxFull (f.num 0 1) = true) :
    ∃ t, exec (.mbxAckFrame now p f) s = .next t ∧ t.mbxFull (f.num 0 1) = false ∧ KeepsBytes s t nowhere := by
  have hrow : exec (.mbxAckFrame now p f) s =
    .next ((s.advance now).rxFlit p.val f (fun t => t.onHop p.val f (t.takeMbxAck p.val f))) := rfl
  have htake : u.takeMbxAck p.val f = u.mbxEmpty (f.num 0 1) (f.num 1 1 % 2 == 1) := by
    unfold State.takeMbxAck
    extract_lets ch
    refine if_pos ?_
    rw [show u.mbxBound ch = true from hbound, show u.mbxReceiver ch = 0x30 + p.val from hreceiver, show u.mbxFull ch = true from hfull]
    simp [ch, hch]
  rw [State.rxFlit_of (h.advance now), hu, State.onHop_own hup hdst, htake] at hrow
  have hempty := u.mbxEmpty_full (f.num 0 1) (f.num 1 1 % 2 == 1)
  have hacc := u.mbxEmpty_within (f.num 0 1) (f.num 1 1 % 2 == 1)
  generalize u.mbxEmpty (f.num 0 1) (f.num 1 1 % 2 == 1) = v at hrow hempty hacc
  have hcred := v.giveCredits_within p.val
  refine ⟨_, hrow, ?_, (taken_keepsBytes hu).trans ((KeepsBytes.of_within hacc).trans (.of_within hcred))⟩
  unfold State.mbxFull at *
  rw [hcred.bit _ _]
  exact hempty

end Frames

/-! ### Time and ID frames (R335 to R339) -/

section Frames
variable {now : Nat} {p : Fin 4} {f : Flit} {s u : State} (hu : (s.advance now).taken p.val f = u) (h : InSequence s p.val f)
include hu h

theorem exec_timeFrame : exec (.timeFrame now p f) s = .next ((u.takeTime p.val f).giveCredits p.val) := by
  have hrow : exec (.timeFrame now p f) s = .next ((s.advance now).rxFlit p.val f (fun t => t.takeTime p.val f)) := rfl
  rw [State.rxFlit_of (h.advance now), hu] at hrow
  exact hrow

theorem timeFrame_answers (hstate : 3 ≤ u.portState p.val) (hask : f.num 24 1 % 2 = 0) :
    ∃ t, exec (.timeFrame now p f) s = .next t ∧ KeepsBytes s t nowhere ∧
      (u.sendsAtOnce p.val → Output.frame p.val 9 0 (u.getF .LNK_PSTAT_PEER p.val)
        (leBytes 8 (f.num 0 8) ++ leBytes 8 u.clock ++ leBytes 8 u.clock ++ leBytes 1 1) ∈ t.out) := by
  have hrow := exec_timeFrame hu h
  have htake : u.takeTime p.val f = u.sendFrame p.val 9 0 (u.getF .LNK_PSTAT_PEER p.val)
      (leBytes 8 (f.num 0 8) ++ leBytes 8 u.clock ++ leBytes 8 u.clock ++ leBytes 1 1) := by
    unfold State.takeTime
    extract_lets peer
    rw [if_neg (Nat.not_lt.mpr hstate), if_pos hask]
  rw [htake] at hrow
  have hsend := u.sendFrame_within p.val 9 0 (u.getF .LNK_PSTAT_PEER p.val)
      (leBytes 8 (f.num 0 8) ++ leBytes 8 u.clock ++ leBytes 8 u.clock ++ leBytes 1 1)
  refine ⟨_, hrow, (taken_keepsBytes hu).trans ((KeepsBytes.of_within hsend).trans (.of_within (State.giveCredits_within ..))), fun hroom => ?_⟩
  refine (State.giveCredits_outGrows ..).mem _ ?_
  rw [State.sendFrame_out hroom]
  exact List.mem_cons_self

/-- The four times of an exchange that ends. -/
def flitStamps (f : Flit) (clock : Nat) : Stamps := { t1 := f.num 0 8, t2 := f.num 8 8, t3 := f.num 16 8, t4 := clock }

theorem timeFrame_ends (hstate : 3 ≤ u.portState p.val) (hask : f.num 24 1 % 2 ≠ 0) :
    ∃ t, exec (.timeFrame now p f) s = .next t ∧ KeepsBytes s t nowhere ∧
      t.getF .LNK_PDLY_DELAY p.val = min (flitStamps f u.clock).delay.toNat 65535 ∧
      (u.portState p.val = 3 →
        (t.link p.val).samples = (u.link p.val).samples ++ [((flitStamps f u.clock).delay, (flitStamps f u.clock).offset2)]) := by
  have hrow := exec_timeFrame hu h
  have hdelay : (u.setDelay p.val (flitStamps f u.clock).delay).getF .LNK_PDLY_DELAY p.val = min (flitStamps f u.clock).delay.toNat 65535 :=
    (u.getF_setF_same .LNK_PDLY_DELAY p.val _).trans (Nat.mod_eq_of_lt (show _ < 65536 by omega))
  have hset := u.setDelay_within p.val (flitStamps f u.clock).delay
  have htake : ∃ t, u.takeTime p.val f = t ∧
      Within ⟨State.setOffsetWrites.parts ++ [.out], State.setOffsetWrites.flds⟩ (u.setDelay p.val (flitStamps f u.clock).delay) t ∧
      (u.portState p.val = 3 →
        (t.link p.val).samples = (u.link p.val).samples ++ [((flitStamps f u.clock).delay, (flitStamps f u.clock).offset2)]) := by
    refine ⟨_, rfl, ?_⟩
    unfold State.takeTime
    extract_lets peer x v l w
    rw [if_neg (Nat.not_lt.mpr hstate), if_neg hask]
    have hv : v = u.setDelay p.val (flitStamps f u.clock).delay := rfl
    have hport : v.portState p.val = u.portState p.val := hset.getF _ _
    have hlink : v.link p.val = u.link p.val := hset.touch.link p.val
    split
    · have hw : Within ⟨[.links], []⟩ v w := State.setLink_within ..
      have hwl : (w.link p.val).samples = (u.link p.val).samples ++ [(x.delay, x.offset2)] := by
        rw [← hlink]
        exact (congrArg Link.samples (State.link_setLink_same ..)).trans rfl
      clear_value w
      split
      · refine ⟨(State.sendFrame_within ..).after hw.mono, fun _ => ?_⟩
        exact ((State.sendFrame_links ..).link _).samples.trans hwl
      · exact ⟨hw.mono, fun _ => hwl⟩
    next hne => exact ⟨(State.setOffset_within ..).mono, fun h3 => absurd (hport.trans h3) hne⟩
  obtain ⟨t, ht, hw, hsamples⟩ := htake
  rw [ht] at hrow
  have hcred := t.giveCredits_within p.val
  refine ⟨_, hrow, (taken_keepsBytes hu).trans ((KeepsBytes.of_within hset).trans ((KeepsBytes.of_within hw).trans (.of_within hcred))), ?_,
    fun h3 => ?_⟩
  · rw [hcred.getF _ _, hw.getF _ _]
    exact hdelay
  · exact ((State.giveCredits_links ..).link _).samples.trans (hsamples h3)

theorem exec_idFrame : exec (.idFrame now p f) s = .next ((u.takeId p.val f).giveCredits p.val) := by
  have hrow : exec (.idFrame now p f) s = .next ((s.advance now).rxFlit p.val f (fun t => t.takeId p.val f)) := rfl
  rw [State.rxFlit_of (h.advance now), hu] at hrow
  exact hrow

section Id
variable (hport : u.portState p.val = 2) (hes : f.entries ≠ [])
include hport hes

theorem idFrame_refuses {r : Nat} (hr : u.idConflict f.entries = some r) :
    ∃ t, exec (.idFrame now p f) s = .next t ∧ t.portState p.val = 5 ∧
      t.getF .LNK_PSTAT_REASON p.val = r % 2 ^ Fld.LNK_PSTAT_REASON.width := by
  have hrow := exec_idFrame hu h
  have htake : u.takeId p.val f = (u.setF .LNK_PSTAT_STATE p.val 5).setF .LNK_PSTAT_REASON p.val r := by
    unfold State.takeId
    extract_lets es
    rw [if_neg (by simp [hport, es, hes]), show u.idConflict es = some r from hr]
  rw [htake] at hrow
  have hstate := u.getF_setF_same .LNK_PSTAT_STATE p.val 5
  generalize u.setF .LNK_PSTAT_STATE p.val 5 = v at hrow hstate
  have hset : Within ⟨[.regs], [.LNK_PSTAT_REASON]⟩ v (v.setF .LNK_PSTAT_REASON p.val r) := State.setF_within ..
  have hcred := (v.setF .LNK_PSTAT_REASON p.val r).giveCredits_within p.val
  refine ⟨_, hrow, ?_, ?_⟩
  · exact (hcred.getF .LNK_PSTAT_STATE p.val).trans ((hset.getF .LNK_PSTAT_STATE p.val).trans hstate)
  · exact (hcred.getF _ _).trans (v.getF_setF_same .LNK_PSTAT_REASON p.val r)

theorem idFrame_names (hr : u.idConflict f.entries = none) :
    ∃ t, exec (.idFrame now p f) s = .next t ∧ t.portState p.val = 3 ∧
      t.getF .LNK_PSTAT_PEER p.val = f.num 0 1 % 8 ∧ KeepsBytes s t nowhere := by
  have hrow := exec_idFrame hu h
  have hbytes := (taken_keepsBytes hu).trans (.of_within (u.takeId_within p.val f))
  have htake : ∃ v, u.takeId p.val f = v ∧ v.portState p.val = 3 ∧ v.getF .LNK_PSTAT_PEER p.val = f.num 0 1 % 8 := by
    refine ⟨_, rfl, ?_⟩
    unfold State.takeId
    extract_lets es v
    rw [if_neg (by simp [hport, es, hes]), show u.idConflict es = none from hr]
    dsimp only
    have hpeer : v.getF .LNK_PSTAT_PEER p.val = f.num 0 1 % 8 :=
      (State.getF_setF_same ..).trans (Nat.mod_eq_of_lt (show f.num 0 1 % 8 < 8 by omega))
    clear_value v
    have hstate := v.getF_setF_same .LNK_PSTAT_STATE p.val 3
    have hset : Within ⟨[.regs], [.LNK_PSTAT_STATE]⟩ v (v.setF .LNK_PSTAT_STATE p.val 3) := State.setF_within ..
    generalize v.setF .LNK_PSTAT_STATE p.val 3 = w at hstate hset
    have hl : Within ⟨[.links], []⟩ w (w.setLink p.val { v.link p.val with samples := [] }) := State.setLink_within ..
    generalize w.setLink p.val { v.link p.val with samples := [] } = x at hl
    have hsend := x.sendFrame_within p.val 9 0 (f.num 0 1 % 8) (leBytes 8 v.clock ++ leBytes 17 0)
    refine ⟨?_, ?_⟩
    · exact (hsend.getF .LNK_PSTAT_STATE p.val).trans ((hl.getF .LNK_PSTAT_STATE p.val).trans hstate)
    · exact (hsend.getF _ _).trans ((hl.getF _ _).trans ((hset.getF _ _).trans hpeer))
  obtain ⟨v, hv, hstate, hpeer⟩ := htake
  rw [hv] at hrow hbytes
  have hcred := v.giveCredits_within p.val
  refine ⟨_, hrow, ?_, ?_, hbytes.trans (.of_within hcred)⟩
  · exact (hcred.getF .LNK_PSTAT_STATE p.val).trans hstate
  · exact (hcred.getF _ _).trans hpeer

end Id

end Frames

/-- Settles O43: every row takes its flit in sequence (`State.rxFlit_of`), does what its frame says and gives credits back;
the credits change neither a group, a channel, a port's state nor a byte. -/
theorem linkFrames : Obligations.LinkFrames := by
  unfold Obligations.LinkFrames
  intro now p f s u g x ch v same stamps h
  have hu : (s.advance now).taken p.val f = u := rfl
  clear_value u
  refine ⟨fun hup hdst => ⟨fun hdef hscope hdis => ⟨?_, ?_, ?_⟩, ?_, ?_⟩, ?_, ?_, ?_⟩
  · exact barrierFrame_mismatch hu h hup hdst rfl rfl hdef hscope hdis
  · exact barrierFrame_takes hu h hup hdst rfl rfl hdef hscope hdis
  · exact bcastFrame_takes hu h hup hdst rfl rfl hdef hscope hdis
  · exact mbxPostFrame_fills hu h hup hdst
  · exact mbxAckFrame_empties hu h hup hdst
  · exact timeFrame_answers hu h
  · exact timeFrame_ends hu h
  · exact fun hport hes => ⟨idFrame_names hu h hport hes, fun r hr => idFrame_refuses hu h hport hes hr⟩

end Sys2Proof.Machine
end

section
/-!
PROOF. The command ring of a function (R296, R304 to R306, R321, O46).
-/

set_option Elab.async false

namespace Sys2Proof.Machine
open Sys2Proof

/-! ### The command ring of a function (R296, R304 to R306, R321) -/

theorem State.hosted_unsupported {s : State} {fn : Nat} (F : State → State) (hperst : s.perst = false) (hfn : fn ≠ 0)
    (h : (s.fnst fn).enabled = false ∨ (s.fnst fn).flr ≠ none) : s.hosted fn F = s.emit .unsupported := by
  unfold State.hosted
  rw [if_neg (by simp [hperst]), if_neg hfn]
  refine if_neg ?_
  rcases h with h | h
  · simp [h]
  · simp [h]

theorem hosted_row {now fn : Nat} {s : State} {F : State → State} (h : Hosted s fn) :
    (Host.Outcome.next ((s.advance now).hosted fn F) : Host.Outcome State Fault Refusal) = Host.Outcome.next (F (s.advance now)) :=
  congrArg Host.Outcome.next (State.hosted_of _ _ _ h)

theorem cmdRingEnable_on {now : Nat} {fn : Func} {size : BitVec 3} {s : State} (h : Hosted s fn.val)
    (hen : s.bit .CMD_CFG_EN fn.val = true) : exec (.cmdRingEnable now fn size) s = .next (s.advance now) := by
  refine (hosted_row h).trans (congrArg Host.Outcome.next ?_)
  exact if_pos hen

/-- The command ring's registers as enabling it leaves them. -/
def State.ringEnabled (s : State) (f size : Nat) : State :=
  (((((s.setF .CMD_CFG_EN f 1).setF .CMD_CFG_SIZE f (ringSizeCode size)).setF .CMD_PROD_INDEX f 0).setF .CMD_CONS_INDEX f 0).setF
    .CPL_HEAD_INDEX f 0).setF .CPL_TAIL_INDEX f 0

theorem State.ringEnabled_within (s : State) (f size : Nat) : Within ⟨[.regs], [.CMD_CFG_EN, .CMD_CFG_SIZE, .CMD_PROD_INDEX,
    .CMD_CONS_INDEX, .CPL_HEAD_INDEX, .CPL_TAIL_INDEX]⟩ s (s.ringEnabled f size) :=
  (State.setF_within ..).after ((State.setF_within ..).after ((State.setF_within ..).after ((State.setF_within ..).after
    ((State.setF_within ..).after ((State.setF_within ..).mono)))))

theorem cmdRingEnable_off {now : Nat} {fn : Func} {size : BitVec 3} {s : State} (h : Hosted s fn.val)
    (hen : s.bit .CMD_CFG_EN fn.val = false) :
    ∃ t, exec (.cmdRingEnable now fn size) s = .next t ∧ t.bit .CMD_CFG_EN fn.val = true ∧
      t.getF .CMD_CFG_SIZE fn.val = (if 4 ≤ size.toNat ∧ size.toNat ≤ 6 then size.toNat else 4) ∧
      t.getF .CMD_PROD_INDEX fn.val = 0 ∧ t.getF .CMD_CONS_INDEX fn.val = 0 ∧ t.getF .CPL_HEAD_INDEX fn.val = 0 ∧
      t.getF .CPL_TAIL_INDEX fn.val = 0 ∧ (t.fnst fn.val).wrapped = false ∧
      KeepsRegs s t (fun f i => [Fld.CMD_CFG_EN, .CMD_CFG_SIZE, .CMD_PROD_INDEX, .CMD_CONS_INDEX, .CPL_HEAD_INDEX,
        .CPL_TAIL_INDEX].contains f && i == fn.val) ∧ t = { s.advance now with regs := t.regs, fns := t.fns } := by
  have hrow : exec (.cmdRingEnable now fn size) s = .next (((s.advance now).ringEnabled fn.val size.toNat).setFn fn.val
      { ((s.advance now).ringEnabled fn.val size.toNat).fnst fn.val with wrapped := false }) :=
    (hosted_row h).trans (congrArg Host.Outcome.next (if_neg (Bool.eq_false_iff.mp hen)))
  have hsize : ringSizeCode size.toNat = if 4 ≤ size.toNat ∧ size.toNat ≤ 6 then size.toNat else 4 := by
    unfold ringSizeCode
    simp only [Bool.and_eq_true, decide_eq_true_eq]
  have hw := (s.advance now).ringEnabled_within fn.val size.toNat
  have hsz : ((s.advance now).ringEnabled fn.val size.toNat).getF .CMD_CFG_SIZE fn.val = ringSizeCode size.toNat := by
    unfold State.ringEnabled
    have hlt : ringSizeCode size.toNat < 8 := by
      rw [hsize]
      split <;> omega
    simp [State.getF_setF, Fld.width, Fld.info, Nat.mod_eq_of_lt hlt]
  have hfld : ((s.advance now).ringEnabled fn.val size.toNat).getF .CMD_CFG_EN fn.val = 1 ∧
      ((s.advance now).ringEnabled fn.val size.toNat).getF .CMD_PROD_INDEX fn.val = 0 ∧
      ((s.advance now).ringEnabled fn.val size.toNat).getF .CMD_CONS_INDEX fn.val = 0 ∧
      ((s.advance now).ringEnabled fn.val size.toNat).getF .CPL_HEAD_INDEX fn.val = 0 ∧
      ((s.advance now).ringEnabled fn.val size.toNat).getF .CPL_TAIL_INDEX fn.val = 0 := by
    unfold State.ringEnabled
    simp [State.getF_setF, Fld.width, Fld.info]
  have hregs : KeepsRegs s ((s.advance now).ringEnabled fn.val size.toNat) (fun f i => [Fld.CMD_CFG_EN, .CMD_CFG_SIZE,
      .CMD_PROD_INDEX, .CMD_CONS_INDEX, .CPL_HEAD_INDEX, .CPL_TAIL_INDEX].contains f && i == fn.val) := by
    unfold State.ringEnabled
    exact ((((((KeepsRegs.of_regs_eq (t := s.advance now) rfl _).setF (by simp) _).setF (by simp) _).setF (by simp) _).setF
      (by simp) _).setF (by simp) _).setF (by simp) _
  generalize (s.advance now).ringEnabled fn.val size.toNat = u at hrow hw hsz hfld hregs
  obtain ⟨hen', hprod, hcons, hhead, htail⟩ := hfld
  refine ⟨_, hrow, ?_, hsz.trans hsize, hprod, hcons, hhead, htail, ?_, hregs.congr rfl, ?_⟩
  · show u.bit .CMD_CFG_EN fn.val = true
    unfold State.bit
    rw [hen']
    rfl
  · rw [State.fnst_setFn_same]
  · exact ((State.setFn_within ..).after hw.mono : Within ⟨[.regs, .fns], [.CMD_CFG_EN, .CMD_CFG_SIZE, .CMD_PROD_INDEX,
      .CMD_CONS_INDEX, .CPL_HEAD_INDEX, .CPL_TAIL_INDEX]⟩ _ _).touch.eq_withParts

/-! ### The doorbell (R304) -/

theorem State.foldl_emit (f : Nat → Output) (l : List Nat) (s : State) :
    l.foldl (fun u i => u.emit (f i)) s = { s with out := (l.map f).reverse ++ s.out } := by
  induction l generalizing s with
  | nil => rfl
  | cons a l ih =>
    rw [List.foldl_cons, ih]
    simp [State.emit]

theorem commandDoorbell_spec {now : Nat} {fn : Func} {prod : BitVec 6} {entries : List (List Word)} {s : State} (h : Hosted s fn.val)
    {n old base k : Nat} (hn : s.ringSize fn.val = n) (hold : s.getF .CMD_PROD_INDEX fn.val = old)
    (hbase : s.getF .CMD_BASEL_ADDR fn.val * 64 + s.getF .CMD_BASEH_ADDR fn.val * 4294967296 = base) {es : List (List Word)}
    (hk : (prod.toNat % n + n - old % n) % n = k) (hes : (List.range k).map (fun i => entries.getD i (List.replicate 16 0)) = es) :
    ∃ t, exec (.commandDoorbell now fn prod entries) s = .next t ∧ t.getF .CMD_PROD_INDEX fn.val = prod.toNat % n ∧
      (s.bit .CMD_CFG_EN fn.val = true →
        (t.fnst fn.val).entries = (s.fnst fn.val).entries ++ es ∧
        t.out = ((List.range k).map (fun i => Output.hostRead fn.val (base + 64 * ((old + i) % n)) 64)).reverse ++ s.out) ∧
      (s.bit .CMD_CFG_EN fn.val = false → (t.fnst fn.val).entries = (s.fnst fn.val).entries ∧ t.out = s.out) ∧
      (t.fnst fn.val).held = (s.fnst fn.val).held ∧ KeepsRegs s t (fun f i => f == .CMD_PROD_INDEX && i == fn.val) ∧
      t = { s.advance now with regs := t.regs, fns := t.fns, out := t.out } := by
  have hp : ((s.advance now).setF .CMD_PROD_INDEX fn.val (prod.toNat % n)).getF .CMD_PROD_INDEX fn.val = prod.toNat % n :=
    ((s.advance now).getF_setF_same .CMD_PROD_INDEX fn.val _).trans
      (Nat.mod_eq_of_lt (Nat.lt_of_le_of_lt (Nat.mod_le ..) prod.isLt))
  have hw : Within ⟨[.regs], [.CMD_PROD_INDEX]⟩ (s.advance now) ((s.advance now).setF .CMD_PROD_INDEX fn.val (prod.toNat % n)) :=
    State.setF_within ..
  have hrow : exec (.commandDoorbell now fn prod entries) s = .next (
      if ((s.advance now).setF .CMD_PROD_INDEX fn.val (prod.toNat % n)).bit .CMD_CFG_EN fn.val then
        let t := (List.range k).foldl (fun u i => u.emit (.hostRead fn.val (base + 64 * ((old + i) % n)) 64))
          ((s.advance now).setF .CMD_PROD_INDEX fn.val (prod.toNat % n))
        t.setFn fn.val { t.fnst fn.val with entries := (t.fnst fn.val).entries ++ es }
      else (s.advance now).setF .CMD_PROD_INDEX fn.val (prod.toNat % n)) := by
    refine (hosted_row h).trans (congrArg Host.Outcome.next ?_)
    subst hn hold
    have hbase' := (congrArg₂ (fun a b => a * 64 + b * 4294967296) (hw.getF .CMD_BASEL_ADDR fn.val) (hw.getF .CMD_BASEH_ADDR fn.val)).trans hbase
    subst hbase' hk hes
    rfl
  have hregs : KeepsRegs s ((s.advance now).setF .CMD_PROD_INDEX fn.val (prod.toNat % n)) (fun f i => f == .CMD_PROD_INDEX && i == fn.val) :=
    (KeepsRegs.of_regs_eq (t := s.advance now) rfl _).setF (by simp) _
  generalize (s.advance now).setF .CMD_PROD_INDEX fn.val (prod.toNat % n) = u at hrow hp hw hregs
  have hbit : u.bit .CMD_CFG_EN fn.val = s.bit .CMD_CFG_EN fn.val := hw.bit _ _
  have hfn : u.fnst fn.val = s.fnst fn.val := hw.touch.fnst fn.val
  have hout : u.out = s.out := hw.touch.same .out
  rw [hbit, State.foldl_emit] at hrow
  cases hen : s.bit .CMD_CFG_EN fn.val with
  | false =>
    rw [hen, if_neg Bool.false_ne_true] at hrow
    refine ⟨u, hrow, hp, fun h => absurd h Bool.false_ne_true, fun _ => ⟨by rw [hfn], hout⟩, by rw [hfn], hregs, ?_⟩
    exact (hw.mono : Within ⟨[.regs, .fns, .out], [.CMD_PROD_INDEX]⟩ _ _).touch.eq_withParts
  | true =>
    rw [hen, if_pos rfl] at hrow
    generalize hv : ({ u with out := ((List.range k).map (fun i => Output.hostRead fn.val (base + 64 * ((old + i) % n)) 64)).reverse ++ u.out } : State)
      = v at hrow
    have hwv : Within ⟨[.out], []⟩ u v := hv ▸ Within.update [.out] rfl
    have hvout : v.out = ((List.range k).map (fun i => Output.hostRead fn.val (base + 64 * ((old + i) % n)) 64)).reverse ++ s.out := by
      rw [← hv, ← hout]
    have hvfn : v.fnst fn.val = s.fnst fn.val := (hwv.touch.fnst fn.val).trans hfn
    have hset : Within ⟨[.fns], []⟩ v (v.setFn fn.val { v.fnst fn.val with entries := (v.fnst fn.val).entries ++ es }) := State.setFn_within ..
    have hend : (v.setFn fn.val { v.fnst fn.val with entries := (v.fnst fn.val).entries ++ es }).fnst fn.val = { s.fnst fn.val with entries := (s.fnst fn.val).entries ++ es } := by
      rw [State.fnst_setFn_same, hvfn]
    dsimp only at hrow
    generalize v.setFn fn.val { v.fnst fn.val with entries := (v.fnst fn.val).entries ++ es } = w at hrow hset hend
    have hkeep : w.regs = u.regs := (show w.regs = v.regs from hset.touch.same .regs).trans (hwv.touch.same .regs)
    refine ⟨w, hrow, ?_, fun _ => ⟨by rw [hend], (show w.out = v.out from hset.touch.same .out).trans hvout⟩,
      fun h => absurd h.symm Bool.false_ne_true, by rw [hend], hregs.congr hkeep, ?_⟩
    · exact (hset.getF _ _).trans ((hwv.getF _ _).trans hp)
    · exact (hset.after (hwv.after hw.mono) : Within ⟨[.regs, .fns, .out], [.CMD_PROD_INDEX]⟩ _ _).touch.eq_withParts

/-! ### Acceptance (R305, R306) -/

section Accept
variable {now : Nat} {fn : Func} {s : State} {e : List Word} {rest : List (List Word)} {x : Function}
  (hx : s.fnst fn.val = x)
include hx

theorem commandAccept_stays (h : x.entries = [] ∨ s.bit .CMD_CFG_EN fn.val = false ∨ x.flr ≠ none ∨ x.held = 0 ∨ 64 ≤ x.waiting.length) :
    exec (.commandAccept now fn) s = .next (s.advance now) := by
  have hx' : (s.advance now).fnst fn.val = x := hx
  have hen : (s.advance now).bit .CMD_CFG_EN fn.val = s.bit .CMD_CFG_EN fn.val := rfl
  show execCommandAccept now fn s = _
  unfold execCommandAccept
  extract_lets u f y
  have hy : y = x := hx'
  rw [hy]
  cases hes : x.entries with
  | nil => rfl
  | cons e rest =>
    refine if_neg ?_
    rw [show u.bit .CMD_CFG_EN f = s.bit .CMD_CFG_EN fn.val from hen]
    rcases h with h | h | h | h | h
    · exact absurd (h.symm.trans hes) (by simp)
    · simp [h]
    · simp [h]
    · simp [h]
    · simp [Nat.not_lt.mpr h]

theorem commandAccept_takes (hes : x.entries = e :: rest) (hen : s.bit .CMD_CFG_EN fn.val = true) (hflr : x.flr = none) (hheld : 0 < x.held)
    (hwait : x.waiting.length < 64) :
    exec (.commandAccept now fn) s = .next ((((s.advance now).setFn fn.val { x with entries := rest, held := x.held - 1 }).setF .CMD_CONS_INDEX fn.val
      ((s.getF .CMD_CONS_INDEX fn.val + 1) % s.ringSize fn.val)).takeUp fn.val e) := by
  have hx' : (s.advance now).fnst fn.val = x := hx
  have hen' : (s.advance now).bit .CMD_CFG_EN fn.val = true := hen
  show execCommandAccept now fn s = _
  unfold execCommandAccept
  extract_lets u f y
  have hy : y = x := hx'
  rw [hy, hes]
  refine if_pos ?_
  rw [show u.bit .CMD_CFG_EN f = true from hen']
  simp [hflr, hheld, hwait]

end Accept

theorem State.takeUp_accepts {s : State} {f : Nat} {e : List Word} (hknown : opcodeKnown (entryOp e) = true)
    (hw0 : (entryWord e 0 / 256) % 256 = 0) (hw1 : entryWord e 1 = 0) (hshut : s.shutDown = false) :
    s.takeUp f e = if entryOp e ≤ 3 then
      { s.setFn f { s.fnst f with accepted := (s.fnst f).accepted ++ [e] } with accepted := s.accepted ++ [(f, e)] }
      else s.setFn f { s.fnst f with accepted := (s.fnst f).accepted ++ [e] } := by
  unfold State.takeUp
  extract_lets u
  rw [if_neg (by simp [hshut]), if_neg (by simp [hknown, hw0, hw1])]
  rfl

theorem State.takeUp_completes {s : State} {f : Nat} {e : List Word}
    (h : opcodeKnown (entryOp e) = false ∨ (entryWord e 0 / 256) % 256 ≠ 0 ∨ entryWord e 1 ≠ 0 ∨ s.shutDown = true) :
    s.takeUp f e = s.complete f (if s.shutDown then voided e else result 0 (entryTag e) 1 0 0) := by
  unfold State.takeUp
  extract_lets u
  cases hshut : s.shutDown with
  | true => rfl
  | false =>
    rw [if_neg Bool.false_ne_true, if_neg Bool.false_ne_true]
    refine if_pos ?_
    rcases h with h | h | h | h
    · simp [h]
    · simp [h]
    · simp [h]
    · exact absurd (hshut.symm.trans h) Bool.false_ne_true

theorem commandAccept_spec {now : Nat} {fn : Func} {s : State} {e : List Word} {rest : List (List Word)} {x : Function}
    (hx : s.fnst fn.val = x) (hes : x.entries = e :: rest) (hen : s.bit .CMD_CFG_EN fn.val = true) (hflr : x.flr = none) (hheld : 0 < x.held)
    (hwait : x.waiting.length < 64) :
    ∃ t, exec (.commandAccept now fn) s = .next t ∧ (t.fnst fn.val).entries = rest ∧ (t.fnst fn.val).held = x.held - 1 ∧
      t.getF .CMD_CONS_INDEX fn.val = ((s.getF .CMD_CONS_INDEX fn.val + 1) % s.ringSize fn.val) % 2 ^ Fld.CMD_CONS_INDEX.width ∧
      (opcodeKnown (entryOp e) = true → (entryWord e 0 / 256) % 256 = 0 → entryWord e 1 = 0 → s.shutDown = false →
        (t.fnst fn.val).accepted = x.accepted ++ [e] ∧ (t.fnst fn.val).waiting = x.waiting ∧ t.out = s.out ∧
        t.accepted = s.accepted ++ (if entryOp e ≤ 3 then [(fn.val, e)] else [])) ∧
      (opcodeKnown (entryOp e) = false ∨ (entryWord e 0 / 256) % 256 ≠ 0 ∨ entryWord e 1 ≠ 0 ∨ s.shutDown = true →
        t = ((((s.advance now).setFn fn.val { x with entries := rest, held := x.held - 1 }).setF .CMD_CONS_INDEX fn.val
          ((s.getF .CMD_CONS_INDEX fn.val + 1) % s.ringSize fn.val)).complete fn.val
            (if s.shutDown then voided e else result 0 (entryTag e) 1 0 0)) ∧
        (t.fnst fn.val).accepted = x.accepted ∧ t.accepted = s.accepted) ∧
      KeepsBytes s t nowhere ∧ t.stations = s.stations := by
  have hrow := commandAccept_takes (now := now) hx hes hen hflr hheld hwait
  have hfn := (s.advance now).fnst_setFn_same fn.val { x with entries := rest, held := x.held - 1 }
  have hset : Within ⟨[.fns], []⟩ (s.advance now) ((s.advance now).setFn fn.val { x with entries := rest, held := x.held - 1 }) :=
    State.setFn_within ..
  generalize (s.advance now).setFn fn.val { x with entries := rest, held := x.held - 1 } = v at hrow hfn hset
  have hcons := v.getF_setF_same .CMD_CONS_INDEX fn.val ((s.getF .CMD_CONS_INDEX fn.val + 1) % s.ringSize fn.val)
  have hsetF : Within ⟨[.regs], [.CMD_CONS_INDEX]⟩ v (v.setF .CMD_CONS_INDEX fn.val ((s.getF .CMD_CONS_INDEX fn.val + 1) % s.ringSize fn.val)) :=
    State.setF_within ..
  generalize v.setF .CMD_CONS_INDEX fn.val ((s.getF .CMD_CONS_INDEX fn.val + 1) % s.ringSize fn.val) = u at hrow hcons hsetF
  have hw : Within ⟨[.regs, .fns], [.CMD_CONS_INDEX]⟩ (s.advance now) u := hsetF.after hset.mono
  have hshut : u.shutDown = s.shutDown := hw.bit _ _
  have hufn : u.fnst fn.val = { x with entries := rest, held := x.held - 1 } := (hsetF.touch.fnst fn.val).trans hfn
  have hout : u.out = s.out := hw.touch.same .out
  have hacc : u.accepted = s.accepted := hw.touch.same .accepted
  have htake := u.takeUp_within fn.val e
  have hframe : KeepsBytes s (u.takeUp fn.val e) nowhere ∧ (u.takeUp fn.val e).stations = s.stations :=
    ⟨.of_sram_eq ((show (u.takeUp fn.val e).sram = u.sram from htake.touch.same .sram).trans (hw.touch.same .sram)) _,
      (show (u.takeUp fn.val e).stations = u.stations from htake.touch.same .stations).trans (hw.touch.same .stations)⟩
  have hcons' := (htake.getF .CMD_CONS_INDEX fn.val).trans hcons
  by_cases h : opcodeKnown (entryOp e) = false ∨ (entryWord e 0 / 256) % 256 ≠ 0 ∨ entryWord e 1 ≠ 0 ∨ s.shutDown = true
  · have heq := State.takeUp_completes (f := fn.val) (hshut.symm ▸ h)
    rw [hshut] at heq
    have halike := (u.complete_alike fn.val (if s.shutDown then voided e else result 0 (entryTag e) 1 0 0)).fn fn.val
    have hcomp := u.complete_within fn.val (if s.shutDown then voided e else result 0 (entryTag e) 1 0 0)
    rw [← heq] at halike hcomp
    rw [hufn] at halike
    refine ⟨_, hrow, halike.entries, halike.held, hcons', fun hk h0 h1 hs => ?_, fun _ => ⟨heq, halike.accepted,
      (show (u.takeUp fn.val e).accepted = u.accepted from hcomp.touch.same .accepted).trans hacc⟩, hframe⟩
    rcases h with h | h | h | h
    · exact absurd (h.symm.trans hk) Bool.false_ne_true
    · exact absurd h0 h
    · exact absurd h1 h
    · exact absurd (hs.symm.trans h) Bool.false_ne_true
  · have hk : opcodeKnown (entryOp e) = true := Bool.not_eq_false _ ▸ fun hk => h (.inl hk)
    have h0 : (entryWord e 0 / 256) % 256 = 0 := not_not.mp fun h0 => h (.inr (.inl h0))
    have h1 : entryWord e 1 = 0 := not_not.mp fun h1 => h (.inr (.inr (.inl h1)))
    have hs : s.shutDown = false := Bool.not_eq_true _ ▸ fun hs => h (.inr (.inr (.inr hs)))
    have heq := State.takeUp_accepts (f := fn.val) hk h0 h1 (hshut.trans hs)
    rw [hufn] at heq
    have hend := u.fnst_setFn_same fn.val { x with entries := rest, held := x.held - 1, accepted := x.accepted ++ [e] }
    have hsetFn : Within ⟨[.fns], []⟩ u (u.setFn fn.val { x with entries := rest, held := x.held - 1, accepted := x.accepted ++ [e] }) :=
      State.setFn_within ..
    generalize u.setFn fn.val { x with entries := rest, held := x.held - 1, accepted := x.accepted ++ [e] } = w at heq hend hsetFn
    have hwout : w.out = s.out := (show w.out = u.out from hsetFn.touch.same .out).trans hout
    have hwacc : w.accepted = s.accepted := (show w.accepted = u.accepted from hsetFn.touch.same .accepted).trans hacc
    generalize u.takeUp fn.val e = t at hrow hframe hcons' heq
    refine ⟨t, hrow, ?_, ?_, hcons', fun _ _ _ _ => ?_, fun hn => absurd hn h, hframe⟩
    · rw [heq]
      split
      · exact (congrArg Function.entries hend).trans rfl
      · exact (congrArg Function.entries hend).trans rfl
    · rw [heq]
      split
      · exact (congrArg Function.held hend).trans rfl
      · exact (congrArg Function.held hend).trans rfl
    · rw [heq]
      split
      · exact ⟨(congrArg Function.accepted hend).trans rfl, (congrArg Function.waiting hend).trans rfl, hwout, by rw [← hacc]⟩
      · exact ⟨(congrArg Function.accepted hend).trans rfl, (congrArg Function.waiting hend).trans rfl, hwout, by rw [hwacc, List.append_nil]⟩

/-! ### Completions that wait, and the service mailbox (R305, R321) -/

theorem State.cplWrite_waiting (s : State) (f : Nat) (c : Completion) : ((s.cplWrite f c).fnst f).waiting = (s.fnst f).waiting := by
  unfold State.cplWrite
  extract_lets tail base x last u v
  have hv : (v.fnst f).waiting = (s.fnst f).waiting := (congrArg Function.waiting (State.fnst_setFn_same ..)).trans rfl
  have hset : Within ⟨[.regs], [.CPL_TAIL_INDEX]⟩ v (v.setF .CPL_TAIL_INDEX f ((tail + 1) % v.ringSize f)) := State.setF_within ..
  generalize v.setF .CPL_TAIL_INDEX f ((tail + 1) % v.ringSize f) = w at hset
  rw [(w.msix_within f 0).touch.fnst, hset.touch.fnst]
  exact hv

/-- The completions that wait are written from the first on, until none waits or the ring has no room. -/
theorem State.drainCpl_waiting (s : State) (f k : Nat) : ∃ n, ((s.drainCpl f k).fnst f).waiting = (s.fnst f).waiting.drop n ∧
    ((s.fnst f).waiting.length ≤ k → ((s.drainCpl f k).fnst f).waiting = [] ∨ s.bit .CMD_CFG_EN f = false ∨ (s.drainCpl f k).cplRoom f = false) := by
  induction k generalizing s with
  | zero => exact ⟨0, rfl, fun h => .inl (List.length_eq_zero_iff.mp (Nat.le_zero.mp h))⟩
  | succ k ih =>
    unfold State.drainCpl
    split
    next c rest hw =>
      split
      · have hfn := s.fnst_setFn_same f { s.fnst f with waiting := rest }
        have hset : Within ⟨[.fns], []⟩ s (s.setFn f { s.fnst f with waiting := rest }) := State.setFn_within ..
        generalize s.setFn f { s.fnst f with waiting := rest } = u at hfn hset
        have hwr := u.cplWrite_waiting f c
        rw [hfn] at hwr
        have hbit : (u.cplWrite f c).bit .CMD_CFG_EN f = s.bit .CMD_CFG_EN f :=
          ((u.cplWrite_within f c).bit _ _).trans (hset.bit _ _)
        obtain ⟨n, hn, hend⟩ := ih (u.cplWrite f c)
        rw [hwr, hbit] at hend
        rw [hwr] at hn
        refine ⟨n + 1, ?_, fun hlen => hend ?_⟩
        · rw [hn, hw, List.drop_succ_cons]
        · rw [hw, List.length_cons] at hlen
          exact Nat.le_of_succ_le_succ hlen
      next hroom =>
        refine ⟨0, rfl, fun _ => .inr ?_⟩
        cases hen : s.bit .CMD_CFG_EN f with
        | false => exact .inl rfl
        | true => exact .inr (Bool.not_eq_true _ ▸ fun hr => hroom (by rw [hen, hr]; rfl))
    next hw => exact ⟨0, rfl, fun _ => .inl hw⟩

theorem exec_cplHeadAdvance {now : Nat} {fn : Func} {head : BitVec 6} {s : State} (h : Hosted s fn.val) :
    exec (.cplHeadAdvance now fn head) s = .next (((s.advance now).setF .CPL_HEAD_INDEX fn.val (head.toNat % s.ringSize fn.val)).drainCpl fn.val
      (s.fnst fn.val).waiting.length) := hosted_row h

theorem cplHeadAdvance_none {now : Nat} {fn : Func} {head : BitVec 6} {s : State} (h : Hosted s fn.val) (hw : (s.fnst fn.val).waiting = []) :
    exec (.cplHeadAdvance now fn head) s =
      .next ((s.advance now).setF .CPL_HEAD_INDEX fn.val (head.toNat % s.ringSize fn.val)) := by
  rw [exec_cplHeadAdvance h, hw]
  rfl

theorem cplHeadAdvance_drains {now : Nat} {fn : Func} {head : BitVec 6} {s : State} (h : Hosted s fn.val) :
    ∃ t n, exec (.cplHeadAdvance now fn head) s = .next t ∧ t.getF .CPL_HEAD_INDEX fn.val = head.toNat % s.ringSize fn.val ∧
      (t.fnst fn.val).waiting = (s.fnst fn.val).waiting.drop n ∧
      ((t.fnst fn.val).waiting = [] ∨ s.bit .CMD_CFG_EN fn.val = false ∨ t.cplRoom fn.val = false) ∧ KeepsBytes s t nowhere := by
  have hrow := exec_cplHeadAdvance (now := now) (head := head) h
  have hhead : ((s.advance now).setF .CPL_HEAD_INDEX fn.val (head.toNat % s.ringSize fn.val)).getF .CPL_HEAD_INDEX fn.val =
      head.toNat % s.ringSize fn.val := ((s.advance now).getF_setF_same .CPL_HEAD_INDEX fn.val _).trans
        (Nat.mod_eq_of_lt (Nat.lt_of_le_of_lt (Nat.mod_le ..) head.isLt))
  have hset : Within ⟨[.regs], [.CPL_HEAD_INDEX]⟩ (s.advance now)
      ((s.advance now).setF .CPL_HEAD_INDEX fn.val (head.toNat % s.ringSize fn.val)) := State.setF_within ..
  generalize (s.advance now).setF .CPL_HEAD_INDEX fn.val (head.toNat % s.ringSize fn.val) = u at hrow hhead hset
  have hfn : u.fnst fn.val = s.fnst fn.val := hset.touch.fnst _
  have hbit : u.bit .CMD_CFG_EN fn.val = s.bit .CMD_CFG_EN fn.val := hset.bit _ _
  obtain ⟨n, hn, hend⟩ := u.drainCpl_waiting fn.val (s.fnst fn.val).waiting.length
  rw [hfn, hbit] at hend
  rw [hfn] at hn
  have hdrain := u.drainCpl_within fn.val (s.fnst fn.val).waiting.length
  exact ⟨_, n, hrow, (hdrain.getF _ _).trans hhead, hn, hend (Nat.le_refl _),
    .of_sram_eq ((show (u.drainCpl fn.val _).sram = u.sram from hdrain.touch.same .sram).trans (hset.touch.same .sram)) _⟩

/-- A delivered message stands in the mailbox's words, which are full. -/
theorem State.svcFill_spec (s : State) (f : Nat) (ws : List Word) : (s.svcFill f ws).getF .SVC_STAT_FULL f = 1 ∧
    ∀ i, i < 16 → (s.svcFill f ws).getF .SVC_DATA_WORD (f * 16 + i) = (ws.getD i 0).toNat := by
  unfold State.svcFill
  extract_lets u
  have hfull := u.getF_setF_same .SVC_STAT_FULL f 1
  have hset : Within ⟨[.regs], [.SVC_STAT_FULL]⟩ u (u.setF .SVC_STAT_FULL f 1) := State.setF_within ..
  generalize u.setF .SVC_STAT_FULL f 1 = v at hfull hset
  have hmsix := v.msix_within f 1
  refine ⟨(hmsix.getF _ _).trans hfull, fun i hi => (hmsix.getF _ _).trans ((hset.getF _ _).trans ?_)⟩
  obtain ⟨w, -, hend⟩ := foldl_at (K := fun s t : State => t.getF .SVC_DATA_WORD (f * 16 + i) = s.getF .SVC_DATA_WORD (f * 16 + i))
    (fun _ => rfl) (fun _ _ _ h k => k.trans h) (fun t i => t.setF .SVC_DATA_WORD (f * 16 + i) (ws.getD i 0).toNat) i
    (fun t k hk => State.getF_setF_ne t _ (fun h => hk (by omega))) List.nodup_range (List.mem_range.mpr hi) s
  exact hend.trans ((w.getF_setF_same .SVC_DATA_WORD (f * 16 + i) _).trans (Nat.mod_eq_of_lt (ws.getD i 0).isLt))

theorem serviceAck_empty {now : Nat} {fn : Func} {s : State} (h : Hosted s fn.val) (hm : (s.fnst fn.val).messages = []) :
    exec (.serviceAck now fn) s = .next ((s.advance now).setF .SVC_STAT_FULL fn.val 0) := by
  refine (hosted_row h).trans (congrArg Host.Outcome.next ?_)
  have hm' : ((s.advance now).fnst fn.val).messages = [] := hm
  dsimp only
  rw [hm']

theorem serviceAck_next {now : Nat} {fn : Func} {s : State} (h : Hosted s fn.val) {m : List Word} {rest : List (List Word)}
    (hm : (s.fnst fn.val).messages = m :: rest) :
    ∃ t, exec (.serviceAck now fn) s = .next t ∧ t.getF .SVC_STAT_FULL fn.val = 1 ∧ (t.fnst fn.val).messages = rest ∧
      (∀ i, i < 16 → t.getF .SVC_DATA_WORD (fn.val * 16 + i) = (m.getD i 0).toNat) ∧ KeepsBytes s t nowhere := by
  have hrow : exec (.serviceAck now fn) s =
      .next (((s.advance now).setFn fn.val { (s.advance now).fnst fn.val with messages := rest }).svcFill fn.val m) := by
    refine (hosted_row h).trans (congrArg Host.Outcome.next ?_)
    have hm' : ((s.advance now).fnst fn.val).messages = m :: rest := hm
    dsimp only
    rw [hm']
  have hfn := (s.advance now).fnst_setFn_same fn.val { (s.advance now).fnst fn.val with messages := rest }
  have hset : Within ⟨[.fns], []⟩ (s.advance now) ((s.advance now).setFn fn.val { (s.advance now).fnst fn.val with messages := rest }) :=
    State.setFn_within ..
  generalize (s.advance now).setFn fn.val { (s.advance now).fnst fn.val with messages := rest } = u at hrow hfn hset
  obtain ⟨hfull, hwords⟩ := u.svcFill_spec fn.val m
  have hfill := u.svcFill_within fn.val m
  refine ⟨_, hrow, hfull, ?_, hwords,
    .of_sram_eq ((show (u.svcFill fn.val m).sram = u.sram from hfill.touch.same .sram).trans (hset.touch.same .sram)) _⟩
  rw [hfill.touch.fnst, hfn]

/-! ### A host read that times out (R296) -/

theorem State.jobEnd_beaver (s : State) (b : Nat) (x : Beaver) (code : Nat) : (s.jobEnd b x code).beaver b = none := by
  unfold State.jobEnd
  have hstop : ((s.setBeaver b (some x)).beaverStop b).beaver b = none := by
    have hb := s.beaver_setBeaver_same b (some x)
    generalize s.setBeaver b (some x) = u at hb
    unfold State.beaverStop
    rw [hb]
    have hfold : Touches [.tokenHeld, .tokenWait] (u.setBeaver b none) ((u.stepsOf x).foldl State.freeToken (u.setBeaver b none)) :=
      Touches.foldl _ (fun t k => (t.freeToken_within k).touch.mono) _ _
    exact (hfold.beaver b).trans (State.beaver_setBeaver_same ..)
  generalize (s.setBeaver b (some x)).beaverStop b = v at hstop
  have hcharge := v.loaderCharge_within x.job.owner (s.time - x.start)
  generalize v.loaderCharge x.job.owner (s.time - x.start) = w at hcharge
  exact ((w.jobResult_within x.job x.station x.clamped code).touch.beaver b).trans ((hcharge.touch.beaver b).trans hstop)

theorem State.jobFail_beaver (s : State) (b : Nat) (x : Beaver) (code : Nat) : (s.jobFail b x code).beaver b = none := by
  unfold State.jobFail
  extract_lets u v
  have hv : v.beaver b = none := u.jobEnd_beaver b x code
  split
  · exact ((State.setJobQ_touches ..).beaver b).trans hv
  · exact hv

theorem hostReadTimeout_loader {now : Nat} {b : Fin 2} {s : State} {x : Beaver} (hb : s.beaver b.val = some x) (hstate : x.state = 2) :
    ∃ t, exec (.hostReadTimeout now (.loader b)) s = .next t ∧ t.beaver b.val = none ∧ KeepsBytes s t nowhere ∧ t.cells = s.cells := by
  have hb' : (s.advance now).beaver b.val = some x := hb
  have hrow : exec (.hostReadTimeout now (.loader b)) s = if x.job.kind == .importKey then .next ((s.advance now).jobEnd b.val x 0x0E)
      else .next ((s.advance now).jobFail b.val x 0x06) := by
    show execHostReadTimeout now (.loader b) s = _
    unfold execHostReadTimeout
    dsimp only
    rw [hb']
    dsimp only
    rw [hstate]
    exact if_neg Bool.false_ne_true
  split at hrow
  · have hw := (s.advance now).jobEnd_within b.val x 0x0E
    exact ⟨_, hrow, State.jobEnd_beaver .., .of_sram_eq (show _ = (s.advance now).sram from hw.touch.same .sram) _,
      show _ = (s.advance now).cells from hw.touch.same .cells⟩
  · have hw := (s.advance now).jobFail_within b.val x 0x06
    exact ⟨_, hrow, State.jobFail_beaver .., .of_sram_eq (show _ = (s.advance now).sram from hw.touch.same .sram) _,
      show _ = (s.advance now).cells from hw.touch.same .cells⟩

theorem hostReadTimeout_ring {now : Nat} {fn : Func} {s : State} (h : (s.fnst fn.val).held < (s.fnst fn.val).entries.length) :
    ∃ t, exec (.hostReadTimeout now (.ring fn)) s = .next t ∧
      (t.fnst fn.val).entries = (s.fnst fn.val).entries.dropLast ++
        [(List.range 16).map (fun i => BitVec.ofNat 32 (Config.freeNat (s.fresh + i)))] ∧
      t = { s.advance now with fns := t.fns, fresh := s.fresh + 16 } := by
  have h' : ((s.advance now).fnst fn.val).held < ((s.advance now).fnst fn.val).entries.length := h
  refine ⟨_, if_pos h', ?_, rfl⟩
  exact (congrArg Function.entries (State.fnst_setFn_same ..)).trans rfl

theorem hostReadTimeout_bitstream {now : Nat} {fn : Func} {s : State} {e : List Word}
    (he : (s.fnst fn.val).accepted.find? (fun x => entryOp x == 0x01) = some e) (hst : s.getF .GCTL_PWRST_STATE 0 = 0) :
    exec (.hostReadTimeout now (.bitstream fn)) s =
      exec (.loadBitstream now fn e ((List.range (entryWord e 4)).map (fun i => BitVec.ofNat 8 (Config.freeNat (s.fresh + i)))))
        { s with fresh := s.fresh + entryWord e 4 } := by
  have he' : ((s.advance now).fnst fn.val).accepted.find? (fun x => entryOp x == 0x01) = some e := he
  have hst' : ¬ (s.advance now).getF .GCTL_PWRST_STATE 0 ≠ 0 := not_not_intro hst
  have hst2 : ¬ (State.advance { s with fresh := s.fresh + entryWord e 4 } now).getF .GCTL_PWRST_STATE 0 ≠ 0 := not_not_intro hst
  show execHostReadTimeout now (.bitstream fn) s = execLoadBitstream now fn e _ _
  unfold execHostReadTimeout execLoadBitstream
  dsimp only
  rw [he', if_neg hst2]
  exact if_neg hst'

/-- Settles O46: the ring's rows by the register they write, acceptance by its two outcomes (`State.takeUp_accepts`,
`State.takeUp_completes`), the completions by induction on those that wait (`State.drainCpl_waiting`). -/
theorem commandPath : Obligations.CommandPath := by
  unfold Obligations.CommandPath
  refine ⟨⟨fun _ _ _ _ h hen => cmdRingEnable_off h hen, fun _ _ _ _ h hen => cmdRingEnable_on h hen,
      fun _ _ _ _ _ h => commandDoorbell_spec h rfl rfl rfl rfl rfl, fun now fn prod head entries size s hperst hfn h => ?_⟩,
    fun _ _ _ _ _ => fun hes hen hflr hheld hwait => commandAccept_spec rfl hes hen hflr hheld hwait,
    fun _ _ _ h => commandAccept_stays rfl h,
    ⟨fun _ _ _ _ h hw => cplHeadAdvance_none h hw, fun _ _ _ _ h => cplHeadAdvance_drains h,
      fun _ _ _ h => ⟨serviceAck_empty h, fun _ _ hm => serviceAck_next h hm⟩⟩,
    fun now eng s j hj => ?_, fun _ _ _ _ hb hst => hostReadTimeout_loader hb hst, fun _ _ _ h => hostReadTimeout_ring h,
    fun _ _ _ _ he hst => hostReadTimeout_bitstream he hst⟩
  · have hout (F : State → State) : (s.advance now).hosted fn.val F = (s.advance now).emit .unsupported :=
      State.hosted_unsupported F hperst hfn h
    exact ⟨congrArg Host.Outcome.next (hout _), congrArg Host.Outcome.next (hout _), congrArg Host.Outcome.next (hout _),
      congrArg Host.Outcome.next (hout _)⟩
  · have hj' : smapGet none (s.advance now).ingests eng.val = some j := hj
    show execHostReadTimeout now (.ingest eng) s = _
    unfold execHostReadTimeout
    dsimp only
    rw [hj']
    rfl

end Sys2Proof.Machine
end

section
/-!
REFUTATION. The quota of no tenant (R313, O48).
-/

set_option Elab.async false

namespace Sys2Proof.Machine
open Sys2Proof

/-! ### The quota of no tenant (R313, Table 11.12)

The registers of the quotas stand by tenant from 1 on, so `State.quota` of 0 and of 1 are read from the same ones. -/

theorem State.quota_zero (s : State) : s.quota 0 = s.quota 1 := rfl

/-- SET_QUOTA of one core for tenant 1. -/
def oneCoreEntry : List Word := [0x03, 0, 1, 1]

/-- The reset state with that command accepted from the physical function. -/
def oneCoreState : State := { State.reset with accepted := [(0, oneCoreEntry)] }

theorem oneCoreState_quota : oneCoreState.quota 0 ≠ quotaParams oneCoreEntry := by decide

/-- Refutes O48: SET_QUOTA of one core for tenant 1 changes what `State.quota` reads for tenant 0, which the statement says keeps
its quota: both are read from the registers of index 0. The counterexample is this command in the reset state. -/
theorem not_quotasAndCuts : ¬ Obligations.QuotasAndCuts := by
  unfold Obligations.QuotasAndCuts
  rintro ⟨hset, -, -⟩
  obtain ⟨-, hnext⟩ := hset 0 0 oneCoreEntry oneCoreState
  obtain ⟨-, hclean⟩ := hnext (by decide)
  obtain ⟨-, -, hstored⟩ := hclean (by decide) (by decide) (by decide)
  obtain ⟨t, -, hone, hother, -⟩ := hstored rfl (by decide) (by decide)
  have hzero : t.quota 0 = oneCoreState.quota 0 := hother 0 (by decide)
  exact oneCoreState_quota (hzero.symm.trans (t.quota_zero.trans hone))

end Sys2Proof.Machine
end

section
/-!
PROOF. Read-back of resident shards and sweep mode (R257 to R266, R272, O51).
-/

set_option Elab.async false

namespace Sys2Proof.Machine
open Sys2Proof

/-! ### Read-back of resident shards (R257 to R260) -/

/-- What the cells of a shard hold is read from the registers, the stations, the cells, the shadows and the weak bits alone. -/
theorem State.heldDigest_congr {s t : State}
    (h : Touches [.engines, .beavers, .tokenHeld, .tokenWait] s t) (x : Shard) : t.heldDigest x = s.heldDigest x := by
  rw [h.eq_withParts]
  rfl

theorem State.oldestDue_row {now : Nat} {b : Fin 2} {s : State} (hon : s.dieOn 3 = true) (hb : s.beaver b.val = none)
    (hq : ∀ e, e ∈ s.jobs → ∀ j, j ∈ e.2 → j.kind ≠ .load ∧ j.kind ≠ .swap ∧ j.kind ≠ .sweep ∧ j.kind ≠ .erase) {n : Nat}
    (hn : (s.advance now).oldestDue b.val = some n) :
    exec (.readbackStart now b) s = .next ((s.advance now).beaverBegin b.val
      { Beaver.of (Job.blank .wipe 0 none) 4 (s.advance now).time with check := some n }) := by
  have hon' : (s.advance now).dieOn 3 = true := hon
  have hb' : (s.advance now).beaver b.val = none := hb
  have hqueue : (s.advance now).jobs.any
      (fun e => e.2.any (fun j => j.kind == .load || j.kind == .swap || j.kind == .sweep || j.kind == .erase)) = false := by
    rw [List.any_eq_false]
    intro e he
    rw [Bool.not_eq_true, List.any_eq_false]
    intro j hj
    obtain ⟨h1, h2, h3, h4⟩ := hq e he j hj
    simp [h1, h2, h3, h4]
  show execReadbackStart now b s = _
  unfold execReadbackStart
  extract_lets u queued
  rw [if_neg (by rw [show queued = false from hqueue, show u.dieOn 3 = true from hon', show u.beaver b.val = none from hb']; decide)]
  rw [show u.oldestDue b.val = some n from hn]

/-- Who is asked a token for holds one or waits for it. -/
theorem State.askToken_asked (s : State) (pe : Nat) : pe ∈ s.tokenHeld ∨ ∃ w, w ∈ (s.askToken pe).tokenWait ∧ w.engine = pe := by
  unfold State.askToken
  split
  next h =>
    rcases Bool.or_eq_true_iff.mp h with h | h
    · exact .inl (List.contains_iff_mem.mp h)
    · obtain ⟨w, hw, hpe⟩ := List.any_eq_true.mp h
      exact .inr ⟨w, hw, beq_iff_eq.mp hpe⟩
  next => exact .inr ⟨_, List.mem_append_right _ List.mem_cons_self, rfl⟩

theorem State.askToken_waiting (s : State) (pe : Nat) {w : TokenReq} (hw : w ∈ s.tokenWait) : w ∈ (s.askToken pe).tokenWait := by
  unfold State.askToken
  split
  · exact hw
  · exact List.mem_append_left _ hw

theorem State.foldl_askToken_asked (pes : List Nat) (s : State) : ∀ pe, pe ∈ pes →
    pe ∈ s.tokenHeld ∨ ∃ w, w ∈ (pes.foldl State.askToken s).tokenWait ∧ w.engine = pe := by
  have hkeep (w : TokenReq) (ps : List Nat) (u : State) (hw : w ∈ u.tokenWait) : w ∈ (ps.foldl State.askToken u).tokenWait :=
    List.foldlRecOn (motive := fun t : State => w ∈ t.tokenWait) ps _ hw (fun t ht p _ => t.askToken_waiting p ht)
  induction pes generalizing s with
  | nil => exact fun _ h => nomatch h
  | cons a l ih =>
    intro pe hpe
    have hheld : (s.askToken a).tokenHeld = s.tokenHeld := (s.askToken_within a).touch.same .tokenHeld
    rcases List.mem_cons.mp hpe with h | h
    · rw [h]
      rcases s.askToken_asked a with ha | ⟨w, hw, hwa⟩
      · exact .inl ha
      · exact .inr ⟨w, hkeep w l _ hw, hwa⟩
    · rw [← hheld]
      exact ih (s.askToken a) pe h

theorem readbackStart_takes {now : Nat} {b : Fin 2} {s : State} (hon : s.dieOn 3 = true) (hb : s.beaver b.val = none)
    (hq : ∀ e, e ∈ s.jobs → ∀ j, j ∈ e.2 → j.kind ≠ .load ∧ j.kind ≠ .swap ∧ j.kind ≠ .sweep ∧ j.kind ≠ .erase) {n : Nat}
    (hn : (s.advance now).oldestDue b.val = some n) :
    ∃ t x, exec (.readbackStart now b) s = .next t ∧ t.beaver b.val = some x ∧ x.check = some n ∧ x.state = 4 ∧
      (∀ pe, pe ∈ (s.shard n).rgs.map (fun g => g / 4) → pe ∈ s.tokenHeld ∨ ∃ w, w ∈ t.tokenWait ∧ w.engine = pe) ∧
      t = { s.advance now with beavers := t.beavers, tokenWait := t.tokenWait } := by
  have hrow := State.oldestDue_row hon hb hq hn
  generalize hx : ({ Beaver.of (Job.blank .wipe 0 none) 4 (s.advance now).time with check := some n } : Beaver) = x at hrow
  have hcheck : x.check = some n := hx ▸ rfl
  have hstate : x.state = 4 := hx ▸ rfl
  have hw := (s.advance now).beaverBegin_within b.val x
  have hsteps : (s.advance now).stepsOf x = ((s.shard n).rgs.map (fun g => g / 4)).dedup := by
    unfold State.stepsOf
    rw [hcheck]
    rfl
  refine ⟨_, x, hrow, ?_, hcheck, hstate, fun pe hpe => ?_, (hw.mono : Within ⟨[.beavers, .tokenWait], []⟩ _ _).touch.eq_withParts⟩
  · unfold State.beaverBegin
    have hask : Touches [.tokenWait] ((s.advance now).setBeaver b.val (some x))
        (((s.advance now).stepsOf x).foldl State.askToken ((s.advance now).setBeaver b.val (some x))) :=
      Touches.foldl _ (fun t p => (t.askToken_within p).touch.mono) _ _
    exact (hask.beaver b.val).trans (State.beaver_setBeaver_same ..)
  · have hall := State.foldl_askToken_asked ((s.advance now).stepsOf x) ((s.advance now).setBeaver b.val (some x)) pe
    rw [hsteps] at hall
    unfold State.beaverBegin
    rw [hsteps]
    exact hall (List.mem_dedup.mpr hpe)

theorem readbackStart_stays {now : Nat} {b : Fin 2} {s : State}
    (h : s.dieOn 3 = false ∨ s.beaver b.val ≠ none ∨ (s.advance now).oldestDue b.val = none) :
    exec (.readbackStart now b) s = .next (s.advance now) := by
  have hon : (s.advance now).dieOn 3 = s.dieOn 3 := rfl
  have hb : (s.advance now).beaver b.val = s.beaver b.val := rfl
  show execReadbackStart now b s = _
  unfold execReadbackStart
  extract_lets u queued
  have hu : u = s.advance now := rfl
  split
  · rfl
  next hc =>
    rw [hu, hon, hb] at hc
    rcases h with h | h | h
    · exact absurd (by simp [h]) hc
    · exact absurd (by simp [Option.isSome_iff_ne_none.mpr h]) hc
    · rw [hu, h]

/-! The end of a check. -/

theorem readbackDone_waits {now : Nat} {b : Fin 2} {snaps : List (Nat × Nat)} {drifted : List Nat} {km sett : Bool} {s : State} {x : Beaver}
    {n : Nat} (hb : s.beaver b.val = some x) (hc : x.check = some n) (hstate : (s.shard n).state = 2)
    (h : ∃ pe, pe ∈ s.stepsOf x ∧ ¬ (pe ∈ s.tokenHeld ∧ s.coreOn (coreOf pe) = true ∧ (s.engine pe).boundary = true)) :
    exec (.readbackDone now b snaps drifted km sett) s = .next (s.advance now) := by
  have hb' : (s.advance now).beaver b.val = some x := hb
  have hstate' : ((s.advance now).shard n).state = 2 := hstate
  have hall : ((s.advance now).stepsOf x).all (fun pe => (s.advance now).tokenHeld.contains pe && (s.advance now).coreOn (coreOf pe) &&
      ((s.advance now).engine pe).boundary) = false := by
    obtain ⟨pe, hpe, hno⟩ := h
    rw [List.all_eq_false]
    refine ⟨pe, hpe, fun hyes => hno ?_⟩
    obtain ⟨hyes, hbound⟩ := Bool.and_eq_true_iff.mp hyes
    obtain ⟨hheld, hcore⟩ := Bool.and_eq_true_iff.mp hyes
    exact ⟨List.contains_iff_mem.mp hheld, hcore, hbound⟩
  show execReadbackDone now b snaps drifted km sett s = _
  unfold execReadbackDone
  extract_lets u
  rw [show u.beaver b.val = some x from hb']
  dsimp only
  rw [hc]
  dsimp only
  rw [show (u.shard n).state = 2 from hstate', if_neg (by decide : ¬ ((2 : Nat) != 2) = true)]
  exact if_pos (by rw [show (u.stepsOf x).all (fun pe => u.tokenHeld.contains pe && u.coreOn (coreOf pe) && (u.engine pe).boundary) = false from hall]; rfl)

section Done
variable {now : Nat} {b : Fin 2} {s : State} {x : Beaver} {n : Nat} {y : Shard} (hy : s.shard n = y) (hb : s.beaver b.val = some x)
  (hc : x.check = some n) (hstate : y.state = 2) (hmode : y.wmode ≠ 2)
  (hready : ∀ pe, pe ∈ s.stepsOf x → pe ∈ s.tokenHeld ∧ s.coreOn (coreOf pe) = true ∧ (s.engine pe).boundary = true)
include hy hb hc hstate hmode hready

/-- A check that is ready lets its steps go and judges the shard. -/
theorem readbackDone_judges (km sett : Bool) :
    ∃ u, Touches [.engines, .beavers, .tokenHeld, .tokenWait] (s.advance now) u ∧ u.beaver b.val = none ∧
      exec (.readbackDone now b [] [] km sett) s = .next (u.judgeShard n km sett).spotSettle := by
  have hb' : (s.advance now).beaver b.val = some x := hb
  have hall : ((s.advance now).stepsOf x).all (fun pe => (s.advance now).tokenHeld.contains pe && (s.advance now).coreOn (coreOf pe) &&
      ((s.advance now).engine pe).boundary) = true := by
    rw [List.all_eq_true]
    intro pe hpe
    obtain ⟨hheld, hcore, hbound⟩ := hready pe hpe
    exact Bool.and_eq_true_iff.mpr ⟨Bool.and_eq_true_iff.mpr ⟨List.contains_iff_mem.mpr hheld, hcore⟩, hbound⟩
  have hstop : ((s.advance now).beaverStop b.val).beaver b.val = none := by
    unfold State.beaverStop
    rw [hb']
    have hfree : Touches [.tokenHeld, .tokenWait] ((s.advance now).setBeaver b.val none)
        (((s.advance now).stepsOf x).foldl State.freeToken ((s.advance now).setBeaver b.val none)) :=
      Touches.foldl _ (fun t p => (t.freeToken_within p).touch.mono) _ _
    exact (hfree.beaver b.val).trans (State.beaver_setBeaver_same ..)
  have hw1 := (s.advance now).beaverStop_within b.val
  have hw2 : Touches [.engines] ((s.advance now).beaverStop b.val)
      (((s.advance now).stepsOf x).foldl State.opDone ((s.advance now).beaverStop b.val)) :=
    Touches.foldl _ (fun t p => (t.opDone_within p).touch.mono) _ _
  refine ⟨_, hw1.touch.mono.trans hw2.mono, (hw2.beaver b.val).trans hstop, ?_⟩
  show execReadbackDone now b [] [] km sett s = _
  unfold execReadbackDone
  extract_lets u
  have hy' : u.shard n = y := hy
  rw [show u.beaver b.val = some x from hb']
  dsimp only
  rw [hc]
  dsimp only
  rw [hy', hstate, if_neg (by decide : ¬ ((2 : Nat) != 2) = true),
    if_neg (by rw [show (u.stepsOf x).all (fun pe => u.tokenHeld.contains pe && u.coreOn (coreOf pe) && (u.engine pe).boundary) = true from hall]; decide)]
  have hnone : y.rgs.filter ([] : List Nat).contains = [] := List.filter_eq_nil_iff.mpr (fun g _ => by simp)
  rw [hnone]
  have htwins (v : State) : v.twinFindings y = [] := if_pos (bne_iff_ne.mpr hmode)
  simp only [List.filter_nil, List.foldl_nil, htwins]
  rfl

theorem readbackDone_matches (hkm : y.digest = s.heldDigest y) (hsett : y.sett = some (s.heldDigest y)) :
    ∃ t, exec (.readbackDone now b [] [] true true) s = .next t ∧ t.beaver b.val = none ∧ (t.shard n).state = 2 ∧
      (t.shard n).checked = max s.time now ∧ (t.shard n).overdue = false ∧ t.cells = s.cells ∧
      t.getF .WLD_CHKCNT_COUNT 0 = min (s.getF .WLD_CHKCNT_COUNT 0 + 1) (2 ^ Fld.WLD_CHKCNT_COUNT.width - 1) ∧
      KeepsRegs s t (fun f i => f == .WLD_CHKCNT_COUNT && i == 0) ∧
      t = { s.advance now with regs := t.regs, beavers := t.beavers, shards := t.shards, engines := t.engines, tokenHeld := t.tokenHeld, tokenWait := t.tokenWait, spot := t.spot, spotDue := t.spotDue } := by
  obtain ⟨u, hw, hnone, hrow⟩ := readbackDone_judges (now := now) hy hb hc hstate hmode hready true true
  have hshard : u.shard n = y := (hw.shard n).trans hy
  have hdig : u.heldDigest y = s.heldDigest y := State.heldDigest_congr (s := s.advance now) hw y
  have hcnt0 : u.getF .WLD_CHKCNT_COUNT 0 = s.getF .WLD_CHKCNT_COUNT 0 := KeepsRegs.of_regs_eq (hw.same .regs) (fun _ _ => false) _ _ rfl
  have hregs : KeepsRegs s u (fun f i => f == .WLD_CHKCNT_COUNT && i == 0) := .of_regs_eq (show u.regs = s.regs from hw.same .regs) _
  have htime : u.time = max s.time now := hw.same .time
  have hadd : Within ⟨[.regs], [.WLD_CHKCNT_COUNT]⟩ u (u.addHold .WLD_CHKCNT_COUNT 0 1) := State.addHold_within ..
  have hcount : (u.addHold .WLD_CHKCNT_COUNT 0 1).getF .WLD_CHKCNT_COUNT 0 =
      min (s.getF .WLD_CHKCNT_COUNT 0 + 1) (2 ^ Fld.WLD_CHKCNT_COUNT.width - 1) := by
    rw [← hcnt0]
    exact (u.getF_setF_same .WLD_CHKCNT_COUNT 0 _).trans (Nat.mod_eq_of_lt
      (Nat.lt_of_le_of_lt (Nat.min_le_right ..) (Nat.sub_lt (Nat.two_pow_pos _) Nat.one_pos)))
  have hregs' := hregs.addHold (g := .WLD_CHKCNT_COUNT) (i := 0) rfl 1
  have hjudge : u.judgeShard n true true = (u.addHold .WLD_CHKCNT_COUNT 0 1).setShard n { y with
      digest := s.heldDigest y, sett := some (s.heldDigest y), checked := (u.addHold .WLD_CHKCNT_COUNT 0 1).time, idle := 0, overdue := false,
      owed := false } := by
    unfold State.judgeShard
    extract_lets x d km' sett' v w
    have hx : x = y := hshard
    have hd : d = s.heldDigest y := (congrArg u.heldDigest hx).trans hdig
    have hkm' : km' = true := by
      unfold km'
      rw [hx, hd, hkm]
      simp
    have hsett' : sett' = true := by
      unfold sett'
      rw [hx, hd, hsett]
      simp
    rw [hkm', hsett', if_pos (by decide : (true || true) = true), if_pos (by decide : (true && true) = true)]
    unfold w
    rw [hx, hd]
  rw [hjudge] at hrow
  generalize u.addHold .WLD_CHKCNT_COUNT 0 1 = v at hrow hadd hcount hregs'
  have hvtime : v.time = max s.time now := (show v.time = u.time from hadd.touch.same .time).trans htime
  have hend := v.shard_setShard_same n { y with digest := s.heldDigest y, sett := some (s.heldDigest y), checked := v.time, idle := 0, overdue := false, owed := false }
  have hset : Within ⟨[.shards], []⟩ v (v.setShard n { y with digest := s.heldDigest y, sett := some (s.heldDigest y), checked := v.time, idle := 0, overdue := false, owed := false }) := State.setShard_within ..
  generalize v.setShard n { y with digest := s.heldDigest y, sett := some (s.heldDigest y), checked := v.time, idle := 0, overdue := false, owed := false } = w at hrow hend hset
  have hspot := w.spotSettle_within
  have hshardEnd := (hspot.touch.shard n).trans hend
  have hallParts : Touches [.regs, .beavers, .shards, .engines, .tokenHeld, .tokenWait, .spot, .spotDue] (s.advance now) w.spotSettle :=
    hw.mono.trans (hadd.touch.mono.trans (hset.touch.mono.trans hspot.touch.mono))
  generalize w.spotSettle = t at hrow hspot hshardEnd hallParts
  refine ⟨t, hrow, ?_, ?_, ?_, ?_, show _ = (s.advance now).cells from hallParts.same .cells, ?_, ?_, hallParts.eq_withParts⟩
  · exact (hspot.touch.beaver _).trans ((hset.touch.beaver _).trans ((hadd.touch.beaver _).trans hnone))
  · rw [hshardEnd]
    exact hstate
  · rw [hshardEnd]
    exact hvtime
  · rw [hshardEnd]
  · exact (hspot.getF _ _).trans ((hset.getF _ _).trans hcount)
  · exact (hregs'.congr (hset.touch.same .regs)).congr (hspot.touch.same .regs)

omit hy hb hc hstate hmode hready in
/-- A shard found wrong is suspect, and counted. -/
theorem State.suspectShard_spec (s : State) (n : Nat) : ((s.suspectShard n).shard n).state = 3 ∧
    (s.suspectShard n).getF .WLD_MISMATCH_COUNT 0 = min (s.getF .WLD_MISMATCH_COUNT 0 + 1) (2 ^ Fld.WLD_MISMATCH_COUNT.width - 1) := by
  unfold State.suspectShard
  extract_lets x u v w ws a c
  have hu : Within ⟨[.shards], []⟩ s u := State.setShard_within ..
  have hushard : (u.shard n).state = 3 := (congrArg Shard.state (State.shard_setShard_same ..)).trans rfl
  have hv : Within State.parkWrites u v := Within.foldl _ (fun t st => t.park_within st .suspect) _ _
  have hw : Within ⟨[.regs], [.WLD_MISMATCH_COUNT]⟩ v w := State.addHold_within ..
  have hcount : w.getF .WLD_MISMATCH_COUNT 0 = min (v.getF .WLD_MISMATCH_COUNT 0 + 1) (2 ^ Fld.WLD_MISMATCH_COUNT.width - 1) :=
    (v.getF_setF_same .WLD_MISMATCH_COUNT 0 _).trans (Nat.mod_eq_of_lt
      (Nat.lt_of_le_of_lt (Nat.min_le_right ..) (Nat.sub_lt (Nat.two_pow_pos _) Nat.one_pos)))
  have hvcount : v.getF .WLD_MISMATCH_COUNT 0 = s.getF .WLD_MISMATCH_COUNT 0 := (hv.getF _ _).trans (hu.getF _ _)
  have ha : Within State.serviceWrites w a := State.service_within ..
  have hc : Within State.serviceWrites a c := Within.ite _ (Within.refl _ _) (State.service_within ..)
  clear_value u v w a c
  have hraise := c.raise_within 0x104 x.owner x.cluster 0xFF x.station []
  refine ⟨?_, ?_⟩
  · rw [hraise.touch.shard, hc.touch.shard, ha.touch.shard, hw.touch.shard, hv.touch.shard]
    exact hushard
  · exact (hraise.getF _ _).trans ((hc.getF _ _).trans ((ha.getF _ _).trans (hcount.trans (by rw [hvcount]))))

theorem readbackDone_suspects {km sett : Bool}
    (h : (y.digest ≠ s.heldDigest y ∨ km = false) ∧ (y.sett ≠ some (s.heldDigest y) ∨ sett = false)) :
    ∃ t, exec (.readbackDone now b [] [] km sett) s = .next t ∧ t.beaver b.val = none ∧ (t.shard n).state = 3 ∧
      t.getF .WLD_MISMATCH_COUNT 0 = min (s.getF .WLD_MISMATCH_COUNT 0 + 1) (2 ^ Fld.WLD_MISMATCH_COUNT.width - 1) ∧
      t.cells = s.cells ∧ KeepsBytes s t nowhere := by
  obtain ⟨u, hw, hnone, hrow⟩ := readbackDone_judges (now := now) hy hb hc hstate hmode hready km sett
  obtain ⟨hkm, hsett⟩ := h
  have hshard : u.shard n = y := (hw.shard n).trans hy
  have hdig : u.heldDigest y = s.heldDigest y := State.heldDigest_congr (s := s.advance now) hw y
  have hjudge : u.judgeShard n km sett = (u.addHold .WLD_CHKCNT_COUNT 0 1).suspectShard n := by
    unfold State.judgeShard
    extract_lets x d km' sett' v w
    have hx : x = y := hshard
    have hd : d = s.heldDigest y := (congrArg u.heldDigest hx).trans hdig
    have hkm' : km' = false := by
      unfold km'
      rw [hx, hd]
      rcases hkm with h | h
      · simp [h]
      · simp [h]
    have hsett' : sett' = false := by
      unfold sett'
      rw [hx, hd]
      rcases hsett with h | h
      · simp [h]
      · simp [h]
    rw [hkm', hsett']
    exact if_neg Bool.false_ne_true
  rw [hjudge] at hrow
  have hadd : Within ⟨[.regs], [.WLD_CHKCNT_COUNT]⟩ u (u.addHold .WLD_CHKCNT_COUNT 0 1) := State.addHold_within ..
  generalize u.addHold .WLD_CHKCNT_COUNT 0 1 = v at hrow hadd
  have hcount : v.getF .WLD_MISMATCH_COUNT 0 = s.getF .WLD_MISMATCH_COUNT 0 :=
    (hadd.getF _ _).trans (KeepsRegs.of_regs_eq (hw.same .regs) (fun _ _ => false) _ _ rfl)
  obtain ⟨hstate3, hmis⟩ := v.suspectShard_spec n
  have hsus := v.suspectShard_within n
  generalize v.suspectShard n = w at hrow hstate3 hmis hsus
  have hspot := w.spotSettle_within
  have hcells : w.spotSettle.cells = s.cells := (show _ = w.cells from hspot.touch.same .cells).trans
    ((show _ = v.cells from hsus.touch.same .cells).trans ((show _ = u.cells from hadd.touch.same .cells).trans (hw.same .cells)))
  have hbytes : KeepsBytes s w.spotSettle nowhere := .of_sram_eq ((show _ = w.sram from hspot.touch.same .sram).trans
    ((show _ = v.sram from hsus.touch.same .sram).trans ((show _ = u.sram from hadd.touch.same .sram).trans (hw.same .sram)))) _
  refine ⟨_, hrow, ?_, ?_, ?_, hcells, hbytes⟩
  · exact (hspot.touch.beaver _).trans ((hsus.touch.beaver _).trans ((hadd.touch.beaver _).trans hnone))
  · rw [hspot.touch.shard]
    exact hstate3
  · exact (hspot.getF _ _).trans (hmis.trans (by rw [hcount]))

end Done

/-! Checks that are overdue, and the capture of a loader's error. -/

theorem readbackOverdue_marks {now : Nat} {n : Fin 1024} {s : State} {y : Shard} (hy : s.shard n.val = y) (hstate : y.state = 2)
    (hover : y.overdue = false) (hdue : y.checked + y.idle + 2 * s.checkInterval ≤ max s.time now) :
    ∃ t, exec (.readbackOverdue now n) s = .next t ∧ t.shard n.val = { y with overdue := true } ∧
      t.getF .WLD_CHKSTAT_OVERDUE 0 = min (s.getF .WLD_CHKSTAT_OVERDUE 0 + 1) (2 ^ Fld.WLD_CHKSTAT_OVERDUE.width - 1) ∧
      KeepsRegs s t (fun f i => f == .WLD_CHKSTAT_OVERDUE && i == 0) ∧
      t = { s.advance now with regs := t.regs, shards := t.shards } := by
  have hrow : exec (.readbackOverdue now n) s =
      .next (((s.advance now).setShard n.val { y with overdue := true }).addHold .WLD_CHKSTAT_OVERDUE 0 1) := by
    subst hy
    refine if_neg ?_
    rw [show ((s.advance now).shard n.val).state = 2 from hstate, show ((s.advance now).shard n.val).overdue = false from hover]
    simp only [bne_self_eq_false, Bool.or_self, Bool.false_or, decide_eq_true_eq]
    exact Nat.not_lt.mpr hdue
  have hset : Within ⟨[.shards], []⟩ (s.advance now) ((s.advance now).setShard n.val { y with overdue := true }) := State.setShard_within ..
  have hend := (s.advance now).shard_setShard_same n.val { y with overdue := true }
  generalize (s.advance now).setShard n.val { y with overdue := true } = u at hrow hset hend
  have hadd : Within ⟨[.regs], [.WLD_CHKSTAT_OVERDUE]⟩ u (u.addHold .WLD_CHKSTAT_OVERDUE 0 1) := State.addHold_within ..
  have hcount0 : u.getF .WLD_CHKSTAT_OVERDUE 0 = s.getF .WLD_CHKSTAT_OVERDUE 0 := hset.getF _ _
  refine ⟨_, hrow, (hadd.touch.shard _).trans hend, ?_, ?_, (hadd.after hset.mono : Within ⟨[.regs, .shards], [.WLD_CHKSTAT_OVERDUE]⟩ _ _).touch.eq_withParts⟩
  · rw [← hcount0]
    exact (u.getF_setF_same .WLD_CHKSTAT_OVERDUE 0 _).trans (Nat.mod_eq_of_lt
      (Nat.lt_of_le_of_lt (Nat.min_le_right ..) (Nat.sub_lt (Nat.two_pow_pos _) Nat.one_pos)))
  · exact (KeepsRegs.of_regs_eq (show u.regs = s.regs from hset.touch.same .regs) _).addHold rfl 1

theorem readbackOverdue_stays {now : Nat} {n : Fin 1024} {s : State} {y : Shard} (hy : s.shard n.val = y)
    (h : y.state ≠ 2 ∨ y.overdue = true ∨ max s.time now < y.checked + y.idle + 2 * s.checkInterval) :
    exec (.readbackOverdue now n) s = .next (s.advance now) := by
  subst hy
  have hsame : (s.advance now).shard n.val = s.shard n.val := rfl
  refine if_pos ?_
  rw [hsame]
  rcases h with h | h | h
  · simp [h]
  · simp [h]
  · exact Bool.or_eq_true_iff.mpr (.inr (decide_eq_true h))

theorem wldErrClear_clears {now : Nat} {s : State} (hon : s.dieOn 3 = true) :
    ∃ t, exec (.wldErrClear now) s = .next t ∧ t.getF .WLD_ERR_VALID 0 = 0 ∧
      KeepsRegs s t (fun f i => f == .WLD_ERR_VALID && i == 0) ∧ t = { s.advance now with regs := t.regs } := by
  have hon' : (s.advance now).blockOn Reg.WLD_ERR.info.block 0 1 = true := hon
  refine ⟨_, congrArg Host.Outcome.next (State.onReg_on _ _ _ _ _ _ hon'), State.getF_setF_same .., ?_, rfl⟩
  exact (KeepsRegs.of_regs_eq (t := s.advance now) rfl _).setF rfl _

theorem wldErrClear_refused {now : Nat} {s : State} (hoff : s.dieOn 3 = false) :
    exec (.wldErrClear now) s = .next ((s.advance now).accErr 0 true 0x20 false (Reg.WLD_ERR.at_ [])) := by
  have hoff' : (s.advance now).blockOn Reg.WLD_ERR.info.block 0 1 = false := hoff
  exact congrArg Host.Outcome.next (if_neg (by rw [hoff']; decide))

/-! ### Sweep mode (R265, R266) -/

/-- A message leaves the mailbox of a function that is not in reset full. -/
theorem State.service_full {s : State} {f code : Nat} {ws : List Word} (h : (s.fnst f).flr = none) :
    (s.service f code ws).bit .SVC_STAT_FULL f = true := by
  unfold State.service
  extract_lets x msg u
  have hw : Within ⟨[.fns], []⟩ s u := State.setFn_within ..
  have hbit : u.bit .SVC_STAT_FULL f = s.bit .SVC_STAT_FULL f := hw.bit _ _
  rw [if_neg (by rw [show x.flr = none from h]; decide)]
  split
  · obtain ⟨hfull, -⟩ := u.svcFill_spec f msg
    unfold State.bit
    rw [hfull]
    rfl
  next hfull =>
    have hu : u.bit .SVC_STAT_FULL f = true := by
      rw [Bool.not_eq_true, Bool.not_eq_false'] at hfull
      exact hfull
    split
    · exact ((State.setFn_within ..).bit .SVC_STAT_FULL f).trans hu
    · exact ((State.addHold_within u .SVC_STAT_LOST f 1).bit .SVC_STAT_FULL f).trans hu

theorem sweepTilesDone_tells {now : Nat} {st : StationId} {s : State} {y : Station} (hy : s.station st.val = y) (hstate : y.state ≠ 0)
    (hlayer : y.layerTiles ≠ 0) (htiles : y.tiles = 0) (hhold : Hold.sweep ∈ y.holds) :
    ∃ t, exec (.sweepTilesDone now st) s = .next t ∧ t.station st.val = { y with layerTiles := 0 } ∧
      ((s.fnst y.owner).flr = none → t.bit .SVC_STAT_FULL y.owner = true) ∧
      (∀ n, n ≠ st.val → t.station n = s.station n) ∧ t.cells = s.cells ∧ KeepsBytes s t nowhere := by
  have hrow : exec (.sweepTilesDone now st) s = .next (((s.advance now).setStation st.val { y with layerTiles := 0 }).service y.owner 4
      [BitVec.ofNat 32 st.val, BitVec.ofNat 32 y.layerTiles]) := by
    subst hy
    have hsame : (s.advance now).station st.val = s.station st.val := rfl
    refine if_neg ?_
    rw [hsame, htiles]
    simp [hstate, hlayer, hhold]
  have hset : Within ⟨[.stations], []⟩ (s.advance now) ((s.advance now).setStation st.val { y with layerTiles := 0 }) := State.setStation_within ..
  have hend := (s.advance now).station_setStation_same st.val { y with layerTiles := 0 }
  have hother (n : Nat) (hn : n ≠ st.val) : ((s.advance now).setStation st.val { y with layerTiles := 0 }).station n = s.station n :=
    (s.advance now).station_setStation_ne st.val _ (Ne.symm hn)
  generalize (s.advance now).setStation st.val { y with layerTiles := 0 } = u at hrow hset hend hother
  have hserv := u.service_within y.owner 4 [BitVec.ofNat 32 st.val, BitVec.ofNat 32 y.layerTiles]
  have hfn : u.fnst y.owner = s.fnst y.owner := hset.touch.fnst _
  refine ⟨_, hrow, (hserv.touch.station _).trans hend, fun hflr => State.service_full (by rw [hfn]; exact hflr),
    fun n hn => (hserv.touch.station _).trans (hother n hn), ?_, ?_⟩
  · exact (show _ = u.cells from hserv.touch.same .cells).trans (hset.touch.same .cells)
  · exact .of_sram_eq ((show _ = u.sram from hserv.touch.same .sram).trans (hset.touch.same .sram)) _

theorem sweepTilesDone_stays {now : Nat} {st : StationId} {s : State} {y : Station} (hy : s.station st.val = y)
    (h : y.state = 0 ∨ y.layerTiles = 0 ∨ y.tiles ≠ 0 ∨ Hold.sweep ∉ y.holds) :
    exec (.sweepTilesDone now st) s = .next (s.advance now) := by
  subst hy
  have hsame : (s.advance now).station st.val = s.station st.val := rfl
  refine if_pos ?_
  rw [hsame]
  rcases h with h | h | h | h
  · simp [h]
  · simp [h]
  · simp [h]
  · simp [h]

theorem sweepBudgetReady_spec (now : Nat) (g : Nat) (s : State) :
    (((s.advance now).sweepTake g 0).tracker g).sweep ≤ s.getF .WLD_SWEEPCFG_DAILY 0 * 86400000000000 ∧
      ((s.tracker g).sweep ≤ s.getF .WLD_SWEEPCFG_DAILY 0 * 86400000000000 →
        (s.tracker g).sweep ≤ (((s.advance now).sweepTake g 0).tracker g).sweep) ∧
      (((s.advance now).sweepTake g 0).tracker g).swept = (s.tracker g).swept ∧
      (((s.advance now).sweepTake g 0).tracker g).sweepAt = max s.time now ∧
      (s.advance now).sweepTake g 0 = { s.advance now with trackers := ((s.advance now).sweepTake g 0).trackers } ∧
      ∀ k, k ≠ g → ((s.advance now).sweepTake g 0).tracker k = s.tracker k := by
  have hsame : ((s.advance now).sweepTake g 0).tracker g = { (s.advance now).tracker g with
      sweep := (s.advance now).sweepLevel g - 0 * sweepUnit, sweepAt := (s.advance now).time, swept := ((s.advance now).tracker g).swept + 0 } :=
    State.tracker_setTracker_same ..
  have hlevel : (s.advance now).sweepLevel g = min (s.getF .WLD_SWEEPCFG_DAILY 0 * 86400000000000)
      ((s.tracker g).sweep + (max s.time now - (s.tracker g).sweepAt) * s.getF .WLD_SWEEPCFG_DAILY 0) := rfl
  have hsweep : (((s.advance now).sweepTake g 0).tracker g).sweep = min (s.getF .WLD_SWEEPCFG_DAILY 0 * 86400000000000)
      ((s.tracker g).sweep + (max s.time now - (s.tracker g).sweepAt) * s.getF .WLD_SWEEPCFG_DAILY 0) := by
    rw [hsame, ← hlevel]
    dsimp only
    rw [Nat.zero_mul, Nat.sub_zero]
  refine ⟨?_, fun hle => ?_, by rw [hsame]; rfl, by rw [hsame]; rfl, ?_, fun k hk => ?_⟩
  · rw [hsweep]
    exact Nat.min_le_left ..
  · rw [hsweep]
    exact Nat.le_min.mpr ⟨hle, Nat.le_add_right ..⟩
  · exact ((s.advance now).sweepTake_within g 0).touch.eq_withParts
  · exact (s.advance now).tracker_setTracker_ne g _ (Ne.symm hk)

/-- Settles O51: a check that is ready lets its steps go and judges the shard as its cells hold it, which the steps' end does not
change (`State.heldDigest_congr`). -/
theorem readbackAndSweep : Obligations.ReadbackAndSweep := by
  unfold Obligations.ReadbackAndSweep
  refine ⟨⟨fun _ _ _ => ⟨fun _ hon hb hq hn => readbackStart_takes hon hb hq hn, readbackStart_stays⟩,
      fun _ _ _ _ _ => fun hb hc hstate hmode hready => ⟨readbackDone_matches rfl hb hc hstate hmode hready,
        fun _ _ h => readbackDone_suspects rfl hb hc hstate hmode hready h⟩,
      fun _ _ _ _ _ _ _ _ _ hb hc hstate h => readbackDone_waits hb hc hstate h,
      fun _ _ _ => ⟨readbackOverdue_marks rfl, readbackOverdue_stays rfl⟩,
      fun _ _ => ⟨wldErrClear_clears, wldErrClear_refused⟩⟩,
    fun _ _ _ => ⟨sweepTilesDone_tells rfl, sweepTilesDone_stays rfl⟩,
    fun now cl co e rg s => ⟨_, rfl, sweepBudgetReady_spec now _ s⟩⟩

end Sys2Proof.Machine
end

section
/-!
PROOF. Switching domains on and off (R29, R386, R387, O40).
-/

set_option Elab.async false

namespace Sys2Proof.Machine
open Sys2Proof

/-! ### Switching domains on and off (R29, R386, R387) -/

/-- The registers of a unit whose domain comes on are lost; every other field keeps its value. -/
theorem State.regsLost_getF {s : State} {b : Block} {unit : Nat} {f : Fld} (i : Nat)
    (hf : ((lostRegs b).flatMap Reg.fields).all (fun g => g.code != f.code) = true) : (s.regsLost b unit).getF f i = s.getF f i := by
  have hcode : keyCode (fkey f i) = f.code := by
    unfold keyCode fkey
    have := f.code_lt
    omega
  have hnone : ((lostRegs b).flatMap (fun r => r.fields.map (fun g => (g.code, r.perUnit b)))).find? (fun c => c.1 == keyCode (fkey f i)) = none := by
    rw [List.find?_eq_none]
    intro c hc
    obtain ⟨r, hr, hrc⟩ := List.mem_flatMap.mp hc
    obtain ⟨g, hg, rfl⟩ := List.mem_map.mp hrc
    rw [hcode]
    have hne := List.all_eq_true.mp hf g (List.mem_flatMap.mpr ⟨r, hr, hg⟩)
    simpa using hne
  refine (smapGet_filter_key f.info.rst s.regs (fun k =>
    match ((lostRegs b).flatMap (fun r => r.fields.map (fun g => (g.code, r.perUnit b)))).find? (fun c => c.1 == keyCode k) with
    | some c => keyRep k / c.2 != unit
    | none => true) (fkey f i)).trans (if_pos ?_)
  rw [hnone]

theorem State.regsLost_touches (s : State) (b : Block) (unit : Nat) : Touches [.regs] s (s.regsLost b unit) := Touches.of_withParts rfl

theorem lostRegs_core_dom {f : Fld} (hf : f = .CPT_DOM_CORE ∨ f = .CPT_DOM_SHARED) :
    ((lostRegs .core).flatMap Reg.fields).all (fun g => g.code != f.code) = true := by
  rcases hf with rfl | rfl
  · decide
  · decide

theorem lostRegs_shared_dom {f : Fld} (hf : f = .CPT_DOM_CORE ∨ f = .CPT_DOM_SHARED) :
    ((lostRegs .shared).flatMap Reg.fields).all (fun g => g.code != f.code) = true := by
  rcases hf with rfl | rfl
  · decide
  · decide

theorem State.rewriteProgs_unloaded {s : State} (h : s.parts = []) (c : Nat) : s.rewriteProgs c = s := by
  unfold State.rewriteProgs
  rw [h]
  rfl

theorem State.rewriteDescs_unloaded {s : State} (h : s.parts = []) (core : Nat) : s.rewriteDescs core = s := by
  unfold State.rewriteDescs
  rw [h]
  rfl

/-- A cluster's shared domain that comes on: its bit is set, the cells and the domains of cores stay, and without a loaded
partition its memory is zero. -/
theorem State.sharedUp_spec (s : State) (c : Nat) : Touches [.regs, .sram, .ecc, .shards] s (s.sharedUp c) ∧ (s.sharedUp c).sharedOn c = true ∧
    (∀ core, (s.sharedUp c).coreOn core = s.coreOn core) ∧
    (s.parts = [] → ∀ a, (s.sharedUp c).byte a = if kmBase c ≤ a ∧ a < kmBase c + 0x400000 then 0 else s.byte a) := by
  unfold State.sharedUp
  extract_lets u
  have hu : Touches [.shards] s u := Touches.foldl _ (fun t e => (State.setShard_touches ..)) _ _
  have hz : Touches [.sram, .ecc] u (u.zeroFill (kmBase c) 0x400000) := State.zeroFill_touches ..
  have hbyte (a : Nat) := u.byte_zeroFill (kmBase c) 0x400000 a
  generalize u.zeroFill (kmBase c) 0x400000 = v at hz hbyte
  have hl := v.regsLost_touches .shared c
  have hdom (f : Fld) (hf : f = .CPT_DOM_CORE ∨ f = .CPT_DOM_SHARED) (i : Nat) : (v.regsLost .shared c).getF f i = v.getF f i :=
    State.regsLost_getF i (lostRegs_shared_dom hf)
  generalize v.regsLost .shared c = w at hl hdom
  have hset : Within ⟨[.regs], [.CPT_DOM_SHARED]⟩ w (w.setF .CPT_DOM_SHARED c 1) := State.setF_within ..
  have hone := w.getF_setF_same .CPT_DOM_SHARED c 1
  generalize w.setF .CPT_DOM_SHARED c 1 = x at hset hone
  have hr := x.rewriteProgs_within c
  have hparts : x.parts = s.parts := (show _ = w.parts from hset.touch.same .parts).trans
    ((show _ = v.parts from hl.same .parts).trans ((show _ = u.parts from hz.same .parts).trans (hu.same .parts)))
  have hsram : x.sram = v.sram := (show _ = w.sram from hset.touch.same .sram).trans (hl.same .sram)
  refine ⟨hu.mono.trans (hz.mono.trans (hl.mono.trans (hset.touch.mono.trans hr.touch.mono))), ?_, fun core => ?_, fun hs a => ?_⟩
  · refine (hr.bit _ _).trans ?_
    unfold State.bit
    rw [hone]
    rfl
  · unfold State.coreOn
    have hkeep : (x.rewriteProgs c).getF .CPT_DOM_CORE (core / 8) = s.getF .CPT_DOM_CORE (core / 8) :=
      (hr.getF _ _).trans ((hset.getF _ _).trans ((hdom _ (.inl rfl) _).trans ((hz.getF _ _).trans (hu.getF _ _))))
    rw [hkeep]
  · rw [State.rewriteProgs_unloaded (hparts.trans hs)]
    have hx : x.byte a = v.byte a := by
      unfold State.byte
      rw [hsram]
    rw [hx, hbyte]
    have hs : u.byte a = s.byte a := by
      unfold State.byte
      rw [show u.sram = s.sram from hu.same .sram]
    rw [hs]

/-- A core's domain that comes on: its bit is set, the cells and the shared domains stay, and without a loaded partition its
memory is zero. -/
theorem State.coreUp_spec (s : State) (core : Nat) :
    Touches [.regs, .sram, .ecc, .trackers, .passes, .dac] s (s.coreUp core) ∧ (s.coreUp core).coreOn core = true ∧
    (∀ c, (s.coreUp core).sharedOn c = s.sharedOn c) ∧
    (s.parts = [] → ∀ a, cmBase core ≤ a → a < cmBase core + 0x80000 → (s.coreUp core).byte a = 0) := by
  unfold State.coreUp
  extract_lets waiting u v w x
  have hz : Touches [.sram, .ecc] s (s.zeroFill (cmBase core) 0x80000) := State.zeroFill_touches ..
  have hbyte (a : Nat) := s.byte_zeroFill (cmBase core) 0x80000 a
  have hu : u = (s.zeroFill (cmBase core) 0x80000).regsLost .core core := rfl
  generalize s.zeroFill (cmBase core) 0x80000 = z at hz hbyte hu
  have hl : Touches [.regs] z u := hu ▸ z.regsLost_touches .core core
  have hdom (f : Fld) (hf : f = .CPT_DOM_CORE ∨ f = .CPT_DOM_SHARED) (i : Nat) : u.getF f i = z.getF f i :=
    hu ▸ State.regsLost_getF i (lostRegs_core_dom hf)
  have hv : Within ⟨[.regs], [.STP_STAT_STATE]⟩ u v := Within.ite _ (State.setF_within ..) (Within.refl _ _)
  have hw : Within ⟨[.regs], [.CPT_DOM_CORE]⟩ v w := State.setF_within ..
  have hon : w.getF .CPT_DOM_CORE (core / 8) = withBit (v.getF .CPT_DOM_CORE (core / 8)) (core % 8) true % 2 ^ 8 := State.getF_setF_same ..
  have hx : Within State.trackerStartWrites w x := Within.foldl _ (fun t e => Within.foldl _ (fun y r => y.trackerStart_within _ r) _ _) _ _
  clear_value u v w x
  have hcal := x.calOnPower_within core
  generalize x.calOnPower core = y at hcal
  have hr := y.rewriteDescs_within core
  have hparts : y.parts = s.parts := (show _ = x.parts from hcal.touch.same .parts).trans ((show _ = w.parts from hx.touch.same .parts).trans
    ((show _ = v.parts from hw.touch.same .parts).trans ((show _ = u.parts from hv.touch.same .parts).trans
      ((show _ = z.parts from hl.same .parts).trans (hz.same .parts)))))
  have hsram : y.sram = z.sram := (show _ = x.sram from hcal.touch.same .sram).trans ((show _ = w.sram from hx.touch.same .sram).trans
    ((show _ = v.sram from hw.touch.same .sram).trans ((show _ = u.sram from hv.touch.same .sram).trans (hl.same .sram))))
  refine ⟨hz.mono.trans (hl.mono.trans (hv.touch.mono.trans (hw.touch.mono.trans (hx.touch.mono.trans (hcal.touch.mono.trans hr.touch.mono))))),
    ?_, fun c => ?_, fun hs a hlo hhi => ?_⟩
  · unfold State.coreOn
    have hend : (y.rewriteDescs core).getF .CPT_DOM_CORE (core / 8) = w.getF .CPT_DOM_CORE (core / 8) :=
      (hr.getF _ _).trans ((hcal.getF _ _).trans (hx.getF _ _))
    rw [hend, hon, Nat.testBit_mod_two_pow, testBit_withBit_same, decide_eq_true (Nat.mod_lt core (by decide : 8 > 0))]
    rfl
  · unfold State.sharedOn State.bit
    have hend : (y.rewriteDescs core).getF .CPT_DOM_SHARED c = s.getF .CPT_DOM_SHARED c :=
      (hr.getF _ _).trans ((hcal.getF _ _).trans ((hx.getF _ _).trans ((hw.getF _ _).trans ((hv.getF _ _).trans
        ((hdom _ (.inr rfl) _).trans (hz.getF _ _))))))
    rw [hend]
  · rw [State.rewriteDescs_unloaded (hparts.trans hs)]
    have hy : y.byte a = z.byte a := by
      unfold State.byte
      rw [hsram]
    rw [hy, hbyte, if_pos ⟨hlo, hhi⟩]

theorem domainSwitchOn_shared {now : Nat} {cl : Cluster} {s : State} (hneed : (s.advance now).needShared cl.val = true)
    (hoff : s.sharedOn cl.val = false) (hok : (s.advance now).inrushOk cl.val = true) :
    ∃ t, exec (.domainSwitchOn now (.shared cl)) s = .next t ∧ t.sharedOn cl.val = true ∧ t.cells = s.cells ∧
      (s.parts = [] → (∀ a, kmBase cl.val ≤ a → a < kmBase cl.val + 0x400000 → t.byte a = 0) ∧
        KeepsBytes s t (fun a => decide (kmBase cl.val ≤ a ∧ a < kmBase cl.val + 0x400000))) := by
  have hoff' : (s.advance now).sharedOn cl.val = false := hoff
  have hrow : exec (.domainSwitchOn now (.shared cl)) s = .next (((s.advance now).switched cl.val).sharedUp cl.val) :=
    if_pos (by rw [hneed, hoff', hok]; decide)
  have hsw := (s.advance now).switched_within cl.val
  generalize (s.advance now).switched cl.val = u at hrow hsw
  obtain ⟨hw, hon, -, hbyte⟩ := u.sharedUp_spec cl.val
  have hparts : u.parts = s.parts := hsw.touch.same .parts
  have hub (a : Nat) : u.byte a = s.byte a := by
    unfold State.byte
    rw [show u.sram = s.sram from hsw.touch.same .sram]
  refine ⟨_, hrow, hon, (show _ = u.cells from hw.same .cells).trans (hsw.touch.same .cells), fun hs => ⟨fun a hlo hhi => ?_, fun a ha => ?_⟩⟩
  · rw [hbyte (hparts.trans hs), if_pos ⟨hlo, hhi⟩]
  · rw [hbyte (hparts.trans hs), if_neg (of_decide_eq_false ha), hub]

theorem coreIx_div (cl : Cluster) (co : Core) : coreIx cl co / 8 = cl.val := by
  unfold coreIx
  omega

theorem domainSwitchOn_core {now : Nat} {cl : Cluster} {co : Core} {s : State} (hneed : (s.advance now).needCore (coreIx cl co) = true)
    (hoff : s.coreOn (coreIx cl co) = false) (hok : (s.advance now).inrushOk cl.val = true) :
    ∃ t, exec (.domainSwitchOn now (.core cl co)) s = .next t ∧ t.coreOn (coreIx cl co) = true ∧ t.sharedOn cl.val = true ∧
      t.cells = s.cells ∧
      (s.parts = [] → ∀ a, cmBase (coreIx cl co) ≤ a → a < cmBase (coreIx cl co) + 0x80000 → t.byte a = 0) := by
  have hoff' : (s.advance now).coreOn (coreIx cl co) = false := hoff
  have hrow : exec (.domainSwitchOn now (.core cl co)) s = .next (((s.advance now).switched cl.val).coreOnNow (coreIx cl co)) :=
    if_pos (by rw [hneed, hoff', hok]; decide)
  have hsw := (s.advance now).switched_within cl.val
  have hswoff : ((s.advance now).switched cl.val).coreOn (coreIx cl co) = false := by
    unfold State.coreOn
    rw [hsw.getF _ _]
    exact hoff
  generalize (s.advance now).switched cl.val = u at hrow hsw hswoff
  have hshared : ∃ v, (if u.sharedOn cl.val then u else u.sharedUp cl.val) = v ∧ Touches [.regs, .sram, .ecc, .shards] u v ∧
      v.sharedOn cl.val = true ∧ v.coreOn (coreIx cl co) = false := by
    refine ⟨_, rfl, ?_⟩
    split
    next h => exact ⟨Touches.refl _ _, h, hswoff⟩
    · obtain ⟨hw, hon, hcore, -⟩ := u.sharedUp_spec cl.val
      exact ⟨hw, hon, (hcore _).trans hswoff⟩
  obtain ⟨v, hv, hw, hon, hcoff⟩ := hshared
  have hnow : u.coreOnNow (coreIx cl co) = v.coreUp (coreIx cl co) := by
    unfold State.coreOnNow
    rw [coreIx_div, hv]
    exact if_neg (Bool.eq_false_iff.mp hcoff)
  rw [hnow] at hrow
  obtain ⟨hup, hcon, hkeep, hbyte⟩ := v.coreUp_spec (coreIx cl co)
  refine ⟨_, hrow, hcon, (hkeep _).trans hon, ?_, fun hs => hbyte ?_⟩
  · exact (show _ = v.cells from hup.same .cells).trans ((show _ = u.cells from hw.same .cells).trans (hsw.touch.same .cells))
  · exact (show _ = u.parts from hw.same .parts).trans ((show _ = s.parts from hsw.touch.same .parts).trans hs)

theorem domainSwitchOff_core {now : Nat} {cl : Cluster} {co : Core} {s : State} (hon : s.coreOn (coreIx cl co) = true)
    (htiles : s.coreTiles (coreIx cl co) = []) (hneed : (s.advance now).needCore (coreIx cl co) = false) :
    ∃ t, exec (.domainSwitchOff now (.core cl co)) s = .next t ∧ t.coreOn (coreIx cl co) = false ∧ t.cells = s.cells := by
  have hon' : (s.advance now).coreOn (coreIx cl co) = true := hon
  have htiles' : (s.advance now).coreTiles (coreIx cl co) = [] := htiles
  have hrow : exec (.domainSwitchOff now (.core cl co)) s = .next ((s.advance now).coreOff (coreIx cl co)) :=
    if_pos (by rw [hneed, hon', htiles']; decide)
  obtain ⟨u, hu, heq⟩ := (s.advance now).coreOff_eq (coreIx cl co)
  have hw := (s.advance now).coreOff_within (coreIx cl co)
  refine ⟨_, hrow, ?_, hw.touch.same .cells⟩
  unfold State.coreOn
  rw [heq, State.getF_setF_same, show Fld.width .CPT_DOM_CORE = 8 from rfl, Nat.testBit_mod_two_pow, testBit_withBit_false, Bool.and_false]

theorem domainSwitchOff_shared {now : Nat} {cl : Cluster} {s : State} (hon : s.sharedOn cl.val = true)
    (hneed : (s.advance now).needShared cl.val = false) :
    ∃ t, exec (.domainSwitchOff now (.shared cl)) s = .next t ∧ t.sharedOn cl.val = false ∧ t.cells = s.cells := by
  have hon' : (s.advance now).sharedOn cl.val = true := hon
  have hrow : exec (.domainSwitchOff now (.shared cl)) s = .next ((s.advance now).sharedOff cl.val) := if_pos (by rw [hneed, hon']; decide)
  obtain ⟨u, hu, heq⟩ := (s.advance now).sharedOff_eq cl.val
  have hw := (s.advance now).sharedOff_within cl.val
  refine ⟨_, hrow, ?_, hw.touch.same .cells⟩
  unfold State.sharedOn State.bit
  rw [heq, State.getF_setF_same]
  rfl

/-! The domains of the die. -/

/-- What switching a domain of the die on may write beside the domain's bit. -/
def State.dieWakeWrites : Writes := ⟨State.dieUpWrites.parts, State.dieUpWrites.flds.filter (· != .PWR_DIEDOM_ON)⟩

theorem State.dieUp_afterSet (s : State) (b : Nat) : Within State.dieWakeWrites (s.setDie b true) (s.dieUp b) := by
  unfold State.dieUp
  extract_lets u v isHost' w
  have hv : Within State.dieWakeWrites u v := Within.foldl _ (fun _ _ => Within.ite _ ((State.setF_within ..).mono) (Within.refl _ _)) _ _
  have hw : Within State.dieWakeWrites u w := (Within.update [.dac] rfl).mono
  split
  · exact (State.deliverWakes_within ..).mono
  · exact (State.deliverWakes_within ..).after hv
  · exact (State.dacPassage_within ..).after hw
  · exact (State.windowsDrop_within ..).mono
  · exact Within.refl _ _

theorem State.dieOff_bit (s : State) (b : Nat) : (s.dieOff b).dieOn b = false := by
  unfold State.dieOff
  extract_lets u
  unfold State.setDie
  extract_lets v
  have hv : v.getF .PWR_DIEDOM_ON 0 = withBit (u.getF .PWR_DIEDOM_ON 0) b false % 2 ^ 6 := State.getF_setF_same ..
  have hpll := v.setPll_within (v.getF .PWR_DIEDOM_ON 0 != 0 && 5 ≤ v.getF .GCTL_START_STEP 0)
  unfold State.dieOn
  rw [hpll.getF _ _, hv, Nat.testBit_mod_two_pow, testBit_withBit_false, Bool.and_false]

theorem dieBit_lt {d : Domain} {b : Nat} (h : dieBit d = some b) : b < 6 := by
  unfold dieBit at h
  split at h <;> simp at h <;> omega

theorem exec_domainSwitchOn_die {now : Nat} {d : Domain} {b : Nat} {s : State} (hd : dieBit d = some b) :
    exec (.domainSwitchOn now d) s =
      if (s.advance now).needDie b && !((s.advance now).dieOn b) then .next ((s.advance now).dieUp b) else .next (s.advance now) := by
  show execDomainSwitchOn now d s = _
  unfold execDomainSwitchOn
  extract_lets u
  cases d with
  | core cl co => cases hd
  | shared cl => cases hd
  | _ => 
    dsimp only
    rw [hd]

theorem exec_domainSwitchOff_die {now : Nat} {d : Domain} {b : Nat} {s : State} (hd : dieBit d = some b) :
    exec (.domainSwitchOff now d) s =
      if !((s.advance now).needDie b) && (s.advance now).dieOn b then .next ((s.advance now).dieOff b) else .next (s.advance now) := by
  show execDomainSwitchOff now d s = _
  unfold execDomainSwitchOff
  extract_lets u
  cases d with
  | core cl co => cases hd
  | shared cl => cases hd
  | _ => 
    dsimp only
    rw [hd]

theorem domainSwitchOn_die {now : Nat} {d : Domain} {b : Nat} {s : State} (hd : dieBit d = some b) (hoff : s.dieOn b = false)
    (hneed : (s.advance now).needDie b = true) :
    ∃ t, exec (.domainSwitchOn now d) s = .next t ∧ t.dieOn b = true ∧ KeepsBytes s t nowhere ∧ t.cells = s.cells := by
  have hoff' : (s.advance now).dieOn b = false := hoff
  have hrow := exec_domainSwitchOn_die (now := now) (s := s) hd
  rw [hneed, hoff', if_pos (by decide)] at hrow
  have hw := (s.advance now).dieUp_within b
  refine ⟨_, hrow, ?_, .of_sram_eq (show _ = (s.advance now).sram from hw.touch.same .sram) _, hw.touch.same .cells⟩
  obtain ⟨hon, -⟩ := (s.advance now).dieOn_setDie (dieBit_lt hd)
  unfold State.dieOn at hon ⊢
  rw [((s.advance now).dieUp_afterSet b).getF _ _]
  exact hon

theorem domainSwitchOff_die {now : Nat} {d : Domain} {b : Nat} {s : State} (hd : dieBit d = some b) (hon : s.dieOn b = true)
    (hneed : (s.advance now).needDie b = false) :
    ∃ t, exec (.domainSwitchOff now d) s = .next t ∧ t.dieOn b = false ∧ t.cells = s.cells ∧ (b ≠ 1 → KeepsBytes s t nowhere) := by
  have hon' : (s.advance now).dieOn b = true := hon
  have hrow := exec_domainSwitchOff_die (now := now) (s := s) hd
  rw [hneed, hon', if_pos (by decide)] at hrow
  have hw := (s.advance now).dieOff_within b
  refine ⟨_, hrow, State.dieOff_bit .., hw.touch.same .cells, fun hb => ?_⟩
  have hset : (s.advance now).dieOff b = (s.advance now).setDie b false := by
    unfold State.dieOff
    extract_lets u
    exact congrArg (fun t : State => t.setDie b false) (if_neg hb)
  rw [hset]
  exact .of_sram_eq (show _ = (s.advance now).sram from ((s.advance now).setDie_within b false).touch.same .sram) _

/-- Settles O40: what comes on reads its bit and its zeroed memory, which nothing rewrites without a loaded partition. -/
theorem domainsSwitch : Obligations.DomainsSwitch := by
  unfold Obligations.DomainsSwitch
  exact ⟨fun _ _ _ hneed hoff hok => domainSwitchOn_shared hneed hoff hok,
    fun _ _ _ _ => fun hneed hoff hok => domainSwitchOn_core hneed hoff hok,
    fun _ _ _ _ => fun hon htiles hneed => domainSwitchOff_core hon htiles hneed,
    fun _ _ _ hon hneed => domainSwitchOff_shared hon hneed,
    fun _ _ _ _ hd => ⟨domainSwitchOn_die hd, domainSwitchOff_die hd⟩, fun _ _ _ => ⟨rfl, rfl⟩⟩

end Sys2Proof.Machine
end

section
/-!
REFUTATION. A queue that holds another owner's job (R250, O50).
-/

set_option Elab.async false

namespace Sys2Proof.Machine
open Sys2Proof

/-! ### A queue that holds another owner's job (R250) -/

/-- An import of a key for an owner, without a tag. -/
def keyJob (owner : Nat) : Job := Job.blank .importKey owner none

/-- The loader's domain is on, the physical function's queue holds a job of tenant 7, and two jobs wait in that tenant's own
queue; its loader-time quota is 0, so its bucket is at 0. -/
def strayState : State := { State.reset with
  regs := [(fkey .PWR_DIEDOM_ON 0, 8)]
  jobs := [(0, [keyJob 7]), (7, [keyJob 7, keyJob 7])] }

/-- Beaver 0 takes the stray job; what is left in tenant 7's queue comes to its head and completes with QUOTA. -/
def strayEnd : State := ((((({ strayState.unclean with turn := 8 } : State).setJobQ 7 [keyJob 7]).setBeaver 0
  (some (Beaver.of (keyJob 7) 2 0))).emit (.hostRead 7 0 376)).setJobQ 7 [])

theorem strayState_nextJob : (strayState.advance 0).nextJob = some (keyJob 7) := by decide

theorem strayState_starts : exec (.loaderJobStart 0 0 []) strayState = .next strayEnd := by rfl

/-- Refutes O50: a job that starts is taken out of its owner's queue, but what then comes to the head of that queue completes with
QUOTA when the owner's bucket is at or below 0 (R250). The statement has the rest of the queue stay; that the owner's bucket is above
0 it does not say, and `State.nextJob` looks at the bucket of the queue's owner, not of the job's. -/
theorem not_loaderWorks : ¬ Obligations.LoaderWorks := by
  unfold Obligations.LoaderWorks
  rintro ⟨⟨hstart, -⟩, -⟩
  obtain ⟨hkey, -⟩ := hstart 0 0 [] strayState (keyJob 7) (by decide) (by decide) strayState_nextJob
  obtain ⟨t, x, hrow, -, -, -, hqueue, -⟩ := hkey rfl
  have ht : t = strayEnd := (Host.Outcome.next.inj (strayState_starts.symm.trans hrow)).symm
  rw [ht] at hqueue
  exact absurd hqueue (by decide)

end Sys2Proof.Machine
end

section
/-!
PROOF. Epoch boundaries, edges of sync inputs, and the setup of ports (R275 to R287, O30).
-/

set_option Elab.async false

namespace Sys2Proof.Machine
open Sys2Proof

/-! ### What the firing of a context leaves of another (R284 to R287) -/

/-- Two states of a context that differ only in what a trigger, a reclaim and its job change: HOLD, its queue, and a deadline that
is taken away. -/
structure Context.Steady (x y : Context) : Prop where
  state : y.state = x.state
  src : y.src = x.src
  bound : y.bound = x.bound
  len : y.len = x.len
  sync : y.sync = x.sync
  epoch : y.epoch = x.epoch
  held : y.held = x.held
  ended : y.ended = x.ended
  slip : y.slip = x.slip
  deadline : x.deadline = none → y.deadline = none

theorem Context.Steady.refl (x : Context) : Context.Steady x x := ⟨rfl, rfl, rfl, rfl, rfl, rfl, rfl, rfl, rfl, id⟩

theorem Context.Steady.trans {x y z : Context} (h : Context.Steady x y) (k : Context.Steady y z) : Context.Steady x z :=
  ⟨k.state.trans h.state, k.src.trans h.src, k.bound.trans h.bound, k.len.trans h.len, k.sync.trans h.sync, k.epoch.trans h.epoch,
    k.held.trans h.held, k.ended.trans h.ended, k.slip.trans h.slip, fun hx => k.deadline (h.deadline hx)⟩

theorem Context.Steady.of_eq {x y : Context} (h : y = x) : Context.Steady x y := h ▸ .refl x

theorem Context.Steady.inWindow {x y : Context} (h : Context.Steady x y) (e : Nat) : y.inWindow e = x.inWindow e := by
  unfold Context.inWindow Context.halfWindow
  rw [h.src, h.bound, h.sync, h.len]

/-- A context is steady, and so are its counters and the sources. -/
structure SteadyAt (c : Nat) (s t : State) : Prop where
  ctx : Context.Steady (s.ctx c) (t.ctx c)
  time : t.time = s.time
  pllOff : t.pllOff = s.pllOff
  base : t.base = s.base
  ports : t.ports = s.ports
  missed : t.getF .POS_CTX_STAT_MISSED c = s.getF .POS_CTX_STAT_MISSED c
  outwin : t.getF .POS_CTX_STAT_OUTWIN c = s.getF .POS_CTX_STAT_OUTWIN c

theorem SteadyAt.refl (c : Nat) (s : State) : SteadyAt c s s := ⟨.refl _, rfl, rfl, rfl, rfl, rfl, rfl⟩

theorem SteadyAt.trans {c : Nat} {s t u : State} (h : SteadyAt c s t) (k : SteadyAt c t u) : SteadyAt c s u :=
  ⟨h.ctx.trans k.ctx, k.time.trans h.time, k.pllOff.trans h.pllOff, k.base.trans h.base, k.ports.trans h.ports,
    k.missed.trans h.missed, k.outwin.trans h.outwin⟩

theorem SteadyAt.ite {c : Nat} {s t u : State} {p : Prop} [Decidable p] (ht : SteadyAt c s t) (hu : SteadyAt c s u) :
    SteadyAt c s (if p then t else u) := by
  split
  · exact ht
  · exact hu

theorem SteadyAt.source {c : Nat} {s t : State} (h : SteadyAt c s t) (src : Nat) : t.source src = s.source src := by
  have hport (p : Nat) : t.port p = s.port p := by
    unfold State.port
    rw [h.ports]
  unfold State.source State.clock
  rw [h.time, h.pllOff, h.base, hport]

theorem SteadyAt.atBound {c : Nat} {s t : State} (h : SteadyAt c s t) : t.atBound c = s.atBound c := by
  unfold State.atBound
  extract_lets y x
  have hxy : Context.Steady x y := h.ctx
  rw [hxy.state, hxy.held, hxy.src, hxy.bound, h.source]

theorem SteadyAt.windowEnd {c : Nat} {s t : State} (h : SteadyAt c s t) : t.windowEnd c = s.windowEnd c := by
  unfold State.windowEnd
  extract_lets y b x d
  have hxy : Context.Steady x y := h.ctx
  have hb : b = d := by
    unfold b d Context.halfWindow
    rw [hxy.src, hxy.bound, hxy.sync, hxy.len]
  rw [hxy.state, hxy.sync, hxy.ended, hxy.src, h.source, h.source, h.time, hb]

/-- The parts that a step which is steady for every context may touch, beside the registers of the contexts' counters. -/
def steadyWrites : Writes := ⟨State.fireBoundaryWrites.parts.filter (· != .ctxs), .POS_SYNC_CNT_COUNT :: State.fireBoundaryWrites.flds⟩

theorem SteadyAt.of_within {c : Nat} {s t : State} (h : Within steadyWrites s t) : SteadyAt c s t :=
  ⟨.of_eq (h.touch.ctx c), h.touch.same .time, h.touch.same .pllOff, h.touch.same .base, h.touch.same .ports, h.getF _ _, h.getF _ _⟩

theorem SteadyAt.setCtx {c k : Nat} {s : State} {x : Context} (h : c = k → Context.Steady (s.ctx c) x) : SteadyAt c s (s.setCtx k x) := by
  have hw : Within ⟨[.ctxs], []⟩ s (s.setCtx k x) := State.setCtx_within ..
  refine ⟨?_, hw.touch.same .time, hw.touch.same .pllOff, hw.touch.same .base, hw.touch.same .ports, hw.getF _ _, hw.getF _ _⟩
  by_cases hk : c = k
  · rw [← hk, State.ctx_setCtx_same]
    exact h hk
  · exact .of_eq (s.ctx_setCtx_ne k x (Ne.symm hk))

theorem SteadyAt.setF {c k : Nat} {s : State} (f : Fld) (hk : c ≠ k) (v : Nat) : SteadyAt c s (s.setF f k v) :=
  ⟨.refl _, rfl, rfl, rfl, rfl, State.getF_setF_ne s v (fun h => hk h.2.symm), State.getF_setF_ne s v (fun h => hk h.2.symm)⟩

theorem SteadyAt.foldl {α : Type} {c : Nat} {g : State → α → State} (hg : ∀ s a, SteadyAt c s (g s a)) (l : List α) (s : State) :
    SteadyAt c s (l.foldl g s) := by
  induction l generalizing s with
  | nil => exact .refl c s
  | cons a l ih => exact (hg s a).trans (ih _)

theorem State.trgFire_steady (s : State) (m c : Nat) : SteadyAt c s (s.trgFire m) := by
  unfold State.trgFire
  extract_lets target period u p v k
  have hu : Within ⟨[.regs, .trgAt], [.POS_TRG_STAT_FIRES]⟩ s u := (State.addHold_within ..).after ((Within.update [.trgAt] rfl).mono)
  have hv : Within State.trgFireWrites u v := by
    unfold v
    refine Within.ite _ ((State.setF_within ..).mono) ((State.setF_within ..).after ((State.setF_within ..).mono))
  have hvc : Within ⟨[.regs, .trgAt], State.trgFireWrites.flds⟩ u v := by
    unfold v
    refine Within.ite _ ((State.setF_within ..).mono) ((State.setF_within ..).after ((State.setF_within ..).mono))
  have huv : SteadyAt c s v := (SteadyAt.of_within hu.mono).trans (.of_within hvc.mono)
  refine huv.trans (.ite (.setCtx fun h => ?_) (.ite (.of_within ((State.setF_within ..).mono)) (.of_within ((State.grant_within ..).mono))))
  rw [h]
  exact ⟨rfl, rfl, rfl, rfl, rfl, rfl, rfl, rfl, rfl, id⟩

theorem State.fireTriggers_steady (s : State) (src c : Nat) : SteadyAt c s (s.fireTriggers src) :=
  .foldl (fun t m => .ite (t.trgFire_steady m c) (.refl c t)) _ _

theorem State.countdown_steady (s : State) (k c : Nat) (f : Nat → Nat) : SteadyAt c s (s.countdown k f) := by
  unfold State.countdown
  extract_lets sts
  have hu : SteadyAt c s { s with stations := sts } := .of_within ((Within.update [.stations] rfl).mono)
  refine hu.trans (.setCtx fun h => ?_)
  rw [h]
  exact ⟨rfl, rfl, rfl, rfl, rfl, rfl, rfl, rfl, rfl, fun hd => by
    have hd' : (s.ctx k).deadline = none := hd
    dsimp only
    rw [hd']
    rfl⟩

theorem State.reclaimEnd_steady (s : State) (t c : Nat) : SteadyAt c s (s.reclaimEnd t) := by
  have hw := s.reclaimEnd_within t
  refine ⟨?_, hw.touch.same .time, hw.touch.same .pllOff, hw.touch.same .base, hw.touch.same .ports, hw.getF _ _, hw.getF _ _⟩
  unfold State.reclaimEnd
  extract_lets x sts cs
  split
  · exact .refl _
  · have hcs : Context.Steady (s.ctx c) (smapGet Context.closed cs c) := by
      unfold cs
      refine smapGet_map_rel (R := Context.Steady) (.refl _)
        (f := fun e => (e.1, if e.2.owner = t then { e.2 with deadline := none } else e.2)) (fun e => ⟨rfl, ?_⟩) s.ctxs c
      dsimp only
      split
      · exact ⟨rfl, rfl, rfl, rfl, rfl, rfl, rfl, rfl, rfl, fun _ => rfl⟩
      · exact .refl _
    exact hcs.trans (.of_eq rfl)

theorem State.reclaimDone_steady (s : State) (t c : Nat) : SteadyAt c s (s.reclaimDone t) := by
  unfold State.reclaimDone
  extract_lets x
  exact .ite ((SteadyAt.of_within ((State.service_within ..).mono)).trans (State.reclaimEnd_steady ..)) (.refl c s)

theorem State.closeCtx_steady (s : State) {k c : Nat} (hk : c ≠ k) : SteadyAt c s (s.closeCtx k) := by
  unfold State.closeCtx
  extract_lets u x y
  have hu : SteadyAt c s u := s.countdown_steady k c _
  refine .ite ((hu.trans (.setCtx (k := k) (x := y) fun h => absurd h hk)).trans (.of_within ?_)) hu
  exact (State.disarmTarget_within ..).after ((State.dropArmed_within ..).after ((State.failEpw_within ..).mono))

theorem State.cutBoundary_steady (s : State) {k c : Nat} (h : c ≠ k ∨ (s.ctx k).deadline = none) : SteadyAt c s (s.cutBoundary k) := by
  unfold State.cutBoundary
  extract_lets x f
  rcases h with h | h
  · refine .ite ?_ (.refl c s)
    exact ((SteadyAt.of_within ((State.setFn_within ..).mono)).trans (State.closeCtx_steady _ h)).trans (State.reclaimDone_steady ..)
  · rw [if_neg (by rw [show x.deadline = none from h]; simp)]
    exact .refl c s

/-- What follows the new epoch of a boundary is steady, for the context itself where no cut closes it. -/
theorem State.fireBoundary_after (s : State) (k v : Nat) {c : Nat} (h : c ≠ k ∨ (s.ctx k).deadline = none) :
    SteadyAt c (s.setCtx k ((s.ctx k).boundary v)) (s.fireBoundary k v) := by
  unfold State.fireBoundary
  extract_lets x u
  have hdead : (s.ctx k).deadline = none → (u.ctx k).deadline = none := fun hd =>
    (congrArg Context.deadline (State.ctx_setCtx_same ..)).trans hd
  rw [show s.setCtx k ((s.ctx k).boundary v) = u from rfl]
  clear_value u x
  have h1 (c : Nat) : SteadyAt c u (((u.releaseEpw k).applyArmed k).changeAll k x.epoch) :=
    .of_within ((State.changeAll_within ..).after ((State.applyArmed_within ..).after ((State.releaseEpw_within ..).mono)))
  generalize ((u.releaseEpw k).applyArmed k).changeAll k x.epoch = w at h1
  have h2 (c : Nat) : SteadyAt c u ((w.fireTriggers x.src).countdown k (fun n => n - 1)) :=
    (h1 c).trans ((w.fireTriggers_steady x.src c).trans (State.countdown_steady ..))
  exact (h2 c).trans (State.cutBoundary_steady _ (h.imp id fun hd => (h2 k).ctx.deadline (hdead hd)))

theorem State.fireBoundary_steady (s : State) (k v : Nat) {c : Nat} (h : c ≠ k) : SteadyAt c s (s.fireBoundary k v) :=
  (SteadyAt.setCtx fun hk => absurd hk h).trans (s.fireBoundary_after k v (.inl h))

theorem State.fireMissed_steady (s : State) (k : Nat) (early : Bool) {c : Nat} (h : c ≠ k) : SteadyAt c s (s.fireMissed k early) := by
  unfold State.fireMissed
  extract_lets x m t y
  have ht : SteadyAt c s t := (SteadyAt.setF _ h _).trans (State.fireBoundary_steady _ k _ h)
  exact .ite ht (ht.trans (.setCtx fun hk => absurd hk h))

theorem State.fireDue_steady (s : State) (k : Nat) {c : Nat} (h : c ≠ k) : SteadyAt c s (s.fireDue k) := by
  unfold State.fireDue
  refine .ite (.ite (s.fireBoundary_steady k _ h) (.refl c s)) ?_
  split
  · exact s.fireMissed_steady k _ h
  · exact .refl c s

theorem State.syncJudge_steady (s : State) (k : Nat) {c : Nat} (h : c ≠ k) : SteadyAt c s (s.syncJudge k) := by
  unfold State.syncJudge
  extract_lets x e late u
  have hu : SteadyAt c s u := .ite (s.fireDue_steady k h) (.refl c s)
  refine .ite ((SteadyAt.setF _ h _).trans (.setCtx fun hk => absurd hk h)) ?_
  exact .ite (hu.trans (State.fireBoundary_steady _ k _ h)) (hu.trans (.setF _ h _))

/-! ### Boundaries (R284, R285) -/

/-- A boundary that no cut closes a context at: its epoch is the next, and the next boundary is its length further. -/
theorem State.fireBoundary_own (s : State) {c : Nat} (v : Nat) (hd : (s.ctx c).deadline = none) :
    Context.Steady ((s.ctx c).boundary v) ((s.fireBoundary c v).ctx c) := by
  have h := (s.fireBoundary_after c v (c := c) (.inr hd)).ctx
  rw [State.ctx_setCtx_same] at h
  exact h

theorem State.fireUpTo_own (s : State) (c : Nat) : ∃ u, SteadyAt c s u ∧ s.fireUpTo c = u.fireDue c := by
  refine ⟨(List.range c).foldl State.fireDue s, ?_, ?_⟩
  · exact List.foldlRecOn (motive := fun t => SteadyAt c s t) _ _ (.refl c s)
      (fun t ht k hk => ht.trans (t.fireDue_steady k (Nat.ne_of_gt (List.mem_range.mp hk))))
  · unfold State.fireUpTo
    rw [List.range_succ, List.foldl_append]
    rfl

/-- A boundary has fired that a context's record x tells of. -/
structure Fired (x y : Context) : Prop where
  epoch : y.epoch = (x.epoch + 1) % 4294967296
  bound : y.bound = addSrc x.src x.bound x.len
  state : y.state = x.state

theorem fireUpTo_fires {s : State} {c : Nat} (hb : s.atBound c = true) (hsync : (s.ctx c).sync = 0) (hd : (s.ctx c).deadline = none) :
    Fired (s.ctx c) ((s.fireUpTo c).ctx c) := by
  obtain ⟨u, hu, heq⟩ := s.fireUpTo_own c
  have hdue : u.fireDue c = u.fireBoundary c (u.ctx c).bound := by
    unfold State.fireDue
    rw [if_pos (hu.ctx.sync.trans hsync), if_pos (hu.atBound.trans hb)]
  have hown := u.fireBoundary_own (u.ctx c).bound (hu.ctx.deadline hd)
  rw [heq, hdue]
  exact ⟨hown.epoch.trans (congrArg (fun e => (e + 1) % 4294967296) hu.ctx.epoch),
    hown.bound.trans (show addSrc (u.ctx c).src (u.ctx c).bound (u.ctx c).len = _ by rw [hu.ctx.src, hu.ctx.bound, hu.ctx.len]),
    hown.state.trans hu.ctx.state⟩

theorem State.fireMissed_eq (s : State) (c : Nat) (early : Bool) :
    s.fireMissed c early = (s.addHold .POS_CTX_STAT_MISSED c 1).fireBoundary c (s.ctx c).bound ∨
      ∃ y, s.fireMissed c early = ((s.addHold .POS_CTX_STAT_MISSED c 1).fireBoundary c (s.ctx c).bound).setCtx c
        { ((s.addHold .POS_CTX_STAT_MISSED c 1).fireBoundary c (s.ctx c).bound).ctx c with slip := y } := by
  unfold State.fireMissed
  extract_lets x m t
  rw [show (s.addHold .POS_CTX_STAT_MISSED c 1).fireBoundary c (s.ctx c).bound = t from rfl]
  split
  · exact .inl rfl
  · exact .inr ⟨_, rfl⟩

theorem State.fireMissed_own (s : State) (c : Nat) (early : Bool) :
    ((s.ctx c).deadline = none → Context.Steady { (s.ctx c).boundary (s.ctx c).bound with slip := ((s.fireMissed c early).ctx c).slip }
      ((s.fireMissed c early).ctx c)) ∧
    (s.fireMissed c early).getF .POS_CTX_STAT_MISSED c =
      min (s.getF .POS_CTX_STAT_MISSED c + 1) (2 ^ Fld.POS_CTX_STAT_MISSED.width - 1) := by
  have hadd : Within ⟨[.regs], [.POS_CTX_STAT_MISSED]⟩ s (s.addHold .POS_CTX_STAT_MISSED c 1) := State.addHold_within ..
  have hcount := s.getF_addHold .POS_CTX_STAT_MISSED c 1
  have hx : (s.addHold .POS_CTX_STAT_MISSED c 1).ctx c = s.ctx c := hadd.touch.ctx c
  have heq := s.fireMissed_eq c early
  generalize s.addHold .POS_CTX_STAT_MISSED c 1 = a at hcount hx heq
  have hown : (s.ctx c).deadline = none → Context.Steady ((s.ctx c).boundary (s.ctx c).bound) ((a.fireBoundary c (s.ctx c).bound).ctx c) :=
    fun hd => by
      have h := a.fireBoundary_own (s.ctx c).bound (by rw [hx]; exact hd)
      rw [hx] at h
      exact h
  have hmiss := (a.fireBoundary_within c (s.ctx c).bound).getF .POS_CTX_STAT_MISSED c
  rw [hcount] at hmiss
  generalize a.fireBoundary c (s.ctx c).bound = t at heq hown hmiss
  generalize s.fireMissed c early = u at heq
  rcases heq with heq | ⟨y, heq⟩
  · refine ⟨fun hd => ?_, by rw [heq]; exact hmiss⟩
    have h := hown hd
    rw [heq]
    exact ⟨h.state, h.src, h.bound, h.len, h.sync, h.epoch, h.held, h.ended, rfl, h.deadline⟩
  · refine ⟨fun hd => ?_, by rw [heq]; exact ((State.setCtx_within ..).getF .POS_CTX_STAT_MISSED c).trans hmiss⟩
    have h := hown hd
    rw [heq, State.ctx_setCtx_same]
    exact ⟨h.state, h.src, h.bound, h.len, h.sync, h.epoch, h.held, h.ended, rfl, h.deadline⟩

theorem fireUpTo_misses {s : State} {c : Nat} (hend : s.windowEnd c ≠ none) :
    ((s.ctx c).deadline = none → Fired (s.ctx c) ((s.fireUpTo c).ctx c)) ∧
      (s.fireUpTo c).getF .POS_CTX_STAT_MISSED c =
        min (s.getF .POS_CTX_STAT_MISSED c + 1) (2 ^ Fld.POS_CTX_STAT_MISSED.width - 1) := by
  obtain ⟨u, hu, heq⟩ := s.fireUpTo_own c
  obtain ⟨early, hearly⟩ := Option.ne_none_iff_exists'.mp hend
  have hsync : (u.ctx c).sync ≠ 0 := by
    rw [hu.ctx.sync]
    intro h0
    refine hend ?_
    unfold State.windowEnd
    extract_lets x b
    rw [if_pos (by rw [show x.sync = 0 from h0]; simp)]
  have hdue : u.fireDue c = u.fireMissed c early := by
    unfold State.fireDue
    rw [if_neg hsync, hu.windowEnd, hearly]
  obtain ⟨hown, hmiss⟩ := u.fireMissed_own c early
  rw [heq, hdue]
  refine ⟨fun hd => ?_, hmiss.trans (by rw [hu.missed])⟩
  have h := hown (hu.ctx.deadline hd)
  exact ⟨h.epoch.trans (congrArg (fun e => (e + 1) % 4294967296) hu.ctx.epoch),
    h.bound.trans (show addSrc (u.ctx c).src (u.ctx c).bound (u.ctx c).len = _ by rw [hu.ctx.src, hu.ctx.bound, hu.ctx.len]),
    h.state.trans hu.ctx.state⟩

/-! ### The edges of a sync input (R276, R285) -/

/-- A context judges an edge that comes neither late nor after its window: in its window the boundary fires at the edge, outside it the
edge is counted. -/
theorem State.syncJudge_own {s : State} {c : Nat} (hstate : (s.ctx c).state = 1) (hslip : (s.ctx c).slip = none)
    (hend : s.windowEnd c ≠ some true) :
    s.syncJudge c = if (s.ctx c).inWindow (s.source (s.ctx c).src) = true then s.fireBoundary c (s.source (s.ctx c).src)
      else s.addHold .POS_CTX_STAT_OUTWIN c 1 := by
  unfold State.syncJudge
  extract_lets x e late u
  have hlate : late = false := by
    unfold late
    rw [show x.slip = none from hslip]
  have hu : u = s := if_neg hend
  rw [hlate, hu, if_neg Bool.false_ne_true, hstate]
  exact if_congr (by simp [e, x]) rfl rfl

/-- The judging of one context of a sync input. -/
def State.judges (s : State) (n c : Nat) : State := if (s.ctx c).state = 1 && (s.ctx c).sync = n + 1 then s.syncJudge c else s

theorem State.judges_within (s : State) (n c : Nat) : Within State.syncJudgeWrites s (s.judges n c) :=
  Within.ite _ (State.syncJudge_within ..) (Within.refl _ _)

theorem State.judges_steady (s : State) (n k : Nat) {c : Nat} (h : c ≠ k) : SteadyAt c s (s.judges n k) :=
  .ite (s.syncJudge_steady k h) (.refl c s)

theorem foldl_judges_own {s : State} {n c : Nat} (hc : c < 128) (hstate : (s.ctx c).state = 1) (hsync : (s.ctx c).sync = n + 1)
    (hslip : (s.ctx c).slip = none) (hend : s.windowEnd c ≠ some true) :
    ((s.ctx c).inWindow (s.source (s.ctx c).src) = true → (s.ctx c).deadline = none →
      (((List.range 128).foldl (fun t k => t.judges n k) s).ctx c).epoch = ((s.ctx c).epoch + 1) % 4294967296 ∧
      (((List.range 128).foldl (fun t k => t.judges n k) s).ctx c).bound = addSrc (s.ctx c).src (s.source (s.ctx c).src) (s.ctx c).len) ∧
    ((s.ctx c).inWindow (s.source (s.ctx c).src) = false →
      (((List.range 128).foldl (fun t k => t.judges n k) s).ctx c).epoch = (s.ctx c).epoch ∧
      ((List.range 128).foldl (fun t k => t.judges n k) s).getF .POS_CTX_STAT_OUTWIN c =
        min (s.getF .POS_CTX_STAT_OUTWIN c + 1) (2 ^ Fld.POS_CTX_STAT_OUTWIN.width - 1)) := by
  obtain ⟨u, hu, hend'⟩ := foldl_at (K := SteadyAt c) (.refl c) (fun _ _ _ => SteadyAt.trans) (fun t k => t.judges n k) c
    (fun t k hk => t.judges_steady n k (Ne.symm hk)) List.nodup_range (List.mem_range.mpr hc) s
  generalize (List.range 128).foldl (fun t k => t.judges n k) s = t at hend'
  have hjudge : u.judges n c = if (u.ctx c).inWindow (u.source (u.ctx c).src) = true then u.fireBoundary c (u.source (u.ctx c).src)
      else u.addHold .POS_CTX_STAT_OUTWIN c 1 := by
    unfold State.judges
    rw [hu.ctx.state, hu.ctx.sync, hstate, hsync]
    refine (if_pos (by simp)).trans (State.syncJudge_own (hu.ctx.state.trans hstate) (hu.ctx.slip.trans hslip) ?_)
    rw [hu.windowEnd]
    exact hend
  rw [hu.ctx.src, hu.source, hu.ctx.inWindow] at hjudge
  refine ⟨fun hin hd => ?_, fun hout => ?_⟩
  · rw [hjudge, if_pos hin] at hend'
    have hown := (u.fireBoundary_own (s.source (s.ctx c).src) (hu.ctx.deadline hd)).trans hend'.ctx
    exact ⟨hown.epoch.trans (congrArg (fun e => (e + 1) % 4294967296) hu.ctx.epoch),
      hown.bound.trans (show addSrc (u.ctx c).src (s.source (s.ctx c).src) (u.ctx c).len = _ by rw [hu.ctx.src, hu.ctx.len])⟩
  · rw [hjudge, if_neg (Bool.eq_false_iff.mp hout)] at hend'
    have hadd : Within ⟨[.regs], [.POS_CTX_STAT_OUTWIN]⟩ u (u.addHold .POS_CTX_STAT_OUTWIN c 1) := State.addHold_within ..
    have hcount := u.getF_addHold .POS_CTX_STAT_OUTWIN c 1
    rw [hu.outwin] at hcount
    refine ⟨hend'.ctx.epoch.trans ?_, hend'.outwin.trans hcount⟩
    rw [hadd.touch.ctx]
    exact hu.ctx.epoch

theorem syncEdge_row {now : Nat} {n : Fin 2} {rise : Bool} {s : State}
    (hen : s.bit (if n.val = 0 then .POS_SYNCCFG_EN0 else .POS_SYNCCFG_EN1) 0 = true) (hio : s.wioDown = false)
    (hopen : filterOpen (s.getF (if n.val = 0 then Fld.POS_SYNCCFG_FILT0 else .POS_SYNCCFG_FILT1) 0) (max s.time now)
      (if smapGet 0 s.syncAt n.val = 0 then none else some (smapGet 0 s.syncAt n.val - 1)) = true) :
    exec (.syncEdge now ⟨n, rise⟩) s =
      if (rise != s.bit (if n.val = 0 then Fld.POS_SYNCCFG_FALL0 else .POS_SYNCCFG_FALL1) 0) = true then
        .next ((List.range 128).foldl (fun t c => t.judges n.val c) (({ s.advance now with
          syncAt := smapSet 0 s.syncAt n.val (max s.time now + 1) } : State).addWrap .POS_SYNC_CNT_COUNT n.val 1))
      else .next { s.advance now with syncAt := smapSet 0 s.syncAt n.val (max s.time now + 1) } := by
  refine if_pos ?_
  refine Bool.and_eq_true_iff.mpr ⟨Bool.and_eq_true_iff.mpr ⟨hen, ?_⟩, hopen⟩
  show (!s.wioDown) = true
  rw [hio]
  rfl

theorem syncEdge_active {now : Nat} {n : Fin 2} {rise : Bool} {s : State}
    (hen : s.bit (if n.val = 0 then .POS_SYNCCFG_EN0 else .POS_SYNCCFG_EN1) 0 = true) (hio : s.wioDown = false)
    (hopen : filterOpen (s.getF (if n.val = 0 then Fld.POS_SYNCCFG_FILT0 else .POS_SYNCCFG_FILT1) 0) (max s.time now)
      (if smapGet 0 s.syncAt n.val = 0 then none else some (smapGet 0 s.syncAt n.val - 1)) = true)
    (hactive : (rise != s.bit (if n.val = 0 then Fld.POS_SYNCCFG_FALL0 else .POS_SYNCCFG_FALL1) 0) = true) :
    ∃ t, exec (.syncEdge now ⟨n, rise⟩) s = .next t ∧
      t.getF .POS_SYNC_CNT_COUNT n.val = (s.getF .POS_SYNC_CNT_COUNT n.val + 1) % 4294967296 ∧
      ∀ c, c < 128 → (s.ctx c).state = 1 → (s.ctx c).sync = n.val + 1 → (s.ctx c).slip = none → (s.advance now).windowEnd c ≠ some true →
        ((s.ctx c).inWindow ((s.advance now).source (s.ctx c).src) = true → (s.ctx c).deadline = none →
          (t.ctx c).epoch = ((s.ctx c).epoch + 1) % 4294967296 ∧
          (t.ctx c).bound = addSrc (s.ctx c).src ((s.advance now).source (s.ctx c).src) (s.ctx c).len) ∧
        ((s.ctx c).inWindow ((s.advance now).source (s.ctx c).src) = false →
          (t.ctx c).epoch = (s.ctx c).epoch ∧ t.getF .POS_CTX_STAT_OUTWIN c =
            min (s.getF .POS_CTX_STAT_OUTWIN c + 1) (2 ^ Fld.POS_CTX_STAT_OUTWIN.width - 1)) := by
  have hrow := syncEdge_row (now := now) (rise := rise) hen hio hopen
  rw [if_pos hactive] at hrow
  have hsync : Within ⟨[.syncAt], []⟩ (s.advance now) { s.advance now with syncAt := smapSet 0 s.syncAt n.val (max s.time now + 1) } :=
    Within.update [.syncAt] rfl
  generalize ({ s.advance now with syncAt := smapSet 0 s.syncAt n.val (max s.time now + 1) } : State) = v at hrow hsync
  have hcount : (v.addWrap .POS_SYNC_CNT_COUNT n.val 1).getF .POS_SYNC_CNT_COUNT n.val = (s.getF .POS_SYNC_CNT_COUNT n.val + 1) % 4294967296 :=
    (v.getF_setF_same .POS_SYNC_CNT_COUNT n.val _).trans (by rw [hsync.getF _ _]; rfl)
  have hwrap : Within ⟨[.regs, .syncAt], [.POS_SYNC_CNT_COUNT]⟩ (s.advance now) (v.addWrap .POS_SYNC_CNT_COUNT n.val 1) :=
    (State.addWrap_within ..).after hsync.mono
  generalize v.addWrap .POS_SYNC_CNT_COUNT n.val 1 = u at hrow hcount hwrap
  have hfold : Within State.syncJudgeWrites u ((List.range 128).foldl (fun t c => t.judges n.val c) u) :=
    Within.foldl _ (fun t c => t.judges_within n.val c) _ _
  refine ⟨_, hrow, (hfold.getF _ _).trans hcount, fun c hc hstate hs hslip hend => ?_⟩
  have hst : SteadyAt c (s.advance now) u := ⟨.of_eq (hwrap.touch.ctx c), hwrap.touch.same .time, hwrap.touch.same .pllOff,
    hwrap.touch.same .base, hwrap.touch.same .ports, hwrap.getF _ _, hwrap.getF _ _⟩
  have hctx : u.ctx c = s.ctx c := hwrap.touch.ctx c
  have hout : u.getF .POS_CTX_STAT_OUTWIN c = s.getF .POS_CTX_STAT_OUTWIN c := hst.outwin
  have h := foldl_judges_own (s := u) (n := n.val) hc (by rw [hctx]; exact hstate) (by rw [hctx]; exact hs) (by rw [hctx]; exact hslip)
    (by rw [hst.windowEnd]; exact hend)
  rw [hctx, hst.source, hout] at h
  exact h

/-! ### The setup of ports and sync inputs (R275, R279, R280) -/

theorem Bool.toNat_mod_two (b : Bool) : b.toNat % 2 = b.toNat := Nat.mod_eq_of_lt (Bool.toNat_lt b)

/-- The fields of POS_CFG as a write stores them. -/
def State.portFields (s : State) (p w : Nat) : State :=
  ((((s.setB .POS_CFG_EN p (w.testBit 31)).setF .POS_CFG_MODE p (bits w 30 29)).setB .POS_CFG_INV p (w.testBit 28)).setB .POS_CFG_ZEN p
    (w.testBit 27)).setF .POS_CFG_FILT p (min (w % 256) 160)

theorem State.portFields_within (s : State) (p w : Nat) :
    Within ⟨[.regs], [.POS_CFG_EN, .POS_CFG_MODE, .POS_CFG_INV, .POS_CFG_ZEN, .POS_CFG_FILT]⟩ s (s.portFields p w) :=
  (State.setF_within ..).after ((State.setB_within ..).after ((State.setB_within ..).after ((State.setF_within ..).after
    ((State.setB_within ..).mono))))

theorem State.portFields_getF (s : State) (p w : Nat) : (s.portFields p w).getF .POS_CFG_EN p = (w.testBit 31).toNat ∧
    (s.portFields p w).getF .POS_CFG_MODE p = bits w 30 29 ∧ (s.portFields p w).getF .POS_CFG_INV p = (w.testBit 28).toNat ∧
    (s.portFields p w).getF .POS_CFG_ZEN p = (w.testBit 27).toNat ∧ (s.portFields p w).getF .POS_CFG_FILT p = min (w % 256) 160 := by
  have hbits : bits w 30 29 % 4 = bits w 30 29 := Nat.mod_eq_of_lt (bits_lt w 30 29)
  have hfilt : min (w % 256) 160 % 256 = min (w % 256) 160 := Nat.mod_eq_of_lt (by omega)
  unfold State.portFields
  simp [State.setB, State.getF_setF, Fld.width, Fld.info, hbits, hfilt, Bool.toNat_mod_two]

/-- A port that is enabled afresh counts from 0. -/
def State.portFresh (s : State) (p : Nat) : State :=
  ((s.setF .POS_ERRCNT_ILLEGAL p 0).setF .POS_ERRCNT_REJECT p 0).setPort p
    { ((s.setF .POS_ERRCNT_ILLEGAL p 0).setF .POS_ERRCNT_REJECT p 0).port p with pos := 0, trv := 0, edge := none, since := s.time }

theorem State.portFresh_within (s : State) (p : Nat) :
    Within ⟨[.regs, .ports], [.POS_ERRCNT_ILLEGAL, .POS_ERRCNT_REJECT]⟩ s (s.portFresh p) :=
  (State.setPort_within ..).after ((State.setF_within ..).after ((State.setF_within ..).mono))

theorem State.portFresh_spec (s : State) (p : Nat) : ((s.portFresh p).port p).pos = 0 ∧ ((s.portFresh p).port p).trv = 0 ∧
    (s.portFresh p).getF .POS_ERRCNT_ILLEGAL p = 0 ∧ (s.portFresh p).getF .POS_ERRCNT_REJECT p = 0 := by
  unfold State.portFresh
  have h1 : ((s.setF .POS_ERRCNT_ILLEGAL p 0).setF .POS_ERRCNT_REJECT p 0).getF .POS_ERRCNT_ILLEGAL p = 0 ∧
      ((s.setF .POS_ERRCNT_ILLEGAL p 0).setF .POS_ERRCNT_REJECT p 0).getF .POS_ERRCNT_REJECT p = 0 := by
    simp [State.getF_setF]
  generalize (s.setF .POS_ERRCNT_ILLEGAL p 0).setF .POS_ERRCNT_REJECT p 0 = u at h1
  have hport := u.port_setPort_same p { u.port p with pos := 0, trv := 0, edge := none, since := s.time }
  exact ⟨(congrArg Port.pos hport).trans rfl, (congrArg Port.trv hport).trans rfl, h1⟩

theorem posPortConfig_stores {now : Nat} {p : Fin 4} {v : Word} {s : State} (hused : s.portUsed p.val = false)
    (hmode : bits v.toNat 30 29 ≠ 3) : ∃ t, exec (.posPortConfig now p v) s = .next t ∧
      t.getF .POS_CFG_EN p.val = (v.toNat.testBit 31).toNat ∧ t.getF .POS_CFG_MODE p.val = bits v.toNat 30 29 ∧
      t.getF .POS_CFG_INV p.val = (v.toNat.testBit 28).toNat ∧ t.getF .POS_CFG_ZEN p.val = (v.toNat.testBit 27).toNat ∧
      t.getF .POS_CFG_FILT p.val = min (v.toNat % 256) 160 ∧
      (v.toNat.testBit 31 = true → s.bit .POS_CFG_EN p.val = false → (t.port p.val).pos = 0 ∧ (t.port p.val).trv = 0 ∧
        t.getF .POS_ERRCNT_ILLEGAL p.val = 0 ∧ t.getF .POS_ERRCNT_REJECT p.val = 0) ∧
      t = { s.advance now with regs := t.regs, ports := t.ports } := by
  have hused' : (s.advance now).portUsed p.val = false := hused
  have hrow : exec (.posPortConfig now p v) s = if (v.toNat.testBit 31 && !(s.bit .POS_CFG_EN p.val)) = true then
      .next (((s.advance now).portFields p.val v.toNat).portFresh p.val) else .next ((s.advance now).portFields p.val v.toNat) :=
    if_neg (by rw [hused']; simpa using hmode)
  have hw := (s.advance now).portFields_within p.val v.toNat
  obtain ⟨hen, hmod, hinv, hzen, hfilt⟩ := (s.advance now).portFields_getF p.val v.toNat
  generalize (s.advance now).portFields p.val v.toNat = u at hrow hw hen hmod hinv hzen hfilt
  split at hrow
  · have hf := u.portFresh_within p.val
    obtain hspec := u.portFresh_spec p.val
    generalize u.portFresh p.val = t at hrow hf hspec
    exact ⟨t, hrow, (hf.getF _ _).trans hen, (hf.getF _ _).trans hmod, (hf.getF _ _).trans hinv, (hf.getF _ _).trans hzen,
      (hf.getF _ _).trans hfilt, fun _ _ => hspec, (hw.touch.mono.trans hf.touch : Touches [.regs, .ports] _ _).eq_withParts⟩
  next hno =>
    refine ⟨u, hrow, hen, hmod, hinv, hzen, hfilt, fun h31 hoff => absurd (by rw [h31, hoff]; rfl) hno, ?_⟩
    exact (hw.touch.mono : Touches [.regs, .ports] _ _).eq_withParts

theorem posPortConfig_discards {now : Nat} {p : Fin 4} {v : Word} {s : State}
    (h : s.portUsed p.val = true ∨ bits v.toNat 30 29 = 3) : exec (.posPortConfig now p v) s = .next (s.advance now) := by
  have hused : (s.advance now).portUsed p.val = s.portUsed p.val := rfl
  refine if_pos ?_
  rw [hused]
  rcases h with h | h
  · simp [h]
  · simp [h]

/-- The fields of a sync input, unless a context uses it. -/
def State.syncFields (s : State) (used : Bool) (en fall filt : Fld) (e f : Bool) (x : Nat) : State :=
  if used then s else ((s.setB en 0 e).setB fall 0 f).setF filt 0 x

section SyncFields
variable (s : State) (used : Bool) {en fall filt : Fld} (e f : Bool) {x : Nat}

theorem State.syncFields_touches : Touches [.regs] s (s.syncFields used en fall filt e f x) :=
  Touches.ite _ (Touches.refl _ s) (Touches.of_withParts rfl)

theorem State.syncFields_keepsRegs {w : Fld → Nat → Bool} (hen : w en 0 = true) (hfall : w fall 0 = true) (hfilt : w filt 0 = true) :
    KeepsRegs s (s.syncFields used en fall filt e f x) w :=
  KeepsRegs.ite _ (KeepsRegs.refl s w) ((((KeepsRegs.refl s w).setF hen _).setF hfall _).setF hfilt _)

theorem State.syncFields_getF (hne : en ≠ fall ∧ en ≠ filt ∧ fall ≠ filt) (hen : en.width = 1) (hfall : fall.width = 1)
    (hx : x < 2 ^ filt.width) :
    (s.syncFields used en fall filt e f x).getF en 0 = (if used = true then s.getF en 0 else e.toNat) ∧
    (s.syncFields used en fall filt e f x).getF fall 0 = (if used = true then s.getF fall 0 else f.toNat) ∧
    (s.syncFields used en fall filt e f x).getF filt 0 = (if used = true then s.getF filt 0 else x) := by
  obtain ⟨h1, h2, h3⟩ := hne
  unfold State.syncFields
  cases used with
  | true => exact ⟨rfl, rfl, rfl⟩
  | false => simp [State.setB, State.getF_setF, hen, hfall, Nat.mod_eq_of_lt hx, Bool.toNat_mod_two, Ne.symm h1, Ne.symm h2, Ne.symm h3]

end SyncFields

theorem posSyncConfig_stores (now : Nat) (v : Word) (s : State) {used0 used1 : Bool}
    (h0 : s.ctxs.any (fun e => e.2.state == 1 && e.2.sync == 1) = used0) (h1 : s.ctxs.any (fun e => e.2.state == 1 && e.2.sync == 2) = used1) :
    ∃ t, exec (.posSyncConfig now v) s = .next t ∧
      t.getF .POS_SYNCCFG_EN0 0 = (if used0 = true then s.getF .POS_SYNCCFG_EN0 0 else (v.toNat.testBit 15).toNat) ∧
      t.getF .POS_SYNCCFG_FALL0 0 = (if used0 = true then s.getF .POS_SYNCCFG_FALL0 0 else (v.toNat.testBit 14).toNat) ∧
      t.getF .POS_SYNCCFG_FILT0 0 = (if used0 = true then s.getF .POS_SYNCCFG_FILT0 0 else min (v.toNat % 256) 160) ∧
      t.getF .POS_SYNCCFG_EN1 0 = (if used1 = true then s.getF .POS_SYNCCFG_EN1 0 else (v.toNat.testBit 31).toNat) ∧
      t.getF .POS_SYNCCFG_FALL1 0 = (if used1 = true then s.getF .POS_SYNCCFG_FALL1 0 else (v.toNat.testBit 30).toNat) ∧
      t.getF .POS_SYNCCFG_FILT1 0 = (if used1 = true then s.getF .POS_SYNCCFG_FILT1 0 else min (bits v.toNat 23 16) 160) ∧
      t = { s.advance now with regs := t.regs } ∧
      KeepsRegs s t (fun f _ => [Fld.POS_SYNCCFG_EN0, .POS_SYNCCFG_FALL0, .POS_SYNCCFG_FILT0, .POS_SYNCCFG_EN1,
        .POS_SYNCCFG_FALL1, .POS_SYNCCFG_FILT1].contains f) := by
  have hrow : exec (.posSyncConfig now v) s = .next (((s.advance now).syncFields used0 .POS_SYNCCFG_EN0 .POS_SYNCCFG_FALL0 .POS_SYNCCFG_FILT0
      (v.toNat.testBit 15) (v.toNat.testBit 14) (min (v.toNat % 256) 160)).syncFields used1 .POS_SYNCCFG_EN1 .POS_SYNCCFG_FALL1
      .POS_SYNCCFG_FILT1 (v.toNat.testBit 31) (v.toNat.testBit 30) (min (bits v.toNat 23 16) 160)) := by
    subst h0 h1
    rfl
  have ht0 := (s.advance now).syncFields_touches used0 (en := .POS_SYNCCFG_EN0) (fall := .POS_SYNCCFG_FALL0) (filt := .POS_SYNCCFG_FILT0)
    (v.toNat.testBit 15) (v.toNat.testBit 14) (x := min (v.toNat % 256) 160)
  have hs0 := (s.advance now).syncFields_keepsRegs used0 (en := .POS_SYNCCFG_EN0) (fall := .POS_SYNCCFG_FALL0) (filt := .POS_SYNCCFG_FILT0)
    (v.toNat.testBit 15) (v.toNat.testBit 14) (x := min (v.toNat % 256) 160)
    (w := fun f _ => [Fld.POS_SYNCCFG_EN0, .POS_SYNCCFG_FALL0, .POS_SYNCCFG_FILT0, .POS_SYNCCFG_EN1, .POS_SYNCCFG_FALL1,
      .POS_SYNCCFG_FILT1].contains f) rfl rfl rfl
  have hk0 := (s.advance now).syncFields_keepsRegs used0 (en := .POS_SYNCCFG_EN0) (fall := .POS_SYNCCFG_FALL0) (filt := .POS_SYNCCFG_FILT0)
    (v.toNat.testBit 15) (v.toNat.testBit 14) (x := min (v.toNat % 256) 160)
    (w := fun f _ => [Fld.POS_SYNCCFG_EN0, .POS_SYNCCFG_FALL0, .POS_SYNCCFG_FILT0].contains f) rfl rfl rfl
  obtain ⟨hen0, hfall0, hfilt0⟩ := (s.advance now).syncFields_getF used0 (en := .POS_SYNCCFG_EN0) (fall := .POS_SYNCCFG_FALL0)
    (filt := .POS_SYNCCFG_FILT0) (v.toNat.testBit 15) (v.toNat.testBit 14) (x := min (v.toNat % 256) 160) (by decide) rfl rfl
    (show _ < 256 by omega)
  generalize (s.advance now).syncFields used0 .POS_SYNCCFG_EN0 .POS_SYNCCFG_FALL0 .POS_SYNCCFG_FILT0 (v.toNat.testBit 15) (v.toNat.testBit 14)
    (min (v.toNat % 256) 160) = u at hrow ht0 hk0 hs0 hen0 hfall0 hfilt0
  have ht1 := u.syncFields_touches used1 (en := .POS_SYNCCFG_EN1) (fall := .POS_SYNCCFG_FALL1) (filt := .POS_SYNCCFG_FILT1)
    (v.toNat.testBit 31) (v.toNat.testBit 30) (x := min (bits v.toNat 23 16) 160)
  have hs1 := u.syncFields_keepsRegs used1 (en := .POS_SYNCCFG_EN1) (fall := .POS_SYNCCFG_FALL1) (filt := .POS_SYNCCFG_FILT1)
    (v.toNat.testBit 31) (v.toNat.testBit 30) (x := min (bits v.toNat 23 16) 160)
    (w := fun f _ => [Fld.POS_SYNCCFG_EN0, .POS_SYNCCFG_FALL0, .POS_SYNCCFG_FILT0, .POS_SYNCCFG_EN1, .POS_SYNCCFG_FALL1,
      .POS_SYNCCFG_FILT1].contains f) rfl rfl rfl
  have hk1 := u.syncFields_keepsRegs used1 (en := .POS_SYNCCFG_EN1) (fall := .POS_SYNCCFG_FALL1) (filt := .POS_SYNCCFG_FILT1)
    (v.toNat.testBit 31) (v.toNat.testBit 30) (x := min (bits v.toNat 23 16) 160)
    (w := fun f _ => [Fld.POS_SYNCCFG_EN1, .POS_SYNCCFG_FALL1, .POS_SYNCCFG_FILT1].contains f) rfl rfl rfl
  obtain ⟨hen1, hfall1, hfilt1⟩ := u.syncFields_getF used1 (en := .POS_SYNCCFG_EN1) (fall := .POS_SYNCCFG_FALL1)
    (filt := .POS_SYNCCFG_FILT1) (v.toNat.testBit 31) (v.toNat.testBit 30) (x := min (bits v.toNat 23 16) 160) (by decide) rfl rfl
    (show _ < 256 by omega)
  generalize u.syncFields used1 .POS_SYNCCFG_EN1 .POS_SYNCCFG_FALL1 .POS_SYNCCFG_FILT1 (v.toNat.testBit 31) (v.toNat.testBit 30)
    (min (bits v.toNat 23 16) 160) = t at hrow ht1 hk1 hs1 hen1 hfall1 hfilt1
  rw [hk0 .POS_SYNCCFG_EN1 0 rfl] at hen1
  rw [hk0 .POS_SYNCCFG_FALL1 0 rfl] at hfall1
  rw [hk0 .POS_SYNCCFG_FILT1 0 rfl] at hfilt1
  refine ⟨t, hrow, (hk1 .POS_SYNCCFG_EN0 0 rfl).trans hen0, (hk1 .POS_SYNCCFG_FALL0 0 rfl).trans hfall0,
    (hk1 .POS_SYNCCFG_FILT0 0 rfl).trans hfilt0, hen1, hfall1, hfilt1, (ht0.trans ht1).eq_withParts, hs0.trans hs1⟩

/-- Settles O30: the boundaries of lower contexts that fire first, and the judging of an edge by others, leave a context steady
(`SteadyAt`); its own boundary then fires as `State.fireBoundary_own` says. -/
theorem epochsAndPortSetup : Obligations.EpochsAndPortSetup := by
  unfold Obligations.EpochsAndPortSetup
  refine ⟨⟨fun now ctx s => ?_, fun now n rise s => ?_, fun x v => ⟨rfl, rfl, rfl, rfl⟩⟩,
    fun _ _ _ _ => ⟨posPortConfig_stores, posPortConfig_discards⟩, fun now v s => posSyncConfig_stores now v s rfl rfl⟩
  · intro c x fires hstate
    refine ⟨fun hb hsync => ⟨_, ?_, rfl, fun hd => ?_⟩, fun hb hsync => ?_, fun hend => ?_⟩
    · show execEpochBoundary now ctx s = _
      unfold execEpochBoundary
      exact (if_pos hb).trans (if_pos hsync)
    · obtain ⟨hepoch, hbound, hst⟩ := fireUpTo_fires hb hsync hd
      exact ⟨hepoch, hbound, hst.trans hstate⟩
    · show execEpochBoundary now ctx s = _
      unfold execEpochBoundary
      exact (if_pos hb).trans (if_neg hsync)
    · obtain ⟨hfire, hmiss⟩ := fireUpTo_misses hend
      refine ⟨_, if_pos (Option.isSome_iff_ne_none.mpr hend), rfl, fun hd => ?_, hmiss⟩
      obtain ⟨hepoch, hbound, hst⟩ := hfire hd
      exact ⟨hepoch, hbound, hst.trans hstate⟩
  · intro last filt u active hen hio hopen
    refine ⟨fun hact => ?_, fun hact => syncEdge_active hen hio hopen hact⟩
    exact (syncEdge_row hen hio hopen).trans (if_neg (Bool.eq_false_iff.mp hact))

end Sys2Proof.Machine
end

section
/-!
PROOF. Barriers, broadcasts, snapshots, domain resets and mailbox posts (R202 to R207, O37).
-/

set_option Elab.async false

namespace Sys2Proof.Machine
open Sys2Proof

/-! ### Arrivals at a gathering (R202, R203) -/

/-- What is sent and collected leaves the threads of a gathering and the cores of its group. -/
structure InstanceKept (g : Nat) (s t : State) : Prop where
  inst (b : BarInst) (h : (s.group g).inst = some b) : ∃ c, (t.group g).inst = some c ∧ c.threads = b.threads
  cores : (t.group g).cores = (s.group g).cores

theorem InstanceKept.refl (g : Nat) (s : State) : InstanceKept g s s := ⟨fun b h => ⟨b, h, rfl⟩, rfl⟩

theorem InstanceKept.trans {g : Nat} {s t u : State} (h : InstanceKept g s t) (k : InstanceKept g t u) : InstanceKept g s u := by
  refine ⟨fun b hb => ?_, k.cores.trans h.cores⟩
  obtain ⟨c, hc, hbc⟩ := h.inst b hb
  obtain ⟨d, hd, hcd⟩ := k.inst c hc
  exact ⟨d, hd, hcd.trans hbc⟩

theorem InstanceKept.of_groups_eq {g : Nat} {s t : State} (h : t.groups = s.groups) : InstanceKept g s t := by
  have hg : t.group g = s.group g := by
    unfold State.group
    rw [h]
  exact ⟨fun b hb => ⟨b, by rw [hg]; exact hb, rfl⟩, by rw [hg]⟩

/-- The gathering is set anew, with its threads. -/
theorem InstanceKept.setInst {g : Nat} {s : State} {b c : BarInst} (hb : (s.group g).inst = some b) (hc : c.threads = b.threads) :
    InstanceKept g s (s.setGroup g { s.group g with inst := some c }) := by
  refine ⟨fun d hd => ⟨c, ?_, ?_⟩, ?_⟩
  · rw [State.group_setGroup_same]
  · rw [hc, Option.some.inj (hb.symm.trans hd)]
  · exact (congrArg Group.cores (State.group_setGroup_same ..)).trans rfl

theorem State.latch_keepsInstance (s : State) (g : Nat) : InstanceKept g s (s.latch g) := by
  unfold State.latch
  extract_lets x
  split
  next b hb =>
    split
    · exact .setInst hb rfl
    · exact .refl g s
  next => exact .refl g s

theorem State.sendRounds_keepsInstance (s : State) (g : Nat) : InstanceKept g s (s.sendRounds g) := by
  unfold State.sendRounds
  extract_lets u x
  have hu : InstanceKept g s u := s.latch_keepsInstance g
  split
  · exact hu
  next b hb =>
    split
    · refine hu.trans (List.foldlRecOn (motive := fun t => InstanceKept g u t) _ _ (.refl g u) (fun t ht k _ => ht.trans ?_))
      split
      · extract_lets v y
        have hv : InstanceKept g t v := .of_groups_eq ((State.sendRound_within ..).touch.same .groups)
        split
        next c hc => exact hv.trans (.setInst hc rfl)
        next => exact hv
      · exact .refl g t
    · exact hu

/-- A thread that arrives is one of the gathering's, and waits as it did. -/
theorem State.arrive_spec (s : State) (i g : Nat) (slow : Bool) (guardTh : Nat) :
    (∃ b, ((s.arrive i g slow guardTh).group g).inst = some b ∧ i ∈ b.threads) ∧
      ((s.arrive i g slow guardTh).group g).cores = (s.group g).cores ∧
      ((s.arrive i g slow guardTh).thread i).wait = (s.thread i).wait := by
  unfold State.arrive
  extract_lets x b0 cs b early ev u th v
  have hu : (u.group g).inst = some { b with last := s.time, threads := b.threads ++ [i] } ∧ (u.group g).cores = (s.group g).cores := by
    rw [show u.group g = _ from State.group_setGroup_same ..]
    exact ⟨rfl, rfl⟩
  have huth : u.thread i = s.thread i := (State.setGroup_touches ..).thread i
  have hvth : (v.thread i).wait = (s.thread i).wait := by
    rw [show v.thread i = _ from State.thread_setThread_same .., ← huth]
  have hv : InstanceKept g u v := .of_groups_eq (show v.groups = u.groups from (State.setThread_touches ..).same .groups)
  clear_value u v
  obtain ⟨hinst, hcores⟩ := hu
  obtain ⟨c, hc, hthreads⟩ := (hv.trans (v.sendRounds_keepsInstance g)).inst _ hinst
  refine ⟨⟨c, hc, ?_⟩, (hv.trans (v.sendRounds_keepsInstance g)).cores.trans hcores, ?_⟩
  · rw [hthreads]
    exact List.mem_append_right _ List.mem_cons_self
  · rw [(v.sendRounds_within g).touch.thread]
    exact hvth

section Issued
variable (s : State) (now i : Nat) (w : Word)

theorem State.group_issued (g : Nat) : (s.issued now i w).group g = s.group g := (s.issued_touches now i w).group g

theorem State.groupBad_issued (j g scope : Nat) : (s.issued now i w).groupBad j g scope = s.groupBad j g scope := by
  unfold State.groupBad
  rw [State.group_issued, State.thOwner_issued]

theorem State.missed_issued (j g : Nat) : (s.issued now i w).missed j g = s.missed j g := by
  unfold State.missed
  rw [State.group_issued, State.thread_issued]

theorem State.issued_bytes : KeepsBytes s (s.issued now i w) nowhere := .of_sram_eq ((s.issued_touches now i w).same .sram) _

end Issued

/-- A thread that waits at a group, behind its word. -/
theorem State.arrived_spec (s : State) (i g kind : Nat) (hkind : kind < 8) (wt : ThreadWait) (slow : Bool) (guardTh next : Nat) :
    let t := (((s.block i kind wt).arrive i g slow guardTh).setPc i next)
    t.thState i = 3 ∧ t.getF .CSQ_TH_STAT_WAITKIND i = kind ∧ (∃ b, (t.group g).inst = some b ∧ i ∈ b.threads) ∧
      t.pc i = next % 16384 ∧ (t.group g).cores = (s.group g).cores ∧ t.snaps = s.snaps ∧ t.sets = s.sets ∧ KeepsBytes s t nowhere := by
  have hb := s.block_within i kind wt
  obtain ⟨hst, hwk, -⟩ := s.block_spec i hkind wt
  have hbcores : ((s.block i kind wt).group g).cores = (s.group g).cores := by rw [hb.touch.group]
  generalize s.block i kind wt = u at hb hst hwk hbcores
  obtain ⟨hinst, hcores, -⟩ := u.arrive_spec i g slow guardTh
  have ha := u.arrive_within i g slow guardTh
  generalize u.arrive i g slow guardTh = v at hinst hcores ha
  have hp : Within ⟨[.regs], [.CSQ_TH_STAT_PC]⟩ v (v.setPc i next) := State.setPc_within ..
  have hpc : (v.setPc i next).pc i = next % 16384 := State.pc_setPc_same ..
  have hg : (v.setPc i next).group g = v.group g := hp.touch.group g
  generalize v.setPc i next = t at hp hpc hg
  refine ⟨(hp.getF _ _).trans ((ha.getF _ _).trans hst), (hp.getF _ _).trans ((ha.getF _ _).trans hwk), by rw [hg]; exact hinst, hpc,
    by rw [hg, hcores, hbcores], ?_, ?_, ?_⟩
  · exact (show _ = v.snaps from hp.touch.same .snaps).trans ((show _ = u.snaps from ha.touch.same .snaps).trans (hb.touch.same .snaps))
  · exact (show _ = v.sets from hp.touch.same .sets).trans ((show _ = u.sets from ha.touch.same .sets).trans (hb.touch.same .sets))
  · exact .of_sram_eq ((show _ = v.sram from hp.touch.same .sram).trans ((show _ = u.sram from ha.touch.same .sram).trans (hb.touch.same .sram))) _

/-! ### BAR and BCAST (R202, R204) -/

/-- A broadcast of the gathering in progress, or of the next, has its root already. -/
def Group.rooted (x : Group) : Bool := match x.inst with | some b => b.value.isSome | none => x.earlyVal.isSome

section Bar
variable {now : Nat} {cl : Cluster} {th : Thread} {w : Word} {s : State}

theorem bar_waits {x g : Nat} (hx : (fieldsOf w).low = x) (hg : bits x 5 0 = g) (h : Issues s (thIx cl th) 0x1A w 1)
    (hgood : s.groupBad (thIx cl th) g (bits x 20 19) = false) (hmet : s.missed (thIx cl th) g = false) :
    ∃ t b, exec (.bar now cl th w) s = .next t ∧ t.thState (thIx cl th) = 3 ∧ t.getF .CSQ_TH_STAT_WAITKIND (thIx cl th) = 2 ∧
      (t.group g).inst = some b ∧ thIx cl th ∈ b.threads ∧ t.pc (thIx cl th) = (s.pc (thIx cl th) + 1) % 16384 ∧ KeepsBytes s t nowhere := by
  subst hx hg
  have hrow := exec_of_issues (now := now) (c := .bar now cl th w) h rfl (by decide)
  rw [State.groupBad_issued, hgood, if_neg Bool.false_ne_true, State.missed_issued, hmet, if_neg Bool.false_ne_true, State.pc_issued] at hrow
  obtain ⟨hst, hwk, ⟨b, hb, hi⟩, hpc, -, -, -, hbytes⟩ := (s.issued now (thIx cl th) w).arrived_spec (thIx cl th) (bits (fieldsOf w).low 5 0) 2
    (by decide) (.group (bits (fieldsOf w).low 5 0) none) ((fieldsOf w).low.testBit 18) (thIx cl th) (s.pc (thIx cl th) + 1)
  exact ⟨_, b, hrow, hst, hwk, hb, hi, hpc, (s.issued_bytes now (thIx cl th) w).trans hbytes⟩

theorem bar_missed {x g : Nat} (hx : (fieldsOf w).low = x) (hg : bits x 5 0 = g) (h : Issues s (thIx cl th) 0x1A w 1)
    (hgood : s.groupBad (thIx cl th) g (bits x 20 19) = false) (hmet : s.missed (thIx cl th) g = true) :
    ∃ t, exec (.bar now cl th w) s = .next t ∧ t.thState (thIx cl th) = 2 ∧ t.pred (thIx cl th) 7 = false ∧
      t.pc (thIx cl th) = (s.pc (thIx cl th) + 1) % 16384 ∧ t.groups = s.groups := by
  subst hx hg
  have hrow := exec_of_issues (now := now) (c := .bar now cl th w) h rfl (by decide)
  rw [State.groupBad_issued, hgood, if_neg Bool.false_ne_true, State.missed_issued, hmet, if_pos rfl] at hrow
  have hiss := s.issued_touches now (thIx cl th) w
  have hst0 : (s.issued now (thIx cl th) w).thState (thIx cl th) = 2 := (State.thState_issued ..).trans h.1
  have hpc0 : (s.issued now (thIx cl th) w).pc (thIx cl th) = s.pc (thIx cl th) := State.pc_issued ..
  generalize s.issued now (thIx cl th) w = u at hrow hiss hst0 hpc0
  unfold State.skipInstance at hrow
  extract_lets y v at hrow
  have hv : Touches [.threads] u v := State.setThread_touches ..
  have hvst : v.thState (thIx cl th) = 2 := (hv.getF _ _).trans hst0
  have hvpc : v.pc (thIx cl th) = s.pc (thIx cl th) := (hv.getF _ _).trans hpc0
  have hgroups : v.groups = s.groups := (show _ = u.groups from hv.same .groups).trans (hiss.same .groups)
  clear_value v
  obtain ⟨hpred, hpc, hst, ht⟩ := v.setPred_setPc_spec (thIx cl th) (v.pc (thIx cl th) + 1) false
  exact ⟨_, hrow, hst.trans hvst, hpred, hpc.trans (by rw [hvpc]), (show _ = v.groups from ht.same .groups).trans hgroups⟩

theorem bcast_arrives {f : Fields} {g : Nat} {root rooted : Bool} (hf : fieldsOf w = f) (hg : bits f.low 5 0 = g)
    (hroot : f.low.testBit 16 = root)
    (hrooted : (s.group g).rooted = rooted)
    (h : Issues s (thIx cl th) 0x1B w 1) (hgood : s.groupBad (thIx cl th) g 4 = false) (hmet : s.missed (thIx cl th) g = false)
    (hno : (root && rooted) = false) :
    ∃ t b, exec (.bcast now cl th w) s = .next t ∧ t.thState (thIx cl th) = 3 ∧ t.getF .CSQ_TH_STAT_WAITKIND (thIx cl th) = 3 ∧
      (t.group g).inst = some b ∧ thIx cl th ∈ b.threads ∧ (root = true → b.value = some (s.greg (thIx cl th) f.rd)) ∧
      t.pc (thIx cl th) = (s.pc (thIx cl th) + 1) % 16384 ∧ KeepsBytes s t nowhere := by
  subst hf hg hroot
  have hrow := exec_of_issues (now := now) (c := .bcast now cl th w) h rfl (by decide)
  dsimp only at hrow
  rw [State.groupBad_issued, hgood, if_neg Bool.false_ne_true, State.missed_issued, hmet, if_neg Bool.false_ne_true, State.group_issued,
    State.pc_issued, State.greg_issued] at hrow
  have hnot : ¬ ((fieldsOf w).low.testBit 16 && (s.group (bits (fieldsOf w).low 5 0)).rooted) = true := by
    rw [hrooted]
    exact Bool.eq_false_iff.mp hno
  replace hrow := hrow.trans (congrArg Host.Outcome.next (if_neg hnot))
  have hbytes0 := s.issued_bytes now (thIx cl th) w
  generalize (if (fieldsOf w).low.testBit 16 = true then none else some (fieldsOf w).rd) = dest at hrow
  generalize bits (fieldsOf w).low 5 0 = g at hrow
  generalize s.greg (thIx cl th) (fieldsOf w).rd = v at hrow
  generalize s.issued now (thIx cl th) w = u at hrow hbytes0
  generalize s.pc (thIx cl th) + 1 = next at hrow
  have hspec := u.arrived_spec (thIx cl th) g 3 (by decide) (.group g dest) false (thIx cl th) next
  generalize (u.block (thIx cl th) 3 (.group g dest)).arrive (thIx cl th) g false (thIx cl th) = a at hrow hspec
  have hp : Within ⟨[.regs], [.CSQ_TH_STAT_PC]⟩ a (a.setPc (thIx cl th) next) := State.setPc_within ..
  obtain ⟨hst, hwk, ⟨b, hb, hi⟩, hpc, -, -, -, hbytes⟩ := hspec
  have hab : (a.group g).inst = some b := by
    rw [← hp.touch.group]
    exact hb
  cases hr : (fieldsOf w).low.testBit 16 with
  | false =>
    rw [hr, if_neg Bool.false_ne_true] at hrow
    exact ⟨_, b, hrow, hst, hwk, hb, hi, fun h => absurd h Bool.false_ne_true, hpc, hbytes0.trans hbytes⟩
  | true =>
    rw [hr, if_pos rfl, hab] at hrow
    dsimp only at hrow
    have hset : Within ⟨[.groups], []⟩ a (a.setGroup g { a.group g with inst := some { b with value := some v } }) := State.setGroup_within ..
    have hgrp : ((a.setGroup g { a.group g with inst := some { b with value := some v } }).group g).inst = some { b with value := some v } :=
      (congrArg Group.inst (State.group_setGroup_same ..)).trans rfl
    generalize a.setGroup g { a.group g with inst := some { b with value := some v } } = c at hrow hset hgrp
    have hsend := c.sendBcast_within g 0 v
    have hall : Within ⟨[.out, .links, .groups], []⟩ a (c.sendBcast g 0 v) := hsend.after hset.mono
    have hend : ((c.sendBcast g 0 v).group g).inst = some { b with value := some v } := by
      rw [hsend.touch.group]
      exact hgrp
    generalize c.sendBcast g 0 v = d at hrow hall hend
    have hq : Within ⟨[.regs], [.CSQ_TH_STAT_PC]⟩ d (d.setPc (thIx cl th) next) := State.setPc_within ..
    refine ⟨_, { b with value := some v }, hrow, ?_, ?_, ?_, hi, fun _ => rfl, State.pc_setPc_same .., ?_⟩
    · exact (hq.getF _ _).trans ((hall.getF _ _).trans ((hp.getF _ _).symm.trans hst))
    · exact (hq.getF _ _).trans ((hall.getF _ _).trans ((hp.getF _ _).symm.trans hwk))
    · rw [hq.touch.group]
      exact hend
    · refine hbytes0.trans (hbytes.trans (.of_sram_eq ?_ _))
      exact (show _ = d.sram from hq.touch.same .sram).trans ((show _ = a.sram from hall.touch.same .sram).trans
        (show _ = (a.setPc (thIx cl th) next).sram from (show (a.setPc (thIx cl th) next).sram = a.sram from hp.touch.same .sram).symm))

theorem bcast_secondRoot {f : Fields} {g : Nat} {root rooted : Bool} (hf : fieldsOf w = f) (hg : bits f.low 5 0 = g)
    (hroot : f.low.testBit 16 = root)
    (hrooted : (s.group g).rooted = rooted)
    (h : Issues s (thIx cl th) 0x1B w 1) (hgood : s.groupBad (thIx cl th) g 4 = false) (hmet : s.missed (thIx cl th) g = false)
    (hyes : (root && rooted) = true) (hfree : s.bit .CSQ_TH_EXC_VALID (thIx cl th) = false) :
    ∃ t, exec (.bcast now cl th w) s = .next t ∧ t.thState (thIx cl th) = (if (s.thread (thIx cl th)).stop = true then 5 else 4) ∧
      t.getF .CSQ_TH_EXC_CODE (thIx cl th) = 0x08 ∧ t.groups = s.groups := by
  subst hf hg hroot
  have hrow := exec_of_issues (now := now) (c := .bcast now cl th w) h rfl (by decide)
  dsimp only at hrow
  rw [State.groupBad_issued, hgood, if_neg Bool.false_ne_true, State.missed_issued, hmet, if_neg Bool.false_ne_true, State.group_issued]
    at hrow
  have hboth : ((fieldsOf w).low.testBit 16 && (s.group (bits (fieldsOf w).low 5 0)).rooted) = true := by rw [hrooted, hyes]
  replace hrow := hrow.trans (congrArg Host.Outcome.next (if_pos hboth))
  have hfree' : (s.issued now (thIx cl th) w).bit .CSQ_TH_EXC_VALID (thIx cl th) = false := (State.bit_issued ..).trans hfree
  have hthread : (s.issued now (thIx cl th) w).thread (thIx cl th) = s.thread (thIx cl th) := State.thread_issued ..
  have hgroups : (s.issued now (thIx cl th) w).groups = s.groups := (s.issued_touches ..).same .groups
  generalize s.issued now (thIx cl th) w = u at hrow hfree' hthread hgroups
  refine ⟨_, hrow, ?_, ?_, (show _ = u.groups from (u.seqHalt_within (thIx cl th) 8).touch.same .groups).trans hgroups⟩
  · rw [← hthread]
    exact u.thState_seqHaltAt ..
  · obtain ⟨-, hcode, -⟩ := State.getF_seqCapture_of_clear hfree' 0x08 (u.pc (thIx cl th))
    exact (u.getF_seqHaltAt_exc _ _ _ (by decide)).trans hcode

end Bar

/-! ### The end of a gathering (R202 to R205) -/

theorem State.resume_other (s : State) {i j : Nat} (p7 : Bool) (h : i ≠ j) : (s.resume i p7).thread j = s.thread j ∧
    (s.resume i p7).thState j = s.thState j ∧ (s.resume i p7).pred j 7 = s.pred j 7 := by
  have hkeep (f : Fld) : (s.resume i p7).getF f j = s.getF f j := s.resume_keepsRegs i p7 f j (by simp [Ne.symm h])
  refine ⟨s.thread_resume_ne p7 h, hkeep _, ?_⟩
  unfold State.pred
  rw [hkeep]

/-- A thread that does not wait keeps its predicates while others go on. -/
theorem State.resumeAll_pred (p7 : Bool) (xs : List Nat) {s : State} {i : Nat} (h : s.thState i ≠ 3) :
    (xs.foldl (fun t i => if t.thState i == 3 then t.resume i p7 else t) s).pred i 7 = s.pred i 7 := by
  induction xs generalizing s with
  | nil => rfl
  | cons j xs ih =>
    rw [List.foldl_cons]
    by_cases hj : s.thState j = 3
    · have hne : j ≠ i := fun hji => h (hji ▸ hj)
      obtain ⟨-, hst, hpred⟩ := s.resume_other p7 hne
      rw [if_pos (beq_iff_eq.mpr hj), ih (by rw [hst]; exact h), hpred]
    · rw [if_neg (fun hb => hj (beq_iff_eq.mp hb)), ih h]

/-- Every waiting thread of a list goes on. -/
theorem State.resumeAll_waiting (p7 : Bool) (xs : List Nat) {s : State} {i : Nat} (hi : i ∈ xs) (h : s.thState i = 3) :
    let t := xs.foldl (fun t i => if t.thState i == 3 then t.resume i p7 else t) s
    t.pred i 7 = p7 ∧ t.thState i = (if (s.thread i).stop = true then 5 else if (s.thread i).halt = true then 4 else 2) := by
  induction xs generalizing s with
  | nil => cases hi
  | cons j xs ih =>
    simp only [List.foldl_cons]
    by_cases hji : j = i
    · obtain ⟨hpred, hst, -⟩ := s.resume_spec i p7
      have hgone : (s.resume i p7).thState i ≠ 3 := by
        rw [hst]
        split
        · decide
        · split
          · decide
          · decide
      rw [hji, if_pos (beq_iff_eq.mpr h)]
      obtain ⟨hkeep, -⟩ := State.resumeAll_of_not_waiting p7 xs hgone
      exact ⟨(State.resumeAll_pred p7 xs hgone).trans hpred, hkeep.trans hst⟩
    · have hin : i ∈ xs := (List.mem_cons.mp hi).resolve_left (Ne.symm hji)
      by_cases hj : s.thState j = 3
      · obtain ⟨hth, hst, -⟩ := s.resume_other p7 hji
        rw [if_pos (beq_iff_eq.mpr hj)]
        obtain ⟨hpred, hend⟩ := ih (s := s.resume j p7) hin (hst.trans h)
        rw [hth] at hend
        exact ⟨hpred, hend⟩
      · rw [if_neg (fun hb => hj (beq_iff_eq.mp hb))]
        exact ih hin h

/-- What the end of a gathering leaves. -/
structure InstanceEnded (g : Nat) (b : BarInst) (p7 timedOut : Bool) (s t : State) : Prop where
  inst : (t.group g).inst = none
  count : (t.group g).count = (s.group g).count + 1
  timedOut : (t.group g).timedOut = timedOut
  goesOn (i : Nat) (hi : i ∈ b.threads) (h : s.thState i = 3) : t.pred i 7 = p7 ∧
    t.thState i = (if (s.thread i).stop = true then 5 else if (s.thread i).halt = true then 4 else 2)
  snaps (y : Snapshot) (hy : y ∈ t.snaps) : b.threads.contains y.th = false
  touch : Touches groupParts s t
  regs : KeepsRegs s t (fun f _ => waitFields.contains f)

theorem State.instanceOver_spec (s : State) (g : Nat) (b : BarInst) (timedOut : Bool) :
    ((s.instanceOver g b timedOut).group g).inst = none ∧ ((s.instanceOver g b timedOut).group g).count = (s.group g).count + 1 ∧
      ((s.instanceOver g b timedOut).group g).timedOut = timedOut ∧
      ∀ y, y ∈ (s.instanceOver g b timedOut).snaps → b.threads.contains y.th = false := by
  have hu : (s.setGroup g { s.group g with inst := none, count := (s.group g).count + 1, timedOut := timedOut }).group g =
      { s.group g with inst := none, count := (s.group g).count + 1, timedOut := timedOut } := State.group_setGroup_same ..
  generalize hr : s.instanceOver g b timedOut = r
  unfold State.instanceOver at hr
  generalize s.setGroup g { s.group g with inst := none, count := (s.group g).count + 1, timedOut := timedOut } = u at hu hr
  dsimp only at hr
  split at hr
  · have hw := u.snaps_touches (u.snaps.filter (fun n => !(b.threads.contains n.th)))
    have hsnaps (y : Snapshot) (hy : y ∈ ({ u with snaps := u.snaps.filter (fun n => !(b.threads.contains n.th)) } : State).snaps) :
        b.threads.contains y.th = false := by
      have := (List.mem_filter.mp hy).2
      simpa using this
    generalize ({ u with snaps := u.snaps.filter (fun n => !(b.threads.contains n.th)) } : State) = v at hw hsnaps hr
    have hg : r.group g = u.group g := hr ▸ (v.thaw_touches.group g).trans (hw.group g)
    have hs : r.snaps = v.snaps := hr ▸ v.thaw_touches.same .snaps
    rw [hg, hu, hs]
    exact ⟨rfl, rfl, rfl, hsnaps⟩
  next hno =>
    rw [← hr, hu]
    refine ⟨rfl, rfl, rfl, fun y hy => ?_⟩
    rw [Bool.not_eq_true, List.any_eq_false] at hno
    exact Bool.not_eq_true _ ▸ hno y hy

theorem State.endInstance_spec {s : State} {g : Nat} {b : BarInst} (h : (s.group g).inst = some b) (p7 timedOut : Bool) :
    InstanceEnded g b p7 timedOut s (s.endInstance g p7 timedOut) := by
  obtain ⟨hinst, hcount, htmo, hsnaps⟩ := s.instanceOver_spec g b timedOut
  have hover := s.instanceOver_touches g b timedOut
  have htouch := s.endInstance_touches g p7 timedOut
  have hregs := s.endInstance_keepsRegs g p7 timedOut
  rw [State.endInstance_of_some h] at htouch hregs ⊢
  generalize s.instanceOver g b timedOut = u at hinst hcount htmo hsnaps hover htouch hregs
  have hall := State.resumeAll_touches p7 b.threads u
  refine ⟨?_, ?_, ?_, fun i hi hst => ?_, fun y hy => hsnaps y ?_, htouch, hregs⟩
  · rw [hall.group]
    exact hinst
  · rw [hall.group]
    exact hcount
  · rw [hall.group]
    exact htmo
  · have hth : u.thread i = s.thread i := hover.thread i
    rw [← hth]
    exact State.resumeAll_waiting p7 b.threads hi ((hover.getF _ _).trans hst)
  · exact (show _ = u.snaps from hall.same .snaps) ▸ hy

theorem barrierRelease_ends {now : Nat} {g : Fin 64} {s u : State} {x : Group} {b : BarInst} (hu : (s.advance now).sendRounds g.val = u)
    (hx : u.group g.val = x) (hb : x.inst = some b) (hhere : u.allHere x b = true) (hrounds : x.roundsIn b = true)
    (hbcast : u.bcastIn b = false) (hsnap : u.snapIn b = false) :
    ∃ t, exec (.barrierRelease now g) s = .next t ∧ (t.group g.val).inst = none ∧ (t.group g.val).count = x.count + 1 ∧
      (t.group g.val).timedOut = false ∧ (∀ i, i ∈ b.threads → u.thState i = 3 → t.pred i 7 = true ∧
        t.thState i = (if (u.thread i).stop = true then 5 else if (u.thread i).halt = true then 4 else 2)) := by
  have hrow : exec (.barrierRelease now g) s = .next (u.endInstance g.val true false) := by
    show execBarrierRelease now g s = _
    unfold execBarrierRelease
    extract_lets v y
    have hv : v = u := hu
    have hy : y = x := (congrArg (fun t : State => t.group g.val) hv).trans hx
    rw [hy, hb, hv]
    exact if_pos (by rw [hhere, hrounds, hbcast, hsnap]; rfl)
  have hend := State.endInstance_spec (by rw [hx]; exact hb) true false
  exact ⟨_, hrow, hend.inst, hend.count.trans (by rw [hx]), hend.timedOut, hend.goesOn⟩

theorem barrierTimeout_ends {now : Nat} {g : Fin 64} {s : State} {x : Group} {b : BarInst} (hx : s.group g.val = x) (hb : x.inst = some b)
    (hlate : b.first + 1000 * x.timeout ≤ max s.time now) :
    ∃ t, exec (.barrierTimeout now g) s = .next t ∧ (t.group g.val).inst = none ∧ (t.group g.val).count = x.count + 1 ∧
      (t.group g.val).timedOut = true ∧ (∀ i, i ∈ b.threads → s.thState i = 3 → t.pred i 7 = false ∧
        t.thState i = (if (s.thread i).stop = true then 5 else if (s.thread i).halt = true then 4 else 2)) ∧ KeepsBytes s t nowhere := by
  have hx' : (s.advance now).group g.val = x := hx
  have hrow : exec (.barrierTimeout now g) s = .next ((s.advance now).endInstance g.val false true) := by
    show execBarrierTimeout now g s = _
    unfold execBarrierTimeout
    extract_lets u y
    have hy : y = x := hx'
    rw [hy, hb]
    exact if_pos hlate
  have hend := State.endInstance_spec (s := s.advance now) (by rw [hx']; exact hb) false true
  exact ⟨_, hrow, hend.inst, hend.count.trans (by rw [hx']), hend.timedOut, hend.goesOn,
    .of_sram_eq (show _ = (s.advance now).sram from hend.touch.same .sram) _⟩

/-! The delivery of a broadcast (R204). -/

theorem State.deliver_threads (v : Word) (s : State) (i : Nat) : Touches [.regs] s (State.deliver v s i) :=
  (State.deliver_within v s i).touch.mono

/-- Every thread that waits for the value in a register has it there. -/
theorem State.deliver_greg (v : Word) (s : State) {i k r : Nat} (hw : (s.thread i).wait = .group k (some r)) :
    (State.deliver v s i).greg i r = v := by
  unfold State.deliver
  rw [hw]
  exact State.greg_setGreg_same ..

theorem State.deliver_keeps_delivered (v : Word) {s : State} {i r : Nat} (j : Nat) (h : s.greg i r = v) :
    (State.deliver v s j).greg i r = v := by
  unfold State.deliver
  split
  next k q hw =>
    by_cases hix : j * 16 + q = i * 16 + r
    · have h2 := s.greg_setGreg_same j q v
      unfold State.greg at h2 ⊢
      rw [← hix]
      exact h2
    · unfold State.greg State.setGreg
      rw [State.getF_setF_ne _ _ (fun hc => hix hc.2)]
      exact h
  next => exact h

theorem State.foldl_deliver_greg (v : Word) (xs : List Nat) (s : State) {i k r : Nat} (hi : i ∈ xs)
    (hw : (s.thread i).wait = .group k (some r)) : (xs.foldl (State.deliver v) s).greg i r = v := by
  induction xs generalizing s with
  | nil => cases hi
  | cons j xs ih =>
    rw [List.foldl_cons]
    rcases List.mem_cons.mp hi with h | h
    · rw [← h]
      exact List.foldlRecOn (motive := fun t : State => t.greg i r = v) xs _ (State.deliver_greg v s hw)
        (fun t ht j _ => State.deliver_keeps_delivered v j ht)
    · refine ih _ h ?_
      rw [(State.deliver_threads v s j).thread]
      exact hw

theorem bcastDeliver_ends {now : Nat} {g : Fin 64} {s u : State} {x : Group} {b : BarInst} {v : Word}
    (hu : (s.advance now).sendRounds g.val = u) (hx : u.group g.val = x) (hb : x.inst = some b) (hv : b.value = some v)
    (hhere : u.allHere x b = true) (hrounds : x.roundsIn b = true) (hbcast : u.bcastIn b = true) :
    ∃ t, exec (.bcastDeliver now g) s = .next t ∧ (t.group g.val).inst = none ∧ (t.group g.val).count = x.count + 1 ∧
      (∀ i k r, i ∈ b.threads → (u.thread i).wait = .group k (some r) → t.greg i r = v) := by
  have hrow : exec (.bcastDeliver now g) s = .next ((b.threads.foldl (State.deliver v) u).endInstance g.val true false) := by
    show execBcastDeliver now g s = _
    unfold execBcastDeliver
    extract_lets a y
    have ha : a = u := hu
    have hy : y = x := (congrArg (fun t : State => t.group g.val) ha).trans hx
    rw [hy, hb]
    dsimp only
    rw [hv, ha]
    exact if_pos (by rw [hhere, hrounds, hbcast]; rfl)
  have hd : Touches [.regs] u (b.threads.foldl (State.deliver v) u) := Touches.foldl _ (State.deliver_threads v) _ _
  have hgreg (i k r : Nat) (hi : i ∈ b.threads) (hw : (u.thread i).wait = .group k (some r)) :
      (b.threads.foldl (State.deliver v) u).greg i r = v := State.foldl_deliver_greg v b.threads u hi hw
  generalize b.threads.foldl (State.deliver v) u = a at hrow hd hgreg
  have hax : a.group g.val = x := (hd.group g.val).trans hx
  have hend := State.endInstance_spec (by rw [hax]; exact hb) true false
  refine ⟨_, hrow, hend.inst, hend.count.trans (by rw [hax]), fun i k r hi hw => ?_⟩
  have hk := hgreg i k r hi hw
  unfold State.greg at hk ⊢
  rw [hend.regs _ _ rfl]
  exact hk

/-! ### Snapshots (R205) -/

theorem State.frozen_of_snap {s : State} {n i core : Nat} {d : SnapSet} (hn : Snapshot.mk n i ∈ s.snaps)
    (hd : smapGet none s.sets n = some d) (hc : core ∈ (s.group d.group).coresOf (i / 8)) : s.frozen core = true := by
  refine List.any_eq_true.mpr ⟨_, hn, ?_⟩
  simpa only [hd] using List.contains_iff_mem.mpr hc

/-- A thread that arrives for a snapshot. -/
theorem State.snapArrived_spec (s : State) (n i g next : Nat) :
    let t := ((({ s with snaps := s.snaps ++ [Snapshot.mk n i] }.block i 5 (.snap n)).arrive i g true 128).setPc i next)
    t.thState i = 3 ∧ t.getF .CSQ_TH_STAT_WAITKIND i = 5 ∧ t.pc i = next % 16384 ∧ (t.group g).cores = (s.group g).cores ∧
      Snapshot.mk n i ∈ t.snaps ∧ t.sets = s.sets ∧ KeepsBytes s t nowhere := by
  have hw := s.snaps_touches (s.snaps ++ [Snapshot.mk n i])
  have hmem : Snapshot.mk n i ∈ ({ s with snaps := s.snaps ++ [Snapshot.mk n i] } : State).snaps :=
    List.mem_append_right _ List.mem_cons_self
  generalize ({ s with snaps := s.snaps ++ [Snapshot.mk n i] } : State) = v at hw hmem
  obtain ⟨hst, hwk, -, hpc, hcores, hsnaps, hsets, hkeep⟩ := v.arrived_spec i g 5 (by decide) (.snap n) true 128 next
  exact ⟨hst, hwk, hpc, by rw [hcores, hw.group], by rw [hsnaps]; exact hmem, hsets.trans (hw.same .sets),
    (hw.bytes nowhere).trans hkeep⟩

theorem snap_stops {now : Nat} {cl : Cluster} {th : Thread} {w : Word} {s : State} {d : SnapSet} {n : Nat}
    (hn : bits (fieldsOf w).low 5 0 = n) (h : Issues s (thIx cl th) 0x1E w 1) (hd : smapGet none s.sets n = some d)
    (hown : d.owner = s.thOwner (thIx cl th)) (hgood : s.groupBad (thIx cl th) d.group 4 = false)
    (hmet : s.missed (thIx cl th) d.group = false) :
    ∃ t, exec (.snap now cl th w) s = .next t ∧ Snapshot.mk n (thIx cl th) ∈ t.snaps ∧ t.thState (thIx cl th) = 3 ∧
      t.getF .CSQ_TH_STAT_WAITKIND (thIx cl th) = 5 ∧
      (∀ core, core ∈ (s.group d.group).coresOf (thIx cl th / 8) → t.frozen core = true) ∧
      t.pc (thIx cl th) = (s.pc (thIx cl th) + 1) % 16384 ∧ KeepsBytes s t nowhere := by
  subst hn
  have hrow := exec_of_issues (now := now) (c := .snap now cl th w) h rfl (by decide)
  have hsets : (s.issued now (thIx cl th) w).sets = s.sets := (s.issued_touches ..).same .sets
  have hguard : (d.owner != (s.issued now (thIx cl th) w).thOwner (thIx cl th) ||
      (s.issued now (thIx cl th) w).groupBad (thIx cl th) d.group 4) = false := by
    rw [State.thOwner_issued, State.groupBad_issued, hgood, hown, bne_self_eq_false]
    rfl
  rw [show smapGet none (s.issued now (thIx cl th) w).sets _ = some d from (congrArg (smapGet none · _) hsets).trans hd] at hrow
  dsimp only at hrow
  rw [hguard, if_neg Bool.false_ne_true, State.missed_issued, hmet, if_neg Bool.false_ne_true, State.pc_issued] at hrow
  have hbytes := s.issued_bytes now (thIx cl th) w
  have hgroup := State.group_issued s now (thIx cl th) w d.group
  generalize s.issued now (thIx cl th) w = u at hrow hsets hbytes hgroup
  obtain ⟨hst, hwk, hpc, hcores, hmem, hts, hkeep⟩ := u.snapArrived_spec (bits (fieldsOf w).low 5 0) (thIx cl th) d.group
    (s.pc (thIx cl th) + 1)
  refine ⟨_, hrow, hmem, hst, hwk, fun core hc => ?_, hpc, hbytes.trans hkeep⟩
  refine State.frozen_of_snap hmem (by rw [hts, hsets]; exact hd) ?_
  unfold Group.coresOf at hc ⊢
  rw [hcores, hgroup]
  exact hc

theorem snapshotDone_ends {now : Nat} {cl : Cluster} {th : Thread} {s u : State} {n : Nat} {d : SnapSet} {b : BarInst}
    (hu : (s.advance now).sendRounds d.group = u) (hwait : (s.thread (thIx cl th)).wait = .snap n) (hd : smapGet none s.sets n = some d)
    (hb : (u.group d.group).inst = some b) (hi : thIx cl th ∈ b.threads) (hhere : u.allHere (u.group d.group) b = true)
    (hrounds : (u.group d.group).roundsIn b = true) :
    ∃ t, exec (.snapshotDone now cl th) s = .next t ∧ (t.group d.group).inst = none ∧
      (∀ y, y ∈ t.snaps → b.threads.contains y.th = false) ∧ t.cells = s.cells := by
  let copy (t : State) (m : Nat) : State := match smapGet none t.sets m with | some e => t.snapCopy (thIx cl th) e | none => t
  let ns := ((u.snaps.filter (fun y => b.threads.contains y.th)).map (·.set)).dedup
  have hwait' : ((s.advance now).thread (thIx cl th)).wait = .snap n := hwait
  have hd' : smapGet none (s.advance now).sets n = some d := hd
  have hrow : exec (.snapshotDone now cl th) s = .next ((ns.foldl copy u).endInstance d.group true false) := by
    show execSnapshotDone now cl th s = _
    unfold execSnapshotDone
    dsimp only
    rw [hwait']
    dsimp only
    rw [hd']
    dsimp only
    rw [hu, hb]
    exact if_pos (by rw [hhere, hrounds, List.contains_iff_mem.mpr hi]; rfl)
  have hcells : u.cells = s.cells := hu ▸ ((s.advance now).sendRounds_within d.group).touch.same .cells
  have hcopy : Within State.snapCopyWrites u (ns.foldl copy u) := by
    refine Within.foldl _ (fun t m => ?_) _ _
    show Within _ t (match smapGet none t.sets m with | some e => t.snapCopy (thIx cl th) e | none => t)
    split
    · exact State.snapCopy_within ..
    · exact Within.refl _ _
  generalize ns.foldl copy u = v at hrow hcopy
  have hend := State.endInstance_spec (s := v) (g := d.group) (b := b) (by rw [hcopy.touch.group]; exact hb) true false
  exact ⟨_, hrow, hend.inst, hend.snaps, (show _ = v.cells from hend.touch.same .cells).trans
    ((show _ = u.cells from hcopy.touch.same .cells).trans hcells)⟩

/-! ### Domain resets (R206) -/

theorem div_of_testBit {v j : Nat} (h : v.testBit j = true) : (v - 2 ^ j) / 2 ^ (j + 1) = v / 2 ^ (j + 1) := by
  have hsub : (v - 2 ^ j) / 2 ^ j = v / 2 ^ j - 1 := by simpa using Nat.sub_mul_div v (2 ^ j) 1
  rw [Nat.testBit_eq_decide_div_mod_eq, decide_eq_true_eq] at h
  rw [Nat.pow_succ, ← Nat.div_div_eq_div_mul, ← Nat.div_div_eq_div_mul, hsub]
  generalize v / 2 ^ j = q at h
  omega

/-- The bits that stand after one was cleared stood before. -/
theorem testBit_of_withBit_false {v j i : Nat} (h : (withBit v j false).testBit i = true) : v.testBit i = true := by
  unfold withBit at h
  rw [if_neg Bool.false_ne_true] at h
  split at h
  next hj =>
    rcases Nat.lt_trichotomy i j with hij | rfl | hij
    · have hadd := Nat.testBit_two_pow_add_gt hij (v - 2 ^ j)
      rw [Nat.add_sub_cancel' (Nat.ge_two_pow_of_testBit hj)] at hadd
      rw [hadd]
      exact h
    · exact hj
    · obtain ⟨k, rfl⟩ := Nat.exists_eq_add_of_lt hij
      rw [Nat.testBit_eq_decide_div_mod_eq] at h ⊢
      rw [show j + k + 1 = j + 1 + k by omega, Nat.pow_add, ← Nat.div_div_eq_div_mul] at h ⊢
      rw [← div_of_testBit hj]
      exact h
  next => exact h

/-- What the reset of a core writes beside its tiles. -/
def State.resetCutWrites : Writes := ⟨State.enterResetWrites.parts.filter (· != .tiles), State.enterResetWrites.flds⟩

theorem State.warmReset_tiles (s : State) (core : Nat) : (s.warmReset core).tiles = (s.setCoreTiles core []).tiles := by
  unfold State.warmReset
  extract_lets s1 s2 s3 s4 s5 c o
  have hs1 : Within State.resetCutWrites s s1 := (State.tmvTear_within ..).mono
  have hs2 : Within State.resetCutWrites s s2 := by
    unfold s2
    refine Within.trans hs1 (Within.foldl _ (fun t x => ?_) _ _)
    extract_lets t1
    have ht1 : Within State.resetCutWrites t t1 := Within.foldl _ (fun _ _ => (State.tmvQueue_within ..).after
      ((State.tear_within ..).mono)) _ _
    exact Within.trans ht1 (Within.foldl _ (fun _ _ => Within.ite _ ((State.setTorn_within ..).after
      ((State.emptySlot_within ..).mono)) (Within.refl _ _)) _ _)
  have hs3 : s3.tiles = (s.setCoreTiles core []).tiles := by
    have htiles : s2.tiles = s.tiles := hs2.touch.same .tiles
    show smapSet [] s2.tiles core [] = smapSet [] s.tiles core []
    rw [htiles]
  have hs4 : Within State.resetCutWrites s3 s4 := by
    refine Within.foldl _ (fun t x => ?_) _ _
    extract_lets _ _ t1
    have ht1 : Within State.resetCutWrites t t1 := Within.foldl _ (fun _ _ => Within.foldl _ (fun _ _ => Within.ite _
      ((State.setTorn_within ..).after ((State.emptySlot_within ..).mono)) (Within.refl _ _)) _ _) _ _
    exact (State.setStation_within ..).after ht1
  have hs5 : Within State.resetCutWrites s3 s5 := Within.trans hs4 (Within.foldl _ (fun _ _ => (State.setEngine_within ..).mono) _ _)
  have htiles : s5.tiles = s3.tiles := hs5.touch.same .tiles
  exact (show _ = s5.tiles from (State.setOcu_touches ..).same .tiles).trans (htiles.trans hs3)

theorem State.coreOff_tiles (s : State) (core : Nat) : (s.coreOff core).tiles = (s.setCoreTiles core []).tiles := by
  have hwait (t : State) (m : List CmReq) (n : List Nat) : Within State.resetCutWrites t { t with cmWait := m, scrubs := n } :=
    (Within.update [.cmWait, .scrubs] rfl).mono
  unfold State.coreOff
  extract_lets s1 s2 s3 s4 s5 s6
  have hs1 : s1.tiles = (s.setCoreTiles core []).tiles := by
    have hcut (g : Nat → Bool) : (s.cutCopies g).tiles = s.tiles := (s.cutCopies_within g).touch.same .tiles
    refine (State.warmReset_tiles _ core).trans ?_
    unfold State.setCoreTiles
    dsimp only
    rw [hcut]
  have hs2 : Within State.resetCutWrites s1 s2 := Within.foldl _ (fun _ _ => (State.setEngine_within ..).mono) _ _
  have hs3 : Within State.resetCutWrites s1 s3 := (State.setTmv_within ..).after ((State.dropWriters_within ..).after hs2)
  have hs4 : Within State.resetCutWrites s1 s4 := Within.trans hs3 (Within.foldl _ (fun _ _ => (State.ringLose_within ..).mono) _ _)
  have hs5 : Within State.resetCutWrites s1 s5 := (State.zeroFill_within ..).after hs4
  have hs6 : Within State.resetCutWrites s1 s6 := hs5.trans (hwait s5 _ _)
  have htiles : s6.tiles = s1.tiles := hs6.touch.same .tiles
  exact (show _ = s6.tiles from (State.setF_touches ..).same .tiles).trans (htiles.trans hs1)

/-- A core in its reset: out of service, without a tile, and off after a cold one. -/
structure CoreInReset (cold : Bool) (c : Nat) (s : State) : Prop where
  stat : s.getF .STP_STAT_STATE c = 3
  tiles : s.coreTiles c = []
  off (h : cold = true) : s.coreOn c = false

theorem CoreInReset.congr {cold : Bool} {c : Nat} {s t : State} (h : CoreInReset cold c s)
    (hstat : t.getF .STP_STAT_STATE c = s.getF .STP_STAT_STATE c) (htiles : t.tiles = s.tiles)
    (hdom : t.getF .CPT_DOM_CORE (c / 8) = s.getF .CPT_DOM_CORE (c / 8)) : CoreInReset cold c t := by
  refine ⟨hstat.trans h.stat, ?_, fun hc => ?_⟩
  · unfold State.coreTiles
    rw [htiles]
    exact h.tiles
  · unfold State.coreOn
    rw [hdom]
    exact h.off hc

theorem State.enterReset_cold (s : State) (core : Nat) : s.enterReset true core = (s.coreOff core).setF .STP_STAT_STATE core 3 := rfl
theorem State.enterReset_warm (s : State) (core : Nat) : s.enterReset false core = (s.warmReset core).setF .STP_STAT_STATE core 3 := rfl

theorem State.enterReset_tiles (s : State) (cold : Bool) (core : Nat) :
    (s.enterReset cold core).tiles = (s.setCoreTiles core []).tiles := by
  have hset (t : State) : (t.setF .STP_STAT_STATE core 3).tiles = t.tiles := (t.setF_touches ..).same .tiles
  cases cold with
  | true => rw [State.enterReset_cold, hset, State.coreOff_tiles]
  | false => rw [State.enterReset_warm, hset, State.warmReset_tiles]

/-- No core comes on where a core is switched off. -/
theorem State.coreOff_coreOn {s : State} (core : Nat) {c : Nat} (h : c = core ∨ s.coreOn c = false) :
    (s.coreOff core).coreOn c = false := by
  obtain ⟨u, hu, heq⟩ := s.coreOff_eq core
  have hdom : u.getF .CPT_DOM_CORE (c / 8) = s.getF .CPT_DOM_CORE (c / 8) := hu.getF _ _
  rw [heq]
  unfold State.coreOn
  rcases h with rfl | h
  · rw [State.getF_setF_same, show Fld.width .CPT_DOM_CORE = 8 from rfl, Nat.testBit_mod_two_pow, testBit_withBit_false, Bool.and_false]
  · rw [← Bool.not_eq_true]
    intro hon
    unfold State.coreOn at h
    by_cases hc : core / 8 = c / 8
    · rw [← hc, State.getF_setF_same, show Fld.width .CPT_DOM_CORE = 8 from rfl, Nat.testBit_mod_two_pow, Bool.and_eq_true] at hon
      have hv := testBit_of_withBit_false hon.2
      rw [hc, hdom, h] at hv
      exact Bool.false_ne_true hv
    · rw [State.getF_setF_ne _ _ (fun hx => hc hx.2), hdom, h] at hon
      exact Bool.false_ne_true hon

theorem State.enterReset_on (s : State) (core c : Nat) : (s.enterReset true core).coreOn c = (s.coreOff core).coreOn c := by
  rw [State.enterReset_cold]
  generalize s.coreOff core = t
  unfold State.coreOn
  rw [State.getF_setF_ne _ _ (by simp)]

theorem State.enterReset_resets (s : State) (cold : Bool) (core : Nat) : CoreInReset cold core (s.enterReset cold core) := by
  refine ⟨State.getF_setF_same _ .STP_STAT_STATE core 3, ?_, ?_⟩
  · unfold State.coreTiles
    rw [State.enterReset_tiles]
    exact State.coreTiles_setCoreTiles_same ..
  · rintro rfl
    exact (State.enterReset_on s core core).trans (State.coreOff_coreOn core (.inl rfl))

theorem CoreInReset.enterReset {cold : Bool} {c : Nat} {s : State} (h : CoreInReset cold c s) (core : Nat) :
    CoreInReset cold c (s.enterReset cold core) := by
  by_cases hc : core = c
  · exact hc ▸ s.enterReset_resets cold core
  refine ⟨?_, ?_, ?_⟩
  · have hne : ¬ (Fld.STP_STAT_STATE = Fld.STP_STAT_STATE ∧ core = c) := fun hx => hc hx.2
    refine (State.getF_setF_ne _ _ hne).trans (.trans ?_ h.stat)
    cases cold with
    | true => exact (s.coreOff_within core).getF _ _
    | false => exact (s.warmReset_within core).getF _ _
  · unfold State.coreTiles
    rw [State.enterReset_tiles]
    exact (State.coreTiles_setCoreTiles_ne s core [] hc).trans h.tiles
  · rintro rfl
    exact (State.enterReset_on s core c).trans (State.coreOff_coreOn core (.inr (h.off rfl)))

/-- Cores that enter their resets, as DRST has them. -/
theorem State.enterResets_spec (s : State) (cold : Bool) (cores : List Nat) :
    let t := cores.foldl (fun u c => u.enterReset cold c) s
    (∀ c, c ∈ cores → CoreInReset cold c t) ∧ Within State.enterResetWrites s t :=
  ⟨fun _ hc => foldl_establishes (fun u c => u.enterReset cold c) (CoreInReset cold _) (fun _ k h => h.enterReset k) hc
    (fun u => u.enterReset_resets cold _) s, Within.foldl _ (fun u c => u.enterReset_within cold c) _ _⟩

/-- The thread that waits for its cores. -/
theorem State.resetWaits_spec (s : State) (i next : Nat) (cold : Bool) (cores : List Nat) :
    let t := (({ s with resets := s.resets ++ [DomReset.mk i cold cores] }.block i 5 (.reset cold cores)).setPc i next)
    t.thState i = 3 ∧ t.getF .CSQ_TH_STAT_WAITKIND i = 5 ∧ (t.thread i).wait = .reset cold cores ∧ DomReset.mk i cold cores ∈ t.resets ∧
      t.pc i = next % 16384 ∧ (∀ c, CoreInReset cold c s → CoreInReset cold c t) ∧ t.cells = s.cells := by
  have hw : Touches [.resets] s { s with resets := s.resets ++ [DomReset.mk i cold cores] } := Touches.of_withParts rfl
  have hmem : DomReset.mk i cold cores ∈ ({ s with resets := s.resets ++ [DomReset.mk i cold cores] } : State).resets :=
    List.mem_append_right _ List.mem_cons_self
  generalize ({ s with resets := s.resets ++ [DomReset.mk i cold cores] } : State) = v at hw hmem
  obtain ⟨hst, hwk, hwait, hpc, htouch⟩ := v.block_setPc_spec i (kind := 5) (by decide) (.reset cold cores) next
  have hb := v.block_within i 5 (.reset cold cores)
  generalize v.block i 5 (.reset cold cores) = u at hst hwk hwait hpc htouch hb
  have hp : Within ⟨[.regs], [.CSQ_TH_STAT_PC]⟩ u (u.setPc i next) := State.setPc_within ..
  generalize u.setPc i next = t at hst hwk hwait hpc htouch hp
  refine ⟨hst, hwk, hwait, ?_, hpc, fun c hc => hc.congr ?_ ?_ ?_, (show _ = v.cells from htouch.same .cells).trans (hw.same .cells)⟩
  · rw [show t.resets = v.resets from htouch.same .resets]
    exact hmem
  · exact (hp.getF _ _).trans ((hb.getF _ _).trans (hw.getF _ _))
  · exact (show _ = v.tiles from htouch.same .tiles).trans (hw.same .tiles)
  · exact (hp.getF _ _).trans ((hb.getF _ _).trans (hw.getF _ _))

section Drst
variable {now : Nat} {cl : Cluster} {th : Thread} {w : Word} {s : State} {cold : Bool} {cores : List Nat}
  (hcold : (fieldsOf w).low.testBit 8 = cold)
  (hcores : ((List.range 8).filter (fun k => (fieldsOf w).low.testBit k)).map (fun k => 8 * cl.val + k) = cores)
  (h : Issues s (thIx cl th) 0x1F w 1) (hmine : ∀ c, c ∈ cores → ∃ p, s.part (s.thOwner (thIx cl th)) = some p ∧ c ∈ p.cores)
include hcold hcores h hmine

theorem drst_resets (hsome : cores ≠ []) :
    ∃ t, exec (.drst now cl th w) s = .next t ∧ t.thState (thIx cl th) = 3 ∧ t.getF .CSQ_TH_STAT_WAITKIND (thIx cl th) = 5 ∧
      (t.thread (thIx cl th)).wait = .reset cold cores ∧ DomReset.mk (thIx cl th) cold cores ∈ t.resets ∧
      t.pc (thIx cl th) = (s.pc (thIx cl th) + 1) % 16384 ∧
      (∀ c, c ∈ cores → t.getF .STP_STAT_STATE c = 3 ∧ t.coreTiles c = [] ∧ (cold = true → t.coreOn c = false)) ∧ t.cells = s.cells := by
  have hrow := exec_of_issues (now := now) (c := .drst now cl th w) h rfl (by decide)
  have hcells : (s.issued now (thIx cl th) w).cells = s.cells := (s.issued_touches ..).same .cells
  have hpart : (s.issued now (thIx cl th) w).part ((s.issued now (thIx cl th) w).thOwner (thIx cl th)) = s.part (s.thOwner (thIx cl th)) := by
    rw [State.thOwner_issued, (s.issued_touches ..).part]
  rw [hcores, hcold] at hrow
  obtain ⟨c, hc⟩ := List.exists_mem_of_ne_nil cores hsome
  obtain ⟨p, hp, -⟩ := hmine c hc
  have hall : cores.all (fun c => p.cores.contains c) = true := by
    rw [List.all_eq_true]
    intro c hc
    obtain ⟨q, hq, hcq⟩ := hmine c hc
    rw [hp] at hq
    rw [Option.some.inj hq]
    exact List.contains_iff_mem.mpr hcq
  have hnil : cores.isEmpty = false := by simpa using hsome
  rw [hpart, hp] at hrow
  dsimp only at hrow
  rw [hall, if_neg (by decide), hnil, if_neg Bool.false_ne_true] at hrow
  have hpc := State.pc_issued s now (thIx cl th) w (thIx cl th)
  generalize s.issued now (thIx cl th) w = u at hrow hcells hpc
  obtain ⟨hin, hwithin⟩ := u.enterResets_spec cold cores
  generalize cores.foldl (fun u c => u.enterReset cold c) u = v at hrow hin hwithin
  obtain ⟨hst, hwk, hwait, hres, hnext, hkeep, hvc⟩ := v.resetWaits_spec (thIx cl th) (v.pc (thIx cl th) + 1) cold cores
  have hvpc : v.pc (thIx cl th) = s.pc (thIx cl th) := (show _ = u.pc (thIx cl th) from hwithin.getF _ _).trans hpc
  refine ⟨_, hrow, hst, hwk, hwait, hres, hnext.trans (by rw [hvpc]), fun c hc => ?_,
    hvc.trans ((show _ = u.cells from hwithin.touch.same .cells).trans hcells)⟩
  obtain ⟨hstat, htiles, hoff⟩ := hkeep c (hin c hc)
  exact ⟨hstat, htiles, hoff⟩

omit hmine in
theorem drst_nothing (hnone : cores = []) :
    ∃ t, exec (.drst now cl th w) s = .next t ∧ t.thState (thIx cl th) = 2 ∧ t.pred (thIx cl th) 7 = true ∧
      t.pc (thIx cl th) = (s.pc (thIx cl th) + 1) % 16384 ∧ t.resets = s.resets := by
  have hrow := exec_of_issues (now := now) (c := .drst now cl th w) h rfl (by decide)
  rw [hcores, hcold, hnone] at hrow
  have hres : (s.issued now (thIx cl th) w).resets = s.resets := (s.issued_touches ..).same .resets
  have hpc := State.pc_issued s now (thIx cl th) w (thIx cl th)
  have hrun := (State.thState_issued s now (thIx cl th) w (thIx cl th)).trans h.1
  generalize s.issued now (thIx cl th) w = u at hrow hres hpc hrun
  obtain ⟨hpred, hnext, hst, ht⟩ := u.setPred_setPc_spec (thIx cl th) (u.pc (thIx cl th) + 1) true
  refine ⟨_, hrow.trans (congrArg Host.Outcome.next ((if_neg ?_).trans (if_pos rfl))), hst.trans hrun, hpred, hnext.trans (by rw [hpc]),
    (show _ = u.resets from ht.same .resets).trans hres⟩
  intro hb
  split at hb
  · exact Bool.false_ne_true hb
  · exact Bool.false_ne_true hb

end Drst

/-- A core comes back into service unless another reset holds it. -/
def State.coreBack (t : State) (c : Nat) : State :=
  if t.resets.any (fun q => q.cores.contains c) then t else t.setF .STP_STAT_STATE c 1

theorem State.coreBack_within (t : State) (c : Nat) : Within ⟨[.regs], [.STP_STAT_STATE]⟩ t (t.coreBack c) :=
  Within.ite _ (Within.refl _ _) (State.setF_within ..)

theorem State.coreBack_resets (t : State) (c : Nat) : (t.coreBack c).resets = t.resets := (t.coreBack_within c).touch.same .resets

/-- Cores that no other reset holds are in service again. -/
theorem State.coresBack_spec (s : State) {cores : List Nat} {c : Nat} (hc : c ∈ cores) (hfree : ∀ q, q ∈ s.resets → c ∉ q.cores) :
    (cores.foldl State.coreBack s).getF .STP_STAT_STATE c = 1 := by
  have hone (t : State) : (t.setF .STP_STAT_STATE c 1).getF .STP_STAT_STATE c = 1 := State.getF_setF_same ..
  have hany : s.resets.any (fun q => q.cores.contains c) = false := by
    rw [List.any_eq_false]
    intro q hq hx
    exact hfree q hq (List.contains_iff_mem.mp hx)
  refine foldl_establishes State.coreBack (fun t => t.resets = s.resets → t.getF .STP_STAT_STATE c = 1) (fun t k ht hr => ?_) hc
    (fun t hr => ?_) s ((Within.foldl (w := ⟨[.regs], [.STP_STAT_STATE]⟩) _ (fun t k => t.coreBack_within k) cores s).touch.same .resets)
  · have hold := ht ((t.coreBack_resets k).symm.trans hr)
    unfold State.coreBack
    split
    · exact hold
    · by_cases hk : k = c
      · rw [hk, hone]
      · rw [State.getF_setF_ne _ _ (fun hx => hk hx.2), hold]
  · rw [t.coreBack_resets] at hr
    unfold State.coreBack
    rw [hr, hany, if_neg Bool.false_ne_true, hone]

def ThreadWait.isReset : ThreadWait → Bool
  | .reset _ _ => true
  | _ => false

theorem domainResetDone_ends {now : Nat} {cl : Cluster} {th : Thread} {s : State} {r : DomReset} {v : ThreadState}
    (hv : s.thread (thIx cl th) = v) (hr : s.resets.find? (fun q => q.th == thIx cl th) = some r)
    (hback : ∀ c, c ∈ r.cores → (s.advance now).backInService r.cold c = true) :
    ∃ t, exec (.domainResetDone now cl th) s = .next t ∧ t.resets = s.resets.erase r ∧
      (∀ c, c ∈ r.cores → (∀ q, q ∈ s.resets.erase r → c ∉ q.cores) → t.getF .STP_STAT_STATE c = 1) ∧
      ((∃ cold cs, v.wait = .reset cold cs) → (∀ q, q ∈ s.resets.erase r → q.th ≠ thIx cl th) →
        t.thState (thIx cl th) = (if v.stop = true then 5 else if v.halt = true then 4 else 2) ∧ t.pred (thIx cl th) 7 = true) ∧
      KeepsBytes s t nowhere := by
  have hr' : (s.advance now).resets.find? (fun q => q.th == thIx cl th) = some r := hr
  have hfind : exec (.domainResetDone now cl th) s = execDomainResetDone now cl th s := rfl
  unfold execDomainResetDone at hfind
  dsimp only at hfind
  rw [hr'] at hfind
  dsimp only at hfind
  rw [if_pos (List.all_eq_true.mpr hback)] at hfind
  have hw : Touches [.resets] (s.advance now) { s.advance now with resets := (s.advance now).resets.erase r } := Touches.of_withParts rfl
  have hres : ({ s.advance now with resets := (s.advance now).resets.erase r } : State).resets = s.resets.erase r := rfl
  have hbytes : KeepsBytes s { s.advance now with resets := (s.advance now).resets.erase r } nowhere := .of_sram_eq rfl _
  have hthread : ({ s.advance now with resets := (s.advance now).resets.erase r } : State).thread (thIx cl th) = v := hv
  generalize ({ s.advance now with resets := (s.advance now).resets.erase r } : State) = a at hfind hw hres hbytes hthread
  replace hfind : exec (.domainResetDone now cl th) s = .next (if (((r.cores.foldl State.coreBack a).thread (thIx cl th)).wait.isReset &&
      (r.cores.foldl State.coreBack a).resets.all (fun q => q.th != thIx cl th)) = true then (r.cores.foldl State.coreBack a).resume (thIx cl th) true
      else r.cores.foldl State.coreBack a) := hfind
  have hall : Within ⟨[.regs], [.STP_STAT_STATE]⟩ a (r.cores.foldl State.coreBack a) := Within.foldl _ (fun t k => t.coreBack_within k) _ _
  have hback' (c : Nat) (hc : c ∈ r.cores) (hfree : ∀ q, q ∈ s.resets.erase r → c ∉ q.cores) :
      (r.cores.foldl State.coreBack a).getF .STP_STAT_STATE c = 1 := a.coresBack_spec hc (by rw [hres]; exact hfree)
  generalize r.cores.foldl State.coreBack a = b at hfind hall hback'
  have hbth : b.thread (thIx cl th) = v := (hall.touch.thread _).trans hthread
  have hbres : b.resets = s.resets.erase r := (show _ = a.resets from hall.touch.same .resets).trans hres
  have hbb : KeepsBytes s b nowhere := hbytes.trans (.of_within hall)
  have hgo := b.resume_within (thIx cl th) true
  obtain ⟨hpred, hst, -⟩ := b.resume_spec (thIx cl th) true
  rw [hbth] at hst
  rw [hbth, hbres] at hfind
  cases hend : v.wait.isReset && (s.resets.erase r).all (fun q => q.th != thIx cl th) with
  | true =>
    rw [hend, if_pos rfl] at hfind
    exact ⟨_, hfind, (show _ = b.resets from hgo.touch.same .resets).trans hbres, fun c hc hfree => (hgo.getF _ _).trans (hback' c hc hfree),
      fun _ _ => ⟨hst, hpred⟩, hbb.trans (.of_within hgo)⟩
  | false =>
    rw [hend, if_neg Bool.false_ne_true] at hfind
    refine ⟨_, hfind, hbres, hback', ?_, hbb⟩
    rintro ⟨cold, cs, hwait⟩ hfree
    have hpos : (v.wait.isReset && (s.resets.erase r).all (fun q => q.th != thIx cl th)) = true := by
      rw [hwait, Bool.and_eq_true, List.all_eq_true]
      exact ⟨rfl, fun q hq => bne_iff_ne.mpr (hfree q hq)⟩
    rw [hpos] at hend
    exact absurd hend.symm Bool.false_ne_true

/-! ### Mailbox posts (R207) -/

theorem State.foldl_words (f : Fld) (base : Nat) (ws : List Nat) (j : Nat) (s : State) :
    let t := (ws.zipIdx j).foldl (fun t p => t.setF f (base + p.2) p.1) s
    (∀ k, k < j → t.getF f (base + k) = s.getF f (base + k)) ∧ ∀ k (h : k < ws.length), t.getF f (base + (j + k)) = ws[k] % 2 ^ f.width := by
  induction ws generalizing j s with
  | nil => exact ⟨fun _ _ => rfl, fun k h => absurd h (Nat.not_lt_zero k)⟩
  | cons w ws ih =>
    obtain ⟨hlow, hhigh⟩ := ih (j + 1) (s.setF f (base + j) w)
    rw [List.zipIdx_cons, List.foldl_cons]
    refine ⟨fun k hk => ?_, fun k hk => ?_⟩
    · rw [hlow k (by omega), State.getF_setF_ne _ _ (by omega)]
    · cases k with
      | zero => exact (hlow j (by omega)).trans (State.getF_setF_same ..)
      | succ k =>
        have h := hhigh k (Nat.lt_of_succ_lt_succ hk)
        rw [show j + 1 + k = j + (k + 1) by omega] at h
        exact h

theorem State.mbxStore_word {s : State} {ch : Nat} {ws : List Nat} {k : Nat} (hk : k < ws.length) :
    (s.mbxStore ch ws).getF .MBX_CH_DATA_WORD (ch * 16 + k) = ws[k] % 2 ^ 32 := by
  have h := (State.foldl_words .MBX_CH_DATA_WORD (ch * 16) ws 0 s).2 k hk
  rw [Nat.zero_add] at h
  exact h

/-- The words of a post stand in the channel. -/
theorem State.mbxAccept_word {s : State} {ch : Nat} {ws : List Nat} {k : Nat} (hk : k < ws.length) :
    (s.mbxAccept ch ws).getF .MBX_CH_DATA_WORD (ch * 16 + k) = ws[k] % 2 ^ 32 := by
  unfold State.mbxAccept
  extract_lets _ a v w
  have hv : v.getF .MBX_CH_DATA_WORD (ch * 16 + k) = ws[k] % 2 ^ 32 := State.mbxStore_word hk
  have hw : Within ⟨[.regs], [.MBX_CH_STAT_FULL, .MBX_CH_STAT_TMO, .MBX_CH_STAT_DISCARD, .MBX_CH_STAT_NWORDS, .MBX_CH_STAT_POSTS]⟩ v w :=
    (State.addWrap_within ..).after ((State.setF_within ..).after ((State.setF_within ..).after ((State.setF_within ..).after
      ((State.setF_within ..).mono))))
  exact ((State.mbxWake_within ..).getF _ _).trans ((hw.getF _ _).trans hv)

section Mpost
variable {now : Nat} {cl : Cluster} {th : Thread} {w : Word} {s : State} {p : Partition} {f : Fields} {ch : Nat}
  (hf : fieldsOf w = f) (hch : bits f.low 5 0 = ch) (h : Issues s (thIx cl th) 0x24 w 1)
  (hp : s.part (s.thOwner (thIx cl th)) = some p) (hmine : (ch, thIx cl th) ∈ p.chans)
include hf hch h hp hmine

/-- The row of a channel that the partition may post to. -/
theorem mpost_row : exec (.mpost now cl th w) s = .next
    (if ((s.advance now).mbxTakes ch && s.mbxBound ch && s.mbxSender ch == 0x10 + cl.val) = true then
      (((s.issued now (thIx cl th) w).mbxAccept ch
        ((List.range (f.ra + 1)).map (fun k => (s.greg (thIx cl th) ((f.rd + k) % 16)).toNat))).setPred (thIx cl th) 7 true).setPc (thIx cl th)
          (s.pc (thIx cl th) + 1)
    else ((s.issued now (thIx cl th) w).setPred (thIx cl th) 7 false).setPc (thIx cl th) (s.pc (thIx cl th) + 1)) := by
  subst hf hch
  have hrow := exec_of_issues (now := now) (c := .mpost now cl th w) h rfl (by decide)
  have hpart : (s.issued now (thIx cl th) w).part ((s.issued now (thIx cl th) w).thOwner (thIx cl th)) = some p := by
    rw [State.thOwner_issued, (s.issued_touches ..).part, hp]
  have htakes : (s.issued now (thIx cl th) w).mbxTakes (bits (fieldsOf w).low 5 0) = (s.advance now).mbxTakes (bits (fieldsOf w).low 5 0) := by
    rw [State.issued_only]
    rfl
  have hbound : (s.issued now (thIx cl th) w).mbxBound (bits (fieldsOf w).low 5 0) = s.mbxBound (bits (fieldsOf w).low 5 0) := State.bit_issued ..
  have hsender : (s.issued now (thIx cl th) w).mbxSender (bits (fieldsOf w).low 5 0) = s.mbxSender (bits (fieldsOf w).low 5 0) := State.getF_issued ..
  rw [hpart] at hrow
  dsimp only at hrow
  rw [List.contains_iff_mem.mpr hmine, if_neg (by decide), htakes, hbound, hsender, State.pc_issued] at hrow
  simp only [State.greg_issued] at hrow
  rw [hrow]
  rw [Bool.and_assoc]
  generalize (s.advance now).mbxTakes _ = takes
  generalize (s.mbxBound (bits (fieldsOf w).low 5 0) && s.mbxSender (bits (fieldsOf w).low 5 0) == 0x10 + cl.val) = mine
  cases takes with
  | false => rfl
  | true =>
    cases mine with
    | false => rfl
    | true => rfl

theorem mpost_posts (hok : ((s.advance now).mbxTakes ch && s.mbxBound ch && s.mbxSender ch == 0x10 + cl.val) = true) :
    ∃ t, exec (.mpost now cl th w) s = .next t ∧ t.mbxFull ch = true ∧ t.getF .MBX_CH_STAT_NWORDS ch = (f.ra + 1) % 32 ∧
      t.pred (thIx cl th) 7 = true ∧ t.pc (thIx cl th) = (s.pc (thIx cl th) + 1) % 16384 ∧
      (∀ k, k < f.ra + 1 → t.getF .MBX_CH_DATA_WORD (ch * 16 + k) = (s.greg (thIx cl th) ((f.rd + k) % 16)).toNat) ∧
      KeepsBytes s t nowhere := by
  have hrow := mpost_row (now := now) hf hch h hp hmine
  rw [hok, if_pos rfl] at hrow
  have hra : f.ra < 16 := hf ▸ (((w.extractLsb' 13 4).isLt : (fieldsOf w).ra < 16))
  have hbytes := s.issued_bytes now (thIx cl th) w
  have hwords (k : Nat) : (s.greg (thIx cl th) ((f.rd + k) % 16)).toNat < 2 ^ 32 := BitVec.isLt _
  generalize hg : (fun k => (s.greg (thIx cl th) ((f.rd + k) % 16)).toNat) = g at hrow
  generalize s.issued now (thIx cl th) w = u at hrow hbytes
  have hlen : ((List.range (f.ra + 1)).map g).length = f.ra + 1 := by rw [List.length_map, List.length_range]
  obtain ⟨hfull, hn⟩ := u.mbxAccept_spec ch (ws := (List.range (f.ra + 1)).map g) (by omega)
  have hdata (k : Nat) (hk : k < f.ra + 1) := State.mbxAccept_word (s := u) (ch := ch) (hlen.symm ▸ hk)
  have hw := u.mbxAccept_within ch ((List.range (f.ra + 1)).map g)
  generalize u.mbxAccept ch ((List.range (f.ra + 1)).map g) = v at hrow hfull hn hdata hw
  obtain ⟨hpred, hpc, -, -⟩ := v.setPred_setPc_spec (thIx cl th) (s.pc (thIx cl th) + 1) true
  have hend : Within ⟨[.regs], [.CSQ_TH_PRED_P, .CSQ_TH_STAT_PC]⟩ v ((v.setPred (thIx cl th) 7 true).setPc (thIx cl th) (s.pc (thIx cl th) + 1)) :=
    (State.setPc_within ..).after ((State.setPred_within ..).mono)
  refine ⟨_, hrow, ?_, ?_, hpred, hpc, fun k hk => ?_, hbytes.trans ((KeepsBytes.of_within hw).trans (.of_within hend))⟩
  · unfold State.mbxFull at *
    rw [hend.bit _ _]
    exact hfull
  · rw [hend.getF _ _, hn, hlen, Nat.mod_eq_of_lt (by omega)]
  · rw [hend.getF _ _, hdata k hk, List.getElem_map, List.getElem_range, ← hg]
    exact Nat.mod_eq_of_lt (hwords k)

theorem mpost_refused (hno : ((s.advance now).mbxTakes ch && s.mbxBound ch && s.mbxSender ch == 0x10 + cl.val) = false) :
    ∃ t, exec (.mpost now cl th w) s = .next t ∧ t.pred (thIx cl th) 7 = false ∧ t.pc (thIx cl th) = (s.pc (thIx cl th) + 1) % 16384 ∧
      t.channels = s.channels ∧
      ThreadOnly (s.advance now) t (fun g j => (g == .CSQ_TH_PRED_P || g == .CSQ_TH_STAT_PC) && j == thIx cl th) := by
  have hrow := mpost_row (now := now) hf hch h hp hmine
  rw [hno, if_neg Bool.false_ne_true] at hrow
  have honly : ThreadOnly (s.advance now) (s.issued now (thIx cl th) w)
      (fun g j => (g == .CSQ_TH_PRED_P || g == .CSQ_TH_STAT_PC) && j == thIx cl th) := ThreadOnly.traceTh ..
  have hchannels : (s.issued now (thIx cl th) w).channels = s.channels := (s.issued_touches ..).same .channels
  generalize s.issued now (thIx cl th) w = u at hrow honly hchannels
  obtain ⟨hpred, hpc, -, ht⟩ := u.setPred_setPc_spec (thIx cl th) (s.pc (thIx cl th) + 1) false
  exact ⟨_, hrow, hpred, hpc, (show _ = u.channels from ht.same .channels).trans hchannels, (honly.setF (by simp) _).setF (by simp) _⟩

end Mpost

/-- Settles O37: BAR, BCAST, SNAP, DRST and MPOST, and what ends them. -/
theorem sequencerGroups : Obligations.SequencerGroups := by
  unfold Obligations.SequencerGroups
  refine ⟨⟨?_, ?_, ?_, ?_, ?_⟩, ?_, ?_, ?_, ?_, ?_⟩
  · exact fun now cl th w s h hgood => ⟨bar_waits rfl rfl h hgood, bar_missed rfl rfl h hgood⟩
  · exact fun now g s b hb => barrierRelease_ends rfl rfl hb
  · exact fun now g s b hb => barrierTimeout_ends rfl hb
  · exact fun now cl th w s h hgood hmet => ⟨bcast_arrives rfl rfl rfl rfl h hgood hmet, bcast_secondRoot rfl rfl rfl rfl h hgood hmet⟩
  · exact fun now g s b v hb hv hhere hrounds hbcast _ => bcastDeliver_ends rfl rfl hb hv hhere hrounds hbcast
  · exact fun now cl th w s d h hd hown hgood hmet => snap_stops rfl h hd hown hgood hmet
  · exact fun now cl th s n d b hwait hd hb hi hhere hrounds => snapshotDone_ends rfl hwait hd hb hi hhere hrounds
  · exact fun now cl th w s h hmine => ⟨drst_resets rfl rfl h hmine, drst_nothing rfl rfl h⟩
  · exact fun now cl th s r hr hback => domainResetDone_ends rfl hr hback
  · exact fun now cl th w s p h hp hmine => ⟨mpost_posts rfl rfl h hp hmine, mpost_refused rfl rfl h hp hmine⟩

end Sys2Proof.Machine
end

section
/-!
PROOF. Function-level resets (R318, R320, O44).
-/

set_option Elab.async false

namespace Sys2Proof.Machine
open Sys2Proof

/-! ### What a function in its reset keeps (R318) -/

/-- Every function's state is alike in both states, and one in its reset is sent neither messages nor completions. -/
structure FnsHeld (s t : State) : Prop where
  alike : FnsAlike s t
  quiet (f : Nat) (h : (s.fnst f).flr.isSome = true) : (t.fnst f).messages = (s.fnst f).messages ∧ (t.fnst f).waiting = (s.fnst f).waiting

theorem FnsHeld.refl (s : State) : FnsHeld s s := ⟨.refl s, fun _ _ => ⟨rfl, rfl⟩⟩

theorem FnsHeld.trans {s t u : State} (h : FnsHeld s t) (k : FnsHeld t u) : FnsHeld s u := by
  refine ⟨h.alike.trans k.alike, fun f hf => ?_⟩
  obtain ⟨hm, hw⟩ := h.quiet f hf
  obtain ⟨km, kw⟩ := k.quiet f (by rw [(h.alike.fn f).flr]; exact hf)
  exact ⟨km.trans hm, kw.trans hw⟩

theorem FnsHeld.of_fns_eq {s t : State} (h : t.fns = s.fns) : FnsHeld s t := by
  refine ⟨.of_fns_eq h, fun f _ => ?_⟩
  unfold State.fnst
  rw [h]
  exact ⟨rfl, rfl⟩

theorem FnsHeld.of_within {w : Writes} {s t : State} (h : Within w s t) (hw : w.parts.contains .fns = false := by decide) : FnsHeld s t :=
  .of_fns_eq (show t.fns = s.fns from h.touch.same .fns hw)

theorem FnsHeld.setFn (s : State) {f : Nat} {x : Function} (h : Function.Alike (s.fnst f) x)
    (hq : (s.fnst f).flr.isSome = true → x.messages = (s.fnst f).messages ∧ x.waiting = (s.fnst f).waiting) : FnsHeld s (s.setFn f x) := by
  refine ⟨.setFn s h, fun g hg => ?_⟩
  by_cases hfg : f = g
  · rw [← hfg] at hg ⊢
    rw [State.fnst_setFn_same]
    exact hq hg
  · rw [State.fnst_setFn_ne _ _ _ hfg]
    exact ⟨rfl, rfl⟩

theorem FnsHeld.foldl {α : Type} {g : State → α → State} (hg : ∀ s a, FnsHeld s (g s a)) (l : List α) (s : State) : FnsHeld s (l.foldl g s) := by
  induction l generalizing s with
  | nil => exact .refl s
  | cons a l ih => exact (hg s a).trans (ih _)

theorem FnsHeld.ite {s t u : State} {c : Prop} [Decidable c] (ht : FnsHeld s t) (hu : FnsHeld s u) : FnsHeld s (if c then t else u) := by
  split
  · exact ht
  · exact hu

theorem State.service_held (s : State) (f code : Nat) (ws : List Word) : FnsHeld s (s.service f code ws) := by
  unfold State.service
  extract_lets x msg u
  have hu : FnsHeld s u := .setFn s (x := { x with seq := _ }) ⟨rfl, rfl, rfl, rfl, rfl, rfl⟩ (fun _ => ⟨rfl, rfl⟩)
  have hx : u.fnst f = { x with seq := (x.seq + 1) % 65536 } := State.fnst_setFn_same ..
  split
  · exact .refl s
  next hno =>
    refine .ite (hu.trans (.of_within (State.svcFill_within ..))) (.ite (hu.trans ?_) (hu.trans (.of_within (State.addHold_within ..))))
    refine .setFn u (x := { u.fnst f with messages := _ }) ⟨rfl, rfl, rfl, rfl, rfl, rfl⟩ (fun hf => absurd ?_ hno)
    rw [hx] at hf
    exact hf

theorem State.complete_held (s : State) (f : Nat) (c : Completion) : FnsHeld s (s.complete f c) := by
  unfold State.complete
  extract_lets x
  split
  · exact .refl s
  next hno =>
    refine .ite ?_ (.setFn s (x := { x with waiting := _ }) ⟨rfl, rfl, rfl, rfl, rfl, rfl⟩ (fun hf => absurd (by simp [x, hf]) hno))
    unfold State.cplWrite
    extract_lets tail base last u v
    have hu : FnsHeld s u := .of_fns_eq rfl
    have hv : FnsHeld u v := .setFn u (x := { x with wrapped := _ }) ⟨rfl, rfl, rfl, rfl, rfl, rfl⟩ (fun _ => ⟨rfl, rfl⟩)
    have hend : Within ⟨[.regs, .out, .pba], [.CPL_TAIL_INDEX]⟩ v ((v.setF .CPL_TAIL_INDEX f ((tail + 1) % s.ringSize f)).msix f 0) :=
      (State.msix_within ..).after ((State.setF_within ..).mono)
    exact hu.trans (hv.trans (.of_within hend))

theorem State.reclaimEnd_held (s : State) (t : Nat) : FnsHeld s (s.reclaimEnd t) := by
  unfold State.reclaimEnd
  extract_lets x sts cs
  refine .ite (.refl s) ?_
  have hmaps : FnsHeld s { s with stations := sts, ctxs := cs } := .of_fns_eq rfl
  exact hmaps.trans <| FnsHeld.setFn { s with stations := sts, ctxs := cs }
    (x := { x with cut := none, released := 0, parked := 0, closed := 0 }) ⟨rfl, rfl, rfl, rfl, rfl, rfl⟩ (fun _ => ⟨rfl, rfl⟩)

theorem State.reclaimDone_held (s : State) (t : Nat) : FnsHeld s (s.reclaimDone t) := by
  unfold State.reclaimDone
  extract_lets x
  exact .ite ((s.service_held ..).trans (State.reclaimEnd_held ..)) (.refl s)

theorem State.reclaimGone_held (s : State) (t : Nat) : FnsHeld s (s.reclaimGone t) := by
  unfold State.reclaimGone
  extract_lets x p
  split
  · exact .refl s
  next c hc =>
    extract_lets left n
    exact (FnsHeld.setFn s (x := { x with cut := some left, released := x.released + n }) ⟨rfl, rfl, rfl, rfl, rfl, rfl⟩
      (fun _ => ⟨rfl, rfl⟩)).trans (State.reclaimDone_held ..)

theorem State.reclaimFit_held (s : State) (t : Nat) (late : Bool) : FnsHeld s (s.reclaimFit t late) := by
  unfold State.reclaimFit
  exact .ite (s.reclaimGone_held t) (.ite (s.reclaimEnd_held t) (.refl s))

theorem State.unloadFree_held (s : State) (owner : Nat) : FnsHeld s (s.unloadFree owner) := by
  obtain ⟨u, late, hu, -, -, heq⟩ := s.unloadFree_eq owner
  rw [heq]
  exact (FnsHeld.of_within hu).trans ((FnsHeld.of_within (State.setPart_within ..)).trans (State.reclaimFit_held ..))

theorem State.jobResult_held (s : State) (j : Job) (st clamped code : Nat) : FnsHeld s (s.jobResult j st clamped code) := by
  unfold State.jobResult
  extract_lets u v
  have hu : FnsHeld s u := .of_within (State.swapEnd_within ..)
  have hv : FnsHeld s v := .ite hu (hu.trans (.of_within (State.capture_within ..) rfl))
  refine hv.trans ?_
  unfold State.loaderAnswer
  split
  · exact State.complete_held ..
  · exact .refl v

theorem State.jobFail_held (s : State) (b : Nat) (x : Beaver) (code : Nat) : FnsHeld s (s.jobFail b x code) := by
  unfold State.jobFail
  extract_lets u v
  have hu : FnsHeld s u := by
    unfold u
    split
    · exact .of_within (State.setShard_within ..)
    · exact .refl s
  have hend : FnsHeld u v := by
    have hw : Within ⟨[.buckets, .bucketAt, .tokenHeld, .tokenWait, .beavers], []⟩ u
        (((u.setBeaver b (some x)).beaverStop b).loaderCharge x.job.owner (u.time - x.start)) :=
      (State.loaderCharge_within ..).after ((State.beaverStop_within ..).after ((State.setBeaver_within ..).mono))
    exact (FnsHeld.of_within hw).trans (State.jobResult_held ..)
  exact (hu.trans hend).trans (.ite (.of_within (State.queueOwn_within ..)) (.refl v))

theorem State.abortJobs_held (s : State) (owner : Nat) : FnsHeld s (s.abortJobs owner) := by
  unfold State.abortJobs
  extract_lets u v
  have hu : FnsHeld s u := .foldl (fun t j => .of_within (t.swapEnd_within j true)) _ _
  have hv : FnsHeld u v := .of_within (State.setJobQ_within ..)
  refine (hu.trans hv).trans (.foldl (fun t b => ?_) _ _)
  split
  · exact .ite (State.jobFail_held ..) (.refl t)
  · exact .refl t

/-! ### The steps of a function-level reset (R318, Table 11.11) -/

theorem State.flrBegin_spec (s : State) (t : Nat) :
    let u := s.flrBegin t
    (u.fnst t).flr = some s.time ∧ (u.fnst t).entries = [] ∧ (u.fnst t).messages = [] ∧ (u.fnst t).waiting = [] ∧
      (u.fnst t).accepted = (s.fnst t).accepted.filter (fun e => entryOp e != 0x01) ∧ (u.fnst t).enabled = (s.fnst t).enabled ∧
      (∀ g, g ≠ t → Function.Alike (s.fnst g) (u.fnst g)) := by
  unfold State.flrBegin
  extract_lets x u v
  have hv : v.fnst t = { x with flr := some u.time, entries := [], held := 0, accepted := x.accepted.filter (fun e => entryOp e != 0x01), waiting := [], messages := [], consent := false } :=
    State.fnst_setFn_same ..
  have hvo (g : Nat) (hg : g ≠ t) : v.fnst g = s.fnst g := State.fnst_setFn_ne _ _ _ (Ne.symm hg)
  have hx : x.enabled = (s.fnst t).enabled ∧ x.accepted = (s.fnst t).accepted := ⟨rfl, rfl⟩
  have hu : u.time = s.time := rfl
  clear_value v x u
  have hend := v.reclaimEnd_held t
  have hal := hend.alike.fn t
  obtain ⟨hm, hw⟩ := hend.quiet t (by rw [hv]; rfl)
  refine ⟨hal.flr.trans (by rw [hv, hu]), hal.entries.trans (by rw [hv]), hm.trans (by rw [hv]), hw.trans (by rw [hv]),
    hal.accepted.trans (by rw [hv, hx.2]), hal.enabled.trans (by rw [hv, hx.1]), fun g hg => ?_⟩
  have hg' := hend.alike.fn g
  rw [hvo g hg] at hg'
  exact hg'

theorem State.flrDrop_held (s : State) (t : Nat) : FnsHeld s (s.flrDrop t) := by
  unfold State.flrDrop
  extract_lets _ _ _ _ u v
  have hu : FnsHeld s u := .of_fns_eq rfl
  have hv : FnsHeld u v := .foldl (fun a p => .of_within (a.linkDrop_within t p)) _ _
  exact (hu.trans hv).trans (State.abortJobs_held ..)

/-- What the stop of a partition leaves before it is unloaded. -/
def State.flrStopWrites : Writes := ⟨State.flrPartitionWrites.parts.filter (fun p => p != .fns && p != .parts), State.flrPartitionWrites.flds⟩

/-- The partition stops, is unloaded, and its memory is zeroed. -/
theorem State.flrPartition_spec (s : State) (t : Nat) :
    let u := s.flrPartition t
    FnsHeld s u ∧ (∀ o, u.part o = if o = t then none else s.part o) ∧
      (∀ e, e ∈ (s.partOf t).cm → ∀ k, k < e.2.2 → u.byte (cmBase e.1 + e.2.1 + k) = 0) ∧
      (∀ e, e ∈ (s.partOf t).km → ∀ k, k < e.2.2 → u.byte (kmBase e.1 + e.2.1 + k) = 0) := by
  unfold State.flrPartition
  extract_lets p u cs v w x y
  have hu : Within State.flrStopWrites s u := Within.foldl _ (fun _ _ => (State.warmReset_within ..).mono) _ _
  have hv : Within State.flrStopWrites s v := (State.unloadStop_within ..).after hu
  have hw : Within State.flrStopWrites s w := Within.trans hv (Within.foldl _ (fun _ _ => (State.setCtx_within ..).mono) _ _)
  have hwpart (o : Nat) : w.part o = s.part o := hw.touch.part o
  have hx : FnsHeld s x := (FnsHeld.of_within hw).trans (.ite (w.unloadFree_held t) (.refl w))
  have hxpart (o : Nat) : x.part o = if o = t then none else s.part o := by
    by_cases ho : o = t
    · rw [if_pos ho, ho]
      cases hsome : (w.part t).isSome with
      | true =>
        rw [show x = w.unloadFree t from if_pos hsome]
        unfold State.part
        rw [w.unloadFree_parts, smapGet_set_same]
      | false =>
        rw [show x = w from if_neg (by rw [hsome]; exact Bool.false_ne_true)]
        exact Option.isNone_iff_eq_none.mp (by rw [← Option.not_isSome, hsome]; rfl)
    · rw [if_neg ho, ← hwpart o]
      have hfree : (w.unloadFree t).part o = w.part o := by
        unfold State.part
        rw [w.unloadFree_parts, smapGet_set_ne _ _ (Ne.symm ho)]
      unfold x
      split
      · exact hfree
      · rfl
  clear_value x
  have hzero (b n a : Nat) (z : State) (h : z.byte a = 0) : (z.zeroFill b n).byte a = 0 := by
    rw [State.byte_zeroFill, h, ite_self]
  have hz (a : Nat) (l : List (Nat × Nat × Nat)) (base : Nat → Nat) (z : State) (h : z.byte a = 0) :
      (l.foldl (fun q e => q.zeroFill (base e.1 + e.2.1) e.2.2) z).byte a = 0 :=
    List.foldlRecOn (motive := fun q : State => q.byte a = 0) _ _ h (fun q hq e _ => hzero _ _ _ q hq)
  have hset (l : List (Nat × Nat × Nat)) (base : Nat → Nat) (z : State) {e : Nat × Nat × Nat} (he : e ∈ l) {k : Nat} (hk : k < e.2.2) :
      (l.foldl (fun q e => q.zeroFill (base e.1 + e.2.1) e.2.2) z).byte (base e.1 + e.2.1 + k) = 0 := by
    refine foldl_establishes (fun (q : State) e => q.zeroFill (base e.1 + e.2.1) e.2.2) (fun q => q.byte _ = 0) (fun q e hq => hzero _ _ _ q hq) he
      (fun q => ?_) z
    rw [State.byte_zeroFill, if_pos ⟨Nat.le_add_right _ _, Nat.add_lt_add_left hk _⟩]
  have hyw : Within ⟨[.sram, .ecc], []⟩ x y := Within.foldl _ (fun _ _ => State.zeroFill_within ..) _ _
  have hend (z : State) : Within ⟨[.sram, .ecc], []⟩ z (p.km.foldl (fun q e => q.zeroFill (kmBase e.1 + e.2.1) e.2.2) z) :=
    Within.foldl _ (fun _ _ => State.zeroFill_within ..) _ _
  refine ⟨hx.trans ((FnsHeld.of_within hyw).trans (.of_within (hend y))), fun o => ?_, fun e he k hk => ?_, fun e he k hk => hset p.km kmBase y he hk⟩
  · rw [(hend y).touch.part, hyw.touch.part]
    exact hxpart o
  · exact hz _ p.km kmBase y (hset p.cm cmBase x he hk)

/-- The per-function registers of a function hold their reset values; those of the others stay. -/
theorem State.fnRegsReset_getF {s : State} {fn i : Nat} {f : Fld}
    (hf : (fnRegs.flatMap (fun r => r.fields.map (fun g => (g.code, r.perFn)))).find? (fun c => c.1 == f.code) = some (f.code, 1)) :
    (s.fnRegsReset fn).getF f i = if i = fn then f.info.rst else s.getF f i := by
  have hcode : keyCode (fkey f i) = f.code := by
    unfold keyCode fkey
    have := f.code_lt
    omega
  have hrep : keyRep (fkey f i) = i := by
    unfold keyRep fkey
    have := f.code_lt
    omega
  refine (smapGet_filter_key f.info.rst s.regs (fun k =>
    match (fnRegs.flatMap (fun r => r.fields.map (fun g => (g.code, r.perFn)))).find? (fun c => c.1 == keyCode k) with
    | some c => keyRep k / c.2 != fn
    | none => true) (fkey f i)).trans ?_
  rw [hcode, hf]
  dsimp only
  rw [hrep]
  by_cases hi : i = fn
  · rw [if_neg (by simp [hi]), if_pos hi]
  · rw [if_pos (by simp [hi]), if_neg hi]
    rfl

theorem State.fnRegsReset_touches (s : State) (fn : Nat) : Touches [.regs] s (s.fnRegsReset fn) := Touches.of_withParts rfl

theorem State.flrWindow_spec (s : State) (t : Nat) :
    let u := s.flrWindow t
    FnsHeld s u ∧ u.parts = s.parts ∧ u.sram = s.sram ∧ u.cells = s.cells ∧ u.lc = s.lc ∧ u.time = s.time ∧
      u.numVfs = s.numVfs ∧ u.regs = ((s.mbxReset (fnMaster t)).fnRegsReset t).regs := by
  unfold State.flrWindow
  extract_lets u _ v e1 e2
  have hm := s.mbxReset_within (fnMaster t)
  have hr : Touches [.regs] (s.mbxReset (fnMaster t)) u := State.fnRegsReset_touches ..
  have hall : Touches State.mbxResetWrites.parts s u := hr.after hm.touch
  have hu : FnsHeld s u := .of_fns_eq (hall.same .fns)
  have huparts : u.parts = s.parts ∧ u.sram = s.sram ∧ u.cells = s.cells ∧ u.lc = s.lc ∧ u.time = s.time ∧ u.numVfs = s.numVfs :=
    ⟨hall.same .parts, hall.same .sram, hall.same .cells, hall.same .lc, hall.same .time, hall.same .numVfs⟩
  have hregs : u.regs = ((s.mbxReset (fnMaster t)).fnRegsReset t).regs := rfl
  clear_value u
  have hv : FnsHeld u v := .setFn u (x := { u.fnst t with wrapped := false, seq := 0 }) ⟨rfl, rfl, rfl, rfl, rfl, rfl⟩ (fun _ => ⟨rfl, rfl⟩)
  obtain ⟨hparts, hsram, hcells, hlc, htime, hnum⟩ := huparts
  exact ⟨(hu.trans hv).trans (.of_fns_eq rfl), hparts, hsram, hcells, hlc, htime, hnum, hregs⟩

/-- A per-function register with one field value for each function. -/
def Fld.ofFn (f : Fld) : Bool :=
  (fnRegs.flatMap (fun r => r.fields.map (fun g => (g.code, r.perFn)))).find? (fun c => c.1 == f.code) == some (f.code, 1)

/-- What a function-level reset leaves (Table 11.11). -/
structure FnReset (t : Nat) (s u : State) : Prop where
  flr : (u.fnst t).flr = some s.time
  entries : (u.fnst t).entries = []
  messages : (u.fnst t).messages = []
  waiting : (u.fnst t).waiting = []
  accepted : (u.fnst t).accepted = (s.fnst t).accepted.filter (fun e => entryOp e != 0x01)
  enabled : (u.fnst t).enabled = (s.fnst t).enabled
  others (g : Nat) (hg : g ≠ t) : Function.Alike (s.fnst g) (u.fnst g)
  part (o : Nat) : u.part o = if o = t then none else s.part o
  regs (f : Fld) (hf : f.ofFn = true) : u.getF f t = f.info.rst
  cfg (g : Nat) (hg : g ≠ t) : u.getF .CMD_CFG_EN g = s.getF .CMD_CFG_EN g
  cm (p : Partition) (hp : s.part t = some p) (e : Nat × Nat × Nat) (he : e ∈ p.cm) (k : Nat) (hk : k < e.2.2) :
    u.byte (cmBase e.1 + e.2.1 + k) = 0
  km (p : Partition) (hp : s.part t = some p) (e : Nat × Nat × Nat) (he : e ∈ p.km) (k : Nat) (hk : k < e.2.2) :
    u.byte (kmBase e.1 + e.2.1 + k) = 0
  cells : u.cells = s.cells
  lc : u.lc = s.lc
  time : u.time = s.time

/-- What a function-level reset does before it frees the partition. -/
def State.flrTakeWrites : Writes := ⟨State.flrBeginWrites.parts ++ State.flrDropWrites.parts, .POS_TRG_CFG_EN :: .POS_TRG_STAT_OWNER :: State.flrDropWrites.flds⟩

theorem State.flr_spec (s : State) (t : Nat) : FnReset t s (s.flr t) := by
  obtain ⟨hflr, hentries, hmessages, hwaiting, haccepted, henabled, hothers⟩ := s.flrBegin_spec t
  have hbegin := s.flrBegin_within t
  have heq : s.flr t = (((((s.flrBegin t).flrDrop t).freeTriggers t).flrPartition t).flrWindow t) := rfl
  rw [heq]
  clear heq
  generalize s.flrBegin t = a at *
  have htake : Within State.flrTakeWrites s ((a.flrDrop t).freeTriggers t) :=
    (State.freeTriggers_within ..).after ((State.flrDrop_within ..).after hbegin.mono)
  have hheld : FnsHeld a ((a.flrDrop t).freeTriggers t) := (a.flrDrop_held t).trans (.of_within (State.freeTriggers_within ..))
  generalize (a.flrDrop t).freeTriggers t = b at *
  obtain ⟨hpheld, hpart, hcm, hkm⟩ := b.flrPartition_spec t
  have hpw := b.flrPartition_within t
  have hbpart (o : Nat) : b.part o = s.part o := htake.touch.part o
  have hpartOf (p : Partition) (hp : s.part t = some p) : b.partOf t = p := by
    unfold State.partOf
    rw [hbpart, hp]
    rfl
  generalize b.flrPartition t = c at *
  obtain ⟨hwheld, hwparts, hwsram, hwcells, hwlc, hwtime, -, hwregs⟩ := c.flrWindow_spec t
  have hm := c.mbxReset_within (fnMaster t)
  have hget (f : Fld) (i : Nat) (hf : f.ofFn = true) :
      (c.flrWindow t).getF f i = if i = t then f.info.rst else (c.mbxReset (fnMaster t)).getF f i := by
    rw [← State.fnRegsReset_getF (beq_iff_eq.mp hf)]
    unfold State.getF
    rw [hwregs]
  generalize c.mbxReset (fnMaster t) = m at *
  generalize c.flrWindow t = d at *
  have hall : FnsHeld a d := hheld.trans (hpheld.trans hwheld)
  obtain ⟨hm', hw'⟩ := hall.quiet t (by rw [hflr]; rfl)
  have hal := hall.alike.fn t
  have hbyte (x : Nat) : d.byte x = c.byte x := by
    unfold State.byte
    rw [hwsram]
  have hdpart (o : Nat) : d.part o = c.part o := by
    unfold State.part
    rw [hwparts]
  refine ⟨hal.flr.trans hflr, hal.entries.trans hentries, hm'.trans hmessages, hw'.trans hwaiting, hal.accepted.trans haccepted,
    hal.enabled.trans henabled, fun g hg => (hothers g hg).trans (hall.alike.fn g), fun o => ?_, fun f hf => ?_, fun g hg => ?_,
    fun p hp e he k hk => ?_, fun p hp e he k hk => ?_, ?_, ?_, ?_⟩
  · rw [hdpart, hpart, hbpart]
  · rw [hget f t hf, if_pos rfl]
  · rw [hget .CMD_CFG_EN g (by decide), if_neg hg, hm.getF _ _, hpw.getF _ _, htake.getF _ _]
  · rw [hbyte]
    exact hcm e (by rw [hpartOf p hp]; exact he) k hk
  · rw [hbyte]
    exact hkm e (by rw [hpartOf p hp]; exact he) k hk
  · exact hwcells.trans ((show c.cells = b.cells from hpw.touch.same .cells).trans (htake.touch.same .cells))
  · exact hwlc.trans ((show c.lc = b.lc from hpw.touch.same .lc).trans (htake.touch.same .lc))
  · exact hwtime.trans ((show c.time = b.time from hpw.touch.same .time).trans (htake.touch.same .time))

/-! ### Resets of several functions (R294, R320) -/

theorem State.mem_vfs {s : State} {f : Nat} : f ∈ s.vfs ↔ 1 ≤ f ∧ f ≤ 128 ∧ (s.fnst f).enabled = true := by
  unfold State.vfs
  simp only [List.mem_filterMap, List.mem_range]
  constructor
  · rintro ⟨i, hi, h⟩
    split at h
    next hen =>
      obtain rfl := Option.some.inj h
      exact ⟨by omega, by omega, hen⟩
    next => cases h
  · rintro ⟨h1, h2, hen⟩
    refine ⟨f - 1, by omega, ?_⟩
    rw [Nat.sub_add_cancel h1, if_pos hen]

/-- What the resets of several functions leave. -/
structure FnsReset (l : List Nat) (s u : State) : Prop where
  flr (g : Nat) (hg : g ∈ l) : (u.fnst g).flr = some s.time
  others (g : Nat) (hg : g ∉ l) : Function.Alike (s.fnst g) (u.fnst g)
  enabled (g : Nat) : (u.fnst g).enabled = (s.fnst g).enabled
  gone (o : Nat) (ho : o ∈ l) : u.part o = none
  kept (o : Nat) (ho : o ∉ l) : u.part o = s.part o
  cells : u.cells = s.cells
  lc : u.lc = s.lc
  time : u.time = s.time

theorem State.foldl_flr_spec (l : List Nat) (s : State) : FnsReset l s (l.foldl State.flr s) := by
  induction l generalizing s with
  | nil => exact ⟨fun g hg => (nomatch hg), fun _ _ => .refl _, fun _ => rfl, fun g hg => (nomatch hg), fun _ _ => rfl, rfl, rfl, rfl⟩
  | cons t l ih =>
    have hone := s.flr_spec t
    have hrest := ih (s.flr t)
    rw [List.foldl_cons]
    generalize l.foldl State.flr (s.flr t) = u at hrest ⊢
    generalize s.flr t = a at hone hrest
    refine ⟨fun g hg => ?_, fun g hg => ?_, fun g => ?_, fun o ho => ?_, fun o ho => ?_, hrest.cells.trans hone.cells, hrest.lc.trans hone.lc,
      hrest.time.trans hone.time⟩
    · by_cases hgl : g ∈ l
      · rw [hrest.flr g hgl, hone.time]
      · obtain rfl := (List.mem_cons.mp hg).resolve_right hgl
        rw [(hrest.others _ hgl).flr, hone.flr]
    · obtain ⟨hgt, hgl⟩ := not_or.mp (fun h => hg (List.mem_cons.mpr h))
      exact (hone.others g hgt).trans (hrest.others g hgl)
    · rw [hrest.enabled]
      by_cases hgt : g = t
      · rw [hgt, hone.enabled]
      · exact (hone.others g hgt).enabled
    · by_cases hol : o ∈ l
      · exact hrest.gone o hol
      · obtain rfl := (List.mem_cons.mp ho).resolve_right hol
        rw [hrest.kept _ hol, hone.part, if_pos rfl]
    · obtain ⟨hot, hol⟩ := not_or.mp (fun h => ho (List.mem_cons.mpr h))
      rw [hrest.kept o hol, hone.part, if_neg hot]

/-- The reset of the physical function (R320). -/
structure PfReset (s u : State) : Prop where
  entries : (u.fnst 0).entries = []
  messages : (u.fnst 0).messages = []
  flr : (u.fnst 0).flr = none
  part : u.part 0 = none
  regs (f : Fld) (hf : f.ofFn = true) : u.getF f 0 = f.info.rst
  enabled (g : Nat) : (u.fnst g).enabled = (s.fnst g).enabled
  vfs (f : Nat) (h1 : 1 ≤ f) (h2 : f ≤ 128) (hen : (s.fnst f).enabled = true) : u.part f = none ∧ (u.fnst f).flr = some s.time
  cells : u.cells = s.cells
  lc : u.lc = s.lc

theorem State.pfReset_spec (s : State) : PfReset s s.pfReset := by
  have hvfs := State.foldl_flr_spec s.vfs s
  have hpf := (s.vfs.foldl State.flr s).flr_spec 0
  have heq : s.pfReset = ((s.vfs.foldl State.flr s).flr 0).setFn 0 { ((s.vfs.foldl State.flr s).flr 0).fnst 0 with flr := none } := rfl
  generalize (s.vfs.foldl State.flr s).flr 0 = b at hpf heq
  generalize s.vfs.foldl State.flr s = a at hvfs hpf
  have hw : Touches [.fns] b s.pfReset := heq ▸ State.setFn_touches ..
  have h0 : s.pfReset.fnst 0 = { b.fnst 0 with flr := none } := heq ▸ State.fnst_setFn_same ..
  have hne (g : Nat) (hg : g ≠ 0) : s.pfReset.fnst g = b.fnst g := heq ▸ State.fnst_setFn_ne _ _ _ (Ne.symm hg)
  generalize s.pfReset = u at hw h0 hne
  refine ⟨by rw [h0]; exact hpf.entries, by rw [h0]; exact hpf.messages, by rw [h0], ?_, fun f hf => ?_, fun g => ?_, fun f h1 h2 hen => ⟨?_, ?_⟩, ?_, ?_⟩
  · rw [hw.part, hpf.part, if_pos rfl]
  · rw [hw.getF, hpf.regs f hf]
  · rw [← hvfs.enabled g]
    by_cases hg : g = 0
    · rw [hg, h0]
      exact hpf.enabled
    · rw [hne g hg, (hpf.others g hg).enabled]
  · have hf : f ≠ 0 := by omega
    rw [hw.part, hpf.part, if_neg hf, hvfs.gone f (State.mem_vfs.mpr ⟨h1, h2, hen⟩)]
  · have hf : f ≠ 0 := by omega
    rw [hne f hf, (hpf.others f hf).flr, hvfs.flr f (State.mem_vfs.mpr ⟨h1, h2, hen⟩)]
  · exact (show _ = b.cells from hw.same .cells).trans (hpf.cells.trans hvfs.cells)
  · exact (show _ = b.lc from hw.same .lc).trans (hpf.lc.trans hvfs.lc)

/-! ### VF_FLR and PF_FLR (R318, R320) -/

theorem vfFlr_resets (now : Nat) (tn : Fin 128) {s : State} (hen : (s.fnst (tn.val + 1)).enabled = true) :
    ∃ t, exec (.vfFlr now tn) s = .next t ∧ FnReset (tn.val + 1) (s.advance now) t := by
  have hen' : ((s.advance now).fnst (tn.val + 1)).enabled = true := hen
  exact ⟨_, congrArg Host.Outcome.next (if_pos hen'), State.flr_spec ..⟩

/-- Settles O44: a function-level reset leaves the function, its registers, its partition and its memory as at reset. -/
theorem functionResets : Obligations.FunctionResets := by
  unfold Obligations.FunctionResets
  refine ⟨fun now tn s hen => ?_, fun now tn s hen => ?_, fun now s => ?_, fun now tn s => rfl⟩
  · obtain ⟨t, hrow, h⟩ := vfFlr_resets now tn hen
    exact ⟨t, hrow, h.entries, h.messages, h.waiting, h.accepted, h.flr, h.enabled.trans hen, (h.part _).trans (if_pos rfl),
      h.regs .CMD_CFG_EN (by decide), h.regs .CMD_PROD_INDEX (by decide), h.regs .SVC_STAT_FULL (by decide),
      h.regs .TENV_STAT_DENIED (by decide), fun p hp => ⟨fun e he k hk => h.cm p hp e he k hk, fun e he k hk => h.km p hp e he k hk⟩,
      h.cells, h.lc⟩
  · have hen' : ((s.advance now).fnst (tn.val + 1)).enabled = false := hen
    exact congrArg Host.Outcome.next (if_neg (by rw [hen']; exact Bool.false_ne_true))
  · have h := (s.advance now).pfReset_spec
    exact ⟨_, rfl, h.entries, h.messages, h.flr, h.part, h.regs .CMD_CFG_EN (by decide), h.regs .CMD_PROD_INDEX (by decide),
      h.regs .SVC_STAT_FULL (by decide), fun f h1 h2 hen => h.vfs f h1 h2 hen, h.cells, h.lc⟩

end Sys2Proof.Machine
end

section
/-!
PROOF. Resets of the interface and the enabling of virtual functions (R294, R377, R388, O45).
-/

set_option Elab.async false

namespace Sys2Proof.Machine
open Sys2Proof

/-! ### Virtual functions that disappear (R294) -/

/-- What functions that disappear leave. -/
structure VfsGone (l : List Nat) (s u : State) : Prop where
  off (g : Nat) (hg : g ∈ l) : (u.fnst g).enabled = false ∧ u.part g = none ∧ u.getF .CMD_CFG_EN g = 0 ∧ (u.fnst g).entries = []
  others (g : Nat) (hg : g ∉ l) : Function.Alike (s.fnst g) (u.fnst g) ∧ u.part g = s.part g ∧ u.getF .CMD_CFG_EN g = s.getF .CMD_CFG_EN g

theorem State.vfGone_spec (s : State) (t : Nat) : VfsGone [t] s (s.vfGone t) := by
  have h := s.flr_spec t
  have heq : s.vfGone t = (s.flr t).setFn t { (s.flr t).fnst t with enabled := false, flr := none } := rfl
  rw [heq]
  generalize s.flr t = a at h ⊢
  have hw : Touches [.fns] a (a.setFn t { a.fnst t with enabled := false, flr := none }) := State.setFn_touches ..
  have hsame : (a.setFn t { a.fnst t with enabled := false, flr := none }).fnst t = { a.fnst t with enabled := false, flr := none } :=
    State.fnst_setFn_same ..
  have hne (g : Nat) (hg : g ≠ t) : (a.setFn t { a.fnst t with enabled := false, flr := none }).fnst g = a.fnst g :=
    State.fnst_setFn_ne _ _ _ (Ne.symm hg)
  generalize a.setFn t { a.fnst t with enabled := false, flr := none } = u at hw hsame hne ⊢
  refine ⟨fun g hg => ?_, fun g hg => ?_⟩
  · obtain rfl := List.mem_singleton.mp hg
    refine ⟨by rw [hsame], ?_, ?_, by rw [hsame]; exact h.entries⟩
    · rw [hw.part, h.part, if_pos rfl]
    · rw [hw.getF, h.regs .CMD_CFG_EN (by decide)]
      rfl
  · have hgt : g ≠ t := fun hx => hg (List.mem_singleton.mpr hx)
    refine ⟨by rw [hne g hgt]; exact h.others g hgt, ?_, ?_⟩
    · rw [hw.part, h.part, if_neg hgt]
    · rw [hw.getF, h.cfg g hgt]

theorem State.foldl_vfGone_spec (l : List Nat) (s : State) : VfsGone l s (l.foldl State.vfGone s) := by
  induction l generalizing s with
  | nil => exact ⟨fun g hg => (nomatch hg), fun _ _ => ⟨.refl _, rfl, rfl⟩⟩
  | cons t l ih =>
    have hone := s.vfGone_spec t
    have hrest := ih (s.vfGone t)
    rw [List.foldl_cons]
    generalize l.foldl State.vfGone (s.vfGone t) = u at hrest ⊢
    generalize s.vfGone t = a at hone hrest
    refine ⟨fun g hg => ?_, fun g hg => ?_⟩
    · by_cases hgl : g ∈ l
      · exact hrest.off g hgl
      · obtain rfl := (List.mem_cons.mp hg).resolve_right hgl
        obtain ⟨hen, hpart, hcfg, hentries⟩ := hone.off g List.mem_cons_self
        obtain ⟨hal, hp, hc⟩ := hrest.others g hgl
        exact ⟨hal.enabled.trans hen, hp.trans hpart, hc.trans hcfg, hal.entries.trans hentries⟩
    · obtain ⟨hgt, hgl⟩ := not_or.mp (fun h => hg (List.mem_cons.mpr h))
      obtain ⟨hal, hp, hc⟩ := hone.others g (fun h => hgt (List.mem_singleton.mp h))
      obtain ⟨kal, kp, kc⟩ := hrest.others g hgl
      exact ⟨hal.trans kal, kp.trans hp, kc.trans hc⟩

/-! ### Virtual functions that are new (R294) -/

/-- A new virtual function starts afresh, but for its accepted commands. -/
def State.vfFresh (u : State) (i : Nat) : State :=
  u.setFn (i + 1) { Function.reset with enabled := true, accepted := (u.fnst (i + 1)).accepted }

theorem State.foldl_vfFresh_spec (l : List Nat) (s : State) :
    let u := l.foldl State.vfFresh s
    (∀ i, i ∈ l → u.fnst (i + 1) = { Function.reset with enabled := true, accepted := (s.fnst (i + 1)).accepted }) ∧
      (∀ i, i ∉ l → u.fnst (i + 1) = s.fnst (i + 1)) ∧ u = { s with fns := u.fns } := by
  induction l generalizing s with
  | nil => exact ⟨fun i hi => (nomatch hi), fun _ _ => rfl, rfl⟩
  | cons j l ih =>
    obtain ⟨hin, hout, honly⟩ := ih (s.vfFresh j)
    have hsame : (s.vfFresh j).fnst (j + 1) = { Function.reset with enabled := true, accepted := (s.fnst (j + 1)).accepted } :=
      State.fnst_setFn_same ..
    have hne (i : Nat) (hi : i ≠ j) : (s.vfFresh j).fnst (i + 1) = s.fnst (i + 1) := State.fnst_setFn_ne _ _ _ (by omega)
    simp only [List.foldl_cons]
    refine ⟨fun i hi => ?_, fun i hi => ?_, honly⟩
    · by_cases hil : i ∈ l
      · rw [hin i hil]
        by_cases hij : i = j
        · rw [hij, hsame]
        · rw [hne i hij]
      · obtain rfl := (List.mem_cons.mp hi).resolve_right hil
        rw [hout i hil, hsame]
    · obtain ⟨hij, hil⟩ := not_or.mp (fun h => hi (List.mem_cons.mpr h))
      rw [hout i hil, hne i hij]

/-! ### Resets of the interface (R294, R377, R388) -/

/-- Functions that are switched off with the configuration space. -/
def State.vfOff (u : State) (t : Nat) : State := u.setFn t { u.fnst t with enabled := false, flr := none }

theorem State.foldl_vfOff_spec (l : List Nat) (s : State) :
    let u := l.foldl State.vfOff s
    (∀ g, g ∈ l → (u.fnst g).enabled = false) ∧ (∀ g, g ∉ l → u.fnst g = s.fnst g) ∧ Touches [.fns] s u := by
  refine ⟨fun g hg => ?_, fun g hg => ?_, Touches.foldl _ (fun u t => State.setFn_touches ..) _ _⟩
  · refine foldl_establishes State.vfOff (fun u => (u.fnst g).enabled = false) (fun u t h => ?_) hg (fun u => ?_) s
    · by_cases ht : t = g
      · rw [ht, show (u.vfOff g).fnst g = _ from State.fnst_setFn_same ..]
      · rw [show (u.vfOff t).fnst g = _ from State.fnst_setFn_ne _ _ _ ht]
        exact h
    · rw [show (u.vfOff g).fnst g = _ from State.fnst_setFn_same ..]
  · refine List.foldlRecOn (motive := fun u : State => u.fnst g = s.fnst g) _ _ rfl (fun u h t ht => ?_)
    rw [show (u.vfOff t).fnst g = _ from State.fnst_setFn_ne _ _ _ (fun hx => hg (hx ▸ ht)), h]

theorem conventionalReset_asserts (now : Nat) (s : State) :
    ∃ t, exec (.pcieConventionalReset now) s = .next t ∧ t.perst = true ∧ t.numVfs = 0 ∧
      (∀ i, i < 128 → (t.fnst (i + 1)).enabled = false) ∧ t.part 0 = none ∧ t.getF .CMD_CFG_EN 0 = 0 ∧ t.cells = s.cells ∧ t.lc = s.lc := by
  have hrow : exec (.pcieConventionalReset now) s = .next
      { (s.advance now).pfReset.vfs.foldl State.vfOff (s.advance now).pfReset with perst := true, numVfs := 0 } := rfl
  have h := (s.advance now).pfReset_spec
  generalize (s.advance now).pfReset = a at hrow h
  obtain ⟨hoff, hkeep, hw⟩ := State.foldl_vfOff_spec a.vfs a
  generalize a.vfs.foldl State.vfOff a = b at hrow hoff hkeep hw
  refine ⟨_, hrow, rfl, rfl, fun i hi => ?_, (hw.part 0).trans h.part, (hw.getF _ _).trans (h.regs .CMD_CFG_EN (by decide)),
    (show b.cells = a.cells from hw.same .cells).trans h.cells, (show b.lc = a.lc from hw.same .lc).trans h.lc⟩
  show (b.fnst (i + 1)).enabled = false
  by_cases hv : i + 1 ∈ a.vfs
  · exact hoff _ hv
  · rw [hkeep _ hv]
    exact Bool.eq_false_iff.mpr (fun hen => hv (State.mem_vfs.mpr ⟨by omega, by omega, hen⟩))

theorem perstRelease_serves (now : Nat) {s : State} (hp : s.perst = true) :
    ∃ t, exec (.perstRelease now) s = .next t ∧ t.perst = false ∧ t.dieOn 0 = true ∧ t.parts = s.parts ∧ t.sram = s.sram ∧ t.cells = s.cells := by
  have hrow : exec (.perstRelease now) s = .next (if (s.perst && !(s.dieOn 0)) = true then ({ s.advance now with perst := false } : State).dieUp 0
      else { s.advance now with perst := false }) := rfl
  cases hon : s.dieOn 0 with
  | true =>
    rw [hon, hp, if_neg (by decide)] at hrow
    exact ⟨_, hrow, rfl, hon, rfl, rfl, rfl⟩
  | false =>
    rw [hon, hp, if_pos (by decide)] at hrow
    have hfirst : ({ s.advance now with perst := false } : State).perst = false ∧ ({ s.advance now with perst := false } : State).parts = s.parts ∧
      ({ s.advance now with perst := false } : State).sram = s.sram ∧ ({ s.advance now with perst := false } : State).cells = s.cells :=
      ⟨rfl, rfl, rfl, rfl⟩
    generalize ({ s.advance now with perst := false } : State) = a at hrow hfirst
    obtain ⟨hperst, hparts, hsram, hcells⟩ := hfirst
    have hw := a.dieUp_within 0
    have hset : (a.dieUp 0).dieOn 0 = true := by
      obtain ⟨hon, -⟩ := a.dieOn_setDie (b := 0) (by decide)
      unfold State.dieOn at hon ⊢
      rw [(a.dieUp_afterSet 0).getF _ _]
      exact hon
    exact ⟨_, hrow, (show _ = a.perst from hw.touch.same .perst).trans hperst, hset,
      (show _ = a.parts from hw.touch.same .parts).trans hparts, (show _ = a.sram from hw.touch.same .sram).trans hsram,
      (show _ = a.cells from hw.touch.same .cells).trans hcells⟩

theorem State.foldl_vfFresh_touches (l : List Nat) (s : State) : Touches [.fns] s (l.foldl State.vfFresh s) :=
  Touches.foldl _ (fun _ _ => State.setFn_touches ..) _ _

theorem vfEnableChange_spec (now : Nat) (enable : Bool) (num : Nat) {s : State} {n : Nat} (hn : (if enable then min num (s.setting 0) else 0) = n) :
    ∃ t, exec (.vfEnableChange now enable num) s = .next t ∧ t.numVfs = n ∧
      (∀ i, i < 128 → (t.fnst (i + 1)).enabled = decide (i < n)) ∧
      (∀ i, i < 128 → n ≤ i → (s.fnst (i + 1)).enabled = true → t.part (i + 1) = none ∧ t.getF .CMD_CFG_EN (i + 1) = 0 ∧
        (t.fnst (i + 1)).entries = []) ∧
      ((∀ i, i < 128 → n ≤ i → (s.fnst (i + 1)).enabled = false) →
        (∀ i, i < 128 → i < n → (s.fnst (i + 1)).enabled = false →
          t.fnst (i + 1) = { Function.reset with enabled := true, accepted := (s.fnst (i + 1)).accepted }) ∧
        t = { s.advance now with fns := t.fns, numVfs := t.numVfs }) := by
  let gone := (s.advance now).vfs.filter (fun t => n < t)
  let a := gone.foldl State.vfGone (s.advance now)
  let fresh := (List.range n).filter (fun i => !((a.fnst (i + 1)).enabled))
  have hrow : exec (.vfEnableChange now enable num) s = .next { fresh.foldl State.vfFresh a with numVfs := n } := by
    subst hn
    rfl
  have hmem (i : Nat) (hi : i < 128) : i + 1 ∈ gone ↔ n ≤ i ∧ (s.fnst (i + 1)).enabled = true := by
    show i + 1 ∈ (s.advance now).vfs.filter (fun t => n < t) ↔ _
    rw [List.mem_filter, State.mem_vfs, State.fnst_advance, decide_eq_true_eq]
    exact ⟨fun ⟨⟨_, _, hen⟩, hlt⟩ => ⟨Nat.le_of_lt_succ hlt, hen⟩, fun ⟨hle, hen⟩ => ⟨⟨by omega, by omega, hen⟩, Nat.lt_succ_of_le hle⟩⟩
  have hempty (hall : ∀ i, i < 128 → n ≤ i → (s.fnst (i + 1)).enabled = false) : gone = [] := by
    refine List.filter_eq_nil_iff.mpr (fun f hf hlt => ?_)
    obtain ⟨h1, h2, hen⟩ := State.mem_vfs.mp hf
    rw [decide_eq_true_eq] at hlt
    have hoff := hall (f - 1) (by omega) (by omega)
    rw [Nat.sub_add_cancel h1] at hoff
    rw [State.fnst_advance, hoff] at hen
    exact Bool.false_ne_true hen
  have hgone : VfsGone gone (s.advance now) a := State.foldl_vfGone_spec ..
  have hnone (h : gone = []) : a = s.advance now := by
    show gone.foldl State.vfGone (s.advance now) = _
    rw [h]
    rfl
  have hfresh (i : Nat) : i ∈ fresh ↔ i < n ∧ (a.fnst (i + 1)).enabled = false := by
    show i ∈ (List.range n).filter (fun i => !((a.fnst (i + 1)).enabled)) ↔ _
    rw [List.mem_filter, List.mem_range, Bool.not_eq_true']
  obtain ⟨hin, hout, honly⟩ := State.foldl_vfFresh_spec fresh a
  have hw := State.foldl_vfFresh_touches fresh a
  generalize fresh.foldl State.vfFresh a = b at *
  clear_value fresh a gone
  refine ⟨_, hrow, rfl, fun i hi => ?_, fun i hi hle hen => ?_, fun hall => ⟨fun i hi hlt hoff => ?_, ?_⟩⟩
  · show (b.fnst (i + 1)).enabled = _
    by_cases hlt : i < n
    · rw [decide_eq_true hlt]
      cases hen : (a.fnst (i + 1)).enabled with
      | true => rw [hout i (fun h => by rw [((hfresh i).mp h).2] at hen; exact Bool.false_ne_true hen), hen]
      | false => rw [hin i ((hfresh i).mpr ⟨hlt, hen⟩)]
    · rw [decide_eq_false hlt, hout i (fun h => hlt ((hfresh i).mp h).1)]
      by_cases hg : i + 1 ∈ gone
      · exact (hgone.off _ hg).1
      · rw [(hgone.others _ hg).1.enabled, State.fnst_advance]
        exact Bool.eq_false_iff.mpr (fun hen => hg ((hmem i hi).mpr ⟨Nat.le_of_not_lt hlt, hen⟩))
  · obtain ⟨-, hpart, hcfg, hentries⟩ := hgone.off (i + 1) ((hmem i hi).mpr ⟨hle, hen⟩)
    refine ⟨(hw.part _).trans hpart, (hw.getF _ _).trans hcfg, ?_⟩
    show (b.fnst (i + 1)).entries = []
    rw [hout i (fun h => absurd ((hfresh i).mp h).1 (Nat.not_lt.mpr hle))]
    exact hentries
  · rw [hnone (hempty hall)] at hin hfresh
    exact hin i ((hfresh i).mpr ⟨hlt, hoff⟩)
  · rw [hnone (hempty hall)] at honly
    rw [honly]

/-- Under PERST# no access arrives. -/
theorem State.hosted_perst {s : State} (fn : Nat) (F : State → State) (hp : s.perst = true) : s.hosted fn F = s := if_pos hp

theorem State.with_perst {s : State} {v : Bool} (h : s.perst = v) : { s with perst := v } = s := by
  subst h
  rfl

/-- Settles O45: PERST#, its release, and the enabling of virtual functions. -/
theorem interfaceResets : Obligations.InterfaceResets := by
  unfold Obligations.InterfaceResets
  refine ⟨conventionalReset_asserts, fun now s hp => perstRelease_serves now hp, fun now s hp => ?_, fun now fn head s hp => ⟨?_, ?_⟩,
    fun now enable num s => vfEnableChange_spec now enable num rfl⟩
  · have hp' : (s.advance now).perst = false := hp
    show Host.Outcome.next (if ((s.advance now).perst && !((s.advance now).dieOn 0)) = true then _ else { s.advance now with perst := false }) = _
    rw [if_neg (by rw [hp']; exact Bool.false_ne_true)]
    refine congrArg Host.Outcome.next ?_
    conv_rhs => rw [← State.with_perst hp']
  · exact congrArg Host.Outcome.next (State.hosted_perst _ _ hp)
  · exact congrArg Host.Outcome.next (State.hosted_perst _ _ hp)

end Sys2Proof.Machine
end

section
/-!
PROOF. Loads and unloads of partitions (R234 to R240, O47).
-/

set_option Elab.async false

namespace Sys2Proof.Machine
open Sys2Proof

/-! ### What loading a bitstream keeps (R235 to R238) -/

/-- A step of a load: the owner's partition stays, and so do the weights in the cells. -/
structure LoadStep (o : Nat) (s t : State) : Prop where
  holds (h : (s.part o).isSome = true) : (t.part o).isSome = true
  cells : t.cells = s.cells

theorem LoadStep.refl (o : Nat) (s : State) : LoadStep o s s := ⟨fun h => h, rfl⟩

theorem LoadStep.trans {o : Nat} {s t u : State} (h : LoadStep o s t) (k : LoadStep o t u) : LoadStep o s u :=
  ⟨fun hs => k.holds (h.holds hs), k.cells.trans h.cells⟩

theorem LoadStep.of_touches {o : Nat} {ps : List Part} {s t : State} (h : Touches ps s t) (hp : ps.contains .parts = false := by decide)
    (hc : ps.contains .cells = false := by decide) : LoadStep o s t :=
  ⟨fun hs => by rw [h.part o hp]; exact hs, h.same .cells hc⟩

theorem LoadStep.of_within {o : Nat} {w : Writes} {s t : State} (h : Within w s t) (hp : w.parts.contains .parts = false := by decide)
    (hc : w.parts.contains .cells = false := by decide) : LoadStep o s t := .of_touches h.touch hp hc

theorem LoadStep.foldl {α : Type} {o : Nat} {g : State → α → State} (hg : ∀ s a, LoadStep o s (g s a)) (l : List α) (s : State) :
    LoadStep o s (l.foldl g s) := by
  induction l generalizing s with
  | nil => exact .refl o s
  | cons a l ih => exact (hg s a).trans (ih _)

theorem LoadStep.ite {o : Nat} {s t u : State} {c : Prop} [Decidable c] (ht : LoadStep o s t) (hu : LoadStep o s u) :
    LoadStep o s (if c then t else u) := by
  split
  · exact ht
  · exact hu

/-- The partition's lists are extended. -/
theorem LoadStep.setPart (s : State) (o : Nat) (f : Partition → Partition) : LoadStep o s (s.setPart o ((s.part o).map f)) := by
  refine ⟨fun h => ?_, rfl⟩
  rw [State.part_setPart_same, Option.isSome_map]
  exact h

theorem State.coreOnNow_step (o : Nat) (s : State) (core : Nat) : LoadStep o s (s.coreOnNow core) := by
  unfold State.coreOnNow
  extract_lets u
  have hu : LoadStep o s u := .ite (.refl o s) (.of_touches (s.sharedUp_spec _).1)
  exact .ite hu (hu.trans (.of_touches (u.coreUp_spec core).1))

theorem State.loadClaims_step (s : State) (x : BitStream) :
    ((s.loadClaims x).part x.owner).isSome = true ∧ (s.loadClaims x).cells = s.cells := by
  unfold State.loadClaims
  extract_lets _ a b c d
  have ha : (a.part x.owner).isSome = true ∧ a.cells = s.cells := by
    rw [show a.part x.owner = _ from State.part_setPart_same ..]
    exact ⟨rfl, rfl⟩
  have hb : LoadStep x.owner a b := .foldl (fun t k => t.coreOnNow_step _ k) _ _
  have hc : LoadStep x.owner b c := .foldl (fun t e => .ite (.refl _ t) (.of_touches (t.sharedUp_spec _).1)) _ _
  have hd : LoadStep x.owner c d := .foldl (fun t k => .of_within (t.wipeCore_within _ k)) _ _
  have hend := (hb.trans (hc.trans hd)).trans (.foldl (g := fun t o => t.applyQuota (x.num o 1) (quotaOf (fun k n => x.num (o + k) n)))
    (fun t k => .of_within (t.applyQuota_within ..)) (x.recs 14) d)
  exact ⟨hend.holds ha.1, hend.cells.trans ha.2⟩

theorem State.loadThreads_step (s : State) (x : BitStream) : LoadStep x.owner s (s.loadThreads x) := by
  unfold State.loadThreads
  refine .foldl (fun t c => ?_) _ _
  split
  · exact .refl _ t
  next k hk =>
    extract_lets i u q
    have hu : LoadStep x.owner t u := .of_within (State.setThread_within ..)
    split
    · extract_lets n b v w ws
      have hv : Within ⟨[.regs], [.CSQ_TH_REGION_STRICT, .CSQ_TH_STAT_OWNER, .CSQ_TH_STAT_STATE]⟩ u v :=
        (State.setF_within ..).after ((State.setF_within ..).after ((State.setF_within ..).mono))
      have hw : Within ⟨[.regs], [.CSQ_TH_REGION_LAST, .CSQ_TH_REGION_BASE]⟩ v w := (State.setF_within ..).after ((State.setF_within ..).mono)
      exact hu.trans ((LoadStep.of_within hv).trans ((LoadStep.of_within hw).trans (.setPart w _ _)))
    · have hq : Within ⟨[.regs], [.CSQ_TH_STAT_OWNER, .CSQ_TH_STAT_STATE]⟩ u q := (State.setF_within ..).after ((State.setF_within ..).mono)
      have hw (z : State) : Within ⟨[.regs], [.CSQ_TH_REGION_LAST, .CSQ_TH_REGION_BASE, .CSQ_TH_REGION_STRICT]⟩ z
          (((z.setF .CSQ_TH_REGION_STRICT i 0).setF .CSQ_TH_REGION_BASE i 1).setF .CSQ_TH_REGION_LAST i 0) :=
        (State.setF_within ..).after ((State.setF_within ..).after ((State.setF_within ..).mono))
      exact hu.trans ((LoadStep.of_within hq).trans (.of_within (hw q)))

theorem State.loadDescs_step (s : State) (x : BitStream) (rs : List (RtRec × SlotRef × Option SlotRef)) :
    LoadStep x.owner s (s.loadDescs x rs) := by
  unfold State.loadDescs
  extract_lets u
  have hu : LoadStep x.owner s u := .foldl (fun t p => .of_within (t.writeDesc_within ..)) _ _
  exact hu.trans (.setPart u _ _)

theorem State.loadTables_step (s : State) (x : BitStream) : LoadStep x.owner s (s.loadTables x) := by
  unfold State.loadTables
  extract_lets _ u v chans
  have hu : LoadStep x.owner s u := .foldl (fun t o => .of_within (t.setGroup_within ..)) _ _
  have hset (t : State) (m : SMap (Option SnapSet)) : LoadStep x.owner t { t with sets := m } := .of_touches (ps := [.sets]) (Touches.of_withParts rfl)
  have hv : LoadStep x.owner u v := .foldl (fun t o => hset t _) _ _
  exact hu.trans (hv.trans (.setPart v _ _))

theorem State.loadOwl_step (s : State) (x : BitStream) (o : Nat) : LoadStep x.owner s (State.loadOwl x s o) := by
  unfold State.loadOwl
  split
  · exact .refl _ s
  split
  · exact .refl _ s
  extract_lets f _ w u v
  have hu : LoadStep x.owner s u := .of_within (w := ⟨[.regs, .owls], [.OWL_SCFG_EN, .OWL_SCFG_STATION]⟩)
    ((State.setF_within ..).after ((State.setF_within ..).after ((State.setOwl_within ..).mono)))
  have hv : LoadStep x.owner u v := .of_within (w := ⟨[.regs], [.OWL_SSTAT_ALARM, .OWL_SALMCNT_COUNT]⟩)
    ((State.setF_within ..).after ((State.setF_within ..).mono))
  exact hu.trans (hv.trans ((LoadStep.setPart v _ _).trans (.of_within (State.owlRelearn_within ..))))

theorem State.loadRule_step (s : State) (x : BitStream) (o : Nat) : LoadStep x.owner s (State.loadRule x s o) := by
  unfold State.loadRule
  split
  · exact .refl _ s
  next r hr =>
    extract_lets flags w
    have hw : LoadStep x.owner s (s.setWRule r w) := .of_within (State.setWRule_within ..)
    exact hw.trans (.setPart (s.setWRule r w) x.owner _)

/-- A load leaves the owner a partition of the bitstream's stations. -/
theorem State.loadAll_spec (s : State) (x : BitStream) :
    ((s.loadAll x).part x.owner).map Partition.stations = some (x.stations.map StRec.id) ∧ (s.loadAll x).cells = s.cells := by
  unfold State.loadAll
  extract_lets old a rs b c d e f g h
  obtain ⟨hclaims, hcells⟩ := s.loadClaims_step x
  have ha : LoadStep x.owner (s.loadClaims x) a := .of_within (State.loadArb_within ..)
  have hb : LoadStep x.owner a b := (LoadStep.of_within (State.loadRings_within ..)).trans (State.loadThreads_step ..)
  have hc : LoadStep x.owner b c :=
    (LoadStep.of_within (State.loadData_within ..)).trans ((State.loadDescs_step ..).trans (.of_within (State.loadStations_within ..)))
  have hd : LoadStep x.owner c d := (LoadStep.of_within (State.loadWords_within ..)).trans (State.loadTables_step ..)
  have he : LoadStep x.owner d e := .foldl (fun t o => t.loadOwl_step x o) _ _
  have hf : LoadStep x.owner e f := .foldl (fun t o => t.loadRule_step x o) _ _
  have hg : LoadStep x.owner f g := .of_within (State.wioSettle_within ..)
  have hall := ha.trans (hb.trans (hc.trans (hd.trans (he.trans (hf.trans hg)))))
  have hsome := hall.holds hclaims
  have hpart : (h.part x.owner).map Partition.stations = some (x.stations.map StRec.id) := by
    rw [show h.part x.owner = _ from State.part_setPart_same .., Option.map_map]
    obtain ⟨q, hq⟩ := Option.isSome_iff_exists.mp hsome
    rw [hq]
    rfl
  have hcells' : h.cells = s.cells := (show h.cells = g.cells from rfl).trans (hall.cells.trans hcells)
  clear_value h
  have hact := h.activate_within old
  have hstart (l : List (Nat × Nat × Nat × List Word)) (z : State) :
      Within State.threadStartWrites z (l.foldl (fun t p => t.threadStart p.2.1) z) := Within.foldl _ (fun t p => t.threadStart_within _) _ _
  exact ⟨by rw [(hstart _ _).touch.part, hact.touch.part]; exact hpart,
    (show _ = (h.activate old).cells from (hstart _ _).touch.same .cells).trans ((show _ = h.cells from hact.touch.same .cells).trans hcells')⟩

/-! ### LOAD_BITSTREAM (R234 to R239) -/

section Load
variable {now : Nat} {fn : Func} {entry : List Word} {bytes : List Byte} {s : State}

theorem loadBitstream_row (hbear : s.getF .GCTL_PWRST_STATE 0 = 0) (hnext : s.nextUp fn.val 0x01 entry = true) :
    exec (.loadBitstream now fn entry bytes) s = .next (((s.advance now).takeAccepted fn.val entry).loadCommand fn.val entry bytes) := by
  have hb : ¬ (s.advance now).getF .GCTL_PWRST_STATE 0 ≠ 0 := fun h => h hbear
  have hn : (s.advance now).nextUp fn.val 0x01 entry = true := hnext
  refine (if_neg hb).trans ?_
  rw [State.command_of hn]

theorem loadBitstream_unclean (hbear : s.getF .GCTL_PWRST_STATE 0 = 0) (hnext : s.nextUp fn.val 0x01 entry = true)
    (hclean : entryClean entry 5 = false) :
    exec (.loadBitstream now fn entry bytes) s = .next (((s.advance now).takeAccepted fn.val entry).answer fn.val entry 1 0) :=
  (loadBitstream_row hbear hnext).trans (congrArg Host.Outcome.next (if_pos (by rw [hclean]; rfl)))

theorem loadBitstream_not_next (h : s.getF .GCTL_PWRST_STATE 0 ≠ 0 ∨ s.nextUp fn.val 0x01 entry = false) :
    exec (.loadBitstream now fn entry bytes) s = .next (s.advance now) := by
  by_cases hb : (s.advance now).getF .GCTL_PWRST_STATE 0 ≠ 0
  · exact if_pos hb
  · have hn : (s.advance now).nextUp fn.val 0x01 entry = false := h.resolve_left hb
    exact (if_neg hb).trans (congrArg Host.Outcome.next (if_neg (by rw [hn]; exact Bool.false_ne_true)))

/-- What a load's fault or its success leaves. -/
theorem State.loadCommand_spec (s : State) {fn : Nat} {e : List Word} {bytes : List Byte} (hclean : entryClean e 5 = true) :
    let len := entryWord e 4
    let u := s.emit (.hostRead fn (entryWord e 2 + 4294967296 * entryWord e 3) len)
    let t := s.loadCommand fn e bytes
    (∀ c sect n, u.badBitStream fn bytes len = some (c, sect, n) → t = u.complete fn (loadResult (entryTag e) c sect n)) ∧
      (u.badBitStream fn bytes len = none → ∃ l : Loading, l.fn = fn ∧ l.tag = entryTag e ∧
        t = ({ u with loading := u.loading ++ [l] }.loadAll (bitStream bytes)).complete fn (loadResult (entryTag e) 0 0 0)) := by
  intro len u t
  have hne : ¬ (!(entryClean e 5)) = true := by
    rw [hclean]
    decide
  refine ⟨fun c sect n h => ?_, fun h => ?_⟩
  · refine (if_neg hne).trans ?_
    dsimp only
    rw [show (s.emit _).badBitStream fn bytes (entryWord e 4) = _ from h]
  · refine ⟨{ fn := fn, tag := entryTag e, quotas := ((bitStream bytes).recs 14).map (fun o => ((bitStream bytes).num o 1, u.quota ((bitStream bytes).num o 1))) },
      rfl, rfl, (if_neg hne).trans ?_⟩
    dsimp only
    rw [show (s.emit _).badBitStream fn bytes (entryWord e 4) = _ from h]

theorem loadBitstream_loads (hbear : s.getF .GCTL_PWRST_STATE 0 = 0) (hnext : s.nextUp fn.val 0x01 entry = true)
    (hclean : entryClean entry 5 = true) {addr len : Nat} {u : State}
    (haddr : entryWord entry 2 + 4294967296 * entryWord entry 3 = addr) (hlen : entryWord entry 4 = len)
    (hu : ((s.advance now).takeAccepted fn.val entry).emit (.hostRead fn.val addr len) = u) :
    ∃ t, exec (.loadBitstream now fn entry bytes) s = .next t ∧
      (∀ c sect n, u.badBitStream fn.val bytes len = some (c, sect, n) →
        t = u.complete fn.val (loadResult (entryTag entry) c sect n) ∧ t.parts = s.parts ∧ t.stations = s.stations ∧
        KeepsBytes s t nowhere) ∧
      (u.badBitStream fn.val bytes len = none →
        (∃ l : Loading, l.fn = fn.val ∧ l.tag = entryTag entry ∧
          t = ({ u with loading := u.loading ++ [l] }.loadAll (bitStream bytes)).complete fn.val (loadResult (entryTag entry) 0 0 0)) ∧
        (t.part (bitStream bytes).owner).map Partition.stations = some ((bitStream bytes).stations.map StRec.id)) ∧
      t.cells = s.cells := by
  subst haddr hlen
  have hrow := loadBitstream_row (now := now) (bytes := bytes) hbear hnext
  have htake : Touches [.accepted, .fns] (s.advance now) ((s.advance now).takeAccepted fn.val entry) := State.takeAccepted_touches ..
  obtain ⟨hfault, hok⟩ := ((s.advance now).takeAccepted fn.val entry).loadCommand_spec (fn := fn.val) (e := entry) (bytes := bytes) hclean
  rw [hu] at hfault hok
  have hall : Touches (.accepted :: .fns :: .out :: timeParts) s u := by
    rw [← hu]
    exact (State.emit_touches ..).after (htake.after (s.advance_touches now).mono)
  generalize ((s.advance now).takeAccepted fn.val entry).loadCommand fn.val entry bytes = t at hrow hfault hok
  have hdone (z : State) (c : Completion) := z.complete_within fn.val c
  cases hbad : u.badBitStream fn.val bytes (entryWord entry 4) with
  | some f =>
    obtain ⟨c, sect, n⟩ := f
    have ht := hfault c sect n hbad
    have hw := hdone u (loadResult (entryTag entry) c sect n)
    rw [← ht] at hw
    refine ⟨t, hrow, fun c' sect' n' h => ?_, fun h => (nomatch h), ?_⟩
    · cases h
      exact ⟨ht, (show _ = u.parts from hw.touch.same .parts).trans (hall.same .parts),
        (show _ = u.stations from hw.touch.same .stations).trans (hall.same .stations),
        .of_sram_eq ((show _ = u.sram from hw.touch.same .sram).trans (hall.same .sram)) _⟩
    · exact (show _ = u.cells from hw.touch.same .cells).trans (hall.same .cells)
  | none =>
    obtain ⟨l, hfn, htag, ht⟩ := hok hbad
    obtain ⟨hstations, hcells⟩ := ({ u with loading := u.loading ++ [l] } : State).loadAll_spec (bitStream bytes)
    have hw := hdone (({ u with loading := u.loading ++ [l] } : State).loadAll (bitStream bytes)) (loadResult (entryTag entry) 0 0 0)
    rw [← ht] at hw
    have hucells : ({ u with loading := u.loading ++ [l] } : State).cells = u.cells := rfl
    refine ⟨t, hrow, fun c' sect' n' h => (nomatch h), fun _ => ⟨⟨l, hfn, htag, ht⟩, ?_⟩, ?_⟩
    · rw [hw.touch.part]
      exact hstations
    · exact (show _ = (({ u with loading := u.loading ++ [l] } : State).loadAll (bitStream bytes)).cells from hw.touch.same .cells).trans
        (hcells.trans (hucells.trans (hall.same .cells)))

end Load

/-! ### What stations keep while a partition stops (R239) -/

/-- What `p` reads of each station stays. -/
structure StationKept {β : Type} (p : Station → β) (s t : State) : Prop where
  kept (st : Nat) : p (t.station st) = p (s.station st)

section StationKept
variable {β : Type} {p : Station → β}

theorem StationKept.refl (s : State) : StationKept p s s := ⟨fun _ => rfl⟩

theorem StationKept.trans {s t u : State} (h : StationKept p s t) (k : StationKept p t u) : StationKept p s u :=
  ⟨fun st => (k.kept st).trans (h.kept st)⟩

theorem StationKept.of_within {w : Writes} {s t : State} (h : Within w s t) (hw : w.parts.contains .stations = false := by decide) :
    StationKept p s t := ⟨fun st => congrArg p (h.touch.station st hw)⟩

theorem StationKept.setStation {s : State} {st : Nat} {y : Station} (h : p y = p (s.station st)) : StationKept p s (s.setStation st y) := by
  refine ⟨fun n => ?_⟩
  by_cases hn : st = n
  · rw [← hn, State.station_setStation_same, h]
  · rw [State.station_setStation_ne _ _ _ hn]

theorem StationKept.map {s t : State} {f : Nat × Station → Nat × Station} (ht : t.stations = s.stations.map f)
    (h : ∀ e, (f e).1 = e.1 ∧ p (f e).2 = p e.2) : StationKept p s t := by
  refine ⟨fun st => ?_⟩
  unfold State.station
  rw [ht]
  exact smapGet_map_rel (R := fun x y : Station => p y = p x) rfl h s.stations st

theorem StationKept.foldl {α : Type} {g : State → α → State} (hg : ∀ s a, StationKept p s (g s a)) (l : List α) (s : State) :
    StationKept p s (l.foldl g s) := by
  induction l generalizing s with
  | nil => exact .refl s
  | cons a l ih => exact (hg s a).trans (ih _)

theorem StationKept.ite {s t u : State} {c : Prop} [Decidable c] (ht : StationKept p s t) (hu : StationKept p s u) :
    StationKept p s (if c then t else u) := by
  split
  · exact ht
  · exact hu

end StationKept

theorem State.thaw_owners (s : State) : StationKept Station.owner s s.thaw := by
  refine .map rfl (fun e => ?_)
  split
  · exact ⟨rfl, rfl⟩
  · exact ⟨rfl, rfl⟩

theorem State.endInstance_owners (s : State) (g : Nat) (p7 timedOut : Bool) : StationKept Station.owner s (s.endInstance g p7 timedOut) := by
  unfold State.endInstance
  extract_lets x u
  split
  · exact .refl s
  next b hb =>
    extract_lets v
    have hu : StationKept Station.owner s u := .of_within (State.setGroup_within ..)
    have hv : StationKept Station.owner u v := by
      unfold v
      split
      · exact (StationKept.of_within (Within.update [.snaps] rfl)).trans (State.thaw_owners _)
      · exact .refl u
    refine hu.trans (hv.trans (.foldl (fun t i => ?_) _ _))
    split
    · exact .of_within (State.resume_within ..)
    · exact .refl t

theorem State.threadStopNow_owners (s : State) (i : Nat) : StationKept Station.owner s (s.threadStopNow i) := by
  unfold State.threadStopNow
  extract_lets u _ v
  have hu : StationKept Station.owner s u := .of_within (w := ⟨State.cutCopyWrites.parts, .CSQ_TH_STAT_WAITKIND :: .CSQ_TH_STAT_STATE :: State.cutCopyWrites.flds⟩)
    ((State.setF_within ..).after ((State.setF_within ..).after ((State.cutCopy_within ..).mono)))
  have hv : StationKept Station.owner u v := .of_within (State.setThread_within ..)
  have ha : StationKept Station.owner v (v.abandonWaits i) := .foldl (fun t g => t.endInstance_owners ..) _ _
  exact hu.trans (hv.trans (ha.trans (.of_within (State.traceTh_within ..))))

theorem State.revokeFires_owners (s : State) (st : Nat) : StationKept Station.owner s (s.revokeFires st) := by
  obtain ⟨h, -⟩ := s.revokeFires_spec st
  refine ⟨fun n => ?_⟩
  by_cases hn : n = st
  · obtain ⟨f, hf⟩ := h.own
    rw [hn, hf]
  · rw [h.other n hn]

theorem State.park_owners (s : State) (st : Nat) (h : Hold) : StationKept Station.owner s (s.park st h) := by
  unfold State.park
  extract_lets own u x y
  have hu : StationKept Station.owner s u := by
    unfold u
    split
    · exact .refl s
    · exact s.revokeFires_owners st
  split
  · exact hu
  · refine hu.trans (.setStation ?_)
    split
    · rfl
    · rfl

theorem State.closeCtx_owners (s : State) (c : Nat) : StationKept Station.owner s (s.closeCtx c) := by
  unfold State.closeCtx
  extract_lets u x y
  have hu : StationKept Station.owner s u := by
    refine .map (f := fun e => (e.1, { e.2 with deadline := e.2.deadline.map (fun d => if d.1 = c then (c, 0) else d) })) ?_ (fun _ => ⟨rfl, rfl⟩)
    exact (State.setCtx_touches ..).same .stations
  split
  · exact hu.trans (.of_within (w := ⟨.ctxs :: .threads :: State.failEpwWrites.parts, .POS_TRG_CFG_EN :: State.failEpwWrites.flds⟩)
      ((State.disarmTarget_within ..).after ((State.dropArmed_within ..).after ((State.failEpw_within ..).after ((State.setCtx_within ..).mono)))))
  · exact hu

theorem State.unloadStop_owners (s : State) (owner : Nat) : StationKept Station.owner s (s.unloadStop owner) := by
  unfold State.unloadStop
  extract_lets u v w
  have hu : StationKept Station.owner s u := .foldl (fun t i => t.threadStopNow_owners i) _ _
  have hv : StationKept Station.owner u v := .foldl (fun t st => t.park_owners st .level1) _ _
  have hw : StationKept Station.owner v w := .foldl (fun t c => t.closeCtx_owners c) _ _
  exact hu.trans (hv.trans (hw.trans (.foldl (fun t g => t.endInstance_owners ..) _ _)))

/-- A reclaim that fits or ends leaves the stations in their states. -/
theorem State.reclaimEnd_states (s : State) (t : Nat) : StationKept Station.state s (s.reclaimEnd t) := by
  unfold State.reclaimEnd
  extract_lets x sts cs
  refine .ite (.refl s) (.map (f := fun e => (e.1, if e.2.owner = t then { e.2 with deadline := none } else e.2)) ?_ (fun e => ⟨rfl, ?_⟩))
  · exact (State.setFn_touches ..).same .stations
  · dsimp only
    split
    · rfl
    · rfl

theorem State.reclaimDone_states (s : State) (t : Nat) : StationKept Station.state s (s.reclaimDone t) :=
  .ite ((StationKept.of_within (State.service_within ..)).trans (State.reclaimEnd_states ..)) (.refl s)

theorem State.reclaimFit_states (s : State) (t : Nat) (late : Bool) : StationKept Station.state s (s.reclaimFit t late) := by
  unfold State.reclaimFit
  refine .ite ?_ (.ite (s.reclaimEnd_states t) (.refl s))
  unfold State.reclaimGone
  extract_lets x p
  split
  · exact .refl s
  · exact (StationKept.of_within (State.setFn_within ..)).trans (State.reclaimDone_states ..)

theorem foldl_smapSet_unloaded (l : List Nat) (m : SMap Station) (st : Nat) (h : st ∈ l ∨ (smapGet Station.unloaded m st).state = 0) :
    (smapGet Station.unloaded (l.foldl (fun m n => smapSet Station.unloaded m n Station.unloaded) m) st).state = 0 := by
  induction l generalizing m with
  | nil => exact h.resolve_left (List.not_mem_nil)
  | cons n l ih =>
    refine ih _ ?_
    by_cases hn : n = st
    · rw [hn, smapGet_set_same]
      exact .inr rfl
    · rw [smapGet_set_ne _ _ hn]
      exact h.imp_left (fun hm => (List.mem_cons.mp hm).resolve_left (Ne.symm hn))

theorem smapGet_mem {α : Type} {d : α} {m : SMap α} {i : Nat} (h : smapGet d m i ≠ d) : (i, smapGet d m i) ∈ m := by
  by_contra hno
  induction m with
  | nil => exact h rfl
  | cons e m ih =>
    obtain ⟨k, v⟩ := e
    by_cases hk : k = i
    · have hv : smapGet d ((k, v) :: m) i = v := by simp [smapGet, hk]
      rw [hv, ← hk] at hno
      exact hno List.mem_cons_self
    · have hv : smapGet d ((k, v) :: m) i = smapGet d m i := by simp [smapGet, hk]
      rw [hv] at h hno
      exact ih h (fun hm => hno (List.mem_cons_of_mem _ hm))

/-- Every station of the owner is unloaded. -/
theorem State.unloadFree_unloads (s : State) {owner st : Nat} (h : (s.station st).owner = owner) :
    ((s.unloadFree owner).station st).state = 0 := by
  obtain ⟨u, late, -, -, hstations, heq⟩ := s.unloadFree_eq owner
  rw [heq, ((u.setPart owner none).reclaimFit_states owner late).kept st]
  show (smapGet Station.unloaded u.stations st).state = 0
  rw [hstations]
  refine foldl_smapSet_unloaded _ _ _ ?_
  by_cases hs : (s.station st).state = 0
  · exact .inr hs
  · refine .inl (List.mem_map.mpr ⟨(st, s.station st), List.mem_filter.mpr ⟨?_, ?_⟩, rfl⟩)
    · exact smapGet_mem (d := Station.unloaded) (fun he => hs (congrArg Station.state he))
    · simp [hs, h]

/-! ### UNLOAD (R239, R240) -/

section Unload
variable {now : Nat} {fn : Func} {entry : List Word} {s : State}

theorem unload_not_next (h : s.nextUp fn.val 0x02 entry = false) : exec (.unload now fn entry) s = .next (s.advance now) := by
  have hn : (s.advance now).nextUp fn.val 0x02 entry = false := h
  exact congrArg Host.Outcome.next (if_neg (by rw [hn]; exact Bool.false_ne_true))

theorem unload_row (h : s.nextUp fn.val 0x02 entry = true) :
    exec (.unload now fn entry) s = .next ((s.advance now).unloadCommand fn.val entry) := by
  have hn : (s.advance now).nextUp fn.val 0x02 entry = true := h
  exact congrArg Host.Outcome.next (if_pos hn)

theorem unload_unclean (h : s.nextUp fn.val 0x02 entry = true) (hclean : entryClean entry 2 = false) :
    exec (.unload now fn entry) s = .next (((s.advance now).takeAccepted fn.val entry).answer fn.val entry 1 0) :=
  (unload_row h).trans (congrArg Host.Outcome.next (if_pos (by rw [hclean]; rfl)))

theorem unload_notLoaded (h : s.nextUp fn.val 0x02 entry = true) (hclean : entryClean entry 2 = true) (hnone : s.part fn.val = none) :
    exec (.unload now fn entry) s = .next (((s.advance now).takeAccepted fn.val entry).answer fn.val entry 8 0) := by
  have hnone' : (s.advance now).part fn.val = none := hnone
  refine (unload_row h).trans (congrArg Host.Outcome.next ((if_neg (by rw [hclean]; decide)).trans (if_pos ?_)))
  rw [hnone']
  rfl

theorem unload_stops (h : s.nextUp fn.val 0x02 entry = true) (hclean : entryClean entry 2 = true) (hsome : s.part fn.val ≠ none)
    {v : State} (hv : (s.advance now).unloadStop fn.val = v) :
    exec (.unload now fn entry) s =
      .next (if v.ownerBusy fn.val = true then v else ((v.unloadFree fn.val).takeAccepted fn.val entry).answer fn.val entry 0 0) := by
  subst hv
  have hsome' : ¬ ((s.advance now).part fn.val).isNone = true := fun hn => hsome (Option.isNone_iff_eq_none.mp hn)
  exact (unload_row h).trans (congrArg Host.Outcome.next ((if_neg (by rw [hclean]; decide)).trans (if_neg hsome')))

theorem unload_frees (h : s.nextUp fn.val 0x02 entry = true) (hclean : entryClean entry 2 = true) (hsome : s.part fn.val ≠ none)
    (hfree : ((s.advance now).unloadStop fn.val).ownerBusy fn.val = false) :
    ∃ t, exec (.unload now fn entry) s = .next t ∧ t.part fn.val = none ∧
      (∀ st, (s.station st).state ≠ 0 → (s.station st).owner = fn.val → (t.station st).state = 0) ∧ t.cells = s.cells ∧
      t.shards = s.shards := by
  have hrow := unload_stops (now := now) h hclean hsome rfl
  rw [hfree, if_neg Bool.false_ne_true] at hrow
  have howner (st : Nat) (ho : (s.station st).owner = fn.val) : (((s.advance now).unloadStop fn.val).station st).owner = fn.val :=
    (((s.advance now).unloadStop_owners fn.val).kept st).trans ho
  have hstop := (s.advance now).unloadStop_within fn.val
  generalize (s.advance now).unloadStop fn.val = v at hrow howner hstop
  have hparts := v.unloadFree_parts fn.val
  have hstate (st : Nat) (ho : (s.station st).owner = fn.val) := v.unloadFree_unloads (howner st ho)
  have hw := v.unloadFree_within fn.val
  generalize v.unloadFree fn.val = w at hrow hparts hstate hw
  have hend : Within ⟨.accepted :: State.completeWrites.parts, State.completeWrites.flds⟩ w ((w.takeAccepted fn.val entry).answer fn.val entry 0 0) :=
    (State.complete_within ..).after ((State.takeAccepted_within ..).mono)
  generalize (w.takeAccepted fn.val entry).answer fn.val entry 0 0 = t at hrow hend
  refine ⟨t, hrow, ?_, fun st _ ho => ?_, ?_, ?_⟩
  · rw [hend.touch.part]
    unfold State.part
    rw [hparts, smapGet_set_same]
  · rw [hend.touch.station]
    exact hstate st ho
  · exact (show t.cells = w.cells from hend.touch.same .cells).trans ((show w.cells = v.cells from hw.touch.same .cells).trans (hstop.touch.same .cells))
  · exact (show t.shards = w.shards from hend.touch.same .shards).trans
      ((show w.shards = v.shards from hw.touch.same .shards).trans (hstop.touch.same .shards))

theorem unload_waits (h : s.nextUp fn.val 0x02 entry = true) (hclean : entryClean entry 2 = true) (hsome : s.part fn.val ≠ none)
    (hbusy : ((s.advance now).unloadStop fn.val).ownerBusy fn.val = true) :
    exec (.unload now fn entry) s = .next ((s.advance now).unloadStop fn.val) ∧
      ((s.advance now).unloadStop fn.val).nextUp fn.val 0x02 entry = true ∧
      ((s.advance now).unloadStop fn.val).part fn.val = s.part fn.val := by
  have hstop := (s.advance now).unloadStop_within fn.val
  refine ⟨(unload_stops h hclean hsome rfl).trans (congrArg Host.Outcome.next (if_pos hbusy)), ?_, hstop.touch.part _⟩
  have hacc : ((s.advance now).unloadStop fn.val).accepted = s.accepted := hstop.touch.same .accepted
  unfold State.nextUp at h ⊢
  rw [hacc, hstop.touch.fnst]
  exact h

end Unload

/-- Settles O47: LOAD_BITSTREAM is whole or not at all, and UNLOAD frees the partition once nothing of it is in progress. -/
theorem partitions : Obligations.Partitions := by
  unfold Obligations.Partitions
  refine ⟨fun now fn entry bytes s => ?_, fun now fn entry bytes s => ⟨?_, ?_, ?_⟩, fun now fn entry s h => ⟨?_, ?_, ?_, ?_⟩⟩
  · exact fun hbear hnext hclean => loadBitstream_loads hbear hnext hclean rfl rfl rfl
  · exact loadBitstream_unclean
  · exact loadBitstream_not_next
  · exact unload_not_next
  · exact unload_unclean h
  · exact unload_notLoaded h
  · exact unload_frees h
  · exact unload_waits h

end Sys2Proof.Machine
end

section
/-!
REFUTATION. Two names of one slot (R163, O24).
-/

set_option Elab.async false

namespace Sys2Proof.Machine
open Sys2Proof

/-! ### Two names of one slot (R163)

A slot's registers stand by `SlotRef.inst`, unit times slots of a memory plus entry, so an entry behind a core memory's 128 names a
slot of the next core's memory. The two refer to different rings. -/

/-- Entry 128 of core 0, which a ring holds, and entry 0 of core 1, which none does. -/
def beyondSlot : SlotRef := { km := false, unit := 0, n := 128 }
def nextSlot : SlotRef := { km := false, unit := 1, n := 0 }

theorem State.slot_beyond (s : State) : s.slot beyondSlot = s.slot nextSlot := rfl

/-- A tile without vectors that releases both. -/
def twinTile : Tile :=
  { d := 0, st := 0, unit := 17, ins := [], parts := [], outs := [], nvec := 0, done := [], flags := 0, start := 0, word := none, old := false,
    pois := [], src := nextSlot, gone := [beyondSlot, nextSlot], sent := false, oldCopy := false, worked := 0, turn := false }

/-- Core 0 is on, the tile is in progress there, and a ring of one slot stands at entry 128 of its memory. -/
def twinState : State := { State.reset with
  regs := [(fkey .CPT_DOM_CORE 0, 1)]
  rings := [(128, { Ring.free with len := 1 })]
  tiles := [(0, [twinTile])] }

/-- Where the tile's end leaves it. -/
def twinEnd : State := ((twinState.advance 0).releaseIns twinTile).tileEnd 0 twinTile

theorem twinState_completes : exec (.tileComplete 0 0 0 0) twinState = .next twinEnd := by rfl

theorem State.rings_tileEnd (s : State) (core : Nat) (tl : Tile) : ((s.releaseIns tl).tileEnd core tl).rings = s.rings :=
  (show _ = (s.releaseIns tl).rings from ((s.releaseIns tl).tileEnd_within core tl).touch.same .rings).trans
    ((s.releaseIns_within tl).touch.same .rings)

theorem twinEnd_rings : (twinEnd.ringOf beyondSlot).isSome = true ∧ (twinEnd.ringOf nextSlot).isSome = false := by
  have hrings : twinEnd.rings = [(128, { Ring.free with len := 1 })] := State.rings_tileEnd (twinState.advance 0) 0 twinTile
  unfold State.ringOf
  rw [hrings]
  exact ⟨by decide, by decide⟩

/-- Refutes O24: TILE_COMPLETE makes each slot that it releases Empty where a ring holds it and Unallocated where none does. Of two
names of one slot, of which a ring holds one, both cannot hold; that the names are of different slots the statement does not say. -/
theorem not_tilesEnd : ¬ Obligations.TilesEnd := by
  unfold Obligations.TilesEnd
  rintro ⟨hend, -⟩
  obtain ⟨t, hrow, -, hslots, -⟩ := hend 0 0 0 0 twinState twinTile (by decide) (by decide) (by decide)
  have ht : t = twinEnd := (Host.Outcome.next.inj (twinState_completes.symm.trans hrow)).symm
  have hbeyond := hslots beyondSlot (by decide)
  have hnext := hslots nextSlot (by decide)
  obtain ⟨hheld, hfree⟩ := twinEnd_rings
  rw [ht, hheld, if_pos rfl, State.slot_beyond] at hbeyond
  rw [ht, hfree, if_neg Bool.false_ne_true, hbeyond] at hnext
  exact absurd hnext (by decide)

end Sys2Proof.Machine
end

section
/-!
PROOF. Tile starts (R155, R165, R201, R211, R466, O23).
-/

set_option Elab.async false

namespace Sys2Proof.Machine
open Sys2Proof

/-! ### What a tile start reads and keeps (R165, R201) -/

theorem State.desc_congr {s t : State} (h : t.sram = s.sram) (core d : Nat) : t.desc core d = s.desc core d := by
  have hword : t.descWord core d = s.descWord core d := by
    funext k
    unfold State.descWord State.word State.bytes State.byte
    rw [h]
  unfold State.desc
  rw [hword]

theorem State.nextRd_congr {s t : State} (h : t.rings = s.rings) (r : SlotRef) : t.nextRd r = s.nextRd r := by
  unfold State.nextRd State.ring
  rw [h]

theorem State.hdr_congr {s t : State} (hsram : t.sram = s.sram) {r : SlotRef} (haddr : t.slotAddr r = s.slotAddr r) (off n : Nat) :
    t.hdr r off n = s.hdr r off n := by
  unfold State.hdr State.bytes State.byte
  rw [hsram, haddr]

/-- What a start sets of a station: its grants, the sequence number of its last tile and its window. -/
def Station.start (y : Station) : Nat × Nat × List SlotRef := (y.grants, y.taken, y.window)

theorem Station.start_eq {y : Station} {g t : Nat} {w : List SlotRef} (h : y.start = (g, t, w)) : y.grants = g ∧ y.taken = t ∧ y.window = w := by
  simpa [Station.start] using h

theorem State.park_own_start (s : State) (st : Nat) {h : Hold} (how : (h == .descriptor || h == .sweep) = true) :
    StationKept Station.start s (s.park st h) := by
  unfold State.park
  extract_lets own u x y
  have hu : u = s := if_pos (by rw [show own = true from how]; rfl)
  clear_value u
  subst hu
  refine .ite (.refl u) (.setStation ?_)
  split
  · rfl
  · rfl

/-- A start takes a grant, notes the tile, and leaves the window. -/
theorem State.takeGrant_spec (s : State) (core d st : Nat) (r : SlotRef) :
    ((s.takeGrant core d st r).station st).start = ((s.station st).grants - 1, s.hdrSeq r, (s.station st).window) ∧
      (s.takeGrant core d st r).getF .STP_STAT_DIDX core = d % 64 := by
  unfold State.takeGrant
  extract_lets y u v
  have hu : (u.station st).start = ((s.station st).grants - 1, s.hdrSeq r, (s.station st).window) := by
    rw [show u.station st = _ from State.station_setStation_same ..]
    rfl
  have hv : v.station st = u.station st := by
    have hw : Within ⟨[.regs], [.STP_STAT_STATION, .STP_STAT_DIDX]⟩ u v := (State.setF_within ..).after ((State.setF_within ..).mono)
    exact hw.touch.station st
  have hd : v.getF .STP_STAT_DIDX core = d % 64 :=
    (State.getF_setF_ne _ _ (by simp)).trans (State.getF_setF_same u .STP_STAT_DIDX core d)
  clear_value v u
  split
  · exact ⟨((v.park_own_start st rfl).kept st).trans (by rw [hv, hu]), ((State.park_within ..).getF _ _).trans hd⟩
  · exact ⟨by rw [hv, hu], hd⟩

theorem State.enterTile_start (s : State) (st : Nat) : StationKept Station.start s (s.enterTile st) := by
  unfold State.enterTile
  extract_lets x
  exact .ite (.setStation rfl) (.refl s)

theorem State.takeSlot_slot (s : State) (st : Nat) (h : SlotRef) (keep : Bool) :
    (s.takeSlot st h keep).slot (s.nextRd h) = if keep then 3 else 0 := by
  have hlt : (if keep = true then 3 else 0) < 8 := by
    split
    · decide
    · decide
  unfold State.takeSlot
  extract_lets r u
  split
  · exact State.slot_setSlot_same _ _ hlt
  · exact State.slot_setSlot_same _ _ hlt

/-- The torn mark of a slot goes as its tile is taken. -/
theorem State.takeSlot_torn (s : State) (st : Nat) (h : SlotRef) (keep : Bool) :
    (s.takeSlot st h keep).torn (s.nextRd h) = false := by
  unfold State.takeSlot
  extract_lets r u
  have hset (z : State) (v : Nat) : (z.setSlot r v).torn r = z.torn r := (State.setSlot_within ..).torn r
  split
  · rw [hset]
    unfold State.tornTaken
    extract_lets x
    have hw (z : State) : Within ⟨State.countWrites.parts ++ State.raiseWrites.parts, State.countWrites.flds⟩ z
        ((z.count st 2 1).raise 0x303 x.owner (x.core / 8) (x.core % 8) st []) := (State.raise_within ..).after ((State.count_within ..).mono)
    rw [(hw _).torn r, State.torn_setTorn_same]
  next hno =>
    rw [hset]
    exact Bool.eq_false_iff.mpr hno

/-- What the begin of a tile does before the tile stands. -/
def State.beginFirstWrites : Writes := ⟨State.beginTileWrites.parts.filter (fun p => p != .stations && p != .tiles), State.beginTileWrites.flds⟩

/-- The tile that begins, of the descriptor, with the newest header's vectors. -/
theorem State.beginTile_spec {s : State} {core d : Nat} (u : Nat) (ins side gone : List SlotRef) (newest : SlotRef)
    (hnone : s.tileOf core d = none) :
    (∃ tl, (s.beginTile core u d ins side gone newest).tileOf core d = some tl ∧ tl.st = (s.desc core d).station ∧ tl.src = newest ∧
      tl.nvec = s.hdrNvec newest ∧ tl.done = [] ∧ tl.ins = ins ++ side) ∧
      StationKept Station.start s (s.beginTile core u d ins side gone newest) := by
  have hfresh (t : State) (n : Nat) : Within State.beginFirstWrites t { t with fresh := n } := (Within.update [.fresh] rfl).mono
  unfold State.beginTile
  extract_lets x st y outs parts flags nvec master word read s1 s2 s3 s4 s5 tl s6
  have hs1 : Within State.beginFirstWrites s s1 := 
    Within.ite _ (Within.trans (t := read) ((State.readEcc_within ..).mono) (hfresh _ _)) (Within.refl _ _)
  have hs2 : Within State.beginFirstWrites s s2 := Within.trans hs1 (Within.foldl _ (fun _ _ => (State.readEcc_within ..).mono) _ _)
  have hs3 : Within State.beginFirstWrites s s3 := Within.trans hs2 (Within.foldl _ (fun _ _ => (State.stepWr_within ..).after ((State.setSlot_within ..).mono)) _ _)
  have hs4 : Within State.beginFirstWrites s s4 := Within.trans hs3 (Within.foldl _ (fun _ _ => (State.stepRd_within ..).mono) _ _)
  have hs5 : Within State.beginFirstWrites s s5 := Within.ite _ (Within.trans hs4 (Within.foldl _ (fun _ _ => (State.armEngine_within ..).mono) _ _))
    ((State.noteUnit_within ..).after hs4)
  have htl : tl.d = d ∧ tl.st = (s.desc core d).station ∧ tl.src = newest ∧ tl.nvec = s.hdrNvec newest ∧ tl.done = [] ∧ tl.ins = ins ++ side :=
    ⟨rfl, rfl, rfl, rfl, rfl, rfl⟩
  have hs6 : s6.coreTiles core = s5.coreTiles core ++ [tl] := State.coreTiles_setCoreTiles_same ..
  have hw6 : Within ⟨[.tiles], []⟩ s5 s6 := State.setCoreTiles_within ..
  have htiles : s5.coreTiles core = s.coreTiles core := hs5.touch.coreTiles core
  clear_value s6 s5 tl
  obtain ⟨hd, hst, hsrc, hnvec, hdone, hins⟩ := htl
  refine ⟨⟨tl, ?_, hst, hsrc, hnvec, hdone, hins⟩, ?_⟩
  · unfold State.tileOf at hnone ⊢
    rw [(s6.enterTile_within st).touch.coreTiles, hs6, htiles, List.find?_append, hnone, List.find?_cons_of_pos (by simp [hd])]
    rfl
  · exact ((StationKept.of_within hs5).trans (.of_within hw6)).trans (s6.enterTile_start st)

/-! ### Stations with one input ring (R165, R466) -/

/-- The tiles of a window of `k` once the tile `r` has joined it: a full one lets its oldest go. -/
def joined (ws : List SlotRef) (k : Nat) (r : SlotRef) : List SlotRef := (if k ≤ ws.length then ws.drop 1 else ws) ++ [r]

/-- The tile at the front of ring `h` joins the window of `k` of a station that starts. -/
def State.joinWindow (s : State) (core d st k : Nat) (h : SlotRef) : State :=
  let u := s.takeGrant core d st (s.nextRd h)
  let y := u.station st
  let v := if k ≤ y.window.length then (match y.window.head? with | some o => u.emptySlot o | none => u) else u
  (v.setStation st { y with window := joined y.window k (s.nextRd h) }).takeSlot st h true

section OneRing
variable {s : State} {core u d : Nat} {x : Desc} {h : SlotRef} (hx : s.desc core d = x) (hin : x.inRings core = [h])
include hx hin

/-- How the start of a station with one input ring goes. -/
theorem State.startWindow_oneRing :
    s.startWindow core u d =
      if (s.torn (s.nextRd h) && decide (x.window ≤ 1)) = true then
        (x.partRings core).foldl State.skipPart ((s.takeGrant core d x.station (s.nextRd h)).takeSlot x.station h false)
      else if (s.torn (s.nextRd h) ||
          decide ((joined ((s.takeGrant core d x.station (s.nextRd h)).station x.station).window x.window (s.nextRd h)).length < x.window)) = true then
        (x.partRings core).foldl State.skipPart (s.joinWindow core d x.station x.window h)
      else (s.joinWindow core d x.station x.window h).beginTile core u d
        (joined ((s.takeGrant core d x.station (s.nextRd h)).station x.station).window x.window (s.nextRd h)) []
        ((joined ((s.takeGrant core d x.station (s.nextRd h)).station x.station).window x.window (s.nextRd h)).take 1 ++ []) (s.nextRd h) := by
  subst hx
  unfold State.startWindow
  dsimp only
  rw [hin]
  dsimp only
  cases s.torn (s.nextRd h) with
  | true => rfl
  | false => rfl

end OneRing

def State.joinWrites : Writes :=
  ⟨State.takeGrantWrites.parts ++ State.takeSlotWrites.parts, State.takeGrantWrites.flds ++ State.takeSlotWrites.flds⟩

/-- The tile stands in the window, its slot Reading. -/
theorem State.joinWindow_spec (s : State) (core d st k : Nat) (h : SlotRef) :
    ((s.joinWindow core d st k h).station st).start =
        ((s.station st).grants - 1, s.hdrSeq (s.nextRd h), joined (s.station st).window k (s.nextRd h)) ∧
      (s.joinWindow core d st k h).getF .STP_STAT_DIDX core = d % 64 ∧ (s.joinWindow core d st k h).slot (s.nextRd h) = 3 ∧
      Within State.joinWrites s (s.joinWindow core d st k h) := by
  unfold State.joinWindow
  extract_lets u y v
  obtain ⟨hstart, hdidx⟩ := s.takeGrant_spec core d st (s.nextRd h)
  have hu : Within State.takeGrantWrites s u := s.takeGrant_within core d st (s.nextRd h)
  have hy : y.start = ((s.station st).grants - 1, s.hdrSeq (s.nextRd h), (s.station st).window) := hstart
  have hud : u.getF .STP_STAT_DIDX core = d % 64 := hdidx
  have hv : Within ⟨[.regs], [.CMC_SLOT_STATE, .KMC_SLOT_STATE]⟩ u v := by
    unfold v
    split
    · split
      · exact State.emptySlot_within ..
      · exact Within.refl _ _
    · exact Within.refl _ _
  clear_value u y v
  have hset : Within ⟨[.stations], []⟩ v (v.setStation st { y with window := joined y.window k (s.nextRd h) }) := State.setStation_within ..
  have hown : (v.setStation st { y with window := joined y.window k (s.nextRd h) }).station st = { y with window := joined y.window k (s.nextRd h) } :=
    State.station_setStation_same ..
  generalize v.setStation st { y with window := joined y.window k (s.nextRd h) } = w at hset hown ⊢
  have hall : Within State.joinWrites s w := hset.after (hv.after hu.mono)
  have hnext : w.nextRd h = s.nextRd h := State.nextRd_congr ((show w.rings = v.rings from hset.touch.same .rings).trans
    ((show v.rings = u.rings from hv.touch.same .rings).trans (hu.touch.same .rings))) h
  have htake := w.takeSlot_within st h true
  have hslot := w.takeSlot_slot st h true
  rw [hnext] at hslot
  generalize w.takeSlot st h true = t at htake hslot ⊢
  refine ⟨?_, ?_, hslot, htake.after hall⟩
  · obtain ⟨hg, ht, hwin⟩ : y.grants = (s.station st).grants - 1 ∧ y.taken = s.hdrSeq (s.nextRd h) ∧ y.window = (s.station st).window := by
      simpa [Station.start] using hy
    rw [htake.touch.station, hown]
    unfold Station.start
    dsimp only
    rw [hg, ht, hwin]
  · rw [htake.getF _ _, hset.getF _ _, hv.getF _ _, hud]

/-- The starts of several partial-sum tiles that give no output leave the stations and the number of the last descriptor. -/
theorem State.foldl_skipPart_within (hs : List SlotRef) (s : State) : Within State.skipPartWrites s (hs.foldl State.skipPart s) :=
  Within.foldl _ (fun t h => t.skipPart_within h) _ _

theorem length_joined (ws : List SlotRef) (k : Nat) (r : SlotRef) : (joined ws k r).length < k ↔ ws.length + 1 < k := by
  unfold joined
  split
  next h =>
    rw [List.length_append, List.length_drop, List.length_singleton]
    omega
  next h =>
    rw [List.length_append, List.length_singleton]

section OneRingStart
variable {s : State} {core d : Nat} {x : Desc} {h : SlotRef} (u : Nat) (hx : s.desc core d = x) (hin : x.inRings core = [h])
include hx hin

/-- Every start of a station with one ring takes a grant and notes the tile. -/
theorem State.startWindow_takes (hnone : s.tileOf core d = none) :
    ((s.startWindow core u d).station x.station).grants = (s.station x.station).grants - 1 ∧
      ((s.startWindow core u d).station x.station).taken = s.hdrSeq (s.nextRd h) ∧
      (s.startWindow core u d).getF .STP_STAT_DIDX core = d % 64 := by
  rw [State.startWindow_oneRing hx hin]
  split
  · obtain ⟨hstart, hdidx⟩ := s.takeGrant_spec core d x.station (s.nextRd h)
    generalize s.takeGrant core d x.station (s.nextRd h) = v at hstart hdidx ⊢
    have htake := v.takeSlot_within x.station h false
    have hskip := State.foldl_skipPart_within (x.partRings core) (v.takeSlot x.station h false)
    obtain ⟨hg, ht, -⟩ := Station.start_eq hstart
    rw [hskip.touch.station, htake.touch.station, hskip.getF _ _, htake.getF _ _]
    exact ⟨hg, ht, hdidx⟩
  · obtain ⟨hstart, hdidx, -, hw⟩ := s.joinWindow_spec core d x.station x.window h
    generalize s.joinWindow core d x.station x.window h = v at hstart hdidx hw ⊢
    obtain ⟨hg, ht, -⟩ := Station.start_eq hstart
    split
    · have hskip := State.foldl_skipPart_within (x.partRings core) v
      rw [hskip.touch.station, hskip.getF _ _]
      exact ⟨hg, ht, hdidx⟩
    · have hvnone : v.tileOf core d = none := (congrArg (List.find? _) (hw.touch.coreTiles core)).trans hnone
      generalize joined _ _ _ = ws
      obtain ⟨-, hkept⟩ := State.beginTile_spec u ws [] (ws.take 1 ++ []) (s.nextRd h) hvnone
      have hb := v.beginTile_within core u d ws [] (ws.take 1 ++ []) (s.nextRd h)
      obtain ⟨kg, kt, -⟩ := Station.start_eq (hkept.kept x.station)
      rw [kg, kt, hb.getF _ _]
      exact ⟨hg, ht, hdidx⟩

/-- With its window full the tile begins. -/
theorem State.startWindow_begins (hnone : s.tileOf core d = none) (hwhole : s.torn (s.nextRd h) = false)
    (hfull : x.window ≤ (s.station x.station).window.length + 1) :
    ∃ tl, (s.startWindow core u d).tileOf core d = some tl ∧ tl.st = x.station ∧ tl.src = s.nextRd h ∧
      tl.nvec = s.hdrNvec (s.nextRd h) ∧ tl.done = [] := by
  obtain ⟨-, -, hwin⟩ := Station.start_eq (s.takeGrant_spec core d x.station (s.nextRd h)).1
  rw [State.startWindow_oneRing hx hin, hwhole, hwin, if_neg (by simp), if_neg (by simp [length_joined]; omega)]
  obtain ⟨-, -, -, hw⟩ := s.joinWindow_spec core d x.station x.window h
  generalize s.joinWindow core d x.station x.window h = v at hw ⊢
  have hvnone : v.tileOf core d = none := (congrArg (List.find? _) (hw.touch.coreTiles core)).trans hnone
  have hsram : v.sram = s.sram := hw.touch.same .sram
  generalize joined _ _ _ = ws
  obtain ⟨⟨tl, htile, hst, hsrc, hnvec, hdone, -⟩, -⟩ := State.beginTile_spec u ws [] (ws.take 1 ++ []) (s.nextRd h) hvnone
  refine ⟨tl, htile, hst.trans ?_, hsrc, hnvec.trans (State.hdr_congr hsram (hw.slotAddr _) _ _), hdone⟩
  rw [State.desc_congr hsram, hx]

/-- With the window short the tile joins it. -/
theorem State.startWindow_short (hnone : s.tileOf core d = none) (hwhole : s.torn (s.nextRd h) = false)
    (hshort : (s.station x.station).window.length + 1 < x.window) :
    (s.startWindow core u d).tileOf core d = none ∧
      ((s.startWindow core u d).station x.station).window = (s.station x.station).window ++ [s.nextRd h] ∧
      (x.partRings core = [] → (s.startWindow core u d).slot (s.nextRd h) = 3) := by
  obtain ⟨-, -, hwin⟩ := Station.start_eq (s.takeGrant_spec core d x.station (s.nextRd h)).1
  rw [State.startWindow_oneRing hx hin, hwhole, hwin, if_neg (by simp), if_pos (by simp [length_joined]; omega)]
  obtain ⟨hstart, -, hslot, hw⟩ := s.joinWindow_spec core d x.station x.window h
  generalize s.joinWindow core d x.station x.window h = v at hstart hslot hw ⊢
  have hskip := State.foldl_skipPart_within (x.partRings core) v
  obtain ⟨-, -, hvwin⟩ := Station.start_eq hstart
  refine ⟨?_, ?_, fun hparts => ?_⟩
  · exact (congrArg (List.find? _) ((hskip.touch.coreTiles core).trans (hw.touch.coreTiles core))).trans hnone
  · rw [hskip.touch.station, hvwin]
    unfold joined
    rw [if_neg (by omega)]
  · rw [hparts]
    exact hslot

/-- A torn tile gives no output, and its slot is Empty. -/
theorem State.startWindow_torn (hnone : s.tileOf core d = none) (htorn : s.torn (s.nextRd h) = true) (hk : x.window ≤ 1)
    (hparts : x.partRings core = []) :
    (s.startWindow core u d).tileOf core d = none ∧ (s.startWindow core u d).slot (s.nextRd h) = 0 ∧
      (s.startWindow core u d).torn (s.nextRd h) = false := by
  rw [State.startWindow_oneRing hx hin, htorn, if_pos (by simpa using hk), hparts]
  have hg := s.takeGrant_within core d x.station (s.nextRd h)
  generalize hv : s.takeGrant core d x.station (s.nextRd h) = v at hg
  have hnext : v.nextRd h = s.nextRd h := State.nextRd_congr (hg.touch.same .rings) h
  have htake := v.takeSlot_within x.station h false
  have hslot := v.takeSlot_slot x.station h false
  have htaken := v.takeSlot_torn x.station h false
  rw [hnext] at hslot htaken
  exact ⟨(congrArg (List.find? _) ((htake.touch.coreTiles core).trans (hg.touch.coreTiles core))).trans hnone, hslot, htaken⟩

end OneRingStart

/-! ### Merge stations (R155) -/

/-- A merge none of whose input tiles is torn takes the matched set. -/
theorem State.startMerge_begins {s : State} {core d : Nat} {x : Desc} (u : Nat) (hx : s.desc core d = x) (hnone : s.tileOf core d = none)
    (hwhole : ∀ h, h ∈ x.inRings core → s.torn (s.nextRd h) = false) :
    ∃ tl, (s.startMerge core u d).tileOf core d = some tl ∧ tl.st = x.station ∧ tl.ins = (x.inRings core).map s.nextRd ∧
      ((s.startMerge core u d).station x.station).grants = (s.station x.station).grants - 1 := by
  subst hx
  have hfind : ((s.desc core d).inRings core).find? (fun h => s.torn (s.nextRd h)) = none := by
    rw [List.find?_eq_none]
    intro h hh
    rw [hwhole h hh]
    exact Bool.false_ne_true
  unfold State.startMerge
  dsimp only
  rw [hfind]
  dsimp only
  generalize hins : ((s.desc core d).inRings core).map s.nextRd = ins
  generalize ins.headD { km := false, unit := core, n := 0 } = r
  obtain ⟨hstart, -⟩ := s.takeGrant_spec core d (s.desc core d).station r
  have hg := s.takeGrant_within core d (s.desc core d).station r
  generalize s.takeGrant core d (s.desc core d).station r = v at hstart hg ⊢
  have htake : Within State.takeSlotWrites v
      (((s.desc core d).inRings core).foldl (fun t h => t.takeSlot (s.desc core d).station h true) v) :=
    Within.foldl _ (fun t h => t.takeSlot_within _ h true) _ _
  generalize ((s.desc core d).inRings core).foldl (fun t h => t.takeSlot (s.desc core d).station h true) v = w at htake ⊢
  have hwnone : w.tileOf core d = none :=
    (congrArg (List.find? _) ((htake.touch.coreTiles core).trans (hg.touch.coreTiles core))).trans hnone
  have hsram : w.sram = s.sram := (show w.sram = v.sram from htake.touch.same .sram).trans (hg.touch.same .sram)
  obtain ⟨⟨tl, htile, hst, -, -, -, htlins⟩, hkept⟩ := State.beginTile_spec u ins [] ins r hwnone
  obtain ⟨hgr, -, -⟩ := Station.start_eq hstart
  obtain ⟨hkg, -, -⟩ := Station.start_eq (hkept.kept (s.desc core d).station)
  refine ⟨tl, htile, hst.trans ?_, htlins.trans (List.append_nil ins), hkg.trans ?_⟩
  · rw [State.desc_congr hsram]
  · rw [htake.touch.station, hgr]

/-! ### The exception DESCRIPTOR (R211) -/

theorem State.park_descriptor_holds {s : State} {st : Nat} (h : (s.station st).state ≠ 0) :
    Hold.descriptor ∈ ((s.park st .descriptor).station st).holds := by
  unfold State.park
  extract_lets own u x y
  have hu : u = s := if_pos rfl
  clear_value u
  subst hu
  have hy : Hold.descriptor ∈ y.holds := by
    show Hold.descriptor ∈ (if x.holds.contains .descriptor then x.holds else x.holds ++ [.descriptor])
    split
    next hc => exact List.contains_iff_mem.mp hc
    · exact List.mem_append_right _ List.mem_cons_self
  rw [if_neg h, State.station_setStation_same]
  split
  · exact hy
  · exact hy

theorem State.descExc_spec {s : State} {core d : Nat} {x : Desc} (reason : Nat) (hx : s.desc core d = x)
    (hfree : s.bit .STP_EXC_VALID core = false) (hstate : (s.station x.station).state ≠ 0) :
    (s.descExc core d reason).getF .STP_EXC_VALID core = 1 ∧
      (s.descExc core d reason).getF .STP_EXC_REASON core = reason % 2 ^ Fld.STP_EXC_REASON.width ∧
      (s.descExc core d reason).getF .STP_EXC_DIDX core = d % 64 ∧
      Hold.descriptor ∈ ((s.descExc core d reason).station x.station).holds := by
  subst hx
  unfold State.descExc
  extract_lets st y v w
  have hv : v.getF .STP_EXC_VALID core = 1 ∧ v.getF .STP_EXC_REASON core = reason % 2 ^ Fld.STP_EXC_REASON.width ∧
      v.getF .STP_EXC_DIDX core = d % 64 := by
    have heq : v = (((s.setF .STP_EXC_VALID core 1).setF .STP_EXC_REASON core reason).setF .STP_EXC_DIDX core d).setF .STP_EXC_STATION core st :=
      if_neg (by rw [hfree]; exact Bool.false_ne_true)
    rw [heq]
    simp [State.getF_setF, Fld.width, Fld.info]
  have hvst : v.station st = s.station st := (State.capture_within ..).touch.station st rfl
  clear_value v
  obtain ⟨hvalid, hreason, hdidx⟩ := hv
  have hhold := State.park_descriptor_holds (s := v) (st := st) (by rw [hvst]; exact hstate)
  have hpark := v.park_within st .descriptor
  have hraise (z : State) := z.raise_within 0x203 y.owner (core / 8) (core % 8) st [BitVec.ofNat 8 reason]
  have hw : Within State.parkWrites v w := Within.after (hraise _) hpark
  have hwhold : Hold.descriptor ∈ (w.station st).holds := by
    rw [show w.station st = _ from (hraise _).touch.station st]
    exact hhold
  clear_value w
  have hend (z : State) (i pc : Nat) := z.seqCapture_within i 0x20 pc
  split
  · rw [(hend ..).getF _ _, (hend ..).getF _ _, (hend ..).getF _ _, (hend ..).touch.station, hw.getF _ _, hw.getF _ _, hw.getF _ _]
    exact ⟨hvalid, hreason, hdidx, hwhold⟩
  · rw [hw.getF _ _, hw.getF _ _, hw.getF _ _]
    exact ⟨hvalid, hreason, hdidx, hwhold⟩

/-! ### TILE_START (R155, R165, R201, R211) -/

/-- The state in which a core picks the station that starts on a unit. -/
def State.picking (s : State) (now core u : Nat) : State :=
  if u = 19 then ((s.advance now).latchAll.changesHeld core).alignMerges core else (s.advance now).latchAll.changesHeld core

/-- With no change of placement held back nothing is written before a station is picked. -/
theorem State.picking_bytes {s : State} (now core u : Nat) (h : s.snapHeld = []) : KeepsBytes s (s.picking now core u) nowhere := by
  have hlatch : Within ⟨[.groups], []⟩ (s.advance now) (s.advance now).latchAll := State.latchAll_within ..
  have hheld : (s.advance now).latchAll.snapHeld = [] := (show _ = (s.advance now).snapHeld from hlatch.touch.same .snapHeld).trans h
  have hsram : (s.advance now).latchAll.sram = s.sram := hlatch.touch.same .sram
  generalize hz : (s.advance now).latchAll = z at hheld hsram
  have hchange : (z.changesHeld core).sram = z.sram := by
    unfold State.changesHeld
    rw [hheld]
    rfl
  have halign : ((z.changesHeld core).alignMerges core).sram = (z.changesHeld core).sram := (State.alignMerges_within ..).touch.same .sram
  unfold State.picking
  rw [hz]
  split
  · exact .of_sram_eq (halign.trans (hchange.trans hsram)) _
  · exact .of_sram_eq (hchange.trans hsram) _

/-- The start of the descriptor `o` picked, if there is one; `refused` says for which reason a descriptor is invalid. -/
def State.startPicked (refused : Desc → Option Nat) (o : Option Nat) (w : State) (core u : Nat) : Host.Outcome State Fault Refusal :=
  match o with
  | some d =>
    let a := w.readEcc (fnMaster (w.station (w.desc core d).station).owner) (descAddr core d) 256
    (match refused (a.desc core d) with
      | some r => .next (a.descExc core d r)
      | none => .next (if (a.desc core d).merge then a.startMerge core u d else a.startWindow core u d))
  | none => .next w

section Picked
variable {refused : Desc → Option Nat} {o : Option Nat} {w a : State} {core d : Nat} {x : Desc} (u : Nat) (ho : o = some d)
  (ha : w.readEcc (fnMaster (w.station (w.desc core d).station).owner) (descAddr core d) 256 = a) (hx : a.desc core d = x)
include ho ha hx

theorem State.startPicked_valid (h : refused x = none) :
    w.startPicked refused o core u = .next (if x.merge = true then a.startMerge core u d else a.startWindow core u d) := by
  unfold State.startPicked
  rw [ho]
  dsimp only
  rw [ha, hx, h]

theorem State.startPicked_invalid {r : Nat} (h : refused x = some r) :
    w.startPicked refused o core u = .next (a.descExc core d r) := by
  unfold State.startPicked
  rw [ho]
  dsimp only
  rw [ha, hx, h]

end Picked

theorem exec_tileStart (now : Nat) (cl : Cluster) (co : Core) (u : Fin 20) (s : State) : exec (.tileStart now cl co u) s =
    if !((s.advance now).coreOn (coreIx cl co)) || (s.advance now).frozen (coreIx cl co) ||
        (s.advance now).getF .STP_STAT_STATE (coreIx cl co) = 3 then .next (s.advance now)
    else (s.picking now (coreIx cl co) u.val).startPicked Desc.reason ((s.picking now (coreIx cl co) u.val).pick (coreIx cl co) u.val) (coreIx cl co) u.val := rfl

theorem tileStart_goes (now : Nat) {s : State} {core : Nat} (hon : s.coreOn core = true) (hrun : s.frozen core = false)
    (hserves : s.getF .STP_STAT_STATE core ≠ 3) :
    ¬ (!((s.advance now).coreOn core) || (s.advance now).frozen core || decide ((s.advance now).getF .STP_STAT_STATE core = 3)) = true := by
  have hrun' : (s.advance now).frozen core = false := hrun
  rw [State.coreOn_advance, hon, hrun', State.getF_advance]
  simpa using hserves

section Start
variable {now : Nat} {cl : Cluster} {co : Core} {u : Fin 20} {s w : State} {d core : Nat} {x : Desc} (hcore : coreIx cl co = core)
  (hw : s.picking now core u.val = w) (hx : w.desc core d = x) (hon : s.coreOn core = true) (hrun : s.frozen core = false)
  (hserves : s.getF .STP_STAT_STATE core ≠ 3) (hpick : w.pick core u.val = some d)
include hcore hw hx hon hrun hserves hpick

/-- The descriptor that is picked is read, and starts or raises DESCRIPTOR. -/
theorem tileStart_row : ∃ a, Within State.readEccWrites w a ∧ a.desc core d = x ∧
    (x.reason = none → exec (.tileStart now cl co u) s =
      .next (if x.merge = true then a.startMerge core u.val d else a.startWindow core u.val d)) ∧
    (∀ r, x.reason = some r → exec (.tileStart now cl co u) s = .next (a.descExc core d r)) := by
  subst hcore
  have hrow := (exec_tileStart now cl co u s).trans (if_neg (tileStart_goes now hon hrun hserves))
  rw [hw] at hrow
  have hread := w.readEcc_within (fnMaster (w.station (w.desc (coreIx cl co) d).station).owner) (descAddr (coreIx cl co) d) 256
  generalize ha : w.readEcc (fnMaster (w.station (w.desc (coreIx cl co) d).station).owner) (descAddr (coreIx cl co) d) 256 = a at hread
  have hdesc : a.desc (coreIx cl co) d = x := (State.desc_congr (hread.touch.same .sram) _ _).trans hx
  exact ⟨a, hread, hdesc, fun h => hrow.trans (State.startPicked_valid _ hpick ha hdesc h),
    fun r h => hrow.trans (State.startPicked_invalid _ hpick ha hdesc h)⟩

theorem tileStart_window {y : Station} {h : SlotRef} (hy : w.station x.station = y) (hnone : w.tileOf core d = none) (hreason : x.reason = none)
    (hmerge : x.merge = false) (hin : x.inRings core = [h]) :
    ∃ t, exec (.tileStart now cl co u) s = .next t ∧ (t.station x.station).grants = y.grants - 1 ∧
      (t.station x.station).taken = w.hdrSeq (w.nextRd h) ∧ t.getF .STP_STAT_DIDX core = d % 64 ∧ KeepsBytes w t nowhere ∧
      (s.snapHeld = [] → KeepsBytes s t nowhere) ∧
      (w.torn (w.nextRd h) = false → x.window ≤ y.window.length + 1 →
        ∃ tl, t.tileOf core d = some tl ∧ tl.st = x.station ∧ tl.src = w.nextRd h ∧ tl.nvec = w.hdrNvec (w.nextRd h) ∧ tl.done = []) ∧
      (w.torn (w.nextRd h) = false → y.window.length + 1 < x.window →
        t.tileOf core d = none ∧ (t.station x.station).window = y.window ++ [w.nextRd h] ∧ (x.partRings core = [] → t.slot (w.nextRd h) = 3)) ∧
      (w.torn (w.nextRd h) = true → x.window ≤ 1 → x.partRings core = [] →
        t.tileOf core d = none ∧ t.slot (w.nextRd h) = 0 ∧ t.torn (w.nextRd h) = false) := by
  obtain ⟨a, hread, hdesc, hrow, -⟩ := tileStart_row hcore hw hx hon hrun hserves hpick
  have hrow := hrow hreason
  rw [hmerge, if_neg Bool.false_ne_true] at hrow
  have hnext : a.nextRd h = w.nextRd h := State.nextRd_congr (hread.touch.same .rings) h
  have hstation : a.station x.station = y := (hread.touch.station _).trans hy
  have hnone' : a.tileOf core d = none := (congrArg (List.find? _) (hread.touch.coreTiles core)).trans hnone
  have htorn : a.torn (w.nextRd h) = w.torn (w.nextRd h) := hread.torn _
  have hhdr (off n : Nat) : a.hdr (w.nextRd h) off n = w.hdr (w.nextRd h) off n :=
    State.hdr_congr (hread.touch.same .sram) (hread.slotAddr _) off n
  obtain ⟨hgrants, htaken, hdidx⟩ := State.startWindow_takes u.val hdesc hin hnone'
  have hbegins := State.startWindow_begins u.val hdesc hin hnone'
  have hshort := State.startWindow_short u.val hdesc hin hnone'
  have hgone := State.startWindow_torn u.val hdesc hin hnone'
  have hstart := a.startWindow_within core u.val d
  generalize a.startWindow core u.val d = t at hrow hgrants htaken hdidx hbegins hshort hgone hstart
  rw [hnext] at htaken hbegins hshort hgone
  rw [hstation] at hgrants hbegins hshort
  rw [htorn] at hbegins hshort hgone
  have hbytes : KeepsBytes w t nowhere := (KeepsBytes.of_within hread).trans (.of_within hstart)
  refine ⟨t, hrow, hgrants, htaken.trans (hhdr ..), hdidx, hbytes, fun hheld => ?_, fun hwhole hfull => ?_, hshort, hgone⟩
  · exact (hw ▸ State.picking_bytes now core u.val hheld : KeepsBytes s w nowhere).trans hbytes
  · obtain ⟨tl, htile, hst, hsrc, hnvec, hdone⟩ := hbegins hwhole hfull
    exact ⟨tl, htile, hst, hsrc, hnvec.trans (hhdr ..), hdone⟩

theorem tileStart_merge {y : Station} (hy : w.station x.station = y) (hnone : w.tileOf core d = none) (hreason : x.reason = none)
    (hmerge : x.merge = true) (hwhole : ∀ h, h ∈ x.inRings core → w.torn (w.nextRd h) = false) :
    ∃ (t : State) (tl : Tile), exec (.tileStart now cl co u) s = .next t ∧ t.tileOf core d = some tl ∧ tl.st = x.station ∧
      tl.ins = (x.inRings core).map w.nextRd ∧ (t.station x.station).grants = y.grants - 1 ∧ KeepsBytes w t nowhere := by
  obtain ⟨a, hread, hdesc, hrow, -⟩ := tileStart_row hcore hw hx hon hrun hserves hpick
  have hrow := hrow hreason
  rw [hmerge, if_pos rfl] at hrow
  have hnext : a.nextRd = w.nextRd := funext (State.nextRd_congr (hread.touch.same .rings))
  have hnone' : a.tileOf core d = none := (congrArg (List.find? _) (hread.touch.coreTiles core)).trans hnone
  obtain ⟨tl, htile, hst, hins, hgrants⟩ := State.startMerge_begins u.val hdesc hnone' (fun h hh => by
    rw [hnext]
    exact (hread.torn _).trans (hwhole h hh))
  have hstart := a.startMerge_within core u.val d
  refine ⟨_, tl, hrow, htile, hst, by rw [hins, hnext], ?_, (KeepsBytes.of_within hread).trans (.of_within hstart)⟩
  rw [hgrants, hread.touch.station, hy]

theorem tileStart_descriptor {r : Nat} (hreason : x.reason = some r) (hfree : w.bit .STP_EXC_VALID core = false)
    (hstate : (w.station x.station).state ≠ 0) :
    ∃ t, exec (.tileStart now cl co u) s = .next t ∧ t.getF .STP_EXC_VALID core = 1 ∧
      t.getF .STP_EXC_REASON core = r % 2 ^ Fld.STP_EXC_REASON.width ∧ t.getF .STP_EXC_DIDX core = d % 64 ∧
      Hold.descriptor ∈ (t.station x.station).holds ∧ KeepsBytes w t nowhere ∧ t.tiles = w.tiles := by
  obtain ⟨a, hread, hdesc, -, hrow⟩ := tileStart_row hcore hw hx hon hrun hserves hpick
  obtain ⟨hvalid, hr, hdidx, hholds⟩ := State.descExc_spec r hdesc ((hread.bit _ _).trans hfree) (by rw [hread.touch.station]; exact hstate)
  have hexc := a.descExc_within core d r
  exact ⟨_, hrow r hreason, hvalid, hr, hdidx, hholds, (KeepsBytes.of_within hread).trans (.of_within hexc),
    (show _ = a.tiles from hexc.touch.same .tiles).trans (hread.touch.same .tiles)⟩

end Start

/-- Settles O23: TILE_START of the station picked, by its windows, its merge or its exception. -/
theorem tileStarts : Obligations.TileStarts := by
  unfold Obligations.TileStarts
  intro now cl co u s d core v w x y hon hrun hserves hpick hnone
  refine ⟨fun h hreason hmerge hin => ?_, fun hreason hmerge hwhole => ?_, fun r hreason hfree hstate => ?_⟩
  · exact tileStart_window rfl rfl rfl hon hrun hserves hpick rfl hnone hreason hmerge hin
  · exact tileStart_merge rfl rfl rfl hon hrun hserves hpick rfl hnone hreason hmerge hwhole
  · exact tileStart_descriptor rfl rfl rfl hon hrun hserves hpick hreason hfree hstate

end Sys2Proof.Machine
end
